-- ==== Sys2Proof/Word.lean ====
section
/-!
DEFINITION. The word types of the XV96 (R8): a dword is 32 bits, a word is 128 bits, a byte is 8 bits, and bit 0 is
the least significant bit.
-/

namespace Sys2Proof

/-- A byte (R8). -/
abbrev Byte := BitVec 8

/-- A dword, the width of every register (R8). -/
abbrev DWord := BitVec 32

/-- A word, the width of the fabric, the control store and the data memory (R8). -/
abbrev Word := BitVec 128

/-- A run of bytes, the first byte at the lowest address. -/
abbrev Bytes := List Byte

/-- A store that lists only the keys whose value differs from the value an unlisted key reads as. -/
abbrev Sparse (α : Type) := List (Nat × α)

end Sys2Proof
end

