-- ==== Sys2Proof/Machine/Bits.lean ====
section
/-!
DEFINITION. Bit fields, byte order, signed numbers, rounding, cyclic redundancy checks and the two finite fields that
the blocks of the XV96 use.
-/

namespace Sys2Proof.Machine

/-- The `w` bits of `x` from bit `lo` up. -/
def bitsOf (x lo w : Nat) : Nat := (x >>> lo) % 2 ^ w

/-- `x` with the `w` bits from `lo` up replaced by the low `w` bits of `v`. -/
def putBits (x lo w v : Nat) : Nat :=
  x - ((x >>> lo) % 2 ^ w) <<< lo + (v % 2 ^ w) <<< lo

/-- 1 for true, 0 for false. -/
def bit (b : Bool) : Nat := if b then 1 else 0

/-- The two's complement number that the low `w` bits of `x` spell. -/
def signed (w x : Nat) : Int :=
  let y := x % 2 ^ w
  if y < 2 ^ (w - 1) then (y : Int) else (y : Int) - (2 ^ w : Nat)

/-- The low `w` bits of the two's complement form of `z`. -/
def unsigned (w : Nat) (z : Int) : Nat := (z % (2 ^ w : Nat)).toNat

/-- `z` limited to the range from `lo` to `hi`. -/
def limitI (lo hi z : Int) : Int := if z < lo then lo else if hi < z then hi else z

/-- `n` limited to the range from `lo` to `hi`. -/
def limitN (lo hi n : Nat) : Nat := if n < lo then lo else if hi < n then hi else n

/-- The integer nearest to `a / b`, halves away from zero. -/
def roundDiv (a b : Int) : Int :=
  if b = 0 then 0
  else if 0 ≤ a * b.sign then (2 * a.natAbs + b.natAbs) / (2 * b.natAbs)
  else -(((2 * a.natAbs + b.natAbs) / (2 * b.natAbs) : Nat) : Int)

/-- The number that bytes spell, the first byte least significant (R9). -/
def leNat : Bytes → Nat
  | [] => 0
  | b :: bs => b.toNat + 256 * leNat bs

/-- The first `n` bytes of a number, the least significant first (R9). -/
def leBytes : Nat → Nat → Bytes
  | 0, _ => []
  | n + 1, x => BitVec.ofNat 8 x :: leBytes n (x / 256)

/-- The bits of a byte run, bit 0 of the first byte first. -/
def bitsLE (bs : Bytes) : List Bool := bs.flatMap fun b => (List.range 8).map fun i => b.getLsbD i

/-- The number that a list of bits spells, the first bit most significant. -/
def msbNat (bs : List Bool) : Nat := bs.foldl (fun a b => 2 * a + bit b) 0

/-- The `w` bits of `x`, the most significant first. -/
def msbBits (w x : Nat) : List Bool := (List.range w).map fun i => x.testBit (w - 1 - i)

/-- The count of bits of a number that are 1, in its low `w` bits. -/
def popCount (w x : Nat) : Nat := ((List.range w).filter fun i => x.testBit i).length

/-- The exclusive or of the low `w` bits of `x`. -/
def parityOf (w x : Nat) : Bool := popCount w x % 2 = 1

/-- `f` applied `n` times. -/
def iter {α : Type} (f : α → α) : Nat → α → α
  | 0, a => a
  | n + 1, a => iter f n (f a)

/-- One bit of a cyclic redundancy check with reflected input and output. -/
def crcReflBit (poly c : Nat) : Nat :=
  if c % 2 = 1 then (c >>> 1) ^^^ poly else c >>> 1

/-- A cyclic redundancy check of `w` bits over bytes, reflected, without the final exclusive or. -/
def crcRefl (poly init : Nat) (bs : Bytes) : Nat :=
  bs.foldl (fun c b => iter (crcReflBit poly) 8 (c ^^^ b.toNat)) init

/-- One byte of a cyclic redundancy check of `w` bits, most significant bit first. -/
def crcMsbByte (w poly c : Nat) (b : Byte) : Nat :=
  iter (fun x => if x.testBit (w - 1) then ((x <<< 1) ^^^ poly) % 2 ^ w else (x <<< 1) % 2 ^ w) 8
    (c ^^^ (b.toNat <<< (w - 8)))

/-- A cyclic redundancy check of `w` bits over bytes, most significant bit first. -/
def crcMsb (w poly init : Nat) (bs : Bytes) : Nat := bs.foldl (crcMsbByte w poly) init

/-- CRC-32C (R51): polynomial 0x1EDC6F41, reflected, initial value and final exclusive or all ones. -/
def crc32c (bs : Bytes) : Nat := crcRefl 0x82F63B78 0xFFFFFFFF bs ^^^ 0xFFFFFFFF

/-- One doubling in GF(2^8) with the field polynomial 0x11D (R52, R559). -/
def gfDouble (a : Nat) : Nat :=
  if a.testBit 7 then ((a <<< 1) ^^^ 0x11D) % 256 else a <<< 1

/-- The product in GF(2^8) with the field polynomial 0x11D (R52, R559). -/
def gfMul (a b : Nat) : Nat :=
  (List.range 8).foldl (fun acc i => if b.testBit i then acc ^^^ iter gfDouble i a else acc) 0

/-- The `n`-th power in GF(2^8). -/
def gfPow (a n : Nat) : Nat := iter (gfMul a) n 1

/-- The inverse in GF(2^8): a to the power 254, which is 0 for 0. -/
def gfInv (a : Nat) : Nat := gfPow a 254

/-- The first `n` elements of a list, short lists filled up with `d`. -/
def takeFill {α : Type} (d : α) : Nat → List α → List α
  | 0, _ => []
  | n + 1, [] => d :: takeFill d n []
  | n + 1, a :: l => a :: takeFill d n l

/-- A list with its element `i` replaced; a list without that element is unchanged. -/
def setAt {α : Type} (l : List α) (i : Nat) (a : α) : List α := l.set i a

/-- The least natural number of the list of which `p` holds. -/
def findIdxFrom {α : Type} (p : α → Bool) : Nat → List α → Option Nat
  | _, [] => none
  | n, a :: l => if p a then some n else findIdxFrom p (n + 1) l

/-- The greatest whole number whose square does not exceed `n`, found bit by bit. -/
def isqrt (n : Nat) : Nat :=
  (List.range 64).foldr (fun i r => let c := r + 2 ^ i; if c * c ≤ n then c else r) 0

end Sys2Proof.Machine
end

