-- ==== Sys2Proof/Machine/Regs.lean ====
section
/-!
DEFINITION. The registers of the XV96 and their fields, read off the register tables and field maps of the spec: one
definition for each register (its block, its offset, how many there are and how far apart, which bits software may
write, set, clear by writing 1, or clear by reading, and its reset value) and one for each field.
Access types are those of R11.
-/

namespace Sys2Proof.Machine

/-- The register windows (Table 0-4). The spec gives no address of a window on the register bus, so that a register is
named by its window and its offset in it. -/
inductive Block where
  /-- read channel slices -/
  | rcs
  /-- Sheet Decode Engine -/
  | sde
  /-- write strategy generator and LDC -/
  | wsg
  /-- Control Law Engine -/
  | cle
  /-- spindle drive -/
  | spn
  /-- sled and clamp -/
  | sld
  /-- calibration sequencer -/
  | cal
  /-- buffer DRAM controller -/
  | drc
  /-- fabric and fabric cache -/
  | fbc
  /-- Ream journal -/
  | rj
  /-- host port: one unit window of BAR0 (R433) -/
  | hp
  /-- head control window, BAR2 (R465) -/
  | hc
  /-- Quire link -/
  | ql
  /-- parity engine and, from 0x100, fixity engine -/
  | pxe
  /-- power management -/
  | pmu
  /-- clocks -/
  | clk
  /-- fuse bank -/
  | fuse
deriving DecidableEq, Repr

/-- A number for each window, the high part of a register's key. -/
def Block.code : Block → Nat
  | .rcs => 0
  | .sde => 1
  | .wsg => 2
  | .cle => 3
  | .spn => 4
  | .sld => 5
  | .cal => 6
  | .drc => 7
  | .fbc => 8
  | .rj => 9
  | .hp => 10
  | .hc => 11
  | .ql => 12
  | .pxe => 13
  | .pmu => 14
  | .clk => 15
  | .fuse => 16

/-- A register, or an array of them: register (i, j) lies at `off + i * s1 + j * s2`. -/
structure Reg where
  /-- its window -/
  blk : Block
  /-- its offset in the window -/
  off : Nat
  /-- how many, first index -/
  n1 : Nat := 1
  /-- how far apart, first index -/
  s1 : Nat := 4
  /-- how many, second index -/
  n2 : Nat := 1
  /-- how far apart, second index -/
  s2 : Nat := 4
  /-- the bits software reads and writes -/
  rw : Nat := 0
  /-- the bits a write stores or acts on, and that read as zero -/
  wo : Nat := 0
  /-- the bits that a write of 1 clears -/
  w1c : Nat := 0
  /-- the bits that a read clears -/
  rc : Nat := 0
  /-- the value at reset -/
  reset : Nat := 0
deriving DecidableEq, Repr

/-- A field: `width` bits of a register from bit `lo` up. -/
structure Fld where
  /-- the register -/
  reg : Reg
  /-- the least significant bit -/
  lo : Nat
  /-- how many bits -/
  width : Nat
deriving DecidableEq, Repr

/-- RCS_ID[96] (R109). -/
def Reg.RCS_ID : Reg := { blk := .rcs, off := 0, n1 := 96, s1 := 0x400 }
/-- RCS_CTL[96] (R109). -/
def Reg.RCS_CTL : Reg := { blk := .rcs, off := 0x4, n1 := 96, s1 := 0x400, rw := 0x1ff, reset := 0xd0 }
/-- RCS_AFE[96] (R109). -/
def Reg.RCS_AFE : Reg := { blk := .rcs, off := 0x8, n1 := 96, s1 := 0x400, rw := 0x7fff, reset := 0x654 }
/-- RCS_TRIM[96] (R109). -/
def Reg.RCS_TRIM : Reg := { blk := .rcs, off := 0xc, n1 := 96, s1 := 0x400, rw := 0x1f7f }
/-- RCS_AGC[96] (R109). -/
def Reg.RCS_AGC : Reg := { blk := .rcs, off := 0x10, n1 := 96, s1 := 0x400, rw := 0xfff, reset := 0x1a0 }
/-- RCS_TR[96] (R109). -/
def Reg.RCS_TR : Reg := { blk := .rcs, off := 0x14, n1 := 96, s1 := 0x400, rw := 0xffffff, reset := 0x18e6a4 }
/-- RCS_NCO[96] (R109). -/
def Reg.RCS_NCO : Reg := { blk := .rcs, off := 0x18, n1 := 96, s1 := 0x400, reset := 0x1000000 }
/-- RCS_NCO_PRESET[96] (R109). -/
def Reg.RCS_NCO_PRESET : Reg := { blk := .rcs, off := 0x1c, n1 := 96, s1 := 0x400, wo := 0x81ffffff }
/-- RCS_TGT[96] (R109). -/
def Reg.RCS_TGT : Reg := { blk := .rcs, off := 0x20, n1 := 96, s1 := 0x400, rw := 0x3ff03ff, reset := 0xc90089 }
/-- RCS_EQ_CTL[96] (R109). -/
def Reg.RCS_EQ_CTL : Reg := { blk := .rcs, off := 0x24, n1 := 96, s1 := 0x400, rw := 0xf, wo := 0x10, reset := 0xa }
/-- RCS_SYNC[96] (R109). -/
def Reg.RCS_SYNC : Reg := { blk := .rcs, off := 0x28, n1 := 96, s1 := 0x400, rw := 0xff0f, reset := 0x1004 }
/-- RCS_CAP[96] (R109). -/
def Reg.RCS_CAP : Reg := { blk := .rcs, off := 0x2c, n1 := 96, s1 := 0x400, rw := 0xff }
/-- RCS_STAT[96] (R109). -/
def Reg.RCS_STAT : Reg := { blk := .rcs, off := 0x30, n1 := 96, s1 := 0x400, w1c := 0xff }
/-- RCS_SERVO_T[96] (R109). -/
def Reg.RCS_SERVO_T : Reg := { blk := .rcs, off := 0x34, n1 := 96, s1 := 0x400 }
/-- RCS_SERVO_W[96] (R109). -/
def Reg.RCS_SERVO_W : Reg := { blk := .rcs, off := 0x38, n1 := 96, s1 := 0x400 }
/-- RCS_BURST_AB[96] (R109). -/
def Reg.RCS_BURST_AB : Reg := { blk := .rcs, off := 0x3c, n1 := 96, s1 := 0x400 }
/-- RCS_BURST_CD[96] (R109). -/
def Reg.RCS_BURST_CD : Reg := { blk := .rcs, off := 0x40, n1 := 96, s1 := 0x400 }
/-- RCS_EQA_S[96][16] (R109). -/
def Reg.RCS_EQA_S : Reg := { blk := .rcs, off := 0x80, n1 := 96, s1 := 0x400, n2 := 16, s2 := 0x4, rw := 0x3ff }
/-- RCS_EQB_S[96][16] (R109). -/
def Reg.RCS_EQB_S : Reg := { blk := .rcs, off := 0xc0, n1 := 96, s1 := 0x400, n2 := 16, s2 := 0x4, rw := 0x3ff }
/-- RCS_EQA_L[96][16] (R109). -/
def Reg.RCS_EQA_L : Reg := { blk := .rcs, off := 0x100, n1 := 96, s1 := 0x400, n2 := 16, s2 := 0x4 }
/-- RCS_EQB_L[96][16] (R109). -/
def Reg.RCS_EQB_L : Reg := { blk := .rcs, off := 0x140, n1 := 96, s1 := 0x400, n2 := 16, s2 := 0x4 }
/-- RCS_FMT[4] (R109). -/
def Reg.RCS_FMT : Reg := { blk := .rcs, off := 0x18000, n1 := 4, s1 := 0x100, rw := 0xff, reset := 0x54 }
/-- RCS_BAND_BASE[4] (R109). -/
def Reg.RCS_BAND_BASE : Reg := { blk := .rcs, off := 0x18004, n1 := 4, s1 := 0x100, rw := 0x3fffff }
/-- RCS_BAND_RES[4] (R109). -/
def Reg.RCS_BAND_RES : Reg := { blk := .rcs, off := 0x18008, n1 := 4, s1 := 0x100 }
/-- RCS_CNT_LEAF[96] (R110). -/
def Reg.RCS_CNT_LEAF : Reg := { blk := .rcs, off := 0x180, n1 := 96, s1 := 0x400, rc := 0xffffffff }
/-- RCS_CNT_SYNC_MISS[96] (R110). -/
def Reg.RCS_CNT_SYNC_MISS : Reg := { blk := .rcs, off := 0x184, n1 := 96, s1 := 0x400, rc := 0xffffffff }
/-- RCS_CNT_OVR[96] (R110). -/
def Reg.RCS_CNT_OVR : Reg := { blk := .rcs, off := 0x188, n1 := 96, s1 := 0x400, rc := 0xffffffff }
/-- RCS_CNT_OVR_SMP[96] (R110). -/
def Reg.RCS_CNT_OVR_SMP : Reg := { blk := .rcs, off := 0x18c, n1 := 96, s1 := 0x400, rc := 0xffffffff }
/-- RCS_CNT_TLOSS[96] (R110). -/
def Reg.RCS_CNT_TLOSS : Reg := { blk := .rcs, off := 0x190, n1 := 96, s1 := 0x400, rc := 0xffffffff }
/-- RCS_CNT_SERVO_ERR[96] (R110). -/
def Reg.RCS_CNT_SERVO_ERR : Reg := { blk := .rcs, off := 0x194, n1 := 96, s1 := 0x400, rc := 0xffffffff }
/-- RCS_CNT_SLIP[96] (R110). -/
def Reg.RCS_CNT_SLIP : Reg := { blk := .rcs, off := 0x198, n1 := 96, s1 := 0x400, rc := 0xffffffff }
/-- RCS_CNT_BLANK[96] (R110). -/
def Reg.RCS_CNT_BLANK : Reg := { blk := .rcs, off := 0x19c, n1 := 96, s1 := 0x400, rc := 0xffffffff }
/-- SDE_CTL (R151). -/
def Reg.SDE_CTL : Reg := { blk := .sde, off := 0, rw := 0x3 }
/-- SDE_SCHED (R151). -/
def Reg.SDE_SCHED : Reg := { blk := .sde, off := 0x4, rw := 0x1f3f, reset := 0x1408 }
/-- SDE_LIMIT (R151). -/
def Reg.SDE_LIMIT : Reg := { blk := .sde, off := 0x8, rw := 0x3f3f3f3f, reset := 0x6281408 }
/-- SDE_BUCKET (R151). -/
def Reg.SDE_BUCKET : Reg := { blk := .sde, off := 0xc }
/-- SDE_STAT (R151). -/
def Reg.SDE_STAT : Reg := { blk := .sde, off := 0x10, w1c := 0xf }
/-- SDE_RING (R151). -/
def Reg.SDE_RING : Reg := { blk := .sde, off := 0x14, rw := 0x7f7fff, reset := 0x300000 }
/-- SDE_CTX_BASE (R151). -/
def Reg.SDE_CTX_BASE : Reg := { blk := .sde, off := 0x18, rw := 0x3ffff }
/-- SDE_CTX_CMD (R151). -/
def Reg.SDE_CTX_CMD : Reg := { blk := .sde, off := 0x1c, wo := 0xfff }
/-- SDE_LRES_BASE (R151). -/
def Reg.SDE_LRES_BASE : Reg := { blk := .sde, off := 0x20, rw := 0x3fffff }
/-- SDE_LRES_PI (R151). -/
def Reg.SDE_LRES_PI : Reg := { blk := .sde, off := 0x24 }
/-- SDE_LRES_CI (R151). -/
def Reg.SDE_LRES_CI : Reg := { blk := .sde, off := 0x28, rw := 0x1fff }
/-- SDE_SRES_BASE (R151). -/
def Reg.SDE_SRES_BASE : Reg := { blk := .sde, off := 0x30, rw := 0x3fffff }
/-- SDE_SRES_PI (R151). -/
def Reg.SDE_SRES_PI : Reg := { blk := .sde, off := 0x34 }
/-- SDE_SRES_CI (R151). -/
def Reg.SDE_SRES_CI : Reg := { blk := .sde, off := 0x38, rw := 0x7ff }
/-- SDE_OUTER (R151). -/
def Reg.SDE_OUTER : Reg := { blk := .sde, off := 0x3c, rw := 0x1f, reset := 0x4 }
/-- SDE_TEST (R151). -/
def Reg.SDE_TEST : Reg := { blk := .sde, off := 0x40, rw := 0xfffffff, reset := 0x600 }
/-- SDE_TEST_POS (R151). -/
def Reg.SDE_TEST_POS : Reg := { blk := .sde, off := 0x44, rw := 0xffff, wo := 0x80000000 }
/-- SDE_DET_CTL[4] (R151). -/
def Reg.SDE_DET_CTL : Reg := { blk := .sde, off := 0x100, n1 := 4, s1 := 0x10, rw := 0x1fffff, reset := 0x32188 }
/-- SDE_DET_LLR[4] (R151). -/
def Reg.SDE_DET_LLR : Reg := { blk := .sde, off := 0x104, n1 := 4, s1 := 0x10, rw := 0xffffff, reset := 0x100018 }
/-- SDE_CNT_LEAF (R155). -/
def Reg.SDE_CNT_LEAF : Reg := { blk := .sde, off := 0x80, rc := 0xffffffff }
/-- SDE_CNT_EXT (R155). -/
def Reg.SDE_CNT_EXT : Reg := { blk := .sde, off := 0x84, rc := 0xffffffff }
/-- SDE_CNT_NOCONV (R155). -/
def Reg.SDE_CNT_NOCONV : Reg := { blk := .sde, off := 0x88, rc := 0xffffffff }
/-- SDE_CNT_CRC (R155). -/
def Reg.SDE_CNT_CRC : Reg := { blk := .sde, off := 0x8c, rc := 0xffffffff }
/-- SDE_CNT_META (R155). -/
def Reg.SDE_CNT_META : Reg := { blk := .sde, off := 0x90, rc := 0xffffffff }
/-- SDE_CNT_PRE (R155). -/
def Reg.SDE_CNT_PRE : Reg := { blk := .sde, off := 0x94, rc := 0xffffffff }
/-- SDE_CNT_DROP (R155). -/
def Reg.SDE_CNT_DROP : Reg := { blk := .sde, off := 0x98, rc := 0xffffffff }
/-- SDE_CNT_ORPHAN (R155). -/
def Reg.SDE_CNT_ORPHAN : Reg := { blk := .sde, off := 0x9c, rc := 0xffffffff }
/-- SDE_CNT_OUTER (R155). -/
def Reg.SDE_CNT_OUTER : Reg := { blk := .sde, off := 0xa0, rc := 0xffffffff }
/-- SDE_CNT_CYC3 (R155). -/
def Reg.SDE_CNT_CYC3 : Reg := { blk := .sde, off := 0xa4, rc := 0xffffffff }
/-- WSG_CTL (R196). -/
def Reg.WSG_CTL : Reg := { blk := .wsg, off := 0, rw := 0x1 }
/-- WSG_STAT (R196). -/
def Reg.WSG_STAT : Reg := { blk := .wsg, off := 0x4, w1c := 0x3 }
/-- WSG_EJOB_BASE (R196). -/
def Reg.WSG_EJOB_BASE : Reg := { blk := .wsg, off := 0x8, rw := 0x3fffff }
/-- WSG_EJOB_PI (R196). -/
def Reg.WSG_EJOB_PI : Reg := { blk := .wsg, off := 0xc, rw := 0xff }
/-- WSG_EJOB_CI (R196). -/
def Reg.WSG_EJOB_CI : Reg := { blk := .wsg, off := 0x10 }
/-- WSG_OCTL[4] (R196). -/
def Reg.WSG_OCTL : Reg := { blk := .wsg, off := 0x100, n1 := 4, s1 := 0x100, rw := 0x7eb, wo := 0x14, reset := 0x280 }
/-- WSG_OSTAT[4] (R196). -/
def Reg.WSG_OSTAT : Reg := { blk := .wsg, off := 0x104, n1 := 4, s1 := 0x100, w1c := 0x3c }
/-- WSG_PLAN[4] (R196). -/
def Reg.WSG_PLAN : Reg := { blk := .wsg, off := 0x108, n1 := 4, s1 := 0x100, rw := 0x3fffff }
/-- WSG_LDC_CMD[4] (R196). -/
def Reg.WSG_LDC_CMD : Reg := { blk := .wsg, off := 0x10c, n1 := 4, s1 := 0x100, wo := 0xfffffff }
/-- WSG_LDC_RSP[4] (R196). -/
def Reg.WSG_LDC_RSP : Reg := { blk := .wsg, off := 0x110, n1 := 4, s1 := 0x100, rc := 0xfffff }
/-- WSG_LEAD[4][12] (R196). -/
def Reg.WSG_LEAD : Reg := { blk := .wsg, off := 0x140, n1 := 4, s1 := 0x100, n2 := 12, s2 := 0x4, rw := 0x1fffff }
/-- WSG_STRAT[4][21] (R196). -/
def Reg.WSG_STRAT : Reg :=
  { blk := .wsg, off := 0x180, n1 := 4, s1 := 0x100, n2 := 21, s2 := 0x4, rw := 0x1ffffff, reset := 0x1084210 }
/-- WSG_CNT_LEAF[4] (R197). -/
def Reg.WSG_CNT_LEAF : Reg := { blk := .wsg, off := 0x1e0, n1 := 4, s1 := 0x100, rc := 0xffffffff }
/-- WSG_CNT_INT[4] (R197). -/
def Reg.WSG_CNT_INT : Reg := { blk := .wsg, off := 0x1e4, n1 := 4, s1 := 0x100, rc := 0xffffffff }
/-- WSG_CNT_LDC_ERR[4] (R197). -/
def Reg.WSG_CNT_LDC_ERR : Reg := { blk := .wsg, off := 0x1e8, n1 := 4, s1 := 0x100, rc := 0xffffffff }
/-- WSG_CNT_GATE[4] (R197). -/
def Reg.WSG_CNT_GATE : Reg := { blk := .wsg, off := 0x1ec, n1 := 4, s1 := 0x100, rc := 0xffffffff }
/-- CLE_CTL (R237). -/
def Reg.CLE_CTL : Reg := { blk := .cle, off := 0, rw := 0x7 }
/-- CLE_STAT (R237). -/
def Reg.CLE_STAT : Reg := { blk := .cle, off := 0x4, w1c := 0x3a, reset := 0x40 }
/-- CLE_TCNT (R237). -/
def Reg.CLE_TCNT : Reg := { blk := .cle, off := 0x8 }
/-- CLE_GO (R237). -/
def Reg.CLE_GO : Reg := { blk := .cle, off := 0xc, wo := 0x1 }
/-- CLE_EVT (R237). -/
def Reg.CLE_EVT : Reg := { blk := .cle, off := 0x10, rc := 0x1ffff }
/-- CLE_IOREL (R237). -/
def Reg.CLE_IOREL : Reg := { blk := .cle, off := 0x14, rw := 0xf1fffff }
/-- CLE_TRACE_BASE (R237). -/
def Reg.CLE_TRACE_BASE : Reg := { blk := .cle, off := 0x18, rw := 0x3fffff }
/-- CLE_TRACE_ST (R237). -/
def Reg.CLE_TRACE_ST : Reg := { blk := .cle, off := 0x1c, rc := 0xfff0000 }
/-- CLE_CS_ADDR (R237). -/
def Reg.CLE_CS_ADDR : Reg := { blk := .cle, off := 0x20, rw := 0x3fff }
/-- CLE_DM_ADDR (R237). -/
def Reg.CLE_DM_ADDR : Reg := { blk := .cle, off := 0x40, rw := 0x3fff }
/-- CLE_ECC (R237). -/
def Reg.CLE_ECC : Reg := { blk := .cle, off := 0x70, rc := 0xffff }
/-- CLE_CS_DATA[4] (R237). -/
def Reg.CLE_CS_DATA : Reg := { blk := .cle, off := 0x24, n1 := 4, s1 := 0x4, rw := 0xffffffff }
/-- CLE_DM_DATA[4] (R237). -/
def Reg.CLE_DM_DATA : Reg := { blk := .cle, off := 0x44, n1 := 4, s1 := 0x4, rw := 0xffffffff }
/-- CLE_FAULT[3] (R237). -/
def Reg.CLE_FAULT : Reg := { blk := .cle, off := 0x60, n1 := 3, s1 := 0x4 }
/-- CLE_MBOX[128] (R237). -/
def Reg.CLE_MBOX : Reg := { blk := .cle, off := 0x200, n1 := 128, s1 := 0x4, rw := 0xffffffff }
/-- SLOT_CFG[80] (R237). -/
def Reg.SLOT_CFG : Reg := { blk := .cle, off := 0x400, n1 := 80, s1 := 0x20, rw := 0x7fffff, reset := 0x700006 }
/-- SLOT_PER[80] (R237). -/
def Reg.SLOT_PER : Reg := { blk := .cle, off := 0x404, n1 := 80, s1 := 0x20, rw := 0xfffff, reset := 0x5dc }
/-- SLOT_PHASE[80] (R237). -/
def Reg.SLOT_PHASE : Reg := { blk := .cle, off := 0x408, n1 := 80, s1 := 0x20, rw := 0xfffff }
/-- SLOT_ENTRY[80] (R237). -/
def Reg.SLOT_ENTRY : Reg := { blk := .cle, off := 0x40c, n1 := 80, s1 := 0x20, rw := 0x3fff3fff }
/-- SLOT_BANK[80] (R237). -/
def Reg.SLOT_BANK : Reg := { blk := .cle, off := 0x410, n1 := 80, s1 := 0x20, rw := 0x3f3fff }
/-- SLOT_CTL[80] (R237). -/
def Reg.SLOT_CTL : Reg := { blk := .cle, off := 0x414, n1 := 80, s1 := 0x20, wo := 0x1 }
/-- SLOT_STAT[80] (R237). -/
def Reg.SLOT_STAT : Reg := { blk := .cle, off := 0x418, n1 := 80, s1 := 0x20, w1c := 0x11 }
/-- SLOT_CNT[80] (R237). -/
def Reg.SLOT_CNT : Reg := { blk := .cle, off := 0x41c, n1 := 80, s1 := 0x20, rc := 0xffffffff }
/-- SPN_CTL (R304). -/
def Reg.SPN_CTL : Reg := { blk := .spn, off := 0, rw := 0x3fff, reset := 0x1404 }
/-- SPN_CMD (R304). -/
def Reg.SPN_CMD : Reg := { blk := .spn, off := 0x4, wo := 0xf }
/-- SPN_STAT (R304). -/
def Reg.SPN_STAT : Reg := { blk := .spn, off := 0x8, w1c := 0x1fe0, reset := 0x10 }
/-- SPN_SPEED (R304). -/
def Reg.SPN_SPEED : Reg := { blk := .spn, off := 0xc }
/-- SPN_DT (R304). -/
def Reg.SPN_DT : Reg := { blk := .spn, off := 0x10, rw := 0xff, reset := 0x28 }
/-- SPN_ALIGN (R304). -/
def Reg.SPN_ALIGN : Reg := { blk := .spn, off := 0x14, rw := 0xffffff, reset := 0xc83e8 }
/-- SPN_RAMP (R304). -/
def Reg.SPN_RAMP : Reg := { blk := .spn, off := 0x18, rw := 0xffffff, reset := 0x5dc5dc }
/-- SPN_COUCH (R304). -/
def Reg.SPN_COUCH : Reg := { blk := .spn, off := 0x1c, rw := 0xffffff, reset := 0x1f412c }
/-- SPN_LIMIT (R304). -/
def Reg.SPN_LIMIT : Reg := { blk := .spn, off := 0x20, rw := 0xffffffff, reset := 0x11940bb8 }
/-- SPN_OVSP (R304). -/
def Reg.SPN_OVSP : Reg := { blk := .spn, off := 0x24, rw := 0x1fff, reset := 0x15e0 }
/-- SPN_SCALE (R304). -/
def Reg.SPN_SCALE : Reg := { blk := .spn, off := 0x28, rw := 0xffffffff, reset := 0x27101388 }
/-- SPN_MBOX[16] (R304). -/
def Reg.SPN_MBOX : Reg := { blk := .spn, off := 0x40, n1 := 16, s1 := 0x4, rw := 0xffffffff }
/-- SPN_CNT_OC (R306). -/
def Reg.SPN_CNT_OC : Reg := { blk := .spn, off := 0x80, rc := 0xffffffff }
/-- SPN_CNT_MISS (R306). -/
def Reg.SPN_CNT_MISS : Reg := { blk := .spn, off := 0x84, rc := 0xffffffff }
/-- SPN_CNT_START (R306). -/
def Reg.SPN_CNT_START : Reg := { blk := .spn, off := 0x88, rc := 0xffffffff }
/-- SPN_CNT_STARTFAIL (R306). -/
def Reg.SPN_CNT_STARTFAIL : Reg := { blk := .spn, off := 0x8c, rc := 0xffffffff }
/-- SLD_CTL[4] (R333). -/
def Reg.SLD_CTL : Reg := { blk := .sld, off := 0, n1 := 4, s1 := 0x80, rw := 0xff }
/-- SLD_CMD[4] (R333). -/
def Reg.SLD_CMD : Reg := { blk := .sld, off := 0x4, n1 := 4, s1 := 0x80, wo := 0x7 }
/-- SLD_STAT[4] (R333). -/
def Reg.SLD_STAT : Reg := { blk := .sld, off := 0x8, n1 := 4, s1 := 0x80, w1c := 0xbe0, reset := 0x20 }
/-- SLD_POS[4] (R333). -/
def Reg.SLD_POS : Reg := { blk := .sld, off := 0xc, n1 := 4, s1 := 0x80 }
/-- SLD_TGT[4] (R333). -/
def Reg.SLD_TGT : Reg := { blk := .sld, off := 0x10, n1 := 4, s1 := 0x80, rw := 0xffffffff }
/-- SLD_PROF[4] (R333). -/
def Reg.SLD_PROF : Reg := { blk := .sld, off := 0x18, n1 := 4, s1 := 0x80, rw := 0xffffffff, reset := 0x13881a0b }
/-- SLD_CUR[4] (R333). -/
def Reg.SLD_CUR : Reg := { blk := .sld, off := 0x1c, n1 := 4, s1 := 0x80, rw := 0x3fffffff, reset := 0x96c812c }
/-- SLD_MODE[4] (R333). -/
def Reg.SLD_MODE : Reg := { blk := .sld, off := 0x20, n1 := 4, s1 := 0x80, rw := 0xffffffff, reset := 0x29b0341 }
/-- SLD_HOME[4] (R333). -/
def Reg.SLD_HOME : Reg := { blk := .sld, off := 0x24, n1 := 4, s1 := 0x80, rw := 0xfffffff, reset := 0xb0803e8 }
/-- SLD_HOME2[4] (R333). -/
def Reg.SLD_HOME2 : Reg := { blk := .sld, off := 0x28, n1 := 4, s1 := 0x80, rw := 0x3ffffff, reset := 0x1f41b58 }
/-- SLD_LIM_MIN[4] (R333). -/
def Reg.SLD_LIM_MIN : Reg := { blk := .sld, off := 0x2c, n1 := 4, s1 := 0x80, rw := 0xffffffff }
/-- SLD_LIM_MAX[4] (R333). -/
def Reg.SLD_LIM_MAX : Reg := { blk := .sld, off := 0x30, n1 := 4, s1 := 0x80, rw := 0xffffffff, reset := 0x5dc00 }
/-- SLD_SENSE[4] (R333). -/
def Reg.SLD_SENSE : Reg := { blk := .sld, off := 0x34, n1 := 4, s1 := 0x80, rw := 0xffffffff, reset := 0x7d005dc }
/-- SLD_IDLE[4] (R333). -/
def Reg.SLD_IDLE : Reg := { blk := .sld, off := 0x38, n1 := 4, s1 := 0x80, rw := 0xffff, reset := 0xc8 }
/-- SLD_CL_CTL (R333). -/
def Reg.SLD_CL_CTL : Reg := { blk := .sld, off := 0x200, rw := 0xffff01, reset := 0x60a000 }
/-- SLD_CL_CMD (R333). -/
def Reg.SLD_CL_CMD : Reg := { blk := .sld, off := 0x204, wo := 0x7 }
/-- SLD_CL_STAT (R333). -/
def Reg.SLD_CL_STAT : Reg := { blk := .sld, off := 0x208, w1c := 0x3e0 }
/-- SLD_CL_TIME (R333). -/
def Reg.SLD_CL_TIME : Reg := { blk := .sld, off := 0x20c, rw := 0xfffffff, reset := 0x32c85dc }
/-- SLD_CNT_MOVE[4] (R334). -/
def Reg.SLD_CNT_MOVE : Reg := { blk := .sld, off := 0x40, n1 := 4, s1 := 0x80, rc := 0xffffffff }
/-- SLD_CNT_HOME[4] (R334). -/
def Reg.SLD_CNT_HOME : Reg := { blk := .sld, off := 0x44, n1 := 4, s1 := 0x80, rc := 0xffffffff }
/-- SLD_CNT_HOMEFAIL[4] (R334). -/
def Reg.SLD_CNT_HOMEFAIL : Reg := { blk := .sld, off := 0x48, n1 := 4, s1 := 0x80, rc := 0xffffffff }
/-- SLD_CNT_OC[4] (R334). -/
def Reg.SLD_CNT_OC : Reg := { blk := .sld, off := 0x4c, n1 := 4, s1 := 0x80, rc := 0xffffffff }
/-- CAL_CTL (R355). -/
def Reg.CAL_CTL : Reg := { blk := .cal, off := 0, rw := 0x1, wo := 0x2 }
/-- CAL_STAT (R355). -/
def Reg.CAL_STAT : Reg := { blk := .cal, off := 0x4, w1c := 0x78 }
/-- CAL_TRIG (R355). -/
def Reg.CAL_TRIG : Reg := { blk := .cal, off := 0x8, wo := 0xfffffff }
/-- CAL_PEND (R355). -/
def Reg.CAL_PEND : Reg := { blk := .cal, off := 0xc }
/-- CAL_RUN (R355). -/
def Reg.CAL_RUN : Reg := { blk := .cal, off := 0x10 }
/-- CAL_TMO (R355). -/
def Reg.CAL_TMO : Reg := { blk := .cal, off := 0x14, rw := 0xfff, reset := 0xc8 }
/-- CAL_EXT (R355). -/
def Reg.CAL_EXT : Reg := { blk := .cal, off := 0x18, wo := 0x7 }
/-- CAL_FAILMAP (R355). -/
def Reg.CAL_FAILMAP : Reg := { blk := .cal, off := 0x1c }
/-- CAL_JUMP0 (R355). -/
def Reg.CAL_JUMP0 : Reg := { blk := .cal, off := 0x30, rw := 0xff0f0f3f, reset := 0x20060810 }
/-- CAL_JUMP1 (R355). -/
def Reg.CAL_JUMP1 : Reg := { blk := .cal, off := 0x34, rw := 0x1f03ff, reset := 0x100040 }
/-- CAL_RES[4] (R355). -/
def Reg.CAL_RES : Reg := { blk := .cal, off := 0x20, n1 := 4, s1 := 0x4 }
/-- CAL_RTRIM[96] (R355). -/
def Reg.CAL_RTRIM : Reg := { blk := .cal, off := 0x100, n1 := 96, s1 := 0x4, rw := 0x1f7f }
/-- CAL_FTRIM[96] (R355). -/
def Reg.CAL_FTRIM : Reg := { blk := .cal, off := 0x280, n1 := 96, s1 := 0x4, rw := 0x1f }
/-- CAL_SPD_OFS[4][8] (R355). -/
def Reg.CAL_SPD_OFS : Reg := { blk := .cal, off := 0x400, n1 := 4, s1 := 0x20, n2 := 8, s2 := 0x4, rw := 0x3ff }
/-- CAL_SPD_BAL[4] (R355). -/
def Reg.CAL_SPD_BAL : Reg := { blk := .cal, off := 0x480, n1 := 4, s1 := 0x4, rw := 0x3f3f3f }
/-- CAL_ACT_OFS[4] (R355). -/
def Reg.CAL_ACT_OFS : Reg := { blk := .cal, off := 0x490, n1 := 4, s1 := 0x4, rw := 0xffffffff }
/-- CAL_CNT_STEP (R356). -/
def Reg.CAL_CNT_STEP : Reg := { blk := .cal, off := 0x40, rc := 0xffffffff }
/-- CAL_CNT_FAIL (R356). -/
def Reg.CAL_CNT_FAIL : Reg := { blk := .cal, off := 0x44, rc := 0xffffffff }
/-- CAL_CNT_MERGE (R356). -/
def Reg.CAL_CNT_MERGE : Reg := { blk := .cal, off := 0x48, rc := 0xffffffff }
/-- CAL_CNT_DEFER (R356). -/
def Reg.CAL_CNT_DEFER : Reg := { blk := .cal, off := 0x4c, rc := 0xffffffff }
/-- DRC_CTL (R385). -/
def Reg.DRC_CTL : Reg := { blk := .drc, off := 0, rw := 0x7, reset := 0x6 }
/-- DRC_STAT (R385). -/
def Reg.DRC_STAT : Reg := { blk := .drc, off := 0x4, w1c := 0x68 }
/-- DRC_CFG (R385). -/
def Reg.DRC_CFG : Reg := { blk := .drc, off := 0x8, rw := 0x7, reset := 0x38000006 }
/-- DRC_SCHED (R385). -/
def Reg.DRC_SCHED : Reg := { blk := .drc, off := 0xc, rw := 0x3f3fff, reset := 0x103080 }
/-- DRC_REF (R385). -/
def Reg.DRC_REF : Reg := { blk := .drc, off := 0x10, reset := 0x33 }
/-- DRC_RH (R385). -/
def Reg.DRC_RH : Reg := { blk := .drc, off := 0x14, rw := 0xff07ffff, reset := 0x20020800 }
/-- DRC_SCRUB (R385). -/
def Reg.DRC_SCRUB : Reg := { blk := .drc, off := 0x18, rw := 0xff, reset := 0x18 }
/-- DRC_SCRUB_POS (R385). -/
def Reg.DRC_SCRUB_POS : Reg := { blk := .drc, off := 0x1c, rw := 0xffffffff }
/-- DRC_CE_ADDR (R385). -/
def Reg.DRC_CE_ADDR : Reg := { blk := .drc, off := 0x20 }
/-- DRC_CE_INFO (R385). -/
def Reg.DRC_CE_INFO : Reg := { blk := .drc, off := 0x24 }
/-- DRC_PWR (R385). -/
def Reg.DRC_PWR : Reg := { blk := .drc, off := 0x28, rw := 0xffff0003, reset := 0x10000000 }
/-- DRC_TRN (R385). -/
def Reg.DRC_TRN : Reg := { blk := .drc, off := 0x2c }
/-- DRC_TEST_CTL (R385). -/
def Reg.DRC_TEST_CTL : Reg := { blk := .drc, off := 0x40, rw := 0x7, wo := 0x8, w1c := 0x10 }
/-- DRC_TEST_ADDR (R385). -/
def Reg.DRC_TEST_ADDR : Reg := { blk := .drc, off := 0x44, rw := 0xffffffff }
/-- DRC_TEST_CHK (R385). -/
def Reg.DRC_TEST_CHK : Reg := { blk := .drc, off := 0x58, rw := 0xffff }
/-- DRC_FZ_ADDR (R385). -/
def Reg.DRC_FZ_ADDR : Reg := { blk := .drc, off := 0x80 }
/-- DRC_FZ_LOC (R385). -/
def Reg.DRC_FZ_LOC : Reg := { blk := .drc, off := 0x84 }
/-- DRC_FZ_INFO (R385). -/
def Reg.DRC_FZ_INFO : Reg := { blk := .drc, off := 0x88 }
/-- DRC_FZ_CHK (R385). -/
def Reg.DRC_FZ_CHK : Reg := { blk := .drc, off := 0x9c }
/-- DRC_TEST_DATA[4] (R385). -/
def Reg.DRC_TEST_DATA : Reg := { blk := .drc, off := 0x48, n1 := 4, s1 := 0x4, rw := 0xffffffff }
/-- DRC_FZ_DATA[4] (R385). -/
def Reg.DRC_FZ_DATA : Reg := { blk := .drc, off := 0x8c, n1 := 4, s1 := 0x4 }
/-- DRC_CNT_CE (R386). -/
def Reg.DRC_CNT_CE : Reg := { blk := .drc, off := 0xc0, rc := 0xffffffff }
/-- DRC_CNT_RMW (R386). -/
def Reg.DRC_CNT_RMW : Reg := { blk := .drc, off := 0xc4, rc := 0xffffffff }
/-- DRC_CNT_RH (R386). -/
def Reg.DRC_CNT_RH : Reg := { blk := .drc, off := 0xc8, rc := 0xffffffff }
/-- DRC_CNT_REFFORCE (R386). -/
def Reg.DRC_CNT_REFFORCE : Reg := { blk := .drc, off := 0xcc, rc := 0xffffffff }
/-- DRC_CNT_AGE (R386). -/
def Reg.DRC_CNT_AGE : Reg := { blk := .drc, off := 0xd0, rc := 0xffffffff }
/-- DRC_CNT_SCRUB (R386). -/
def Reg.DRC_CNT_SCRUB : Reg := { blk := .drc, off := 0xd4, rc := 0xffffffff }
/-- FBC_CTL (R408). -/
def Reg.FBC_CTL : Reg := { blk := .fbc, off := 0, rw := 0x1 }
/-- FBC_STAT (R408). -/
def Reg.FBC_STAT : Reg := { blk := .fbc, off := 0x4, w1c := 0xa, reset := 0x1 }
/-- FBC_ARB (R408). -/
def Reg.FBC_ARB : Reg := { blk := .fbc, off := 0x8, rw := 0xffff, reset := 0x1000 }
/-- FBC_LOCK (R408). -/
def Reg.FBC_LOCK : Reg := { blk := .fbc, off := 0xc, rw := 0xffff }
/-- FBC_CMD (R408). -/
def Reg.FBC_CMD : Reg := { blk := .fbc, off := 0x10, wo := 0xf7 }
/-- FBC_CMD_ADDR (R408). -/
def Reg.FBC_CMD_ADDR : Reg := { blk := .fbc, off := 0x18, rw := 0xffffffff }
/-- FBC_CMD_LEN (R408). -/
def Reg.FBC_CMD_LEN : Reg := { blk := .fbc, off := 0x1c, rw := 0xffffffff }
/-- FBC_LFSR (R408). -/
def Reg.FBC_LFSR : Reg := { blk := .fbc, off := 0x20, reset := 0xace1 }
/-- FBC_SEQ (R408). -/
def Reg.FBC_SEQ : Reg := { blk := .fbc, off := 0x24, rw := 0xfff, reset := 0x40 }
/-- FBC_PF (R408). -/
def Reg.FBC_PF : Reg := { blk := .fbc, off := 0x28, rw := 0x3ff, reset := 0x84 }
/-- FBC_WAYMASK[16] (R408). -/
def Reg.FBC_WAYMASK : Reg := { blk := .fbc, off := 0x40, n1 := 16, s1 := 0x4, rw := 0xffff }
/-- FBC_CNT_CE (R409). -/
def Reg.FBC_CNT_CE : Reg := { blk := .fbc, off := 0x80, rc := 0xffffffff }
/-- FBC_CNT_REFETCH (R409). -/
def Reg.FBC_CNT_REFETCH : Reg := { blk := .fbc, off := 0x84, rc := 0xffffffff }
/-- FBC_CNT_URGENT (R409). -/
def Reg.FBC_CNT_URGENT : Reg := { blk := .fbc, off := 0x88, rc := 0xffffffff }
/-- FBC_CNT_WB (R409). -/
def Reg.FBC_CNT_WB : Reg := { blk := .fbc, off := 0x8c, rc := 0xffffffff }
/-- RJ_CTL (R428). -/
def Reg.RJ_CTL : Reg := { blk := .rj, off := 0, rw := 0x1 }
/-- RJ_STAT (R428). -/
def Reg.RJ_STAT : Reg := { blk := .rj, off := 0x4, w1c := 0xd0, reset := 0xc }
/-- RJ_HEAD (R428). -/
def Reg.RJ_HEAD : Reg := { blk := .rj, off := 0x8, rw := 0x7ff3fff }
/-- RJ_TAIL (R428). -/
def Reg.RJ_TAIL : Reg := { blk := .rj, off := 0xc, rw := 0x3fff }
/-- RJ_SEQ_LO (R428). -/
def Reg.RJ_SEQ_LO : Reg := { blk := .rj, off := 0x10, rw := 0xffffffff }
/-- RJ_SEQ_HI (R428). -/
def Reg.RJ_SEQ_HI : Reg := { blk := .rj, off := 0x14, rw := 0xffff }
/-- RJ_SPARE (R428). -/
def Reg.RJ_SPARE : Reg := { blk := .rj, off := 0x18 }
/-- RJ_LG_IDX (R428). -/
def Reg.RJ_LG_IDX : Reg := { blk := .rj, off := 0x1c, rw := 0x1f }
/-- RJ_LG_DATA[4] (R428). -/
def Reg.RJ_LG_DATA : Reg := { blk := .rj, off := 0x20, n1 := 4, s1 := 0x4 }
/-- RJ_CNT_REC (R429). -/
def Reg.RJ_CNT_REC : Reg := { blk := .rj, off := 0x40, rc := 0xffffffff }
/-- RJ_CNT_TRANS (R429). -/
def Reg.RJ_CNT_TRANS : Reg := { blk := .rj, off := 0x44, rc := 0xffffffff }
/-- RJ_CNT_REMAP (R429). -/
def Reg.RJ_CNT_REMAP : Reg := { blk := .rj, off := 0x48, rc := 0xffffffff }
/-- HP_TS_CMD[16][16] (R462). -/
def Reg.HP_TS_CMD : Reg := { blk := .hp, off := 0, n1 := 16, s1 := 0x100, n2 := 16, s2 := 0x4, rw := 0xffffffff }
/-- HP_TS_GO[16] (R462). -/
def Reg.HP_TS_GO : Reg := { blk := .hp, off := 0x40, n1 := 16, s1 := 0x100, wo := 0x1 }
/-- HP_TS_STATE[16] (R462). -/
def Reg.HP_TS_STATE : Reg := { blk := .hp, off := 0x44, n1 := 16, s1 := 0x100, w1c := 0x4 }
/-- HP_TS_RADDR_LO[16] (R462). -/
def Reg.HP_TS_RADDR_LO : Reg := { blk := .hp, off := 0x48, n1 := 16, s1 := 0x100, rw := 0xffffffe1 }
/-- HP_TS_RADDR_HI[16] (R462). -/
def Reg.HP_TS_RADDR_HI : Reg := { blk := .hp, off := 0x4c, n1 := 16, s1 := 0x100, rw := 0xffffffff }
/-- HP_TS_NOTE[16] (R462). -/
def Reg.HP_TS_NOTE : Reg := { blk := .hp, off := 0x50, n1 := 16, s1 := 0x100, rw := 0x1f }
/-- HP_TS_REPLY[16][8] (R462). -/
def Reg.HP_TS_REPLY : Reg := { blk := .hp, off := 0x60, n1 := 16, s1 := 0x100, n2 := 8, s2 := 0x4 }
/-- HP_Q_CTL (R463). -/
def Reg.HP_Q_CTL : Reg := { blk := .hp, off := 0x1000, rw := 0x1f01 }
/-- HP_Q_STAT (R463). -/
def Reg.HP_Q_STAT : Reg := { blk := .hp, off := 0x1004, w1c := 0x10000 }
/-- HP_Q_SQB_LO (R463). -/
def Reg.HP_Q_SQB_LO : Reg := { blk := .hp, off := 0x1008, rw := 0xfffff000 }
/-- HP_Q_SQB_HI (R463). -/
def Reg.HP_Q_SQB_HI : Reg := { blk := .hp, off := 0x100c, rw := 0xffffffff }
/-- HP_Q_CQB_LO (R463). -/
def Reg.HP_Q_CQB_LO : Reg := { blk := .hp, off := 0x1010, rw := 0xfffff000 }
/-- HP_Q_CQB_HI (R463). -/
def Reg.HP_Q_CQB_HI : Reg := { blk := .hp, off := 0x1014, rw := 0xffffffff }
/-- HP_Q_SQ_TAIL (R463). -/
def Reg.HP_Q_SQ_TAIL : Reg := { blk := .hp, off := 0x1018, wo := 0x3f }
/-- HP_Q_RSEQ (R463). -/
def Reg.HP_Q_RSEQ : Reg := { blk := .hp, off := 0x101c, reset := 0x1 }
/-- HP_UNIT_ID (R464). -/
def Reg.HP_UNIT_ID : Reg := { blk := .hp, off := 0x2000, reset := 0x96000000 }
/-- HP_UNIT_ATTN (R464). -/
def Reg.HP_UNIT_ATTN : Reg := { blk := .hp, off := 0x2004 }
/-- HP_HC_ID (R465). -/
def Reg.HP_HC_ID : Reg := { blk := .hc, off := 0 }
/-- HP_HC_STAT (R465). -/
def Reg.HP_HC_STAT : Reg := { blk := .hc, off := 0x4, w1c := 0xf }
/-- HP_MSIX[32][4] (R465). -/
def Reg.HP_MSIX : Reg := { blk := .hc, off := 0x8000, n1 := 32, s1 := 0x10, n2 := 4, s2 := 0x4, rw := 0xffffffff }
/-- HP_PBA (R465). -/
def Reg.HP_PBA : Reg := { blk := .hc, off := 0x9000 }
/-- HP_HC_CNT_DROP (R466). -/
def Reg.HP_HC_CNT_DROP : Reg := { blk := .hc, off := 0x10, rc := 0xffffffff }
/-- HP_HC_CNT_RDTMO (R466). -/
def Reg.HP_HC_CNT_RDTMO : Reg := { blk := .hc, off := 0x14, rc := 0xffffffff }
/-- HP_HC_CNT_DMAERR (R466). -/
def Reg.HP_HC_CNT_DMAERR : Reg := { blk := .hc, off := 0x18, rc := 0xffffffff }
/-- HP_HC_CNT_ABANDON (R466). -/
def Reg.HP_HC_CNT_ABANDON : Reg := { blk := .hc, off := 0x1c, rc := 0xffffffff }
/-- QL_CTL (R551). -/
def Reg.QL_CTL : Reg := { blk := .ql, off := 0, rw := 0x3, reset := 0x2 }
/-- QL_STAT (R551). -/
def Reg.QL_STAT : Reg := { blk := .ql, off := 0x4, w1c := 0x1e }
/-- QL_ID (R551). -/
def Reg.QL_ID : Reg := { blk := .ql, off := 0x8 }
/-- QL_EPOCH (R551). -/
def Reg.QL_EPOCH : Reg := { blk := .ql, off := 0xc }
/-- QL_QUOTA (R551). -/
def Reg.QL_QUOTA : Reg := { blk := .ql, off := 0x10, rw := 0xfff, reset := 0x100 }
/-- QL_TIME_LO (R551). -/
def Reg.QL_TIME_LO : Reg := { blk := .ql, off := 0x14 }
/-- QL_TIME_HI (R551). -/
def Reg.QL_TIME_HI : Reg := { blk := .ql, off := 0x18 }
/-- QL_PSTAT[2] (R551). -/
def Reg.QL_PSTAT : Reg := { blk := .ql, off := 0x20, n1 := 2, s1 := 0x10, w1c := 0x10 }
/-- QL_PDELAY[2] (R551). -/
def Reg.QL_PDELAY : Reg := { blk := .ql, off := 0x24, n1 := 2, s1 := 0x10 }
/-- QL_PCTL[2] (R551). -/
def Reg.QL_PCTL : Reg := { blk := .ql, off := 0x28, n1 := 2, s1 := 0x10, rw := 0x1, wo := 0x2 }
/-- QL_CNT_CRC[2] (R552). -/
def Reg.QL_CNT_CRC : Reg := { blk := .ql, off := 0x80, n1 := 2, s1 := 0x20, rc := 0xffffffff }
/-- QL_CNT_REPLAY[2] (R552). -/
def Reg.QL_CNT_REPLAY : Reg := { blk := .ql, off := 0x84, n1 := 2, s1 := 0x20, rc := 0xffffffff }
/-- QL_CNT_RETRAIN[2] (R552). -/
def Reg.QL_CNT_RETRAIN : Reg := { blk := .ql, off := 0x88, n1 := 2, s1 := 0x20, rc := 0xffffffff }
/-- QL_CNT_DOWN[2] (R552). -/
def Reg.QL_CNT_DOWN : Reg := { blk := .ql, off := 0x8c, n1 := 2, s1 := 0x20, rc := 0xffffffff }
/-- QL_CNT_NULL[2] (R552). -/
def Reg.QL_CNT_NULL : Reg := { blk := .ql, off := 0x90, n1 := 2, s1 := 0x20, rc := 0xffffffff }
/-- QL_CNT_DUP (R552). -/
def Reg.QL_CNT_DUP : Reg := { blk := .ql, off := 0xc0, rc := 0xffffffff }
/-- QL_CNT_ASLEEP (R552). -/
def Reg.QL_CNT_ASLEEP : Reg := { blk := .ql, off := 0xc4, rc := 0xffffffff }
/-- QL_CNT_STALE (R552). -/
def Reg.QL_CNT_STALE : Reg := { blk := .ql, off := 0xc8, rc := 0xffffffff }
/-- PXE_CTL (R581). -/
def Reg.PXE_CTL : Reg := { blk := .pxe, off := 0, rw := 0x1 }
/-- PXE_STAT (R581). -/
def Reg.PXE_STAT : Reg := { blk := .pxe, off := 0x4 }
/-- FIX_CTL (R581). -/
def Reg.FIX_CTL : Reg := { blk := .pxe, off := 0x100, rw := 0x1 }
/-- FIX_STAT (R581). -/
def Reg.FIX_STAT : Reg := { blk := .pxe, off := 0x104 }
/-- PXE_CNT_SHEET (R582). -/
def Reg.PXE_CNT_SHEET : Reg := { blk := .pxe, off := 0x40, rc := 0xffffffff }
/-- PXE_CNT_STRIPE (R582). -/
def Reg.PXE_CNT_STRIPE : Reg := { blk := .pxe, off := 0x44, rc := 0xffffffff }
/-- PXE_CNT_REBUILT (R582). -/
def Reg.PXE_CNT_REBUILT : Reg := { blk := .pxe, off := 0x48, rc := 0xffffffff }
/-- FIX_CNT_SHEET (R582). -/
def Reg.FIX_CNT_SHEET : Reg := { blk := .pxe, off := 0x140, rc := 0xffffffff }
/-- FIX_CNT_MISMATCH (R582). -/
def Reg.FIX_CNT_MISMATCH : Reg := { blk := .pxe, off := 0x144, rc := 0xffffffff }
/-- PMU_STAT (R604). -/
def Reg.PMU_STAT : Reg := { blk := .pmu, off := 0, w1c := 0x1fe0000, reset := 0x2 }
/-- PMU_FL (R604). -/
def Reg.PMU_FL : Reg := { blk := .pmu, off := 0x4, rw := 0x7ffffff, reset := 0x25a05dc }
/-- PMU_THAW (R604). -/
def Reg.PMU_THAW : Reg := { blk := .pmu, off := 0x8, rw := 0x3fff, reset := 0x64 }
/-- PMU_VIO (R604). -/
def Reg.PMU_VIO : Reg := { blk := .pmu, off := 0xc, rw := 0x3ffff }
/-- PMU_WAKE (R604). -/
def Reg.PMU_WAKE : Reg := { blk := .pmu, off := 0x10 }
/-- PMU_CNT_FROST (R605). -/
def Reg.PMU_CNT_FROST : Reg := { blk := .pmu, off := 0x40, rc := 0xffffffff }
/-- PMU_CNT_THAW (R605). -/
def Reg.PMU_CNT_THAW : Reg := { blk := .pmu, off := 0x44, rc := 0xffffffff }
/-- PMU_CNT_THAWRST (R605). -/
def Reg.PMU_CNT_THAWRST : Reg := { blk := .pmu, off := 0x48, rc := 0xffffffff }
/-- PMU_CNT_WAKE (R605). -/
def Reg.PMU_CNT_WAKE : Reg := { blk := .pmu, off := 0x4c, rc := 0xffffffff }
/-- CLK_STAT (R631). -/
def Reg.CLK_STAT : Reg := { blk := .clk, off := 0, w1c := 0xc }
/-- CLK_RST (R631). -/
def Reg.CLK_RST : Reg := { blk := .clk, off := 0x4 }
/-- CLK_BOOT (R631). -/
def Reg.CLK_BOOT : Reg := { blk := .clk, off := 0x8 }
/-- CLK_WDT (R631). -/
def Reg.CLK_WDT : Reg := { blk := .clk, off := 0xc, rw := 0x107ff, reset := 0x103e8 }
/-- CLK_HB (R631). -/
def Reg.CLK_HB : Reg := { blk := .clk, off := 0x10, wo := 0xf }
/-- CLK_CNT_UNITRST (R632). -/
def Reg.CLK_CNT_UNITRST : Reg := { blk := .clk, off := 0x40, rc := 0xffffffff }
/-- CLK_CNT_FWRST (R632). -/
def Reg.CLK_CNT_FWRST : Reg := { blk := .clk, off := 0x44, rc := 0xffffffff }
/-- CLK_CNT_UNLOCK (R632). -/
def Reg.CLK_CNT_UNLOCK : Reg := { blk := .clk, off := 0x48, rc := 0xffffffff }
/-- FUSE_STAT (R646). -/
def Reg.FUSE_STAT : Reg := { blk := .fuse, off := 0, w1c := 0x20 }
/-- FUSE_ARB (R646). -/
def Reg.FUSE_ARB : Reg := { blk := .fuse, off := 0x4 }
/-- FUSE_ARB_SET (R646). -/
def Reg.FUSE_ARB_SET : Reg := { blk := .fuse, off := 0x8, wo := 0x7f }
/-- FUSE_SHADOW[128] (R646). -/
def Reg.FUSE_SHADOW : Reg := { blk := .fuse, off := 0x100, n1 := 128, s1 := 0x4 }

/-! The fields. -/

/-- RCS_ID.PRESENT, bit 0, RO: 1 if the slice is fused on -/
def Fld.RCS_ID_PRESENT : Fld := { reg := .RCS_ID, lo := 0, width := 1 }
/-- RCS_ID.OPU, bit 2:1, RO: OPU of the slice -/
def Fld.RCS_ID_OPU : Fld := { reg := .RCS_ID, lo := 1, width := 2 }
/-- RCS_ID.SPOT, bit 7:3, RO: spot of the slice -/
def Fld.RCS_ID_SPOT : Fld := { reg := .RCS_ID, lo := 3, width := 5 }
/-- RCS_CTL.EN, bit 0, RW: slice enable, under R108 -/
def Fld.RCS_CTL_EN : Fld := { reg := .RCS_CTL, lo := 0, width := 1 }
/-- RCS_CTL.ROLE, bit 2:1, RW: 0 read, 1 verify, 2 neighbour, 3 reserved; recorded in leaf facts -/
def Fld.RCS_CTL_ROLE : Fld := { reg := .RCS_CTL, lo := 1, width := 2 }
/-- RCS_CTL.TGT_SEL, bit 3, RW: 0 primary, 1 alternate, under R91 -/
def Fld.RCS_CTL_TGT_SEL : Fld := { reg := .RCS_CTL, lo := 3, width := 1 }
/-- RCS_CTL.ADAPT, bit 4, RW: equaliser adaptation -/
def Fld.RCS_CTL_ADAPT : Fld := { reg := .RCS_CTL, lo := 4, width := 1 }
/-- RCS_CTL.NBR_MARK, bit 5, RW: mark on over-range of other slices in the OPU, under R80 -/
def Fld.RCS_CTL_NBR_MARK : Fld := { reg := .RCS_CTL, lo := 5, width := 1 }
/-- RCS_CTL.AGC_EN, bit 6, RW: automatic gain, under R72 -/
def Fld.RCS_CTL_AGC_EN : Fld := { reg := .RCS_CTL, lo := 6, width := 1 }
/-- RCS_CTL.PRESET_AUTO, bit 7, RW: frequency preset on class change -/
def Fld.RCS_CTL_PRESET_AUTO : Fld := { reg := .RCS_CTL, lo := 7, width := 1 }
/-- RCS_CTL.MARK_NEG, bit 8, RW: 1 if marks give negative codes -/
def Fld.RCS_CTL_MARK_NEG : Fld := { reg := .RCS_CTL, lo := 8, width := 1 }
/-- RCS_AFE.GAIN, bit 5:0, RW: VGA code under R71 and R72 -/
def Fld.RCS_AFE_GAIN : Fld := { reg := .RCS_AFE, lo := 0, width := 6 }
/-- RCS_AFE.FC, bit 10:6, RW: CTF corner code under R73 -/
def Fld.RCS_AFE_FC : Fld := { reg := .RCS_AFE, lo := 6, width := 5 }
/-- RCS_AFE.BOOST, bit 14:11, RW: CTF boost code -/
def Fld.RCS_AFE_BOOST : Fld := { reg := .RCS_AFE, lo := 11, width := 4 }
/-- RCS_TRIM.OFS, bit 6:0, RW: signed offset trim under R74 -/
def Fld.RCS_TRIM_OFS : Fld := { reg := .RCS_TRIM, lo := 0, width := 7 }
/-- RCS_TRIM.GTRIM, bit 12:8, RW: signed gain trim -/
def Fld.RCS_TRIM_GTRIM : Fld := { reg := .RCS_TRIM, lo := 8, width := 5 }
/-- RCS_AGC.TARGET, bit 7:0, RW: preamble peak-to-peak in ADC codes -/
def Fld.RCS_AGC_TARGET : Fld := { reg := .RCS_AGC, lo := 0, width := 8 }
/-- RCS_AGC.SHIFT, bit 11:8, RW: AGC step shift -/
def Fld.RCS_AGC_SHIFT : Fld := { reg := .RCS_AGC, lo := 8, width := 4 }
/-- RCS_TR.KP_ACQ, bit 3:0, RW: proportional shift, acquisition -/
def Fld.RCS_TR_KP_ACQ : Fld := { reg := .RCS_TR, lo := 0, width := 4 }
/-- RCS_TR.KI_ACQ, bit 7:4, RW: integral shift, acquisition -/
def Fld.RCS_TR_KI_ACQ : Fld := { reg := .RCS_TR, lo := 4, width := 4 }
/-- RCS_TR.KP_TRK, bit 11:8, RW: proportional shift, tracking -/
def Fld.RCS_TR_KP_TRK : Fld := { reg := .RCS_TR, lo := 8, width := 4 }
/-- RCS_TR.KI_TRK, bit 15:12, RW: integral shift, tracking -/
def Fld.RCS_TR_KI_TRK : Fld := { reg := .RCS_TR, lo := 12, width := 4 }
/-- RCS_TR.LOCK_THR, bit 23:16, RW: lock threshold on mean |e| -/
def Fld.RCS_TR_LOCK_THR : Fld := { reg := .RCS_TR, lo := 16, width := 8 }
/-- RCS_NCO.STEP, bit 24:0, RO: current Δ, 1.24 format -/
def Fld.RCS_NCO_STEP : Fld := { reg := .RCS_NCO, lo := 0, width := 25 }
/-- RCS_NCO_PRESET.STEP, bit 24:0, WO: Δ to load; values outside 0x40_0000–0x100_0000 are limited -/
def Fld.RCS_NCO_PRESET_STEP : Fld := { reg := .RCS_NCO_PRESET, lo := 0, width := 25 }
/-- RCS_NCO_PRESET.NOW, bit 31, WO: 1 load at once; 0 load at next jump gap -/
def Fld.RCS_NCO_PRESET_NOW : Fld := { reg := .RCS_NCO_PRESET, lo := 31, width := 1 }
/-- RCS_TGT.A_PRI, bit 1:0, RW: primary outer tap -/
def Fld.RCS_TGT_A_PRI : Fld := { reg := .RCS_TGT, lo := 0, width := 2 }
/-- RCS_TGT.B_PRI, bit 5:2, RW: primary second tap -/
def Fld.RCS_TGT_B_PRI : Fld := { reg := .RCS_TGT, lo := 2, width := 4 }
/-- RCS_TGT.C_PRI, bit 9:6, RW: primary centre tap -/
def Fld.RCS_TGT_C_PRI : Fld := { reg := .RCS_TGT, lo := 6, width := 4 }
/-- RCS_TGT.A_ALT, bit 17:16, RW: alternate outer tap -/
def Fld.RCS_TGT_A_ALT : Fld := { reg := .RCS_TGT, lo := 16, width := 2 }
/-- RCS_TGT.B_ALT, bit 21:18, RW: alternate second tap -/
def Fld.RCS_TGT_B_ALT : Fld := { reg := .RCS_TGT, lo := 18, width := 4 }
/-- RCS_TGT.C_ALT, bit 25:22, RW: alternate centre tap -/
def Fld.RCS_TGT_C_ALT : Fld := { reg := .RCS_TGT, lo := 22, width := 4 }
/-- RCS_EQ_CTL.MU, bit 3:0, RW: adaptation step shift -/
def Fld.RCS_EQ_CTL_MU : Fld := { reg := .RCS_EQ_CTL, lo := 0, width := 4 }
/-- RCS_EQ_CTL.COMMIT, bit 4, WO: copy shadow sets to live, under R91 -/
def Fld.RCS_EQ_CTL_COMMIT : Fld := { reg := .RCS_EQ_CTL, lo := 4, width := 1 }
/-- RCS_EQ_CTL.PENDING, bit 5, RO: commit waiting -/
def Fld.RCS_EQ_CTL_PENDING : Fld := { reg := .RCS_EQ_CTL, lo := 5, width := 1 }
/-- RCS_SYNC.TOL, bit 3:0, RW: sync mismatch limit, under R104 -/
def Fld.RCS_SYNC_TOL : Fld := { reg := .RCS_SYNC, lo := 0, width := 4 }
/-- RCS_SYNC.BLANK_THR, bit 15:8, RW: blank threshold, under R106 -/
def Fld.RCS_SYNC_BLANK_THR : Fld := { reg := .RCS_SYNC, lo := 8, width := 8 }
/-- RCS_CAP.SLOTS, bit 7:0, RW: slot capture mask; bits at or above K' ignored -/
def Fld.RCS_CAP_SLOTS : Fld := { reg := .RCS_CAP, lo := 0, width := 8 }
/-- RCS_STAT.OVR, bit 0, W1C: over-range seen -/
def Fld.RCS_STAT_OVR : Fld := { reg := .RCS_STAT, lo := 0, width := 1 }
/-- RCS_STAT.TLOSS, bit 1, W1C: timing lost -/
def Fld.RCS_STAT_TLOSS : Fld := { reg := .RCS_STAT, lo := 1, width := 1 }
/-- RCS_STAT.SYNC_MISS, bit 2, W1C: a leaf had no sync mark -/
def Fld.RCS_STAT_SYNC_MISS : Fld := { reg := .RCS_STAT, lo := 2, width := 1 }
/-- RCS_STAT.SERVO_ERR, bit 3, W1C: servo field missing or invalid -/
def Fld.RCS_STAT_SERVO_ERR : Fld := { reg := .RCS_STAT, lo := 3, width := 1 }
/-- RCS_STAT.DESKEW_OVF, bit 4, W1C: dropped from deskew release -/
def Fld.RCS_STAT_DESKEW_OVF : Fld := { reg := .RCS_STAT, lo := 4, width := 1 }
/-- RCS_STAT.FMAX, bit 5, W1C: Δ held at 1.0 -/
def Fld.RCS_STAT_FMAX : Fld := { reg := .RCS_STAT, lo := 5, width := 1 }
/-- RCS_STAT.TGT_ERR, bit 6, W1C: RCS_TGT write refused -/
def Fld.RCS_STAT_TGT_ERR : Fld := { reg := .RCS_STAT, lo := 6, width := 1 }
/-- RCS_STAT.SLIP, bit 7, W1C: data-stream counter corrected by more than 2 bits -/
def Fld.RCS_STAT_SLIP : Fld := { reg := .RCS_STAT, lo := 7, width := 1 }
/-- RCS_STAT.STATE, bit 10:8, RO: 0 OFF, 1 IDLE, 2 ACQUIRE, 3 TRACK, 4 LOST -/
def Fld.RCS_STAT_STATE : Fld := { reg := .RCS_STAT, lo := 8, width := 3 }
/-- RCS_SERVO_T.TRACK, bit 19:0, RO: track number, binary -/
def Fld.RCS_SERVO_T_TRACK : Fld := { reg := .RCS_SERVO_T, lo := 0, width := 20 }
/-- RCS_SERVO_T.TVALID, bit 20, RO: track number valid -/
def Fld.RCS_SERVO_T_TVALID : Fld := { reg := .RCS_SERVO_T, lo := 20, width := 1 }
/-- RCS_SERVO_T.AMBIG, bit 21, RO: one marginal Gray bit -/
def Fld.RCS_SERVO_T_AMBIG : Fld := { reg := .RCS_SERVO_T, lo := 21, width := 1 }
/-- RCS_SERVO_W.WEDGE, bit 8:0, RO: wedge number -/
def Fld.RCS_SERVO_W_WEDGE : Fld := { reg := .RCS_SERVO_W, lo := 0, width := 9 }
/-- RCS_SERVO_W.WVALID, bit 9, RO: wedge number valid -/
def Fld.RCS_SERVO_W_WVALID : Fld := { reg := .RCS_SERVO_W, lo := 9, width := 1 }
/-- RCS_SERVO_W.LAYER, bit 12:10, RO: layer -/
def Fld.RCS_SERVO_W_LAYER : Fld := { reg := .RCS_SERVO_W, lo := 10, width := 3 }
/-- RCS_SERVO_W.SIDE, bit 13, RO: side -/
def Fld.RCS_SERVO_W_SIDE : Fld := { reg := .RCS_SERVO_W, lo := 13, width := 1 }
/-- RCS_SERVO_W.SLVALID, bit 14, RO: side and layer valid -/
def Fld.RCS_SERVO_W_SLVALID : Fld := { reg := .RCS_SERVO_W, lo := 14, width := 1 }
/-- RCS_BURST_AB.A, bit 11:0, RO: burst amplitudes -/
def Fld.RCS_BURST_AB_A : Fld := { reg := .RCS_BURST_AB, lo := 0, width := 12 }
/-- RCS_BURST_AB.B, bit 27:16, RO: burst amplitudes -/
def Fld.RCS_BURST_AB_B : Fld := { reg := .RCS_BURST_AB, lo := 16, width := 12 }
/-- RCS_BURST_CD.C, bit 11:0, RO: burst amplitudes -/
def Fld.RCS_BURST_CD_C : Fld := { reg := .RCS_BURST_CD, lo := 0, width := 12 }
/-- RCS_BURST_CD.D, bit 27:16, RO: burst amplitudes -/
def Fld.RCS_BURST_CD_D : Fld := { reg := .RCS_BURST_CD, lo := 16, width := 12 }
/-- RCS_EQA_S.H, bit 9:0, RW: h_k, LSB 2^-7 (0x040 for k = 7 and 8) -/
def Fld.RCS_EQA_S_H : Fld := { reg := .RCS_EQA_S, lo := 0, width := 10 }
/-- RCS_EQB_S.H, bit 9:0, RW: h_k, LSB 2^-7 (0x040 for k = 7 and 8) -/
def Fld.RCS_EQB_S_H : Fld := { reg := .RCS_EQB_S, lo := 0, width := 10 }
/-- RCS_EQA_L.H, bit 9:0, RO: live h_k -/
def Fld.RCS_EQA_L_H : Fld := { reg := .RCS_EQA_L, lo := 0, width := 10 }
/-- RCS_EQB_L.H, bit 9:0, RO: live h_k -/
def Fld.RCS_EQB_L_H : Fld := { reg := .RCS_EQB_L, lo := 0, width := 10 }
/-- RCS_FMT.CLASS, bit 3:0, RW: K, 4 to 8; other values act as 4 -/
def Fld.RCS_FMT_CLASS : Fld := { reg := .RCS_FMT, lo := 0, width := 4 }
/-- RCS_FMT.LEVEL, bit 5:4, RW: inner level I0–I3 -/
def Fld.RCS_FMT_LEVEL : Fld := { reg := .RCS_FMT, lo := 4, width := 2 }
/-- RCS_FMT.PCODE, bit 7:6, RW: P code as in Table 2-9; 3 acts as 1 -/
def Fld.RCS_FMT_PCODE : Fld := { reg := .RCS_FMT, lo := 6, width := 2 }
/-- RCS_BAND_BASE.TRACK, bit 17:0, RW: expected track of spot 0 -/
def Fld.RCS_BAND_BASE_TRACK : Fld := { reg := .RCS_BAND_BASE, lo := 0, width := 18 }
/-- RCS_BAND_BASE.LAYER, bit 20:18, RW: expected layer -/
def Fld.RCS_BAND_BASE_LAYER : Fld := { reg := .RCS_BAND_BASE, lo := 18, width := 3 }
/-- RCS_BAND_BASE.SIDE, bit 21, RW: expected side -/
def Fld.RCS_BAND_BASE_SIDE : Fld := { reg := .RCS_BAND_BASE, lo := 21, width := 1 }
/-- RCS_BAND_RES.MISMATCH, bit 23:0, RO: one bit per spot, under R97 -/
def Fld.RCS_BAND_RES_MISMATCH : Fld := { reg := .RCS_BAND_RES, lo := 0, width := 24 }
/-- RCS_BAND_RES.UNKNOWN, bit 28:24, RO: count of unknown spots -/
def Fld.RCS_BAND_RES_UNKNOWN : Fld := { reg := .RCS_BAND_RES, lo := 24, width := 5 }
/-- RCS_BAND_RES.OK, bit 29, RO: band check passed -/
def Fld.RCS_BAND_RES_OK : Fld := { reg := .RCS_BAND_RES, lo := 29, width := 1 }
/-- RCS_BAND_RES.WEDGE_LO, bit 31:30, RO: low two bits of the wedge checked -/
def Fld.RCS_BAND_RES_WEDGE_LO : Fld := { reg := .RCS_BAND_RES, lo := 30, width := 2 }
/-- RCS_CNT_LEAF.N, bit 31:0, RC: leaves handed to the detector -/
def Fld.RCS_CNT_LEAF_N : Fld := { reg := .RCS_CNT_LEAF, lo := 0, width := 32 }
/-- RCS_CNT_SYNC_MISS.N, bit 31:0, RC: leaves without a sync mark -/
def Fld.RCS_CNT_SYNC_MISS_N : Fld := { reg := .RCS_CNT_SYNC_MISS, lo := 0, width := 32 }
/-- RCS_CNT_OVR.N, bit 31:0, RC: over-range events -/
def Fld.RCS_CNT_OVR_N : Fld := { reg := .RCS_CNT_OVR, lo := 0, width := 32 }
/-- RCS_CNT_OVR_SMP.N, bit 31:0, RC: marked samples from the slice's own over-range -/
def Fld.RCS_CNT_OVR_SMP_N : Fld := { reg := .RCS_CNT_OVR_SMP, lo := 0, width := 32 }
/-- RCS_CNT_TLOSS.N, bit 31:0, RC: entries to LOST -/
def Fld.RCS_CNT_TLOSS_N : Fld := { reg := .RCS_CNT_TLOSS, lo := 0, width := 32 }
/-- RCS_CNT_SERVO_ERR.N, bit 31:0, RC: missing or invalid servo fields -/
def Fld.RCS_CNT_SERVO_ERR_N : Fld := { reg := .RCS_CNT_SERVO_ERR, lo := 0, width := 32 }
/-- RCS_CNT_SLIP.N, bit 31:0, RC: data-stream corrections over 2 bits -/
def Fld.RCS_CNT_SLIP_N : Fld := { reg := .RCS_CNT_SLIP, lo := 0, width := 32 }
/-- RCS_CNT_BLANK.N, bit 31:0, RC: blank leaves -/
def Fld.RCS_CNT_BLANK_N : Fld := { reg := .RCS_CNT_BLANK, lo := 0, width := 32 }
/-- SDE_CTL.EN, bit 0, RW: engine enable -/
def Fld.SDE_CTL_EN : Fld := { reg := .SDE_CTL, lo := 0, width := 1 }
/-- SDE_CTL.TEST, bit 1, RW: encoder-bypass test mode, under R149 -/
def Fld.SDE_CTL_TEST : Fld := { reg := .SDE_CTL, lo := 1, width := 1 }
/-- SDE_SCHED.RETRY_SHARE, bit 5:0, RW: class 3 share in 1/64 -/
def Fld.SDE_SCHED_RETRY_SHARE : Fld := { reg := .SDE_SCHED, lo := 0, width := 6 }
/-- SDE_SCHED.BUCKET_CAP, bit 12:8, RW: bucket cap in units of 1,024 cycles -/
def Fld.SDE_SCHED_BUCKET_CAP : Fld := { reg := .SDE_SCHED, lo := 8, width := 5 }
/-- SDE_LIMIT.BASE, bit 5:0, RW: base allowance; 0 acts as 1 -/
def Fld.SDE_LIMIT_BASE : Fld := { reg := .SDE_LIMIT, lo := 0, width := 6 }
/-- SDE_LIMIT.READ_MAX, bit 13:8, RW: ceiling of rungs 0–2; below BASE acts as BASE -/
def Fld.SDE_LIMIT_READ_MAX : Fld := { reg := .SDE_LIMIT, lo := 8, width := 6 }
/-- SDE_LIMIT.RETRY_MAX, bit 21:16, RW: ceiling of rungs 3–7 -/
def Fld.SDE_LIMIT_RETRY_MAX : Fld := { reg := .SDE_LIMIT, lo := 16, width := 6 }
/-- SDE_LIMIT.VERIFY, bit 29:24, RW: verify iteration limit; 0 acts as 1 -/
def Fld.SDE_LIMIT_VERIFY : Fld := { reg := .SDE_LIMIT, lo := 24, width := 6 }
/-- SDE_BUCKET.CYCLES, bit 14:0, RO: bucket content in cycles -/
def Fld.SDE_BUCKET_CYCLES : Fld := { reg := .SDE_BUCKET, lo := 0, width := 15 }
/-- SDE_STAT.FAULT, bit 0, W1C: engine fault, under R139 -/
def Fld.SDE_STAT_FAULT : Fld := { reg := .SDE_STAT, lo := 0, width := 1 }
/-- SDE_STAT.RING_FULL, bit 1, W1C: a leaf was dropped -/
def Fld.SDE_STAT_RING_FULL : Fld := { reg := .SDE_STAT, lo := 1, width := 1 }
/-- SDE_STAT.ORPHAN, bit 2, W1C: an orphan leaf was consumed -/
def Fld.SDE_STAT_ORPHAN : Fld := { reg := .SDE_STAT, lo := 2, width := 1 }
/-- SDE_STAT.RES_STALL, bit 3, W1C: a result ring was full -/
def Fld.SDE_STAT_RES_STALL : Fld := { reg := .SDE_STAT, lo := 3, width := 1 }
/-- SDE_STAT.READY, bit 19:8, RO: ready leaves, all classes -/
def Fld.SDE_STAT_READY : Fld := { reg := .SDE_STAT, lo := 8, width := 12 }
/-- SDE_RING.BASE, bit 14:0, RW: deposit ring address ÷ 512 KiB -/
def Fld.SDE_RING_BASE : Fld := { reg := .SDE_RING, lo := 0, width := 15 }
/-- SDE_RING.SIZE, bit 22:16, RW: ring size in MiB; values below 1 act as 1 -/
def Fld.SDE_RING_SIZE : Fld := { reg := .SDE_RING, lo := 16, width := 7 }
/-- SDE_CTX_BASE.BASE, bit 17:0, RW: context table address ÷ 64 KiB -/
def Fld.SDE_CTX_BASE : Fld := { reg := .SDE_CTX_BASE, lo := 0, width := 18 }
/-- SDE_CTX_CMD.INDEX, bit 9:0, WO: context index -/
def Fld.SDE_CTX_CMD_INDEX : Fld := { reg := .SDE_CTX_CMD, lo := 0, width := 10 }
/-- SDE_CTX_CMD.OP, bit 11:10, WO: 1 open, 2 close, 3 abandon, 0 none -/
def Fld.SDE_CTX_CMD_OP : Fld := { reg := .SDE_CTX_CMD, lo := 10, width := 2 }
/-- SDE_LRES_BASE.BASE, bit 21:0, RW: ring address ÷ 4 KiB -/
def Fld.SDE_LRES_BASE : Fld := { reg := .SDE_LRES_BASE, lo := 0, width := 22 }
/-- SDE_LRES_PI.PI, bit 12:0, RO: next entry the SDE will write -/
def Fld.SDE_LRES_PI : Fld := { reg := .SDE_LRES_PI, lo := 0, width := 13 }
/-- SDE_LRES_CI.CI, bit 12:0, RW: next entry firmware will read -/
def Fld.SDE_LRES_CI : Fld := { reg := .SDE_LRES_CI, lo := 0, width := 13 }
/-- SDE_SRES_BASE.BASE, bit 21:0, RW: ring address ÷ 4 KiB -/
def Fld.SDE_SRES_BASE : Fld := { reg := .SDE_SRES_BASE, lo := 0, width := 22 }
/-- SDE_SRES_PI.PI, bit 10:0, RO: next entry the SDE will write -/
def Fld.SDE_SRES_PI : Fld := { reg := .SDE_SRES_PI, lo := 0, width := 11 }
/-- SDE_SRES_CI.CI, bit 10:0, RW: next entry firmware will read -/
def Fld.SDE_SRES_CI : Fld := { reg := .SDE_SRES_CI, lo := 0, width := 11 }
/-- SDE_OUTER.PTR_THR, bit 4:0, RW: byte pointer threshold, under R131 -/
def Fld.SDE_OUTER_PTR_THR : Fld := { reg := .SDE_OUTER, lo := 0, width := 5 }
/-- SDE_TEST.RAW, bit 0, RW: firmware-written entries, under R150 -/
def Fld.SDE_TEST_RAW : Fld := { reg := .SDE_TEST, lo := 0, width := 1 }
/-- SDE_TEST.ERR_EXP, bit 5:1, RW: flip probability 2^-ERR_EXP; 0 none -/
def Fld.SDE_TEST_ERR_EXP : Fld := { reg := .SDE_TEST, lo := 1, width := 5 }
/-- SDE_TEST.MAG, bit 11:6, RW: LLR magnitude; values above 31 act as 31 -/
def Fld.SDE_TEST_MAG : Fld := { reg := .SDE_TEST, lo := 6, width := 6 }
/-- SDE_TEST.BURST_LEN, bit 27:12, RW: erased bits per leaf -/
def Fld.SDE_TEST_BURST_LEN : Fld := { reg := .SDE_TEST, lo := 12, width := 16 }
/-- SDE_TEST_POS.POS, bit 15:0, RW: first erased codeword bit -/
def Fld.SDE_TEST_POS_POS : Fld := { reg := .SDE_TEST_POS, lo := 0, width := 16 }
/-- SDE_TEST_POS.ADV, bit 31, WO: 1: one firmware entry is complete -/
def Fld.SDE_TEST_POS_ADV : Fld := { reg := .SDE_TEST_POS, lo := 31, width := 1 }
/-- SDE_DET_CTL.DROP, bit 3:0, RW: dropout threshold in 1/16 of REF -/
def Fld.SDE_DET_CTL_DROP : Fld := { reg := .SDE_DET_CTL, lo := 0, width := 4 }
/-- SDE_DET_CTL.EXCESS, bit 8:4, RW: excess threshold in 1/16 of REF; 0 disables -/
def Fld.SDE_DET_CTL_EXCESS : Fld := { reg := .SDE_DET_CTL, lo := 4, width := 5 }
/-- SDE_DET_CTL.GUARD, bit 15:9, RW: widening in channel bits -/
def Fld.SDE_DET_CTL_GUARD : Fld := { reg := .SDE_DET_CTL, lo := 9, width := 7 }
/-- SDE_DET_CTL.BAND_N, bit 20:16, RW: band coincidence count; 0 disables -/
def Fld.SDE_DET_CTL_BAND_N : Fld := { reg := .SDE_DET_CTL, lo := 16, width := 5 }
/-- SDE_DET_LLR.LLR_GAIN, bit 7:0, RW: LLR scale under R116 -/
def Fld.SDE_DET_LLR_LLR_GAIN : Fld := { reg := .SDE_DET_LLR, lo := 0, width := 8 }
/-- SDE_DET_LLR.ERASE_MAX, bit 23:8, RW: pre-erasure limit under R119 -/
def Fld.SDE_DET_LLR_ERASE_MAX : Fld := { reg := .SDE_DET_LLR, lo := 8, width := 16 }
/-- SDE_CNT_LEAF.N, bit 31:0, RC: leaves decoded -/
def Fld.SDE_CNT_LEAF_N : Fld := { reg := .SDE_CNT_LEAF, lo := 0, width := 32 }
/-- SDE_CNT_EXT.N, bit 31:0, RC: leaves that drew on the bucket -/
def Fld.SDE_CNT_EXT_N : Fld := { reg := .SDE_CNT_EXT, lo := 0, width := 32 }
/-- SDE_CNT_NOCONV.N, bit 31:0, RC: leaves ended NOCONV -/
def Fld.SDE_CNT_NOCONV_N : Fld := { reg := .SDE_CNT_NOCONV, lo := 0, width := 32 }
/-- SDE_CNT_CRC.N, bit 31:0, RC: leaves ended CRC -/
def Fld.SDE_CNT_CRC_N : Fld := { reg := .SDE_CNT_CRC, lo := 0, width := 32 }
/-- SDE_CNT_META.N, bit 31:0, RC: leaves ended META -/
def Fld.SDE_CNT_META_N : Fld := { reg := .SDE_CNT_META, lo := 0, width := 32 }
/-- SDE_CNT_PRE.N, bit 31:0, RC: pre-erased leaves -/
def Fld.SDE_CNT_PRE_N : Fld := { reg := .SDE_CNT_PRE, lo := 0, width := 32 }
/-- SDE_CNT_DROP.N, bit 31:0, RC: dropped leaves -/
def Fld.SDE_CNT_DROP_N : Fld := { reg := .SDE_CNT_DROP, lo := 0, width := 32 }
/-- SDE_CNT_ORPHAN.N, bit 31:0, RC: orphan leaves -/
def Fld.SDE_CNT_ORPHAN_N : Fld := { reg := .SDE_CNT_ORPHAN, lo := 0, width := 32 }
/-- SDE_CNT_OUTER.N, bit 31:0, RC: sheets with f ≥ 1 decoded -/
def Fld.SDE_CNT_OUTER_N : Fld := { reg := .SDE_CNT_OUTER, lo := 0, width := 32 }
/-- SDE_CNT_CYC3.N, bit 31:0, RC: cycles spent on class 3 leaves -/
def Fld.SDE_CNT_CYC3_N : Fld := { reg := .SDE_CNT_CYC3, lo := 0, width := 32 }
/-- WSG_CTL.EN, bit 0, RW: encoder and WSG enable -/
def Fld.WSG_CTL_EN : Fld := { reg := .WSG_CTL, lo := 0, width := 1 }
/-- WSG_STAT.ENC_FAULT, bit 0, W1C: encoder fault, under R157 -/
def Fld.WSG_STAT_ENC_FAULT : Fld := { reg := .WSG_STAT, lo := 0, width := 1 }
/-- WSG_STAT.JOB_ERR, bit 1, W1C: a job was refused, under R156 -/
def Fld.WSG_STAT_JOB_ERR : Fld := { reg := .WSG_STAT, lo := 1, width := 1 }
/-- WSG_EJOB_BASE.BASE, bit 21:0, RW: job ring address ÷ 4 KiB -/
def Fld.WSG_EJOB_BASE : Fld := { reg := .WSG_EJOB_BASE, lo := 0, width := 22 }
/-- WSG_EJOB_PI.PI, bit 7:0, RW: next job firmware will write -/
def Fld.WSG_EJOB_PI : Fld := { reg := .WSG_EJOB_PI, lo := 0, width := 8 }
/-- WSG_EJOB_CI.CI, bit 7:0, RO: next job the encoder will take -/
def Fld.WSG_EJOB_CI : Fld := { reg := .WSG_EJOB_CI, lo := 0, width := 8 }
/-- WSG_OCTL.GATE_EN, bit 0, RW: firmware write enable for every lane -/
def Fld.WSG_OCTL_GATE_EN : Fld := { reg := .WSG_OCTL, lo := 0, width := 1 }
/-- WSG_OCTL.PAUSE, bit 1, RW: pause at a leaf boundary, under R190 -/
def Fld.WSG_OCTL_PAUSE : Fld := { reg := .WSG_OCTL, lo := 1, width := 1 }
/-- WSG_OCTL.STOP, bit 2, WO: immediate stop, under R191 -/
def Fld.WSG_OCTL_STOP : Fld := { reg := .WSG_OCTL, lo := 2, width := 1 }
/-- WSG_OCTL.CLASS_E, bit 3, RW: Class E erase margins, under R165 -/
def Fld.WSG_OCTL_CLASS_E : Fld := { reg := .WSG_OCTL, lo := 3, width := 1 }
/-- WSG_OCTL.TRAIN, bit 4, WO: training at the next gap -/
def Fld.WSG_OCTL_TRAIN : Fld := { reg := .WSG_OCTL, lo := 4, width := 1 }
/-- WSG_OCTL.DRV_LAT, bit 10:5, RW: lane and driver latency, ns -/
def Fld.WSG_OCTL_DRV_LAT : Fld := { reg := .WSG_OCTL, lo := 5, width := 6 }
/-- WSG_OSTAT.GATE, bit 0, RO: at least one lane open now -/
def Fld.WSG_OSTAT_GATE : Fld := { reg := .WSG_OSTAT, lo := 0, width := 1 }
/-- WSG_OSTAT.PAUSED, bit 1, RO: every lane paused -/
def Fld.WSG_OSTAT_PAUSED : Fld := { reg := .WSG_OSTAT, lo := 1, width := 1 }
/-- WSG_OSTAT.LDC_FAULT, bit 2, W1C: under R175 -/
def Fld.WSG_OSTAT_LDC_FAULT : Fld := { reg := .WSG_OSTAT, lo := 2, width := 1 }
/-- WSG_OSTAT.LDC_QFULL, bit 3, W1C: firmware queue was full -/
def Fld.WSG_OSTAT_LDC_QFULL : Fld := { reg := .WSG_OSTAT, lo := 3, width := 1 }
/-- WSG_OSTAT.STOP_SEEN, bit 4, W1C: LD_STOP_N was low -/
def Fld.WSG_OSTAT_STOP_SEEN : Fld := { reg := .WSG_OSTAT, lo := 4, width := 1 }
/-- WSG_OSTAT.INTERRUPT, bit 5, W1C: a frame was abandoned -/
def Fld.WSG_OSTAT_INTERRUPT : Fld := { reg := .WSG_OSTAT, lo := 5, width := 1 }
/-- WSG_OSTAT.LANE_OPEN, bit 17:6, RO: gate state per lane -/
def Fld.WSG_OSTAT_LANE_OPEN : Fld := { reg := .WSG_OSTAT, lo := 6, width := 12 }
/-- WSG_PLAN.BASE, bit 21:0, RW: band plan address ÷ 1 KiB, latched at the gap -/
def Fld.WSG_PLAN_BASE : Fld := { reg := .WSG_PLAN, lo := 0, width := 22 }
/-- WSG_LDC_CMD.DATA, bit 15:0, WO: frame DATA -/
def Fld.WSG_LDC_CMD_DATA : Fld := { reg := .WSG_LDC_CMD, lo := 0, width := 16 }
/-- WSG_LDC_CMD.REG, bit 21:16, WO: frame REG -/
def Fld.WSG_LDC_CMD_REG : Fld := { reg := .WSG_LDC_CMD, lo := 16, width := 6 }
/-- WSG_LDC_CMD.SPOT, bit 25:22, WO: frame SPOT -/
def Fld.WSG_LDC_CMD_SPOT : Fld := { reg := .WSG_LDC_CMD, lo := 22, width := 4 }
/-- WSG_LDC_CMD.OP, bit 27:26, WO: frame OP -/
def Fld.WSG_LDC_CMD_OP : Fld := { reg := .WSG_LDC_CMD, lo := 26, width := 2 }
/-- WSG_LDC_RSP.DATA, bit 15:0, RC: DATA of the response to the oldest unread firmware frame -/
def Fld.WSG_LDC_RSP_DATA : Fld := { reg := .WSG_LDC_RSP, lo := 0, width := 16 }
/-- WSG_LDC_RSP.ACK, bit 17:16, RC: its ACK -/
def Fld.WSG_LDC_RSP_ACK : Fld := { reg := .WSG_LDC_RSP, lo := 16, width := 2 }
/-- WSG_LDC_RSP.REFUSED, bit 18, RC: not sent, under R174 -/
def Fld.WSG_LDC_RSP_REFUSED : Fld := { reg := .WSG_LDC_RSP, lo := 18, width := 1 }
/-- WSG_LDC_RSP.VALID, bit 19, RC: a response was waiting -/
def Fld.WSG_LDC_RSP_VALID : Fld := { reg := .WSG_LDC_RSP, lo := 19, width := 1 }
/-- WSG_LEAD.LEAD, bit 20:0, RW: lead of lane w in 1/32 channel bit, latched at the gap -/
def Fld.WSG_LEAD : Fld := { reg := .WSG_LEAD, lo := 0, width := 21 }
/-- WSG_STRAT.TOP_START, bit 4:0, RW: E of channel bit 0 -/
def Fld.WSG_STRAT_TOP_START : Fld := { reg := .WSG_STRAT, lo := 0, width := 5 }
/-- WSG_STRAT.TOP_END, bit 9:5, RW: E of channel bit 1, n ≥ 3 -/
def Fld.WSG_STRAT_TOP_END : Fld := { reg := .WSG_STRAT, lo := 5, width := 5 }
/-- WSG_STRAT.LAST_START, bit 14:10, RW: E of channel bit n - 1, n ≥ 3 -/
def Fld.WSG_STRAT_LAST_START : Fld := { reg := .WSG_STRAT, lo := 10, width := 5 }
/-- WSG_STRAT.COOL_START, bit 19:15, RW: E of channel bit n -/
def Fld.WSG_STRAT_COOL_START : Fld := { reg := .WSG_STRAT, lo := 15, width := 5 }
/-- WSG_STRAT.COOL_END, bit 24:20, RW: E of channel bit n + 1 -/
def Fld.WSG_STRAT_COOL_END : Fld := { reg := .WSG_STRAT, lo := 20, width := 5 }
/-- WSG_CNT_LEAF.N, bit 31:0, RC: frames recorded to their end -/
def Fld.WSG_CNT_LEAF_N : Fld := { reg := .WSG_CNT_LEAF, lo := 0, width := 32 }
/-- WSG_CNT_INT.N, bit 31:0, RC: frames abandoned -/
def Fld.WSG_CNT_INT_N : Fld := { reg := .WSG_CNT_INT, lo := 0, width := 32 }
/-- WSG_CNT_LDC_ERR.N, bit 31:0, RC: LDC frames that failed twice -/
def Fld.WSG_CNT_LDC_ERR_N : Fld := { reg := .WSG_CNT_LDC_ERR, lo := 0, width := 32 }
/-- WSG_CNT_GATE.N, bit 31:0, RC: gate closures under R162 while a lane was recording -/
def Fld.WSG_CNT_GATE_N : Fld := { reg := .WSG_CNT_GATE, lo := 0, width := 32 }
/-- CLE_CTL.EN, bit 0, RW: engine enable; 0 stops every tick -/
def Fld.CLE_CTL_EN : Fld := { reg := .CLE_CTL, lo := 0, width := 1 }
/-- CLE_CTL.CS_LOCK, bit 1, RW: under R233; a write of 0 is ignored once set -/
def Fld.CLE_CTL_CS_LOCK : Fld := { reg := .CLE_CTL, lo := 1, width := 1 }
/-- CLE_CTL.TRACE_EN, bit 2, RW: under R211 -/
def Fld.CLE_CTL_TRACE_EN : Fld := { reg := .CLE_CTL, lo := 2, width := 1 }
/-- CLE_STAT.HALT, bit 0, RO: engine halted, under R222 -/
def Fld.CLE_STAT_HALT : Fld := { reg := .CLE_STAT, lo := 0, width := 1 }
/-- CLE_STAT.EVT_OVF, bit 1, W1C: an event was discarded -/
def Fld.CLE_STAT_EVT_OVF : Fld := { reg := .CLE_STAT, lo := 1, width := 1 }
/-- CLE_STAT.CS_BUSY, bit 2, RO: an open slot is enabled -/
def Fld.CLE_STAT_CS_BUSY : Fld := { reg := .CLE_STAT, lo := 2, width := 1 }
/-- CLE_STAT.REFUSE, bit 3, W1C: a register-bus write was refused -/
def Fld.CLE_STAT_REFUSE : Fld := { reg := .CLE_STAT, lo := 3, width := 1 }
/-- CLE_STAT.ISLAND_OFF, bit 4, W1C: under R209 -/
def Fld.CLE_STAT_ISLAND_OFF : Fld := { reg := .CLE_STAT, lo := 4, width := 1 }
/-- CLE_STAT.CE, bit 5, W1C: a corrected memory error -/
def Fld.CLE_STAT_CE : Fld := { reg := .CLE_STAT, lo := 5, width := 1 }
/-- CLE_STAT.IDLE, bit 6, RO: no sample running -/
def Fld.CLE_STAT_IDLE : Fld := { reg := .CLE_STAT, lo := 6, width := 1 }
/-- CLE_STAT.LEVEL, bit 9:8, RO: level of the running sample -/
def Fld.CLE_STAT_LEVEL : Fld := { reg := .CLE_STAT, lo := 8, width := 2 }
/-- CLE_STAT.SLOT, bit 16:10, RO: running slot -/
def Fld.CLE_STAT_SLOT : Fld := { reg := .CLE_STAT, lo := 10, width := 7 }
/-- CLE_TCNT.TCNT, bit 31:0, RO: tick counter -/
def Fld.CLE_TCNT : Fld := { reg := .CLE_TCNT, lo := 0, width := 32 }
/-- CLE_GO.GO, bit 0, WO: under R212 -/
def Fld.CLE_GO : Fld := { reg := .CLE_GO, lo := 0, width := 1 }
/-- CLE_EVT.CODE, bit 7:0, RC: oldest event; the read removes it -/
def Fld.CLE_EVT_CODE : Fld := { reg := .CLE_EVT, lo := 0, width := 8 }
/-- CLE_EVT.SLOT, bit 14:8, RC: slot that posted it -/
def Fld.CLE_EVT_SLOT : Fld := { reg := .CLE_EVT, lo := 8, width := 7 }
/-- CLE_EVT.FAULT, bit 15, RC: 1: loop fault entry -/
def Fld.CLE_EVT_FAULT : Fld := { reg := .CLE_EVT, lo := 15, width := 1 }
/-- CLE_EVT.VALID, bit 16, RC: an entry was returned -/
def Fld.CLE_EVT_VALID : Fld := { reg := .CLE_EVT, lo := 16, width := 1 }
/-- CLE_IOREL.DAC, bit 15:0, RW: bit 4n + d: DAC d (0 FOC, 1 TRK, 2 TLT, 3 SAC) of OPU n -/
def Fld.CLE_IOREL_DAC : Fld := { reg := .CLE_IOREL, lo := 0, width := 16 }
/-- CLE_IOREL.SLED, bit 19:16, RW: bit 16 + n: SLED_TGT of OPU n -/
def Fld.CLE_IOREL_SLED : Fld := { reg := .CLE_IOREL, lo := 16, width := 4 }
/-- CLE_IOREL.SPN, bit 20, RW: spindle output ports -/
def Fld.CLE_IOREL_SPN : Fld := { reg := .CLE_IOREL, lo := 20, width := 1 }
/-- CLE_IOREL.APC, bit 27:24, RW: bit 24 + n: APC_SCALE ports of OPU n -/
def Fld.CLE_IOREL_APC : Fld := { reg := .CLE_IOREL, lo := 24, width := 4 }
/-- CLE_TRACE_BASE.BASE, bit 21:0, RW: trace ring address ÷ 4 KiB; bits 3:0 ignored -/
def Fld.CLE_TRACE_BASE : Fld := { reg := .CLE_TRACE_BASE, lo := 0, width := 22 }
/-- CLE_TRACE_ST.PI, bit 11:0, RO: next trace entry -/
def Fld.CLE_TRACE_ST_PI : Fld := { reg := .CLE_TRACE_ST, lo := 0, width := 12 }
/-- CLE_TRACE_ST.DROP, bit 27:16, RC: trace words dropped, saturating -/
def Fld.CLE_TRACE_ST_DROP : Fld := { reg := .CLE_TRACE_ST, lo := 16, width := 12 }
/-- CLE_CS_ADDR.ADDR, bit 13:0, RW: word address for the DATA registers -/
def Fld.CLE_CS_ADDR : Fld := { reg := .CLE_CS_ADDR, lo := 0, width := 14 }
/-- CLE_DM_ADDR.ADDR, bit 13:0, RW: word address for the DATA registers -/
def Fld.CLE_DM_ADDR : Fld := { reg := .CLE_DM_ADDR, lo := 0, width := 14 }
/-- CLE_ECC.CE_COUNT, bit 15:0, RC: corrected errors, saturating -/
def Fld.CLE_ECC_CE_COUNT : Fld := { reg := .CLE_ECC, lo := 0, width := 16 }
/-- CLE_CS_DATA.DATA, bit 31:0, RW: dword k of the word; a write to DATA3 commits, under R205 and R233 -/
def Fld.CLE_CS_DATA : Fld := { reg := .CLE_CS_DATA, lo := 0, width := 32 }
/-- CLE_DM_DATA.DATA, bit 31:0, RW: dword k of the word; a write to DATA3 commits, under R205 and R233 -/
def Fld.CLE_DM_DATA : Fld := { reg := .CLE_DM_DATA, lo := 0, width := 32 }
/-- CLE_FAULT.SLOT, bit 31:0, RO: bit j of FAULTk: SLOT_STAT.FAULT of LS(32k + j); FAULT2 bits 31:16 reserved -/
def Fld.CLE_FAULT_SLOT : Fld := { reg := .CLE_FAULT, lo := 0, width := 32 }
/-- CLE_MBOX.M, bit 31:0, RW: I/O port 0x380 + i -/
def Fld.CLE_MBOX_M : Fld := { reg := .CLE_MBOX, lo := 0, width := 32 }
/-- SLOT_CFG.EN, bit 0, RW: slot enable, under R212 -/
def Fld.SLOT_CFG_EN : Fld := { reg := .SLOT_CFG, lo := 0, width := 1 }
/-- SLOT_CFG.PRIO, bit 2:1, RW: level, 0 highest -/
def Fld.SLOT_CFG_PRIO : Fld := { reg := .SLOT_CFG, lo := 1, width := 2 }
/-- SLOT_CFG.SATM, bit 3, RW: saturating mode -/
def Fld.SLOT_CFG_SATM : Fld := { reg := .SLOT_CFG, lo := 3, width := 1 }
/-- SLOT_CFG.FTZ, bit 4, RW: flush-to-zero -/
def Fld.SLOT_CFG_FTZ : Fld := { reg := .SLOT_CFG, lo := 4, width := 1 }
/-- SLOT_CFG.SRC, bit 6:5, RW: 0 timer, 1 follower; 2 and 3 act as 0 -/
def Fld.SLOT_CFG_SRC : Fld := { reg := .SLOT_CFG, lo := 5, width := 2 }
/-- SLOT_CFG.LEADER, bit 13:7, RW: leader slot of a follower -/
def Fld.SLOT_CFG_LEADER : Fld := { reg := .SLOT_CFG, lo := 7, width := 7 }
/-- SLOT_CFG.DIV, bit 17:14, RW: follower ratio minus one, 1 to 16 -/
def Fld.SLOT_CFG_DIV : Fld := { reg := .SLOT_CFG, lo := 14, width := 4 }
/-- SLOT_CFG.AW, bit 19:18, RW: adaptive stores per sample -/
def Fld.SLOT_CFG_AW : Fld := { reg := .SLOT_CFG, lo := 18, width := 2 }
/-- SLOT_CFG.OPU, bit 22:20, RW: OPU inhibited on fault; 4–7 none -/
def Fld.SLOT_CFG_OPU : Fld := { reg := .SLOT_CFG, lo := 20, width := 3 }
/-- SLOT_CFG.OPEN, bit 23, RO: 1 for LS72–LS79 -/
def Fld.SLOT_CFG_OPEN : Fld := { reg := .SLOT_CFG, lo := 23, width := 1 }
/-- SLOT_PER.PERIOD, bit 19:0, RW: clocks; values below 200 act as 200 -/
def Fld.SLOT_PER_PERIOD : Fld := { reg := .SLOT_PER, lo := 0, width := 20 }
/-- SLOT_PHASE.PHASE, bit 19:0, RW: clocks; taken modulo PERIOD -/
def Fld.SLOT_PHASE : Fld := { reg := .SLOT_PHASE, lo := 0, width := 20 }
/-- SLOT_ENTRY.ENTRY, bit 13:0, RW: entry address -/
def Fld.SLOT_ENTRY_ENTRY : Fld := { reg := .SLOT_ENTRY, lo := 0, width := 14 }
/-- SLOT_ENTRY.STATE, bit 29:16, RW: state area base, loaded into A1 -/
def Fld.SLOT_ENTRY_STATE : Fld := { reg := .SLOT_ENTRY, lo := 16, width := 14 }
/-- SLOT_BANK.BASE, bit 13:0, RW: bank 0 base -/
def Fld.SLOT_BANK_BASE : Fld := { reg := .SLOT_BANK, lo := 0, width := 14 }
/-- SLOT_BANK.LEN, bit 21:16, RW: bank length minus one, 1 to 64 words -/
def Fld.SLOT_BANK_LEN : Fld := { reg := .SLOT_BANK, lo := 16, width := 6 }
/-- SLOT_CTL.SWAP, bit 0, WO: request a bank swap, under R223 -/
def Fld.SLOT_CTL_SWAP : Fld := { reg := .SLOT_CTL, lo := 0, width := 1 }
/-- SLOT_CTL.PENDING, bit 1, RO: swap waiting -/
def Fld.SLOT_CTL_PENDING : Fld := { reg := .SLOT_CTL, lo := 1, width := 1 }
/-- SLOT_CTL.ACTIVE, bit 2, RO: bank in use -/
def Fld.SLOT_CTL_ACTIVE : Fld := { reg := .SLOT_CTL, lo := 2, width := 1 }
/-- SLOT_CTL.STARTED, bit 3, RO: ticks running -/
def Fld.SLOT_CTL_STARTED : Fld := { reg := .SLOT_CTL, lo := 3, width := 1 }
/-- SLOT_CTL.BANK_GEN, bit 15:8, RO: swaps, modulo 256 -/
def Fld.SLOT_CTL_BANK_GEN : Fld := { reg := .SLOT_CTL, lo := 8, width := 8 }
/-- SLOT_STAT.FAULT, bit 0, W1C: loop fault -/
def Fld.SLOT_STAT_FAULT : Fld := { reg := .SLOT_STAT, lo := 0, width := 1 }
/-- SLOT_STAT.CAUSE, bit 3:1, RO: cause under R221, kept until FAULT is cleared -/
def Fld.SLOT_STAT_CAUSE : Fld := { reg := .SLOT_STAT, lo := 1, width := 3 }
/-- SLOT_STAT.ADAPT_OVF, bit 4, W1C: under R225 -/
def Fld.SLOT_STAT_ADAPT_OVF : Fld := { reg := .SLOT_STAT, lo := 4, width := 1 }
/-- SLOT_STAT.RUN, bit 5, RO: a sample ready, running or suspended -/
def Fld.SLOT_STAT_RUN : Fld := { reg := .SLOT_STAT, lo := 5, width := 1 }
/-- SLOT_STAT.CONSEC, bit 7:6, RO: consecutive merged ticks -/
def Fld.SLOT_STAT_CONSEC : Fld := { reg := .SLOT_STAT, lo := 6, width := 2 }
/-- SLOT_STAT.LFLAGS, bit 14:8, RO: sticky flags of the last completed sample -/
def Fld.SLOT_STAT_LFLAGS : Fld := { reg := .SLOT_STAT, lo := 8, width := 7 }
/-- SLOT_CNT.OVR, bit 15:0, RC: merged ticks, saturating -/
def Fld.SLOT_CNT_OVR : Fld := { reg := .SLOT_CNT, lo := 0, width := 16 }
/-- SLOT_CNT.MAXCYC, bit 31:16, RC: longest sample since read, in clocks from dispatch to DONE, time suspended excluded, saturating -/
def Fld.SLOT_CNT_MAXCYC : Fld := { reg := .SLOT_CNT, lo := 16, width := 16 }
/-- SPN_CTL.EN, bit 0, RW: block enable; 0 forces outputs low and state OFF -/
def Fld.SPN_CTL_EN : Fld := { reg := .SPN_CTL, lo := 0, width := 1 }
/-- SPN_CTL.DIR, bit 1, RW: direction, changed only under R289 -/
def Fld.SPN_CTL_DIR : Fld := { reg := .SPN_CTL, lo := 1, width := 1 }
/-- SPN_CTL.BRAKE_EN, bit 2, RW: 1 short braking; 0 coasting -/
def Fld.SPN_CTL_BRAKE_EN : Fld := { reg := .SPN_CTL, lo := 2, width := 1 }
/-- SPN_CTL.ADV, bit 7:3, RW: commutation advance, degrees electrical; above 15 acts as 15 -/
def Fld.SPN_CTL_ADV : Fld := { reg := .SPN_CTL, lo := 3, width := 5 }
/-- SPN_CTL.SOFT, bit 13:8, RW: softening angle, degrees electrical; below 5 acts as 5, above 40 as 40 -/
def Fld.SPN_CTL_SOFT : Fld := { reg := .SPN_CTL, lo := 8, width := 6 }
/-- SPN_CMD.START, bit 0, WO: under R285 -/
def Fld.SPN_CMD_START : Fld := { reg := .SPN_CMD, lo := 0, width := 1 }
/-- SPN_CMD.STOP, bit 1, WO: under R296 -/
def Fld.SPN_CMD_STOP : Fld := { reg := .SPN_CMD, lo := 1, width := 1 }
/-- SPN_CMD.CATCH, bit 2, WO: under R288 -/
def Fld.SPN_CMD_CATCH : Fld := { reg := .SPN_CMD, lo := 2, width := 1 }
/-- SPN_CMD.CLEAR_FAULT, bit 3, WO: FAULT to COAST -/
def Fld.SPN_CMD_CLEAR_FAULT : Fld := { reg := .SPN_CMD, lo := 3, width := 1 }
/-- SPN_STAT.STATE, bit 2:0, RO: state, codes as DSTAT -/
def Fld.SPN_STAT_STATE : Fld := { reg := .SPN_STAT, lo := 0, width := 3 }
/-- SPN_STAT.DIR_SEEN, bit 3, RO: direction of the latest crossings -/
def Fld.SPN_STAT_DIR_SEEN : Fld := { reg := .SPN_STAT, lo := 3, width := 1 }
/-- SPN_STAT.BELOW30, bit 4, RO: under R283 -/
def Fld.SPN_STAT_BELOW30 : Fld := { reg := .SPN_STAT, lo := 4, width := 1 }
/-- SPN_STAT.OC_CYC, bit 5, W1C: cycle current limit acted -/
def Fld.SPN_STAT_OC_CYC : Fld := { reg := .SPN_STAT, lo := 5, width := 1 }
/-- SPN_STAT.OC_TRIP, bit 6, W1C: current trip -/
def Fld.SPN_STAT_OC_TRIP : Fld := { reg := .SPN_STAT, lo := 6, width := 1 }
/-- SPN_STAT.SYNC_LOSS, bit 7, W1C: under R280 -/
def Fld.SPN_STAT_SYNC_LOSS : Fld := { reg := .SPN_STAT, lo := 7, width := 1 }
/-- SPN_STAT.START_FAIL, bit 8, W1C: under R286 and R288 -/
def Fld.SPN_STAT_START_FAIL : Fld := { reg := .SPN_STAT, lo := 8, width := 1 }
/-- SPN_STAT.OVSP, bit 9, W1C: under R298 -/
def Fld.SPN_STAT_OVSP : Fld := { reg := .SPN_STAT, lo := 9, width := 1 }
/-- SPN_STAT.FROST, bit 10, W1C: a frost line event reached the block -/
def Fld.SPN_STAT_FROST : Fld := { reg := .SPN_STAT, lo := 10, width := 1 }
/-- SPN_STAT.REFUSED, bit 11, W1C: a command or DIR write was refused -/
def Fld.SPN_STAT_REFUSED : Fld := { reg := .SPN_STAT, lo := 11, width := 1 }
/-- SPN_STAT.DUTY_STALE, bit 12, W1C: under R297 -/
def Fld.SPN_STAT_DUTY_STALE : Fld := { reg := .SPN_STAT, lo := 12, width := 1 }
/-- SPN_STAT.FROST_HOLD, bit 13, RO: under R299 -/
def Fld.SPN_STAT_FROST_HOLD : Fld := { reg := .SPN_STAT, lo := 13, width := 1 }
/-- SPN_SPEED.SPEED, bit 23:0, RO: as port 0x305 -/
def Fld.SPN_SPEED : Fld := { reg := .SPN_SPEED, lo := 0, width := 24 }
/-- SPN_DT.DT, bit 7:0, RW: dead time in 5 ns; below 10 acts as 10 -/
def Fld.SPN_DT : Fld := { reg := .SPN_DT, lo := 0, width := 8 }
/-- SPN_ALIGN.I_ALIGN, bit 11:0, RW: align current, mA -/
def Fld.SPN_ALIGN_I_ALIGN : Fld := { reg := .SPN_ALIGN, lo := 0, width := 12 }
/-- SPN_ALIGN.T_ALIGN, bit 23:12, RW: align time, ms; 0 acts as 1 -/
def Fld.SPN_ALIGN_T_ALIGN : Fld := { reg := .SPN_ALIGN, lo := 12, width := 12 }
/-- SPN_RAMP.I_RAMP, bit 11:0, RW: ramp current, mA -/
def Fld.SPN_RAMP_I_RAMP : Fld := { reg := .SPN_RAMP, lo := 0, width := 12 }
/-- SPN_RAMP.A_RAMP, bit 23:12, RW: ramp acceleration, rpm/s; 0 acts as 1 -/
def Fld.SPN_RAMP_A_RAMP : Fld := { reg := .SPN_RAMP, lo := 12, width := 12 }
/-- SPN_COUCH.COUCH, bit 11:0, RW: couch speed, rpm; limited to 100–1,000 -/
def Fld.SPN_COUCH_COUCH : Fld := { reg := .SPN_COUCH, lo := 0, width := 12 }
/-- SPN_COUCH.T_COUCH, bit 23:12, RW: hand-over limit, ms; 0 acts as 1 -/
def Fld.SPN_COUCH_T_COUCH : Fld := { reg := .SPN_COUCH, lo := 12, width := 12 }
/-- SPN_LIMIT.OC_CYC, bit 15:0, RW: cycle current limit, mA -/
def Fld.SPN_LIMIT_OC_CYC : Fld := { reg := .SPN_LIMIT, lo := 0, width := 16 }
/-- SPN_LIMIT.OC_TRIP, bit 31:16, RW: trip current, mA; below OC_CYC acts as OC_CYC -/
def Fld.SPN_LIMIT_OC_TRIP : Fld := { reg := .SPN_LIMIT, lo := 16, width := 16 }
/-- SPN_OVSP.OVSP, bit 12:0, RW: over-speed limit, rpm -/
def Fld.SPN_OVSP : Fld := { reg := .SPN_OVSP, lo := 0, width := 13 }
/-- SPN_SCALE.ISCALE, bit 15:0, RW: current at +1.0 V differential sense input, mA -/
def Fld.SPN_SCALE_ISCALE : Fld := { reg := .SPN_SCALE, lo := 0, width := 16 }
/-- SPN_SCALE.VSCALE, bit 31:16, RW: motor supply divider, mV per volt at VSENSE_MOT -/
def Fld.SPN_SCALE_VSCALE : Fld := { reg := .SPN_SCALE, lo := 16, width := 16 }
/-- SPN_MBOX.M, bit 31:0, RW: spindle mailbox word -/
def Fld.SPN_MBOX_M : Fld := { reg := .SPN_MBOX, lo := 0, width := 32 }
/-- SPN_CNT_OC.N, bit 31:0, RC: half-periods cut by OC_CYC -/
def Fld.SPN_CNT_OC_N : Fld := { reg := .SPN_CNT_OC, lo := 0, width := 32 }
/-- SPN_CNT_MISS.N, bit 31:0, RC: missed steps in RUN -/
def Fld.SPN_CNT_MISS_N : Fld := { reg := .SPN_CNT_MISS, lo := 0, width := 32 }
/-- SPN_CNT_START.N, bit 31:0, RC: entries to RUN from START or CATCH -/
def Fld.SPN_CNT_START_N : Fld := { reg := .SPN_CNT_START, lo := 0, width := 32 }
/-- SPN_CNT_STARTFAIL.N, bit 31:0, RC: start and catch failures -/
def Fld.SPN_CNT_STARTFAIL_N : Fld := { reg := .SPN_CNT_STARTFAIL, lo := 0, width := 32 }
/-- SLD_CTL.EN, bit 0, RW: sled enable; 0 forces outputs low and state OFF -/
def Fld.SLD_CTL_EN : Fld := { reg := .SLD_CTL, lo := 0, width := 1 }
/-- SLD_CTL.SRC, bit 1, RW: 0 CLE port, 1 SLD_TGT -/
def Fld.SLD_CTL_SRC : Fld := { reg := .SLD_CTL, lo := 1, width := 1 }
/-- SLD_CTL.MSTEP, bit 4:2, RW: under R310 -/
def Fld.SLD_CTL_MSTEP : Fld := { reg := .SLD_CTL, lo := 2, width := 3 }
/-- SLD_CTL.MODE_SEL, bit 6:5, RW: 0 automatic, 1 quiet, 2 strong -/
def Fld.SLD_CTL_MODE_SEL : Fld := { reg := .SLD_CTL, lo := 5, width := 2 }
/-- SLD_CTL.DIR_INV, bit 7, RW: under R308 -/
def Fld.SLD_CTL_DIR_INV : Fld := { reg := .SLD_CTL, lo := 7, width := 1 }
/-- SLD_CMD.HOME, bit 0, WO: under R317 -/
def Fld.SLD_CMD_HOME : Fld := { reg := .SLD_CMD, lo := 0, width := 1 }
/-- SLD_CMD.STOP, bit 1, WO: decelerate at A_MAX; target becomes the rest position -/
def Fld.SLD_CMD_STOP : Fld := { reg := .SLD_CMD, lo := 1, width := 1 }
/-- SLD_CMD.CLEAR_FAULT, bit 2, WO: FAULT to IDLE, HOMED cleared, POS_UNSURE set -/
def Fld.SLD_CMD_CLEAR_FAULT : Fld := { reg := .SLD_CMD, lo := 2, width := 1 }
/-- SLD_STAT.STATE, bit 2:0, RO: 0 OFF, 1 IDLE, 2 MOVING, 3 HOMING, 4 HELD, 5 FAULT -/
def Fld.SLD_STAT_STATE : Fld := { reg := .SLD_STAT, lo := 0, width := 3 }
/-- SLD_STAT.STRONG, bit 3, RO: strong current in force -/
def Fld.SLD_STAT_STRONG : Fld := { reg := .SLD_STAT, lo := 3, width := 1 }
/-- SLD_STAT.HOMED, bit 4, RO: homing completed since reset -/
def Fld.SLD_STAT_HOMED : Fld := { reg := .SLD_STAT, lo := 4, width := 1 }
/-- SLD_STAT.POS_UNSURE, bit 5, W1C: position may be untrue, under R321 -/
def Fld.SLD_STAT_POS_UNSURE : Fld := { reg := .SLD_STAT, lo := 5, width := 1 }
/-- SLD_STAT.HOME_FAIL, bit 6, W1C: under R318 -/
def Fld.SLD_STAT_HOME_FAIL : Fld := { reg := .SLD_STAT, lo := 6, width := 1 }
/-- SLD_STAT.LIMIT, bit 7, W1C: a target was limited -/
def Fld.SLD_STAT_LIMIT : Fld := { reg := .SLD_STAT, lo := 7, width := 1 }
/-- SLD_STAT.TGT_IGN, bit 8, W1C: a target was ignored -/
def Fld.SLD_STAT_TGT_IGN : Fld := { reg := .SLD_STAT, lo := 8, width := 1 }
/-- SLD_STAT.OC, bit 9, W1C: under R309 -/
def Fld.SLD_STAT_OC : Fld := { reg := .SLD_STAT, lo := 9, width := 1 }
/-- SLD_STAT.FROST_HOLD, bit 10, RO: under R321 -/
def Fld.SLD_STAT_FROST_HOLD : Fld := { reg := .SLD_STAT, lo := 10, width := 1 }
/-- SLD_STAT.REFUSED, bit 11, W1C: a command was refused -/
def Fld.SLD_STAT_REFUSED : Fld := { reg := .SLD_STAT, lo := 11, width := 1 }
/-- SLD_POS.POS, bit 31:0, RO: commanded position P, signed, 1/64 full step -/
def Fld.SLD_POS : Fld := { reg := .SLD_POS, lo := 0, width := 32 }
/-- SLD_TGT.TGT, bit 31:0, RW: target when SRC = 1, signed -/
def Fld.SLD_TGT : Fld := { reg := .SLD_TGT, lo := 0, width := 32 }
/-- SLD_PROF.V_MAX, bit 15:0, RW: full steps/s; 0 acts as 1 -/
def Fld.SLD_PROF_V_MAX : Fld := { reg := .SLD_PROF, lo := 0, width := 16 }
/-- SLD_PROF.A_MAX, bit 31:16, RW: 100 full steps/s²; 0 acts as 1 -/
def Fld.SLD_PROF_A_MAX : Fld := { reg := .SLD_PROF, lo := 16, width := 16 }
/-- SLD_CUR.I_QUIET, bit 9:0, RW: mA -/
def Fld.SLD_CUR_I_QUIET : Fld := { reg := .SLD_CUR, lo := 0, width := 10 }
/-- SLD_CUR.I_STRONG, bit 19:10, RW: mA -/
def Fld.SLD_CUR_I_STRONG : Fld := { reg := .SLD_CUR, lo := 10, width := 10 }
/-- SLD_CUR.I_HOLD, bit 29:20, RW: mA -/
def Fld.SLD_CUR_I_HOLD : Fld := { reg := .SLD_CUR, lo := 20, width := 10 }
/-- SLD_MODE.V_UP, bit 15:0, RW: full steps/s -/
def Fld.SLD_MODE_V_UP : Fld := { reg := .SLD_MODE, lo := 0, width := 16 }
/-- SLD_MODE.V_DN, bit 31:16, RW: full steps/s -/
def Fld.SLD_MODE_V_DN : Fld := { reg := .SLD_MODE, lo := 16, width := 16 }
/-- SLD_HOME.HOME_V, bit 15:0, RW: full steps/s -/
def Fld.SLD_HOME_HOME_V : Fld := { reg := .SLD_HOME, lo := 0, width := 16 }
/-- SLD_HOME.BACK, bit 23:16, RW: full steps; 0 acts as 1 -/
def Fld.SLD_HOME_BACK : Fld := { reg := .SLD_HOME, lo := 16, width := 8 }
/-- SLD_HOME.STALL_THR, bit 27:24, RW: stall threshold in 1/16 of R -/
def Fld.SLD_HOME_STALL_THR : Fld := { reg := .SLD_HOME, lo := 24, width := 4 }
/-- SLD_HOME2.HOME_MAX, bit 15:0, RW: full steps -/
def Fld.SLD_HOME2_HOME_MAX : Fld := { reg := .SLD_HOME2, lo := 0, width := 16 }
/-- SLD_HOME2.I_HOME, bit 25:16, RW: mA -/
def Fld.SLD_HOME2_I_HOME : Fld := { reg := .SLD_HOME2, lo := 16, width := 10 }
/-- SLD_LIM_MIN.MIN, bit 31:0, RW: signed -/
def Fld.SLD_LIM_MIN : Fld := { reg := .SLD_LIM_MIN, lo := 0, width := 32 }
/-- SLD_LIM_MAX.MAX, bit 31:0, RW: signed -/
def Fld.SLD_LIM_MAX : Fld := { reg := .SLD_LIM_MAX, lo := 0, width := 32 }
/-- SLD_SENSE.OC, bit 15:0, RW: trip current, mA -/
def Fld.SLD_SENSE_OC : Fld := { reg := .SLD_SENSE, lo := 0, width := 16 }
/-- SLD_SENSE.ISCALE, bit 31:16, RW: mA at +1.0 V sense input -/
def Fld.SLD_SENSE_ISCALE : Fld := { reg := .SLD_SENSE, lo := 16, width := 16 }
/-- SLD_IDLE.IDLE_T, bit 15:0, RW: ms -/
def Fld.SLD_IDLE_IDLE_T : Fld := { reg := .SLD_IDLE, lo := 0, width := 16 }
/-- SLD_CL_CTL.EN, bit 0, RW: clamp enable -/
def Fld.SLD_CL_CTL_EN : Fld := { reg := .SLD_CL_CTL, lo := 0, width := 1 }
/-- SLD_CL_CTL.DUTY, bit 15:8, RW: travel duty in 1/255 -/
def Fld.SLD_CL_CTL_DUTY : Fld := { reg := .SLD_CL_CTL, lo := 8, width := 8 }
/-- SLD_CL_CTL.SEAT_DUTY, bit 23:16, RW: seating duty in 1/255 -/
def Fld.SLD_CL_CTL_SEAT_DUTY : Fld := { reg := .SLD_CL_CTL, lo := 16, width := 8 }
/-- SLD_CL_CMD.CLAMP, bit 0, WO: under R325 -/
def Fld.SLD_CL_CMD_CLAMP : Fld := { reg := .SLD_CL_CMD, lo := 0, width := 1 }
/-- SLD_CL_CMD.RELEASE, bit 1, WO: under R326 -/
def Fld.SLD_CL_CMD_RELEASE : Fld := { reg := .SLD_CL_CMD, lo := 1, width := 1 }
/-- SLD_CL_CMD.CLEAR_FAULT, bit 2, WO: under R327 -/
def Fld.SLD_CL_CMD_CLEAR_FAULT : Fld := { reg := .SLD_CL_CMD, lo := 2, width := 1 }
/-- SLD_CL_STAT.STATE, bit 2:0, RO: 0 UNKNOWN, 1 RELEASED, 2 CLAMPING, 3 CLAMPED, 4 RELEASING, 5 FAULT -/
def Fld.SLD_CL_STAT_STATE : Fld := { reg := .SLD_CL_STAT, lo := 0, width := 3 }
/-- SLD_CL_STAT.DISC_PRESENT, bit 3, RO: debounced -/
def Fld.SLD_CL_STAT_DISC_PRESENT : Fld := { reg := .SLD_CL_STAT, lo := 3, width := 1 }
/-- SLD_CL_STAT.CLAMP_HOME, bit 4, RO: debounced -/
def Fld.SLD_CL_STAT_CLAMP_HOME : Fld := { reg := .SLD_CL_STAT, lo := 4, width := 1 }
/-- SLD_CL_STAT.NO_DISC, bit 5, W1C: under R325 -/
def Fld.SLD_CL_STAT_NO_DISC : Fld := { reg := .SLD_CL_STAT, lo := 5, width := 1 }
/-- SLD_CL_STAT.JAM, bit 6, W1C: under R325 and R326 -/
def Fld.SLD_CL_STAT_JAM : Fld := { reg := .SLD_CL_STAT, lo := 6, width := 1 }
/-- SLD_CL_STAT.DISC_LOST, bit 7, W1C: under R328 -/
def Fld.SLD_CL_STAT_DISC_LOST : Fld := { reg := .SLD_CL_STAT, lo := 7, width := 1 }
/-- SLD_CL_STAT.REFUSED, bit 8, W1C: a command was refused -/
def Fld.SLD_CL_STAT_REFUSED : Fld := { reg := .SLD_CL_STAT, lo := 8, width := 1 }
/-- SLD_CL_STAT.FROST, bit 9, W1C: under R329 -/
def Fld.SLD_CL_STAT_FROST : Fld := { reg := .SLD_CL_STAT, lo := 9, width := 1 }
/-- SLD_CL_TIME.T_MOVE, bit 11:0, RW: ms -/
def Fld.SLD_CL_TIME_T_MOVE : Fld := { reg := .SLD_CL_TIME, lo := 0, width := 12 }
/-- SLD_CL_TIME.T_LEAVE, bit 19:12, RW: ms -/
def Fld.SLD_CL_TIME_T_LEAVE : Fld := { reg := .SLD_CL_TIME, lo := 12, width := 8 }
/-- SLD_CL_TIME.T_SEAT, bit 27:20, RW: ms -/
def Fld.SLD_CL_TIME_T_SEAT : Fld := { reg := .SLD_CL_TIME, lo := 20, width := 8 }
/-- SLD_CNT_MOVE.N, bit 31:0, RC: moves that reached their target -/
def Fld.SLD_CNT_MOVE_N : Fld := { reg := .SLD_CNT_MOVE, lo := 0, width := 32 }
/-- SLD_CNT_HOME.N, bit 31:0, RC: homing sequences completed -/
def Fld.SLD_CNT_HOME_N : Fld := { reg := .SLD_CNT_HOME, lo := 0, width := 32 }
/-- SLD_CNT_HOMEFAIL.N, bit 31:0, RC: homing failures -/
def Fld.SLD_CNT_HOMEFAIL_N : Fld := { reg := .SLD_CNT_HOMEFAIL, lo := 0, width := 32 }
/-- SLD_CNT_OC.N, bit 31:0, RC: over-current trips -/
def Fld.SLD_CNT_OC_N : Fld := { reg := .SLD_CNT_OC, lo := 0, width := 32 }
/-- CAL_CTL.EN, bit 0, RW: sequencer enable -/
def Fld.CAL_CTL_EN : Fld := { reg := .CAL_CTL, lo := 0, width := 1 }
/-- CAL_CTL.ABORT, bit 1, WO: under R347 -/
def Fld.CAL_CTL_ABORT : Fld := { reg := .CAL_CTL, lo := 1, width := 1 }
/-- CAL_STAT.STATE, bit 1:0, RO: 0 idle, 1 hardware step, 2 delegated step -/
def Fld.CAL_STAT_STATE : Fld := { reg := .CAL_STAT, lo := 0, width := 2 }
/-- CAL_STAT.PEND, bit 2, RO: pending set non-empty -/
def Fld.CAL_STAT_PEND : Fld := { reg := .CAL_STAT, lo := 2, width := 1 }
/-- CAL_STAT.DONE, bit 3, W1C: a run ended -/
def Fld.CAL_STAT_DONE : Fld := { reg := .CAL_STAT, lo := 3, width := 1 }
/-- CAL_STAT.FAIL, bit 4, W1C: under R350 -/
def Fld.CAL_STAT_FAIL : Fld := { reg := .CAL_STAT, lo := 4, width := 1 }
/-- CAL_STAT.REQ, bit 5, W1C: delegated step waiting, under R345 -/
def Fld.CAL_STAT_REQ : Fld := { reg := .CAL_STAT, lo := 5, width := 1 }
/-- CAL_STAT.REFUSE, bit 6, W1C: under R340 -/
def Fld.CAL_STAT_REFUSE : Fld := { reg := .CAL_STAT, lo := 6, width := 1 }
/-- CAL_STAT.CUR_OPU, bit 9:8, RO: OPU of the running step -/
def Fld.CAL_STAT_CUR_OPU : Fld := { reg := .CAL_STAT, lo := 8, width := 2 }
/-- CAL_STAT.CUR_GROUP, bit 14:12, RO: group of the running step -/
def Fld.CAL_STAT_CUR_GROUP : Fld := { reg := .CAL_STAT, lo := 12, width := 3 }
/-- CAL_TRIG.PAIRS, bit 27:0, WO: bit 7 × OPU + group, under R346 -/
def Fld.CAL_TRIG_PAIRS : Fld := { reg := .CAL_TRIG, lo := 0, width := 28 }
/-- CAL_PEND.PAIRS, bit 27:0, RO: pending set -/
def Fld.CAL_PEND_PAIRS : Fld := { reg := .CAL_PEND, lo := 0, width := 28 }
/-- CAL_RUN.PAIRS, bit 27:0, RO: set of the current run; pairs leave it as their steps end -/
def Fld.CAL_RUN_PAIRS : Fld := { reg := .CAL_RUN, lo := 0, width := 28 }
/-- CAL_TMO.TMO, bit 11:0, RW: step timeout, ms; 0 acts as 1 -/
def Fld.CAL_TMO : Fld := { reg := .CAL_TMO, lo := 0, width := 12 }
/-- CAL_EXT.RESULT, bit 2:0, WO: result of a delegated step, codes as CAL_RES -/
def Fld.CAL_EXT_RESULT : Fld := { reg := .CAL_EXT, lo := 0, width := 3 }
/-- CAL_FAILMAP.MAP, bit 23:0, RO: failing resources of the last failed step: slices by spot; SPD inputs 0–7; pairs F, L, R in bits 2:0; outputs FOC, TRK, TLT, SAC in bits 3:0 -/
def Fld.CAL_FAILMAP_MAP : Fld := { reg := .CAL_FAILMAP, lo := 0, width := 24 }
/-- CAL_JUMP0.OFS, bit 5:0, RW: RCS offset limit, codes -/
def Fld.CAL_JUMP0_OFS : Fld := { reg := .CAL_JUMP0, lo := 0, width := 6 }
/-- CAL_JUMP0.GTRIM, bit 11:8, RW: RCS gain limit -/
def Fld.CAL_JUMP0_GTRIM : Fld := { reg := .CAL_JUMP0, lo := 8, width := 4 }
/-- CAL_JUMP0.FT, bit 19:16, RW: filter limit -/
def Fld.CAL_JUMP0_FT : Fld := { reg := .CAL_JUMP0, lo := 16, width := 4 }
/-- CAL_JUMP0.ACT, bit 31:24, RW: actuator offset limit -/
def Fld.CAL_JUMP0_ACT : Fld := { reg := .CAL_JUMP0, lo := 24, width := 8 }
/-- CAL_JUMP1.SPD_OFS, bit 9:0, RW: servo input offset limit -/
def Fld.CAL_JUMP1_SPD_OFS : Fld := { reg := .CAL_JUMP1, lo := 0, width := 10 }
/-- CAL_JUMP1.BAL, bit 20:16, RW: balance limit -/
def Fld.CAL_JUMP1_BAL : Fld := { reg := .CAL_JUMP1, lo := 16, width := 5 }
/-- CAL_RES.RESULT, bit 20:0, RO: bits 3g + 2:3g: last result of group g; 0 none, 1 PASS, 2 TIMEOUT, 3 RANGE, 4 JUMP, 5 INVALID, 6 DEFERRED, 7 ABORTED -/
def Fld.CAL_RES_RESULT : Fld := { reg := .CAL_RES, lo := 0, width := 21 }
/-- CAL_RTRIM.OFS, bit 6:0, RW: as RCS_TRIM -/
def Fld.CAL_RTRIM_OFS : Fld := { reg := .CAL_RTRIM, lo := 0, width := 7 }
/-- CAL_RTRIM.GTRIM, bit 12:8, RW: as RCS_TRIM -/
def Fld.CAL_RTRIM_GTRIM : Fld := { reg := .CAL_RTRIM, lo := 8, width := 5 }
/-- CAL_FTRIM.FT, bit 4:0, RW: under R336 -/
def Fld.CAL_FTRIM_FT : Fld := { reg := .CAL_FTRIM, lo := 0, width := 5 }
/-- CAL_SPD_OFS.OFS, bit 9:0, RW: under R337 -/
def Fld.CAL_SPD_OFS : Fld := { reg := .CAL_SPD_OFS, lo := 0, width := 10 }
/-- CAL_SPD_BAL.F, bit 5:0, RW: SPD1 and SPD3 -/
def Fld.CAL_SPD_BAL_F : Fld := { reg := .CAL_SPD_BAL, lo := 0, width := 6 }
/-- CAL_SPD_BAL.L, bit 13:8, RW: SPD5 -/
def Fld.CAL_SPD_BAL_L : Fld := { reg := .CAL_SPD_BAL, lo := 8, width := 6 }
/-- CAL_SPD_BAL.R, bit 21:16, RW: SPD7 -/
def Fld.CAL_SPD_BAL_R : Fld := { reg := .CAL_SPD_BAL, lo := 16, width := 6 }
/-- CAL_ACT_OFS.FOC, bit 7:0, RW: under R335 -/
def Fld.CAL_ACT_OFS_FOC : Fld := { reg := .CAL_ACT_OFS, lo := 0, width := 8 }
/-- CAL_ACT_OFS.TRK, bit 15:8, RW: under R335 -/
def Fld.CAL_ACT_OFS_TRK : Fld := { reg := .CAL_ACT_OFS, lo := 8, width := 8 }
/-- CAL_ACT_OFS.TLT, bit 23:16, RW: under R335 -/
def Fld.CAL_ACT_OFS_TLT : Fld := { reg := .CAL_ACT_OFS, lo := 16, width := 8 }
/-- CAL_ACT_OFS.SAC, bit 31:24, RW: under R335 -/
def Fld.CAL_ACT_OFS_SAC : Fld := { reg := .CAL_ACT_OFS, lo := 24, width := 8 }
/-- CAL_CNT_STEP.N, bit 31:0, RC: steps that ran, DEFERRED excluded -/
def Fld.CAL_CNT_STEP_N : Fld := { reg := .CAL_CNT_STEP, lo := 0, width := 32 }
/-- CAL_CNT_FAIL.N, bit 31:0, RC: steps ended other than PASS or DEFERRED -/
def Fld.CAL_CNT_FAIL_N : Fld := { reg := .CAL_CNT_FAIL, lo := 0, width := 32 }
/-- CAL_CNT_MERGE.N, bit 31:0, RC: triggers merged under R346 -/
def Fld.CAL_CNT_MERGE_N : Fld := { reg := .CAL_CNT_MERGE, lo := 0, width := 32 }
/-- CAL_CNT_DEFER.N, bit 31:0, RC: steps ended DEFERRED -/
def Fld.CAL_CNT_DEFER_N : Fld := { reg := .CAL_CNT_DEFER, lo := 0, width := 32 }
/-- DRC_CTL.EN, bit 0, RW: 1 starts training, then READY -/
def Fld.DRC_CTL_EN : Fld := { reg := .DRC_CTL, lo := 0, width := 1 }
/-- DRC_CTL.SCRUB_EN, bit 1, RW: patrol scrub, under R366 -/
def Fld.DRC_CTL_SCRUB_EN : Fld := { reg := .DRC_CTL, lo := 1, width := 1 }
/-- DRC_CTL.RH_EN, bit 2, RW: row-hammer tables, under R374 -/
def Fld.DRC_CTL_RH_EN : Fld := { reg := .DRC_CTL, lo := 2, width := 1 }
/-- DRC_STAT.STATE, bit 2:0, RO: 0 OFF, 1 TRAINING, 2 READY, 3 DEEP_SR, 4 FROZEN -/
def Fld.DRC_STAT_STATE : Fld := { reg := .DRC_STAT, lo := 0, width := 3 }
/-- DRC_STAT.CE, bit 3, W1C: a correctable error -/
def Fld.DRC_STAT_CE : Fld := { reg := .DRC_STAT, lo := 3, width := 1 }
/-- DRC_STAT.UE, bit 4, RO: uncorrectable error; frozen -/
def Fld.DRC_STAT_UE : Fld := { reg := .DRC_STAT, lo := 4, width := 1 }
/-- DRC_STAT.HOT, bit 5, W1C: MR4 code 111 seen -/
def Fld.DRC_STAT_HOT : Fld := { reg := .DRC_STAT, lo := 5, width := 1 }
/-- DRC_STAT.RANGE, bit 6, W1C: a request beyond capacity, under R360 -/
def Fld.DRC_STAT_RANGE : Fld := { reg := .DRC_STAT, lo := 6, width := 1 }
/-- DRC_STAT.TRN_FAIL, bit 7, RO: training failed -/
def Fld.DRC_STAT_TRN_FAIL : Fld := { reg := .DRC_STAT, lo := 7, width := 1 }
/-- DRC_CFG.DENS, bit 1:0, RW: 0 4 Gb, 1 8 Gb, 2 16 Gb; 3 acts as 2 -/
def Fld.DRC_CFG_DENS : Fld := { reg := .DRC_CFG, lo := 0, width := 2 }
/-- DRC_CFG.RANKS, bit 2, RW: 0 one rank, 1 two ranks -/
def Fld.DRC_CFG_RANKS : Fld := { reg := .DRC_CFG, lo := 2, width := 1 }
/-- DRC_CFG.CAP, bit 31:16, RO: visible capacity, MiB -/
def Fld.DRC_CFG_CAP : Fld := { reg := .DRC_CFG, lo := 16, width := 16 }
/-- DRC_SCHED.AGE_CAP, bit 7:0, RW: in 16 CLK_DRAM cycles (2,048 cycles, 3.84 µs); 0 acts as 1 -/
def Fld.DRC_SCHED_AGE_CAP : Fld := { reg := .DRC_SCHED, lo := 0, width := 8 }
/-- DRC_SCHED.WQ_HI, bit 13:8, RW: write drain start -/
def Fld.DRC_SCHED_WQ_HI : Fld := { reg := .DRC_SCHED, lo := 8, width := 6 }
/-- DRC_SCHED.WQ_LO, bit 21:16, RW: write drain stop; above WQ_HI acts as WQ_HI -/
def Fld.DRC_SCHED_WQ_LO : Fld := { reg := .DRC_SCHED, lo := 16, width := 6 }
/-- DRC_REF.MULT0, bit 2:0, RO: MR4 code in force for rank 0 -/
def Fld.DRC_REF_MULT0 : Fld := { reg := .DRC_REF, lo := 0, width := 3 }
/-- DRC_REF.MULT1, bit 6:4, RO: MR4 code in force for rank 1 -/
def Fld.DRC_REF_MULT1 : Fld := { reg := .DRC_REF, lo := 4, width := 3 }
/-- DRC_RH.THR, bit 15:0, RW: activation threshold; below 256 acts as 256 -/
def Fld.DRC_RH_THR : Fld := { reg := .DRC_RH, lo := 0, width := 16 }
/-- DRC_RH.DIST, bit 18:16, RW: neighbour distance, 1 to 4; 0 acts as 1 -/
def Fld.DRC_RH_DIST : Fld := { reg := .DRC_RH, lo := 16, width := 3 }
/-- DRC_RH.WINDOW, bit 31:24, RW: table clear period, ms; 0 acts as 1 -/
def Fld.DRC_RH_WINDOW : Fld := { reg := .DRC_RH, lo := 24, width := 8 }
/-- DRC_SCRUB.PERIOD, bit 7:0, RW: hours per pass; 0 acts as 1 -/
def Fld.DRC_SCRUB_PERIOD : Fld := { reg := .DRC_SCRUB, lo := 0, width := 8 }
/-- DRC_SCRUB_POS.POS, bit 31:0, RW: next line to scrub -/
def Fld.DRC_SCRUB_POS : Fld := { reg := .DRC_SCRUB_POS, lo := 0, width := 32 }
/-- DRC_CE_ADDR.ADDR, bit 31:0, RO: buffer address ÷ 16 of the last corrected word -/
def Fld.DRC_CE_ADDR : Fld := { reg := .DRC_CE_ADDR, lo := 0, width := 32 }
/-- DRC_CE_INFO.BIT, bit 6:0, RO: corrected bit within its half: 0–63 data, 64–71 check bit 0–7 -/
def Fld.DRC_CE_INFO_BIT : Fld := { reg := .DRC_CE_INFO, lo := 0, width := 7 }
/-- DRC_CE_INFO.HALF, bit 7, RO: half of the corrected bit -/
def Fld.DRC_CE_INFO_HALF : Fld := { reg := .DRC_CE_INFO, lo := 7, width := 1 }
/-- DRC_CE_INFO.CH, bit 8, RO: channel -/
def Fld.DRC_CE_INFO_CH : Fld := { reg := .DRC_CE_INFO, lo := 8, width := 1 }
/-- DRC_CE_INFO.SOURCE, bit 10:9, RO: 0 fabric, 1 read-modify-write, 2 scrub -/
def Fld.DRC_CE_INFO_SOURCE : Fld := { reg := .DRC_CE_INFO, lo := 9, width := 2 }
/-- DRC_CE_INFO.REQ, bit 15:12, RO: fabric requester ID when SOURCE is 0 -/
def Fld.DRC_CE_INFO_REQ : Fld := { reg := .DRC_CE_INFO, lo := 12, width := 4 }
/-- DRC_PWR.AUTO_SR, bit 0, RW: under R377 -/
def Fld.DRC_PWR_AUTO_SR : Fld := { reg := .DRC_PWR, lo := 0, width := 1 }
/-- DRC_PWR.DEEP, bit 1, RW: under R378; cleared by the exit of R379 -/
def Fld.DRC_PWR_DEEP : Fld := { reg := .DRC_PWR, lo := 1, width := 1 }
/-- DRC_PWR.IDLE_T, bit 31:16, RW: CLK_DRAM cycles before automatic self-refresh -/
def Fld.DRC_PWR_IDLE_T : Fld := { reg := .DRC_PWR, lo := 16, width := 16 }
/-- DRC_TRN.CH, bit 1:0, RO: failing LP4X channel, 0–3 -/
def Fld.DRC_TRN_CH : Fld := { reg := .DRC_TRN, lo := 0, width := 2 }
/-- DRC_TRN.STEP, bit 4:2, RO: failing step of R380, 1–4 -/
def Fld.DRC_TRN_STEP : Fld := { reg := .DRC_TRN, lo := 2, width := 3 }
/-- DRC_TEST_CTL.EN, bit 0, RW: test port enable -/
def Fld.DRC_TEST_CTL_EN : Fld := { reg := .DRC_TEST_CTL, lo := 0, width := 1 }
/-- DRC_TEST_CTL.OP, bit 2:1, RW: 1 raw write, 2 raw read; 0 and 3 none -/
def Fld.DRC_TEST_CTL_OP : Fld := { reg := .DRC_TEST_CTL, lo := 1, width := 2 }
/-- DRC_TEST_CTL.GO, bit 3, WO: start, under R367 -/
def Fld.DRC_TEST_CTL_GO : Fld := { reg := .DRC_TEST_CTL, lo := 3, width := 1 }
/-- DRC_TEST_CTL.DONE, bit 4, W1C: access complete -/
def Fld.DRC_TEST_CTL_DONE : Fld := { reg := .DRC_TEST_CTL, lo := 4, width := 1 }
/-- DRC_TEST_ADDR.ADDR, bit 31:0, RW: buffer address ÷ 16 -/
def Fld.DRC_TEST_ADDR : Fld := { reg := .DRC_TEST_ADDR, lo := 0, width := 32 }
/-- DRC_TEST_CHK.CHK, bit 15:0, RW: check bits -/
def Fld.DRC_TEST_CHK_CHK : Fld := { reg := .DRC_TEST_CHK, lo := 0, width := 16 }
/-- DRC_TEST_CHK.SYND0, bit 23:16, RO: syndrome of half 0, raw read -/
def Fld.DRC_TEST_CHK_SYND0 : Fld := { reg := .DRC_TEST_CHK, lo := 16, width := 8 }
/-- DRC_TEST_CHK.SYND1, bit 31:24, RO: syndrome of half 1, raw read -/
def Fld.DRC_TEST_CHK_SYND1 : Fld := { reg := .DRC_TEST_CHK, lo := 24, width := 8 }
/-- DRC_FZ_ADDR.ADDR, bit 31:0, RO: buffer address ÷ 16 of the failing word -/
def Fld.DRC_FZ_ADDR : Fld := { reg := .DRC_FZ_ADDR, lo := 0, width := 32 }
/-- DRC_FZ_LOC.CH, bit 0, RO: channel -/
def Fld.DRC_FZ_LOC_CH : Fld := { reg := .DRC_FZ_LOC, lo := 0, width := 1 }
/-- DRC_FZ_LOC.RANK, bit 1, RO: rank -/
def Fld.DRC_FZ_LOC_RANK : Fld := { reg := .DRC_FZ_LOC, lo := 1, width := 1 }
/-- DRC_FZ_LOC.BANK, bit 4:2, RO: bank -/
def Fld.DRC_FZ_LOC_BANK : Fld := { reg := .DRC_FZ_LOC, lo := 2, width := 3 }
/-- DRC_FZ_LOC.ROW, bit 21:5, RO: row -/
def Fld.DRC_FZ_LOC_ROW : Fld := { reg := .DRC_FZ_LOC, lo := 5, width := 17 }
/-- DRC_FZ_LOC.LINE, bit 27:22, RO: line within the row -/
def Fld.DRC_FZ_LOC_LINE : Fld := { reg := .DRC_FZ_LOC, lo := 22, width := 6 }
/-- DRC_FZ_LOC.WORD, bit 29:28, RO: word within the line -/
def Fld.DRC_FZ_LOC_WORD : Fld := { reg := .DRC_FZ_LOC, lo := 28, width := 2 }
/-- DRC_FZ_LOC.SOURCE, bit 31:30, RO: as CE_INFO -/
def Fld.DRC_FZ_LOC_SOURCE : Fld := { reg := .DRC_FZ_LOC, lo := 30, width := 2 }
/-- DRC_FZ_INFO.REQ, bit 3:0, RO: fabric requester ID when SOURCE is 0 -/
def Fld.DRC_FZ_INFO_REQ : Fld := { reg := .DRC_FZ_INFO, lo := 0, width := 4 }
/-- DRC_FZ_INFO.SYND0, bit 11:4, RO: syndrome of half 0 -/
def Fld.DRC_FZ_INFO_SYND0 : Fld := { reg := .DRC_FZ_INFO, lo := 4, width := 8 }
/-- DRC_FZ_INFO.SYND1, bit 19:12, RO: syndrome of half 1 -/
def Fld.DRC_FZ_INFO_SYND1 : Fld := { reg := .DRC_FZ_INFO, lo := 12, width := 8 }
/-- DRC_FZ_INFO.UE_COUNT, bit 23:20, RO: uncorrectable errors counted in the freeze cycle, 1 or 2 -/
def Fld.DRC_FZ_INFO_UE_COUNT : Fld := { reg := .DRC_FZ_INFO, lo := 20, width := 4 }
/-- DRC_FZ_INFO.DISCARD, bit 31:24, RO: queued writes discarded, saturating at 255 -/
def Fld.DRC_FZ_INFO_DISCARD : Fld := { reg := .DRC_FZ_INFO, lo := 24, width := 8 }
/-- DRC_FZ_CHK.CHK, bit 15:0, RO: the check bits as read -/
def Fld.DRC_FZ_CHK : Fld := { reg := .DRC_FZ_CHK, lo := 0, width := 16 }
/-- DRC_TEST_DATA.DATA, bit 31:0, RW: dword k of the word -/
def Fld.DRC_TEST_DATA : Fld := { reg := .DRC_TEST_DATA, lo := 0, width := 32 }
/-- DRC_FZ_DATA.DATA, bit 31:0, RO: the 128 bits as read -/
def Fld.DRC_FZ_DATA : Fld := { reg := .DRC_FZ_DATA, lo := 0, width := 32 }
/-- DRC_CNT_CE.N, bit 31:0, RC: corrected words -/
def Fld.DRC_CNT_CE_N : Fld := { reg := .DRC_CNT_CE, lo := 0, width := 32 }
/-- DRC_CNT_RMW.N, bit 31:0, RC: read-modify-writes -/
def Fld.DRC_CNT_RMW_N : Fld := { reg := .DRC_CNT_RMW, lo := 0, width := 32 }
/-- DRC_CNT_RH.N, bit 31:0, RC: targeted refreshes -/
def Fld.DRC_CNT_RH_N : Fld := { reg := .DRC_CNT_RH, lo := 0, width := 32 }
/-- DRC_CNT_REFFORCE.N, bit 31:0, RC: forced per-bank and all-bank refreshes -/
def Fld.DRC_CNT_REFFORCE_N : Fld := { reg := .DRC_CNT_REFFORCE, lo := 0, width := 32 }
/-- DRC_CNT_AGE.N, bit 31:0, RC: requests served under the age cap -/
def Fld.DRC_CNT_AGE_N : Fld := { reg := .DRC_CNT_AGE, lo := 0, width := 32 }
/-- DRC_CNT_SCRUB.N, bit 31:0, RC: scrub passes completed -/
def Fld.DRC_CNT_SCRUB_N : Fld := { reg := .DRC_CNT_SCRUB, lo := 0, width := 32 }
/-- FBC_CTL.EN, bit 0, RW: cache enable; 0 sends every request to the DRC uncached -/
def Fld.FBC_CTL_EN : Fld := { reg := .FBC_CTL, lo := 0, width := 1 }
/-- FBC_STAT.BUSY, bit 0, RO: invalidation or command in progress -/
def Fld.FBC_STAT_BUSY : Fld := { reg := .FBC_STAT, lo := 0, width := 1 }
/-- FBC_STAT.CMD_ERR, bit 1, W1C: FBC_CMD refused -/
def Fld.FBC_STAT_CMD_ERR : Fld := { reg := .FBC_STAT, lo := 1, width := 1 }
/-- FBC_STAT.FAULT, bit 2, RO: fault under R404 -/
def Fld.FBC_STAT_FAULT : Fld := { reg := .FBC_STAT, lo := 2, width := 1 }
/-- FBC_STAT.CE, bit 3, W1C: a corrected error -/
def Fld.FBC_STAT_CE : Fld := { reg := .FBC_STAT, lo := 3, width := 1 }
/-- FBC_ARB.AGE_CAP, bit 15:0, RW: CLK_CORE cycles; below 64 acts as 64 -/
def Fld.FBC_ARB_AGE_CAP : Fld := { reg := .FBC_ARB, lo := 0, width := 16 }
/-- FBC_LOCK.WAYS, bit 15:0, RW: locked ways; clearing a bit unlocks the way without write-back -/
def Fld.FBC_LOCK_WAYS : Fld := { reg := .FBC_LOCK, lo := 0, width := 16 }
/-- FBC_CMD.OP, bit 2:0, WO: under R405; 0 and 5–7 none -/
def Fld.FBC_CMD_OP : Fld := { reg := .FBC_CMD, lo := 0, width := 3 }
/-- FBC_CMD.WAY, bit 7:4, WO: way for PRELOAD -/
def Fld.FBC_CMD_WAY : Fld := { reg := .FBC_CMD, lo := 4, width := 4 }
/-- FBC_CMD_ADDR.ADDR, bit 31:0, RW: buffer address ÷ 64 -/
def Fld.FBC_CMD_ADDR : Fld := { reg := .FBC_CMD_ADDR, lo := 0, width := 32 }
/-- FBC_CMD_LEN.LEN, bit 31:0, RW: length in lines; 0 none -/
def Fld.FBC_CMD_LEN : Fld := { reg := .FBC_CMD_LEN, lo := 0, width := 32 }
/-- FBC_LFSR.STATE, bit 15:0, RO: LFSR of R396 -/
def Fld.FBC_LFSR_STATE : Fld := { reg := .FBC_LFSR, lo := 0, width := 16 }
/-- FBC_SEQ.THR, bit 11:0, RW: lines; 0 disables the detector -/
def Fld.FBC_SEQ_THR : Fld := { reg := .FBC_SEQ, lo := 0, width := 12 }
/-- FBC_PF.TRIG, bit 3:0, RW: consecutive reads before prefetch; 0 disables prefetch -/
def Fld.FBC_PF_TRIG : Fld := { reg := .FBC_PF, lo := 0, width := 4 }
/-- FBC_PF.DEPTH, bit 9:4, RW: lines ahead; above 32 acts as 32 -/
def Fld.FBC_PF_DEPTH : Fld := { reg := .FBC_PF, lo := 4, width := 6 }
/-- FBC_WAYMASK.MASK, bit 15:0, RW: allocation ways of requester i -/
def Fld.FBC_WAYMASK_MASK : Fld := { reg := .FBC_WAYMASK, lo := 0, width := 16 }
/-- FBC_CNT_CE.N, bit 31:0, RC: corrected errors -/
def Fld.FBC_CNT_CE_N : Fld := { reg := .FBC_CNT_CE, lo := 0, width := 32 }
/-- FBC_CNT_REFETCH.N, bit 31:0, RC: clean lines refetched under R404 -/
def Fld.FBC_CNT_REFETCH_N : Fld := { reg := .FBC_CNT_REFETCH, lo := 0, width := 32 }
/-- FBC_CNT_URGENT.N, bit 31:0, RC: requests that became urgent -/
def Fld.FBC_CNT_URGENT_N : Fld := { reg := .FBC_CNT_URGENT, lo := 0, width := 32 }
/-- FBC_CNT_WB.N, bit 31:0, RC: dirty lines written back -/
def Fld.FBC_CNT_WB_N : Fld := { reg := .FBC_CNT_WB, lo := 0, width := 32 }
/-- RJ_CTL.EN, bit 0, RW: accept submissions; a write of 0 is ignored once set -/
def Fld.RJ_CTL_EN : Fld := { reg := .RJ_CTL, lo := 0, width := 1 }
/-- RJ_STAT.SEALED, bit 0, RO: under R424; set when the RJ leaves reset while a frost hold or thaw delay is in force -/
def Fld.RJ_STAT_SEALED : Fld := { reg := .RJ_STAT, lo := 0, width := 1 }
/-- RJ_STAT.FULL, bit 1, RO: a submission waits for RJ_TAIL -/
def Fld.RJ_STAT_FULL : Fld := { reg := .RJ_STAT, lo := 1, width := 1 }
/-- RJ_STAT.BANK_OK, bit 3:2, RO: bank b not failed -/
def Fld.RJ_STAT_BANK_OK : Fld := { reg := .RJ_STAT, lo := 2, width := 2 }
/-- RJ_STAT.DEGRADED, bit 4, W1C: a bank failed -/
def Fld.RJ_STAT_DEGRADED : Fld := { reg := .RJ_STAT, lo := 4, width := 1 }
/-- RJ_STAT.FAILED, bit 5, RO: both banks failed -/
def Fld.RJ_STAT_FAILED : Fld := { reg := .RJ_STAT, lo := 5, width := 1 }
/-- RJ_STAT.SPARE, bit 6, W1C: a row was remapped -/
def Fld.RJ_STAT_SPARE : Fld := { reg := .RJ_STAT, lo := 6, width := 1 }
/-- RJ_STAT.RD_ALT, bit 7, W1C: under R420 -/
def Fld.RJ_STAT_RD_ALT : Fld := { reg := .RJ_STAT, lo := 7, width := 1 }
/-- RJ_HEAD.HEAD, bit 13:0, RW: next main slot; writable only while EN is 0 -/
def Fld.RJ_HEAD_HEAD : Fld := { reg := .RJ_HEAD, lo := 0, width := 14 }
/-- RJ_HEAD.EHEAD, bit 26:16, RW: next event slot; writable only while EN is 0 -/
def Fld.RJ_HEAD_EHEAD : Fld := { reg := .RJ_HEAD, lo := 16, width := 11 }
/-- RJ_TAIL.TAIL, bit 13:0, RW: oldest live main slot -/
def Fld.RJ_TAIL : Fld := { reg := .RJ_TAIL, lo := 0, width := 14 }
/-- RJ_SEQ_LO.SEQ, bit 31:0, RW: next SEQ[31:0]; writable only while EN is 0 -/
def Fld.RJ_SEQ_LO_SEQ : Fld := { reg := .RJ_SEQ_LO, lo := 0, width := 32 }
/-- RJ_SEQ_HI.SEQ, bit 15:0, RW: next SEQ[47:32]; writable only while EN is 0 -/
def Fld.RJ_SEQ_HI_SEQ : Fld := { reg := .RJ_SEQ_HI, lo := 0, width := 16 }
/-- RJ_SPARE.USED0, bit 9:0, RO: spare rows used, bank 0 -/
def Fld.RJ_SPARE_USED0 : Fld := { reg := .RJ_SPARE, lo := 0, width := 10 }
/-- RJ_SPARE.USED1, bit 25:16, RO: spare rows used, bank 1 -/
def Fld.RJ_SPARE_USED1 : Fld := { reg := .RJ_SPARE, lo := 16, width := 10 }
/-- RJ_LG_IDX.IDX, bit 4:0, RW: last-gasp entry shown in LG_DATA -/
def Fld.RJ_LG_IDX_IDX : Fld := { reg := .RJ_LG_IDX, lo := 0, width := 5 }
/-- RJ_LG_IDX.VALID, bit 5, RO: the entry holds an event -/
def Fld.RJ_LG_IDX_VALID : Fld := { reg := .RJ_LG_IDX, lo := 5, width := 1 }
/-- RJ_LG_DATA.DATA, bit 31:0, RO: dword k of the entry -/
def Fld.RJ_LG_DATA : Fld := { reg := .RJ_LG_DATA, lo := 0, width := 32 }
/-- RJ_CNT_REC.N, bit 31:0, RC: records made durable -/
def Fld.RJ_CNT_REC_N : Fld := { reg := .RJ_CNT_REC, lo := 0, width := 32 }
/-- RJ_CNT_TRANS.N, bit 31:0, RC: transient row failures -/
def Fld.RJ_CNT_TRANS_N : Fld := { reg := .RJ_CNT_TRANS, lo := 0, width := 32 }
/-- RJ_CNT_REMAP.N, bit 31:0, RC: rows remapped -/
def Fld.RJ_CNT_REMAP_N : Fld := { reg := .RJ_CNT_REMAP, lo := 0, width := 32 }
/-- HP_TS_CMD.CMD, bit 31:0, RW: dword k of the command -/
def Fld.HP_TS_CMD : Fld := { reg := .HP_TS_CMD, lo := 0, width := 32 }
/-- HP_TS_GO.GO, bit 0, WO: HP_TS_GO; 1 starts the command under R444 -/
def Fld.HP_TS_GO : Fld := { reg := .HP_TS_GO, lo := 0, width := 1 }
/-- HP_TS_STATE.BUSY, bit 0, RO: HP_TS_STATE; a command is in progress -/
def Fld.HP_TS_STATE_BUSY : Fld := { reg := .HP_TS_STATE, lo := 0, width := 1 }
/-- HP_TS_STATE.VALID, bit 1, RO: a reply has been posted since reset -/
def Fld.HP_TS_STATE_VALID : Fld := { reg := .HP_TS_STATE, lo := 1, width := 1 }
/-- HP_TS_STATE.IGNORED, bit 2, W1C: a write was ignored under R444 -/
def Fld.HP_TS_STATE_IGNORED : Fld := { reg := .HP_TS_STATE, lo := 2, width := 1 }
/-- HP_TS_STATE.RSEQ, bit 31:16, RO: RSEQ of the latest reply -/
def Fld.HP_TS_STATE_RSEQ : Fld := { reg := .HP_TS_STATE, lo := 16, width := 16 }
/-- HP_TS_RADDR_LO.EN, bit 0, RW: HP_TS_RADDR_LO; post replies to host memory -/
def Fld.HP_TS_RADDR_LO_EN : Fld := { reg := .HP_TS_RADDR_LO, lo := 0, width := 1 }
/-- HP_TS_RADDR_LO.ADDR, bit 31:5, RW: reply address bits 31:5 -/
def Fld.HP_TS_RADDR_LO_ADDR : Fld := { reg := .HP_TS_RADDR_LO, lo := 5, width := 27 }
/-- HP_TS_RADDR_HI.ADDR, bit 31:0, RW: HP_TS_RADDR_HI; reply address bits 63:32 -/
def Fld.HP_TS_RADDR_HI_ADDR : Fld := { reg := .HP_TS_RADDR_HI, lo := 0, width := 32 }
/-- HP_TS_NOTE.VECTOR, bit 4:0, RW: HP_TS_NOTE; MSI-X vector -/
def Fld.HP_TS_NOTE_VECTOR : Fld := { reg := .HP_TS_NOTE, lo := 0, width := 5 }
/-- HP_TS_REPLY.REPLY, bit 31:0, RO: dword k of the latest reply -/
def Fld.HP_TS_REPLY : Fld := { reg := .HP_TS_REPLY, lo := 0, width := 32 }
/-- HP_Q_CTL.EN, bit 0, RW: HP_Q_CTL; queue enable, under R449 and R452 -/
def Fld.HP_Q_CTL_EN : Fld := { reg := .HP_Q_CTL, lo := 0, width := 1 }
/-- HP_Q_CTL.DRAINING, bit 1, RO: fetched commands still running after EN was cleared -/
def Fld.HP_Q_CTL_DRAINING : Fld := { reg := .HP_Q_CTL, lo := 1, width := 1 }
/-- HP_Q_CTL.HOME, bit 2, RO: 0 head A, 1 head B -/
def Fld.HP_Q_CTL_HOME : Fld := { reg := .HP_Q_CTL, lo := 2, width := 1 }
/-- HP_Q_CTL.VECTOR, bit 12:8, RW: MSI-X vector -/
def Fld.HP_Q_CTL_VECTOR : Fld := { reg := .HP_Q_CTL, lo := 8, width := 5 }
/-- HP_Q_STAT.SQ_HEAD, bit 5:0, RO: HP_Q_STAT; next entry to fetch -/
def Fld.HP_Q_STAT_SQ_HEAD : Fld := { reg := .HP_Q_STAT, lo := 0, width := 6 }
/-- HP_Q_STAT.CQ_TAIL, bit 13:8, RO: next completion slot -/
def Fld.HP_Q_STAT_CQ_TAIL : Fld := { reg := .HP_Q_STAT, lo := 8, width := 6 }
/-- HP_Q_STAT.DB_ERR, bit 16, W1C: a doorbell was ignored under R450 -/
def Fld.HP_Q_STAT_DB_ERR : Fld := { reg := .HP_Q_STAT, lo := 16, width := 1 }
/-- HP_Q_SQB_LO.BASE, bit 31:12, RW: submission ring address bits 31:12 -/
def Fld.HP_Q_SQB_LO_BASE : Fld := { reg := .HP_Q_SQB_LO, lo := 12, width := 20 }
/-- HP_Q_SQB_HI.BASE, bit 31:0, RW: HP_Q_SQB_HI; address bits 63:32 -/
def Fld.HP_Q_SQB_HI_BASE : Fld := { reg := .HP_Q_SQB_HI, lo := 0, width := 32 }
/-- HP_Q_CQB_LO.BASE, bit 31:12, RW: completion ring address bits 31:12 -/
def Fld.HP_Q_CQB_LO_BASE : Fld := { reg := .HP_Q_CQB_LO, lo := 12, width := 20 }
/-- HP_Q_CQB_HI.BASE, bit 31:0, RW: HP_Q_CQB_HI; address bits 63:32 -/
def Fld.HP_Q_CQB_HI_BASE : Fld := { reg := .HP_Q_CQB_HI, lo := 0, width := 32 }
/-- HP_Q_SQ_TAIL.TAIL, bit 5:0, WO: HP_Q_SQ_TAIL; the doorbell -/
def Fld.HP_Q_SQ_TAIL : Fld := { reg := .HP_Q_SQ_TAIL, lo := 0, width := 6 }
/-- HP_Q_RSEQ.NEXT, bit 15:0, RO: HP_Q_RSEQ; RSEQ of the next reply -/
def Fld.HP_Q_RSEQ_NEXT : Fld := { reg := .HP_Q_RSEQ, lo := 0, width := 16 }
/-- HP_UNIT_ID.MODE, bit 3:0, RO: HP_UNIT_ID; 1 DORMANT, 2 PARKED, 3 SPINNING, 4 READ, 5 RECORD, 6 SERVICE, 7 FROZEN -/
def Fld.HP_UNIT_ID_MODE : Fld := { reg := .HP_UNIT_ID, lo := 0, width := 4 }
/-- HP_UNIT_ID.ADDR, bit 9:4, RO: chain address -/
def Fld.HP_UNIT_ID_ADDR : Fld := { reg := .HP_UNIT_ID, lo := 4, width := 6 }
/-- HP_UNIT_ID.ROLE, bit 11:10, RO: 0 member, 1 head A, 2 head B -/
def Fld.HP_UNIT_ID_ROLE : Fld := { reg := .HP_UNIT_ID, lo := 10, width := 2 }
/-- HP_UNIT_ID.OPUS, bit 13:12, RO: 0 P1, 1 P2, 2 P4 -/
def Fld.HP_UNIT_ID_OPUS : Fld := { reg := .HP_UNIT_ID, lo := 12, width := 2 }
/-- HP_UNIT_ID.HEAD_CAP, bit 14, RO: 1 on H variants -/
def Fld.HP_UNIT_ID_HEAD_CAP : Fld := { reg := .HP_UNIT_ID, lo := 14, width := 1 }
/-- HP_UNIT_ID.GRADE_X, bit 15, RO: 1 on X grade -/
def Fld.HP_UNIT_ID_GRADE_X : Fld := { reg := .HP_UNIT_ID, lo := 15, width := 1 }
/-- HP_UNIT_ID.FW, bit 23:16, RO: firmware release, 0x31 for F3.1 -/
def Fld.HP_UNIT_ID_FW : Fld := { reg := .HP_UNIT_ID, lo := 16, width := 8 }
/-- HP_UNIT_ID.SIG, bit 31:24, RO: signature; 0xFF means no answer, under R438 -/
def Fld.HP_UNIT_ID_SIG : Fld := { reg := .HP_UNIT_ID, lo := 24, width := 8 }
/-- HP_UNIT_ATTN.ATTN, bit 3:0, RO: HP_UNIT_ATTN; as in replies -/
def Fld.HP_UNIT_ATTN_ATTN : Fld := { reg := .HP_UNIT_ATTN, lo := 0, width := 4 }
/-- HP_UNIT_ATTN.ASEQ, bit 7:4, RO: under R443 -/
def Fld.HP_UNIT_ATTN_ASEQ : Fld := { reg := .HP_UNIT_ATTN, lo := 4, width := 4 }
/-- HP_UNIT_ATTN.PEND, bit 23:16, RO: bit c - 1 set: code c pending, for c from 1 to 8 -/
def Fld.HP_UNIT_ATTN_PEND : Fld := { reg := .HP_UNIT_ATTN, lo := 16, width := 8 }
/-- HP_HC_ID.ADDR, bit 5:0, RO: HP_HC_ID; the head's own chain address -/
def Fld.HP_HC_ID_ADDR : Fld := { reg := .HP_HC_ID, lo := 0, width := 6 }
/-- HP_HC_ID.ROLE, bit 7:6, RO: 1 head A, 2 head B -/
def Fld.HP_HC_ID_ROLE : Fld := { reg := .HP_HC_ID, lo := 6, width := 2 }
/-- HP_HC_ID.UNITS, bit 14:8, RO: units assigned at the last count-off, 1 to 64 -/
def Fld.HP_HC_ID_UNITS : Fld := { reg := .HP_HC_ID, lo := 8, width := 7 }
/-- HP_HC_STAT.UNREACH, bit 0, W1C: HP_HC_STAT; a write was discarded under R436 -/
def Fld.HP_HC_STAT_UNREACH : Fld := { reg := .HP_HC_STAT, lo := 0, width := 1 }
/-- HP_HC_STAT.RD_ALLONES, bit 1, W1C: a read was answered with 0xFF bytes under R437 -/
def Fld.HP_HC_STAT_RD_ALLONES : Fld := { reg := .HP_HC_STAT, lo := 1, width := 1 }
/-- HP_HC_STAT.DMA_ERR, bit 2, W1C: under R459 -/
def Fld.HP_HC_STAT_DMA_ERR : Fld := { reg := .HP_HC_STAT, lo := 2, width := 1 }
/-- HP_HC_STAT.ABANDON, bit 3, W1C: a reply was discarded under R461 -/
def Fld.HP_HC_STAT_ABANDON : Fld := { reg := .HP_HC_STAT, lo := 3, width := 1 }
/-- HP_MSIX.D, bit 31:0, RW: MSI-X table entry dword -/
def Fld.HP_MSIX_D : Fld := { reg := .HP_MSIX, lo := 0, width := 32 }
/-- HP_PBA.PEND, bit 31:0, RO: pending bits -/
def Fld.HP_PBA_PEND : Fld := { reg := .HP_PBA, lo := 0, width := 32 }
/-- HP_HC_CNT_DROP.N, bit 31:0, RC: member writes discarded as unreachable -/
def Fld.HP_HC_CNT_DROP_N : Fld := { reg := .HP_HC_CNT_DROP, lo := 0, width := 32 }
/-- HP_HC_CNT_RDTMO.N, bit 31:0, RC: member reads answered with 0xFF bytes -/
def Fld.HP_HC_CNT_RDTMO_N : Fld := { reg := .HP_HC_CNT_RDTMO, lo := 0, width := 32 }
/-- HP_HC_CNT_DMAERR.N, bit 31:0, RC: commands failed under R459 -/
def Fld.HP_HC_CNT_DMAERR_N : Fld := { reg := .HP_HC_CNT_DMAERR, lo := 0, width := 32 }
/-- HP_HC_CNT_ABANDON.N, bit 31:0, RC: replies discarded under R461 -/
def Fld.HP_HC_CNT_ABANDON_N : Fld := { reg := .HP_HC_CNT_ABANDON, lo := 0, width := 32 }
/-- QL_CTL.EN, bit 0, RW: both ports train and forward -/
def Fld.QL_CTL_EN : Fld := { reg := .QL_CTL, lo := 0, width := 1 }
/-- QL_CTL.AUTO, bit 1, RW: automatic count-off, under R532 -/
def Fld.QL_CTL_AUTO : Fld := { reg := .QL_CTL, lo := 1, width := 1 }
/-- QL_STAT.ADDR_VALID, bit 0, RO: the unit holds an address -/
def Fld.QL_STAT_ADDR_VALID : Fld := { reg := .QL_STAT, lo := 0, width := 1 }
/-- QL_STAT.TOPO, bit 1, W1C: a port changed state or a map was adopted -/
def Fld.QL_STAT_TOPO : Fld := { reg := .QL_STAT, lo := 1, width := 1 }
/-- QL_STAT.NOROUTE, bit 2, W1C: under R529 -/
def Fld.QL_STAT_NOROUTE : Fld := { reg := .QL_STAT, lo := 2, width := 1 }
/-- QL_STAT.OVERFLOW, bit 3, W1C: under R533 -/
def Fld.QL_STAT_OVERFLOW : Fld := { reg := .QL_STAT, lo := 3, width := 1 }
/-- QL_STAT.TOKEN_LOST, bit 4, W1C: under R539 -/
def Fld.QL_STAT_TOKEN_LOST : Fld := { reg := .QL_STAT, lo := 4, width := 1 }
/-- QL_STAT.HOLD, bit 5, RO: acceptance held by a chain-wide operation -/
def Fld.QL_STAT_HOLD : Fld := { reg := .QL_STAT, lo := 5, width := 1 }
/-- QL_STAT.OP, bit 7:6, RO: operation engaged: 0 none, 1 count-off, 2 barrier, 3 snapshot -/
def Fld.QL_STAT_OP : Fld := { reg := .QL_STAT, lo := 6, width := 2 }
/-- QL_ID.ADDR, bit 5:0, RO: chain address -/
def Fld.QL_ID_ADDR : Fld := { reg := .QL_ID, lo := 0, width := 6 }
/-- QL_ID.ROLE, bit 7:6, RO: 0 member, 1 head A, 2 head B -/
def Fld.QL_ID_ROLE : Fld := { reg := .QL_ID, lo := 6, width := 2 }
/-- QL_ID.UNITS, bit 14:8, RO: N at the last count-off -/
def Fld.QL_ID_UNITS : Fld := { reg := .QL_ID, lo := 8, width := 7 }
/-- QL_EPOCH.EPOCH, bit 31:0, RO: role epoch, under R536 -/
def Fld.QL_EPOCH : Fld := { reg := .QL_EPOCH, lo := 0, width := 32 }
/-- QL_QUOTA.Q, bit 11:0, RW: frames per token visit; 0 acts as 1 -/
def Fld.QL_QUOTA_Q : Fld := { reg := .QL_QUOTA, lo := 0, width := 12 }
/-- QL_TIME_LO.TIME, bit 31:0, RO: Quire time [31:0]; a read latches TIME_HI -/
def Fld.QL_TIME_LO_TIME : Fld := { reg := .QL_TIME_LO, lo := 0, width := 32 }
/-- QL_TIME_HI.TIME, bit 31:0, RO: Quire time [63:32] -/
def Fld.QL_TIME_HI_TIME : Fld := { reg := .QL_TIME_HI, lo := 0, width := 32 }
/-- QL_PSTAT.STATE, bit 2:0, RO: 0 down, 1 training, 2 active, 3 asleep, 4 retraining -/
def Fld.QL_PSTAT_STATE : Fld := { reg := .QL_PSTAT, lo := 0, width := 3 }
/-- QL_PSTAT.NARROW, bit 3, RO: running at ×2 -/
def Fld.QL_PSTAT_NARROW : Fld := { reg := .QL_PSTAT, lo := 3, width := 1 }
/-- QL_PSTAT.MISWIRE, bit 4, W1C: under R524 -/
def Fld.QL_PSTAT_MISWIRE : Fld := { reg := .QL_PSTAT, lo := 4, width := 1 }
/-- QL_PSTAT.REVERSED, bit 5, RO: lanes reversed -/
def Fld.QL_PSTAT_REVERSED : Fld := { reg := .QL_PSTAT, lo := 5, width := 1 }
/-- QL_PDELAY.DELAY, bit 15:0, RO: one-way link delay, ns, under R544 -/
def Fld.QL_PDELAY_DELAY : Fld := { reg := .QL_PDELAY, lo := 0, width := 16 }
/-- QL_PCTL.DISABLE, bit 0, RW: port held down; breaks the ring here -/
def Fld.QL_PCTL_DISABLE : Fld := { reg := .QL_PCTL, lo := 0, width := 1 }
/-- QL_PCTL.RETRAIN, bit 1, WO: retrain now -/
def Fld.QL_PCTL_RETRAIN : Fld := { reg := .QL_PCTL, lo := 1, width := 1 }
/-- QL_CNT_CRC.N, bit 31:0, RC: frames received with a CRC or sequence error -/
def Fld.QL_CNT_CRC_N : Fld := { reg := .QL_CNT_CRC, lo := 0, width := 32 }
/-- QL_CNT_REPLAY.N, bit 31:0, RC: transient failures, under R528 -/
def Fld.QL_CNT_REPLAY_N : Fld := { reg := .QL_CNT_REPLAY, lo := 0, width := 32 }
/-- QL_CNT_RETRAIN.N, bit 31:0, RC: retrains -/
def Fld.QL_CNT_RETRAIN_N : Fld := { reg := .QL_CNT_RETRAIN, lo := 0, width := 32 }
/-- QL_CNT_DOWN.N, bit 31:0, RC: transitions to down -/
def Fld.QL_CNT_DOWN_N : Fld := { reg := .QL_CNT_DOWN, lo := 0, width := 32 }
/-- QL_CNT_NULL.N, bit 31:0, RC: nullified frames received -/
def Fld.QL_CNT_NULL_N : Fld := { reg := .QL_CNT_NULL, lo := 0, width := 32 }
/-- QL_CNT_DUP.N, bit 31:0, RC: duplicate messages discarded, under R530 -/
def Fld.QL_CNT_DUP_N : Fld := { reg := .QL_CNT_DUP, lo := 0, width := 32 }
/-- QL_CNT_ASLEEP.N, bit 31:0, RC: ASLEEP answers sent, under R541 -/
def Fld.QL_CNT_ASLEEP_N : Fld := { reg := .QL_CNT_ASLEEP, lo := 0, width := 32 }
/-- QL_CNT_STALE.N, bit 31:0, RC: role-stale answers sent, under R537 -/
def Fld.QL_CNT_STALE_N : Fld := { reg := .QL_CNT_STALE, lo := 0, width := 32 }
/-- PXE_CTL.EN, bit 0, RW: engine enable -/
def Fld.PXE_CTL_EN : Fld := { reg := .PXE_CTL, lo := 0, width := 1 }
/-- PXE_STAT.FAULT, bit 0, RO: fault under R561 -/
def Fld.PXE_STAT_FAULT : Fld := { reg := .PXE_STAT, lo := 0, width := 1 }
/-- PXE_STAT.ACC_USED, bit 11:6, RO: accumulators in use, 0 to 32 -/
def Fld.PXE_STAT_ACC_USED : Fld := { reg := .PXE_STAT, lo := 6, width := 6 }
/-- PXE_STAT.ACC_RB, bit 16:12, RO: accumulators held by rebuilds, 0 to 16 -/
def Fld.PXE_STAT_ACC_RB : Fld := { reg := .PXE_STAT, lo := 12, width := 5 }
/-- FIX_CTL.EN, bit 0, RW: engine enable -/
def Fld.FIX_CTL_EN : Fld := { reg := .FIX_CTL, lo := 0, width := 1 }
/-- FIX_STAT.FAULT, bit 0, RO: fault under R578 -/
def Fld.FIX_STAT_FAULT : Fld := { reg := .FIX_STAT, lo := 0, width := 1 }
/-- FIX_STAT.BUSY, bit 1, RO: a sheet is being hashed -/
def Fld.FIX_STAT_BUSY : Fld := { reg := .FIX_STAT, lo := 1, width := 1 }
/-- PXE_CNT_SHEET.N, bit 31:0, RC: sheets added into accumulators -/
def Fld.PXE_CNT_SHEET_N : Fld := { reg := .PXE_CNT_SHEET, lo := 0, width := 32 }
/-- PXE_CNT_STRIPE.N, bit 31:0, RC: stripe operations completed -/
def Fld.PXE_CNT_STRIPE_N : Fld := { reg := .PXE_CNT_STRIPE, lo := 0, width := 32 }
/-- PXE_CNT_REBUILT.N, bit 31:0, RC: sheets rebuilt -/
def Fld.PXE_CNT_REBUILT_N : Fld := { reg := .PXE_CNT_REBUILT, lo := 0, width := 32 }
/-- FIX_CNT_SHEET.N, bit 31:0, RC: sheets hashed -/
def Fld.FIX_CNT_SHEET_N : Fld := { reg := .FIX_CNT_SHEET, lo := 0, width := 32 }
/-- FIX_CNT_MISMATCH.N, bit 31:0, RC: sheets reported STATUS 2 -/
def Fld.FIX_CNT_MISMATCH_N : Fld := { reg := .FIX_CNT_MISMATCH, lo := 0, width := 32 }
/-- PMU_STAT.MODE, bit 2:0, RO: mode code of Table 19-1 -/
def Fld.PMU_STAT_MODE : Fld := { reg := .PMU_STAT, lo := 0, width := 3 }
/-- PMU_STAT.FROST, bit 3, RO: frost hold in force, under R598 -/
def Fld.PMU_STAT_FROST : Fld := { reg := .PMU_STAT, lo := 3, width := 1 }
/-- PMU_STAT.THAWING, bit 4, RO: thaw timer running -/
def Fld.PMU_STAT_THAWING : Fld := { reg := .PMU_STAT, lo := 4, width := 1 }
/-- PMU_STAT.ISL, bit 12:5, RO: island on: [5] LINK, [6] HOST, [7] CORE, [8] DPHY, [9] JRNL, [12:10] reserved -/
def Fld.PMU_STAT_ISL : Fld := { reg := .PMU_STAT, lo := 5, width := 8 }
/-- PMU_STAT.OPU_ON, bit 16:13, RO: OPU island on, bit per OPU -/
def Fld.PMU_STAT_OPU_ON : Fld := { reg := .PMU_STAT, lo := 13, width := 4 }
/-- PMU_STAT.CORE_TRIP, bit 17, W1C: an event came from the VDD_CORE monitor -/
def Fld.PMU_STAT_CORE_TRIP : Fld := { reg := .PMU_STAT, lo := 17, width := 1 }
/-- PMU_STAT.VIO_TRIP, bit 23:18, W1C: an event came from VIO_A–VIO_F -/
def Fld.PMU_STAT_VIO_TRIP : Fld := { reg := .PMU_STAT, lo := 18, width := 6 }
/-- PMU_STAT.SYS_TRIP, bit 24, W1C: an event came from VSENSE_SYS -/
def Fld.PMU_STAT_SYS_TRIP : Fld := { reg := .PMU_STAT, lo := 24, width := 1 }
/-- PMU_FL.NOM, bit 15:0, RW: nominal VSENSE_SYS at the ball, mV; limited to 500–1,800 -/
def Fld.PMU_FL_NOM : Fld := { reg := .PMU_FL, lo := 0, width := 16 }
/-- PMU_FL.PCT, bit 23:16, RW: trip level, %; limited to 85–95 -/
def Fld.PMU_FL_PCT : Fld := { reg := .PMU_FL, lo := 16, width := 8 }
/-- PMU_FL.HYST, bit 26:24, RW: hysteresis, %; limited to 1–5 -/
def Fld.PMU_FL_HYST : Fld := { reg := .PMU_FL, lo := 24, width := 3 }
/-- PMU_THAW.MS, bit 13:0, RW: thaw delay, ms; limited to 10–10,000 -/
def Fld.PMU_THAW_MS : Fld := { reg := .PMU_THAW, lo := 0, width := 14 }
/-- PMU_VIO.LEVEL, bit 17:0, RW: bits 3b + 2:3b for bank b (A = 0): 0 unused, 1 1.8 V, 2 2.5 V, 3 3.0 V, 4 3.3 V; 5–7 act as 0 -/
def Fld.PMU_VIO_LEVEL : Fld := { reg := .PMU_VIO, lo := 0, width := 18 }
/-- PMU_WAKE.CAUSE, bit 2:0, RO: latest wake: 0 none, 1 chain message, 2 window access, 3 L1 exit, 4 asleep port, 5 RESET_N -/
def Fld.PMU_WAKE_CAUSE : Fld := { reg := .PMU_WAKE, lo := 0, width := 3 }
/-- PMU_CNT_FROST.N, bit 31:0, RC: frost line events and crossings under R601 -/
def Fld.PMU_CNT_FROST_N : Fld := { reg := .PMU_CNT_FROST, lo := 0, width := 32 }
/-- PMU_CNT_THAW.N, bit 31:0, RC: thaws completed -/
def Fld.PMU_CNT_THAW_N : Fld := { reg := .PMU_CNT_THAW, lo := 0, width := 32 }
/-- PMU_CNT_THAWRST.N, bit 31:0, RC: thaw timer resets -/
def Fld.PMU_CNT_THAWRST_N : Fld := { reg := .PMU_CNT_THAWRST, lo := 0, width := 32 }
/-- PMU_CNT_WAKE.N, bit 31:0, RC: wakes from DORMANT -/
def Fld.PMU_CNT_WAKE_N : Fld := { reg := .PMU_CNT_WAKE, lo := 0, width := 32 }
/-- CLK_STAT.LOCKED, bit 0, RO: root PLL locked -/
def Fld.CLK_STAT_LOCKED : Fld := { reg := .CLK_STAT, lo := 0, width := 1 }
/-- CLK_STAT.XTAL_OK, bit 1, RO: crystal edges present -/
def Fld.CLK_STAT_XTAL_OK : Fld := { reg := .CLK_STAT, lo := 1, width := 1 }
/-- CLK_STAT.XTAL_FAIL, bit 2, W1C: crystal failure, under R610 -/
def Fld.CLK_STAT_XTAL_FAIL : Fld := { reg := .CLK_STAT, lo := 2, width := 1 }
/-- CLK_STAT.UNLOCK, bit 3, W1C: PLL out of lock, under R610 -/
def Fld.CLK_STAT_UNLOCK : Fld := { reg := .CLK_STAT, lo := 3, width := 1 }
/-- CLK_RST.CAUSE, bit 3:0, RO: latest wider reset: 0 power-on, 1 RESET_N, 2 chain reset, 3 watchdog, 4 PLL, 5 crystal -/
def Fld.CLK_RST_CAUSE : Fld := { reg := .CLK_RST, lo := 0, width := 4 }
/-- CLK_RST.FWCAUSE, bit 7:4, RO: latest firmware restart: 0 none, 1 FIRMWARE COMMIT, 2 watchdog -/
def Fld.CLK_RST_FWCAUSE : Fld := { reg := .CLK_RST, lo := 4, width := 4 }
/-- CLK_BOOT.STAGE, bit 3:0, RO: Table 20-7 -/
def Fld.CLK_BOOT_STAGE : Fld := { reg := .CLK_BOOT, lo := 0, width := 4 }
/-- CLK_BOOT.FAIL, bit 7:4, RO: Table 20-7; 0 none -/
def Fld.CLK_BOOT_FAIL : Fld := { reg := .CLK_BOOT, lo := 4, width := 4 }
/-- CLK_BOOT.SLOT, bit 8, RO: slot booted -/
def Fld.CLK_BOOT_SLOT : Fld := { reg := .CLK_BOOT, lo := 8, width := 1 }
/-- CLK_BOOT.FALLBACK, bit 9, RO: under R626 -/
def Fld.CLK_BOOT_FALLBACK : Fld := { reg := .CLK_BOOT, lo := 9, width := 1 }
/-- CLK_BOOT.MS, bit 31:16, RO: t0 to t9 in ms, saturating -/
def Fld.CLK_BOOT_MS : Fld := { reg := .CLK_BOOT, lo := 16, width := 16 }
/-- CLK_WDT.PERIOD, bit 10:0, RW: watchdog period, ms; below 100 acts as 100 -/
def Fld.CLK_WDT_PERIOD : Fld := { reg := .CLK_WDT, lo := 0, width := 11 }
/-- CLK_WDT.EN, bit 16, RW: watchdog enable -/
def Fld.CLK_WDT_EN : Fld := { reg := .CLK_WDT, lo := 16, width := 1 }
/-- CLK_HB.BEAT, bit 3:0, WO: bit d: heartbeat of DPd -/
def Fld.CLK_HB_BEAT : Fld := { reg := .CLK_HB, lo := 0, width := 4 }
/-- CLK_CNT_UNITRST.N, bit 31:0, RC: unit resets, any source -/
def Fld.CLK_CNT_UNITRST_N : Fld := { reg := .CLK_CNT_UNITRST, lo := 0, width := 32 }
/-- CLK_CNT_FWRST.N, bit 31:0, RC: firmware restarts -/
def Fld.CLK_CNT_FWRST_N : Fld := { reg := .CLK_CNT_FWRST, lo := 0, width := 32 }
/-- CLK_CNT_UNLOCK.N, bit 31:0, RC: PLL loss-of-lock events -/
def Fld.CLK_CNT_UNLOCK_N : Fld := { reg := .CLK_CNT_UNLOCK, lo := 0, width := 32 }
/-- FUSE_STAT.LOADED, bit 0, RO: shadow loaded at t0 -/
def Fld.FUSE_STAT_LOADED : Fld := { reg := .FUSE_STAT, lo := 0, width := 1 }
/-- FUSE_STAT.OPEN_LOCK, bit 1, RO: lock in force, under R635 -/
def Fld.FUSE_STAT_OPEN_LOCK : Fld := { reg := .FUSE_STAT, lo := 1, width := 1 }
/-- FUSE_STAT.DEBUG_LOCK, bit 2, RO: lock in force -/
def Fld.FUSE_STAT_DEBUG_LOCK : Fld := { reg := .FUSE_STAT, lo := 2, width := 1 }
/-- FUSE_STAT.ROOT_OK, bit 3, RO: ROOT_CRC holds and ROOT_HASH non-zero -/
def Fld.FUSE_STAT_ROOT_OK : Fld := { reg := .FUSE_STAT, lo := 3, width := 1 }
/-- FUSE_STAT.BUSY, bit 4, RO: ARB advance in progress, under R641 -/
def Fld.FUSE_STAT_BUSY : Fld := { reg := .FUSE_STAT, lo := 4, width := 1 }
/-- FUSE_STAT.PROG_ERR, bit 5, W1C: a blow was refused or failed its read-back -/
def Fld.FUSE_STAT_PROG_ERR : Fld := { reg := .FUSE_STAT, lo := 5, width := 1 }
/-- FUSE_STAT.PATCHED, bit 6, RO: under R644 and R645; cleared by unit reset -/
def Fld.FUSE_STAT_PATCHED : Fld := { reg := .FUSE_STAT, lo := 6, width := 1 }
/-- FUSE_ARB.VALUE, bit 6:0, RO: anti-rollback value, 0–64 -/
def Fld.FUSE_ARB_VALUE : Fld := { reg := .FUSE_ARB, lo := 0, width := 7 }
/-- FUSE_ARB_SET.TARGET, bit 6:0, WO: value to reach, under R641; above 64 acts as 64 -/
def Fld.FUSE_ARB_SET_TARGET : Fld := { reg := .FUSE_ARB_SET, lo := 0, width := 7 }
/-- FUSE_SHADOW.BITS, bit 31:0, RO: fuse bits 32i + 31 to 32i, i 0–127 -/
def Fld.FUSE_SHADOW_BITS : Fld := { reg := .FUSE_SHADOW, lo := 0, width := 32 }

/-! The registers of each window, in the order of its table. -/

/-- The registers of the RCS window (R109). -/
def regsOfRcs : List Reg :=
  [.RCS_ID, .RCS_CTL, .RCS_AFE, .RCS_TRIM, .RCS_AGC, .RCS_TR, .RCS_NCO, .RCS_NCO_PRESET, .RCS_TGT, .RCS_EQ_CTL, .RCS_SYNC, .RCS_CAP, .RCS_STAT, .RCS_SERVO_T, .RCS_SERVO_W, .RCS_BURST_AB, .RCS_BURST_CD, .RCS_EQA_S, .RCS_EQB_S, .RCS_EQA_L, .RCS_EQB_L, .RCS_FMT, .RCS_BAND_BASE, .RCS_BAND_RES, .RCS_CNT_LEAF, .RCS_CNT_SYNC_MISS, .RCS_CNT_OVR, .RCS_CNT_OVR_SMP, .RCS_CNT_TLOSS, .RCS_CNT_SERVO_ERR, .RCS_CNT_SLIP, .RCS_CNT_BLANK]
/-- The registers of the SDE window (R151). -/
def regsOfSde : List Reg :=
  [.SDE_CTL, .SDE_SCHED, .SDE_LIMIT, .SDE_BUCKET, .SDE_STAT, .SDE_RING, .SDE_CTX_BASE, .SDE_CTX_CMD, .SDE_LRES_BASE, .SDE_LRES_PI, .SDE_LRES_CI, .SDE_SRES_BASE, .SDE_SRES_PI, .SDE_SRES_CI, .SDE_OUTER, .SDE_TEST, .SDE_TEST_POS, .SDE_DET_CTL, .SDE_DET_LLR, .SDE_CNT_LEAF, .SDE_CNT_EXT, .SDE_CNT_NOCONV, .SDE_CNT_CRC, .SDE_CNT_META, .SDE_CNT_PRE, .SDE_CNT_DROP, .SDE_CNT_ORPHAN, .SDE_CNT_OUTER, .SDE_CNT_CYC3]
/-- The registers of the WSG window (R196). -/
def regsOfWsg : List Reg :=
  [.WSG_CTL, .WSG_STAT, .WSG_EJOB_BASE, .WSG_EJOB_PI, .WSG_EJOB_CI, .WSG_OCTL, .WSG_OSTAT, .WSG_PLAN, .WSG_LDC_CMD, .WSG_LDC_RSP, .WSG_LEAD, .WSG_STRAT, .WSG_CNT_LEAF, .WSG_CNT_INT, .WSG_CNT_LDC_ERR, .WSG_CNT_GATE]
/-- The registers of the CLE window (R237). -/
def regsOfCle : List Reg :=
  [.CLE_CTL, .CLE_STAT, .CLE_TCNT, .CLE_GO, .CLE_EVT, .CLE_IOREL, .CLE_TRACE_BASE, .CLE_TRACE_ST, .CLE_CS_ADDR, .CLE_DM_ADDR, .CLE_ECC, .CLE_CS_DATA, .CLE_DM_DATA, .CLE_FAULT, .CLE_MBOX, .SLOT_CFG, .SLOT_PER, .SLOT_PHASE, .SLOT_ENTRY, .SLOT_BANK, .SLOT_CTL, .SLOT_STAT, .SLOT_CNT]
/-- The registers of the SPN window (R304). -/
def regsOfSpn : List Reg :=
  [.SPN_CTL, .SPN_CMD, .SPN_STAT, .SPN_SPEED, .SPN_DT, .SPN_ALIGN, .SPN_RAMP, .SPN_COUCH, .SPN_LIMIT, .SPN_OVSP, .SPN_SCALE, .SPN_MBOX, .SPN_CNT_OC, .SPN_CNT_MISS, .SPN_CNT_START, .SPN_CNT_STARTFAIL]
/-- The registers of the SLD window (R333). -/
def regsOfSld : List Reg :=
  [.SLD_CTL, .SLD_CMD, .SLD_STAT, .SLD_POS, .SLD_TGT, .SLD_PROF, .SLD_CUR, .SLD_MODE, .SLD_HOME, .SLD_HOME2, .SLD_LIM_MIN, .SLD_LIM_MAX, .SLD_SENSE, .SLD_IDLE, .SLD_CL_CTL, .SLD_CL_CMD, .SLD_CL_STAT, .SLD_CL_TIME, .SLD_CNT_MOVE, .SLD_CNT_HOME, .SLD_CNT_HOMEFAIL, .SLD_CNT_OC]
/-- The registers of the CAL window (R355). -/
def regsOfCal : List Reg :=
  [.CAL_CTL, .CAL_STAT, .CAL_TRIG, .CAL_PEND, .CAL_RUN, .CAL_TMO, .CAL_EXT, .CAL_FAILMAP, .CAL_JUMP0, .CAL_JUMP1, .CAL_RES, .CAL_RTRIM, .CAL_FTRIM, .CAL_SPD_OFS, .CAL_SPD_BAL, .CAL_ACT_OFS, .CAL_CNT_STEP, .CAL_CNT_FAIL, .CAL_CNT_MERGE, .CAL_CNT_DEFER]
/-- The registers of the DRC window (R385). -/
def regsOfDrc : List Reg :=
  [.DRC_CTL, .DRC_STAT, .DRC_CFG, .DRC_SCHED, .DRC_REF, .DRC_RH, .DRC_SCRUB, .DRC_SCRUB_POS, .DRC_CE_ADDR, .DRC_CE_INFO, .DRC_PWR, .DRC_TRN, .DRC_TEST_CTL, .DRC_TEST_ADDR, .DRC_TEST_CHK, .DRC_FZ_ADDR, .DRC_FZ_LOC, .DRC_FZ_INFO, .DRC_FZ_CHK, .DRC_TEST_DATA, .DRC_FZ_DATA, .DRC_CNT_CE, .DRC_CNT_RMW, .DRC_CNT_RH, .DRC_CNT_REFFORCE, .DRC_CNT_AGE, .DRC_CNT_SCRUB]
/-- The registers of the FBC window (R408). -/
def regsOfFbc : List Reg :=
  [.FBC_CTL, .FBC_STAT, .FBC_ARB, .FBC_LOCK, .FBC_CMD, .FBC_CMD_ADDR, .FBC_CMD_LEN, .FBC_LFSR, .FBC_SEQ, .FBC_PF, .FBC_WAYMASK, .FBC_CNT_CE, .FBC_CNT_REFETCH, .FBC_CNT_URGENT, .FBC_CNT_WB]
/-- The registers of the RJ window (R428). -/
def regsOfRj : List Reg :=
  [.RJ_CTL, .RJ_STAT, .RJ_HEAD, .RJ_TAIL, .RJ_SEQ_LO, .RJ_SEQ_HI, .RJ_SPARE, .RJ_LG_IDX, .RJ_LG_DATA, .RJ_CNT_REC, .RJ_CNT_TRANS, .RJ_CNT_REMAP]
/-- The registers of the HP window (R462). -/
def regsOfHp : List Reg :=
  [.HP_TS_CMD, .HP_TS_GO, .HP_TS_STATE, .HP_TS_RADDR_LO, .HP_TS_RADDR_HI, .HP_TS_NOTE, .HP_TS_REPLY, .HP_Q_CTL, .HP_Q_STAT, .HP_Q_SQB_LO, .HP_Q_SQB_HI, .HP_Q_CQB_LO, .HP_Q_CQB_HI, .HP_Q_SQ_TAIL, .HP_Q_RSEQ, .HP_UNIT_ID, .HP_UNIT_ATTN]
/-- The registers of the HC window (R465). -/
def regsOfHc : List Reg :=
  [.HP_HC_ID, .HP_HC_STAT, .HP_MSIX, .HP_PBA, .HP_HC_CNT_DROP, .HP_HC_CNT_RDTMO, .HP_HC_CNT_DMAERR, .HP_HC_CNT_ABANDON]
/-- The registers of the QL window (R551). -/
def regsOfQl : List Reg :=
  [.QL_CTL, .QL_STAT, .QL_ID, .QL_EPOCH, .QL_QUOTA, .QL_TIME_LO, .QL_TIME_HI, .QL_PSTAT, .QL_PDELAY, .QL_PCTL, .QL_CNT_CRC, .QL_CNT_REPLAY, .QL_CNT_RETRAIN, .QL_CNT_DOWN, .QL_CNT_NULL, .QL_CNT_DUP, .QL_CNT_ASLEEP, .QL_CNT_STALE]
/-- The registers of the PXE window (R581). -/
def regsOfPxe : List Reg :=
  [.PXE_CTL, .PXE_STAT, .FIX_CTL, .FIX_STAT, .PXE_CNT_SHEET, .PXE_CNT_STRIPE, .PXE_CNT_REBUILT, .FIX_CNT_SHEET, .FIX_CNT_MISMATCH]
/-- The registers of the PMU window (R604). -/
def regsOfPmu : List Reg :=
  [.PMU_STAT, .PMU_FL, .PMU_THAW, .PMU_VIO, .PMU_WAKE, .PMU_CNT_FROST, .PMU_CNT_THAW, .PMU_CNT_THAWRST, .PMU_CNT_WAKE]
/-- The registers of the CLK window (R631). -/
def regsOfClk : List Reg :=
  [.CLK_STAT, .CLK_RST, .CLK_BOOT, .CLK_WDT, .CLK_HB, .CLK_CNT_UNITRST, .CLK_CNT_FWRST, .CLK_CNT_UNLOCK]
/-- The registers of the FUSE window (R646). -/
def regsOfFuse : List Reg :=
  [.FUSE_STAT, .FUSE_ARB, .FUSE_ARB_SET, .FUSE_SHADOW]

/-- The registers of a window. -/
def Block.regs : Block → List Reg
  | .rcs => regsOfRcs
  | .sde => regsOfSde
  | .wsg => regsOfWsg
  | .cle => regsOfCle
  | .spn => regsOfSpn
  | .sld => regsOfSld
  | .cal => regsOfCal
  | .drc => regsOfDrc
  | .fbc => regsOfFbc
  | .rj => regsOfRj
  | .hp => regsOfHp
  | .hc => regsOfHc
  | .ql => regsOfQl
  | .pxe => regsOfPxe
  | .pmu => regsOfPmu
  | .clk => regsOfClk
  | .fuse => regsOfFuse

/-- The key of register (i, j) in the register store: its window, then its offset. -/
def Reg.key (r : Reg) (i j : Nat) : Nat := r.blk.code * 0x100000 + r.off + i * r.s1 + j * r.s2

/-- The indices at which a register lies at an offset of its window, if it does. -/
def Reg.indexAt (r : Reg) (off : Nat) : Option (Nat × Nat) :=
  if off < r.off then none
  else
    let d := off - r.off
    let i := if r.n1 = 1 then 0 else limitN 0 (r.n1 - 1) (d / r.s1)
    let e := d - i * r.s1
    let j := if r.n2 = 1 then 0 else limitN 0 (r.n2 - 1) (e / r.s2)
    if e = j * r.s2 then some (i, j) else none

/-- The register at an offset of a list of registers, with its indices. -/
def regAtIn : List Reg → Nat → Option (Reg × Nat × Nat)
  | [], _ => none
  | r :: rs, off =>
    match r.indexAt off with
    | some ix => some (r, ix.1, ix.2)
    | none => regAtIn rs off

/-- The register at an offset of a window; none where the window has no register there. -/
def regAt (b : Block) (off : Nat) : Option (Reg × Nat × Nat) := regAtIn b.regs off

/-- The bits of a field within its register. -/
def Fld.mask (f : Fld) : Nat := (2 ^ f.width - 1) <<< f.lo

end Sys2Proof.Machine
end

