-- ==== Sys2Proof/Syntax.lean ====
section
/-!
DEFINITION. The commands and events of the XV96. The spec gives their bits nowhere, so that an operand is a value: an
address, a register value, or what a pin, the medium or a mechanism presents to the unit at that event.
-/

namespace Sys2Proof

open Sys2Proof.Machine

/-- What a LOAD reads from the disc: the data of the media record sheet (empty where no copy can be read), the readable copies
of each side's format record, each with its slot (counted through tracks 12 to 23 of layers 0 to 7), and how many slots of each
side's format record area are used; the newest map
checkpoint, if there is one: its index sheet, its sequence, its CLOSED flag, and what it holds (LSN and PSA of every mapped
sheet, the reserve of each layer, the slots recorded, the slots retired, the refresh queue, the next free checkpoint slot of
each side, the next OPC test band of each layer), and the checkpoint sheets that the newest index of each side names (4096 × side +
segment, 4095 for the index itself, and PSA); and what a medium scan of the slots it lists as free finds, in slot order:
sheets as LSN and PSA, slots with a blank leaf position, LSNs whose copies differ. -/
structure Medium where
  media : List (BitVec 8) := []
  formatA : List (Nat × List (BitVec 8)) := []
  formatB : List (Nat × List (BitVec 8)) := []
  usedA : Nat := 0
  usedB : Nat := 0
  checkpoint : Bool := false
  index : Nat := 0
  cpSeq : Nat := 0
  closed : Bool := false
  map : List (Nat × Nat) := []
  reserve : List Nat := []
  recorded : List Nat := []
  retired : List Nat := []
  refresh : List (Nat × Nat) := []
  next : List Nat := []
  opc : List Nat := []
  sheets : List (Nat × Nat) := []
  scan : List (Nat × Nat) := []
  blank : List Nat := []
  ambiguous : List Nat := []
deriving DecidableEq, Repr

/-- The commands and events of the XV96, one constructor for each row of its table of operations and events. -/
inductive Instr where
  /-- REGISTER_WRITE (R11). A register-bus write to a register that has no row of its own stores the value or clears W1C bits as its access type defines. Operands: the register, by window and offset, and the value written. -/
  | registerWrite (blk : Block) (off : Nat) (val : DWord)
  /-- RC_READ (R11). A read of an RC register or counter returns its value and then clears it to zero. Operands: the register read. -/
  | rcRead (blk : Block) (off : Nat)
  /-- FROZEN_ENTRY (R18). An uncorrectable DRC error or an unrecoverable engine fault asserts LD_STOP_N on every OPU and puts the unit into FROZEN. Operands: the engine whose fault its own recovery cannot clear: SDE, write encoder, CLE, PXE, fixity engine, fabric cache. -/
  | frozenEntry (engine : Fin 6)
  /-- ISLAND_OFF_ACCESS (R27). A transaction to an OPU island that is off is dropped with an error response and logged, its host command fails busy, and HK begins powering the island. Operands: the requester, the host command that caused the access, if one did, whether it writes, the register by window and offset, and the value written. -/
  | islandOffAccess (req : Fin 16) (cmd : Option Nat) (write : Bool) (blk : Block) (off : Nat) (val : DWord)
  /-- OPU_ISLAND_POWER_UP (R26). HK switches on an OPU island's supply and begins its three-stage power-up. Operands: the OPU. -/
  | opuIslandPowerUp (opu : Fin 4)
  /-- OPU_ISLAND_READY (R26). After power good, trim restore and analog settling complete, the OPU island is ready and stalled transactions proceed. Operands: the OPU. -/
  | opuIslandReady (opu : Fin 4)
  /-- OPU_ISLAND_POWER_DOWN (R27). HK engages an OPU island's output clamps, opens its supply switch and stops its loops. Operands: the OPU. -/
  | opuIslandPowerDown (opu : Fin 4)
  /-- SERVO_MARK_SEARCH (R93). A slice searches the servo mark window of a wedge and accepts the matching position nearest nominal. Operands: the slice, and the voltage in nanovolts at its input at each ADC sample since its latest stretch, up to the end of the servo mark window. -/
  | servoMarkSearch (rcs : Fin 96) (wave : List Int)
  /-- SERVO_RECORD_POST (R95). At the end of a servo field the reader decodes its fields and posts the wedge record to its registers and the CLE I/O space. Operands: the slice, and the voltage in nanovolts at its input at each ADC sample since its latest stretch, up to the end of the servo field. -/
  | servoRecordPost (rcs : Fin 96) (wave : List Int)
  /-- AGC_UPDATE (R72). At the end of a wedge or leaf preamble the AGC changes GAIN by a limited step computed from the measured amplitude. Operands: the slice, and the voltage in nanovolts at its input at each ADC sample since its latest stretch, up to the end of the preamble. -/
  | agcUpdate (rcs : Fin 96) (wave : List Int)
  /-- OVER_RANGE_EVENT (R78). An over-range sample starts erasure marking of the slice's samples, and of its OPU neighbours when NBR_MARK is set. Operands: the slice, and the voltage in nanovolts at its input at each ADC sample since its latest stretch, up to the end of the over-range run. -/
  | overRangeEvent (rcs : Fin 96) (wave : List Int)
  /-- TIMING_LOST (R88). Three wedges without a servo mark, or a persistently large timing error, put the slice into LOST. Operands: the slice, and the voltage in nanovolts at its input at each ADC sample since its latest stretch, up to the loss. -/
  | timingLost (rcs : Fin 96) (wave : List Int)
  /-- RCS_GAP_LATCH (R101). At the start of a jump gap the OPU's slices latch RCS_FMT and RCS_CAP and reset their data-stream counters. Operands: the OPU. -/
  | rcsGapLatch (opu : Fin 4)
  /-- RCS_NCO_PRESET (R84). A write to RCS_NCO_PRESET loads the written step at once with NOW = 1, or at the next jump gap with NOW = 0. Operands: the slice and the value written. -/
  | rcsNcoPreset (rcs : Fin 96) (val : DWord)
  /-- TRIM_APPLY (R75). A pending write to RCS_AFE or RCS_TRIM takes effect at the first channel bit of the next servo field. Operands: the slice. -/
  | trimApply (rcs : Fin 96)
  /-- RCS_TGT_WRITE (R90). A write to RCS_TGT is checked, and is ignored in whole with TGT_ERR set when either target breaks the conditions. Operands: the slice and the value written. -/
  | rcsTgtWrite (rcs : Fin 96) (val : DWord)
  /-- COMMIT (R91). A write of 1 to RCS_EQ_CTL.COMMIT requests that both shadow coefficient sets be copied to the live sets. Operands: the slice. -/
  | commit (rcs : Fin 96)
  /-- EQ_COMMIT_APPLY (R91). A pending commit or target change takes effect at the first sample of the next captured leaf preamble. Operands: the slice. -/
  | eqCommitApply (rcs : Fin 96)
  /-- SLICE_DISABLE (R108). Clearing RCS_CTL.EN lets the slice complete the leaf it is capturing and then go to IDLE. Operands: the slice. -/
  | sliceDisable (rcs : Fin 96)
  /-- BAND_CHECK (R97). Once every checked spot's wedge record has passed deskew, the band checker posts the mismatch map, unknown count and OK. Operands: the OPU and the wedge whose records have passed deskew. -/
  | bandCheck (opu : Fin 4) (wedge : Fin 432)
  /-- DESKEW_DROP (R99). A slice more than 4,096 entries behind is dropped from deskew release until the next jump gap, its leaves in flight marked TLOSS. Operands: the slice, and the voltage in nanovolts at its input at each ADC sample since its latest stretch, up to the sample for which its deskew buffer has no room. -/
  | deskewDrop (rcs : Fin 96) (wave : List Int)
  /-- LEAF_CAPTURE (R104). At each selected leaf position a slice searches the deckle window for the sync mark and frames the leaf. Operands: the slice, the leaf position, and the voltage in nanovolts at its input at each ADC sample since its latest stretch, up to the end of the leaf. -/
  | leafCapture (rcs : Fin 96) (pos : Nat) (wave : List Int)
  /-- LEAF_DEPOSIT (R120). The detector and demodulator finish a leaf and the deposit DMA writes its descriptor and LLRs into the deposit ring. Operands: the slice whose leaf the detector finishes. -/
  | leafDeposit (rcs : Fin 96)
  /-- SDE_ENTRY_CONSUME (R125). The SDE matches a deposit entry to an open context, consuming orphans and posting results for blank and pre-erased leaves. -/
  | sdeEntryConsume
  /-- SDE_LEAF_START (R135). When the engine is free, it starts the oldest ready leaf of the highest class that may start. Operands: CLK_CORE cycles in which no leaf was ready since the engine became free. -/
  | sdeLeafStart (idle : Nat)
  /-- SDE_ITERATION_DONE (R128). After each LDPC iteration the SDE tests the checks and stops, continues, or draws from the bucket. Operands: whether an internal memory reported a parity error. -/
  | sdeIterationDone (parityErr : Bool)
  /-- OUTER_DECODE (R140). The outer stage decodes a completed sheet with its erasures, or with byte pointers at rung 7. Operands: whether an error arose in the outer stage. -/
  | outerDecode (parityErr : Bool)
  /-- CONTEXT_OPEN (R124). SDE_CTX_CMD with OP 1 opens the context at INDEX. Operands: the context. -/
  | contextOpen (index : Fin 1024)
  /-- CONTEXT_CLOSE (R126). SDE_CTX_CMD with OP 2 closes a context, marks still-needed leaves MISSING and completes it. Operands: the context. -/
  | contextClose (index : Fin 1024)
  /-- CONTEXT_ABANDON (R124). SDE_CTX_CMD with OP 3 discards a context's pending leaves and posts no sheet result. Operands: the context. -/
  | contextAbandon (index : Fin 1024)
  /-- SDE_RING_WRITE (R153). A write to SDE_RING is taken only while the engine is disabled and no slice captures, and is ignored otherwise. Operands: the value written. -/
  | sdeRingWrite (val : DWord)
  /-- SDE_TEST_MODE_WRITE (R149). A write to SDE_CTL.TEST enables encoder-bypass test mode in SERVICE and is ignored elsewhere. Operands: the value of TEST. -/
  | sdeTestModeWrite (test : Bool)
  /-- TEST_ENTRY_ADVANCE (R150). A write of ADV to SDE_TEST_POS advances the deposit pointer past one firmware-written entry. -/
  | testEntryAdvance
  /-- RETRY_LADDER_STEP (R144). Firmware handles a failed sheet result by opening a re-read attempt at the next rung, grouped by track. Operands: the OPU that reads, the sheet whose attempt ended, and whether another OPU of the side can reach the track. -/
  | retryLadderStep (opu : Fin 4) (psa : Nat) (canOther : Bool)
  /-- RECOVERY_LIMIT_EXPIRY (R147). A read command's recovery time limit expires and its climbing sheets end unfinished. Operands: the command whose limit expires. -/
  | recoveryLimitExpiry (cmd : Nat)
  /-- ENCODE_JOB (R157). The encoder takes an encode job, encodes the sheet's leaves into the holding area and advances WSG_EJOB_CI. Operands: whether the encoder met a fault it cannot clear. -/
  | encodeJob (fault : Bool)
  /-- WSG_PLAN_LATCH (R177). At the start of each jump gap the WSG latches the band plan and strategy and sends training symbols. Operands: the OPU whose jump gap begins. -/
  | wsgPlanLatch (opu : Fin 4)
  /-- LD_STOP_RELEASE (R176). When LD_STOP_N rises or the island powers up, the lanes send training before any lane leaves READ. Operands: the OPU. -/
  | ldStopRelease (opu : Fin 4)
  /-- FRAME_RECORD (R158). A lane records a planned leaf position from its held codeword when every gate condition holds. Operands: the OPU, the lane, the leaf position, how many data fields of the frame the write spot has reached, and whether the frame has reached its end. -/
  | frameRecord (opu : Fin 4) (lane : Fin 12) (pos : Nat) (fields : Nat) (ends : Bool)
  /-- LANE_INTERRUPT (R163). A gate condition failing while a lane records sends READ symbols at once and abandons the frame. Operands: the OPU, the lane, and the channel bits of the frame that it had sent. -/
  | laneInterrupt (opu : Fin 4) (lane : Fin 12) (sent : Nat)
  /-- PAUSE (R190). A write of WSG_OCTL.PAUSE lets each lane finish its frame, writes STOP_POS and sets PAUSED. Operands: the OPU. -/
  | pause (opu : Fin 4)
  /-- WSG_STOP (R191). A write of WSG_OCTL.STOP stops the lanes at once. Operands: the OPU. -/
  | wsgStop (opu : Fin 4)
  /-- TRAIN (R166). A write of WSG_OCTL.TRAIN forces the training sequence at the next jump gap. Operands: the OPU. -/
  | train (opu : Fin 4)
  /-- LDC_FIRMWARE_CMD (R174). A write to WSG_LDC_CMD queues a firmware LDC frame, refusing an APC-owned SCALE write and ignoring a full queue. Operands: the OPU and the value written. -/
  | ldcFirmwareCmd (opu : Fin 4) (val : DWord)
  /-- LDC_FRAME (R172). One 40-bit LDC frame is exchanged, its MISO answering the previous frame. Operands: the OPU and the 40 bits received. -/
  | ldcFrame (opu : Fin 4) (miso : Nat)
  /-- BAND_PLAN_DECISION (R189). At each jump gap firmware starts the next record band only when every sheet is encoded, and otherwise holds and pauses. Operands: the OPU. -/
  | bandPlanDecision (opu : Fin 4)
  /-- STREAM_IDLE_TIMEOUT (R189). A stream with admitted sheets waiting and no new WRITE for 50 ms becomes idle and a partial band may be planned. Operands: the stream. -/
  | streamIdleTimeout (stream : Fin 16)
  /-- VERIFY_RESULT_HANDLE (R179). Firmware judges verify leaf results and decides whether each sheet passed. -/
  | verifyResultHandle
  /-- NEIGHBOUR_JUDGE (R182). Firmware judges a neighbour sheet result and relocates, re-records or retries sheets that fail. -/
  | neighbourJudge
  /-- CLOSING_REVOLUTION (R181). On Class E a recording run ends with one revolution that makes the neighbour pass over its last band. Operands: the OPU. -/
  | closingRevolution (opu : Fin 4)
  /-- OPC_RUN (R193). Firmware records one OPC test band with stepped APC targets and reads it with the verify spots. Operands: the OPU. -/
  | opcRun (opu : Fin 4)
  /-- OPC_EVALUATE (R194). Firmware sets each beam's new target from its longest run of passing steps, or withdraws the OPU. Operands: the OPU. -/
  | opcEvaluate (opu : Fin 4)
  /-- CLE_GO (R212). A write of 1 to CLE_GO.GO starts at one common T_start every enabled slot not yet started. -/
  | cleGo
  /-- SLOT_DISABLE (R212). A write of 0 to SLOT_CFG.EN stops the slot's ticks at once and clears STARTED. Operands: the slot. -/
  | slotDisable (slot : Fin 80)
  /-- CLE_TICK (R212). A timer slot's tick falls due and makes a sample ready. Operands: the slot. -/
  | cleTick (slot : Fin 80)
  /-- CLE_DISPATCH (R214). The free engine dispatches the ready sample of the highest level and sets its initial state. Operands: the servo photodetector inputs converted since, 8 × OPU + input, and their raw codes; how many errors of its memories have been corrected since. -/
  | cleDispatch (spd : List (Fin 32 × Int)) (flips : Nat)
  /-- MICRO_TRAP (R217). A ready sample of a higher level makes the running microword finish, writes a trap frame and dispatches the new sample. Operands: the servo photodetector inputs converted since, 8 × OPU + input, and their raw codes; how many errors of its memories have been corrected since. -/
  | microTrap (spd : List (Fin 32 × Int)) (flips : Nat)
  /-- SAMPLE_RESUME (R217). A suspended sample resumes from its trap frame when no higher-level sample is waiting. -/
  | sampleResume
  /-- CLE_HALT (R222). An uncorrectable control store or data memory error halts the engine and faults every started slot. -/
  | cleHalt
  /-- SWAP (R223). A write of 1 to SLOT_CTL.SWAP sets PENDING, or swaps at once for a slot that is not started. Operands: the slot. -/
  | swap (slot : Fin 80)
  /-- DM_COMMIT (R205). A write to CLE_DM_DATA3 commits a whole data memory word, or is refused for an active or pending bank. Operands: the value written to CLE_DM_DATA3. -/
  | dmCommit (val : DWord)
  /-- CS_COMMIT (R233). A write to CLE_CS_DATA3 commits a whole control store word, or is refused under the lock rules. Operands: the value written to CLE_CS_DATA3. -/
  | csCommit (val : DWord)
  /-- CLE_EVT_READ (R203). A read of CLE_EVT returns and removes the oldest event FIFO entry. -/
  | cleEvtRead
  /-- NOP (R200). Microword operation NOP writes no destination. -/
  | nop
  /-- MOV (R200). Microword operation MOV copies source A into the masked lanes of DST. -/
  | mov
  /-- ADD (R227). Microword operation ADD writes A + B in binary32. -/
  | add
  /-- SUB (R227). Microword operation SUB writes A − B in binary32. -/
  | sub
  /-- MUL (R227). Microword operation MUL writes A × B in binary32. -/
  | mul
  /-- FMA (R227). Microword operation FMA writes A × B + C with one rounding. -/
  | fma
  /-- FNMA (R227). Microword operation FNMA writes C − A × B with one rounding. -/
  | fnma
  /-- DIV (R227). Microword operation DIV writes A ÷ B. -/
  | div
  /-- SQRT (R227). Microword operation SQRT writes the square root of A. -/
  | sqrt
  /-- MIN (R227). Microword operation MIN writes the smaller of A and B. -/
  | min
  /-- MAX (R227). Microword operation MAX writes the larger of A and B. -/
  | max
  /-- ABS (R200). Microword operation ABS writes the magnitude of A. -/
  | abs
  /-- NEG (R200). Microword operation NEG writes −A. -/
  | neg
  /-- CLE_CLAMP (R200). Microword operation CLAMP writes min(max(A, B), C). -/
  | cleClamp
  /-- CMPLT (R227). Microword operation CMPLT writes 1.0 where A < B and sets the lane flags. -/
  | cmplt
  /-- CMPLE (R227). Microword operation CMPLE writes 1.0 where A ≤ B and sets the lane flags. -/
  | cmple
  /-- CMPEQ (R227). Microword operation CMPEQ writes 1.0 where A = B and sets the lane flags. -/
  | cmpeq
  /-- SEL (R200). Microword operation SEL takes A where the lane flag is set and B elsewhere. -/
  | sel
  /-- HSUM (R227). Microword operation HSUM writes the sum of the four lanes of A into every lane. -/
  | hsum
  /-- CVF (R227). Microword operation CVF converts a signed integer to binary32. -/
  | cvf
  /-- CVI (R228). Microword operation CVI converts binary32 to a limited signed integer. -/
  | cvi
  /-- CVD (R228). Microword operation CVD writes round(A × B) limited to ±32,767. -/
  | cvd
  /-- IADD (R200). Microword operation IADD adds A and B as 32-bit integers modulo 2^32. -/
  | iadd
  /-- AND (R200). Microword operation AND writes the bitwise AND of A and B. -/
  | and
  /-- OR (R200). Microword operation OR writes the bitwise OR of A and B. -/
  | or
  /-- XOR (R200). Microword operation XOR writes the bitwise XOR of A and B. -/
  | xor
  /-- SHR (R200). Microword operation SHR shifts A right logically by B[4:0]. -/
  | shr
  /-- SHL (R200). Microword operation SHL shifts A left by B[4:0]. -/
  | shl
  /-- OPEN_SLOT_AUDIT (R235). Once per second firmware compares each open slot's MAXCYC with its WCET and stops a slot that exceeded it. -/
  | openSlotAudit
  /-- FOCUS_ACQUIRE (R257). Servo mailbox OP 1 sweeps focus, closes on the first layer S-curve and confirms or jumps to the target layer. Operands: the OPU, the side that the wedges name, and the layers that they confirm, first after the loop closes and then after each layer jump; none while the sweep runs. -/
  | focusAcquire (opu : Fin 4) (side : Fin 2) (found : List (Fin 8))
  /-- FOCUS_SWEEP_FAIL (R258). A sweep that reaches its end without closing is repeated once downward, and a second failure ends the command timed out. Operands: the OPU. -/
  | focusSweepFail (opu : Fin 4)
  /-- LAYER_JUMP (R259). Servo mailbox OP 2 moves focus layer by layer toward the target layer. Operands: the OPU, and for each step that ends the layer that the wedges confirm. -/
  | layerJump (opu : Fin 4) (steps : List (Fin 8))
  /-- LAYER_STEP_TIMEOUT (R260). A layer step whose new layer is not closed within 3 ms ends and focus acquisition is repeated. Operands: the OPU. -/
  | layerStepTimeout (opu : Fin 4)
  /-- TRACK_ACQUIRE (R261). Servo mailbox OP 3 damps crossings, closes tracking and jumps or seeks to the target track. Operands: the OPU, whether the crossing rate has stayed low within 20 ms, and whether three consecutive wedges at the target are OK. -/
  | trackAcquire (opu : Fin 4) (settled : Bool) (onTarget : Bool)
  /-- SV_SEEK (R269). Servo mailbox OP 4 makes a short or long seek to the target track. Operands: the OPU, whether the target lies on the other side, and the layers that its layer jumps confirm. -/
  | svSeek (opu : Fin 4) (otherSide : Bool) (steps : List (Fin 8))
  /-- SV_OPEN (R256). Servo mailbox OP 5 opens the OPU's loops. Operands: the OPU. -/
  | svOpen (opu : Fin 4)
  /-- TRACK_HOLD (R256). Servo mailbox OP 6 holds the OPU on its band. Operands: the OPU. -/
  | trackHold (opu : Fin 4)
  /-- BAND_JUMP (R263). At each jump window opening in TRACKING, TRK writes BAND_BASE and applies the jump profile for J tracks. Operands: the OPU. -/
  | bandJump (opu : Fin 4)
  /-- LANDING_DECISION (R266). TRK decides a landing from the band results of W0 to W3. Operands: the OPU and the wedge W0 to W3. -/
  | landingDecision (opu : Fin 4) (wedge : Fin 4)
  /-- LOOP_LIMIT_BREACH (R271). A loop limit is broken and sets INHIBIT, enters RECOVER or holds, and posts an event. Operands: the OPU and the condition, by its row of Table 7-10 from the top; 10 is a fine actuator range not recovered within 100 ms. -/
  | loopLimitBreach (opu : Fin 4) (kind : Fin 11)
  /-- OPU_FAULT_RESTART (R272). Firmware restarts a faulted OPU, withdrawing it after a fourth fault in 10 minutes. Operands: the OPU. -/
  | opuFaultRestart (opu : Fin 4)
  /-- BAND_LOST_LIMIT (R686). Eight consecutive lost revolutions on one band put the OPU in FAULT and pass its work on. Operands: the OPU and the commands that need the band. -/
  | bandLostLimit (opu : Fin 4) (cmds : List Nat)
  /-- START (R285). SPN_CMD START in OFF below 30 rpm begins align, ramp and couch, and is refused otherwise. -/
  | start
  /-- ALIGN_END (R285). At the end of T_ALIGN the sequencer begins the open-loop ramp. -/
  | alignEnd
  /-- COUCH_REACHED (R285). When the open-loop speed reaches the couch speed the sequencer holds the rate and watches the floating phase. -/
  | couchReached
  /-- COUCH_TIMEOUT (R286). No hand-over within T_COUCH sets START_FAIL and enters COAST. -/
  | couchTimeout
  /-- CATCH (R288). SPN_CMD CATCH engages a turning rotor after 12 consistent crossings, or is refused. -/
  | catch
  /-- STOP (R296). SPN_CMD STOP enters BRAKE or COAST. -/
  | stop
  /-- CLEAR_FAULT (R300). SPN_CMD CLEAR_FAULT in FAULT enters COAST, and is refused while FROST_HOLD is set. -/
  | clearFault
  /-- SPN_DIR_WRITE (R289). A write that changes SPN_CTL.DIR is accepted only in OFF below 30 rpm and is refused otherwise. Operands: the DIR written. -/
  | spnDirWrite (dir : Bool)
  /-- BEMF_CROSSING (R280). An accepted back-EMF crossing updates the speed and schedules the next commutation or counts toward hand-over. Operands: nanoseconds since the crossing before, the phase, its direction, the angle since the nominal commutation in 1/100 degree, and the comparator samples it lasts. -/
  | bemfCrossing (t : Nat) (phase : Fin 3) (rising : Bool) (angle : Nat) (samples : Nat)
  /-- STEP_MISSED (R280). A crossing window that closes empty commutates by prediction, and three misses are a sync loss to COAST. -/
  | stepMissed
  /-- BELOW30_TIMEOUT (R283). No crossing for 333.3 ms sets BELOW30, and a braking or coasting block becomes OFF. -/
  | below30Timeout
  /-- DUTY_APPLY (R277). A written DUTY takes effect at the next carrier peak or valley. Operands: nanoseconds since the DUTY write, the current codes of phases U and V, the motor supply's code where one is converted, and the angle since the nominal commutation in 1/100 degree. -/
  | dutyApply (age : Nat) (cu : Int) (cv : Int) (vm : Option Nat) (angle : Nat)
  /-- DUTY_STALE (R297). No DUTY write for 64 µs enters COAST and sets DUTY_STALE. -/
  | dutyStale
  /-- OVERCURRENT (R282). A phase current above OC_CYC cuts the pulse, and above OC_TRIP drives all outputs low in FAULT. Operands: the currents of phases U and V in mA. -/
  | overcurrent (iu : Int) (iv : Int)
  /-- OVERSPEED (R298). SPEED above OVSP enters BRAKE or COAST and sets OVSP. -/
  | overspeed
  /-- START_FAIL_RETRY (R287). After a start failure firmware retries with more align current, withdrawing the spindle after three failures. -/
  | startFailRetry
  /-- SPINDLE_CONDITION_HANDLE (R301). Firmware handles a spindle condition by the action Table 8-5 gives. Operands: the condition: 0 OC_TRIP, 1 SYNC_LOSS, 2 OVSP, 3 DUTY_STALE or a fault of the SPC slot, 4 a fault of the SPS or WMK slot, 5 OFF reached with a START owed, 6 RUN has lasted one revolution. -/
  | spindleConditionHandle (cond : Fin 7)
  /-- SPEED_ERROR_TIMEOUT (R301). A speed error above 5 % for 200 ms in RUN is logged and every OPU is held. -/
  | speedErrorTimeout
  /-- READ_BAND_ADVANCE (R295). Before each jump window firmware advances an OPU only when the read pool has room, and otherwise holds it. Operands: the OPU. -/
  | readBandAdvance (opu : Fin 4)
  /-- SLED_TARGET (R311). A sled target from the selected source starts a profiled move, or is ignored in OFF, HOMING, HELD or FAULT. Operands: the OPU, whether the target comes from the CLE port, the target, and the position and speed that the profile generator has reached. -/
  | sledTarget (opu : Fin 4) (cle : Bool) (target : Int) (pos : Int) (speed : Nat)
  /-- SLED_MOVE_DONE (R313). The commanded position reaches the target and the sled becomes IDLE. Operands: the OPU. -/
  | sledMoveDone (opu : Fin 4)
  /-- SLED_IDLE_TIMEOUT (R315). After IDLE_T in IDLE the winding current falls to I_HOLD. Operands: the OPU. -/
  | sledIdleTimeout (opu : Fin 4)
  /-- HOME (R317). SLD_CMD HOME in IDLE starts the homing sequence, and is refused otherwise. Operands: the OPU. -/
  | home (opu : Fin 4)
  /-- HOME_STALL_DETECT (R317). A stall detected in the seek step sets P and starts the back-off to P = 0. Operands: the OPU and the mean duty of each full step of the inward move so far. -/
  | homeStallDetect (opu : Fin 4) (duties : List Nat)
  /-- HOME_FAIL (R318). Homing that reaches HOME_MAX without a stall, or stalls while learning, stops with HOME_FAIL. Operands: the OPU, the full steps that the seek has covered, and whether a stall was found while learning. -/
  | homeFail (opu : Fin 4) (steps : Nat) (learning : Bool)
  /-- SLD_STOP (R312). SLD_CMD STOP decelerates the sled at A_MAX to rest. Operands: the OPU, and the position and speed that the profile generator has reached. -/
  | sldStop (opu : Fin 4) (pos : Int) (speed : Int)
  /-- SLD_CLEAR_FAULT (R309). SLD_CMD CLEAR_FAULT moves a sled from FAULT to IDLE with HOMED cleared. Operands: the OPU. -/
  | sldClearFault (opu : Fin 4)
  /-- SLED_OVERCURRENT (R309). A winding current above OC drives the OPU's sled outputs low and enters FAULT. Operands: the OPU and the sensed winding current in mA. -/
  | sledOvercurrent (opu : Fin 4) (ma : Nat)
  /-- OPU_PARK (R322). Firmware opens an OPU's loops and moves its sled to the park position. Operands: the OPU, and the position and speed that the profile generator has reached. -/
  | opuPark (opu : Fin 4) (pos : Int) (speed : Nat)
  /-- CLAMP (R325). SLD_CL_CMD CLAMP drives the clamp toward seating, and is refused in FAULT. -/
  | clamp
  /-- RELEASE (R326). SLD_CL_CMD RELEASE drives the clamp toward release when the spindle is stopped, and is refused otherwise. -/
  | release
  /-- CLAMP_CLEAR_FAULT (R327). SLD_CL_CMD CLEAR_FAULT in FAULT sets the clamp state from the inputs. -/
  | clampClearFault
  /-- DISC_PRESENT_RISE (R325). DISC_PRESENT rising during clamping starts the seating drive. -/
  | discPresentRise
  /-- CLAMP_HOME_RISE (R326). CLAMP_HOME rising during release starts the final seating drive. -/
  | clampHomeRise
  /-- CLAMP_SEAT_DONE (R325). At the end of T_SEAT the outputs go low and the clamp becomes CLAMPED or RELEASED. -/
  | clampSeatDone
  /-- CLAMP_LEAVE_TIMEOUT (R325). CLAMP_HOME not falling within T_LEAVE stops the clamp in FAULT with JAM. Operands: whether CLAMP_HOME has fallen. -/
  | clampLeaveTimeout (fallen : Bool)
  /-- CLAMP_MOVE_TIMEOUT (R325). No seating within T_MOVE sets NO_DISC and releases, and no release within T_MOVE is a JAM. -/
  | clampMoveTimeout
  /-- DISC_LOST (R328). DISC_PRESENT falling while CLAMPED sets DISC_LOST, enters FAULT and stops the spindle. -/
  | discLost
  /-- CAL_TRIGGER (R346). A write to CAL_TRIG starts a run or merges the pairs into the pending set. Operands: the pairs, bit 7 × OPU + group. -/
  | calTrigger (set : Nat)
  /-- CAL_STEP_START (R342). The sequencer reaches the next pair of its run and starts the step, or defers it. -/
  | calStepStart
  /-- CAL_MEASUREMENT_DONE (R344). A measurement of a hardware step completes and the trim is adjusted or the step concludes. Operands: for each resource measured its index, up to three measured values in the units of its group's method, and whether the measurement cannot be used. -/
  | calMeasurementDone (ms : List (Nat × Int × Int × Int × Bool))
  /-- CAL_STEP_DONE (R344). A step concludes, keeping or restoring each trim by its result. -/
  | calStepDone
  /-- CAL_STEP_TIMEOUT (R343). A step's timeout expires and its unconcluded resources fail with TIMEOUT. -/
  | calStepTimeout
  /-- DELEGATED_CAL (R345). Firmware runs a delegated LOOP or SAC step in LS71. Operands: what the sequence measured, in binary32: for LOOP the open-loop gains of FOC and TRK, for SAC the mean SAM at the nine steps. -/
  | delegatedCal (vals : List Nat)
  /-- CAL_EXT_RESULT (R345). A write to CAL_EXT gives the result of the running delegated step, and is ignored when none runs. Operands: the result code written. -/
  | calExtResult (code : Fin 8)
  /-- ABORT (R347). A write of CAL_CTL.ABORT aborts the running step and ends the run. -/
  | abort
  /-- CAL_FAIL_HANDLE (R350). Firmware handles a failed step with ATTN 7, a log entry and a CAL record. -/
  | calFailHandle
  /-- CAL_DUE_TIMEOUT (R352). A pair due for 60 s in RECORD makes firmware end the OPU's run at its next band to calibrate. Operands: the pair. -/
  | calDueTimeout (group : Fin 7) (opu : Fin 4)
  /-- TRIM_STORE_WRITE (R339). A write to a trim store register also writes the live trim, and is refused for a resource of the running step. Operands: the offset of the store register in the CAL window, and the value written. -/
  | trimStoreWrite (off : Nat) (val : DWord)
  /-- TEMPERATURE_SAMPLE (R348). Each second HK samples the temperatures and triggers pairs that drifted past their threshold. Operands: the die temperature in 1/16 °C and the thermistor code of each OPU. -/
  | temperatureSample (die : Int) (codes : List Nat)
  /-- DRC_REQUEST_ACCEPT (R360). The DRC queues a request, or rejects one beyond the visible capacity with an error response. Operands: the requester, whether from the second port of a two-port requester, whether a write, the buffer address, a read's length, a write's bytes within one line, the CLK_DRAM cycle, and the ORDER attribute. -/
  | drcRequestAccept (req : Fin 16) (second : Bool) (isWrite : Bool) (addr : Nat) (len : Nat) (data : List (BitVec 8)) (cycle : Nat) (ordered : Bool)
  /-- DRC_SCHEDULE (R368). The DRC picks and issues its next request by age, row hit and drain rules. Operands: the channel and the CLK_DRAM cycle. -/
  | drcSchedule (ch : Fin 2) (cycle : Nat)
  /-- DRC_READ_COMPLETE (R363). A read's data is checked, corrected and written back on a single error, or freezes the DRC. Operands: for each channel that completes a read in this cycle, what disturbs its four words: 144 bits each, the data below the check bits. -/
  | drcReadComplete (f0 : Option (List Nat)) (f1 : Option (List Nat))
  /-- REFRESH_DUE (R371). A per-bank refresh falls due and is issued to an idle bank, or forced when debt is high. Operands: the channel and the rank. -/
  | refreshDue (ch : Fin 2) (rank : Fin 2)
  /-- MR4_POLL (R373). Every 16 ms the DRC reads MR4 and sets each rank's refresh multiplier. Operands: the MR4 codes of the dies of rank 0 and of rank 1. -/
  | mr4Poll (r0 : List Nat) (r1 : List Nat)
  /-- RH_TABLE_CLEAR (R376). Every WINDOW ms the DRC clears the row-hammer tables. -/
  | rhTableClear
  /-- SCRUB_READ (R366). Patrol scrub reads the next line in its pass. Operands: what disturbs the four words of the line, 144 bits each. -/
  | scrubRead (flips : List Nat)
  /-- RAW_WRITE (R367). DRC test port OP 1 writes a word and its check bits raw. -/
  | rawWrite
  /-- RAW_READ (R367). DRC test port OP 2 reads a word, its check bits and syndromes raw. -/
  | rawRead
  /-- AUTO_SELF_REFRESH (R377). A rank idle for IDLE_T enters self-refresh, and leaves it at its next request. Operands: the channel and the rank. -/
  | autoSelfRefresh (ch : Fin 2) (rank : Fin 2)
  /-- DEEP (R378). A write of DRC_PWR.DEEP drains the DRC and puts every rank into deep self-refresh. -/
  | deep
  /-- DEEP_SR_EXIT (R379). At wake the DRC restores training, exits deep self-refresh and becomes ready. Operands: the DQS oscillator count of each die. -/
  | deepSrExit (counts : List Nat)
  /-- DRC_TRAINING (R380). Enabling the DRC trains every LP4X channel and then makes it READY, or fails with TRN_FAIL. Operands: the LP4X channel and the step that found no passing window, if one did, and the DQS oscillator count of each die. -/
  | drcTraining (fail : Option (Fin 4 × Fin 5)) (counts : List Nat)
  /-- ZQ_CALIBRATION (R381). Every 256 ms the DRC issues a ZQ calibration to each die. -/
  | zqCalibration
  /-- DQS_OSC_CHECK (R381). Every 100 ms the DRC runs the DQS oscillator and shifts write DQ delays on drift. Operands: the die and its oscillator count. -/
  | dqsOscCheck (die : Fin 8) (count : Nat)
  /-- REQUEST_URGENT (R391). A fabric request whose age reaches AGE_CAP becomes urgent and takes priority and a reserved entry. Operands: the requester, and whether its second port. -/
  | requestUrgent (req : Fin 16) (second : Bool)
  /-- CACHE_READ (R395). A read is served on a hit, or on a miss filled under the requester's way mask with a victim chosen. Operands: the requester, the buffer address, the length within one line, the discard attribute, and what the check bits of the cache find: nothing, a corrected error, an error in data, an error in a tag. -/
  | cacheRead (req : Fin 16) (addr : Nat) (len : Nat) (discard : Bool) (err : Fin 4)
  /-- CACHE_WRITE (R397). A write updates the cache, allocating with or without a fill, or streams past under the sequential detector. Operands: the requester, the buffer address, the bytes within one line, and what the check bits of the cache find, and whether 1,024 cycles have passed since the requester's previous write. -/
  | cacheWrite (req : Fin 16) (addr : Nat) (data : List (BitVec 8)) (err : Fin 4) (idle : Bool)
  /-- PREFETCH (R401). After TRIG ascending reads the cache prefetches lines ahead into the side buffer. Operands: the requester. -/
  | prefetch (req : Fin 16)
  /-- CLEAN (R405). FBC_CMD CLEAN writes back the dirty lines of a range. -/
  | clean
  /-- INVALIDATE (R405). FBC_CMD INVALIDATE discards the lines of a range without write-back. -/
  | invalidate
  /-- PRELOAD (R399). FBC_CMD PRELOAD fills a range into a locked way, and is refused for an unlocked way. Operands: the way. -/
  | preload (way : Fin 16)
  /-- CLEAN_ALL (R405). FBC_CMD CLEAN_ALL writes back every dirty line, locked ways included. -/
  | cleanAll
  /-- CACHE_RESET_INVALIDATE (R407). At a CORE reset the cache invalidates every set and clears the side buffer. -/
  | cacheResetInvalidate
  /-- RJ_SUBMIT (R416). A 64-byte fabric write submits a record to the journal queue, held while the ring is full. Operands: the ring (true: event) and the 64 bytes. -/
  | rjSubmit (event : Bool) (data : List (BitVec 8))
  /-- RJ_RECORD_WRITE (R418). The journal writes a record's rows to both banks with read-back, rewrite and remap, then acknowledges durability. Operands: the compare results of each bank's row writes in order, true where the compare fails; a missing one matches. -/
  | rjRecordWrite (fails0 : List Bool) (fails1 : List Bool)
  /-- RJ_STAGE_FROST (R424). A write to offset 0x80 stages the FROST payload. Operands: the 64 bytes. -/
  | rjStageFrost (data : List (BitVec 8))
  /-- RJ_SEAL (R424). At a frost line the journal refuses new submissions, completes the record in progress, writes the staged FROST record and seals. Operands: whether the record at the front of the queue had been begun, and the compare results of its rows and of the FROST record's rows in each bank. -/
  | rjSeal (begun : Bool) (fails0 : List Bool) (fails1 : List Bool) (frost0 : List Bool) (frost1 : List Bool)
  /-- RJ_RECORD_READ (R420). A record read returns bank 0's copy when its CRC holds, and otherwise bank 1's with RD_ALT set. Operands: the ring (true: event) and the slot. -/
  | rjRecordRead (event : Bool) (slot : Nat)
  /-- JOURNAL_LOW_SPACE (R423). Free main slots falling below 4,096 make firmware checkpoint the map and carry live records forward. -/
  | journalLowSpace
  /-- MAP_CHECKPOINT (R684). Firmware records an incremental or CLOSED map checkpoint and then the CHECKPOINT record. Operands: whether it is the CLOSED checkpoint. -/
  | mapCheckpoint (closed : Bool)
  /-- TS_GO (R444). A write to HP_TS_GO of an idle set latches the command and makes the set busy, and is ignored while busy. Operands: the set's stream, the head that received the write (0 head A, 1 head B), and whether a poisoned write was received while the command's dwords were being written. -/
  | tsGo (stream : Fin 16) (home : Fin 2) (poisoned : Bool)
  /-- TS_REPLY_POST (R446). A finished command's reply is written to host memory and the set's registers, and the set becomes idle. Operands: the stream's set; whether the journal has begun the record at the front of its queue. -/
  | tsReplyPost (stream : Fin 16) (begun : Bool)
  /-- QUEUE_ENABLE (R449). A write of 1 to HP_Q_CTL.EN resets the queue indices and sets the home head. Operands: the head that carried the write, and the value written to HP_Q_CTL. -/
  | queueEnable (home : Fin 2) (val : DWord)
  /-- QUEUE_DISABLE (R452). A write of 0 to HP_Q_CTL.EN stops fetching and drains the fetched commands. Operands: the value written to HP_Q_CTL. -/
  | queueDisable (val : DWord)
  /-- DOORBELL (R450). A write to HP_Q_SQ_TAIL fetches the new submission entries, or is ignored with DB_ERR. Operands: the index written. -/
  | doorbell (tail : Fin 64)
  /-- QUEUE_ENTRY_FETCH (R450). A fetched submission entry arrives from host memory and its command is judged. -/
  | queueEntryFetch
  /-- QUEUE_REPLY_POST (R451). A queued command's reply is written to the next completion slot. Operands: whether the journal has begun the record at the front of its queue. -/
  | queueReplyPost (begun : Bool)
  /-- MSIX_UNMASK (R453). Unmasking a vector with its pending bit set sends one message. Operands: the vector. -/
  | msixUnmask (vector : Fin 32)
  /-- MEMBER_WINDOW_WRITE (R436). A head carries a BAR0 write for a member window over the Quire link, holding it while credits lack. Operands: the window's chain address, the offset and the bytes. -/
  | memberWindowWrite (unit : Fin 64) (off : Fin 262144) (data : List (BitVec 8))
  /-- MEMBER_WINDOW_READ (R437). A head carries a BAR0 read for a member window, answering from the LINK island for a dormant unit's unit registers. Operands: the window's chain address, the offset and the length. -/
  | memberWindowRead (unit : Fin 64) (off : Fin 262144) (len : Nat)
  /-- MEMBER_READ_TIMEOUT (R437). A member read unanswered within 500 µs is completed with all ones. -/
  | memberReadTimeout
  /-- UNREACHABLE_WRITE_DISCARD (R436). A held write whose unit has been unreachable for 500 µs is discarded. -/
  | unreachableWriteDiscard
  /-- DMA_COMPLETION_ERROR (R459). A failed, poisoned or 50 ms late completion to a command's read fails it with CLASS 6. Operands: the command whose read fails (0: the submission entry at SQ_HEAD), and how: 0 Unsupported Request, 1 Completer Abort, 2 poisoned data, 3 no completion within 50 ms. -/
  | dmaCompletionError (cmd : Nat) (kind : Fin 4)
  /-- HOST_RESET (R461). PERST_N, hot reset, link-down or D3hot resets one head's HOST island and discards its host-bound replies. Operands: the head (0 head A, 1 head B), and the cause: 0 PERST_N, 1 hot reset, 2 link-down, 3 D3hot. -/
  | hostReset (head : Fin 2) (cause : Fin 4)
  /-- CONFIGURATION_REQUEST (R627). A PCIe configuration request is completed with Request Retry Status before t9 and served normally after it. Operands: whether a write, the dword of configuration space, the byte enables, the value, and whether 100 ms have passed since a boot step failed. -/
  | configurationRequest (isWrite : Bool) (reg : Fin 1024) (be : Fin 16) (val : DWord) (late : Bool)
  /-- IDENTIFY (R491). IDENTIFY writes the unit or disc identify page. Operands: the command's number. -/
  | identify (cmd : Nat)
  /-- GET_PAGE (R492). GET PAGE writes a parameter page or its defaults. Operands: the command's number. -/
  | getPage (cmd : Nat)
  /-- SET_PAGE (R492). SET PAGE validates a parameter page and applies it whole. Operands: the command's number. -/
  | setPage (cmd : Nat)
  /-- POLL (R483). POLL runs nothing and returns an up-to-date status. Operands: the command's number. -/
  | poll (cmd : Nat)
  /-- ACKNOWLEDGE_ATTENTION (R443). ACKNOWLEDGE ATTENTION clears every pending code when its ASEQ matches. Operands: the command's number. -/
  | acknowledgeAttention (cmd : Nat)
  /-- GET_LOG (R489). GET LOG writes a log header and entries, newest first. Operands: the command's number. -/
  | getLog (cmd : Nat)
  /-- RESET_STREAM (R517). RESET STREAM settles the target's writes, abandons those at or above F, writes a reset marker and clears BROKEN. Operands: the command's number. -/
  | resetStream (cmd : Nat)
  /-- POWER_MODE (R484). POWER MODE flushes every stream and enters DORMANT, PARKED or SPINNING. Operands: the command's number. -/
  | powerMode (cmd : Nat)
  /-- READ (R474). READ binds and decodes each sheet and delivers it in LSN order, serving lasting sheets through their group. Operands: the command's number. -/
  | read (cmd : Nat)
  /-- WRITE (R476). WRITE admits sheets to the write pool, journals the intent and replies under the ordering promises. Operands: the command's number. -/
  | write (cmd : Nat)
  /-- VERIFY (R475). VERIFY decodes and classifies each sheet without delivering data. Operands: the command's number. -/
  | verify (cmd : Nat)
  /-- FLUSH_STREAM (R503). FLUSH STREAM completes when the stream's watermark covers every earlier write. Operands: the command's number. -/
  | flushStream (cmd : Nat)
  /-- FENCE (R478). FENCE holds later commands of its stream until earlier commands of the named streams have replied. Operands: the command's number. -/
  | fence (cmd : Nat)
  /-- FIXITY (R580). FIXITY writes or compares a 48-byte fixity record per sheet. Operands: the command's number. -/
  | fixity (cmd : Nat)
  /-- LOAD (R480). LOAD clamps, homes, spins up, reads the records and checkpoint, replays the journal and may format. Operands: the command's number, and what is read from the disc. -/
  | load (cmd : Nat) (medium : Medium)
  /-- UNLOAD (R481). UNLOAD flushes, ends recording, records a CLOSED checkpoint, parks, stops and releases the disc. Operands: the command's number, and whether 10 s have passed since the spindle was to stop. -/
  | unload (cmd : Nat) (late : Bool)
  /-- SEEK (R482). SEEK brings an OPU to TRACKING at the band holding the PSA. Operands: the command's number. -/
  | seek (cmd : Nat)
  /-- CALIBRATE (R482). CALIBRATE triggers the named pairs and OPC runs and ends when their run ends. Operands: the command's number. -/
  | calibrate (cmd : Nat)
  /-- GROUP_CREATE (R556). GROUP CREATE checks a descriptor, assigns the group identifier and hands it to the members. Operands: the command's number. -/
  | groupCreate (cmd : Nat)
  /-- GROUP_DELETE (R577). GROUP DELETE waits for the group's commands and ends the group. Operands: the command's number. -/
  | groupDelete (cmd : Nat)
  /-- GROUP_WRITE (R566). GROUP WRITE locks its stripes, computes parity and prepares the sheets on the members. Operands: the command's number. -/
  | groupWrite (cmd : Nat)
  /-- GROUP_READ (R572). GROUP READ maps GLSNs to members and rebuilds sheets that cannot be read. Operands: the command's number. -/
  | groupRead (cmd : Nat)
  /-- GROUP_STATUS (R576). GROUP STATUS writes the group status record. Operands: the command's number. -/
  | groupStatus (cmd : Nat)
  /-- GROUP_REBUILD (R573). GROUP REBUILD assigns a spare to a failed slot in BUILDING state and starts the rebuild. Operands: the command's number. -/
  | groupRebuild (cmd : Nat)
  /-- SNAPSHOT (R549). SNAPSHOT takes an Equinox cut by hold and release passes. Operands: the command's number. -/
  | snapshot (cmd : Nat)
  /-- CHAIN_OP_COUNT_OFF (R532). CHAIN OP 1 runs a count-off with the receiving head as head A. Operands: the command's number. -/
  | chainOpCountOff (cmd : Nat)
  /-- CHAIN_OP_BARRIER (R548). CHAIN OP 2 runs a chain-wide barrier. Operands: the command's number. -/
  | chainOpBarrier (cmd : Nat)
  /-- CHAIN_OP_RESET (R550). CHAIN OP 3 resets every unit of the ring. Operands: the command's number. -/
  | chainOpReset (cmd : Nat)
  /-- MICROCODE_LOAD (R485). MICROCODE LOAD checks and loads a Quejo image into the open region and may start it. Operands: the command's number. -/
  | microcodeLoad (cmd : Nat)
  /-- OPEN_START (R486). OPEN CONTROL OP 1 starts the named open slots. Operands: the command's number. -/
  | openStart (cmd : Nat)
  /-- OPEN_STOP (R486). OPEN CONTROL OP 2 stops the named open slots. Operands: the command's number. -/
  | openStop (cmd : Nat)
  /-- OPEN_RELEASE (R232). OPEN CONTROL OP 3 releases port groups to the open region in SERVICE, disabling the F3.1 slots that drive them. Operands: the command's number. -/
  | openRelease (cmd : Nat)
  /-- OPEN_WITHDRAW (R486). OPEN CONTROL OP 4 withdraws released port groups. Operands: the command's number. -/
  | openWithdraw (cmd : Nat)
  /-- OPEN_BANK_LOAD (R486). OPEN CONTROL OP 5 writes an open slot's inactive bank and swaps. Operands: the command's number. -/
  | openBankLoad (cmd : Nat)
  /-- FIRMWARE_DOWNLOAD (R487). FIRMWARE DOWNLOAD stages image bytes at an offset. Operands: the command's number. -/
  | firmwareDownload (cmd : Nat)
  /-- FIRMWARE_COMMIT (R487). FIRMWARE COMMIT checks the staged image, writes it to flash and may restart the firmware. Operands: the command's number. -/
  | firmwareCommit (cmd : Nat)
  /-- ENTER_SERVICE (R488). DIAGNOSTIC OP 1 flushes every stream and enters SERVICE. Operands: the command's number. -/
  | enterService (cmd : Nat)
  /-- LEAVE_SERVICE (R488). DIAGNOSTIC OP 2 leaves SERVICE to SPINNING or PARKED. Operands: the command's number. -/
  | leaveService (cmd : Nat)
  /-- CODEC_TEST (R149). DIAGNOSTIC OP 3 runs the encoder-bypass codec test on COUNT sheets. Operands: the command's number. -/
  | codecTest (cmd : Nat)
  /-- SURFACE_TEST (R185). DIAGNOSTIC OP 4 records and verifies Class E slots and frees retired slots that pass. Operands: the command's number. -/
  | surfaceTest (cmd : Nat)
  /-- RAW_BUFFER_READ (R488). DIAGNOSTIC OP 5 raw-reads one buffer word through the test port. Operands: the command's number. -/
  | rawBufferRead (cmd : Nat)
  /-- TRACE_COPY (R488). DIAGNOSTIC OP 6 copies the CLE trace ring to the host. Operands: the command's number. -/
  | traceCopy (cmd : Nat)
  /-- WATERMARK_ADVANCE (R503). A durable COMMIT advances a stream's watermark, writes an ORDER record and releases waiting FUA and FLUSH replies. Operands: the stream. -/
  | watermarkAdvance (stream : Fin 16)
  /-- STREAM_BREAK (R514). A write that cannot be made durable makes its stream BROKEN and a BROKEN record is written. Operands: the stream. -/
  | streamBreak (stream : Fin 16)
  /-- LINK_TRAINING (R523). A port detects signal and trains cold, or retrains, to active. Operands: the port, whether lanes 0 and 1 and lanes 2 and 3 pass, whether the lanes are reversed, whether both ends are of one kind, the one-way delay in ns, and whether the neighbour reports no chain address. -/
  | linkTraining (port : Fin 2) (low : Bool) (high : Bool) (reversed : Bool) (miswired : Bool) (delay : Nat) (bare : Bool)
  /-- RETRAIN (R523). A write of QL_PCTL.RETRAIN retrains the port now. Operands: the port: 0 QL_U, 1 QL_D. -/
  | retrain (port : Fin 2)
  /-- DISABLE (R530). A write of QL_PCTL.DISABLE holds the port down and breaks the ring there. Operands: the port. -/
  | disable (port : Fin 2)
  /-- FRAME_RECEIVE (R528). A received frame is checked, acknowledged or NAKed, and forwarded nullified when cut through. Operands: the port, the 272 bytes of the frame, and whether its content was passed on cut-through before its CRC was known. -/
  | frameReceive (port : Fin 2) (frame : List (BitVec 8)) (cut : Bool)
  /-- FRAME_REPLAY (R528). A NAK makes the transmitter replay from the frame after ACKSEQ, retraining after repeated failures. Operands: the port. -/
  | frameReplay (port : Fin 2)
  /-- PORT_DOWN (R530). A port going down sends TOPO, reroutes and resends its unacknowledged messages. Operands: the port. -/
  | portDown (port : Fin 2)
  /-- MESSAGE_FORWARD (R538). A message not addressed to the unit is forwarded cut-through or buffered. -/
  | messageForward
  /-- MMIO_WRITE (R435). An MMIO write message from a head is applied to the unit's window in order. -/
  | mmioWrite
  /-- MMIO_READ_REQUEST (R437). An MMIO read request is answered with a read completion. -/
  | mmioReadRequest
  /-- MMIO_READ_COMPLETION (R437). An MMIO read completion reaches the head and completes the host read. -/
  | mmioReadCompletion
  /-- HOST_READ_REQUEST (R454). A member's host read request is carried to host memory by the home head. Operands: whether host memory delivers the data. -/
  | hostReadRequest (good : Bool)
  /-- HOST_READ_DATA (R454). Host read data from the home head reaches the member. -/
  | hostReadData
  /-- HOST_WRITE (R454). A member's host write is written to host memory by the home head. -/
  | hostWrite
  /-- MEMBER_REPLY (R454). A member's reply reaches the home head, which posts it after the command's data writes. -/
  | memberReply
  /-- UNIT_REQUEST (R537). A unit request is acted on after its epoch check, or answered stale or asleep. -/
  | unitRequest
  /-- UNIT_RESPONSE (R537). A unit response reaches the requester with its CLASS and DETAIL. -/
  | unitResponse
  /-- UNIT_DATA (R19). Unit sheet data arrives and, for a rebuild, is added into a PXE accumulator. -/
  | unitData
  /-- CLAIM (R532). A CLAIM message is passed on, withdrawn against or discarded by serial, and the returning claim makes head A. -/
  | claim
  /-- COUNT (R533). A COUNT message gives the unit its address and is passed on with the next value. -/
  | count
  /-- MAP (R535). A MAP message is adopted with its epoch, and heads discard held writes whose window changed owner. -/
  | map
  /-- TOKEN (R539). The quota token's arrival sets the unit's injection credit. -/
  | token
  /-- TOKEN_LOST (R539). No token for 10 ms reports TOKEN_LOST to head A, which creates a new token. Operands: the direction, by the port that the token leaves by. -/
  | tokenLost (port : Fin 2)
  /-- TIME_BROADCAST (R544). Every 100 µs head A sends TIME in both directions. Operands: the time that has passed, in ns. -/
  | timeBroadcast (elapsed : Nat)
  /-- TIME (R545). A TIME message corrects the unit's Quire time without letting it decrease. -/
  | time
  /-- BARRIER (R548). A BARRIER arrive pass holds acceptance until earlier commands reply, and a depart pass releases it. -/
  | barrier
  /-- SNAP (R549). A SNAP hold pass holds acceptance, and a release pass carries T_cut. -/
  | snap
  /-- CHAIN_RESET (R550). A CHAIN_RESET message is forwarded, acknowledged and followed by a unit reset. Operands: whether the journal has begun the record at the front of its queue. -/
  | chainReset (begun : Bool)
  /-- SLEEP (R542). A SLEEP request is granted or refused by head A, and a grant puts the facing ports asleep. -/
  | sleep
  /-- TOPO (R530). A TOPO message reaches a head, which raises ATTN 3. -/
  | topo
  /-- PORT_WAKE (R543). A wake signal on an asleep port retrains the link within 50 µs. Operands: the port. -/
  | portWake (port : Fin 2)
  /-- LINK_IDLE_SLEEP (R543). A link woken only for forwarding returns to sleep after 100 ms without traffic. -/
  | linkIdleSleep
  /-- GROUP_DECISION (R570). When the last needed member has prepared or failed, the keeper writes the decision and sends RELEASE, or breaks the stream. Operands: the group and the group sequence. -/
  | groupDecision (group : Nat) (seq : Nat)
  /-- SLOW_MEMBER_TIMEOUT (R569). A member unanswered within SLOW_MS is marked FAILED at a new generation. Operands: the tag of the request that has not been answered. -/
  | slowMemberTimeout (tag : Fin 65536)
  /-- PENDING_RESOLVE (R567). A member resolves a pending group command with the keeper's decision or voids it. -/
  | pendingResolve
  /-- REBUILD_STRIPE (R574). The rebuild target locks a stripe, gathers survivors and records the reconstructed sheet. Operands: the group. -/
  | rebuildStripe (group : Nat)
  /-- SHEET_HASH (R579). The fixity engine hashes a sheet as it is decoded, encoded or rebuilt. Operands: the buffer address of the sheet. -/
  | sheetHash (addr : Nat)
  /-- FROST_LINE_EVENT (R598). A supply below its trip level for 50 ns stops the lasers, lanes, motors and calibration and seals the journal. Operands: monitors (0 VSENSE_SYS, 1 VDD_CORE, 2 to 7 VIO_A to VIO_F), each with the level in 10 µV below which it has stayed for 50 ns; and the position that each sled's profile generator has reached. -/
  | frostLineEvent (levels : List (Nat × Nat)) (pos : List Int)
  /-- THAW (R603). The thaw timer expires, clearing FROST, unsealing the journal, and firmware restores recording. Operands: the DQS oscillator count of each die, for a wake event that waited. -/
  | thaw (counts : List Nat)
  /-- WAKE (R592). A wake event restarts the islands and resumes the drive processors into PARKED. Operands: the cause: 1 chain message, 2 window access, 3 L1 exit; and the DQS oscillator count of each die. -/
  | wake (cause : Fin 4) (counts : List Nat)
  /-- PLL_UNLOCK (R610). The PLL out of lock for more than 1 µs makes a unit reset. Operands: whether the journal has begun the record at the front of its queue. -/
  | pllUnlock (begun : Bool)
  /-- CRYSTAL_FAIL (R610). No crystal edge for 200 ns switches AON to the internal oscillator and holds a unit reset. Operands: whether the journal has begun the record at the front of its queue. -/
  | crystalFail (begun : Bool)
  /-- CRYSTAL_RETURN (R610). Crystal edges present again for 1 ms release the held unit reset. -/
  | crystalReturn
  /-- POWER_ON_RESET (R616). VDD_AON below 1.6 V resets everything. -/
  | powerOnReset
  /-- UNIT_RESET (R618). A unit reset stops the lasers, lets the journal finish its record and resets every island except AON. Operands: whether the journal has begun the record at the front of its queue, and the compare results of its row writes in each bank, true where the compare fails. -/
  | unitReset (begun : Bool) (fails0 : List Bool) (fails1 : List Bool)
  /-- WATCHDOG_EXPIRY (R621). A watchdog period without every heartbeat makes a firmware restart, or a unit reset in stage 2. Operands: whether the journal has begun the record at the front of its queue. -/
  | watchdogExpiry (begun : Bool)
  /-- FIRMWARE_RESTART (R622). A firmware restart resets DP0–DP3, then firmware settles the commands that were in progress. -/
  | firmwareRestart
  /-- BOOT (R625). Boot loads the fuse shadow, starts the PLL and islands, trains DRAM and discovers the flash. Operands: whether the root PLL locked, whether the flash has a valid table and a 1-4-4 read, the DRAM training step that failed, if one did, and the DQS oscillator count of each die. -/
  | boot (lock : Bool) (table : Bool) (fail : Option (Fin 4 × Fin 5)) (counts : List Nat)
  /-- BOOT_IMAGE_CHECK (R639). Boot reads and checks an image slot, falling back to the other slot or failing. -/
  | bootImageCheck
  /-- BOOT_FIRMWARE_START (R625). Firmware starts, scans the journal, restores trims, examines streams and enters PARKED. Operands: milliseconds from the release of reset. -/
  | bootFirmwareStart (ms : Nat)
  /-- TAP_RESET (R616). TRST_N or five TCK cycles with TMS high reset the JTAG TAP. -/
  | tapReset
  /-- EXTEST (R642). JTAG EXTEST drives boundary scan. Operands: the levels at the boundary cells, and what is shifted into them. -/
  | extest (pins : Nat) (cells : Nat)
  /-- SAMPLE_PRELOAD (R642). JTAG SAMPLE/PRELOAD samples and preloads boundary scan. Operands: the levels at the boundary cells, and what is shifted into them. -/
  | samplePreload (pins : Nat) (cells : Nat)
  /-- IDCODE (R642). JTAG IDCODE shifts out the 32-bit IDCODE. -/
  | idcode
  /-- JTAG_CLAMP (R642). JTAG CLAMP holds the boundary outputs and selects bypass. -/
  | jtagClamp
  /-- HIGHZ (R642). JTAG HIGHZ floats the outputs and selects bypass. -/
  | highz
  /-- BOOT_STATUS (R642). JTAG BOOT_STATUS shifts out CLK_BOOT and CLK_RST. -/
  | bootStatus
  /-- FUSE_READ (R642). JTAG FUSE_READ returns one word of the fuse shadow. Operands: the word of the shadow. -/
  | fuseRead (index : Fin 4096)
  /-- FUSE_PROG (R643). JTAG FUSE_PROG blows the selected locks at Update-DR. Operands: bit 0 OPEN_LOCK, bit 1 DEBUG_LOCK; and Tj in °C. -/
  | fuseProg (locks : Fin 4) (temp : Int)
  /-- REG_ACCESS (R642). JTAG REG_ACCESS reads or writes a register, acting as BYPASS after DEBUG_LOCK. Operands: the register by window and offset, 1 read or 2 write, the value written. -/
  | regAccess (blk : Block) (off : Nat) (op : Fin 4) (val : DWord)
  /-- DBG_ACCESS (R645). JTAG DBG_ACCESS issues a fabric request as requester 14. Operands: the fabric address, 1 read or 2 write, the data written. -/
  | dbgAccess (addr : Fin 1099511627776) (op : Fin 4) (data : List (BitVec 8))
  /-- CLE_PATCH (R644). JTAG CLE_PATCH writes or reads one control store word and sets PATCHED. Operands: the control store address, 1 write or 2 read, the microword written. -/
  | clePatch (addr : Fin 16384) (op : Fin 4) (val : BitVec 128)
  /-- BYPASS (R642). JTAG BYPASS selects the one-bit bypass register. Operands: 0xFF, or a code that Table 21-3 does not list. -/
  | bypass (code : Fin 256)
  /-- FUSE_ARB_SET (R641). A write to FUSE_ARB_SET blows ARB bits one at a time up to the target value. Operands: the value written. -/
  | fuseArbSet (target : Fin 128)
  /-- HOST_LINK_UP (R532). A head's PCIe link becomes active, giving the unit an active host link so that a CLAIM election and count-off can run. -/
  | hostLinkUp
  /-- COMMUTATION (R280). At the instant that the last accepted crossing predicts (RUN), or that the open-loop angle reaches the next 60° (RAMP), the SPN block advances the commutation step with its softened duty hand-over. -/
  | commutation
  /-- SUPPLY_REGAINED (R603). While FROST is set, every monitor rises to its trip level plus hysteresis and the thaw timer starts, setting THAWING. Operands: monitors, each with its reading in 10 µV; one that is not listed stands above its levels. -/
  | supplyRegained (levels : List (Nat × Nat))
  /-- THAW_TIMER_RESET (R603). A monitor falls below its trip level plus hysteresis but stays above the trip level, so the thaw timer resets to zero and PMU_CNT_THAWRST counts. Operands: monitors, each with the level in 10 µV below which it has fallen. -/
  | thawTimerReset (levels : List (Nat × Nat))
  /-- ASLEEP_RETRY (R569). Every 200 µs after an ASLEEP answer to an accepted group write, the coordinator resends the group request until the slow-member timeout. -/
  | asleepRetry
deriving DecidableEq, Repr

end Sys2Proof
end

