-- ==== Sys2Proof/Decode.lean ====
section
/-!
DEFINITION. The commands that a word spells. The table of operations and events gives none of its rows any bits, so
that a word spells no command.
-/

namespace Sys2Proof

/-- The command that the low `nbits` of `w` spell: none, since no row of the table has bits. -/
def decodeTableWord (_nbits _w : Nat) : Option Instr := none

end Sys2Proof
end

