-- ==== Sys2Proof/Machine/Crypto.lean ====
section
/-!
DEFINITION. The hashes and the signature that the spec names by their standards: SHA-256 and SHA-384 (FIPS 180-4), the
CRC-64 of R578, and ECDSA P-384 (R638).
-/

namespace Sys2Proof.Machine

/-- The greatest number whose cube does not exceed `n`, found bit by bit. -/
def icbrt (n : Nat) : Nat :=
  (List.range 96).foldr (fun i r => let c := r + 2 ^ i; if c * c * c ≤ n then c else r) 0

/-- Whether a number has no divisor from 2 up to itself. -/
def isPrime (n : Nat) : Bool := decide (2 ≤ n) && (List.range n).all fun i => i < 2 || n % i != 0

/-- The prime numbers below 410, of which there are 80. -/
def primes : List Nat := (List.range 410).filter isPrime

/-- The first `w` bits of the fractional part of a prime's cube root. -/
def cubeFrac (w p : Nat) : Nat := icbrt (p * 2 ^ (3 * w)) % 2 ^ w

/-- The first `w` bits of the fractional part of a prime's square root. -/
def squareFrac (w p : Nat) : Nat :=
  (List.range 72).foldr (fun i r => let c := r + 2 ^ i; if c * c ≤ p * 2 ^ (2 * w) then c else r) 0 % 2 ^ w

/-- The rotation of a word of `w` bits to the right. -/
def rotr (w n x : Nat) : Nat := (x >>> n ||| x <<< (w - n)) % 2 ^ w

/-- What the two word sizes of FIPS 180-4 differ in: bits, rounds, the rotations, round constants. -/
structure Sha where
  w : Nat
  big0 : Nat × Nat × Nat
  big1 : Nat × Nat × Nat
  small0 : Nat × Nat × Nat
  small1 : Nat × Nat × Nat
  keys : List Nat

/-- Three rotations added. -/
def rot3 (w : Nat) (r : Nat × Nat × Nat) (x : Nat) : Nat := rotr w r.1 x ^^^ rotr w r.2.1 x ^^^ rotr w r.2.2 x

/-- Two rotations and a shift added. -/
def rotShift (w : Nat) (r : Nat × Nat × Nat) (x : Nat) : Nat := rotr w r.1 x ^^^ rotr w r.2.1 x ^^^ x >>> r.2.2

/-- The message schedule: the last 16 words, newest first, one word more. -/
def shaNext (h : Sha) (l : List Nat) : Nat :=
  (rotShift h.w h.small1 (l.getD 1 0) + l.getD 6 0 + rotShift h.w h.small0 (l.getD 14 0) + l.getD 15 0) % 2 ^ h.w

/-- The rounds: working variables a to h, the schedule's words with their constants. -/
def shaRounds (h : Sha) : List Nat → List Nat → List Nat → List Nat
  | [], v, _ => v
  | k :: ks, v, l =>
    let w := l.getD 15 0
    let e := v.getD 4 0
    let a := v.getD 0 0
    let all := 2 ^ h.w - 1
    let ch := (e &&& v.getD 5 0) ^^^ ((all ^^^ e) &&& v.getD 6 0)
    let maj := (a &&& v.getD 1 0) ^^^ (a &&& v.getD 2 0) ^^^ (v.getD 1 0 &&& v.getD 2 0)
    let t1 := v.getD 7 0 + rot3 h.w h.big1 e + ch + k + w
    let t2 := rot3 h.w h.big0 a + maj
    shaRounds h ks [(t1 + t2) % 2 ^ h.w, a, v.getD 1 0, v.getD 2 0, (v.getD 3 0 + t1) % 2 ^ h.w, e, v.getD 5 0, v.getD 6 0]
      (shaNext h l :: l.take 15)

/-- The big-endian number that bytes spell. -/
def beNat (b : Bytes) : Nat := b.foldl (fun a x => 256 * a + x.toNat) 0

/-- The `n` bytes of a number, the most significant first. -/
def beBytes (n x : Nat) : Bytes := (leBytes n x).reverse

/-- One block. -/
def shaBlock (h : Sha) (state : List Nat) (b : Bytes) : List Nat :=
  let n := h.w / 8
  let ws := (List.range 16).map fun i => beNat ((b.drop (n * i)).take n)
  let v := shaRounds h h.keys state ws.reverse
  List.zipWith (fun x y => (x + y) % 2 ^ h.w) state v

/-- The blocks of a padded message. -/
def shaBlocks (h : Sha) : Nat → List Nat → Bytes → List Nat
  | 0, s, _ => s
  | k + 1, s, b => shaBlocks h k (shaBlock h s (b.take (2 * h.w))) (b.drop (2 * h.w))

/-- A message padded: a 1 bit, zeros, its length in bits in two words. -/
def shaPad (h : Sha) (b : Bytes) : Bytes :=
  let blk := 2 * h.w
  let len := h.w / 4
  let zeros := (2 * blk - (b.length + 1 + len) % blk) % blk
  b ++ [0x80#8] ++ List.replicate zeros 0#8 ++ beBytes len (8 * b.length)

/-- The digest's words. -/
def shaWords (h : Sha) (init : List Nat) (b : Bytes) : List Nat :=
  let p := shaPad h b
  shaBlocks h (p.length / (2 * h.w)) init p

/-- SHA-256's constants. -/
def sha256Cfg : Sha :=
  { w := 32, big0 := (2, 13, 22), big1 := (6, 11, 25), small0 := (7, 18, 3), small1 := (17, 19, 10)
    keys := (primes.take 64).map (cubeFrac 32) }

/-- SHA-384's constants. -/
def sha512Cfg : Sha :=
  { w := 64, big0 := (28, 34, 39), big1 := (14, 18, 41), small0 := (1, 8, 7), small1 := (19, 61, 6)
    keys := primes.map (cubeFrac 64) }

/-- SHA-256 (R578): 32 digest bytes. -/
def sha256 (b : Bytes) : Bytes :=
  (shaWords sha256Cfg ((primes.take 8).map (squareFrac 32)) b).flatMap (beBytes 4)

/-- SHA-384 (R633, R638): 48 digest bytes. -/
def sha384 (b : Bytes) : Bytes :=
  ((shaWords sha512Cfg (((primes.drop 8).take 8).map (squareFrac 64)) b).take 6).flatMap (beBytes 8)

/-- CRC-64 of R578: polynomial 0x42F0_E1EB_A9EA_3693, initial value 0, not reflected. -/
def crc64 (b : Bytes) : Nat := crcMsb 64 0x42F0E1EBA9EA3693 0 b

/-! ECDSA P-384. PRESUMED: the curve is the one the name stands for in FIPS 186 (notes/assumptions/42.md). -/

/-- The field prime. -/
def pPrime : Nat := 2 ^ 384 - 2 ^ 128 - 2 ^ 96 + 2 ^ 32 - 1

/-- The order of the base point. -/
def pOrder : Nat :=
  0xffffffffffffffffffffffffffffffffffffffffffffffffc7634d81f4372ddf581a0db248b0a77aecec196accc52973

/-- The curve's coefficient b. -/
def pCoef : Nat :=
  0xb3312fa7e23ee7e4988e056be3f82d19181d9c6efe8141120314088f5013875ac656398d8a2ed19d2a85c8edd3ec2aef

/-- The base point. -/
def pBase : Nat × Nat :=
  (0xaa87ca22be8b05378eb1c71ef320ad746e1d3b628ba79b9859f741e082542a385502f25dbf55296c3a545e3872760ab7,
   0x3617de4a96262c6f5d9e98bf9292dc29f8f41dbd289a147ce9da3113b5f0b8c00a60b1ce1d7e819d7a431d7c90ea0e5f)

/-- A power modulo `m`, by the exponent's 384 bits, the most significant first. -/
def powMod (m a e : Nat) : Nat :=
  (List.range 384).foldr (fun i r => if e.testBit i then r * r % m * a % m else r * r % m) 1

/-- The inverse modulo a prime. -/
def invMod (m a : Nat) : Nat := powMod m (a % m) (m - 2)

/-- A difference modulo the field prime. -/
def pSub (a b : Nat) : Nat := (a + (pPrime - b % pPrime)) % pPrime

/-- A point in Jacobian coordinates: x = X ÷ Z², y = Y ÷ Z³; the point at infinity has Z = 0. -/
abbrev JPoint := Nat × Nat × Nat

/-- A point doubled. -/
def jDouble (a : JPoint) : JPoint :=
  let z2 := a.2.2 * a.2.2 % pPrime
  let y2 := a.2.1 * a.2.1 % pPrime
  let b := a.1 * y2 % pPrime
  let m := 3 * (pSub a.1 z2 * (a.1 + z2)) % pPrime
  let x := pSub (m * m) (8 * b)
  (x, pSub (m * pSub (4 * b) x) (8 * y2 * y2), 2 * a.2.1 * a.2.2 % pPrime)

/-- The sum of two points. -/
def jAdd (a b : JPoint) : JPoint :=
  if a.2.2 = 0 then b
  else if b.2.2 = 0 then a
  else
    let az := a.2.2 * a.2.2 % pPrime
    let bz := b.2.2 * b.2.2 % pPrime
    let u := a.1 * bz % pPrime
    let s := a.2.1 * b.2.2 * bz % pPrime
    let h := pSub (b.1 * az) u
    let r := pSub (b.2.1 * a.2.2 * az) s
    if h = 0 then (if r = 0 then jDouble a else (1, 1, 0))
    else
      let h2 := h * h % pPrime
      let v := u * h2 % pPrime
      let x := pSub (r * r) (h * h2 + 2 * v)
      (x, pSub (r * pSub v x) (s * h * h2), h * a.2.2 * b.2.2 % pPrime)

/-- A multiple of a point. -/
def jMul (k : Nat) (a : JPoint) : JPoint :=
  (List.range 384).foldr (fun i r => let t := jDouble r; if k.testBit i then jAdd t a else t) (1, 1, 0)

/-- Whether a point lies on the curve. -/
def onCurve (a : Nat × Nat) : Bool :=
  a.1 < pPrime && a.2 < pPrime && a.2 * a.2 % pPrime == (a.1 * a.1 * a.1 + (pPrime - 3) * a.1 + pCoef) % pPrime

/-- Whether a signature of 96 bytes over a message verifies with a key of 96 bytes, all big-endian (R637, R638). -/
def ecdsaOk (key sig msg : Bytes) : Bool :=
  let q := (beNat (key.take 48), beNat (key.drop 48))
  let r := beNat (sig.take 48)
  let s := beNat (sig.drop 48)
  if !onCurve q || r = 0 || pOrder ≤ r || s = 0 || pOrder ≤ s then false
  else
    let w := invMod pOrder s
    let e := beNat (sha384 msg)
    let p := jAdd (jMul (e * w % pOrder) (pBase.1, pBase.2, 1)) (jMul (r * w % pOrder) (q.1, q.2, 1))
    p.2.2 != 0 && p.1 * invMod pPrime (p.2.2 * p.2.2) % pPrime % pOrder == r

end Sys2Proof.Machine
end

