-- ==== Sys2Proof/Config.lean ====
section
/-!
DEFINITION. What the spec leaves open: free values, on which nothing in Lean puts a value.
-/

namespace Sys2Proof

/-- A free value, one for each number; State's counter makes each use a new one. -/
opaque Config.freeValue : Nat → Nat


/-- Whether a quotient that is no whole number is taken upward, where the spec gives a unit and no rounding. -/
opaque Config.roundUp : Nat → Nat → Bool

/-- Which of two zeros of different sign MIN or MAX writes (R200): the first source's or not. The spec states no
result there. -/
opaque Config.firstZero : Bool → Nat → Nat → Bool

/-- Whether FMA and FNMA set NV for zero times infinity with a quiet NaN as addend: binary32 arithmetic leaves it to the
implementation and the spec states none (R227). -/
opaque Config.nanAddendFlag : Bool

/-- What the TRK observer predicts from its estimate, its rate and the code before, all binary32 (R247): the spec names
the reference actuator's model and gives no formula. -/
opaque Config.observer : Nat → Nat → Nat → Nat × Nat

/-- The share of a new value that the SLC low pass takes up each sample, in binary32 (R251): the spec gives its time
constant and not its form. -/
opaque Config.lowPass : Nat

/-- What the continuous-time filter of a slice gives at an ADC sample (R73): its corner in kHz, its boost in units of 0.5 dB,
and the voltages ahead of it at the latest samples, newest first, in picovolts. The spec names a 4th-order low-pass and not its
form. -/
opaque Config.ctf : Nat → Nat → List Int → Int

/-- How much one unit of the timing error, before the shifts of RCS_TR, adds to the phase accumulator and the integrator, in
units of 2^-40 (R85): the spec states no unit. -/
opaque Config.errorUnit : Int

/-- Whether the test mode's LFSR, in a state, flips a bit at an ERR_EXP (R149): the spec gives the polynomial and the
probability and not how one makes the other. -/
opaque Config.testFlip : Nat → Nat → Bool

/-- The lead of a write spot over its read spot in nanometres, by OPU and lane: the spec gives the range of 3.0 µm to 8.0 µm
(R160). -/
opaque Config.spotLead : Nat → Nat → Nat

/-- The duty that the regulator of a sled winding gives its bridge in a period (R309): of which OPU, winding B, the set current in µA
with ISCALE, and the Quire time. The spec fixes its gains in hardware and states none. -/
opaque Config.windingDuty : Nat → Bool → Int × Nat → Nat → Nat

/-- BURST_MIN, the least A + B that gives a position (R241): no value is stated. -/
opaque Config.burstMin : Nat

/-- The APC bank's initial SLOPE, SCALE_MAX and SCALE_INIT (R252): no value is stated. -/
opaque Config.apcBank : Nat × Nat × Nat

end Sys2Proof
end

