-- ==== Sys2Proof/Machine/Format.lean ====
section
/-!
DEFINITION. The Ferola media format (02_ferola_format.md): geometry, the servo field, the leaf frame, LC23, the
scrambler, the LDPC family, leaf metadata, the outer code, the interleave and the addresses.
-/

namespace Sys2Proof.Machine

/-- The zone of a track (R32). -/
def zoneOf (t : Nat) : Nat := limitN 0 31 (t / 4728)

/-- The class number K of a zone (Table 2-1). -/
def classOfZone (z : Nat) : Nat :=
  if z ≤ 2 then 4 else if z ≤ 7 then 5 else if z ≤ 12 then 6 else if z ≤ 16 then 7 else 8

/-- The class number K of a track. -/
def classOf (t : Nat) : Nat := classOfZone (zoneOf t)

/-- The radius of a track in nanometres (R31): 24.000 mm + t × 0.225 µm. -/
def radiusNm (t : Nat) : Nat := 24000000 + 225 * t

/-- The servo field in channel bits (R33). -/
def servoBits (k : Nat) : Nat := 300 * k

/-- The jump gap in channel bits (R33). -/
def gapBits (k : Nat) : Nat := 4200 * k

/-- The data field in channel bits (Table 2-2). -/
def dataBits (k : Nat) : Nat :=
  if k ≤ 4 then 19620 else if k = 5 then 24525 else if k = 6 then 29429 else if k = 7 then 34334 else 39239

/-- Channel bits per revolution (R36, Table 2-2). -/
def revBits (k : Nat) : Nat := gapBits k + 432 * (servoBits k + dataBits k)

/-- The nominal speed of a class in 1/100 rpm (Table 2-3). -/
def nominalCentiRpm (k : Nat) : Nat :=
  if k ≤ 4 then 266171 else if k = 5 then 212937 else if k = 6 then 177447 else if k = 7 then 152098 else 133086

/-- The first channel bit of the data field of wedge `w`, counted from the index (R37). -/
def dataFieldStart (k w : Nat) : Nat := gapBits k + (w + 1) * servoBits k + w * dataBits k

/-- A servo bit that a dibit codes: 1 as 1, 0 and 0 as 0, 1 (R39). -/
def dibit (b : Bool) : List Bool := [b, !b]

/-- The Gray code of a number (R39). -/
def gray (t : Nat) : Nat := t ^^^ (t >>> 1)

/-- The number whose Gray code is `g`, for `g` of `w` bits. -/
def ungray (w g : Nat) : Nat := (List.range w).foldl (fun a i => a ^^^ (g >>> i)) 0

/-- One burst of 36 servo bits: 1, 0 repeated 18 times inside its band, space elsewhere (Table 2-4). -/
def burstBits (inside : Bool) : List Bool := (List.range 36).map fun i => inside && i % 2 == 0

/-- The 300 servo bits of wedge `k` on track `t` of a side and layer, as a spot centred on the track passes them
(R38, R39, R40). A spot centred on a track takes bursts A and B as present; C belongs to even tracks, D to odd. -/
def servoField (k side layer t : Nat) : List Bool :=
  ((List.range 56).map fun i => i % 2 == 1)
  ++ [false, false, false, false, true, true, true, true, false, false, true, false]
  ++ (msbBits 9 k ++ [parityOf 9 k]).flatMap dibit
  ++ ((side == 1) :: msbBits 3 layer ++ [!(parityOf 4 (8 * side + layer))]).flatMap dibit
  ++ (msbBits 20 (gray t)).flatMap dibit
  ++ burstBits true ++ burstBits true ++ burstBits (t % 2 == 0) ++ burstBits (t % 2 == 1)
  ++ List.replicate 18 false

/-- The bit that a dibit spells: none when its two servo bits agree (R39). -/
def undibit (a b : Bool) : Option Bool := if a == b then none else some a

/-- The number of parity circulants m of an inner level (Table 2-8). -/
def ldpcRows (level : Nat) : Nat :=
  if level = 0 then 4 else if level = 1 then 8 else if level = 2 then 12 else 20

/-- The codeword bits sent at an inner level (Table 2-8): 32,896 information bits and m blocks of 512. -/
def codewordBits (level : Nat) : Nat := 32896 + 512 * ldpcRows level

/-- The framed leaf length F at an inner level (R42). -/
def frameBits (level : Nat) : Nat := 192 + 48 + codewordBits level / 2 * 3 + 32

/-- The 192 preamble bits: 100 repeated 64 times (Table 2-5). -/
def preambleBits : List Bool := (List.replicate 64 [true, false, false]).flatten

/-- The sync mark, bit 47 first (Table 2-5). -/
def syncMarkBits : List Bool := msbBits 48 0x8040244A2124

/-- The 32 pad bits: 0010 repeated 8 times (Table 2-5). -/
def padBits : List Bool := (List.replicate 8 [false, false, true, false]).flatten

/-- The base code of a data pair (Table 2-6). -/
def lcBase (a b : Bool) : List Bool :=
  match a, b with
  | false, false => [false, true, false]
  | false, true => [false, false, true]
  | true, false => [true, false, true]
  | true, true => [true, false, false]

/-- The substitution of a pair 01 or 10 with the following pair 10 or 11 (Table 2-7). -/
def lcSubst (a : Bool) (d : Bool) : List Bool :=
  (match a, d with
   | false, false => [false, false, true]
   | false, true => [false, true, false]
   | true, false => [true, false, true]
   | true, true => [true, false, false]) ++ [false, false, false]

/-- LC23 encoding of codeword bits, pair by pair (R44). -/
def lcEncode : List Bool → List Bool
  | a :: b :: c :: d :: rest =>
    if (a != b) && c then lcSubst a d ++ lcEncode rest
    else lcBase a b ++ lcEncode (c :: d :: rest)
  | [a, b] => lcBase a b
  | [_, _, _] => []
  | [_] => []
  | [] => []

/-- The pair that a group decodes to alone (Table 2-6); the group 000 and the groups no pair has decode to none. -/
def lcGroup (x y z : Bool) : Option (Bool × Bool) :=
  match x, y, z with
  | false, true, false => some (false, false)
  | false, false, true => some (false, true)
  | true, false, true => some (true, false)
  | true, false, false => some (true, true)
  | _, _, _ => none

/-- The two pairs that a group followed by 000 decodes to (Table 2-7). -/
def lcGroupSubst (x y z : Bool) : Option (List Bool) :=
  match x, y, z with
  | false, false, true => some [false, true, true, false]
  | false, true, false => some [false, true, true, true]
  | true, false, true => some [true, false, true, false]
  | true, false, false => some [true, false, true, true]
  | _, _, _ => none

/-- LC23 decoding, three channel bits at a time (R45); none where a group is no code group. -/
def lcDecode : List Bool → Option (List Bool)
  | x :: y :: z :: u :: v :: w :: rest =>
    if !u && !v && !w then
      (lcGroupSubst x y z).bind fun g => (lcDecode rest).map (g ++ ·)
    else
      (lcGroup x y z).bind fun g => (lcDecode (u :: v :: w :: rest)).map ([g.1, g.2] ++ ·)
  | [x, y, z] => (lcGroup x y z).map fun g => [g.1, g.2]
  | [] => some []
  | _ => none

/-- The scrambler seed of a track (R46). -/
def scramblerSeed (side layer t : Nat) : Nat := 1 + (t + 151111 * (8 * side + layer)) % 65535

/-- One step of the scrambler's register (R46). -/
def scramblerStep (s : Nat) : Nat :=
  ((s <<< 1) ||| bit ((s.testBit 15 != s.testBit 13) != (s.testBit 12 != s.testBit 10))) % 65536

/-- The polarity bit of data field k (R46): step k's output S[15]. -/
def polarity (side layer t k : Nat) : Bool := (iter scramblerStep k (scramblerSeed side layer t)).testBit 15

/-- Recorded levels of NRZI channel bits that start at a level: a 1 is a transition (R44, R46). -/
def nrzi : Bool → List Bool → List Bool
  | _, [] => []
  | lvl, b :: bs => let l := lvl != b; l :: nrzi l bs

/-- The shift of the circulant at block row `i` and information column `c` (R47). -/
def ldpcShift (i c : Nat) : Nat := ((2 * i + 1) * (c * c + 7 * c + 13) + 61 * i) % 512

/-- Whether information column `c` has a circulant in block row `i` of m rows (R47). -/
def ldpcPlaced (m i c : Nat) : Bool := (List.range 4).any fun k => (c + k * (m / 4)) % m == i

/-- P^s applied to a column of 512 bits held as a number: element x is bit (x + s) mod 512 (R47, R49). -/
def circShift (s col : Nat) : Nat := ((col >>> s) ||| (col <<< (512 - s))) % 2 ^ 512

/-- Information column `c` of the information bits, held as a number with u0 as bit 0 (R48). -/
def infoCol (u c : Nat) : Nat := (u >>> (512 * c)) % 2 ^ 512

/-- The sum q[i] of the placed information columns (R49). -/
def ldpcSum (m i u : Nat) : Nat :=
  (List.range 65).foldl
    (fun a c => if ldpcPlaced m i c then a ^^^ circShift (ldpcShift i c) (infoCol u c) else a) 0

/-- The parity blocks p0 to p(m-1), in order (R49). -/
def ldpcParity (m u : Nat) : List Nat :=
  ((List.range m).foldl (fun (acc : List Nat × Nat) i =>
    let p := ldpcSum m i u ^^^ acc.2
    (acc.1 ++ [p], p)) ([], 0)).1

/-- The codeword sent, as a number with b0 as bit 0: the information bits, then the parity blocks (R49). -/
def ldpcEncode (level u : Nat) : Nat :=
  let v := u % 2 ^ 32896
  ((ldpcParity (ldpcRows level) v).zipIdx).foldl (fun a e => a + e.1 <<< (32896 + 512 * e.2)) v

/-- The bits of a codeword, b0 first. -/
def codewordList (level w : Nat) : List Bool := (List.range (codewordBits level)).map fun i => w.testBit i

/-- The channel bits of a leaf frame (R42): preamble, sync mark, LC23 data and pad. -/
def leafFrame (level w : Nat) : List Bool :=
  preambleBits ++ syncMarkBits ++ lcEncode (codewordList level w) ++ padBits

/-- The parity check sums of a received codeword: bit x of block row i of H applied to it (R47). -/
def ldpcCheckRow (level w i : Nat) : Nat :=
  let m := ldpcRows level
  let par := fun j => (w >>> (32896 + 512 * j)) % 2 ^ 512
  ldpcSum m i (w % 2 ^ 32896) ^^^ par i ^^^ (if i = 0 then 0 else par (i - 1))

/-- Whether every check of H holds. -/
def ldpcOk (level w : Nat) : Bool :=
  (List.range (ldpcRows level)).all fun i => ldpcCheckRow level w i == 0

/-- P as its code in leaf flags [7:6] (Table 2-9). -/
def pCode (p : Nat) : Nat := if p = 4 then 0 else if p = 6 then 1 else if p = 8 then 2 else 3

/-- The first twelve metadata bytes of a leaf (Table 2-9). -/
def leafMetaHead (psa leaf p level lsn : Nat) : Bytes :=
  leBytes 5 psa ++ leBytes 1 leaf
  ++ leBytes 1 (pCode p * 64 + level % 4 * 16 + (if leaf < 32 then 0 else 8)) ++ [0#8] ++ leBytes 4 lsn

/-- The leaf check (R50, R51): CRC-32C over the data bytes and metadata bytes 0 to 11. -/
def leafCheck (dat : Bytes) (head : Bytes) : Nat := crc32c (dat ++ head)

/-- The 4,112 bytes of a leaf: data, metadata and the leaf check (R50). -/
def leafBytes (dat : Bytes) (psa leaf p level lsn : Nat) : Bytes :=
  let h := leafMetaHead psa leaf p level lsn
  dat ++ h ++ leBytes 4 (leafCheck dat h)

/-- The outer generator polynomial, highest coefficient first (R52): the product of (x - α^i) for i below P. -/
def rsGenerator (p : Nat) : List Nat :=
  (List.range p).foldl (fun g i =>
    let r := gfPow 2 i
    List.zipWith (· ^^^ ·) (g ++ [0]) (0 :: g.map (gfMul r))) [1]

/-- One step of the division by the outer generator, for a remainder of P symbols, highest first. -/
def rsStep (gen : List Nat) (rem : List Nat) (d : Nat) : List Nat :=
  let f := d ^^^ rem.headD 0
  List.zipWith (· ^^^ ·) (rem.drop 1 ++ [0]) ((gen.drop 1).map (gfMul f))

/-- The P parity symbols of 32 data symbols, the symbol of leaf 32 first (R52). -/
def rsParity (p : Nat) (dat : List Nat) : List Nat :=
  dat.foldl (rsStep (rsGenerator p)) (List.replicate p 0)

/-- The parity leaves' data of 32 data leaves: one outer codeword for each byte position (R52). -/
def outerEncode (p : Nat) (leaves : List Bytes) : List Bytes :=
  let cols := (List.range 4096).map fun b => rsParity p (leaves.map fun l => (l.getD b 0#8).toNat)
  (List.range p).map fun j => cols.map fun c => BitVec.ofNat 8 (c.getD j 0)

/-- A side's strength: its inner level and P (R53). -/
structure Strength where
  level : Nat
  p : Nat
deriving DecidableEq, Repr

/-- The default strength, I1 with P = 6, that the system area always has (R53). -/
def systemStrength : Strength := { level := 1, p := 6 }

/-- The strength that applies on a track: I1 with P = 6 on tracks 0 to 1,199, the side's on the others (R53, R60). -/
def strengthAt (side : Strength) (t : Nat) : Strength := if t < 4200 then systemStrength else side

/-- The leaves n of a sheet. -/
def leavesOf (st : Strength) : Nat := 32 + st.p

/-- The leaf positions L of a track of class K (R54). -/
def leafPositions (k level : Nat) : Nat := 432 * dataBits k / frameBits level

/-- The sheet slots K' of a track of class K (R54). -/
def slotsPerTrack (k : Nat) (st : Strength) : Nat := leafPositions k st.level / leavesOf st

/-- The sheet slots of a track. -/
def slotsOf (st : Strength) (t : Nat) : Nat := slotsPerTrack (classOf t) (strengthAt st t)

/-- The leaf position of leaf `j` of the sheet in slot `s` (R55). -/
def leafPos (k' j s : Nat) : Nat := j * k' + s

/-- The tracks of each class in a layer's data area, tracks 4,200 to 151,103, as (class, count). -/
def dataAreaTracks : List (Nat × Nat) := [(4, 9984), (5, 23640), (6, 23640), (7, 18912), (8, 70728)]

/-- The sheet slots S of a layer's data area (R57). -/
def dataAreaSlots (st : Strength) : Nat :=
  (dataAreaTracks.map fun e => e.2 * slotsPerTrack e.1 st).sum

/-- The spare slots of a layer's data area: ⌊0.04459 × S⌋ (R57). -/
def spareSlots (st : Strength) : Nat := 4459 * dataAreaSlots st / 100000

/-- The user sheets of a layer (R57). -/
def userSheets (st : Strength) : Nat := dataAreaSlots st - spareSlots st

/-- The areas of a layer (Table 2-10). -/
inductive Area where
  | mediaRecord | formatRecord | opcTest | reserved | checkpoint | data | guardTracks
deriving DecidableEq, Repr

/-- The area a track lies in (R56). -/
def areaOf (t : Nat) : Area :=
  if t < 12 then .mediaRecord else if t < 24 then .formatRecord else if t < 1032 then .opcTest
  else if t < 1200 then .reserved else if t < 4200 then .checkpoint else if t < 151104 then .data
  else .guardTracks

/-- A physical sheet address as its fields (R59). -/
def psaSide (a : Nat) : Nat := bitsOf a 39 1
/-- Bits 38 to 36 of a PSA (R59). -/
def psaLayer (a : Nat) : Nat := bitsOf a 36 3
/-- Bits 35 to 18 of a PSA (R59). -/
def psaTrack (a : Nat) : Nat := bitsOf a 18 18
/-- Bits 17 to 9 of a PSA, reserved (R59). -/
def psaReserved (a : Nat) : Nat := bitsOf a 9 9
/-- Bits 8 to 6 of a PSA (R59). -/
def psaSlot (a : Nat) : Nat := bitsOf a 6 3
/-- Bits 5 to 0 of a PSA (R59). -/
def psaLeaf (a : Nat) : Nat := bitsOf a 0 6

/-- The PSA of a leaf (R59). -/
def mkPsa (side layer track slot leaf : Nat) : Nat :=
  side <<< 39 + layer <<< 36 + track <<< 18 + slot <<< 6 + leaf

/-- Whether a PSA is valid at its side's format strength (R60). -/
def psaValid (st : Strength) (a : Nat) : Bool :=
  a < 2 ^ 40 && psaReserved a == 0 && psaTrack a < 151104 && psaSlot a < slotsOf st (psaTrack a)
    && psaLeaf a < leavesOf (strengthAt st (psaTrack a))

/-- Whether a PSA is a valid sheet address: its leaf field is zero as well (R59). -/
def sheetPsaValid (st : Strength) (a : Nat) : Bool := psaValid st a && psaLeaf a == 0

/-- The track that spot `s` follows on read band `b` (R62). -/
def readTrack (b s : Nat) : Nat := 24 * b + s

/-- The track that write spot or read spot `w` follows on record band `c` (R63). -/
def recordTrack (c w : Nat) : Nat := 12 * c + w

/-- The last read band of a layer (R66). -/
def lastReadBand : Nat := 6295

/-- The LSN value that means no sheet (R61). -/
def noSheet : Nat := 0xFFFFFFFF

end Sys2Proof.Machine
end

