-- ==== Sys2Proof/Machine/Sparse.lean ====
section
/-!
DEFINITION. Reading and writing a sparse store. An unlisted key reads as the default; a write keeps the keys strictly
rising and never lists the default, so that equal stores are equal lists.
-/

namespace Sys2Proof.Machine

/-- The value of key `k`, or the default `d` when it is not listed. -/
def sparseGet {α : Type} (d : α) : Sparse α → Nat → α
  | [], _ => d
  | (a, v) :: m, k => if a = k then v else sparseGet d m k

/-- The store with the entry (k, v) put before the first greater key. -/
def sparseIns {α : Type} : Sparse α → Nat → α → Sparse α
  | [], k, v => [(k, v)]
  | (a, w) :: m, k, v => if k < a then (k, v) :: (a, w) :: m else (a, w) :: sparseIns m k v

/-- The store without the keys of which `p` holds. -/
def sparseDrop {α : Type} (p : Nat → Bool) (m : Sparse α) : Sparse α :=
  m.filter fun e => !p e.1

/-- The store with key `k` holding `v`; the default is not listed. -/
def sparseSet {α : Type} [DecidableEq α] (d : α) (m : Sparse α) (k : Nat) (v : α) : Sparse α :=
  if v = d then sparseDrop (· == k) m else sparseIns (sparseDrop (· == k) m) k v

/-- The canonical form: keys strictly rising, and no key listed with the default value. -/
abbrev sparseWf {α : Type} (d : α) (m : Sparse α) : Prop :=
  m.Pairwise (fun a b => a.1 < b.1) ∧ ∀ e ∈ m, e.2 ≠ d

end Sys2Proof.Machine
end

