-- ==== Sys2Proof/Machine/State.lean ====
section
/-!
DEFINITION. The state of one XV96 unit, as plain data: the register store, every engine's own state, the memories, the
fuse bank and the queue of waiting commands. INVENTORY.md names the rule behind each field. A field's default value is
its value at reset.
-/

namespace Sys2Proof.Machine

/-- Why a step stops without a next state and with the machine at fault. The spec gives every command of the table an
effect, so that no meaning raises one: the type has no constructor. -/
inductive Fault
deriving DecidableEq, Repr

/-- Why a command has no meaning. -/
inductive Refusal where
  /-- The command's meaning is not written: raised by Dispatch only. Safe: the run ends. -/
  | notModelled (mnemonic : String)
deriving DecidableEq, Repr

/-! Islands (01_architecture.md). -/

/-- The stage of an OPU island (R26). -/
inductive OpuStage where
  | off | powering | ready
deriving DecidableEq, Repr


/-- A register access that waits for an OPU island to become ready (R27): the island, the requester, whether a write, the register
by window and offset, and the value written. -/
structure StalledAccess where
  opu : Nat := 0
  req : Nat := 0
  write : Bool := false
  blk : Block := .rcs
  off : Nat := 0
  val : DWord := 0#32
deriving DecidableEq, Repr

/-! The Ream journal (13_ream_journal.md). -/

/-- A record submitted to the journal and not yet written (R416): its ring, the 64 bytes submitted, and the Quire time
of its acceptance. -/
structure Submission where
  event : Bool := false
  bytes : Bytes := []
  qtime : Nat := 0
deriving DecidableEq, Repr

/-- A last-gasp entry (Table 13-5). -/
structure Gasp where
  qtime : Nat := 0
  code : Nat := 0
  bank : Nat := 0
  row : Nat := 0
  seqlo : Nat := 0
deriving DecidableEq, Repr

/-- The two superblock copies that manufacture wrote into each bank: identifier, format version and bank number (Table
13-1); a bank's rows start at bank × 131,072, its spare rows 65,536 above that. -/
def superblocks : List (Nat × Word) :=
  [(0, 0x100000000 + 0x4C524E4A#128), (8, 0x100000000 + 0x4C524E4A#128),
   (131072, 0x10000000100000000 + 0x4C524E4A#128), (131080, 0x10000000100000000 + 0x4C524E4A#128)]

/-- The journal beside its registers. -/
structure Journal where
  /-- the rows of both banks; an unlisted row reads zero -/
  rows : Sparse Word := superblocks
  /-- submissions accepted and not yet written, oldest first, at most 8 (R416) -/
  queue : List Submission := []
  /-- fabric writes that wait for room in the queue, oldest first -/
  waiting : List Submission := []
  /-- records of firmware that met an error response at a seal and are submitted again after the thaw (R424) -/
  held : List Submission := []
  /-- a frost line has reached the journal and the seal is not complete (Table 13-4, t1 to t4) -/
  sealing : Bool := false
  /-- the staged FROST payload, 44 bytes (R424) -/
  staged : Bytes := []
  /-- the last-gasp entries by index (R427) -/
  gasps : Sparse Gasp := []
  /-- events the last-gasp log has recorded since power-on -/
  gaspCount : Nat := 0
deriving DecidableEq, Repr

/-! Read channel slices (03_read_channel_slices.md). -/

/-- The facts of a captured leaf (Table 3-4), with the format it was captured under. -/
structure LeafFacts where
  rcs : Nat := 0
  role : Nat := 0
  track : Nat := 0
  side : Nat := 0
  layer : Nat := 0
  pos : Nat := 0
  slot : Nat := 0
  leaf : Nat := 0
  syncFound : Bool := false
  syncOfs : Int := 0
  syncMis : Nat := 0
  marked : Nat := 0
  tloss : Bool := false
  tgt : Nat := 0
  blank : Bool := false
  level : Nat := 1
  pcode : Nat := 1
deriving DecidableEq, Repr

/-- One equaliser output with its erasure mark (R81, R119). -/
structure Sample where
  y : Int := 0
  marked : Bool := false
deriving DecidableEq, Repr

/-- A leaf framed by its slice and not yet deposited (R107): its facts, the outputs from 8 channel bits before its
first data bit on, the data-stream position of the first data bit, and the target taps latched at capture (R111). -/
structure Captured where
  facts : LeafFacts := {}
  start : Nat := 0
  ys : List Sample := []
  /-- where a later data field starts among `ys`, with its polarity bit (R113) -/
  cuts : List (Nat × Bool) := []
  taps : Nat × Nat × Nat := (1, 2, 2)
  /-- SDE_DET_CTL and SDE_DET_LLR in force at its capture (R154) -/
  detCtl : DWord := BitVec.ofNat 32 Reg.SDE_DET_CTL.reset
  detLlr : DWord := BitVec.ofNat 32 Reg.SDE_DET_LLR.reset
  /-- the revolution count at its capture, and the Quire time at its last data bit (R121) -/
  rev : Nat := 0
  qtime : Nat := 0
deriving DecidableEq, Repr

/-- Where a slice's signal stands in a revolution (R33, R41). -/
inductive Zone where
  | gap | servo | field
deriving DecidableEq, Repr

/-- A leaf whose capture has begun and that is not framed yet: its position, its TLOSS fact so far, the target in use and its
taps as latched at its start (R91, R111), and the revolution count then. -/
structure Begun where
  pos : Nat := 0
  tloss : Bool := false
  tgt : Nat := 0
  taps : Nat × Nat × Nat := (1, 2, 2)
  rev : Nat := 0
deriving DecidableEq, Repr

/-- What a servo field gave of its identity (R94, R162): track, side and layer, and which of them are valid. -/
structure WedgeRec where
  track : Nat := 0
  side : Nat := 0
  layer : Nat := 0
  tvalid : Bool := false
  ambig : Bool := false
  slvalid : Bool := false
deriving DecidableEq, Repr

/-- One read channel slice beside its registers. -/
structure Slice where
  /-- the voltages ahead of the CTF at the latest ADC samples, in picovolts, newest first, at most 32 (R73) -/
  volts : List Int := []
  /-- the latest ADC codes with their erasure marks, newest first, at most 4 (R76, R82) -/
  codes : List (Int × Bool) := []
  /-- ADC samples since the latest jump gap began -/
  at_ : Nat := 0
  /-- samples still to be marked after the latest over-range sample (R78) -/
  tail : Nat := 0
  /-- the phase accumulator in units of 2^-40, and the integrator's 16 bits below RCS_NCO.STEP (R82, R85) -/
  mu : Int := 0
  frac : Nat := 0
  /-- the next T/2 sample completes a channel bit -/
  half : Bool := false
  /-- the output and the ideal level of the channel bit before, unless it was marked (R85) -/
  prev : Option (Int × Int) := none
  /-- the latest magnitudes of the timing error, newest first, at most 64, and for how many channel bits in a row their mean
  has stood above 4 × LOCK_THR (R88) -/
  errs : List Nat := []
  above : Nat := 0
  /-- the loop has tried to drive its step below 0.25 (R83) -/
  low : Bool := false
  /-- a preset has been loaded and no servo mark found since (R86) -/
  acq : Bool := false
  /-- where the signal stands: in which zone, how many channel bits into it, and the wedge of that or the latest servo field -/
  zone : Zone := .gap
  place : Nat := 0
  wedge : Nat := 0
  /-- the data-stream bit counter (R96) -/
  count : Nat := 0
  /-- the least and the greatest ADC code of the middle half of the present preamble, whether a sample of that preamble is
  marked, and whether the preamble has ended and no AGC update has followed (R72) -/
  agc : Option (Int × Int) := none
  agcMarked : Bool := false
  agcDue : Bool := false
  /-- the outputs of the latest servo field, newest first, whether its mark has been searched for, and the offset in channel
  bits at which it was found (R93) -/
  servo : List Sample := []
  searched : Bool := false
  found : Option Int := none
  /-- a sample of the latest servo record is marked (R94) -/
  recMarked : Bool := false
  /-- what each wedge of this revolution gave of its identity (R103, R162) -/
  ids : Sparse WedgeRec := []
  /-- sign changes of the outputs since 24 bits before the present leaf position, and the sign of the latest (R106) -/
  changes : Nat := 0
  minus : Bool := false
  /-- the deskew buffer: outputs written and not yet released, newest first, the newest at position `count` - 1 (R98) -/
  buf : List Sample := []
  /-- outputs released and still needed for a leaf, newest first, and the position after the newest -/
  out : List Sample := []
  outEnd : Nat := 0
  /-- leaves whose capture has begun, the earliest first -/
  begun : List Begun := []
  /-- wedges in a row without a servo mark (R88) -/
  missed : Nat := 0
  /-- RCS_CAP.SLOTS as latched at the gap (R101) -/
  cap : Nat := 0
  /-- RCS_AFE as it acts on the signal (R75) -/
  afe : DWord := BitVec.ofNat 32 Reg.RCS_AFE.reset
  /-- RCS_TRIM as it acts on the signal (R75) -/
  trim : DWord := 0#32
  /-- the target and live set in use (R91) -/
  tgt : Nat := 0
  /-- a step written with NOW = 0, waiting for the next jump gap (R84) -/
  preset : Option Nat := none
  /-- dropped from deskew release until the next jump gap (R99) -/
  dropped : Bool := false
  /-- EN was cleared during a leaf capture (R108) -/
  stopping : Bool := false
  /-- the live coefficients with 18 fractional bits, key 16 * set + tap (R92); taps 7 and 8 reset to 0.5 -/
  coef : Sparse Int := []
  /-- the 16 most recent T/2 samples, newest first, with their marks (R89) -/
  hist : List (Int × Bool) := []
  /-- the most recent |y| values of unmarked, unflagged data bits, newest first, at most 1,024 (R117) -/
  refs : List Nat := []
  /-- the most recent 16 values of |y|, newest first (R117) -/
  env : List Nat := []
  /-- the data-stream positions flagged before widening, of this revolution and of the one before, newest first (R117) -/
  hits : List Nat := []
  oldHits : List Nat := []
  /-- the leaf framed and not yet deposited -/
  capt : Option Captured := none
deriving DecidableEq, Repr

/-- What the slices of one OPU latch together at a jump gap (R101, R154), its revolution count (Table 4-2), and the over-range
runs of its slices since that gap: slice, and first and latest over-range sample (R80). -/
structure Pickup where
  /-- RCS_FMT in force -/
  fmt : DWord := BitVec.ofNat 32 Reg.RCS_FMT.reset
  /-- SDE_DET_CTL in force -/
  detCtl : DWord := BitVec.ofNat 32 Reg.SDE_DET_CTL.reset
  /-- SDE_DET_LLR in force -/
  detLlr : DWord := BitVec.ofNat 32 Reg.SDE_DET_LLR.reset
  /-- revolutions since reset -/
  rev : Nat := 0
  overs : List (Nat × Nat × Nat) := []
deriving DecidableEq, Repr

/-! The Sheet Decode Engine (04_sheet_decoding.md). -/

/-- Leaf result status codes (Table 4-6). -/
inductive LeafStatus where
  | good | goodExt | noconv | crc | metaErr | preErased | blank | dropped | missing | verified
deriving DecidableEq, Repr

/-- A deposit ring entry not yet released: its offset in the ring and its bytes (R120), and whether the SDE has
matched it. -/
structure DepEntry where
  off : Nat := 0
  size : Nat := 0
  matched : Bool := false
  /-- Quire time of its deposit's completion, and its number among the deposits (R135) -/
  qtime : Nat := 0
  order : Nat := 0
deriving DecidableEq, Repr

/-- A leaf matched to a context and waiting for the engine (R133, R135). -/
structure ReadyLeaf where
  entry : Nat := 0
  ctx : Nat := 0
  leaf : Nat := 0
  cls : Nat := 2
  rcs : Nat := 127
  /-- Quire time of its deposit's completion, and its number among the deposits; smaller is older -/
  age : Nat := 0
  order : Nat := 0
deriving DecidableEq, Repr

/-- The leaf in the engine (R127, R128): input LLRs, posteriors, check-to-variable messages, iterations run, and the
limits it started with (R152). -/
structure DecodeRun where
  ready : ReadyLeaf := {}
  level : Nat := 1
  /-- the 32 bytes of its descriptor -/
  head : Bytes := []
  llr : Array Int := #[]
  post : Array Int := #[]
  msgs : Array Int := #[]
  iters : Nat := 0
  base : Nat := 8
  ceil : Nat := 20
  useBucket : Bool := false
  retried : Bool := false
  /-- iterations run before a parity retry, and whether it has drawn on the bucket -/
  spent : Nat := 0
  drew : Bool := false
  /-- SDE_LIMIT.BASE and SDE_SCHED.BUCKET_CAP as it started (R152) -/
  limitBase : Nat := 8
  cap : Nat := 20
deriving DecidableEq, Repr

/-- The progress of one open context (R124, R126): the results of its leaves in this attempt, by leaf index. -/
structure Context where
  open_ : Bool := false
  /-- PSA, MODE, DATA and SCRATCH of the record it was last opened with -/
  psa : Nat := 0
  mode : Nat := 0
  dat : Nat := 0
  scratch : Nat := 0
  results : List (Nat × LeafStatus) := []
  ext : Nat := 0
  iterSum : Nat := 0
  /-- the largest RAW of its converged neighbour leaves (R182) -/
  maxRaw : Nat := 0
  /-- it has completed and firmware has not taken its sheet result -/
  owed : Bool := false
deriving DecidableEq, Repr

/-- The SDE beside its registers and its records in the buffer. -/
structure Sde where
  /-- write pointer of the deposit ring, in bytes from its base -/
  wp : Nat := 0
  /-- entries of the ring not yet released, oldest first -/
  ring : List DepEntry := []
  /-- deposits completed -/
  deposits : Nat := 0
  ready : List ReadyLeaf := []
  run : Option DecodeRun := none
  ctxs : Sparse Context := []
  /-- contexts that have completed and wait for the outer stage, oldest first -/
  done : List Nat := []
  /-- CLK_CORE cycles the engine has counted -/
  cycle : Nat := 0
  /-- class 3 runs of the last 65,536 cycles: end cycle and cycles spent (R135) -/
  class3 : List (Nat × Nat) := []
  /-- round-robin pointer over slices (R135) -/
  rr : Nat := 0
  /-- the test mode's 23-bit LFSR (R149) -/
  lfsr : Nat := 1
  /-- result records that wait for room in the leaf and the sheet result ring, oldest first (R139) -/
  lres : List Bytes := []
  sres : List Bytes := []
deriving DecidableEq, Repr

/-- One sheet on the retry ladder (R144-R148): the rung and attempt it makes next or is making. -/
structure LadderSheet where
  psa : Nat := 0
  lsn : Nat := 0
  rung : Nat := 1
  /-- attempts already made at this rung (rungs 4, 5 and 6 make more than one) -/
  attempt : Nat := 0
  /-- the OPU that read it first: the other OPU of the side makes rung 6 -/
  opu : Nat := 0
  /-- its re-read is being made, with the settings of which attempt of the rung (R145) -/
  busy : Bool := false
  serving : Nat := 0
  /-- leaves good so far, bit j -/
  good : Nat := 0
deriving DecidableEq, Repr

/-- How a completed sheet is classified (Table 4-9). -/
inductive SheetClass where
  | firstTime | transient | marginal | lasting
deriving DecidableEq, Repr

/-- The settings of a re-read attempt as Table 4-8 gives them: rung and attempt, TGT_SEL where the attempt sets it and as it was
before, offsets in nanometres, half speed. -/
structure Retry where
  track : Nat := 0
  rung : Nat := 0
  attempt : Nat := 0
  tgtSel : Option Nat := none
  tgtWas : Nat := 0
  nbrMark : Bool := false
  focusNm : Int := 0
  trackNm : Int := 0
  halfSpeed : Bool := false
deriving DecidableEq, Repr
/-! Commands and streams (14_host_port.md to 16_ordering_recovery.md). -/

/-- How far a command has come: accepted and running, or ended with its reply not yet posted. -/
inductive CmdStage where
  | running | ended
deriving DecidableEq, Repr

/-- What one sheet of a reading command is bound to at acceptance (R497): an owed version, named by its place in
version order, or the data the map gives; and, once handled, the CLASS and DETAIL it earned. -/
structure Bound where
  lsn : Nat := 0
  version : Option Nat := none
  psa : Option Nat := none
  result : Option (Nat × Nat) := none
  /-- buffer address of its decoded or rebuilt data -/
  dat : Option Nat := none
deriving DecidableEq, Repr

/-- A command latched and not yet replied (R439, R444, R450). -/
structure Cmd where
  /-- its number, in order of latching -/
  id : Nat := 0
  /-- it came through the tag queue -/
  queue : Bool := false
  stream : Nat := 0
  /-- its submission slot -/
  tag : Nat := 0
  /-- its home head: 0 head A, 1 head B (R454) -/
  home : Nat := 0
  /-- the 64 bytes -/
  bytes : Bytes := []
  /-- where HP_TS_RADDR sends the reply -/
  raddr : Option Nat := none
  vector : Nat := 0
  /-- it came through a member's window -/
  member : Bool := false
  /-- its stream command sequence; 0 until accepted (R477) -/
  ssq : Nat := 0
  stage : CmdStage := .running
  cls : Nat := 0
  detail : Nat := 0
  r0 : Nat := 0
  r1 : Nat := 0
  /-- its host-bound reply is discarded (R461) -/
  orphan : Bool := false
  /-- the sheets it is bound to -/
  binds : List Bound := []
  /-- the SSEQ that D must reach before it may reply (R503) -/
  needs : Option Nat := none
  /-- MAX_RUNG of its stream's read recovery page when it was accepted (R147, R492) -/
  maxRung : Nat := 7
  /-- Quire time of its acceptance, and LIMIT_MS of its stream's read recovery page then (R147, R492) -/
  accepted : Nat := 0
  limitMs : Nat := 0
  /-- since when it waits for a mode change, the time it has spent so, and whether its recovery time is over (R147, R469) -/
  waitFrom : Option Nat := none
  waited : Nat := 0
  expired : Bool := false
  /-- commands that must have replied first (R478) -/
  after : List Nat := []
  /-- pairs of a CALIBRATE that have not ended, or marks by opcode -/
  work : Nat := 0
  /-- a member's reads of its host data have been sent to its home head (R454) -/
  asked : Bool := false
  /-- the page that a SET PAGE has validated: PAGE, SCOPE and its bytes; it takes effect at the reply (R492) -/
  page : Option (Nat × Nat × Bytes) := none
deriving DecidableEq, Repr

/-- An accepted write (R495, R500). -/
structure WriteRec where
  ssq : Nat := 0
  cmd : Nat := 0
  lsn : Nat := 0
  count : Nat := 0
  fua : Bool := false
  /-- buffer address of its data -/
  addr : Nat := 0
  /-- its INTENT record is durable -/
  intent : Bool := false
  /-- its place in version order: the versions it creates are this one and the following -/
  order : Nat := 0
  /-- it has failed or been abandoned -/
  dead : Bool := false
  /-- the group it belongs to, where it is a GROUP WRITE or a unit's part of one -/
  group : Option Nat := none
deriving DecidableEq, Repr

/-- A host stream (16_ordering_recovery.md). -/
structure Stream where
  /-- the next SSEQ (R477) -/
  ssq : Nat := 1
  /-- the durability watermark D (R503) -/
  mark : Nat := 0
  /-- the D that the latest durable ORDER record carries, and the D of the latest one submitted -/
  ordered : Nat := 0
  sent : Nat := 0
  /-- the DETAIL of the cause while BROKEN (Table 16-3) -/
  broken : Option Nat := none
  /-- F: the SSEQ of the earliest write that cannot be made durable (R514) -/
  first : Nat := 0
  /-- writes accepted and not yet durable, in SSEQ order -/
  writes : List WriteRec := []
  /-- Quire time of the latest WRITE admitted (R189) -/
  lastWrite : Nat := 0
  /-- idle for R189 -/
  idle : Bool := false
deriving DecidableEq, Repr

/-- How far a version of a sheet has come on its way to the medium. -/
inductive VStage where
  | fetching | admitted | encoding | planned | latched | recorded | verified | committing | committed | mapped | failed
  /-- withdrawn, kept only for the commands already bound to it (R517) -/
  | gone
deriving DecidableEq, Repr

/-- A version of a sheet that is not yet mapped (R495, R504). -/
structure Version where
  /-- its place in version order -/
  order : Nat := 0
  lsn : Nat := 0
  stream : Nat := 0
  ssq : Nat := 0
  /-- buffer address of its data area -/
  addr : Nat := 0
  /-- buffer address of its held codewords -/
  hold : Nat := 0
  /-- the slot it is planned for -/
  psa : Option Nat := none
  opu : Nat := 0
  /-- recording attempts on the present OPU, and whether it has passed to the other OPU (R184) -/
  attempts : Nat := 0
  passed : Bool := false
  stage : VStage := .admitted
  /-- it waits for the neighbour pass (R180) -/
  wantsNbr : Bool := false
  maxRaw : Nat := 0
  maxIter : Nat := 0
  /-- leaves of its verify context that have a result, and whether one of them failed (R179) -/
  judged : List Nat := []
  bad : Bool := false
  /-- one of its frames was abandoned (R163, R187) -/
  cut : Bool := false
  /-- it has passed the neighbour pass before its verify ended (R180) -/
  nbrPassed : Bool := false
  /-- it failed while no OPU of its side could record: it is planned again once one can (R181, R191), with this cause -/
  owes : Option Nat := none
  /-- Quire time at which a copy was made -/
  since : Nat := 0
  /-- the PSA of the mapped version that it copies: a refresh or a neighbour re-recording (R507) -/
  copyOf : Option Nat := none
  /-- the surface test that records it, by its command's number: it maps nothing (R185) -/
  test : Option Nat := none
  /-- the checkpoint sheet that it is: its side and its segment, `cpIndex` for the index sheet (R684) -/
  cp : Option (Nat × Nat) := none
  /-- a command has been bound to it (R496) -/
  seen : Bool := false
  /-- why it was planned again: 1 verify, 2 neighbour, 3 interrupted, 4 refresh (Table 5-9) -/
  cause : Nat := 0
deriving DecidableEq, Repr

/-- Whether a version's slot is given to it, not chosen by the placing of user sheets: a sheet of a surface test or of a checkpoint. -/
def Version.given (v : Version) : Bool := v.test.isSome || v.cp.isSome

/-- A map checkpoint under way on one side (R684). -/
structure CpRun where
  side : Nat := 0
  /-- its checkpoint sequence, and the SEQ up to which it absorbs records -/
  seq : Nat := 0
  absorb : Nat := 0
  closed : Bool := false
  /-- the segments that it records -/
  segs : List Nat := []
  /-- its sheets that have passed: segment and PSA -/
  made : List (Nat × Nat) := []
  /-- its index sheet has been made -/
  index : Bool := false
deriving DecidableEq, Repr

/-- The format of one side of the loaded disc (R53, R480). -/
structure SideInfo where
  formatted : Bool := false
  level : Nat := 1
  pcode : Nat := 1
  copySeq : Nat := 0
  /-- the slots of its format record area that are used, and the sheet PSA of its ruling copy (R56, R58) -/
  used : Nat := 0
  place : Nat := 0
  /-- the 24 leading bytes of its ruling format record; the rest of the sheet is 0 (Table 2-11) -/
  record : Bytes := []
  recordable : Bool := false
deriving DecidableEq, Repr

/-- The disc, as its records describe it (R58, R480). -/
structure Disc where
  loaded : Bool := false
  /-- the disc was lost from the clamp since its LOAD (R328) -/
  lost : Bool := false
  readOnly : Bool := false
  /-- 0 Class W, 1 Class E, 0xFF unknown -/
  mediaClass : Nat := 0xFF
  maker : Nat := 0
  serial : Nat := 0
  a : SideInfo := {}
  b : SideInfo := {}
  /-- layers that a strategy set covers, bit 8 × side + layer (R170) -/
  layers : Nat := 0
  /-- the strategy block (R169) -/
  strategy : Bytes := []
deriving DecidableEq, Repr

/-- A band plan that firmware builds or the WSG holds (Table 5-7), by version order: (lane, slot, version). -/
structure BandPlan where
  band : Nat := 0
  side : Nat := 0
  layer : Nat := 0
  cells : List (Nat × Nat × Nat) := []
deriving DecidableEq, Repr

/-- What firmware keeps for each OPU. -/
structure OpuFw where
  /-- withdrawn until the next disc load (R272) -/
  withdrawn : Bool := false
  /-- withdrawn from recording (R194) -/
  noRecord : Bool := false
  /-- recording paused by an LDC or APC fault -/
  paused : Bool := false
  /-- paused or held in its band because the die is too hot (R666) -/
  hot : Bool := false
  /-- withdrawn from planning while these pairs of its own are calibrated, the set as CAL_TRIG names it (R351) -/
  calOut : Option Nat := none
  /-- Quire times of its latest faults (R272) -/
  faults : List Nat := []
  /-- consecutive lost revolutions on one band (R686) -/
  lost : Nat := 0
  /-- the retry settings in force: attempt and the slice they act on (R144) -/
  retry : Option Retry := none
  /-- it has acquired focus since the disc was loaded (R258) -/
  focused : Bool := false
  /-- it has reached a band since the disc was loaded (R686) -/
  reached : Bool := false
  /-- layers on which it has arrived since LOAD (R349) -/
  layers : List Nat := []
  /-- the record front: its band, and its layer as 8 × side + layer (R683) -/
  front : Option (Nat × Nat) := none
  /-- band plans not yet latched, the earliest first; the last one is under construction (R183, R683) -/
  plans : List BandPlan := []
  /-- the plan that the WSG holds -/
  latched : Option BandPlan := none
  /-- the layer whose strategy set is loaded, 8 × side + layer (R170) -/
  strategy : Option Nat := none
  /-- a recording run is open, and its last band -/
  running : Bool := false
  lastBand : Nat := 0
  /-- a closing revolution is owed (R181), and the layer of the run's last band, 8 × side + layer -/
  closing : Bool := false
  lastKey : Nat := 0
  /-- per lane: the sum and the number of SYNC_OFS of the verify leaves of the present band, and the correction of WSG_LEAD in
  channel bits that earlier bands gave (R161) -/
  syncs : List (Int × Nat) := []
  leadAdj : List Int := []
  /-- verify outcomes of the latest sheets since the last OPC run, newest first, true for failed (R192) -/
  verifies : List Bool := []
  /-- per layer (8 × side + layer): the temperature of the last OPC run, in 1/16 °C plus 1,000; unlisted: none -/
  opcTemp : Sparse Nat := []
  /-- a host request for OPC is open, and OPC is due -/
  opcDue : Bool := false
  /-- the OPC run that is open: its test band, and its leaf results as (beam, position, EQUAL, RAW) (R193) -/
  opcBand : Option Nat := none
  /-- the layer that it is made on, 8 × side + layer, and the buffer address of its codewords -/
  opcKey : Nat := 0
  opcHold : Nat := 0
  opcLeaves : List (Nat × Nat × Bool × Nat) := []
  /-- per layer, the beams that failed once and are tried on the next test band -/
  opcAgain : Sparse (List Nat) := []
  /-- APC targets in 0.01 mW, key 12 × (8 × side + layer) + beam -/
  targets : Sparse Nat := []
deriving DecidableEq, Repr

/-- Firmware's data of the whole unit. -/
structure Firmware where
  /-- commands latched and not yet replied, by number -/
  cmds : List Cmd := []
  /-- the number of the next command -/
  nextCmd : Nat := 1
  /-- the commands that have ended, in the order in which they ended (R451) -/
  ended : List Nat := []
  /-- host streams 0 to 15 -/
  streams : Sparse Stream := []
  /-- versions not yet mapped, in version order -/
  versions : List Version := []
  /-- the next place in version order -/
  nextOrder : Nat := 1
  disc : Disc := {}
  /-- the sheet map: LSN to PSA + 1 (R502) -/
  map : Sparse Nat := []
  /-- the version order of each LSN mapped since LOAD; 0 for what LOAD mapped -/
  mapOrder : Sparse Nat := []
  /-- slots that hold, or on Class W have held, a recording (sheet PSAs) -/
  recorded : List Nat := []
  /-- retired slots (R185) -/
  retired : List Nat := []
  /-- slots that have passed the surface test that runs (R185) -/
  tested : List Nat := []
  /-- the remaining reserve of each layer, 8 × side + layer (R687) -/
  reserve : Sparse Nat := []
  /-- LSNs found ambiguous by a medium scan (R426) -/
  ambiguous : List Nat := []
  /-- the media log, newest first: PSA, kind, LSN, QTIME (Table 15-5) -/
  mediaLog : List (Nat × Nat × Nat × Nat) := []
  /-- transient, marginal and lasting counts since LOAD -/
  transients : Nat := 0
  marginals : Nat := 0
  lastings : Nat := 0
  /-- leaves that converged in each attempt of rung 4, by track (the PSA from bit 18 up) -/
  gains : Sparse (List Nat) := []
  /-- sheets queued for refresh (R148): PSA and LSN -/
  refresh : List (Nat × Nat) := []
  /-- those of them for which the lack of a spare has raised ATTN 1 (R148) -/
  refreshTold : List (Nat × Nat) := []
  opus : Sparse OpuFw := []
  /-- parameter pages as set, key 256 × page + scope (Table 15-9) -/
  pages : Sparse Bytes := []
  /-- the next OPC test band of each layer, 8 × side + layer, and the layers whose test area is used up (R195) -/
  opcNext : Sparse Nat := []
  opcFull : List Nat := []
  /-- ATTN 2 has been raised for the die's temperature, which has not fallen by 3 °C since (R666) -/
  thermTold : Bool := false
  /-- the spindle is withdrawn until the next reset (R301) -/
  spnWithdrawn : Bool := false
  /-- start attempts since the last start that succeeded (R287) -/
  spnTries : Nat := 0
  /-- Quire times of OC_TRIP, OVSP and SYNC_LOSS conditions (Table 8-5) -/
  spnTrips : List Nat := []
  spnOver : List Nat := []
  spnLosses : List Nat := []
  /-- a START is owed once the spindle is OFF (R300) -/
  spnOwed : Bool := false
  /-- HOLD on every OPU for a spindle condition (R301) -/
  spnHold : Bool := false
  /-- next free byte of the read and write pools in the buffer -/
  poolNext : Nat := 0
  /-- dirty map segments (R684) -/
  dirty : List Nat := []
  /-- the checkpoint sequence (R684) -/
  cpSeq : Nat := 0
  /-- SEQ up to which the latest CHECKPOINT of each side absorbs records -/
  cpAbsorb : Sparse Nat := []
  /-- free checkpoint slots used, next slot of each side's checkpoint area -/
  cpNext : Sparse Nat := []
  /-- the newest checkpoint sheet of each segment on each side, 4096 × side + segment (`cpIndex` for the index sheet), as PSA + 1, and
  the checkpoints under way (R684) -/
  cpMap : Sparse Nat := []
  cpRuns : List CpRun := []
  /-- sides whose checkpoint area is full on Class W (R684) -/
  cpFull : List Nat := []
  /-- firmware runs (t8 of boot, R625) -/
  up : Bool := false
  /-- the loaded Quejo image's 128-byte header, and firmware's slots held disabled for a release (R232, R234) -/
  quejo : Bytes := []
  openHeld : List Nat := []
  /-- whole banks kept back until the swap that waits in their slots has taken place (R224) -/
  bankWaits : Sparse (List Word) := []
  /-- totals of RJ_CNT_REC, RJ_CNT_TRANS and RJ_CNT_REMAP, which their reads do not clear (Table 15-5) -/
  rjTotals : List Nat := [0, 0, 0]
  /-- the cause of FROZEN: CLASS 10 DETAIL -/
  frozen : Nat := 0
deriving DecidableEq, Repr

/-! The spindle (08_spindle.md). -/

/-- The SPN block and the variables of its three loops, beside the registers and the mailbox. -/
structure Spindle where
  /-- the commutation step (Table 8-2) -/
  step : Nat := 0
  /-- a DUTY code written and not yet in force (R277) -/
  written : Option Int := none
  /-- the DUTY code in force -/
  duty : Int := 0
  /-- the pulse is cut for the rest of the half-period (R282) -/
  cut : Bool := false
  /-- the latest crossing intervals in nanoseconds, newest first, at most six (R283) -/
  intervals : List Nat := []
  /-- the latest crossing, as the step of Table 8-2 that expects it -/
  crossing : Option Nat := none
  /-- consecutive valid crossings of a hand-over or a catch -/
  good : Nat := 0
  /-- a CATCH waits for its crossings (R288) -/
  catching : Bool := false
  /-- consecutive missed steps (R280) -/
  missed : Nat := 0
  /-- when the next commutation follows the last accepted crossing, in nanoseconds (R280) -/
  comm : Option Nat := none
  /-- the incoming phase's share of the duty while softening, as a fraction (R279) -/
  share : Option (Nat × Nat) := none
  /-- carrier half-periods since ALIGN began -/
  ticks : Nat := 0
  /-- TCNT at the latest accepted crossing (port ZC_T) -/
  zcT : Nat := 0
  /-- phase currents, signed mA (ports I_U and I_V) -/
  iu : Int := 0
  iv : Int := 0
  /-- pair current, signed mA (port I_ACT) -/
  iact : Int := 0
  /-- the phase whose current short braking reports: 0 U, 1 V, 2 W (R281) -/
  carrier : Nat := 0
  /-- motor supply in mV (port VMOT) -/
  vmot : Nat := 0
  /-- ADV, SOFT, BRAKE_EN and DT as taken at the latest commutation (R305) -/
  adv : Nat := 0
  soft : Nat := 20
  brake : Bool := true
  dt : Nat := 40
  /-- SPN_ALIGN, SPN_RAMP and SPN_COUCH as taken at the latest START or CATCH (R305) -/
  align : DWord := BitVec.ofNat 32 Reg.SPN_ALIGN.reset
  ramp : DWord := BitVec.ofNat 32 Reg.SPN_RAMP.reset
  couch : DWord := BitVec.ofNat 32 Reg.SPN_COUCH.reset
  /-- SPC's integrator, in binary32 (R290) -/
  xi : Nat := 0
  /-- SPS's integrator and its output, in binary32 mA (R291) -/
  xs : Nat := 0
  icmd : Nat := 0
  /-- SPC samples since SPS last wrote (Table 8-5) -/
  sinceSps : Nat := 0
  /-- WMK's set-point and its slope over the last WMK period, in binary32 (R291, R293) -/
  sprev : Nat := 0
  slope : Nat := 0
  /-- the largest speed error of each WMK period of the last 100 ms, newest first (SP_ERR) -/
  errs : List Nat := []
deriving DecidableEq, Repr

/-! Sleds and the clamp (09_sled_and_clamp.md). -/

/-- The steps of the homing sequence (Table 9-1); step 4 takes no time. -/
inductive HomeStep where
  | none | clear | inward | backOff
deriving DecidableEq, Repr

/-- One OPU's sled beside its registers. -/
structure Sled where
  /-- the target in force, after limits and rounding -/
  target : Int := 0
  home : HomeStep := .none
  /-- SLD_HOME and SLD_HOME2 as taken at HOME -/
  home1 : DWord := BitVec.ofNat 32 Reg.SLD_HOME.reset
  home2 : DWord := BitVec.ofNat 32 Reg.SLD_HOME2.reset
  /-- the winding current has fallen to I_HOLD (R315) -/
  low : Bool := false
  /-- firmware: the drift D of R320, and the home radius in picometres once recorded -/
  drift : Int := 0
  rHome : Option Int := .none
  /-- firmware: homing failures in a row (R318) -/
  fails : Nat := 0
deriving DecidableEq, Repr

/-- The clamp beside its registers. -/
structure Clamp where
  /-- the seating drive of T_SEAT runs -/
  seating : Bool := false
  /-- CLAMP_HOME was high when the clamp sequence began -/
  wasHome : Bool := false
deriving DecidableEq, Repr

/-! The Control Law Engine (06_control_law_engine.md). -/

/-- What a sample of a slot is doing. -/
inductive SamplePhase where
  | ready | running | suspended
deriving DecidableEq, Repr

/-- A sample of a slot (R214): its tick, and from its dispatch its micro-state and the configuration it was dispatched
with (R238). -/
structure CleSample where
  slot : Nat := 0
  phase : SamplePhase := .ready
  /-- TCNT of its tick -/
  tick : Nat := 0
  level : Nat := 3
  pc : Nat := 0
  /-- the return stack, latest entry first -/
  stack : List Nat := []
  /-- A0 to A7 -/
  areg : List Nat := [0, 0, 0, 0, 0, 0, 0, 0]
  sticky : Nat := 0
  lanes : Nat := 0
  stores : Nat := 0
  satm : Bool := false
  ftz : Bool := false
  tcnt : Nat := 0
  /-- clocks from dispatch, time suspended excluded -/
  cycles : Nat := 0
  fresh : Bool := false
  cfg : DWord := 0#32
  bank : DWord := 0#32
deriving DecidableEq, Repr

/-- The tick state of a slot (R212, R213, R238). -/
structure CleSlot where
  /-- TCNT at which the next tick falls due -/
  due : Nat := 0
  /-- clocks from T_start to that tick -/
  since : Nat := 0
  /-- the period and phase in force, and whether a written PERIOD or PHASE acts after the next tick -/
  period : Nat := 1500
  phase : Nat := 0
  renew : Bool := false
  /-- T_start -/
  start : Nat := 0
  /-- configuration in force since the latest dispatch or start -/
  cfg : DWord := 0#32
  bank : DWord := 0#32
  /-- leader ticks counted, and a tick of its own that waits for the leader's sample -/
  count : Nat := 0
  ticked : Bool := false
  /-- TCNT of that tick -/
  tickAt : Nat := 0
  /-- no sample since the start -/
  fresh : Bool := true
deriving DecidableEq, Repr

/-- An entry of the event FIFO (R203). -/
structure CleEvent where
  code : Nat := 0
  slot : Nat := 0
  fault : Bool := false
deriving DecidableEq, Repr

/-- The CLE beside its registers. -/
structure Engine where
  /-- control store, 16,384 words -/
  cs : Sparse Word := []
  /-- data memory, 16,384 words -/
  dm : Sparse Word := []
  /-- vector registers, key 16 × level + register -/
  vregs : Sparse Word := []
  samples : List CleSample := []
  slots : Sparse CleSlot := []
  events : List CleEvent := []
  /-- the drive processors' CLE interrupt (R203) -/
  irq : Bool := false
  /-- the words of data memory and of the control store that CLE_DM_DATA and CLE_CS_DATA show (R205) -/
  dmRead : Word := 0#128
  csRead : Word := 0#128
  /-- the last value written to each output port -/
  outs : Sparse Nat := []
  /-- the output offset trim that each DAC output took at its last update, in 0.1 mV differential, key as `outs` (R338) -/
  acts : Sparse Int := []
  /-- the slot that wrote each output port last, plus 1 -/
  writer : Sparse Nat := []
  /-- servo record ports latched by a SERVO_T read, key 4 × spot + field (R207) -/
  spots : Sparse Nat := []
  /-- QTIME_HI as latched by a read of QTIME_LO -/
  qtimeHi : Nat := 0
  /-- trace words that wait for the fabric -/
  trace : List Word := []
  /-- servo photodetector codes after trimming, key 8 × OPU + input -/
  spd : Sparse Int := []
  /-- write inhibit of each OPU, 1 set -/
  inhibit : Sparse Nat := [(0, 1), (1, 1), (2, 1), (3, 1)]
  /-- OPU thermistor codes -/
  therm : Sparse Nat := []
  /-- TCNT at the latest jump gap of each OPU -/
  gapT : Sparse Nat := []
  /-- latest wedge posted of each OPU, in the layout of port WEDGE -/
  wedge : Sparse Nat := []
  /-- APC_MON of each beam, key 12 × OPU + beam, in the layout of the port -/
  mon : Sparse Nat := []
deriving DecidableEq, Repr

/-- A loop's filter state in binary32: integrators, lead, notch, and the output (R244). -/
structure LoopVars where
  i1 : Nat := 0
  i2 : Nat := 0
  v : Nat := 0
  l1 : Nat := 0
  l2 : Nat := 0
  n1 : Nat := 0
  n2 : Nat := 0
  u : Nat := 0
  /-- the code last written -/
  code : Int := 0
  /-- samples for which the integrators stay held -/
  still : Nat := 0
deriving DecidableEq, Repr

/-- What the FOC loop does with the lens (R257, R259). -/
inductive FocusMode where
  | rest | sweep (down : Bool) | closed | kick | brake
deriving DecidableEq, Repr

/-- The servo of one OPU (07_optical_servo.md): the state areas of its loops. -/
structure Servo where
  foc : LoopVars := {}
  trk : LoopVars := {}
  tlt : LoopVars := {}
  focus : FocusMode := .rest
  /-- S-curves passed in the sweep -/
  curves : Nat := 0
  /-- phase of the S-curve that the sweep is in -/
  lobe : Nat := 0
  /-- a layer step before its kick: 1 waits for a SAC sample, above 1 counts down to it; 0 none (Table 7-9) -/
  stepWait : Nat := 0
  /-- SUM_REF is to be measured: samples of |FE| below 60 nm, then of SUM summed (R240, R257) -/
  sumWait : Bool := false
  sumRun : Nat := 0
  sumAcc : Int := 0
  /-- the sweep has been repeated -/
  again : Bool := false
  /-- the code held at a loss of focus, which the next sweep is centred on (Table 7-10) -/
  near : Option Int := none
  /-- a restart from FAULT waits for the calibration of groups 0 and 1 (R349) -/
  restart : Bool := false
  /-- samples of kick so far, or of brake to go, and the sign of the kick -/
  kicks : Nat := 0
  kickUp : Bool := true
  /-- target layer of a layer jump or an acquisition, and the surprises of the command (R260) -/
  wantLayer : Nat := 0
  surprises : Nat := 0
  /-- target track of an acquisition or a seek, and whether a long seek has been retried (R270) -/
  wantTrack : Nat := 0
  retried : Bool := false
  /-- the read laser is on -/
  laser : Bool := false
  /-- FE of the previous sample, binary32 -/
  prevFe : Nat := 0
  /-- the mailbox operation that runs; 0 none (R256) -/
  running : Nat := 0
  /-- every jump is of 0 tracks until the next command (OP 6) -/
  holding : Bool := false
  /-- the latest wedge gave no measurement -/
  noPos : Bool := false
  /-- TRK samples of the running long seek -/
  seekTrk : Nat := 0
  /-- APC: the SCALE and MON_PEAK before a change of 8 codes or more, by beam -/
  apcWas : Sparse (Nat × Nat) := []
  /-- the SLC rate is doubled (Table 7-10) -/
  fast : Bool := false
  /-- tracking loop closed; observer estimate and rate in binary32 nm, samples since the latest measurement -/
  trkClosed : Bool := false
  est : Nat := 0
  rate : Nat := 0
  since : Nat := 0
  lastWedge : Nat := 512
  /-- the observer's input history: codes of the previous two samples -/
  prevU : Nat := 0
  /-- codes of the jump profile still to add, the held term, and what this profile adds to it -/
  profile : List Int := []
  held : Int := 0
  jumpTerm : Int := 0
  /-- samples until the settle sample of a band jump -/
  settle : Nat := 0
  /-- TRK sample counter's seek position and residual -/
  sledRef : Int := 0
  /-- FOC_OFS and TRK_OFS in force, binary32 -/
  focOfs : Nat := 0
  trkOfs : Nat := 0
  /-- the runout table and the sum and count of the present wedge -/
  runout : Sparse Int := []
  roSum : Nat := 0
  roCount : Nat := 0
  /-- revolutions for which the runout is still learned -/
  learn : Nat := 0
  /-- largest |FE| and |TE| of this revolution, binary32 -/
  focPk : Nat := 0
  trkPk : Nat := 0
  /-- landing: the wedge of W0 to W3 at which it is next judged; 4 when decided -/
  landing : Nat := 4
  /-- the correction jump of a mis-landing has been made and the next window holds the band (R267) -/
  hold0 : Bool := false
  /-- SAC: trim, samples counted, correlation and sum in binary32 -/
  sacTrim : Int := 0
  sacCount : Nat := 0
  sacCorr : Nat := 0
  sacSum : Nat := 0
  /-- SAC_DAC stands at the midpoint of two layers during a layer step: the other layer -/
  sacMid : Option Nat := none
  /-- SLC: low-passed code in binary32, and the long seek: tracks still to go with sign, samples so far, start -/
  slcMean : Nat := 0
  seekNm : Int := 0
  seekSamples : Nat := 0
  seekFrom : Int := 0
  seeking : Bool := false
  /-- SPD4 + SPD5 and SPD6 + SPD7 at acquisition (Table 7-5) -/
  tltRef : Nat := 0
  tltRef2 : Nat := 0
  /-- APC: SCALE and, binary32, SLOPE by beam -/
  scale : Sparse Nat := []
  /-- Quire times of the latest saturations (Table 7-10) -/
  sats : List Nat := []
deriving DecidableEq, Repr

/-! Calibration (10_calibration.md). -/

/-- The result of a resource or step (R344, R347). -/
inductive CalResult where
  | none | pass | range | jump | invalid | timeout | aborted | deferred
deriving DecidableEq, Repr

/-- One resource of the step: its index, its store value at the start, whether that value came from a passed step or a
restore, measurements made, and its result so far. -/
structure CalResource where
  idx : Nat := 0
  start : Int := 0
  /-- group 2: the gain trim at the start -/
  start2 : Int := 0
  count : Nat := 0
  result : CalResult := .none
deriving DecidableEq, Repr

/-- A failed step as firmware has yet to handle it: its pair, its result, CAL_FAILMAP, and which consecutive failure of the pair
it is (R350). -/
structure CalFailure where
  group : Nat := 0
  opu : Nat := 0
  code : Nat := 0
  map : Nat := 0
  nth : Nat := 0
deriving DecidableEq, Repr

/-- The calibration sequencer beside its registers. -/
structure Calib where
  /-- pairs of the run still ahead, the current one first, as (group, OPU) -/
  ahead : List (Nat × Nat) := []
  resources : List CalResource := []
  /-- store values that came from a passed step or a restore, key 64 × group class + index -/
  trusted : List Nat := []
  /-- temperature in 1/16 °C plus 1,000 at each pair's last PASS, key 7 × OPU + group -/
  temps : Sparse Nat := []
  /-- failed steps that firmware has not handled, the earliest first -/
  failed : List CalFailure := []
  /-- Quire time plus 1 of each pair's previous trigger -/
  trigAt : Sparse Nat := []
  /-- consecutive failures of each pair -/
  fails : Sparse Nat := []
  /-- Quire time plus 1 at which each pair fell due and has waited since -/
  dueAt : Sparse Nat := []
  /-- live servo and actuator trims in the OPU islands, key 16 × OPU + index (R339) -/
  live : Sparse Int := []
  /-- CAL_FTRIM as it acts in each slice -/
  ftrim : Sparse Int := []
  /-- the die temperature of the latest sample, 1/16 °C -/
  die : Int := 0
  /-- the result that firmware has for the delegated step and writes to CAL_EXT next (R345) -/
  ext : Option Nat := .none
  /-- newest CAL record of each pair -/
  records : Sparse Bytes := []
deriving DecidableEq, Repr
/-! Recording (05_recording.md). -/

/-- One write lane (R162, R177): its part of the latched plan, and where its recording stands. -/
structure Lane where
  /-- HOLD of slots 0 to 7, 0 for a slot not recorded -/
  hold : List Nat := []
  track : Nat := 0
  side : Nat := 0
  layer : Nat := 0
  start : Nat := 0
  /-- STOP_POS as the WSG has it -/
  stop : Nat := 511
  /-- the leaf position of the frame in progress -/
  frame : Option Nat := none
  /-- stopped by a PAUSE -/
  paused : Bool := false
  /-- stopped for the rest of the revolution by a gate closure or a STOP -/
  closed : Bool := false
  /-- the write channel symbols of the latest frame with its margins, and the channel bit after the index that the first of
  them falls on -/
  symbols : Bytes := []
  at_ : Nat := 0
  /-- the leaf position recorded last in this revolution, the level it ended at, and the strategy entry of a mark that
  ended with it; and the same two for the frame in progress -/
  last : Option Nat := none
  level : Bool := false
  cool : Option Nat := none
  nextLevel : Bool := false
  nextCool : Option Nat := none
deriving DecidableEq, Repr

/-- An LDC frame that has been sent or waits (Table 5-5): OP, SPOT, REG, DATA, SEQ, and whether firmware sent it. -/
structure LdcFrame where
  op : Nat := 3
  spot : Nat := 0
  reg : Nat := 0
  data : Nat := 0
  seq : Nat := 0
  fw : Bool := false
  /-- it has been sent once more (R175) -/
  again : Bool := false
deriving DecidableEq, Repr

/-- The WSG of one OPU beside its registers. -/
structure Wsg where
  lanes : List Lane := []
  /-- the address of the latched plan -/
  plan : Nat := 0
  /-- WSG_STRAT and WSG_LEAD as latched at the gap -/
  strat : List DWord := []
  lead : List Nat := []
  classE : Bool := false
  /-- training is due at the next gap by TRAIN, and training has been sent since LD_STOP_N rose or the island powered -/
  train : Bool := false
  trained : Bool := false
  /-- since LD_STOP_N rose: ENABLE has been written to the driver's queue, and the driver has taken it (R176) -/
  enableAsked : Bool := false
  enabled : Bool := false
  /-- frames that wait: SCALE writes of the APC loops as (beam, code), and firmware's -/
  cleQueue : List (Nat × Nat) := []
  fwQueue : List LdcFrame := []
  /-- frame slots since firmware's queue last had one -/
  turn : Nat := 0
  /-- the frame sent last, which the next MISO frame answers -/
  sent : Option LdcFrame := none
  /-- a frame to send once more -/
  repeated : Option LdcFrame := none
  seq : Nat := 0
  /-- responses to firmware frames not yet read, oldest first, in the layout of WSG_LDC_RSP -/
  responses : List DWord := []
deriving DecidableEq, Repr
/-! The buffer (11_buffer_dram.md, 12_fabric_cache.md). -/

/-- A request at the DRC (R368): its requester, a write's data or a read's length, and the CLK_DRAM cycle at which it
reached the DRC. -/
structure DrcReq where
  req : Nat := 0
  /-- from the second port of a requester with two ports -/
  second : Bool := false
  write : Bool := false
  addr : Nat := 0
  data : Bytes := []
  len : Nat := 0
  cycle : Nat := 0
  /-- it carries the ORDER attribute (R403) -/
  ordered : Bool := false
deriving DecidableEq, Repr

/-- The buffer DRAM controller beside its registers. Keys: a channel is 0 or 1, a rank 2 × channel + rank, a bank
16 × channel + 8 × rank + bank. -/
structure Drc where
  /-- read and write queues of both channels, oldest first (R368) -/
  reads : List DrcReq := []
  writes : List DrcReq := []
  /-- requests that wait in the fabric for room, oldest first -/
  held : List DrcReq := []
  /-- reads issued and not yet completed -/
  inflight : List DrcReq := []
  /-- channels whose write queue drains (R369) -/
  draining : List Nat := []
  /-- the open row of each bank, plus 1 -/
  openRow : Sparse Nat := []
  /-- check lines in each channel's buffer, most recently used first (R364) -/
  checks : Sparse (List Nat) := []
  /-- row-hammer tables: 16 entries of row and count (R374) -/
  hammer : Sparse (List (Nat × Nat)) := []
  /-- targeted refreshes that wait, by bank (R375) -/
  targets : Sparse (List Nat) := []
  /-- refreshes owed by each rank, and the banks refreshed in its round (R371) -/
  debt : Sparse Nat := []
  round : Sparse Nat := []
  /-- ranks in automatic self-refresh (R377) -/
  asleep : List Nat := []
  /-- DQS oscillator counts by die: as trained, and as the write DQ delay stands (R381) -/
  trained : Sparse Nat := []
  delay : Sparse Nat := []
  /-- Quire time of the latest ZQ calibration -/
  zq : Nat := 0
deriving DecidableEq, Repr

/-- A cache line (R394). -/
structure CacheLine where
  valid : Bool := false
  tag : Nat := 0
  dirty : Bool := false
  data : Bytes := []
deriving DecidableEq, Repr

/-- The fabric cache beside its registers. -/
structure Fbc where
  /-- lines, key 16 × set + way -/
  lines : Sparse CacheLine := []
  /-- by requester: the line after its previous write, plus 1, and its count of sequential full-line writes (R400) -/
  wrNext : Sparse Nat := []
  wrCount : Sparse Nat := []
  /-- by requester: the line after its previous read, plus 1, and its count of consecutive reads (R401) -/
  rdNext : Sparse Nat := []
  rdCount : Sparse Nat := []
  /-- the side buffer: lines and their data, most recently used first, at most 32 -/
  side : List (Nat × Bytes) := []
  /-- requester ports (2 × requester + 1 for its second port) whose head request is urgent, oldest first (R391) -/
  urgent : List Nat := []
  /-- the round-robin pointers of the fabric, key 8 × (2 × channel + 1 for writes) + 0 for the root, 1 to 4 for groups A to D (R390) -/
  robin : Sparse Nat := []
deriving DecidableEq, Repr
/-! The Quire link (17_quire_link.md). -/

/-- A message (Table 17-4): TYPE, DST, BCAST, whether it travels up, SRC, CLS, ESEQ, TAG, EPOCH, ARG, and its payload
flits' bytes. -/
structure QMsg where
  type : Nat := 0
  dst : Nat := 0
  bcast : Bool := false
  up : Bool := false
  src : Nat := 0
  cls : Nat := 0
  eseq : Nat := 0
  tag : Nat := 0
  epoch : Nat := 0
  arg : Nat := 0
  payload : Bytes := []
deriving DecidableEq, Repr

/-- A port beside its registers. -/
structure QPort where
  /-- FSEQ of the next frame to send -/
  txSeq : Nat := 0
  /-- frames sent and not acknowledged, oldest first: FSEQ, whether nullified, and the 16 content flits (R528) -/
  retry : List (Nat × Bool × Bytes) := []
  /-- MODEL'S OWN: the latest frame sent, its 17 flits -/
  sent : Bytes := []
  /-- bits that each scrambler has stepped over when that frame begins, since the end of training (R522); at width ×2, the active
  lanes are 2 and 3 -/
  steps : Nat := 0
  upper : Bool := false
  /-- the neighbour has asked for a replay -/
  nakd : Bool := false
  /-- replays of the oldest of them so far -/
  replays : Nat := 0
  /-- FSEQ of the latest frame received in order, and whether one has been -/
  rxSeq : Nat := 4095
  rxAny : Bool := false
  /-- frames are discarded until the replay arrives (R528) -/
  naking : Bool := false
  /-- flits received of a message that is not complete -/
  part : Bytes := []
  /-- messages for this port that wait, oldest first, each with whether it is the unit's own (R538) -/
  wait : List (Bool × QMsg) := []
  /-- frames of room the neighbour has advertised, and room to be returned to it, by class (R527) -/
  credit : List Nat := [0, 0, 0, 0]
  owed : List Nat := [64, 64, 64, 64]
  /-- Quire times of CRC errors, and of failed retrains (R528) -/
  errs : List Nat := []
  fails : List Nat := []
  /-- Quire time plus 1 of the latest cold training (R524) -/
  trained : Nat := 0
  /-- own frames of classes 1 to 3 it may still send this way (R539), and whether the token of this direction is here -/
  quota : Nat := 256
  token : Bool := false
  /-- Quire time at which the token of this direction passed last -/
  passed : Nat := 0
  /-- Quire time of the latest traffic -/
  busy : Nat := 0
deriving DecidableEq, Repr

/-- A unit of the chain map (R533): its die serial, its position in ring order, and whether it is head B (R534). -/
structure QUnit where
  serial : Nat := 0
  pos : Nat := 0
  headB : Bool := false
deriving DecidableEq, Repr

/-- A chain-wide operation this unit is engaged in or coordinates (R546): 1 count-off, 2 barrier, 3 snapshot, 4 chain
reset; its coordinator (the die serial in a count-off, else the chain address), the command it serves, and its phase. -/
structure ChainOp where
  op : Nat := 0
  head : Nat := 0
  cmd : Option Nat := none
  phase : Nat := 0
  /-- this unit coordinates it -/
  own : Bool := false
  /-- ways on which the present pass is still out; at a unit that a chain reset has reached, the port it was passed on by,
  or 2 -/
  legs : Nat := 0
  /-- Quire time at which it began, and the time of the cut -/
  began : Nat := 0
  cut : Nat := 0
deriving DecidableEq, Repr

/-- A unit's answer to the numbering (R533): its address, serial, variant, epoch, host link state, Quire time, and whether
it was reached from head A's QL_U. -/
structure CountAnswer where
  addr : Nat := 0
  serial : Nat := 0
  variant : Nat := 0
  epoch : Nat := 0
  host : Bool := false
  time : Nat := 0
  above : Bool := false
deriving DecidableEq, Repr

/-- The LINK island beside its registers. -/
structure Link where
  ports : Sparse QPort := []
  /-- messages received and not yet acted on, oldest first, each with the port it came in by -/
  inbox : List (Nat × QMsg) := []
  /-- the chain map, by chain address -/
  units : List QUnit := []
  /-- positions p such that the link from p to p + 1 is down, and those that are asleep -/
  down : List Nat := []
  asleep : List Nat := []
  /-- ESEQ of the next message, and of the latest accepted plus 1, key 4 × address + class -/
  eseqTx : Sparse Nat := []
  eseqRx : Sparse Nat := []
  /-- messages that wait for this DORMANT unit to wake (R541) -/
  ingress : List QMsg := []
  /-- this unit's own claim stands in the election (R532) -/
  claiming : Bool := false
  /-- head A: units that have answered the numbering so far -/
  count : List CountAnswer := []
  /-- entries of a map that is not complete -/
  mapPart : List QUnit := []
  op : Option ChainOp := none
  /-- a barrier's arrive message waits for earlier commands -/
  arrive : Option QMsg := none
  /-- the commands that a barrier waits for -/
  barrier : List Nat := []
  /-- a member's host reads that its home head has not answered: tag, host address, bytes, and the command (0 for a
  submission entry) (R454) -/
  fetch : List (Nat × Nat × Nat × Nat) := []
  /-- request tags: the next one -/
  tag : Nat := 0
  /-- how far Quire time stands before head A's, in ns (R545) -/
  ahead : Nat := 0
deriving DecidableEq, Repr

/-! The host port (14_host_port.md). -/

/-- A posted write to a member in the head's forwarding buffer (R436): window, offset, data. -/
structure HeldWrite where
  unit : Nat := 0
  off : Nat := 0
  data : Bytes := []
deriving DecidableEq, Repr

/-- A read of a member window that waits for its completion (R437). -/
structure MemberRead where
  tag : Nat := 0
  unit : Nat := 0
  off : Nat := 0
  len : Nat := 0
deriving DecidableEq, Repr

/-- The HOST island beside its registers. -/
structure HostIf where
  /-- the writable part of the configuration space, by byte offset of the dword -/
  cfg : Sparse DWord := []
  /-- the PCIe link is active -/
  up : Bool := false
  held : List HeldWrite := []
  reads : List MemberRead := []
  /-- where the next reply of a member goes: key 65,536 × chain address + tag -/
  replyAt : Sparse Nat := []
  /-- the attributes of the latest request to host memory: bit 0 No Snoop, bit 1 Relaxed Ordering (R456, R457) -/
  sent : Nat := 0
deriving DecidableEq, Repr

/-! Parity groups and fixity (18_parity_and_fixity.md). -/

/-- A member of a group (Tables 18-1 and 18-2). -/
structure GroupMember where
  unit : Nat := 0
  maker : Nat := 0
  disc : Nat := 0
  base : Nat := 0
  state : Nat := 0
deriving DecidableEq, Repr

/-- A group this unit holds (R554). -/
structure Group where
  id : Nat := 0
  /-- die serial of its keeper -/
  keeper : Nat := 0
  gen : Nat := 1
  k : Nat := 1
  m : Nat := 1
  q : Nat := 1
  seed : Nat := 0
  slow : Nat := 2000
  fmax : Nat := 0
  members : List GroupMember := []
  /-- its local index (R566), and the media class of its discs -/
  index : Nat := 0
  media : Nat := 0
  /-- the keeper's next group sequence -/
  seq : Nat := 1
  /-- locks held and asked for, in order: stripe, exclusive, owner, and where the grant is still to be answered -/
  locks : List (Nat × Bool × Nat × Option (Nat × Nat)) := []
  /-- the slot being rebuilt, the stripes of it that are done, and, at the target, the next one -/
  building : Option Nat := none
  done : Nat := 0
  nextStripe : Nat := 0
  /-- stripes with fewer than k readable sheets -/
  lost : List Nat := []
deriving DecidableEq, Repr

/-- How far a member of a group write has come. -/
inductive PartState where
  | preparing | prepared | failed | releasing | released
deriving DecidableEq, Repr

/-- A group write at its keeper (R566): sequence, command, stripes, the data sheets of the command by GLSN with their buffer
addresses, the sheets it makes as member, LSN, buffer address and how far each has come, and the decision. -/
structure GroupWrite where
  group : Nat := 0
  n : Nat := 0
  cmd : Nat := 0
  stripes : List Nat := []
  data : List (Nat × Nat) := []
  /-- 0 waits for its locks, 1 reads old sheets, 2 prepares, 3 decided, 4 released to the members -/
  phase : Nat := 0
  sheets : List (Nat × Nat × Nat × PartState) := []
  decided : Option Bool := none
  /-- the generation of its decision -/
  gen : Nat := 0
deriving DecidableEq, Repr

/-- A sheet of a group command at a member that is not released (R566, R567). -/
structure GroupPart where
  group : Nat := 0
  n : Nat := 0
  lsn : Nat := 0
  /-- where to answer: chain address and tag -/
  from_ : Nat := 0
  tag : Nat := 0
  /-- "prepared" has been answered -/
  answered : Bool := false
  /-- the version it created, once its data is here -/
  order : Option Nat := none
  /-- its release ORDER record has been submitted, and where the release is to be answered, if it was asked for -/
  release : Option (Option (Nat × Nat)) := none
  /-- it was found pending at a replay, and whether the keeper has been asked (R567) -/
  replayed : Bool := false
  asked : Bool := false
deriving DecidableEq, Repr

/-- A unit request that this unit has sent and that is not answered (R537, R569). -/
structure GroupAsk where
  tag : Nat := 0
  kind : Nat := 0
  group : Nat := 0
  /-- the member it concerns, and the die serial of the unit it goes to -/
  member : Nat := 0
  serial : Nat := 0
  /-- the request's payload, and the buffer address of the sheet that goes with it -/
  payload : Bytes := []
  addr : Option Nat := none
  /-- the command and the stripe job that it serves; 0 for none -/
  cmd : Nat := 0
  job : Nat := 0
  slot : Nat := 0
  /-- Quire time at which it was first sent (R569) -/
  since : Nat := 0
  /-- it has been answered with a good CLASS, and its sheet's data has not all arrived -/
  good : Option (Nat × Nat) := none
  /-- the answer was ASLEEP, and it is sent again (R569) -/
  asleep : Bool := false
deriving DecidableEq, Repr

/-- A sheet of a stripe that this unit obtains (R560, R572, R574): for a command and a place in it, or for a rebuild of a
slot here. -/
structure StripeJob where
  id : Nat := 0
  group : Nat := 0
  stripe : Nat := 0
  slot : Nat := 0
  /-- the command, 0 for a rebuild here, and the place in it -/
  cmd : Nat := 0
  index : Nat := 0
  /-- the sheet's own member is not read: it is made from others -/
  make : Bool := false
  acc : Option Nat := none
  /-- slots that cannot be read, and slots asked for -/
  bad : List Nat := []
  waits : List Nat := []
  /-- the stripe's lock: 0 not yet asked for, 1 asked for, 2 held, 3 not needed; and the tag that asked for it -/
  lock : Nat := 0
  lockTag : Nat := 0
  addr : Nat := 0
  /-- CLASS and DETAIL once it is here or cannot be had -/
  res : Option (Nat × Nat) := none
  /-- a rebuild: the version that records the sheet, and whether its release ORDER record has been submitted -/
  order : Option Nat := none
  released : Bool := false
deriving DecidableEq, Repr

/-- Sheet data that arrives in unit data messages (R19): its tag and source, where it goes in the buffer or which
accumulator it is added to and with what coefficient (R561), and the bytes so far. -/
structure Transfer where
  tag : Nat := 0
  src : Nat := 0
  addr : Option Nat := none
  add : Option (Nat × Nat) := none
  got : Nat := 0
deriving DecidableEq, Repr

/-- One accumulator of the PXE in use (R561): whether a rebuild holds it, and its bytes; an unlisted byte is zero. -/
structure Accum where
  used : Bool := false
  rebuild : Bool := false
  bytes : List Host.Cell := []
deriving DecidableEq, Repr

/-- Groups, the parity engine and the fixity engine beside their registers. -/
structure Compute where
  groups : List Group := []
  writes : List GroupWrite := []
  parts : List GroupPart := []
  asks : List GroupAsk := []
  transfers : List Transfer := []
  acc : Sparse Accum := []
  jobs : List StripeJob := []
  nextJob : Nat := 1
  /-- the keeper's counter of group identifiers (R556) -/
  nextId : Nat := 1
  /-- fixity results by buffer address of the sheet: CRC-64 and SHA-256 (R579) -/
  hashes : Sparse (Nat × Bytes) := []
  /-- the group of a GROUP CREATE that runs, by command, and the media classes that its members have answered; 0xFF for a
  member that does not fit -/
  created : List (Nat × Group × List Nat) := []
  /-- reads that this unit makes for others: the internal command, and the address and tag to answer -/
  served : List (Nat × Nat × Nat) := []
deriving DecidableEq, Repr

/-! Power, clocks, boot and debug (19_modes_and_power.md to 21_security_debug.md). -/

/-- The AON island beside its registers, and what boot and the TAP hold. -/
structure Aon where
  /-- Quire time of the first crossing of the present hold, of the last recovery, and crossings so far (R602, R603) -/
  frostAt : Nat := 0
  regained : Nat := 0
  crossings : Nat := 0
  /-- an event in DORMANT that firmware has not yet reported -/
  owed : Bool := false
  /-- a wake event that waits for the thaw: its cause, 0 for none (R601) -/
  wakeOwed : Nat := 0
  /-- the value that FUSE_ARB is to reach while BUSY waits for the thaw (R641) -/
  arbTarget : Nat := 0
  /-- the internal oscillator serves AON, and a unit reset is held -/
  internal : Bool := false
  reset : Bool := true
  /-- heartbeats written in this watchdog period, and Quire time plus 1 of the latest stage-1 restart (R621) -/
  beats : Nat := 0
  restarted : Nat := 0
  /-- the watchdog pauses since a restart at this Quire time (R621) -/
  paused : Option Nat := none
  /-- a unit reset has been made since boot began, so that streams must be examined (R511) -/
  examine : Bool := true
  /-- the boot flash, 16 MiB; an unlisted byte reads 0xFF -/
  flash : Sparse Byte := []
  /-- a staged image, 8 MiB; an unlisted byte reads 0 -/
  staged : List Host.Cell := []
  /-- bytes staged since the last commit -/
  stagedSum : Nat := 0
  /-- the slot the image in use came from, and its header -/
  image : Bytes := []
  /-- a restart has been asked for once the reply is posted (R487) -/
  restart : Bool := false
  /-- the unit entered DORMANT with LINK_SLEEP, and the sleep has been granted -/
  sleep : Bool := false
  asleep : Bool := false
deriving DecidableEq, Repr

/-- The TAP (R642): the instruction, the data register shifted out last, the boundary cells, and whether outputs float. -/
structure Tap where
  inst : Nat := 0x02
  out : Nat := 0
  cells : Nat := 0
  drive : Bool := false
  float : Bool := false
  /-- what the instruction register shifted out last -/
  ir : Nat := 0
deriving DecidableEq, Repr
/-- The unit: everything but the queue of waiting commands and the fuse bank. -/
structure Dev where
  /-- the registers, keyed by window and offset; an unlisted register holds its reset value -/
  regs : Sparse DWord := []
  /-- MODEL'S OWN: how many free values have been drawn; Config.freeValue of it is the next one -/
  free : Nat := 0
  /-- Quire time in nanoseconds (17_quire_link.md R544) -/
  qtime : Nat := 0
  /-- the fuse shadow, 4,096 bits, loaded from the fuse bank at t0 of boot (21_security_debug.md R633) -/
  shadow : Nat := 0
  /-- the PCIe port is bonded: an H variant (R4). DESIGN CHOICE (notes/assumptions/126.md): the unit starts as an H variant -/
  bonded : Bool := true
  /-- the power stage of each OPU island (R26); unlisted is off -/
  opuStage : Sparse OpuStage := []
  /-- the data bytes of the buffer DRAM; an unlisted byte reads 0 -/
  dram : List Host.Cell := []
  /-- check bits of a DRAM word, as their difference from the right ones (R361) -/
  dramChk : Sparse (BitVec 16) := []
  /-- host memory as the unit reads and writes it; an unlisted byte reads 0 -/
  hostMem : List Host.Cell := []
  /-- the read channel slices -/
  slices : Sparse Slice := []
  /-- what each OPU's slices latch together -/
  pickups : Sparse Pickup := []
  /-- the Sheet Decode Engine -/
  sde : Sde := {}
  /-- the sheets on the retry ladder (R144) -/
  ladder : List LadderSheet := []
  /-- the Ream journal -/
  journal : Journal := {}
  /-- MODEL'S OWN: the data that the latest read of a register, a record, a buffer word or a port returned to its reader -/
  answer : Bytes := []
  /-- firmware's data -/
  fw : Firmware := {}
  /-- the spindle block -/
  spn : Spindle := {}
  /-- the sleds -/
  sleds : Sparse Sled := []
  /-- the clamp -/
  clamp : Clamp := {}
  /-- the Control Law Engine -/
  eng : Engine := {}
  /-- the servo of each OPU -/
  servos : Sparse Servo := []
  /-- SUM_REF of each layer, key 8 × side + layer, in SUM units; unlisted is the value before the first measurement (R240) -/
  sumRef : Sparse Nat := []
  /-- the calibration sequencer -/
  cal : Calib := {}
  /-- the write strategy generator of each OPU -/
  wsgs : Sparse Wsg := []
  /-- register accesses that wait for an OPU island to become ready, the earliest first (R27) -/
  stalled : List StalledAccess := []
  /-- the buffer DRAM controller -/
  drc : Drc := {}
  /-- the fabric cache -/
  fbc : Fbc := {}
  /-- MODEL'S OWN: whether the latest access received an error response -/
  error : Bool := false
  /-- the LINK island (17_quire_link.md) -/
  link : Link := {}
  /-- the HOST island (14_host_port.md) -/
  host : HostIf := {}
  /-- groups, the parity engine and the fixity engine (18_parity_and_fixity.md) -/
  comp : Compute := {}
  /-- the AON island, boot and flash (19_modes_and_power.md to 21_security_debug.md) -/
  aon : Aon := {}
  /-- the JTAG TAP (R642) -/
  tap : Tap := {}
deriving DecidableEq, Repr

/-- The machine: the unit, its fuse bank, and the commands that wait, first in, first out. -/
structure State where
  /-- the unit -/
  dev : Dev := {}
  /-- the fuse bank, 4,096 bits (21_security_debug.md R633) -/
  fuses : Nat := 0
  /-- the commands that wait, the front first -/
  pending : List Instr := []
deriving DecidableEq, Repr

/-- The fuse bank that the model starts from: a P4 unit with serial number 1 and MFG_DONE blown, nothing else
locked. DESIGN CHOICE: a unit's fuses are its own (notes/assumptions/3.md). -/
def resetFuses : Nat := 1 + 2 <<< 64 + 1 <<< 67

/-- The machine after a power-on reset (R616): every register at its reset value, the memories not written, every
island off, and boot not begun. -/
def State.reset : State := { dev := {}, fuses := resetFuses, pending := [] }

end Sys2Proof.Machine
end

