-- ==== Sys2Proof/Machine/Ops.lean ====
section
/-!
DEFINITION. The named operations over registers, memories and the engines' per-unit state that the meanings share.
-/

namespace Sys2Proof.Machine

/-- `a / b` where the spec gives a unit and no rounding: the exact quotient, or either whole number next to it. -/
def openDiv (a b : Nat) : Nat := a / b + (if a % b = 0 then 0 else bit (Config.roundUp a b))

/-- `openDiv` with a sign. -/
def openDivI (a : Int) (b : Nat) : Int := if a < 0 then -(openDiv a.natAbs b : Int) else openDiv a.natAbs b

/-- A command's effect on the unit, as the outcome of a step. -/
def State.onDev (s : State) (f : Dev → Dev) : Host.Outcome State Fault Refusal :=
  .next { s with dev := f s.dev }

/-- What register (i, j) holds at reset: the field map's value, but for the middle equaliser taps (Table 3-12),
the mask bit of each MSI-X vector (PRESUMED, PCIe) and the hold of each servo mailbox (Table 7-8). -/
def Reg.resetAt (r : Reg) (i j : Nat) : DWord :=
  if (r = Reg.RCS_EQA_S ∨ r = Reg.RCS_EQB_S ∨ r = Reg.RCS_EQA_L ∨ r = Reg.RCS_EQB_L) ∧ (j = 7 ∨ j = 8) then 0x40#32
  else if r = Reg.HP_MSIX ∧ j = 3 then 1#32
  else if r = Reg.CLE_MBOX ∧ i % 16 = 6 ∧ i < 64 then 0x10000#32
  else BitVec.ofNat 32 r.reset

/-- The value that register (i, j) holds. -/
def Dev.rd (d : Dev) (r : Reg) (i : Nat := 0) (j : Nat := 0) : DWord :=
  sparseGet (r.resetAt i j) d.regs (r.key i j)

/-- The unit with register (i, j) holding `v`. -/
def Dev.wr (d : Dev) (r : Reg) (v : DWord) (i : Nat := 0) (j : Nat := 0) : Dev :=
  { d with regs := sparseSet (r.resetAt i j) d.regs (r.key i j) v }

/-- The value of a field. -/
def Dev.fg (d : Dev) (f : Fld) (i : Nat := 0) (j : Nat := 0) : Nat := bitsOf (d.rd f.reg i j).toNat f.lo f.width

/-- The unit with a field holding the low bits of `v`, the register's other bits unchanged. -/
def Dev.fs (d : Dev) (f : Fld) (v : Nat) (i : Nat := 0) (j : Nat := 0) : Dev :=
  d.wr f.reg (BitVec.ofNat 32 (putBits (d.rd f.reg i j).toNat f.lo f.width v)) i j

/-- Whether a one-bit field is 1. -/
def Dev.is (d : Dev) (f : Fld) (i : Nat := 0) (j : Nat := 0) : Bool := d.fg f i j == 1

/-- The unit with a counter raised by `n`, saturating at 0xFFFF_FFFF. -/
def Dev.bump (d : Dev) (r : Reg) (i : Nat := 0) (n : Nat := 1) : Dev :=
  d.wr r (BitVec.ofNat 32 (limitN 0 0xFFFFFFFF ((d.rd r i).toNat + n))) i

/-- The unit with a field raised by `n`, saturating at its largest value. -/
def Dev.bumpF (d : Dev) (f : Fld) (i : Nat := 0) (n : Nat := 1) : Dev :=
  d.fs f (limitN 0 (2 ^ f.width - 1) (d.fg f i + n)) i

/-- `f` applied when a condition holds. -/
def Dev.cond (d : Dev) (c : Bool) (f : Dev → Dev) : Dev := if c then f d else d

/-- `f` applied for each element of a list, in order. -/
def Dev.each {α : Type} (d : Dev) (l : List α) (f : Dev → α → Dev) : Dev := l.foldl f d

/-- The next free value, a number that nothing in the model constrains, below `n` (0 where `n` is 0). -/
def Dev.freeNat (d : Dev) (n : Nat) : Nat := Config.freeValue d.free % n

/-- The unit after a free value has been drawn. -/
def Dev.drew (d : Dev) : Dev := { d with free := d.free + 1 }

/-- Whether the fuses enable an OPU (R3): P1 OPU0, P2 OPU0 and OPU2, P4 all four. -/
def Dev.opuPresent (d : Dev) (opu : Nat) : Bool :=
  match bitsOf d.shadow 64 2 with
  | 1 => opu == 0 || opu == 2
  | 2 => opu < 4
  | _ => opu == 0

/-- Whether a read channel slice is fused on (R6, R12). -/
def Dev.rcsPresent (d : Dev) (rcs : Nat) : Bool := rcs < 96 && d.opuPresent (rcs / 24)

/-- The power stage of an OPU island (R26). -/
def Dev.stage (d : Dev) (opu : Nat) : OpuStage := sparseGet .off d.opuStage opu

/-- Whether an OPU island is ready (R26). -/
def Dev.opuReady (d : Dev) (opu : Nat) : Bool := d.opuPresent opu && d.stage opu == .ready

/-- The state of a slice beside its registers. -/
def Dev.slice (d : Dev) (rcs : Nat) : Slice := sparseGet {} d.slices rcs

/-- The unit with `f` applied to a slice. -/
def Dev.onSlice (d : Dev) (rcs : Nat) (f : Slice → Slice) : Dev :=
  { d with slices := sparseSet {} d.slices rcs (f (d.slice rcs)) }

/-- What the slices of an OPU latched together. -/
def Dev.pickup (d : Dev) (opu : Nat) : Pickup := sparseGet {} d.pickups opu

/-- The unit with `f` applied to what an OPU's slices latched. -/
def Dev.onPickup (d : Dev) (opu : Nat) (f : Pickup → Pickup) : Dev :=
  { d with pickups := sparseSet {} d.pickups opu (f (d.pickup opu)) }

/-- The slices of an OPU (R12). -/
def slicesOf (opu : Nat) : List Nat := (List.range 24).map (24 * opu + ·)

/-- Whether an OPU slice runs: fused on, its island ready, and enabled. -/
def Dev.sliceOn (d : Dev) (rcs : Nat) : Bool :=
  d.rcsPresent rcs && d.stage (rcs / 24) == .ready && d.is .RCS_CTL_EN rcs

/-- The operating mode's code (Table 19-1). -/
def Dev.mode (d : Dev) : Nat := d.fg .PMU_STAT_MODE

/-- Whether a frost hold is in force (R598). -/
def Dev.frost (d : Dev) : Bool := d.is .PMU_STAT_FROST

/-- Whether LD_STOP_N of an OPU is asserted, that is, low (R24): its island is off, a frost hold is in force, or the
unit is FROZEN. -/
def Dev.ldStop (d : Dev) (opu : Nat) : Bool := d.stage opu == .off || d.frost || d.mode == 7

/-- The bytes of a memory from address `a` on; an unlisted byte reads 0. -/
def memRead (m : List Host.Cell) (a n : Nat) : Bytes :=
  let part := m.filter fun e => a ≤ e.1 && e.1 < a + n
  (List.range n).map fun i => sparseGet 0#8 part (a + i)

/-- The entries that list bytes at rising addresses, the zero bytes not listed. -/
def memCells : Nat → Bytes → List Host.Cell
  | _, [] => []
  | a, b :: bs => if b = 0#8 then memCells (a + 1) bs else (a, b) :: memCells (a + 1) bs

/-- Bits set by number. -/
def bitSet (l : List Nat) : Nat := l.foldl (fun n i => n ||| 2 ^ i) 0

/-- The memory with bytes written from address `a` on. -/
def memWrite (m : List Host.Cell) (a : Nat) (bs : Bytes) : List Host.Cell :=
  m.filter (fun e => e.1 < a) ++ memCells a bs ++ m.filter (fun e => a + bs.length ≤ e.1)

/-- The canonical form of a memory: addresses strictly rising, and no entry equal to what an unlisted byte reads as. -/
abbrev Memory.wf (m : List Host.Cell) : Prop := sparseWf 0#8 m

end Sys2Proof.Machine
end

