-- ==== Sys2Proof/Machine/Journal.lean ====
section
/-!
DEFINITION. The Ream journal (13_ream_journal.md): rows, remapping, records, submission, writing, sealing, reading and
the last-gasp log. What firmware does with a record once it is durable is in Streams and later files.
-/

namespace Sys2Proof.Machine

/-- Slots of the main ring (Table 13-1). -/
def mainSlots : Nat := 14336
/-- Slots of the event ring (Table 13-1). -/
def eventSlots : Nat := 1984

/-- The first row of a record slot (R412). -/
def slotRow (event : Bool) (i : Nat) : Nat := (if event then 57600 else 256) + 4 * i

/-- The unit with `f` applied to its journal. -/
def Dev.onJournal (d : Dev) (f : Journal → Journal) : Dev := { d with journal := f d.journal }

/-- The key of a physical row of a bank: main rows 0 to 65,535, then the spare rows. -/
def rowKey (bank row : Nat) : Nat := bank * 131072 + row

/-- A physical row's content. -/
def Journal.rowAt (j : Journal) (bank row : Nat) : Word := sparseGet 0#128 j.rows (rowKey bank row)

/-- The journal with a physical row written. -/
def Journal.putRow (j : Journal) (bank row : Nat) (w : Word) : Journal :=
  { j with rows := sparseSet 0#128 j.rows (rowKey bank row) w }

/-- Remap entry `k` of a bank (Table 13-1): row 16 + k / 4, dword k mod 4. -/
def Journal.remapEntry (j : Journal) (bank k : Nat) : Nat := bitsOf (j.rowAt bank (16 + k / 4)).toNat (32 * (k % 4)) 32

/-- The spare row that rules for a row of a bank: the highest-numbered valid entry that names it (R419). -/
def Journal.spareOf (j : Journal) (bank row : Nat) : Option Nat :=
  (List.range 512).foldl (fun r k =>
    let e := j.remapEntry bank k
    if e.testBit 31 && bitsOf e 0 17 == row then some k else r) none

/-- The physical row that an access to a row reaches (R418, R419). -/
def Journal.physical (j : Journal) (bank row : Nat) : Nat :=
  match j.spareOf bank row with
  | some k => 65536 + k
  | none => row

/-- The 64 bytes of a record slot in one bank (R412). -/
def Journal.recordIn (j : Journal) (bank : Nat) (event : Bool) (i : Nat) : Bytes :=
  (List.range 4).flatMap fun r => leBytes 16 (j.rowAt bank (j.physical bank (slotRow event i + r))).toNat

/-- Whether a record's CRC holds (R413). -/
def recordOk (b : Bytes) : Bool := leNat ((b.drop 60).take 4) == crc32c (b.take 60)

/-- A record's SEQ (Table 13-2). -/
def recordSeq (b : Bytes) : Nat := leNat (b.take 6)
/-- A record's TYPE (Table 13-2). -/
def recordType (b : Bytes) : Nat := leNat ((b.drop 6).take 1)
/-- A record's FLAGS (Table 13-2). -/
def recordFlags (b : Bytes) : Nat := leNat ((b.drop 7).take 1)
/-- A record's payload (Table 13-2). -/
def recordPayload (b : Bytes) : Bytes := (b.drop 16).take 44

/-- Whether a bank has not failed. -/
def Dev.bankOk (d : Dev) (bank : Nat) : Bool := (d.fg .RJ_STAT_BANK_OK).testBit bank

/-- The copy that a read of a record slot returns, whether bank 1 served it, and whether its CRC holds (R420). -/
def Dev.recordRead (d : Dev) (event : Bool) (i : Nat) : Bytes × Bool × Bool :=
  let a := d.journal.recordIn 0 event i
  if d.bankOk 0 && recordOk a then (a, false, true)
  else
    let b := d.journal.recordIn 1 event i
    (b, true, d.bankOk 1 && recordOk b)

/-- The valid records of a ring with their slots, by slot. -/
def Dev.records (d : Dev) (event : Bool) : List (Nat × Bytes) :=
  (List.range (if event then eventSlots else mainSlots)).filterMap fun i =>
    let r := d.recordRead event i
    if r.2.2 then some (i, r.1) else none

/-- Whether SEQ a is later than b (R415). -/
def seqLater (a b : Nat) : Bool :=
  let x := (a + 2 ^ 48 - b % 2 ^ 48) % 2 ^ 48
  1 ≤ x && x ≤ 2 ^ 47 - 1

/-- The 48-bit SEQ of the next record. -/
def Dev.nextSeq (d : Dev) : Nat := d.fg .RJ_SEQ_LO_SEQ + 2 ^ 32 * d.fg .RJ_SEQ_HI_SEQ

/-- The unit with the SEQ of the next record set. -/
def Dev.setSeq (d : Dev) (n : Nat) : Dev := (d.fs .RJ_SEQ_LO_SEQ (n % 2 ^ 32)).fs .RJ_SEQ_HI_SEQ (n / 2 ^ 32 % 2 ^ 16)

/-- The unit with a last-gasp entry recorded (R427): the first 24 in order, later ones over entries 24 to 31 in turn. -/
def Dev.gasp (d : Dev) (code bank row : Nat) : Dev :=
  d.onJournal fun j =>
    let i := if j.gaspCount < 24 then j.gaspCount else 24 + (j.gaspCount - 24) % 8
    { j with
      gasps := sparseSet {} j.gasps i
        { qtime := d.qtime, code := code, bank := bank, row := row, seqlo := d.nextSeq % 2 ^ 16 }
      gaspCount := j.gaspCount + 1 }

/-- A bank fails (R425): its bit of BANK_OK cleared, DEGRADED set, a last-gasp entry, and FAILED with a last-gasp entry
of code 2 once both have failed (R426). -/
def Dev.bankFail (d : Dev) (bank code row : Nat) : Dev :=
  let d := d.fs .RJ_STAT_BANK_OK ((d.fg .RJ_STAT_BANK_OK) &&& (3 - 2 ^ bank))
  let d := (d.fs .RJ_STAT_DEGRADED 1).gasp code bank row
  d.cond (d.fg .RJ_STAT_BANK_OK == 0) fun d => (d.fs .RJ_STAT_FAILED 1).gasp 2 2 row

/-- RJ_CNT_REC, RJ_CNT_TRANS and RJ_CNT_REMAP. -/
def rjCounters : List Reg := [.RJ_CNT_REC, .RJ_CNT_TRANS, .RJ_CNT_REMAP]

/-- One of `rjCounters` counts, and its total with it (R429, Table 15-5). -/
def rjCount (k : Nat) (d : Dev) : Dev :=
  let d := d.bump (rjCounters.getD k .RJ_CNT_REC)
  { d with fw := { d.fw with rjTotals := d.fw.rjTotals.modify k (· + 1) } }

/-- What a write leaves: the unit, the compare results still to come (true: the compare fails), and whether the write
stands. -/
structure RowWrite where
  dev : Dev
  fails : List Bool
  ok : Bool

/-- One physical row written, read back and, after a first failure, rewritten once (R418). What a row holds after its
rewrite fails is a free value. -/
def tryRow (d : Dev) (bank phys : Nat) (w : Word) (fails : List Bool) : RowWrite :=
  let good := d.onJournal fun j => j.putRow bank phys w
  if !(fails.headD false) then { dev := good, fails := fails.drop 1, ok := true }
  else if !((fails.drop 1).headD false) then
    { dev := rjCount 1 good, fails := fails.drop 2, ok := true }
  else
    { dev := (d.onJournal fun j => j.putRow bank phys (BitVec.ofNat 128 (d.freeNat (2 ^ 128)))).drew,
      fails := fails.drop 2, ok := false }

/-- How many spare rows a bank has used (Table 13-7). -/
def Dev.sparesUsed (d : Dev) (bank : Nat) : Nat :=
  if bank = 0 then d.fg .RJ_SPARE_USED0 else d.fg .RJ_SPARE_USED1

/-- Remaps of a row until its data stands in a spare row, at most `n` of them; the bank fails when no spare is left,
when a remap entry fails its rewrite, or, at the end of a seal's one remap, when the spare row fails (R418). -/
def remapRow : Nat → Dev → Nat → Nat → Word → List Bool → RowWrite
  | 0, d, bank, row, _, fails => { dev := d.bankFail bank 1 row, fails := fails, ok := false }
  | n + 1, d, bank, row, w, fails =>
    let k := d.sparesUsed bank
    if 512 ≤ k then { dev := d.bankFail bank 4 row, fails := fails, ok := false }
    else
      let old := (d.journal.rowAt bank (16 + k / 4)).toNat
      let e := tryRow d bank (16 + k / 4) (BitVec.ofNat 128 (putBits old (32 * (k % 4)) 32 (2 ^ 31 + row))) fails
      if !e.ok then { dev := e.dev.bankFail bank 1 (16 + k / 4), fails := e.fails, ok := false }
      else
        let d := (if bank = 0 then e.dev.fs .RJ_SPARE_USED0 (k + 1) else e.dev.fs .RJ_SPARE_USED1 (k + 1))
        let d := rjCount 2 (d.fs .RJ_STAT_SPARE 1)
        let r := tryRow d bank (65536 + k) w e.fails
        if r.ok then r else remapRow n r.dev bank row w r.fails

/-- One row written under R418; `limit` bounds the remaps. -/
def writeRow (limit : Nat) (d : Dev) (bank row : Nat) (w : Word) (fails : List Bool) : RowWrite :=
  let r := tryRow d bank (d.journal.physical bank row) w fails
  if r.ok then r else remapRow limit r.dev bank row w r.fails

/-- The four rows of a record written to one bank, in order; nothing where the bank has failed (R418). -/
def writeBank (limit : Nat) (d : Dev) (bank row : Nat) (b : Bytes) (fails : List Bool) : Dev :=
  ((List.range 4).foldl (fun (r : RowWrite) i =>
    if r.dev.bankOk bank then
      writeRow limit r.dev bank (row + i) (BitVec.ofNat 128 (leNat ((b.drop (16 * i)).take 16))) r.fails
    else r) { dev := d, fails := fails, ok := true }).dev

/-- The 64 bytes of a record as the journal completes it (R413, R415). -/
def recordBytes (seq qtime : Nat) (sub : Bytes) : Bytes :=
  let s := takeFill 0#8 64 sub
  let b := leBytes 6 seq ++ (s.drop 6).take 2 ++ leBytes 8 qtime ++ (s.drop 16).take 44
  b ++ leBytes 4 (crc32c b)

/-- A record written to both banks at a slot; SEQ advances, and a record that a bank holds is durable and counted
(R411, R415). -/
def Dev.writeRecord (d : Dev) (limit : Nat) (event : Bool) (slot : Nat) (b : Bytes) (fails0 fails1 : List Bool) : Dev :=
  let d := writeBank limit d 0 (slotRow event slot) b fails0
  let d := writeBank limit d 1 (slotRow event slot) b fails1
  (d.setSeq ((d.nextSeq + 1) % 2 ^ 48)).cond (!d.is .RJ_STAT_FAILED) (rjCount 0)

/-- The kept main slot, before RJ_TAIL (R417). -/
def Dev.keptSlot (d : Dev) : Nat := (d.fg .RJ_TAIL + mainSlots - 1) % mainSlots

/-- Free main slots, from HEAD to the kept slot. -/
def Dev.freeSlots (d : Dev) : Nat := (d.keptSlot + mainSlots - d.fg .RJ_HEAD_HEAD) % mainSlots

/-- Whether a main-ring submission would write the kept slot or slot RJ_TAIL (R417). -/
def Dev.ringFull (d : Dev) : Bool := d.fg .RJ_HEAD_HEAD == d.keptSlot || d.fg .RJ_HEAD_HEAD == d.fg .RJ_TAIL

/-- Whether the journal takes submissions. -/
def Dev.journalOpen (d : Dev) : Bool :=
  d.is .RJ_CTL_EN && !d.is .RJ_STAT_SEALED && !d.is .RJ_STAT_FAILED && !d.journal.sealing

/-- FULL follows from the front of the queue (R417). -/
def Dev.fullUpdate (d : Dev) : Dev :=
  d.fs .RJ_STAT_FULL (bit (match d.journal.queue with
    | s :: _ => !s.event && d.ringFull
    | [] => false))

/-- Waiting fabric writes accepted into the queue while it has room (R416). -/
def acceptWaiting : Nat → Dev → Dev
  | 0, d => d
  | n + 1, d =>
    match d.journal.waiting with
    | s :: rest =>
      if d.journal.queue.length < 8 then
        acceptWaiting n (d.onJournal fun j =>
          { j with queue := j.queue ++ [{ s with qtime := d.qtime }], waiting := rest })
      else d
    | [] => d

/-- A 64-byte fabric write to the journal (R416). An error response, where the journal takes no submission, changes
nothing. -/
def Dev.submit (d : Dev) (event : Bool) (b : Bytes) : Dev :=
  if d.journalOpen then
    (acceptWaiting 8 (d.onJournal fun j =>
      { j with waiting := j.waiting ++ [{ event := event, bytes := takeFill 0#8 64 b }] })).fullUpdate
  else d

/-- A record that firmware submits: while the journal is sealed firmware keeps it for the thaw (R424). -/
def Dev.fwSubmit (d : Dev) (event : Bool) (type flags : Nat) (payload : Bytes) : Dev :=
  let b := takeFill 0#8 6 [] ++ leBytes 1 type ++ leBytes 1 flags ++ takeFill 0#8 8 [] ++ takeFill 0#8 44 payload
  if (d.is .RJ_STAT_SEALED || d.journal.sealing) && !d.is .RJ_STAT_FAILED then
    d.onJournal fun j => { j with held := j.held ++ [{ event := event, bytes := takeFill 0#8 64 b, qtime := d.qtime }] }
  else d.submit event b

/-- The front of the queue written, and the record written; none where the journal cannot write now (R416 to R418).
Once both banks have failed every submission gets an error response (R426). -/
def Dev.recordWrite (d : Dev) (fails0 fails1 : List Bool) : Dev × Option Bytes :=
  match d.journal.queue with
  | [] => (d, none)
  | s :: rest =>
    if !d.journalOpen || (!s.event && d.ringFull) then (d.fullUpdate, none)
    else
      let slot := if s.event then d.fg .RJ_HEAD_EHEAD else d.fg .RJ_HEAD_HEAD
      let b := recordBytes d.nextSeq s.qtime s.bytes
      let d := d.onJournal fun j => { j with queue := rest }
      let d := d.writeRecord 512 s.event slot b fails0 fails1
      let d := if s.event then d.fs .RJ_HEAD_EHEAD ((slot + 1) % eventSlots)
        else d.fs .RJ_HEAD_HEAD ((slot + 1) % mainSlots)
      if d.is .RJ_STAT_FAILED then
        ((d.onJournal fun j => { j with queue := [], waiting := [] }).fs .RJ_STAT_FULL 0, none)
      else ((acceptWaiting 8 d).fullUpdate, some b)

/-- A write to offset 0x80: the staged FROST payload (R424), refused with an error response once sealing. -/
def rjStageFrost (b : Bytes) (d : Dev) : Dev :=
  if d.journalOpen then d.onJournal fun j => { j with staged := (takeFill 0#8 64 b).drop 16 |>.take 44 } else d

/-- The seal that a frost line has begun (R424): queued records not begun get error responses, the record in progress is completed and the staged
FROST record takes the kept slot, each row with at most one remap; then SEALED. Returns the record that was in
progress. -/
def Dev.seal (d : Dev) (begun : Bool) (fails0 fails1 frost0 frost1 : List Bool) : Dev × Option Bytes :=
  if !d.journal.sealing then (d, none)
  else
    let cur := if begun then d.journal.queue.head? else none
    let rest := if begun then d.journal.queue.drop 1 else d.journal.queue
    let d := d.onJournal fun j => { j with queue := [], waiting := [], held := j.held ++ rest ++ j.waiting }
    let r := match cur with
      | some s =>
        let slot := if s.event then d.fg .RJ_HEAD_EHEAD else d.fg .RJ_HEAD_HEAD
        if d.is .RJ_STAT_FAILED || (!s.event && d.ringFull) then (d, none)
        else
          let b := recordBytes d.nextSeq s.qtime s.bytes
          let d := d.writeRecord 1 s.event slot b fails0 fails1
          ((if s.event then d.fs .RJ_HEAD_EHEAD ((slot + 1) % eventSlots)
            else d.fs .RJ_HEAD_HEAD ((slot + 1) % mainSlots)), if d.is .RJ_STAT_FAILED then none else some b)
      | none => (d, none)
    let d := r.1
    let sub := takeFill 0#8 6 [] ++ leBytes 1 0x0E ++ leBytes 1 0 ++ takeFill 0#8 8 [] ++ takeFill 0#8 44 d.journal.staged
    let d := d.cond (!d.is .RJ_STAT_FAILED) fun d =>
      let e := d.writeRecord 1 false d.keptSlot (recordBytes d.nextSeq d.qtime sub) frost0 frost1
      e.cond (e.is .RJ_STAT_FAILED) fun e => e.gasp 5 2 (slotRow false d.keptSlot)
    (((d.fs .RJ_STAT_SEALED 1).fs .RJ_STAT_FULL 0).onJournal fun j => { j with sealing := false }, r.2)

/-- A read of a record slot (R420); a live record that has lost its CRC in both banks gets a last-gasp entry. -/
def rjRecordRead (event : Bool) (slot : Nat) (d : Dev) : Dev :=
  let i := slot % (if event then eventSlots else mainSlots)
  let r := d.recordRead event i
  let d := d.cond r.2.1 fun d => d.fs .RJ_STAT_RD_ALT 1
  let live := (i + mainSlots - d.fg .RJ_TAIL) % mainSlots < (d.fg .RJ_HEAD_HEAD + mainSlots - d.fg .RJ_TAIL) % mainSlots
  let d := d.cond (!r.2.2 && !event && live) fun d => d.gasp 6 2 (slotRow event i)
  { d with answer := r.1 }

/-- The sixteen bytes of a last-gasp entry (Table 13-5). -/
def Gasp.bytes (g : Gasp) : Bytes :=
  leBytes 8 g.qtime ++ leBytes 1 g.code ++ leBytes 1 g.bank ++ leBytes 3 g.row ++ leBytes 1 0 ++ leBytes 2 g.seqlo

/-- The journal leaving reset: the queue lost, a staged payload that shows no OPU recording, EN clear, the banks judged
by their superblocks, the spares used counted, and SEALED while a frost hold or thaw delay is in force (R419, R424). -/
def journalReset (d : Dev) : Dev :=
  let ok := fun bank => bitsOf (d.journal.rowAt bank 0).toNat 0 32 == 0x4C524E4A
    || bitsOf (d.journal.rowAt bank 8).toNat 0 32 == 0x4C524E4A
  let used := fun bank => (List.range 512).foldl (fun n k => if (d.journal.remapEntry bank k).testBit 31 then k + 1 else n) 0
  let d := d.each regsOfRj fun d r => d.each (List.range r.n1) fun d i => d.wr r (r.resetAt i 0) i
  let d := d.onJournal fun j => { j with queue := [], waiting := [], held := [], staged := [], sealing := false }
  let d := (d.fs .RJ_SPARE_USED0 (used 0)).fs .RJ_SPARE_USED1 (used 1)
  let d := d.each [0, 1] fun d b => d.cond (!ok b) fun d => d.bankFail b 3 0
  d.cond (d.is .PMU_STAT_FROST) fun d => d.fs .RJ_STAT_SEALED 1

end Sys2Proof.Machine
end

