-- ==== Sys2Proof/Machine/Firmware.lean ====
section
/-!
DEFINITION. What firmware release F3.1 shares between the blocks: attention codes, the event log, the servo mailbox,
commands in progress.
-/

namespace Sys2Proof.Machine

/-- ATTN of a reply and of HP_UNIT_ATTN: 0, the one pending code, or 15 (R443). -/
def attnOf (pend : Nat) : Nat :=
  match (List.range 8).filter fun i => pend.testBit i with
  | [] => 0
  | [i] => i + 1
  | _ => 15

/-- An attention code raised: it is pending, and ASEQ advances modulo 16 whether or not it was (R443). -/
def Dev.attn (d : Dev) (code : Nat) : Dev :=
  let p := d.fg .HP_UNIT_ATTN_PEND ||| 2 ^ (code - 1)
  ((d.fs .HP_UNIT_ATTN_PEND p).fs .HP_UNIT_ATTN_ATTN (attnOf p)).fs .HP_UNIT_ATTN_ASEQ
    ((d.fg .HP_UNIT_ATTN_ASEQ + 1) % 16)

/-- An EVENT record (Table 15-6). -/
structure EventInfo where
  code : Nat
  src : Nat := 0xFF
  rung : Nat := 0
  psa : Nat := 0
  who : Nat := 0
  lsn : Nat := 0xFFFFFFFF
  data : Bytes := []

/-- The payload of an EVENT record (Table 15-6). -/
def EventInfo.payload (e : EventInfo) : Bytes :=
  leBytes 2 e.code ++ leBytes 1 e.src ++ leBytes 1 e.rung ++ leBytes 5 e.psa ++ leBytes 1 0 ++ leBytes 2 e.who
    ++ leBytes 4 e.lsn ++ takeFill 0#8 28 e.data

/-- Firmware writes an event to the event log (R490). -/
def Dev.event (d : Dev) (e : EventInfo) : Dev := d.fwSubmit true 0x10 0 e.payload

/-- A field of an OPU's servo mailbox (Table 7-8): word, low bit, width. -/
structure SvFld where
  word : Nat
  lo : Nat
  width : Nat

/-- SV_CMD.OP. -/
def svOp : SvFld := ⟨0, 0, 4⟩
/-- SV_CMD.TOKEN. -/
def svToken : SvFld := ⟨0, 8, 8⟩
/-- SV_ARG.TRACK. -/
def svTrack : SvFld := ⟨1, 0, 18⟩
/-- SV_ARG.LAYER. -/
def svArgLayer : SvFld := ⟨1, 18, 3⟩
/-- SV_STATE.STATE. -/
def svState : SvFld := ⟨2, 0, 4⟩
/-- SV_STATE.LAYER. -/
def svLayer : SvFld := ⟨2, 4, 3⟩
/-- SV_STATE.SIDE. -/
def svSide : SvFld := ⟨2, 7, 1⟩
/-- SV_STATE.TOKEN. -/
def svTaken : SvFld := ⟨2, 8, 8⟩
/-- SV_STATE.RESULT. -/
def svResult : SvFld := ⟨2, 16, 3⟩
/-- SV_STATE.INH_SRC. -/
def svInhSrc : SvFld := ⟨2, 20, 8⟩
/-- SV_NEXT_J.J. -/
def svNextJ : SvFld := ⟨3, 0, 8⟩
/-- SV_FOC_OFS. -/
def svFocOfs : SvFld := ⟨4, 0, 32⟩
/-- SV_TRK_OFS. -/
def svTrkOfs : SvFld := ⟨5, 0, 32⟩
/-- SV_INH.CLR_TOKEN. -/
def svClrToken : SvFld := ⟨6, 0, 8⟩
/-- SV_INH.CLR_ECHO. -/
def svClrEcho : SvFld := ⟨6, 8, 8⟩
/-- SV_INH.HOLD. -/
def svHold : SvFld := ⟨6, 16, 1⟩
/-- SV_LAND.DELTA. -/
def svDelta : SvFld := ⟨7, 0, 8⟩
/-- SV_LAND.WEDGE. -/
def svWedge : SvFld := ⟨7, 8, 2⟩
/-- SV_LAND.MISLAND. -/
def svMisland : SvFld := ⟨7, 10, 1⟩
/-- SV_LAND.FALLBACK. -/
def svFallback : SvFld := ⟨7, 11, 1⟩
/-- SV_LAND.COUNT. -/
def svCount : SvFld := ⟨7, 16, 16⟩
/-- SV_TRK_PK. -/
def svTrkPk : SvFld := ⟨8, 0, 32⟩
/-- SV_FOC_PK. -/
def svFocPk : SvFld := ⟨9, 0, 32⟩
/-- SV_FLAGS.SA_DITHER. -/
def svDither : SvFld := ⟨10, 0, 1⟩
/-- SV_FLAGS.RO_LEARN. -/
def svLearn : SvFld := ⟨10, 1, 1⟩
/-- SV_SEEK.LEFT. -/
def svLeft : SvFld := ⟨11, 0, 18⟩

/-- A field of an OPU's servo mailbox, CLE_MBOX[16 × OPU + word] (R256). -/
def Dev.sv (d : Dev) (opu : Nat) (f : SvFld) : Nat := bitsOf (d.rd .CLE_MBOX (16 * opu + f.word)).toNat f.lo f.width

/-- The unit with a field of an OPU's servo mailbox set. -/
def Dev.svSet (d : Dev) (opu : Nat) (f : SvFld) (v : Nat) : Dev :=
  d.wr .CLE_MBOX (BitVec.ofNat 32 (putBits (d.rd .CLE_MBOX (16 * opu + f.word)).toNat f.lo f.width v)) (16 * opu + f.word)

/-- A firmware hold reason on an OPU: SV_INH.HOLD (Table 7-8). -/
def Dev.hold (d : Dev) (opu : Nat) (on : Bool) : Dev := d.svSet opu svHold (bit on)

/-- The OPUs that the fuses enable. -/
def Dev.opus (d : Dev) : List Nat := (List.range 4).filter d.opuPresent

/-- The side an OPU serves: 0 side A for OPU0 and OPU1, 1 side B for OPU2 and OPU3 (R2). -/
def opuSide (opu : Nat) : Nat := opu / 2

/-- The unit with `f` applied to firmware's data. -/
def Dev.onFw (d : Dev) (f : Firmware → Firmware) : Dev := { d with fw := f d.fw }

/-- What firmware keeps for an OPU. -/
def Dev.opuFw (d : Dev) (opu : Nat) : OpuFw := sparseGet {} d.fw.opus opu

/-- The unit with `f` applied to what firmware keeps for an OPU. -/
def Dev.onOpuFw (d : Dev) (opu : Nat) (f : OpuFw → OpuFw) : Dev :=
  d.onFw fun w => { w with opus := sparseSet {} w.opus opu (f (d.opuFw opu)) }

/-- A stream's state. -/
def Dev.stream (d : Dev) (s : Nat) : Stream := sparseGet {} d.fw.streams s

/-- The unit with `f` applied to a stream. -/
def Dev.onStream (d : Dev) (s : Nat) (f : Stream → Stream) : Dev :=
  d.onFw fun w => { w with streams := sparseSet {} w.streams s (f (d.stream s)) }

/-- A little-endian field of a command's 64 bytes. -/
def Cmd.field (c : Cmd) (off n : Nat) : Nat := leNat ((c.bytes.drop off).take n)

/-- A command's opcode (R439). -/
def Cmd.opcode (c : Cmd) : Nat := c.field 0 1

/-- The command with a number, if it has not been replied. -/
def Dev.cmd (d : Dev) (id : Nat) : Option Cmd := d.fw.cmds.find? fun c => c.id == id

/-- The unit with `f` applied to a command. -/
def Dev.onCmd (d : Dev) (id : Nat) (f : Cmd → Cmd) : Dev :=
  d.onFw fun w => { w with cmds := w.cmds.map fun c => if c.id == id then f c else c }

/-- A command ends: its CLASS, DETAIL and results stand, and its reply waits to be posted. A command that has ended
stays as it is. -/
def Dev.endCmd (d : Dev) (id cls detail : Nat) (r0 : Nat := 0) (r1 : Nat := 0) : Dev :=
  let now := d.fw.ended ++ (if ((d.cmd id).map (·.stage)) == some .running then [id] else [])
  (d.onCmd id fun c => if c.stage = .ended then c
    else { c with stage := .ended, cls := cls, detail := detail, r0 := r0, r1 := r1 }).onFw fun w => { w with ended := now }

/-- Commands that run. -/
def Dev.running (d : Dev) : List Cmd := d.fw.cmds.filter fun c => c.stage = .running

/-- The opcode of firmware's own read of a sheet for another unit, which no host command has. -/
def opServe : Nat := 0xF0

/-- Opcodes that Table 15-1 marks as needing a disc, LOAD, and a read for another unit: those that need the disc turning. -/
def needsDisc (op : Nat) : Bool := [0x10, 0x11, 0x12, 0x15, 0x18, 0x1A, 0x22, 0x23, opServe].contains op

/-- Whether every sheet of a command is still served from the buffer (R301, R470). -/
def Cmd.buffered (c : Cmd) : Bool := (c.opcode == 0x10 || c.opcode == 0x15 || c.opcode == opServe) && !c.binds.isEmpty
  && c.binds.all fun b => b.version.isSome || (b.psa.isNone && b.version.isNone) || b.result.isSome

/-- Every running command that needs the disc turning ends with a CLASS and DETAIL; reads of sheets still in the
buffer go on (R301, R328). -/
def Dev.failDisc (d : Dev) (cls detail : Nat) : Dev :=
  d.each d.running fun d c => d.cond (needsDisc c.opcode && !c.buffered) fun d => d.endCmd c.id cls detail

/-- The spindle is withdrawn until the next reset (R287, R301): a hardware event, ATTN 8, and commands that need the
disc turning fail. -/
def Dev.withdrawSpindle (d : Dev) : Dev :=
  (((d.onFw fun w => { w with spnWithdrawn := true }).event { code := 0x2004 }).attn 8).failDisc 6 2

/-- The seconds-to-nanoseconds factor. -/
def second : Nat := 1000000000

end Sys2Proof.Machine
end

