-- ==== Sys2Proof/Machine/Channel.lean ====
section
/-!
DEFINITION. The signal path of a read channel slice (03_read_channel_slices.md R67 to R92, R98): trims and VGA, CTF, ADC and its
erasure marks, the interpolator under timing recovery, the equaliser, and the deskew buffer. Every command that carries a
slice's input runs it through `sliceRun`.
-/

namespace Sys2Proof.Machine

/-! RCS_FMT (Table 3-17). -/

/-- The geometry class of RCS_FMT: values other than 4 to 8 act as 4 (Table 3-17). -/
def fmtClass (w : DWord) : Nat := let k := bitsOf w.toNat 0 4; if 4 ≤ k && k ≤ 8 then k else 4

/-- The inner level of RCS_FMT. -/
def fmtLevel (w : DWord) : Nat := bitsOf w.toNat 4 2

/-- P as RCS_FMT codes it: code 3 acts as 1 (Table 3-17). -/
def fmtP (w : DWord) : Nat :=
  match bitsOf w.toNat 6 2 with
  | 0 => 4
  | 2 => 8
  | _ => 6

/-- The strength that RCS_FMT names. -/
def fmtStrength (w : DWord) : Strength := { level := fmtLevel w, p := fmtP w }

/-- The slice states of RCS_STAT.STATE (Table 3-14). -/
def sliceIdle : Nat := 1
/-- Slice state ACQUIRE. -/
def sliceAcquire : Nat := 2
/-- Slice state TRACK. -/
def sliceTrack : Nat := 3
/-- Slice state LOST. -/
def sliceLost : Nat := 4

/-! The analog front end (R71, R73, R74, R336). -/

/-- 10^(n/200) as a fraction, for the VGA gain of R71; the base is 10^(1/200) to 15 digits. -/
def decibel (n : Int) : Nat × Nat :=
  let p := 1011579454259899 ^ n.natAbs
  let q := 1000000000000000 ^ n.natAbs
  if n < 0 then (q, p) else (p, q)

/-- The offset and gain trims on an input voltage in nanovolts, the result in picovolts: OFS in millivolts, its code -64 acting
as -63, and the factor 1 + 0.002 × GTRIM (R74). -/
def trimmed (trim : DWord) (v : Int) : Int :=
  let ofs := limitI (-63) 63 (signed 7 trim.toNat)
  (v + 1000000 * ofs) * (1000 + 2 * signed 5 (bitsOf trim.toNat 8 5))

/-- The VGA on a voltage in picovolts: a gain of (-2.0 + 0.3 × GAIN) dB (R71). -/
def amplified (afe : DWord) (v : Int) : Int :=
  let g := decibel (3 * (bitsOf afe.toNat 0 6 : Int) - 20)
  roundDiv (v * g.1) g.2

/-- The CTF corner in kHz: (100 + 8 × FC) MHz, times 1 + 0.015 × FT (R73, R336). -/
def ctfCorner (afe : DWord) (ft : Int) : Nat := ((100 + 8 * bitsOf afe.toNat 6 5 : Int) * (1000 + 15 * ft)).toNat

/-- The CTF boost in units of 0.5 dB (R73). -/
def ctfBoost (afe : DWord) : Nat := bitsOf afe.toNat 11 4

/-! The ADC (R76, R77). -/

/-- Whether a voltage in picovolts is over range: its magnitude exceeds 127.5 LSB of 1.0 V ÷ 254 (R77). -/
def overRange (v : Int) : Bool := 255 * 10 ^ 12 < 2 * 254 * v.natAbs

/-- The ADC code of a voltage in picovolts: round(v ÷ LSB), limited to -127 to +127 (R76, R77). -/
def adcCode (v : Int) : Int := limitI (-127) 127 (roundDiv (v * 254) (10 ^ 12))

/-! Targets (R89, R90). -/

/-- A level as a sign. -/
def sgn (b : Bool) : Int := if b then 1 else -1

/-- The ideal output of target taps for the levels a(n) to a(n - 4) (R89). -/
def idealOut (t : Nat × Nat × Nat) (a0 a1 a2 a3 a4 : Bool) : Int :=
  8 * ((t.1 : Int) * (sgn a0 + sgn a4) + (t.2.1 : Int) * (sgn a1 + sgn a3) + (t.2.2 : Int) * sgn a2)

/-- The target level nearest to an output; of two as near, the one found first. -/
def nearestLevel (t : Nat × Nat × Nat) (y : Int) : Int :=
  let l := (List.range 32).map fun n =>
    idealOut t (n.testBit 0) (n.testBit 1) (n.testBit 2) (n.testBit 3) (n.testBit 4)
  l.foldl (fun b v => if (y - v).natAbs < (y - b).natAbs then v else b) (l.headD 0)

/-- The taps [A, B, C] of target `t` of a slice. -/
def Dev.taps (d : Dev) (rcs t : Nat) : Nat × Nat × Nat :=
  if t = 0 then (d.fg .RCS_TGT_A_PRI rcs, d.fg .RCS_TGT_B_PRI rcs, d.fg .RCS_TGT_C_PRI rcs)
  else (d.fg .RCS_TGT_A_ALT rcs, d.fg .RCS_TGT_B_ALT rcs, d.fg .RCS_TGT_C_ALT rcs)

/-! The signal path while it runs. -/

/-- What a slice's signal path reads beside its own state while a stretch of input passes. -/
structure Path where
  /-- K, F, and K' of the format in force -/
  k : Nat := 4
  frame : Nat := 55760
  slots : Nat := 1
  /-- leaf positions that the track has slots for -/
  leaves : Nat := 38
  taps : Nat × Nat × Nat := (1, 2, 2)
  /-- MARK_NEG, ADAPT, and whether the slice is in TRACK with EN set -/
  neg : Bool := false
  adapt : Bool := true
  track : Bool := false
  /-- RCS_TR and RCS_EQ_CTL.MU and RCS_SYNC.BLANK_THR -/
  tr : DWord := 0#32
  muShift : Nat := 10
  blankThr : Nat := 16
  /-- CAL_FTRIM as it acts -/
  ft : Int := 0
  /-- the over-range runs of the OPU's other slices, while NBR_MARK is 1 -/
  others : List (Nat × Nat) := []
  /-- the OPU's revolution count -/
  rev : Nat := 0

/-- A slice while a stretch of input passes: its step in 1.24 format, and what its registers are still to show of the stretch. -/
structure Run where
  s : Slice := {}
  step : Nat := 0x1000000
  fmax : Bool := false
  /-- over-range runs that began, samples marked by the slice's own over-range, and its first and latest over-range sample -/
  runs : Nat := 0
  smps : Nat := 0
  overAt : Option (Nat × Nat) := none

/-- A step limited to 0.25 to 1.0 in 1.24 format (R82). -/
def limitStep (n : Nat) : Nat := limitN 0x400000 0x1000000 n

/-! Timing recovery (R82, R83, R85, R86, R88). -/

/-- The known level of a servo preamble and servo mark at a channel bit of the servo field; space before the field (R85). -/
def knownLevel (k : Nat) (b : Int) : Bool :=
  if b < 0 then false
  else
    let i := b.toNat / k
    if i < 56 then i % 2 == 1 else [false, false, false, false, true, true, true, true, false, false, true, false].getD (i - 56) false

/-- The levels of a leaf preamble that starts at mark (R42, R85). -/
def preambleLevels : List Bool := nrzi true preambleBits

/-- The ideal level for the output at the place where the signal stands: the known pattern on servo preamble, servo mark and
leaf preamble, else the level nearest (R85). A leaf preamble may begin at either level: the one nearer to the output is taken. -/
def Path.ideal (c : Path) (s : Slice) (y : Int) : Int :=
  let m : Int := if c.neg then -1 else 1
  match s.zone with
  | .servo =>
    if s.place < 68 * c.k then
      let a := fun (j : Int) => knownLevel c.k ((s.place : Int) - j)
      m * idealOut c.taps (a 0) (a 1) (a 2) (a 3) (a 4)
    else nearestLevel c.taps y
  | .field =>
    let x := s.count % c.frame
    if x < 192 && s.count / c.frame < c.leaves then
      let a := fun (j : Nat) => if j ≤ x then preambleLevels.getD (x - j) true else true
      let v := idealOut c.taps (a 0) (a 1) (a 2) (a 3) (a 4)
      if 0 ≤ v * y then v else -v
    else nearestLevel c.taps y
  | .gap => nearestLevel c.taps y

/-- Whether the acquisition gains are in use (R86): on the servo preamble, on the first 128 bits of a leaf preamble, and after a
preset until a servo mark is found. -/
def Path.acquires (c : Path) (s : Slice) : Bool :=
  s.acq || (s.zone == .servo && s.place < 56 * c.k)
    || (s.zone == .field && s.count % c.frame < 128 && s.count / c.frame < c.leaves)

/-- One update of the timing loop from an output `y` with ideal level `i` (R85): e = y(k) d(k-1) - y(k-1) d(k), scaled by 2^-KP
into the phase and 2^-KI into the integrator, which stops at its limits (R83); then the mean of |e| over 64 T (R88). No update
in the jump gap or beside a marked output. -/
def Path.timing (c : Path) (y i : Int) (marked : Bool) (r : Run) : Run :=
  let s := r.s
  match if marked || s.zone == .gap then none else s.prev with
  | none => { r with s := { s with prev := if marked then none else some (y, i) } }
  | some (y1, i1) =>
    let e := y * i1 - y1 * i
    let kp := if c.acquires s then bitsOf c.tr.toNat 0 4 else bitsOf c.tr.toNat 8 4
    let ki := if c.acquires s then bitsOf c.tr.toNat 4 4 else bitsOf c.tr.toNat 12 4
    let integ : Int := (r.step * 2 ^ 16 + s.frac : Nat) + openDivI (e * Config.errorUnit) (2 ^ ki)
    let now := (limitI (2 ^ 38) (2 ^ 40) integ).toNat
    let errs := (e.natAbs :: s.errs).take 64
    let far := errs.length == 64 && 64 * 4 * bitsOf c.tr.toNat 16 8 < errs.sum
    { r with
      step := now / 2 ^ 16
      fmax := r.fmax || decide (2 ^ 40 < integ)
      s := { s with
        mu := s.mu + openDivI (e * Config.errorUnit) (2 ^ kp), frac := now % 2 ^ 16, low := s.low || decide (integ < 2 ^ 38)
        prev := some (y, i), errs := errs, above := if far then s.above + 1 else 0 } }

/-! The equaliser (R81, R89, R92). -/

/-- The live coefficient at 18 fractional bits of a set and tap (R92); taps 7 and 8 are 0.5 at reset. -/
def Slice.coefAt (s : Slice) (set k : Nat) : Int :=
  sparseGet (if k = 7 ∨ k = 8 then 0x40 * 2 ^ 11 else 0) s.coef (16 * set + k)

/-- The slice with a live coefficient set. -/
def Slice.setCoef (s : Slice) (set k : Nat) (v : Int) : Slice :=
  { s with coef := sparseSet (if k = 7 ∨ k = 8 then 0x40 * 2 ^ 11 else 0) s.coef (16 * set + k) v }

/-- The equaliser's output now: sat(round(Σ h_k × x(2n - k))), with the ten visible bits of each live coefficient (R89). -/
def Slice.equalised (s : Slice) : Int :=
  let sum := (s.hist.zipIdx).foldl (fun (a : Int) e => a + e.1.1 * (s.coefAt s.tgt e.2 / 2 ^ 11)) 0
  limitI (-127) 127 (roundDiv sum 128)

/-- One adaptation step: h_k grows by 2^-MU × err × x(2n - k). DESIGN CHOICE (notes/assumptions/118.md): a coefficient that would
leave the range of its ten visible bits stops there (R92). -/
def Slice.adapted (s : Slice) (muShift : Nat) (err : Int) : Slice :=
  (s.hist.zipIdx).foldl (fun q e =>
    q.setCoef q.tgt e.2 (limitI (-(2 ^ 20)) (2 ^ 20 - 1)
      (q.coefAt q.tgt e.2 + openDivI (err * e.1.1 * 2 ^ 18) (2 ^ muShift)))) s

/-- Whether a captured leaf position holds a blank as far as its outputs tell: the first 240 have passed with too few sign
changes (R92, R106). -/
def Path.blankNow (c : Path) (s : Slice) : Bool :=
  let p := (s.count + 24) / c.frame
  240 ≤ (s.count + 24) % c.frame && s.changes < c.blankThr && p < c.leaves && s.cap.testBit (p % c.slots)

/-! Places (R33, R96, R102). -/

/-- The leaf position whose frame the data-stream position lies in, when the slice captures it. -/
def Path.leafHere (c : Path) (s : Slice) : Option Nat :=
  let p := s.count / c.frame
  if p < c.leaves && s.cap.testBit (p % c.slots) then some p else none

/-- Whether a leaf is being captured where the signal stands. -/
def Path.inLeaf (c : Path) (s : Slice) : Bool :=
  s.zone != .gap && s.begun.any fun b => b.pos * c.frame ≤ s.count && s.count < (b.pos + 1) * c.frame

/-- One output taken in at the place where the signal stands, and the place moved on by one channel bit: servo fields are kept for
the reader, data fields go into the deskew buffer while the slice is in TRACK or finishes a leaf (R93, R96, R98, R102). -/
def Path.place (c : Path) (y : Int) (marked : Bool) (s : Slice) : Slice :=
  match s.zone with
  | .gap =>
    if s.place + 1 < gapBits c.k then { s with place := s.place + 1 }
    else { s with
      zone := .servo, place := 0, wedge := 0, servo := [], searched := false, found := none, agc := none, agcMarked := false
      ids := [], begun := [], out := [], outEnd := 0 }
  | .servo =>
    let s := { s with servo := { y := y, marked := marked } :: s.servo }
    if s.place + 1 < servoBits c.k then { s with place := s.place + 1 } else { s with zone := .field, place := 0 }
  | .field =>
    let minus := decide (y < 0)
    let s := if (s.count + 24) % c.frame = 0 then { s with changes := 0, minus := minus }
      else { s with changes := s.changes + bit (minus != s.minus), minus := minus }
    let s := if s.count % c.frame = 0 then
        let s := { s with agc := none, agcMarked := false }
        match c.leafHere s with
        | some p => if c.track && !s.stopping && !s.dropped then
            { s with begun := s.begun ++ [{ pos := p, tgt := s.tgt, taps := c.taps, rev := c.rev }] } else s
        | none => s
      else s
    let s := if c.track || c.inLeaf s then { s with buf := { y := y, marked := marked } :: s.buf } else { s with buf := [] }
    let s := { s with count := s.count + 1, place := s.place + 1 }
    if s.place < dataBits c.k then s
    else if s.wedge = 431 then { s with zone := .gap, place := 0 }
    else { s with
      zone := .servo, place := 0, wedge := s.wedge + 1, servo := [], searched := false, found := none
      agc := none, agcMarked := false }

/-- One equaliser output: timing, adaptation in data fields in TRACK, and its place (R81, R85, R89, R92). -/
def Path.output (c : Path) (r : Run) : Run :=
  let y := r.s.equalised
  let marked := r.s.hist.length < 16 || r.s.hist.any (·.2)
  let i := c.ideal r.s y
  let r := c.timing y i marked r
  let s := if c.adapt && c.track && r.s.zone == .field && !marked && !c.blankNow r.s then r.s.adapted c.muShift (i - y) else r.s
  { r with s := c.place y marked s }

/-! Interpolation (R81, R82). -/

/-- The cubic through four samples, newest first, at a fraction of 2^-40 of the way from the third to the second (R82). -/
def cubic (c0 c1 c2 c3 : Int) (f : Nat) : Int :=
  let u : Int := 2 ^ 40
  openDivI (c0 * ((f + u) * f * (f - u)) + 3 * (c1 * ((u + f) * f * (2 * u - f))) + 3 * (c2 * ((u + f) * (u - f) * (2 * u - f)))
    - c3 * (f * (u - f) * (2 * u - f))) (6 * 2 ^ 120)

/-- One T/2 sample taken from the four latest ADC samples, marked when one of them is (R81, R82). -/
def Slice.interpolated (s : Slice) (f : Nat) : Slice :=
  let g := fun (i : Nat) => (s.codes.getD i (0, true)).1
  let marked := s.codes.length < 4 || s.codes.any (·.2)
  { s with hist := ((cubic (g 0) (g 1) (g 2) (g 3) f, marked) :: s.hist).take 16, half := !s.half }

/-- The NCO at one ADC sample: μ grows by Δ; past an integer it emits a T/2 sample, and with the second of a channel bit an
output (R82). -/
def Path.nco (c : Path) (r : Run) : Run :=
  let mu := r.s.mu + (r.step * 2 ^ 16 + r.s.frac : Nat)
  if mu < 2 ^ 40 then { r with s := { r.s with mu := mu } }
  else
    let f := mu - 2 ^ 40
    let s := ({ r.s with mu := f } : Slice).interpolated (limitN 0 (2 ^ 40 - 1) f.toNat)
    if s.half then { r with s := s } else c.output { r with s := s }

/-! One sample of the input. -/

/-- Whether the signal stands in a preamble that the AGC measures, and in the middle half of it (R72). -/
def Path.preamble (c : Path) (s : Slice) : Bool × Bool :=
  match s.zone with
  | .servo => (s.place < 56 * c.k, 14 * c.k ≤ s.place && s.place < 42 * c.k)
  | .field =>
    let x := s.count % c.frame
    let p := decide (s.count / c.frame < c.leaves)
    (p && x < 192, p && 48 ≤ x && x < 144)
  | .gap => (false, false)

/-- The AGC's measurement of one ADC code (R72, R81): a marked sample is not measured. -/
def Path.agcTake (c : Path) (code : Int) (marked : Bool) (s : Slice) : Slice :=
  let z := c.preamble s
  if !z.1 then s
  else
    let s := { s with agcDue := true, agcMarked := s.agcMarked || marked }
    if !z.2 || marked then s
    else match s.agc with
      | none => { s with agc := some (code, code) }
      | some (lo, hi) => { s with agc := some (if code < lo then code else lo, if hi < code then code else hi) }

/-- One ADC sample (R67, R76 to R78, R80): the code of the filtered voltage, its own over-range and the 40 samples after it, the
other slices' over-range and 16 samples after it, and what follows from it. -/
def Path.sample (c : Path) (r : Run) (v : Int) : Run :=
  let s := r.s
  let volts := (amplified s.afe (trimmed s.trim v) :: s.volts).take 32
  let w := Config.ctf (ctfCorner s.afe c.ft) (ctfBoost s.afe) volts
  let high := overRange w
  let own := high || 0 < s.tail
  let marked := own || c.others.any fun p => p.1 ≤ s.at_ && s.at_ ≤ p.2 + 16
  let code := adcCode w
  let r := { r with
    runs := r.runs + bit (high && s.tail == 0), smps := r.smps + bit own
    overAt := if !high then r.overAt else match r.overAt with
      | some (a, _) => some (a, s.at_)
      | none => some (s.at_, s.at_) }
  let s := c.agcTake code marked { s with
    volts := volts, codes := ((code, marked) :: s.codes).take 4, at_ := s.at_ + 1, tail := if high then 40 else s.tail - 1 }
  c.nco { r with s := s }

/-! The defect detector (R117). -/

/-- The defect detector takes in one released position: flagged when the mean |y| of the 16 bits ending there is below DROP / 16
or above EXCESS / 16 of the reference, which stands still while flagged. -/
def Slice.defect (det : DWord) (x : Nat) (y : Sample) (s : Slice) : Slice :=
  let env := (y.y.natAbs :: s.env).take 16
  let e := env.sum
  let n := s.refs.length
  let sum := s.refs.sum
  let drop := bitsOf det.toNat 0 4
  let excess := bitsOf det.toNat 4 5
  let hit := env.length == 16 && 0 < n && (e * n < sum * drop || (excess != 0 && sum * excess < e * n))
  let s := { s with env := env }
  if hit then { s with hits := x :: s.hits }
  else if y.marked then s
  else { s with refs := (y.y.natAbs :: s.refs).take 1024 }

/-! Deskew (R98, R99). -/

/-- Whether a slice's signal path runs: enabled, or finishing a leaf after EN was cleared (R108). -/
def Dev.sliceRuns (d : Dev) (rcs : Nat) : Bool :=
  d.rcsPresent rcs && d.stage (rcs / 24) == .ready && (d.is .RCS_CTL_EN rcs || (d.slice rcs).stopping)

/-- Whether a slice takes part in release: it runs, is in TRACK and has not been dropped. -/
def Dev.inRelease (d : Dev) (rcs : Nat) : Bool :=
  d.sliceRuns rcs && d.fg .RCS_STAT_STATE rcs == sliceTrack && !(d.slice rcs).dropped

/-- The slices of an OPU that take part in release. -/
def Dev.releasing (d : Dev) (opu : Nat) : List Nat := (slicesOf opu).filter d.inRelease

/-- The data-stream position that every slice in release has written. -/
def Dev.written (d : Dev) (opu : Nat) : Option Nat :=
  (d.releasing opu).foldl (fun b n => match b with
    | none => some (d.slice n).count
    | some x => some (limitN 0 x (d.slice n).count)) none

/-- The outputs below a position leave a slice's deskew buffer: the defect detector takes them in, and those that a leaf in
capture needs are kept. -/
def Slice.release (det : DWord) (frame : Nat) (limit : Nat) (s : Slice) : Slice :=
  let m := limit - (s.count - s.buf.length)
  if m = 0 then s
  else
    let moved := s.buf.drop (s.buf.length - m)
    let first := s.count - s.buf.length
    let s := (moved.reverse.zipIdx first).foldl (fun s e => s.defect det e.2 e.1) s
    let keep := match s.begun with
      | b :: _ => limit - (b.pos * frame - 24)
      | [] => 64
    { s with buf := s.buf.take (s.buf.length - m), out := (moved ++ s.out).take keep, outEnd := limit }

/-- The deskew buffers of an OPU release what every slice in release has written; a slice outside release waits for none. -/
def deskewRelease (opu : Nat) (d : Dev) : Dev :=
  let pk := d.pickup opu
  let limit := d.written opu
  d.each (slicesOf opu) fun d n =>
    if (d.slice n).buf.isEmpty then d
    else d.onSlice n fun s =>
      s.release pk.detCtl (frameBits (fmtLevel pk.fmt)) (if d.inRelease n then limit.getD s.count else s.count)

/-- The slice leaves release until the next jump gap, and its leaves in flight carry TLOSS (R99). -/
def deskewLeave (rcs : Nat) (d : Dev) : Dev :=
  (d.fs .RCS_STAT_DESKEW_OVF 1 rcs).onSlice rcs fun s =>
    { s with
      dropped := true, begun := s.begun.map fun b => { b with tloss := true }
      capt := s.capt.map fun c => { c with facts := { c.facts with tloss := true } } }

/-- The slice in release that is furthest behind. -/
def Dev.behind (d : Dev) (opu : Nat) : Option Nat :=
  (d.releasing opu).find? fun n => some (d.slice n).count == d.written opu

/-- While a slice's buffer would hold more than 4,096 entries, the slice furthest behind is dropped (R99). -/
def deskewFit (rcs : Nat) : Nat → Dev → Dev
  | 0, d => d
  | n + 1, d =>
    if (d.slice rcs).buf.length ≤ 4096 then d
    else match d.behind (rcs / 24) with
      | none => d
      | some b => deskewFit rcs n (deskewRelease (rcs / 24) (deskewLeave b d))

/-! A stretch of a slice's input. -/

/-- What the path of a slice reads beside the slice (R54, R101). -/
def Dev.path (d : Dev) (rcs : Nat) : Path :=
  let o := rcs / 24
  let pk := d.pickup o
  let k := fmtClass pk.fmt
  let st := fmtStrength pk.fmt
  let kp := slotsPerTrack k st
  { k := k, frame := frameBits st.level, slots := kp, leaves := leavesOf st * kp, taps := d.taps rcs (d.slice rcs).tgt
    neg := d.is .RCS_CTL_MARK_NEG rcs, adapt := d.is .RCS_CTL_ADAPT rcs
    track := d.fg .RCS_STAT_STATE rcs == sliceTrack, tr := d.rd .RCS_TR rcs, muShift := d.fg .RCS_EQ_CTL_MU rcs
    blankThr := d.fg .RCS_SYNC_BLANK_THR rcs, ft := sparseGet 0 d.cal.ftrim rcs
    others := if d.is .RCS_CTL_NBR_MARK rcs then (pk.overs.filter (·.1 != rcs)).map (·.2) else []
    rev := pk.rev }

/-- Whether a slice's leaf is being captured. -/
def Dev.capturing (d : Dev) (rcs : Nat) : Bool := (d.path rcs).inLeaf (d.slice rcs)

/-- The slice is lost (R88): STATE LOST, TLOSS set and counted, and the leaf being captured carries TLOSS. -/
def loseTiming (rcs : Nat) (d : Dev) : Dev :=
  let here := (d.path rcs).frame
  let d := (d.fs .RCS_STAT_STATE sliceLost rcs).fs .RCS_STAT_TLOSS 1 rcs
  (d.bump .RCS_CNT_TLOSS rcs).onSlice rcs fun s =>
    { s with
      missed := 0, above := 0, low := false
      begun := s.begun.map fun b => { b with tloss := b.tloss || decide (s.count < (b.pos + 1) * here) } }

/-- Whether a slice's timing is lost: three wedges in a row without a servo mark, the mean error above
4 × LOCK_THR over 256 channel bits, or a loop that drives its step below 0.25 (R83, R88). -/
def Dev.timingIsLost (d : Dev) (rcs : Nat) : Bool :=
  let s := d.slice rcs
  3 ≤ s.missed || 256 ≤ s.above || s.low

/-- A slice whose timing is lost goes to LOST, unless it is lost already (R88). -/
def loseIfLost (rcs : Nat) (d : Dev) : Dev :=
  d.cond (d.timingIsLost rcs && d.fg .RCS_STAT_STATE rcs != sliceLost) (loseTiming rcs)

/-- The slice's registers after a stretch: RCS_NCO, the over-range bit and counters, FMAX; and the over-range run that the
OPU's other slices see (R77, R78, R80, R83). -/
def runPosted (rcs : Nat) (r : Run) (d : Dev) : Dev :=
  let d := (d.onSlice rcs fun _ => r.s).fs .RCS_NCO_STEP r.step rcs
  let d := d.cond r.fmax fun d => d.fs .RCS_STAT_FMAX 1 rcs
  let d := (d.bump .RCS_CNT_OVR rcs r.runs).bump .RCS_CNT_OVR_SMP rcs r.smps
  match r.overAt with
  | none => d
  | some p => (d.fs .RCS_STAT_OVR 1 rcs).onPickup (rcs / 24) fun k => { k with overs := k.overs ++ [(rcs, p)] }

/-- Whether a slice's input is on the reference of a group 2 step that runs on its OPU (Table 10-3). -/
def Dev.onReference (d : Dev) (rcs : Nat) : Bool :=
  d.fg .CAL_STAT_STATE == 1 && d.fg .CAL_STAT_CUR_GROUP == 2 && d.fg .CAL_STAT_CUR_OPU == rcs / 24

/-- A stretch of a slice's input, as voltages in nanovolts at its balls at each ADC sample: the whole path, the loss of timing,
and release from the deskew buffers (R67); nothing of it reaches an input that is switched to the reference. -/
def sliceRun (rcs : Nat) (wave : List Int) (d : Dev) : Dev :=
  if !d.sliceRuns rcs || d.onReference rcs then d
  else
    let r := wave.foldl (d.path rcs).sample { s := d.slice rcs, step := d.fg .RCS_NCO_STEP rcs }
    deskewFit rcs 24 (deskewRelease (rcs / 24) (loseIfLost rcs (runPosted rcs r d)))

end Sys2Proof.Machine
end

