-- ==== Sys2Proof/Machine/Float.lean ====
section
/-!
DEFINITION. The binary32 arithmetic of the Control Law Engine (06_control_law_engine.md R227 to R230), on bit patterns
held as numbers: exact results rounded once, in IEEE or saturating mode, with or without flush-to-zero.
-/

namespace Sys2Proof.Machine

/-- The arithmetic modes of a slot: SATM and FTZ. -/
structure FMode where
  satm : Bool := false
  ftz : Bool := false
deriving DecidableEq, Repr

/-- Sticky flags, in the order of Table 6-9. -/
def fNX : Nat := 1
/-- Sticky flag UF. -/
def fUF : Nat := 2
/-- Sticky flag OF. -/
def fOF : Nat := 4
/-- Sticky flag DZ. -/
def fDZ : Nat := 8
/-- Sticky flag NV. -/
def fNV : Nat := 16
/-- Sticky flag SAT. -/
def fSAT : Nat := 32
/-- Sticky flag AOV. -/
def fAOV : Nat := 64

/-- The default NaN (R227). -/
def fNaN : Nat := 0x7FC00000
/-- The largest finite number, M of Table 6-10. -/
def fMax : Nat := 0x7F7FFFFF
/-- 1.0. -/
def fOne : Nat := 0x3F800000

/-- A sign bit in place. -/
def fSign (neg : Bool) : Nat := if neg then 2 ^ 31 else 0

/-- Whether a pattern is a NaN. -/
def isNaN (x : Nat) : Bool := bitsOf x 23 8 == 255 && bitsOf x 0 23 != 0
/-- Whether a pattern is a signalling NaN. -/
def isSNaN (x : Nat) : Bool := isNaN x && !x.testBit 22
/-- Whether a pattern is an infinity. -/
def isInf (x : Nat) : Bool := bitsOf x 0 31 == 0x7F800000
/-- Whether a pattern is a zero. -/
def isZero (x : Nat) : Bool := bitsOf x 0 31 == 0
/-- The sign of a pattern. -/
def isNeg (x : Nat) : Bool := x.testBit 31
/-- The significand of a finite pattern as a whole number. -/
def fMant (x : Nat) : Nat := if bitsOf x 23 8 = 0 then bitsOf x 0 23 else 2 ^ 23 + bitsOf x 0 23
/-- The exponent of a finite pattern's significand. -/
def fExp (x : Nat) : Int := if bitsOf x 23 8 = 0 then -149 else (bitsOf x 23 8 : Int) - 150
/-- The significand with its sign. -/
def fInt (x : Nat) : Int := if isNeg x then -(fMant x : Int) else fMant x

/-- An operand as arithmetic reads it, with the flags that reading sets (R228, R229). -/
def fRead (m : FMode) (x : Nat) : Nat × Nat :=
  let x := x % 2 ^ 32
  if m.satm && isNaN x then (0, fNV)
  else if m.satm && isInf x then (fSign (isNeg x) + fMax, fSAT)
  else if m.ftz && bitsOf x 23 8 == 0 then (fSign (isNeg x), 0)
  else (x, 0)

/-- `n / 2^k` rounded to the nearest integer, ties to even. -/
def roundEven (n k : Nat) : Nat :=
  let q := n >>> k
  let r := n % 2 ^ k
  if 2 ^ k < 2 * r || (2 * r == 2 ^ k && q % 2 == 1 && k != 0) then q + 1 else q

/-- The overflow result (R228). -/
def fOverflow (m : FMode) (neg : Bool) : Nat × Nat :=
  if m.satm then (fSign neg + fMax, fOF + fNX + fSAT) else (fSign neg + 0x7F800000, fOF + fNX)

/-- The NaN result of an invalid operation (R227, R228). -/
def fInvalid (m : FMode) : Nat × Nat := if m.satm then (0, fNV) else (fNaN, fNV)

/-- The value n × 2^e, n not zero, rounded to binary32 with its flags (R227, R229). -/
def fRound (m : FMode) (neg : Bool) (n : Nat) (e : Int) : Nat × Nat :=
  let ue := e + (Nat.log2 n + 1 : Nat) - 24
  let le := if ue < -149 then -149 else ue
  let sh := (le - e).toNat
  let q := if le ≤ e then n <<< (e - le).toNat else roundEven n sh
  let inexact := e < le && n % 2 ^ sh != 0
  let mag := (le + 149).toNat * 2 ^ 23 + q
  let tiny := ue < -150 || (ue == -150 && roundEven n (ue - e).toNat != 2 ^ 24 && e < ue)
    || (ue == -150 && ue ≤ e)
  if 0x7F800000 ≤ mag then fOverflow m neg
  else if m.ftz && 0 < mag && mag < 2 ^ 23 then (fSign neg, fUF + fNX)
  else (fSign neg + mag, if inexact then (if tiny then fNX + fUF else fNX) else 0)

/-- A × B + C of read operands with one rounding (R227, R228). -/
def fmaCore (m : FMode) (a b c : Nat) : Nat × Nat :=
  let zeroInf := (isInf a && isZero b) || (isZero a && isInf b)
  let sp := isNeg a != isNeg b
  if isNaN a || isNaN b || isNaN c then
    (fNaN, if isSNaN a || isSNaN b || isSNaN c || (zeroInf && Config.nanAddendFlag) then fNV else 0)
  else if zeroInf then fInvalid m
  else if isInf a || isInf b then
    if isInf c && isNeg c != sp then fInvalid m else (fSign sp + 0x7F800000, 0)
  else if isInf c then (c, 0)
  else
    let pe := fExp a + fExp b
    let e := if pe < fExp c then pe else fExp c
    let p : Int := fInt a * fInt b
    let sum := p * 2 ^ (pe - e).toNat + fInt c * 2 ^ (fExp c - e).toNat
    if sum = 0 then (fSign (p = 0 && fMant c = 0 && sp && isNeg c), 0)
    else fRound m (sum < 0) sum.natAbs e

/-- The negation of a pattern. -/
def fNeg (x : Nat) : Nat := (x % 2 ^ 32) ^^^ 2 ^ 31

/-- A + B of read operands: A × 1 + B. -/
def addCore (m : FMode) (a b : Nat) : Nat × Nat := fmaCore m a fOne b

/-- A × B of read operands: A × B - 0. -/
def mulCore (m : FMode) (a b : Nat) : Nat × Nat := fmaCore m a b (2 ^ 31)

/-- A ÷ B of read operands (R227, R228). -/
def divCore (m : FMode) (a b : Nat) : Nat × Nat :=
  let sp := isNeg a != isNeg b
  if isNaN a || isNaN b then (fNaN, if isSNaN a || isSNaN b then fNV else 0)
  else if (isInf a && isInf b) || (isZero a && isZero b) then fInvalid m
  else if isInf a then (fSign sp + 0x7F800000, 0)
  else if isInf b || isZero a then (fSign sp, 0)
  else if isZero b then
    if m.satm then (fSign sp + fMax, fDZ + fSAT) else (fSign sp + 0x7F800000, fDZ)
  else
    let n := fMant a <<< 52
    let q := n / fMant b
    fRound m sp (2 * q + bit (n % fMant b != 0)) (fExp a - fExp b - 53)

/-- The square root of a read operand (R227, R228). -/
def sqrtCore (m : FMode) (a : Nat) : Nat × Nat :=
  if isNaN a then (fNaN, if isSNaN a then fNV else 0)
  else if isZero a then (a, 0)
  else if isNeg a then fInvalid m
  else if isInf a then (a, 0)
  else
    let sh := if fExp a % 2 = 0 then 54 else 55
    let n := fMant a <<< sh
    let r := isqrt n
    fRound m false (2 * r + bit (r * r != n)) ((fExp a - (sh : Nat)) / 2 - 1)

/-- A number in the order of the binary32 patterns that are no NaN; both zeros are 0. -/
def fKey (x : Nat) : Int := if isNeg x then -(bitsOf x 0 31 : Int) else bitsOf x 0 31

/-- The smaller (or larger) of two read operands; with one NaN the other (R227). -/
def minMax (larger : Bool) (a b : Nat) : Nat :=
  if isNaN a && isNaN b then fNaN
  else if isNaN a then b
  else if isNaN b then a
  else if fKey a = fKey b then (if a = b || Config.firstZero larger a b then a else b)
  else if (fKey a < fKey b) != larger then a
  else b

/-- n × 2^e rounded to an integer, ties to even, with NX when it is not one. -/
def toInteger (n : Int) (e : Int) : Int × Nat :=
  if 0 ≤ e then (n * 2 ^ e.toNat, 0)
  else
    let k := (-e).toNat
    let q : Int := roundEven n.natAbs k
    (if n < 0 then -q else q, if n.natAbs % 2 ^ k = 0 then 0 else fNX)

/-- An integer limited to ± `lim` as 32 raw bits; outside the range SAT in saturating mode and NV otherwise, alone
(R228). -/
def limitInteger (m : FMode) (lim : Int) (r : Int × Nat) : Nat × Nat :=
  if r.1 < -lim || lim < r.1 then (unsigned 32 (if r.1 < 0 then -lim else lim), if m.satm then fSAT else fNV)
  else (unsigned 32 r.1, r.2)

/-- round(A × B) of read operands, the product exact, limited to ± `lim` (CVI with B = 1.0, CVD; R228). -/
def convert (m : FMode) (lim : Int) (a b : Nat) : Nat × Nat :=
  if isNaN a || isNaN b || (isInf a && isZero b) || (isZero a && isInf b) then (0, fNV)
  else if isInf a || isInf b then
    (unsigned 32 (if isNeg a != isNeg b then -lim else lim), fNV)
  else limitInteger m lim (toInteger (fInt a * fInt b) (fExp a + fExp b))

/-- A signed 32-bit integer as binary32 (CVF). -/
def fromInteger (x : Nat) : Nat × Nat :=
  let z := signed 32 x
  if z = 0 then (0, 0) else fRound {} (z < 0) z.natAbs 0

/-- The operations of Table 6-4. -/
inductive CleOp where
  | nop | mov | add | sub | mul | fma | fnma | div | sqrt | min | max | abs | neg | clamp | cmplt | cmple | cmpeq
  | sel | hsum | cvf | cvi | cvd | iadd | and | or | xor | shr | shl
deriving DecidableEq, Repr

/-- The operations by code (Table 6-4); codes 0x1C to 0x1F are reserved. -/
def cleOps : List CleOp :=
  [.nop, .mov, .add, .sub, .mul, .fma, .fnma, .div, .sqrt, .min, .max, .abs, .neg, .clamp, .cmplt, .cmple, .cmpeq,
   .sel, .hsum, .cvf, .cvi, .cvd, .iadd, .and, .or, .xor, .shr, .shl]

/-- The least length in clocks of an operation (Table 6-4). -/
def CleOp.minClocks : CleOp → Nat
  | .div => 6
  | .sqrt => 6
  | .hsum => 2
  | _ => 1

/-- What one lane of an operation gives: the result, the sticky flags set, and the lane flag of a compare. -/
structure LaneResult where
  val : Nat := 0
  flags : Nat := 0
  cmp : Option Bool := none
deriving DecidableEq, Repr

/-- A result with the flags that reading the operands set joined in. -/
def withFlags (f : Nat) (r : Nat × Nat) : LaneResult := { val := r.1 % 2 ^ 32, flags := r.2 ||| f }

/-- A compare: 1.0 and the lane flag where it holds; with a NaN operand neither, and NV where `nv` (R227). -/
def compare (f : Nat) (nv : Bool) (a b : Nat) (p : Int → Int → Bool) : LaneResult :=
  if isNaN a || isNaN b then { flags := f ||| (if nv then fNV else 0), cmp := some false }
  else
    let t := p (fKey a) (fKey b)
    { val := if t then fOne else 0, flags := f, cmp := some t }

/-- One lane of an operation on raw sources A, B and C, with the lane flag before it (Table 6-4). MOV, SEL and the
integer and bitwise operations take raw bits; every other operation reads its operands as the modes say. NOP and HSUM
are not lane operations. -/
def laneOp (op : CleOp) (m : FMode) (flag : Bool) (a b c : Nat) : LaneResult :=
  let ra := fRead m a
  let rb := fRead m b
  let rc := fRead m c
  let x := ra.1
  let y := rb.1
  let z := rc.1
  let f1 := ra.2
  let f2 := ra.2 ||| rb.2
  let f3 := ra.2 ||| rb.2 ||| rc.2
  match op with
  | .nop => {}
  | .hsum => {}
  | .mov => { val := a % 2 ^ 32 }
  | .add => withFlags f2 (addCore m x y)
  | .sub => withFlags f2 (addCore m x (if isNaN y then y else fNeg y))
  | .mul => withFlags f2 (mulCore m x y)
  | .fma => withFlags f3 (fmaCore m x y z)
  | .fnma => withFlags f3 (fmaCore m (if isNaN x then x else fNeg x) y z)
  | .div => withFlags f2 (divCore m x y)
  | .sqrt => withFlags f1 (sqrtCore m x)
  | .min => withFlags f2 (minMax false x y, 0)
  | .max => withFlags f2 (minMax true x y, 0)
  | .abs => withFlags f1 (if isNaN x then fNaN else x % 2 ^ 31, 0)
  | .neg => withFlags f1 (if isNaN x then fNaN else fNeg x, 0)
  | .clamp => withFlags f3 (minMax false (minMax true x y) z, 0)
  | .cmplt => compare f2 true x y fun p q => p < q
  | .cmple => compare f2 true x y fun p q => p ≤ q
  | .cmpeq => compare f2 false x y fun p q => p = q
  | .sel => { val := (if flag then a else b) % 2 ^ 32 }
  | .cvf => withFlags 0 (fromInteger a)
  | .cvi => withFlags f1 (convert m 2147483647 x fOne)
  | .cvd => withFlags f2 (convert m 32767 x y)
  | .iadd => { val := (a + b) % 2 ^ 32 }
  | .and => { val := (a &&& b) % 2 ^ 32 }
  | .or => { val := (a ||| b) % 2 ^ 32 }
  | .xor => { val := (a ^^^ b) % 2 ^ 32 }
  | .shr => { val := (a % 2 ^ 32) >>> (b % 32) }
  | .shl => { val := (a <<< (b % 32)) % 2 ^ 32 }

/-- HSUM: (A0 + A1) + (A2 + A3) of the four lanes (Table 6-4). -/
def hsum (m : FMode) (a : List Nat) : LaneResult :=
  let r := (a.map (fRead m))
  let f := r.foldl (fun f e => f ||| e.2) 0
  let v := fun i => (r.getD i (0, 0)).1
  let s1 := addCore m (v 0) (v 1)
  let s2 := addCore m (v 2) (v 3)
  let s := addCore m s1.1 s2.1
  withFlags (f ||| s1.2 ||| s2.2) s

/-! Exponential and cosine (R244, R308). -/

/-- A binary32 value as a whole number of 2^-400, towards minus infinity. -/
def bFix (a : Nat) : Int :=
  let e := a / 2 ^ 23 % 256
  let m : Int := if e = 0 then (a % 2 ^ 23 : Nat) else (a % 2 ^ 23 + 2 ^ 23 : Nat)
  (if isNeg a then -m else m) * 2 ^ ((if e = 0 then 1 else e) + 250)

/-- A whole number of 2^-400 as the nearest binary32 value. -/
def bOfFix (z : Int) : Nat := if z = 0 then 0 else (fRound {} (z < 0) (2 * z.natAbs) (-401)).1

/-- The sum of the first `n` terms of a series in 2^-400: each term is the last one times `x`, over `f k`. -/
def series (x : Int) (f : Nat → Int) : Nat → Nat → Int → Int
  | 0, _, _ => 0
  | n + 1, k, t => t + series x f n (k + 1) (t * x / (2 ^ 400 * f k))

/-- e to the power of minus `a`, by the exponential series at a/1024 squared ten times, to the nearest binary32 value (R244). Its
rounding is the model's: DESIGN CHOICE (notes/assumptions/133.md). -/
def bExpNeg (a : Nat) : Nat :=
  let x := bFix a / 1024
  bOfFix (iter (fun y : Int => y * y / 2 ^ 400) 10 (series (-x) (fun k => (k : Int) + 1) 60 0 (2 ^ 400)))

/-- The cosine of an angle, both in 2^-400, by the cosine series at 1/1024 of the angle, doubled ten times. Its rounding is the
model's: DESIGN CHOICE (notes/assumptions/133.md). -/
def cosFix (a : Int) : Int :=
  let x := a / 1024
  let c := series (-(x * x / 2 ^ 400)) (fun k => (2 * (k : Int) + 1) * (2 * k + 2)) 40 0 (2 ^ 400)
  iter (fun y : Int => 2 * y * y / 2 ^ 400 - 2 ^ 400) 10 c

/-- The cosine of `a` to the nearest binary32 value (R244). -/
def bCos (a : Nat) : Nat := bOfFix (cosFix (bFix a))

end Sys2Proof.Machine
end

