-- ==== Sys2Proof/Machine/Pages.lean ====
section
/-!
DEFINITION. Parameter pages (15_commands.md R492, Table 15-9): their fields, defaults, ranges and relations, and the
values in force.
-/

namespace Sys2Proof.Machine

/-- A field of a parameter page: its offset and size in bytes, whether it is binary32, its default, its range, and
whether 0 is allowed beside the range. A binary32 +0.0 keeps the present value. -/
structure PageField where
  off : Nat
  size : Nat
  float : Bool := false
  dflt : Nat := 0
  lo : Nat := 0
  hi : Nat := 0xFFFFFFFF
  zero : Bool := false

/-- A binary32 field with its default and range, as patterns. -/
def f32Field (off dflt lo hi : Nat) : PageField := { off := off, size := 4, float := true, dflt := dflt, lo := lo, hi := hi }

/-- A field of `size` bytes with its default and range. -/
def intField (off size dflt lo hi : Nat) : PageField := { off := off, size := size, dflt := dflt, lo := lo, hi := hi }

/-- The least pattern above zero. -/
def fPos : Nat := 1
/-- Positive infinity, the open upper end of a binary32 range. -/
def fInf : Nat := 0x7F800000

/-- The default thermistor table, code and temperature in turn: 0 at -40.0 °C, 4,095 at +125.0 °C, the rest unused. -/
def thermDefault (i : Nat) : Nat :=
  if i = 1 then 0xFD80 else if i = 2 then 4095 else if i = 3 then 2000
  else if i % 2 = 0 && i != 0 then 0xFFFF else 0

/-- The fields of a page (Table 15-9); a buffer below 7 GiB has smaller pools and levels. -/
def pageFields (small : Bool) : Nat → List PageField
  | 1 => [{ off := 8, size := 4, dflt := 0, lo := 10, hi := 600000, zero := true }, intField 12 1 7 1 7]
  | 2 => [intField 8 2 174 1 174, intField 10 2 184 1 184, intField 12 2 195 1 195, intField 14 2 215 1 215,
          intField 16 2 64 16 320, intField 18 1 8 1 64]
  | 3 => [f32Field 8 0x453B8000 0x447A0000 0x461C4000,
          f32Field 12 0x41000000 0x3F800000 0x41800000,
          f32Field 16 0x43960000 fPos fInf,
          f32Field 20 0x468CA000 0x447A0000 0x47435000,
          f32Field 24 0x3F666666 0x3F000000 0x3F7D70A4,
          f32Field 28 0x43020000 fPos fInf,
          f32Field 32 0x44BB8000 0x43FA0000 0x459C4000,
          f32Field 36 0x40800000 0x3F800000 0x41800000,
          f32Field 40 0x43C80000 fPos fInf,
          f32Field 44 0x45CB2000 0x447A0000 0x47435000,
          f32Field 48 0x3F733333 0x3F000000 0x3F7D70A4,
          f32Field 52 0x3EA3D70A fPos fInf,
          f32Field 56 0x3F000000 0x3D4CCCCD 0x3F800000,
          f32Field 60 0x3DCCCCCD 0 0x3F800000,
          f32Field 64 0x42480000 0x40A00000 0x43FA0000,
          f32Field 68 0x3F800000 0x3E4CCCCD 0x41200000,
          f32Field 72 0x40000000 0x3F000000 0x40400000,
          f32Field 76 0x41F00000 0x40A00000 0x42200000]
  | 4 => [f32Field 8 0x4120CCCD fPos fInf,
          f32Field 12 0x46EBA000 fPos fInf,
          f32Field 16 0x3F99999A fPos fInf,
          f32Field 20 0x40000000 fPos fInf,
          f32Field 24 0x41400000 fPos fInf,
          f32Field 28 0x43170000 fPos fInf,
          f32Field 32 0x3E449BA6 fPos fInf,
          f32Field 36 0x44FA0000 0x42C80000 0x453B8000,
          f32Field 40 0x44FA0000 0x42C80000 0x453B8000,
          f32Field 44 (if small then 0x47800000 else 0x48800000) fPos fInf,
          f32Field 48 (if small then 0x48400000 else 0x49400000) fPos fInf,
          f32Field 52 0x44FA0000 0x42C80000 0x461C4000,
          f32Field 56 0x44FA0000 0x42C80000 0x461C4000,
          intField 60 1 1 0 1]
  | 5 => ((List.range 7).map fun g => { off := 8 + g, size := 1, dflt := 8, lo := 1, hi := 40, zero := true }) ++
          [intField 16 2 200 1 4095] ++
          (List.range 32).map fun i =>
            intField (20 + 2 * i) 2 (thermDefault i) 0 0xFFFF
  | 6 => [intField 8 4 (if small then 256 else 1024) 256 0xFFFFFFFF,
          intField 12 4 (if small then 256 else 1024) 256 0xFFFFFFFF, intField 16 1 24 1 255]
  | 7 => [intField 8 1 90 85 95, intField 9 1 2 1 5, intField 10 2 100 10 10000]
  | _ => []

/-- LENGTH of a page: its fields rounded up to a multiple of 4, which DLEN must be (R439). -/
def pageLength : Nat → Nat
  | 1 => 16
  | 2 => 20
  | 3 => 80
  | 4 => 64
  | 5 => 84
  | 6 => 20
  | 7 => 12
  | _ => 0

/-- How many scopes a page has: 16 streams, 4 OPUs, or the unit. -/
def pageScopes : Nat → Nat
  | 1 => 16
  | 3 => 4
  | _ => 1

/-- A page's eight header bytes. -/
def pageHeader (page scope : Nat) : Bytes :=
  leBytes 1 page ++ leBytes 1 1 ++ leBytes 2 (pageLength page) ++ leBytes 1 scope ++ leBytes 3 0

/-- Bytes with a field written over. -/
def putField (b : Bytes) (off size v : Nat) : Bytes := b.take off ++ leBytes size v ++ b.drop (off + size)

/-- A little-endian field of bytes. -/
def getField (b : Bytes) (off size : Nat) : Nat := leNat ((b.drop off).take size)

/-- A page at its defaults. -/
def pageDefault (small : Bool) (page scope : Nat) : Bytes :=
  (pageFields small page).foldl (fun b f => putField b f.off f.size f.dflt)
    (takeFill 0#8 (pageLength page) (pageHeader page scope))

/-- The visible buffer in MiB (R385). -/
def Dev.visibleMiB (d : Dev) : Nat := d.fg .DRC_CFG_CAP

/-- Whether the buffer is below 7 GiB visible. -/
def Dev.smallBuffer (d : Dev) : Bool := d.visibleMiB < 7168

/-- The page in force. -/
def Dev.page (d : Dev) (page scope : Nat) : Bytes :=
  match sparseGet [] d.fw.pages (256 * page + scope) with
  | [] => pageDefault d.smallBuffer page scope
  | b => b

/-- A field of the page in force. -/
def Dev.pageVal (d : Dev) (page scope off size : Nat) : Nat := getField (d.page page scope) off size

/-- Whether a field's value lies in its range. -/
def PageField.ok (f : PageField) (v : Nat) : Bool :=
  if f.float then v == 0 || (!isNaN v && fKey f.lo ≤ fKey v && fKey v ≤ fKey f.hi)
  else (f.zero && v == 0) || (f.lo ≤ v && v ≤ f.hi)

/-- The page that a SET makes of the present one: a binary32 field of +0.0 keeps its value (R492). -/
def pageMerge (fields : List PageField) (now new : Bytes) : Bytes :=
  fields.foldl (fun b f =>
    if f.float && getField new f.off 4 == 0 then putField b f.off 4 (getField now f.off 4) else b) new

/-- A binary32 pattern as an exact rational, numerator and denominator; a NaN or an infinity is its significand. -/
def fRat (x : Nat) : Int × Nat :=
  if 0 ≤ fExp x then (fInt x * 2 ^ (fExp x).toNat, 1) else (fInt x, 2 ^ (-(fExp x)).toNat)

/-- Whether one finite binary32 value times `a` is at most another times `b`. -/
def fLe (a : Nat) (x : Nat) (b : Nat) (y : Nat) : Bool :=
  let p := fRat x
  let q := fRat y
  (a : Int) * p.1 * q.2 ≤ (b : Int) * q.1 * p.2

/-- The offset of the first field that breaks a relation of Table 15-9, in a merged page. -/
def pageRelation (d : Dev) (page : Nat) (b : Bytes) : Option Nat :=
  match page with
  | 3 => if !fLe 2 (getField b 16 4) 1 (getField b 8 4) then some 16
         else if !fLe 2 (getField b 40 4) 1 (getField b 32 4) then some 40 else none
  | 4 =>
    let pool := 1024 * d.pageVal 6 0 8 4
    let hi := fRat (getField b 48 4)
    if fLe 1 (getField b 48 4) 1 (getField b 44 4) then some 44
    else if (pool : Int) * hi.2 < hi.1 then some 48 else none
  | 5 =>
    let codes := (List.range 16).map fun i => getField b (20 + 4 * i) 2
    (List.range 15).findSome? fun i =>
      let x := codes.getD i 0
      let y := codes.getD (i + 1) 0
      if y != 0xFFFF && y ≤ x then some (24 + 4 * i) else none
  | 6 => if d.visibleMiB < getField b 8 4 + getField b 12 4 + 512 then some 12 else none
  | _ => none

/-- The offset of the first field of a SET page that is refused: out of range, breaking a relation, or a LENGTH or SCOPE
that does not match (R492). -/
def pageRefused (d : Dev) (page scope : Nat) (b : Bytes) : Option Nat :=
  if getField b 0 1 != page then some 0
  else if getField b 1 1 != 1 then some 1
  else if getField b 2 2 != pageLength page then some 2
  else if getField b 4 1 != scope || pageScopes page ≤ scope then some 4
  else
    let fs := pageFields d.smallBuffer page
    match fs.find? fun f => !f.ok (getField b f.off f.size) with
    | some f => some f.off
    | none => pageRelation d page (pageMerge fs (d.page page scope) b)

/-- Whether every byte of a page that no field covers is zero (R10). -/
def pageReserved (small : Bool) (page : Nat) (b : Bytes) : Bool :=
  (List.range (pageLength page)).all fun i =>
    i < 5 || (pageFields small page).any (fun f => f.off ≤ i && i < f.off + f.size) || b.getD i 0#8 == 0#8

/-- A thermistor code as a temperature in 1/16 °C, by the calibration page's table (Table 15-9): linear between points,
held beyond the ends. -/
def Dev.thermTemp (d : Dev) (code : Nat) : Int :=
  let pts := ((List.range 16).map fun i => (d.pageVal 5 0 (20 + 4 * i) 2, signed 16 (d.pageVal 5 0 (22 + 4 * i) 2))).filter
    fun p => p.1 != 0xFFFF
  let below := (pts.filter fun p => p.1 ≤ code).getLast?
  let above := pts.find? fun p => code < p.1
  match below, above with
  | some p, some q => p.2 + openDivI ((q.2 - p.2) * ((code : Int) - p.1)) (q.1 - p.1)
  | some p, none => p.2
  | none, some q => q.2
  | none, none => 0

end Sys2Proof.Machine
end

