-- ==== Sys2Proof/Machine/Spindle.lean ====
section
/-!
DEFINITION. The SPN block (08_spindle.md): commutation, back-EMF crossings, speed, the sensorless start, the catch,
stopping, current protection and the DUTY port. Its loops are in Loops, what firmware does for it in SpindleFw.
-/

namespace Sys2Proof.Machine

/-- STATE codes (R302). -/
def spnOff : Nat := 0
/-- ALIGN. -/
def spnAlign : Nat := 1
/-- RAMP. -/
def spnRamp : Nat := 2
/-- COUCH. -/
def spnCouch : Nat := 3
/-- RUN. -/
def spnRun : Nat := 4
/-- COAST. -/
def spnCoast : Nat := 5
/-- BRAKE. -/
def spnBrake : Nat := 6
/-- FAULT. -/
def spnFault : Nat := 7

/-- The unit with `f` applied to the spindle. -/
def Dev.onSpn (d : Dev) (f : Spindle → Spindle) : Dev := { d with spn := f d.spn }

/-- The spindle's state. -/
def Dev.spnState (d : Dev) : Nat := d.fg .SPN_STAT_STATE

/-- States in which a DUTY write is used (R277). -/
def spnDriven (st : Nat) : Bool := st == spnAlign || st == spnRamp || st == spnCouch || st == spnRun || st == spnBrake

/-- SOFT as it acts: 5° to 40° (Table 8-9). -/
def softOf (n : Nat) : Nat := limitN 5 40 n

/-- The couch speed in rpm, limited to 100 to 1,000 (Table 8-10). -/
def couchRpm (w : DWord) : Nat := limitN 100 1000 (bitsOf w.toNat 0 12)

/-- SPEED in 1/16 rpm. -/
def Dev.speed16 (d : Dev) : Nat := d.fg .SPN_SPEED

/-- SPEED from crossing intervals in nanoseconds (R283): 5 ÷ (3 × mean) rpm in 1/16 rpm, saturating. -/
def speedOf (l : List Nat) : Nat :=
  if l.sum = 0 then 2 ^ 24 - 1 else limitN 0 (2 ^ 24 - 1) (openDiv (80 * l.length * second) (3 * l.sum))

/-- Whether the mean interval exceeds 55.56 ms (R283). -/
def slow30 (l : List Nat) : Bool := 55560000 * l.length < l.sum

/-- A braking or coasting block becomes OFF when BELOW30 is set (R296). -/
def spnSettle (d : Dev) : Dev :=
  d.cond ((d.spnState == spnCoast || d.spnState == spnBrake) && d.is .SPN_STAT_BELOW30) fun d =>
    d.fs .SPN_STAT_STATE spnOff

/-- The block enters a state in which its drive stops or brakes. -/
def spnEnter (st : Nat) (d : Dev) : Dev :=
  spnSettle ((d.fs .SPN_STAT_STATE st).onSpn fun p =>
    { p with catching := false, comm := none, missed := 0, good := 0, share := none,
             duty := if spnDriven st then p.duty else 0, written := if spnDriven st then p.written else none })

/-- The settings that a commutation takes (R305). -/
def spnLatch (d : Dev) : Dev :=
  d.onSpn fun p => { p with adv := limitN 0 15 (d.fg .SPN_CTL_ADV), soft := softOf (d.fg .SPN_CTL_SOFT),
                            brake := d.is .SPN_CTL_BRAKE_EN, dt := limitN 10 255 (d.fg .SPN_DT) }

/-- The settings that a START or CATCH takes (R305). -/
def spnStartLatch (d : Dev) : Dev :=
  d.onSpn fun p => { p with align := d.rd .SPN_ALIGN, ramp := d.rd .SPN_RAMP, couch := d.rd .SPN_COUCH }

/-- A command or a DIR write refused. -/
def spnRefuse (d : Dev) : Dev := d.fs .SPN_STAT_REFUSED 1

/-- The block enters RUN, SPS's integrator preset (R286, R288). -/
def spnEnterRun (xs : Nat) (d : Dev) : Dev :=
  (((d.fs .SPN_STAT_STATE spnRun).bump .SPN_CNT_START).onSpn fun p =>
    { p with catching := false, missed := 0, good := 0, xs := xs }).onFw fun w => { w with spnTries := 0 }

/-- START (R285): refused but in OFF with BELOW30 = 1 and no frost hold. EN = 0 keeps the block OFF. -/
def spnStart (d : Dev) : Dev :=
  if !d.is .SPN_CTL_EN then d
  else if d.spnState == spnOff && d.is .SPN_STAT_BELOW30 && !d.is .SPN_STAT_FROST_HOLD then
    let d := spnLatch (spnStartLatch d)
    (d.fs .SPN_STAT_STATE spnAlign).onSpn fun p =>
      { p with step := if d.is .SPN_CTL_DIR then 1 else 5, ticks := 0, catching := false, good := 0, written := none,
               duty := 0 }
  else spnRefuse d

/-- ALIGN_END: the open-loop ramp begins from step 0 (R285). -/
def spnAlignEnd (d : Dev) : Dev :=
  if d.spnState == spnAlign then spnLatch ((d.fs .SPN_STAT_STATE spnRamp).onSpn fun p => { p with step := 0 }) else d

/-- COUCH_REACHED (R285). -/
def spnCouchReached (d : Dev) : Dev :=
  if d.spnState == spnRamp then (d.fs .SPN_STAT_STATE spnCouch).onSpn fun p => { p with good := 0 } else d

/-- COUCH_TIMEOUT: no hand-over, or a catch not engaged, within T_COUCH (R286, R288). -/
def spnCouchTimeout (d : Dev) : Dev :=
  let fail := fun d : Dev => (d.fs .SPN_STAT_START_FAIL 1).bump .SPN_CNT_STARTFAIL
  if d.spnState == spnCouch then spnEnter spnCoast (fail d)
  else if d.spn.catching then (fail d).onSpn fun p => { p with catching := false }
  else d

/-- CATCH (R288). -/
def spnCatch (d : Dev) : Dev :=
  if (d.spnState == spnCoast || d.spnState == spnOff) && d.is .SPN_CTL_EN && !d.is .SPN_STAT_FROST_HOLD
      && 16 * couchRpm (d.rd .SPN_COUCH) ≤ d.speed16 then
    (spnStartLatch d).onSpn fun p => { p with catching := true, good := 0 }
  else spnRefuse d

/-- STOP (R296): accepted in every state except OFF. -/
def spnStop (d : Dev) : Dev :=
  if d.spnState == spnOff then spnRefuse d
  else spnEnter (if d.spn.brake then spnBrake else spnCoast) d

/-- CLEAR_FAULT (R299, R301). -/
def spnClearFault (d : Dev) : Dev :=
  if d.is .SPN_STAT_FROST_HOLD then spnRefuse d
  else if d.spnState == spnFault then spnEnter spnCoast d
  else d

/-- A write to SPN_CMD: when STOP is written, START and CATCH are ignored (R296). -/
def spnCmdWrite (v : DWord) (d : Dev) : Dev :=
  let d := d.cond (v.getLsbD 3) spnClearFault
  if v.getLsbD 1 then spnStop d else (d.cond (v.getLsbD 0) spnStart).cond (v.getLsbD 2) spnCatch

/-- A write to SPN_CTL.DIR (R289). -/
def spnDirWrite (dir : Bool) (d : Dev) : Dev :=
  if d.is .SPN_CTL_DIR == dir then d
  else if d.spnState == spnOff && d.is .SPN_STAT_BELOW30 then d.fs .SPN_CTL_DIR (bit dir)
  else spnRefuse d

/-- A write to SPN_CTL.EN: 0 forces the outputs low and the state OFF (Table 8-9). -/
def spnEnable (en : Bool) (d : Dev) : Dev :=
  let d := d.fs .SPN_CTL_EN (bit en)
  d.cond (!en) fun d => spnEnter spnOff d

/-- A crossing as the step of Table 8-2 that expects it with DIR = 0, by phase (0 U, 1 V, 2 W) and direction. -/
def crossingStep (phase : Nat) (rising : Bool) : Nat :=
  match phase, rising with
  | 2, false => 0
  | 1, true => 1
  | 0, false => 2
  | 2, true => 3
  | 1, false => 4
  | _, true => 5
  | _, false => 0

/-- The floating phase of a step (Table 8-2). -/
def floatingPhase (step : Nat) : Nat := if step % 3 = 0 then 2 else if step % 3 = 1 then 1 else 0

/-- The high phase of a step (Table 8-2). -/
def highPhase (step : Nat) : Nat := if step ≤ 1 then 0 else if step ≤ 3 then 1 else 2

/-- The step after one, in the direction of DIR (R278). -/
def nextStep (dir : Bool) (step : Nat) : Nat := if dir then (step + 5) % 6 else (step + 1) % 6

/-- The crossing that a step expects, as a step of Table 8-2: the opposite one for DIR = 1 (R278). -/
def expectedCrossing (dir : Bool) (step : Nat) : Nat := if dir then (step + 3) % 6 else step

/-- A crossing taken into the speed estimate, with the direction of the latest crossings (R283). -/
def spnRecord (t c : Nat) (d : Dev) : Dev :=
  let l := (t :: d.spn.intervals).take 6
  let seen := match d.spn.crossing with
    | some p => if c = (p + 1) % 6 then some 0 else if c = (p + 5) % 6 then some 1 else none
    | none => none
  let d := (d.onSpn fun p => { p with intervals := l, crossing := some c }).fs .SPN_SPEED (speedOf l)
  let d := match seen with
    | some x => d.fs .SPN_STAT_DIR_SEEN x
    | none => d
  d.fs .SPN_STAT_BELOW30 (bit (slow30 l))

/-- One crossing of a catch: 12 consecutive crossings in the DIR order, each interval within 25 % of the one before,
engage; the other order refuses the catch (R288). -/
def spnCatchCrossing (t c : Nat) (d : Dev) (was : Dev) : Dev :=
  let dir := d.is .SPN_CTL_DIR
  match was.spn.crossing, was.spn.intervals with
  | some p, prev :: _ =>
    if c = nextStep (!dir) p then spnRefuse (d.onSpn fun p => { p with catching := false, good := 0 })
    else if c = nextStep dir p && 3 * prev ≤ 4 * t && 4 * t ≤ 5 * prev then
      let n := d.spn.good + 1
      if 12 ≤ n then
        spnLatch ((spnEnterRun 0 d).onSpn fun q =>
          { q with step := nextStep dir (expectedCrossing dir c),
                   comm := none })
      else d.onSpn fun q => { q with good := n }
    else d.onSpn fun q => { q with good := 0 }
  | _, _ => d

/-- Whether a crossing at an angle (in 1/100°) after the nominal commutation falls in its window (R280). -/
def inWindow (soft angle : Nat) : Bool := 50 * soft + 500 ≤ angle && angle + 50 * soft ≤ 6000

/-- When the next commutation follows a crossing: (30° - ADV) ÷ 60° × interval (R280). -/
def commDelay (adv t : Nat) : Nat := openDiv ((30 - adv) * t) 60

/-- BEMF_CROSSING: interval since the crossing before it in nanoseconds, phase, direction, angle after the nominal
commutation in 1/100°, comparator samples it lasts (R280, R283, R286, R288). -/
def bemfCrossing (t phase : Nat) (rising : Bool) (angle samples : Nat) (d : Dev) : Dev :=
  let st := d.spnState
  let p := d.spn
  let c := crossingStep phase rising
  let dir := d.is .SPN_CTL_DIR
  let right := phase == floatingPhase p.step && c == expectedCrossing dir p.step && inWindow p.soft angle
  if !d.is .SPN_CTL_EN then d
  else if st == spnRun then
    if right && 3 ≤ samples then
      (spnRecord t c d).onSpn fun q =>
        { q with missed := 0, comm := some (commDelay q.adv t), zcT := (d.rd .CLE_TCNT).toNat }
    else d
  else if st == spnCouch then
    if phase != floatingPhase p.step then d
    else if right then
      let d := spnRecord t c d
      let n := p.good + 1
      if 12 ≤ n then
        (spnEnterRun (fromInteger (bitsOf p.ramp.toNat 0 12)).1 d).onSpn fun q =>
          { q with comm := some (commDelay q.adv t), zcT := (d.rd .CLE_TCNT).toNat }
      else d.onSpn fun q => { q with good := n }
    else d.onSpn fun q => { q with good := 0 }
  else if st == spnRamp then
    if phase == floatingPhase p.step then spnRecord t c d else d
  else
    let e := spnRecord t c d
    spnSettle (if p.catching then spnCatchCrossing t c e d else e)

/-- COMMUTATION: the step advances at the instant that the last accepted crossing predicts (RUN), or that the open-loop
angle reaches (RAMP, COUCH), with its softened hand-over (R279, R280, R285). -/
def commutate (d : Dev) : Dev :=
  let st := d.spnState
  if (st == spnRun && d.spn.comm.isSome) || st == spnRamp || st == spnCouch then
    (spnLatch d).onSpn fun p =>
      { p with step := nextStep (d.is .SPN_CTL_DIR) p.step, comm := none, share := some (1, 2) }
  else d

/-- STEP_MISSED: a window closes with no accepted crossing; the block commutates by prediction, and the third in a row
is a loss of synchronism (R280). In COUCH it breaks the run of valid crossings (R286). -/
def stepMissed (d : Dev) : Dev :=
  if d.spnState == spnRun && d.spn.comm.isNone then
    let n := d.spn.missed + 1
    let d := d.bump .SPN_CNT_MISS
    if 3 ≤ n then (spnEnter spnCoast d).fs .SPN_STAT_SYNC_LOSS 1
    else (spnLatch d).onSpn fun p =>
      { p with missed := n, step := nextStep (d.is .SPN_CTL_DIR) p.step, share := some (1, 2) }
  else if d.spnState == spnCouch then d.onSpn fun p => { p with good := 0 }
  else d

/-- BELOW30_TIMEOUT: no crossing for 333.3 ms (R283, R296). -/
def below30Timeout (d : Dev) : Dev :=
  if d.is .SPN_CTL_EN || d.spnState != spnOff then spnSettle (d.fs .SPN_STAT_BELOW30 1) else d

/-- A write to the DUTY port: -32,768 acts as -32,767 (R277, Table 8-6). -/
def dutyWrite (v : Nat) (d : Dev) : Dev :=
  if spnDriven d.spnState && !d.is .SPN_STAT_FROST_HOLD then
    let c := signed 16 v
    d.onSpn fun p => { p with written := some (if c < -32767 then -32767 else c) }
  else d

/-- START_IREF in mA: it rises over the first quarter of T_ALIGN, holds, and is I_RAMP in RAMP and COUCH (R285). -/
def startIref (d : Dev) : Nat :=
  let st := d.spnState
  let p := d.spn
  let i := bitsOf p.align.toNat 0 12
  let t := limitN 1 4095 (bitsOf p.align.toNat 12 12)
  if st == spnAlign then (if 20 * t ≤ p.ticks then i else openDiv (i * p.ticks) (20 * t))
  else if st == spnRamp || st == spnCouch then bitsOf p.ramp.toNat 0 12
  else 0

/-- The incoming phase's share of the duty at an angle of the step: both phases carry current within σ ÷ 2 of a
commutation (R279). -/
def softShare (soft angle : Nat) : Option (Nat × Nat) :=
  let h := 50 * soft
  if angle < h then some (h + angle, 2 * h)
  else if 6000 - h < angle && angle ≤ 6000 then some (angle - (6000 - h), 2 * h)
  else none

/-- The current of a phase, W being computed (R281). -/
def phaseCurrent (iu iv : Int) (phase : Nat) : Int := if phase = 0 then iu else if phase = 1 then iv else -(iu + iv)

/-- DUTY_APPLY at a carrier peak or valley: the written DUTY, at least 100 ns old, comes into force; the currents are
sampled (12-bit codes of phases U and V), and the motor supply where its conversion falls here; softening follows the
angle (R277, R279, R281, R282, R284). -/
def dutyApply (age : Nat) (cu cv : Int) (vm : Option Nat) (angle : Nat) (d : Dev) : Dev :=
  let p := d.spn
  let take := spnDriven d.spnState && 100 ≤ age && !d.is .SPN_STAT_FROST_HOLD
  let duty := if take then p.written.getD p.duty else p.duty
  let iu := openDivI (cu * d.fg .SPN_SCALE_ISCALE) 2047
  let iv := openDivI (cv * d.fg .SPN_SCALE_ISCALE) 2047
  let car := if duty < 0 && 0 ≤ p.duty then highPhase p.step else p.carrier
  let iact := if duty < 0 && p.brake then -(phaseCurrent iu iv car) else phaseCurrent iu iv (highPhase p.step)
  d.onSpn fun p =>
    { p with
      duty := duty
      written := if take then none else p.written
      cut := false
      iu := iu
      iv := iv
      iact := iact
      carrier := car
      vmot := match vm with
        | some c => openDiv (c * d.fg .SPN_SCALE_VSCALE * 18) 40950
        | none => p.vmot
      ticks := if d.spnState == spnAlign then p.ticks + 1 else p.ticks
      share := if 2 ≤ d.spnState && d.spnState ≤ spnRun then softShare p.soft angle else p.share }

/-- DUTY_STALE: no DUTY write for 64 µs (R297). -/
def dutyStale (d : Dev) : Dev :=
  if spnDriven d.spnState then (spnEnter spnCoast d).fs .SPN_STAT_DUTY_STALE 1 else d

/-- A fault of the SPC slot: the block coasts at once (R297). -/
def spnSlotFault (d : Dev) : Dev := if spnDriven d.spnState then spnEnter spnCoast d else d

/-- OVERCURRENT on phases U and V (W as computed), in mA (R282). -/
def overcurrent (iu iv : Int) (d : Dev) : Dev :=
  if !d.is .SPN_CTL_EN then d
  else
    let top := [iu, iv, -(iu + iv)].foldl (fun m i => if m < i.natAbs then i.natAbs else m) 0
    let cyc := d.fg .SPN_LIMIT_OC_CYC
    let trip := if d.fg .SPN_LIMIT_OC_TRIP < cyc then cyc else d.fg .SPN_LIMIT_OC_TRIP
    let d := d.cond (cyc < top) fun d =>
      ((d.fs .SPN_STAT_OC_CYC 1).cond (!d.spn.cut) fun d => d.bump .SPN_CNT_OC).onSpn fun p => { p with cut := true }
    d.cond (trip < top) fun d => (spnEnter spnFault d).fs .SPN_STAT_OC_TRIP 1

/-- OVERSPEED: SPEED above OVSP in any state (R298). -/
def overspeed (d : Dev) : Dev :=
  if d.is .SPN_CTL_EN && 16 * d.fg .SPN_OVSP < d.speed16 then
    (spnEnter (if d.spn.brake then spnBrake else spnCoast) d).fs .SPN_STAT_OVSP 1
  else d

/-- A frost line event at the block (R299). -/
def spnFrost (d : Dev) : Dev :=
  let d := d.cond (d.spnState != spnFault && d.is .SPN_CTL_EN) (spnEnter spnCoast)
  ((d.fs .SPN_STAT_FROST 1).fs .SPN_STAT_FROST_HOLD 1).onSpn fun p =>
    { p with duty := 0, written := none, catching := false }

/-- Whether the CORE island is on. -/
def Dev.coreOn (d : Dev) : Bool := (d.fg .PMU_STAT_ISL).testBit 2

/-- What the bridge's six switches do (R275, R277, R279): all off, one pair modulated, two pairs modulated over a softened commutation,
or the three low switches modulated; the fraction is of 32,767. -/
inductive Bridge where
  | off
  | pair (high low : Nat) (frac : Nat)
  | soft (outgoing incoming : Nat × Nat) (outFrac inFrac : Nat)
  | brake (frac : Nat)
deriving DecidableEq, Repr

/-- The low phase of a step (Table 8-2). -/
def lowPhase (step : Nat) : Nat := 3 - highPhase step - floatingPhase step

/-- The pair of a step: its high and its low phase (Table 8-2). -/
def stepPair (step : Nat) : Nat × Nat := (highPhase step, lowPhase step)

/-- The bridge as the pins drive it; low while the CORE island is off (R23). Over a softened commutation the duty passes from the
pair of the step that ends to that of the step that begins, whichever half of it is over (R279); a pulse cut by OC_CYC leaves the low
switch on (R282). -/
def Dev.bridge (d : Dev) : Bridge :=
  let p := d.spn
  let dir := d.is .SPN_CTL_DIR
  if !d.coreOn || !d.is .SPN_CTL_EN || !spnDriven d.spnState || d.is .SPN_STAT_FROST_HOLD then .off
  else if p.duty = 0 || (p.duty < 0 && (!p.brake || p.cut)) then .off
  else if p.duty < 0 then .brake p.duty.natAbs
  else if p.cut then .pair (highPhase p.step) (lowPhase p.step) 0
  else match p.share with
    | none => .pair (highPhase p.step) (lowPhase p.step) p.duty.natAbs
    | some (a, b) =>
      let from_ := if 2 * a < b then p.step else nextStep (!dir) p.step
      .soft (stepPair from_) (stepPair (nextStep dir from_)) (openDiv (p.duty.natAbs * (b - a)) b) (openDiv (p.duty.natAbs * a) b)

/-- The values of the spindle's read ports 0x300 to 0x308 (Table 8-6). -/
def spnPort (d : Dev) (port : Nat) : Nat :=
  match port with
  | 0x301 => unsigned 32 d.spn.iact
  | 0x302 => unsigned 32 d.spn.iu
  | 0x303 => unsigned 32 d.spn.iv
  | 0x304 => d.spn.vmot
  | 0x305 => d.speed16
  | 0x306 => d.spnState + 8 * d.spn.step + 64 * d.fg .SPN_STAT_DIR_SEEN + 128 * d.fg .SPN_STAT_BELOW30
      + 256 * bit d.spn.share.isSome
  | 0x307 => d.spn.zcT
  | 0x308 => startIref d
  | _ => 0

/-! The effects of the commands. -/

/-- START (R285). -/
def execStart (s : State) : Host.Outcome State Fault Refusal := s.onDev spnStart

/-- ALIGN_END (R285). -/
def execAlignEnd (s : State) : Host.Outcome State Fault Refusal := s.onDev spnAlignEnd

/-- COUCH_REACHED (R285). -/
def execCouchReached (s : State) : Host.Outcome State Fault Refusal := s.onDev spnCouchReached

/-- COUCH_TIMEOUT (R286). -/
def execCouchTimeout (s : State) : Host.Outcome State Fault Refusal := s.onDev spnCouchTimeout

/-- CATCH (R288). -/
def execCatch (s : State) : Host.Outcome State Fault Refusal := s.onDev spnCatch

/-- STOP (R296). -/
def execStop (s : State) : Host.Outcome State Fault Refusal := s.onDev spnStop

/-- CLEAR_FAULT (R300). -/
def execClearFault (s : State) : Host.Outcome State Fault Refusal := s.onDev spnClearFault

/-- SPN_DIR_WRITE (R289). -/
def execSpnDirWrite (dir : Bool) (s : State) : Host.Outcome State Fault Refusal := s.onDev (spnDirWrite dir)

/-- BEMF_CROSSING (R280). -/
def execBemfCrossing (t : Nat) (phase : Fin 3) (rising : Bool) (angle : Nat) (samples : Nat) (s : State) :
    Host.Outcome State Fault Refusal :=
  s.onDev (bemfCrossing t phase rising angle samples)

/-- STEP_MISSED (R280). -/
def execStepMissed (s : State) : Host.Outcome State Fault Refusal := s.onDev stepMissed

/-- BELOW30_TIMEOUT (R283). -/
def execBelow30Timeout (s : State) : Host.Outcome State Fault Refusal := s.onDev below30Timeout

/-- DUTY_APPLY (R277). -/
def execDutyApply (age : Nat) (cu : Int) (cv : Int) (vm : Option Nat) (angle : Nat) (s : State) :
    Host.Outcome State Fault Refusal :=
  s.onDev (dutyApply age cu cv vm angle)

/-- DUTY_STALE (R297). -/
def execDutyStale (s : State) : Host.Outcome State Fault Refusal := s.onDev dutyStale

/-- OVERCURRENT (R282). -/
def execOvercurrent (iu : Int) (iv : Int) (s : State) : Host.Outcome State Fault Refusal :=
  s.onDev (overcurrent iu iv)

/-- OVERSPEED (R298). -/
def execOverspeed (s : State) : Host.Outcome State Fault Refusal := s.onDev overspeed

/-- COMMUTATION (R280). -/
def execCommutation (s : State) : Host.Outcome State Fault Refusal := s.onDev commutate

end Sys2Proof.Machine
end

