-- ==== Sys2Proof/Machine/Sled.lean ====
section
/-!
DEFINITION. The SLD block (09_sled_and_clamp.md): targets and moves, homing, holding, and the clamp. What firmware does
with sleds and the clamp is in ServoFw and Disc.
-/

namespace Sys2Proof.Machine

/-- SLD_STAT.STATE codes (Table 9-5). -/
def sldOff : Nat := 0
/-- IDLE. -/
def sldIdle : Nat := 1
/-- MOVING. -/
def sldMoving : Nat := 2
/-- HOMING. -/
def sldHoming : Nat := 3
/-- HELD. -/
def sldHeld : Nat := 4
/-- FAULT. -/
def sldFault : Nat := 5

/-- A sled's state. -/
def Dev.sled (d : Dev) (opu : Nat) : Sled := sparseGet {} d.sleds opu

/-- The unit with `f` applied to a sled. -/
def Dev.onSled (d : Dev) (opu : Nat) (f : Sled → Sled) : Dev :=
  { d with sleds := sparseSet {} d.sleds opu (f (d.sled opu)) }

/-- SLD_STAT.STATE. -/
def Dev.sldState (d : Dev) (opu : Nat) : Nat := d.fg .SLD_STAT_STATE opu

/-- The commanded position P (Table 9-5). -/
def Dev.sldPos (d : Dev) (opu : Nat) : Int := signed 32 (d.fg .SLD_POS opu)

/-- The unit with P set. -/
def Dev.setPos (d : Dev) (opu : Nat) (p : Int) : Dev := d.fs .SLD_POS (unsigned 32 p) opu

/-- Entry to IDLE: the target of both sources becomes the current position (R311). -/
def sldToIdle (opu : Nat) (d : Dev) : Dev :=
  let p := d.sldPos opu
  ((d.fs .SLD_STAT_STATE sldIdle opu).fs .SLD_TGT (unsigned 32 p) opu).onSled opu fun s =>
    { s with target := p, home := .none }

/-- The commanded speed chooses the current mode (R314): strong above V_UP, quiet below V_DN. -/
def sldMode (opu : Nat) (speed : Nat) (d : Dev) : Dev :=
  let up := d.fg .SLD_MODE_V_UP opu
  let dn := if up < d.fg .SLD_MODE_V_DN opu then up else d.fg .SLD_MODE_V_DN opu
  match d.fg .SLD_CTL_MODE_SEL opu with
  | 1 => d.fs .SLD_STAT_STRONG 0 opu
  | 2 => d.fs .SLD_STAT_STRONG 1 opu
  | _ => if up < speed then d.fs .SLD_STAT_STRONG 1 opu
    else if speed < dn then d.fs .SLD_STAT_STRONG 0 opu else d

/-- A target rounded to the nearest multiple of the microstep (R310). -/
def sldRound (mstep : Nat) (t : Int) : Int :=
  let m : Int := 2 ^ (limitN 0 6 mstep)
  m * roundDiv t m

/-- A sled target of a source, with the position and commanded speed (full steps per second) that the profile generator
has reached (R310 to R313). -/
def sledTarget (opu : Nat) (cle : Bool) (t pos : Int) (speed : Nat) (d : Dev) : Dev :=
  if cle == d.is .SLD_CTL_SRC opu then d
  else
    let st := d.sldState opu
    if st != sldIdle && st != sldMoving then d.fs .SLD_STAT_TGT_IGN 1 opu
    else if !d.opuReady opu then d
    else
      let p := if st == sldMoving then pos else d.sldPos opu
      let lo := signed 32 (d.fg .SLD_LIM_MIN opu)
      let hi := signed 32 (d.fg .SLD_LIM_MAX opu)
      let d := d.cond (t < lo || hi < t) fun d => d.fs .SLD_STAT_LIMIT 1 opu
      let u := sldRound (d.fg .SLD_CTL_MSTEP opu) (limitI lo hi t)
      let d := (d.setPos opu p).onSled opu fun s => { s with target := u, low := s.low && p == u }
      let d := sldMode opu (if st == sldMoving then limitN 0 (limitN 1 65535 (d.fg .SLD_PROF_V_MAX opu)) speed else 0) d
      d.fs .SLD_STAT_STATE (if p == u then sldIdle else sldMoving) opu

/-- A write to SLD_TGT. -/
def sldTgtWrite (opu : Nat) (v : DWord) (pos : Int) (speed : Nat) (d : Dev) : Dev :=
  sledTarget opu false (signed 32 v.toNat) pos speed (d.wr .SLD_TGT v opu)

/-- SLED_MOVE_DONE: P reaches the target and the sled is IDLE; at the end of the back-off it is homed (R313, R317). -/
def sledMoveDone (opu : Nat) (d : Dev) : Dev :=
  let st := d.sldState opu
  if !d.opuReady opu then d
  else if st == sldMoving then
    sldToIdle opu (sldMode opu 0 ((d.setPos opu (d.sled opu).target).bump .SLD_CNT_MOVE opu))
  else if st == sldHoming && (d.sled opu).home = .backOff then
    let d := (d.setPos opu 0).bump .SLD_CNT_HOME opu
    let d := (d.fs .SLD_STAT_HOMED 1 opu).fs .SLD_STAT_POS_UNSURE 0 opu
    sldToIdle opu (d.onSled opu fun s => { s with fails := 0, rHome := none, drift := 0 })
  else d

/-- SLED_IDLE_TIMEOUT (R315). -/
def sledIdleTimeout (opu : Nat) (d : Dev) : Dev :=
  if d.sldState opu == sldIdle then d.onSled opu fun s => { s with low := true } else d

/-- HOME (R317). -/
def sldHome (opu : Nat) (d : Dev) : Dev :=
  if d.sldState opu != sldIdle then d.fs .SLD_STAT_REFUSED 1 opu
  else if !d.opuReady opu then d
  else
    (d.fs .SLD_STAT_STATE sldHoming opu).onSled opu fun s =>
      { s with home := .clear, home1 := d.rd .SLD_HOME opu, home2 := d.rd .SLD_HOME2 opu, low := false }

/-- The sum of the duties of full steps 4 to 19 of the inward move: sixteen times the reference R (Table 9-1). -/
def homeRef (duties : List Nat) : Nat := ((duties.drop 3).take 16).sum

/-- Whether the last two full steps of the seek each lie below R × STALL_THR ÷ 16 (Table 9-1). -/
def homeStalled (thr : Nat) (duties : List Nat) : Bool :=
  let low := fun n => 256 * n < homeRef duties * thr
  21 ≤ duties.length &&
    match duties.reverse with
    | a :: b :: _ => low a && low b
    | _ => false

/-- HOME_STALL_DETECT, with the mean |duty| of each full step of the inward move so far: P is set to -64 × BACK and
the back-off to 0 begins (R317). -/
def homeStallDetect (opu : Nat) (duties : List Nat) (d : Dev) : Dev :=
  let s := d.sled opu
  if d.opuReady opu && d.sldState opu == sldHoming && s.home ≠ .backOff && s.home ≠ .none
      && homeStalled (bitsOf s.home1.toNat 24 4) duties then
    (d.setPos opu (-(64 * (limitN 1 255 (bitsOf s.home1.toNat 16 8) : Nat) : Int))).onSled opu fun s =>
      { s with home := .backOff, target := 0 }
  else d

/-- The sled part of HOME_FAIL: the sequence stops in IDLE with HOME_FAIL (R318). -/
def homeFail (opu steps : Nat) (learning : Bool) (d : Dev) : Dev :=
  let s := d.sled opu
  if d.opuReady opu && d.sldState opu == sldHoming && (learning || bitsOf s.home2.toNat 0 16 ≤ steps) then
    let d := (d.fs .SLD_STAT_HOME_FAIL 1 opu).bump .SLD_CNT_HOMEFAIL opu
    sldToIdle opu ((d.fs .SLD_STAT_HOMED 0 opu).onSled opu fun s => { s with fails := s.fails + 1 })
  else d

/-- SLD_STOP: the sled decelerates at A_MAX and its rest position becomes the target (R312, Table 9-5). -/
def sldStop (opu : Nat) (pos speed : Int) (d : Dev) : Dev :=
  if !d.opuReady opu || (d.sldState opu != sldMoving && d.sldState opu != sldHoming) then d
  else
    let a := 100 * limitN 1 65535 (d.fg .SLD_PROF_A_MAX opu)
    let run : Int := openDiv (64 * speed.natAbs ^ 2) (2 * a)
    let rest := if speed < 0 then pos - run else pos + run
    let d := (d.setPos opu pos).onSled opu fun s => { s with target := rest, home := .none }
    if pos == rest then sldToIdle opu d else d.fs .SLD_STAT_STATE sldMoving opu

/-- SLD_CLEAR_FAULT: FAULT to IDLE with HOMED cleared and POS_UNSURE set (Table 9-5). -/
def sldClearFault (opu : Nat) (d : Dev) : Dev :=
  if d.sldState opu == sldFault then
    sldToIdle opu ((d.fs .SLD_STAT_HOMED 0 opu).fs .SLD_STAT_POS_UNSURE 1 opu)
  else d

/-- A write to SLD_CMD: STOP written with HOME acts, and HOME is ignored (R317). -/
def sldCmdWrite (opu : Nat) (v : DWord) (pos speed : Int) (d : Dev) : Dev :=
  let d := d.cond (v.getLsbD 2) (sldClearFault opu)
  if v.getLsbD 1 then sldStop opu pos speed d else d.cond (v.getLsbD 0) (sldHome opu)

/-- SLED_OVERCURRENT, the sensed current of a winding in mA (R309). -/
def sledOvercurrent (opu ma : Nat) (d : Dev) : Dev :=
  if d.opuReady opu && d.is .SLD_CTL_EN opu && d.fg .SLD_SENSE_OC opu < ma then
    (((d.fs .SLD_STAT_STATE sldFault opu).fs .SLD_STAT_OC 1 opu).bump .SLD_CNT_OC opu).onSled opu fun s =>
      { s with home := .none }
  else d

/-- A write to SLD_CTL.EN: 0 forces the state OFF, and 1 brings the sled from OFF to IDLE (Table 9-5). -/
def sldEnable (opu : Nat) (en : Bool) (d : Dev) : Dev :=
  let d := d.fs .SLD_CTL_EN (bit en) opu
  if !en then (d.fs .SLD_STAT_STATE sldOff opu).onSled opu fun s => { s with home := .none }
  else d.cond (d.sldState opu == sldOff) (sldToIdle opu)

/-- A frost line, or the OPU's island going off, at a sled that the generator has brought to `pos` (R321). -/
def sldHold (opu : Nat) (frost : Bool) (pos : Int) (d : Dev) : Dev :=
  let st := d.sldState opu
  let d := d.cond (st == sldMoving) fun d => d.setPos opu pos
  let rest := st == sldIdle && d.sldPos opu % 64 == 0
  let d := d.cond (st == sldIdle || st == sldMoving || st == sldHoming) fun d => d.fs .SLD_STAT_STATE sldHeld opu
  let d := d.cond (st == sldHoming) fun d => d.fs .SLD_STAT_HOMED 0 opu
  let d := d.cond frost fun d => d.fs .SLD_STAT_FROST_HOLD 1 opu
  (d.cond (!rest) fun d => d.fs .SLD_STAT_POS_UNSURE 1 opu).onSled opu fun s => { s with home := .none }

/-- The hold ends, after the thaw delay or at the island's return: the sled is IDLE at its last P (R321). -/
def sldRelease (opu : Nat) (d : Dev) : Dev :=
  let d := d.fs .SLD_STAT_FROST_HOLD 0 opu
  d.cond (d.sldState opu == sldHeld) (sldToIdle opu)

/-- The winding current in force, in mA (R313, R315, R317); none while the OPU's island is off (R23). -/
def Dev.sldCurrent (d : Dev) (opu : Nat) : Nat :=
  let st := d.sldState opu
  if !d.opuReady opu then 0
  else if st == sldHoming then bitsOf (d.sled opu).home2.toNat 16 10
  else if st != sldIdle && st != sldMoving then 0
  else if (d.sled opu).low then d.fg .SLD_CUR_I_HOLD opu
  else if d.is .SLD_STAT_STRONG opu then d.fg .SLD_CUR_I_STRONG opu
  else d.fg .SLD_CUR_I_QUIET opu

/-- The current that a winding is regulated to in µA, to the nearest: I × cos(2π × P ÷ 256) in A, I × sin(2π × P ÷ 256) in B, whose
sign DIR_INV reverses (R308). Its rounding is the model's: DESIGN CHOICE (notes/assumptions/137.md). -/
def Dev.windingSet (d : Dev) (opu : Nat) (b : Bool) : Int :=
  let p := if b then d.sldPos opu - 64 else d.sldPos opu
  let i := roundDiv (1000 * d.sldCurrent opu * cosFix (6283185307179586 * (p % 256) * 2 ^ 392 / 10 ^ 15)) (2 ^ 400)
  if b && d.is .SLD_CTL_DIR_INV opu then -i else i

/-- What the four outputs of a sled do in one winding (R307, R309): both low, or the positive or negative half-bridge modulated. -/
inductive WindingDrive where
  | low
  | positive (duty : Nat)
  | negative (duty : Nat)
deriving DecidableEq, Repr

/-- The drive of a winding: the regulator's duty, on the half-bridge that the sign of the set current chooses (R309); low while EN is
0, the island is off, or the sled is OFF, HELD or in FAULT (R307, R321). -/
def Dev.windingDrive (d : Dev) (opu : Nat) (b : Bool) : WindingDrive :=
  let st := d.sldState opu
  let set := d.windingSet opu b
  let duty := Config.windingDuty opu b (set, d.fg .SLD_SENSE_ISCALE opu) d.qtime
  if !d.opuReady opu || !d.is .SLD_CTL_EN opu || (st != sldIdle && st != sldMoving && st != sldHoming) then .low
  else if set < 0 then .negative duty
  else .positive duty

/-- SLD_CL_STAT.STATE codes (Table 9-6). -/
def clUnknown : Nat := 0
/-- RELEASED. -/
def clReleased : Nat := 1
/-- CLAMPING. -/
def clClamping : Nat := 2
/-- CLAMPED. -/
def clClamped : Nat := 3
/-- RELEASING. -/
def clReleasing : Nat := 4
/-- FAULT. -/
def clFault : Nat := 5

/-- The clamp's state. -/
def Dev.clState (d : Dev) : Nat := d.fg .SLD_CL_STAT_STATE

/-- The unit with `f` applied to the clamp. -/
def Dev.onClamp (d : Dev) (f : Clamp → Clamp) : Dev := { d with clamp := f d.clamp }

/-- STATE set from the inputs (R327); both inputs high give FAULT. -/
def clFromInputs (d : Dev) : Dev :=
  let disc := d.is .SLD_CL_STAT_DISC_PRESENT
  let home := d.is .SLD_CL_STAT_CLAMP_HOME
  (d.fs .SLD_CL_STAT_STATE (if disc && home then clFault else if home then clReleased
    else if disc then clClamped else clUnknown)).onClamp fun c => { c with seating := false }

/-- The clamp sequence begins (R325). -/
def clampBegin (d : Dev) : Dev :=
  (d.fs .SLD_CL_STAT_STATE clClamping).onClamp fun c =>
    { c with seating := false, wasHome := d.is .SLD_CL_STAT_CLAMP_HOME }

/-- The release sequence begins (R326); with CLAMP_HOME already high only its seating drive is left. -/
def releaseBegin (d : Dev) : Dev :=
  (d.fs .SLD_CL_STAT_STATE clReleasing).onClamp fun c => { c with seating := d.is .SLD_CL_STAT_CLAMP_HOME }

/-- CLAMP (R325, R327). -/
def clampCmd (d : Dev) : Dev :=
  let st := d.clState
  if st == clFault then d.fs .SLD_CL_STAT_REFUSED 1
  else if st == clClamped || st == clClamping then d
  else clampBegin d

/-- RELEASE (R326, R327). -/
def releaseCmd (d : Dev) : Dev :=
  if d.clState != clFault && d.spnState == spnOff && d.is .SPN_STAT_BELOW30 then
    if d.clState == clReleasing then d else releaseBegin d
  else d.fs .SLD_CL_STAT_REFUSED 1

/-- CLAMP_CLEAR_FAULT (R327). -/
def clampClearFault (d : Dev) : Dev := if d.clState == clFault then clFromInputs d else d

/-- A write to SLD_CL_CMD: CLAMP and RELEASE together are refused (R327). -/
def clCmdWrite (v : DWord) (d : Dev) : Dev :=
  let d := d.cond (v.getLsbD 2) clampClearFault
  if v.getLsbD 0 && v.getLsbD 1 then d.fs .SLD_CL_STAT_REFUSED 1
  else (d.cond (v.getLsbD 0) clampCmd).cond (v.getLsbD 1) releaseCmd

/-- DISC_PRESENT_RISE (R325). -/
def discPresentRise (d : Dev) : Dev :=
  let d := d.fs .SLD_CL_STAT_DISC_PRESENT 1
  d.cond (d.clState == clClamping) fun d => d.onClamp fun c => { c with seating := true }

/-- CLAMP_HOME_RISE (R326). -/
def clampHomeRise (d : Dev) : Dev :=
  let d := (d.fs .SLD_CL_STAT_CLAMP_HOME 1).fs .SLD_CL_STAT_DISC_PRESENT 0
  d.cond (d.clState == clReleasing) fun d => d.onClamp fun c => { c with seating := true }

/-- CLAMP_SEAT_DONE (R325, R326). -/
def clampSeatDone (d : Dev) : Dev :=
  if !d.clamp.seating then d
  else
    let d := d.onClamp fun c => { c with seating := false }
    if d.clState == clClamping then d.fs .SLD_CL_STAT_STATE clClamped
    else if d.clState == clReleasing then d.fs .SLD_CL_STAT_STATE clReleased
    else d

/-- The clamp stops in FAULT with JAM, and firmware logs it. -/
def clampJam (d : Dev) : Dev :=
  (((d.fs .SLD_CL_STAT_STATE clFault).fs .SLD_CL_STAT_JAM 1).onClamp fun c => { c with seating := false }).event
    { code := 0x2006 }

/-- CLAMP_LEAVE_TIMEOUT at T_LEAVE, with whether CLAMP_HOME has fallen by then (R325). -/
def clampLeaveTimeout (fallen : Bool) (d : Dev) : Dev :=
  if d.clState != clClamping || !d.clamp.wasHome then d
  else if fallen then (d.fs .SLD_CL_STAT_CLAMP_HOME 0).onClamp fun c => { c with wasHome := false }
  else clampJam d

/-- CLAMP_MOVE_TIMEOUT at T_MOVE (R325, R326). -/
def clampMoveTimeout (d : Dev) : Dev :=
  if d.clamp.seating then d
  else if d.clState == clClamping then releaseBegin (d.fs .SLD_CL_STAT_NO_DISC 1)
  else if d.clState == clReleasing then clampJam d
  else d

/-- The hardware part of DISC_LOST: DISC_PRESENT falls while CLAMPED (R328). -/
def discLostHw (d : Dev) : Dev :=
  let d := d.fs .SLD_CL_STAT_DISC_PRESENT 0
  d.cond (d.clState == clClamped) fun d =>
    spnStop ((d.fs .SLD_CL_STAT_DISC_LOST 1).fs .SLD_CL_STAT_STATE clFault)

/-- A frost line at the clamp: a sequence in progress is abandoned (R329). -/
def clampFrost (d : Dev) : Dev :=
  d.cond (d.clState == clClamping || d.clState == clReleasing) fun d => clFromInputs (d.fs .SLD_CL_STAT_FROST 1)

/-- The clamp motor as its two pins drive it (R323): at rest, or toward clamp or release at a duty in 1/255. -/
inductive ClampDrive where
  | rest
  | clamp (duty : Nat)
  | release (duty : Nat)
deriving DecidableEq, Repr

/-- What CLAMP_PA and CLAMP_PB do; both low while the CORE island is off (R323). -/
def Dev.clampDrive (d : Dev) : ClampDrive :=
  let duty := if d.clamp.seating then d.fg .SLD_CL_CTL_SEAT_DUTY else d.fg .SLD_CL_CTL_DUTY
  if !d.coreOn || !d.is .SLD_CL_CTL_EN then .rest
  else if d.clState == clClamping then .clamp duty
  else if d.clState == clReleasing then .release duty
  else .rest

/-! The effects of the commands. -/

/-- SLED_TARGET (R311). -/
def execSledTarget (opu : Fin 4) (cle : Bool) (target : Int) (pos : Int) (speed : Nat) (s : State) :
    Host.Outcome State Fault Refusal :=
  s.onDev (sledTarget opu cle target pos speed)

/-- SLED_MOVE_DONE (R313). -/
def execSledMoveDone (opu : Fin 4) (s : State) : Host.Outcome State Fault Refusal := s.onDev (sledMoveDone opu)

/-- SLED_IDLE_TIMEOUT (R315). -/
def execSledIdleTimeout (opu : Fin 4) (s : State) : Host.Outcome State Fault Refusal := s.onDev (sledIdleTimeout opu)

/-- HOME (R317). -/
def execHome (opu : Fin 4) (s : State) : Host.Outcome State Fault Refusal := s.onDev (sldHome opu)

/-- HOME_STALL_DETECT (R317). -/
def execHomeStallDetect (opu : Fin 4) (duties : List Nat) (s : State) : Host.Outcome State Fault Refusal :=
  s.onDev (homeStallDetect opu duties)

/-- SLD_STOP (R312). -/
def execSldStop (opu : Fin 4) (pos : Int) (speed : Int) (s : State) : Host.Outcome State Fault Refusal :=
  s.onDev (sldStop opu pos speed)

/-- SLD_CLEAR_FAULT (R309). -/
def execSldClearFault (opu : Fin 4) (s : State) : Host.Outcome State Fault Refusal := s.onDev (sldClearFault opu)

/-- SLED_OVERCURRENT (R309). -/
def execSledOvercurrent (opu : Fin 4) (ma : Nat) (s : State) : Host.Outcome State Fault Refusal :=
  s.onDev (sledOvercurrent opu ma)

/-- CLAMP (R325). -/
def execClamp (s : State) : Host.Outcome State Fault Refusal := s.onDev clampCmd

/-- RELEASE (R326). -/
def execRelease (s : State) : Host.Outcome State Fault Refusal := s.onDev releaseCmd

/-- CLAMP_CLEAR_FAULT (R327). -/
def execClampClearFault (s : State) : Host.Outcome State Fault Refusal := s.onDev clampClearFault

/-- DISC_PRESENT_RISE (R325). -/
def execDiscPresentRise (s : State) : Host.Outcome State Fault Refusal := s.onDev discPresentRise

/-- CLAMP_HOME_RISE (R326). -/
def execClampHomeRise (s : State) : Host.Outcome State Fault Refusal := s.onDev clampHomeRise

/-- CLAMP_SEAT_DONE (R325). -/
def execClampSeatDone (s : State) : Host.Outcome State Fault Refusal := s.onDev clampSeatDone

/-- CLAMP_LEAVE_TIMEOUT (R325). -/
def execClampLeaveTimeout (fallen : Bool) (s : State) : Host.Outcome State Fault Refusal :=
  s.onDev (clampLeaveTimeout fallen)

/-- CLAMP_MOVE_TIMEOUT (R325). -/
def execClampMoveTimeout (s : State) : Host.Outcome State Fault Refusal := s.onDev clampMoveTimeout

end Sys2Proof.Machine
end

