-- ==== Sys2Proof/Machine/Slots.lean ====
section
/-!
DEFINITION. Loop slots of the Control Law Engine as every block sees them (06_control_law_engine.md): events, output
ports and their safe values, slot faults, starting and stopping slots, and an OPU's loops brought to OPEN.
-/

namespace Sys2Proof.Machine

/-- The unit with `f` applied to the engine. -/
def Dev.onEng (d : Dev) (f : Engine → Engine) : Dev := { d with eng := f d.eng }

/-- A slot's tick state. -/
def Dev.slot (d : Dev) (n : Nat) : CleSlot := sparseGet {} d.eng.slots n

/-- The unit with `f` applied to a slot's tick state. -/
def Dev.onSlot (d : Dev) (n : Nat) (f : CleSlot → CleSlot) : Dev :=
  d.onEng fun e => { e with slots := sparseSet {} e.slots n (f (d.slot n)) }

/-- A word of data memory. -/
def Dev.dmWord (d : Dev) (a : Nat) : Word := sparseGet 0#128 d.eng.dm (a % 16384)

/-- The unit with a word of data memory written. -/
def Dev.putDm (d : Dev) (a : Nat) (w : Word) : Dev :=
  d.onEng fun e => { e with dm := sparseSet 0#128 e.dm (a % 16384) w }

/-- A lane of a word. -/
def laneOf (w : Word) (l : Nat) : Nat := bitsOf w.toNat (32 * l) 32

/-- A word with one lane written. -/
def putLane (w : Word) (l v : Nat) : Word := BitVec.ofNat 128 (putBits w.toNat (32 * l) 32 v)

/-- The loops of firmware release F3.1 and the open slots (Table 6-8). -/
inductive LoopKind where
  | foc (opu : Nat) | trk (opu : Nat) | spc | apc (beam : Nat) | tlt (opu : Nat) | slc (opu : Nat) | sps
  | sac (opu : Nat) | wmk | service | opened
deriving DecidableEq, Repr

/-- The loop that a slot holds (Table 6-8). -/
def slotKind (n : Nat) : LoopKind :=
  if n < 4 then .foc n else if n < 8 then .trk (n - 4) else if n = 8 then .spc
  else if n < 57 then .apc (n - 9) else if n < 61 then .tlt (n - 57) else if n < 65 then .slc (n - 61)
  else if n = 65 then .sps else if n < 70 then .sac (n - 66) else if n = 70 then .wmk
  else if n = 71 then .service else .opened

/-- The OPU that a loop serves. -/
def LoopKind.opu : LoopKind → Option Nat
  | .foc o | .trk o | .tlt o | .slc o | .sac o => some o
  | .apc b => some (b / 12)
  | _ => none

/-- Whether a slot is present: those of a fused-off OPU are absent (R215). -/
def Dev.slotPresent (d : Dev) (n : Nat) : Bool :=
  n < 80 && match (slotKind n).opu with
    | some o => d.opuPresent o
    | none => true

/-- The slots of an OPU's five optical loops: FOC, TRK, TLT, SLC, SAC. -/
def servoSlots (opu : Nat) : List Nat := [opu, 4 + opu, 57 + opu, 61 + opu, 66 + opu]

/-- The slots of an OPU's APC loops. -/
def apcSlots (opu : Nat) : List Nat := (List.range 12).map (9 + 12 * opu + ·)

/-- Whether the ticks of a slot run. -/
def Dev.started (d : Dev) (n : Nat) : Bool := d.is .SLOT_CTL_STARTED n

/-- An entry posted to the event FIFO of 64, which raises the drive processors' CLE interrupt; a full FIFO discards it (R203). -/
def postEvent (code slot : Nat) (fault : Bool) (d : Dev) : Dev :=
  if d.eng.events.length < 64 then
    d.onEng fun e => { e with events := e.events ++ [{ code := code % 256, slot := slot, fault := fault }], irq := true }
  else d.fs .CLE_STAT_EVT_OVF 1

/-- Whether an OPU's write inhibit is set. -/
def Dev.inhibited (d : Dev) (opu : Nat) : Bool := sparseGet 0 d.eng.inhibit opu == 1

/-- The unit with an OPU's write inhibit set or cleared. -/
def Dev.setInhibit (d : Dev) (opu : Nat) (on : Bool) : Dev :=
  d.onEng fun e => { e with inhibit := sparseSet 0 e.inhibit opu (bit on) }

/-- The value last written to an output port. -/
def Dev.outPort (d : Dev) (p : Nat) : Nat := sparseGet 0 d.eng.outs p

/-- The live output offset trim of an actuator DAC port (R335, R339). -/
def Dev.actTrim (d : Dev) (p : Nat) : Int := sparseGet 0 d.cal.live (16 * (p / 64) + 11 + (p % 64 - 8))

/-- The unit with a value at a DAC port: the update takes the output's offset trim into use (R338). -/
def Dev.setOut (d : Dev) (p v : Nat) : Dev :=
  d.onEng fun e => { e with outs := sparseSet 0 e.outs p v, acts := sparseSet 0 e.acts p (d.actTrim p) }

/-- What a DAC output drives (R335): the code of its last update, and the offset added at the balls in 0.1 mV differential. -/
def Dev.dacOut (d : Dev) (p : Nat) : Int × Int := (signed 16 (d.outPort p), sparseGet 0 d.eng.acts p)

/-- A port's safe value at a fault of the slot that wrote it last; the spindle's mailbox ports have none (R210, R302). -/
def portSafe (p : Nat) (d : Dev) : Dev :=
  let o := p % 64
  if p < 256 then
    if 8 ≤ o && o < 12 then d.setOut p 0
    else if o == 12 then sledTarget (p / 64) true (d.sldPos (p / 64)) (d.sldPos (p / 64)) 0 d
    else if 32 ≤ o && o < 44 then d.setInhibit (p / 64) true
    else d
  else if p = 0x300 then dutyWrite 0 d
  else d

/-- The output ports that a slot wrote last. -/
def Dev.portsOf (d : Dev) (n : Nat) : List Nat := (d.eng.writer.filter fun e => e.2 == n + 1).map (·.1)

/-- Whether a slot has a sample ready, running or suspended. -/
def Dev.hasSample (d : Dev) (n : Nat) : Bool := d.eng.samples.any fun s => s.slot == n

/-- The bank swap of a slot (R223). -/
def bankSwap (n : Nat) (d : Dev) : Dev :=
  let d := d.fs .SLOT_CTL_ACTIVE (1 - d.fg .SLOT_CTL_ACTIVE n) n
  ((d.fs .SLOT_CTL_PENDING 0 n).fs .SLOT_CTL_BANK_GEN ((d.fg .SLOT_CTL_BANK_GEN n + 1) % 256) n).onSlot n fun s =>
    { s with fresh := true }

/-- SWAP: a write of 1 to SLOT_CTL.SWAP: at once for a slot that is not started, but never inside a sample of it (R223). -/
def swapWrite (n : Nat) (d : Dev) : Dev :=
  if !d.slotPresent n then d
  else if d.started n || d.hasSample n then d.fs .SLOT_CTL_PENDING 1 n
  else bankSwap n d

/-- A whole bank written into the inactive half of a slot's pair, and the swap asked for (R224). -/
def bankWrite (n : Nat) (ws : List Word) (d : Dev) : Dev :=
  let base := d.fg .SLOT_BANK_BASE n + (if d.is .SLOT_CTL_ACTIVE n then 0 else d.fg .SLOT_BANK_LEN n + 1)
  swapWrite n (d.each ws.zipIdx fun d p => d.putDm (base + p.2) p.1)

/-- A bank of firmware's for a slot: written now, or kept until the swap that waits has taken place (R224). -/
def loadBank (n : Nat) (ws : List Word) (d : Dev) : Dev :=
  if d.is .SLOT_CTL_PENDING n then d.onFw fun w => { w with bankWaits := sparseSet [] w.bankWaits n ws }
  else bankWrite n ws d

/-- A waiting swap takes place, and the bank that firmware kept back for the slot follows (R223, R224). -/
def bankTake (n : Nat) (d : Dev) : Dev :=
  let d := bankSwap n d
  match sparseGet [] d.fw.bankWaits n with
  | [] => d
  | ws => bankWrite n ws (d.onFw fun w => { w with bankWaits := sparseSet [] w.bankWaits n [] })

/-- A slot that is no longer started and has no sample takes its waiting swap at once (R223). -/
def bankSettle (n : Nat) (d : Dev) : Dev :=
  d.cond (d.is .SLOT_CTL_PENDING n && !d.started n && !d.hasSample n) (bankTake n)

/-- A slot's ticks stop: EN and STARTED cleared (R212). -/
def slotStop (n : Nat) (d : Dev) : Dev :=
  bankSettle n (((d.fs .SLOT_CFG_EN 0 n).fs .SLOT_CTL_STARTED 0 n).onSlot n fun s => { s with ticked := false })

/-- A slot faults with a cause (R221): the OPU inhibited is that of the configuration in force (R238). -/
def slotFault (cause n : Nat) (d : Dev) : Dev :=
  let d := slotStop n (d.onEng fun e => { e with samples := e.samples.filter fun x => x.slot != n })
  let d := d.each (d.portsOf n) fun d p => portSafe p d
  let d := d.cond (n == 8) spnSlotFault
  let opu := bitsOf (d.slot n).cfg.toNat 20 3
  let d := d.cond (opu < 4) fun d => d.setInhibit opu true
  postEvent 0 n true ((d.fs .SLOT_STAT_FAULT 1 n).fs .SLOT_STAT_CAUSE cause n)

/-- CLE_GO: every enabled slot that is not started begins its ticks at one T_start (R212). -/
def cleGo (d : Dev) : Dev :=
  let t := d.fg .CLE_TCNT
  d.each (List.range 80) fun d n =>
    d.cond (d.slotPresent n && d.is .SLOT_CFG_EN n && !d.started n) fun d =>
      let per := limitN 200 (2 ^ 20) (d.fg .SLOT_PER_PERIOD n)
      let ph := d.fg .SLOT_PHASE n % per
      (d.fs .SLOT_CTL_STARTED 1 n).onSlot n fun _ =>
        { due := (t + ph) % 2 ^ 32, since := ph, period := per, phase := ph, start := t, cfg := d.rd .SLOT_CFG n
          bank := d.rd .SLOT_BANK n }

/-- Slots enabled and started together, but for those that firmware holds disabled while their port groups are released (R232). -/
def slotsStart (l : List Nat) (d : Dev) : Dev :=
  cleGo (d.each l fun d n => d.cond (d.slotPresent n && !d.fw.openHeld.contains n) fun d => d.fs .SLOT_CFG_EN 1 n)

/-- SLOT_DISABLE (R212). -/
def slotDisable (n : Nat) (d : Dev) : Dev := if d.slotPresent n then slotStop n d else d

/-- The servo of an OPU. -/
def Dev.servo (d : Dev) (opu : Nat) : Servo := sparseGet {} d.servos opu

/-- The unit with `f` applied to an OPU's servo. -/
def Dev.onServo (d : Dev) (opu : Nat) (f : Servo → Servo) : Dev :=
  { d with servos := sparseSet {} d.servos opu (f (d.servo opu)) }

/-- Servo states (Table 7-7). -/
def svOpen : Nat := 0
/-- SWEEP. -/
def svSweep : Nat := 1
/-- FOCUSED. -/
def svFocused : Nat := 2
/-- TRK_ACQ. -/
def svTrkAcq : Nat := 3
/-- TRACKING. -/
def svTracking : Nat := 4
/-- SEEK. -/
def svSeeking : Nat := 5
/-- LAYER_JUMP. -/
def svLayerJump : Nat := 6
/-- RECOVER. -/
def svRecover : Nat := 7
/-- FAULT. -/
def svFault : Nat := 8

/-- An OPU's servo state. -/
def Dev.svSt (d : Dev) (opu : Nat) : Nat := d.sv opu svState

/-- An OPU's servo state set; every state but TRACKING holds the write inhibit set (Table 7-7). -/
def Dev.setSv (d : Dev) (opu st : Nat) : Dev :=
  (d.svSet opu svState st).cond (st != svTracking) fun d => d.setInhibit opu true

/-- A reason present in INH_SRC: the bit set with the write inhibit (R271). -/
def Dev.reason (d : Dev) (opu bit : Nat) : Dev :=
  (d.svSet opu svInhSrc (d.sv opu svInhSrc ||| 2 ^ bit)).setInhibit opu true

/-- Every loop of an OPU stopped and its state OPEN, with only the runout table kept and the outputs at zero (R273). -/
def servoOpen (opu : Nat) (d : Dev) : Dev :=
  let d := d.each (servoSlots opu ++ apcSlots opu) fun d n => slotStop n d
  let d := d.each [8, 9, 10, 11] fun d o => d.setOut (64 * opu + o) 0
  let d := (d.setSv opu svOpen).svSet opu svInhSrc (d.sv opu svInhSrc ||| 0x23)
  d.onServo opu fun s => { runout := s.runout, learn := s.learn }

/-- Conversion of a photodetector input: the SPD port then carries the raw code after trimming (R337). -/
def spdConvert (opu i : Nat) (raw : Int) (d : Dev) : Dev :=
  let live := fun k => sparseGet (0 : Int) d.cal.live (16 * opu + k)
  let b : Int := if i == 1 || i == 3 then live 8 else if i == 5 then live 9 else if i == 7 then live 10 else 0
  let v := limitI (-32767) 32767 (roundDiv ((raw + 4 * live i) * (200 + b)) 200)
  d.onEng fun e => { e with spd := sparseSet 0 e.spd (8 * opu + i) v }

/-- What port SPD i of an OPU carries. -/
def Dev.spd (d : Dev) (opu i : Nat) : Int := sparseGet 0 d.eng.spd (8 * opu + i)

/-- The base of the coefficient bank that a slot's samples use (R223). -/
def Dev.bankBase (d : Dev) (n : Nat) : Nat :=
  d.fg .SLOT_BANK_BASE n + (if d.is .SLOT_CTL_ACTIVE n then d.fg .SLOT_BANK_LEN n + 1 else 0)

/-- The base of the bank that a slot will use once a pending swap has taken place. -/
def Dev.nextBank (d : Dev) (n : Nat) : Nat :=
  let act := d.is .SLOT_CTL_ACTIVE n
  d.fg .SLOT_BANK_BASE n + (if act != d.is .SLOT_CTL_PENDING n then d.fg .SLOT_BANK_LEN n + 1 else 0)

/-- The words of the bank that a slot will use, as they stand, once every bank that firmware has given it has come into use. -/
def Dev.bankNow (d : Dev) (n : Nat) : List Word :=
  match sparseGet [] d.fw.bankWaits n with
  | [] => (List.range (d.fg .SLOT_BANK_LEN n + 1)).map fun k => d.dmWord (d.nextBank n + k)
  | ws => ws

/-- One lane of a slot's coefficients changed, as a whole bank (R223). -/
def bankLane (n word lane v : Nat) (d : Dev) : Dev :=
  loadBank n ((d.bankNow n).modify word fun w => putLane w lane v) d

end Sys2Proof.Machine
end

