-- ==== Sys2Proof/Machine/Calib.lean ====
section
/-!
DEFINITION. The calibration sequencer and the trim store (10_calibration.md).
-/

namespace Sys2Proof.Machine

/-- The unit with `f` applied to the sequencer. -/
def Dev.onCal (d : Dev) (f : Calib → Calib) : Dev := { d with cal := f d.cal }

/-- A trim of Table 10-1: a slice's filter, gain or offset, a servo input's offset, a balance pair, an actuator output;
the number is the slice, or 8 × OPU + index. -/
inductive Trim where
  | ft (n : Nat) | gain (n : Nat) | ofs (n : Nat) | spd (n : Nat) | bal (n : Nat) | act (n : Nat)
deriving DecidableEq, Repr

/-- A trim's field of the store and the indices of its register (Table 10-7). -/
def Trim.fld : Trim → Fld × Nat × Nat
  | .ft n => (.CAL_FTRIM_FT, n, 0)
  | .gain n => (.CAL_RTRIM_GTRIM, n, 0)
  | .ofs n => (.CAL_RTRIM_OFS, n, 0)
  | .spd n => (.CAL_SPD_OFS, n / 8, n % 8)
  | .bal n => ((match n % 8 with | 0 => .CAL_SPD_BAL_F | 1 => .CAL_SPD_BAL_L | _ => .CAL_SPD_BAL_R), n / 8, 0)
  | .act n => ((match n % 8 with
      | 0 => .CAL_ACT_OFS_FOC | 1 => .CAL_ACT_OFS_TRK | 2 => .CAL_ACT_OFS_TLT | _ => .CAL_ACT_OFS_SAC), n / 8, 0)

/-- A trim's range (Table 10-1). -/
def Trim.range : Trim → Int × Int
  | .ft _ | .gain _ => (-16, 15)
  | .ofs _ => (-63, 63)
  | .spd _ => (-512, 511)
  | .bal _ => (-32, 31)
  | .act _ => (-128, 127)

/-- A number for each trim. -/
def Trim.key : Trim → Nat
  | .ft n => n
  | .gain n => 256 + n
  | .ofs n => 512 + n
  | .spd n => 768 + n
  | .bal n => 1024 + n
  | .act n => 1280 + n

/-- A trim's value in the store. -/
def Dev.trim (d : Dev) (t : Trim) : Int := signed t.fld.1.width (d.fg t.fld.1 t.fld.2.1 t.fld.2.2)

/-- A slice's stored offset and gain copied to its live RCS_TRIM. -/
def liveSlice (n : Nat) (d : Dev) : Dev :=
  (d.fs .RCS_TRIM_OFS (d.fg .CAL_RTRIM_OFS n) n).fs .RCS_TRIM_GTRIM (d.fg .CAL_RTRIM_GTRIM n) n

/-- An OPU's stored servo and actuator trims copied to its live trims. -/
def liveServo (opu : Nat) (d : Dev) : Dev :=
  let put := fun (l : Sparse Int) (k : Nat) (t : Trim) => sparseSet 0 l (16 * opu + k) (d.trim t)
  let l := (List.range 8).foldl (fun l i => put l i (.spd (8 * opu + i))) d.cal.live
  let l := (List.range 3).foldl (fun l i => put l (8 + i) (.bal (8 * opu + i))) l
  d.onCal fun c => { c with live := (List.range 4).foldl (fun l i => put l (11 + i) (.act (8 * opu + i))) l }

/-- The OPU whose island a trim lies in. -/
def Trim.opu : Trim → Nat
  | .ft n | .gain n | .ofs n => n / 24
  | .spd n | .bal n | .act n => n / 8

/-- A trim written into the store and, while its island is on, into the live trim (R339). -/
def Dev.setTrim (d : Dev) (t : Trim) (v : Int) : Dev :=
  let d := d.fs t.fld.1 (unsigned t.fld.1.width v) t.fld.2.1 t.fld.2.2
  d.cond (d.stage t.opu != .off) fun d => match t with
    | .ft _ => d
    | .gain n | .ofs n => liveSlice n d
    | .spd _ | .bal _ | .act _ => liveServo t.opu d

/-- TRIM_RESTORE: HK copies the store into the live trims of an OPU island (R26, R339). -/
def trimRestore (opu : Nat) (d : Dev) : Dev := liveServo opu (d.each (slicesOf opu) fun d n => liveSlice n d)

/-- The groups of Table 10-2: the trims that resource `i` of a group on an OPU has. -/
def calTrims (group opu i : Nat) : List Trim :=
  match group with
  | 0 => [.act (8 * opu + i)]
  | 1 => [.spd (8 * opu + i)]
  | 2 => [.ft (24 * opu + i), .gain (24 * opu + i)]
  | 3 => [.ofs (24 * opu + i)]
  | 4 => [.bal (8 * opu + i)]
  | _ => []

/-- The resources of a group on an OPU; slices with EN = 0 take no part in group 3. -/
def calResources (d : Dev) (group opu : Nat) : List Nat :=
  match group with
  | 0 => List.range 4
  | 1 => List.range 8
  | 2 => List.range 24
  | 3 => (List.range 24).filter fun i => d.sliceOn (24 * opu + i)
  | 4 => List.range 3
  | _ => [0]

/-- The bit of a pair (R346). -/
def pairBit (opu group : Nat) : Nat := 7 * opu + group

/-- The pairs of a set in the order of a run: by group, then by OPU (R342). -/
def runOrder (set : Nat) : List (Nat × Nat) :=
  ((List.range 7).flatMap fun g => (List.range 4).map fun o => (g, o)).filter fun p => set.testBit (pairBit p.2 p.1)

/-- A set without the pairs of fused-off OPUs (R6). -/
def fusedPairs (d : Dev) (set : Nat) : Nat :=
  (runOrder set).foldl (fun s p => if d.opuPresent p.2 then s + 2 ^ pairBit p.2 p.1 else s) 0

/-- Whether the sequencer is idle. -/
def Dev.calIdle (d : Dev) : Bool := d.fg .CAL_RUN_PAIRS == 0

/-- A set becomes a run. -/
def calRun (set : Nat) (d : Dev) : Dev :=
  (d.fs .CAL_RUN_PAIRS set).onCal fun c => { c with ahead := runOrder set, resources := [] }

/-- The pending set becomes a run when the sequencer is idle and enabled and no frost hold is in force (R346, R347). -/
def calNext (d : Dev) : Dev :=
  if d.calIdle && d.is .CAL_CTL_EN && !d.frost && d.fg .CAL_PEND_PAIRS != 0 then
    calRun (d.fg .CAL_PEND_PAIRS) ((d.fs .CAL_PEND_PAIRS 0).fs .CAL_STAT_PEND 0)
  else d

/-- A write to CAL_TRIG (R346). Firmware counts the pairs as due from here on. -/
def calTrigger (set : Nat) (d : Dev) : Dev :=
  let s := fusedPairs d set
  if s = 0 then d
  else
    let d := d.each (runOrder s) fun d p => d.onCal fun c =>
      let k := pairBit p.2 p.1
      { c with
        dueAt := if sparseGet 0 c.dueAt k = 0 then sparseSet 0 c.dueAt k (d.qtime + 1) else c.dueAt
        trigAt := sparseSet 0 c.trigAt k (d.qtime + 1) }
    if d.calIdle && d.is .CAL_CTL_EN && d.fg .CAL_PEND_PAIRS == 0 && !d.frost then calRun s d
    else
      let d := d.cond (d.fg .CAL_PEND_PAIRS != 0) fun d => d.bump .CAL_CNT_MERGE
      calNext ((d.fs .CAL_PEND_PAIRS (d.fg .CAL_PEND_PAIRS ||| s)).fs .CAL_STAT_PEND 1)

/-- A write to CAL_CTL.EN. -/
def calEnable (en : Bool) (d : Dev) : Dev := calNext (d.fs .CAL_CTL_EN (bit en))

/-- CAL_RES codes. -/
def CalResult.code : CalResult → Nat
  | .none => 0
  | .pass => 1
  | .timeout => 2
  | .range => 3
  | .jump => 4
  | .invalid => 5
  | .deferred => 6
  | .aborted => 7

/-- The result that a code of CAL_EXT.RESULT names. -/
def calResultOf : Nat → CalResult
  | 1 => .pass
  | 2 => .timeout
  | 3 => .range
  | 4 => .jump
  | 5 => .invalid
  | 6 => .deferred
  | 7 => .aborted
  | _ => .none

/-- The condition of a group at the start of a step (Table 10-2). -/
def calCondition (d : Dev) (group opu : Nat) : Bool :=
  let slices := slicesOf opu
  d.opuReady opu && match group with
    | 0 => d.svSt opu == svOpen
    | 1 => d.svSt opu == svOpen && !(d.servo opu).laser
    | 2 => slices.all fun n => !d.is .RCS_CTL_EN n && d.fg .RCS_STAT_STATE n ≤ 1
    | 3 => 12 ≤ (slices.filter fun n => d.sliceOn n && d.fg .RCS_STAT_STATE n == 3).length
    | 4 => d.svSt opu == svSweep && (d.servo opu).curves == 0
    | _ => d.svSt opu == svTracking && slices.all (fun n => d.fg .RCS_CAP_SLOTS n == 0)
      && (d.opuFw opu).latched.isNone

/-- The source temperature of a group on an OPU, 1/16 °C (Table 10-2). -/
def calTemp (d : Dev) (group opu : Nat) : Int :=
  if group = 0 || group = 2 || group = 3 then d.cal.die else d.thermTemp (sparseGet 0 d.eng.therm opu)

/-- The lists of values packed from bit 0 upward, `w` bits each (Table 10-4). -/
def packFields (l : List (Nat × Nat)) : Nat := l.foldr (fun e n => n <<< e.1 + e.2 % 2 ^ e.1) 0

/-- TRIMS of a CAL record: the group's store fields in store register order; K of FOC and TRK; the preset of the current
layer (Table 10-4). -/
def calTrimBytes (d : Dev) (group opu : Nat) : Bytes :=
  let f := fun (t : Trim) => (t.fld.1.width, d.fg t.fld.1 t.fld.2.1 t.fld.2.2)
  let sl := List.range 24 |>.map (24 * opu + ·)
  match group with
  | 5 => leBytes 4 (laneOf (d.dmWord (d.nextBank opu + 2)) 0) ++ leBytes 4 (laneOf (d.dmWord (d.nextBank (4 + opu) + 2)) 0)
  | 6 => leBytes 2 (laneOf (d.dmWord (d.nextBank (66 + opu) + 8 * d.sv opu svSide + d.sv opu svLayer)) 0)
  | 0 => leBytes 4 (packFields ((List.range 4).map fun i => f (.act (8 * opu + i))))
  | 1 => leBytes 10 (packFields ((List.range 8).map fun i => f (.spd (8 * opu + i))))
  | 2 => leBytes 30 (packFields ((sl.map fun n => f (.gain n)) ++ sl.map fun n => f (.ft n)))
  | 3 => leBytes 21 (packFields (sl.map fun n => f (.ofs n)))
  | _ => leBytes 3 (packFields ((List.range 3).map fun i => f (.bal (8 * opu + i))))

/-- The payload of a CAL record (Table 10-4). -/
def calPayload (d : Dev) (group opu : Nat) (r : CalResult) : Bytes :=
  leBytes 1 (opu + 16 * group) ++ leBytes 1 r.code ++ leBytes 3 (d.fg .CAL_FAILMAP_MAP)
    ++ leBytes 2 (unsigned 16 (calTemp d group opu))
    ++ leBytes 1 (if group = 6 then 16 * d.sv opu svSide + d.sv opu svLayer else 0)
    ++ leBytes 4 (if group = 6 then d.fw.disc.serial else 0) ++ takeFill 0#8 32 (calTrimBytes d group opu)

/-- The step of the front pair ends with a result: the pair leaves the run, which may end, and firmware writes the CAL
record (R342, R344, R346, R353). -/
def calEndStep (r : CalResult) (d : Dev) : Dev :=
  match d.cal.ahead with
  | [] => d
  | (g, o) :: rest =>
    let k := pairBit o g
    let failing := d.cal.resources.filter fun x => x.result != .pass
    let ran := r != .deferred
    let failed := ran && r != .pass
    let d := d.fs .CAL_RES_RESULT (putBits (d.fg .CAL_RES_RESULT o) (3 * g) 3 r.code) o
    let d := if ran then d.bump .CAL_CNT_STEP else d.bump .CAL_CNT_DEFER
    let d := d.cond failed fun d =>
      let map := failing.foldl (fun m x => m ||| 2 ^ x.idx) 0
      (((d.bump .CAL_CNT_FAIL).fs .CAL_STAT_FAIL 1).fs .CAL_FAILMAP_MAP map).onCal fun c => { c with
        failed := c.failed ++ [{ group := g, opu := o, code := r.code, map := map, nth := sparseGet 0 c.fails k + 1 }] }
    let d := d.onCal fun c =>
      { c with
        trusted := (d.cal.resources.filter (fun x => x.result == .pass)).foldl
          (fun l x => (calTrims g o x.idx).foldl (fun l t => if l.contains t.key then l else t.key :: l) l) c.trusted
        temps := if r = .pass then sparseSet 0 c.temps k (calTemp d g o + 1000).toNat else c.temps
        dueAt := if r = .pass then sparseSet 0 c.dueAt k 0 else c.dueAt
        fails := if r = .pass then sparseSet 0 c.fails k 0
          else if failed then sparseSet 0 c.fails k (sparseGet 0 c.fails k + 1) else c.fails }
    let pay := calPayload d g o r
    let d := d.cond ran fun d =>
      (d.onCal fun c => { c with records := sparseSet [] c.records k pay }).fwSubmit false 0x06 0 pay
    let d := ((d.fs .CAL_STAT_STATE 0).fs .CAL_STAT_REQ 0).fs .CAL_RUN_PAIRS
      (d.fg .CAL_RUN_PAIRS - 2 ^ k * bit ((d.fg .CAL_RUN_PAIRS).testBit k))
    let d := d.onCal fun c => { c with ahead := rest, resources := [] }
    if rest.isEmpty then calNext (d.fs .CAL_STAT_DONE 1) else d

/-- CAL_STEP_START: the run reaches its next pair (R342). -/
def calStepStart (d : Dev) : Dev :=
  match d.cal.ahead with
  | [] => d
  | (g, o) :: _ =>
    if d.fg .CAL_STAT_STATE != 0 || d.mode == 7 then d
    else
      let d := (d.fs .CAL_STAT_CUR_OPU o).fs .CAL_STAT_CUR_GROUP g
      if !calCondition d g o then calEndStep .deferred d
      else
        let res := (calResources d g o).map fun i =>
          let ts := calTrims g o i
          ({ idx := i, start := (ts.head?.map d.trim).getD 0, start2 := ((ts.drop 1).head?.map d.trim).getD 0 }
            : CalResource)
        let d := d.onCal fun c => { c with resources := res }
        if g < 5 then d.fs .CAL_STAT_STATE 1 else (d.fs .CAL_STAT_STATE 2).fs .CAL_STAT_REQ 1

/-- The JUMP limit of a trim, in its own steps (Table 10-6). -/
def Dev.jumpLimit (d : Dev) : Trim → Nat
  | .ft _ => d.fg .CAL_JUMP0_FT
  | .gain _ => d.fg .CAL_JUMP0_GTRIM
  | .ofs _ => d.fg .CAL_JUMP0_OFS
  | .spd _ => d.fg .CAL_JUMP1_SPD_OFS
  | .bal _ => d.fg .CAL_JUMP1_BAL
  | .act _ => d.fg .CAL_JUMP0_ACT

/-- A resource of the step with its trims and the value each had at the start. -/
def CalResource.starts (x : CalResource) (g o : Nat) : List (Trim × Int) := (calTrims g o x.idx).zip [x.start, x.start2]

/-- A resource concluded with a failing result: its start values restored (R344). -/
def calRestoreRes (g o : Nat) (x : CalResource) (d : Dev) : Dev := d.each (x.starts g o) fun d p => d.setTrim p.1 p.2

/-- The unit with a resource's entry replaced. -/
def Dev.setRes (d : Dev) (x : CalResource) : Dev :=
  d.onCal fun c => { c with resources := c.resources.map fun y => if y.idx = x.idx then x else y }

/-- A resource fails. -/
def calFail (g o : Nat) (x : CalResource) (r : CalResult) (d : Dev) : Dev :=
  (calRestoreRes g o x d).setRes { x with result := r, count := x.count + 1 }

/-- A resource has its final values in the store: JUMP where a trusted start value moved too far, PASS otherwise
(R344). -/
def calConclude (g o : Nat) (x : CalResource) (d : Dev) : Dev :=
  if (x.starts g o).any fun p => d.cal.trusted.contains p.1.key && d.jumpLimit p.1 < (d.trim p.1 - p.2).natAbs then
    calFail g o x .jump d
  else d.setRes { x with result := .pass, count := x.count + 1 }

/-- A trial value written, or RANGE; with `last` the method has run out of measurements and does not converge. -/
def calTrial (g o : Nat) (x : CalResource) (t : Trim) (v : Int) (last : Bool) (d : Dev) : Dev :=
  if last then calFail g o x .invalid d
  else if v < t.range.1 || t.range.2 < v then calFail g o x .range d
  else (d.setTrim t v).setRes { x with count := x.count + 1 }

/-- One measurement of a resource: its index, up to three measured values, and whether the measurement cannot be used
(Table 10-3). -/
abbrev CalMeasure := Nat × Int × Int × Int × Bool

/-- One measurement applied to a resource by the method of its group (Table 10-3). Values: group 0, the differential in
0.05 mV; group 1, the sum of 1,024 conversions; group 2, the FT that the search found, the ratio there in 1/1000, and A20
in 1/100 code; group 3, mid in 1/100 code; group 4, the peaks pos and |neg| in 1/1000. -/
def calMeasure (g o : Nat) (x : CalResource) (a b c : Int) (bad : Bool) (d : Dev) : Dev :=
  let n := 24 * o + x.idx
  match g with
  | 0 =>
    let t := Trim.act (8 * o + x.idx)
    if bad then calFail g o x .invalid d
    else if a.natAbs ≤ 2 then calConclude g o x d
    else calTrial g o x t (d.trim t - roundDiv a 2) (3 ≤ x.count) d
  | 1 =>
    let t := Trim.spd (8 * o + x.idx)
    if bad then calFail g o x .invalid d
    else if a.natAbs ≤ 4096 then calConclude g o x d
    else calTrial g o x t (d.trim t - roundDiv a 4096) (2 ≤ x.count) d
  | 2 =>
    let gain := d.trim (.gain n)
    let v := roundDiv ((1000 + 2 * gain) * 4026 - 1000 * c) (2 * c)
    if bad || c < 2000 || 8000 < c || b < 600 || 820 < b then calFail g o x .invalid d
    else if a < -16 || 15 < a || v < -16 || 15 < v then calFail g o x .range d
    else calConclude g o x ((d.setTrim (.ft n) a).setTrim (.gain n) v)
  | 3 =>
    let t := Trim.ofs n
    let gn := decibel (3 * (bitsOf (d.slice n).afe.toNat 0 6 : Int) - 20)
    let step := limitI (-4) 4 (-(roundDiv (a * 3937 * gn.2) (100000 * gn.1)))
    if bad then d
    else if a.natAbs ≤ 100 then calConclude g o x d
    else calTrial g o x t (d.trim t + step) (8 ≤ x.count) d
  | _ =>
    let t := Trim.bal (8 * o + x.idx)
    let v := d.trim t + limitI (-8) 8 (roundDiv (200 * (a - b)) (a + b))
    if bad || a < 50 || b < 50 then calFail g o x .invalid d
    else if v < -32 || 31 < v then calFail g o x .range d
    else calConclude g o x (d.setTrim t v)

/-- CAL_MEASUREMENT_DONE: the measurements of the running hardware step's resources (R344). -/
def calMeasurementDone (ms : List CalMeasure) (d : Dev) : Dev :=
  match d.cal.ahead with
  | [] => d
  | (g, o) :: _ =>
    if d.fg .CAL_STAT_STATE != 1 || d.mode == 7 then d
    else d.each ms fun d m =>
      match d.cal.resources.find? fun x => x.idx == m.1 && x.result == .none with
      | some x => calMeasure g o x m.2.1 m.2.2.1 m.2.2.2.1 m.2.2.2.2 d
      | none => d

/-- The result of a step whose resources have all concluded: PASS, or that of the lowest failing one (R344). -/
def stepResult (l : List CalResource) : CalResult :=
  match l.find? fun x => x.result != .pass with
  | some x => x.result
  | none => .pass

/-- CAL_STEP_DONE: every resource of the running step has concluded (R344). -/
def calStepDone (d : Dev) : Dev :=
  if d.fg .CAL_STAT_STATE != 0 && d.mode != 7 && d.cal.resources.all fun x => x.result != .none then
    calEndStep (stepResult d.cal.resources) d
  else d

/-- Every resource not yet concluded ends with a result, its start value restored. -/
def calEndAll (r : CalResult) (d : Dev) : Dev :=
  match d.cal.ahead with
  | [] => d
  | (g, o) :: _ => d.each (d.cal.resources.filter fun x => x.result == .none) fun d x => calFail g o x r d

/-- CAL_STEP_TIMEOUT (R343). -/
def calStepTimeout (d : Dev) : Dev :=
  if d.fg .CAL_STAT_STATE = 0 || d.mode == 7 then d else calEndAll .timeout d

/-- The running step aborted (R347); with `whole` the run ends too. -/
def calAbort (whole : Bool) (d : Dev) : Dev :=
  if d.calIdle || d.mode == 7 then d
  else
    let running := d.fg .CAL_STAT_STATE != 0
    let d := d.cond whole fun d => d.onCal fun c => { c with ahead := c.ahead.take 1 }
    let d := d.cond (whole && running) fun d =>
      d.fs .CAL_RUN_PAIRS ((d.cal.ahead.map fun p => 2 ^ pairBit p.2 p.1).sum)
    if running then
      let d := calEndAll .aborted d
      calEndStep (stepResult d.cal.resources) d
    else if whole then
      calNext (((d.fs .CAL_RUN_PAIRS 0).fs .CAL_STAT_DONE 1).onCal fun c => { c with ahead := [] })
    else d

/-- The OPU island of the running step goes off (R347). -/
def calIslandOff (opu : Nat) (d : Dev) : Dev :=
  d.cond (d.fg .CAL_STAT_STATE != 0 && d.fg .CAL_STAT_CUR_OPU == opu) (calAbort false)

/-- Whether a store register belongs to the step now running (R340). -/
def storeBusy (d : Dev) (r : Reg) (i : Nat) : Bool :=
  let g := d.fg .CAL_STAT_CUR_GROUP
  let o := d.fg .CAL_STAT_CUR_OPU
  d.fg .CAL_STAT_STATE == 1 &&
    ((r == .CAL_ACT_OFS && g == 0 && i == o) || (r == .CAL_SPD_OFS && g == 1 && i == o)
      || (r == .CAL_FTRIM && g == 2 && i / 24 == o) || (r == .CAL_RTRIM && (g == 2 || g == 3) && i / 24 == o)
      || (r == .CAL_SPD_BAL && g == 4 && i == o))

/-- The trims that a store register holds. -/
def storeTrims (r : Reg) (i j : Nat) : List Trim :=
  if r = .CAL_RTRIM then [.gain i, .ofs i]
  else if r = .CAL_FTRIM then [.ft i]
  else if r = .CAL_SPD_OFS then [.spd (8 * i + j)]
  else if r = .CAL_SPD_BAL then (List.range 3).map fun k => .bal (8 * i + k)
  else if r = .CAL_ACT_OFS then (List.range 4).map fun k => .act (8 * i + k)
  else []

/-- TRIM_STORE_WRITE: a firmware write to a store register (R339, R340); a value so written came from no passed step. -/
def trimStoreWrite (off : Nat) (v : DWord) (d : Dev) : Dev :=
  match regAt .cal off with
  | some (r, i, j) =>
    match storeTrims r i j with
    | [] => d
    | t :: ts =>
      if !d.opuPresent t.opu then d
      else if storeBusy d r i then d.fs .CAL_STAT_REFUSE 1
      else
        let d := d.each (t :: ts) fun d t => d.setTrim t (signed t.fld.1.width (bitsOf v.toNat t.fld.1.lo t.fld.1.width))
        d.onCal fun c => { c with trusted := c.trusted.filter fun k => !((t :: ts).map Trim.key).contains k }
  | none => d

/-- The temperature trigger of HK (R348): fused-on pairs that have drifted past their threshold, or that are DEFERRED or
failed and 10 s past their previous trigger. -/
def calTempTrigger (d : Dev) : Dev :=
  let hit := fun (p : Nat × Nat) =>
    let k := pairBit p.2 p.1
    let thr := 8 * d.pageVal 5 0 (8 + p.1) 1
    let last := sparseGet 0 d.cal.temps k
    let drift := (calTemp d p.1 p.2 + 1000 - last).natAbs
    let res := bitsOf (d.fg .CAL_RES_RESULT p.2) (3 * p.1) 3
    let again := 2 ≤ res
    let at_ := sparseGet 0 d.cal.trigAt k
    if again then at_ == 0 || at_ + 10 * second ≤ d.qtime + 1
    else thr != 0 && last != 0 && thr ≤ drift
  let l := (runOrder (2 ^ 28 - 1)).filter fun p => d.opuPresent p.2 && hit p
  calTrigger ((l.map fun p => 2 ^ pairBit p.2 p.1).sum) d

/-- CAL_FAIL_HANDLE: firmware handles the failed steps: ATTN 7 and an event with the OPU, the group, the result and
CAL_FAILMAP for each, and a hardware event at the third consecutive failure of a pair (R350). -/
def calFailHandle (d : Dev) : Dev :=
  if !d.is .CAL_STAT_FAIL then d
  else
    let d := (d.fs .CAL_STAT_FAIL 0).attn 7
    let d := d.each d.cal.failed fun d x =>
      let data := leBytes 1 x.group ++ leBytes 1 x.code ++ leBytes 3 x.map
      let d := d.event { code := 0x3001, src := x.opu, data := data }
      d.cond (x.nth == 3) fun d => d.event { code := 0x3002, src := x.opu, data := data }
    d.onCal fun c => { c with failed := [] }

/-- The temperature of a CAL record with RESULT PASS, as that of the pair's last PASS (R348, Table 10-4). -/
def calTempOf (group opu : Nat) (p : Bytes) (d : Dev) : Dev :=
  let t := signed 16 (leNat ((p.drop 5).take 2))
  d.onCal fun c => { c with temps := sparseSet 0 c.temps (pairBit opu group) (t + 1000).toNat }

/-- Whether pairs of an OPU still run, or wait with the sequencer enabled. -/
def Dev.calWaits (d : Dev) (set : Nat) : Bool :=
  d.fg .CAL_RUN_PAIRS &&& set != 0 || (d.is .CAL_CTL_EN && d.fg .CAL_PEND_PAIRS &&& set != 0)

/-- The store fields of a group set from the TRIMS of a record (R354). -/
def calLoad (group opu : Nat) (b : Bytes) (d : Dev) : Dev :=
  let n := leNat b
  let sl := List.range 24 |>.map (24 * opu + ·)
  let ts : List Trim := match group with
    | 0 => (List.range 4).map fun i => .act (8 * opu + i)
    | 1 => (List.range 8).map fun i => .spd (8 * opu + i)
    | 2 => (sl.map .gain) ++ sl.map .ft
    | 3 => sl.map .ofs
    | 4 => (List.range 3).map fun i => .bal (8 * opu + i)
    | _ => []
  let r := ts.foldl (fun (r : Dev × Nat) t =>
    (r.1.setTrim t (signed t.fld.1.width (n >>> r.2)), r.2 + t.fld.1.width)) (d, 0)
  r.1.onCal fun c => { c with trusted := ts.foldl (fun l t => if l.contains t.key then l else t.key :: l) c.trusted }

/-! The effects of the commands. -/

/-- CAL_TRIGGER (R346). -/
def execCalTrigger (set : Nat) (s : State) : Host.Outcome State Fault Refusal := s.onDev (calTrigger set)

/-- CAL_MEASUREMENT_DONE (R344). -/
def execCalMeasurementDone (ms : List (Nat × Int × Int × Int × Bool)) (s : State) :
    Host.Outcome State Fault Refusal :=
  s.onDev (calMeasurementDone ms)

/-- CAL_FAIL_HANDLE (R350). -/
def execCalFailHandle (s : State) : Host.Outcome State Fault Refusal := s.onDev calFailHandle

/-- TRIM_STORE_WRITE (R339). -/
def execTrimStoreWrite (off : Nat) (val : DWord) (s : State) : Host.Outcome State Fault Refusal :=
  s.onDev (trimStoreWrite off val)

end Sys2Proof.Machine
end

