-- ==== Sys2Proof/Machine/Slices.lean ====
section
/-!
DEFINITION. Read channel slices (03_read_channel_slices.md): presets, the servo field reader, the AGC, the band check, the gap
latch, targets and commits, enable and disable. The signal path is in Channel, leaf capture in Detector.
-/

namespace Sys2Proof.Machine

/-- The slice's step set, with FMAX when the loop tries to pass 1.0 (R82, R83). -/
def Dev.setStep (d : Dev) (rcs n : Nat) : Dev :=
  ((d.fs .RCS_NCO_STEP (limitStep n) rcs).onSlice rcs fun s => { s with frac := 0 }).cond (0x1000000 < n)
    fun d => d.fs .RCS_STAT_FMAX 1 rcs

/-- A frequency preset (R84): the step loaded, and acquisition gains until the next servo mark (R86). -/
def Dev.presetNow (d : Dev) (rcs n : Nat) : Dev := (d.setStep rcs n).onSlice rcs fun s => { s with acq := true }

/-- The step of a frequency preset (R84): 2 × N × (S ÷ 60) ÷ 800,000,000 in 1.24 format, with S in 1/16 rpm from the
SPN block. DESIGN CHOICE (notes/assumptions/119.md): it is rounded to the nearest step. -/
def presetStep (k speed16 : Nat) : Nat :=
  (roundDiv (2 * revBits k * speed16 * 2 ^ 24 : Nat) (16 * 60 * 800000000)).toNat

/-! The servo field reader (R93 to R95). -/

/-- The sum of the K outputs of servo bit `i` of a servo field, whose place is off by `o` channel bits, and whether one of them is
marked. -/
def servoBit (k : Nat) (ys : Array Sample) (o : Int) (i : Nat) : Int × Bool :=
  (List.range k).foldl (fun a j =>
    let n := ((k * i + j : Nat) : Int) + o
    let y := if n < 0 then { y := 0, marked := true } else ys.getD n.toNat { y := 0, marked := true }
    (a.1 + y.y, a.2 || y.marked)) (0, false)

/-- The sum of the magnitudes of the K outputs of servo bit `i`, and whether one of them is marked (R95). -/
def servoMagnitude (k : Nat) (ys : Array Sample) (o : Int) (i : Nat) : Nat × Bool :=
  (List.range k).foldl (fun a j =>
    let n := ((k * i + j : Nat) : Int) + o
    let y := if n < 0 then { y := 0, marked := true } else ys.getD n.toNat { y := 0, marked := true }
    (a.1 + y.y.natAbs, a.2 || y.marked)) (0, false)

/-- The 12 servo bits of the servo mark (R93). -/
def markBits : List Bool := [false, false, false, false, true, true, true, true, false, false, true, false]

/-- The positions, as offsets in channel bits from 4 servo bits before to 4 after the nominal one, at which all 12 servo-bit
signs match the servo mark (R93). DESIGN CHOICE (notes/assumptions/120.md): a servo-bit sum of 0 matches neither sign. -/
def markMatches (k : Nat) (neg : Bool) (ys : Array Sample) : List Int :=
  ((List.range (8 * k + 1)).map fun n : Nat => (n : Int) - 4 * k).filter fun o =>
    (markBits.zipIdx).all fun e =>
      let v := (servoBit k ys o (56 + e.2)).1 * (if neg then -1 else 1)
      if e.1 then 0 < v else v < 0

/-- The match nearest nominal, the earlier of two as near. -/
def nearestMark (l : List Int) : Option Int :=
  l.foldl (fun b o => match b with
    | none => some o
    | some c => if o.natAbs < c.natAbs then some o else b) none

/-- The outputs of a slice's latest servo field in order. -/
def Slice.servoField (s : Slice) : Array Sample := s.servo.reverse.toArray

/-- The search of a complete window, servo bits 52 to 72, of the servo field that passes: a match puts the field where it was
found and the data-stream counter to k × DF, with a slip beyond 2 bits; none counts a missing mark (R88, R93, R94, R96). -/
def markSearch (rcs : Nat) (d : Dev) : Dev :=
  let s := d.slice rcs
  let k := fmtClass (d.pickup (rcs / 24)).fmt
  if s.zone != .servo || s.searched || s.servo.length < 72 * k then d
  else match nearestMark (markMatches k (d.is .RCS_CTL_MARK_NEG rcs) s.servoField) with
  | none =>
    loseIfLost rcs (((d.fs .RCS_STAT_SERVO_ERR 1 rcs).bump .RCS_CNT_SERVO_ERR rcs).onSlice rcs
      fun s => { s with searched := true, missed := s.missed + 1 })
  | some o =>
    let slip := 2 < o.natAbs
    let here := d.capturing rcs
    let frame := (d.path rcs).frame
    let d := d.cond slip fun d => (d.fs .RCS_STAT_SLIP 1 rcs).bump .RCS_CNT_SLIP rcs
    (d.onSlice rcs fun s => { s with
      searched := true, found := some o, missed := 0, acq := false
      place := ((s.place : Int) - o).toNat, count := s.wedge * dataBits k
      begun := s.begun.map fun b => { b with tloss := b.tloss || (slip && here && decide (s.count < (b.pos + 1) * frame)) } }).fs
      .RCS_STAT_STATE sliceTrack rcs

/-- SERVO_MARK_SEARCH: the slice's input up to the end of the search window, and the search (R93). -/
def servoMarkSearch (rcs : Nat) (wave : List Int) (d : Dev) : Dev :=
  let d := sliceRun rcs wave d
  d.cond (d.sliceRuns rcs) (markSearch rcs)

/-- A dibit: its difference of servo-bit sums, first less second, and whether a sample of it is marked. -/
def servoDibit (k : Nat) (ys : Array Sample) (o : Int) (i : Nat) : Int × Bool :=
  let a := servoBit k ys o i
  let b := servoBit k ys o (i + 1)
  (a.1 - b.1, a.2 || b.2)

/-- The dibits of a numeric field of `n` dibits that begins at a servo bit. -/
def servoDibits (k : Nat) (ys : Array Sample) (o : Int) (first n : Nat) : List (Int × Bool) :=
  (List.range n).map fun j => servoDibit k ys o (first + 2 * j)

/-- The bits that dibits spell, the first most significant (R94), with MARK_NEG applied. -/
def dibitBits (neg : Bool) (l : List (Int × Bool)) : List Bool := l.map fun e => if neg then e.1 < 0 else 0 < e.1

/-- The sum of the magnitudes of the servo-bit sums of the 56 preamble bits. DESIGN CHOICE (notes/assumptions/121.md): the mean
preamble amplitude of R94 is this sum divided by 56. -/
def preambleSum (k : Nat) (ys : Array Sample) (o : Int) : Nat :=
  ((List.range 56).map fun i => (servoBit k ys o i).1.natAbs).sum

/-- How many dibits are marginal: a difference below one quarter of the mean preamble amplitude (R94). -/
def marginalCount (amp : Nat) (l : List (Int × Bool)) : Nat := (l.filter fun e => 4 * 56 * e.1.natAbs < amp).length

/-- Whether a field contains a marked sample. -/
def anyMarked (l : List (Int × Bool)) : Bool := l.any fun e => e.2

/-- A burst amplitude: the sum of magnitudes divided by K × 8, limited to 12 bits (R95). DESIGN CHOICE
(notes/assumptions/122.md): the quotient is rounded down. -/
def burstAmp (k sum : Nat) : Nat := limitN 0 4095 (sum / (k * 8))

/-- The sum of |y| over the middle 32 of the 36 servo bits of burst `b`, 0 to 3, and whether one of them is marked (R95). -/
def burstSum (k : Nat) (ys : Array Sample) (o : Int) (b : Nat) : Nat × Bool :=
  (List.range 32).foldl (fun a i =>
    let m := servoMagnitude k ys o (138 + 36 * b + 2 + i)
    (a.1 + m.1, a.2 || m.2)) (0, false)

/-- The record of a complete servo field posted to the slice's registers: its numeric fields decoded and its bursts; after a
missing servo mark nothing in it is valid (R94, R95). -/
def recordPost (rcs : Nat) (d : Dev) : Dev :=
  let s := d.slice rcs
  let k := fmtClass (d.pickup (rcs / 24)).fmt
  if !s.searched || s.servo.length < 282 * k then d
  else
    let neg := d.is .RCS_CTL_MARK_NEG rcs
    let ys := s.servoField
    let o := s.found.getD 0
    let amp := preambleSum k ys o
    let wd := servoDibits k ys o 68 10
    let sd := servoDibits k ys o 88 5
    let td := servoDibits k ys o 98 20
    let wb := dibitBits neg wd
    let sb := dibitBits neg sd
    let tg := msbNat (dibitBits neg td)
    let wvalid := s.found.isSome && (wb.filter id).length % 2 == 0 && marginalCount amp wd == 0 && !anyMarked wd
    let slvalid := s.found.isSome && (sb.filter id).length % 2 == 1 && marginalCount amp sd == 0 && !anyMarked sd
    let tm := marginalCount amp td
    let tvalid := s.found.isSome && tm ≤ 1 && !anyMarked td
    let sl := msbNat (sb.take 4)
    let burst := fun b => burstSum k ys o b
    let d := d.fs .RCS_SERVO_T_TRACK (ungray 20 tg) rcs
    let d := d.fs .RCS_SERVO_T_TVALID (bit tvalid) rcs
    let d := d.fs .RCS_SERVO_T_AMBIG (bit (tvalid && tm == 1)) rcs
    let d := d.fs .RCS_SERVO_W_WEDGE (msbNat (wb.take 9)) rcs
    let d := d.fs .RCS_SERVO_W_WVALID (bit wvalid) rcs
    let d := d.fs .RCS_SERVO_W_LAYER (sl % 8) rcs
    let d := d.fs .RCS_SERVO_W_SIDE (sl / 8) rcs
    let d := d.fs .RCS_SERVO_W_SLVALID (bit slvalid) rcs
    let d := d.fs .RCS_BURST_AB_A (burstAmp k (burst 0).1) rcs
    let d := d.fs .RCS_BURST_AB_B (burstAmp k (burst 1).1) rcs
    let d := d.fs .RCS_BURST_CD_C (burstAmp k (burst 2).1) rcs
    let d := d.fs .RCS_BURST_CD_D (burstAmp k (burst 3).1) rcs
    let marked := anyMarked wd || anyMarked sd || anyMarked td || (List.range 4).any fun b => (burst b).2
    let whose : WedgeRec := { track := ungray 20 tg % 2 ^ 18, side := sl / 8, layer := sl % 8, tvalid := tvalid
                              ambig := tvalid && tm == 1, slvalid := slvalid }
    let d := d.onSlice rcs fun s => { s with recMarked := marked, ids := sparseSet {} s.ids s.wedge whose }
    d.cond (s.found.isSome && !(wvalid && slvalid)) fun d => (d.fs .RCS_STAT_SERVO_ERR 1 rcs).bump .RCS_CNT_SERVO_ERR rcs

/-- SERVO_RECORD_POST: the slice's input up to the end of the servo field, and the record (R95). -/
def servoRecordPost (rcs : Nat) (wave : List Int) (d : Dev) : Dev :=
  let d := sliceRun rcs wave d
  d.cond (d.sliceRuns rcs) (recordPost rcs)

/-- Whether 20 × log10(a ÷ b) ÷ 0.3 × 2^-shift is at least j - 1/2, told exactly: a^400 against b^400 times ten to
the 3 × (2j - 1) × 2^shift. The ratio of two 8-bit values stays below ten to the 963/400. -/
def agcReaches (a b shift j : Nat) : Bool :=
  let e := 3 * (2 * j - 1) * 2 ^ shift
  e ≤ 963 && b ^ 400 * 10 ^ e ≤ a ^ 400

/-- The AGC step of R72, rounded to the nearest integer and limited to 4 codes either way. -/
def agcStep (target measured shift : Nat) : Int :=
  let up := ([4, 3, 2, 1].find? (agcReaches target measured shift)).getD 0
  let down := ([4, 3, 2, 1].find? (agcReaches measured target shift)).getD 0
  (up : Int) - down

/-- The AGC's change at the end of a preamble (R72): GAIN changes by the step; a preamble with a marked sample, or AGC_EN = 0,
leaves it. A measured 0 with a target of 0 has no step: the change is a free value within the limit. -/
def agcApply (rcs : Nat) (d : Dev) : Dev :=
  let s := d.slice rcs
  if !s.agcDue || ((d.path rcs).preamble s).1 then d
  else
    let d := d.onSlice rcs fun s => { s with agcDue := false }
    match if s.agcMarked || !d.is .RCS_CTL_AGC_EN rcs then none else s.agc with
    | none => d
    | some (lo, hi) =>
      let t := d.fg .RCS_AGC_TARGET rcs
      let m := (hi - lo).toNat
      let step : Int := if t = 0 ∧ m = 0 then (d.freeNat 9 : Int) - 4 else agcStep t m (d.fg .RCS_AGC_SHIFT rcs)
      let d := if t = 0 ∧ m = 0 then d.drew else d
      let g := (limitI 0 63 ((d.fg .RCS_AFE_GAIN rcs : Int) + step)).toNat
      (d.fs .RCS_AFE_GAIN g rcs).onSlice rcs fun s => { s with afe := BitVec.ofNat 32 (putBits s.afe.toNat 0 6 g) }

/-- AGC_UPDATE: the slice's input up to the end of a preamble, and the change of GAIN (R72). -/
def agcUpdate (rcs : Nat) (wave : List Int) (d : Dev) : Dev :=
  let d := sliceRun rcs wave d
  d.cond (d.sliceRuns rcs) (agcApply rcs)

/-- OVER_RANGE_EVENT: a stretch of input with over-range samples (R77, R78, R80). -/
def overRangeEvent (rcs : Nat) (wave : List Int) (d : Dev) : Dev := sliceRun rcs wave d

/-- TIMING_LOST: a stretch of input at whose end the slice's timing is lost (R88). -/
def timingLost (rcs : Nat) (wave : List Int) (d : Dev) : Dev := sliceRun rcs wave d

/-- DESKEW_DROP: a stretch of input for which the slice's deskew buffer has no room (R99). -/
def deskewDrop (rcs : Nat) (wave : List Int) (d : Dev) : Dev := sliceRun rcs wave d

/-- One slice at the start of a jump gap (R84, R88, R96, R99, R101): what it has written is released, the data-stream counter is
reset, RCS_CAP latched and a preset loaded. DESIGN CHOICE (notes/assumptions/123.md): an enabled slice that is OFF or IDLE goes to
ACQUIRE here, as one that is LOST or meets a new class does. -/
def gapLatchSlice (newClass : Bool) (k : Nat) (d : Dev) (rcs : Nat) : Dev :=
  if !d.rcsPresent rcs then d
  else
    let pk := d.pickup (rcs / 24)
    let st := d.fg .RCS_STAT_STATE rcs
    let auto := (newClass && d.is .RCS_CTL_PRESET_AUTO rcs) || st == sliceLost
    let d := match (d.slice rcs).preset with
      | some n => d.presetNow rcs n
      | none => d.cond auto fun d => d.presetNow rcs (presetStep k (d.fg .SPN_SPEED))
    let d := d.cond (d.is .RCS_CTL_EN rcs && (st != sliceTrack || newClass)) fun d => d.fs .RCS_STAT_STATE sliceAcquire rcs
    d.onSlice rcs fun s =>
      let s := s.release pk.detCtl (frameBits (fmtLevel pk.fmt)) s.count
      { s with
        cap := d.fg .RCS_CAP_SLOTS rcs, count := 0, dropped := false, preset := none, zone := .gap, place := 0, at_ := 0
        oldHits := s.hits, hits := [] }

/-- RCS_GAP_LATCH: the OPU's slices latch RCS_FMT and RCS_CAP, SDE_DET settings come into force, and presets apply
(R84, R96, R101, R154). -/
def gapLatch (opu : Nat) (d : Dev) : Dev :=
  if !d.opuReady opu then d
  else
    let old := d.pickup opu
    let fmt := d.rd .RCS_FMT opu
    let d := d.each (slicesOf opu) (gapLatchSlice (fmtClass fmt != fmtClass old.fmt) (fmtClass fmt))
    let d := d.onPickup opu fun p =>
      { fmt := fmt, detCtl := d.rd .SDE_DET_CTL opu, detLlr := d.rd .SDE_DET_LLR opu, rev := (p.rev + 1) % 2 ^ 32 }
    { d with eng := { d.eng with gapT := sparseSet 0 d.eng.gapT opu (d.fg .CLE_TCNT) } }

/-- A write to RCS_NCO_PRESET: the step at once with NOW = 1, at the next jump gap with NOW = 0 (R84). -/
def ncoPreset (rcs : Nat) (v : DWord) (d : Dev) : Dev :=
  let n := limitStep (bitsOf v.toNat 0 25)
  if v.getLsbD 31 then d.presetNow rcs n else d.onSlice rcs fun s => { s with preset := some n }

/-- TRIM_APPLY: the written RCS_AFE, RCS_TRIM and CAL_FTRIM act from the first channel bit of the servo field (R75,
R338). -/
def trimApply (rcs : Nat) (d : Dev) : Dev :=
  if !d.rcsPresent rcs then d
  else
    let d := d.onSlice rcs fun s => { s with afe := d.rd .RCS_AFE rcs, trim := d.rd .RCS_TRIM rcs }
    { d with cal := { d.cal with ftrim := sparseSet 0 d.cal.ftrim rcs (signed 5 (d.fg .CAL_FTRIM_FT rcs)) } }

/-- The conditions on target taps (R90). -/
def tapsOk (a b c : Nat) : Bool := a ≤ b && b ≤ c && 1 ≤ c && 2 * a + 2 * b + c ≤ 15

/-- Both targets of an RCS_TGT value meet the conditions. -/
def tgtOk (v : DWord) : Bool :=
  tapsOk (bitsOf v.toNat 0 2) (bitsOf v.toNat 2 4) (bitsOf v.toNat 6 4)
    && tapsOk (bitsOf v.toNat 16 2) (bitsOf v.toNat 18 4) (bitsOf v.toNat 22 4)

/-- A write to RCS_TGT: ignored in whole with TGT_ERR when a target breaks the conditions (R90). -/
def tgtWrite (rcs : Nat) (v : DWord) (d : Dev) : Dev :=
  if tgtOk v then d.wr .RCS_TGT (v &&& BitVec.ofNat 32 Reg.RCS_TGT.rw) rcs else d.fs .RCS_STAT_TGT_ERR 1 rcs

/-- What RCS_EQA_L (set 0) or RCS_EQB_L shows of a live coefficient: its top 10 bits (R92). -/
def Slice.liveShown (s : Slice) (set k : Nat) : DWord := BitVec.ofNat 32 (unsigned 10 (s.coefAt set k / 2 ^ 11))

/-- The shadow sets copied into the live sets, and PENDING cleared (R91). -/
def eqCopy (rcs : Nat) (d : Dev) : Dev :=
  let d := d.each (List.range 16) fun d k =>
    let a := d.rd .RCS_EQA_S rcs k
    let b := d.rd .RCS_EQB_S rcs k
    d.onSlice rcs fun s => (s.setCoef 0 k (signed 10 a.toNat * 2 ^ 11)).setCoef 1 k (signed 10 b.toNat * 2 ^ 11)
  d.fs .RCS_EQ_CTL_PENDING 0 rcs

/-- TGT_SEL taken into use (R91). -/
def takeTarget (rcs : Nat) (d : Dev) : Dev := d.onSlice rcs fun s => { s with tgt := d.fg .RCS_CTL_TGT_SEL rcs }

/-- A write of 1 to RCS_EQ_CTL.COMMIT: the copy at once while the slice is not capturing, and otherwise PENDING
(R91). -/
def eqCommit (rcs : Nat) (d : Dev) : Dev :=
  if d.capturing rcs then d.fs .RCS_EQ_CTL_PENDING 1 rcs else eqCopy rcs d

/-- EQ_COMMIT_APPLY: at the first sample of the next captured leaf preamble a pending commit and a changed target take
effect (R91). -/
def eqCommitApply (rcs : Nat) (d : Dev) : Dev :=
  if !d.rcsPresent rcs then d
  else takeTarget rcs (d.cond (d.is .RCS_EQ_CTL_PENDING rcs) (eqCopy rcs))

/-- EN has been cleared: a slice that captures completes its leaf first and then goes to IDLE (R108). -/
def sliceDisabled (rcs : Nat) (d : Dev) : Dev :=
  let s := d.slice rcs
  if !s.begun.isEmpty || s.capt.isSome then d.onSlice rcs fun s => { s with stopping := true }
  else d.cond (d.fg .RCS_STAT_STATE rcs != 0) fun d => d.fs .RCS_STAT_STATE sliceIdle rcs

/-- Firmware enables the slices of an OPU: they read servo fields from then on, which the tracking loop needs (R108). DESIGN CHOICE
(notes/assumptions/138.md): it does so as it begins a focus sweep. -/
def slicesOn (opu : Nat) (d : Dev) : Dev := d.each (slicesOf opu) fun d n =>
  d.cond (d.rcsPresent n) fun d => (d.fs .RCS_CTL_EN 1 n).onSlice n fun s => { s with stopping := false }

/-- Firmware disables the slices of an OPU (R108). -/
def slicesOff (opu : Nat) (d : Dev) : Dev := d.each (slicesOf opu) fun d n =>
  d.cond (d.is .RCS_CTL_EN n) fun d => sliceDisabled n (d.fs .RCS_CTL_EN 0 n)

/-- What the band check finds of one spot (R97). -/
inductive SpotCheck where
  | unchecked | match_ | mismatch | unknown
deriving DecidableEq, Repr

/-- The band check of spot `s` of an OPU (R97). -/
def spotCheck (d : Dev) (opu s : Nat) : SpotCheck :=
  let n := 24 * opu + s
  if !(d.sliceOn n && d.fg .RCS_STAT_STATE n == sliceTrack) then .unchecked
  else
    let tv := d.is .RCS_SERVO_T_TVALID n
    let slv := d.is .RCS_SERVO_W_SLVALID n
    let t : Int := d.fg .RCS_SERVO_T_TRACK n
    let want : Int := d.fg .RCS_BAND_BASE_TRACK opu + s
    let badTrack := tv && (if d.is .RCS_SERVO_T_AMBIG n then t < want - 1 || want + 1 < t else t != want)
    let badSide := slv && (d.fg .RCS_SERVO_W_SIDE n != d.fg .RCS_BAND_BASE_SIDE opu
      || d.fg .RCS_SERVO_W_LAYER n != d.fg .RCS_BAND_BASE_LAYER opu)
    if badTrack || badSide then .mismatch else if !tv && !slv then .unknown else .match_

/-- BAND_CHECK: the mismatch bitmap, the unknown count and OK of a wedge (R97). -/
def bandCheck (opu wedge : Nat) (d : Dev) : Dev :=
  if !d.opuReady opu then d
  else
    let r := (List.range 24).map (spotCheck d opu)
    let mism := (r.zipIdx).foldl (fun a e => if e.1 = .mismatch then a + 2 ^ e.2 else a) 0
    let unknown := (r.filter (· = .unknown)).length
    let known := (r.filter fun c => c = .match_ ∨ c = .mismatch).length
    let d := d.fs .RCS_BAND_RES_MISMATCH mism opu
    let d := d.fs .RCS_BAND_RES_UNKNOWN unknown opu
    let d := d.fs .RCS_BAND_RES_OK (bit (mism == 0 && 12 ≤ known)) opu
    let d := d.fs .RCS_BAND_RES_WEDGE_LO wedge opu
    let port := wedge % 512 + (d.fg .CLE_TCNT % 65536) <<< 16
    { d with eng := { d.eng with wedge := sparseSet 0 d.eng.wedge opu port } }

/-! The effects of the commands. -/

/-- SERVO_MARK_SEARCH (R93). -/
def execServoMarkSearch (rcs : Fin 96) (wave : List Int) (s : State) : Host.Outcome State Fault Refusal :=
  s.onDev (servoMarkSearch rcs wave)

/-- SERVO_RECORD_POST (R95). -/
def execServoRecordPost (rcs : Fin 96) (wave : List Int) (s : State) : Host.Outcome State Fault Refusal :=
  s.onDev (servoRecordPost rcs wave)

/-- AGC_UPDATE (R72). -/
def execAgcUpdate (rcs : Fin 96) (wave : List Int) (s : State) : Host.Outcome State Fault Refusal :=
  s.onDev (agcUpdate rcs wave)

/-- OVER_RANGE_EVENT (R78). -/
def execOverRangeEvent (rcs : Fin 96) (wave : List Int) (s : State) : Host.Outcome State Fault Refusal :=
  s.onDev (overRangeEvent rcs wave)

/-- TIMING_LOST (R88). -/
def execTimingLost (rcs : Fin 96) (wave : List Int) (s : State) : Host.Outcome State Fault Refusal :=
  s.onDev (timingLost rcs wave)

/-- TRIM_APPLY (R75). -/
def execTrimApply (rcs : Fin 96) (s : State) : Host.Outcome State Fault Refusal := s.onDev (trimApply rcs)

/-- EQ_COMMIT_APPLY (R91). -/
def execEqCommitApply (rcs : Fin 96) (s : State) : Host.Outcome State Fault Refusal := s.onDev (eqCommitApply rcs)

/-- BAND_CHECK (R97). -/
def execBandCheck (opu : Fin 4) (wedge : Fin 432) (s : State) : Host.Outcome State Fault Refusal :=
  s.onDev (bandCheck opu wedge)

/-- DESKEW_DROP (R99). -/
def execDeskewDrop (rcs : Fin 96) (wave : List Int) (s : State) : Host.Outcome State Fault Refusal :=
  s.onDev (deskewDrop rcs wave)

end Sys2Proof.Machine
end

