-- ==== Sys2Proof/Machine/Islands.lean ====
section
/-!
DEFINITION. OPU islands as they power up and down, accesses to an island that is off, lanes that stop at once, and entry
to FROZEN (01_architecture.md R18, R26, R27; 19_modes_and_power.md R586).
-/

namespace Sys2Proof.Machine

/-- The WSG of an OPU. -/
def Dev.wsg (d : Dev) (opu : Nat) : Wsg := sparseGet {} d.wsgs opu

/-- The unit with `f` applied to an OPU's WSG. -/
def Dev.onWsg (d : Dev) (opu : Nat) (f : Wsg → Wsg) : Dev :=
  { d with wsgs := sparseSet {} d.wsgs opu (f (d.wsg opu)) }

/-- The operating mode set (Table 19-1). -/
def Dev.setMode (d : Dev) (m : Nat) : Dev := d.fs .PMU_STAT_MODE m

/-- IDLE: E = 16, READ (R165). -/
def symIdle : Byte := 0x80#8

/-- A lane of an OPU. -/
def Dev.lane (d : Dev) (opu w : Nat) : Lane := (d.wsg opu).lanes.getD w {}

/-- A lane changed. -/
def onLane (opu w : Nat) (f : Lane → Lane) (d : Dev) : Dev :=
  d.onWsg opu fun g => { g with lanes := setAt g.lanes w (f (g.lanes.getD w {})) }

/-- The lanes' gate states in WSG_OSTAT. -/
def laneOpenSet (opu w : Nat) (on : Bool) (d : Dev) : Dev :=
  let m := putBits (d.fg .WSG_OSTAT_LANE_OPEN opu) w 1 (bit on)
  (d.fs .WSG_OSTAT_LANE_OPEN m opu).fs .WSG_OSTAT_GATE (bit (m != 0)) opu

/-! The write spot (R161). -/

/-- The channel bit after the index at which a slice stands in the revolution (R36, R37). -/
def Slice.turnBit (s : Slice) (k : Nat) : Nat :=
  match s.zone with
  | .gap => s.place
  | .servo => gapBits k + s.wedge * (servoBits k + dataBits k) + s.place
  | .field => dataFieldStart k s.wedge + s.place

/-- The channel bit after the index on which a data-stream position falls (R37). -/
def streamBit (k x : Nat) : Nat := dataFieldStart k (x / dataBits k) + x % dataBits k

/-- The position of a lane's write spot in 1/32 channel bits after the index: its slice's, the latched WSG_LEAD, and DRV_LAT at the
slice's step, which runs at Δ × 400 million channel bits a second (R161). -/
def Dev.writeSpot (d : Dev) (opu w : Nat) : Nat :=
  let n := 24 * opu + w
  32 * (d.slice n).turnBit (fmtClass (d.pickup opu).fmt) + (d.wsg opu).lead.getD w 0
    + openDiv (128 * d.fg .WSG_OCTL_DRV_LAT opu * d.fg .RCS_NCO_STEP n) (10 * 2 ^ 24)

/-- The symbols of a lane's frame that are sent before READ when the lane stops with its write spot at a place: those up to the
channel bit in which it stands (R163). -/
def Lane.sent (l : Lane) (spot : Nat) : Bytes := l.symbols.take (spot / 32 + 1 - l.at_)

/-! Lanes that stop (R163, R190, R191). -/

/-- The first leaf position that a lane has not recorded. -/
def Lane.reached (l : Lane) : Nat :=
  match l.frame, l.last with
  | some p, _ => p
  | none, some p => p + 1
  | none, none => l.start

/-- The sheet that a lane records at a leaf position. -/
def Dev.laneSheet (d : Dev) (opu w p : Nat) : Nat :=
  let l := d.lane opu w
  let fmt := (d.pickup opu).fmt
  mkPsa l.side l.layer l.track (p % slotsPerTrack (fmtClass fmt) (fmtStrength fmt)) 0

/-- A lane without a frame in progress closes for the rest of the revolution. -/
def laneClose (opu w : Nat) (d : Dev) : Dev :=
  laneOpenSet opu w false (onLane opu w
    (fun l => { l with frame := none, closed := true, stop := if l.closed || l.paused then l.stop else l.reached }) d)

/-- A frame at a leaf position abandoned after the symbols `sent`: READ from the next channel bit, counted, INTERRUPT set, its sheet
interrupted; `gate` where a gate condition closed the lane while it recorded (R163, R187, R197). -/
def frameAbandon (opu w p : Nat) (gate : Bool) (sent : Bytes) (d : Dev) : Dev :=
  let d := (d.bump .WSG_CNT_INT opu).fs .WSG_OSTAT_INTERRUPT 1 opu
  let d := d.cond gate fun d => d.bump .WSG_CNT_GATE opu
  let psa := d.laneSheet opu w p
  let mark := fun (v : Version) => if v.psa == some psa && v.stage = .latched then { v with cut := true } else v
  let d := d.onFw fun f => { f with versions := f.versions.map mark }
  laneClose opu w (onLane opu w (fun l => { l with frame := some p, symbols := sent ++ [symIdle] }) d)

/-- A lane stops at once: a frame in progress is abandoned where its write spot stands (R163, R191). -/
def laneStop (gate : Bool) (opu w : Nat) (d : Dev) : Dev :=
  if (d.wsg opu).lanes.length ≤ w then d
  else match (d.lane opu w).frame with
    | some p => frameAbandon opu w p gate ((d.lane opu w).sent (d.writeSpot opu w)) d
    | none => laneClose opu w d

/-- Every lane of an OPU stops at once (R191): `gate` where a gate condition of R162 has failed. -/
def lanesStop (gate : Bool) (opu : Nat) (d : Dev) : Dev := d.each (List.range 12) fun d w => laneStop gate opu w d

/-- OPU_ISLAND_POWER_UP: HK switches an OPU island's supply on (R26, Table 19-3); never in DORMANT, FROZEN or a frost
hold. -/
def opuPowerUp (opu : Nat) (d : Dev) : Dev :=
  if !d.opuPresent opu || d.stage opu != .off || d.frost || d.mode == 7 || d.mode == 1 then d
  else
    let d := { d with opuStage := sparseSet .off d.opuStage opu .powering }
    (d.fs .PMU_STAT_OPU_ON (d.fg .PMU_STAT_OPU_ON ||| 2 ^ opu)).fs .WSG_OCTL_GATE_EN 0 opu

/-- An OPU island becomes ready: trims restored, analog settled, the sled out of its hold (R26, R321). The accesses that
stalled are made in Registers. -/
def opuReadyNow (opu : Nat) (d : Dev) : Dev :=
  if d.stage opu != .powering then d
  else
    let d := trimRestore opu { d with opuStage := sparseSet .off d.opuStage opu .ready }
    let d := sldRelease opu d
    d.onWsg opu fun g => { g with trained := false, enableAsked := false, enabled := false }

/-- The registers of an OPU's slices and its band window go back to their reset values with the island's supply. -/
def sliceRegsReset (opu : Nat) (d : Dev) : Dev :=
  d.each regsOfRcs fun d r =>
    if r.n1 = 96 then d.each (slicesOf opu) fun d n => d.each (List.range r.n2) fun d j => d.wr r (r.resetAt n j) n j
    else d.wr r (r.resetAt opu 0) opu

/-- An OPU island goes off: its loops stop, its sled holds, its lanes and slices stop and lose their state, a leaf in
deposit is discarded, and a calibration step on it is aborted (R27, R108, R273, R321, R347, Table 20-3). -/
def opuOff (opu : Nat) (frost : Bool) (d : Dev) : Dev :=
  if !d.opuPresent opu || d.stage opu == .off then d
  else
    let d := calIslandOff opu (servoOpen opu (lanesStop true opu d))
    let d := sldHold opu frost (d.sldPos opu) d
    let d := d.each (slicesOf opu) fun d n => { d with slices := sparseSet {} d.slices n {} }
    let d := sliceRegsReset opu { d with pickups := sparseSet {} d.pickups opu {} }
    let d := d.onWsg opu fun g => { responses := g.responses, seq := g.seq }
    let d := (d.fs .WSG_OCTL_GATE_EN 0 opu).fs .WSG_OSTAT_STOP_SEEN 1 opu
    let d := { d with
      opuStage := sparseSet .off d.opuStage opu .off
      stalled := d.stalled.filter fun x => x.opu != opu }
    d.fs .PMU_STAT_OPU_ON (d.fg .PMU_STAT_OPU_ON &&& (15 - 2 ^ opu))

/-- OPU_ISLAND_POWER_DOWN: HK powers an OPU island down only when every slice of it is OFF or IDLE (R27, R108). -/
def opuPowerDown (opu : Nat) (d : Dev) : Dev :=
  if (slicesOf opu).all fun n => d.fg .RCS_STAT_STATE n ≤ sliceIdle then opuOff opu false d else d

/-- A transaction to an OPU island that is off: it is dropped, an event records requester and island, a host command that caused
it fails with CLASS 2, and HK begins powering the island (R27). The error response is the access's own. -/
def islandOffAccess (opu req : Nat) (cmd : Option Nat) (d : Dev) : Dev :=
  if !d.opuPresent opu || d.stage opu != .off then d
  else
    let d := d.event { code := 0x2008, src := opu, who := req }
    let d := match cmd with
      | some c => d.endCmd c 2 2
      | none => d
    opuPowerUp opu d

/-- The mechanism stops on entry to FROZEN: STOP to the spindle, every sled HELD, the OPU islands off, the clamp as it is
(R586). -/
def frozenStop (d : Dev) : Dev :=
  let d := spnStop d
  let d := d.each d.opus fun d o => sldHold o false (d.sldPos o) d
  d.each d.opus fun d o =>
    opuOff o false (d.each (slicesOf o) fun d n => d.fs .RCS_STAT_STATE (if d.fg .RCS_STAT_STATE n = 0 then 0 else sliceIdle) n)

/-- FROZEN_ENTRY with the DETAIL of its cause (R18, R586, R510): LD_STOP_N asserted on every OPU, which mode FROZEN gives,
the lanes stopped, the mechanism stopped, every command in progress ended with CLASS 10, and the event logged. -/
def frozenEntry (detail : Nat) (d : Dev) : Dev :=
  if d.mode == 7 then d
  else
    let d := (d.setMode 7).onFw fun w => { w with frozen := detail }
    let d := frozenStop (d.each d.opus fun d o => lanesStop true o d)
    let d := d.each d.running fun d c => d.endCmd c.id 10 detail
    d.event { code := if detail = 1 then 0x2009 else 0x200A, data := leBytes 1 detail }

/-! The effects of the commands. -/

/-- OPU_ISLAND_POWER_UP (R26). -/
def execOpuIslandPowerUp (opu : Fin 4) (s : State) : Host.Outcome State Fault Refusal := s.onDev (opuPowerUp opu)

/-- OPU_ISLAND_POWER_DOWN (R27). -/
def execOpuIslandPowerDown (opu : Fin 4) (s : State) : Host.Outcome State Fault Refusal := s.onDev (opuPowerDown opu)

end Sys2Proof.Machine
end

