-- ==== Sys2Proof/Machine/Dram.lean ====
section
/-!
DEFINITION. The buffer DRAM controller (11_buffer_dram.md): the location map, the inline code, reads and writes with
their checks, the queues and their schedule, refresh, row hammer, scrub, the test port, self-refresh, training and the
freeze.
-/

namespace Sys2Proof.Machine

/-- The unit with `f` applied to the DRC. -/
def Dev.onDrc (d : Dev) (f : Drc → Drc) : Dev := { d with drc := f d.drc }

/-- DRC_STAT.STATE. -/
def Dev.drcState (d : Dev) : Nat := d.fg .DRC_STAT_STATE
/-- READY. -/
def drcReady : Nat := 2
/-- FROZEN. -/
def drcFrozen : Nat := 4

/-- The number of ranks (Table 11-3). -/
def Dev.ranks (d : Dev) : Nat := d.fg .DRC_CFG_RANKS + 1

/-- The visible capacity in bytes (R357, R359): 7/8 of what is fitted. -/
def Dev.visible (d : Dev) : Nat := d.visibleMiB * 2 ^ 20

/-- The visible capacity in MiB of a density code and a number of ranks (Table 11-1). -/
def visibleOf (dens ranks : Nat) : Nat := 1792 * 2 ^ (limitN 0 2 dens) * ranks

/-- Where a line of the buffer lies (R359). -/
structure Location where
  ch : Nat
  rank : Nat
  bank : Nat
  row : Nat
  line : Nat
deriving DecidableEq, Repr

/-- The location of a buffer address (R359). -/
def locate (ranks a : Nat) : Location :=
  let l := a / 64
  let g := l / 56
  let h := g / 2
  let rest := h / 8
  let row := rest / ranks
  { ch := g % 2, rank := rest % ranks, bank := (h % 8) ^^^ (row % 8), row := row, line := l % 56 }

/-- The key of a location's bank. -/
def Location.bankKey (l : Location) : Nat := 16 * l.ch + 8 * l.rank + l.bank

/-! The inline code (R361). -/

/-- The 8-bit columns of the 64 data bits of a half: the values with three bits set, then the first eight with five. -/
def eccColumns : List Nat :=
  ((List.range 256).filter fun v => popCount 8 v = 3) ++ ((List.range 256).filter fun v => popCount 8 v = 5).take 8

/-- The check byte of a half. -/
def eccHalf (x : Nat) : Nat :=
  (eccColumns.zip (List.range 64)).foldl (fun c p => if x.testBit p.2 then c ^^^ p.1 else c) 0

/-- The 16 check bits of a word, half 0 in the lower byte (R362). -/
def eccWord (x : Nat) : Nat := eccHalf (x % 2 ^ 64) + 256 * eccHalf (x / 2 ^ 64 % 2 ^ 64)

/-- What a half's syndrome says: no error, data bit j, check bit k as 64 + k, or uncorrectable (R361). -/
inductive HalfResult where
  | clean | single (b : Nat) | double_
deriving DecidableEq, Repr

/-- A syndrome judged (R361). -/
def judgeHalf (syn : Nat) : HalfResult :=
  if syn = 0 then .clean
  else match findIdxFrom (· == syn) 0 eccColumns with
    | some j => .single j
    | none => match (List.range 8).find? fun k => syn == 2 ^ k with
      | some k => .single (64 + k)
      | none => .double_

/-- A word as stored: its data and its check bits. -/
def Dev.storedWord (d : Dev) (w : Nat) : Nat × Nat :=
  let x := leNat (memRead d.dram (16 * w) 16)
  (x, eccWord x ^^^ (sparseGet 0#16 d.dramChk w).toNat)

/-- A word stored with given check bits. -/
def Dev.storeWord (d : Dev) (w x chk : Nat) : Dev :=
  { d with
    dram := memWrite d.dram (16 * w) (leBytes 16 x)
    dramChk := sparseSet 0#16 d.dramChk w (BitVec.ofNat 16 (eccWord x ^^^ chk)) }

/-- A word stored with its right check bits. -/
def Dev.storeGood (d : Dev) (w x : Nat) : Dev := d.storeWord w x (eccWord x)

/-- The syndromes of both halves of a word as read. -/
def syndromes (x chk : Nat) : Nat × Nat :=
  let s := eccWord x ^^^ chk
  (s % 256, s / 256 % 256)

/-- The freeze (R382, R383): the failing word captured, every queued write discarded, every request given an error
response, and the unit FROZEN. -/
def drcFreeze (src req w x chk errors : Nat) (d : Dev) : Dev :=
  let l := locate d.ranks (16 * w)
  let s := syndromes x chk
  let d := (d.fs .DRC_FZ_ADDR w).fs .DRC_FZ_LOC_CH l.ch
  let d := ((d.fs .DRC_FZ_LOC_RANK l.rank).fs .DRC_FZ_LOC_BANK l.bank).fs .DRC_FZ_LOC_ROW l.row
  let d := ((d.fs .DRC_FZ_LOC_LINE l.line).fs .DRC_FZ_LOC_WORD (w % 4)).fs .DRC_FZ_LOC_SOURCE src
  let d := ((d.fs .DRC_FZ_INFO_REQ (if src = 0 then req else 0)).fs .DRC_FZ_INFO_SYND0 s.1).fs .DRC_FZ_INFO_SYND1 s.2
  let d := (d.fs .DRC_FZ_INFO_UE_COUNT errors).fs .DRC_FZ_INFO_DISCARD (limitN 0 255 d.drc.writes.length)
  let d := d.each (List.range 4) fun d k => d.fs .DRC_FZ_DATA (bitsOf x (32 * k) 32) k
  let d := { d with fbc := { d.fbc with urgent := [] } }
  let d := (d.fs .DRC_FZ_CHK chk).onDrc fun c =>
    { c with reads := [], writes := [], held := [], inflight := [], draining := [] }
  let d := { ((d.fs .DRC_STAT_UE 1).fs .DRC_STAT_STATE drcFrozen) with error := true }
  frozenEntry 1 d

/-- A word read and checked (R363): its data where it has at most one error in each half; a correction is written back,
counted and recorded. `flip` is what the read disturbs, 144 bits. -/
def drcWord (src req w flip : Nat) (d : Dev) : Option Nat × Dev :=
  let st := d.storedWord w
  let x := st.1 ^^^ (flip % 2 ^ 128)
  let chk := st.2 ^^^ (flip / 2 ^ 128 % 2 ^ 16)
  let s := syndromes x chk
  match judgeHalf s.1, judgeHalf s.2 with
  | .clean, .clean => (some x, d.storeWord w x chk)
  | .double_, _ => (none, d.storeWord w x chk)
  | _, .double_ => (none, d.storeWord w x chk)
  | a, b =>
    let fix := fun (r : HalfResult) (lo : Nat) (x : Nat) => match r with
      | .single j => if j < 64 then x ^^^ 2 ^ (lo + j) else x
      | _ => x
    let y := fix b 64 (fix a 0 x)
    let info := match a, b with
      | .single j, _ => (j, 0)
      | _, .single j => (j, 1)
      | _, _ => (0, 0)
    let d := ((d.storeGood w y).bump .DRC_CNT_CE).fs .DRC_STAT_CE 1
    let d := (d.fs .DRC_CE_ADDR w).fs .DRC_CE_INFO_BIT info.1
    let d := ((d.fs .DRC_CE_INFO_HALF info.2).fs .DRC_CE_INFO_CH (locate d.ranks (16 * w)).ch).fs .DRC_CE_INFO_SOURCE src
    (some y, d.fs .DRC_CE_INFO_REQ (if src = 0 then req else 0))

/-- The four words of a line read and checked, in order; the first uncorrectable word ends the read (R358, R363). -/
def drcLineWords (src req : Nat) (flips : List Nat) : List Nat → Bytes → Dev → (Bytes ⊕ Nat) × Dev
  | [], acc, d => (.inl acc, d)
  | w :: ws, acc, d =>
    let r := drcWord src req w (flips.getD (w % 4) 0) d
    match r.1 with
    | some x => drcLineWords src req flips ws (acc ++ leBytes 16 x) r.2
    | none => (.inr w, r.2)

/-- A line read from the DRAM: its 64 bytes, or the word that cannot be corrected. -/
def drcLine (src req line : Nat) (flips : List Nat) (d : Dev) : (Bytes ⊕ Nat) × Dev :=
  drcLineWords src req flips ((List.range 4).map (4 * line + ·)) [] d

/-- A line read that freezes the DRC on an uncorrectable word (R363, R382). -/
def drcReadLine (src req line : Nat) (flips : List Nat) (d : Dev) : Option Bytes × Dev :=
  let r := drcLine src req line flips d
  match r.1 with
  | .inl b => (some b, r.2)
  | .inr w =>
    let st := r.2.storedWord w
    (none, drcFreeze src req w st.1 st.2 1 r.2)

/-- One word of a write: written whole, or merged by a read-modify-write where the write covers part of it (R365).
`ofs` is where the write begins in the word, which may be below 0 counted from the word's first byte as `skip`. -/
def drcWriteWord (req w ofs : Nat) (b : Bytes) (d : Dev) : Dev :=
  if d.drcState == drcFrozen then d
  else if ofs = 0 && b.length = 16 then d.storeGood w (leNat b)
  else
    let r := drcWord 1 req w 0 (d.bump .DRC_CNT_RMW)
    match r.1 with
    | some x =>
      let old := leBytes 16 x
      r.2.storeGood w (leNat (old.take ofs ++ b ++ old.drop (ofs + b.length)))
    | none =>
      let st := r.2.storedWord w
      drcFreeze 1 req w st.1 st.2 1 r.2

/-- Bytes written within one line at an address, word by word (R365). -/
def drcWriteBytes : Nat → Nat → Nat → Bytes → Dev → Dev
  | 0, _, _, _, d => d
  | n + 1, req, a, b, d =>
    if b.isEmpty then d
    else
      let k := limitN 0 (16 - a % 16) b.length
      drcWriteBytes n req (a + k) (b.drop k) (drcWriteWord req (a / 16) (a % 16) (b.take k) d)

/-- A write of a request performed on the DRAM. -/
def drcWrite (req a : Nat) (b : Bytes) (d : Dev) : Dev := drcWriteBytes (b.length + 1) req a b d

/-! Activations, row hammer and refresh (R368, R371 to R376). -/

/-- The row-hammer table after one more activation of a row (R374). -/
def hammerHit (row : Nat) (t : List (Nat × Nat)) : List (Nat × Nat) :=
  let t := takeFill (0, 0) 16 t
  match findIdxFrom (fun e => e.1 == row && e.2 != 0) 0 t with
  | some i => setAt t i (row, (t.getD i (0, 0)).2 + 1)
  | none =>
    let low := t.foldl (fun m e => if e.2 < m then e.2 else m) (t.headD (0, 0)).2
    match findIdxFrom (fun e => e.2 == low) 0 t with
    | some i => setAt t i (row, low + 1)
    | none => t

/-- One activation counted; a count that reaches THR queues a targeted refresh (R374, R375). -/
def activate (key row : Nat) (d : Dev) : Dev :=
  if !d.is .DRC_CTL_RH_EN then d
  else
    let t := hammerHit row (sparseGet [] d.drc.hammer key)
    let thr := limitN 256 65535 (d.fg .DRC_RH_THR)
    let waiting := sparseGet [] d.drc.targets key
    let hot := t.any (fun e => e.1 == row && thr ≤ e.2) && !waiting.contains row && waiting.length < 4
    d.onDrc fun c => { c with
      hammer := sparseSet [] c.hammer key t
      targets := if hot then sparseSet [] c.targets key (waiting ++ [row]) else c.targets }

/-- Rows in a bank (Table 11-1). -/
def Dev.bankRows (d : Dev) : Nat := 32768 * 2 ^ (limitN 0 2 (d.fg .DRC_CFG_DENS))

/-- The oldest targeted refresh of a bank made: its neighbours activated, its entry set to the lowest other count
(R375). -/
def targetedRefresh (key : Nat) (d : Dev) : Dev :=
  match sparseGet [] d.drc.targets key with
  | [] => d
  | row :: rest =>
    let dist := limitN 1 4 (d.fg .DRC_RH_DIST)
    let rows := ((List.range (2 * dist + 1)).filterMap fun i =>
      if i = dist || row + i < dist then none else some (row + i - dist)).filter fun r => r < d.bankRows
    let t := takeFill (0, 0) 16 (sparseGet [] d.drc.hammer key)
    let others := (t.filter fun e => e.1 != row).map (·.2)
    let low := others.foldl (fun m n => if n < m then n else m) (others.headD 0)
    let d := d.onDrc fun c => { c with
      targets := sparseSet [] c.targets key rest
      openRow := sparseSet 0 c.openRow key 0
      hammer := sparseSet [] c.hammer key (t.map fun e => if e.1 = row then (row, low) else e) }
    (d.each rows fun d r => activate key r d).bump .DRC_CNT_RH

/-- The row of a request opened, if another is open or none (R368). -/
def openFor (l : Location) (d : Dev) : Dev :=
  if sparseGet 0 d.drc.openRow l.bankKey == l.row + 1 then d
  else activate l.bankKey l.row (d.onDrc fun c => { c with openRow := sparseSet 0 c.openRow l.bankKey (l.row + 1) })

/-- A check line used: it enters its channel's buffer of 64 at the front (R364). -/
def useCheck (l : Location) (d : Dev) : Dev :=
  let k := ((l.row * 16 + 8 * l.rank + l.bank) * 8) + l.line / 8
  d.onDrc fun c => { c with
    checks := sparseSet [] c.checks l.ch ((k :: (sparseGet [] c.checks l.ch).filter (· != k)).take 64) }

/-! Queues (R368 to R370). -/

/-- A request's line. -/
def DrcReq.line (r : DrcReq) : Nat := r.addr / 64

/-- A request's channel. -/
def Dev.chOf (d : Dev) (r : DrcReq) : Nat := (locate d.ranks r.addr).ch

/-- How many queued requests of a kind a channel has. -/
def Dev.queued (d : Dev) (ch : Nat) (write : Bool) : Nat :=
  ((if write then d.drc.writes else d.drc.reads).filter fun r => d.chOf r == ch).length

/-- Whether one queued write covers every byte that a read asks for, the later ones of its line first (R370). -/
def coveredBy (r : DrcReq) (ws : List DrcReq) : Option Bytes :=
  let ws := ws.filter fun w => w.line == r.line
  let byte := fun (i : Nat) => (ws.reverse.find? fun w => w.addr ≤ i && i < w.addr + w.data.length).map
    fun w => w.data.getD (i - w.addr) 0#8
  let bs := (List.range r.len).map fun k => byte (r.addr + k)
  if bs.all Option.isSome then some (bs.map fun b => b.getD 0#8) else none

/-- A rank brought out of automatic self-refresh by a request (R377). -/
def wakeRank (l : Location) (d : Dev) : Dev :=
  d.onDrc fun c => { c with asleep := c.asleep.filter (· != 2 * l.ch + l.rank) }

/-- A request enters its channel's queue, or is served from the write queue (R368, R370). -/
def drcEnter (r : DrcReq) (d : Dev) : Dev :=
  let d := { (wakeRank (locate d.ranks r.addr) d) with error := false }
  if r.write then d.onDrc fun c => { c with writes := c.writes ++ [r] }
  else match coveredBy r d.drc.writes with
    | some b => { d with answer := b }
    | none => d.onDrc fun c => { c with reads := c.reads ++ [r] }

/-- Whether the queue that a request needs has a free entry (R368). -/
def Dev.drcRoom (d : Dev) (r : DrcReq) : Bool :=
  d.drcState == drcReady && d.queued (d.chOf r) r.write < (if r.write then 64 else 48)

/-- The requester port that a request comes from: 2 × requester, plus 1 for its second port (R389). -/
def DrcReq.port (r : DrcReq) : Nat := 2 * r.req + bit r.second

/-- Whether a requester's requests are refused: ID 15 issues none, and ID 14 after DEBUG_LOCK (R388, R393). -/
def Dev.refuses (d : Dev) (req : Nat) : Bool := req == 15 || (req == 14 && bitsOf d.shadow 1539 3 != 0)

/-- Whether a request with ORDER still waits: an earlier request of its requester, from either port, has no response yet (R389,
R403). A write has it once its queue has taken it: every later request then sees it (R370, R402). -/
def Dev.orderWaits (d : Dev) (r : DrcReq) : Bool :=
  r.ordered && ((d.drc.reads ++ d.drc.inflight).any (·.req == r.req)
    || ((d.drc.held.filter (·.req == r.req)).head?.getD r) != r)

/-- A request presented to the DRC: it enters its queue, or waits at its port, behind that port's earlier requests (R360, R368,
R370, R389). A request beyond the capacity, to a FROZEN DRC or of a requester that is refused receives an error response. -/
def drcAccept (r : DrcReq) (d : Dev) : Dev :=
  let n := if r.write then r.data.length else r.len
  if d.refuses r.req then { d with error := true }
  else if d.visible < r.addr + n then { (d.fs .DRC_STAT_RANGE 1) with error := true }
  else if d.drcState == drcFrozen then { d with error := true }
  else if !d.drcRoom r || d.orderWaits r || d.drc.held.any (·.port == r.port) then d.onDrc fun c => { c with held := c.held ++ [r] }
  else drcEnter r d

/-- The requester ports of the arbitration groups A to D (Table 12-1). -/
def arbGroups : List (List Nat) :=
  [[0, 2, 4, 6, 26, 28], [8, 9, 10, 11, 12], [14, 16, 18, 20], [22, 24]]

/-- The places of a ring of `n`, from a pointer on. -/
def ringFrom (n p : Nat) : List Nat := (List.range n).map fun i => (p + i) % n

/-- The head request of a port where it goes to a channel in a direction and can be accepted now (R390). -/
def Dev.headFor (d : Dev) (ch : Nat) (write : Bool) (port : Nat) : Option DrcReq :=
  (d.drc.held.find? (·.port == port)).filter fun r => d.chOf r == ch && r.write == write && d.drcRoom r && !d.orderWaits r

/-- What an arbiter grants: the oldest urgent head, else the next group of the root's round-robin that has a head, and in it the next
port of its own (R390, R391); with the group and the place in it. -/
def Dev.grant (d : Dev) (ch : Nat) (write : Bool) : Option (DrcReq × Nat × Nat) :=
  let key := 8 * (2 * ch + bit write)
  let place := fun (g p : Nat) => (d.headFor ch write ((arbGroups.getD g []).getD p 31)).map fun r => (r, g, p)
  let of := fun (port : Nat) => ((List.range 4).find? fun g => (arbGroups.getD g []).contains port).bind fun g =>
    place g ((arbGroups.getD g []).idxOf port)
  match d.fbc.urgent.findSome? of with
  | some x => some x
  | none => (ringFrom 4 (sparseGet 0 d.fbc.robin key)).findSome? fun g =>
      (ringFrom (arbGroups.getD g []).length (sparseGet 0 d.fbc.robin (key + 1 + g))).findSome? (place g)

/-- One cycle of one arbiter: the request granted enters its queue, and the pointers advance past what was served (R390). -/
def arbitrate (ch : Nat) (write : Bool) (d : Dev) : Dev :=
  match d.grant ch write with
  | none => d
  | some (r, g, p) =>
    let key := 8 * (2 * ch + bit write)
    let robin := sparseSet 0 (sparseSet 0 d.fbc.robin key ((g + 1) % 4)) (key + 1 + g) ((p + 1) % (arbGroups.getD g []).length)
    let d := { d with fbc := { d.fbc with urgent := d.fbc.urgent.filter (· != r.port), robin := robin } }
    drcEnter r (d.onDrc fun c => { c with held := c.held.erase r })

/-- Cycles of the fabric, each target port and direction on its own, for as many as there are waiting requests: they are taken while
the queues have room (R390). -/
def drcTakeHeld (n : Nat) (d : Dev) : Dev :=
  d.each (List.range n) fun d _ =>
    arbitrate 1 true (arbitrate 1 false (arbitrate 0 true (arbitrate 0 false d)))

/-- Whether a channel's write queue drains now (R369). -/
def drains (d : Dev) (ch : Nat) : Bool :=
  let w := d.queued ch true
  let r := d.queued ch false
  let hi := d.fg .DRC_SCHED_WQ_HI
  let lo := limitN 0 hi (d.fg .DRC_SCHED_WQ_LO)
  if w = 0 then false
  else if r = 0 then true
  else if d.drc.draining.contains ch then lo < w
  else hi ≤ w

/-- Requests of a channel that no earlier request to their line holds back (R370): a read with no queued write to its
line, and the oldest write of a line that no earlier read of the line waits for. -/
def eligible (d : Dev) (ch : Nat) (write : Bool) : List DrcReq :=
  let mine := (if write then d.drc.writes else d.drc.reads).filter fun r => d.chOf r == ch
  let other := if write then d.drc.reads else d.drc.writes
  mine.filter fun r =>
    !(other.any fun o => o.line == r.line && o.cycle < r.cycle)
      && (mine.find? fun o => o.line == r.line) == some r

/-- The next request of a list by the three rules of R368, and whether the age cap chose it. -/
def pickRequest (d : Dev) (l : List DrcReq) (cycle : Nat) : Option (DrcReq × Bool) :=
  let cap := 16 * limitN 1 255 (d.fg .DRC_SCHED_AGE_CAP)
  match l.find? fun r => r.cycle + cap ≤ cycle with
  | some r => some (r, true)
  | none =>
    match l.find? fun r =>
        let loc := locate d.ranks r.addr
        sparseGet 0 d.drc.openRow loc.bankKey == loc.row + 1 with
    | some r => some (r, false)
    | none => l.head?.map fun r => (r, false)

/-- A request issued: a write takes effect, a read awaits its completion. -/
def drcIssue (r : DrcReq) (d : Dev) : Dev :=
  let l := locate d.ranks r.addr
  let d := useCheck l (openFor l d)
  if r.write then drcWrite r.req r.addr r.data (d.onDrc fun c => { c with writes := c.writes.erase r })
  else d.onDrc fun c => { c with reads := c.reads.erase r, inflight := c.inflight ++ [r] }

/-- DRC_SCHEDULE: a channel makes a waiting targeted refresh, or picks and issues its next request (R368, R369). -/
def drcSchedule (ch cycle : Nat) (d : Dev) : Dev :=
  if d.drcState != drcReady then d
  else
    match (List.range 16).find? fun b => !(sparseGet [] d.drc.targets (16 * ch + b)).isEmpty with
    | some b => targetedRefresh (16 * ch + b) d
    | none =>
      let dr := drains d ch
      let d := d.onDrc fun c => { c with draining := (c.draining.filter (· != ch)) ++ (if dr then [ch] else []) }
      let pool := eligible d ch dr
      let pool := if pool.isEmpty then eligible d ch (!dr) else pool
      match pickRequest d pool cycle with
      | none => d
      | some (r, aged) =>
        drcTakeHeld (d.drc.held.length) (drcIssue r (d.cond aged fun d => d.bump .DRC_CNT_AGE))

/-- The oldest issued read of a channel. -/
def oldestRead (d : Dev) (ch : Nat) : Option DrcReq := d.drc.inflight.find? fun r => d.chOf r == ch

/-- One issued read completed with its check; an uncorrectable word is reported instead of its data. -/
def completeRead (r : DrcReq) (flips : List Nat) (d : Dev) : Option Nat × Dev :=
  let x := drcLine 0 r.req r.line flips (d.onDrc fun c => { c with inflight := c.inflight.erase r })
  match x.1 with
  | .inl b => (none, { x.2 with answer := (b.drop (r.addr % 64)).take r.len, error := false })
  | .inr w => (some w, x.2)

/-- DRC_READ_COMPLETE: the oldest issued read of each channel that completes in this cycle, with what disturbs its four
words as they are read (R363). Errors on both channels in one cycle are counted together, and channel 0's is captured
(R382). -/
def drcReadComplete (f0 f1 : Option (List Nat)) (d : Dev) : Dev :=
  let go := fun (ch : Nat) (f : Option (List Nat)) (d : Dev) => match f, oldestRead d ch with
    | some f, some r => let x := completeRead r f d; (x.1.map fun w => (w, r.req), x.2)
    | _, _ => (none, d)
  if d.drcState != drcReady then d
  else
    let a := go 0 f0 d
    let b := go 1 f1 a.2
    let d := b.2
    match a.1, b.1 with
    | some (w, q), e => let st := d.storedWord w; drcFreeze 0 q w st.1 st.2 (1 + bit e.isSome) d
    | none, some (w, q) => let st := d.storedWord w; drcFreeze 0 q w st.1 st.2 1 d
    | none, none => drcTakeHeld d.drc.held.length d

/-- Every queued request made, the oldest first (R378); `n` bounds how many. -/
def drcDrain : Nat → Dev → Dev
  | 0, d => d
  | n + 1, d =>
    match d.drc.inflight with
    | r :: _ =>
      let x := completeRead r [] d
      match x.1 with
      | some w => let st := x.2.storedWord w; drcFreeze 0 r.req w st.1 st.2 1 x.2
      | none => drcDrain n x.2
    | [] =>
      match (eligible d 0 true ++ eligible d 1 true ++ eligible d 0 false ++ eligible d 1 false).head? with
      | some r => drcDrain n (drcIssue r d)
      | none => d

/-- Requests queued for a line made before a direct access to it (R370). -/
def drcSettle (line : Nat) (d : Dev) : Dev :=
  let ws := d.drc.writes.filter fun r => r.line == line
  d.each ws fun d r => drcIssue r d

/-- A line read by the cache or another direct access: in order after the queued writes to it. None is an error
response. -/
def dramRead (req line : Nat) (d : Dev) : Option Bytes × Dev :=
  if d.visible < 64 * line + 64 then (none, { (d.fs .DRC_STAT_RANGE 1) with error := true })
  else if d.drcState != drcReady then (none, { d with error := true })
  else
    let d := drcSettle line d
    if d.drcState != drcReady then (none, d)
    else
      let l := locate d.ranks (64 * line)
      drcReadLine 0 req line [] (useCheck l (openFor l (wakeRank l d)))

/-- Bytes written within a line by the cache or another direct access; false is an error response. -/
def dramWrite (req a : Nat) (b : Bytes) (d : Dev) : Bool × Dev :=
  if d.visible < a + b.length then (false, { (d.fs .DRC_STAT_RANGE 1) with error := true })
  else if d.drcState != drcReady then (false, { d with error := true })
  else
    let d := drcSettle (a / 64) d
    let l := locate d.ranks a
    let d := drcWrite req a b (useCheck l (openFor l (wakeRank l d)))
    (d.drcState == drcReady, d)

/-! Refresh (R371 to R373). -/

/-- Whether a bank has no queued request. -/
def bankIdle (d : Dev) (key : Nat) : Bool :=
  !((d.drc.reads ++ d.drc.writes).any fun r => (locate d.ranks r.addr).bankKey == key)

/-- One REFpb to a bank: its row closed, the bank marked in the round, one owed refresh settled. -/
def refreshBank (rk bank : Nat) (d : Dev) : Dev :=
  let round := sparseGet 0 d.drc.round rk ||| 2 ^ bank
  d.onDrc fun c => { c with
    debt := sparseSet 0 c.debt rk (sparseGet 0 c.debt rk - 1)
    round := sparseSet 0 c.round rk (if round = 255 then 0 else round)
    openRow := sparseSet 0 c.openRow (8 * rk + bank) 0 }

/-- The banks of a rank not yet refreshed in its round. -/
def roundLeft (d : Dev) (rk : Nat) : List Nat :=
  (List.range 8).filter fun b => !(sparseGet 0 d.drc.round rk).testBit b

/-- Owed refreshes issued to idle banks of the round, at most `n` (R371). -/
def refreshIdle : Nat → Nat → Dev → Dev
  | 0, _, d => d
  | n + 1, rk, d =>
    if sparseGet 0 d.drc.debt rk = 0 then d
    else match (roundLeft d rk).find? fun b => bankIdle d (8 * rk + b) with
      | some b => refreshIdle n rk (refreshBank rk b d)
      | none => d

/-- REFRESH_DUE: a rank of a channel owes one more refresh; idle banks take what is owed, the forced rules bound the debt
(R371, R372). It goes on in FROZEN, and not in self-refresh. -/
def refreshDue (ch rank : Nat) (d : Dev) : Dev :=
  let rk := 2 * ch + rank
  if d.ranks ≤ rank || (d.drcState != drcReady && d.drcState != drcFrozen) || d.drc.asleep.contains rk then d
  else
    let d := d.onDrc fun c => { c with debt := sparseSet 0 c.debt rk (sparseGet 0 c.debt rk + 1) }
    let owed := sparseGet 0 d.drc.debt rk
    if 16 ≤ owed then
      let d := d.onDrc fun c => { c with debt := sparseSet 0 c.debt rk (owed - 8), round := sparseSet 0 c.round rk 0 }
      (d.each (List.range 8) fun d b => d.onDrc fun c =>
        { c with openRow := sparseSet 0 c.openRow (8 * rk + b) 0 }).bump .DRC_CNT_REFFORCE
    else
      let d := refreshIdle owed rk d
      if 8 ≤ sparseGet 0 d.drc.debt rk then
        match roundLeft d rk with
        | b :: _ => (refreshBank rk b d).bump .DRC_CNT_REFFORCE
        | [] => d
      else d

/-- All owed refreshes of every rank settled. -/
def settleRefresh (d : Dev) : Dev := d.onDrc fun c => { c with debt := [], round := [] }

/-- MR4_POLL with the codes of the dies of both ranks (R373): the hottest die of a rank gives its multiplier; code 111 is
HOT, which firmware logs with ATTN 2. -/
def mr4Poll (r0 r1 : List Nat) (d : Dev) : Dev :=
  if d.drcState != drcReady then d
  else
    let top := fun (l : List Nat) (old : Nat) => if l.isEmpty then old else l.foldl (fun m c => if m < c then c else m) 0
    let m0 := top r0 (d.fg .DRC_REF_MULT0)
    let m1 := if d.ranks = 2 then top r1 (d.fg .DRC_REF_MULT1) else d.fg .DRC_REF_MULT1
    let d := (d.fs .DRC_REF_MULT0 m0).fs .DRC_REF_MULT1 m1
    d.cond (r0.contains 7 || (d.ranks == 2 && r1.contains 7)) fun d =>
      ((d.fs .DRC_STAT_HOT 1).attn 2).event { code := 0x6003 }

/-- RH_TABLE_CLEAR (R376). -/
def rhTableClear (d : Dev) : Dev := d.onDrc fun c => { c with hammer := [] }

/-- SCRUB_READ: the line at DRC_SCRUB_POS read in address order, with what disturbs it (R366); it yields to every
request. -/
def scrubRead (flips : List Nat) (d : Dev) : Dev :=
  let pos := d.fg .DRC_SCRUB_POS
  let ch := (locate d.ranks (64 * pos)).ch
  if d.drcState != drcReady || !d.is .DRC_CTL_SCRUB_EN || d.queued ch true + d.queued ch false != 0 then d
  else
    let total := d.visible / 64
    let pos := if total ≤ pos then 0 else pos
    let l := locate d.ranks (64 * pos)
    let r := drcReadLine 2 0 pos flips (useCheck l (openFor l (wakeRank l d)))
    if r.1.isNone then r.2
    else if pos + 1 < total then r.2.fs .DRC_SCRUB_POS (pos + 1)
    else (r.2.fs .DRC_SCRUB_POS 0).bump .DRC_CNT_SCRUB

/-! The test port (R367). -/

/-- Whether the test port operates. -/
def testPortOn (d : Dev) : Bool := d.is .DRC_TEST_CTL_EN && (d.mode == 6 || d.mode == 7)

/-- RAW_WRITE: GO with OP 1. -/
def rawWrite (d : Dev) : Dev :=
  let w := d.fg .DRC_TEST_ADDR
  if !testPortOn d || d.visible ≤ 16 * w then d
  else
    let d := d.cond (d.drcState == drcReady) (drcSettle (w / 4))
    let x := ((List.range 4).map fun k => d.fg .DRC_TEST_DATA k <<< (32 * k)).sum
    ((d.storeWord w x (d.fg .DRC_TEST_CHK_CHK)).fs .DRC_TEST_CTL_OP 1).fs .DRC_TEST_CTL_DONE 1

/-- RAW_READ: GO with OP 2. -/
def rawRead (d : Dev) : Dev :=
  let w := d.fg .DRC_TEST_ADDR
  if !testPortOn d || d.visible ≤ 16 * w then d
  else
    let d := d.cond (d.drcState == drcReady) (drcSettle (w / 4))
    let st := d.storedWord w
    let s := syndromes st.1 st.2
    let d := d.each (List.range 4) fun d k => d.fs .DRC_TEST_DATA (bitsOf st.1 (32 * k) 32) k
    let d := ((d.fs .DRC_TEST_CHK_CHK st.2).fs .DRC_TEST_CHK_SYND0 s.1).fs .DRC_TEST_CHK_SYND1 s.2
    (d.fs .DRC_TEST_CTL_OP 2).fs .DRC_TEST_CTL_DONE 1

/-! Self-refresh, training and the delay checks (R377 to R381). -/

/-- AUTO_SELF_REFRESH: a rank whose queues have stayed empty for IDLE_T cycles (R377). -/
def autoSelfRefresh (ch rank : Nat) (d : Dev) : Dev :=
  let rk := 2 * ch + rank
  let busy := (d.drc.reads ++ d.drc.writes ++ d.drc.inflight).any fun r =>
    let l := locate d.ranks r.addr
    2 * l.ch + l.rank == rk
  if d.drcState != drcReady || !d.is .DRC_PWR_AUTO_SR || d.ranks ≤ rank || busy || d.drc.asleep.contains rk then d
  else d.onDrc fun c => { c with
    asleep := c.asleep ++ [rk]
    debt := sparseSet 0 c.debt rk 0
    round := sparseSet 0 c.round rk 0
    openRow := c.openRow.filter fun e => e.1 / 8 != rk }

/-- DEEP: entry to deep self-refresh (R378). -/
def drcDeep (d : Dev) : Dev :=
  if d.drcState != drcReady then d
  else
    let d := drcDrain (2 * (d.drc.reads.length + d.drc.writes.length) + d.drc.inflight.length + 1) (d.fs .DRC_PWR_DEEP 1)
    if d.drcState != drcReady then d
    else
      (((settleRefresh d).onDrc fun c => { c with checks := [], openRow := [], asleep := [], targets := [] }).fs
        .DRC_STAT_STATE 3)

/-- A die's oscillator count taken: a move of more than 1/64 of the trained count shifts the die's write DQ delay in
proportion (R381). -/
def dqsCheck (die count : Nat) (d : Dev) : Dev :=
  let t := sparseGet 0 d.drc.trained die
  let m := if t < count then count - t else t - count
  d.cond (t < 64 * m) fun d => d.onDrc fun c => { c with delay := sparseSet 0 c.delay die count }

/-- DEEP_SR_EXIT with each die's oscillator count (R379). -/
def drcDeepExit (counts : List Nat) (d : Dev) : Dev :=
  if d.drcState != 3 then d
  else
    let d := ((d.fs .DRC_STAT_STATE drcReady).fs .DRC_PWR_DEEP 0).onDrc fun c => { c with zq := d.qtime }
    let d := d.each (counts.zip (List.range 8)) fun d p => dqsCheck p.2 p.1 d
    drcTakeHeld d.drc.held.length d

/-- A write to DRC_CTL.EN: 1 in OFF starts training (R380). -/
def drcEnable (en : Bool) (d : Dev) : Dev :=
  let was := d.is .DRC_CTL_EN
  let d := d.fs .DRC_CTL_EN (bit en)
  d.cond (en && !was && d.drcState == 0) fun d => d.fs .DRC_STAT_STATE 1

/-- DRC_TRAINING ends: without a failure, with each die's oscillator count, the DRC is READY; a step without a passing
window leaves it in TRAINING (R380). -/
def drcTraining (fail : Option (Nat × Nat)) (counts : List Nat) (d : Dev) : Dev :=
  if d.drcState != 1 || d.is .DRC_STAT_TRN_FAIL then d
  else match fail with
    | some (ch, step) => ((d.fs .DRC_STAT_TRN_FAIL 1).fs .DRC_TRN_CH ch).fs .DRC_TRN_STEP step
    | none =>
      let tab := (counts.zip (List.range 8)).foldl (fun m p => sparseSet 0 m p.2 p.1) []
      let d := (d.fs .DRC_STAT_STATE drcReady).onDrc fun c => { c with trained := tab, delay := tab, zq := d.qtime }
      drcTakeHeld d.drc.held.length d

/-- ZQ_CALIBRATION of every die (R381). -/
def zqCalibration (d : Dev) : Dev :=
  if d.drcState != drcReady then d else d.onDrc fun c => { c with zq := d.qtime }

/-- DQS_OSC_CHECK of one die (R381). -/
def dqsOscCheck (die count : Nat) (d : Dev) : Dev := if d.drcState != drcReady then d else dqsCheck die count d

/-! The effects of the commands. -/

/-- DRC_REQUEST_ACCEPT (R360). -/
def execDrcRequestAccept (req : Fin 16) (second : Bool) (isWrite : Bool) (addr : Nat) (len : Nat) (data : List (BitVec 8)) (cycle : Nat) (ordered : Bool) (s : State) :
    Host.Outcome State Fault Refusal :=
  s.onDev (drcAccept { req := req, second := second, write := isWrite, addr := addr, data := data, len := len, cycle := cycle, ordered := ordered })

/-- DRC_SCHEDULE (R368). -/
def execDrcSchedule (ch : Fin 2) (cycle : Nat) (s : State) : Host.Outcome State Fault Refusal :=
  s.onDev (drcSchedule ch cycle)

/-- DRC_READ_COMPLETE (R363). -/
def execDrcReadComplete (f0 : Option (List Nat)) (f1 : Option (List Nat)) (s : State) :
    Host.Outcome State Fault Refusal :=
  s.onDev (drcReadComplete f0 f1)

/-- REFRESH_DUE (R371). -/
def execRefreshDue (ch : Fin 2) (rank : Fin 2) (s : State) : Host.Outcome State Fault Refusal :=
  s.onDev (refreshDue ch rank)

/-- MR4_POLL (R373). -/
def execMr4Poll (r0 : List Nat) (r1 : List Nat) (s : State) : Host.Outcome State Fault Refusal :=
  s.onDev (mr4Poll r0 r1)

/-- RH_TABLE_CLEAR (R376). -/
def execRhTableClear (s : State) : Host.Outcome State Fault Refusal := s.onDev rhTableClear

/-- SCRUB_READ (R366). -/
def execScrubRead (flips : List Nat) (s : State) : Host.Outcome State Fault Refusal := s.onDev (scrubRead flips)

/-- RAW_WRITE (R367). -/
def execRawWrite (s : State) : Host.Outcome State Fault Refusal := s.onDev rawWrite

/-- RAW_READ (R367). -/
def execRawRead (s : State) : Host.Outcome State Fault Refusal := s.onDev rawRead

/-- AUTO_SELF_REFRESH (R377). -/
def execAutoSelfRefresh (ch : Fin 2) (rank : Fin 2) (s : State) : Host.Outcome State Fault Refusal :=
  s.onDev (autoSelfRefresh ch rank)

/-- DEEP (R378). -/
def execDeep (s : State) : Host.Outcome State Fault Refusal := s.onDev drcDeep

/-- DEEP_SR_EXIT (R379). -/
def execDeepSrExit (counts : List Nat) (s : State) : Host.Outcome State Fault Refusal := s.onDev (drcDeepExit counts)

/-- DRC_TRAINING (R380). -/
def execDrcTraining (fail : Option (Fin 4 × Fin 5)) (counts : List Nat) (s : State) :
    Host.Outcome State Fault Refusal :=
  s.onDev (drcTraining (fail.map fun x => (x.1.val, x.2.val)) counts)

/-- ZQ_CALIBRATION (R381). -/
def execZqCalibration (s : State) : Host.Outcome State Fault Refusal := s.onDev zqCalibration

/-- DQS_OSC_CHECK (R381). -/
def execDqsOscCheck (die : Fin 8) (count : Nat) (s : State) : Host.Outcome State Fault Refusal :=
  s.onDev (dqsOscCheck die count)

end Sys2Proof.Machine
end

