-- ==== Sys2Proof/Machine/Cache.lean ====
section
/-!
DEFINITION. The fabric cache (12_fabric_cache.md): hits, allocation, write-back, discard reads, sequential stores,
prefetch, the cache operations, errors, and the reads and writes of the buffer that every engine makes through it.
-/

namespace Sys2Proof.Machine

/-- The unit with `f` applied to the cache. -/
def Dev.onFbc (d : Dev) (f : Fbc → Fbc) : Dev := { d with fbc := f d.fbc }

/-- The set of a line (R394). -/
def setOf (line : Nat) : Nat := line % 8192
/-- The tag of a line (R394). -/
def tagOf (line : Nat) : Nat := line / 8192

/-- A way of a set. -/
def Dev.way (d : Dev) (set w : Nat) : CacheLine := sparseGet {} d.fbc.lines (16 * set + w)

/-- The unit with a way of a set replaced. -/
def Dev.setWay (d : Dev) (set w : Nat) (l : CacheLine) : Dev :=
  d.onFbc fun c => { c with lines := sparseSet {} c.lines (16 * set + w) l }

/-- The way in which a line hits (R395). -/
def Dev.hit (d : Dev) (line : Nat) : Option Nat :=
  (List.range 16).find? fun w => let l := d.way (setOf line) w; l.valid && l.tag == tagOf line

/-- Whether a way is locked (R399). -/
def Dev.locked (d : Dev) (w : Nat) : Bool := (d.fg .FBC_LOCK_WAYS).testBit w

/-- The ways in which a requester allocates: its mask without the locked ways (R395). -/
def Dev.usable (d : Dev) (req : Nat) : List Nat :=
  (List.range 16).filter fun w => (d.fg .FBC_WAYMASK_MASK req).testBit w && !d.locked w

/-- Whether the DRC is FROZEN, so that the cache allocates and writes back nothing (R406). -/
def Dev.cacheFrozen (d : Dev) : Bool := d.drcState == drcFrozen

/-- A dirty way written back; false where the DRC gives an error response, and the line is kept (R397, R406). -/
def writeBack (req set w : Nat) (d : Dev) : Bool × Dev :=
  let l := d.way set w
  if !l.valid || !l.dirty then (true, d)
  else if d.cacheFrozen then (false, { d with error := true })
  else
    let r := dramWrite req (64 * (l.tag * 8192 + set)) l.data d
    if r.1 then (true, (r.2.setWay set w { l with dirty := false }).bump .FBC_CNT_WB) else r

/-- One step of the LFSR: x^16 + x^15 + x^13 + x^4 + 1 (R396). DESIGN CHOICE of the register's form (notes/assumptions/140.md): it shifts
toward bit 15, the parity of bits 15, 14, 12 and 3 entering at bit 0. -/
def lfsrStep (s : Nat) : Nat :=
  s * 2 % 65536 + (bitsOf s 15 1 + bitsOf s 14 1 + bitsOf s 12 1 + bitsOf s 3 1) % 2

/-- The LFSR after some steps. -/
def lfsrSteps : Nat → Nat → Nat
  | 0, s => s
  | n + 1, s => lfsrSteps n (lfsrStep s)

/-- The LFSR at the moment of a choice or a read: it has stepped once in every CLK_CORE cycle since (R396), their number being a
free value. -/
def lfsrNow (d : Dev) : Dev := (d.fs .FBC_LFSR_STATE (lfsrSteps (d.freeNat 65535) (d.fg .FBC_LFSR_STATE))).drew

/-- The victim among allowed ways of a set: the lowest invalid one, else the way that the LFSR names or the next allowed
one upward (R396). -/
def victim (set : Nat) (ways : List Nat) (d : Dev) : Option Nat × Dev :=
  match ways.find? fun w => !(d.way set w).valid with
  | some w => (some w, d)
  | none =>
    let d := lfsrNow d
    let n := d.fg .FBC_LFSR_STATE % 16
    (((List.range 16).map fun i => (n + i) % 16).find? fun w => ways.contains w, d)

/-- A line put into a way chosen for a requester, the victim written back first; nothing where it does not allocate
(R395 to R397). -/
def allocate (req line : Nat) (data : Bytes) (dirty : Bool) (d : Dev) : Bool × Dev :=
  let set := setOf line
  let v := victim set (d.usable req) d
  match v.1 with
  | none => (false, v.2)
  | some w =>
    let r := writeBack req set w v.2
    if r.1 then (true, r.2.setWay set w { valid := true, tag := tagOf line, dirty := dirty, data := data }) else r

/-- A read counted by the requester's read detector (R401). -/
def countRead (req line : Nat) (d : Dev) : Dev :=
  let n := if sparseGet 0 d.fbc.rdNext req == line + 1 then sparseGet 0 d.fbc.rdCount req + 1 else 1
  d.onFbc fun c => { c with rdNext := sparseSet 0 c.rdNext req (line + 2), rdCount := sparseSet 0 c.rdCount req n }

/-- A write counted by the requester's sequential-store detector (R400). -/
def countWrite (req line : Nat) (full : Bool) (d : Dev) : Dev :=
  let n := if full && sparseGet 0 d.fbc.wrNext req == line + 1 then sparseGet 0 d.fbc.wrCount req + 1 else 0
  d.onFbc fun c => { c with wrNext := sparseSet 0 c.wrNext req (line + 2), wrCount := sparseSet 0 c.wrCount req n }

/-- Whether a requester's full-line writes that miss go to the DRC directly (R400). -/
def streaming (d : Dev) (req : Nat) : Bool :=
  d.fg .FBC_SEQ_THR != 0 && d.fg .FBC_SEQ_THR ≤ sparseGet 0 d.fbc.wrCount req

/-- CACHE_RESET_INVALIDATE: the invalidation that a reset began ends, every line invalid without write-back and the side buffer
cleared; a request waits for that end (R407). -/
def cacheReset (d : Dev) : Dev := d.cond (d.is .FBC_STAT_BUSY) fun d => { d with fbc := {} }.fs .FBC_STAT_BUSY 0

/-- One line read through the cache (R395 to R398, R401, R406): its 64 bytes, or an error response. -/
def lineRead (req line : Nat) (discard : Bool) (d : Dev) : Option Bytes × Dev :=
  if !d.is .FBC_CTL_EN then dramRead req line d
  else
    let d := cacheReset d
    let d := countRead req line d
    match d.hit line with
    | some w =>
      let l := d.way (setOf line) w
      (some l.data, { (d.cond discard fun d => d.setWay (setOf line) w {}) with error := false })
    | none =>
      match if d.cacheFrozen then none else d.fbc.side.find? fun e => e.1 == line with
      | some (_, b) =>
        let d := d.onFbc fun c => { c with side := c.side.filter fun e => e.1 != line }
        let d := { d with error := false }
        (some b, if discard then d else (allocate req line b false d).2)
      | none =>
        let r := dramRead req line d
        match r.1 with
        | none => r
        | some b => (some b, if discard then r.2 else (allocate req line b false r.2).2)

/-- Bytes written within one line through the cache (R395, R397, R400, R401, R406); false is an error response. -/
def lineWrite (req a : Nat) (b : Bytes) (d : Dev) : Bool × Dev :=
  let line := a / 64
  if !d.is .FBC_CTL_EN then dramWrite req a b d
  else
    let d := cacheReset d
    let full := b.length == 64
    let d := countWrite req line full d
    let d := d.onFbc fun c => { c with side := c.side.filter fun e => e.1 != line }
    let o := a % 64
    let merge := fun (old : Bytes) => old.take o ++ b ++ old.drop (o + b.length)
    match d.hit line with
    | some w =>
      let l := d.way (setOf line) w
      (true, { (d.setWay (setOf line) w { l with dirty := true, data := merge l.data }) with error := false })
    | none =>
      if d.cacheFrozen then (false, { d with error := true })
      else if (d.usable req).isEmpty || (full && streaming d req) then dramWrite req a b d
      else if full then
        if d.visible < a + 64 then (false, { (d.fs .DRC_STAT_RANGE 1) with error := true })
        else
          let r := allocate req line b true { d with error := false }
          if r.1 then r else dramWrite req a b r.2
      else
        let r := dramRead req line d
        match r.1 with
        | none => (false, r.2)
        | some old =>
          let x := allocate req line (merge old) true r.2
          if x.1 then x else dramWrite req a b x.2

/-- Bytes read from the buffer by an engine, line by line; none where a line has an error response. -/
def readLines : Nat → Nat → Nat → Nat → Bool → Bytes → Dev → Option Bytes × Dev
  | 0, _, _, _, _, acc, d => (some acc, d)
  | k + 1, req, a, n, discard, acc, d =>
    if n = 0 then (some acc, d)
    else
      let m := limitN 0 (64 - a % 64) n
      let r := lineRead req (a / 64) discard d
      match r.1 with
      | none => (none, r.2)
      | some b => readLines k req (a + m) (n - m) discard (acc ++ (b.drop (a % 64)).take m) r.2

/-- `n` bytes of the buffer from address `a`, for a requester. -/
def Dev.bufRead (d : Dev) (req a n : Nat) (discard : Bool := false) : Option Bytes × Dev :=
  readLines (n / 64 + 2) req a n discard [] d

/-- Bytes written to the buffer by an engine, line by line; false where a line has an error response. -/
def writeLines : Nat → Nat → Nat → Bytes → Dev → Bool × Dev
  | 0, _, _, _, d => (true, d)
  | k + 1, req, a, b, d =>
    if b.isEmpty then (true, d)
    else
      let m := limitN 0 (64 - a % 64) b.length
      let r := lineWrite req a (b.take m) d
      if r.1 then writeLines k req (a + m) (b.drop m) r.2 else r

/-- Bytes written to the buffer at address `a`, for a requester. -/
def Dev.bufWrite (d : Dev) (req a : Nat) (b : Bytes) : Bool × Dev := writeLines (b.length / 64 + 2) req a b d

/-- Bytes written to the buffer, the response not looked at. -/
def Dev.bufPut (d : Dev) (req a : Nat) (b : Bytes) : Dev := (d.bufWrite req a b).2

/-- Bytes of the buffer as firmware reads them; zeros where the buffer gives an error response. -/
def Dev.bufGet (d : Dev) (req a n : Nat) : Bytes × Dev :=
  let r := d.bufRead req a n
  (takeFill 0#8 n (r.1.getD []), r.2)

/-- What the check bits of the cache find at an access (R404): nothing, an error they correct, one in data, one in a
tag. -/
inductive CacheError where
  | none | corrected | data | tag
deriving DecidableEq, Repr

/-- The errors by number. -/
def cacheErrors : List CacheError := [.none, .corrected, .data, .tag]

/-- What the check bits find at a line dealt with before the access (R404): a correction is counted; a clean line that
is not locked is invalidated, to be fetched again; anything else is a fault of the fabric cache. -/
def cacheError (e : CacheError) (line : Nat) (d : Dev) : Dev :=
  match e, d.hit line with
  | .none, _ => d
  | .corrected, some _ => (d.bump .FBC_CNT_CE).fs .FBC_STAT_CE 1
  | .corrected, none => d
  | .data, some w =>
    let l := d.way (setOf line) w
    if l.dirty || d.locked w then frozenEntry 7 (d.fs .FBC_STAT_FAULT 1)
    else (d.setWay (setOf line) w {}).bump .FBC_CNT_REFETCH
  | .data, none => d
  | .tag, _ => frozenEntry 7 (d.fs .FBC_STAT_FAULT 1)

/-- CACHE_READ: a read of bytes within a line. -/
def cacheRead (req a n : Nat) (discard : Bool) (e : CacheError) (d : Dev) : Dev :=
  if d.refuses req then { d with error := true }
  else
    let d := d.cond (d.is .FBC_CTL_EN) (cacheError e (a / 64))
    let r := lineRead req (a / 64) discard d
    match r.1 with
    | some b => { r.2 with answer := (b.drop (a % 64)).take n }
    | none => r.2

/-- CACHE_WRITE: a write of bytes within a line; `idle` tells that 1,024 cycles have passed without a write of the requester, which
resets its count of sequential stores (R400). -/
def cacheWrite (req a : Nat) (b : Bytes) (e : CacheError) (idle : Bool) (d : Dev) : Dev :=
  if d.refuses req then { d with error := true }
  else
    let d := d.cond (idle && d.is .FBC_CTL_EN) fun d => d.onFbc fun c => { c with wrCount := sparseSet 0 c.wrCount req 0 }
    let d := d.cond (d.is .FBC_CTL_EN) (cacheError e (a / 64))
    (lineWrite req a b d).2

/-- PREFETCH: a requester whose read detector has counted TRIG reads has the next lines fetched into the side buffer,
which drops the line unused for longest (R401). -/
def prefetch (req : Nat) (d : Dev) : Dev :=
  let trig := d.fg .FBC_PF_TRIG
  let next := sparseGet 0 d.fbc.rdNext req
  if !d.is .FBC_CTL_EN || trig = 0 || sparseGet 0 d.fbc.rdCount req < trig || next = 0 || d.cacheFrozen
      || d.drcState != drcReady then d
  else
    d.each (List.range (limitN 0 32 (d.fg .FBC_PF_DEPTH))) fun d i =>
      let line := next - 1 + i
      if (d.hit line).isSome || d.fbc.side.any (fun e => e.1 == line) || d.visible < 64 * line + 64 then d
      else
        let r := dramRead req line d
        match r.1 with
        | some b => r.2.onFbc fun c => { c with side := ((line, b) :: c.side).take 32 }
        | none => r.2

/-- The lines of the range of FBC_CMD (R405). -/
def cmdRange (d : Dev) : List Nat := (List.range (d.fg .FBC_CMD_LEN)).map (d.fg .FBC_CMD_ADDR + ·)

/-- A line kept, written back where it is dirty. -/
def cleanLine (line : Nat) (d : Dev) : Dev :=
  match d.hit line with
  | some w => (writeBack 13 (setOf line) w d).2
  | none => d

/-- Whether a cache operation is taken; while BUSY it is ignored and sets CMD_ERR (R405). -/
def cacheOp (f : Dev → Dev) (d : Dev) : Dev := if d.is .FBC_STAT_BUSY then d.fs .FBC_STAT_CMD_ERR 1 else f d

/-- CLEAN (R405). -/
def cacheClean (d : Dev) : Dev := cacheOp (fun d => d.each (cmdRange d) fun d l => cleanLine l d) d

/-- INVALIDATE (R405). -/
def cacheInvalidate (d : Dev) : Dev :=
  cacheOp (fun d => d.each (cmdRange d) fun d l => match d.hit l with
    | some w => d.setWay (setOf l) w {}
    | none => d) d

/-- CLEAN_ALL (R405). -/
def cacheCleanAll (d : Dev) : Dev :=
  cacheOp (fun d => d.each (d.fbc.lines.map (·.1)) fun d k => (writeBack 13 (k / 16) (k % 16) d).2) d

/-- PRELOAD of the range into a locked way; to an unlocked way it is refused (R399, R405). A line that the cache holds in
another way leaves it, written back first. -/
def cachePreload (way : Nat) (d : Dev) : Dev :=
  cacheOp (fun d =>
    if !d.locked way then d.fs .FBC_STAT_CMD_ERR 1
    else d.each (cmdRange d) fun d l =>
      match d.hit l with
      | some w => if w = way then d
        else
          let old := d.way (setOf l) w
          let r := writeBack 13 (setOf l) way d
          if r.1 then (r.2.setWay (setOf l) w {}).setWay (setOf l) way old else r.2
      | none =>
        if d.cacheFrozen then { d with error := true }
        else
          let r := dramRead 13 l d
          match r.1 with
          | none => r.2
          | some b =>
            let x := writeBack 13 (setOf l) way r.2
            if x.1 then x.2.setWay (setOf l) way { valid := true, tag := tagOf l, data := b } else x.2) d

/-- REQUEST_URGENT: the head request of a requester port has reached AGE_CAP (R391); prefetches never do. -/
def requestUrgent (req : Nat) (second : Bool) (d : Dev) : Dev :=
  let port := ({ req := req, second := second } : DrcReq).port
  if d.fbc.urgent.contains port || !(d.drc.held.any fun r => r.port == port) then d
  else (d.onFbc fun c => { c with urgent := c.urgent ++ [port] }).bump .FBC_CNT_URGENT

/-! The effects of the commands. -/

/-- CACHE_READ (R395). -/
def execCacheRead (req : Fin 16) (addr : Nat) (len : Nat) (discard : Bool) (err : Fin 4) (s : State) :
    Host.Outcome State Fault Refusal :=
  s.onDev (cacheRead req addr len discard (cacheErrors.getD err .none))

/-- CACHE_WRITE (R397). -/
def execCacheWrite (req : Fin 16) (addr : Nat) (data : List (BitVec 8)) (err : Fin 4) (idle : Bool) (s : State) :
    Host.Outcome State Fault Refusal :=
  s.onDev (cacheWrite req addr data (cacheErrors.getD err .none) idle)

/-- PREFETCH (R401). -/
def execPrefetch (req : Fin 16) (s : State) : Host.Outcome State Fault Refusal := s.onDev (prefetch req)

/-- CLEAN (R405). -/
def execClean (s : State) : Host.Outcome State Fault Refusal := s.onDev cacheClean

/-- INVALIDATE (R405). -/
def execInvalidate (s : State) : Host.Outcome State Fault Refusal := s.onDev cacheInvalidate

/-- PRELOAD (R399). -/
def execPreload (way : Fin 16) (s : State) : Host.Outcome State Fault Refusal := s.onDev (cachePreload way)

/-- CLEAN_ALL (R405). -/
def execCleanAll (s : State) : Host.Outcome State Fault Refusal := s.onDev cacheCleanAll

/-- CACHE_RESET_INVALIDATE (R407). -/
def execCacheResetInvalidate (s : State) : Host.Outcome State Fault Refusal := s.onDev cacheReset

/-- REQUEST_URGENT (R391). -/
def execRequestUrgent (req : Fin 16) (second : Bool) (s : State) : Host.Outcome State Fault Refusal :=
  s.onDev (requestUrgent req second)

end Sys2Proof.Machine
end

