-- ==== Sys2Proof/Machine/Engine.lean ====
section
/-!
DEFINITION. The Control Law Engine (06_control_law_engine.md): ports, ticks, dispatch, micro-traps, microwords, banks, and
the open region. The laws of firmware's own loops are in Loops.
-/

namespace Sys2Proof.Machine

/-! The microword (R199). -/

/-- A field of a microword: bits from `lo` up. -/
def mwField (w : Word) (lo width : Nat) : Nat := bitsOf w.toNat lo width

/-- OP. -/
def mwOp (w : Word) : Nat := mwField w 120 5
/-- CYC plus one: the clocks a microword occupies (R201). -/
def mwClocks (w : Word) : Nat := mwField w 125 3 + 1
/-- SRCA, SRCB and SRCC. -/
def mwSources (w : Word) : List Nat := [mwField w 107 5, mwField w 102 5, mwField w 97 5]
/-- MOP. -/
def mwMop (w : Word) : Nat := mwField w 91 2
/-- IOP. -/
def mwIop (w : Word) : Nat := mwField w 70 2
/-- SEQ. -/
def mwSeq (w : Word) : Nat := mwField w 55 3
/-- TARGET. -/
def mwTarget (w : Word) : Nat := mwField w 37 14

/-- Whether a microword carries a reserved OP, SEQ, COND, IOP or source code (R201). -/
def mwReserved (w : Word) : Bool :=
  28 ≤ mwOp w || mwSeq w == 7 || 11 ≤ mwField w 51 4 || mwIop w == 3 || (mwSources w).any fun s => 21 ≤ s

/-- The minimum length of a microword in clocks (R201). -/
def mwMin (w : Word) : Nat :=
  ((cleOps[mwOp w]?).map CleOp.minClocks).getD 1
    + (if (mwSources w).contains 17 then 2 else if (mwSources w).contains 16 then 1 else 0)

/-! Samples. -/

/-- The running sample. -/
def Dev.runningSample (d : Dev) : Option CleSample := d.eng.samples.find? fun s => s.phase = .running

/-- The unit with a slot's sample replaced. -/
def Dev.setSample (d : Dev) (s : CleSample) : Dev :=
  d.onEng fun e => { e with samples := e.samples.map fun x => if x.slot = s.slot then s else x }

/-- The unit without a slot's sample. -/
def Dev.dropSample (d : Dev) (n : Nat) : Dev :=
  d.onEng fun e => { e with samples := e.samples.filter fun x => x.slot != n }

/-- TCNT advanced by a number of clocks. -/
def Dev.clocks (d : Dev) (n : Nat) : Dev := d.fs .CLE_TCNT ((d.fg .CLE_TCNT + n) % 2 ^ 32)

/-- Firmware withdraws the release of port groups and restarts its own slots that it held disabled, unless the engine is halted
(R222, R232). -/
def openWithdraw (d : Dev) : Dev :=
  let held := d.fw.openHeld
  let d := (d.wr .CLE_IOREL 0#32).onFw fun w => { w with openHeld := [] }
  d.cond (!d.is .CLE_STAT_HALT) (slotsStart held)

/-- A slot faults; when it is an open slot firmware withdraws the release (R221, R232). -/
def cleFault (cause n : Nat) (d : Dev) : Dev := (slotFault cause n d).cond (72 ≤ n) openWithdraw

/-! I/O ports (R206 to R211). -/

/-- The trace words that wait, written to the ring while the fabric takes them (R211). -/
def traceFlush : Nat → Dev → Dev
  | 0, d => d
  | n + 1, d =>
    match d.eng.trace with
    | [] => d
    | w :: rest =>
      let pi := d.fg .CLE_TRACE_ST_PI
      let r := d.bufWrite 11 (d.fg .CLE_TRACE_BASE / 16 * 65536 + 16 * pi) (leBytes 16 w.toNat)
      if r.1 then
        traceFlush n ((r.2.onEng fun e => { e with trace := rest }).fs .CLE_TRACE_ST_PI ((pi + 1) % 4096))
      else d

/-- A write to TRACE: with 32 words waiting it is discarded and counted; with TRACE_EN = 0 it is dropped (R211). -/
def traceWrite (w : Word) (d : Dev) : Dev :=
  if !d.is .CLE_CTL_TRACE_EN then d
  else
    let d := traceFlush 33 d
    if 32 ≤ d.eng.trace.length then d.bumpF .CLE_TRACE_ST_DROP
    else traceFlush 33 (d.onEng fun e => { e with trace := e.trace ++ [w] })

/-- A port read of the OPU block at an offset, its island being on. -/
def opuPortRead (opu o : Nat) (d : Dev) : Nat × Dev :=
  if o < 8 then (unsigned 32 (d.spd opu o), d)
  else if o = 13 then (unsigned 32 (d.sldPos opu), d)
  else if o = 14 then (bit (d.inhibited opu), d)
  else if o = 15 then (sparseGet 0 d.eng.therm opu, d)
  else if o = 17 then ((d.rd .RCS_BAND_RES opu).toNat, d)
  else if o = 18 then (sparseGet 0 d.eng.gapT opu, d)
  else if o = 19 then (sparseGet 0 d.eng.wedge opu, d)
  else if 48 ≤ o && o < 60 then
    let k := 12 * opu + (o - 48)
    let v := sparseGet 0 d.eng.mon k
    (v, d.onEng fun e => { e with mon := sparseSet 0 e.mon k (v % 32768) })
  else (0, d)

/-- A read of a spot's servo record port: SERVO_T latches the other three (R207). -/
def spotPortRead (n f : Nat) (d : Dev) : Nat × Dev :=
  if f = 0 then
    let put := fun (l : Sparse Nat) (k : Nat) (r : Reg) => sparseSet 0 l (4 * n + k) (d.rd r n).toNat
    ((d.rd .RCS_SERVO_T n).toNat, d.onEng fun e =>
      { e with spots := put (put (put e.spots 1 .RCS_SERVO_W) 2 .RCS_BURST_AB) 3 .RCS_BURST_CD })
  else (sparseGet 0 d.eng.spots (4 * n + f), d)

/-- A read of an I/O port by a sample (R206, R209). -/
def portRead (s : CleSample) (p : Nat) (d : Dev) : Nat × Dev :=
  if p < 0x300 then
    let opu := if p < 256 then p / 64 else (p - 256) / 128
    if !d.opuPresent opu then (0, d)
    else if d.stage opu != .ready then (0, d.fs .CLE_STAT_ISLAND_OFF 1)
    else if p < 256 then opuPortRead opu (p % 64) d
    else
      let spot := (p - 256) % 128 / 4
      if spot < 24 then spotPortRead (24 * opu + spot) (p % 4) d else (0, d)
  else if p < 0x310 then (spnPort d p, d)
  else if p < 0x320 then ((d.rd .SPN_MBOX (p - 0x310)).toNat, d)
  else if p = 0x340 then (d.fg .CLE_TCNT, d)
  else if p = 0x341 then (s.slot + 256 * s.level, d)
  else if p = 0x342 then (d.qtime % 2 ^ 32, d.onEng fun e => { e with qtimeHi := d.qtime / 2 ^ 32 % 2 ^ 32 })
  else if p = 0x343 then (d.eng.qtimeHi, d)
  else if p = 0x345 then (s.sticky + 256 * s.lanes, d)
  else if 0x380 ≤ p && p < 0x400 then ((d.rd .CLE_MBOX (p - 0x380)).toNat, d)
  else (0, d)

/-- A DAC code as an actuator port takes it: -32,768 acts as -32,767 (Table 6-7). -/
def dacCode (v : Nat) : Nat := if v % 65536 = 32768 then 32769 else v % 65536

/-- A write to the OPU block at an offset, its island being on. -/
def opuPortWrite (opu o v : Nat) (d : Dev) : Dev :=
  if 8 ≤ o && o < 12 then d.setOut (64 * opu + o) (dacCode v)
  else if o = 12 then sledTarget opu true (signed 32 v) (d.sldPos opu) 0 d
  else if o = 14 then d.setInhibit opu (v % 2 == 1)
  else if o = 16 then d.wr .RCS_BAND_BASE (BitVec.ofNat 32 v &&& BitVec.ofNat 32 Reg.RCS_BAND_BASE.rw) opu
  else if 32 ≤ o && o < 44 then d.onWsg opu fun g => { g with cleQueue := g.cleQueue ++ [(o - 32, v % 65536)] }
  else d

/-- Whether software-visible output may be written at a port (Table 6-7). -/
def portWritable (p : Nat) : Bool :=
  if p < 256 then
    let o := p % 64
    (8 ≤ o && o ≤ 12) || o == 14 || o == 16 || (32 ≤ o && o < 44)
  else p == 0x300 || (0x310 ≤ p && p < 0x320) || p == 0x344 || (0x380 ≤ p && p < 0x400)

/-- A write of a lane to an I/O port by slot `n`, `w` being the whole of MSRC (R206, R209, R210). -/
def portWrite (n p v : Nat) (w : Word) (d : Dev) : Dev :=
  if !portWritable p || (p < 256 && !d.opuPresent (p / 64)) then d
  else if p < 256 && d.stage (p / 64) != .ready then d.fs .CLE_STAT_ISLAND_OFF 1
  else
    let d := d.onEng fun e => { e with writer := sparseSet 0 e.writer p (n + 1) }
    if p < 256 then opuPortWrite (p / 64) (p % 64) v d
    else if p = 0x300 then dutyWrite v d
    else if p < 0x320 then d.wr .SPN_MBOX (BitVec.ofNat 32 v) (p - 0x310)
    else if p = 0x344 then traceWrite w d
    else d.wr .CLE_MBOX (BitVec.ofNat 32 v) (p - 0x380)

/-- Whether an open slot may write a port (R231). -/
def openPort (d : Dev) (p : Nat) : Bool :=
  (0x3C0 ≤ p && p < 0x400) || p == 0x344
    || (p < 256 && 8 ≤ p % 64 && p % 64 < 12 && (d.fg .CLE_IOREL_DAC).testBit (4 * (p / 64) + (p % 64 - 8)))
    || (p < 256 && p % 64 == 12 && (d.fg .CLE_IOREL_SLED).testBit (p / 64))
    || (p == 0x300 && d.is .CLE_IOREL_SPN)
    || (p < 256 && 32 ≤ p % 64 && p % 64 < 44 && (d.fg .CLE_IOREL_APC).testBit (p / 64))

/-! Stores (R219, R225, R231). -/

/-- Where a slot's bank lies: bank 0's base and the words of one bank. -/
def slotBank (w : DWord) : Nat × Nat := (bitsOf w.toNat 0 14, bitsOf w.toNat 16 6 + 1)

/-- Where a slot's bank lies by the configuration in force (R238). -/
def Dev.bankOfSlot (d : Dev) (n : Nat) : Nat × Nat := slotBank (if d.started n then (d.slot n).bank else d.rd .SLOT_BANK n)

/-- What a store of a sample does. -/
inductive StoreKind where
  | plain | adaptive | fault
deriving DecidableEq, Repr

/-- A store of a sample to a word of data memory judged. -/
def storeKind (d : Dev) (s : CleSample) (a : Nat) : StoreKind :=
  let opened := 72 ≤ s.slot
  let b := slotBank s.bank
  let act := bit (d.is .SLOT_CTL_ACTIVE s.slot)
  let own := fun (k : Nat) => b.1 + k * b.2 ≤ a && a < b.1 + (k + 1) * b.2
  let other := (List.range 80).any fun n =>
    n != s.slot && d.slotPresent n &&
      (let o := d.bankOfSlot n
       o.1 ≤ a && a < o.1 + 2 * o.2)
  if 0x3FF0 ≤ a && a ≤ 0x3FF5 then .fault
  else if opened && !(0x3000 ≤ a && a ≤ 0x3EFF) then .fault
  else if own act then .adaptive
  else if own (1 - act) || other then .fault
  else .plain

/-! The end of a sample and ticks (R212 to R216, R220). -/

/-- A sample of a slot made ready, at the level of the configuration in force (R238). -/
def makeReady (n tick : Nat) (d : Dev) : Dev :=
  d.onEng fun e => { e with samples := e.samples ++ [{ slot := n, tick := tick, level := bitsOf (d.slot n).cfg.toNat 1 2 }] }

/-- A tick merged into the sample already there; the fourth in a row is an overrun fault (R216, R220). -/
def mergeTick (n : Nat) (d : Dev) : Dev :=
  let c := d.fg .SLOT_STAT_CONSEC n + 1
  let d := d.bumpF .SLOT_CNT_OVR n
  if 4 ≤ c then cleFault 1 n d else d.fs .SLOT_STAT_CONSEC c n

/-- A slot ticks: its own sample becomes ready, or its follower tick waits for the leader's sample; then its followers
count the tick (R213, R216). -/
def tickSlot : Nat → Nat → Nat → Dev → Dev
  | 0, _, _, d => d
  | fuel + 1, n, t, d =>
    let follower := bitsOf (d.slot n).cfg.toNat 5 2 == 1
    let d := if d.hasSample n || (d.slot n).ticked then mergeTick n d
      else
        let d := d.fs .SLOT_STAT_CONSEC 0 n
        if follower then d.onSlot n fun s => { s with ticked := true, tickAt := t } else makeReady n t d
    d.each (List.range 80) fun d m =>
      let c := (d.slot m).cfg.toNat
      if d.started m && bitsOf c 5 2 == 1 && bitsOf c 7 7 == n && m != n then
        let k := (d.slot m).count + 1
        let d := d.onSlot m fun s => { s with count := k % (bitsOf c 14 4 + 1) }
        if k % (bitsOf c 14 4 + 1) = 0 then tickSlot fuel m t d else d
      else d

/-- Whether the engine executes: enabled and not halted. -/
def Dev.engineOn (d : Dev) : Bool := d.is .CLE_CTL_EN && !d.is .CLE_STAT_HALT

/-- CLE_TICK: a started timer slot's tick falls due (R212, R238). -/
def cleTick (n : Nat) (d : Dev) : Dev :=
  let s := d.slot n
  if !d.engineOn || !d.started n || bitsOf s.cfg.toNat 5 2 == 1 then d
  else
    let now := d.fg .CLE_TCNT
    let d := d.cond ((s.due + 2 ^ 32 - now) % 2 ^ 32 < 2 ^ 31) fun d => d.fs .CLE_TCNT s.due
    let per := if s.renew then limitN 200 (2 ^ 20) (d.fg .SLOT_PER_PERIOD n) else s.period
    let ph := if s.renew then d.fg .SLOT_PHASE n % per else s.phase
    let next := if !s.renew then s.since + per else if s.since < ph then ph else ph + ((s.since - ph) / per + 1) * per
    let d := d.onSlot n fun x =>
      { x with due := (s.due + next - s.since) % 2 ^ 32, since := next, period := per, phase := ph, renew := false }
    tickSlot 80 n s.due d

/-- A sample ends by DONE: its flags and length recorded, its followers' ticked samples made ready, each of the age of its tick
(R213, R214). -/
def sampleDone (s : CleSample) (d : Dev) : Dev :=
  let d := (bankSettle s.slot (d.dropSample s.slot)).fs .SLOT_STAT_LFLAGS s.sticky s.slot
  let m := limitN 0 65535 s.cycles
  let d := d.cond (d.fg .SLOT_CNT_MAXCYC s.slot < m) fun d => d.fs .SLOT_CNT_MAXCYC m s.slot
  d.each (List.range 80) fun d n =>
    let x := d.slot n
    d.cond (x.ticked && d.started n && bitsOf x.cfg.toNat 7 7 == s.slot) fun d =>
      makeReady n x.tickAt (d.onSlot n fun y => { y with ticked := false })

/-! Dispatch and micro-traps (R214, R217, R218). -/

/-- Whether one ready sample goes before another: higher level, then older tick, then lower slot (R214). -/
def sampleBefore (now : Nat) (a b : CleSample) : Bool :=
  let age := fun (s : CleSample) => (now + 2 ^ 32 - s.tick) % 2 ^ 32
  if a.level != b.level then a.level < b.level
  else if age a != age b then age b < age a
  else a.slot < b.slot

/-- The ready sample that is dispatched next. -/
def Dev.nextReady (d : Dev) : Option CleSample :=
  (d.eng.samples.filter fun s => s.phase = .ready).foldl (fun r s => match r with
    | none => some s
    | some t => if sampleBefore (d.fg .CLE_TCNT) s t then some s else some t) none

/-- A sample dispatched with its initial state; an open slot at level 0 or 1 faults instead (R214, R223, R231, R238). -/
def dispatch (s : CleSample) (d : Dev) : Dev :=
  let n := s.slot
  let d := d.cond (d.is .SLOT_CTL_PENDING n) (bankTake n)
  let cfg := d.rd .SLOT_CFG n
  let bank := d.rd .SLOT_BANK n
  if 72 ≤ n && d.fg .SLOT_CFG_PRIO n < 2 then cleFault 4 n d
  else
    let t := d.fg .CLE_TCNT
    let run : CleSample := { s with
      phase := .running, level := d.fg .SLOT_CFG_PRIO n, pc := d.fg .SLOT_ENTRY_ENTRY n, stack := []
      areg := [d.bankBase n % 16384, d.fg .SLOT_ENTRY_STATE n, n, 0, 0, 0, 0, 0], sticky := 0, lanes := 0, stores := 0
      satm := d.is .SLOT_CFG_SATM n, ftz := d.is .SLOT_CFG_FTZ n, tcnt := t, cycles := 0, fresh := (d.slot n).fresh
      cfg := cfg, bank := bank }
    ((d.setSample run).onSlot n fun x => { x with fresh := false, cfg := cfg, bank := bank }).clocks 4

/-- The two words of a trap frame (Table 6-9). -/
def trapFrame (s : CleSample) : Nat × Nat :=
  let st := s.stack.reverse
  let w0 := s.pc + s.stack.length <<< 14 + st.getD 0 0 <<< 16 + st.getD 1 0 <<< 32 + s.slot <<< 48
    + s.sticky <<< 56 + s.lanes <<< 64 + s.stores <<< 68 + bit s.satm <<< 70 + bit s.ftz <<< 71 + s.tcnt <<< 96
  (w0, ((List.range 8).map fun k => (s.areg.getD k 0) <<< (16 * k)).sum)

/-- The word address of a level's trap frame (Table 6-6). -/
def frameAddr (level : Nat) : Nat := 0x3FF0 + 2 * (level - 1)

/-- The running sample suspended: its frame written, in 3 clocks (R217). -/
def trapEnter (s : CleSample) (d : Dev) : Dev :=
  let f := trapFrame s
  let d := (d.putDm (frameAddr s.level) (BitVec.ofNat 128 f.1)).putDm (frameAddr s.level + 1) (BitVec.ofNat 128 f.2)
  (d.setSample { s with phase := .suspended }).clocks 3

/-- SAMPLE_RESUME: the sample of the highest suspended level goes on from its frame, unless a ready sample of a higher
level waits (R217). -/
def sampleResume (d : Dev) : Dev :=
  let sus := d.eng.samples.filter fun s => s.phase = .suspended
  match sus.foldl (fun (r : Option CleSample) s => match r with
      | none => some s
      | some t => if s.level < t.level then some s else some t) none with
  | none => d
  | some s =>
    if !d.engineOn || d.runningSample.isSome || (match d.nextReady with | some r => r.level < s.level | none => false) then d
    else
      let w := (d.dmWord (frameAddr s.level)).toNat
      let a := (d.dmWord (frameAddr s.level + 1)).toNat
      let depth := limitN 0 2 (bitsOf w 14 2)
      let stack := (([bitsOf w 16 14, bitsOf w 32 14].take depth)).reverse
      (d.setSample { s with
        phase := .running, pc := bitsOf w 0 14, stack := stack, sticky := bitsOf w 56 7, lanes := bitsOf w 64 4
        stores := bitsOf w 68 2, satm := w.testBit 70, ftz := w.testBit 71, tcnt := bitsOf w 96 32
        areg := (List.range 8).map fun k => bitsOf a (16 * k) 14 }).clocks 3

/-! Microword execution (R199 to R203). -/

/-- A vector register of a level. -/
def Dev.vreg (d : Dev) (level r : Nat) : Word := sparseGet 0#128 d.eng.vregs (16 * level + r)

/-- The unit with a vector register written. -/
def Dev.setVreg (d : Dev) (level r : Nat) (w : Word) : Dev :=
  d.onEng fun e => { e with vregs := sparseSet 0#128 e.vregs (16 * level + r) w }

/-- A word with one value in every lane. -/
def splat (v : Nat) : Word := BitVec.ofNat 128 (((List.range 4).map fun l => (v % 2 ^ 32) <<< (32 * l)).sum)

/-- A source of a microword (Table 6-3); MEM without a load and IO without a read are free values. -/
def mwSource (d : Dev) (s : CleSample) (w : Word) (io : Nat) (code : Nat) : Word :=
  let mem := (s.areg.getD (mwField w 88 3) 0 + mwField w 76 12) % 16384
  if code < 16 then d.vreg s.level code
  else if code = 16 then
    if mwMop w = 1 then d.dmWord mem else BitVec.ofNat 128 (d.freeNat (2 ^ 128))
  else if code = 17 then
    if mwIop w = 1 then BitVec.ofNat 128 (io <<< (32 * mwField w 58 2)) else BitVec.ofNat 128 (d.freeNat (2 ^ 128))
  else if code = 19 then splat fOne
  else if code = 20 then splat (mwField w 0 32)
  else 0#128

/-- SRCB arranged by SWZ and SWL (Table 6-2). -/
def swizzle (swz swl : Nat) (w : Word) : List Nat :=
  (List.range 4).map fun l => match swz with
    | 1 => laneOf w swl
    | 2 => laneOf w ((l + swl) % 4)
    | 3 => laneOf w (3 - l)
    | _ => laneOf w l

/-- COND of Table 6-5, on the flags and address registers that the microword leaves. -/
def condHolds (s : CleSample) (cond areg : Nat) : Bool :=
  match cond with
  | 0 => true
  | 1 => s.lanes.testBit 0
  | 2 => !s.lanes.testBit 0
  | 3 => s.lanes != 0
  | 4 => s.lanes == 15
  | 5 => s.lanes == 0
  | 6 => s.sticky &&& fNV != 0
  | 7 => s.sticky &&& (fOF + fSAT) != 0
  | 8 => s.areg.getD areg 0 == 0
  | 9 => s.areg.getD areg 0 != 0
  | 10 => s.fresh
  | _ => false

/-- The results of an operation in the four lanes. -/
def mwResults (op : CleOp) (m : FMode) (lanes : Nat) (a : Word) (b : List Nat) (c : Word) : List LaneResult :=
  if op = .hsum then List.replicate 4 (hsum m ((List.range 4).map (laneOf a)))
  else (List.range 4).map fun l => laneOp op m (lanes.testBit l) (laneOf a l) (b.getD l 0) (laneOf c l)

/-- The causes for which a microword is not executed (R201, R202, R219, R225, R231), checked before any effect. -/
def mwFault (d : Dev) (s : CleSample) (w : Word) : Option Nat :=
  let opened := 72 ≤ s.slot
  let mem := (s.areg.getD (mwField w 88 3) 0 + mwField w 76 12) % 16384
  if opened != decide (0x3000 ≤ s.pc) then some 4
  else if mwReserved w then some 2
  else if mwClocks w < mwMin w then some 3
  else if mwMop w = 1 && opened && !(0x3000 ≤ mem && mem ≤ 0x3EFF) then some 4
  else if 2 ≤ mwMop w && storeKind d s mem = .fault then some 4
  else if mwIop w = 2 && opened && !openPort d (mwField w 60 10) then some 4
  else if mwSeq w = 3 && 2 ≤ s.stack.length then some 5
  else if mwSeq w = 4 && s.stack.isEmpty then some 5
  else none

/-- The effects of a microword that no fault stops (R200). -/
def mwExecute (op : CleOp) (s : CleSample) (w : Word) (d : Dev) : Dev :=
  let mem := (s.areg.getD (mwField w 88 3) 0 + mwField w 76 12) % 16384
  let port := mwField w 60 10
  let lane := mwField w 58 2
  let mask := mwField w 116 4
  let ior := if mwIop w = 1 then portRead s port d else (0, d)
  let d := ior.2
  let src := mwSources w
  let a := mwSource d s w ior.1 (src.getD 0 0)
  let b := swizzle (mwField w 95 2) (mwField w 93 2) (mwSource d s w ior.1 (src.getD 1 0))
  let c := mwSource d s w ior.1 (src.getD 2 0)
  let free := (src.contains 16 && mwMop w != 1) || (src.contains 17 && mwIop w != 1)
  let msrc := d.vreg s.level (mwField w 72 4)
  let d := d.cond free Dev.drew
  let res := mwResults op { satm := s.satm, ftz := s.ftz } s.lanes a b c
  let sticky := res.foldl (fun f r => f ||| r.flags) s.sticky
  let cmp := (res.headD {}).cmp.isSome
  let lanes := if cmp then ((res.zip (List.range 4)).map fun p => bit (p.1.cmp == some true) <<< p.2).sum else s.lanes
  let dst := mwField w 112 4
  let old := d.vreg s.level dst
  let new := (List.range 4).foldl (fun x l => if mask.testBit l then putLane x l (res.getD l {}).val else x) old
  let d := d.cond (op != .nop) fun d => d.setVreg s.level dst new
  let kind := if 2 ≤ mwMop w then storeKind d s mem else .plain
  let full := kind = .adaptive && bitsOf s.cfg.toNat 18 2 ≤ s.stores
  let word := if mwMop w = 2 then msrc
    else (List.range 4).foldl (fun x l => if mask.testBit l then putLane x l (laneOf msrc l) else x) (d.dmWord mem)
  let d := d.cond (2 ≤ mwMop w && !full) fun d => d.putDm mem word
  let d := d.cond full fun d => d.fs .SLOT_STAT_ADAPT_OVF 1 s.slot
  let d := d.cond (mwIop w == 2) (portWrite s.slot port (laneOf msrc lane) msrc)
  let ar := mwField w 32 3
  let imm := mwField w 0 14
  let areg := match mwField w 35 2 with
    | 1 => setAt s.areg ar imm
    | 2 => setAt s.areg ar ((s.areg.getD ar 0 + imm) % 16384)
    | 3 => setAt s.areg ar (laneOf a 0 % 16384)
    | _ => s.areg
  let s : CleSample := { s with
    sticky := if full then sticky ||| fAOV else sticky, lanes := lanes, areg := areg
    stores := if kind = .adaptive && !full then s.stores + 1 else s.stores, cycles := s.cycles + mwClocks w }
  let next := (s.pc + 1) % 16384
  let d := d.clocks (mwClocks w)
  match mwSeq w with
  | 1 => d.setSample { s with pc := mwTarget w }
  | 2 => d.setSample { s with pc := if condHolds s (mwField w 51 4) ar then mwTarget w else next }
  | 3 => d.setSample { s with pc := mwTarget w, stack := next :: s.stack }
  | 4 => d.setSample { s with pc := s.stack.headD 0, stack := s.stack.drop 1 }
  | 5 => sampleDone s d
  | 6 => postEvent (mwTarget w % 256) s.slot false (d.setSample { s with pc := next })
  | _ => d.setSample { s with pc := next }

/-- The microword at the running sample's PC, when it carries the operation named; a microword with a reserved OP is
taken up under NOP and found illegal (R200, R201). -/
def microword (op : CleOp) (d : Dev) : Dev :=
  match d.runningSample with
  | none => d
  | some s =>
    let w := sparseGet 0#128 d.eng.cs s.pc
    let mine := match cleOps[mwOp w]? with
      | some o => o = op
      | none => op = .nop
    if !d.engineOn || !mine then d
    else match mwFault d s w with
      | some cause => cleFault cause s.slot d
      | none => mwExecute op s w d

/-! Halt, banks, and the register-bus ports of the memories. -/

/-- The open slots. -/
def openSlotsAll : List Nat := (List.range 8).map (72 + ·)

/-- CLE_HALT: an uncorrectable memory error or an unreadable trap frame; every started slot faults with cause 6, nothing
runs until reset, and the unit is FROZEN (R222). -/
def cleHalt (d : Dev) : Dev :=
  if d.is .CLE_STAT_HALT then d
  else
    let d := d.fs .CLE_STAT_HALT 1
    let opened := (openSlotsAll.any d.started)
    let d := d.each (List.range 80) fun d n => d.cond (d.started n) (slotFault 6 n)
    let d := d.cond opened openWithdraw
    frozenEntry 4 (d.onEng fun e => { e with samples := [] })

/-- FROZEN_ENTRY: an engine reports a fault that its own recovery cannot clear (R18). -/
def engineFault (k : Nat) (d : Dev) : Dev :=
  match k with
  | 0 => frozenEntry 2 (d.fs .SDE_STAT_FAULT 1)
  | 1 => frozenEntry 3 (d.fs .WSG_STAT_ENC_FAULT 1)
  | 2 => cleHalt d
  | 3 => frozenEntry 5 (d.fs .PXE_STAT_FAULT 1)
  | 4 => frozenEntry 6 (d.fs .FIX_STAT_FAULT 1)
  | _ => frozenEntry 7 (d.fs .FBC_STAT_FAULT 1)

/-- Whether a register-bus write to a data memory word is refused: the active bank of a started slot, or either bank of a
slot whose swap is pending (R224). -/
def dmRefused (d : Dev) (a : Nat) : Bool :=
  (List.range 80).any fun n =>
    let b := d.bankOfSlot n
    let act := d.fg .SLOT_CTL_ACTIVE n
    (d.started n && b.1 + act * b.2 ≤ a && a < b.1 + (act + 1) * b.2)
      || (d.is .SLOT_CTL_PENDING n && b.1 ≤ a && a < b.1 + 2 * b.2)

/-- The word of data memory or of the control store at its ADDR taken for reading: at a write of ADDR, a read of DATA0 and a commit
(R205). Which access takes it is notes/assumptions/132.md. -/
def wordTake (dm : Bool) (d : Dev) : Dev :=
  if dm then d.onEng fun e => { e with dmRead := d.dmWord (d.fg .CLE_DM_ADDR) }
  else d.onEng fun e => { e with csRead := sparseGet 0#128 e.cs (d.fg .CLE_CS_ADDR) }

/-- The word staged in four DATA registers. -/
def stagedWord (d : Dev) (r : Reg) : Word :=
  BitVec.ofNat 128 (((List.range 4).map fun k => (d.rd r k).toNat <<< (32 * k)).sum)

/-- DM_COMMIT: the write to CLE_DM_DATA3 commits the staged word (R205, R224). -/
def dmCommit (v : DWord) (d : Dev) : Dev :=
  let d := d.wr .CLE_DM_DATA v 3
  let a := d.fg .CLE_DM_ADDR
  wordTake true (if dmRefused d a then d.fs .CLE_STAT_REFUSE 1 else d.putDm a (stagedWord d .CLE_DM_DATA))

/-- Whether an open slot is enabled (CLE_STAT.CS_BUSY). -/
def Dev.csBusy (d : Dev) : Bool := (List.range 8).any fun i => d.is .SLOT_CFG_EN (72 + i)

/-- The unit with a word of the control store written. -/
def Dev.putCs (d : Dev) (a : Nat) (w : Word) : Dev :=
  d.onEng fun e => { e with cs := sparseSet 0#128 e.cs (a % 16384) w }

/-- CS_COMMIT: the write to CLE_CS_DATA3 commits the staged word (R233). -/
def csCommit (v : DWord) (d : Dev) : Dev :=
  let d := d.wr .CLE_CS_DATA v 3
  let a := d.fg .CLE_CS_ADDR
  wordTake false (if (a < 0x3000 && d.is .CLE_CTL_CS_LOCK) || (0x3000 ≤ a && d.csBusy) then d.fs .CLE_STAT_REFUSE 1
    else d.putCs a (stagedWord d .CLE_CS_DATA))

/-- CLE_EVT_READ: the oldest event returned and removed; zero when there is none (R203). The CLE interrupt stands until the FIFO is
empty: DESIGN CHOICE (notes/assumptions/131.md). -/
def evtRead (d : Dev) : Dev :=
  match d.eng.events with
  | [] => { d with answer := leBytes 4 0 }
  | e :: rest =>
    { (d.onEng fun x => { x with events := rest, irq := !rest.isEmpty }) with
      answer := leBytes 4 (e.code + e.slot <<< 8 + bit e.fault <<< 15 + 1 <<< 16) }

/-- The WCET that the loaded image declares for an open slot (Table 6-11). -/
def declaredWcet (d : Dev) (i : Nat) : Nat := getField d.fw.quejo (32 + 12 * i + 2) 2

/-- OPEN_SLOT_AUDIT: firmware stops every open slot whose longest sample exceeds its declared WCET, with ATTN 8 and an
event, and withdraws the release (R232, R235). -/
def openSlotAudit (d : Dev) : Dev :=
  d.each (List.range 8) fun d i =>
    let n := 72 + i
    d.cond (d.is .SLOT_CFG_EN n && i < getField d.fw.quejo 10 1 && declaredWcet d i < d.fg .SLOT_CNT_MAXCYC n) fun d =>
      openWithdraw (((slotStop n d).attn 8).event { code := 0x7001, src := n })

/-! The effects of the commands. -/

/-- FROZEN_ENTRY (R18). -/
def execFrozenEntry (engine : Fin 6) (s : State) : Host.Outcome State Fault Refusal := s.onDev (engineFault engine)

/-- CLE_GO (R212). -/
def execCleGo (s : State) : Host.Outcome State Fault Refusal := s.onDev cleGo

/-- SLOT_DISABLE (R212). -/
def execSlotDisable (slot : Fin 80) (s : State) : Host.Outcome State Fault Refusal := s.onDev (slotDisable slot)

/-- CLE_TICK (R212). -/
def execCleTick (slot : Fin 80) (s : State) : Host.Outcome State Fault Refusal := s.onDev (cleTick slot)

/-- SAMPLE_RESUME (R217). -/
def execSampleResume (s : State) : Host.Outcome State Fault Refusal := s.onDev sampleResume

/-- CLE_HALT (R222). -/
def execCleHalt (s : State) : Host.Outcome State Fault Refusal := s.onDev cleHalt

/-- SWAP (R223). -/
def execSwap (slot : Fin 80) (s : State) : Host.Outcome State Fault Refusal := s.onDev (swapWrite slot)

/-- DM_COMMIT (R205). -/
def execDmCommit (val : DWord) (s : State) : Host.Outcome State Fault Refusal := s.onDev (dmCommit val)

/-- CS_COMMIT (R233). -/
def execCsCommit (val : DWord) (s : State) : Host.Outcome State Fault Refusal := s.onDev (csCommit val)

/-- CLE_EVT_READ (R203). -/
def execCleEvtRead (s : State) : Host.Outcome State Fault Refusal := s.onDev evtRead

/-- OPEN_SLOT_AUDIT (R235). -/
def execOpenSlotAudit (s : State) : Host.Outcome State Fault Refusal := s.onDev openSlotAudit

/-- NOP (R200). -/
def execNop (s : State) : Host.Outcome State Fault Refusal := s.onDev (microword .nop)

/-- MOV (R200). -/
def execMov (s : State) : Host.Outcome State Fault Refusal := s.onDev (microword .mov)

/-- ADD (R227). -/
def execAdd (s : State) : Host.Outcome State Fault Refusal := s.onDev (microword .add)

/-- SUB (R227). -/
def execSub (s : State) : Host.Outcome State Fault Refusal := s.onDev (microword .sub)

/-- MUL (R227). -/
def execMul (s : State) : Host.Outcome State Fault Refusal := s.onDev (microword .mul)

/-- FMA (R227). -/
def execFma (s : State) : Host.Outcome State Fault Refusal := s.onDev (microword .fma)

/-- FNMA (R227). -/
def execFnma (s : State) : Host.Outcome State Fault Refusal := s.onDev (microword .fnma)

/-- DIV (R227). -/
def execDiv (s : State) : Host.Outcome State Fault Refusal := s.onDev (microword .div)

/-- SQRT (R227). -/
def execSqrt (s : State) : Host.Outcome State Fault Refusal := s.onDev (microword .sqrt)

/-- MIN (R227). -/
def execMin (s : State) : Host.Outcome State Fault Refusal := s.onDev (microword .min)

/-- MAX (R227). -/
def execMax (s : State) : Host.Outcome State Fault Refusal := s.onDev (microword .max)

/-- ABS (R200). -/
def execAbs (s : State) : Host.Outcome State Fault Refusal := s.onDev (microword .abs)

/-- NEG (R200). -/
def execNeg (s : State) : Host.Outcome State Fault Refusal := s.onDev (microword .neg)

/-- CLE_CLAMP (R200). -/
def execCleClamp (s : State) : Host.Outcome State Fault Refusal := s.onDev (microword .clamp)

/-- CMPLT (R227). -/
def execCmplt (s : State) : Host.Outcome State Fault Refusal := s.onDev (microword .cmplt)

/-- CMPLE (R227). -/
def execCmple (s : State) : Host.Outcome State Fault Refusal := s.onDev (microword .cmple)

/-- CMPEQ (R227). -/
def execCmpeq (s : State) : Host.Outcome State Fault Refusal := s.onDev (microword .cmpeq)

/-- SEL (R200). -/
def execSel (s : State) : Host.Outcome State Fault Refusal := s.onDev (microword .sel)

/-- HSUM (R227). -/
def execHsum (s : State) : Host.Outcome State Fault Refusal := s.onDev (microword .hsum)

/-- CVF (R227). -/
def execCvf (s : State) : Host.Outcome State Fault Refusal := s.onDev (microword .cvf)

/-- CVI (R228). -/
def execCvi (s : State) : Host.Outcome State Fault Refusal := s.onDev (microword .cvi)

/-- CVD (R228). -/
def execCvd (s : State) : Host.Outcome State Fault Refusal := s.onDev (microword .cvd)

/-- IADD (R200). -/
def execIadd (s : State) : Host.Outcome State Fault Refusal := s.onDev (microword .iadd)

/-- AND (R200). -/
def execAnd (s : State) : Host.Outcome State Fault Refusal := s.onDev (microword .and)

/-- OR (R200). -/
def execOr (s : State) : Host.Outcome State Fault Refusal := s.onDev (microword .or)

/-- XOR (R200). -/
def execXor (s : State) : Host.Outcome State Fault Refusal := s.onDev (microword .xor)

/-- SHR (R200). -/
def execShr (s : State) : Host.Outcome State Fault Refusal := s.onDev (microword .shr)

/-- SHL (R200). -/
def execShl (s : State) : Host.Outcome State Fault Refusal := s.onDev (microword .shl)

end Sys2Proof.Machine
end

