-- ==== Sys2Proof/Machine/Loops.lean ====
section
/-!
DEFINITION. The laws of the loops of firmware release F3.1 (07_optical_servo.md R240 to R253, 08_spindle.md R290 to
R293), their coefficient banks, and the dispatch of samples. A sample of one of these loops has its law's whole effect at
its dispatch; the microcode that firmware holds at its entry then ends it.
-/

namespace Sys2Proof.Machine

/-! Binary32 as F3.1's loops use it: SATM = 1, FTZ = 0 (R215). -/

/-- The arithmetic mode of F3.1's loops. -/
def lm : FMode := { satm := true }
/-- a + b. -/
def bAdd (a b : Nat) : Nat := (laneOp .add lm false a b 0).val
/-- a - b. -/
def bSub (a b : Nat) : Nat := (laneOp .sub lm false a b 0).val
/-- a × b. -/
def bMul (a b : Nat) : Nat := (laneOp .mul lm false a b 0).val
/-- a ÷ b. -/
def bDiv (a b : Nat) : Nat := (laneOp .div lm false a b 0).val
/-- The larger of two values. -/
def bMax (a b : Nat) : Nat := (laneOp .max lm false a b 0).val
/-- The smaller of two values. -/
def bMin (a b : Nat) : Nat := (laneOp .min lm false a b 0).val
/-- The square root. -/
def bSqrt (a : Nat) : Nat := (laneOp .sqrt lm false a 0 0).val
/-- The absolute value. -/
def bAbs (a : Nat) : Nat := a % 2 ^ 31
/-- a limited to the range from `lo` to `hi`. -/
def bClamp (a lo hi : Nat) : Nat := bMin (bMax a lo) hi
/-- Whether a < b. -/
def bLt (a b : Nat) : Bool := fKey a < fKey b
/-- An integer as binary32. -/
def bInt (z : Int) : Nat := (fromInteger (unsigned 32 z)).1
/-- A binary32 value as the nearest integer (CVI). -/
def bRound (a : Nat) : Int := signed 32 (laneOp .cvi lm false a 0 0).val
/-- A binary32 value times another as a code limited to ± 32,767 (CVD). -/
def bCode (a b : Nat) : Int := signed 32 (laneOp .cvd lm false a b 0).val
/-- The binary32 value nearest to n ÷ m. -/
def bRat (n : Int) (m : Nat) : Nat :=
  if n = 0 then 0
  else
    let p := n.natAbs <<< 64
    (fRound {} (n < 0) (2 * (p / m) + bit (p % m != 0)) (-65)).1

/-- 2π. -/
def bTwoPi : Nat := 0x40C90FDB
/-- Nanometres of the TRK actuator per code (Table 7-3). -/
def trkNm : Nat := bRat 3 2
/-- The track pitch in nanometres. -/
def pitchNm : Nat := bRat 225 1

/-! Coefficient banks (R245, R246, Table 7-6). -/

/-- Lane `l` of word `k` of the bank that a slot's samples use. -/
def Dev.bw (d : Dev) (n k l : Nat) : Nat := laneOf (d.dmWord (d.bankBase n + k)) l

/-- A word of four lanes. -/
def lanes4 (a b c e : Nat) : Word :=
  BitVec.ofNat 128 (a % 2 ^ 32 + (b % 2 ^ 32) <<< 32 + (c % 2 ^ 32) <<< 64 + (e % 2 ^ 32) <<< 96)

/-- The first six words of a FOC or TRK bank by the formulas of R244, with sample period 5 µs: crossover, lead ratio,
integrator corner, notch frequency and radius, gain; the second integrator; error scale, hold threshold and limits. -/
def servoBank (fc al fi fn r k : Nat) (dbl : Bool) (w4 : Word) : List Word :=
  let ts := bRat 5 1000000
  let w2 := bMul (bMul bTwoPi fc) ts
  let c := bCos (bMul (bMul bTwoPi fn) ts)
  let zl := bExpNeg (bDiv w2 (bSqrt al))
  let pl := bExpNeg (bMul w2 (bSqrt al))
  let nd := bDiv (bAdd (bSub fOne (bMul (bMul (bRat 2 1) r) c)) (bMul r r)) (bSub (bRat 2 1) (bMul (bRat 2 1) c))
  [lanes4 fOne 0 0 0, lanes4 c r nd 0, lanes4 k (bMul (bMul bTwoPi fi) ts) (if dbl then w2 else 0) 0,
   lanes4 (bDiv (bSub fOne pl) (bSub fOne zl)) zl pl 0, w4, lanes4 (unsigned 32 (-32767)) 32767 40 0]

/-- A field of the servo page of an OPU (Table 15-9). -/
def Dev.servoPar (d : Dev) (opu off : Nat) : Nat := d.pageVal 3 opu off 4

/-- A field of the spindle page (Table 15-9). -/
def Dev.spnPar (d : Dev) (off : Nat) : Nat := d.pageVal 4 0 off 4

/-- The reference beam of an APC loop: TARGET is what OPC has set (R194). -/
def Dev.apcTarget (d : Dev) (beam : Nat) : Nat := laneOf (d.dmWord (d.nextBank (9 + beam))) 0

/-- The bank of a slot that firmware computes from the pages in force (R245, R250 to R252, R292). -/
def bankOf (d : Dev) : LoopKind → List Word
  | .foc o => servoBank (d.servoPar o 8) (d.servoPar o 12) (d.servoPar o 16) (d.servoPar o 20) (d.servoPar o 24)
      (d.servoPar o 28) false (lanes4 (bRat 400 1) (bRat 60 100) (bRat 60 1) (bRat 200 1))
  | .trk o => servoBank (d.servoPar o 32) (d.servoPar o 36) (d.servoPar o 40) (d.servoPar o 44) (d.servoPar o 48)
      (d.servoPar o 52) true (lanes4 pitchNm 0 (bRat 34 1) (bRat 79 1)) ++
      [lanes4 11 12 0 0, lanes4 (bMul bTwoPi (bRat 6500 1)) 0 0 0, lanes4 (bRat 1 10) 0 0 0,
       lanes4 (d.servoPar o 56) (d.servoPar o 60) 0 0]
  | .tlt o =>
    let k := bDiv (bMul (bMul bTwoPi (d.servoPar o 64)) (bRat 50 1000000)) (bRat 153 10000)
    [lanes4 fOne 0 0 0, lanes4 0 0 0 0, lanes4 k fOne 0 0, lanes4 0 0 0 0, lanes4 (bRat 500 1) (bRat 1 16) 0 0,
     lanes4 (unsigned 32 (-32767)) 32767 40 0]
  | .slc o => [lanes4 (d.servoPar o 68) (bRat 9375 100) (d.servoPar o 72) (d.servoPar o 76)]
  | .sac _ => (List.range 16).map fun k => lanes4 (unsigned 32 (-14000 + 4000 * ((k % 8 : Nat) : Int))) 0 0 0
  | .apc b => [lanes4 (d.apcTarget b) Config.apcBank.1 Config.apcBank.2.1 Config.apcBank.2.2]
  | .spc => [lanes4 (d.spnPar 8) (d.spnPar 12) (d.spnPar 16) (d.spnPar 20),
      lanes4 (bRat 3 1) (bRat 6 1) (bRat 2 10) (d.spnPar 40)]
  | .sps => [lanes4 (d.spnPar 24) (d.spnPar 28) (d.spnPar 32) 0, lanes4 (d.spnPar 36) (d.spnPar 40) 0 0]
  | .wmk => [lanes4 (d.spnPar 44) (d.spnPar 48) (d.spnPar 52) (d.spnPar 56)]
  | .service | .opened => []

/-- The banks of a set of slots loaded from the pages in force. -/
def loadBanks (l : List Nat) (d : Dev) : Dev :=
  d.each l fun d n => d.cond (d.slotPresent n) fun d => loadBank n (bankOf d (slotKind n)) d

/-! Error signals (Table 7-2). -/

/-- SUM_REF of the side and layer an OPU has confirmed; 16,384 before the first measurement (R240). -/
def Dev.sumRefOf (d : Dev) (opu : Nat) : Nat := sparseGet 16384 d.sumRef (8 * d.sv opu svSide + d.sv opu svLayer)

/-- SUM (Table 7-2). -/
def Dev.spdSum (d : Dev) (opu : Nat) : Int := d.spd opu 0 + d.spd opu 1 + d.spd opu 2 + d.spd opu 3

/-- FE in nanometres (Table 7-2). -/
def Dev.focError (d : Dev) (opu : Nat) : Nat :=
  let diff := (d.spd opu 0 + d.spd opu 2) - (d.spd opu 1 + d.spd opu 3)
  let den := bMax (bInt (d.spdSum opu)) (bDiv (bInt (d.sumRefOf opu)) (bRat 16 1))
  bSub (bMul (bDiv (bInt diff) den) (d.bw opu 4 0)) (d.servo opu).focOfs

/-- Whether SUM lies below a fraction of SUM_REF. -/
def Dev.sumBelow (d : Dev) (opu frac : Nat) : Bool := bLt (bInt (d.spdSum opu)) (bMul frac (bInt (d.sumRefOf opu)))

/-- TLE in millidegrees (Table 7-2). -/
def Dev.tiltError (d : Dev) (opu : Nat) : Nat :=
  let part := fun i => bDiv (bInt (d.spd opu (i + 1) - d.spd opu i)) (bMax (bInt (d.spd opu i + d.spd opu (i + 1))) fOne)
  bMul (bSub (part 6) (part 4)) (d.bw (57 + opu) 4 0)

/-- The track that a record reads, with the parity of its bursts (R241). -/
def spotTrack (d : Dev) (rcs : Nat) : Option Nat :=
  if !d.is .RCS_SERVO_T_TVALID rcs || (d.slice rcs).recMarked then none
  else
    let odd := d.fg .RCS_BURST_CD_C rcs < d.fg .RCS_BURST_CD_D rcs
    let t := d.fg .RCS_SERVO_T_TRACK rcs
    if d.is .RCS_SERVO_T_AMBIG rcs && (t % 2 == 1) != odd then some (t + 1) else some t

/-- TE of a spot in nanometres, where its record gives a position (R241). -/
def Dev.trkError (d : Dev) (opu spot : Nat) : Option Nat :=
  let rcs := 24 * opu + spot
  let a := d.fg .RCS_BURST_AB_A rcs
  let b := d.fg .RCS_BURST_AB_B rcs
  match spotTrack d rcs with
  | none => none
  | some t =>
    if a + b < Config.burstMin then none
    else
      let odd := d.fg .RCS_BURST_CD_C rcs < d.fg .RCS_BURST_CD_D rcs
      let diff : Int := if odd then (b : Int) - a else (a : Int) - b
      let x := bDiv (bInt diff) (bMul (bRat 2 1) (bInt (a + b : Nat)))
      let p := bSub (bAdd (bInt t) x) (bInt (d.fg .RCS_BAND_BASE_TRACK opu + spot : Nat))
      some (bSub (bMul (d.bw (4 + opu) 4 0) p) (d.servo opu).trkOfs)

/-- The mean of the valid errors of the two TRK spots, or the one valid error (R247). -/
def Dev.trkMeasure (d : Dev) (opu : Nat) : Option Nat :=
  match [d.bw (4 + opu) 6 0, d.bw (4 + opu) 6 1].filterMap (d.trkError opu) with
  | [a, b] => some (bMul (bRat 1 2) (bAdd a b))
  | [a] => some a
  | _ => none

/-! The controller of R244. -/

/-- One sample of the controller: `e` the scaled error, `uff` the feed-forward in codes, `pure` for TLT's pure integral.
A stage whose coefficients are zero is bypassed; while `still` counts, the integrators stay as they are. -/
def control (d : Dev) (n e uff : Nat) (hold pure : Bool) (x : LoopVars) : LoopVars :=
  let bw := d.bw n
  let out := fun (u : Nat) => limitI (signed 32 (bw 5 0)) (signed 32 (bw 5 1)) (bCode (bAdd u uff) fOne)
  if hold then { x with code := out x.u, still := x.still - 1 }
  else
    let frozen := 0 < x.still
    let i1 := if frozen then x.i1 else bAdd x.i1 (bMul (bw 2 1) e)
    let v := if pure then i1 else bAdd e i1
    let dbl := bw 2 2 != 0
    let i2 := if dbl && !frozen then bAdd x.i2 (bMul (bw 2 2) v) else x.i2
    let v := if dbl then i2 else v
    let l := if bw 3 0 = 0 then v
      else bAdd (bMul (bw 3 0) (bSub v (bMul (bw 3 1) x.v))) (bMul (bw 3 2) x.l1)
    let c := bw 1 0
    let r := bw 1 1
    let two := bRat 2 1
    let nn := if bw 1 2 = 0 then l
      else bSub (bAdd (bMul (bw 1 2) (bAdd (bSub l (bMul (bMul two c) x.l1)) x.l2)) (bMul (bMul (bMul two r) c) x.n1))
        (bMul (bMul r r) x.n2)
    let u := bMul (bMul (bw 0 0) (bw 2 0)) nn
    { x with i1 := i1, i2 := i2, v := v, l1 := l, l2 := x.l1, n1 := nn, n2 := x.n1, u := u, code := out u
             still := x.still - 1 }

/-- An adaptive store of a loop's sample into a word of its active bank: one beyond SLOT_CFG.AW is discarded, and counted as such
(R225). -/
def adaptStore (n k : Nat) (w : Word) (d : Dev) : Dev :=
  match d.runningSample with
  | none => d
  | some s =>
    if s.slot != n then d
    else if bitsOf s.cfg.toNat 18 2 ≤ s.stores then (d.setSample { s with sticky := s.sticky ||| fAOV }).fs .SLOT_STAT_ADAPT_OVF 1 n
    else (d.putDm (d.bankBase n + k) w).setSample { s with stores := s.stores + 1 }

/-- One adaptive store of FOC or TRK at most, to kn or to c of the active bank: a free value, which moves the word by at
most 2^-6 of its value (R226, R246). -/
def adapt (n : Nat) (d : Dev) : Dev :=
  let r := d.freeNat (3 * (2 ^ 17 + 1))
  let d := d.drew
  let k := r % 3
  if k = 2 then d
  else
    let w := d.dmWord (d.bankBase n + k)
    let f := bRat (2 ^ 22 + ((r / 3 : Nat) : Int) - 2 ^ 16) (2 ^ 22)
    adaptStore n k (putLane w 0 (bMul (laneOf w 0) f)) d

/-- A code sent to an output port of an OPU by a slot. -/
def sendCode (n opu o : Nat) (code : Int) (d : Dev) : Dev := portWrite n (64 * opu + o) (unsigned 32 code) 0#128 d

/-! FOC (R244, R257, R259). -/

/-- Closing the loop: the integrator held for 2 ms. -/
def focClose (s : Servo) : Servo := { s with focus := .closed, foc := { s.foc with still := 400 }, kicks := 0 }

/-- FOC's largest kick, in codes (Table 7-9). -/
def kickCode : Nat := bRat 20000 1

/-- The codes of a focus sweep: the whole range (R257), or after a loss of focus 20 µm to either side of the held code, at
15.26 nm per code (Tables 7-3 and 7-10). -/
def sweepRange (near : Option Int) : Int × Int :=
  match near with
  | none => (-16384, 16384)
  | some c => (limitI (-16384) 16384 (c - 1311), limitI (-16384) 16384 (c + 1311))

/-- The phase of an S-curve after a sample: 0 none, 1 in the positive lobe, 2 in the negative lobe, 3 past the zero crossing
that ends it; `above` whether SUM is above 0.25 SUM_REF (R257). -/
def curveStep (above pos neg : Bool) (k : Nat) : Nat :=
  if !above then 0
  else match k with
    | 0 => bit pos
    | 1 => if neg then 2 else 1
    | 2 => if neg then 2 else 3
    | k => k

/-- A sample of a focus sweep: the ramp, the S-curves counted, and the loop closed at the end of the one after the entrance
surface's (R257); a sweep about a held code meets no entrance surface and closes on its first (Table 7-10). DESIGN CHOICE
(notes/assumptions/134.md). -/
def sweepSample (down : Bool) (fe : Nat) (above : Bool) (s : Servo) : Servo :=
  let step := bRat 33 100
  let r := sweepRange s.near
  let u := bClamp (if down then bSub s.foc.u step else bAdd s.foc.u step) (bRat r.1 1) (bRat r.2 1)
  let k := curveStep above (!isNeg fe && fe != 0) (isNeg fe) s.lobe
  let done := s.lobe = 2 && k != 2
  let s := { s with foc := { s.foc with u := u, code := bRound u }, lobe := k }
  if done && k = 3 && (s.near.isSome || s.curves != 0) then focClose { s with lobe := 0 }
  else { s with curves := if done then s.curves + 1 else s.curves }

/-- SUM measured on a layer: once |FE| has stayed below 60 nm for 2 ms, the mean of SUM over the next 2 ms is SUM_REF (R240,
R257). Its rounding is a DESIGN CHOICE (notes/assumptions/134.md). -/
def sumMeasure (opu fe : Nat) (d : Dev) : Dev :=
  let s := d.servo opu
  if !s.sumWait then d
  else if s.sumRun < 400 then d.onServo opu fun s => { s with sumRun := if bLt (bAbs fe) (bRat 60 1) then s.sumRun + 1 else 0 }
  else
    let acc := s.sumAcc + d.spdSum opu
    if s.sumRun < 799 then d.onServo opu fun s => { s with sumRun := s.sumRun + 1, sumAcc := acc }
    else
      let d := d.onServo opu fun s => { s with sumWait := false, sumRun := 0, sumAcc := 0 }
      { d with sumRef := sparseSet 16384 d.sumRef (8 * d.sv opu svSide + d.sv opu svLayer) (roundDiv acc 400).toNat }

/-- FOC_SAMPLE. -/
def focSample (opu : Nat) (d : Dev) : Dev :=
  let s := d.servo opu
  let fe := d.focError opu
  let low := d.sumBelow opu
  let hold := low (d.bw opu 4 1)
  let held := fun (kick : Nat) => { s.foc with code := bCode (bAdd s.foc.u kick) fOne }
  let s' : Servo := match s.focus with
    | .rest => if s.near.isSome then s else { s with foc := { s.foc with u := 0, code := 0 } }
    | .sweep down => sweepSample down fe (!low (bRat 25 100)) s
    | .kick =>
      let k := if s.kickUp then kickCode else fNeg kickCode
      let s := { s with foc := held k, kicks := s.kicks + 1 }
      if low (bRat 10 100) then { s with focus := .brake } else s
    | .brake =>
      if s.kicks = 0 then
        if isNeg fe != isNeg s.prevFe && !low (bRat 25 100) then focClose { s with foc := held 0 }
        else { s with foc := held 0 }
      else { s with foc := held (if s.kickUp then fNeg kickCode else kickCode), kicks := s.kicks - 1 }
    | .closed =>
      let s := { s with foc := control d opu fe 0 hold false s.foc, focPk := if hold then s.focPk else bMax s.focPk (bAbs fe) }
      if s.stepWait = 2 then { s with stepWait := 0, focus := .kick, kicks := 0 }
      else { s with stepWait := if s.stepWait < 2 then s.stepWait else s.stepWait - 1 }
  let d := d.onServo opu fun _ => { s' with prevFe := fe }
  let d := d.cond (d.svSt opu == svSweep && s'.focus == .closed) fun d => d.setSv opu svFocused
  let closed := s.focus = .closed && !hold
  let d := d.cond closed (sumMeasure opu fe)
  let fine := closed && !bLt (d.bw opu 4 2) (bAbs fe)
  let d := d.cond fine fun d => d.svSet opu svInhSrc (d.sv opu svInhSrc - d.sv opu svInhSrc % 2)
  sendCode opu opu 8 s'.foc.code (d.cond closed (adapt opu))

/-! Jump profiles (R264, R269). -/

/-- The codes of the profile of `tracks` tracks over 2n samples, by the bank of TRK: acceleration for half of it and
deceleration for the other half. -/
def profileCodes (d : Dev) (opu : Nat) (tracks : Int) (n : Nat) : List Int :=
  let w0 := d.bw (4 + opu) 7 0
  let zeta := d.bw (4 + opu) 8 0
  let dist := tracks * 225
  let a := bRat (dist * 1000000000000) (25 * n * n)
  (List.range (2 * n)).map fun k =>
    let up := k < n
    -- time from the nearer end in half samples of 2.5 µs
    let h : Nat := if up then 2 * k + 1 else 2 * (2 * n - 1 - k) + 1
    let part := bRat (dist * (h * h : Nat)) (8 * n * n)
    let x := if up then part else bSub (bRat dist 1) part
    let v := bRat (dist * h * 100000) (n * n)
    let acc := bDiv (if up then a else fNeg a) (bMul w0 w0)
    bRound (bDiv (bAdd (bAdd acc (bDiv (bMul (bMul (bRat 2 1) zeta) v) w0)) x) trkNm)

/-- The term that a finished profile leaves: `tracks` × 225 nm ÷ 1.5 nm. -/
def heldCodes (tracks : Int) : Int := tracks * 150

/-- A jump begins: its profile, its held term and the samples to its settle sample (R263). -/
def jumpStart (opu : Nat) (tracks : Int) (n : Nat) (d : Dev) : Dev :=
  let p := profileCodes d opu tracks n
  d.onServo opu fun s => { s with profile := p, jumpTerm := heldCodes tracks, settle := 2 * n + 2 }

/-- Whether a jump or correction runs (R268). -/
def Dev.jumping (d : Dev) (opu : Nat) : Bool := (d.servo opu).settle != 0

/-! Seeks (R269). -/

/-- The position p(t) of a long seek of `dist` nm (with sign) after `t` µs: a trapezoid by SLC's bank words. -/
def seekPos (d : Dev) (opu : Nat) (dist : Int) (t : Nat) : Nat :=
  let acc := bMul (d.bw (61 + opu) 0 2) (bRat 1000000000 1)
  let vmax := bMul (d.bw (61 + opu) 0 3) (bRat 1000000 1)
  let len := bInt dist.natAbs
  let v := bMin vmax (bSqrt (bMul acc len))
  let ta := bDiv v acc
  let tt := bRat t 1000000
  let all := bAdd (bDiv len v) ta
  let half := bRat 1 2
  let p := if bLt all tt then len
    else if bLt tt ta then bMul (bMul half acc) (bMul tt tt)
    else if bLt tt (bSub all ta) then bMul v (bSub tt (bMul half ta))
    else bSub len (bMul (bMul half acc) (bMul (bSub all tt) (bSub all tt)))
  if dist < 0 then fNeg p else p

/-- SLED_NM: nanometres of sled travel per 1/64 full step (R251). -/
def Dev.sledNm (d : Dev) (opu : Nat) : Nat := d.bw (61 + opu) 0 1

/-- The seek residual that TRK adds, in codes, limited to ± 30 µm (R269). -/
def seekResidual (d : Dev) (opu : Nat) : Nat :=
  let s := d.servo opu
  let p := seekPos d opu s.seekNm (5 * s.seekTrk)
  let gone := bMul (bInt (d.sldPos opu - s.seekFrom)) (d.sledNm opu)
  bDiv (bClamp (bSub p gone) (bRat (-30000) 1) (bRat 30000 1)) trkNm

/-! TRK (R247, R248). -/

/-- RUNOUT_LEARN: at the end of a wedge its entry grows by a quarter of the mean controller output over it (R248). -/
def runoutLearn (opu wedge : Nat) (d : Dev) : Dev :=
  d.onServo opu fun s =>
    if s.roCount = 0 then s
    else
      let mean := bDiv s.roSum (bInt s.roCount)
      { s with runout := sparseSet 0 s.runout wedge (bRound (bAdd (bInt (sparseGet 0 s.runout wedge)) (bMul (bRat 1 4) mean))) }

/-- TRK_SAMPLE. While the track is acquired its code is that of the velocity feedback of R261, whose law is not stated: a free value
(notes/assumptions/135.md). -/
def trkSample (opu : Nat) (d : Dev) : Dev :=
  let n := 4 + opu
  let hold := d.sv opu svHold
  let d := d.svSet opu svInhSrc (putBits (d.sv opu svInhSrc) 7 1 hold)
  let d := d.cond (hold == 1) (portWrite n (64 * opu + 14) 1 0#128)
  let st := d.svSt opu
  if st = svLayerJump then d
  else
    let s := d.servo opu
    let w := sparseGet 0 d.eng.wedge opu % 512
    let new := w != s.lastWedge
    let z := if new then d.trkMeasure opu else none
    let pr := Config.observer s.est s.rate (bInt s.prevU)
    let dt := bMul (bInt (s.since + 1 : Nat)) (bRat 5 1000000)
    let er := match z with
      | none => pr
      | some z =>
        let err := bSub z pr.1
        (bAdd pr.1 (bMul (d.bw n 9 0) err), bAdd pr.2 (bDiv (bMul (d.bw n 9 1) err) dt))
    let noPos := if new then z.isNone else s.noPos
    let learning := d.sv opu svLearn == 1 && st == svTracking && s.settle == 0 && !s.noPos && !s.holding && !s.hold0
    let d := d.cond (new && learning) (runoutLearn opu s.lastWedge)
    let s := d.servo opu
    let prof := s.profile.headD 0
    let base := sparseGet 0 s.runout w + s.held + prof
    let uff := bAdd (bInt base) (if st = svSeeking && s.seeking then seekResidual d opu else 0)
    let uff := bSub uff (bDiv (bMul (bInt (d.sldPos opu - s.sledRef)) (d.sledNm opu)) trkNm)
    let x := if s.trkClosed then control d n er.1 uff noPos false s.trk
      else if st = svSeeking then { s.trk with code := bCode uff fOne }
      else if st = svTrkAcq then { s.trk with code := (d.freeNat 65535 : Int) - 32767 } else s.trk
    let d := d.cond (!s.trkClosed && st == svTrkAcq) Dev.drew
    let settle := if 1 < s.settle then s.settle - 1
      else if s.settle = 1 && bLt (bAbs er.1) (bMul pitchNm (bRat 1 10)) then 0 else s.settle
    let d := d.onServo opu fun s =>
      { s with
        est := er.1, rate := er.2, since := if z.isSome then 0 else s.since + 1, lastWedge := w, noPos := noPos
        prevU := unsigned 32 x.code, trk := x, profile := s.profile.drop 1, settle := settle
        held := if s.profile.length = 1 then s.held + s.jumpTerm else s.held
        jumpTerm := if s.profile.length ≤ 1 then 0 else s.jumpTerm
        seekTrk := s.seekTrk + 1
        trkPk := match z with | some z => bMax s.trkPk (bAbs z) | none => s.trkPk
        roSum := if new then x.u else bAdd s.roSum x.u, roCount := if new then 1 else s.roCount + 1 }
    let fine := s.trkClosed && (match z with | some z => !bLt (d.bw n 4 2) (bAbs z) | none => false)
    let d := d.cond fine fun d => d.svSet opu svInhSrc (putBits (d.sv opu svInhSrc) 1 1 0)
    sendCode n opu 9 x.code (d.cond (s.trkClosed && !noPos) (adapt n))

/-! TLT, SAC, SLC and APC (R249 to R252). -/

/-- TLT_SAMPLE. -/
def tltSample (opu : Nat) (d : Dev) : Dev :=
  let s := d.servo opu
  let low := fun (now ref : Nat) => bLt (bInt now) (bMul (d.bw (57 + opu) 4 1) (bInt ref))
  let sum := fun i => (d.spd opu i + d.spd opu (i + 1)).toNat
  let hold := d.svSt opu == svLayerJump || low (sum 4) s.tltRef || low (sum 6) s.tltRef2
  let x := control d (57 + opu) (d.tiltError opu) 0 hold true s.tlt
  sendCode (57 + opu) opu 10 x.code (d.onServo opu fun s => { s with tlt := x })

/-- PRESET of a side and layer in the SAC bank, a signed code in lane 0 (R250). -/
def Dev.preset (d : Dev) (opu side layer : Nat) : Int := signed 32 (d.bw (66 + opu) (8 * side + layer) 0)

/-- The mean of A + B + C + D over the TRK spots' records (Table 7-2). -/
def Dev.sam (d : Dev) (opu : Nat) : Nat :=
  let one := fun k =>
    let r := 24 * opu + d.bw (4 + opu) 6 k
    d.fg .RCS_BURST_AB_A r + d.fg .RCS_BURST_AB_B r + d.fg .RCS_BURST_CD_C r + d.fg .RCS_BURST_CD_D r
  bMul (bRat 1 2) (bInt (one 0 + one 1 : Nat))

/-- SAC_SAMPLE. -/
def sacSample (opu : Nat) (d : Dev) : Dev :=
  let s := d.servo opu
  let side := d.sv opu svSide
  let layer := d.sv opu svLayer
  let dither := d.sv opu svDither == 1
  let up := s.sacCount / 8 % 2 == 0
  let sam := d.sam opu
  let corr := bAdd s.sacCorr (if up then sam else fNeg sam)
  let sum := bAdd s.sacSum sam
  let full := s.sacCount + 1 = 32
  let move := bRound (bClamp (bDiv (bMul (bRat 1 2) corr) (bDiv sum (bRat 32 1))) (bRat (-256) 1) (bRat 256 1))
  let trim := if dither && full then limitI (-2048) 2048 (s.sacTrim + move) else s.sacTrim
  let d := d.onServo opu fun s =>
    { s with
      sacTrim := trim, sacCount := if dither && !full then s.sacCount + 1 else 0
      sacCorr := if dither && !full then corr else 0, sacSum := if dither && !full then sum else 0 }
  let landed := s.focus = .closed && s.stepWait = 0 && s.foc.still = 0
  let base := match s.sacMid with
    | some other => if landed then d.preset opu side other else (d.preset opu side layer + d.preset opu side other) / 2
    | none => d.preset opu side layer
  let d := d.onServo opu fun s => { s with stepWait := if s.stepWait = 1 then 602 else s.stepWait }
  let code := base + trim + (if dither then (if up then 64 else -64) else 0)
  sendCode (66 + opu) opu 11 (limitI (-32767) 32767 code) d

/-- SLC_SAMPLE: its rate, doubled at a breach of the fine actuator's range, is as before once |m| is back within it (Table 7-10). -/
def slcSample (opu : Nat) (d : Dev) : Dev :=
  let n := 61 + opu
  let s := d.servo opu
  if d.svSt opu = svSeeking && s.seeking then
    let p := seekPos d opu s.seekNm (100 * s.seekSamples)
    let d := d.onServo opu fun s => { s with seekSamples := s.seekSamples + 1 }
    let left := ((s.seekNm - bRound p).natAbs + 112) / 225
    sendCode n opu 12 (s.seekFrom + bRound (bDiv p (d.sledNm opu))) (d.svSet opu svLeft left)
  else
    let mean := bAdd s.slcMean (bMul Config.lowPass (bSub (bInt s.trk.code) s.slcMean))
    let d := d.onServo opu fun s => { s with slcMean := mean }
    let m := bMul mean trkNm
    let near := !bLt (bRat 40000 1) (bAbs m)
    let d := d.cond ((d.servo opu).fast && near) fun d =>
      ((d.fs .SLOT_PER_PERIOD (2 * d.fg .SLOT_PER_PERIOD n) n).onSlot n fun s => { s with renew := true }).onServo opu
        fun s => { s with fast := false }
    if bLt (bMul (d.bw n 0 0) (bRat 1000 1)) (bAbs m) then
      sendCode n opu 12 (d.sldPos opu + bRound (bDiv m (d.sledNm opu))) d
    else d

/-- APC_SAMPLE. -/
def apcSample (beam : Nat) (d : Dev) : Dev :=
  let n := 9 + beam
  let opu := beam / 12
  let s := d.servo opu
  let pr := portRead { slot := n } (64 * opu + 48 + beam % 12) d
  let d := pr.2
  let mon := pr.1 % 4096
  let old := sparseGet (d.bw n 0 3) s.scale beam
  if !pr.1.testBit 15 then sendCode n opu (32 + beam % 12) old d
  else
    let slope := d.bw n 0 1
    let slope' := match sparseGet (0, 0) s.apcWas beam with
      | (0, 0) => slope
      | (sc, mo) =>
        let ratio := bDiv (bInt ((mon : Int) - mo)) (bInt ((old : Int) - sc))
        let most := bMul (bRat 1 64) (bAbs slope)
        bAdd slope (bClamp (bMul (bRat 1 16) (bSub ratio slope)) (fNeg most) most)
    let d := d.cond (slope' != slope) fun d => adaptStore n 0 (putLane (d.dmWord (d.bankBase n)) 1 slope') d
    let step := bRound (bDiv (bMul (bRat 1 2) (bInt ((d.bw n 0 0 : Int) - mon))) slope')
    let new := (limitI 0 (d.bw n 0 2) ((old : Int) + step)).toNat
    let big := 8 ≤ ((new : Int) - old).natAbs
    let d := d.onServo opu fun s =>
      { s with
        scale := sparseSet (d.bw n 0 3) s.scale beam new
        apcWas := sparseSet (0, 0) s.apcWas beam (if big then (old, mon) else (0, 0)) }
    sendCode n opu (32 + beam % 12) new d

/-! The spindle's loops (R290 to R293). -/

/-- A word of the spindle mailbox (Table 8-7). -/
def Dev.sp (d : Dev) (k : Nat) : Nat := (d.rd .SPN_MBOX k).toNat

/-- The unit with a word of the spindle mailbox written. -/
def Dev.spSet (d : Dev) (k v : Nat) : Dev := d.wr .SPN_MBOX (BitVec.ofNat 32 v) k

/-- SPEED in rpm, binary32. -/
def Dev.rpm (d : Dev) : Nat := bDiv (bInt d.speed16) (bRat 16 1)

/-- SPC_SAMPLE (R290). -/
def spcSample (d : Dev) : Dev :=
  let milli := fun x => bDiv x (bRat 1000 1)
  let d := d.onSpn fun s =>
    if 24 ≤ s.sinceSps + 1 then { s with sinceSps := s.sinceSps + 1, icmd := 0 } else { s with sinceSps := s.sinceSps + 1 }
  let st := d.spnState
  let w := bDiv d.rpm (bRat 1000 1)
  let starting := st == spnAlign || st == spnRamp || st == spnCouch
  if !starting && st != spnRun && st != spnBrake then portWrite 8 0x300 0 0#128 (d.onSpn fun s => { s with xi := 0 })
  else
    let bw := d.bw 8
    let iref := if starting then milli (bInt (startIref d)) else if st = spnRun then milli d.spn.icmd else fNeg (milli (bw 1 3))
    let wff := if starting then 0 else w
    let iact := milli (bInt d.spn.iact)
    let neg := bLt iref 0
    let e := if neg then bSub (fNeg iref) (bAbs iact) else bSub iref iact
    let ts := bRat 125 10000000
    let xi := bClamp (bAdd d.spn.xi (bMul (bMul (bw 0 1) ts) e)) (fNeg (bw 1 0)) (bw 1 0)
    let vm := bMax (milli (bInt d.spn.vmot)) (bw 1 1)
    let fb := bAdd (bMul (bw 0 0) e) xi
    let dv := if neg then
        fNeg (bMin fOne (bAdd (bDiv (bMul (bw 0 2) (fNeg iref)) (bMax (bMul (bw 0 3) wff) (bw 1 2))) (bDiv fb vm)))
      else bDiv (bAdd (bAdd (bMul (bw 0 2) iref) (bMul (bw 0 3) wff)) fb) vm
    portWrite 8 0x300 (unsigned 32 (bCode dv (bRat 32767 1))) 0#128 (d.onSpn fun s => { s with xi := xi })

/-- SPS_SAMPLE (R291). -/
def spsSample (d : Dev) : Dev :=
  let put := fun (xs i : Nat) (d : Dev) =>
    portWrite 65 0x316 i 0#128 (d.onSpn fun s => { s with xs := xs, icmd := i, sinceSps := 0 })
  if d.spnState != spnRun then put 0 0 d
  else
    let bw := d.bw 65
    let e := bSub (d.sp 5) d.rpm
    let out := bAdd (bAdd (bMul (bw 0 0) e) d.spn.xs) (bMul (bw 0 2) d.spn.slope)
    let lo := if d.is .SPN_CTL_BRAKE_EN then fNeg (bw 1 1) else 0
    let lim := bClamp out lo (bw 1 0)
    let xs := if lim = out then bAdd d.spn.xs (bMul (bMul (bw 0 1) e) (bRat 1 10000)) else d.spn.xs
    put xs lim d

/-- WMK_SAMPLE (R293). -/
def wmkSample (d : Dev) : Dev :=
  let bw := d.bw 70
  let top := bRat 5400 1
  let lim := fun x => bClamp x 0 top
  let mx := lim (d.sp 2)
  let mn := bMin (bMax (d.sp 3) 0) mx
  let f := bClamp (bDiv (bSub (bInt (d.sp 4)) (bw 0 0)) (bSub (bw 0 1) (bw 0 0))) 0 fOne
  let span := bMul (bSub mx mn) f
  let t := match d.sp 0 % 4 with
    | 1 => bSub mx span
    | 2 => bAdd mn span
    | _ => lim (d.sp 1)
  let t := bMin (bMin t mx) top
  let k := bRat 1 1000
  let prev := d.spn.sprev
  let s := if d.spnState = spnRun then bAdd prev (bClamp (bSub t prev) (fNeg (bMul (bw 0 3) k)) (bMul (bw 0 2) k)) else d.rpm
  let err := bAbs (bSub d.rpm s)
  let errs := (err :: d.spn.errs).take 100
  let d := d.onSpn fun x => { x with sprev := s, slope := if d.spnState = spnRun then bMul (bSub s prev) (bRat 1000 1) else 0, errs := errs }
  portWrite 70 0x317 (errs.foldl bMax 0) 0#128 (portWrite 70 0x315 s 0#128 d)

/-! Dispatch (R214, R217). -/

/-- The law of a loop of F3.1 at a sample of its slot. -/
def loopLaw (k : LoopKind) (d : Dev) : Dev :=
  match k with
  | .foc o => focSample o d
  | .trk o => trkSample o d
  | .tlt o => tltSample o d
  | .slc o => slcSample o d
  | .sac o => sacSample o d
  | .apc b => apcSample b d
  | .spc => spcSample d
  | .sps => spsSample d
  | .wmk => wmkSample d
  | .service | .opened => d

/-- The word that firmware holds at the entry of each of its loops: a NOP that ends the sample. The microcode itself is
firmware's. -/
def f31Word : Word := BitVec.ofNat 128 (5 <<< 55)

/-- The longest sample of a slot in clocks (Table 6-8). -/
def LoopKind.clocks : LoopKind → Nat
  | .foc _ => 80
  | .trk _ => 88
  | .spc => 72
  | .apc _ => 24
  | .tlt _ => 120
  | .slc _ => 96
  | .sps => 112
  | .sac _ => 160
  | .wmk => 400
  | .service | .opened => 1

/-- After the dispatch of a sample whose entry holds firmware's own microcode, its law; the sticky flags and the clocks
that the microcode leaves are free values, the clocks within the longest sample of Table 6-8. -/
def lawOf (n : Nat) (d : Dev) : Dev :=
  match d.runningSample with
  | none => d
  | some s =>
    if n < 71 && s.slot == n && s.pc == n && sparseGet 0#128 d.eng.cs n == f31Word then
      let k := slotKind n
      let r := d.freeNat (128 * k.clocks)
      let d := d.drew
      loopLaw k ((d.setSample { s with sticky := r % 128, cycles := r / 128 }).clocks (r / 128))
    else d

/-- Conversions of servo photodetector inputs: input 8 × OPU + i and its raw code (R239). -/
def spdConverts (l : List (Nat × Int)) (d : Dev) : Dev :=
  d.each l fun d p => d.cond (d.opuReady (p.1 / 8)) (spdConvert (p.1 / 8) (p.1 % 8) p.2)

/-- The level of the highest suspended sample; 4 where none is. -/
def Dev.heldLevel (d : Dev) : Nat :=
  (d.eng.samples.filter fun s => s.phase = .suspended).foldl (fun l s => if s.level < l then s.level else l) 4

/-- What has happened to the engine since its last dispatch or trap: conversions, single-bit errors of its memories corrected and
counted (R198), and the fabric's taking of trace words (R211). -/
def engineSince (l : List (Nat × Int)) (flips : Nat) (d : Dev) : Dev :=
  let d := spdConverts l d
  let d := d.cond (flips != 0) fun d =>
    (d.fs .CLE_STAT_CE 1).fs .CLE_ECC_CE_COUNT (limitN 0 65535 (d.fg .CLE_ECC_CE_COUNT + flips))
  traceFlush 33 d

/-- CLE_DISPATCH: the free engine dispatches the ready sample of the highest level; a suspended sample of a level as high
goes first (R214, R217). -/
def cleDispatch (l : List (Nat × Int)) (flips : Nat) (d : Dev) : Dev :=
  let d := engineSince l flips d
  match d.nextReady with
  | none => d
  | some s => if !d.engineOn || d.runningSample.isSome || d.heldLevel ≤ s.level then d else lawOf s.slot (dispatch s d)

/-- MICRO_TRAP: a ready sample of a higher level than the running one's suspends it and is dispatched (R217). -/
def microTrap (l : List (Nat × Int)) (flips : Nat) (d : Dev) : Dev :=
  let d := engineSince l flips d
  match d.runningSample, d.nextReady with
  | some r, some s => if d.engineOn && s.level < r.level then lawOf s.slot (dispatch s (trapEnter r d)) else d
  | _, _ => d

/-! Delegated calibration (R345). -/

/-- The result of LOOP for one loop's open-loop gain |L|. -/
def loopResult (l : Nat) : CalResult :=
  if !bLt l (bRat 80 100) && !bLt (bRat 1333 1000) l then .pass
  else if !bLt l (bRat 1 2) && !bLt (bRat 2 1) l then .jump
  else .invalid

/-- A bank with the gain K divided by |L|. -/
def gainBank (ws : List Word) (l : Nat) : List Word :=
  ws.modify 2 fun w => putLane w 0 (bDiv (laneOf w 0) l)

/-- The mean SAM of the nine steps of a SAC scan fitted: the index of the largest, and the vertex of the parabola through
it and its neighbours in codes from the scan's first step; none where the largest is at an end. -/
def sacVertex (l : List Nat) : Option Int :=
  let at_ := fun i => l.getD i 0
  let top := (List.range 9).foldl (fun b i => if bLt (at_ b) (at_ i) then i else b) 0
  if top = 0 || top = 8 then none
  else
    let a := at_ (top - 1)
    let b := at_ top
    let c := at_ (top + 1)
    let den := bMul (bRat 2 1) (bAdd (bSub a (bMul (bRat 2 1) b)) c)
    some (256 * (top : Int) + bRound (bDiv (bMul (bRat 256 1) (bSub a c)) den))

/-- DELEGATED_CAL: firmware runs the waiting delegated step, with what its sequence measured: for LOOP the open-loop gains
of FOC and TRK, for SAC the mean SAM of the nine steps. New coefficients are loaded only on PASS, as whole banks. -/
def delegatedCal (vals : List Nat) (d : Dev) : Dev :=
  match d.cal.ahead with
  | [] => d
  | (g, o) :: _ =>
    if d.fg .CAL_STAT_STATE != 2 || !d.is .CAL_STAT_REQ || d.cal.ext.isSome || d.mode == 7 then d
    else if g = 5 then
      let lf := vals.getD 0 0
      let lt := vals.getD 1 0
      let r := if loopResult lf != .pass then loopResult lf else loopResult lt
      let d := d.cond (r == .pass) fun d =>
        loadBank (4 + o) (gainBank (d.bankNow (4 + o)) lt) (loadBank o (gainBank (d.bankNow o) lf) d)
      d.onCal fun c => { c with ext := some r.code }
    else
      let k := 8 * d.sv o svSide + d.sv o svLayer
      let d := d.svSet o svDither 0
      match sacVertex vals with
      | none => d.onCal fun c => { c with ext := some CalResult.range.code }
      | some v =>
        let p := d.preset o (d.sv o svSide) (d.sv o svLayer) - 1024 + v
        let d := loadBank (66 + o) ((d.bankNow (66 + o)).modify k fun w => putLane w 0 (unsigned 32 p)) d
        d.onCal fun c => { c with ext := some CalResult.pass.code }

/-- CAL_EXT_RESULT: a write to CAL_EXT gives the result of the running delegated step; ignored when none runs, and the
code 0 names no result (R345). -/
def calExtResult (code : Nat) (d : Dev) : Dev :=
  if d.fg .CAL_STAT_STATE != 2 || code = 0 || d.mode == 7 then d
  else d.onCal fun c =>
    { c with ext := none, resources := c.resources.map fun x =>
        if x.result == .none then { x with result := calResultOf code } else x }

/-- The TRIMS of a CAL record of group 5 or 6 taken into the bank that holds them: K of FOC and TRK, or the SAC preset of a
layer (R353, R354). -/
def calLoadBank (p : Bytes) (d : Dev) : Dev :=
  let f := fun i n => leNat ((p.drop i).take n)
  let o := f 0 1 % 16
  let k := 8 * (f 7 1 / 16 % 2) + f 7 1 % 8
  if f 0 1 / 16 = 5 then
    let gain := fun n v d => loadBank n ((d.bankNow n).modify 2 fun w => putLane w 0 v) d
    gain (4 + o) (f 16 4) (gain o (f 12 4) d)
  else if f 0 1 / 16 = 6 then
    loadBank (66 + o) ((d.bankNow (66 + o)).modify k fun w => putLane w 0 (unsigned 32 (signed 16 (f 12 2)))) d
  else d

/-! The effects of the commands. -/

/-- CLE_DISPATCH (R214). -/
def execCleDispatch (spd : List (Fin 32 × Int)) (flips : Nat) (s : State) : Host.Outcome State Fault Refusal :=
  s.onDev (cleDispatch (spd.map fun p => (p.1.val, p.2)) flips)

/-- MICRO_TRAP (R217). -/
def execMicroTrap (spd : List (Fin 32 × Int)) (flips : Nat) (s : State) : Host.Outcome State Fault Refusal :=
  s.onDev (microTrap (spd.map fun p => (p.1.val, p.2)) flips)

/-- DELEGATED_CAL (R345). -/
def execDelegatedCal (vals : List Nat) (s : State) : Host.Outcome State Fault Refusal := s.onDev (delegatedCal vals)

/-- CAL_EXT_RESULT (R345). -/
def execCalExtResult (code : Fin 8) (s : State) : Host.Outcome State Fault Refusal := s.onDev (calExtResult code)

end Sys2Proof.Machine
end

