-- ==== Sys2Proof/Machine/Servo.lean ====
section
/-!
DEFINITION. The servo of an OPU as its mailbox commands and its events drive it (07_optical_servo.md R254 to R273, R686),
with what firmware does about homing failures, faults and parking (09_sled_and_clamp.md R318, R320, R322).
-/

namespace Sys2Proof.Machine

/-- A reason of INH_SRC set with the write inhibit, or cleared. -/
def inhReason (opu k : Nat) (on : Bool) (d : Dev) : Dev :=
  if on then d.reason opu k else d.svSet opu svInhSrc (putBits (d.sv opu svInhSrc) k 1 0)

/-- A waiting mailbox command of an OPU taken: the token copied, a running command ended as aborted; none where no command
with that operation waits, or a jump must settle first (R256, R268). -/
def takeSv (opu op : Nat) (d : Dev) : Option Dev :=
  if !d.opuReady opu || d.jumping opu || d.sv opu svOp != op || d.sv opu svToken == d.sv opu svTaken then none
  else
    let d := d.cond ((d.servo opu).running != 0) fun d => d.svSet opu svResult 3
    some ((d.svSet opu svTaken (d.sv opu svToken)).onServo opu fun s =>
      { s with running := op, surprises := 0, retried := false, holding := false })

/-- The running mailbox command ends with a RESULT (R256). -/
def endSv (opu result : Nat) (d : Dev) : Dev :=
  (d.svSet opu svResult result).onServo opu fun s => { s with running := 0 }

/-- A posted event of an OPU's loop; F3.1's event codes are not stated: a free value. -/
def loopEvent (slot : Nat) (d : Dev) : Dev := (postEvent (d.freeNat 256) slot false d).drew

/-- ENABLE of an OPU's laser driver written through the firmware queue: the read laser, and the write beams or not (R173,
R174, R253). -/
def beamsEnable (opu : Nat) (on : Bool) (d : Dev) : Dev :=
  if 16 ≤ (d.wsg opu).fwQueue.length then d.fs .WSG_OSTAT_LDC_QFULL 1 opu
  else d.onWsg opu fun g => { g with
    fwQueue := g.fwQueue ++ [{ op := 0, spot := 0, reg := 0x02, data := if on then 0x1FFF else 0x1000, fw := true }] }

/-- The APC slots of an OPU run from the first band or OPC of a recording run, and with them the write beams (R253). -/
def apcStart (opu : Nat) (d : Dev) : Dev :=
  if (apcSlots opu).all d.started then d else beamsEnable opu true (slotsStart (apcSlots opu) d)

/-- The APC slots of an OPU stopped, and the write beams with them (R253). -/
def apcStop (opu : Nat) (d : Dev) : Dev :=
  if (apcSlots opu).any d.started then beamsEnable opu false (d.each (apcSlots opu) fun d n => slotStop n d) else d

/-- The mode of a turning disc (Table 19-2): SA_DITHER is clear in RECORD and set in READ and SPINNING (R250); an OPU that
leaves RECORD stops its APC slots (R253); SP_MIN is 1,200 rpm outside RECORD (R294). -/
def Dev.turnMode (d : Dev) (m : Nat) : Dev :=
  let d := d.cond (d.mode == 5 && m != 5) fun d => d.each d.opus fun d o => apcStop o d
  let d := d.cond (m != 5) fun d => d.spSet 3 (bRat 1200 1)
  (d.each d.opus fun d o => d.svSet o svDither (bit (m != 5))).setMode m

/-- The other OPU of the same side. -/
def otherOpu (opu : Nat) : Nat := 2 * (opu / 2) + (1 - opu % 2)

/-- Whether an OPU is in a servo fault (R255). -/
def Dev.servoFault (d : Dev) (opu : Nat) : Bool :=
  d.svSt opu == svFault || (d.svSt opu == svRecover && (d.servo opu).focus != .closed)

/-- Whether an OPU can take over work: fused on, not in a servo fault, not withdrawn (R686). -/
def Dev.canServe (d : Dev) (opu : Nat) : Bool := d.opuPresent opu && !d.servoFault opu && !(d.opuFw opu).withdrawn

/-- Whether an OPU can record: it can serve and is not withdrawn from recording (R194). -/
def Dev.canRecord (d : Dev) (opu : Nat) : Bool := d.canServe opu && !(d.opuFw opu).noRecord

/-- The sheets that wait in an OPU's plans pass to the other OPU of the side for their one attempt there, where it can record
(R184); otherwise, where the OPU is stopped for good, they fail (R194). `begun`: the latched plan too, which was never begun. -/
def passSheets (opu : Nat) (begun gone : Bool) (d : Dev) : Dev :=
  let o := otherOpu opu
  let ok := d.canRecord o
  let waits := fun (v : Version) => v.opu == opu && v.psa.isSome && v.owes.isNone
    && (v.stage = .admitted || v.stage = .encoding || v.stage = .planned || (begun && v.stage = .latched))
  if !ok && !gone then d
  else
    let one := fun (v : Version) => if !waits v then v
      else if ok && !v.passed && !v.given then { v with psa := none, stage := .admitted, opu := o, passed := true } else { v with stage := .failed }
    let d := d.onFw fun w => { w with versions := w.versions.map one }
    d.onOpuFw opu fun f => { f with plans := [], latched := if begun then none else f.latched }

/-- An OPU in FAULT: all its slots stopped, the inhibit set, and the fault counted (Table 7-10, R272). -/
def svFaultNow (opu : Nat) (d : Dev) : Dev :=
  let d := apcStop opu d
  let d := d.each (servoSlots opu ++ apcSlots opu) fun d n => slotStop n d
  let d := (d.setSv opu svFault).onServo opu fun s => { s with trkClosed := false, focus := .rest, near := none, running := 0 }
  passSheets opu false false (d.onOpuFw opu fun f => { f with faults := d.qtime :: f.faults })

/-- An OPU in RECOVER after a loss; a loss of focus opens the focus loop too (Table 7-10, R255). -/
def svRecoverNow (opu : Nat) (focus : Bool) (d : Dev) : Dev :=
  (d.setSv opu svRecover).onServo opu fun s =>
    { s with trkClosed := false, profile := [], jumpTerm := 0, settle := 0
             focus := if focus then .rest else s.focus, near := if focus then some s.foc.code else s.near }

/-- The CLASS and DETAIL of commands that no OPU of a side can serve (R258, R686). -/
def sideFail (d : Dev) (side : Nat) (met : OpuFw → Bool) : Nat × Nat :=
  if met (d.opuFw (2 * side)) || met (d.opuFw (2 * side + 1)) then (6, 1) else (4, 0x0B)

/-! Focus and layers (R257 to R260). -/

/-- A focus sweep begins: the slices are enabled, the loops of the OPU run, the read laser is on, TRK at code 0, FOC at the start of the sweep, over
the whole range or about the code held at a loss of focus. -/
def focBegin (opu : Nat) (near : Option Int) (d : Dev) : Dev :=
  let d := slicesOn opu d
  let d := d.each (servoSlots opu) fun d n => (d.fs .SLOT_STAT_FAULT 0 n).fs .SLOT_STAT_CAUSE 0 n
  let d := slotsStart (servoSlots opu) d
  let d := inhReason opu 5 true (inhReason opu 1 true (inhReason opu 0 true (d.setSv opu svSweep)))
  let d := d.onServo opu fun s =>
    { s with
      focus := .sweep false, near := near, foc := { u := bRat (sweepRange near).1 1, code := (sweepRange near).1 }
      trk := {}, trkClosed := false
      laser := true, restart := false, curves := 0, lobe := 0, stepWait := 0, again := false, sacMid := none, seeking := false, settle := 0, profile := [] }
  sendCode (4 + opu) opu 9 0 (sendCode opu opu 8 (sweepRange near).1 d)

/-- The loop closed on a layer: FOCUSED, side and layer confirmed by the wedges, and SUM_REF to be measured (R257). -/
def focOn (opu side layer : Nat) (d : Dev) : Dev :=
  let d := ((d.setSv opu svFocused).svSet opu svSide side).svSet opu svLayer layer
  let d := inhReason opu 5 false (inhReason opu 4 false (inhReason opu 0 false d))
  let d := d.onServo opu fun s =>
    { focClose s with sacMid := none, kicks := 0, near := none, stepWait := 0, sumWait := true, sumRun := 0, sumAcc := 0
                      tltRef := (d.spd opu 4 + d.spd opu 5).toNat, tltRef2 := (d.spd opu 6 + d.spd opu 7).toNat }
  d.onOpuFw opu fun f => { f with focused := true }

/-- The layer next to `from_` on the way to `to`. -/
def nextLayer (from_ to_ : Nat) : Nat := if from_ < to_ then from_ + 1 else from_ - 1

/-- One layer step begins (Table 7-9): LAYER_JUMP, the inhibit, TRK held; the corrector goes to the midpoint at its
next sample, and the kick follows 3 ms later. -/
def layerStep (opu : Nat) (d : Dev) : Dev :=
  let cur := d.sv opu svLayer
  let want := (d.servo opu).wantLayer
  inhReason opu 4 true ((d.setSv opu svLayerJump).onServo opu fun s =>
    { s with stepWait := 1, kickUp := cur < want, sacMid := some (nextLayer cur want), trkClosed := false })

/-- What follows once the target layer is confirmed: the command ends, but a seek goes on with its radial move. -/
def layerDone (opu : Nat) (d : Dev) : Dev := if (d.servo opu).running = 4 then d else endSv opu 0 d

/-- Layer steps toward the target, `l` the layers that the wedges confirm after each step; two surprises
end the command with RESULT 4; a step that nothing confirms is left in progress (R259, R260). -/
def layerWalk (opu : Nat) : List Nat → Dev → Dev
  | l, d =>
    if d.sv opu svLayer = (d.servo opu).wantLayer then layerDone opu d
    else match l with
    | [] => d.cond (d.svSt opu != svLayerJump) (layerStep opu)
    | layer :: rest =>
      let intended := nextLayer (d.sv opu svLayer) (d.servo opu).wantLayer
      let d := focOn opu (d.sv opu svSide) layer (layerStep opu d)
      let d := d.cond (layer != intended) fun d => d.onServo opu fun s => { s with surprises := s.surprises + 1 }
      if 2 ≤ (d.servo opu).surprises then endSv opu 4 d else layerWalk opu rest d

/-- FOCUS_ACQUIRE: OP 1, or firmware's own repeat in SWEEP, LAYER_JUMP ended, RECOVER and after a restart. `found` lists
the layer that the wedges confirm after the loop closes and after each layer jump; empty while the sweep runs. -/
def focusAcquire (opu side : Nat) (found : List Nat) (d : Dev) : Dev :=
  let go := match takeSv opu 1 d with
    | some d => some (focBegin opu none (d.onServo opu fun s => { s with wantLayer := d.sv opu svArgLayer }))
    | none =>
      if !d.opuReady opu then none
      else if d.svSt opu = svSweep || (d.svSt opu = svFocused && (d.sv opu svInhSrc).testBit 5) then some d
      else if d.svSt opu = svRecover && (d.servo opu).focus != .closed then some (focBegin opu (d.servo opu).near d)
      else none
  match go, found with
  | none, _ => d
  | some d, [] => d
  | some d, layer :: rest =>
    let d := focOn opu side layer d
    if side != opuSide opu then endSv opu 4 d else layerWalk opu rest d

/-- FOCUS_SWEEP_FAIL: the sweep has reached its end without closing. A sweep about a held code is followed by a full
acquisition (Table 7-10); a full one is repeated once downward, then the command ends
with RESULT 1, the lens at rest, and the loading command is told (R258). -/
def focusSweepFail (opu : Nat) (d : Dev) : Dev :=
  let s := d.servo opu
  if d.svSt opu != svSweep then d
  else if s.near.isSome then focBegin opu none d
  else if !s.again then
    d.onServo opu fun s =>
      { s with again := true, focus := .sweep true, curves := 0, lobe := 0, foc := { u := bRat 16384 1, code := 16384 } }
  else
    let d := endSv opu 1 (servoOpen opu d)
    let f := sideFail d (opuSide opu) fun w => w.focused
    d.each d.running fun d c => d.cond (c.opcode == 0x18) fun d => d.endCmd c.id f.1 f.2

/-- LAYER_JUMP: OP 2; refused with RESULT 2 where focus is not closed. -/
def layerJump (opu : Nat) (steps : List Nat) (d : Dev) : Dev :=
  match takeSv opu 2 d with
  | some d =>
    if (d.servo opu).focus != .closed then endSv opu 2 d
    else layerWalk opu steps (d.onServo opu fun s => { s with wantLayer := d.sv opu svArgLayer })
  | none => if d.opuReady opu && d.svSt opu == svLayerJump then layerWalk opu steps d else d

/-- LAYER_STEP_TIMEOUT: FOC returns to the held output, the step ends, and focus acquisition is repeated with the target
layer (R260). -/
def layerStepTimeout (opu : Nat) (d : Dev) : Dev := if d.svSt opu != svLayerJump then d else focBegin opu none d

/-! The track (R261, R269, R270). -/

/-- SLED_ANCHOR: the home radius recorded at the first TRACKING after homing; later the drift, with which the limits and
the park position are corrected and POS_UNSURE is cleared (R320). -/
def sledAnchor (opu : Nat) (d : Dev) : Dev :=
  let nm := fRat (d.sledNm opu)
  let base : Int := 1000 * radiusNm (d.fg .RCS_BAND_BASE_TRACK opu) + 2587500 - 1500 * (d.servo opu).trk.code
  match (d.sled opu).rHome with
  | none => d.onSled opu fun s => { s with rHome := some (base - roundDiv (1000 * d.sldPos opu * nm.1) nm.2) }
  | some home =>
    let drift := d.sldPos opu - roundDiv ((base - home) * nm.2) (1000 * nm.1)
    let d := d.fs .SLD_LIM_MIN (unsigned 32 drift) opu
    let d := d.fs .SLD_LIM_MAX (unsigned 32 (384000 + drift)) opu
    (d.fs .SLD_STAT_POS_UNSURE 0 opu).onSled opu fun s => { s with drift := drift }

/-- The track that TS0 or TS1 reads unambiguously, with the spot. -/
def Dev.trackRead (d : Dev) (opu : Nat) : Option (Nat × Nat) :=
  [d.bw (4 + opu) 6 0, d.bw (4 + opu) 6 1].findSome? fun s =>
    let rcs := 24 * opu + s
    if d.is .RCS_SERVO_T_TVALID rcs && !d.is .RCS_SERVO_T_AMBIG rcs then some (d.fg .RCS_SERVO_T_TRACK rcs, s) else none

/-- BAND_BASE written by TRK. -/
def writeBand (opu track : Nat) (d : Dev) : Dev :=
  let w := track % 2 ^ 18 + d.sv opu svLayer <<< 18 + d.sv opu svSide <<< 21
  portWrite (4 + opu) (64 * opu + 16) w 0#128 d

/-- The whole number n of R269: the smallest whose acceleration over 2n samples stays within a 24-track jump's. -/
def shortSeekN (tracks : Nat) : Nat := ((List.range 7).find? fun n => tracks ≤ 6 * n * n).getD 6

/-- A radial move of `delta` tracks: a jump, a short seek by TRK, or a long seek by SLC and TRK (R261, R269). -/
def radialMove (opu : Nat) (delta : Int) (d : Dev) : Dev :=
  let n := delta.natAbs
  let d := d.svSet opu svLeft n
  let to_ := ((d.fg .RCS_BAND_BASE_TRACK opu : Int) + delta).toNat
  if n = 0 then d
  else if n ≤ 24 then writeBand opu to_ (jumpStart opu delta 2 d)
  else
    let d := inhReason opu 4 true (d.setSv opu svSeeking)
    if n ≤ 160 then writeBand opu to_ (jumpStart opu delta (shortSeekN n) d)
    else d.onServo opu fun s =>
      { s with seeking := true, trkClosed := false, seekNm := 225 * delta, seekFrom := d.sldPos opu, seekSamples := 0
               seekTrk := 0 }

/-- The arrival of an OPU on a layer of a loaded disc: the first one after LOAD triggers calibration group 6 (R349). -/
def layerArrived (opu : Nat) (d : Dev) : Dev :=
  let l := d.sv opu svLayer
  if d.mode < 3 || 6 < d.mode || (d.opuFw opu).layers.contains l then d
  else calTrigger (2 ^ pairBit opu 6) (d.onOpuFw opu fun f => { f with layers := l :: f.layers })

/-- The OPU reaches TRACKING: at the first time after LOAD the runout is learned for 8 revolutions and calibration group 3 is
triggered; the sled is anchored, and the command ends (R248, R261, R320, R349). -/
def nowTracking (opu : Nat) (d : Dev) : Dev :=
  let first := !(d.opuFw opu).reached
  let d := d.cond first fun d =>
    calTrigger (2 ^ pairBit opu 3) ((d.svSet opu svLearn 1).onServo opu fun s => { s with learn := 8 })
  let d := layerArrived opu d
  let d := inhReason opu 4 false (inhReason opu 3 false (inhReason opu 1 false (d.setSv opu svTracking)))
  let d := d.onOpuFw opu fun f => { f with reached := true }
  endSv opu 0 (sledAnchor opu ((d.svSet opu svLeft 0).onServo opu fun s => { s with seeking := false }))

/-- A revolution lost: the OPU is not on the band (R686). -/
def bandMissed (opu : Nat) (d : Dev) : Dev := d.onOpuFw opu fun f => { f with lost := f.lost + 1 }

/-- Steps 2 to 4 of R261 from a wedge's record: BAND_BASE, the loop closed, and the rest of the way; `onTarget` tells
whether three consecutive wedges at the target are OK. -/
def trackClose (opu : Nat) (onTarget : Bool) (d : Dev) : Dev :=
  match d.trackRead opu with
  | none => d
  | some (t, spot) =>
    let d := writeBand opu (t - spot) (d.setSv opu svTrkAcq)
    let te := (d.trkError opu spot).getD 0
    let d := d.onServo opu fun s =>
      { s with trkClosed := true, est := te, rate := 0, since := 0, sledRef := d.sldPos opu, seeking := false
               trk := { code := s.trk.code, still := 200 }, held := 0 }
    let s := d.servo opu
    let delta : Int := (s.wantTrack : Int) - d.fg .RCS_BAND_BASE_TRACK opu
    if 24 < delta.natAbs then
      let d := d.cond (s.running == 4) (bandMissed opu)
      if s.running = 4 && s.retried then endSv opu 4 d
      else radialMove opu delta (d.onServo opu fun s => { s with retried := s.running == 4 })
    else
      let d := radialMove opu delta d
      if onTarget then nowTracking opu d else d

/-- TRACK_ACQUIRE: OP 3, or the acquisition at the end of a seek or in RECOVER. `settled` tells whether the crossing rate
has stayed low within 20 ms. -/
def trackAcquire (opu : Nat) (settled onTarget : Bool) (d : Dev) : Dev :=
  match takeSv opu 3 d with
  | some d =>
    if (d.servo opu).focus != .closed then endSv opu 2 d
    else
      let d := (d.setSv opu svTrkAcq).onServo opu fun s => { s with wantTrack := d.sv opu svTrack }
      if !settled then endSv opu 1 (bandMissed opu (d.setSv opu svFocused)) else trackClose opu onTarget d
  | none =>
    let st := d.svSt opu
    if !d.opuReady opu || d.jumping opu || (d.servo opu).focus != .closed then d
    else if st = svTrkAcq && (d.servo opu).trkClosed && onTarget then nowTracking opu d
    else if st = svTrkAcq || st = svRecover || st = svSeeking then
      if !settled then endSv opu 1 (bandMissed opu (d.setSv opu svFocused)) else trackClose opu onTarget d
    else d

/-- SV_SEEK: OP 4; a side that is not the OPU's, or focus not closed, is refused with RESULT 2; layer jumps come first,
`steps` as in `layerWalk` (R269, R270). -/
def svSeek (opu : Nat) (otherSide : Bool) (steps : List Nat) (d : Dev) : Dev :=
  let move := fun (d : Dev) =>
    if d.svSt opu = svLayerJump || (d.servo opu).running != 4 then d
    else
      let delta : Int := ((d.servo opu).wantTrack : Int) - d.fg .RCS_BAND_BASE_TRACK opu
      if delta = 0 && d.svSt opu = svTracking then endSv opu 0 d
      else radialMove opu delta (inhReason opu 4 true (d.setSv opu svSeeking))
  match takeSv opu 4 d with
  | some d =>
    if otherSide || (d.servo opu).focus != .closed then endSv opu 2 d
    else move (layerWalk opu steps (d.onServo opu fun s =>
      { s with wantTrack := d.sv opu svTrack, wantLayer := d.sv opu svArgLayer }))
  | none =>
    if d.opuReady opu && d.svSt opu == svLayerJump && (d.servo opu).running == 4 then move (layerWalk opu steps d) else d

/-- SV_OPEN: OP 5. -/
def svOpenCmd (opu : Nat) (d : Dev) : Dev :=
  match takeSv opu 5 d with
  | some d => endSv opu 0 (servoOpen opu (apcStop opu d))
  | none => d

/-- TRACK_HOLD: OP 6: every jump is of 0 tracks until the next command; RESULT 2 outside TRACKING. -/
def trackHold (opu : Nat) (d : Dev) : Dev :=
  match takeSv opu 6 d with
  | some d =>
    if d.svSt opu != svTracking then endSv opu 2 d
    else endSv opu 0 (d.onServo opu fun s => { s with holding := true })
  | none => d

/-! Band jumps and landings (R263 to R268). -/

/-- INHIBIT_RELEASE: at a window opening TRK clears the inhibit when release was asked and no reason remains (R265). -/
def inhibitRelease (opu : Nat) (d : Dev) : Dev :=
  if d.sv opu svClrToken != d.sv opu svClrEcho && d.sv opu svInhSrc == 0 && d.sv opu svHold == 0
      && d.is .RCS_BAND_RES_OK opu then
    portWrite (4 + opu) (64 * opu + 14) 0 0#128 (d.svSet opu svClrEcho (d.sv opu svClrToken))
  else d

/-- BAND_JUMP: a window opening in TRACKING (R263). -/
def bandJump (opu : Nat) (d : Dev) : Dev :=
  if !d.opuReady opu || d.svSt opu != svTracking || d.jumping opu then d
  else
    let s := d.servo opu
    let asked := signed 8 (d.sv opu svNextJ)
    let j : Int := if s.hold0 || s.holding || asked < -24 || 24 < asked then 0 else asked
    let d := inhibitRelease opu d
    let d := writeBand opu ((d.fg .RCS_BAND_BASE_TRACK opu : Int) + j).toNat d
    let d := (d.svSet opu svTrkPk s.trkPk).svSet opu svFocPk s.focPk
    let d := d.onServo opu fun s =>
      { s with focOfs := d.sv opu svFocOfs, trkOfs := d.sv opu svTrkOfs, trkPk := 0, focPk := 0, hold0 := false
               landing := 0, learn := s.learn - 1 }
    let d := d.cond (s.learn == 1) fun d => d.svSet opu svLearn 0
    d.cond (j != 0) (jumpStart opu j 2)

/-- The offset of the band an OPU is on, from the track numbers of TS0 and TS1 (R267). -/
def Dev.bandOffset (d : Dev) (opu : Nat) : Option Int :=
  [d.bw (4 + opu) 6 0, d.bw (4 + opu) 6 1].findSome? fun s =>
    (spotTrack d (24 * opu + s)).map fun t => (t : Int) - (d.fg .RCS_BAND_BASE_TRACK opu + s : Nat)

/-- MISLANDING_RECOVERY (R267). -/
def misland (opu : Nat) (d : Dev) : Dev :=
  let d := loopEvent (4 + opu) (inhReason opu 2 true d)
  let d := bandMissed opu d
  let d := d.onServo opu fun s => { s with hold0 := true }
  match d.bandOffset opu with
  | some k =>
    if k.natAbs ≤ 24 then d.cond (k != 0) (jumpStart opu (-k) 2)
    else svRecoverNow opu false (d.onServo opu fun s => { s with wantTrack := d.fg .RCS_BAND_BASE_TRACK opu })
  | none => svRecoverNow opu false (d.onServo opu fun s => { s with wantTrack := d.fg .RCS_BAND_BASE_TRACK opu })

/-- LANDING_DECISION from the band result of wedge W0 to W3 (R266). -/
def landingDecision (opu wedge : Nat) (d : Dev) : Dev :=
  let s := d.servo opu
  if !d.opuReady opu || d.svSt opu != svTracking || d.jumping opu || s.landing = 4 || s.landing != wedge
      || d.fg .RCS_BAND_RES_WEDGE_LO opu != wedge then d
  else
    let known := 24 - d.fg .RCS_BAND_RES_UNKNOWN opu
    let bad := popCount 24 (d.fg .RCS_BAND_RES_MISMATCH opu)
    let record := fun (mis fall : Bool) (d : Dev) =>
      let delta := limitI (-127) 127 (if mis then (d.bandOffset opu).getD 0 else 0)
      let d := (d.svSet opu svDelta (unsigned 8 delta)).svSet opu svWedge wedge
      let d := (d.svSet opu svMisland (bit mis)).svSet opu svFallback (bit fall)
      let d := d.cond mis fun d => d.svSet opu svCount (limitN 0 65535 (d.sv opu svCount + 1))
      d.onServo opu fun s => { s with landing := 4 }
    if 12 ≤ known && bad = 0 then
      (inhReason opu 2 false (record false false d)).onOpuFw opu fun f => { f with lost := 0 }
    else if 12 ≤ known && 3 ≤ bad then misland opu (record true false d)
    else if wedge = 3 then misland opu (record true true d)
    else d.onServo opu fun s => { s with landing := wedge + 1 }

/-! Limits and faults (R271, R272, R686). -/

/-- An OPU serves no recording for an LDC or APC reason: recording pauses and OPC is due (Table 7-10). -/
def apcPause (opu : Nat) (d : Dev) : Dev :=
  (inhReason opu 6 true d).onOpuFw opu fun f => { f with paused := true, opcDue := true }

/-- A jump's profile ended by a fault: the code returns to the controller's own output (R268). -/
def jumpEnd (opu : Nat) (d : Dev) : Dev := d.onServo opu fun s => { s with profile := [], jumpTerm := 0, settle := 0 }

/-- LOOP_LIMIT_BREACH, the condition by its row of Table 7-10 from the top; 10 is a fine actuator range not recovered
within 100 ms. -/
def loopLimit (opu kind : Nat) (d : Dev) : Dev :=
  if !d.opuReady opu then d
  else
    let d := loopEvent (if kind ≤ 2 then opu else if kind = 6 || kind = 10 then 61 + opu else if kind = 7 || kind = 9 then
      9 + 12 * opu else 4 + opu) d
    let d := d.cond (kind ≤ 5) (jumpEnd opu)
    match kind with
    | 0 => inhReason opu 0 true d
    | 1 => d
    | 2 => svRecoverNow opu true (inhReason opu 0 true d)
    | 3 => inhReason opu 1 true d
    | 4 =>
      let band := d.fg .RCS_BAND_BASE_TRACK opu
      svRecoverNow opu false (bandMissed opu ((inhReason opu 1 true d).onServo opu fun s => { s with wantTrack := band }))
    | 5 =>
      let d := (inhReason opu 3 true d).onServo opu fun s =>
        { s with sats := (d.qtime :: s.sats).filter fun t => d.qtime < t + 10 * second }
      let closed := (d.servo opu).trkClosed
      let band := d.fg .RCS_BAND_BASE_TRACK opu
      if 3 ≤ (d.servo opu).sats.length then svFaultNow opu d
      else svRecoverNow opu (!closed)
        (d.cond closed fun d => bandMissed opu (d.onServo opu fun s => { s with wantTrack := band }))
    | 6 =>
      let d := d.setInhibit opu true
      let n := 61 + opu
      if (d.servo opu).fast then d
      else ((d.fs .SLOT_PER_PERIOD (d.fg .SLOT_PER_PERIOD n / 2) n).onSlot n fun s => { s with renew := true }).onServo opu
        fun s => { s with fast := true }
    | 7 => apcPause opu d
    | 8 => svFaultNow opu d
    | 9 => apcPause opu d
    | _ => svFaultNow opu d

/-- Every running command that needs a side that no OPU can serve ends: one that waits for a sheet of it, and any that needs a
disc where the other side has no OPU either (R272). -/
def failSide (side : Nat) (d : Dev) : Dev :=
  let none_ := !(d.opus.any fun o => opuSide o != side && d.canServe o)
  d.each d.running fun d c =>
    let waits := c.binds.any fun b => b.result.isNone && ((b.psa.map psaSide) == some side)
    d.cond (needsDisc c.opcode && !c.buffered && (waits || none_)) fun d => d.endCmd c.id 6 1

/-- Firmware no longer uses an OPU: commands of its side fail where none remains (R272). -/
def withdrawOpu (opu : Nat) (d : Dev) : Dev :=
  let d := ((d.onOpuFw opu fun f => { f with withdrawn := true }).event { code := 0x2002, src := opu }).attn 8
  let d := passSheets opu false true d
  d.cond (!d.canServe (otherOpu opu)) fun d => failSide (opuSide opu) d

/-- OPU_FAULT_RESTART: an OPU that is FAULT is restarted, at most three times in 10 minutes; after a fourth fault in that time
it is withdrawn (R272). The restart calibrates groups 0 and 1 with the loops open, and once they have ended begins again from
focus acquisition (R349). -/
def opuFaultRestart (opu : Nat) (d : Dev) : Dev :=
  if !d.opuReady opu || (d.opuFw opu).withdrawn then d
  else if (d.servo opu).restart && d.svSt opu == svOpen then
    d.cond (!d.calWaits (3 * 2 ^ pairBit opu 0)) (focBegin opu none)
  else if d.svSt opu != svFault then d
  else
    let recent := (d.opuFw opu).faults.filter fun t => d.qtime < t + 600 * second
    let d := d.onOpuFw opu fun f => { f with faults := recent }
    if 4 ≤ recent.length then withdrawOpu opu d
    else
      let was := d.servo opu
      let d := servoOpen opu (d.event { code := 0x2001, src := opu, rung := recent.length })
      calTrigger (3 * 2 ^ pairBit opu 0) (d.onServo opu fun s =>
        { s with restart := true, wantLayer := was.wantLayer, wantTrack := was.wantTrack })

/-- BAND_LOST_LIMIT: eight lost revolutions in a row on one band, or a seek that ended with RESULT 4: the OPU is in FAULT,
and the work of the band passes to the other OPU of the side, or the commands that need it end (R686). -/
def bandLost (opu : Nat) (cmds : List Nat) (d : Dev) : Dev :=
  if !d.opuReady opu || ((d.opuFw opu).lost < 8 && d.sv opu svResult != 4) then d
  else
    let d := svFaultNow opu (d.onOpuFw opu fun f => { f with lost := 0 })
    let o := otherOpu opu
    if d.canServe o then passSheets opu true false d
    else
      let f := sideFail d (opuSide opu) fun w => w.reached
      d.each cmds fun d c => d.endCmd c f.1 f.2

/-! Firmware and the sled (R318, R322). -/

/-- HOME_FAIL: the sequence stops; firmware retries once with I_HOME raised by 25 %, and treats a second failure as an OPU
fault (R318). -/
def homeFailed (opu steps : Nat) (learning : Bool) (d : Dev) : Dev :=
  let was := (d.sled opu).fails
  let d := homeFail opu steps learning d
  if (d.sled opu).fails = was then d
  else
    let d := d.event { code := 0x2005, src := opu, rung := was + 1 }
    if was = 0 then
      let i := d.fg .SLD_HOME2_I_HOME opu
      sldHome opu (d.fs .SLD_HOME2_I_HOME (limitN 0 1023 (openDiv (5 * i) 4)) opu)
    else svFaultNow opu d

/-- OPU_PARK: the loops open, LS61 + OPU stopped, SRC = 1, and the target the park position corrected by the drift; a sled
of uncertain position is homed first, and parks when the command comes again (R322). -/
def opuPark (opu : Nat) (pos : Int) (speed : Nat) (d : Dev) : Dev :=
  if !d.opuReady opu then d
  else
    let d := (slotStop (61 + opu) (servoOpen opu (apcStop opu d))).fs .SLD_CTL_SRC 1 opu
    if d.is .SLD_STAT_POS_UNSURE opu then sldHome opu d
    else sldTgtWrite opu (BitVec.ofInt 32 (4096 + (d.sled opu).drift)) pos speed d

/-! The effects of the commands. -/

/-- FOCUS_ACQUIRE (R257). -/
def execFocusAcquire (opu : Fin 4) (side : Fin 2) (found : List (Fin 8)) (s : State) :
    Host.Outcome State Fault Refusal :=
  s.onDev (focusAcquire opu side (found.map (·.val)))

/-- FOCUS_SWEEP_FAIL (R258). -/
def execFocusSweepFail (opu : Fin 4) (s : State) : Host.Outcome State Fault Refusal := s.onDev (focusSweepFail opu)

/-- LAYER_JUMP (R259). -/
def execLayerJump (opu : Fin 4) (steps : List (Fin 8)) (s : State) : Host.Outcome State Fault Refusal :=
  s.onDev (layerJump opu (steps.map (·.val)))

/-- LAYER_STEP_TIMEOUT (R260). -/
def execLayerStepTimeout (opu : Fin 4) (s : State) : Host.Outcome State Fault Refusal :=
  s.onDev (layerStepTimeout opu)

/-- TRACK_ACQUIRE (R261). -/
def execTrackAcquire (opu : Fin 4) (settled : Bool) (onTarget : Bool) (s : State) :
    Host.Outcome State Fault Refusal :=
  s.onDev (trackAcquire opu settled onTarget)

/-- SV_SEEK (R269). -/
def execSvSeek (opu : Fin 4) (otherSide : Bool) (steps : List (Fin 8)) (s : State) :
    Host.Outcome State Fault Refusal :=
  s.onDev (svSeek opu otherSide (steps.map (·.val)))

/-- SV_OPEN (R256). -/
def execSvOpen (opu : Fin 4) (s : State) : Host.Outcome State Fault Refusal := s.onDev (svOpenCmd opu)

/-- TRACK_HOLD (R256). -/
def execTrackHold (opu : Fin 4) (s : State) : Host.Outcome State Fault Refusal := s.onDev (trackHold opu)

/-- BAND_JUMP (R263). -/
def execBandJump (opu : Fin 4) (s : State) : Host.Outcome State Fault Refusal := s.onDev (bandJump opu)

/-- LANDING_DECISION (R266). -/
def execLandingDecision (opu : Fin 4) (wedge : Fin 4) (s : State) : Host.Outcome State Fault Refusal :=
  s.onDev (landingDecision opu wedge)

/-- LOOP_LIMIT_BREACH (R271). -/
def execLoopLimitBreach (opu : Fin 4) (kind : Fin 11) (s : State) : Host.Outcome State Fault Refusal :=
  s.onDev (loopLimit opu kind)

/-- OPU_FAULT_RESTART (R272). -/
def execOpuFaultRestart (opu : Fin 4) (s : State) : Host.Outcome State Fault Refusal := s.onDev (opuFaultRestart opu)

/-- BAND_LOST_LIMIT (R686). -/
def execBandLostLimit (opu : Fin 4) (cmds : List Nat) (s : State) : Host.Outcome State Fault Refusal :=
  s.onDev (bandLost opu cmds)

/-- HOME_FAIL (R318). -/
def execHomeFail (opu : Fin 4) (steps : Nat) (learning : Bool) (s : State) : Host.Outcome State Fault Refusal :=
  s.onDev (homeFailed opu steps learning)

/-- OPU_PARK (R322). -/
def execOpuPark (opu : Fin 4) (pos : Int) (speed : Nat) (s : State) : Host.Outcome State Fault Refusal :=
  s.onDev (opuPark opu pos speed)

end Sys2Proof.Machine
end

