-- ==== Sys2Proof/Machine/Detector.lean ====
section
/-!
DEFINITION. Leaf capture, the detector, the LC23 demodulator, the defect pointers and the deposit entry
(03_read_channel_slices.md R102 to R107; 04_sheet_decoding.md R111 to R122).
-/

namespace Sys2Proof.Machine

/-! The deckle window (R103, R104, R106). -/

/-- The ideal response to the sync mark preceded by the preamble, two bits after the mark's start, for a frame that begins
at a level; the two bits after the mark keep its last level. -/
def syncResponse (t : Nat × Nat × Nat) (start : Bool) : List Int :=
  let lv := (nrzi start (preambleBits ++ syncMarkBits)).toArray
  let a := fun (n : Nat) => lv.getD (limitN 0 239 n) start
  (List.range 48).map fun i =>
    let n := 194 + i
    idealOut t (a n) (a (n - 1)) (a (n - 2)) (a (n - 3)) (a (n - 4))

/-- Counted positions and mismatches of a candidate against a response (R104). DESIGN CHOICE (notes/assumptions/124.md): an
unmarked output of 0 counts as a mismatch. -/
def syncScore (ys : Array (Int × Bool)) (c : Nat) (resp : List Int) : Nat × Nat :=
  (resp.zipIdx).foldl (fun s e =>
    let y := ys.getD (c + 2 + e.2) (0, true)
    if e.1 = 0 || y.2 then s else (s.1 + 1, if 0 < y.1 * e.1 then s.2 else s.2 + 1)) (0, 0)

/-- The accepted candidate: its offset from nominal and its mismatches. A leaf that begins inside a data field may begin at
either level: a candidate is judged against the response that fits it better. -/
def syncSearch (ys : Array (Int × Bool)) (t : Nat × Nat × Nat) (tol : Nat) : Option (Int × Nat) :=
  let up := syncResponse t true
  let dn := syncResponse t false
  (List.range 49).foldl (fun b i =>
    let u := syncScore ys (192 + i) up
    let v := syncScore ys (192 + i) dn
    let mis := limitN 0 v.2 u.2
    let o : Int := (i : Int) - 24
    if tol < mis || u.1 < 24 then b
    else match b with
      | none => some (o, mis)
      | some (p, m) => if mis < m || (mis = m && o.natAbs < p.natAbs) then some (o, mis) else b) none

/-- The sign changes over the first 240 outputs (R106); an output of 0 counts as positive. -/
def signChanges (ys : List (Int × Bool)) : Nat :=
  let s := (ys.take 240).map fun y => decide (y.1 < 0)
  ((s.zip (s.drop 1)).filter fun p => p.1 != p.2).length

/-! LEAF_CAPTURE. -/

/-- Track, side and layer that field `k` of a slice is taken to lie on: the slice's own record of wedge k where valid and not
ambiguous, else the band's (R103). -/
def Dev.fieldIdentity (d : Dev) (rcs k : Nat) : Nat × Nat × Nat :=
  let o := rcs / 24
  let w := sparseGet {} (d.slice rcs).ids k
  if w.tvalid && !w.ambig && w.slvalid then (w.track, w.side, w.layer)
  else (d.fg .RCS_BAND_BASE_TRACK o + rcs % 24, d.fg .RCS_BAND_BASE_SIDE o, d.fg .RCS_BAND_BASE_LAYER o)

/-- Whether the slice inverts the outputs of field `k`: by the field's scrambler polarity bit, and where a mark gives a negative
code (R103). -/
def Dev.fieldInverted (d : Dev) (rcs k : Nat) : Bool :=
  let id := d.fieldIdentity rcs k
  polarity id.2.1 id.2.2 id.1 k != d.is .RCS_CTL_MARK_NEG rcs

/-- PCODE of RCS_FMT: 3 acts as 1. -/
def fmtPcode (w : DWord) : Nat := if bitsOf w.toNat 6 2 = 3 then 1 else bitsOf w.toNat 6 2
/-- P of a P code (Table 2-9). -/
def pOfCode (c : Nat) : Nat := if c = 0 then 4 else if c = 2 then 8 else 6

/-- The `n` released outputs of a slice from a data-stream position on, or none while they have not all been released. What lies
before the data stream begins is taken as marked (R104). -/
def Slice.released (s : Slice) (first : Int) (n : Nat) : Option (List Sample) :=
  let end_ := first + n
  if (s.outEnd : Int) < end_ then none
  else
    let held := ((s.out.drop ((s.outEnd : Int) - end_).toNat).take n).reverse
    some (List.replicate (n - held.length) { y := 0, marked := true } ++ held)

/-- The slice without the leaf in capture at a position, and without the outputs that no later leaf needs. -/
def Slice.framed (s : Slice) (frame pos : Nat) : Slice :=
  let rest := s.begun.filter fun b => b.pos != pos
  let keep := match rest with
    | b :: _ => s.outEnd - (b.pos * frame - 24)
    | [] => 64
  { s with begun := rest, out := s.out.take keep }

/-- A leaf framed from its outputs, or found blank (R102 to R107). DESIGN CHOICE (notes/assumptions/125.md): SYNC_OFS and SYNC_MIS
are 0 where no candidate is accepted. -/
def frameLeaf (rcs : Nat) (b : Begun) (d : Dev) : Dev :=
  let pk := d.pickup (rcs / 24)
  let s := d.slice rcs
  let k := fmtClass pk.fmt
  let level := fmtLevel pk.fmt
  let pc := fmtPcode pk.fmt
  let kp := slotsPerTrack k { level := level, p := pOfCode pc }
  let f := frameBits level
  let n := codewordBits level / 2 * 3
  let df := dataBits k
  let first : Int := (b.pos : Int) * f - 24
  match s.released first 240 with
  | none => d
  | some head =>
    let blank := signChanges (head.map fun y => (y.y, y.marked)) < d.fg .RCS_SYNC_BLANK_THR rcs
    let id := d.fieldIdentity rcs (b.pos * f / df)
    let facts : LeafFacts :=
      { rcs := rcs, role := d.fg .RCS_CTL_ROLE rcs, track := id.1 % 2 ^ 18, side := id.2.1, layer := id.2.2, pos := b.pos
        slot := b.pos % kp, leaf := b.pos / kp, tgt := b.tgt, tloss := b.tloss, level := level, pcode := pc, blank := blank }
    let base : Captured := { facts := facts, detCtl := pk.detCtl, detLlr := pk.detLlr, rev := b.rev, qtime := d.qtime }
    if blank then
      (d.bump .RCS_CNT_BLANK rcs).onSlice rcs fun s => { s.framed f b.pos with capt := some base }
    else match s.released first (n + 312) with
    | none => d
    | some raw =>
      let inverted := (List.range (n / df + 3)).map fun j => d.fieldInverted rcs (b.pos * f / df - 1 + j)
      let pol := fun (x : Int) => 0 ≤ x && inverted.getD (x.toNat / df - (b.pos * f / df - 1)) false
      let ys := (raw.zipIdx).map fun e => if pol (first + e.2) then (-e.1.y, e.1.marked) else (e.1.y, e.1.marked)
      let sync := syncSearch ys.toArray b.taps (limitN 0 8 (d.fg .RCS_SYNC_TOL rcs))
      let i0 := (216 + (match sync with | some (o, _) => o | none => 0) + 48).toNat
      let take := (ys.drop (i0 - 8)).take (n + 8)
      let x0 := (first + i0).toNat
      let cuts := (List.range (n + 8)).filterMap fun i =>
        if (x0 + i - 8) % df = 0 then some (i, pol ((x0 + i - 8 : Nat) : Int)) else none
      let fa := { facts with
        marked := limitN 0 65535 ((take.drop 8).filter (·.2)).length, syncFound := sync.isSome
        syncOfs := (sync.map (·.1)).getD 0, syncMis := limitN 0 15 ((sync.map (·.2)).getD 0) }
      let d := d.cond sync.isNone fun d => (d.fs .RCS_STAT_SYNC_MISS 1 rcs).bump .RCS_CNT_SYNC_MISS rcs
      (d.bump .RCS_CNT_LEAF rcs).onSlice rcs fun s =>
        { s.framed f b.pos with
          capt := some { base with
            facts := fa, start := x0, ys := take.map fun y => { y := y.1, marked := y.2 }, cuts := cuts, taps := b.taps } }

/-- LEAF_CAPTURE: the slice's input up to the end of a leaf, and the leaf at a position framed once its outputs have been released
and the leaf before it deposited (R104). -/
def leafCapture (rcs pos : Nat) (wave : List Int) (d : Dev) : Dev :=
  let d := sliceRun rcs wave d
  if !d.sliceRuns rcs || (d.slice rcs).capt.isSome then d
  else match (d.slice rcs).begun.find? fun b => b.pos == pos with
  | some b => frameLeaf rcs b d
  | none => d

/-! The detector (R112 to R114). -/

/-- The metric of a branch from a state, whose bit 0 is the latest level, by a new level. -/
def branchMetric (t : Nat × Nat × Nat) (y : Sample) (st : Nat) (a : Bool) : Int :=
  if y.marked then 0
  else
    let e := y.y - idealOut t a (st.testBit 0) (st.testBit 1) (st.testBit 2) (st.testBit 3)
    e * e

/-- A metric that no path reaches. -/
def farMetric : Int := 10 ^ 12

/-- One forward step of the trellis. -/
def forward (t : Nat × Nat × Nat) (m : Array Int) (y : Sample) : Array Int :=
  ((List.range 16).map fun n =>
    let a := n.testBit 0
    let p := n / 2
    let u := m.getD p 0 + branchMetric t y p a
    let v := m.getD (p + 8) 0 + branchMetric t y (p + 8) a
    if u < v then u else v).toArray

/-- One backward step of the trellis. -/
def backward (t : Nat × Nat × Nat) (m : Array Int) (y : Sample) : Array Int :=
  ((List.range 16).map fun s =>
    let u := m.getD (2 * s % 16) 0 + branchMetric t y s false
    let v := m.getD (2 * s % 16 + 1) 0 + branchMetric t y s true
    if u < v then u else v).toArray

/-- The backward metrics of a stretch whose end is one state, or free. -/
def endMetrics (s : Option Nat) : Array Int :=
  match s with
  | none => Array.replicate 16 0
  | some n => ((List.range 16).map fun k => if k = n then 0 else farMetric).toArray

/-- The state 32 T later through which the best path of the decision delay passes; none where the stretch ends within the
reliability update window (R114). -/
def mergeState (t : Nat × Nat × Nat) (m : Array Int) (y : Sample) (ahead : List Sample) : Option Nat :=
  if ahead.length ≤ 32 then none
  else
    let f := (y :: ahead.take 32).foldl (forward t) m
    let b := (ahead.drop 32).foldr (fun z m => backward t m z) (endMetrics none)
    ((List.range 16).foldl (fun (r : Option (Nat × Int)) s =>
      let v := f.getD s 0 + b.getD s 0
      match r with
      | none => some (s, v)
      | some x => if v < x.2 then some (s, v) else r) none).map (·.1)

/-- The soft value of one channel bit: the least metric with c = 1 less the least with c = 0, over the paths that have merged with
the best path of the decision delay within the reliability update window; `ahead` are the 48 outputs after this one (R114;
notes/assumptions/22.md). -/
def softBit (t : Nat × Nat × Nat) (m : Array Int) (y : Sample) (ahead : List Sample) : Int :=
  let b := (ahead.take 32).foldr (fun z m => backward t m z) (endMetrics (mergeState t m y ahead))
  let best := fun (c : Bool) => (List.range 16).foldl (fun (r : Int) s =>
    let a := c != s.testBit 0
    let v := m.getD s 0 + branchMetric t y s a + b.getD (2 * s % 16 + bit a) 0
    if v < r then v else r) (2 * farMetric)
  best true - best false

/-- The soft values of one stretch of outputs, from starting state metrics. -/
def softRun (t : Nat × Nat × Nat) : Array Int → List Sample → List Int
  | _, [] => []
  | m, y :: rest => softBit t m y (rest.take 48) :: softRun t (forward t m y) rest

/-- The metrics of a stretch that starts in one fixed state: all four previous levels the same. -/
def fixedState (mark : Bool) : Array Int :=
  ((List.range 16).map fun s => if s = (if mark then 15 else 0) then 0 else farMetric).toArray

/-- The soft values of a leaf: equal metrics at the start, one fixed state at every later data field (R113). -/
def softLeaf (c : Captured) : List Int :=
  let bounds := c.cuts ++ [(c.ys.length, false)]
  (bounds.foldl (fun (r : List Int × Nat × Array Int) b =>
    (r.1 ++ softRun c.taps r.2.2 ((c.ys.drop r.2.1).take (b.1 - r.2.1)), b.1, fixedState b.2))
    ([], 0, Array.replicate 16 0)).1.drop 8

/-! The soft demodulator (R115, R116). -/

/-- Every sequence of channel bits that the rule of R44 can give the pairs of a window, with the pairs: `before` and
`after` tell whether pairs precede and follow the window. -/
def lcCandidates (pairs : Nat) (before after : Bool) : List (List Bool × List Bool) :=
  (List.range (4 ^ pairs)).flatMap fun v =>
    let u := (List.range (2 * pairs)).map fun i => v.testBit i
    let fresh := lcEncode u
    let heads := if before && u.headD false then [fresh, [false, false, false] ++ lcEncode (u.drop 2)] else [fresh]
    heads.flatMap fun ch =>
      let a := u.getD (2 * pairs - 2) false
      let b := u.getD (2 * pairs - 1) false
      let tail := ch.drop (3 * pairs - 3)
      let more := if after && a != b && tail != [false, false, false] then
          [false, true].map fun d => (u, ch.take (3 * pairs - 3) ++ (lcSubst a d).take 3)
        else []
      (u, ch) :: more

/-- Twice the metric of a candidate (R115). -/
def lcMetric (ch : List Bool) (soft : List Int) : Int :=
  (ch.zip soft).foldl (fun a e => if e.1 then a - e.2 else a + e.2) 0

/-- For pair `i` of `n`: twice the soft values of its two bits, and the groups that encode it, by the best candidate. -/
def demodPair (soft : Array Int) (n i : Nat) : Int × Int × List Nat :=
  let lo := i - 2
  let hi := limitN 0 (n - 1) (i + 2)
  let w := hi + 1 - lo
  let vals := (List.range (3 * w)).map fun k => soft.getD (3 * lo + k) 0
  let cs := (lcCandidates w (lo != 0) (hi + 1 != n)).map fun c => (c.1, c.2, lcMetric c.2 vals)
  let best := fun (k : Nat) (b : Bool) => cs.foldl (fun (r : Option Int) c =>
    if c.1.getD (2 * (i - lo) + k) false != b then r
    else match r with
      | none => some c.2.2
      | some v => some (if v < c.2.2 then c.2.2 else v)) none
  let lam := fun k => (best k false).getD 0 - (best k true).getD 0
  let top := cs.foldl (fun (r : Option (List Bool × Int)) c => match r with
    | none => some (c.2.1, c.2.2)
    | some v => if v.2 < c.2.2 then some (c.2.1, c.2.2) else r) none
  let ch := (top.map (·.1)).getD []
  let zero := fun (g : Nat) => ((ch.drop (3 * g)).take 3).all (! ·) && g < w
  let g := i - lo
  (lam 0, lam 1, [i] ++ (if zero g && 0 < i then [i - 1] else []) ++ (if zero (g + 1) then [i + 1] else []))

/-- The codeword's LLRs (R116): a bit is erased where a group that encodes it holds a bad channel bit. The second part
counts the erased bits. -/
def demodulate (gain : Nat) (soft : List Int) (bad : List Bool) : List Int × Nat :=
  let n := soft.length / 3
  let sa := soft.toArray
  let ba := bad.toArray
  let r := (List.range n).flatMap fun i =>
    let p := demodPair sa n i
    let erased := p.2.2.any fun g => ba.getD (3 * g) false || ba.getD (3 * g + 1) false || ba.getD (3 * g + 2) false
    let llr := fun (v : Int) => if erased then 0 else limitI (-31) 31 (roundDiv (v * gain) 512)
    [(llr p.1, erased), (llr p.2.1, erased)]
  (r.map (·.1), (r.filter (·.2)).length)

/-! The deposit entry (R120 to R122, Tables 4-1 and 4-2). -/

/-- Values of six bits packed as a little-endian bit string. -/
def packSix : List Int → Bytes
  | a :: b :: c :: e :: rest =>
    let w := unsigned 6 a + unsigned 6 b <<< 6 + unsigned 6 c <<< 12 + unsigned 6 e <<< 18
    leBytes 3 w ++ packSix rest
  | _ => []

/-- The descriptor of Table 4-2. -/
def descriptor (f : LeafFacts) (preErased : Bool) (erased defect rev qtime : Nat) : Bytes :=
  leBytes 4 (f.rcs + f.role <<< 7 + bit f.syncFound <<< 9 + bit f.tloss <<< 10 + f.tgt <<< 11 + bit preErased <<< 12
    + f.level <<< 13 + f.pcode <<< 15 + f.layer <<< 17 + f.side <<< 20 + bit f.blank <<< 21)
  ++ leBytes 4 (f.track + f.pos <<< 18 + f.slot <<< 27)
  ++ leBytes 4 (f.leaf + unsigned 6 f.syncOfs <<< 6 + f.syncMis <<< 12 + f.marked <<< 16)
  ++ leBytes 4 (limitN 0 65535 erased + (limitN 0 65535 defect) <<< 16) ++ leBytes 4 rev ++ leBytes 4 0
  ++ leBytes 8 qtime

/-- Whether a spot is flagged at a position of a revolution after its runs are widened by GUARD on both sides (R117). -/
def spotFlag (d : Dev) (n rev guard x : Nat) : Bool :=
  d.sliceRuns n && (let s := d.slice n
    (if rev = (d.pickup (n / 24)).rev then s.hits else s.oldHits).any fun h => h ≤ x + guard && x ≤ h + guard)

/-- Whether a spot of an OPU is flagged at a position, by itself or by the band rule (R118). -/
def bandFlag (d : Dev) (opu spot : Nat) (c : Captured) (x : Nat) : Bool :=
  let hit := fun s => spotFlag d (24 * opu + s) c.rev (bitsOf c.detCtl.toNat 9 7) x
  let bandN := bitsOf c.detCtl.toNat 16 5
  let l := (List.range 24).filter hit
  hit spot || (bandN != 0 && bandN ≤ l.length && l.headD 24 ≤ spot && spot ≤ l.getLastD 0)

/-- The bytes of the deposit entry of a captured leaf. -/
def depositBytes (d : Dev) (rcs : Nat) (c : Captured) : Bytes :=
  if c.facts.blank then
    descriptor { c.facts with marked := 0 } false 0 0 c.rev c.qtime ++ leBytes 32 0
  else
    let soft := softLeaf c
    let flags := (List.range soft.length).map fun i => bandFlag d (rcs / 24) (rcs % 24) c (c.start + i)
    let marks := (c.ys.drop 8).map (·.marked)
    let bad := (marks.zip flags).map fun p => p.1 || p.2
    let r := demodulate (bitsOf c.detLlr.toNat 0 8) soft bad
    let pre := bitsOf c.detLlr.toNat 8 16 < r.2
    descriptor c.facts pre r.2 ((flags.filter id).length) c.rev c.qtime ++ packSix r.1

/-! The effects of the commands. -/

/-- LEAF_CAPTURE (R104). -/
def execLeafCapture (rcs : Fin 96) (pos : Nat) (wave : List Int) (s : State) : Host.Outcome State Fault Refusal :=
  s.onDev (leafCapture rcs pos wave)

end Sys2Proof.Machine
end

