-- ==== Sys2Proof/Machine/SheetDecode.lean ====
section
/-!
DEFINITION. The Sheet Decode Engine (04_sheet_decoding.md): the deposit ring, sheet contexts, the LDPC decoder, the
schedule of leaves, the outer stage and the result records. The retry ladder is in Ladder.
-/

namespace Sys2Proof.Machine

/-- The unit with `f` applied to the SDE. -/
def Dev.onSde (d : Dev) (f : Sde → Sde) : Dev := { d with sde := f d.sde }

/-- A little-endian number of `n` bytes at an offset of a byte run. -/
def le (b : Bytes) (off n : Nat) : Nat := leNat ((b.drop off).take n)

/-! The deposit ring (R120 to R123, R153). -/

/-- The buffer address of the deposit ring (Table 4-12). -/
def Dev.ringBase (d : Dev) : Nat := d.fg .SDE_RING_BASE * 524288
/-- The bytes of the deposit ring: sizes below 1 MiB act as 1 MiB (Table 4-12). -/
def Dev.ringSize (d : Dev) : Nat := limitN 1 127 (d.fg .SDE_RING_SIZE) * 1048576

/-- Where an entry of `n` bytes goes in the ring: none when it does not fit before the oldest entry not yet consumed
(R120, R123). -/
def Dev.ringPlace (d : Dev) (n : Nat) : Option Nat :=
  let s := d.sde
  let size := d.ringSize
  let at_ := if size < s.wp + n then 0 else s.wp
  match s.ring with
  | [] => if n ≤ size then some at_ else none
  | e :: _ =>
    if s.wp ≤ e.off then (if s.wp + n ≤ e.off then some s.wp else none)
    else if at_ = s.wp then some at_
    else if n ≤ e.off then some 0 else none

/-- A ring entry laid at an offset. -/
def Dev.ringPut (d : Dev) (off n : Nat) : Dev :=
  d.onSde fun s => { s with
    ring := s.ring ++ [{ off := off, size := n, qtime := d.qtime, order := s.deposits }]
    wp := off + n, deposits := s.deposits + 1 }

/-- A ring entry consumed. -/
def Dev.ringRelease (d : Dev) (off : Nat) : Dev :=
  d.onSde fun s => { s with ring := s.ring.filter fun e => e.off != off }

/-- SDE_RING_WRITE: only while the engine is disabled and no slice captures (R153). The new ring is empty. -/
def sdeRingWrite (v : DWord) (d : Dev) : Dev :=
  if d.is .SDE_CTL_EN || d.slices.any (fun e => e.2.capt.isSome) then d
  else
    let d := (d.fs .SDE_RING_BASE (bitsOf v.toNat 0 15)).fs .SDE_RING_SIZE (bitsOf v.toNat 16 7)
    d.onSde fun s => { s with wp := 0, ring := [] }

/-! Deposit descriptors, read back (Table 4-2). -/

/-- The facts that a descriptor carries and that the SDE uses. -/
structure Descr where
  rcs : Nat
  role : Nat
  syncFound : Bool
  tloss : Bool
  tgt : Nat
  preErased : Bool
  level : Nat
  layer : Nat
  side : Nat
  blank : Bool
  track : Nat
  slot : Nat
  leaf : Nat
  syncOfs : Nat
  syncMis : Nat
  marked : Nat
  erased : Nat
  qtime : Nat

/-- A descriptor's fields from its 32 bytes. -/
def Descr.of (b : Bytes) : Descr :=
  let w0 := le b 0 4
  let w1 := le b 4 4
  let w2 := le b 8 4
  { rcs := bitsOf w0 0 7, role := bitsOf w0 7 2, syncFound := w0.testBit 9, tloss := w0.testBit 10, tgt := bitsOf w0 11 1,
    preErased := w0.testBit 12, level := bitsOf w0 13 2, layer := bitsOf w0 17 3, side := bitsOf w0 20 1,
    blank := w0.testBit 21, track := bitsOf w1 0 18, slot := bitsOf w1 27 3, leaf := bitsOf w2 0 6,
    syncOfs := bitsOf w2 6 6, syncMis := bitsOf w2 12 4, marked := bitsOf w2 16 16, erased := le b 12 2,
    qtime := le b 24 8 }

/-- The LLR bytes of an inner level: six bits for each codeword bit (Table 4-1). -/
def llrBytes (level : Nat) : Nat := codewordBits level * 6 / 8

/-- The bytes of an entry (Table 4-1). -/
def Descr.size (e : Descr) : Nat := if e.blank then 64 else 32 + llrBytes e.level

/-! Sheet contexts (R124 to R126, Table 4-3). -/

/-- The buffer address of a context's record. -/
def Dev.ctxAddr (d : Dev) (i : Nat) : Nat := d.fg .SDE_CTX_BASE * 65536 + 64 * i

/-- A context's record as the SDE reads it. -/
structure CtxRec where
  psa : Nat
  n : Nat
  mode : Nat
  bytePtr : Bool
  level : Nat
  pcode : Nat
  lsn : Nat
  need : Nat
  rung : Nat
  dat : Nat
  scratch : Nat
  hold : Nat

/-- A context's fields from its 64 bytes. -/
def CtxRec.of (b : Bytes) : CtxRec :=
  let m := le b 7 1
  { psa := le b 0 5, n := le b 5 1, mode := bitsOf m 0 2, bytePtr := m.testBit 2, level := bitsOf m 3 2,
    pcode := bitsOf m 5 2, lsn := le b 8 4, need := le b 12 5, rung := bitsOf (le b 17 1) 0 4, dat := le b 24 8,
    scratch := le b 32 8, hold := le b 40 8 }

/-- The record of a context, read from the buffer. -/
def Dev.ctxRec (d : Dev) (i : Nat) : CtxRec × Dev :=
  let r := d.bufGet 5 (d.ctxAddr i) 64
  (CtxRec.of r.1, r.2)

/-- What the SDE keeps of a context. -/
def Dev.ctx (d : Dev) (i : Nat) : Context := sparseGet {} d.sde.ctxs i

/-- The unit with `f` applied to a context. -/
def Dev.onCtx (d : Dev) (i : Nat) (f : Context → Context) : Dev :=
  d.onSde fun s => { s with ctxs := sparseSet {} s.ctxs i (f (d.ctx i)) }

/-- The leaves that a context's record wants: NEED bits below N. -/
def CtxRec.wanted (c : CtxRec) : List Nat := (List.range (limitN 0 40 c.n)).filter fun j => c.need.testBit j

/-- Whether a context still waits for leaf `j`: it is wanted, has no result and is not on its way through the engine. -/
def Dev.waitsFor (d : Dev) (i : Nat) (c : CtxRec) (j : Nat) : Bool :=
  c.wanted.contains j && !(d.ctx i).results.any (fun r => r.1 == j)
    && !d.sde.ready.any (fun r => r.ctx == i && r.leaf == j)
    && !(match d.sde.run with
        | some r => r.ready.ctx == i && r.ready.leaf == j
        | none => false)

/-- The lowest open context of a side, layer, track and slot (R125), with its record. -/
def findCtx (side layer track slot : Nat) : List Nat → Dev → Option (Nat × CtxRec) × Dev
  | [], d => (none, d)
  | i :: rest, d =>
    let r := d.ctxRec i
    let a := r.1.psa
    if psaSide a == side && psaLayer a == layer && psaTrack a == track && psaSlot a == slot then (some (i, r.1), r.2)
    else findCtx side layer track slot rest r.2

/-- The open contexts, lowest index first. -/
def Dev.openCtxs (d : Dev) : List Nat := (d.sde.ctxs.filter fun e => e.2.open_).map (·.1)

/-- The context that a leaf belongs to and that waits for it; none for an orphan (R125). -/
def Dev.matchLeaf (d : Dev) (side layer track slot leaf : Nat) : Option (Nat × CtxRec) × Dev :=
  let r := findCtx side layer track slot d.openCtxs d
  match r.1 with
  | some (i, c) => if r.2.waitsFor i c leaf then (some (i, c), r.2) else (none, r.2)
  | none => (none, r.2)

/-! Result records (R143, Tables 4-6 and 4-7). -/

/-- A leaf status code (Table 4-6). -/
def LeafStatus.code : LeafStatus → Nat
  | .good => 0
  | .goodExt => 1
  | .noconv => 2
  | .crc => 3
  | .metaErr => 4
  | .preErased => 5
  | .blank => 6
  | .dropped => 7
  | .missing => 8
  | .verified => 9

/-- What a leaf result record says beside its context, leaf and status. -/
structure LeafReport where
  role : Nat := 0
  tgt : Nat := 0
  equal : Bool := false
  iter : Nat := 0
  rcs : Nat := 127
  tloss : Bool := false
  rung : Nat := 0
  syncFound : Bool := false
  raw : Nat := 0xFFFF
  erased : Nat := 0
  unsat : Nat := 0
  marked : Nat := 0
  syncOfs : Int := 0
  syncMis : Nat := 0
  pointed : Nat := 0

/-- The 32 bytes of a leaf result record (Table 4-6). -/
def leafRecord (ctx leaf : Nat) (st : LeafStatus) (r : LeafReport) (qtime : Nat) : Bytes :=
  leBytes 2 (ctx + leaf <<< 10) ++ leBytes 1 (st.code + r.role <<< 4 + r.tgt <<< 6 + bit r.equal <<< 7)
  ++ leBytes 1 (limitN 0 255 r.iter) ++ leBytes 1 (r.rcs + bit r.tloss <<< 7)
  ++ leBytes 1 (r.rung + bit r.syncFound <<< 4) ++ leBytes 2 (limitN 0 65535 r.raw) ++ leBytes 2 r.erased
  ++ leBytes 2 (limitN 0 65535 r.unsat) ++ leBytes 2 r.marked ++ leBytes 1 (unsigned 8 r.syncOfs)
  ++ leBytes 1 r.syncMis ++ leBytes 2 r.pointed ++ leBytes 6 0 ++ leBytes 8 qtime

/-- Whether the leaf result ring is full: the entry after PI is CI (Table 4-13). -/
def Dev.lresFull (d : Dev) : Bool := (d.fg .SDE_LRES_PI + 1) % 8192 == d.fg .SDE_LRES_CI
/-- Whether the sheet result ring is full. -/
def Dev.sresFull (d : Dev) : Bool := (d.fg .SDE_SRES_PI + 1) % 2048 == d.fg .SDE_SRES_CI

/-- Leaf results that wait go into the ring while it has room. -/
def flushLres : Nat → Dev → Dev
  | 0, d => d
  | k + 1, d =>
    match d.sde.lres with
    | [] => d
    | b :: rest =>
      if d.lresFull then d.fs .SDE_STAT_RES_STALL 1
      else
        let d := d.bufPut 5 (d.fg .SDE_LRES_BASE * 4096 + 32 * d.fg .SDE_LRES_PI) b
        flushLres k ((d.fs .SDE_LRES_PI ((d.fg .SDE_LRES_PI + 1) % 8192)).onSde fun s => { s with lres := rest })

/-- Sheet results that wait go into the ring while it has room. -/
def flushSres : Nat → Dev → Dev
  | 0, d => d
  | k + 1, d =>
    match d.sde.sres with
    | [] => d
    | b :: rest =>
      if d.sresFull then d.fs .SDE_STAT_RES_STALL 1
      else
        let d := d.bufPut 5 (d.fg .SDE_SRES_BASE * 4096 + 64 * d.fg .SDE_SRES_PI) b
        flushSres k ((d.fs .SDE_SRES_PI ((d.fg .SDE_SRES_PI + 1) % 2048)).onSde fun s => { s with sres := rest })

/-- The results that wait, posted as far as the rings have room (R139, R143). -/
def sdeFlush (d : Dev) : Dev := flushSres (d.sde.sres.length + 1) (flushLres (d.sde.lres.length + 1) d)

/-- A leaf result posted. -/
def postLeaf (ctx leaf : Nat) (st : LeafStatus) (r : LeafReport) (d : Dev) : Dev :=
  sdeFlush (d.onSde fun s => { s with lres := s.lres ++ [leafRecord ctx leaf st r d.qtime] })

/-- The number of leaves ready, in SDE_STAT. -/
def sdeCount (d : Dev) : Dev := d.fs .SDE_STAT_READY (limitN 0 4095 d.sde.ready.length)

/-- A context whose every wanted leaf has a result completes: it closes and waits for the outer stage (R126). -/
def ctxCheck (i : Nat) (c : CtxRec) (d : Dev) : Dev :=
  let x := d.ctx i
  if x.open_ && c.wanted.all (fun j => x.results.any fun r => r.1 == j) then
    (d.onCtx i fun x => { x with open_ := false, owed := true }).onSde fun s => { s with done := s.done ++ [i] }
  else d

/-- A leaf of a context receives its result: posted, kept, and the context complete when it was the last (R126, R143). -/
def leafResult (i : Nat) (c : CtxRec) (leaf : Nat) (st : LeafStatus) (r : LeafReport) (d : Dev) : Dev :=
  let d := postLeaf i leaf st { r with rung := c.rung } d
  let d := d.onCtx i fun x => { x with
    results := x.results ++ [(leaf, st)]
    ext := x.ext + bit (st == .goodExt)
    iterSum := x.iterSum + r.iter
    maxRaw := if c.mode = 2 && r.raw != 0xFFFF then limitN x.maxRaw 0xFFFF r.raw else x.maxRaw }
  ctxCheck i c d

/-- The part of a report that a descriptor gives. -/
def Descr.report (e : Descr) : LeafReport :=
  { role := e.role, tgt := e.tgt, rcs := e.rcs, tloss := e.tloss, syncFound := e.syncFound, erased := e.erased,
    marked := e.marked, syncOfs := signed 6 e.syncOfs, syncMis := e.syncMis }

/-- An entry that does not fit in the deposit ring: the leaf is dropped, with a result where a context wants it (R123). -/
def depositDrop (e : Descr) (d : Dev) : Dev :=
  let d := (d.bump .SDE_CNT_DROP).fs .SDE_STAT_RING_FULL 1
  let r := d.matchLeaf e.side e.layer e.track e.slot e.leaf
  match r.1 with
  | some (i, c) => leafResult i c e.leaf .dropped e.report r.2
  | none => r.2

/-- The bytes of an entry laid in the deposit ring by requester `req`, or dropped (R120, R123). -/
def depositEntry (req : Nat) (b : Bytes) (d : Dev) : Dev :=
  match d.ringPlace b.length with
  | some off => (d.bufPut req (d.ringBase + off) b).ringPut off b.length
  | none => depositDrop (Descr.of b) d

/-- LEAF_DEPOSIT: the slice's captured leaf goes into the deposit ring (R119 to R123); a slice that was waiting to stop
stops (R108). -/
def leafDeposit (rcs : Nat) (d : Dev) : Dev :=
  match (d.slice rcs).capt with
  | none => d
  | some c =>
    let d := depositEntry 4 (depositBytes d rcs c) d
    let stop := (d.slice rcs).stopping && (d.slice rcs).begun.isEmpty
    let d := d.onSlice rcs fun s => { s with capt := none, stopping := s.stopping && !stop }
    d.cond stop fun d => d.fs .RCS_STAT_STATE sliceIdle rcs

/-- SDE_ENTRY_CONSUME: the SDE takes the oldest entry not yet looked at (R119, R122, R125, R133): a leaf to decode becomes
ready; a blank or pre-erased leaf has its result at once; an orphan is consumed. -/
def sdeEntryConsume (d : Dev) : Dev :=
  let d := sdeFlush d
  match d.sde.ring.find? fun e => !e.matched with
  | none => d
  | some e =>
    if !d.is .SDE_CTL_EN || d.is .SDE_STAT_FAULT then d
    else if d.lresFull || !d.sde.lres.isEmpty then d.fs .SDE_STAT_RES_STALL 1
    else
      let g := d.bufGet 5 (d.ringBase + e.off) 32
      let x := Descr.of g.1
      let r := g.2.matchLeaf x.side x.layer x.track x.slot x.leaf
      match r.1 with
      | none => ((r.2.bump .SDE_CNT_ORPHAN).fs .SDE_STAT_ORPHAN 1).ringRelease e.off
      | some (i, c) =>
        if x.blank then (leafResult i c x.leaf .blank x.report r.2).ringRelease e.off
        else if x.preErased then (leafResult i c x.leaf .preErased x.report (r.2.bump .SDE_CNT_PRE)).ringRelease e.off
        else
          let cls := if x.rcs == 127 then 2 else if x.role == 1 || x.role == 2 then 1 else if c.rung == 0 then 2 else 3
          sdeCount (r.2.onSde fun s => { s with
            ring := s.ring.map fun y => if y.off == e.off then { y with matched := true } else y
            ready := s.ready ++ [{ entry := e.off, ctx := i, leaf := x.leaf, cls := cls, rcs := x.rcs, age := e.qtime, order := e.order }] })

/-! The LDPC decoder (R127, R128). -/

/-- The positions that check `x` of block row `i` covers, as indices into 65 information columns of 512 and then the
parity blocks (R47). -/
def checkVars (m i x : Nat) : List Nat :=
  ((List.range 65).filter (ldpcPlaced m i)).map (fun c => 512 * c + (x + ldpcShift i c) % 512)
    ++ [512 * (65 + i) + x] ++ (if i = 0 then [] else [512 * (64 + i) + x])

/-- The place of position `v` among the messages of check `x` of block row `i`. -/
def msgKey (m i x v : Nat) : Nat := (512 * i + x) * (65 + m) + v / 512

/-- The magnitude of a message: 0.75 of the least of the others, within 6 bits (R127). -/
def messageMag (n : Nat) : Nat := limitN 0 31 (openDiv (3 * n) 4)

/-- The least of a list of magnitudes, 127 for none. -/
def leastOf (l : List Nat) : Nat := l.foldl (fun a b => if b < a then b else a) 127

/-- One check of one layer: the posteriors less its old messages give new messages, and these the new posteriors. -/
def updateCheck (m i x : Nat) (r : Array Int × Array Int) : Array Int × Array Int :=
  let ins := (checkVars m i x).map fun v => (v, r.1.getD v 0 - r.2.getD (msgKey m i x v) 0)
  ins.foldl (fun (a : Array Int × Array Int) e =>
    let others := ins.filter fun o => o.1 != e.1
    let neg := (others.filter fun o => o.2 < 0).length % 2 == 1
    let g : Int := messageMag (leastOf (others.map (·.2.natAbs)))
    let msg := if neg then -g else g
    (a.1.set! e.1 (limitI (-127) 127 (e.2 + msg)), a.2.set! (msgKey m i x e.1) msg)) r

/-- One iteration: the block rows in order (R127). -/
def ldpcIteration (m : Nat) (r : Array Int × Array Int) : Array Int × Array Int :=
  (List.range m).foldl (fun r i => (List.range 512).foldl (fun r x => updateCheck m i x r) r) r

/-- The number of checks that the hard decisions of the posteriors do not meet (R128). -/
def unmetChecks (m : Nat) (post : Array Int) : Nat :=
  ((List.range m).flatMap fun i => (List.range 512).filter fun x =>
    ((checkVars m i x).filter fun v => post.getD v 0 < 0).length % 2 == 1).length

/-- The posteriors that LLRs give at the start: the unsent positions of column 64 at the largest (R127). -/
def startPosteriors (llr : Array Int) (m : Nat) : Array Int :=
  ((List.range (512 * (65 + m))).map fun v =>
    if v < 32896 then llr.getD v 0 else if v < 33280 then 127 else llr.getD (v - 384) 0).toArray

/-- The codeword bits that posteriors decide, b0 first (R116, R128). -/
def hardBits (level : Nat) (post : Array Int) : List Bool :=
  (List.range (codewordBits level)).map fun j => decide (post.getD (if j < 32896 then j else j + 384) 0 < 0)

/-- Bytes that bits spell, the first bit bit 0 of the first byte. -/
def bytesOfBits : List Bool → Bytes
  | a :: b :: c :: e :: f :: g :: h :: i :: rest =>
    BitVec.ofNat 8 (bit a + 2 * bit b + 4 * bit c + 8 * bit e + 16 * bit f + 32 * bit g + 64 * bit h + 128 * bit i)
      :: bytesOfBits rest
  | _ => []

/-- The six-bit LLRs of an entry (R120). -/
def unpackSix : Bytes → List Int
  | a :: b :: c :: rest =>
    let w := a.toNat + 256 * b.toNat + 65536 * c.toNat
    signed 6 w :: signed 6 (w >>> 6) :: signed 6 (w >>> 12) :: signed 6 (w >>> 18) :: unpackSix rest
  | _ => []

/-! The schedule (R133 to R136). -/

/-- The cost per iteration of a level (Table 4-4). -/
def iterCost (level : Nat) : Nat :=
  match level with
  | 0 => 156
  | 1 => 160
  | 2 => 165
  | _ => 174

/-- The cycles of class 3 leaves within the last 65,536 (R135). -/
def Sde.retryCycles (s : Sde) : Nat :=
  (s.class3.map fun e =>
    let from_ := if e.1 - e.2 < s.cycle - 65536 then s.cycle - 65536 else e.1 - e.2
    e.1 - from_).sum

/-- The bucket raised by `n` cycles, up to a cap in units of 1,024 cycles (R136). -/
def bucketAdd (cap n : Nat) (d : Dev) : Dev :=
  d.fs .SDE_BUCKET_CYCLES (limitN 0 (cap * 1024) (d.fg .SDE_BUCKET_CYCLES + n))

/-- Which of two ready leaves goes first: the older one; of one age the one the round-robin pointer meets first; of one
slice the one that was deposited first (R135, notes/assumptions/25.md). -/
def readyFirst (rr : Nat) (a b : ReadyLeaf) : ReadyLeaf :=
  let turn := fun (r : ReadyLeaf) => (r.rcs + 128 - rr) % 128
  if b.age < a.age then b
  else if a.age < b.age then a
  else if turn b < turn a then b
  else if turn a < turn b then a
  else if b.order < a.order then b else a

/-- The leaf that may start next: the oldest of the highest class number that may start (R135). DEDUCED: the classes rise
with their numbers, since only then does the window of class 3 decide anything (notes/assumptions/40.md). -/
def Dev.nextLeaf (d : Dev) : Option ReadyLeaf :=
  let s := d.sde
  let of := fun c => s.ready.filter fun r => r.cls == c
  let three := (of 1).isEmpty && (of 2).isEmpty || s.retryCycles < d.fg .SDE_SCHED_RETRY_SHARE * 1024
  let l := if three && !(of 3).isEmpty then of 3 else if !(of 2).isEmpty then of 2 else of 1
  match l with
  | [] => none
  | r :: rest => some (rest.foldl (readyFirst s.rr) r)

/-- The limits of a leaf: base allowance, ceiling, and whether iterations beyond the base come from the bucket (Table
4-5). -/
def Dev.limits (d : Dev) (role rung : Nat) : Nat × Nat × Bool :=
  let base := limitN 1 63 (d.fg .SDE_LIMIT_BASE)
  let retry := d.fg .SDE_LIMIT_RETRY_MAX
  if role = 1 then let v := limitN 1 63 (d.fg .SDE_LIMIT_VERIFY); (v, v, false)
  else if role = 2 then (base, base, false)
  else if rung ≤ 2 then (base, limitN base 63 (d.fg .SDE_LIMIT_READ_MAX), true)
  else (retry, retry, false)

/-- SDE_LEAF_START: the free engine starts a leaf with its limits (R134, R135, R152); `idle` cycles without a ready leaf
have filled the bucket (R136). A full result ring holds decodes back (R139). -/
def sdeLeafStart (idle : Nat) (d : Dev) : Dev :=
  let d := sdeFlush d
  if !d.is .SDE_CTL_EN || d.is .SDE_STAT_FAULT || d.sde.run.isSome then d
  else
    let d := (bucketAdd (d.fg .SDE_SCHED_BUCKET_CAP) idle d).onSde fun s => { s with cycle := s.cycle + idle }
    match d.nextLeaf with
    | none => d
    | some r =>
      if d.lresFull || d.sresFull || !d.sde.lres.isEmpty || !d.sde.sres.isEmpty then d.fs .SDE_STAT_RES_STALL 1
      else
        let h := d.bufGet 5 (d.ringBase + r.entry) 32
        let x := Descr.of h.1
        let b := h.2.bufRead 5 (d.ringBase + r.entry + 32) (llrBytes x.level) true
        let llr := (unpackSix (takeFill 0#8 (llrBytes x.level) (b.1.getD []))).toArray
        let c := b.2.ctxRec r.ctx
        let m := ldpcRows x.level
        let lim := c.2.limits (if x.rcs = 127 then 0 else x.role) c.1.rung
        sdeCount (c.2.onSde fun s => { s with
          ready := s.ready.filter fun y => y.entry != r.entry
          rr := (r.rcs + 1) % 128
          run := some { ready := r, level := x.level, head := h.1, llr := llr, post := startPosteriors llr m,
                        msgs := Array.replicate (512 * m * (65 + m)) 0, base := lim.1, ceil := lim.2.1,
                        useBucket := lim.2.2
                        limitBase := limitN 1 63 (c.2.fg .SDE_LIMIT_BASE), cap := c.2.fg .SDE_SCHED_BUCKET_CAP } })

/-! The end of a leaf (R129 to R132, R136). -/

/-- The metadata of a leaf, from its 16 bytes. -/
structure LeafMeta where
  psa : Nat
  leaf : Nat
  flags : Nat
  lsn : Nat
  crc : Nat

/-- A leaf's metadata from its bytes (Table 2-9). -/
def LeafMeta.of (b : Bytes) : LeafMeta :=
  { psa := le b 0 5, leaf := le b 5 1, flags := le b 6 1, lsn := le b 8 4, crc := le b 12 4 }

/-- Where leaf `j` of a context goes: a data leaf into the data area, a parity leaf into the scratch area (R126, R130). -/
def CtxRec.leafPlace (c : CtxRec) (j : Nat) : Nat := if j < 32 then c.dat + 4096 * j else c.scratch + 4096 * (j - 32)
/-- Where the metadata of leaf `j` goes (R126). -/
def CtxRec.metaPlace (c : CtxRec) (j : Nat) : Nat := c.scratch + 32768 + 16 * j
/-- Where the byte pointer bitmap of leaf `j` goes (R126). -/
def CtxRec.ptrPlace (c : CtxRec) (j : Nat) : Nat := c.scratch + 33408 + 512 * j
/-- Where the pointed-byte count of leaf `j` goes (R126). -/
def CtxRec.countPlace (c : CtxRec) (j : Nat) : Nat := c.scratch + 53888 + 2 * j

/-- The pointed bytes of a leaf (R131): one flag for each of its 4,096 data bytes. -/
def pointedBytes (thr : Nat) (llr post : Array Int) : List Bool :=
  (List.range 4096).map fun k => (List.range 8).any fun i =>
    (post.getD (8 * k + i) 0).natAbs < thr || llr.getD (8 * k + i) 0 == 0

/-- The checks of a converged read or neighbour leaf, in order (R130). -/
def leafStatus (c : CtxRec) (leaf : Nat) (bytes : Bytes) (beyond : Bool) : LeafStatus :=
  let m := LeafMeta.of (bytes.drop 4096)
  if leafCheck (bytes.take 4096) ((bytes.drop 4096).take 12) != m.crc then .crc
  else if m.psa != c.psa || m.leaf != leaf || bitsOf m.flags 6 2 != c.pcode || bitsOf m.flags 4 2 != c.level then .metaErr
  else if beyond then .goodExt else .good

/-- A good leaf stored (R130). -/
def storeGood (c : CtxRec) (leaf : Nat) (bytes : Bytes) (d : Dev) : Dev :=
  (d.bufPut 5 (c.leafPlace leaf) (bytes.take 4096)).bufPut 5 (c.metaPlace leaf) (bytes.drop 4096)

/-- The version of an unconverged read leaf with the fewest pointed bytes, stored (R131). Byte b of the leaf is bit b mod 8 of
byte b ÷ 8 of the bitmap. DESIGN CHOICE (notes/assumptions/129.md). -/
def storeNoconv (c : CtxRec) (leaf : Nat) (bytes : Bytes) (ptr : List Bool) (d : Dev) : Dev :=
  let n := (ptr.filter id).length
  let old := d.bufGet 5 (c.countPlace leaf) 2
  if n < leNat old.1 then
    ((storeGood c leaf bytes old.2).bufPut 5 (c.ptrPlace leaf) (bytesOfBits ptr)).bufPut 5 (c.countPlace leaf) (leBytes 2 n)
  else old.2

/-- The bits in which a codeword differs from the hard decisions of LLRs, over the LLRs of which `p` holds (R132). -/
def rawErrors (p : Int → Bool) (llr : Array Int) (word : List Bool) : Nat :=
  ((word.zipIdx).filter fun e => let v := llr.getD e.2 0; p v && (decide (v < 0) != e.1)).length

/-- The engine ends a leaf: its cost is counted, its place in the ring freed, its result made by its role (R129 to R132,
R136, R155). -/
def endRun (u : DecodeRun) (unmet : Nat) (d : Dev) : Dev :=
  let r := u.ready
  let x := Descr.of u.head
  let conv := unmet == 0
  let cl := iterCost u.level
  let cost := 220 + (u.spent + u.iters) * cl
  let d := d.bump .SDE_CNT_LEAF
  let d := d.onSde fun s => { s with
    run := none
    cycle := s.cycle + cost
    class3 := if r.cls = 3 then (s.cycle + cost, cost) :: s.class3.filter (fun e => s.cycle + cost < e.1 + 65536)
      else s.class3 }
  let d := d.cond (r.cls == 3) fun d => d.bump .SDE_CNT_CYC3 0 cost
  let d := d.cond (r.cls != 3 && conv && u.iters < u.base) (bucketAdd u.cap ((u.base - u.iters) * cl))
  let g := d.ctxRec r.ctx
  let c := g.1
  let d := g.2.ringRelease r.entry
  let bits := hardBits u.level u.post
  let bytes := bytesOfBits (bits.take 32896)
  let rep := { x.report with iter := u.iters, unsat := unmet }
  if x.rcs != 127 && x.role == 1 then
    let h := d.bufGet 5 (c.hold + codewordBits u.level / 8 * r.leaf) (codewordBits u.level / 8)
    let held := bitsLE h.1
    leafResult r.ctx c r.leaf .verified
      { rep with raw := rawErrors (· != 0) u.llr held, equal := conv && bits == held } h.2
  else
    let nbr := x.rcs != 127 && x.role == 2
    if conv then
      let st := leafStatus c r.leaf bytes (!nbr && u.limitBase < u.iters)
      let d := d.cond (st == .crc) fun d => d.bump .SDE_CNT_CRC
      let d := d.cond (st == .metaErr) fun d => d.bump .SDE_CNT_META
      let d := d.cond (st == .good || st == .goodExt) (storeGood c r.leaf bytes)
      leafResult r.ctx c r.leaf st { rep with raw := if nbr then rawErrors (fun _ => true) u.llr bits else 0xFFFF } d
    else
      let ptr := pointedBytes (d.fg .SDE_OUTER_PTR_THR) u.llr u.post
      let d := (d.bump .SDE_CNT_NOCONV).cond (!nbr) (storeNoconv c r.leaf bytes ptr)
      leafResult r.ctx c r.leaf .noconv { rep with pointed := if nbr then 0 else (ptr.filter id).length } d

/-- A fault of the SDE that its recovery cannot clear (R139, R18): FROZEN with DETAIL 2. -/
def sdeFault (d : Dev) : Dev := frozenEntry 2 ((d.fs .SDE_STAT_FAULT 1).onSde fun s => { s with run := none })

/-- SDE_ITERATION_DONE: one iteration and its test (R127, R128): the leaf has converged, goes on within its allowance or
with cycles from the bucket (R136), or ends. A parity error starts the leaf again once; a second one is a fault (R139). -/
def sdeIterationDone (parityErr : Bool) (d : Dev) : Dev :=
  match d.sde.run with
  | none => d
  | some u =>
    let m := ldpcRows u.level
    if parityErr then
      if u.retried then sdeFault d
      else d.onSde fun s => { s with run := some { u with
        retried := true, spent := u.iters, iters := 0, post := startPosteriors u.llr m, msgs := Array.replicate (512 * m * (65 + m)) 0 } }
    else
      let r := ldpcIteration m (u.post, u.msgs)
      let u := { u with post := r.1, msgs := r.2, iters := u.iters + 1 }
      let unmet := unmetChecks m u.post
      let cl := iterCost u.level
      let keep := fun (d : Dev) => d.onSde fun s => { s with run := some u }
      if unmet = 0 then endRun u unmet d
      else if u.iters < u.base then keep d
      else if u.useBucket && u.iters < u.ceil && cl ≤ d.fg .SDE_BUCKET_CYCLES then
        let d := d.cond (!u.drew) fun d => d.bump .SDE_CNT_EXT
        (d.fs .SDE_BUCKET_CYCLES (d.fg .SDE_BUCKET_CYCLES - cl)).onSde fun s => { s with run := some { u with drew := true } }
      else endRun u unmet d

/-! The outer decoder (R140, R141): Reed-Solomon with erasures and errors. -/

/-- Two polynomials added, lowest coefficient first. -/
def polyAdd : List Nat → List Nat → List Nat
  | [], q => q
  | p, [] => p
  | a :: p, b :: q => (a ^^^ b) :: polyAdd p q

/-- A polynomial times a scalar. -/
def polyScale (k : Nat) (p : List Nat) : List Nat := p.map (gfMul k)

/-- The product of two polynomials. -/
def polyMul (p q : List Nat) : List Nat := p.foldr (fun a r => polyAdd (polyScale a q) (0 :: r)) []

/-- A polynomial at a point. -/
def polyEval (p : List Nat) (x : Nat) : Nat := p.foldr (fun a r => a ^^^ gfMul x r) 0

/-- The locator of leaf `j` in a codeword of `n` symbols: α to the power n - 1 - j (R52). -/
def locator (n j : Nat) : Nat := gfPow 2 (n - 1 - j)

/-- The syndromes of a received word, leaf 0 first: its value at α^0 to α^(P-1). -/
def rsSyndromes (p : Nat) (word : List Nat) : List Nat :=
  (List.range p).map fun i => word.foldl (fun a s => gfMul a (gfPow 2 i) ^^^ s) 0

/-- One step of the search for the locator polynomial, from erasures on. -/
def locatorStep (syn : List Nat) (rho : Nat) (s : List Nat × List Nat × Nat) (r : Nat) : List Nat × List Nat × Nat :=
  let delta := (s.1.zipIdx).foldl (fun a e => if r < e.2 + 1 then a else a ^^^ gfMul e.1 (syn.getD (r - 1 - e.2) 0)) 0
  let xb := 0 :: s.2.1
  if delta = 0 then (s.1, xb, s.2.2)
  else
    let t := polyAdd s.1 (polyScale delta xb)
    if 2 * s.2.2 ≤ r + rho - 1 then (t, polyScale (gfInv delta) s.1, r + rho - s.2.2) else (t, xb, s.2.2)

/-- A codeword corrected: the symbols, leaf 0 first, and the symbol errors corrected outside the erasures; none where
2e + f exceeds P for every e (R140). -/
def rsCorrect (p : Nat) (erased : List Nat) (word : List Nat) : Option (List Nat × Nat) :=
  let n := word.length
  let f := erased.length
  let syn := rsSyndromes p word
  if p < f then none
  else if syn.all (· == 0) then some (word, 0)
  else
    let gamma := erased.foldl (fun g j => polyMul g [1, locator n j]) [1]
    let lam := ((List.range (p - f)).foldl (fun s i => locatorStep syn f s (f + i + 1)) (gamma, gamma, f)).1
    let omega := (polyMul syn lam).take p
    let deriv := ((lam.drop 1).zipIdx).map fun e => if e.2 % 2 = 0 then e.1 else 0
    let fixed := (word.zipIdx).map fun e =>
      let x := locator n e.2
      let xi := gfInv x
      if polyEval lam xi = 0 then
        (e.1 ^^^ gfMul x (gfMul (polyEval omega xi) (gfInv (polyEval deriv xi))), !erased.contains e.2)
      else (e.1, false)
    let out := fixed.map (·.1)
    let errs := ((fixed.zip word).filter fun q => q.1.2 && q.1.1 != q.2).length
    if (rsSyndromes p out).all (· == 0) && 2 * errs + f ≤ p then some (out, errs) else none

/-- The codewords of a sheet decoded one by one: the symbols by byte position, how many codewords had symbol errors, and
the most in one; none where a codeword cannot be decoded. -/
def outerDecode (p : Nat) (erasedAt : Nat → List Nat) : List (List Nat × Nat) → Option (List (List Nat) × Nat × Nat)
  | [] => some ([], 0, 0)
  | (word, b) :: rest =>
    match rsCorrect p (erasedAt b) word, outerDecode p erasedAt rest with
    | some r, some q => some (r.1 :: q.1, q.2.1 + bit (r.2 != 0), if q.2.2 < r.2 then r.2 else q.2.2)
    | _, _ => none

/-- The value that most of a list carry, the lowest of those that tie; 0xFFFF_FFFF for an empty list (R142). -/
def majority (l : List Nat) : Nat :=
  let count := fun v => (l.filter (· == v)).length
  match l with
  | [] => noSheet
  | v :: rest => rest.foldl (fun a b => if count a < count b || (count a == count b && b < a) then b else a) v

/-- The reading of several places of the buffer. -/
def bufGets (n : Nat) : List Nat → Dev → List Bytes × Dev
  | [], d => ([], d)
  | a :: rest, d =>
    let r := d.bufGet 5 a n
    let q := bufGets n rest r.2
    (r.1 :: q.1, q.2)

/-- A sheet result (Table 4-7). -/
structure SheetResult where
  psa : Nat
  n : Nat
  status : Nat
  rung : Nat
  lsnExp : Nat
  lsnRead : Nat
  good : Nat
  f : Nat
  corr : Nat
  eMax : Nat
  fMax : Nat
  ext : Nat
  iterSum : Nat

/-- The 64 bytes of a sheet result record (Table 4-7). -/
def SheetResult.bytes (r : SheetResult) (qtime : Nat) : Bytes :=
  leBytes 5 r.psa ++ leBytes 1 r.n ++ leBytes 1 r.status ++ leBytes 1 r.rung ++ leBytes 4 r.lsnExp
  ++ leBytes 4 r.lsnRead ++ leBytes 5 r.good ++ leBytes 1 r.f ++ leBytes 2 r.corr ++ leBytes 1 r.eMax
  ++ leBytes 1 r.fMax ++ leBytes 2 r.ext ++ leBytes 4 r.iterSum ++ leBytes 8 qtime ++ leBytes 24 0

/-- A sheet result's fields from its 64 bytes. -/
def SheetResult.of (b : Bytes) : SheetResult :=
  { psa := le b 0 5, n := le b 5 1, status := le b 6 1, rung := le b 7 1, lsnExp := le b 8 4, lsnRead := le b 12 4,
    good := le b 16 5, f := le b 21 1, corr := le b 22 2, eMax := le b 24 1, fMax := le b 25 1, ext := le b 26 2,
    iterSum := le b 28 4 }

/-- Sheet status codes (Table 4-7). -/
def shGood : Nat := 0
/-- GOOD_OUTER. -/
def shOuter : Nat := 1
/-- FAIL. -/
def shFail : Nat := 2
/-- UNRECORDED. -/
def shUnrecorded : Nat := 3
/-- LSN_MISMATCH. -/
def shMismatch : Nat := 4

/-- The numbers of a list as a mask. -/
def maskOf (l : List Nat) : Nat := (List.range 64).foldl (fun m j => if l.contains j then m + 2 ^ j else m) 0

/-- The rebuilt data leaves and the metadata of the leaves that were erased, written (R140). -/
def writeRebuilt (c : CtxRec) (p lsn : Nat) (erased : List Nat) (before : List Bytes) (cols : List (List Nat)) (d : Dev) : Dev :=
  d.each (List.range c.n) fun d j =>
    let leaf : Bytes := cols.map fun s => BitVec.ofNat 8 (s.getD j 0)
    let d := d.cond (decide (j < 32) && (erased.contains j || leaf != before.getD j [])) fun d => d.bufPut 5 (c.leafPlace j) leaf
    d.cond (erased.contains j) fun d =>
      let h := leafMetaHead c.psa j p c.level lsn
      d.bufPut 5 (c.metaPlace j) (h ++ leBytes 4 (leafCheck leaf h))

/-- The outer stage on a completed context (R140 to R143). -/
def outerStage (i : Nat) (d : Dev) : Dev :=
  let g := d.ctxRec i
  let c := g.1
  let x := g.2.ctx i
  let n := limitN 0 40 c.n
  let p := n - 32
  let st := fun j => (x.results.find? fun r => r.1 == j).map (·.2)
  let all := List.range n
  let isGood := fun j => !c.need.testBit j || st j == some .good || st j == some .goodExt
  let good := all.filter isGood
  let erased := all.filter fun j => !isGood j && st j != some .verified
  let f := erased.length
  let counts := bufGets 2 (all.map c.countPlace) g.2
  let stored := fun j => leNat (counts.1.getD j []) != 0xFFFF
  let metas := bufGets 16 (all.map c.metaPlace) counts.2
  let metaOf := fun j => LeafMeta.of (metas.1.getD j [])
  let fallback := if c.bytePtr then erased.filter fun j => stored j && (metaOf j).psa == c.psa else []
  let lsn := majority ((if good.isEmpty then fallback else good).map fun j => (metaOf j).lsn)
  let d := metas.2
  let ends := fun (status corr eMax fMax : Nat) (d : Dev) =>
    let status := if status ≤ 1 && c.lsn != noSheet && c.lsn != lsn then shMismatch else status
    let r : SheetResult := { psa := c.psa, n := c.n, status := status, rung := c.rung, lsnExp := c.lsn, lsnRead := lsn,
                             good := maskOf good, f := f, corr := corr, eMax := eMax, fMax := fMax, ext := x.ext,
                             iterSum := x.iterSum }
    sdeFlush (d.onSde fun s => { s with sres := s.sres ++ [r.bytes d.qtime] })
  if n != 0 && all.all (fun j => st j == some .blank) then ends shUnrecorded 0 0 f d
  else if f = 0 then ends shGood 0 0 0 d
  else if c.mode = 1 || (!c.bytePtr && p < f) then ends shFail 0 0 f d
  else
    let leaves := bufGets 4096 (all.map c.leafPlace) d
    let ptrs := if c.bytePtr then bufGets 512 (all.map c.ptrPlace) leaves.2 else ([], leaves.2)
    let erasedAt := fun b => if c.bytePtr then
        erased.filter fun j => !stored j || ((ptrs.1.getD j []).getD (b / 8) 0#8).getLsbD (b % 8)
      else erased
    let words := (List.range 4096).map fun b => (leaves.1.map fun l => (l.getD b 0#8).toNat, b)
    let fMax := if c.bytePtr then (List.range 4096).foldl (fun m b => limitN m 255 (erasedAt b).length) 0 else f
    match outerDecode p erasedAt words with
    | none => ends shFail 0 0 fMax ptrs.2
    | some r =>
      let d := ptrs.2.bump .SDE_CNT_OUTER
      let d := writeRebuilt c p lsn erased leaves.1 r.1 d
      ends shOuter r.2.1 r.2.2 fMax d

/-- OUTER_DECODE: the outer stage processes the context that completed first; an error of the stage is a fault (R139,
R140). -/
def outerDecodeNow (parityErr : Bool) (d : Dev) : Dev :=
  let d := sdeFlush d
  match d.sde.done with
  | [] => d
  | i :: rest =>
    if !d.is .SDE_CTL_EN || d.is .SDE_STAT_FAULT then d
    else if parityErr then sdeFault d
    else if d.sresFull || !d.sde.sres.isEmpty then d.fs .SDE_STAT_RES_STALL 1
    else outerStage i (d.onSde fun s => { s with done := rest })

/-! Context commands (R124, R126). -/

/-- The leaves of a context on their way through the engine, dropped; their entries are consumed. -/
def dropPending (i : Nat) (d : Dev) : Dev :=
  let gone := (d.sde.ready.filter fun r => r.ctx == i).map (·.entry)
  let gone := match d.sde.run with
    | some u => if u.ready.ctx == i then u.ready.entry :: gone else gone
    | none => gone
  sdeCount (d.onSde fun s => { s with
    ready := s.ready.filter fun r => r.ctx != i
    run := match s.run with
      | some u => if u.ready.ctx == i then none else some u
      | none => none
    ring := s.ring.filter fun e => !gone.contains e.off })

/-- CONTEXT_OPEN: the context at INDEX opens with the record in the buffer. -/
def contextOpen (i : Nat) (d : Dev) : Dev :=
  let d := dropPending i d
  let r := d.ctxRec i
  let d := r.2.onSde fun s => { s with done := s.done.filter (· != i) }
  let d := d.onCtx i fun _ => { open_ := true, psa := r.1.psa, mode := r.1.mode, dat := r.1.dat, scratch := r.1.scratch }
  ctxCheck i r.1 d

/-- CONTEXT_CLOSE: every leaf still needed is MISSING, and the context completes (R126). A MISSING leaf has no descriptor:
its record says slice 127, role 0 and RAW 0xFFFF. DESIGN CHOICE (notes/assumptions/128.md). -/
def contextClose (i : Nat) (d : Dev) : Dev :=
  if !(d.ctx i).open_ then d
  else
    let d := dropPending i d
    let r := d.ctxRec i
    let left := r.1.wanted.filter fun j => !((r.2.ctx i).results.any fun e => e.1 == j)
    r.2.each left fun d j => leafResult i r.1 j .missing {} d

/-- CONTEXT_ABANDON: the context's pending leaves are discarded and no sheet result follows, of a context that waits for the
outer stage neither (R124). -/
def contextAbandon (i : Nat) (d : Dev) : Dev :=
  let d := (d.onSde fun s => { s with done := s.done.filter (· != i) }).onCtx i fun x => { x with owed := false }
  if !(d.ctx i).open_ then d else (dropPending i d).onCtx i fun x => { x with open_ := false, results := [] }

/-! The test mode (R149, R150). -/

/-- SDE_TEST_MODE_WRITE: SDE_CTL.TEST is written only in SERVICE (R149). -/
def sdeTestModeWrite (on : Bool) (d : Dev) : Dev := if d.mode == 6 then d.fs .SDE_CTL_TEST (bit on) else d

/-- One step of the test LFSR, x^23 + x^18 + 1 (R149). -/
def testLfsr (s : Nat) : Nat := ((s <<< 1) ||| bit (s.testBit 22 != s.testBit 17)) % 2 ^ 23

/-- The LLRs of a codeword in the test mode (R149), with the LFSR after them: one step for each bit; whether its state flips a
bit is the spec's open point (notes/assumptions/29.md). -/
def testLlrs (mag errExp burst pos : Nat) : Nat → Nat → List Bool → List Int × Nat
  | _, lfsr, [] => ([], lfsr)
  | j, lfsr, b :: bs =>
    let flip := errExp != 0 && Config.testFlip errExp lfsr
    let v : Int := if b != flip then -(mag : Int) else mag
    let v := if pos ≤ j && j < pos + burst then 0 else v
    let r := testLlrs mag errExp burst pos (j + 1) (if errExp = 0 then lfsr else testLfsr lfsr) bs
    (v :: r.1, r.2)

/-- A leaf of the write encoder deposited as a soft leaf of the test mode (R149). -/
def testDeposit (f : LeafFacts) (word : List Bool) (d : Dev) : Dev :=
  let mag := limitN 0 31 (d.fg .SDE_TEST_MAG)
  let r := testLlrs mag (d.fg .SDE_TEST_ERR_EXP) (d.fg .SDE_TEST_BURST_LEN) (d.fg .SDE_TEST_POS_POS) 0 d.sde.lfsr word
  let d := d.onSde fun s => { s with lfsr := r.2 }
  let none_ := (r.1.filter (· == 0)).length
  depositEntry 6 (descriptor { f with rcs := 127, role := 0, syncFound := true } false none_ 0 0 d.qtime ++ packSix r.1) d

/-- The entry that firmware has written at the deposit pointer, or at the ring's base where it does not fit before its end (R150). -/
def Dev.testEntry (d : Dev) : Descr × Dev :=
  let at_ := fun (o : Nat) => d.bufGet 5 (d.ringBase + o) 32
  let o := if d.ringSize < d.sde.wp + 64 then 0 else d.sde.wp
  let o := if d.ringSize < o + (Descr.of (at_ o).1).size then 0 else o
  let r := at_ o
  (Descr.of r.1, r.2)

/-- TEST_ENTRY_ADVANCE: the entry that firmware has written is complete (R150): it goes the way of a slice's deposit. -/
def testEntryAdvance (d : Dev) : Dev :=
  if !d.is .SDE_CTL_TEST || !d.is .SDE_TEST_RAW then d
  else
    let e := d.testEntry
    match e.2.ringPlace e.1.size with
    | some off => e.2.ringPut off e.1.size
    | none => depositDrop e.1 e.2

/-! The effects of the commands. -/

/-- LEAF_DEPOSIT (R120). -/
def execLeafDeposit (rcs : Fin 96) (s : State) : Host.Outcome State Fault Refusal := s.onDev (leafDeposit rcs)

/-- SDE_ENTRY_CONSUME (R125). -/
def execSdeEntryConsume (s : State) : Host.Outcome State Fault Refusal := s.onDev sdeEntryConsume

/-- SDE_LEAF_START (R135). -/
def execSdeLeafStart (idle : Nat) (s : State) : Host.Outcome State Fault Refusal := s.onDev (sdeLeafStart idle)

/-- SDE_ITERATION_DONE (R128). -/
def execSdeIterationDone (parityErr : Bool) (s : State) : Host.Outcome State Fault Refusal :=
  s.onDev (sdeIterationDone parityErr)

/-- OUTER_DECODE (R140). -/
def execOuterDecode (parityErr : Bool) (s : State) : Host.Outcome State Fault Refusal :=
  s.onDev (outerDecodeNow parityErr)

/-- CONTEXT_OPEN (R124). -/
def execContextOpen (index : Fin 1024) (s : State) : Host.Outcome State Fault Refusal := s.onDev (contextOpen index)

/-- CONTEXT_CLOSE (R126). -/
def execContextClose (index : Fin 1024) (s : State) : Host.Outcome State Fault Refusal := s.onDev (contextClose index)

/-- CONTEXT_ABANDON (R124). -/
def execContextAbandon (index : Fin 1024) (s : State) : Host.Outcome State Fault Refusal :=
  s.onDev (contextAbandon index)

/-- SDE_RING_WRITE (R153). -/
def execSdeRingWrite (val : DWord) (s : State) : Host.Outcome State Fault Refusal := s.onDev (sdeRingWrite val)

/-- SDE_TEST_MODE_WRITE (R149). -/
def execSdeTestModeWrite (test : Bool) (s : State) : Host.Outcome State Fault Refusal :=
  s.onDev (sdeTestModeWrite test)

/-- TEST_ENTRY_ADVANCE (R150). -/
def execTestEntryAdvance (s : State) : Host.Outcome State Fault Refusal := s.onDev testEntryAdvance

end Sys2Proof.Machine
end

