-- ==== Sys2Proof/Machine/Ladder.lean ====
section
/-!
DEFINITION. Firmware's retry ladder (04_sheet_decoding.md R144 to R148): the next attempt of a sheet, the settings of an
attempt, the classification of a completed sheet, and the recovery limit.
-/

namespace Sys2Proof.Machine

/-- A REFRESH record: PSA, queued or done, cause (Table 13-3). -/
def refreshRecord (psa : Nat) (done : Bool) (cause : Nat) (d : Dev) : Dev :=
  d.fwSubmit false 0x07 0 (leBytes 5 psa ++ leBytes 1 (bit done) ++ leBytes 1 cause)

/-- An entry of the media log (Table 15-5): kind 1 unreadable, 2 ambiguous LSN, 3 queued for refresh. -/
def mediaEntry (psa kind lsn : Nat) (d : Dev) : Dev :=
  d.onFw fun w => { w with mediaLog := (psa, kind, lsn, d.qtime % 2 ^ 32) :: w.mediaLog }

/-- Every running command that waits for a sheet receives its CLASS and DETAIL, and where its data is; the commands of which
`p` holds (R146). -/
def bindSheet (psa cls detail : Nat) (p : Cmd → Bool) (d : Dev) (dat : Option Nat := none) : Dev :=
  d.onFw fun w => { w with cmds := w.cmds.map fun c =>
    if c.stage = .running && p c then
      { c with binds := c.binds.map fun b =>
          if b.psa == some psa && b.result.isNone then { b with result := some (cls, detail), dat := dat } else b }
    else c }

/-- The running commands that still wait for a sheet. -/
def Dev.waiters (d : Dev) (psa : Nat) : List Cmd :=
  d.running.filter fun c => c.binds.any fun b => b.psa == some psa && b.result.isNone

/-- A sheet queued for refresh (R148): in firmware's queue, in the journal and in the media log. -/
def queueRefresh (psa lsn cause : Nat) (d : Dev) : Dev :=
  if d.fw.refresh.contains (psa, lsn) then d
  else mediaEntry psa 3 lsn (refreshRecord psa false cause (d.onFw fun w => { w with refresh := w.refresh ++ [(psa, lsn)] }))

/-- The context that served a sheet last: the lowest closed one whose record named the PSA. -/
def Dev.ctxOf (d : Dev) (psa : Nat) : Option Nat :=
  (d.sde.ctxs.find? fun e => !e.2.open_ && e.2.psa == psa).map (·.1)

/-- The context whose sheet result firmware takes: the lowest one of the PSA with a result owed. -/
def Dev.ctxOwed (d : Dev) (psa : Nat) : Option Nat :=
  (d.sde.ctxs.find? fun e => e.2.owed && e.2.psa == psa).map (·.1)

/-- A sheet that succeeded, its data at an address, classified by its rung (Table 4-9). -/
def sheetGood (r : SheetResult) (dat : Option Nat) (d : Dev) : Dev :=
  if r.rung = 0 then bindSheet r.psa 0 0 (fun _ => true) d dat
  else if r.rung = 1 then
    bindSheet r.psa 1 1 (fun _ => true) (d.onFw fun w => { w with transients := w.transients + 1 }) dat
  else
    let d := d.onFw fun w => { w with marginals := w.marginals + 1 }
    let d := d.event { code := 0x1001, rung := r.rung, psa := r.psa, lsn := r.lsnRead }
    bindSheet r.psa 1 2 (fun _ => true) (queueRefresh r.psa r.lsnRead 1 d) dat

/-- A lasting sheet (Table 4-9): logged, listed as unreadable, attention 1; its readers fail with CLASS 4. -/
def sheetLasting (r : SheetResult) (detail : Nat) (d : Dev) : Dev :=
  let d := d.onFw fun w => { w with lastings := w.lastings + 1 }
  let d := d.event { code := 0x1002, rung := r.rung, psa := r.psa, lsn := r.lsnExp }
  bindSheet r.psa 4 detail (fun _ => true) ((mediaEntry r.psa 1 r.lsnExp d).attn 1)

/-- SP_LEVEL written (R294), in KiB: in READ the decoded sheets that no host has taken, in RECORD the admitted sheets that are
not committed. -/
def Dev.levelWrite (d : Dev) : Dev :=
  let took := fun (b : Bound) => b.result.elim none fun r => if r.1 ≤ 1 then b.dat else none
  let decoded := (d.running.flatMap fun c => c.binds.filterMap took).eraseDups.length
  let waits := fun (v : Version) => v.stage != .fetching && v.stage != .committed && v.stage != .mapped && v.stage != .failed
    && v.stage != .gone && !v.given
  if d.mode = 4 then d.spSet 4 (128 * decoded)
  else if d.mode = 5 then d.spSet 4 (128 * (d.fw.versions.filter waits).length)
  else d

/-! The attempts (Table 4-8). -/

/-- The number of attempts of a rung. -/
def rungAttempts (rung : Nat) : Nat := if rung = 4 then 4 else if rung = 5 || rung = 6 then 2 else 1

/-- Whether rung 5 is passed over: the spindle already turns at or below half the zone's nominal speed. -/
def Dev.alreadySlow (d : Dev) (track : Nat) : Bool := 200 * d.fg .SPN_SPEED ≤ 16 * nominalCentiRpm (classOf track)

/-- The attempt after a failed one: the rung's next, or the first of the next rung that is not passed over. -/
def Dev.nextAttempt (d : Dev) (opu psa : Nat) (canOther : Bool) (rung attempt : Nat) : Nat × Nat :=
  if attempt + 1 < rungAttempts rung then (rung, attempt + 1)
  else
    let other := otherOpu opu
    let six := if d.opuPresent other && !d.servoFault other && canOther then 6 else 7
    if rung + 1 = 5 && d.alreadySlow (psaTrack psa) then (six, 0)
    else if rung + 1 = 6 then (six, 0) else (rung + 1, 0)

/-- The offset that rung 5 carries: the attempt of rung 4 under which most leaves converged; none when no leaf did or two
attempts tie. -/
def bestOffset (gains : List Nat) : Option Nat :=
  let g := fun i => gains.getD i 0
  let top := (List.range 4).foldl (fun m i => limitN m (g i + m) (g i)) 0
  match (List.range 4).filter fun i => g i == top with
  | [i] => if top = 0 then none else some i
  | _ => none

/-- The focus and tracking offset of an attempt of rung 4, in nanometres. -/
def rungOffset (attempt : Nat) : Int × Int :=
  match attempt with
  | 0 => (40, 0)
  | 1 => (-40, 0)
  | 2 => (0, 15)
  | _ => (0, -15)

/-- The slice of an OPU that carries a retry of a track. -/
def retrySlice (opu track : Nat) : Nat := 24 * opu + track % 24

/-- The settings of an attempt on an OPU (Table 4-8): rungs 2 to 5 toggle the target, rung 6 takes the primary and then the
alternate one. -/
def Dev.retryOf (d : Dev) (opu psa rung attempt : Nat) : Retry :=
  let key := psa / 2 ^ 18
  let ofs := if rung = 4 then rungOffset attempt
    else if rung = 5 then
      match bestOffset (sparseGet [] d.fw.gains key) with
      | some i => rungOffset i
      | none => (0, 0)
    else (0, 0)
  let was := d.fg .RCS_CTL_TGT_SEL (retrySlice opu (psaTrack psa))
  { track := psaTrack psa, rung := rung, attempt := attempt
    tgtSel := if 2 ≤ rung && rung ≤ 5 then some (1 - was) else if rung = 6 then some attempt else none
    tgtWas := was
    nbrMark := 2 ≤ rung && rung ≤ 6, focusNm := ofs.1, trackNm := ofs.2, halfSpeed := rung = 5 }

/-- TGT_SEL of a slice set: in force at once while the slice does not capture (R91). -/
def targetSelect (n v : Nat) (d : Dev) : Dev :=
  let d := d.fs .RCS_CTL_TGT_SEL v n
  d.cond (!d.capturing n) (takeTarget n)

/-- The settings of a retry put on an OPU, or taken off it: NBR_MARK and TGT_SEL of the slice that carries it, the focus
and tracking offsets, the speed (R144). -/
def settings (opu : Nat) (r : Retry) (on : Bool) (d : Dev) : Dev :=
  let n := retrySlice opu r.track
  let d := match r.tgtSel with
    | some v => targetSelect n (if on then v else r.tgtWas) d
    | none => d
  let d := d.cond r.nbrMark fun d => d.fs .RCS_CTL_NBR_MARK (bit on) n
  let d := d.svSet opu svFocOfs (if on then bRat r.focusNm 1 else 0)
  let d := d.svSet opu svTrkOfs (if on then bRat r.trackNm 1 else 0)
  d.cond r.halfSpeed fun d =>
    if on then (d.spSet 1 (bRat (nominalCentiRpm (classOf r.track)) 200)).spSet 0 0
    else d.spSet 0 (if d.mode = 4 then 1 else if d.mode = 5 then 2 else 0)

/-- The retry settings of an OPU taken off: they end with their rung (R144). -/
def retryEnd (opu : Nat) (d : Dev) : Dev :=
  match (d.opuFw opu).retry with
  | some q => (settings opu q false d).onOpuFw opu fun f => { f with retry := none }
  | none => d

/-- The settings of an attempt put on an OPU in place of those of the attempt before. -/
def retryBegin (opu psa rung attempt : Nat) (d : Dev) : Dev :=
  let d := retryEnd opu d
  let r := d.retryOf opu psa rung attempt
  settings opu r true (d.onOpuFw opu fun f => { f with retry := some r })

/-- A re-read attempt opened as a read: NEED holds the leaves not yet good, RUNG the rung, BYTE_PTR is set at rung 7, which
reads nothing and closes at once (R144). -/
def openAttempt (s : LadderSheet) (d : Dev) : Dev :=
  match d.ctxOf s.psa with
  | none => d
  | some i =>
    let g := d.bufGet 2 (d.ctxAddr i) 64
    let n := le g.1 5 1
    let need := maskOf ((List.range n).filter fun j => !s.good.testBit j)
    let m := putBits (le g.1 7 1) 0 3 (4 * bit (s.rung = 7))
    let d := g.2.bufPut 2 (d.ctxAddr i) (g.1.take 7 ++ leBytes 1 m ++ (g.1.drop 8).take 4 ++ leBytes 5 need
      ++ leBytes 1 (putBits (le g.1 17 1) 0 4 s.rung) ++ g.1.drop 18)
    (contextOpen i d).cond (s.rung = 7) (contextClose i)

/-- The track of a sheet: its PSA from bit 18 up. -/
def trackKey (psa : Nat) : Nat := psa / 2 ^ 18

/-- The OPU that makes the attempts of a sheet at its rung: the other one of the side at rung 6 (Table 4-8). -/
def LadderSheet.carrier (s : LadderSheet) : Nat := if s.rung = 6 then otherOpu s.opu else s.opu

/-- Whether an OPU is making a re-read. -/
def Dev.rereads (d : Dev) (opu : Nat) : Bool := d.ladder.any fun s => s.busy && s.rung != 7 && s.carrier == opu

/-- The next re-read of a track, once every sheet of the one before has its result and its OPU makes no other: the lowest rung
first, one re-read for every sheet of the track at that rung, with the settings of the earliest attempt that any of them makes
next (R145). -/
def serveTrack (key : Nat) (d : Dev) : Dev :=
  match d.ladder.filter fun s => trackKey s.psa == key with
  | [] => d.onFw fun w => { w with gains := sparseSet [] w.gains key [] }
  | s :: rest =>
    let low := rest.foldl (fun a b => if b.rung < a.rung || (b.rung == a.rung && b.attempt < a.attempt) then b else a) s
    if (s :: rest).any (·.busy) || (low.rung != 7 && d.rereads low.carrier) then d
    else
      let d := d.cond (low.rung != 7) (retryBegin low.carrier low.psa low.rung low.attempt)
      let now := fun (x : LadderSheet) => trackKey x.psa == key && x.rung == low.rung
      let d := { d with ladder := d.ladder.map fun x => if now x then { x with busy := true, serving := low.attempt, opu := low.opu } else x }
      d.each (d.ladder.filter now) fun d x => openAttempt x d

/-- The next re-reads of the tracks that wait, and the settings of OPUs that make none taken off. -/
def serveLadder (d : Dev) : Dev :=
  let d := d.each (d.ladder.map fun s => trackKey s.psa).eraseDups fun d key => serveTrack key d
  d.each (List.range 4) fun d o => d.cond (!d.rereads o) (retryEnd o)

/-- A sheet leaves the ladder. -/
def offLadder (psa : Nat) (d : Dev) : Dev := { d with ladder := d.ladder.filter fun s => s.psa != psa }

/-- A failed attempt: lasting after rung 7; unfinished for the commands whose MAX_RUNG the next rung passes or whose recovery
time is over (R147); otherwise the next attempt. A sheet that nothing waits for does not begin to climb. -/
def sheetFail (opu : Nat) (canOther : Bool) (r : SheetResult) (d : Dev) : Dev :=
  let old := d.ladder.find? fun s => s.psa == r.psa
  let s := old.getD { psa := r.psa, lsn := r.lsnExp, rung := 0, opu := opu }
  if s.rung = 7 then offLadder r.psa (sheetLasting r 1 d)
  else
    let next := if s.busy && s.serving != s.attempt then (s.rung, s.attempt)
      else d.nextAttempt s.opu r.psa canOther s.rung s.attempt
    let had := !(d.waiters r.psa).isEmpty
    let d := bindSheet r.psa 4 2 (fun c => c.expired || (s.rung < next.1 && c.maxRung < next.1)) d
    let unwanted := old.isNone && !d.fw.refresh.any fun e => e.1 == r.psa
    if (d.waiters r.psa).isEmpty && (had || unwanted) then offLadder r.psa d
    else
      let t : LadderSheet := { s with rung := next.1, attempt := next.2, busy := false, good := r.good }
      { d with ladder := (d.ladder.filter fun x => x.psa != r.psa) ++ [t] }

/-- The leaves that an attempt of rung 4 recovered, counted for its track. -/
def countGain (r : SheetResult) (d : Dev) : Dev :=
  match d.ladder.find? fun s => s.psa == r.psa with
  | some s =>
    if s.rung != 4 then d
    else
      let key := trackKey r.psa
      let now := takeFill 0 4 (sparseGet [] d.fw.gains key)
      let n := popCount 40 r.good - popCount 40 s.good
      d.onFw fun w => { w with gains := sparseSet [] w.gains key (now.set s.serving (now.getD s.serving 0 + n)) }
  | none => d

/-- The sheet result that stands at the consumer index taken, where `p` holds of it and of the MODE of the context it is owed by
(0 where no context owes it); the result and that context. -/
def takeSheetResult (p : SheetResult → Nat → Bool) (d : Dev) : Option (SheetResult × Option (Nat × CtxRec)) × Dev :=
  let ci := d.fg .SDE_SRES_CI
  if ci = d.fg .SDE_SRES_PI then (none, d)
  else
    let g := d.bufGet 2 (d.fg .SDE_SRES_BASE * 4096 + 64 * ci) 64
    let r := SheetResult.of g.1
    let x := (g.2.ctxOwed r.psa).map fun i => (i, (g.2.ctxRec i).1)
    if p r ((x.map (·.2.mode)).getD 0) then
      let d := match x with
        | some c => g.2.onCtx c.1 fun y => { y with owed := false }
        | none => g.2
      (some (r, x), sdeFlush (d.fs .SDE_SRES_CI ((ci + 1) % 2048)))
    else (none, g.2)

/-- What firmware does with the sheet result of a read context: the sheet is classified, or its next attempt planned, and the next
re-reads opened (R144 to R148). The sheet result of a verify context says nothing that its leaf results have not said. -/
def ladderResult (opu : Nat) (canOther : Bool) (r : SheetResult) (x : Option (Nat × CtxRec)) (d : Dev) : Dev :=
  if (x.map (·.2.mode)) = some 1 then d
  else
    let d := countGain r d
    let d := if r.status = shGood || r.status = shOuter then offLadder r.psa (sheetGood r (x.map (·.2.dat)) d)
      else if r.status = shUnrecorded then offLadder r.psa (sheetLasting r 3 d)
      else if r.status = shMismatch then offLadder r.psa (sheetLasting r 4 d)
      else sheetFail opu canOther r d
    (serveLadder (serveTrack (trackKey r.psa) d)).levelWrite

/-- The sheets that no command waits for any more leave the ladder, and their contexts are abandoned. -/
def abandonIdle (before : List Nat) (d : Dev) : Dev :=
  serveLadder (d.each before fun d psa =>
    if (d.waiters psa).isEmpty then
      offLadder psa (match (d.sde.ctxs.find? fun e => (e.2.open_ || e.2.owed) && e.2.psa == psa) with
        | some e => contextAbandon e.1 d
        | none => d)
    else d)

/-- Whether a command's recovery time is over: its LIMIT_MS has run since its acceptance, mode changes left out (R147). -/
def Dev.limitOver (d : Dev) (c : Cmd) : Bool :=
  c.limitMs != 0 && c.waitFrom.isNone && decide (c.accepted + c.waited + c.limitMs * 1000000 ≤ d.qtime)

/-- RECOVERY_LIMIT_EXPIRY: a command's recovery time is over: its sheets on the ladder end unfinished, the command to end
with CLASS 4, DETAIL 2 for them, and those that fail from now on (R147). -/
def recoveryLimitExpiry (cmd : Nat) (d : Dev) : Dev :=
  match d.cmd cmd with
  | none => d
  | some c =>
    if c.stage != .running || !d.limitOver c then d
    else
      let mine := (d.ladder.map (·.psa)).filter fun p => c.binds.any fun b => b.psa == some p && b.result.isNone
      let d := d.onCmd cmd fun c => { c with expired := true }
      let d := d.each mine fun d p => bindSheet p 4 2 (fun x => x.id == cmd) d
      abandonIdle mine d

/-! The effects of the commands. -/

/-- RECOVERY_LIMIT_EXPIRY (R147). -/
def execRecoveryLimitExpiry (cmd : Nat) (s : State) : Host.Outcome State Fault Refusal :=
  s.onDev (recoveryLimitExpiry cmd)

end Sys2Proof.Machine
end

