-- ==== Sys2Proof/Machine/Recording.lean ====
section
/-!
DEFINITION. Recording hardware (05_recording.md R156 to R177, R190, R191): the write encoder, the write lanes and their
gates, pulse shapes, and the laser driver link. What firmware does with it is in RecordFw.
-/

namespace Sys2Proof.Machine

/-! The write encoder (R156, R157). -/

/-- The format strength of a side (R53). -/
def SideInfo.strength (s : SideInfo) : Strength := { level := s.level, p := pOfCode s.pcode }

/-- The format of a side of the loaded disc. -/
def Dev.sideInfo (d : Dev) (side : Nat) : SideInfo := if side = 0 then d.fw.disc.a else d.fw.disc.b

/-- An encode job (Table 5-1). -/
structure EncJob where
  dat : Nat
  hold : Nat
  psa : Nat
  level : Nat
  pcode : Nat
  lsn : Nat

/-- A job's fields from its 32 bytes. -/
def EncJob.of (b : Bytes) : EncJob :=
  { dat := le b 0 8, hold := le b 8 8, psa := le b 16 5, level := bitsOf (le b 21 1) 0 2, pcode := bitsOf (le b 21 1) 2 2,
    lsn := le b 24 4 }

/-- A job's 32 bytes. -/
def EncJob.bytes (j : EncJob) : Bytes :=
  leBytes 8 j.dat ++ leBytes 8 j.hold ++ leBytes 5 j.psa ++ leBytes 1 (j.level + 4 * j.pcode) ++ leBytes 2 0
    ++ leBytes 4 j.lsn ++ leBytes 4 0

/-- Whether a job is encoded: its PSA is valid and its level and P code are those of the side it names (R156). -/
def Dev.jobOk (d : Dev) (j : EncJob) : Bool :=
  let st := (d.sideInfo (psaSide j.psa)).strength
  sheetPsaValid st j.psa && { level := j.level, p := pOfCode j.pcode : Strength } == strengthAt st (psaTrack j.psa)
    && j.pcode < 3

/-- The sheet's data cut into 32 leaves. -/
def dataLeaves (b : Bytes) : List Bytes := (List.range 32).map fun j => (b.drop (4096 * j)).take 4096

/-- The codewords of a sheet, leaf 0 first (R157). -/
def sheetCodewords (j : EncJob) (data : Bytes) : List Nat :=
  let ls := dataLeaves data
  let p := pOfCode j.pcode
  ((ls ++ outerEncode p ls).zipIdx).map fun e => ldpcEncode j.level (leNat (leafBytes e.1 j.psa e.2 p j.level j.lsn))

/-- A leaf of the test mode: the facts the encoder knows of it (R149). -/
def EncJob.facts (j : EncJob) (leaf : Nat) : LeafFacts :=
  let t := psaTrack j.psa
  let st : Strength := { level := j.level, p := pOfCode j.pcode }
  let k' := slotsPerTrack (classOf t) st
  { track := t, side := psaSide j.psa, layer := psaLayer j.psa, slot := psaSlot j.psa, leaf := leaf,
    pos := leafPos k' leaf (psaSlot j.psa), level := j.level, pcode := j.pcode }

/-- The versions whose encode job this was are encoded (R189). -/
def jobDone (j : EncJob) (d : Dev) : Dev :=
  d.onFw fun w => { w with versions := w.versions.map fun v =>
    if v.stage = .encoding && v.psa == some j.psa && v.hold == j.hold then { v with stage := .planned } else v }

/-- ENCODE_JOB: the encoder takes the job at CI (R156, R157); in the test mode its leaves reach the SDE (R149). A fault it
cannot clear makes the unit FROZEN with DETAIL 3 (R18). -/
def encodeJob (fault : Bool) (d : Dev) : Dev :=
  let ci := d.fg .WSG_EJOB_CI
  if !d.is .WSG_CTL_EN || ci = d.fg .WSG_EJOB_PI then d
  else if fault then frozenEntry 3 (d.fs .WSG_STAT_ENC_FAULT 1)
  else
    let g := d.bufGet 6 (d.fg .WSG_EJOB_BASE * 4096 + 32 * ci) 32
    let j := EncJob.of g.1
    let d := g.2.fs .WSG_EJOB_CI ((ci + 1) % 256)
    if !d.jobOk j then d.fs .WSG_STAT_JOB_ERR 1
    else
      let h := d.bufGet 6 j.dat 131072
      let words := sheetCodewords j h.1
      let n := codewordBits j.level / 8
      let d := h.2.each words.zipIdx fun d e => d.bufPut 6 (j.hold + n * e.2) (leBytes n e.1)
      let d := d.cond (d.is .SDE_CTL_TEST && !d.is .SDE_TEST_RAW && d.mode == 6) fun d =>
        d.each words.zipIdx fun d e => testDeposit (j.facts e.2) (codewordList j.level e.1) d
      jobDone j d

/-! Pulse shapes (R164 to R168). -/

/-- A symbol from its edge position and level (R164). -/
def wslSymbol (e l : Nat) : Byte := BitVec.ofNat 8 (8 * e + l)

/-- HOLD (Table 5-2). -/
def symHold : Byte := 0x07#8
/-- SPACE on the nominal boundary. -/
def symSpace : Byte := 0x81#8

/-- A list with the element at a place replaced where that place is below a limit. -/
def putBelow (lim i : Nat) (b : Byte) (l : Bytes) : Bytes := if i < lim then setAt l i b else l

/-- The strategy entry of a mark of `n` channel bits after a space of class `q`; runs outside 2T to 8T use the nearest
(R166, R168). -/
def stratIndex (n q : Nat) : Nat := 3 * (limitN 2 8 n - 2) + q

/-- The class of the space before a mark. -/
def spaceClass (run : Nat) : Nat := if run ≤ 2 then 0 else if run = 3 then 1 else 2

/-- One mark's symbols put into a segment's symbols: `at_` its first bit, `n` its length, edges at or beyond `lim`
dropped (Table 5-3, R168). -/
def putMark (strat : List DWord) (at_ n q lim : Nat) (l : Bytes) : Bytes :=
  let w := (strat.getD (stratIndex n q) 0#32).toNat
  let n := if n < 2 then 2 else n
  let e := fun (i : Nat) => bitsOf w (5 * i) 5
  let l := putBelow lim at_ (wslSymbol (e 0) (if n = 2 then 5 else 4)) l
  let l := if n = 2 then l else putBelow lim (at_ + n - 1) (wslSymbol (e 2) 4) (putBelow lim (at_ + 1) (wslSymbol (e 1) 3) l)
  putBelow lim (at_ + n + 1) (wslSymbol (e 4) 1) (putBelow lim (at_ + n) (wslSymbol (e 3) 2) l)

/-- The runs of a list of levels: (level, first bit, length). -/
def runsOf : Nat → List Bool → List (Bool × Nat × Nat)
  | _, [] => []
  | i, b :: rest =>
    match runsOf (i + 1) rest with
    | (c, j, n) :: more => if c = b then (b, i, n + 1) :: more else (b, i, 1) :: (c, j, n) :: more
    | [] => [(b, i, 1)]

/-- The symbols of one stretch of a frame inside one data field: its levels, and the entry of a mark that ended just
before it. On Class E the lane holds SPACE up to the first mark, on Class W it stays at READ. -/
def segmentSymbols (strat : List DWord) (classE : Bool) (cool : Option Nat) (levels : List Bool) : Bytes :=
  let n := levels.length
  let runs := runsOf 0 levels
  let first := ((runs.find? (·.1)).map (·.2.1)).getD n
  let base : Bytes := (List.range n).map fun i =>
    if i < first && cool.isNone then (if classE then (if i = 0 then symSpace else symHold) else symIdle) else symHold
  let base := match cool with
    | some k =>
      let w := (strat.getD k 0#32).toNat
      putBelow n 1 (wslSymbol (bitsOf w 20 5) 1) (putBelow n 0 (wslSymbol (bitsOf w 15 5) 2) base)
    | none => base
  ((runs.zipIdx).foldl (fun l r =>
    if r.1.1 then
      let q := if r.2 < 2 then 2 else spaceClass ((runs.getD (r.2 - 1) (false, 0, 0)).2.2)
      putMark strat r.1.2.1 r.1.2.2 q n l
    else l) base)

/-- The entry of a mark that ends with a stretch. -/
def lastMark (levels : List Bool) : Option Nat :=
  let runs := runsOf 0 levels
  match runs.getLast? with
  | some (true, _, n) =>
    some (stratIndex n (if runs.length < 3 then 2 else spaceClass ((runs.getD (runs.length - 2) (false, 0, 0)).2.2)))
  | _ => none

/-- A frame's channel bits cut at the data fields they lie in: (field, bits), the first bit at data-stream position
`x`. -/
def cutFields (df : Nat) : Nat → Nat → List Bool → List (Nat × List Bool)
  | 0, _, _ => []
  | k + 1, x, bs =>
    if bs.isEmpty then []
    else
      let m := limitN 1 df (df - x % df)
      (x / df, bs.take m) :: cutFields df k (x + m) (bs.drop m)

/-- The symbols of a frame with its margins, the level it ends at and the entry of a mark that ends with it; between its data
fields the lane is at READ through the servo field (R30, R165, R168). DESIGN CHOICE (notes/assumptions/130.md): a frame that
begins inside a data field after a position not recorded starts at the field's polarity. -/
def frameSymbols (l : Lane) (strat : List DWord) (classE : Bool) (k x : Nat) (joined next : Bool) (bs : List Bool) :
    Bytes × Bool × Option Nat :=
  let df := dataBits k
  let segs := cutFields df 512 x bs
  let r := (segs.zipIdx).foldl (fun (a : Bytes × Bool × Option Nat) e =>
    let start := if e.2 = 0 && joined && x % df != 0 then l.level else polarity l.side l.layer l.track e.1.1
    let levels := nrzi start e.1.2
    let cool := if e.2 = 0 && joined && x % df != 0 then l.cool else none
    let servo := if e.2 = 0 then [] else List.replicate (servoBits k) symIdle
    (a.1 ++ servo ++ segmentSymbols strat classE cool levels, levels.getLastD false, lastMark levels)) ([], false, none)
  let stop := (x + bs.length) % df
  let tail := if next && stop != 0 then []
    else (if classE && stop != 0 then symSpace :: List.replicate (limitN 0 7 (df - stop - 1)) symHold else []) ++ [symIdle]
  (r.1 ++ tail, r.2.1, r.2.2)

/-- The erase margin before a frame on Class E: SPACE from 8 channel bits before it, or from the start of the data field (R165). -/
def marginBefore (classE : Bool) (k x : Nat) (joined : Bool) : Bytes :=
  let r := x % dataBits k
  if r = 0 || !classE || joined then [] else symSpace :: List.replicate (limitN 0 7 (r - 1)) symHold

/-! Write lanes (R161 to R163, R166, R177). -/

/-- The training sequence: 256 symbols alternating 0x0F and 0xF0 (R166). -/
def trainingSymbols : Bytes := (List.replicate 128 [0x0F#8, 0xF0#8]).flatten

/-- A lane's part of a band plan (Table 5-7). -/
def laneOfPlan (b : Bytes) (w : Nat) : Lane :=
  let t := le b (768 + 16 * w) 4
  { hold := (List.range 8).map fun s => le b (64 * w + 8 * s) 8, track := bitsOf t 0 18, side := bitsOf t 21 1,
    layer := bitsOf t 18 3, start := bitsOf (le b (768 + 16 * w + 4) 2) 0 9 }

/-- STOP_POS of a lane written into the latched plan (Table 5-7). -/
def putStop (opu w stop : Nat) (d : Dev) : Dev := d.bufPut 6 ((d.wsg opu).plan + 768 + 16 * w + 6) (leBytes 2 stop)

/-- A lane pauses at a leaf boundary: its STOP_POS goes into the latched plan and it stays at READ (R190). -/
def lanePause (opu w : Nat) (d : Dev) : Dev :=
  let l := d.lane opu w
  let stop := if l.closed || l.paused then l.stop else l.reached
  let d := d.cond (l.hold.any (· != 0)) (putStop opu w stop)
  laneOpenSet opu w false (onLane opu w (fun l => { l with paused := true, stop := stop }) d)

/-- PAUSED is set once every lane has paused (Table 5-13). -/
def pausedShow (opu : Nat) (d : Dev) : Dev :=
  d.cond (d.is .WSG_OCTL_PAUSE opu && (d.wsg opu).lanes.all (·.paused)) fun d => d.fs .WSG_OSTAT_PAUSED 1 opu

/-- The frame that a lane is recording ends: counted, and the lane pauses if PAUSE is set (R190, R197). -/
def frameEnd (opu w : Nat) (d : Dev) : Dev :=
  match (d.lane opu w).frame with
  | none => d
  | some p =>
    let d := onLane opu w (fun l => { l with frame := none, last := some p, level := l.nextLevel, cool := l.nextCool })
      (d.bump .WSG_CNT_LEAF opu)
    d.cond (d.is .WSG_OCTL_PAUSE opu) fun d => pausedShow opu (lanePause opu w d)

/-- WSG_PLAN_LATCH: at the start of a jump gap the lanes of the last plan write their STOP_POS, and the WSG latches plan,
strategy and leads and sends training (R166, R177). -/
def wsgPlanLatch (opu : Nat) (d : Dev) : Dev :=
  if !d.opuReady opu || !d.is .WSG_CTL_EN then d
  else
    let d := d.each (List.range (d.wsg opu).lanes.length) fun d w =>
      let d := frameEnd opu w d
      let l := d.lane opu w
      d.cond (l.hold.any (· != 0)) (putStop opu w (if l.closed || l.paused then l.stop else 511))
    let a := d.fg .WSG_PLAN_BASE opu * 1024
    let g := d.bufGet 6 a 1024
    let paused := g.2.is .WSG_OCTL_PAUSE opu
    let d := g.2.onWsg opu fun s => { s with
      lanes := (List.range 12).map fun w => { laneOfPlan g.1 w with paused := paused, symbols := trainingSymbols }
      plan := a
      strat := (List.range 21).map fun i => g.2.rd .WSG_STRAT opu i
      lead := (List.range 12).map fun i => g.2.fg .WSG_LEAD opu i
      classE := g.2.is .WSG_OCTL_CLASS_E opu
      train := false
      trained := true }
    d.each (List.range 12) fun d w => laneOpenSet opu w false d

/-- LD_STOP_RELEASE: LD_STOP_N has risen: the XV96 writes the driver's ENABLE, its write beams only while the APC slots run
(R253), and the lanes send training (R166, R176); it waits while the firmware queue has no room. -/
def ldStopRelease (opu : Nat) (d : Dev) : Dev :=
  if !d.opuReady opu || d.ldStop opu || (d.wsg opu).enableAsked || 16 ≤ (d.wsg opu).fwQueue.length then d
  else d.onWsg opu fun g => { g with
    enableAsked := true
    trained := true
    lanes := g.lanes.map fun l => { l with symbols := trainingSymbols }
    fwQueue := g.fwQueue ++ [{ op := 0, spot := 0, reg := 0x02, data := if (apcSlots opu).all d.started then 0x1FFF else 0x1000, fw := true }] }

/-- Whether a wedge gave a valid, unambiguous track number and a valid side and layer, all the lane's (R162). -/
def WedgeRec.fits (x : WedgeRec) (l : Lane) : Bool :=
  x.tvalid && !x.ambig && x.slvalid && x.track == l.track && x.side == l.side && x.layer == l.layer

/-- Whether a wedge's fields are invalid: the track number or side and layer cannot be read, and neither contradicts the lane
(R162, notes/assumptions/72.md). -/
def WedgeRec.unread (x : WedgeRec) (l : Lane) : Bool :=
  !(x.tvalid && x.slvalid) && (!x.tvalid || (!x.ambig && x.track == l.track))
    && (!x.slvalid || (x.side == l.side && x.layer == l.layer))

/-- Whether a lane may record in data field `k`, from what the wedges of this revolution gave its slice (R162). -/
def wedgePasses (s : Slice) (l : Lane) (k : Nat) : Bool :=
  let fits := fun (j : Nat) => (sparseGet {} s.ids j : WedgeRec).fits l
  fits k || (decide (2 ≤ k) && (sparseGet {} s.ids k : WedgeRec).unread l && fits (k - 1) && fits (k - 2))

/-- The gate conditions of a lane that do not depend on a wedge (R162): the slice in TRACK, the write inhibit clear,
LD_STOP_N high, GATE_EN, not paused, the driver enabled and trained (R166, R176). -/
def Dev.gateOpen (d : Dev) (opu w : Nat) : Bool :=
  let l := d.lane opu w
  d.is .WSG_CTL_EN && d.opuReady opu && d.fg .RCS_STAT_STATE (24 * opu + w) == sliceTrack && !d.inhibited opu
    && !d.ldStop opu && d.is .WSG_OCTL_GATE_EN opu && !l.paused && !l.closed && (d.wsg opu).trained && (d.wsg opu).enabled

/-- Whether the plan of a lane selects a leaf position (R177). -/
def Lane.plans (l : Lane) (n k' p : Nat) : Bool :=
  k' != 0 && decide (l.start ≤ p) && decide (p < n * k') && l.hold.getD (p % k') 0 != 0

/-- FRAME_RECORD: lane `w` records leaf position `p`, in the first `fields` data fields of its frame (R158, R162): `ends` whether the
frame has reached its end. A wedge that does not pass abandons a frame that has begun (R163); at its first field it keeps the lane
at READ. -/
def frameRecord (opu w p fields : Nat) (ends : Bool) (d : Dev) : Dev :=
  let pk := d.pickup opu
  let st := fmtStrength pk.fmt
  let k := fmtClass pk.fmt
  let k' := slotsPerTrack k st
  let l := d.lane opu w
  let other := match l.frame with
    | some q => q != p
    | none => false
  if (d.wsg opu).lanes.length ≤ w || !l.plans (leavesOf st) k' p || !d.gateOpen opu w || other || l.last == some p
      || fields = 0 then d
  else
    let f := frameBits st.level
    let df := dataBits k
    let x := p * f
    let n := codewordBits st.level / 8
    let g := d.bufGet 6 (l.hold.getD (p % k') 0 + n * (p / k')) n
    let d := g.2
    let joined := l.last == some (p - 1) && p != 0
    let margin := marginBefore (d.wsg opu).classE k x joined
    let s := frameSymbols l (d.wsg opu).strat (d.wsg opu).classE k x joined (l.plans (leavesOf st) k' (p + 1))
      (leafFrame st.level (leNat g.1))
    let first := streamBit k x - margin.length
    let put := fun (d : Dev) => onLane opu w (fun l => { l with
      frame := some p, symbols := margin ++ s.1, at_ := first, nextLevel := s.2.1, nextCool := s.2.2 }) d
    match (List.range fields).find? fun i => !wedgePasses (d.slice (24 * opu + w)) l (x / df + i) with
    | some 0 => d.cond l.frame.isSome fun d => frameAbandon opu w p true [] (put d)
    | some i =>
      let d := put d
      frameAbandon opu w p true ((d.lane opu w).symbols.take (dataFieldStart k (x / df + i) - first)) d
    | none => (laneOpenSet opu w true (put d)).cond ends (frameEnd opu w)

/-- LANE_INTERRUPT: a lane that records meets a closed gate: its frame is abandoned after `sent` channel bits (R163). -/
def laneInterrupt (opu w sent : Nat) (d : Dev) : Dev :=
  let l := d.lane opu w
  match l.frame with
  | none => d
  | some p => if d.gateOpen opu w then d else frameAbandon opu w p true (l.symbols.take sent) d

/-- The lanes that record while a gate condition has failed stop (R163). -/
def lanesJudge (opu : Nat) (d : Dev) : Dev :=
  d.each (List.range (d.wsg opu).lanes.length) fun d w =>
    d.cond ((d.lane opu w).frame.isSome && !d.gateOpen opu w) (laneStop true opu w)

/-- PAUSE: each lane finishes its frame, writes STOP_POS into the latched plan and stays at READ; a lane without a frame does so at
once (R190). -/
def wsgPause (opu : Nat) (d : Dev) : Dev :=
  let d := d.fs .WSG_OCTL_PAUSE 1 opu
  pausedShow opu (d.each (List.range (d.wsg opu).lanes.length) fun d w =>
    d.cond (d.lane opu w).frame.isNone (lanePause opu w))

/-- WSG_STOP: the lanes stop at once (R191). -/
def wsgStop (opu : Nat) (d : Dev) : Dev := lanesStop false opu d

/-- TRAIN: training at the next gap (R166). -/
def wsgTrain (opu : Nat) (d : Dev) : Dev := d.onWsg opu fun g => { g with train := true }

/-! The laser driver link (R171 to R176). -/

/-- CRC-8 of a frame's bits 39 to 8 (R172). -/
def ldcCrc (w : Nat) : Nat := crcMsb 8 0x07 0 ((leBytes 4 (w / 256 % 2 ^ 32)).reverse)

/-- A MOSI frame as its 40 bits (Table 5-5). -/
def LdcFrame.mosi (f : LdcFrame) : Nat :=
  let w := f.op <<< 38 + f.spot <<< 34 + f.reg <<< 28 + f.data <<< 12 + f.seq <<< 8
  w + ldcCrc w

/-- Whether the APC loop of a beam of a frame is enabled (R174). -/
def Dev.apcOwns (d : Dev) (opu spot : Nat) : Bool :=
  let on := fun (b : Nat) => d.is .SLOT_CFG_EN (9 + 12 * opu + b)
  if spot < 12 then on spot else spot == 15 && (List.range 12).any on

/-- A response to a firmware frame (Table 5-14). -/
def ldcResponse (data ack : Nat) (refused : Bool) : DWord :=
  BitVec.ofNat 32 (data % 65536 + ack <<< 16 + bit refused <<< 18 + 1 <<< 19)

/-- LDC_FIRMWARE_CMD: a write to WSG_LDC_CMD (R174). -/
def ldcFirmwareCmd (opu : Nat) (v : DWord) (d : Dev) : Dev :=
  if !d.opuPresent opu then d
  else
    let x := v.toNat
    let f : LdcFrame := { op := bitsOf x 26 2, spot := bitsOf x 22 4, reg := bitsOf x 16 6, data := bitsOf x 0 16, fw := true }
    if 16 ≤ (d.wsg opu).fwQueue.length then d.fs .WSG_OSTAT_LDC_QFULL 1 opu
    else if f.op = 0 && f.reg = 0x10 && d.apcOwns opu f.spot then
      d.onWsg opu fun g => { g with responses := g.responses ++ [ldcResponse 0 0 true] }
    else d.onWsg opu fun g => { g with fwQueue := g.fwQueue ++ [f] }

/-- The next frame to send, and the WSG without it (R174, R175). -/
def nextFrame (g : Wsg) : LdcFrame × Wsg :=
  match g.repeated with
  | some f => (f, { g with repeated := none })
  | none =>
    let fw := fun (_ : Unit) => match g.fwQueue with
      | f :: rest => some (f, { g with fwQueue := rest, turn := 0 })
      | [] => none
    let cle := match g.cleQueue with
      | (b, v) :: rest => some ({ op := 0, spot := b, reg := 0x10, data := v : LdcFrame }, { g with cleQueue := rest, turn := g.turn + 1 })
      | [] => none
    let pick := if 7 ≤ g.turn then (match fw () with
        | some x => some x
        | none => cle) else (match cle with
        | some x => some x
        | none => fw ())
    pick.getD ({}, { g with turn := g.turn + 1 })

/-- Firmware pauses recording on an OPU after an LDC fault (R175, R190): PAUSE, and the event. -/
def ldcFault (opu : Nat) (d : Dev) : Dev :=
  let d := (d.bump .WSG_CNT_LDC_ERR opu).fs .WSG_OSTAT_LDC_FAULT 1 opu
  let d := (lanesStop true opu d).fs .WSG_OCTL_GATE_EN 0 opu
  let d := (wsgPause opu d).onOpuFw opu fun f => { f with paused := true }
  d.event { code := 0x2007, src := opu }

/-- The answer to a frame taken: a SCALE write of an APC loop updates the beam's monitor value, a firmware frame has its
response (R172, R205). -/
def ldcAnswer (opu : Nat) (f : LdcFrame) (miso : Nat) (d : Dev) : Dev :=
  let ack := bitsOf miso 38 2
  let data := bitsOf miso 12 16
  let d := d.cond (f.fw && f.op == 0 && f.reg == 0x02 && ack == 0) fun d => d.onWsg opu fun g => { g with enabled := g.enableAsked }
  if f.fw then d.onWsg opu fun g => { g with responses := g.responses ++ [ldcResponse data ack false] }
  else if f.op = 0 && f.reg = 0x10 && ack = 0 && f.spot < 12 then
    d.onEng fun e => { e with mon := sparseSet 0 e.mon (12 * opu + f.spot) (data % 4096 + 32768) }
  else d

/-- LDC_FRAME: one frame is exchanged; `miso` answers the frame before it (R172). A bad answer has that frame sent once
more, and a second one is an LDC fault (R175). -/
def ldcFrame (opu miso : Nat) (d : Dev) : Dev :=
  if !d.opuReady opu then d
  else
    let prev := (d.wsg opu).sent
    let r := nextFrame (d.wsg opu)
    let f := { r.1 with seq := r.2.seq }
    let d := d.onWsg opu fun _ => { r.2 with sent := some f, seq := (r.2.seq + 1) % 16 }
    match prev with
    | none => d
    | some p =>
      let good := ldcCrc miso == miso % 256 && bitsOf miso 38 2 != 1 && bitsOf miso 8 4 == p.seq
      if good then ldcAnswer opu p miso d
      else if p.again then
        let d := d.cond p.fw fun d =>
          d.onWsg opu fun g => { g with responses := g.responses ++ [ldcResponse 0 (bitsOf miso 38 2) false] }
        ldcFault opu d
      else d.onWsg opu fun g => { g with repeated := some { p with again := true } }

/-! The effects of the commands. -/

/-- ENCODE_JOB (R157). -/
def execEncodeJob (fault : Bool) (s : State) : Host.Outcome State Fault Refusal := s.onDev (encodeJob fault)

/-- WSG_PLAN_LATCH (R177). -/
def execWsgPlanLatch (opu : Fin 4) (s : State) : Host.Outcome State Fault Refusal := s.onDev (wsgPlanLatch opu)

/-- LD_STOP_RELEASE (R176). -/
def execLdStopRelease (opu : Fin 4) (s : State) : Host.Outcome State Fault Refusal := s.onDev (ldStopRelease opu)

/-- LANE_INTERRUPT (R163). -/
def execLaneInterrupt (opu : Fin 4) (lane : Fin 12) (sent : Nat) (s : State) : Host.Outcome State Fault Refusal :=
  s.onDev (laneInterrupt opu lane sent)

/-- LDC_FRAME (R172). -/
def execLdcFrame (opu : Fin 4) (miso : Nat) (s : State) : Host.Outcome State Fault Refusal :=
  s.onDev (ldcFrame opu miso)

end Sys2Proof.Machine
end

