-- ==== Sys2Proof/Machine/RecordFw.lean ====
section
/-!
DEFINITION. What firmware does to record (05_recording.md R159, R178 to R195, R683, R687): where versions go, band plans,
verify and neighbour judgement, relocation, commit, and optimum power calibration.
-/

namespace Sys2Proof.Machine

/-! Buffer space and versions. -/

/-- Where firmware's pools begin in the buffer: the space below holds its rings and tables. DESIGN CHOICE
(notes/assumptions/41.md). -/
def poolBase : Nat := 2 ^ 26

/-- The areas of the pools that are in use, as (address, bytes): data areas and held codewords of versions (R159), data and scratch
areas of contexts, what commands are bound to, group work, latched plans, and the codewords of OPC runs. -/
def Dev.liveAreas (d : Dev) : List (Nat × Nat) :=
  let sheet := fun (a : Nat) => (a, 131072)
  let vs := d.fw.versions.flatMap fun v => [sheet v.addr, (v.hold, 215680)]
  let cs := (d.sde.ctxs.filter fun e => e.2.open_ || e.2.owed || d.ladder.any fun s => s.psa == e.2.psa).flatMap fun e =>
    [sheet e.2.dat, (e.2.scratch, 65536)]
  let bs := d.running.flatMap fun c => c.binds.filterMap fun b => b.dat.map sheet
  let gs := (d.comp.writes.flatMap fun w => w.data.map fun e => sheet e.2) ++ (d.comp.jobs.map fun j => sheet j.addr)
    ++ (d.comp.asks.filterMap fun a => a.addr.map sheet) ++ (d.comp.transfers.filterMap fun t => t.addr.map sheet)
  let ps := [0, 1, 2, 3].flatMap fun o =>
    [((sparseGet {} d.wsgs o : Wsg).plan, 1024), ((d.opuFw o).opcHold, if (d.opuFw o).opcBand.isSome then 12 * 4 * 38 * 4624 else 0)]
  (vs ++ cs ++ bs ++ gs ++ ps).filter fun e => poolBase ≤ e.1 + e.2 && e.2 != 0

/-- The first place for `n` bytes from `a` on that meets no area in use, the pools ending at `top` and used round and round; the
place reached where there is none. -/
def clearPlace (live : List (Nat × Nat)) (top n : Nat) : Nat → Nat → Nat
  | 0, a => a
  | k + 1, a =>
    let a := if top < a + n then poolBase else a
    match live.find? fun e => a < e.1 + e.2 && e.1 < a + n with
    | none => a
    | some e => clearPlace live top n k ((e.1 + e.2 + 4095) / 4096 * 4096)

/-- `n` bytes of firmware's pools, at a 4 KiB boundary, clear of what is in use (R159). -/
def Dev.alloc (d : Dev) (n : Nat) : Nat × Dev :=
  let size := (n + 4095) / 4096 * 4096
  let live := d.liveAreas
  let at_ := clearPlace live d.visible size (2 * live.length + 2) (if d.fw.poolNext < poolBase then poolBase else d.fw.poolNext)
  let d := d.onFw fun w => { w with poolNext := at_ + size }
  (at_, { d with comp := { d.comp with hashes := d.comp.hashes.filter fun e => e.1 < at_ || at_ + size ≤ e.1 } })

/-- The unit with `f` applied to the version of an order. -/
def Dev.onVersion (d : Dev) (order : Nat) (f : Version → Version) : Dev :=
  d.onFw fun w => { w with versions := w.versions.map fun v => if v.order == order then f v else v }

/-- The version of an order. -/
def Dev.version (d : Dev) (order : Nat) : Option Version := d.fw.versions.find? fun v => v.order == order

/-- The number of a layer of the disc: 8 × side + layer. -/
def layerKey (psa : Nat) : Nat := 8 * psaSide psa + psaLayer psa

/-- The sheet that a mapped LSN lies at. -/
def Dev.mapped (d : Dev) (lsn : Nat) : Option Nat :=
  match sparseGet 0 d.fw.map lsn with
  | 0 => none
  | n + 1 => some n

/-- Whether a slot holds a mapped sheet. -/
def Dev.isMapped (d : Dev) (psa : Nat) : Bool := d.fw.map.any fun e => e.2 == psa + 1

/-- Whether the disc is Class E. -/
def Dev.classE (d : Dev) : Bool := d.fw.disc.mediaClass == 1

/-- Whether the medium lets a slot be recorded (R183): on Class W never recorded, on Class E no mapped sheet; not
retired. -/
def Dev.slotFree (d : Dev) (psa : Nat) : Bool :=
  !d.fw.retired.contains psa && (if d.classE then !d.isMapped psa else !d.fw.recorded.contains psa)

/-- Whether a version that is not yet mapped stands in a slot, or will. -/
def Dev.slotPlanned (d : Dev) (psa : Nat) : Bool := d.fw.versions.any fun v => v.psa == some psa && v.stage != .failed

/-- The slots of a layer's data area that are not free. -/
def Dev.slotsUsed (d : Dev) (key : Nat) : Nat :=
  let on := fun (p : Nat) => layerKey p == key && decide (4200 ≤ psaTrack p)
  let held := if d.classE then (d.fw.map.map fun e => e.2 - 1).filter on else d.fw.recorded.filter on
  held.length + ((d.fw.retired.filter fun p => on p && !held.contains p).length)

/-- The free slots of a layer's data area. -/
def Dev.slotsLeft (d : Dev) (key : Nat) : Nat := dataAreaSlots (d.sideInfo (key / 8)).strength - d.slotsUsed key

/-- Whether a layer is open for new versions (R683 step 1). -/
def Dev.layerOpen (d : Dev) (key : Nat) : Bool :=
  let s := d.sideInfo (key / 8)
  d.fw.disc.loaded && !d.fw.disc.readOnly && d.fw.disc.layers.testBit key && s.formatted && s.recordable
    && !d.fw.cpFull.contains (key / 8) && sparseGet 0 d.fw.reserve key < d.slotsLeft key

/-- The open layers of a side, lowest first. -/
def Dev.openLayers (d : Dev) (side : Nat) : List Nat := ((List.range 8).map (8 * side + ·)).filter d.layerOpen

/-- The OPUs of a side that record. -/
def Dev.recorders (d : Dev) (side : Nat) : List Nat := [2 * side, 2 * side + 1].filter d.canRecord

/-- The layer that an OPU takes new versions on (R683 step 2). -/
def Dev.layerFor (d : Dev) (opu : Nat) : Option Nat :=
  (d.openLayers (opuSide opu))[((d.recorders (opuSide opu)).idxOf opu)]?

/-- The slots of a record band, in lane order and, within a lane, in slot order, as (lane, slot, PSA). -/
def bandSlots (st : Strength) (key band : Nat) : List (Nat × Nat × Nat) :=
  (List.range 12).flatMap fun w =>
    (List.range (slotsOf st (12 * band + w))).map fun s => (w, s, mkPsa (key / 8) (key % 8) (12 * band + w) s 0)

/-- The first free slot of a band that nothing is planned for. -/
def Dev.bandFree (d : Dev) (key band : Nat) : Option (Nat × Nat × Nat) :=
  (bandSlots (d.sideInfo (key / 8)).strength key band).find? fun c => d.slotFree c.2.2 && !d.slotPlanned c.2.2

/-- The first record band of a layer's data area, the outermost band and the bands in it. -/
def firstBand : Nat := 350
/-- The outermost record band of the data area. -/
def lastBand : Nat := 12591

/-- The first band from `c` inward with a free slot and no plan of the OPU. -/
def seekBand (d : Dev) (opu key : Nat) : Nat → Nat → Option Nat
  | 0, _ => none
  | k + 1, c =>
    let planned := (d.opuFw opu).plans.any fun p => p.band == c && 8 * p.side + p.layer == key
    if c < firstBand then none else if (d.bandFree key c).isSome && !planned then some c else seekBand d opu key k (c - 1)

/-- The band that an OPU's front moves to on a layer (R683 step 3). -/
def Dev.nextBand (d : Dev) (opu key : Nat) : Option Nat :=
  let from_ := match (d.opuFw opu).front with
    | some (c, k) => if k = key then c - 1 else lastBand
    | none => lastBand
  match seekBand d opu key (lastBand + 1) from_ with
  | some c => some c
  | none => seekBand d opu key (lastBand + 1) lastBand

/-- The layer of a plan, 8 × side + layer. -/
def BandPlan.key (p : BandPlan) : Nat := 8 * p.side + p.layer

/-- Whether a plan takes versions of a layer: not the plan of a surface test or of a checkpoint, whose slots are given. -/
def Dev.planTakes (d : Dev) (key : Nat) (p : BandPlan) : Bool :=
  p.key == key && !p.cells.any fun c => ((d.version c.2.2).map (·.given)).getD false

/-- The plan that takes new versions, with its place: the last one while it has a free slot. -/
def Dev.planOpen (d : Dev) (opu key : Nat) : Option (Nat × BandPlan) :=
  let plans := (d.opuFw opu).plans
  match plans.getLast? with
  | some p => if d.planTakes key p && (d.bandFree key p.band).isSome then some (plans.length - 1, p) else none
  | none => none

/-- A version put into a slot of the plan at a place. -/
def planCell (opu i order : Nat) (c : Nat × Nat × Nat) (d : Dev) : Dev :=
  let d := d.onOpuFw opu fun f => { f with
    plans := f.plans.modify i fun q => { q with cells := q.cells ++ [(c.1, c.2.1, order)] } }
  d.onVersion order fun v => { v with psa := some c.2.2, opu := opu, stage := .admitted }

/-- A version put into the first free slot of the plan at a place. -/
def planFill (opu i order : Nat) (p : BandPlan) (d : Dev) : Dev :=
  match d.bandFree p.key p.band with
  | some c => planCell opu i order c d
  | none => d

/-- A new plan at the OPU's next band of a layer, with a version in its first free slot (R683 step 3). -/
def planNew (opu key order : Nat) (d : Dev) : Dev :=
  match d.nextBand opu key with
  | none => d
  | some b =>
    let p : BandPlan := { band := b, side := key / 8, layer := key % 8 }
    let i := (d.opuFw opu).plans.length
    planFill opu i order p (d.onOpuFw opu fun f => { f with plans := f.plans ++ [p], front := some (b, key) })

/-- A version placed on an OPU: in the plan under construction, or in a new plan at the next band (R683 steps 3, 4). -/
def placeOn (opu order : Nat) (d : Dev) : Dev :=
  match d.layerFor opu with
  | none => d
  | some key =>
    match d.planOpen opu key with
    | some (i, p) => planFill opu i order p d
    | none => planNew opu key order d

/-- The sheets in the plan that an OPU takes new versions in. -/
def Dev.planLoad (d : Dev) (opu : Nat) : Nat :=
  match d.layerFor opu with
  | some key => ((d.planOpen opu key).map (·.2.cells.length)).getD 0
  | none => 0

/-- The OPUs that take new versions. -/
def Dev.takers (d : Dev) : List Nat := d.opus.filter fun o => d.canRecord o && (d.layerFor o).isSome

/-- The taker whose plan holds the fewest sheets, the lower number on a tie (R683 step 4). -/
def Dev.bestTaker (d : Dev) : Option Nat :=
  match d.takers with
  | [] => none
  | o :: rest => some (rest.foldl (fun a b => if d.planLoad b < d.planLoad a then b else a) o)

/-- NEW_VERSION_PLACE: an admitted version is placed (R683); one that has passed to an OPU stays there (R184). -/
def placeNew (order : Nat) (d : Dev) : Dev :=
  match d.version order with
  | none => d
  | some v =>
    if v.passed then placeOn v.opu order d
    else match d.bestTaker with
      | some o => placeOn o order d
      | none => d

/-- The bytes of a sheet's holding area. -/
def holdBytes (st : Strength) : Nat := codewordBits st.level / 8 * leavesOf st

/-- An encode job posted for a version that has a slot and no codewords yet, while the job ring has room. -/
def postEncode (order : Nat) (d : Dev) : Dev :=
  match d.version order with
  | none => d
  | some v =>
    match v.psa with
    | none => d
    | some psa =>
      let pi := d.fg .WSG_EJOB_PI
      if v.stage != .admitted || v.owes.isSome || (pi + 1) % 256 = d.fg .WSG_EJOB_CI then d
      else
        let s := d.sideInfo (psaSide psa)
        let st := strengthAt s.strength (psaTrack psa)
        let r := d.alloc (holdBytes st)
        let j : EncJob := { dat := v.addr, hold := r.1, psa := psa, level := st.level, pcode := pCode st.p, lsn := v.lsn }
        let d := r.2.bufPut 2 (d.fg .WSG_EJOB_BASE * 4096 + 32 * pi) j.bytes
        (d.fs .WSG_EJOB_PI ((pi + 1) % 256)).onVersion order fun v => { v with hold := r.1, stage := .encoding }

/-! Relocation, commit and failure (R183 to R187, R687). -/

/-- A slot retired, with its record and event (R185); a retired slot stays so. -/
def retireSlot (psa cause : Nat) (d : Dev) : Dev :=
  if d.fw.retired.contains psa then d
  else
    let d := d.onFw fun w => { w with retired := psa :: w.retired }
    (d.fwSubmit false 0x04 0 (leBytes 5 psa ++ leBytes 1 cause)).event { code := 0x1004, psa := psa }

/-- The layer whose reserve gives the next spare: the layer itself, then the layers of the side upward and round (R183); a layer
that no strategy set covers cannot be recorded (R170). -/
def Dev.spareLayer (d : Dev) (key : Nat) : Option Nat :=
  ((List.range 8).map fun i => key / 8 * 8 + (key + i) % 8).find? fun k =>
    d.fw.disc.layers.testBit k && sparseGet 0 d.fw.reserve k != 0

/-- A spare taken from a layer (R687). -/
def takeSpare (key : Nat) (d : Dev) : Dev :=
  d.onFw fun w => { w with reserve := sparseSet 0 w.reserve key (sparseGet 0 w.reserve key - 1) }

/-- A displaced version put into the next plan of a layer from a place on, or into a new one (R183). -/
def planNext (opu key order from_ : Nat) (d : Dev) : Dev :=
  let plans := (d.opuFw opu).plans.zipIdx
  match plans.find? fun e => from_ ≤ e.2 && d.planTakes key e.1 && (d.bandFree key e.1.band).isSome with
  | some (p, i) => planFill opu i order p d
  | none => planNew opu key order d

/-- A version put into the first slot of an OPU's earliest plan of a layer that the medium leaves free; a version that stood
there moves on to the next plan (R183). -/
def planAgain (opu key order : Nat) (d : Dev) : Dev :=
  match (d.opuFw opu).plans.zipIdx.find? fun e => d.planTakes key e.1 with
  | none => planNew opu key order d
  | some (p, i) =>
    match (bandSlots (d.sideInfo (key / 8)).strength key p.band).find? fun c => d.slotFree c.2.2 with
    | none => planNext opu key order (i + 1) d
    | some c =>
      let old := p.cells.find? fun e => e.1 == c.1 && e.2.1 == c.2.1
      let d := match old with
        | none => d
        | some e =>
          let d := d.onOpuFw opu fun f => { f with plans := f.plans.modify i fun q => { q with cells := q.cells.filter (· != e) } }
          d.onVersion e.2.2 fun v => { v with psa := none, stage := .admitted }
      let d := planCell opu i order c d
      match old with
      | some e => planNext opu key e.2.2 (i + 1) d
      | none => d

/-- A RELOCATE record and its event (Table 5-9). -/
def relocateRecord (v : Version) (new attempt cause : Nat) (d : Dev) : Dev :=
  let old := v.psa.getD 0
  (d.fwSubmit false 0x03 0 (leBytes 4 v.lsn ++ leBytes 5 old ++ leBytes 5 new ++ leBytes 1 attempt ++ leBytes 1 cause)).event
    { code := 0x1003, psa := old, lsn := v.lsn }

/-- A version that cannot be recorded any more (R184): it fails; the stream breaks in Streams. -/
def versionFailed (order : Nat) (d : Dev) : Dev := d.onVersion order fun v => { v with stage := .failed }

/-- RELOCATE: a version that failed is planned again on its OPU, or once on the other OPU of the side, and takes a spare
(R183, R184). `next` its attempts so far. -/
def planRelocation (order next cause : Nat) (d : Dev) : Dev :=
  match d.version order with
  | none => d
  | some v =>
    let other := otherOpu v.opu
    let stay := d.canRecord v.opu && next < 3 && !v.passed
    let pass := !v.passed && d.canRecord other
    if v.given || (!stay && !pass) then versionFailed order d
    else
      let opu := if stay then v.opu else other
      match v.psa.bind fun p => d.spareLayer (layerKey p) with
      | none => versionFailed order (d.attn 1)
      | some key =>
        let d := takeSpare key d
        let d := d.onVersion order fun v => { v with
          attempts := next, passed := v.passed || !stay, cause := cause, judged := [], bad := false, cut := false, maxRaw := 0
          maxIter := 0, wantsNbr := false, nbrPassed := false, owes := none }
        let d := planAgain opu key order d
        let new := ((d.version order).bind (·.psa)).getD 0
        postEncode order (relocateRecord v new (next + 1) cause d)

/-- A version fails verify, the neighbour pass or an interrupted frame: its slot is retired and it is planned again. -/
def versionFails (order cause : Nat) (d : Dev) : Dev :=
  match d.version order with
  | none => d
  | some v =>
    let d := match v.psa with
      | some p => retireSlot p cause d
      | none => d
    planRelocation order (v.attempts + 1) cause d

/-- A version that failed while no OPU of its side can record: its slot is retired, and it is planned again once one can (R181). -/
def versionOwes (order cause : Nat) (d : Dev) : Dev :=
  match d.version order with
  | none => d
  | some v =>
    let d := match v.psa with
      | some p => retireSlot p cause d
      | none => d
    d.onVersion order fun v => { v with
      stage := if v.given then .failed else .admitted, owes := if v.given then none else some cause, wantsNbr := false }

/-- Every version that waits is placed or planned again, and has its encode job posted; the sheets of an OPU that has stopped pass
on (R184). -/
def recordWork (d : Dev) : Dev :=
  let d := d.each d.opus fun d o =>
    d.cond (!d.canRecord o && !(d.opuFw o).plans.isEmpty)
      (passSheets o false ((d.opuFw o).withdrawn || (d.opuFw o).noRecord))
  d.each (d.fw.versions.map (·.order)) fun d o =>
    match d.version o with
    | none => d
    | some v =>
      match v.owes with
      | some cause => d.cond (d.canRecord v.opu || d.canRecord (otherOpu v.opu)) (planRelocation o (v.attempts + 1) cause)
      | none => postEncode o (if v.stage = .admitted && v.psa.isNone then placeNew o d else d)

/-- A sheet of a surface test has passed: it is kept for the test's result and maps nothing (R185). -/
def testPasses (order : Nat) (v : Version) (d : Dev) : Dev :=
  (d.onFw fun w => { w with tested := v.psa.toList ++ w.tested }).onVersion order fun v => { v with stage := .gone, wantsNbr := false }

/-- A checkpoint sheet has passed: its checkpoint has it, and it maps nothing (R684). -/
def cpPasses (order : Nat) (v : Version) (d : Dev) : Dev :=
  let one := fun (r : CpRun) => match v.cp, v.psa with
    | some (s, g), some p => if r.side = s then { r with made := r.made ++ [(g, p)] } else r
    | _, _ => r
  (d.onFw fun w => { w with cpRuns := w.cpRuns.map one }).onVersion order fun v => { v with stage := .gone, wantsNbr := false }

/-- SHEET_COMMIT: a version ready to commit has its COMMIT record submitted (R187); a sheet of a surface test or of a checkpoint has passed (R185, R684). -/
def commitVersion (order : Nat) (d : Dev) : Dev :=
  match d.version order with
  | none => d
  | some v =>
    if v.test.isSome then testPasses order v d
    else if v.cp.isSome then cpPasses order v d
    else
    let prev := (if v.copyOf.isSome then v.copyOf else d.mapped v.lsn).getD (2 ^ 40 - 1)
    let d := d.onVersion order fun v => { v with stage := .committing, wantsNbr := false }
    d.fwSubmit false 0x02 0 (leBytes 4 v.lsn ++ leBytes 5 (v.psa.getD 0) ++ leBytes 5 prev ++ leBytes 2 v.maxRaw
      ++ leBytes 1 v.maxIter ++ leBytes 1 (v.attempts + 1))

/-! Band plans (R177, R178, R188, R189). -/

/-- The lowest context that is not in use: not open, no result of it owed, its sheet not on the ladder. -/
def Dev.freeCtx (d : Dev) : Option Nat :=
  (List.range 1024).find? fun i =>
    let x := d.ctx i
    !x.open_ && !x.owed && !d.sde.done.contains i && !d.ladder.any fun s => s.psa == x.psa

/-- Whether `n` more contexts can be opened. -/
def Dev.ctxRoom (d : Dev) (n : Nat) : Bool :=
  let used := d.sde.ctxs.filter fun e => e.2.open_ || e.2.owed || d.sde.done.contains e.1 || d.ladder.any fun s => s.psa == e.2.psa
  used.length + n ≤ 1024

/-- A context record written and opened: (PSA, MODE, LSN, NEED, RUNG, DATA, HOLD); its scratch area is new, with the counts at
0xFFFF (R126). -/
def openCtx (psa mode lsn rung dat hold : Nat) (d : Dev) : Dev :=
  match d.freeCtx with
  | none => d
  | some i =>
    let s := d.sideInfo (psaSide psa)
    let t := psaTrack psa
    let st := strengthAt s.strength t
    let n := leavesOf st
    let r := d.alloc 65536
    let d := r.2.bufPut 2 (r.1 + 53888) (List.replicate (2 * n) 0xFF#8)
    let d := d.bufPut 2 (d.ctxAddr i) (leBytes 5 psa ++ leBytes 1 n ++ leBytes 1 (slotsOf s.strength t)
      ++ leBytes 1 (mode + st.level <<< 3 + pCode st.p <<< 5) ++ leBytes 4 lsn ++ leBytes 5 (2 ^ n - 1) ++ leBytes 1 rung
      ++ leBytes 6 0 ++ leBytes 8 dat ++ leBytes 8 r.1 ++ leBytes 8 hold ++ leBytes 16 0)
    contextOpen i d

/-- Firmware asks TRK to release an OPU's write inhibit before a band is recorded: its own hold is over, and it asks once it has
handled every event of the OPU, with the OPU's slots fault-free (R265). -/
def askRelease (opu : Nat) (d : Dev) : Dev :=
  let mine := servoSlots opu ++ apcSlots opu
  let d := d.cond (!d.fw.spnHold) fun d => d.hold opu false
  let clear := !(d.eng.events.any fun e => mine.contains e.slot) && mine.all fun n => !d.is .SLOT_STAT_FAULT n
  d.cond (clear && d.inhibited opu && d.sv opu svClrToken == d.sv opu svClrEcho) fun d =>
    d.svSet opu svClrToken ((d.sv opu svClrToken + 1) % 256)

/-- The bytes of a band plan, with a START_POS for each lane (Table 5-7). -/
def planBytes (d : Dev) (p : BandPlan) (start : Nat → Nat) : Bytes :=
  (List.range 12).flatMap (fun w => (List.range 8).flatMap fun s =>
    match p.cells.find? fun c => c.1 == w && c.2.1 == s with
    | some c => leBytes 8 (((d.version c.2.2).map (·.hold)).getD 0)
    | none => leBytes 8 0)
  ++ (List.range 12).flatMap (fun w =>
    leBytes 4 (12 * p.band + w + p.layer <<< 18 + p.side <<< 21) ++ leBytes 2 (start w) ++ leBytes 2 0x1FF ++ leBytes 8 0)
  ++ List.replicate 64 0#8

/-- The mask of the slots of a track that hold a sheet of which `p` holds. -/
def slotMask (key track k' : Nat) (p : Nat → Bool) : Nat :=
  maskOf ((List.range k').filter fun s => p (mkPsa (key / 8) (key % 8) track s 0))

/-- A slice set to a role, with its slot mask (R178, R181). -/
def sliceRole (n role mask : Nat) (d : Dev) : Dev := (d.fs .RCS_CTL_ROLE role n).fs .RCS_CAP_SLOTS mask n

/-- Whether a slot holds a sheet, recorded in this run or earlier (R181). -/
def Dev.holdsSheet (d : Dev) (psa : Nat) : Bool := d.isMapped psa || d.fw.versions.any fun v =>
  v.psa == some psa && (v.stage = .latched || v.stage = .recorded || v.stage = .verified || v.stage = .committing || v.stage = .committed)

/-- A slice of an OPU put over a track to make the neighbour pass, with a context for every sheet of it (R181). -/
def neighbourTrack (opu spot key track : Nat) (d : Dev) : Dev :=
  let k' := slotsOf (d.sideInfo (key / 8)).strength track
  let d := sliceRole (24 * opu + spot) 2 (slotMask key track k' d.holdsSheet) d
  d.each (List.range k') fun d s =>
    let psa := mkPsa (key / 8) (key % 8) track s 0
    if d.holdsSheet psa && !d.sde.ctxs.any (fun e => e.2.open_ && e.2.psa == psa && e.2.mode == 2) then
      let r := d.alloc 131072
      openCtx psa 2 noSheet 0 r.1 0 r.2
    else d

/-- The strategy set of a layer: the lowest-numbered one whose LAYERS covers it (R169, R170). -/
def Dev.strategySet (d : Dev) (key : Nat) : Option Bytes :=
  let b := d.fw.disc.strategy
  ((List.range (limitN 0 8 (le b 2 1))).map fun i => (b.drop (4 + 128 * i)).take 128).find? fun s => (le s 0 2).testBit key

/-- The strategy set of a layer loaded into WSG_STRAT and, through the LDC, the ratios (R170). -/
def loadStrategy (opu key : Nat) (d : Dev) : Dev :=
  if (d.opuFw opu).strategy = some key then d
  else
    match d.strategySet key with
    | none => d
    | some s =>
      let d := d.each (List.range 21) fun d e => d.wr .WSG_STRAT (BitVec.ofNat 32 (le s (12 + 4 * e) 4 % 2 ^ 25)) opu e
      let d := d.each (List.range 7) fun d i =>
        d.cond (i != 4) (ldcFirmwareCmd opu (BitVec.ofNat 32 (le s (4 + i) 1 + (0x08 + i) <<< 16)))
      d.onOpuFw opu fun f => { f with strategy := some key }

/-- The staged FROST payload: of each OPU its band base, STOP_POS and whether it records (R414, R424). -/
def Dev.frostPayload (d : Dev) : Bytes :=
  (List.range 4).flatMap fun o =>
    let f := d.opuFw o
    match f.latched with
    | some p => leBytes 5 (mkPsa p.side p.layer (12 * p.band) 0 0) ++ leBytes 2 ((((d.wsg o).lanes.getD 0 {}).stop) % 512) ++ leBytes 1 1
    | none => leBytes 8 0

/-- The lowest nominal speed among the zones that OPUs work in, in 1/100 rpm, with one OPU at a band (R35, R294). -/
def Dev.zoneMax (d : Dev) (opu base : Nat) : Nat :=
  let works := d.opus.filter fun o => o != opu && d.opuReady o && d.svSt o == svTracking
  (works.map fun o => nominalCentiRpm (classOf (d.fg .RCS_BAND_BASE_TRACK o))).foldl (fun m x => if x < m then x else m)
    (nominalCentiRpm (classOf base))

/-- Whether the spindle lets an OPU move to a band now: a move that lowers SP_MAX, or that goes into a zone of another class,
waits until SP_SET and SPEED have fallen (R65, R294). -/
def Dev.paceOk (d : Dev) (opu base : Nat) : Bool :=
  let new := bRat (d.zoneMax opu base) 100
  (!bLt new d.rpm && !bLt new (d.sp 5))
    || (!bLt new (d.sp 2) && classOf base == classOf (d.fg .RCS_BAND_BASE_TRACK opu))

/-- SP_MAX and SP_MIN for an OPU's work at a band (R294). -/
def setPace (opu base : Nat) (record : Bool) (d : Dev) : Dev :=
  let z := d.zoneMax opu base
  (d.spSet 2 (bRat z 100)).spSet 3 (if record then bRat (roundDiv (40 * z : Nat) 100) 100 else bRat 1200 1)

/-- The next move of an OPU to a band whose lowest track is `base`: a band jump, or a seek where it is too far (R263). -/
def moveTo (opu base layer : Nat) (d : Dev) : Dev :=
  let j : Int := base - d.fg .RCS_BAND_BASE_TRACK opu
  if layer = d.sv opu svLayer && -24 ≤ j && j ≤ 24 then d.svSet opu svNextJ (unsigned 8 j)
  else
    let d := (d.svSet opu svTrack base).svSet opu svArgLayer layer
    (d.svSet opu svOp (if layer = d.sv opu svLayer then 4 else 2)).svSet opu svToken ((d.sv opu svTaken + 1) % 256)

/-- The OPU holds its band with every gate closed (R189). -/
def recordHold (opu : Nat) (d : Dev) : Dev := (d.svSet opu svNextJ 0).fs .WSG_OCTL_GATE_EN 0 opu

/-- Whether an OPU's OPC is due before it records a layer: never since LOAD, moved 4.0 °C, 8 failures in 256, or asked for
(R192); not once the test area of a layer of Class W is used up (R195). -/
def Dev.opcIsDue (d : Dev) (opu key : Nat) : Bool :=
  let f := d.opuFw opu
  let last := sparseGet 0 f.opcTemp key
  let now := d.thermTemp (sparseGet 0 d.eng.therm opu)
  let bad := ((f.verifies.take 256).filter id).length
  (d.classE || !d.fw.opcFull.contains key) && (f.opcDue || last = 0
    || decide ((d.pageVal 2 0 16 2 : Int) ≤ ((last : Int) - 1000 - now).natAbs) || decide (d.pageVal 2 0 18 1 ≤ bad))

/-- A SNAPSHOT with DURABLE of another unit waits for this unit's streams (R549): unit request 19. -/
def Dev.flushAsked (d : Dev) : Bool := d.link.inbox.any fun e => e.2.type == 0x20 && e.2.arg == 19

/-- Whether a plan may be recorded before its band is full: for FLUSH STREAM, FUA, an idle stream, or a flush of every
stream (R189). A copy waits as a sheet of an idle stream does (notes/assumptions/77.md). -/
def Dev.partialOk (d : Dev) (p : BandPlan) : Bool :=
  p.cells.any fun c => match d.version c.2.2 with
    | none => false
    | some v =>
      v.cp.isSome || (if v.copyOf.isSome then decide (v.since + 50000000 ≤ d.qtime) else (d.stream v.stream).idle)
        || ((d.stream v.stream).writes.any fun w => w.fua && w.ssq == v.ssq)
        || d.flushAsked || d.running.any fun q => (q.opcode == 0x13 && q.stream == v.stream) || [0x08, 0x19, 0x28, 0x38].contains q.opcode

/-- Whether the earliest plan of an OPU may be started: every sheet encoded, the band full or a partial band allowed, no
OPC due, recording not paused (R189, R192). -/
def Dev.planReady (d : Dev) (p : BandPlan) : Bool :=
  let key := 8 * p.side + p.layer
  !p.cells.isEmpty && (p.cells.all fun c => ((d.version c.2.2).map (·.stage)) == some .planned)
    && (d.bandFree key p.band).isNone || (!p.cells.isEmpty && d.partialOk p
      && (p.cells.all fun c => ((d.version c.2.2).map (·.stage)) == some .planned))

/-- The APC targets that a layer's OPC gave, put in force (R195). -/
def loadTargets (opu key : Nat) (d : Dev) : Dev :=
  d.each (List.range 12) fun d b =>
    match sparseGet 0 (d.opuFw opu).targets (12 * key + b) with
    | 0 => d
    | t => bankLane (9 + 12 * opu + b) 0 0 t d

/-- The mean of the SYNC_OFS of a lane, rounded to the nearest channel bit; 0 for none (R161). -/
def meanSync (s : Int × Nat) : Int := if s.2 = 0 then 0 else roundDiv s.1 s.2

/-- The corrections of WSG_LEAD after a verified band (R161). -/
def leadCorrect (opu : Nat) (d : Dev) : Dev :=
  d.onOpuFw opu fun f => { f with
    leadAdj := (List.range 12).map fun w => f.leadAdj.getD w 0 + meanSync (f.syncs.getD w (0, 0)), syncs := [] }

/-- WSG_LEAD of a lane on a track in 1/32 channel bit: D_w × N ÷ (2π × r(t)), and the corrections (R161). -/
def Dev.leadOf (d : Dev) (opu w track : Nat) : Int :=
  let dist := limitN 3000 8000 (Config.spotLead opu w)
  openDiv (32 * dist * revBits (classOf track) * 10 ^ 15) (6283185307179586 * radiusNm track)
    + 32 * (d.opuFw opu).leadAdj.getD w 0

/-- The slices of an OPU set up for a plan: verify slices over its lanes, and on Class E the neighbour pass (R178, R181). -/
def planSlices (opu : Nat) (p : BandPlan) (d : Dev) : Dev :=
  let base := 12 * p.band
  let st := strengthAt (d.sideInfo p.side).strength base
  let d := d.each (List.range 12) fun d w =>
    sliceRole (24 * opu + w) 1 (maskOf ((p.cells.filter fun c => c.1 == w).map (·.2.1))) d
  let d := d.each (List.range 12) fun d i =>
    if d.classE then neighbourTrack opu (12 + i) p.key (base + 12 + i) d else sliceRole (24 * opu + 12 + i) 0 0 d
  d.wr .RCS_FMT (BitVec.ofNat 32 (classOf base + st.level <<< 4 + pCode st.p <<< 6)) opu

/-- A band plan written for the next gap with a START_POS for each lane, the leads, the slices and the gate (R161, R177, R188),
unless its writing into the buffer has made the unit FROZEN. -/
def planWrite (opu : Nat) (p : BandPlan) (start : Nat → Nat) (d : Dev) : Dev :=
  let base := 12 * p.band
  let r := d.alloc 4096
  let d := (r.2.bufPut 2 r.1 (planBytes r.2 p start)).fs .WSG_PLAN_BASE (r.1 / 1024) opu
  let d := d.each (List.range 12) fun d w => d.wr .WSG_LEAD (BitVec.ofInt 21 (d.leadOf opu w (base + w)) |>.setWidth 32) opu w
  let d := planSlices opu p d
  let d := moveTo opu base p.layer (setPace opu base true d)
  if d.mode == 7 then d
  else
    let d := (d.fs .WSG_OCTL_CLASS_E (bit d.classE) opu).fs .WSG_OCTL_GATE_EN 1 opu
    let d := (apcStart opu (askRelease opu d)).spSet 0 2
    d.cond (d.mode != 6) fun d => d.turnMode 5

/-- A plan handed to the WSG for the next gap (R177, R178, R181, R188): a verify context for each of its sheets. -/
def startPlan (opu : Nat) (p : BandPlan) (d : Dev) : Dev :=
  let key := p.key
  let base := 12 * p.band
  let d := d.cond ((d.opuFw opu).strategy != some key) (loadTargets opu key)
  let d := leadCorrect opu (loadStrategy opu key d)
  let d := d.each p.cells fun d c =>
    openCtx (mkPsa p.side p.layer (base + c.1) c.2.1 0) 1 noSheet 0 0 (((d.version c.2.2).map (·.hold)).getD 0) d
  let d := planWrite opu p (fun _ => 0) d
  if d.mode == 7 then d
  else
    let mine := p.cells.map (·.2.2)
    let advance := fun (v : Version) =>
      if mine.contains v.order then { v with stage := .latched }
      else if v.opu = opu && v.stage = .latched then { v with stage := .recorded } else v
    let d := d.onFw fun w => { w with versions := w.versions.map advance }
    let d := d.onFw fun w => { w with recorded := p.cells.map (fun c => mkPsa p.side p.layer (base + c.1) c.2.1 0) ++ w.recorded }
    let d := d.onOpuFw opu fun f => { f with
      plans := f.plans.drop 1, latched := some p, running := true, lastBand := p.band, lastKey := key, closing := d.classE }
    rjStageFrost (leBytes 16 0 ++ d.frostPayload) d

/-- Whether a paused OPU may go on: the fault behind the pause has been cleared, an OPC that it called for has been made, and it is
not too hot (R175, R190, R666). -/
def Dev.mayResume (d : Dev) (opu : Nat) : Bool :=
  let f := d.opuFw opu
  let key := (f.latched.map (·.key)).getD (8 * opuSide opu + d.sv opu svLayer)
  !d.is .RJ_STAT_FAILED && !d.is .WSG_OSTAT_LDC_FAULT opu && !(f.opcDue && d.opcIsDue opu key) && !f.hot

/-- Recording resumed: a plan whose START_POS equals each lane's STOP_POS, and PAUSE cleared (R190). -/
def resumePlan (opu : Nat) (d : Dev) : Dev :=
  let d := ((d.fs .WSG_OCTL_PAUSE 0 opu).fs .WSG_OSTAT_PAUSED 0 opu).onOpuFw opu fun f => { f with paused := false }
  match (d.opuFw opu).latched with
  | some p => planWrite opu p (fun w => (d.lane opu w).stop) d
  | none => d

/-- Whether a closing revolution of a run that has ended is owed on a side (R181). -/
def Dev.closingOwed (d : Dev) (side : Nat) : Option Nat :=
  [2 * side, 2 * side + 1].find? fun o => (d.opuFw o).closing && !(d.opuFw o).running

/-- The sheets of an OPU that wait for a neighbour pass that no OPU can make fail it; they are planned again once one records
again (R181). -/
def nbrAllFail (opu : Nat) (d : Dev) : Dev :=
  d.each ((d.fw.versions.filter fun v => v.opu == opu && v.wantsNbr).map (·.order)) fun d o => versionOwes o 2 d

/-- CLOSING_REVOLUTION: the recording run of an OPU ends: on Class E one more revolution at the band inside its last one,
every gate closed, made by the OPU, else by the other OPU of the side; where neither can, the waiting sheets fail (R181). It waits
for the spindle to be slow enough (R35, R65) and for contexts. -/
def closingRevolution (opu : Nat) (d : Dev) : Dev :=
  let f := d.opuFw opu
  if !f.running && !f.closing then d
  else
    let d := recordHold opu (d.onFw fun w => { w with versions := w.versions.map fun v =>
      if v.opu = opu && v.stage = .latched then { v with stage := .recorded } else v })
    let d := d.onOpuFw opu fun f => { f with running := false, latched := none }
    if !d.classE || !f.closing then d
    else if d.frost || d.is .PMU_STAT_THAWING then d
    else
      let able := fun o => d.canServe o && d.opuReady o
      let by_ := if able opu then some opu else if able (otherOpu opu) then some (otherOpu opu) else none
      match by_ with
      | none =>
        d.cond (!d.canServe opu && !d.canServe (otherOpu opu)) fun d =>
          nbrAllFail opu (d.onOpuFw opu fun f => { f with closing := false })
      | some o =>
        let base := 12 * (f.lastBand - 1)
        if !d.paceOk o base then setPace o base true d
        else if !d.ctxRoom 192 then d
        else
          let d := (moveTo o base (f.lastKey % 8) (setPace o base true d)).fs .WSG_OCTL_GATE_EN 0 o
          let d := d.each (List.range 24) fun d s => neighbourTrack o s f.lastKey (base + s) d
          d.onOpuFw opu fun f => { f with closing := false }

/-! Refresh (R148). -/

/-- No spare is left on the side of a sheet that should be re-recorded: it stays where it is and in the refresh queue, and ATTN 1 is
raised once (R148, R182). -/
def noSpare (psa lsn cause : Nat) (d : Dev) : Dev :=
  let d := queueRefresh psa lsn cause d
  if d.fw.refreshTold.contains (psa, lsn) then d
  else (d.onFw fun w => { w with refreshTold := (psa, lsn) :: w.refreshTold }).attn 1

/-- A mapped sheet re-recorded from decoded data by the relocation path, or left in the refresh queue where the side has no spare
(R148, R182). -/
def reRecord (psa lsn dat cause : Nat) (d : Dev) : Dev :=
  match d.spareLayer (layerKey psa) with
  | none => noSpare psa lsn 2 d
  | some key =>
    match (d.recorders (psaSide psa)).head? with
    | none => queueRefresh psa lsn 2 d
    | some opu =>
      let o := d.fw.nextOrder
      let v : Version := { order := o, lsn := lsn, stream := 16, addr := dat, psa := some psa, opu := opu, copyOf := some psa
                           cause := cause, since := d.qtime }
      let d := takeSpare key (d.onFw fun w => { w with nextOrder := o + 1, versions := w.versions ++ [{ v with psa := none }] })
      let d := planAgain opu key o d
      postEncode o (relocateRecord v (((d.version o).bind (·.psa)).getD 0) 1 cause d)

/-- Whether a queued refresh can be taken up: still mapped there, and not being re-recorded. -/
def Dev.refreshable (d : Dev) (e : Nat × Nat) : Bool :=
  d.mapped e.2 == some e.1 && !d.fw.versions.any fun v => v.copyOf == some e.1 && v.stage != .failed

/-- A refresh taken up in RECORD or SERVICE (R148): an OPU that records nothing goes to the first queued sheet of its side and reads
it. -/
def refreshStep (opu : Nat) (d : Dev) : Dev :=
  let q := d.fw.refresh.filter fun e => psaSide e.1 == opuSide opu && d.refreshable e
  let d := d.each q fun d e => d.cond (d.spareLayer (layerKey e.1)).isNone (noSpare e.1 e.2 2)
  if (d.mode != 5 && d.mode != 6) || (d.opuFw opu).latched.isSome || (d.opuFw opu).closing then d
  else match q.find? fun e => (d.spareLayer (layerKey e.1)).isSome && d.ladder.all fun s => s.psa != e.1 || s.busy with
    | none => d
    | some (psa, lsn) =>
      let t := psaTrack psa
      let base := t / 24 * 24
      let st := strengthAt (d.sideInfo (psaSide psa)).strength t
      let d := if d.sde.ctxs.any fun e => (e.2.open_ || e.2.owed) && e.2.psa == psa && e.2.mode == 0 then d
        else let r := d.alloc 131072; openCtx psa 0 lsn 0 r.1 0 r.2
      let d := sliceRole (24 * opu + t % 24) 0 (2 ^ psaSlot psa) d
      let d := d.wr .RCS_FMT (BitVec.ofNat 32 (classOf t + st.level <<< 4 + pCode st.p <<< 6)) opu
      if d.paceOk opu base then moveTo opu base (psaLayer psa) (setPace opu base true d) else setPace opu base true d

/-- RETRY_LADDER_STEP (R144 to R148): the sheet result taken and acted on; a sheet that was read to be refreshed is re-recorded. -/
def retryStep (opu psa : Nat) (canOther : Bool) (d : Dev) : Dev :=
  let g := takeSheetResult (fun r mode => r.psa == psa && mode != 2) d
  match g.1 with
  | none => d
  | some (r, x) =>
    let d := ladderResult opu canOther r x g.2
    let mine := d.fw.refresh.find? fun e => e.1 == psa && d.refreshable e
    match mine, x with
    | some e, some c => d.cond ((d.mode == 5 || d.mode == 6) && r.status ≤ 1 && c.2.mode == 0) (reRecord psa e.2 c.2.dat 4)
    | _, _ => d

/-! Map checkpoints (R684). -/

/-- The number that stands for the index sheet among a side's segments. -/
def cpIndex : Nat := 4095

/-- Checkpoint slots of a side: eight layers of 3,000 G4 tracks of 4 slots at I1, P = 6 (Table 2-10, R684). -/
def cpSlots : Nat := 96000

/-- The PSA of a checkpoint slot: rising track order through layers 0 to 7 (R684). -/
def cpPsa (side n : Nat) : Nat :=
  let i := n % cpSlots
  mkPsa side (i / 12000) (1200 + i % 12000 / 4) (i % 4) 0

/-- Whether a checkpoint slot can be recorded: on a layer that a strategy set covers (R170), and on Class W never recorded, on Class E named by no index that rules and in no checkpoint
under way (R684). -/
def Dev.cpSlotFree (d : Dev) (psa : Nat) : Bool :=
  d.fw.disc.layers.testBit (layerKey psa) && !d.fw.retired.contains psa && !d.slotPlanned psa
    && if d.classE then !(d.fw.cpMap.any fun e => e.2 == psa + 1) && !(d.fw.cpRuns.any fun r => r.made.any fun e => e.2 == psa)
      else !d.fw.recorded.contains psa

/-- The first free checkpoint slot of a side from a number on; Class W does not go round. -/
def cpSeek (d : Dev) (side : Nat) : Nat → Nat → Option Nat
  | 0, _ => none
  | k + 1, n =>
    if !d.classE && cpSlots ≤ n then none
    else if d.cpSlotFree (cpPsa side n) then some n else cpSeek d side k (n + 1)

/-- The data of a segment's checkpoint sheet: 8 bytes an entry, and the remaining reserve of every layer (R684). DESIGN CHOICE of the
layout (notes/assumptions/141.md): the PSA in bytes 0 to 4 (all ones: not mapped), in bytes 5 to 7 of entry k the reserve of layer k. -/
def segmentBytes (d : Dev) (seg : Nat) : Bytes :=
  (List.range 16384).flatMap fun i =>
    leBytes 5 (((d.mapped (16384 * seg + i)).getD (2 ^ 40 - 1))) ++ leBytes 3 (if i < 16 then sparseGet 0 d.fw.reserve i else 0)

/-- The segments that hold a mapped LSN. -/
def Dev.mappedSegs (d : Dev) : List Nat := (d.fw.map.map fun e => e.1 / 16384).eraseDups

/-- Where a checkpoint has the newest sheet of a segment. -/
def CpRun.sheet (d : Dev) (r : CpRun) (seg : Nat) : Option Nat :=
  match r.made.find? fun e => e.1 == seg with
  | some e => some e.2
  | none => match sparseGet 0 d.fw.cpMap (4096 * r.side + seg) with
    | 0 => none
    | n + 1 => some n

/-- The data of an index sheet: the checkpoint sequence, the CLOSED flag, and the newest sheet of every segment that holds a mapped
LSN (R684). DESIGN CHOICE of the layout (notes/assumptions/141.md): bytes 0 to 7, byte 8, and 5 bytes a segment from byte 16 on. -/
def indexBytes (d : Dev) (r : CpRun) : Bytes :=
  let segs := d.mappedSegs
  takeFill 0#8 131072 (leBytes 8 r.seq ++ leBytes 1 (bit r.closed) ++ leBytes 7 0 ++ (List.range 4095).flatMap fun k =>
    leBytes 5 (if segs.contains k then (r.sheet d k).getD (2 ^ 40 - 1) else 2 ^ 40 - 1))

/-- A checkpoint sheet planned before everything else in the next free slot of its side's area, on the first OPU of the side that
records, with its encode job (R684); none where that cannot be. `tries` its attempts so far. -/
def cpAdd (side seg addr tries : Nat) (d : Dev) : Option Dev :=
  match (d.recorders side).head?, cpSeek d side cpSlots (sparseGet 0 d.fw.cpNext side) with
  | some opu, some n =>
    let psa := cpPsa side n
    let band := psaTrack psa / 12
    let key := layerKey psa
    let o := d.fw.nextOrder
    let v : Version := { order := o, lsn := noSheet, stream := 16, addr := addr, psa := some psa, opu := opu, copyOf := some psa
                         since := d.qtime, attempts := tries, cp := some (side, seg) }
    let d := d.onFw fun w => { w with
      versions := w.versions ++ [v], nextOrder := o + 1
      cpNext := sparseSet 0 w.cpNext side (if d.classE then (n + 1) % cpSlots else n + 1) }
    let cell := (psaTrack psa % 12, psaSlot psa, o)
    let here := fun (p : BandPlan) => p.key == key && p.band == band
    let p : BandPlan := { band := band, side := key / 8, layer := key % 8 }
    some (postEncode o (d.onOpuFw opu fun f => { f with
      plans := (if f.plans.any here then f.plans else p :: f.plans).map fun q => if here q then { q with cells := q.cells ++ [cell] } else q }))
  | _, _ => none

/-- A checkpoint given up on its side: its sheets are forgotten, and its segments are dirty again. -/
def cpDrop (side : Nat) (d : Dev) : Dev :=
  let segs := (d.fw.cpRuns.filter (·.side == side)).flatMap (·.segs)
  let mine := (d.fw.versions.filter fun v => (v.cp.map (·.1)) == some side).map (·.order)
  let d := d.each d.opus fun d o => d.onOpuFw o fun f => { f with
    plans := (f.plans.map fun p => { p with cells := p.cells.filter fun c => !mine.contains c.2.2 }).filter fun p => !p.cells.isEmpty }
  d.onFw fun w => { w with
    cpRuns := w.cpRuns.filter (·.side != side), dirty := (segs ++ w.dirty).eraseDups
    versions := w.versions.filter fun v => !mine.contains v.order }

/-- A new sheet of a checkpoint with its data; the checkpoint is given up on the side where it cannot be planned. -/
def cpMake (side seg tries : Nat) (data : Dev → Bytes) (d : Dev) : Dev :=
  let r := d.alloc 131072
  match cpAdd side seg r.1 tries (r.2.bufPut 2 r.1 (data r.2)) with
  | some d => d
  | none => cpDrop side d

/-- A checkpoint complete on its side: every sheet has passed, and its CHECKPOINT record is written (R684). -/
def cpDone (r : CpRun) (d : Dev) : Dev :=
  let psa := ((r.made.find? fun e => e.1 == cpIndex).map (·.2)).getD 0
  let d := d.onFw fun w => { w with
    cpRuns := w.cpRuns.filter (·.side != r.side)
    cpMap := r.made.foldl (fun m e => sparseSet 0 m (4096 * r.side + e.1) (e.2 + 1)) w.cpMap
    versions := w.versions.filter fun v => (v.cp.map (·.1)) != some r.side }
  d.fwSubmit false 0x0B 0 (leBytes 1 r.side ++ leBytes 6 r.absorb ++ leBytes 5 psa ++ leBytes 1 (bit r.closed))

/-- The next step of a checkpoint on a side: a sheet that has failed is recorded again within the area, four attempts in all; once
every segment has passed the index sheet follows; once that has passed it is complete (R684). -/
def cpStep (r : CpRun) (d : Dev) : Dev :=
  let mine := d.fw.versions.filter fun v => (v.cp.map (·.1)) == some r.side
  match mine.find? fun v => v.stage = .failed with
  | some v =>
    let seg := (v.cp.map (·.2)).getD 0
    let d := d.onFw fun w => { w with versions := w.versions.filter (·.order != v.order) }
    if 3 ≤ v.attempts then cpDrop r.side d
    else match cpAdd r.side seg v.addr (v.attempts + 1) d with
      | some d => d
      | none => cpDrop r.side d
  | none =>
    if !mine.all fun v => v.stage = .gone then d
    else if r.index then cpDone r d
    else
      let d := d.onFw fun w => { w with cpRuns := w.cpRuns.map fun x => if x.side = r.side then { x with index := true } else x }
      cpMake r.side cpIndex 0 (fun d => indexBytes d r) d

/-- The next step of every checkpoint under way; none without a journal or a disc to record. -/
def cpWork (d : Dev) : Dev := d.each d.fw.cpRuns fun d r => cpStep r d

/-- Whether an OPU's earliest plan is of checkpoint sheets. -/
def Dev.cpFirst (d : Dev) (opu : Nat) : Bool :=
  match (d.opuFw opu).plans.head? with
  | some p => p.cells.any fun c => ((d.version c.2.2).bind (·.cp)).isSome
  | none => false

/-- Whether an OPU records checkpoint sheets though the journal has failed: an UNLOAD still writes them (R481). -/
def Dev.cpUnloads (d : Dev) (opu : Nat) : Bool :=
  d.is .RJ_STAT_FAILED && (d.running.any fun c => c.opcode == 0x19 && c.ssq != 0) && d.cpFirst opu

/-- Whether a plan holds copies only, which may be recorded in SERVICE (R148). -/
def Dev.copiesOnly (d : Dev) (p : BandPlan) : Bool := p.cells.all fun c => ((d.version c.2.2).bind (·.copyOf)).isSome

/-- BAND_PLAN_DECISION: at a jump gap firmware starts an OPU's next band, or holds it (R189), or holds it until the spindle is
slow enough for it (R65, R294). A closing revolution that is owed on the side comes first (R181), a pause may end (R190), and an OPU
with nothing to record takes up a refresh (R148). -/
def bandPlanDecision (opu : Nat) (d : Dev) : Dev :=
  let d := recordWork (cpWork d)
  let f := d.opuFw opu
  if !d.opuReady opu || d.svSt opu != svTracking || d.mode == 7 || f.calOut.isSome then d
  else if d.frost || d.is .PMU_STAT_THAWING then recordHold opu (d.onOpuFw opu fun f => { f with latched := none })
  else if (f.paused && !d.cpUnloads opu) || f.hot then
    if f.paused && d.mayResume opu then resumePlan opu d else recordHold opu d
  else match d.closingOwed (opuSide opu) with
  | some o => closingRevolution o d
  | none =>
    match f.plans.filter fun p => d.mode != 6 || d.copiesOnly p with
    | [] =>
      let d := d.cond f.running fun d => recordHold opu (d.onOpuFw opu fun f => { f with latched := none })
      d.cond (!f.running) (refreshStep opu)
    | p :: _ =>
      if d.opcIsDue opu p.key then closingRevolution opu (recordHold opu (d.onOpuFw opu fun f => { f with latched := none }))
      else if f.plans.head? != some p || !d.canRecord opu || !d.planReady p || !d.ctxRoom (p.cells.length + 96) then
        recordHold opu (d.onOpuFw opu fun f => { f with latched := none })
      else if !d.paceOk opu (12 * p.band) then
        recordHold opu ((setPace opu (12 * p.band) true d).onOpuFw opu fun f => { f with latched := none })
      else startPlan opu p d

/-- STREAM_IDLE_TIMEOUT: a stream with admitted sheets that wait, and no WRITE for 50 ms, is idle (R189). -/
def streamIdleTimeout (s : Nat) (d : Dev) : Dev :=
  let waits := d.fw.versions.any fun v => v.stream == s
    && (v.stage = .admitted || v.stage = .encoding || v.stage = .planned)
  if waits && decide ((d.stream s).lastWrite + 50000000 ≤ d.qtime) then d.onStream s fun t => { t with idle := true } else d

/-! Verify and neighbour judgement (R179, R180, R182). -/

/-- RAW_MAX of a level, from the recording page (Table 5-8). -/
def Dev.rawMax (d : Dev) (level : Nat) : Nat := d.pageVal 2 0 (8 + 2 * level) 2

/-- A leaf result's fields that firmware tests. -/
structure LeafVerdict where
  ctx : Nat
  leaf : Nat
  status : Nat
  equal : Bool
  iter : Nat
  tloss : Bool
  syncFound : Bool
  raw : Nat
  syncOfs : Int

/-- Those fields from the 32 bytes (Table 4-6). -/
def LeafVerdict.of (b : Bytes) : LeafVerdict :=
  { ctx := bitsOf (le b 0 2) 0 10, leaf := bitsOf (le b 0 2) 10 6, status := bitsOf (le b 2 1) 0 4,
    equal := (le b 2 1).testBit 7, iter := le b 3 1, tloss := (le b 4 1).testBit 7, syncFound := (le b 5 1).testBit 4,
    raw := le b 6 2, syncOfs := signed 8 (le b 14 1) }

/-- Whether a verify leaf passes (Table 5-8). -/
def LeafVerdict.passes (v : LeafVerdict) (rawMax : Nat) : Bool :=
  v.status == 9 && v.equal && decide (v.raw ≤ rawMax) && v.syncFound && decide (v.syncOfs.natAbs ≤ 4) && !v.tloss

/-- A sheet that has passed verify: ready to commit on Class W; on Class E once it has passed the neighbour pass (R180). -/
def sheetPasses (v : Version) (d : Dev) : Dev :=
  let d := d.onOpuFw v.opu fun f => { f with verifies := (false :: f.verifies).take 256 }
  if d.classE && !v.nbrPassed && v.test.isNone then d.onVersion v.order fun v => { v with stage := .verified, wantsNbr := true }
  else commitVersion v.order d

/-- The SYNC_OFS of a verify leaf taken into the mean of its lane (R161). -/
def syncTake (opu lane : Nat) (x : LeafVerdict) (d : Dev) : Dev :=
  d.cond (x.status == 9 && x.syncFound) fun d => d.onOpuFw opu fun f => { f with
    syncs := (List.range 12).map fun w =>
      let s := f.syncs.getD w (0, 0)
      if w = lane then (s.1 + x.syncOfs, s.2 + 1) else s }

/-- A verify leaf judged for its version: once every leaf has a result the sheet passes, or fails (R178, R179). -/
def verifyLeaf (x : LeafVerdict) (v : Version) (d : Dev) : Dev :=
  let psa := v.psa.getD 0
  let st := strengthAt (d.sideInfo (psaSide psa)).strength (psaTrack psa)
  let bad := !x.passes (d.rawMax st.level)
  let d := syncTake v.opu (psaTrack psa % 12) x d
  let d := d.onVersion v.order fun v => { v with
    judged := if v.judged.contains x.leaf then v.judged else x.leaf :: v.judged, bad := v.bad || bad
    maxRaw := if bad then v.maxRaw else limitN v.maxRaw 65535 x.raw
    maxIter := if bad then v.maxIter else limitN v.maxIter 255 x.iter }
  match d.version v.order with
  | none => d
  | some w =>
    if w.judged.length != leavesOf st then d
    else if w.bad then
      let d := d.onOpuFw w.opu fun f => { f with verifies := (true :: f.verifies).take 256 }
      versionFails w.order (if w.cut then 3 else 1) d
    else sheetPasses w d

/-- VERIFY_RESULT_HANDLE: firmware takes the leaf result at the consumer index (R179); a leaf of an OPC test band is kept
for the OPC's evaluation. -/
def verifyResultHandle (d : Dev) : Dev :=
  let ci := d.fg .SDE_LRES_CI
  if ci = d.fg .SDE_LRES_PI then d
  else
    let g := d.bufGet 2 (d.fg .SDE_LRES_BASE * 4096 + 32 * ci) 32
    let x := LeafVerdict.of g.1
    let d := sdeFlush (g.2.fs .SDE_LRES_CI ((ci + 1) % 8192))
    let c := d.ctx x.ctx
    let psa := c.psa
    let t := psaTrack psa
    if c.mode != 1 then d
    else match d.fw.versions.find? fun v => v.psa == some psa && (v.stage = .latched || v.stage = .recorded) with
    | some v => recordWork (verifyLeaf x v d)
    | none =>
      match d.opus.find? fun o => (d.opuFw o).opcKey == layerKey psa
          && ((d.opuFw o).opcBand.map fun k => 24 + 12 * k ≤ t && t < 36 + 12 * k) == some true with
      | some o => d.onOpuFw o fun f => { f with opcLeaves := ((t - 24) % 12, 4 * x.leaf + psaSlot psa, x.equal, x.raw) :: f.opcLeaves }
      | none => d

/-- NEIGHBOUR_JUDGE: firmware takes the sheet result at the consumer index, of a neighbour context (R182). -/
def neighbourJudge (d : Dev) : Dev :=
  let g := takeSheetResult (fun _ mode => mode == 2) d
  match g.1 with
  | some (r, some (i, c)) =>
    let d := g.2
    let st := strengthAt (d.sideInfo (psaSide r.psa)).strength (psaTrack r.psa)
    let decoded := r.status ≤ 1
    let pass := decoded && r.f ≤ 1 && (d.ctx i).maxRaw ≤ 2 * d.rawMax st.level
    match d.fw.versions.find? fun v => v.psa == some r.psa
        && (v.stage = .latched || v.stage = .recorded || v.stage = .verified) with
    | some v =>
      if !pass then recordWork (versionFails v.order 2 d)
      else if v.stage = .verified then commitVersion v.order d
      else d.onVersion v.order fun v => { v with nbrPassed := true }
    | none =>
      if pass || !d.isMapped r.psa then d
      else
        let d := retireSlot r.psa 2 d
        if decoded then reRecord r.psa r.lsnRead c.dat 2 d
        else
          let opu := (d.recorders (psaSide r.psa)).headD (2 * psaSide r.psa)
          let d := { d with ladder := d.ladder ++ [{ psa := r.psa, lsn := r.lsnRead, opu := opu, good := r.good }] }
          serveLadder d
  | _ => d

/-! Optimum power calibration (R192 to R195). -/

/-- The data bytes of test leaf `p`: the outputs of the LFSR seeded with p + 1, eight steps per byte, earliest bit in bit 7
(R193). -/
def testLeafData : Nat → Nat → Bytes
  | 0, _ => []
  | k + 1, s =>
    let bits := (List.range 8).map fun i => (iter scramblerStep i s).testBit 15
    BitVec.ofNat 8 (msbNat bits) :: testLeafData k (iter scramblerStep 8 s)

/-- The codeword of test leaf `p` of a test track (R193): metadata of slot p mod 4 and leaf ⌊p ÷ 4⌋, LSN 0xFFFF_FFFF. -/
def testLeafWord (side layer track p : Nat) : Nat :=
  ldpcEncode 1 (leNat (leafBytes (testLeafData 4096 (p + 1)) (mkPsa side layer track (p % 4) 0) (p / 4) 6 1 noSheet))

/-- The layer of an OPU's next OPC run: that of its earliest plan, else, for a host's request, the one it is on (R192). -/
def Dev.opcKeyOf (d : Dev) (opu : Nat) : Nat :=
  match (d.opuFw opu).plans.head? with
  | some p => p.key
  | none => 8 * opuSide opu + d.sv opu svLayer

/-- Whether an OPU can begin an OPC run on a layer: it tracks and may record, it stands between bands with no closing revolution
owed on its side, the disc can be recorded there, and there is a band to record or a request (R170, R192). -/
def Dev.opcStarts (d : Dev) (opu key : Nat) : Bool :=
  let f := d.opuFw opu
  d.opuReady opu && d.svSt opu == svTracking && d.canRecord opu && d.opcIsDue opu key && f.opcBand.isNone && f.latched.isNone
    && !(d.classE && (f.running || f.closing)) && (d.closingOwed (opuSide opu)).isNone && !d.frost && !d.is .PMU_STAT_THAWING
    && d.fw.disc.loaded && !d.fw.disc.readOnly && (d.strategySet key).isSome && (!f.plans.isEmpty || f.opcDue)

/-- OPC_RUN: an OPU records one test band of a layer and reads it with the verify spots at G4 nominal speed (R193, R195). On Class W
test bands are used once; when none is left the layer keeps its targets and ATTN 7 is raised once. -/
def opcRun (opu : Nat) (d : Dev) : Dev :=
  let key := d.opcKeyOf opu
  let side := key / 8
  let layer := key % 8
  let k := sparseGet 0 d.fw.opcNext key
  if !d.opcStarts opu key then d
  else if !d.classE && 84 ≤ k then
    (d.onOpuFw opu fun f => { f with opcDue := false }).cond (!d.fw.opcFull.contains key) fun d =>
      (d.onFw fun w => { w with opcFull := key :: w.opcFull }).attn 7
  else
    let band := k % 84
    let base := 24 + 12 * band
    if !d.paceOk opu base then setPace opu base true d
    else if !d.ctxRoom 48 then d
    else
      let d := loadStrategy opu key d
      let d := d.onFw fun w => { w with opcNext := sparseSet 0 w.opcNext key (k + 1) }
      let r := d.alloc 4096
      let a := r.2.alloc (12 * 4 * 38 * 4624)
      let d := a.2
      let holdOf := fun (w s : Nat) => a.1 + (4 * w + s) * 38 * 4624
      let d := d.each (List.range 12) fun d w => d.each (List.range 143) fun d p =>
        d.bufPut 2 (holdOf w (p % 4) + 4624 * (p / 4)) (leBytes 4624 (testLeafWord side layer (base + w) p))
      let bytes := (List.range 12).flatMap (fun w => (List.range 8).flatMap fun s => leBytes 8 (if s < 4 then holdOf w s else 0))
        ++ (List.range 12).flatMap (fun w => leBytes 4 (base + w + layer <<< 18 + side <<< 21) ++ leBytes 2 0 ++ leBytes 2 0x1FF ++ leBytes 8 0)
        ++ List.replicate 64 0#8
      let d := (d.bufPut 2 r.1 bytes).fs .WSG_PLAN_BASE (r.1 / 1024) opu
      let d := d.onOpuFw opu fun f => { f with opcBand := some band, opcKey := key, opcHold := a.1, opcLeaves := [], opcDue := true }
      let d := d.each (List.range 12) fun d w =>
        let d := d.wr .WSG_LEAD (BitVec.ofInt 21 (d.leadOf opu w (base + w)) |>.setWidth 32) opu w
        let d := sliceRole (24 * opu + w) 1 15 d
        d.each (List.range 4) fun d s => openCtx (mkPsa side layer (base + w) s 0) 1 noSheet 0 0 (holdOf w s) d
      let d := d.wr .RCS_FMT (BitVec.ofNat 32 (4 + 1 <<< 4 + 1 <<< 6)) opu
      let d := moveTo opu base layer d
      let d := (apcStart opu (askRelease opu d)).fs .WSG_OCTL_GATE_EN 1 opu
      ((setPace opu base true d).spSet 1 (bRat (nominalCentiRpm 4) 100)).spSet 0 0

/-- The APC target of step `i` of an OPC run in 0.01 mW: (0.76 + 0.04 i) × PEAK_NOM (R193). -/
def opcStepTarget (peak i : Nat) : Nat := openDiv (peak * (76 + 4 * i)) 100

/-- FRAME_RECORD: a lane records a leaf position (R158). In an OPC run the lane's APC target is that of the position's step, and
positions 143 to 151 stay unrecorded (R193): how firmware keeps them so is notes/assumptions/75.md. -/
def frameStep (opu w p fields : Nat) (ends : Bool) (d : Dev) : Dev :=
  let f := d.opuFw opu
  if f.opcBand.isNone then frameRecord opu w p fields ends d
  else if 143 ≤ p then d
  else
    let peak := ((d.strategySet f.opcKey).map fun s => le s 2 2).getD 0
    let t := opcStepTarget peak (p / 11)
    let n := 9 + 12 * opu + w
    let d := d.cond (laneOf ((d.bankNow n).getD 0 0#128) 0 != t) (bankLane n 0 0 t)
    frameRecord opu w p fields ends d

/-- Whether a step of a beam passes: all 11 of its leaves EQUAL, their mean RAW at or below RAW_MAX of I1 (R194). -/
def stepPasses (leaves : List (Nat × Nat × Bool × Nat)) (rawMax beam i : Nat) : Bool :=
  let mine := leaves.filter fun x => x.1 == beam && decide (11 * i ≤ x.2.1) && decide (x.2.1 < 11 * i + 11)
  mine.length == 11 && mine.all (fun x => x.2.2.1) && decide ((mine.map (·.2.2.2)).sum ≤ 11 * rawMax)

/-- The runs of consecutive passing steps, as (first, length), the lowest first. -/
def passRuns : Nat → List Bool → List (Nat × Nat)
  | _, [] => []
  | i, true :: rest =>
    match passRuns (i + 1) rest with
    | (j, n) :: more => if j = i + 1 then (i, n + 1) :: more else (i, 1) :: (j, n) :: more
    | [] => [(i, 1)]
  | i, false :: rest => passRuns (i + 1) rest

/-- The first and last step of a beam's longest run of passing steps, the run of lower power where two are equally long;
none for a run of fewer than 3 (R194). -/
def bestRun (passes : List Bool) : Option (Nat × Nat) :=
  match (passRuns 0 passes).foldl (fun (b : Nat × Nat) r => if b.2 < r.2 then r else b) (0, 0) with
  | (i, n) => if n < 3 then none else some (i, i + n - 1)

/-- The target of a beam in 0.01 mW from its run: the midpoint of (0.76 + 0.04 a) and (0.76 + 0.04 b) × PEAK_NOM (R193,
R194). -/
def opcTarget (peak a b : Nat) : Nat := openDiv (peak * (152 + 4 * a + 4 * b)) 200

/-- An OPU withdrawn from recording (R194): ATTN 7, the event, and its sheets to the other OPU of the side; where none can record
they fail. -/
def opcWithdraw (opu : Nat) (d : Dev) : Dev :=
  let d := ((d.onOpuFw opu fun f => { f with noRecord := true }).event { code := 0x3003, src := opu }).attn 7
  recordWork (passSheets opu false true d)

/-- The contexts that still wait for leaves of an OPC test band abandoned: positions 143 to 151 are never recorded (R193). -/
def opcContextsEnd (key band : Nat) (d : Dev) : Dev :=
  let mine := d.sde.ctxs.filter fun e => (e.2.open_ || e.2.owed) && layerKey e.2.psa == key
    && 24 + 12 * band ≤ psaTrack e.2.psa && psaTrack e.2.psa < 36 + 12 * band
  d.each (mine.map (·.1)) fun d i => contextAbandon i d

/-- OPC_EVALUATE: the targets of an OPC run from its leaf results, put in force; a failed beam is tried once more on the next test
band, and then withdraws its OPU (R194). -/
def opcEvaluate (opu : Nat) (d : Dev) : Dev :=
  let f := d.opuFw opu
  match f.opcBand with
  | none => d
  | some band =>
    let key := f.opcKey
    let again := sparseGet [] f.opcAgain key
    let peak := ((d.strategySet key).map fun s => le s 2 2).getD 0
    let beams := if again.isEmpty then List.range 12 else again
    let runOf := fun b => bestRun ((List.range 13).map fun i => stepPasses f.opcLeaves (d.rawMax 1) b i)
    let failed := beams.filter fun b => (runOf b).isNone
    let set := fun (t : Sparse Nat) b => match runOf b with
      | none => t
      | some r => sparseSet 0 t (12 * key + b) (opcTarget peak r.1 r.2)
    let d := (opcContextsEnd key band d).fs .WSG_OCTL_GATE_EN 0 opu
    let d := d.onOpuFw opu fun f => { f with opcBand := none, opcLeaves := [], targets := beams.foldl set f.targets }
    let d := loadTargets opu key d
    if !failed.isEmpty then
      if again.isEmpty then d.onOpuFw opu fun f => { f with opcAgain := sparseSet [] f.opcAgain key failed, opcDue := true }
      else opcWithdraw opu (d.onOpuFw opu fun f => { f with opcAgain := sparseSet [] f.opcAgain key [], opcDue := false })
    else
      let temp := d.thermTemp (sparseGet 0 d.eng.therm opu)
      let d := (inhReason opu 6 false d).onOpuFw opu fun f => { f with
        opcAgain := sparseSet [] f.opcAgain key [], opcDue := false, verifies := []
        opcTemp := sparseSet 0 f.opcTemp key (temp + 1000).toNat }
      d.fwSubmit false 0x05 0 (leBytes 1 (key / 8) ++ leBytes 1 (key % 8) ++ leBytes 1 opu ++ leBytes 1 band
        ++ leBytes 2 (unsigned 16 temp) ++ (List.range 12).flatMap fun b => leBytes 2 (sparseGet 0 (d.opuFw opu).targets (12 * key + b)))

/-- CAL_DUE_TIMEOUT: in RECORD a pair that has been due for 60 s ends its OPU's recording run at the next band, so that it
can be calibrated (R352); where its condition does not hold then either, `calBeside` brings the OPU to it. -/
def calDueTimeout (group opu : Nat) (d : Dev) : Dev :=
  let due := sparseGet 0 d.cal.dueAt (pairBit opu group)
  if d.mode != 5 || due = 0 || d.qtime + 1 < due + 60 * second then d
  else
    let d := closingRevolution opu d
    calTrigger (2 ^ pairBit opu group) d

/-! The effects of the commands. -/

/-- RETRY_LADDER_STEP (R144). -/
def execRetryLadderStep (opu : Fin 4) (psa : Nat) (canOther : Bool) (s : State) : Host.Outcome State Fault Refusal :=
  s.onDev (retryStep opu psa canOther)

/-- FRAME_RECORD (R158). -/
def execFrameRecord (opu : Fin 4) (lane : Fin 12) (pos : Nat) (fields : Nat) (ends : Bool) (s : State) :
    Host.Outcome State Fault Refusal :=
  s.onDev (frameStep opu lane pos fields ends)

/-- BAND_PLAN_DECISION (R189). -/
def execBandPlanDecision (opu : Fin 4) (s : State) : Host.Outcome State Fault Refusal :=
  s.onDev (bandPlanDecision opu)

/-- STREAM_IDLE_TIMEOUT (R189). -/
def execStreamIdleTimeout (stream : Fin 16) (s : State) : Host.Outcome State Fault Refusal :=
  s.onDev (streamIdleTimeout stream)

/-- VERIFY_RESULT_HANDLE (R179). -/
def execVerifyResultHandle (s : State) : Host.Outcome State Fault Refusal := s.onDev verifyResultHandle

/-- NEIGHBOUR_JUDGE (R182). -/
def execNeighbourJudge (s : State) : Host.Outcome State Fault Refusal := s.onDev neighbourJudge

/-- CLOSING_REVOLUTION (R181). -/
def execClosingRevolution (opu : Fin 4) (s : State) : Host.Outcome State Fault Refusal :=
  s.onDev (closingRevolution opu)

/-- OPC_RUN (R193). -/
def execOpcRun (opu : Fin 4) (s : State) : Host.Outcome State Fault Refusal := s.onDev (opcRun opu)

/-- OPC_EVALUATE (R194). -/
def execOpcEvaluate (opu : Fin 4) (s : State) : Host.Outcome State Fault Refusal := s.onDev (opcEvaluate opu)

/-- CAL_DUE_TIMEOUT (R352). -/
def execCalDueTimeout (group : Fin 7) (opu : Fin 4) (s : State) : Host.Outcome State Fault Refusal :=
  s.onDev (calDueTimeout group opu)

end Sys2Proof.Machine
end

