-- ==== Sys2Proof/Machine/JournalFw.lean ====
section
/-!
DEFINITION. The journal's commands and what firmware does around them (13_ream_journal.md R416 to R426, R684): what a
durable record tells firmware, failures, map checkpoints, and keeping the ring short.
-/

namespace Sys2Proof.Machine

/-- The opcodes that must write a record (R426): writes, FLUSH STREAM, group commands and SNAPSHOT. -/
def mustRecord (op : Nat) : Bool := op == 0x11 || op == 0x13 || (0x20 ≤ op && op ≤ 0x25 && op != 0x24) || op == 0x28

/-- What a durable record tells firmware: an INTENT of its write, a COMMIT of its version, an ORDER of its stream, a
CHECKPOINT of what it absorbs. -/
def recordDurable (b : Bytes) (d : Dev) : Dev :=
  let p := recordPayload b
  match recordType b with
  | 0x01 =>
    let ssq := le p 1 4
    let mine := fun (w : WriteRec) => w.ssq == ssq && (le p 0 1 < 128 || w.lsn == le p 5 4)
    d.onStream (le p 0 1) fun t => { t with writes := t.writes.map fun w => if mine w then { w with intent := true } else w }
  | 0x02 =>
    let psa := le p 4 5
    let done := fun (v : Version) => if v.psa == some psa && v.stage = .committing then { v with stage := .committed } else v
    (d.onFw fun w => { w with versions := w.versions.map done }).levelWrite
  | 0x08 => if le p 1 4 = 0 then d else d.onStream (le p 0 1) fun t => { t with ordered := le p 1 4 }
  | 0x0B => d.onFw fun w => { w with cpAbsorb := sparseSet 0 w.cpAbsorb (le p 0 1) (le p 1 6) }
  | _ => d

/-- JOURNAL_FAILURE: both banks have failed (R426): commands that must write a record fail with CLASS 9, recording stops,
ATTN 6. -/
def journalFailed (d : Dev) : Dev :=
  let d := d.each d.running fun d c => d.cond (mustRecord c.opcode) fun d => d.endCmd c.id 9 1
  let d := d.each d.opus fun d o => (lanesStop true o (recordHold o d)).onOpuFw o fun f => { f with paused := true }
  (d.event { code := 0x4003 }).attn 6

/-- Firmware's part of what a journal write met: remapped rows logged, a failed bank reported, both failed (R418, R425,
R426). -/
def journalAfter (before d : Dev) : Dev :=
  let d := d.each [0, 1] fun d b => d.each (List.range (d.sparesUsed b - before.sparesUsed b)) fun d _ =>
    d.event { code := 0x4001, src := b }
  let d := d.each [0, 1] fun d b => d.cond (before.bankOk b && !d.bankOk b) fun d => (d.event { code := 0x4002, src := b }).attn 6
  d.cond (d.is .RJ_STAT_FAILED && !before.is .RJ_STAT_FAILED) journalFailed

/-- RJ_SUBMIT: a 64-byte fabric write to a ring (R416); an error response where the journal never writes it. -/
def rjSubmit (event : Bool) (b : Bytes) (d : Dev) : Dev := { d.submit event b with error := !d.journalOpen }

/-- RJ_STAGE_FROST: a 64-byte fabric write to offset 0x80 (R424). -/
def rjStage (b : Bytes) (d : Dev) : Dev := { rjStageFrost b d with error := !d.journalOpen }

/-- RJ_SEAL: the journal completes the seal that a frost line began (R424, Table 13-4). -/
def rjSeal (begun : Bool) (fails0 fails1 frost0 frost1 : List Bool) (d : Dev) : Dev :=
  let r := d.seal begun fails0 fails1 frost0 frost1
  let e := match r.2 with
    | some b => recordDurable b r.1
    | none => r.1
  journalAfter d e

/-! Map checkpoints (R684). -/

/-- The sides that a fused-on OPU can record. -/
def Dev.recordSides (d : Dev) : List Nat :=
  [0, 1].filter fun s => (d.opus.any fun o => opuSide o == s) && (d.sideInfo s).formatted && (d.sideInfo s).recordable

/-- A checkpoint begun on one side: the sheets of the dirty segments, and of those that have none there, in the buffer and planned;
a Class W side without room takes no more new versions and raises ATTN 1 once (R684). -/
def checkpointSide (closed : Bool) (seq absorb : Nat) (dirty : List Nat) (d : Dev) (side : Nat) : Dev :=
  let segs := d.mappedSegs.filter fun g => dirty.contains g || sparseGet 0 d.fw.cpMap (4096 * side + g) = 0
  let n := sparseGet 0 d.fw.cpNext side
  if !d.classE && cpSlots < n + segs.length + 1 then
    if d.fw.cpFull.contains side then d else (d.onFw fun w => { w with cpFull := side :: w.cpFull }).attn 1
  else
    let r : CpRun := { side := side, seq := seq, absorb := absorb, closed := closed, segs := segs }
    let d := d.onFw fun w => { w with cpRuns := w.cpRuns ++ [r] }
    cpWork (d.each segs fun d g => d.cond (d.fw.cpRuns.contains r) (cpMake side g 0 fun d => segmentBytes d g))

/-! Keeping the ring short (R423). -/

/-- Whether a record's payload is the newest of its kind in a list of records, by a key. -/
def newestOf (l : List Bytes) (same : Bytes → Bytes → Bool) (b : Bytes) : Bool :=
  l.all fun x => x == b || !same x b || !seqLater (recordSeq x) (recordSeq b)

/-- Whether a record must outlive the tail (R423): a live INTENT and the COMMITs of its command (R505), the newest passing CAL
record of a pair, the newest GROUP_GEN of a group, the newest BROKEN of a BROKEN stream, the newest reset marker of a stream,
a group decision that members have yet to answer (R567). Of a record carried forward only the newest copy. -/
def Dev.mustKeep (d : Dev) (l : List Bytes) (b : Bytes) : Bool :=
  let p := recordPayload b
  let same := fun (n : Nat) (x y : Bytes) => recordType x == recordType y && (recordPayload x).take n == (recordPayload y).take n
  newestOf l (same 44) b && match recordType b with
  | 0x01 => ((d.stream (le p 0 1)).writes.any fun w => w.ssq == le p 1 4)
    || (128 ≤ le p 0 1 && d.comp.parts.any fun x => x.n == le p 1 4)
  | 0x02 => d.fw.versions.any fun v => v.psa == some (le p 4 5) && (v.stage = .committing || v.stage = .committed)
  | 0x06 => le p 1 1 == CalResult.pass.code && newestOf l (same 2) b
  | 0x0A => newestOf l (same 4) b
  | 0x09 => (d.stream (le p 0 1)).broken.isSome && newestOf l (same 1) b
  | 0x08 => (128 ≤ le p 0 1 && d.comp.writes.any fun x => x.n == le p 1 4 && x.decided.isSome)
    || le p 1 4 == 0 && newestOf (l.filter fun x => le (recordPayload x) 1 4 == 0) (same 1) b
  | _ => false

/-- The COMMIT records of the command that an INTENT belongs to (R505). -/
def Dev.commitsOf (d : Dev) (l : List (Nat × Bytes)) (b : Bytes) : List (Nat × Bytes) :=
  let p := recordPayload b
  l.filter fun e => recordType e.2 == 0x02 && d.mustKeep (l.map (·.2)) e.2 && d.fw.versions.any fun v =>
    v.stream == le p 0 1 && v.ssq == le p 1 4 && v.copyOf.isNone && v.psa == some (le (recordPayload e.2) 4 5)

/-- Whether a record is not absorbed by the latest CHECKPOINT of a loaded side (R423). -/
def Dev.notAbsorbed (d : Dev) (b : Bytes) : Bool :=
  [0x02, 0x03, 0x04, 0x05, 0x07, 0x0B, 0x0C].contains (recordType b) && d.fw.disc.loaded
    && d.recordSides.any fun s => seqLater (recordSeq b) (sparseGet 0 d.fw.cpAbsorb s)

/-- The slots of the main ring from the head backward, oldest first, with their records. -/
def Dev.mainByAge (d : Dev) : List (Nat × Bytes) :=
  let l := d.records false
  let h := d.fg .RJ_HEAD_HEAD
  (l.filter fun e => h ≤ e.1) ++ l.filter fun e => e.1 < h

/-- SEQ up to which a map checkpoint made now absorbs records: that before the oldest live INTENT, whose COMMIT records the map
does not yet hold (R505), else that of the newest record. -/
def Dev.absorbSeq (d : Dev) : Nat :=
  let l := d.mainByAge
  let live := l.find? fun e => recordType e.2 == 0x01 && d.mustKeep (l.map (·.2)) e.2
  ((live.elim d.nextSeq fun e => recordSeq e.2) + 2 ^ 48 - 1) % 2 ^ 48

/-- MAP_CHECKPOINT: a map checkpoint of the loaded disc begun, incremental or CLOSED, on every side that can be recorded (R684). DESIGN
CHOICE (notes/assumptions/76.md): one at a time. -/
def mapCheckpoint (closed : Bool) (d : Dev) : Dev :=
  if !d.fw.disc.loaded || d.fw.disc.readOnly || !d.fw.cpRuns.isEmpty then d
  else
    let absorb := d.absorbSeq
    let dirty := d.fw.dirty
    let d := d.onFw fun w => { w with cpSeq := (w.cpSeq + 1) % 2 ^ 64, dirty := [] }
    d.each (d.recordSides.filter fun s => !(d.recorders s).isEmpty) (checkpointSide closed d.fw.cpSeq absorb dirty)

/-- RJ_TAIL set to the oldest record that is still needed; one before the head where none is (R423). -/
def setTail (d : Dev) : Dev :=
  let l := d.mainByAge
  let t := match l.find? fun e => d.mustKeep (l.map (·.2)) e.2 || d.notAbsorbed e.2 with
    | some e => e.1
    | none => (d.fg .RJ_HEAD_HEAD + mainSlots - 1) % mainSlots
  (d.fs .RJ_TAIL t).fullUpdate

/-- RJ_RECORD_WRITE: the record at the front of the queue is written to both banks (R417, R418, R425, R426); a durable CHECKPOINT
moves the tail (R423). -/
def rjRecordWrite (fails0 fails1 : List Bool) (d : Dev) : Dev :=
  let r := d.recordWrite fails0 fails1
  let e := match r.2 with
    | some b => (recordDurable b r.1).cond (recordType b == 0x0B) setTail
    | none => r.1
  journalAfter d e

/-- JOURNAL_LOW_SPACE: fewer than 4,096 free main slots: a map checkpoint, the old live records carried forward with
FLAGS[0], an INTENT with its command's COMMITs (R505), and the tail moved (R423). -/
def journalLowSpace (d : Dev) : Dev :=
  if 4096 ≤ d.freeSlots then d
  else
    let l := d.mainByAge
    let h := d.fg .RJ_HEAD_HEAD
    let aged := l.filter fun e => 7168 < (h + mainSlots - e.1) % mainSlots && d.mustKeep (l.map (·.2)) e.2
    let old := (aged.filter fun e => recordType e.2 != 0x02) ++
      (aged.filter fun e => recordType e.2 == 0x01).flatMap fun e => d.commitsOf l e.2
    let d := mapCheckpoint false d
    let d := d.each old fun d e => d.fwSubmit false (recordType e.2) 1 (recordPayload e.2)
    setTail d

/-! The effects of the commands. -/

/-- RJ_SUBMIT (R416). -/
def execRjSubmit (event : Bool) (data : List (BitVec 8)) (s : State) : Host.Outcome State Fault Refusal :=
  s.onDev (rjSubmit event data)

/-- RJ_RECORD_WRITE (R418). -/
def execRjRecordWrite (fails0 : List Bool) (fails1 : List Bool) (s : State) : Host.Outcome State Fault Refusal :=
  s.onDev (rjRecordWrite fails0 fails1)

/-- RJ_STAGE_FROST (R424). -/
def execRjStageFrost (data : List (BitVec 8)) (s : State) : Host.Outcome State Fault Refusal := s.onDev (rjStage data)

/-- RJ_SEAL (R424). -/
def execRjSeal (begun : Bool) (fails0 : List Bool) (fails1 : List Bool) (frost0 : List Bool) (frost1 : List Bool) (s : State) :
    Host.Outcome State Fault Refusal :=
  s.onDev (rjSeal begun fails0 fails1 frost0 frost1)

/-- RJ_RECORD_READ (R420). -/
def execRjRecordRead (event : Bool) (slot : Nat) (s : State) : Host.Outcome State Fault Refusal :=
  s.onDev (rjRecordRead event slot)

/-- JOURNAL_LOW_SPACE (R423). -/
def execJournalLowSpace (s : State) : Host.Outcome State Fault Refusal := s.onDev journalLowSpace

/-- MAP_CHECKPOINT (R684). -/
def execMapCheckpoint (closed : Bool) (s : State) : Host.Outcome State Fault Refusal := s.onDev (mapCheckpoint closed)

end Sys2Proof.Machine
end

