-- ==== Sys2Proof/Machine/SpindleFw.lean ====
section
/-!
DEFINITION. What firmware does with the spindle and the clamp's faults (08_spindle.md R287, R294, R295, R300, R301;
09_sled_and_clamp.md R328), and which sheets an OPU captures as it reads.
-/

namespace Sys2Proof.Machine

/-- The set-point source of a mode (R294): the read law in READ, the record law in RECORD, SP_FIX elsewhere. -/
def modeSource (m : Nat) : Nat := if m = 4 then 1 else if m = 5 then 2 else 0

/-- SV_INH.HOLD on every OPU for a spindle condition; a frame in progress is stopped (R301). -/
def spnHoldAll (d : Dev) : Dev :=
  let d := d.each d.opus fun d o => lanesStop true o (d.hold o true)
  d.onFw fun w => { w with spnHold := true }

/-- The restart of R300 from any state but FAULT: CATCH, START, or STOP with a START owed once the spindle is OFF; only
while the clamp is CLAMPED (R330). -/
def spnRestart (d : Dev) : Dev :=
  let d := d.spSet 0 (modeSource d.mode)
  if d.clState != clClamped then d
  else if 16 * couchRpm (d.rd .SPN_COUCH) ≤ d.speed16 then spnCatch d
  else if d.is .SPN_STAT_BELOW30 then spnStart d
  else (spnStop d).onFw fun w => { w with spnOwed := true }

/-- Spin-up to the nominal speed of G4, where band 0 lies: SP_FIX, SP_MAX and SP_MIN written, and the spindle started (R286,
R294). -/
def spinUp (d : Dev) : Dev :=
  let g4 := bRat (nominalCentiRpm 4) 100
  spnRestart (((d.spSet 1 g4).spSet 2 g4).spSet 3 (bRat 1200 1))

/-- The times of a condition within a span before now, and now. -/
def within (now span : Nat) (l : List Nat) : List Nat := now :: l.filter fun t => now ≤ t + span

/-- OC_TRIP by Table 8-5: false where it withdraws the spindle. -/
def ocTrip (d : Dev) : Bool × Dev :=
  let d := (d.event { code := 0x2003, data := leBytes 1 1 }).fs .SPN_STAT_OC_TRIP 0
  let l := within d.qtime (10 * second) d.fw.spnTrips
  let d := d.onFw fun w => { w with spnTrips := l }
  if 2 ≤ l.length then (false, d.withdrawSpindle) else (true, spnClearFault d)

/-- OVSP by Table 8-5: false where it withdraws the spindle. -/
def ovSpeed (d : Dev) : Bool × Dev :=
  let d := (d.event { code := 0x2003, data := leBytes 1 4 }).fs .SPN_STAT_OVSP 0
  let l := within d.qtime (10 * second) d.fw.spnOver
  let d := d.onFw fun w => { w with spnOver := l }
  if 2 ≤ l.length then (false, d.withdrawSpindle) else (true, spnClearFault d)

/-- SPINDLE_RESTORE: FROST_HOLD has cleared (R300); until RUN has lasted a revolution every OPU holds (R301). -/
def spindleRestore (d : Dev) : Dev :=
  let d := d.cond (decide (3 ≤ d.mode ∧ d.mode ≤ 5) && d.spnState != spnRun) spnHoldAll
  let r := if d.spnState != spnFault then (true, d)
    else if d.is .SPN_STAT_OC_TRIP then ocTrip d
    else if d.is .SPN_STAT_OVSP then ovSpeed d
    else (true, spnClearFault d)
  if r.1 then spnRestart r.2 else r.2

/-- START_FAIL_RETRY: after a start failure and BELOW30, another start with I_ALIGN raised by 25 % up to OC_CYC; the third
failure withdraws the spindle (R287). -/
def startFailRetry (d : Dev) : Dev :=
  if !d.is .SPN_STAT_START_FAIL || !d.is .SPN_STAT_BELOW30 || d.spnState != spnOff || d.fw.spnWithdrawn then d
  else
    let d := (d.fs .SPN_STAT_START_FAIL 0).onFw fun w => { w with spnTries := w.spnTries + 1 }
    if 3 ≤ d.fw.spnTries then d.withdrawSpindle
    else
      let i := limitN 0 (d.fg .SPN_LIMIT_OC_CYC) (openDiv (5 * d.fg .SPN_ALIGN_I_ALIGN) 4)
      let d := d.fs .SPN_ALIGN_I_ALIGN i
      if d.clState = clClamped then spnStart d else d

/-- A slot whose fault stopped it, started again. -/
def slotRestart (n : Nat) (d : Dev) : Dev := slotsStart [n] ((d.fs .SLOT_STAT_FAULT 0 n).fs .SLOT_STAT_CAUSE 0 n)

/-- SPINDLE_CONDITION_HANDLE (Table 8-5): 0 OC_TRIP, 1 SYNC_LOSS, 2 OVSP, 3 DUTY_STALE or a fault of the SPC slot, 4 a fault
of the SPS or WMK slot, 5 OFF reached with a START owed (R300), 6 RUN has lasted one revolution at the set-point (R301). -/
def spindleCondition (cond : Nat) (d : Dev) : Dev :=
  if d.fw.spnWithdrawn then d
  else
    match cond with
    | 0 => if d.is .SPN_STAT_OC_TRIP then (let r := ocTrip (spnHoldAll d); if r.1 then spnRestart r.2 else r.2) else d
    | 1 =>
      if !d.is .SPN_STAT_SYNC_LOSS then d
      else
        let d := (spnHoldAll d).fs .SPN_STAT_SYNC_LOSS 0
        let l := within d.qtime (600 * second) d.fw.spnLosses
        let d := d.onFw fun w => { w with spnLosses := l }
        if 4 ≤ l.length then d.withdrawSpindle else spnRestart d
    | 2 => if d.is .SPN_STAT_OVSP then (let r := ovSpeed (spnHoldAll d); if r.1 then spnRestart r.2 else r.2) else d
    | 3 =>
      if !d.is .SPN_STAT_DUTY_STALE && !d.is .SLOT_STAT_FAULT 8 then d
      else
        let d := (spnHoldAll d).fs .SPN_STAT_DUTY_STALE 0
        spnRestart (slotRestart 70 (slotRestart 65 (slotRestart 8 d)))
    | 4 =>
      let bad := [65, 70].filter fun n => d.is .SLOT_STAT_FAULT n
      if bad.isEmpty then d
      else d.each bad fun d n => slotRestart n ((d.spSet 1 d.rpm).spSet 0 0)
    | 5 =>
      if d.fw.spnOwed && d.spnState = spnOff && d.is .SPN_STAT_BELOW30 && d.clState = clClamped then
        spnStart (d.onFw fun w => { w with spnOwed := false })
      else d
    | _ =>
      let far := bLt (bMul (bRat 1 100) (d.sp 5)) (bAbs (bSub d.rpm (d.sp 5)))
      if d.spnState != spnRun || far then d
      else (d.each d.opus fun d o => d.hold o false).onFw fun w => { w with spnHold := false, spnTries := 0 }

/-- SPEED_ERROR_TIMEOUT: in RUN, |SPEED - SP_SET| above 5 % for 200 ms: logged, and HOLD on every OPU (Table 8-5). -/
def speedErrorTimeout (d : Dev) : Dev :=
  if d.spnState != spnRun || !bLt (bMul (bRat 5 100) (d.sp 5)) (bAbs (bSub d.rpm (d.sp 5))) then d
  else spnHoldAll (d.event { code := 0x2003, data := leBytes 1 7 })

/-! Reading bands (R295). -/

/-- The sheets of a track that a running command waits for and that no open context already serves, by slot. -/
def Dev.wantedSlots (d : Dev) (key track k' : Nat) : List Nat :=
  (List.range k').filter fun s =>
    let psa := mkPsa (key / 8) (key % 8) track s 0
    !(d.waiters psa).isEmpty || d.sde.ctxs.any (fun e => e.2.open_ && e.2.psa == psa)

/-- An OPU's slices set to capture what is wanted of the band whose lowest track is `base`, a context opened for each sheet
(R124). -/
def captureBand (opu key base : Nat) (d : Dev) : Dev :=
  let st := (d.sideInfo (key / 8)).strength
  let k := classOf base
  let s' := strengthAt st base
  let d := d.wr .RCS_FMT (BitVec.ofNat 32 (k + s'.level <<< 4 + pCode s'.p <<< 6)) opu
  d.each (List.range 24) fun d s =>
    let slots := d.wantedSlots key (base + s) (slotsOf st (base + s))
    let d := sliceRole (24 * opu + s) 0 (maskOf slots) d
    d.each slots fun d q =>
      let psa := mkPsa (key / 8) (key % 8) (base + s) q 0
      if d.sde.ctxs.any fun e => e.2.open_ && e.2.psa == psa then d
      else
        let lsn := ((d.waiters psa).head?.bind fun c => (c.binds.find? fun b => b.psa == some psa).map (·.lsn)).getD noSheet
        let r := d.alloc 131072
        openCtx psa 0 lsn 0 r.1 0 r.2

/-- The free room of the read pool in KiB: its size less the pending level (R295). -/
def Dev.readRoom (d : Dev) : Nat := d.pageVal 6 0 8 4 * 1024 - d.sp 4

/-- READ_BAND_ADVANCE: before a jump window in READ an OPU is advanced to its next band when the read pool has room for
every sheet of it, the spindle is no faster than its class allows (R65, R295) and the die is not too hot (R666); otherwise it holds with nothing captured. -/
def readBandAdvance (opu : Nat) (d : Dev) : Dev :=
  if d.mode != 4 || !d.opuReady opu || d.svSt opu != svTracking || (d.opuFw opu).calOut.isSome then d
  else
    let d := d.levelWrite
    let key := 8 * opuSide opu + d.sv opu svLayer
    let next := d.fg .RCS_BAND_BASE_TRACK opu + 24
    let k' := slotsOf (d.sideInfo (opuSide opu)).strength next
    let room := 24 * k' * 128 ≤ d.readRoom && next / 24 ≤ lastReadBand && !(d.opuFw opu).hot
    let ok := d.paceOk opu next
    let d := d.cond room (setPace opu next false)
    if room && ok then
      captureBand opu key next (d.svSet opu svNextJ 24)
    else
      d.each (slicesOf opu) (fun d n => d.fs .RCS_CAP_SLOTS 0 n) |>.svSet opu svNextJ 0

/-- DISC_LOST: DISC_PRESENT falls while CLAMPED (R328): the clamp faults, the spindle stops, every OPU holds and opens, the
loss is logged with ATTN 1, commands that need the disc fail, and the unit is PARKED (Table 19-2). -/
def discLost (d : Dev) : Dev :=
  if d.clState != clClamped then discLostHw d
  else
    let d := discLostHw d
    let d := d.each d.opus fun d o => slicesOff o <| servoOpen o (apcStop o (lanesStop true o (d.hold o true)))
    let d := (d.event { code := 0x2006 }).attn 1
    let d := d.failDisc 6 4
    let d := (cpDrop 1 (cpDrop 0 d)).onFw fun w => { w with disc := { w.disc with loaded := false, lost := true } }
    if d.mode = 3 || d.mode = 4 || d.mode = 5 then d.setMode 2 else d

/-! The effects of the commands. -/

/-- START_FAIL_RETRY (R287). -/
def execStartFailRetry (s : State) : Host.Outcome State Fault Refusal := s.onDev startFailRetry

/-- SPINDLE_CONDITION_HANDLE (R301). -/
def execSpindleConditionHandle (cond : Fin 7) (s : State) : Host.Outcome State Fault Refusal :=
  s.onDev (spindleCondition cond)

/-- SPEED_ERROR_TIMEOUT (R301). -/
def execSpeedErrorTimeout (s : State) : Host.Outcome State Fault Refusal := s.onDev speedErrorTimeout

/-- READ_BAND_ADVANCE (R295). -/
def execReadBandAdvance (opu : Fin 4) (s : State) : Host.Outcome State Fault Refusal := s.onDev (readBandAdvance opu)

/-- DISC_LOST (R328). -/
def execDiscLost (s : State) : Host.Outcome State Fault Refusal := s.onDev discLost

end Sys2Proof.Machine
end

