-- ==== Sys2Proof/Machine/Streams.lean ====
section
/-!
DEFINITION. Streams (16_ordering_recovery.md): version visibility, the durability watermark, map changes, BROKEN streams
and what replay of the journal gives.
-/

namespace Sys2Proof.Machine

/-- Whether SSEQ a is later than b (R477). -/
def ssqLater (a b : Nat) : Bool :=
  let x := (a + 2 ^ 32 - b % 2 ^ 32) % 2 ^ 32
  1 ≤ x && x ≤ 2 ^ 31 - 1

/-- The SSEQ after one: 1 to 0xFFFF_FFFF and then 1 again (R477). -/
def ssqNext (n : Nat) : Nat := if 0xFFFFFFFF ≤ n then 1 else n + 1

/-! Versions (R495 to R498, R502, R504, R507). -/

/-- Whether a version is one that a command may bind to: not mapped, not withdrawn, not a copy (R497); a version of a group
stream is visible only once it is released, and so mapped (R566). -/
def Version.live (v : Version) : Bool := v.stream < 128 && v.copyOf.isNone && v.stage != .mapped && v.stage != .gone

/-- Whether the command that created a version has had its reply posted. -/
def Dev.posted (d : Dev) (v : Version) : Bool := !d.fw.cmds.any fun c => c.stream == v.stream && c.ssq == v.ssq

/-- Whether a version is visible to a stream's commands accepted now (R496). -/
def Dev.sees (d : Dev) (stream : Nat) (v : Version) : Bool := v.live && (v.stream == stream || v.seen || d.posted v)

/-- The newest of versions, by version order. -/
def newestVersion (l : List Version) : Option Version :=
  l.foldl (fun r v => match r with
    | none => some v
    | some w => if w.order < v.order then some v else some w) none

/-- The newest version of an LSN visible to a stream, below an order (R497). -/
def Dev.visibleBelow (d : Dev) (stream lsn below : Nat) : Option Version :=
  newestVersion (d.fw.versions.filter fun v => v.lsn == lsn && v.order < below && d.sees stream v)

/-- What a sheet of a reading command binds to (R497): an owed version; else the slot the map gives; else nothing, an LSN
never written. -/
def Dev.bindOne (d : Dev) (stream lsn below : Nat) : Bound :=
  match d.visibleBelow stream lsn below with
  | some v => { lsn := lsn, version := some v.order, psa := none, result := some (0, 0) }
  | none =>
    match d.mapped lsn with
    | some p => { lsn := lsn, psa := some p, result := if d.fw.ambiguous.contains lsn then some (4, 5) else none }
    | none => if d.fw.ambiguous.contains lsn then { lsn := lsn, result := some (4, 5) } else { lsn := lsn, result := some (0, 1) }

/-- The versions that a command has bound to: every command accepted later sees them or newer ones (R496). -/
def markSeen (l : List Bound) (d : Dev) : Dev :=
  let orders := l.filterMap (·.version)
  if orders.isEmpty then d
  else d.onFw fun w => { w with versions := w.versions.map fun v => if orders.contains v.order then { v with seen := true } else v }

/-- Versions that are mapped or withdrawn leave the buffer once no command in progress is bound to them (R504). -/
def dropVersions (d : Dev) : Dev :=
  let bound := fun (v : Version) => d.fw.cmds.any fun c => c.binds.any fun b => b.version == some v.order
  d.onFw fun w => { w with versions := w.versions.filter fun v => (v.stage != .mapped && v.stage != .gone) || bound v }

/-- A void commit's slot (R506, R507): retired on Class W, free on Class E; nothing where the disc may not be recorded. -/
def voidSlot (psa : Nat) (d : Dev) : Dev := if d.classE || d.fw.disc.readOnly || !d.fw.disc.loaded then d else retireSlot psa 1 d

/-- A version withdrawn (R498, R517): it leaves its plan, and a slot it has been recorded in is void. -/
def withdrawVersion (order : Nat) (d : Dev) : Dev :=
  match d.version order with
  | none => d
  | some v =>
    let d := d.each (List.range 4) fun d o => d.onOpuFw o fun f => { f with
      plans := f.plans.map fun p => { p with cells := p.cells.filter fun c => c.2.2 != order } }
    let was := v.stage == .latched || v.stage == .recorded || v.stage == .verified || v.stage == .committing || v.stage == .committed
    let d := match v.psa with
      | some p => d.cond was (voidSlot p)
      | none => d
    d.onVersion order fun v => { v with stage := .gone, wantsNbr := false }

/-- Commands bound to a version bind to the version before it (R498). -/
def rebind (order : Nat) (d : Dev) : Dev :=
  let one := fun (s : Nat) (b : Bound) => if b.version == some order then d.bindOne s b.lsn order else b
  d.onFw fun w => { w with cmds := w.cmds.map fun c => { c with binds := c.binds.map (one c.stream) } }

/-- A write that ends before its INTENT is durable takes no effect (R498). -/
def writeWithdraw (stream ssq : Nat) (d : Dev) : Dev :=
  let mine := (d.fw.versions.filter fun v => v.stream == stream && v.ssq == ssq && v.copyOf.isNone).map (·.order)
  let d := d.each mine fun d o => rebind o (withdrawVersion o d)
  let d := d.onStream stream fun t => { t with writes := t.writes.filter fun w => w.ssq != ssq }
  dropVersions d

/-- The unit with a map entry changed, its segment dirty (R684). -/
def putMap (lsn psa order : Nat) (d : Dev) : Dev :=
  let seg := lsn / 16384
  let dirty := if d.fw.dirty.contains seg then d.fw.dirty else seg :: d.fw.dirty
  d.onFw fun w => { w with
    map := sparseSet 0 w.map lsn (psa + 1), mapOrder := sparseSet 0 w.mapOrder lsn order
    ambiguous := w.ambiguous.filter (· != lsn), dirty := dirty }

/-- MAP_UPDATE for one version (R502): the map entry changes only to a newer version; its segment becomes dirty. -/
def mapVersion (v : Version) (d : Dev) : Dev :=
  let newer := sparseGet 0 d.fw.mapOrder v.lsn < v.order
  let d := match v.psa with
    | some p => d.cond newer (putMap v.lsn p v.order)
    | none => d
  d.onVersion v.order fun v => { v with stage := .mapped }

/-- The versions that a write created. -/
def Dev.versionsOf (d : Dev) (stream ssq : Nat) : List Version :=
  d.fw.versions.filter fun v => v.stream == stream && v.ssq == ssq && v.copyOf.isNone

/-- Whether every sheet of a write has a durable COMMIT record (R501). -/
def Dev.writeDone (d : Dev) (stream : Nat) (w : WriteRec) : Bool :=
  w.intent && !w.dead && (w.group.isSome || (d.versionsOf stream w.ssq).all fun v => v.stage == .committed)

/-- A copy of a mapped version whose COMMIT is durable (R507): it replaces what it copied if that is still mapped, and its
slot is void otherwise. -/
def settleCopy (v : Version) (d : Dev) : Dev :=
  match v.copyOf, v.psa with
  | some old, some p =>
    let d := if d.mapped v.lsn = some old then
        let d := putMap v.lsn p (sparseGet 0 d.fw.mapOrder v.lsn) d
        d.cond (d.fw.refresh.contains (old, v.lsn)) fun d =>
          refreshRecord old true 1 (d.onFw fun w => { w with refresh := w.refresh.filter (· != (old, v.lsn)) })
      else voidSlot p d
    d.onVersion v.order fun v => { v with stage := .mapped }
  | _, _ => d

/-- Every copy whose COMMIT record is durable is settled. -/
def settleCopies (d : Dev) : Dev :=
  d.each (d.fw.versions.filter fun v => v.copyOf.isSome && v.stage = .committed) fun d v => settleCopy v d

/-! The watermark (R501 to R503). -/

/-- Writes of a stream that have become durable in order: the map changes for each whole command, and D follows. -/
def advanceMark : Nat → Nat → Dev → Dev
  | 0, _, d => d
  | n + 1, s, d =>
    match (d.stream s).writes with
    | [] => d
    | w :: rest =>
      if !d.writeDone s w then d
      else
        let d := d.each (d.versionsOf s w.ssq) fun d v => mapVersion v d
        advanceMark n s (d.onStream s fun t => { t with writes := rest, mark := w.ssq })

/-- Whether an SSEQ has been reached by a watermark; 0 needs nothing. -/
def reached (need mark : Nat) : Bool := need == 0 || (mark != 0 && !ssqLater need mark)

/-- Whether a command that flushes every stream first waits (POWER MODE, UNLOAD, SNAPSHOT, DIAGNOSTIC). -/
def Dev.flushingAll (d : Dev) : Bool := d.flushAsked || d.running.any fun c => [0x08, 0x19, 0x28, 0x38].contains c.opcode && c.ssq != 0

/-- The commands of a stream that wait on D, in SSEQ order. -/
def Dev.onWatermark (d : Dev) (s : Nat) : List Cmd := d.running.filter fun c => c.stream == s && c.needs.isSome

/-- An ORDER record that carries D, when D has passed what a waiting command needs (R503); none
in FROZEN (R510). -/
def orderRecord (s : Nat) (d : Dev) : Dev :=
  let t := d.stream s
  let due := (d.onWatermark s).any (fun c => reached (c.needs.getD 0) t.mark && !reached (c.needs.getD 0) t.sent)
    || (d.flushingAll && t.writes.isEmpty && t.mark != t.sent)
  if due && t.mark != t.sent && !d.is .RJ_STAT_FAILED && d.mode != 7 then
    (d.fwSubmit false 0x08 0 (leBytes 1 s ++ leBytes 4 t.mark)).onStream s fun t => { t with sent := t.mark }
  else d

/-- The waiting commands that a durable ORDER record covers end, in SSEQ order (R503). A GROUP WRITE ends with what its
decision gave. -/
def releaseWaiting (s : Nat) (d : Dev) : Dev :=
  let t := d.stream s
  d.each (d.onWatermark s) fun d c =>
    if !reached (c.needs.getD 0) t.ordered then d
    else if c.opcode = 0x22 then d.endCmd c.id c.cls c.detail c.r0 c.r1
    else d.endCmd c.id 0 0 (if c.opcode = 0x11 then c.ssq else t.mark)

/-- WATERMARK_ADVANCE of a stream (R502, R503). -/
def watermarkAdvance (s : Nat) (d : Dev) : Dev :=
  let d := settleCopies d
  let d := advanceMark (d.stream s).writes.length s d
  dropVersions (releaseWaiting s (orderRecord s d))

/-- Whether every stream is flushed (R484): nothing owed on a healthy stream, and its ORDER record durable. -/
def Dev.allFlushed (d : Dev) : Bool :=
  (List.range 16).all fun s =>
    let t := d.stream s
    t.broken.isSome || (t.writes.isEmpty && (t.mark == t.ordered || d.is .RJ_STAT_FAILED))

/-! BROKEN streams (R513 to R516). -/

/-- Why a write cannot be made durable, as the DETAIL of Table 16-3. -/
def Dev.writeLost (d : Dev) (s : Nat) (w : WriteRec) : Option Nat :=
  if !w.intent then none
  else if d.is .RJ_STAT_FAILED then some 2
  else if w.group.isSome && w.dead then some 3
  else if (d.fw.spnWithdrawn || d.fw.disc.lost)
      && (d.versionsOf s w.ssq).any (fun v => v.stage != .committing && v.stage != .committed) then some 1
  else if (d.versionsOf s w.ssq).any fun v => v.stage = .failed then some 1
  else none

/-- The earliest write of a stream that cannot be made durable, with its DETAIL. -/
def Dev.firstLost (d : Dev) (s : Nat) : Option (Nat × Nat) :=
  ((d.stream s).writes.filterMap fun w => (d.writeLost s w).map fun c => (w.ssq, c)).head?

/-- Writes above F are recorded no more (R514): their versions leave their plans. -/
def stopAbove (s f : Nat) (d : Dev) : Dev :=
  let mine := d.fw.versions.filter fun v => v.stream == s && ssqLater v.ssq f && v.copyOf.isNone
    && (v.stage == .admitted || v.stage == .encoding || v.stage == .planned)
  d.each (mine.map (·.order)) fun d o =>
    let d := d.each (List.range 4) fun d p => d.onOpuFw p fun g => { g with
      plans := g.plans.map fun q => { q with cells := q.cells.filter fun c => c.2.2 != o } }
    d.onVersion o fun v => { v with stage := .failed, psa := none }

/-- A stream becomes BROKEN at F with a DETAIL, or its F moves down (R514, R515): the BROKEN record, recording above F
stopped, and the commands that wait on D ended. -/
def breakAt (s f detail : Nat) (d : Dev) : Dev :=
  let t := d.stream s
  if t.broken.isSome && !ssqLater t.first f then d
  else
    let d := d.onStream s fun t => { t with broken := some detail, first := f }
    let d := d.cond (!d.is .RJ_STAT_FAILED) fun d => d.fwSubmit false 0x09 0 (leBytes 1 s ++ leBytes 4 f)
    let d := stopAbove s f d
    d.each (d.onWatermark s) fun d c => d.endCmd c.id 5 detail

/-- A write whose sheets failed before its INTENT record was durable (R498): it ends with CLASS 4 and takes no effect. -/
def failEarly (s : Nat) (d : Dev) : Dev :=
  let bad := (d.stream s).writes.filter fun w =>
    !w.intent && (d.is .RJ_STAT_FAILED || (d.versionsOf s w.ssq).any fun v => v.stage = .failed)
  d.each bad fun d w => writeWithdraw s w.ssq (d.endCmd w.cmd 4 (if d.takers.isEmpty then 8 else 6))

/-- STREAM_BREAK: a stream's write that cannot be made durable makes the stream BROKEN (R513, R514). -/
def streamBreak (s : Nat) (d : Dev) : Dev :=
  let d := failEarly s d
  match d.firstLost s with
  | some (f, c) => breakAt s f c d
  | none => d

/-- Whether the writes below F of a target are settled; on a healthy stream, whether nothing is owed (R517 step 1). -/
def Dev.settled (d : Dev) (s : Nat) : Bool :=
  let t := d.stream s
  if d.is .RJ_STAT_FAILED then true
  else if t.broken.isSome then t.writes.all fun w => w.ssq == t.first || ssqLater w.ssq t.first
  else t.writes.isEmpty

/-- Leaving BROKEN, steps 2 to 4 of R517: the number of writes abandoned, and the unit after them. -/
def resetStream (s : Nat) (d : Dev) : Nat × Dev :=
  let t := d.stream s
  let ws := t.writes
  let d := d.each ws fun d w => d.each (d.versionsOf s w.ssq) fun d v => withdrawVersion v.order d
  let d := d.cond (!d.is .RJ_STAT_FAILED) fun d => d.fwSubmit false 0x08 0 (leBytes 1 s ++ leBytes 4 0)
  (ws.length, dropVersions (d.onStream s fun t => { t with
    ssq := 1, mark := 0, ordered := 0, sent := 0, broken := none, first := 0, writes := [] }))

/-! Replay (R422, R506, R511, R567). -/

/-- An INTENT found in the journal, with the sheets committed for it. -/
structure Intent where
  order : Nat := 0
  stream : Nat := 0
  ssq : Nat := 0
  lsn : Nat := 0
  count : Nat := 0
  got : List (Nat × Nat) := []

/-- What replay has found so far: INTENTs met; live ones in SEQ order; commits to apply, each with its place in version
order (0 where its INTENT is no longer in the ring); void commits; the last
durable SSEQ of each stream; the slots that RELOCATE records name, new and failed; F + 1 of each stream whose newest BROKEN record
follows its reset marker. -/
structure Replay where
  met : Nat := 0
  ints : List Intent := []
  apply : List (Nat × Nat × Nat) := []
  voids : List Nat := []
  marks : Sparse Nat := []
  moves : List (Nat × Nat) := []
  broke : Sparse Nat := []

/-- Whether every sheet of an INTENT is committed. -/
def Intent.full (i : Intent) : Bool := i.count ≤ i.got.length

/-- An INTENT takes its place: SEQ order, but in SSEQ order among those of a host stream, where one that has been carried forward
comes after newer ones (R423, R506 step 2). -/
def insertIntent (i : Intent) : List Intent → List Intent
  | [] => [i]
  | x :: rest =>
    if x.stream == i.stream && x.stream < 128 && ssqLater x.ssq i.ssq then { i with order := x.order } :: x :: rest
    else x :: insertIntent i rest

/-- The slot that the relocations of a sheet began from. -/
def Replay.root (r : Replay) : Nat → Nat → Nat
  | 0, psa => psa
  | n + 1, psa => match r.moves.find? fun e => e.1 == psa with
    | some e => r.root n e.2
    | none => psa

/-- The COMMIT of a copy, a refresh or a neighbour re-recording (R507): its relocations began from the slot that it names as the
previous one. It takes that slot's place, and is void where another version has replaced it. -/
def Replay.copy (r : Replay) (lsn psa old : Nat) : Replay :=
  if r.ints.any (fun i => i.got.contains (lsn, old)) || r.apply.any (fun e => e.2 == (lsn, old)) then
    { r with
      ints := r.ints.map fun i => { i with got := i.got.map fun g => if g == (lsn, old) then (lsn, psa) else g }
      apply := r.apply.map fun e => if e.2 == (lsn, old) then (e.1, lsn, psa) else e }
  else if r.apply.any fun e => e.2.1 == lsn then { r with voids := r.voids ++ [psa] }
  else { r with apply := r.apply ++ [(0, lsn, psa)] }

/-- A COMMIT put to the earliest INTENT that names its LSN and has none for it yet; applied at once where no INTENT of the
ring names it (R506 step 2). -/
def Replay.commit (r : Replay) (lsn psa prev : Nat) : Replay :=
  let takes := fun (i : Intent) => i.lsn ≤ lsn && lsn < i.lsn + i.count
  if r.ints.any (fun i => i.got.contains (lsn, psa)) || r.apply.any (fun e => e.2 == (lsn, psa)) then r
  else if psa != prev && r.root r.moves.length psa == prev then r.copy lsn psa prev
  else if !r.ints.any takes then { r with apply := r.apply ++ [(0, lsn, psa)] }
  else
    match r.ints.findIdx? fun i => takes i && !i.got.any fun g => g.1 == lsn with
    | some k => { r with ints := r.ints.mapIdx fun n i => if n = k then { i with got := i.got ++ [(lsn, psa)] } else i }
    | none => r

/-- The sheets of an INTENT to apply. -/
def Intent.sheets (i : Intent) : List (Nat × Nat × Nat) := i.got.map fun g => (i.order, g.1, g.2)

/-- A stream walked in SSEQ order (R506 steps 2 and 3): durable commands, then the rest. -/
def walk (l : List Intent) : List Intent × List Intent := (l.takeWhile Intent.full, l.dropWhile Intent.full)

/-- A reset marker of a stream: what was durable stays, the commits of the rest are void. -/
def Replay.marker (r : Replay) (s : Nat) : Replay :=
  let mine := walk (r.ints.filter fun i => i.stream == s)
  { r with
    ints := r.ints.filter fun i => i.stream != s
    apply := r.apply ++ mine.1.flatMap Intent.sheets
    voids := r.voids ++ mine.2.flatMap fun i => i.got.map (·.2)
    marks := sparseSet 0 r.marks s 0
    broke := sparseSet 0 r.broke s 0 }

/-- One record of the main ring, in SEQ order. -/
def Replay.take (r : Replay) (b : Bytes) : Replay :=
  let p := recordPayload b
  let s := le p 0 1
  match recordType b with
  | 0x01 =>
    if r.ints.any fun i => i.stream == s && i.ssq == le p 1 4 && (s < 128 || i.lsn == le p 5 4) then r
    else
      let i : Intent := { order := r.met + 1, stream := s, ssq := le p 1 4, lsn := le p 5 4, count := le p 9 4 }
      { r with met := r.met + 1, ints := insertIntent i r.ints }
  | 0x02 => r.commit (le p 0 4) (le p 4 5) (le p 9 5)
  | 0x03 => { r with moves := (le p 9 5, le p 4 5) :: r.moves }
  | 0x09 => { r with broke := sparseSet 0 r.broke s (le p 1 4 + 1) }
  | 0x08 =>
    if le p 1 4 = 0 then r.marker s
    else if s < 16 then { r with marks := sparseSet 0 r.marks s (le p 1 4) }
    else
      let hit := r.ints.filter fun i => i.stream == s && i.ssq == le p 1 4
      { r with ints := r.ints.filter (fun i => !(i.stream == s && i.ssq == le p 1 4)), apply := r.apply ++ hit.flatMap Intent.sheets }
  | _ => r

/-- The records of the main ring in SEQ order. -/
def Dev.bySeq (d : Dev) : List Bytes := (d.mainByAge.map (·.2)).mergeSort fun a b => !seqLater (recordSeq a) (recordSeq b)

/-- Whether a COMMIT has been carried forward: a later record of the list repeats it with FLAGS[0] (R505). -/
def carriedOn (l : List Bytes) (b : Bytes) : Bool :=
  recordType b == 0x02 && l.any fun x => recordType x == 0x02 && recordFlags x % 2 == 1 && recordPayload x == recordPayload b
    && seqLater (recordSeq x) (recordSeq b)

/-- Replay of a list of records (R506); a COMMIT that has been carried forward counts where it now stands: the host streams walked at the end; group commands that are not released stay
pending (R567). -/
def replay (l : List Bytes) : Replay :=
  let r := (l.filter fun b => !carriedOn l b).foldl Replay.take {}
  (List.range 16).foldl (fun r s =>
    let mine := walk (r.ints.filter fun i => i.stream == s)
    { r with
      ints := r.ints.filter fun i => !(i.stream == s && mine.1.any fun j => j.ssq == i.ssq)
      apply := r.apply ++ mine.1.flatMap Intent.sheets
      voids := r.voids ++ mine.2.flatMap fun i => i.got.map (·.2)
      marks := match mine.1.getLast? with
        | some i => sparseSet 0 r.marks s i.ssq
        | none => r.marks }) r

/-- The writes of a stream's history that are not durable, in SSEQ order: none of them can be made durable any more. -/
def Replay.owed (r : Replay) (s : Nat) : List WriteRec :=
  (r.ints.filter fun i => i.stream == s).map fun i =>
    { ssq := i.ssq, lsn := i.lsn, count := i.count, intent := true, dead := true }

/-- STREAM_EXAMINE at a boot that follows a unit reset (R511, R512): every stream BROKEN or given a reset marker; one
that a BROKEN record shows stays BROKEN (R516). -/
def streamExamine (d : Dev) : Dev :=
  if d.is .RJ_STAT_FAILED then
    d.each (List.range 16) fun d s => d.onStream s fun _ => { broken := some 2 }
  else
    let r := replay d.bySeq
    d.each (List.range 16) fun d s =>
      match r.owed s with
      | w :: rest =>
        let d := d.onStream s fun _ => { broken := some 4, first := w.ssq, mark := sparseGet 0 r.marks s, writes := w :: rest }
        d.fwSubmit false 0x09 0 (leBytes 1 s ++ leBytes 4 w.ssq)
      | [] => match sparseGet 0 r.broke s with
        | 0 => (d.onStream s fun _ => {}).fwSubmit false 0x08 0 (leBytes 1 s ++ leBytes 4 0)
        | f + 1 => d.onStream s fun _ => { broken := some 4, first := f, mark := sparseGet 0 r.marks s }

/-! The effects of the commands. -/

/-- WATERMARK_ADVANCE (R503). -/
def execWatermarkAdvance (stream : Fin 16) (s : State) : Host.Outcome State Fault Refusal :=
  s.onDev (watermarkAdvance stream)

/-- STREAM_BREAK (R514). -/
def execStreamBreak (stream : Fin 16) (s : State) : Host.Outcome State Fault Refusal := s.onDev (streamBreak stream)

end Sys2Proof.Machine
end

