-- ==== Sys2Proof/Machine/GroupCore.lean ====
section
/-!
DEFINITION. Parity groups (18_parity_and_fixity.md R553 to R562): layout, the code, and the groups that a unit holds.
-/

namespace Sys2Proof.Machine

/-- The die serial number (Table 21-1). -/
def Dev.serial (d : Dev) : Nat := bitsOf d.shadow 0 64

/-- This unit's chain address. -/
def Dev.addr (d : Dev) : Nat := d.fg .QL_ID_ADDR

/-- This unit's role: 0 member, 1 head A, 2 head B. -/
def Dev.role (d : Dev) : Nat := d.fg .QL_ID_ROLE

/-- The role epoch (R536). -/
def Dev.epoch (d : Dev) : Nat := d.fg .QL_EPOCH

/-- The unit with `f` applied to its groups and engines. -/
def Dev.onComp (d : Dev) (f : Compute → Compute) : Dev := { d with comp := f d.comp }

/-- The group of an identifier, if this unit holds it. -/
def Dev.group (d : Dev) (id : Nat) : Option Group := d.comp.groups.find? fun g => g.id == id

/-- The unit with `f` applied to a group. -/
def Dev.onGroup (d : Dev) (id : Nat) (f : Group → Group) : Dev :=
  d.onComp fun c => { c with groups := c.groups.map fun g => if g.id == id then f g else g }

/-- Whether this unit is a group's keeper. -/
def Dev.keeps (d : Dev) (g : Group) : Bool := g.keeper == d.serial

/-! Layout (R558). -/

/-- M, the members. -/
def Group.size (g : Group) : Nat := g.members.length

/-- w, the sheets of a stripe. -/
def Group.width (g : Group) : Nat := g.k + g.m

/-- U: the integers from 1 to M − 1 that are coprime to M, ascending. -/
def coprimes (m : Nat) : List Nat := (List.range m).filter fun i => 1 ≤ i && Nat.gcd i m == 1

/-- The member that holds slot r of stripe s. -/
def Group.memberAt (g : Group) (s r : Nat) : Nat :=
  let q := s / g.size
  let u := coprimes g.size
  let c := u.getD ((g.seed + q) % u.length) 1
  (s % g.size + (g.seed + 3 * q) % g.size + r * c) % g.size

/-- The LSN of slot r of stripe s on its member's disc. -/
def Group.lsnAt (g : Group) (s r : Nat) : Nat :=
  ((g.members[g.memberAt s r]?).map (·.base)).getD 0 + s / g.size * g.width + r

/-- The stripe and the slot of a data sheet. -/
def Group.place (g : Group) (glsn : Nat) : Nat × Nat := (glsn / g.k, glsn % g.k)

/-- The stripes of the group: Q × M. -/
def Group.stripes (g : Group) : Nat := g.q * g.size

/-- The stripes that a run of data sheets touches. -/
def Group.touched (g : Group) (glsn count : Nat) : List Nat :=
  let a := glsn / g.k
  (List.range ((glsn + count - 1) / g.k + 1 - a)).map (a + ·)

/-- The members of a stripe, by slot. -/
def Group.stripeMembers (g : Group) (s : Nat) : List Nat := (List.range g.width).map (g.memberAt s)

/-- The stripe and slot that an LSN of member j holds, if it lies in the member's region. -/
def Group.stripeOf (g : Group) (j lsn : Nat) : Option (Nat × Nat) :=
  let base := ((g.members[j]?).map (·.base)).getD 0
  if lsn < base || base + g.q * g.width ≤ lsn then none
  else
    let q := (lsn - base) / g.width
    let r := (lsn - base) % g.width
    ((List.range g.size).map (q * g.size + ·)).findSome? fun s => if g.memberAt s r = j then some (s, r) else none

/-- A member's state, 2 (FAILED) where there is none. -/
def Group.mstate (g : Group) (j : Nat) : Nat := ((g.members[j]?).map (·.state)).getD 2

/-- Members of a stripe that are FAILED. -/
def Group.failedIn (g : Group) (s : Nat) : Nat := ((g.stripeMembers s).filter fun j => g.mstate j == 2).length

/-! The code (R559, R560). -/

/-- a(t, i) = 1 ÷ (t XOR (4 + i)). -/
def cauchy (t i : Nat) : Nat := gfInv (t ^^^ (4 + i))

/-- The generator row of a slot: the unit row of a data slot, the coefficients of a parity slot. -/
def genRow (k r : Nat) : List Nat :=
  (List.range k).map fun i => if r < k then (if i = r then 1 else 0) else cauchy (r - k) i

/-- A row less a multiple of another, in GF(2^8). -/
def rowSub (a : List Nat) (f : Nat) (b : List Nat) : List Nat := List.zipWith (fun x y => x ^^^ gfMul f y) a b

/-- Gauss elimination of column `c` onwards on the rows that are left; the rows done come first, in order. -/
def gfEliminate : Nat → Nat → List (List Nat) → List (List Nat) → List (List Nat)
  | 0, _, done, _ => done
  | n + 1, c, done, rest =>
    match rest.findIdx? fun r => r.getD c 0 != 0 with
    | none => done
    | some i =>
      let p := (rest.getD i []).map (gfMul (gfInv ((rest.getD i []).getD c 0)))
      let clear := fun (r : List Nat) => rowSub r (r.getD c 0) p
      gfEliminate n (c + 1) (done.map clear ++ [p]) ((rest.eraseIdx i).map clear)

/-- The coefficients by which the sheets of the available slots are multiplied to give the sheet of a slot (R560). -/
def rebuildCoefs (k : Nat) (avail : List Nat) (slot : Nat) : List Nat :=
  let rows := avail.map (genRow k)
  let target := genRow k slot
  let eqs := (List.range k).map fun i => rows.map (·.getD i 0) ++ [target.getD i 0]
  (gfEliminate k 0 [] eqs).map (·.getD k 0)

/-- A sheet multiplied by a coefficient. -/
def sheetTimes (c : Nat) (b : Bytes) : Bytes := b.map fun x => BitVec.ofNat 8 (gfMul c x.toNat)

/-- Two sheets added. -/
def sheetAdd (a b : Bytes) : Bytes := List.zipWith (· ^^^ ·) a b

/-- A parity sheet of k data sheets (R559). -/
def parityOfSheets (t n : Nat) (data : List Bytes) : Bytes :=
  (data.zipIdx).foldl (fun acc e => sheetAdd acc (sheetTimes (cauchy t e.2) e.1)) (List.replicate n 0#8)

/-! A group write at its keeper (R566, R568). -/

/-- A GROUP WRITE accepted at its keeper: it takes the next group sequence, and the exclusive locks of its stripes behind
those already held or asked for. -/
def gwAccept (gid cmd glsn count : Nat) (d : Dev) : Dev :=
  match d.group gid with
  | none => d
  | some g =>
    let st := g.touched glsn count
    let d := d.onGroup gid fun g => { g with
      seq := (g.seq + 1) % 2 ^ 32, locks := g.locks ++ st.map fun s => (s, true, g.seq, none) }
    d.onComp fun c => { c with writes := c.writes ++ [{ group := gid, n := g.seq, cmd := cmd, stripes := st }] }

/-- Whether a lock's owner holds it: no conflicting lock of the stripe stands before it. -/
def lockGranted (l : List (Nat × Bool × Nat × Option (Nat × Nat))) (stripe owner : Nat) : Bool :=
  let before := l.takeWhile fun e => !(e.1 == stripe && e.2.2.1 == owner)
  let own := (l.find? fun e => e.1 == stripe && e.2.2.1 == owner).elim false (·.2.1)
  !before.any fun e => e.1 == stripe && (e.2.1 || own)

/-! Generations and tables (R562). -/

/-- Whether generation a is later than b. -/
def genLater (a b : Nat) : Bool := ssqLater a b

/-- The generation after one, 0 skipped. -/
def genNext (n : Nat) : Nat := let x := (n + 1) % 2 ^ 32; if x = 0 then 1 else x

/-- The GROUP_GEN record of a group (Table 13-3): identifier, generation, member states, 2 bits each. -/
def groupGen (g : Group) (d : Dev) : Dev :=
  let states := g.members.foldr (fun m n => 4 * n + m.state % 4) 0
  d.fwSubmit false 0x0A 0 (leBytes 4 g.id ++ leBytes 4 g.gen ++ leBytes 8 states)

/-- The keeper changes a group's table: a new generation and its GROUP_GEN record (R562). -/
def tableChange (id : Nat) (f : Group → Group) (d : Dev) : Dev :=
  let d := d.onGroup id fun g => { f g with gen := genNext g.gen }
  match d.group id with
  | some g => groupGen g d
  | none => d

/-- The lowest local index that no group uses (R566). -/
def Dev.freeIndex (d : Dev) : Nat :=
  ((List.range 80).find? fun i => !d.comp.groups.any fun g => g.index == i).getD 0

/-- A group's stream on this unit (R566). -/
def Group.stream (g : Group) : Nat := 0x80 + g.index

/-- The member of a group whose disc this unit has loaded, if any. -/
def Dev.myMember (d : Dev) (g : Group) : Option Nat :=
  if !d.fw.disc.loaded then none
  else g.members.findIdx? fun m => m.maker == d.fw.disc.maker && m.disc == d.fw.disc.serial && m.unit == d.serial

end Sys2Proof.Machine
end

