-- ==== Sys2Proof/Machine/Judge.lean ====
section
/-!
DEFINITION. How a command is judged and accepted (15_commands.md R467 to R477, Table 15-1): form, resources and role,
epoch, mode and resources; the stream sequence, the versions a WRITE creates, and what a reading command binds to.
-/

namespace Sys2Proof.Machine

/-! Host memory (R440, R456, R460). -/

/-- Bus Master Enable of this head's configuration space. -/
def Dev.busMaster (d : Dev) : Bool := (sparseGet 0#32 d.host.cfg 0x04).getLsbD 2

/-- Whether a command's home head is this unit. -/
def Dev.homeHere (d : Dev) (c : Cmd) : Bool := d.role != 0 && d.role == c.home + 1

/-- Whether the HP may issue a command's host requests. A member's traffic is issued by its home head, another unit. -/
def Dev.hostOn (d : Dev) (c : Cmd) : Bool := !d.homeHere c || d.busMaster

/-- DPTR of a command. -/
def Cmd.dptr (c : Cmd) : Nat := c.field 16 8

/-- DLEN of a command. -/
def Cmd.dlen (c : Cmd) : Nat := c.field 8 4

/-- A flag of byte 1 of the header (Table 14-5): 0 NS, 1 SGL, 2 NOTIFY. -/
def Cmd.flag (c : Cmd) (i : Nat) : Bool := (c.field 1 1).testBit i

/-- The entries of a scatter list until they make up DLEN: at most 1,024 in all. -/
def scatterList : Nat → List Host.Cell → Nat → Nat → Nat → Option (List (Nat × Nat))
  | 0, _, _, _, need => if need = 0 then some [] else none
  | n + 1, m, seg, a, need =>
    if need = 0 then some []
    else
      let e := memRead m a 16
      let addr := leNat (e.take 8)
      let len := leNat ((e.drop 8).take 4)
      let rest := leNat (e.drop 12)
      if a / 4096 != seg / 4096 || (a + 15) / 4096 != seg / 4096 || 1 < rest || addr % 4 != 0 then none
      else if rest = 1 then scatterList n m addr addr need
      else if len = 0 || len % 4 != 0 || need < len then none
      else (scatterList n m seg (a + 16) (need - len)).map ((addr, len) :: ·)

/-- Where a command's data lies in host memory (R440). -/
def Dev.hostParts (d : Dev) (c : Cmd) : Option (List (Nat × Nat)) :=
  if c.dlen = 0 then some []
  else if c.flag 1 then scatterList 1024 d.hostMem c.dptr c.dptr c.dlen
  else if c.dptr % 4 = 0 then some [(c.dptr, c.dlen)] else none

/-- A command's host data. -/
def Dev.hostData (d : Dev) (c : Cmd) : Bytes :=
  ((d.hostParts c).getD []).flatMap fun p => memRead d.hostMem p.1 p.2

/-- Bytes cut to the parts of a buffer in host memory, from byte `skip` of it on, as addresses and bytes. -/
def cutParts : List (Nat × Nat) → Nat → Bytes → List (Nat × Bytes)
  | [], _, _ => []
  | (a, n) :: rest, skip, b =>
    if b.isEmpty then []
    else if n ≤ skip then cutParts rest (skip - n) b
    else (a + skip, b.take (n - skip)) :: cutParts rest 0 (b.drop (n - skip))

/-- The attributes of a data request for host memory: No Snoop where the command has NS set and Enable No Snoop is set in Device
Control, Relaxed Ordering on a write while Enable Relaxed Ordering is set (R456, R457). -/
def Dev.dataAttr (d : Dev) (ns write : Bool) : Nat :=
  let ctl := sparseGet 0#32 d.host.cfg 0x78
  bit (ns && ctl.getLsbD 11) + 2 * bit (write && ctl.getLsbD 4)

/-- A request sent to host memory with its attributes: 0 for command entries, replies and notices (R456, R457). -/
def Dev.sends (d : Dev) (attr : Nat) : Dev := { d with host := { d.host with sent := attr } }

/-- Data delivered to a command's host buffer from a byte of it on; nothing once its home head has been reset (R461). -/
def hostWrite (c : Cmd) (skip : Nat) (b : Bytes) (d : Dev) : Dev :=
  if c.orphan then d
  else
    { d.cond (d.homeHere c && !b.isEmpty) fun d => d.sends (d.dataAttr (c.flag 0) true) with
      hostMem := (cutParts ((d.hostParts c).getD []) skip b).foldl (fun m e => memWrite m e.1 e.2) d.hostMem }

/-! Table 15-1. -/

/-- DPTR's field. -/
def fDptr : Nat × Nat × Nat := (16, 8, 2 ^ 64 - 1)

/-- A field of whole bytes. -/
def fBytes (off n : Nat) : Nat × Nat × Nat := (off, n, 2 ^ (8 * n) - 1)

/-- The fields of bytes 16 to 63 of an opcode, as offset, bytes and the bits that may be set; none for an unknown opcode
(Table 15-1). -/
def opFields : Nat → Option (List (Nat × Nat × Nat))
  | 0x01 => some [fDptr, fBytes 24 1]
  | 0x02 => some [fDptr, fBytes 24 1, fBytes 25 1, (26, 1, 1)]
  | 0x03 => some [fDptr, fBytes 24 1, fBytes 25 1]
  | 0x04 => some []
  | 0x05 => some [(16, 1, 15)]
  | 0x06 => some [fDptr, fBytes 24 1, fBytes 28 4]
  | 0x07 => some [(16, 1, 15)]
  | 0x08 => some [fBytes 16 1, (17, 1, 1)]
  | 0x10 => some [fDptr, fBytes 24 4, fBytes 28 4, (32, 1, 1)]
  | 0x11 => some [fDptr, fBytes 24 4, fBytes 28 4, (32, 1, 1)]
  | 0x12 => some [fBytes 24 4, fBytes 28 4, (32, 1, 1)]
  | 0x13 => some []
  | 0x14 => some [fBytes 16 2]
  | 0x15 => some [fDptr, fBytes 24 4, fBytes 28 4, (32, 1, 1)]
  | 0x18 => some [(16, 1, 7), (17, 1, 3), fBytes 18 1, fBytes 19 1]
  | 0x19 => some []
  | 0x1A => some [fBytes 16 5, fBytes 21 1]
  | 0x1B => some [(16, 4, 0x0FFFFFFF), (20, 1, 15)]
  | 0x20 => some [fDptr, fBytes 24 4]
  | 0x21 => some [fBytes 24 4, fBytes 28 4]
  | 0x22 => some [fDptr, fBytes 24 4, fBytes 28 4, fBytes 32 4, fBytes 36 4, (40, 1, 1)]
  | 0x23 => some [fDptr, fBytes 24 4, fBytes 28 4, fBytes 32 4, fBytes 36 4]
  | 0x24 => some [fDptr, fBytes 24 4, fBytes 28 4]
  | 0x25 => some [fBytes 24 4, fBytes 28 4, fBytes 32 1, fBytes 33 1]
  | 0x28 => some [fBytes 16 4, (20, 1, 1)]
  | 0x29 => some [fBytes 16 1]
  | 0x30 => some [fDptr, (24, 1, 1)]
  | 0x31 => some [fDptr, fBytes 24 1, fBytes 25 1, fBytes 26 1, fBytes 28 4]
  | 0x32 => some [fDptr, fBytes 24 4]
  | 0x33 => some [(24, 1, 1)]
  | 0x38 => some [fDptr, fBytes 24 1, fBytes 28 5, fBytes 36 4, fBytes 40 1, fBytes 41 1, fBytes 44 4]
  | _ => none

/-- The bits of byte `i` that may be set. -/
def fieldMask (fs : List (Nat × Nat × Nat)) (i : Nat) : Nat :=
  (fs.find? fun f => f.1 ≤ i && i < f.1 + f.2.1).elim 0 fun f => f.2.2 >>> (8 * (i - f.1)) % 256

/-- Whether every reserved bit of a command is zero (R10, Table 14-5). -/
def reservedOk (c : Cmd) (fs : List (Nat × Nat × Nat)) : Bool :=
  c.field 1 1 < 8 && c.field 4 1 < 16 && c.field 5 3 == 0 && c.field 12 4 == 0
    && (List.range 48).all fun k => c.field (16 + k) 1 &&& (255 - fieldMask fs (16 + k)) == 0

/-- Entry size of a log (Table 15-5). -/
def logEntry : Nat → Nat
  | 1 => 64 | 2 => 16 | 3 => 64 | 4 => 16 | 5 => 64 | 6 => 64 | _ => 0

/-- COUNT of a data command, LSN or GLSN first. -/
def Cmd.run (c : Cmd) : Nat × Nat :=
  if c.opcode = 0x22 || c.opcode = 0x23 then (c.field 32 4, c.field 36 4) else (c.field 24 4, c.field 28 4)

/-- Byte 24 of a command: PAGE, LOG, CNS or OP. -/
def Cmd.b24 (c : Cmd) : Nat := c.field 24 1

/-- A descriptor field of the loaded Quejo image (Table 6-11): offset in descriptor `i`. -/
def Dev.quejoField (d : Dev) (i off n : Nat) : Nat := getField d.fw.quejo (32 + 12 * i + off) n

/-- How many descriptors the loaded image uses. -/
def Dev.quejoSlots (d : Dev) : Nat := getField d.fw.quejo 10 1

/-- Whether DLEN is what Table 15-1 gives. -/
def dlenOk (d : Dev) (c : Cmd) : Bool :=
  let n := c.dlen
  match c.opcode with
  | 0x01 => n == 4096
  | 0x02 | 0x03 => pageLength c.b24 == 0 || n == pageLength c.b24
  | 0x06 => logEntry c.b24 == 0 || (32 ≤ n && (n - 32) % logEntry c.b24 == 0)
  | 0x10 | 0x11 | 0x22 | 0x23 => n == c.run.2 * 131072
  | 0x15 => n == c.run.2 * 48
  | 0x20 => 128 ≤ n && n ≤ 1088 && n % 32 == 0
  | 0x24 => match d.group (c.field 28 4) with
    | some g => n == 64 + 16 * g.size
    | none => true
  | 0x30 => 144 ≤ n && n ≤ 65664 && n % 16 == 0
  | 0x31 => if c.b24 = 5 then n == 16 * d.quejoField (c.field 26 1) 8 1 || d.quejoSlots ≤ c.field 26 1 else n == 0
  | 0x32 => 4096 ≤ n && n ≤ 2 ^ 20 && n % 4096 == 0
  | 0x38 => if c.b24 = 5 then n == 32 else if c.b24 = 6 then n == 65536 else n == 0
  | _ => n == 0

/-- Whether every field lies in its range. -/
def rangeOk (d : Dev) (c : Cmd) : Bool :=
  let count := 1 ≤ c.run.2 && c.run.2 ≤ 8192
  match c.opcode with
  | 0x01 => c.b24 ≤ 1
  | 0x06 => logEntry c.b24 != 0
  | 0x08 => 1 ≤ c.field 16 1 && c.field 16 1 ≤ 3
  | 0x10 | 0x11 | 0x12 | 0x15 | 0x22 | 0x23 => count
  | 0x18 => c.field 18 1 ≤ 3 && c.field 19 1 ≤ 2 && !(c.field 16 1 % 4 == 3)
  | 0x1A => c.field 21 1 ≤ 3 || c.field 21 1 == 0xFF
  | 0x29 => 1 ≤ c.field 16 1 && c.field 16 1 ≤ 3
  | 0x31 => 1 ≤ c.b24 && c.b24 ≤ 5 && (c.b24 != 5 || c.field 26 1 < d.quejoSlots)
  | 0x32 => c.field 24 4 + c.dlen ≤ 2 ^ 23
  | 0x38 => 1 ≤ c.b24 && c.b24 ≤ 6
  | _ => true

/-! The checks of R467, in order. Each gives the CLASS, DETAIL and RESULT0 of a command that fails it. -/

/-- What a check gives: nothing, or CLASS, DETAIL and RESULT0. -/
abbrev Verdict := Option (Nat × Nat × Nat)

/-- Commands that run in FROZEN (Table 15-1). -/
def runsFrozen (c : Cmd) : Bool := [0x01, 0x02, 0x04, 0x05, 0x06].contains c.opcode || (c.opcode == 0x38 && c.b24 == 5)

/-- Commands that run on a BROKEN stream (R468). -/
def runsBroken (c : Cmd) : Bool := [0x01, 0x02, 0x04, 0x05, 0x06, 0x07].contains c.opcode

/-- Checks 1 and 2: FROZEN, then BROKEN. -/
def checkState (d : Dev) (c : Cmd) : Verdict :=
  if d.mode = 7 && !runsFrozen c then some (10, d.fw.frozen, 0)
  else match (d.stream c.stream).broken with
    | some detail => if runsBroken c then none else some (5, detail, 0)
    | none => none

/-- Check 3: form. A command that needs host memory while Bus Master Enable is 0 ends with CLASS 2 (R460). -/
def checkForm (d : Dev) (c : Cmd) : Verdict :=
  match opFields c.opcode with
  | none => some (3, 1, 0)
  | some fs =>
    if !reservedOk c fs then some (3, 2, 0)
    else if !dlenOk d c then some (3, 3, 0)
    else if (c.dlen != 0 || c.raddr.isSome) && !d.hostOn c then some (2, 3, 0)
    else if (d.hostParts c).isNone then some (3, 4, 0)
    else if !rangeOk d c then some (3, 5, 0)
    else none

/-- Check 4: resources that are fused off, and head-only commands (R7). -/
def checkRole (d : Dev) (c : Cmd) : Verdict :=
  let off := fun o => !d.opuPresent o
  let gone : Bool := match c.opcode with
    | 0x02 | 0x03 => c.b24 == 3 && c.field 25 1 < 4 && off (c.field 25 1)
    | 0x1A => c.field 21 1 != 0xFF && off (c.field 21 1)
    | 0x1B => (List.range 4).any fun o => off o && (bitsOf (c.field 16 4) (7 * o) 7 != 0 || (c.field 20 1).testBit o)
    | 0x31 => c.b24 == 3 && (List.range 4).any fun o => off o && (bitsOf (c.field 28 4) (4 * o) 4 != 0
        || (c.field 28 4).testBit (16 + o) || (c.field 28 4).testBit (24 + o))
    | _ => false
  if gone then some (3, 8, 0)
  else if (c.opcode = 0x28 || c.opcode = 0x29) && d.role = 0 then some (3, 0x0A, 0)
  else none

/-- Whether a command carries an EPOCH. -/
def hasEpoch (op : Nat) : Bool := 0x20 ≤ op && op ≤ 0x25

/-- Check 5: the role epoch. -/
def checkEpoch (d : Dev) (c : Cmd) : Verdict :=
  if hasEpoch c.opcode && c.field 24 4 != 0 && c.field 24 4 != d.epoch then some (7, 1, d.epoch) else none

/-- C, the user sheets of every formatted side of the loaded disc (R61). -/
def Dev.capacity (d : Dev) : Nat :=
  ([d.fw.disc.a, d.fw.disc.b].map fun s => if s.formatted then 8 * userSheets s.strength else 0).sum

/-- Sides that a fused-on OPU serves. -/
def Dev.serves (d : Dev) (side : Nat) : Bool := d.opus.any fun o => opuSide o == side

/-- Streams with a command in progress. -/
def Dev.busyStreams (d : Dev) : List Nat := (List.range 16).filter fun s => d.fw.cmds.any fun c => c.stream == s

/-- Whether another stream has a command in progress. -/
def Dev.othersBusy (d : Dev) (c : Cmd) : Bool := d.busyStreams.any (· != c.stream)

/-- Whether a command must write a journal record, move the mechanism or power a laser (R470). -/
def needsQuiet (d : Dev) (c : Cmd) : Bool :=
  match c.opcode with
  | 0x07 | 0x08 | 0x11 | 0x12 | 0x18 | 0x19 | 0x1A | 0x1B | 0x20 | 0x21 | 0x22 | 0x23 | 0x25 => true
  | 0x10 | 0x15 => (List.range c.run.2).any fun i => ((d.bindOne c.stream (c.run.1 + i) d.fw.nextOrder).result).isNone
  | 0x13 => !(d.stream c.stream).writes.isEmpty
  | 0x28 => c.field 20 1 == 1
  | 0x38 => c.b24 == 1 || c.b24 == 4
  | _ => false

/-- The modes in which a DIAGNOSTIC operation runs (Table 15-4). -/
def diagModes : Nat → List Nat
  | 1 => [2, 3]
  | 2 | 3 | 4 => [6]
  | 5 => [6, 7]
  | _ => [1, 2, 3, 4, 5, 6]

/-- Whether the open slots cannot be loaded (R236). -/
def Dev.openLock (d : Dev) : Bool := bitsOf d.shadow 1536 3 != 0

/-- Whether an UNLOAD runs. -/
def Dev.unloading (d : Dev) : Bool := d.running.any fun c => c.opcode == 0x19 && c.ssq != 0

/-- Checks of a command that names sheets of the disc (R473, R476, R58). -/
def checkSheets (d : Dev) (c : Cmd) : Verdict :=
  let reads := c.opcode != 0x11
  let away := fun i => match d.mapped (c.run.1 + i) with
    | some p => !d.serves (psaSide p)
    | none => false
  if d.capacity < c.run.1 + c.run.2 then some (3, 6, 0)
  else if reads && (List.range c.run.2).any away then some (3, 8, 0)
  else if reads then none
  else if d.fw.disc.readOnly then some (3, 0x13, 0)
  else if d.fw.disc.mediaClass = 0xFF then some (4, 9, 0)
  else none

/-- The slot after one, in track order (R60). -/
def slotAfter (st : Strength) (psa : Nat) : Nat :=
  if psaSlot psa + 1 < slotsOf st (psaTrack psa) then mkPsa (psaSide psa) (psaLayer psa) (psaTrack psa) (psaSlot psa + 1) 0
  else mkPsa (psaSide psa) (psaLayer psa) (psaTrack psa + 1) 0 0

/-- A run of slots from one on. -/
def slotRun (st : Strength) : Nat → Nat → List Nat
  | 0, _ => []
  | n + 1, psa => psa :: slotRun st n (slotAfter st psa)

/-- Whether the disc's class is unknown, so that nothing may be recorded on it (R58). -/
def Dev.classUnknown (d : Dev) : Bool := d.fw.disc.loaded && d.fw.disc.mediaClass == 0xFF

/-- Checks of a surface test (R58, R60, R185, R488): a Class E disc that may be recorded, and a run of valid slots of a side that a
fused-on OPU serves. -/
def checkSurface (d : Dev) (c : Cmd) : Verdict :=
  let psa := c.field 28 5
  let st := (d.sideInfo (psaSide psa)).strength
  if !d.fw.disc.loaded then some (3, 0x12, 0)
  else if d.classUnknown then some (4, 9, 0)
  else if d.fw.disc.mediaClass != 1 then some (3, 9, 0)
  else if d.fw.disc.readOnly then some (3, 0x13, 0)
  else if !d.serves (psaSide psa) || !sheetPsaValid st psa then some (3, 7, 0)
  else if 2 ^ 21 < c.field 36 4 || !(slotRun st (c.field 36 4) psa).all (sheetPsaValid st) then some (3, 7, 0)
  else none

/-- The group of a group command. -/
def Cmd.groupId (c : Cmd) : Nat := c.field 28 4

/-- Checks of a group command (R564, R573, and "Groups, snapshots and the chain"). -/
def checkGroup (d : Dev) (c : Cmd) : Verdict :=
  if c.opcode = 0x20 then none
  else match d.group c.groupId with
    | none => some (3, 0x10, 0)
    | some g =>
      let keeperOnly := c.opcode == 0x21 || c.opcode == 0x22 || c.opcode == 0x25
      let touched := g.touched c.run.1 c.run.2
      if keeperOnly && !d.keeps g then some (3, 9, 0)
      else if (c.opcode = 0x22 || c.opcode = 0x23) && g.stripes * g.k < c.run.1 + c.run.2 then some (3, 6, 0)
      else if c.opcode = 0x22 && touched.any (fun s => (g.stripeMembers s).any fun j => g.mstate j == 1) then some (2, 5, 0)
      else if c.opcode = 0x22 && touched.any (fun s => g.fmax < g.failedIn s) then some (3, 9, 0)
      else if c.opcode = 0x25 && (g.size ≤ c.field 32 1 || g.mstate (c.field 32 1) != 2) then some (3, 5, 0)
      else none

/-- Check 6: mode and resources (R469, R470 and the commands' own rules). -/
def checkMode (d : Dev) (c : Cmd) : Verdict :=
  let op := c.opcode
  let disc := needsDisc op && op != 0x18
  if disc && d.mode = 6 then some (3, 9, 0)
  else if disc && !d.fw.disc.loaded then some (3, 0x12, 0)
  else if d.mode = 6 && [0x08, 0x18, 0x19].contains op then some (3, 9, 0)
  else if op = 0x38 && !(diagModes c.b24).contains d.mode then some (3, 9, 0)
  else if op = 0x31 && c.b24 = 3 && d.mode != 6 then some (3, 9, 0)
  else if op = 0x18 && d.fw.disc.loaded then some (3, 9, 0)
  else if op = 0x18 && (c.field 16 1).testBit 1 && ((List.range 2).any fun s => (c.field 17 1).testBit s && !d.serves s) then
    some (3, 7, 0)
  else if op = 0x03 && c.b24 = 6 && d.clState = clClamped then some (3, 9, 0)
  else if op = 0x30 && d.openLock then some (3, 0x0D, 0)
  else if op = 0x30 && d.csBusy then some (2, 5, 0)
  else if d.frost && needsQuiet d c then some (2, 6, 0)
  else if d.is .RJ_STAT_FAILED && mustRecord op then some (9, 1, 0)
  else if disc && d.fw.spnWithdrawn then some (6, 2, 0)
  else if d.unloading && (op = 0x11 || op = 0x22) then some (2, 5, 0)
  else if (op = 0x08 || (op = 0x33 && c.field 24 1 = 1)) && d.othersBusy c then some (2, 5, 0)
  else if [0x10, 0x11, 0x12, 0x15].contains op then checkSheets d c
  else if op = 0x1A && (!sheetPsaValid (d.sideInfo (psaSide (c.field 16 5))).strength (c.field 16 5)
      || !d.serves (psaSide (c.field 16 5))) then some (3, 7, 0)
  else if op = 0x1A && c.field 21 1 != 0xFF && opuSide (c.field 21 1) != psaSide (c.field 16 5) then some (3, 7, 0)
  else if op = 0x38 && c.b24 = 4 then checkSurface d c
  else if op = 0x1B && c.field 20 1 != 0 && d.classUnknown then some (4, 9, 0)
  else if (op = 0x22 || (op = 0x25 && (d.link.units[c.field 33 1]?.map (·.serial)) = some d.serial)) && d.classUnknown then
    some (4, 9, 0)
  else if 0x20 ≤ op && op ≤ 0x25 then checkGroup d c
  else none

/-- COMMAND_JUDGE: the first check a command fails, with what it ends with; none when it passes all (R467). -/
def judge (d : Dev) (c : Cmd) : Verdict :=
  (checkState d c).orElse fun _ => (checkForm d c).orElse fun _ => (checkRole d c).orElse fun _ =>
    (checkEpoch d c).orElse fun _ => checkMode d c

/-! Acceptance (R477, R494 to R497). -/

/-- The sheets of an accepted reading command, bound. -/
def bindAll (id : Nat) (c : Cmd) (d : Dev) : Dev :=
  let l := (List.range c.run.2).map fun i => d.bindOne c.stream (c.run.1 + i) d.fw.nextOrder
  markSeen l (d.onCmd id fun c => { c with binds := l })

/-- The versions of an accepted WRITE, their data not yet fetched (R495), and its write record. -/
def admitWrite (c : Cmd) (ssq : Nat) (d : Dev) : Dev :=
  let o := d.fw.nextOrder
  let n := c.run.2
  let fua := c.field 32 1 == 1
  let vs := (List.range n).map fun i =>
    ({ order := o + i, lsn := c.run.1 + i, stream := c.stream, ssq := ssq, stage := .fetching } : Version)
  let w : WriteRec := { ssq := ssq, cmd := c.id, lsn := c.run.1, count := n, fua := fua, order := o }
  let d := d.onFw fun f => { f with versions := f.versions ++ vs, nextOrder := o + n }
  let d := d.onStream c.stream fun t => { t with writes := t.writes ++ [w], lastWrite := d.qtime, idle := false }
  d.onCmd c.id fun c => { c with needs := if fua then some ssq else none }

/-- A command accepted: it takes the stream's next SSEQ, and takes effect (R477, R494). -/
def accept (id : Nat) (d : Dev) : Dev :=
  match d.cmd id with
  | none => d
  | some c =>
    let ssq := (d.stream c.stream).ssq
    let d := d.onStream c.stream fun t => { t with ssq := ssqNext ssq }
    let d := d.onCmd id fun c => { c with ssq := ssq, maxRung := d.pageVal 1 c.stream 12 1, accepted := d.qtime, limitMs := d.pageVal 1 c.stream 8 4 }
    match c.opcode with
    | 0x10 | 0x12 | 0x15 => bindAll id c d
    | 0x11 => admitWrite c ssq d
    | 0x22 =>
      let w : WriteRec := { ssq := ssq, cmd := id, lsn := c.run.1, count := c.run.2, fua := true, group := some c.groupId }
      let d := gwAccept c.groupId id c.run.1 c.run.2 d
      (d.onStream c.stream fun t => { t with writes := t.writes ++ [w] }).onCmd id fun c => { c with needs := some ssq }
    | 0x14 =>
      let earlier := d.fw.cmds.filter fun o => o.id != id && o.ssq != 0 && (c.field 16 2).testBit o.stream && o.stream != c.stream
      d.onCmd id fun c => { c with after := earlier.map (·.id), work := 1 }
    | 0x13 =>
      let last := ((d.stream c.stream).writes.getLast?).map (·.ssq)
      d.onCmd id fun c => { c with needs := last }
    | _ => d

/-- Whether acceptance is held: by a chain-wide operation (R547), by a firmware restart (R622), before boot ends, or until a DORMANT unit has woken (R592). -/
def Dev.acceptHeld (d : Dev) : Bool := d.is .QL_STAT_HOLD || !d.fw.up || d.mode == 1 || d.aon.restart

/-- Whether a mode change is in progress (R469): a LOAD, an UNLOAD, a POWER MODE or an entry to SERVICE runs. -/
def Dev.modeChanging (d : Dev) : Bool :=
  d.running.any fun c => c.ssq != 0 && ([0x08, 0x18, 0x19].contains c.opcode || (c.opcode == 0x38 && c.b24 ≤ 2))

/-- Whether a latched command waits: for acceptance, for a FENCE of its stream (R478), or, where it needs the disc or changes
the mode, for the end of a mode change (R469, R587). -/
def Dev.mustWait (d : Dev) (c : Cmd) : Bool :=
  d.acceptHeld || !c.after.isEmpty
    || (d.modeChanging && d.mode != 7 && (needsDisc c.opcode || [0x08, 0x19].contains c.opcode
      || (c.opcode == 0x38 && c.b24 ≤ 2)) && !(d.unloading && (c.opcode == 0x11 || c.opcode == 0x22)))

/-- Whether an earlier command of the same stream still waits: a stream accepts its commands in issue order (R494). -/
def Dev.blocked (d : Dev) (c : Cmd) : Bool := d.running.any fun o => o.ssq == 0 && o.id < c.id && o.stream == c.stream

/-- The latched commands judged in arrival order: each ends, waits or is accepted (R467, R547). A GROUP WRITE that passes
waits until its members have answered the wake probe (R564), which `work` 2 says. -/
def admitAll (d : Dev) : Dev :=
  d.each ((d.running.filter fun c => c.ssq = 0).map (·.id)) fun d id =>
    match d.cmd id with
    | none => d
    | some c =>
      if c.stage != .running || d.mustWait c || d.blocked c then d
      else match judge d c with
        | some v => d.endCmd id v.1 v.2.1 v.2.2
        | none => if c.opcode = 0x22 && c.work != 2 then d else accept id d

/-- A command latched (R444, R450): it gets its number, waits for the FENCEs of its stream that run, and is judged. -/
def latch (c : Cmd) (d : Dev) : Dev :=
  let fences := (d.running.filter fun f => f.stream == c.stream && f.opcode == 0x14).map (·.id)
  let c := { c with id := d.fw.nextCmd, after := fences }
  admitAll (d.onFw fun w => { w with cmds := w.cmds ++ [c], nextCmd := w.nextCmd + 1 })

end Sys2Proof.Machine
end

