-- ==== Sys2Proof/Machine/LinkCore.lean ====
section
/-!
DEFINITION. Messages, frames, routes and sending on the Quire link (17_quire_link.md R525 to R531, R538, R539). A message
that is sent is packed into frames of its own, filled up with IDLE (notes/assumptions/43.md).
-/

namespace Sys2Proof.Machine

/-- The unit with `f` applied to the LINK island's data. -/
def Dev.onLink (d : Dev) (f : Link → Link) : Dev := { d with link := f d.link }

/-- The unit with `f` applied to the HOST island's data. -/
def Dev.onHost (d : Dev) (f : HostIf → HostIf) : Dev := { d with host := f d.host }

/-- A port: 0 QL_U, 1 QL_D. -/
def Dev.port (d : Dev) (p : Nat) : QPort := sparseGet {} d.link.ports p

/-- The unit with `f` applied to a port. -/
def Dev.onPort (d : Dev) (p : Nat) (f : QPort → QPort) : Dev :=
  d.onLink fun l => { l with ports := sparseSet {} l.ports p (f (d.port p)) }

/-- QL_PSTAT.STATE: 0 down, 1 training, 2 active, 3 asleep, 4 retraining. -/
def Dev.portState (d : Dev) (p : Nat) : Nat := d.fg .QL_PSTAT_STATE p

/-! Messages (R526). -/

/-- Payload flits of a message. -/
def QMsg.len (m : QMsg) : Nat := (m.payload.length + 15) / 16

/-- The header flit (Table 17-4). -/
def QMsg.header (m : QMsg) : Nat :=
  m.type % 2 ^ 8 + (m.dst % 2 ^ 6) <<< 8 + (bit m.bcast) <<< 14 + (bit m.up) <<< 15 + (m.src % 2 ^ 6) <<< 16
    + (m.cls % 4) <<< 22 + (m.len % 2 ^ 5) <<< 24 + (m.eseq % 2 ^ 16) <<< 32 + (m.tag % 2 ^ 16) <<< 48
    + (m.epoch % 2 ^ 32) <<< 64 + (m.arg % 2 ^ 32) <<< 96

/-- A message's flits. -/
def QMsg.bytes (m : QMsg) : Bytes := leBytes 16 m.header ++ takeFill 0#8 (16 * m.len) m.payload

/-- A header flit read, with no payload yet, and its LEN. -/
def headerMsg (b : Bytes) : QMsg × Nat :=
  let h := leNat (b.take 16)
  ({ type := bitsOf h 0 8, dst := bitsOf h 8 6, bcast := h.testBit 14, up := h.testBit 15, src := bitsOf h 16 6,
     cls := bitsOf h 22 2, eseq := bitsOf h 32 16, tag := bitsOf h 48 16, epoch := bitsOf h 64 32,
     arg := bitsOf h 96 32 }, bitsOf h 24 5)

/-- The messages that lie whole in a run of flits, and the flits after them. -/
def takeMsgs : Nat → Bytes → List QMsg × Bytes
  | 0, b => ([], b)
  | n + 1, b =>
    if b.length < 16 then ([], b)
    else
      let h := headerMsg b
      if b.length < 16 * (1 + h.2) then ([], b)
      else
        let rest := takeMsgs n (b.drop (16 * (1 + h.2)))
        ({ h.1 with payload := (b.drop 16).take (16 * h.2) } :: rest.1, rest.2)

/-- Message types that the unit knows (Table 17-5). -/
def knownType (t : Nat) : Bool :=
  [0x01, 0x02, 0x03, 0x10, 0x11, 0x12, 0x13, 0x20, 0x21, 0x22].contains t || (0x30 ≤ t && t ≤ 0x39)

/-- Frames that a message takes. -/
def QMsg.frames (m : QMsg) : Nat := (m.len + 16) / 16

/-! Frames (R525). -/

/-- The trailer above its CRC (Table 17-3). -/
def trailerOf (fseq : Nat) (null : Bool) (p : QPort) : Nat :=
  let credit := (p.owed.zipIdx).foldl (fun n e => n + limitN 0 255 e.1 * 2 ^ (8 * e.2)) 0
  (fseq % 4096) <<< 32 + (p.rxSeq % 4096) <<< 44 + (bit p.rxAny) <<< 56 + (bit p.naking) <<< 57 + (bit null) <<< 58
    + credit <<< 64

/-- The 17 flits of a frame: 16 content flits and the trailer, whose CRC covers both. -/
def frameBytes (content : Bytes) (fseq : Nat) (null : Bool) (p : QPort) : Bytes :=
  let t := (leBytes 16 (trailerOf fseq null p)).drop 4
  let body := takeFill 0#8 256 content
  body ++ leBytes 4 (crc32c (body ++ t)) ++ t

/-! The lanes (R522). -/

/-- A lane's scrambler as it is loaded at the end of training. -/
def laneSeed (l : Nat) : Nat := (0x5A5A5A5A + l) &&& 0x7FFFFFFF

/-- One step of a lane's scrambler, x^31 + x^28 + 1. DESIGN CHOICE (notes/assumptions/144.md): the register shifts up, its new bit 0 is
bit 30 XOR bit 27, and its output is bit 30. -/
def laneStep (s : Nat) : Nat := s <<< 1 % 2 ^ 31 + bit (s.testBit 30 != s.testBit 27)

/-- The dwords of a flit that a lane carries, in order: dword l at ×4; at ×2 the lower active lane carries 0 and 1, the upper 2
and 3. -/
def laneDwords (narrow upper : Bool) (l : Nat) : List Nat :=
  if !narrow then [l]
  else if l / 2 != bit upper then []
  else if l % 2 = 0 then [0, 1] else [2, 3]

/-- The bits of a frame that a lane carries, before its scrambler, each dword's most significant bit first. -/
def laneBits (narrow upper : Bool) (l : Nat) (frame : Bytes) : List Bool :=
  (List.range 17).flatMap fun k => (laneDwords narrow upper l).flatMap fun w =>
    let x := leNat ((frame.drop (16 * k + 4 * w)).take 4)
    (List.range 32).map fun i => x.testBit (31 - i)

/-- Bits scrambled by a lane's register. -/
def scrambled : Nat → List Bool → List Bool
  | _, [] => []
  | s, b :: rest => (b != s.testBit 30) :: scrambled (laneStep s) rest

/-- Bits in pairs as levels (Table 17-1). -/
def pamLevels : List Bool → List Int
  | a :: b :: rest => (if a then (if b then 1 else 3) else if b then -1 else -3) :: pamLevels rest
  | _ => []

/-- The levels that a lane of a port sends for the latest frame (R522). -/
def Dev.laneLevels (d : Dev) (p l : Nat) : List Int :=
  let q := d.port p
  pamLevels (scrambled (iter laneStep q.steps (laneSeed l)) (laneBits (d.is .QL_PSTAT_NARROW p) q.upper l q.sent))

/-- The bits that a frame takes on each active lane. -/
def Dev.frameBits (d : Dev) (p : Nat) : Nat := if d.is .QL_PSTAT_NARROW p then 1088 else 544

/-- A frame sent: it takes the next FSEQ, stays in the retry buffer until it is acknowledged, and returns the credit that
is owed. -/
def sendFrame (p : Nat) (content : Bytes) (null : Bool) (d : Dev) : Dev :=
  let body := takeFill 0#8 256 content
  d.onPort p fun q =>
    { q with
      sent := frameBytes body q.txSeq null q
      steps := if q.sent.isEmpty then 0 else q.steps + d.frameBits p
      retry := q.retry ++ [(q.txSeq, null, body)]
      txSeq := (q.txSeq + 1) % 4096
      owed := q.owed.map fun n => n - limitN 0 255 n
      busy := d.qtime }

/-- A run of flits in frames. -/
def sendFlits : Nat → Nat → Bytes → Dev → Dev
  | 0, _, _, d => d
  | n + 1, p, b, d => sendFlits n p (b.drop 256) (sendFrame p b false d)

/-- Whether a waiting message may start now: room in the retry buffer, credit of its class for all of it, and, where it
is the unit's own and not of class 0, an injection credit (R527, R528, R538, R539). -/
def mayStart (q : QPort) (e : Bool × QMsg) : Bool :=
  q.retry.length + e.2.frames ≤ 128 && e.2.frames ≤ q.credit.getD e.2.cls 0
    && (e.2.cls == 0 || !e.1 || 0 < q.quota)

/-- The waiting message that the port serves next: of each class and kind the oldest, class 0 first, then forwarded ones
in arrival order, then the unit's own (R538). -/
def nextWaiting (q : QPort) : Option Nat :=
  let l := q.wait.zipIdx
  let oldest := l.filter fun e =>
    !(l.any fun f => f.2 < e.2 && f.1.2.cls == e.1.2.cls && (e.1.2.cls == 0 || f.1.1 == e.1.1))
  let able := oldest.filter fun e => mayStart q e.1
  ((able.find? fun e => e.1.2.cls == 0).orElse fun _ =>
    (able.find? fun e => !e.1.1).orElse fun _ => able.head?).map (·.2)

/-- The port sends what waits and may start. -/
def portSend : Nat → Nat → Dev → Dev
  | 0, _, d => d
  | n + 1, p, d =>
    let q := d.port p
    if d.portState p != 2 then d
    else match (nextWaiting q).bind fun i => (q.wait[i]?).map fun e => (i, e) with
      | none => d
      | some (i, own, m) =>
        let k := m.frames
        let spend := if own && m.cls != 0 then k else 0
        let d := d.onPort p fun q =>
          { q with
            wait := q.wait.eraseIdx i
            credit := q.credit.modify m.cls (· - k)
            quota := q.quota - spend }
        portSend n p (sendFlits k p m.bytes d)

/-- Whether the port still has own messages of classes 1 to 3. -/
def QPort.ownWaiting (q : QPort) : Bool := q.wait.any fun e => e.1 && e.2.cls != 0

/-- A message put behind those that wait at a port. A port that is asleep leaves electrical idle and retrains first
(R543). -/
def putWait (p : Nat) (own : Bool) (m : QMsg) (d : Dev) : Dev :=
  let d := d.onPort p fun q => { q with wait := q.wait ++ [(own, { m with up := p == 0 })] }
  d.cond (d.portState p == 3) fun d => d.fs .QL_PSTAT_STATE 4 p

/-- The token of a direction passed on: at once when its injection credit is spent or nothing of the unit's own waits
(R539). -/
def passToken (p : Nat) (d : Dev) : Dev :=
  let q := d.port p
  if !q.token || d.portState p != 2 || (q.ownWaiting && q.quota != 0) then d
  else
    let d := d.onPort p fun q => { q with token := false }
    putWait p true { type := 0x33, bcast := true, src := d.addr } d

/-- A port sends all it may, and passes the token when that is due. -/
def portFlush (p : Nat) (d : Dev) : Dev :=
  let d := passToken p (portSend (d.port p).wait.length p d)
  portSend (d.port p).wait.length p d

/-- Both ports send all they may. -/
def flushPorts (d : Dev) : Dev := portFlush 1 (portFlush 0 d)

/-! Routes (R529). -/

/-- A unit of the map by its chain address. -/
def Dev.unitAt (d : Dev) (a : Nat) : Option QUnit := d.link.units[a]?

/-- The chain address of a die serial. -/
def Dev.addrOf (d : Dev) (serial : Nat) : Option Nat := d.link.units.findIdx? fun u => u.serial == serial

/-- The links crossed from position `a` over `n` hops, downward or upward, in a ring of `size`. -/
def linksFrom (size a n : Nat) (down : Bool) : List Nat :=
  (List.range n).map fun i => if down then (a + i) % size else (a + size - 1 - i % size) % size

/-- The port by which a message leaves for a chain address: the shorter way over links that are up and not asleep, down
where both are equal; over an asleep link only where no other way is up; none where the address is not in the map or no
way is left. -/
def Dev.route (d : Dev) (dst : Nat) : Option Nat :=
  match d.unitAt d.addr, d.unitAt dst with
  | some me, some goal =>
    let size := d.link.units.length
    let down := (goal.pos + size - me.pos) % size
    let up := size - down
    let ways := [(1, linksFrom size me.pos down true), (0, linksFrom size me.pos up false)]
    let open_ := ways.filter fun w => !w.2.any d.link.down.contains && d.portState w.1 != 0
    let awake := open_.filter fun w => !w.2.any d.link.asleep.contains
    let usable := if awake.isEmpty then open_ else awake
    match usable with
    | [a, b] => if b.2.length < a.2.length then some b.1 else some a.1
    | [a] => some a.1
    | _ => none
  | _, _ => none

/-- The ESEQ destination key of a message: its address, 64 for a broadcast. -/
def QMsg.eseqKey (m : QMsg) (peer : Nat) : Nat := 4 * (if m.bcast then 64 + peer else peer) + m.cls

/-- The unit's own message with its source and its end-to-end sequence number (R531). -/
def stamp (m : QMsg) (d : Dev) : QMsg × Dev :=
  let k := if m.bcast then 4 * 64 + m.cls else 4 * m.dst + m.cls
  let n := sparseGet 0 d.link.eseqTx k
  ({ m with src := d.addr, eseq := n }, d.onLink fun l => { l with eseqTx := sparseSet 0 l.eseqTx k ((n + 1) % 2 ^ 16) })

/-- A message sent to a chain address: kept here where it is this unit's own, discarded with NOROUTE where there is no
way, and else sent by its route. -/
def sendMsg (m : QMsg) (d : Dev) : Dev :=
  if m.dst = d.addr then d.onLink fun l => { l with inbox := l.inbox ++ [(2, { m with src := d.addr })] }
  else match d.route m.dst with
    | none => d.fs .QL_STAT_NOROUTE 1
    | some p =>
      let (m, d) := stamp m d
      portFlush p (putWait p true m d)

/-- A broadcast of this unit sent out of a port, if the port is up. -/
def sendOn (p : Nat) (m : QMsg) (d : Dev) : Dev :=
  if d.portState p != 2 then d
  else
    let (m, d) := stamp { m with bcast := true } d
    portFlush p (putWait p true m d)

/-- A message passed on out of a port unchanged. -/
def forwardOn (p : Nat) (m : QMsg) (d : Dev) : Dev := portFlush p (putWait p false m d)

/-- The next request tag. -/
def nextTag (d : Dev) : Nat × Dev := (d.link.tag, d.onLink fun l => { l with tag := (l.tag + 1) % 2 ^ 16 })

/-- Whether this unit coordinates a count-off. -/
def Dev.counting (d : Dev) : Bool := d.link.op.any fun o => o.op == 1 && o.own

/-- Whether a message is for this unit to act on. An answer to the numbering is for the unit that numbers. -/
def Dev.forMe (d : Dev) (m : QMsg) : Bool :=
  m.bcast || (if m.type = 0x31 then d.counting else d.is .QL_STAT_ADDR_VALID && m.dst == d.addr)

/-- A frame of IDLE messages, which carries acknowledgement and credit. -/
def idleFrame (p : Nat) (d : Dev) : Dev :=
  d.cond (d.portState p == 2 && (d.port p).retry.length < 128) (sendFrame p [] false)

/-- The room that a received message took, returned to the neighbour. -/
def giveBack (p : Nat) (m : QMsg) (d : Dev) : Dev :=
  if 1 < p then d
  else idleFrame p (d.onPort p fun q => { q with owed := q.owed.modify m.cls (· + m.frames) })

/-- The oldest message of a type that is for this unit, with the port it came in by, taken from the inbox; the room it took
is returned to the neighbour. -/
def takeMsg (type : Nat) (d : Dev) : Option ((Nat × QMsg) × Dev) :=
  (d.link.inbox.findIdx? fun e => e.2.type == type && d.forMe e.2).bind fun i =>
    (d.link.inbox[i]?).map fun e =>
      (e, giveBack e.1 e.2 (d.onLink fun l => { l with inbox := l.inbox.eraseIdx i }))

/-- The other port. -/
def otherPort (p : Nat) : Nat := if p = 0 then 1 else 0

/-- This unit's position in ring order, 0 while it has no map. -/
def Dev.pos (d : Dev) : Nat := (d.unitAt d.addr).elim 0 (·.pos)

/-- The chain addresses of the heads: head A is address 0; head B, where there is one, is named by the map (R534). -/
def Dev.headB (d : Dev) : Option Nat :=
  (d.link.units.zipIdx.find? fun u => u.1.headB).map (·.2)

/-- The chain address of a head: 0 head A, 1 head B. -/
def Dev.headAddr (d : Dev) (home : Nat) : Option Nat :=
  if d.link.units.isEmpty then none else if home = 0 then some 0 else d.headB

/-- The link that a port ends: link p joins positions p and p + 1. -/
def Dev.portLink (d : Dev) (p : Nat) : Nat :=
  let n := d.link.units.length
  if n = 0 then 0 else if p = 1 then d.pos else (d.pos + n - 1) % n

/-- QL_STAT.TOPO set: a port changed state or a map was adopted. -/
def topoBit (d : Dev) : Dev := d.fs .QL_STAT_TOPO 1

/-- ATTN 3 at a head (R530, R535). -/
def headAttn (d : Dev) : Dev := d.cond (d.role != 0) fun d => d.attn 3

/-- The unit engaged in a chain-wide operation, or released from it (R546, R547). -/
def engage (op : Option ChainOp) (d : Dev) : Dev :=
  let code := op.elim 0 (·.op)
  ((d.onLink fun l => { l with op := op }).fs .QL_STAT_OP code).fs .QL_STAT_HOLD (bit (code != 0))

end Sys2Proof.Machine
end

