-- ==== Sys2Proof/Machine/HostPort.lean ====
section
/-!
DEFINITION. The host port (14_host_port.md): host memory through the home head, task register sets, the tag queue,
replies, notices, the windows, HOST resets and configuration space.
-/

namespace Sys2Proof.Machine

/-! Host memory through the home head (R454, R459). -/

/-- A member's requests for parts of host memory, sent to a command's home head (R454), whose twelfth byte says that the command has
NS set; with no such head, the command's
host traffic is discarded (R535). -/
def askHost (id home : Nat) (ns : Bool) (parts : List (Nat × Nat)) (d : Dev) : Dev :=
  match d.headAddr home with
  | none => d.onCmd id fun c => { c with orphan := true }
  | some h =>
    d.each parts fun d p =>
      let (t, d) := nextTag d
      let d := d.onLink fun l => { l with fetch := l.fetch ++ [(t, p.1, p.2, id)] }
      sendMsg { type := 0x10, dst := h, cls := 1, tag := t, payload := takeFill 0#8 16 (leBytes 8 p.1 ++ leBytes 4 p.2 ++ leBytes 1 (bit ns)) } d

/-- A host memory error ends a command with CLASS 6 (R459): a WRITE whose INTENT is not durable takes no effect. AER and
HP_HC_STAT record it at the home head. -/
def hostError (id : Nat) (d : Dev) : Dev :=
  match d.cmd id with
  | none => d
  | some c =>
    if c.stage != .running then d
    else
      let d := d.cond (d.homeHere c) fun d => (d.fs .HP_HC_STAT_DMA_ERR 1).bump .HP_HC_CNT_DMAERR
      let d := d.endCmd id 6 7
      let early := c.opcode == 0x11 && (d.stream c.stream).writes.any fun w => w.ssq == c.ssq && w.cmd == id && !w.intent
      d.cond early (writeWithdraw c.stream c.ssq)

/-- What a command does with its host data, once that data is here (R454, R455). A member asks its home head for the data
first. -/
def withData (id : Nat) (f : Cmd → Dev → Dev) (d : Dev) : Dev :=
  match d.cmd id with
  | none => d
  | some c =>
    if c.dlen = 0 then f c d
    else if c.orphan then hostError id d
    else if d.homeHere c then f c (d.sends (d.dataAttr (c.flag 0) false))
    else if !c.asked then askHost id c.home (c.flag 0) ((d.hostParts c).getD []) (d.onCmd id fun c => { c with asked := true })
    else if d.link.fetch.any fun e => e.2.2.2 == id then d
    else f c d

/-- Bytes of one address cut into runs of at most 240, the most one host write message carries. -/
def cutRuns : Nat → Nat → Bytes → List (Nat × Bytes)
  | 0, _, _ => []
  | n + 1, a, b => if b.isEmpty then [] else (a, b.take 240) :: cutRuns n (a + 240) (b.drop 240)

/-- Data delivered to a command's host buffer from byte `skip` on; a member's goes to its home head in host write
messages, whose ARG gives the byte count. -/
def deliver (c : Cmd) (skip : Nat) (b : Bytes) (d : Dev) : Dev :=
  let runs := (cutParts ((d.hostParts c).getD []) skip b).flatMap fun e => cutRuns (e.2.length / 240 + 1) e.1 e.2
  let d := hostWrite c skip b d
  match d.headAddr c.home with
  | some h =>
    if d.homeHere c || c.orphan then d
    else d.each runs fun d r => sendMsg { type := 0x12, dst := h, cls := 3, tag := c.id % 2 ^ 16, arg := r.2.length
                                          payload := leBytes 8 r.1 ++ leBytes 8 (bit (c.flag 0)) ++ r.2 } d
  | none => d

/-! Notices (R453, R460). -/

/-- MSI-X Enable and Function Mask of the configuration space. -/
def Dev.msixEnabled (d : Dev) : Bool := (sparseGet 0#32 d.host.cfg 0x50).getLsbD 31
/-- See `Dev.msixEnabled`. -/
def Dev.msixMasked (d : Dev) : Bool := (sparseGet 0#32 d.host.cfg 0x50).getLsbD 30

/-- One MSI-X message of a vector: its data dword written to its address. -/
def msixSend (v : Nat) (d : Dev) : Dev :=
  let a := (d.rd .HP_MSIX v).toNat + (d.rd .HP_MSIX v 1).toNat * 2 ^ 32
  { d.sends 0 with hostMem := memWrite d.hostMem a (leBytes 4 (d.rd .HP_MSIX v 2).toNat) }

/-- The notice of a reply on a vector (R453): sent, or its Pending Bit set while the vector or the function is masked;
nothing while MSI-X is not enabled or Bus Master Enable is 0 (R460). -/
def notice (v : Nat) (d : Dev) : Dev :=
  if !d.msixEnabled || !d.busMaster then d
  else if d.msixMasked || (d.rd .HP_MSIX v 3).getLsbD 0 then d.fs .HP_PBA_PEND (d.fg .HP_PBA_PEND ||| 2 ^ v)
  else msixSend v d

/-- One message of each pending vector that is no longer masked (R453). -/
def noticePending (d : Dev) : Dev :=
  if !d.msixEnabled || !d.busMaster || d.msixMasked then d
  else d.each (List.range 32) fun d v =>
    let due := (d.fg .HP_PBA_PEND).testBit v && !(d.rd .HP_MSIX v 3).getLsbD 0
    d.cond due fun d => msixSend v (d.fs .HP_PBA_PEND (d.fg .HP_PBA_PEND ^^^ 2 ^ v))

/-- MSIX_UNMASK: the host clears a vector's mask bit. -/
def msixUnmask (v : Nat) (d : Dev) : Dev :=
  noticePending (d.wr .HP_MSIX (BitVec.ofNat 32 (putBits (d.rd .HP_MSIX v 3).toNat 0 1 0)) v 3)

/-! Replies (R441 to R448, R515). -/

/-- CLASS and DETAIL that a command's reply carries: those of the cause while its stream is BROKEN, but for RESET STREAM and
CLASS 10 (R468, R515). -/
def Dev.replyClass (d : Dev) (c : Cmd) : Nat × Nat :=
  match (d.stream c.stream).broken with
  | some b => if c.opcode = 7 || c.cls = 10 then (c.cls, c.detail) else (5, b)
  | none => (c.cls, c.detail)

/-- The 32 bytes of a reply (Table 14-6). -/
def replyBytes (c : Cmd) (rseq : Nat) (d : Dev) : Bytes :=
  let k := d.replyClass c
  leBytes 2 (d.fg .HP_UNIT_ATTN_ATTN * 4096 + k.1 * 256 + k.2) ++ leBytes 2 rseq
    ++ leBytes 1 (d.fg .HP_UNIT_ATTN_ASEQ + 16 * bit c.queue) ++ leBytes 1 c.stream ++ leBytes 1 c.tag ++ leBytes 1 d.addr
    ++ leBytes 2 (c.field 2 2) ++ leBytes 1 c.opcode ++ leBytes 1 0 ++ leBytes 4 c.r0 ++ leBytes 8 c.r1 ++ leBytes 8 d.qtime

/-- A reply in host memory: bytes 4 to 31 first, then bytes 0 to 3 (R446). -/
def replyToHost (a : Nat) (b : Bytes) (d : Dev) : Dev :=
  { d.sends 0 with hostMem := memWrite (memWrite d.hostMem (a + 4) (b.drop 4)) a (b.take 4) }

/-- A reply's way to host memory, and its notice: through this head, or by its home head over the ring; discarded once that
head has been reset (R454, R460, R461). A host write message with no data gives the address of the reply that follows
it; the reply's ARG holds bit 0 post, bit 1 notice, bits 6:2 vector, bit 8 discarded. -/
def replyOut (c : Cmd) (a : Option Nat) (vector : Nat) (b : Bytes) (d : Dev) : Dev :=
  let note := c.flag 2
  if d.homeHere c then
    if c.orphan then d.cond a.isSome fun d => (d.bump .HP_HC_CNT_ABANDON).fs .HP_HC_STAT_ABANDON 1
    else if !d.busMaster then d
    else
      let d := match a with
        | some a => replyToHost a b d
        | none => d
      d.cond note (notice vector)
  else
    match d.headAddr c.home with
    | none => d
    | some h =>
      let t := if c.queue then 32 + c.tag else c.stream
      let d := match a with
        | some a => sendMsg { type := 0x12, dst := h, cls := 3, tag := t, payload := leBytes 8 a ++ leBytes 8 0 } d
        | none => d
      sendMsg { type := 0x13, dst := h, cls := 2, tag := t, payload := b
                arg := bit a.isSome + 2 * bit note + 4 * vector + 256 * bit c.orphan } d

/-- A command's reply has been posted: it leaves, the FENCEs that waited for it may end (R478), and what waited to be
accepted is judged. -/
def replied (id : Nat) (d : Dev) : Dev :=
  let d := d.onFw fun w => { w with cmds := (w.cmds.filter fun c => c.id != id).map fun c =>
                                      { c with after := c.after.filter (· != id) }
                                    ended := w.ended.filter (· != id) }
  let d := d.onLink fun l => { l with barrier := l.barrier.filter (· != id) }
  let d := d.each (d.running.filter fun c => c.opcode == 0x14 && c.work == 1 && c.after.isEmpty) fun d c => d.endCmd c.id 0 0
  admitAll (dropVersions d)

/-- The reply of a set's command: host memory, the reply registers, then HP_TS_STATE in one step, then the notice (R446).
The counter behind RSEQ is one more than that of the latest reply (R448). -/
def tsPost (s : Nat) (c : Cmd) (d : Dev) : Dev :=
  let rseq := (d.fg .HP_TS_STATE_RSEQ s + 1) % 2 ^ 16
  let b := replyBytes c rseq d
  let d := replyOut c c.raddr c.vector b d
  let d := d.each (List.range 8) fun d k => d.wr .HP_TS_REPLY (BitVec.ofNat 32 (leNat ((b.drop (4 * k)).take 4))) s k
  replied c.id (((d.fs .HP_TS_STATE_RSEQ rseq s).fs .HP_TS_STATE_VALID 1 s).fs .HP_TS_STATE_BUSY 0 s)

/-- Where a set's reply goes (R444): HP_TS_RADDR as latched. -/
def Dev.raddr (d : Dev) (s : Nat) : Option Nat :=
  if d.is .HP_TS_RADDR_LO_EN s then some (d.fg .HP_TS_RADDR_LO_ADDR s * 32 + d.fg .HP_TS_RADDR_HI_ADDR s * 2 ^ 32) else none

/-- A command that ends at its latching, without being judged. -/
def latchEnded (c : Cmd) (cls detail : Nat) (d : Dev) : Dev :=
  let id := d.fw.nextCmd
  (d.onFw fun w => { w with cmds := w.cmds ++ [{ c with id := id }], nextCmd := id + 1 }).endCmd id cls detail

/-- TS_GO: 1 written to HP_TS_GO of a stream's set, through the head `home`; `poisoned` where a poisoned write was received
while the command's dwords were being written (R444, R445, R459). -/
def tsGo (s home : Nat) (poisoned : Bool) (d : Dev) : Dev :=
  if d.is .HP_TS_STATE_BUSY s then d.fs .HP_TS_STATE_IGNORED 1 s
  else
    let bytes := (List.range 16).flatMap fun k => leBytes 4 (d.rd .HP_TS_CMD s k).toNat
    let c : Cmd := { stream := s, home := home, bytes := bytes, raddr := d.raddr s, vector := d.fg .HP_TS_NOTE_VECTOR s }
    let d := d.fs .HP_TS_STATE_BUSY 1 s
    if d.fw.cmds.any fun q => q.queue && q.stream == s then latchEnded c 2 1 d
    else if poisoned then
      latchEnded c 6 7 (d.cond (d.homeHere c) fun d => (d.fs .HP_HC_STAT_DMA_ERR 1).bump .HP_HC_CNT_DMAERR)
    else latch c d

/-! The tag queue (R449 to R452). -/

/-- Commands of the queue without a posted reply. -/
def Dev.queueBusy (d : Dev) : Bool := d.fw.cmds.any (·.queue)

/-- Base of the submission ring, and of the completion ring. -/
def Dev.sqBase (d : Dev) : Nat := d.fg .HP_Q_SQB_LO_BASE * 4096 + d.fg .HP_Q_SQB_HI_BASE * 2 ^ 32
/-- See `Dev.sqBase`. -/
def Dev.cqBase (d : Dev) : Nat := d.fg .HP_Q_CQB_LO_BASE * 4096 + d.fg .HP_Q_CQB_HI_BASE * 2 ^ 32

/-- QUEUE_ENABLE: HP_Q_CTL written with EN 1 through the head `home`. While EN reads 1 only VECTOR changes. -/
def queueEnable (home : Nat) (val : DWord) (d : Dev) : Dev :=
  if !val.getLsbD 0 then d
  else
    let d' := d.fs .HP_Q_CTL_VECTOR (bitsOf val.toNat 8 5)
    if d.is .HP_Q_CTL_EN then d'
    else
      let d := (d'.fs .HP_Q_CTL_EN 1).fs .HP_Q_CTL_HOME home
      (((d.fs .HP_Q_STAT_SQ_HEAD 0).fs .HP_Q_STAT_CQ_TAIL 0).fs .HP_Q_RSEQ_NEXT 1).fs .HP_Q_SQ_TAIL 0

/-- The queue stops fetching, and EN reads 0 once every fetched command has its reply posted (R452). -/
def queueDrain (d : Dev) : Dev :=
  if !d.is .HP_Q_CTL_EN then d
  else if d.queueBusy then d.fs .HP_Q_CTL_DRAINING 1
  else (d.fs .HP_Q_CTL_DRAINING 0).fs .HP_Q_CTL_EN 0

/-- QUEUE_DISABLE: HP_Q_CTL written with EN 0. -/
def queueDisable (val : DWord) (d : Dev) : Dev :=
  if val.getLsbD 0 then d else queueDrain (d.fs .HP_Q_CTL_VECTOR (bitsOf val.toNat 8 5))

/-- DOORBELL: t written to HP_Q_SQ_TAIL. A member asks its home head for the new entries. -/
def doorbell (t : Nat) (d : Dev) : Dev :=
  if !d.is .HP_Q_CTL_EN || d.is .HP_Q_CTL_DRAINING then d
  else
    let n := (t + 64 - d.fg .HP_Q_STAT_SQ_HEAD) % 64
    if 32 < n then d.fs .HP_Q_STAT_DB_ERR 1
    else
      let old := d.fg .HP_Q_SQ_TAIL
      let home := d.fg .HP_Q_CTL_HOME
      let parts := (List.range ((t + 64 - old) % 64)).map fun i => (d.sqBase + 64 * ((old + i) % 32), 64)
      (d.fs .HP_Q_SQ_TAIL t).cond (!d.homeHere { home := home }) (askHost 0 home false parts)

/-- QUEUE_ENTRY_FETCH: the entry at SQ_HEAD arrives; its command is latched and judged. -/
def queueEntryFetch (d : Dev) : Dev :=
  let head := d.fg .HP_Q_STAT_SQ_HEAD
  let a := d.sqBase + 64 * (head % 32)
  let home := d.fg .HP_Q_CTL_HOME
  let c : Cmd := { queue := true, home := home, tag := head % 32, bytes := memRead d.hostMem a 64
                   raddr := some d.cqBase }
  let c := { c with stream := c.field 4 1 % 16 }
  let may := d.is .HP_Q_CTL_EN && !d.is .HP_Q_CTL_DRAINING && head != d.fg .HP_Q_SQ_TAIL && d.hostOn c
    && !d.link.fetch.any fun e => e.2.2.2 == 0 && e.2.1 == a
  if !may then d
  else
    let d := (d.cond (d.homeHere c) fun d => d.sends 0).fs .HP_Q_STAT_SQ_HEAD ((head + 1) % 64)
    if d.is .HP_TS_STATE_BUSY c.stream then latchEnded c 2 1 d else latch c d

/-- The queue's next reply, of the command that ended first: its completion slot, then its notice (R451). -/
def queuePost (c : Cmd) (d : Dev) : Dev :=
  if d.homeHere c && !c.orphan && !d.busMaster then d
  else
    let rseq := d.fg .HP_Q_RSEQ_NEXT
    let slot := d.fg .HP_Q_STAT_CQ_TAIL
    let d := replyOut c (some (d.cqBase + 32 * (slot % 32))) (d.fg .HP_Q_CTL_VECTOR) (replyBytes c rseq d) d
    let d := (d.fs .HP_Q_STAT_CQ_TAIL ((slot + 1) % 64)).fs .HP_Q_RSEQ_NEXT ((rseq + 1) % 2 ^ 16)
    let d := replied c.id d
    d.cond (d.is .HP_Q_CTL_DRAINING) queueDrain

/-- The set's command that has ended, and the queue's that ended first. -/
def Dev.tsEnded (d : Dev) (s : Nat) : Option Cmd := d.fw.cmds.find? fun c => !c.queue && c.stream == s && c.stage = .ended
/-- See `Dev.tsEnded`. -/
def Dev.queueEnded (d : Dev) : Option Cmd := (d.fw.ended.filterMap d.cmd).find? (·.queue)

/-! Windows (R433 to R437, R462 to R464). -/

/-- Firmware F3.1 runs, or has run since boot. -/
def Dev.runsImage (d : Dev) : Bool := d.fw.up || (!d.aon.reset && 7 ≤ d.fg .CLK_BOOT_STAGE)

/-- Whether boot has failed (CLK_BOOT). -/
def Dev.bootFailed (d : Dev) : Bool := !d.aon.reset && d.fg .CLK_BOOT_FAIL != 0

/-- HP_UNIT_ID (Table 14-10): MODE is 0 after a failed boot (R630), and it follows the mode, the address and role, the fuses and the image. -/
def Dev.unitId (d : Dev) : DWord :=
  let opus := match bitsOf d.shadow 64 2 with
    | 1 => 1 | 2 => 2 | _ => 0
  BitVec.ofNat 32 ((if d.bootFailed then 0 else d.mode) + d.addr <<< 4 + d.role <<< 10 + opus <<< 12 + (bit d.bonded) <<< 14
    + (bitsOf d.shadow 66 1) <<< 15 + (if d.runsImage then 0x31 else 0) <<< 16 + 0x96 <<< 24)

/-- A dword of a window read (Table 14-4); all ones after a failed boot but for HP_UNIT_ID (R630). No read has a side effect. -/
def winRead (off : Nat) (d : Dev) : DWord :=
  if off = 0x2000 then d.unitId
  else if d.bootFailed then 0xFFFFFFFF#32
  else if 0x3000 ≤ off && off < 0x3100 then d.rd .CLE_MBOX (64 + (off - 0x3000) / 4)
  else match regAt .hp off with
    | some (r, i, j) => if r = .HP_TS_GO ∨ r = .HP_Q_SQ_TAIL then 0#32 else d.rd r i j
    | none => 0#32

/-- A dword of a window written through the head `home`; `given` has a bit for each byte of it that is written, and a bit of a byte
that is not written has no effect (R11). -/
def winWrite (home off given : Nat) (v : DWord) (d : Dev) : Dev :=
  if d.bootFailed then d
  else if 0x3000 ≤ off && off < 0x3100 then d.wr .CLE_MBOX v (64 + (off - 0x3000) / 4)
  else match regAt .hp off with
    | none => d
    | some (r, i, j) =>
      let old := (d.rd r i j).toNat
      let rw := BitVec.ofNat 32 ((old &&& (2 ^ 32 - 1 - r.rw)) ||| (v.toNat &&& r.rw))
      if r = .HP_TS_STATE then d.cond (v.getLsbD 2 && given.testBit 0) fun d => d.fs .HP_TS_STATE_IGNORED 0 i
      else if off < 0x1000 && d.is .HP_TS_STATE_BUSY i && (r.rw != 0 || r.wo != 0) then d.fs .HP_TS_STATE_IGNORED 1 i
      else if r = .HP_TS_GO then d.cond (v.getLsbD 0 && given.testBit 0) (tsGo i home false)
      else if (r = .HP_Q_CTL ∨ r = .HP_Q_SQ_TAIL) ∧ given % 2 = 0 then d
      else if r = .HP_Q_CTL then if v.getLsbD 0 then queueEnable home v d else queueDisable v d
      else if r = .HP_Q_SQ_TAIL then doorbell (v.toNat % 64) d
      else if r = .HP_Q_STAT then d.cond (v.getLsbD 16 && given.testBit 2) fun d => d.fs .HP_Q_STAT_DB_ERR 0
      else if (r = .HP_Q_SQB_LO ∨ r = .HP_Q_SQB_HI ∨ r = .HP_Q_CQB_LO ∨ r = .HP_Q_CQB_HI) ∧ d.is .HP_Q_CTL_EN then d
      else d.wr r rw i j

/-- Bytes read from a window. -/
def winBytes (off len : Nat) (d : Dev) : Bytes :=
  (List.range len).map fun k => BitVec.ofNat 8 (bitsOf (winRead ((off + k) / 4 * 4) d).toNat (8 * ((off + k) % 4)) 8)

/-- A write to a window applied dword by dword in address order (R434); bytes that a dword is not given keep their value. -/
def winPut : Nat → Nat → Nat → Bytes → Dev → Dev
  | 0, _, _, _, d => d
  | n + 1, home, off, b, d =>
    if b.isEmpty then d
    else
      let base := off / 4 * 4
      let k := off % 4
      let part := b.take (4 - k)
      let v := putBits (winRead base d).toNat (8 * k) (8 * part.length) (leNat part)
      winPut n home (base + 4) (b.drop (4 - k)) (winWrite home base ((2 ^ part.length - 1) <<< k) (BitVec.ofNat 32 v) d)

/-- D3hot (R461). -/
def Dev.d3 (d : Dev) : Bool := (sparseGet 0#32 d.host.cfg 0x44).toNat % 4 == 3

/-- BAR accesses that complete with Unsupported Request: on a unit that is no head (R534), or in D3hot (R461). -/
def unsupported (d : Dev) : Dev := { d with error := true, answer := [] }

/-- Bytes held in the forwarding buffer. -/
def Dev.heldBytes (d : Dev) : Nat := (d.host.held.map (·.data.length)).sum

/-- Data of one MMIO write cut into messages of at most 256 bytes; ARG holds the offset in bits 17:0 and the byte count
above. -/
def mmioMsgs (dst off : Nat) (b : Bytes) : List QMsg :=
  ((List.range ((b.length + 255) / 256)).map fun i => (off + 256 * i, (b.drop (256 * i)).take 256)).map fun e =>
    { type := 0x01, dst := dst, cls := 1, arg := e.1 + e.2.length <<< 18, payload := e.2 }

/-- Held writes carried in order while their unit can be reached and the neighbour has room (R436). -/
def carryHeld : Nat → Dev → Dev
  | 0, d => d
  | n + 1, d =>
    match d.host.held with
    | [] => d
    | h :: rest =>
      match d.route h.unit with
      | none => d
      | some p =>
        let msgs := mmioMsgs h.unit h.off h.data
        let q := d.port p
        let room := (msgs.map (·.frames)).sum ≤ q.credit.getD 1 0 && !q.wait.any fun e => e.1 && e.2.cls == 1
        if !room then d
        else carryHeld n (d.each msgs (fun d m => sendMsg m d) |>.onHost fun h => { h with held := rest })

/-- MEMBER_WINDOW_WRITE: a BAR0 write at this head. It waits in the host while the forwarding buffer has no room. -/
def windowWrite (unit off : Nat) (b : Bytes) (d : Dev) : Dev :=
  if d.role = 0 || d.d3 then unsupported d
  else if unit = d.addr then winPut (b.length + 1) (d.role - 1) off b d
  else if 16384 < d.heldBytes + b.length then d
  else
    let d := d.onHost fun h => { h with held := h.held ++ [{ unit := unit, off := off, data := b }] }
    carryHeld d.host.held.length d

/-- A member read that has no answer: every byte 0xFF (R437). -/
def allOnes (len : Nat) (d : Dev) : Dev :=
  { ((d.fs .HP_HC_STAT_RD_ALLONES 1).bump .HP_HC_CNT_RDTMO) with answer := List.replicate len 0xFF#8, error := false }

/-- MEMBER_WINDOW_READ: a BAR0 read at this head (R434, R437). -/
def windowRead (unit off len : Nat) (d : Dev) : Dev :=
  if d.role = 0 || d.d3 || 64 < off % 64 + len then unsupported d
  else if unit = d.addr then { d with answer := winBytes off len d, error := false }
  else if (d.route unit).isNone then allOnes len d
  else
    let (t, d) := nextTag d
    let d := d.onHost fun h => { h with reads := h.reads ++ [{ tag := t, unit := unit, off := off, len := len }] }
    sendMsg { type := 0x02, dst := unit, cls := 1, tag := t, arg := off + len <<< 18 } d

/-- MEMBER_READ_TIMEOUT of the oldest read that waits. -/
def memberReadTimeout (d : Dev) : Dev :=
  match d.host.reads with
  | [] => d
  | r :: rest => allOnes r.len (d.onHost fun h => { h with reads := rest })

/-- A held write discarded (R436). -/
def dropHeld (i : Nat) (d : Dev) : Dev :=
  (((d.onHost fun h => { h with held := h.held.eraseIdx i }).fs .HP_HC_STAT_UNREACH 1).bump .HP_HC_CNT_DROP)

/-- UNREACHABLE_WRITE_DISCARD: the oldest held write whose unit cannot be reached. -/
def unreachableDiscard (d : Dev) : Dev :=
  match d.host.held.findIdx? fun h => (d.route h.unit).isNone with
  | some i => dropHeld i d
  | none => d

/-- AER Uncorrectable Error Status at the home head: 0 Unsupported Request, 1 Completer Abort, 2 poisoned, 3 timeout
(R459; the bits PRESUMED, PCIe). -/
def aerRecord (kind : Nat) (d : Dev) : Dev :=
  let b := [20, 15, 12, 14].getD kind 20
  d.onHost fun h => { h with cfg := sparseSet 0#32 h.cfg 0x104 (sparseGet 0#32 h.cfg 0x104 ||| BitVec.ofNat 32 (2 ^ b)) }

/-- DMA_COMPLETION_ERROR of a running command's read; command 0 is the submission entry at SQ_HEAD, whose command is then
one of zero bytes. -/
def dmaCompletionError (id kind : Nat) (d : Dev) : Dev :=
  if id = 0 then
    let head := d.fg .HP_Q_STAT_SQ_HEAD
    let c : Cmd := { queue := true, home := d.fg .HP_Q_CTL_HOME, tag := head % 32, raddr := some d.cqBase }
    if !d.is .HP_Q_CTL_EN || d.is .HP_Q_CTL_DRAINING || head = d.fg .HP_Q_SQ_TAIL || !d.homeHere c then d
    else
      let d := ((aerRecord kind d).fs .HP_HC_STAT_DMA_ERR 1).bump .HP_HC_CNT_DMAERR
      latchEnded c 6 7 (d.fs .HP_Q_STAT_SQ_HEAD ((head + 1) % 64))
  else match d.cmd id with
    | some c => if c.stage != .running || !d.homeHere c || c.dlen = 0 then d else hostError id (aerRecord kind d)
    | none => d

/-! HOST resets and configuration (R431, R432, R461, R627). -/

/-- Whether the head of a HOST reset is this unit: by its role, or a bonded unit that no count-off has numbered. -/
def Dev.isHead (d : Dev) (head : Nat) : Bool := d.role == head + 1 || (d.role == 0 && head == 0 && d.bonded)

/-- The HOST island's own state at reset: the MSI-X table, its pending bits, configuration space; in D3hot the power state
stays. -/
def hostIsland (cause : Nat) (d : Dev) : Dev :=
  let d := d.each (List.range 32) fun d v => d.each (List.range 4) fun d k => d.wr .HP_MSIX (Reg.resetAt .HP_MSIX v k) v k
  (d.fs .HP_PBA_PEND 0).onHost fun h =>
    { h with cfg := if cause = 3 then [(0x44, 3#32)] else [], up := cause == 3 && h.up, reads := [] }

/-- HOST_RESET of a head: 0 PERST_N, 1 hot reset, 2 link-down, 3 D3hot. A unit hears of the reset of another head too: its
own commands homed there go on without their host-bound traffic, and host reads outstanding there fail (R615). -/
def hostReset (head cause : Nat) (d : Dev) : Dev :=
  let d := d.cond (d.isHead head) (hostIsland cause)
  let d := d.onFw fun w => { w with cmds := w.cmds.map fun c => if c.home == head then { c with orphan := true } else c }
  let gone := d.link.fetch.filter fun e => (d.cmd e.2.2.2).any fun c => c.home == head
  let d := d.onLink fun l => { l with fetch := l.fetch.filter fun e => !gone.contains e }
  let d := d.each gone fun d e => hostError e.2.2.2 d
  d.cond (d.fg .HP_Q_CTL_HOME == head) queueDrain

/-- The fixed part of each dword of configuration space (Tables 14-2 and 14-3; identifiers and layouts within a
capability PRESUMED, PCIe). -/
def cfgFixed (d : Dev) : Nat → Nat
  | 0x00 => 0x00961E57
  | 0x04 => 0x00100000
  | 0x08 => 0x01800001
  | 0x10 => 0xC
  | 0x18 => 0x4
  | 0x2C => leNat ((d.aon.image.drop 22).take 4)
  | 0x34 => 0x40
  | 0x40 => 0x00035001
  | 0x50 => 0x001F7011
  | 0x54 => 0x00008002
  | 0x58 => 0x00009002
  | 0x70 => 0x00020010
  | 0x74 => 0x00008022
  | 0x7C => 0x845
  | 0x94 => 0x00030003
  | 0x9C => 0x3E
  | 0x100 => 0x15020001
  | 0x118 => 0xA0
  | 0x150 => 0x17010019
  | 0x170 => 0x18010025
  | 0x174 => 0x80000001
  | 0x180 => 0x1B010026
  | 0x1B0 => 0x1D01002A
  | 0x1D0 => 0x20010027
  | 0x200 => 0x0001001E
  | 0x204 => 0x18
  | _ => 0

/-- The writable bits of each dword: Command, the BARs, Interrupt Line, the power state, MSI-X Control, Device Control
and Device Control 2, AER masks and control. -/
def cfgMask : Nat → Nat
  | 0x04 => 0x0546
  | 0x10 => 0xFF000000
  | 0x14 => 0xFFFFFFFF
  | 0x18 => 0xFFFF0000
  | 0x1C => 0xFFFFFFFF
  | 0x3C => 0xFF
  | 0x44 => 0x3
  | 0x50 => 0xC0000000
  | 0x78 => 0x7FFF
  | 0x80 => 0x1C3
  | 0x98 => 0x101F
  | 0x108 => 0xFFFFFFFF
  | 0x10C => 0xFFFFFFFF
  | 0x114 => 0xFFFFFFFF
  | 0x118 => 0x140
  | 0x208 => 0xF
  | _ => 0

/-- A dword of configuration space. -/
def cfgRead (off : Nat) (d : Dev) : DWord := sparseGet 0#32 d.host.cfg off ||| BitVec.ofNat 32 (cfgFixed d off)

/-- A dword of configuration space written under its byte enables. AER status clears where 1 is written; a move to D3hot
resets the HOST island; unmasking the function sends the pending notices. -/
def cfgWrite (off be : Nat) (v : DWord) (d : Dev) : Dev :=
  let bytes := (List.range 4).foldl (fun m i => if be.testBit i then m + 0xFF <<< (8 * i) else m) 0
  let old := (sparseGet 0#32 d.host.cfg off).toNat
  if off = 0x104 then
    d.onHost fun h => { h with cfg := sparseSet 0#32 h.cfg off (BitVec.ofNat 32 (old - (old &&& (v.toNat &&& bytes)))) }
  else
    let m := cfgMask off &&& bytes
    let new := BitVec.ofNat 32 ((old &&& (2 ^ 32 - 1 - m)) ||| (v.toNat &&& m))
    let was := d.d3
    let d := d.onHost fun h => { h with cfg := sparseSet 0#32 h.cfg off new }
    if off = 0x44 && d.d3 && !was then hostReset (d.role - 1) 3 d else noticePending d

/-- CONFIGURATION_REQUEST: a read or write of a dword under byte enables. Before t9, and after a failed boot until 100 ms
have passed (`late`), it is completed with Request Retry Status: no data, an error response (R627, R630). -/
def configurationRequest (write : Bool) (idx be : Nat) (v : DWord) (late : Bool) (d : Dev) : Dev :=
  if (d.aon.reset || d.fg .CLK_BOOT_STAGE < 7) && !(d.bootFailed && late) then { d with answer := [], error := true }
  else
    let d := { d with error := false }
    if write then cfgWrite (4 * idx) be v d else { d with answer := leBytes 4 (cfgRead (4 * idx) d).toNat }

/-! The effects of the commands. -/

/-- TS_GO (R444). -/
def execTsGo (stream : Fin 16) (home : Fin 2) (poisoned : Bool) (s : State) : Host.Outcome State Fault Refusal :=
  s.onDev (tsGo stream home poisoned)

/-- QUEUE_ENABLE (R449). -/
def execQueueEnable (home : Fin 2) (val : DWord) (s : State) : Host.Outcome State Fault Refusal :=
  s.onDev (queueEnable home val)

/-- QUEUE_DISABLE (R452). -/
def execQueueDisable (val : DWord) (s : State) : Host.Outcome State Fault Refusal := s.onDev (queueDisable val)

/-- DOORBELL (R450). -/
def execDoorbell (tail : Fin 64) (s : State) : Host.Outcome State Fault Refusal := s.onDev (doorbell tail)

/-- QUEUE_ENTRY_FETCH (R450). -/
def execQueueEntryFetch (s : State) : Host.Outcome State Fault Refusal := s.onDev queueEntryFetch

/-- MSIX_UNMASK (R453). -/
def execMsixUnmask (vector : Fin 32) (s : State) : Host.Outcome State Fault Refusal := s.onDev (msixUnmask vector)

/-- MEMBER_WINDOW_WRITE (R436). -/
def execMemberWindowWrite (unit : Fin 64) (off : Fin 262144) (data : List (BitVec 8)) (s : State) :
    Host.Outcome State Fault Refusal :=
  s.onDev (windowWrite unit off data)

/-- MEMBER_WINDOW_READ (R437). -/
def execMemberWindowRead (unit : Fin 64) (off : Fin 262144) (len : Nat) (s : State) :
    Host.Outcome State Fault Refusal :=
  s.onDev (windowRead unit off len)

/-- MEMBER_READ_TIMEOUT (R437). -/
def execMemberReadTimeout (s : State) : Host.Outcome State Fault Refusal := s.onDev memberReadTimeout

/-- UNREACHABLE_WRITE_DISCARD (R436). -/
def execUnreachableWriteDiscard (s : State) : Host.Outcome State Fault Refusal := s.onDev unreachableDiscard

/-- DMA_COMPLETION_ERROR (R459). -/
def execDmaCompletionError (cmd : Nat) (kind : Fin 4) (s : State) : Host.Outcome State Fault Refusal :=
  s.onDev (dmaCompletionError cmd kind)

/-- HOST_RESET (R461). -/
def execHostReset (head : Fin 2) (cause : Fin 4) (s : State) : Host.Outcome State Fault Refusal :=
  s.onDev (hostReset head cause)

/-- CONFIGURATION_REQUEST (R627). -/
def execConfigurationRequest (isWrite : Bool) (reg : Fin 1024) (be : Fin 16) (val : DWord) (late : Bool) (s : State) :
    Host.Outcome State Fault Refusal :=
  s.onDev (configurationRequest isWrite reg be val late)

end Sys2Proof.Machine
end

