-- ==== Sys2Proof/Machine/Modes.lean ====
section
/-!
DEFINITION. The operating modes (19_modes_and_power.md R583 to R592): the mode at a jump gap, the mechanism brought up and
put away, and what DORMANT does.
-/

namespace Sys2Proof.Machine

/-- Whether an OPU has a band plan latched, and whether it captures sheets without one. -/
def Dev.opuRecords (d : Dev) (opu : Nat) : Bool := (d.opuFw opu).latched.isSome
/-- See `Dev.opuRecords`. -/
def Dev.opuCaptures (d : Dev) (opu : Nat) : Bool :=
  d.opuReady opu && !d.opuRecords opu && (slicesOf opu).any fun n => (d.slice n).cap != 0

/-- The mode of a turning disc at a jump gap (Table 19-2, R584): RECORD while an OPU holds a band plan, READ while one
captures, else SPINNING; the set-point follows (R294). -/
def modeAtGap (d : Dev) : Dev :=
  if d.mode < 3 || 5 < d.mode then d
  else
    let m := if d.opus.any d.opuRecords then 5 else if d.opus.any d.opuCaptures then 4 else 3
    if m = d.mode then d else (d.turnMode m).spSet 0 (modeSource m)

/-- RCS_GAP_LATCH, and the mode that the gap gives. -/
def gapLatchMode (opu : Nat) (d : Dev) : Dev := modeAtGap (gapLatch opu d)

/-! Bringing the mechanism up (R469, Table 9-2). -/

/-- Whether an OPU's mailbox can take a command: none waits and none runs (R256). -/
def Dev.svFree (d : Dev) (opu : Nat) : Bool := d.sv opu svToken == d.sv opu svTaken && (d.servo opu).running == 0

/-- A command put into an OPU's mailbox. -/
def svSend (opu op track layer : Nat) (d : Dev) : Dev :=
  (((d.svSet opu svTrack track).svSet opu svArgLayer layer).svSet opu svOp op).svSet opu svToken
    ((d.sv opu svTaken + 1) % 256)

/-- The sled position at which focus is acquired, at the default SLED_NM (R685). -/
def focusSledPos : Int := 18155

/-- The next step that brings an OPU toward TRACKING: its island on, focus, then a track. -/
def opuBring (opu : Nat) (d : Dev) : Dev :=
  if (d.opuFw opu).withdrawn || (d.servo opu).restart then d
  else if d.stage opu == .off then opuPowerUp opu d
  else if !d.opuReady opu || d.servoFault opu || !d.svFree opu then d
  else if d.svSt opu = svOpen then svSend opu 1 0 0 d
  else if d.svSt opu = svFocused then svSend opu 3 0 0 d
  else d

/-! Calibration beside READ and RECORD (R351, R352). -/

/-- The pairs of an OPU, as CAL_TRIG names them, that are due and that the sequencer has deferred, of some groups. -/
def Dev.deferred (d : Dev) (opu : Nat) (groups : List Nat) : Nat :=
  bitSet ((groups.filter fun g => bitsOf (d.fg .CAL_RES_RESULT opu) (3 * g) 3 == CalResult.deferred.code
    && sparseGet 0 d.cal.dueAt (pairBit opu g) != 0).map (pairBit opu))

/-- An OPU withdrawn from planning so that its deferred pairs can run: nothing captured, and for groups 0 to 2 the loops open and
the slices disabled; groups 5 and 6 run as it tracks, once no pair of groups 0 to 2 is due (R351, Table 10-2). -/
def calWithdraw (opu : Nat) (d : Dev) : Dev :=
  let off := d.deferred opu [0, 1, 2]
  let set := if off = 0 then d.deferred opu [5, 6] else off
  let d := (d.each (slicesOf opu) fun d n => d.fs .RCS_CAP_SLOTS 0 n).svSet opu svNextJ 0
  let d := (d.onOpuFw opu fun f => { f with calOut := some set }).cond (off != 0) fun d => slicesOff opu (servoOpen opu d)
  calTrigger set d

/-- A withdrawn OPU goes back to planning once its pairs have run and it tracks again, or no longer can (R351). -/
def calReturn (opu set : Nat) (d : Dev) : Dev :=
  if d.calWaits set then d
  else if !d.opuReady opu || (d.opuFw opu).withdrawn || d.servoFault opu || d.svSt opu == svTracking then
    d.onOpuFw opu fun f => { f with calOut := none }
  else opuBring opu d

/-- Whether an OPU may be withdrawn for calibration: it tracks, has no command and no band plan, and, in RECORD, its run has
ended. -/
def Dev.calMay (d : Dev) (opu : Nat) : Bool :=
  let f := d.opuFw opu
  3 ≤ d.mode && d.mode ≤ 5 && !d.frost && d.opuReady opu && !f.withdrawn && d.svFree opu && d.svSt opu == svTracking
    && f.latched.isNone && !f.running && f.opcBand.isNone && !f.closing && d.deferred opu [0, 1, 2, 5, 6] != 0

/-- Firmware's part of calibration beside READ and RECORD: one OPU at a time is withdrawn and returned (R351, R352). DESIGN CHOICE
(notes/assumptions/139.md): it looks at every temperature sample. -/
def calBeside (d : Dev) : Dev :=
  match d.opus.findSome? fun o => (d.opuFw o).calOut.map (o, ·) with
  | some (o, set) => calReturn o set d
  | none => match d.opus.find? d.calMay with
    | some o => calWithdraw o d
    | none => d

/-- Whether the mechanism is up: the spindle in RUN and an OPU TRACKING. -/
def Dev.turning (d : Dev) : Bool := d.spnState == spnRun && d.opus.any fun o => d.opuReady o && d.svSt o == svTracking

/-- The clocks of the recovery limits: they stand while a command waits for a change from PARKED, from its acceptance on, and
run on once the mode has changed (R147, R469). -/
def limitClocks (d : Dev) : Dev :=
  d.onFw fun w => { w with cmds := w.cmds.map fun c =>
    if d.mode = 2 then (if c.ssq != 0 && c.waitFrom.isNone then { c with waitFrom := some c.accepted } else c)
    else match c.waitFrom with
      | some t => { c with waitFrom := none, waited := c.waited + (d.qtime - t) }
      | none => c }

/-- The next step that brings the unit to SPINNING (R469, Table 19-2): the spindle started, the OPUs brought to TRACKING, and
then the mode. -/
def bringUp (d : Dev) : Dev :=
  if d.frost || d.mode == 7 || d.mode == 1 || d.fw.spnWithdrawn || d.clState != clClamped then d
  else
    let d := (limitClocks d).cond (d.spnState == spnOff) spinUp
    let d := if d.spnState = spnRun then d.each d.opus fun d o => opuBring o d else d
    d.cond (d.turning && d.mode == 2) fun d => limitClocks (d.turnMode 3)

/-! Putting the mechanism away (Table 19-2, R322, Table 9-3). -/

/-- Whether an OPU is put away: its island off, or its loops open and its sled at rest at the park position. -/
def Dev.parked (d : Dev) (opu : Nat) : Bool :=
  !d.opuPresent opu || d.stage opu == .off
    || (d.svSt opu == svOpen && (d.fg .SLD_STAT_STATE opu == sldIdle || d.fg .SLD_STAT_STATE opu == sldOff)
      && d.sldPos opu == 4096 + (d.sled opu).drift)

/-- The next step that parks the OPUs and stops the spindle; true once every island is off and the spindle OFF. -/
def putAway (d : Dev) : Bool × Dev :=
  let d := d.each d.opus fun d o => d.cond (!d.parked o) (opuPark o (d.sldPos o) 0)
  if !d.opus.all d.parked then (false, d)
  else
    let d := d.each d.opus fun d o => opuPowerDown o (slicesOff o d)
    let d := d.cond (d.spnState == spnRun) spnStop
    (d.spnState == spnOff && d.is .SPN_STAT_BELOW30 && d.opus.all fun o => d.stage o == .off, d)

/-! Flushing every stream (R484, R481). -/

/-- The next step of flushing every stream: what cannot be made durable breaks its stream, and the ORDER records that are owed
are submitted. -/
def flushAll (d : Dev) : Dev := d.each (List.range 16) fun d s => watermarkAdvance s (streamBreak s d)

/-! DORMANT (R589, R590). -/

/-- PMU_STAT.ISL: LINK, HOST, CORE, DPHY, JRNL. -/
def setIslands (link host core dphy jrnl : Bool) (d : Dev) : Dev :=
  d.fs .PMU_STAT_ISL (bit link + 2 * bit host + 4 * bit core + 8 * bit dphy + 16 * bit jrnl)

/-- Whether ASPM L1 is enabled on the head's link, so that DORMANT powers its HOST island down (R590). -/
def Dev.aspmL1 (d : Dev) : Bool := (sparseGet 0#32 d.host.cfg 0x80).getLsbD 1

/-- The first steps of R589: the cache cleaned, firmware's state kept, the DRAM in deep self-refresh. -/
def dormantPrepare (d : Dev) : Dev := drcDeep (cacheCleanAll d)

/-- What HK does once the reply of POWER MODE 1 is posted (R589): mode DORMANT, CORE, DPHY, JRNL and, under R590, HOST off. -/
def dormantEnter (d : Dev) : Dev :=
  let host := d.bonded && !d.aspmL1
  setIslands true host false false false (d.setMode 1)

/-! Calibration in PARKED (R629). -/

/-- The OPU islands powered for calibration at boot are powered down once no pair is running or waiting, in PARKED with no LOAD,
UNLOAD or CALIBRATE in progress (R629). -/
def calParked (d : Dev) : Dev :=
  let busy := d.running.any fun c => c.opcode == 0x18 || c.opcode == 0x19 || c.opcode == 0x1B
  d.cond (d.mode == 2 && d.calIdle && d.fg .CAL_PEND_PAIRS == 0 && !busy && d.fw.up) fun d =>
    d.each d.opus fun d o => d.cond (d.stage o == .ready) fun d => opuPowerDown o (slicesOff o d)

/-! The effects of the commands. -/

/-- RCS_GAP_LATCH (R101). -/
def execRcsGapLatch (opu : Fin 4) (s : State) : Host.Outcome State Fault Refusal := s.onDev (gapLatchMode opu)

/-- CAL_STEP_START (R342). -/
def execCalStepStart (s : State) : Host.Outcome State Fault Refusal := s.onDev (fun d => calParked (calStepStart d))

/-- CAL_STEP_DONE (R344). -/
def execCalStepDone (s : State) : Host.Outcome State Fault Refusal := s.onDev (fun d => calParked (calStepDone d))

/-- CAL_STEP_TIMEOUT (R343). -/
def execCalStepTimeout (s : State) : Host.Outcome State Fault Refusal :=
  s.onDev (fun d => calParked (calStepTimeout d))

/-- ABORT (R347). -/
def execAbort (s : State) : Host.Outcome State Fault Refusal := s.onDev (fun d => calParked (calAbort true d))

end Sys2Proof.Machine
end

