-- ==== Sys2Proof/Machine/Commands.lean ====
section
/-!
DEFINITION. The commands of the unit (15_commands.md): IDENTIFY, pages, POLL, attention, logs, streams, POWER MODE. A
command's row acts on an accepted command of its opcode that runs, named by its number; it is run again until the command
ends.
-/

namespace Sys2Proof.Machine

/-- A command's effect: on an accepted, running command with an opcode. -/
def runCmd (id op : Nat) (f : Cmd → Dev → Dev) (d : Dev) : Dev :=
  match d.cmd id with
  | some c => if c.stage = .running && c.ssq != 0 && c.opcode = op then f c d else d
  | none => d

/-- The same for an operation of DIAGNOSTIC or OPEN CONTROL, by byte 24. -/
def runSub (id op sub : Nat) (f : Cmd → Dev → Dev) (d : Dev) : Dev :=
  runCmd id op (fun c d => if c.b24 = sub then f c d else d) d

/-- Whether a lock of the fuse shadow is in force (R635). -/
def Dev.debugLock (d : Dev) : Bool := bitsOf d.shadow 1539 3 != 0

/-- The anti-rollback value (R636). -/
def Dev.arb (d : Dev) : Nat := popCount 64 (bitsOf d.shadow 1472 64)

/-! IDENTIFY (R491). -/

/-- Free user sheets: C less the map entries in use. -/
def Dev.freeSheets (d : Dev) : Nat := d.capacity - d.fw.map.length

/-- The opcodes of Table 15-1. -/
def opcodes : List Nat :=
  [0x01, 0x02, 0x03, 0x04, 0x05, 0x06, 0x07, 0x08, 0x10, 0x11, 0x12, 0x13, 0x14, 0x15, 0x18, 0x19, 0x1A, 0x1B, 0x20, 0x21,
   0x22, 0x23, 0x24, 0x25, 0x28, 0x29, 0x30, 0x31, 0x32, 0x33, 0x38]

/-- The unit page (Table 15-8). -/
def unitPage (d : Dev) : Bytes :=
  let n := d.opus.length
  takeFill 0#8 4096 (leBytes 4 0x36395658 ++ leBytes 1 1 ++ leBytes 1 (bitsOf d.unitId.toNat 12 2) ++ leBytes 1 (bitSet d.opus)
    ++ leBytes 1 (bit d.bonded + 2 * bitsOf d.shadow 66 1 + 4 * bit d.openLock + 8 * bit d.debugLock) ++ leBytes 8 d.serial
    ++ leBytes 4 0x31 ++ leBytes 8 (bitsOf d.shadow 1472 64) ++ leBytes 2 (24 * n) ++ leBytes 2 (12 * n)
    ++ leBytes 4 d.visibleMiB ++ leBytes 4 8192 ++ leBytes 1 d.addr ++ leBytes 1 d.role ++ leBytes 1 (d.fg .QL_ID_UNITS)
    ++ leBytes 1 0 ++ leBytes 4 d.epoch ++ leBytes 4 0xFE ++ leBytes 4 0x7E ++ leBytes 8 d.qtime
    ++ leBytes 32 (bitSet opcodes))

/-- A side in the disc page: LEVEL, PCODE, format record present, recordable. -/
def SideInfo.page (s : SideInfo) : Bytes :=
  leBytes 1 s.level ++ leBytes 1 s.pcode ++ leBytes 1 (bit s.formatted) ++ leBytes 1 (bit s.recordable)

/-- The disc page (Table 15-8). -/
def discPage (d : Dev) : Bytes :=
  let x := d.fw.disc
  if !x.loaded then takeFill 0#8 4096 (leBytes 56 0 ++ leBytes 8 d.qtime)
  else
    let sides := bitSet ((List.range 2).filter d.serves)
    let spare := ((List.range 16).map fun k => sparseGet 0 d.fw.reserve k).sum
    takeFill 0#8 4096 (leBytes 4 1 ++ leBytes 1 x.mediaClass ++ leBytes 1 sides ++ leBytes 1 (bit x.readOnly) ++ leBytes 1 0
      ++ leBytes 4 x.maker ++ leBytes 4 x.serial ++ leBytes 4 d.capacity ++ leBytes 4 d.freeSheets ++ leBytes 4 d.fw.map.length
      ++ leBytes 4 spare ++ x.a.page ++ x.b.page ++ leBytes 2 x.layers ++ leBytes 2 0
      ++ leBytes 4 (max x.a.copySeq x.b.copySeq) ++ leBytes 8 0 ++ leBytes 8 d.qtime)

/-- IDENTIFY. -/
def identify (id : Nat) (d : Dev) : Dev :=
  runCmd id 0x01 (fun c d => (deliver c 0 (if c.b24 = 0 then unitPage d else discPage d) d).endCmd id 0 0 4096) d

/-! Parameter pages (R492). -/

/-- GET PAGE. -/
def getPage (id : Nat) (d : Dev) : Dev :=
  runCmd id 0x02 (fun c d =>
    let p := c.b24
    let s := c.field 25 1
    if pageLength p = 0 then d.endCmd id 3 0x0B
    else if pageScopes p ≤ s then d.endCmd id 3 0x0C 4
    else
      let b := if (c.field 26 1).testBit 0 then pageDefault d.smallBuffer p s else d.page p s
      (deliver c 0 b d).endCmd id 0 0 (pageLength p)) d

/-- The blocks that a page set reaches: servo and spindle loops as whole banks (R223), braking, the calibration timeout, the
scrub period, the frost line and the thaw delay. -/
def pageTakes (page scope : Nat) (d : Dev) : Dev :=
  match page with
  | 3 => loadBanks [scope, 4 + scope, 57 + scope, 61 + scope] d
  | 4 => (loadBanks [8, 65, 70] d).fs .SPN_CTL_BRAKE_EN (d.pageVal 4 0 60 1)
  | 5 => d.fs .CAL_TMO (d.pageVal 5 0 16 2)
  | 6 => d.fs .DRC_SCRUB_PERIOD (d.pageVal 6 0 16 1)
  | 7 => ((d.fs .PMU_FL_PCT (d.pageVal 7 0 8 1)).fs .PMU_FL_HYST (d.pageVal 7 0 9 1)).fs .PMU_THAW_MS (d.pageVal 7 0 10 2)
  | _ => d

/-- SET PAGE: every field validated; the page takes effect when the reply is posted. -/
def setPage (id : Nat) (d : Dev) : Dev :=
  runCmd id 0x03 (fun _ d => withData id (fun c d =>
    let p := c.b24
    let s := c.field 25 1
    let b := d.hostData c
    if pageLength p = 0 then d.endCmd id 3 0x0B
    else match pageRefused d p s b with
      | some off => d.endCmd id 3 0x0C off
      | none =>
        if !pageReserved d.smallBuffer p b then d.endCmd id 3 2
        else (d.onCmd id fun c => { c with page := some (p, s, b) }).endCmd id 0 0) d) d

/-- The page that a command has validated takes effect whole (R492). -/
def pageInForce (c : Cmd) (d : Dev) : Dev :=
  match c.page with
  | some (p, s, b) =>
    let new := pageMerge (pageFields d.smallBuffer p) (d.page p s) b
    pageTakes p s (d.onFw fun w => { w with pages := sparseSet [] w.pages (256 * p + s) new })
  | none => d

/-! Status (R483). -/

/-- RESULT0 and RESULT1 of POLL (Table 15-2). -/
def pollResults (d : Dev) : Nat × Nat :=
  let on := fun (p : Nat → Bool) => bitSet ((List.range 16).filter p)
  (d.mode + d.clState <<< 4 + d.spnState <<< 8
     + bitSet (d.opus.filter fun o => d.opuReady o && d.svSt o == svTracking) <<< 12
     + on (fun s => (d.stream s).broken.isSome) <<< 16,
   bitSet d.busyStreams + on (fun s => (d.stream s).writes.any fun w => !w.dead) <<< 16 + d.freeSheets <<< 32)

/-- POLL. -/
def poll (id : Nat) (d : Dev) : Dev :=
  runCmd id 0x04 (fun _ d => d.endCmd id 0 0 (pollResults d).1 (pollResults d).2) d

/-- ACKNOWLEDGE ATTENTION (R443). -/
def ackAttention (id : Nat) (d : Dev) : Dev :=
  runCmd id 0x05 (fun c d =>
    let now := d.fg .HP_UNIT_ATTN_ASEQ
    let pend := d.fg .HP_UNIT_ATTN_PEND
    if c.field 16 1 % 16 = now then
      ((d.fs .HP_UNIT_ATTN_PEND 0).fs .HP_UNIT_ATTN_ATTN 0).endCmd id 0 0 (pend + 256 * now)
    else d.endCmd id 0 0 (256 * now)) d

/-! Logs (R489). -/

/-- The newest CAL record of each fused-on pair, by OPU and group. -/
def Dev.calRecords (d : Dev) : List Bytes :=
  let l := (d.bySeq.filter fun b => recordType b == 0x06).reverse
  d.opus.flatMap fun o => (List.range 7).filterMap fun g => l.find? fun b => le (recordPayload b) 0 1 == o + 16 * g

/-- A register of a window's run of dwords. -/
def Dev.dwords (d : Dev) (b : Block) (off n : Nat) : Bytes :=
  (List.range n).flatMap fun i => match regAt b (off + 4 * i) with
    | some (r, j, k) => leBytes 4 (d.rd r j k).toNat
    | none => leBytes 4 0

/-- A log's entries, newest first, and bytes 16 to 31 of its header (Table 15-5). -/
def logOf (d : Dev) : Nat → List Bytes × Bytes
  | 1 =>
    let l := ((d.records true).map (·.2)).mergeSort fun a b => seqLater (recordSeq a) (recordSeq b)
    (l, leBytes 16 ((l.head?.map recordSeq).getD 0))
  | 2 =>
    (d.fw.mediaLog.map fun e => leBytes 5 e.1 ++ leBytes 1 e.2.1 ++ leBytes 2 0 ++ leBytes 4 e.2.2.1 ++ leBytes 4 e.2.2.2,
     leBytes 4 d.fw.transients ++ leBytes 4 d.fw.marginals ++ leBytes 4 d.fw.lastings ++ leBytes 4 d.fw.refresh.length)
  | 3 =>
    ([takeFill 0#8 64 (leBytes 4 (d.rd .RJ_STAT).toNat ++ leBytes 4 (d.rd .RJ_SPARE).toNat ++ leBytes 4 (d.rd .RJ_HEAD).toNat
        ++ leBytes 4 (d.rd .RJ_TAIL).toNat ++ leBytes 8 d.nextSeq
        ++ d.fw.rjTotals.flatMap (leBytes 4))], leBytes 16 0)
  | 4 => (d.journal.gasps.map fun e => e.2.bytes, leBytes 16 0)
  | 5 => ([takeFill 0#8 64 (d.dwords .drc 0x80 8 ++ leBytes 4 (bit (d.mode = 7)) ++ leBytes 4 d.fw.frozen)], leBytes 16 0)
  | 6 => (d.calRecords, leBytes 16 0)
  | _ => ([], leBytes 16 0)

/-- GET LOG. -/
def getLog (id : Nat) (d : Dev) : Dev :=
  runCmd id 0x06 (fun c d =>
    let size := logEntry c.b24
    let l := logOf d c.b24
    let got := (l.1.drop (c.field 28 4)).take ((c.dlen - 32) / size)
    let head := leBytes 1 c.b24 ++ leBytes 1 1 ++ leBytes 2 size ++ leBytes 4 l.1.length ++ leBytes 4 got.length
      ++ leBytes 4 0 ++ l.2
    (deliver c 0 (head ++ got.flatten) d).endCmd id 0 0 got.length l.1.length) d

/-! Streams (R478, R483, R503, R517). -/

/-- RESET STREAM: waits until its target has no command in progress and its owed writes are settled. -/
def resetStreamCmd (id : Nat) (d : Dev) : Dev :=
  runCmd id 0x07 (fun c d =>
    let s := c.field 16 1 % 16
    if d.fw.cmds.any (fun o => o.id != id && o.stream == s && o.ssq != 0) then d
    else
      let d := streamBreak s (watermarkAdvance s d)
      if !d.settled s then d
      else
        let mark := (d.stream s).mark
        let r := resetStream s d
        r.2.endCmd id 0 0 mark r.1) d

/-- FLUSH STREAM: complete at once where nothing is owed; else when D covers every earlier write (R503). -/
def flushStream (id : Nat) (d : Dev) : Dev :=
  runCmd id 0x13 (fun c d =>
    match c.needs with
    | none => d.endCmd id 0 0 (d.stream c.stream).mark
    | some _ => watermarkAdvance c.stream d) d

/-- FENCE: ends once the earlier commands of the streams in MASK have replied (R478). -/
def fence (id : Nat) (d : Dev) : Dev := runCmd id 0x14 (fun c d => d.cond c.after.isEmpty fun d => d.endCmd id 0 0) d

/-! POWER MODE and SERVICE (R484, R488). -/

/-- POWER MODE: every stream flushed, then the mode. For DORMANT the unit prepares, and enters it once the reply is posted
(R589). -/
def powerMode (id : Nat) (d : Dev) : Dev :=
  runCmd id 0x08 (fun c d =>
    let want := c.field 16 1
    let d := flushAll d
    if !d.allFlushed || d.frost then d
    else if want = 3 then
      if d.mode = 3 then d.endCmd id 0 0 3
      else if 4 ≤ d.mode && d.mode ≤ 5 then modeAtGap d
      else if d.clState != clClamped then d.endCmd id 3 0x12
      else if d.fw.spnWithdrawn then d.endCmd id 6 2
      else
        let d := bringUp d
        d.cond (d.mode == 3) fun d => d.endCmd id 0 0 3
    else
      let r := putAway d
      if !r.1 then r.2
      else
        let d := r.2.setMode 2
        if want = 2 then d.endCmd id 0 0 2
        else
          let d := dormantPrepare d
          ({ d with aon := { d.aon with sleep := (c.field 17 1).testBit 0 } }).endCmd id 0 0 1) d

/-- DIAGNOSTIC OP 1: every stream flushed, then SERVICE. -/
def enterService (id : Nat) (d : Dev) : Dev :=
  runSub id 0x38 1 (fun _ d =>
    let d := flushAll d
    if !d.allFlushed then d else (d.setMode 6).endCmd id 0 0 6) d

/-- DIAGNOSTIC OP 2: SERVICE left for SPINNING if the spindle is in RUN, else PARKED. -/
def leaveService (id : Nat) (d : Dev) : Dev :=
  runSub id 0x38 2 (fun _ d =>
    let m := if d.spnState = spnRun then 3 else 2
    (if m = 3 then d.turnMode 3 else d.setMode m).endCmd id 0 0 m) d

/-! The effects of the commands. -/

/-- IDENTIFY (R491). -/
def execIdentify (cmd : Nat) (s : State) : Host.Outcome State Fault Refusal := s.onDev (identify cmd)

/-- GET_PAGE (R492). -/
def execGetPage (cmd : Nat) (s : State) : Host.Outcome State Fault Refusal := s.onDev (getPage cmd)

/-- SET_PAGE (R492). -/
def execSetPage (cmd : Nat) (s : State) : Host.Outcome State Fault Refusal := s.onDev (setPage cmd)

/-- POLL (R483). -/
def execPoll (cmd : Nat) (s : State) : Host.Outcome State Fault Refusal := s.onDev (poll cmd)

/-- ACKNOWLEDGE_ATTENTION (R443). -/
def execAcknowledgeAttention (cmd : Nat) (s : State) : Host.Outcome State Fault Refusal := s.onDev (ackAttention cmd)

/-- GET_LOG (R489). -/
def execGetLog (cmd : Nat) (s : State) : Host.Outcome State Fault Refusal := s.onDev (getLog cmd)

/-- RESET_STREAM (R517). -/
def execResetStream (cmd : Nat) (s : State) : Host.Outcome State Fault Refusal := s.onDev (resetStreamCmd cmd)

/-- POWER_MODE (R484). -/
def execPowerMode (cmd : Nat) (s : State) : Host.Outcome State Fault Refusal := s.onDev (powerMode cmd)

/-- FLUSH_STREAM (R503). -/
def execFlushStream (cmd : Nat) (s : State) : Host.Outcome State Fault Refusal := s.onDev (flushStream cmd)

/-- FENCE (R478). -/
def execFence (cmd : Nat) (s : State) : Host.Outcome State Fault Refusal := s.onDev (fence cmd)

/-- ENTER_SERVICE (R488). -/
def execEnterService (cmd : Nat) (s : State) : Host.Outcome State Fault Refusal := s.onDev (enterService cmd)

/-- LEAVE_SERVICE (R488). -/
def execLeaveService (cmd : Nat) (s : State) : Host.Outcome State Fault Refusal := s.onDev (leaveService cmd)

end Sys2Proof.Machine
end

