-- ==== Sys2Proof/Machine/Reading.lean ====
section
/-!
DEFINITION. How firmware brings OPUs to the sheets that commands wait for (R469, R474, R482), and where the data of a bound
sheet is. DESIGN CHOICE of the order in which waiting sheets are served (notes/assumptions/44.md).
-/

namespace Sys2Proof.Machine

/-- The PSAs that running commands wait for and that need a pass of an OPU: those not on the retry ladder, or there with a
re-read open. -/
def Dev.wanted (d : Dev) : List Nat :=
  (d.running.flatMap fun c => c.binds.filterMap fun b => if b.result.isNone then b.psa else none).filter fun p =>
    (d.ladder.all fun s => s.psa != p) || d.ladder.any fun s => s.psa == p && s.busy

/-- Whether a sheet lies in a read band: its layer, and the band's lowest track. -/
def inBand (key base psa : Nat) : Bool := layerKey psa == key && base ≤ psaTrack psa && psaTrack psa < base + 24

/-- The layer and band that an OPU is at. -/
def Dev.bandAt (d : Dev) (opu : Nat) : Nat × Nat := (8 * opuSide opu + d.sv opu svLayer, d.fg .RCS_BAND_BASE_TRACK opu)

/-- The layer and band that an OPU is going to. -/
def Dev.bandTo (d : Dev) (opu : Nat) : Nat × Nat :=
  let j := signed 8 (d.sv opu svNextJ)
  if !d.svFree opu then (8 * opuSide opu + d.sv opu svArgLayer, d.sv opu svTrack)
  else (8 * opuSide opu + d.sv opu svLayer, ((d.fg .RCS_BAND_BASE_TRACK opu : Int) + (if -24 ≤ j && j ≤ 24 then j else 0)).toNat)

/-- An OPU that does not record is brought to the next band that holds a wanted sheet of its side, and captures it; bands
that the other OPU of the side is going to are left to it. -/
def aimOpu (opu : Nat) (d : Dev) : Dev :=
  if !d.opuReady opu || d.svSt opu != svTracking || d.opuRecords opu || (d.opuFw opu).closing || !d.svFree opu || (d.opuFw opu).calOut.isSome
  then d
  else
    let mine := d.wanted.filter fun p => psaSide p == opuSide opu
    let here := d.bandAt opu
    let to_ := d.bandTo opu
    let other := d.bandTo (otherOpu opu)
    let free := fun (p : Nat) => !(d.opuReady (otherOpu opu) && !d.opuRecords (otherOpu opu)
      && (d.opuFw (otherOpu opu)).calOut.isNone && inBand other.1 other.2 p)
    if mine.any (inBand here.1 here.2) then captureBand opu here.1 here.2 (d.svSet opu svNextJ 0)
    else if d.sv opu svNextJ != 0 && mine.any (inBand to_.1 to_.2) then d
    else match mine.find? free with
      | none => d
      | some p =>
        let base := psaTrack p / 24 * 24
        let ok := d.paceOk opu base
        let d := setPace opu base (d.mode == 5) d
        if ok then captureBand opu (layerKey p) base (moveTo opu base (psaLayer p) d) else d.svSet opu svNextJ 0

/-- Commands that wait for a sheet of a side whose OPUs are all withdrawn fail (R272). -/
def failUnreachable (d : Dev) : Dev :=
  let gone := fun (side : Nat) => d.opus.all fun o => opuSide o != side || (d.opuFw o).withdrawn
  let stuck := fun (b : Bound) => b.result.isNone && b.psa.elim false fun p => gone (psaSide p)
  d.each (d.running.filter fun c => c.binds.any stuck) fun d c => d.endCmd c.id 6 1

/-- The next step toward the sheets that commands wait for: the mechanism up, then every OPU aimed. -/
def readStep (d : Dev) : Dev :=
  if d.frost || d.mode == 7 || d.mode == 1 || d.mode == 6 then d
  else
    let d := failUnreachable (bringUp d)
    if 3 ≤ d.mode && d.mode ≤ 5 then d.each d.opus fun d o => aimOpu o d else d

/-- The user bytes of a bound sheet that was served: of the version it is bound to, decoded or rebuilt, or zeros where it
has never been written (R474, R497). -/
def boundData (b : Bound) (d : Dev) : Bytes × Dev :=
  let at_ := match b.version with
    | some o => (d.version o).map (·.addr)
    | none => b.dat
  match at_ with
  | some a => d.bufGet 7 a 131072
  | none => (List.replicate 131072 0#8, d)

/-- Whether every sheet a command is bound to has its result, and no version it is bound to is still being fetched. -/
def Dev.bindsDone (d : Dev) (c : Cmd) : Bool := c.binds.all fun b =>
  b.result.isSome && match b.version with
    | some o => ((d.version o).map (·.stage)) != some .fetching
    | none => true

/-- A bind of a command changed. -/
def setBind (id i : Nat) (f : Bound → Bound) (d : Dev) : Dev := d.onCmd id fun c => { c with binds := c.binds.modify i f }

/-! Results of several sheets (R471, Table 15-2). -/

/-- What a sheet earned: its number, CLASS and DETAIL. -/
abbrev SheetRes := Nat × Nat × Nat

/-- The CLASS and DETAIL of a command that handled several sheets (R471). -/
def overall (l : List SheetRes) : Nat × Nat :=
  let top := l.foldl (fun m s => if m < s.2.1 then s.2.1 else m) 0
  let mine := l.filter fun s => s.2.1 == top
  (top, if top < 2 then mine.foldl (fun m s => if m < s.2.2 then s.2.2 else m) 0 else (mine.head?.map (·.2.2)).getD 0)

/-- RESULT0 and RESULT1 of a reading command: sheets recovered and failed; the first failed and the first recovered. -/
def readResults (l : List SheetRes) : Nat × Nat :=
  let good := l.filter fun s => s.2.1 == 1
  let bad := l.filter fun s => 2 ≤ s.2.1
  let first := fun (l : List SheetRes) => (l.head?.map (·.1)).getD 0xFFFFFFFF
  (good.length % 65536 + bad.length % 65536 * 65536, first bad + first good * 2 ^ 32)

end Sys2Proof.Machine
end

