-- ==== Sys2Proof/Machine/GroupMsg.lean ====
section
/-!
DEFINITION. Unit requests of parity groups and what they carry (17_quire_link.md R537, 18_parity_and_fixity.md R561 to R563,
R568, R572): requests and answers, tables, locks, and the sheets of a stripe that a unit obtains. The spec leaves the layout of
unit requests open; DESIGN CHOICE (notes/assumptions/45.md).
-/

namespace Sys2Proof.Machine

/-! Request kinds: the ARG of a unit request. -/

/-- A wake probe (R564). -/
def rqProbe : Nat := 1
/-- A member's disc is examined for GROUP CREATE (R556). -/
def rqFacts : Nat := 2
/-- A table's fixed part, and one member of it (R562). -/
def rqTable : Nat := 3
/-- See `rqTable`. -/
def rqMember : Nat := 4
/-- Prepare one sheet (R566). -/
def rqPrepare : Nat := 5
/-- RELEASE n. -/
def rqRelease : Nat := 6
/-- Write n is void (R570). -/
def rqVoid : Nat := 7
/-- Read one sheet (R572). -/
def rqRead : Nat := 8
/-- A stripe's lock asked for and given back (R568). -/
def rqLock : Nat := 9
/-- See `rqLock`. -/
def rqUnlock : Nat := 10
/-- The keeper's decision for n (R567). -/
def rqDecision : Nat := 11
/-- A disc loaded, and a member disc unloaded (R563). -/
def rqLoaded : Nat := 12
/-- See `rqLoaded`. -/
def rqUnloaded : Nat := 13
/-- The table is wanted (R563). -/
def rqWant : Nat := 14
/-- A member counts as failed (R569). -/
def rqFailed : Nat := 15
/-- The group has ended (R577). -/
def rqEnd : Nat := 16
/-- A rebuild starts at the target; its progress (R574, R575). -/
def rqBuild : Nat := 17
/-- See `rqBuild`. -/
def rqDone : Nat := 18
/-- Every stream is to be flushed (R549). -/
def rqFlush : Nat := 19
/-- A spare is examined for GROUP REBUILD (R573). -/
def rqSpare : Nat := 20
/-- A stripe is lost (R575). -/
def rqLost : Nat := 21

/-- A request's payload: group, generation, n, LSN or stripe, and more by kind. -/
def reqBytes (id gen n lsn : Nat) (extra : Bytes) : Bytes :=
  leBytes 4 id ++ leBytes 4 gen ++ leBytes 4 n ++ leBytes 4 lsn ++ extra

/-- A unit request sent, with nothing remembered of it. -/
def tell (dst kind : Nat) (payload : Bytes) (d : Dev) : Dev :=
  let (t, d) := nextTag d
  sendMsg { type := 0x20, dst := dst, cls := 1, tag := t, epoch := d.epoch, arg := kind, payload := payload } d

/-- A unit response: CLASS and DETAIL in ARG. -/
def respond (dst tag cls detail : Nat) (payload : Bytes) (d : Dev) : Dev :=
  sendMsg { type := 0x21, dst := dst, cls := 2, tag := tag, epoch := d.epoch, arg := 256 * cls + detail, payload := payload } d

/-- A sheet sent in 512 unit data messages (R19); ARG is the index of the message, and bit 31 marks the data of a prepare. -/
def sheetSend (dst tag addr : Nat) (prepare : Bool) (d : Dev) : Dev :=
  let g := d.bufGet 8 addr 131072
  g.2.each (List.range 512) fun d i =>
    sendMsg { type := 0x22, dst := dst, cls := 3, tag := tag, epoch := d.epoch, arg := i + bit prepare <<< 31
              payload := (g.1.drop (256 * i)).take 256 } d

/-- The die serial of a member's unit. -/
def Group.unitOf (g : Group) (j : Nat) : Nat := ((g.members[j]?).map (·.unit)).getD 0

/-- The unit that a request goes to now: that of its member, found again by its disc where it has moved (R563, R569). -/
def Dev.askUnit (d : Dev) (a : GroupAsk) : Nat :=
  match d.group a.group with
  | some g => if a.kind == rqPrepare || a.kind == rqRelease || a.kind == rqRead || a.kind == rqProbe then g.unitOf a.member else a.serial
  | none => a.serial

/-- An outstanding request sent, or sent again (R569): to wherever its unit is now; with no such unit it waits. -/
def sendAsk (a : GroupAsk) (d : Dev) : Dev :=
  let d := d.onComp fun c => { c with
    transfers := c.transfers.map fun t => if t.src == 64 && t.tag == a.tag then { t with got := 0 } else t }
  match d.addrOf (d.askUnit a) with
  | none => d
  | some dst =>
    let d := sendMsg { type := 0x20, dst := dst, cls := 1, tag := a.tag, epoch := d.epoch, arg := a.kind, payload := a.payload } d
    match a.addr with
    | some at_ => d.cond (a.kind == rqPrepare) (sheetSend dst a.tag at_ true)
    | none => d

/-- A new outstanding request, sent; with the transfer of the sheet that it brings. -/
def newAsk (a : GroupAsk) (t : Option Transfer) (d : Dev) : Dev :=
  let (tag, d) := nextTag d
  let a := { a with tag := tag, since := d.qtime }
  let d := d.onComp fun c => { c with
    asks := c.asks ++ [a]
    transfers := c.transfers ++ (t.map fun t => { t with tag := tag, src := 64 }).toList }
  sendAsk a d

/-- Outstanding requests dropped, with their transfers. -/
def dropAsks (p : GroupAsk → Bool) (d : Dev) : Dev :=
  let gone := (d.comp.asks.filter p).map (·.tag)
  d.onComp fun c => { c with
    asks := c.asks.filter fun a => !p a
    transfers := c.transfers.filter fun t => !(t.src == 64 && gone.contains t.tag) }

/-! Tables (R562, R563). -/

/-- A group's table sent to a unit: its fixed part, then its members. -/
def tableTo (dst : Nat) (g : Group) (d : Dev) : Dev :=
  let d := tell dst rqTable (reqBytes g.id g.gen 0 0 (leBytes 1 g.k ++ leBytes 1 g.m ++ leBytes 1 g.size ++ leBytes 1 g.fmax
    ++ leBytes 4 g.q ++ leBytes 4 g.seed ++ leBytes 2 g.slow ++ leBytes 2 g.media ++ leBytes 8 g.keeper)) d
  d.each g.members.zipIdx fun d e =>
    tell dst rqMember (reqBytes g.id g.gen e.2 0 (leBytes 8 e.1.unit ++ leBytes 4 e.1.maker ++ leBytes 4 e.1.disc
      ++ leBytes 4 e.1.base ++ leBytes 1 e.1.state)) d

/-- The chain addresses of a group's member units other than this one. -/
def Dev.memberAddrs (d : Dev) (g : Group) : List Nat :=
  ((g.members.filterMap fun m => if m.unit = d.serial then none else d.addrOf m.unit)).eraseDups

/-- The keeper hands its table to every member's unit. -/
def announce (gid : Nat) (d : Dev) : Dev :=
  match d.group gid with
  | some g => d.each (d.memberAddrs g) fun d a => tableTo a g d
  | none => d

/-- A member's state in a table. -/
def Group.setMember (g : Group) (j : Nat) (f : GroupMember → GroupMember) : Group := { g with members := g.members.modify j f }

/-- What a group write still needs of a member that has failed: its prepares have failed, its releases are over. -/
def memberGone (gid j : Nat) (d : Dev) : Dev :=
  let one := fun (s : Nat × Nat × Nat × PartState) =>
    if s.1 = j then (s.1, s.2.1, s.2.2.1, match s.2.2.2 with
      | .releasing => PartState.released
      | .released => .released
      | _ => .failed) else s
  let d := d.onComp fun c => { c with
    writes := c.writes.map fun w => if w.group == gid then { w with sheets := w.sheets.map one } else w }
  dropAsks (fun a => a.group == gid && a.member == j && (a.kind == rqPrepare || a.kind == rqRelease || a.kind == rqProbe)) d

/-- The keeper marks a member FAILED at a new generation, with its event and ATTN 4 (R569). -/
def memberFailed (gid j : Nat) (d : Dev) : Dev :=
  match d.group gid with
  | none => d
  | some g =>
    if !d.keeps g || g.mstate j == 2 then d
    else
      let d := tableChange gid (fun g => (g.setMember j fun m => { m with state := 2 })) d
      let d := d.onGroup gid fun g => if g.building = some j then { g with building := none } else g
      let d := (d.event { code := 0x5002, src := (d.addrOf (g.unitOf j)).getD 0xFF, who := j, data := leBytes 4 gid }).attn 4
      announce gid (memberGone gid j d)

/-- A failure reported to the keeper (R569). -/
def reportFailed (gid j : Nat) (d : Dev) : Dev :=
  match d.group gid with
  | none => d
  | some g =>
    if d.keeps g then memberFailed gid j d
    else match d.addrOf g.keeper with
      | some a => tell a rqFailed (reqBytes gid g.gen j 0 []) d
      | none => d

/-! Locks at the keeper (R568). -/

/-- The owner of a lock that a unit asked for. -/
def lockOwner (src tag : Nat) : Nat := 2 ^ 32 + 65536 * src + tag

/-- Locks that have come to their turn are granted. -/
def grantLocks (gid : Nat) (d : Dev) : Dev :=
  match d.group gid with
  | none => d
  | some g =>
    let now := g.locks.filter fun e => e.2.2.2.isSome && lockGranted g.locks e.1 e.2.2.1
    let mark := fun (e : Nat × Bool × Nat × Option (Nat × Nat)) => if now.contains e then (e.1, e.2.1, e.2.2.1, none) else e
    let d := d.onGroup gid fun g => { g with locks := g.locks.map mark }
    d.each now fun d e => match e.2.2.2 with
      | some t => respond t.1 t.2 0 0 [] d
      | none => d

/-- An owner's locks given back. -/
def freeLocks (gid owner : Nat) (d : Dev) : Dev :=
  grantLocks gid (d.onGroup gid fun g => { g with locks := g.locks.filter fun e => e.2.2.1 != owner })

/-! Accumulators (R561). -/

/-- PXE_STAT: accumulators in use and those held by rebuilds. -/
def pxeStat (d : Dev) : Dev :=
  let l := d.comp.acc.filter fun e => e.2.used
  (d.fs .PXE_STAT_ACC_USED l.length).fs .PXE_STAT_ACC_RB (l.filter fun e => e.2.rebuild).length

/-- Whether a write may take `n` accumulators, one for each sheet that it makes (R561). -/
def Dev.accRoom (d : Dev) (n : Nat) : Bool :=
  d.is .PXE_CTL_EN && decide (n ≤ ((List.range 32).filter fun i => !(sparseGet {} d.comp.acc i).used).length)

/-- The lowest free accumulator, while rebuilds hold fewer than 16 and the engine is enabled. -/
def Dev.freeAcc (d : Dev) (rebuild : Bool) : Option Nat :=
  let held := (d.comp.acc.filter fun e => e.2.used && e.2.rebuild).length
  if !d.is .PXE_CTL_EN || (rebuild && 16 ≤ held) then none
  else (List.range 32).find? fun i => !(sparseGet {} d.comp.acc i).used

/-- An accumulator set, or freed. -/
def setAcc (i : Nat) (a : Accum) (d : Dev) : Dev := pxeStat (d.onComp fun c => { c with acc := sparseSet {} c.acc i a })

/-- 256 bytes multiplied by a coefficient and added into an accumulator. -/
def accAdd (i coef at_ : Nat) (b : Bytes) (d : Dev) : Dev :=
  d.onComp fun c =>
    let a := sparseGet {} c.acc i
    { c with acc := sparseSet {} c.acc i { a with
        bytes := memWrite a.bytes at_ (sheetAdd (memRead a.bytes at_ b.length) (sheetTimes coef b)) } }

/-! Sheets of a stripe (R560, R572). -/

/-- A stripe job. -/
def Dev.job (d : Dev) (id : Nat) : Option StripeJob := d.comp.jobs.find? fun j => j.id == id

/-- The unit with `f` applied to a stripe job. -/
def Dev.onJob (d : Dev) (id : Nat) (f : StripeJob → StripeJob) : Dev :=
  d.onComp fun c => { c with jobs := c.jobs.map fun j => if j.id == id then f j else j }

/-- A stripe job added, with its sheet's buffer space. -/
def addJob (j : StripeJob) (d : Dev) : Dev :=
  let r := d.alloc 131072
  r.2.onComp fun c => { c with jobs := c.jobs ++ [{ j with id := c.nextJob, addr := r.1 }], nextJob := c.nextJob + 1 }

/-- The job that holds the lock for all jobs of its command and stripe. -/
def Dev.lockJob (d : Dev) (j : StripeJob) : StripeJob :=
  (d.comp.jobs.find? fun i => i.cmd == j.cmd && i.group == j.group && i.stripe == j.stripe).getD j

/-- A job's requests taken back, its accumulator freed, so that it starts again. -/
def jobRestart (id : Nat) (d : Dev) : Dev :=
  match d.job id with
  | none => d
  | some j =>
    let d := dropAsks (fun a => a.job == id && a.kind == rqRead) d
    let d := match j.acc with
      | some i => setAcc i {} d
      | none => d
    d.onJob id fun j => { j with acc := none, waits := [] }

/-- A job's lock given back. -/
def jobUnlock (id : Nat) (d : Dev) : Dev :=
  match d.job id with
  | none => d
  | some j =>
    match d.group j.group with
    | none => d
    | some g =>
      if j.lock != 2 && j.lock != 1 then d
      else
        let d := (dropAsks (fun a => a.kind == rqLock && a.tag == j.lockTag) d).onJob id fun j => { j with lock := 3 }
        match d.addrOf g.keeper with
        | some a => tell a rqUnlock (reqBytes g.id g.gen j.lockTag j.stripe []) d
        | none => d

/-- The stripe's lock given back once every job of a command on it is over. -/
def stripeOver (j : StripeJob) (d : Dev) : Dev :=
  let mine := d.comp.jobs.filter fun i => i.cmd == j.cmd && i.group == j.group && i.stripe == j.stripe
  d.cond (j.cmd != 0 && mine.all fun i => i.res.isSome) fun d => jobUnlock (d.lockJob j).id d

/-- A job over, with what it earned. -/
def jobEnd (id cls detail : Nat) (d : Dev) : Dev :=
  match d.job id with
  | none => d
  | some j => stripeOver j (d.onJob id fun j => { j with res := some (cls, detail) })

/-- The lock of a stripe asked for from its keeper; a read of a stripe whose keeper cannot be reached goes on without
(R568). -/
def askLock (j : StripeJob) (g : Group) (d : Dev) : Dev :=
  let reach := (d.addrOf g.keeper).elim false fun a => a == d.addr || (d.route a).isSome
  if !reach then d.cond (j.cmd != 0) fun d => d.onJob j.id fun j => { j with lock := 3 }
  else
    let t := d.link.tag
    newAsk { kind := rqLock, group := g.id, member := 0xFF, serial := g.keeper, job := j.id, cmd := j.cmd
             payload := reqBytes g.id g.gen (bit (j.cmd == 0)) j.stripe [] } none
      (d.onJob j.id fun j => { j with lock := 1, lockTag := t })

/-- A sheet of a stripe asked for from its member. -/
def askSheet (j : StripeJob) (g : Group) (slot : Nat) (t : Transfer) (d : Dev) : Dev :=
  let m := g.memberAt j.stripe slot
  newAsk { kind := rqRead, group := g.id, member := m, serial := g.unitOf m, job := j.id, cmd := j.cmd, slot := slot
           payload := reqBytes g.id g.gen 0 (g.lsnAt j.stripe slot) [] } (some t) d

/-- The next step of a stripe job: its lock, its sheet from its member, or k other sheets of the stripe from the live members
of lowest slot number (R560, R572, R574). -/
def jobStep (id : Nat) (d : Dev) : Dev :=
  match d.job id with
  | none => d
  | some j =>
    match d.group j.group with
    | none => jobEnd id 4 1 d
    | some g =>
      let lead := if j.cmd = 0 then j else d.lockJob j
      if j.res.isSome || !j.waits.isEmpty then d
      else if lead.lock = 0 then askLock lead g d
      else if lead.lock = 1 then d
      else
        let live := fun (r : Nat) => g.mstate (g.memberAt j.stripe r) == 0 && !j.bad.contains r
        if !j.make && live j.slot then
          askSheet j g j.slot { addr := some j.addr } (d.onJob id fun j => { j with waits := [j.slot] })
        else
          let use := ((List.range g.width).filter fun r => r != j.slot && live r).take g.k
          if use.length < g.k then jobEnd id 4 1 d
          else match d.freeAcc (j.cmd == 0) with
            | none => d
            | some a =>
              let d := setAcc a { used := true, rebuild := j.cmd == 0 } d
              let d := d.onJob id fun j => { j with make := true, acc := some a, waits := use }
              d.each (use.zip (rebuildCoefs g.k use j.slot)) fun d e => askSheet j g e.1 { add := some (a, e.2) } d

/-- A sheet that a job waits for is here in full, and its answer too. -/
def jobArrived (a : GroupAsk) (d : Dev) : Dev :=
  match d.job a.job with
  | none => d
  | some j =>
    let d := d.onJob j.id fun j => { j with waits := j.waits.filter (· != a.slot) }
    match j.acc with
    | none => jobEnd j.id (a.good.elim 0 (·.1)) (a.good.elim 0 (·.2)) d
    | some i =>
      let d := d.bump .PXE_CNT_SHEET
      if j.waits.all (· == a.slot) then
        let b := memRead (sparseGet {} d.comp.acc i).bytes 0 131072
        let d := setAcc i {} (d.bufPut 9 j.addr b)
        let d := ((d.bump .PXE_CNT_STRIPE).bump .PXE_CNT_REBUILT).onJob j.id fun j => { j with acc := none }
        jobEnd j.id 1 3 d
      else d

/-- A read that is answered and whose data is complete is settled. -/
def settleRead (tag : Nat) (d : Dev) : Dev :=
  match d.comp.asks.find? fun a => a.tag == tag && a.kind == rqRead && a.good.isSome with
  | none => d
  | some a =>
    if d.comp.transfers.any fun t => t.src == 64 && t.tag == tag && t.got < 131072 then d
    else jobArrived a (dropAsks (fun x => x.tag == tag) d)

/-- A sheet that a member cannot deliver: the job starts again without it (R560, R572). -/
def jobLacks (id slot : Nat) (d : Dev) : Dev :=
  (jobRestart id d).onJob id fun j => { j with make := true, bad := slot :: j.bad }

/-- The jobs of a command dropped, their locks given back. -/
def dropJobs (cmd : Nat) (d : Dev) : Dev :=
  let mine := (d.comp.jobs.filter fun j => j.cmd == cmd).map (·.id)
  let d := d.each mine fun d i => jobUnlock i (jobRestart i d)
  d.onComp fun c => { c with jobs := c.jobs.filter fun j => j.cmd != cmd }

end Sys2Proof.Machine
end

