-- ==== Sys2Proof/Machine/Groups.lean ====
section
/-!
DEFINITION. Group writes at their keeper, group commands at a member, rebuilds, and what unit requests, responses and data do
(18_parity_and_fixity.md R562 to R575, 17_quire_link.md R537).
-/

namespace Sys2Proof.Machine

/-! A group write at the keeper (R565, R566, R568, R570). -/

/-- The unit with `f` applied to a group write. -/
def Dev.onWrite (d : Dev) (gid n : Nat) (f : GroupWrite → GroupWrite) : Dev :=
  d.onComp fun c => { c with writes := c.writes.map fun w => if w.group == gid && w.n == n then f w else w }

/-- Data slots of a stripe that a write covers, with the buffer addresses of their new sheets. -/
def GroupWrite.covers (w : GroupWrite) (g : Group) (s : Nat) : List (Nat × Nat) :=
  (List.range g.k).filterMap fun i => (w.data.find? fun e => e.1 == s * g.k + i).map fun e => (i, e.2)

/-- The slots of a stripe whose old sheets a write needs (R565): none for a full stripe; the data slots it leaves unchanged
on Class W; the changed data slots and the parity slots on Class E. -/
def GroupWrite.olds (w : GroupWrite) (g : Group) (s : Nat) : List Nat :=
  let new := (w.covers g s).map (·.1)
  if new.length = g.k then []
  else if g.media = 1 then new ++ (List.range g.m).map (g.k + ·)
  else (List.range g.k).filter fun i => !new.contains i

/-- Two sheets in the buffer, one multiplied by a coefficient, added; the PXE counts the sheet. -/
def addSheet (acc : Bytes) (coef addr : Nat) (d : Dev) : Bytes × Dev :=
  let g := d.bufGet 9 addr 131072
  (sheetAdd acc (sheetTimes coef g.1), g.2.bump .PXE_CNT_SHEET)

/-- A parity sheet made of sheets in the buffer with their coefficients, put into the buffer. -/
def makeParity (base : Option Nat) (l : List (Nat × Nat)) (d : Dev) : Nat × Dev :=
  let start : Bytes × Dev := match base with
    | some a => d.bufGet 9 a 131072
    | none => (List.replicate 131072 0#8, d)
  let r := l.foldl (fun (x : Bytes × Dev) e => addSheet x.1 e.1 e.2 x.2) start
  let a := r.2.alloc 131072
  (a.1, a.2.bufPut 9 a.1 r.1)

/-- The new sheets of a stripe, as slots and buffer addresses (R565). -/
def newSheets (w : GroupWrite) (g : Group) (s : Nat) (d : Dev) : List (Nat × Nat) × Dev :=
  let new := w.covers g s
  let old := fun (r : Nat) => ((d.comp.jobs.find? fun j => j.cmd == w.cmd && j.stripe == s && j.slot == r).map (·.addr)).getD 0
  let coef := fun (t i : Nat) => cauchy t i
  let one := fun (x : List (Nat × Nat) × Dev) (t : Nat) =>
    if g.media = 1 && new.length != g.k then
      let r := makeParity (some (old (g.k + t))) (new.flatMap fun e => [(coef t e.1, e.2), (coef t e.1, old e.1)]) x.2
      (x.1 ++ [(g.k + t, r.1)], r.2)
    else
      let all := (List.range g.k).map fun i => ((new.find? fun e => e.1 == i).map (·.2)).getD (old i)
      let r := makeParity none (all.zipIdx.map fun (e : Nat × Nat) => (coef t e.2, e.1)) x.2
      (x.1 ++ [(g.k + t, r.1)], r.2)
  let keep := (List.range g.k).filterMap fun i => match new.find? fun e => e.1 == i with
    | some e => some (i, e.2)
    | none => if g.media = 1 then none else some (i, old i)
  let r := (List.range g.m).foldl one (keep, d)
  (r.1, r.2.bump .PXE_CNT_STRIPE)

/-- The sheets of a stripe sent to their members to prepare: those ONLINE and the one BUILDING (R566, R574). -/
def prepareStripe (w : GroupWrite) (g : Group) (s : Nat) (d : Dev) : Dev :=
  let r := newSheets w g s d
  r.2.each r.1 fun d e =>
    let j := g.memberAt s e.1
    let lsn := g.lsnAt s e.1
    if g.mstate j != 0 && g.mstate j != 3 then d
    else
      let d := d.onWrite w.group w.n fun w => { w with sheets := w.sheets ++ [(j, lsn, e.2, .preparing)] }
      newAsk { kind := rqPrepare, group := g.id, member := j, serial := g.unitOf j, addr := some e.2, job := 0, slot := lsn
               payload := reqBytes g.id g.gen w.n lsn [] } none d

/-- The write record of a group write changed. -/
def onGroupRec (w : GroupWrite) (f : WriteRec → Option WriteRec) (d : Dev) : Dev :=
  d.each (List.range 16) fun d s => d.cond ((d.stream s).writes.any fun r => r.group.isSome && r.cmd == w.cmd) fun d =>
    d.onStream s fun t => { t with writes := t.writes.filterMap fun r => if r.group.isSome && r.cmd == w.cmd then f r else some r }

/-- The members that a write's sheets went to, by how far they came. -/
def GroupWrite.members (w : GroupWrite) (p : PartState → Bool) : List Nat :=
  ((w.sheets.filter fun s => p s.2.2.2).map (·.1)).eraseDups

/-- The sequences of the pending commands of a group at this unit. -/
def Dev.pendingOf (d : Dev) (gid : Nat) : List Nat :=
  ((d.comp.parts.filter fun p => p.group == gid).map (·.n)).eraseDups

/-- A group write over: its prepared sheets void where there is no decision, its locks free. -/
def gwEnd (w : GroupWrite) (d : Dev) : Dev :=
  let d := dropJobs w.cmd (dropAsks (fun a => a.group == w.group && a.kind == rqPrepare && le a.payload 8 4 == w.n) d)
  let d := match d.group w.group with
    | some g =>
      if w.decided == some true then d
      else d.each (w.members fun _ => true) fun d j => match d.addrOf (g.unitOf j) with
        | some a => tell a rqVoid (reqBytes g.id g.gen w.n 0 []) d
        | none => d
    | none => d
  let d := d.onComp fun c => { c with writes := c.writes.filter fun x => !(x.group == w.group && x.n == w.n) }
  freeLocks w.group w.n d

/-- A write that cannot be made durable: no decision; the keeper's stream breaks with DETAIL 0x03 (R570). -/
def gwFail (w : GroupWrite) (d : Dev) : Dev :=
  gwEnd w (onGroupRec w (fun r => some { r with intent := true, dead := true }) d)

/-- An ORDER record of a group stream that is submitted and not yet written. -/
def Dev.orderQueued (d : Dev) (stream n : Nat) : Bool :=
  let l := d.journal.queue ++ d.journal.waiting ++ d.journal.held
  l.any fun s => recordType s.bytes == 0x08 && le (recordPayload s.bytes) 0 1 == stream && le (recordPayload s.bytes) 1 4 == n

/-- Whether an ORDER record submitted is durable. -/
def Dev.orderDone (d : Dev) (stream n : Nat) : Bool := !d.is .RJ_STAT_FAILED && !d.orderQueued stream n

/-- A decision that has become durable: RELEASE to the members, and the reply's CLASS, DETAIL and results (R566, R570). -/
def gwRelease (w : GroupWrite) (g : Group) (d : Dev) : Dev :=
  let live := w.members (· == .prepared)
  let touched := (w.stripes.flatMap g.stripeMembers).eraseDups
  let lost := (touched.filter fun j => g.mstate j == 2).length
  let d := d.onWrite w.group w.n fun w => { w with
    phase := 4, sheets := w.sheets.map fun s => if s.2.2.2 = .prepared then (s.1, s.2.1, s.2.2.1, .releasing) else s }
  let d := onGroupRec w (fun r => some { r with intent := true }) d
  let cls := if lost = 0 then (0, 0) else (1, 4)
  let d := d.onCmd w.cmd fun c => { c with
    cls := cls.1, detail := cls.2, r0 := w.gen, r1 := live.length % 256 + lost % 256 * 256 }
  d.each live fun d j =>
    newAsk { kind := rqRelease, group := g.id, member := j, serial := g.unitOf j
             payload := reqBytes g.id g.gen w.n 0 [] } none d

/-- The next step of a group write: its data and locks, its old sheets, its new ones; after the decision, its releases. An old sheet
that no k sheets of its stripe give ends the command, before any INTENT, with CLASS 4 and no effect (R498, R572); DESIGN CHOICE
(notes/assumptions/145.md). -/
def gwStep (gid n : Nat) (d : Dev) : Dev :=
  match d.comp.writes.find? (fun w => w.group == gid && w.n == n), d.group gid with
  | some w, some g =>
    if w.decided == none && !d.running.any (fun c => c.id == w.cmd) then
      gwEnd w (onGroupRec w (fun _ => none) d)
    else match w.phase with
      | 0 =>
        if w.data.isEmpty || !w.stripes.all (fun s => lockGranted g.locks s w.n) then d
        else
          let d := d.each w.stripes fun d s => d.each (w.olds g s) fun d r =>
            addJob { group := gid, stripe := s, slot := r, cmd := w.cmd, lock := 3 } d
          d.onWrite gid n fun w => { w with phase := 1 }
      | 1 =>
        let mine := d.comp.jobs.filter fun j => j.cmd == w.cmd
        if mine.any fun j => j.res.isNone then d.each mine fun d j => jobStep j.id d
        else if mine.any fun j => j.res.any fun r => 2 ≤ r.1 then gwEnd w (onGroupRec w (fun _ => none) (d.endCmd w.cmd 4 1))
        else if !d.accRoom g.m then d
        else dropJobs w.cmd (d.each w.stripes (fun d s => prepareStripe w g s d) |>.onWrite gid n fun w => { w with phase := 2 })
      | 3 => d.cond (d.orderDone g.stream n) (gwRelease w g)
      | 4 =>
        d.cond (w.sheets.all fun s => s.2.2.2 == .released || s.2.2.2 == .failed) (gwEnd w)
      | _ => d
  | _, _ => d

/-- GROUP_DECISION: the last needed member has prepared or failed (R570). -/
def groupDecision (gid n : Nat) (d : Dev) : Dev :=
  match d.comp.writes.find? (fun w => w.group == gid && w.n == n), d.group gid with
  | some w, some g =>
    if w.phase != 2 || w.sheets.any (fun s => s.2.2.2 == .preparing) then d
    else if w.stripes.any fun s => g.fmax < g.failedIn s then gwFail w d
    else
      let d := d.fwSubmit false 0x08 0 (leBytes 1 g.stream ++ leBytes 4 n ++ leBytes 4 g.gen)
      d.onWrite gid n fun w => { w with phase := 3, decided := some true, gen := g.gen }
  | _, _ => d

/-! A group command at a member (R566, R567, R571). -/

/-- The unit with `f` applied to the parts of a write. -/
def Dev.onPart (d : Dev) (gid n lsn : Nat) (f : GroupPart → GroupPart) : Dev :=
  d.onComp fun c => { c with parts := c.parts.map fun p => if p.group == gid && p.n == n && p.lsn == lsn then f p else p }

/-- A version of a group stream: admitted, its INTENT submitted, and placed (R566). -/
def groupVersion (stream n lsn addr : Nat) (d : Dev) : Nat × Dev :=
  let o := d.fw.nextOrder
  let v : Version := { order := o, lsn := lsn, stream := stream, ssq := n, addr := addr, stage := .admitted }
  let w : WriteRec := { ssq := n, lsn := lsn, count := 1, fua := true, addr := addr, order := o }
  let d := d.onFw fun f => { f with versions := f.versions ++ [v], nextOrder := o + 1 }
  let d := d.onStream stream fun t => { t with writes := t.writes ++ [w] }
  let d := d.fwSubmit false 0x01 0 (leBytes 1 stream ++ leBytes 4 n ++ leBytes 4 lsn ++ leBytes 4 1 ++ leBytes 8 addr)
  (o, recordWork d)

/-- The write records of a command of a group stream dropped. -/
def dropGroupRecs (stream n : Nat) (d : Dev) : Dev :=
  d.onStream stream fun t => { t with writes := t.writes.filter fun w => w.ssq != n }

/-- A group command void at this unit: its versions withdrawn (R567, R571). -/
def voidPart (g : Group) (n : Nat) (d : Dev) : Dev :=
  let mine := d.comp.parts.filter fun p => p.group == g.id && p.n == n
  let d := d.each (mine.filterMap (·.order)) fun d o => withdrawVersion o d
  let d := d.onComp fun c => { c with
    parts := c.parts.filter fun p => !(p.group == g.id && p.n == n)
    transfers := c.transfers.filter fun t => !mine.any fun p => t.src == p.from_ && t.tag == p.tag }
  dropVersions (dropGroupRecs g.stream n d)

/-- A group command released at this unit: its ORDER record submitted; the map changes once that is durable (R566). -/
def releasePart (g : Group) (n : Nat) (answer : Option (Nat × Nat)) (d : Dev) : Dev :=
  let mine := d.comp.parts.filter fun p => p.group == g.id && p.n == n
  if mine.isEmpty then
    match answer with
    | some a => respond a.1 a.2 0 0 [] d
    | none => d
  else
    let new := mine.any fun p => p.release.isNone
    let d := d.cond new fun d => d.fwSubmit false 0x08 0 (leBytes 1 g.stream ++ leBytes 4 n ++ leBytes 4 g.gen)
    d.onComp fun c => { c with parts := c.parts.map fun p =>
      if p.group == g.id && p.n == n then { p with release := some answer } else p }

/-- The next step of one part: "prepared" or its failure answered; the release carried out (R566). -/
def partStep (p : GroupPart) (d : Dev) : Dev :=
  match d.group p.group, p.order.bind d.version with
  | some g, some v =>
    match p.release with
    | some answer =>
      if !d.orderDone g.stream p.n then d
      else
        let d := mapVersion v d
        let d := d.onComp fun c => { c with parts := c.parts.filter fun x => !(x.group == p.group && x.n == p.n && x.lsn == p.lsn) }
        if d.comp.parts.any fun x => x.group == p.group && x.n == p.n then dropVersions d
        else
          let d := dropVersions (dropGroupRecs g.stream p.n d)
          match answer with
          | some a => respond a.1 a.2 0 0 [] d
          | none => d
    | none =>
      if p.answered then d
      else if v.stage = .committed then
        respond p.from_ p.tag 0 0 [] (d.onPart p.group p.n p.lsn fun p => { p with answered := true })
      else if v.stage = .failed || (v.stage = .admitted && d.takers.isEmpty) then respond p.from_ p.tag 4 (if d.takers.isEmpty then 8 else 6) [] (voidPart g p.n d)
      else d
  | _, _ => d

/-! Reads for other units (R572). -/

/-- A read of one sheet for another unit begins: an internal command bound to the sheet. -/
def serveRead (src tag : Nat) (lsn : Nat) (d : Dev) : Dev :=
  let id := d.fw.nextCmd
  let b := d.bindOne 255 lsn d.fw.nextOrder
  let c : Cmd := { id := id, stream := 255, ssq := 1, bytes := [BitVec.ofNat 8 opServe], binds := [b] }
  (markSeen [b] (d.onFw fun w => { w with cmds := w.cmds ++ [c], nextCmd := id + 1 })).onComp fun c => { c with
    served := c.served ++ [(id, src, tag)] }

/-- The reads for other units that are over: their answers, and the sheets. -/
def serveStep (d : Dev) : Dev :=
  d.each d.comp.served fun d e =>
    match d.cmd e.1 with
    | none => d.onComp fun c => { c with served := c.served.filter (· != e) }
    | some c =>
      let past := c.stage == .ended || d.bindsDone c
      if !past then d
      else
        let r := if c.stage = .ended then (c.cls, c.detail) else ((c.binds.head?.bind (·.result)).getD (4, 1))
        let data := boundData (c.binds.headD {}) d
        let d := data.2.onComp fun c => { c with served := c.served.filter (· != e) }
        let d := respond e.2.1 e.2.2 r.1 r.2 [] d
        let d := if r.1 ≤ 1 then
            d.each (List.range 512) fun d i =>
              sendMsg { type := 0x22, dst := e.2.1, cls := 3, tag := e.2.2, epoch := d.epoch, arg := i
                        payload := (data.1.drop (256 * i)).take 256 } d
          else d
        let d := d.onFw fun w => { w with cmds := w.cmds.filter (fun x => x.id != e.1), ended := w.ended.filter (· != e.1) }
        dropVersions d

/-! Rebuild at the target (R574, R575). -/

/-- The sequence by which a rebuilt sheet stands on the group stream. DESIGN CHOICE (notes/assumptions/45.md). -/
def rebuildSeq (g : Group) (s r : Nat) : Nat := 2 ^ 31 + (s / g.size * g.width + r) % 2 ^ 31

/-- New stripes taken up, in ascending order, with up to 16 open. -/
def openStripes (gid j : Nat) : Nat → Dev → Dev
  | 0, d => d
  | n + 1, d =>
    match d.group gid with
    | none => d
    | some g =>
      let open_ := (d.comp.jobs.filter fun x => x.cmd == 0 && x.group == gid).length
      if 16 ≤ open_ || g.stripes ≤ g.nextStripe then d
      else
        let s := g.nextStripe
        let d := d.onGroup gid fun g => { g with nextStripe := s + 1 }
        let d := match (g.stripeMembers s).idxOf? j with
          | some r => addJob { group := gid, stripe := s, slot := r, make := true } d
          | none => d
        openStripes gid j n d

/-- A stripe of a rebuild over: its lock free, the progress reported. -/
def stripeDone (gid id : Nat) (d : Dev) : Dev :=
  let d := (jobUnlock id d).onComp fun c => { c with jobs := c.jobs.filter fun j => j.id != id }
  let d := d.onGroup gid fun g => { g with done := g.done + 1 }
  match d.group gid with
  | none => d
  | some g => match d.addrOf g.keeper with
    | some a => tell a rqDone (reqBytes gid g.gen g.done 0 []) d
    | none => d

/-- The next step of one stripe of a rebuild. -/
def rebuildJob (g : Group) (j : StripeJob) (d : Dev) : Dev :=
  match j.res, j.order with
  | none, _ => jobStep j.id d
  | some (c, _), none =>
    if 2 ≤ c then
      let d := match d.addrOf g.keeper with
        | some a => tell a rqLost (reqBytes g.id g.gen 0 j.stripe []) d
        | none => d
      stripeDone g.id j.id d
    else
      let r := groupVersion g.stream (rebuildSeq g j.stripe j.slot) (g.lsnAt j.stripe j.slot) j.addr d
      r.2.onJob j.id fun j => { j with order := some r.1 }
  | some _, some o =>
    let n := rebuildSeq g j.stripe j.slot
    match d.version o with
    | none => d
    | some v =>
      if v.stage = .failed then
        let d := d.cond (g.building.isSome) fun d => reportFailed g.id (g.building.getD 0) d
        dropVersions (withdrawVersion o (dropGroupRecs g.stream n (stripeDone g.id j.id d)))
      else if v.stage != .committed then d
      else if !j.released then
        (d.fwSubmit false 0x08 0 (leBytes 1 g.stream ++ leBytes 4 n ++ leBytes 4 g.gen)).onJob j.id fun j => { j with released := true }
      else if !d.orderDone g.stream n then d
      else stripeDone g.id j.id (dropVersions (dropGroupRecs g.stream n (mapVersion v d)))

/-- REBUILD_STRIPE: the rebuild target takes up stripes and brings each a step further (R574). -/
def rebuildStripe (gid : Nat) (d : Dev) : Dev :=
  match d.group gid with
  | none => d
  | some g =>
    match g.building with
    | none => d
    | some j =>
      if d.myMember g != some j || g.mstate j != 3 then d
      else
        let d := openStripes gid j (4 * g.size) (recordWork d)
        d.each (d.comp.jobs.filter fun x => x.cmd == 0 && x.group == gid) fun d x => rebuildJob g x d

/-- REBUILD_COMPLETE: progress reported to the keeper; with every stripe done the slot is ONLINE at a new generation (R575). -/
def rebuildProgress (gid done : Nat) (d : Dev) : Dev :=
  match d.group gid with
  | none => d
  | some g =>
    match g.building with
    | none => d
    | some j =>
      let d := d.onGroup gid fun g => { g with done := done }
      if done < g.q * g.width || !d.keeps g then d
      else
        let d := tableChange gid (fun g => { (g.setMember j fun m => { m with state := 0 }) with building := none }) d
        announce gid d

/-! What moves on without a message. -/

/-- Everything of groups that can take a step at this unit does. -/
def groupWork (d : Dev) : Dev :=
  let d := d.cond (d.fw.cmds.any fun c => c.opcode == opServe && c.stage == .running) readStep
  let d := d.each (d.comp.jobs.filter fun j => j.cmd != 0) fun d j => jobStep j.id d
  let d := d.each d.comp.writes fun d w => gwStep w.group w.n d
  let d := d.cond (!d.comp.parts.isEmpty) fun d =>
    recordWork (d.cond (d.comp.parts.any fun p => !p.answered) bringUp)
  serveStep (d.each d.comp.parts fun d p => partStep p d)

/-! Facts about a disc (R553, R554, R556, R573). -/

/-- The member regions that groups hold on a disc, as first LSN and length. -/
def Dev.regions (d : Dev) (maker disc : Nat) : List (Nat × Nat) :=
  d.comp.groups.flatMap fun g => g.members.filterMap fun m =>
    if m.maker == maker && m.disc == disc then some (m.base, g.q * g.width) else none

/-- Whether an LSN has ever been written on the loaded disc, as the map, owed versions and ambiguous LSNs show it. -/
def Dev.everWritten (d : Dev) : List Nat := d.fw.map.map (·.1) ++ d.fw.versions.map (·.lsn) ++ d.fw.ambiguous

/-- Whether a range of LSNs of the loaded disc may become a member region: below C, never written, in no region. -/
def Dev.rangeFree (d : Dev) (base len : Nat) : Bool :=
  let x := d.fw.disc
  decide (base + len ≤ d.capacity) && d.everWritten.all (fun l => l < base || base + len ≤ l)
    && (d.regions x.maker x.serial).all fun r => r.1 + r.2 ≤ base || base + len ≤ r.1

/-- Whether this unit may take part in a new group with a region of its disc. -/
def Dev.factsOk (d : Dev) (maker disc base len : Nat) : Bool :=
  let x := d.fw.disc
  x.loaded && x.maker == maker && x.serial == disc && d.rangeFree base len
    && (d.regions maker disc).length < 16 && d.comp.groups.length < 80

/-- The lowest free range of a length on the loaded disc. -/
def Dev.lowestFree (d : Dev) (len : Nat) : Option Nat :=
  let x := d.fw.disc
  let starts := 0 :: (d.everWritten.map (· + 1) ++ (d.regions x.maker x.serial).map fun r => r.1 + r.2)
  (starts.filter fun b => d.rangeFree b len).foldl (fun r b => match r with
    | none => some b
    | some a => some (if b < a then b else a)) none

/-! Unit requests (R537, R556, R562 to R575). -/

/-- A table's fixed part taken: a group that is not yet held gets the lowest local index (R566). -/
def takeTable (p : Bytes) (d : Dev) : Dev :=
  let id := le p 0 4
  let e := p.drop 16
  let set := fun (g : Group) => { g with
    gen := le p 4 4, k := le e 0 1, m := le e 1 1, fmax := le e 3 1, q := le e 4 4, seed := le e 8 4, slow := le e 12 2
    media := le e 14 2, keeper := le e 16 8, members := takeFill {} (le e 2 1) g.members }
  match d.group id with
  | some g => if g.gen = le p 4 4 || genLater (le p 4 4) g.gen then d.onGroup id set else d
  | none => d.onComp fun c => { c with groups := c.groups ++ [set { id := id, index := d.freeIndex }] }

/-- One member of a table taken; a unit whose own member has become FAILED voids every pending command of the group (R571),
and a rebuild of a slot that is no longer BUILDING ends. -/
def takeMember (p : Bytes) (d : Dev) : Dev :=
  let id := le p 0 4
  let j := le p 8 4
  let e := p.drop 16
  let m : GroupMember := { unit := le e 0 8, maker := le e 8 4, disc := le e 12 4, base := le e 16 4, state := le e 20 1 }
  match d.group id with
  | none => d
  | some g =>
    if g.gen != le p 4 4 then d
    else
      let d := d.onGroup id fun g => g.setMember j fun _ => m
      let d := d.onGroup id fun g => if m.state = 3 then { g with building := some j }
        else if g.building = some j then { g with building := none } else g
      let ended := g.building == some j && m.state != 3
      let d := d.cond ended fun d =>
        d.each (d.comp.jobs.filter fun x => x.cmd == 0 && x.group == id) fun d x =>
          (jobUnlock x.id (jobRestart x.id d)).onComp fun c => { c with jobs := c.jobs.filter fun y => y.id != x.id }
      let mine := m.state = 2 && m.unit = d.serial && m.disc = d.fw.disc.serial && m.maker = d.fw.disc.maker
      if !mine then d
      else d.each (d.pendingOf id) fun d n => voidPart g n d

/-- A sheet to prepare: its part, and the transfer of its data (R566). -/
def takePrepare (m : QMsg) (g : Group) (d : Dev) : Dev :=
  let n := le m.payload 8 4
  let lsn := le m.payload 12 4
  let bad : Option (Nat × Nat) :=
    if d.is .RJ_STAT_FAILED then some (9, 1)
    else if d.mode = 7 then some (10, d.fw.frozen)
    else if !d.fw.disc.loaded then some (3, 0x12)
    else if d.fw.disc.readOnly then some (3, 0x13)
    else if d.fw.spnWithdrawn then some (6, 2)
    else if d.mode = 6 then some (3, 9)
    else if d.frost then some (2, 6)
    else none
  match bad with
  | some v => respond m.src m.tag v.1 v.2 [] d
  | none =>
    let d := d.onComp fun c => { c with
      parts := c.parts.filter fun p => !(p.group == g.id && p.n == n && p.lsn == lsn && p.order.isNone)
      transfers := c.transfers.filter fun t => !(t.src == m.src && t.tag == m.tag) }
    match d.comp.parts.find? fun p => p.group == g.id && p.n == n && p.lsn == lsn with
    | some _ => d.onPart g.id n lsn fun p => { p with from_ := m.src, tag := m.tag, answered := false }
    | none =>
      let r := d.alloc 131072
      r.2.onComp fun c => { c with
        parts := c.parts ++ [{ group := g.id, n := n, lsn := lsn, from_ := m.src, tag := m.tag }]
        transfers := c.transfers ++ [{ tag := m.tag, src := m.src, addr := some r.1 }] }

/-- The keeper's decision for n (R567): payload 1 a decision exists, 2 the write is in progress, 0 neither. -/
def decisionOf (g : Group) (n : Nat) (d : Dev) : Nat :=
  let done := d.bySeq.any fun b =>
    recordType b == 0x08 && le (recordPayload b) 0 1 == g.stream && le (recordPayload b) 1 4 == n
  if done && !d.orderQueued g.stream n then 1
  else if d.comp.writes.any fun w => w.group == g.id && w.n == n then 2 else 0

/-- A disc loaded somewhere in the ring (R563): at a keeper its member comes ONLINE there at a new generation. -/
def discLoadedAt (maker disc serial : Nat) (d : Dev) : Dev :=
  d.each d.comp.groups fun d g =>
    if !d.keeps g then d
    else match g.members.findIdx? fun m => m.maker == maker && m.disc == disc with
      | none => d
      | some j =>
        let m := g.members.getD j {}
        let st := if m.state = 1 then 0 else m.state
        if st = m.state && m.unit = serial then announce g.id d
        else announce g.id (tableChange g.id (fun g => g.setMember j fun m => { m with unit := serial, state := st }) d)

/-- A member disc unloaded cleanly (R563): OFFLINE at a new generation. -/
def discUnloadedAt (maker disc : Nat) (d : Dev) : Dev :=
  d.each d.comp.groups fun d g =>
    if !d.keeps g then d
    else match g.members.findIdx? fun m => m.maker == maker && m.disc == disc && m.state == 0 with
      | none => d
      | some j => announce g.id (tableChange g.id (fun g => g.setMember j fun m => { m with state := 1 }) d)

/-- A group that has ended at this unit (R577). -/
def dropGroup (gid : Nat) (d : Dev) : Dev :=
  match d.group gid with
  | none => d
  | some g =>
    let d := d.each (d.pendingOf gid) fun d n => voidPart g n d
    let d := dropAsks (fun a => a.group == gid) d
    let d := d.each (d.comp.jobs.filter fun x => x.cmd == 0 && x.group == gid) fun d x =>
      (jobRestart x.id d).onComp fun c => { c with jobs := c.jobs.filter fun y => y.id != x.id }
    (d.onComp fun c => { c with groups := c.groups.filter fun x => x.id != gid }).onStream g.stream fun _ => {}

/-- Kinds of requests about a group that the unit must hold. -/
def aboutGroup (kind : Nat) : Bool :=
  [rqPrepare, rqRelease, rqVoid, rqRead, rqLock, rqUnlock, rqDecision, rqFailed, rqBuild, rqDone, rqLost].contains kind

/-- A unit request acted on, its epoch and generation being current. -/
def actRequest (m : QMsg) (d : Dev) : Dev :=
  let p := m.payload
  let id := le p 0 4
  let n := le p 8 4
  let x := p.drop 16
  let k := m.arg
  let ok := fun (d : Dev) => respond m.src m.tag 0 0 [] d
  if k = rqProbe then ok d
  else if k = rqFacts then
    if d.factsOk (le x 0 4) (le x 4 4) (le x 8 4) (le x 12 4) then respond m.src m.tag 0 0 (leBytes 1 d.fw.disc.mediaClass) d
    else respond m.src m.tag 3 0x11 [] d
  else if k = rqSpare then
    let f := d.fw.disc
    match (if f.loaded then d.lowestFree (le x 0 4) else none) with
    | some b => respond m.src m.tag 0 0 (leBytes 1 f.mediaClass ++ leBytes 3 0 ++ leBytes 4 f.maker ++ leBytes 4 f.serial
        ++ leBytes 4 b) d
    | none => respond m.src m.tag 3 0x11 [] d
  else if k = rqTable then ok (takeTable p d)
  else if k = rqMember then ok (takeMember p d)
  else if k = rqLoaded then ok (discLoadedAt (le x 0 4) (le x 4 4) (le x 8 8) d)
  else if k = rqUnloaded then ok (discUnloadedAt (le x 0 4) (le x 4 4) d)
  else if k = rqEnd then ok (dropGroup id d)
  else if k = rqFlush then ok d
  else match d.group id with
    | none => respond m.src m.tag 3 0x10 [] d
    | some g =>
      if k = rqPrepare then takePrepare m g d
      else if k = rqRelease then releasePart g n (some (m.src, m.tag)) d
      else if k = rqVoid then ok (voidPart g n d)
      else if k = rqRead then
        if !d.fw.disc.loaded || (d.myMember g).isNone then respond m.src m.tag 3 0x12 [] d
        else serveRead m.src m.tag (le p 12 4) d
      else if k = rqLock then
        let own := lockOwner m.src m.tag
        grantLocks id (d.onGroup id fun g => { g with
          locks := g.locks ++ [(le p 12 4, n == 1, own, some (m.src, m.tag))] })
      else if k = rqUnlock then ok (freeLocks id (lockOwner m.src n) d)
      else if k = rqDecision then respond m.src m.tag 0 0 (leBytes 1 (decisionOf g n d)) d
      else if k = rqWant then ok (tableTo m.src g d)
      else if k = rqFailed then ok (memberFailed id n d)
      else if k = rqBuild then
        if d.myMember g = some n then ok (d.onGroup id fun g => { g with building := some n, nextStripe := 0, done := 0 })
        else respond m.src m.tag 3 0x12 [] d
      else if k = rqDone then ok (rebuildProgress id n d)
      else if k = rqLost then
        let s := le p 12 4
        ok (mediaEntry 0 1 (s * g.k) (d.onGroup id fun g => { g with lost := g.lost ++ [s] }))
      else respond m.src m.tag 3 1 [] d

/-- UNIT_REQUEST: the oldest unit request is acted on, after the epoch check (R537); a later generation than the unit holds is
taken from the keeper first (R563). A request for a flush waits until every stream is flushed. -/
def unitRequest (d : Dev) : Dev :=
  match takeMsg 0x20 d with
  | none => groupWork d
  | some ((_, m), d) =>
    let again := fun (d : Dev) => d.onLink fun l => { l with inbox := l.inbox ++ [(2, m)] }
    let later := match d.group (le m.payload 0 4) with
      | some g => aboutGroup m.arg && genLater (le m.payload 4 4) g.gen && !d.keeps g
      | none => false
    if !d.fw.up then respond m.src m.tag 2 4 [] d
    else if m.epoch != 0 && m.epoch != d.epoch then
      respond m.src m.tag 7 1 (leBytes 4 d.epoch) (d.bump .QL_CNT_STALE)
    else if later then
      match (d.group (le m.payload 0 4)).bind fun g => d.addrOf g.keeper with
      | some a => again (tell a rqWant (m.payload.take 16) d)
      | none => again d
    else if m.arg = rqFlush then
      let d := flushAll d
      if d.allFlushed then respond m.src m.tag 0 0 [] d else again d
    else groupWork (actRequest m d)

/-! Unit responses and data. -/

/-- An outstanding request that has failed for good: the member did not answer in time, or answered that it cannot. -/
def askFailed (a : GroupAsk) (d : Dev) : Dev :=
  let d := dropAsks (fun x => x.tag == a.tag) d
  if a.kind = rqRead then jobLacks a.job a.slot d
  else if a.kind = rqLock then d.onJob a.job fun j => { j with lock := if j.cmd = 0 then 0 else 3 }
  else if a.kind = rqFacts then
    d.onComp fun c => { c with created := c.created.map fun e => if e.1 == a.cmd then (e.1, e.2.1, e.2.2 ++ [0xFF]) else e }
  else if a.kind = rqSpare then d.endCmd a.cmd 3 0x11
  else if a.kind = rqBuild then
    d.cond (((d.group a.group).map (·.building)) == some (some a.member)) (memberFailed a.group a.member)
  else if a.kind = rqDecision then
    d.onComp fun c => { c with parts := c.parts.map fun p => if p.group == a.group then { p with asked := false } else p }
  else d

/-- The spare's answer to GROUP REBUILD (R573): the slot is its disc's free range, BUILDING, at a new generation, and the
rebuild starts; or the command is refused. -/
def spareAnswer (a : GroupAsk) (p : Bytes) (d : Dev) : Dev :=
  match d.group a.group with
  | none => d.endCmd a.cmd 3 0x10
  | some g =>
    let maker := le p 4 4
    let disc := le p 8 4
    let live := g.members.any fun m => m.maker == maker && m.disc == disc && m.state != 2
    if le p 0 1 != g.media || live || g.mstate a.member != 2 then d.endCmd a.cmd 3 0x11
    else
      let new : GroupMember := { unit := a.serial, maker := maker, disc := disc, base := le p 12 4, state := 3 }
      let d := tableChange g.id (fun g => { (g.setMember a.member fun _ => new) with building := some a.member, done := 0 }) d
      let d := announce g.id d
      let gen := ((d.group g.id).map (·.gen)).getD 0
      let d := newAsk { kind := rqBuild, group := g.id, member := a.member, serial := a.serial
                        payload := reqBytes g.id gen a.member 0 [] } none d
      d.endCmd a.cmd 0 0 (g.q * g.width)

/-- A response of CLASS 0 or 1 to an outstanding request. -/
def askGood (a : GroupAsk) (cls detail : Nat) (p : Bytes) (d : Dev) : Dev :=
  let drop := dropAsks (fun x => x.tag == a.tag)
  if a.kind = rqRead then
    settleRead a.tag (d.onComp fun c => { c with
      asks := c.asks.map fun x => if x.tag == a.tag then { x with good := some (cls, detail) } else x })
  else
    let d := drop d
    let state := fun (on : Nat × Nat × Nat × PartState → Bool) (s : PartState) => d.onComp fun c => { c with
      writes := c.writes.map fun w => if w.group == a.group && w.n == le a.payload 8 4 then
        { w with sheets := w.sheets.map fun e => if on e then (e.1, e.2.1, e.2.2.1, s) else e } else w }
    if a.kind = rqLock then d.onJob a.job fun j => { j with lock := 2 }
    else if a.kind = rqFacts then
      d.onComp fun c => { c with created := c.created.map fun e => if e.1 == a.cmd then (e.1, e.2.1, e.2.2 ++ [le p 0 1]) else e }
    else if a.kind = rqSpare then spareAnswer a p d
    else if a.kind = rqPrepare then state (fun e => e.1 == a.member && e.2.1 == a.slot) .prepared
    else if a.kind = rqRelease then state (fun e => e.1 == a.member && e.2.2.2 == .releasing) .released
    else if a.kind = rqDecision then
      match d.group a.group with
      | none => d
      | some g =>
        let n := le a.payload 8 4
        if le p 0 1 = 1 then releasePart g n none d
        else if le p 0 1 = 0 then voidPart g n d
        else d.onComp fun c => { c with
          parts := c.parts.map fun x => if x.group == a.group && x.n == n then { x with asked := false } else x }
    else d

/-- UNIT_RESPONSE: the oldest unit response reaches what asked (R537, R569, R541). -/
def unitResponse (d : Dev) : Dev :=
  match takeMsg 0x21 d with
  | none => groupWork d
  | some ((_, m), d) =>
    let cls := m.arg / 256
    match d.comp.asks.find? fun a => a.tag == m.tag with
    | none => groupWork d
    | some a =>
      let serves := (d.cmd a.cmd).any fun c => a.cmd != 0 && (c.opcode != 0x22 || c.ssq == 0)
      let wait := d.onComp fun c => { c with asks := c.asks.map fun x => if x.tag == a.tag then { x with asleep := true } else x }
      groupWork <|
        if cls ≤ 1 then askGood a cls (m.arg % 256) m.payload d
        else if cls = 7 then sendAsk a d
        else if cls = 8 && serves then dropJobs a.cmd (dropAsks (fun x => x.cmd == a.cmd) (d.endCmd a.cmd 8 1))
        else if cls = 2 || cls = 8 then wait
        else
          let d := askFailed a d
          d.cond (a.kind == rqPrepare || a.kind == rqRelease || (a.kind == rqRead && cls == 6)) (reportFailed a.group a.member)

/-- UNIT_DATA: 256 bytes of a sheet arrive, for the buffer or for an accumulator (R19, R561). -/
def unitData (d : Dev) : Dev :=
  match takeMsg 0x22 d with
  | none => groupWork d
  | some ((_, m), d) =>
    if m.epoch != 0 && m.epoch != d.epoch then respond m.src m.tag 7 1 (leBytes 4 d.epoch) (d.bump .QL_CNT_STALE)
    else
      let src := if m.arg.testBit 31 then m.src else 64
      match d.comp.transfers.find? fun t => t.src == src && t.tag == m.tag with
      | none => d
      | some t =>
        if t.got != 256 * (m.arg % 2 ^ 31) then d
        else
          let d := match t.addr, t.add with
            | some a, _ => d.bufPut 8 (a + t.got) (takeFill 0#8 256 m.payload)
            | none, some (acc, coef) => accAdd acc coef t.got (takeFill 0#8 256 m.payload) d
            | none, none => d
          let d := d.onComp fun c => { c with
            transfers := c.transfers.map fun x => if x.src == src && x.tag == m.tag then { x with got := x.got + 256 } else x }
          if t.got + 256 < 131072 then d
          else if src = 64 then groupWork (settleRead m.tag d)
          else
            let d := d.onComp fun c => { c with transfers := c.transfers.filter fun x => !(x.src == src && x.tag == m.tag) }
            match d.comp.parts.find? fun p => p.from_ == m.src && p.tag == m.tag && p.order.isNone with
            | none => d
            | some p =>
              match d.group p.group with
              | none => d
              | some g =>
                let r := groupVersion g.stream p.n p.lsn (t.addr.getD 0) d
                groupWork (r.2.onPart p.group p.n p.lsn fun p => { p with order := some r.1 })

/-! Time limits (R567, R569). -/

/-- SLOW_MEMBER_TIMEOUT: an outstanding group request has not been answered within SLOW_MS: its member counts as FAILED
(R569). -/
def slowMemberTimeout (tag : Nat) (d : Dev) : Dev :=
  match d.comp.asks.find? fun a => a.tag == tag with
  | none => d
  | some a =>
    let slow := (d.group a.group).elim 2000 (·.slow)
    if d.qtime < a.since + 1000000 * slow then d
    else groupWork (d.cond (a.member != 0xFF) (reportFailed a.group a.member) |> askFailed a)

/-- ASLEEP_RETRY: the requests that were answered ASLEEP or busy are sent again (R569). -/
def asleepRetry (d : Dev) : Dev :=
  let l := d.comp.asks.filter fun a => a.asleep && (d.addrOf a.serial).isSome
  let sent := l.map (·.tag)
  let d := d.onComp fun c => { c with
    asks := c.asks.map fun a => { a with asleep := a.asleep && !sent.contains a.tag } }
  d.each l fun d a => sendAsk a d

/-- PENDING_RESOLVE: the group commands found pending at a replay are resolved with their keepers (R567). -/
def pendingResolve (d : Dev) : Dev :=
  d.each (d.comp.parts.filter fun p => p.replayed && !p.asked && p.release.isNone) fun d p =>
    match d.group p.group with
    | none => d
    | some g =>
      let d := d.onComp fun c => { c with
        parts := c.parts.map fun x => if x.group == p.group && x.n == p.n then { x with asked := true } else x }
      newAsk { kind := rqDecision, group := g.id, member := 0xFF, serial := g.keeper
               payload := reqBytes g.id g.gen p.n 0 [] } none d

/-! The effects of the commands. -/

/-- UNIT_REQUEST (R537). -/
def execUnitRequest (s : State) : Host.Outcome State Fault Refusal := s.onDev unitRequest

/-- UNIT_RESPONSE (R537). -/
def execUnitResponse (s : State) : Host.Outcome State Fault Refusal := s.onDev unitResponse

/-- UNIT_DATA (R19). -/
def execUnitData (s : State) : Host.Outcome State Fault Refusal := s.onDev unitData

/-- GROUP_DECISION (R570). -/
def execGroupDecision (group : Nat) (seq : Nat) (s : State) : Host.Outcome State Fault Refusal :=
  s.onDev (groupDecision group seq)

/-- SLOW_MEMBER_TIMEOUT (R569). -/
def execSlowMemberTimeout (tag : Fin 65536) (s : State) : Host.Outcome State Fault Refusal :=
  s.onDev (slowMemberTimeout tag)

/-- ASLEEP_RETRY (R569). -/
def execAsleepRetry (s : State) : Host.Outcome State Fault Refusal := s.onDev asleepRetry

/-- PENDING_RESOLVE (R567). -/
def execPendingResolve (s : State) : Host.Outcome State Fault Refusal := s.onDev pendingResolve

/-- REBUILD_STRIPE (R574). -/
def execRebuildStripe (group : Nat) (s : State) : Host.Outcome State Fault Refusal := s.onDev (rebuildStripe group)

end Sys2Proof.Machine
end

