-- ==== Sys2Proof/Machine/DataCmds.lean ====
section
/-!
DEFINITION. The data commands (15_commands.md R471 to R480, 16_ordering_recovery.md, 18_parity_and_fixity.md R572, R579,
R580): READ, VERIFY, FIXITY and WRITE, and the fixity engine.
-/

namespace Sys2Proof.Machine

/-! Sheets served through their group (R474, R572). -/

/-- The group, stripe and slot that an LSN of the loaded disc lies in. -/
def Dev.stripeOfLsn (d : Dev) (lsn : Nat) : Option (Group × Nat × Nat) :=
  d.comp.groups.findSome? fun g => (d.myMember g).bind fun j => (g.stripeOf j lsn).map fun e => (g, e.1, e.2)

/-- Whether a bind ended lasting (R148). -/
def Bound.lasting (b : Bound) : Bool := b.psa.isSome && (b.result == some (4, 1) || b.result == some (4, 3) || b.result == some (4, 4))

/-- A command's lasting sheets are obtained through their groups: a job for each that has none; a sheet that is rebuilt
counts as recovered and is queued for refresh. -/
def throughGroup (id : Nat) (d : Dev) : Dev :=
  match d.cmd id with
  | none => d
  | some c =>
    d.each c.binds.zipIdx fun d e =>
      match d.comp.jobs.find? fun j => j.cmd == id && j.index == e.2 with
      | some j =>
        if j.res = some (1, 3) && e.1.result != some (1, 3) then
          let d := setBind id e.2 (fun b => { b with result := some (1, 3), dat := some j.addr }) d
          queueRefresh (e.1.psa.getD 0) e.1.lsn 1 d
        else d
      | none =>
        if !e.1.lasting then d
        else match d.stripeOfLsn e.1.lsn with
          | none => d
          | some (g, s, r) => addJob { group := g.id, stripe := s, slot := r, cmd := id, index := e.2, make := true, bad := [r] } d

/-- What a bound sheet earned, in LSN order. -/
def Cmd.sheets (c : Cmd) : List SheetRes := c.binds.map fun b => (b.lsn, b.result.getD (4, 1))

/-- The common part of READ, VERIFY and FIXITY: the sheets are brought in, lasting ones through their groups unless `alone`;
`f` ends the command once every sheet has its result. -/
def reading (id op : Nat) (alone : Cmd → Bool) (f : Cmd → Dev → Dev) (d : Dev) : Dev :=
  runCmd id op (fun c d =>
    if !d.bindsDone c then readStep d
    else
      let d := if alone c then d else groupWork (throughGroup id (groupWork (throughGroup id d)))
      match d.cmd id with
      | none => d
      | some c =>
        if c.stage = .ended || d.comp.jobs.any (fun j => j.cmd == id && j.res.isNone) then d
        else dropVersions (dropJobs id (f c (throughGroup id d)))) d

/-- NO_GROUP of READ and VERIFY. -/
def noGroup (c : Cmd) : Bool := (c.field 32 1).testBit 0

/-- The end of READ and VERIFY (R471, Table 15-2). -/
def endReading (id : Nat) (d : Dev) : Dev :=
  match d.cmd id with
  | none => d
  | some c => d.endCmd id (overall c.sheets).1 (overall c.sheets).2 (readResults c.sheets).1 (readResults c.sheets).2

/-- The sheets delivered in LSN order; the bytes of one that failed are undefined, a free value (R474). -/
def deliverAll (id : Nat) (d : Dev) : Dev :=
  match d.cmd id with
  | none => d
  | some c => d.each c.binds.zipIdx fun d e =>
    if 2 ≤ (e.1.result.getD (4, 1)).1 then (deliver c (131072 * e.2) (leBytes 131072 (d.freeNat (2 ^ 1048576))) d).drew
    else
      let r := boundData e.1 d
      deliver c (131072 * e.2) r.1 r.2

/-- READ (R474), with SP_LEVEL as it leaves the sheets (R294). -/
def readCmd (id : Nat) (d : Dev) : Dev :=
  (reading id 0x10 noGroup (fun _ d => endReading id (deliverAll id d)) d).levelWrite

/-- VERIFY (R475). -/
def verifyCmd (id : Nat) (d : Dev) : Dev := reading id 0x12 noGroup (fun _ d => endReading id d) d

/-! Fixity (R479, R578 to R580). -/

/-- SHEET_HASH: the fixity engine hashes a sheet in the buffer as it is decoded, encoded or rebuilt (R579); the result stays
with the sheet's data. -/
def sheetHash (addr : Nat) (d : Dev) : Dev :=
  if !d.is .FIX_CTL_EN || d.is .FIX_STAT_FAULT || d.visible < addr + 131072 then d
  else
    let g := d.bufGet 10 addr 131072
    (g.2.onComp fun c => { c with hashes := sparseSet (0, []) c.hashes addr (crc64 g.1, sha256 g.1) }).bump .FIX_CNT_SHEET

/-- The hashes of a bound sheet: the held result, or those of its data, hashed as it is read. -/
def boundHash (b : Bound) (d : Dev) : (Nat × Bytes) × Dev :=
  let at_ : Option Nat := match b.version with
    | some o => (d.version o).map (·.addr)
    | none => b.dat
  match at_.bind fun a => (d.comp.hashes.find? fun e => e.1 == a).map (·.2) with
  | some h => (h, d)
  | none =>
    let r := boundData b d
    ((crc64 r.1, sha256 r.1), r.2.bump .FIX_CNT_SHEET)

/-- A fixity record (Table 15-3). -/
def fixityRecord (lsn status crc : Nat) (sha : Bytes) : Bytes :=
  leBytes 4 lsn ++ leBytes 1 status ++ leBytes 3 0 ++ leBytes 8 crc ++ takeFill 0#8 32 sha

/-- One sheet of FIXITY: its record, and what the sheet earned. -/
def fixityOne (compare : Bool) (host : Bytes) (b : Bound) (d : Dev) : (Bytes × SheetRes) × Dev :=
  let r := b.result.getD (4, 1)
  if 2 ≤ r.1 then ((fixityRecord b.lsn 3 0 [], (b.lsn, r)), d)
  else if b.psa.isNone && b.version.isNone then ((fixityRecord b.lsn 4 0 [], (b.lsn, r)), d)
  else
    let h := boundHash b d
    let same : Bool := leNat ((host.drop 8).take 8) == h.1.1 && (host.drop 16).take 32 == h.1.2
    let status := if !compare then 0 else if same then 1 else 2
    let d := h.2.cond (status == 2) fun d => d.bump .FIX_CNT_MISMATCH
    ((fixityRecord b.lsn status h.1.1 h.1.2, (b.lsn, if status = 2 then (4, 0x0D) else r)), d)

/-- The records of FIXITY's sheets. -/
def fixityAll (compare : Bool) (host : Bytes) : List Bound → Dev → (Bytes × List SheetRes) × Dev
  | [], d => (([], []), d)
  | b :: rest, d =>
    let r := fixityOne compare (host.take 48) b d
    let t := fixityAll compare (host.drop 48) rest r.2
    ((r.1.1 ++ t.1.1, r.1.2 :: t.1.2), t.2)

/-- The end of FIXITY: its records delivered, mismatches and unreadable sheets counted (Table 15-2). -/
def endFixity (id : Nat) (d : Dev) : Dev :=
  match d.cmd id with
  | none => d
  | some c =>
    let compare := noGroup c
    let r := fixityAll compare (if compare then d.hostData c else []) c.binds d
    let l := r.1.2
    let miss := l.filter fun s => s.2 == (4, 0x0D)
    let bad := l.filter fun s => 2 ≤ s.2.1 && s.2 != (4, 0x0D)
    (deliver c 0 r.1.1 r.2).endCmd id (overall l).1 (overall l).2 (miss.length % 65536 + bad.length % 65536 * 65536)
      ((miss.head?.map (·.1)).getD 0xFFFFFFFF)

/-- FIXITY (R479, R580). With COMPARE the host's records are read first. -/
def fixityCmd (id : Nat) (d : Dev) : Dev :=
  reading id 0x15 (fun _ => false) (fun c d =>
    if noGroup c then withData id (fun _ d => endFixity id d) d else endFixity id d) d

/-! WRITE (R476, R495, R500). -/

/-- The write record of a command. -/
def Dev.writeOf (d : Dev) (c : Cmd) : Option WriteRec := (d.stream c.stream).writes.find? fun w => w.ssq == c.ssq && w.cmd == c.id

/-- Whether a write accepted earlier has not yet submitted its INTENT: the INTENTs follow the order of acceptance (R495). -/
def Dev.intentBefore (d : Dev) (w : WriteRec) : Bool :=
  (List.range 16).any fun s => (d.stream s).writes.any fun o => o.group.isNone && o.addr == 0 && !o.dead && o.order < w.order

/-- Whether the write pool has room for `n` sheets more; a command larger than the pool is admitted to an empty one (R476). -/
def Dev.poolRoom (d : Dev) (n : Nat) : Bool :=
  let used := (d.fw.versions.filter fun v => v.stage != .fetching && v.stage != .mapped && v.stage != .gone && v.copyOf.isNone).length
  used == 0 || decide (used + n ≤ 8 * d.pageVal 6 0 12 4)

/-- Why no version can be placed, as CLASS 4 DETAIL (R170, R183, R194): no OPU can record, no layer has a strategy set, a side
has no spares or no checkpoint room, or no slot is free. -/
def Dev.cannotAdmit (d : Dev) : Option Nat :=
  let able := d.opus.filter d.canRecord
  let sides := (able.map opuSide).eraseDups
  let keys := sides.flatMap fun s => (List.range 8).map (8 * s + ·)
  if !d.takers.isEmpty then none
  else if able.isEmpty then some 8
  else if keys.all fun k => !d.fw.disc.layers.testBit k then some 7
  else if sides.all d.fw.cpFull.contains then some 6
  else some 0x0C

/-- A WRITE whose data is here: admitted, its INTENT submitted (R476, R500); or it fails a check that admission makes and takes
no effect (R498). -/
def takeWrite (w : WriteRec) (c : Cmd) (d : Dev) : Dev :=
  if !d.poolRoom w.count then d
  else match d.cannotAdmit with
    | some detail => writeWithdraw c.stream c.ssq (d.endCmd c.id 4 detail)
    | none =>
      let r := d.alloc (131072 * w.count)
      let d := r.2.bufPut 7 r.1 (d.hostData c)
      let d := d.onFw fun f => { f with versions := f.versions.map fun v =>
        if v.stream == c.stream && v.ssq == c.ssq && v.stage == .fetching then
          { v with stage := .admitted, addr := r.1 + 131072 * (v.order - w.order) } else v }
      let d := d.onStream c.stream fun t => { t with
        writes := t.writes.map fun x => if x.ssq == w.ssq && x.cmd == w.cmd then { x with addr := r.1 } else x }
      let d := d.fwSubmit false 0x01 0 (leBytes 1 c.stream ++ leBytes 4 c.ssq ++ leBytes 4 w.lsn ++ leBytes 4 w.count ++ leBytes 8 r.1)
      (recordWork d).levelWrite

/-- WRITE: its data fetched and admitted; then the reply once the INTENT is durable, or, with FUA, once D reaches it (R500,
R503). -/
def writeCmd (id : Nat) (d : Dev) : Dev :=
  runCmd id 0x11 (fun c d =>
    match d.writeOf c with
    | none => d.cond (reached c.ssq (d.stream c.stream).mark && c.needs.isNone) fun d => d.endCmd id 0 0 c.ssq
    | some w =>
      let t := d.stream c.stream
      if w.addr != 0 then
        let d := recordWork (d.cond (!w.dead) bringUp)
        d.cond (w.intent && !w.fua) fun d => d.endCmd id 0 0 c.ssq
      else if t.broken.isSome && ssqLater c.ssq t.first then
        writeWithdraw c.stream c.ssq (d.endCmd id 5 (t.broken.getD 1))
      else if d.frost || d.is .PMU_STAT_THAWING || d.intentBefore w then d
      else withData id (fun c d => takeWrite w c d) d) d

/-! The effects of the commands. -/

/-- READ (R474). -/
def execRead (cmd : Nat) (s : State) : Host.Outcome State Fault Refusal := s.onDev (readCmd cmd)

/-- VERIFY (R475). -/
def execVerify (cmd : Nat) (s : State) : Host.Outcome State Fault Refusal := s.onDev (verifyCmd cmd)

/-- FIXITY (R580). -/
def execFixity (cmd : Nat) (s : State) : Host.Outcome State Fault Refusal := s.onDev (fixityCmd cmd)

/-- WRITE (R476). -/
def execWrite (cmd : Nat) (s : State) : Host.Outcome State Fault Refusal := s.onDev (writeCmd cmd)

/-- SHEET_HASH (R579). -/
def execSheetHash (addr : Nat) (s : State) : Host.Outcome State Fault Refusal := s.onDev (sheetHash addr)

end Sys2Proof.Machine
end

