-- ==== Sys2Proof/Machine/GroupCmds.lean ====
section
/-!
DEFINITION. The group commands (18_parity_and_fixity.md R553 to R556, R564, R572, R573, R576, R577).
-/

namespace Sys2Proof.Machine

/-! GROUP CREATE. -/

/-- A descriptor read (Table 18-1). -/
def groupOf (b : Bytes) (keeper : Nat) : Group :=
  let slow := le b 12 2
  { keeper := keeper, k := le b 2 1, m := le b 3 1, q := le b 4 4, seed := le b 8 4, slow := if slow = 0 then 2000 else slow
    fmax := le b 14 1
    members := (List.range (le b 1 1)).map fun j =>
      let o := 64 + 32 * j
      { unit := le b o 8, maker := le b (o + 8) 4, disc := le b (o + 12) 4, base := le b (o + 16) 4 } }

/-- Whether the reserved bytes of a descriptor are zero. -/
def descriptorZero (b : Bytes) : Bool :=
  leNat ((b.drop 15).take 49) == 0 && (List.range (le b 1 1)).all fun j => leNat ((b.drop (64 + 32 * j + 20)).take 12) == 0

/-- Whether a list holds nothing twice. -/
def noRepeats (l : List Nat) : Bool := decide (l.eraseDups.length = l.length)

/-- The limits of R553 and R554 that the keeper can check itself. -/
def Dev.geometryOk (d : Dev) (b : Bytes) : Bool :=
  let g := groupOf b d.serial
  let slow := le b 12 2
  le b 0 1 == 1 && descriptorZero b && 1 ≤ g.m && g.m ≤ 4 && 1 ≤ g.k && g.k ≤ 28 && g.width ≤ g.size && 2 ≤ g.size && g.size ≤ 32
    && 1 ≤ g.q && decide (g.q * g.size * g.k ≤ 0xFFFFFFFE) && g.fmax ≤ g.m && (slow == 0 || (100 ≤ slow && slow ≤ 60000))
    && noRepeats (g.members.map (·.unit)) && noRepeats (g.members.map fun m => m.maker * 2 ^ 32 + m.disc)
    && (d.comp.groups.filter d.keeps).length < 64 && d.comp.groups.length < 80
    && g.members.all fun m => (d.addrOf m.unit).isSome

/-- The next group identifier and counter: 0 and the values of groups that the keeper still holds are skipped (R556). -/
def Dev.freeGroup (d : Dev) : Nat :=
  let used := (d.comp.groups.filter d.keeps).map fun g => g.id % 4096
  (((List.range 4096).map fun i => (d.comp.nextId + i) % 4096).find? fun n => n != 0 && !used.contains n).getD 1

/-- The members' answers are all here: the group is created and handed out, or refused (R556). -/
def finishCreate (id : Nat) (g : Group) (classes : List Nat) (d : Dev) : Dev :=
  let d := d.onComp fun c => { c with created := c.created.filter fun e => e.1 != id }
  if classes.any fun c => 1 < c || c != classes.headD 0xFF then d.endCmd id 3 0x11
  else
    let n := d.freeGroup
    let gid := d.serial % 2 ^ 20 * 4096 + n
    let g := { g with id := gid, index := d.freeIndex, media := classes.headD 0 }
    let d := d.onComp fun c => { c with groups := c.groups ++ [g], nextId := (n + 1) % 4096 }
    (announce gid (groupGen g d)).endCmd id 0 0 gid 1

/-- GROUP CREATE (R556): the descriptor checked, each member's unit asked, then the group made. -/
def groupCreate (id : Nat) (d : Dev) : Dev :=
  runCmd id 0x20 (fun c d =>
    match d.comp.created.find? fun e => e.1 == id with
    | some e => if e.2.2.length < e.2.1.size then groupWork d else finishCreate id e.2.1 e.2.2 d
    | none => withData id (fun _ d =>
      let b := d.hostData c
      if b.length != 64 + 32 * le b 1 1 then d.endCmd id 3 3
      else if !d.geometryOk b then d.endCmd id 3 0x11
      else
        let g := groupOf b d.serial
        let d := d.onComp fun x => { x with created := x.created ++ [(id, g, [])] }
        d.each g.members fun d m =>
          newAsk { kind := rqFacts, member := 0xFF, serial := m.unit, cmd := id
                   payload := reqBytes 0 0 0 0 (leBytes 4 m.maker ++ leBytes 4 m.disc ++ leBytes 4 m.base
                     ++ leBytes 4 (g.q * g.width)) } none d) d) d

/-! GROUP DELETE. -/

/-- Whether a group has a command, a write or a sheet under way here. -/
def Dev.groupBusy (d : Dev) (gid except : Nat) : Bool :=
  (d.running.any fun c => c.id != except && c.ssq != 0 && [0x22, 0x23, 0x25].contains c.opcode && c.groupId == gid)
    || (d.comp.writes.any fun w => w.group == gid) || (d.comp.parts.any fun p => p.group == gid)
    || d.comp.jobs.any fun j => j.group == gid && j.cmd != 0

/-- GROUP DELETE (R577). -/
def groupDelete (id : Nat) (d : Dev) : Dev :=
  runCmd id 0x21 (fun c d =>
    let gid := c.groupId
    match d.group gid with
    | none => d.endCmd id 3 0x10
    | some g =>
      if d.groupBusy gid id then groupWork d
      else
        let d := tableChange gid (fun g => g) d
        let gen := ((d.group gid).map (·.gen)).getD 0
        let d := d.each (d.memberAddrs g) fun d a => tell a rqEnd (reqBytes gid gen 0 0 []) d
        (dropGroup gid d).endCmd id 0 0) d

/-! GROUP WRITE and GROUP READ. -/

/-- A GROUP WRITE that passes the other checks probes every ONLINE member, and is accepted once each has answered (R564). -/
def gwProbe (c : Cmd) (d : Dev) : Dev :=
  if d.mustWait c || d.blocked c || (judge d c).isSome then admitAll d
  else match d.group c.groupId with
    | none => d
    | some g =>
      if c.work = 0 then
        let d := d.onCmd c.id fun c => { c with work := 1 }
        d.each g.members.zipIdx fun d e =>
          if e.1.state != 0 then d
          else newAsk { kind := rqProbe, group := g.id, member := e.2, serial := e.1.unit, cmd := c.id
                        payload := reqBytes g.id g.gen 0 0 [] } none d
      else if d.comp.asks.any fun a => a.kind == rqProbe && a.cmd == c.id then d
      else admitAll (d.onCmd c.id fun c => { c with work := 2 })

/-- The data of a GROUP WRITE put into the buffer, sheet by sheet. -/
def gwData (c : Cmd) (d : Dev) : Dev :=
  match d.comp.writes.find? fun w => w.cmd == c.id with
  | none => d
  | some w =>
    if !w.data.isEmpty then d
    else
      let r := d.alloc (131072 * c.run.2)
      let d := r.2.bufPut 7 r.1 (d.hostData c)
      d.onWrite w.group w.n fun w => { w with
        data := (List.range c.run.2).map fun i => (c.run.1 + i, r.1 + 131072 * i) }

/-- GROUP WRITE (R564 to R566): probes, then its data, then the steps of the write. -/
def groupWrite (id : Nat) (d : Dev) : Dev :=
  match d.cmd id with
  | none => d
  | some c =>
    if c.stage != .running || c.opcode != 0x22 then d
    else if c.ssq = 0 then gwProbe c d
    else groupWork (withData id gwData d)

/-- The end of GROUP READ: the sheets delivered in GLSN order (R572). -/
def endGroupRead (c : Cmd) (d : Dev) : Dev :=
  let mine := d.comp.jobs.filter fun j => j.cmd == c.id
  let l : List SheetRes := mine.map fun j => (c.run.1 + j.index, j.res.getD (4, 1))
  let d := d.each mine fun d j =>
    if 2 ≤ (j.res.getD (4, 1)).1 then d
    else
      let g := d.bufGet 8 j.addr 131072
      deliver c (131072 * j.index) g.1 g.2
  dropJobs c.id (d.endCmd c.id (overall l).1 (overall l).2 (readResults l).1 (readResults l).2)

/-- GROUP READ (R572). -/
def groupRead (id : Nat) (d : Dev) : Dev :=
  runCmd id 0x23 (fun c d =>
    match d.group c.groupId with
    | none => dropJobs id (d.endCmd id 3 0x10)
    | some g =>
      if c.work = 0 then
        let d := d.each (List.range c.run.2) fun d i =>
          addJob { group := g.id, stripe := (g.place (c.run.1 + i)).1, slot := (g.place (c.run.1 + i)).2, cmd := id, index := i } d
        groupWork (d.onCmd id fun c => { c with work := 1 })
      else
        let d := groupWork d
        if d.comp.jobs.any fun j => j.cmd == id && j.res.isNone then d else endGroupRead c d) d

/-! GROUP STATUS and GROUP REBUILD. -/

/-- STATE of the status record (Table 18-3). -/
def Group.health (g : Group) : Nat :=
  let off := (g.members.filter fun m => m.state != 0).length
  let short := g.m < off && (List.range g.stripes).any fun s =>
    ((g.stripeMembers s).filter fun j => g.mstate j == 0).length < g.k
  if !g.lost.isEmpty || short then 3
  else if g.members.any fun m => m.state == 3 then 2 else if off = 0 then 0 else 1

/-- The status record (Table 18-3). -/
def statusRecord (g : Group) (d : Dev) : Bytes :=
  let building := g.members.any fun m => m.state == 3
  let at_ := fun (serial : Nat) => match d.addrOf serial with
    | some a => if a == d.addr || (d.route a).isSome then a else 0xFF
    | none => 0xFF
  leBytes 4 g.id ++ leBytes 4 g.gen ++ leBytes 1 g.size ++ leBytes 1 g.k ++ leBytes 1 g.m ++ leBytes 1 g.fmax ++ leBytes 4 g.q
    ++ leBytes 1 g.health ++ leBytes 1 (at_ g.keeper) ++ leBytes 2 0
    ++ leBytes 4 (if building then g.done else 0) ++ leBytes 4 (if building then g.q * g.width else 0)
    ++ List.replicate 36 0#8
    ++ g.members.flatMap fun m => leBytes 8 m.unit ++ leBytes 1 m.state ++ leBytes 1 (at_ m.unit) ++ leBytes 2 0 ++ leBytes 4 m.base

/-- GROUP STATUS (R576). -/
def groupStatus (id : Nat) (d : Dev) : Dev :=
  runCmd id 0x24 (fun c d =>
    match d.group c.groupId with
    | none => d.endCmd id 3 0x10
    | some g => (deliver c 0 (statusRecord g d) d).endCmd id 0 0 g.gen (64 + 16 * g.size)) d

/-- GROUP REBUILD (R573): the spare is asked for its disc and range; its answer starts the rebuild. -/
def groupRebuild (id : Nat) (d : Dev) : Dev :=
  runCmd id 0x25 (fun c d =>
    match d.group c.groupId, d.unitAt (c.field 33 1) with
    | some g, some u =>
      if c.work != 0 then groupWork d
      else
        newAsk { kind := rqSpare, group := g.id, member := c.field 32 1, serial := u.serial, cmd := id
                 payload := reqBytes g.id g.gen 0 0 (leBytes 4 (g.q * g.width)) } none
          (d.onCmd id fun c => { c with work := 1 })
    | _, _ => d.endCmd id 3 0x11) d

/-! The effects of the commands. -/

/-- GROUP_CREATE (R556). -/
def execGroupCreate (cmd : Nat) (s : State) : Host.Outcome State Fault Refusal := s.onDev (groupCreate cmd)

/-- GROUP_DELETE (R577). -/
def execGroupDelete (cmd : Nat) (s : State) : Host.Outcome State Fault Refusal := s.onDev (groupDelete cmd)

/-- GROUP_WRITE (R566). -/
def execGroupWrite (cmd : Nat) (s : State) : Host.Outcome State Fault Refusal := s.onDev (groupWrite cmd)

/-- GROUP_READ (R572). -/
def execGroupRead (cmd : Nat) (s : State) : Host.Outcome State Fault Refusal := s.onDev (groupRead cmd)

/-- GROUP_STATUS (R576). -/
def execGroupStatus (cmd : Nat) (s : State) : Host.Outcome State Fault Refusal := s.onDev (groupStatus cmd)

/-- GROUP_REBUILD (R573). -/
def execGroupRebuild (cmd : Nat) (s : State) : Host.Outcome State Fault Refusal := s.onDev (groupRebuild cmd)

end Sys2Proof.Machine
end

