-- ==== Sys2Proof/Machine/Loading.lean ====
section
/-!
DEFINITION. LOAD, UNLOAD, SEEK and CALIBRATE (09_sled_and_clamp.md R332 and Tables 9-2, 9-3, 13_ream_journal.md R422 and
R426, 15_commands.md R480 to R482).
-/

namespace Sys2Proof.Machine

open Sys2Proof (Medium)

/-! The disc's records (R58, R169, R480). -/

/-- Whether a media or format record has its identifier and a supported version. -/
def leadingOk (id : Nat) (b : Bytes) : Bool := !b.isEmpty && le b 0 4 == id && le b 4 1 == 1

/-- The sheet of a slot of a side's format record area: four slots in each of tracks 12 to 23, through layers 0 to 7 (R480). -/
def formatPsa (side i : Nat) : Nat := mkPsa side (i / 48) (12 + i % 48 / 4) (i % 4) 0

/-- The format of a side: from its own record, with the slot of its ruling copy, else from the other side's (Table 2-11). -/
def sideOf (side : Nat) (own other : Nat × Bytes) : SideInfo :=
  if leadingOk 0x54464652 own.2 then
    { formatted := true, level := le own.2 5 1 % 4, pcode := pCode (le own.2 6 1), copySeq := le own.2 12 4, place := formatPsa side own.1
      record := own.2.take 24 }
  else if leadingOk 0x54464652 other.2 && le other.2 16 1 == 1 then
    { formatted := true, level := le other.2 17 1 % 4, pcode := pCode (le other.2 18 1) }
  else {}

/-- The layers that the strategy sets of a block cover (R169, R170). -/
def strategyLayers (b : Bytes) : Nat :=
  if le b 0 2 != 1 then 0
  else (List.range (limitN 0 8 (le b 2 1))).foldl (fun m i => m ||| le b (4 + 128 * i) 2) 0

/-- The ruling copy of a format record with its slot: the valid copy of the highest copy sequence, the first of equals (R58). -/
def rulingCopy (l : List (Nat × Bytes)) : Nat × Bytes :=
  (l.filter fun e => leadingOk 0x54464652 e.2).foldl (fun b e => if b.2.isEmpty || le b.2 12 4 < le e.2 12 4 then e else b) (0, [])

/-- The format record of a side that this unit reads. -/
def Dev.formatOf (d : Dev) (m : Medium) (side : Nat) : Nat × Bytes :=
  if !d.serves side then (0, []) else rulingCopy (if side = 0 then m.formatA else m.formatB)

/-- The disc as its records describe it. -/
def discOf (m : Medium) (readOnly : Bool) (d : Dev) : Disc :=
  let known := leadingOk 0x41524546 m.media
  let strategy := if known then m.media.drop 16 else []
  let side := fun (s : Nat) =>
    let x := sideOf s (d.formatOf m s) (d.formatOf m (1 - s))
    { x with recordable := x.formatted && known && !readOnly && d.serves s, used := if s = 0 then m.usedA else m.usedB }
  { loaded := true, readOnly := readOnly, mediaClass := if known then le m.media 5 1 else 0xFF
    maker := if known then le m.media 8 4 else 0, serial := if known then le m.media 12 4 else 0
    a := side 0, b := side 1, layers := strategyLayers strategy
    strategy := if le strategy 0 2 = 1 then strategy else [] }

/-! FORMAT (R480). -/

/-- LOAD's flags and fields (Table 15-1). -/
def Cmd.loadFlag (c : Cmd) (i : Nat) : Bool := (c.field 16 1).testBit i

/-- Why FORMAT of a side is refused, as CLASS and DETAIL: an unknown class; a valid format record without FORCE on Class E; a
full format record area on Class W. -/
def formatRefused (m : Medium) (force : Bool) (x : Disc) (d : Dev) (side : Nat) : Option (Nat × Nat) :=
  let own := leadingOk 0x54464652 (d.formatOf m side).2
  let used := if side = 0 then m.usedA else m.usedB
  if x.mediaClass = 0xFF then some (4, 9)
  else if own && !(x.mediaClass == 1 && force) then some (3, 9)
  else if x.mediaClass != 1 && 384 ≤ used then some (4, 0x0E)
  else none

/-- A format record of a side (Table 2-11), its 24 leading bytes. -/
def formatBytes (own other : SideInfo) (seq : Nat) : Bytes :=
  leBytes 4 0x54464652 ++ leBytes 1 1 ++ leBytes 1 own.level ++ leBytes 1 (pOfCode own.pcode) ++ leBytes 1 0
    ++ leBytes 4 (userSheets own.strength) ++ leBytes 4 seq ++ leBytes 1 (bit other.formatted)
    ++ leBytes 1 (if other.formatted then other.level else 0) ++ leBytes 1 (if other.formatted then pOfCode other.pcode else 0)
    ++ leBytes 1 0 ++ leBytes 4 (if other.formatted then userSheets other.strength else 0)

/-- A side with its new format. -/
def formatSide (c : Cmd) (x : SideInfo) : SideInfo :=
  { x with formatted := true, recordable := true, level := c.field 18 1, pcode := c.field 19 1 }

/-- A new copy of a side's format record: on Class W in the next free slot of its area, on Class E in place (R56, R480). A side
that is not formatted gets none, nor one that no fused-on OPU can record, nor one whose area has no free slot. -/
def formatCopy (d : Dev) (x : Disc) (s : Nat) (own other : SideInfo) : SideInfo :=
  if !own.formatted || !d.serves s || (x.mediaClass != 1 && 384 ≤ own.used) then own
  else
    { own with
      copySeq := own.copySeq + 1, record := formatBytes own other (own.copySeq + 1)
      place := if x.mediaClass = 1 && own.used != 0 then own.place else formatPsa s own.used
      used := if x.mediaClass = 1 && own.used != 0 then own.used else own.used + 1 }

/-- FORMAT carried out on the sides named: new copies of the format records of every side that can be recorded, whole reserves, no
sheet of the named sides mapped (R58, R480). -/
def formatDisc (c : Cmd) (d : Dev) : Dev :=
  let named := fun (s : Nat) => (c.field 17 1).testBit s
  let x := d.fw.disc
  let a := if named 0 then formatSide c x.a else x.a
  let b := if named 1 then formatSide c x.b else x.b
  let x := { x with a := formatCopy d x 0 a b, b := formatCopy d x 1 b a }
  let gone := fun (psa : Nat) => named (psaSide psa)
  let fresh := spareSlots { level := c.field 18 1, p := pOfCode (c.field 19 1) }
  d.onFw fun w => { w with
    disc := x
    map := w.map.filter fun e => !gone (e.2 - 1)
    cpMap := w.cpMap.filter fun e => !named (e.1 / 4096)
    dirty := ((w.map.filter fun e => gone (e.2 - 1)).map fun e => e.1 / 16384).eraseDups ++ w.dirty
    mapOrder := w.mapOrder.filter fun e => (w.map.any fun f => f.1 == e.1 && !gone (f.2 - 1))
    recorded := w.recorded.filter fun p => !gone p
    refresh := w.refresh.filter fun e => !gone e.1
    reserve := (List.range 16).foldl (fun r k => if named (k / 8) then sparseSet 0 r k fresh else r) w.reserve }

/-! The map: checkpoint, journal and medium scan (R422, R426, R506). -/

/-- The records of a disc: those between a LOAD that names it and the next UNLOAD. -/
def discRecords (maker serial : Nat) (l : List Bytes) : List Bytes :=
  (l.foldl (fun (x : Bool × List Bytes) b =>
    let p := recordPayload b
    if recordType b = 0x0C then
      let on := le p 0 4 == serial && le p 4 4 == maker
      (on, if on then x.2 ++ [b] else x.2)
    else (x.1 && recordType b != 0x0D, if x.1 then x.2 ++ [b] else x.2)) (false, [])).2

/-- The SEQs that the records of both rings hold. -/
def Dev.heldSeqs (d : Dev) : List Nat := (d.records true ++ d.records false).map fun e => recordSeq e.2

/-- Whether every SEQ from one to the newest record of the main ring is held (R422). -/
def Dev.spanHeld (d : Dev) (from_ : Nat) : Bool :=
  match d.bySeq.getLast? with
  | none => true
  | some b =>
    let n := (recordSeq b + 2 ^ 48 - from_) % 2 ^ 48
    let held := d.heldSeqs
    2 ^ 47 ≤ n || (decide (n ≤ 16384) && (List.range n).all fun i => held.contains ((from_ + i) % 2 ^ 48))

/-- The newest CHECKPOINT record of a disc (R422). -/
def lastCheckpoint (l : List Bytes) : Option Bytes := (l.filter fun b => recordType b == 0x0B).getLast?

/-- Whether the map must come from a medium scan (R422, R426): the journal has failed; the disc's checkpoint is not CLOSED and
the journal does not name it; the journal holds nothing of a disc that has no CLOSED checkpoint; or a record that replay needs
is lost. -/
def Dev.needsScan (d : Dev) (m : Medium) (l : List Bytes) : Bool :=
  let named := l.any fun b => recordType b == 0x0B && le (recordPayload b) 7 5 == m.index
  d.is .RJ_STAT_FAILED || (m.checkpoint && !m.closed && !named) || (l.isEmpty && !(m.checkpoint && m.closed))
    || match lastCheckpoint l, l.head? with
      | some b, _ => !d.spanHeld (recordSeq b)
      | none, some b => !d.spanHeld (recordSeq b)
      | none, none => false

/-- Firmware's data of a disc as its checkpoint holds it. -/
def fromCheckpoint (m : Medium) (x : Disc) (d : Dev) : Dev :=
  let whole := fun (k : Nat) => spareSlots (if k < 8 then x.a.strength else x.b.strength)
  let num := fun (l : List Nat) (n : Nat) (f : Nat → Nat) =>
    (List.range n).foldl (fun (r : Sparse Nat) k => sparseSet 0 r k ((l[k]?).getD (f k))) []
  let map := if m.checkpoint then m.map else []
  d.onFw fun w => { w with
    disc := x
    map := map.foldl (fun r e => sparseSet 0 r e.1 (e.2 + 1)) []
    mapOrder := []
    recorded := if m.checkpoint then m.recorded else []
    retired := if m.checkpoint then m.retired else []
    refresh := if m.checkpoint then m.refresh else []
    reserve := num (if m.checkpoint then m.reserve else []) 16 whole
    opcNext := num m.opc 16 fun _ => 0
    opcFull := [], cpNext := num m.next 2 fun _ => 0, cpFull := [], cpSeq := m.cpSeq, dirty := []
    cpMap := (if m.checkpoint then m.sheets else []).foldl (fun r e => sparseSet 0 r e.1 (e.2 + 1)) [], cpRuns := []
    ambiguous := [], mediaLog := [], transients := 0, marginals := 0, lastings := 0, gains := [] }

/-- A map entry that LOAD finds. -/
def loadEntry (lsn psa : Nat) (d : Dev) : Dev :=
  let d := putMap lsn psa 0 d
  d.onFw fun w => { w with recorded := if w.recorded.contains psa then w.recorded else psa :: w.recorded }

/-- The reserve of a layer lowered by one. -/
def lowerReserve (key : Nat) (d : Dev) : Dev :=
  d.onFw fun w => { w with reserve := sparseSet 0 w.reserve key (sparseGet 0 w.reserve key - 1) }

/-- MEDIUM_SCAN (R426, R687): sheets found in slots that the checkpoint lists as free. -/
def mediumScan (m : Medium) (d : Dev) : Dev :=
  let first := fun (i : Nat) (e : Nat × Nat) => !(m.scan.take i).any fun f => f.1 == e.1
  let d := d.each m.scan.zipIdx fun d e =>
    let d := lowerReserve (layerKey e.1.2) d
    let d := d.onFw fun w => { w with recorded := e.1.2 :: w.recorded }
    d.cond (first e.2 e.1 && !m.ambiguous.contains e.1.1) (loadEntry e.1.1 e.1.2)
  let d := d.each m.blank fun d p =>
    (lowerReserve (layerKey p) d).onFw fun w => { w with retired := p :: w.retired, recorded := p :: w.recorded }
  d.each m.ambiguous fun d lsn =>
    let psa := ((m.scan.find? fun e => e.1 == lsn).map (·.2)).getD 0
    let d := (mediaEntry psa 2 lsn d).event { code := 0x1005, psa := psa, lsn := lsn }
    d.onFw fun w => { w with ambiguous := lsn :: w.ambiguous }

/-- A record of the disc other than those of writes, replayed: a spare taken, a slot retired, a refresh queued or done, an OPC
band used. -/
def replayOther (from_ : Nat) (b : Bytes) (d : Dev) : Dev :=
  let p := recordPayload b
  match recordType b with
  | 0x03 => d.cond (seqLater (recordSeq b) from_) (lowerReserve (layerKey (le p 9 5)))
  | 0x04 => d.onFw fun w => { w with retired := if w.retired.contains (le p 0 5) then w.retired else le p 0 5 :: w.retired }
  | 0x05 =>
    let key := 8 * le p 0 1 + le p 1 1
    let next := if d.classE || sparseGet 0 d.fw.opcNext key ≤ le p 3 1 then le p 3 1 + 1 else sparseGet 0 d.fw.opcNext key
    let d := d.onFw fun w => { w with opcNext := sparseSet 0 w.opcNext key next }
    d.onOpuFw (le p 2 1 % 4) fun f => { f with
      targets := (List.range 12).foldl (fun t b => sparseSet 0 t (12 * key + b) (le p (6 + 2 * b) 2)) f.targets }
  | 0x07 =>
    let psa := le p 0 5
    if le p 5 1 = 1 then d.onFw fun w => { w with refresh := w.refresh.filter fun e => e.1 != psa }
    else match d.fw.map.find? fun e => e.2 == psa + 1 with
      | some e => d.onFw fun w => { w with
          refresh := if w.refresh.any fun r => r.1 == psa then w.refresh else w.refresh ++ [(psa, e.1)] }
      | none => d
  | _ => d

/-- A group command found pending: each of its committed sheets stands as a version until the keeper's decision is known
(R567). -/
def pendingGroup (i : Intent) (d : Dev) : Dev :=
  match d.comp.groups.find? fun g => g.stream == i.stream with
  | none => d
  | some g =>
    d.each i.got fun d e =>
      let o := d.fw.nextOrder
      let v : Version := { order := o, lsn := e.1, stream := i.stream, ssq := i.ssq, psa := some e.2, stage := .committed }
      let p : GroupPart := { group := g.id, n := i.ssq, lsn := e.1, answered := true, order := some o, replayed := true }
      let d := d.onFw fun w => { w with versions := w.versions ++ [v], nextOrder := o + 1, recorded := e.2 :: w.recorded }
      if d.comp.parts.any fun x => x.group == g.id && x.n == i.ssq && x.lsn == e.1 then d
      else d.onComp fun c => { c with parts := c.parts ++ [p] }

/-- JOURNAL_REPLAY (R422, R506): the records of the disc later than what its checkpoint absorbs. -/
def journalReplay (l : List Bytes) (d : Dev) : Dev :=
  let cp := lastCheckpoint l
  let later := fun (b : Bytes) => match cp with
    | some c => seqLater (recordSeq b) (le (recordPayload c) 1 6)
    | none => true
  let l := l.filter later
  let r := replay l
  let sorted := r.apply.mergeSort fun a b => a.1 ≤ b.1
  let d := d.each sorted fun d e => loadEntry e.2.1 e.2.2 d
  let d := d.each l fun d b => replayOther (cp.elim 0 recordSeq) b d
  let d := d.each r.voids fun d p => d.cond (!d.fw.retired.contains p) (voidSlot p)
  d.each (r.ints.filter fun i => 128 ≤ i.stream) fun d i => pendingGroup i d

/-! LOAD (R332, R480, Table 9-2). -/

/-- Whether a command's OPUs of a side are all gone, with the CLASS and DETAIL it ends with (R258, R318, R686). -/
def Dev.loadFails (d : Dev) : Option (Nat × Nat) :=
  [0, 1].findSome? fun s =>
    let mine := d.opus.filter fun o => opuSide o == s
    if mine.isEmpty then none
    else if mine.all fun o => 2 ≤ (d.sled o).fails then some (6, 8)
    else if mine.all fun o => (d.opuFw o).withdrawn then some (sideFail d s fun f => f.focused)
    else none

/-- The pairs of some groups of every fused-on OPU. -/
def Dev.pairsOf (d : Dev) (groups : List Nat) : Nat :=
  bitSet (d.opus.flatMap fun o => groups.map fun g => pairBit o g)

/-- Whether an OPU is homed and at rest. -/
def Dev.homed (d : Dev) (opu : Nat) : Bool := d.is .SLD_STAT_HOMED opu && d.fg .SLD_STAT_STATE opu == sldIdle

/-- Clamping and homing (Table 9-2, t0 to t2): islands powered, sleds homed. -/
def loadHome (opu : Nat) (d : Dev) : Dev :=
  if d.stage opu == .off then opuPowerUp opu d
  else if !d.opuReady opu || d.servoFault opu then d
  else
    let d := d.cond (d.fg .SLD_STAT_STATE opu == sldOff) (sldEnable opu true)
    d.cond (!d.is .SLD_STAT_HOMED opu && d.fg .SLD_STAT_STATE opu == sldIdle) (sldHome opu)

/-- Focus, track and the seek to read band 0 of an OPU (Table 9-2, t3; R685): its sled in place first. -/
def loadOpu (opu : Nat) (d : Dev) : Dev :=
  if !d.opuReady opu || d.servoFault opu || !d.svFree opu then d
  else if d.svSt opu = svOpen then
    if !d.homed opu then d
    else if d.sldPos opu != focusSledPos then
      sldTgtWrite opu (BitVec.ofInt 32 focusSledPos) (d.sldPos opu) 0 (d.fs .SLD_CTL_SRC 1 opu)
    else opuBring opu (d.cond (!(d.opuFw opu).focused) (calTrigger (2 ^ pairBit opu 4)))
  else if d.svSt opu = svTracking && d.fg .RCS_BAND_BASE_TRACK opu != 0 then
    moveTo opu 0 (d.sv opu svLayer) d
  else opuBring opu d

/-- Whether an OPU is at read band 0. -/
def Dev.atBandZero (d : Dev) (opu : Nat) : Bool :=
  d.opuReady opu && d.svSt opu == svTracking && d.svFree opu && d.fg .RCS_BAND_BASE_TRACK opu == 0

/-- RESULT1 of LOAD (Table 15-2). -/
def loadResult (d : Dev) (written : Bool) : Nat :=
  let x := d.fw.disc
  x.serial + bit (x.mediaClass = 1) <<< 32 + bit x.a.recordable <<< 33 + bit x.b.recordable <<< 34 + bit written <<< 35

/-- The disc announced to every unit of the ring (R563). -/
def announceDisc (kind : Nat) (d : Dev) : Dev :=
  let x := d.fw.disc
  d.each (List.range d.link.units.length) fun d a =>
    tell a kind (reqBytes 0 0 0 0 (leBytes 4 x.maker ++ leBytes 4 x.serial ++ leBytes 8 d.serial)) d

/-- The SAC presets of the disc's layers: those of the records of this disc, the reset values where none is (R354). -/
def loadPresets (serial : Nat) (d : Dev) : Dev :=
  let l := d.bySeq.filter fun b => recordType b == 0x06 && le (recordPayload b) 0 1 / 16 == 6
    && le (recordPayload b) 1 1 == CalResult.pass.code && le (recordPayload b) 8 4 == serial
  let d := loadBanks (d.opus.map (66 + ·)) d
  d.each l fun d b => d.cond (d.opuPresent (le (recordPayload b) 0 1 % 16)) fun d =>
    calTempOf 6 (le (recordPayload b) 0 1 % 16) (recordPayload b) (calLoadBank (recordPayload b) d)

/-- The records read, the map built, FORMAT carried out or refused, the LOAD record, and the end of LOAD. -/
def loadFinish (id : Nat) (m : Medium) (c : Cmd) (d : Dev) : Dev :=
  let readOnly := c.loadFlag 0
  let x := discOf m readOnly d
  let l := discRecords x.maker x.serial d.bySeq
  let d := fromCheckpoint m x d
  let d := d.each (l.filter fun b => recordType b == 0x05) fun d b => replayOther 0 b d
  let d := if d.needsScan m l then mediumScan m d else journalReplay l d
  let sides := (List.range 2).filter fun s => c.loadFlag 1 && (c.field 17 1).testBit s
  let refused := sides.findSome? (formatRefused m (c.loadFlag 2) x d)
  let written := !sides.isEmpty && refused.isNone
  let d := d.cond written (formatDisc c)
  let x := d.fw.disc
  let d := d.fwSubmit false 0x0C 0 (leBytes 4 x.serial ++ leBytes 4 x.maker ++ leBytes 4 (if x.a.copySeq < x.b.copySeq then x.b.copySeq else x.a.copySeq))
  let d := loadPresets x.serial (d.turnMode 3)
  let d := announceDisc rqLoaded (calTrigger (d.pairsOf [6]) (d.each d.opus fun d o =>
    d.onOpuFw o fun f => { f with layers := [d.sv o svLayer] }))
  let r := refused.getD (0, 0)
  d.endCmd id r.1 r.2 d.capacity (loadResult d written)

/-- LOAD: clamp and home, with what firmware keeps of each OPU since the last LOAD cleared (R248, R272); START; focus, track and read band 0; the records (Table 9-2). Its phases are `work` 0 to 3. -/
def loadCmd (id : Nat) (m : Medium) (d : Dev) : Dev :=
  runCmd id 0x18 (fun c d =>
    let go := fun (n : Nat) (d : Dev) => d.onCmd id fun c => { c with work := n }
    if d.frost then d
    else match c.work with
      | 0 =>
        let d := d.cond (d.clState == clFault) clampClearFault
        let d := (d.fs .SLD_CL_STAT_NO_DISC 0).cond (d.clState != clClamped) clampCmd
        let d := d.each (List.range 4) fun d o =>
          ((d.onOpuFw o fun f => { hot := f.hot }).onServo o fun s => { s with runout := [] }).svSet o svCount 0
        go 1 (calTrigger (d.pairsOf [0, 1, 2]) (d.each d.opus fun d o => slicesOff o (loadHome o d)))
      | 1 =>
        let d := d.each d.opus fun d o => loadHome o d
        let still := d.opus.filter fun o => !d.servoFault o
        if d.is .SLD_CL_STAT_NO_DISC && d.clState != clClamped then
          d.cond (d.clState == clReleased) fun d => d.endCmd id 4 0x0A
        else if d.clState = clFault then d.endCmd id 6 5
        else match d.loadFails with
          | some v => d.endCmd id v.1 v.2
          | none => d.cond (d.clState == clClamped && still.all d.homed) fun d => go 2 (spinUp d)
      | 2 =>
        if d.fw.spnWithdrawn then d.endCmd id 6 2
        else if d.clState = clFault then d.endCmd id 6 4
        else match d.loadFails with
          | some v => d.endCmd id v.1 v.2
          | none =>
            if d.spnState != spnRun then d.cond (d.spnState == spnOff) spinUp
            else
              let d := d.each d.opus fun d o => loadOpu o d
              let done := [0, 1].all fun s => !d.serves s || d.opus.any fun o => opuSide o == s && d.atBandZero o
              let all := d.opus.all fun o => d.atBandZero o || d.servoFault o || (d.opuFw o).withdrawn
              d.cond (done && all) (loadFinish id m c)
      | _ => d) d

/-! UNLOAD (R481, Table 9-3). -/

/-- Whether every recording run has ended: no plan that can be recorded, no closing revolution owed. -/
def Dev.runsEnded (d : Dev) : Bool :=
  d.opus.all fun o => (d.opuFw o).latched.isNone && !(d.opuFw o).running && !(d.opuFw o).closing

/-- The disc is gone: firmware's data of it cleared, and groups held only through it dropped (R566). -/
def discGone (d : Dev) : Dev :=
  let only := d.comp.groups.filter fun g => !d.keeps g
  let d := d.each only fun d g => dropGroup g.id d
  d.onFw fun w => { w with
    disc := {}, map := [], mapOrder := [], recorded := [], retired := [], reserve := [], ambiguous := [], refresh := []
    dirty := [], opcNext := [], opcFull := [], cpNext := [], cpFull := [], cpAbsorb := [], cpMap := [], cpRuns := []
    versions := w.versions.filter fun v => v.cp.isNone }

/-- UNLOAD: every stream and group command settled, recording ended, the CLOSED checkpoint and the UNLOAD record; then the
OPUs parked, the spindle stopped and the clamp released. `late`: 10 s have passed since the spindle was to stop. Its phases are
`work` 0 to 3, 3 being the checkpoint (R481). -/
def unloadCmd (id : Nat) (late : Bool) (d : Dev) : Dev :=
  runCmd id 0x19 (fun c d =>
    let go := fun (n : Nat) (d : Dev) => d.onCmd id fun c => { c with work := n }
    let x := d.fw.disc
    if d.clState = clReleased && c.work != 2 then d.endCmd id 0 0 x.serial
    else match c.work with
      | 0 =>
        if !x.loaded then go 1 d
        else if d.frost then d
        else
          let d := groupWork (flushAll d)
          if !d.allFlushed || !d.comp.parts.isEmpty then d
          else
            let d := d.each d.opus fun d o => d.cond ((d.opuFw o).running && (d.opuFw o).latched.isNone) (closingRevolution o)
            if !d.runsEnded then d
            else if !d.fw.cpRuns.isEmpty then cpWork d
            else go 3 (mapCheckpoint true d)
      | 3 =>
        if d.frost then d
        else
          let d := cpWork d
          let d := d.each d.opus fun d o =>
            d.cond ((d.opuFw o).running && (d.opuFw o).latched.isNone && !d.cpFirst o) (closingRevolution o)
          if !d.fw.cpRuns.isEmpty || !d.runsEnded then d
          else
            let d := d.cond (!x.readOnly) fun d => d.fwSubmit false 0x0D 0 (leBytes 4 x.serial)
            go 1 (announceDisc rqUnloaded d)
      | 1 =>
        if d.frost then d
        else
          let r := putAway d
          if r.1 then go 2 (releaseCmd (r.2.cond (2 < r.2.mode && r.2.mode < 6) fun d => d.setMode 2))
          else r.2.cond late fun d => d.endCmd id 6 6
      | _ =>
        if d.clState = clReleased then discGone (d.endCmd id 0 0 x.serial)
        else if d.clState = clFault then d.endCmd id 6 5
        else d.cond (d.clState == clClamped || d.clState == clUnknown) releaseCmd) d

/-! SEEK and CALIBRATE (R482). -/

/-- SEEK: the named OPU, or the first of the side that can serve, brought to TRACKING at the read band that holds the PSA. The
command keeps the Quire time plus 1 at which it began in `work`. -/
def seekCmd (id : Nat) (d : Dev) : Dev :=
  runCmd id 0x1A (fun c d =>
    let psa := c.field 16 5
    let named := c.field 21 1
    let opu := if named ≠ 0xFF then some named else d.opus.find? fun o => opuSide o == psaSide psa && d.canServe o
    let d := d.cond (c.work == 0) fun d => d.onCmd id fun c => { c with work := d.qtime + 1 }
    let d := bringUp d
    match opu with
    | none => d.endCmd id 6 1
    | some o =>
      if (d.opuFw o).withdrawn then d.endCmd id 6 1
      else
        let base := psaTrack psa / 24 * 24
        let there := d.opuReady o && d.svSt o == svTracking && d.svFree o && d.bandAt o == (layerKey psa, base)
        let began := if c.work = 0 then d.qtime else c.work - 1
        if there then (d.svSet o svNextJ 0).endCmd id 0 0 o ((d.qtime - began) / 1000)
        else d.cond (d.opuReady o && d.svSt o == svTracking && d.svFree o && !d.opuRecords o && 3 ≤ d.mode && d.mode ≤ 5)
          fun d =>
            let ok := d.paceOk o base
            (setPace o base (d.mode == 5) d).cond ok (moveTo o base (psaLayer psa))) d

/-- CALIBRATE: its pairs triggered and OPC asked for; it ends when none of its pairs is in a run or waits for one. -/
def calibrateCmd (id : Nat) (d : Dev) : Dev :=
  runCmd id 0x1B (fun c d =>
    let pairs := c.field 16 4 % 2 ^ 28
    let opc := d.opus.filter fun o => (c.field 20 1).testBit o
    if c.work = 0 then
      let d := d.each opc fun d o => d.onOpuFw o fun f => { f with opcDue := true }
      (calTrigger pairs d).onCmd id fun c => { c with work := 1 }
    else if (d.fg .CAL_RUN_PAIRS ||| d.fg .CAL_PEND_PAIRS) &&& pairs != 0 then d
    else
      let code := fun (p : Nat × Nat) => bitsOf (d.fg .CAL_RES_RESULT p.2) (3 * p.1) 3
      let of := fun (ok : Nat → Bool) => bitSet (((runOrder pairs).filter fun p => ok (code p)).map fun p => pairBit p.2 p.1)
      let bad := of fun k => 2 ≤ k && k != 6
      d.endCmd id 0 0 bad (of (· == 6) + bitSet (opc.filter fun o => (d.opuFw o).noRecord) <<< 32)) d

/-! The effects of the commands. -/

/-- LOAD (R480). -/
def execLoad (cmd : Nat) (medium : Medium) (s : State) : Host.Outcome State Fault Refusal :=
  s.onDev (loadCmd cmd medium)

/-- UNLOAD (R481). -/
def execUnload (cmd : Nat) (late : Bool) (s : State) : Host.Outcome State Fault Refusal :=
  s.onDev (unloadCmd cmd late)

/-- SEEK (R482). -/
def execSeek (cmd : Nat) (s : State) : Host.Outcome State Fault Refusal := s.onDev (seekCmd cmd)

/-- CALIBRATE (R482). -/
def execCalibrate (cmd : Nat) (s : State) : Host.Outcome State Fault Refusal := s.onDev (calibrateCmd cmd)

end Sys2Proof.Machine
end

