-- ==== Sys2Proof/Machine/Image.lean ====
section
/-!
DEFINITION. Firmware images (20_clocks_reset_boot.md R623, R626, 21_security_debug.md R633 to R639): the fuses read from the
shadow, the image header, the check of an image, and the choice between the two slots of the boot flash.
-/

namespace Sys2Proof.Machine

/-! Fuses (R633, R635). -/

/-- Whether the root hash can be trusted: ROOT_CRC holds and ROOT_HASH is not all zeros. -/
def rootOk (shadow : Nat) : Bool :=
  let h := bitsOf shadow 1024 384
  crc32c (leBytes 48 h) == bitsOf shadow 1408 32 && h != 0

/-! The header (Table 21-2). -/

/-- The values of a run of keys, from a store in canonical form that lists no smaller key. -/
def sparseRun (x : Byte) : Nat → Nat → Sparse Byte → Bytes
  | 0, _, _ => []
  | n + 1, a, [] => x :: sparseRun x n (a + 1) []
  | n + 1, a, (k, v) :: m =>
    if k = a then v :: sparseRun x n (a + 1) m else x :: sparseRun x n (a + 1) ((k, v) :: m)

/-- Bytes of the boot flash from an address on; an unlisted byte reads 0xFF. -/
def Dev.flashRead (d : Dev) (a n : Nat) : Bytes := sparseRun 0xFF#8 n a (d.aon.flash.filter fun e => a ≤ e.1)

/-- Bytes of the boot flash written from an address on. -/
def flashWrite (a : Nat) (b : Bytes) (d : Dev) : Dev :=
  { d with aon := { d.aon with flash := b.zipIdx.foldl (fun m e => sparseSet 0xFF#8 m (a + e.2) e.1) d.aon.flash } }

/-- Where an image slot begins. -/
def slotBase (k : Nat) : Nat := k * 0x800000

/-- A field of a header. -/
def hField (h : Bytes) (off n : Nat) : Nat := leNat ((h.drop off).take n)

/-- Whether a range of a header is all zeros. -/
def hZero (h : Bytes) (off n : Nat) : Bool := ((h.drop off).take n).all (· == 0#8)

/-- Step 1 of R639: ID, VERSION, HLEN, LENGTH and HCRC valid, reserved bytes zero. -/
def headerOk (h : Bytes) : Bool :=
  let n := hField h 8 4
  hField h 0 4 == 0x4D524946 && hField h 4 2 == 1 && hField h 6 2 == 512 && n % 4096 == 0 && 512 + n ≤ 2 ^ 23
    && hField h 20 1 ≤ 64 && hZero h 21 1 && hZero h 26 38 && hZero h 256 252
    && crc32c (h.take 508) == hField h 508 4

/-- The signed message of a header and a body (R638). -/
def signedMessage (h body : Bytes) : Bytes := h.take 12 ++ (h.drop 16).take 144 ++ body

/-- The check of R639 under a fuse shadow: the step that the image fails, if one. -/
def imageFault (shadow : Nat) (h body : Bytes) : Option Nat :=
  let key := (h.drop 64).take 96
  if !headerOk h then some 1
  else if !rootOk shadow || sha384 key != leBytes 48 (bitsOf shadow 1024 384) then some 2
  else if !ecdsaOk key ((h.drop 160).take 96) (signedMessage h body) then some 3
  else if hField h 20 1 < popCount 64 (bitsOf shadow 1472 64) then some 4
  else none

/-- The header of an image slot, and its body. -/
def Dev.slotHeader (d : Dev) (k : Nat) : Bytes := d.flashRead (slotBase k) 512
/-- See `Dev.slotHeader`. -/
def Dev.slotBody (d : Dev) (k : Nat) : Bytes := d.flashRead (slotBase k + 512) (hField (d.slotHeader k) 8 4)

/-- The slots whose header is valid, the later commit sequence first (R626). -/
def Dev.bootOrder (d : Dev) : List Nat :=
  let l := [0, 1].filter fun k => headerOk (d.slotHeader k)
  if l.length = 2 && ssqLater (hField (d.slotHeader 1) 12 4) (hField (d.slotHeader 0) 12 4) then [1, 0] else l

/-- What boot chooses: a slot and whether it is the fallback, or the cause of failure of Table 20-7 (R626, R639). Where two
slots fail, the cause is that of the one tried last. -/
def Dev.chooseImage (d : Dev) : Option (Nat × Bool) × Nat :=
  let fault := fun k => imageFault d.shadow (d.slotHeader k) (d.slotBody k)
  let cause := fun k => if fault k == some 4 then 4 else 3
  match d.bootOrder with
  | [] => (none, 2)
  | [a] => if (fault a).isNone then (some (a, false), 0) else (none, cause a)
  | a :: b :: _ =>
    if (fault a).isNone then (some (a, false), 0)
    else if (fault b).isNone then (some (b, true), 0)
    else (none, cause b)

/-- The unit with the image of a slot in use. -/
def takeImage (k : Nat) (fallback : Bool) (d : Dev) : Dev :=
  ({ d with aon := { d.aon with image := d.slotHeader k } } |>.fs .CLK_BOOT_SLOT k).fs .CLK_BOOT_FALLBACK (bit fallback)

/-! FIRMWARE DOWNLOAD and FIRMWARE COMMIT (R487). -/

/-- FIRMWARE DOWNLOAD: the bytes staged at OFFSET. -/
def firmwareDownload (id : Nat) (d : Dev) : Dev :=
  runCmd id 0x32 (fun _ d => withData id (fun c d =>
    let sum := d.aon.stagedSum + c.dlen
    let aon := { d.aon with staged := memWrite d.aon.staged (c.field 24 4) (d.hostData c), stagedSum := sum }
    ({ d with aon := aon }).endCmd id 0 0 sum) d) d

/-- A header with another commit sequence, its HCRC made good again (R638). -/
def reSequence (cseq : Nat) (h : Bytes) : Bytes :=
  let b := h.take 12 ++ leBytes 4 cseq ++ (h.drop 16).take 492
  b ++ leBytes 4 (crc32c b)

/-- FIRMWARE COMMIT: the staged image is checked and written to the slot that the unit did not boot from, with the next commit
sequence; with ACTIVATE the firmware restarts once the reply is posted. -/
def firmwareCommit (id : Nat) (d : Dev) : Dev :=
  runCmd id 0x33 (fun c d =>
    let h := memRead d.aon.staged 0 512
    let body := memRead d.aon.staged 512 (hField h 8 4)
    if d.is .FUSE_STAT_BUSY then d
    else if (imageFault d.shadow h body).isSome then d.endCmd id 3 0x0F
    else
      let seq := (hField d.aon.image 12 4 + 1) % 2 ^ 32
      let d := flashWrite (slotBase (1 - d.fg .CLK_BOOT_SLOT)) (reSequence seq h ++ body) d
      let d := { d with aon := { d.aon with staged := [], stagedSum := 0, restart := c.field 24 1 == 1 } }
      d.endCmd id 0 0 (hField h 16 4) d.arb) d

/-! The effects of the commands. -/

/-- FIRMWARE_DOWNLOAD (R487). -/
def execFirmwareDownload (cmd : Nat) (s : State) : Host.Outcome State Fault Refusal := s.onDev (firmwareDownload cmd)

/-- FIRMWARE_COMMIT (R487). -/
def execFirmwareCommit (cmd : Nat) (s : State) : Host.Outcome State Fault Refusal := s.onDev (firmwareCommit cmd)

end Sys2Proof.Machine
end

