-- ==== Sys2Proof/Machine/OpenCmds.lean ====
section
/-!
DEFINITION. Open-region microcode (06_control_law_engine.md R231 to R236, 15_commands.md R485, R486) and DIAGNOSTIC operations
3 to 6 (R488).
-/

namespace Sys2Proof.Machine

/-! MICROCODE LOAD (R234, R235, R485). -/

/-- A descriptor of a Quejo image (Table 6-11): ENTRY, WCET, PERIOD, flags, bank LEN, state words. -/
structure QuejoSlot where
  entry : Nat
  wcet : Nat
  period : Nat
  flags : Nat
  len : Nat
  state : Nat

/-- The descriptors that an image uses. -/
def quejoSlots (b : Bytes) : List QuejoSlot :=
  (List.range (hField b 10 1)).map fun i =>
    let f := fun (off n : Nat) => hField b (32 + 12 * i + off) n
    { entry := f 0 2, wcet := f 2 2, period := f 4 3, flags := f 7 1, len := f 8 1, state := f 9 1 }

/-- The admission test of R235, over the common denominator of the periods. -/
def quejoAdmitted (l : List QuejoSlot) : Bool :=
  let all := l.foldl (fun p s => p * s.period) 1
  (l.map fun s => (s.wcet + 10) * 300000000 * (all / s.period)).sum ≤ 30000000 * all

/-- The reason for which an image is refused, if one (R485). -/
def quejoFault (b : Bytes) : Option Nat :=
  let words := hField b 6 2
  let off := hField b 8 2
  let l := quejoSlots b
  if hField b 0 4 != 0x4A514C43 || hField b 4 2 != 1 || 8 < hField b 10 1 then some 1
  else if crc32c (b.drop 128) != hField b 12 4 then some 2
  else if words = 0 || 4096 < off + words then some 3
  else if l.any fun s => s.entry < 0x3000 + off || 0x3000 + off + words ≤ s.entry then some 4
  else if l.any fun s => s.period < 200 || 1048575 < s.period then some 5
  else if (l.any fun s => s.len = 0 || 64 < s.len) || 3840 < (l.map fun s => 2 * s.len + s.state).sum then some 6
  else if !quejoAdmitted l then some 7
  else none

/-- Open slots configured from descriptors: LS72 + i, banks and state placed from `base` on in descriptor order (R234). -/
def openConfigure : Nat → Nat → List QuejoSlot → Dev → Dev
  | _, _, [], d => d
  | n, base, s :: rest, d =>
    let d := (((((d.fs .SLOT_CFG_PRIO (2 + bitsOf s.flags 0 1) n).fs .SLOT_CFG_SATM (bitsOf s.flags 1 1) n).fs .SLOT_CFG_FTZ
      (bitsOf s.flags 2 1) n).fs .SLOT_CFG_AW (bitsOf s.flags 3 2) n).fs .SLOT_CFG_OPU 7 n).fs .SLOT_CFG_SRC 0 n
    let d := ((d.fs .SLOT_PER_PERIOD s.period n).fs .SLOT_PHASE 0 n).fs .SLOT_ENTRY_ENTRY s.entry n
    let d := ((d.fs .SLOT_ENTRY_STATE (base + 2 * s.len) n).fs .SLOT_BANK_BASE base n).fs .SLOT_BANK_LEN (s.len - 1) n
    openConfigure (n + 1) (base + 2 * s.len + s.state) rest ((d.fs .SLOT_CTL_ACTIVE 0 n).fs .SLOT_CTL_PENDING 0 n)

/-- Slots LS72 + i of a mask. -/
def openSlots (mask : Nat) : List Nat := ((List.range 8).filter mask.testBit).map (72 + ·)

/-- Open slots started; none while OPEN_LOCK is in force (R236). -/
def openStart (l : List Nat) (d : Dev) : Dev := d.cond (!d.openLock) (slotsStart l)

/-- MICROCODE LOAD. -/
def microcodeLoad (id : Nat) (d : Dev) : Dev :=
  runCmd id 0x30 (fun _ d => withData id (fun c d =>
    let b := d.hostData c
    let words := hField b 6 2
    if hField b 0 4 = 0x4A514C43 && c.dlen != 128 + 16 * words then d.endCmd id 3 3
    else match quejoFault b with
      | some r => d.endCmd id 3 0x0E r
      | none =>
        let off := 0x3000 + hField b 8 2
        let word := fun (i : Nat) => BitVec.ofNat 128 (hField b (128 + 16 * i) 16)
        let d := d.each (List.range words) fun d i => d.putCs (off + i) (word i)
        let d := openConfigure 72 0x3000 (quejoSlots b) (d.onFw fun w => { w with quejo := b.take 128 })
        let mask := 2 ^ hField b 10 1 - 1
        let d := d.cond ((c.field 24 1).testBit 0) (openStart (openSlots mask))
        d.endCmd id 0 0 mask) d) d

/-! OPEN CONTROL (R232, R486). -/

/-- The results of OPEN CONTROL: open slots enabled, and CLE_IOREL. -/
def openEnd (id : Nat) (d : Dev) : Dev :=
  d.endCmd id 0 0 (bitSet ((List.range 8).filter fun i => d.is .SLOT_CFG_EN (72 + i))) (d.rd .CLE_IOREL).toNat

/-- OP 1: the open slots in SLOTS start. -/
def openStartCmd (id : Nat) (d : Dev) : Dev :=
  runSub id 0x31 1 (fun c d => openEnd id (openStart (openSlots (c.field 25 1)) d)) d

/-- OP 2: the open slots in SLOTS stop; where one of them ran, the release is withdrawn (R232). -/
def openStopCmd (id : Nat) (d : Dev) : Dev :=
  runSub id 0x31 2 (fun c d =>
    let l := openSlots (c.field 25 1)
    let ran := l.any fun n => d.is .SLOT_CFG_EN n
    openEnd id ((d.each l fun d n => slotStop n d).cond ran openWithdraw)) d

/-- The slots of F3.1 that drive the port groups of an IOREL (Table 6-13): each DAC, SLED_TGT, the spindle outputs and the
APC_SCALE ports. -/
def groupDrivers (rel : Nat) : List Nat :=
  ((List.range 16).filter rel.testBit).map (fun k => (if k % 4 = 0 then 0 else if k % 4 = 1 then 4 else if k % 4 = 2 then 57 else 66) + k / 4)
    ++ ((List.range 4).filter fun o => rel.testBit (16 + o)).map (61 + ·)
    ++ (if rel.testBit 20 then [8] else [])
    ++ ((List.range 4).filter fun o => rel.testBit (24 + o)).flatMap apcSlots

/-- OP 3: the port groups in IOREL released, F3.1's own slots that drive them held disabled. -/
def openReleaseCmd (id : Nat) (d : Dev) : Dev :=
  runSub id 0x31 3 (fun c d =>
    let now := (d.rd .CLE_IOREL).toNat
    let rel := now ||| (c.field 28 4 &&& Reg.rw .CLE_IOREL)
    let stop := (groupDrivers rel).filter fun n => d.is .SLOT_CFG_EN n
    let d := d.each stop fun d n => slotStop n d
    openEnd id ((d.wr .CLE_IOREL (BitVec.ofNat 32 rel)).onFw fun w => { w with openHeld := w.openHeld ++ stop })) d

/-- OP 4: the release withdrawn. -/
def openWithdrawCmd (id : Nat) (d : Dev) : Dev := runSub id 0x31 4 (fun _ d => openEnd id (openWithdraw d)) d

/-- OP 5: the inactive bank of LS72 + SLOT written, and the banks swapped; the reply follows the swap, and the load
waits for a swap that is pending (R223, R224). -/
def openBankLoad (id : Nat) (d : Dev) : Dev :=
  runSub id 0x31 5 (fun _ d => withData id (fun c d =>
    let n := 72 + c.field 26 1
    if c.work = 0 then
      if d.is .SLOT_CTL_PENDING n then d
      else
      let b := d.hostData c
      let ws := (List.range (d.fg .SLOT_BANK_LEN n + 1)).map fun i => BitVec.ofNat 128 (hField b (16 * i) 16)
      let d := (bankWrite n ws d).onCmd id fun c => { c with work := 1 }
      if d.is .SLOT_CTL_PENDING n then d else openEnd id d
    else if d.is .SLOT_CTL_PENDING n then d
    else openEnd id d) d) d

/-! DIAGNOSTIC (R488). -/

/-- The codec test's sheet PSA: the first slot of the record area's first track, side A, layer 0. -/
def codecPsa : Nat := mkPsa 0 0 36 0 0

/-- The result of the codec test's sheet, if the SDE has written it. -/
def Dev.codecResult (d : Dev) : Option SheetResult :=
  let ci := d.fg .SDE_SRES_CI
  if ci = d.fg .SDE_SRES_PI then none
  else
    let r := SheetResult.of (d.bufGet 2 (d.fg .SDE_SRES_BASE * 4096 + 64 * ci) 64).1
    if r.psa = codecPsa then some r else none

/-- A sheet of the codec test posted: its encode job and the context that waits for its leaves (R149). -/
def codecPost (d : Dev) : Dev :=
  let pi := d.fg .WSG_EJOB_PI
  if (pi + 1) % 256 = d.fg .WSG_EJOB_CI then d
  else
    let st := strengthAt (d.sideInfo 0).strength 36
    let dat := d.alloc 131072
    let hold := dat.2.alloc 262144
    let out := hold.2.alloc 131072
    let d := openCtx codecPsa 0 0 0 out.1 0 out.2
    let j : EncJob := { dat := dat.1, hold := hold.1, psa := codecPsa, level := st.level, pcode := pCode st.p, lsn := 0 }
    (d.bufPut 2 (d.fg .WSG_EJOB_BASE * 4096 + 32 * pi) j.bytes).fs .WSG_EJOB_PI ((pi + 1) % 256)

/-- DIAGNOSTIC OP 3: the codec test on COUNT sheets, one after the other; run again as each comes to its result. -/
def codecTest (id : Nat) (d : Dev) : Dev :=
  runSub id 0x38 3 (fun c d =>
    let count := c.field 36 4
    if c.work = 0 then
      let d := (d.fs .SDE_TEST_ERR_EXP (c.field 40 1)).fs .SDE_TEST_BURST_LEN (256 * c.field 41 1)
      if count = 0 then d.endCmd id 0 0
      else codecPost ((sdeTestModeWrite true d).onCmd id fun c => { c with work := 1 })
    else match d.codecResult with
      | none => d
      | some r =>
        let d := sdeFlush (d.fs .SDE_SRES_CI ((d.fg .SDE_SRES_CI + 1) % 2048))
        let r0 := c.r0 + bit (r.status != shGood && r.status != shOuter)
        let r1 := c.r1 + (r.n - popCount 40 r.good)
        if count ≤ c.work then (sdeTestModeWrite false d).endCmd id 0 0 r0 r1
        else codecPost (d.onCmd id fun c => { c with work := c.work + 1, r0 := r0, r1 := r1 })) d

/-- Whether a surface test records a slot: it lies in the data area, no mapped sheet and no version stands in it, and a strategy set
covers its layer (R56, R170, R186). -/
def Dev.testable (d : Dev) (psa : Nat) : Bool :=
  decide (4200 ≤ psaTrack psa) && !d.isMapped psa && !d.slotPlanned psa && (d.strategySet (layerKey psa)).isSome

/-- A slot put into a plan of the surface test, on the first OPU of its side that records, with its encode job. -/
def testAdd (id psa : Nat) (d : Dev) : Dev :=
  match (d.recorders (psaSide psa)).head? with
  | none => d
  | some opu =>
    let key := layerKey psa
    let band := psaTrack psa / 12
    let r := d.alloc 131072
    let o := r.2.fw.nextOrder
    let v : Version := { order := o, lsn := noSheet, stream := 16, addr := r.1, psa := some psa, opu := opu, copyOf := some psa
                         since := d.qtime, test := some id }
    let d := r.2.onFw fun w => { w with versions := w.versions ++ [v], nextOrder := o + 1 }
    let cell := (psaTrack psa % 12, psaSlot psa, o)
    let here := fun (p : BandPlan) => p.key == key && p.band == band
    let p : BandPlan := { band := band, side := key / 8, layer := key % 8 }
    postEncode o (d.onOpuFw opu fun f => { f with
      plans := (if f.plans.any here then f.plans else f.plans ++ [p]).map fun q => if here q then { q with cells := q.cells ++ [cell] } else q })

/-- DIAGNOSTIC OP 4: the slots of a Class E disc recorded, from the outermost band inward, and verified; a retired slot that passes
becomes free, one that fails is retired (R185). A slot that is not recorded counts as failed. Run again until every slot has its
result; what data the slots are recorded with is notes/assumptions/136.md. -/
def surfaceTest (id : Nat) (d : Dev) : Dev :=
  runSub id 0x38 4 (fun c d =>
    let psa := c.field 28 5
    let l := slotRun (d.sideInfo (psaSide psa)).strength (c.field 36 4) psa
    if c.work = 0 then
      (d.each (l.filter d.testable).reverse fun d p => testAdd id p d).onCmd id fun c => { c with work := 1 }
    else if d.fw.versions.any fun v => v.test == some id && v.stage != .failed && v.stage != .gone then d
    else
      let ok := l.filter d.fw.tested.contains
      let d := d.onFw fun w => { w with
        retired := w.retired.filter (!ok.contains ·), recorded := w.recorded.filter (!ok.contains ·), tested := []
        versions := w.versions.filter fun v => v.test != some id }
      d.endCmd id 0 0 ok.length (l.length - ok.length)) d

/-- DIAGNOSTIC OP 5: a raw read of one buffer word through the test port (R367). -/
def rawBufferRead (id : Nat) (d : Dev) : Dev :=
  runSub id 0x38 5 (fun c d =>
    let w := c.field 44 4
    if d.visible ≤ 16 * w then d.endCmd id 3 5
    else
      let d := rawRead ((d.fs .DRC_TEST_CTL_EN 1).fs .DRC_TEST_ADDR w)
      let b := (List.range 4).flatMap (fun k => leBytes 4 (d.fg .DRC_TEST_DATA k)) ++ leBytes 2 (d.fg .DRC_TEST_CHK_CHK)
        ++ leBytes 1 (d.fg .DRC_TEST_CHK_SYND0) ++ leBytes 1 (d.fg .DRC_TEST_CHK_SYND1)
      (deliver c 0 (takeFill 0#8 32 b) (d.fs .DRC_TEST_CTL_EN 0)).endCmd id 0 0) d

/-- DIAGNOSTIC OP 6: the CLE trace ring copied (R211). -/
def traceCopy (id : Nat) (d : Dev) : Dev :=
  runSub id 0x38 6 (fun c d =>
    let r := d.bufGet 2 (d.fg .CLE_TRACE_BASE / 16 * 65536) 65536
    (deliver c 0 r.1 r.2).endCmd id 0 0 (d.rd .CLE_TRACE_ST).toNat) d

/-! The effects of the commands. -/

/-- MICROCODE_LOAD (R485). -/
def execMicrocodeLoad (cmd : Nat) (s : State) : Host.Outcome State Fault Refusal := s.onDev (microcodeLoad cmd)

/-- OPEN_START (R486). -/
def execOpenStart (cmd : Nat) (s : State) : Host.Outcome State Fault Refusal := s.onDev (openStartCmd cmd)

/-- OPEN_STOP (R486). -/
def execOpenStop (cmd : Nat) (s : State) : Host.Outcome State Fault Refusal := s.onDev (openStopCmd cmd)

/-- OPEN_RELEASE (R232). -/
def execOpenRelease (cmd : Nat) (s : State) : Host.Outcome State Fault Refusal := s.onDev (openReleaseCmd cmd)

/-- OPEN_WITHDRAW (R486). -/
def execOpenWithdraw (cmd : Nat) (s : State) : Host.Outcome State Fault Refusal := s.onDev (openWithdrawCmd cmd)

/-- OPEN_BANK_LOAD (R486). -/
def execOpenBankLoad (cmd : Nat) (s : State) : Host.Outcome State Fault Refusal := s.onDev (openBankLoad cmd)

/-- CODEC_TEST (R149). -/
def execCodecTest (cmd : Nat) (s : State) : Host.Outcome State Fault Refusal := s.onDev (codecTest cmd)

/-- SURFACE_TEST (R185). -/
def execSurfaceTest (cmd : Nat) (s : State) : Host.Outcome State Fault Refusal := s.onDev (surfaceTest cmd)

/-- RAW_BUFFER_READ (R488). -/
def execRawBufferRead (cmd : Nat) (s : State) : Host.Outcome State Fault Refusal := s.onDev (rawBufferRead cmd)

/-- TRACE_COPY (R488). -/
def execTraceCopy (cmd : Nat) (s : State) : Host.Outcome State Fault Refusal := s.onDev (traceCopy cmd)

end Sys2Proof.Machine
end

