-- ==== Sys2Proof/Machine/Reset.lean ====
section
/-!
DEFINITION. Resets (20_clocks_reset_boot.md R616 to R619): what a unit reset and a power-on reset keep.
-/

namespace Sys2Proof.Machine

/-- The registers of a set of windows, as stored. -/
def Dev.keepRegs (d : Dev) (l : List Block) : Sparse DWord :=
  d.regs.filter fun e => l.any fun b => e.1 / 0x100000 == b.code

/-- What survives a loss of every supply: the boot flash, the journal's rows, the groups that firmware keeps with them
(DESIGN CHOICE, notes/assumptions/46.md), and what is not the unit's: its package and host memory. -/
def Dev.nonvolatile (d : Dev) : Dev :=
  { free := d.free, bonded := d.bonded, hostMem := d.hostMem, answer := d.answer, error := d.error
    journal := { rows := d.journal.rows }
    aon := { flash := d.aon.flash, internal := d.aon.internal }
    comp := { groups := d.comp.groups.map fun g => { g with locks := [] }, nextId := d.comp.nextId } }

/-- A unit reset (R618): the record in progress is completed (`begun`), then every island but AON is reset. Kept are the
last-gasp log, the PMU, CLK and FUSE registers, the role epoch, Quire time and the fuse shadow (Table 20-4); of a HOST island
that the reset spares, its registers and configuration space. -/
def unitReset (cause : Nat) (keepHost begun : Bool) (fails0 fails1 : List Bool) (d : Dev) : Dev :=
  let d := if begun then (d.recordWrite fails0 fails1).1 else d
  let n := d.nonvolatile
  let pins := (d.rd .SLD_CL_STAT).toNat &&& 0x18
  let keep := [Block.pmu, .clk, .fuse] ++ (if keepHost then [Block.hc] else [])
  let r : Dev :=
    { n with
      regs := d.keepRegs keep
      qtime := d.qtime
      shadow := d.shadow
      journal := { rows := d.journal.rows, gasps := d.journal.gasps, gaspCount := d.journal.gaspCount }
      host := if keepHost then { cfg := d.host.cfg, up := d.host.up } else {}
      aon := { d.aon with
        reset := true, beats := 0, paused := none, examine := true, staged := [], stagedSum := 0, image := [], restart := false
        sleep := false, asleep := false, arbTarget := 0, wakeOwed := 0 } }
  let r := r.fs .QL_EPOCH (d.fg .QL_EPOCH)
  let r := clFromInputs (r.wr .SLD_CL_STAT (BitVec.ofNat 32 pins))
  let r := setIslands false keepHost false false false ((r.setMode 2).fs .PMU_STAT_OPU_ON 0)
  let r := ((r.fs .FUSE_STAT_PATCHED 0).fs .FUSE_STAT_BUSY 0).fs .CLK_STAT_LOCKED 0
  journalReset ((r.fs .CLK_RST_CAUSE cause).bump .CLK_CNT_UNITRST)

/-- UNIT_RESET: RESET_N low for long enough (R617). In DORMANT it is a wake event too (R591). -/
def resetN (begun : Bool) (fails0 fails1 : List Bool) (d : Dev) : Dev :=
  let d := d.cond (d.mode == 1) fun d => (d.fs .PMU_WAKE_CAUSE 5).bump .PMU_CNT_WAKE
  unitReset 1 false begun fails0 fails1 d

/-- POWER_ON_RESET (R616): VDD_AON below 1.6 V. -/
def powerOnReset (d : Dev) : Dev :=
  let n := d.nonvolatile
  let pins := (d.rd .SLD_CL_STAT).toNat &&& 0x18
  journalReset (clFromInputs ({ n with aon := { flash := d.aon.flash } }.wr .SLD_CL_STAT (BitVec.ofNat 32 pins)))

/-- PLL_UNLOCK: the root PLL out of lock for more than 1 µs (R610): a unit reset with cause PLL. -/
def pllUnlock (begun : Bool) (d : Dev) : Dev :=
  if !d.is .CLK_STAT_LOCKED then d
  else unitReset 4 false begun [] [] ((d.fs .CLK_STAT_UNLOCK 1).bump .CLK_CNT_UNLOCK)

/-- CRYSTAL_FAIL: no crystal edge for 200 ns (R610): the internal oscillator, and a unit reset that is held. -/
def crystalFail (begun : Bool) (d : Dev) : Dev :=
  if d.aon.internal then d
  else
    let d := unitReset 5 false begun [] [] ((d.fs .CLK_STAT_XTAL_FAIL 1).fs .CLK_STAT_XTAL_OK 0)
    { d with aon := { d.aon with internal := true } }

/-- CRYSTAL_RETURN: crystal edges have returned for 1 ms (R610); boot may follow. -/
def crystalReturn (d : Dev) : Dev :=
  ({ d with aon := { d.aon with internal := false } }).fs .CLK_STAT_XTAL_OK 1

/-! The effects of the commands. -/

/-- UNIT_RESET (R618). -/
def execUnitReset (begun : Bool) (fails0 : List Bool) (fails1 : List Bool) (s : State) :
    Host.Outcome State Fault Refusal :=
  s.onDev (resetN begun fails0 fails1)

/-- POWER_ON_RESET (R616). -/
def execPowerOnReset (s : State) : Host.Outcome State Fault Refusal := s.onDev powerOnReset

/-- PLL_UNLOCK (R610). -/
def execPllUnlock (begun : Bool) (s : State) : Host.Outcome State Fault Refusal := s.onDev (pllUnlock begun)

/-- CRYSTAL_FAIL (R610). -/
def execCrystalFail (begun : Bool) (s : State) : Host.Outcome State Fault Refusal := s.onDev (crystalFail begun)

/-- CRYSTAL_RETURN (R610). -/
def execCrystalReturn (s : State) : Host.Outcome State Fault Refusal := s.onDev crystalReturn

end Sys2Proof.Machine
end

