-- ==== Sys2Proof/Machine/Quire.lean ====
section
/-!
DEFINITION. The ports of the Quire link (17_quire_link.md R523 to R531, R538, R539, R543): frames received and replayed,
training, a port going down, and messages passed on.
-/

namespace Sys2Proof.Machine

/-! Passing messages on (R529, R538). -/

/-- The port by which a message that came in by one port goes on. -/
def onward (p : Nat) (m : QMsg) : Nat := if p < 2 then otherPort p else if m.up then 0 else 1

/-- Whether a broadcast ends here: the onward port is down or asleep. -/
def Dev.legEnds (d : Dev) (p : Nat) (m : QMsg) : Bool := d.portState (onward p m) != 2

/-- A pass of a chain-wide operation that meets its end here is reported to its coordinator, by the same message addressed to
it (R529). -/
def legReport (m : QMsg) (d : Dev) : Dev :=
  let d' := sendMsg { type := m.type, dst := m.src, cls := 0, arg := m.arg, epoch := d.epoch } d
  if m.type = 0x32 ∨ m.type = 0x35 ∨ m.type = 0x36 ∨ m.type = 0x37 then d' else d

/-- A broadcast passed on, or reported where its way ends. -/
def passOn (p : Nat) (m : QMsg) (d : Dev) : Dev :=
  if d.legEnds p m then legReport m d else forwardOn (onward p m) m d

/-- MESSAGE_FORWARD: the oldest message not addressed to this unit goes on by the other port; where that port is down, by the
way that is left (R530), and it is discarded where there is none. -/
def messageForward (d : Dev) : Dev :=
  match (d.link.inbox.findIdx? fun e => !d.forMe e.2).bind fun i => (d.link.inbox[i]?).map fun e => (i, e) with
  | none => d
  | some (i, p, m) =>
    let d := giveBack p m (d.onLink fun l => { l with inbox := l.inbox.eraseIdx i })
    let out := onward p m
    if d.portState out != 0 then forwardOn out m d
    else match d.route m.dst with
      | some q => forwardOn q m d
      | none => d.fs .QL_STAT_NOROUTE 1

/-! The state of links (R530). -/

/-- TOPO out of every port that is up: the link, its new state (0 down, 2 up), and whether the far unit has no address. -/
def sendTopo (link state : Nat) (bare : Bool) (d : Dev) : Dev :=
  let m : QMsg := { type := 0x39, payload := takeFill 0#8 16 (leBytes 1 link ++ leBytes 1 state ++ leBytes 1 (bit bare)) }
  sendOn 0 m (sendOn 1 m d)

/-- A change of a link's state taken into the routes: down, up, or asleep (R529, R530, R542). -/
def linkState (link : Nat) (down asleep : Bool) (d : Dev) : Dev :=
  d.onLink fun l => { l with
    down := if down then (l.down.filter (· != link)) ++ [link] else l.down.filter (· != link)
    asleep := if asleep then (l.asleep.filter (· != link)) ++ [link] else l.asleep.filter (· != link) }

/-- A message of the dead link sent again by the new route, ahead of those that wait (R530). -/
def resend (e : Bool × QMsg) (d : Dev) : Dev :=
  if e.2.type = 0 then d
  else if e.2.bcast then legReport e.2 d
  else match d.route e.2.dst with
    | none => d.fs .QL_STAT_NOROUTE 1
    | some p => d.onPort p fun q => { q with wait := (e.1, { e.2 with up := p == 0 }) :: q.wait }

/-- PORT_DOWN: the port is down; TOPO, new routes, and the messages of its unacknowledged frames and those that waited go by
the way that is left (R530). A token that it held travels on in the opposite direction (R539). -/
def portDown (p : Nat) (d : Dev) : Dev :=
  if d.portState p == 0 then d
  else
    let q := d.port p
    let old := q.retry.flatMap fun f => if f.2.1 then [] else f.2.2
    let msgs := ((takeMsgs old.length old).1.map fun m => (m.src == d.addr, m)) ++ q.wait
    let link := d.portLink p
    let d := topoBit (((d.fs .QL_PSTAT_STATE 0 p).fs .QL_PSTAT_NARROW 0 p).bump .QL_CNT_DOWN p)
    let d := d.onPort p fun _ => { trained := q.trained, passed := q.passed }
    let d := d.cond (!d.link.units.isEmpty) (linkState link true false)
    let o := otherPort p
    let d := d.cond q.token fun d => d.onPort o fun x => { x with token := true, quota := limitN 1 4095 (d.fg .QL_QUOTA_Q) }
    let d := d.each msgs.reverse fun d e => resend e d
    headAttn (flushPorts (sendTopo link 0 false d))

/-! Training (R523, R524, R528). -/

/-- A port retrains: RETRAIN, or after repeated failures of a frame. -/
def portRetrain (p : Nat) (d : Dev) : Dev :=
  if d.portState p != 2 then d
  else ((d.fs .QL_PSTAT_STATE 4 p).bump .QL_CNT_RETRAIN p).onPort p fun q => { q with errs := [] }

/-- The retry buffer sent again, in order, with its sequence numbers unchanged; the latest of its frames is what was sent
last. -/
def replayFrames (p : Nat) (d : Dev) : Dev :=
  d.onPort p fun q => { q with
    nakd := false
    steps := if q.sent.isEmpty then d.frameBits p * (q.retry.length - 1) else q.steps + d.frameBits p * q.retry.length
    sent := match q.retry.getLast? with
      | some f => frameBytes f.2.2 f.1 f.2.1 q
      | none => q.sent }

/-- What a training finds: lanes 0 and 1 pass, lanes 2 and 3 pass, lanes reversed, both ends of one kind, the one-way delay,
and whether the neighbour has no address. -/
structure Trained where
  low : Bool
  high : Bool
  reversed : Bool
  miswired : Bool
  delay : Nat
  bare : Bool

/-- A port becomes active: the first frame follows, and what waits is sent. -/
def portUp (p : Nat) (t : Trained) (d : Dev) : Dev :=
  let d := ((d.fs .QL_PSTAT_STATE 2 p).fs .QL_PSTAT_NARROW (bit (!(t.low && t.high))) p).fs .QL_PSTAT_REVERSED (bit t.reversed) p
  let d := (d.fs .QL_PDELAY_DELAY t.delay p).onPort p fun q => { q with busy := d.qtime, sent := [], steps := 0, upper := !t.low }
  let link := d.portLink p
  let d := d.cond (!d.link.units.isEmpty) (linkState link false false)
  flushPorts (idleFrame p d)

/-- Whether a port may train: enabled, its LINK island on. -/
def Dev.mayTrain (d : Dev) (p : Nat) : Bool :=
  d.is .QL_CTL_EN && !d.is .QL_PCTL_DISABLE p && (d.fg .PMU_STAT_ISL).testBit 0

/-- LINK_TRAINING, before a count-off that it may call for: a cold training, at most one every 100 ms, or the end of a
retrain; two failed retrains within 10 ms take the port down (R524, R528). -/
def linkTraining (p : Nat) (t : Trained) (d : Dev) : Dev :=
  let pass := t.low || t.high
  let st := d.portState p
  if !d.mayTrain p then d
  else if st = 4 then
    if pass then
      let d := topoBit (d.onPort p fun q => { q with fails := [], replays := 0 })
      replayFrames p (portUp p t d)
    else
      let recent := (d.port p).fails.filter fun x => d.qtime - x < 10000000
      let d := d.onPort p fun q => { q with fails := recent ++ [d.qtime] }
      if recent.isEmpty then d else portDown p d
  else if 1 < st then d
  else
    let last := (d.port p).trained
    if last != 0 && d.qtime < last - 1 + 100000000 then d
    else
      let d := d.onPort p fun q => { trained := d.qtime + 1, passed := q.passed }
      if t.miswired then (d.fs .QL_PSTAT_MISWIRE 1 p).fs .QL_PSTAT_STATE 0 p
      else if !pass then d.fs .QL_PSTAT_STATE 0 p
      else
        let d := topoBit (portUp p t d)
        headAttn (sendTopo (d.portLink p) 2 t.bare d)

/-- DISABLE: QL_PCTL.DISABLE written 1: the port is held down (R530). -/
def portDisable (p : Nat) (d : Dev) : Dev := portDown p (d.fs .QL_PCTL_DISABLE 1 p)

/-- PORT_WAKE: the wake signal on an asleep port (R543): the port retrains, and a sleeping unit's LINK island comes up, still in
DORMANT. -/
def portWake (p : Nat) (d : Dev) : Dev :=
  if d.portState p != 3 then d
  else
    let d := d.cond (d.mode == 1) fun d => (d.fs .PMU_WAKE_CAUSE 4).bump .PMU_CNT_WAKE
    let d := if !d.aon.asleep then d
      else { (d.fs .PMU_STAT_ISL (d.fg .PMU_STAT_ISL ||| 1)).fs .CLK_STAT_LOCKED 1 with aon := { d.aon with asleep := false } }
    (d.fs .QL_PSTAT_STATE 4 p).onPort p fun q => { q with busy := d.qtime }

/-! Replay (R528). -/

/-- FRAME_REPLAY: a NAK makes the transmitter replay; a frame that needs a fourth replay makes the port retrain. -/
def frameReplay (p : Nat) (d : Dev) : Dev :=
  let q := d.port p
  if !q.nakd || d.portState p != 2 then d
  else if 3 ≤ q.replays then portRetrain p d
  else replayFrames p (d.onPort p fun q => { q with replays := q.replays + 1 })

/-- Acknowledged frames leave the retry buffer; a failure that one replay mended is transient. -/
def ackFrames (p seq : Nat) (nak : Bool) (d : Dev) : Dev :=
  let q := d.port p
  let left := q.retry.filter fun f => !((seq + 4096 - f.1) % 4096 < 2048)
  let moved := left.length != q.retry.length
  let d := d.cond (moved && q.replays == 1) fun d => d.bump .QL_CNT_REPLAY p
  d.onPort p fun q => { q with
    retry := left, nakd := q.nakd || (nak && !left.isEmpty), replays := if moved then 0 else q.replays }

/-! Reception (R525 to R530, R541). -/

/-- Whether a message wakes a DORMANT unit: any message to it but class 0 and a read of its unit registers (R591). -/
def wakes (m : QMsg) : Bool :=
  m.cls != 0 && !(m.type == 0x02 && bitsOf m.arg 0 18 / 8 == 0x400)

/-- Bytes in the ingress buffer. -/
def Dev.ingressBytes (d : Dev) : Nat := (d.link.ingress.map fun m => m.bytes.length).sum

/-- A message taken in: one that this unit has accepted before is discarded (R530); for a DORMANT unit it waits in the ingress
buffer, and where that is full unit requests and unit data are answered ASLEEP and other messages keep their credit (R541).
Broadcasts carry no destination, so that
no ESEQ of theirs is compared. -/
def takeIn (p : Nat) (d : Dev) (m : QMsg) : Dev :=
  if m.type = 0 then d
  else if !knownType m.type then giveBack p m d
  else if m.bcast || !d.forMe m then d.onLink fun l => { l with inbox := l.inbox ++ [(p, m)] }
  else
    let key := m.eseqKey m.src
    let last := sparseGet 0 d.link.eseqRx key
    let numbered := m.type != 0x31 && m.type != 0x33
    if numbered && last != 0 && !(let n := (m.eseq + 65536 - (last - 1)) % 65536; 1 ≤ n && n < 32768) then
      giveBack p m (d.bump .QL_CNT_DUP)
    else
      let d := d.cond numbered fun d => d.onLink fun l => { l with eseqRx := sparseSet 0 l.eseqRx key (m.eseq + 1) }
      if d.mode = 1 && wakes m then
        let full := 32768 < d.ingressBytes + m.bytes.length
        if full && (m.type = 0x20 || m.type = 0x22) then
          giveBack p m (sendMsg { type := 0x21, dst := m.src, cls := 2, tag := m.tag, epoch := d.epoch, arg := 0x801 }
            (d.bump .QL_CNT_ASLEEP))
        else if full then d.onLink fun l => { l with inbox := l.inbox ++ [(p, m)] }
        else giveBack p m (d.onLink fun l => { l with ingress := l.ingress ++ [m] })
      else d.onLink fun l => { l with inbox := l.inbox ++ [(p, m)] }

/-- A frame that failed its CRC or came out of order (R528): this and every later frame are discarded, a NAK goes back; more
than 16 errors within 1 ms make the port retrain. A frame that was passed on cut-through goes on nullified. -/
def frameBad (p : Nat) (body : Bytes) (cut : Bool) (d : Dev) : Dev :=
  let d := d.cond (cut && d.portState (otherPort p) == 2) (sendFrame (otherPort p) body true)
  if (d.port p).naking then d
  else
    let recent := ((d.port p).errs.filter fun x => d.qtime - x < 1000000) ++ [d.qtime]
    let d := (d.bump .QL_CNT_CRC p).onPort p fun q => { q with naking := true, errs := recent }
    if 16 < recent.length then portRetrain p d else idleFrame p d

/-- FRAME_RECEIVE: the 272 bytes of a frame at a port; `cut` where its content was passed on cut-through before its CRC was
known. -/
def frameReceive (p : Nat) (frame : Bytes) (cut : Bool) (d : Dev) : Dev :=
  if d.portState p != 2 then d
  else
    let body := frame.take 256
    let t := leNat ((frame.drop 256).take 16)
    let seq := bitsOf t 32 12
    let good := crc32c (body ++ (frame.drop 260).take 12) == bitsOf t 0 32 && seq == ((d.port p).rxSeq + 1) % 4096
    if !good then frameBad p body cut d
    else
      let d := d.onPort p fun q => { q with
        rxSeq := seq, rxAny := true, naking := false
        credit := q.credit.zipIdx.map fun c => c.1 + bitsOf t (64 + 8 * c.2) 8 }
      let d := d.cond (t.testBit 56) (ackFrames p (bitsOf t 44 12) (t.testBit 57))
      if t.testBit 58 then flushPorts (idleFrame p (d.bump .QL_CNT_NULL p))
      else
        let r := takeMsgs 32 ((d.port p).part ++ body)
        let d := d.onPort p fun q => { q with part := r.2 }
        let some_ := r.1.any fun m => m.type != 0
        let d := d.cond some_ fun d => d.onPort p fun q => { q with busy := d.qtime }
        let d := d.each r.1 fun d m => takeIn p d m
        let d := flushPorts (d.cond some_ (idleFrame p))
        carryHeld d.host.held.length d

/-! The effects of the commands. -/

/-- RETRAIN (R523). -/
def execRetrain (port : Fin 2) (s : State) : Host.Outcome State Fault Refusal := s.onDev (portRetrain port)

/-- DISABLE (R530). -/
def execDisable (port : Fin 2) (s : State) : Host.Outcome State Fault Refusal := s.onDev (portDisable port)

/-- FRAME_RECEIVE (R528). -/
def execFrameReceive (port : Fin 2) (frame : List (BitVec 8)) (cut : Bool) (s : State) :
    Host.Outcome State Fault Refusal :=
  s.onDev (frameReceive port frame cut)

/-- FRAME_REPLAY (R528). -/
def execFrameReplay (port : Fin 2) (s : State) : Host.Outcome State Fault Refusal := s.onDev (frameReplay port)

/-- PORT_DOWN (R530). -/
def execPortDown (port : Fin 2) (s : State) : Host.Outcome State Fault Refusal := s.onDev (portDown port)

/-- MESSAGE_FORWARD (R538). -/
def execMessageForward (s : State) : Host.Outcome State Fault Refusal := s.onDev messageForward

/-- PORT_WAKE (R543). -/
def execPortWake (port : Fin 2) (s : State) : Host.Outcome State Fault Refusal := s.onDev (portWake port)

end Sys2Proof.Machine
end

