-- ==== Sys2Proof/Machine/Chain.lean ====
section
/-!
DEFINITION. The chain's own messages (17_quire_link.md R532 to R535, R539, R542 to R550): the election and count-off, the
quota token, Quire time, sleeping links, and the chain-wide operations. The layouts that Table 17-5 leaves open are those of
notes/assumptions/47.md.
-/

namespace Sys2Proof.Machine

/-! Passes of a chain-wide operation (R546, R547). -/

/-- Whether the ring is closed: every link up and awake, both ports active. -/
def Dev.ringWhole (d : Dev) : Bool :=
  d.link.down.isEmpty && d.link.asleep.isEmpty && d.portState 0 == 2 && d.portState 1 == 2

/-- The ports a pass leaves by: round a closed ring downward, else along each leg. -/
def Dev.ways (d : Dev) : List Nat := if d.ringWhole then [1] else [1, 0].filter fun p => d.portState p == 2

/-- A pass sent, and the ways on which it is out. -/
def startPass (m : QMsg) (d : Dev) : Dev :=
  let w := d.ways
  let d := d.each w fun d p => sendOn p m d
  d.onLink fun l => { l with op := l.op.map fun o => { o with legs := w.length } }

/-- The operation of this unit's own, if it coordinates one. -/
def Dev.ownOp (d : Dev) : Option ChainOp := d.link.op.filter (·.own)

/-- The unit with `f` applied to the operation it is engaged in. -/
def Dev.onOp (d : Dev) (f : ChainOp → ChainOp) : Dev := d.onLink fun l => { l with op := l.op.map f }

/-- The unit released, and what waited for acceptance accepted (R547). -/
def release (d : Dev) : Dev := admitAll (engage none (d.onLink fun l => { l with arrive := none, barrier := [] }))

/-- The coordinator's operation ends, with its command's reply. -/
def opEnd (o : ChainOp) (cls detail r0 r1 : Nat) (d : Dev) : Dev :=
  let d := match o.cmd with
    | some id => d.endCmd id cls detail r0 r1
    | none => d
  release d

/-- The commands that a barrier waits for at this unit: accepted before it arrived, their replies not posted. -/
def Dev.earlier (d : Dev) (but : Option Nat) : List Nat :=
  (d.fw.cmds.filter fun c => c.ssq != 0 && some c.id != but).map (·.id)

/-! The quota token (R539). -/

/-- A token put at a port: the injection credit of its direction is set. -/
def takeToken (p : Nat) (d : Dev) : Dev :=
  let d := d.onPort p fun q => { q with token := true, quota := limitN 1 4095 (d.fg .QL_QUOTA_Q), passed := d.qtime }
  portFlush p d

/-! Count-off (R532 to R536). -/

/-- This unit's answer to the numbering. -/
def Dev.answerOf (d : Dev) (addr : Nat) (above : Bool) : CountAnswer :=
  { addr := addr, serial := d.serial, variant := bitsOf d.unitId.toNat 12 3, epoch := d.epoch
    host := d.bonded && d.host.up, time := d.qtime, above := above }

/-- The later of two epochs (R536). -/
def laterEpoch (a b : Nat) : Nat := if ssqLater b a then b else a

/-- The map that the answers give (R533, R534): positions in ring order from head A down, units numbered from the up side
counted back from the ring's end; head B is the unit joined to head A's QL_U. -/
def mapOf (l : List CountAnswer) (closed : Bool) : List QUnit :=
  let n := l.length
  let below := (l.filter fun a => !a.above).length
  (List.range n).filterMap fun i => (l.find? fun a => a.addr == i).map fun a =>
    let pos := if a.above then n - 1 - (i - below) else i
    { serial := a.serial, pos := pos, headB := 0 < i && pos == n - 1 && a.host && (closed || a.above) }

/-- The head role that a die serial has in a map: 0 head A, 1 head B. -/
def roleOf (units : List QUnit) (serial : Nat) : Option Nat :=
  match (units.findIdx? fun u => u.serial == serial) with
  | some 0 => some 0
  | some i => if (units[i]?).any (·.headB) then some 1 else none
  | none => none

/-- The head that a home stands for in the map that comes, followed by its die serial (R535). -/
def newHome (d : Dev) (units : List QUnit) (home : Nat) : Option Nat :=
  ((d.headAddr home).bind d.unitAt).bind fun u => roleOf units u.serial

/-- A command that follows its home head into a new map. -/
def reHome (d : Dev) (units : List QUnit) (c : Cmd) : Cmd :=
  match newHome d units c.home with
  | some h => { c with home := h }
  | none => { c with orphan := c.orphan || !d.link.units.isEmpty }

/-- A map adopted (R533, R535): address, role, count and epoch; commands follow their home head by die serial, and the host
traffic of those whose head is none is discarded; held writes whose window now belongs to another unit are discarded. -/
def adoptMap (epoch : Nat) (units : List QUnit) (down : List Nat) (d : Dev) : Dev :=
  let moved := fun (a : Nat) => !((d.unitAt a).map (·.serial) == (units[a]?).map (·.serial))
  let gone := (d.host.held.zipIdx.filter fun e => d.link.units.length != 0 && moved e.1.unit).map (·.2)
  let d := d.each gone.reverse fun d i => dropHeld i d
  let old := d
  let d := d.onFw fun w => { w with cmds := w.cmds.map (reHome old units) }
  let d := d.cond (d.is .HP_Q_CTL_EN && !old.link.units.isEmpty) fun d =>
    match newHome old units (d.fg .HP_Q_CTL_HOME) with
    | some h => d.fs .HP_Q_CTL_HOME h
    | none => queueDrain d
  let me := units.findIdx? fun u => u.serial == d.serial
  let role := match me with
    | some 0 => 1
    | some i => if (units[i]?).any (·.headB) then 2 else 0
    | none => 0
  let d := ((d.fs .QL_STAT_ADDR_VALID (bit me.isSome)).fs .QL_ID_ADDR (me.getD 0)).fs .QL_ID_ROLE role
  let d := ((d.fs .QL_ID_UNITS units.length).fs .QL_EPOCH epoch).onLink fun l =>
    { l with units := units, down := down, asleep := [], eseqTx := [], eseqRx := [], claiming := false, mapPart := [] }
  headAttn (topoBit d)

/-- The MAP messages: flit 0 holds the epoch, N, the index of the first unit of the message, whether a link is down and which;
then four units of 16 bytes: die serial, position, flags (bit 0 head B). -/
def mapMsgs (epoch : Nat) (units : List QUnit) (down : List Nat) : List QMsg :=
  (List.range ((units.length + 3) / 4)).map fun k =>
    let part := (units.drop (4 * k)).take 4
    { type := 0x32, bcast := true, epoch := epoch
      payload := takeFill 0#8 16 (leBytes 4 epoch ++ leBytes 1 units.length ++ leBytes 1 (4 * k) ++ leBytes 1 (bit (!down.isEmpty))
          ++ leBytes 1 (down.headD 0))
        ++ takeFill 0#8 64 (part.flatMap fun u => leBytes 8 u.serial ++ leBytes 1 u.pos ++ leBytes 1 (bit u.headB) ++ leBytes 6 0) }

/-- The count-off ends (R533, R539): both tokens, and the release. -/
def countEnd (o : ChainOp) (d : Dev) : Dev :=
  opEnd o 0 0 (d.fg .QL_ID_UNITS) (d.qtime - o.began) (takeToken 0 (takeToken 1 d))

/-- Head A forms the map, adopts it and sends it on every way it numbered (R533, R536, R545). -/
def mapForm (closed : Bool) (d : Dev) : Dev :=
  match d.ownOp with
  | none => d
  | some o =>
    let l := d.link.count
    let epoch := (l.foldl (fun e a => laterEpoch e a.epoch) d.epoch + 1) % 2 ^ 32
    let epoch := if epoch = 0 then 1 else epoch
    let below := (l.filter fun a => !a.above).length
    let units := mapOf l closed
    let down := if closed then [] else [below - 1]
    let d := { d.onLink fun l => { l with ahead := 0 } with qtime := l.foldl (fun t a => limitN t (2 ^ 64 - 1) a.time) d.qtime }
    let d := adoptMap epoch units down d
    let ways := (if d.portState 1 == 2 then [1] else []) ++ (if !closed && l.any (·.above) && d.portState 0 == 2 then [0] else [])
    let msgs := mapMsgs epoch units down
    let d := d.each ways fun d p => d.each msgs fun d m => sendOn p m d
    let d := d.onOp fun x => { x with phase := 3, legs := ways.length * msgs.length }
    if ways.isEmpty then countEnd o d else d

/-- COUNT sent from head A by a port, with the next number. -/
def sendCount (p : Nat) (d : Dev) : Dev :=
  sendOn p { type := 0x31, arg := d.link.count.length, payload := takeFill 0#8 16 (leBytes 1 d.link.count.length ++ leBytes 7 0 ++ leBytes 8 d.serial) } d

/-- The numbering goes on from head A's QL_U, after a break below (R533). -/
def countUp (d : Dev) : Dev :=
  let d := d.onOp fun o => { o with phase := 2, legs := 0 }
  if d.portState 0 = 2 then sendCount 0 d else mapForm false d

/-- A count-off begins with this unit as head A (R532, R533). -/
def countStart (cmd : Option Nat) (d : Dev) : Dev :=
  if d.link.op.isSome then
    match cmd with
    | some id => d.endCmd id 2 7
    | none => d
  else
    let d := engage (some { op := 1, head := d.serial, cmd := cmd, phase := 1, own := true, began := d.qtime }) d
    let d := d.onLink fun l => { l with count := [d.answerOf 0 false], claiming := false }
    if d.portState 1 = 2 then sendCount 1 d else countUp d

/-- Whether a unit may claim the head role: automatic count-off, firmware running, an H bonding and an active host link
(R532). -/
def Dev.mayClaim (d : Dev) : Bool := d.is .QL_CTL_AUTO && d.fw.up && d.bonded && d.host.up

/-- A unit's part of an election begins: CLAIM down, or up where the QL_D is not active; with neither, the claim has won. -/
def electStart (d : Dev) : Dev :=
  if !d.mayClaim || d.link.op.isSome || d.link.claiming then d
  else
    let m : QMsg := { type := 0x30, arg := d.serial % 2 ^ 32 }
    let d := d.onLink fun l => { l with claiming := true }
    if d.portState 1 = 2 then sendOn 1 m d
    else if d.portState 0 = 2 then sendOn 0 { m with tag := 1 } d
    else countStart none d

/-- A claim passed on: downward, turned at a break, or back to its sender once it has met both breaks (TAG 0, 1, 2). -/
def claimOn (m : QMsg) (d : Dev) : Dev :=
  let on_ := fun p => d.portState p == 2
  if m.tag = 0 then
    if on_ 1 then forwardOn 1 m d else if on_ 0 then forwardOn 0 { m with tag := 1 } d else d
  else if m.tag = 1 then
    if on_ 0 then forwardOn 0 m d else if on_ 1 then forwardOn 1 { m with tag := 2 } d else d
  else if on_ 1 then forwardOn 1 m d else d

/-- CLAIM: the oldest claim received (R532). A unit that may claim and has not yet done so joins the election. -/
def claim (d : Dev) : Dev :=
  match takeMsg 0x30 d with
  | none => electStart d
  | some ((p, m), d) =>
    let mine := d.serial % 2 ^ 32
    if m.arg = mine then
      if !d.link.claiming then d
      else if m.tag = 2 || (m.tag = 0 && p = 0) || (m.tag = 1 && d.portState 0 != 2) then countStart none d
      else claimOn m d
    else if d.link.claiming || d.mayClaim then
      if m.arg < mine then claimOn m (d.onLink fun l => { l with claiming := false })
      else electStart d
    else claimOn m d

/-- Whether every answer that is to come is here; then the numbering goes on. -/
def countCheck (d : Dev) : Dev :=
  match d.ownOp with
  | some o => if o.op = 1 && o.phase < 3 && o.legs != 0 && o.legs ≤ d.link.count.length then mapForm true d else d
  | none => d

/-- COUNT: the oldest one received (R533): a number for this unit, a number returned, a release, or an answer to head A. The
answer's ARG holds the number, the variant (bits 10:8), the host link (bit 16), the end of the leg (bit 24) and a refusal
(bit 25), its payload die serial and Quire time; a COUNT with ARG bit 25 releases. -/
def count (d : Dev) : Dev :=
  match takeMsg 0x31 d with
  | none => countCheck d
  | some ((p, m), d) =>
    let head := hField m.payload 8 8
    if m.bcast then
      if head = d.serial then
        if m.arg.testBit 25 || !d.counting then d
        else
          let d := d.cond (64 < m.arg) fun d => d.fs .QL_STAT_OVERFLOW 1
          countCheck (d.onOp fun o => { o with legs := limitN 0 64 m.arg })
      else if m.arg.testBit 25 then
        passOn p m (if d.link.op.any fun o => o.op == 1 && o.head == head then release d else d)
      else if d.link.op.any fun o => !(o.op == 1 && o.head == head) then
        portFlush p (putWait p true { type := 0x31, arg := 2 ^ 25, src := d.addr } d)
      else
        let v := m.arg
        let ends := d.legEnds p m
        let d := engage (some { op := 1, head := head }) (d.onLink fun l => { l with claiming := false })
        let a := d.answerOf v false
        let ans : QMsg := { type := 0x31, src := v % 64, epoch := d.epoch,
                            arg := v + a.variant <<< 8 + (bit a.host) <<< 16 + (bit ends) <<< 24,
                            payload := leBytes 8 a.serial ++ leBytes 8 a.time }
        let d := portFlush p (putWait p true ans d)
        if ends then d
        else
          let v' := limitN 0 255 (v + 1)
          forwardOn (onward p m) { m with arg := v', payload := leBytes 1 v' ++ m.payload.drop 1 } d
    else if m.arg.testBit 25 then
      match d.ownOp with
      | some o => opEnd o 2 7 0 0 (d.each d.ways fun d q => sendOn q { type := 0x31, arg := 2 ^ 25, payload := leBytes 8 0 ++ leBytes 8 d.serial } d)
      | none => d
    else
      match d.ownOp with
      | none => d
      | some o =>
        let v := m.arg % 256
        let above := o.phase == 2
        let a : CountAnswer := { addr := v, serial := hField m.payload 0 8, variant := bitsOf m.arg 8 3, epoch := m.epoch
                                 host := m.arg.testBit 16, time := hField m.payload 8 8, above := above }
        let d := if v < 64 then d.onLink fun l => { l with count := l.count ++ [a] } else d.fs .QL_STAT_OVERFLOW 1
        if !m.arg.testBit 24 then countCheck d
        else if above then mapForm false d
        else countUp d

/-! Progress of the operations (R548 to R550). -/

/-- The coordinator goes on once the present pass is back on every way. -/
def chainProgress : Nat → Dev → Dev
  | 0, d => d
  | n + 1, d =>
    match d.ownOp with
    | none => d
    | some o =>
      let next := fun (d : Dev) => d.onOp fun x => { x with phase := 2 }
      if o.legs != 0 then d
      else if o.op = 2 && o.phase = 1 then
        if !d.link.barrier.isEmpty then d
        else chainProgress n (startPass { type := 0x35, arg := 2 } (next d))
      else if o.op = 3 && o.phase = 1 then
        let d := (next d).onOp fun x => { x with cut := d.qtime }
        chainProgress n (startPass { type := 0x36, arg := 2, payload := takeFill 0#8 16 (leBytes 8 d.qtime) } d)
      else if o.op = 2 && o.phase = 2 then opEnd o 0 0 (d.fg .QL_ID_UNITS) (d.qtime - o.began) d
      else if o.op = 3 && o.phase = 2 then opEnd o 0 0 (d.fg .QL_ID_UNITS) o.cut d
      else if o.op = 4 && o.phase = 1 then
        match o.cmd with
        | some id => (next d).endCmd id 0 0 (d.fg .QL_ID_UNITS) (d.qtime - o.began)
        | none => next d
      else if o.op = 1 && o.phase = 3 then countEnd o d
      else d

/-- One way of the present pass is back: its message returned, or the end of its leg reported. -/
def legBack (op : Nat) (d : Dev) : Dev :=
  match d.ownOp with
  | some o => if o.op != op || o.legs = 0 then d else chainProgress 3 (d.onOp fun x => { x with legs := x.legs - 1 })
  | none => d

/-- A unit has refused: every unit is released, and the command ends with CLASS 2, DETAIL 7 (R546). -/
def opRefused (d : Dev) : Dev :=
  match d.ownOp with
  | none => d
  | some o =>
    let d := if o.op = 2 then startPass { type := 0x35, arg := 2 } d
      else if o.op = 3 then startPass { type := 0x36, arg := 2, payload := takeFill 0#8 16 (leBytes 8 d.qtime) } d
      else d
    opEnd o 2 7 0 0 d

/-- Whether this unit may engage in another coordinator's operation. -/
def Dev.free? (d : Dev) (op head : Nat) : Bool := d.link.op.all fun o => o.op == op && o.head == head && !o.own

/-- A refusal sent to the coordinator of a pass. -/
def refuse (m : QMsg) (d : Dev) : Dev := sendMsg { type := m.type, dst := m.src, cls := 0, arg := 3, epoch := d.epoch } d

/-- The arrive pass goes on once the commands accepted before it have replied (R548). -/
def barrierGo (d : Dev) : Dev :=
  match d.link.arrive with
  | some m =>
    if !d.link.barrier.isEmpty then d
    else passOn 2 m (d.onLink fun l => { l with arrive := none })
  | none => chainProgress 3 d

/-- BARRIER: the oldest barrier message (R548): ARG 1 arrive, 2 depart, 3 refused. A DORMANT unit takes part at once. -/
def barrier (d : Dev) : Dev :=
  match takeMsg 0x35 d with
  | none => barrierGo d
  | some ((p, m), d) =>
    if !m.bcast then if m.arg = 3 then opRefused d else legBack 2 d
    else if m.src = d.addr && d.is .QL_STAT_ADDR_VALID then legBack 2 d
    else if m.arg = 1 then
      if !d.free? 2 m.src then refuse m d
      else
        let d := engage (some { op := 2, head := m.src, began := d.qtime }) d
        barrierGo (d.onLink fun l => { l with arrive := some m, barrier := d.earlier none })
    else passOn p m (if d.link.op.any fun o => o.op == 2 && o.head == m.src && !o.own then release d else d)

/-- SNAP: the oldest snapshot message (R549): ARG 1 hold, 2 release with T_cut in its payload, 3 refused, the SNAP_ID above. -/
def snap (d : Dev) : Dev :=
  match takeMsg 0x36 d with
  | none => chainProgress 3 d
  | some ((p, m), d) =>
    let phase := m.arg % 4
    if !m.bcast then if phase = 3 then opRefused d else legBack 3 d
    else if m.src = d.addr && d.is .QL_STAT_ADDR_VALID then legBack 3 d
    else if phase = 1 then
      if !d.free? 3 m.src then refuse m d
      else passOn p m (engage (some { op := 3, head := m.src, began := d.qtime }) d)
    else passOn p m (if d.link.op.any fun o => o.op == 3 && o.head == m.src && !o.own then release d else d)

/-- MAP: the oldest map message (R533, R535), adopted once all its parts are here, and passed on. -/
def mapMessage (d : Dev) : Dev :=
  match takeMsg 0x32 d with
  | none => chainProgress 3 d
  | some ((p, m), d) =>
    if !m.bcast || d.counting then legBack 1 d
    else
      let b := m.payload
      let n := hField b 4 1
      let unit := fun (i : Nat) => ({ serial := hField b (16 + 16 * i) 8, pos := hField b (24 + 16 * i) 1
                                      headB := hField b (25 + 16 * i) 1 == 1 } : QUnit)
      let part := (if hField b 5 1 = 0 then [] else d.link.mapPart) ++ (List.range (limitN 0 4 (n - hField b 5 1))).map unit
      let d := d.onLink fun l => { l with mapPart := part }
      if part.length < n then passOn p m d
      else
        let down := if hField b 6 1 = 1 then [hField b 7 1] else []
        let d := adoptMap (hField b 0 4) part down d
        passOn p m (if d.link.op.any fun o => o.op == 1 then release d else d)

/-- CHAIN_RESET: the oldest reset message is passed on; the unit resets once the next hop has acknowledged the frame that
carried it (R550). -/
def chainReset (begun : Bool) (d : Dev) : Dev :=
  match takeMsg 0x37 d with
  | none =>
    match d.link.op with
    | some o =>
      if o.op = 4 && (if o.own then o.phase == 2 && o.cmd.isNone
          else 2 ≤ o.legs || (d.port o.legs).retry.isEmpty || d.portState o.legs != 2) then
        unitReset 2 false begun [] [] d
      else chainProgress 3 d
    | none => d
  | some ((p, m), d) =>
    if !m.bcast then if m.arg = 3 then opRefused d else legBack 4 d
    else if m.src = d.addr && d.is .QL_STAT_ADDR_VALID then legBack 4 d
    else if !d.free? 4 m.src then refuse m d
    else
      let out := if d.legEnds p m then p else onward p m
      let d := engage (some { op := 4, head := m.src, legs := out, began := d.qtime }) d
      passOn p m d

/-! The commands (R532, R546 to R550). -/

/-- CHAIN with an OP: its first run starts the operation, a later one lets it go on. -/
def chainCmd (id op : Nat) (start : Cmd → Dev → Dev) (d : Dev) : Dev :=
  runCmd id 0x29 (fun c d =>
    if c.field 16 1 != op then d
    else if c.work != 0 then chainProgress 3 d
    else if d.link.op.isSome then d.endCmd id 2 7
    else start c (d.onCmd id fun c => { c with work := 1 })) d

/-- CHAIN OP 1. -/
def chainCountOff (id : Nat) : Dev → Dev := chainCmd id 1 fun c d => countStart (some c.id) d

/-- An operation that this unit begins to coordinate. -/
def beginOp (op id : Nat) (d : Dev) : Dev :=
  engage (some { op := op, head := d.addr, cmd := some id, phase := 1, own := true, began := d.qtime }) d

/-- CHAIN OP 2. -/
def chainBarrier (id : Nat) : Dev → Dev := chainCmd id 2 fun c d =>
  let d := (beginOp 2 c.id d).onLink fun l => { l with barrier := d.earlier (some c.id) }
  chainProgress 3 (startPass { type := 0x35, arg := 1 } d)

/-- CHAIN OP 3. -/
def chainResetCmd (id : Nat) : Dev → Dev := chainCmd id 3 fun c d =>
  chainProgress 3 (startPass { type := 0x37 } (beginOp 4 c.id d))

/-- SNAPSHOT: with DURABLE every stream of every unit flushed first, then the hold and release passes (R549). -/
def snapshotCmd (id : Nat) (d : Dev) : Dev :=
  runCmd id 0x28 (fun c d =>
    let durable := c.field 20 1 == 1
    let start := fun (d : Dev) =>
      if d.link.op.isSome then d.endCmd id 2 7
      else
        let d := beginOp 3 id (d.onCmd id fun c => { c with work := 2 })
        chainProgress 3 (startPass { type := 0x36, arg := 1 + c.field 16 4 * 4 % 2 ^ 32 } d)
    if c.work = 2 then chainProgress 3 d
    else if !durable then start d
    else if c.work = 0 then
      let others := (d.link.units.map (·.serial)).filter (· != d.serial)
      let d := d.each others fun d s => newAsk { kind := rqFlush, serial := s, cmd := id } none d
      flushAll (d.onCmd id fun c => { c with work := 1 })
    else
      let d := flushAll d
      if !d.allFlushed || d.comp.asks.any (fun a => a.cmd == id) then d else start d) d

/-! The token's messages (R539). -/

/-- TOKEN: the token of a direction arrives, or, at head A, word that one is lost: it creates a new one. -/
def token (d : Dev) : Dev :=
  match takeMsg 0x33 d with
  | none => flushPorts d
  | some ((p, m), d) =>
    if !m.bcast then takeToken (m.arg % 2) (d.fs .QL_STAT_TOKEN_LOST 1)
    else
      let out := onward p m
      takeToken (if d.portState out = 2 then out else otherPort out) d

/-- TOKEN_LOST: no token of a direction has passed for 10 ms. -/
def tokenLost (p : Nat) (d : Dev) : Dev :=
  if (d.port p).token || !d.is .QL_STAT_ADDR_VALID || d.qtime < (d.port p).passed + 10000000 then d
  else
    let d := d.fs .QL_STAT_TOKEN_LOST 1
    if d.role = 1 then takeToken p d else sendMsg { type := 0x33, dst := 0, arg := p } d

/-! Quire time (R544, R545). -/

/-- Time passes: a unit whose Quire time stands before head A's counts at half its rate until head A's has caught up (R545). -/
def timePass (elapsed : Nat) (d : Dev) : Dev :=
  let a := d.link.ahead
  let adv := if elapsed ≤ 2 * a then elapsed / 2 else elapsed - a
  { d.onLink fun l => { l with ahead := a - (elapsed - adv) } with qtime := (d.qtime + adv) % 2 ^ 64 }

/-- TIME_BROADCAST: time passes; head A sends its own in both directions. -/
def timeBroadcast (elapsed : Nat) (d : Dev) : Dev :=
  let d := timePass elapsed d
  if d.role != 1 then d
  else
    let m : QMsg := { type := 0x34, payload := takeFill 0#8 16 (leBytes 8 d.qtime) }
    sendOn 0 m (sendOn 1 m d)

/-- TIME: the oldest TIME message: the delay of its hop is added, and this unit's time moves forward to it, or is found ahead of it
(R545: it never decreases). -/
def timeMessage (d : Dev) : Dev :=
  match takeMsg 0x34 d with
  | none => d
  | some ((p, m), d) =>
    if m.src = d.addr && d.is .QL_STAT_ADDR_VALID then d
    else
      let t := hField m.payload 0 8 + d.fg .QL_PDELAY_DELAY p
      passOn p { m with payload := takeFill 0#8 16 (leBytes 8 t) }
        { d.onLink fun l => { l with ahead := d.qtime - t } with qtime := limitN d.qtime (2 ^ 64 - 1) t }

/-! Sleeping links (R542, R543). -/

/-- Positions reached from head A over links that are neither down nor in a list. -/
def reachFrom (n : Nat) (cut : List Nat) : List Nat :=
  let down := (List.range n).takeWhile fun i => i == 0 || !((List.range i).any cut.contains)
  let up := ((List.range n).takeWhile fun i => i == 0 || !((List.range i).any fun k => cut.contains (n - 1 - k))).map fun i => (n - i) % n
  down ++ up

/-- Whether head A grants a unit's request: every unit whose links are not both asleep can still be reached. -/
def Dev.maySleep (d : Dev) (addr : Nat) : Bool :=
  let n := d.link.units.length
  match d.unitAt addr with
  | none => false
  | some u =>
    let asleep := d.link.asleep ++ [u.pos, (u.pos + n - 1) % n]
    let sleeps := fun (x : Nat) => asleep.contains x && asleep.contains ((x + n - 1) % n)
    addr != 0 && d.link.units.all fun v => sleeps v.pos || (reachFrom n (d.link.down ++ asleep)).contains v.pos

/-- The links of a unit marked asleep, and this unit's ports that face them put into electrical idle (R542). -/
def linksSleep (addr : Nat) (d : Dev) : Dev :=
  let n := d.link.units.length
  match d.unitAt addr with
  | none => d
  | some u =>
    let mine := [u.pos, (u.pos + n - 1) % n]
    let d := d.each mine fun d k => linkState k false true d
    let d := d.each [0, 1] fun d p =>
      d.cond (mine.contains (d.portLink p) && d.portState p == 2) fun d => d.fs .QL_PSTAT_STATE 3 p
    if addr != d.addr then d
    else
      let d := d.fs .PMU_STAT_ISL (d.fg .PMU_STAT_ISL &&& 0x1E)
      { d.fs .CLK_STAT_LOCKED (bit ((d.fg .PMU_STAT_ISL).testBit 1)) with aon := { d.aon with asleep := true } }

/-- The sleep request of a DORMANT unit with LINK_SLEEP (R542). -/
def askSleep (d : Dev) : Dev := sendMsg { type := 0x38, dst := 0, arg := 1 + d.addr <<< 8 } d

/-- SLEEP: the oldest sleep message (R542): ARG 1 request, 2 grant, 4 refusal, with the chain address above, and 3 wake, with the link
above; a grant and a wake travel to every unit. -/
def sleepMessage (d : Dev) : Dev :=
  match takeMsg 0x38 d with
  | none => d
  | some ((p, m), d) =>
    let a := bitsOf m.arg 8 6
    match m.arg % 256 with
    | 1 =>
      if d.maySleep a then
        let g : QMsg := { type := 0x38, arg := 2 + a <<< 8 }
        linksSleep a (d.each d.ways fun d q => sendOn q g d)
      else sendMsg { type := 0x38, dst := a, arg := 4 + a <<< 8 } d
    | 2 => if m.src = d.addr then d else linksSleep a (passOn p m d)
    | 3 => if m.src = d.addr then d else passOn p m (linkState a false false d)
    | 4 => { d with aon := { d.aon with sleep := false } }
    | _ => if m.bcast then passOn p m d else d

/-- LINK_IDLE_SLEEP: a link of a DORMANT unit that was woken only for forwarding has had no traffic for 100 ms: sleep is asked
for again (R543). -/
def linkIdleSleep (d : Dev) : Dev :=
  let quiet := [0, 1].all fun p => d.portState p != 2 || (d.port p).busy + 100000000 ≤ d.qtime
  d.cond (d.mode == 1 && d.aon.sleep && !d.aon.asleep && quiet) askSleep

/-- TOPO: the oldest message about a link's state (R530): the routes take it in, heads raise ATTN 3, and where a port came up to
a unit without an address an election begins (R532). -/
def topo (d : Dev) : Dev :=
  match takeMsg 0x39 d with
  | none => d
  | some ((p, m), d) =>
    if m.src = d.addr && d.is .QL_STAT_ADDR_VALID then d
    else
      let link := hField m.payload 0 1
      let d := linkState link (hField m.payload 1 1 == 0) false d
      let d := headAttn (passOn p m d)
      d.cond (hField m.payload 1 1 == 2 && hField m.payload 2 1 == 1) electStart

/-- LINK_TRAINING: a link that has been asleep is reported awake (R543); a port that comes up to or at a unit without an address
calls for a count-off (R532). -/
def linkTrain (p : Nat) (t : Trained) (d : Dev) : Dev :=
  let was := d.portState p
  let slept := d.link.asleep.contains (d.portLink p)
  let d := linkTraining p t d
  let m : QMsg := { type := 0x38, arg := 3 + d.portLink p <<< 8 }
  let d := d.cond (slept && d.portState p == 2) fun d => sendOn 0 m (sendOn 1 m d)
  d.cond (was < 2 && d.portState p == 2 && (t.bare || !d.is .QL_STAT_ADDR_VALID)) electStart

/-- HOST_LINK_UP: the head's PCIe link becomes active; a unit that has no address may now claim (R532). -/
def hostLinkUp (d : Dev) : Dev :=
  if !d.bonded || !(d.fg .PMU_STAT_ISL).testBit 1 then d
  else
    let d := d.onHost fun h => { h with up := true }
    d.cond (!d.is .QL_STAT_ADDR_VALID) electStart

/-! The effects of the commands. -/

/-- LINK_TRAINING (R523). -/
def execLinkTraining (port : Fin 2) (low : Bool) (high : Bool) (reversed : Bool) (miswired : Bool) (delay : Nat) (bare : Bool) (s : State) :
    Host.Outcome State Fault Refusal :=
  s.onDev (linkTrain port { low := low, high := high, reversed := reversed, miswired := miswired, delay := delay, bare := bare })

/-- CLAIM (R532). -/
def execClaim (s : State) : Host.Outcome State Fault Refusal := s.onDev claim

/-- COUNT (R533). -/
def execCount (s : State) : Host.Outcome State Fault Refusal := s.onDev count

/-- MAP (R535). -/
def execMap (s : State) : Host.Outcome State Fault Refusal := s.onDev mapMessage

/-- TOKEN (R539). -/
def execToken (s : State) : Host.Outcome State Fault Refusal := s.onDev token

/-- TOKEN_LOST (R539). -/
def execTokenLost (port : Fin 2) (s : State) : Host.Outcome State Fault Refusal := s.onDev (tokenLost port)

/-- TIME_BROADCAST (R544). -/
def execTimeBroadcast (elapsed : Nat) (s : State) : Host.Outcome State Fault Refusal :=
  s.onDev (timeBroadcast elapsed)

/-- TIME (R545). -/
def execTime (s : State) : Host.Outcome State Fault Refusal := s.onDev timeMessage

/-- BARRIER (R548). -/
def execBarrier (s : State) : Host.Outcome State Fault Refusal := s.onDev barrier

/-- SNAP (R549). -/
def execSnap (s : State) : Host.Outcome State Fault Refusal := s.onDev snap

/-- CHAIN_RESET (R550). -/
def execChainReset (begun : Bool) (s : State) : Host.Outcome State Fault Refusal := s.onDev (chainReset begun)

/-- SLEEP (R542). -/
def execSleep (s : State) : Host.Outcome State Fault Refusal := s.onDev sleepMessage

/-- TOPO (R530). -/
def execTopo (s : State) : Host.Outcome State Fault Refusal := s.onDev topo

/-- LINK_IDLE_SLEEP (R543). -/
def execLinkIdleSleep (s : State) : Host.Outcome State Fault Refusal := s.onDev linkIdleSleep

/-- HOST_LINK_UP (R532). -/
def execHostLinkUp (s : State) : Host.Outcome State Fault Refusal := s.onDev hostLinkUp

/-- SNAPSHOT (R549). -/
def execSnapshot (cmd : Nat) (s : State) : Host.Outcome State Fault Refusal := s.onDev (snapshotCmd cmd)

/-- CHAIN_OP_COUNT_OFF (R532). -/
def execChainOpCountOff (cmd : Nat) (s : State) : Host.Outcome State Fault Refusal := s.onDev (chainCountOff cmd)

/-- CHAIN_OP_BARRIER (R548). -/
def execChainOpBarrier (cmd : Nat) (s : State) : Host.Outcome State Fault Refusal := s.onDev (chainBarrier cmd)

/-- CHAIN_OP_RESET (R550). -/
def execChainOpReset (cmd : Nat) (s : State) : Host.Outcome State Fault Refusal := s.onDev (chainResetCmd cmd)

end Sys2Proof.Machine
end

