-- ==== Sys2Proof/Machine/Member.lean ====
section
/-!
DEFINITION. Messages between a head and a member's host interface (14_host_port.md R435, R437, R454, R459, R460): window
accesses, a member's host reads and writes, and its replies.
-/

namespace Sys2Proof.Machine

/-- Whether the unit acts on window accesses: from its own t9, or after a failed boot; not while DORMANT (R628, R630). -/
def Dev.windowsOpen (d : Dev) : Bool := (d.fw.up || d.bootFailed || d.runsImage) && d.mode != 1

/-- The head number of a chain address. -/
def Dev.headNo (d : Dev) (a : Nat) : Nat := if d.headB = some a then 1 else 0

/-- MMIO_WRITE: the oldest MMIO write, applied in order (R434, R435); before the unit is ready it waits, by credit (R628). -/
def mmioWrite (d : Dev) : Dev :=
  if !d.windowsOpen then d
  else match takeMsg 0x01 d with
    | none => d
    | some ((_, m), d) =>
      let n := bitsOf m.arg 18 14
      winPut (n + 1) (d.headNo m.src) (bitsOf m.arg 0 18) (m.payload.take n) d

/-- MMIO_READ_REQUEST: the oldest one, answered; not answered before the unit is ready (R437, R628). -/
def mmioReadRequest (d : Dev) : Dev :=
  match takeMsg 0x02 d with
  | none => d
  | some ((_, m), d) =>
    let n := bitsOf m.arg 18 14
    let off := bitsOf m.arg 0 18
    if !d.windowsOpen && !(d.mode == 1 && off / 8 == 0x400) then d
    else sendMsg { type := 0x03, dst := m.src, cls := 2, tag := m.tag, arg := n, payload := winBytes off n d } d

/-- MMIO_READ_COMPLETION: the oldest one completes the host read that waits for it. -/
def mmioReadCompletion (d : Dev) : Dev :=
  match takeMsg 0x03 d with
  | none => d
  | some ((_, m), d) =>
    match d.host.reads.find? fun r => r.tag == m.tag && r.unit == m.src with
    | none => d
    | some r =>
      { d.onHost fun h => { h with reads := h.reads.filter fun x => x.tag != m.tag } with
        answer := m.payload.take r.len, error := false }

/-- Whether a message waits for this head's host link: Bus Master Enable is 0 (R460). -/
def Dev.hostWaits (d : Dev) : Bool := d.role != 0 && !d.busMaster

/-- HOST_READ_REQUEST: the oldest request of a member is carried to host memory (R454). The data goes back in messages of at
most 256 bytes, ARG their offset; a request that fails is recorded at this head and answered with ARG bit 31 (R459). -/
def hostReadRequest (good : Bool) (d : Dev) : Dev :=
  if d.hostWaits then d
  else match takeMsg 0x10 d with
    | none => d
    | some ((_, m), d) =>
      let a := hField m.payload 0 8
      let n := hField m.payload 8 4
      let msg : QMsg := { type := 0x11, dst := m.src, cls := 3, tag := m.tag }
      if !good then
        sendMsg { msg with arg := 2 ^ 31 } ((aerRecord 0 d |>.fs .HP_HC_STAT_DMA_ERR 1).bump .HP_HC_CNT_DMAERR)
      else (d.sends (d.dataAttr (hField m.payload 12 1 == 1) false)).each (List.range ((n + 255) / 256)) fun d i =>
        let k := limitN 0 256 (n - 256 * i)
        sendMsg { msg with arg := 256 * i, payload := memRead d.hostMem (a + 256 * i) k } d

/-- A member's host read has failed: its command ends with CLASS 6, or the submission entry is a command of zero bytes
(R459). -/
def memberReadFailed (id : Nat) (d : Dev) : Dev :=
  if id != 0 then hostError id d
  else
    let head := d.fg .HP_Q_STAT_SQ_HEAD
    let c : Cmd := { queue := true, home := d.fg .HP_Q_CTL_HOME, tag := head % 32, raddr := some d.cqBase }
    if head = d.fg .HP_Q_SQ_TAIL then d else latchEnded c 6 7 (d.fs .HP_Q_STAT_SQ_HEAD ((head + 1) % 64))

/-- HOST_READ_DATA: the oldest data message from the home head (R454). -/
def hostReadData (d : Dev) : Dev :=
  match takeMsg 0x11 d with
  | none => d
  | some ((_, m), d) =>
    match d.link.fetch.find? fun e => e.1 == m.tag with
    | none => d
    | some (t, a, n, id) =>
      let done := fun (d : Dev) => d.onLink fun l => { l with fetch := l.fetch.filter fun e => e.1 != t }
      if m.arg.testBit 31 then memberReadFailed id (done d)
      else
        let b := m.payload.take (n - m.arg)
        let d := { d with hostMem := memWrite d.hostMem (a + m.arg) b }
        if n ≤ m.arg + b.length then done d else d

/-- HOST_WRITE: the oldest host write of a member (R454): its data, or, with none, the address of the reply that follows. -/
def hostWriteMessage (d : Dev) : Dev :=
  if d.hostWaits then d
  else match takeMsg 0x12 d with
    | none => d
    | some ((_, m), d) =>
      let a := hField m.payload 0 8
      if m.arg = 0 then d.onHost fun h => { h with replyAt := sparseSet 0 h.replyAt (65536 * m.src + m.tag) (a + 1) }
      else { d.sends (d.dataAttr (hField m.payload 8 1 == 1) true) with
        hostMem := memWrite d.hostMem a ((m.payload.drop 16).take m.arg) }

/-- MEMBER_REPLY: the oldest reply of a member, posted after the data writes that came before it (R454, R446); one whose head has
been reset is counted and discarded (R461). -/
def memberReply (d : Dev) : Dev :=
  let before := d.link.inbox.takeWhile fun e => e.2.type != 0x13
  let src := ((d.link.inbox.find? fun e => e.2.type == 0x13).map fun e => e.2.src).getD 64
  if d.hostWaits || before.any fun e => e.2.type == 0x12 && e.2.src == src then d
  else match takeMsg 0x13 d with
    | none => d
    | some ((_, m), d) =>
      let key := 65536 * m.src + m.tag
      let a := sparseGet 0 d.host.replyAt key
      let d := d.onHost fun h => { h with replyAt := sparseSet 0 h.replyAt key 0 }
      if m.arg.testBit 8 then
        d.cond (m.arg.testBit 0) fun d => (d.bump .HP_HC_CNT_ABANDON).fs .HP_HC_STAT_ABANDON 1
      else
        let d := d.cond (m.arg.testBit 0 && a != 0) (replyToHost (a - 1) (m.payload.take 32))
        d.cond (m.arg.testBit 1) (notice (bitsOf m.arg 2 5))

/-! The effects of the commands. -/

/-- MMIO_WRITE (R435). -/
def execMmioWrite (s : State) : Host.Outcome State Fault Refusal := s.onDev mmioWrite

/-- MMIO_READ_REQUEST (R437). -/
def execMmioReadRequest (s : State) : Host.Outcome State Fault Refusal := s.onDev mmioReadRequest

/-- MMIO_READ_COMPLETION (R437). -/
def execMmioReadCompletion (s : State) : Host.Outcome State Fault Refusal := s.onDev mmioReadCompletion

/-- HOST_READ_REQUEST (R454). -/
def execHostReadRequest (good : Bool) (s : State) : Host.Outcome State Fault Refusal := s.onDev (hostReadRequest good)

/-- HOST_READ_DATA (R454). -/
def execHostReadData (s : State) : Host.Outcome State Fault Refusal := s.onDev hostReadData

/-- HOST_WRITE (R454). -/
def execHostWrite (s : State) : Host.Outcome State Fault Refusal := s.onDev hostWriteMessage

/-- MEMBER_REPLY (R454). -/
def execMemberReply (s : State) : Host.Outcome State Fault Refusal := s.onDev memberReply

end Sys2Proof.Machine
end

