-- ==== Sys2Proof/Machine/Power.lean ====
section
/-!
DEFINITION. The frost line, the thaw and waking (19_modes_and_power.md R591 to R603), and the anti-rollback fuses
(21_security_debug.md R636, R641), whose blowing waits for a thaw.
-/

namespace Sys2Proof.Machine

/-! The anti-rollback fuses (R641). -/

/-- The ARB bits of a fuse bank with the lowest unblown ones blown until `target` are. -/
def arbBits (arb target : Nat) : Nat :=
  (List.range 64).foldl (fun x i => if popCount 64 x < target then x ||| 2 ^ i else x) arb

/-- ARB advanced to a value, in the bank and in the shadow. -/
def arbAdvance (target : Nat) (s : State) : State :=
  let bits := arbBits (bitsOf s.fuses 1472 64) (limitN 0 64 target)
  { s with fuses := s.fuses ||| bits <<< 1472
           dev := ({ s.dev with shadow := s.dev.shadow ||| bits <<< 1472 }).fs .FUSE_STAT_BUSY 0 }

/-- A value written to FUSE_ARB_SET: nothing at or below the present one or while BUSY; while FROST is 1 it waits. -/
def arbSet (target : Nat) (s : State) : State :=
  let d := s.dev
  if d.is .FUSE_STAT_BUSY || limitN 0 64 target ≤ d.arb then s
  else if d.frost then
    { s with dev := { d.fs .FUSE_STAT_BUSY 1 with aon := { d.aon with arbTarget := target } } }
  else arbAdvance target s

/-! Clocks (R607, R609, Table 20-1). -/

/-- The clocks of Table 20-1; CLK_ADC runs per OPU. -/
inductive Clock where
  | core | adc (opu : Nat) | dram | link | servo | aon | pcie
deriving DecidableEq, Repr

/-- Whether HK runs the root PLL: an island other than AON is on. -/
def Dev.pllOn (d : Dev) : Bool := d.fg .PMU_STAT_ISL != 0 || d.fg .PMU_STAT_OPU_ON != 0

/-- Whether a clock runs: the derived ones while the PLL is locked and what they serve is on. -/
def Dev.clockRuns (d : Dev) : Clock → Bool
  | .aon => true
  | .pcie => (d.fg .PMU_STAT_ISL).testBit 1
  | .core => d.is .CLK_STAT_LOCKED && d.coreOn
  | .servo => d.is .CLK_STAT_LOCKED && d.coreOn
  | .adc o => d.is .CLK_STAT_LOCKED && (d.fg .PMU_STAT_OPU_ON).testBit o
  | .dram => d.is .CLK_STAT_LOCKED && (d.fg .PMU_STAT_ISL).testBit 3 && d.drcState != 3
  | .link => d.is .CLK_STAT_LOCKED && (d.fg .PMU_STAT_ISL).testBit 0
    && [0, 1].any fun p => d.portState p != 0 && d.portState p != 3

/-! The frost line (R597 to R602). -/

/-- The monitors that can trip: VSENSE_SYS, VDD_CORE, and each I/O bank declared in use (Table 19-8). -/
def Dev.monitors (d : Dev) : List Nat :=
  [0, 1] ++ (((List.range 6).filter fun b => let v := bitsOf (d.fg .PMU_VIO_LEVEL) (3 * b) 3; 1 ≤ v && v ≤ 4).map (2 + ·))

/-- The level declared for an I/O bank, in mV (PMU_VIO). -/
def Dev.vioLevel (d : Dev) (b : Nat) : Nat := [0, 1800, 2500, 3000, 3300].getD (bitsOf (d.fg .PMU_VIO_LEVEL) (3 * b) 3) 0

/-- A monitor's trip level in 10 µV (Table 19-8). -/
def Dev.tripLevel (d : Dev) (m : Nat) : Nat :=
  if m = 0 then d.fg .PMU_FL_NOM * d.fg .PMU_FL_PCT else if m = 1 then 72000 else 90 * d.vioLevel (m - 2)

/-- A monitor's trip level plus its hysteresis in 10 µV (Table 19-8, R603). -/
def Dev.thawLevel (d : Dev) (m : Nat) : Nat :=
  if m = 0 then d.fg .PMU_FL_NOM * (d.fg .PMU_FL_PCT + d.fg .PMU_FL_HYST) else if m = 1 then 73500 else 92 * d.vioLevel (m - 2)

/-- The monitors that stand below a level. -/
def Dev.below (d : Dev) (level : Nat → Nat) (l : List (Nat × Nat)) : List Nat :=
  d.monitors.filter fun m => l.any fun e => e.1 == m && decide (e.2 < level m)

/-- A monitor's trip recorded. -/
def tripBit (m : Nat) (d : Dev) : Dev :=
  if m = 0 then d.fs .PMU_STAT_SYS_TRIP 1
  else if m = 1 then d.fs .PMU_STAT_CORE_TRIP 1
  else d.fs .PMU_STAT_VIO_TRIP (d.fg .PMU_STAT_VIO_TRIP ||| 2 ^ (m - 2))

/-- What the islands do at a frost line (Table 19-9): the lanes stopped, the calibration aborted, the journal's seal begun, the
spindle coasting, the sleds held where their profile has brought them, the clamp at rest, and the OPU islands off. -/
def frostActions (pos : List Int) (d : Dev) : Dev :=
  let d := d.each d.opus fun d o => (lanesStop true o d).fs .WSG_OCTL_GATE_EN 0 o
  let d := (calAbort true d).onJournal fun j => { j with sealing := !d.is .RJ_STAT_SEALED }
  let d := clampFrost (spnFrost d)
  let d := d.each [0, 1, 2, 3] fun d o => sldHold o true (pos.getD o (d.sldPos o)) d
  let d := d.each d.opus fun d o =>
    opuOff o true (d.each (slicesOf o) fun d n => d.fs .RCS_STAT_STATE (if d.fg .RCS_STAT_STATE n = 0 then 0 else sliceIdle) n)
  if d.fw.up then d.attn 5 else { d with aon := { d.aon with owed := true } }

/-- FROST_LINE_EVENT: monitors have stayed below their trip level for 50 ns. While a hold is in force a crossing only counts and
stops the thaw timer; in DORMANT, and in a unit held in reset, only the AON
island is touched (R601, R602). -/
def frostLine (levels : List (Nat × Nat)) (pos : List Int) (d : Dev) : Dev :=
  let l := d.below d.tripLevel levels
  if l.isEmpty then d
  else
    let d := (d.each l fun d m => tripBit m d).bump .PMU_CNT_FROST
    if d.frost then
      let d := d.cond (d.is .PMU_STAT_THAWING) fun d => d.bump .PMU_CNT_THAWRST
      { d.fs .PMU_STAT_THAWING 0 with aon := { d.aon with crossings := d.aon.crossings + 1 } }
    else
      let dark := d.mode == 1 || d.aon.reset
      let aon := { d.aon with frostAt := d.qtime, crossings := 1, owed := d.aon.owed || dark }
      let d : Dev := { (d.fs .PMU_STAT_FROST 1).fs .PMU_STAT_THAWING 0 with aon := aon }
      if dark then d else frostActions pos d

/-- SUPPLY_REGAINED: every monitor stands at its thaw level; the thaw timer starts (R603). -/
def supplyRegained (levels : List (Nat × Nat)) (d : Dev) : Dev :=
  if !d.frost || d.is .PMU_STAT_THAWING || !(d.below d.thawLevel levels).isEmpty then d
  else { d.fs .PMU_STAT_THAWING 1 with aon := { d.aon with regained := d.qtime } }

/-- THAW_TIMER_RESET: a monitor falls below its thaw level, and stays above its trip level. -/
def thawTimerReset (levels : List (Nat × Nat)) (d : Dev) : Dev :=
  if !d.is .PMU_STAT_THAWING || (d.below d.thawLevel levels).isEmpty then d else (d.fs .PMU_STAT_THAWING 0).bump .PMU_CNT_THAWRST

/-! The thaw (R603). -/

/-- Firmware's THAW record, the two events, and what it kept from the seal, in that order (R424, R602, R603). -/
def thawRecords (d : Dev) : Dev :=
  let us := (d.aon.regained - d.aon.frostAt) / 1000
  let held := d.journal.held
  let d := d.onJournal fun j => { j with held := [] }
  let d := d.fwSubmit false 0x0F 0 (leBytes 4 d.aon.crossings ++ leBytes 4 us)
  let d := (d.event { code := 0x6001, data := leBytes 4 d.aon.crossings }).event { code := 0x6002, data := leBytes 4 us }
  let d := d.each held fun d s => d.submit s.event s.bytes
  { d with aon := { d.aon with owed := false } }

/-- The sheets of an OPU's latched band that have no COMMIT are relocated (R191, R424, R603). -/
def frostRelocate (opu : Nat) (d : Dev) : Dev :=
  match (d.opuFw opu).latched with
  | none => d
  | some p =>
    let d := d.onOpuFw opu fun f => { f with latched := none, running := false }
    d.each (p.cells.map (·.2.2)) fun d o =>
      match d.version o with
      | some v => d.cond (v.stage == .latched || v.stage == .recorded || v.stage == .verified) (versionFails o 3)
      | none => d

/-- The clamp after a frost hold (R329). -/
def clampRestore (d : Dev) : Dev :=
  if d.clState != clUnknown then d
  else if d.running.any fun c => c.opcode == 0x18 then clampCmd d
  else d.cond (d.running.any fun c => c.opcode == 0x19) releaseCmd

/-- What firmware does at a thaw: the records, the spindle (R300) and the OPUs of a turning disc, the clamp, and the
relocation ahead of any later write. -/
def thawFirmware (d : Dev) : Dev :=
  let d := d.cond d.aon.owed fun d => d.attn 5
  let d := thawRecords d
  let turning := 3 ≤ d.mode && d.mode ≤ 5
  let d := d.cond turning spindleRestore
  let d := d.cond turning fun d => d.each d.opus fun d o => opuBring o d
  let d := clampRestore d
  let d := d.each d.opus fun d o => frostRelocate o d
  admitAll (recordWork d)

/-! Waking (R591, R592). -/

/-- A wake: the islands and the PLL on, the cache invalid, the DRC out of deep self-refresh, mode PARKED, and the messages of the
ingress buffer taken in arrival order. -/
def wakeNow (cause : Nat) (counts : List Nat) (d : Dev) : Dev :=
  let d := (d.fs .PMU_WAKE_CAUSE cause).bump .PMU_CNT_WAKE
  let d := setIslands true d.bonded true true true (d.fs .CLK_STAT_LOCKED 1)
  let d := drcDeepExit counts (cacheReset d)
  let d := { d with aon := { d.aon with sleep := false, asleep := false, wakeOwed := 0 } }
  let d := (d.setMode 2).onLink fun l => { l with inbox := l.ingress.map (fun m => (2, m)) ++ l.inbox, ingress := [] }
  let d := d.cond d.aon.owed fun d => thawRecords (d.attn 5)
  admitAll d

/-- WAKE: a wake event of a DORMANT unit; during a frost hold it waits for the thaw (R601). -/
def wake (cause : Nat) (counts : List Nat) (d : Dev) : Dev :=
  if d.mode != 1 then d
  else if d.frost then { d with aon := { d.aon with wakeOwed := cause } }
  else wakeNow cause counts d

/-- The part of a thaw that is the unit's: the hold cleared, the journal unsealed, and, where it runs, firmware's part. -/
def thawDev (counts : List Nat) (d : Dev) : Dev :=
  let d := ((d.fs .PMU_STAT_FROST 0).fs .PMU_STAT_THAWING 0).bump .PMU_CNT_THAW
  let d := d.fs .SPN_STAT_FROST_HOLD 0
  let d := d.each [0, 1, 2, 3] fun d o => sldRelease o d
  let d := (d.fs .RJ_STAT_SEALED 0).onJournal fun j => { j with sealing := false }
  if d.mode = 1 then d.cond (d.aon.wakeOwed != 0) (wakeNow d.aon.wakeOwed counts)
  else d.cond (d.fw.up && d.mode != 7) thawFirmware

/-- THAW: the thaw timer has reached PMU_THAW.MS; a blow of the ARB fuses that waited for it goes on (R641). -/
def thaw (counts : List Nat) (s : State) : State :=
  if !s.dev.frost || !s.dev.is .PMU_STAT_THAWING || s.dev.qtime < s.dev.aon.regained + 1000000 * s.dev.fg .PMU_THAW_MS then s
  else
    let t := { s with dev := thawDev counts s.dev }
    if s.dev.is .FUSE_STAT_BUSY then arbAdvance s.dev.aon.arbTarget t else t

/-! The effects of the commands. -/

/-- FROST_LINE_EVENT (R598). -/
def execFrostLineEvent (levels : List (Nat × Nat)) (pos : List Int) (s : State) : Host.Outcome State Fault Refusal :=
  s.onDev (frostLine levels pos)

/-- SUPPLY_REGAINED (R603). -/
def execSupplyRegained (levels : List (Nat × Nat)) (s : State) : Host.Outcome State Fault Refusal :=
  s.onDev (supplyRegained levels)

/-- THAW_TIMER_RESET (R603). -/
def execThawTimerReset (levels : List (Nat × Nat)) (s : State) : Host.Outcome State Fault Refusal :=
  s.onDev (thawTimerReset levels)

/-- WAKE (R592). -/
def execWake (cause : Fin 4) (counts : List Nat) (s : State) : Host.Outcome State Fault Refusal :=
  s.onDev (wake cause counts)

/-- THAW (R603). -/
def execThaw (counts : List Nat) (s : State) : Host.Outcome State Fault Refusal := .next (thaw counts s)

/-- FUSE_ARB_SET (R641). -/
def execFuseArbSet (target : Fin 128) (s : State) : Host.Outcome State Fault Refusal := .next (arbSet target s)

end Sys2Proof.Machine
end

