-- ==== Sys2Proof/Machine/Boot.lean ====
section
/-!
DEFINITION. Boot (20_clocks_reset_boot.md R623 to R632), firmware restarts and the watchdog (R621, R622).
-/

namespace Sys2Proof.Machine

/-! The hardware's part of boot (Table 20-5, t0 to t4). -/

/-- A boot that stops at a stage with a cause of Table 20-7 (R630). -/
def bootFail (cause : Nat) (d : Dev) : Dev := d.fs .CLK_BOOT_FAIL cause

/-- The islands on, the blocks at their t2 and t3 state, and the DRAM trained (R380, R407, R628). -/
def bootIslands (fail : Option (Nat × Nat)) (counts : List Nat) (d : Dev) : Dev :=
  let d := setIslands true d.bonded true true true ((d.fs .CLK_STAT_LOCKED 1).fs .CLK_BOOT_STAGE 1)
  drcTraining fail counts (drcEnable true (cacheReset (d.fs .QL_CTL_EN 1)))

/-- What t0 makes of the fuses: the shadow, and the unit out of its held reset (R633). A journal that leaves reset in a frost hold
is sealed (R424). -/
def bootShadow (fuses : Nat) (d : Dev) : Dev :=
  let d : Dev := { d.wr .CLK_BOOT 0#32 with shadow := fuses, aon := { d.aon with reset := false } }
  let d := d.cond d.frost fun d => d.fs .RJ_STAT_SEALED 1
  ((d.fs .FUSE_STAT_LOADED 1).fs .CLK_STAT_XTAL_OK 1).fs .CLK_BOOT_STAGE 0

/-- BOOT: from the release of reset to the flash discovered. `lock` is whether the PLL locked within three attempts (R610),
`fail` the training step without a passing window, `table` whether the flash has a valid table and a 1-4-4 read (R624). -/
def boot (lock table : Bool) (fail : Option (Nat × Nat)) (counts : List Nat) (s : State) : State :=
  if !s.dev.aon.reset || s.dev.aon.internal then s
  else
    let d := bootShadow s.fuses s.dev
    let d :=
      if !lock then bootFail 6 d
      else
        let d := bootIslands fail counts d
        if d.is .DRC_STAT_TRN_FAIL then bootFail 5 d
        else
          let d := d.fs .CLK_BOOT_STAGE 2
          if table then d.fs .CLK_BOOT_STAGE 3 else bootFail 1 d
    { s with dev := d }

/-- BOOT_IMAGE_CHECK: the image slot chosen, read and checked (R626, R639). -/
def bootImage (d : Dev) : Dev :=
  if d.aon.reset || d.fg .CLK_BOOT_STAGE != 3 || d.bootFailed then d
  else match d.chooseImage with
    | (some (k, fallback), _) => takeImage k fallback (d.fs .CLK_BOOT_STAGE 5)
    | (none, 2) => bootFail 2 d
    | (none, cause) => bootFail cause (d.fs .CLK_BOOT_STAGE 4)

/-! Firmware's part (t7 to t9). -/

/-- The record with the latest SEQ. -/
def latestRecord (l : List (Nat × Bytes)) : Option (Nat × Bytes) :=
  l.foldl (fun m e => match m with
    | none => some e
    | some x => if seqLater (recordSeq e.2) (recordSeq x.2) then some e else m) none

/-- The journal scanned (R421): RJ_SEQ, HEAD and EHEAD, then RJ_CTL.EN; and RJ_TAIL (R423). -/
def journalScan (d : Dev) : Dev :=
  let main := latestRecord (d.records false)
  let events := latestRecord (d.records true)
  let d := match latestRecord (main.toList ++ events.toList) with
    | some e => d.setSeq ((recordSeq e.2 + 1) % 2 ^ 48)
    | none => d
  let after := fun (n : Nat) (e : Option (Nat × Bytes)) => match e with
    | some e => (e.1 + 1) % n
    | none => 0
  let d := (d.fs .RJ_HEAD_HEAD (after mainSlots main)).fs .RJ_HEAD_EHEAD (after eventSlots events)
  setTail (d.fs .RJ_CTL_EN 1)

/-- The newest CAL record with RESULT PASS of a pair (R354). -/
def Dev.calPass (d : Dev) (l : List Bytes) (group opu : Nat) : Option Bytes :=
  if !d.opuPresent opu then none
  else l.find? fun b => le (recordPayload b) 0 1 == opu + 16 * group && le (recordPayload b) 1 1 == CalResult.pass.code

/-- The trims restored from the journal (R354). -/
def restoreTrims (l : List Bytes) (d : Dev) : Dev :=
  d.each d.opus fun d o => d.each (List.range 6) fun d g => match d.calPass l g o with
    | some b =>
      let d := calTempOf g o (recordPayload b) d
      if g = 5 then calLoadBank (recordPayload b) d else calLoad g o ((recordPayload b).drop 12) d
    | none => d

/-- The calibration that boot triggers: groups 0, 1 and 2 of each OPU with a pair that has no PASS record, its island powered for
them (R629). -/
def bootCalibrate (l : List Bytes) (d : Dev) : Dev :=
  let due := d.opus.filter fun o => (List.range 6).any fun g => (d.calPass l g o).isNone
  let d := d.each due fun d o => opuPowerUp o d
  calTrigger ((due.map fun o => 7 * 2 ^ pairBit o 0).sum) d

/-- Level, period, phase and adaptive stores of a loop of F3.1 (Table 6-8). -/
def slotPlan : LoopKind → Nat × Nat × Nat × Nat
  | .foc o => (0, 1500, 375 * o, 1)
  | .trk o => (0, 1500, 375 * o + 180, 1)
  | .spc => (1, 3750, 90, 0)
  | .apc b => (1, 6000, 125 * b + 100, 1)
  | .tlt o => (2, 15000, 3750 * o + 300, 0)
  | .slc o => (2, 30000, 7500 * o + 600, 0)
  | .sps => (2, 1500, 0, 0)
  | .sac o => (3, 150000, 37500 * o + 900, 0)
  | .wmk | .service | .opened => (3, 1500, 0, 0)

/-- The leader and the ratio of a follower slot (Table 6-8). -/
def slotLeader : LoopKind → Option (Nat × Nat)
  | .sps => some (8, 8)
  | .wmk => some (65, 10)
  | _ => none

/-- One slot of F3.1 configured (R215); its place in control store and data memory is this model's (DESIGN CHOICE,
notes/assumptions/34.md). -/
def slotConfigure (d : Dev) (n : Nat) : Dev :=
  let k := slotKind n
  let p := slotPlan k
  let d := d.putCs n f31Word
  let d := ((((d.fs .SLOT_CFG_PRIO p.1 n).fs .SLOT_CFG_SATM 1 n).fs .SLOT_CFG_FTZ 0 n).fs .SLOT_CFG_AW p.2.2.2 n).fs
    .SLOT_CFG_OPU (k.opu.getD 7) n
  let d := (d.fs .SLOT_PER_PERIOD p.2.1 n).fs .SLOT_PHASE p.2.2.1 n
  let d := match slotLeader k with
    | some (l, r) => ((d.fs .SLOT_CFG_SRC 1 n).fs .SLOT_CFG_LEADER l n).fs .SLOT_CFG_DIV (r - 1) n
    | none => d.fs .SLOT_CFG_SRC 0 n
  let d := (d.fs .SLOT_ENTRY_ENTRY n n).fs .SLOT_ENTRY_STATE (0x1200 + 4 * n) n
  (d.fs .SLOT_BANK_BASE (64 * n) n).fs .SLOT_BANK_LEN 31 n

/-- F3.1's slots configured, their banks loaded, CS_LOCK set and the engine on (R215, R233). -/
def engineStart (d : Dev) : Dev :=
  let d := d.each (List.range 71) slotConfigure
  let d := loadBanks (List.range 71) d
  (d.fs .CLE_CTL_CS_LOCK 1).fs .CLE_CTL_EN 1

/-- The allocation ways that F3.1 gives each requester (Table 12-1). -/
def wayMasks : List Nat := [0xF, 0xF, 0xF, 0xF, 0x3F00, 0xF0, 0xF0, 0xF0, 0xF0, 0xF0, 0, 0, 0xF, 0xF, 0, 0]

/-- The blocks that F3.1 enables, with the cache's way masks, its rings in the first 64 MiB of the buffer (DESIGN CHOICE,
notes/assumptions/41.md): the deposit ring of 48 MiB first (R17). -/
def blocksStart (d : Dev) : Dev :=
  let d := (((d.fs .SDE_RING_BASE 0).fs .SDE_RING_SIZE 48).fs .SDE_CTX_BASE 768).fs .SDE_LRES_BASE 12544
  let d := ((d.fs .SDE_SRES_BASE 12800).fs .WSG_EJOB_BASE 13056).fs .CLE_TRACE_BASE 13312
  let d := ((d.fs .SDE_CTL_EN 1).fs .WSG_CTL_EN 1).fs .CAL_CTL_EN 1
  let d := d.each wayMasks.zipIdx fun d e => d.fs .FBC_WAYMASK_MASK e.1 e.2
  let d := ((d.fs .FBC_CTL_EN 1).fs .PXE_CTL_EN 1).fs .FIX_CTL_EN 1
  let d := spnEnable true (d.fs .SLD_CL_CTL_EN 1)
  d.each d.opus fun d o => sldEnable o true d

/-- RELEASE asked again of every member, for every decision in a keeper's journal (R567); the requests go out once the units
have addresses. -/
def resendReleases (l : List Bytes) (d : Dev) : Dev :=
  let kept := d.comp.groups.filter d.keeps
  let orders := fun (g : Group) => l.filter fun b => recordType b == 0x08 && le (recordPayload b) 0 1 == g.stream
  d.each kept fun d g => d.each (orders g) fun d b => d.each (List.range g.size) fun d j =>
    let (tag, d) := nextTag d
    let a : GroupAsk := { tag := tag, kind := rqRelease, group := g.id, member := j, serial := g.unitOf j, asleep := true
                          payload := reqBytes g.id g.gen (le (recordPayload b) 1 4) 0 [] }
    d.onComp fun c => { c with asks := c.asks ++ [a] }

/-- Every page at the values in force (R492). -/
def pagesApply (d : Dev) : Dev :=
  d.each [5, 6, 7] fun d p => pageTakes p 0 d

/-- F3.1 from its start to PARKED: the resident image locked, the journal scanned and a bank failed from reset reported (R425), trims, the engine, the streams and the
groups (t7 to t9). -/
def firmwareStart (ms : Nat) (d : Dev) : Dev :=
  let d := d.fs .FBC_LOCK_WAYS (d.fg .FBC_LOCK_WAYS ||| 0xC000)
  let d := journalScan d
  let d := d.cond (d.fg .RJ_STAT_BANK_OK != 3) fun d =>
    journalAfter ((d.fs .RJ_STAT_BANK_OK 3).fs .RJ_STAT_FAILED 0) d
  let l := d.bySeq.reverse
  let d := restoreTrims l (engineStart (blocksStart (pagesApply d)))
  let d := { d.cond d.aon.examine streamExamine with aon := { d.aon with examine := false, beats := 0, restarted := 0, paused := none } }
  let d := (d.setMode 2).onFw fun w => { w with up := true }
  let d := (d.fs .CLK_BOOT_STAGE 7).fs .CLK_BOOT_MS (limitN 0 65535 ms)
  let d := d.cond (d.is .CLK_BOOT_FALLBACK) fun d => d.attn 8
  let d := d.cond (d.aon.owed && !d.frost) fun d => thawRecords (d.attn 5)
  let d := resendReleases l (bootCalibrate l d)
  electStart (admitAll d)

/-- The advance of the anti-rollback value at t9 (R640). -/
def bootRollback (s : State) : State :=
  let svn := hField s.dev.aon.image 20 1
  if s.dev.is .CLK_BOOT_FALLBACK || svn ≤ s.dev.arb then s else arbSet svn s

/-- BOOT_FIRMWARE_START: from the checked image to t9, `ms` after t0 (R625, R640). -/
def bootFirmware (ms : Nat) (s : State) : State :=
  if s.dev.aon.reset || s.dev.fg .CLK_BOOT_STAGE != 5 || s.dev.bootFailed then s
  else bootRollback { s with dev := firmwareStart ms s.dev }

/-! Firmware restarts (R622). -/

/-- The group write of a command, if it has one. -/
def Dev.groupWriteOf (d : Dev) (c : Cmd) : Option GroupWrite := d.comp.writes.find? fun w => w.cmd == c.id

/-- Whether a command outlives a firmware restart: an owed WRITE, a FLUSH STREAM, a GROUP WRITE whose decision stands. -/
def Dev.survives (d : Dev) (c : Cmd) : Bool :=
  c.opcode == 0x13 || (c.opcode == 0x11 && (d.stream c.stream).writes.any fun w => w.ssq == c.ssq && w.cmd == c.id && w.intent)
    || (match d.groupWriteOf c with
        | some w => w.decided == some true
        | none => false)

/-- A command in progress at a restart: CLASS 2, DETAIL 0x04, without effect; a command only latched waits on. -/
def restartEnds (d : Dev) (c : Cmd) : Dev :=
  if c.ssq = 0 || d.survives c then d
  else
    let psas := c.binds.filterMap (·.psa)
    let d := d.endCmd c.id 2 4
    let d := d.cond (c.opcode == 0x11) (writeWithdraw c.stream c.ssq)
    let d := match d.groupWriteOf c with
      | some w => gwEnd w (onGroupRec w (fun _ => none) d)
      | none => dropJobs c.id d
    let d := d.onComp fun w => { w with created := w.created.filter fun e => e.1 != c.id }
    let d := d.onLink fun l => { l with op := l.op.map fun o => if o.cmd == some c.id then { o with cmd := none } else o }
    abandonIdle psas d

/-- A firmware restart with its cause: what was in progress is settled; the hardware carries on (R622). -/
def firmwareRestart (cause : Nat) (d : Dev) : Dev :=
  let d := (d.fs .CLK_RST_FWCAUSE cause).bump .CLK_CNT_FWRST
  admitAll { d.each d.running restartEnds with aon := { d.aon with beats := 0, restart := false, paused := some d.qtime } }

/-- The restart of FIRMWARE COMMIT with ACTIVATE: the image is chosen and checked again, as in boot (R622). -/
def activateImage (d : Dev) : Dev :=
  match d.chooseImage with
  | (some (k, fallback), _) =>
    let d := (firmwareRestart 1 (takeImage k fallback d)).event { code := 0x7002 }
    d.cond fallback fun d => d.attn 8
  | (none, cause) => bootFail cause ((firmwareRestart 1 d).onFw fun w => { w with up := false })

/-- FIRMWARE_RESTART: the restart that FIRMWARE COMMIT has asked for; none where none is due. -/
def restartDue (d : Dev) : Dev :=
  d.cond (d.aon.restart && d.fw.up && d.mode != 1 && !d.running.any fun c => c.opcode == 0x33) activateImage

/-! The watchdog (R621). -/

/-- The watchdog period in ns: below 100 ms acts as 100 ms (Table 20-6). -/
def Dev.watchPeriod (d : Dev) : Nat := 1000000 * limitN 100 2047 (d.fg .CLK_WDT_PERIOD)

/-- Whether the watchdog's period cannot have ended yet: it pauses after a restart until the first heartbeat, for 5 s at most
(R621). -/
def Dev.watchPaused (d : Dev) : Bool :=
  match d.aon.paused with
  | some t => decide (d.qtime < t + 5 * second + d.watchPeriod)
  | none => false

/-- WATCHDOG_EXPIRY: a watchdog period ends; a missing heartbeat is an expiry. Within 60 s of a stage-1 restart it is stage 2,
but not in FROZEN. The watchdog pauses while CORE is off. -/
def watchdog (begun : Bool) (d : Dev) : Dev :=
  if !d.is .CLK_WDT_EN || !d.fw.up || d.mode == 1 || d.aon.reset || d.watchPaused then d
  else if d.aon.beats = 15 then { d with aon := { d.aon with beats := 0 } }
  else if d.aon.restarted != 0 && d.qtime + 1 < d.aon.restarted + 60 * second && d.mode != 7 then
    unitReset 3 false begun [] [] d
  else
    let d := { d with aon := { d.aon with restarted := d.qtime + 1 } }
    firmwareRestart 2 d

/-! The effects of the commands. -/

/-- BOOT (R625). -/
def execBoot (lock : Bool) (table : Bool) (fail : Option (Fin 4 × Fin 5)) (counts : List Nat) (s : State) :
    Host.Outcome State Fault Refusal :=
  .next (boot lock table (fail.map fun p => (p.1.val, p.2.val)) counts s)

/-- BOOT_IMAGE_CHECK (R639). -/
def execBootImageCheck (s : State) : Host.Outcome State Fault Refusal := s.onDev bootImage

/-- BOOT_FIRMWARE_START (R625). -/
def execBootFirmwareStart (ms : Nat) (s : State) : Host.Outcome State Fault Refusal := .next (bootFirmware ms s)

/-- FIRMWARE_RESTART (R622). -/
def execFirmwareRestart (s : State) : Host.Outcome State Fault Refusal := s.onDev restartDue

/-- WATCHDOG_EXPIRY (R621). -/
def execWatchdogExpiry (begun : Bool) (s : State) : Host.Outcome State Fault Refusal := s.onDev (watchdog begun)

end Sys2Proof.Machine
end

