-- ==== Sys2Proof/Machine/Registers.lean ====
section
/-!
DEFINITION. The register bus (00_scope.md R10, R11, 01_architecture.md R27): a write to any register and a read of any
register, by window and offset, and what waits for an OPU island.
-/

namespace Sys2Proof.Machine

/-! Writes by access type (R11). -/

/-- What a write leaves in a register: RW bits take the value, W1C bits written 1 are cleared, the others stay. -/
def Reg.after (r : Reg) (old v : DWord) : DWord :=
  let w1c := BitVec.ofNat 32 r.w1c
  let rw := BitVec.ofNat 32 r.rw
  (((old &&& ~~~rw) ||| (v &&& rw)) &&& ~~~(v &&& w1c))

/-- A write with no effect but its access type's. -/
def plainWrite (r : Reg) (i j : Nat) (v : DWord) (d : Dev) : Dev := d.wr r (r.after (d.rd r i j) v) i j

/-- A value with a field replaced. -/
def withField (f : Fld) (x : Nat) (v : DWord) : DWord := BitVec.ofNat 32 (putBits v.toNat f.lo f.width x)

/-- A write that leaves a field as it stands. -/
def keepField (f : Fld) (i j : Nat) (v : DWord) (d : Dev) : DWord := withField f (d.fg f i j) v

/-- A field of a written value. -/
def fieldOf (f : Fld) (v : DWord) : Nat := bitsOf v.toNat f.lo f.width

/-- RCS_CTL (R91, R108): EN cleared stops the slice, EN set lets it go on; a changed TGT_SEL acts at once while the slice is not
capturing. -/
def rcsCtlWrite (i : Nat) (v : DWord) (d : Dev) : Dev :=
  let d1 := plainWrite .RCS_CTL i 0 v d
  let d1 := d1.cond (d1.fg .RCS_CTL_TGT_SEL i != d.fg .RCS_CTL_TGT_SEL i && !d.capturing i) (takeTarget i)
  if d1.is .RCS_CTL_EN i then d1.onSlice i fun s => { s with stopping := false }
  else d1.cond (d.is .RCS_CTL_EN i) (sliceDisabled i)

/-- Slices (R72, R84, R90, R91, R108). -/
def rcsWrite (r : Reg) (i j : Nat) (v : DWord) (d : Dev) : Dev :=
  if r = .RCS_CTL then rcsCtlWrite i v d
  else if r = .RCS_AFE then
    plainWrite r i j (if d.is .RCS_CTL_AGC_EN i then keepField .RCS_AFE_GAIN i 0 v d else v) d
  else if r = .RCS_NCO_PRESET then ncoPreset i v d
  else if r = .RCS_TGT then tgtWrite i v d
  else if r = .RCS_EQ_CTL then (plainWrite r i j v d).cond (fieldOf .RCS_EQ_CTL_COMMIT v == 1) (eqCommit i)
  else plainWrite r i j v d

/-- The SDE (R124, R127, R151, R153). -/
def sdeWrite (r : Reg) (i j : Nat) (v : DWord) (d : Dev) : Dev :=
  if r = .SDE_CTL then plainWrite r i j (if d.mode = 6 then v else keepField .SDE_CTL_TEST 0 0 v d) d
  else if r = .SDE_RING then sdeRingWrite v d
  else if r = .SDE_CTX_CMD then
    let x := fieldOf .SDE_CTX_CMD_INDEX v
    match fieldOf .SDE_CTX_CMD_OP v with
    | 1 => contextOpen x d
    | 2 => contextClose x d
    | 3 => contextAbandon x d
    | _ => d
  else if r = .SDE_LRES_CI ∨ r = .SDE_SRES_CI then sdeFlush (plainWrite r i j v d)
  else if r = .SDE_TEST_POS then (plainWrite r i j v d).cond (fieldOf .SDE_TEST_POS_ADV v == 1) testEntryAdvance
  else plainWrite r i j v d

/-- The WSG of an OPU (R162, R165, R166, R174, R190, R191): a stop that comes with a pause is a stop. -/
def wsgWrite (r : Reg) (i j : Nat) (v : DWord) (d : Dev) : Dev :=
  if r = .WSG_OCTL then
    let d1 := (plainWrite r i j v d).cond (fieldOf .WSG_OCTL_STOP v == 1) (wsgStop i)
    let d1 := lanesJudge i d1
    let d1 := d1.cond (fieldOf .WSG_OCTL_PAUSE v == 0) fun d => d.fs .WSG_OSTAT_PAUSED 0 i
    let d1 := d1.cond (fieldOf .WSG_OCTL_PAUSE v == 1 && !d.is .WSG_OCTL_PAUSE i) (wsgPause i)
    d1.cond (fieldOf .WSG_OCTL_TRAIN v == 1) (wsgTrain i)
  else if r = .WSG_LDC_CMD then ldcFirmwareCmd i v d
  else plainWrite r i j v d

/-- The CLE (R212, R223, R224, R233, R236, R238). -/
def cleWrite (r : Reg) (i j : Nat) (v : DWord) (d : Dev) : Dev :=
  if r = .CLE_CTL then plainWrite r i j (if d.is .CLE_CTL_CS_LOCK then withField .CLE_CTL_CS_LOCK 1 v else v) d
  else if r = .CLE_GO then d.cond (v.getLsbD 0) cleGo
  else if r = .CLE_CS_DATA ∧ i = 3 then csCommit v d
  else if r = .CLE_DM_DATA ∧ i = 3 then dmCommit v d
  else if r = .CLE_CS_ADDR then wordTake false (plainWrite r i j v d)
  else if r = .CLE_DM_ADDR then wordTake true (plainWrite r i j v d)
  else if r = .SLOT_CFG then
    let v := if 72 ≤ i && d.openLock then withField .SLOT_CFG_EN 0 v else v
    (plainWrite r i j v d).cond (d.is .SLOT_CFG_EN i && fieldOf .SLOT_CFG_EN v == 0) (slotDisable i)
  else if r = .SLOT_PER ∨ r = .SLOT_PHASE then
    (plainWrite r i j v d).cond (d.started i) fun d => d.onSlot i fun s => { s with renew := true }
  else if r = .SLOT_CTL then d.cond (fieldOf .SLOT_CTL_SWAP v == 1) (swapWrite i)
  else if r = .SLOT_STAT then
    (plainWrite r i j v d).cond (fieldOf .SLOT_STAT_FAULT v == 1) fun d => d.fs .SLOT_STAT_CAUSE 0 i
  else plainWrite r i j v d

/-- The spindle drive (R283, R289, R303). -/
def spnWrite (r : Reg) (i j : Nat) (v : DWord) (d : Dev) : Dev :=
  if r = .SPN_CMD then spnCmdWrite v d
  else if r = .SPN_CTL then
    let en := fieldOf .SPN_CTL_EN v == 1
    let d1 := plainWrite r i j (keepField .SPN_CTL_EN 0 0 (keepField .SPN_CTL_DIR 0 0 v d) d) d
    spnEnable en (spnDirWrite (fieldOf .SPN_CTL_DIR v == 1) d1)
  else plainWrite r i j v d

/-- Sleds and clamp (R311, R317, R326, R327): a target or a command that moves a sled finds it at its position, at rest. -/
def sldWrite (r : Reg) (i j : Nat) (v : DWord) (d : Dev) : Dev :=
  if r = .SLD_CTL then
    let en := fieldOf .SLD_CTL_EN v == 1
    let d1 := plainWrite r i j (keepField .SLD_CTL_EN i 0 v d) d
    if en == d.is .SLD_CTL_EN i then d1 else sldEnable i en d1
  else if r = .SLD_CMD then sldCmdWrite i v (d.sldPos i) 0 d
  else if r = .SLD_TGT then sldTgtWrite i v (d.sldPos i) 0 d
  else if r = .SLD_CL_CMD then clCmdWrite v d
  else plainWrite r i j v d

/-- Calibration (R340, R345, R346). -/
def calWrite (r : Reg) (i j off : Nat) (v : DWord) (d : Dev) : Dev :=
  if r = .CAL_CTL then
    calEnable (fieldOf .CAL_CTL_EN v == 1) (d.cond (fieldOf .CAL_CTL_ABORT v == 1) (calAbort true))
  else if r = .CAL_TRIG then calTrigger (v.toNat % 2 ^ 28) d
  else if r = .CAL_EXT then calExtResult (fieldOf .CAL_EXT_RESULT v) d
  else if !(storeTrims r i j).isEmpty then trimStoreWrite off v d
  else plainWrite r i j v d

/-- The DRAM controller (R367, R378, R385): DRC_CFG only in state OFF, where CAP follows the geometry. -/
def drcRegWrite (r : Reg) (i j : Nat) (v : DWord) (d : Dev) : Dev :=
  if r = .DRC_CTL then
    drcEnable (fieldOf .DRC_CTL_EN v == 1) (plainWrite r i j (keepField .DRC_CTL_EN 0 0 v d) d)
  else if r = .DRC_CFG then
    d.cond (d.drcState == 0) fun d =>
      let d := plainWrite r i j v d
      d.fs .DRC_CFG_CAP (visibleOf (d.fg .DRC_CFG_DENS) d.ranks)
  else if r = .DRC_PWR then
    (plainWrite r i j (keepField .DRC_PWR_DEEP 0 0 v d) d).cond (fieldOf .DRC_PWR_DEEP v == 1) drcDeep
  else if r = .DRC_TEST_CTL then
    let d := plainWrite r i j v d
    if fieldOf .DRC_TEST_CTL_GO v = 0 then d
    else match d.fg .DRC_TEST_CTL_OP with
      | 1 => rawWrite d
      | 2 => rawRead d
      | _ => d
  else plainWrite r i j v d

/-- The cache (R405). -/
def fbcWrite (r : Reg) (i j : Nat) (v : DWord) (d : Dev) : Dev :=
  if r = .FBC_CMD then
    match fieldOf .FBC_CMD_OP v with
    | 1 => cacheClean d
    | 2 => cacheInvalidate d
    | 3 => cachePreload (fieldOf .FBC_CMD_WAY v) d
    | 4 => cacheCleanAll d
    | _ => d
  else plainWrite r i j v d

/-- The journal: EN stays once set, the heads and SEQ are writable only before it is (Table 13-6). -/
def rjWrite (r : Reg) (i j : Nat) (v : DWord) (d : Dev) : Dev :=
  if r = .RJ_CTL then d.cond (fieldOf .RJ_CTL_EN v == 1) fun d => d.fs .RJ_CTL_EN 1
  else if r = .RJ_HEAD ∨ r = .RJ_SEQ_LO ∨ r = .RJ_SEQ_HI then d.cond (!d.is .RJ_CTL_EN) (plainWrite r i j v)
  else if r = .RJ_TAIL then (plainWrite r i j v d).fullUpdate
  else plainWrite r i j v d

/-- The Quire link (R523, R528): DISABLE takes a port down, RETRAIN trains it again, EN cleared takes both down. -/
def qlWrite (r : Reg) (i j : Nat) (v : DWord) (d : Dev) : Dev :=
  if r = .QL_PCTL then
    let off := fieldOf .QL_PCTL_DISABLE v == 1
    let d1 := if !off then d.fs .QL_PCTL_DISABLE 0 i else if d.is .QL_PCTL_DISABLE i then d else portDisable i d
    d1.cond (fieldOf .QL_PCTL_RETRAIN v == 1) (portRetrain i)
  else if r = .QL_CTL then
    (plainWrite r i j v d).cond (d.is .QL_CTL_EN && fieldOf .QL_CTL_EN v == 0) fun d => d.each [0, 1] fun d p => portDown p d
  else plainWrite r i j v d

/-- The head control window (R465): unmasking a vector sends what it has pending. -/
def hcWrite (r : Reg) (i j : Nat) (v : DWord) (d : Dev) : Dev :=
  (plainWrite r i j v d).cond (r == .HP_MSIX && j == 3 && !v.getLsbD 0) noticePending

/-- A heartbeat ends the pause of the watchdog (R621). -/
def clkWrite (r : Reg) (i j : Nat) (v : DWord) (d : Dev) : Dev :=
  if r = .CLK_HB then { d with aon := { d.aon with beats := d.aon.beats ||| fieldOf .CLK_HB_BEAT v, paused := none } } else plainWrite r i j v d

/-- The PMU: the fields that Table 19-10 limits hold their limited values. -/
def pmuWrite (r : Reg) (i j : Nat) (v : DWord) (d : Dev) : Dev :=
  let lim := fun (f : Fld) (lo hi : Nat) (v : DWord) => withField f (limitN lo hi (fieldOf f v)) v
  if r = .PMU_FL then plainWrite r i j (lim .PMU_FL_NOM 500 1800 (lim .PMU_FL_PCT 85 95 (lim .PMU_FL_HYST 1 5 v))) d
  else if r = .PMU_THAW then plainWrite r i j (lim .PMU_THAW_MS 10 10000 v) d
  else plainWrite r i j v d

/-- The head whose host this unit's own writes stand for: B on head B, otherwise A. -/
def Dev.ownHead (d : Dev) : Nat := bit (d.role == 2)

/-- A write to a register that is present and powered. -/
def regStore (r : Reg) (i j off : Nat) (v : DWord) (d : Dev) : Dev :=
  match r.blk with
  | .rcs => rcsWrite r i j v d
  | .sde => sdeWrite r i j v d
  | .wsg => wsgWrite r i j v d
  | .cle => cleWrite r i j v d
  | .spn => spnWrite r i j v d
  | .sld => sldWrite r i j v d
  | .cal => calWrite r i j off v d
  | .drc => drcRegWrite r i j v d
  | .fbc => fbcWrite r i j v d
  | .rj => rjWrite r i j v d
  | .hp => winWrite d.ownHead off 15 v d
  | .hc => hcWrite r i j v d
  | .ql => qlWrite r i j v d
  | .clk => clkWrite r i j v d
  | .pmu => pmuWrite r i j v d
  | .pxe | .fuse => plainWrite r i j v d

/-! Reads. -/

/-- Bits of a value as a dword. -/
def dword (n : Nat) : DWord := BitVec.ofNat 32 n

/-- CLE_STAT with what it shows of the engine (Table 6-13). -/
def cleStat (d : Dev) : DWord :=
  let v := (d.rd .CLE_STAT).toNat
  let v := putBits v 2 1 (bit d.csBusy)
  match d.eng.samples.find? fun x => x.phase == .running with
  | some x => dword (putBits (putBits (putBits v 6 1 0) 8 2 x.level) 10 7 x.slot)
  | none => dword (putBits (putBits (putBits v 6 1 1) 8 2 0) 10 7 0)

/-- The faults of 32 slots (Table 6-13). -/
def cleFaults (k : Nat) (d : Dev) : DWord :=
  dword (((List.range 32).map fun j => if 32 * k + j < 80 && d.is .SLOT_STAT_FAULT (32 * k + j) then 2 ^ j else 0).sum)

/-- FUSE_STAT with the locks and ROOT_OK of the shadow (Table 21-4). -/
def fuseStat (d : Dev) : DWord :=
  dword (putBits (putBits (putBits (d.rd .FUSE_STAT).toNat 1 1 (bit d.openLock)) 2 1 (bit d.debugLock)) 3 1
    (bit (d.is .FUSE_STAT_LOADED && rootOk d.shadow)))

/-- An entry of the last-gasp log shown by RJ_LG_IDX (R427). -/
def gaspShown (d : Dev) : Option Gasp :=
  let i := d.fg .RJ_LG_IDX_IDX
  if i < d.journal.gaspCount then some (sparseGet {} d.journal.gasps i) else none

/-- WSG_OSTAT with the gates that are open now (Table 5-13). -/
def wsgStat (opu : Nat) (d : Dev) : DWord :=
  let m := d.fg .WSG_OSTAT_LANE_OPEN opu &&& bitSet ((List.range 12).filter (d.gateOpen opu))
  withField .WSG_OSTAT_GATE (bit (m != 0)) (withField .WSG_OSTAT_LANE_OPEN m (d.rd .WSG_OSTAT opu))

/-- What a register shows, where it is not simply what is stored. -/
def regView (r : Reg) (i j off : Nat) (d : Dev) : DWord :=
  if r = .RCS_ID then
    dword (putBits (putBits (putBits 0 Fld.RCS_ID_PRESENT.lo 1 1) Fld.RCS_ID_OPU.lo Fld.RCS_ID_OPU.width (i / 24))
      Fld.RCS_ID_SPOT.lo Fld.RCS_ID_SPOT.width (i % 24))
  else if r = .RCS_EQA_L then (d.slice i).liveShown 0 j
  else if r = .RCS_EQB_L then (d.slice i).liveShown 1 j
  else if r = .WSG_OSTAT then wsgStat i d
  else if r = .CLE_STAT then cleStat d
  else if r = .CLE_FAULT then cleFaults i d
  else if r = .CLE_DM_DATA then dword (laneOf d.eng.dmRead i)
  else if r = .CLE_CS_DATA then dword (laneOf d.eng.csRead i)
  else if r = .SLOT_CFG then withField .SLOT_CFG_OPEN (bit (72 ≤ i)) (d.rd r i)
  else if r = .SLOT_STAT then withField .SLOT_STAT_RUN (bit (d.eng.samples.any fun x => x.slot == i)) (d.rd r i)
  else if r = .RJ_LG_IDX then withField .RJ_LG_IDX_VALID (bit (gaspShown d).isSome) (d.rd r)
  else if r = .RJ_LG_DATA then match gaspShown d with
    | some g => dword (leNat ((g.bytes.drop (4 * i)).take 4))
    | none => 0#32
  else if r = .HP_HC_ID then dword (putBits (putBits (putBits 0 Fld.HP_HC_ID_ADDR.lo Fld.HP_HC_ID_ADDR.width d.addr)
      Fld.HP_HC_ID_ROLE.lo Fld.HP_HC_ID_ROLE.width d.role) Fld.HP_HC_ID_UNITS.lo Fld.HP_HC_ID_UNITS.width (d.fg .QL_ID_UNITS))
  else if r = .QL_TIME_LO then dword (d.qtime % 2 ^ 32)
  else if r = .FUSE_STAT then fuseStat d
  else if r = .FUSE_ARB then dword d.arb
  else if r = .FUSE_SHADOW then dword (bitsOf d.shadow (32 * i) 32)
  else if r.blk = .hp then winRead off d
  else d.rd r i j

/-- A read of a register that is present and powered: its value without its WO bits, and then what the read clears, removes or
latches. -/
def regLoad (r : Reg) (i j off : Nat) (d : Dev) : DWord × Dev :=
  if r = .CLE_EVT then let d := evtRead d; (dword (leNat d.answer), d)
  else if r = .WSG_LDC_RSP then match (d.wsg i).responses with
    | x :: rest => (x, d.onWsg i fun g => { g with responses := rest })
    | [] => (0#32, d)
  else if r = .CLE_DM_DATA ∧ i = 0 then let d := wordTake true d; (regView r i j off d, d)
  else if r = .CLE_CS_DATA ∧ i = 0 then let d := wordTake false d; (regView r i j off d, d)
  else if r = .FBC_LFSR then let d := lfsrNow d; (d.rd .FBC_LFSR, d)
  else if r = .QL_TIME_LO then (regView r i j off d, d.fs .QL_TIME_HI_TIME (d.qtime / 2 ^ 32))
  else
    let v := regView r i j off d &&& ~~~(dword r.wo)
    (v, d.cond (r.rc != 0) fun d => d.wr r (d.rd r i j &&& ~~~(dword r.rc)) i j)

/-! Access (R6, R27, R69). -/

/-- The OPU that a register belongs to, if one. -/
def Reg.opuOf (r : Reg) (i j : Nat) : Option Nat :=
  if r.n1 = 96 then some (i / 24)
  else if r.blk = .rcs ∨ r.blk = .wsg ∨ r.blk = .sld then if r.n1 = 4 then some i else if r.n1 = 48 then some (i / 12) else none
  else if r = .SDE_DET_CTL ∨ r = .SDE_DET_LLR then some i
  else if r.n1 = 80 then (slotKind i).opu
  else match storeTrims r i j with
    | t :: _ => some t.opu
    | [] => none

/-- Whether a register lies in an OPU island: the slices' and the WSG's OPU windows (R69, Table 1-5; notes/assumptions/127.md). A
sled's registers are read and written while its island is off (R321). -/
def Reg.inIsland (r : Reg) : Bool := r.blk == .rcs || r.blk == .wsg

/-- Whether the island that holds a register is on: AON always, the others with CORE. -/
def Dev.blockOn (d : Dev) (b : Block) : Bool := b == .pmu || b == .clk || b == .fuse || d.coreOn

/-- What a register access meets before it reaches the register. -/
inductive RegPath where
  /-- no register there, or one of a fused-off OPU: reads zero, ignores writes -/
  | absent
  /-- the island is off: an error response -/
  | off
  /-- the OPU island is off: R27 -/
  | opuOff (opu : Nat)
  /-- the OPU island is powering up: the access stalls -/
  | stall (opu : Nat)
  /-- the register -/
  | reg (r : Reg) (i j : Nat)
deriving DecidableEq, Repr

/-- The path of an access to register (i, j). -/
def Dev.pathOf (d : Dev) (r : Reg) (i j : Nat) : RegPath :=
  if !d.blockOn r.blk then .off
  else match r.opuOf i j with
    | none => .reg r i j
    | some o =>
      if !d.opuPresent o then .absent
      else if !r.inIsland then .reg r i j
      else match d.stage o with
        | .off => .opuOff o
        | .powering => .stall o
        | .ready => .reg r i j

/-- The path of an access to an offset of a window. -/
def Dev.regPath (d : Dev) (b : Block) (off : Nat) : RegPath :=
  match regAt b off with
  | none => if d.blockOn b then .absent else .off
  | some (r, i, j) => d.pathOf r i j

/-- A write by a requester that takes a path. -/
def storeBy (req : Nat) (p : RegPath) (b : Block) (off : Nat) (v : DWord) (d : Dev) : Dev :=
  match p with
  | .absent =>
    let d := d.cond (b == .hp && 0x3000 ≤ off) (winWrite d.ownHead off 15 v)
    { d with error := false }
  | .off => { d with error := true }
  | .opuOff o => { islandOffAccess o req none d with error := true }
  | .stall o =>
    { d with
      stalled := d.stalled ++ [{ opu := o, req := req, write := true, blk := b, off := off, val := v }], error := false }
  | .reg r i j => { regStore r i j off v d with error := false }

/-- A register written by a requester. -/
def writeReg (req : Nat) (b : Block) (off : Nat) (v : DWord) (d : Dev) : Dev := storeBy req (d.regPath b off) b off v d

/-- Firmware writes register (i, 0), the requester being drive processor 2. -/
def regWrite (r : Reg) (i : Nat) (v : DWord) (d : Dev) : Dev := storeBy 2 (d.pathOf r i 0) r.blk (r.off + i * r.s1) v d

/-- A register read by a requester: its value in `answer`; no value with an error response. -/
def readReg (req : Nat) (b : Block) (off : Nat) (d : Dev) : Dev :=
  match d.regPath b off with
  | .absent => { d with answer := leBytes 4 (if b = .hp then (winRead off d).toNat else 0), error := false }
  | .off => { d with answer := [], error := true }
  | .opuOff o => { islandOffAccess o req none d with answer := [], error := true }
  | .stall o =>
    { d with stalled := d.stalled ++ [{ opu := o, req := req, blk := b, off := off }], answer := [], error := false }
  | .reg r i j =>
    let x := regLoad r i j off d
    { x.2 with answer := leBytes 4 x.1.toNat, error := false }

/-- ISLAND_OFF_ACCESS: a register access, with the host command that causes it: to an OPU island that is off it is dropped under
R27, to one that powers up it stalls, otherwise it is made. -/
def islandAccess (req : Nat) (cmd : Option Nat) (write : Bool) (b : Block) (off : Nat) (v : DWord) (d : Dev) : Dev :=
  match d.regPath b off with
  | .opuOff o => { islandOffAccess o req cmd d with answer := [], error := true }
  | _ => if write then writeReg req b off v d else readReg req b off d

/-- COMMIT: firmware writes 1 to RCS_EQ_CTL.COMMIT, MU as it stands (R91). -/
def eqCommitWrite (rcs : Nat) (d : Dev) : Dev :=
  regWrite .RCS_EQ_CTL rcs (withField .RCS_EQ_CTL_COMMIT 1 (d.rd .RCS_EQ_CTL rcs)) d

/-- SLICE_DISABLE: firmware clears RCS_CTL.EN (R108). -/
def sliceDisableWrite (rcs : Nat) (d : Dev) : Dev :=
  regWrite .RCS_CTL rcs (withField .RCS_CTL_EN 0 (d.rd .RCS_CTL rcs)) d

/-- PAUSE: firmware sets WSG_OCTL.PAUSE (R190). -/
def pauseWrite (opu : Nat) (d : Dev) : Dev := regWrite .WSG_OCTL opu (withField .WSG_OCTL_PAUSE 1 (d.rd .WSG_OCTL opu)) d

/-- WSG_STOP: firmware writes 1 to WSG_OCTL.STOP (R191). -/
def stopWrite (opu : Nat) (d : Dev) : Dev := regWrite .WSG_OCTL opu (withField .WSG_OCTL_STOP 1 (d.rd .WSG_OCTL opu)) d

/-- TRAIN: firmware writes 1 to WSG_OCTL.TRAIN (R166). -/
def trainWrite (opu : Nat) (d : Dev) : Dev := regWrite .WSG_OCTL opu (withField .WSG_OCTL_TRAIN 1 (d.rd .WSG_OCTL opu)) d

/-- A register written; the one write that reaches the fuse bank is that of FUSE_ARB_SET (R641). -/
def busWrite (req : Nat) (b : Block) (off : Nat) (v : DWord) (s : State) : State :=
  if b = .fuse ∧ off = Reg.FUSE_ARB_SET.off then arbSet (fieldOf .FUSE_ARB_SET_TARGET v) { s with dev := { s.dev with error := false } }
  else { s with dev := writeReg req b off v s.dev }

/-- OPU_ISLAND_READY: the island is ready, and the accesses that stalled go on in the order of their arrival (R26, R27). -/
def opuIslandReady (opu : Nat) (d : Dev) : Dev :=
  if d.stage opu != .powering then d
  else
    let mine := d.stalled.filter fun x => x.opu == opu
    let d := opuReadyNow opu { d with stalled := d.stalled.filter fun x => x.opu != opu }
    d.each mine fun d x => if x.write then writeReg x.req x.blk x.off x.val d else readReg x.req x.blk x.off d

/-! The interrupt lines of the drive processors. -/

/-- The lines that the spec names. -/
inductive IrqLine where
  | cle | spindle | sled | calibration | drc | journal | chain | pmu | clock
deriving DecidableEq, Repr

/-- Whether a W1C bit of a register is set, in any of its copies. -/
def Dev.flagged (d : Dev) (r : Reg) : Bool :=
  (List.range r.n1).any fun i => (List.range r.n2).any fun j => (d.rd r i j).toNat &&& r.w1c != 0

/-- Whether an interrupt line is raised: the CLE's while its event FIFO holds an entry (R203), another block's while a bit that raises
it is set (the text after Tables 8-9, 9-6, 10-6, 11-3, 13-7, 17-8, 19-10, 20-6 and 21-4). That a line stays raised until its bits are cleared is
the model's: DESIGN CHOICE (notes/assumptions/131.md). -/
def Dev.raised (d : Dev) : IrqLine → Bool
  | .cle => d.eng.irq
  | .spindle => d.flagged .SPN_STAT
  | .sled => d.flagged .SLD_STAT || d.flagged .SLD_CL_STAT
  | .calibration => d.flagged .CAL_STAT
  | .drc => d.flagged .DRC_STAT
  | .journal => d.flagged .RJ_STAT || d.is .RJ_STAT_FAILED
  | .chain => d.flagged .QL_STAT || d.flagged .QL_PSTAT
  | .pmu => d.flagged .PMU_STAT || d.frost || d.is .PMU_STAT_THAWING || (d.coreOn && d.flagged .CLK_STAT) || d.is .FUSE_STAT_PROG_ERR
  | .clock => d.flagged .CLK_STAT

/-- The grade's upper limit of the die temperature in 1/16 °C (R5). -/
def Dev.dieLimit (d : Dev) : Int := if bitsOf d.shadow 66 1 = 1 then 16 * 105 else 16 * 100

/-- An OPU too hot (R666): its recording pauses (R190), or in READ it holds its band with nothing captured (R295). -/
def heatHold (opu : Nat) (d : Dev) : Dev :=
  if (d.opuFw opu).hot then d
  else
    let d := d.onOpuFw opu fun f => { f with hot := true }
    let d := d.cond (d.opuFw opu).latched.isSome fun d => (wsgPause opu d).onOpuFw opu fun f => { f with paused := true }
    d.cond (d.mode == 4 && d.opuReady opu && d.svSt opu == svTracking) fun d =>
      (d.each (slicesOf opu) fun d n => d.fs .RCS_CAP_SLOTS 0 n).svSet opu svNextJ 0

/-- What firmware does with the die temperature (R666): ATTN 2 once at the limit less 5 °C, again only after the limit less 8 °C; every
OPU paused or held at the limit, and let go at 3 °C below it. -/
def thermalAct (d : Dev) : Dev :=
  let t := d.cal.die
  let lim := d.dieLimit
  let d := if lim - 80 ≤ t && !d.fw.thermTold then (d.attn 2).onFw fun w => { w with thermTold := true }
    else d.cond (t ≤ lim - 128) fun d => d.onFw fun w => { w with thermTold := false }
  if lim ≤ t then d.each d.opus fun d o => heatHold o d
  else d.cond (t ≤ lim - 48) fun d => d.each d.opus fun d o => d.onOpuFw o fun f => { f with hot := false }

/-- TEMPERATURE_SAMPLE: HK's samples of the die and of each OPU's thermistor, the triggers they make (R348), and what firmware does
with the die temperature (R666) and with pairs that wait for their condition (R351). -/
def temperatureSample (die : Int) (codes : List Nat) (d : Dev) : Dev :=
  let d := d.onCal fun c => { c with die := die }
  let d := d.onEng fun e => { e with therm := codes.zipIdx.foldl (fun m p => sparseSet 0 m p.2 (limitN 0 4095 p.1)) e.therm }
  (calTempTrigger d).cond d.fw.up fun d => calBeside (thermalAct d)

/-! The effects of the commands. -/

/-- RCS_NCO_PRESET (R84). -/
def execRcsNcoPreset (rcs : Fin 96) (val : DWord) (s : State) : Host.Outcome State Fault Refusal :=
  s.onDev (regWrite .RCS_NCO_PRESET rcs val)

/-- RCS_TGT_WRITE (R90). -/
def execRcsTgtWrite (rcs : Fin 96) (val : DWord) (s : State) : Host.Outcome State Fault Refusal :=
  s.onDev (regWrite .RCS_TGT rcs val)

/-- COMMIT (R91). -/
def execCommit (rcs : Fin 96) (s : State) : Host.Outcome State Fault Refusal := s.onDev (eqCommitWrite rcs)

/-- SLICE_DISABLE (R108). -/
def execSliceDisable (rcs : Fin 96) (s : State) : Host.Outcome State Fault Refusal := s.onDev (sliceDisableWrite rcs)

/-- ISLAND_OFF_ACCESS (R27). -/
def execIslandOffAccess (req : Fin 16) (cmd : Option Nat) (write : Bool) (blk : Block) (off : Nat) (val : DWord) (s : State) :
    Host.Outcome State Fault Refusal :=
  s.onDev (islandAccess req cmd write blk off val)

/-- PAUSE (R190). -/
def execPause (opu : Fin 4) (s : State) : Host.Outcome State Fault Refusal := s.onDev (pauseWrite opu)

/-- WSG_STOP (R191). -/
def execWsgStop (opu : Fin 4) (s : State) : Host.Outcome State Fault Refusal := s.onDev (stopWrite opu)

/-- TRAIN (R166). -/
def execTrain (opu : Fin 4) (s : State) : Host.Outcome State Fault Refusal := s.onDev (trainWrite opu)

/-- LDC_FIRMWARE_CMD (R174). -/
def execLdcFirmwareCmd (opu : Fin 4) (val : DWord) (s : State) : Host.Outcome State Fault Refusal :=
  s.onDev (regWrite .WSG_LDC_CMD opu val)

/-- REGISTER_WRITE (R11). -/
def execRegisterWrite (blk : Block) (off : Nat) (val : DWord) (s : State) : Host.Outcome State Fault Refusal :=
  .next (busWrite 2 blk off val s)

/-- RC_READ (R11). -/
def execRcRead (blk : Block) (off : Nat) (s : State) : Host.Outcome State Fault Refusal := s.onDev (readReg 2 blk off)

/-- OPU_ISLAND_READY (R26). -/
def execOpuIslandReady (opu : Fin 4) (s : State) : Host.Outcome State Fault Refusal := s.onDev (opuIslandReady opu)

/-- TEMPERATURE_SAMPLE (R348). -/
def execTemperatureSample (die : Int) (codes : List Nat) (s : State) : Host.Outcome State Fault Refusal :=
  s.onDev (temperatureSample die codes)

end Sys2Proof.Machine
end

