-- ==== Sys2Proof/Machine/Debug.lean ====
section
/-!
DEFINITION. The TAP (21_security_debug.md R642 to R645). A command is one instruction: it is in the instruction register, its
data register is captured, shifted and updated. `Tap.out` is what was captured and shifted out, the first bit shifted the least.
-/

namespace Sys2Proof.Machine

/-- What the instruction register captures (R642). -/
def irCapture : Nat := 0x01

/-- The TAP with an instruction and what it shifted out. -/
def Dev.tapOut (d : Dev) (inst out : Nat) : Dev :=
  { d with tap := { d.tap with inst := inst, out := out, drive := false, float := false, ir := irCapture } }

/-- TAP_RESET: IDCODE selected, the pins to the unit (R616, IEEE 1149.1). -/
def tapReset (d : Dev) : Dev := { d with tap := { cells := d.tap.cells } }

/-- EXTEST: the pins captured, the cells shifted in drive the outputs. -/
def extest (pins cells : Nat) (d : Dev) : Dev :=
  { d with tap := { inst := 0x00, out := pins, cells := cells, drive := true, float := false, ir := irCapture } }

/-- SAMPLE/PRELOAD: the pins captured, the cells loaded; the pins stay the unit's. -/
def samplePreload (pins cells : Nat) (d : Dev) : Dev :=
  { d with tap := { inst := 0x01, out := pins, cells := cells, drive := false, float := false, ir := irCapture } }

/-- CLAMP: the outputs held by the cells, the bypass register selected; it captures 0. -/
def tapClamp (d : Dev) : Dev :=
  { d with tap := { d.tap with inst := 0x03, out := 0, drive := true, float := false, ir := irCapture } }

/-- HIGHZ: the outputs floated, the bypass register selected. -/
def highz (d : Dev) : Dev :=
  { d with tap := { d.tap with inst := 0x04, out := 0, drive := false, float := true, ir := irCapture } }

/-- IDCODE of stepping 1 (R642). -/
def idCode : Nat := 0x1009656F

/-- BOOT_STATUS: CLK_BOOT, then CLK_RST. -/
def bootStatus (d : Dev) : Dev := d.tapOut 0x10 ((d.rd .CLK_BOOT).toNat + (d.rd .CLK_RST).toNat * 2 ^ 32)

/-- FUSE_READ: one 32-bit word of the shadow, which has 128. -/
def fuseRead (index : Nat) (d : Dev) : Dev := d.tapOut 0x11 (bitsOf d.shadow (32 * index) 32)

/-- A blow that is refused: PROG_ERR, which firmware logs as a hardware event, with ATTN 8. The spec gives that event no code:
a free value. -/
def progError (d : Dev) : Dev :=
  let d := d.fs .FUSE_STAT_PROG_ERR 1
  d.cond (d.fw.up && d.mode != 1) fun d => ((d.event { code := d.freeNat 65536 }).drew).attn 8

/-- The fuse bits of the locks selected: OPEN_LOCK, DEBUG_LOCK (R635). -/
def lockBits (locks : Nat) : Nat := (if locks.testBit 0 then 7 * 2 ^ 1536 else 0) + (if locks.testBit 1 then 7 * 2 ^ 1539 else 0)

/-- FUSE_PROG: the selected locks blown at Update-DR, with Tj from 0 to 85 °C and no frost; the shadow follows at once (R643).
`temp` is Tj in °C. -/
def fuseProg (locks : Nat) (temp : Int) (s : State) : State :=
  let d := s.dev.tapOut 0x12 0
  if temp < 0 ∨ 85 < temp ∨ d.frost then { s with dev := progError d }
  else { s with fuses := s.fuses ||| lockBits locks, dev := { d with shadow := d.shadow ||| lockBits locks } }

/-- BYPASS, and every instruction that DEBUG_LOCK has turned into it (R642, R643). -/
def bypass (inst : Nat) (d : Dev) : Dev := d.tapOut inst 0

/-- REG_ACCESS: one register read or written on the register bus; the data read stands in bits 57:26 of what is shifted out. A
code other than read and write does nothing. -/
def regAccess (b : Block) (off op : Nat) (v : DWord) (s : State) : State :=
  if s.dev.debugLock then { s with dev := bypass 0x20 s.dev }
  else
    let s := { s with dev := s.dev.tapOut 0x20 0 }
    match op with
    | 1 =>
      let d := readReg 14 b off s.dev
      { s with dev := { d with tap := { d.tap with out := (off % 2 ^ 24) + 1 <<< 24 + (leNat d.answer) <<< 26 } } }
    | 2 => busWrite 14 b off v s
    | _ => s

/-- PATCHED set; firmware raises ATTN 8 when it sees it (R644, R645). -/
def patched (d : Dev) : Dev := (d.fs .FUSE_STAT_PATCHED 1).cond (d.fw.up && d.mode != 1) fun d => d.attn 8

/-- DBG_ACCESS: a read or a write of 16 bytes as fabric requester 14 (R645); what is shifted out holds the address, the op, the
data read and the status, 0 done or 1 error. -/
def dbgAccess (a op : Nat) (data : Bytes) (d : Dev) : Dev :=
  if d.debugLock then bypass 0x21 d
  else
    let at_ := a / 16 * 16
    let d := d.tapOut 0x21 0
    let d : Dev := if !d.blockOn .fbc then { d with error := true } else match op with
      | 1 => cacheRead 14 at_ 16 false .none { d with answer := [], error := false }
      | 2 => patched (cacheWrite 14 at_ (takeFill 0#8 16 data) .none false { d with error := false })
      | _ => d
    let got := if op = 1 ∧ d.error = false then leNat d.answer else 0
    { d with tap := { d.tap with out := a + op <<< 40 + got <<< 42 + (bit d.error) <<< 170 } }

/-- CLE_PATCH: one control store word written or read whole, whatever CS_LOCK and CS_BUSY say (R644). -/
def clePatch (a op : Nat) (w : Word) (d : Dev) : Dev :=
  if d.debugLock then bypass 0x22 d
  else
    let d := d.tapOut 0x22 0
    let shows := fun (x : Word) (d : Dev) => { d with tap := { d.tap with out := a + op <<< 14 + x.toNat <<< 16 } }
    if !d.blockOn .cle then { d with error := true }
    else match op with
      | 1 => if 0x3000 ≤ a && d.openLock then d else shows w (patched (d.putCs a w))
      | 2 => shows (sparseGet 0#128 d.eng.cs (a % 16384)) d
      | _ => d

/-! The effects of the commands. -/

/-- TAP_RESET (R616). -/
def execTapReset (s : State) : Host.Outcome State Fault Refusal := s.onDev tapReset

/-- EXTEST (R642). -/
def execExtest (pins : Nat) (cells : Nat) (s : State) : Host.Outcome State Fault Refusal :=
  s.onDev (extest pins cells)

/-- SAMPLE_PRELOAD (R642). -/
def execSamplePreload (pins : Nat) (cells : Nat) (s : State) : Host.Outcome State Fault Refusal :=
  s.onDev (samplePreload pins cells)

/-- IDCODE (R642). -/
def execIdcode (s : State) : Host.Outcome State Fault Refusal := s.onDev (fun d => d.tapOut 0x02 idCode)

/-- JTAG_CLAMP (R642). -/
def execJtagClamp (s : State) : Host.Outcome State Fault Refusal := s.onDev tapClamp

/-- HIGHZ (R642). -/
def execHighz (s : State) : Host.Outcome State Fault Refusal := s.onDev highz

/-- BOOT_STATUS (R642). -/
def execBootStatus (s : State) : Host.Outcome State Fault Refusal := s.onDev bootStatus

/-- FUSE_READ (R642). -/
def execFuseRead (index : Fin 4096) (s : State) : Host.Outcome State Fault Refusal := s.onDev (fuseRead index)

/-- FUSE_PROG (R643). -/
def execFuseProg (locks : Fin 4) (temp : Int) (s : State) : Host.Outcome State Fault Refusal :=
  .next (fuseProg locks temp s)

/-- REG_ACCESS (R642). -/
def execRegAccess (blk : Block) (off : Nat) (op : Fin 4) (val : DWord) (s : State) :
    Host.Outcome State Fault Refusal :=
  .next (regAccess blk off op val s)

/-- DBG_ACCESS (R645). -/
def execDbgAccess (addr : Fin 1099511627776) (op : Fin 4) (data : List (BitVec 8)) (s : State) :
    Host.Outcome State Fault Refusal :=
  s.onDev (dbgAccess addr op data)

/-- CLE_PATCH (R644). -/
def execClePatch (addr : Fin 16384) (op : Fin 4) (val : BitVec 128) (s : State) : Host.Outcome State Fault Refusal :=
  s.onDev (clePatch addr op val)

/-- BYPASS (R642). -/
def execBypass (code : Fin 256) (s : State) : Host.Outcome State Fault Refusal := s.onDev (bypass code)

end Sys2Proof.Machine
end

