-- ==== Sys2Proof/Machine/Replies.lean ====
section
/-!
DEFINITION. Replies (14_host_port.md R446, R451), and what waits for one: a barrier's next pass, the entry to DORMANT, a firmware
restart, the head's own part of a chain reset.
-/

namespace Sys2Proof.Machine

/-- What follows the reply of a command: the barrier goes on (R548); a page set takes effect (R492); POWER MODE 1 is carried out (R484, R589), with the sleep
request of R542; the firmware restarts (R487); the head that asked for a chain reset resets (R550). -/
def afterReply (c : Cmd) (begun : Bool) (d : Dev) : Dev :=
  let d := pageInForce c (barrierGo d)
  if c.opcode = 8 && c.cls = 0 && c.r0 = 1 then
    let d := dormantEnter d
    d.cond d.aon.sleep askSleep
  else if d.aon.restart then restartDue d
  else match d.link.op with
    | some o => d.cond (o.op == 4 && o.own && o.phase == 2 && o.cmd == some c.id) (unitReset 2 true begun [] [])
    | none => d

/-- TS_REPLY_POST: the set's finished command. -/
def tsReplyPost (s : Nat) (begun : Bool) (d : Dev) : Dev :=
  match d.tsEnded s with
  | some c => afterReply c begun (tsPost s c d)
  | none => d

/-- QUEUE_REPLY_POST: of the queue's commands the one that ended first; it waits while its head may not master the bus. -/
def queueReplyPost (begun : Bool) (d : Dev) : Dev :=
  match d.queueEnded with
  | some c =>
    let e := queuePost c d
    if (e.cmd c.id).isSome then e else afterReply c begun e
  | none => d

/-! The effects of the commands. -/

/-- TS_REPLY_POST (R446). -/
def execTsReplyPost (stream : Fin 16) (begun : Bool) (s : State) : Host.Outcome State Fault Refusal :=
  s.onDev (tsReplyPost stream begun)

/-- QUEUE_REPLY_POST (R451). -/
def execQueueReplyPost (begun : Bool) (s : State) : Host.Outcome State Fault Refusal := s.onDev (queueReplyPost begun)

end Sys2Proof.Machine
end

