-- ==== Sys2Proof/Machine/Dispatch.lean ====
section
/-!
DEFINITION. The meaning of every command: one arm for each constructor.
-/

namespace Sys2Proof.Machine

def exec (i : Instr) (s : State) : Host.Outcome State Fault Refusal :=
  match i with
  | .registerWrite blk off val => Sys2Proof.Machine.execRegisterWrite blk off val s
  | .rcRead blk off => Sys2Proof.Machine.execRcRead blk off s
  | .frozenEntry engine => Sys2Proof.Machine.execFrozenEntry engine s
  | .islandOffAccess req cmd write blk off val => Sys2Proof.Machine.execIslandOffAccess req cmd write blk off val s
  | .opuIslandPowerUp opu => Sys2Proof.Machine.execOpuIslandPowerUp opu s
  | .opuIslandReady opu => Sys2Proof.Machine.execOpuIslandReady opu s
  | .opuIslandPowerDown opu => Sys2Proof.Machine.execOpuIslandPowerDown opu s
  | .servoMarkSearch rcs wave => Sys2Proof.Machine.execServoMarkSearch rcs wave s
  | .servoRecordPost rcs wave => Sys2Proof.Machine.execServoRecordPost rcs wave s
  | .agcUpdate rcs wave => Sys2Proof.Machine.execAgcUpdate rcs wave s
  | .overRangeEvent rcs wave => Sys2Proof.Machine.execOverRangeEvent rcs wave s
  | .timingLost rcs wave => Sys2Proof.Machine.execTimingLost rcs wave s
  | .rcsGapLatch opu => Sys2Proof.Machine.execRcsGapLatch opu s
  | .rcsNcoPreset rcs val => Sys2Proof.Machine.execRcsNcoPreset rcs val s
  | .trimApply rcs => Sys2Proof.Machine.execTrimApply rcs s
  | .rcsTgtWrite rcs val => Sys2Proof.Machine.execRcsTgtWrite rcs val s
  | .commit rcs => Sys2Proof.Machine.execCommit rcs s
  | .eqCommitApply rcs => Sys2Proof.Machine.execEqCommitApply rcs s
  | .sliceDisable rcs => Sys2Proof.Machine.execSliceDisable rcs s
  | .bandCheck opu wedge => Sys2Proof.Machine.execBandCheck opu wedge s
  | .deskewDrop rcs wave => Sys2Proof.Machine.execDeskewDrop rcs wave s
  | .leafCapture rcs pos wave => Sys2Proof.Machine.execLeafCapture rcs pos wave s
  | .leafDeposit rcs => Sys2Proof.Machine.execLeafDeposit rcs s
  | .sdeEntryConsume => Sys2Proof.Machine.execSdeEntryConsume s
  | .sdeLeafStart idle => Sys2Proof.Machine.execSdeLeafStart idle s
  | .sdeIterationDone parityErr => Sys2Proof.Machine.execSdeIterationDone parityErr s
  | .outerDecode parityErr => Sys2Proof.Machine.execOuterDecode parityErr s
  | .contextOpen index => Sys2Proof.Machine.execContextOpen index s
  | .contextClose index => Sys2Proof.Machine.execContextClose index s
  | .contextAbandon index => Sys2Proof.Machine.execContextAbandon index s
  | .sdeRingWrite val => Sys2Proof.Machine.execSdeRingWrite val s
  | .sdeTestModeWrite test => Sys2Proof.Machine.execSdeTestModeWrite test s
  | .testEntryAdvance => Sys2Proof.Machine.execTestEntryAdvance s
  | .retryLadderStep opu psa canOther => Sys2Proof.Machine.execRetryLadderStep opu psa canOther s
  | .recoveryLimitExpiry cmd => Sys2Proof.Machine.execRecoveryLimitExpiry cmd s
  | .encodeJob fault => Sys2Proof.Machine.execEncodeJob fault s
  | .wsgPlanLatch opu => Sys2Proof.Machine.execWsgPlanLatch opu s
  | .ldStopRelease opu => Sys2Proof.Machine.execLdStopRelease opu s
  | .frameRecord opu lane pos fields ends => Sys2Proof.Machine.execFrameRecord opu lane pos fields ends s
  | .laneInterrupt opu lane sent => Sys2Proof.Machine.execLaneInterrupt opu lane sent s
  | .pause opu => Sys2Proof.Machine.execPause opu s
  | .wsgStop opu => Sys2Proof.Machine.execWsgStop opu s
  | .train opu => Sys2Proof.Machine.execTrain opu s
  | .ldcFirmwareCmd opu val => Sys2Proof.Machine.execLdcFirmwareCmd opu val s
  | .ldcFrame opu miso => Sys2Proof.Machine.execLdcFrame opu miso s
  | .bandPlanDecision opu => Sys2Proof.Machine.execBandPlanDecision opu s
  | .streamIdleTimeout stream => Sys2Proof.Machine.execStreamIdleTimeout stream s
  | .verifyResultHandle => Sys2Proof.Machine.execVerifyResultHandle s
  | .neighbourJudge => Sys2Proof.Machine.execNeighbourJudge s
  | .closingRevolution opu => Sys2Proof.Machine.execClosingRevolution opu s
  | .opcRun opu => Sys2Proof.Machine.execOpcRun opu s
  | .opcEvaluate opu => Sys2Proof.Machine.execOpcEvaluate opu s
  | .cleGo => Sys2Proof.Machine.execCleGo s
  | .slotDisable slot => Sys2Proof.Machine.execSlotDisable slot s
  | .cleTick slot => Sys2Proof.Machine.execCleTick slot s
  | .cleDispatch spd flips => Sys2Proof.Machine.execCleDispatch spd flips s
  | .microTrap spd flips => Sys2Proof.Machine.execMicroTrap spd flips s
  | .sampleResume => Sys2Proof.Machine.execSampleResume s
  | .cleHalt => Sys2Proof.Machine.execCleHalt s
  | .swap slot => Sys2Proof.Machine.execSwap slot s
  | .dmCommit val => Sys2Proof.Machine.execDmCommit val s
  | .csCommit val => Sys2Proof.Machine.execCsCommit val s
  | .cleEvtRead => Sys2Proof.Machine.execCleEvtRead s
  | .nop => Sys2Proof.Machine.execNop s
  | .mov => Sys2Proof.Machine.execMov s
  | .add => Sys2Proof.Machine.execAdd s
  | .sub => Sys2Proof.Machine.execSub s
  | .mul => Sys2Proof.Machine.execMul s
  | .fma => Sys2Proof.Machine.execFma s
  | .fnma => Sys2Proof.Machine.execFnma s
  | .div => Sys2Proof.Machine.execDiv s
  | .sqrt => Sys2Proof.Machine.execSqrt s
  | .min => Sys2Proof.Machine.execMin s
  | .max => Sys2Proof.Machine.execMax s
  | .abs => Sys2Proof.Machine.execAbs s
  | .neg => Sys2Proof.Machine.execNeg s
  | .cleClamp => Sys2Proof.Machine.execCleClamp s
  | .cmplt => Sys2Proof.Machine.execCmplt s
  | .cmple => Sys2Proof.Machine.execCmple s
  | .cmpeq => Sys2Proof.Machine.execCmpeq s
  | .sel => Sys2Proof.Machine.execSel s
  | .hsum => Sys2Proof.Machine.execHsum s
  | .cvf => Sys2Proof.Machine.execCvf s
  | .cvi => Sys2Proof.Machine.execCvi s
  | .cvd => Sys2Proof.Machine.execCvd s
  | .iadd => Sys2Proof.Machine.execIadd s
  | .and => Sys2Proof.Machine.execAnd s
  | .or => Sys2Proof.Machine.execOr s
  | .xor => Sys2Proof.Machine.execXor s
  | .shr => Sys2Proof.Machine.execShr s
  | .shl => Sys2Proof.Machine.execShl s
  | .openSlotAudit => Sys2Proof.Machine.execOpenSlotAudit s
  | .focusAcquire opu side found => Sys2Proof.Machine.execFocusAcquire opu side found s
  | .focusSweepFail opu => Sys2Proof.Machine.execFocusSweepFail opu s
  | .layerJump opu steps => Sys2Proof.Machine.execLayerJump opu steps s
  | .layerStepTimeout opu => Sys2Proof.Machine.execLayerStepTimeout opu s
  | .trackAcquire opu settled onTarget => Sys2Proof.Machine.execTrackAcquire opu settled onTarget s
  | .svSeek opu otherSide steps => Sys2Proof.Machine.execSvSeek opu otherSide steps s
  | .svOpen opu => Sys2Proof.Machine.execSvOpen opu s
  | .trackHold opu => Sys2Proof.Machine.execTrackHold opu s
  | .bandJump opu => Sys2Proof.Machine.execBandJump opu s
  | .landingDecision opu wedge => Sys2Proof.Machine.execLandingDecision opu wedge s
  | .loopLimitBreach opu kind => Sys2Proof.Machine.execLoopLimitBreach opu kind s
  | .opuFaultRestart opu => Sys2Proof.Machine.execOpuFaultRestart opu s
  | .bandLostLimit opu cmds => Sys2Proof.Machine.execBandLostLimit opu cmds s
  | .start => Sys2Proof.Machine.execStart s
  | .alignEnd => Sys2Proof.Machine.execAlignEnd s
  | .couchReached => Sys2Proof.Machine.execCouchReached s
  | .couchTimeout => Sys2Proof.Machine.execCouchTimeout s
  | .catch => Sys2Proof.Machine.execCatch s
  | .stop => Sys2Proof.Machine.execStop s
  | .clearFault => Sys2Proof.Machine.execClearFault s
  | .spnDirWrite dir => Sys2Proof.Machine.execSpnDirWrite dir s
  | .bemfCrossing t phase rising angle samples => Sys2Proof.Machine.execBemfCrossing t phase rising angle samples s
  | .stepMissed => Sys2Proof.Machine.execStepMissed s
  | .below30Timeout => Sys2Proof.Machine.execBelow30Timeout s
  | .dutyApply age cu cv vm angle => Sys2Proof.Machine.execDutyApply age cu cv vm angle s
  | .dutyStale => Sys2Proof.Machine.execDutyStale s
  | .overcurrent iu iv => Sys2Proof.Machine.execOvercurrent iu iv s
  | .overspeed => Sys2Proof.Machine.execOverspeed s
  | .startFailRetry => Sys2Proof.Machine.execStartFailRetry s
  | .spindleConditionHandle cond => Sys2Proof.Machine.execSpindleConditionHandle cond s
  | .speedErrorTimeout => Sys2Proof.Machine.execSpeedErrorTimeout s
  | .readBandAdvance opu => Sys2Proof.Machine.execReadBandAdvance opu s
  | .sledTarget opu cle target pos speed => Sys2Proof.Machine.execSledTarget opu cle target pos speed s
  | .sledMoveDone opu => Sys2Proof.Machine.execSledMoveDone opu s
  | .sledIdleTimeout opu => Sys2Proof.Machine.execSledIdleTimeout opu s
  | .home opu => Sys2Proof.Machine.execHome opu s
  | .homeStallDetect opu duties => Sys2Proof.Machine.execHomeStallDetect opu duties s
  | .homeFail opu steps learning => Sys2Proof.Machine.execHomeFail opu steps learning s
  | .sldStop opu pos speed => Sys2Proof.Machine.execSldStop opu pos speed s
  | .sldClearFault opu => Sys2Proof.Machine.execSldClearFault opu s
  | .sledOvercurrent opu ma => Sys2Proof.Machine.execSledOvercurrent opu ma s
  | .opuPark opu pos speed => Sys2Proof.Machine.execOpuPark opu pos speed s
  | .clamp => Sys2Proof.Machine.execClamp s
  | .release => Sys2Proof.Machine.execRelease s
  | .clampClearFault => Sys2Proof.Machine.execClampClearFault s
  | .discPresentRise => Sys2Proof.Machine.execDiscPresentRise s
  | .clampHomeRise => Sys2Proof.Machine.execClampHomeRise s
  | .clampSeatDone => Sys2Proof.Machine.execClampSeatDone s
  | .clampLeaveTimeout fallen => Sys2Proof.Machine.execClampLeaveTimeout fallen s
  | .clampMoveTimeout => Sys2Proof.Machine.execClampMoveTimeout s
  | .discLost => Sys2Proof.Machine.execDiscLost s
  | .calTrigger set => Sys2Proof.Machine.execCalTrigger set s
  | .calStepStart => Sys2Proof.Machine.execCalStepStart s
  | .calMeasurementDone ms => Sys2Proof.Machine.execCalMeasurementDone ms s
  | .calStepDone => Sys2Proof.Machine.execCalStepDone s
  | .calStepTimeout => Sys2Proof.Machine.execCalStepTimeout s
  | .delegatedCal vals => Sys2Proof.Machine.execDelegatedCal vals s
  | .calExtResult code => Sys2Proof.Machine.execCalExtResult code s
  | .abort => Sys2Proof.Machine.execAbort s
  | .calFailHandle => Sys2Proof.Machine.execCalFailHandle s
  | .calDueTimeout group opu => Sys2Proof.Machine.execCalDueTimeout group opu s
  | .trimStoreWrite off val => Sys2Proof.Machine.execTrimStoreWrite off val s
  | .temperatureSample die codes => Sys2Proof.Machine.execTemperatureSample die codes s
  | .drcRequestAccept req second isWrite addr len data cycle ordered => Sys2Proof.Machine.execDrcRequestAccept req second isWrite addr len data cycle ordered s
  | .drcSchedule ch cycle => Sys2Proof.Machine.execDrcSchedule ch cycle s
  | .drcReadComplete f0 f1 => Sys2Proof.Machine.execDrcReadComplete f0 f1 s
  | .refreshDue ch rank => Sys2Proof.Machine.execRefreshDue ch rank s
  | .mr4Poll r0 r1 => Sys2Proof.Machine.execMr4Poll r0 r1 s
  | .rhTableClear => Sys2Proof.Machine.execRhTableClear s
  | .scrubRead flips => Sys2Proof.Machine.execScrubRead flips s
  | .rawWrite => Sys2Proof.Machine.execRawWrite s
  | .rawRead => Sys2Proof.Machine.execRawRead s
  | .autoSelfRefresh ch rank => Sys2Proof.Machine.execAutoSelfRefresh ch rank s
  | .deep => Sys2Proof.Machine.execDeep s
  | .deepSrExit counts => Sys2Proof.Machine.execDeepSrExit counts s
  | .drcTraining fail counts => Sys2Proof.Machine.execDrcTraining fail counts s
  | .zqCalibration => Sys2Proof.Machine.execZqCalibration s
  | .dqsOscCheck die count => Sys2Proof.Machine.execDqsOscCheck die count s
  | .requestUrgent req second => Sys2Proof.Machine.execRequestUrgent req second s
  | .cacheRead req addr len discard err => Sys2Proof.Machine.execCacheRead req addr len discard err s
  | .cacheWrite req addr data err idle => Sys2Proof.Machine.execCacheWrite req addr data err idle s
  | .prefetch req => Sys2Proof.Machine.execPrefetch req s
  | .clean => Sys2Proof.Machine.execClean s
  | .invalidate => Sys2Proof.Machine.execInvalidate s
  | .preload way => Sys2Proof.Machine.execPreload way s
  | .cleanAll => Sys2Proof.Machine.execCleanAll s
  | .cacheResetInvalidate => Sys2Proof.Machine.execCacheResetInvalidate s
  | .rjSubmit event data => Sys2Proof.Machine.execRjSubmit event data s
  | .rjRecordWrite fails0 fails1 => Sys2Proof.Machine.execRjRecordWrite fails0 fails1 s
  | .rjStageFrost data => Sys2Proof.Machine.execRjStageFrost data s
  | .rjSeal begun fails0 fails1 frost0 frost1 => Sys2Proof.Machine.execRjSeal begun fails0 fails1 frost0 frost1 s
  | .rjRecordRead event slot => Sys2Proof.Machine.execRjRecordRead event slot s
  | .journalLowSpace => Sys2Proof.Machine.execJournalLowSpace s
  | .mapCheckpoint closed => Sys2Proof.Machine.execMapCheckpoint closed s
  | .tsGo stream home poisoned => Sys2Proof.Machine.execTsGo stream home poisoned s
  | .tsReplyPost stream begun => Sys2Proof.Machine.execTsReplyPost stream begun s
  | .queueEnable home val => Sys2Proof.Machine.execQueueEnable home val s
  | .queueDisable val => Sys2Proof.Machine.execQueueDisable val s
  | .doorbell tail => Sys2Proof.Machine.execDoorbell tail s
  | .queueEntryFetch => Sys2Proof.Machine.execQueueEntryFetch s
  | .queueReplyPost begun => Sys2Proof.Machine.execQueueReplyPost begun s
  | .msixUnmask vector => Sys2Proof.Machine.execMsixUnmask vector s
  | .memberWindowWrite unit off data => Sys2Proof.Machine.execMemberWindowWrite unit off data s
  | .memberWindowRead unit off len => Sys2Proof.Machine.execMemberWindowRead unit off len s
  | .memberReadTimeout => Sys2Proof.Machine.execMemberReadTimeout s
  | .unreachableWriteDiscard => Sys2Proof.Machine.execUnreachableWriteDiscard s
  | .dmaCompletionError cmd kind => Sys2Proof.Machine.execDmaCompletionError cmd kind s
  | .hostReset head cause => Sys2Proof.Machine.execHostReset head cause s
  | .configurationRequest isWrite reg be val late => Sys2Proof.Machine.execConfigurationRequest isWrite reg be val late s
  | .identify cmd => Sys2Proof.Machine.execIdentify cmd s
  | .getPage cmd => Sys2Proof.Machine.execGetPage cmd s
  | .setPage cmd => Sys2Proof.Machine.execSetPage cmd s
  | .poll cmd => Sys2Proof.Machine.execPoll cmd s
  | .acknowledgeAttention cmd => Sys2Proof.Machine.execAcknowledgeAttention cmd s
  | .getLog cmd => Sys2Proof.Machine.execGetLog cmd s
  | .resetStream cmd => Sys2Proof.Machine.execResetStream cmd s
  | .powerMode cmd => Sys2Proof.Machine.execPowerMode cmd s
  | .read cmd => Sys2Proof.Machine.execRead cmd s
  | .write cmd => Sys2Proof.Machine.execWrite cmd s
  | .verify cmd => Sys2Proof.Machine.execVerify cmd s
  | .flushStream cmd => Sys2Proof.Machine.execFlushStream cmd s
  | .fence cmd => Sys2Proof.Machine.execFence cmd s
  | .fixity cmd => Sys2Proof.Machine.execFixity cmd s
  | .load cmd medium => Sys2Proof.Machine.execLoad cmd medium s
  | .unload cmd late => Sys2Proof.Machine.execUnload cmd late s
  | .seek cmd => Sys2Proof.Machine.execSeek cmd s
  | .calibrate cmd => Sys2Proof.Machine.execCalibrate cmd s
  | .groupCreate cmd => Sys2Proof.Machine.execGroupCreate cmd s
  | .groupDelete cmd => Sys2Proof.Machine.execGroupDelete cmd s
  | .groupWrite cmd => Sys2Proof.Machine.execGroupWrite cmd s
  | .groupRead cmd => Sys2Proof.Machine.execGroupRead cmd s
  | .groupStatus cmd => Sys2Proof.Machine.execGroupStatus cmd s
  | .groupRebuild cmd => Sys2Proof.Machine.execGroupRebuild cmd s
  | .snapshot cmd => Sys2Proof.Machine.execSnapshot cmd s
  | .chainOpCountOff cmd => Sys2Proof.Machine.execChainOpCountOff cmd s
  | .chainOpBarrier cmd => Sys2Proof.Machine.execChainOpBarrier cmd s
  | .chainOpReset cmd => Sys2Proof.Machine.execChainOpReset cmd s
  | .microcodeLoad cmd => Sys2Proof.Machine.execMicrocodeLoad cmd s
  | .openStart cmd => Sys2Proof.Machine.execOpenStart cmd s
  | .openStop cmd => Sys2Proof.Machine.execOpenStop cmd s
  | .openRelease cmd => Sys2Proof.Machine.execOpenRelease cmd s
  | .openWithdraw cmd => Sys2Proof.Machine.execOpenWithdraw cmd s
  | .openBankLoad cmd => Sys2Proof.Machine.execOpenBankLoad cmd s
  | .firmwareDownload cmd => Sys2Proof.Machine.execFirmwareDownload cmd s
  | .firmwareCommit cmd => Sys2Proof.Machine.execFirmwareCommit cmd s
  | .enterService cmd => Sys2Proof.Machine.execEnterService cmd s
  | .leaveService cmd => Sys2Proof.Machine.execLeaveService cmd s
  | .codecTest cmd => Sys2Proof.Machine.execCodecTest cmd s
  | .surfaceTest cmd => Sys2Proof.Machine.execSurfaceTest cmd s
  | .rawBufferRead cmd => Sys2Proof.Machine.execRawBufferRead cmd s
  | .traceCopy cmd => Sys2Proof.Machine.execTraceCopy cmd s
  | .watermarkAdvance stream => Sys2Proof.Machine.execWatermarkAdvance stream s
  | .streamBreak stream => Sys2Proof.Machine.execStreamBreak stream s
  | .linkTraining port low high reversed miswired delay bare => Sys2Proof.Machine.execLinkTraining port low high reversed miswired delay bare s
  | .retrain port => Sys2Proof.Machine.execRetrain port s
  | .disable port => Sys2Proof.Machine.execDisable port s
  | .frameReceive port frame cut => Sys2Proof.Machine.execFrameReceive port frame cut s
  | .frameReplay port => Sys2Proof.Machine.execFrameReplay port s
  | .portDown port => Sys2Proof.Machine.execPortDown port s
  | .messageForward => Sys2Proof.Machine.execMessageForward s
  | .mmioWrite => Sys2Proof.Machine.execMmioWrite s
  | .mmioReadRequest => Sys2Proof.Machine.execMmioReadRequest s
  | .mmioReadCompletion => Sys2Proof.Machine.execMmioReadCompletion s
  | .hostReadRequest good => Sys2Proof.Machine.execHostReadRequest good s
  | .hostReadData => Sys2Proof.Machine.execHostReadData s
  | .hostWrite => Sys2Proof.Machine.execHostWrite s
  | .memberReply => Sys2Proof.Machine.execMemberReply s
  | .unitRequest => Sys2Proof.Machine.execUnitRequest s
  | .unitResponse => Sys2Proof.Machine.execUnitResponse s
  | .unitData => Sys2Proof.Machine.execUnitData s
  | .claim => Sys2Proof.Machine.execClaim s
  | .count => Sys2Proof.Machine.execCount s
  | .map => Sys2Proof.Machine.execMap s
  | .token => Sys2Proof.Machine.execToken s
  | .tokenLost port => Sys2Proof.Machine.execTokenLost port s
  | .timeBroadcast elapsed => Sys2Proof.Machine.execTimeBroadcast elapsed s
  | .time => Sys2Proof.Machine.execTime s
  | .barrier => Sys2Proof.Machine.execBarrier s
  | .snap => Sys2Proof.Machine.execSnap s
  | .chainReset begun => Sys2Proof.Machine.execChainReset begun s
  | .sleep => Sys2Proof.Machine.execSleep s
  | .topo => Sys2Proof.Machine.execTopo s
  | .portWake port => Sys2Proof.Machine.execPortWake port s
  | .linkIdleSleep => Sys2Proof.Machine.execLinkIdleSleep s
  | .groupDecision group seq => Sys2Proof.Machine.execGroupDecision group seq s
  | .slowMemberTimeout tag => Sys2Proof.Machine.execSlowMemberTimeout tag s
  | .pendingResolve => Sys2Proof.Machine.execPendingResolve s
  | .rebuildStripe group => Sys2Proof.Machine.execRebuildStripe group s
  | .sheetHash addr => Sys2Proof.Machine.execSheetHash addr s
  | .frostLineEvent levels pos => Sys2Proof.Machine.execFrostLineEvent levels pos s
  | .thaw counts => Sys2Proof.Machine.execThaw counts s
  | .wake cause counts => Sys2Proof.Machine.execWake cause counts s
  | .pllUnlock begun => Sys2Proof.Machine.execPllUnlock begun s
  | .crystalFail begun => Sys2Proof.Machine.execCrystalFail begun s
  | .crystalReturn => Sys2Proof.Machine.execCrystalReturn s
  | .powerOnReset => Sys2Proof.Machine.execPowerOnReset s
  | .unitReset begun fails0 fails1 => Sys2Proof.Machine.execUnitReset begun fails0 fails1 s
  | .watchdogExpiry begun => Sys2Proof.Machine.execWatchdogExpiry begun s
  | .firmwareRestart => Sys2Proof.Machine.execFirmwareRestart s
  | .boot lock table fail counts => Sys2Proof.Machine.execBoot lock table fail counts s
  | .bootImageCheck => Sys2Proof.Machine.execBootImageCheck s
  | .bootFirmwareStart ms => Sys2Proof.Machine.execBootFirmwareStart ms s
  | .tapReset => Sys2Proof.Machine.execTapReset s
  | .extest pins cells => Sys2Proof.Machine.execExtest pins cells s
  | .samplePreload pins cells => Sys2Proof.Machine.execSamplePreload pins cells s
  | .idcode => Sys2Proof.Machine.execIdcode s
  | .jtagClamp => Sys2Proof.Machine.execJtagClamp s
  | .highz => Sys2Proof.Machine.execHighz s
  | .bootStatus => Sys2Proof.Machine.execBootStatus s
  | .fuseRead index => Sys2Proof.Machine.execFuseRead index s
  | .fuseProg locks temp => Sys2Proof.Machine.execFuseProg locks temp s
  | .regAccess blk off op val => Sys2Proof.Machine.execRegAccess blk off op val s
  | .dbgAccess addr op data => Sys2Proof.Machine.execDbgAccess addr op data s
  | .clePatch addr op val => Sys2Proof.Machine.execClePatch addr op val s
  | .bypass code => Sys2Proof.Machine.execBypass code s
  | .fuseArbSet target => Sys2Proof.Machine.execFuseArbSet target s
  | .hostLinkUp => Sys2Proof.Machine.execHostLinkUp s
  | .commutation => Sys2Proof.Machine.execCommutation s
  | .supplyRegained levels => Sys2Proof.Machine.execSupplyRegained levels s
  | .thawTimerReset levels => Sys2Proof.Machine.execThawTimerReset levels s
  | .asleepRetry => Sys2Proof.Machine.execAsleepRetry s

end Sys2Proof.Machine
end

