-- ==== Sys2Proof/Safety.lean ====
section
/-!
DEFINITION. The words that the statements use: what a command gives, what it makes of the machine, and what never changes.
-/

namespace Sys2Proof.Machine

/-- The command answers a next state; of the fuse bank and the queue it changes nothing, and `p` holds of the unit. -/
abbrev Gives (c : Instr) (s : State) (p : Dev → Prop) : Prop :=
  ∃ t, exec c s = .next t ∧ t.fuses = s.fuses ∧ t.pending = s.pending ∧ p t.dev

/-- The command answers exactly the state with the unit `d`: all else is unchanged. -/
abbrev Becomes (c : Instr) (s : State) (d : Dev) : Prop := exec c s = .next { s with dev := d }

/-- The registers whose keys are not listed hold in `b` what they hold in `a`. -/
def RegsKept (keys : List Nat) (a b : Dev) : Prop := ∀ k, k ∉ keys → b.regs.lookup k = a.regs.lookup k

/-- Of unit `b`, against `a`: the registers outside `keys` are kept, and everything beside the registers is as in `e`. -/
def Changes (keys : List Nat) (a b e : Dev) : Prop := RegsKept keys a b ∧ b = { e with regs := b.regs }

/-- What a stretch of input makes of a slice's signal path (R67). -/
def Dev.through (d : Dev) (rcs : Nat) (wave : List Int) : Run :=
  wave.foldl (d.path rcs).sample { s := d.slice rcs, step := d.fg .RCS_NCO_STEP rcs }

/-- The unit after a stretch of a slice's input, before a slice that is too far behind is dropped (R99). -/
def Dev.beforeDrop (d : Dev) (rcs : Nat) (wave : List Int) : Dev :=
  deskewRelease (rcs / 24) (loseIfLost rcs (runPosted rcs (d.through rcs wave) d))

/-- A slice has seen the whole search window of a servo field and not searched it (R93). -/
abbrev Dev.SearchDue (d : Dev) (rcs : Nat) : Prop :=
  d.sliceRuns rcs = true ∧ (d.slice rcs).zone = .servo ∧ (d.slice rcs).searched = false ∧
    72 * fmtClass (d.pickup (rcs / 24)).fmt ≤ (d.slice rcs).servo.length

/-- The offset at which a slice's servo field shows the servo mark (R93). -/
def Dev.markAt (d : Dev) (rcs : Nat) : Option Int :=
  nearestMark (markMatches (fmtClass (d.pickup (rcs / 24)).fmt) (d.is .RCS_CTL_MARK_NEG rcs) (d.slice rcs).servoField)

/-- A slice has seen a whole servo field and searched it (R95). -/
abbrev Dev.RecordDue (d : Dev) (rcs : Nat) : Prop :=
  d.sliceRuns rcs = true ∧ (d.slice rcs).searched = true ∧
    282 * fmtClass (d.pickup (rcs / 24)).fmt ≤ (d.slice rcs).servo.length

/-- A slice's preamble is over and no AGC update has followed it (R72). -/
abbrev Dev.PreambleOver (d : Dev) (rcs : Nat) : Prop :=
  d.sliceRuns rcs = true ∧ (d.slice rcs).agcDue = true ∧ ((d.path rcs).preamble (d.slice rcs)).1 = false

/-- The strength that a slice's latched format gives (R53, R101). -/
def Dev.sliceStrength (d : Dev) (rcs : Nat) : Strength :=
  { level := fmtLevel (d.pickup (rcs / 24)).fmt, p := pOfCode (fmtPcode (d.pickup (rcs / 24)).fmt) }

/-- The slots of a track in a slice's latched format. -/
def Dev.sliceSlots (d : Dev) (rcs : Nat) : Nat := slotsPerTrack (fmtClass (d.pickup (rcs / 24)).fmt) (d.sliceStrength rcs)

/-- The released outputs that a leaf at a position is framed from (R102 to R105). -/
def Dev.leafOutputs (d : Dev) (rcs pos : Nat) : Option (List Sample) :=
  let level := fmtLevel (d.pickup (rcs / 24)).fmt
  (d.slice rcs).released (((pos : Int) * Machine.frameBits level) - 24) (codewordBits level / 2 * 3 + 312)

/-- Whether the first 240 outputs from 24 before a leaf position show a blank (R106). -/
def Dev.blankAt (d : Dev) (rcs pos : Nat) : Bool :=
  let first : Int := ((pos : Int) * Machine.frameBits (fmtLevel (d.pickup (rcs / 24)).fmt)) - 24
  signChanges ((((d.slice rcs).released first 240).getD []).map fun y => (y.y, y.marked)) < d.fg .RCS_SYNC_BLANK_THR rcs

/-- The data field in which the frame of a leaf position begins (R158). -/
def Dev.firstField (d : Dev) (opu pos : Nat) : Nat :=
  let fmt := (d.pickup opu).fmt
  pos * Machine.frameBits (fmtStrength fmt).level / dataBits (fmtClass fmt)

/-- The unit once firmware has planned what waits to be recorded, as BAND_PLAN_DECISION begins. -/
def Dev.bandWork (d : Dev) : Dev := recordWork (cpWork d)

/-- An OPU stands between bands, with nothing that holds its recording (R189, R190, R598, R666). -/
abbrev Dev.AtBands (d : Dev) (opu : Nat) : Prop :=
  d.opuReady opu = true ∧ d.svSt opu = svTracking ∧ d.mode ≠ 7 ∧ d.frost = false ∧ d.is .PMU_STAT_THAWING = false ∧
    (d.opuFw opu).calOut = none ∧ (d.opuFw opu).paused = false ∧ (d.opuFw opu).hot = false ∧ d.closingOwed (opuSide opu) = none

/-- The sheet result at the consumer index, and the unit after it has been read. -/
def Dev.sheetNext (d : Dev) : SheetResult × Dev :=
  let g := d.bufGet 2 (d.fg .SDE_SRES_BASE * 4096 + 64 * d.fg .SDE_SRES_CI) 64
  (SheetResult.of g.1, g.2)

/-- The run of passing steps of a beam in an OPU's open OPC run (R194). -/
def Dev.opcSteps (d : Dev) (opu b : Nat) : Option (Nat × Nat) :=
  bestRun ((List.range 13).map fun i => stepPasses (d.opuFw opu).opcLeaves (d.rawMax 1) b i)

/-- The commands of microwords, each with its operation of Table 6-4. -/
def microOps : List (Instr × CleOp) :=
  [(.nop, .nop), (.mov, .mov), (.add, .add), (.sub, .sub), (.mul, .mul), (.fma, .fma), (.fnma, .fnma), (.div, .div),
   (.sqrt, .sqrt), (.min, .min), (.max, .max), (.abs, .abs), (.neg, .neg), (.cleClamp, .clamp), (.cmplt, .cmplt),
   (.cmple, .cmple), (.cmpeq, .cmpeq), (.sel, .sel), (.hsum, .hsum), (.cvf, .cvf), (.cvi, .cvi), (.cvd, .cvd),
   (.iadd, .iadd), (.and, .and), (.or, .or), (.xor, .xor), (.shr, .shr), (.shl, .shl)]

/-- The engine runs sample `x`, whose next microword is `w` and carries operation `op`. -/
abbrev Dev.Runs (d : Dev) (op : CleOp) (x : CleSample) (w : Word) : Prop :=
  d.engineOn = true ∧ d.runningSample = some x ∧ sparseGet 0#128 d.eng.cs x.pc = w ∧ cleOps[mwOp w]? = some op

/-- What the four lanes of a microword without a port read give, by Table 6-4, from its sources A, B and C. -/
def Dev.laneResults (d : Dev) (op : CleOp) (x : CleSample) (w : Word) : List LaneResult :=
  mwResults op { satm := x.satm, ftz := x.ftz } x.lanes (mwSource d x w 0 (mwField w 107 5))
    (swizzle (mwField w 95 2) (mwField w 93 2) (mwSource d x w 0 (mwField w 102 5))) (mwSource d x w 0 (mwField w 97 5))

/-- The operations whose results arithmetic rounds or chooses: all but NOP, MOV, SEL, the conversions to integers and the
integer and bitwise operations. -/
def floatOps : List CleOp :=
  [.add, .sub, .mul, .fma, .fnma, .div, .sqrt, .min, .max, .abs, .neg, .clamp, .cmplt, .cmple, .cmpeq, .cvf]

/-- Command `c` of opcode `op` has number `id`, is accepted, and runs. -/
abbrev Dev.Doing (d : Dev) (id op : Nat) (c : Cmd) : Prop :=
  d.cmd id = some c ∧ c.stage = .running ∧ c.ssq ≠ 0 ∧ c.opcode = op

/-- A command's data is one run of host memory, through this head. -/
abbrev Dev.HasData (d : Dev) (c : Cmd) : Prop :=
  c.dlen ≠ 0 ∧ c.flag 1 = false ∧ c.dptr % 4 = 0 ∧ c.orphan = false ∧ d.homeHere c = true

/-- Nothing of groups is under way at the unit. -/
abbrev Dev.Calm (d : Dev) : Prop :=
  d.comp.jobs = [] ∧ d.comp.writes = [] ∧ d.comp.parts = [] ∧ d.comp.served = [] ∧ d.fw.versions = []

/-- Command `c` runs alone, and no stream owes anything. -/
abbrev Dev.Alone (d : Dev) (c : Cmd) : Prop :=
  d.fw.cmds = [c] ∧ c.needs = none ∧ d.fw.streams = [] ∧ d.fw.versions = [] ∧ d.flushAsked = false

/-- The inbox of the link holds one message: it came in by `p`, its type is `type`, and it is for this unit. -/
abbrev Dev.Has (d : Dev) (p type : Nat) (m : QMsg) : Prop := d.link.inbox = [(p, m)] ∧ m.type = type ∧ d.forMe m = true

/-- The unit that has taken its one message: the inbox empty, the room given back to the neighbour. -/
def Dev.took (d : Dev) (p : Nat) (m : QMsg) : Dev := giveBack p m { d with link := { d.link with inbox := [] } }

/-- Neither port is active or has anything to send, and nothing waits at the host. -/
abbrev Dev.Quiet (d : Dev) (p : Nat) : Prop :=
  (d.port p).wait = [] ∧ (d.port p).token = false ∧ d.portState (otherPort p) ≠ 2 ∧ d.host.held = []

/-- Every bit that is blown in one fuse bank is blown in another (R633). -/
def BlownStay (a b : Nat) : Prop := ∀ k, a.testBit k = true → b.testBit k = true

/-- The commands that read the fuse bank itself: the boot that copies it to the shadow, and those that can blow ARB. -/
def readsBank : Instr → Bool
  | .boot .. | .thaw .. | .fuseArbSet .. | .bootFirmwareStart .. | .registerWrite .. | .regAccess .. => true
  | _ => false

/-- `n` steps taken one after the other; none where a step does not answer a next state. -/
def run : Nat → State → Option State
  | 0, s => some s
  | n + 1, s => match step s with
    | .next t => run n t
    | _ => none

end Sys2Proof.Machine
end

