-- ==== Sys2Proof/Certificates/Slice0/Obligations.lean ====
section
/-!
DEFINITION. The statements about the model, for the provers.
-/

open Sys2Proof Sys2Proof.Machine

/-- REGISTER_WRITE to PMU_THAW, PMU_FL, PMU_VIO, CLK_WDT, CLK_STAT or PMU_STAT, which have no rows of their own, makes exactly
this of the unit: each RW bit takes the written bit, each W1C bit written 1 becomes 0, every other bit of the register and
everything else stays, and the access gets no error. RC_READ of an RC counter of the CLK, PMU windows answers the four bytes
of its value, leaves it zero, and changes nothing else. (R11, R632, 00_scope.md Table 0-5.) -/
def Obligations.RegisterBusAccess : Prop :=
  (∀ (r : Reg) (v : DWord) (s : State),
      r ∈ [Reg.PMU_THAW, Reg.PMU_FL, Reg.PMU_VIO, Reg.CLK_WDT, Reg.CLK_STAT, Reg.PMU_STAT] →
      ∃ x : DWord, Becomes (.registerWrite r.blk r.off v) s { s.dev.wr r x with error := false } ∧
      ∀ b < 32, x.getLsbD b = if r.rw.testBit b then v.getLsbD b else ((s.dev.rd r).getLsbD b && !(r.w1c.testBit b && v.getLsbD b))) ∧
  (∀ (r : Reg) (s : State),
      r ∈ [Reg.CLK_CNT_UNITRST, Reg.CLK_CNT_FWRST, Reg.CLK_CNT_UNLOCK, Reg.PMU_CNT_FROST, Reg.PMU_CNT_THAW, Reg.PMU_CNT_WAKE] →
      Becomes (.rcRead r.blk r.off) s { s.dev.wr r 0#32 with answer := leBytes 4 (s.dev.rd r).toNat, error := false })

/-- OPU_ISLAND_POWER_UP of a present OPU island that is off begins its power-up where the unit is not DORMANT, not FROZEN and in
no frost hold, with the write gate closed. OPU_ISLAND_READY makes an island that is powering up ready (here with no access
stalled). OPU_ISLAND_POWER_DOWN of an island that is on and whose slices are all OFF or IDLE leaves it off, with LD_STOP_N
asserted. ISLAND_OFF_ACCESS to a register of an island that is off gets an error response and no value, and begins to power
it; a write to one of an island that powers up stalls, and does exactly nothing else. FROZEN_ENTRY of any engine outside
FROZEN leaves the unit FROZEN, with LD_STOP_N asserted on every OPU. (R18, R24, R26, R27, R586.) -/
def Obligations.PowerIslands : Prop :=
  (∀ (opu : Fin 4) (s : State),
      s.dev.opuPresent opu = true →
      s.dev.stage opu = .off →
      s.dev.frost = false →
      s.dev.mode ≠ 7 ∧ s.dev.mode ≠ 1 →
      Gives (.opuIslandPowerUp opu) s fun d => d.stage opu = .powering ∧ d.fg .WSG_OCTL_GATE_EN opu = 0) ∧
  (∀ (opu : Fin 4) (s : State),
      s.dev.stage opu = .powering →
      s.dev.stalled = [] →
      Gives (.opuIslandReady opu) s fun d => d.stage opu = .ready) ∧
  (∀ (opu : Fin 4) (s : State),
      s.dev.opuPresent opu = true →
      s.dev.stage opu ≠ .off →
      (∀ n ∈ slicesOf opu, s.dev.fg .RCS_STAT_STATE n ≤ 1) →
      Gives (.opuIslandPowerDown opu) s fun d => d.stage opu = .off ∧ d.ldStop opu = true) ∧
  (∀ (req : Fin 16) (write : Bool) (blk : Block) (off opu : Nat) (val : DWord) (s : State),
      s.dev.regPath blk off = .opuOff opu →
      s.dev.frost = false →
      s.dev.mode ≠ 7 ∧ s.dev.mode ≠ 1 →
      Gives (.islandOffAccess req none write blk off val) s fun d => d.stage opu = .powering ∧ d.error = true ∧ d.answer = []) ∧
  (∀ (req : Fin 16) (blk : Block) (off opu : Nat) (val : DWord) (s : State),
      s.dev.regPath blk off = .stall opu →
      Becomes (.islandOffAccess req none true blk off val) s
      { s.dev with
      stalled := s.dev.stalled ++ [{ opu := opu, req := req, write := true, blk := blk, off := off, val := val }], error := false }) ∧
  (∀ (engine : Fin 6) (s : State),
      s.dev.mode ≠ 7 →
      s.dev.is .CLE_STAT_HALT = false →
      Gives (.frozenEntry engine) s fun d => d.mode = 7 ∧ ∀ o : Fin 4, d.ldStop o = true)

/-- Each of these commands first runs the slice's input through its signal path; what is said here is of the unit it leaves.
SERVO_MARK_SEARCH with the whole window seen and a match sets exactly the wedge's place, its channel bit count, no missed
wedge, and TRACK; a match more than 2 bits off nominal also sets SLIP; with no match it sets SERVO_ERR and counts a missed
wedge or finds the timing lost. SERVO_RECORD_POST of a whole servo field posts the four burst amplitudes, each the sum of
magnitudes divided by 8 K and limited to 12 bits, and the Gray decoded track. AGC_UPDATE at the end of a preamble without a
marked sample, with AGC_EN 1 and a TARGET other than 0, changes GAIN by the step of R72 within 0 to 63. OVER_RANGE_EVENT sets
OVR where a sample of the input was over range and keeps it otherwise. TIMING_LOST of a stretch at whose end R88's conditions
hold leaves LOST with TLOSS set. (R72, R78, R88, R93, R94, R95.) -/
def Obligations.SliceServoField : Prop :=
  (∀ (rcs : Fin 96) (wave : List Int) (o : Int) (s : State),
      (sliceRun rcs wave s.dev).SearchDue rcs →
      (sliceRun rcs wave s.dev).markAt rcs = some o →
      Gives (.servoMarkSearch rcs wave) s fun d => d.fg .RCS_STAT_STATE rcs = 3 ∧ (d.slice rcs).missed = 0 ∧ (d.slice rcs).found = some o ∧
      (d.slice rcs).count = ((sliceRun rcs wave s.dev).slice rcs).wedge * dataBits (fmtClass (s.dev.pickup (rcs.val / 24)).fmt) ∧
      (2 < o.natAbs → d.fg .RCS_STAT_SLIP rcs = 1)) ∧
  (∀ (rcs : Fin 96) (wave : List Int) (s : State),
      (sliceRun rcs wave s.dev).SearchDue rcs →
      (sliceRun rcs wave s.dev).markAt rcs = none →
      Gives (.servoMarkSearch rcs wave) s fun d => d.fg .RCS_STAT_SERVO_ERR rcs = 1 ∧
      ((d.slice rcs).missed = ((sliceRun rcs wave s.dev).slice rcs).missed + 1 ∨ d.fg .RCS_STAT_STATE rcs = 4)) ∧
  (∀ (rcs : Fin 96) (wave : List Int) (s : State),
      (sliceRun rcs wave s.dev).RecordDue rcs →
      Gives (.servoRecordPost rcs wave) s fun d =>
      let k := fmtClass (s.dev.pickup (rcs.val / 24)).fmt
      let e := (sliceRun rcs wave s.dev).slice rcs
      let o := e.found.getD 0
      d.fg .RCS_BURST_AB_A rcs = limitN 0 4095 ((burstSum k e.servoField o 0).1 / (k * 8)) ∧
      d.fg .RCS_BURST_AB_B rcs = limitN 0 4095 ((burstSum k e.servoField o 1).1 / (k * 8)) ∧
      d.fg .RCS_BURST_CD_C rcs = limitN 0 4095 ((burstSum k e.servoField o 2).1 / (k * 8)) ∧
      d.fg .RCS_BURST_CD_D rcs = limitN 0 4095 ((burstSum k e.servoField o 3).1 / (k * 8)) ∧
      d.fg .RCS_SERVO_T_TRACK rcs = ungray 20 (msbNat (dibitBits (s.dev.is .RCS_CTL_MARK_NEG rcs) (servoDibits k e.servoField o 98 20)))) ∧
  (∀ (rcs : Fin 96) (wave : List Int) (lo hi : Int) (s : State),
      (sliceRun rcs wave s.dev).PreambleOver rcs →
      ((sliceRun rcs wave s.dev).slice rcs).agc = some (lo, hi) →
      ((sliceRun rcs wave s.dev).slice rcs).agcMarked = false →
      (sliceRun rcs wave s.dev).is .RCS_CTL_AGC_EN rcs = true →
      (sliceRun rcs wave s.dev).fg .RCS_AGC_TARGET rcs ≠ 0 →
      Gives (.agcUpdate rcs wave) s fun d =>
      let e := sliceRun rcs wave s.dev
      d.fg .RCS_AFE_GAIN rcs = (limitI 0 63 ((e.fg .RCS_AFE_GAIN rcs : Int) +
      agcStep (e.fg .RCS_AGC_TARGET rcs) (hi - lo).toNat (e.fg .RCS_AGC_SHIFT rcs))).toNat) ∧
  (∀ (rcs : Fin 96) (wave : List Int) (s : State),
      s.dev.sliceRuns rcs = true →
      s.dev.onReference rcs = false →
      Gives (.overRangeEvent rcs wave) s fun d => d.fg .RCS_STAT_OVR rcs =
      if (s.dev.through rcs wave).overAt.isSome then 1 else s.dev.fg .RCS_STAT_OVR rcs) ∧
  (∀ (rcs : Fin 96) (wave : List Int) (s : State),
      s.dev.sliceRuns rcs = true →
      s.dev.onReference rcs = false →
      (runPosted rcs (s.dev.through rcs wave) s.dev).timingIsLost rcs = true →
      s.dev.fg .RCS_STAT_STATE rcs ≠ 4 →
      Gives (.timingLost rcs wave) s fun d => d.fg .RCS_STAT_STATE rcs = 4 ∧ d.fg .RCS_STAT_TLOSS rcs = 1 ∧ (d.slice rcs).missed = 0)

/-- RCS_GAP_LATCH of a ready OPU latches RCS_FMT and the detector settings, and of each of its slices RCS_CAP. For a slice of a
ready island: a RCS_NCO_PRESET write with NOW 1 sets exactly the step, limited, and the acquisition gains; with NOW 0 it
exactly records the preset for the next gap. TRIM_APPLY brings RCS_AFE, RCS_TRIM and CAL_FTRIM into force. A RCS_TGT write
whose targets keep the conditions of R90 writes exactly the register, and any other sets exactly TGT_ERR. COMMIT while the
slice does not capture puts both shadow sets into the live sets that RCS_EQA_L and RCS_EQB_L show and leaves PENDING 0; while
it captures it leaves PENDING 1. EQ_COMMIT_APPLY takes TGT_SEL into use and leaves PENDING 0. After DESKEW_DROP with an
overfull buffer the slice furthest behind has DESKEW_OVF set. SLICE_DISABLE with EN set and no leaf in capture or waiting for
its deposit leaves EN 0 and STATE IDLE, or OFF where it was OFF; with a leaf in capture EN 0 and the slice finishing that
leaf, STATE as it was. BAND_CHECK of a ready OPU posts the wedge, the mismatch of each of the 24 spots, the count of unknown
spots, and the wedge and time for the engine. (R75, R84, R90, R91, R97, R99, R101, R108, R154, R338.) -/
def Obligations.SliceSettings : Prop :=
  (∀ (opu : Fin 4) (s : State),
      s.dev.opuReady opu = true →
      Gives (.rcsGapLatch opu) s fun d => (d.pickup opu).fmt = s.dev.rd .RCS_FMT opu ∧
      (d.pickup opu).detCtl = s.dev.rd .SDE_DET_CTL opu ∧ (d.pickup opu).detLlr = s.dev.rd .SDE_DET_LLR opu ∧
      ∀ n ∈ slicesOf opu, (d.slice n).cap = s.dev.fg .RCS_CAP_SLOTS n ∧ (d.slice n).count = 0) ∧
  (∀ (rcs : Fin 96) (val : DWord) (s : State),
      s.dev.pathOf .RCS_NCO_PRESET rcs 0 = .reg .RCS_NCO_PRESET rcs 0 →
      val.getLsbD 31 = true →
      Becomes (.rcsNcoPreset rcs val) s { (s.dev.fs .RCS_NCO_STEP (limitStep (bitsOf val.toNat 0 25)) rcs).onSlice rcs
      (fun x => { x with frac := 0, acq := true }) with error := false }) ∧
  (∀ (rcs : Fin 96) (val : DWord) (s : State),
      s.dev.pathOf .RCS_NCO_PRESET rcs 0 = .reg .RCS_NCO_PRESET rcs 0 →
      val.getLsbD 31 = false →
      Becomes (.rcsNcoPreset rcs val) s
      { s.dev.onSlice rcs (fun x => { x with preset := some (limitStep (bitsOf val.toNat 0 25)) }) with error := false }) ∧
  (∀ (rcs : Fin 96) (s : State),
      s.dev.rcsPresent rcs = true →
      Gives (.trimApply rcs) s fun d => (d.slice rcs).afe = s.dev.rd .RCS_AFE rcs ∧ (d.slice rcs).trim = s.dev.rd .RCS_TRIM rcs ∧
      sparseGet 0 d.cal.ftrim rcs = signed 5 (s.dev.fg .CAL_FTRIM_FT rcs)) ∧
  (∀ (rcs : Fin 96) (val : DWord) (s : State),
      s.dev.pathOf .RCS_TGT rcs 0 = .reg .RCS_TGT rcs 0 →
      tgtOk val = true →
      Becomes (.rcsTgtWrite rcs val) s { s.dev.wr .RCS_TGT (val &&& 0x03FF03FF#32) rcs with error := false }) ∧
  (∀ (rcs : Fin 96) (val : DWord) (s : State),
      s.dev.pathOf .RCS_TGT rcs 0 = .reg .RCS_TGT rcs 0 →
      tgtOk val = false →
      Becomes (.rcsTgtWrite rcs val) s { s.dev.fs .RCS_STAT_TGT_ERR 1 rcs with error := false }) ∧
  (∀ (rcs : Fin 96) (s : State),
      s.dev.pathOf .RCS_EQ_CTL rcs 0 = .reg .RCS_EQ_CTL rcs 0 →
      s.dev.capturing rcs = false →
      Gives (.commit rcs) s fun d => d.fg .RCS_EQ_CTL_PENDING rcs = 0 ∧ ∀ k : Fin 16,
      (d.slice rcs).liveShown 0 k = s.dev.rd .RCS_EQA_S rcs k &&& 0x3FF#32 ∧ (d.slice rcs).liveShown 1 k = s.dev.rd .RCS_EQB_S rcs k &&& 0x3FF#32) ∧
  (∀ (rcs : Fin 96) (s : State),
      s.dev.pathOf .RCS_EQ_CTL rcs 0 = .reg .RCS_EQ_CTL rcs 0 →
      s.dev.capturing rcs = true →
      Gives (.commit rcs) s fun d => d.fg .RCS_EQ_CTL_PENDING rcs = 1 ∧ (d.slice rcs).coef = (s.dev.slice rcs).coef) ∧
  (∀ (rcs : Fin 96) (s : State),
      s.dev.rcsPresent rcs = true →
      Gives (.eqCommitApply rcs) s fun d => (d.slice rcs).tgt = s.dev.fg .RCS_CTL_TGT_SEL rcs ∧ d.fg .RCS_EQ_CTL_PENDING rcs = 0) ∧
  (∀ (rcs : Fin 96) (wave : List Int) (n : Nat) (s : State),
      s.dev.sliceRuns rcs = true →
      s.dev.onReference rcs = false →
      4096 < ((s.dev.beforeDrop rcs wave).slice rcs).buf.length →
      (s.dev.beforeDrop rcs wave).behind (rcs.val / 24) = some n →
      Gives (.deskewDrop rcs wave) s fun d => d.fg .RCS_STAT_DESKEW_OVF n = 1) ∧
  (∀ (rcs : Fin 96) (s : State),
      s.dev.pathOf .RCS_CTL rcs 0 = .reg .RCS_CTL rcs 0 →
      s.dev.is .RCS_CTL_EN rcs = true →
      (s.dev.slice rcs).begun = [] ∧ (s.dev.slice rcs).capt = none →
      Gives (.sliceDisable rcs) s fun d => d.fg .RCS_CTL_EN rcs = 0 ∧
      d.fg .RCS_STAT_STATE rcs = if s.dev.fg .RCS_STAT_STATE rcs = 0 then 0 else 1) ∧
  (∀ (rcs : Fin 96) (s : State),
      s.dev.pathOf .RCS_CTL rcs 0 = .reg .RCS_CTL rcs 0 →
      s.dev.is .RCS_CTL_EN rcs = true →
      (s.dev.slice rcs).begun ≠ [] →
      Gives (.sliceDisable rcs) s fun d => d.fg .RCS_CTL_EN rcs = 0 ∧ (d.slice rcs).stopping = true ∧
      d.fg .RCS_STAT_STATE rcs = s.dev.fg .RCS_STAT_STATE rcs) ∧
  (∀ (opu : Fin 4) (wedge : Fin 432) (s : State),
      s.dev.opuReady opu = true →
      Gives (.bandCheck opu wedge) s fun d => d.fg .RCS_BAND_RES_WEDGE_LO opu = wedge % 2 ^ Fld.RCS_BAND_RES_WEDGE_LO.width ∧
      sparseGet 0 d.eng.wedge opu = wedge % 512 + (s.dev.fg .CLE_TCNT % 65536) <<< 16 ∧
      (∀ x : Fin 24, (d.fg .RCS_BAND_RES_MISMATCH opu).testBit x = decide (spotCheck s.dev opu x = .mismatch)) ∧
      d.fg .RCS_BAND_RES_UNKNOWN opu = (((List.range 24).map (spotCheck s.dev opu)).filter (· = .unknown)).length)

/-- CONTEXT_OPEN of a context whose record wants a leaf leaves it open, with no result, holding the record's PSA, and no other
context or anything outside the SDE changed by the opening. CONTEXT_CLOSE of an open context with nothing pending and no leaf
still waited for leaves it as it is, complete. CONTEXT_ABANDON of an open context closes it with no results, and leaves the
other contexts. A write of SDE_RING while the engine is disabled and no slice captures stores BASE and SIZE and empties the
ring, and while the engine is enabled changes nothing. In SERVICE, SDE_TEST_MODE_WRITE writes exactly SDE_CTL.TEST.
TEST_ENTRY_ADVANCE with TEST and RAW adds one entry to the ring where it fits, and sets RING_FULL where it does not. (R124,
R125, R126, R149, R150, R153.) -/
def Obligations.SheetContexts : Prop :=
  (∀ (index : Fin 1024) (s : State),
      ((dropPending index s.dev).ctxRec index).1.wanted ≠ [] →
      Gives (.contextOpen index) s fun d => let r := (dropPending index s.dev).ctxRec index
      (d.ctx index).open_ = true ∧ (d.ctx index).results = [] ∧ (d.ctx index).psa = r.1.psa ∧
      (∀ k : Fin 1024, k ≠ index → d.ctx k = r.2.ctx k) ∧ d = { r.2 with sde := d.sde }) ∧
  (∀ (index : Fin 1024) (s : State),
      (s.dev.ctx index).open_ = true →
      Gives (.contextAbandon index) s fun d => (d.ctx index).open_ = false ∧ (d.ctx index).results = [] ∧
      (∀ k : Fin 1024, k ≠ index → d.ctx k = s.dev.ctx k) ∧ (∀ r ∈ d.sde.ready, r.ctx ≠ index) ∧
      Changes [Reg.SDE_STAT.key 0 0] s.dev d { s.dev with sde := d.sde }) ∧
  (∀ (index : Fin 1024) (s : State),
      (s.dev.ctx index).open_ = true →
      ((((dropPending index s.dev).ctxRec index).1.wanted.filter fun j =>
      !((((dropPending index s.dev).ctxRec index).2.ctx index).results.any fun e => e.1 == j)) = []) →
      Becomes (.contextClose index) s ((dropPending index s.dev).ctxRec index).2) ∧
  (∀ (val : DWord) (s : State),
      s.dev.is .SDE_CTL_EN = false →
      (s.dev.slices.any (fun e => e.2.capt.isSome) = false) →
      Gives (.sdeRingWrite val) s fun d => d.ringBase = (val.toNat % 2 ^ 15) * 524288 ∧
      d.ringSize = limitN 1 127 (val.toNat / 2 ^ 16 % 2 ^ 7) * 1048576 ∧
      Changes [Reg.SDE_RING.key 0 0] s.dev d { s.dev with sde := { s.dev.sde with wp := 0, ring := [] } }) ∧
  (∀ (val : DWord) (s : State),
      s.dev.is .SDE_CTL_EN = true →
      Becomes (.sdeRingWrite val) s s.dev) ∧
  (∀ (test : Bool) (s : State),
      s.dev.mode = 6 →
      Becomes (.sdeTestModeWrite test) s (s.dev.fs .SDE_CTL_TEST (bit test))) ∧
  (∀ (off : Nat) (s : State),
      s.dev.is .SDE_CTL_TEST = true →
      s.dev.is .SDE_TEST_RAW = true →
      s.dev.testEntry.2.ringPlace s.dev.testEntry.1.size = some off →
      Gives .testEntryAdvance s fun d => d.sde.ring.length = s.dev.testEntry.2.sde.ring.length + 1 ∧
      d.sde.deposits = s.dev.testEntry.2.sde.deposits + 1 ∧ d = { s.dev.testEntry.2 with sde := d.sde }) ∧
  (∀ (s : State),
      s.dev.is .SDE_CTL_TEST = true →
      s.dev.is .SDE_TEST_RAW = true →
      s.dev.testEntry.2.ringPlace s.dev.testEntry.1.size = none →
      Gives .testEntryAdvance s fun d => d.fg .SDE_STAT_RING_FULL = 1)

/-- LEAF_CAPTURE of a leaf whose capture has begun and whose outputs have all been released leaves the captured leaf in its slice,
with its position, slot, leaf index, revolution, TLOSS fact and blank fact; a slice that does not run does nothing.
LEAF_DEPOSIT lays the descriptor and LLRs in the deposit ring and frees the slice's capture. SDE_ENTRY_CONSUME of an entry
that no context waits for counts one orphan and releases it. SDE_LEAF_START starts the leaf that the schedule names, with its
iteration limits. SDE_ITERATION_DONE with unmet checks inside the base allowance keeps the leaf running with one more
iteration; with none unmet it ends the leaf; a parity error starts the leaf again once. OUTER_DECODE takes the context that
completed first; with an error of the stage it sets FAULT. (R109, R119, R120, R127, R128, R130, R135, R139, R140.) -/
def Obligations.SheetDecodeRun : Prop :=
  (∀ (rcs : Fin 96) (pos : Nat) (wave : List Int) (b : Begun) (s : State),
      (sliceRun rcs wave s.dev).sliceRuns rcs = true →
      ((sliceRun rcs wave s.dev).slice rcs).capt = none →
      ((((sliceRun rcs wave s.dev).slice rcs).begun.find? fun b => b.pos == pos) = some b) →
      ((sliceRun rcs wave s.dev).leafOutputs rcs pos).isSome = true →
      Gives (.leafCapture rcs pos wave) s fun d =>
      let e := sliceRun rcs wave s.dev
      let kp := e.sliceSlots rcs
      (d.slice rcs).capt.map (fun x => (x.facts.rcs, x.facts.pos, x.facts.slot, x.facts.leaf)) = some (rcs.val, pos, pos % kp, pos / kp) ∧
      (d.slice rcs).capt.map (fun x => (x.facts.blank, x.facts.tloss, x.rev)) = some (e.blankAt rcs pos, b.tloss, b.rev) ∧
      (∀ k : Fin 96, k ≠ rcs → d.slice k = e.slice k) ∧
      Changes [Reg.RCS_STAT.key rcs 0, Reg.RCS_CNT_BLANK.key rcs 0, Reg.RCS_CNT_SYNC_MISS.key rcs 0, Reg.RCS_CNT_LEAF.key rcs 0] e d
      { e with slices := d.slices }) ∧
  (∀ (rcs : Fin 96) (pos : Nat) (wave : List Int) (s : State),
      s.dev.sliceRuns rcs = false →
      Becomes (.leafCapture rcs pos wave) s s.dev) ∧
  (∀ (rcs : Fin 96) (x : Captured) (s : State),
      (s.dev.slice rcs).capt = some x →
      (s.dev.slice rcs).stopping = false →
      Gives (.leafDeposit rcs) s fun d => (d.slice rcs).capt = none ∧
      d = { depositEntry 4 (depositBytes s.dev rcs x) s.dev with slices := d.slices }) ∧
  (∀ (e : DepEntry) (s : State),
      s.dev.sde.lres = [] ∧ s.dev.sde.sres = [] →
      ((s.dev.sde.ring.find? fun e => !e.matched) = some e) →
      s.dev.is .SDE_CTL_EN = true →
      s.dev.is .SDE_STAT_FAULT = false →
      s.dev.lresFull = false →
      (let g := s.dev.bufGet 5 (s.dev.ringBase + e.off) 32
      let x := Descr.of g.1
      (g.2.matchLeaf x.side x.layer x.track x.slot x.leaf).1) = none →
      Gives .sdeEntryConsume s fun d =>
      let g := s.dev.bufGet 5 (s.dev.ringBase + e.off) 32
      let x := Descr.of g.1
      let r := (g.2.matchLeaf x.side x.layer x.track x.slot x.leaf).2
      (∀ y ∈ d.sde.ring, y.off ≠ e.off) ∧ d.fg .SDE_STAT_ORPHAN = 1 ∧
      d.rd .SDE_CNT_ORPHAN = BitVec.ofNat 32 (limitN 0 0xFFFFFFFF ((r.rd .SDE_CNT_ORPHAN).toNat + 1)) ∧
      Changes [Reg.SDE_STAT.key 0 0, Reg.SDE_CNT_ORPHAN.key 0 0] r d { r with sde := d.sde }) ∧
  (∀ (idle : Nat) (r : ReadyLeaf) (s : State),
      s.dev.sde.lres = [] ∧ s.dev.sde.sres = [] →
      s.dev.is .SDE_CTL_EN = true →
      s.dev.is .SDE_STAT_FAULT = false →
      s.dev.lresFull = false ∧ s.dev.sresFull = false →
      s.dev.sde.run = none →
      (((bucketAdd (s.dev.fg .SDE_SCHED_BUCKET_CAP) idle s.dev).onSde fun x => { x with cycle := x.cycle + idle }).nextLeaf = some r) →
      Gives (.sdeLeafStart idle) s fun d => d.sde.run.map (fun u => (u.ready, u.iters, u.retried)) = some (r, 0, false) ∧
      d.sde.rr = (r.rcs + 1) % 128 ∧ ∀ y ∈ d.sde.ready, y.entry ≠ r.entry) ∧
  (∀ (u : DecodeRun) (s : State),
      s.dev.sde.run = some u →
      Gives (.sdeIterationDone false) s fun d =>
      let r := ldpcIteration (ldpcRows u.level) (u.post, u.msgs)
      let v : DecodeRun := { u with post := r.1, msgs := r.2, iters := u.iters + 1 }
      let unmet := unmetChecks (ldpcRows u.level) r.1
      (unmet = 0 → d = endRun v 0 s.dev) ∧
      (unmet ≠ 0 → u.iters + 1 < u.base → d = { s.dev with sde := { s.dev.sde with run := some v } })) ∧
  (∀ (u : DecodeRun) (s : State),
      s.dev.sde.run = some u →
      u.retried = false →
      Gives (.sdeIterationDone true) s fun d => (d.sde.run.map fun v => (v.ready, v.iters, v.retried)) = some (u.ready, 0, true) ∧
      d = { s.dev with sde := d.sde }) ∧
  (∀ (i : Nat) (rest : List Nat) (s : State),
      s.dev.sde.lres = [] ∧ s.dev.sde.sres = [] →
      s.dev.sde.done = i :: rest →
      s.dev.is .SDE_CTL_EN = true →
      s.dev.is .SDE_STAT_FAULT = false →
      s.dev.sresFull = false →
      Becomes (.outerDecode false) s (outerStage i { s.dev with sde := { s.dev.sde with done := rest } }))

/-- RETRY_LADDER_STEP with a result waiting for another sheet than the one named changes nothing, and with a result of the named
sheet takes it: when no sheet of its track is on the ladder and the status is GOOD at rung 0, the sheet's bindings are served
with CLASS 0 and the consumer index advances. Every rung has its number of attempts, and a failed attempt leads to the same or
a higher rung, at most rung 7, never to the same attempt. RECOVERY_LIMIT_EXPIRY before the command's limit changes nothing;
after it, with no sheet on the ladder, it marks the command for the sheets that fail later; with one that only it waits for,
the sheet also leaves the ladder and the engine, and its binding ends with CLASS 4, DETAIL 2. (R144, R146, R147.) -/
def Obligations.RetryLadder : Prop :=
  (∀ (opu : Fin 4) (psa : Nat) (canOther : Bool) (s : State),
      s.dev.fg .SDE_SRES_CI ≠ s.dev.fg .SDE_SRES_PI →
      (SheetResult.of (s.dev.bufGet 2 (s.dev.fg .SDE_SRES_BASE * 4096 + 64 * s.dev.fg .SDE_SRES_CI) 64).1).psa ≠ psa →
      Becomes (.retryLadderStep opu psa canOther) s s.dev) ∧
  (∀ (opu : Fin 4) (psa : Nat) (canOther : Bool) (s : State),
      s.dev.fg .SDE_SRES_CI ≠ s.dev.fg .SDE_SRES_PI →
      (let g := s.dev.bufGet 2 (s.dev.fg .SDE_SRES_BASE * 4096 + 64 * s.dev.fg .SDE_SRES_CI) 64
      g.2.ladder = [] ∧ g.2.sde.lres = [] ∧ g.2.sde.sres = [] ∧ g.2.ctxOwed psa = none ∧
      (SheetResult.of g.1).psa = psa ∧ (SheetResult.of g.1).status = shGood ∧ (SheetResult.of g.1).rung = 0) →
      Gives (.retryLadderStep opu psa canOther) s fun d =>
      let g := s.dev.bufGet 2 (s.dev.fg .SDE_SRES_BASE * 4096 + 64 * s.dev.fg .SDE_SRES_CI) 64
      d.fg .SDE_SRES_CI = (s.dev.fg .SDE_SRES_CI + 1) % 2048 ∧ d.ladder = [] ∧
      d.fw.cmds = (bindSheet psa 0 0 (fun _ => true) g.2).fw.cmds) ∧
  (∀ (d : Dev) (opu psa : Nat) (canOther : Bool) (rung attempt : Nat),
      rung < 7 ∧ attempt < rungAttempts rung →
      (rung < (d.nextAttempt opu psa canOther rung attempt).1 ∨
      (d.nextAttempt opu psa canOther rung attempt).1 = rung ∧ attempt < (d.nextAttempt opu psa canOther rung attempt).2) ∧
      (d.nextAttempt opu psa canOther rung attempt).1 ≤ 7 ∧
      (d.nextAttempt opu psa canOther rung attempt).2 < rungAttempts (d.nextAttempt opu psa canOther rung attempt).1) ∧
  (∀ (cmd : Nat) (x : Cmd) (s : State),
      s.dev.cmd cmd = some x →
      s.dev.limitOver x = false →
      Becomes (.recoveryLimitExpiry cmd) s s.dev) ∧
  (∀ (cmd : Nat) (x : Cmd) (s : State),
      s.dev.cmd cmd = some x →
      x.stage = .running →
      s.dev.limitOver x = true →
      s.dev.ladder = [] →
      Gives (.recoveryLimitExpiry cmd) s fun d => d.cmd cmd = some { x with expired := true } ∧ d.ladder = []) ∧
  (∀ (cmd : Nat) (x : Cmd) (y : LadderSheet) (s : State),
      s.dev.fw.cmds = [x] →
      x.id = cmd →
      x.stage = .running →
      s.dev.limitOver x = true →
      s.dev.ladder = [y] →
      x.binds = [{ psa := some y.psa }] →
      Gives (.recoveryLimitExpiry cmd) s fun d => d.ladder = [] ∧
      d.fw.cmds = [{ x with expired := true, binds := [{ psa := some y.psa, result := some (4, 2) }] }] ∧
      (∀ e ∈ d.sde.ready, (s.dev.sde.ctxs.find? fun c => (c.2.open_ || c.2.owed) && c.2.psa == y.psa).map (·.1) ≠ some e.ctx))

/-- ENCODE_JOB reads the job at CI and advances CI; a job that is not of its side's format sets JOB_ERR and nothing else, and a
fault sets ENC_FAULT. WSG_PLAN_LATCH of lanes without a plan leaves 12 closed lanes in training, with the plan's HOLDs, tracks
and STARTs. LD_STOP_RELEASE with LD_STOP_N high and room in the queue sends training and queues the driver's ENABLE once.
FRAME_RECORD of a planned position with its gate open and its wedges passed opens the lane and records the position, at the
frame's end it counts it; a first wedge that does not pass leaves the lanes as they are, and so do positions from 143 on in an
OPC run. LANE_INTERRUPT of a recording lane whose gate has closed abandons the frame, closes the lane and counts it. PAUSE
with no lane recording pauses every lane and sets PAUSED; a lane that records goes on with its frame. WSG_STOP leaves no lane
recording and every lane closed; TRAIN asks for training at the next gap. (R157, R158, R162, R163, R166, R176, R177, R190,
R191, R193.) -/
def Obligations.RecordingLanes : Prop :=
  (∀ (s : State),
      s.dev.is .WSG_CTL_EN = true →
      s.dev.fg .WSG_EJOB_CI ≠ s.dev.fg .WSG_EJOB_PI →
      Gives (.encodeJob false) s fun d =>
      let ci := s.dev.fg .WSG_EJOB_CI
      let g := s.dev.bufGet 6 (s.dev.fg .WSG_EJOB_BASE * 4096 + 32 * ci) 32
      let j := EncJob.of g.1
      let e := g.2.fs .WSG_EJOB_CI ((ci + 1) % 256)
      (e.jobOk j = false → d = e.fs .WSG_STAT_JOB_ERR 1) ∧
      (e.jobOk j = true → (e.bufGet 6 j.dat 131072).2.is .SDE_CTL_TEST = false → d.fw.versions.length = e.fw.versions.length →
      ∀ v ∈ d.fw.versions, v.psa = some j.psa → v.hold = j.hold → v.stage ≠ .encoding)) ∧
  (∀ (opu : Fin 4) (s : State),
      s.dev.opuReady opu = true →
      s.dev.is .WSG_CTL_EN = true →
      (s.dev.wsg opu).lanes = [] →
      Gives (.wsgPlanLatch opu) s fun d => let g := s.dev.bufGet 6 (s.dev.fg .WSG_PLAN_BASE opu * 1024) 1024
      (d.wsg opu).lanes = (List.range 12).map (fun w => { laneOfPlan g.1 w with paused := g.2.is .WSG_OCTL_PAUSE opu, symbols := trainingSymbols }) ∧
      (d.wsg opu).plan = s.dev.fg .WSG_PLAN_BASE opu * 1024 ∧ (d.wsg opu).trained = true ∧ (d.wsg opu).train = false) ∧
  (∀ (opu : Fin 4) (s : State),
      s.dev.opuReady opu = true →
      s.dev.is .WSG_CTL_EN = true →
      Gives (.wsgPlanLatch opu) s fun d => (d.wsg opu).lanes.length = 12 ∧ (∀ l ∈ (d.wsg opu).lanes, l.frame = none ∧ l.symbols = trainingSymbols) ∧
      (d.wsg opu).trained = true ∧ (d.wsg opu).train = false ∧ ∀ o : Fin 4, o ≠ opu → d.wsg o = s.dev.wsg o) ∧
  (∀ (opu : Fin 4) (s : State),
      s.dev.opuReady opu = true →
      s.dev.ldStop opu = false →
      (s.dev.wsg opu).enableAsked = false ∧ (s.dev.wsg opu).fwQueue.length < 16 →
      Becomes (.ldStopRelease opu) s (s.dev.onWsg opu fun g => { g with
      enableAsked := true, trained := true
      lanes := g.lanes.map fun l => { l with symbols := trainingSymbols }
      fwQueue := g.fwQueue ++ [{ op := 0, spot := 0, reg := 0x02, data := if (apcSlots opu).all s.dev.started then 0x1FFF else 0x1000, fw := true }] })) ∧
  (∀ (opu : Fin 4) (lane : Fin 12) (pos fields : Nat) (l : Lane) (s : State),
      (s.dev.opuFw opu).opcBand = none →
      (s.dev.wsg opu).lanes[lane.val]? = some l →
      l.plans (leavesOf (fmtStrength (s.dev.pickup opu).fmt))
      (slotsPerTrack (fmtClass (s.dev.pickup opu).fmt) (fmtStrength (s.dev.pickup opu).fmt)) pos = true →
      s.dev.gateOpen opu lane = true →
      l.frame = none ∧ l.last ≠ some pos →
      0 < fields ∧ fields < 8 →
      (∀ i < fields, wedgePasses (s.dev.slice (24 * opu.val + lane.val)) l (s.dev.firstField opu pos + i) = true) →
      Gives (.frameRecord opu lane pos fields false) s fun d =>
      let k' := slotsPerTrack (fmtClass (s.dev.pickup opu).fmt) (fmtStrength (s.dev.pickup opu).fmt)
      let n := codewordBits (fmtStrength (s.dev.pickup opu).fmt).level / 8
      (d.fg .WSG_OSTAT_LANE_OPEN opu).testBit lane = true ∧ d.fg .WSG_OSTAT_GATE opu = 1 ∧
      ((d.wsg opu).lanes.getD lane {}).frame = some pos ∧
      d = { (s.dev.bufGet 6 (l.hold.getD (pos % k') 0 + n * (pos / k')) n).2 with regs := d.regs, wsgs := d.wsgs }) ∧
  (∀ (opu : Fin 4) (lane : Fin 12) (pos fields : Nat) (ends : Bool) (l : Lane) (s : State),
      (s.dev.opuFw opu).opcBand = none →
      (s.dev.wsg opu).lanes[lane.val]? = some l →
      l.frame = none →
      0 < fields ∧ fields < 8 →
      wedgePasses (s.dev.slice (24 * opu.val + lane.val)) l (s.dev.firstField opu pos) = false →
      Gives (.frameRecord opu lane pos fields ends) s fun d => d.wsgs = s.dev.wsgs ∧ d.regs.lookup (Reg.WSG_OSTAT.key opu 0) = s.dev.regs.lookup (Reg.WSG_OSTAT.key opu 0)) ∧
  (∀ (opu : Fin 4) (lane : Fin 12) (pos fields : Nat) (l : Lane) (s : State),
      (s.dev.opuFw opu).opcBand = none →
      (s.dev.wsg opu).lanes[lane.val]? = some l →
      l.plans (leavesOf (fmtStrength (s.dev.pickup opu).fmt))
      (slotsPerTrack (fmtClass (s.dev.pickup opu).fmt) (fmtStrength (s.dev.pickup opu).fmt)) pos = true →
      s.dev.gateOpen opu lane = true →
      l.frame = some pos ∧ l.last ≠ some pos →
      0 < fields ∧ fields < 8 →
      (∀ i < fields, wedgePasses (s.dev.slice (24 * opu.val + lane.val)) l (s.dev.firstField opu pos + i) = true) →
      Gives (.frameRecord opu lane pos fields true) s fun d => ((d.wsg opu).lanes.getD lane {}).frame = none ∧
      ((d.wsg opu).lanes.getD lane {}).last = some pos ∧
      d.rd .WSG_CNT_LEAF opu = BitVec.ofNat 32 (limitN 0 0xFFFFFFFF ((s.dev.rd .WSG_CNT_LEAF opu).toNat + 1))) ∧
  (∀ (opu : Fin 4) (lane : Fin 12) (pos fields : Nat) (ends : Bool) (s : State),
      (s.dev.opuFw opu).opcBand ≠ none →
      143 ≤ pos →
      Becomes (.frameRecord opu lane pos fields ends) s s.dev) ∧
  (∀ (opu : Fin 4) (lane : Fin 12) (sent pos : Nat) (l : Lane) (s : State),
      (s.dev.wsg opu).lanes[lane.val]? = some l →
      l.frame = some pos →
      s.dev.gateOpen opu lane = false →
      Gives (.laneInterrupt opu lane sent) s fun d => let m := (d.wsg opu).lanes.getD lane {}
      m.frame = none ∧ m.closed = true ∧ m.stop = (if l.closed || l.paused then l.stop else pos) ∧ m.symbols = l.symbols.take sent ++ [symIdle] ∧
      (d.fg .WSG_OSTAT_LANE_OPEN opu).testBit lane = false ∧ d.fg .WSG_OSTAT_INTERRUPT opu = 1 ∧
      Changes [Reg.WSG_OSTAT.key opu 0, Reg.WSG_CNT_INT.key opu 0, Reg.WSG_CNT_GATE.key opu 0] s.dev d
      { s.dev with wsgs := d.wsgs, fw := { s.dev.fw with versions := d.fw.versions } }) ∧
  (∀ (opu : Fin 4) (s : State),
      s.dev.pathOf .WSG_OCTL opu 0 = .reg .WSG_OCTL opu 0 →
      s.dev.is .WSG_OCTL_PAUSE opu = false →
      (∀ l ∈ (s.dev.wsg opu).lanes, l.frame = none) →
      Gives (.pause opu) s fun d => d.fg .WSG_OSTAT_PAUSED opu = 1 ∧ d.fg .WSG_OCTL_PAUSE opu = 1 ∧
      (∀ l ∈ (d.wsg opu).lanes, l.frame = none ∧ l.paused = true)) ∧
  (∀ (opu : Fin 4) (lane : Fin 12) (l : Lane) (s : State),
      s.dev.pathOf .WSG_OCTL opu 0 = .reg .WSG_OCTL opu 0 →
      s.dev.is .WSG_OCTL_PAUSE opu = false →
      (s.dev.wsg opu).lanes[lane.val]? = some l →
      l.frame ≠ none →
      s.dev.gateOpen opu lane = true →
      Gives (.pause opu) s fun d => d.fg .WSG_OCTL_PAUSE opu = 1 ∧ (d.wsg opu).lanes[lane.val]? = some l) ∧
  (∀ (opu : Fin 4) (s : State),
      s.dev.pathOf .WSG_OCTL opu 0 = .reg .WSG_OCTL opu 0 →
      Gives (.wsgStop opu) s fun d => (∀ l ∈ (d.wsg opu).lanes.take 12, l.frame = none ∧ l.closed = true)) ∧
  (∀ (opu : Fin 4) (s : State),
      s.dev.pathOf .WSG_OCTL opu 0 = .reg .WSG_OCTL opu 0 →
      Gives (.train opu) s fun d => (d.wsg opu).train = true ∧ ∀ o : Fin 4, o ≠ opu → d.wsg o = s.dev.wsg o)

/-- LDC_FIRMWARE_CMD of an OPU whose island is ready, with 16 commands waiting, sets exactly LDC_QFULL; a SCALE write of a beam
whose APC loop is enabled gets exactly a refused response; any other joins the end of the queue. LDC_FRAME of a ready OPU
always sends one frame with the next sequence number, and an answer that is good in CRC, ACK and sequence is taken; a bad
answer to a frame not yet repeated has exactly that frame sent once more. (R172, R174, R175.) -/
def Obligations.LaserDriverLink : Prop :=
  (∀ (opu : Fin 4) (val : DWord) (s : State),
      s.dev.pathOf .WSG_LDC_CMD opu 0 = .reg .WSG_LDC_CMD opu 0 →
      16 ≤ (s.dev.wsg opu).fwQueue.length →
      Becomes (.ldcFirmwareCmd opu val) s { s.dev.fs .WSG_OSTAT_LDC_QFULL 1 opu with error := false }) ∧
  (∀ (opu : Fin 4) (val : DWord) (s : State),
      s.dev.pathOf .WSG_LDC_CMD opu 0 = .reg .WSG_LDC_CMD opu 0 →
      (s.dev.wsg opu).fwQueue.length < 16 →
      bitsOf val.toNat 26 2 = 0 ∧ bitsOf val.toNat 16 6 = 0x10 →
      s.dev.apcOwns opu (bitsOf val.toNat 22 4) = true →
      Becomes (.ldcFirmwareCmd opu val) s
      { s.dev.onWsg opu (fun g => { g with responses := g.responses ++ [BitVec.ofNat 32 (2 ^ 18 + 2 ^ 19)] }) with error := false }) ∧
  (∀ (opu : Fin 4) (val : DWord) (s : State),
      s.dev.pathOf .WSG_LDC_CMD opu 0 = .reg .WSG_LDC_CMD opu 0 →
      (s.dev.wsg opu).fwQueue.length < 16 →
      bitsOf val.toNat 26 2 ≠ 0 ∨ bitsOf val.toNat 16 6 ≠ 0x10 ∨ s.dev.apcOwns opu (bitsOf val.toNat 22 4) = false →
      Gives (.ldcFirmwareCmd opu val) s fun d => (d.wsg opu).fwQueue = (s.dev.wsg opu).fwQueue ++
      [({ op := bitsOf val.toNat 26 2, spot := bitsOf val.toNat 22 4, reg := bitsOf val.toNat 16 6, data := bitsOf val.toNat 0 16, fw := true } : LdcFrame)] ∧
      d = { s.dev with wsgs := d.wsgs, error := false }) ∧
  (∀ (opu : Fin 4) (miso : Nat) (s : State),
      s.dev.opuReady opu = true →
      (s.dev.wsg opu).sent = none →
      Gives (.ldcFrame opu miso) s fun d => (d.wsg opu).sent.map (·.seq) = some (s.dev.wsg opu).seq ∧
      (d.wsg opu).seq = ((s.dev.wsg opu).seq + 1) % 16 ∧ d = { s.dev with wsgs := d.wsgs }) ∧
  (∀ (opu : Fin 4) (miso : Nat) (p : LdcFrame) (s : State),
      s.dev.opuReady opu = true →
      (s.dev.wsg opu).sent = some p →
      p.fw = true →
      ldcCrc miso = miso % 256 ∧ bitsOf miso 38 2 ≠ 1 ∧ bitsOf miso 8 4 = p.seq →
      Gives (.ldcFrame opu miso) s fun d => (d.wsg opu).responses = (s.dev.wsg opu).responses ++
      [BitVec.ofNat 32 (bitsOf miso 12 16 % 65536 + bitsOf miso 38 2 <<< 16 + 1 <<< 19)] ∧ d = { s.dev with wsgs := d.wsgs }) ∧
  (∀ (opu : Fin 4) (miso : Nat) (p : LdcFrame) (s : State),
      s.dev.opuReady opu = true →
      (s.dev.wsg opu).sent = some p →
      p.again = false →
      ldcCrc miso ≠ miso % 256 ∨ bitsOf miso 38 2 = 1 ∨ bitsOf miso 8 4 ≠ p.seq →
      Gives (.ldcFrame opu miso) s fun d => (d.wsg opu).repeated = some { p with again := true } ∧
      (d.wsg opu).responses = (s.dev.wsg opu).responses ∧ d = { s.dev with wsgs := d.wsgs })

/-- BAND_PLAN_DECISION, once firmware has planned what waits, for an OPU that tracks with no plan of its own ends its run's
latched band and holds it with the gates closed; with its earliest plan ready, and nothing that holds recording, it starts
that plan: the unit in RECORD, the plan latched, the gate enabled. STREAM_IDLE_TIMEOUT 50 ms after the last WRITE makes a
stream with waiting sheets idle. VERIFY_RESULT_HANDLE and NEIGHBOUR_JUDGE take the result at the consumer index, and of a
version they count the leaf, commit it, or note the neighbour pass; a result that belongs to nothing changes only that index
and its context. CLOSING_REVOLUTION of a run on Class W ends the run with its latched sheets recorded; on Class E it also ends
the debt, with the gates closed. OPC_RUN begins the next test band; on a Class W layer whose 84 test bands are used it raises
ATTN 7 once and keeps the targets. OPC_EVALUATE of a first band gives each beam the target of its run of passing steps, and
marks the beams without one for one more band. (R178, R179, R181, R182, R189, R193, R194.) -/
def Obligations.RecordDecisions : Prop :=
  (∀ (opu : Fin 4) (s : State),
      s.dev.bandWork.AtBands opu →
      (((s.dev.bandWork.opuFw opu).plans.filter fun p => s.dev.bandWork.mode != 6 || s.dev.bandWork.copiesOnly p) = []) →
      (s.dev.bandWork.opuFw opu).running = true →
      Gives (.bandPlanDecision opu) s fun d => (d.opuFw opu).latched = none ∧ d.fg .WSG_OCTL_GATE_EN opu = 0 ∧ d.sv opu svNextJ = 0 ∧
      (∀ o : Fin 4, o ≠ opu → d.opuFw o = s.dev.bandWork.opuFw o) ∧
      Changes [Reg.WSG_OCTL.key opu 0, Reg.CLE_MBOX.key (16 * opu + svNextJ.word) 0] s.dev.bandWork d { s.dev.bandWork with fw := d.fw }) ∧
  (∀ (opu : Fin 4) (p : BandPlan) (rest : List BandPlan) (s : State),
      s.dev.bandWork.AtBands opu →
      s.dev.bandWork.mode ≠ 6 →
      (s.dev.bandWork.opuFw opu).plans = p :: rest →
      s.dev.bandWork.canRecord opu = true ∧ s.dev.bandWork.opcIsDue opu p.key = false →
      s.dev.bandWork.planReady p = true ∧ s.dev.bandWork.ctxRoom (p.cells.length + 96) = true ∧ s.dev.bandWork.paceOk opu (12 * p.band) = true →
      Gives (.bandPlanDecision opu) s fun d => d.mode = 7 ∨ (d.mode = 5 ∧ (d.opuFw opu).latched = some p ∧ (d.opuFw opu).running = true ∧
      (d.opuFw opu).plans = rest ∧ (d.opuFw opu).lastBand = p.band ∧ d.fg .WSG_OCTL_GATE_EN opu = 1)) ∧
  (∀ (stream : Fin 16) (s : State),
      ((s.dev.fw.versions.any fun v => v.stream == stream.val && (v.stage == .admitted || v.stage == .encoding || v.stage == .planned)) = true) →
      (s.dev.stream stream).lastWrite + 50000000 ≤ s.dev.qtime →
      Gives (.streamIdleTimeout stream) s fun d => (d.stream stream).idle = true ∧
      (∀ k : Fin 16, k ≠ stream → d.stream k = s.dev.stream k) ∧ d = { s.dev with fw := d.fw }) ∧
  (∀ (s : State),
      s.dev.fg .SDE_LRES_CI ≠ s.dev.fg .SDE_LRES_PI →
      (let g := s.dev.bufGet 2 (s.dev.fg .SDE_LRES_BASE * 4096 + 32 * s.dev.fg .SDE_LRES_CI) 32
      g.2.sde.lres = [] ∧ g.2.sde.sres = [] ∧ (g.2.ctx (LeafVerdict.of g.1).ctx).mode ≠ 1) →
      Gives .verifyResultHandle s fun d =>
      let g := s.dev.bufGet 2 (s.dev.fg .SDE_LRES_BASE * 4096 + 32 * s.dev.fg .SDE_LRES_CI) 32
      d.fg .SDE_LRES_CI = (s.dev.fg .SDE_LRES_CI + 1) % 8192 ∧ Changes [Reg.SDE_LRES_CI.key 0 0] g.2 d g.2) ∧
  (∀ (v : Version) (s : State),
      s.dev.fg .SDE_LRES_CI ≠ s.dev.fg .SDE_LRES_PI →
      v.stage = .recorded ∧ v.psa = some 0 ∧ v.judged = [] ∧ v.bad = false ∧ v.owes = none →
      (let g := s.dev.bufGet 2 (s.dev.fg .SDE_LRES_BASE * 4096 + 32 * s.dev.fg .SDE_LRES_CI) 32
      let x := LeafVerdict.of g.1
      g.2.fw.versions = [v] ∧ g.2.sde.lres = [] ∧ g.2.sde.sres = [] ∧ (g.2.ctx x.ctx).psa = 0 ∧ (g.2.ctx x.ctx).mode = 1 ∧
      x.passes (g.2.rawMax (strengthAt (g.2.sideInfo 0).strength 0).level) = true ∧
      leavesOf (strengthAt (g.2.sideInfo 0).strength 0) ≠ 1 ∧ ∀ o ∈ g.2.opus, (g.2.opuFw o).plans = []) →
      Gives .verifyResultHandle s fun d =>
      let g := s.dev.bufGet 2 (s.dev.fg .SDE_LRES_BASE * 4096 + 32 * s.dev.fg .SDE_LRES_CI) 32
      let x := LeafVerdict.of g.1
      d.fw.versions = [{ v with judged := [x.leaf], maxRaw := limitN v.maxRaw 65535 x.raw, maxIter := limitN v.maxIter 255 x.iter }]) ∧
  (∀ (i : Nat) (s : State),
      s.dev.fg .SDE_SRES_CI ≠ s.dev.fg .SDE_SRES_PI →
      (let g := s.dev.sheetNext
      let c := g.2.ctxRec i
      g.2.ctxOwed g.1.psa = some i ∧ c.1.mode = 2 ∧ g.2.fw.versions = [] ∧ g.2.sde.lres = [] ∧ g.2.sde.sres = [] ∧
      g.2.isMapped g.1.psa = false) →
      Gives .neighbourJudge s fun d =>
      d.fg .SDE_SRES_CI = (s.dev.fg .SDE_SRES_CI + 1) % 2048 ∧ (d.ctx i).owed = false ∧
      Changes [Reg.SDE_SRES_CI.key 0 0] s.dev.sheetNext.2 d { s.dev.sheetNext.2 with sde := d.sde }) ∧
  (∀ (i : Nat) (v : Version) (s : State),
      s.dev.fg .SDE_SRES_CI ≠ s.dev.fg .SDE_SRES_PI →
      (let g := s.dev.sheetNext
      let c := g.2.ctxRec i
      g.2.ctxOwed g.1.psa = some i ∧ c.1.mode = 2 ∧ g.2.fw.versions = [v] ∧ g.2.sde.lres = [] ∧ g.2.sde.sres = [] ∧
      v.psa = some g.1.psa ∧ v.stage = .verified ∧ g.1.status ≤ 1 ∧ g.1.f ≤ 1 ∧
      (g.2.ctx i).maxRaw ≤ 2 * g.2.rawMax (strengthAt (g.2.sideInfo (psaSide g.1.psa)).strength (psaTrack g.1.psa)).level) →
      Becomes .neighbourJudge s (commitVersion v.order
      ((s.dev.sheetNext.2.onCtx i fun x => { x with owed := false }).fs .SDE_SRES_CI ((s.dev.fg .SDE_SRES_CI + 1) % 2048)))) ∧
  (∀ (i : Nat) (v : Version) (s : State),
      s.dev.fg .SDE_SRES_CI ≠ s.dev.fg .SDE_SRES_PI →
      (let g := s.dev.sheetNext
      let c := g.2.ctxRec i
      g.2.ctxOwed g.1.psa = some i ∧ c.1.mode = 2 ∧ g.2.fw.versions = [v] ∧ g.2.sde.lres = [] ∧ g.2.sde.sres = [] ∧
      v.psa = some g.1.psa ∧ v.stage = .recorded ∧ g.1.status ≤ 1 ∧ g.1.f ≤ 1 ∧
      (g.2.ctx i).maxRaw ≤ 2 * g.2.rawMax (strengthAt (g.2.sideInfo (psaSide g.1.psa)).strength (psaTrack g.1.psa)).level) →
      Gives .neighbourJudge s fun d => d.fw.versions = [{ v with nbrPassed := true }]) ∧
  (∀ (opu : Fin 4) (s : State),
      (s.dev.opuFw opu).running = true →
      s.dev.classE = false →
      Gives (.closingRevolution opu) s fun d => (d.opuFw opu).running = false ∧ (d.opuFw opu).latched = none ∧
      d.fw.versions = s.dev.fw.versions.map (fun v => if v.opu = opu.val ∧ v.stage = .latched then { v with stage := .recorded } else v) ∧
      d.fg .WSG_OCTL_GATE_EN opu = 0 ∧
      Changes [Reg.WSG_OCTL.key opu 0, Reg.CLE_MBOX.key (16 * opu + svNextJ.word) 0] s.dev d { s.dev with fw := d.fw }) ∧
  (∀ (opu : Fin 4) (s : State),
      (s.dev.opuFw opu).running = true ∧ (s.dev.opuFw opu).closing = true →
      s.dev.classE = true ∧ s.dev.frost = false ∧ s.dev.is .PMU_STAT_THAWING = false →
      s.dev.canServe opu = true ∧ s.dev.opuReady opu = true →
      s.dev.paceOk opu (12 * ((s.dev.opuFw opu).lastBand - 1)) = true ∧ s.dev.ctxRoom 192 = true →
      Gives (.closingRevolution opu) s fun d => (d.opuFw opu).running = false ∧ (d.opuFw opu).latched = none ∧ (d.opuFw opu).closing = false ∧
      d.fg .WSG_OCTL_GATE_EN opu = 0) ∧
  (∀ (opu : Fin 4) (s : State),
      s.dev.opcStarts opu (s.dev.opcKeyOf opu) = true →
      s.dev.classE = true ∨ sparseGet 0 s.dev.fw.opcNext (s.dev.opcKeyOf opu) < 84 →
      s.dev.paceOk opu (24 + 12 * (sparseGet 0 s.dev.fw.opcNext (s.dev.opcKeyOf opu) % 84)) = true ∧ s.dev.ctxRoom 48 = true →
      Gives (.opcRun opu) s fun d => (d.opuFw opu).opcLeaves = [] ∧ (d.opuFw opu).opcDue = true ∧
      (d.opuFw opu).opcBand = some (sparseGet 0 s.dev.fw.opcNext (s.dev.opcKeyOf opu) % 84) ∧ (d.opuFw opu).opcKey = s.dev.opcKeyOf opu ∧
      sparseGet 0 d.fw.opcNext (s.dev.opcKeyOf opu) = sparseGet 0 s.dev.fw.opcNext (s.dev.opcKeyOf opu) + 1 ∧ d.fg .WSG_OCTL_GATE_EN opu = 1) ∧
  (∀ (opu : Fin 4) (s : State),
      s.dev.opcStarts opu (s.dev.opcKeyOf opu) = true →
      s.dev.classE = false ∧ 84 ≤ sparseGet 0 s.dev.fw.opcNext (s.dev.opcKeyOf opu) →
      s.dev.fw.opcFull.contains (s.dev.opcKeyOf opu) = false →
      Gives (.opcRun opu) s fun d => d.fw.opcFull = s.dev.opcKeyOf opu :: s.dev.fw.opcFull ∧ (d.opuFw opu).opcDue = false ∧
      (d.opuFw opu).targets = (s.dev.opuFw opu).targets ∧ (∀ o : Fin 4, o ≠ opu → d.opuFw o = s.dev.opuFw o)) ∧
  (∀ (opu : Fin 4) (band : Nat) (s : State),
      (s.dev.opuFw opu).opcBand = some band →
      sparseGet [] (s.dev.opuFw opu).opcAgain (s.dev.opuFw opu).opcKey = [] →
      Gives (.opcEvaluate opu) s fun d =>
      let f := s.dev.opuFw opu
      let peak := ((s.dev.strategySet f.opcKey).map fun x => le x 2 2).getD 0
      (d.opuFw opu).opcBand = none ∧ (∀ o : Fin 4, o ≠ opu → d.opuFw o = s.dev.opuFw o) ∧
      (∀ b : Fin 12, sparseGet 0 (d.opuFw opu).targets (12 * f.opcKey + b) = match s.dev.opcSteps opu b with
      | some r => opcTarget peak r.1 r.2
      | none => sparseGet 0 f.targets (12 * f.opcKey + b)) ∧
      (((List.range 12).filter fun b => (s.dev.opcSteps opu b).isNone) ≠ [] →
      sparseGet [] (d.opuFw opu).opcAgain f.opcKey = (List.range 12).filter (fun b => (s.dev.opcSteps opu b).isNone) ∧ (d.opuFw opu).opcDue = true))

/-- For each of the 28 operations: a microword without a fault, port access, store or sequencing writes the lanes that LMASK
selects of DST with the operation's results (NOP writes none), leaves every other lane and register, takes its CYC + 1 clocks
and goes to the next address; it changes nothing else. JUMP goes to TARGET, BRANCH where its condition holds, CALL pushes the
following address, RETURN pops, DONE ends the sample. A microword with a cause of fault is not executed: its slot is stopped
with that cause and its sample is gone. (R199, R200, R201, R202, 06_control_law_engine.md Table 6-4.) -/
def Obligations.Microwords : Prop :=
  (∀ (p : Instr × CleOp) (x : CleSample) (w : Word) (s : State),
      p ∈ microOps →
      s.dev.Runs p.2 x w →
      mwFault s.dev x w = none →
      mwIop w = 0 ∧ mwSeq w = 0 ∧ mwMop w < 2 →
      Gives p.1 s fun d =>
      (∀ l : Fin 4, laneOf (d.vreg x.level (mwField w 112 4)) l =
      if p.2 ≠ .nop ∧ (mwField w 116 4).testBit l = true then ((s.dev.laneResults p.2 x w).getD l {}).val % 2 ^ 32
      else laneOf (s.dev.vreg x.level (mwField w 112 4)) l) ∧
      (∀ r : Fin 16, r.val ≠ mwField w 112 4 → d.vreg x.level r = s.dev.vreg x.level r) ∧
      (d.runningSample.map fun y => (y.slot, y.pc, y.cycles, y.stack)) = some (x.slot, (x.pc + 1) % 16384, x.cycles + mwClocks w, x.stack) ∧
      d.fg .CLE_TCNT = (s.dev.fg .CLE_TCNT + mwClocks w) % 2 ^ 32 ∧
      Changes [Reg.CLE_TCNT.key 0 0] s.dev d
      { s.dev with eng := { s.dev.eng with vregs := d.eng.vregs, samples := d.eng.samples }, free := d.free }) ∧
  (∀ (p : Instr × CleOp) (x : CleSample) (w : Word) (s : State),
      p ∈ microOps →
      s.dev.Runs p.2 x w →
      mwFault s.dev x w = none →
      mwIop w = 0 ∧ mwMop w < 2 ∧ mwField w 35 2 = 0 ∧ (mwSeq w = 1 ∨ mwSeq w = 3 ∨ mwSeq w = 4) →
      Gives p.1 s fun d => (d.runningSample.map fun y => (y.pc, y.stack)) =
      some (if mwSeq w = 4 then (x.stack.headD 0, x.stack.drop 1)
      else if mwSeq w = 3 then (mwTarget w, ((x.pc + 1) % 16384) :: x.stack) else (mwTarget w, x.stack))) ∧
  (∀ (p : Instr × CleOp) (x : CleSample) (w : Word) (s : State),
      p ∈ microOps →
      s.dev.Runs p.2 x w →
      mwFault s.dev x w = none →
      mwIop w = 0 ∧ mwMop w < 2 ∧ mwSeq w = 2 →
      Gives p.1 s fun d => (d.runningSample.map fun y => (y.pc, y.stack)) = d.runningSample.map fun y =>
      (if condHolds y (mwField w 51 4) (mwField w 32 3) = true then mwTarget w else (x.pc + 1) % 16384, x.stack)) ∧
  (∀ (p : Instr × CleOp) (x : CleSample) (w : Word) (s : State),
      p ∈ microOps →
      s.dev.Runs p.2 x w →
      mwFault s.dev x w = none →
      mwIop w = 0 ∧ mwMop w < 2 ∧ mwSeq w = 5 →
      (∀ n : Fin 80, (s.dev.slot n).ticked = false) →
      Gives p.1 s fun d => d.eng.samples = s.dev.eng.samples.filter (fun y => y.slot != x.slot) ∧
      limitN 0 65535 (x.cycles + mwClocks w) % 2 ^ 16 ≤ d.fg .SLOT_CNT_MAXCYC x.slot) ∧
  (∀ (p : Instr × CleOp) (x : CleSample) (w : Word) (cause : Nat) (s : State),
      p ∈ microOps →
      s.dev.Runs p.2 x w →
      x.slot < 72 ∧ sparseGet [] s.dev.fw.bankWaits x.slot = [] →
      mwFault s.dev x w = some cause →
      Gives p.1 s fun d => d.fg .SLOT_STAT_FAULT x.slot = 1 ∧ d.fg .SLOT_STAT_CAUSE x.slot = cause ∧ d.is .SLOT_CFG_EN x.slot = false ∧
      (∀ y ∈ d.eng.samples, y.slot ≠ x.slot) ∧ d.eng.vregs = s.dev.eng.vregs ∧ d.eng.dm = s.dev.eng.dm)

/-- For every arithmetic operation of Table 6-4, with or without flush-to-zero, and every pattern of 32 bits at its three sources,
infinities and NaNs included, a lane of a slot with SATM = 1 gets a result whose exponent field is not all ones; and so does
every lane of HSUM. (R228, R229.) -/
def Obligations.SaturatingIsFinite : Prop :=
  (∀ op ∈ floatOps, ∀ (ftz flag : Bool) (a b c : Nat),
    bitsOf (laneOp op { satm := true, ftz := ftz } flag a b c).val 23 8 ≠ 255) ∧
  (∀ (ftz : Bool) (l : List Nat), bitsOf (hsum { satm := true, ftz := ftz } l).val 23 8 ≠ 255)

/-- For every arithmetic operation of Table 6-4 with SATM = 0 and every pattern of 32 bits at its sources, a result that is a NaN
is 0x7FC0_0000; and MIN and MAX with one NaN operand give the other operand. (R227.) -/
def Obligations.DefaultNaN : Prop :=
  (∀ op ∈ floatOps, ∀ (ftz flag : Bool) (a b c : Nat),
    isNaN (laneOp op { satm := false, ftz := ftz } flag a b c).val = true → (laneOp op { satm := false, ftz := ftz } flag a b c).val = fNaN) ∧
  (∀ (flag : Bool) (a b c : Nat), a < 2 ^ 32 → b < 2 ^ 32 → isNaN a = true → isNaN b = false →
    (laneOp .min {} flag a b c).val = b ∧ (laneOp .min {} flag b a c).val = b ∧
    (laneOp .max {} flag a b c).val = b ∧ (laneOp .max {} flag b a c).val = b)

/-- CLE_GO starts every enabled present slot that is not started, at one T_start and its own phase, and leaves the other slots.
SLOT_DISABLE of a present slot clears EN and STARTED. CLE_TICK of a started timer slot without followers makes one sample
ready and sets the next tick one period on; a tick that finds the slot's sample merges and counts. CLE_DISPATCH counts the
memory errors corrected since, and dispatches the ready sample that goes first, with its initial state, in 4 clocks.
MICRO_TRAP suspends the running sample and dispatches the one of the higher level; SAMPLE_RESUME brings back exactly what the
frame of a trap holds. (R198, R212, R213, R214, R216, R217, R218, R220.) -/
def Obligations.EngineTicks : Prop :=
  (∀ (n : Fin 80) (s : State),
      Gives .cleGo s fun d =>
      (s.dev.slotPresent n = true → s.dev.is .SLOT_CFG_EN n = true → s.dev.started n = false →
      d.started n = true ∧ (d.slot n).start = s.dev.fg .CLE_TCNT ∧
      (d.slot n).due = (s.dev.fg .CLE_TCNT + s.dev.fg .SLOT_PHASE n % limitN 200 (2 ^ 20) (s.dev.fg .SLOT_PER_PERIOD n)) % 2 ^ 32) ∧
      (s.dev.slotPresent n = false ∨ s.dev.is .SLOT_CFG_EN n = false ∨ s.dev.started n = true →
      d.slot n = s.dev.slot n ∧ d.rd .SLOT_CTL n = s.dev.rd .SLOT_CTL n)) ∧
  (∀ (slot : Fin 80) (s : State),
      s.dev.slotPresent slot = true →
      Gives (.slotDisable slot) s fun d => d.is .SLOT_CFG_EN slot = false ∧ d.started slot = false ∧ (d.slot slot).ticked = false ∧
      d.eng.samples = s.dev.eng.samples ∧ (∀ k : Fin 80, k ≠ slot → d.slot k = s.dev.slot k) ∧
      Changes [Reg.SLOT_CFG.key slot 0, Reg.SLOT_CTL.key slot 0] s.dev d
      { s.dev with eng := d.eng, fw := { s.dev.fw with bankWaits := d.fw.bankWaits } }) ∧
  (∀ (slot : Fin 80) (s : State),
      s.dev.engineOn = true →
      s.dev.started slot = true →
      bitsOf (s.dev.slot slot).cfg.toNat 5 2 ≠ 1 →
      (s.dev.slot slot).renew = false ∧ (s.dev.slot slot).ticked = false ∧ s.dev.hasSample slot = false →
      (∀ m : Fin 80, s.dev.started m = true → bitsOf (s.dev.slot m).cfg.toNat 5 2 ≠ 1) →
      Gives (.cleTick slot) s fun d => (d.slot slot).due = ((s.dev.slot slot).due + (s.dev.slot slot).period) % 2 ^ 32 ∧
      d.eng.samples = s.dev.eng.samples ++ [{ slot := slot, tick := (s.dev.slot slot).due, level := bitsOf (s.dev.slot slot).cfg.toNat 1 2 }] ∧
      d.fg .SLOT_STAT_CONSEC slot = 0 ∧ (∀ k : Fin 80, k ≠ slot → d.slot k = s.dev.slot k) ∧
      Changes [Reg.CLE_TCNT.key 0 0, Reg.SLOT_STAT.key slot 0] s.dev d { s.dev with eng := d.eng }) ∧
  (∀ (slot : Fin 80) (s : State),
      s.dev.engineOn = true →
      s.dev.started slot = true →
      bitsOf (s.dev.slot slot).cfg.toNat 5 2 ≠ 1 →
      (s.dev.slot slot).renew = false ∧ s.dev.hasSample slot = true ∧ s.dev.fg .SLOT_STAT_CONSEC slot < 3 →
      (∀ m : Fin 80, s.dev.started m = true → bitsOf (s.dev.slot m).cfg.toNat 5 2 ≠ 1) →
      Gives (.cleTick slot) s fun d => d.fg .SLOT_STAT_CONSEC slot = s.dev.fg .SLOT_STAT_CONSEC slot + 1 ∧ d.eng.samples = s.dev.eng.samples) ∧
  (∀ (spd : List (Fin 32 × Int)) (flips : Nat) (x : CleSample) (e : Dev) (s : State),
      (e = engineSince (spd.map fun p => (p.1.val, p.2)) flips s.dev) →
      e.engineOn = true ∧ e.runningSample = none →
      e.nextReady = some x →
      x.level < e.heldLevel →
      x.slot < 72 →
      e.is .SLOT_CTL_PENDING x.slot = false →
      sparseGet 0#128 e.eng.cs x.slot ≠ f31Word →
      Gives (.cleDispatch spd flips) s fun d =>
      (d.runningSample.map fun y => (y.slot, y.pc, y.stack)) = some (x.slot, e.fg .SLOT_ENTRY_ENTRY x.slot, []) ∧
      (d.runningSample.map fun y => (y.sticky, y.lanes, y.stores)) = some (0, 0, 0) ∧
      (d.runningSample.map (·.areg)) = some [e.bankBase x.slot % 16384, e.fg .SLOT_ENTRY_STATE x.slot, x.slot, 0, 0, 0, 0, 0] ∧
      (d.runningSample.map fun y => (y.tcnt, y.fresh)) = some (e.fg .CLE_TCNT, (e.slot x.slot).fresh) ∧
      d.fg .CLE_TCNT = (e.fg .CLE_TCNT + 4) % 2 ^ 32) ∧
  (∀ (spd : List (Fin 32 × Int)) (flips : Nat) (s : State),
      ((engineSince (spd.map fun p => (p.1.val, p.2)) flips s.dev).nextReady = none) →
      0 < flips →
      Gives (.cleDispatch spd flips) s fun d => d.fg .CLE_STAT_CE = 1 ∧
      d.fg .CLE_ECC_CE_COUNT = limitN 0 65535 (s.dev.fg .CLE_ECC_CE_COUNT + flips)) ∧
  (∀ (spd : List (Fin 32 × Int)) (flips : Nat) (r x : CleSample) (e : Dev) (s : State),
      (e = engineSince (spd.map fun p => (p.1.val, p.2)) flips s.dev) →
      e.engineOn = true ∧ e.runningSample = some r →
      (∀ y ∈ e.eng.samples, y.phase = .running → y = r) →
      e.nextReady = some x →
      x.level < r.level →
      x.slot < 72 ∧ x.slot ≠ r.slot →
      e.is .SLOT_CTL_PENDING x.slot = false →
      sparseGet 0#128 e.eng.cs x.slot ≠ f31Word →
      Gives (.microTrap spd flips) s fun d => (d.runningSample.map fun y => (y.slot, y.pc)) = some (x.slot, e.fg .SLOT_ENTRY_ENTRY x.slot) ∧
      { r with phase := .suspended } ∈ d.eng.samples ∧
      d.dmWord (frameAddr r.level) = BitVec.ofNat 128 (trapFrame r).1 ∧
      d.fg .CLE_TCNT = (e.fg .CLE_TCNT + 7) % 2 ^ 32) ∧
  (∀ (x : CleSample) (s : State),
      s.dev.engineOn = true →
      x.phase = .running ∧ 1 ≤ x.level ∧ x.level ≤ 3 ∧ x.slot < 80 ∧ x.pc < 2 ^ 14 ∧ x.sticky < 2 ^ 7 ∧ x.lanes < 2 ^ 4 ∧ x.stores < 2 ^ 2 ∧ x.tcnt < 2 ^ 32 →
      x.stack.length ≤ 2 ∧ x.areg.length = 8 →
      ((∀ a ∈ x.stack, a < 2 ^ 14) ∧ ∀ a ∈ x.areg, a < 2 ^ 14) →
      s.dev.eng.samples = [x] →
      ∃ t, exec .sampleResume { s with dev := trapEnter x s.dev } = .next t ∧ t.dev.eng.samples = [x] ∧
      t.dev.fg .CLE_TCNT = (s.dev.fg .CLE_TCNT + 6) % 2 ^ 32)

/-- CLE_HALT of an engine that has not halted sets HALT, drops every sample and leaves the unit FROZEN. SWAP of a started slot
sets exactly PENDING; of a slot that is not started and has no sample it toggles ACTIVE, clears PENDING, adds 1 to BANK_GEN
modulo 256 and makes the next sample FRESH. CS_COMMIT of an address that is not locked or busy writes exactly the staged word;
a locked one sets REFUSE. CLE_EVT_READ returns the oldest event and removes it, or zeros. OPEN_SLOT_AUDIT with no open slot
enabled changes nothing; an enabled open slot beyond its declared WCET is stopped. (R203, R222, R223, R225, R233, R235.) -/
def Obligations.EngineMemories : Prop :=
  (∀ (s : State),
      s.dev.is .CLE_STAT_HALT = false →
      s.dev.mode ≠ 7 →
      Gives .cleHalt s fun d => d.is .CLE_STAT_HALT = true ∧ d.eng.samples = [] ∧ d.mode = 7) ∧
  (∀ (slot : Fin 80) (s : State),
      s.dev.slotPresent slot = true →
      s.dev.started slot = true →
      Becomes (.swap slot) s (s.dev.fs .SLOT_CTL_PENDING 1 slot)) ∧
  (∀ (slot : Fin 80) (s : State),
      s.dev.slotPresent slot = true →
      s.dev.started slot = false ∧ s.dev.hasSample slot = false →
      Gives (.swap slot) s fun d => d.fg .SLOT_CTL_ACTIVE slot = 1 - s.dev.fg .SLOT_CTL_ACTIVE slot ∧ d.fg .SLOT_CTL_PENDING slot = 0 ∧
      d.fg .SLOT_CTL_BANK_GEN slot = (s.dev.fg .SLOT_CTL_BANK_GEN slot + 1) % 256 ∧ (d.slot slot).fresh = true ∧
      (∀ k : Fin 80, k ≠ slot → d.slot k = s.dev.slot k) ∧ Changes [Reg.SLOT_CTL.key slot 0] s.dev d { s.dev with eng := d.eng }) ∧
  (∀ (val : DWord) (s : State),
      (s.dev.fg .CLE_CS_ADDR < 0x3000 → s.dev.is .CLE_CTL_CS_LOCK = false) →
      (0x3000 ≤ s.dev.fg .CLE_CS_ADDR → s.dev.csBusy = false) →
      Gives (.csCommit val) s fun d => sparseGet 0#128 d.eng.cs (s.dev.fg .CLE_CS_ADDR) =
      BitVec.ofNat 128 ((s.dev.rd .CLE_CS_DATA 0).toNat + (s.dev.rd .CLE_CS_DATA 1).toNat * 2 ^ 32 + (s.dev.rd .CLE_CS_DATA 2).toNat * 2 ^ 64 + val.toNat * 2 ^ 96) ∧
      (∀ a : Fin 16384, a.val ≠ s.dev.fg .CLE_CS_ADDR → sparseGet 0#128 d.eng.cs a = sparseGet 0#128 s.dev.eng.cs a) ∧
      Changes [Reg.CLE_CS_DATA.key 3 0] s.dev d { s.dev with eng := { s.dev.eng with cs := d.eng.cs, csRead := d.eng.csRead } }) ∧
  (∀ (val : DWord) (s : State),
      s.dev.fg .CLE_CS_ADDR < 0x3000 ∧ s.dev.is .CLE_CTL_CS_LOCK = true →
      Becomes (.csCommit val) s (wordTake false ((s.dev.wr .CLE_CS_DATA val 3).fs .CLE_STAT_REFUSE 1))) ∧
  (∀ (e : CleEvent) (rest : List CleEvent) (s : State),
      s.dev.eng.events = e :: rest →
      Gives .cleEvtRead s fun d => d.answer = leBytes 4 (e.code + e.slot <<< 8 + bit e.fault <<< 15 + 1 <<< 16) ∧
      d = { s.dev with eng := { s.dev.eng with events := rest, irq := !rest.isEmpty }, answer := d.answer }) ∧
  (∀ (s : State),
      s.dev.eng.events = [] →
      Becomes .cleEvtRead s { s.dev with answer := [0#8, 0#8, 0#8, 0#8] }) ∧
  (∀ (s : State),
      (∀ i : Fin 8, s.dev.is .SLOT_CFG_EN (72 + i.val) = true → s.dev.fg .SLOT_CNT_MAXCYC (72 + i.val) ≤ declaredWcet s.dev i) →
      Becomes .openSlotAudit s s.dev) ∧
  (∀ (s : State),
      s.dev.is .SLOT_CFG_EN 79 = true ∧ 7 < getField s.dev.fw.quejo 10 1 →
      declaredWcet s.dev 7 < s.dev.fg .SLOT_CNT_MAXCYC 79 →
      (∀ i : Fin 7, s.dev.is .SLOT_CFG_EN (72 + i.val) = false) →
      s.dev.fw.openHeld = [] →
      Gives .openSlotAudit s fun d => d.is .SLOT_CFG_EN 79 = false ∧ d.started 79 = false ∧ d.rd .CLE_IOREL = 0#32)

/-- DM_COMMIT to a word of the active bank of a started slot, or of either bank of a slot whose swap is pending, sets
CLE_STAT.REFUSE and leaves the whole data memory unchanged. To any other word it writes exactly the staged word and leaves
every other word. (R224.) -/
def Obligations.RefusedDataMemory : Prop :=
  (∀ (val : DWord) (n : Fin 80) (s : State),
      (let b := slotBank (if s.dev.started n = true then (s.dev.slot n).bank else s.dev.rd .SLOT_BANK n)
      let a := s.dev.fg .CLE_DM_ADDR
      let k := s.dev.fg .SLOT_CTL_ACTIVE n
      (s.dev.started n = true ∧ b.1 + k * b.2 ≤ a ∧ a < b.1 + (k + 1) * b.2) ∨
      (s.dev.is .SLOT_CTL_PENDING n = true ∧ b.1 ≤ a ∧ a < b.1 + 2 * b.2)) →
      Becomes (.dmCommit val) s (wordTake true ((s.dev.wr .CLE_DM_DATA val 3).fs .CLE_STAT_REFUSE 1))) ∧
  (∀ (val : DWord) (s : State),
      dmRefused (s.dev.wr .CLE_DM_DATA val 3) (s.dev.fg .CLE_DM_ADDR) = false →
      Gives (.dmCommit val) s fun d => d.dmWord (s.dev.fg .CLE_DM_ADDR) =
      BitVec.ofNat 128 ((s.dev.rd .CLE_DM_DATA 0).toNat + (s.dev.rd .CLE_DM_DATA 1).toNat * 2 ^ 32 + (s.dev.rd .CLE_DM_DATA 2).toNat * 2 ^ 64 + val.toNat * 2 ^ 96) ∧
      (∀ a : Fin 16384, a.val ≠ s.dev.fg .CLE_DM_ADDR → d.dmWord a = s.dev.dmWord a) ∧
      Changes [Reg.CLE_DM_DATA.key 3 0] s.dev d { s.dev with eng := { s.dev.eng with dm := d.eng.dm, dmRead := d.eng.dmRead } })

/-- FOCUS_ACQUIRE of a waiting OP 1 takes it and leaves SWEEP with the lens swept upward and the write inhibit set.
FOCUS_SWEEP_FAIL repeats a full sweep once downward, exactly; after a sweep about a held code it begins a full one. LAYER_JUMP
of a waiting OP 2 with focus closed on another layer leaves LAYER_JUMP with the corrector on its way to the midpoint and a
kick toward the layer 3 ms later, and with focus open ends it with RESULT 2. LAYER_STEP_TIMEOUT returns to SWEEP.
TRACK_ACQUIRE in TRK_ACQ with the loop closed and three good wedges leaves TRACKING and RESULT 0. SV_SEEK of a waiting OP 4
more than 160 tracks away on the same layer leaves SEEK with the sled's move to make. SV_OPEN of a waiting OP 5 leaves OPEN
and RESULT 0; TRACK_HOLD of a waiting OP 6 in TRACKING holds the band. No servo of another OPU changes. (R255, R256, R257,
R258, R259, R260, R261, R268, R269.) -/
def Obligations.ServoCommands : Prop :=
  (∀ (opu : Fin 4) (side : Fin 2) (s : State),
      s.dev.opuReady opu = true ∧ s.dev.jumping opu = false →
      s.dev.sv opu svOp = 1 ∧ s.dev.sv opu svToken ≠ s.dev.sv opu svTaken →
      Gives (.focusAcquire opu side []) s fun d => d.svSt opu = svSweep ∧ d.inhibited opu = true ∧
      (d.servo opu).focus = .sweep false ∧ (d.servo opu).running = 1 ∧ (d.servo opu).trkClosed = false ∧
      (d.servo opu).wantLayer = s.dev.sv opu svArgLayer ∧ d.sv opu svTaken = s.dev.sv opu svToken ∧
      (∀ o : Fin 4, o ≠ opu → d.servo o = s.dev.servo o ∧ d.svSt o = s.dev.svSt o)) ∧
  (∀ (opu : Fin 4) (s : State),
      s.dev.svSt opu = svSweep →
      (s.dev.servo opu).again = false ∧ (s.dev.servo opu).near = none →
      Becomes (.focusSweepFail opu) s (s.dev.onServo opu fun x =>
      { x with again := true, focus := .sweep true, curves := 0, lobe := 0, foc := { u := bRat 16384 1, code := 16384 } })) ∧
  (∀ (opu : Fin 4) (s : State),
      s.dev.svSt opu = svSweep →
      (s.dev.servo opu).near.isSome = true →
      Gives (.focusSweepFail opu) s fun d => d.svSt opu = svSweep ∧ d.inhibited opu = true ∧ (d.servo opu).focus = .sweep false ∧
      (d.servo opu).near = none ∧ (d.servo opu).foc.code = -16384 ∧ (∀ o : Fin 4, o ≠ opu → d.servo o = s.dev.servo o ∧ d.svSt o = s.dev.svSt o)) ∧
  (∀ (opu : Fin 4) (s : State),
      s.dev.opuReady opu = true ∧ s.dev.jumping opu = false →
      s.dev.sv opu svOp = 2 ∧ s.dev.sv opu svToken ≠ s.dev.sv opu svTaken →
      (s.dev.servo opu).focus = .closed →
      s.dev.svSt opu ≠ svLayerJump →
      s.dev.sv opu svLayer ≠ s.dev.sv opu svArgLayer →
      Gives (.layerJump opu []) s fun d => d.svSt opu = svLayerJump ∧ d.inhibited opu = true ∧ (d.servo opu).stepWait = 1 ∧
      (d.servo opu).sacMid = some (nextLayer (s.dev.sv opu svLayer) (s.dev.sv opu svArgLayer)) ∧ (d.servo opu).trkClosed = false ∧
      (d.servo opu).kickUp = decide (s.dev.sv opu svLayer < s.dev.sv opu svArgLayer) ∧ (d.servo opu).running = 2 ∧
      (∀ o : Fin 4, o ≠ opu → d.servo o = s.dev.servo o ∧ d.svSt o = s.dev.svSt o)) ∧
  (∀ (opu : Fin 4) (l : List (Fin 8)) (s : State),
      s.dev.opuReady opu = true ∧ s.dev.jumping opu = false →
      s.dev.sv opu svOp = 2 ∧ s.dev.sv opu svToken ≠ s.dev.sv opu svTaken →
      (s.dev.servo opu).focus ≠ .closed →
      Gives (.layerJump opu l) s fun d => d.sv opu svResult = 2 ∧ d.svSt opu = s.dev.svSt opu ∧ (d.servo opu).running = 0 ∧
      (d.servo opu).focus = (s.dev.servo opu).focus) ∧
  (∀ (opu : Fin 4) (s : State),
      s.dev.svSt opu = svLayerJump →
      Gives (.layerStepTimeout opu) s fun d => d.svSt opu = svSweep ∧ d.inhibited opu = true ∧ (d.servo opu).focus = .sweep false ∧
      (∀ o : Fin 4, o ≠ opu → d.servo o = s.dev.servo o)) ∧
  (∀ (opu : Fin 4) (settled : Bool) (s : State),
      s.dev.opuReady opu = true ∧ s.dev.jumping opu = false →
      s.dev.sv opu svToken = s.dev.sv opu svTaken →
      s.dev.svSt opu = svTrkAcq ∧ (s.dev.servo opu).focus = .closed ∧ (s.dev.servo opu).trkClosed = true →
      Gives (.trackAcquire opu settled true) s fun d => d.svSt opu = svTracking ∧ d.sv opu svResult = 0 ∧ (d.servo opu).running = 0 ∧
      (d.opuFw opu).reached = true ∧ (∀ o : Fin 4, o ≠ opu → d.servo o = s.dev.servo o ∧ d.svSt o = s.dev.svSt o)) ∧
  (∀ (opu : Fin 4) (s : State),
      s.dev.opuReady opu = true ∧ s.dev.jumping opu = false →
      s.dev.sv opu svOp = 4 ∧ s.dev.sv opu svToken ≠ s.dev.sv opu svTaken →
      (s.dev.servo opu).focus = .closed ∧ s.dev.svSt opu = svTracking →
      s.dev.sv opu svLayer = s.dev.sv opu svArgLayer →
      160 < ((s.dev.sv opu svTrack : Int) - s.dev.fg .RCS_BAND_BASE_TRACK opu).natAbs →
      Gives (.svSeek opu false []) s fun d => d.svSt opu = svSeeking ∧ d.inhibited opu = true ∧ (d.servo opu).seeking = true ∧
      (d.servo opu).seekNm = 225 * ((s.dev.sv opu svTrack : Int) - s.dev.fg .RCS_BAND_BASE_TRACK opu) ∧ (d.servo opu).running = 4 ∧
      (∀ o : Fin 4, o ≠ opu → d.servo o = s.dev.servo o ∧ d.svSt o = s.dev.svSt o)) ∧
  (∀ (opu : Fin 4) (s : State),
      s.dev.opuReady opu = true ∧ s.dev.jumping opu = false →
      s.dev.sv opu svOp = 5 ∧ s.dev.sv opu svToken ≠ s.dev.sv opu svTaken →
      Gives (.svOpen opu) s fun d => d.svSt opu = 0 ∧ d.sv opu svResult = 0 ∧ (d.servo opu).running = 0 ∧ d.inhibited opu = true ∧
      (∀ o : Fin 4, o ≠ opu → d.servo o = s.dev.servo o)) ∧
  (∀ (opu : Fin 4) (s : State),
      s.dev.opuReady opu = true ∧ s.dev.jumping opu = false →
      s.dev.sv opu svOp = 6 ∧ s.dev.sv opu svToken ≠ s.dev.sv opu svTaken →
      s.dev.svSt opu = svTracking →
      Gives (.trackHold opu) s fun d => (d.servo opu).holding = true ∧ d.sv opu svResult = 0 ∧ d.svSt opu = svTracking ∧
      (∀ o : Fin 4, o ≠ opu → d.servo o = s.dev.servo o))

/-- BAND_JUMP in TRACKING with a move of at most 24 tracks asked for puts the band that many tracks on, and a hold keeps it.
LANDING_DECISION with at least 12 known identities and none wrong ends the landing as good. LOOP_LIMIT_BREACH of the laser's
APC rows pauses recording, of a focus loss recovers, and of a servo fault stops the OPU in FAULT with the inhibit set.
OPU_FAULT_RESTART of a FAULT with fewer than 4 recent faults opens the loops and triggers calibration groups 0 and 1, and once
they have ended goes back to SWEEP. BAND_LOST_LIMIT at eight lost revolutions leaves FAULT, and where the other OPU of the
side can record clears the OPU's plans. (R263, R266, R271, R272, R686, 07_optical_servo.md Table 7-10.) -/
def Obligations.ServoEvents : Prop :=
  (∀ (opu : Fin 4) (s : State),
      s.dev.opuReady opu = true ∧ s.dev.jumping opu = false →
      s.dev.svSt opu = svTracking →
      (s.dev.servo opu).hold0 = false ∧ (s.dev.servo opu).holding = false →
      -24 ≤ signed 8 (s.dev.sv opu svNextJ) ∧ signed 8 (s.dev.sv opu svNextJ) ≤ 24 →
      Gives (.bandJump opu) s fun d => d.svSt opu = svTracking ∧ (d.servo opu).landing = 0 ∧
      d.fg .RCS_BAND_BASE_TRACK opu = ((s.dev.fg .RCS_BAND_BASE_TRACK opu : Int) + signed 8 (s.dev.sv opu svNextJ)).toNat % 2 ^ 18 ∧
      (∀ o : Fin 4, o ≠ opu → d.servo o = s.dev.servo o ∧ d.svSt o = s.dev.svSt o ∧ d.rd .RCS_BAND_BASE o = s.dev.rd .RCS_BAND_BASE o)) ∧
  (∀ (opu : Fin 4) (s : State),
      s.dev.opuReady opu = true ∧ s.dev.jumping opu = false →
      s.dev.svSt opu = svTracking →
      (s.dev.servo opu).hold0 = true ∨ (s.dev.servo opu).holding = true ∨ signed 8 (s.dev.sv opu svNextJ) < -24 ∨ 24 < signed 8 (s.dev.sv opu svNextJ) →
      Gives (.bandJump opu) s fun d => d.fg .RCS_BAND_BASE_TRACK opu = s.dev.fg .RCS_BAND_BASE_TRACK opu ∧ (d.servo opu).hold0 = false) ∧
  (∀ (opu : Fin 4) (wedge : Fin 4) (s : State),
      s.dev.opuReady opu = true ∧ s.dev.jumping opu = false →
      s.dev.svSt opu = svTracking →
      (s.dev.servo opu).landing = wedge.val ∧ s.dev.fg .RCS_BAND_RES_WEDGE_LO opu = wedge.val →
      s.dev.fg .RCS_BAND_RES_UNKNOWN opu ≤ 12 ∧ s.dev.fg .RCS_BAND_RES_MISMATCH opu = 0 →
      Gives (.landingDecision opu wedge) s fun d => (d.servo opu).landing = 4 ∧ (d.opuFw opu).lost = 0 ∧ d.sv opu svMisland = 0 ∧
      d.sv opu svWedge = wedge.val ∧ d.svSt opu = svTracking ∧ (∀ o : Fin 4, o ≠ opu → d.servo o = s.dev.servo o)) ∧
  (∀ (opu : Fin 4) (wedge : Fin 3) (s : State),
      s.dev.opuReady opu = true ∧ s.dev.jumping opu = false →
      s.dev.svSt opu = svTracking →
      (s.dev.servo opu).landing = wedge.val ∧ s.dev.fg .RCS_BAND_RES_WEDGE_LO opu = wedge.val →
      12 < s.dev.fg .RCS_BAND_RES_UNKNOWN opu →
      Becomes (.landingDecision opu wedge.castSucc) s (s.dev.onServo opu fun x => { x with landing := wedge.val + 1 })) ∧
  (∀ (opu : Fin 4) (kind : Fin 11) (s : State),
      s.dev.opuReady opu = true →
      kind = 7 ∨ kind = 9 →
      Gives (.loopLimitBreach opu kind) s fun d => (d.opuFw opu).paused = true ∧ (d.opuFw opu).opcDue = true ∧ d.inhibited opu = true ∧
      d.svSt opu = s.dev.svSt opu ∧ (∀ o : Fin 4, o ≠ opu → d.opuFw o = s.dev.opuFw o)) ∧
  (∀ (opu : Fin 4) (kind : Fin 11) (s : State),
      s.dev.opuReady opu = true →
      kind = 8 ∨ kind = 10 →
      Gives (.loopLimitBreach opu kind) s fun d => d.svSt opu = svFault ∧ d.inhibited opu = true ∧ (d.servo opu).focus = .rest ∧
      (∀ n ∈ servoSlots opu ++ apcSlots opu, d.started n = false) ∧ (d.opuFw opu).faults = s.dev.qtime :: (s.dev.opuFw opu).faults) ∧
  (∀ (opu : Fin 4) (s : State),
      s.dev.opuReady opu = true →
      Gives (.loopLimitBreach opu 2) s fun d => d.svSt opu = svRecover ∧ d.inhibited opu = true ∧ (d.servo opu).focus = .rest ∧
      (∀ o : Fin 4, o ≠ opu → d.servo o = s.dev.servo o)) ∧
  (∀ (opu : Fin 4) (s : State),
      s.dev.opuReady opu = true →
      s.dev.opuPresent opu = true ∧ s.dev.svSt opu = svFault ∧ (s.dev.opuFw opu).withdrawn = false →
      (((s.dev.opuFw opu).faults.filter fun t => s.dev.qtime < t + 600 * second).length < 4) →
      Gives (.opuFaultRestart opu) s fun d => d.svSt opu = svOpen ∧ (d.servo opu).restart = true ∧ (d.servo opu).laser = false ∧
      sparseGet 0 d.cal.trigAt (pairBit opu 0) = s.dev.qtime + 1 ∧ sparseGet 0 d.cal.trigAt (pairBit opu 1) = s.dev.qtime + 1 ∧
      (∀ o : Fin 4, o ≠ opu → d.servo o = s.dev.servo o)) ∧
  (∀ (opu : Fin 4) (s : State),
      s.dev.opuReady opu = true ∧ (s.dev.opuFw opu).withdrawn = false →
      s.dev.svSt opu = svOpen ∧ (s.dev.servo opu).restart = true →
      s.dev.calWaits (3 * 2 ^ pairBit opu 0) = false →
      Gives (.opuFaultRestart opu) s fun d => d.svSt opu = svSweep ∧ (d.servo opu).focus = .sweep false ∧
      (∀ o : Fin 4, o ≠ opu → d.servo o = s.dev.servo o)) ∧
  (∀ (opu : Fin 4) (cmds : List Nat) (s : State),
      s.dev.opuReady opu = true →
      8 ≤ (s.dev.opuFw opu).lost →
      s.dev.canRecord (otherOpu opu) = true →
      Gives (.bandLostLimit opu cmds) s fun d => d.svSt opu = svFault ∧ (d.opuFw opu).lost = 0 ∧ (d.opuFw opu).plans = [] ∧
      (d.opuFw opu).latched = none ∧ (∀ o : Fin 4, o ≠ opu → d.opuFw o = s.dev.opuFw o))

/-- START in OFF below 30 rpm without a frost hold enters ALIGN, and elsewhere sets exactly REFUSED. ALIGN_END enters RAMP at step
0, COUCH_REACHED enters COUCH, COUCH_TIMEOUT in COUCH counts a start failure and coasts. CATCH of a coasting spindle at or
above the couch speed arms the catch. STOP of a running spindle brakes or coasts. SPN_DIR_WRITE at rest writes exactly DIR,
elsewhere sets exactly REFUSED. BEMF_CROSSING: the twelfth valid crossing in COUCH enters RUN. COMMUTATION in RUN takes the
next step in the direction of DIR. STEP_MISSED a third time in a row in RUN loses synchronism. BELOW30_TIMEOUT while coasting
makes the block OFF. Nothing outside the SPN block and firmware's count of tries changes. (R278, R280, R283, R285, R286, R288,
R289, R296.) -/
def Obligations.SpindleStart : Prop :=
  (∀ (s : State),
      s.dev.is .SPN_CTL_EN = true ∧ s.dev.spnState = spnOff →
      s.dev.is .SPN_STAT_BELOW30 = true ∧ s.dev.is .SPN_STAT_FROST_HOLD = false →
      Gives .start s fun d => d.spnState = spnAlign ∧ d.spn.step = (if s.dev.is .SPN_CTL_DIR then 1 else 5) ∧ d.spn.duty = 0 ∧
      d.spn.align = s.dev.rd .SPN_ALIGN ∧ Changes [Reg.SPN_STAT.key 0 0] s.dev d { s.dev with spn := d.spn }) ∧
  (∀ (s : State),
      s.dev.is .SPN_CTL_EN = true →
      s.dev.spnState ≠ spnOff ∨ s.dev.is .SPN_STAT_BELOW30 = false ∨ s.dev.is .SPN_STAT_FROST_HOLD = true →
      Becomes .start s (s.dev.fs .SPN_STAT_REFUSED 1)) ∧
  (∀ (s : State),
      s.dev.spnState = spnAlign →
      Gives .alignEnd s fun d => d.spnState = spnRamp ∧ d.spn.step = 0 ∧ Changes [Reg.SPN_STAT.key 0 0] s.dev d { s.dev with spn := d.spn }) ∧
  (∀ (s : State),
      s.dev.spnState = spnRamp →
      Gives .couchReached s fun d => d.spnState = spnCouch ∧ d.spn.good = 0 ∧
      Changes [Reg.SPN_STAT.key 0 0] s.dev d { s.dev with spn := { s.dev.spn with good := 0 } }) ∧
  (∀ (s : State),
      s.dev.spnState = spnCouch →
      s.dev.is .SPN_STAT_BELOW30 = false →
      Gives .couchTimeout s fun d => d.spnState = spnCoast ∧ d.is .SPN_STAT_START_FAIL = true ∧ d.spn.duty = 0 ∧ d.spn.good = 0 ∧
      Changes [Reg.SPN_STAT.key 0 0, Reg.SPN_CNT_STARTFAIL.key 0 0] s.dev d { s.dev with spn := d.spn }) ∧
  (∀ (s : State),
      s.dev.spnState = spnCoast ∨ s.dev.spnState = spnOff →
      s.dev.is .SPN_CTL_EN = true ∧ s.dev.is .SPN_STAT_FROST_HOLD = false →
      16 * couchRpm (s.dev.rd .SPN_COUCH) ≤ s.dev.speed16 →
      Gives .catch s fun d => d.spn.catching = true ∧ d.spn.good = 0 ∧ d = { s.dev with spn := d.spn }) ∧
  (∀ (s : State),
      s.dev.spnState = spnRun →
      s.dev.is .SPN_STAT_BELOW30 = false →
      Gives .stop s fun d => d.spnState = (if s.dev.spn.brake then spnBrake else spnCoast) ∧ d.spn.comm = none ∧
      Changes [Reg.SPN_STAT.key 0 0] s.dev d { s.dev with spn := d.spn }) ∧
  (∀ (dir : Bool) (s : State),
      s.dev.is .SPN_CTL_DIR ≠ dir →
      s.dev.spnState = spnOff ∧ s.dev.is .SPN_STAT_BELOW30 = true →
      Becomes (.spnDirWrite dir) s (s.dev.fs .SPN_CTL_DIR (bit dir))) ∧
  (∀ (dir : Bool) (s : State),
      s.dev.is .SPN_CTL_DIR ≠ dir →
      s.dev.spnState ≠ spnOff ∨ s.dev.is .SPN_STAT_BELOW30 = false →
      Becomes (.spnDirWrite dir) s (s.dev.fs .SPN_STAT_REFUSED 1)) ∧
  (∀ (t : Nat) (phase : Fin 3) (rising : Bool) (angle samples : Nat) (s : State),
      s.dev.is .SPN_CTL_EN = true ∧ s.dev.spnState = spnCouch →
      phase.val = floatingPhase s.dev.spn.step ∧ crossingStep phase rising = expectedCrossing (s.dev.is .SPN_CTL_DIR) s.dev.spn.step →
      inWindow s.dev.spn.soft angle = true →
      s.dev.spn.good = 11 →
      Gives (.bemfCrossing t phase rising angle samples) s fun d => d.spnState = spnRun ∧ d.spn.missed = 0 ∧
      d.spn.comm = some (commDelay s.dev.spn.adv t) ∧ d.spn.intervals = (t :: s.dev.spn.intervals).take 6 ∧ d.fw.spnTries = 0 ∧
      Changes [Reg.SPN_STAT.key 0 0, Reg.SPN_SPEED.key 0 0, Reg.SPN_CNT_START.key 0 0] s.dev d { s.dev with spn := d.spn, fw := d.fw }) ∧
  (∀ (s : State),
      s.dev.spnState = spnRun ∧ s.dev.spn.comm.isSome = true →
      Gives .commutation s fun d => d.spn.step = (if s.dev.is .SPN_CTL_DIR then (s.dev.spn.step + 5) % 6 else (s.dev.spn.step + 1) % 6) ∧
      d.spn.comm = none ∧ d.spn.brake = s.dev.is .SPN_CTL_BRAKE_EN ∧ d = { s.dev with spn := d.spn }) ∧
  (∀ (s : State),
      s.dev.spnState = spnRun ∧ s.dev.spn.comm = none →
      Gives .stepMissed s fun d =>
      (2 ≤ s.dev.spn.missed → s.dev.is .SPN_STAT_BELOW30 = false → d.spnState = spnCoast ∧ d.is .SPN_STAT_SYNC_LOSS = true) ∧
      (s.dev.spn.missed < 2 → d.spnState = spnRun ∧ d.spn.missed = s.dev.spn.missed + 1) ∧
      Changes [Reg.SPN_STAT.key 0 0, Reg.SPN_CNT_MISS.key 0 0] s.dev d { s.dev with spn := d.spn }) ∧
  (∀ (s : State),
      s.dev.spnState = spnCoast ∨ s.dev.spnState = spnBrake →
      Gives .below30Timeout s fun d => d.spnState = spnOff ∧ d.is .SPN_STAT_BELOW30 = true ∧ Changes [Reg.SPN_STAT.key 0 0] s.dev d s.dev)

/-- DUTY_APPLY of a duty written at least 100 ns before brings it into force. DUTY_STALE in a driven state coasts with DUTY_STALE
set. OVERCURRENT above OC_TRIP leaves FAULT. OVERSPEED brakes or coasts with OVSP set. CLEAR_FAULT leaves FAULT for COAST.
START_FAIL_RETRY starts once more with I_ALIGN raised by a quarter. SPINDLE_CONDITION_HANDLE of an ended recovery lets go of
the holds; SPEED_ERROR_TIMEOUT holds every OPU. READ_BAND_ADVANCE with no room keeps the band and captures nothing. (R277,
R282, R287, R295, R297, R298, R300, R301, 08_spindle.md Table 8-5.) -/
def Obligations.SpindleProtection : Prop :=
  (∀ (age : Nat) (cu cv : Int) (angle : Nat) (v : Int) (s : State),
      spnDriven s.dev.spnState = true ∧ s.dev.is .SPN_STAT_FROST_HOLD = false →
      100 ≤ age ∧ s.dev.spn.written = some v →
      Gives (.dutyApply age cu cv none angle) s fun d => d.spn.duty = v ∧ d.spn.written = none ∧ d.spn.cut = false ∧
      d.spn.iu = openDivI (cu * s.dev.fg .SPN_SCALE_ISCALE) 2047 ∧ d.spn.vmot = s.dev.spn.vmot ∧ d = { s.dev with spn := d.spn }) ∧
  (∀ (age : Nat) (cu cv : Int) (angle : Nat) (s : State),
      age < 100 →
      Gives (.dutyApply age cu cv none angle) s fun d => d.spn.duty = s.dev.spn.duty ∧ d.spn.written = s.dev.spn.written ∧ d = { s.dev with spn := d.spn }) ∧
  (∀ (s : State),
      spnDriven s.dev.spnState = true ∧ s.dev.is .SPN_STAT_BELOW30 = false →
      Gives .dutyStale s fun d => d.spnState = spnCoast ∧ d.is .SPN_STAT_DUTY_STALE = true ∧ d.spn.duty = 0 ∧
      Changes [Reg.SPN_STAT.key 0 0] s.dev d { s.dev with spn := d.spn }) ∧
  (∀ (iu iv : Int) (s : State),
      s.dev.is .SPN_CTL_EN = true →
      s.dev.fg .SPN_LIMIT_OC_CYC < iu.natAbs ∧ s.dev.fg .SPN_LIMIT_OC_TRIP < iu.natAbs →
      Gives (.overcurrent iu iv) s fun d => d.spnState = spnFault ∧ d.is .SPN_STAT_OC_TRIP = true ∧ d.is .SPN_STAT_OC_CYC = true ∧ d.spn.duty = 0 ∧
      Changes [Reg.SPN_STAT.key 0 0, Reg.SPN_CNT_OC.key 0 0] s.dev d { s.dev with spn := d.spn }) ∧
  (∀ (s : State),
      s.dev.is .SPN_CTL_EN = true ∧ s.dev.is .SPN_STAT_BELOW30 = false →
      16 * s.dev.fg .SPN_OVSP < s.dev.speed16 →
      Gives .overspeed s fun d => d.spnState = (if s.dev.spn.brake then spnBrake else spnCoast) ∧ d.is .SPN_STAT_OVSP = true ∧
      Changes [Reg.SPN_STAT.key 0 0] s.dev d { s.dev with spn := d.spn }) ∧
  (∀ (s : State),
      s.dev.is .SPN_STAT_FROST_HOLD = false ∧ s.dev.is .SPN_STAT_BELOW30 = false →
      s.dev.spnState = spnFault →
      Gives .clearFault s fun d => d.spnState = spnCoast ∧ d.spn.duty = 0 ∧ Changes [Reg.SPN_STAT.key 0 0] s.dev d { s.dev with spn := d.spn }) ∧
  (∀ (s : State),
      s.dev.is .SPN_STAT_START_FAIL = true ∧ s.dev.is .SPN_STAT_BELOW30 = true ∧ s.dev.spnState = spnOff →
      s.dev.fw.spnWithdrawn = false ∧ s.dev.fw.spnTries < 2 →
      s.dev.clState = clClamped →
      s.dev.is .SPN_CTL_EN = true ∧ s.dev.is .SPN_STAT_FROST_HOLD = false →
      Gives .startFailRetry s fun d => d.spnState = spnAlign ∧ d.is .SPN_STAT_START_FAIL = false ∧ d.fw.spnTries = s.dev.fw.spnTries + 1 ∧
      d.fg .SPN_ALIGN_I_ALIGN = limitN 0 (s.dev.fg .SPN_LIMIT_OC_CYC) (openDiv (5 * s.dev.fg .SPN_ALIGN_I_ALIGN) 4) % 2 ^ Fld.SPN_ALIGN_I_ALIGN.width ∧
      Changes [Reg.SPN_STAT.key 0 0, Reg.SPN_ALIGN.key 0 0] s.dev d { s.dev with spn := d.spn, fw := d.fw }) ∧
  (∀ (s : State),
      s.dev.fw.spnWithdrawn = false →
      s.dev.spnState = spnRun →
      bLt (bMul (bRat 1 100) (s.dev.sp 5)) (bAbs (bSub s.dev.rpm (s.dev.sp 5))) = false →
      Gives (.spindleConditionHandle 6) s fun d => d.fw.spnHold = false ∧ d.fw.spnTries = 0 ∧ (∀ o ∈ s.dev.opus, d.sv o svHold = 0) ∧
      d = { s.dev with fw := { s.dev.fw with spnHold := false, spnTries := 0 }, regs := d.regs }) ∧
  (∀ (s : State),
      s.dev.fw.spnWithdrawn = false ∧ s.dev.is .SPN_STAT_SYNC_LOSS = true →
      ((s.dev.fw.spnLosses.filter fun t => s.dev.qtime ≤ t + 600 * second).length < 3) →
      s.dev.clState ≠ clClamped →
      Gives (.spindleConditionHandle 1) s fun d => d.is .SPN_STAT_SYNC_LOSS = false ∧ d.fw.spnHold = true ∧
      d.fw.spnLosses = within s.dev.qtime (600 * second) s.dev.fw.spnLosses ∧ (∀ o ∈ s.dev.opus, d.sv o svHold = 1)) ∧
  (∀ (s : State),
      s.dev.spnState = spnRun →
      bLt (bMul (bRat 5 100) (s.dev.sp 5)) (bAbs (bSub s.dev.rpm (s.dev.sp 5))) = true →
      Gives .speedErrorTimeout s fun d => d.fw.spnHold = true ∧ (∀ o ∈ s.dev.opus, d.sv o svHold = 1)) ∧
  (∀ (opu : Fin 4) (s : State),
      s.dev.mode = 4 ∧ s.dev.opuReady opu = true ∧ s.dev.svSt opu = svTracking →
      s.dev.levelWrite.readRoom = 0 ∧ 0 < slotsOf (s.dev.sideInfo (opuSide opu)).strength (s.dev.fg .RCS_BAND_BASE_TRACK opu + 24) →
      Gives (.readBandAdvance opu) s fun d => d.sv opu svNextJ = 0 ∧ (∀ n ∈ slicesOf opu, d.fg .RCS_CAP_SLOTS n = 0) ∧ d = { s.dev with regs := d.regs })

/-- SLED_TARGET of the selected source at an idle sled rounds and limits the target and starts the move; of the other source it
changes nothing. SLED_MOVE_DONE leaves IDLE at the target, counted. SLED_IDLE_TIMEOUT lowers exactly the holding current. HOME
begins homing in IDLE and elsewhere sets exactly REFUSED; HOME_STALL_DETECT begins the back-off; HOME_FAIL counts the failure,
and a first one homes again. SLD_STOP of a moving sled makes its rest position the target. SLD_CLEAR_FAULT leaves IDLE, not
homed. SLED_OVERCURRENT leaves FAULT. OPU_PARK of a sled whose position is sure opens the servo and takes the target from
firmware. (R309, R311, R312, R313, R315, R317, R318, R322, 09_sled_and_clamp.md Table 9-5.) -/
def Obligations.SledAndClamp : Prop :=
  (∀ (opu : Fin 4) (cle : Bool) (target pos : Int) (speed : Nat) (s : State),
      s.dev.opuReady opu = true ∧ s.dev.is .SLD_CTL_SRC opu ≠ cle →
      s.dev.sldState opu = sldIdle →
      signed 32 (s.dev.fg .SLD_LIM_MIN opu) ≤ target ∧ target ≤ signed 32 (s.dev.fg .SLD_LIM_MAX opu) →
      sldRound (s.dev.fg .SLD_CTL_MSTEP opu) target ≠ s.dev.sldPos opu →
      Gives (.sledTarget opu cle target pos speed) s fun d => (d.sled opu).target = sldRound (s.dev.fg .SLD_CTL_MSTEP opu) target ∧
      d.sldState opu = sldMoving ∧ d.sldPos opu = s.dev.sldPos opu ∧ (∀ o : Fin 4, o ≠ opu → d.sled o = s.dev.sled o) ∧
      Changes [Reg.SLD_STAT.key opu 0, Reg.SLD_POS.key opu 0] s.dev d { s.dev with sleds := d.sleds }) ∧
  (∀ (opu : Fin 4) (cle : Bool) (target pos : Int) (speed : Nat) (s : State),
      s.dev.is .SLD_CTL_SRC opu = cle →
      Becomes (.sledTarget opu cle target pos speed) s s.dev) ∧
  (∀ (opu : Fin 4) (s : State),
      s.dev.opuReady opu = true ∧ s.dev.sldState opu = sldMoving →
      -2147483648 ≤ (s.dev.sled opu).target ∧ (s.dev.sled opu).target ≤ 2147483647 →
      Gives (.sledMoveDone opu) s fun d => d.sldState opu = sldIdle ∧ d.sldPos opu = (s.dev.sled opu).target ∧
      d.rd .SLD_CNT_MOVE opu = BitVec.ofNat 32 (limitN 0 0xFFFFFFFF ((s.dev.rd .SLD_CNT_MOVE opu).toNat + 1)) ∧
      (∀ o : Fin 4, o ≠ opu → d.sled o = s.dev.sled o)) ∧
  (∀ (opu : Fin 4) (s : State),
      s.dev.sldState opu = sldIdle →
      Becomes (.sledIdleTimeout opu) s { s.dev with sleds := sparseSet {} s.dev.sleds opu { s.dev.sled opu with low := true } }) ∧
  (∀ (opu : Fin 4) (s : State),
      s.dev.opuReady opu = true ∧ s.dev.sldState opu = sldIdle →
      Gives (.home opu) s fun d => d.sldState opu = sldHoming ∧ (d.sled opu).home = .clear ∧ (d.sled opu).home1 = s.dev.rd .SLD_HOME opu ∧
      (d.sled opu).low = false ∧ Changes [Reg.SLD_STAT.key opu 0] s.dev d { s.dev with sleds := d.sleds }) ∧
  (∀ (opu : Fin 4) (s : State),
      s.dev.opuReady opu = true ∧ s.dev.sldState opu ≠ sldIdle →
      Becomes (.home opu) s (s.dev.fs .SLD_STAT_REFUSED 1 opu)) ∧
  (∀ (opu : Fin 4) (duties : List Nat) (s : State),
      s.dev.opuReady opu = true ∧ s.dev.sldState opu = sldHoming →
      (s.dev.sled opu).home = .clear →
      homeStalled (bitsOf (s.dev.sled opu).home1.toNat 24 4) duties = true →
      Gives (.homeStallDetect opu duties) s fun d => (d.sled opu).home = .backOff ∧ (d.sled opu).target = 0 ∧ d.sldState opu = sldHoming ∧
      d.sldPos opu = -(64 * (limitN 1 255 (bitsOf (s.dev.sled opu).home1.toNat 16 8) : Int)) ∧
      Changes [Reg.SLD_POS.key opu 0] s.dev d { s.dev with sleds := d.sleds }) ∧
  (∀ (opu : Fin 4) (steps : Nat) (s : State),
      s.dev.opuReady opu = true ∧ s.dev.sldState opu = sldHoming →
      (s.dev.sled opu).fails = 0 →
      Gives (.homeFail opu steps true) s fun d => (d.sled opu).fails = 1 ∧ d.sldState opu = sldHoming ∧ (d.sled opu).home = .clear ∧
      d.fg .SLD_STAT_HOME_FAIL opu = 1 ∧ d.fg .SLD_STAT_HOMED opu = 0 ∧ (∀ o : Fin 4, o ≠ opu → d.sled o = s.dev.sled o)) ∧
  (∀ (opu : Fin 4) (pos speed : Int) (s : State),
      s.dev.opuReady opu = true ∧ s.dev.sldState opu = sldMoving →
      speed < 0 →
      0 < openDiv (64 * speed.natAbs ^ 2) (2 * (100 * limitN 1 65535 (s.dev.fg .SLD_PROF_A_MAX opu))) →
      Gives (.sldStop opu pos speed) s fun d => d.sldState opu = sldMoving ∧ (d.sled opu).home = .none ∧
      (d.sled opu).target = pos - (openDiv (64 * speed.natAbs ^ 2) (2 * (100 * limitN 1 65535 (s.dev.fg .SLD_PROF_A_MAX opu))) : Nat) ∧
      Changes [Reg.SLD_STAT.key opu 0, Reg.SLD_POS.key opu 0] s.dev d { s.dev with sleds := d.sleds }) ∧
  (∀ (opu : Fin 4) (s : State),
      s.dev.sldState opu = sldFault →
      Gives (.sldClearFault opu) s fun d => d.sldState opu = sldIdle ∧ d.fg .SLD_STAT_HOMED opu = 0 ∧ d.fg .SLD_STAT_POS_UNSURE opu = 1 ∧
      (d.sled opu).target = s.dev.sldPos opu ∧ d.sldPos opu = s.dev.sldPos opu ∧
      Changes [Reg.SLD_STAT.key opu 0, Reg.SLD_TGT.key opu 0] s.dev d { s.dev with sleds := d.sleds }) ∧
  (∀ (opu : Fin 4) (ma : Nat) (s : State),
      s.dev.opuReady opu = true ∧ s.dev.is .SLD_CTL_EN opu = true →
      s.dev.fg .SLD_SENSE_OC opu < ma →
      Gives (.sledOvercurrent opu ma) s fun d => d.sldState opu = sldFault ∧ d.fg .SLD_STAT_OC opu = 1 ∧ (d.sled opu).home = .none ∧
      Changes [Reg.SLD_STAT.key opu 0, Reg.SLD_CNT_OC.key opu 0] s.dev d { s.dev with sleds := d.sleds }) ∧
  (∀ (opu : Fin 4) (pos : Int) (speed : Nat) (s : State),
      s.dev.opuReady opu = true ∧ s.dev.fg .SLD_STAT_POS_UNSURE opu = 0 →
      Gives (.opuPark opu pos speed) s fun d => d.svSt opu = 0 ∧ d.fg .SLD_CTL_SRC opu = 1 ∧
      d.rd .SLD_TGT opu = BitVec.ofInt 32 (4096 + (s.dev.sled opu).drift) ∧ d.inhibited opu = true)

/-- CLAMP outside FAULT, CLAMPED and CLAMPING begins the clamp sequence, and in FAULT sets exactly REFUSED. RELEASE with the
spindle OFF below 30 rpm begins the release sequence, and otherwise sets exactly REFUSED. CLAMP_CLEAR_FAULT takes the state
from the inputs. DISC_PRESENT_RISE and CLAMP_HOME_RISE begin the seating drive of their sequence; CLAMP_SEAT_DONE ends it in
CLAMPED or RELEASED. CLAMP_LEAVE_TIMEOUT with CLAMP_HOME still high is a jam; CLAMP_MOVE_TIMEOUT while clamping sets NO_DISC
and releases. DISC_LOST while CLAMPED leaves the clamp in FAULT, the disc not loaded and the unit PARKED. (R325, R326, R327,
R328, 09_sled_and_clamp.md Table 9-6.) -/
def Obligations.ClampSequences : Prop :=
  (∀ (s : State),
      s.dev.clState ≠ clFault ∧ s.dev.clState ≠ clClamped ∧ s.dev.clState ≠ clClamping →
      Gives .clamp s fun d => d.clState = clClamping ∧ d.clamp.seating = false ∧ d.clamp.wasHome = s.dev.is .SLD_CL_STAT_CLAMP_HOME ∧
      Changes [Reg.SLD_CL_STAT.key 0 0] s.dev d { s.dev with clamp := d.clamp }) ∧
  (∀ (s : State),
      s.dev.clState = clFault →
      Becomes .clamp s (s.dev.fs .SLD_CL_STAT_REFUSED 1)) ∧
  (∀ (s : State),
      s.dev.clState ≠ clFault ∧ s.dev.clState ≠ clReleasing →
      s.dev.spnState = spnOff ∧ s.dev.is .SPN_STAT_BELOW30 = true →
      Gives .release s fun d => d.clState = clReleasing ∧ d.clamp.seating = s.dev.is .SLD_CL_STAT_CLAMP_HOME ∧
      Changes [Reg.SLD_CL_STAT.key 0 0] s.dev d { s.dev with clamp := d.clamp }) ∧
  (∀ (s : State),
      s.dev.clState = clFault ∨ s.dev.spnState ≠ spnOff ∨ s.dev.is .SPN_STAT_BELOW30 = false →
      Becomes .release s (s.dev.fs .SLD_CL_STAT_REFUSED 1)) ∧
  (∀ (s : State),
      s.dev.clState = clFault →
      Gives .clampClearFault s fun d => d.clState = (if s.dev.is .SLD_CL_STAT_DISC_PRESENT && s.dev.is .SLD_CL_STAT_CLAMP_HOME then clFault
      else if s.dev.is .SLD_CL_STAT_CLAMP_HOME then clReleased else if s.dev.is .SLD_CL_STAT_DISC_PRESENT then clClamped else clUnknown) ∧
      d.clamp.seating = false ∧ Changes [Reg.SLD_CL_STAT.key 0 0] s.dev d { s.dev with clamp := d.clamp }) ∧
  (∀ (s : State),
      s.dev.clState = clClamping →
      Gives .discPresentRise s fun d => d.is .SLD_CL_STAT_DISC_PRESENT = true ∧ d.clamp.seating = true ∧ d.clState = clClamping ∧
      Changes [Reg.SLD_CL_STAT.key 0 0] s.dev d { s.dev with clamp := { s.dev.clamp with seating := true } }) ∧
  (∀ (s : State),
      s.dev.clState = clReleasing →
      Gives .clampHomeRise s fun d => d.is .SLD_CL_STAT_CLAMP_HOME = true ∧ d.is .SLD_CL_STAT_DISC_PRESENT = false ∧ d.clamp.seating = true ∧
      d.clState = clReleasing ∧ Changes [Reg.SLD_CL_STAT.key 0 0] s.dev d { s.dev with clamp := { s.dev.clamp with seating := true } }) ∧
  (∀ (s : State),
      s.dev.clamp.seating = true →
      s.dev.clState = clClamping ∨ s.dev.clState = clReleasing →
      Gives .clampSeatDone s fun d => d.clState = (if s.dev.clState = clClamping then clClamped else clReleased) ∧ d.clamp.seating = false ∧
      Changes [Reg.SLD_CL_STAT.key 0 0] s.dev d { s.dev with clamp := { s.dev.clamp with seating := false } }) ∧
  (∀ (s : State),
      s.dev.clState = clClamping ∧ s.dev.clamp.wasHome = true →
      Gives (.clampLeaveTimeout true) s fun d => d.is .SLD_CL_STAT_CLAMP_HOME = false ∧ d.clamp.wasHome = false ∧ d.clState = clClamping ∧
      Changes [Reg.SLD_CL_STAT.key 0 0] s.dev d { s.dev with clamp := d.clamp }) ∧
  (∀ (s : State),
      s.dev.clState = clClamping ∧ s.dev.clamp.wasHome = true →
      Gives (.clampLeaveTimeout false) s fun d => d.clState = clFault ∧ d.is .SLD_CL_STAT_JAM = true ∧ d.clamp.seating = false) ∧
  (∀ (s : State),
      s.dev.clState = clClamping ∧ s.dev.clamp.seating = false →
      Gives .clampMoveTimeout s fun d => d.clState = clReleasing ∧ d.is .SLD_CL_STAT_NO_DISC = true ∧
      Changes [Reg.SLD_CL_STAT.key 0 0] s.dev d { s.dev with clamp := d.clamp }) ∧
  (∀ (s : State),
      s.dev.clState = clClamped →
      s.dev.mode = 3 ∨ s.dev.mode = 4 ∨ s.dev.mode = 5 →
      Gives .discLost s fun d => d.clState = clFault ∧ d.is .SLD_CL_STAT_DISC_LOST = true ∧ d.fw.disc.loaded = false ∧ d.fw.disc.lost = true ∧ d.mode = 2)

/-- CAL_TRIGGER of an idle enabled sequencer starts a run of exactly the fused-on pairs. CAL_STEP_START of a pair whose condition
holds starts its step with every resource, a delegated step asking firmware; of a pair whose condition fails it defers the
pair. CAL_MEASUREMENT_DONE of an actuator within its limit concludes it PASS. CAL_STEP_DONE of a step all of whose resources
pass ends it with PASS and goes to the next pair; CAL_STEP_TIMEOUT concludes every resource. DELEGATED_CAL of group 5 gives
the result of the two gains, CAL_EXT_RESULT gives it to the sequencer. ABORT of a run that waits ends it. CAL_FAIL_HANDLE
clears FAIL. CAL_DUE_TIMEOUT of a pair due for 60 s in RECORD ends its OPU's run. (R340, R342, R343, R344, R345, R346, R347,
R350, R352.) -/
def Obligations.CalibrationRuns : Prop :=
  (∀ (set : Nat) (s : State),
      s.dev.calIdle = true ∧ s.dev.is .CAL_CTL_EN = true ∧ s.dev.frost = false →
      s.dev.fg .CAL_PEND_PAIRS = 0 ∧ fusedPairs s.dev set ≠ 0 →
      Gives (.calTrigger set) s fun d => d.fg .CAL_RUN_PAIRS = fusedPairs s.dev set ∧ d.cal.ahead = runOrder (fusedPairs s.dev set) ∧
      d.cal.resources = [] ∧ (∀ p ∈ d.cal.ahead, s.dev.opuPresent p.2 = true ∧ set.testBit (pairBit p.2 p.1) = true) ∧
      Changes [Reg.CAL_RUN.key 0 0] s.dev d { s.dev with cal := d.cal }) ∧
  (∀ (g o : Nat) (rest : List (Nat × Nat)) (s : State),
      s.dev.cal.ahead = (g, o) :: rest →
      g ≤ 6 ∧ o ≤ 3 →
      s.dev.fg .CAL_STAT_STATE = 0 ∧ s.dev.mode ≠ 7 ∧ s.dev.mode ≠ 2 →
      calCondition s.dev g o = true →
      Gives .calStepStart s fun d => d.fg .CAL_STAT_STATE = (if g < 5 then 1 else 2) ∧ d.fg .CAL_STAT_CUR_OPU = o ∧ d.fg .CAL_STAT_CUR_GROUP = g ∧
      d.cal.ahead = s.dev.cal.ahead ∧ (d.cal.resources.map (·.idx)) = calResources s.dev g o ∧ (∀ x ∈ d.cal.resources, x.result = .none) ∧
      (5 ≤ g → d.fg .CAL_STAT_REQ = 1) ∧ Changes [Reg.CAL_STAT.key 0 0] s.dev d { s.dev with cal := d.cal }) ∧
  (∀ (g o : Nat) (next : Nat × Nat) (rest : List (Nat × Nat)) (s : State),
      s.dev.cal.ahead = (g, o) :: next :: rest →
      g ≤ 6 ∧ o ≤ 3 →
      s.dev.fg .CAL_STAT_STATE = 0 ∧ s.dev.mode ≠ 7 ∧ s.dev.mode ≠ 2 →
      calCondition s.dev g o = false →
      Gives .calStepStart s fun d => d.cal.ahead = next :: rest ∧ bitsOf (d.fg .CAL_RES_RESULT o) (3 * g) 3 = CalResult.deferred.code ∧
      d.fg .CAL_STAT_STATE = 0 ∧ d.rd .CAL_CNT_FAIL = s.dev.rd .CAL_CNT_FAIL) ∧
  (∀ (o : Fin 4) (rest : List (Nat × Nat)) (x : CalResource) (a b c : Int) (s : State),
      s.dev.cal.ahead = (0, o.val) :: rest →
      s.dev.fg .CAL_STAT_STATE = 1 ∧ s.dev.mode ≠ 7 →
      s.dev.cal.resources = [x] ∧ x.result = .none ∧ x.start = s.dev.trim (.act (8 * o + x.idx)) →
      a.natAbs ≤ 2 →
      Becomes (.calMeasurementDone [(x.idx, a, b, c, false)]) s
      { s.dev with cal := { s.dev.cal with resources := [{ x with result := .pass, count := x.count + 1 }] } }) ∧
  (∀ (g o : Nat) (next : Nat × Nat) (rest : List (Nat × Nat)) (s : State),
      s.dev.cal.ahead = (g, o) :: next :: rest →
      g ≤ 6 ∧ o ≤ 3 →
      s.dev.fg .CAL_STAT_STATE ≠ 0 ∧ s.dev.mode ≠ 7 ∧ s.dev.mode ≠ 2 →
      (∀ x ∈ s.dev.cal.resources, x.result = .pass) →
      Gives .calStepDone s fun d => d.cal.ahead = next :: rest ∧ bitsOf (d.fg .CAL_RES_RESULT o) (3 * g) 3 = CalResult.pass.code ∧
      d.fg .CAL_STAT_STATE = 0 ∧ (d.fg .CAL_RUN_PAIRS).testBit (pairBit o g) = false ∧ sparseGet 0 d.cal.fails (pairBit o g) = 0) ∧
  (∀ (p : Nat × Nat) (rest : List (Nat × Nat)) (s : State),
      s.dev.cal.ahead = p :: rest →
      s.dev.fg .CAL_STAT_STATE ≠ 0 ∧ s.dev.mode ≠ 7 ∧ s.dev.mode ≠ 2 →
      Gives .calStepTimeout s fun d => (∀ x ∈ d.cal.resources, x.result ≠ .none) ∧ d.cal.ahead = s.dev.cal.ahead ∧
      d.fg .CAL_STAT_STATE = s.dev.fg .CAL_STAT_STATE) ∧
  (∀ (o : Nat) (rest : List (Nat × Nat)) (lf lt : Nat) (s : State),
      s.dev.cal.ahead = (5, o) :: rest →
      s.dev.fg .CAL_STAT_STATE = 2 ∧ s.dev.is .CAL_STAT_REQ = true ∧ s.dev.cal.ext = none ∧ s.dev.mode ≠ 7 →
      Gives (.delegatedCal [lf, lt]) s fun d =>
      d.cal.ext = some (if loopResult lf ≠ .pass then (loopResult lf).code else (loopResult lt).code) ∧
      (loopResult lf ≠ .pass ∨ loopResult lt ≠ .pass → d = { s.dev with cal := { s.dev.cal with ext := d.cal.ext } })) ∧
  (∀ (code : Fin 8) (s : State),
      s.dev.fg .CAL_STAT_STATE = 2 ∧ s.dev.mode ≠ 7 →
      code.val ≠ 0 →
      Gives (.calExtResult code) s fun d => d.cal.ext = none ∧ (∀ x ∈ d.cal.resources, x.result ≠ .none) ∧
      d.cal.resources.length = s.dev.cal.resources.length ∧ d = { s.dev with cal := { s.dev.cal with ext := none, resources := d.cal.resources } }) ∧
  (∀ (s : State),
      s.dev.calIdle = false ∧ s.dev.fg .CAL_STAT_STATE = 0 ∧ s.dev.mode ≠ 7 ∧ s.dev.mode ≠ 2 →
      s.dev.fg .CAL_PEND_PAIRS = 0 →
      Gives .abort s fun d => d.calIdle = true ∧ d.cal.ahead = [] ∧ d.fg .CAL_STAT_DONE = 1 ∧
      Changes [Reg.CAL_RUN.key 0 0, Reg.CAL_STAT.key 0 0] s.dev d { s.dev with cal := { s.dev.cal with ahead := [] } }) ∧
  (∀ (s : State),
      s.dev.is .CAL_STAT_FAIL = true →
      Gives .calFailHandle s fun d => d.is .CAL_STAT_FAIL = false ∧ d.cal = { s.dev.cal with failed := [] }) ∧
  (∀ (group : Fin 7) (opu : Fin 4) (s : State),
      s.dev.mode = 5 ∧ s.dev.classE = false ∧ s.dev.opuPresent opu = true →
      sparseGet 0 s.dev.cal.dueAt (pairBit opu group) ≠ 0 ∧ sparseGet 0 s.dev.cal.dueAt (pairBit opu group) + 60 * second ≤ s.dev.qtime + 1 →
      (s.dev.opuFw opu).running = true →
      Gives (.calDueTimeout group opu) s fun d => (d.opuFw opu).running = false ∧
      ((d.fg .CAL_RUN_PAIRS).testBit (pairBit opu group) = true ∨ (d.fg .CAL_PEND_PAIRS).testBit (pairBit opu group) = true))

/-- TRIM_STORE_WRITE to the fine tuning trim of a fused-on slice that no running step holds stores the trim, no longer trusted,
and with the running step's own group sets exactly REFUSE. TEMPERATURE_SAMPLE keeps the die temperature and every OPU
thermistor code given, limited to 12 bits. (R339, R340, R348.) -/
def Obligations.TrimsAndTemperature : Prop :=
  (∀ (n : Fin 96) (val : DWord) (s : State),
      s.dev.opuPresent (n.val / 24) = true →
      storeBusy s.dev .CAL_FTRIM n = false →
      Gives (.trimStoreWrite (Reg.CAL_FTRIM.off + n * Reg.CAL_FTRIM.s1) val) s fun d =>
      d.fg (Trim.ft n).fld.1 n = bitsOf val.toNat (Trim.ft n).fld.1.lo (Trim.ft n).fld.1.width ∧ (Trim.ft n).key ∉ d.cal.trusted ∧
      (∀ k : Fin 96, k ≠ n → d.rd .CAL_FTRIM k = s.dev.rd .CAL_FTRIM k) ∧
      d = { s.dev with regs := d.regs, cal := { s.dev.cal with trusted := d.cal.trusted } }) ∧
  (∀ (n : Fin 96) (val : DWord) (s : State),
      s.dev.opuPresent (n.val / 24) = true →
      storeBusy s.dev .CAL_FTRIM n = true →
      Becomes (.trimStoreWrite (Reg.CAL_FTRIM.off + n * Reg.CAL_FTRIM.s1) val) s (s.dev.fs .CAL_STAT_REFUSE 1)) ∧
  (∀ (die : Int) (a b c e : Nat) (s : State),
      Gives (.temperatureSample die [a, b, c, e]) s fun d => d.cal.die = die ∧ sparseGet 0 d.eng.therm 0 = limitN 0 4095 a ∧
      sparseGet 0 d.eng.therm 3 = limitN 0 4095 e)

/-- For every 64-bit half: with right check bits its syndrome says clean; with any one data bit or check bit flipped it names
exactly that bit; with any two different data bits, a data and a check bit, or two check bits flipped it says uncorrectable.
(R361.) -/
def Obligations.EccCorrectsOne : Prop :=
  ∀ x < 2 ^ 64, judgeHalf (eccHalf x ^^^ eccHalf x) = .clean ∧
    (∀ i : Fin 64, judgeHalf (eccHalf (x ^^^ 2 ^ i.val) ^^^ eccHalf x) = .single i) ∧
    (∀ k : Fin 8, judgeHalf (eccHalf x ^^^ (eccHalf x ^^^ 2 ^ k.val)) = .single (64 + k)) ∧
    (∀ i j : Fin 64, i ≠ j → judgeHalf (eccHalf (x ^^^ 2 ^ i.val ^^^ 2 ^ j.val) ^^^ eccHalf x) = .double_) ∧
    (∀ (i : Fin 64) (k : Fin 8), judgeHalf (eccHalf (x ^^^ 2 ^ i.val) ^^^ (eccHalf x ^^^ 2 ^ k.val)) = .double_) ∧
    (∀ k l : Fin 8, k ≠ l → judgeHalf (eccHalf x ^^^ (eccHalf x ^^^ 2 ^ k.val ^^^ 2 ^ l.val)) = .double_)

/-- DRC_REQUEST_ACCEPT of a read or a write to a READY DRC with room, nothing waiting at the ports, joins its channel's queue;
with ORDER and an earlier read of its requester still queued it waits at its port; of a refused requester or to a FROZEN DRC
it is exactly an error response; beyond the capacity it is an error response and sets RANGE. DRC_SCHEDULE of a lone read
issues it and opens its row; DRC_READ_COMPLETE of the lone read in flight, its words clean, answers its bytes. SCRUB_READ with
requests queued changes nothing, and idle it reads one line and moves on. In SERVICE RAW_WRITE stores data and check bits as
given and RAW_READ returns them. REQUEST_URGENT of a waiting requester makes it urgent. (R360, R363, R366, R367, R368, R370,
R382, R388, R389, R391.) -/
def Obligations.DramRequests : Prop :=
  (∀ (req : Fin 16) (second ordered : Bool) (addr len cycle : Nat) (s : State),
      s.dev.refuses req = false ∧ addr + len ≤ s.dev.visible ∧ s.dev.drcState = drcReady ∧ s.dev.drc.held = [] →
      s.dev.queued (locate s.dev.ranks addr).ch false < 48 →
      (ordered = false ∨ ∀ r ∈ s.dev.drc.reads ++ s.dev.drc.inflight, r.req ≠ req.val) →
      coveredBy { req := req, second := second, write := false, addr := addr, data := [], len := len, cycle := cycle, ordered := ordered } s.dev.drc.writes = none →
      Gives (.drcRequestAccept req second false addr len [] cycle ordered) s fun d =>
      d.drc.reads = s.dev.drc.reads ++
      [{ req := req, second := second, write := false, addr := addr, data := [], len := len, cycle := cycle, ordered := ordered }] ∧
      d.drc.writes = s.dev.drc.writes ∧ d = { s.dev with drc := { s.dev.drc with reads := d.drc.reads, asleep := d.drc.asleep }, error := false }) ∧
  (∀ (req : Fin 16) (second ordered : Bool) (addr cycle : Nat) (data : List (BitVec 8)) (s : State),
      s.dev.refuses req = false ∧ addr + data.length ≤ s.dev.visible ∧ s.dev.drcState = drcReady ∧ s.dev.drc.held = [] →
      s.dev.queued (locate s.dev.ranks addr).ch true < 64 →
      (ordered = false ∨ ∀ r ∈ s.dev.drc.reads ++ s.dev.drc.inflight, r.req ≠ req.val) →
      Gives (.drcRequestAccept req second true addr 0 data cycle ordered) s fun d =>
      d.drc.writes = s.dev.drc.writes ++
      [{ req := req, second := second, write := true, addr := addr, data := data, len := 0, cycle := cycle, ordered := ordered }] ∧
      d = { s.dev with drc := { s.dev.drc with writes := d.drc.writes, asleep := d.drc.asleep }, error := false }) ∧
  (∀ (req : Fin 16) (second : Bool) (addr len cycle : Nat) (r : DrcReq) (s : State),
      s.dev.refuses req = false ∧ addr + len ≤ s.dev.visible ∧ s.dev.drcState = drcReady →
      r ∈ s.dev.drc.reads ∧ r.req = req.val →
      Becomes (.drcRequestAccept req second false addr len [] cycle true) s (s.dev.onDrc fun c => { c with held := c.held ++
      [{ req := req, second := second, write := false, addr := addr, data := [], len := len, cycle := cycle, ordered := true }] })) ∧
  (∀ (req : Fin 16) (second isWrite ordered : Bool) (addr len cycle : Nat) (data : List (BitVec 8)) (s : State),
      s.dev.refuses req = true →
      Becomes (.drcRequestAccept req second isWrite addr len data cycle ordered) s { s.dev with error := true }) ∧
  (∀ (req : Fin 16) (second ordered : Bool) (addr len cycle : Nat) (s : State),
      s.dev.refuses req = false ∧ s.dev.visible < addr + len →
      Becomes (.drcRequestAccept req second false addr len [] cycle ordered) s { (s.dev.fs .DRC_STAT_RANGE 1) with error := true }) ∧
  (∀ (req : Fin 16) (second ordered : Bool) (addr len cycle : Nat) (s : State),
      s.dev.refuses req = false ∧ addr + len ≤ s.dev.visible ∧ s.dev.drcState = drcFrozen →
      Becomes (.drcRequestAccept req second false addr len [] cycle ordered) s { s.dev with error := true }) ∧
  (∀ (ch : Fin 2) (cycle : Nat) (r : DrcReq) (s : State),
      s.dev.drcState = drcReady ∧ s.dev.drc.held = [] →
      s.dev.drc.reads = [r] ∧ s.dev.drc.writes = [] ∧ r.write = false →
      s.dev.chOf r = ch.val →
      (∀ b : Fin 16, sparseGet [] s.dev.drc.targets (16 * ch + b) = []) →
      Gives (.drcSchedule ch cycle) s fun d => d.drc.reads = [] ∧ d.drc.inflight = s.dev.drc.inflight ++ [r] ∧
      sparseGet 0 d.drc.openRow (locate s.dev.ranks r.addr).bankKey = (locate s.dev.ranks r.addr).row + 1 ∧
      d.dram = s.dev.dram ∧ d.dramChk = s.dev.dramChk) ∧
  (∀ (r : DrcReq) (s : State),
      s.dev.drcState = drcReady ∧ s.dev.drc.held = [] →
      s.dev.drc.inflight = [r] ∧ s.dev.chOf r = 0 →
      (∀ k : Fin 4, judgeHalf (syndromes (s.dev.storedWord (4 * r.line + k)).1 (s.dev.storedWord (4 * r.line + k)).2).1 = .clean ∧
      judgeHalf (syndromes (s.dev.storedWord (4 * r.line + k)).1 (s.dev.storedWord (4 * r.line + k)).2).2 = .clean) →
      Gives (.drcReadComplete (some []) none) s fun d => d.drc.inflight = [] ∧ d.error = false ∧
      d.answer = (((memRead s.dev.dram (64 * r.line) 64).drop (r.addr % 64)).take r.len)) ∧
  (∀ (flips : List Nat) (s : State),
      0 < s.dev.queued (locate s.dev.ranks (64 * s.dev.fg .DRC_SCRUB_POS)).ch false →
      Becomes (.scrubRead flips) s s.dev) ∧
  (∀ (s : State),
      s.dev.drcState = drcReady ∧ s.dev.is .DRC_CTL_SCRUB_EN = true ∧ s.dev.drc.reads = [] ∧ s.dev.drc.writes = [] →
      64 * (s.dev.fg .DRC_SCRUB_POS + 2) ≤ s.dev.visible →
      (∀ k : Fin 4, judgeHalf (syndromes (s.dev.storedWord (4 * s.dev.fg .DRC_SCRUB_POS + k)).1 (s.dev.storedWord (4 * s.dev.fg .DRC_SCRUB_POS + k)).2).1 = .clean ∧
      judgeHalf (syndromes (s.dev.storedWord (4 * s.dev.fg .DRC_SCRUB_POS + k)).1 (s.dev.storedWord (4 * s.dev.fg .DRC_SCRUB_POS + k)).2).2 = .clean) →
      Gives (.scrubRead []) s fun d => d.fg .DRC_SCRUB_POS = s.dev.fg .DRC_SCRUB_POS + 1 ∧ d.drcState = drcReady ∧
      d.rd .DRC_CNT_CE = s.dev.rd .DRC_CNT_CE) ∧
  (∀ (s : State),
      s.dev.is .DRC_TEST_CTL_EN = true ∧ (s.dev.mode = 6 ∨ s.dev.mode = 7) →
      16 * s.dev.fg .DRC_TEST_ADDR < s.dev.visible ∧ s.dev.drc.writes = [] →
      Gives .rawWrite s fun d => d.fg .DRC_TEST_CTL_DONE = 1 ∧ d.storedWord (s.dev.fg .DRC_TEST_ADDR) =
      (((List.range 4).map fun k => s.dev.fg .DRC_TEST_DATA k <<< (32 * k)).sum, s.dev.fg .DRC_TEST_CHK_CHK) ∧
      (∀ a : Nat, a < 16 * s.dev.fg .DRC_TEST_ADDR ∨ 16 * s.dev.fg .DRC_TEST_ADDR + 16 ≤ a → memRead d.dram a 1 = memRead s.dev.dram a 1) ∧
      Changes [Reg.DRC_TEST_CTL.key 0 0] s.dev d { s.dev with dram := d.dram, dramChk := d.dramChk }) ∧
  (∀ (s : State),
      s.dev.is .DRC_TEST_CTL_EN = true ∧ (s.dev.mode = 6 ∨ s.dev.mode = 7) →
      16 * s.dev.fg .DRC_TEST_ADDR < s.dev.visible ∧ s.dev.drc.writes = [] →
      Gives .rawRead s fun d => d.fg .DRC_TEST_CTL_DONE = 1 ∧
      (∀ k : Fin 4, d.fg .DRC_TEST_DATA k = bitsOf (s.dev.storedWord (s.dev.fg .DRC_TEST_ADDR)).1 (32 * k) 32) ∧
      d.fg .DRC_TEST_CHK_CHK = (s.dev.storedWord (s.dev.fg .DRC_TEST_ADDR)).2 ∧ d = { s.dev with regs := d.regs }) ∧
  (∀ (req : Fin 16) (second : Bool) (s : State),
      2 * req.val + bit second ∉ s.dev.fbc.urgent →
      ((s.dev.drc.held.any fun r => r.port == 2 * req.val + bit second) = true) →
      Becomes (.requestUrgent req second) s
      ({ s.dev with fbc := { s.dev.fbc with urgent := s.dev.fbc.urgent ++ [2 * req.val + bit second] } }.bump .FBC_CNT_URGENT))

/-- REFRESH_DUE at an awake rank owing 15 makes one all-bank refresh that leaves 8 owed. MR4_POLL takes the hottest code of each
rank, and code 7 sets HOT. RH_TABLE_CLEAR clears exactly the tables. AUTO_SELF_REFRESH puts an idle rank to sleep. DEEP with
nothing queued enters deep self-refresh, and DEEP_SR_EXIT leaves it READY. DRC_TRAINING without a failure makes the DRC READY,
and with one keeps it in TRAINING with TRN_FAIL. ZQ_CALIBRATION keeps exactly its time; DQS_OSC_CHECK moves the die's delay
exactly when the count has moved by more than 1/64. (R371, R372, R373, R376, R377, R378, R379, R380, R381.) -/
def Obligations.DramUpkeep : Prop :=
  (∀ (ch rank : Fin 2) (s : State),
      rank.val < s.dev.ranks ∧ s.dev.drcState = drcReady ∧ s.dev.drc.asleep.contains (2 * ch.val + rank.val) = false →
      sparseGet 0 s.dev.drc.debt (2 * ch.val + rank.val) = 15 →
      Gives (.refreshDue ch rank) s fun d => sparseGet 0 d.drc.debt (2 * ch.val + rank.val) = 8 ∧ sparseGet 0 d.drc.round (2 * ch.val + rank.val) = 0 ∧
      (∀ b : Fin 8, sparseGet 0 d.drc.openRow (8 * (2 * ch.val + rank.val) + b.val) = 0) ∧
      Changes [Reg.DRC_CNT_REFFORCE.key 0 0] s.dev d { s.dev with drc := d.drc }) ∧
  (∀ (ch rank : Fin 2) (s : State),
      rank.val < s.dev.ranks ∧ s.dev.drcState = drcReady ∧ s.dev.drc.asleep.contains (2 * ch.val + rank.val) = false →
      sparseGet 0 s.dev.drc.debt (2 * ch.val + rank.val) = 0 ∧ sparseGet 0 s.dev.drc.round (2 * ch.val + rank.val) = 0 →
      s.dev.drc.reads = [] ∧ s.dev.drc.writes = [] →
      Gives (.refreshDue ch rank) s fun d => sparseGet 0 d.drc.debt (2 * ch.val + rank.val) = 0 ∧ sparseGet 0 d.drc.round (2 * ch.val + rank.val) = 1 ∧
      d = { s.dev with drc := d.drc }) ∧
  (∀ (a b : Nat) (s : State),
      s.dev.drcState = drcReady ∧ s.dev.ranks = 1 →
      a < 7 ∧ b < 7 →
      Gives (.mr4Poll [a, b] []) s fun d => d.fg .DRC_REF_MULT0 = (if a < b then b else a) ∧ Changes [Reg.DRC_REF.key 0 0] s.dev d s.dev) ∧
  (∀ (s : State),
      Becomes .rhTableClear s { s.dev with drc := { s.dev.drc with hammer := [] } }) ∧
  (∀ (ch rank : Fin 2) (s : State),
      s.dev.drcState = drcReady ∧ s.dev.is .DRC_PWR_AUTO_SR = true ∧ rank.val < s.dev.ranks →
      s.dev.drc.reads = [] ∧ s.dev.drc.writes = [] ∧ s.dev.drc.inflight = [] →
      s.dev.drc.asleep.contains (2 * ch.val + rank.val) = false →
      Gives (.autoSelfRefresh ch rank) s fun d => (2 * ch.val + rank.val) ∈ d.drc.asleep ∧ sparseGet 0 d.drc.debt (2 * ch.val + rank.val) = 0 ∧
      d = { s.dev with drc := d.drc }) ∧
  (∀ (s : State),
      s.dev.drcState = drcReady ∧ s.dev.drc.reads = [] ∧ s.dev.drc.writes = [] ∧ s.dev.drc.inflight = [] →
      Gives .deep s fun d => d.drcState = 3 ∧ d.fg .DRC_PWR_DEEP = 1 ∧ d.drc.debt = [] ∧
      Changes [Reg.DRC_STAT.key 0 0, Reg.DRC_PWR.key 0 0] s.dev d { s.dev with drc := d.drc }) ∧
  (∀ (s : State),
      s.dev.drcState = 3 ∧ s.dev.drc.held = [] →
      Gives (.deepSrExit []) s fun d => d.drcState = drcReady ∧ d.fg .DRC_PWR_DEEP = 0 ∧ d.drc = { s.dev.drc with zq := s.dev.qtime }) ∧
  (∀ (counts : List Nat) (s : State),
      s.dev.drcState = 1 ∧ s.dev.is .DRC_STAT_TRN_FAIL = false ∧ s.dev.drc.held = [] →
      Gives (.drcTraining none counts) s fun d => d.drcState = drcReady ∧ d.drc.trained = d.drc.delay ∧
      (∀ k : Fin 8, k.val < counts.length → sparseGet 0 d.drc.trained k = counts.getD k 0) ∧
      Changes [Reg.DRC_STAT.key 0 0] s.dev d { s.dev with drc := d.drc }) ∧
  (∀ (ch : Fin 4) (step : Fin 5) (counts : List Nat) (s : State),
      s.dev.drcState = 1 ∧ s.dev.is .DRC_STAT_TRN_FAIL = false →
      Gives (.drcTraining (some (ch, step)) counts) s fun d => d.drcState = 1 ∧ d.is .DRC_STAT_TRN_FAIL = true ∧ d.fg .DRC_TRN_STEP = step.val ∧
      Changes [Reg.DRC_STAT.key 0 0, Reg.DRC_TRN.key 0 0] s.dev d s.dev) ∧
  (∀ (s : State),
      s.dev.drcState = drcReady →
      Becomes .zqCalibration s { s.dev with drc := { s.dev.drc with zq := s.dev.qtime } }) ∧
  (∀ (die : Fin 8) (count : Nat) (s : State),
      s.dev.drcState = drcReady →
      Gives (.dqsOscCheck die count) s fun d =>
      sparseGet 0 d.drc.delay die = (if sparseGet 0 s.dev.drc.trained die < 64 * ((count : Int) - sparseGet 0 s.dev.drc.trained die).natAbs then count
      else sparseGet 0 s.dev.drc.delay die) ∧ d = { s.dev with drc := { s.dev.drc with delay := d.drc.delay } })

/-- CACHE_WRITE then CACHE_READ of a line that the cache holds gives the bytes written. CACHE_READ of a held line answers its
bytes and, unless it is a discard read, keeps it. A refused requester gets exactly an error response. PREFETCH without TRIG
changes nothing; with enough reads counted, a line of its range that the cache holds is not fetched again. CLEAN and CLEAN_ALL
leave a held dirty line held and INVALIDATE drops it without write-back; while BUSY each sets exactly CMD_ERR. PRELOAD of an
unlocked way sets exactly CMD_ERR. CACHE_RESET_INVALIDATE leaves no line. (R388, R395, R397, R399, R401, R405, R406, R407.) -/
def Obligations.CacheOperations : Prop :=
  (∀ (req : Fin 16) (addr len : Nat) (way : Nat) (s : State),
      s.dev.refuses req = false ∧ s.dev.is .FBC_CTL_EN = true ∧ s.dev.is .FBC_STAT_BUSY = false →
      s.dev.hit (addr / 64) = some way →
      Gives (.cacheRead req addr len false 0) s fun d => d.error = false ∧
      d.answer = ((s.dev.way (setOf (addr / 64)) way).data.drop (addr % 64)).take len ∧ d.fbc.lines = s.dev.fbc.lines ∧
      d = { s.dev with fbc := { s.dev.fbc with rdNext := d.fbc.rdNext, rdCount := d.fbc.rdCount }, answer := d.answer, error := false }) ∧
  (∀ (req : Fin 16) (addr : Nat) (data : List (BitVec 8)) (way : Nat) (idle : Bool) (s : State),
      s.dev.refuses req = false ∧ s.dev.is .FBC_CTL_EN = true ∧ s.dev.is .FBC_STAT_BUSY = false →
      s.dev.hit (addr / 64) = some way →
      addr % 64 + data.length ≤ 64 ∧ (s.dev.way (setOf (addr / 64)) way).data.length = 64 →
      Gives (.cacheWrite req addr data 0 idle) s fun d => d.error = false ∧ (d.way (setOf (addr / 64)) way).dirty = true ∧
      ((d.way (setOf (addr / 64)) way).data.drop (addr % 64)).take data.length = data ∧
      (d.way (setOf (addr / 64)) way).data.take (addr % 64) = (s.dev.way (setOf (addr / 64)) way).data.take (addr % 64) ∧
      (d.way (setOf (addr / 64)) way).data.length = 64 ∧ d = { s.dev with fbc := d.fbc, error := false }) ∧
  (∀ (req : Fin 16) (addr len : Nat) (discard : Bool) (err : Fin 4) (s : State),
      s.dev.refuses req = true →
      Becomes (.cacheRead req addr len discard err) s { s.dev with error := true }) ∧
  (∀ (req : Fin 16) (addr : Nat) (data : List (BitVec 8)) (err : Fin 4) (idle : Bool) (s : State),
      s.dev.refuses req = true →
      Becomes (.cacheWrite req addr data err idle) s { s.dev with error := true }) ∧
  (∀ (req : Fin 16) (addr : Nat) (data : List (BitVec 8)) (way : Nat) (idle : Bool) (s : State),
      s.dev.refuses req = false ∧ s.dev.is .FBC_CTL_EN = true ∧ s.dev.is .FBC_STAT_BUSY = false →
      s.dev.hit (addr / 64) = some way →
      addr % 64 + data.length ≤ 64 ∧ (s.dev.way (setOf (addr / 64)) way).data.length = 64 →
      ∃ t, exec (.cacheWrite req addr data 0 idle) s = .next t ∧ ∃ u, exec (.cacheRead req addr data.length false 0) t = .next u ∧ u.dev.answer = data) ∧
  (∀ (req : Fin 16) (s : State),
      s.dev.is .FBC_CTL_EN = true ∧ s.dev.drcState = drcReady →
      0 < s.dev.fg .FBC_PF_TRIG ∧ s.dev.fg .FBC_PF_TRIG ≤ sparseGet 0 s.dev.fbc.rdCount req ∧ 0 < sparseGet 0 s.dev.fbc.rdNext req →
      s.dev.fg .FBC_PF_DEPTH = 1 ∧ 64 * sparseGet 0 s.dev.fbc.rdNext req ≤ s.dev.visible →
      s.dev.hit (sparseGet 0 s.dev.fbc.rdNext req - 1) = none ∧ s.dev.fbc.side = [] →
      Gives (.prefetch req) s fun d => let r := dramRead req (sparseGet 0 s.dev.fbc.rdNext req - 1) s.dev
      d = match r.1 with
      | some b => { r.2 with fbc := { r.2.fbc with side := ((sparseGet 0 s.dev.fbc.rdNext req - 1, b) :: r.2.fbc.side).take 32 } }
      | none => r.2) ∧
  (∀ (s : State),
      s.dev.is .FBC_STAT_BUSY = false →
      s.dev.fg .FBC_CMD_LEN = 1 →
      (s.dev.hit (s.dev.fg .FBC_CMD_ADDR)).isSome = true →
      Gives .clean s fun d => d = (writeBack 13 (setOf (s.dev.fg .FBC_CMD_ADDR)) ((s.dev.hit (s.dev.fg .FBC_CMD_ADDR)).getD 0) s.dev).2) ∧
  (∀ (line way : Nat) (s : State),
      s.dev.is .FBC_STAT_BUSY = false →
      s.dev.fg .FBC_CMD_LEN = 1 ∧ s.dev.fg .FBC_CMD_ADDR = line →
      s.dev.hit line = some way →
      Gives .invalidate s fun d => d.way (setOf line) way = {} ∧ d.dram = s.dev.dram ∧
      (∀ k : Fin 16, k.val ≠ way → d.way (setOf line) k = s.dev.way (setOf line) k) ∧ d = { s.dev with fbc := { s.dev.fbc with lines := d.fbc.lines } }) ∧
  (∀ (c : Instr) (way : Fin 16) (s : State),
      c ∈ [Instr.clean, .invalidate, .cleanAll, .preload way] →
      s.dev.is .FBC_STAT_BUSY = true →
      Becomes c s (s.dev.fs .FBC_STAT_CMD_ERR 1)) ∧
  (∀ (way : Fin 16) (s : State),
      s.dev.is .FBC_STAT_BUSY = false →
      s.dev.locked way = true ∧ s.dev.fg .FBC_CMD_LEN = 1 ∧ s.dev.cacheFrozen = false →
      s.dev.hit (s.dev.fg .FBC_CMD_ADDR) = none →
      (dramRead 13 (s.dev.fg .FBC_CMD_ADDR) s.dev).1.isSome = true →
      ((dramRead 13 (s.dev.fg .FBC_CMD_ADDR) s.dev).2.way (setOf (s.dev.fg .FBC_CMD_ADDR)) way).valid = false →
      Gives (.preload way) s fun d => let l := d.way (setOf (s.dev.fg .FBC_CMD_ADDR)) way
      l.valid = true ∧ l.dirty = false ∧ l.tag = tagOf (s.dev.fg .FBC_CMD_ADDR) ∧ some l.data = (dramRead 13 (s.dev.fg .FBC_CMD_ADDR) s.dev).1) ∧
  (∀ (way : Fin 16) (s : State),
      s.dev.is .FBC_STAT_BUSY = false →
      s.dev.locked way = false →
      Becomes (.preload way) s (s.dev.fs .FBC_STAT_CMD_ERR 1)) ∧
  (∀ (s : State),
      s.dev.is .FBC_STAT_BUSY = false →
      (∀ e ∈ s.dev.fbc.lines, e.2.dirty = false) →
      Becomes .cleanAll s s.dev) ∧
  (∀ (s : State),
      s.dev.is .FBC_STAT_BUSY = true →
      Gives .cacheResetInvalidate s fun d => d.fbc.lines = [] ∧ d.fbc.side = [] ∧ d.fg .FBC_STAT_BUSY = 0 ∧
      Changes [Reg.FBC_STAT.key 0 0] s.dev d { s.dev with fbc := {} })

/-- RJ_SUBMIT to an open journal with room joins the queue stamped with the Quire time; to a journal that takes none it is exactly
an error response. RJ_RECORD_WRITE whose compares succeed leaves the record, with its SEQ, its stamp and its CRC, in its slot
of both banks, advances SEQ and the ring's head by one and counts the record, and every other slot of both rings keeps its
bytes; a main-ring record that would write the kept slot waits, setting exactly FULL. A bank whose first row fails twice with
no spare left leaves BANK_OK and sets DEGRADED, and the other bank holds the record. RJ_RECORD_READ of a good copy in bank 0
answers it and changes nothing else; where only bank 1's copy is good it answers that one and sets exactly RD_ALT. (R411,
R412, R413, R415, R416, R417, R418, R420.) -/
def Obligations.JournalRecords : Prop :=
  (∀ (event : Bool) (data : List (BitVec 8)) (s : State),
      s.dev.journalOpen = true →
      s.dev.journal.queue.length < 8 ∧ s.dev.journal.waiting = [] →
      Gives (.rjSubmit event data) s fun d =>
      d.journal = { s.dev.journal with queue := s.dev.journal.queue ++ [{ event := event, bytes := takeFill 0#8 64 data, qtime := s.dev.qtime }] } ∧
      Changes [Reg.RJ_STAT.key 0 0] s.dev d { s.dev with journal := d.journal, error := false }) ∧
  (∀ (event : Bool) (data : List (BitVec 8)) (s : State),
      s.dev.journalOpen = false →
      Becomes (.rjSubmit event data) s { s.dev with error := true }) ∧
  (∀ (x : Submission) (rest : List Submission) (slot : Nat) (s : State),
      s.dev.journalOpen = true ∧ s.dev.fg .RJ_STAT_BANK_OK = 3 →
      s.dev.journal.queue = x :: rest ∧ s.dev.journal.waiting = [] →
      x.event = true ∨ s.dev.ringFull = false →
      (slot = (if x.event then s.dev.fg .RJ_HEAD_EHEAD else s.dev.fg .RJ_HEAD_HEAD)) →
      (slot < (if x.event then eventSlots else mainSlots)) →
      recordType (recordBytes s.dev.nextSeq x.qtime x.bytes) ∉ [0x01, 0x02, 0x08, 0x0B] →
      Gives (.rjRecordWrite [] []) s fun d =>
      d.journal.recordIn 0 x.event slot = recordBytes s.dev.nextSeq x.qtime x.bytes ∧
      d.journal.recordIn 1 x.event slot = recordBytes s.dev.nextSeq x.qtime x.bytes ∧
      recordOk (d.journal.recordIn 0 x.event slot) = true ∧
      d.nextSeq = (s.dev.nextSeq + 1) % 2 ^ 48 ∧
      (if x.event then d.fg .RJ_HEAD_EHEAD = (slot + 1) % eventSlots ∧ d.fg .RJ_HEAD_HEAD = s.dev.fg .RJ_HEAD_HEAD
      else d.fg .RJ_HEAD_HEAD = (slot + 1) % mainSlots ∧ d.fg .RJ_HEAD_EHEAD = s.dev.fg .RJ_HEAD_EHEAD) ∧
      d.rd .RJ_CNT_REC = BitVec.ofNat 32 (limitN 0 0xFFFFFFFF ((s.dev.rd .RJ_CNT_REC).toNat + 1)) ∧
      d.journal.queue = rest ∧ d.journal.held = s.dev.journal.held ∧
      Changes [Reg.RJ_STAT.key 0 0, Reg.RJ_HEAD.key 0 0, Reg.RJ_SEQ_LO.key 0 0, Reg.RJ_SEQ_HI.key 0 0, Reg.RJ_CNT_REC.key 0 0] s.dev d
      { s.dev with journal := { s.dev.journal with queue := rest, rows := d.journal.rows }, fw := { s.dev.fw with rjTotals := s.dev.fw.rjTotals.modify 0 (· + 1) } }) ∧
  (∀ (x : Submission) (rest : List Submission) (slot : Nat) (event : Bool) (i : Nat) (bank : Fin 2) (s : State),
      s.dev.journalOpen = true ∧ s.dev.fg .RJ_STAT_BANK_OK = 3 →
      s.dev.journal.queue = x :: rest →
      x.event = true ∨ s.dev.ringFull = false →
      (slot = (if x.event then s.dev.fg .RJ_HEAD_EHEAD else s.dev.fg .RJ_HEAD_HEAD)) →
      (slot < (if x.event then eventSlots else mainSlots) ∧ i < (if event then eventSlots else mainSlots)) →
      (event, i) ≠ (x.event, slot) →
      Gives (.rjRecordWrite [] []) s fun d => d.journal.recordIn bank event i = s.dev.journal.recordIn bank event i) ∧
  (∀ (x : Submission) (rest : List Submission) (s : State),
      s.dev.journal.queue = x :: rest ∧ x.event = false →
      s.dev.ringFull = true →
      Becomes (.rjRecordWrite [] []) s (s.dev.fs .RJ_STAT_FULL 1)) ∧
  (∀ (x : Submission) (rest : List Submission) (s : State),
      s.dev.journalOpen = true ∧ s.dev.fg .RJ_STAT_BANK_OK = 3 ∧ s.dev.fg .RJ_SPARE_USED0 = 512 →
      s.dev.journal.queue = x :: rest →
      x.event = true →
      s.dev.fg .RJ_HEAD_EHEAD < eventSlots →
      Gives (.rjRecordWrite [true, true] []) s fun d => d.fg .RJ_STAT_BANK_OK = 2 ∧ d.is .RJ_STAT_DEGRADED = true ∧ d.is .RJ_STAT_FAILED = false ∧
      d.journal.recordIn 1 true (s.dev.fg .RJ_HEAD_EHEAD) = recordBytes s.dev.nextSeq x.qtime x.bytes) ∧
  (∀ (event : Bool) (slot : Nat) (s : State),
      (slot < (if event then eventSlots else mainSlots)) →
      s.dev.bankOk 0 = true ∧ recordOk (s.dev.journal.recordIn 0 event slot) = true →
      Becomes (.rjRecordRead event slot) s { s.dev with answer := s.dev.journal.recordIn 0 event slot }) ∧
  (∀ (event : Bool) (slot : Nat) (s : State),
      (slot < (if event then eventSlots else mainSlots)) →
      s.dev.bankOk 0 = false ∧ s.dev.bankOk 1 = true →
      recordOk (s.dev.journal.recordIn 1 event slot) = true →
      Becomes (.rjRecordRead event slot) s { (s.dev.fs .RJ_STAT_RD_ALT 1) with answer := s.dev.journal.recordIn 1 event slot })

/-- RJ_STAGE_FROST to an open journal keeps exactly the payload's 44 bytes, and to another is exactly an error response. RJ_SEAL
of a journal that seals, with no record in progress and no failing compare, leaves the FROST record with the staged payload in
the kept slot of both banks, SEALED set, the queue empty and the waiting records kept for the thaw; of a journal that is not
sealing it changes nothing. JOURNAL_LOW_SPACE with room enough changes nothing; with less and no disc loaded it moves RJ_TAIL
to the oldest record that must be kept, or to one before the head. MAP_CHECKPOINT without a loaded writable disc, or with a
checkpoint under way, changes nothing; with one side to record and no mapped LSN it begins that side's checkpoint, its index
sheet planned in the next free slot of the side's area; on a Class W side whose area is full it begins none. (R417, R423,
R424, R684.) -/
def Obligations.JournalUpkeep : Prop :=
  (∀ (data : List (BitVec 8)) (s : State),
      s.dev.journalOpen = true →
      Becomes (.rjStageFrost data) s { s.dev with journal := { s.dev.journal with staged := ((takeFill 0#8 64 data).drop 16).take 44 }, error := false }) ∧
  (∀ (data : List (BitVec 8)) (s : State),
      s.dev.journalOpen = false →
      Becomes (.rjStageFrost data) s { s.dev with error := true }) ∧
  (∀ (s : State),
      s.dev.journal.sealing = true ∧ s.dev.fg .RJ_STAT_BANK_OK = 3 ∧ s.dev.is .RJ_STAT_FAILED = false →
      Gives (.rjSeal false [] [] [] []) s fun d =>
      let b := recordBytes s.dev.nextSeq s.dev.qtime (takeFill 0#8 6 [] ++ leBytes 1 0x0E ++ leBytes 1 0 ++ takeFill 0#8 8 [] ++ takeFill 0#8 44 s.dev.journal.staged)
      d.journal.recordIn 0 false s.dev.keptSlot = b ∧ d.journal.recordIn 1 false s.dev.keptSlot = b ∧
      d.is .RJ_STAT_SEALED = true ∧ d.is .RJ_STAT_FULL = false ∧ d.fg .RJ_HEAD_HEAD = s.dev.fg .RJ_HEAD_HEAD ∧
      d.nextSeq = (s.dev.nextSeq + 1) % 2 ^ 48 ∧
      d = { s.dev with
      regs := d.regs
      fw := { s.dev.fw with rjTotals := s.dev.fw.rjTotals.modify 0 (· + 1) }
      journal := { s.dev.journal with rows := d.journal.rows, queue := [], waiting := [], held := s.dev.journal.held ++ s.dev.journal.queue ++ s.dev.journal.waiting, sealing := false } }) ∧
  (∀ (begun : Bool) (a b c e : List Bool) (s : State),
      s.dev.journal.sealing = false →
      Becomes (.rjSeal begun a b c e) s s.dev) ∧
  (∀ (s : State),
      4096 ≤ s.dev.freeSlots →
      Becomes .journalLowSpace s s.dev) ∧
  (∀ (s : State),
      s.dev.freeSlots < 4096 ∧ s.dev.fw.disc.loaded = false →
      Gives .journalLowSpace s fun d => let l := s.dev.mainByAge
      d.fg .RJ_TAIL = (((l.find? fun e => s.dev.mustKeep (l.map (·.2)) e.2).map (·.1)).getD ((s.dev.fg .RJ_HEAD_HEAD + mainSlots - 1) % mainSlots)) ∧
      Changes [Reg.RJ_TAIL.key 0 0, Reg.RJ_STAT.key 0 0] s.dev d { s.dev with journal := d.journal } ∧ d.journal.rows = s.dev.journal.rows) ∧
  (∀ (closed : Bool) (s : State),
      s.dev.fw.disc.loaded = false ∨ s.dev.fw.disc.readOnly = true →
      Becomes (.mapCheckpoint closed) s s.dev) ∧
  (∀ (closed : Bool) (s : State),
      s.dev.fw.cpRuns ≠ [] →
      Becomes (.mapCheckpoint closed) s s.dev) ∧
  (∀ (closed : Bool) (side : Fin 2) (n : Nat) (s : State),
      s.dev.fw.disc.loaded = true ∧ s.dev.fw.disc.readOnly = false ∧ s.dev.fw.cpRuns = [] →
      ((s.dev.recordSides.filter fun x => !(s.dev.recorders x).isEmpty) = [side.val] ∧ s.dev.fw.map = []) →
      s.dev.classE = true ∨ sparseGet 0 s.dev.fw.cpNext side < cpSlots →
      cpSeek s.dev side cpSlots (sparseGet 0 s.dev.fw.cpNext side) = some n →
      s.dev.dramChk = [] ∧ s.dev.drc.writes = [] →
      Gives (.mapCheckpoint closed) s fun d => d.fw.dirty = [] ∧ d.fw.cpSeq = (s.dev.fw.cpSeq + 1) % 2 ^ 64 ∧
      d.fw.cpRuns = [{ side := side, seq := (s.dev.fw.cpSeq + 1) % 2 ^ 64, absorb := s.dev.absorbSeq, closed := closed, index := true }] ∧
      (∃ v ∈ d.fw.versions, v.cp = some (side.val, cpIndex) ∧ v.psa = some (cpPsa side n))) ∧
  (∀ (closed : Bool) (side : Fin 2) (s : State),
      s.dev.fw.disc.loaded = true ∧ s.dev.fw.disc.readOnly = false ∧ s.dev.fw.cpRuns = [] →
      ((s.dev.recordSides.filter fun x => !(s.dev.recorders x).isEmpty) = [side.val]) →
      s.dev.classE = false ∧ cpSlots ≤ sparseGet 0 s.dev.fw.cpNext side ∧ s.dev.fw.cpFull = [] →
      Gives (.mapCheckpoint closed) s fun d => d.fw.cpFull = [side.val] ∧ d.fw.cpRuns = [] ∧ d.fw.versions = s.dev.fw.versions ∧ d.dram = s.dev.dram)

/-- TS_GO to a BUSY set sets exactly IGNORED. While acceptance is held the command is latched with the next number, its 64 bytes,
its home head and its reply address, waits, and the set is BUSY. A POLL on an idle unit is accepted with its stream's next
SSEQ; an unknown opcode ends with CLASS 3, DETAIL 1, a poisoned command with CLASS 6, DETAIL 7. TS_REPLY_POST of an ended
command puts the 32 bytes of its reply into host memory and the reply registers, sets VALID, clears BUSY, advances RSEQ and
forgets the command, and leaves every other byte of host memory; with no ended command it changes nothing. (R444, R445, R446,
R448, R459, R467, R477, R547.) -/
def Obligations.TaskSets : Prop :=
  (∀ (stream : Fin 16) (home : Fin 2) (poisoned : Bool) (s : State),
      s.dev.is .HP_TS_STATE_BUSY stream = true →
      Becomes (.tsGo stream home poisoned) s (s.dev.fs .HP_TS_STATE_IGNORED 1 stream)) ∧
  (∀ (stream : Fin 16) (home : Fin 2) (s : State),
      s.dev.is .HP_TS_STATE_BUSY stream = false ∧ s.dev.acceptHeld = true →
      (s.dev.running = [] ∧ (s.dev.fw.cmds.any fun q => q.queue && q.stream == stream.val) = false) →
      Becomes (.tsGo stream home false) s { s.dev.fs .HP_TS_STATE_BUSY 1 stream with
      fw := { s.dev.fw with
      nextCmd := s.dev.fw.nextCmd + 1
      cmds := s.dev.fw.cmds ++ [{ id := s.dev.fw.nextCmd, stream := stream, home := home, raddr := s.dev.raddr stream, vector := s.dev.fg .HP_TS_NOTE_VECTOR stream, bytes := (List.range 16).flatMap fun k => leBytes 4 (s.dev.rd .HP_TS_CMD stream k).toNat }] } }) ∧
  (∀ (stream : Fin 16) (home : Fin 2) (s : State),
      s.dev.is .HP_TS_STATE_BUSY stream = false ∧ s.dev.acceptHeld = false ∧ s.dev.fw.cmds = [] →
      s.dev.is .HP_TS_RADDR_LO_EN stream = false →
      (∀ k : Fin 16, s.dev.rd .HP_TS_CMD stream k = if k.val = 0 then 4#32 else 0#32) →
      Gives (.tsGo stream home false) s fun d => d.is .HP_TS_STATE_BUSY stream = true ∧
      (d.stream stream).ssq = ssqNext (s.dev.stream stream).ssq ∧
      d.fw.cmds = [{ id := s.dev.fw.nextCmd, stream := stream, home := home, vector := s.dev.fg .HP_TS_NOTE_VECTOR stream, bytes := takeFill 0#8 64 [4#8], ssq := (s.dev.stream stream).ssq, maxRung := s.dev.pageVal 1 stream 12 1, accepted := s.dev.qtime, limitMs := s.dev.pageVal 1 stream 8 4 }] ∧
      Changes [Reg.HP_TS_STATE.key stream 0] s.dev d { s.dev with fw := { s.dev.fw with cmds := d.fw.cmds, nextCmd := s.dev.fw.nextCmd + 1, streams := d.fw.streams } }) ∧
  (∀ (stream : Fin 16) (home : Fin 2) (op : Fin 256) (s : State),
      s.dev.is .HP_TS_STATE_BUSY stream = false ∧ s.dev.acceptHeld = false ∧ s.dev.fw.cmds = [] →
      s.dev.mode ≠ 7 ∧ (s.dev.stream stream).broken = none ∧ opFields op = none →
      (∀ k : Fin 16, s.dev.rd .HP_TS_CMD stream k = if k.val = 0 then BitVec.ofNat 32 op else 0#32) →
      Gives (.tsGo stream home false) s fun d => d.is .HP_TS_STATE_BUSY stream = true ∧
      d.fw.cmds.map (fun c => (c.id, c.stage, c.cls, c.detail, c.ssq)) = [(s.dev.fw.nextCmd, .ended, 3, 1, 0)] ∧ d.fw.ended = s.dev.fw.ended ++ [s.dev.fw.nextCmd] ∧
      Changes [Reg.HP_TS_STATE.key stream 0] s.dev d { s.dev with fw := { s.dev.fw with cmds := d.fw.cmds, nextCmd := s.dev.fw.nextCmd + 1, ended := d.fw.ended } }) ∧
  (∀ (stream : Fin 16) (home : Fin 2) (s : State),
      s.dev.is .HP_TS_STATE_BUSY stream = false ∧ s.dev.fw.cmds = [] →
      Gives (.tsGo stream home true) s fun d => d.is .HP_TS_STATE_BUSY stream = true ∧
      d.fw.cmds.map (fun c => (c.id, c.stage, c.cls, c.detail)) = [(s.dev.fw.nextCmd, .ended, 6, 7)] ∧ d.fw.ended = s.dev.fw.ended ++ [s.dev.fw.nextCmd]) ∧
  (∀ (stream : Fin 16) (begun : Bool) (c : Cmd) (a : Nat) (s : State),
      s.dev.fw.cmds = [c] ∧ c.stage = .ended ∧ c.queue = false ∧ c.stream = stream.val →
      c.raddr = some a ∧ c.flag 2 = false ∧ c.orphan = false ∧ c.opcode ≠ 8 ∧ c.page = none →
      s.dev.homeHere c = true ∧ s.dev.busMaster = true →
      s.dev.aon.restart = false ∧ s.dev.link.op = none ∧ s.dev.link.arrive = none →
      Gives (.tsReplyPost stream begun) s fun d => let rseq := (s.dev.fg .HP_TS_STATE_RSEQ stream + 1) % 2 ^ 16
      let b := replyBytes c rseq s.dev
      d.is .HP_TS_STATE_VALID stream = true ∧ d.is .HP_TS_STATE_BUSY stream = false ∧ d.fg .HP_TS_STATE_RSEQ stream = rseq ∧
      memRead d.hostMem a 32 = b ∧ (∀ k : Fin 8, d.rd .HP_TS_REPLY stream k = BitVec.ofNat 32 (leNat ((b.drop (4 * k)).take 4))) ∧
      (∀ x : Nat, x < a ∨ a + 32 ≤ x → memRead d.hostMem x 1 = memRead s.dev.hostMem x 1) ∧
      d.fw.cmds = [] ∧ Changes (Reg.HP_TS_STATE.key stream 0 :: (List.range 8).map fun k => Reg.HP_TS_REPLY.key stream k) s.dev d { s.dev with fw := { s.dev.fw with cmds := [], ended := s.dev.fw.ended.filter (· != c.id), versions := s.dev.fw.versions.filter fun v => v.stage != .mapped && v.stage != .gone }, hostMem := d.hostMem, host := { s.dev.host with sent := 0 }, link := { s.dev.link with barrier := s.dev.link.barrier.filter (· != c.id) } }) ∧
  (∀ (stream : Fin 16) (begun : Bool) (s : State),
      s.dev.tsEnded stream = none →
      Becomes (.tsReplyPost stream begun) s s.dev)

/-- QUEUE_ENABLE of a disabled queue enables it at its head, empty, with the vector given and RSEQ 1; while enabled it changes
exactly the vector. QUEUE_DISABLE with no command in progress disables it, and with one leaves it enabled and DRAINING.
DOORBELL sets exactly SQ_TAIL, or, with more than 32 entries, exactly DB_ERR, and without the queue nothing. QUEUE_ENTRY_FETCH
latches the entry at SQ_HEAD with its 64 bytes from the submission ring and advances SQ_HEAD; with no entry it changes
nothing. QUEUE_REPLY_POST puts the reply into the completion slot, advances CQ_TAIL and RSEQ; while its head may not master
the bus it waits. MSIX_UNMASK of a pending vector sends its message once and clears its pending bit. (R449, R450, R451, R452,
R453, R460.) -/
def Obligations.TagQueue : Prop :=
  (∀ (home : Fin 2) (val : DWord) (s : State),
      val.getLsbD 0 = true ∧ s.dev.is .HP_Q_CTL_EN = false →
      Gives (.queueEnable home val) s fun d => d.is .HP_Q_CTL_EN = true ∧ d.fg .HP_Q_CTL_HOME = home ∧ d.fg .HP_Q_CTL_VECTOR = bitsOf val.toNat 8 5 ∧
      d.fg .HP_Q_STAT_SQ_HEAD = 0 ∧ d.fg .HP_Q_STAT_CQ_TAIL = 0 ∧ d.fg .HP_Q_RSEQ_NEXT = 1 ∧ d.fg .HP_Q_SQ_TAIL = 0 ∧
      Changes [Reg.HP_Q_CTL.key 0 0, Reg.HP_Q_STAT.key 0 0, Reg.HP_Q_RSEQ.key 0 0, Reg.HP_Q_SQ_TAIL.key 0 0] s.dev d s.dev) ∧
  (∀ (home : Fin 2) (val : DWord) (s : State),
      val.getLsbD 0 = true ∧ s.dev.is .HP_Q_CTL_EN = true →
      Becomes (.queueEnable home val) s (s.dev.fs .HP_Q_CTL_VECTOR (bitsOf val.toNat 8 5))) ∧
  (∀ (val : DWord) (s : State),
      val.getLsbD 0 = false ∧ s.dev.queueBusy = false ∧ s.dev.is .HP_Q_CTL_EN = true →
      Gives (.queueDisable val) s fun d => d.is .HP_Q_CTL_EN = false ∧ d.is .HP_Q_CTL_DRAINING = false ∧
      d.fg .HP_Q_CTL_HOME = s.dev.fg .HP_Q_CTL_HOME ∧ Changes [Reg.HP_Q_CTL.key 0 0] s.dev d s.dev) ∧
  (∀ (val : DWord) (s : State),
      val.getLsbD 0 = false ∧ s.dev.queueBusy = true ∧ s.dev.is .HP_Q_CTL_EN = true →
      Gives (.queueDisable val) s fun d => d.is .HP_Q_CTL_EN = true ∧ d.is .HP_Q_CTL_DRAINING = true ∧ Changes [Reg.HP_Q_CTL.key 0 0] s.dev d s.dev) ∧
  (∀ (tail : Fin 64) (s : State),
      s.dev.is .HP_Q_CTL_EN = true ∧ s.dev.is .HP_Q_CTL_DRAINING = false →
      (tail.val + 64 - s.dev.fg .HP_Q_STAT_SQ_HEAD) % 64 ≤ 32 →
      s.dev.homeHere { home := s.dev.fg .HP_Q_CTL_HOME } = true →
      Becomes (.doorbell tail) s (s.dev.fs .HP_Q_SQ_TAIL tail)) ∧
  (∀ (tail : Fin 64) (s : State),
      s.dev.is .HP_Q_CTL_EN = true ∧ s.dev.is .HP_Q_CTL_DRAINING = false →
      32 < (tail.val + 64 - s.dev.fg .HP_Q_STAT_SQ_HEAD) % 64 →
      Becomes (.doorbell tail) s (s.dev.fs .HP_Q_STAT_DB_ERR 1)) ∧
  (∀ (tail : Fin 64) (s : State),
      s.dev.is .HP_Q_CTL_EN = false ∨ s.dev.is .HP_Q_CTL_DRAINING = true →
      Becomes (.doorbell tail) s s.dev) ∧
  (∀ (bytes : List (BitVec 8)) (s : State),
      s.dev.is .HP_Q_CTL_EN = true ∧ s.dev.is .HP_Q_CTL_DRAINING = false →
      s.dev.fg .HP_Q_STAT_SQ_HEAD ≠ s.dev.fg .HP_Q_SQ_TAIL ∧ s.dev.busMaster = true ∧ s.dev.link.fetch = [] →
      bytes = memRead s.dev.hostMem (s.dev.sqBase + 64 * (s.dev.fg .HP_Q_STAT_SQ_HEAD % 32)) 64 →
      s.dev.is .HP_TS_STATE_BUSY (leNat ((bytes.drop 4).take 1) % 16) = false ∧ s.dev.acceptHeld = true ∧ s.dev.running = [] →
      Becomes .queueEntryFetch s { s.dev.fs .HP_Q_STAT_SQ_HEAD ((s.dev.fg .HP_Q_STAT_SQ_HEAD + 1) % 64) with
      host := if s.dev.homeHere { home := s.dev.fg .HP_Q_CTL_HOME } then { s.dev.host with sent := 0 } else s.dev.host
      fw := { s.dev.fw with
      nextCmd := s.dev.fw.nextCmd + 1
      cmds := s.dev.fw.cmds ++ [{ id := s.dev.fw.nextCmd, queue := true, home := s.dev.fg .HP_Q_CTL_HOME, tag := s.dev.fg .HP_Q_STAT_SQ_HEAD % 32, bytes := bytes, stream := leNat ((bytes.drop 4).take 1) % 16, raddr := some s.dev.cqBase }] } }) ∧
  (∀ (s : State),
      s.dev.fg .HP_Q_STAT_SQ_HEAD = s.dev.fg .HP_Q_SQ_TAIL →
      Becomes .queueEntryFetch s s.dev) ∧
  (∀ (begun : Bool) (c : Cmd) (a : Nat) (s : State),
      s.dev.fw.cmds = [c] ∧ s.dev.fw.ended = [c.id] ∧ c.stage = .ended ∧ c.queue = true →
      c.flag 2 = false ∧ c.orphan = false ∧ c.opcode ≠ 8 ∧ c.page = none ∧ s.dev.homeHere c = true ∧ s.dev.busMaster = true →
      a = s.dev.cqBase + 32 * (s.dev.fg .HP_Q_STAT_CQ_TAIL % 32) →
      s.dev.aon.restart = false ∧ s.dev.link.op = none ∧ s.dev.link.arrive = none ∧ s.dev.is .HP_Q_CTL_DRAINING = false →
      Gives (.queueReplyPost begun) s fun d => memRead d.hostMem a 32 = replyBytes c (s.dev.fg .HP_Q_RSEQ_NEXT) s.dev ∧
      (∀ x : Nat, x < a ∨ a + 32 ≤ x → memRead d.hostMem x 1 = memRead s.dev.hostMem x 1) ∧
      d.fg .HP_Q_STAT_CQ_TAIL = (s.dev.fg .HP_Q_STAT_CQ_TAIL + 1) % 64 ∧ d.fg .HP_Q_RSEQ_NEXT = (s.dev.fg .HP_Q_RSEQ_NEXT + 1) % 2 ^ 16 ∧
      d.fw.cmds = [] ∧ d.fw.ended = [] ∧ Changes [Reg.HP_Q_STAT.key 0 0, Reg.HP_Q_RSEQ.key 0 0] s.dev d { s.dev with fw := { s.dev.fw with cmds := [], ended := s.dev.fw.ended.filter (· != c.id), versions := s.dev.fw.versions.filter fun v => v.stage != .mapped && v.stage != .gone }, hostMem := d.hostMem, host := { s.dev.host with sent := 0 }, link := { s.dev.link with barrier := s.dev.link.barrier.filter (· != c.id) } }) ∧
  (∀ (begun : Bool) (c : Cmd) (s : State),
      s.dev.queueEnded = some c ∧ s.dev.homeHere c = true ∧ c.orphan = false ∧ s.dev.busMaster = false →
      Becomes (.queueReplyPost begun) s s.dev) ∧
  (∀ (v : Fin 32) (s : State),
      s.dev.msixEnabled = true ∧ s.dev.busMaster = true ∧ s.dev.msixMasked = false →
      s.dev.fg .HP_PBA_PEND = 2 ^ v.val →
      Gives (.msixUnmask v) s fun d => d.fg .HP_PBA_PEND = 0 ∧ (d.rd .HP_MSIX v 3).getLsbD 0 = false ∧
      d.hostMem = memWrite s.dev.hostMem ((s.dev.rd .HP_MSIX v).toNat + (s.dev.rd .HP_MSIX v 1).toNat * 2 ^ 32) (leBytes 4 (s.dev.rd .HP_MSIX v 2).toNat) ∧
      Changes [Reg.HP_PBA.key 0 0, Reg.HP_MSIX.key v 3] s.dev d { s.dev with hostMem := d.hostMem, host := { s.dev.host with sent := 0 } }) ∧
  (∀ (v : Fin 32) (s : State),
      s.dev.fg .HP_PBA_PEND = 0 →
      Becomes (.msixUnmask v) s (s.dev.wr .HP_MSIX (BitVec.ofNat 32 (putBits (s.dev.rd .HP_MSIX v 3).toNat 0 1 0)) v 3))

/-- MEMBER_WINDOW_WRITE of a dword to this head's own window is that register's write; a write to another unit that cannot be
reached joins the forwarding buffer. MEMBER_WINDOW_READ of the own window answers its bytes; of a unit that cannot be reached,
as MEMBER_READ_TIMEOUT of a read that waits, all ones with RD_ALLONES; on a unit that is no head both are an error response.
UNREACHABLE_WRITE_DISCARD drops the held write, sets UNREACH and counts it. DMA_COMPLETION_ERROR ends the command with CLASS
6, DETAIL 7. HOST_RESET of this head clears exactly configuration space, the MSI-X table and its pending bits, the reads that
wait and the link, and orphans the commands homed there. CONFIGURATION_REQUEST is refused before t9, and after it reads and
writes a dword; HOST_LINK_UP records the active link of a unit with an address. (R432, R434, R436, R437, R459, R461, R532,
R627.) -/
def Obligations.WindowsAndConfiguration : Prop :=
  (∀ (a : Fin 64) (off : Fin 262144) (data : List (BitVec 8)) (s : State),
      s.dev.role ≠ 0 ∧ s.dev.d3 = false ∧ a.val = s.dev.addr →
      off.val % 4 = 0 ∧ data.length = 4 →
      Becomes (.memberWindowWrite a off data) s (winWrite (s.dev.role - 1) off 15 (BitVec.ofNat 32 (leNat data)) s.dev)) ∧
  (∀ (a : Fin 64) (k : Fin 64) (data : List (BitVec 8)) (s : State),
      s.dev.role ≠ 0 ∧ s.dev.d3 = false ∧ a.val = s.dev.addr →
      data.length = 4 ∧ s.dev.bootFailed = false →
      Becomes (.memberWindowWrite a ⟨0x3000 + 4 * k.val, by omega⟩ data) s (s.dev.wr .CLE_MBOX (BitVec.ofNat 32 (leNat data)) (64 + k.val))) ∧
  (∀ (a : Fin 64) (off : Fin 262144) (data : List (BitVec 8)) (s : State),
      s.dev.role ≠ 0 ∧ s.dev.d3 = false ∧ a.val ≠ s.dev.addr →
      s.dev.heldBytes + data.length ≤ 16384 ∧ s.dev.host.held = [] ∧ s.dev.route a = none →
      Becomes (.memberWindowWrite a off data) s { s.dev with host := { s.dev.host with held := [{ unit := a, off := off, data := data }] } }) ∧
  (∀ (a : Fin 64) (off : Fin 262144) (data : List (BitVec 8)) (len : Nat) (c : Instr) (s : State),
      s.dev.role = 0 ∨ s.dev.d3 = true →
      c ∈ [Instr.memberWindowWrite a off data, .memberWindowRead a off len] →
      Becomes c s { s.dev with error := true, answer := [] }) ∧
  (∀ (a : Fin 64) (off : Fin 262144) (len : Nat) (s : State),
      s.dev.role ≠ 0 ∧ s.dev.d3 = false ∧ off.val % 64 + len ≤ 64 ∧ a.val = s.dev.addr →
      Becomes (.memberWindowRead a off len) s { s.dev with answer := winBytes off len s.dev, error := false }) ∧
  (∀ (a : Fin 64) (off : Fin 262144) (len : Nat) (s : State),
      s.dev.role ≠ 0 ∧ s.dev.d3 = false ∧ off.val % 64 + len ≤ 64 ∧ a.val ≠ s.dev.addr →
      s.dev.route a = none →
      Becomes (.memberWindowRead a off len) s { ((s.dev.fs .HP_HC_STAT_RD_ALLONES 1).bump .HP_HC_CNT_RDTMO) with answer := List.replicate len 0xFF#8, error := false }) ∧
  (∀ (r : MemberRead) (rest : List MemberRead) (s : State),
      s.dev.host.reads = r :: rest →
      Becomes .memberReadTimeout s { ((s.dev.fs .HP_HC_STAT_RD_ALLONES 1).bump .HP_HC_CNT_RDTMO) with host := { s.dev.host with reads := rest }, answer := List.replicate r.len 0xFF#8, error := false }) ∧
  (∀ (h : HeldWrite) (s : State),
      s.dev.host.held = [h] ∧ s.dev.route h.unit = none →
      Becomes .unreachableWriteDiscard s { ((s.dev.fs .HP_HC_STAT_UNREACH 1).bump .HP_HC_CNT_DROP) with host := { s.dev.host with held := [] } }) ∧
  (∀ (id : Nat) (kind : Fin 4) (c : Cmd) (s : State),
      id ≠ 0 ∧ s.dev.cmd id = some c ∧ c.stage = .running ∧ c.opcode ≠ 0x11 →
      s.dev.homeHere c = true ∧ c.dlen ≠ 0 →
      Gives (.dmaCompletionError id kind) s fun d => (d.cmd id).map (fun c => (c.stage, c.cls, c.detail)) = some (.ended, 6, 7) ∧
      d.fw.ended = s.dev.fw.ended ++ [id] ∧ d.is .HP_HC_STAT_DMA_ERR = true ∧
      (sparseGet 0#32 d.host.cfg 0x104).getLsbD ([20, 15, 12, 14].getD kind 20) = true ∧
      Changes [Reg.HP_HC_STAT.key 0 0, Reg.HP_HC_CNT_DMAERR.key 0 0] s.dev d { s.dev with fw := { s.dev.fw with cmds := d.fw.cmds, ended := d.fw.ended }, host := { s.dev.host with cfg := d.host.cfg } }) ∧
  (∀ (head_ : Fin 2) (cause : Fin 4) (s : State),
      s.dev.isHead head_ = true ∧ cause.val ≠ 3 ∧ s.dev.link.fetch = [] ∧ s.dev.is .HP_Q_CTL_EN = false →
      Gives (.hostReset head_ cause) s fun d => d.fg .HP_PBA_PEND = 0 ∧ (∀ v : Fin 32, ∀ k : Fin 4, d.rd .HP_MSIX v k = Reg.resetAt .HP_MSIX v k) ∧
      (∀ c ∈ d.fw.cmds, c.home = head_.val → c.orphan = true) ∧ d.fw.cmds.length = s.dev.fw.cmds.length ∧
      Changes (Reg.HP_PBA.key 0 0 :: (List.range 32).flatMap fun v => (List.range 4).map fun k => Reg.HP_MSIX.key v k) s.dev d
      { s.dev with fw := { s.dev.fw with cmds := d.fw.cmds }, host := { s.dev.host with cfg := [], up := false, reads := [] } }) ∧
  (∀ (isWrite : Bool) (reg : Fin 1024) (be : Fin 16) (val : DWord) (s : State),
      s.dev.aon.reset = true ∨ s.dev.fg .CLK_BOOT_STAGE < 7 →
      Becomes (.configurationRequest isWrite reg be val false) s { s.dev with answer := [], error := true }) ∧
  (∀ (reg : Fin 1024) (be : Fin 16) (val : DWord) (late : Bool) (s : State),
      s.dev.aon.reset = false ∧ 7 ≤ s.dev.fg .CLK_BOOT_STAGE →
      Becomes (.configurationRequest false reg be val late) s { s.dev with answer := leBytes 4 (cfgRead (4 * reg) s.dev).toNat, error := false }) ∧
  (∀ (be : Fin 16) (val : DWord) (late : Bool) (s : State),
      s.dev.aon.reset = false ∧ 7 ≤ s.dev.fg .CLK_BOOT_STAGE ∧ sparseGet 0#32 s.dev.host.cfg 0 = 0#32 →
      Gives (.configurationRequest false 0 be val late) s fun d => d.answer = [0x57#8, 0x1E#8, 0x96#8, 0#8]) ∧
  (∀ (reg : Fin 1024) (val : DWord) (late : Bool) (s : State),
      s.dev.aon.reset = false ∧ 7 ≤ s.dev.fg .CLK_BOOT_STAGE ∧ s.dev.fg .HP_PBA_PEND = 0 →
      reg.val ≠ 0x11 ∧ reg.val ≠ 0x41 →
      Becomes (.configurationRequest true reg 15 val late) s { s.dev with
      error := false
      host := { s.dev.host with cfg := sparseSet 0#32 s.dev.host.cfg (4 * reg) (BitVec.ofNat 32 (((sparseGet 0#32 s.dev.host.cfg (4 * reg)).toNat &&& (2 ^ 32 - 1 - cfgMask (4 * reg))) ||| (val.toNat &&& cfgMask (4 * reg)))) } }) ∧
  (∀ (s : State),
      s.dev.bonded = true ∧ (s.dev.fg .PMU_STAT_ISL).testBit 1 = true ∧ s.dev.is .QL_STAT_ADDR_VALID = true →
      Becomes .hostLinkUp s { s.dev with host := { s.dev.host with up := true } })

/-- IDENTIFY writes exactly the unit or the disc page to host memory and ends with RESULT0 4,096. GET PAGE writes the page or its
default, an unknown page ends with CLASS 3, DETAIL 0x0B. SET PAGE of valid data ends with CLASS 0 and holds the page until its
reply is posted, which puts the merged page in force, and of a refused field ends with CLASS 3, DETAIL 0x0C and the field's
offset. POLL changes nothing but its own end, whose RESULT0 begins with the mode. ACKNOWLEDGE ATTENTION with the current ASEQ
clears exactly PEND and ATTN, with another nothing. GET LOG of the media log writes the header and the entries. On a command
that does not run, none of them changes anything. (R443, R471, R483, R489, R491, R492.) -/
def Obligations.StatusCommands : Prop :=
  (∀ (id : Nat) (c : Cmd) (s : State),
      s.dev.Doing id 0x01 c ∧ s.dev.HasData c ∧ c.dlen = 4096 →
      Becomes (.identify id) s (({ s.dev.sends (s.dev.dataAttr (c.flag 0) true) with hostMem := memWrite s.dev.hostMem c.dptr (if c.b24 = 0 then unitPage s.dev else discPage s.dev) } : Dev).endCmd id 0 0 4096)) ∧
  (∀ (id : Nat) (c : Cmd) (p : List (BitVec 8)) (s : State),
      s.dev.Doing id 0x02 c ∧ s.dev.HasData c →
      pageLength c.b24 ≠ 0 ∧ c.field 25 1 < pageScopes c.b24 ∧ p ≠ [] →
      (p = if (c.field 26 1).testBit 0 then pageDefault s.dev.smallBuffer c.b24 (c.field 25 1) else s.dev.page c.b24 (c.field 25 1)) →
      Becomes (.getPage id) s (({ s.dev.sends (s.dev.dataAttr (c.flag 0) true) with hostMem := memWrite s.dev.hostMem c.dptr (p.take c.dlen) } : Dev).endCmd id 0 0 (pageLength c.b24))) ∧
  (∀ (id : Nat) (c : Cmd) (s : State),
      s.dev.Doing id 0x02 c ∧ pageLength c.b24 = 0 →
      Becomes (.getPage id) s (s.dev.endCmd id 3 0x0B)) ∧
  (∀ (id : Nat) (c : Cmd) (s : State),
      s.dev.Doing id 0x03 c ∧ s.dev.HasData c ∧ pageLength c.b24 ≠ 0 →
      pageRefused s.dev c.b24 (c.field 25 1) (s.dev.hostData c) = none ∧ pageReserved s.dev.smallBuffer c.b24 (s.dev.hostData c) = true →
      Becomes (.setPage id) s (((s.dev.sends (s.dev.dataAttr (c.flag 0) false)).onCmd id fun x => { x with page := some (c.b24, c.field 25 1, s.dev.hostData c) }).endCmd id 0 0)) ∧
  (∀ (id off : Nat) (c : Cmd) (s : State),
      s.dev.Doing id 0x03 c ∧ s.dev.HasData c →
      pageLength c.b24 ≠ 0 ∧ pageRefused s.dev c.b24 (c.field 25 1) (s.dev.hostData c) = some off →
      Becomes (.setPage id) s ((s.dev.sends (s.dev.dataAttr (c.flag 0) false)).endCmd id 3 0x0C off)) ∧
  (∀ (stream : Fin 16) (begun : Bool) (c : Cmd) (p scope : Nat) (b : List (BitVec 8)) (s : State),
      s.dev.fw.cmds = [c] ∧ c.stage = .ended ∧ c.queue = false ∧ c.stream = stream.val →
      c.raddr = none ∧ c.flag 2 = false ∧ c.opcode = 3 ∧ s.dev.homeHere c = true ∧ c.orphan = false →
      c.page = some (p, scope, b) ∧ p ∉ [3, 4, 5, 6, 7] →
      s.dev.aon.restart = false ∧ s.dev.link.op = none ∧ s.dev.link.arrive = none →
      Gives (.tsReplyPost stream begun) s fun d => d.fw.pages = sparseSet [] s.dev.fw.pages (256 * p + scope) (pageMerge (pageFields s.dev.smallBuffer p) (s.dev.page p scope) b) ∧
      d.fw.cmds = [] ∧ d.is .HP_TS_STATE_VALID stream = true) ∧
  (∀ (id : Nat) (c : Cmd) (s : State),
      s.dev.Doing id 0x04 c →
      Gives (.poll id) s fun d => (d.cmd id).map (fun c => (c.stage, c.cls, c.detail, c.r0 % 16)) = some (.ended, 0, 0, s.dev.mode) ∧
      d = s.dev.endCmd id 0 0 (pollResults s.dev).1 (pollResults s.dev).2) ∧
  (∀ (id : Nat) (c : Cmd) (s : State),
      s.dev.Doing id 0x05 c →
      Becomes (.acknowledgeAttention id) s (if c.field 16 1 % 16 = s.dev.fg .HP_UNIT_ATTN_ASEQ then
      ((s.dev.fs .HP_UNIT_ATTN_PEND 0).fs .HP_UNIT_ATTN_ATTN 0).endCmd id 0 0 (s.dev.fg .HP_UNIT_ATTN_PEND + 256 * s.dev.fg .HP_UNIT_ATTN_ASEQ)
      else s.dev.endCmd id 0 0 (256 * s.dev.fg .HP_UNIT_ATTN_ASEQ))) ∧
  (∀ (id : Nat) (c : Cmd) (s : State),
      s.dev.Doing id 0x06 c ∧ s.dev.HasData c ∧ c.b24 = 2 →
      Becomes (.getLog id) s (let got := ((logOf s.dev 2).1.drop (c.field 28 4)).take ((c.dlen - 32) / 16)
      ({ s.dev.sends (s.dev.dataAttr (c.flag 0) true) with hostMem := memWrite s.dev.hostMem c.dptr ((leBytes 1 2 ++ leBytes 1 1 ++ leBytes 2 16 ++ leBytes 4 s.dev.fw.mediaLog.length ++ leBytes 4 got.length ++ leBytes 4 0 ++ (leBytes 4 s.dev.fw.transients ++ leBytes 4 s.dev.fw.marginals ++ leBytes 4 s.dev.fw.lastings ++ leBytes 4 s.dev.fw.refresh.length) ++ got.flatten).take c.dlen) } : Dev).endCmd id 0 0 got.length s.dev.fw.mediaLog.length)) ∧
  (∀ (id : Nat) (c : Instr) (s : State),
      s.dev.cmd id = none →
      c ∈ [Instr.identify id, .getPage id, .setPage id, .poll id, .acknowledgeAttention id, .getLog id] →
      Becomes c s s.dev)

/-- WATERMARK_ADVANCE of a stream whose oldest write is whole maps its sheets, moves D to it and takes it off the stream, and
changes no other map entry; with nothing owed it changes nothing. STREAM_BREAK of a write whose journal has failed makes the
stream BROKEN at it; with no write it changes nothing. RESET STREAM of a stream that owes nothing resets exactly that stream,
submits its reset marker and returns the old D. FLUSH STREAM with nothing owed and FENCE with no earlier command end with
CLASS 0. POWER MODE SPINNING in SPINNING and PARKED with everything put away, and entering and leaving SERVICE, end in the
mode asked for. (R477, R478, R484, R488, R500, R501, R502, R503, R513, R514, R517.) -/
def Obligations.StreamCommands : Prop :=
  (∀ (k : Fin 16) (w : WriteRec) (v : Version) (psa : Nat) (s : State),
      s.dev.fw.cmds = [] ∧ s.dev.flushAsked = false ∧ s.dev.fw.versions = [v] →
      (s.dev.stream k).writes = [w] ∧ w.intent = true ∧ w.dead = false ∧ w.group = none →
      v.stream = k.val ∧ v.ssq = w.ssq ∧ v.copyOf = none ∧ v.psa = some psa ∧ v.stage = .committed →
      sparseGet 0 s.dev.fw.mapOrder v.lsn < v.order →
      Gives (.watermarkAdvance k) s fun d => (d.stream k).mark = w.ssq ∧ (d.stream k).writes = [] ∧ d.fw.versions = [] ∧
      sparseGet 0 d.fw.map v.lsn = psa + 1 ∧ (∀ a : Nat, a ≠ v.lsn → sparseGet 0 d.fw.map a = sparseGet 0 s.dev.fw.map a) ∧
      v.lsn / 16384 ∈ d.fw.dirty ∧ v.lsn ∉ d.fw.ambiguous ∧
      d = { s.dev with fw := { s.dev.fw with map := d.fw.map, mapOrder := sparseSet 0 s.dev.fw.mapOrder v.lsn v.order, ambiguous := d.fw.ambiguous, dirty := d.fw.dirty, versions := [], streams := d.fw.streams } }) ∧
  (∀ (k : Fin 16) (s : State),
      s.dev.fw.cmds = [] ∧ s.dev.flushAsked = false ∧ s.dev.fw.versions = [] ∧ (s.dev.stream k).writes = [] →
      Becomes (.watermarkAdvance k) s s.dev) ∧
  (∀ (k : Fin 16) (w : WriteRec) (s : State),
      (s.dev.stream k).writes = [w] ∧ w.intent = true ∧ (s.dev.stream k).broken = none →
      s.dev.is .RJ_STAT_FAILED = true ∧ s.dev.fw.versions = [] ∧ s.dev.fw.cmds = [] →
      Becomes (.streamBreak k) s { s.dev with fw := { s.dev.fw with streams := sparseSet {} s.dev.fw.streams k { s.dev.stream k with broken := some 2, first := w.ssq } } }) ∧
  (∀ (k : Fin 16) (s : State),
      (s.dev.stream k).writes = [] →
      Becomes (.streamBreak k) s s.dev) ∧
  (∀ (id : Nat) (c : Cmd) (k : Nat) (s : State),
      s.dev.Doing id 0x07 c ∧ s.dev.fw.cmds = [c] ∧ c.needs = none ∧ k = c.field 16 1 % 16 →
      (s.dev.stream k).writes = [] ∧ s.dev.fw.versions = [] ∧ s.dev.flushAsked = false →
      s.dev.journalOpen = true ∧ s.dev.journal.queue = [] ∧ s.dev.journal.waiting = [] →
      Gives (.resetStream id) s fun d =>
      d.stream k = { s.dev.stream k with ssq := 1, mark := 0, ordered := 0, sent := 0, broken := none, first := 0, writes := [] } ∧
      (∀ j : Fin 16, j.val ≠ k → d.stream j = s.dev.stream j) ∧
      (d.cmd id).map (fun c => (c.stage, c.cls, c.detail)) = some (.ended, 0, 0) ∧ (d.cmd id).map (fun c => (c.r0, c.r1)) = some ((s.dev.stream k).mark, 0) ∧
      (d.journal.queue.map fun x => (x.event, recordType x.bytes, recordPayload x.bytes)) = [(false, 0x08, takeFill 0#8 44 (leBytes 1 k ++ leBytes 4 0))] ∧
      Changes [Reg.RJ_STAT.key 0 0] s.dev d { s.dev with journal := d.journal, fw := { s.dev.fw with cmds := d.fw.cmds, ended := d.fw.ended, streams := d.fw.streams } }) ∧
  (∀ (id : Nat) (c : Cmd) (s : State),
      s.dev.Doing id 0x13 c ∧ c.needs = none →
      Becomes (.flushStream id) s (s.dev.endCmd id 0 0 (s.dev.stream c.stream).mark)) ∧
  (∀ (id : Nat) (c : Cmd) (s : State),
      s.dev.Doing id 0x14 c →
      Becomes (.fence id) s (if c.after = [] then s.dev.endCmd id 0 0 else s.dev)) ∧
  (∀ (id : Nat) (c : Cmd) (s : State),
      s.dev.Doing id 0x08 c ∧ s.dev.Alone c ∧ c.field 16 1 = 3 →
      s.dev.mode = 3 ∧ s.dev.frost = false →
      Becomes (.powerMode id) s (s.dev.endCmd id 0 0 3)) ∧
  (∀ (id : Nat) (c : Cmd) (s : State),
      s.dev.Doing id 0x08 c ∧ s.dev.Alone c ∧ c.field 16 1 = 2 ∧ s.dev.frost = false →
      ((∀ o : Fin 4, s.dev.stage o = .off) ∧ (∀ n : Fin 96, s.dev.is .RCS_CTL_EN n = false) ∧ s.dev.spnState = spnOff ∧ s.dev.is .SPN_STAT_BELOW30 = true) →
      Becomes (.powerMode id) s ((s.dev.setMode 2).endCmd id 0 0 2)) ∧
  (∀ (id : Nat) (c : Cmd) (s : State),
      s.dev.Doing id 0x38 c ∧ s.dev.Alone c ∧ c.b24 = 1 →
      Becomes (.enterService id) s ((s.dev.setMode 6).endCmd id 0 0 6)) ∧
  (∀ (id : Nat) (c : Cmd) (s : State),
      s.dev.Doing id 0x38 c ∧ c.b24 = 2 →
      Becomes (.leaveService id) s (if s.dev.spnState = spnRun then (s.dev.turnMode 3).endCmd id 0 0 3 else (s.dev.setMode 2).endCmd id 0 0 2))

/-- READ of one sheet that was never written delivers 131,072 zero bytes and ends with CLASS 0, DETAIL 1, and SP_LEVEL follows;
VERIFY of it ends so and delivers nothing; FIXITY of it delivers its record with status 4. WRITE whose data has come and that
may be admitted is admitted (takeWrite); one whose INTENT record is durable ends with CLASS 0 and its SSEQ; one that has
become durable likewise; while a sheet is still to come the reading commands take the next step toward it. SHEET_HASH keeps
the hashes of a sheet and counts it. (R471, R474, R475, R476, R479, R500, R579, R580.) -/
def Obligations.DataCommands : Prop :=
  (∀ (id lsn : Nat) (c : Cmd) (s : State),
      s.dev.Doing id 0x10 c ∧ s.dev.HasData c ∧ c.dlen = 131072 →
      noGroup c = true ∧ c.binds = [{ lsn := lsn, result := some (0, 1) }] ∧ s.dev.Calm →
      Becomes (.read id) s (({ s.dev.sends (s.dev.dataAttr (c.flag 0) true) with hostMem := memWrite s.dev.hostMem c.dptr (List.replicate 131072 0#8) } : Dev).endCmd id 0 1 0 (0xFFFFFFFF + 0xFFFFFFFF * 2 ^ 32)).levelWrite) ∧
  (∀ (id lsn : Nat) (c : Cmd) (s : State),
      s.dev.Doing id 0x12 c ∧ noGroup c = true ∧ c.binds = [{ lsn := lsn, result := some (0, 1) }] ∧ s.dev.Calm →
      Becomes (.verify id) s (s.dev.endCmd id 0 1 0 (0xFFFFFFFF + 0xFFFFFFFF * 2 ^ 32))) ∧
  (∀ (id lsn : Nat) (c : Cmd) (s : State),
      s.dev.Doing id 0x15 c ∧ s.dev.HasData c ∧ c.dlen = 48 ∧ s.dev.fw.cmds = [c] →
      noGroup c = false ∧ c.binds = [{ lsn := lsn, result := some (0, 1) }] ∧ s.dev.Calm →
      Becomes (.fixity id) s (({ s.dev.sends (s.dev.dataAttr (c.flag 0) true) with hostMem := memWrite s.dev.hostMem c.dptr (leBytes 4 lsn ++ leBytes 1 4 ++ List.replicate 43 0#8) } : Dev).endCmd id 0 1 0 0xFFFFFFFF)) ∧
  (∀ (id : Nat) (c : Cmd) (i : Instr) (s : State),
      i ∈ [Instr.read id, .verify id, .fixity id] →
      s.dev.cmd id = some c ∧ c.stage = .running ∧ c.ssq ≠ 0 →
      (i, c.opcode) ∈ [(Instr.read id, 0x10), (.verify id, 0x12), (.fixity id, 0x15)] ∧ s.dev.bindsDone c = false →
      Becomes i s (readStep s.dev)) ∧
  (∀ (id : Nat) (c : Cmd) (w : WriteRec) (s : State),
      s.dev.Doing id 0x11 c ∧ s.dev.HasData c →
      s.dev.writeOf c = some w ∧ w.addr = 0 ∧ (s.dev.stream c.stream).broken = none →
      s.dev.frost = false ∧ s.dev.is .PMU_STAT_THAWING = false ∧ s.dev.intentBefore w = false →
      Becomes (.write id) s (takeWrite w c (s.dev.sends (s.dev.dataAttr (c.flag 0) false)))) ∧
  (∀ (id : Nat) (c : Cmd) (w : WriteRec) (s : State),
      s.dev.Doing id 0x11 c ∧ s.dev.writeOf c = some w ∧ w.addr ≠ 0 ∧ w.intent = true ∧ w.fua = false →
      s.dev.fw.versions = [] ∧ s.dev.frost = true →
      Becomes (.write id) s (s.dev.endCmd id 0 0 c.ssq)) ∧
  (∀ (id : Nat) (c : Cmd) (s : State),
      s.dev.Doing id 0x11 c ∧ s.dev.writeOf c = none ∧ c.needs = none →
      reached c.ssq (s.dev.stream c.stream).mark = true →
      Becomes (.write id) s (s.dev.endCmd id 0 0 c.ssq)) ∧
  (∀ (addr : Nat) (s : State),
      s.dev.is .FIX_CTL_EN = true ∧ s.dev.is .FIX_STAT_FAULT = false ∧ addr + 131072 ≤ s.dev.visible →
      Gives (.sheetHash addr) s fun d => let g := s.dev.bufGet 10 addr 131072
      sparseGet (0, []) d.comp.hashes addr = (crc64 g.1, sha256 g.1) ∧ d.rd .FIX_CNT_SHEET = BitVec.ofNat 32 (limitN 0 0xFFFFFFFF ((g.2.rd .FIX_CNT_SHEET).toNat + 1)) ∧
      Changes [Reg.FIX_CNT_SHEET.key 0 0] g.2 d { g.2 with comp := { g.2.comp with hashes := d.comp.hashes } })

/-- A cold training that passes makes the port active at the width and delay found, sends one frame of IDLE and leaves a TOPO
message waiting; it is not made while the port may not train. A retrain that fails keeps the port out of service. RETRAIN of
an active port begins a retrain and counts it. A good frame advances the sequence, returns credit and puts its broadcasts into
the inbox; a frame that fails its CRC is counted once and asked for again. FRAME_REPLAY of a port that was asked sends the
retry buffer again, or retrains at the fourth time. PORT_DOWN and DISABLE take the port down with TOPO and its counter.
PORT_WAKE retrains an asleep port. MESSAGE_FORWARD passes the one message on by the other port. (R523, R524, R525, R528, R530,
R538, R543.) -/
def Obligations.LinkPorts : Prop :=
  (∀ (p : Fin 2) (low high reversed : Bool) (delay : Nat) (s : State),
      s.dev.mayTrain p = true ∧ s.dev.portState p ≤ 1 ∧ (s.dev.port p).trained = 0 →
      s.dev.portState (otherPort p) ≠ 2 ∧ s.dev.link.units = [] ∧ s.dev.link.asleep = [] →
      s.dev.is .QL_STAT_ADDR_VALID = true ∧ s.dev.role = 0 ∧ (low || high) = true ∧ delay < 65536 →
      Gives (.linkTraining p low high reversed false delay false) s fun d =>
      d.portState p = 2 ∧ d.fg .QL_PSTAT_NARROW p = bit (!(low && high)) ∧ d.fg .QL_PSTAT_REVERSED p = bit reversed ∧
      d.fg .QL_PDELAY_DELAY p = delay ∧ d.is .QL_STAT_TOPO = true ∧
      (d.port p).retry.length = 1 ∧ (d.port p).trained = s.dev.qtime + 1 ∧
      ((d.port p).wait.map fun e => (e.1, e.2.type)) = [(true, 0x39)] ∧
      Changes [Reg.QL_PSTAT.key p 0, Reg.QL_PDELAY.key p 0, Reg.QL_STAT.key 0 0] s.dev d { s.dev with link := d.link }) ∧
  (∀ (p : Fin 2) (low high reversed miswired : Bool) (delay : Nat) (bare : Bool) (s : State),
      s.dev.mayTrain p = false ∧ s.dev.portState p ≠ 2 →
      Becomes (.linkTraining p low high reversed miswired delay bare) s s.dev) ∧
  (∀ (p : Fin 2) (reversed miswired : Bool) (delay : Nat) (bare : Bool) (s : State),
      s.dev.mayTrain p = true ∧ s.dev.portState p = 4 ∧ (s.dev.port p).fails = [] →
      Becomes (.linkTraining p false false reversed miswired delay bare) s (s.dev.onPort p fun q => { q with fails := [s.dev.qtime] })) ∧
  (∀ (p : Fin 2) (s : State),
      s.dev.portState p = 2 →
      Becomes (.retrain p) s (((s.dev.fs .QL_PSTAT_STATE 4 p).bump .QL_CNT_RETRAIN p).onPort p fun q => { q with errs := [] })) ∧
  (∀ (p : Fin 2) (s : State),
      s.dev.portState p ≠ 2 →
      Becomes (.retrain p) s s.dev) ∧
  (∀ (p : Fin 2) (frame : List (BitVec 8)) (t : Nat) (msgs : List QMsg) (rest : List (BitVec 8)) (s : State),
      s.dev.portState p = 2 ∧ s.dev.Quiet p ∧ t = leNat ((frame.drop 256).take 16) →
      crc32c (frame.take 256 ++ (frame.drop 260).take 12) = bitsOf t 0 32 ∧ bitsOf t 32 12 = ((s.dev.port p).rxSeq + 1) % 4096 →
      t.testBit 56 = false ∧ t.testBit 58 = false ∧ takeMsgs 32 ((s.dev.port p).part ++ frame.take 256) = (msgs, rest) →
      (∀ m ∈ msgs, m.type = 0 ∨ (m.bcast = true ∧ knownType m.type = true)) →
      Gives (.frameReceive p frame false) s fun d =>
      d.link.inbox = s.dev.link.inbox ++ (msgs.filter fun m => m.type != 0).map (fun m => (p.val, m)) ∧
      (d.port p).rxSeq = bitsOf t 32 12 ∧ (d.port p).rxAny = true ∧ (d.port p).naking = false ∧ (d.port p).part = rest ∧
      (d.port p).credit = (s.dev.port p).credit.zipIdx.map (fun c => c.1 + bitsOf t (64 + 8 * c.2) 8) ∧
      d = { s.dev with link := { s.dev.link with ports := d.link.ports, inbox := d.link.inbox } }) ∧
  (∀ (p : Fin 2) (frame : List (BitVec 8)) (s : State),
      s.dev.portState p = 2 ∧ (s.dev.port p).naking = false ∧ (s.dev.port p).errs = [] →
      crc32c (frame.take 256 ++ (frame.drop 260).take 12) ≠ bitsOf (leNat ((frame.drop 256).take 16)) 0 32 →
      Becomes (.frameReceive p frame false) s (idleFrame p ((s.dev.bump .QL_CNT_CRC p).onPort p fun q => { q with naking := true, errs := [s.dev.qtime] }))) ∧
  (∀ (p : Fin 2) (frame : List (BitVec 8)) (cut : Bool) (s : State),
      s.dev.portState p ≠ 2 →
      Becomes (.frameReceive p frame cut) s s.dev) ∧
  (∀ (p : Fin 2) (s : State),
      s.dev.portState p = 2 ∧ (s.dev.port p).nakd = true ∧ (s.dev.port p).replays < 3 →
      Gives (.frameReplay p) s fun d => (d.port p).replays = (s.dev.port p).replays + 1 ∧ (d.port p).nakd = false ∧
      (d.port p).retry = (s.dev.port p).retry ∧ (d.port p).txSeq = (s.dev.port p).txSeq ∧
      (∀ f ∈ (s.dev.port p).retry.getLast?, (d.port p).sent = frameBytes f.2.2 f.1 f.2.1 { s.dev.port p with replays := (s.dev.port p).replays + 1 }) ∧
      d.port (otherPort p) = s.dev.port (otherPort p) ∧
      d = { s.dev with link := { s.dev.link with ports := d.link.ports } }) ∧
  (∀ (p : Fin 2) (s : State),
      s.dev.portState p = 2 ∧ (s.dev.port p).nakd = true ∧ 3 ≤ (s.dev.port p).replays →
      Becomes (.frameReplay p) s (((s.dev.fs .QL_PSTAT_STATE 4 p).bump .QL_CNT_RETRAIN p).onPort p fun q => { q with errs := [] })) ∧
  (∀ (p : Fin 2) (s : State),
      s.dev.portState p ≠ 0 ∧ s.dev.portState (otherPort p) ≠ 2 ∧ s.dev.role = 0 ∧ s.dev.link.units = [] →
      (s.dev.port p).retry = [] ∧ (s.dev.port p).wait = [] ∧ (s.dev.port p).token = false →
      Gives (.portDown p) s fun d => d.portState p = 0 ∧ d.is .QL_PSTAT_NARROW p = false ∧ d.is .QL_STAT_TOPO = true ∧
      d.rd .QL_CNT_DOWN p = (s.dev.bump .QL_CNT_DOWN p).rd .QL_CNT_DOWN p ∧
      d.port p = { trained := (s.dev.port p).trained, passed := (s.dev.port p).passed } ∧
      Changes [Reg.QL_PSTAT.key p 0, Reg.QL_CNT_DOWN.key p 0, Reg.QL_STAT.key 0 0] s.dev d { s.dev with link := { s.dev.link with ports := d.link.ports } }) ∧
  (∀ (p : Fin 2) (s : State),
      s.dev.portState p = 0 →
      Becomes (.portDown p) s s.dev) ∧
  (∀ (p : Fin 2) (s : State),
      s.dev.portState p ≠ 0 ∧ s.dev.portState (otherPort p) ≠ 2 ∧ s.dev.role = 0 ∧ s.dev.link.units = [] →
      (s.dev.port p).retry = [] ∧ (s.dev.port p).wait = [] ∧ (s.dev.port p).token = false →
      Gives (.disable p) s fun d => d.portState p = 0 ∧ d.is .QL_PCTL_DISABLE p = true ∧ d.is .QL_STAT_TOPO = true ∧
      d.port p = { trained := (s.dev.port p).trained, passed := (s.dev.port p).passed } ∧
      Changes [Reg.QL_PCTL.key p 0, Reg.QL_PSTAT.key p 0, Reg.QL_CNT_DOWN.key p 0, Reg.QL_STAT.key 0 0] s.dev d { s.dev with link := { s.dev.link with ports := d.link.ports } }) ∧
  (∀ (p : Fin 2) (s : State),
      s.dev.portState p = 3 ∧ s.dev.mode = 1 ∧ s.dev.aon.asleep = false →
      Becomes (.portWake p) s ((((s.dev.fs .PMU_WAKE_CAUSE 4).bump .PMU_CNT_WAKE).fs .QL_PSTAT_STATE 4 p).onPort p fun q => { q with busy := s.dev.qtime })) ∧
  (∀ (p : Fin 2) (s : State),
      s.dev.portState p = 3 ∧ s.dev.mode = 1 ∧ s.dev.aon.asleep = true →
      Gives (.portWake p) s fun d => d.portState p = 4 ∧ d.fg .PMU_WAKE_CAUSE = 4 ∧ (d.fg .PMU_STAT_ISL).testBit 0 = true ∧ d.is .CLK_STAT_LOCKED = true ∧
      d.aon = { s.dev.aon with asleep := false } ∧ d.mode = 1) ∧
  (∀ (p : Fin 2) (s : State),
      s.dev.portState p ≠ 3 →
      Becomes (.portWake p) s s.dev) ∧
  (∀ (p : Fin 2) (m : QMsg) (s : State),
      s.dev.link.inbox = [(p.val, m)] ∧ s.dev.forMe m = false ∧ s.dev.portState (otherPort p) = 4 →
      Gives .messageForward s fun d => d.link.inbox = [] ∧
      (d.port (otherPort p)).wait = (s.dev.port (otherPort p)).wait ++ [(false, { m with up := otherPort p == 0 })] ∧
      d = { s.dev with link := { s.dev.link with ports := d.link.ports, inbox := [] } }) ∧
  (∀ (s : State),
      (∀ e ∈ s.dev.link.inbox, s.dev.forMe e.2 = true) →
      Becomes .messageForward s s.dev)

/-- Each of these messages, alone in the inbox, is taken and acted on: a window write is applied, a window read is answered to its
sender, a completion ends the read that waits for it, a host read is answered from host memory or as failed, host read data is
stored and the last of it ends the fetch, a host write is stored, and a reply is posted or, for a reset head, discarded. With
no message none of them changes anything. A message that a unit sends itself stands in its own inbox, and one with no route
sets NOROUTE and is lost. (R434, R435, R437, R446, R454, R459, R461, R529, R628.) -/
def Obligations.MemberMessages : Prop :=
  (∀ (p : Nat) (m : QMsg) (s : State),
      s.dev.Has p 0x01 m ∧ s.dev.windowsOpen = true →
      Becomes .mmioWrite s (winPut (bitsOf m.arg 18 14 + 1) (s.dev.headNo m.src) (bitsOf m.arg 0 18) (m.payload.take (bitsOf m.arg 18 14)) (s.dev.took p m))) ∧
  (∀ (p : Nat) (m : QMsg) (s : State),
      s.dev.Has p 0x02 m ∧ s.dev.windowsOpen = true →
      Becomes .mmioReadRequest s (sendMsg { type := 0x03, dst := m.src, cls := 2, tag := m.tag, arg := bitsOf m.arg 18 14, payload := winBytes (bitsOf m.arg 0 18) (bitsOf m.arg 18 14) (s.dev.took p m) } (s.dev.took p m))) ∧
  (∀ (p : Nat) (m : QMsg) (r : MemberRead) (s : State),
      s.dev.Has p 0x03 m ∧ s.dev.host.reads = [r] ∧ r.tag = m.tag ∧ r.unit = m.src →
      Becomes .mmioReadCompletion s { s.dev.took p m with host := { s.dev.host with reads := [] }, answer := m.payload.take r.len, error := false }) ∧
  (∀ (p : Nat) (m : QMsg) (s : State),
      s.dev.Has p 0x10 m ∧ s.dev.hostWaits = false ∧ 1 ≤ hField m.payload 8 4 ∧ hField m.payload 8 4 ≤ 256 →
      Becomes (.hostReadRequest true) s (sendMsg { type := 0x11, dst := m.src, cls := 3, tag := m.tag, arg := 0, payload := memRead s.dev.hostMem (hField m.payload 0 8) (hField m.payload 8 4) } ((s.dev.took p m).sends (s.dev.dataAttr (hField m.payload 12 1 == 1) false)))) ∧
  (∀ (p : Nat) (m : QMsg) (s : State),
      s.dev.Has p 0x10 m ∧ s.dev.hostWaits = false →
      Becomes (.hostReadRequest false) s (sendMsg { type := 0x11, dst := m.src, cls := 3, tag := m.tag, arg := 2 ^ 31 } (((aerRecord 0 (s.dev.took p m)).fs .HP_HC_STAT_DMA_ERR 1).bump .HP_HC_CNT_DMAERR))) ∧
  (∀ (p : Nat) (m : QMsg) (a n id : Nat) (s : State),
      s.dev.Has p 0x11 m ∧ s.dev.link.fetch = [(m.tag, a, n, id)] ∧ m.arg.testBit 31 = false →
      n ≤ m.arg + (m.payload.take (n - m.arg)).length →
      Becomes .hostReadData s ({ s.dev.took p m with hostMem := memWrite s.dev.hostMem (a + m.arg) (m.payload.take (n - m.arg)) } |>.onLink fun l => { l with fetch := [] })) ∧
  (∀ (p : Nat) (m : QMsg) (s : State),
      s.dev.Has p 0x12 m ∧ s.dev.hostWaits = false ∧ m.arg ≠ 0 →
      Becomes .hostWrite s { (s.dev.took p m).sends (s.dev.dataAttr (hField m.payload 8 1 == 1) true) with hostMem := memWrite s.dev.hostMem (hField m.payload 0 8) ((m.payload.drop 16).take m.arg) }) ∧
  (∀ (p : Nat) (m : QMsg) (s : State),
      s.dev.Has p 0x12 m ∧ s.dev.hostWaits = false ∧ m.arg = 0 →
      Becomes .hostWrite s ((s.dev.took p m).onHost fun h => { h with replyAt := sparseSet 0 h.replyAt (65536 * m.src + m.tag) (hField m.payload 0 8 + 1) })) ∧
  (∀ (p : Nat) (m : QMsg) (a : Nat) (s : State),
      s.dev.Has p 0x13 m ∧ s.dev.hostWaits = false ∧ m.arg = 1 →
      sparseGet 0 s.dev.host.replyAt (65536 * m.src + m.tag) = a + 1 →
      Becomes .memberReply s (replyToHost a (m.payload.take 32) ((s.dev.took p m).onHost fun h => { h with replyAt := sparseSet 0 h.replyAt (65536 * m.src + m.tag) 0 }))) ∧
  (∀ (p : Nat) (m : QMsg) (s : State),
      s.dev.Has p 0x13 m ∧ s.dev.hostWaits = false ∧ m.arg = 0x101 →
      Becomes .memberReply s ((((s.dev.took p m).onHost fun h => { h with replyAt := sparseSet 0 h.replyAt (65536 * m.src + m.tag) 0 }).bump .HP_HC_CNT_ABANDON).fs .HP_HC_STAT_ABANDON 1)) ∧
  (∀ (c : Instr) (s : State),
      s.dev.link.inbox = [] →
      c ∈ [Instr.mmioWrite, .mmioReadRequest, .mmioReadCompletion, .hostReadRequest true, .hostReadRequest false, .hostReadData, .hostWrite, .memberReply, .messageForward, .time, .sleep, .topo] →
      Becomes c s s.dev) ∧
  (∀ (m : QMsg) (d : Dev),
      m.dst = d.addr →
      sendMsg m d = d.onLink fun l => { l with inbox := l.inbox ++ [(2, { m with src := d.addr })] }) ∧
  (∀ (m : QMsg) (d : Dev),
      m.dst ≠ d.addr ∧ d.route m.dst = none →
      sendMsg m d = d.fs .QL_STAT_NOROUTE 1)

/-- Each message, alone in the inbox, is taken and acted on. A claim of its own that has come round starts the count-off and a
smaller one is passed on; a number is answered and, at the end of a leg, not passed on; an answer is kept by the coordinator;
a map is adopted and passed on. A token is taken, and one that has not passed for 10 ms is lost and made again by head A. TIME
moves this unit forward to the time of the message plus the hop's delay, and never back; a unit found ahead of it counts at
half its rate. A DORMANT unit whose links have been quiet for 100 ms asks for sleep. A pass of a barrier, snapshot or chain
reset engages a free unit and is refused by one that is not; a unit resets once its chain reset has left. Sleep and link state
messages change the routes. (R532, R533, R535, R539, R542, R543, R544, R545, R546, R548, R549, R550.) -/
def Obligations.ChainMessages : Prop :=
  (∀ (p : Nat) (m : QMsg) (s : State),
      s.dev.Has p 0x30 m ∧ m.arg = s.dev.serial % 2 ^ 32 ∧ s.dev.link.claiming = true ∧ m.tag = 2 →
      Becomes .claim s (countStart none (s.dev.took p m))) ∧
  (∀ (p : Nat) (m : QMsg) (s : State),
      s.dev.Has p 0x30 m ∧ m.arg < s.dev.serial % 2 ^ 32 ∧ s.dev.link.claiming = true →
      Becomes .claim s (claimOn m ((s.dev.took p m).onLink fun l => { l with claiming := false }))) ∧
  (∀ (s : State),
      s.dev.link.inbox = [] ∧ s.dev.mayClaim = false →
      Becomes .claim s s.dev) ∧
  (∀ (p : Nat) (m : QMsg) (d : Dev) (s : State),
      s.dev.Has p 0x31 m ∧ m.bcast = true ∧ hField m.payload 8 8 ≠ s.dev.serial ∧ m.arg.testBit 25 = false →
      s.dev.link.op = none ∧ s.dev.legEnds p m = true →
      (d = engage (some { op := 1, head := hField m.payload 8 8 }) ((s.dev.took p m).onLink fun l => { l with claiming := false })) →
      Becomes .count s (portFlush p (putWait p true { type := 0x31, src := m.arg % 64, epoch := d.epoch, arg := m.arg + bitsOf d.unitId.toNat 12 3 <<< 8 + bit (d.bonded && d.host.up) <<< 16 + 1 <<< 24, payload := leBytes 8 d.serial ++ leBytes 8 d.qtime } d))) ∧
  (∀ (p : Nat) (m : QMsg) (o : ChainOp) (s : State),
      s.dev.Has p 0x31 m ∧ m.bcast = false ∧ m.arg.testBit 25 = false ∧ m.arg.testBit 24 = false ∧ m.arg % 256 < 64 →
      s.dev.link.op = some o ∧ o.own = true ∧ o.op = 1 ∧ o.phase = 1 ∧ o.legs = 0 →
      Becomes .count s ((s.dev.took p m).onLink fun l => { l with count := l.count ++ [{ addr := m.arg % 256, serial := hField m.payload 0 8, variant := bitsOf m.arg 8 3, epoch := m.epoch, host := m.arg.testBit 16, time := hField m.payload 8 8, above := false }] })) ∧
  (∀ (p : Nat) (m : QMsg) (units : List QUnit) (s : State),
      s.dev.Has p 0x32 m ∧ m.bcast = true ∧ s.dev.link.op = none ∧ hField m.payload 5 1 = 0 ∧ hField m.payload 4 1 ≤ 4 →
      (units = (List.range (hField m.payload 4 1)).map fun i => ({ serial := hField m.payload (16 + 16 * i) 8, pos := hField m.payload (24 + 16 * i) 1, headB := hField m.payload (25 + 16 * i) 1 == 1 } : QUnit)) →
      Becomes .map s (passOn p m (adoptMap (hField m.payload 0 4) units (if hField m.payload 6 1 = 1 then [hField m.payload 7 1] else []) ((s.dev.took p m).onLink fun l => { l with mapPart := units })))) ∧
  (∀ (epoch i : Nat) (u : QUnit) (units : List QUnit) (down : List Nat) (d : Dev),
      d.link.units = [] ∧ d.host.held = [] ∧ units.length < 64 ∧ epoch < 2 ^ 32 →
      ((units.findIdx? fun u => u.serial == d.serial) = some i ∧ units[i]? = some u ∧ (i = 0 → u.headB = false)) →
      (adoptMap epoch units down d).addr = i ∧ (adoptMap epoch units down d).epoch = epoch ∧ (adoptMap epoch units down d).is .QL_STAT_ADDR_VALID = true ∧
      (adoptMap epoch units down d).role = (if i = 0 then 1 else if u.headB then 2 else 0) ∧ (adoptMap epoch units down d).fg .QL_ID_UNITS = units.length ∧
      (adoptMap epoch units down d).link.units = units ∧ (adoptMap epoch units down d).link.down = down ∧ (adoptMap epoch units down d).link.asleep = []) ∧
  (∀ (p out : Nat) (m : QMsg) (s : State),
      s.dev.Has p 0x33 m ∧ m.bcast = true ∧ out = onward p m ∧ s.dev.portState out = 2 →
      Becomes .token s (takeToken out (s.dev.took p m))) ∧
  (∀ (p : Fin 2) (s : State),
      (s.dev.port p).token = false ∧ s.dev.is .QL_STAT_ADDR_VALID = true ∧ (s.dev.port p).passed + 10000000 ≤ s.dev.qtime →
      Becomes (.tokenLost p) s (if s.dev.role = 1 then takeToken p (s.dev.fs .QL_STAT_TOKEN_LOST 1) else sendMsg { type := 0x33, dst := 0, arg := p } (s.dev.fs .QL_STAT_TOKEN_LOST 1))) ∧
  (∀ (p : Fin 2) (s : State),
      s.dev.qtime < (s.dev.port p).passed + 10000000 →
      Becomes (.tokenLost p) s s.dev) ∧
  (∀ (p : Fin 2) (s : State),
      (s.dev.port p).token = true →
      Becomes (.tokenLost p) s s.dev) ∧
  (∀ (elapsed : Nat) (s : State),
      s.dev.role ≠ 1 ∧ s.dev.link.ahead = 0 →
      Becomes (.timeBroadcast elapsed) s { s.dev with qtime := (s.dev.qtime + elapsed) % 2 ^ 64 }) ∧
  (∀ (elapsed : Nat) (s : State),
      s.dev.role ≠ 1 ∧ elapsed ≤ 2 * s.dev.link.ahead →
      Becomes (.timeBroadcast elapsed) s { s.dev with qtime := (s.dev.qtime + elapsed / 2) % 2 ^ 64, link := { s.dev.link with ahead := s.dev.link.ahead - (elapsed - elapsed / 2) } }) ∧
  (∀ (elapsed : Nat) (m : QMsg) (s : State),
      s.dev.role = 1 ∧ s.dev.link.ahead = 0 ∧ m = { type := 0x34, payload := takeFill 0#8 16 (leBytes 8 ((s.dev.qtime + elapsed) % 2 ^ 64)) } →
      Becomes (.timeBroadcast elapsed) s (sendOn 0 m (sendOn 1 m { s.dev with qtime := (s.dev.qtime + elapsed) % 2 ^ 64 }))) ∧
  (∀ (p : Nat) (m : QMsg) (t : Nat) (s : State),
      s.dev.Has p 0x34 m ∧ m.src ≠ s.dev.addr ∧ t = hField m.payload 0 8 + s.dev.fg .QL_PDELAY_DELAY p →
      s.dev.qtime ≤ t ∧ t < 2 ^ 64 →
      Becomes .time s (passOn p { m with payload := takeFill 0#8 16 (leBytes 8 t) } { (s.dev.took p m).onLink fun l => { l with ahead := 0 } with qtime := t })) ∧
  (∀ (p : Nat) (m : QMsg) (t : Nat) (s : State),
      s.dev.Has p 0x34 m ∧ m.src ≠ s.dev.addr ∧ t = hField m.payload 0 8 + s.dev.fg .QL_PDELAY_DELAY p →
      t < s.dev.qtime →
      Becomes .time s (passOn p { m with payload := takeFill 0#8 16 (leBytes 8 t) } ((s.dev.took p m).onLink fun l => { l with ahead := s.dev.qtime - t }))) ∧
  (∀ (s : State),
      s.dev.qtime < 2 ^ 64 →
      Gives .time s fun d => s.dev.qtime ≤ d.qtime ∧ d.qtime < 2 ^ 64) ∧
  (∀ (p : Nat) (m : QMsg) (s : State),
      s.dev.Has p 0x35 m ∧ m.bcast = true ∧ m.src ≠ s.dev.addr ∧ m.arg = 1 ∧ s.dev.link.op = none ∧ s.dev.fw.cmds = [] →
      Becomes .barrier s (passOn 2 m ((engage (some { op := 2, head := m.src, began := s.dev.qtime }) (s.dev.took p m)).onLink fun l => { l with arrive := none, barrier := [] }))) ∧
  (∀ (p : Nat) (m : QMsg) (c : Cmd) (s : State),
      s.dev.Has p 0x35 m ∧ m.bcast = true ∧ m.src ≠ s.dev.addr ∧ m.arg = 1 ∧ s.dev.link.op = none ∧ s.dev.fw.cmds = [c] ∧ c.ssq ≠ 0 →
      Becomes .barrier s ((engage (some { op := 2, head := m.src, began := s.dev.qtime }) (s.dev.took p m)).onLink fun l => { l with arrive := some m, barrier := [c.id] })) ∧
  (∀ (p : Nat) (m : QMsg) (o : ChainOp) (c : Instr) (type : Nat) (s : State),
      s.dev.Has p type m ∧ m.bcast = true ∧ m.src ≠ s.dev.addr ∧ m.arg % 4 = 1 ∧ m.arg < 4 ∧ s.dev.link.op = some o ∧ o.own = true →
      (c, type) ∈ [(Instr.barrier, 0x35), (.snap, 0x36), (.chainReset false, 0x37), (.chainReset true, 0x37)] →
      Becomes c s (sendMsg { type := type, dst := m.src, cls := 0, arg := 3, epoch := (s.dev.took p m).epoch } (s.dev.took p m))) ∧
  (∀ (p : Nat) (m : QMsg) (s : State),
      s.dev.Has p 0x36 m ∧ m.bcast = true ∧ m.src ≠ s.dev.addr ∧ m.arg % 4 = 1 ∧ s.dev.link.op = none →
      Becomes .snap s (passOn p m (engage (some { op := 3, head := m.src, began := s.dev.qtime }) (s.dev.took p m)))) ∧
  (∀ (p : Nat) (m : QMsg) (o : ChainOp) (s : State),
      s.dev.Has p 0x36 m ∧ m.bcast = true ∧ m.src ≠ s.dev.addr ∧ m.arg % 4 = 2 ∧ s.dev.link.op = some o ∧ o.op = 3 ∧ o.head = m.src ∧ o.own = false →
      Becomes .snap s (passOn p m (release (s.dev.took p m)))) ∧
  (∀ (begun : Bool) (p : Nat) (m : QMsg) (s : State),
      s.dev.Has p 0x37 m ∧ m.bcast = true ∧ m.src ≠ s.dev.addr ∧ s.dev.link.op = none →
      Becomes (.chainReset begun) s (passOn p m (engage (some { op := 4, head := m.src, legs := if s.dev.legEnds p m then p else onward p m, began := s.dev.qtime }) (s.dev.took p m)))) ∧
  (∀ (begun : Bool) (o : ChainOp) (s : State),
      s.dev.link.inbox = [] ∧ s.dev.link.op = some o ∧ o.op = 4 ∧ o.own = false ∧ (s.dev.port o.legs).retry = [] →
      Becomes (.chainReset begun) s (unitReset 2 false begun [] [] s.dev)) ∧
  (∀ (p : Nat) (m : QMsg) (s : State),
      s.dev.Has p 0x38 m ∧ m.arg % 256 = 3 ∧ m.src ≠ s.dev.addr →
      Becomes .sleep s (passOn p m (linkState (bitsOf m.arg 8 6) false false (s.dev.took p m)))) ∧
  (∀ (p : Nat) (m : QMsg) (s : State),
      s.dev.Has p 0x38 m ∧ m.arg % 256 = 1 ∧ (s.dev.took p m).maySleep (bitsOf m.arg 8 6) = false →
      Becomes .sleep s (sendMsg { type := 0x38, dst := bitsOf m.arg 8 6, arg := 4 + bitsOf m.arg 8 6 <<< 8 } (s.dev.took p m))) ∧
  (∀ (p : Nat) (m : QMsg) (s : State),
      s.dev.Has p 0x38 m ∧ m.arg % 256 = 2 ∧ m.src ≠ s.dev.addr →
      Becomes .sleep s (linksSleep (bitsOf m.arg 8 6) (passOn p m (s.dev.took p m)))) ∧
  (∀ (p : Nat) (m : QMsg) (s : State),
      s.dev.Has p 0x39 m ∧ m.src ≠ s.dev.addr ∧ hField m.payload 1 1 = 0 →
      Becomes .topo s (headAttn (passOn p m (linkState (hField m.payload 0 1) true false (s.dev.took p m))))) ∧
  (∀ (s : State),
      s.dev.mode = 1 ∧ s.dev.aon.sleep = true ∧ s.dev.aon.asleep = false →
      (∀ p : Fin 2, s.dev.portState p ≠ 2 ∨ (s.dev.port p).busy + 100000000 ≤ s.dev.qtime) →
      Becomes .linkIdleSleep s (sendMsg { type := 0x38, dst := 0, arg := 1 + s.dev.addr <<< 8 } s.dev)) ∧
  (∀ (p : Fin 2) (s : State),
      s.dev.mode ≠ 1 ∨ s.dev.aon.sleep = false ∨ s.dev.aon.asleep = true ∨ (s.dev.portState p = 2 ∧ s.dev.qtime < (s.dev.port p).busy + 100000000) →
      Becomes .linkIdleSleep s s.dev)

/-- Each of the four commands, while the unit is engaged in an operation, ends with CLASS 2, DETAIL 7. Begun with none, it engages
this unit as the coordinator and sends its pass; on a unit with no active port the whole operation completes at once: a count-
off makes it head A of a map of one with a later epoch, a barrier and a snapshot end with the number of units, a chain reset
ends its command and waits for the reply. (R532, R533, R536, R546, R547, R548, R549, R550.) -/
def Obligations.ChainCommands : Prop :=
  (∀ (id op : Nat) (c : Cmd) (o : ChainOp) (i : Instr) (s : State),
      s.dev.Doing id 0x29 c ∧ c.field 16 1 = op ∧ c.work = 0 ∧ s.dev.link.op = some o →
      (op, i) ∈ [(1, Instr.chainOpCountOff id), (2, .chainOpBarrier id), (3, .chainOpReset id)] →
      Becomes i s (s.dev.endCmd id 2 7)) ∧
  (∀ (id : Nat) (c : Cmd) (s : State),
      s.dev.Doing id 0x29 c ∧ c.field 16 1 = 1 ∧ c.work = 0 ∧ s.dev.link.op = none ∧ s.dev.fw.cmds = [c] →
      s.dev.portState 0 ≠ 2 ∧ s.dev.portState 1 ≠ 2 ∧ s.dev.link.units = [] ∧ s.dev.host.held = [] →
      Gives (.chainOpCountOff id) s fun d => d.link.op = none ∧ d.addr = 0 ∧ d.role = 1 ∧ d.fg .QL_ID_UNITS = 1 ∧
      d.is .QL_STAT_ADDR_VALID = true ∧ d.epoch = (if (s.dev.epoch + 1) % 2 ^ 32 = 0 then 1 else (s.dev.epoch + 1) % 2 ^ 32) ∧
      d.link.units.map (·.serial) = [s.dev.serial] ∧ (d.cmd id).map (fun c => (c.stage, c.cls, c.detail, c.r0)) = some (.ended, 0, 0, 1)) ∧
  (∀ (id : Nat) (c : Cmd) (s : State),
      s.dev.Doing id 0x29 c ∧ c.field 16 1 = 2 ∧ c.work = 0 ∧ s.dev.link.op = none ∧ s.dev.fw.cmds = [c] →
      s.dev.portState 0 ≠ 2 ∧ s.dev.portState 1 ≠ 2 →
      Gives (.chainOpBarrier id) s fun d => d.link.op = none ∧ d.is .QL_STAT_HOLD = false ∧
      (d.cmd id).map (fun c => (c.stage, c.cls, c.detail)) = some (.ended, 0, 0) ∧ (d.cmd id).map (fun c => (c.r0, c.r1)) = some (s.dev.fg .QL_ID_UNITS, 0)) ∧
  (∀ (id : Nat) (c : Cmd) (s : State),
      s.dev.Doing id 0x29 c ∧ c.field 16 1 = 3 ∧ c.work = 0 ∧ s.dev.link.op = none →
      s.dev.portState 0 ≠ 2 ∧ s.dev.portState 1 ≠ 2 →
      Gives (.chainOpReset id) s fun d => d.link.op.map (fun o => (o.op, o.cmd, o.phase)) = some (4, some id, 2) ∧ d.is .QL_STAT_HOLD = true ∧
      (d.cmd id).map (fun c => (c.stage, c.cls, c.detail)) = some (.ended, 0, 0) ∧ (d.cmd id).map (fun c => (c.r0, c.r1)) = some (s.dev.fg .QL_ID_UNITS, 0)) ∧
  (∀ (id : Nat) (c : Cmd) (s : State),
      s.dev.Doing id 0x29 c ∧ c.field 16 1 = 2 ∧ c.work = 0 ∧ s.dev.link.op = none →
      Becomes (.chainOpBarrier id) s (chainProgress 3 (startPass { type := 0x35, arg := 1 } ((beginOp 2 id (s.dev.onCmd id fun c => { c with work := 1 })).onLink fun l => { l with barrier := (s.dev.onCmd id fun c => { c with work := 1 }).earlier (some id) })))) ∧
  (∀ (id : Nat) (c : Cmd) (o : ChainOp) (s : State),
      s.dev.Doing id 0x28 c ∧ c.field 20 1 ≠ 1 ∧ c.work = 0 ∧ s.dev.link.op = some o →
      Becomes (.snapshot id) s (s.dev.endCmd id 2 7)) ∧
  (∀ (id : Nat) (c : Cmd) (s : State),
      s.dev.Doing id 0x28 c ∧ c.field 20 1 ≠ 1 ∧ c.work = 0 ∧ s.dev.link.op = none ∧ s.dev.fw.cmds = [c] →
      s.dev.portState 0 ≠ 2 ∧ s.dev.portState 1 ≠ 2 →
      Gives (.snapshot id) s fun d => d.link.op = none ∧ d.is .QL_STAT_HOLD = false ∧
      (d.cmd id).map (fun c => (c.stage, c.cls, c.detail)) = some (.ended, 0, 0) ∧ (d.cmd id).map (fun c => (c.r0, c.r1)) = some (s.dev.fg .QL_ID_UNITS, s.dev.qtime)) ∧
  (∀ (id : Nat) (i : Instr) (s : State),
      s.dev.cmd id = none →
      i ∈ [Instr.snapshot id, .chainOpCountOff id, .chainOpBarrier id, .chainOpReset id] →
      Becomes i s s.dev)

/-- GROUP CREATE whose members have all answered with one media class makes the group with the next identifier and ends with it;
where they differ it ends with CLASS 3, DETAIL 0x11 and makes none; a descriptor against the limits ends so too. GROUP DELETE
of an idle group removes exactly that group and ends with CLASS 0; of an unknown group it ends with CLASS 3, DETAIL 0x10.
GROUP WRITE probes its members, then fetches its data and takes its next steps. GROUP READ adds a job for each sheet, and with
all done delivers and ends. GROUP STATUS delivers the status record. GROUP REBUILD asks the spare's unit. On a command that
does not run, none of them changes anything. (R553, R554, R556, R564, R566, R570, R572, R573, R576, R577.) -/
def Obligations.GroupCommands : Prop :=
  (∀ (id : Nat) (c : Cmd) (g : Group) (classes : List Nat) (s : State),
      s.dev.Doing id 0x20 c ∧ s.dev.comp.created = [(id, g, classes)] ∧ s.dev.link.units = [] →
      (classes.length = g.size ∧ g.size ≠ 0 ∧ (∀ x ∈ classes, x ≤ 1 ∧ x = classes.headD 0xFF)) →
      Gives (.groupCreate id) s fun d =>
      d.comp.groups = s.dev.comp.groups ++ [{ g with id := s.dev.serial % 2 ^ 20 * 4096 + s.dev.freeGroup, index := s.dev.freeIndex, media := classes.headD 0 }] ∧
      d.comp.created = [] ∧ d.comp.nextId = (s.dev.freeGroup + 1) % 4096 ∧
      (d.cmd id).map (fun c => (c.stage, c.cls, c.detail)) = some (.ended, 0, 0) ∧
      (d.cmd id).map (fun c => (c.r0, c.r1)) = some (s.dev.serial % 2 ^ 20 * 4096 + s.dev.freeGroup, 1)) ∧
  (∀ (id : Nat) (c : Cmd) (g : Group) (s : State),
      s.dev.Doing id 0x20 c ∧ s.dev.comp.created = [(id, g, [0, 1])] ∧ g.size = 2 →
      Becomes (.groupCreate id) s (({ s.dev with comp := { s.dev.comp with created := [] } } : Dev).endCmd id 3 0x11)) ∧
  (∀ (id : Nat) (c : Cmd) (s : State),
      s.dev.Doing id 0x20 c ∧ s.dev.HasData c ∧ s.dev.comp.created = [] →
      (s.dev.hostData c).length = 64 + 32 * le (s.dev.hostData c) 1 1 ∧ s.dev.geometryOk (s.dev.hostData c) = false →
      Becomes (.groupCreate id) s ((s.dev.sends (s.dev.dataAttr (c.flag 0) false)).endCmd id 3 0x11)) ∧
  (∀ (id : Nat) (c : Cmd) (g : Group) (s : State),
      s.dev.Doing id 0x21 c ∧ s.dev.group c.groupId = some g ∧ s.dev.groupBusy c.groupId id = false ∧ s.dev.link.units = [] →
      Gives (.groupDelete id) s fun d => d.comp.groups = s.dev.comp.groups.filter (fun x => x.id != c.groupId) ∧ d.group c.groupId = none ∧
      (d.cmd id).map (fun c => (c.stage, c.cls, c.detail)) = some (.ended, 0, 0)) ∧
  (∀ (id : Nat) (c : Cmd) (s : State) (i : Instr) (op : Nat),
      s.dev.Doing id op c ∧ s.dev.group c.groupId = none ∧ s.dev.comp.jobs = [] →
      (op, i) ∈ [(0x21, Instr.groupDelete id), (0x23, .groupRead id), (0x24, .groupStatus id)] →
      Becomes i s (s.dev.endCmd id 3 0x10)) ∧
  (∀ (id : Nat) (c : Cmd) (s : State),
      s.dev.Doing id 0x22 c →
      Becomes (.groupWrite id) s (groupWork (withData id gwData s.dev))) ∧
  (∀ (id : Nat) (c : Cmd) (g : Group) (s : State),
      s.dev.cmd id = some c ∧ c.stage = .running ∧ c.ssq = 0 ∧ c.opcode = 0x22 ∧ c.work = 0 →
      s.dev.mustWait c = false ∧ s.dev.blocked c = false ∧ judge s.dev c = none ∧ s.dev.group c.groupId = some g →
      Becomes (.groupWrite id) s ((s.dev.onCmd id fun c => { c with work := 1 }).each g.members.zipIdx fun d e =>
      if e.1.state = 0 then newAsk { kind := rqProbe, group := g.id, member := e.2, serial := e.1.unit, cmd := id, payload := reqBytes g.id g.gen 0 0 [] } none d else d)) ∧
  (∀ (id : Nat) (c : Cmd) (g : Group) (s : State),
      s.dev.Doing id 0x23 c ∧ s.dev.group c.groupId = some g ∧ c.work = 0 →
      Becomes (.groupRead id) s (groupWork ((s.dev.each (List.range c.run.2) fun d i => addJob { group := g.id, stripe := (c.run.1 + i) / g.k, slot := (c.run.1 + i) % g.k, cmd := id, index := i } d).onCmd id fun c => { c with work := 1 }))) ∧
  (∀ (id : Nat) (c : Cmd) (g : Group) (j : StripeJob) (cls : Nat) (s : State),
      s.dev.Doing id 0x23 c ∧ s.dev.group c.groupId = some g ∧ c.work ≠ 0 ∧ s.dev.fw.cmds = [c] →
      s.dev.comp.jobs = [j] ∧ j.cmd = id ∧ j.res = some (4, cls) ∧ j.group = g.id ∧ s.dev.comp.writes = [] ∧ s.dev.comp.parts = [] ∧ s.dev.comp.served = [] →
      Becomes (.groupRead id) s (endGroupRead c s.dev)) ∧
  (∀ (id : Nat) (c : Cmd) (g : Group) (s : State),
      s.dev.Doing id 0x24 c ∧ s.dev.HasData c ∧ s.dev.group c.groupId = some g →
      Becomes (.groupStatus id) s (({ s.dev.sends (s.dev.dataAttr (c.flag 0) true) with hostMem := memWrite s.dev.hostMem c.dptr ((statusRecord g s.dev).take c.dlen) } : Dev).endCmd id 0 0 g.gen (64 + 16 * g.size))) ∧
  (∀ (id : Nat) (c : Cmd) (g : Group) (u : QUnit) (s : State),
      s.dev.Doing id 0x25 c ∧ s.dev.group c.groupId = some g ∧ s.dev.unitAt (c.field 33 1) = some u ∧ c.work = 0 →
      Becomes (.groupRebuild id) s (newAsk { kind := rqSpare, group := g.id, member := c.field 32 1, serial := u.serial, cmd := id, payload := reqBytes g.id g.gen 0 0 (leBytes 4 (g.q * g.width)) } none (s.dev.onCmd id fun c => { c with work := 1 }))) ∧
  (∀ (id : Nat) (i : Instr) (s : State),
      s.dev.cmd id = none →
      i ∈ [Instr.groupCreate id, .groupDelete id, .groupWrite id, .groupRead id, .groupStatus id, .groupRebuild id] →
      Becomes i s s.dev)

/-- A unit request of another non-zero epoch is answered with CLASS 7 and this unit's epoch, counted, and not acted on; a wake
probe is answered with CLASS 0; a lock asked for is queued in arrival order and granted in its turn. A response reaches the
request it answers: one that is ASLEEP keeps it for another try. Unit data goes to the place it was asked for. GROUP_DECISION
with every sheet prepared and no stripe with too many failures submits the ORDER record and decides; with a failure beyond
F_MAX it fails the write. A member that does not answer within SLOW_MS is FAILED at the next generation. A pending command
found at a replay is asked about once. REBUILD_STRIPE opens stripes in ascending order. With nothing to do none of them
changes anything. (R537, R541, R562, R566, R567, R568, R569, R570, R571, R574.) -/
def Obligations.GroupMessages : Prop :=
  (∀ (p : Nat) (m : QMsg) (s : State),
      s.dev.Has p 0x20 m ∧ s.dev.fw.up = true ∧ m.epoch ≠ 0 ∧ m.epoch ≠ (s.dev.took p m).epoch →
      Becomes .unitRequest s (sendMsg { type := 0x21, dst := m.src, cls := 2, tag := m.tag, epoch := (s.dev.took p m).epoch, arg := 0x701, payload := leBytes 4 (s.dev.took p m).epoch } ((s.dev.took p m).bump .QL_CNT_STALE))) ∧
  (∀ (p : Nat) (m : QMsg) (s : State),
      s.dev.Has p 0x20 m ∧ s.dev.fw.up = true ∧ m.epoch = 0 ∧ m.arg = 1 ∧ s.dev.Calm ∧ s.dev.fw.cmds = [] →
      Becomes .unitRequest s (sendMsg { type := 0x21, dst := m.src, cls := 2, tag := m.tag, epoch := (s.dev.took p m).epoch } (s.dev.took p m))) ∧
  (∀ (p : Nat) (m : QMsg) (g : Group) (s : State),
      s.dev.Has p 0x20 m ∧ s.dev.fw.up = true ∧ m.epoch = 0 ∧ m.arg = 9 ∧ s.dev.Calm ∧ s.dev.fw.cmds = [] →
      s.dev.group (le m.payload 0 4) = some g ∧ s.dev.keeps g = true →
      Becomes .unitRequest s (grantLocks (le m.payload 0 4) ((s.dev.took p m).onGroup (le m.payload 0 4) fun g => { g with
      locks := g.locks ++ [(le m.payload 12 4, le m.payload 8 4 == 1, 2 ^ 32 + 65536 * m.src + m.tag, some (m.src, m.tag))] }))) ∧
  (∀ (p : Nat) (m : QMsg) (a : GroupAsk) (s : State),
      s.dev.Has p 0x21 m ∧ s.dev.comp.asks = [a] ∧ a.tag = m.tag ∧ a.kind = 1 ∧ m.arg / 256 ≤ 1 ∧ s.dev.Calm ∧ s.dev.fw.cmds = [] →
      Becomes .unitResponse s ((s.dev.took p m).onComp fun c => { c with asks := [], transfers := c.transfers.filter fun t => !(t.src == 64 && t.tag == m.tag) })) ∧
  (∀ (p : Nat) (m : QMsg) (a : GroupAsk) (s : State),
      s.dev.Has p 0x21 m ∧ s.dev.comp.asks = [a] ∧ a.tag = m.tag ∧ a.cmd = 0 ∧ m.arg / 256 = 8 ∧ s.dev.Calm ∧ s.dev.fw.cmds = [] →
      Becomes .unitResponse s ((s.dev.took p m).onComp fun c => { c with asks := [{ a with asleep := true }] })) ∧
  (∀ (p a : Nat) (m : QMsg) (t : Transfer) (s : State),
      s.dev.Has p 0x22 m ∧ m.epoch = 0 ∧ m.arg.testBit 31 = false ∧ s.dev.comp.transfers = [t] ∧ t.src = 64 ∧ t.tag = m.tag →
      t.addr = some a ∧ t.got = 256 * (m.arg % 2 ^ 31) ∧ t.got + 256 < 131072 →
      Becomes .unitData s (((s.dev.took p m).bufPut 8 (a + t.got) (takeFill 0#8 256 m.payload)).onComp fun c => { c with
      transfers := c.transfers.map fun x => if x.src == 64 && x.tag == m.tag then { x with got := x.got + 256 } else x })) ∧
  (∀ (gid n : Nat) (g : Group) (w : GroupWrite) (s : State),
      s.dev.comp.writes = [w] ∧ w.group = gid ∧ w.n = n ∧ s.dev.group gid = some g ∧ w.phase = 2 →
      ((∀ e ∈ w.sheets, e.2.2.2 ≠ .preparing) ∧ (∀ x ∈ w.stripes, g.failedIn x ≤ g.fmax)) →
      Becomes (.groupDecision gid n) s ((s.dev.fwSubmit false 0x08 0 (leBytes 1 (0x80 + g.index) ++ leBytes 4 n ++ leBytes 4 g.gen)).onComp fun c => { c with writes := c.writes.map fun x => if x.group == gid && x.n == n then { x with phase := 3, decided := some true, gen := g.gen } else x })) ∧
  (∀ (gid n x : Nat) (g : Group) (w : GroupWrite) (s : State),
      s.dev.comp.writes = [w] ∧ w.group = gid ∧ w.n = n ∧ s.dev.group gid = some g ∧ w.phase = 2 →
      ((∀ e ∈ w.sheets, e.2.2.2 ≠ .preparing) ∧ x ∈ w.stripes ∧ g.fmax < g.failedIn x) →
      Becomes (.groupDecision gid n) s (gwFail w s.dev)) ∧
  (∀ (gid n : Nat) (s : State),
      (∀ w ∈ s.dev.comp.writes, w.group = gid → w.n = n → w.phase ≠ 2) →
      Becomes (.groupDecision gid n) s s.dev) ∧
  (∀ (tag : Fin 65536) (a : GroupAsk) (g : Group) (s : State),
      s.dev.comp.asks = [a] ∧ a.tag = tag.val ∧ a.kind = 5 ∧ a.member < g.size ∧ a.member ≠ 0xFF ∧ s.dev.Calm ∧ s.dev.fw.cmds = [] →
      a.since + 1000000 * g.slow ≤ s.dev.qtime ∧ s.dev.group a.group = some g ∧ s.dev.keeps g = true ∧ g.mstate a.member ≠ 2 ∧ s.dev.link.units = [] →
      Gives (.slowMemberTimeout tag) s fun d => (d.group a.group).map (fun x => (x.mstate a.member, x.gen, x.size)) = some (2, genNext g.gen, g.size) ∧
      d.comp.asks = [] ∧ (d.fg .HP_UNIT_ATTN_PEND).testBit 3 = true ∧ d.fw.cmds = [] ∧ d.regs.lookup (Reg.QL_ID.key 0 0) = s.dev.regs.lookup (Reg.QL_ID.key 0 0)) ∧
  (∀ (tag : Fin 65536) (a : GroupAsk) (g : Group) (s : State),
      s.dev.comp.asks = [a] ∧ s.dev.group a.group = some g ∧ s.dev.qtime < a.since + 1000000 * g.slow →
      Becomes (.slowMemberTimeout tag) s s.dev) ∧
  (∀ (tag : Fin 65536) (s : State),
      s.dev.comp.asks = [] →
      Becomes (.slowMemberTimeout tag) s s.dev) ∧
  (∀ (p : GroupPart) (g : Group) (s : State),
      s.dev.comp.parts = [p] ∧ p.replayed = true ∧ p.asked = false ∧ p.release = none ∧ s.dev.group p.group = some g ∧ s.dev.link.units = [] ∧ s.dev.comp.transfers = [] →
      Becomes .pendingResolve s { s.dev with
      link := { s.dev.link with tag := (s.dev.link.tag + 1) % 2 ^ 16 }
      comp := { s.dev.comp with parts := [{ p with asked := true }], asks := s.dev.comp.asks ++ [{ tag := s.dev.link.tag, kind := 11, group := g.id, member := 0xFF, serial := g.keeper, payload := leBytes 4 g.id ++ leBytes 4 g.gen ++ leBytes 4 p.n ++ leBytes 4 0 ++ [], since := s.dev.qtime }] } }) ∧
  (∀ (s : State),
      (∀ p ∈ s.dev.comp.parts, p.replayed = false) →
      Becomes .pendingResolve s s.dev) ∧
  (∀ (a : GroupAsk) (s : State),
      s.dev.comp.asks = [a] ∧ a.asleep = true ∧ (s.dev.addrOf a.serial).isSome = true →
      Becomes .asleepRetry s (sendAsk a { s.dev with comp := { s.dev.comp with asks := [{ a with asleep := false }] } })) ∧
  (∀ (gid j : Nat) (g : Group) (s : State),
      s.dev.group gid = some g ∧ g.building = some j ∧ s.dev.myMember g = some j ∧ g.mstate j = 3 →
      Becomes (.rebuildStripe gid) s (let d := openStripes gid j (4 * g.size) (recordWork s.dev); d.each (d.comp.jobs.filter fun x => x.cmd == 0 && x.group == gid) fun d x => rebuildJob g x d)) ∧
  (∀ (gid j r : Nat) (g : Group) (d : Dev),
      d.group gid = some g ∧ d.comp.jobs = [] ∧ g.nextStripe < g.stripes ∧ (g.stripeMembers g.nextStripe).idxOf? j = some r →
      openStripes gid j 1 d = addJob { group := gid, stripe := g.nextStripe, slot := r, make := true } (d.onGroup gid fun g => { g with nextStripe := g.nextStripe + 1 })) ∧
  (∀ (gid : Nat) (s : State),
      s.dev.group gid = none →
      Becomes (.rebuildStripe gid) s s.dev)

/-- A frost line on an awake unit holds it: FROST is set, every OPU island goes off, the journal begins its seal and the crossing
is timed. During a hold it only counts and stops the thaw timer; in DORMANT, and in a unit held in reset, only the AON island
is touched; a trip on no monitor in use does nothing. Regaining the supply starts the timer and a dip stops it with its count.
THAW with the timer running clears the hold and the seal; with it stopped nothing changes. WAKE ends DORMANT in PARKED with
the islands on, waits during a hold, and does nothing in any other mode. (R591, R592, R597, R598, R601, R602, R603, R641.) -/
def Obligations.FrostAndThaw : Prop :=
  (∀ (levels : List (Nat × Nat)) (pos : List Int) (s : State),
      s.dev.below s.dev.tripLevel levels = [] →
      Becomes (.frostLineEvent levels pos) s s.dev) ∧
  (∀ (levels : List (Nat × Nat)) (pos : List Int) (m : Nat) (s : State),
      m ∈ s.dev.below s.dev.tripLevel levels ∧ s.dev.frost = false ∧ s.dev.mode ≠ 1 ∧ s.dev.aon.reset = false →
      Gives (.frostLineEvent levels pos) s fun d => d.frost = true ∧ d.is .PMU_STAT_THAWING = false ∧ d.aon.frostAt = s.dev.qtime ∧ d.aon.crossings = 1 ∧
      (∀ o : Fin 4, s.dev.opuPresent o = true → d.stage o = .off) ∧ (∀ o : Fin 4, s.dev.opuPresent o = true → d.fg .WSG_OCTL_GATE_EN o = 0) ∧
      d.hostMem = s.dev.hostMem ∧ d.dram = s.dev.dram ∧ d.qtime = s.dev.qtime) ∧
  (∀ (levels : List (Nat × Nat)) (pos : List Int) (s : State),
      s.dev.frost = true ∧ s.dev.below s.dev.tripLevel levels = [0] →
      Becomes (.frostLineEvent levels pos) s
      { (((s.dev.fs .PMU_STAT_SYS_TRIP 1).bump .PMU_CNT_FROST).cond (s.dev.is .PMU_STAT_THAWING) fun d => d.bump .PMU_CNT_THAWRST).fs .PMU_STAT_THAWING 0 with aon := { s.dev.aon with crossings := s.dev.aon.crossings + 1 } }) ∧
  (∀ (levels : List (Nat × Nat)) (pos : List Int) (s : State),
      s.dev.frost = false ∧ (s.dev.mode = 1 ∨ s.dev.aon.reset = true) ∧ s.dev.below s.dev.tripLevel levels = [1] →
      Becomes (.frostLineEvent levels pos) s { ((((s.dev.fs .PMU_STAT_CORE_TRIP 1).bump .PMU_CNT_FROST).fs .PMU_STAT_FROST 1).fs .PMU_STAT_THAWING 0) with aon := { s.dev.aon with frostAt := s.dev.qtime, crossings := 1, owed := true } }) ∧
  (∀ (levels : List (Nat × Nat)) (s : State),
      s.dev.frost = true ∧ s.dev.is .PMU_STAT_THAWING = false ∧ s.dev.below s.dev.thawLevel levels = [] →
      Becomes (.supplyRegained levels) s { s.dev.fs .PMU_STAT_THAWING 1 with aon := { s.dev.aon with regained := s.dev.qtime } }) ∧
  (∀ (levels : List (Nat × Nat)) (s : State),
      s.dev.frost = false ∨ s.dev.is .PMU_STAT_THAWING = true ∨ s.dev.below s.dev.thawLevel levels ≠ [] →
      Becomes (.supplyRegained levels) s s.dev) ∧
  (∀ (levels : List (Nat × Nat)) (s : State),
      Becomes (.thawTimerReset levels) s (if s.dev.is .PMU_STAT_THAWING = true ∧ s.dev.below s.dev.thawLevel levels ≠ [] then (s.dev.fs .PMU_STAT_THAWING 0).bump .PMU_CNT_THAWRST else s.dev)) ∧
  (∀ (counts : List Nat) (s : State),
      s.dev.frost = true ∧ s.dev.is .PMU_STAT_THAWING = true ∧ s.dev.is .FUSE_STAT_BUSY = false ∧ s.dev.fw.up = false ∧ s.dev.mode ≠ 1 →
      s.dev.aon.regained + 1000000 * s.dev.fg .PMU_THAW_MS ≤ s.dev.qtime →
      Gives (.thaw counts) s fun d => d.frost = false ∧ d.is .PMU_STAT_THAWING = false ∧ d.is .RJ_STAT_SEALED = false ∧ d.is .SPN_STAT_FROST_HOLD = false ∧
      d.journal = { s.dev.journal with sealing := false } ∧ d.fw = s.dev.fw ∧ d.aon = s.dev.aon ∧ d.mode = s.dev.mode ∧ d.hostMem = s.dev.hostMem ∧ d.dram = s.dev.dram) ∧
  (∀ (counts : List Nat) (s : State),
      s.dev.frost = false ∨ s.dev.is .PMU_STAT_THAWING = false ∨ s.dev.qtime < s.dev.aon.regained + 1000000 * s.dev.fg .PMU_THAW_MS →
      Becomes (.thaw counts) s s.dev) ∧
  (∀ (counts : List Nat) (s : State),
      s.dev.frost = true ∧ s.dev.is .PMU_STAT_THAWING = true ∧ s.dev.is .FUSE_STAT_BUSY = true ∧ s.dev.fw.up = false ∧ s.dev.mode ≠ 1 →
      s.dev.aon.regained + 1000000 * s.dev.fg .PMU_THAW_MS ≤ s.dev.qtime →
      ∃ t, exec (.thaw counts) s = .next t ∧ t.pending = s.pending ∧ t.dev.is .FUSE_STAT_BUSY = false ∧
      t.fuses = s.fuses ||| arbBits (bitsOf s.fuses 1472 64) (limitN 0 64 s.dev.aon.arbTarget) <<< 1472) ∧
  (∀ (cause : Fin 4) (counts : List Nat) (s : State),
      s.dev.mode = 1 ∧ s.dev.frost = false ∧ s.dev.aon.owed = false ∧ s.dev.fw.cmds = [] →
      Gives (.wake cause counts) s fun d => d.mode = 2 ∧ d.fg .PMU_WAKE_CAUSE = cause.val ∧ d.fg .PMU_STAT_ISL = 0x1D + 2 * bit s.dev.bonded ∧ d.is .CLK_STAT_LOCKED = true ∧
      d.rd .PMU_CNT_WAKE = (s.dev.bump .PMU_CNT_WAKE).rd .PMU_CNT_WAKE ∧
      d.link.inbox = s.dev.link.ingress.map (fun m => (2, m)) ++ s.dev.link.inbox ∧ d.link.ingress = [] ∧ d.hostMem = s.dev.hostMem ∧ d.fw.map = s.dev.fw.map) ∧
  (∀ (cause : Fin 4) (counts : List Nat) (s : State),
      s.dev.mode = 1 ∧ s.dev.frost = true →
      Becomes (.wake cause counts) s { s.dev with aon := { s.dev.aon with wakeOwed := cause } }) ∧
  (∀ (cause : Fin 4) (counts : List Nat) (s : State),
      s.dev.mode ≠ 1 →
      Becomes (.wake cause counts) s s.dev)

/-- A unit reset clears the commands, the link and the engines, leaves every island off and boot not begun, records its cause and
counts itself; Quire time, the fuse shadow, the role epoch, the last-gasp log, the journal's rows, the maps of groups and host
memory stay, where both banks have a superblock. A power-on reset keeps no register: Quire time, the shadow and the last-gasp
log are gone too, the flash and the journal's rows stay. PLL unlock and crystal failure are unit resets of their causes, the
latter held until the crystal returns. The watchdog counts heartbeats, restarts firmware at the first missing one and resets
the unit at a second within 60 s. (R610, R616, R617, R618, R619, R621, R622.) -/
def Obligations.Resets : Prop :=
  (∀ (s : State),
      s.dev.mode ≠ 1 →
      (∀ b : Fin 2, bitsOf (s.dev.journal.rowAt b 0).toNat 0 32 = 0x4C524E4A) →
      Gives (.unitReset false [] []) s fun d => d.fg .CLK_RST_CAUSE = 1 ∧ d.rd .CLK_BOOT = 0#32 ∧ d.fg .PMU_STAT_ISL = 0 ∧ d.is .CLK_STAT_LOCKED = false ∧
      d.rd .CLK_CNT_UNITRST = (s.dev.bump .CLK_CNT_UNITRST).rd .CLK_CNT_UNITRST ∧ d.aon.reset = true ∧
      d.fw = {} ∧ d.link = {} ∧ d.host = {} ∧ d.eng = {} ∧ d.dram = [] ∧ d.opuStage = [] ∧
      d.qtime = s.dev.qtime ∧ d.shadow = s.dev.shadow ∧ d.epoch = s.dev.epoch ∧ d.journal.gasps = s.dev.journal.gasps ∧ d.journal.rows = s.dev.journal.rows ∧
      d.aon.flash = s.dev.aon.flash ∧ d.hostMem = s.dev.hostMem ∧ d.comp.groups.map (·.id) = s.dev.comp.groups.map (·.id)) ∧
  (∀ (s : State),
      (∀ b : Fin 2, bitsOf (s.dev.journal.rowAt b 0).toNat 0 32 = 0x4C524E4A) →
      Gives .powerOnReset s fun d => d.fg .CLK_RST_CAUSE = 0 ∧ d.fg .PMU_STAT_ISL = 0 ∧ d.epoch = 0 ∧ d.qtime = 0 ∧ d.shadow = 0 ∧ d.aon = { flash := s.dev.aon.flash } ∧
      d.fw = {} ∧ d.link = {} ∧ d.host = {} ∧ d.eng = {} ∧ d.dram = [] ∧ d.journal.gasps = [] ∧ d.journal.rows = s.dev.journal.rows ∧
      d.hostMem = s.dev.hostMem ∧ d.comp.groups.map (·.id) = s.dev.comp.groups.map (·.id)) ∧
  (∀ (begun : Bool) (s : State),
      s.dev.is .CLK_STAT_LOCKED = true →
      Becomes (.pllUnlock begun) s (unitReset 4 false begun [] [] ((s.dev.fs .CLK_STAT_UNLOCK 1).bump .CLK_CNT_UNLOCK))) ∧
  (∀ (begun : Bool) (s : State),
      s.dev.is .CLK_STAT_LOCKED = false →
      Becomes (.pllUnlock begun) s s.dev) ∧
  (∀ (begun : Bool) (s : State),
      s.dev.aon.internal = false →
      Gives (.crystalFail begun) s fun d => d.aon.internal = true ∧ d.fg .CLK_RST_CAUSE = 5 ∧ d.is .CLK_STAT_XTAL_FAIL = true ∧ d.is .CLK_STAT_XTAL_OK = false ∧ d.fw = {} ∧ d.aon.reset = true) ∧
  (∀ (s : State),
      Becomes .crystalReturn s (({ s.dev with aon := { s.dev.aon with internal := false } } : Dev).fs .CLK_STAT_XTAL_OK 1)) ∧
  (∀ (begun : Bool) (s : State),
      s.dev.is .CLK_WDT_EN = true ∧ s.dev.fw.up = true ∧ s.dev.mode ≠ 1 ∧ s.dev.aon.reset = false ∧ s.dev.watchPaused = false ∧ s.dev.aon.beats = 15 →
      Becomes (.watchdogExpiry begun) s { s.dev with aon := { s.dev.aon with beats := 0 } }) ∧
  (∀ (begun : Bool) (s : State),
      s.dev.is .CLK_WDT_EN = true ∧ s.dev.fw.up = true ∧ s.dev.mode ≠ 1 ∧ s.dev.aon.reset = false ∧ s.dev.watchPaused = false ∧ s.dev.aon.beats ≠ 15 →
      s.dev.aon.restarted = 0 ∧ s.dev.fw.cmds = [] →
      Becomes (.watchdogExpiry begun) s { ((s.dev.fs .CLK_RST_FWCAUSE 2).bump .CLK_CNT_FWRST) with aon := { s.dev.aon with restarted := s.dev.qtime + 1, beats := 0, restart := false, paused := some s.dev.qtime } }) ∧
  (∀ (begun : Bool) (s : State),
      s.dev.is .CLK_WDT_EN = true ∧ s.dev.fw.up = true ∧ s.dev.mode ≠ 1 ∧ s.dev.mode ≠ 7 ∧ s.dev.aon.reset = false ∧ s.dev.watchPaused = false ∧ s.dev.aon.beats ≠ 15 →
      s.dev.aon.restarted ≠ 0 ∧ s.dev.qtime + 1 < s.dev.aon.restarted + 60000000000 →
      Becomes (.watchdogExpiry begun) s (unitReset 3 false begun [] [] s.dev)) ∧
  (∀ (begun : Bool) (s : State),
      s.dev.is .CLK_WDT_EN = false ∨ s.dev.fw.up = false ∨ s.dev.mode = 1 ∨ s.dev.aon.reset = true ∨ s.dev.watchPaused = true →
      Becomes (.watchdogExpiry begun) s s.dev) ∧
  (∀ (k : Nat) (s : State),
      s.dev.aon.restart = true ∧ s.dev.fw.up = true ∧ s.dev.mode ≠ 1 ∧ s.dev.fw.cmds = [] ∧ s.dev.bootOrder = [k] ∧ k < 2 →
      imageFault s.dev.shadow (s.dev.slotHeader k) (s.dev.slotBody k) = none →
      Gives .firmwareRestart s fun d => d.fg .CLK_RST_FWCAUSE = 1 ∧ d.rd .CLK_CNT_FWRST = (s.dev.bump .CLK_CNT_FWRST).rd .CLK_CNT_FWRST ∧
      d.fg .CLK_BOOT_SLOT = k ∧ d.is .CLK_BOOT_FALLBACK = false ∧ d.aon = { s.dev.aon with image := s.dev.slotHeader k, beats := 0, restart := false, paused := some s.dev.qtime } ∧ d.fw.up = true ∧ d.fw.map = s.dev.fw.map) ∧
  (∀ (s : State),
      s.dev.aon.restart = false →
      Becomes .firmwareRestart s s.dev)

/-- BOOT of a unit held in reset loads the fuse shadow and ends at stage 3 with the DRAM trained and the flash found, or stops
with its cause: 6 where the PLL does not lock, 1 where the flash is not usable. BOOT_IMAGE_CHECK takes the valid slot and
reaches stage 5, or stops with the cause found. BOOT_FIRMWARE_START ends with firmware running, stage 7, the engine on and
locked, in PARKED, and advances the anti-rollback fuses to the image's value. Each does nothing at another stage. (R610, R623,
R624, R625, R626, R628, R630, R639, R640.) -/
def Obligations.BootSequence : Prop :=
  (∀ (counts : List Nat) (s : State),
      s.dev.aon.reset = true ∧ s.dev.aon.internal = false ∧ s.dev.bootFailed = false →
      Gives (.boot true true none counts) s fun d => d.shadow = s.fuses ∧ d.aon.reset = false ∧ d.fg .CLK_BOOT_STAGE = 3 ∧ d.bootFailed = false ∧
      d.is .FUSE_STAT_LOADED = true ∧ d.is .CLK_STAT_LOCKED = true ∧ d.is .CLK_STAT_XTAL_OK = true ∧ d.fg .PMU_STAT_ISL = 0x1D + 2 * bit s.dev.bonded ∧ d.is .QL_CTL_EN = true ∧
      d.hostMem = s.dev.hostMem ∧ d.fw = s.dev.fw) ∧
  (∀ (table : Bool) (counts : List Nat) (s : State),
      s.dev.aon.reset = true ∧ s.dev.aon.internal = false →
      Becomes (.boot false table none counts) s ((bootShadow s.fuses s.dev).fs .CLK_BOOT_FAIL 6)) ∧
  (∀ (counts : List Nat) (s : State),
      s.dev.aon.reset = true ∧ s.dev.aon.internal = false →
      Gives (.boot true false none counts) s fun d => d.fg .CLK_BOOT_FAIL = 1 ∧ d.fg .CLK_BOOT_STAGE = 2 ∧ d.shadow = s.fuses) ∧
  (∀ (lock table : Bool) (fail : Option (Fin 4 × Fin 5)) (counts : List Nat) (s : State),
      s.dev.aon.reset = false ∨ s.dev.aon.internal = true →
      Becomes (.boot lock table fail counts) s s.dev) ∧
  (∀ (k : Nat) (s : State),
      s.dev.aon.reset = false ∧ s.dev.fg .CLK_BOOT_STAGE = 3 ∧ s.dev.bootFailed = false ∧ s.dev.bootOrder = [k] →
      imageFault s.dev.shadow (s.dev.slotHeader k) (s.dev.slotBody k) = none →
      Becomes .bootImageCheck s ((({ s.dev with aon := { s.dev.aon with image := s.dev.slotHeader k } } : Dev).fs .CLK_BOOT_STAGE 5 |>.fs .CLK_BOOT_SLOT k).fs .CLK_BOOT_FALLBACK 0)) ∧
  (∀ (s : State),
      s.dev.aon.reset = false ∧ s.dev.fg .CLK_BOOT_STAGE = 3 ∧ s.dev.bootFailed = false ∧ s.dev.bootOrder = [] →
      Becomes .bootImageCheck s (s.dev.fs .CLK_BOOT_FAIL 2)) ∧
  (∀ (k r : Nat) (s : State),
      s.dev.aon.reset = false ∧ s.dev.fg .CLK_BOOT_STAGE = 3 ∧ s.dev.bootFailed = false ∧ s.dev.bootOrder = [k] →
      imageFault s.dev.shadow (s.dev.slotHeader k) (s.dev.slotBody k) = some r →
      Becomes .bootImageCheck s ((s.dev.fs .CLK_BOOT_STAGE 4).fs .CLK_BOOT_FAIL (if r = 4 then 4 else 3))) ∧
  (∀ (ms : Nat) (s : State),
      s.dev.aon.reset = false ∧ s.dev.fg .CLK_BOOT_STAGE = 5 ∧ s.dev.bootFailed = false ∧ s.dev.fw.cmds = [] ∧ hField s.dev.aon.image 20 1 ≤ s.dev.arb →
      Gives (.bootFirmwareStart ms) s fun d => d.fw.up = true ∧ d.fg .CLK_BOOT_STAGE = 7 ∧ d.fg .CLK_BOOT_MS = limitN 0 65535 ms ∧ d.mode = 2 ∧
      d.is .CLE_CTL_EN = true ∧ d.is .CLE_CTL_CS_LOCK = true ∧ d.is .RJ_CTL_EN = true ∧ d.shadow = s.dev.shadow ∧ d.hostMem = s.dev.hostMem ∧ d.aon.beats = 0) ∧
  (∀ (ms : Nat) (s : State),
      s.dev.aon.reset = false ∧ s.dev.fg .CLK_BOOT_STAGE = 5 ∧ s.dev.bootFailed = false ∧ s.dev.arb < hField s.dev.aon.image 20 1 →
      s.dev.is .CLK_BOOT_FALLBACK = false ∧ s.dev.is .FUSE_STAT_BUSY = false ∧ s.dev.frost = false ∧ hField s.dev.aon.image 20 1 ≤ 64 ∧ s.dev.fw.cmds = [] →
      ∃ t, exec (.bootFirmwareStart ms) s = .next t ∧ t.pending = s.pending ∧ t.fuses = s.fuses ||| arbBits (bitsOf s.fuses 1472 64) (hField s.dev.aon.image 20 1) <<< 1472) ∧
  (∀ (ms : Nat) (s : State),
      s.dev.aon.reset = true ∨ s.dev.fg .CLK_BOOT_STAGE ≠ 5 ∨ s.dev.bootFailed = true →
      Becomes (.bootFirmwareStart ms) s s.dev)

/-- Each instruction of the TAP selects itself, captures what Table 21-6 gives it and sets who drives the pins; nothing else of
the unit changes, but for FUSE_PROG, REG_ACCESS, DBG_ACCESS and CLE_PATCH, which DEBUG_LOCK turns into BYPASS where the spec
says so. FUSE_PROG blows exactly the selected locks and refuses outside 0 to 85 °C or during a frost hold. FUSE_ARB_SET blows
the lowest bits up to its target, waits during a hold, and does nothing at or below the present value. (R633, R635, R641,
R642, R643, R644, R645.) -/
def Obligations.TestAccessPort : Prop :=
  (∀ (s : State),
      Becomes .tapReset s { s.dev with tap := { cells := s.dev.tap.cells } }) ∧
  (∀ (pins cells : Nat) (s : State),
      Becomes (.extest pins cells) s { s.dev with tap := { inst := 0, out := pins, cells := cells, drive := true, float := false, ir := 1 } }) ∧
  (∀ (pins cells : Nat) (s : State),
      Becomes (.samplePreload pins cells) s { s.dev with tap := { inst := 1, out := pins, cells := cells, drive := false, float := false, ir := 1 } }) ∧
  (∀ (s : State),
      Becomes .idcode s { s.dev with tap := { s.dev.tap with inst := 2, out := 0x1009656F, drive := false, float := false, ir := 1 } }) ∧
  (∀ (s : State),
      Becomes .jtagClamp s { s.dev with tap := { s.dev.tap with inst := 3, out := 0, drive := true, float := false, ir := 1 } }) ∧
  (∀ (s : State),
      Becomes .highz s { s.dev with tap := { s.dev.tap with inst := 4, out := 0, drive := false, float := true, ir := 1 } }) ∧
  (∀ (s : State),
      Becomes .bootStatus s { s.dev with tap := { s.dev.tap with inst := 0x10, out := (s.dev.rd .CLK_BOOT).toNat + (s.dev.rd .CLK_RST).toNat * 2 ^ 32, drive := false, float := false, ir := 1 } }) ∧
  (∀ (index : Fin 4096) (s : State),
      Becomes (.fuseRead index) s { s.dev with tap := { s.dev.tap with inst := 0x11, out := bitsOf s.dev.shadow (32 * index) 32, drive := false, float := false, ir := 1 } }) ∧
  (∀ (code : Fin 256) (s : State),
      Becomes (.bypass code) s { s.dev with tap := { s.dev.tap with inst := code, out := 0, drive := false, float := false, ir := 1 } }) ∧
  (∀ (locks : Fin 4) (temp : Int) (s : State),
      0 ≤ temp ∧ temp ≤ 85 ∧ s.dev.frost = false →
      exec (.fuseProg locks temp) s = .next { s with fuses := s.fuses ||| lockBits locks, dev := { s.dev.tapOut 0x12 0 with shadow := s.dev.shadow ||| lockBits locks } }) ∧
  (∀ (locks : Fin 4) (temp : Int) (s : State),
      (temp < 0 ∨ 85 < temp ∨ s.dev.frost = true) ∧ s.dev.fw.up = false →
      Becomes (.fuseProg locks temp) s ((s.dev.tapOut 0x12 0).fs .FUSE_STAT_PROG_ERR 1)) ∧
  (∀ (locks : Fin 4) (k : Nat),
      (lockBits locks).testBit k = ((locks.val.testBit 0 && decide (1536 ≤ k ∧ k < 1539)) || (locks.val.testBit 1 && decide (1539 ≤ k ∧ k < 1542)))) ∧
  (∀ (target : Fin 128) (s : State),
      s.dev.is .FUSE_STAT_BUSY = false ∧ s.dev.frost = false ∧ s.dev.arb < limitN 0 64 target →
      ∃ t, exec (.fuseArbSet target) s = .next t ∧ t.pending = s.pending ∧ t.fuses = s.fuses ||| arbBits (bitsOf s.fuses 1472 64) (limitN 0 64 target) <<< 1472 ∧
      t.dev = ({ s.dev with shadow := s.dev.shadow ||| arbBits (bitsOf s.fuses 1472 64) (limitN 0 64 target) <<< 1472 } : Dev).fs .FUSE_STAT_BUSY 0) ∧
  (∀ (target : Fin 128) (s : State),
      s.dev.is .FUSE_STAT_BUSY = false ∧ s.dev.frost = true ∧ s.dev.arb < limitN 0 64 target →
      Becomes (.fuseArbSet target) s { s.dev.fs .FUSE_STAT_BUSY 1 with aon := { s.dev.aon with arbTarget := target } }) ∧
  (∀ (target : Fin 128) (s : State),
      s.dev.is .FUSE_STAT_BUSY = true ∨ limitN 0 64 target ≤ s.dev.arb →
      Becomes (.fuseArbSet target) s s.dev) ∧
  (∀ (arb target : Nat),
      arb < 2 ^ 64 ∧ target ≤ 64 ∧ popCount 64 arb ≤ target →
      popCount 64 (arbBits arb target) = target ∧ (∀ i, arb.testBit i = true → (arbBits arb target).testBit i = true)) ∧
  (∀ (blk : Block) (off : Nat) (val : DWord) (s : State) (d : Dev),
      s.dev.debugLock = false ∧ d = readReg 14 blk off (s.dev.tapOut 0x20 0) →
      Becomes (.regAccess blk off 1 val) s { d with tap := { d.tap with out := (off % 2 ^ 24) + 1 <<< 24 + (leNat d.answer) <<< 26 } }) ∧
  (∀ (blk : Block) (off : Nat) (val : DWord) (s : State),
      s.dev.debugLock = false ∧ blk ≠ .fuse →
      Becomes (.regAccess blk off 2 val) s (writeReg 14 blk off val (s.dev.tapOut 0x20 0))) ∧
  (∀ (blk : Block) (off : Nat) (op : Fin 4) (val : DWord) (s : State),
      s.dev.debugLock = true →
      Becomes (.regAccess blk off op val) s (s.dev.tapOut 0x20 0)) ∧
  (∀ (addr : Fin 1099511627776) (op : Fin 4) (data : List (BitVec 8)) (s : State),
      s.dev.debugLock = true →
      Becomes (.dbgAccess addr op data) s (s.dev.tapOut 0x21 0)) ∧
  (∀ (addr : Fin 1099511627776) (data : List (BitVec 8)) (s : State) (d : Dev),
      s.dev.debugLock = false ∧ s.dev.blockOn .fbc = true →
      d = cacheRead 14 (addr / 16 * 16) 16 false .none { s.dev.tapOut 0x21 0 with answer := [], error := false } →
      Becomes (.dbgAccess addr 1 data) s { d with tap := { d.tap with out := addr + 1 <<< 40 + (if d.error = false then leNat d.answer else 0) <<< 42 + bit d.error <<< 170 } }) ∧
  (∀ (addr : Fin 1099511627776) (data : List (BitVec 8)) (s : State),
      s.dev.debugLock = false ∧ s.dev.blockOn .fbc = false →
      Becomes (.dbgAccess addr 2 data) s { s.dev with error := true, tap := { s.dev.tap with inst := 0x21, out := addr + 2 <<< 40 + 0 <<< 42 + 1 <<< 170, drive := false, float := false, ir := 1 } }) ∧
  (∀ (addr : Fin 16384) (val : BitVec 128) (s : State),
      s.dev.debugLock = false ∧ s.dev.blockOn .cle = true ∧ addr.val < 0x3000 ∧ s.dev.fw.up = false →
      Gives (.clePatch addr 1 val) s fun d => sparseGet 0#128 d.eng.cs addr = val ∧ (∀ a : Nat, a ≠ addr.val → sparseGet 0#128 d.eng.cs a = sparseGet 0#128 s.dev.eng.cs a) ∧ d.is .FUSE_STAT_PATCHED = true ∧
      d.tap.out = addr + 1 <<< 14 + val.toNat <<< 16 ∧ Changes [Reg.FUSE_STAT.key 0 0] s.dev d { s.dev with tap := d.tap, eng := { s.dev.eng with cs := d.eng.cs } }) ∧
  (∀ (addr : Fin 16384) (val : BitVec 128) (s : State),
      s.dev.debugLock = false ∧ s.dev.blockOn .cle = true →
      Becomes (.clePatch addr 2 val) s { s.dev with tap := { s.dev.tap with inst := 0x22, out := addr + 2 <<< 14 + (sparseGet 0#128 s.dev.eng.cs addr).toNat <<< 16, drive := false, float := false, ir := 1 } }) ∧
  (∀ (addr : Fin 16384) (op : Fin 4) (val : BitVec 128) (s : State),
      s.dev.debugLock = true →
      Becomes (.clePatch addr op val) s (s.dev.tapOut 0x22 0))

/-- LOAD whose spindle runs and whose OPUs are at read band 0 reads the records, keeps exactly the disc that they describe and the
map of its checkpoint, and ends with CLASS 0 in SPINNING; a clamp fault before that ends it with CLASS 6, DETAIL 4. UNLOAD
whose clamp is released ends with the serial number and forgets the disc. SEEK of an OPU that is TRACKING at the band of the
PSA ends with that OPU and the time it took; elsewhere it moves the OPU. CALIBRATE triggers its pairs, waits while they run or
are pending, and ends with no failures where each passed. On a command that does not run, none of them changes anything.
(R332, R422, R426, R469, R480, R481, R482, R345.) -/
def Obligations.DiscCommands : Prop :=
  (∀ (id : Nat) (m : Medium) (c : Cmd) (s : State),
      s.dev.Doing id 0x18 c ∧ c.work = 2 ∧ c.loadFlag 1 = false ∧ s.dev.frost = false →
      s.dev.clState ≠ 5 ∧ s.dev.fw.spnWithdrawn = false ∧ s.dev.loadFails = none ∧ s.dev.spnState = 4 ∧ s.dev.opus ≠ [] →
      (∀ o ∈ s.dev.opus, s.dev.atBandZero o = true) →
      s.dev.is .RJ_STAT_FAILED = true ∧ m.scan = [] ∧ m.blank = [] ∧ m.ambiguous = [] ∧ s.dev.link.units = [] →
      Gives (.load id m) s fun d => d.fw.disc = discOf m (c.loadFlag 0) s.dev ∧ d.mode = 3 ∧
      d.fw.map = (if m.checkpoint then m.map else []).foldl (fun r e => sparseSet 0 r e.1 (e.2 + 1)) [] ∧
      (d.cmd id).map (fun c => (c.stage, c.cls, c.detail)) = some (.ended, 0, 0) ∧ d.hostMem = s.dev.hostMem ∧ d.dram = s.dev.dram ∧ d.fw.streams = s.dev.fw.streams) ∧
  (∀ (id : Nat) (m : Medium) (c : Cmd) (s : State),
      s.dev.Doing id 0x18 c ∧ c.work = 0 ∧ s.dev.frost = false →
      Gives (.load id m) s fun d => (d.cmd id).map (·.work) = some 1 ∧ d.is .SLD_CL_STAT_NO_DISC = false ∧ (∀ o : Fin 4, d.opuFw o = { hot := (s.dev.opuFw o).hot }) ∧ d.hostMem = s.dev.hostMem ∧ d.fw.map = s.dev.fw.map ∧ d.fw.disc = s.dev.fw.disc) ∧
  (∀ (id : Nat) (m : Medium) (c : Cmd) (s : State),
      s.dev.Doing id 0x18 c ∧ c.work = 2 ∧ s.dev.frost = false ∧ s.dev.fw.spnWithdrawn = false ∧ s.dev.clState = 5 →
      Becomes (.load id m) s (s.dev.endCmd id 6 4)) ∧
  (∀ (id : Nat) (late : Bool) (c : Cmd) (s : State),
      s.dev.Doing id 0x19 c ∧ c.work = 2 ∧ s.dev.clState = 1 ∧ s.dev.comp.groups = [] →
      Becomes (.unload id late) s ((s.dev.endCmd id 0 0 s.dev.fw.disc.serial).onFw fun w => { w with
      disc := {}, map := [], mapOrder := [], recorded := [], retired := [], reserve := [], ambiguous := [], refresh := [],
      dirty := [], opcNext := [], opcFull := [], cpNext := [], cpFull := [], cpAbsorb := [], cpMap := [], cpRuns := [], versions := w.versions.filter fun v => v.cp.isNone })) ∧
  (∀ (id : Nat) (late : Bool) (c : Cmd) (s : State),
      s.dev.Doing id 0x19 c ∧ c.work = 0 ∧ s.dev.clState = 1 →
      Becomes (.unload id late) s (s.dev.endCmd id 0 0 s.dev.fw.disc.serial)) ∧
  (∀ (id o : Nat) (c : Cmd) (s : State),
      s.dev.Doing id 0x1A c ∧ c.work ≠ 0 ∧ c.field 21 1 = o ∧ o < 4 ∧ (s.dev.opuFw o).withdrawn = false →
      (s.dev.spnState = 4 ∧ s.dev.mode = 3 ∧ (∀ x ∈ s.dev.opus, s.dev.opuReady x = true ∧ s.dev.svSt x = svTracking)) →
      s.dev.opuReady o = true ∧ s.dev.svFree o = true ∧ s.dev.bandAt o = (layerKey (c.field 16 5), psaTrack (c.field 16 5) / 24 * 24) →
      Becomes (.seek id) s ((s.dev.svSet o svNextJ 0).endCmd id 0 0 o ((s.dev.qtime - (c.work - 1)) / 1000))) ∧
  (∀ (id o : Nat) (c : Cmd) (s : State),
      s.dev.Doing id 0x1A c ∧ c.work ≠ 0 ∧ c.field 21 1 = o ∧ o < 4 ∧ (s.dev.opuFw o).withdrawn = false ∧ s.dev.opuRecords o = false →
      (s.dev.spnState = 4 ∧ s.dev.mode = 3 ∧ (∀ x ∈ s.dev.opus, s.dev.opuReady x = true ∧ s.dev.svSt x = svTracking)) →
      s.dev.opuReady o = true ∧ s.dev.svFree o = true ∧ s.dev.bandAt o ≠ (layerKey (c.field 16 5), psaTrack (c.field 16 5) / 24 * 24) →
      s.dev.paceOk o (psaTrack (c.field 16 5) / 24 * 24) = true →
      Becomes (.seek id) s (moveTo o (psaTrack (c.field 16 5) / 24 * 24) (psaLayer (c.field 16 5))
      (setPace o (psaTrack (c.field 16 5) / 24 * 24) false s.dev))) ∧
  (∀ (id o : Nat) (c : Cmd) (s : State),
      s.dev.Doing id 0x1A c ∧ c.work ≠ 0 ∧ c.field 21 1 = o ∧ o < 4 ∧ (s.dev.opuFw o).withdrawn = true ∧ s.dev.frost = true →
      Becomes (.seek id) s (s.dev.endCmd id 6 1)) ∧
  (∀ (id : Nat) (c : Cmd) (s : State),
      s.dev.Doing id 0x1B c ∧ c.work = 0 ∧ c.field 20 1 = 0 →
      Becomes (.calibrate id) s ((calTrigger (c.field 16 4 % 2 ^ 28) s.dev).onCmd id fun c => { c with work := 1 })) ∧
  (∀ (id : Nat) (c : Cmd) (s : State),
      s.dev.Doing id 0x1B c ∧ c.work ≠ 0 ∧ (s.dev.fg .CAL_RUN_PAIRS ||| s.dev.fg .CAL_PEND_PAIRS) &&& (c.field 16 4 % 2 ^ 28) ≠ 0 →
      Becomes (.calibrate id) s s.dev) ∧
  (∀ (id : Nat) (c : Cmd) (s : State),
      s.dev.Doing id 0x1B c ∧ c.work ≠ 0 ∧ (s.dev.fg .CAL_RUN_PAIRS ||| s.dev.fg .CAL_PEND_PAIRS) &&& (c.field 16 4 % 2 ^ 28) = 0 →
      (c.field 20 1 = 0 ∧ (∀ p ∈ runOrder (c.field 16 4 % 2 ^ 28), bitsOf (s.dev.fg .CAL_RES_RESULT p.2) (3 * p.1) 3 = 1)) →
      Becomes (.calibrate id) s (s.dev.endCmd id 0 0 0 0)) ∧
  (∀ (id : Nat) (m : Medium) (i : Instr) (s : State),
      s.dev.cmd id = none →
      i ∈ [Instr.load id m, .unload id true, .unload id false, .seek id, .calibrate id] →
      Becomes i s s.dev)

/-- MICROCODE LOAD of a good image writes exactly its words into the open part of the control store and keeps its header; of a bad
one it ends with CLASS 3, DETAIL 0x0E and the reason, and writes none. The operations of OPEN CONTROL start, stop, release and
withdraw and end with what is enabled and released. FIRMWARE DOWNLOAD stages its bytes; FIRMWARE COMMIT of an image that
passes the check writes it to the other slot with the next commit sequence, of one that fails ends with CLASS 3, DETAIL 0x0F,
and waits while the fuses are busy. The codec test begins with its error rate set, the surface test begins each testable slot
as a version of its own, waits for them, frees the retired slots that passed and answers how many passed and failed; the raw
read and the trace copy deliver what the buffer holds. (R149, R185, R211, R223, R232, R234, R236, R367, R485, R486, R487,
R488.) -/
def Obligations.OpenAndService : Prop :=
  (∀ (id : Nat) (c : Cmd) (b : List (BitVec 8)) (s : State),
      s.dev.Doing id 0x30 c ∧ s.dev.HasData c ∧ b = s.dev.hostData c ∧ quejoFault b = none →
      c.dlen = 128 + 16 * hField b 6 2 ∧ (c.field 24 1).testBit 0 = false →
      Gives (.microcodeLoad id) s fun d =>
      (∀ a : Nat, a < hField b 6 2 → sparseGet 0#128 d.eng.cs (0x3000 + hField b 8 2 + a) = BitVec.ofNat 128 (hField b (128 + 16 * a) 16)) ∧
      (∀ a : Nat, a < 0x3000 + hField b 8 2 → sparseGet 0#128 d.eng.cs a = sparseGet 0#128 s.dev.eng.cs a) ∧
      d.fw.quejo = b.take 128 ∧ (d.cmd id).map (fun c => (c.stage, c.cls, c.detail, c.r0)) = some (.ended, 0, 0, 2 ^ hField b 10 1 - 1) ∧
      d.hostMem = s.dev.hostMem ∧ d.eng.dm = s.dev.eng.dm) ∧
  (∀ (id r : Nat) (c : Cmd) (s : State),
      s.dev.Doing id 0x30 c ∧ s.dev.HasData c ∧ quejoFault (s.dev.hostData c) = some r →
      hField (s.dev.hostData c) 0 4 ≠ 0x4A514C43 ∨ c.dlen = 128 + 16 * hField (s.dev.hostData c) 6 2 →
      Becomes (.microcodeLoad id) s ((s.dev.sends (s.dev.dataAttr (c.flag 0) false)).endCmd id 3 0x0E r)) ∧
  (∀ (id : Nat) (c : Cmd) (s : State),
      s.dev.Doing id 0x31 c ∧ c.b24 = 1 →
      Becomes (.openStart id) s (openEnd id (if s.dev.openLock then s.dev else slotsStart (openSlots (c.field 25 1)) s.dev))) ∧
  (∀ (id : Nat) (c : Cmd) (s : State),
      s.dev.Doing id 0x31 c ∧ c.b24 = 2 →
      Becomes (.openStop id) s (let d := s.dev.each (openSlots (c.field 25 1)) fun d n => slotStop n d
      openEnd id (if (openSlots (c.field 25 1)).any fun n => s.dev.is .SLOT_CFG_EN n then openWithdraw d else d))) ∧
  (∀ (id : Nat) (c : Cmd) (s : State),
      (s.dev.Doing id 0x31 c ∧ c.b24 = 3 ∧ (∀ n : Fin 80, s.dev.is .SLOT_CFG_EN n = false)) →
      Becomes (.openRelease id) s (openEnd id (s.dev.wr .CLE_IOREL (BitVec.ofNat 32 ((s.dev.rd .CLE_IOREL).toNat ||| (c.field 28 4 &&& Reg.rw .CLE_IOREL)))))) ∧
  (∀ (id : Nat) (c : Cmd) (s : State),
      s.dev.Doing id 0x31 c ∧ c.b24 = 4 →
      Becomes (.openWithdraw id) s (openEnd id (openWithdraw s.dev))) ∧
  (∀ (id n len base : Nat) (c : Cmd) (s : State),
      s.dev.Doing id 0x31 c ∧ c.b24 = 5 ∧ s.dev.HasData c ∧ c.work = 0 ∧ n = 72 + c.field 26 1 ∧ n < 80 →
      len = s.dev.fg .SLOT_BANK_LEN n + 1 ∧ base = s.dev.fg .SLOT_BANK_BASE n + (1 - s.dev.fg .SLOT_CTL_ACTIVE n) * len ∧ base + len ≤ 16384 →
      s.dev.started n = false ∧ s.dev.slotPresent n = true ∧ s.dev.is .SLOT_CTL_PENDING n = false →
      Gives (.openBankLoad id) s fun d =>
      (∀ a : Nat, a < len → sparseGet 0#128 d.eng.dm (base + a) = BitVec.ofNat 128 (hField (s.dev.hostData c) (16 * a) 16)) ∧
      (∀ a : Nat, a < base → sparseGet 0#128 d.eng.dm a = sparseGet 0#128 s.dev.eng.dm a) ∧
      d.fg .SLOT_CTL_ACTIVE n = 1 - s.dev.fg .SLOT_CTL_ACTIVE n ∧ (d.cmd id).map (fun c => (c.stage, c.cls, c.detail)) = some (.ended, 0, 0)) ∧
  (∀ (id : Nat) (c : Cmd) (s : State),
      s.dev.Doing id 0x32 c ∧ s.dev.HasData c →
      Becomes (.firmwareDownload id) s (({ s.dev.sends (s.dev.dataAttr (c.flag 0) false) with aon := { s.dev.aon with staged := memWrite s.dev.aon.staged (c.field 24 4) (s.dev.hostData c), stagedSum := s.dev.aon.stagedSum + c.dlen } } : Dev).endCmd id 0 0 (s.dev.aon.stagedSum + c.dlen))) ∧
  (∀ (id : Nat) (c : Cmd) (h body : List (BitVec 8)) (s : State),
      s.dev.Doing id 0x33 c ∧ s.dev.is .FUSE_STAT_BUSY = false ∧ h = memRead s.dev.aon.staged 0 512 ∧ body = memRead s.dev.aon.staged 512 (hField h 8 4) →
      imageFault s.dev.shadow h body = none →
      Gives (.firmwareCommit id) s fun d => d.aon.flash = (flashWrite (slotBase (1 - s.dev.fg .CLK_BOOT_SLOT)) (reSequence ((hField s.dev.aon.image 12 4 + 1) % 2 ^ 32) h ++ body) s.dev).aon.flash ∧
      d.aon.staged = [] ∧ d.aon.stagedSum = 0 ∧ d.aon.restart = (c.field 24 1 == 1) ∧
      (d.cmd id).map (fun c => (c.stage, c.cls, c.detail)) = some (.ended, 0, 0) ∧ (d.cmd id).map (fun c => (c.r0, c.r1)) = some (hField h 16 4, s.dev.arb) ∧
      d = { s.dev with aon := d.aon, fw := { s.dev.fw with cmds := d.fw.cmds, ended := d.fw.ended } }) ∧
  (∀ (id : Nat) (c : Cmd) (r : Nat) (s : State),
      s.dev.Doing id 0x33 c ∧ s.dev.is .FUSE_STAT_BUSY = false →
      imageFault s.dev.shadow (memRead s.dev.aon.staged 0 512) (memRead s.dev.aon.staged 512 (hField (memRead s.dev.aon.staged 0 512) 8 4)) = some r →
      Becomes (.firmwareCommit id) s (s.dev.endCmd id 3 0x0F)) ∧
  (∀ (id : Nat) (c : Cmd) (s : State),
      s.dev.Doing id 0x33 c ∧ s.dev.is .FUSE_STAT_BUSY = true →
      Becomes (.firmwareCommit id) s s.dev) ∧
  (∀ (id : Nat) (c : Cmd) (s : State),
      s.dev.Doing id 0x38 c ∧ c.b24 = 3 ∧ c.work = 0 →
      Becomes (.codecTest id) s (let d := (s.dev.fs .SDE_TEST_ERR_EXP (c.field 40 1)).fs .SDE_TEST_BURST_LEN (256 * c.field 41 1)
      if c.field 36 4 = 0 then d.endCmd id 0 0 else codecPost ((sdeTestModeWrite true d).onCmd id fun c => { c with work := 1 }))) ∧
  (∀ (id : Nat) (c : Cmd) (l ok : List Nat) (s : State),
      s.dev.Doing id 0x38 c ∧ c.b24 = 4 ∧ c.work ≠ 0 ∧ l = slotRun (s.dev.sideInfo (psaSide (c.field 28 5))).strength (c.field 36 4) (c.field 28 5) →
      (ok = l.filter s.dev.fw.tested.contains ∧ (∀ v ∈ s.dev.fw.versions, v.test = some id → v.stage = .failed ∨ v.stage = .gone)) →
      Becomes (.surfaceTest id) s ((s.dev.onFw fun w => { w with retired := w.retired.filter (!ok.contains ·), recorded := w.recorded.filter (!ok.contains ·), tested := [], versions := w.versions.filter fun v => v.test != some id }).endCmd id 0 0 ok.length (l.length - ok.length))) ∧
  (∀ (id : Nat) (c : Cmd) (v : Version) (s : State),
      s.dev.Doing id 0x38 c ∧ c.b24 = 4 ∧ c.work ≠ 0 ∧ v ∈ s.dev.fw.versions ∧ v.test = some id ∧ v.stage ≠ .failed ∧ v.stage ≠ .gone →
      Becomes (.surfaceTest id) s s.dev) ∧
  (∀ (id psa : Nat) (c : Cmd) (s : State),
      s.dev.Doing id 0x38 c ∧ c.b24 = 4 ∧ c.work = 0 ∧ slotRun (s.dev.sideInfo (psaSide (c.field 28 5))).strength (c.field 36 4) (c.field 28 5) = [psa] →
      Becomes (.surfaceTest id) s ((if s.dev.testable psa then testAdd id psa s.dev else s.dev).onCmd id fun c => { c with work := 1 })) ∧
  (∀ (id : Nat) (c : Cmd) (s : State) (d : Dev),
      s.dev.Doing id 0x38 c ∧ c.b24 = 5 ∧ s.dev.HasData c ∧ 16 * c.field 44 4 < s.dev.visible →
      d = (rawRead ((s.dev.fs .DRC_TEST_CTL_EN 1).fs .DRC_TEST_ADDR (c.field 44 4))).fs .DRC_TEST_CTL_EN 0 ∧ d.homeHere c = true →
      Becomes (.rawBufferRead id) s (({ d.sends (d.dataAttr (c.flag 0) true) with hostMem := memWrite d.hostMem c.dptr ((takeFill 0#8 32 ((List.range 4).flatMap (fun k => leBytes 4 (d.fg .DRC_TEST_DATA k)) ++ leBytes 2 (d.fg .DRC_TEST_CHK_CHK) ++ leBytes 1 (d.fg .DRC_TEST_CHK_SYND0) ++ leBytes 1 (d.fg .DRC_TEST_CHK_SYND1))).take c.dlen) } : Dev).endCmd id 0 0)) ∧
  (∀ (id : Nat) (c : Cmd) (s : State) (r : List (BitVec 8) × Dev),
      s.dev.Doing id 0x38 c ∧ c.b24 = 6 ∧ s.dev.HasData c ∧ r = s.dev.bufGet 2 (s.dev.fg .CLE_TRACE_BASE / 16 * 65536) 65536 ∧ r.2.homeHere c = true →
      Becomes (.traceCopy id) s (({ r.2.sends (r.2.dataAttr (c.flag 0) true) with hostMem := memWrite r.2.hostMem c.dptr (r.1.take c.dlen) } : Dev).endCmd id 0 0 (r.2.rd .CLE_TRACE_ST).toNat)) ∧
  (∀ (id : Nat) (i : Instr) (s : State),
      s.dev.cmd id = none →
      i ∈ [Instr.microcodeLoad id, .openStart id, .openStop id, .openRelease id, .openWithdraw id, .openBankLoad id, .firmwareDownload id, .firmwareCommit id, .codecTest id, .surfaceTest id, .rawBufferRead id, .traceCopy id] →
      Becomes i s s.dev)

/-- For every command c and every state s, a step of s with c put in front of its queue is exec of c on s, with the queue's rest
as it was. (95_what_each_step_holds.md.) -/
def Obligations.StepRunsFront : Prop :=
  ∀ (c : Instr) (s : State), step { s with pending := c :: s.pending } = exec c s

/-- On an empty queue the unit idles: the step answers the same state. This is the model's choice, notes/assumptions/1.md: the
block's clocks run only through the rows of the table. (95_what_each_step_holds.md.) -/
def Obligations.IdleStep : Prop :=
  ∀ s : State, s.pending = [] → step s = .next s

/-- In the reset state every register of every block reads the value its field map gives for reset (notes/assumptions/2.md names
those the spec gives none), the queue is empty, no command, stream, group or record exists, every island but AON is off, no
OPU island is on, and the buffer DRAM and the host's memory hold only zeros. (R616, 01_architecture.md.) -/
def Obligations.ResetState : Prop :=
  (∀ (r : Reg) (i j : Nat), State.reset.dev.rd r i j = r.resetAt i j) ∧ State.reset.pending = [] ∧
  State.reset.dev.fw.cmds = [] ∧ State.reset.dev.fw.streams = [] ∧ State.reset.dev.comp.jobs = [] ∧ State.reset.dev.journal.queue = [] ∧
  State.reset.dev.aon.reset = true ∧ State.reset.dev.fw.up = false ∧ (∀ o : Fin 4, State.reset.dev.stage o = .off) ∧
  (∀ b : Block, State.reset.dev.blockOn b = [Block.pmu, .clk, .fuse].contains b) ∧
  State.reset.dev.dram = [] ∧ State.reset.dev.hostMem = [] ∧ State.reset.dev.qtime = 0 ∧
  State.reset.dev.eng.cs = [] ∧ State.reset.dev.eng.dm = [] ∧ State.reset.dev.sde.ring = [] ∧ State.reset.dev.tap = {}

/-- The model starts from a unit whose manufacture is done, with nothing of ARB and no lock blown and the shadow not loaded. A
unit's fuses are its own: the bank is the model's choice, notes/assumptions/3.md. (R633, R634, R635.) -/
def Obligations.FusesAtReset : Prop :=
  State.reset.fuses.testBit 67 = true ∧ bitsOf State.reset.fuses 1472 64 = 0 ∧ bitsOf State.reset.fuses 1536 6 = 0 ∧
  State.reset.fuses < 2 ^ 4096 ∧ State.reset.dev.shadow = 0

/-- For every command with any operands and every state, exec answers a next state: no command faults or is refused. The queue is
as it was. (95_what_each_step_holds.md.) -/
def Obligations.EveryCommandRuns : Prop :=
  ∀ (c : Instr) (s : State), ∃ t, exec c s = .next t ∧ t.pending = s.pending

/-- From every state, n steps give a next state whose queue is the queue without its first n commands; after as many steps as
commands wait, the queue is empty. (95_what_each_step_holds.md.) -/
def Obligations.QueueDrains : Prop :=
  ∀ (s : State) (n : Nat), ∃ t, run n s = some t ∧ t.pending = s.pending.drop n

/-- For every step from every state: each bit of the fuse bank that is blown stays blown, and a bank of 4,096 bits stays one of
4,096 bits. So the anti-rollback value never falls and a lock in force stays in force. (R633, R634, R635, R636.) -/
def Obligations.FusesOnlyBlow : Prop :=
  ∀ s t : State, step s = .next t → BlownStay s.fuses t.fuses ∧ (s.fuses < 2 ^ 4096 → t.fuses < 2 ^ 4096) ∧
  popCount 64 (bitsOf s.fuses 1472 64) ≤ popCount 64 (bitsOf t.fuses 1472 64) ∧
  (bitsOf s.fuses 1536 3 ≠ 0 → bitsOf t.fuses 1536 3 ≠ 0) ∧ (bitsOf s.fuses 1539 3 ≠ 0 → bitsOf t.fuses 1539 3 ≠ 0)

/-- For every step that runs command c: a bit from 0 to 1,471 never changes once MFG_DONE is blown; if a bit from 1,472 to 1,535
changes, c is FUSE_ARB_SET, a write of the register FUSE_ARB_SET on the register bus (by firmware or by REG_ACCESS), the start
of firmware at boot, which makes that write for the image's rollback value, or the THAW that ends a hold under which such a
write waited with BUSY set; if a bit from 1,536 to 1,541 changes, c is FUSE_PROG. (R634.) -/
def Obligations.FusePaths : Prop :=
  ∀ (c : Instr) (s t : State), exec c s = .next t →
    (s.fuses.testBit 67 = true → ∀ k < 1472, t.fuses.testBit k = s.fuses.testBit k) ∧
    ((∃ k, 1472 ≤ k ∧ k < 1536 ∧ t.fuses.testBit k ≠ s.fuses.testBit k) →
      (∃ v, c = .fuseArbSet v) ∨ (∃ v, c = .registerWrite .fuse Reg.FUSE_ARB_SET.off v) ∨
      (∃ v, c = .regAccess .fuse Reg.FUSE_ARB_SET.off 2 v) ∨ (∃ ms, c = .bootFirmwareStart ms) ∨ (∃ l, c = .thaw l ∧ s.dev.is .FUSE_STAT_BUSY = true)) ∧
    ((∃ k, 1536 ≤ k ∧ k < 1542 ∧ t.fuses.testBit k ≠ s.fuses.testBit k) → ∃ l x, c = .fuseProg l x)

/-- OPEN_LOCK is in force exactly when one of bits 1,536 to 1,538 of the shadow is 1, DEBUG_LOCK when one of bits 1,539 to 1,541
is; the register FUSE_STAT reads so. FUSE_PROG of a lock, with Tj between 0 and 85 °C and no frost, makes all three of its
bits 1 in the bank and in the shadow, and puts the lock in force. (R635.) -/
def Obligations.LockFuses : Prop :=
  (∀ (d : Dev),
      (d.openLock = true ↔ ∃ k, 1536 ≤ k ∧ k < 1539 ∧ d.shadow.testBit k = true) ∧ (d.debugLock = true ↔ ∃ k, 1539 ≤ k ∧ k < 1542 ∧ d.shadow.testBit k = true) ∧
      bitsOf (regLoad .FUSE_STAT 0 0 Reg.FUSE_STAT.off d).1.toNat 1 1 = bit d.openLock ∧ bitsOf (regLoad .FUSE_STAT 0 0 Reg.FUSE_STAT.off d).1.toNat 2 1 = bit d.debugLock) ∧
  (∀ (locks : Fin 4) (temp : Int) (s : State),
      0 ≤ temp ∧ temp ≤ 85 ∧ s.dev.frost = false →
      ∃ t, exec (.fuseProg locks temp) s = .next t ∧ t.pending = s.pending ∧
      (locks.val.testBit 0 = true → (∀ k, 1536 ≤ k → k < 1539 → t.fuses.testBit k = true ∧ t.dev.shadow.testBit k = true) ∧ t.dev.openLock = true) ∧
      (locks.val.testBit 1 = true → (∀ k, 1539 ≤ k → k < 1542 → t.fuses.testBit k = true ∧ t.dev.shadow.testBit k = true) ∧ t.dev.debugLock = true))

/-- With SDE_CTL.EN = 0 and no slice capturing, SDE_RING_WRITE leaves the ring's base and size as the value gives them, the ring
empty (the model's reading, notes/assumptions/24.md), and every other register and all else as it was; with EN = 1, or while a
slice captures, it changes nothing. So does a write of the register on the register bus in a unit whose CORE island is on.
(R153.) -/
def Obligations.RingWrite : Prop :=
  (∀ (val : DWord) (s : State),
      (s.dev.is .SDE_CTL_EN = false ∧ s.dev.slices.any (fun e => e.2.capt.isSome) = false) →
      ∃ t, exec (.sdeRingWrite val) s = .next t ∧ t.fuses = s.fuses ∧ t.pending = s.pending ∧
      t.dev.fg .SDE_RING_BASE = bitsOf val.toNat 0 15 ∧ t.dev.fg .SDE_RING_SIZE = bitsOf val.toNat 16 7 ∧ t.dev.sde.ring = [] ∧
      Changes [Reg.SDE_RING.key 0 0] s.dev t.dev { s.dev with sde := { s.dev.sde with wp := 0, ring := [] } }) ∧
  (∀ (val : DWord) (s : State),
      (s.dev.is .SDE_CTL_EN = true ∨ s.dev.slices.any (fun e => e.2.capt.isSome) = true) →
      exec (.sdeRingWrite val) s = .next s) ∧
  (∀ (val : DWord) (s : State),
      ((s.dev.is .SDE_CTL_EN = true ∨ s.dev.slices.any (fun e => e.2.capt.isSome) = true) ∧ s.dev.blockOn .sde = true) →
      exec (.registerWrite .sde Reg.SDE_RING.off val) s = .next { s with dev := { s.dev with error := false } })

/-- The shared operation that ends a command gives a running or waiting command its CLASS, DETAIL and results and makes it ended;
a command that ended before keeps its own. Every other command keeps all it has, and of the unit nothing but firmware's
commands changes. (R446, R451.) -/
def Obligations.EndCmd : Prop :=
  ∀ (d : Dev) (id cls detail r0 r1 : Nat),
    (∀ c, d.cmd id = some c → c.stage ≠ .ended →
      (d.endCmd id cls detail r0 r1).cmd id = some { c with stage := .ended, cls := cls, detail := detail, r0 := r0, r1 := r1 }) ∧
    (∀ c, d.cmd id = some c → c.stage = .ended → (d.endCmd id cls detail r0 r1).cmd id = some c) ∧
    (∀ k, k ≠ id → (d.endCmd id cls detail r0 r1).cmd k = d.cmd k) ∧
    d.endCmd id cls detail r0 r1 = { d with fw := { d.fw with cmds := (d.endCmd id cls detail r0 r1).fw.cmds, ended := (d.endCmd id cls detail r0 r1).fw.ended } }

/-- Two states that differ in their fuse banks alone: every command but BOOT and those that can blow ARB (FUSE_ARB_SET, a write of
its register, the start of firmware, THAW) makes the same unit of both. So a block reads its fuses from the shadow and never
from the bank, as R633 says. (R633.) -/
def Obligations.ShadowNotBank : Prop :=
  ∀ (c : Instr) (s : State) (bank : Nat), readsBank c = false →
    ∃ t u, exec c s = .next t ∧ exec c { s with fuses := bank } = .next u ∧ u.dev = t.dev
end

