-- ==== Sys2Proof/Laws/Bits.lean ====
section
/-!
SUPPORT. What a field holds after a field is written, bit by bit and as a number, and the bytes of a number.
-/

namespace Sys2Proof.Laws

open Sys2Proof Sys2Proof.Machine

@[simp] theorem testBit_bitsOf (x lo w k : Nat) : (bitsOf x lo w).testBit k = (decide (k < w) && x.testBit (lo + k)) := by
  simp [bitsOf, Nat.testBit_mod_two_pow, Nat.testBit_shiftRight]

theorem bitsOf_lt (x lo w : Nat) : bitsOf x lo w < 2 ^ w := Nat.mod_lt _ (by positivity)

/-- A number with a field replaced is its part above the field, the new field and its part below. -/
theorem putBits_parts (x lo w v : Nat) :
    putBits x lo w v = 2 ^ lo * (2 ^ w * (x / 2 ^ (lo + w)) + v % 2 ^ w) + x % 2 ^ lo := by
  have h1 : x = 2 ^ lo * (x / 2 ^ lo) + x % 2 ^ lo := (Nat.div_add_mod _ _).symm
  have h2 : x / 2 ^ lo = 2 ^ w * (x / 2 ^ (lo + w)) + x / 2 ^ lo % 2 ^ w := by
    rw [Nat.pow_add, ← Nat.div_div_eq_div_mul]; exact (Nat.div_add_mod _ _).symm
  unfold putBits
  rw [Nat.shiftRight_eq_div_pow, Nat.shiftLeft_eq, Nat.shiftLeft_eq]
  generalize hm : x / 2 ^ lo % 2 ^ w = m at *
  generalize x / 2 ^ (lo + w) = q at *
  rw [h2] at h1
  have : x - m * 2 ^ lo = 2 ^ lo * (2 ^ w * q) + x % 2 ^ lo := by
    generalize hr : x % 2 ^ lo = r at *
    have : x = 2 ^ lo * (2 ^ w * q) + r + m * 2 ^ lo := by rw [h1]; ring
    omega
  rw [this]; ring

/-- Bit `k` after a field is written: the new field's inside it, the old one outside. -/
theorem testBit_putBits (x lo w v k : Nat) :
    (putBits x lo w v).testBit k = if lo ≤ k ∧ k < lo + w then v.testBit (k - lo) else x.testBit k := by
  rw [putBits_parts, Nat.testBit_two_pow_mul_add _ (Nat.mod_lt _ (by positivity))]
  by_cases h1 : k < lo
  · rw [if_pos h1, Nat.testBit_mod_two_pow, if_neg (by omega)]; simp [h1]
  · rw [if_neg h1, Nat.testBit_two_pow_mul_add _ (Nat.mod_lt _ (by positivity))]
    by_cases h2 : k < lo + w
    · rw [if_pos (by omega), if_pos (by omega), Nat.testBit_mod_two_pow]; simp; omega
    · rw [if_neg (by omega), if_neg (by omega), Nat.testBit_div_two_pow]
      congr 1; omega

/-- A field just written holds the low bits of the value. -/
@[simp] theorem bitsOf_putBits (x lo w v : Nat) : bitsOf (putBits x lo w v) lo w = v % 2 ^ w := by
  apply Nat.eq_of_testBit_eq; intro k
  rw [testBit_bitsOf, testBit_putBits, Nat.testBit_mod_two_pow]
  by_cases h : k < w <;> simp [h]

/-- A field apart from the one written holds what it held. -/
theorem bitsOf_putBits_ne (x lo w v lo' w' : Nat) (h : lo' + w' ≤ lo ∨ lo + w ≤ lo') :
    bitsOf (putBits x lo w v) lo' w' = bitsOf x lo' w' := by
  apply Nat.eq_of_testBit_eq; intro k
  rw [testBit_bitsOf, testBit_bitsOf, testBit_putBits]
  by_cases hk : k < w'
  · rw [if_neg (by omega)]
  · simp [hk]

/-- A number below a power of two stays so when a field below that power is written. -/
theorem putBits_lt {x lo w v n : Nat} (hx : x < 2 ^ n) (h : lo + w ≤ n) : putBits x lo w v < 2 ^ n := by
  apply Nat.lt_pow_two_of_testBit
  intro k hk
  rw [testBit_putBits, if_neg (by omega)]
  exact Nat.testBit_lt_two_pow (lt_of_lt_of_le hx (Nat.pow_le_pow_right (by norm_num) hk))

@[simp] theorem leBytes_length (n x : Nat) : (leBytes n x).length = n := by
  induction n generalizing x with
  | zero => rfl
  | succ n ih => simp [leBytes, ih]

/-- The number that a number's first bytes spell. -/
@[simp] theorem leNat_leBytes (n x : Nat) : leNat (leBytes n x) = x % 256 ^ n := by
  induction n generalizing x with
  | zero => simp [leBytes, leNat, Nat.mod_one]
  | succ n ih =>
    simp only [leBytes, leNat, ih, BitVec.toNat_ofNat]
    have h : x % 256 ^ (n + 1) = x % 256 + 256 * (x / 256 % 256 ^ n) := by rw [Nat.pow_succ', Nat.mod_mul]
    omega

end Sys2Proof.Laws
end

