-- ==== Sys2Proof/Laws/Sparse.lean ====
section
/-!
SUPPORT. What a read of a sparse store gives after a write, and that a write keeps the canonical form.
-/

namespace Sys2Proof.Laws

open Sys2Proof Sys2Proof.Machine

variable {α : Type}

@[simp] theorem sparseGet_nil (d : α) (k : Nat) : sparseGet d ([] : Sparse α) k = d := rfl

theorem sparseGet_drop (d : α) (p : Nat → Bool) (m : Sparse α) (k : Nat) :
    sparseGet d (sparseDrop p m) k = if p k then d else sparseGet d m k := by
  induction m with
  | nil => simp [sparseDrop, sparseGet]
  | cons e m ih =>
    obtain ⟨a, v⟩ := e
    by_cases h : p a = true
    · have : sparseDrop p ((a, v) :: m) = sparseDrop p m := by simp [sparseDrop, h]
      rw [this, ih]
      by_cases hk : a = k
      · subst hk; simp [h]
      · simp [sparseGet, hk]
    · have : sparseDrop p ((a, v) :: m) = (a, v) :: sparseDrop p m := by simp [sparseDrop, h]
      rw [this]
      by_cases hk : a = k
      · subst hk; simp [sparseGet, h]
      · simp [sparseGet, hk, ih]

theorem sparseGet_ins (d : α) (m : Sparse α) (k : Nat) (v : α) (k' : Nat)
    (h : ∀ e ∈ m, e.1 ≠ k) :
    sparseGet d (sparseIns m k v) k' = if k = k' then v else sparseGet d m k' := by
  induction m with
  | nil => simp [sparseIns, sparseGet]
  | cons e m ih =>
    obtain ⟨a, w⟩ := e
    have ha : a ≠ k := h (a, w) (by simp)
    have ih' := ih fun e he => h e (by simp [he])
    by_cases hk : k < a
    · simp [sparseIns, hk, sparseGet]
    · by_cases haa : a = k'
      · subst haa; simp [sparseIns, hk, sparseGet, Ne.symm ha]
      · simp [sparseIns, hk, sparseGet, haa, ih']

theorem sparseDrop_ne (m : Sparse α) (k : Nat) : ∀ e ∈ sparseDrop (· == k) m, e.1 ≠ k := by
  intro e he
  simp [sparseDrop] at he
  exact he.2

/-- A read after a write gives the written value at its key and what it gave before at every other key. -/
theorem sparseGet_set [DecidableEq α] (d : α) (m : Sparse α) (k k' : Nat) (v : α) :
    sparseGet d (sparseSet d m k v) k' = if k = k' then v else sparseGet d m k' := by
  unfold sparseSet
  split
  · next h =>
    rw [sparseGet_drop]
    by_cases hk : k = k'
    · subst hk; simp [h]
    · simp [hk, Ne.symm hk]
  · rw [sparseGet_ins _ _ _ _ _ (sparseDrop_ne m k), sparseGet_drop]
    by_cases hk : k = k'
    · simp [hk]
    · simp [hk, Ne.symm hk]

@[simp] theorem sparseGet_set_self [DecidableEq α] (d : α) (m : Sparse α) (k : Nat) (v : α) :
    sparseGet d (sparseSet d m k v) k = v := by simp [sparseGet_set]

theorem sparseGet_set_ne [DecidableEq α] (d : α) (m : Sparse α) {k k' : Nat} (v : α) (h : k ≠ k') :
    sparseGet d (sparseSet d m k v) k' = sparseGet d m k' := by simp [sparseGet_set, h]

theorem sparseIns_mem (m : Sparse α) (k : Nat) (v : α) (e : Nat × α) :
    e ∈ sparseIns m k v ↔ e = (k, v) ∨ e ∈ m := by
  induction m with
  | nil => simp [sparseIns]
  | cons x m ih =>
    obtain ⟨a, w⟩ := x
    by_cases hk : k < a
    · simp [sparseIns, hk]
    · simp only [sparseIns, hk, if_false, List.mem_cons, ih]; tauto

theorem sparseIns_sorted (m : Sparse α) (k : Nat) (v : α) (hs : m.Pairwise fun a b => a.1 < b.1)
    (hk : ∀ e ∈ m, e.1 ≠ k) : (sparseIns m k v).Pairwise fun a b => a.1 < b.1 := by
  induction m with
  | nil => simp [sparseIns]
  | cons x m ih =>
    obtain ⟨a, w⟩ := x
    have hak : a ≠ k := hk (a, w) (by simp)
    rw [List.pairwise_cons] at hs
    by_cases h : k < a
    · simp only [sparseIns, h, if_true, List.pairwise_cons, List.mem_cons, forall_eq_or_imp]
      exact ⟨⟨trivial, fun e he => lt_trans h (hs.1 e he)⟩, hs.1, hs.2⟩
    · simp only [sparseIns, h, if_false, List.pairwise_cons]
      refine ⟨fun e he => ?_, ih hs.2 fun e he => hk e (by simp [he])⟩
      rw [sparseIns_mem] at he
      rcases he with rfl | he
      · simp; omega
      · exact hs.1 e he

/-- A write keeps the canonical form. -/
theorem sparseSet_wf [DecidableEq α] (d : α) (m : Sparse α) (k : Nat) (v : α) (h : sparseWf d m) :
    sparseWf d (sparseSet d m k v) := by
  have hd : sparseWf d (sparseDrop (· == k) m) :=
    ⟨h.1.filter _, fun e he => h.2 e (List.mem_of_mem_filter he)⟩
  unfold sparseSet
  split
  · exact hd
  · next hv =>
    refine ⟨sparseIns_sorted _ _ _ hd.1 (sparseDrop_ne m k), fun e he => ?_⟩
    rw [sparseIns_mem] at he
    rcases he with rfl | he
    · exact hv
    · exact hd.2 e he

/-- Dropping keys keeps the canonical form. -/
theorem sparseDrop_wf (d : α) (p : Nat → Bool) (m : Sparse α) (h : sparseWf d m) :
    sparseWf d (sparseDrop p m) :=
  ⟨h.1.filter _, fun e he => h.2 e (List.mem_of_mem_filter he)⟩

end Sys2Proof.Laws
end

