-- ==== Sys2Proof/Laws/State.lean ====
section
/-!
SUPPORT. What each update of the unit leaves alone: one lemma for each field that it does not write, and one for the registers,
fields and flags that are read from the register store.
-/

namespace Sys2Proof.Laws

open Sys2Proof Sys2Proof.Machine

variable (d : Dev)

/-! `wr` writes `regs` only. -/
@[simp] theorem wr_free (r : Reg) (v : DWord) (i j : Nat) : (d.wr r v i j).free = d.free := rfl
@[simp] theorem wr_qtime (r : Reg) (v : DWord) (i j : Nat) : (d.wr r v i j).qtime = d.qtime := rfl
@[simp] theorem wr_shadow (r : Reg) (v : DWord) (i j : Nat) : (d.wr r v i j).shadow = d.shadow := rfl
@[simp] theorem wr_bonded (r : Reg) (v : DWord) (i j : Nat) : (d.wr r v i j).bonded = d.bonded := rfl
@[simp] theorem wr_opuStage (r : Reg) (v : DWord) (i j : Nat) : (d.wr r v i j).opuStage = d.opuStage := rfl
@[simp] theorem wr_dram (r : Reg) (v : DWord) (i j : Nat) : (d.wr r v i j).dram = d.dram := rfl
@[simp] theorem wr_dramChk (r : Reg) (v : DWord) (i j : Nat) : (d.wr r v i j).dramChk = d.dramChk := rfl
@[simp] theorem wr_hostMem (r : Reg) (v : DWord) (i j : Nat) : (d.wr r v i j).hostMem = d.hostMem := rfl
@[simp] theorem wr_slices (r : Reg) (v : DWord) (i j : Nat) : (d.wr r v i j).slices = d.slices := rfl
@[simp] theorem wr_pickups (r : Reg) (v : DWord) (i j : Nat) : (d.wr r v i j).pickups = d.pickups := rfl
@[simp] theorem wr_sde (r : Reg) (v : DWord) (i j : Nat) : (d.wr r v i j).sde = d.sde := rfl
@[simp] theorem wr_ladder (r : Reg) (v : DWord) (i j : Nat) : (d.wr r v i j).ladder = d.ladder := rfl
@[simp] theorem wr_journal (r : Reg) (v : DWord) (i j : Nat) : (d.wr r v i j).journal = d.journal := rfl
@[simp] theorem wr_answer (r : Reg) (v : DWord) (i j : Nat) : (d.wr r v i j).answer = d.answer := rfl
@[simp] theorem wr_fw (r : Reg) (v : DWord) (i j : Nat) : (d.wr r v i j).fw = d.fw := rfl
@[simp] theorem wr_spn (r : Reg) (v : DWord) (i j : Nat) : (d.wr r v i j).spn = d.spn := rfl
@[simp] theorem wr_sleds (r : Reg) (v : DWord) (i j : Nat) : (d.wr r v i j).sleds = d.sleds := rfl
@[simp] theorem wr_clamp (r : Reg) (v : DWord) (i j : Nat) : (d.wr r v i j).clamp = d.clamp := rfl
@[simp] theorem wr_eng (r : Reg) (v : DWord) (i j : Nat) : (d.wr r v i j).eng = d.eng := rfl
@[simp] theorem wr_servos (r : Reg) (v : DWord) (i j : Nat) : (d.wr r v i j).servos = d.servos := rfl
@[simp] theorem wr_sumRef (r : Reg) (v : DWord) (i j : Nat) : (d.wr r v i j).sumRef = d.sumRef := rfl
@[simp] theorem wr_cal (r : Reg) (v : DWord) (i j : Nat) : (d.wr r v i j).cal = d.cal := rfl
@[simp] theorem wr_wsgs (r : Reg) (v : DWord) (i j : Nat) : (d.wr r v i j).wsgs = d.wsgs := rfl
@[simp] theorem wr_stalled (r : Reg) (v : DWord) (i j : Nat) : (d.wr r v i j).stalled = d.stalled := rfl
@[simp] theorem wr_drc (r : Reg) (v : DWord) (i j : Nat) : (d.wr r v i j).drc = d.drc := rfl
@[simp] theorem wr_fbc (r : Reg) (v : DWord) (i j : Nat) : (d.wr r v i j).fbc = d.fbc := rfl
@[simp] theorem wr_error (r : Reg) (v : DWord) (i j : Nat) : (d.wr r v i j).error = d.error := rfl
@[simp] theorem wr_link (r : Reg) (v : DWord) (i j : Nat) : (d.wr r v i j).link = d.link := rfl
@[simp] theorem wr_host (r : Reg) (v : DWord) (i j : Nat) : (d.wr r v i j).host = d.host := rfl
@[simp] theorem wr_comp (r : Reg) (v : DWord) (i j : Nat) : (d.wr r v i j).comp = d.comp := rfl
@[simp] theorem wr_aon (r : Reg) (v : DWord) (i j : Nat) : (d.wr r v i j).aon = d.aon := rfl
@[simp] theorem wr_tap (r : Reg) (v : DWord) (i j : Nat) : (d.wr r v i j).tap = d.tap := rfl

/-! `fs` writes `regs` only. -/
@[simp] theorem fs_free (x : Fld) (v i j : Nat) : (d.fs x v i j).free = d.free := rfl
@[simp] theorem fs_qtime (x : Fld) (v i j : Nat) : (d.fs x v i j).qtime = d.qtime := rfl
@[simp] theorem fs_shadow (x : Fld) (v i j : Nat) : (d.fs x v i j).shadow = d.shadow := rfl
@[simp] theorem fs_bonded (x : Fld) (v i j : Nat) : (d.fs x v i j).bonded = d.bonded := rfl
@[simp] theorem fs_opuStage (x : Fld) (v i j : Nat) : (d.fs x v i j).opuStage = d.opuStage := rfl
@[simp] theorem fs_dram (x : Fld) (v i j : Nat) : (d.fs x v i j).dram = d.dram := rfl
@[simp] theorem fs_dramChk (x : Fld) (v i j : Nat) : (d.fs x v i j).dramChk = d.dramChk := rfl
@[simp] theorem fs_hostMem (x : Fld) (v i j : Nat) : (d.fs x v i j).hostMem = d.hostMem := rfl
@[simp] theorem fs_slices (x : Fld) (v i j : Nat) : (d.fs x v i j).slices = d.slices := rfl
@[simp] theorem fs_pickups (x : Fld) (v i j : Nat) : (d.fs x v i j).pickups = d.pickups := rfl
@[simp] theorem fs_sde (x : Fld) (v i j : Nat) : (d.fs x v i j).sde = d.sde := rfl
@[simp] theorem fs_ladder (x : Fld) (v i j : Nat) : (d.fs x v i j).ladder = d.ladder := rfl
@[simp] theorem fs_journal (x : Fld) (v i j : Nat) : (d.fs x v i j).journal = d.journal := rfl
@[simp] theorem fs_answer (x : Fld) (v i j : Nat) : (d.fs x v i j).answer = d.answer := rfl
@[simp] theorem fs_fw (x : Fld) (v i j : Nat) : (d.fs x v i j).fw = d.fw := rfl
@[simp] theorem fs_spn (x : Fld) (v i j : Nat) : (d.fs x v i j).spn = d.spn := rfl
@[simp] theorem fs_sleds (x : Fld) (v i j : Nat) : (d.fs x v i j).sleds = d.sleds := rfl
@[simp] theorem fs_clamp (x : Fld) (v i j : Nat) : (d.fs x v i j).clamp = d.clamp := rfl
@[simp] theorem fs_eng (x : Fld) (v i j : Nat) : (d.fs x v i j).eng = d.eng := rfl
@[simp] theorem fs_servos (x : Fld) (v i j : Nat) : (d.fs x v i j).servos = d.servos := rfl
@[simp] theorem fs_sumRef (x : Fld) (v i j : Nat) : (d.fs x v i j).sumRef = d.sumRef := rfl
@[simp] theorem fs_cal (x : Fld) (v i j : Nat) : (d.fs x v i j).cal = d.cal := rfl
@[simp] theorem fs_wsgs (x : Fld) (v i j : Nat) : (d.fs x v i j).wsgs = d.wsgs := rfl
@[simp] theorem fs_stalled (x : Fld) (v i j : Nat) : (d.fs x v i j).stalled = d.stalled := rfl
@[simp] theorem fs_drc (x : Fld) (v i j : Nat) : (d.fs x v i j).drc = d.drc := rfl
@[simp] theorem fs_fbc (x : Fld) (v i j : Nat) : (d.fs x v i j).fbc = d.fbc := rfl
@[simp] theorem fs_error (x : Fld) (v i j : Nat) : (d.fs x v i j).error = d.error := rfl
@[simp] theorem fs_link (x : Fld) (v i j : Nat) : (d.fs x v i j).link = d.link := rfl
@[simp] theorem fs_host (x : Fld) (v i j : Nat) : (d.fs x v i j).host = d.host := rfl
@[simp] theorem fs_comp (x : Fld) (v i j : Nat) : (d.fs x v i j).comp = d.comp := rfl
@[simp] theorem fs_aon (x : Fld) (v i j : Nat) : (d.fs x v i j).aon = d.aon := rfl
@[simp] theorem fs_tap (x : Fld) (v i j : Nat) : (d.fs x v i j).tap = d.tap := rfl

/-! `bump` writes `regs` only. -/
@[simp] theorem bump_free (r : Reg) (i n : Nat) : (d.bump r i n).free = d.free := rfl
@[simp] theorem bump_qtime (r : Reg) (i n : Nat) : (d.bump r i n).qtime = d.qtime := rfl
@[simp] theorem bump_shadow (r : Reg) (i n : Nat) : (d.bump r i n).shadow = d.shadow := rfl
@[simp] theorem bump_bonded (r : Reg) (i n : Nat) : (d.bump r i n).bonded = d.bonded := rfl
@[simp] theorem bump_opuStage (r : Reg) (i n : Nat) : (d.bump r i n).opuStage = d.opuStage := rfl
@[simp] theorem bump_dram (r : Reg) (i n : Nat) : (d.bump r i n).dram = d.dram := rfl
@[simp] theorem bump_dramChk (r : Reg) (i n : Nat) : (d.bump r i n).dramChk = d.dramChk := rfl
@[simp] theorem bump_hostMem (r : Reg) (i n : Nat) : (d.bump r i n).hostMem = d.hostMem := rfl
@[simp] theorem bump_slices (r : Reg) (i n : Nat) : (d.bump r i n).slices = d.slices := rfl
@[simp] theorem bump_pickups (r : Reg) (i n : Nat) : (d.bump r i n).pickups = d.pickups := rfl
@[simp] theorem bump_sde (r : Reg) (i n : Nat) : (d.bump r i n).sde = d.sde := rfl
@[simp] theorem bump_ladder (r : Reg) (i n : Nat) : (d.bump r i n).ladder = d.ladder := rfl
@[simp] theorem bump_journal (r : Reg) (i n : Nat) : (d.bump r i n).journal = d.journal := rfl
@[simp] theorem bump_answer (r : Reg) (i n : Nat) : (d.bump r i n).answer = d.answer := rfl
@[simp] theorem bump_fw (r : Reg) (i n : Nat) : (d.bump r i n).fw = d.fw := rfl
@[simp] theorem bump_spn (r : Reg) (i n : Nat) : (d.bump r i n).spn = d.spn := rfl
@[simp] theorem bump_sleds (r : Reg) (i n : Nat) : (d.bump r i n).sleds = d.sleds := rfl
@[simp] theorem bump_clamp (r : Reg) (i n : Nat) : (d.bump r i n).clamp = d.clamp := rfl
@[simp] theorem bump_eng (r : Reg) (i n : Nat) : (d.bump r i n).eng = d.eng := rfl
@[simp] theorem bump_servos (r : Reg) (i n : Nat) : (d.bump r i n).servos = d.servos := rfl
@[simp] theorem bump_sumRef (r : Reg) (i n : Nat) : (d.bump r i n).sumRef = d.sumRef := rfl
@[simp] theorem bump_cal (r : Reg) (i n : Nat) : (d.bump r i n).cal = d.cal := rfl
@[simp] theorem bump_wsgs (r : Reg) (i n : Nat) : (d.bump r i n).wsgs = d.wsgs := rfl
@[simp] theorem bump_stalled (r : Reg) (i n : Nat) : (d.bump r i n).stalled = d.stalled := rfl
@[simp] theorem bump_drc (r : Reg) (i n : Nat) : (d.bump r i n).drc = d.drc := rfl
@[simp] theorem bump_fbc (r : Reg) (i n : Nat) : (d.bump r i n).fbc = d.fbc := rfl
@[simp] theorem bump_error (r : Reg) (i n : Nat) : (d.bump r i n).error = d.error := rfl
@[simp] theorem bump_link (r : Reg) (i n : Nat) : (d.bump r i n).link = d.link := rfl
@[simp] theorem bump_host (r : Reg) (i n : Nat) : (d.bump r i n).host = d.host := rfl
@[simp] theorem bump_comp (r : Reg) (i n : Nat) : (d.bump r i n).comp = d.comp := rfl
@[simp] theorem bump_aon (r : Reg) (i n : Nat) : (d.bump r i n).aon = d.aon := rfl
@[simp] theorem bump_tap (r : Reg) (i n : Nat) : (d.bump r i n).tap = d.tap := rfl

/-! `bumpF` writes `regs` only. -/
@[simp] theorem bumpF_free (x : Fld) (i n : Nat) : (d.bumpF x i n).free = d.free := rfl
@[simp] theorem bumpF_qtime (x : Fld) (i n : Nat) : (d.bumpF x i n).qtime = d.qtime := rfl
@[simp] theorem bumpF_shadow (x : Fld) (i n : Nat) : (d.bumpF x i n).shadow = d.shadow := rfl
@[simp] theorem bumpF_bonded (x : Fld) (i n : Nat) : (d.bumpF x i n).bonded = d.bonded := rfl
@[simp] theorem bumpF_opuStage (x : Fld) (i n : Nat) : (d.bumpF x i n).opuStage = d.opuStage := rfl
@[simp] theorem bumpF_dram (x : Fld) (i n : Nat) : (d.bumpF x i n).dram = d.dram := rfl
@[simp] theorem bumpF_dramChk (x : Fld) (i n : Nat) : (d.bumpF x i n).dramChk = d.dramChk := rfl
@[simp] theorem bumpF_hostMem (x : Fld) (i n : Nat) : (d.bumpF x i n).hostMem = d.hostMem := rfl
@[simp] theorem bumpF_slices (x : Fld) (i n : Nat) : (d.bumpF x i n).slices = d.slices := rfl
@[simp] theorem bumpF_pickups (x : Fld) (i n : Nat) : (d.bumpF x i n).pickups = d.pickups := rfl
@[simp] theorem bumpF_sde (x : Fld) (i n : Nat) : (d.bumpF x i n).sde = d.sde := rfl
@[simp] theorem bumpF_ladder (x : Fld) (i n : Nat) : (d.bumpF x i n).ladder = d.ladder := rfl
@[simp] theorem bumpF_journal (x : Fld) (i n : Nat) : (d.bumpF x i n).journal = d.journal := rfl
@[simp] theorem bumpF_answer (x : Fld) (i n : Nat) : (d.bumpF x i n).answer = d.answer := rfl
@[simp] theorem bumpF_fw (x : Fld) (i n : Nat) : (d.bumpF x i n).fw = d.fw := rfl
@[simp] theorem bumpF_spn (x : Fld) (i n : Nat) : (d.bumpF x i n).spn = d.spn := rfl
@[simp] theorem bumpF_sleds (x : Fld) (i n : Nat) : (d.bumpF x i n).sleds = d.sleds := rfl
@[simp] theorem bumpF_clamp (x : Fld) (i n : Nat) : (d.bumpF x i n).clamp = d.clamp := rfl
@[simp] theorem bumpF_eng (x : Fld) (i n : Nat) : (d.bumpF x i n).eng = d.eng := rfl
@[simp] theorem bumpF_servos (x : Fld) (i n : Nat) : (d.bumpF x i n).servos = d.servos := rfl
@[simp] theorem bumpF_sumRef (x : Fld) (i n : Nat) : (d.bumpF x i n).sumRef = d.sumRef := rfl
@[simp] theorem bumpF_cal (x : Fld) (i n : Nat) : (d.bumpF x i n).cal = d.cal := rfl
@[simp] theorem bumpF_wsgs (x : Fld) (i n : Nat) : (d.bumpF x i n).wsgs = d.wsgs := rfl
@[simp] theorem bumpF_stalled (x : Fld) (i n : Nat) : (d.bumpF x i n).stalled = d.stalled := rfl
@[simp] theorem bumpF_drc (x : Fld) (i n : Nat) : (d.bumpF x i n).drc = d.drc := rfl
@[simp] theorem bumpF_fbc (x : Fld) (i n : Nat) : (d.bumpF x i n).fbc = d.fbc := rfl
@[simp] theorem bumpF_error (x : Fld) (i n : Nat) : (d.bumpF x i n).error = d.error := rfl
@[simp] theorem bumpF_link (x : Fld) (i n : Nat) : (d.bumpF x i n).link = d.link := rfl
@[simp] theorem bumpF_host (x : Fld) (i n : Nat) : (d.bumpF x i n).host = d.host := rfl
@[simp] theorem bumpF_comp (x : Fld) (i n : Nat) : (d.bumpF x i n).comp = d.comp := rfl
@[simp] theorem bumpF_aon (x : Fld) (i n : Nat) : (d.bumpF x i n).aon = d.aon := rfl
@[simp] theorem bumpF_tap (x : Fld) (i n : Nat) : (d.bumpF x i n).tap = d.tap := rfl

/-! `drew` writes `free` only. -/
@[simp] theorem drew_regs : (d.drew).regs = d.regs := rfl
@[simp] theorem drew_qtime : (d.drew).qtime = d.qtime := rfl
@[simp] theorem drew_shadow : (d.drew).shadow = d.shadow := rfl
@[simp] theorem drew_bonded : (d.drew).bonded = d.bonded := rfl
@[simp] theorem drew_opuStage : (d.drew).opuStage = d.opuStage := rfl
@[simp] theorem drew_dram : (d.drew).dram = d.dram := rfl
@[simp] theorem drew_dramChk : (d.drew).dramChk = d.dramChk := rfl
@[simp] theorem drew_hostMem : (d.drew).hostMem = d.hostMem := rfl
@[simp] theorem drew_slices : (d.drew).slices = d.slices := rfl
@[simp] theorem drew_pickups : (d.drew).pickups = d.pickups := rfl
@[simp] theorem drew_sde : (d.drew).sde = d.sde := rfl
@[simp] theorem drew_ladder : (d.drew).ladder = d.ladder := rfl
@[simp] theorem drew_journal : (d.drew).journal = d.journal := rfl
@[simp] theorem drew_answer : (d.drew).answer = d.answer := rfl
@[simp] theorem drew_fw : (d.drew).fw = d.fw := rfl
@[simp] theorem drew_spn : (d.drew).spn = d.spn := rfl
@[simp] theorem drew_sleds : (d.drew).sleds = d.sleds := rfl
@[simp] theorem drew_clamp : (d.drew).clamp = d.clamp := rfl
@[simp] theorem drew_eng : (d.drew).eng = d.eng := rfl
@[simp] theorem drew_servos : (d.drew).servos = d.servos := rfl
@[simp] theorem drew_sumRef : (d.drew).sumRef = d.sumRef := rfl
@[simp] theorem drew_cal : (d.drew).cal = d.cal := rfl
@[simp] theorem drew_wsgs : (d.drew).wsgs = d.wsgs := rfl
@[simp] theorem drew_stalled : (d.drew).stalled = d.stalled := rfl
@[simp] theorem drew_drc : (d.drew).drc = d.drc := rfl
@[simp] theorem drew_fbc : (d.drew).fbc = d.fbc := rfl
@[simp] theorem drew_error : (d.drew).error = d.error := rfl
@[simp] theorem drew_link : (d.drew).link = d.link := rfl
@[simp] theorem drew_host : (d.drew).host = d.host := rfl
@[simp] theorem drew_comp : (d.drew).comp = d.comp := rfl
@[simp] theorem drew_aon : (d.drew).aon = d.aon := rfl
@[simp] theorem drew_tap : (d.drew).tap = d.tap := rfl
@[simp] theorem drew_rd (q : Reg) (k l : Nat) : (d.drew).rd q k l = d.rd q k l := rfl
@[simp] theorem drew_fg (q : Fld) (k l : Nat) : (d.drew).fg q k l = d.fg q k l := rfl
@[simp] theorem drew_is (q : Fld) (k l : Nat) : (d.drew).is q k l = d.is q k l := rfl

/-! `setMode` writes `regs` only. -/
@[simp] theorem setMode_free (m : Nat) : (d.setMode m).free = d.free := rfl
@[simp] theorem setMode_qtime (m : Nat) : (d.setMode m).qtime = d.qtime := rfl
@[simp] theorem setMode_shadow (m : Nat) : (d.setMode m).shadow = d.shadow := rfl
@[simp] theorem setMode_bonded (m : Nat) : (d.setMode m).bonded = d.bonded := rfl
@[simp] theorem setMode_opuStage (m : Nat) : (d.setMode m).opuStage = d.opuStage := rfl
@[simp] theorem setMode_dram (m : Nat) : (d.setMode m).dram = d.dram := rfl
@[simp] theorem setMode_dramChk (m : Nat) : (d.setMode m).dramChk = d.dramChk := rfl
@[simp] theorem setMode_hostMem (m : Nat) : (d.setMode m).hostMem = d.hostMem := rfl
@[simp] theorem setMode_slices (m : Nat) : (d.setMode m).slices = d.slices := rfl
@[simp] theorem setMode_pickups (m : Nat) : (d.setMode m).pickups = d.pickups := rfl
@[simp] theorem setMode_sde (m : Nat) : (d.setMode m).sde = d.sde := rfl
@[simp] theorem setMode_ladder (m : Nat) : (d.setMode m).ladder = d.ladder := rfl
@[simp] theorem setMode_journal (m : Nat) : (d.setMode m).journal = d.journal := rfl
@[simp] theorem setMode_answer (m : Nat) : (d.setMode m).answer = d.answer := rfl
@[simp] theorem setMode_fw (m : Nat) : (d.setMode m).fw = d.fw := rfl
@[simp] theorem setMode_spn (m : Nat) : (d.setMode m).spn = d.spn := rfl
@[simp] theorem setMode_sleds (m : Nat) : (d.setMode m).sleds = d.sleds := rfl
@[simp] theorem setMode_clamp (m : Nat) : (d.setMode m).clamp = d.clamp := rfl
@[simp] theorem setMode_eng (m : Nat) : (d.setMode m).eng = d.eng := rfl
@[simp] theorem setMode_servos (m : Nat) : (d.setMode m).servos = d.servos := rfl
@[simp] theorem setMode_sumRef (m : Nat) : (d.setMode m).sumRef = d.sumRef := rfl
@[simp] theorem setMode_cal (m : Nat) : (d.setMode m).cal = d.cal := rfl
@[simp] theorem setMode_wsgs (m : Nat) : (d.setMode m).wsgs = d.wsgs := rfl
@[simp] theorem setMode_stalled (m : Nat) : (d.setMode m).stalled = d.stalled := rfl
@[simp] theorem setMode_drc (m : Nat) : (d.setMode m).drc = d.drc := rfl
@[simp] theorem setMode_fbc (m : Nat) : (d.setMode m).fbc = d.fbc := rfl
@[simp] theorem setMode_error (m : Nat) : (d.setMode m).error = d.error := rfl
@[simp] theorem setMode_link (m : Nat) : (d.setMode m).link = d.link := rfl
@[simp] theorem setMode_host (m : Nat) : (d.setMode m).host = d.host := rfl
@[simp] theorem setMode_comp (m : Nat) : (d.setMode m).comp = d.comp := rfl
@[simp] theorem setMode_aon (m : Nat) : (d.setMode m).aon = d.aon := rfl
@[simp] theorem setMode_tap (m : Nat) : (d.setMode m).tap = d.tap := rfl

/-! `onSlice` writes `slices` only. -/
@[simp] theorem onSlice_regs (n : Nat) (f : Slice → Slice) : (d.onSlice n f).regs = d.regs := rfl
@[simp] theorem onSlice_free (n : Nat) (f : Slice → Slice) : (d.onSlice n f).free = d.free := rfl
@[simp] theorem onSlice_qtime (n : Nat) (f : Slice → Slice) : (d.onSlice n f).qtime = d.qtime := rfl
@[simp] theorem onSlice_shadow (n : Nat) (f : Slice → Slice) : (d.onSlice n f).shadow = d.shadow := rfl
@[simp] theorem onSlice_bonded (n : Nat) (f : Slice → Slice) : (d.onSlice n f).bonded = d.bonded := rfl
@[simp] theorem onSlice_opuStage (n : Nat) (f : Slice → Slice) : (d.onSlice n f).opuStage = d.opuStage := rfl
@[simp] theorem onSlice_dram (n : Nat) (f : Slice → Slice) : (d.onSlice n f).dram = d.dram := rfl
@[simp] theorem onSlice_dramChk (n : Nat) (f : Slice → Slice) : (d.onSlice n f).dramChk = d.dramChk := rfl
@[simp] theorem onSlice_hostMem (n : Nat) (f : Slice → Slice) : (d.onSlice n f).hostMem = d.hostMem := rfl
@[simp] theorem onSlice_pickups (n : Nat) (f : Slice → Slice) : (d.onSlice n f).pickups = d.pickups := rfl
@[simp] theorem onSlice_sde (n : Nat) (f : Slice → Slice) : (d.onSlice n f).sde = d.sde := rfl
@[simp] theorem onSlice_ladder (n : Nat) (f : Slice → Slice) : (d.onSlice n f).ladder = d.ladder := rfl
@[simp] theorem onSlice_journal (n : Nat) (f : Slice → Slice) : (d.onSlice n f).journal = d.journal := rfl
@[simp] theorem onSlice_answer (n : Nat) (f : Slice → Slice) : (d.onSlice n f).answer = d.answer := rfl
@[simp] theorem onSlice_fw (n : Nat) (f : Slice → Slice) : (d.onSlice n f).fw = d.fw := rfl
@[simp] theorem onSlice_spn (n : Nat) (f : Slice → Slice) : (d.onSlice n f).spn = d.spn := rfl
@[simp] theorem onSlice_sleds (n : Nat) (f : Slice → Slice) : (d.onSlice n f).sleds = d.sleds := rfl
@[simp] theorem onSlice_clamp (n : Nat) (f : Slice → Slice) : (d.onSlice n f).clamp = d.clamp := rfl
@[simp] theorem onSlice_eng (n : Nat) (f : Slice → Slice) : (d.onSlice n f).eng = d.eng := rfl
@[simp] theorem onSlice_servos (n : Nat) (f : Slice → Slice) : (d.onSlice n f).servos = d.servos := rfl
@[simp] theorem onSlice_sumRef (n : Nat) (f : Slice → Slice) : (d.onSlice n f).sumRef = d.sumRef := rfl
@[simp] theorem onSlice_cal (n : Nat) (f : Slice → Slice) : (d.onSlice n f).cal = d.cal := rfl
@[simp] theorem onSlice_wsgs (n : Nat) (f : Slice → Slice) : (d.onSlice n f).wsgs = d.wsgs := rfl
@[simp] theorem onSlice_stalled (n : Nat) (f : Slice → Slice) : (d.onSlice n f).stalled = d.stalled := rfl
@[simp] theorem onSlice_drc (n : Nat) (f : Slice → Slice) : (d.onSlice n f).drc = d.drc := rfl
@[simp] theorem onSlice_fbc (n : Nat) (f : Slice → Slice) : (d.onSlice n f).fbc = d.fbc := rfl
@[simp] theorem onSlice_error (n : Nat) (f : Slice → Slice) : (d.onSlice n f).error = d.error := rfl
@[simp] theorem onSlice_link (n : Nat) (f : Slice → Slice) : (d.onSlice n f).link = d.link := rfl
@[simp] theorem onSlice_host (n : Nat) (f : Slice → Slice) : (d.onSlice n f).host = d.host := rfl
@[simp] theorem onSlice_comp (n : Nat) (f : Slice → Slice) : (d.onSlice n f).comp = d.comp := rfl
@[simp] theorem onSlice_aon (n : Nat) (f : Slice → Slice) : (d.onSlice n f).aon = d.aon := rfl
@[simp] theorem onSlice_tap (n : Nat) (f : Slice → Slice) : (d.onSlice n f).tap = d.tap := rfl
@[simp] theorem onSlice_rd (n : Nat) (f : Slice → Slice) (q : Reg) (k l : Nat) : (d.onSlice n f).rd q k l = d.rd q k l := rfl
@[simp] theorem onSlice_fg (n : Nat) (f : Slice → Slice) (q : Fld) (k l : Nat) : (d.onSlice n f).fg q k l = d.fg q k l := rfl
@[simp] theorem onSlice_is (n : Nat) (f : Slice → Slice) (q : Fld) (k l : Nat) : (d.onSlice n f).is q k l = d.is q k l := rfl

/-! `onPickup` writes `pickups` only. -/
@[simp] theorem onPickup_regs (n : Nat) (f : Pickup → Pickup) : (d.onPickup n f).regs = d.regs := rfl
@[simp] theorem onPickup_free (n : Nat) (f : Pickup → Pickup) : (d.onPickup n f).free = d.free := rfl
@[simp] theorem onPickup_qtime (n : Nat) (f : Pickup → Pickup) : (d.onPickup n f).qtime = d.qtime := rfl
@[simp] theorem onPickup_shadow (n : Nat) (f : Pickup → Pickup) : (d.onPickup n f).shadow = d.shadow := rfl
@[simp] theorem onPickup_bonded (n : Nat) (f : Pickup → Pickup) : (d.onPickup n f).bonded = d.bonded := rfl
@[simp] theorem onPickup_opuStage (n : Nat) (f : Pickup → Pickup) : (d.onPickup n f).opuStage = d.opuStage := rfl
@[simp] theorem onPickup_dram (n : Nat) (f : Pickup → Pickup) : (d.onPickup n f).dram = d.dram := rfl
@[simp] theorem onPickup_dramChk (n : Nat) (f : Pickup → Pickup) : (d.onPickup n f).dramChk = d.dramChk := rfl
@[simp] theorem onPickup_hostMem (n : Nat) (f : Pickup → Pickup) : (d.onPickup n f).hostMem = d.hostMem := rfl
@[simp] theorem onPickup_slices (n : Nat) (f : Pickup → Pickup) : (d.onPickup n f).slices = d.slices := rfl
@[simp] theorem onPickup_sde (n : Nat) (f : Pickup → Pickup) : (d.onPickup n f).sde = d.sde := rfl
@[simp] theorem onPickup_ladder (n : Nat) (f : Pickup → Pickup) : (d.onPickup n f).ladder = d.ladder := rfl
@[simp] theorem onPickup_journal (n : Nat) (f : Pickup → Pickup) : (d.onPickup n f).journal = d.journal := rfl
@[simp] theorem onPickup_answer (n : Nat) (f : Pickup → Pickup) : (d.onPickup n f).answer = d.answer := rfl
@[simp] theorem onPickup_fw (n : Nat) (f : Pickup → Pickup) : (d.onPickup n f).fw = d.fw := rfl
@[simp] theorem onPickup_spn (n : Nat) (f : Pickup → Pickup) : (d.onPickup n f).spn = d.spn := rfl
@[simp] theorem onPickup_sleds (n : Nat) (f : Pickup → Pickup) : (d.onPickup n f).sleds = d.sleds := rfl
@[simp] theorem onPickup_clamp (n : Nat) (f : Pickup → Pickup) : (d.onPickup n f).clamp = d.clamp := rfl
@[simp] theorem onPickup_eng (n : Nat) (f : Pickup → Pickup) : (d.onPickup n f).eng = d.eng := rfl
@[simp] theorem onPickup_servos (n : Nat) (f : Pickup → Pickup) : (d.onPickup n f).servos = d.servos := rfl
@[simp] theorem onPickup_sumRef (n : Nat) (f : Pickup → Pickup) : (d.onPickup n f).sumRef = d.sumRef := rfl
@[simp] theorem onPickup_cal (n : Nat) (f : Pickup → Pickup) : (d.onPickup n f).cal = d.cal := rfl
@[simp] theorem onPickup_wsgs (n : Nat) (f : Pickup → Pickup) : (d.onPickup n f).wsgs = d.wsgs := rfl
@[simp] theorem onPickup_stalled (n : Nat) (f : Pickup → Pickup) : (d.onPickup n f).stalled = d.stalled := rfl
@[simp] theorem onPickup_drc (n : Nat) (f : Pickup → Pickup) : (d.onPickup n f).drc = d.drc := rfl
@[simp] theorem onPickup_fbc (n : Nat) (f : Pickup → Pickup) : (d.onPickup n f).fbc = d.fbc := rfl
@[simp] theorem onPickup_error (n : Nat) (f : Pickup → Pickup) : (d.onPickup n f).error = d.error := rfl
@[simp] theorem onPickup_link (n : Nat) (f : Pickup → Pickup) : (d.onPickup n f).link = d.link := rfl
@[simp] theorem onPickup_host (n : Nat) (f : Pickup → Pickup) : (d.onPickup n f).host = d.host := rfl
@[simp] theorem onPickup_comp (n : Nat) (f : Pickup → Pickup) : (d.onPickup n f).comp = d.comp := rfl
@[simp] theorem onPickup_aon (n : Nat) (f : Pickup → Pickup) : (d.onPickup n f).aon = d.aon := rfl
@[simp] theorem onPickup_tap (n : Nat) (f : Pickup → Pickup) : (d.onPickup n f).tap = d.tap := rfl
@[simp] theorem onPickup_rd (n : Nat) (f : Pickup → Pickup) (q : Reg) (k l : Nat) : (d.onPickup n f).rd q k l = d.rd q k l := rfl
@[simp] theorem onPickup_fg (n : Nat) (f : Pickup → Pickup) (q : Fld) (k l : Nat) : (d.onPickup n f).fg q k l = d.fg q k l := rfl
@[simp] theorem onPickup_is (n : Nat) (f : Pickup → Pickup) (q : Fld) (k l : Nat) : (d.onPickup n f).is q k l = d.is q k l := rfl

/-! `onServo` writes `servos` only. -/
@[simp] theorem onServo_regs (n : Nat) (f : Servo → Servo) : (d.onServo n f).regs = d.regs := rfl
@[simp] theorem onServo_free (n : Nat) (f : Servo → Servo) : (d.onServo n f).free = d.free := rfl
@[simp] theorem onServo_qtime (n : Nat) (f : Servo → Servo) : (d.onServo n f).qtime = d.qtime := rfl
@[simp] theorem onServo_shadow (n : Nat) (f : Servo → Servo) : (d.onServo n f).shadow = d.shadow := rfl
@[simp] theorem onServo_bonded (n : Nat) (f : Servo → Servo) : (d.onServo n f).bonded = d.bonded := rfl
@[simp] theorem onServo_opuStage (n : Nat) (f : Servo → Servo) : (d.onServo n f).opuStage = d.opuStage := rfl
@[simp] theorem onServo_dram (n : Nat) (f : Servo → Servo) : (d.onServo n f).dram = d.dram := rfl
@[simp] theorem onServo_dramChk (n : Nat) (f : Servo → Servo) : (d.onServo n f).dramChk = d.dramChk := rfl
@[simp] theorem onServo_hostMem (n : Nat) (f : Servo → Servo) : (d.onServo n f).hostMem = d.hostMem := rfl
@[simp] theorem onServo_slices (n : Nat) (f : Servo → Servo) : (d.onServo n f).slices = d.slices := rfl
@[simp] theorem onServo_pickups (n : Nat) (f : Servo → Servo) : (d.onServo n f).pickups = d.pickups := rfl
@[simp] theorem onServo_sde (n : Nat) (f : Servo → Servo) : (d.onServo n f).sde = d.sde := rfl
@[simp] theorem onServo_ladder (n : Nat) (f : Servo → Servo) : (d.onServo n f).ladder = d.ladder := rfl
@[simp] theorem onServo_journal (n : Nat) (f : Servo → Servo) : (d.onServo n f).journal = d.journal := rfl
@[simp] theorem onServo_answer (n : Nat) (f : Servo → Servo) : (d.onServo n f).answer = d.answer := rfl
@[simp] theorem onServo_fw (n : Nat) (f : Servo → Servo) : (d.onServo n f).fw = d.fw := rfl
@[simp] theorem onServo_spn (n : Nat) (f : Servo → Servo) : (d.onServo n f).spn = d.spn := rfl
@[simp] theorem onServo_sleds (n : Nat) (f : Servo → Servo) : (d.onServo n f).sleds = d.sleds := rfl
@[simp] theorem onServo_clamp (n : Nat) (f : Servo → Servo) : (d.onServo n f).clamp = d.clamp := rfl
@[simp] theorem onServo_eng (n : Nat) (f : Servo → Servo) : (d.onServo n f).eng = d.eng := rfl
@[simp] theorem onServo_sumRef (n : Nat) (f : Servo → Servo) : (d.onServo n f).sumRef = d.sumRef := rfl
@[simp] theorem onServo_cal (n : Nat) (f : Servo → Servo) : (d.onServo n f).cal = d.cal := rfl
@[simp] theorem onServo_wsgs (n : Nat) (f : Servo → Servo) : (d.onServo n f).wsgs = d.wsgs := rfl
@[simp] theorem onServo_stalled (n : Nat) (f : Servo → Servo) : (d.onServo n f).stalled = d.stalled := rfl
@[simp] theorem onServo_drc (n : Nat) (f : Servo → Servo) : (d.onServo n f).drc = d.drc := rfl
@[simp] theorem onServo_fbc (n : Nat) (f : Servo → Servo) : (d.onServo n f).fbc = d.fbc := rfl
@[simp] theorem onServo_error (n : Nat) (f : Servo → Servo) : (d.onServo n f).error = d.error := rfl
@[simp] theorem onServo_link (n : Nat) (f : Servo → Servo) : (d.onServo n f).link = d.link := rfl
@[simp] theorem onServo_host (n : Nat) (f : Servo → Servo) : (d.onServo n f).host = d.host := rfl
@[simp] theorem onServo_comp (n : Nat) (f : Servo → Servo) : (d.onServo n f).comp = d.comp := rfl
@[simp] theorem onServo_aon (n : Nat) (f : Servo → Servo) : (d.onServo n f).aon = d.aon := rfl
@[simp] theorem onServo_tap (n : Nat) (f : Servo → Servo) : (d.onServo n f).tap = d.tap := rfl
@[simp] theorem onServo_rd (n : Nat) (f : Servo → Servo) (q : Reg) (k l : Nat) : (d.onServo n f).rd q k l = d.rd q k l := rfl
@[simp] theorem onServo_fg (n : Nat) (f : Servo → Servo) (q : Fld) (k l : Nat) : (d.onServo n f).fg q k l = d.fg q k l := rfl
@[simp] theorem onServo_is (n : Nat) (f : Servo → Servo) (q : Fld) (k l : Nat) : (d.onServo n f).is q k l = d.is q k l := rfl

/-! `onWsg` writes `wsgs` only. -/
@[simp] theorem onWsg_regs (n : Nat) (f : Wsg → Wsg) : (d.onWsg n f).regs = d.regs := rfl
@[simp] theorem onWsg_free (n : Nat) (f : Wsg → Wsg) : (d.onWsg n f).free = d.free := rfl
@[simp] theorem onWsg_qtime (n : Nat) (f : Wsg → Wsg) : (d.onWsg n f).qtime = d.qtime := rfl
@[simp] theorem onWsg_shadow (n : Nat) (f : Wsg → Wsg) : (d.onWsg n f).shadow = d.shadow := rfl
@[simp] theorem onWsg_bonded (n : Nat) (f : Wsg → Wsg) : (d.onWsg n f).bonded = d.bonded := rfl
@[simp] theorem onWsg_opuStage (n : Nat) (f : Wsg → Wsg) : (d.onWsg n f).opuStage = d.opuStage := rfl
@[simp] theorem onWsg_dram (n : Nat) (f : Wsg → Wsg) : (d.onWsg n f).dram = d.dram := rfl
@[simp] theorem onWsg_dramChk (n : Nat) (f : Wsg → Wsg) : (d.onWsg n f).dramChk = d.dramChk := rfl
@[simp] theorem onWsg_hostMem (n : Nat) (f : Wsg → Wsg) : (d.onWsg n f).hostMem = d.hostMem := rfl
@[simp] theorem onWsg_slices (n : Nat) (f : Wsg → Wsg) : (d.onWsg n f).slices = d.slices := rfl
@[simp] theorem onWsg_pickups (n : Nat) (f : Wsg → Wsg) : (d.onWsg n f).pickups = d.pickups := rfl
@[simp] theorem onWsg_sde (n : Nat) (f : Wsg → Wsg) : (d.onWsg n f).sde = d.sde := rfl
@[simp] theorem onWsg_ladder (n : Nat) (f : Wsg → Wsg) : (d.onWsg n f).ladder = d.ladder := rfl
@[simp] theorem onWsg_journal (n : Nat) (f : Wsg → Wsg) : (d.onWsg n f).journal = d.journal := rfl
@[simp] theorem onWsg_answer (n : Nat) (f : Wsg → Wsg) : (d.onWsg n f).answer = d.answer := rfl
@[simp] theorem onWsg_fw (n : Nat) (f : Wsg → Wsg) : (d.onWsg n f).fw = d.fw := rfl
@[simp] theorem onWsg_spn (n : Nat) (f : Wsg → Wsg) : (d.onWsg n f).spn = d.spn := rfl
@[simp] theorem onWsg_sleds (n : Nat) (f : Wsg → Wsg) : (d.onWsg n f).sleds = d.sleds := rfl
@[simp] theorem onWsg_clamp (n : Nat) (f : Wsg → Wsg) : (d.onWsg n f).clamp = d.clamp := rfl
@[simp] theorem onWsg_eng (n : Nat) (f : Wsg → Wsg) : (d.onWsg n f).eng = d.eng := rfl
@[simp] theorem onWsg_servos (n : Nat) (f : Wsg → Wsg) : (d.onWsg n f).servos = d.servos := rfl
@[simp] theorem onWsg_sumRef (n : Nat) (f : Wsg → Wsg) : (d.onWsg n f).sumRef = d.sumRef := rfl
@[simp] theorem onWsg_cal (n : Nat) (f : Wsg → Wsg) : (d.onWsg n f).cal = d.cal := rfl
@[simp] theorem onWsg_stalled (n : Nat) (f : Wsg → Wsg) : (d.onWsg n f).stalled = d.stalled := rfl
@[simp] theorem onWsg_drc (n : Nat) (f : Wsg → Wsg) : (d.onWsg n f).drc = d.drc := rfl
@[simp] theorem onWsg_fbc (n : Nat) (f : Wsg → Wsg) : (d.onWsg n f).fbc = d.fbc := rfl
@[simp] theorem onWsg_error (n : Nat) (f : Wsg → Wsg) : (d.onWsg n f).error = d.error := rfl
@[simp] theorem onWsg_link (n : Nat) (f : Wsg → Wsg) : (d.onWsg n f).link = d.link := rfl
@[simp] theorem onWsg_host (n : Nat) (f : Wsg → Wsg) : (d.onWsg n f).host = d.host := rfl
@[simp] theorem onWsg_comp (n : Nat) (f : Wsg → Wsg) : (d.onWsg n f).comp = d.comp := rfl
@[simp] theorem onWsg_aon (n : Nat) (f : Wsg → Wsg) : (d.onWsg n f).aon = d.aon := rfl
@[simp] theorem onWsg_tap (n : Nat) (f : Wsg → Wsg) : (d.onWsg n f).tap = d.tap := rfl
@[simp] theorem onWsg_rd (n : Nat) (f : Wsg → Wsg) (q : Reg) (k l : Nat) : (d.onWsg n f).rd q k l = d.rd q k l := rfl
@[simp] theorem onWsg_fg (n : Nat) (f : Wsg → Wsg) (q : Fld) (k l : Nat) : (d.onWsg n f).fg q k l = d.fg q k l := rfl
@[simp] theorem onWsg_is (n : Nat) (f : Wsg → Wsg) (q : Fld) (k l : Nat) : (d.onWsg n f).is q k l = d.is q k l := rfl

/-! `onSled` writes `sleds` only. -/
@[simp] theorem onSled_regs (n : Nat) (f : Sled → Sled) : (d.onSled n f).regs = d.regs := rfl
@[simp] theorem onSled_free (n : Nat) (f : Sled → Sled) : (d.onSled n f).free = d.free := rfl
@[simp] theorem onSled_qtime (n : Nat) (f : Sled → Sled) : (d.onSled n f).qtime = d.qtime := rfl
@[simp] theorem onSled_shadow (n : Nat) (f : Sled → Sled) : (d.onSled n f).shadow = d.shadow := rfl
@[simp] theorem onSled_bonded (n : Nat) (f : Sled → Sled) : (d.onSled n f).bonded = d.bonded := rfl
@[simp] theorem onSled_opuStage (n : Nat) (f : Sled → Sled) : (d.onSled n f).opuStage = d.opuStage := rfl
@[simp] theorem onSled_dram (n : Nat) (f : Sled → Sled) : (d.onSled n f).dram = d.dram := rfl
@[simp] theorem onSled_dramChk (n : Nat) (f : Sled → Sled) : (d.onSled n f).dramChk = d.dramChk := rfl
@[simp] theorem onSled_hostMem (n : Nat) (f : Sled → Sled) : (d.onSled n f).hostMem = d.hostMem := rfl
@[simp] theorem onSled_slices (n : Nat) (f : Sled → Sled) : (d.onSled n f).slices = d.slices := rfl
@[simp] theorem onSled_pickups (n : Nat) (f : Sled → Sled) : (d.onSled n f).pickups = d.pickups := rfl
@[simp] theorem onSled_sde (n : Nat) (f : Sled → Sled) : (d.onSled n f).sde = d.sde := rfl
@[simp] theorem onSled_ladder (n : Nat) (f : Sled → Sled) : (d.onSled n f).ladder = d.ladder := rfl
@[simp] theorem onSled_journal (n : Nat) (f : Sled → Sled) : (d.onSled n f).journal = d.journal := rfl
@[simp] theorem onSled_answer (n : Nat) (f : Sled → Sled) : (d.onSled n f).answer = d.answer := rfl
@[simp] theorem onSled_fw (n : Nat) (f : Sled → Sled) : (d.onSled n f).fw = d.fw := rfl
@[simp] theorem onSled_spn (n : Nat) (f : Sled → Sled) : (d.onSled n f).spn = d.spn := rfl
@[simp] theorem onSled_clamp (n : Nat) (f : Sled → Sled) : (d.onSled n f).clamp = d.clamp := rfl
@[simp] theorem onSled_eng (n : Nat) (f : Sled → Sled) : (d.onSled n f).eng = d.eng := rfl
@[simp] theorem onSled_servos (n : Nat) (f : Sled → Sled) : (d.onSled n f).servos = d.servos := rfl
@[simp] theorem onSled_sumRef (n : Nat) (f : Sled → Sled) : (d.onSled n f).sumRef = d.sumRef := rfl
@[simp] theorem onSled_cal (n : Nat) (f : Sled → Sled) : (d.onSled n f).cal = d.cal := rfl
@[simp] theorem onSled_wsgs (n : Nat) (f : Sled → Sled) : (d.onSled n f).wsgs = d.wsgs := rfl
@[simp] theorem onSled_stalled (n : Nat) (f : Sled → Sled) : (d.onSled n f).stalled = d.stalled := rfl
@[simp] theorem onSled_drc (n : Nat) (f : Sled → Sled) : (d.onSled n f).drc = d.drc := rfl
@[simp] theorem onSled_fbc (n : Nat) (f : Sled → Sled) : (d.onSled n f).fbc = d.fbc := rfl
@[simp] theorem onSled_error (n : Nat) (f : Sled → Sled) : (d.onSled n f).error = d.error := rfl
@[simp] theorem onSled_link (n : Nat) (f : Sled → Sled) : (d.onSled n f).link = d.link := rfl
@[simp] theorem onSled_host (n : Nat) (f : Sled → Sled) : (d.onSled n f).host = d.host := rfl
@[simp] theorem onSled_comp (n : Nat) (f : Sled → Sled) : (d.onSled n f).comp = d.comp := rfl
@[simp] theorem onSled_aon (n : Nat) (f : Sled → Sled) : (d.onSled n f).aon = d.aon := rfl
@[simp] theorem onSled_tap (n : Nat) (f : Sled → Sled) : (d.onSled n f).tap = d.tap := rfl
@[simp] theorem onSled_rd (n : Nat) (f : Sled → Sled) (q : Reg) (k l : Nat) : (d.onSled n f).rd q k l = d.rd q k l := rfl
@[simp] theorem onSled_fg (n : Nat) (f : Sled → Sled) (q : Fld) (k l : Nat) : (d.onSled n f).fg q k l = d.fg q k l := rfl
@[simp] theorem onSled_is (n : Nat) (f : Sled → Sled) (q : Fld) (k l : Nat) : (d.onSled n f).is q k l = d.is q k l := rfl

/-! `onSde` writes `sde` only. -/
@[simp] theorem onSde_regs (f : Sde → Sde) : (d.onSde f).regs = d.regs := rfl
@[simp] theorem onSde_free (f : Sde → Sde) : (d.onSde f).free = d.free := rfl
@[simp] theorem onSde_qtime (f : Sde → Sde) : (d.onSde f).qtime = d.qtime := rfl
@[simp] theorem onSde_shadow (f : Sde → Sde) : (d.onSde f).shadow = d.shadow := rfl
@[simp] theorem onSde_bonded (f : Sde → Sde) : (d.onSde f).bonded = d.bonded := rfl
@[simp] theorem onSde_opuStage (f : Sde → Sde) : (d.onSde f).opuStage = d.opuStage := rfl
@[simp] theorem onSde_dram (f : Sde → Sde) : (d.onSde f).dram = d.dram := rfl
@[simp] theorem onSde_dramChk (f : Sde → Sde) : (d.onSde f).dramChk = d.dramChk := rfl
@[simp] theorem onSde_hostMem (f : Sde → Sde) : (d.onSde f).hostMem = d.hostMem := rfl
@[simp] theorem onSde_slices (f : Sde → Sde) : (d.onSde f).slices = d.slices := rfl
@[simp] theorem onSde_pickups (f : Sde → Sde) : (d.onSde f).pickups = d.pickups := rfl
@[simp] theorem onSde_ladder (f : Sde → Sde) : (d.onSde f).ladder = d.ladder := rfl
@[simp] theorem onSde_journal (f : Sde → Sde) : (d.onSde f).journal = d.journal := rfl
@[simp] theorem onSde_answer (f : Sde → Sde) : (d.onSde f).answer = d.answer := rfl
@[simp] theorem onSde_fw (f : Sde → Sde) : (d.onSde f).fw = d.fw := rfl
@[simp] theorem onSde_spn (f : Sde → Sde) : (d.onSde f).spn = d.spn := rfl
@[simp] theorem onSde_sleds (f : Sde → Sde) : (d.onSde f).sleds = d.sleds := rfl
@[simp] theorem onSde_clamp (f : Sde → Sde) : (d.onSde f).clamp = d.clamp := rfl
@[simp] theorem onSde_eng (f : Sde → Sde) : (d.onSde f).eng = d.eng := rfl
@[simp] theorem onSde_servos (f : Sde → Sde) : (d.onSde f).servos = d.servos := rfl
@[simp] theorem onSde_sumRef (f : Sde → Sde) : (d.onSde f).sumRef = d.sumRef := rfl
@[simp] theorem onSde_cal (f : Sde → Sde) : (d.onSde f).cal = d.cal := rfl
@[simp] theorem onSde_wsgs (f : Sde → Sde) : (d.onSde f).wsgs = d.wsgs := rfl
@[simp] theorem onSde_stalled (f : Sde → Sde) : (d.onSde f).stalled = d.stalled := rfl
@[simp] theorem onSde_drc (f : Sde → Sde) : (d.onSde f).drc = d.drc := rfl
@[simp] theorem onSde_fbc (f : Sde → Sde) : (d.onSde f).fbc = d.fbc := rfl
@[simp] theorem onSde_error (f : Sde → Sde) : (d.onSde f).error = d.error := rfl
@[simp] theorem onSde_link (f : Sde → Sde) : (d.onSde f).link = d.link := rfl
@[simp] theorem onSde_host (f : Sde → Sde) : (d.onSde f).host = d.host := rfl
@[simp] theorem onSde_comp (f : Sde → Sde) : (d.onSde f).comp = d.comp := rfl
@[simp] theorem onSde_aon (f : Sde → Sde) : (d.onSde f).aon = d.aon := rfl
@[simp] theorem onSde_tap (f : Sde → Sde) : (d.onSde f).tap = d.tap := rfl
@[simp] theorem onSde_sde (f : Sde → Sde) : (d.onSde f).sde = f d.sde := rfl
@[simp] theorem onSde_rd (f : Sde → Sde) (q : Reg) (k l : Nat) : (d.onSde f).rd q k l = d.rd q k l := rfl
@[simp] theorem onSde_fg (f : Sde → Sde) (q : Fld) (k l : Nat) : (d.onSde f).fg q k l = d.fg q k l := rfl
@[simp] theorem onSde_is (f : Sde → Sde) (q : Fld) (k l : Nat) : (d.onSde f).is q k l = d.is q k l := rfl

/-! `onCtx` writes `sde` only. -/
@[simp] theorem onCtx_regs (n : Nat) (f : Context → Context) : (d.onCtx n f).regs = d.regs := rfl
@[simp] theorem onCtx_free (n : Nat) (f : Context → Context) : (d.onCtx n f).free = d.free := rfl
@[simp] theorem onCtx_qtime (n : Nat) (f : Context → Context) : (d.onCtx n f).qtime = d.qtime := rfl
@[simp] theorem onCtx_shadow (n : Nat) (f : Context → Context) : (d.onCtx n f).shadow = d.shadow := rfl
@[simp] theorem onCtx_bonded (n : Nat) (f : Context → Context) : (d.onCtx n f).bonded = d.bonded := rfl
@[simp] theorem onCtx_opuStage (n : Nat) (f : Context → Context) : (d.onCtx n f).opuStage = d.opuStage := rfl
@[simp] theorem onCtx_dram (n : Nat) (f : Context → Context) : (d.onCtx n f).dram = d.dram := rfl
@[simp] theorem onCtx_dramChk (n : Nat) (f : Context → Context) : (d.onCtx n f).dramChk = d.dramChk := rfl
@[simp] theorem onCtx_hostMem (n : Nat) (f : Context → Context) : (d.onCtx n f).hostMem = d.hostMem := rfl
@[simp] theorem onCtx_slices (n : Nat) (f : Context → Context) : (d.onCtx n f).slices = d.slices := rfl
@[simp] theorem onCtx_pickups (n : Nat) (f : Context → Context) : (d.onCtx n f).pickups = d.pickups := rfl
@[simp] theorem onCtx_ladder (n : Nat) (f : Context → Context) : (d.onCtx n f).ladder = d.ladder := rfl
@[simp] theorem onCtx_journal (n : Nat) (f : Context → Context) : (d.onCtx n f).journal = d.journal := rfl
@[simp] theorem onCtx_answer (n : Nat) (f : Context → Context) : (d.onCtx n f).answer = d.answer := rfl
@[simp] theorem onCtx_fw (n : Nat) (f : Context → Context) : (d.onCtx n f).fw = d.fw := rfl
@[simp] theorem onCtx_spn (n : Nat) (f : Context → Context) : (d.onCtx n f).spn = d.spn := rfl
@[simp] theorem onCtx_sleds (n : Nat) (f : Context → Context) : (d.onCtx n f).sleds = d.sleds := rfl
@[simp] theorem onCtx_clamp (n : Nat) (f : Context → Context) : (d.onCtx n f).clamp = d.clamp := rfl
@[simp] theorem onCtx_eng (n : Nat) (f : Context → Context) : (d.onCtx n f).eng = d.eng := rfl
@[simp] theorem onCtx_servos (n : Nat) (f : Context → Context) : (d.onCtx n f).servos = d.servos := rfl
@[simp] theorem onCtx_sumRef (n : Nat) (f : Context → Context) : (d.onCtx n f).sumRef = d.sumRef := rfl
@[simp] theorem onCtx_cal (n : Nat) (f : Context → Context) : (d.onCtx n f).cal = d.cal := rfl
@[simp] theorem onCtx_wsgs (n : Nat) (f : Context → Context) : (d.onCtx n f).wsgs = d.wsgs := rfl
@[simp] theorem onCtx_stalled (n : Nat) (f : Context → Context) : (d.onCtx n f).stalled = d.stalled := rfl
@[simp] theorem onCtx_drc (n : Nat) (f : Context → Context) : (d.onCtx n f).drc = d.drc := rfl
@[simp] theorem onCtx_fbc (n : Nat) (f : Context → Context) : (d.onCtx n f).fbc = d.fbc := rfl
@[simp] theorem onCtx_error (n : Nat) (f : Context → Context) : (d.onCtx n f).error = d.error := rfl
@[simp] theorem onCtx_link (n : Nat) (f : Context → Context) : (d.onCtx n f).link = d.link := rfl
@[simp] theorem onCtx_host (n : Nat) (f : Context → Context) : (d.onCtx n f).host = d.host := rfl
@[simp] theorem onCtx_comp (n : Nat) (f : Context → Context) : (d.onCtx n f).comp = d.comp := rfl
@[simp] theorem onCtx_aon (n : Nat) (f : Context → Context) : (d.onCtx n f).aon = d.aon := rfl
@[simp] theorem onCtx_tap (n : Nat) (f : Context → Context) : (d.onCtx n f).tap = d.tap := rfl
@[simp] theorem onCtx_rd (n : Nat) (f : Context → Context) (q : Reg) (k l : Nat) : (d.onCtx n f).rd q k l = d.rd q k l := rfl
@[simp] theorem onCtx_fg (n : Nat) (f : Context → Context) (q : Fld) (k l : Nat) : (d.onCtx n f).fg q k l = d.fg q k l := rfl
@[simp] theorem onCtx_is (n : Nat) (f : Context → Context) (q : Fld) (k l : Nat) : (d.onCtx n f).is q k l = d.is q k l := rfl

/-! `onJournal` writes `journal` only. -/
@[simp] theorem onJournal_regs (f : Journal → Journal) : (d.onJournal f).regs = d.regs := rfl
@[simp] theorem onJournal_free (f : Journal → Journal) : (d.onJournal f).free = d.free := rfl
@[simp] theorem onJournal_qtime (f : Journal → Journal) : (d.onJournal f).qtime = d.qtime := rfl
@[simp] theorem onJournal_shadow (f : Journal → Journal) : (d.onJournal f).shadow = d.shadow := rfl
@[simp] theorem onJournal_bonded (f : Journal → Journal) : (d.onJournal f).bonded = d.bonded := rfl
@[simp] theorem onJournal_opuStage (f : Journal → Journal) : (d.onJournal f).opuStage = d.opuStage := rfl
@[simp] theorem onJournal_dram (f : Journal → Journal) : (d.onJournal f).dram = d.dram := rfl
@[simp] theorem onJournal_dramChk (f : Journal → Journal) : (d.onJournal f).dramChk = d.dramChk := rfl
@[simp] theorem onJournal_hostMem (f : Journal → Journal) : (d.onJournal f).hostMem = d.hostMem := rfl
@[simp] theorem onJournal_slices (f : Journal → Journal) : (d.onJournal f).slices = d.slices := rfl
@[simp] theorem onJournal_pickups (f : Journal → Journal) : (d.onJournal f).pickups = d.pickups := rfl
@[simp] theorem onJournal_sde (f : Journal → Journal) : (d.onJournal f).sde = d.sde := rfl
@[simp] theorem onJournal_ladder (f : Journal → Journal) : (d.onJournal f).ladder = d.ladder := rfl
@[simp] theorem onJournal_answer (f : Journal → Journal) : (d.onJournal f).answer = d.answer := rfl
@[simp] theorem onJournal_fw (f : Journal → Journal) : (d.onJournal f).fw = d.fw := rfl
@[simp] theorem onJournal_spn (f : Journal → Journal) : (d.onJournal f).spn = d.spn := rfl
@[simp] theorem onJournal_sleds (f : Journal → Journal) : (d.onJournal f).sleds = d.sleds := rfl
@[simp] theorem onJournal_clamp (f : Journal → Journal) : (d.onJournal f).clamp = d.clamp := rfl
@[simp] theorem onJournal_eng (f : Journal → Journal) : (d.onJournal f).eng = d.eng := rfl
@[simp] theorem onJournal_servos (f : Journal → Journal) : (d.onJournal f).servos = d.servos := rfl
@[simp] theorem onJournal_sumRef (f : Journal → Journal) : (d.onJournal f).sumRef = d.sumRef := rfl
@[simp] theorem onJournal_cal (f : Journal → Journal) : (d.onJournal f).cal = d.cal := rfl
@[simp] theorem onJournal_wsgs (f : Journal → Journal) : (d.onJournal f).wsgs = d.wsgs := rfl
@[simp] theorem onJournal_stalled (f : Journal → Journal) : (d.onJournal f).stalled = d.stalled := rfl
@[simp] theorem onJournal_drc (f : Journal → Journal) : (d.onJournal f).drc = d.drc := rfl
@[simp] theorem onJournal_fbc (f : Journal → Journal) : (d.onJournal f).fbc = d.fbc := rfl
@[simp] theorem onJournal_error (f : Journal → Journal) : (d.onJournal f).error = d.error := rfl
@[simp] theorem onJournal_link (f : Journal → Journal) : (d.onJournal f).link = d.link := rfl
@[simp] theorem onJournal_host (f : Journal → Journal) : (d.onJournal f).host = d.host := rfl
@[simp] theorem onJournal_comp (f : Journal → Journal) : (d.onJournal f).comp = d.comp := rfl
@[simp] theorem onJournal_aon (f : Journal → Journal) : (d.onJournal f).aon = d.aon := rfl
@[simp] theorem onJournal_tap (f : Journal → Journal) : (d.onJournal f).tap = d.tap := rfl
@[simp] theorem onJournal_journal (f : Journal → Journal) : (d.onJournal f).journal = f d.journal := rfl
@[simp] theorem onJournal_rd (f : Journal → Journal) (q : Reg) (k l : Nat) : (d.onJournal f).rd q k l = d.rd q k l := rfl
@[simp] theorem onJournal_fg (f : Journal → Journal) (q : Fld) (k l : Nat) : (d.onJournal f).fg q k l = d.fg q k l := rfl
@[simp] theorem onJournal_is (f : Journal → Journal) (q : Fld) (k l : Nat) : (d.onJournal f).is q k l = d.is q k l := rfl

/-! `onFw` writes `fw` only. -/
@[simp] theorem onFw_regs (f : Firmware → Firmware) : (d.onFw f).regs = d.regs := rfl
@[simp] theorem onFw_free (f : Firmware → Firmware) : (d.onFw f).free = d.free := rfl
@[simp] theorem onFw_qtime (f : Firmware → Firmware) : (d.onFw f).qtime = d.qtime := rfl
@[simp] theorem onFw_shadow (f : Firmware → Firmware) : (d.onFw f).shadow = d.shadow := rfl
@[simp] theorem onFw_bonded (f : Firmware → Firmware) : (d.onFw f).bonded = d.bonded := rfl
@[simp] theorem onFw_opuStage (f : Firmware → Firmware) : (d.onFw f).opuStage = d.opuStage := rfl
@[simp] theorem onFw_dram (f : Firmware → Firmware) : (d.onFw f).dram = d.dram := rfl
@[simp] theorem onFw_dramChk (f : Firmware → Firmware) : (d.onFw f).dramChk = d.dramChk := rfl
@[simp] theorem onFw_hostMem (f : Firmware → Firmware) : (d.onFw f).hostMem = d.hostMem := rfl
@[simp] theorem onFw_slices (f : Firmware → Firmware) : (d.onFw f).slices = d.slices := rfl
@[simp] theorem onFw_pickups (f : Firmware → Firmware) : (d.onFw f).pickups = d.pickups := rfl
@[simp] theorem onFw_sde (f : Firmware → Firmware) : (d.onFw f).sde = d.sde := rfl
@[simp] theorem onFw_ladder (f : Firmware → Firmware) : (d.onFw f).ladder = d.ladder := rfl
@[simp] theorem onFw_journal (f : Firmware → Firmware) : (d.onFw f).journal = d.journal := rfl
@[simp] theorem onFw_answer (f : Firmware → Firmware) : (d.onFw f).answer = d.answer := rfl
@[simp] theorem onFw_spn (f : Firmware → Firmware) : (d.onFw f).spn = d.spn := rfl
@[simp] theorem onFw_sleds (f : Firmware → Firmware) : (d.onFw f).sleds = d.sleds := rfl
@[simp] theorem onFw_clamp (f : Firmware → Firmware) : (d.onFw f).clamp = d.clamp := rfl
@[simp] theorem onFw_eng (f : Firmware → Firmware) : (d.onFw f).eng = d.eng := rfl
@[simp] theorem onFw_servos (f : Firmware → Firmware) : (d.onFw f).servos = d.servos := rfl
@[simp] theorem onFw_sumRef (f : Firmware → Firmware) : (d.onFw f).sumRef = d.sumRef := rfl
@[simp] theorem onFw_cal (f : Firmware → Firmware) : (d.onFw f).cal = d.cal := rfl
@[simp] theorem onFw_wsgs (f : Firmware → Firmware) : (d.onFw f).wsgs = d.wsgs := rfl
@[simp] theorem onFw_stalled (f : Firmware → Firmware) : (d.onFw f).stalled = d.stalled := rfl
@[simp] theorem onFw_drc (f : Firmware → Firmware) : (d.onFw f).drc = d.drc := rfl
@[simp] theorem onFw_fbc (f : Firmware → Firmware) : (d.onFw f).fbc = d.fbc := rfl
@[simp] theorem onFw_error (f : Firmware → Firmware) : (d.onFw f).error = d.error := rfl
@[simp] theorem onFw_link (f : Firmware → Firmware) : (d.onFw f).link = d.link := rfl
@[simp] theorem onFw_host (f : Firmware → Firmware) : (d.onFw f).host = d.host := rfl
@[simp] theorem onFw_comp (f : Firmware → Firmware) : (d.onFw f).comp = d.comp := rfl
@[simp] theorem onFw_aon (f : Firmware → Firmware) : (d.onFw f).aon = d.aon := rfl
@[simp] theorem onFw_tap (f : Firmware → Firmware) : (d.onFw f).tap = d.tap := rfl
@[simp] theorem onFw_fw (f : Firmware → Firmware) : (d.onFw f).fw = f d.fw := rfl
@[simp] theorem onFw_rd (f : Firmware → Firmware) (q : Reg) (k l : Nat) : (d.onFw f).rd q k l = d.rd q k l := rfl
@[simp] theorem onFw_fg (f : Firmware → Firmware) (q : Fld) (k l : Nat) : (d.onFw f).fg q k l = d.fg q k l := rfl
@[simp] theorem onFw_is (f : Firmware → Firmware) (q : Fld) (k l : Nat) : (d.onFw f).is q k l = d.is q k l := rfl

/-! `onOpuFw` writes `fw` only. -/
@[simp] theorem onOpuFw_regs (n : Nat) (f : OpuFw → OpuFw) : (d.onOpuFw n f).regs = d.regs := rfl
@[simp] theorem onOpuFw_free (n : Nat) (f : OpuFw → OpuFw) : (d.onOpuFw n f).free = d.free := rfl
@[simp] theorem onOpuFw_qtime (n : Nat) (f : OpuFw → OpuFw) : (d.onOpuFw n f).qtime = d.qtime := rfl
@[simp] theorem onOpuFw_shadow (n : Nat) (f : OpuFw → OpuFw) : (d.onOpuFw n f).shadow = d.shadow := rfl
@[simp] theorem onOpuFw_bonded (n : Nat) (f : OpuFw → OpuFw) : (d.onOpuFw n f).bonded = d.bonded := rfl
@[simp] theorem onOpuFw_opuStage (n : Nat) (f : OpuFw → OpuFw) : (d.onOpuFw n f).opuStage = d.opuStage := rfl
@[simp] theorem onOpuFw_dram (n : Nat) (f : OpuFw → OpuFw) : (d.onOpuFw n f).dram = d.dram := rfl
@[simp] theorem onOpuFw_dramChk (n : Nat) (f : OpuFw → OpuFw) : (d.onOpuFw n f).dramChk = d.dramChk := rfl
@[simp] theorem onOpuFw_hostMem (n : Nat) (f : OpuFw → OpuFw) : (d.onOpuFw n f).hostMem = d.hostMem := rfl
@[simp] theorem onOpuFw_slices (n : Nat) (f : OpuFw → OpuFw) : (d.onOpuFw n f).slices = d.slices := rfl
@[simp] theorem onOpuFw_pickups (n : Nat) (f : OpuFw → OpuFw) : (d.onOpuFw n f).pickups = d.pickups := rfl
@[simp] theorem onOpuFw_sde (n : Nat) (f : OpuFw → OpuFw) : (d.onOpuFw n f).sde = d.sde := rfl
@[simp] theorem onOpuFw_ladder (n : Nat) (f : OpuFw → OpuFw) : (d.onOpuFw n f).ladder = d.ladder := rfl
@[simp] theorem onOpuFw_journal (n : Nat) (f : OpuFw → OpuFw) : (d.onOpuFw n f).journal = d.journal := rfl
@[simp] theorem onOpuFw_answer (n : Nat) (f : OpuFw → OpuFw) : (d.onOpuFw n f).answer = d.answer := rfl
@[simp] theorem onOpuFw_spn (n : Nat) (f : OpuFw → OpuFw) : (d.onOpuFw n f).spn = d.spn := rfl
@[simp] theorem onOpuFw_sleds (n : Nat) (f : OpuFw → OpuFw) : (d.onOpuFw n f).sleds = d.sleds := rfl
@[simp] theorem onOpuFw_clamp (n : Nat) (f : OpuFw → OpuFw) : (d.onOpuFw n f).clamp = d.clamp := rfl
@[simp] theorem onOpuFw_eng (n : Nat) (f : OpuFw → OpuFw) : (d.onOpuFw n f).eng = d.eng := rfl
@[simp] theorem onOpuFw_servos (n : Nat) (f : OpuFw → OpuFw) : (d.onOpuFw n f).servos = d.servos := rfl
@[simp] theorem onOpuFw_sumRef (n : Nat) (f : OpuFw → OpuFw) : (d.onOpuFw n f).sumRef = d.sumRef := rfl
@[simp] theorem onOpuFw_cal (n : Nat) (f : OpuFw → OpuFw) : (d.onOpuFw n f).cal = d.cal := rfl
@[simp] theorem onOpuFw_wsgs (n : Nat) (f : OpuFw → OpuFw) : (d.onOpuFw n f).wsgs = d.wsgs := rfl
@[simp] theorem onOpuFw_stalled (n : Nat) (f : OpuFw → OpuFw) : (d.onOpuFw n f).stalled = d.stalled := rfl
@[simp] theorem onOpuFw_drc (n : Nat) (f : OpuFw → OpuFw) : (d.onOpuFw n f).drc = d.drc := rfl
@[simp] theorem onOpuFw_fbc (n : Nat) (f : OpuFw → OpuFw) : (d.onOpuFw n f).fbc = d.fbc := rfl
@[simp] theorem onOpuFw_error (n : Nat) (f : OpuFw → OpuFw) : (d.onOpuFw n f).error = d.error := rfl
@[simp] theorem onOpuFw_link (n : Nat) (f : OpuFw → OpuFw) : (d.onOpuFw n f).link = d.link := rfl
@[simp] theorem onOpuFw_host (n : Nat) (f : OpuFw → OpuFw) : (d.onOpuFw n f).host = d.host := rfl
@[simp] theorem onOpuFw_comp (n : Nat) (f : OpuFw → OpuFw) : (d.onOpuFw n f).comp = d.comp := rfl
@[simp] theorem onOpuFw_aon (n : Nat) (f : OpuFw → OpuFw) : (d.onOpuFw n f).aon = d.aon := rfl
@[simp] theorem onOpuFw_tap (n : Nat) (f : OpuFw → OpuFw) : (d.onOpuFw n f).tap = d.tap := rfl
@[simp] theorem onOpuFw_rd (n : Nat) (f : OpuFw → OpuFw) (q : Reg) (k l : Nat) : (d.onOpuFw n f).rd q k l = d.rd q k l := rfl
@[simp] theorem onOpuFw_fg (n : Nat) (f : OpuFw → OpuFw) (q : Fld) (k l : Nat) : (d.onOpuFw n f).fg q k l = d.fg q k l := rfl
@[simp] theorem onOpuFw_is (n : Nat) (f : OpuFw → OpuFw) (q : Fld) (k l : Nat) : (d.onOpuFw n f).is q k l = d.is q k l := rfl

/-! `onStream` writes `fw` only. -/
@[simp] theorem onStream_regs (n : Nat) (f : Stream → Stream) : (d.onStream n f).regs = d.regs := rfl
@[simp] theorem onStream_free (n : Nat) (f : Stream → Stream) : (d.onStream n f).free = d.free := rfl
@[simp] theorem onStream_qtime (n : Nat) (f : Stream → Stream) : (d.onStream n f).qtime = d.qtime := rfl
@[simp] theorem onStream_shadow (n : Nat) (f : Stream → Stream) : (d.onStream n f).shadow = d.shadow := rfl
@[simp] theorem onStream_bonded (n : Nat) (f : Stream → Stream) : (d.onStream n f).bonded = d.bonded := rfl
@[simp] theorem onStream_opuStage (n : Nat) (f : Stream → Stream) : (d.onStream n f).opuStage = d.opuStage := rfl
@[simp] theorem onStream_dram (n : Nat) (f : Stream → Stream) : (d.onStream n f).dram = d.dram := rfl
@[simp] theorem onStream_dramChk (n : Nat) (f : Stream → Stream) : (d.onStream n f).dramChk = d.dramChk := rfl
@[simp] theorem onStream_hostMem (n : Nat) (f : Stream → Stream) : (d.onStream n f).hostMem = d.hostMem := rfl
@[simp] theorem onStream_slices (n : Nat) (f : Stream → Stream) : (d.onStream n f).slices = d.slices := rfl
@[simp] theorem onStream_pickups (n : Nat) (f : Stream → Stream) : (d.onStream n f).pickups = d.pickups := rfl
@[simp] theorem onStream_sde (n : Nat) (f : Stream → Stream) : (d.onStream n f).sde = d.sde := rfl
@[simp] theorem onStream_ladder (n : Nat) (f : Stream → Stream) : (d.onStream n f).ladder = d.ladder := rfl
@[simp] theorem onStream_journal (n : Nat) (f : Stream → Stream) : (d.onStream n f).journal = d.journal := rfl
@[simp] theorem onStream_answer (n : Nat) (f : Stream → Stream) : (d.onStream n f).answer = d.answer := rfl
@[simp] theorem onStream_spn (n : Nat) (f : Stream → Stream) : (d.onStream n f).spn = d.spn := rfl
@[simp] theorem onStream_sleds (n : Nat) (f : Stream → Stream) : (d.onStream n f).sleds = d.sleds := rfl
@[simp] theorem onStream_clamp (n : Nat) (f : Stream → Stream) : (d.onStream n f).clamp = d.clamp := rfl
@[simp] theorem onStream_eng (n : Nat) (f : Stream → Stream) : (d.onStream n f).eng = d.eng := rfl
@[simp] theorem onStream_servos (n : Nat) (f : Stream → Stream) : (d.onStream n f).servos = d.servos := rfl
@[simp] theorem onStream_sumRef (n : Nat) (f : Stream → Stream) : (d.onStream n f).sumRef = d.sumRef := rfl
@[simp] theorem onStream_cal (n : Nat) (f : Stream → Stream) : (d.onStream n f).cal = d.cal := rfl
@[simp] theorem onStream_wsgs (n : Nat) (f : Stream → Stream) : (d.onStream n f).wsgs = d.wsgs := rfl
@[simp] theorem onStream_stalled (n : Nat) (f : Stream → Stream) : (d.onStream n f).stalled = d.stalled := rfl
@[simp] theorem onStream_drc (n : Nat) (f : Stream → Stream) : (d.onStream n f).drc = d.drc := rfl
@[simp] theorem onStream_fbc (n : Nat) (f : Stream → Stream) : (d.onStream n f).fbc = d.fbc := rfl
@[simp] theorem onStream_error (n : Nat) (f : Stream → Stream) : (d.onStream n f).error = d.error := rfl
@[simp] theorem onStream_link (n : Nat) (f : Stream → Stream) : (d.onStream n f).link = d.link := rfl
@[simp] theorem onStream_host (n : Nat) (f : Stream → Stream) : (d.onStream n f).host = d.host := rfl
@[simp] theorem onStream_comp (n : Nat) (f : Stream → Stream) : (d.onStream n f).comp = d.comp := rfl
@[simp] theorem onStream_aon (n : Nat) (f : Stream → Stream) : (d.onStream n f).aon = d.aon := rfl
@[simp] theorem onStream_tap (n : Nat) (f : Stream → Stream) : (d.onStream n f).tap = d.tap := rfl
@[simp] theorem onStream_rd (n : Nat) (f : Stream → Stream) (q : Reg) (k l : Nat) : (d.onStream n f).rd q k l = d.rd q k l := rfl
@[simp] theorem onStream_fg (n : Nat) (f : Stream → Stream) (q : Fld) (k l : Nat) : (d.onStream n f).fg q k l = d.fg q k l := rfl
@[simp] theorem onStream_is (n : Nat) (f : Stream → Stream) (q : Fld) (k l : Nat) : (d.onStream n f).is q k l = d.is q k l := rfl

/-! `onCmd` writes `fw` only. -/
@[simp] theorem onCmd_regs (n : Nat) (f : Cmd → Cmd) : (d.onCmd n f).regs = d.regs := rfl
@[simp] theorem onCmd_free (n : Nat) (f : Cmd → Cmd) : (d.onCmd n f).free = d.free := rfl
@[simp] theorem onCmd_qtime (n : Nat) (f : Cmd → Cmd) : (d.onCmd n f).qtime = d.qtime := rfl
@[simp] theorem onCmd_shadow (n : Nat) (f : Cmd → Cmd) : (d.onCmd n f).shadow = d.shadow := rfl
@[simp] theorem onCmd_bonded (n : Nat) (f : Cmd → Cmd) : (d.onCmd n f).bonded = d.bonded := rfl
@[simp] theorem onCmd_opuStage (n : Nat) (f : Cmd → Cmd) : (d.onCmd n f).opuStage = d.opuStage := rfl
@[simp] theorem onCmd_dram (n : Nat) (f : Cmd → Cmd) : (d.onCmd n f).dram = d.dram := rfl
@[simp] theorem onCmd_dramChk (n : Nat) (f : Cmd → Cmd) : (d.onCmd n f).dramChk = d.dramChk := rfl
@[simp] theorem onCmd_hostMem (n : Nat) (f : Cmd → Cmd) : (d.onCmd n f).hostMem = d.hostMem := rfl
@[simp] theorem onCmd_slices (n : Nat) (f : Cmd → Cmd) : (d.onCmd n f).slices = d.slices := rfl
@[simp] theorem onCmd_pickups (n : Nat) (f : Cmd → Cmd) : (d.onCmd n f).pickups = d.pickups := rfl
@[simp] theorem onCmd_sde (n : Nat) (f : Cmd → Cmd) : (d.onCmd n f).sde = d.sde := rfl
@[simp] theorem onCmd_ladder (n : Nat) (f : Cmd → Cmd) : (d.onCmd n f).ladder = d.ladder := rfl
@[simp] theorem onCmd_journal (n : Nat) (f : Cmd → Cmd) : (d.onCmd n f).journal = d.journal := rfl
@[simp] theorem onCmd_answer (n : Nat) (f : Cmd → Cmd) : (d.onCmd n f).answer = d.answer := rfl
@[simp] theorem onCmd_spn (n : Nat) (f : Cmd → Cmd) : (d.onCmd n f).spn = d.spn := rfl
@[simp] theorem onCmd_sleds (n : Nat) (f : Cmd → Cmd) : (d.onCmd n f).sleds = d.sleds := rfl
@[simp] theorem onCmd_clamp (n : Nat) (f : Cmd → Cmd) : (d.onCmd n f).clamp = d.clamp := rfl
@[simp] theorem onCmd_eng (n : Nat) (f : Cmd → Cmd) : (d.onCmd n f).eng = d.eng := rfl
@[simp] theorem onCmd_servos (n : Nat) (f : Cmd → Cmd) : (d.onCmd n f).servos = d.servos := rfl
@[simp] theorem onCmd_sumRef (n : Nat) (f : Cmd → Cmd) : (d.onCmd n f).sumRef = d.sumRef := rfl
@[simp] theorem onCmd_cal (n : Nat) (f : Cmd → Cmd) : (d.onCmd n f).cal = d.cal := rfl
@[simp] theorem onCmd_wsgs (n : Nat) (f : Cmd → Cmd) : (d.onCmd n f).wsgs = d.wsgs := rfl
@[simp] theorem onCmd_stalled (n : Nat) (f : Cmd → Cmd) : (d.onCmd n f).stalled = d.stalled := rfl
@[simp] theorem onCmd_drc (n : Nat) (f : Cmd → Cmd) : (d.onCmd n f).drc = d.drc := rfl
@[simp] theorem onCmd_fbc (n : Nat) (f : Cmd → Cmd) : (d.onCmd n f).fbc = d.fbc := rfl
@[simp] theorem onCmd_error (n : Nat) (f : Cmd → Cmd) : (d.onCmd n f).error = d.error := rfl
@[simp] theorem onCmd_link (n : Nat) (f : Cmd → Cmd) : (d.onCmd n f).link = d.link := rfl
@[simp] theorem onCmd_host (n : Nat) (f : Cmd → Cmd) : (d.onCmd n f).host = d.host := rfl
@[simp] theorem onCmd_comp (n : Nat) (f : Cmd → Cmd) : (d.onCmd n f).comp = d.comp := rfl
@[simp] theorem onCmd_aon (n : Nat) (f : Cmd → Cmd) : (d.onCmd n f).aon = d.aon := rfl
@[simp] theorem onCmd_tap (n : Nat) (f : Cmd → Cmd) : (d.onCmd n f).tap = d.tap := rfl
@[simp] theorem onCmd_rd (n : Nat) (f : Cmd → Cmd) (q : Reg) (k l : Nat) : (d.onCmd n f).rd q k l = d.rd q k l := rfl
@[simp] theorem onCmd_fg (n : Nat) (f : Cmd → Cmd) (q : Fld) (k l : Nat) : (d.onCmd n f).fg q k l = d.fg q k l := rfl
@[simp] theorem onCmd_is (n : Nat) (f : Cmd → Cmd) (q : Fld) (k l : Nat) : (d.onCmd n f).is q k l = d.is q k l := rfl

/-! `onVersion` writes `fw` only. -/
@[simp] theorem onVersion_regs (n : Nat) (f : Version → Version) : (d.onVersion n f).regs = d.regs := rfl
@[simp] theorem onVersion_free (n : Nat) (f : Version → Version) : (d.onVersion n f).free = d.free := rfl
@[simp] theorem onVersion_qtime (n : Nat) (f : Version → Version) : (d.onVersion n f).qtime = d.qtime := rfl
@[simp] theorem onVersion_shadow (n : Nat) (f : Version → Version) : (d.onVersion n f).shadow = d.shadow := rfl
@[simp] theorem onVersion_bonded (n : Nat) (f : Version → Version) : (d.onVersion n f).bonded = d.bonded := rfl
@[simp] theorem onVersion_opuStage (n : Nat) (f : Version → Version) : (d.onVersion n f).opuStage = d.opuStage := rfl
@[simp] theorem onVersion_dram (n : Nat) (f : Version → Version) : (d.onVersion n f).dram = d.dram := rfl
@[simp] theorem onVersion_dramChk (n : Nat) (f : Version → Version) : (d.onVersion n f).dramChk = d.dramChk := rfl
@[simp] theorem onVersion_hostMem (n : Nat) (f : Version → Version) : (d.onVersion n f).hostMem = d.hostMem := rfl
@[simp] theorem onVersion_slices (n : Nat) (f : Version → Version) : (d.onVersion n f).slices = d.slices := rfl
@[simp] theorem onVersion_pickups (n : Nat) (f : Version → Version) : (d.onVersion n f).pickups = d.pickups := rfl
@[simp] theorem onVersion_sde (n : Nat) (f : Version → Version) : (d.onVersion n f).sde = d.sde := rfl
@[simp] theorem onVersion_ladder (n : Nat) (f : Version → Version) : (d.onVersion n f).ladder = d.ladder := rfl
@[simp] theorem onVersion_journal (n : Nat) (f : Version → Version) : (d.onVersion n f).journal = d.journal := rfl
@[simp] theorem onVersion_answer (n : Nat) (f : Version → Version) : (d.onVersion n f).answer = d.answer := rfl
@[simp] theorem onVersion_spn (n : Nat) (f : Version → Version) : (d.onVersion n f).spn = d.spn := rfl
@[simp] theorem onVersion_sleds (n : Nat) (f : Version → Version) : (d.onVersion n f).sleds = d.sleds := rfl
@[simp] theorem onVersion_clamp (n : Nat) (f : Version → Version) : (d.onVersion n f).clamp = d.clamp := rfl
@[simp] theorem onVersion_eng (n : Nat) (f : Version → Version) : (d.onVersion n f).eng = d.eng := rfl
@[simp] theorem onVersion_servos (n : Nat) (f : Version → Version) : (d.onVersion n f).servos = d.servos := rfl
@[simp] theorem onVersion_sumRef (n : Nat) (f : Version → Version) : (d.onVersion n f).sumRef = d.sumRef := rfl
@[simp] theorem onVersion_cal (n : Nat) (f : Version → Version) : (d.onVersion n f).cal = d.cal := rfl
@[simp] theorem onVersion_wsgs (n : Nat) (f : Version → Version) : (d.onVersion n f).wsgs = d.wsgs := rfl
@[simp] theorem onVersion_stalled (n : Nat) (f : Version → Version) : (d.onVersion n f).stalled = d.stalled := rfl
@[simp] theorem onVersion_drc (n : Nat) (f : Version → Version) : (d.onVersion n f).drc = d.drc := rfl
@[simp] theorem onVersion_fbc (n : Nat) (f : Version → Version) : (d.onVersion n f).fbc = d.fbc := rfl
@[simp] theorem onVersion_error (n : Nat) (f : Version → Version) : (d.onVersion n f).error = d.error := rfl
@[simp] theorem onVersion_link (n : Nat) (f : Version → Version) : (d.onVersion n f).link = d.link := rfl
@[simp] theorem onVersion_host (n : Nat) (f : Version → Version) : (d.onVersion n f).host = d.host := rfl
@[simp] theorem onVersion_comp (n : Nat) (f : Version → Version) : (d.onVersion n f).comp = d.comp := rfl
@[simp] theorem onVersion_aon (n : Nat) (f : Version → Version) : (d.onVersion n f).aon = d.aon := rfl
@[simp] theorem onVersion_tap (n : Nat) (f : Version → Version) : (d.onVersion n f).tap = d.tap := rfl
@[simp] theorem onVersion_rd (n : Nat) (f : Version → Version) (q : Reg) (k l : Nat) : (d.onVersion n f).rd q k l = d.rd q k l := rfl
@[simp] theorem onVersion_fg (n : Nat) (f : Version → Version) (q : Fld) (k l : Nat) : (d.onVersion n f).fg q k l = d.fg q k l := rfl
@[simp] theorem onVersion_is (n : Nat) (f : Version → Version) (q : Fld) (k l : Nat) : (d.onVersion n f).is q k l = d.is q k l := rfl

/-! `endCmd` writes `fw` only. -/
@[simp] theorem endCmd_regs (n cls detail a b : Nat) : (d.endCmd n cls detail a b).regs = d.regs := rfl
@[simp] theorem endCmd_free (n cls detail a b : Nat) : (d.endCmd n cls detail a b).free = d.free := rfl
@[simp] theorem endCmd_qtime (n cls detail a b : Nat) : (d.endCmd n cls detail a b).qtime = d.qtime := rfl
@[simp] theorem endCmd_shadow (n cls detail a b : Nat) : (d.endCmd n cls detail a b).shadow = d.shadow := rfl
@[simp] theorem endCmd_bonded (n cls detail a b : Nat) : (d.endCmd n cls detail a b).bonded = d.bonded := rfl
@[simp] theorem endCmd_opuStage (n cls detail a b : Nat) : (d.endCmd n cls detail a b).opuStage = d.opuStage := rfl
@[simp] theorem endCmd_dram (n cls detail a b : Nat) : (d.endCmd n cls detail a b).dram = d.dram := rfl
@[simp] theorem endCmd_dramChk (n cls detail a b : Nat) : (d.endCmd n cls detail a b).dramChk = d.dramChk := rfl
@[simp] theorem endCmd_hostMem (n cls detail a b : Nat) : (d.endCmd n cls detail a b).hostMem = d.hostMem := rfl
@[simp] theorem endCmd_slices (n cls detail a b : Nat) : (d.endCmd n cls detail a b).slices = d.slices := rfl
@[simp] theorem endCmd_pickups (n cls detail a b : Nat) : (d.endCmd n cls detail a b).pickups = d.pickups := rfl
@[simp] theorem endCmd_sde (n cls detail a b : Nat) : (d.endCmd n cls detail a b).sde = d.sde := rfl
@[simp] theorem endCmd_ladder (n cls detail a b : Nat) : (d.endCmd n cls detail a b).ladder = d.ladder := rfl
@[simp] theorem endCmd_journal (n cls detail a b : Nat) : (d.endCmd n cls detail a b).journal = d.journal := rfl
@[simp] theorem endCmd_answer (n cls detail a b : Nat) : (d.endCmd n cls detail a b).answer = d.answer := rfl
@[simp] theorem endCmd_spn (n cls detail a b : Nat) : (d.endCmd n cls detail a b).spn = d.spn := rfl
@[simp] theorem endCmd_sleds (n cls detail a b : Nat) : (d.endCmd n cls detail a b).sleds = d.sleds := rfl
@[simp] theorem endCmd_clamp (n cls detail a b : Nat) : (d.endCmd n cls detail a b).clamp = d.clamp := rfl
@[simp] theorem endCmd_eng (n cls detail a b : Nat) : (d.endCmd n cls detail a b).eng = d.eng := rfl
@[simp] theorem endCmd_servos (n cls detail a b : Nat) : (d.endCmd n cls detail a b).servos = d.servos := rfl
@[simp] theorem endCmd_sumRef (n cls detail a b : Nat) : (d.endCmd n cls detail a b).sumRef = d.sumRef := rfl
@[simp] theorem endCmd_cal (n cls detail a b : Nat) : (d.endCmd n cls detail a b).cal = d.cal := rfl
@[simp] theorem endCmd_wsgs (n cls detail a b : Nat) : (d.endCmd n cls detail a b).wsgs = d.wsgs := rfl
@[simp] theorem endCmd_stalled (n cls detail a b : Nat) : (d.endCmd n cls detail a b).stalled = d.stalled := rfl
@[simp] theorem endCmd_drc (n cls detail a b : Nat) : (d.endCmd n cls detail a b).drc = d.drc := rfl
@[simp] theorem endCmd_fbc (n cls detail a b : Nat) : (d.endCmd n cls detail a b).fbc = d.fbc := rfl
@[simp] theorem endCmd_error (n cls detail a b : Nat) : (d.endCmd n cls detail a b).error = d.error := rfl
@[simp] theorem endCmd_link (n cls detail a b : Nat) : (d.endCmd n cls detail a b).link = d.link := rfl
@[simp] theorem endCmd_host (n cls detail a b : Nat) : (d.endCmd n cls detail a b).host = d.host := rfl
@[simp] theorem endCmd_comp (n cls detail a b : Nat) : (d.endCmd n cls detail a b).comp = d.comp := rfl
@[simp] theorem endCmd_aon (n cls detail a b : Nat) : (d.endCmd n cls detail a b).aon = d.aon := rfl
@[simp] theorem endCmd_tap (n cls detail a b : Nat) : (d.endCmd n cls detail a b).tap = d.tap := rfl
@[simp] theorem endCmd_rd (n cls detail a b : Nat) (q : Reg) (k l : Nat) : (d.endCmd n cls detail a b).rd q k l = d.rd q k l := rfl
@[simp] theorem endCmd_fg (n cls detail a b : Nat) (q : Fld) (k l : Nat) : (d.endCmd n cls detail a b).fg q k l = d.fg q k l := rfl
@[simp] theorem endCmd_is (n cls detail a b : Nat) (q : Fld) (k l : Nat) : (d.endCmd n cls detail a b).is q k l = d.is q k l := rfl

/-! `onSpn` writes `spn` only. -/
@[simp] theorem onSpn_regs (f : Spindle → Spindle) : (d.onSpn f).regs = d.regs := rfl
@[simp] theorem onSpn_free (f : Spindle → Spindle) : (d.onSpn f).free = d.free := rfl
@[simp] theorem onSpn_qtime (f : Spindle → Spindle) : (d.onSpn f).qtime = d.qtime := rfl
@[simp] theorem onSpn_shadow (f : Spindle → Spindle) : (d.onSpn f).shadow = d.shadow := rfl
@[simp] theorem onSpn_bonded (f : Spindle → Spindle) : (d.onSpn f).bonded = d.bonded := rfl
@[simp] theorem onSpn_opuStage (f : Spindle → Spindle) : (d.onSpn f).opuStage = d.opuStage := rfl
@[simp] theorem onSpn_dram (f : Spindle → Spindle) : (d.onSpn f).dram = d.dram := rfl
@[simp] theorem onSpn_dramChk (f : Spindle → Spindle) : (d.onSpn f).dramChk = d.dramChk := rfl
@[simp] theorem onSpn_hostMem (f : Spindle → Spindle) : (d.onSpn f).hostMem = d.hostMem := rfl
@[simp] theorem onSpn_slices (f : Spindle → Spindle) : (d.onSpn f).slices = d.slices := rfl
@[simp] theorem onSpn_pickups (f : Spindle → Spindle) : (d.onSpn f).pickups = d.pickups := rfl
@[simp] theorem onSpn_sde (f : Spindle → Spindle) : (d.onSpn f).sde = d.sde := rfl
@[simp] theorem onSpn_ladder (f : Spindle → Spindle) : (d.onSpn f).ladder = d.ladder := rfl
@[simp] theorem onSpn_journal (f : Spindle → Spindle) : (d.onSpn f).journal = d.journal := rfl
@[simp] theorem onSpn_answer (f : Spindle → Spindle) : (d.onSpn f).answer = d.answer := rfl
@[simp] theorem onSpn_fw (f : Spindle → Spindle) : (d.onSpn f).fw = d.fw := rfl
@[simp] theorem onSpn_sleds (f : Spindle → Spindle) : (d.onSpn f).sleds = d.sleds := rfl
@[simp] theorem onSpn_clamp (f : Spindle → Spindle) : (d.onSpn f).clamp = d.clamp := rfl
@[simp] theorem onSpn_eng (f : Spindle → Spindle) : (d.onSpn f).eng = d.eng := rfl
@[simp] theorem onSpn_servos (f : Spindle → Spindle) : (d.onSpn f).servos = d.servos := rfl
@[simp] theorem onSpn_sumRef (f : Spindle → Spindle) : (d.onSpn f).sumRef = d.sumRef := rfl
@[simp] theorem onSpn_cal (f : Spindle → Spindle) : (d.onSpn f).cal = d.cal := rfl
@[simp] theorem onSpn_wsgs (f : Spindle → Spindle) : (d.onSpn f).wsgs = d.wsgs := rfl
@[simp] theorem onSpn_stalled (f : Spindle → Spindle) : (d.onSpn f).stalled = d.stalled := rfl
@[simp] theorem onSpn_drc (f : Spindle → Spindle) : (d.onSpn f).drc = d.drc := rfl
@[simp] theorem onSpn_fbc (f : Spindle → Spindle) : (d.onSpn f).fbc = d.fbc := rfl
@[simp] theorem onSpn_error (f : Spindle → Spindle) : (d.onSpn f).error = d.error := rfl
@[simp] theorem onSpn_link (f : Spindle → Spindle) : (d.onSpn f).link = d.link := rfl
@[simp] theorem onSpn_host (f : Spindle → Spindle) : (d.onSpn f).host = d.host := rfl
@[simp] theorem onSpn_comp (f : Spindle → Spindle) : (d.onSpn f).comp = d.comp := rfl
@[simp] theorem onSpn_aon (f : Spindle → Spindle) : (d.onSpn f).aon = d.aon := rfl
@[simp] theorem onSpn_tap (f : Spindle → Spindle) : (d.onSpn f).tap = d.tap := rfl
@[simp] theorem onSpn_spn (f : Spindle → Spindle) : (d.onSpn f).spn = f d.spn := rfl
@[simp] theorem onSpn_rd (f : Spindle → Spindle) (q : Reg) (k l : Nat) : (d.onSpn f).rd q k l = d.rd q k l := rfl
@[simp] theorem onSpn_fg (f : Spindle → Spindle) (q : Fld) (k l : Nat) : (d.onSpn f).fg q k l = d.fg q k l := rfl
@[simp] theorem onSpn_is (f : Spindle → Spindle) (q : Fld) (k l : Nat) : (d.onSpn f).is q k l = d.is q k l := rfl

/-! `onClamp` writes `clamp` only. -/
@[simp] theorem onClamp_regs (f : Clamp → Clamp) : (d.onClamp f).regs = d.regs := rfl
@[simp] theorem onClamp_free (f : Clamp → Clamp) : (d.onClamp f).free = d.free := rfl
@[simp] theorem onClamp_qtime (f : Clamp → Clamp) : (d.onClamp f).qtime = d.qtime := rfl
@[simp] theorem onClamp_shadow (f : Clamp → Clamp) : (d.onClamp f).shadow = d.shadow := rfl
@[simp] theorem onClamp_bonded (f : Clamp → Clamp) : (d.onClamp f).bonded = d.bonded := rfl
@[simp] theorem onClamp_opuStage (f : Clamp → Clamp) : (d.onClamp f).opuStage = d.opuStage := rfl
@[simp] theorem onClamp_dram (f : Clamp → Clamp) : (d.onClamp f).dram = d.dram := rfl
@[simp] theorem onClamp_dramChk (f : Clamp → Clamp) : (d.onClamp f).dramChk = d.dramChk := rfl
@[simp] theorem onClamp_hostMem (f : Clamp → Clamp) : (d.onClamp f).hostMem = d.hostMem := rfl
@[simp] theorem onClamp_slices (f : Clamp → Clamp) : (d.onClamp f).slices = d.slices := rfl
@[simp] theorem onClamp_pickups (f : Clamp → Clamp) : (d.onClamp f).pickups = d.pickups := rfl
@[simp] theorem onClamp_sde (f : Clamp → Clamp) : (d.onClamp f).sde = d.sde := rfl
@[simp] theorem onClamp_ladder (f : Clamp → Clamp) : (d.onClamp f).ladder = d.ladder := rfl
@[simp] theorem onClamp_journal (f : Clamp → Clamp) : (d.onClamp f).journal = d.journal := rfl
@[simp] theorem onClamp_answer (f : Clamp → Clamp) : (d.onClamp f).answer = d.answer := rfl
@[simp] theorem onClamp_fw (f : Clamp → Clamp) : (d.onClamp f).fw = d.fw := rfl
@[simp] theorem onClamp_spn (f : Clamp → Clamp) : (d.onClamp f).spn = d.spn := rfl
@[simp] theorem onClamp_sleds (f : Clamp → Clamp) : (d.onClamp f).sleds = d.sleds := rfl
@[simp] theorem onClamp_eng (f : Clamp → Clamp) : (d.onClamp f).eng = d.eng := rfl
@[simp] theorem onClamp_servos (f : Clamp → Clamp) : (d.onClamp f).servos = d.servos := rfl
@[simp] theorem onClamp_sumRef (f : Clamp → Clamp) : (d.onClamp f).sumRef = d.sumRef := rfl
@[simp] theorem onClamp_cal (f : Clamp → Clamp) : (d.onClamp f).cal = d.cal := rfl
@[simp] theorem onClamp_wsgs (f : Clamp → Clamp) : (d.onClamp f).wsgs = d.wsgs := rfl
@[simp] theorem onClamp_stalled (f : Clamp → Clamp) : (d.onClamp f).stalled = d.stalled := rfl
@[simp] theorem onClamp_drc (f : Clamp → Clamp) : (d.onClamp f).drc = d.drc := rfl
@[simp] theorem onClamp_fbc (f : Clamp → Clamp) : (d.onClamp f).fbc = d.fbc := rfl
@[simp] theorem onClamp_error (f : Clamp → Clamp) : (d.onClamp f).error = d.error := rfl
@[simp] theorem onClamp_link (f : Clamp → Clamp) : (d.onClamp f).link = d.link := rfl
@[simp] theorem onClamp_host (f : Clamp → Clamp) : (d.onClamp f).host = d.host := rfl
@[simp] theorem onClamp_comp (f : Clamp → Clamp) : (d.onClamp f).comp = d.comp := rfl
@[simp] theorem onClamp_aon (f : Clamp → Clamp) : (d.onClamp f).aon = d.aon := rfl
@[simp] theorem onClamp_tap (f : Clamp → Clamp) : (d.onClamp f).tap = d.tap := rfl
@[simp] theorem onClamp_clamp (f : Clamp → Clamp) : (d.onClamp f).clamp = f d.clamp := rfl
@[simp] theorem onClamp_rd (f : Clamp → Clamp) (q : Reg) (k l : Nat) : (d.onClamp f).rd q k l = d.rd q k l := rfl
@[simp] theorem onClamp_fg (f : Clamp → Clamp) (q : Fld) (k l : Nat) : (d.onClamp f).fg q k l = d.fg q k l := rfl
@[simp] theorem onClamp_is (f : Clamp → Clamp) (q : Fld) (k l : Nat) : (d.onClamp f).is q k l = d.is q k l := rfl

/-! `onEng` writes `eng` only. -/
@[simp] theorem onEng_regs (f : Engine → Engine) : (d.onEng f).regs = d.regs := rfl
@[simp] theorem onEng_free (f : Engine → Engine) : (d.onEng f).free = d.free := rfl
@[simp] theorem onEng_qtime (f : Engine → Engine) : (d.onEng f).qtime = d.qtime := rfl
@[simp] theorem onEng_shadow (f : Engine → Engine) : (d.onEng f).shadow = d.shadow := rfl
@[simp] theorem onEng_bonded (f : Engine → Engine) : (d.onEng f).bonded = d.bonded := rfl
@[simp] theorem onEng_opuStage (f : Engine → Engine) : (d.onEng f).opuStage = d.opuStage := rfl
@[simp] theorem onEng_dram (f : Engine → Engine) : (d.onEng f).dram = d.dram := rfl
@[simp] theorem onEng_dramChk (f : Engine → Engine) : (d.onEng f).dramChk = d.dramChk := rfl
@[simp] theorem onEng_hostMem (f : Engine → Engine) : (d.onEng f).hostMem = d.hostMem := rfl
@[simp] theorem onEng_slices (f : Engine → Engine) : (d.onEng f).slices = d.slices := rfl
@[simp] theorem onEng_pickups (f : Engine → Engine) : (d.onEng f).pickups = d.pickups := rfl
@[simp] theorem onEng_sde (f : Engine → Engine) : (d.onEng f).sde = d.sde := rfl
@[simp] theorem onEng_ladder (f : Engine → Engine) : (d.onEng f).ladder = d.ladder := rfl
@[simp] theorem onEng_journal (f : Engine → Engine) : (d.onEng f).journal = d.journal := rfl
@[simp] theorem onEng_answer (f : Engine → Engine) : (d.onEng f).answer = d.answer := rfl
@[simp] theorem onEng_fw (f : Engine → Engine) : (d.onEng f).fw = d.fw := rfl
@[simp] theorem onEng_spn (f : Engine → Engine) : (d.onEng f).spn = d.spn := rfl
@[simp] theorem onEng_sleds (f : Engine → Engine) : (d.onEng f).sleds = d.sleds := rfl
@[simp] theorem onEng_clamp (f : Engine → Engine) : (d.onEng f).clamp = d.clamp := rfl
@[simp] theorem onEng_servos (f : Engine → Engine) : (d.onEng f).servos = d.servos := rfl
@[simp] theorem onEng_sumRef (f : Engine → Engine) : (d.onEng f).sumRef = d.sumRef := rfl
@[simp] theorem onEng_cal (f : Engine → Engine) : (d.onEng f).cal = d.cal := rfl
@[simp] theorem onEng_wsgs (f : Engine → Engine) : (d.onEng f).wsgs = d.wsgs := rfl
@[simp] theorem onEng_stalled (f : Engine → Engine) : (d.onEng f).stalled = d.stalled := rfl
@[simp] theorem onEng_drc (f : Engine → Engine) : (d.onEng f).drc = d.drc := rfl
@[simp] theorem onEng_fbc (f : Engine → Engine) : (d.onEng f).fbc = d.fbc := rfl
@[simp] theorem onEng_error (f : Engine → Engine) : (d.onEng f).error = d.error := rfl
@[simp] theorem onEng_link (f : Engine → Engine) : (d.onEng f).link = d.link := rfl
@[simp] theorem onEng_host (f : Engine → Engine) : (d.onEng f).host = d.host := rfl
@[simp] theorem onEng_comp (f : Engine → Engine) : (d.onEng f).comp = d.comp := rfl
@[simp] theorem onEng_aon (f : Engine → Engine) : (d.onEng f).aon = d.aon := rfl
@[simp] theorem onEng_tap (f : Engine → Engine) : (d.onEng f).tap = d.tap := rfl
@[simp] theorem onEng_eng (f : Engine → Engine) : (d.onEng f).eng = f d.eng := rfl
@[simp] theorem onEng_rd (f : Engine → Engine) (q : Reg) (k l : Nat) : (d.onEng f).rd q k l = d.rd q k l := rfl
@[simp] theorem onEng_fg (f : Engine → Engine) (q : Fld) (k l : Nat) : (d.onEng f).fg q k l = d.fg q k l := rfl
@[simp] theorem onEng_is (f : Engine → Engine) (q : Fld) (k l : Nat) : (d.onEng f).is q k l = d.is q k l := rfl

/-! `onSlot` writes `eng` only. -/
@[simp] theorem onSlot_regs (n : Nat) (f : CleSlot → CleSlot) : (d.onSlot n f).regs = d.regs := rfl
@[simp] theorem onSlot_free (n : Nat) (f : CleSlot → CleSlot) : (d.onSlot n f).free = d.free := rfl
@[simp] theorem onSlot_qtime (n : Nat) (f : CleSlot → CleSlot) : (d.onSlot n f).qtime = d.qtime := rfl
@[simp] theorem onSlot_shadow (n : Nat) (f : CleSlot → CleSlot) : (d.onSlot n f).shadow = d.shadow := rfl
@[simp] theorem onSlot_bonded (n : Nat) (f : CleSlot → CleSlot) : (d.onSlot n f).bonded = d.bonded := rfl
@[simp] theorem onSlot_opuStage (n : Nat) (f : CleSlot → CleSlot) : (d.onSlot n f).opuStage = d.opuStage := rfl
@[simp] theorem onSlot_dram (n : Nat) (f : CleSlot → CleSlot) : (d.onSlot n f).dram = d.dram := rfl
@[simp] theorem onSlot_dramChk (n : Nat) (f : CleSlot → CleSlot) : (d.onSlot n f).dramChk = d.dramChk := rfl
@[simp] theorem onSlot_hostMem (n : Nat) (f : CleSlot → CleSlot) : (d.onSlot n f).hostMem = d.hostMem := rfl
@[simp] theorem onSlot_slices (n : Nat) (f : CleSlot → CleSlot) : (d.onSlot n f).slices = d.slices := rfl
@[simp] theorem onSlot_pickups (n : Nat) (f : CleSlot → CleSlot) : (d.onSlot n f).pickups = d.pickups := rfl
@[simp] theorem onSlot_sde (n : Nat) (f : CleSlot → CleSlot) : (d.onSlot n f).sde = d.sde := rfl
@[simp] theorem onSlot_ladder (n : Nat) (f : CleSlot → CleSlot) : (d.onSlot n f).ladder = d.ladder := rfl
@[simp] theorem onSlot_journal (n : Nat) (f : CleSlot → CleSlot) : (d.onSlot n f).journal = d.journal := rfl
@[simp] theorem onSlot_answer (n : Nat) (f : CleSlot → CleSlot) : (d.onSlot n f).answer = d.answer := rfl
@[simp] theorem onSlot_fw (n : Nat) (f : CleSlot → CleSlot) : (d.onSlot n f).fw = d.fw := rfl
@[simp] theorem onSlot_spn (n : Nat) (f : CleSlot → CleSlot) : (d.onSlot n f).spn = d.spn := rfl
@[simp] theorem onSlot_sleds (n : Nat) (f : CleSlot → CleSlot) : (d.onSlot n f).sleds = d.sleds := rfl
@[simp] theorem onSlot_clamp (n : Nat) (f : CleSlot → CleSlot) : (d.onSlot n f).clamp = d.clamp := rfl
@[simp] theorem onSlot_servos (n : Nat) (f : CleSlot → CleSlot) : (d.onSlot n f).servos = d.servos := rfl
@[simp] theorem onSlot_sumRef (n : Nat) (f : CleSlot → CleSlot) : (d.onSlot n f).sumRef = d.sumRef := rfl
@[simp] theorem onSlot_cal (n : Nat) (f : CleSlot → CleSlot) : (d.onSlot n f).cal = d.cal := rfl
@[simp] theorem onSlot_wsgs (n : Nat) (f : CleSlot → CleSlot) : (d.onSlot n f).wsgs = d.wsgs := rfl
@[simp] theorem onSlot_stalled (n : Nat) (f : CleSlot → CleSlot) : (d.onSlot n f).stalled = d.stalled := rfl
@[simp] theorem onSlot_drc (n : Nat) (f : CleSlot → CleSlot) : (d.onSlot n f).drc = d.drc := rfl
@[simp] theorem onSlot_fbc (n : Nat) (f : CleSlot → CleSlot) : (d.onSlot n f).fbc = d.fbc := rfl
@[simp] theorem onSlot_error (n : Nat) (f : CleSlot → CleSlot) : (d.onSlot n f).error = d.error := rfl
@[simp] theorem onSlot_link (n : Nat) (f : CleSlot → CleSlot) : (d.onSlot n f).link = d.link := rfl
@[simp] theorem onSlot_host (n : Nat) (f : CleSlot → CleSlot) : (d.onSlot n f).host = d.host := rfl
@[simp] theorem onSlot_comp (n : Nat) (f : CleSlot → CleSlot) : (d.onSlot n f).comp = d.comp := rfl
@[simp] theorem onSlot_aon (n : Nat) (f : CleSlot → CleSlot) : (d.onSlot n f).aon = d.aon := rfl
@[simp] theorem onSlot_tap (n : Nat) (f : CleSlot → CleSlot) : (d.onSlot n f).tap = d.tap := rfl
@[simp] theorem onSlot_rd (n : Nat) (f : CleSlot → CleSlot) (q : Reg) (k l : Nat) : (d.onSlot n f).rd q k l = d.rd q k l := rfl
@[simp] theorem onSlot_fg (n : Nat) (f : CleSlot → CleSlot) (q : Fld) (k l : Nat) : (d.onSlot n f).fg q k l = d.fg q k l := rfl
@[simp] theorem onSlot_is (n : Nat) (f : CleSlot → CleSlot) (q : Fld) (k l : Nat) : (d.onSlot n f).is q k l = d.is q k l := rfl

/-! `setSample` writes `eng` only. -/
@[simp] theorem setSample_regs (x : CleSample) : (d.setSample x).regs = d.regs := rfl
@[simp] theorem setSample_free (x : CleSample) : (d.setSample x).free = d.free := rfl
@[simp] theorem setSample_qtime (x : CleSample) : (d.setSample x).qtime = d.qtime := rfl
@[simp] theorem setSample_shadow (x : CleSample) : (d.setSample x).shadow = d.shadow := rfl
@[simp] theorem setSample_bonded (x : CleSample) : (d.setSample x).bonded = d.bonded := rfl
@[simp] theorem setSample_opuStage (x : CleSample) : (d.setSample x).opuStage = d.opuStage := rfl
@[simp] theorem setSample_dram (x : CleSample) : (d.setSample x).dram = d.dram := rfl
@[simp] theorem setSample_dramChk (x : CleSample) : (d.setSample x).dramChk = d.dramChk := rfl
@[simp] theorem setSample_hostMem (x : CleSample) : (d.setSample x).hostMem = d.hostMem := rfl
@[simp] theorem setSample_slices (x : CleSample) : (d.setSample x).slices = d.slices := rfl
@[simp] theorem setSample_pickups (x : CleSample) : (d.setSample x).pickups = d.pickups := rfl
@[simp] theorem setSample_sde (x : CleSample) : (d.setSample x).sde = d.sde := rfl
@[simp] theorem setSample_ladder (x : CleSample) : (d.setSample x).ladder = d.ladder := rfl
@[simp] theorem setSample_journal (x : CleSample) : (d.setSample x).journal = d.journal := rfl
@[simp] theorem setSample_answer (x : CleSample) : (d.setSample x).answer = d.answer := rfl
@[simp] theorem setSample_fw (x : CleSample) : (d.setSample x).fw = d.fw := rfl
@[simp] theorem setSample_spn (x : CleSample) : (d.setSample x).spn = d.spn := rfl
@[simp] theorem setSample_sleds (x : CleSample) : (d.setSample x).sleds = d.sleds := rfl
@[simp] theorem setSample_clamp (x : CleSample) : (d.setSample x).clamp = d.clamp := rfl
@[simp] theorem setSample_servos (x : CleSample) : (d.setSample x).servos = d.servos := rfl
@[simp] theorem setSample_sumRef (x : CleSample) : (d.setSample x).sumRef = d.sumRef := rfl
@[simp] theorem setSample_cal (x : CleSample) : (d.setSample x).cal = d.cal := rfl
@[simp] theorem setSample_wsgs (x : CleSample) : (d.setSample x).wsgs = d.wsgs := rfl
@[simp] theorem setSample_stalled (x : CleSample) : (d.setSample x).stalled = d.stalled := rfl
@[simp] theorem setSample_drc (x : CleSample) : (d.setSample x).drc = d.drc := rfl
@[simp] theorem setSample_fbc (x : CleSample) : (d.setSample x).fbc = d.fbc := rfl
@[simp] theorem setSample_error (x : CleSample) : (d.setSample x).error = d.error := rfl
@[simp] theorem setSample_link (x : CleSample) : (d.setSample x).link = d.link := rfl
@[simp] theorem setSample_host (x : CleSample) : (d.setSample x).host = d.host := rfl
@[simp] theorem setSample_comp (x : CleSample) : (d.setSample x).comp = d.comp := rfl
@[simp] theorem setSample_aon (x : CleSample) : (d.setSample x).aon = d.aon := rfl
@[simp] theorem setSample_tap (x : CleSample) : (d.setSample x).tap = d.tap := rfl
@[simp] theorem setSample_rd (x : CleSample) (q : Reg) (k l : Nat) : (d.setSample x).rd q k l = d.rd q k l := rfl
@[simp] theorem setSample_fg (x : CleSample) (q : Fld) (k l : Nat) : (d.setSample x).fg q k l = d.fg q k l := rfl
@[simp] theorem setSample_is (x : CleSample) (q : Fld) (k l : Nat) : (d.setSample x).is q k l = d.is q k l := rfl

/-! `putDm` writes `eng` only. -/
@[simp] theorem putDm_regs (n : Nat) (w : Word) : (d.putDm n w).regs = d.regs := rfl
@[simp] theorem putDm_free (n : Nat) (w : Word) : (d.putDm n w).free = d.free := rfl
@[simp] theorem putDm_qtime (n : Nat) (w : Word) : (d.putDm n w).qtime = d.qtime := rfl
@[simp] theorem putDm_shadow (n : Nat) (w : Word) : (d.putDm n w).shadow = d.shadow := rfl
@[simp] theorem putDm_bonded (n : Nat) (w : Word) : (d.putDm n w).bonded = d.bonded := rfl
@[simp] theorem putDm_opuStage (n : Nat) (w : Word) : (d.putDm n w).opuStage = d.opuStage := rfl
@[simp] theorem putDm_dram (n : Nat) (w : Word) : (d.putDm n w).dram = d.dram := rfl
@[simp] theorem putDm_dramChk (n : Nat) (w : Word) : (d.putDm n w).dramChk = d.dramChk := rfl
@[simp] theorem putDm_hostMem (n : Nat) (w : Word) : (d.putDm n w).hostMem = d.hostMem := rfl
@[simp] theorem putDm_slices (n : Nat) (w : Word) : (d.putDm n w).slices = d.slices := rfl
@[simp] theorem putDm_pickups (n : Nat) (w : Word) : (d.putDm n w).pickups = d.pickups := rfl
@[simp] theorem putDm_sde (n : Nat) (w : Word) : (d.putDm n w).sde = d.sde := rfl
@[simp] theorem putDm_ladder (n : Nat) (w : Word) : (d.putDm n w).ladder = d.ladder := rfl
@[simp] theorem putDm_journal (n : Nat) (w : Word) : (d.putDm n w).journal = d.journal := rfl
@[simp] theorem putDm_answer (n : Nat) (w : Word) : (d.putDm n w).answer = d.answer := rfl
@[simp] theorem putDm_fw (n : Nat) (w : Word) : (d.putDm n w).fw = d.fw := rfl
@[simp] theorem putDm_spn (n : Nat) (w : Word) : (d.putDm n w).spn = d.spn := rfl
@[simp] theorem putDm_sleds (n : Nat) (w : Word) : (d.putDm n w).sleds = d.sleds := rfl
@[simp] theorem putDm_clamp (n : Nat) (w : Word) : (d.putDm n w).clamp = d.clamp := rfl
@[simp] theorem putDm_servos (n : Nat) (w : Word) : (d.putDm n w).servos = d.servos := rfl
@[simp] theorem putDm_sumRef (n : Nat) (w : Word) : (d.putDm n w).sumRef = d.sumRef := rfl
@[simp] theorem putDm_cal (n : Nat) (w : Word) : (d.putDm n w).cal = d.cal := rfl
@[simp] theorem putDm_wsgs (n : Nat) (w : Word) : (d.putDm n w).wsgs = d.wsgs := rfl
@[simp] theorem putDm_stalled (n : Nat) (w : Word) : (d.putDm n w).stalled = d.stalled := rfl
@[simp] theorem putDm_drc (n : Nat) (w : Word) : (d.putDm n w).drc = d.drc := rfl
@[simp] theorem putDm_fbc (n : Nat) (w : Word) : (d.putDm n w).fbc = d.fbc := rfl
@[simp] theorem putDm_error (n : Nat) (w : Word) : (d.putDm n w).error = d.error := rfl
@[simp] theorem putDm_link (n : Nat) (w : Word) : (d.putDm n w).link = d.link := rfl
@[simp] theorem putDm_host (n : Nat) (w : Word) : (d.putDm n w).host = d.host := rfl
@[simp] theorem putDm_comp (n : Nat) (w : Word) : (d.putDm n w).comp = d.comp := rfl
@[simp] theorem putDm_aon (n : Nat) (w : Word) : (d.putDm n w).aon = d.aon := rfl
@[simp] theorem putDm_tap (n : Nat) (w : Word) : (d.putDm n w).tap = d.tap := rfl
@[simp] theorem putDm_rd (n : Nat) (w : Word) (q : Reg) (k l : Nat) : (d.putDm n w).rd q k l = d.rd q k l := rfl
@[simp] theorem putDm_fg (n : Nat) (w : Word) (q : Fld) (k l : Nat) : (d.putDm n w).fg q k l = d.fg q k l := rfl
@[simp] theorem putDm_is (n : Nat) (w : Word) (q : Fld) (k l : Nat) : (d.putDm n w).is q k l = d.is q k l := rfl

/-! `putCs` writes `eng` only. -/
@[simp] theorem putCs_regs (n : Nat) (w : Word) : (d.putCs n w).regs = d.regs := rfl
@[simp] theorem putCs_free (n : Nat) (w : Word) : (d.putCs n w).free = d.free := rfl
@[simp] theorem putCs_qtime (n : Nat) (w : Word) : (d.putCs n w).qtime = d.qtime := rfl
@[simp] theorem putCs_shadow (n : Nat) (w : Word) : (d.putCs n w).shadow = d.shadow := rfl
@[simp] theorem putCs_bonded (n : Nat) (w : Word) : (d.putCs n w).bonded = d.bonded := rfl
@[simp] theorem putCs_opuStage (n : Nat) (w : Word) : (d.putCs n w).opuStage = d.opuStage := rfl
@[simp] theorem putCs_dram (n : Nat) (w : Word) : (d.putCs n w).dram = d.dram := rfl
@[simp] theorem putCs_dramChk (n : Nat) (w : Word) : (d.putCs n w).dramChk = d.dramChk := rfl
@[simp] theorem putCs_hostMem (n : Nat) (w : Word) : (d.putCs n w).hostMem = d.hostMem := rfl
@[simp] theorem putCs_slices (n : Nat) (w : Word) : (d.putCs n w).slices = d.slices := rfl
@[simp] theorem putCs_pickups (n : Nat) (w : Word) : (d.putCs n w).pickups = d.pickups := rfl
@[simp] theorem putCs_sde (n : Nat) (w : Word) : (d.putCs n w).sde = d.sde := rfl
@[simp] theorem putCs_ladder (n : Nat) (w : Word) : (d.putCs n w).ladder = d.ladder := rfl
@[simp] theorem putCs_journal (n : Nat) (w : Word) : (d.putCs n w).journal = d.journal := rfl
@[simp] theorem putCs_answer (n : Nat) (w : Word) : (d.putCs n w).answer = d.answer := rfl
@[simp] theorem putCs_fw (n : Nat) (w : Word) : (d.putCs n w).fw = d.fw := rfl
@[simp] theorem putCs_spn (n : Nat) (w : Word) : (d.putCs n w).spn = d.spn := rfl
@[simp] theorem putCs_sleds (n : Nat) (w : Word) : (d.putCs n w).sleds = d.sleds := rfl
@[simp] theorem putCs_clamp (n : Nat) (w : Word) : (d.putCs n w).clamp = d.clamp := rfl
@[simp] theorem putCs_servos (n : Nat) (w : Word) : (d.putCs n w).servos = d.servos := rfl
@[simp] theorem putCs_sumRef (n : Nat) (w : Word) : (d.putCs n w).sumRef = d.sumRef := rfl
@[simp] theorem putCs_cal (n : Nat) (w : Word) : (d.putCs n w).cal = d.cal := rfl
@[simp] theorem putCs_wsgs (n : Nat) (w : Word) : (d.putCs n w).wsgs = d.wsgs := rfl
@[simp] theorem putCs_stalled (n : Nat) (w : Word) : (d.putCs n w).stalled = d.stalled := rfl
@[simp] theorem putCs_drc (n : Nat) (w : Word) : (d.putCs n w).drc = d.drc := rfl
@[simp] theorem putCs_fbc (n : Nat) (w : Word) : (d.putCs n w).fbc = d.fbc := rfl
@[simp] theorem putCs_error (n : Nat) (w : Word) : (d.putCs n w).error = d.error := rfl
@[simp] theorem putCs_link (n : Nat) (w : Word) : (d.putCs n w).link = d.link := rfl
@[simp] theorem putCs_host (n : Nat) (w : Word) : (d.putCs n w).host = d.host := rfl
@[simp] theorem putCs_comp (n : Nat) (w : Word) : (d.putCs n w).comp = d.comp := rfl
@[simp] theorem putCs_aon (n : Nat) (w : Word) : (d.putCs n w).aon = d.aon := rfl
@[simp] theorem putCs_tap (n : Nat) (w : Word) : (d.putCs n w).tap = d.tap := rfl
@[simp] theorem putCs_rd (n : Nat) (w : Word) (q : Reg) (k l : Nat) : (d.putCs n w).rd q k l = d.rd q k l := rfl
@[simp] theorem putCs_fg (n : Nat) (w : Word) (q : Fld) (k l : Nat) : (d.putCs n w).fg q k l = d.fg q k l := rfl
@[simp] theorem putCs_is (n : Nat) (w : Word) (q : Fld) (k l : Nat) : (d.putCs n w).is q k l = d.is q k l := rfl

/-! `onCal` writes `cal` only. -/
@[simp] theorem onCal_regs (f : Calib → Calib) : (d.onCal f).regs = d.regs := rfl
@[simp] theorem onCal_free (f : Calib → Calib) : (d.onCal f).free = d.free := rfl
@[simp] theorem onCal_qtime (f : Calib → Calib) : (d.onCal f).qtime = d.qtime := rfl
@[simp] theorem onCal_shadow (f : Calib → Calib) : (d.onCal f).shadow = d.shadow := rfl
@[simp] theorem onCal_bonded (f : Calib → Calib) : (d.onCal f).bonded = d.bonded := rfl
@[simp] theorem onCal_opuStage (f : Calib → Calib) : (d.onCal f).opuStage = d.opuStage := rfl
@[simp] theorem onCal_dram (f : Calib → Calib) : (d.onCal f).dram = d.dram := rfl
@[simp] theorem onCal_dramChk (f : Calib → Calib) : (d.onCal f).dramChk = d.dramChk := rfl
@[simp] theorem onCal_hostMem (f : Calib → Calib) : (d.onCal f).hostMem = d.hostMem := rfl
@[simp] theorem onCal_slices (f : Calib → Calib) : (d.onCal f).slices = d.slices := rfl
@[simp] theorem onCal_pickups (f : Calib → Calib) : (d.onCal f).pickups = d.pickups := rfl
@[simp] theorem onCal_sde (f : Calib → Calib) : (d.onCal f).sde = d.sde := rfl
@[simp] theorem onCal_ladder (f : Calib → Calib) : (d.onCal f).ladder = d.ladder := rfl
@[simp] theorem onCal_journal (f : Calib → Calib) : (d.onCal f).journal = d.journal := rfl
@[simp] theorem onCal_answer (f : Calib → Calib) : (d.onCal f).answer = d.answer := rfl
@[simp] theorem onCal_fw (f : Calib → Calib) : (d.onCal f).fw = d.fw := rfl
@[simp] theorem onCal_spn (f : Calib → Calib) : (d.onCal f).spn = d.spn := rfl
@[simp] theorem onCal_sleds (f : Calib → Calib) : (d.onCal f).sleds = d.sleds := rfl
@[simp] theorem onCal_clamp (f : Calib → Calib) : (d.onCal f).clamp = d.clamp := rfl
@[simp] theorem onCal_eng (f : Calib → Calib) : (d.onCal f).eng = d.eng := rfl
@[simp] theorem onCal_servos (f : Calib → Calib) : (d.onCal f).servos = d.servos := rfl
@[simp] theorem onCal_sumRef (f : Calib → Calib) : (d.onCal f).sumRef = d.sumRef := rfl
@[simp] theorem onCal_wsgs (f : Calib → Calib) : (d.onCal f).wsgs = d.wsgs := rfl
@[simp] theorem onCal_stalled (f : Calib → Calib) : (d.onCal f).stalled = d.stalled := rfl
@[simp] theorem onCal_drc (f : Calib → Calib) : (d.onCal f).drc = d.drc := rfl
@[simp] theorem onCal_fbc (f : Calib → Calib) : (d.onCal f).fbc = d.fbc := rfl
@[simp] theorem onCal_error (f : Calib → Calib) : (d.onCal f).error = d.error := rfl
@[simp] theorem onCal_link (f : Calib → Calib) : (d.onCal f).link = d.link := rfl
@[simp] theorem onCal_host (f : Calib → Calib) : (d.onCal f).host = d.host := rfl
@[simp] theorem onCal_comp (f : Calib → Calib) : (d.onCal f).comp = d.comp := rfl
@[simp] theorem onCal_aon (f : Calib → Calib) : (d.onCal f).aon = d.aon := rfl
@[simp] theorem onCal_tap (f : Calib → Calib) : (d.onCal f).tap = d.tap := rfl
@[simp] theorem onCal_cal (f : Calib → Calib) : (d.onCal f).cal = f d.cal := rfl
@[simp] theorem onCal_rd (f : Calib → Calib) (q : Reg) (k l : Nat) : (d.onCal f).rd q k l = d.rd q k l := rfl
@[simp] theorem onCal_fg (f : Calib → Calib) (q : Fld) (k l : Nat) : (d.onCal f).fg q k l = d.fg q k l := rfl
@[simp] theorem onCal_is (f : Calib → Calib) (q : Fld) (k l : Nat) : (d.onCal f).is q k l = d.is q k l := rfl

/-! `onDrc` writes `drc` only. -/
@[simp] theorem onDrc_regs (f : Drc → Drc) : (d.onDrc f).regs = d.regs := rfl
@[simp] theorem onDrc_free (f : Drc → Drc) : (d.onDrc f).free = d.free := rfl
@[simp] theorem onDrc_qtime (f : Drc → Drc) : (d.onDrc f).qtime = d.qtime := rfl
@[simp] theorem onDrc_shadow (f : Drc → Drc) : (d.onDrc f).shadow = d.shadow := rfl
@[simp] theorem onDrc_bonded (f : Drc → Drc) : (d.onDrc f).bonded = d.bonded := rfl
@[simp] theorem onDrc_opuStage (f : Drc → Drc) : (d.onDrc f).opuStage = d.opuStage := rfl
@[simp] theorem onDrc_dram (f : Drc → Drc) : (d.onDrc f).dram = d.dram := rfl
@[simp] theorem onDrc_dramChk (f : Drc → Drc) : (d.onDrc f).dramChk = d.dramChk := rfl
@[simp] theorem onDrc_hostMem (f : Drc → Drc) : (d.onDrc f).hostMem = d.hostMem := rfl
@[simp] theorem onDrc_slices (f : Drc → Drc) : (d.onDrc f).slices = d.slices := rfl
@[simp] theorem onDrc_pickups (f : Drc → Drc) : (d.onDrc f).pickups = d.pickups := rfl
@[simp] theorem onDrc_sde (f : Drc → Drc) : (d.onDrc f).sde = d.sde := rfl
@[simp] theorem onDrc_ladder (f : Drc → Drc) : (d.onDrc f).ladder = d.ladder := rfl
@[simp] theorem onDrc_journal (f : Drc → Drc) : (d.onDrc f).journal = d.journal := rfl
@[simp] theorem onDrc_answer (f : Drc → Drc) : (d.onDrc f).answer = d.answer := rfl
@[simp] theorem onDrc_fw (f : Drc → Drc) : (d.onDrc f).fw = d.fw := rfl
@[simp] theorem onDrc_spn (f : Drc → Drc) : (d.onDrc f).spn = d.spn := rfl
@[simp] theorem onDrc_sleds (f : Drc → Drc) : (d.onDrc f).sleds = d.sleds := rfl
@[simp] theorem onDrc_clamp (f : Drc → Drc) : (d.onDrc f).clamp = d.clamp := rfl
@[simp] theorem onDrc_eng (f : Drc → Drc) : (d.onDrc f).eng = d.eng := rfl
@[simp] theorem onDrc_servos (f : Drc → Drc) : (d.onDrc f).servos = d.servos := rfl
@[simp] theorem onDrc_sumRef (f : Drc → Drc) : (d.onDrc f).sumRef = d.sumRef := rfl
@[simp] theorem onDrc_cal (f : Drc → Drc) : (d.onDrc f).cal = d.cal := rfl
@[simp] theorem onDrc_wsgs (f : Drc → Drc) : (d.onDrc f).wsgs = d.wsgs := rfl
@[simp] theorem onDrc_stalled (f : Drc → Drc) : (d.onDrc f).stalled = d.stalled := rfl
@[simp] theorem onDrc_fbc (f : Drc → Drc) : (d.onDrc f).fbc = d.fbc := rfl
@[simp] theorem onDrc_error (f : Drc → Drc) : (d.onDrc f).error = d.error := rfl
@[simp] theorem onDrc_link (f : Drc → Drc) : (d.onDrc f).link = d.link := rfl
@[simp] theorem onDrc_host (f : Drc → Drc) : (d.onDrc f).host = d.host := rfl
@[simp] theorem onDrc_comp (f : Drc → Drc) : (d.onDrc f).comp = d.comp := rfl
@[simp] theorem onDrc_aon (f : Drc → Drc) : (d.onDrc f).aon = d.aon := rfl
@[simp] theorem onDrc_tap (f : Drc → Drc) : (d.onDrc f).tap = d.tap := rfl
@[simp] theorem onDrc_drc (f : Drc → Drc) : (d.onDrc f).drc = f d.drc := rfl
@[simp] theorem onDrc_rd (f : Drc → Drc) (q : Reg) (k l : Nat) : (d.onDrc f).rd q k l = d.rd q k l := rfl
@[simp] theorem onDrc_fg (f : Drc → Drc) (q : Fld) (k l : Nat) : (d.onDrc f).fg q k l = d.fg q k l := rfl
@[simp] theorem onDrc_is (f : Drc → Drc) (q : Fld) (k l : Nat) : (d.onDrc f).is q k l = d.is q k l := rfl

/-! `onFbc` writes `fbc` only. -/
@[simp] theorem onFbc_regs (f : Fbc → Fbc) : (d.onFbc f).regs = d.regs := rfl
@[simp] theorem onFbc_free (f : Fbc → Fbc) : (d.onFbc f).free = d.free := rfl
@[simp] theorem onFbc_qtime (f : Fbc → Fbc) : (d.onFbc f).qtime = d.qtime := rfl
@[simp] theorem onFbc_shadow (f : Fbc → Fbc) : (d.onFbc f).shadow = d.shadow := rfl
@[simp] theorem onFbc_bonded (f : Fbc → Fbc) : (d.onFbc f).bonded = d.bonded := rfl
@[simp] theorem onFbc_opuStage (f : Fbc → Fbc) : (d.onFbc f).opuStage = d.opuStage := rfl
@[simp] theorem onFbc_dram (f : Fbc → Fbc) : (d.onFbc f).dram = d.dram := rfl
@[simp] theorem onFbc_dramChk (f : Fbc → Fbc) : (d.onFbc f).dramChk = d.dramChk := rfl
@[simp] theorem onFbc_hostMem (f : Fbc → Fbc) : (d.onFbc f).hostMem = d.hostMem := rfl
@[simp] theorem onFbc_slices (f : Fbc → Fbc) : (d.onFbc f).slices = d.slices := rfl
@[simp] theorem onFbc_pickups (f : Fbc → Fbc) : (d.onFbc f).pickups = d.pickups := rfl
@[simp] theorem onFbc_sde (f : Fbc → Fbc) : (d.onFbc f).sde = d.sde := rfl
@[simp] theorem onFbc_ladder (f : Fbc → Fbc) : (d.onFbc f).ladder = d.ladder := rfl
@[simp] theorem onFbc_journal (f : Fbc → Fbc) : (d.onFbc f).journal = d.journal := rfl
@[simp] theorem onFbc_answer (f : Fbc → Fbc) : (d.onFbc f).answer = d.answer := rfl
@[simp] theorem onFbc_fw (f : Fbc → Fbc) : (d.onFbc f).fw = d.fw := rfl
@[simp] theorem onFbc_spn (f : Fbc → Fbc) : (d.onFbc f).spn = d.spn := rfl
@[simp] theorem onFbc_sleds (f : Fbc → Fbc) : (d.onFbc f).sleds = d.sleds := rfl
@[simp] theorem onFbc_clamp (f : Fbc → Fbc) : (d.onFbc f).clamp = d.clamp := rfl
@[simp] theorem onFbc_eng (f : Fbc → Fbc) : (d.onFbc f).eng = d.eng := rfl
@[simp] theorem onFbc_servos (f : Fbc → Fbc) : (d.onFbc f).servos = d.servos := rfl
@[simp] theorem onFbc_sumRef (f : Fbc → Fbc) : (d.onFbc f).sumRef = d.sumRef := rfl
@[simp] theorem onFbc_cal (f : Fbc → Fbc) : (d.onFbc f).cal = d.cal := rfl
@[simp] theorem onFbc_wsgs (f : Fbc → Fbc) : (d.onFbc f).wsgs = d.wsgs := rfl
@[simp] theorem onFbc_stalled (f : Fbc → Fbc) : (d.onFbc f).stalled = d.stalled := rfl
@[simp] theorem onFbc_drc (f : Fbc → Fbc) : (d.onFbc f).drc = d.drc := rfl
@[simp] theorem onFbc_error (f : Fbc → Fbc) : (d.onFbc f).error = d.error := rfl
@[simp] theorem onFbc_link (f : Fbc → Fbc) : (d.onFbc f).link = d.link := rfl
@[simp] theorem onFbc_host (f : Fbc → Fbc) : (d.onFbc f).host = d.host := rfl
@[simp] theorem onFbc_comp (f : Fbc → Fbc) : (d.onFbc f).comp = d.comp := rfl
@[simp] theorem onFbc_aon (f : Fbc → Fbc) : (d.onFbc f).aon = d.aon := rfl
@[simp] theorem onFbc_tap (f : Fbc → Fbc) : (d.onFbc f).tap = d.tap := rfl
@[simp] theorem onFbc_fbc (f : Fbc → Fbc) : (d.onFbc f).fbc = f d.fbc := rfl
@[simp] theorem onFbc_rd (f : Fbc → Fbc) (q : Reg) (k l : Nat) : (d.onFbc f).rd q k l = d.rd q k l := rfl
@[simp] theorem onFbc_fg (f : Fbc → Fbc) (q : Fld) (k l : Nat) : (d.onFbc f).fg q k l = d.fg q k l := rfl
@[simp] theorem onFbc_is (f : Fbc → Fbc) (q : Fld) (k l : Nat) : (d.onFbc f).is q k l = d.is q k l := rfl

/-! `setWay` writes `fbc` only. -/
@[simp] theorem setWay_regs (n w : Nat) (x : CacheLine) : (d.setWay n w x).regs = d.regs := rfl
@[simp] theorem setWay_free (n w : Nat) (x : CacheLine) : (d.setWay n w x).free = d.free := rfl
@[simp] theorem setWay_qtime (n w : Nat) (x : CacheLine) : (d.setWay n w x).qtime = d.qtime := rfl
@[simp] theorem setWay_shadow (n w : Nat) (x : CacheLine) : (d.setWay n w x).shadow = d.shadow := rfl
@[simp] theorem setWay_bonded (n w : Nat) (x : CacheLine) : (d.setWay n w x).bonded = d.bonded := rfl
@[simp] theorem setWay_opuStage (n w : Nat) (x : CacheLine) : (d.setWay n w x).opuStage = d.opuStage := rfl
@[simp] theorem setWay_dram (n w : Nat) (x : CacheLine) : (d.setWay n w x).dram = d.dram := rfl
@[simp] theorem setWay_dramChk (n w : Nat) (x : CacheLine) : (d.setWay n w x).dramChk = d.dramChk := rfl
@[simp] theorem setWay_hostMem (n w : Nat) (x : CacheLine) : (d.setWay n w x).hostMem = d.hostMem := rfl
@[simp] theorem setWay_slices (n w : Nat) (x : CacheLine) : (d.setWay n w x).slices = d.slices := rfl
@[simp] theorem setWay_pickups (n w : Nat) (x : CacheLine) : (d.setWay n w x).pickups = d.pickups := rfl
@[simp] theorem setWay_sde (n w : Nat) (x : CacheLine) : (d.setWay n w x).sde = d.sde := rfl
@[simp] theorem setWay_ladder (n w : Nat) (x : CacheLine) : (d.setWay n w x).ladder = d.ladder := rfl
@[simp] theorem setWay_journal (n w : Nat) (x : CacheLine) : (d.setWay n w x).journal = d.journal := rfl
@[simp] theorem setWay_answer (n w : Nat) (x : CacheLine) : (d.setWay n w x).answer = d.answer := rfl
@[simp] theorem setWay_fw (n w : Nat) (x : CacheLine) : (d.setWay n w x).fw = d.fw := rfl
@[simp] theorem setWay_spn (n w : Nat) (x : CacheLine) : (d.setWay n w x).spn = d.spn := rfl
@[simp] theorem setWay_sleds (n w : Nat) (x : CacheLine) : (d.setWay n w x).sleds = d.sleds := rfl
@[simp] theorem setWay_clamp (n w : Nat) (x : CacheLine) : (d.setWay n w x).clamp = d.clamp := rfl
@[simp] theorem setWay_eng (n w : Nat) (x : CacheLine) : (d.setWay n w x).eng = d.eng := rfl
@[simp] theorem setWay_servos (n w : Nat) (x : CacheLine) : (d.setWay n w x).servos = d.servos := rfl
@[simp] theorem setWay_sumRef (n w : Nat) (x : CacheLine) : (d.setWay n w x).sumRef = d.sumRef := rfl
@[simp] theorem setWay_cal (n w : Nat) (x : CacheLine) : (d.setWay n w x).cal = d.cal := rfl
@[simp] theorem setWay_wsgs (n w : Nat) (x : CacheLine) : (d.setWay n w x).wsgs = d.wsgs := rfl
@[simp] theorem setWay_stalled (n w : Nat) (x : CacheLine) : (d.setWay n w x).stalled = d.stalled := rfl
@[simp] theorem setWay_drc (n w : Nat) (x : CacheLine) : (d.setWay n w x).drc = d.drc := rfl
@[simp] theorem setWay_error (n w : Nat) (x : CacheLine) : (d.setWay n w x).error = d.error := rfl
@[simp] theorem setWay_link (n w : Nat) (x : CacheLine) : (d.setWay n w x).link = d.link := rfl
@[simp] theorem setWay_host (n w : Nat) (x : CacheLine) : (d.setWay n w x).host = d.host := rfl
@[simp] theorem setWay_comp (n w : Nat) (x : CacheLine) : (d.setWay n w x).comp = d.comp := rfl
@[simp] theorem setWay_aon (n w : Nat) (x : CacheLine) : (d.setWay n w x).aon = d.aon := rfl
@[simp] theorem setWay_tap (n w : Nat) (x : CacheLine) : (d.setWay n w x).tap = d.tap := rfl
@[simp] theorem setWay_rd (n w : Nat) (x : CacheLine) (q : Reg) (k l : Nat) : (d.setWay n w x).rd q k l = d.rd q k l := rfl
@[simp] theorem setWay_fg (n w : Nat) (x : CacheLine) (q : Fld) (k l : Nat) : (d.setWay n w x).fg q k l = d.fg q k l := rfl
@[simp] theorem setWay_is (n w : Nat) (x : CacheLine) (q : Fld) (k l : Nat) : (d.setWay n w x).is q k l = d.is q k l := rfl

/-! `onLink` writes `link` only. -/
@[simp] theorem onLink_regs (f : Link → Link) : (d.onLink f).regs = d.regs := rfl
@[simp] theorem onLink_free (f : Link → Link) : (d.onLink f).free = d.free := rfl
@[simp] theorem onLink_qtime (f : Link → Link) : (d.onLink f).qtime = d.qtime := rfl
@[simp] theorem onLink_shadow (f : Link → Link) : (d.onLink f).shadow = d.shadow := rfl
@[simp] theorem onLink_bonded (f : Link → Link) : (d.onLink f).bonded = d.bonded := rfl
@[simp] theorem onLink_opuStage (f : Link → Link) : (d.onLink f).opuStage = d.opuStage := rfl
@[simp] theorem onLink_dram (f : Link → Link) : (d.onLink f).dram = d.dram := rfl
@[simp] theorem onLink_dramChk (f : Link → Link) : (d.onLink f).dramChk = d.dramChk := rfl
@[simp] theorem onLink_hostMem (f : Link → Link) : (d.onLink f).hostMem = d.hostMem := rfl
@[simp] theorem onLink_slices (f : Link → Link) : (d.onLink f).slices = d.slices := rfl
@[simp] theorem onLink_pickups (f : Link → Link) : (d.onLink f).pickups = d.pickups := rfl
@[simp] theorem onLink_sde (f : Link → Link) : (d.onLink f).sde = d.sde := rfl
@[simp] theorem onLink_ladder (f : Link → Link) : (d.onLink f).ladder = d.ladder := rfl
@[simp] theorem onLink_journal (f : Link → Link) : (d.onLink f).journal = d.journal := rfl
@[simp] theorem onLink_answer (f : Link → Link) : (d.onLink f).answer = d.answer := rfl
@[simp] theorem onLink_fw (f : Link → Link) : (d.onLink f).fw = d.fw := rfl
@[simp] theorem onLink_spn (f : Link → Link) : (d.onLink f).spn = d.spn := rfl
@[simp] theorem onLink_sleds (f : Link → Link) : (d.onLink f).sleds = d.sleds := rfl
@[simp] theorem onLink_clamp (f : Link → Link) : (d.onLink f).clamp = d.clamp := rfl
@[simp] theorem onLink_eng (f : Link → Link) : (d.onLink f).eng = d.eng := rfl
@[simp] theorem onLink_servos (f : Link → Link) : (d.onLink f).servos = d.servos := rfl
@[simp] theorem onLink_sumRef (f : Link → Link) : (d.onLink f).sumRef = d.sumRef := rfl
@[simp] theorem onLink_cal (f : Link → Link) : (d.onLink f).cal = d.cal := rfl
@[simp] theorem onLink_wsgs (f : Link → Link) : (d.onLink f).wsgs = d.wsgs := rfl
@[simp] theorem onLink_stalled (f : Link → Link) : (d.onLink f).stalled = d.stalled := rfl
@[simp] theorem onLink_drc (f : Link → Link) : (d.onLink f).drc = d.drc := rfl
@[simp] theorem onLink_fbc (f : Link → Link) : (d.onLink f).fbc = d.fbc := rfl
@[simp] theorem onLink_error (f : Link → Link) : (d.onLink f).error = d.error := rfl
@[simp] theorem onLink_host (f : Link → Link) : (d.onLink f).host = d.host := rfl
@[simp] theorem onLink_comp (f : Link → Link) : (d.onLink f).comp = d.comp := rfl
@[simp] theorem onLink_aon (f : Link → Link) : (d.onLink f).aon = d.aon := rfl
@[simp] theorem onLink_tap (f : Link → Link) : (d.onLink f).tap = d.tap := rfl
@[simp] theorem onLink_link (f : Link → Link) : (d.onLink f).link = f d.link := rfl
@[simp] theorem onLink_rd (f : Link → Link) (q : Reg) (k l : Nat) : (d.onLink f).rd q k l = d.rd q k l := rfl
@[simp] theorem onLink_fg (f : Link → Link) (q : Fld) (k l : Nat) : (d.onLink f).fg q k l = d.fg q k l := rfl
@[simp] theorem onLink_is (f : Link → Link) (q : Fld) (k l : Nat) : (d.onLink f).is q k l = d.is q k l := rfl

/-! `onPort` writes `link` only. -/
@[simp] theorem onPort_regs (n : Nat) (f : QPort → QPort) : (d.onPort n f).regs = d.regs := rfl
@[simp] theorem onPort_free (n : Nat) (f : QPort → QPort) : (d.onPort n f).free = d.free := rfl
@[simp] theorem onPort_qtime (n : Nat) (f : QPort → QPort) : (d.onPort n f).qtime = d.qtime := rfl
@[simp] theorem onPort_shadow (n : Nat) (f : QPort → QPort) : (d.onPort n f).shadow = d.shadow := rfl
@[simp] theorem onPort_bonded (n : Nat) (f : QPort → QPort) : (d.onPort n f).bonded = d.bonded := rfl
@[simp] theorem onPort_opuStage (n : Nat) (f : QPort → QPort) : (d.onPort n f).opuStage = d.opuStage := rfl
@[simp] theorem onPort_dram (n : Nat) (f : QPort → QPort) : (d.onPort n f).dram = d.dram := rfl
@[simp] theorem onPort_dramChk (n : Nat) (f : QPort → QPort) : (d.onPort n f).dramChk = d.dramChk := rfl
@[simp] theorem onPort_hostMem (n : Nat) (f : QPort → QPort) : (d.onPort n f).hostMem = d.hostMem := rfl
@[simp] theorem onPort_slices (n : Nat) (f : QPort → QPort) : (d.onPort n f).slices = d.slices := rfl
@[simp] theorem onPort_pickups (n : Nat) (f : QPort → QPort) : (d.onPort n f).pickups = d.pickups := rfl
@[simp] theorem onPort_sde (n : Nat) (f : QPort → QPort) : (d.onPort n f).sde = d.sde := rfl
@[simp] theorem onPort_ladder (n : Nat) (f : QPort → QPort) : (d.onPort n f).ladder = d.ladder := rfl
@[simp] theorem onPort_journal (n : Nat) (f : QPort → QPort) : (d.onPort n f).journal = d.journal := rfl
@[simp] theorem onPort_answer (n : Nat) (f : QPort → QPort) : (d.onPort n f).answer = d.answer := rfl
@[simp] theorem onPort_fw (n : Nat) (f : QPort → QPort) : (d.onPort n f).fw = d.fw := rfl
@[simp] theorem onPort_spn (n : Nat) (f : QPort → QPort) : (d.onPort n f).spn = d.spn := rfl
@[simp] theorem onPort_sleds (n : Nat) (f : QPort → QPort) : (d.onPort n f).sleds = d.sleds := rfl
@[simp] theorem onPort_clamp (n : Nat) (f : QPort → QPort) : (d.onPort n f).clamp = d.clamp := rfl
@[simp] theorem onPort_eng (n : Nat) (f : QPort → QPort) : (d.onPort n f).eng = d.eng := rfl
@[simp] theorem onPort_servos (n : Nat) (f : QPort → QPort) : (d.onPort n f).servos = d.servos := rfl
@[simp] theorem onPort_sumRef (n : Nat) (f : QPort → QPort) : (d.onPort n f).sumRef = d.sumRef := rfl
@[simp] theorem onPort_cal (n : Nat) (f : QPort → QPort) : (d.onPort n f).cal = d.cal := rfl
@[simp] theorem onPort_wsgs (n : Nat) (f : QPort → QPort) : (d.onPort n f).wsgs = d.wsgs := rfl
@[simp] theorem onPort_stalled (n : Nat) (f : QPort → QPort) : (d.onPort n f).stalled = d.stalled := rfl
@[simp] theorem onPort_drc (n : Nat) (f : QPort → QPort) : (d.onPort n f).drc = d.drc := rfl
@[simp] theorem onPort_fbc (n : Nat) (f : QPort → QPort) : (d.onPort n f).fbc = d.fbc := rfl
@[simp] theorem onPort_error (n : Nat) (f : QPort → QPort) : (d.onPort n f).error = d.error := rfl
@[simp] theorem onPort_host (n : Nat) (f : QPort → QPort) : (d.onPort n f).host = d.host := rfl
@[simp] theorem onPort_comp (n : Nat) (f : QPort → QPort) : (d.onPort n f).comp = d.comp := rfl
@[simp] theorem onPort_aon (n : Nat) (f : QPort → QPort) : (d.onPort n f).aon = d.aon := rfl
@[simp] theorem onPort_tap (n : Nat) (f : QPort → QPort) : (d.onPort n f).tap = d.tap := rfl
@[simp] theorem onPort_rd (n : Nat) (f : QPort → QPort) (q : Reg) (k l : Nat) : (d.onPort n f).rd q k l = d.rd q k l := rfl
@[simp] theorem onPort_fg (n : Nat) (f : QPort → QPort) (q : Fld) (k l : Nat) : (d.onPort n f).fg q k l = d.fg q k l := rfl
@[simp] theorem onPort_is (n : Nat) (f : QPort → QPort) (q : Fld) (k l : Nat) : (d.onPort n f).is q k l = d.is q k l := rfl

/-! `onHost` writes `host` only. -/
@[simp] theorem onHost_regs (f : HostIf → HostIf) : (d.onHost f).regs = d.regs := rfl
@[simp] theorem onHost_free (f : HostIf → HostIf) : (d.onHost f).free = d.free := rfl
@[simp] theorem onHost_qtime (f : HostIf → HostIf) : (d.onHost f).qtime = d.qtime := rfl
@[simp] theorem onHost_shadow (f : HostIf → HostIf) : (d.onHost f).shadow = d.shadow := rfl
@[simp] theorem onHost_bonded (f : HostIf → HostIf) : (d.onHost f).bonded = d.bonded := rfl
@[simp] theorem onHost_opuStage (f : HostIf → HostIf) : (d.onHost f).opuStage = d.opuStage := rfl
@[simp] theorem onHost_dram (f : HostIf → HostIf) : (d.onHost f).dram = d.dram := rfl
@[simp] theorem onHost_dramChk (f : HostIf → HostIf) : (d.onHost f).dramChk = d.dramChk := rfl
@[simp] theorem onHost_hostMem (f : HostIf → HostIf) : (d.onHost f).hostMem = d.hostMem := rfl
@[simp] theorem onHost_slices (f : HostIf → HostIf) : (d.onHost f).slices = d.slices := rfl
@[simp] theorem onHost_pickups (f : HostIf → HostIf) : (d.onHost f).pickups = d.pickups := rfl
@[simp] theorem onHost_sde (f : HostIf → HostIf) : (d.onHost f).sde = d.sde := rfl
@[simp] theorem onHost_ladder (f : HostIf → HostIf) : (d.onHost f).ladder = d.ladder := rfl
@[simp] theorem onHost_journal (f : HostIf → HostIf) : (d.onHost f).journal = d.journal := rfl
@[simp] theorem onHost_answer (f : HostIf → HostIf) : (d.onHost f).answer = d.answer := rfl
@[simp] theorem onHost_fw (f : HostIf → HostIf) : (d.onHost f).fw = d.fw := rfl
@[simp] theorem onHost_spn (f : HostIf → HostIf) : (d.onHost f).spn = d.spn := rfl
@[simp] theorem onHost_sleds (f : HostIf → HostIf) : (d.onHost f).sleds = d.sleds := rfl
@[simp] theorem onHost_clamp (f : HostIf → HostIf) : (d.onHost f).clamp = d.clamp := rfl
@[simp] theorem onHost_eng (f : HostIf → HostIf) : (d.onHost f).eng = d.eng := rfl
@[simp] theorem onHost_servos (f : HostIf → HostIf) : (d.onHost f).servos = d.servos := rfl
@[simp] theorem onHost_sumRef (f : HostIf → HostIf) : (d.onHost f).sumRef = d.sumRef := rfl
@[simp] theorem onHost_cal (f : HostIf → HostIf) : (d.onHost f).cal = d.cal := rfl
@[simp] theorem onHost_wsgs (f : HostIf → HostIf) : (d.onHost f).wsgs = d.wsgs := rfl
@[simp] theorem onHost_stalled (f : HostIf → HostIf) : (d.onHost f).stalled = d.stalled := rfl
@[simp] theorem onHost_drc (f : HostIf → HostIf) : (d.onHost f).drc = d.drc := rfl
@[simp] theorem onHost_fbc (f : HostIf → HostIf) : (d.onHost f).fbc = d.fbc := rfl
@[simp] theorem onHost_error (f : HostIf → HostIf) : (d.onHost f).error = d.error := rfl
@[simp] theorem onHost_link (f : HostIf → HostIf) : (d.onHost f).link = d.link := rfl
@[simp] theorem onHost_comp (f : HostIf → HostIf) : (d.onHost f).comp = d.comp := rfl
@[simp] theorem onHost_aon (f : HostIf → HostIf) : (d.onHost f).aon = d.aon := rfl
@[simp] theorem onHost_tap (f : HostIf → HostIf) : (d.onHost f).tap = d.tap := rfl
@[simp] theorem onHost_host (f : HostIf → HostIf) : (d.onHost f).host = f d.host := rfl
@[simp] theorem onHost_rd (f : HostIf → HostIf) (q : Reg) (k l : Nat) : (d.onHost f).rd q k l = d.rd q k l := rfl
@[simp] theorem onHost_fg (f : HostIf → HostIf) (q : Fld) (k l : Nat) : (d.onHost f).fg q k l = d.fg q k l := rfl
@[simp] theorem onHost_is (f : HostIf → HostIf) (q : Fld) (k l : Nat) : (d.onHost f).is q k l = d.is q k l := rfl

/-! `onComp` writes `comp` only. -/
@[simp] theorem onComp_regs (f : Compute → Compute) : (d.onComp f).regs = d.regs := rfl
@[simp] theorem onComp_free (f : Compute → Compute) : (d.onComp f).free = d.free := rfl
@[simp] theorem onComp_qtime (f : Compute → Compute) : (d.onComp f).qtime = d.qtime := rfl
@[simp] theorem onComp_shadow (f : Compute → Compute) : (d.onComp f).shadow = d.shadow := rfl
@[simp] theorem onComp_bonded (f : Compute → Compute) : (d.onComp f).bonded = d.bonded := rfl
@[simp] theorem onComp_opuStage (f : Compute → Compute) : (d.onComp f).opuStage = d.opuStage := rfl
@[simp] theorem onComp_dram (f : Compute → Compute) : (d.onComp f).dram = d.dram := rfl
@[simp] theorem onComp_dramChk (f : Compute → Compute) : (d.onComp f).dramChk = d.dramChk := rfl
@[simp] theorem onComp_hostMem (f : Compute → Compute) : (d.onComp f).hostMem = d.hostMem := rfl
@[simp] theorem onComp_slices (f : Compute → Compute) : (d.onComp f).slices = d.slices := rfl
@[simp] theorem onComp_pickups (f : Compute → Compute) : (d.onComp f).pickups = d.pickups := rfl
@[simp] theorem onComp_sde (f : Compute → Compute) : (d.onComp f).sde = d.sde := rfl
@[simp] theorem onComp_ladder (f : Compute → Compute) : (d.onComp f).ladder = d.ladder := rfl
@[simp] theorem onComp_journal (f : Compute → Compute) : (d.onComp f).journal = d.journal := rfl
@[simp] theorem onComp_answer (f : Compute → Compute) : (d.onComp f).answer = d.answer := rfl
@[simp] theorem onComp_fw (f : Compute → Compute) : (d.onComp f).fw = d.fw := rfl
@[simp] theorem onComp_spn (f : Compute → Compute) : (d.onComp f).spn = d.spn := rfl
@[simp] theorem onComp_sleds (f : Compute → Compute) : (d.onComp f).sleds = d.sleds := rfl
@[simp] theorem onComp_clamp (f : Compute → Compute) : (d.onComp f).clamp = d.clamp := rfl
@[simp] theorem onComp_eng (f : Compute → Compute) : (d.onComp f).eng = d.eng := rfl
@[simp] theorem onComp_servos (f : Compute → Compute) : (d.onComp f).servos = d.servos := rfl
@[simp] theorem onComp_sumRef (f : Compute → Compute) : (d.onComp f).sumRef = d.sumRef := rfl
@[simp] theorem onComp_cal (f : Compute → Compute) : (d.onComp f).cal = d.cal := rfl
@[simp] theorem onComp_wsgs (f : Compute → Compute) : (d.onComp f).wsgs = d.wsgs := rfl
@[simp] theorem onComp_stalled (f : Compute → Compute) : (d.onComp f).stalled = d.stalled := rfl
@[simp] theorem onComp_drc (f : Compute → Compute) : (d.onComp f).drc = d.drc := rfl
@[simp] theorem onComp_fbc (f : Compute → Compute) : (d.onComp f).fbc = d.fbc := rfl
@[simp] theorem onComp_error (f : Compute → Compute) : (d.onComp f).error = d.error := rfl
@[simp] theorem onComp_link (f : Compute → Compute) : (d.onComp f).link = d.link := rfl
@[simp] theorem onComp_host (f : Compute → Compute) : (d.onComp f).host = d.host := rfl
@[simp] theorem onComp_aon (f : Compute → Compute) : (d.onComp f).aon = d.aon := rfl
@[simp] theorem onComp_tap (f : Compute → Compute) : (d.onComp f).tap = d.tap := rfl
@[simp] theorem onComp_comp (f : Compute → Compute) : (d.onComp f).comp = f d.comp := rfl
@[simp] theorem onComp_rd (f : Compute → Compute) (q : Reg) (k l : Nat) : (d.onComp f).rd q k l = d.rd q k l := rfl
@[simp] theorem onComp_fg (f : Compute → Compute) (q : Fld) (k l : Nat) : (d.onComp f).fg q k l = d.fg q k l := rfl
@[simp] theorem onComp_is (f : Compute → Compute) (q : Fld) (k l : Nat) : (d.onComp f).is q k l = d.is q k l := rfl

/-! `onGroup` writes `comp` only. -/
@[simp] theorem onGroup_regs (n : Nat) (f : Group → Group) : (d.onGroup n f).regs = d.regs := rfl
@[simp] theorem onGroup_free (n : Nat) (f : Group → Group) : (d.onGroup n f).free = d.free := rfl
@[simp] theorem onGroup_qtime (n : Nat) (f : Group → Group) : (d.onGroup n f).qtime = d.qtime := rfl
@[simp] theorem onGroup_shadow (n : Nat) (f : Group → Group) : (d.onGroup n f).shadow = d.shadow := rfl
@[simp] theorem onGroup_bonded (n : Nat) (f : Group → Group) : (d.onGroup n f).bonded = d.bonded := rfl
@[simp] theorem onGroup_opuStage (n : Nat) (f : Group → Group) : (d.onGroup n f).opuStage = d.opuStage := rfl
@[simp] theorem onGroup_dram (n : Nat) (f : Group → Group) : (d.onGroup n f).dram = d.dram := rfl
@[simp] theorem onGroup_dramChk (n : Nat) (f : Group → Group) : (d.onGroup n f).dramChk = d.dramChk := rfl
@[simp] theorem onGroup_hostMem (n : Nat) (f : Group → Group) : (d.onGroup n f).hostMem = d.hostMem := rfl
@[simp] theorem onGroup_slices (n : Nat) (f : Group → Group) : (d.onGroup n f).slices = d.slices := rfl
@[simp] theorem onGroup_pickups (n : Nat) (f : Group → Group) : (d.onGroup n f).pickups = d.pickups := rfl
@[simp] theorem onGroup_sde (n : Nat) (f : Group → Group) : (d.onGroup n f).sde = d.sde := rfl
@[simp] theorem onGroup_ladder (n : Nat) (f : Group → Group) : (d.onGroup n f).ladder = d.ladder := rfl
@[simp] theorem onGroup_journal (n : Nat) (f : Group → Group) : (d.onGroup n f).journal = d.journal := rfl
@[simp] theorem onGroup_answer (n : Nat) (f : Group → Group) : (d.onGroup n f).answer = d.answer := rfl
@[simp] theorem onGroup_fw (n : Nat) (f : Group → Group) : (d.onGroup n f).fw = d.fw := rfl
@[simp] theorem onGroup_spn (n : Nat) (f : Group → Group) : (d.onGroup n f).spn = d.spn := rfl
@[simp] theorem onGroup_sleds (n : Nat) (f : Group → Group) : (d.onGroup n f).sleds = d.sleds := rfl
@[simp] theorem onGroup_clamp (n : Nat) (f : Group → Group) : (d.onGroup n f).clamp = d.clamp := rfl
@[simp] theorem onGroup_eng (n : Nat) (f : Group → Group) : (d.onGroup n f).eng = d.eng := rfl
@[simp] theorem onGroup_servos (n : Nat) (f : Group → Group) : (d.onGroup n f).servos = d.servos := rfl
@[simp] theorem onGroup_sumRef (n : Nat) (f : Group → Group) : (d.onGroup n f).sumRef = d.sumRef := rfl
@[simp] theorem onGroup_cal (n : Nat) (f : Group → Group) : (d.onGroup n f).cal = d.cal := rfl
@[simp] theorem onGroup_wsgs (n : Nat) (f : Group → Group) : (d.onGroup n f).wsgs = d.wsgs := rfl
@[simp] theorem onGroup_stalled (n : Nat) (f : Group → Group) : (d.onGroup n f).stalled = d.stalled := rfl
@[simp] theorem onGroup_drc (n : Nat) (f : Group → Group) : (d.onGroup n f).drc = d.drc := rfl
@[simp] theorem onGroup_fbc (n : Nat) (f : Group → Group) : (d.onGroup n f).fbc = d.fbc := rfl
@[simp] theorem onGroup_error (n : Nat) (f : Group → Group) : (d.onGroup n f).error = d.error := rfl
@[simp] theorem onGroup_link (n : Nat) (f : Group → Group) : (d.onGroup n f).link = d.link := rfl
@[simp] theorem onGroup_host (n : Nat) (f : Group → Group) : (d.onGroup n f).host = d.host := rfl
@[simp] theorem onGroup_aon (n : Nat) (f : Group → Group) : (d.onGroup n f).aon = d.aon := rfl
@[simp] theorem onGroup_tap (n : Nat) (f : Group → Group) : (d.onGroup n f).tap = d.tap := rfl
@[simp] theorem onGroup_rd (n : Nat) (f : Group → Group) (q : Reg) (k l : Nat) : (d.onGroup n f).rd q k l = d.rd q k l := rfl
@[simp] theorem onGroup_fg (n : Nat) (f : Group → Group) (q : Fld) (k l : Nat) : (d.onGroup n f).fg q k l = d.fg q k l := rfl
@[simp] theorem onGroup_is (n : Nat) (f : Group → Group) (q : Fld) (k l : Nat) : (d.onGroup n f).is q k l = d.is q k l := rfl

/-! `onJob` writes `comp` only. -/
@[simp] theorem onJob_regs (n : Nat) (f : StripeJob → StripeJob) : (d.onJob n f).regs = d.regs := rfl
@[simp] theorem onJob_free (n : Nat) (f : StripeJob → StripeJob) : (d.onJob n f).free = d.free := rfl
@[simp] theorem onJob_qtime (n : Nat) (f : StripeJob → StripeJob) : (d.onJob n f).qtime = d.qtime := rfl
@[simp] theorem onJob_shadow (n : Nat) (f : StripeJob → StripeJob) : (d.onJob n f).shadow = d.shadow := rfl
@[simp] theorem onJob_bonded (n : Nat) (f : StripeJob → StripeJob) : (d.onJob n f).bonded = d.bonded := rfl
@[simp] theorem onJob_opuStage (n : Nat) (f : StripeJob → StripeJob) : (d.onJob n f).opuStage = d.opuStage := rfl
@[simp] theorem onJob_dram (n : Nat) (f : StripeJob → StripeJob) : (d.onJob n f).dram = d.dram := rfl
@[simp] theorem onJob_dramChk (n : Nat) (f : StripeJob → StripeJob) : (d.onJob n f).dramChk = d.dramChk := rfl
@[simp] theorem onJob_hostMem (n : Nat) (f : StripeJob → StripeJob) : (d.onJob n f).hostMem = d.hostMem := rfl
@[simp] theorem onJob_slices (n : Nat) (f : StripeJob → StripeJob) : (d.onJob n f).slices = d.slices := rfl
@[simp] theorem onJob_pickups (n : Nat) (f : StripeJob → StripeJob) : (d.onJob n f).pickups = d.pickups := rfl
@[simp] theorem onJob_sde (n : Nat) (f : StripeJob → StripeJob) : (d.onJob n f).sde = d.sde := rfl
@[simp] theorem onJob_ladder (n : Nat) (f : StripeJob → StripeJob) : (d.onJob n f).ladder = d.ladder := rfl
@[simp] theorem onJob_journal (n : Nat) (f : StripeJob → StripeJob) : (d.onJob n f).journal = d.journal := rfl
@[simp] theorem onJob_answer (n : Nat) (f : StripeJob → StripeJob) : (d.onJob n f).answer = d.answer := rfl
@[simp] theorem onJob_fw (n : Nat) (f : StripeJob → StripeJob) : (d.onJob n f).fw = d.fw := rfl
@[simp] theorem onJob_spn (n : Nat) (f : StripeJob → StripeJob) : (d.onJob n f).spn = d.spn := rfl
@[simp] theorem onJob_sleds (n : Nat) (f : StripeJob → StripeJob) : (d.onJob n f).sleds = d.sleds := rfl
@[simp] theorem onJob_clamp (n : Nat) (f : StripeJob → StripeJob) : (d.onJob n f).clamp = d.clamp := rfl
@[simp] theorem onJob_eng (n : Nat) (f : StripeJob → StripeJob) : (d.onJob n f).eng = d.eng := rfl
@[simp] theorem onJob_servos (n : Nat) (f : StripeJob → StripeJob) : (d.onJob n f).servos = d.servos := rfl
@[simp] theorem onJob_sumRef (n : Nat) (f : StripeJob → StripeJob) : (d.onJob n f).sumRef = d.sumRef := rfl
@[simp] theorem onJob_cal (n : Nat) (f : StripeJob → StripeJob) : (d.onJob n f).cal = d.cal := rfl
@[simp] theorem onJob_wsgs (n : Nat) (f : StripeJob → StripeJob) : (d.onJob n f).wsgs = d.wsgs := rfl
@[simp] theorem onJob_stalled (n : Nat) (f : StripeJob → StripeJob) : (d.onJob n f).stalled = d.stalled := rfl
@[simp] theorem onJob_drc (n : Nat) (f : StripeJob → StripeJob) : (d.onJob n f).drc = d.drc := rfl
@[simp] theorem onJob_fbc (n : Nat) (f : StripeJob → StripeJob) : (d.onJob n f).fbc = d.fbc := rfl
@[simp] theorem onJob_error (n : Nat) (f : StripeJob → StripeJob) : (d.onJob n f).error = d.error := rfl
@[simp] theorem onJob_link (n : Nat) (f : StripeJob → StripeJob) : (d.onJob n f).link = d.link := rfl
@[simp] theorem onJob_host (n : Nat) (f : StripeJob → StripeJob) : (d.onJob n f).host = d.host := rfl
@[simp] theorem onJob_aon (n : Nat) (f : StripeJob → StripeJob) : (d.onJob n f).aon = d.aon := rfl
@[simp] theorem onJob_tap (n : Nat) (f : StripeJob → StripeJob) : (d.onJob n f).tap = d.tap := rfl
@[simp] theorem onJob_rd (n : Nat) (f : StripeJob → StripeJob) (q : Reg) (k l : Nat) : (d.onJob n f).rd q k l = d.rd q k l := rfl
@[simp] theorem onJob_fg (n : Nat) (f : StripeJob → StripeJob) (q : Fld) (k l : Nat) : (d.onJob n f).fg q k l = d.fg q k l := rfl
@[simp] theorem onJob_is (n : Nat) (f : StripeJob → StripeJob) (q : Fld) (k l : Nat) : (d.onJob n f).is q k l = d.is q k l := rfl

/-! The state around the unit. -/
@[simp] theorem onDev_next (s : State) (f : Dev → Dev) : s.onDev f = .next { s with dev := f s.dev } := rfl
@[simp] theorem cond_true (f : Dev → Dev) : d.cond true f = f d := rfl
@[simp] theorem cond_false (f : Dev → Dev) : d.cond false f = d := rfl
@[simp] theorem each_nil {α : Type} (f : Dev → α → Dev) : d.each [] f = d := rfl
@[simp] theorem each_cons {α : Type} (x : α) (l : List α) (f : Dev → α → Dev) : d.each (x :: l) f = (f d x).each l f := rfl

end Sys2Proof.Laws
end

