-- ==== Sys2Proof/Laws/Ops.lean ====
section
/-!
SUPPORT. What the shared operations over registers and memory do, said once: a read after a write, and the canonical form.
-/

namespace Sys2Proof.Laws

open Sys2Proof Sys2Proof.Machine

/-! Registers. -/

/-- A register just written holds the value. -/
@[simp] theorem rd_wr (d : Dev) (r : Reg) (v : DWord) (i j : Nat) : (d.wr r v i j).rd r i j = v := by
  simp [Dev.rd, Dev.wr]

/-- A register with another key holds what it held. -/
theorem rd_wr_ne (d : Dev) (r q : Reg) (v : DWord) (i j k l : Nat) (h : r.key i j ≠ q.key k l)  :
    (d.wr r v i j).rd q k l = d.rd q k l := by
  simp only [Dev.rd, Dev.wr]
  unfold sparseSet
  split
  · rw [sparseGet_drop]; simp [Ne.symm h]
  · rw [sparseGet_ins _ _ _ _ _ (sparseDrop_ne _ _), sparseGet_drop]; simp [h, Ne.symm h]

/-- Registers of two windows have different keys, where each lies within its window of 1 MiB. -/
theorem key_ne_of_block (r q : Reg) (i j k l : Nat) (h : r.blk.code ≠ q.blk.code)
    (hr : r.off + i * r.s1 + j * r.s2 < 0x100000) (hq : q.off + k * q.s1 + l * q.s2 < 0x100000) :
    r.key i j ≠ q.key k l := by
  unfold Reg.key; omega

/-- A field just written holds the low bits of the value. -/
theorem fg_fs (d : Dev) (x : Fld) (v i j : Nat) (h : x.lo + x.width ≤ 32) :
    (d.fs x v i j).fg x i j = v % 2 ^ x.width := by
  unfold Dev.fs Dev.fg
  rw [rd_wr, BitVec.toNat_ofNat, Nat.mod_eq_of_lt (putBits_lt (d.rd x.reg i j).isLt h), bitsOf_putBits]

/-- Another field of the register holds what it held. -/
theorem fg_fs_same_reg (d : Dev) (x y : Fld) (v i j : Nat) (hr : y.reg = x.reg) (h : x.lo + x.width ≤ 32)
    (hd : y.lo + y.width ≤ x.lo ∨ x.lo + x.width ≤ y.lo) : (d.fs x v i j).fg y i j = d.fg y i j := by
  unfold Dev.fs Dev.fg
  rw [hr, rd_wr, BitVec.toNat_ofNat, Nat.mod_eq_of_lt (putBits_lt (d.rd x.reg i j).isLt h), bitsOf_putBits_ne _ _ _ _ _ _ hd]

/-- A field of a register with another key holds what it held. -/
theorem fg_fs_ne (d : Dev) (x y : Fld) (v i j k l : Nat) (h : x.reg.key i j ≠ y.reg.key k l) :
    (d.fs x v i j).fg y k l = d.fg y k l := by
  unfold Dev.fs Dev.fg; rw [rd_wr_ne _ _ _ _ _ _ _ _ h]

/-- A one-bit field just written with a truth value reads as that. -/
theorem is_fs_bit (d : Dev) (x : Fld) (b : Bool) (i j : Nat) (h : x.lo + x.width ≤ 32) (hw : x.width = 1) :
    (d.fs x (bit b) i j).is x i j = b := by
  unfold Dev.is; rw [fg_fs _ _ _ _ _ h, hw]; cases b <;> rfl

/-- A counter raised holds one more, up to its largest value. -/
theorem rd_bump (d : Dev) (r : Reg) (i n : Nat) :
    ((d.bump r i n).rd r i).toNat = min 0xFFFFFFFF ((d.rd r i).toNat + n) := by
  unfold Dev.bump
  rw [rd_wr, BitVec.toNat_ofNat]
  simp only [limitN]
  split
  · omega
  · split <;> omega

/-- The keys that a register write does not name keep what they list. -/
theorem lookup_wr (d : Dev) (r : Reg) (v : DWord) (i j k : Nat) (h : k ≠ r.key i j) :
    (d.wr r v i j).regs.lookup k = d.regs.lookup k := by
  simp only [Dev.wr]
  unfold sparseSet
  have drop : ∀ m : Sparse DWord, (sparseDrop (· == r.key i j) m).lookup k = m.lookup k := by
    intro m
    induction m with
    | nil => rfl
    | cons e m ih =>
      obtain ⟨a, w⟩ := e
      by_cases ha : a = r.key i j
      · have hk : (k == a) = false := by simp [ha, h]
        rw [List.lookup_cons, hk]
        simpa [sparseDrop, ha] using ih
      · have : sparseDrop (· == r.key i j) ((a, w) :: m) = (a, w) :: sparseDrop (· == r.key i j) m := by simp [sparseDrop, ha]
        rw [this, List.lookup_cons, List.lookup_cons, ih]
  have ins : ∀ m : Sparse DWord, (sparseIns m (r.key i j) v).lookup k = m.lookup k := by
    intro m
    have hk : (k == r.key i j) = false := by simp [h]
    induction m with
    | nil => simp [sparseIns, List.lookup_cons, hk]
    | cons e m ih =>
      obtain ⟨a, w⟩ := e
      by_cases ha : r.key i j < a
      · simp [sparseIns, ha, List.lookup_cons, hk]
      · simp only [sparseIns, ha, if_false, List.lookup_cons, ih]
  split
  · exact drop _
  · rw [ins, drop]

/-- A write of a register changes that register's key only. -/
theorem regsKept_wr (d : Dev) (r : Reg) (v : DWord) (i j : Nat) (k : Nat) (h : k ∉ [r.key i j]) :
    (d.wr r v i j).regs.lookup k = d.regs.lookup k := lookup_wr d r v i j k (by simpa using h)

/-! Memory. -/

theorem memCells_ge (a : Nat) (bs : Bytes) : ∀ e ∈ memCells a bs, a ≤ e.1 ∧ e.1 < a + bs.length := by
  induction bs generalizing a with
  | nil => simp [memCells]
  | cons b bs ih =>
    intro e he
    simp only [memCells] at he
    split at he
    · have := ih (a + 1) e he; simp; omega
    · rcases List.mem_cons.mp he with rfl | he
      · simp
      · have := ih (a + 1) e he; simp; omega

theorem memCells_wf (a : Nat) (bs : Bytes) : Memory.wf (memCells a bs) := by
  induction bs generalizing a with
  | nil => exact ⟨List.Pairwise.nil, by simp [memCells]⟩
  | cons b bs ih =>
    simp only [memCells]
    split
    · exact ih _
    · next hb =>
      refine ⟨List.pairwise_cons.mpr ⟨fun e he => (memCells_ge _ _ e he).1, (ih _).1⟩, fun e he => ?_⟩
      rcases List.mem_cons.mp he with rfl | he
      · exact hb
      · exact (ih _).2 e he

/-- A write of bytes keeps a memory's canonical form. -/
theorem memWrite_wf (m : List Host.Cell) (a : Nat) (bs : Bytes) (h : Memory.wf m) : Memory.wf (memWrite m a bs) := by
  have hc := memCells_wf a bs
  have hg := memCells_ge a bs
  unfold memWrite
  constructor
  · rw [List.pairwise_append, List.pairwise_append]
    refine ⟨⟨h.1.filter _, hc.1, fun x hx y hy => ?_⟩, h.1.filter _, fun x hx y hy => ?_⟩
    · have := (hg y hy).1
      simp at hx; omega
    · simp at hy
      rcases List.mem_append.mp hx with hx | hx
      · simp at hx; omega
      · have := (hg x hx).2; omega
  · intro e he
    rcases List.mem_append.mp he with he | he
    · rcases List.mem_append.mp he with he | he
      · exact h.2 e (List.mem_of_mem_filter he)
      · exact hc.2 e he
    · exact h.2 e (List.mem_of_mem_filter he)

theorem sparseGet_append {α : Type} (z : α) (m n : Sparse α) (k : Nat) (h : ∀ e ∈ m, e.1 ≠ k) :
    sparseGet z (m ++ n) k = sparseGet z n k := by
  induction m with
  | nil => rfl
  | cons e m ih =>
    obtain ⟨a, v⟩ := e
    have ha : a ≠ k := h (a, v) (by simp)
    simp [sparseGet, ha, ih fun e he => h e (by simp [he])]

theorem sparseGet_append_right {α : Type} (z : α) (m n : Sparse α) (k : Nat) (h : ∀ e ∈ n, e.1 ≠ k) :
    sparseGet z (m ++ n) k = sparseGet z m k := by
  induction m with
  | nil =>
    induction n with
    | nil => rfl
    | cons e n ih =>
      obtain ⟨a, v⟩ := e
      have ha : a ≠ k := h (a, v) (by simp)
      simpa [sparseGet, ha] using ih fun e he => h e (by simp [he])
  | cons e m ih =>
    obtain ⟨a, v⟩ := e
    simp [sparseGet, ih]

theorem sparseGet_filter {α : Type} (z : α) (p : Nat → Bool) (m : Sparse α) (k : Nat) :
    sparseGet z (m.filter fun e => p e.1) k = if p k then sparseGet z m k else z := by
  have := sparseGet_drop z (fun a => !p a) m k
  simp only [sparseDrop, Bool.not_not] at this
  rw [this]; cases p k <;> simp

theorem sparseGet_memCells (a : Nat) (bs : Bytes) (k : Nat) :
    sparseGet 0#8 (memCells a bs) k = if a ≤ k then bs.getD (k - a) 0#8 else 0#8 := by
  induction bs generalizing a with
  | nil => simp [memCells]
  | cons b bs ih =>
    have key : sparseGet 0#8 (memCells a (b :: bs)) k = if a = k then b else sparseGet 0#8 (memCells (a + 1) bs) k := by
      simp only [memCells]
      split
      · next hb =>
        by_cases hk : a = k
        · rw [if_pos hk, ih, if_neg (by omega), hb]
        · rw [if_neg hk]
      · rfl
    rw [key, ih]
    by_cases h1 : a = k
    · simp [h1]
    · by_cases h2 : a ≤ k
      · have h3 : k - a = (k - (a + 1)) + 1 := by omega
        rw [if_neg h1, if_pos (by omega), if_pos h2, h3, List.getD_cons_succ]
      · rw [if_neg h1, if_neg (by omega), if_neg h2]

/-- A byte of memory after a write: the byte written inside it, the old one outside. -/
theorem sparseGet_memWrite (m : List Host.Cell) (a : Nat) (bs : Bytes) (k : Nat) :
    sparseGet 0#8 (memWrite m a bs) k =
      if a ≤ k ∧ k < a + bs.length then bs.getD (k - a) 0#8 else sparseGet 0#8 m k := by
  have hg := memCells_ge a bs
  unfold memWrite
  by_cases h1 : k < a
  · rw [sparseGet_append_right _ _ _ _ (fun e he => by simp at he; omega),
      sparseGet_append_right _ _ _ _ (fun e he => by have := hg e he; omega), if_neg (by omega)]
    rw [sparseGet_filter 0#8 (fun x => decide (x < a))]; simp [h1]
  · by_cases h2 : k < a + bs.length
    · rw [sparseGet_append_right _ _ _ _ (fun e he => by simp at he; omega),
        sparseGet_append _ _ _ _ (fun e he => by simp at he; omega), sparseGet_memCells, if_pos (by omega), if_pos (by omega)]
    · rw [sparseGet_append _ _ _ _ (fun e he => by
          rcases List.mem_append.mp he with he | he
          · simp at he; omega
          · have := hg e he; omega), if_neg (by omega)]
      rw [sparseGet_filter 0#8 (fun x => decide (a + bs.length ≤ x))]; simp; omega

@[simp] theorem memRead_length (m : List Host.Cell) (a n : Nat) : (memRead m a n).length = n := by simp [memRead]

/-- A byte of a read of memory. -/
theorem memRead_getD (m : List Host.Cell) (a n i : Nat) (h : i < n) : (memRead m a n).getD i 0#8 = sparseGet 0#8 m (a + i) := by
  have hp : sparseGet 0#8 (m.filter fun e => decide (a ≤ e.1) && decide (e.1 < a + n)) (a + i) = sparseGet 0#8 m (a + i) := by
    rw [sparseGet_filter 0#8 (fun x => decide (a ≤ x) && decide (x < a + n))]; simp [h]
  simp [memRead, List.getD_eq_getElem?_getD, h, hp]

/-- A read of what was just written. -/
theorem memRead_memWrite (m : List Host.Cell) (a : Nat) (bs : Bytes) : memRead (memWrite m a bs) a bs.length = bs := by
  apply List.ext_getElem (by simp)
  intro i h1 h2
  have := memRead_getD (memWrite m a bs) a bs.length i h2
  rw [sparseGet_memWrite, if_pos (by omega)] at this
  simpa [List.getD_eq_getElem?_getD, h1, h2] using this

/-- The memories of the reset state have the canonical form. -/
theorem reset_memories_wf : Memory.wf State.reset.dev.dram ∧ Memory.wf State.reset.dev.hostMem :=
  ⟨⟨List.Pairwise.nil, by simp [State.reset]⟩, ⟨List.Pairwise.nil, by simp [State.reset]⟩⟩

end Sys2Proof.Laws
end

