-- ==== Sys2Proof/Laws/Units.lean ====
section
/-!
SUPPORT. What one of several like units holds after an update of one of them: the updated one the new value, every other the old.
-/

namespace Sys2Proof.Laws

open Sys2Proof Sys2Proof.Machine

theorem slice_onSlice (d : Dev) (n m : Nat) (f : Slice → Slice) : (d.onSlice n f).slice m = if n = m then f (d.slice n) else d.slice m :=
  sparseGet_set _ _ _ _ _

theorem pickup_onPickup (d : Dev) (n m : Nat) (f : Pickup → Pickup) : (d.onPickup n f).pickup m = if n = m then f (d.pickup n) else d.pickup m :=
  sparseGet_set _ _ _ _ _

theorem servo_onServo (d : Dev) (n m : Nat) (f : Servo → Servo) : (d.onServo n f).servo m = if n = m then f (d.servo n) else d.servo m :=
  sparseGet_set _ _ _ _ _

theorem wsg_onWsg (d : Dev) (n m : Nat) (f : Wsg → Wsg) : (d.onWsg n f).wsg m = if n = m then f (d.wsg n) else d.wsg m :=
  sparseGet_set _ _ _ _ _

theorem sled_onSled (d : Dev) (n m : Nat) (f : Sled → Sled) : (d.onSled n f).sled m = if n = m then f (d.sled n) else d.sled m :=
  sparseGet_set _ _ _ _ _

theorem ctx_onCtx (d : Dev) (n m : Nat) (f : Context → Context) : (d.onCtx n f).ctx m = if n = m then f (d.ctx n) else d.ctx m :=
  sparseGet_set _ _ _ _ _

theorem slot_onSlot (d : Dev) (n m : Nat) (f : CleSlot → CleSlot) : (d.onSlot n f).slot m = if n = m then f (d.slot n) else d.slot m :=
  sparseGet_set _ _ _ _ _

theorem port_onPort (d : Dev) (n m : Nat) (f : QPort → QPort) : (d.onPort n f).port m = if n = m then f (d.port n) else d.port m :=
  sparseGet_set _ _ _ _ _

theorem stream_onStream (d : Dev) (n m : Nat) (f : Stream → Stream) : (d.onStream n f).stream m = if n = m then f (d.stream n) else d.stream m :=
  sparseGet_set _ _ _ _ _

theorem opuFw_onOpuFw (d : Dev) (n m : Nat) (f : OpuFw → OpuFw) : (d.onOpuFw n f).opuFw m = if n = m then f (d.opuFw n) else d.opuFw m :=
  sparseGet_set _ _ _ _ _

/-- The command of a number after the command of a number is updated, where the update keeps the number. -/
theorem cmd_onCmd (d : Dev) (n m : Nat) (f : Cmd → Cmd) (hf : ∀ c, (f c).id = c.id) :
    (d.onCmd n f).cmd m = if n = m then (d.cmd m).map f else d.cmd m := by
  have key : ∀ l : List Cmd, (l.map fun c => if c.id == n then f c else c).find? (fun c => c.id == m)
      = if n = m then (l.find? fun c => c.id == m).map f else l.find? fun c => c.id == m := by
    intro l
    induction l with
    | nil => simp
    | cons c l ih =>
      simp only [List.map_cons, List.find?_cons, ih]
      by_cases hn : c.id = n <;> by_cases hm : c.id = m <;> simp_all <;> first | (intro h; exact absurd h.symm hn) | (split <;> simp_all)
  exact key d.fw.cmds

end Sys2Proof.Laws
end

