-- ==== Sys2Proof/WellFormed.lean ====
section
/-!
DEFINITION. Which commands are well formed: the relations between operands that their types do not fix.
-/

namespace Sys2Proof

/-- Whether a command is well formed. -/
def Instr.wf : Instr → Bool
  | .registerWrite _ off _ => off % 4 == 0
  | .rcRead _ off => off % 4 == 0
  | .frozenEntry _ => true
  | .islandOffAccess _ _ _ _ off _ => off % 4 == 0
  | .opuIslandPowerUp _ => true
  | .opuIslandReady _ => true
  | .opuIslandPowerDown _ => true
  | .servoMarkSearch _ _ => true
  | .servoRecordPost _ _ => true
  | .agcUpdate _ _ => true
  | .overRangeEvent _ _ => true
  | .timingLost _ _ => true
  | .rcsGapLatch _ => true
  | .rcsNcoPreset _ _ => true
  | .trimApply _ => true
  | .rcsTgtWrite _ _ => true
  | .commit _ => true
  | .eqCommitApply _ => true
  | .sliceDisable _ => true
  | .bandCheck _ _ => true
  | .deskewDrop _ _ => true
  | .leafCapture _ pos _ => pos < 512
  | .leafDeposit _ => true
  | .sdeEntryConsume => true
  | .sdeLeafStart _ => true
  | .sdeIterationDone _ => true
  | .outerDecode _ => true
  | .contextOpen _ => true
  | .contextClose _ => true
  | .contextAbandon _ => true
  | .sdeRingWrite _ => true
  | .sdeTestModeWrite _ => true
  | .testEntryAdvance => true
  | .retryLadderStep _ psa _ => psa < 2 ^ 40
  | .recoveryLimitExpiry _ => true
  | .encodeJob _ => true
  | .wsgPlanLatch _ => true
  | .ldStopRelease _ => true
  | .frameRecord _ _ pos fields _ => pos < 512 ∧ fields < 8
  | .laneInterrupt _ _ _ => true
  | .pause _ => true
  | .wsgStop _ => true
  | .train _ => true
  | .ldcFirmwareCmd _ _ => true
  | .ldcFrame _ miso => miso < 2 ^ 40
  | .bandPlanDecision _ => true
  | .streamIdleTimeout _ => true
  | .verifyResultHandle => true
  | .neighbourJudge => true
  | .closingRevolution _ => true
  | .opcRun _ => true
  | .opcEvaluate _ => true
  | .cleGo => true
  | .slotDisable _ => true
  | .cleTick _ => true
  | .cleDispatch _ _ => true
  | .microTrap _ _ => true
  | .sampleResume => true
  | .cleHalt => true
  | .swap _ => true
  | .dmCommit _ => true
  | .csCommit _ => true
  | .cleEvtRead => true
  | .nop => true
  | .mov => true
  | .add => true
  | .sub => true
  | .mul => true
  | .fma => true
  | .fnma => true
  | .div => true
  | .sqrt => true
  | .min => true
  | .max => true
  | .abs => true
  | .neg => true
  | .cleClamp => true
  | .cmplt => true
  | .cmple => true
  | .cmpeq => true
  | .sel => true
  | .hsum => true
  | .cvf => true
  | .cvi => true
  | .cvd => true
  | .iadd => true
  | .and => true
  | .or => true
  | .xor => true
  | .shr => true
  | .shl => true
  | .openSlotAudit => true
  | .focusAcquire _ _ _ => true
  | .focusSweepFail _ => true
  | .layerJump _ _ => true
  | .layerStepTimeout _ => true
  | .trackAcquire _ _ _ => true
  | .svSeek _ _ _ => true
  | .svOpen _ => true
  | .trackHold _ => true
  | .bandJump _ => true
  | .landingDecision _ _ => true
  | .loopLimitBreach _ _ => true
  | .opuFaultRestart _ => true
  | .bandLostLimit _ _ => true
  | .start => true
  | .alignEnd => true
  | .couchReached => true
  | .couchTimeout => true
  | .catch => true
  | .stop => true
  | .clearFault => true
  | .spnDirWrite _ => true
  | .bemfCrossing t _ _ angle _ => 0 < t && angle ≤ 6000
  | .stepMissed => true
  | .below30Timeout => true
  | .dutyApply _ _ _ _ angle => angle ≤ 6000
  | .dutyStale => true
  | .overcurrent _ _ => true
  | .overspeed => true
  | .startFailRetry => true
  | .spindleConditionHandle _ => true
  | .speedErrorTimeout => true
  | .readBandAdvance _ => true
  | .sledTarget _ _ _ _ _ => true
  | .sledMoveDone _ => true
  | .sledIdleTimeout _ => true
  | .home _ => true
  | .homeStallDetect _ _ => true
  | .homeFail _ _ _ => true
  | .sldStop _ _ _ => true
  | .sldClearFault _ => true
  | .sledOvercurrent _ _ => true
  | .opuPark _ _ _ => true
  | .clamp => true
  | .release => true
  | .clampClearFault => true
  | .discPresentRise => true
  | .clampHomeRise => true
  | .clampSeatDone => true
  | .clampLeaveTimeout _ => true
  | .clampMoveTimeout => true
  | .discLost => true
  | .calTrigger set => set < 2 ^ 28
  | .calStepStart => true
  | .calMeasurementDone ms => ms.length ≤ 24
  | .calStepDone => true
  | .calStepTimeout => true
  | .delegatedCal _ => true
  | .calExtResult _ => true
  | .abort => true
  | .calFailHandle => true
  | .calDueTimeout _ _ => true
  | .trimStoreWrite off _ => off % 4 == 0
  | .temperatureSample _ codes => codes.length == 4
  | .drcRequestAccept req second isWrite addr len data _ _ => (!second || req == 4 || req == 5) && 1 ≤ (if isWrite then data.length else len) && addr % 64 + (if isWrite then data.length else len) ≤ 64
  | .drcSchedule _ _ => true
  | .drcReadComplete _ _ => true
  | .refreshDue _ _ => true
  | .mr4Poll r0 r1 => r0.length == 4 && r1.length == 4 && r0.all (fun c => c < 8) && r1.all (fun c => c < 8)
  | .rhTableClear => true
  | .scrubRead _ => true
  | .rawWrite => true
  | .rawRead => true
  | .autoSelfRefresh _ _ => true
  | .deep => true
  | .deepSrExit counts => counts.length == 8
  | .drcTraining _ counts => counts.length == 8
  | .zqCalibration => true
  | .dqsOscCheck _ _ => true
  | .requestUrgent req second => !second || req == 4 || req == 5
  | .cacheRead _ addr len _ _ => 1 ≤ len && addr % 64 + len ≤ 64
  | .cacheWrite _ addr data _ _ => 1 ≤ data.length && addr % 64 + data.length ≤ 64
  | .prefetch _ => true
  | .clean => true
  | .invalidate => true
  | .preload _ => true
  | .cleanAll => true
  | .cacheResetInvalidate => true
  | .rjSubmit _ data => data.length = 64
  | .rjRecordWrite _ _ => true
  | .rjStageFrost data => data.length = 64
  | .rjSeal _ _ _ _ _ => true
  | .rjRecordRead _ slot => slot < 14336
  | .journalLowSpace => true
  | .mapCheckpoint _ => true
  | .tsGo _ _ _ => true
  | .tsReplyPost _ _ => true
  | .queueEnable _ val => val.getLsbD 0
  | .queueDisable val => !val.getLsbD 0
  | .doorbell _ => true
  | .queueEntryFetch => true
  | .queueReplyPost _ => true
  | .msixUnmask _ => true
  | .memberWindowWrite _ off data => 1 ≤ data.length && data.length ≤ 512 && off.val + data.length ≤ 262144
  | .memberWindowRead _ off len => 1 ≤ len && off.val + len ≤ 262144
  | .memberReadTimeout => true
  | .unreachableWriteDiscard => true
  | .dmaCompletionError _ _ => true
  | .hostReset _ _ => true
  | .configurationRequest _ _ _ _ _ => true
  | .identify _ => true
  | .getPage _ => true
  | .setPage _ => true
  | .poll _ => true
  | .acknowledgeAttention _ => true
  | .getLog _ => true
  | .resetStream _ => true
  | .powerMode _ => true
  | .read _ => true
  | .write _ => true
  | .verify _ => true
  | .flushStream _ => true
  | .fence _ => true
  | .fixity _ => true
  | .load _ _ => true
  | .unload _ _ => true
  | .seek _ => true
  | .calibrate _ => true
  | .groupCreate _ => true
  | .groupDelete _ => true
  | .groupWrite _ => true
  | .groupRead _ => true
  | .groupStatus _ => true
  | .groupRebuild _ => true
  | .snapshot _ => true
  | .chainOpCountOff _ => true
  | .chainOpBarrier _ => true
  | .chainOpReset _ => true
  | .microcodeLoad _ => true
  | .openStart _ => true
  | .openStop _ => true
  | .openRelease _ => true
  | .openWithdraw _ => true
  | .openBankLoad _ => true
  | .firmwareDownload _ => true
  | .firmwareCommit _ => true
  | .enterService _ => true
  | .leaveService _ => true
  | .codecTest _ => true
  | .surfaceTest _ => true
  | .rawBufferRead _ => true
  | .traceCopy _ => true
  | .watermarkAdvance _ => true
  | .streamBreak _ => true
  | .linkTraining _ _ _ _ _ _ _ => true
  | .retrain _ => true
  | .disable _ => true
  | .frameReceive _ frame _ => frame.length == 272
  | .frameReplay _ => true
  | .portDown _ => true
  | .messageForward => true
  | .mmioWrite => true
  | .mmioReadRequest => true
  | .mmioReadCompletion => true
  | .hostReadRequest _ => true
  | .hostReadData => true
  | .hostWrite => true
  | .memberReply => true
  | .unitRequest => true
  | .unitResponse => true
  | .unitData => true
  | .claim => true
  | .count => true
  | .map => true
  | .token => true
  | .tokenLost _ => true
  | .timeBroadcast _ => true
  | .time => true
  | .barrier => true
  | .snap => true
  | .chainReset _ => true
  | .sleep => true
  | .topo => true
  | .portWake _ => true
  | .linkIdleSleep => true
  | .groupDecision _ _ => true
  | .slowMemberTimeout _ => true
  | .pendingResolve => true
  | .rebuildStripe _ => true
  | .sheetHash _ => true
  | .frostLineEvent _ _ => true
  | .thaw _ => true
  | .wake cause _ => cause != 0
  | .pllUnlock _ => true
  | .crystalFail _ => true
  | .crystalReturn => true
  | .powerOnReset => true
  | .unitReset _ _ _ => true
  | .watchdogExpiry _ => true
  | .firmwareRestart => true
  | .boot _ _ _ counts => counts.length == 8
  | .bootImageCheck => true
  | .bootFirmwareStart _ => true
  | .tapReset => true
  | .extest _ _ => true
  | .samplePreload _ _ => true
  | .idcode => true
  | .jtagClamp => true
  | .highz => true
  | .bootStatus => true
  | .fuseRead _ => true
  | .fuseProg _ _ => true
  | .regAccess _ off _ _ => off % 4 == 0
  | .dbgAccess _ _ data => data.length == 16
  | .clePatch _ _ _ => true
  | .bypass code => !([0, 1, 2, 3, 4, 0x10, 0x11, 0x12, 0x20, 0x21, 0x22].contains code.val) && !(0x30 ≤ code.val && code.val ≤ 0x3F)
  | .fuseArbSet _ => true
  | .hostLinkUp => true
  | .commutation => true
  | .supplyRegained _ => true
  | .thawTimerReset _ => true
  | .asleepRetry => true

end Sys2Proof
end

