-- ==== Sys2Proof/Tests/Slice0.lean ====
section
/-!
SUPPORT. The model's own tests: ill-formed commands refused, the spec's worked examples, and for every clause of a statement with
premises a state and operands that meet them together.
-/

namespace Sys2Proof.Tests

open Sys2Proof Sys2Proof.Machine

section

set_option linter.unusedVariables false
set_option maxRecDepth 100000
set_option Elab.async false

/-- A P4 unit whose islands are all on, and what `f` makes of it. -/
def unit (f : Dev → Dev) : State :=
  { dev := f (setIslands true true true true true
      { shadow := 2 <<< 64, opuStage := [(0, .ready), (1, .ready), (2, .ready), (3, .ready)] }) }

/-- The same unit with its OPU islands off. -/
def unitOff (f : Dev → Dev) : State := { dev := f (setIslands true true true true true { shadow := 2 <<< 64 }) }

/-- A unit whose slice 30 is enabled and has seen a servo field whose servo mark lies `o` channel bits late. -/
def servoUnit (o : Nat) : State := unit fun d => (d.fs .RCS_CTL_EN 1 30).onSlice 30 fun x =>
  { x with
    zone := .servo
    servo := ((List.range 300).map fun n =>
      ({ y := if n < o + 224 then 0 else if markBits.getD ((n - o - 224) / 4) false then 10 else -10 } : Sample)).reverse }

/-- A unit whose slice 30 has begun leaf position 0 and released all that the leaf needs. -/
def leafUnit : State := unit fun d => ((d.fs .RCS_CTL_EN 1 30).fs .RCS_STAT_STATE 3 30).onSlice 30 fun x =>
  { x with zone := .field, begun := [{ pos := 0 }], outEnd := 60000, count := 60000 }

/-- A unit whose OPU 1 may record lane 0, whose wedge 0 carries track 5000. -/
def recUnit (l : Lane) : State := unit fun d =>
  (((((d.fs .WSG_CTL_EN 1).fs .RCS_STAT_STATE 3 24).setInhibit 1 false).fs .WSG_OCTL_GATE_EN 1 1).onSlice 24 fun x =>
    { x with ids := [(0, { track := 5000, tvalid := true, slvalid := true })] }).onWsg 1 fun g =>
      { g with trained := true, enabled := true, lanes := [l] }

/-- A unit with one sheet result, of a neighbour context 4 for PSA 0, and firmware as `f` makes it. -/
def nbrUnit (f : Firmware → Firmware) : State := unit fun d =>
  { (((d.fs .SDE_SRES_PI 1).fs .DRC_STAT_STATE drcReady).onCtx 4 fun x => { x with mode := 2, owed := true, maxRaw := 1 }) with
    dram := [(263, 2#8)], fw := f d.fw }

/-- A unit whose OPU 1 can begin an OPC run on layer 0, `n` of whose test bands are used. -/
def opcUnit (n : Nat) : State := unit fun d => ((d.setSv 1 svTracking).onOpuFw 1 fun f => { f with opcDue := true }).onFw fun w =>
  { w with
    disc := { w.disc with loaded := true, mediaClass := 0, strategy := [0#8, 0#8, 1#8, 0#8, 1#8] ++ List.replicate 127 0#8 }
    opcNext := [(0, n)] }

/-- A unit whose engine has the sample of slot 71 ready. -/
def dispUnit : State := unit fun d => (d.fs .CLE_CTL_EN 1).onEng fun e => { e with samples := [{ slot := 71 }] }

/-- A unit whose engine runs the sample of slot 60 while that of slot 71, of a higher level, is ready. -/
def trapUnit : State := unit fun d => (d.fs .CLE_CTL_EN 1).onEng fun e =>
  { e with samples := [{ slot := 60, phase := .running, level := 2 }, { slot := 71, level := 1 }] }

/-- A unit whose slice 30 holds more outputs than its deskew buffer takes, while slice 31 has written none. -/
def deskewUnit : State := unit fun d =>
  ((((((d.fs .RCS_CTL_EN 1 30).fs .RCS_CTL_EN 1 31).fs .RCS_STAT_STATE 3 30).fs .RCS_STAT_STATE 3 31).onSlice 30 fun x =>
    { x with buf := List.replicate 4097 {}, count := 4097 }).onSlice 31 fun x => { x with zone := .field })

/-- The 64 bytes of a command, zeros where none is given. -/
def bytes64 (l : List (BitVec 8)) : List (BitVec 8) := takeFill 0#8 64 l

/-- A unit of `unit` whose firmware runs accepted command 5 of those bytes. -/
def doing (l : List (BitVec 8)) (d : Dev) : Dev :=
  d.onFw fun w => { w with up := true, cmds := [{ id := 5, ssq := 1, bytes := bytes64 l }] }

/-- Head A of a chain of one, its host link mastering the bus. -/
def head (d : Dev) : Dev :=
  (((d.fs .QL_ID_ROLE 1).fs .QL_STAT_ADDR_VALID 1).fs .CLK_BOOT_STAGE 7).onHost fun h => { h with cfg := [(4, 4#32), (0x50, 0x80000000#32)] }

/-- The bytes of a command: opcode, DLEN, and bytes 24 and 25. -/
def cmdB (op dlen b24 b25 : Nat) : List (BitVec 8) :=
  leBytes 8 op ++ leBytes 8 dlen ++ leBytes 8 0 ++ leBytes 1 b24 ++ leBytes 1 b25

/-- Accepted command 5 of those bytes. -/
def cmd5 (l : List (BitVec 8)) : Cmd := { id := 5, ssq := 1, bytes := bytes64 l }

/-- The disc turns under four OPUs that follow track 0. -/
def tracking (d : Dev) : Dev :=
  (((([0, 1, 2, 3].foldl (fun d o => d.svSet o svState 4) d).fs .SPN_STAT_STATE 4).fs .SLD_CL_STAT_STATE 3).fs .SPN_STAT_BELOW30 0).setMode 3

/-- A microcode image of one word and no slots. -/
def quejoImage : List (BitVec 8) :=
  leBytes 4 0x4A514C43 ++ leBytes 2 1 ++ leBytes 2 1 ++ leBytes 4 0 ++ leBytes 4 (crc32c (leBytes 16 5)) ++ leBytes 112 0 ++ leBytes 16 5

/-- The header of a firmware image without a body, its signature made outside the model with the private key 7 and the nonce 1: an
independent check of R637 to R639 (computed with Python's hashlib and integers). -/
def signedHeader : List (BitVec 8) :=
  leBytes 4 0x4D524946 ++ leBytes 2 1 ++ leBytes 2 512 ++ leBytes 8 0 ++ leBytes 4 0x030100 ++ leBytes 44 0
    ++ beBytes 96 0x283c1d7365ce4788f29f8ebf234edffead6fe997fbea5ffa2d58cc9dfa7b1c508b05526f55b9ebb2040f05b48fb6d0e19475c99061e41b88ba52efdb8c1690471a61d867ed799729d9c92cd01dbd225630d84ede32a78f9e64664cdac512ef8c
    ++ beBytes 96 0xaa87ca22be8b05378eb1c71ef320ad746e1d3b628ba79b9859f741e082542a385502f25dbf55296c3a545e3872760ab736893616baacf7ce56d397b9db205e4f480f7422d0b2b94cbfe8118b7c35d42c4ff4cd5eeabf4fe4cade5567c1e5d15e
    ++ leBytes 252 0 ++ leBytes 4 0xd5004d78

/-- The fuses that trust that key: ROOT_HASH and ROOT_CRC. -/
def signedShadow : Nat :=
  2 <<< 64 + 0xea67cbb8c0aa9c0219a83d3f65a5a9ebe04284823e7b0f1182c17a60ceb893ddac1bf2322aa85a738f9d140c0883f423 <<< 1024 + 0xa6ded6f6 <<< 1408

/-- A boot flash that holds that header in slot 0. -/
def signedFlash : Sparse (BitVec 8) := signedHeader.zipIdx.map fun e => (e.2, e.1)

/-- The image passes the check of R639 under those fuses. -/
theorem image_ok : imageFault signedShadow signedHeader [] = none := by decide +kernel

/-- So it does from the flash of a unit with those fuses. -/
theorem image_flash (d : Dev) (hs : d.shadow = signedShadow) (hh : d.slotHeader 0 = signedHeader) (hb : d.slotBody 0 = []) :
    imageFault d.shadow (d.slotHeader 0) (d.slotBody 0) = none := by
  rw [hs, hh, hb]; exact image_ok

/-! One ill-formed command for each check of WellFormed, which the check refuses, and well-formed ones beside them. -/

theorem test_ill_formed_a : ([.registerWrite .rcs 2 0, .rcRead .rcs 1, .islandOffAccess 0 none false .rcs 2 0,
   .leafCapture 0 512 [], .retryLadderStep 0 (2 ^ 40) false, .frameRecord 0 0 512 0 false, .frameRecord 0 0 0 8 false, .ldcFrame 0 (2 ^ 40),
   .bemfCrossing 0 0 false 0 0, .bemfCrossing 1 0 false 6001 0, .dutyApply 0 0 0 none 6001, .calTrigger (2 ^ 28),
   .calMeasurementDone (List.replicate 25 (0, 0, 0, 0, false)), .trimStoreWrite 3 0, .temperatureSample 0 [0]].map Instr.wf).all (· == false) = true := by decide +kernel

theorem test_ill_formed_b : ([.drcRequestAccept 0 true false 0 4 [] 0 true, .drcRequestAccept 0 false false 60 8 [] 0 true, .drcRequestAccept 0 false false 0 0 [] 0 true,
   .drcRequestAccept 0 false true 0 4 [] 0 true, .requestUrgent 0 true,
   .mr4Poll [] [0, 0, 0, 0], .mr4Poll [0, 0, 0, 0] [], .mr4Poll [8, 0, 0, 0] [0, 0, 0, 0], .mr4Poll [0, 0, 0, 0] [0, 0, 0, 8],
   .deepSrExit [], .drcTraining none [], .cacheRead 0 0 0 false 0, .cacheRead 0 63 2 false 0, .cacheWrite 0 0 [] 0 false,
   .cacheWrite 0 63 [0#8, 0#8] 0 false, .rjSubmit false [], .rjStageFrost [], .rjRecordRead false 14336, .queueEnable 0 0,
   .queueDisable 1, .memberWindowWrite 0 0 [], .memberWindowWrite 0 262143 [0#8, 0#8], .memberWindowRead 0 0 0,
   .memberWindowRead 0 262143 2, .frameReceive 0 [] false, .wake 0 [], .boot true true none [], .regAccess .rcs 1 1 0,
   .dbgAccess 0 1 [], .bypass 0x10, .bypass 0x30].map Instr.wf).all (· == false) = true := by decide +kernel

theorem test_ill_formed_long : (Instr.memberWindowWrite 0 0 (List.replicate 513 0#8)).wf = false := by decide +kernel

theorem test_well_formed : ([Instr.registerWrite .rcs 4 0, .cacheRead 0 32 32 false 0, .bypass 0xFF, .bypass 0x2F,
    .queueEnable 0 1, .queueDisable 0, .leafCapture 0 511 [], .thaw []].map Instr.wf).all id = true := by decide

/-- The table gives no row any bits: no word spells a command. -/
theorem test_no_words : decodeTableWord 32 0x12345678 = none := rfl
theorem test_fetch_idle (s : State) : s.withFetchWord 16 7 = s := rfl

/-! Expected values from the spec's worked examples and tables, not from the model. -/

/-- 02_ferola_format.md, the addressing example: leaf 20 of slot 5 of track 80,000, layer 3, side A. -/
theorem test_format_zone : (zoneOf 80000, classOf 80000, radiusNm 80000) = (16, 7, 42000000) := by decide +kernel
theorem test_format_psa : (mkPsa 0 3 80000 5 20, mkPsa 0 3 80000 5 0) = (0x34E2000154, 0x34E2000140) := by decide +kernel
theorem test_format_gray : (gray 80000, ungray 18 0x1A4C0, scramblerSeed 0 3 80000) = (0x1A4C0, 80000, 9054) := by decide +kernel
theorem test_format_leaf : (leafPos 7 20 5, leafPos 7 20 5 * frameBits 1, dataBits 7) = (145, 8085200, 34334) := by decide +kernel
theorem test_format_field : (dataFieldStart 7 235, nominalCentiRpm 7) = (8593490, 152098) := by decide +kernel
theorem test_format_band : (readTrack 3333 8, psaTrack 0x34E2000154, psaLeaf 0x34E2000154) = (80000, 80000, 20) := by decide +kernel

/-- 02_ferola_format.md R52: the check values of the code's shifts at I1. -/
theorem test_ldpc_shifts : ([0, 2, 4, 6].map fun i => ldpcShift i 0) = [13, 187, 361, 23] := by decide +kernel
theorem test_ldpc_shifts_one : ([1, 3, 5, 7].map fun i => ldpcShift i 1) = [124, 330, 24, 230] := by decide +kernel
theorem test_ldpc_places : ((List.range 8).filter fun i => ldpcPlaced 8 i 0, (List.range 8).filter fun i => ldpcPlaced 8 i 1)
    = ([0, 2, 4, 6], [1, 3, 5, 7]) := by decide +kernel

/-- 03_read_channel_slices.md, the timing example: class G8 at 1,200 rpm gives the step 0xE6AD56. -/
theorem test_preset_step : presetStep 8 (1200 * 16) = 0xE6AD56 := by decide +kernel

/-- 05_recording.md, the symbol example: a 3T mark after a 5T space, entry 5. -/
theorem test_write_entry : stratIndex 3 (spaceClass 5) = 5 := by decide
theorem test_write_symbols : putMark (List.replicate 5 0#32 ++ [BitVec.ofNat 32 (12 + 20 * 2 ^ 5 + 18 * 2 ^ 10 + 12 * 2 ^ 15 + 24 * 2 ^ 20)]) 0 3 2 5
    [0#8, 0#8, 0#8, 0#8, 0#8] = [0x64#8, 0xA3#8, 0x94#8, 0x62#8, 0xC1#8] := by decide +kernel

/-- 11_buffer_dram.md, the mapping example. -/
theorem test_locate : locate 2 0x12345678 = { ch := 1, rank := 0, bank := 7, row := 2663, line := 33 } := by decide +kernel

/-- 14_host_port.md, the window example: the set at chain address 5, stream 3. -/
theorem test_window : 5 * 0x40000 + 0x300 = 0x140300 := by decide

/-- 18_parity_and_fixity.md, the layout example. -/
def exampleGroup : Group :=
  { k := 8, m := 2, q := 1000000, seed := 5, members := List.replicate 4 {} ++ [{ base := 2000000 }] ++ List.replicate 7 {} }
theorem test_group_place : exampleGroup.place 1000003 = (125000, 3) := by decide +kernel
theorem test_group_coprimes : coprimes 12 = [1, 5, 7, 11] := by decide +kernel
theorem test_group_lsn : (exampleGroup.memberAt 125000 3, exampleGroup.lsnAt 125000 3) = (4, 2104163) := by decide +kernel
theorem test_group_members : exampleGroup.stripeMembers 125000 = [1, 6, 11, 4, 9, 2, 7, 0, 5, 10] := by decide +kernel
theorem test_cauchy : cauchy 0 0 = 0x47 := by decide +kernel

/-- 18_parity_and_fixity.md: the CRC-64 of "123456789". -/
theorem test_crc64 : crcMsb 64 0x42F0E1EBA9EA3693 0 [0x31#8, 0x32#8, 0x33#8, 0x34#8, 0x35#8, 0x36#8, 0x37#8, 0x38#8, 0x39#8]
    = 0x6C40DF5F0B497347 := by decide +kernel

/-- 06_control_law_engine.md Table 6-4, the operations' results by IEEE 754: 1.5 + 2.25 is 3.75; 1 ÷ 0 saturates with SATM;
the largest number doubled overflows to infinity without it. -/
theorem test_cle_add : (laneOp .add {} false 0x3FC00000 0x40100000 0).val = 0x40700000 := by decide +kernel
theorem test_cle_div_zero : (laneOp .div { satm := true } false 0x3F800000 0 0).val = 0x7F7FFFFF := by decide +kernel
theorem test_cle_overflow : (laneOp .mul {} false 0x7F7FFFFF 0x40000000 0).val = 0x7F800000 := by decide +kernel
theorem test_cle_sqrt : (laneOp .sqrt {} false 0x40000000 0 0).val = 0x3FB504F3 := by decide +kernel

/-- The step of a queue of one command, and of an empty queue. -/
theorem test_step_takes_front : step { unit id with pending := [.spnDirWrite true] } = exec (.spnDirWrite true) (unit id) := rfl
theorem test_step_idle : step State.reset = .next State.reset := rfl

/-! The premises of the statements can be met: one theorem for each clause that has any. -/

/-- The premises of registerWrite in RegisterBusAccess can be met together. -/
theorem witness_registerWrite : ∃ (r : Reg) (v : DWord) (s : State), (r ∈ [Reg.PMU_THAW, Reg.PMU_FL, Reg.PMU_VIO, Reg.CLK_WDT, Reg.CLK_STAT, Reg.PMU_STAT]) :=
  ⟨Reg.PMU_THAW, 7#32, unit id, by decide +kernel⟩

/-- The premises of rcRead in RegisterBusAccess can be met together. -/
theorem witness_rcRead : ∃ (r : Reg) (s : State), (r ∈ [Reg.CLK_CNT_UNITRST, Reg.CLK_CNT_FWRST, Reg.CLK_CNT_UNLOCK, Reg.PMU_CNT_FROST, Reg.PMU_CNT_THAW, Reg.PMU_CNT_WAKE]) :=
  ⟨Reg.CLK_CNT_FWRST, unit fun d => d.bump .CLK_CNT_FWRST, by decide +kernel⟩

/-- The premises of opuIslandPowerUp in PowerIslands can be met together. -/
theorem witness_opuIslandPowerUp : ∃ (opu : Fin 4) (s : State), (s.dev.opuPresent opu = true) ∧ (s.dev.stage opu = .off) ∧ (s.dev.frost = false) ∧ (s.dev.mode ≠ 7 ∧ s.dev.mode ≠ 1) :=
  ⟨1, unitOff fun d => d.setMode 2, by decide +kernel⟩

/-- The premises of opuIslandReady in PowerIslands can be met together. -/
theorem witness_opuIslandReady : ∃ (opu : Fin 4) (s : State), (s.dev.stage opu = .powering) ∧ (s.dev.stalled = []) :=
  ⟨1, unitOff fun d => opuPowerUp 1 (d.setMode 2), by decide +kernel⟩

/-- The premises of opuIslandPowerDown in PowerIslands can be met together. -/
theorem witness_opuIslandPowerDown : ∃ (opu : Fin 4) (s : State), (s.dev.opuPresent opu = true) ∧ (s.dev.stage opu ≠ .off) ∧ (∀ n ∈ slicesOf opu, s.dev.fg .RCS_STAT_STATE n ≤ 1) :=
  ⟨2, unit id, by decide +kernel⟩

/-- The premises of islandOffAccess in PowerIslands can be met together. -/
theorem witness_islandOffAccess : ∃ (req : Fin 16) (write : Bool) (blk : Block) (off opu : Nat) (val : DWord) (s : State), (s.dev.regPath blk off = .opuOff opu) ∧ (s.dev.frost = false) ∧ (s.dev.mode ≠ 7 ∧ s.dev.mode ≠ 1) :=
  ⟨0, true, .rcs, 0x4000, 0, 7#32, unitOff fun d => d.setMode 3, by decide +kernel⟩

/-- The premises of islandPoweringAccess in PowerIslands can be met together. -/
theorem witness_islandPoweringAccess : ∃ (req : Fin 16) (blk : Block) (off opu : Nat) (val : DWord) (s : State), (s.dev.regPath blk off = .stall opu) :=
  ⟨0, .rcs, 0x4000, 0, 7#32, unitOff fun d => opuPowerUp 0 (d.setMode 3), by decide +kernel⟩

/-- The premises of frozenEntry in PowerIslands can be met together. -/
theorem witness_frozenEntry : ∃ (engine : Fin 6) (s : State), (s.dev.mode ≠ 7) ∧ (s.dev.is .CLE_STAT_HALT = false) :=
  ⟨2, unitOff fun d => d.setMode 4, by decide +kernel⟩

/-- The premises of servoMarkFound in SliceServoField can be met together. -/
theorem witness_servoMarkFound : ∃ (rcs : Fin 96) (wave : List Int) (o : Int) (s : State), ((sliceRun rcs wave s.dev).SearchDue rcs) ∧ ((sliceRun rcs wave s.dev).markAt rcs = some o) :=
  ⟨30, [], 3, servoUnit 4, by decide +kernel⟩

/-- The premises of servoMarkMissing in SliceServoField can be met together. -/
theorem witness_servoMarkMissing : ∃ (rcs : Fin 96) (wave : List Int) (s : State), ((sliceRun rcs wave s.dev).SearchDue rcs) ∧ ((sliceRun rcs wave s.dev).markAt rcs = none) :=
  ⟨30, [], { servoUnit 0 with dev := (servoUnit 0).dev.onSlice 30 fun x => { x with servo := List.replicate 400 {} } }, by decide +kernel⟩

/-- The premises of servoRecordPost in SliceServoField can be met together. -/
theorem witness_servoRecordPost : ∃ (rcs : Fin 96) (wave : List Int) (s : State), ((sliceRun rcs wave s.dev).RecordDue rcs) :=
  ⟨30, [], { servoUnit 0 with dev := (servoUnit 0).dev.onSlice 30 fun x => { x with servo := List.replicate 1200 {}, searched := true } }, by decide +kernel⟩

/-- The premises of agcUpdate in SliceServoField can be met together. -/
theorem witness_agcUpdate : ∃ (rcs : Fin 96) (wave : List Int) (lo hi : Int) (s : State), ((sliceRun rcs wave s.dev).PreambleOver rcs) ∧ (((sliceRun rcs wave s.dev).slice rcs).agc = some (lo, hi)) ∧ (((sliceRun rcs wave s.dev).slice rcs).agcMarked = false) ∧ ((sliceRun rcs wave s.dev).is .RCS_CTL_AGC_EN rcs = true) ∧ ((sliceRun rcs wave s.dev).fg .RCS_AGC_TARGET rcs ≠ 0) :=
  ⟨30, [], -50, 50, { servoUnit 0 with dev := (servoUnit 0).dev.onSlice 30 fun x => { x with place := 300, agc := some (-50, 50), agcDue := true } }, by decide +kernel⟩

/-- The premises of overRangeEvent in SliceServoField can be met together. -/
theorem witness_overRangeEvent : ∃ (rcs : Fin 96) (wave : List Int) (s : State), (s.dev.sliceRuns rcs = true) ∧ (s.dev.onReference rcs = false) :=
  ⟨30, [], servoUnit 0, by decide +kernel⟩

/-- The premises of timingLost in SliceServoField can be met together. -/
theorem witness_timingLost : ∃ (rcs : Fin 96) (wave : List Int) (s : State), (s.dev.sliceRuns rcs = true) ∧ (s.dev.onReference rcs = false) ∧ ((runPosted rcs (s.dev.through rcs wave) s.dev).timingIsLost rcs = true) ∧ (s.dev.fg .RCS_STAT_STATE rcs ≠ 4) :=
  ⟨30, [], { servoUnit 0 with dev := ((servoUnit 0).dev.onSlice 30 fun x => { x with above := 256 }).fs .RCS_STAT_STATE 3 30 }, by decide +kernel⟩

/-- The premises of rcsGapLatch in SliceSettings can be met together. -/
theorem witness_rcsGapLatch : ∃ (opu : Fin 4) (s : State), (s.dev.opuReady opu = true) :=
  ⟨2, unit fun d => (d.fs .RCS_FMT_CLASS 6 2).setMode 2, by decide +kernel⟩

/-- The premises of rcsNcoPresetNow in SliceSettings can be met together. -/
theorem witness_rcsNcoPresetNow : ∃ (rcs : Fin 96) (val : DWord) (s : State), (s.dev.pathOf .RCS_NCO_PRESET rcs 0 = .reg .RCS_NCO_PRESET rcs 0) ∧ (val.getLsbD 31 = true) :=
  ⟨95, 0x80800000#32, unit id, by decide +kernel⟩

/-- The premises of rcsNcoPresetLater in SliceSettings can be met together. -/
theorem witness_rcsNcoPresetLater : ∃ (rcs : Fin 96) (val : DWord) (s : State), (s.dev.pathOf .RCS_NCO_PRESET rcs 0 = .reg .RCS_NCO_PRESET rcs 0) ∧ (val.getLsbD 31 = false) :=
  ⟨0, 0x00800000#32, unit id, by decide +kernel⟩

/-- The premises of trimApply in SliceSettings can be met together. -/
theorem witness_trimApply : ∃ (rcs : Fin 96) (s : State), (s.dev.rcsPresent rcs = true) :=
  ⟨17, unit fun d => d.fs .RCS_AFE_GAIN 9 17, by decide +kernel⟩

/-- The premises of rcsTgtWriteGood in SliceSettings can be met together. -/
theorem witness_rcsTgtWriteGood : ∃ (rcs : Fin 96) (val : DWord) (s : State), (s.dev.pathOf .RCS_TGT rcs 0 = .reg .RCS_TGT rcs 0) ∧ (tgtOk val = true) :=
  ⟨17, 0x00C90089#32, unit id, by decide +kernel⟩

/-- The premises of rcsTgtWriteBad in SliceSettings can be met together. -/
theorem witness_rcsTgtWriteBad : ∃ (rcs : Fin 96) (val : DWord) (s : State), (s.dev.pathOf .RCS_TGT rcs 0 = .reg .RCS_TGT rcs 0) ∧ (tgtOk val = false) :=
  ⟨17, 0#32, unit id, by decide +kernel⟩

/-- The premises of commit in SliceSettings can be met together. -/
theorem witness_commit : ∃ (rcs : Fin 96) (s : State), (s.dev.pathOf .RCS_EQ_CTL rcs 0 = .reg .RCS_EQ_CTL rcs 0) ∧ (s.dev.capturing rcs = false) :=
  ⟨17, unit fun d => d.wr .RCS_EQA_S 5#32 17 3, by decide +kernel⟩

/-- The premises of commitPending in SliceSettings can be met together. -/
theorem witness_commitPending : ∃ (rcs : Fin 96) (s : State), (s.dev.pathOf .RCS_EQ_CTL rcs 0 = .reg .RCS_EQ_CTL rcs 0) ∧ (s.dev.capturing rcs = true) :=
  ⟨30, { servoUnit 0 with dev := (servoUnit 0).dev.onSlice 30 fun x => { x with zone := .field, begun := [{ pos := 0 }] } }, by decide +kernel⟩

/-- The premises of eqCommitApply in SliceSettings can be met together. -/
theorem witness_eqCommitApply : ∃ (rcs : Fin 96) (s : State), (s.dev.rcsPresent rcs = true) :=
  ⟨17, unit fun d => d.fs .RCS_CTL_TGT_SEL 1 17, by decide +kernel⟩

/-- The premises of deskewDrop in SliceSettings can be met together. -/
theorem witness_deskewDrop : ∃ (rcs : Fin 96) (wave : List Int) (n : Nat) (s : State), (s.dev.sliceRuns rcs = true) ∧ (s.dev.onReference rcs = false) ∧ (4096 < ((s.dev.beforeDrop rcs wave).slice rcs).buf.length) ∧ ((s.dev.beforeDrop rcs wave).behind (rcs.val / 24) = some n) :=
  ⟨30, [], 31, deskewUnit, by decide +kernel⟩

/-- The premises of sliceDisable in SliceSettings can be met together. -/
theorem witness_sliceDisable : ∃ (rcs : Fin 96) (s : State), (s.dev.pathOf .RCS_CTL rcs 0 = .reg .RCS_CTL rcs 0) ∧ (s.dev.is .RCS_CTL_EN rcs = true) ∧ ((s.dev.slice rcs).begun = [] ∧ (s.dev.slice rcs).capt = none) :=
  ⟨17, unit fun d => (d.fs .RCS_CTL_EN 1 17).fs .RCS_STAT_STATE 3 17, by decide +kernel⟩

/-- The premises of sliceDisableLater in SliceSettings can be met together. -/
theorem witness_sliceDisableLater : ∃ (rcs : Fin 96) (s : State), (s.dev.pathOf .RCS_CTL rcs 0 = .reg .RCS_CTL rcs 0) ∧ (s.dev.is .RCS_CTL_EN rcs = true) ∧ ((s.dev.slice rcs).begun ≠ []) :=
  ⟨17, unit fun d => ((d.fs .RCS_CTL_EN 1 17).fs .RCS_STAT_STATE 3 17).onSlice 17 fun x => { x with begun := [{ pos := 2 }] }, by decide +kernel⟩

/-- The premises of bandCheck in SliceSettings can be met together. -/
theorem witness_bandCheck : ∃ (opu : Fin 4) (wedge : Fin 432) (s : State), (s.dev.opuReady opu = true) :=
  ⟨1, 431, unit id, by decide +kernel⟩

/-- The premises of contextOpen in SheetContexts can be met together. -/
theorem witness_contextOpen : ∃ (index : Fin 1024) (s : State), (((dropPending index s.dev).ctxRec index).1.wanted ≠ []) :=
  ⟨3, unit fun d => { d.fs .DRC_STAT_STATE drcReady with dram := [(197, 40#8), (204, 6#8)] }, by decide +kernel⟩

/-- The premises of contextAbandon in SheetContexts can be met together. -/
theorem witness_contextAbandon : ∃ (index : Fin 1024) (s : State), ((s.dev.ctx index).open_ = true) :=
  ⟨9, unit fun d => d.onCtx 9 fun x => { x with open_ := true, results := [(1, .good)] }, by decide +kernel⟩

/-- The premises of contextClose in SheetContexts can be met together. -/
theorem witness_contextClose : ∃ (index : Fin 1024) (s : State), ((s.dev.ctx index).open_ = true) ∧ ((((dropPending index s.dev).ctxRec index).1.wanted.filter fun j =>
      !((((dropPending index s.dev).ctxRec index).2.ctx index).results.any fun e => e.1 == j)) = []) :=
  ⟨9, unit fun d => d.onCtx 9 fun x => { x with open_ := true }, by decide +kernel⟩

/-- The premises of sdeRingWrite in SheetContexts can be met together. -/
theorem witness_sdeRingWrite : ∃ (val : DWord) (s : State), (s.dev.is .SDE_CTL_EN = false) ∧ (s.dev.slices.any (fun e => e.2.capt.isSome) = false) :=
  ⟨0x00400003#32, unit id, by decide +kernel⟩

/-- The premises of sdeRingWriteEnabled in SheetContexts can be met together. -/
theorem witness_sdeRingWriteEnabled : ∃ (val : DWord) (s : State), (s.dev.is .SDE_CTL_EN = true) :=
  ⟨0x00400003#32, unit fun d => d.fs .SDE_CTL_EN 1, by decide +kernel⟩

/-- The premises of sdeTestModeWrite in SheetContexts can be met together. -/
theorem witness_sdeTestModeWrite : ∃ (test : Bool) (s : State), (s.dev.mode = 6) :=
  ⟨true, unit fun d => d.setMode 6, by decide +kernel⟩

/-- The premises of testEntryAdvance in SheetContexts can be met together. -/
theorem witness_testEntryAdvance : ∃ (off : Nat) (s : State), (s.dev.is .SDE_CTL_TEST = true) ∧ (s.dev.is .SDE_TEST_RAW = true) ∧ (s.dev.testEntry.2.ringPlace s.dev.testEntry.1.size = some off) :=
  ⟨0, unit fun d => (d.fs .SDE_CTL_TEST 1).fs .SDE_TEST_RAW 1, by decide +kernel⟩

/-- The premises of testEntryFull in SheetContexts can be met together. -/
theorem witness_testEntryFull : ∃ (s : State), (s.dev.is .SDE_CTL_TEST = true) ∧ (s.dev.is .SDE_TEST_RAW = true) ∧ (s.dev.testEntry.2.ringPlace s.dev.testEntry.1.size = none) :=
  ⟨unit fun d => ((d.fs .SDE_CTL_TEST 1).fs .SDE_TEST_RAW 1).onSde fun x => { x with ring := [{ off := 20, size := 64 }], wp := 10 }, by decide +kernel⟩

/-- The premises of leafCapture in SheetDecodeRun can be met together. -/
theorem witness_leafCapture : ∃ (rcs : Fin 96) (pos : Nat) (wave : List Int) (b : Begun) (s : State), ((sliceRun rcs wave s.dev).sliceRuns rcs = true) ∧ (((sliceRun rcs wave s.dev).slice rcs).capt = none) ∧ ((((sliceRun rcs wave s.dev).slice rcs).begun.find? fun b => b.pos == pos) = some b) ∧ (((sliceRun rcs wave s.dev).leafOutputs rcs pos).isSome = true) :=
  ⟨30, 0, [], { pos := 0 }, leafUnit, by decide +kernel⟩

/-- The premises of leafCaptureOff in SheetDecodeRun can be met together. -/
theorem witness_leafCaptureOff : ∃ (rcs : Fin 96) (pos : Nat) (wave : List Int) (s : State), (s.dev.sliceRuns rcs = false) :=
  ⟨30, 0, [], unit id, by decide +kernel⟩

/-- The premises of leafDeposit in SheetDecodeRun can be met together. -/
theorem witness_leafDeposit : ∃ (rcs : Fin 96) (x : Captured) (s : State), ((s.dev.slice rcs).capt = some x) ∧ ((s.dev.slice rcs).stopping = false) :=
  ⟨30, {}, unit fun d => d.onSlice 30 fun x => { x with capt := some {} }, by decide +kernel⟩

/-- The premises of sdeEntryConsume in SheetDecodeRun can be met together. -/
theorem witness_sdeEntryConsume : ∃ (e : DepEntry) (s : State), (s.dev.sde.lres = [] ∧ s.dev.sde.sres = []) ∧ ((s.dev.sde.ring.find? fun e => !e.matched) = some e) ∧ (s.dev.is .SDE_CTL_EN = true) ∧ (s.dev.is .SDE_STAT_FAULT = false) ∧ (s.dev.lresFull = false) ∧ ((let g := s.dev.bufGet 5 (s.dev.ringBase + e.off) 32
      let x := Descr.of g.1
      (g.2.matchLeaf x.side x.layer x.track x.slot x.leaf).1) = none) :=
  ⟨{ off := 0, size := 64 }, unit fun d => (d.fs .SDE_CTL_EN 1).onSde fun x => { x with ring := [{ off := 0, size := 64 }] }, by decide +kernel⟩

/-- The premises of sdeLeafStart in SheetDecodeRun can be met together. -/
theorem witness_sdeLeafStart : ∃ (idle : Nat) (r : ReadyLeaf) (s : State), (s.dev.sde.lres = [] ∧ s.dev.sde.sres = []) ∧ (s.dev.is .SDE_CTL_EN = true) ∧ (s.dev.is .SDE_STAT_FAULT = false) ∧ (s.dev.lresFull = false ∧ s.dev.sresFull = false) ∧ (s.dev.sde.run = none) ∧ (((bucketAdd (s.dev.fg .SDE_SCHED_BUCKET_CAP) idle s.dev).onSde fun x => { x with cycle := x.cycle + idle }).nextLeaf = some r) :=
  ⟨0, { entry := 0, ctx := 0, leaf := 5, cls := 2, rcs := 7, age := 4 }, unit fun d =>
      (d.fs .SDE_CTL_EN 1).onSde fun x => { x with ready := [{ entry := 0, ctx := 0, leaf := 5, cls := 2, rcs := 7, age := 4 }] }, by decide +kernel⟩

/-- The premises of sdeIterationDone in SheetDecodeRun can be met together. -/
theorem witness_sdeIterationDone : ∃ (u : DecodeRun) (s : State), (s.dev.sde.run = some u) :=
  ⟨{ base := 9 }, unit fun d => d.onSde fun x => { x with run := some { base := 9 } }, by decide +kernel⟩

/-- The premises of sdeIterationParity in SheetDecodeRun can be met together. -/
theorem witness_sdeIterationParity : ∃ (u : DecodeRun) (s : State), (s.dev.sde.run = some u) ∧ (u.retried = false) :=
  ⟨{ base := 9 }, unit fun d => d.onSde fun x => { x with run := some { base := 9 } }, by decide +kernel⟩

/-- The premises of outerDecode in SheetDecodeRun can be met together. -/
theorem witness_outerDecode : ∃ (i : Nat) (rest : List Nat) (s : State), (s.dev.sde.lres = [] ∧ s.dev.sde.sres = []) ∧ (s.dev.sde.done = i :: rest) ∧ (s.dev.is .SDE_CTL_EN = true) ∧ (s.dev.is .SDE_STAT_FAULT = false) ∧ (s.dev.sresFull = false) :=
  ⟨4, [6], unit fun d => (d.fs .SDE_CTL_EN 1).onSde fun x => { x with done := [4, 6] }, by decide +kernel⟩

/-- The premises of retryOther in RetryLadder can be met together. -/
theorem witness_retryOther : ∃ (opu : Fin 4) (psa : Nat) (canOther : Bool) (s : State), (s.dev.fg .SDE_SRES_CI ≠ s.dev.fg .SDE_SRES_PI) ∧ ((SheetResult.of (s.dev.bufGet 2 (s.dev.fg .SDE_SRES_BASE * 4096 + 64 * s.dev.fg .SDE_SRES_CI) 64).1).psa ≠ psa) :=
  ⟨0, 7, true, unit fun d => d.fs .SDE_SRES_PI 1, by decide +kernel⟩

/-- The premises of retryTake in RetryLadder can be met together. -/
theorem witness_retryTake : ∃ (opu : Fin 4) (psa : Nat) (canOther : Bool) (s : State), (s.dev.fg .SDE_SRES_CI ≠ s.dev.fg .SDE_SRES_PI) ∧ (let g := s.dev.bufGet 2 (s.dev.fg .SDE_SRES_BASE * 4096 + 64 * s.dev.fg .SDE_SRES_CI) 64
      g.2.ladder = [] ∧ g.2.sde.lres = [] ∧ g.2.sde.sres = [] ∧ g.2.ctxOwed psa = none ∧
      (SheetResult.of g.1).psa = psa ∧ (SheetResult.of g.1).status = shGood ∧ (SheetResult.of g.1).rung = 0) :=
  ⟨0, 0, true, unit fun d => (d.fs .SDE_SRES_PI 1).onFw fun w => { w with cmds := [{ id := 5, binds := [{ psa := some 0 }] }] }, by decide +kernel⟩

/-- The premises of nextAttemptRises in RetryLadder can be met together. -/
theorem witness_nextAttemptRises : ∃ (d : Dev) (opu psa : Nat) (canOther : Bool) (rung attempt : Nat), (rung < 7 ∧ attempt < rungAttempts rung) :=
  ⟨{}, 0, 0, true, 4, 3, by decide +kernel⟩

/-- The premises of recoveryLimitEarly in RetryLadder can be met together. -/
theorem witness_recoveryLimitEarly : ∃ (cmd : Nat) (x : Cmd) (s : State), (s.dev.cmd cmd = some x) ∧ (s.dev.limitOver x = false) :=
  ⟨5, { id := 5 }, unit fun d => d.onFw fun w => { w with cmds := [{ id := 5 }] }, by decide +kernel⟩

/-- The premises of recoveryLimitNone in RetryLadder can be met together. -/
theorem witness_recoveryLimitNone : ∃ (cmd : Nat) (x : Cmd) (s : State), (s.dev.cmd cmd = some x) ∧ (x.stage = .running) ∧ (s.dev.limitOver x = true) ∧ (s.dev.ladder = []) :=
  ⟨5, { id := 5, limitMs := 1 }, unit fun d => { d.onFw fun w => { w with cmds := [{ id := 5, limitMs := 1 }] } with qtime := 2000000 }, by decide +kernel⟩

/-- The premises of recoveryLimitOne in RetryLadder can be met together. -/
theorem witness_recoveryLimitOne : ∃ (cmd : Nat) (x : Cmd) (y : LadderSheet) (s : State), (s.dev.fw.cmds = [x]) ∧ (x.id = cmd) ∧ (x.stage = .running) ∧ (s.dev.limitOver x = true) ∧ (s.dev.ladder = [y]) ∧ (x.binds = [{ psa := some y.psa }]) :=
  ⟨5, { id := 5, limitMs := 1, binds := [{ psa := some 77 }] }, { psa := 77 },
      unit fun d => { d.onFw fun w => { w with cmds := [{ id := 5, limitMs := 1, binds := [{ psa := some 77 }] }] } with ladder := [{ psa := 77 }], qtime := 2000000 }, by decide +kernel⟩

/-- The premises of encodeJobBad in RecordingLanes can be met together. -/
theorem witness_encodeJobBad : ∃ (s : State), (s.dev.is .WSG_CTL_EN = true) ∧ (s.dev.fg .WSG_EJOB_CI ≠ s.dev.fg .WSG_EJOB_PI) :=
  ⟨unit fun d => (d.fs .WSG_CTL_EN 1).fs .WSG_EJOB_PI 1, by decide +kernel⟩

/-- The premises of wsgPlanLatch in RecordingLanes can be met together. -/
theorem witness_wsgPlanLatch : ∃ (opu : Fin 4) (s : State), (s.dev.opuReady opu = true) ∧ (s.dev.is .WSG_CTL_EN = true) ∧ ((s.dev.wsg opu).lanes = []) :=
  ⟨2, unit fun d => d.fs .WSG_CTL_EN 1, by decide +kernel⟩

/-- The premises of wsgPlanLatchAgain in RecordingLanes can be met together. -/
theorem witness_wsgPlanLatchAgain : ∃ (opu : Fin 4) (s : State), (s.dev.opuReady opu = true) ∧ (s.dev.is .WSG_CTL_EN = true) :=
  ⟨2, unit fun d => (d.fs .WSG_CTL_EN 1).onWsg 2 fun g => { g with lanes := [{ frame := some 3 }] }, by decide +kernel⟩

/-- The premises of ldStopRelease in RecordingLanes can be met together. -/
theorem witness_ldStopRelease : ∃ (opu : Fin 4) (s : State), (s.dev.opuReady opu = true) ∧ (s.dev.ldStop opu = false) ∧ ((s.dev.wsg opu).enableAsked = false ∧ (s.dev.wsg opu).fwQueue.length < 16) :=
  ⟨2, unit id, by decide +kernel⟩

/-- The premises of frameRecord in RecordingLanes can be met together. -/
theorem witness_frameRecord : ∃ (opu : Fin 4) (lane : Fin 12) (pos fields : Nat) (l : Lane) (s : State), ((s.dev.opuFw opu).opcBand = none) ∧ ((s.dev.wsg opu).lanes[lane.val]? = some l) ∧ (l.plans (leavesOf (fmtStrength (s.dev.pickup opu).fmt))
      (slotsPerTrack (fmtClass (s.dev.pickup opu).fmt) (fmtStrength (s.dev.pickup opu).fmt)) pos = true) ∧ (s.dev.gateOpen opu lane = true) ∧ (l.frame = none ∧ l.last ≠ some pos) ∧ (0 < fields ∧ fields < 8) ∧ (∀ i < fields, wedgePasses (s.dev.slice (24 * opu.val + lane.val)) l (s.dev.firstField opu pos + i) = true) :=
  ⟨1, 0, 0, 1, { hold := [4096], track := 5000 }, recUnit { hold := [4096], track := 5000 }, by decide +kernel⟩

/-- The premises of frameRecordWedge in RecordingLanes can be met together. -/
theorem witness_frameRecordWedge : ∃ (opu : Fin 4) (lane : Fin 12) (pos fields : Nat) (ends : Bool) (l : Lane) (s : State), ((s.dev.opuFw opu).opcBand = none) ∧ ((s.dev.wsg opu).lanes[lane.val]? = some l) ∧ (l.frame = none) ∧ (0 < fields ∧ fields < 8) ∧ (wedgePasses (s.dev.slice (24 * opu.val + lane.val)) l (s.dev.firstField opu pos) = false) :=
  ⟨1, 0, 0, 1, true, { hold := [4096], track := 77 }, recUnit { hold := [4096], track := 77 }, by decide +kernel⟩

/-- The premises of frameRecordEnd in RecordingLanes can be met together. -/
theorem witness_frameRecordEnd : ∃ (opu : Fin 4) (lane : Fin 12) (pos fields : Nat) (l : Lane) (s : State), ((s.dev.opuFw opu).opcBand = none) ∧ ((s.dev.wsg opu).lanes[lane.val]? = some l) ∧ (l.plans (leavesOf (fmtStrength (s.dev.pickup opu).fmt))
      (slotsPerTrack (fmtClass (s.dev.pickup opu).fmt) (fmtStrength (s.dev.pickup opu).fmt)) pos = true) ∧ (s.dev.gateOpen opu lane = true) ∧ (l.frame = some pos ∧ l.last ≠ some pos) ∧ (0 < fields ∧ fields < 8) ∧ (∀ i < fields, wedgePasses (s.dev.slice (24 * opu.val + lane.val)) l (s.dev.firstField opu pos + i) = true) :=
  ⟨1, 0, 0, 1, { hold := [4096], track := 5000, frame := some 0 }, recUnit { hold := [4096], track := 5000, frame := some 0 }, by decide +kernel⟩

/-- The premises of frameRecordOpcLate in RecordingLanes can be met together. -/
theorem witness_frameRecordOpcLate : ∃ (opu : Fin 4) (lane : Fin 12) (pos fields : Nat) (ends : Bool) (s : State), ((s.dev.opuFw opu).opcBand ≠ none) ∧ (143 ≤ pos) :=
  ⟨1, 0, 150, 1, true, unit fun d => d.onOpuFw 1 fun f => { f with opcBand := some 3 }, by decide +kernel⟩

/-- The premises of laneInterrupt in RecordingLanes can be met together. -/
theorem witness_laneInterrupt : ∃ (opu : Fin 4) (lane : Fin 12) (sent pos : Nat) (l : Lane) (s : State), ((s.dev.wsg opu).lanes[lane.val]? = some l) ∧ (l.frame = some pos) ∧ (s.dev.gateOpen opu lane = false) :=
  ⟨1, 0, 9, 3, { frame := some 3 }, unit fun d => d.onWsg 1 fun g => { g with lanes := [{ frame := some 3 }] }, by decide +kernel⟩

/-- The premises of pause in RecordingLanes can be met together. -/
theorem witness_pause : ∃ (opu : Fin 4) (s : State), (s.dev.pathOf .WSG_OCTL opu 0 = .reg .WSG_OCTL opu 0) ∧ (s.dev.is .WSG_OCTL_PAUSE opu = false) ∧ (∀ l ∈ (s.dev.wsg opu).lanes, l.frame = none) :=
  ⟨1, unit fun d => d.onWsg 1 fun g => { g with lanes := [{ last := some 3 }] }, by decide +kernel⟩

/-- The premises of pauseRecording in RecordingLanes can be met together. -/
theorem witness_pauseRecording : ∃ (opu : Fin 4) (lane : Fin 12) (l : Lane) (s : State), (s.dev.pathOf .WSG_OCTL opu 0 = .reg .WSG_OCTL opu 0) ∧ (s.dev.is .WSG_OCTL_PAUSE opu = false) ∧ ((s.dev.wsg opu).lanes[lane.val]? = some l) ∧ (l.frame ≠ none) ∧ (s.dev.gateOpen opu lane = true) :=
  ⟨1, 0, { hold := [4096], track := 5000, frame := some 0 }, recUnit { hold := [4096], track := 5000, frame := some 0 }, by decide +kernel⟩

/-- The premises of wsgStop in RecordingLanes can be met together. -/
theorem witness_wsgStop : ∃ (opu : Fin 4) (s : State), (s.dev.pathOf .WSG_OCTL opu 0 = .reg .WSG_OCTL opu 0) :=
  ⟨1, unit fun d => d.onWsg 1 fun g => { g with lanes := [{ frame := some 3 }] }, by decide +kernel⟩

/-- The premises of train in RecordingLanes can be met together. -/
theorem witness_train : ∃ (opu : Fin 4) (s : State), (s.dev.pathOf .WSG_OCTL opu 0 = .reg .WSG_OCTL opu 0) :=
  ⟨1, unit id, by decide +kernel⟩

/-- The premises of ldcQueueFull in LaserDriverLink can be met together. -/
theorem witness_ldcQueueFull : ∃ (opu : Fin 4) (val : DWord) (s : State), (s.dev.pathOf .WSG_LDC_CMD opu 0 = .reg .WSG_LDC_CMD opu 0) ∧ (16 ≤ (s.dev.wsg opu).fwQueue.length) :=
  ⟨1, 0#32, unit fun d => d.onWsg 1 fun g => { g with fwQueue := List.replicate 16 {} }, by decide +kernel⟩

/-- The premises of ldcRefused in LaserDriverLink can be met together. -/
theorem witness_ldcRefused : ∃ (opu : Fin 4) (val : DWord) (s : State), (s.dev.pathOf .WSG_LDC_CMD opu 0 = .reg .WSG_LDC_CMD opu 0) ∧ ((s.dev.wsg opu).fwQueue.length < 16) ∧ (bitsOf val.toNat 26 2 = 0 ∧ bitsOf val.toNat 16 6 = 0x10) ∧ (s.dev.apcOwns opu (bitsOf val.toNat 22 4) = true) :=
  ⟨1, 0x00100000#32, unit fun d => d.fs .SLOT_CFG_EN 1 21, by decide +kernel⟩

/-- The premises of ldcFirmwareCmd in LaserDriverLink can be met together. -/
theorem witness_ldcFirmwareCmd : ∃ (opu : Fin 4) (val : DWord) (s : State), (s.dev.pathOf .WSG_LDC_CMD opu 0 = .reg .WSG_LDC_CMD opu 0) ∧ ((s.dev.wsg opu).fwQueue.length < 16) ∧ (bitsOf val.toNat 26 2 ≠ 0 ∨ bitsOf val.toNat 16 6 ≠ 0x10 ∨ s.dev.apcOwns opu (bitsOf val.toNat 22 4) = false) :=
  ⟨1, 0x00010000#32, unit id, by decide +kernel⟩

/-- The premises of ldcFrame in LaserDriverLink can be met together. -/
theorem witness_ldcFrame : ∃ (opu : Fin 4) (miso : Nat) (s : State), (s.dev.opuReady opu = true) ∧ ((s.dev.wsg opu).sent = none) :=
  ⟨1, 0, unit id, by decide +kernel⟩

/-- The premises of ldcFrameGood in LaserDriverLink can be met together. -/
theorem witness_ldcFrameGood : ∃ (opu : Fin 4) (miso : Nat) (p : LdcFrame) (s : State), (s.dev.opuReady opu = true) ∧ ((s.dev.wsg opu).sent = some p) ∧ (p.fw = true) ∧ (ldcCrc miso = miso % 256 ∧ bitsOf miso 38 2 ≠ 1 ∧ bitsOf miso 8 4 = p.seq) :=
  ⟨1, 0, { fw := true }, unit fun d => d.onWsg 1 fun g => { g with sent := some { fw := true } }, by decide +kernel⟩

/-- The premises of ldcFrameBad in LaserDriverLink can be met together. -/
theorem witness_ldcFrameBad : ∃ (opu : Fin 4) (miso : Nat) (p : LdcFrame) (s : State), (s.dev.opuReady opu = true) ∧ ((s.dev.wsg opu).sent = some p) ∧ (p.again = false) ∧ (ldcCrc miso ≠ miso % 256 ∨ bitsOf miso 38 2 = 1 ∨ bitsOf miso 8 4 ≠ p.seq) :=
  ⟨1, 1, {}, unit fun d => d.onWsg 1 fun g => { g with sent := some {} }, by decide +kernel⟩

/-- The premises of bandHold in RecordDecisions can be met together. -/
theorem witness_bandHold : ∃ (opu : Fin 4) (s : State), (s.dev.bandWork.AtBands opu) ∧ (((s.dev.bandWork.opuFw opu).plans.filter fun p => s.dev.bandWork.mode != 6 || s.dev.bandWork.copiesOnly p) = []) ∧ ((s.dev.bandWork.opuFw opu).running = true) :=
  ⟨1, unit fun d => (d.setSv 1 svTracking).onOpuFw 1 fun f => { f with running := true }, by decide +kernel⟩

/-- The premises of bandStart in RecordDecisions can be met together. -/
theorem witness_bandStart : ∃ (opu : Fin 4) (p : BandPlan) (rest : List BandPlan) (s : State), (s.dev.bandWork.AtBands opu) ∧ (s.dev.bandWork.mode ≠ 6) ∧ ((s.dev.bandWork.opuFw opu).plans = p :: rest) ∧ (s.dev.bandWork.canRecord opu = true ∧ s.dev.bandWork.opcIsDue opu p.key = false) ∧ (s.dev.bandWork.planReady p = true ∧ s.dev.bandWork.ctxRoom (p.cells.length + 96) = true ∧ s.dev.bandWork.paceOk opu (12 * p.band) = true) :=
  ⟨1, { band := 400, cells := [(0, 0, 3)] }, [], unit fun d => { ((d.setSv 1 svTracking).onOpuFw 1 fun f =>
      { f with plans := [{ band := 400, cells := [(0, 0, 3)] }], opcTemp := [(0, 360)] }).onFw fun w =>
      { w with versions := [{ order := 3, psa := some 9, stage := .planned, opu := 1, copyOf := some 4 }] } with qtime := 50000000 }, by decide +kernel⟩

/-- The premises of streamIdleTimeout in RecordDecisions can be met together. -/
theorem witness_streamIdleTimeout : ∃ (stream : Fin 16) (s : State), ((s.dev.fw.versions.any fun v => v.stream == stream.val && (v.stage == .admitted || v.stage == .encoding || v.stage == .planned)) = true) ∧ ((s.dev.stream stream).lastWrite + 50000000 ≤ s.dev.qtime) :=
  ⟨4, unit fun d => { d.onFw fun w => { w with versions := [{ stream := 4 }] } with qtime := 60000000 }, by decide +kernel⟩

/-- The premises of verifyResultNone in RecordDecisions can be met together. -/
theorem witness_verifyResultNone : ∃ (s : State), (s.dev.fg .SDE_LRES_CI ≠ s.dev.fg .SDE_LRES_PI) ∧ (let g := s.dev.bufGet 2 (s.dev.fg .SDE_LRES_BASE * 4096 + 32 * s.dev.fg .SDE_LRES_CI) 32
      g.2.sde.lres = [] ∧ g.2.sde.sres = [] ∧ (g.2.ctx (LeafVerdict.of g.1).ctx).mode ≠ 1) :=
  ⟨unit fun d => d.fs .SDE_LRES_PI 1, by decide +kernel⟩

/-- The premises of verifyResultPass in RecordDecisions can be met together. -/
theorem witness_verifyResultPass : ∃ (v : Version) (s : State), (s.dev.fg .SDE_LRES_CI ≠ s.dev.fg .SDE_LRES_PI) ∧ (v.stage = .recorded ∧ v.psa = some 0 ∧ v.judged = [] ∧ v.bad = false ∧ v.owes = none) ∧ (let g := s.dev.bufGet 2 (s.dev.fg .SDE_LRES_BASE * 4096 + 32 * s.dev.fg .SDE_LRES_CI) 32
      let x := LeafVerdict.of g.1
      g.2.fw.versions = [v] ∧ g.2.sde.lres = [] ∧ g.2.sde.sres = [] ∧ (g.2.ctx x.ctx).psa = 0 ∧ (g.2.ctx x.ctx).mode = 1 ∧
      x.passes (g.2.rawMax (strengthAt (g.2.sideInfo 0).strength 0).level) = true ∧
      leavesOf (strengthAt (g.2.sideInfo 0).strength 0) ≠ 1 ∧ ∀ o ∈ g.2.opus, (g.2.opuFw o).plans = []) :=
  ⟨{ stage := .recorded, psa := some 0 }, unit fun d => { ((d.fs .SDE_LRES_PI 1).fs .DRC_STAT_STATE drcReady).onCtx 0 (fun x => { x with mode := 1 }) with
      dram := [(2, 0x89#8), (5, 0x10#8)], fw := { d.fw with versions := [{ stage := .recorded, psa := some 0 }] } }, by decide +kernel⟩

/-- The premises of neighbourJudgeNone in RecordDecisions can be met together. -/
theorem witness_neighbourJudgeNone : ∃ (i : Nat) (s : State), (s.dev.fg .SDE_SRES_CI ≠ s.dev.fg .SDE_SRES_PI) ∧ (let g := s.dev.sheetNext
      let c := g.2.ctxRec i
      g.2.ctxOwed g.1.psa = some i ∧ c.1.mode = 2 ∧ g.2.fw.versions = [] ∧ g.2.sde.lres = [] ∧ g.2.sde.sres = [] ∧
      g.2.isMapped g.1.psa = false) :=
  ⟨4, nbrUnit id, by decide +kernel⟩

/-- The premises of neighbourJudgePass in RecordDecisions can be met together. -/
theorem witness_neighbourJudgePass : ∃ (i : Nat) (v : Version) (s : State), (s.dev.fg .SDE_SRES_CI ≠ s.dev.fg .SDE_SRES_PI) ∧ (let g := s.dev.sheetNext
      let c := g.2.ctxRec i
      g.2.ctxOwed g.1.psa = some i ∧ c.1.mode = 2 ∧ g.2.fw.versions = [v] ∧ g.2.sde.lres = [] ∧ g.2.sde.sres = [] ∧
      v.psa = some g.1.psa ∧ v.stage = .verified ∧ g.1.status ≤ 1 ∧ g.1.f ≤ 1 ∧
      (g.2.ctx i).maxRaw ≤ 2 * g.2.rawMax (strengthAt (g.2.sideInfo (psaSide g.1.psa)).strength (psaTrack g.1.psa)).level) :=
  ⟨4, { order := 3, psa := some 0, stage := .verified }, nbrUnit fun w => { w with versions := [{ order := 3, psa := some 0, stage := .verified }] }, by decide +kernel⟩

/-- The premises of neighbourJudgeEarly in RecordDecisions can be met together. -/
theorem witness_neighbourJudgeEarly : ∃ (i : Nat) (v : Version) (s : State), (s.dev.fg .SDE_SRES_CI ≠ s.dev.fg .SDE_SRES_PI) ∧ (let g := s.dev.sheetNext
      let c := g.2.ctxRec i
      g.2.ctxOwed g.1.psa = some i ∧ c.1.mode = 2 ∧ g.2.fw.versions = [v] ∧ g.2.sde.lres = [] ∧ g.2.sde.sres = [] ∧
      v.psa = some g.1.psa ∧ v.stage = .recorded ∧ g.1.status ≤ 1 ∧ g.1.f ≤ 1 ∧
      (g.2.ctx i).maxRaw ≤ 2 * g.2.rawMax (strengthAt (g.2.sideInfo (psaSide g.1.psa)).strength (psaTrack g.1.psa)).level) :=
  ⟨4, { order := 3, psa := some 0, stage := .recorded }, nbrUnit fun w => { w with versions := [{ order := 3, psa := some 0, stage := .recorded }] }, by decide +kernel⟩

/-- The premises of closingRevolution in RecordDecisions can be met together. -/
theorem witness_closingRevolution : ∃ (opu : Fin 4) (s : State), ((s.dev.opuFw opu).running = true) ∧ (s.dev.classE = false) :=
  ⟨1, unit fun d => (d.onOpuFw 1 fun f => { f with running := true }).onFw fun w => { w with disc := { w.disc with mediaClass := 0 } }, by decide +kernel⟩

/-- The premises of closingRevolutionE in RecordDecisions can be met together. -/
theorem witness_closingRevolutionE : ∃ (opu : Fin 4) (s : State), ((s.dev.opuFw opu).running = true ∧ (s.dev.opuFw opu).closing = true) ∧ (s.dev.classE = true ∧ s.dev.frost = false ∧ s.dev.is .PMU_STAT_THAWING = false) ∧ (s.dev.canServe opu = true ∧ s.dev.opuReady opu = true) ∧ (s.dev.paceOk opu (12 * ((s.dev.opuFw opu).lastBand - 1)) = true ∧ s.dev.ctxRoom 192 = true) :=
  ⟨1, unit fun d => (d.onOpuFw 1 fun f => { f with running := true, closing := true, lastBand := 400 }).onFw fun w => { w with disc := { w.disc with mediaClass := 1 } }, by decide +kernel⟩

/-- The premises of opcRun in RecordDecisions can be met together. -/
theorem witness_opcRun : ∃ (opu : Fin 4) (s : State), (s.dev.opcStarts opu (s.dev.opcKeyOf opu) = true) ∧ (s.dev.classE = true ∨ sparseGet 0 s.dev.fw.opcNext (s.dev.opcKeyOf opu) < 84) ∧ (s.dev.paceOk opu (24 + 12 * (sparseGet 0 s.dev.fw.opcNext (s.dev.opcKeyOf opu) % 84)) = true ∧ s.dev.ctxRoom 48 = true) :=
  ⟨1, opcUnit 83, by decide +kernel⟩

/-- The premises of opcRunUsed in RecordDecisions can be met together. -/
theorem witness_opcRunUsed : ∃ (opu : Fin 4) (s : State), (s.dev.opcStarts opu (s.dev.opcKeyOf opu) = true) ∧ (s.dev.classE = false ∧ 84 ≤ sparseGet 0 s.dev.fw.opcNext (s.dev.opcKeyOf opu)) ∧ (s.dev.fw.opcFull.contains (s.dev.opcKeyOf opu) = false) :=
  ⟨1, opcUnit 84, by decide +kernel⟩

/-- The premises of opcEvaluate in RecordDecisions can be met together. -/
theorem witness_opcEvaluate : ∃ (opu : Fin 4) (band : Nat) (s : State), ((s.dev.opuFw opu).opcBand = some band) ∧ (sparseGet [] (s.dev.opuFw opu).opcAgain (s.dev.opuFw opu).opcKey = []) :=
  ⟨1, 5, unit fun d => d.onOpuFw 1 fun f => { f with opcBand := some 5 }, by decide +kernel⟩

/-- The premises of microword in Microwords can be met together. -/
theorem witness_microword : ∃ (p : Instr × CleOp) (x : CleSample) (w : Word) (s : State), (p ∈ microOps) ∧ (s.dev.Runs p.2 x w) ∧ (mwFault s.dev x w = none) ∧ (mwIop w = 0 ∧ mwSeq w = 0 ∧ mwMop w < 2) :=
  ⟨(.add, .add), { slot := 8, phase := .running, pc := 5 }, BitVec.ofNat 128 (2 <<< 120), unit fun d =>
      (d.fs .CLE_CTL_EN 1).onEng fun e => { e with cs := [(5, BitVec.ofNat 128 (2 <<< 120))], samples := [{ slot := 8, phase := .running, pc := 5 }] }, by decide +kernel⟩

/-- The premises of sequence in Microwords can be met together. -/
theorem witness_sequence : ∃ (p : Instr × CleOp) (x : CleSample) (w : Word) (s : State), (p ∈ microOps) ∧ (s.dev.Runs p.2 x w) ∧ (mwFault s.dev x w = none) ∧ (mwIop w = 0 ∧ mwMop w < 2 ∧ mwField w 35 2 = 0 ∧ (mwSeq w = 1 ∨ mwSeq w = 3 ∨ mwSeq w = 4)) :=
  ⟨(.nop, .nop), { slot := 8, phase := .running, pc := 5 }, BitVec.ofNat 128 (3 <<< 55), unit fun d =>
      (d.fs .CLE_CTL_EN 1).onEng fun e => { e with cs := [(5, BitVec.ofNat 128 (3 <<< 55))], samples := [{ slot := 8, phase := .running, pc := 5 }] }, by decide +kernel⟩

/-- The premises of branch in Microwords can be met together. -/
theorem witness_branch : ∃ (p : Instr × CleOp) (x : CleSample) (w : Word) (s : State), (p ∈ microOps) ∧ (s.dev.Runs p.2 x w) ∧ (mwFault s.dev x w = none) ∧ (mwIop w = 0 ∧ mwMop w < 2 ∧ mwSeq w = 2) :=
  ⟨(.nop, .nop), { slot := 8, phase := .running, pc := 5 }, BitVec.ofNat 128 (2 <<< 55), unit fun d =>
      (d.fs .CLE_CTL_EN 1).onEng fun e => { e with cs := [(5, BitVec.ofNat 128 (2 <<< 55))], samples := [{ slot := 8, phase := .running, pc := 5 }] }, by decide +kernel⟩

/-- The premises of microwordDone in Microwords can be met together. -/
theorem witness_microwordDone : ∃ (p : Instr × CleOp) (x : CleSample) (w : Word) (s : State), (p ∈ microOps) ∧ (s.dev.Runs p.2 x w) ∧ (mwFault s.dev x w = none) ∧ (mwIop w = 0 ∧ mwMop w < 2 ∧ mwSeq w = 5) ∧ (∀ n : Fin 80, (s.dev.slot n).ticked = false) :=
  ⟨(.nop, .nop), { slot := 8, phase := .running, pc := 5 }, BitVec.ofNat 128 (5 <<< 55), unit fun d =>
      (d.fs .CLE_CTL_EN 1).onEng fun e => { e with cs := [(5, BitVec.ofNat 128 (5 <<< 55))], samples := [{ slot := 8, phase := .running, pc := 5 }] }, by decide +kernel⟩

/-- The premises of microwordFault in Microwords can be met together. -/
theorem witness_microwordFault : ∃ (p : Instr × CleOp) (x : CleSample) (w : Word) (cause : Nat) (s : State), (p ∈ microOps) ∧ (s.dev.Runs p.2 x w) ∧ (x.slot < 72 ∧ sparseGet [] s.dev.fw.bankWaits x.slot = []) ∧ (mwFault s.dev x w = some cause) :=
  ⟨(.div, .div), { slot := 71, phase := .running, pc := 5 }, BitVec.ofNat 128 (7 <<< 120), 3, unit fun d =>
      (d.fs .CLE_CTL_EN 1).onEng fun e => { e with cs := [(5, BitVec.ofNat 128 (7 <<< 120))], samples := [{ slot := 71, phase := .running, pc := 5 }] }, by decide +kernel⟩

/-- The premises of slotDisable in EngineTicks can be met together. -/
theorem witness_slotDisable : ∃ (slot : Fin 80) (s : State), (s.dev.slotPresent slot = true) :=
  ⟨8, unit fun d => d.fs .SLOT_CFG_EN 1 8, by decide +kernel⟩

/-- The premises of cleTick in EngineTicks can be met together. -/
theorem witness_cleTick : ∃ (slot : Fin 80) (s : State), (s.dev.engineOn = true) ∧ (s.dev.started slot = true) ∧ (bitsOf (s.dev.slot slot).cfg.toNat 5 2 ≠ 1) ∧ ((s.dev.slot slot).renew = false ∧ (s.dev.slot slot).ticked = false ∧ s.dev.hasSample slot = false) ∧ (∀ m : Fin 80, s.dev.started m = true → bitsOf (s.dev.slot m).cfg.toNat 5 2 ≠ 1) :=
  ⟨8, unit fun d => (d.fs .CLE_CTL_EN 1).fs .SLOT_CTL_STARTED 1 8, by decide +kernel⟩

/-- The premises of cleTickMerged in EngineTicks can be met together. -/
theorem witness_cleTickMerged : ∃ (slot : Fin 80) (s : State), (s.dev.engineOn = true) ∧ (s.dev.started slot = true) ∧ (bitsOf (s.dev.slot slot).cfg.toNat 5 2 ≠ 1) ∧ ((s.dev.slot slot).renew = false ∧ s.dev.hasSample slot = true ∧ s.dev.fg .SLOT_STAT_CONSEC slot < 3) ∧ (∀ m : Fin 80, s.dev.started m = true → bitsOf (s.dev.slot m).cfg.toNat 5 2 ≠ 1) :=
  ⟨8, unit fun d => ((d.fs .CLE_CTL_EN 1).fs .SLOT_CTL_STARTED 1 8).onEng fun e => { e with samples := [{ slot := 8 }] }, by decide +kernel⟩

/-- The premises of cleDispatch in EngineTicks can be met together. -/
theorem witness_cleDispatch : ∃ (spd : List (Fin 32 × Int)) (flips : Nat) (x : CleSample) (e : Dev) (s : State), (e = engineSince (spd.map fun p => (p.1.val, p.2)) flips s.dev) ∧ (e.engineOn = true ∧ e.runningSample = none) ∧ (e.nextReady = some x) ∧ (x.level < e.heldLevel) ∧ (x.slot < 72) ∧ (e.is .SLOT_CTL_PENDING x.slot = false) ∧ (sparseGet 0#128 e.eng.cs x.slot ≠ f31Word) :=
  ⟨[], 0, { slot := 71 }, dispUnit.dev, dispUnit, by decide +kernel⟩

/-- The premises of cleCorrected in EngineTicks can be met together. -/
theorem witness_cleCorrected : ∃ (spd : List (Fin 32 × Int)) (flips : Nat) (s : State), ((engineSince (spd.map fun p => (p.1.val, p.2)) flips s.dev).nextReady = none) ∧ (0 < flips) :=
  ⟨[], 3, unit id, by decide +kernel⟩

/-- The premises of microTrap in EngineTicks can be met together. -/
theorem witness_microTrap : ∃ (spd : List (Fin 32 × Int)) (flips : Nat) (r x : CleSample) (e : Dev) (s : State), (e = engineSince (spd.map fun p => (p.1.val, p.2)) flips s.dev) ∧ (e.engineOn = true ∧ e.runningSample = some r) ∧ (∀ y ∈ e.eng.samples, y.phase = .running → y = r) ∧ (e.nextReady = some x) ∧ (x.level < r.level) ∧ (x.slot < 72 ∧ x.slot ≠ r.slot) ∧ (e.is .SLOT_CTL_PENDING x.slot = false) ∧ (sparseGet 0#128 e.eng.cs x.slot ≠ f31Word) :=
  ⟨[], 0, { slot := 60, phase := .running, level := 2 }, { slot := 71, level := 1 }, trapUnit.dev, trapUnit, by decide +kernel⟩

/-- The premises of sampleResume in EngineTicks can be met together. -/
theorem witness_sampleResume : ∃ (x : CleSample) (s : State), (s.dev.engineOn = true) ∧ (x.phase = .running ∧ 1 ≤ x.level ∧ x.level ≤ 3 ∧ x.slot < 80 ∧ x.pc < 2 ^ 14 ∧ x.sticky < 2 ^ 7 ∧ x.lanes < 2 ^ 4 ∧ x.stores < 2 ^ 2 ∧ x.tcnt < 2 ^ 32) ∧ (x.stack.length ≤ 2 ∧ x.areg.length = 8) ∧ ((∀ a ∈ x.stack, a < 2 ^ 14) ∧ ∀ a ∈ x.areg, a < 2 ^ 14) ∧ (s.dev.eng.samples = [x]) :=
  ⟨{ slot := 60, phase := .running, level := 2, pc := 77, stack := [5, 9] }, unit fun d => (d.fs .CLE_CTL_EN 1).onEng fun e =>
      { e with samples := [{ slot := 60, phase := .running, level := 2, pc := 77, stack := [5, 9] }] }, by decide +kernel⟩

/-- The premises of cleHalt in EngineMemories can be met together. -/
theorem witness_cleHalt : ∃ (s : State), (s.dev.is .CLE_STAT_HALT = false) ∧ (s.dev.mode ≠ 7) :=
  ⟨unit id, by decide +kernel⟩

/-- The premises of swapStarted in EngineMemories can be met together. -/
theorem witness_swapStarted : ∃ (slot : Fin 80) (s : State), (s.dev.slotPresent slot = true) ∧ (s.dev.started slot = true) :=
  ⟨8, unit fun d => d.fs .SLOT_CTL_STARTED 1 8, by decide +kernel⟩

/-- The premises of swapIdle in EngineMemories can be met together. -/
theorem witness_swapIdle : ∃ (slot : Fin 80) (s : State), (s.dev.slotPresent slot = true) ∧ (s.dev.started slot = false ∧ s.dev.hasSample slot = false) :=
  ⟨8, unit id, by decide +kernel⟩

/-- The premises of csCommit in EngineMemories can be met together. -/
theorem witness_csCommit : ∃ (val : DWord) (s : State), (s.dev.fg .CLE_CS_ADDR < 0x3000 → s.dev.is .CLE_CTL_CS_LOCK = false) ∧ (0x3000 ≤ s.dev.fg .CLE_CS_ADDR → s.dev.csBusy = false) :=
  ⟨7#32, unit id, by decide +kernel⟩

/-- The premises of csCommitRefused in EngineMemories can be met together. -/
theorem witness_csCommitRefused : ∃ (val : DWord) (s : State), (s.dev.fg .CLE_CS_ADDR < 0x3000 ∧ s.dev.is .CLE_CTL_CS_LOCK = true) :=
  ⟨7#32, unit fun d => d.fs .CLE_CTL_CS_LOCK 1, by decide +kernel⟩

/-- The premises of cleEvtRead in EngineMemories can be met together. -/
theorem witness_cleEvtRead : ∃ (e : CleEvent) (rest : List CleEvent) (s : State), (s.dev.eng.events = e :: rest) :=
  ⟨{ code := 3, slot := 9 }, [], unit (postEvent 3 9 false), by decide +kernel⟩

/-- The premises of cleEvtEmpty in EngineMemories can be met together. -/
theorem witness_cleEvtEmpty : ∃ (s : State), (s.dev.eng.events = []) :=
  ⟨unit id, by decide +kernel⟩

/-- The premises of openSlotAudit in EngineMemories can be met together. -/
theorem witness_openSlotAudit : ∃ (s : State), (∀ i : Fin 8, s.dev.is .SLOT_CFG_EN (72 + i.val) = true → s.dev.fg .SLOT_CNT_MAXCYC (72 + i.val) ≤ declaredWcet s.dev i) :=
  ⟨unit id, by decide +kernel⟩

/-- The premises of openSlotStopped in EngineMemories can be met together. -/
theorem witness_openSlotStopped : ∃ (s : State), (s.dev.is .SLOT_CFG_EN 79 = true ∧ 7 < getField s.dev.fw.quejo 10 1) ∧ (declaredWcet s.dev 7 < s.dev.fg .SLOT_CNT_MAXCYC 79) ∧ (∀ i : Fin 7, s.dev.is .SLOT_CFG_EN (72 + i.val) = false) ∧ (s.dev.fw.openHeld = []) :=
  ⟨unit fun d => (((d.fs .SLOT_CFG_EN 1 79).fs .SLOT_CNT_MAXCYC 900 79).onFw fun w => { w with quejo := List.replicate 10 0#8 ++ [8#8] }), by decide +kernel⟩

/-- The premises of dmCommitRefused in RefusedDataMemory can be met together. -/
theorem witness_dmCommitRefused : ∃ (val : DWord) (n : Fin 80) (s : State), (let b := slotBank (if s.dev.started n = true then (s.dev.slot n).bank else s.dev.rd .SLOT_BANK n)
      let a := s.dev.fg .CLE_DM_ADDR
      let k := s.dev.fg .SLOT_CTL_ACTIVE n
      (s.dev.started n = true ∧ b.1 + k * b.2 ≤ a ∧ a < b.1 + (k + 1) * b.2) ∨
      (s.dev.is .SLOT_CTL_PENDING n = true ∧ b.1 ≤ a ∧ a < b.1 + 2 * b.2)) :=
  ⟨7#32, 8, unit fun d => (d.fs .SLOT_CTL_STARTED 1 8).onSlot 8 fun x => { x with bank := 0x20000#32 }, by decide +kernel⟩

/-- The premises of dmCommit in RefusedDataMemory can be met together. -/
theorem witness_dmCommit : ∃ (val : DWord) (s : State), (dmRefused (s.dev.wr .CLE_DM_DATA val 3) (s.dev.fg .CLE_DM_ADDR) = false) :=
  ⟨7#32, unit id, by decide +kernel⟩

/-- The premises of focusAcquire in ServoCommands can be met together. -/
theorem witness_focusAcquire : ∃ (opu : Fin 4) (side : Fin 2) (s : State), (s.dev.opuReady opu = true ∧ s.dev.jumping opu = false) ∧ (s.dev.sv opu svOp = 1 ∧ s.dev.sv opu svToken ≠ s.dev.sv opu svTaken) :=
  ⟨1, 0, unit fun d => (d.svSet 1 svOp 1).svSet 1 svToken 1, by decide +kernel⟩

/-- The premises of focusSweepFail in ServoCommands can be met together. -/
theorem witness_focusSweepFail : ∃ (opu : Fin 4) (s : State), (s.dev.svSt opu = svSweep) ∧ ((s.dev.servo opu).again = false ∧ (s.dev.servo opu).near = none) :=
  ⟨1, unit fun d => d.setSv 1 svSweep, by decide +kernel⟩

/-- The premises of focusSweepNear in ServoCommands can be met together. -/
theorem witness_focusSweepNear : ∃ (opu : Fin 4) (s : State), (s.dev.svSt opu = svSweep) ∧ ((s.dev.servo opu).near.isSome = true) :=
  ⟨1, unit fun d => (d.setSv 1 svSweep).onServo 1 fun x => { x with near := some 100 }, by decide +kernel⟩

/-- The premises of layerJump in ServoCommands can be met together. -/
theorem witness_layerJump : ∃ (opu : Fin 4) (s : State), (s.dev.opuReady opu = true ∧ s.dev.jumping opu = false) ∧ (s.dev.sv opu svOp = 2 ∧ s.dev.sv opu svToken ≠ s.dev.sv opu svTaken) ∧ ((s.dev.servo opu).focus = .closed) ∧ (s.dev.svSt opu ≠ svLayerJump) ∧ (s.dev.sv opu svLayer ≠ s.dev.sv opu svArgLayer) :=
  ⟨1, unit fun d => ((((d.svSet 1 svOp 2).svSet 1 svToken 1).svSet 1 svArgLayer 3).setSv 1 svTracking).onServo 1 fun x => { x with focus := .closed }, by decide +kernel⟩

/-- The premises of layerJumpRefused in ServoCommands can be met together. -/
theorem witness_layerJumpRefused : ∃ (opu : Fin 4) (l : List (Fin 8)) (s : State), (s.dev.opuReady opu = true ∧ s.dev.jumping opu = false) ∧ (s.dev.sv opu svOp = 2 ∧ s.dev.sv opu svToken ≠ s.dev.sv opu svTaken) ∧ ((s.dev.servo opu).focus ≠ .closed) :=
  ⟨1, [], unit fun d => (d.svSet 1 svOp 2).svSet 1 svToken 1, by decide +kernel⟩

/-- The premises of layerStepTimeout in ServoCommands can be met together. -/
theorem witness_layerStepTimeout : ∃ (opu : Fin 4) (s : State), (s.dev.svSt opu = svLayerJump) :=
  ⟨1, unit fun d => d.setSv 1 svLayerJump, by decide +kernel⟩

/-- The premises of trackAcquire in ServoCommands can be met together. -/
theorem witness_trackAcquire : ∃ (opu : Fin 4) (settled : Bool) (s : State), (s.dev.opuReady opu = true ∧ s.dev.jumping opu = false) ∧ (s.dev.sv opu svToken = s.dev.sv opu svTaken) ∧ (s.dev.svSt opu = svTrkAcq ∧ (s.dev.servo opu).focus = .closed ∧ (s.dev.servo opu).trkClosed = true) :=
  ⟨1, true, unit fun d => (d.setSv 1 svTrkAcq).onServo 1 fun x => { x with focus := .closed, trkClosed := true }, by decide +kernel⟩

/-- The premises of svSeek in ServoCommands can be met together. -/
theorem witness_svSeek : ∃ (opu : Fin 4) (s : State), (s.dev.opuReady opu = true ∧ s.dev.jumping opu = false) ∧ (s.dev.sv opu svOp = 4 ∧ s.dev.sv opu svToken ≠ s.dev.sv opu svTaken) ∧ ((s.dev.servo opu).focus = .closed ∧ s.dev.svSt opu = svTracking) ∧ (s.dev.sv opu svLayer = s.dev.sv opu svArgLayer) ∧ (160 < ((s.dev.sv opu svTrack : Int) - s.dev.fg .RCS_BAND_BASE_TRACK opu).natAbs) :=
  ⟨1, unit fun d => ((((d.svSet 1 svOp 4).svSet 1 svToken 1).svSet 1 svTrack 9000).setSv 1 svTracking).onServo 1 fun x => { x with focus := .closed }, by decide +kernel⟩

/-- The premises of svOpen in ServoCommands can be met together. -/
theorem witness_svOpen : ∃ (opu : Fin 4) (s : State), (s.dev.opuReady opu = true ∧ s.dev.jumping opu = false) ∧ (s.dev.sv opu svOp = 5 ∧ s.dev.sv opu svToken ≠ s.dev.sv opu svTaken) :=
  ⟨1, unit fun d => ((d.svSet 1 svOp 5).svSet 1 svToken 1).setSv 1 svTracking, by decide +kernel⟩

/-- The premises of trackHold in ServoCommands can be met together. -/
theorem witness_trackHold : ∃ (opu : Fin 4) (s : State), (s.dev.opuReady opu = true ∧ s.dev.jumping opu = false) ∧ (s.dev.sv opu svOp = 6 ∧ s.dev.sv opu svToken ≠ s.dev.sv opu svTaken) ∧ (s.dev.svSt opu = svTracking) :=
  ⟨1, unit fun d => ((d.svSet 1 svOp 6).svSet 1 svToken 1).setSv 1 svTracking, by decide +kernel⟩

/-- The premises of bandJump in ServoEvents can be met together. -/
theorem witness_bandJump : ∃ (opu : Fin 4) (s : State), (s.dev.opuReady opu = true ∧ s.dev.jumping opu = false) ∧ (s.dev.svSt opu = svTracking) ∧ ((s.dev.servo opu).hold0 = false ∧ (s.dev.servo opu).holding = false) ∧ (-24 ≤ signed 8 (s.dev.sv opu svNextJ) ∧ signed 8 (s.dev.sv opu svNextJ) ≤ 24) :=
  ⟨1, unit fun d => (d.setSv 1 svTracking).svSet 1 svNextJ 24, by decide +kernel⟩

/-- The premises of bandJumpHeld in ServoEvents can be met together. -/
theorem witness_bandJumpHeld : ∃ (opu : Fin 4) (s : State), (s.dev.opuReady opu = true ∧ s.dev.jumping opu = false) ∧ (s.dev.svSt opu = svTracking) ∧ ((s.dev.servo opu).hold0 = true ∨ (s.dev.servo opu).holding = true ∨ signed 8 (s.dev.sv opu svNextJ) < -24 ∨ 24 < signed 8 (s.dev.sv opu svNextJ)) :=
  ⟨1, unit fun d => (d.setSv 1 svTracking).svSet 1 svNextJ 25, by decide +kernel⟩

/-- The premises of landingGood in ServoEvents can be met together. -/
theorem witness_landingGood : ∃ (opu : Fin 4) (wedge : Fin 4) (s : State), (s.dev.opuReady opu = true ∧ s.dev.jumping opu = false) ∧ (s.dev.svSt opu = svTracking) ∧ ((s.dev.servo opu).landing = wedge.val ∧ s.dev.fg .RCS_BAND_RES_WEDGE_LO opu = wedge.val) ∧ (s.dev.fg .RCS_BAND_RES_UNKNOWN opu ≤ 12 ∧ s.dev.fg .RCS_BAND_RES_MISMATCH opu = 0) :=
  ⟨1, 2, unit fun d => ((d.setSv 1 svTracking).onServo 1 fun x => { x with landing := 2 }).fs .RCS_BAND_RES_WEDGE_LO 2 1, by decide +kernel⟩

/-- The premises of landingWait in ServoEvents can be met together. -/
theorem witness_landingWait : ∃ (opu : Fin 4) (wedge : Fin 3) (s : State), (s.dev.opuReady opu = true ∧ s.dev.jumping opu = false) ∧ (s.dev.svSt opu = svTracking) ∧ ((s.dev.servo opu).landing = wedge.val ∧ s.dev.fg .RCS_BAND_RES_WEDGE_LO opu = wedge.val) ∧ (12 < s.dev.fg .RCS_BAND_RES_UNKNOWN opu) :=
  ⟨1, 1, unit fun d => (((d.setSv 1 svTracking).onServo 1 fun x => { x with landing := 1 }).fs .RCS_BAND_RES_WEDGE_LO 1 1).fs .RCS_BAND_RES_UNKNOWN 13 1, by decide +kernel⟩

/-- The premises of loopLimitApc in ServoEvents can be met together. -/
theorem witness_loopLimitApc : ∃ (opu : Fin 4) (kind : Fin 11) (s : State), (s.dev.opuReady opu = true) ∧ (kind = 7 ∨ kind = 9) :=
  ⟨1, 9, unit id, by decide +kernel⟩

/-- The premises of loopLimitFault in ServoEvents can be met together. -/
theorem witness_loopLimitFault : ∃ (opu : Fin 4) (kind : Fin 11) (s : State), (s.dev.opuReady opu = true) ∧ (kind = 8 ∨ kind = 10) :=
  ⟨1, 8, unit fun d => d.setSv 1 svTracking, by decide +kernel⟩

/-- The premises of loopLimitFocus in ServoEvents can be met together. -/
theorem witness_loopLimitFocus : ∃ (opu : Fin 4) (s : State), (s.dev.opuReady opu = true) :=
  ⟨1, unit fun d => d.setSv 1 svTracking, by decide +kernel⟩

/-- The premises of opuFaultRestart in ServoEvents can be met together. -/
theorem witness_opuFaultRestart : ∃ (opu : Fin 4) (s : State), (s.dev.opuReady opu = true) ∧ (s.dev.opuPresent opu = true ∧ s.dev.svSt opu = svFault ∧ (s.dev.opuFw opu).withdrawn = false) ∧ (((s.dev.opuFw opu).faults.filter fun t => s.dev.qtime < t + 600 * second).length < 4) :=
  ⟨1, unit fun d => d.setSv 1 svFault, by decide +kernel⟩

/-- The premises of opuFaultRestartFocus in ServoEvents can be met together. -/
theorem witness_opuFaultRestartFocus : ∃ (opu : Fin 4) (s : State), (s.dev.opuReady opu = true ∧ (s.dev.opuFw opu).withdrawn = false) ∧ (s.dev.svSt opu = svOpen ∧ (s.dev.servo opu).restart = true) ∧ (s.dev.calWaits (3 * 2 ^ pairBit opu 0) = false) :=
  ⟨1, unit fun d => (d.setSv 1 svOpen).onServo 1 fun v => { v with restart := true }, by decide +kernel⟩

/-- The premises of bandLostLimit in ServoEvents can be met together. -/
theorem witness_bandLostLimit : ∃ (opu : Fin 4) (cmds : List Nat) (s : State), (s.dev.opuReady opu = true) ∧ (8 ≤ (s.dev.opuFw opu).lost) ∧ (s.dev.canRecord (otherOpu opu) = true) :=
  ⟨1, [], unit fun d => d.onOpuFw 1 fun f => { f with lost := 8 }, by decide +kernel⟩

/-- The premises of start in SpindleStart can be met together. -/
theorem witness_start : ∃ (s : State), (s.dev.is .SPN_CTL_EN = true ∧ s.dev.spnState = spnOff) ∧ (s.dev.is .SPN_STAT_BELOW30 = true ∧ s.dev.is .SPN_STAT_FROST_HOLD = false) :=
  ⟨unit fun d => (d.fs .SPN_CTL_EN 1).fs .SPN_STAT_BELOW30 1, by decide +kernel⟩

/-- The premises of startRefused in SpindleStart can be met together. -/
theorem witness_startRefused : ∃ (s : State), (s.dev.is .SPN_CTL_EN = true) ∧ (s.dev.spnState ≠ spnOff ∨ s.dev.is .SPN_STAT_BELOW30 = false ∨ s.dev.is .SPN_STAT_FROST_HOLD = true) :=
  ⟨unit fun d => (d.fs .SPN_CTL_EN 1).fs .SPN_STAT_STATE 4, by decide +kernel⟩

/-- The premises of alignEnd in SpindleStart can be met together. -/
theorem witness_alignEnd : ∃ (s : State), (s.dev.spnState = spnAlign) :=
  ⟨unit fun d => d.fs .SPN_STAT_STATE 1, by decide +kernel⟩

/-- The premises of couchReached in SpindleStart can be met together. -/
theorem witness_couchReached : ∃ (s : State), (s.dev.spnState = spnRamp) :=
  ⟨unit fun d => d.fs .SPN_STAT_STATE 2, by decide +kernel⟩

/-- The premises of couchTimeout in SpindleStart can be met together. -/
theorem witness_couchTimeout : ∃ (s : State), (s.dev.spnState = spnCouch) ∧ (s.dev.is .SPN_STAT_BELOW30 = false) :=
  ⟨unit fun d => (d.fs .SPN_STAT_STATE 3).fs .SPN_STAT_BELOW30 0, by decide +kernel⟩

/-- The premises of catch in SpindleStart can be met together. -/
theorem witness_catch : ∃ (s : State), (s.dev.spnState = spnCoast ∨ s.dev.spnState = spnOff) ∧ (s.dev.is .SPN_CTL_EN = true ∧ s.dev.is .SPN_STAT_FROST_HOLD = false) ∧ (16 * couchRpm (s.dev.rd .SPN_COUCH) ≤ s.dev.speed16) :=
  ⟨unit fun d => ((d.fs .SPN_CTL_EN 1).fs .SPN_STAT_STATE 5).fs .SPN_SPEED 30000, by decide +kernel⟩

/-- The premises of stop in SpindleStart can be met together. -/
theorem witness_stop : ∃ (s : State), (s.dev.spnState = spnRun) ∧ (s.dev.is .SPN_STAT_BELOW30 = false) :=
  ⟨unit fun d => (d.fs .SPN_STAT_STATE 4).fs .SPN_STAT_BELOW30 0, by decide +kernel⟩

/-- The premises of spnDirWrite in SpindleStart can be met together. -/
theorem witness_spnDirWrite : ∃ (dir : Bool) (s : State), (s.dev.is .SPN_CTL_DIR ≠ dir) ∧ (s.dev.spnState = spnOff ∧ s.dev.is .SPN_STAT_BELOW30 = true) :=
  ⟨true, unit fun d => d.fs .SPN_STAT_BELOW30 1, by decide +kernel⟩

/-- The premises of spnDirRefused in SpindleStart can be met together. -/
theorem witness_spnDirRefused : ∃ (dir : Bool) (s : State), (s.dev.is .SPN_CTL_DIR ≠ dir) ∧ (s.dev.spnState ≠ spnOff ∨ s.dev.is .SPN_STAT_BELOW30 = false) :=
  ⟨true, unit fun d => d.fs .SPN_STAT_STATE 4, by decide +kernel⟩

/-- The premises of bemfCrossing in SpindleStart can be met together. -/
theorem witness_bemfCrossing : ∃ (t : Nat) (phase : Fin 3) (rising : Bool) (angle samples : Nat) (s : State), (s.dev.is .SPN_CTL_EN = true ∧ s.dev.spnState = spnCouch) ∧ (phase.val = floatingPhase s.dev.spn.step ∧ crossingStep phase rising = expectedCrossing (s.dev.is .SPN_CTL_DIR) s.dev.spn.step) ∧ (inWindow s.dev.spn.soft angle = true) ∧ (s.dev.spn.good = 11) :=
  ⟨500000, 2, false, 3000, 3, unit fun d => ((d.fs .SPN_CTL_EN 1).fs .SPN_STAT_STATE 3).onSpn fun p => { p with good := 11, step := 0 }, by decide +kernel⟩

/-- The premises of commutation in SpindleStart can be met together. -/
theorem witness_commutation : ∃ (s : State), (s.dev.spnState = spnRun ∧ s.dev.spn.comm.isSome = true) :=
  ⟨unit fun d => (d.fs .SPN_STAT_STATE 4).onSpn fun p => { p with comm := some 5 }, by decide +kernel⟩

/-- The premises of stepMissed in SpindleStart can be met together. -/
theorem witness_stepMissed : ∃ (s : State), (s.dev.spnState = spnRun ∧ s.dev.spn.comm = none) :=
  ⟨unit fun d => (d.fs .SPN_STAT_STATE 4).fs .SPN_STAT_BELOW30 0, by decide +kernel⟩

/-- The premises of below30Timeout in SpindleStart can be met together. -/
theorem witness_below30Timeout : ∃ (s : State), (s.dev.spnState = spnCoast ∨ s.dev.spnState = spnBrake) :=
  ⟨unit fun d => d.fs .SPN_STAT_STATE 5, by decide +kernel⟩

/-- The premises of dutyApply in SpindleProtection can be met together. -/
theorem witness_dutyApply : ∃ (age : Nat) (cu cv : Int) (angle : Nat) (v : Int) (s : State), (spnDriven s.dev.spnState = true ∧ s.dev.is .SPN_STAT_FROST_HOLD = false) ∧ (100 ≤ age ∧ s.dev.spn.written = some v) :=
  ⟨100, 5, 6, 0, -30000, unit fun d => (d.fs .SPN_STAT_STATE 4).onSpn fun p => { p with written := some (-30000) }, by decide +kernel⟩

/-- The premises of dutyYoung in SpindleProtection can be met together. -/
theorem witness_dutyYoung : ∃ (age : Nat) (cu cv : Int) (angle : Nat) (s : State), (age < 100) :=
  ⟨99, 5, 6, 0, unit fun d => d.fs .SPN_STAT_STATE 4, by decide +kernel⟩

/-- The premises of dutyStale in SpindleProtection can be met together. -/
theorem witness_dutyStale : ∃ (s : State), (spnDriven s.dev.spnState = true ∧ s.dev.is .SPN_STAT_BELOW30 = false) :=
  ⟨unit fun d => (d.fs .SPN_STAT_STATE 4).fs .SPN_STAT_BELOW30 0, by decide +kernel⟩

/-- The premises of overcurrent in SpindleProtection can be met together. -/
theorem witness_overcurrent : ∃ (iu iv : Int) (s : State), (s.dev.is .SPN_CTL_EN = true) ∧ (s.dev.fg .SPN_LIMIT_OC_CYC < iu.natAbs ∧ s.dev.fg .SPN_LIMIT_OC_TRIP < iu.natAbs) :=
  ⟨-40000, 0, unit fun d => d.fs .SPN_CTL_EN 1, by decide +kernel⟩

/-- The premises of overspeed in SpindleProtection can be met together. -/
theorem witness_overspeed : ∃ (s : State), (s.dev.is .SPN_CTL_EN = true ∧ s.dev.is .SPN_STAT_BELOW30 = false) ∧ (16 * s.dev.fg .SPN_OVSP < s.dev.speed16) :=
  ⟨unit fun d => ((d.fs .SPN_CTL_EN 1).fs .SPN_STAT_BELOW30 0).fs .SPN_SPEED 16777215, by decide +kernel⟩

/-- The premises of clearFault in SpindleProtection can be met together. -/
theorem witness_clearFault : ∃ (s : State), (s.dev.is .SPN_STAT_FROST_HOLD = false ∧ s.dev.is .SPN_STAT_BELOW30 = false) ∧ (s.dev.spnState = spnFault) :=
  ⟨unit fun d => (d.fs .SPN_STAT_STATE 7).fs .SPN_STAT_BELOW30 0, by decide +kernel⟩

/-- The premises of startFailRetry in SpindleProtection can be met together. -/
theorem witness_startFailRetry : ∃ (s : State), (s.dev.is .SPN_STAT_START_FAIL = true ∧ s.dev.is .SPN_STAT_BELOW30 = true ∧ s.dev.spnState = spnOff) ∧ (s.dev.fw.spnWithdrawn = false ∧ s.dev.fw.spnTries < 2) ∧ (s.dev.clState = clClamped) ∧ (s.dev.is .SPN_CTL_EN = true ∧ s.dev.is .SPN_STAT_FROST_HOLD = false) :=
  ⟨unit fun d => (((d.fs .SPN_STAT_START_FAIL 1).fs .SPN_STAT_BELOW30 1).fs .SPN_CTL_EN 1).fs .SLD_CL_STAT_STATE 3, by decide +kernel⟩

/-- The premises of spindleConditionHandle in SpindleProtection can be met together. -/
theorem witness_spindleConditionHandle : ∃ (s : State), (s.dev.fw.spnWithdrawn = false) ∧ (s.dev.spnState = spnRun) ∧ (bLt (bMul (bRat 1 100) (s.dev.sp 5)) (bAbs (bSub s.dev.rpm (s.dev.sp 5))) = false) :=
  ⟨unit fun d => (d.fs .SPN_STAT_STATE 4).onFw fun w => { w with spnHold := true }, by decide +kernel⟩

/-- The premises of syncLossHandled in SpindleProtection can be met together. -/
theorem witness_syncLossHandled : ∃ (s : State), (s.dev.fw.spnWithdrawn = false ∧ s.dev.is .SPN_STAT_SYNC_LOSS = true) ∧ ((s.dev.fw.spnLosses.filter fun t => s.dev.qtime ≤ t + 600 * second).length < 3) ∧ (s.dev.clState ≠ clClamped) :=
  ⟨unit fun d => d.fs .SPN_STAT_SYNC_LOSS 1, by decide +kernel⟩

/-- The premises of speedErrorTimeout in SpindleProtection can be met together. -/
theorem witness_speedErrorTimeout : ∃ (s : State), (s.dev.spnState = spnRun) ∧ (bLt (bMul (bRat 5 100) (s.dev.sp 5)) (bAbs (bSub s.dev.rpm (s.dev.sp 5))) = true) :=
  ⟨unit fun d => (d.fs .SPN_STAT_STATE 4).spSet 5 (bRat 600 1), by decide +kernel⟩

/-- The premises of readBandAdvance in SpindleProtection can be met together. -/
theorem witness_readBandAdvance : ∃ (opu : Fin 4) (s : State), (s.dev.mode = 4 ∧ s.dev.opuReady opu = true ∧ s.dev.svSt opu = svTracking) ∧ (s.dev.levelWrite.readRoom = 0 ∧ 0 < slotsOf (s.dev.sideInfo (opuSide opu)).strength (s.dev.fg .RCS_BAND_BASE_TRACK opu + 24)) :=
  ⟨1, unit fun d => ((d.setMode 4).setSv 1 svTracking).onFw fun w => { w with pages := [(1536, List.replicate 64 0#8)] }, by decide +kernel⟩

/-- The premises of sledTarget in SledAndClamp can be met together. -/
theorem witness_sledTarget : ∃ (opu : Fin 4) (cle : Bool) (target pos : Int) (speed : Nat) (s : State), (s.dev.opuReady opu = true ∧ s.dev.is .SLD_CTL_SRC opu ≠ cle) ∧ (s.dev.sldState opu = sldIdle) ∧ (signed 32 (s.dev.fg .SLD_LIM_MIN opu) ≤ target ∧ target ≤ signed 32 (s.dev.fg .SLD_LIM_MAX opu)) ∧ (sldRound (s.dev.fg .SLD_CTL_MSTEP opu) target ≠ s.dev.sldPos opu) :=
  ⟨1, true, 6400, 0, 0, unit fun d => (d.fs .SLD_STAT_STATE 1 1).fs .SLD_LIM_MAX 384000 1, by decide +kernel⟩

/-- The premises of sledTargetOther in SledAndClamp can be met together. -/
theorem witness_sledTargetOther : ∃ (opu : Fin 4) (cle : Bool) (target pos : Int) (speed : Nat) (s : State), (s.dev.is .SLD_CTL_SRC opu = cle) :=
  ⟨1, false, 6400, 0, 0, unit id, by decide +kernel⟩

/-- The premises of sledMoveDone in SledAndClamp can be met together. -/
theorem witness_sledMoveDone : ∃ (opu : Fin 4) (s : State), (s.dev.opuReady opu = true ∧ s.dev.sldState opu = sldMoving) ∧ (-2147483648 ≤ (s.dev.sled opu).target ∧ (s.dev.sled opu).target ≤ 2147483647) :=
  ⟨1, unit fun d => (d.fs .SLD_STAT_STATE 2 1).onSled 1 fun x => { x with target := -6400 }, by decide +kernel⟩

/-- The premises of sledIdleTimeout in SledAndClamp can be met together. -/
theorem witness_sledIdleTimeout : ∃ (opu : Fin 4) (s : State), (s.dev.sldState opu = sldIdle) :=
  ⟨1, unit fun d => d.fs .SLD_STAT_STATE 1 1, by decide +kernel⟩

/-- The premises of home in SledAndClamp can be met together. -/
theorem witness_home : ∃ (opu : Fin 4) (s : State), (s.dev.opuReady opu = true ∧ s.dev.sldState opu = sldIdle) :=
  ⟨1, unit fun d => d.fs .SLD_STAT_STATE 1 1, by decide +kernel⟩

/-- The premises of homeRefused in SledAndClamp can be met together. -/
theorem witness_homeRefused : ∃ (opu : Fin 4) (s : State), (s.dev.opuReady opu = true ∧ s.dev.sldState opu ≠ sldIdle) :=
  ⟨1, unit fun d => d.fs .SLD_STAT_STATE 2 1, by decide +kernel⟩

/-- The premises of homeStallDetect in SledAndClamp can be met together. -/
theorem witness_homeStallDetect : ∃ (opu : Fin 4) (duties : List Nat) (s : State), (s.dev.opuReady opu = true ∧ s.dev.sldState opu = sldHoming) ∧ ((s.dev.sled opu).home = .clear) ∧ (homeStalled (bitsOf (s.dev.sled opu).home1.toNat 24 4) duties = true) :=
  ⟨1, List.replicate 19 100 ++ [1, 1], unit fun d => (d.fs .SLD_STAT_STATE 3 1).onSled 1 fun x => { x with home := .clear, home1 := 0x08000000#32 }, by decide +kernel⟩

/-- The premises of homeFail in SledAndClamp can be met together. -/
theorem witness_homeFail : ∃ (opu : Fin 4) (steps : Nat) (s : State), (s.dev.opuReady opu = true ∧ s.dev.sldState opu = sldHoming) ∧ ((s.dev.sled opu).fails = 0) :=
  ⟨1, 5, unit fun d => d.fs .SLD_STAT_STATE 3 1, by decide +kernel⟩

/-- The premises of sldStop in SledAndClamp can be met together. -/
theorem witness_sldStop : ∃ (opu : Fin 4) (pos speed : Int) (s : State), (s.dev.opuReady opu = true ∧ s.dev.sldState opu = sldMoving) ∧ (speed < 0) ∧ (0 < openDiv (64 * speed.natAbs ^ 2) (2 * (100 * limitN 1 65535 (s.dev.fg .SLD_PROF_A_MAX opu)))) :=
  ⟨1, 100, -1000, unit fun d => d.fs .SLD_STAT_STATE 2 1, by decide +kernel⟩

/-- The premises of sldClearFault in SledAndClamp can be met together. -/
theorem witness_sldClearFault : ∃ (opu : Fin 4) (s : State), (s.dev.sldState opu = sldFault) :=
  ⟨1, unit fun d => d.fs .SLD_STAT_STATE 5 1, by decide +kernel⟩

/-- The premises of sledOvercurrent in SledAndClamp can be met together. -/
theorem witness_sledOvercurrent : ∃ (opu : Fin 4) (ma : Nat) (s : State), (s.dev.opuReady opu = true ∧ s.dev.is .SLD_CTL_EN opu = true) ∧ (s.dev.fg .SLD_SENSE_OC opu < ma) :=
  ⟨1, 5000, unit fun d => d.fs .SLD_CTL_EN 1 1, by decide +kernel⟩

/-- The premises of opuPark in SledAndClamp can be met together. -/
theorem witness_opuPark : ∃ (opu : Fin 4) (pos : Int) (speed : Nat) (s : State), (s.dev.opuReady opu = true ∧ s.dev.fg .SLD_STAT_POS_UNSURE opu = 0) :=
  ⟨1, 0, 0, unit fun d => (d.fs .SLD_STAT_STATE 1 1).fs .SLD_STAT_POS_UNSURE 0 1, by decide +kernel⟩

/-- The premises of clamp in ClampSequences can be met together. -/
theorem witness_clamp : ∃ (s : State), (s.dev.clState ≠ clFault ∧ s.dev.clState ≠ clClamped ∧ s.dev.clState ≠ clClamping) :=
  ⟨unit fun d => d.fs .SLD_CL_STAT_STATE 1, by decide +kernel⟩

/-- The premises of clampRefused in ClampSequences can be met together. -/
theorem witness_clampRefused : ∃ (s : State), (s.dev.clState = clFault) :=
  ⟨unit fun d => d.fs .SLD_CL_STAT_STATE 5, by decide +kernel⟩

/-- The premises of release in ClampSequences can be met together. -/
theorem witness_release : ∃ (s : State), (s.dev.clState ≠ clFault ∧ s.dev.clState ≠ clReleasing) ∧ (s.dev.spnState = spnOff ∧ s.dev.is .SPN_STAT_BELOW30 = true) :=
  ⟨unit fun d => (d.fs .SLD_CL_STAT_STATE 3).fs .SPN_STAT_BELOW30 1, by decide +kernel⟩

/-- The premises of releaseRefused in ClampSequences can be met together. -/
theorem witness_releaseRefused : ∃ (s : State), (s.dev.clState = clFault ∨ s.dev.spnState ≠ spnOff ∨ s.dev.is .SPN_STAT_BELOW30 = false) :=
  ⟨unit fun d => d.fs .SLD_CL_STAT_STATE 5, by decide +kernel⟩

/-- The premises of clampClearFault in ClampSequences can be met together. -/
theorem witness_clampClearFault : ∃ (s : State), (s.dev.clState = clFault) :=
  ⟨unit fun d => (d.fs .SLD_CL_STAT_STATE 5).fs .SLD_CL_STAT_CLAMP_HOME 1, by decide +kernel⟩

/-- The premises of discPresentRise in ClampSequences can be met together. -/
theorem witness_discPresentRise : ∃ (s : State), (s.dev.clState = clClamping) :=
  ⟨unit fun d => d.fs .SLD_CL_STAT_STATE 2, by decide +kernel⟩

/-- The premises of clampHomeRise in ClampSequences can be met together. -/
theorem witness_clampHomeRise : ∃ (s : State), (s.dev.clState = clReleasing) :=
  ⟨unit fun d => d.fs .SLD_CL_STAT_STATE 4, by decide +kernel⟩

/-- The premises of clampSeatDone in ClampSequences can be met together. -/
theorem witness_clampSeatDone : ∃ (s : State), (s.dev.clamp.seating = true) ∧ (s.dev.clState = clClamping ∨ s.dev.clState = clReleasing) :=
  ⟨unit fun d => (d.fs .SLD_CL_STAT_STATE 4).onClamp fun c => { c with seating := true }, by decide +kernel⟩

/-- The premises of clampLeaveTimeoutFallen in ClampSequences can be met together. -/
theorem witness_clampLeaveTimeoutFallen : ∃ (s : State), (s.dev.clState = clClamping ∧ s.dev.clamp.wasHome = true) :=
  ⟨unit fun d => (d.fs .SLD_CL_STAT_STATE 2).onClamp fun c => { c with wasHome := true }, by decide +kernel⟩

/-- The premises of clampLeaveTimeoutJam in ClampSequences can be met together. -/
theorem witness_clampLeaveTimeoutJam : ∃ (s : State), (s.dev.clState = clClamping ∧ s.dev.clamp.wasHome = true) :=
  ⟨unit fun d => (d.fs .SLD_CL_STAT_STATE 2).onClamp fun c => { c with wasHome := true }, by decide +kernel⟩

/-- The premises of clampMoveTimeout in ClampSequences can be met together. -/
theorem witness_clampMoveTimeout : ∃ (s : State), (s.dev.clState = clClamping ∧ s.dev.clamp.seating = false) :=
  ⟨unit fun d => d.fs .SLD_CL_STAT_STATE 2, by decide +kernel⟩

/-- The premises of discLost in ClampSequences can be met together. -/
theorem witness_discLost : ∃ (s : State), (s.dev.clState = clClamped) ∧ (s.dev.mode = 3 ∨ s.dev.mode = 4 ∨ s.dev.mode = 5) :=
  ⟨unit fun d => (d.fs .SLD_CL_STAT_STATE 3).setMode 3, by decide +kernel⟩

/-- The premises of calTrigger in CalibrationRuns can be met together. -/
theorem witness_calTrigger : ∃ (set : Nat) (s : State), (s.dev.calIdle = true ∧ s.dev.is .CAL_CTL_EN = true ∧ s.dev.frost = false) ∧ (s.dev.fg .CAL_PEND_PAIRS = 0 ∧ fusedPairs s.dev set ≠ 0) :=
  ⟨2 ^ 7 + 2 ^ 9, unit fun d => d.fs .CAL_CTL_EN 1, by decide +kernel⟩

/-- The premises of calStepStart in CalibrationRuns can be met together. -/
theorem witness_calStepStart : ∃ (g o : Nat) (rest : List (Nat × Nat)) (s : State), (s.dev.cal.ahead = (g, o) :: rest) ∧ (g ≤ 6 ∧ o ≤ 3) ∧ (s.dev.fg .CAL_STAT_STATE = 0 ∧ s.dev.mode ≠ 7 ∧ s.dev.mode ≠ 2) ∧ (calCondition s.dev g o = true) :=
  ⟨0, 1, [], unit fun d => (d.setMode 4).onCal fun c => { c with ahead := [(0, 1)] }, by decide +kernel⟩

/-- The premises of calStepDeferred in CalibrationRuns can be met together. -/
theorem witness_calStepDeferred : ∃ (g o : Nat) (next : Nat × Nat) (rest : List (Nat × Nat)) (s : State), (s.dev.cal.ahead = (g, o) :: next :: rest) ∧ (g ≤ 6 ∧ o ≤ 3) ∧ (s.dev.fg .CAL_STAT_STATE = 0 ∧ s.dev.mode ≠ 7 ∧ s.dev.mode ≠ 2) ∧ (calCondition s.dev g o = false) :=
  ⟨0, 1, (0, 2), [], unit fun d => ((d.setMode 4).setSv 1 svTracking).onCal fun c => { c with ahead := [(0, 1), (0, 2)] }, by decide +kernel⟩

/-- The premises of calMeasurementDone in CalibrationRuns can be met together. -/
theorem witness_calMeasurementDone : ∃ (o : Fin 4) (rest : List (Nat × Nat)) (x : CalResource) (a b c : Int) (s : State), (s.dev.cal.ahead = (0, o.val) :: rest) ∧ (s.dev.fg .CAL_STAT_STATE = 1 ∧ s.dev.mode ≠ 7) ∧ (s.dev.cal.resources = [x] ∧ x.result = .none ∧ x.start = s.dev.trim (.act (8 * o + x.idx))) ∧ (a.natAbs ≤ 2) :=
  ⟨1, [], {}, 2, 0, 0, unit fun d => (d.fs .CAL_STAT_STATE 1).onCal fun c => { c with ahead := [(0, 1)], resources := [{}] }, by decide +kernel⟩

/-- The premises of calStepDone in CalibrationRuns can be met together. -/
theorem witness_calStepDone : ∃ (g o : Nat) (next : Nat × Nat) (rest : List (Nat × Nat)) (s : State), (s.dev.cal.ahead = (g, o) :: next :: rest) ∧ (g ≤ 6 ∧ o ≤ 3) ∧ (s.dev.fg .CAL_STAT_STATE ≠ 0 ∧ s.dev.mode ≠ 7 ∧ s.dev.mode ≠ 2) ∧ (∀ x ∈ s.dev.cal.resources, x.result = .pass) :=
  ⟨0, 1, (0, 2), [], unit fun d => ((d.setMode 4).fs .CAL_STAT_STATE 1).onCal fun c => { c with ahead := [(0, 1), (0, 2)], resources := [{ result := .pass }] }, by decide +kernel⟩

/-- The premises of calStepTimeout in CalibrationRuns can be met together. -/
theorem witness_calStepTimeout : ∃ (p : Nat × Nat) (rest : List (Nat × Nat)) (s : State), (s.dev.cal.ahead = p :: rest) ∧ (s.dev.fg .CAL_STAT_STATE ≠ 0 ∧ s.dev.mode ≠ 7 ∧ s.dev.mode ≠ 2) :=
  ⟨(0, 1), [], unit fun d => ((d.setMode 4).fs .CAL_STAT_STATE 1).onCal fun c => { c with ahead := [(0, 1)], resources := [{}, { idx := 1 }] }, by decide +kernel⟩

/-- The premises of delegatedCal in CalibrationRuns can be met together. -/
theorem witness_delegatedCal : ∃ (o : Nat) (rest : List (Nat × Nat)) (lf lt : Nat) (s : State), (s.dev.cal.ahead = (5, o) :: rest) ∧ (s.dev.fg .CAL_STAT_STATE = 2 ∧ s.dev.is .CAL_STAT_REQ = true ∧ s.dev.cal.ext = none ∧ s.dev.mode ≠ 7) :=
  ⟨1, [], 0, 0, unit fun d => ((d.fs .CAL_STAT_STATE 2).fs .CAL_STAT_REQ 1).onCal fun c => { c with ahead := [(5, 1)] }, by decide +kernel⟩

/-- The premises of calExtResult in CalibrationRuns can be met together. -/
theorem witness_calExtResult : ∃ (code : Fin 8) (s : State), (s.dev.fg .CAL_STAT_STATE = 2 ∧ s.dev.mode ≠ 7) ∧ (code.val ≠ 0) :=
  ⟨3, unit fun d => (d.fs .CAL_STAT_STATE 2).onCal fun c => { c with resources := [{}] }, by decide +kernel⟩

/-- The premises of abort in CalibrationRuns can be met together. -/
theorem witness_abort : ∃ (s : State), (s.dev.calIdle = false ∧ s.dev.fg .CAL_STAT_STATE = 0 ∧ s.dev.mode ≠ 7 ∧ s.dev.mode ≠ 2) ∧ (s.dev.fg .CAL_PEND_PAIRS = 0) :=
  ⟨unit fun d => ((d.setMode 4).fs .CAL_RUN_PAIRS 4).onCal fun c => { c with ahead := [(2, 0)] }, by decide +kernel⟩

/-- The premises of calFailHandle in CalibrationRuns can be met together. -/
theorem witness_calFailHandle : ∃ (s : State), (s.dev.is .CAL_STAT_FAIL = true) :=
  ⟨unit fun d => d.fs .CAL_STAT_FAIL 1, by decide +kernel⟩

/-- The premises of calDueTimeout in CalibrationRuns can be met together. -/
theorem witness_calDueTimeout : ∃ (group : Fin 7) (opu : Fin 4) (s : State), (s.dev.mode = 5 ∧ s.dev.classE = false ∧ s.dev.opuPresent opu = true) ∧ (sparseGet 0 s.dev.cal.dueAt (pairBit opu group) ≠ 0 ∧ sparseGet 0 s.dev.cal.dueAt (pairBit opu group) + 60 * second ≤ s.dev.qtime + 1) ∧ ((s.dev.opuFw opu).running = true) :=
  ⟨3, 1, unit fun d => { ((d.setMode 5).onCal fun c => { c with dueAt := [(pairBit 1 3, 1)] }).onOpuFw 1 (fun f => { f with running := true }) with
      qtime := 60 * second, fw := { (d.onOpuFw 1 (fun f => { f with running := true })).fw with disc := { d.fw.disc with mediaClass := 0 } } }, by decide +kernel⟩

/-- The premises of trimStoreWrite in TrimsAndTemperature can be met together. -/
theorem witness_trimStoreWrite : ∃ (n : Fin 96) (val : DWord) (s : State), (s.dev.opuPresent (n.val / 24) = true) ∧ (storeBusy s.dev .CAL_FTRIM n = false) :=
  ⟨30, 0x15#32, unit id, by decide +kernel⟩

/-- The premises of trimStoreRefused in TrimsAndTemperature can be met together. -/
theorem witness_trimStoreRefused : ∃ (n : Fin 96) (val : DWord) (s : State), (s.dev.opuPresent (n.val / 24) = true) ∧ (storeBusy s.dev .CAL_FTRIM n = true) :=
  ⟨30, 0x15#32, unit fun d => ((d.fs .CAL_STAT_STATE 1).fs .CAL_STAT_CUR_GROUP 2).fs .CAL_STAT_CUR_OPU 1, by decide +kernel⟩

/-- The premises of drcRequestRead in DramRequests can be met together. -/
theorem witness_drcRequestRead : ∃ (req : Fin 16) (second ordered : Bool) (addr len cycle : Nat) (s : State), (s.dev.refuses req = false ∧ addr + len ≤ s.dev.visible ∧ s.dev.drcState = drcReady ∧ s.dev.drc.held = []) ∧ (s.dev.queued (locate s.dev.ranks addr).ch false < 48) ∧ (ordered = false ∨ ∀ r ∈ s.dev.drc.reads ++ s.dev.drc.inflight, r.req ≠ req.val) ∧ (coveredBy { req := req, second := second, write := false, addr := addr, data := [], len := len, cycle := cycle, ordered := ordered } s.dev.drc.writes = none) :=
  ⟨4, true, true, 4096, 64, 9, unit fun d => (d.fs .DRC_STAT_STATE drcReady).onDrc fun c => { c with reads := [{ req := 3, len := 64 }] }, by decide +kernel⟩

/-- The premises of drcRequestWrite in DramRequests can be met together. -/
theorem witness_drcRequestWrite : ∃ (req : Fin 16) (second ordered : Bool) (addr cycle : Nat) (data : List (BitVec 8)) (s : State), (s.dev.refuses req = false ∧ addr + data.length ≤ s.dev.visible ∧ s.dev.drcState = drcReady ∧ s.dev.drc.held = []) ∧ (s.dev.queued (locate s.dev.ranks addr).ch true < 64) ∧ (ordered = false ∨ ∀ r ∈ s.dev.drc.reads ++ s.dev.drc.inflight, r.req ≠ req.val) :=
  ⟨3, false, false, 4096, 9, [1#8], unit fun d => d.fs .DRC_STAT_STATE drcReady, by decide +kernel⟩

/-- The premises of drcRequestOrder in DramRequests can be met together. -/
theorem witness_drcRequestOrder : ∃ (req : Fin 16) (second : Bool) (addr len cycle : Nat) (r : DrcReq) (s : State), (s.dev.refuses req = false ∧ addr + len ≤ s.dev.visible ∧ s.dev.drcState = drcReady) ∧ (r ∈ s.dev.drc.reads ∧ r.req = req.val) :=
  ⟨4, false, 4096, 64, 9, { req := 4, len := 64 }, unit fun d => (d.fs .DRC_STAT_STATE drcReady).onDrc fun c => { c with reads := [{ req := 4, len := 64 }] }, by decide +kernel⟩

/-- The premises of drcRequestRefused in DramRequests can be met together. -/
theorem witness_drcRequestRefused : ∃ (req : Fin 16) (second isWrite ordered : Bool) (addr len cycle : Nat) (data : List (BitVec 8)) (s : State), (s.dev.refuses req = true) :=
  ⟨15, false, true, false, 4096, 0, 9, [1#8], unit id, by decide +kernel⟩

/-- The premises of drcRequestRange in DramRequests can be met together. -/
theorem witness_drcRequestRange : ∃ (req : Fin 16) (second ordered : Bool) (addr len cycle : Nat) (s : State), (s.dev.refuses req = false ∧ s.dev.visible < addr + len) :=
  ⟨3, false, false, 2 ^ 40, 64, 9, unit id, by decide +kernel⟩

/-- The premises of drcRequestFrozen in DramRequests can be met together. -/
theorem witness_drcRequestFrozen : ∃ (req : Fin 16) (second ordered : Bool) (addr len cycle : Nat) (s : State), (s.dev.refuses req = false ∧ addr + len ≤ s.dev.visible ∧ s.dev.drcState = drcFrozen) :=
  ⟨3, false, true, 4096, 64, 9, unit fun d => d.fs .DRC_STAT_STATE drcFrozen, by decide +kernel⟩

/-- The premises of drcScheduleRead in DramRequests can be met together. -/
theorem witness_drcScheduleRead : ∃ (ch : Fin 2) (cycle : Nat) (r : DrcReq) (s : State), (s.dev.drcState = drcReady ∧ s.dev.drc.held = []) ∧ (s.dev.drc.reads = [r] ∧ s.dev.drc.writes = [] ∧ r.write = false) ∧ (s.dev.chOf r = ch.val) ∧ (∀ b : Fin 16, sparseGet [] s.dev.drc.targets (16 * ch + b) = []) :=
  ⟨0, 9, { len := 64 }, unit fun d => (d.fs .DRC_STAT_STATE drcReady).onDrc fun c => { c with reads := [{ len := 64 }] }, by decide +kernel⟩

/-- The premises of drcReadComplete in DramRequests can be met together. -/
theorem witness_drcReadComplete : ∃ (r : DrcReq) (s : State), (s.dev.drcState = drcReady ∧ s.dev.drc.held = []) ∧ (s.dev.drc.inflight = [r] ∧ s.dev.chOf r = 0) ∧ (∀ k : Fin 4, judgeHalf (syndromes (s.dev.storedWord (4 * r.line + k)).1 (s.dev.storedWord (4 * r.line + k)).2).1 = .clean ∧
      judgeHalf (syndromes (s.dev.storedWord (4 * r.line + k)).1 (s.dev.storedWord (4 * r.line + k)).2).2 = .clean) :=
  ⟨{ addr := 70, len := 3 }, unit fun d => (d.fs .DRC_STAT_STATE drcReady).onDrc fun c => { c with inflight := [{ addr := 70, len := 3 }] }, by decide +kernel⟩

/-- The premises of scrubBusy in DramRequests can be met together. -/
theorem witness_scrubBusy : ∃ (flips : List Nat) (s : State), (0 < s.dev.queued (locate s.dev.ranks (64 * s.dev.fg .DRC_SCRUB_POS)).ch false) :=
  ⟨[], unit fun d => d.onDrc fun c => { c with reads := [{ len := 64 }] }, by decide +kernel⟩

/-- The premises of scrubRead in DramRequests can be met together. -/
theorem witness_scrubRead : ∃ (s : State), (s.dev.drcState = drcReady ∧ s.dev.is .DRC_CTL_SCRUB_EN = true ∧ s.dev.drc.reads = [] ∧ s.dev.drc.writes = []) ∧ (64 * (s.dev.fg .DRC_SCRUB_POS + 2) ≤ s.dev.visible) ∧ (∀ k : Fin 4, judgeHalf (syndromes (s.dev.storedWord (4 * s.dev.fg .DRC_SCRUB_POS + k)).1 (s.dev.storedWord (4 * s.dev.fg .DRC_SCRUB_POS + k)).2).1 = .clean ∧
      judgeHalf (syndromes (s.dev.storedWord (4 * s.dev.fg .DRC_SCRUB_POS + k)).1 (s.dev.storedWord (4 * s.dev.fg .DRC_SCRUB_POS + k)).2).2 = .clean) :=
  ⟨unit fun d => (d.fs .DRC_STAT_STATE drcReady).fs .DRC_CTL_SCRUB_EN 1, by decide +kernel⟩

/-- The premises of rawWrite in DramRequests can be met together. -/
theorem witness_rawWrite : ∃ (s : State), (s.dev.is .DRC_TEST_CTL_EN = true ∧ (s.dev.mode = 6 ∨ s.dev.mode = 7)) ∧ (16 * s.dev.fg .DRC_TEST_ADDR < s.dev.visible ∧ s.dev.drc.writes = []) :=
  ⟨unit fun d => (d.fs .DRC_TEST_CTL_EN 1).setMode 6, by decide +kernel⟩

/-- The premises of rawRead in DramRequests can be met together. -/
theorem witness_rawRead : ∃ (s : State), (s.dev.is .DRC_TEST_CTL_EN = true ∧ (s.dev.mode = 6 ∨ s.dev.mode = 7)) ∧ (16 * s.dev.fg .DRC_TEST_ADDR < s.dev.visible ∧ s.dev.drc.writes = []) :=
  ⟨unit fun d => (d.fs .DRC_TEST_CTL_EN 1).setMode 6, by decide +kernel⟩

/-- The premises of requestUrgent in DramRequests can be met together. -/
theorem witness_requestUrgent : ∃ (req : Fin 16) (second : Bool) (s : State), (2 * req.val + bit second ∉ s.dev.fbc.urgent) ∧ ((s.dev.drc.held.any fun r => r.port == 2 * req.val + bit second) = true) :=
  ⟨5, true, unit fun d => d.onDrc fun c => { c with held := [{ req := 5, second := true }] }, by decide +kernel⟩

/-- The premises of refreshForced in DramUpkeep can be met together. -/
theorem witness_refreshForced : ∃ (ch rank : Fin 2) (s : State), (rank.val < s.dev.ranks ∧ s.dev.drcState = drcReady ∧ s.dev.drc.asleep.contains (2 * ch.val + rank.val) = false) ∧ (sparseGet 0 s.dev.drc.debt (2 * ch.val + rank.val) = 15) :=
  ⟨1, 0, unit fun d => (d.fs .DRC_STAT_STATE drcReady).onDrc fun c => { c with debt := [(2, 15)] }, by decide +kernel⟩

/-- The premises of refreshDue in DramUpkeep can be met together. -/
theorem witness_refreshDue : ∃ (ch rank : Fin 2) (s : State), (rank.val < s.dev.ranks ∧ s.dev.drcState = drcReady ∧ s.dev.drc.asleep.contains (2 * ch.val + rank.val) = false) ∧ (sparseGet 0 s.dev.drc.debt (2 * ch.val + rank.val) = 0 ∧ sparseGet 0 s.dev.drc.round (2 * ch.val + rank.val) = 0) ∧ (s.dev.drc.reads = [] ∧ s.dev.drc.writes = []) :=
  ⟨1, 0, unit fun d => d.fs .DRC_STAT_STATE drcReady, by decide +kernel⟩

/-- The premises of mr4Poll in DramUpkeep can be met together. -/
theorem witness_mr4Poll : ∃ (a b : Nat) (s : State), (s.dev.drcState = drcReady ∧ s.dev.ranks = 1) ∧ (a < 7 ∧ b < 7) :=
  ⟨3, 4, unit fun d => (d.fs .DRC_CFG_RANKS 0).fs .DRC_STAT_STATE drcReady, by decide +kernel⟩

/-- The premises of autoSelfRefresh in DramUpkeep can be met together. -/
theorem witness_autoSelfRefresh : ∃ (ch rank : Fin 2) (s : State), (s.dev.drcState = drcReady ∧ s.dev.is .DRC_PWR_AUTO_SR = true ∧ rank.val < s.dev.ranks) ∧ (s.dev.drc.reads = [] ∧ s.dev.drc.writes = [] ∧ s.dev.drc.inflight = []) ∧ (s.dev.drc.asleep.contains (2 * ch.val + rank.val) = false) :=
  ⟨1, 0, unit fun d => (d.fs .DRC_STAT_STATE drcReady).fs .DRC_PWR_AUTO_SR 1, by decide +kernel⟩

/-- The premises of deep in DramUpkeep can be met together. -/
theorem witness_deep : ∃ (s : State), (s.dev.drcState = drcReady ∧ s.dev.drc.reads = [] ∧ s.dev.drc.writes = [] ∧ s.dev.drc.inflight = []) :=
  ⟨unit fun d => d.fs .DRC_STAT_STATE drcReady, by decide +kernel⟩

/-- The premises of deepSrExit in DramUpkeep can be met together. -/
theorem witness_deepSrExit : ∃ (s : State), (s.dev.drcState = 3 ∧ s.dev.drc.held = []) :=
  ⟨unit fun d => d.fs .DRC_STAT_STATE 3, by decide +kernel⟩

/-- The premises of drcTraining in DramUpkeep can be met together. -/
theorem witness_drcTraining : ∃ (counts : List Nat) (s : State), (s.dev.drcState = 1 ∧ s.dev.is .DRC_STAT_TRN_FAIL = false ∧ s.dev.drc.held = []) :=
  ⟨[5, 6, 7], unit fun d => d.fs .DRC_STAT_STATE 1, by decide +kernel⟩

/-- The premises of drcTrainingFails in DramUpkeep can be met together. -/
theorem witness_drcTrainingFails : ∃ (ch : Fin 4) (step : Fin 5) (counts : List Nat) (s : State), (s.dev.drcState = 1 ∧ s.dev.is .DRC_STAT_TRN_FAIL = false) :=
  ⟨1, 4, [], unit fun d => d.fs .DRC_STAT_STATE 1, by decide +kernel⟩

/-- The premises of zqCalibration in DramUpkeep can be met together. -/
theorem witness_zqCalibration : ∃ (s : State), (s.dev.drcState = drcReady) :=
  ⟨unit fun d => d.fs .DRC_STAT_STATE drcReady, by decide +kernel⟩

/-- The premises of dqsOscCheck in DramUpkeep can be met together. -/
theorem witness_dqsOscCheck : ∃ (die : Fin 8) (count : Nat) (s : State), (s.dev.drcState = drcReady) :=
  ⟨3, 700, unit fun d => d.fs .DRC_STAT_STATE drcReady, by decide +kernel⟩

/-- The premises of cacheReadHit in CacheOperations can be met together. -/
theorem witness_cacheReadHit : ∃ (req : Fin 16) (addr len : Nat) (way : Nat) (s : State), (s.dev.refuses req = false ∧ s.dev.is .FBC_CTL_EN = true ∧ s.dev.is .FBC_STAT_BUSY = false) ∧ (s.dev.hit (addr / 64) = some way) :=
  ⟨3, 64, 2, 0, unit fun d => ((d.fs .FBC_CTL_EN 1).fs .FBC_STAT_BUSY 0).setWay 1 0 { valid := true, data := List.replicate 64 7#8 }, by decide +kernel⟩

/-- The premises of cacheWriteHit in CacheOperations can be met together. -/
theorem witness_cacheWriteHit : ∃ (req : Fin 16) (addr : Nat) (data : List (BitVec 8)) (way : Nat) (idle : Bool) (s : State), (s.dev.refuses req = false ∧ s.dev.is .FBC_CTL_EN = true ∧ s.dev.is .FBC_STAT_BUSY = false) ∧ (s.dev.hit (addr / 64) = some way) ∧ (addr % 64 + data.length ≤ 64 ∧ (s.dev.way (setOf (addr / 64)) way).data.length = 64) :=
  ⟨3, 70, [1#8, 2#8], 0, true, unit fun d => ((d.fs .FBC_CTL_EN 1).fs .FBC_STAT_BUSY 0).setWay 1 0 { valid := true, data := List.replicate 64 7#8 }, by decide +kernel⟩

/-- The premises of cacheRefused in CacheOperations can be met together. -/
theorem witness_cacheRefused : ∃ (req : Fin 16) (addr len : Nat) (discard : Bool) (err : Fin 4) (s : State), (s.dev.refuses req = true) :=
  ⟨15, 64, 2, false, 0, unit id, by decide +kernel⟩

/-- The premises of cacheWriteRefused in CacheOperations can be met together. -/
theorem witness_cacheWriteRefused : ∃ (req : Fin 16) (addr : Nat) (data : List (BitVec 8)) (err : Fin 4) (idle : Bool) (s : State), (s.dev.refuses req = true) :=
  ⟨15, 64, [], 0, false, unit id, by decide +kernel⟩

/-- The premises of cacheReadThenWrite in CacheOperations can be met together. -/
theorem witness_cacheReadThenWrite : ∃ (req : Fin 16) (addr : Nat) (data : List (BitVec 8)) (way : Nat) (idle : Bool) (s : State), (s.dev.refuses req = false ∧ s.dev.is .FBC_CTL_EN = true ∧ s.dev.is .FBC_STAT_BUSY = false) ∧ (s.dev.hit (addr / 64) = some way) ∧ (addr % 64 + data.length ≤ 64 ∧ (s.dev.way (setOf (addr / 64)) way).data.length = 64) :=
  ⟨3, 70, [1#8, 2#8], 0, true, unit fun d => ((d.fs .FBC_CTL_EN 1).fs .FBC_STAT_BUSY 0).setWay 1 0 { valid := true, data := List.replicate 64 7#8 }, by decide +kernel⟩

/-- The premises of prefetch in CacheOperations can be met together. -/
theorem witness_prefetch : ∃ (req : Fin 16) (s : State), (s.dev.is .FBC_CTL_EN = true ∧ s.dev.drcState = drcReady) ∧ (0 < s.dev.fg .FBC_PF_TRIG ∧ s.dev.fg .FBC_PF_TRIG ≤ sparseGet 0 s.dev.fbc.rdCount req ∧ 0 < sparseGet 0 s.dev.fbc.rdNext req) ∧ (s.dev.fg .FBC_PF_DEPTH = 1 ∧ 64 * sparseGet 0 s.dev.fbc.rdNext req ≤ s.dev.visible) ∧ (s.dev.hit (sparseGet 0 s.dev.fbc.rdNext req - 1) = none ∧ s.dev.fbc.side = []) :=
  ⟨3, unit fun d => ((((d.fs .FBC_CTL_EN 1).fs .DRC_STAT_STATE drcReady).fs .FBC_PF_TRIG 2).fs .FBC_PF_DEPTH 1).onFbc fun c => { c with rdCount := [(3, 2)], rdNext := [(3, 9)] }, by decide +kernel⟩

/-- The premises of clean in CacheOperations can be met together. -/
theorem witness_clean : ∃ (s : State), (s.dev.is .FBC_STAT_BUSY = false) ∧ (s.dev.fg .FBC_CMD_LEN = 1) ∧ ((s.dev.hit (s.dev.fg .FBC_CMD_ADDR)).isSome = true) :=
  ⟨unit fun d => ((d.fs .FBC_STAT_BUSY 0).fs .FBC_CMD_LEN 1).setWay 0 0 { valid := true, dirty := true, data := List.replicate 64 7#8 }, by decide +kernel⟩

/-- The premises of invalidate in CacheOperations can be met together. -/
theorem witness_invalidate : ∃ (line way : Nat) (s : State), (s.dev.is .FBC_STAT_BUSY = false) ∧ (s.dev.fg .FBC_CMD_LEN = 1 ∧ s.dev.fg .FBC_CMD_ADDR = line) ∧ (s.dev.hit line = some way) :=
  ⟨0, 0, unit fun d => ((d.fs .FBC_STAT_BUSY 0).fs .FBC_CMD_LEN 1).setWay 0 0 { valid := true, dirty := true, data := List.replicate 64 7#8 }, by decide +kernel⟩

/-- The premises of cacheBusy in CacheOperations can be met together. -/
theorem witness_cacheBusy : ∃ (c : Instr) (way : Fin 16) (s : State), (c ∈ [Instr.clean, .invalidate, .cleanAll, .preload way]) ∧ (s.dev.is .FBC_STAT_BUSY = true) :=
  ⟨.preload 5, 5, unit fun d => d.fs .FBC_STAT_BUSY 1, by decide +kernel⟩

/-- The premises of preload in CacheOperations can be met together. -/
theorem witness_preload : ∃ (way : Fin 16) (s : State), (s.dev.is .FBC_STAT_BUSY = false) ∧ (s.dev.locked way = true ∧ s.dev.fg .FBC_CMD_LEN = 1 ∧ s.dev.cacheFrozen = false) ∧ (s.dev.hit (s.dev.fg .FBC_CMD_ADDR) = none) ∧ ((dramRead 13 (s.dev.fg .FBC_CMD_ADDR) s.dev).1.isSome = true) ∧ (((dramRead 13 (s.dev.fg .FBC_CMD_ADDR) s.dev).2.way (setOf (s.dev.fg .FBC_CMD_ADDR)) way).valid = false) :=
  ⟨14, unit fun d => (((d.fs .FBC_STAT_BUSY 0).fs .FBC_CMD_LEN 1).fs .DRC_STAT_STATE drcReady).fs .FBC_LOCK_WAYS 0xC000, by decide +kernel⟩

/-- The premises of preloadUnlocked in CacheOperations can be met together. -/
theorem witness_preloadUnlocked : ∃ (way : Fin 16) (s : State), (s.dev.is .FBC_STAT_BUSY = false) ∧ (s.dev.locked way = false) :=
  ⟨3, unit fun d => d.fs .FBC_STAT_BUSY 0, by decide +kernel⟩

/-- The premises of cleanAll in CacheOperations can be met together. -/
theorem witness_cleanAll : ∃ (s : State), (s.dev.is .FBC_STAT_BUSY = false) ∧ (∀ e ∈ s.dev.fbc.lines, e.2.dirty = false) :=
  ⟨unit fun d => (d.fs .FBC_STAT_BUSY 0).setWay 0 0 { valid := true, data := List.replicate 64 7#8 }, by decide +kernel⟩

/-- The premises of cacheResetInvalidate in CacheOperations can be met together. -/
theorem witness_cacheResetInvalidate : ∃ (s : State), (s.dev.is .FBC_STAT_BUSY = true) :=
  ⟨unit fun d => (d.fs .FBC_STAT_BUSY 1).setWay 0 0 { valid := true, data := List.replicate 64 7#8 }, by decide +kernel⟩

/-- The premises of rjSubmit in JournalRecords can be met together. -/
theorem witness_rjSubmit : ∃ (event : Bool) (data : List (BitVec 8)) (s : State), (s.dev.journalOpen = true) ∧ (s.dev.journal.queue.length < 8 ∧ s.dev.journal.waiting = []) :=
  ⟨true, [1#8], unit fun d => d.fs .RJ_CTL_EN 1, by decide +kernel⟩

/-- The premises of rjSubmitRefused in JournalRecords can be met together. -/
theorem witness_rjSubmitRefused : ∃ (event : Bool) (data : List (BitVec 8)) (s : State), (s.dev.journalOpen = false) :=
  ⟨true, [1#8], unit id, by decide +kernel⟩

/-- The premises of rjRecordWrite in JournalRecords can be met together. -/
theorem witness_rjRecordWrite : ∃ (x : Submission) (rest : List Submission) (slot : Nat) (s : State), (s.dev.journalOpen = true ∧ s.dev.fg .RJ_STAT_BANK_OK = 3) ∧ (s.dev.journal.queue = x :: rest ∧ s.dev.journal.waiting = []) ∧ (x.event = true ∨ s.dev.ringFull = false) ∧ (slot = (if x.event then s.dev.fg .RJ_HEAD_EHEAD else s.dev.fg .RJ_HEAD_HEAD)) ∧ (slot < (if x.event then eventSlots else mainSlots)) ∧ (recordType (recordBytes s.dev.nextSeq x.qtime x.bytes) ∉ [0x01, 0x02, 0x08, 0x0B]) :=
  ⟨{ event := false, bytes := takeFill 0#8 6 [] ++ [0x06#8, 0#8] }, [], 5, unit fun d => (((d.fs .RJ_STAT_BANK_OK 3).fs .RJ_CTL_EN 1).fs .RJ_HEAD_HEAD 5).onJournal fun j => { j with queue := [{ event := false, bytes := takeFill 0#8 6 [] ++ [0x06#8, 0#8] }] }, by decide +kernel⟩

/-- The premises of rjRecordOthersKept in JournalRecords can be met together. -/
theorem witness_rjRecordOthersKept : ∃ (x : Submission) (rest : List Submission) (slot : Nat) (event : Bool) (i : Nat) (bank : Fin 2) (s : State), (s.dev.journalOpen = true ∧ s.dev.fg .RJ_STAT_BANK_OK = 3) ∧ (s.dev.journal.queue = x :: rest) ∧ (x.event = true ∨ s.dev.ringFull = false) ∧ (slot = (if x.event then s.dev.fg .RJ_HEAD_EHEAD else s.dev.fg .RJ_HEAD_HEAD)) ∧ (slot < (if x.event then eventSlots else mainSlots) ∧ i < (if event then eventSlots else mainSlots)) ∧ ((event, i) ≠ (x.event, slot)) :=
  ⟨{ event := false, bytes := takeFill 0#8 6 [] ++ [0x06#8, 0#8] }, [], 5, false, 6, 1, unit fun d => (((d.fs .RJ_STAT_BANK_OK 3).fs .RJ_CTL_EN 1).fs .RJ_HEAD_HEAD 5).onJournal fun j => { j with queue := [{ event := false, bytes := takeFill 0#8 6 [] ++ [0x06#8, 0#8] }] }, by decide +kernel⟩

/-- The premises of rjRecordFull in JournalRecords can be met together. -/
theorem witness_rjRecordFull : ∃ (x : Submission) (rest : List Submission) (s : State), (s.dev.journal.queue = x :: rest ∧ x.event = false) ∧ (s.dev.ringFull = true) :=
  ⟨{}, [], unit fun d => ((d.fs .RJ_STAT_BANK_OK 3).fs .RJ_CTL_EN 1).onJournal fun j => { j with queue := [{}] }, by decide +kernel⟩

/-- The premises of rjBankFails in JournalRecords can be met together. -/
theorem witness_rjBankFails : ∃ (x : Submission) (rest : List Submission) (s : State), (s.dev.journalOpen = true ∧ s.dev.fg .RJ_STAT_BANK_OK = 3 ∧ s.dev.fg .RJ_SPARE_USED0 = 512) ∧ (s.dev.journal.queue = x :: rest) ∧ (x.event = true) ∧ (s.dev.fg .RJ_HEAD_EHEAD < eventSlots) :=
  ⟨{ event := true }, [], unit fun d => (((d.fs .RJ_STAT_BANK_OK 3).fs .RJ_CTL_EN 1).fs .RJ_SPARE_USED0 512).onJournal fun j => { j with queue := [{ event := true }] }, by decide +kernel⟩

/-- The premises of rjRecordRead in JournalRecords can be met together. -/
theorem witness_rjRecordRead : ∃ (event : Bool) (slot : Nat) (s : State), (slot < (if event then eventSlots else mainSlots)) ∧ (s.dev.bankOk 0 = true ∧ recordOk (s.dev.journal.recordIn 0 event slot) = true) :=
  ⟨true, 0, unit fun d => (((((d.fs .RJ_STAT_BANK_OK 3).fs .RJ_CTL_EN 1)).onJournal fun j => { j with queue := [{ event := true }] }).recordWrite [] []).1, by decide +kernel⟩

/-- The premises of rjRecordReadAlternate in JournalRecords can be met together. -/
theorem witness_rjRecordReadAlternate : ∃ (event : Bool) (slot : Nat) (s : State), (slot < (if event then eventSlots else mainSlots)) ∧ (s.dev.bankOk 0 = false ∧ s.dev.bankOk 1 = true) ∧ (recordOk (s.dev.journal.recordIn 1 event slot) = true) :=
  ⟨true, 0, unit fun d => (((((d.fs .RJ_STAT_BANK_OK 2).fs .RJ_CTL_EN 1)).onJournal fun j => { j with queue := [{ event := true }] }).recordWrite [] []).1, by decide +kernel⟩

/-- The premises of rjStageFrost in JournalUpkeep can be met together. -/
theorem witness_rjStageFrost : ∃ (data : List (BitVec 8)) (s : State), (s.dev.journalOpen = true) :=
  ⟨[1#8], unit fun d => d.fs .RJ_CTL_EN 1, by decide +kernel⟩

/-- The premises of rjStageRefused in JournalUpkeep can be met together. -/
theorem witness_rjStageRefused : ∃ (data : List (BitVec 8)) (s : State), (s.dev.journalOpen = false) :=
  ⟨[1#8], unit id, by decide +kernel⟩

/-- The premises of rjSeal in JournalUpkeep can be met together. -/
theorem witness_rjSeal : ∃ (s : State), (s.dev.journal.sealing = true ∧ s.dev.fg .RJ_STAT_BANK_OK = 3 ∧ s.dev.is .RJ_STAT_FAILED = false) :=
  ⟨unit fun d => ((d.fs .RJ_STAT_BANK_OK 3).fs .RJ_CTL_EN 1).onJournal fun j => { j with sealing := true, queue := [{}] }, by decide +kernel⟩

/-- The premises of rjSealNone in JournalUpkeep can be met together. -/
theorem witness_rjSealNone : ∃ (begun : Bool) (a b c e : List Bool) (s : State), (s.dev.journal.sealing = false) :=
  ⟨true, [], [], [true], [], unit id, by decide +kernel⟩

/-- The premises of journalRoom in JournalUpkeep can be met together. -/
theorem witness_journalRoom : ∃ (s : State), (4096 ≤ s.dev.freeSlots) :=
  ⟨unit fun d => (d.fs .RJ_HEAD_HEAD 5000).fs .RJ_TAIL 4000, by decide +kernel⟩

/-- The premises of journalLowSpace in JournalUpkeep can be met together. -/
theorem witness_journalLowSpace : ∃ (s : State), (s.dev.freeSlots < 4096 ∧ s.dev.fw.disc.loaded = false) :=
  ⟨unit fun d => ((d.fs .RJ_STAT_BANK_OK 0).fs .RJ_TAIL 1).fs .RJ_HEAD_HEAD 14000, by decide +kernel⟩

/-- The premises of mapCheckpointNone in JournalUpkeep can be met together. -/
theorem witness_mapCheckpointNone : ∃ (closed : Bool) (s : State), (s.dev.fw.disc.loaded = false ∨ s.dev.fw.disc.readOnly = true) :=
  ⟨true, unit id, by decide +kernel⟩

/-- The premises of mapCheckpointBusy in JournalUpkeep can be met together. -/
theorem witness_mapCheckpointBusy : ∃ (closed : Bool) (s : State), (s.dev.fw.cpRuns ≠ []) :=
  ⟨true, unit fun d => d.onFw fun w => { w with disc := { w.disc with loaded := true }, cpRuns := [{}] }, by decide +kernel⟩

/-- The premises of mapCheckpoint in JournalUpkeep can be met together. -/
theorem witness_mapCheckpoint : ∃ (closed : Bool) (side : Fin 2) (n : Nat) (s : State), (s.dev.fw.disc.loaded = true ∧ s.dev.fw.disc.readOnly = false ∧ s.dev.fw.cpRuns = []) ∧ ((s.dev.recordSides.filter fun x => !(s.dev.recorders x).isEmpty) = [side.val] ∧ s.dev.fw.map = []) ∧ (s.dev.classE = true ∨ sparseGet 0 s.dev.fw.cpNext side < cpSlots) ∧ (cpSeek s.dev side cpSlots (sparseGet 0 s.dev.fw.cpNext side) = some n) ∧ (s.dev.dramChk = [] ∧ s.dev.drc.writes = []) :=
  ⟨true, 0, 0, unit fun d => (d.fs .RJ_STAT_BANK_OK 0).onFw fun w => { w with disc := { w.disc with loaded := true, mediaClass := 1, layers := 255, a := { formatted := true, recordable := true } } }, by decide +kernel⟩

/-- The premises of mapCheckpointFull in JournalUpkeep can be met together. -/
theorem witness_mapCheckpointFull : ∃ (closed : Bool) (side : Fin 2) (s : State), (s.dev.fw.disc.loaded = true ∧ s.dev.fw.disc.readOnly = false ∧ s.dev.fw.cpRuns = []) ∧ ((s.dev.recordSides.filter fun x => !(s.dev.recorders x).isEmpty) = [side.val]) ∧ (s.dev.classE = false ∧ cpSlots ≤ sparseGet 0 s.dev.fw.cpNext side ∧ s.dev.fw.cpFull = []) :=
  ⟨true, 0, unit fun d => (d.fs .RJ_STAT_BANK_OK 0).onFw fun w => { w with cpNext := [(0, 96000)], disc := { w.disc with loaded := true, mediaClass := 0, a := { formatted := true, recordable := true } } }, by decide +kernel⟩

/-- The premises of tsGoIgnored in TaskSets can be met together. -/
theorem witness_tsGoIgnored : ∃ (stream : Fin 16) (home : Fin 2) (poisoned : Bool) (s : State), (s.dev.is .HP_TS_STATE_BUSY stream = true) :=
  ⟨3, 1, false, unit fun d => d.fs .HP_TS_STATE_BUSY 1 3, by decide +kernel⟩

/-- The premises of tsGoHeld in TaskSets can be met together. -/
theorem witness_tsGoHeld : ∃ (stream : Fin 16) (home : Fin 2) (s : State), (s.dev.is .HP_TS_STATE_BUSY stream = false ∧ s.dev.acceptHeld = true) ∧ (s.dev.running = [] ∧ (s.dev.fw.cmds.any fun q => q.queue && q.stream == stream.val) = false) :=
  ⟨3, 1, unit fun d => d.fs .QL_STAT_HOLD 1, by decide +kernel⟩

/-- The premises of tsGoAccepted in TaskSets can be met together. -/
theorem witness_tsGoAccepted : ∃ (stream : Fin 16) (home : Fin 2) (s : State), (s.dev.is .HP_TS_STATE_BUSY stream = false ∧ s.dev.acceptHeld = false ∧ s.dev.fw.cmds = []) ∧ (s.dev.is .HP_TS_RADDR_LO_EN stream = false) ∧ (∀ k : Fin 16, s.dev.rd .HP_TS_CMD stream k = if k.val = 0 then 4#32 else 0#32) :=
  ⟨3, 1, unit fun d => ((d.setMode 2).wr .HP_TS_CMD 4#32 3 0).onFw fun w => { w with up := true }, by decide +kernel⟩

/-- The premises of tsGoUnknown in TaskSets can be met together. -/
theorem witness_tsGoUnknown : ∃ (stream : Fin 16) (home : Fin 2) (op : Fin 256) (s : State), (s.dev.is .HP_TS_STATE_BUSY stream = false ∧ s.dev.acceptHeld = false ∧ s.dev.fw.cmds = []) ∧ (s.dev.mode ≠ 7 ∧ (s.dev.stream stream).broken = none ∧ opFields op = none) ∧ (∀ k : Fin 16, s.dev.rd .HP_TS_CMD stream k = if k.val = 0 then BitVec.ofNat 32 op else 0#32) :=
  ⟨3, 1, 0x3F, unit fun d => ((d.setMode 2).wr .HP_TS_CMD 0x3F#32 3 0).onFw fun w => { w with up := true }, by decide +kernel⟩

/-- The premises of tsGoPoisoned in TaskSets can be met together. -/
theorem witness_tsGoPoisoned : ∃ (stream : Fin 16) (home : Fin 2) (s : State), (s.dev.is .HP_TS_STATE_BUSY stream = false ∧ s.dev.fw.cmds = []) :=
  ⟨3, 1, unit id, by decide +kernel⟩

/-- The premises of tsReplyPost in TaskSets can be met together. -/
theorem witness_tsReplyPost : ∃ (stream : Fin 16) (begun : Bool) (c : Cmd) (a : Nat) (s : State), (s.dev.fw.cmds = [c] ∧ c.stage = .ended ∧ c.queue = false ∧ c.stream = stream.val) ∧ (c.raddr = some a ∧ c.flag 2 = false ∧ c.orphan = false ∧ c.opcode ≠ 8 ∧ c.page = none) ∧ (s.dev.homeHere c = true ∧ s.dev.busMaster = true) ∧ (s.dev.aon.restart = false ∧ s.dev.link.op = none ∧ s.dev.link.arrive = none) :=
  ⟨3, false, { id := 5, stream := 3, stage := .ended, raddr := some 4096, bytes := bytes64 [4#8] }, 4096, unit fun d => (head d).onFw fun w => { w with cmds := [{ id := 5, stream := 3, stage := .ended, raddr := some 4096, bytes := bytes64 [4#8] }] }, by decide +kernel⟩

/-- The premises of tsReplyNone in TaskSets can be met together. -/
theorem witness_tsReplyNone : ∃ (stream : Fin 16) (begun : Bool) (s : State), (s.dev.tsEnded stream = none) :=
  ⟨3, false, unit id, by decide +kernel⟩

/-- The premises of queueEnable in TagQueue can be met together. -/
theorem witness_queueEnable : ∃ (home : Fin 2) (val : DWord) (s : State), (val.getLsbD 0 = true ∧ s.dev.is .HP_Q_CTL_EN = false) :=
  ⟨1, 0x301#32, unit id, by decide +kernel⟩

/-- The premises of queueEnableAgain in TagQueue can be met together. -/
theorem witness_queueEnableAgain : ∃ (home : Fin 2) (val : DWord) (s : State), (val.getLsbD 0 = true ∧ s.dev.is .HP_Q_CTL_EN = true) :=
  ⟨1, 0x301#32, unit fun d => d.fs .HP_Q_CTL_EN 1, by decide +kernel⟩

/-- The premises of queueDisable in TagQueue can be met together. -/
theorem witness_queueDisable : ∃ (val : DWord) (s : State), (val.getLsbD 0 = false ∧ s.dev.queueBusy = false ∧ s.dev.is .HP_Q_CTL_EN = true) :=
  ⟨0x200#32, unit fun d => d.fs .HP_Q_CTL_EN 1, by decide +kernel⟩

/-- The premises of queueDisableBusy in TagQueue can be met together. -/
theorem witness_queueDisableBusy : ∃ (val : DWord) (s : State), (val.getLsbD 0 = false ∧ s.dev.queueBusy = true ∧ s.dev.is .HP_Q_CTL_EN = true) :=
  ⟨0x200#32, unit fun d => (d.fs .HP_Q_CTL_EN 1).onFw fun w => { w with cmds := [{ queue := true }] }, by decide +kernel⟩

/-- The premises of doorbell in TagQueue can be met together. -/
theorem witness_doorbell : ∃ (tail : Fin 64) (s : State), (s.dev.is .HP_Q_CTL_EN = true ∧ s.dev.is .HP_Q_CTL_DRAINING = false) ∧ ((tail.val + 64 - s.dev.fg .HP_Q_STAT_SQ_HEAD) % 64 ≤ 32) ∧ (s.dev.homeHere { home := s.dev.fg .HP_Q_CTL_HOME } = true) :=
  ⟨5, unit fun d => (head d).fs .HP_Q_CTL_EN 1, by decide +kernel⟩

/-- The premises of doorbellTooMany in TagQueue can be met together. -/
theorem witness_doorbellTooMany : ∃ (tail : Fin 64) (s : State), (s.dev.is .HP_Q_CTL_EN = true ∧ s.dev.is .HP_Q_CTL_DRAINING = false) ∧ (32 < (tail.val + 64 - s.dev.fg .HP_Q_STAT_SQ_HEAD) % 64) :=
  ⟨33, unit fun d => (head d).fs .HP_Q_CTL_EN 1, by decide +kernel⟩

/-- The premises of doorbellOff in TagQueue can be met together. -/
theorem witness_doorbellOff : ∃ (tail : Fin 64) (s : State), (s.dev.is .HP_Q_CTL_EN = false ∨ s.dev.is .HP_Q_CTL_DRAINING = true) :=
  ⟨33, unit id, by decide +kernel⟩

/-- The premises of queueEntryFetch in TagQueue can be met together. -/
theorem witness_queueEntryFetch : ∃ (bytes : List (BitVec 8)) (s : State), (s.dev.is .HP_Q_CTL_EN = true ∧ s.dev.is .HP_Q_CTL_DRAINING = false) ∧ (s.dev.fg .HP_Q_STAT_SQ_HEAD ≠ s.dev.fg .HP_Q_SQ_TAIL ∧ s.dev.busMaster = true ∧ s.dev.link.fetch = []) ∧ (bytes = memRead s.dev.hostMem (s.dev.sqBase + 64 * (s.dev.fg .HP_Q_STAT_SQ_HEAD % 32)) 64) ∧ (s.dev.is .HP_TS_STATE_BUSY (leNat ((bytes.drop 4).take 1) % 16) = false ∧ s.dev.acceptHeld = true ∧ s.dev.running = []) :=
  ⟨bytes64 [4#8], unit fun d => { (((head d).fs .HP_Q_CTL_EN 1).fs .HP_Q_SQ_TAIL 1).fs .QL_STAT_HOLD 1 with hostMem := [(0, 4#8)] }, by decide +kernel⟩

/-- The premises of queueEntryNone in TagQueue can be met together. -/
theorem witness_queueEntryNone : ∃ (s : State), (s.dev.fg .HP_Q_STAT_SQ_HEAD = s.dev.fg .HP_Q_SQ_TAIL) :=
  ⟨unit id, by decide +kernel⟩

/-- The premises of queueReplyPost in TagQueue can be met together. -/
theorem witness_queueReplyPost : ∃ (begun : Bool) (c : Cmd) (a : Nat) (s : State), (s.dev.fw.cmds = [c] ∧ s.dev.fw.ended = [c.id] ∧ c.stage = .ended ∧ c.queue = true) ∧ (c.flag 2 = false ∧ c.orphan = false ∧ c.opcode ≠ 8 ∧ c.page = none ∧ s.dev.homeHere c = true ∧ s.dev.busMaster = true) ∧ (a = s.dev.cqBase + 32 * (s.dev.fg .HP_Q_STAT_CQ_TAIL % 32)) ∧ (s.dev.aon.restart = false ∧ s.dev.link.op = none ∧ s.dev.link.arrive = none ∧ s.dev.is .HP_Q_CTL_DRAINING = false) :=
  ⟨false, { id := 5, queue := true, stage := .ended, bytes := bytes64 [4#8] }, 4096, unit fun d => ((head d).fs .HP_Q_CQB_LO_BASE 1).onFw fun w => { w with cmds := [{ id := 5, queue := true, stage := .ended, bytes := bytes64 [4#8] }], ended := [5] }, by decide +kernel⟩

/-- The premises of queueReplyWaits in TagQueue can be met together. -/
theorem witness_queueReplyWaits : ∃ (begun : Bool) (c : Cmd) (s : State), (s.dev.queueEnded = some c ∧ s.dev.homeHere c = true ∧ c.orphan = false ∧ s.dev.busMaster = false) :=
  ⟨false, { id := 5, queue := true, stage := .ended }, unit fun d => ((head d).onHost fun h => { h with cfg := [] }).onFw fun w => { w with cmds := [{ id := 5, queue := true, stage := .ended }], ended := [5] }, by decide +kernel⟩

/-- The premises of msixUnmask in TagQueue can be met together. -/
theorem witness_msixUnmask : ∃ (v : Fin 32) (s : State), (s.dev.msixEnabled = true ∧ s.dev.busMaster = true ∧ s.dev.msixMasked = false) ∧ (s.dev.fg .HP_PBA_PEND = 2 ^ v.val) :=
  ⟨7, unit fun d => ((head d).fs .HP_PBA_PEND 128).wr .HP_MSIX 4096#32 7 0, by decide +kernel⟩

/-- The premises of msixUnmaskQuiet in TagQueue can be met together. -/
theorem witness_msixUnmaskQuiet : ∃ (v : Fin 32) (s : State), (s.dev.fg .HP_PBA_PEND = 0) :=
  ⟨7, unit id, by decide +kernel⟩

/-- The premises of memberWindowWrite in WindowsAndConfiguration can be met together. -/
theorem witness_memberWindowWrite : ∃ (a : Fin 64) (off : Fin 262144) (data : List (BitVec 8)) (s : State), (s.dev.role ≠ 0 ∧ s.dev.d3 = false ∧ a.val = s.dev.addr) ∧ (off.val % 4 = 0 ∧ data.length = 4) :=
  ⟨0, 0x3000, [1#8, 2#8, 3#8, 4#8], unit head, by decide +kernel⟩

/-- The premises of memberWindowMailbox in WindowsAndConfiguration can be met together. -/
theorem witness_memberWindowMailbox : ∃ (a : Fin 64) (k : Fin 64) (data : List (BitVec 8)) (s : State), (s.dev.role ≠ 0 ∧ s.dev.d3 = false ∧ a.val = s.dev.addr) ∧ (data.length = 4 ∧ s.dev.bootFailed = false) :=
  ⟨0, 5, [1#8, 2#8, 3#8, 4#8], unit head, by decide +kernel⟩

/-- The premises of memberWindowHeld in WindowsAndConfiguration can be met together. -/
theorem witness_memberWindowHeld : ∃ (a : Fin 64) (off : Fin 262144) (data : List (BitVec 8)) (s : State), (s.dev.role ≠ 0 ∧ s.dev.d3 = false ∧ a.val ≠ s.dev.addr) ∧ (s.dev.heldBytes + data.length ≤ 16384 ∧ s.dev.host.held = [] ∧ s.dev.route a = none) :=
  ⟨9, 0, [1#8], unit head, by decide +kernel⟩

/-- The premises of memberWindowNoHead in WindowsAndConfiguration can be met together. -/
theorem witness_memberWindowNoHead : ∃ (a : Fin 64) (off : Fin 262144) (data : List (BitVec 8)) (len : Nat) (c : Instr) (s : State), (s.dev.role = 0 ∨ s.dev.d3 = true) ∧ (c ∈ [Instr.memberWindowWrite a off data, .memberWindowRead a off len]) :=
  ⟨9, 0, [1#8], 8, .memberWindowRead 9 0 8, unit id, by decide +kernel⟩

/-- The premises of memberWindowRead in WindowsAndConfiguration can be met together. -/
theorem witness_memberWindowRead : ∃ (a : Fin 64) (off : Fin 262144) (len : Nat) (s : State), (s.dev.role ≠ 0 ∧ s.dev.d3 = false ∧ off.val % 64 + len ≤ 64 ∧ a.val = s.dev.addr) :=
  ⟨0, 0x2000, 8, unit head, by decide +kernel⟩

/-- The premises of memberWindowUnreachable in WindowsAndConfiguration can be met together. -/
theorem witness_memberWindowUnreachable : ∃ (a : Fin 64) (off : Fin 262144) (len : Nat) (s : State), (s.dev.role ≠ 0 ∧ s.dev.d3 = false ∧ off.val % 64 + len ≤ 64 ∧ a.val ≠ s.dev.addr) ∧ (s.dev.route a = none) :=
  ⟨9, 0x2000, 8, unit head, by decide +kernel⟩

/-- The premises of memberReadTimeout in WindowsAndConfiguration can be met together. -/
theorem witness_memberReadTimeout : ∃ (r : MemberRead) (rest : List MemberRead) (s : State), (s.dev.host.reads = r :: rest) :=
  ⟨{ len := 4 }, [], unit fun d => d.onHost fun h => { h with reads := [{ len := 4 }] }, by decide +kernel⟩

/-- The premises of unreachableWriteDiscard in WindowsAndConfiguration can be met together. -/
theorem witness_unreachableWriteDiscard : ∃ (h : HeldWrite) (s : State), (s.dev.host.held = [h] ∧ s.dev.route h.unit = none) :=
  ⟨{ unit := 9 }, unit fun d => (head d).onHost fun h => { h with held := [{ unit := 9 }] }, by decide +kernel⟩

/-- The premises of dmaCompletionError in WindowsAndConfiguration can be met together. -/
theorem witness_dmaCompletionError : ∃ (id : Nat) (kind : Fin 4) (c : Cmd) (s : State), (id ≠ 0 ∧ s.dev.cmd id = some c ∧ c.stage = .running ∧ c.opcode ≠ 0x11) ∧ (s.dev.homeHere c = true ∧ c.dlen ≠ 0) :=
  ⟨5, 2, { id := 5, bytes := bytes64 [0x10#8, 0, 0, 0, 0, 0, 0, 0, 4] }, unit fun d => (head d).onFw fun w => { w with cmds := [{ id := 5, bytes := bytes64 [0x10#8, 0, 0, 0, 0, 0, 0, 0, 4] }] }, by decide +kernel⟩

/-- The premises of hostReset in WindowsAndConfiguration can be met together. -/
theorem witness_hostReset : ∃ (head_ : Fin 2) (cause : Fin 4) (s : State), (s.dev.isHead head_ = true ∧ cause.val ≠ 3 ∧ s.dev.link.fetch = [] ∧ s.dev.is .HP_Q_CTL_EN = false) :=
  ⟨0, 1, unit fun d => ((head d).wr .HP_MSIX 0#32 4 3).onFw fun w => { w with cmds := [{}] }, by decide +kernel⟩

/-- The premises of configurationEarly in WindowsAndConfiguration can be met together. -/
theorem witness_configurationEarly : ∃ (isWrite : Bool) (reg : Fin 1024) (be : Fin 16) (val : DWord) (s : State), (s.dev.aon.reset = true ∨ s.dev.fg .CLK_BOOT_STAGE < 7) :=
  ⟨false, 0, 15, 0, unit id, by decide +kernel⟩

/-- The premises of configurationRead in WindowsAndConfiguration can be met together. -/
theorem witness_configurationRead : ∃ (reg : Fin 1024) (be : Fin 16) (val : DWord) (late : Bool) (s : State), (s.dev.aon.reset = false ∧ 7 ≤ s.dev.fg .CLK_BOOT_STAGE) :=
  ⟨0, 15, 0, false, unit fun d => { head d with aon := { d.aon with reset := false } }, by decide +kernel⟩

/-- The premises of configurationIds in WindowsAndConfiguration can be met together. -/
theorem witness_configurationIds : ∃ (be : Fin 16) (val : DWord) (late : Bool) (s : State), (s.dev.aon.reset = false ∧ 7 ≤ s.dev.fg .CLK_BOOT_STAGE ∧ sparseGet 0#32 s.dev.host.cfg 0 = 0#32) :=
  ⟨15, 0, false, unit fun d => { head d with aon := { d.aon with reset := false } }, by decide +kernel⟩

/-- The premises of configurationWrite in WindowsAndConfiguration can be met together. -/
theorem witness_configurationWrite : ∃ (reg : Fin 1024) (val : DWord) (late : Bool) (s : State), (s.dev.aon.reset = false ∧ 7 ≤ s.dev.fg .CLK_BOOT_STAGE ∧ s.dev.fg .HP_PBA_PEND = 0) ∧ (reg.val ≠ 0x11 ∧ reg.val ≠ 0x41) :=
  ⟨1, 6, false, unit fun d => { head d with aon := { d.aon with reset := false } }, by decide +kernel⟩

/-- The premises of hostLinkUp in WindowsAndConfiguration can be met together. -/
theorem witness_hostLinkUp : ∃ (s : State), (s.dev.bonded = true ∧ (s.dev.fg .PMU_STAT_ISL).testBit 1 = true ∧ s.dev.is .QL_STAT_ADDR_VALID = true) :=
  ⟨unit fun d => { head d with bonded := true }, by decide +kernel⟩

/-- The premises of identify in StatusCommands can be met together. -/
theorem witness_identify : ∃ (id : Nat) (c : Cmd) (s : State), (s.dev.Doing id 0x01 c ∧ s.dev.HasData c ∧ c.dlen = 4096) :=
  ⟨5, cmd5 (cmdB 1 4096 0 0), unit fun d => doing (cmdB 1 4096 0 0) (head d), by decide +kernel⟩

/-- The premises of getPage in StatusCommands can be met together. -/
theorem witness_getPage : ∃ (id : Nat) (c : Cmd) (p : List (BitVec 8)) (s : State), (s.dev.Doing id 0x02 c ∧ s.dev.HasData c) ∧ (pageLength c.b24 ≠ 0 ∧ c.field 25 1 < pageScopes c.b24 ∧ p ≠ []) ∧ (p = if (c.field 26 1).testBit 0 then pageDefault s.dev.smallBuffer c.b24 (c.field 25 1) else s.dev.page c.b24 (c.field 25 1)) :=
  ⟨5, cmd5 (cmdB 2 64 5 0), (unit fun d => d).dev.page 5 0, unit fun d => doing (cmdB 2 64 5 0) (head d), by decide +kernel⟩

/-- The premises of getPageUnknown in StatusCommands can be met together. -/
theorem witness_getPageUnknown : ∃ (id : Nat) (c : Cmd) (s : State), (s.dev.Doing id 0x02 c ∧ pageLength c.b24 = 0) :=
  ⟨5, cmd5 (cmdB 2 64 99 0), unit fun d => doing (cmdB 2 64 99 0) (head d), by decide +kernel⟩

/-- The premises of setPage in StatusCommands can be met together. -/
theorem witness_setPage : ∃ (id : Nat) (c : Cmd) (s : State), (s.dev.Doing id 0x03 c ∧ s.dev.HasData c ∧ pageLength c.b24 ≠ 0) ∧ (pageRefused s.dev c.b24 (c.field 25 1) (s.dev.hostData c) = none ∧ pageReserved s.dev.smallBuffer c.b24 (s.dev.hostData c) = true) :=
  ⟨5, cmd5 (cmdB 3 64 1 0), unit fun d => { doing (cmdB 3 64 1 0) (head d) with hostMem := memWrite [] 0 (d.page 1 0) }, by decide +kernel⟩

/-- The premises of setPageRefused in StatusCommands can be met together. -/
theorem witness_setPageRefused : ∃ (id off : Nat) (c : Cmd) (s : State), (s.dev.Doing id 0x03 c ∧ s.dev.HasData c) ∧ (pageLength c.b24 ≠ 0 ∧ pageRefused s.dev c.b24 (c.field 25 1) (s.dev.hostData c) = some off) :=
  ⟨5, ((pageRefused (unit id).dev 1 0 (List.replicate 64 0xFF#8)).getD 0), cmd5 (cmdB 3 64 1 0), unit fun d => { doing (cmdB 3 64 1 0) (head d) with hostMem := memWrite [] 0 (List.replicate 64 0xFF#8) }, by decide +kernel⟩

/-- The premises of setPageInForce in StatusCommands can be met together. -/
theorem witness_setPageInForce : ∃ (stream : Fin 16) (begun : Bool) (c : Cmd) (p scope : Nat) (b : List (BitVec 8)) (s : State), (s.dev.fw.cmds = [c] ∧ c.stage = .ended ∧ c.queue = false ∧ c.stream = stream.val) ∧ (c.raddr = none ∧ c.flag 2 = false ∧ c.opcode = 3 ∧ s.dev.homeHere c = true ∧ c.orphan = false) ∧ (c.page = some (p, scope, b) ∧ p ∉ [3, 4, 5, 6, 7]) ∧ (s.dev.aon.restart = false ∧ s.dev.link.op = none ∧ s.dev.link.arrive = none) :=
  ⟨3, false, { id := 5, stream := 3, stage := .ended, bytes := bytes64 [3#8], page := some (1, 0, List.replicate 64 1#8) }, 1, 0, List.replicate 64 1#8, unit fun d => (head d).onFw fun w => { w with cmds := [{ id := 5, stream := 3, stage := .ended, bytes := bytes64 [3#8], page := some (1, 0, List.replicate 64 1#8) }] }, by decide +kernel⟩

/-- The premises of poll in StatusCommands can be met together. -/
theorem witness_poll : ∃ (id : Nat) (c : Cmd) (s : State), (s.dev.Doing id 0x04 c) :=
  ⟨5, cmd5 (cmdB 4 0 0 0), unit fun d => doing (cmdB 4 0 0 0) (d.setMode 3), by decide +kernel⟩

/-- The premises of acknowledgeAttention in StatusCommands can be met together. -/
theorem witness_acknowledgeAttention : ∃ (id : Nat) (c : Cmd) (s : State), (s.dev.Doing id 0x05 c) :=
  ⟨5, cmd5 (cmdB 5 0 0 0), unit fun d => doing (cmdB 5 0 0 0) d, by decide +kernel⟩

/-- The premises of getLog in StatusCommands can be met together. -/
theorem witness_getLog : ∃ (id : Nat) (c : Cmd) (s : State), (s.dev.Doing id 0x06 c ∧ s.dev.HasData c ∧ c.b24 = 2) :=
  ⟨5, cmd5 (cmdB 6 48 2 0), unit fun d => doing (cmdB 6 48 2 0) (head d), by decide +kernel⟩

/-- The premises of statusNotRunning in StatusCommands can be met together. -/
theorem witness_statusNotRunning : ∃ (id : Nat) (c : Instr) (s : State), (s.dev.cmd id = none) ∧ (c ∈ [Instr.identify id, .getPage id, .setPage id, .poll id, .acknowledgeAttention id, .getLog id]) :=
  ⟨5, .poll 5, unit id, by decide +kernel⟩

/-- The premises of watermarkAdvance in StreamCommands can be met together. -/
theorem witness_watermarkAdvance : ∃ (k : Fin 16) (w : WriteRec) (v : Version) (psa : Nat) (s : State), (s.dev.fw.cmds = [] ∧ s.dev.flushAsked = false ∧ s.dev.fw.versions = [v]) ∧ ((s.dev.stream k).writes = [w] ∧ w.intent = true ∧ w.dead = false ∧ w.group = none) ∧ (v.stream = k.val ∧ v.ssq = w.ssq ∧ v.copyOf = none ∧ v.psa = some psa ∧ v.stage = .committed) ∧ (sparseGet 0 s.dev.fw.mapOrder v.lsn < v.order) :=
  ⟨3, { ssq := 1, intent := true, count := 1 }, { lsn := 7, order := 2, stream := 3, ssq := 1, psa := some 9, stage := .committed }, 9, unit fun d => d.onFw fun w => { w with versions := [{ lsn := 7, order := 2, stream := 3, ssq := 1, psa := some 9, stage := .committed }], streams := [(3, { writes := [{ ssq := 1, intent := true, count := 1 }] })] }, by decide +kernel⟩

/-- The premises of watermarkNothing in StreamCommands can be met together. -/
theorem witness_watermarkNothing : ∃ (k : Fin 16) (s : State), (s.dev.fw.cmds = [] ∧ s.dev.flushAsked = false ∧ s.dev.fw.versions = [] ∧ (s.dev.stream k).writes = []) :=
  ⟨3, unit id, by decide +kernel⟩

/-- The premises of streamBreak in StreamCommands can be met together. -/
theorem witness_streamBreak : ∃ (k : Fin 16) (w : WriteRec) (s : State), ((s.dev.stream k).writes = [w] ∧ w.intent = true ∧ (s.dev.stream k).broken = none) ∧ (s.dev.is .RJ_STAT_FAILED = true ∧ s.dev.fw.versions = [] ∧ s.dev.fw.cmds = []) :=
  ⟨3, { ssq := 1, intent := true }, unit fun d => (d.fs .RJ_STAT_FAILED 1).onFw fun w => { w with streams := [(3, { writes := [{ ssq := 1, intent := true }] })] }, by decide +kernel⟩

/-- The premises of streamBreakNothing in StreamCommands can be met together. -/
theorem witness_streamBreakNothing : ∃ (k : Fin 16) (s : State), ((s.dev.stream k).writes = []) :=
  ⟨3, unit id, by decide +kernel⟩

/-- The premises of resetStream in StreamCommands can be met together. -/
theorem witness_resetStream : ∃ (id : Nat) (c : Cmd) (k : Nat) (s : State), (s.dev.Doing id 0x07 c ∧ s.dev.fw.cmds = [c] ∧ c.needs = none ∧ k = c.field 16 1 % 16) ∧ ((s.dev.stream k).writes = [] ∧ s.dev.fw.versions = [] ∧ s.dev.flushAsked = false) ∧ (s.dev.journalOpen = true ∧ s.dev.journal.queue = [] ∧ s.dev.journal.waiting = []) :=
  ⟨5, cmd5 (cmdB 7 0 0 0), 0, unit fun d => (doing (cmdB 7 0 0 0) (d.fs .RJ_CTL_EN 1)).onFw fun w => { w with streams := [(0, { broken := some 1, first := 4, mark := 3 })] }, by decide +kernel⟩

/-- The premises of flushStream in StreamCommands can be met together. -/
theorem witness_flushStream : ∃ (id : Nat) (c : Cmd) (s : State), (s.dev.Doing id 0x13 c ∧ c.needs = none) :=
  ⟨5, cmd5 (cmdB 0x13 0 0 0), unit fun d => doing (cmdB 0x13 0 0 0) d, by decide +kernel⟩

/-- The premises of fence in StreamCommands can be met together. -/
theorem witness_fence : ∃ (id : Nat) (c : Cmd) (s : State), (s.dev.Doing id 0x14 c) :=
  ⟨5, cmd5 (cmdB 0x14 0 0 0), unit fun d => doing (cmdB 0x14 0 0 0) d, by decide +kernel⟩

/-- The premises of powerModeSpinning in StreamCommands can be met together. -/
theorem witness_powerModeSpinning : ∃ (id : Nat) (c : Cmd) (s : State), (s.dev.Doing id 0x08 c ∧ s.dev.Alone c ∧ c.field 16 1 = 3) ∧ (s.dev.mode = 3 ∧ s.dev.frost = false) :=
  ⟨5, cmd5 (leBytes 16 8 ++ leBytes 1 3), unit fun d => doing (leBytes 16 8 ++ leBytes 1 3) (d.setMode 3), by decide +kernel⟩

/-- The premises of powerModeParked in StreamCommands can be met together. -/
theorem witness_powerModeParked : ∃ (id : Nat) (c : Cmd) (s : State), (s.dev.Doing id 0x08 c ∧ s.dev.Alone c ∧ c.field 16 1 = 2 ∧ s.dev.frost = false) ∧ ((∀ o : Fin 4, s.dev.stage o = .off) ∧ (∀ n : Fin 96, s.dev.is .RCS_CTL_EN n = false) ∧ s.dev.spnState = spnOff ∧ s.dev.is .SPN_STAT_BELOW30 = true) :=
  ⟨5, cmd5 (leBytes 16 8 ++ leBytes 1 2), unitOff fun d => doing (leBytes 16 8 ++ leBytes 1 2) (d.fs .SPN_STAT_BELOW30 1), by decide +kernel⟩

/-- The premises of enterService in StreamCommands can be met together. -/
theorem witness_enterService : ∃ (id : Nat) (c : Cmd) (s : State), (s.dev.Doing id 0x38 c ∧ s.dev.Alone c ∧ c.b24 = 1) :=
  ⟨5, cmd5 (cmdB 0x38 0 1 0), unit fun d => doing (cmdB 0x38 0 1 0) d, by decide +kernel⟩

/-- The premises of leaveService in StreamCommands can be met together. -/
theorem witness_leaveService : ∃ (id : Nat) (c : Cmd) (s : State), (s.dev.Doing id 0x38 c ∧ c.b24 = 2) :=
  ⟨5, cmd5 (cmdB 0x38 0 2 0), unit fun d => doing (cmdB 0x38 0 2 0) d, by decide +kernel⟩

/-- The premises of read in DataCommands can be met together. -/
theorem witness_read : ∃ (id lsn : Nat) (c : Cmd) (s : State), (s.dev.Doing id 0x10 c ∧ s.dev.HasData c ∧ c.dlen = 131072) ∧ (noGroup c = true ∧ c.binds = [{ lsn := lsn, result := some (0, 1) }] ∧ s.dev.Calm) :=
  ⟨5, 9, { cmd5 (cmdB 0x10 131072 0 0 ++ leBytes 6 0 ++ leBytes 1 1) with binds := [{ lsn := 9, result := some (0, 1) }] }, unit fun d => (head d).onFw fun w => { w with cmds := [{ cmd5 (cmdB 0x10 131072 0 0 ++ leBytes 6 0 ++ leBytes 1 1) with binds := [{ lsn := 9, result := some (0, 1) }] }] }, by decide +kernel⟩

/-- The premises of verify in DataCommands can be met together. -/
theorem witness_verify : ∃ (id lsn : Nat) (c : Cmd) (s : State), (s.dev.Doing id 0x12 c ∧ noGroup c = true ∧ c.binds = [{ lsn := lsn, result := some (0, 1) }] ∧ s.dev.Calm) :=
  ⟨5, 9, { cmd5 (cmdB 0x12 0 0 0 ++ leBytes 6 0 ++ leBytes 1 1) with binds := [{ lsn := 9, result := some (0, 1) }] }, unit fun d => d.onFw fun w => { w with cmds := [{ cmd5 (cmdB 0x12 0 0 0 ++ leBytes 6 0 ++ leBytes 1 1) with binds := [{ lsn := 9, result := some (0, 1) }] }] }, by decide +kernel⟩

/-- The premises of fixity in DataCommands can be met together. -/
theorem witness_fixity : ∃ (id lsn : Nat) (c : Cmd) (s : State), (s.dev.Doing id 0x15 c ∧ s.dev.HasData c ∧ c.dlen = 48 ∧ s.dev.fw.cmds = [c]) ∧ (noGroup c = false ∧ c.binds = [{ lsn := lsn, result := some (0, 1) }] ∧ s.dev.Calm) :=
  ⟨5, 9, { cmd5 (cmdB 0x15 48 0 0) with binds := [{ lsn := 9, result := some (0, 1) }] }, unit fun d => (head d).onFw fun w => { w with cmds := [{ cmd5 (cmdB 0x15 48 0 0) with binds := [{ lsn := 9, result := some (0, 1) }] }] }, by decide +kernel⟩

/-- The premises of readingWaits in DataCommands can be met together. -/
theorem witness_readingWaits : ∃ (id : Nat) (c : Cmd) (i : Instr) (s : State), (i ∈ [Instr.read id, .verify id, .fixity id]) ∧ (s.dev.cmd id = some c ∧ c.stage = .running ∧ c.ssq ≠ 0) ∧ ((i, c.opcode) ∈ [(Instr.read id, 0x10), (.verify id, 0x12), (.fixity id, 0x15)] ∧ s.dev.bindsDone c = false) :=
  ⟨5, { cmd5 (cmdB 0x12 0 0 0) with binds := [{ lsn := 9, psa := some 9 }] }, .verify 5, unit fun d => d.onFw fun w => { w with cmds := [{ cmd5 (cmdB 0x12 0 0 0) with binds := [{ lsn := 9, psa := some 9 }] }] }, by decide +kernel⟩

/-- The premises of writeTaken in DataCommands can be met together. -/
theorem witness_writeTaken : ∃ (id : Nat) (c : Cmd) (w : WriteRec) (s : State), (s.dev.Doing id 0x11 c ∧ s.dev.HasData c) ∧ (s.dev.writeOf c = some w ∧ w.addr = 0 ∧ (s.dev.stream c.stream).broken = none) ∧ (s.dev.frost = false ∧ s.dev.is .PMU_STAT_THAWING = false ∧ s.dev.intentBefore w = false) :=
  ⟨5, cmd5 (cmdB 0x11 131072 0 0), { ssq := 1, cmd := 5, count := 1 }, unit fun d => (doing (cmdB 0x11 131072 0 0) (head d)).onFw fun w => { w with streams := [(0, { writes := [{ ssq := 1, cmd := 5, count := 1 }] })] }, by decide +kernel⟩

/-- The premises of writeIntentDurable in DataCommands can be met together. -/
theorem witness_writeIntentDurable : ∃ (id : Nat) (c : Cmd) (w : WriteRec) (s : State), (s.dev.Doing id 0x11 c ∧ s.dev.writeOf c = some w ∧ w.addr ≠ 0 ∧ w.intent = true ∧ w.fua = false) ∧ (s.dev.fw.versions = [] ∧ s.dev.frost = true) :=
  ⟨5, cmd5 (cmdB 0x11 131072 0 0), { ssq := 1, cmd := 5, count := 1, addr := 64, intent := true }, unit fun d => (doing (cmdB 0x11 131072 0 0) (d.fs .PMU_STAT_FROST 1)).onFw fun w => { w with streams := [(0, { writes := [{ ssq := 1, cmd := 5, count := 1, addr := 64, intent := true }] })] }, by decide +kernel⟩

/-- The premises of writeDurable in DataCommands can be met together. -/
theorem witness_writeDurable : ∃ (id : Nat) (c : Cmd) (s : State), (s.dev.Doing id 0x11 c ∧ s.dev.writeOf c = none ∧ c.needs = none) ∧ (reached c.ssq (s.dev.stream c.stream).mark = true) :=
  ⟨5, cmd5 (cmdB 0x11 131072 0 0), unit fun d => (doing (cmdB 0x11 131072 0 0) d).onFw fun w => { w with streams := [(0, { mark := 1 })] }, by decide +kernel⟩

/-- The premises of sheetHash in DataCommands can be met together. -/
theorem witness_sheetHash : ∃ (addr : Nat) (s : State), (s.dev.is .FIX_CTL_EN = true ∧ s.dev.is .FIX_STAT_FAULT = false ∧ addr + 131072 ≤ s.dev.visible) :=
  ⟨64, unit fun d => (d.fs .FIX_CTL_EN 1).fs .FBC_CTL_EN 1, by decide +kernel⟩

/-- The premises of linkTraining in LinkPorts can be met together. -/
theorem witness_linkTraining : ∃ (p : Fin 2) (low high reversed : Bool) (delay : Nat) (s : State), (s.dev.mayTrain p = true ∧ s.dev.portState p ≤ 1 ∧ (s.dev.port p).trained = 0) ∧ (s.dev.portState (otherPort p) ≠ 2 ∧ s.dev.link.units = [] ∧ s.dev.link.asleep = []) ∧ (s.dev.is .QL_STAT_ADDR_VALID = true ∧ s.dev.role = 0 ∧ (low || high) = true ∧ delay < 65536) :=
  ⟨1, true, false, true, 40, unit fun d => (d.fs .QL_STAT_ADDR_VALID 1).fs .QL_CTL_EN 1, by decide +kernel⟩

/-- The premises of linkTrainingNot in LinkPorts can be met together. -/
theorem witness_linkTrainingNot : ∃ (p : Fin 2) (low high reversed miswired : Bool) (delay : Nat) (bare : Bool) (s : State), (s.dev.mayTrain p = false ∧ s.dev.portState p ≠ 2) :=
  ⟨0, true, true, false, false, 40, false, unit fun d => d.fs .QL_PCTL_DISABLE 1 0, by decide +kernel⟩

/-- The premises of linkTrainingRetry in LinkPorts can be met together. -/
theorem witness_linkTrainingRetry : ∃ (p : Fin 2) (reversed miswired : Bool) (delay : Nat) (bare : Bool) (s : State), (s.dev.mayTrain p = true ∧ s.dev.portState p = 4 ∧ (s.dev.port p).fails = []) :=
  ⟨0, false, false, 40, false, unit fun d => (d.fs .QL_CTL_EN 1).fs .QL_PSTAT_STATE 4 0, by decide +kernel⟩

/-- The premises of retrain in LinkPorts can be met together. -/
theorem witness_retrain : ∃ (p : Fin 2) (s : State), (s.dev.portState p = 2) :=
  ⟨1, unit fun d => d.fs .QL_PSTAT_STATE 2 1, by decide +kernel⟩

/-- The premises of retrainNot in LinkPorts can be met together. -/
theorem witness_retrainNot : ∃ (p : Fin 2) (s : State), (s.dev.portState p ≠ 2) :=
  ⟨1, unit id, by decide +kernel⟩

/-- The premises of frameReceive in LinkPorts can be met together. -/
theorem witness_frameReceive : ∃ (p : Fin 2) (frame : List (BitVec 8)) (t : Nat) (msgs : List QMsg) (rest : List (BitVec 8)) (s : State), (s.dev.portState p = 2 ∧ s.dev.Quiet p ∧ t = leNat ((frame.drop 256).take 16)) ∧ (crc32c (frame.take 256 ++ (frame.drop 260).take 12) = bitsOf t 0 32 ∧ bitsOf t 32 12 = ((s.dev.port p).rxSeq + 1) % 4096) ∧ (t.testBit 56 = false ∧ t.testBit 58 = false ∧ takeMsgs 32 ((s.dev.port p).part ++ frame.take 256) = (msgs, rest)) ∧ (∀ m ∈ msgs, m.type = 0 ∨ (m.bcast = true ∧ knownType m.type = true)) :=
  ⟨1, (QMsg.bytes { type := 0x35, bcast := true, arg := 0x1CE24166 }), 0, [{ type := 0x35, bcast := true, arg := 0x1CE24166 }], [], unit fun d => d.fs .QL_PSTAT_STATE 2 1, by decide +kernel⟩

/-- The premises of frameCrc in LinkPorts can be met together. -/
theorem witness_frameCrc : ∃ (p : Fin 2) (frame : List (BitVec 8)) (s : State), (s.dev.portState p = 2 ∧ (s.dev.port p).naking = false ∧ (s.dev.port p).errs = []) ∧ (crc32c (frame.take 256 ++ (frame.drop 260).take 12) ≠ bitsOf (leNat ((frame.drop 256).take 16)) 0 32) :=
  ⟨0, [1], unit fun d => d.fs .QL_PSTAT_STATE 2 0, by decide +kernel⟩

/-- The premises of frameDown in LinkPorts can be met together. -/
theorem witness_frameDown : ∃ (p : Fin 2) (frame : List (BitVec 8)) (cut : Bool) (s : State), (s.dev.portState p ≠ 2) :=
  ⟨0, [], false, unit id, by decide +kernel⟩

/-- The premises of frameReplay in LinkPorts can be met together. -/
theorem witness_frameReplay : ∃ (p : Fin 2) (s : State), (s.dev.portState p = 2 ∧ (s.dev.port p).nakd = true ∧ (s.dev.port p).replays < 3) :=
  ⟨0, unit fun d => (d.fs .QL_PSTAT_STATE 2 0).onPort 0 fun q => { q with nakd := true, retry := [(7, false, bytes64 [1])], txSeq := 8 }, by decide +kernel⟩

/-- The premises of frameReplayFourth in LinkPorts can be met together. -/
theorem witness_frameReplayFourth : ∃ (p : Fin 2) (s : State), (s.dev.portState p = 2 ∧ (s.dev.port p).nakd = true ∧ 3 ≤ (s.dev.port p).replays) :=
  ⟨0, unit fun d => (d.fs .QL_PSTAT_STATE 2 0).onPort 0 fun q => { q with nakd := true, replays := 3 }, by decide +kernel⟩

/-- The premises of portDown in LinkPorts can be met together. -/
theorem witness_portDown : ∃ (p : Fin 2) (s : State), (s.dev.portState p ≠ 0 ∧ s.dev.portState (otherPort p) ≠ 2 ∧ s.dev.role = 0 ∧ s.dev.link.units = []) ∧ ((s.dev.port p).retry = [] ∧ (s.dev.port p).wait = [] ∧ (s.dev.port p).token = false) :=
  ⟨1, unit fun d => (d.fs .QL_PSTAT_STATE 2 1).onPort 1 fun q => { q with rxSeq := 9 }, by decide +kernel⟩

/-- The premises of portDownAlready in LinkPorts can be met together. -/
theorem witness_portDownAlready : ∃ (p : Fin 2) (s : State), (s.dev.portState p = 0) :=
  ⟨1, unit id, by decide +kernel⟩

/-- The premises of disable in LinkPorts can be met together. -/
theorem witness_disable : ∃ (p : Fin 2) (s : State), (s.dev.portState p ≠ 0 ∧ s.dev.portState (otherPort p) ≠ 2 ∧ s.dev.role = 0 ∧ s.dev.link.units = []) ∧ ((s.dev.port p).retry = [] ∧ (s.dev.port p).wait = [] ∧ (s.dev.port p).token = false) :=
  ⟨1, unit fun d => (d.fs .QL_PSTAT_STATE 2 1).onPort 1 fun q => { q with rxSeq := 9 }, by decide +kernel⟩

/-- The premises of portWake in LinkPorts can be met together. -/
theorem witness_portWake : ∃ (p : Fin 2) (s : State), (s.dev.portState p = 3 ∧ s.dev.mode = 1 ∧ s.dev.aon.asleep = false) :=
  ⟨0, unit fun d => (d.setMode 1).fs .QL_PSTAT_STATE 3 0, by decide +kernel⟩

/-- The premises of portWakeAsleep in LinkPorts can be met together. -/
theorem witness_portWakeAsleep : ∃ (p : Fin 2) (s : State), (s.dev.portState p = 3 ∧ s.dev.mode = 1 ∧ s.dev.aon.asleep = true) :=
  ⟨0, { unit fun d => (d.setMode 1).fs .QL_PSTAT_STATE 3 0 with dev := { (unit fun d => (d.setMode 1).fs .QL_PSTAT_STATE 3 0).dev with aon := { asleep := true } } }, by decide +kernel⟩

/-- The premises of portWakeNot in LinkPorts can be met together. -/
theorem witness_portWakeNot : ∃ (p : Fin 2) (s : State), (s.dev.portState p ≠ 3) :=
  ⟨0, unit id, by decide +kernel⟩

/-- The premises of messageForward in LinkPorts can be met together. -/
theorem witness_messageForward : ∃ (p : Fin 2) (m : QMsg) (s : State), (s.dev.link.inbox = [(p.val, m)] ∧ s.dev.forMe m = false ∧ s.dev.portState (otherPort p) = 4) :=
  ⟨0, { type := 0x20, dst := 9 }, unit fun d => (d.fs .QL_PSTAT_STATE 4 1).onLink fun l => { l with inbox := [(0, { type := 0x20, dst := 9 })] }, by decide +kernel⟩

/-- The premises of messageForwardNone in LinkPorts can be met together. -/
theorem witness_messageForwardNone : ∃ (s : State), (∀ e ∈ s.dev.link.inbox, s.dev.forMe e.2 = true) :=
  ⟨unit id, by decide +kernel⟩

/-- The premises of mmioWrite in MemberMessages can be met together. -/
theorem witness_mmioWrite : ∃ (p : Nat) (m : QMsg) (s : State), (s.dev.Has p 0x01 m ∧ s.dev.windowsOpen = true) :=
  ⟨2, { type := 1, arg := 0x1000 + 4 <<< 18, payload := [1, 2, 3, 4] }, unit fun d => ((head d).onFw fun w => { w with up := true }).onLink fun l => { l with inbox := [(2, { type := 1, arg := 0x1000 + 4 <<< 18, payload := [1, 2, 3, 4] })] }, by decide +kernel⟩

/-- The premises of mmioReadRequest in MemberMessages can be met together. -/
theorem witness_mmioReadRequest : ∃ (p : Nat) (m : QMsg) (s : State), (s.dev.Has p 0x02 m ∧ s.dev.windowsOpen = true) :=
  ⟨2, { type := 2, arg := 0x1000 + 4 <<< 18 }, unit fun d => ((head d).onFw fun w => { w with up := true }).onLink fun l => { l with inbox := [(2, { type := 2, arg := 0x1000 + 4 <<< 18 })] }, by decide +kernel⟩

/-- The premises of mmioReadCompletion in MemberMessages can be met together. -/
theorem witness_mmioReadCompletion : ∃ (p : Nat) (m : QMsg) (r : MemberRead) (s : State), (s.dev.Has p 0x03 m ∧ s.dev.host.reads = [r] ∧ r.tag = m.tag ∧ r.unit = m.src) :=
  ⟨2, { type := 3, tag := 7, payload := [1, 2, 3, 4] }, { tag := 7, len := 4 }, unit fun d => (head d).onHost (fun h => { h with reads := [{ tag := 7, len := 4 }] }) |>.onLink fun l => { l with inbox := [(2, { type := 3, tag := 7, payload := [1, 2, 3, 4] })] }, by decide +kernel⟩

/-- The premises of hostReadRequest in MemberMessages can be met together. -/
theorem witness_hostReadRequest : ∃ (p : Nat) (m : QMsg) (s : State), (s.dev.Has p 0x10 m ∧ s.dev.hostWaits = false ∧ 1 ≤ hField m.payload 8 4 ∧ hField m.payload 8 4 ≤ 256) :=
  ⟨2, { type := 0x10, payload := leBytes 8 64 ++ leBytes 4 8 }, unit fun d => (head d).onLink fun l => { l with inbox := [(2, { type := 0x10, payload := leBytes 8 64 ++ leBytes 4 8 })] }, by decide +kernel⟩

/-- The premises of hostReadRequestBad in MemberMessages can be met together. -/
theorem witness_hostReadRequestBad : ∃ (p : Nat) (m : QMsg) (s : State), (s.dev.Has p 0x10 m ∧ s.dev.hostWaits = false) :=
  ⟨2, { type := 0x10, payload := leBytes 8 64 ++ leBytes 4 8 }, unit fun d => (head d).onLink fun l => { l with inbox := [(2, { type := 0x10, payload := leBytes 8 64 ++ leBytes 4 8 })] }, by decide +kernel⟩

/-- The premises of hostReadData in MemberMessages can be met together. -/
theorem witness_hostReadData : ∃ (p : Nat) (m : QMsg) (a n id : Nat) (s : State), (s.dev.Has p 0x11 m ∧ s.dev.link.fetch = [(m.tag, a, n, id)] ∧ m.arg.testBit 31 = false) ∧ (n ≤ m.arg + (m.payload.take (n - m.arg)).length) :=
  ⟨2, { type := 0x11, tag := 7, payload := [1, 2, 3, 4] }, 64, 4, 5, unit fun d => (head d).onLink fun l => { l with fetch := [(7, 64, 4, 5)], inbox := [(2, { type := 0x11, tag := 7, payload := [1, 2, 3, 4] })] }, by decide +kernel⟩

/-- The premises of hostWriteData in MemberMessages can be met together. -/
theorem witness_hostWriteData : ∃ (p : Nat) (m : QMsg) (s : State), (s.dev.Has p 0x12 m ∧ s.dev.hostWaits = false ∧ m.arg ≠ 0) :=
  ⟨2, { type := 0x12, arg := 4, payload := leBytes 16 64 ++ [1, 2, 3, 4] }, unit fun d => (head d).onLink fun l => { l with inbox := [(2, { type := 0x12, arg := 4, payload := leBytes 16 64 ++ [1, 2, 3, 4] })] }, by decide +kernel⟩

/-- The premises of hostWriteAddress in MemberMessages can be met together. -/
theorem witness_hostWriteAddress : ∃ (p : Nat) (m : QMsg) (s : State), (s.dev.Has p 0x12 m ∧ s.dev.hostWaits = false ∧ m.arg = 0) :=
  ⟨2, { type := 0x12, payload := leBytes 16 64 }, unit fun d => (head d).onLink fun l => { l with inbox := [(2, { type := 0x12, payload := leBytes 16 64 })] }, by decide +kernel⟩

/-- The premises of memberReply in MemberMessages can be met together. -/
theorem witness_memberReply : ∃ (p : Nat) (m : QMsg) (a : Nat) (s : State), (s.dev.Has p 0x13 m ∧ s.dev.hostWaits = false ∧ m.arg = 1) ∧ (sparseGet 0 s.dev.host.replyAt (65536 * m.src + m.tag) = a + 1) :=
  ⟨2, { type := 0x13, arg := 1, payload := bytes64 [1] }, 64, unit fun d => (head d).onHost (fun h => { h with replyAt := [(0, 65)] }) |>.onLink fun l => { l with inbox := [(2, { type := 0x13, arg := 1, payload := bytes64 [1] })] }, by decide +kernel⟩

/-- The premises of memberReplyAbandoned in MemberMessages can be met together. -/
theorem witness_memberReplyAbandoned : ∃ (p : Nat) (m : QMsg) (s : State), (s.dev.Has p 0x13 m ∧ s.dev.hostWaits = false ∧ m.arg = 0x101) :=
  ⟨2, { type := 0x13, arg := 0x101 }, unit fun d => (head d).onLink fun l => { l with inbox := [(2, { type := 0x13, arg := 0x101 })] }, by decide +kernel⟩

/-- The premises of noMessage in MemberMessages can be met together. -/
theorem witness_noMessage : ∃ (c : Instr) (s : State), (s.dev.link.inbox = []) ∧ (c ∈ [Instr.mmioWrite, .mmioReadRequest, .mmioReadCompletion, .hostReadRequest true, .hostReadRequest false, .hostReadData, .hostWrite, .memberReply, .messageForward, .time, .sleep, .topo]) :=
  ⟨.topo, unit id, by decide +kernel⟩

/-- The premises of sentToItself in MemberMessages can be met together. -/
theorem witness_sentToItself : ∃ (m : QMsg) (d : Dev), (m.dst = d.addr) :=
  ⟨{}, (unit id).dev, by decide +kernel⟩

/-- The premises of sentNowhere in MemberMessages can be met together. -/
theorem witness_sentNowhere : ∃ (m : QMsg) (d : Dev), (m.dst ≠ d.addr ∧ d.route m.dst = none) :=
  ⟨{ dst := 9 }, (unit id).dev, by decide +kernel⟩

/-- The premises of claimWon in ChainMessages can be met together. -/
theorem witness_claimWon : ∃ (p : Nat) (m : QMsg) (s : State), (s.dev.Has p 0x30 m ∧ m.arg = s.dev.serial % 2 ^ 32 ∧ s.dev.link.claiming = true ∧ m.tag = 2) :=
  ⟨2, { type := 0x30, bcast := true, tag := 2 }, unit fun d => d.onLink fun l => { l with claiming := true, inbox := [(2, { type := 0x30, bcast := true, tag := 2 })] }, by decide +kernel⟩

/-- The premises of claimSmaller in ChainMessages can be met together. -/
theorem witness_claimSmaller : ∃ (p : Nat) (m : QMsg) (s : State), (s.dev.Has p 0x30 m ∧ m.arg < s.dev.serial % 2 ^ 32 ∧ s.dev.link.claiming = true) :=
  ⟨2, { type := 0x30, bcast := true, tag := 2 }, unit fun d => { d.onLink fun l => { l with claiming := true, inbox := [(2, { type := 0x30, bcast := true, tag := 2 })] } with shadow := 9 }, by decide +kernel⟩

/-- The premises of claimNone in ChainMessages can be met together. -/
theorem witness_claimNone : ∃ (s : State), (s.dev.link.inbox = [] ∧ s.dev.mayClaim = false) :=
  ⟨unit id, by decide +kernel⟩

/-- The premises of countNumber in ChainMessages can be met together. -/
theorem witness_countNumber : ∃ (p : Nat) (m : QMsg) (d : Dev) (s : State), (s.dev.Has p 0x31 m ∧ m.bcast = true ∧ hField m.payload 8 8 ≠ s.dev.serial ∧ m.arg.testBit 25 = false) ∧ (s.dev.link.op = none ∧ s.dev.legEnds p m = true) ∧ (d = engage (some { op := 1, head := hField m.payload 8 8 }) ((s.dev.took p m).onLink fun l => { l with claiming := false })) :=
  ⟨1, { type := 0x31, bcast := true, arg := 3, payload := leBytes 8 3 ++ leBytes 8 99 }, engage (some { op := 1, head := 99 }) (((unit fun d => d.onLink fun l => { l with inbox := [(1, { type := 0x31, bcast := true, arg := 3, payload := leBytes 8 3 ++ leBytes 8 99 })] }).dev.took 1 { type := 0x31, bcast := true, arg := 3, payload := leBytes 8 3 ++ leBytes 8 99 }).onLink fun l => { l with claiming := false }), unit fun d => d.onLink fun l => { l with inbox := [(1, { type := 0x31, bcast := true, arg := 3, payload := leBytes 8 3 ++ leBytes 8 99 })] }, by decide +kernel⟩

/-- The premises of countAnswer in ChainMessages can be met together. -/
theorem witness_countAnswer : ∃ (p : Nat) (m : QMsg) (o : ChainOp) (s : State), (s.dev.Has p 0x31 m ∧ m.bcast = false ∧ m.arg.testBit 25 = false ∧ m.arg.testBit 24 = false ∧ m.arg % 256 < 64) ∧ (s.dev.link.op = some o ∧ o.own = true ∧ o.op = 1 ∧ o.phase = 1 ∧ o.legs = 0) :=
  ⟨1, { type := 0x31, arg := 3, payload := leBytes 8 5 ++ leBytes 8 99 }, { op := 1, own := true, phase := 1 }, unit fun d => d.onLink fun l => { l with op := some { op := 1, own := true, phase := 1 }, inbox := [(1, { type := 0x31, arg := 3, payload := leBytes 8 5 ++ leBytes 8 99 })] }, by decide +kernel⟩

/-- The premises of map in ChainMessages can be met together. -/
theorem witness_map : ∃ (p : Nat) (m : QMsg) (units : List QUnit) (s : State), (s.dev.Has p 0x32 m ∧ m.bcast = true ∧ s.dev.link.op = none ∧ hField m.payload 5 1 = 0 ∧ hField m.payload 4 1 ≤ 4) ∧ (units = (List.range (hField m.payload 4 1)).map fun i => ({ serial := hField m.payload (16 + 16 * i) 8, pos := hField m.payload (24 + 16 * i) 1, headB := hField m.payload (25 + 16 * i) 1 == 1 } : QUnit)) :=
  ⟨1, { type := 0x32, bcast := true, payload := leBytes 4 6 ++ leBytes 4 1 ++ leBytes 24 0 }, [{}], unit fun d => d.onLink fun l => { l with inbox := [(1, { type := 0x32, bcast := true, payload := leBytes 4 6 ++ leBytes 4 1 ++ leBytes 24 0 })] }, by decide +kernel⟩

/-- The premises of mapAdopted in ChainMessages can be met together. -/
theorem witness_mapAdopted : ∃ (epoch i : Nat) (u : QUnit) (units : List QUnit) (down : List Nat) (d : Dev), (d.link.units = [] ∧ d.host.held = [] ∧ units.length < 64 ∧ epoch < 2 ^ 32) ∧ ((units.findIdx? fun u => u.serial == d.serial) = some i ∧ units[i]? = some u ∧ (i = 0 → u.headB = false)) :=
  ⟨6, 0, {}, [{}], [0], (unit id).dev, by decide +kernel⟩

/-- The premises of token in ChainMessages can be met together. -/
theorem witness_token : ∃ (p out : Nat) (m : QMsg) (s : State), (s.dev.Has p 0x33 m ∧ m.bcast = true ∧ out = onward p m ∧ s.dev.portState out = 2) :=
  ⟨0, 1, { type := 0x33, bcast := true }, unit fun d => (d.fs .QL_PSTAT_STATE 2 1).onLink fun l => { l with inbox := [(0, { type := 0x33, bcast := true })] }, by decide +kernel⟩

/-- The premises of tokenLost in ChainMessages can be met together. -/
theorem witness_tokenLost : ∃ (p : Fin 2) (s : State), ((s.dev.port p).token = false ∧ s.dev.is .QL_STAT_ADDR_VALID = true ∧ (s.dev.port p).passed + 10000000 ≤ s.dev.qtime) :=
  ⟨1, unit fun d => { head d with qtime := 10000000 }, by decide +kernel⟩

/-- The premises of tokenNotLost in ChainMessages can be met together. -/
theorem witness_tokenNotLost : ∃ (p : Fin 2) (s : State), (s.dev.qtime < (s.dev.port p).passed + 10000000) :=
  ⟨1, unit head, by decide +kernel⟩

/-- The premises of tokenHere in ChainMessages can be met together. -/
theorem witness_tokenHere : ∃ (p : Fin 2) (s : State), ((s.dev.port p).token = true) :=
  ⟨1, unit fun d => d.onPort 1 fun q => { q with token := true }, by decide +kernel⟩

/-- The premises of timeBroadcastMember in ChainMessages can be met together. -/
theorem witness_timeBroadcastMember : ∃ (elapsed : Nat) (s : State), (s.dev.role ≠ 1 ∧ s.dev.link.ahead = 0) :=
  ⟨70, unit fun d => d.onLink fun l => { l with ahead := 0 }, by decide +kernel⟩

/-- The premises of timeBroadcastAhead in ChainMessages can be met together. -/
theorem witness_timeBroadcastAhead : ∃ (elapsed : Nat) (s : State), (s.dev.role ≠ 1 ∧ elapsed ≤ 2 * s.dev.link.ahead) :=
  ⟨71, unit fun d => d.onLink fun l => { l with ahead := 100 }, by decide +kernel⟩

/-- The premises of timeBroadcastHead in ChainMessages can be met together. -/
theorem witness_timeBroadcastHead : ∃ (elapsed : Nat) (m : QMsg) (s : State), (s.dev.role = 1 ∧ s.dev.link.ahead = 0 ∧ m = { type := 0x34, payload := takeFill 0#8 16 (leBytes 8 ((s.dev.qtime + elapsed) % 2 ^ 64)) }) :=
  ⟨70, { type := 0x34, payload := takeFill 0#8 16 (leBytes 8 70) }, unit fun d => (head d).onLink fun l => { l with ahead := 0 }, by decide +kernel⟩

/-- The premises of time in ChainMessages can be met together. -/
theorem witness_time : ∃ (p : Nat) (m : QMsg) (t : Nat) (s : State), (s.dev.Has p 0x34 m ∧ m.src ≠ s.dev.addr ∧ t = hField m.payload 0 8 + s.dev.fg .QL_PDELAY_DELAY p) ∧ (s.dev.qtime ≤ t ∧ t < 2 ^ 64) :=
  ⟨0, { type := 0x34, bcast := true, src := 3, payload := leBytes 16 500 }, 540, unit fun d => { (d.fs .QL_PDELAY_DELAY 40 0).onLink fun l => { l with inbox := [(0, { type := 0x34, bcast := true, src := 3, payload := leBytes 16 500 })] } with qtime := 9 }, by decide +kernel⟩

/-- The premises of timeFoundAhead in ChainMessages can be met together. -/
theorem witness_timeFoundAhead : ∃ (p : Nat) (m : QMsg) (t : Nat) (s : State), (s.dev.Has p 0x34 m ∧ m.src ≠ s.dev.addr ∧ t = hField m.payload 0 8 + s.dev.fg .QL_PDELAY_DELAY p) ∧ (t < s.dev.qtime) :=
  ⟨0, { type := 0x34, bcast := true, src := 3, payload := leBytes 16 500 }, 540, unit fun d => { (d.fs .QL_PDELAY_DELAY 40 0).onLink fun l => { l with inbox := [(0, { type := 0x34, bcast := true, src := 3, payload := leBytes 16 500 })] } with qtime := 900 }, by decide +kernel⟩

/-- The premises of timeNotBack in ChainMessages can be met together. -/
theorem witness_timeNotBack : ∃ (s : State), (s.dev.qtime < 2 ^ 64) :=
  ⟨unit fun d => { d.onLink fun l => { l with inbox := [(0, { type := 0x34, bcast := true, src := 3, payload := leBytes 16 500 })] } with qtime := 900 }, by decide +kernel⟩

/-- The premises of barrierArrives in ChainMessages can be met together. -/
theorem witness_barrierArrives : ∃ (p : Nat) (m : QMsg) (s : State), (s.dev.Has p 0x35 m ∧ m.bcast = true ∧ m.src ≠ s.dev.addr ∧ m.arg = 1 ∧ s.dev.link.op = none ∧ s.dev.fw.cmds = []) :=
  ⟨0, { type := 0x35, bcast := true, src := 3, arg := 1 }, unit fun d => d.onLink fun l => { l with inbox := [(0, { type := 0x35, bcast := true, src := 3, arg := 1 })] }, by decide +kernel⟩

/-- The premises of barrierHolds in ChainMessages can be met together. -/
theorem witness_barrierHolds : ∃ (p : Nat) (m : QMsg) (c : Cmd) (s : State), (s.dev.Has p 0x35 m ∧ m.bcast = true ∧ m.src ≠ s.dev.addr ∧ m.arg = 1 ∧ s.dev.link.op = none ∧ s.dev.fw.cmds = [c] ∧ c.ssq ≠ 0) :=
  ⟨0, { type := 0x35, bcast := true, src := 3, arg := 1 }, cmd5 [], unit fun d => (doing [] d).onLink fun l => { l with inbox := [(0, { type := 0x35, bcast := true, src := 3, arg := 1 })] }, by decide +kernel⟩

/-- The premises of passRefused in ChainMessages can be met together. -/
theorem witness_passRefused : ∃ (p : Nat) (m : QMsg) (o : ChainOp) (c : Instr) (type : Nat) (s : State), (s.dev.Has p type m ∧ m.bcast = true ∧ m.src ≠ s.dev.addr ∧ m.arg % 4 = 1 ∧ m.arg < 4 ∧ s.dev.link.op = some o ∧ o.own = true) ∧ ((c, type) ∈ [(Instr.barrier, 0x35), (.snap, 0x36), (.chainReset false, 0x37), (.chainReset true, 0x37)]) :=
  ⟨0, { type := 0x36, bcast := true, src := 3, arg := 1 }, { op := 2, own := true }, .snap, 0x36, unit fun d => d.onLink fun l => { l with op := some { op := 2, own := true }, inbox := [(0, { type := 0x36, bcast := true, src := 3, arg := 1 })] }, by decide +kernel⟩

/-- The premises of snapHold in ChainMessages can be met together. -/
theorem witness_snapHold : ∃ (p : Nat) (m : QMsg) (s : State), (s.dev.Has p 0x36 m ∧ m.bcast = true ∧ m.src ≠ s.dev.addr ∧ m.arg % 4 = 1 ∧ s.dev.link.op = none) :=
  ⟨0, { type := 0x36, bcast := true, src := 3, arg := 1 }, unit fun d => d.onLink fun l => { l with inbox := [(0, { type := 0x36, bcast := true, src := 3, arg := 1 })] }, by decide +kernel⟩

/-- The premises of snapRelease in ChainMessages can be met together. -/
theorem witness_snapRelease : ∃ (p : Nat) (m : QMsg) (o : ChainOp) (s : State), (s.dev.Has p 0x36 m ∧ m.bcast = true ∧ m.src ≠ s.dev.addr ∧ m.arg % 4 = 2 ∧ s.dev.link.op = some o ∧ o.op = 3 ∧ o.head = m.src ∧ o.own = false) :=
  ⟨0, { type := 0x36, bcast := true, src := 3, arg := 2 }, { op := 3, head := 3 }, unit fun d => d.onLink fun l => { l with op := some { op := 3, head := 3 }, inbox := [(0, { type := 0x36, bcast := true, src := 3, arg := 2 })] }, by decide +kernel⟩

/-- The premises of chainResetPass in ChainMessages can be met together. -/
theorem witness_chainResetPass : ∃ (begun : Bool) (p : Nat) (m : QMsg) (s : State), (s.dev.Has p 0x37 m ∧ m.bcast = true ∧ m.src ≠ s.dev.addr ∧ s.dev.link.op = none) :=
  ⟨true, 0, { type := 0x37, bcast := true, src := 3 }, unit fun d => d.onLink fun l => { l with inbox := [(0, { type := 0x37, bcast := true, src := 3 })] }, by decide +kernel⟩

/-- The premises of chainResetDue in ChainMessages can be met together. -/
theorem witness_chainResetDue : ∃ (begun : Bool) (o : ChainOp) (s : State), (s.dev.link.inbox = [] ∧ s.dev.link.op = some o ∧ o.op = 4 ∧ o.own = false ∧ (s.dev.port o.legs).retry = []) :=
  ⟨true, { op := 4, legs := 1 }, unit fun d => d.onLink fun l => { l with op := some { op := 4, legs := 1 } }, by decide +kernel⟩

/-- The premises of sleepWake in ChainMessages can be met together. -/
theorem witness_sleepWake : ∃ (p : Nat) (m : QMsg) (s : State), (s.dev.Has p 0x38 m ∧ m.arg % 256 = 3 ∧ m.src ≠ s.dev.addr) :=
  ⟨0, { type := 0x38, bcast := true, src := 3, arg := 0x203 }, unit fun d => d.onLink fun l => { l with inbox := [(0, { type := 0x38, bcast := true, src := 3, arg := 0x203 })] }, by decide +kernel⟩

/-- The premises of sleepRefused in ChainMessages can be met together. -/
theorem witness_sleepRefused : ∃ (p : Nat) (m : QMsg) (s : State), (s.dev.Has p 0x38 m ∧ m.arg % 256 = 1 ∧ (s.dev.took p m).maySleep (bitsOf m.arg 8 6) = false) :=
  ⟨2, { type := 0x38, src := 3, arg := 0x301 }, unit fun d => (head d).onLink fun l => { l with inbox := [(2, { type := 0x38, src := 3, arg := 0x301 })] }, by decide +kernel⟩

/-- The premises of sleepGranted in ChainMessages can be met together. -/
theorem witness_sleepGranted : ∃ (p : Nat) (m : QMsg) (s : State), (s.dev.Has p 0x38 m ∧ m.arg % 256 = 2 ∧ m.src ≠ s.dev.addr) :=
  ⟨0, { type := 0x38, bcast := true, src := 3, arg := 0x202 }, unit fun d => d.onLink fun l => { l with inbox := [(0, { type := 0x38, bcast := true, src := 3, arg := 0x202 })] }, by decide +kernel⟩

/-- The premises of topo in ChainMessages can be met together. -/
theorem witness_topo : ∃ (p : Nat) (m : QMsg) (s : State), (s.dev.Has p 0x39 m ∧ m.src ≠ s.dev.addr ∧ hField m.payload 1 1 = 0) :=
  ⟨0, { type := 0x39, bcast := true, src := 3, payload := leBytes 16 2 }, unit fun d => d.onLink fun l => { l with inbox := [(0, { type := 0x39, bcast := true, src := 3, payload := leBytes 16 2 })] }, by decide +kernel⟩

/-- The premises of linkIdleSleep in ChainMessages can be met together. -/
theorem witness_linkIdleSleep : ∃ (s : State), (s.dev.mode = 1 ∧ s.dev.aon.sleep = true ∧ s.dev.aon.asleep = false) ∧ (∀ p : Fin 2, s.dev.portState p ≠ 2 ∨ (s.dev.port p).busy + 100000000 ≤ s.dev.qtime) :=
  ⟨unit fun d => { d.setMode 1 with aon := { d.aon with sleep := true, asleep := false } }, by decide +kernel⟩

/-- The premises of linkIdleBusy in ChainMessages can be met together. -/
theorem witness_linkIdleBusy : ∃ (p : Fin 2) (s : State), (s.dev.mode ≠ 1 ∨ s.dev.aon.sleep = false ∨ s.dev.aon.asleep = true ∨ (s.dev.portState p = 2 ∧ s.dev.qtime < (s.dev.port p).busy + 100000000)) :=
  ⟨1, unit fun d => ({ (d.setMode 1).fs .QL_PSTAT_STATE 2 1 with aon := { d.aon with sleep := true, asleep := false } } : Dev).onPort 1 fun q => { q with busy := d.qtime }, by decide +kernel⟩

/-- The premises of chainBusy in ChainCommands can be met together. -/
theorem witness_chainBusy : ∃ (id op : Nat) (c : Cmd) (o : ChainOp) (i : Instr) (s : State), (s.dev.Doing id 0x29 c ∧ c.field 16 1 = op ∧ c.work = 0 ∧ s.dev.link.op = some o) ∧ ((op, i) ∈ [(1, Instr.chainOpCountOff id), (2, .chainOpBarrier id), (3, .chainOpReset id)]) :=
  ⟨5, 2, cmd5 (leBytes 16 0x29 ++ leBytes 1 2), { op := 1 }, .chainOpBarrier 5, unit fun d => (doing (leBytes 16 0x29 ++ leBytes 1 2) d).onLink fun l => { l with op := some { op := 1 } }, by decide +kernel⟩

/-- The premises of chainCountOff in ChainCommands can be met together. -/
theorem witness_chainCountOff : ∃ (id : Nat) (c : Cmd) (s : State), (s.dev.Doing id 0x29 c ∧ c.field 16 1 = 1 ∧ c.work = 0 ∧ s.dev.link.op = none ∧ s.dev.fw.cmds = [c]) ∧ (s.dev.portState 0 ≠ 2 ∧ s.dev.portState 1 ≠ 2 ∧ s.dev.link.units = [] ∧ s.dev.host.held = []) :=
  ⟨5, cmd5 (leBytes 16 0x29 ++ leBytes 1 1), unit fun d => doing (leBytes 16 0x29 ++ leBytes 1 1) d, by decide +kernel⟩

/-- The premises of chainOpBarrier in ChainCommands can be met together. -/
theorem witness_chainOpBarrier : ∃ (id : Nat) (c : Cmd) (s : State), (s.dev.Doing id 0x29 c ∧ c.field 16 1 = 2 ∧ c.work = 0 ∧ s.dev.link.op = none ∧ s.dev.fw.cmds = [c]) ∧ (s.dev.portState 0 ≠ 2 ∧ s.dev.portState 1 ≠ 2) :=
  ⟨5, cmd5 (leBytes 16 0x29 ++ leBytes 1 2), unit fun d => doing (leBytes 16 0x29 ++ leBytes 1 2) (head d), by decide +kernel⟩

/-- The premises of chainOpReset in ChainCommands can be met together. -/
theorem witness_chainOpReset : ∃ (id : Nat) (c : Cmd) (s : State), (s.dev.Doing id 0x29 c ∧ c.field 16 1 = 3 ∧ c.work = 0 ∧ s.dev.link.op = none) ∧ (s.dev.portState 0 ≠ 2 ∧ s.dev.portState 1 ≠ 2) :=
  ⟨5, cmd5 (leBytes 16 0x29 ++ leBytes 1 3), unit fun d => doing (leBytes 16 0x29 ++ leBytes 1 3) (head d), by decide +kernel⟩

/-- The premises of chainBarrierPass in ChainCommands can be met together. -/
theorem witness_chainBarrierPass : ∃ (id : Nat) (c : Cmd) (s : State), (s.dev.Doing id 0x29 c ∧ c.field 16 1 = 2 ∧ c.work = 0 ∧ s.dev.link.op = none) :=
  ⟨5, cmd5 (leBytes 16 0x29 ++ leBytes 1 2), unit fun d => doing (leBytes 16 0x29 ++ leBytes 1 2) ((head d).fs .QL_PSTAT_STATE 2 1), by decide +kernel⟩

/-- The premises of snapshotBusy in ChainCommands can be met together. -/
theorem witness_snapshotBusy : ∃ (id : Nat) (c : Cmd) (o : ChainOp) (s : State), (s.dev.Doing id 0x28 c ∧ c.field 20 1 ≠ 1 ∧ c.work = 0 ∧ s.dev.link.op = some o) :=
  ⟨5, cmd5 (leBytes 16 0x28), { op := 1 }, unit fun d => (doing (leBytes 16 0x28) d).onLink fun l => { l with op := some { op := 1 } }, by decide +kernel⟩

/-- The premises of snapshot in ChainCommands can be met together. -/
theorem witness_snapshot : ∃ (id : Nat) (c : Cmd) (s : State), (s.dev.Doing id 0x28 c ∧ c.field 20 1 ≠ 1 ∧ c.work = 0 ∧ s.dev.link.op = none ∧ s.dev.fw.cmds = [c]) ∧ (s.dev.portState 0 ≠ 2 ∧ s.dev.portState 1 ≠ 2) :=
  ⟨5, cmd5 (leBytes 16 0x28), unit fun d => { doing (leBytes 16 0x28) (head d) with qtime := 77 }, by decide +kernel⟩

/-- The premises of chainNotRunning in ChainCommands can be met together. -/
theorem witness_chainNotRunning : ∃ (id : Nat) (i : Instr) (s : State), (s.dev.cmd id = none) ∧ (i ∈ [Instr.snapshot id, .chainOpCountOff id, .chainOpBarrier id, .chainOpReset id]) :=
  ⟨5, .snapshot 5, unit id, by decide +kernel⟩

/-- The premises of groupCreate in GroupCommands can be met together. -/
theorem witness_groupCreate : ∃ (id : Nat) (c : Cmd) (g : Group) (classes : List Nat) (s : State), (s.dev.Doing id 0x20 c ∧ s.dev.comp.created = [(id, g, classes)] ∧ s.dev.link.units = []) ∧ (classes.length = g.size ∧ g.size ≠ 0 ∧ (∀ x ∈ classes, x ≤ 1 ∧ x = classes.headD 0xFF)) :=
  ⟨5, cmd5 (cmdB 0x20 0 0 0), { members := [{ unit := 1 }, { unit := 2 }] }, [1, 1], unit fun d => (doing (cmdB 0x20 0 0 0) d).onComp fun c => { c with created := [(5, { members := [{ unit := 1 }, { unit := 2 }] }, [1, 1])] }, by decide +kernel⟩

/-- The premises of groupCreateMixed in GroupCommands can be met together. -/
theorem witness_groupCreateMixed : ∃ (id : Nat) (c : Cmd) (g : Group) (s : State), (s.dev.Doing id 0x20 c ∧ s.dev.comp.created = [(id, g, [0, 1])] ∧ g.size = 2) :=
  ⟨5, cmd5 (cmdB 0x20 0 0 0), { members := [{ unit := 1 }, { unit := 2 }] }, unit fun d => (doing (cmdB 0x20 0 0 0) d).onComp fun c => { c with created := [(5, { members := [{ unit := 1 }, { unit := 2 }] }, [0, 1])] }, by decide +kernel⟩

/-- The premises of groupCreateRefused in GroupCommands can be met together. -/
theorem witness_groupCreateRefused : ∃ (id : Nat) (c : Cmd) (s : State), (s.dev.Doing id 0x20 c ∧ s.dev.HasData c ∧ s.dev.comp.created = []) ∧ ((s.dev.hostData c).length = 64 + 32 * le (s.dev.hostData c) 1 1 ∧ s.dev.geometryOk (s.dev.hostData c) = false) :=
  ⟨5, cmd5 (cmdB 0x20 64 0 0), unit fun d => doing (cmdB 0x20 64 0 0) (head d), by decide +kernel⟩

/-- The premises of groupDelete in GroupCommands can be met together. -/
theorem witness_groupDelete : ∃ (id : Nat) (c : Cmd) (g : Group) (s : State), (s.dev.Doing id 0x21 c ∧ s.dev.group c.groupId = some g ∧ s.dev.groupBusy c.groupId id = false ∧ s.dev.link.units = []) :=
  ⟨5, cmd5 (cmdB 0x21 0 0 0 ++ [0, 0] ++ leBytes 4 9), { id := 9, keeper := 1 }, unit fun d => (doing (cmdB 0x21 0 0 0 ++ [0, 0] ++ leBytes 4 9) d).onComp fun c => { c with groups := [{ id := 9, keeper := 1 }, { id := 4 }] }, by decide +kernel⟩

/-- The premises of groupUnknown in GroupCommands can be met together. -/
theorem witness_groupUnknown : ∃ (id : Nat) (c : Cmd) (s : State) (i : Instr) (op : Nat), (s.dev.Doing id op c ∧ s.dev.group c.groupId = none ∧ s.dev.comp.jobs = []) ∧ ((op, i) ∈ [(0x21, Instr.groupDelete id), (0x23, .groupRead id), (0x24, .groupStatus id)]) :=
  ⟨5, cmd5 (cmdB 0x24 0 0 0), unit fun d => doing (cmdB 0x24 0 0 0) d, .groupStatus 5, 0x24, by decide +kernel⟩

/-- The premises of groupWrite in GroupCommands can be met together. -/
theorem witness_groupWrite : ∃ (id : Nat) (c : Cmd) (s : State), (s.dev.Doing id 0x22 c) :=
  ⟨5, cmd5 (cmdB 0x22 0 0 0), unit fun d => doing (cmdB 0x22 0 0 0) d, by decide +kernel⟩

/-- The premises of groupWriteProbe in GroupCommands can be met together. -/
theorem witness_groupWriteProbe : ∃ (id : Nat) (c : Cmd) (g : Group) (s : State), (s.dev.cmd id = some c ∧ c.stage = .running ∧ c.ssq = 0 ∧ c.opcode = 0x22 ∧ c.work = 0) ∧ (s.dev.mustWait c = false ∧ s.dev.blocked c = false ∧ judge s.dev c = none ∧ s.dev.group c.groupId = some g) :=
  ⟨5, { id := 5, bytes := bytes64 (leBytes 8 0x22 ++ leBytes 8 131072 ++ leBytes 12 0 ++ leBytes 4 9 ++ leBytes 4 0 ++ leBytes 4 1) }, { id := 9, members := [{ unit := 1 }, { unit := 2, state := 2 }], fmax := 1 }, unit fun d => ((head { d with shadow := 2 <<< 64 }).onComp fun c => { c with groups := [{ id := 9, members := [{ unit := 1 }, { unit := 2, state := 2 }], fmax := 1 }] }).onFw fun w => { w with up := true, cmds := [{ id := 5, bytes := bytes64 (leBytes 8 0x22 ++ leBytes 8 131072 ++ leBytes 12 0 ++ leBytes 4 9 ++ leBytes 4 0 ++ leBytes 4 1) }], disc := { loaded := true, mediaClass := 1 } }, by decide +kernel⟩

/-- The premises of groupRead in GroupCommands can be met together. -/
theorem witness_groupRead : ∃ (id : Nat) (c : Cmd) (g : Group) (s : State), (s.dev.Doing id 0x23 c ∧ s.dev.group c.groupId = some g ∧ c.work = 0) :=
  ⟨5, cmd5 (cmdB 0x23 0 0 0 ++ [0, 0] ++ leBytes 4 9), { id := 9 }, unit fun d => (doing (cmdB 0x23 0 0 0 ++ [0, 0] ++ leBytes 4 9) d).onComp fun c => { c with groups := [{ id := 9 }] }, by decide +kernel⟩

/-- The premises of groupReadEnd in GroupCommands can be met together. -/
theorem witness_groupReadEnd : ∃ (id : Nat) (c : Cmd) (g : Group) (j : StripeJob) (cls : Nat) (s : State), (s.dev.Doing id 0x23 c ∧ s.dev.group c.groupId = some g ∧ c.work ≠ 0 ∧ s.dev.fw.cmds = [c]) ∧ (s.dev.comp.jobs = [j] ∧ j.cmd = id ∧ j.res = some (4, cls) ∧ j.group = g.id ∧ s.dev.comp.writes = [] ∧ s.dev.comp.parts = [] ∧ s.dev.comp.served = []) :=
  ⟨5, { cmd5 (cmdB 0x23 0 0 0 ++ [0, 0] ++ leBytes 4 9) with work := 1 }, { id := 9 }, { cmd := 5, group := 9, res := some (4, 1) }, 1, unit fun d => (d.onFw fun w => { w with cmds := [{ cmd5 (cmdB 0x23 0 0 0 ++ [0, 0] ++ leBytes 4 9) with work := 1 }] }).onComp fun c => { c with groups := [{ id := 9 }], jobs := [{ cmd := 5, group := 9, res := some (4, 1) }] }, by decide +kernel⟩

/-- The premises of groupStatus in GroupCommands can be met together. -/
theorem witness_groupStatus : ∃ (id : Nat) (c : Cmd) (g : Group) (s : State), (s.dev.Doing id 0x24 c ∧ s.dev.HasData c ∧ s.dev.group c.groupId = some g) :=
  ⟨5, cmd5 (cmdB 0x24 96 0 0 ++ [0, 0] ++ leBytes 4 9), { id := 9, members := [{ unit := 1 }, {}] }, unit fun d => (doing (cmdB 0x24 96 0 0 ++ [0, 0] ++ leBytes 4 9) (head d)).onComp fun c => { c with groups := [{ id := 9, members := [{ unit := 1 }, {}] }] }, by decide +kernel⟩

/-- The premises of groupRebuild in GroupCommands can be met together. -/
theorem witness_groupRebuild : ∃ (id : Nat) (c : Cmd) (g : Group) (u : QUnit) (s : State), (s.dev.Doing id 0x25 c ∧ s.dev.group c.groupId = some g ∧ s.dev.unitAt (c.field 33 1) = some u ∧ c.work = 0) :=
  ⟨5, cmd5 (cmdB 0x25 0 0 0 ++ [0, 0] ++ leBytes 4 9), { id := 9 }, { serial := 6 }, unit fun d => ((doing (cmdB 0x25 0 0 0 ++ [0, 0] ++ leBytes 4 9) d).onComp fun c => { c with groups := [{ id := 9 }] }).onLink fun l => { l with units := [{ serial := 6 }] }, by decide +kernel⟩

/-- The premises of groupNotRunning in GroupCommands can be met together. -/
theorem witness_groupNotRunning : ∃ (id : Nat) (i : Instr) (s : State), (s.dev.cmd id = none) ∧ (i ∈ [Instr.groupCreate id, .groupDelete id, .groupWrite id, .groupRead id, .groupStatus id, .groupRebuild id]) :=
  ⟨5, .groupRead 5, unit id, by decide +kernel⟩

/-- The premises of unitRequestStale in GroupMessages can be met together. -/
theorem witness_unitRequestStale : ∃ (p : Nat) (m : QMsg) (s : State), (s.dev.Has p 0x20 m ∧ s.dev.fw.up = true ∧ m.epoch ≠ 0 ∧ m.epoch ≠ (s.dev.took p m).epoch) :=
  ⟨2, { type := 0x20, epoch := 3, arg := 1 }, unit fun d => ((head d).onFw fun w => { w with up := true }).onLink fun l => { l with inbox := [(2, { type := 0x20, epoch := 3, arg := 1 })] }, by decide +kernel⟩

/-- The premises of unitRequestProbe in GroupMessages can be met together. -/
theorem witness_unitRequestProbe : ∃ (p : Nat) (m : QMsg) (s : State), (s.dev.Has p 0x20 m ∧ s.dev.fw.up = true ∧ m.epoch = 0 ∧ m.arg = 1 ∧ s.dev.Calm ∧ s.dev.fw.cmds = []) :=
  ⟨2, { type := 0x20, arg := 1 }, unit fun d => ((head d).onFw fun w => { w with up := true }).onLink fun l => { l with inbox := [(2, { type := 0x20, arg := 1 })] }, by decide +kernel⟩

/-- The premises of unitRequestLock in GroupMessages can be met together. -/
theorem witness_unitRequestLock : ∃ (p : Nat) (m : QMsg) (g : Group) (s : State), (s.dev.Has p 0x20 m ∧ s.dev.fw.up = true ∧ m.epoch = 0 ∧ m.arg = 9 ∧ s.dev.Calm ∧ s.dev.fw.cmds = []) ∧ (s.dev.group (le m.payload 0 4) = some g ∧ s.dev.keeps g = true) :=
  ⟨2, { type := 0x20, arg := 9, payload := leBytes 16 9 }, { id := 9 }, unit fun d => (({ head d with shadow := 2 <<< 64 }.onFw fun w => { w with up := true }).onComp fun c => { c with groups := [{ id := 9 }] }).onLink fun l => { l with inbox := [(2, { type := 0x20, arg := 9, payload := leBytes 16 9 })] }, by decide +kernel⟩

/-- The premises of unitResponse in GroupMessages can be met together. -/
theorem witness_unitResponse : ∃ (p : Nat) (m : QMsg) (a : GroupAsk) (s : State), (s.dev.Has p 0x21 m ∧ s.dev.comp.asks = [a] ∧ a.tag = m.tag ∧ a.kind = 1 ∧ m.arg / 256 ≤ 1 ∧ s.dev.Calm ∧ s.dev.fw.cmds = []) :=
  ⟨2, { type := 0x21, tag := 4 }, { tag := 4, kind := 1 }, unit fun d => ((head d).onComp fun c => { c with asks := [{ tag := 4, kind := 1 }] }).onLink fun l => { l with inbox := [(2, { type := 0x21, tag := 4 })] }, by decide +kernel⟩

/-- The premises of unitResponseAsleep in GroupMessages can be met together. -/
theorem witness_unitResponseAsleep : ∃ (p : Nat) (m : QMsg) (a : GroupAsk) (s : State), (s.dev.Has p 0x21 m ∧ s.dev.comp.asks = [a] ∧ a.tag = m.tag ∧ a.cmd = 0 ∧ m.arg / 256 = 8 ∧ s.dev.Calm ∧ s.dev.fw.cmds = []) :=
  ⟨2, { type := 0x21, tag := 4, arg := 0x801 }, { tag := 4, kind := 5 }, unit fun d => ((head d).onComp fun c => { c with asks := [{ tag := 4, kind := 5 }] }).onLink fun l => { l with inbox := [(2, { type := 0x21, tag := 4, arg := 0x801 })] }, by decide +kernel⟩

/-- The premises of unitData in GroupMessages can be met together. -/
theorem witness_unitData : ∃ (p a : Nat) (m : QMsg) (t : Transfer) (s : State), (s.dev.Has p 0x22 m ∧ m.epoch = 0 ∧ m.arg.testBit 31 = false ∧ s.dev.comp.transfers = [t] ∧ t.src = 64 ∧ t.tag = m.tag) ∧ (t.addr = some a ∧ t.got = 256 * (m.arg % 2 ^ 31) ∧ t.got + 256 < 131072) :=
  ⟨2, 65536, { type := 0x22, tag := 4, payload := [7] }, { tag := 4, src := 64, addr := some 65536 }, unit fun d => ((head d).onComp fun c => { c with transfers := [{ tag := 4, src := 64, addr := some 65536 }] }).onLink fun l => { l with inbox := [(2, { type := 0x22, tag := 4, payload := [7] })] }, by decide +kernel⟩

/-- The premises of groupDecision in GroupMessages can be met together. -/
theorem witness_groupDecision : ∃ (gid n : Nat) (g : Group) (w : GroupWrite) (s : State), (s.dev.comp.writes = [w] ∧ w.group = gid ∧ w.n = n ∧ s.dev.group gid = some g ∧ w.phase = 2) ∧ ((∀ e ∈ w.sheets, e.2.2.2 ≠ .preparing) ∧ (∀ x ∈ w.stripes, g.failedIn x ≤ g.fmax)) :=
  ⟨9, 3, { id := 9 }, { group := 9, n := 3, phase := 2 }, unit fun d => d.onComp fun c => { c with groups := [{ id := 9 }], writes := [{ group := 9, n := 3, phase := 2 }] }, by decide +kernel⟩

/-- The premises of groupDecisionFails in GroupMessages can be met together. -/
theorem witness_groupDecisionFails : ∃ (gid n x : Nat) (g : Group) (w : GroupWrite) (s : State), (s.dev.comp.writes = [w] ∧ w.group = gid ∧ w.n = n ∧ s.dev.group gid = some g ∧ w.phase = 2) ∧ ((∀ e ∈ w.sheets, e.2.2.2 ≠ .preparing) ∧ x ∈ w.stripes ∧ g.fmax < g.failedIn x) :=
  ⟨9, 3, 0, { id := 9, members := [{ state := 2 }, {}] }, { group := 9, n := 3, phase := 2, stripes := [0] }, unit fun d => d.onComp fun c => { c with groups := [{ id := 9, members := [{ state := 2 }, {}] }], writes := [{ group := 9, n := 3, phase := 2, stripes := [0] }] }, by decide +kernel⟩

/-- The premises of groupDecisionWaits in GroupMessages can be met together. -/
theorem witness_groupDecisionWaits : ∃ (gid n : Nat) (s : State), (∀ w ∈ s.dev.comp.writes, w.group = gid → w.n = n → w.phase ≠ 2) :=
  ⟨9, 3, unit id, by decide +kernel⟩

/-- The premises of slowMemberTimeout in GroupMessages can be met together. -/
theorem witness_slowMemberTimeout : ∃ (tag : Fin 65536) (a : GroupAsk) (g : Group) (s : State), (s.dev.comp.asks = [a] ∧ a.tag = tag.val ∧ a.kind = 5 ∧ a.member < g.size ∧ a.member ≠ 0xFF ∧ s.dev.Calm ∧ s.dev.fw.cmds = []) ∧ (a.since + 1000000 * g.slow ≤ s.dev.qtime ∧ s.dev.group a.group = some g ∧ s.dev.keeps g = true ∧ g.mstate a.member ≠ 2 ∧ s.dev.link.units = []) :=
  ⟨4, { tag := 4, kind := 5, group := 9, member := 1 }, { id := 9, members := [{}, {}] }, unit fun d => { d with shadow := 2 <<< 64, qtime := 2000000000 }.onComp fun c => { c with asks := [{ tag := 4, kind := 5, group := 9, member := 1 }], groups := [{ id := 9, members := [{}, {}] }] }, by decide +kernel⟩

/-- The premises of slowMemberSoon in GroupMessages can be met together. -/
theorem witness_slowMemberSoon : ∃ (tag : Fin 65536) (a : GroupAsk) (g : Group) (s : State), (s.dev.comp.asks = [a] ∧ s.dev.group a.group = some g ∧ s.dev.qtime < a.since + 1000000 * g.slow) :=
  ⟨4, { tag := 4, group := 9, since := 5 }, { id := 9 }, unit fun d => d.onComp fun c => { c with asks := [{ tag := 4, group := 9, since := 5 }], groups := [{ id := 9 }] }, by decide +kernel⟩

/-- The premises of slowMemberNone in GroupMessages can be met together. -/
theorem witness_slowMemberNone : ∃ (tag : Fin 65536) (s : State), (s.dev.comp.asks = []) :=
  ⟨4, unit id, by decide +kernel⟩

/-- The premises of pendingResolve in GroupMessages can be met together. -/
theorem witness_pendingResolve : ∃ (p : GroupPart) (g : Group) (s : State), (s.dev.comp.parts = [p] ∧ p.replayed = true ∧ p.asked = false ∧ p.release = none ∧ s.dev.group p.group = some g ∧ s.dev.link.units = [] ∧ s.dev.comp.transfers = []) :=
  ⟨{ group := 9, n := 3, replayed := true }, { id := 9 }, unit fun d => d.onComp fun c => { c with groups := [{ id := 9 }], parts := [{ group := 9, n := 3, replayed := true }] }, by decide +kernel⟩

/-- The premises of pendingNone in GroupMessages can be met together. -/
theorem witness_pendingNone : ∃ (s : State), (∀ p ∈ s.dev.comp.parts, p.replayed = false) :=
  ⟨unit id, by decide +kernel⟩

/-- The premises of asleepRetry in GroupMessages can be met together. -/
theorem witness_asleepRetry : ∃ (a : GroupAsk) (s : State), (s.dev.comp.asks = [a] ∧ a.asleep = true ∧ (s.dev.addrOf a.serial).isSome = true) :=
  ⟨{ tag := 4, serial := 6, asleep := true }, unit fun d => (d.onComp fun c => { c with asks := [{ tag := 4, serial := 6, asleep := true }] }).onLink fun l => { l with units := [{ serial := 6 }] }, by decide +kernel⟩

/-- The premises of rebuildStripe in GroupMessages can be met together. -/
theorem witness_rebuildStripe : ∃ (gid j : Nat) (g : Group) (s : State), (s.dev.group gid = some g ∧ g.building = some j ∧ s.dev.myMember g = some j ∧ g.mstate j = 3) :=
  ⟨9, 0, { id := 9, building := some 0, members := [{ state := 3 }, {}] }, unit fun d => ({ d with shadow := 2 <<< 64 }.onComp fun c => { c with groups := [{ id := 9, building := some 0, members := [{ state := 3 }, {}] }] }).onFw fun w => { w with disc := { loaded := true } }, by decide +kernel⟩

/-- The premises of stripesOpen in GroupMessages can be met together. -/
theorem witness_stripesOpen : ∃ (gid j r : Nat) (g : Group) (d : Dev), (d.group gid = some g ∧ d.comp.jobs = [] ∧ g.nextStripe < g.stripes ∧ (g.stripeMembers g.nextStripe).idxOf? j = some r) :=
  ⟨9, 0, 0, { id := 9, members := [{ state := 3 }, {}] }, (unit fun d => d.onComp fun c => { c with groups := [{ id := 9, members := [{ state := 3 }, {}] }] }).dev, by decide +kernel⟩

/-- The premises of rebuildNone in GroupMessages can be met together. -/
theorem witness_rebuildNone : ∃ (gid : Nat) (s : State), (s.dev.group gid = none) :=
  ⟨9, unit id, by decide +kernel⟩

/-- The premises of frostLineNone in FrostAndThaw can be met together. -/
theorem witness_frostLineNone : ∃ (levels : List (Nat × Nat)) (pos : List Int) (s : State), (s.dev.below s.dev.tripLevel levels = []) :=
  ⟨[(1, 72000)], [], unit id, by decide +kernel⟩

/-- The premises of frostLineEvent in FrostAndThaw can be met together. -/
theorem witness_frostLineEvent : ∃ (levels : List (Nat × Nat)) (pos : List Int) (m : Nat) (s : State), (m ∈ s.dev.below s.dev.tripLevel levels ∧ s.dev.frost = false ∧ s.dev.mode ≠ 1 ∧ s.dev.aon.reset = false) :=
  ⟨[(1, 71999)], [], 1, unit fun d => { d with aon := { reset := false } }, by decide +kernel⟩

/-- The premises of frostLineAgain in FrostAndThaw can be met together. -/
theorem witness_frostLineAgain : ∃ (levels : List (Nat × Nat)) (pos : List Int) (s : State), (s.dev.frost = true ∧ s.dev.below s.dev.tripLevel levels = [0]) :=
  ⟨[(0, 0)], [], unit fun d => d.fs .PMU_STAT_FROST 1, by decide +kernel⟩

/-- The premises of frostLineDormant in FrostAndThaw can be met together. -/
theorem witness_frostLineDormant : ∃ (levels : List (Nat × Nat)) (pos : List Int) (s : State), (s.dev.frost = false ∧ (s.dev.mode = 1 ∨ s.dev.aon.reset = true) ∧ s.dev.below s.dev.tripLevel levels = [1]) :=
  ⟨[(1, 0)], [], unit fun d => d.setMode 1, by decide +kernel⟩

/-- The premises of supplyRegained in FrostAndThaw can be met together. -/
theorem witness_supplyRegained : ∃ (levels : List (Nat × Nat)) (s : State), (s.dev.frost = true ∧ s.dev.is .PMU_STAT_THAWING = false ∧ s.dev.below s.dev.thawLevel levels = []) :=
  ⟨[(1, 73500)], unit fun d => d.fs .PMU_STAT_FROST 1, by decide +kernel⟩

/-- The premises of supplyNoHold in FrostAndThaw can be met together. -/
theorem witness_supplyNoHold : ∃ (levels : List (Nat × Nat)) (s : State), (s.dev.frost = false ∨ s.dev.is .PMU_STAT_THAWING = true ∨ s.dev.below s.dev.thawLevel levels ≠ []) :=
  ⟨[(1, 73499)], unit fun d => d.fs .PMU_STAT_FROST 1, by decide +kernel⟩

/-- The premises of thaw in FrostAndThaw can be met together. -/
theorem witness_thaw : ∃ (counts : List Nat) (s : State), (s.dev.frost = true ∧ s.dev.is .PMU_STAT_THAWING = true ∧ s.dev.is .FUSE_STAT_BUSY = false ∧ s.dev.fw.up = false ∧ s.dev.mode ≠ 1) ∧ (s.dev.aon.regained + 1000000 * s.dev.fg .PMU_THAW_MS ≤ s.dev.qtime) :=
  ⟨[], unit fun d => ((d.fs .PMU_STAT_FROST 1).fs .PMU_STAT_THAWING 1).fs .PMU_THAW_MS 0, by decide +kernel⟩

/-- The premises of thawNot in FrostAndThaw can be met together. -/
theorem witness_thawNot : ∃ (counts : List Nat) (s : State), (s.dev.frost = false ∨ s.dev.is .PMU_STAT_THAWING = false ∨ s.dev.qtime < s.dev.aon.regained + 1000000 * s.dev.fg .PMU_THAW_MS) :=
  ⟨[], unit id, by decide +kernel⟩

/-- The premises of thawBlows in FrostAndThaw can be met together. -/
theorem witness_thawBlows : ∃ (counts : List Nat) (s : State), (s.dev.frost = true ∧ s.dev.is .PMU_STAT_THAWING = true ∧ s.dev.is .FUSE_STAT_BUSY = true ∧ s.dev.fw.up = false ∧ s.dev.mode ≠ 1) ∧ (s.dev.aon.regained + 1000000 * s.dev.fg .PMU_THAW_MS ≤ s.dev.qtime) :=
  ⟨[], unit fun d => (((d.fs .PMU_STAT_FROST 1).fs .PMU_STAT_THAWING 1).fs .FUSE_STAT_BUSY 1).fs .PMU_THAW_MS 0, by decide +kernel⟩

/-- The premises of wake in FrostAndThaw can be met together. -/
theorem witness_wake : ∃ (cause : Fin 4) (counts : List Nat) (s : State), (s.dev.mode = 1 ∧ s.dev.frost = false ∧ s.dev.aon.owed = false ∧ s.dev.fw.cmds = []) :=
  ⟨2, [], unit fun d => (d.setMode 1).onLink fun l => { l with ingress := [{ type := 5 }] }, by decide +kernel⟩

/-- The premises of wakeHeld in FrostAndThaw can be met together. -/
theorem witness_wakeHeld : ∃ (cause : Fin 4) (counts : List Nat) (s : State), (s.dev.mode = 1 ∧ s.dev.frost = true) :=
  ⟨2, [], unit fun d => (d.setMode 1).fs .PMU_STAT_FROST 1, by decide +kernel⟩

/-- The premises of wakeAwake in FrostAndThaw can be met together. -/
theorem witness_wakeAwake : ∃ (cause : Fin 4) (counts : List Nat) (s : State), (s.dev.mode ≠ 1) :=
  ⟨2, [], unit id, by decide +kernel⟩

/-- The premises of unitReset in Resets can be met together. -/
theorem witness_unitReset : ∃ (s : State), (s.dev.mode ≠ 1) ∧ (∀ b : Fin 2, bitsOf (s.dev.journal.rowAt b 0).toNat 0 32 = 0x4C524E4A) :=
  ⟨unit fun d => { doing [] (d.fs .QL_EPOCH 6) with qtime := 77 }, by decide +kernel⟩

/-- The premises of powerOnReset in Resets can be met together. -/
theorem witness_powerOnReset : ∃ (s : State), (∀ b : Fin 2, bitsOf (s.dev.journal.rowAt b 0).toNat 0 32 = 0x4C524E4A) :=
  ⟨unit fun d => { doing [] (d.fs .QL_EPOCH 6) with qtime := 77 }, by decide +kernel⟩

/-- The premises of pllUnlock in Resets can be met together. -/
theorem witness_pllUnlock : ∃ (begun : Bool) (s : State), (s.dev.is .CLK_STAT_LOCKED = true) :=
  ⟨true, unit fun d => d.fs .CLK_STAT_LOCKED 1, by decide +kernel⟩

/-- The premises of pllNotLocked in Resets can be met together. -/
theorem witness_pllNotLocked : ∃ (begun : Bool) (s : State), (s.dev.is .CLK_STAT_LOCKED = false) :=
  ⟨true, unit id, by decide +kernel⟩

/-- The premises of crystalFail in Resets can be met together. -/
theorem witness_crystalFail : ∃ (begun : Bool) (s : State), (s.dev.aon.internal = false) :=
  ⟨false, unit id, by decide +kernel⟩

/-- The premises of watchdogFed in Resets can be met together. -/
theorem witness_watchdogFed : ∃ (begun : Bool) (s : State), (s.dev.is .CLK_WDT_EN = true ∧ s.dev.fw.up = true ∧ s.dev.mode ≠ 1 ∧ s.dev.aon.reset = false ∧ s.dev.watchPaused = false ∧ s.dev.aon.beats = 15) :=
  ⟨false, unit fun d => { (d.fs .CLK_WDT_EN 1).onFw fun w => { w with up := true } with aon := { reset := false, beats := 15 } }, by decide +kernel⟩

/-- The premises of watchdogExpiry in Resets can be met together. -/
theorem witness_watchdogExpiry : ∃ (begun : Bool) (s : State), (s.dev.is .CLK_WDT_EN = true ∧ s.dev.fw.up = true ∧ s.dev.mode ≠ 1 ∧ s.dev.aon.reset = false ∧ s.dev.watchPaused = false ∧ s.dev.aon.beats ≠ 15) ∧ (s.dev.aon.restarted = 0 ∧ s.dev.fw.cmds = []) :=
  ⟨false, unit fun d => { (d.fs .CLK_WDT_EN 1).onFw fun w => { w with up := true } with aon := { reset := false, beats := 7 } }, by decide +kernel⟩

/-- The premises of watchdogSecond in Resets can be met together. -/
theorem witness_watchdogSecond : ∃ (begun : Bool) (s : State), (s.dev.is .CLK_WDT_EN = true ∧ s.dev.fw.up = true ∧ s.dev.mode ≠ 1 ∧ s.dev.mode ≠ 7 ∧ s.dev.aon.reset = false ∧ s.dev.watchPaused = false ∧ s.dev.aon.beats ≠ 15) ∧ (s.dev.aon.restarted ≠ 0 ∧ s.dev.qtime + 1 < s.dev.aon.restarted + 60000000000) :=
  ⟨false, unit fun d => { (d.fs .CLK_WDT_EN 1).onFw fun w => { w with up := true } with aon := { reset := false, beats := 7, restarted := 1 } }, by decide +kernel⟩

/-- The premises of watchdogPaused in Resets can be met together. -/
theorem witness_watchdogPaused : ∃ (begun : Bool) (s : State), (s.dev.is .CLK_WDT_EN = false ∨ s.dev.fw.up = false ∨ s.dev.mode = 1 ∨ s.dev.aon.reset = true ∨ s.dev.watchPaused = true) :=
  ⟨false, unit id, by decide +kernel⟩

/-- The premises of firmwareRestart in Resets can be met together. -/
theorem witness_firmwareRestart : ∃ (k : Nat) (s : State), (s.dev.aon.restart = true ∧ s.dev.fw.up = true ∧ s.dev.mode ≠ 1 ∧ s.dev.fw.cmds = [] ∧ s.dev.bootOrder = [k] ∧ k < 2) ∧ (imageFault s.dev.shadow (s.dev.slotHeader k) (s.dev.slotBody k) = none) :=
  ⟨0, unit fun d => { d.onFw fun w => { w with up := true } with shadow := signedShadow, aon := { reset := false, restart := true, flash := signedFlash } }, by decide +kernel, image_flash _ (by decide +kernel) (by decide +kernel) (by decide +kernel)⟩

/-- The premises of firmwareRestartNone in Resets can be met together. -/
theorem witness_firmwareRestartNone : ∃ (s : State), (s.dev.aon.restart = false) :=
  ⟨unit id, by decide +kernel⟩

/-- The premises of boot in BootSequence can be met together. -/
theorem witness_boot : ∃ (counts : List Nat) (s : State), (s.dev.aon.reset = true ∧ s.dev.aon.internal = false ∧ s.dev.bootFailed = false) :=
  ⟨[], State.reset, by decide +kernel⟩

/-- The premises of bootNoLock in BootSequence can be met together. -/
theorem witness_bootNoLock : ∃ (table : Bool) (counts : List Nat) (s : State), (s.dev.aon.reset = true ∧ s.dev.aon.internal = false) :=
  ⟨true, [], State.reset, by decide +kernel⟩

/-- The premises of bootNoFlash in BootSequence can be met together. -/
theorem witness_bootNoFlash : ∃ (counts : List Nat) (s : State), (s.dev.aon.reset = true ∧ s.dev.aon.internal = false) :=
  ⟨[], State.reset, by decide +kernel⟩

/-- The premises of bootNot in BootSequence can be met together. -/
theorem witness_bootNot : ∃ (lock table : Bool) (fail : Option (Fin 4 × Fin 5)) (counts : List Nat) (s : State), (s.dev.aon.reset = false ∨ s.dev.aon.internal = true) :=
  ⟨true, true, none, [], unit fun d => { d with aon := { reset := false } }, by decide +kernel⟩

/-- The premises of bootImageCheck in BootSequence can be met together. -/
theorem witness_bootImageCheck : ∃ (k : Nat) (s : State), (s.dev.aon.reset = false ∧ s.dev.fg .CLK_BOOT_STAGE = 3 ∧ s.dev.bootFailed = false ∧ s.dev.bootOrder = [k]) ∧ (imageFault s.dev.shadow (s.dev.slotHeader k) (s.dev.slotBody k) = none) :=
  ⟨0, unit fun d => { d.fs .CLK_BOOT_STAGE 3 with shadow := signedShadow, aon := { reset := false, flash := signedFlash } }, by decide +kernel, image_flash _ (by decide +kernel) (by decide +kernel) (by decide +kernel)⟩

/-- The premises of bootImageNone in BootSequence can be met together. -/
theorem witness_bootImageNone : ∃ (s : State), (s.dev.aon.reset = false ∧ s.dev.fg .CLK_BOOT_STAGE = 3 ∧ s.dev.bootFailed = false ∧ s.dev.bootOrder = []) :=
  ⟨unit fun d => { d.fs .CLK_BOOT_STAGE 3 with aon := { reset := false } }, by decide +kernel⟩

/-- The premises of bootImageBad in BootSequence can be met together. -/
theorem witness_bootImageBad : ∃ (k r : Nat) (s : State), (s.dev.aon.reset = false ∧ s.dev.fg .CLK_BOOT_STAGE = 3 ∧ s.dev.bootFailed = false ∧ s.dev.bootOrder = [k]) ∧ (imageFault s.dev.shadow (s.dev.slotHeader k) (s.dev.slotBody k) = some r) :=
  ⟨0, 2, unit fun d => { d.fs .CLK_BOOT_STAGE 3 with aon := { reset := false, flash := signedFlash } }, by decide +kernel⟩

/-- The premises of bootFirmwareStart in BootSequence can be met together. -/
theorem witness_bootFirmwareStart : ∃ (ms : Nat) (s : State), (s.dev.aon.reset = false ∧ s.dev.fg .CLK_BOOT_STAGE = 5 ∧ s.dev.bootFailed = false ∧ s.dev.fw.cmds = [] ∧ hField s.dev.aon.image 20 1 ≤ s.dev.arb) :=
  ⟨900, unit fun d => { d.fs .CLK_BOOT_STAGE 5 with aon := { reset := false, image := [] } }, by decide +kernel⟩

/-- The premises of bootRollback in BootSequence can be met together. -/
theorem witness_bootRollback : ∃ (ms : Nat) (s : State), (s.dev.aon.reset = false ∧ s.dev.fg .CLK_BOOT_STAGE = 5 ∧ s.dev.bootFailed = false ∧ s.dev.arb < hField s.dev.aon.image 20 1) ∧ (s.dev.is .CLK_BOOT_FALLBACK = false ∧ s.dev.is .FUSE_STAT_BUSY = false ∧ s.dev.frost = false ∧ hField s.dev.aon.image 20 1 ≤ 64 ∧ s.dev.fw.cmds = []) :=
  ⟨900, unit fun d => { d.fs .CLK_BOOT_STAGE 5 with aon := { reset := false, image := bytes64 (leBytes 20 0 ++ leBytes 1 3) } }, by decide +kernel⟩

/-- The premises of bootFirmwareNot in BootSequence can be met together. -/
theorem witness_bootFirmwareNot : ∃ (ms : Nat) (s : State), (s.dev.aon.reset = true ∨ s.dev.fg .CLK_BOOT_STAGE ≠ 5 ∨ s.dev.bootFailed = true) :=
  ⟨900, unit id, by decide +kernel⟩

/-- The premises of fuseProg in TestAccessPort can be met together. -/
theorem witness_fuseProg : ∃ (locks : Fin 4) (temp : Int) (s : State), (0 ≤ temp ∧ temp ≤ 85 ∧ s.dev.frost = false) :=
  ⟨3, 25, unit id, by decide +kernel⟩

/-- The premises of fuseProgRefused in TestAccessPort can be met together. -/
theorem witness_fuseProgRefused : ∃ (locks : Fin 4) (temp : Int) (s : State), ((temp < 0 ∨ 85 < temp ∨ s.dev.frost = true) ∧ s.dev.fw.up = false) :=
  ⟨3, 90, unit id, by decide +kernel⟩

/-- The premises of fuseArbSet in TestAccessPort can be met together. -/
theorem witness_fuseArbSet : ∃ (target : Fin 128) (s : State), (s.dev.is .FUSE_STAT_BUSY = false ∧ s.dev.frost = false ∧ s.dev.arb < limitN 0 64 target) :=
  ⟨5, unit id, by decide +kernel⟩

/-- The premises of fuseArbWaits in TestAccessPort can be met together. -/
theorem witness_fuseArbWaits : ∃ (target : Fin 128) (s : State), (s.dev.is .FUSE_STAT_BUSY = false ∧ s.dev.frost = true ∧ s.dev.arb < limitN 0 64 target) :=
  ⟨5, unit fun d => d.fs .PMU_STAT_FROST 1, by decide +kernel⟩

/-- The premises of fuseArbBelow in TestAccessPort can be met together. -/
theorem witness_fuseArbBelow : ∃ (target : Fin 128) (s : State), (s.dev.is .FUSE_STAT_BUSY = true ∨ limitN 0 64 target ≤ s.dev.arb) :=
  ⟨0, unit id, by decide +kernel⟩

/-- The premises of arbLowest in TestAccessPort can be met together. -/
theorem witness_arbLowest : ∃ (arb target : Nat), (arb < 2 ^ 64 ∧ target ≤ 64 ∧ popCount 64 arb ≤ target) :=
  ⟨5, 9, by decide +kernel⟩

/-- The premises of regAccessRead in TestAccessPort can be met together. -/
theorem witness_regAccessRead : ∃ (blk : Block) (off : Nat) (val : DWord) (s : State) (d : Dev), (s.dev.debugLock = false ∧ d = readReg 14 blk off (s.dev.tapOut 0x20 0)) :=
  ⟨.pmu, 0, 0, unit id, readReg 14 .pmu 0 ((unit id).dev.tapOut 0x20 0), by decide +kernel⟩

/-- The premises of regAccessWrite in TestAccessPort can be met together. -/
theorem witness_regAccessWrite : ∃ (blk : Block) (off : Nat) (val : DWord) (s : State), (s.dev.debugLock = false ∧ blk ≠ .fuse) :=
  ⟨.pmu, 0x10, 0, unit id, by decide +kernel⟩

/-- The premises of regLocked in TestAccessPort can be met together. -/
theorem witness_regLocked : ∃ (blk : Block) (off : Nat) (op : Fin 4) (val : DWord) (s : State), (s.dev.debugLock = true) :=
  ⟨.pmu, 0, 1, 0, { unit id with dev := { (unit id).dev with shadow := 2 <<< 64 + 7 <<< 1539 } }, by decide +kernel⟩

/-- The premises of dbgLocked in TestAccessPort can be met together. -/
theorem witness_dbgLocked : ∃ (addr : Fin 1099511627776) (op : Fin 4) (data : List (BitVec 8)) (s : State), (s.dev.debugLock = true) :=
  ⟨0, 1, [], { unit id with dev := { (unit id).dev with shadow := 2 <<< 64 + 7 <<< 1539 } }, by decide +kernel⟩

/-- The premises of dbgAccessRead in TestAccessPort can be met together. -/
theorem witness_dbgAccessRead : ∃ (addr : Fin 1099511627776) (data : List (BitVec 8)) (s : State) (d : Dev), (s.dev.debugLock = false ∧ s.dev.blockOn .fbc = true) ∧ (d = cacheRead 14 (addr / 16 * 16) 16 false .none { s.dev.tapOut 0x21 0 with answer := [], error := false }) :=
  ⟨64, [], unit id, cacheRead 14 (64 / 16 * 16) 16 false .none { (unit id).dev.tapOut 0x21 0 with answer := [], error := false }, by decide +kernel⟩

/-- The premises of dbgAccessOff in TestAccessPort can be met together. -/
theorem witness_dbgAccessOff : ∃ (addr : Fin 1099511627776) (data : List (BitVec 8)) (s : State), (s.dev.debugLock = false ∧ s.dev.blockOn .fbc = false) :=
  ⟨64, [], { dev := { shadow := 2 <<< 64 } }, by decide +kernel⟩

/-- The premises of clePatch in TestAccessPort can be met together. -/
theorem witness_clePatch : ∃ (addr : Fin 16384) (val : BitVec 128) (s : State), (s.dev.debugLock = false ∧ s.dev.blockOn .cle = true ∧ addr.val < 0x3000 ∧ s.dev.fw.up = false) :=
  ⟨77, 5, unit id, by decide +kernel⟩

/-- The premises of clePatchRead in TestAccessPort can be met together. -/
theorem witness_clePatchRead : ∃ (addr : Fin 16384) (val : BitVec 128) (s : State), (s.dev.debugLock = false ∧ s.dev.blockOn .cle = true) :=
  ⟨77, 5, unit id, by decide +kernel⟩

/-- The premises of cleLocked in TestAccessPort can be met together. -/
theorem witness_cleLocked : ∃ (addr : Fin 16384) (op : Fin 4) (val : BitVec 128) (s : State), (s.dev.debugLock = true) :=
  ⟨77, 1, 5, { unit id with dev := { (unit id).dev with shadow := 2 <<< 64 + 7 <<< 1539 } }, by decide +kernel⟩

/-- The premises of load in DiscCommands can be met together. -/
theorem witness_load : ∃ (id : Nat) (m : Medium) (c : Cmd) (s : State), (s.dev.Doing id 0x18 c ∧ c.work = 2 ∧ c.loadFlag 1 = false ∧ s.dev.frost = false) ∧ (s.dev.clState ≠ 5 ∧ s.dev.fw.spnWithdrawn = false ∧ s.dev.loadFails = none ∧ s.dev.spnState = 4 ∧ s.dev.opus ≠ []) ∧ (∀ o ∈ s.dev.opus, s.dev.atBandZero o = true) ∧ (s.dev.is .RJ_STAT_FAILED = true ∧ m.scan = [] ∧ m.blank = [] ∧ m.ambiguous = [] ∧ s.dev.link.units = []) :=
  ⟨5, { checkpoint := true, map := [(7, 262144)] }, { cmd5 (cmdB 0x18 0 0 0) with work := 2 }, unit fun d => ((tracking d).fs .RJ_STAT_FAILED 1).onFw fun w => { w with up := true, cmds := [{ cmd5 (cmdB 0x18 0 0 0) with work := 2 }] }, by decide +kernel⟩

/-- The premises of loadBegins in DiscCommands can be met together. -/
theorem witness_loadBegins : ∃ (id : Nat) (m : Medium) (c : Cmd) (s : State), (s.dev.Doing id 0x18 c ∧ c.work = 0 ∧ s.dev.frost = false) :=
  ⟨5, {}, cmd5 (cmdB 0x18 0 0 0), unit fun d => doing (cmdB 0x18 0 0 0) (d.fs .SLD_CL_STAT_NO_DISC 1), by decide +kernel⟩

/-- The premises of loadClampFault in DiscCommands can be met together. -/
theorem witness_loadClampFault : ∃ (id : Nat) (m : Medium) (c : Cmd) (s : State), (s.dev.Doing id 0x18 c ∧ c.work = 2 ∧ s.dev.frost = false ∧ s.dev.fw.spnWithdrawn = false ∧ s.dev.clState = 5) :=
  ⟨5, {}, { cmd5 (cmdB 0x18 0 0 0) with work := 2 }, unit fun d => (d.fs .SLD_CL_STAT_STATE 5).onFw fun w => { w with cmds := [{ cmd5 (cmdB 0x18 0 0 0) with work := 2 }] }, by decide +kernel⟩

/-- The premises of unload in DiscCommands can be met together. -/
theorem witness_unload : ∃ (id : Nat) (late : Bool) (c : Cmd) (s : State), (s.dev.Doing id 0x19 c ∧ c.work = 2 ∧ s.dev.clState = 1 ∧ s.dev.comp.groups = []) :=
  ⟨5, false, { cmd5 (cmdB 0x19 0 0 0) with work := 2 }, unit fun d => (d.fs .SLD_CL_STAT_STATE 1).onFw fun w => { w with disc := { serial := 9 }, cmds := [{ cmd5 (cmdB 0x19 0 0 0) with work := 2 }] }, by decide +kernel⟩

/-- The premises of unloadReleased in DiscCommands can be met together. -/
theorem witness_unloadReleased : ∃ (id : Nat) (late : Bool) (c : Cmd) (s : State), (s.dev.Doing id 0x19 c ∧ c.work = 0 ∧ s.dev.clState = 1) :=
  ⟨5, false, cmd5 (cmdB 0x19 0 0 0), unit fun d => doing (cmdB 0x19 0 0 0) (d.fs .SLD_CL_STAT_STATE 1), by decide +kernel⟩

/-- The premises of seek in DiscCommands can be met together. -/
theorem witness_seek : ∃ (id o : Nat) (c : Cmd) (s : State), (s.dev.Doing id 0x1A c ∧ c.work ≠ 0 ∧ c.field 21 1 = o ∧ o < 4 ∧ (s.dev.opuFw o).withdrawn = false) ∧ (s.dev.spnState = 4 ∧ s.dev.mode = 3 ∧ (∀ x ∈ s.dev.opus, s.dev.opuReady x = true ∧ s.dev.svSt x = svTracking)) ∧ (s.dev.opuReady o = true ∧ s.dev.svFree o = true ∧ s.dev.bandAt o = (layerKey (c.field 16 5), psaTrack (c.field 16 5) / 24 * 24)) :=
  ⟨5, 1, { cmd5 (cmdB 0x1A 0 0 0) with work := 1, bytes := bytes64 (leBytes 21 0x1A ++ leBytes 1 1) }, unit fun d => { ((tracking d).onFw fun w => { w with cmds := [{ cmd5 (cmdB 0x1A 0 0 0) with work := 1, bytes := bytes64 (leBytes 21 0x1A ++ leBytes 1 1) }] }) with qtime := 5000 }, by decide +kernel⟩

/-- The premises of seekMoves in DiscCommands can be met together. -/
theorem witness_seekMoves : ∃ (id o : Nat) (c : Cmd) (s : State), (s.dev.Doing id 0x1A c ∧ c.work ≠ 0 ∧ c.field 21 1 = o ∧ o < 4 ∧ (s.dev.opuFw o).withdrawn = false ∧ s.dev.opuRecords o = false) ∧ (s.dev.spnState = 4 ∧ s.dev.mode = 3 ∧ (∀ x ∈ s.dev.opus, s.dev.opuReady x = true ∧ s.dev.svSt x = svTracking)) ∧ (s.dev.opuReady o = true ∧ s.dev.svFree o = true ∧ s.dev.bandAt o ≠ (layerKey (c.field 16 5), psaTrack (c.field 16 5) / 24 * 24)) ∧ (s.dev.paceOk o (psaTrack (c.field 16 5) / 24 * 24) = true) :=
  ⟨5, 1, { cmd5 [] with work := 1, bytes := bytes64 (leBytes 16 0x1A ++ leBytes 5 (mkPsa 0 0 48 0 0) ++ leBytes 1 1) }, unit fun d => (tracking d).onFw fun w => { w with cmds := [{ cmd5 [] with work := 1, bytes := bytes64 (leBytes 16 0x1A ++ leBytes 5 (mkPsa 0 0 48 0 0) ++ leBytes 1 1) }] }, by decide +kernel⟩

/-- The premises of seekWithdrawn in DiscCommands can be met together. -/
theorem witness_seekWithdrawn : ∃ (id o : Nat) (c : Cmd) (s : State), (s.dev.Doing id 0x1A c ∧ c.work ≠ 0 ∧ c.field 21 1 = o ∧ o < 4 ∧ (s.dev.opuFw o).withdrawn = true ∧ s.dev.frost = true) :=
  ⟨5, 1, { cmd5 [] with work := 1, bytes := bytes64 (leBytes 21 0x1A ++ leBytes 1 1) }, unit fun d => ((d.fs .PMU_STAT_FROST 1).onFw fun w => { w with cmds := [{ cmd5 [] with work := 1, bytes := bytes64 (leBytes 21 0x1A ++ leBytes 1 1) }] }).onOpuFw 1 fun f => { f with withdrawn := true }, by decide +kernel⟩

/-- The premises of calibrateBegins in DiscCommands can be met together. -/
theorem witness_calibrateBegins : ∃ (id : Nat) (c : Cmd) (s : State), (s.dev.Doing id 0x1B c ∧ c.work = 0 ∧ c.field 20 1 = 0) :=
  ⟨5, cmd5 (leBytes 16 0x1B ++ leBytes 4 1), unit fun d => doing (leBytes 16 0x1B ++ leBytes 4 1) d, by decide +kernel⟩

/-- The premises of calibrateWaits in DiscCommands can be met together. -/
theorem witness_calibrateWaits : ∃ (id : Nat) (c : Cmd) (s : State), (s.dev.Doing id 0x1B c ∧ c.work ≠ 0 ∧ (s.dev.fg .CAL_RUN_PAIRS ||| s.dev.fg .CAL_PEND_PAIRS) &&& (c.field 16 4 % 2 ^ 28) ≠ 0) :=
  ⟨5, { cmd5 (leBytes 16 0x1B ++ leBytes 4 1) with work := 1 }, unit fun d => (d.fs .CAL_PEND_PAIRS 1).onFw fun w => { w with cmds := [{ cmd5 (leBytes 16 0x1B ++ leBytes 4 1) with work := 1 }] }, by decide +kernel⟩

/-- The premises of calibrate in DiscCommands can be met together. -/
theorem witness_calibrate : ∃ (id : Nat) (c : Cmd) (s : State), (s.dev.Doing id 0x1B c ∧ c.work ≠ 0 ∧ (s.dev.fg .CAL_RUN_PAIRS ||| s.dev.fg .CAL_PEND_PAIRS) &&& (c.field 16 4 % 2 ^ 28) = 0) ∧ (c.field 20 1 = 0 ∧ (∀ p ∈ runOrder (c.field 16 4 % 2 ^ 28), bitsOf (s.dev.fg .CAL_RES_RESULT p.2) (3 * p.1) 3 = 1)) :=
  ⟨5, { cmd5 (leBytes 16 0x1B ++ leBytes 4 1) with work := 1 }, unit fun d => (d.fs .CAL_RES_RESULT 1 0).onFw fun w => { w with cmds := [{ cmd5 (leBytes 16 0x1B ++ leBytes 4 1) with work := 1 }] }, by decide +kernel⟩

/-- The premises of discNotRunning in DiscCommands can be met together. -/
theorem witness_discNotRunning : ∃ (id : Nat) (m : Medium) (i : Instr) (s : State), (s.dev.cmd id = none) ∧ (i ∈ [Instr.load id m, .unload id true, .unload id false, .seek id, .calibrate id]) :=
  ⟨5, {}, .seek 5, unit id, by decide +kernel⟩

/-- The premises of microcodeLoad in OpenAndService can be met together. -/
theorem witness_microcodeLoad : ∃ (id : Nat) (c : Cmd) (b : List (BitVec 8)) (s : State), (s.dev.Doing id 0x30 c ∧ s.dev.HasData c ∧ b = s.dev.hostData c ∧ quejoFault b = none) ∧ (c.dlen = 128 + 16 * hField b 6 2 ∧ (c.field 24 1).testBit 0 = false) :=
  ⟨5, cmd5 (cmdB 0x30 144 0 0), memRead (memWrite [] 0 quejoImage) 0 144, unit fun d => { doing (cmdB 0x30 144 0 0) (head d) with hostMem := memWrite [] 0 quejoImage }, by decide +kernel⟩

/-- The premises of microcodeRefused in OpenAndService can be met together. -/
theorem witness_microcodeRefused : ∃ (id r : Nat) (c : Cmd) (s : State), (s.dev.Doing id 0x30 c ∧ s.dev.HasData c ∧ quejoFault (s.dev.hostData c) = some r) ∧ (hField (s.dev.hostData c) 0 4 ≠ 0x4A514C43 ∨ c.dlen = 128 + 16 * hField (s.dev.hostData c) 6 2) :=
  ⟨5, 1, cmd5 (cmdB 0x30 144 0 0), unit fun d => doing (cmdB 0x30 144 0 0) (head d), by decide +kernel⟩

/-- The premises of openStart in OpenAndService can be met together. -/
theorem witness_openStart : ∃ (id : Nat) (c : Cmd) (s : State), (s.dev.Doing id 0x31 c ∧ c.b24 = 1) :=
  ⟨5, cmd5 (cmdB 0x31 0 1 1), unit fun d => doing (cmdB 0x31 0 1 1) d, by decide +kernel⟩

/-- The premises of openStop in OpenAndService can be met together. -/
theorem witness_openStop : ∃ (id : Nat) (c : Cmd) (s : State), (s.dev.Doing id 0x31 c ∧ c.b24 = 2) :=
  ⟨5, cmd5 (cmdB 0x31 0 2 1), unit fun d => doing (cmdB 0x31 0 2 1) (d.fs .SLOT_CFG_EN 1 72), by decide +kernel⟩

/-- The premises of openRelease in OpenAndService can be met together. -/
theorem witness_openRelease : ∃ (id : Nat) (c : Cmd) (s : State), (s.dev.Doing id 0x31 c ∧ c.b24 = 3 ∧ (∀ n : Fin 80, s.dev.is .SLOT_CFG_EN n = false)) :=
  ⟨5, cmd5 (cmdB 0x31 0 3 0 ++ [0, 0, 0x30]), unit fun d => doing (cmdB 0x31 0 3 0 ++ [0, 0, 0x30]) d, by decide +kernel⟩

/-- The premises of openWithdraw in OpenAndService can be met together. -/
theorem witness_openWithdraw : ∃ (id : Nat) (c : Cmd) (s : State), (s.dev.Doing id 0x31 c ∧ c.b24 = 4) :=
  ⟨5, cmd5 (cmdB 0x31 0 4 0), unit fun d => doing (cmdB 0x31 0 4 0) (d.wr .CLE_IOREL 1), by decide +kernel⟩

/-- The premises of openBankLoad in OpenAndService can be met together. -/
theorem witness_openBankLoad : ∃ (id n len base : Nat) (c : Cmd) (s : State), (s.dev.Doing id 0x31 c ∧ c.b24 = 5 ∧ s.dev.HasData c ∧ c.work = 0 ∧ n = 72 + c.field 26 1 ∧ n < 80) ∧ (len = s.dev.fg .SLOT_BANK_LEN n + 1 ∧ base = s.dev.fg .SLOT_BANK_BASE n + (1 - s.dev.fg .SLOT_CTL_ACTIVE n) * len ∧ base + len ≤ 16384) ∧ (s.dev.started n = false ∧ s.dev.slotPresent n = true ∧ s.dev.is .SLOT_CTL_PENDING n = false) :=
  ⟨5, 72, 2, 102, cmd5 (cmdB 0x31 32 5 0), unit fun d => { doing (cmdB 0x31 32 5 0) (((head d).fs .SLOT_BANK_LEN 1 72).fs .SLOT_BANK_BASE 100 72) with hostMem := memWrite [] 0 (leBytes 32 (7 + 2 ^ 128 * 9)) }, by decide +kernel⟩

/-- The premises of firmwareDownload in OpenAndService can be met together. -/
theorem witness_firmwareDownload : ∃ (id : Nat) (c : Cmd) (s : State), (s.dev.Doing id 0x32 c ∧ s.dev.HasData c) :=
  ⟨5, cmd5 (cmdB 0x32 64 16 0), unit fun d => { doing (cmdB 0x32 64 16 0) (head d) with hostMem := memWrite [] 0 (leBytes 64 77) }, by decide +kernel⟩

/-- The premises of firmwareCommit in OpenAndService can be met together. -/
theorem witness_firmwareCommit : ∃ (id : Nat) (c : Cmd) (h body : List (BitVec 8)) (s : State), (s.dev.Doing id 0x33 c ∧ s.dev.is .FUSE_STAT_BUSY = false ∧ h = memRead s.dev.aon.staged 0 512 ∧ body = memRead s.dev.aon.staged 512 (hField h 8 4)) ∧ (imageFault s.dev.shadow h body = none) :=
  ⟨5, cmd5 (cmdB 0x33 0 1 0), signedHeader, [], unit fun d => { doing (cmdB 0x33 0 1 0) d with shadow := signedShadow, aon := { staged := memWrite [] 0 signedHeader } }, by decide +kernel, image_ok⟩

/-- The premises of firmwareCommitRefused in OpenAndService can be met together. -/
theorem witness_firmwareCommitRefused : ∃ (id : Nat) (c : Cmd) (r : Nat) (s : State), (s.dev.Doing id 0x33 c ∧ s.dev.is .FUSE_STAT_BUSY = false) ∧ (imageFault s.dev.shadow (memRead s.dev.aon.staged 0 512) (memRead s.dev.aon.staged 512 (hField (memRead s.dev.aon.staged 0 512) 8 4)) = some r) :=
  ⟨5, cmd5 (cmdB 0x33 0 1 0), 1, unit fun d => doing (cmdB 0x33 0 1 0) d, by decide +kernel⟩

/-- The premises of firmwareCommitWaits in OpenAndService can be met together. -/
theorem witness_firmwareCommitWaits : ∃ (id : Nat) (c : Cmd) (s : State), (s.dev.Doing id 0x33 c ∧ s.dev.is .FUSE_STAT_BUSY = true) :=
  ⟨5, cmd5 (cmdB 0x33 0 1 0), unit fun d => doing (cmdB 0x33 0 1 0) (d.fs .FUSE_STAT_BUSY 1), by decide +kernel⟩

/-- The premises of codecTest in OpenAndService can be met together. -/
theorem witness_codecTest : ∃ (id : Nat) (c : Cmd) (s : State), (s.dev.Doing id 0x38 c ∧ c.b24 = 3 ∧ c.work = 0) :=
  ⟨5, cmd5 (cmdB 0x38 0 3 0), unit fun d => doing (cmdB 0x38 0 3 0) (d.setMode 6), by decide +kernel⟩

/-- The premises of surfaceTest in OpenAndService can be met together. -/
theorem witness_surfaceTest : ∃ (id : Nat) (c : Cmd) (l ok : List Nat) (s : State), (s.dev.Doing id 0x38 c ∧ c.b24 = 4 ∧ c.work ≠ 0 ∧ l = slotRun (s.dev.sideInfo (psaSide (c.field 28 5))).strength (c.field 36 4) (c.field 28 5)) ∧ (ok = l.filter s.dev.fw.tested.contains ∧ (∀ v ∈ s.dev.fw.versions, v.test = some id → v.stage = .failed ∨ v.stage = .gone)) :=
  ⟨5, { cmd5 (leBytes 24 0x38 ++ leBytes 4 4 ++ leBytes 8 (mkPsa 0 0 4200 0 0) ++ leBytes 4 2) with work := 1 }, [mkPsa 0 0 4200 0 0, mkPsa 0 0 4200 1 0], [mkPsa 0 0 4200 0 0], unit fun d => d.onFw fun w => { w with cmds := [{ cmd5 (leBytes 24 0x38 ++ leBytes 4 4 ++ leBytes 8 (mkPsa 0 0 4200 0 0) ++ leBytes 4 2) with work := 1 }], retired := [mkPsa 0 0 4200 0 0, 3], recorded := [mkPsa 0 0 4200 0 0], tested := [mkPsa 0 0 4200 0 0], versions := [{ order := 2, test := some 5, stage := .failed }, { order := 3 }], disc := { loaded := true, mediaClass := 1 } }, by decide +kernel⟩

/-- The premises of surfaceTestWaits in OpenAndService can be met together. -/
theorem witness_surfaceTestWaits : ∃ (id : Nat) (c : Cmd) (v : Version) (s : State), (s.dev.Doing id 0x38 c ∧ c.b24 = 4 ∧ c.work ≠ 0 ∧ v ∈ s.dev.fw.versions ∧ v.test = some id ∧ v.stage ≠ .failed ∧ v.stage ≠ .gone) :=
  ⟨5, { cmd5 (leBytes 24 0x38 ++ leBytes 4 4) with work := 1 }, { order := 2, test := some 5 }, unit fun d => d.onFw fun w => { w with cmds := [{ cmd5 (leBytes 24 0x38 ++ leBytes 4 4) with work := 1 }], versions := [{ order := 2, test := some 5 }] }, by decide +kernel⟩

/-- The premises of surfaceTestBegins in OpenAndService can be met together. -/
theorem witness_surfaceTestBegins : ∃ (id psa : Nat) (c : Cmd) (s : State), (s.dev.Doing id 0x38 c ∧ c.b24 = 4 ∧ c.work = 0 ∧ slotRun (s.dev.sideInfo (psaSide (c.field 28 5))).strength (c.field 36 4) (c.field 28 5) = [psa]) :=
  ⟨5, mkPsa 0 0 4200 0 0, cmd5 (leBytes 24 0x38 ++ leBytes 4 4 ++ leBytes 8 (mkPsa 0 0 4200 0 0) ++ leBytes 4 1), unit fun d => (doing (leBytes 24 0x38 ++ leBytes 4 4 ++ leBytes 8 (mkPsa 0 0 4200 0 0) ++ leBytes 4 1) d).onFw fun w => { w with disc := { loaded := true, mediaClass := 1, layers := 255 } }, by decide +kernel⟩

/-- The premises of rawBufferRead in OpenAndService can be met together. -/
theorem witness_rawBufferRead : ∃ (id : Nat) (c : Cmd) (s : State) (d : Dev), (s.dev.Doing id 0x38 c ∧ c.b24 = 5 ∧ s.dev.HasData c ∧ 16 * c.field 44 4 < s.dev.visible) ∧ (d = (rawRead ((s.dev.fs .DRC_TEST_CTL_EN 1).fs .DRC_TEST_ADDR (c.field 44 4))).fs .DRC_TEST_CTL_EN 0 ∧ d.homeHere c = true) :=
  ⟨5, cmd5 (cmdB 0x38 32 5 0 ++ leBytes 18 0 ++ leBytes 4 2), unit fun d => { doing (cmdB 0x38 32 5 0 ++ leBytes 18 0 ++ leBytes 4 2) (head d) with dram := [(32, 9)] }, (rawRead (((unit fun d => { doing (cmdB 0x38 32 5 0 ++ leBytes 18 0 ++ leBytes 4 2) (head d) with dram := [(32, 9)] }).dev.fs .DRC_TEST_CTL_EN 1).fs .DRC_TEST_ADDR 2)).fs .DRC_TEST_CTL_EN 0, by decide +kernel⟩

/-- The premises of traceCopy in OpenAndService can be met together. -/
theorem witness_traceCopy : ∃ (id : Nat) (c : Cmd) (s : State) (r : List (BitVec 8) × Dev), (s.dev.Doing id 0x38 c ∧ c.b24 = 6 ∧ s.dev.HasData c ∧ r = s.dev.bufGet 2 (s.dev.fg .CLE_TRACE_BASE / 16 * 65536) 65536 ∧ r.2.homeHere c = true) :=
  ⟨5, cmd5 (cmdB 0x38 64 6 0), unit fun d => doing (cmdB 0x38 64 6 0) (head d), (unit fun d => doing (cmdB 0x38 64 6 0) (head d)).dev.bufGet 2 0 65536, by decide +kernel⟩

/-- The premises of openNotRunning in OpenAndService can be met together. -/
theorem witness_openNotRunning : ∃ (id : Nat) (i : Instr) (s : State), (s.dev.cmd id = none) ∧ (i ∈ [Instr.microcodeLoad id, .openStart id, .openStop id, .openRelease id, .openWithdraw id, .openBankLoad id, .firmwareDownload id, .firmwareCommit id, .codecTest id, .surfaceTest id, .rawBufferRead id, .traceCopy id]) :=
  ⟨5, .traceCopy 5, unit id, by decide +kernel⟩

/-- The premises of fuseProgLocks in LockFuses can be met together. -/
theorem witness_fuseProgLocks : ∃ (locks : Fin 4) (temp : Int) (s : State), (0 ≤ temp ∧ temp ≤ 85 ∧ s.dev.frost = false) :=
  ⟨3, 85, unit id, by decide +kernel⟩

/-- The premises of ringWritten in RingWrite can be met together. -/
theorem witness_ringWritten : ∃ (val : DWord) (s : State), (s.dev.is .SDE_CTL_EN = false ∧ s.dev.slices.any (fun e => e.2.capt.isSome) = false) :=
  ⟨0x00400003#32, unit id, by decide +kernel⟩

/-- The premises of ringIgnored in RingWrite can be met together. -/
theorem witness_ringIgnored : ∃ (val : DWord) (s : State), (s.dev.is .SDE_CTL_EN = true ∨ s.dev.slices.any (fun e => e.2.capt.isSome) = true) :=
  ⟨0x00400003#32, unit fun d => d.fs .SDE_CTL_EN 1, by decide +kernel⟩

/-- The premises of ringBusIgnored in RingWrite can be met together. -/
theorem witness_ringBusIgnored : ∃ (val : DWord) (s : State), ((s.dev.is .SDE_CTL_EN = true ∨ s.dev.slices.any (fun e => e.2.capt.isSome) = true) ∧ s.dev.blockOn .sde = true) :=
  ⟨0x00400003#32, unit fun d => d.fs .SDE_CTL_EN 1, by decide +kernel⟩

end

end Sys2Proof.Tests
end

section
/-!
SUPPORT. The operating mode over the updates that stop an OPU, and the OPU islands' power (01_architecture.md R18, R24, R26, R27;
19_modes_and_power.md R586).
-/

namespace Sys2Proof.Proofs

open Sys2Proof Sys2Proof.Machine Sys2Proof.Laws

/-! Registers outside the PMU's window. -/

/-- A register of another window than the PMU's, its whole array within its window of 1 MiB. -/
abbrev OutsidePmu (r : Reg) : Prop := r.blk.code ≠ 14 ∧ r.off + (r.n1 - 1) * r.s1 + (r.n2 - 1) * r.s2 < 0x100000

/-- No register of such an array has the key of PMU_STAT. -/
theorem key_ne_pmuStat {r : Reg} {i j : Nat} (hr : OutsidePmu r) (hi : i < r.n1) (hj : j < r.n2) :
    r.key i j ≠ Reg.PMU_STAT.key 0 0 := by
  obtain ⟨hcode, hfit⟩ := hr
  have hrow : i * r.s1 ≤ (r.n1 - 1) * r.s1 := Nat.mul_le_mul_right _ (by omega)
  have hcol : j * r.s2 ≤ (r.n2 - 1) * r.s2 := Nat.mul_le_mul_right _ (by omega)
  exact key_ne_of_block _ _ _ _ _ _ hcode (by omega) (by decide)

/-! Firmware's events. -/

/-- Taking waiting submissions into the journal's queue changes the journal only. -/
theorem acceptWaiting_journal (n : Nat) (d : Dev) : ∃ j, acceptWaiting n d = d.onJournal fun _ => j := by
  induction n generalizing d with
  | zero => exact ⟨d.journal, rfl⟩
  | succ n ih =>
    unfold acceptWaiting
    split
    · split
      · exact ih (d.onJournal _)
      · exact ⟨d.journal, rfl⟩
    · exact ⟨d.journal, rfl⟩

/-- All that an event changes: the journal, and perhaps RJ_STAT.FULL (R416, R417, R490). -/
theorem event_journal (d : Dev) (e : EventInfo) :
    ∃ j, d.event e = d.onJournal (fun _ => j) ∨ ∃ v, d.event e = (d.onJournal fun _ => j).fs .RJ_STAT_FULL v := by
  unfold Dev.event Dev.fwSubmit
  dsimp only
  split
  · exact ⟨_, .inl rfl⟩
  · unfold Dev.submit
    split
    · obtain ⟨j, hj⟩ := acceptWaiting_journal 8 (d.onJournal _)
      rw [hj]
      exact ⟨j, .inr ⟨_, rfl⟩⟩
    · exact ⟨d.journal, .inl rfl⟩

theorem event_opuStage (d : Dev) (e : EventInfo) : (d.event e).opuStage = d.opuStage := by
  obtain ⟨j, h | ⟨v, h⟩⟩ := event_journal d e <;> simp [h]

theorem event_shadow (d : Dev) (e : EventInfo) : (d.event e).shadow = d.shadow := by
  obtain ⟨j, h | ⟨v, h⟩⟩ := event_journal d e <;> simp [h]

theorem event_rd_pmuStat (d : Dev) (e : EventInfo) : (d.event e).rd .PMU_STAT = d.rd .PMU_STAT := by
  obtain ⟨j, h | ⟨v, h⟩⟩ := event_journal d e
  · rw [h, onJournal_rd]
  · rw [h, Dev.fs, rd_wr_ne _ _ _ _ _ _ _ _ (by decide), onJournal_rd]

theorem event_fg_pmuStat (d : Dev) (e : EventInfo) {x : Fld} (hx : x.reg = .PMU_STAT) : (d.event e).fg x = d.fg x := by
  rw [Dev.fg, Dev.fg, hx, event_rd_pmuStat]

/-! The operating mode is kept. -/

/-- The unit is in the operating mode of a code (Table 19-1). -/
structure InMode (m : Nat) (d : Dev) : Prop where
  mode : d.mode = m

section
variable {m : Nat} {d : Dev}

/-- The mode lies in PMU_STAT. -/
theorem InMode.of_rd {e : Dev} (he : e.rd .PMU_STAT = d.rd .PMU_STAT) (h : InMode m d) : InMode m e :=
  ⟨(congrArg (fun w : DWord => bitsOf w.toNat 0 3) he).trans h.mode⟩

theorem InMode.of_regs {e : Dev} (he : e.regs = d.regs) (h : InMode m d) : InMode m e :=
  h.of_rd (by rw [Dev.rd, Dev.rd, he])

theorem InMode.withStages {o : Sparse OpuStage} {l : List StalledAccess} (h : InMode m d) :
    InMode m { d with opuStage := o, stalled := l } := ⟨h.mode⟩

theorem InMode.withPickups {p : Sparse Pickup} (h : InMode m d) : InMode m { d with pickups := p } := ⟨h.mode⟩

theorem inMode_setMode (hm : m < 8) : InMode m (d.setMode m) :=
  ⟨(fg_fs d .PMU_STAT_MODE m 0 0 (by decide)).trans (Nat.mod_eq_of_lt hm)⟩

theorem InMode.wr {r : Reg} {v : DWord} {i j : Nat} (h : InMode m d) (hr : OutsidePmu r := by decide)
    (hi : i < r.n1 := by decide) (hj : j < r.n2 := by decide) : InMode m (d.wr r v i j) :=
  h.of_rd (rd_wr_ne d r .PMU_STAT v i j 0 0 (key_ne_pmuStat hr hi hj))

theorem InMode.fs {x : Fld} {v i j : Nat} (h : InMode m d) (hr : OutsidePmu x.reg := by decide)
    (hi : i < x.reg.n1 := by decide) (hj : j < x.reg.n2 := by decide) : InMode m (d.fs x v i j) := h.wr hr hi hj

theorem InMode.bump {r : Reg} {i n : Nat} (h : InMode m d) (hr : OutsidePmu r := by decide)
    (hi : i < r.n1 := by decide) (hj : 0 < r.n2 := by decide) : InMode m (d.bump r i n) := h.wr hr hi hj

/-- The OPU islands' power bits lie beside the mode in PMU_STAT. -/
theorem InMode.fs_opuOn {v : Nat} (h : InMode m d) : InMode m (d.fs .PMU_STAT_OPU_ON v) :=
  ⟨(fg_fs_same_reg d .PMU_STAT_OPU_ON .PMU_STAT_MODE v 0 0 rfl (by decide) (by decide)).trans h.mode⟩

theorem InMode.cond {b : Bool} {f : Dev → Dev} (h : InMode m d) (hf : ∀ e, InMode m e → InMode m (f e)) :
    InMode m (d.cond b f) := by
  cases b
  · exact h
  · exact hf d h

theorem InMode.each {α : Type} {f : Dev → α → Dev} {l : List α} (h : InMode m d)
    (hf : ∀ e, ∀ x ∈ l, InMode m e → InMode m (f e x)) : InMode m (d.each l f) := by
  induction l generalizing d with
  | nil => exact h
  | cons x l ih => exact ih (hf d x (by simp) h) fun e y hy => hf e y (by simp [hy])

/-! Lanes that stop. -/

theorem InMode.laneClose {opu w : Nat} (h : InMode m d) (ho : opu < 4) : InMode m (laneClose opu w d) := by
  unfold Machine.laneClose laneOpenSet onLane
  exact InMode.fs (InMode.fs (h.of_regs (onWsg_regs _ _ _)) (hi := ho)) (hi := ho)

theorem InMode.frameAbandon {opu w p : Nat} {gate : Bool} {sent : Bytes} (h : InMode m d) (ho : opu < 4) :
    InMode m (frameAbandon opu w p gate sent d) := by
  have hint : InMode m ((d.bump .WSG_CNT_INT opu).fs .WSG_OSTAT_INTERRUPT 1 opu) :=
    InMode.fs (h.bump (hi := ho)) (hi := ho)
  unfold Machine.frameAbandon
  refine InMode.laneClose (InMode.of_regs (onWsg_regs _ _ _) (InMode.of_regs (onFw_regs _ _) ?_)) ho
  exact hint.cond fun _ he => he.bump (hi := ho)

theorem InMode.lanesStop {opu : Nat} {gate : Bool} (h : InMode m d) (ho : opu < 4) : InMode m (lanesStop gate opu d) := by
  refine h.each fun e w _ he => ?_
  unfold laneStop
  split
  · exact he
  · split
    · exact he.frameAbandon ho
    · exact he.laneClose ho

/-! Loop slots that stop. -/

theorem InMode.bankSwap {n : Nat} (h : InMode m d) (hn : n < 80) : InMode m (bankSwap n d) := by
  unfold Machine.bankSwap
  refine InMode.of_regs (onSlot_regs _ _ _) ?_
  exact InMode.fs (InMode.fs (InMode.fs h (hi := hn)) (hi := hn)) (hi := hn)

theorem InMode.swapWrite {n : Nat} (h : InMode m d) (hn : n < 80) : InMode m (swapWrite n d) := by
  unfold Machine.swapWrite
  split
  · exact h
  · split
    · exact h.fs (hi := hn)
    · exact h.bankSwap hn

theorem InMode.bankWrite {n : Nat} {ws : List Word} (h : InMode m d) (hn : n < 80) : InMode m (bankWrite n ws d) := by
  unfold Machine.bankWrite
  refine InMode.swapWrite (InMode.each h fun _ _ _ he => ?_) hn
  exact he.of_regs (putDm_regs _ _ _)

theorem InMode.bankTake {n : Nat} (h : InMode m d) (hn : n < 80) : InMode m (bankTake n d) := by
  unfold Machine.bankTake
  dsimp only
  split
  · exact h.bankSwap hn
  · exact InMode.bankWrite ((h.bankSwap hn).of_regs (onFw_regs _ _)) hn

theorem InMode.slotStop {n : Nat} (h : InMode m d) (hn : n < 80) : InMode m (slotStop n d) := by
  unfold Machine.slotStop bankSettle
  refine InMode.cond (InMode.of_regs (onSlot_regs _ _ _) ?_) fun _ he => he.bankTake hn
  exact InMode.fs (InMode.fs h (hi := hn)) (hi := hn)

/-! An OPU's loops that stop. -/

theorem InMode.svSet {opu v : Nat} {f : SvFld} (h : InMode m d) (ho : opu < 4) (hf : f.word < 16) :
    InMode m (d.svSet opu f v) :=
  h.wr (hi := show 16 * opu + f.word < 128 by omega)

/-- The slots of an OPU's loops are slots of the engine. -/
theorem opuSlots_lt {opu n : Nat} (ho : opu < 4) (hn : n ∈ servoSlots opu ++ apcSlots opu) : n < 80 := by
  simp [servoSlots, apcSlots] at hn
  omega

theorem InMode.setSv {opu st : Nat} (h : InMode m d) (ho : opu < 4) : InMode m (d.setSv opu st) := by
  unfold Dev.setSv
  exact InMode.cond (h.svSet ho (by decide)) fun _ he => he.of_regs (onEng_regs _ _)

theorem InMode.servoOpen {opu : Nat} (h : InMode m d) (ho : opu < 4) : InMode m (servoOpen opu d) := by
  unfold Machine.servoOpen
  refine InMode.of_regs (onServo_regs _ _ _) (InMode.svSet (InMode.setSv ?_ ho) ho (by decide))
  refine InMode.each (InMode.each h fun _ _ hn he => ?_) fun _ _ _ he => ?_
  · exact he.slotStop (opuSlots_lt ho hn)
  · exact he.of_regs (onEng_regs _ _)

/-! The mechanism and the slices' registers. -/

theorem InMode.sldHold {opu : Nat} {frost : Bool} {pos : Int} (h : InMode m d) (ho : opu < 4) :
    InMode m (sldHold opu frost pos d) := by
  have hpos : InMode m (d.cond (d.sldState opu == sldMoving) fun d => d.setPos opu pos) :=
    h.cond fun _ he => InMode.fs he (hi := ho)
  unfold Machine.sldHold
  refine InMode.of_regs (onSled_regs _ _ _) (InMode.cond ?_ fun _ he => he.fs (hi := ho))
  refine InMode.cond (InMode.cond (InMode.cond hpos ?_) ?_) ?_ <;> exact fun _ he => he.fs (hi := ho)

theorem InMode.spnEnter {st : Nat} (h : InMode m d) : InMode m (spnEnter st d) := by
  unfold Machine.spnEnter spnSettle
  exact InMode.cond (InMode.of_regs (onSpn_regs _ _) (InMode.fs h)) fun _ he => he.fs

theorem InMode.spnStop (h : InMode m d) : InMode m (spnStop d) := by
  unfold Machine.spnStop
  split
  · exact InMode.fs h
  · exact h.spnEnter

/-- The slices of an OPU are slices of the unit. -/
theorem slicesOf_lt {opu n : Nat} (ho : opu < 4) (hn : n ∈ slicesOf opu) : n < 96 := by
  simp [slicesOf] at hn
  omega

/-- Every register of the slices' window lies outside the PMU's, and each OPU has at least one of each array. -/
theorem regsOfRcs_outsidePmu : ∀ r ∈ regsOfRcs, OutsidePmu r ∧ 4 ≤ r.n1 ∧ 0 < r.n2 := by decide

theorem InMode.sliceRegsReset {opu : Nat} (h : InMode m d) (ho : opu < 4) : InMode m (sliceRegsReset opu d) := by
  refine h.each fun e r hr he => ?_
  obtain ⟨hout, hrows, hcols⟩ := regsOfRcs_outsidePmu r hr
  split
  · next h96 =>
    exact he.each fun _ n hn he => he.each fun _ j hj he =>
      he.wr hout (h96 ▸ slicesOf_lt ho hn) (List.mem_range.mp hj)
  · exact he.wr hout (by omega) hcols

end

/-! OPU islands that go off, and FROZEN. -/

/-- In FROZEN an island that goes off aborts no calibration step. -/
theorem calIslandOff_frozen {d : Dev} (h : InMode 7 d) (opu : Nat) : calIslandOff opu d = d := by
  have habort : calAbort false d = d := by
    unfold calAbort
    rw [h.mode]
    simp
  unfold calIslandOff Dev.cond
  rw [habort, ite_self]

/-- The fuses enable none but the four OPUs. -/
theorem opu_lt_four {d : Dev} {opu : Nat} (h : opu ∈ d.opus) : opu < 4 := by
  simp [Dev.opus] at h
  exact h.1

theorem InMode.opuOff_frozen {d : Dev} {opu : Nat} {frost : Bool} (h : InMode 7 d) (ho : opu < 4) :
    InMode 7 (opuOff opu frost d) := by
  have hopen : InMode 7 (Machine.servoOpen opu (Machine.lanesStop true opu d)) := (h.lanesStop ho).servoOpen ho
  unfold opuOff
  split
  · exact h
  · rw [calIslandOff_frozen hopen]
    refine InMode.fs_opuOn (InMode.withStages (InMode.fs (InMode.fs ?_ (hi := ho)) (hi := ho)))
    refine InMode.of_regs (onWsg_regs _ _ _) (InMode.sliceRegsReset (InMode.withPickups ?_) ho)
    exact InMode.each (hopen.sldHold ho) fun _ _ _ he => ⟨he.mode⟩

theorem InMode.frozenStop {d : Dev} (h : InMode 7 d) : InMode 7 (frozenStop d) := by
  refine InMode.each (InMode.each h.spnStop fun _ _ ho he => ?_) fun e o ho he => ?_
  · exact he.sldHold (opu_lt_four ho)
  · refine InMode.opuOff_frozen (InMode.each he fun _ _ hn he => ?_) (opu_lt_four ho)
    exact he.fs (hi := slicesOf_lt (opu_lt_four ho) hn)

/-- FROZEN_ENTRY leaves the unit FROZEN whatever its mode was (R18, R586). -/
theorem inMode_frozenEntry (detail : Nat) (d : Dev) : InMode 7 (frozenEntry detail d) := by
  unfold frozenEntry
  split
  · next h => exact ⟨beq_iff_eq.mp h⟩
  · have hmode : InMode 7 ((d.setMode 7).onFw fun w => { w with frozen := detail }) :=
      (inMode_setMode (by decide)).of_regs (onFw_regs _ _)
    refine InMode.of_rd (event_rd_pmuStat _ _) (InMode.each (InMode.frozenStop ?_) fun _ _ _ he => ?_)
    · exact hmode.each fun _ _ ho he => he.lanesStop (opu_lt_four ho)
    · exact he.of_regs (endCmd_regs _ _ _ _ _ _)

/-- A halt of the Control Law Engine makes the unit FROZEN (R222). -/
theorem inMode_cleHalt {d : Dev} (h : d.is .CLE_STAT_HALT = false) : InMode 7 (cleHalt d) := by
  unfold cleHalt
  rw [if_neg (by simp [h])]
  exact inMode_frozenEntry _ _

/-- An engine's fault makes the unit FROZEN (R18); that of the Control Law Engine halts it first. -/
theorem inMode_engineFault (k : Nat) {d : Dev} (h : d.is .CLE_STAT_HALT = false) : InMode 7 (engineFault k d) := by
  unfold engineFault
  split
  · exact inMode_frozenEntry _ _
  · exact inMode_frozenEntry _ _
  · exact inMode_cleHalt h
  · exact inMode_frozenEntry _ _
  · exact inMode_frozenEntry _ _
  · exact inMode_frozenEntry _ _

/-- In FROZEN LD_STOP_N of every OPU is asserted (R24). -/
theorem InMode.ldStop {d : Dev} (h : InMode 7 d) (opu : Nat) : d.ldStop opu = true := by
  simp [Dev.ldStop, h.mode]

/-! Power of the OPU islands. -/

/-- HK may switch an OPU's island on: the OPU is present, its island off, and the unit not DORMANT, not FROZEN and in no frost
hold (R26, Table 19-3). -/
structure MayPowerUp (opu : Nat) (d : Dev) : Prop where
  present : d.opuPresent opu = true
  isOff : d.stage opu = .off
  noFrost : d.frost = false
  mode : d.mode ≠ 7 ∧ d.mode ≠ 1

theorem MayPowerUp.opuPowerUp_eq {opu : Nat} {d : Dev} (h : MayPowerUp opu d) :
    opuPowerUp opu d = (({ d with opuStage := sparseSet .off d.opuStage opu .powering }).fs .PMU_STAT_OPU_ON
      (d.fg .PMU_STAT_OPU_ON ||| 2 ^ opu)).fs .WSG_OCTL_GATE_EN 0 opu := by
  obtain ⟨hp, hoff, hfrost, hmode⟩ := h
  unfold opuPowerUp
  rw [if_neg (by simp [hp, hoff, hfrost, hmode])]
  rfl

theorem MayPowerUp.stage {opu : Nat} {d : Dev} (h : MayPowerUp opu d) :
    (opuPowerUp opu d).stage opu = .powering := by
  rw [h.opuPowerUp_eq, Dev.stage, fs_opuStage, fs_opuStage, sparseGet_set_self]

theorem MayPowerUp.gate {opu : Nat} {d : Dev} (h : MayPowerUp opu d) :
    (opuPowerUp opu d).fg .WSG_OCTL_GATE_EN opu = 0 := by
  rw [h.opuPowerUp_eq]
  exact fg_fs _ _ _ _ _ (by decide)

/-- An event has no part in whether an island may be switched on. -/
theorem MayPowerUp.event {opu : Nat} {d : Dev} (h : MayPowerUp opu d) (e : EventInfo) : MayPowerUp opu (d.event e) := by
  obtain ⟨hp, hoff, hfrost, hmode⟩ := h
  constructor
  · rwa [Dev.opuPresent, event_shadow]
  · rwa [Dev.stage, event_opuStage]
  · rwa [Dev.frost, Dev.is, event_fg_pmuStat d e rfl]
  · rwa [Dev.mode, event_fg_pmuStat d e rfl]

theorem opuOff_stage {opu : Nat} {frost : Bool} {d : Dev} (hp : d.opuPresent opu = true) :
    (opuOff opu frost d).stage opu = .off := by
  unfold opuOff
  split
  · next h => simpa [hp] using h
  · dsimp only
    rw [Dev.stage, fs_opuStage, sparseGet_set_self]

theorem opuPowerDown_idle {opu : Nat} {d : Dev} (h : ∀ n ∈ slicesOf opu, d.fg .RCS_STAT_STATE n ≤ 1) :
    opuPowerDown opu d = opuOff opu false d :=
  if_pos (List.all_eq_true.mpr fun n hn => decide_eq_true (h n hn))

theorem each_opuStage {α : Type} {f : Dev → α → Dev} (hf : ∀ e x, (f e x).opuStage = e.opuStage) (l : List α) (d : Dev) :
    (d.each l f).opuStage = d.opuStage := by
  induction l generalizing d with
  | nil => rfl
  | cons x l ih => exact (ih (f d x)).trans (hf d x)

theorem trimRestore_opuStage (opu : Nat) (d : Dev) : (trimRestore opu d).opuStage = d.opuStage := by
  unfold trimRestore liveServo
  dsimp only
  rw [onCal_opuStage]
  exact each_opuStage (fun e n => by rw [liveSlice, fs_opuStage, fs_opuStage]) _ _

theorem sldRelease_opuStage (opu : Nat) (d : Dev) : (sldRelease opu d).opuStage = d.opuStage := by
  unfold sldRelease Dev.cond sldToIdle
  dsimp only
  split
  · rw [onSled_opuStage, fs_opuStage, fs_opuStage, fs_opuStage]
  · rw [fs_opuStage]

theorem opuReadyNow_stage {opu : Nat} {d : Dev} (hp : d.stage opu = .powering) : (opuReadyNow opu d).stage opu = .ready := by
  unfold opuReadyNow
  rw [if_neg (by simp [hp])]
  dsimp only
  rw [Dev.stage, onWsg_opuStage, sldRelease_opuStage, trimRestore_opuStage, sparseGet_set_self]

/-- With no access stalled, an island that powers up becomes ready and no access follows (R26). -/
theorem opuIslandReady_stage {opu : Nat} {d : Dev} (hp : d.stage opu = .powering) (hs : d.stalled = []) :
    (opuIslandReady opu d).stage opu = .ready := by
  have hready : opuIslandReady opu d = opuReadyNow opu { d with stalled := d.stalled.filter fun x => x.opu != opu } := by
    unfold opuIslandReady
    rw [if_neg (by simp [hp]), hs]
    rfl
  rw [hready]
  exact opuReadyNow_stage hp

/-! Accesses to an OPU island that is not ready (R27). -/

/-- An access finds an OPU island off only where the fuses enable the OPU and the island is off. -/
theorem regPath_opuOff {d : Dev} {b : Block} {off opu : Nat} (h : d.regPath b off = .opuOff opu) :
    d.opuPresent opu = true ∧ d.stage opu = .off := by
  unfold Dev.regPath at h
  split at h
  · split at h <;> cases h
  · unfold Dev.pathOf at h
    split at h
    · cases h
    · split at h
      · cases h
      · next o _ =>
        by_cases hp : d.opuPresent o = true
        · rw [if_neg (by simp [hp])] at h
          split at h
          · cases h
          · split at h
            · next hs =>
              cases h
              exact ⟨hp, hs⟩
            · cases h
            · cases h
        · simp [hp] at h

/-- A write to an island that powers up waits for it, and changes nothing else (R27). -/
theorem islandAccess_stall {d : Dev} {b : Block} {off opu req : Nat} {v : DWord} (h : d.regPath b off = .stall opu) :
    islandAccess req none true b off v d =
      { d with
        stalled := d.stalled ++ [{ opu := opu, req := req, write := true, blk := b, off := off, val := v }], error := false } := by
  simp [islandAccess, writeReg, storeBy, h]

/-- An access to an island that is off is dropped with an error response, and the island begins to power up (R27). -/
theorem islandAccess_off {d : Dev} {b : Block} {off opu req : Nat} {write : Bool} {v : DWord}
    (h : d.regPath b off = .opuOff opu) :
    islandAccess req none write b off v d = { islandOffAccess opu req none d with answer := [], error := true } := by
  simp [islandAccess, h]

theorem islandOffAccess_stage {opu req : Nat} {d : Dev} (h : MayPowerUp opu d) :
    (islandOffAccess opu req none d).stage opu = .powering := by
  unfold islandOffAccess
  rw [if_neg (by simp [h.present, h.isOff])]
  exact (h.event _).stage

/-! The obligation. -/

/-- Settles O2: each clause by what its command does. FROZEN_ENTRY alone needs the mode followed through all that stops, with
every register written shown to lie outside the PMU's window or beside the mode. -/
theorem powerIslands : Obligations.PowerIslands := by
  unfold Obligations.PowerIslands
  refine ⟨fun opu s hp hoff hfrost hmode => ?_, fun opu s hp hs => ?_, fun opu s hp _ hidle => ?_,
    fun req write blk off opu val s hpath hfrost hmode => ?_, fun req blk off opu val s hpath => ?_,
    fun engine s _ hhalt => ?_⟩
  · have hmay : MayPowerUp opu s.dev := ⟨hp, hoff, hfrost, hmode⟩
    exact ⟨_, rfl, rfl, rfl, hmay.stage, hmay.gate⟩
  · exact ⟨_, rfl, rfl, rfl, opuIslandReady_stage hp hs⟩
  · have hoff : (opuPowerDown opu s.dev).stage opu = .off := opuPowerDown_idle hidle ▸ opuOff_stage hp
    exact ⟨_, rfl, rfl, rfl, hoff, by simp [Dev.ldStop, hoff]⟩
  · obtain ⟨hp, hoff⟩ := regPath_opuOff hpath
    refine ⟨_, rfl, rfl, rfl, ?_⟩
    rw [islandAccess_off hpath]
    exact ⟨islandOffAccess_stage ⟨hp, hoff, hfrost, hmode⟩, rfl, rfl⟩
  · show State.onDev _ _ = _
    rw [onDev_next, islandAccess_stall hpath]
  · have hmode := inMode_engineFault engine hhalt
    exact ⟨_, rfl, rfl, rfl, hmode.mode, fun o => hmode.ldStop o⟩

end Sys2Proof.Proofs
end

section
/-!
SUPPORT. The registers of the read channel slices, and what a stretch of input through a slice leaves as it was
(03_read_channel_slices.md R67, R88, R99).
-/

namespace Sys2Proof.Proofs

open Sys2Proof Sys2Proof.Machine Sys2Proof.Laws

/-! A slice's registers: each slice has its own 1 KiB of the window. -/

/-- Register `j` of an array that every slice has, at its place in the slice's 1 KiB. -/
abbrev SliceReg (r : Reg) (j : Nat := 0) : Prop := r.blk = .rcs ∧ r.s1 = 0x400 ∧ r.off + j * r.s2 < 0x400

/-- Registers at two places of a slice's 1 KiB have different keys, whichever slices they are of. -/
theorem sliceKey_ne {r q : Reg} {i j k l : Nat} (hr : SliceReg r j) (hq : SliceReg q l)
    (h : r.off + j * r.s2 ≠ q.off + l * q.s2) : r.key i j ≠ q.key k l := by
  obtain ⟨hrb, hrs, hro⟩ := hr
  obtain ⟨hqb, hqs, hqo⟩ := hq
  unfold Reg.key
  rw [hrb, hrs, hqb, hqs]
  omega

/-- Two fields of slice registers: of different registers, or at different bits of one. -/
abbrev Apart (x y : Fld) : Prop :=
  SliceReg x.reg ∧ SliceReg y.reg ∧ x.lo + x.width ≤ 32 ∧
    (x.reg.off = y.reg.off → y.reg = x.reg ∧ (y.lo + y.width ≤ x.lo ∨ x.lo + x.width ≤ y.lo))

section
variable (d : Dev)

/-- A field apart from the one written holds what it held, in the same slice and in every other. -/
theorem fg_fs_apart {x y : Fld} (v i k : Nat) (h : Apart x y) : (d.fs x v i).fg y k = d.fg y k := by
  obtain ⟨hx, hy, hfit, hsame⟩ := h
  by_cases hoff : x.reg.off = y.reg.off
  · obtain ⟨hreg, hbits⟩ := hsame hoff
    by_cases hik : i = k
    · subst hik
      exact fg_fs_same_reg d x y v i 0 hreg hfit hbits
    · refine fg_fs_ne d x y v i 0 k 0 ?_
      obtain ⟨-, hs, -⟩ := hx
      unfold Reg.key
      rw [hreg, hs]
      omega
  · exact fg_fs_ne d x y v i 0 k 0 (sliceKey_ne hx hy (by omega))

theorem fg_bump_apart {r : Reg} {y : Fld} (i n k : Nat) (h : SliceReg r ∧ SliceReg y.reg ∧ r.off ≠ y.reg.off) :
    (d.bump r i n).fg y k = d.fg y k := by
  obtain ⟨hr, hy, hoff⟩ := h
  unfold Dev.bump Dev.fg
  rw [rd_wr_ne _ _ _ _ _ _ _ _ (sliceKey_ne hr hy (by omega))]

/-- A field written with a value that fits holds it. -/
theorem fg_fs_of_lt {x : Fld} {v : Nat} (i : Nat) (hx : x.lo + x.width ≤ 32) (hv : v < 2 ^ x.width) :
    (d.fs x v i).fg x i = v := by
  rw [fg_fs _ _ _ _ _ hx, Nat.mod_eq_of_lt hv]

/-- A one-bit field set in one slice is 1 there, and elsewhere as it was. -/
theorem fg_fs_one {x : Fld} (i k : Nat) (h : SliceReg x.reg ∧ x.lo + x.width ≤ 32 ∧ x.width = 1) :
    (d.fs x 1 i).fg x k = if i = k then 1 else d.fg x k := by
  obtain ⟨⟨-, hs, -⟩, hfit, hw⟩ := h
  split
  · next hik => exact hik ▸ fg_fs_of_lt d i hfit (by simp [hw])
  · refine fg_fs_ne d x x 1 i 0 k 0 ?_
    unfold Reg.key
    rw [hs]
    omega

theorem limitN_le (lo hi n : Nat) (h : lo ≤ hi) : limitN lo hi n ≤ hi := by
  unfold limitN
  split
  · exact h
  · split <;> omega

@[simp] theorem slice_fs (x : Fld) (v i n : Nat) : (d.fs x v i).slice n = d.slice n := rfl
@[simp] theorem slice_bump (r : Reg) (i m n : Nat) : (d.bump r i m).slice n = d.slice n := rfl
@[simp] theorem slice_onPickup (o n : Nat) (f : Pickup → Pickup) : (d.onPickup o f).slice n = d.slice n := rfl
@[simp] theorem pickup_fs (x : Fld) (v i o : Nat) : (d.fs x v i).pickup o = d.pickup o := rfl
@[simp] theorem pickup_bump (r : Reg) (i m o : Nat) : (d.bump r i m).pickup o = d.pickup o := rfl
@[simp] theorem pickup_onSlice (n o : Nat) (f : Slice → Slice) : (d.onSlice n f).pickup o = d.pickup o := rfl

@[simp] theorem slice_onSlice_self (n : Nat) (f : Slice → Slice) : (d.onSlice n f).slice n = f (d.slice n) := by
  rw [slice_onSlice, if_pos rfl]

end

/-- A property that an update gives or leaves holds after it is made where a condition holds. -/
theorem cond_inv {P : Dev → Prop} {d : Dev} {b : Bool} {f : Dev → Dev} (h : P d) (hf : ∀ e, P e → P (f e)) : P (d.cond b f) := by
  cases b
  · exact h
  · exact hf d h

/-- What an update leaves is left by it under a condition. -/
theorem cond_eq {β : Type} {d : Dev} {b : Bool} {f : Dev → Dev} (g : Dev → β) (hf : ∀ e, g (f e) = g e) : g (d.cond b f) = g d := by
  cases b
  · rfl
  · exact hf d

/-- A property that each update leaves holds after all of them. -/
theorem each_inv {α : Type} {P : Dev → Prop} {f : Dev → α → Dev} {l : List α} {d : Dev} (h : P d)
    (hf : ∀ e, ∀ x ∈ l, P e → P (f e x)) : P (d.each l f) := by
  induction l generalizing d with
  | nil => exact h
  | cons x l ih => exact ih (hf d x (by simp) h) fun e y hy => hf e y (by simp [hy])

/-! Release from the deskew buffers (R98, R99). -/

theorem defect_missed (det : DWord) (x : Nat) (y : Sample) (s : Slice) : (s.defect det x y).missed = s.missed := by
  unfold Slice.defect
  dsimp only
  split
  · rfl
  · split <;> rfl

theorem release_missed (det : DWord) (frame limit : Nat) (s : Slice) : (s.release det frame limit).missed = s.missed := by
  have fold : ∀ (l : List (Sample × Nat)) (s : Slice), (l.foldl (fun s e => s.defect det e.2 e.1) s).missed = s.missed := by
    intro l
    induction l with
    | nil => exact fun _ => rfl
    | cons e l ih => exact fun s => (ih _).trans (defect_missed _ _ _ _)
  unfold Slice.release
  dsimp only
  split
  · rfl
  · exact fold _ _

/-- Release writes no register and nothing that the slices have latched. -/
theorem deskewRelease_kept (opu : Nat) (d : Dev) :
    (deskewRelease opu d).regs = d.regs ∧ (deskewRelease opu d).pickups = d.pickups := by
  refine each_inv (P := fun e => e.regs = d.regs ∧ e.pickups = d.pickups) ⟨rfl, rfl⟩ fun e n _ he => ?_
  split
  · exact he
  · exact he

theorem deskewRelease_fg (opu : Nat) (d : Dev) (x : Fld) (i : Nat) : (deskewRelease opu d).fg x i = d.fg x i := by
  rw [Dev.fg, Dev.fg, Dev.rd, Dev.rd, (deskewRelease_kept opu d).1]

theorem deskewRelease_pickup (opu : Nat) (d : Dev) (o : Nat) : (deskewRelease opu d).pickup o = d.pickup o := by
  rw [Dev.pickup, Dev.pickup, (deskewRelease_kept opu d).2]

theorem deskewRelease_missed (opu : Nat) (d : Dev) (n : Nat) : ((deskewRelease opu d).slice n).missed = (d.slice n).missed := by
  refine each_inv (P := fun e => (e.slice n).missed = (d.slice n).missed) rfl fun e m _ he => ?_
  split
  · exact he
  · rw [slice_onSlice]
    split
    · next hmn => rw [release_missed, hmn, he]
    · exact he

theorem deskewLeave_fg (b : Nat) (d : Dev) {x : Fld} (i : Nat) (h : Apart .RCS_STAT_DESKEW_OVF x) :
    (deskewLeave b d).fg x i = d.fg x i := fg_fs_apart d 1 b i h

theorem deskewLeave_pickup (b o : Nat) (d : Dev) : (deskewLeave b d).pickup o = d.pickup o := by
  unfold deskewLeave
  rw [pickup_onSlice, pickup_fs]

theorem deskewLeave_missed (b : Nat) (d : Dev) (n : Nat) : ((deskewLeave b d).slice n).missed = (d.slice n).missed := by
  unfold deskewLeave
  rw [slice_onSlice]
  split
  · next hbn => rw [hbn]; rfl
  · rfl

/-- What release and the drop of a slice both leave holds after the slices that are too far behind have been dropped. -/
theorem deskewFit_inv {P : Dev → Prop} (hrelease : ∀ o e, P e → P (deskewRelease o e)) (hleave : ∀ b e, P e → P (deskewLeave b e))
    (rcs n : Nat) {d : Dev} (h : P d) : P (deskewFit rcs n d) := by
  induction n generalizing d with
  | zero => exact h
  | succ n ih =>
    unfold deskewFit
    split
    · exact h
    · split
      · exact h
      · exact ih (hrelease _ _ (hleave _ _ h))

/-! A stretch of input. -/

theorem loseTiming_fg (rcs : Nat) (d : Dev) {x : Fld} (i : Nat)
    (h : Apart .RCS_STAT_STATE x ∧ Apart .RCS_STAT_TLOSS x ∧ Reg.RCS_CNT_TLOSS.off ≠ x.reg.off) :
    (loseTiming rcs d).fg x i = d.fg x i := by
  obtain ⟨hstate, htloss, hcnt⟩ := h
  unfold loseTiming
  rw [onSlice_fg, fg_bump_apart _ _ _ _ ⟨by decide, hstate.2.1, hcnt⟩, fg_fs_apart _ _ _ _ htloss, fg_fs_apart _ _ _ _ hstate]

theorem loseTiming_lost (rcs : Nat) (d : Dev) :
    (loseTiming rcs d).fg .RCS_STAT_STATE rcs = 4 ∧ (loseTiming rcs d).fg .RCS_STAT_TLOSS rcs = 1 ∧
      ((loseTiming rcs d).slice rcs).missed = 0 := by
  unfold loseTiming
  refine ⟨?_, ?_, by rw [slice_onSlice_self]⟩
  · rw [onSlice_fg, fg_bump_apart _ _ _ _ (by decide), fg_fs_apart _ _ _ _ (by decide),
      fg_fs_of_lt _ _ (by decide) (by decide)]
    rfl
  · rw [onSlice_fg, fg_bump_apart _ _ _ _ (by decide), fg_fs_of_lt _ _ (by decide) (by decide)]

theorem loseTiming_pickup (rcs o : Nat) (d : Dev) : (loseTiming rcs d).pickup o = d.pickup o := by
  unfold loseTiming
  rw [pickup_onSlice, pickup_bump, pickup_fs, pickup_fs]

/-- Posting a stretch writes RCS_NCO, the over-range counters, FMAX and OVR, and no other field. -/
theorem runPosted_fg (rcs : Nat) (r : Run) (d : Dev) {x : Fld} (i : Nat)
    (h : Apart .RCS_NCO_STEP x ∧ Apart .RCS_STAT_FMAX x ∧ Apart .RCS_STAT_OVR x ∧ Reg.RCS_CNT_OVR.off ≠ x.reg.off ∧
      Reg.RCS_CNT_OVR_SMP.off ≠ x.reg.off) : (runPosted rcs r d).fg x i = d.fg x i := by
  obtain ⟨hstep, hfmax, hovr, hcnt, hsmp⟩ := h
  have hposted : (((((d.onSlice rcs fun _ => r.s).fs .RCS_NCO_STEP r.step rcs).cond r.fmax fun d => d.fs .RCS_STAT_FMAX 1 rcs).bump
      .RCS_CNT_OVR rcs r.runs).bump .RCS_CNT_OVR_SMP rcs r.smps).fg x i = d.fg x i := by
    rw [fg_bump_apart _ _ _ _ ⟨by decide, hstep.2.1, hsmp⟩, fg_bump_apart _ _ _ _ ⟨by decide, hstep.2.1, hcnt⟩]
    refine (cond_eq (·.fg x i) fun e => fg_fs_apart _ _ _ _ hfmax).trans ?_
    rw [fg_fs_apart _ _ _ _ hstep, onSlice_fg]
  unfold runPosted
  dsimp only
  split
  · exact hposted
  · rw [onPickup_fg, fg_fs_apart _ _ _ _ hovr, hposted]

/-- OVR after a stretch is posted: set where a sample was over range, and as it was otherwise (R78). -/
theorem runPosted_ovr (rcs : Nat) (r : Run) (d : Dev) :
    (runPosted rcs r d).fg .RCS_STAT_OVR rcs = if r.overAt.isSome then 1 else d.fg .RCS_STAT_OVR rcs := by
  unfold runPosted
  dsimp only
  split
  · next hnone =>
    rw [hnone, fg_bump_apart _ _ _ _ (by decide), fg_bump_apart _ _ _ _ (by decide)]
    refine (cond_eq (·.fg .RCS_STAT_OVR rcs) fun e => fg_fs_apart _ _ _ _ (by decide)).trans ?_
    rw [fg_fs_apart _ _ _ _ (by decide), onSlice_fg]
    rfl
  · next hsome =>
    rw [hsome, onPickup_fg, fg_fs_of_lt _ _ (by decide) (by decide)]
    rfl

theorem runPosted_fmt (rcs o : Nat) (r : Run) (d : Dev) : ((runPosted rcs r d).pickup o).fmt = (d.pickup o).fmt := by
  have hposted : (((((d.onSlice rcs fun _ => r.s).fs .RCS_NCO_STEP r.step rcs).cond r.fmax fun d => d.fs .RCS_STAT_FMAX 1 rcs).bump
      .RCS_CNT_OVR rcs r.runs).bump .RCS_CNT_OVR_SMP rcs r.smps).pickup o = d.pickup o := by
    rw [pickup_bump, pickup_bump]
    exact cond_eq (·.pickup o) fun e => pickup_fs e _ _ _ _
  unfold runPosted
  dsimp only
  split
  · rw [hposted]
  · rw [pickup_onPickup]
    split
    · next ho => rw [ho, pickup_fs, hposted]
    · rw [pickup_fs, hposted]

/-- The input reaches the slice: its signal path runs, and it is not switched to the reference (R67, Table 10-3). -/
theorem sliceRun_eq {rcs : Nat} {d : Dev} (wave : List Int) (hruns : d.sliceRuns rcs = true) (href : d.onReference rcs = false) :
    sliceRun rcs wave d = deskewFit rcs 24 (d.beforeDrop rcs wave) := by
  unfold sliceRun
  rw [if_neg (by simp [hruns, href])]
  rfl

/-- What posting, losing the timing, release and drops all leave holds after a stretch of input. -/
theorem sliceRun_inv {P : Dev → Prop} {rcs : Nat} (hpost : ∀ r e, P e → P (runPosted rcs r e)) (hlose : ∀ e, P e → P (loseTiming rcs e))
    (hrelease : ∀ o e, P e → P (deskewRelease o e)) (hleave : ∀ b e, P e → P (deskewLeave b e)) (wave : List Int) {d : Dev} (h : P d) :
    P (sliceRun rcs wave d) := by
  unfold sliceRun
  split
  · exact h
  · exact deskewFit_inv hrelease hleave _ _ (hrelease _ _ (cond_inv (hpost _ _ h) hlose))

/-- A stretch of input leaves the format that an OPU's slices have latched. -/
theorem sliceRun_fmt (rcs o : Nat) (wave : List Int) (d : Dev) : ((sliceRun rcs wave d).pickup o).fmt = (d.pickup o).fmt :=
  sliceRun_inv (P := fun e => (e.pickup o).fmt = (d.pickup o).fmt) (fun _ _ he => (runPosted_fmt _ _ _ _).trans he)
    (fun _ he => by rwa [loseTiming_pickup]) (fun _ _ he => by rwa [deskewRelease_pickup]) (fun _ _ he => by rwa [deskewLeave_pickup])
    wave rfl

/-- A stretch of input leaves RCS_CTL.MARK_NEG. -/
theorem sliceRun_markNeg (rcs n : Nat) (wave : List Int) (d : Dev) :
    (sliceRun rcs wave d).fg .RCS_CTL_MARK_NEG n = d.fg .RCS_CTL_MARK_NEG n :=
  sliceRun_inv (P := fun e => e.fg .RCS_CTL_MARK_NEG n = d.fg .RCS_CTL_MARK_NEG n)
    (fun _ _ he => (runPosted_fg _ _ _ _ (by decide)).trans he) (fun _ he => (loseTiming_fg _ _ _ (by decide)).trans he)
    (fun _ _ he => (deskewRelease_fg _ _ _ _).trans he) (fun _ _ he => (deskewLeave_fg _ _ _ (by decide)).trans he) wave rfl

end Sys2Proof.Proofs
end

section
/-!
SUPPORT. What a slice makes of a servo field, a preamble, an over-range run and lost timing (03_read_channel_slices.md R72, R78, R88,
R93 to R95).
-/

namespace Sys2Proof.Proofs

open Sys2Proof Sys2Proof.Machine Sys2Proof.Laws

/-! The search for the servo mark (R93). -/

/-- The slice that has found the servo mark `o` channel bits late (R86, R88, R93, R96); `late` tells of a leaf in capture whether the
slip falls into it. -/
def Slice.marked (s : Slice) (k : Nat) (o : Int) (late : Begun → Bool) : Slice :=
  { s with
    searched := true, found := some o, missed := 0, acq := false, place := ((s.place : Int) - o).toNat, count := s.wedge * dataBits k
    begun := s.begun.map fun b => { b with tloss := b.tloss || late b } }

theorem markSearch_found {rcs : Nat} {d : Dev} {o : Int} (hdue : d.SearchDue rcs) (hmark : d.markAt rcs = some o) :
    ∃ late, markSearch rcs d =
      ((d.cond (decide (2 < o.natAbs)) fun d => (d.fs .RCS_STAT_SLIP 1 rcs).bump .RCS_CNT_SLIP rcs).onSlice rcs fun s =>
        Slice.marked s (fmtClass (d.pickup (rcs / 24)).fmt) o late).fs .RCS_STAT_STATE sliceTrack rcs := by
  obtain ⟨-, hzone, hsearched, hlen⟩ := hdue
  unfold Dev.markAt at hmark
  unfold markSearch
  dsimp only
  rw [if_neg (by simp [hzone, hsearched, hlen]), hmark]
  exact ⟨_, rfl⟩

theorem markSearch_missing {rcs : Nat} {d : Dev} (hdue : d.SearchDue rcs) (hmark : d.markAt rcs = none) :
    markSearch rcs d = loseIfLost rcs (((d.fs .RCS_STAT_SERVO_ERR 1 rcs).bump .RCS_CNT_SERVO_ERR rcs).onSlice rcs
      fun s => { s with searched := true, missed := s.missed + 1 }) := by
  obtain ⟨-, hzone, hsearched, hlen⟩ := hdue
  unfold Dev.markAt at hmark
  unfold markSearch
  dsimp only
  rw [if_neg (by simp [hzone, hsearched, hlen]), hmark]

theorem servoMarkSearch_eq {rcs : Nat} {wave : List Int} {d : Dev} (h : (sliceRun rcs wave d).sliceRuns rcs = true) :
    servoMarkSearch rcs wave d = markSearch rcs (sliceRun rcs wave d) := by
  unfold servoMarkSearch
  dsimp only
  rw [h, Laws.cond_true]

/-- The mark found: the slice at its place in TRACK, with a slip beyond 2 bits (R88, R93, R96). -/
theorem markSearch_found_spec {rcs : Nat} {d : Dev} {o : Int} (hdue : d.SearchDue rcs) (hmark : d.markAt rcs = some o) :
    (markSearch rcs d).fg .RCS_STAT_STATE rcs = 3 ∧ ((markSearch rcs d).slice rcs).missed = 0 ∧
      ((markSearch rcs d).slice rcs).found = some o ∧
      ((markSearch rcs d).slice rcs).count = (d.slice rcs).wedge * dataBits (fmtClass (d.pickup (rcs / 24)).fmt) ∧
      (2 < o.natAbs → (markSearch rcs d).fg .RCS_STAT_SLIP rcs = 1) := by
  obtain ⟨late, hnext⟩ := markSearch_found hdue hmark
  have hslice : (d.cond (decide (2 < o.natAbs)) fun d => (d.fs .RCS_STAT_SLIP 1 rcs).bump .RCS_CNT_SLIP rcs).slice rcs = d.slice rcs :=
    cond_eq (·.slice rcs) fun e => by rw [slice_bump, slice_fs]
  rw [hnext, slice_fs, slice_onSlice_self, hslice]
  refine ⟨fg_fs_of_lt _ _ (by decide) (by decide), rfl, rfl, rfl, fun hslip => ?_⟩
  rw [fg_fs_apart _ _ _ _ (by decide), onSlice_fg, decide_eq_true hslip, Laws.cond_true, fg_bump_apart _ _ _ _ (by decide),
    fg_fs_of_lt _ _ (by decide) (by decide)]

/-- No mark: SERVO_ERR, and one more wedge missed or the timing lost (R88, R93). -/
theorem markSearch_missing_spec {rcs : Nat} {d : Dev} (hdue : d.SearchDue rcs) (hmark : d.markAt rcs = none) :
    (markSearch rcs d).fg .RCS_STAT_SERVO_ERR rcs = 1 ∧
      (((markSearch rcs d).slice rcs).missed = (d.slice rcs).missed + 1 ∨ (markSearch rcs d).fg .RCS_STAT_STATE rcs = 4) := by
  rw [markSearch_missing hdue hmark]
  unfold loseIfLost
  have herr : (((d.fs .RCS_STAT_SERVO_ERR 1 rcs).bump .RCS_CNT_SERVO_ERR rcs).onSlice rcs
      fun s => { s with searched := true, missed := s.missed + 1 }).fg .RCS_STAT_SERVO_ERR rcs = 1 := by
    rw [onSlice_fg, fg_bump_apart _ _ _ _ (by decide), fg_fs_of_lt _ _ (by decide) (by decide)]
  refine ⟨(cond_eq (·.fg .RCS_STAT_SERVO_ERR rcs) fun e => loseTiming_fg _ _ _ (by decide)).trans herr, ?_⟩
  cases Dev.timingIsLost _ rcs && _
  · exact .inl (by rw [Laws.cond_false, slice_onSlice_self, slice_bump, slice_fs])
  · exact .inr (loseTiming_lost rcs _).1

/-! The servo record (R94, R95). -/

theorem xor_shifts_lt {w g : Nat} (hg : g < 2 ^ w) (l : List Nat) {a : Nat} (ha : a < 2 ^ w) :
    l.foldl (fun a i => a ^^^ (g >>> i)) a < 2 ^ w := by
  induction l generalizing a with
  | nil => exact ha
  | cons i l ih => exact ih (Nat.xor_lt_two_pow ha (lt_of_le_of_lt (Nat.shiftRight_le _ _) hg))

theorem ungray_lt {w g : Nat} (hg : g < 2 ^ w) : ungray w g < 2 ^ w := xor_shifts_lt hg _ (Nat.two_pow_pos w)

theorem msbNat_lt (l : List Bool) : msbNat l < 2 ^ l.length := by
  induction l using List.reverseRecOn with
  | nil => decide
  | append_singleton l b ih =>
    have hb : bit b ≤ 1 := by cases b <;> decide
    have hstep : msbNat (l ++ [b]) = 2 * msbNat l + bit b := by simp [msbNat]
    rw [hstep, List.length_append, List.length_singleton, Nat.pow_succ]
    omega

theorem burstAmp_lt (k n : Nat) : burstAmp k n < 2 ^ 12 := Nat.lt_succ_of_le (limitN_le 0 4095 _ (by omega))

/-- The Gray decoded track number of a servo field (R94). -/
def servoTrack (k : Nat) (neg : Bool) (ys : Array Sample) (o : Int) : Nat :=
  ungray 20 (msbNat (dibitBits neg (servoDibits k ys o 98 20)))

theorem servoTrack_lt (k : Nat) (neg : Bool) (ys : Array Sample) (o : Int) : servoTrack k neg ys o < 2 ^ 20 := by
  refine ungray_lt ((msbNat_lt _).trans_eq ?_)
  simp [dibitBits, servoDibits]

/-- The record of a whole servo field: its track and the four burst amplitudes (R94, R95). -/
theorem recordPost_spec {rcs : Nat} {d : Dev} (hdue : d.RecordDue rcs) :
    let k := fmtClass (d.pickup (rcs / 24)).fmt
    let ys := (d.slice rcs).servoField
    let o := (d.slice rcs).found.getD 0
    (recordPost rcs d).fg .RCS_BURST_AB_A rcs = burstAmp k (burstSum k ys o 0).1 ∧
      (recordPost rcs d).fg .RCS_BURST_AB_B rcs = burstAmp k (burstSum k ys o 1).1 ∧
      (recordPost rcs d).fg .RCS_BURST_CD_C rcs = burstAmp k (burstSum k ys o 2).1 ∧
      (recordPost rcs d).fg .RCS_BURST_CD_D rcs = burstAmp k (burstSum k ys o 3).1 ∧
      (recordPost rcs d).fg .RCS_SERVO_T_TRACK rcs = servoTrack k (d.is .RCS_CTL_MARK_NEG rcs) ys o := by
  obtain ⟨-, hsearched, hlen⟩ := hdue
  have hafter : ∀ {x : Fld}, Apart .RCS_STAT_SERVO_ERR x ∧ Reg.RCS_CNT_SERVO_ERR.off ≠ x.reg.off → ∀ (b : Bool) (f : Slice → Slice) (e : Dev),
      ((e.onSlice rcs f).cond b fun d => (d.fs .RCS_STAT_SERVO_ERR 1 rcs).bump .RCS_CNT_SERVO_ERR rcs).fg x rcs = e.fg x rcs := by
    intro x hx b f e
    refine (cond_eq (·.fg x rcs) fun d => ?_).trans (onSlice_fg e rcs f x rcs 0)
    rw [fg_bump_apart _ _ _ _ ⟨by decide, hx.1.2.1, hx.2⟩, fg_fs_apart _ _ _ _ hx.1]
  unfold recordPost
  dsimp only
  rw [if_neg (by simp [hsearched, hlen]), hafter (by decide), hafter (by decide), hafter (by decide), hafter (by decide),
    hafter (by decide)]
  simp (disch := decide) only [fg_fs_apart]
  exact ⟨fg_fs_of_lt _ _ (by decide) (burstAmp_lt _ _), fg_fs_of_lt _ _ (by decide) (burstAmp_lt _ _),
    fg_fs_of_lt _ _ (by decide) (burstAmp_lt _ _), fg_fs_of_lt _ _ (by decide) (burstAmp_lt _ _),
    fg_fs_of_lt _ _ (by decide) (servoTrack_lt _ _ _ _)⟩

theorem servoRecordPost_eq {rcs : Nat} {wave : List Int} {d : Dev} (h : (sliceRun rcs wave d).sliceRuns rcs = true) :
    servoRecordPost rcs wave d = recordPost rcs (sliceRun rcs wave d) := by
  unfold servoRecordPost
  dsimp only
  rw [h, Laws.cond_true]

/-! The AGC (R72). -/

/-- The code of GAIN after the AGC's step (R72). -/
def gainAfter (rcs : Nat) (lo hi : Int) (d : Dev) : Nat :=
  (limitI 0 63 ((d.fg .RCS_AFE_GAIN rcs : Int) + agcStep (d.fg .RCS_AGC_TARGET rcs) (hi - lo).toNat (d.fg .RCS_AGC_SHIFT rcs))).toNat

theorem gainAfter_lt (rcs : Nat) (lo hi : Int) (d : Dev) : gainAfter rcs lo hi d < 2 ^ 6 := by
  unfold gainAfter limitI
  split
  · decide
  · split <;> omega

theorem agcApply_gain {rcs : Nat} {lo hi : Int} {d : Dev} (hover : d.PreambleOver rcs) (hagc : (d.slice rcs).agc = some (lo, hi))
    (hmarked : (d.slice rcs).agcMarked = false) (hen : d.is .RCS_CTL_AGC_EN rcs = true) (htarget : d.fg .RCS_AGC_TARGET rcs ≠ 0) :
    (agcApply rcs d).fg .RCS_AFE_GAIN rcs = gainAfter rcs lo hi d := by
  obtain ⟨-, hdue, hplace⟩ := hover
  unfold agcApply
  dsimp only
  rw [if_neg (by simp [hdue, hplace]), onSlice_is, if_neg (by simp [hmarked, hen]), hagc]
  dsimp only
  rw [onSlice_fg, if_neg (by simp [onSlice_fg, htarget]), if_neg (by simp [onSlice_fg, htarget])]
  exact fg_fs_of_lt _ _ (by decide) (gainAfter_lt rcs lo hi d)

theorem agcUpdate_eq {rcs : Nat} {wave : List Int} {d : Dev} (h : (sliceRun rcs wave d).sliceRuns rcs = true) :
    agcUpdate rcs wave d = agcApply rcs (sliceRun rcs wave d) := by
  unfold agcUpdate
  dsimp only
  rw [h, Laws.cond_true]

/-! Over-range and lost timing (R78, R88). -/

theorem sliceRun_ovr {rcs : Nat} {wave : List Int} {d : Dev} (hruns : d.sliceRuns rcs = true) (href : d.onReference rcs = false) :
    (sliceRun rcs wave d).fg .RCS_STAT_OVR rcs = if (d.through rcs wave).overAt.isSome then 1 else d.fg .RCS_STAT_OVR rcs := by
  have hdrop : (d.beforeDrop rcs wave).fg .RCS_STAT_OVR rcs = (runPosted rcs (d.through rcs wave) d).fg .RCS_STAT_OVR rcs := by
    unfold Dev.beforeDrop loseIfLost
    rw [deskewRelease_fg]
    exact cond_eq (·.fg .RCS_STAT_OVR rcs) fun _ => loseTiming_fg _ _ _ (by decide)
  rw [sliceRun_eq wave hruns href, ← runPosted_ovr, ← hdrop]
  exact deskewFit_inv (P := fun e => e.fg .RCS_STAT_OVR rcs = (d.beforeDrop rcs wave).fg .RCS_STAT_OVR rcs)
    (fun _ _ he => (deskewRelease_fg _ _ _ _).trans he) (fun _ _ he => (deskewLeave_fg _ _ _ (by decide)).trans he) _ _ rfl

/-- A slice that is LOST, its bit TLOSS set and its count of missed wedges begun again (R88). -/
structure IsLost (rcs : Nat) (d : Dev) : Prop where
  state : d.fg .RCS_STAT_STATE rcs = 4
  tloss : d.fg .RCS_STAT_TLOSS rcs = 1
  missed : (d.slice rcs).missed = 0

theorem IsLost.deskewRelease {rcs : Nat} {d : Dev} (h : IsLost rcs d) (opu : Nat) : IsLost rcs (deskewRelease opu d) :=
  ⟨(deskewRelease_fg _ _ _ _).trans h.state, (deskewRelease_fg _ _ _ _).trans h.tloss, (deskewRelease_missed _ _ _).trans h.missed⟩

theorem IsLost.deskewLeave {rcs : Nat} {d : Dev} (h : IsLost rcs d) (b : Nat) : IsLost rcs (deskewLeave b d) :=
  ⟨(deskewLeave_fg _ _ _ (by decide)).trans h.state, (deskewLeave_fg _ _ _ (by decide)).trans h.tloss,
    (deskewLeave_missed _ _ _).trans h.missed⟩

theorem sliceRun_isLost {rcs : Nat} {wave : List Int} {d : Dev} (hruns : d.sliceRuns rcs = true) (href : d.onReference rcs = false)
    (hlost : (runPosted rcs (d.through rcs wave) d).timingIsLost rcs = true) (hstate : d.fg .RCS_STAT_STATE rcs ≠ 4) :
    IsLost rcs (sliceRun rcs wave d) := by
  have hposted : (runPosted rcs (d.through rcs wave) d).fg .RCS_STAT_STATE rcs ≠ 4 := by rwa [runPosted_fg _ _ _ _ (by decide)]
  have hlose : loseIfLost rcs (runPosted rcs (d.through rcs wave) d) = loseTiming rcs (runPosted rcs (d.through rcs wave) d) := by
    unfold loseIfLost
    rw [hlost, Bool.true_and, sliceLost, bne_iff_ne.mpr hposted, Laws.cond_true]
  obtain ⟨h1, h2, h3⟩ := loseTiming_lost rcs (runPosted rcs (d.through rcs wave) d)
  rw [sliceRun_eq wave hruns href]
  refine deskewFit_inv (P := IsLost rcs) (fun o _ he => he.deskewRelease o) (fun b _ he => he.deskewLeave b) _ _ ?_
  unfold Dev.beforeDrop
  rw [hlose]
  exact IsLost.deskewRelease ⟨h1, h2, h3⟩ _

/-! The obligation. -/

/-- Settles O3: each clause by what its command does after the slice's input has run, of which the latched format, MARK_NEG and the
other bits of RCS_STAT are shown to be left. -/
theorem sliceServoField : Obligations.SliceServoField := by
  unfold Obligations.SliceServoField
  refine ⟨fun rcs wave o s hdue hmark => ?_, fun rcs wave s hdue hmark => ?_, fun rcs wave s hdue => ?_,
    fun rcs wave lo hi s hover hagc hmarked hen htarget => ?_, fun rcs wave s hruns href => ?_,
    fun rcs wave s hruns href hlost hstate => ?_⟩
  · refine ⟨_, rfl, rfl, rfl, ?_⟩
    rw [servoMarkSearch_eq hdue.1, ← sliceRun_fmt rcs _ wave]
    exact markSearch_found_spec hdue hmark
  · refine ⟨_, rfl, rfl, rfl, ?_⟩
    rw [servoMarkSearch_eq hdue.1]
    exact markSearch_missing_spec hdue hmark
  · refine ⟨_, rfl, rfl, rfl, ?_⟩
    rw [servoRecordPost_eq hdue.1, ← sliceRun_fmt rcs _ wave, Dev.is, ← sliceRun_markNeg rcs _ wave]
    exact recordPost_spec hdue
  · refine ⟨_, rfl, rfl, rfl, ?_⟩
    rw [agcUpdate_eq hover.1]
    exact agcApply_gain hover hagc hmarked hen htarget
  · exact ⟨_, rfl, rfl, rfl, sliceRun_ovr hruns href⟩
  · obtain ⟨h1, h2, h3⟩ := sliceRun_isLost hruns href hlost hstate
    exact ⟨_, rfl, rfl, rfl, h1, h2, h3⟩

end Sys2Proof.Proofs
end

section
/-!
SUPPORT. The read side of the unit, its slices and what they latch together, over the updates of the servo, the lanes and the mode that
have no part in it.
-/

namespace Sys2Proof.Proofs

open Sys2Proof Sys2Proof.Machine Sys2Proof.Laws

/-- The read channel slices, and what each OPU's slices have latched together. -/
def readSide (d : Dev) : Sparse Slice × Sparse Pickup := (d.slices, d.pickups)

theorem slice_of_readSide {d e : Dev} (h : readSide e = readSide d) (n : Nat) : e.slice n = d.slice n :=
  congrArg (fun r : Sparse Slice × Sparse Pickup => sparseGet ({} : Slice) r.1 n) h

theorem pickup_of_readSide {d e : Dev} (h : readSide e = readSide d) (o : Nat) : e.pickup o = d.pickup o :=
  congrArg (fun r : Sparse Slice × Sparse Pickup => sparseGet ({} : Pickup) r.2 o) h

section
variable (d : Dev)

@[simp] theorem readSide_wr (r : Reg) (v : DWord) (i j : Nat) : readSide (d.wr r v i j) = readSide d := rfl
@[simp] theorem readSide_fs (x : Fld) (v i j : Nat) : readSide (d.fs x v i j) = readSide d := rfl
@[simp] theorem readSide_bump (r : Reg) (i n : Nat) : readSide (d.bump r i n) = readSide d := rfl
@[simp] theorem readSide_setMode (m : Nat) : readSide (d.setMode m) = readSide d := rfl
@[simp] theorem readSide_onWsg (o : Nat) (f : Wsg → Wsg) : readSide (d.onWsg o f) = readSide d := rfl
@[simp] theorem readSide_onFw (f : Firmware → Firmware) : readSide (d.onFw f) = readSide d := rfl
@[simp] theorem readSide_onSlot (n : Nat) (f : CleSlot → CleSlot) : readSide (d.onSlot n f) = readSide d := rfl
@[simp] theorem readSide_onEng (f : Engine → Engine) : readSide (d.onEng f) = readSide d := rfl
@[simp] theorem readSide_putDm (a : Nat) (w : Word) : readSide (d.putDm a w) = readSide d := rfl
@[simp] theorem readSide_onServo (o : Nat) (f : Servo → Servo) : readSide (d.onServo o f) = readSide d := rfl
@[simp] theorem readSide_onSled (o : Nat) (f : Sled → Sled) : readSide (d.onSled o f) = readSide d := rfl
@[simp] theorem readSide_onSpn (f : Spindle → Spindle) : readSide (d.onSpn f) = readSide d := rfl
@[simp] theorem readSide_onJournal (f : Journal → Journal) : readSide (d.onJournal f) = readSide d := rfl
@[simp] theorem readSide_endCmd (id cls detail a b : Nat) : readSide (d.endCmd id cls detail a b) = readSide d := rfl
@[simp] theorem readSide_setPos (o : Nat) (p : Int) : readSide (d.setPos o p) = readSide d := rfl

/-- What each update leaves is left by all of them. -/
theorem each_eq {α β : Type} {f : Dev → α → Dev} (g : Dev → β) (hf : ∀ e x, g (f e x) = g e) (l : List α) : g (d.each l f) = g d :=
  each_inv (P := fun e => g e = g d) rfl fun e x _ he => (hf e x).trans he

/-! Loop slots. -/

theorem readSide_bankSwap (n : Nat) : readSide (bankSwap n d) = readSide d := by simp [bankSwap]

theorem readSide_swapWrite (n : Nat) : readSide (swapWrite n d) = readSide d := by
  unfold swapWrite
  split
  · rfl
  · split
    · exact readSide_fs _ _ _ _ _
    · exact readSide_bankSwap _ _

theorem readSide_bankWrite (n : Nat) (ws : List Word) : readSide (bankWrite n ws d) = readSide d := by
  unfold bankWrite
  exact (readSide_swapWrite _ _).trans (each_eq _ readSide (fun e p => readSide_putDm e _ _) _)

theorem readSide_bankTake (n : Nat) : readSide (bankTake n d) = readSide d := by
  unfold bankTake
  dsimp only
  split
  · exact readSide_bankSwap _ _
  · rw [readSide_bankWrite, readSide_onFw, readSide_bankSwap]

theorem readSide_slotStop (n : Nat) : readSide (slotStop n d) = readSide d := by
  unfold slotStop bankSettle
  rw [cond_eq readSide fun e => readSide_bankTake e n, readSide_onSlot, readSide_fs, readSide_fs]

/-! An OPU's lanes. -/

theorem readSide_laneClose (opu w : Nat) : readSide (laneClose opu w d) = readSide d := by simp [laneClose, laneOpenSet, onLane]

theorem readSide_frameAbandon (opu w p : Nat) (gate : Bool) (sent : Bytes) : readSide (frameAbandon opu w p gate sent d) = readSide d := by
  unfold frameAbandon onLane
  rw [readSide_laneClose, readSide_onWsg, readSide_onFw, cond_eq readSide fun e => readSide_bump e _ _ _, readSide_fs, readSide_bump]

theorem readSide_lanesStop (gate : Bool) (opu : Nat) : readSide (lanesStop gate opu d) = readSide d := by
  refine each_eq d readSide (fun e w => ?_) _
  unfold laneStop
  split
  · rfl
  · split
    · exact readSide_frameAbandon _ _ _ _ _ _
    · exact readSide_laneClose _ _ _

/-! An OPU's loops, its sled and the spindle. -/

theorem readSide_svSet (opu : Nat) (x : SvFld) (v : Nat) : readSide (d.svSet opu x v) = readSide d := readSide_wr _ _ _ _ _

theorem readSide_servoOpen (opu : Nat) : readSide (servoOpen opu d) = readSide d := by
  unfold servoOpen Dev.setSv Dev.setInhibit Dev.setOut
  rw [readSide_onServo, readSide_svSet, cond_eq readSide fun e => readSide_onEng e _, readSide_svSet,
    each_eq _ readSide fun e o => readSide_onEng e _, each_eq _ readSide fun e n => readSide_slotStop e n]

theorem readSide_sldHold (opu : Nat) (frost : Bool) (pos : Int) : readSide (sldHold opu frost pos d) = readSide d := by
  unfold sldHold
  rw [readSide_onSled, cond_eq readSide fun e => readSide_fs e _ _ _ _, cond_eq readSide fun e => readSide_fs e _ _ _ _,
    cond_eq readSide fun e => readSide_fs e _ _ _ _, cond_eq readSide fun e => readSide_fs e _ _ _ _,
    cond_eq readSide fun e => readSide_setPos e _ _]

theorem readSide_spnStop : readSide (spnStop d) = readSide d := by
  unfold spnStop spnRefuse spnEnter spnSettle
  split
  · exact readSide_fs _ _ _ _ _
  · rw [cond_eq readSide fun e => readSide_fs e _ _ _ _, readSide_onSpn, readSide_fs]

theorem readSide_event (x : EventInfo) : readSide (d.event x) = readSide d := by
  obtain ⟨j, h | ⟨v, h⟩⟩ := event_journal d x
  · rw [h, readSide_onJournal]
  · rw [h, readSide_fs, readSide_onJournal]

/-! The mode at a jump gap (R584). -/

theorem readSide_apcStop (opu : Nat) : readSide (apcStop opu d) = readSide d := by
  unfold apcStop beamsEnable
  split
  · split
    · rw [readSide_fs, each_eq _ readSide fun e n => readSide_slotStop e n]
    · rw [readSide_onWsg, each_eq _ readSide fun e n => readSide_slotStop e n]
  · rfl

theorem readSide_turnMode (m : Nat) : readSide (d.turnMode m) = readSide d := by
  unfold Dev.turnMode Dev.spSet
  rw [readSide_setMode, each_eq _ readSide fun e o => readSide_svSet e _ _ _, cond_eq readSide fun e => readSide_wr e _ _ _ _]
  exact cond_eq readSide fun e => each_eq e readSide (fun e o => readSide_apcStop e o) _

theorem readSide_modeAtGap : readSide (modeAtGap d) = readSide d := by
  unfold modeAtGap Dev.spSet
  split
  · rfl
  · dsimp only
    rw [apply_ite readSide, readSide_wr, readSide_turnMode, ite_self]

end

end Sys2Proof.Proofs
end

section
/-!
SUPPORT. What a slice latches, presets, commits and checks (03_read_channel_slices.md R75, R84, R90, R91, R97, R99, R101, R108).
-/

namespace Sys2Proof.Proofs

open Sys2Proof Sys2Proof.Machine Sys2Proof.Laws

/-! Writes made twice. -/

section
variable {α : Type}

theorem sparseDrop_sparseIns (m : Sparse α) (k : Nat) (v : α) : sparseDrop (· == k) (sparseIns m k v) = sparseDrop (· == k) m := by
  induction m with
  | nil => simp [sparseIns, sparseDrop]
  | cons e m ih =>
    obtain ⟨a, w⟩ := e
    unfold sparseIns
    split
    · simp [sparseDrop]
    · simp only [sparseDrop, List.filter_cons] at ih ⊢
      rw [ih]

theorem sparseSet_of_drop [DecidableEq α] (z : α) {m m' : Sparse α} {k : Nat} (h : sparseDrop (· == k) m = sparseDrop (· == k) m')
    (v : α) : sparseSet z m k v = sparseSet z m' k v := by
  unfold sparseSet
  rw [h]

/-- The second of two writes of a key is the one that counts. -/
theorem sparseSet_sparseSet [DecidableEq α] (z : α) (m : Sparse α) (k : Nat) (v w : α) :
    sparseSet z (sparseSet z m k v) k w = sparseSet z m k w := by
  have hdrop : sparseDrop (· == k) (sparseSet z m k v) = sparseDrop (· == k) m := by
    unfold sparseSet
    split
    · simp [sparseDrop]
    · rw [sparseDrop_sparseIns]
      simp [sparseDrop]
  exact sparseSet_of_drop z hdrop w

/-- A key apart from the one written reads as it did, whatever the default of each. -/
theorem sparseGet_sparseSet_ne [DecidableEq α] (y z : α) (m : Sparse α) {k l : Nat} (v : α) (h : k ≠ l) :
    sparseGet y (sparseSet z m k v) l = sparseGet y m l := by
  unfold sparseSet
  split
  · rw [sparseGet_drop]
    simp [Ne.symm h]
  · rw [sparseGet_ins _ _ _ _ _ (sparseDrop_ne m k), if_neg h, sparseGet_drop]
    simp [Ne.symm h]

end

theorem onSlice_onSlice (d : Dev) (n : Nat) (f g : Slice → Slice) : (d.onSlice n f).onSlice n g = d.onSlice n fun s => g (f s) := by
  have hself := slice_onSlice_self d n f
  unfold Dev.onSlice at hself ⊢
  rw [hself]
  dsimp only
  rw [sparseSet_sparseSet]

/-! Writes of a slice's registers by firmware. -/

theorem regWrite_reg {r : Reg} {i : Nat} {d : Dev} (v : DWord) (hpath : d.pathOf r i 0 = .reg r i 0) (hblk : r.blk = .rcs) :
    regWrite r i v d = { rcsWrite r i 0 v d with error := false } := by
  unfold regWrite storeBy
  rw [hpath]
  dsimp only
  unfold regStore
  rw [hblk]

theorem rcsWrite_ctl (i : Nat) (v : DWord) (d : Dev) : rcsWrite .RCS_CTL i 0 v d = rcsCtlWrite i v d := if_pos rfl

theorem rcsWrite_ncoPreset (i : Nat) (v : DWord) (d : Dev) : rcsWrite .RCS_NCO_PRESET i 0 v d = ncoPreset i v d := by
  unfold rcsWrite
  rw [if_neg (by decide), if_neg (by decide), if_pos rfl]

theorem rcsWrite_tgt (i : Nat) (v : DWord) (d : Dev) : rcsWrite .RCS_TGT i 0 v d = tgtWrite i v d := by
  unfold rcsWrite
  rw [if_neg (by decide), if_neg (by decide), if_neg (by decide), if_pos rfl]

theorem rcsWrite_eqCtl (i : Nat) (v : DWord) (d : Dev) : rcsWrite .RCS_EQ_CTL i 0 v d =
    (plainWrite .RCS_EQ_CTL i 0 v d).cond (fieldOf .RCS_EQ_CTL_COMMIT v == 1) (eqCommit i) := by
  unfold rcsWrite
  rw [if_neg (by decide), if_neg (by decide), if_neg (by decide), if_neg (by decide), if_pos rfl]

/-- A field of a value just replaced in it. -/
theorem fieldOf_withField {x : Fld} {n : Nat} (v : DWord) (hx : x.lo + x.width ≤ 32) (hn : n < 2 ^ x.width) :
    fieldOf x (withField x n v) = n := by
  unfold fieldOf withField
  rw [BitVec.toNat_ofNat, Nat.mod_eq_of_lt (putBits_lt v.isLt hx), bitsOf_putBits, Nat.mod_eq_of_lt hn]

/-! Frequency presets (R84). -/

theorem limitStep_le (n : Nat) : limitStep n ≤ 0x1000000 := limitN_le _ _ _ (by decide)

theorem limitStep_of_bounds {n : Nat} (hlo : 0x400000 ≤ n) (hhi : n ≤ 0x1000000) : limitStep n = n := by
  unfold limitStep limitN
  rw [if_neg (by omega), if_neg (by omega)]

theorem limitStep_limitStep (n : Nat) : limitStep (limitStep n) = limitStep n := by
  refine limitStep_of_bounds ?_ (limitStep_le n)
  unfold limitStep limitN
  split
  · omega
  · split <;> omega

/-- A step that needs no limit is loaded as it is, and FMAX stays (R82 to R84). -/
theorem presetNow_limited (d : Dev) (rcs n : Nat) :
    d.presetNow rcs (limitStep n) = (d.fs .RCS_NCO_STEP (limitStep n) rcs).onSlice rcs fun s => { s with frac := 0, acq := true } := by
  unfold Dev.presetNow Dev.setStep
  rw [decide_eq_false (by have := limitStep_le n; omega), Laws.cond_false, onSlice_onSlice, limitStep_limitStep]

/-! The jump gap (R84, R88, R96, R101). -/

/-- What the writes of a slice's step, FMAX and STATE and its own updates leave holds after its jump gap has begun. -/
theorem gapLatchSlice_inv {P : Dev → Prop} {n : Nat}
    (hfs : ∀ x ∈ [Fld.RCS_NCO_STEP, .RCS_STAT_FMAX, .RCS_STAT_STATE], ∀ e v, P e → P (e.fs x v n))
    (hslice : ∀ e f, P e → P (e.onSlice n f)) (newClass : Bool) (k : Nat) {d : Dev} (h : P d) :
    P (gapLatchSlice newClass k d n) ∧
      (d.rcsPresent n = true → ∃ e, P e ∧ ((gapLatchSlice newClass k d n).slice n).cap = e.fg .RCS_CAP_SLOTS n ∧
        ((gapLatchSlice newClass k d n).slice n).count = 0) := by
  have hpreset : ∀ m e, P e → P (e.presetNow n m) := fun m e he => hslice _ _
    (cond_inv (hslice _ _ (hfs _ (by simp) e _ he)) fun _ he => hfs _ (by simp) _ _ he)
  unfold gapLatchSlice
  split
  · next habsent => exact ⟨h, fun hpresent => by simp [hpresent] at habsent⟩
  · dsimp only
    rw [slice_onSlice_self]
    have hloaded : P (match (d.slice n).preset with
        | some m => d.presetNow n m
        | none => d.cond ((newClass && d.is .RCS_CTL_PRESET_AUTO n) || d.fg .RCS_STAT_STATE n == sliceLost) fun d =>
            d.presetNow n (presetStep k (d.fg .SPN_SPEED))) := by
      split
      · exact hpreset _ _ h
      · exact cond_inv h fun _ he => hpreset _ _ he
    have hstate := fun b => cond_inv (b := b) hloaded fun e he => hfs .RCS_STAT_STATE (by simp) e sliceAcquire he
    exact ⟨hslice _ _ (hstate _), fun _ => ⟨_, hstate _, rfl, rfl⟩⟩

/-- What the jump gap finds of the unit at every slice of an OPU: its slices on, its settings as they were, its latches not made. -/
structure GapSettings (opu : Nat) (d e : Dev) : Prop where
  present : ∀ n, e.rcsPresent n = d.rcsPresent n
  pickups : e.pickups = d.pickups
  cap : ∀ n, e.fg .RCS_CAP_SLOTS n = d.fg .RCS_CAP_SLOTS n
  detCtl : e.rd .SDE_DET_CTL opu = d.rd .SDE_DET_CTL opu
  detLlr : e.rd .SDE_DET_LLR opu = d.rd .SDE_DET_LLR opu

/-- A field of a slice's registers lies apart from every register of another window. -/
theorem rd_fs_sliceReg (d : Dev) {x : Fld} {q : Reg} {v n o : Nat} (hx : SliceReg x.reg) (hn : n < 96) (hblk : q.blk.code ≠ 0)
    (hq : q.off + o * q.s1 < 0x100000) : (d.fs x v n).rd q o = d.rd q o := by
  obtain ⟨hb, hs, hoff⟩ := hx
  refine rd_wr_ne _ _ _ _ _ _ _ _ (key_ne_of_block _ _ _ _ _ _ (by rw [hb]; exact hblk.symm) ?_ (by omega))
  rw [hs]
  omega

theorem GapSettings.fs {opu n : Nat} {d e : Dev} {x : Fld} (h : GapSettings opu d e) (ho : opu < 4) (hn : n < 96)
    (hx : x ∈ [Fld.RCS_NCO_STEP, .RCS_STAT_FMAX, .RCS_STAT_STATE]) (v : Nat) : GapSettings opu d (e.fs x v n) := by
  have hreg : ∀ x ∈ [Fld.RCS_NCO_STEP, .RCS_STAT_FMAX, .RCS_STAT_STATE], SliceReg x.reg ∧ Apart x .RCS_CAP_SLOTS := by decide
  obtain ⟨hslice, hcap⟩ := hreg x hx
  obtain ⟨h1, h2, h3, h4, h5⟩ := h
  refine ⟨h1, h2, fun m => (fg_fs_apart _ _ _ _ hcap).trans (h3 m), ?_, ?_⟩
  · exact (rd_fs_sliceReg e hslice hn (by decide) (show 0x100 + opu * 0x10 < 0x100000 by omega)).trans h4
  · exact (rd_fs_sliceReg e hslice hn (by decide) (show 0x104 + opu * 0x10 < 0x100000 by omega)).trans h5

/-- What each update gives for its element, under what they all leave, and no later one undoes, holds after all of them. -/
theorem each_gives {α : Type} {I : Dev → Prop} {Q : α → Dev → Prop} {f : Dev → α → Dev} {l : List α} {d : Dev} (h : I d)
    (hinv : ∀ e, ∀ x ∈ l, I e → I (f e x)) (hgive : ∀ e, ∀ x ∈ l, I e → Q x (f e x))
    (hkeep : ∀ e, ∀ x ∈ l, ∀ y, I e → Q y e → Q y (f e x)) : I (d.each l f) ∧ ∀ x ∈ l, Q x (d.each l f) := by
  refine ⟨each_inv h hinv, ?_⟩
  induction l generalizing d with
  | nil => simp
  | cons x l ih =>
    intro y hy
    have hx : I (f d x) := hinv d x (by simp) h
    rcases List.mem_cons.mp hy with rfl | hy
    · refine (each_inv (P := fun e => I e ∧ Q y e) (l := l) ⟨hx, hgive d y (by simp) h⟩ fun e z hz he => ?_).2
      exact ⟨hinv e z (by simp [hz]) he.1, hkeep e z (by simp [hz]) y he.1 he.2⟩
    · exact ih hx (fun e z hz => hinv e z (by simp [hz])) (fun e z hz => hgive e z (by simp [hz]))
        (fun e z hz => hkeep e z (by simp [hz])) y hy

/-- A slice has latched RCS_CAP as it stands, and its data-stream counter is reset (R96, R101). -/
def CapLatched (d : Dev) (n : Nat) (e : Dev) : Prop := (e.slice n).cap = d.fg .RCS_CAP_SLOTS n ∧ (e.slice n).count = 0

theorem gapLatchSlice_settings {opu n : Nat} {d e : Dev} (h : GapSettings opu d e) (ho : opu < 4) (hn : n < 96) (newClass : Bool) (k : Nat) :
    GapSettings opu d (gapLatchSlice newClass k e n) ∧ (d.rcsPresent n = true → CapLatched d n (gapLatchSlice newClass k e n)) := by
  obtain ⟨hnext, hcap⟩ := gapLatchSlice_inv (P := GapSettings opu d) (fun x hx e v he => he.fs ho hn hx v)
    (fun e f he => ⟨he.1, he.2, he.3, he.4, he.5⟩) newClass k h
  refine ⟨hnext, fun hpresent => ?_⟩
  obtain ⟨e', he', hlatched, hcount⟩ := hcap ((h.present n).trans hpresent)
  exact ⟨hlatched.trans (he'.cap n), hcount⟩

theorem gapLatchSlice_slice_ne {n m : Nat} (h : n ≠ m) (newClass : Bool) (k : Nat) (d : Dev) :
    (gapLatchSlice newClass k d n).slice m = d.slice m :=
  (gapLatchSlice_inv (P := fun e => e.slice m = d.slice m) (fun _ _ _ _ he => he)
    (fun _ _ he => by rw [slice_onSlice, if_neg h, he]) newClass k rfl).1

/-- Every slice of an OPU has latched RCS_CAP, and the settings are as they were. -/
theorem gapLatchSlices {opu : Nat} {d : Dev} (ho : opu < 4) (hpresent : ∀ n ∈ slicesOf opu, d.rcsPresent n = true) (newClass : Bool)
    (k : Nat) : GapSettings opu d (d.each (slicesOf opu) (gapLatchSlice newClass k)) ∧
      ∀ n ∈ slicesOf opu, CapLatched d n (d.each (slicesOf opu) (gapLatchSlice newClass k)) := by
  have hone := fun e n (hn : n ∈ slicesOf opu) (he : GapSettings opu d e) =>
    gapLatchSlice_settings he ho (slicesOf_lt ho hn) newClass k
  refine each_gives ⟨fun _ => rfl, rfl, fun _ => rfl, rfl, rfl⟩ (fun e n hn he => (hone e n hn he).1)
    (fun e n hn he => (hone e n hn he).2 (hpresent n hn)) fun e n hn m he hm => ?_
  by_cases hnm : n = m
  · exact hnm ▸ (hone e n hn he).2 (hpresent n hn)
  · unfold CapLatched
    rwa [gapLatchSlice_slice_ne hnm]

theorem rcsPresent_of_opuReady {opu n : Nat} {d : Dev} (ho : opu < 4) (h : d.opuReady opu = true) (hn : n ∈ slicesOf opu) :
    d.rcsPresent n = true := by
  have hlt := slicesOf_lt ho hn
  have hdiv : n / 24 = opu := by
    simp only [slicesOf, List.mem_map, List.mem_range] at hn
    omega
  unfold Dev.opuReady at h
  unfold Dev.rcsPresent
  rw [hdiv, decide_eq_true hlt]
  exact (Bool.and_eq_true_iff.mp h).1

/-- What the slices of an OPU latch together at a jump gap (R101, R154). -/
structure GapLatched (opu : Nat) (d e : Dev) : Prop where
  fmt : (e.pickup opu).fmt = d.rd .RCS_FMT opu
  detCtl : (e.pickup opu).detCtl = d.rd .SDE_DET_CTL opu
  detLlr : (e.pickup opu).detLlr = d.rd .SDE_DET_LLR opu
  caps : ∀ n ∈ slicesOf opu, CapLatched d n e

theorem GapSettings.latch {opu : Nat} {d e : Dev} (h : GapSettings opu d e) (hcaps : ∀ n ∈ slicesOf opu, CapLatched d n e)
    (rev : Pickup → Nat) (eng : Engine) :
    GapLatched opu d { (e.onPickup opu fun p =>
      { fmt := d.rd .RCS_FMT opu, detCtl := e.rd .SDE_DET_CTL opu, detLlr := e.rd .SDE_DET_LLR opu, rev := rev p }) with eng := eng } := by
  have hpick : ∀ f : Pickup → Pickup, ({ (e.onPickup opu f) with eng := eng } : Dev).pickup opu = f (e.pickup opu) := fun f =>
    (pickup_onPickup e opu opu f).trans (if_pos rfl)
  exact ⟨by rw [hpick], by rw [hpick]; exact h.detCtl, by rw [hpick]; exact h.detLlr, hcaps⟩

theorem gapLatch_latched {opu : Nat} {d : Dev} (ho : opu < 4) (h : d.opuReady opu = true) : GapLatched opu d (gapLatch opu d) := by
  obtain ⟨hset, hcaps⟩ := gapLatchSlices ho (fun n hn => rcsPresent_of_opuReady ho h hn)
    (fmtClass (d.rd .RCS_FMT opu) != fmtClass (d.pickup opu).fmt) (fmtClass (d.rd .RCS_FMT opu))
  unfold gapLatch
  rw [if_neg (by simp [h])]
  exact hset.latch hcaps (fun p => (p.rev + 1) % 2 ^ 32) _

/-- The mode that the gap gives leaves what was latched. -/
theorem gapLatchMode_latched {opu : Nat} {d : Dev} (ho : opu < 4) (h : d.opuReady opu = true) :
    GapLatched opu d (gapLatchMode opu d) := by
  obtain ⟨hfmt, hctl, hllr, hcaps⟩ := gapLatch_latched ho h
  have hkept : readSide (gapLatchMode opu d) = readSide (gapLatch opu d) := readSide_modeAtGap _
  have hpick := pickup_of_readSide hkept opu
  refine ⟨hpick ▸ hfmt, hpick ▸ hctl, hpick ▸ hllr, fun n hn => ?_⟩
  unfold CapLatched
  rw [slice_of_readSide hkept]
  exact hcaps n hn

end Sys2Proof.Proofs
end

section
/-!
SUPPORT. A slice's trims, targets, equaliser sets, deskew drop and disable, and the band check of its OPU (03_read_channel_slices.md R75,
R90, R91, R92, R97, R99, R108, R338).
-/

namespace Sys2Proof.Proofs

open Sys2Proof Sys2Proof.Machine Sys2Proof.Laws

theorem fg_withError (d : Dev) (b : Bool) (x : Fld) (i : Nat) : ({ d with error := b } : Dev).fg x i = d.fg x i := rfl

theorem slice_withError (d : Dev) (b : Bool) (n : Nat) : ({ d with error := b } : Dev).slice n = d.slice n := rfl

/-! Trims (R75, R338). -/

/-- The trims of a slice act as RCS_AFE, RCS_TRIM and CAL_FTRIM stand. -/
structure TrimsApplied (rcs : Nat) (d e : Dev) : Prop where
  afe : (e.slice rcs).afe = d.rd .RCS_AFE rcs
  trim : (e.slice rcs).trim = d.rd .RCS_TRIM rcs
  ftrim : sparseGet 0 e.cal.ftrim rcs = signed 5 (d.fg .CAL_FTRIM_FT rcs)

theorem trimApply_applied {rcs : Nat} {d : Dev} (h : d.rcsPresent rcs = true) : TrimsApplied rcs d (trimApply rcs d) := by
  have hslice : ∀ (f : Slice → Slice) (c : Calib), ({ (d.onSlice rcs f) with cal := c } : Dev).slice rcs = f (d.slice rcs) :=
    fun f _ => slice_onSlice_self d rcs f
  unfold trimApply
  rw [if_neg (by simp [h])]
  exact ⟨by rw [hslice], by rw [hslice], sparseGet_set_self _ _ _ _⟩

/-! The equaliser's live sets (R91, R92). -/

/-- What a shadow coefficient gives its live one: its 10 bits as a signed number, at 18 fractional bits. -/
def liveOf (v : DWord) : Int := signed 10 v.toNat * 2 ^ 11

/-- A live coefficient just copied shows the 10 bits of its shadow. -/
theorem shown_liveOf (v : DWord) : BitVec.ofNat 32 (unsigned 10 (liveOf v / 2 ^ 11)) = v &&& 0x3FF#32 := by
  have hbits : unsigned 10 (liveOf v / 2 ^ 11) = v.toNat % 2 ^ 10 := by
    unfold liveOf
    rw [Int.mul_ediv_cancel _ (by norm_num)]
    unfold unsigned signed
    dsimp only
    split <;> omega
  apply BitVec.eq_of_toNat_eq
  rw [hbits, BitVec.toNat_ofNat, BitVec.toNat_and, show (0x3FF#32).toNat = 2 ^ 10 - 1 from rfl, Nat.and_two_pow_sub_one_eq_mod]
  omega

theorem coefAt_setCoef (s : Slice) {set set' k k' : Nat} (v : Int) (hk : k < 16) (hk' : k' < 16) :
    (s.setCoef set k v).coefAt set' k' = if set = set' ∧ k = k' then v else s.coefAt set' k' := by
  unfold Slice.setCoef Slice.coefAt
  by_cases h : set = set' ∧ k = k'
  · obtain ⟨rfl, rfl⟩ := h
    rw [sparseGet_set_self, if_pos ⟨rfl, rfl⟩]
  · rw [sparseGet_sparseSet_ne _ _ _ _ (by omega), if_neg h]

/-- Tap `k` of both live sets is as the shadow sets of `d` give it. -/
def TapCopied (rcs : Nat) (d : Dev) (k : Nat) (e : Dev) : Prop :=
  (e.slice rcs).coefAt 0 k = liveOf (d.rd .RCS_EQA_S rcs k) ∧ (e.slice rcs).coefAt 1 k = liveOf (d.rd .RCS_EQB_S rcs k)

/-- One tap of both shadow sets copied into the live sets. -/
def copyTap (rcs : Nat) (d : Dev) (k : Nat) : Dev :=
  d.onSlice rcs fun s => (s.setCoef 0 k (liveOf (d.rd .RCS_EQA_S rcs k))).setCoef 1 k (liveOf (d.rd .RCS_EQB_S rcs k))

theorem eqCopy_eq (rcs : Nat) (d : Dev) : eqCopy rcs d = (d.each (List.range 16) (copyTap rcs)).fs .RCS_EQ_CTL_PENDING 0 rcs := rfl

theorem copyTap_tap (rcs : Nat) (d : Dev) {k m : Nat} (hk : k < 16) (hm : m < 16) :
    (((copyTap rcs d k).slice rcs).coefAt 0 m = if k = m then liveOf (d.rd .RCS_EQA_S rcs k) else (d.slice rcs).coefAt 0 m) ∧
      (((copyTap rcs d k).slice rcs).coefAt 1 m = if k = m then liveOf (d.rd .RCS_EQB_S rcs k) else (d.slice rcs).coefAt 1 m) := by
  unfold copyTap
  rw [slice_onSlice_self]
  simp [coefAt_setCoef _ _ hk hm]

theorem copyTaps_regs (rcs : Nat) (d : Dev) : (d.each (List.range 16) (copyTap rcs)).regs = d.regs :=
  each_eq d Dev.regs (fun e _ => onSlice_regs e rcs _) _

theorem copyTaps_copied (rcs : Nat) (d : Dev) {k : Nat} (hk : k < 16) : TapCopied rcs d k (d.each (List.range 16) (copyTap rcs)) := by
  have hgive : ∀ e, ∀ m ∈ List.range 16, e.regs = d.regs → ∀ n < 16, (n = m ∨ TapCopied rcs d n e) →
      TapCopied rcs d n (copyTap rcs e m) := fun e m hm he n hn hor => by
    obtain ⟨ha, hb⟩ := copyTap_tap rcs e (List.mem_range.mp hm) hn
    have hrd : ∀ q, e.rd q rcs m = d.rd q rcs m := fun q => by rw [Dev.rd, Dev.rd, he]
    unfold TapCopied
    rw [ha, hb, hrd, hrd]
    by_cases hmn : m = n
    · subst hmn
      exact ⟨if_pos rfl, if_pos rfl⟩
    · rw [if_neg hmn, if_neg hmn]
      exact hor.resolve_left (Ne.symm hmn)
  refine (each_gives (f := copyTap rcs) (I := fun e => e.regs = d.regs) (Q := fun n e => n < 16 → TapCopied rcs d n e) rfl
    (fun e m _ he => he) (fun e m hm he hn => hgive e m hm he m hn (.inl rfl))
    (fun e m hm n he hn h16 => hgive e m hm he n h16 (.inr (hn h16)))).2 k (List.mem_range.mpr hk) hk

theorem eqCopy_pending (rcs : Nat) (d : Dev) : (eqCopy rcs d).fg .RCS_EQ_CTL_PENDING rcs = 0 := by
  rw [eqCopy_eq, fg_fs_of_lt _ _ (by decide) (by decide)]

theorem eqCopy_fg (rcs : Nat) (d : Dev) {x : Fld} (h : Apart .RCS_EQ_CTL_PENDING x) (i : Nat) : (eqCopy rcs d).fg x i = d.fg x i := by
  rw [eqCopy_eq, fg_fs_apart _ _ _ _ h, Dev.fg, Dev.fg, Dev.rd, Dev.rd, copyTaps_regs]

theorem eqCopy_shown (rcs : Nat) (d : Dev) {k : Nat} (hk : k < 16) :
    ((eqCopy rcs d).slice rcs).liveShown 0 k = d.rd .RCS_EQA_S rcs k &&& 0x3FF#32 ∧
      ((eqCopy rcs d).slice rcs).liveShown 1 k = d.rd .RCS_EQB_S rcs k &&& 0x3FF#32 := by
  obtain ⟨ha, hb⟩ := copyTaps_copied rcs d hk
  rw [eqCopy_eq, slice_fs]
  unfold Slice.liveShown
  rw [ha, hb]
  exact ⟨shown_liveOf _, shown_liveOf _⟩

theorem path_frame (d : Dev) (rcs : Nat) : (d.path rcs).frame = frameBits (fmtStrength (d.pickup (rcs / 24)).fmt).level := rfl

/-- Whether a slice captures is a matter of its own state and of the format it has latched. -/
theorem capturing_of_readSide {d e : Dev} (h : readSide e = readSide d) (rcs : Nat) : e.capturing rcs = d.capturing rcs := by
  unfold Dev.capturing Path.inLeaf
  rw [path_frame, path_frame, slice_of_readSide h, pickup_of_readSide h]

/-- COMMIT stores RCS_EQ_CTL and makes the commit (R91). -/
theorem eqCommitWrite_reg {rcs : Nat} {d : Dev} (hpath : d.pathOf .RCS_EQ_CTL rcs 0 = .reg .RCS_EQ_CTL rcs 0) :
    ∃ v, eqCommitWrite rcs d = { eqCommit rcs (d.wr .RCS_EQ_CTL v rcs) with error := false } := by
  unfold eqCommitWrite
  rw [regWrite_reg _ hpath rfl, rcsWrite_eqCtl, fieldOf_withField _ (by decide) (by decide), beq_self_eq_true, Laws.cond_true]
  exact ⟨_, rfl⟩

theorem eqCommit_idle {rcs : Nat} {d : Dev} (h : d.capturing rcs = false) : eqCommit rcs d = eqCopy rcs d :=
  if_neg (by simp [h])

theorem eqCommit_capturing {rcs : Nat} {d : Dev} (h : d.capturing rcs = true) : eqCommit rcs d = d.fs .RCS_EQ_CTL_PENDING 1 rcs :=
  if_pos h

/-- A one-bit field that is not 1 is 0. -/
theorem fg_eq_zero {d : Dev} {x : Fld} {i : Nat} (hx : x.width = 1) (h : ¬ d.is x i = true) : d.fg x i = 0 := by
  have hlt : d.fg x i < 2 ^ x.width := bitsOf_lt _ _ _
  rw [hx] at hlt
  unfold Dev.is at h
  rw [beq_iff_eq] at h
  omega

theorem eqCommitApply_spec {rcs : Nat} {d : Dev} (h : d.rcsPresent rcs = true) :
    ((eqCommitApply rcs d).slice rcs).tgt = d.fg .RCS_CTL_TGT_SEL rcs ∧ (eqCommitApply rcs d).fg .RCS_EQ_CTL_PENDING rcs = 0 := by
  unfold eqCommitApply takeTarget
  rw [if_neg (by simp [h]), slice_onSlice_self, onSlice_fg]
  refine ⟨cond_eq (·.fg .RCS_CTL_TGT_SEL rcs) fun e => eqCopy_fg rcs e (by decide) rcs, ?_⟩
  by_cases hpending : d.is .RCS_EQ_CTL_PENDING rcs = true
  · rw [hpending, Laws.cond_true, eqCopy_pending]
  · rw [Bool.not_eq_true _ |>.mp hpending, Laws.cond_false, fg_eq_zero rfl hpending]

/-! Deskew drop (R99). -/

theorem deskewDrop_ovf {rcs n : Nat} {wave : List Int} {d : Dev} (hruns : d.sliceRuns rcs = true) (href : d.onReference rcs = false)
    (hfull : 4096 < ((d.beforeDrop rcs wave).slice rcs).buf.length) (hbehind : (d.beforeDrop rcs wave).behind (rcs / 24) = some n) :
    (deskewDrop rcs wave d).fg .RCS_STAT_DESKEW_OVF n = 1 := by
  have hleave : ∀ b e, e.fg .RCS_STAT_DESKEW_OVF n = 1 → (deskewLeave b e).fg .RCS_STAT_DESKEW_OVF n = 1 := fun b e he => by
    unfold deskewLeave
    rw [onSlice_fg, fg_fs_one _ _ _ (by decide), he, ite_self]
  have hdropped : (deskewLeave n (d.beforeDrop rcs wave)).fg .RCS_STAT_DESKEW_OVF n = 1 := by
    unfold deskewLeave
    rw [onSlice_fg, fg_fs_of_lt _ _ (by decide) (by decide)]
  unfold deskewDrop
  rw [sliceRun_eq wave hruns href, deskewFit, if_neg (by omega), hbehind]
  exact deskewFit_inv (P := fun e => e.fg .RCS_STAT_DESKEW_OVF n = 1) (fun _ _ he => (deskewRelease_fg _ _ _ _).trans he) hleave _ _
    ((deskewRelease_fg _ _ _ _).trans hdropped)

/-! EN cleared (R108). -/

/-- The bits that a write stores are the written ones. -/
theorem bitsOf_after {r : Reg} {lo w : Nat} (old v : DWord) (hrw : ∀ k < w, (BitVec.ofNat 32 r.rw).getLsbD (lo + k) = true)
    (hw1c : r.w1c = 0) : bitsOf (r.after old v).toNat lo w = bitsOf v.toNat lo w := by
  apply Nat.eq_of_testBit_eq
  intro k
  rw [testBit_bitsOf, testBit_bitsOf, BitVec.testBit_toNat, BitVec.testBit_toNat]
  by_cases hk : k < w
  · have hlt : lo + k < 32 := BitVec.lt_of_getLsbD (hrw k hk)
    simp only [Reg.after, hw1c, BitVec.getLsbD_and, BitVec.getLsbD_or, BitVec.getLsbD_not, hrw k hk, hlt]
    simp
  · simp [hk]

/-- Another field of the register written holds what it held. -/
theorem fg_fs_beside (d : Dev) {x y : Fld} (v i : Nat)
    (h : y.reg = x.reg ∧ x.lo + x.width ≤ 32 ∧ (y.lo + y.width ≤ x.lo ∨ x.lo + x.width ≤ y.lo)) : (d.fs x v i).fg y i = d.fg y i :=
  fg_fs_same_reg d x y v i 0 h.1 h.2.1 h.2.2

theorem fg_wr (d : Dev) {x : Fld} {r : Reg} (v : DWord) (i : Nat) (hx : x.reg = r) :
    (d.wr r v i).fg x i = bitsOf v.toNat x.lo x.width := by
  subst hx
  rw [Dev.fg, rd_wr]

/-- What the write that clears EN has made of the unit before it acts on it. -/
structure EnCleared (rcs : Nat) (d e : Dev) : Prop where
  en : e.fg .RCS_CTL_EN rcs = 0
  state : e.fg .RCS_STAT_STATE rcs = d.fg .RCS_STAT_STATE rcs
  begun : (e.slice rcs).begun = (d.slice rcs).begun
  capt : (e.slice rcs).capt = (d.slice rcs).capt

/-- SLICE_DISABLE of an enabled slice clears EN and stops the slice (R108). -/
theorem sliceDisableWrite_reg {rcs : Nat} {d : Dev} (hpath : d.pathOf .RCS_CTL rcs 0 = .reg .RCS_CTL rcs 0)
    (hen : d.is .RCS_CTL_EN rcs = true) :
    ∃ e, EnCleared rcs d e ∧ sliceDisableWrite rcs d = { sliceDisabled rcs e with error := false } := by
  have hclear : EnCleared rcs d (plainWrite .RCS_CTL rcs 0 (withField .RCS_CTL_EN 0 (d.rd .RCS_CTL rcs)) d) := by
    refine ⟨?_, ?_, rfl, rfl⟩
    · unfold plainWrite
      rw [fg_wr (x := .RCS_CTL_EN) (r := .RCS_CTL) _ _ _ rfl]
      exact (bitsOf_after _ _ (by decide) rfl).trans (fieldOf_withField _ (by decide) (by decide))
    · unfold plainWrite Dev.fg
      rw [rd_wr_ne _ _ _ _ _ _ _ _ (sliceKey_ne (by decide) (by decide) (by decide))]
  have htarget : ∀ e, EnCleared rcs d e → EnCleared rcs d (takeTarget rcs e) := fun e he => by
    obtain ⟨h1, h2, h3, h4⟩ := he
    unfold takeTarget
    exact ⟨h1, h2, by rw [slice_onSlice_self]; exact h3, by rw [slice_onSlice_self]; exact h4⟩
  have hnext := fun b => cond_inv (b := b) hclear htarget
  unfold sliceDisableWrite
  rw [regWrite_reg _ hpath rfl, rcsWrite_ctl]
  unfold rcsCtlWrite
  dsimp only
  rw [if_neg (by rw [Dev.is, (hnext _).en]; decide), hen, Laws.cond_true]
  exact ⟨_, hnext _, rfl⟩

theorem sliceDisabled_idle {rcs : Nat} {d e : Dev} (h : EnCleared rcs d e) (hidle : (d.slice rcs).begun = [] ∧ (d.slice rcs).capt = none) :
    (sliceDisabled rcs e).fg .RCS_CTL_EN rcs = 0 ∧
      (sliceDisabled rcs e).fg .RCS_STAT_STATE rcs = if d.fg .RCS_STAT_STATE rcs = 0 then 0 else 1 := by
  obtain ⟨hen, hstate, hbegun, hcapt⟩ := h
  obtain ⟨hnone, hfree⟩ := hidle
  unfold sliceDisabled
  dsimp only
  rw [if_neg (by simp [hbegun, hcapt, hnone, hfree])]
  refine ⟨(cond_eq (·.fg .RCS_CTL_EN rcs) fun e => fg_fs_apart e _ _ _ (by decide)).trans hen, ?_⟩
  by_cases hoff : d.fg .RCS_STAT_STATE rcs = 0
  · rw [hstate, hoff, bne_self_eq_false, Laws.cond_false, hstate, hoff, if_pos rfl]
  · rw [hstate, bne_iff_ne.mpr hoff, Laws.cond_true, if_neg hoff]
    exact fg_fs_of_lt _ _ (by decide) (by decide)

theorem sliceDisabled_capturing {rcs : Nat} {d e : Dev} (h : EnCleared rcs d e) (hbegun : (d.slice rcs).begun ≠ []) :
    (sliceDisabled rcs e).fg .RCS_CTL_EN rcs = 0 ∧ ((sliceDisabled rcs e).slice rcs).stopping = true ∧
      (sliceDisabled rcs e).fg .RCS_STAT_STATE rcs = d.fg .RCS_STAT_STATE rcs := by
  have hnot : (e.slice rcs).begun.isEmpty = false := by rw [h.begun]; simpa using hbegun
  unfold sliceDisabled
  dsimp only
  rw [if_pos (by simp [hnot])]
  exact ⟨h.en, by rw [slice_onSlice_self], h.state⟩

/-! The band check (R97). -/

/-- The bits of a mask built from a list: one for each element that is marked, at its place from `n` on. -/
theorem foldl_mask {α : Type} (p : α → Prop) [DecidablePred p] (l : List α) {n a : Nat} (ha : a < 2 ^ n) :
    let m := (l.zipIdx n).foldl (fun a e => if p e.1 then a + 2 ^ e.2 else a) a
    m < 2 ^ (n + l.length) ∧ ∀ k, m.testBit k = if k < n then a.testBit k else (l[k - n]?).any fun x => decide (p x) := by
  induction l generalizing n a with
  | nil =>
    refine ⟨by simpa using ha, fun k => ?_⟩
    split
    · rfl
    · next hk => simpa using Nat.testBit_lt_two_pow (lt_of_lt_of_le ha (Nat.pow_le_pow_right (by norm_num) (by omega)))
  | cons x l ih =>
    have hbit : ∀ k, (if p x then a + 2 ^ n else a).testBit k = if k < n then a.testBit k else decide (k = n) && decide (p x) := by
      intro k
      have hhigh : ¬ k < n → a.testBit k = false := fun hk =>
        Nat.testBit_lt_two_pow (lt_of_lt_of_le ha (Nat.pow_le_pow_right (by norm_num) (by omega)))
      by_cases hp : p x
      · have hor : a + 2 ^ n = 2 ^ n ||| a := by
          have := Nat.two_pow_add_eq_or_of_lt ha 1
          rw [Nat.mul_one] at this
          omega
        rw [if_pos hp, hor, Nat.testBit_or, Nat.testBit_two_pow]
        by_cases hk : k < n
        · simp [hk]
          omega
        · simp [hk, hhigh hk, hp, eq_comm]
      · rw [if_neg hp]
        by_cases hk : k < n
        · simp [hk]
        · simp [hk, hhigh hk, hp]
    have hlt : (if p x then a + 2 ^ n else a) < 2 ^ (n + 1) := by
      rw [Nat.pow_succ]
      split <;> omega
    obtain ⟨hbound, htest⟩ := ih hlt
    refine ⟨by simpa [Nat.add_assoc, Nat.add_comm 1] using hbound, fun k => ?_⟩
    refine (htest k).trans ?_
    rw [hbit]
    rcases Nat.lt_trichotomy k n with hk | hk | hk
    · simp [hk, Nat.lt_succ_of_lt hk]
    · simp [hk]
    · have hsub : k - n = (k - (n + 1)) + 1 := by omega
      simp [Nat.not_lt.mpr hk.le, show ¬ k < n + 1 by omega, hsub]

/-- The mask of the spots that the band check finds on another track, side or layer (R97). -/
def mismatchMask (opu : Nat) (d : Dev) : Nat :=
  (((List.range 24).map (spotCheck d opu)).zipIdx).foldl (fun a e => if e.1 = SpotCheck.mismatch then a + 2 ^ e.2 else a) 0

theorem mismatchMask_spec (opu : Nat) (d : Dev) :
    mismatchMask opu d < 2 ^ 24 ∧ ∀ x < 24, (mismatchMask opu d).testBit x = decide (spotCheck d opu x = .mismatch) := by
  obtain ⟨hlt, hbit⟩ := foldl_mask (· = SpotCheck.mismatch) ((List.range 24).map (spotCheck d opu)) (n := 0) (a := 0) (by decide)
  refine ⟨hlt.trans_eq (by simp), fun x hx => (hbit x).trans ?_⟩
  simp [List.getElem?_map, List.getElem?_range hx]

/-- The number of spots of which the band check can tell nothing. -/
def unknownCount (opu : Nat) (d : Dev) : Nat := (((List.range 24).map (spotCheck d opu)).filter (· = .unknown)).length

theorem unknownCount_lt (opu : Nat) (d : Dev) : unknownCount opu d < 2 ^ 5 := by
  have hle : unknownCount opu d ≤ 24 := (List.length_filter_le _ _).trans (by simp)
  omega

/-- The registers of an OPU's band check lie apart from every register of another window. -/
theorem fg_fs_bandRes (d : Dev) {x : Fld} {v opu : Nat} (hx : x.reg = .RCS_BAND_RES) (ho : opu < 4) :
    (d.fs x v opu).fg .CLE_TCNT = d.fg .CLE_TCNT := by
  refine fg_fs_ne _ _ _ _ _ _ _ _ ?_
  rw [hx]
  exact key_ne_of_block _ _ _ _ _ _ (by decide) (show 0x18008 + opu * 0x100 + 0 * 4 < 0x100000 by omega) (by decide)

/-- The band check posted: the mask, the count of unknown spots, whether it passed, and the wedge. -/
def bandPost (opu mask unknown ok wedge : Nat) (d : Dev) : Dev :=
  (((d.fs .RCS_BAND_RES_MISMATCH mask opu).fs .RCS_BAND_RES_UNKNOWN unknown opu).fs .RCS_BAND_RES_OK ok opu).fs .RCS_BAND_RES_WEDGE_LO
    wedge opu

theorem bandPost_spec {opu mask unknown : Nat} (ok wedge : Nat) (d : Dev) (ho : opu < 4) (hmask : mask < 2 ^ 24) (hunknown : unknown < 2 ^ 5) :
    (bandPost opu mask unknown ok wedge d).fg .RCS_BAND_RES_WEDGE_LO opu = wedge % 2 ^ Fld.RCS_BAND_RES_WEDGE_LO.width ∧
      (bandPost opu mask unknown ok wedge d).fg .RCS_BAND_RES_MISMATCH opu = mask ∧
      (bandPost opu mask unknown ok wedge d).fg .RCS_BAND_RES_UNKNOWN opu = unknown ∧
      (bandPost opu mask unknown ok wedge d).fg .CLE_TCNT = d.fg .CLE_TCNT := by
  unfold bandPost
  refine ⟨fg_fs _ _ _ _ _ (by decide), ?_, ?_, ?_⟩
  · rw [fg_fs_beside _ _ _ (by decide), fg_fs_beside _ _ _ (by decide),
      fg_fs_beside _ _ _ (by decide), fg_fs_of_lt _ _ (by decide) hmask]
  · rw [fg_fs_beside _ _ _ (by decide), fg_fs_beside _ _ _ (by decide),
      fg_fs_of_lt _ _ (by decide) hunknown]
  · rw [fg_fs_bandRes _ rfl ho, fg_fs_bandRes _ rfl ho, fg_fs_bandRes _ rfl ho, fg_fs_bandRes _ rfl ho]

theorem bandCheck_eq {opu : Nat} (wedge : Nat) {d : Dev} (h : d.opuReady opu = true) :
    ∃ ok, bandCheck opu wedge d =
      let e := bandPost opu (mismatchMask opu d) (unknownCount opu d) ok wedge d
      { e with eng := { e.eng with
        wedge := sparseSet 0 e.eng.wedge opu (wedge % 512 + (e.fg .CLE_TCNT % 65536) <<< 16) } } := by
  unfold bandCheck
  rw [if_neg (by simp [h])]
  exact ⟨_, rfl⟩

theorem bandCheck_spec {opu : Nat} (wedge : Nat) {d : Dev} (ho : opu < 4) (h : d.opuReady opu = true) :
    (bandCheck opu wedge d).fg .RCS_BAND_RES_WEDGE_LO opu = wedge % 2 ^ Fld.RCS_BAND_RES_WEDGE_LO.width ∧
      sparseGet 0 (bandCheck opu wedge d).eng.wedge opu = wedge % 512 + (d.fg .CLE_TCNT % 65536) <<< 16 ∧
      (bandCheck opu wedge d).fg .RCS_BAND_RES_MISMATCH opu = mismatchMask opu d ∧
      (bandCheck opu wedge d).fg .RCS_BAND_RES_UNKNOWN opu = unknownCount opu d := by
  have heng : ∀ (e : Dev) (g : Engine) (x : Fld), ({ e with eng := g } : Dev).fg x opu = e.fg x opu := fun _ _ _ => rfl
  obtain ⟨ok, hnext⟩ := bandCheck_eq wedge h
  obtain ⟨hwedge, hmask, hunknown, htime⟩ := bandPost_spec ok wedge d ho (mismatchMask_spec opu d).1 (unknownCount_lt opu d)
  have hport : sparseGet 0 (bandCheck opu wedge d).eng.wedge opu = wedge % 512 + (d.fg .CLE_TCNT % 65536) <<< 16 := by
    rw [hnext]
    dsimp only
    rw [sparseGet_set_self, htime]
  refine ⟨?_, hport, ?_, ?_⟩ <;> rw [hnext]
  · exact (heng _ _ _).trans hwedge
  · exact (heng _ _ _).trans hmask
  · exact (heng _ _ _).trans hunknown

/-! The obligation. -/

/-- Settles O4: each clause by what its command does to the slice's state and registers. -/
theorem sliceSettings : Obligations.SliceSettings := by
  unfold Obligations.SliceSettings
  refine ⟨fun opu s h => ?_, fun rcs val s hpath hnow => ?_, fun rcs val s hpath hlater => ?_, fun rcs s h => ?_,
    fun rcs val s hpath hok => ?_, fun rcs val s hpath hbad => ?_, fun rcs s hpath hidle => ?_, fun rcs s hpath hcapt => ?_,
    fun rcs s h => ?_, fun rcs wave n s hruns href hfull hbehind => ?_, fun rcs s hpath hen hidle => ?_,
    fun rcs s hpath hen hbegun => ?_, fun opu wedge s h => ?_⟩
  · obtain ⟨hfmt, hctl, hllr, hcaps⟩ := gapLatchMode_latched opu.isLt h
    exact ⟨_, rfl, rfl, rfl, hfmt, hctl, hllr, hcaps⟩
  · show State.onDev _ _ = _
    rw [onDev_next, regWrite_reg _ hpath rfl, rcsWrite_ncoPreset, ncoPreset, if_pos hnow, presetNow_limited]
  · show State.onDev _ _ = _
    rw [onDev_next, regWrite_reg _ hpath rfl, rcsWrite_ncoPreset, ncoPreset, if_neg (Bool.eq_false_iff.mp hlater)]
  · obtain ⟨hafe, htrim, hftrim⟩ := trimApply_applied h
    exact ⟨_, rfl, rfl, rfl, hafe, htrim, hftrim⟩
  · show State.onDev _ _ = _
    rw [onDev_next, regWrite_reg _ hpath rfl, rcsWrite_tgt, tgtWrite, if_pos hok]
    rfl
  · show State.onDev _ _ = _
    rw [onDev_next, regWrite_reg _ hpath rfl, rcsWrite_tgt, tgtWrite, if_neg (by simp [hbad])]
  · obtain ⟨v, hnext⟩ := eqCommitWrite_reg hpath
    rw [eqCommit_idle ((capturing_of_readSide (readSide_wr _ _ _ _ _) rcs).trans hidle)] at hnext
    have hshadow : ∀ q ∈ [Reg.RCS_EQA_S, .RCS_EQB_S], ∀ k : Fin 16, (s.dev.wr .RCS_EQ_CTL v rcs).rd q rcs k = s.dev.rd q rcs k := by
      have hplace : ∀ q ∈ [Reg.RCS_EQA_S, .RCS_EQB_S], ∀ k : Fin 16,
          SliceReg q k ∧ Reg.RCS_EQ_CTL.off + 0 * Reg.RCS_EQ_CTL.s2 ≠ q.off + k * q.s2 := by decide
      exact fun q hq k => rd_wr_ne _ _ _ _ _ _ _ _ (sliceKey_ne (by decide) (hplace q hq k).1 (hplace q hq k).2)
    refine ⟨_, rfl, rfl, rfl, ?_⟩
    dsimp only
    rw [hnext]
    rw [fg_withError, slice_withError]
    refine ⟨eqCopy_pending _ _, fun k => ?_⟩
    rw [← hshadow .RCS_EQA_S (by simp) k, ← hshadow .RCS_EQB_S (by simp) k]
    exact eqCopy_shown rcs _ k.isLt
  · obtain ⟨v, hnext⟩ := eqCommitWrite_reg hpath
    rw [eqCommit_capturing ((capturing_of_readSide (readSide_wr _ _ _ _ _) rcs).trans hcapt)] at hnext
    refine ⟨_, rfl, rfl, rfl, ?_⟩
    dsimp only
    rw [hnext, fg_withError, slice_withError]
    exact ⟨fg_fs_of_lt _ _ (by decide) (by decide), rfl⟩
  · obtain ⟨htgt, hpending⟩ := eqCommitApply_spec h
    exact ⟨_, rfl, rfl, rfl, htgt, hpending⟩
  · exact ⟨_, rfl, rfl, rfl, deskewDrop_ovf hruns href hfull hbehind⟩
  · obtain ⟨e, hclear, hnext⟩ := sliceDisableWrite_reg hpath hen
    refine ⟨_, rfl, rfl, rfl, ?_⟩
    dsimp only
    rw [hnext, fg_withError, fg_withError]
    exact sliceDisabled_idle hclear hidle
  · obtain ⟨e, hclear, hnext⟩ := sliceDisableWrite_reg hpath hen
    refine ⟨_, rfl, rfl, rfl, ?_⟩
    dsimp only
    rw [hnext, fg_withError, slice_withError, fg_withError]
    exact sliceDisabled_capturing hclear hbegun
  · obtain ⟨hwedge, heng, hmask, hunknown⟩ := bandCheck_spec wedge opu.isLt h
    refine ⟨_, rfl, rfl, rfl, hwedge, heng, fun x => ?_, hunknown⟩
    exact (congrArg (·.testBit x) hmask).trans ((mismatchMask_spec opu s.dev).2 x x.isLt)

end Sys2Proof.Proofs
end

section
/-!
SUPPORT. A slice that is not to stop, over what the buffer does for its readers and writers (11_buffer_dram.md, 12_fabric_cache.md): even
where an uncorrectable word freezes the unit, its slices keep what they hold or lose it all (R27, R382).
-/

namespace Sys2Proof.Proofs

open Sys2Proof Sys2Proof.Machine Sys2Proof.Laws

/-- Slice `n` is not to stop at the end of its leaf (R108). -/
structure Unstopped (n : Nat) (d : Dev) : Prop where
  stopping : (d.slice n).stopping = false

section
variable {n : Nat} {d : Dev}

theorem Unstopped.of_slices {e : Dev} (he : e.slices = d.slices) (h : Unstopped n d) : Unstopped n e :=
  ⟨by rw [Dev.slice, he]; exact h.stopping⟩

theorem Unstopped.of_readSide {e : Dev} (he : readSide e = readSide d) (h : Unstopped n d) : Unstopped n e :=
  h.of_slices (congrArg Prod.fst he)

theorem Unstopped.fs {x : Fld} {v i j : Nat} (h : Unstopped n d) : Unstopped n (d.fs x v i j) := ⟨h.stopping⟩
theorem Unstopped.wr {r : Reg} {v : DWord} {i j : Nat} (h : Unstopped n d) : Unstopped n (d.wr r v i j) := ⟨h.stopping⟩
theorem Unstopped.bump {r : Reg} {i m : Nat} (h : Unstopped n d) : Unstopped n (d.bump r i m) := ⟨h.stopping⟩
theorem Unstopped.drew (h : Unstopped n d) : Unstopped n d.drew := ⟨h.stopping⟩
theorem Unstopped.onDrc {f : Drc → Drc} (h : Unstopped n d) : Unstopped n (d.onDrc f) := ⟨h.stopping⟩
theorem Unstopped.onFbc {f : Fbc → Fbc} (h : Unstopped n d) : Unstopped n (d.onFbc f) := ⟨h.stopping⟩
theorem Unstopped.onSde {f : Sde → Sde} (h : Unstopped n d) : Unstopped n (d.onSde f) := ⟨h.stopping⟩
theorem Unstopped.onCtx {i : Nat} {f : Context → Context} (h : Unstopped n d) : Unstopped n (d.onCtx i f) := ⟨h.stopping⟩
theorem Unstopped.setWay {s w : Nat} {l : CacheLine} (h : Unstopped n d) : Unstopped n (d.setWay s w l) := ⟨h.stopping⟩
theorem Unstopped.storeWord {w x c : Nat} (h : Unstopped n d) : Unstopped n (d.storeWord w x c) := ⟨h.stopping⟩
theorem Unstopped.storeGood {w x : Nat} (h : Unstopped n d) : Unstopped n (d.storeGood w x) := ⟨h.stopping⟩
theorem Unstopped.withError {b : Bool} (h : Unstopped n d) : Unstopped n { d with error := b } := ⟨h.stopping⟩
theorem Unstopped.withFbc {c : Fbc} (h : Unstopped n d) : Unstopped n { d with fbc := c } := ⟨h.stopping⟩
theorem Unstopped.withPickups {p : Sparse Pickup} (h : Unstopped n d) : Unstopped n { d with pickups := p } := ⟨h.stopping⟩
theorem Unstopped.withStages {o : Sparse OpuStage} {l : List StalledAccess} (h : Unstopped n d) :
    Unstopped n { d with opuStage := o, stalled := l } := ⟨h.stopping⟩

theorem Unstopped.cond {b : Bool} {f : Dev → Dev} (h : Unstopped n d) (hf : ∀ e, Unstopped n e → Unstopped n (f e)) :
    Unstopped n (d.cond b f) := cond_inv h hf

theorem Unstopped.each {α : Type} {f : Dev → α → Dev} {l : List α} (h : Unstopped n d)
    (hf : ∀ e x, Unstopped n e → Unstopped n (f e x)) : Unstopped n (d.each l f) := each_inv h fun e x _ he => hf e x he

/-! An island that goes off, and FROZEN. -/

/-- A slice whose island has gone off has lost its state, and with it what was to stop it. -/
theorem Unstopped.sliceLost (h : Unstopped n d) (m : Nat) : Unstopped n { d with slices := sparseSet {} d.slices m {} } := by
  refine ⟨?_⟩
  have hget : ({ d with slices := sparseSet {} d.slices m {} } : Dev).slice n = if m = n then {} else d.slice n :=
    sparseGet_set ({} : Slice) d.slices m n {}
  rw [hget]
  split
  · rfl
  · exact h.stopping

theorem Unstopped.sliceRegsReset (h : Unstopped n d) (opu : Nat) : Unstopped n (sliceRegsReset opu d) := by
  refine h.each fun e r he => ?_
  split
  · exact he.each fun e m he => he.each fun e j he => he.wr
  · exact he.wr

theorem Unstopped.sldHold (h : Unstopped n d) (opu : Nat) (frost : Bool) (pos : Int) : Unstopped n (sldHold opu frost pos d) :=
  h.of_readSide (readSide_sldHold _ _ _ _)

theorem Unstopped.opuOff (h : Unstopped n d) (hm : InMode 7 d) {opu : Nat} (ho : opu < 4) (frost : Bool) :
    Unstopped n (opuOff opu frost d) := by
  have hopen : InMode 7 (Machine.servoOpen opu (Machine.lanesStop true opu d)) := (hm.lanesStop ho).servoOpen ho
  unfold Machine.opuOff
  split
  · exact h
  · rw [calIslandOff_frozen hopen]
    have hstopped : Unstopped n (Machine.servoOpen opu (Machine.lanesStop true opu d)) :=
      h.of_readSide (by rw [readSide_servoOpen, readSide_lanesStop])
    refine Unstopped.fs (Unstopped.withStages (Unstopped.fs (Unstopped.fs (Unstopped.of_slices (onWsg_slices _ _ _) ?_))))
    exact Unstopped.sliceRegsReset (Unstopped.withPickups ((hstopped.sldHold _ _ _).each fun e m he => he.sliceLost m)) _

theorem Unstopped.frozenStop (h : Unstopped n d) (hm : InMode 7 d) : Unstopped n (frozenStop d) := by
  unfold Machine.frozenStop
  refine (each_inv (P := fun e => Unstopped n e ∧ InMode 7 e) ?_ fun e o ho he => ?_).1
  · refine each_inv (P := fun e => Unstopped n e ∧ InMode 7 e) ⟨h.of_readSide (readSide_spnStop d), hm.spnStop⟩ fun e o ho he => ?_
    exact ⟨he.1.sldHold _ _ _, he.2.sldHold (opu_lt_four ho)⟩
  · have hidle : Unstopped n (e.each (slicesOf o) _) ∧ InMode 7 (e.each (slicesOf o) _) :=
      each_inv (P := fun e => Unstopped n e ∧ InMode 7 e)
        (f := fun d n => d.fs .RCS_STAT_STATE (if d.fg .RCS_STAT_STATE n = 0 then 0 else sliceIdle) n) he
        fun e m hmem he => ⟨he.1.fs, he.2.fs (hi := slicesOf_lt (opu_lt_four ho) hmem)⟩
    exact ⟨hidle.1.opuOff hidle.2 (opu_lt_four ho) false, hidle.2.opuOff_frozen (opu_lt_four ho)⟩

theorem Unstopped.frozenEntry (h : Unstopped n d) (detail : Nat) : Unstopped n (frozenEntry detail d) := by
  unfold Machine.frozenEntry
  split
  · exact h
  · have hmode : InMode 7 ((d.setMode 7).onFw fun w => { w with frozen := detail }) :=
      (inMode_setMode (by decide)).of_regs (onFw_regs _ _)
    have hstopped : Unstopped n ((d.setMode 7).onFw fun w => { w with frozen := detail }) := ⟨h.stopping⟩
    refine Unstopped.of_readSide (readSide_event _ _) (Unstopped.each (Unstopped.frozenStop ?_ ?_) fun e c he => ?_)
    · exact hstopped.each fun e o he => he.of_readSide (readSide_lanesStop _ _ _)
    · exact hmode.each fun e o ho he => he.lanesStop (opu_lt_four ho)
    · exact he.of_readSide (readSide_endCmd _ _ _ _ _ _)

/-! The DRAM controller. -/

theorem Unstopped.drcFreeze (h : Unstopped n d) (src req w x chk errors : Nat) : Unstopped n (drcFreeze src req w x chk errors d) := by
  unfold Machine.drcFreeze
  refine Unstopped.frozenEntry (Unstopped.withError (Unstopped.fs (Unstopped.fs (Unstopped.onDrc (Unstopped.fs
    (Unstopped.withFbc (Unstopped.each ?_ fun e k he => he.fs))))))) 1
  exact h.fs.fs.fs.fs.fs.fs.fs.fs.fs.fs.fs.fs.fs

theorem Unstopped.drcWord (h : Unstopped n d) (src req w flip : Nat) : Unstopped n (drcWord src req w flip d).2 := by
  unfold Machine.drcWord
  dsimp only
  split
  · exact h.storeWord
  · exact h.storeWord
  · exact h.storeWord
  · exact h.storeGood.bump.fs.fs.fs.fs.fs.fs.fs

theorem Unstopped.drcLineWords (h : Unstopped n d) (src req : Nat) (flips ws : List Nat) (acc : Bytes) :
    Unstopped n (drcLineWords src req flips ws acc d).2 := by
  induction ws generalizing acc d with
  | nil => exact h
  | cons w ws ih =>
    unfold Machine.drcLineWords
    dsimp only
    split
    · exact ih (h.drcWord _ _ _ _) _
    · exact h.drcWord _ _ _ _

theorem Unstopped.drcReadLine (h : Unstopped n d) (src req line : Nat) (flips : List Nat) :
    Unstopped n (drcReadLine src req line flips d).2 := by
  have hline : Unstopped n (drcLine src req line flips d).2 := h.drcLineWords _ _ _ _ _
  unfold Machine.drcReadLine
  generalize drcLine src req line flips d = r at hline ⊢
  dsimp only
  split
  · exact hline
  · dsimp only
    exact hline.drcFreeze _ _ _ _ _ _

theorem Unstopped.drcWriteWord (h : Unstopped n d) (req w ofs : Nat) (b : Bytes) : Unstopped n (drcWriteWord req w ofs b d) := by
  have hword : Unstopped n (Machine.drcWord 1 req w 0 (d.bump .DRC_CNT_RMW)).2 := (h.bump).drcWord _ _ _ _
  unfold Machine.drcWriteWord
  split
  · exact h
  · split
    · exact h.storeGood
    · dsimp only
      split
      · exact hword.storeGood
      · exact hword.drcFreeze _ _ _ _ _ _

theorem Unstopped.drcWriteBytes (h : Unstopped n d) (k req a : Nat) (b : Bytes) : Unstopped n (drcWriteBytes k req a b d) := by
  induction k generalizing a b d with
  | zero => exact h
  | succ k ih =>
    unfold Machine.drcWriteBytes
    split
    · exact h
    · exact ih (h.drcWriteWord _ _ _ _) _ _

theorem Unstopped.activate (h : Unstopped n d) (key row : Nat) : Unstopped n (activate key row d) := by
  unfold Machine.activate
  split
  · exact h
  · exact h.onDrc

/-- A rank woken, a row opened and a check line used, before an access (R364, R368, R377). -/
theorem Unstopped.openFor (h : Unstopped n d) (l : Location) : Unstopped n (useCheck l (openFor l d)) := by
  unfold useCheck Machine.openFor
  refine Unstopped.onDrc ?_
  split
  · exact h
  · exact (h.onDrc).activate _ _

theorem Unstopped.drcIssue (h : Unstopped n d) (r : DrcReq) : Unstopped n (drcIssue r d) := by
  unfold Machine.drcIssue
  dsimp only
  split
  · exact Unstopped.drcWriteBytes ((h.openFor _).onDrc) _ _ _ _
  · exact (h.openFor _).onDrc

theorem Unstopped.drcSettle (h : Unstopped n d) (line : Nat) : Unstopped n (drcSettle line d) := h.each fun _ _ he => he.drcIssue _

theorem Unstopped.dramRead (h : Unstopped n d) (req line : Nat) : Unstopped n (dramRead req line d).2 := by
  unfold Machine.dramRead
  split
  · exact (h.fs).withError
  · split
    · exact h.withError
    · dsimp only
      split
      · exact h.drcSettle _
      · exact (((h.drcSettle _).onDrc).openFor _).drcReadLine _ _ _ _

theorem Unstopped.dramWrite (h : Unstopped n d) (req a : Nat) (b : Bytes) : Unstopped n (dramWrite req a b d).2 := by
  unfold Machine.dramWrite
  split
  · exact (h.fs).withError
  · split
    · exact h.withError
    · exact Unstopped.drcWriteBytes (((h.drcSettle _).onDrc).openFor _) _ _ _ _

/-!
The fabric cache. In a line's read and write the DRAM's answer is made a variable before the cases are split: compared with its own
definition, it would be evaluated down to the stored words.
-/

theorem Unstopped.writeBack (h : Unstopped n d) (req set w : Nat) : Unstopped n (writeBack req set w d).2 := by
  have hwrite : ∀ a b, Unstopped n (Machine.dramWrite req a b d).2 := fun a b => h.dramWrite _ _ _
  unfold Machine.writeBack
  dsimp only
  split
  · exact h
  · split
    · exact h.withError
    · split
      · exact ((hwrite _ _).setWay).bump
      · exact hwrite _ _

theorem Unstopped.victim (h : Unstopped n d) (set : Nat) (ways : List Nat) : Unstopped n (victim set ways d).2 := by
  unfold Machine.victim
  split
  · exact h
  · exact h.fs.drew

theorem Unstopped.allocate (h : Unstopped n d) (req line : Nat) (data : Bytes) (dirty : Bool) :
    Unstopped n (allocate req line data dirty d).2 := by
  have hvictim : Unstopped n (Machine.victim (setOf line) (d.usable req) d).2 := h.victim _ _
  unfold Machine.allocate
  dsimp only
  split
  · exact hvictim
  · split
    · exact (hvictim.writeBack _ _ _).setWay
    · exact hvictim.writeBack _ _ _

theorem Unstopped.cacheReset (h : Unstopped n d) : Unstopped n (cacheReset d) := h.cond fun _ he => he.withFbc.fs

theorem Unstopped.countRead (h : Unstopped n d) (req line : Nat) : Unstopped n (countRead req line d) := by
  unfold Machine.countRead
  exact h.onFbc

theorem Unstopped.countWrite (h : Unstopped n d) (req line : Nat) (full : Bool) : Unstopped n (countWrite req line full d) := by
  unfold Machine.countWrite
  exact h.onFbc

theorem Unstopped.lineRead (h : Unstopped n d) (req line : Nat) (discard : Bool) : Unstopped n (lineRead req line discard d).2 := by
  have hcounted : Unstopped n (Machine.countRead req line (Machine.cacheReset d)) := h.cacheReset.countRead _ _
  unfold Machine.lineRead
  split
  · exact h.dramRead _ _
  · dsimp only
    generalize Machine.countRead req line (Machine.cacheReset d) = e at hcounted ⊢
    have hread := hcounted.dramRead req line
    generalize Machine.dramRead req line e = r at hread ⊢
    generalize (if e.cacheFrozen = true then none else e.fbc.side.find? _) = held
    generalize e.hit line = hit
    rcases hit with _ | w
    · rcases held with _ | ⟨l, b⟩
      · rcases r with ⟨_ | b, e'⟩
        · exact hread
        · dsimp only
          split
          · exact hread
          · exact hread.allocate _ _ _ _
      · dsimp only
        split
        · exact (hcounted.onFbc).withError
        · exact ((hcounted.onFbc).withError).allocate _ _ _ _
    · exact Unstopped.withError (hcounted.cond fun e he => he.setWay)

theorem Unstopped.lineWrite (h : Unstopped n d) (req a : Nat) (b : Bytes) : Unstopped n (lineWrite req a b d).2 := by
  unfold Machine.lineWrite
  extract_lets +onlyGivenNames line fresh full counted e o merge
  have hcounted : Unstopped n e := (h.cacheReset.countWrite _ _ _).onFbc
  clear_value e merge full
  have hread := hcounted.dramRead req line
  have halloc := (hcounted.withError (b := false)).allocate req line b true
  generalize Machine.dramRead req line e = r at hread ⊢
  generalize Machine.allocate req line b true _ = x at halloc ⊢
  split
  · exact h.dramWrite _ _ _
  · generalize e.hit line = hit
    rcases hit with _ | w
    · show Unstopped n (Prod.snd (ite _ _ _))
      split
      · exact hcounted.withError
      · split
        · exact hcounted.dramWrite _ _ _
        · split
          · split
            · exact (hcounted.fs).withError
            · show Unstopped n (Prod.snd (ite _ _ _))
              split
              · exact halloc
              · exact halloc.dramWrite _ _ _
          · rcases r with ⟨_ | old, e'⟩
            · exact hread
            · have hmerged := hread.allocate req line (merge old) true
              show Unstopped n (Prod.snd (ite _ _ _))
              split
              · exact hmerged
              · exact hmerged.dramWrite _ _ _
    · exact (hcounted.setWay).withError
theorem Unstopped.readLines (h : Unstopped n d) (k req a m : Nat) (discard : Bool) (acc : Bytes) :
    Unstopped n (readLines k req a m discard acc d).2 := by
  induction k generalizing a m acc d with
  | zero => exact h
  | succ k ih =>
    unfold Machine.readLines
    split
    · exact h
    · dsimp only
      split
      · exact h.lineRead _ _ _
      · exact ih (h.lineRead _ _ _) _ _ _

theorem Unstopped.writeLines (h : Unstopped n d) (k req a : Nat) (b : Bytes) : Unstopped n (writeLines k req a b d).2 := by
  induction k generalizing a b d with
  | zero => exact h
  | succ k ih =>
    unfold Machine.writeLines
    split
    · exact h
    · dsimp only
      split
      · exact ih (h.lineWrite _ _ _) _ _
      · exact h.lineWrite _ _ _

theorem Unstopped.bufPut (h : Unstopped n d) (req a : Nat) (b : Bytes) : Unstopped n (d.bufPut req a b) := h.writeLines _ _ _ _

theorem Unstopped.bufGet (h : Unstopped n d) (req a m : Nat) : Unstopped n (d.bufGet req a m).2 := h.readLines _ _ _ _ _ _

/-! The deposit ring and the leaf results. -/

theorem Unstopped.findCtx (h : Unstopped n d) (side layer track slot : Nat) (l : List Nat) :
    Unstopped n (findCtx side layer track slot l d).2 := by
  induction l generalizing d with
  | nil => exact h
  | cons i l ih =>
    have hrec : Unstopped n (d.ctxRec i).2 := h.bufGet _ _ _
    unfold Machine.findCtx
    dsimp only
    split
    · exact hrec
    · exact ih hrec

theorem Unstopped.matchLeaf (h : Unstopped n d) (side layer track slot leaf : Nat) :
    Unstopped n (d.matchLeaf side layer track slot leaf).2 := by
  have hfind := h.findCtx side layer track slot d.openCtxs
  unfold Dev.matchLeaf
  dsimp only
  split
  · split
    · exact hfind
    · exact hfind
  · exact hfind

theorem Unstopped.flushLres (h : Unstopped n d) (k : Nat) : Unstopped n (flushLres k d) := by
  induction k generalizing d with
  | zero => exact h
  | succ k ih =>
    unfold Machine.flushLres
    split
    · exact h
    · split
      · exact h.fs
      · exact ih (((h.bufPut _ _ _).fs).onSde)

theorem Unstopped.flushSres (h : Unstopped n d) (k : Nat) : Unstopped n (flushSres k d) := by
  induction k generalizing d with
  | zero => exact h
  | succ k ih =>
    unfold Machine.flushSres
    split
    · exact h
    · split
      · exact h.fs
      · exact ih (((h.bufPut _ _ _).fs).onSde)

theorem Unstopped.ctxCheck (h : Unstopped n d) (i : Nat) (c : CtxRec) : Unstopped n (ctxCheck i c d) := by
  unfold Machine.ctxCheck
  dsimp only
  split
  · exact h.onCtx.onSde
  · exact h

theorem Unstopped.postLeaf (h : Unstopped n d) (i leaf : Nat) (st : LeafStatus) (r : LeafReport) :
    Unstopped n (postLeaf i leaf st r d) := by
  unfold Machine.postLeaf sdeFlush
  exact (h.onSde.flushLres _).flushSres _

theorem Unstopped.leafResult (h : Unstopped n d) (i : Nat) (c : CtxRec) (leaf : Nat) (st : LeafStatus) (r : LeafReport) :
    Unstopped n (leafResult i c leaf st r d) := by
  unfold Machine.leafResult
  exact (h.postLeaf _ _ _ _).onCtx.ctxCheck _ _

theorem Unstopped.depositDrop (h : Unstopped n d) (x : Descr) : Unstopped n (depositDrop x d) := by
  have hcounted : Unstopped n ((d.bump .SDE_CNT_DROP).fs .SDE_STAT_RING_FULL 1) := h.bump.fs
  have hmatch := hcounted.matchLeaf x.side x.layer x.track x.slot x.leaf
  unfold Machine.depositDrop
  dsimp only
  split
  · exact hmatch.leafResult _ _ _ _ _
  · exact hmatch

theorem Unstopped.depositEntry (h : Unstopped n d) (req : Nat) (b : Bytes) : Unstopped n (depositEntry req b d) := by
  unfold Machine.depositEntry
  split
  · exact (h.bufPut _ _ _).onSde
  · exact h.depositDrop _

end

end Sys2Proof.Proofs
end

section
/-!
SUPPORT. A leaf from its capture to the end of its decoding, and the outer stage (03_read_channel_slices.md R104 to R109,
04_sheet_decode_engine.md R119 to R140).
-/

namespace Sys2Proof.Proofs

open Sys2Proof Sys2Proof.Machine Sys2Proof.Laws

/-! What a leaf's capture changes (R104, R109). -/

/-- From `e` to `d` only slice `n` and the registers of `keys` change. -/
structure SliceChange (keys : List Nat) (n : Nat) (e d : Dev) : Prop where
  kept : RegsKept keys e d
  rest : d = { e with slices := d.slices, regs := d.regs }
  others : ∀ k, k ≠ n → d.slice k = e.slice k

section
variable {keys : List Nat} {n : Nat} {e d : Dev}

theorem SliceChange.refl (keys : List Nat) (n : Nat) (d : Dev) : SliceChange keys n d d := ⟨fun _ _ => rfl, rfl, fun _ _ => rfl⟩

theorem SliceChange.wr {r : Reg} {v : DWord} {i j : Nat} (h : SliceChange keys n e d) (hr : r.key i j ∈ keys) :
    SliceChange keys n e (d.wr r v i j) := by
  obtain ⟨hkept, hrest, hothers⟩ := h
  refine ⟨fun k hk => ?_, ?_, hothers⟩
  · rw [lookup_wr _ _ _ _ _ _ (ne_of_mem_of_not_mem hr hk).symm, hkept k hk]
  · unfold Dev.wr
    rw [hrest]

theorem SliceChange.fs {x : Fld} {r : Reg} {v i j : Nat} (h : SliceChange keys n e d) (hx : x.reg = r) (hr : r.key i j ∈ keys) :
    SliceChange keys n e (d.fs x v i j) := h.wr (hx ▸ hr)

theorem SliceChange.bump {r : Reg} {i m : Nat} (h : SliceChange keys n e d) (hr : r.key i 0 ∈ keys) :
    SliceChange keys n e (d.bump r i m) := h.wr hr

theorem SliceChange.cond {b : Bool} {f : Dev → Dev} (h : SliceChange keys n e d)
    (hf : ∀ d, SliceChange keys n e d → SliceChange keys n e (f d)) : SliceChange keys n e (d.cond b f) := cond_inv h hf

theorem SliceChange.onSlice {f : Slice → Slice} (h : SliceChange keys n e d) : SliceChange keys n e (d.onSlice n f) := by
  obtain ⟨hkept, hrest, hothers⟩ := h
  refine ⟨hkept, ?_, fun k hk => (sparseGet_sparseSet_ne ({} : Slice) _ _ _ hk.symm).trans (hothers k hk)⟩
  unfold Dev.onSlice
  rw [hrest]

theorem SliceChange.changes (h : SliceChange keys n e d) : Changes keys e d { e with slices := d.slices } := ⟨h.kept, h.rest⟩

end

/-- The registers that a leaf's capture may change. -/
abbrev captureKeys (rcs : Nat) : List Nat :=
  [Reg.RCS_STAT.key rcs 0, Reg.RCS_CNT_BLANK.key rcs 0, Reg.RCS_CNT_SYNC_MISS.key rcs 0, Reg.RCS_CNT_LEAF.key rcs 0]

/-- A captured leaf is the one whose capture slice `rcs` began as `b` (R105, R106, R109). -/
structure Captured.Of (x : Captured) (rcs : Nat) (b : Begun) (d : Dev) : Prop where
  place : (x.facts.rcs, x.facts.pos, x.facts.slot, x.facts.leaf) = (rcs, b.pos, b.pos % d.sliceSlots rcs, b.pos / d.sliceSlots rcs)
  state : (x.facts.blank, x.facts.tloss, x.rev) = (d.blankAt rcs b.pos, b.tloss, b.rev)

/-- The outputs that a leaf is framed from include the 240 that tell whether it is blank. -/
theorem released_head {s : Slice} {first : Int} {n m : Nat} (hnm : n ≤ m) (h : (s.released first m).isSome = true) :
    ∃ head, s.released first n = some head := by
  unfold Slice.released at h ⊢
  dsimp only at h ⊢
  split at h
  · exact absurd h (by simp)
  · next hend => exact ⟨_, if_neg (by omega)⟩

/-- A leaf whose outputs have all been released is captured in its slice (R104 to R107, R109). -/
theorem frameLeaf_captured {rcs : Nat} {b : Begun} {d : Dev} (hout : (d.leafOutputs rcs b.pos).isSome = true) :
    ∃ x e f, frameLeaf rcs b d = e.onSlice rcs f ∧ (∀ s, (f s).capt = some x) ∧ Captured.Of x rcs b d ∧
      SliceChange (captureKeys rcs) rcs d e := by
  unfold Machine.frameLeaf
  extract_lets +onlyGivenNames pk s k level pc kp f n df first
  have hlong : (s.released first (n + 312)).isSome = true := hout
  obtain ⟨head, hhead⟩ := released_head (n := 240) (m := n + 312) (by omega) hlong
  obtain ⟨raw, hraw⟩ := Option.isSome_iff_exists.mp hlong
  have hblank : d.blankAt rcs b.pos = decide (signChanges (head.map fun y => (y.y, y.marked)) < d.fg .RCS_SYNC_BLANK_THR rcs) := by
    unfold Dev.blankAt
    dsimp only
    rw [show (d.slice rcs).released _ 240 = some head from hhead]
    rfl
  rw [hhead, hraw]
  by_cases hlow : signChanges (head.map fun y => (y.y, y.marked)) < d.fg .RCS_SYNC_BLANK_THR rcs
  · exact ⟨_, _, _, if_pos hlow, fun _ => rfl, ⟨rfl, by rw [hblank]⟩, (SliceChange.refl _ _ d).bump (by simp)⟩
  · refine ⟨_, _, _, if_neg hlow, fun _ => rfl, ⟨rfl, by rw [hblank]⟩,
      SliceChange.bump (SliceChange.cond (SliceChange.refl _ _ d) ?_) (by simp)⟩
    exact fun e he => (he.fs (r := .RCS_STAT) rfl (by simp)).bump (by simp)

theorem leafCapture_eq {rcs pos : Nat} {wave : List Int} {b : Begun} {d : Dev} (hruns : (sliceRun rcs wave d).sliceRuns rcs = true)
    (hfree : ((sliceRun rcs wave d).slice rcs).capt = none)
    (hbegun : (((sliceRun rcs wave d).slice rcs).begun.find? fun b => b.pos == pos) = some b) :
    leafCapture rcs pos wave d = frameLeaf rcs b (sliceRun rcs wave d) := by
  unfold leafCapture
  dsimp only
  rw [if_neg (by simp [hruns, hfree]), hbegun]

theorem leafCapture_off {rcs pos : Nat} {wave : List Int} {d : Dev} (h : d.sliceRuns rcs = false) : leafCapture rcs pos wave d = d := by
  have hrun : sliceRun rcs wave d = d := by
    unfold sliceRun
    exact if_pos (by simp [h])
  unfold leafCapture
  rw [hrun]
  exact if_pos (by simp [h])

/-! The deposit (R119, R120). -/

theorem leafDeposit_eq {rcs : Nat} {x : Captured} {d : Dev} (hcapt : (d.slice rcs).capt = some x)
    (h : (d.slice rcs).stopping = false) :
    leafDeposit rcs d = (depositEntry 4 (depositBytes d rcs x) d).onSlice rcs fun s => { s with capt := none } := by
  have hstays := (Unstopped.depositEntry ⟨h⟩ 4 (depositBytes d rcs x)).stopping
  unfold leafDeposit
  rw [hcapt]
  dsimp only
  rw [hstays, Bool.false_and, Laws.cond_false]
  simp only [Bool.not_false, Bool.and_true]

/-! The consumption of entries and the schedule (R127, R128, R135). -/

/-- With no result waiting for its ring the engine posts nothing (R151). -/
theorem sdeFlush_empty {d : Dev} (h : d.sde.lres = [] ∧ d.sde.sres = []) : sdeFlush d = d := by
  obtain ⟨hl, hs⟩ := h
  have hleaves : flushLres (d.sde.lres.length + 1) d = d := by
    unfold Machine.flushLres
    rw [hl]
  have hsheets : flushSres (d.sde.sres.length + 1) d = d := by
    unfold Machine.flushSres
    rw [hs]
  unfold sdeFlush
  rw [hleaves, hsheets]

theorem sdeEntryConsume_orphan {d : Dev} {e : DepEntry} (hempty : d.sde.lres = [] ∧ d.sde.sres = [])
    (hentry : (d.sde.ring.find? fun e => !e.matched) = some e) (hen : d.is .SDE_CTL_EN = true) (hfault : d.is .SDE_STAT_FAULT = false)
    (hroom : d.lresFull = false) {x : Descr} (hx : Descr.of (d.bufGet 5 (d.ringBase + e.off) 32).1 = x)
    {r : Dev} (hr : (d.bufGet 5 (d.ringBase + e.off) 32).2.matchLeaf x.side x.layer x.track x.slot x.leaf = (none, r)) :
    sdeEntryConsume d = ((r.bump .SDE_CNT_ORPHAN).fs .SDE_STAT_ORPHAN 1).ringRelease e.off := by
  unfold sdeEntryConsume
  rw [sdeFlush_empty hempty]
  dsimp only
  rw [hentry]
  dsimp only
  rw [if_neg (by simp [hen, hfault]), if_neg (by simp [hroom, hempty.1]), hx, hr]

/-- What an orphan leaves of the unit in which its context has been looked for (R127). -/
theorem orphan_spec (r : Dev) (off : Nat) :
    let d := ((r.bump .SDE_CNT_ORPHAN).fs .SDE_STAT_ORPHAN 1).ringRelease off
    (∀ y ∈ d.sde.ring, y.off ≠ off) ∧ d.fg .SDE_STAT_ORPHAN = 1 ∧
      d.rd .SDE_CNT_ORPHAN = BitVec.ofNat 32 (limitN 0 0xFFFFFFFF ((r.rd .SDE_CNT_ORPHAN).toNat + 1)) ∧
      Changes [Reg.SDE_STAT.key 0 0, Reg.SDE_CNT_ORPHAN.key 0 0] r d { r with sde := d.sde } := by
  refine ⟨fun y hy => ?_, ?_, ?_, fun k hk => ?_, rfl⟩
  · have hkept := (List.mem_filter.mp hy).2
    simpa using hkept
  · exact fg_fs_of_lt (r.bump .SDE_CNT_ORPHAN) 0 (by decide) (by decide)
  · exact (rd_wr_ne _ _ _ _ _ _ _ _ (by decide)).trans (rd_wr _ _ _ _ _)
  · obtain ⟨hstat, hcnt⟩ : k ≠ Reg.SDE_STAT.key 0 0 ∧ k ≠ Reg.SDE_CNT_ORPHAN.key 0 0 := by simpa using hk
    exact (lookup_wr _ _ _ _ _ _ hstat).trans (lookup_wr _ _ _ _ _ _ hcnt)

/-- The cycles added to the bucket leave the rings of results as full as they were (R135, R151). -/
theorem bucketAdd_full (cap m : Nat) (d : Dev) :
    (bucketAdd cap m d).lresFull = d.lresFull ∧ (bucketAdd cap m d).sresFull = d.sresFull := by
  have hkept : ∀ x ∈ [Fld.SDE_LRES_PI, .SDE_LRES_CI, .SDE_SRES_PI, .SDE_SRES_CI], (bucketAdd cap m d).fg x = d.fg x := by
    intro x hx
    have hkey : ∀ x ∈ [Fld.SDE_LRES_PI, .SDE_LRES_CI, .SDE_SRES_PI, .SDE_SRES_CI],
        Fld.SDE_BUCKET_CYCLES.reg.key 0 0 ≠ x.reg.key 0 0 := by decide
    exact fg_fs_ne _ _ _ _ _ _ _ _ (hkey x hx)
  unfold Dev.lresFull Dev.sresFull
  rw [hkept _ (by simp), hkept _ (by simp), hkept _ (by simp), hkept _ (by simp)]
  exact ⟨rfl, rfl⟩

theorem sdeLeafStart_started {d : Dev} {idle : Nat} {r : ReadyLeaf} (hempty : d.sde.lres = [] ∧ d.sde.sres = [])
    (hen : d.is .SDE_CTL_EN = true) (hfault : d.is .SDE_STAT_FAULT = false) (hroom : d.lresFull = false ∧ d.sresFull = false)
    (hidle : d.sde.run = none)
    (hnext : ((bucketAdd (d.fg .SDE_SCHED_BUCKET_CAP) idle d).onSde fun x => { x with cycle := x.cycle + idle }).nextLeaf = some r) :
    ∃ e f, sdeLeafStart idle d = sdeCount (Dev.onSde e f) ∧
      ∀ s : Sde, (f s).ready = (s.ready.filter fun y => y.entry != r.entry) ∧ (f s).rr = (r.rcs + 1) % 128 ∧
        (f s).run.map (fun u => (u.ready, u.iters, u.retried)) = some (r, 0, false) := by
  unfold sdeLeafStart
  rw [sdeFlush_empty hempty]
  extract_lets +onlyGivenNames flushed e
  have hnext : e.nextLeaf = some r := hnext
  have hpost : ¬ (e.lresFull || e.sresFull || !e.sde.lres.isEmpty || !e.sde.sres.isEmpty) = true := by
    obtain ⟨hleaves, hsheets⟩ := hempty
    obtain ⟨hleafRoom, hsheetRoom⟩ := bucketAdd_full (d.fg .SDE_SCHED_BUCKET_CAP) idle d
    have hlroom : e.lresFull = false := hleafRoom.trans hroom.1
    have hsroom : e.sresFull = false := hsheetRoom.trans hroom.2
    have hlres : e.sde.lres = [] := hleaves
    have hsres : e.sde.sres = [] := hsheets
    simp [hlroom, hsroom, hlres, hsres]
  clear_value e
  rw [if_neg (by simp [flushed, hen, hfault, hidle]), hnext]
  dsimp only
  rw [if_neg hpost]
  exact ⟨_, _, rfl, fun s => ⟨rfl, rfl, rfl⟩⟩

/-! A leaf's iterations and the outer stage (R130, R139, R140). -/

theorem outerDecodeNow_completed {d : Dev} {i : Nat} {rest : List Nat} (hempty : d.sde.lres = [] ∧ d.sde.sres = [])
    (hdone : d.sde.done = i :: rest) (hen : d.is .SDE_CTL_EN = true) (hfault : d.is .SDE_STAT_FAULT = false) (hroom : d.sresFull = false) :
    outerDecodeNow false d = outerStage i (d.onSde fun s => { s with done := rest }) := by
  unfold outerDecodeNow
  rw [sdeFlush_empty hempty]
  dsimp only
  rw [hdone]
  dsimp only
  rw [if_neg (by simp [hen, hfault]), if_neg (by simp), if_neg (by simp [hroom, hempty.2])]

theorem sdeIterationDone_unmet {d : Dev} {u : DecodeRun} (h : d.sde.run = some u) :
    let r := ldpcIteration (ldpcRows u.level) (u.post, u.msgs)
    let v : DecodeRun := { u with post := r.1, msgs := r.2, iters := u.iters + 1 }
    let unmet := unmetChecks (ldpcRows u.level) r.1
    (unmet = 0 → sdeIterationDone false d = endRun v 0 d) ∧
      (unmet ≠ 0 → u.iters + 1 < u.base → sdeIterationDone false d = { d with sde := { d.sde with run := some v } }) := by
  refine ⟨fun hmet => ?_, fun hopen hbase => ?_⟩
  · unfold sdeIterationDone
    rw [h]
    dsimp only
    rw [if_neg (by simp), if_pos hmet, hmet]
  · unfold sdeIterationDone
    rw [h]
    dsimp only
    rw [if_neg (by simp), if_neg hopen, if_pos hbase]
    rfl

theorem sdeIterationDone_parity {d : Dev} {u : DecodeRun} (h : d.sde.run = some u) (hfirst : u.retried = false) :
    ∃ v, sdeIterationDone true d = d.onSde (fun s => { s with run := some v }) ∧
      (v.ready, v.iters, v.retried) = (u.ready, 0, true) := by
  unfold sdeIterationDone
  rw [h]
  dsimp only
  rw [if_pos rfl, if_neg (by simp [hfirst])]
  exact ⟨_, rfl, rfl⟩

/-! The obligation. -/

/-- Settles O6: each clause by what its command does to the slice, the deposit ring and the engine; a deposit ends no slice's run, for
a slice that is not to stop stays so whatever the buffer does. -/
theorem sheetDecodeRun : Obligations.SheetDecodeRun := by
  unfold Obligations.SheetDecodeRun
  refine ⟨fun rcs pos wave b s hruns hfree hbegun hout => ?_, fun rcs pos wave s hoff => ?_, fun rcs x s hcapt hstays => ?_,
    fun e s hempty hentry hen hfault hroom horphan => ?_, fun idle r s hempty hen hfault hroom hidle hnext => ?_, fun u s hrun => ?_,
    fun u s hrun hfirst => ?_, fun i rest s hempty hdone hen hfault hroom => ?_⟩
  · obtain rfl : b.pos = pos := by simpa using List.find?_some hbegun
    obtain ⟨x, e, f, hnext, hcapt, ⟨hplace, hstate⟩, hchange⟩ := frameLeaf_captured hout
    refine ⟨_, rfl, rfl, rfl, ?_⟩
    dsimp only
    rw [leafCapture_eq hruns hfree hbegun, hnext, slice_onSlice_self, hcapt]
    exact ⟨congrArg some hplace, congrArg some hstate, fun k hk => hchange.onSlice.others k (by simpa [Fin.ext_iff] using hk),
      hchange.onSlice.changes⟩
  · show State.onDev _ _ = _
    rw [onDev_next, leafCapture_off hoff]
  · refine ⟨_, rfl, rfl, rfl, ?_⟩
    dsimp only
    rw [leafDeposit_eq hcapt hstays, slice_onSlice_self]
    exact ⟨rfl, rfl⟩
  · refine ⟨_, rfl, rfl, rfl, ?_⟩
    dsimp only
    rw [sdeEntryConsume_orphan hempty hentry hen hfault hroom rfl (Prod.ext horphan rfl)]
    exact orphan_spec _ _
  · obtain ⟨e, f, hstart, hf⟩ := sdeLeafStart_started hempty hen hfault hroom hidle hnext
    obtain ⟨hready, hrr, hrun⟩ := hf e.sde
    refine ⟨_, rfl, rfl, rfl, ?_⟩
    dsimp only
    rw [hstart]
    refine ⟨hrun, hrr, fun y hy => ?_⟩
    have hkept : y ∈ (f e.sde).ready := hy
    rw [hready] at hkept
    simpa using (List.mem_filter.mp hkept).2
  · exact ⟨_, rfl, rfl, rfl, sdeIterationDone_unmet hrun⟩
  · obtain ⟨v, hnext, hv⟩ := sdeIterationDone_parity hrun hfirst
    refine ⟨_, rfl, rfl, rfl, ?_⟩
    dsimp only
    rw [hnext]
    exact ⟨congrArg some hv, rfl⟩
  · show State.onDev _ _ = _
    rw [onDev_next, outerDecodeNow_completed hempty hdone hen hfault hroom]
    rfl

end Sys2Proof.Proofs
end

section
/-!
SUPPORT. The recovery limit of a sheet whose context is closed and still owes its result (04_sheet_decoding.md R124, R147).
-/

namespace Sys2Proof.Proofs

open Sys2Proof Sys2Proof.Machine

/-- Command 5, whose recovery time of 1 ms is over at 2 ms, alone waits for sheet 77 on the ladder. Context 3 of the sheet is closed
and owes its result, and a leaf of it is still ready. -/
def owedSheet : Dev :=
  { qtime := 2000000
    fw := { cmds := [{ id := 5, limitMs := 1, binds := [{ psa := some 77 }] }] }
    ladder := [{ psa := 77 }]
    sde := { ctxs := [(3, { psa := 77, owed := true })], ready := [{ ctx := 3 }] } }

/-- Refutes O7: RECOVERY_LIMIT_EXPIRY abandons the sheet's context also where it is closed and only owes its result, and CONTEXT_ABANDON
takes the ready leaves of an open context only: the leaf of `owedSheet` stays in the engine. -/
theorem not_retryLadder : ¬ Obligations.RetryLadder := by
  unfold Obligations.RetryLadder
  rintro ⟨-, -, -, -, -, hone⟩
  obtain ⟨t, hrun, -, -, -, -, hready⟩ := hone 5 _ { psa := 77 } { dev := owedSheet } rfl rfl rfl (by decide +kernel) rfl rfl
  obtain rfl : { dev := recoveryLimitExpiry 5 owedSheet } = t := Host.Outcome.next.inj hrun
  have hleft : ({ ctx := 3 } : ReadyLeaf) ∈ (recoveryLimitExpiry 5 owedSheet).sde.ready := by decide +kernel
  exact hready _ hleft rfl

end Sys2Proof.Proofs
end

section
/-!
SUPPORT. A bank loaded into an open slot that a sample still uses (06_control_law_engine.md R223, 15_commands.md R486).
-/

namespace Sys2Proof.Proofs

open Sys2Proof Sys2Proof.Machine

/-- Command 5: OPEN CONTROL with OP 5, which loads a bank of one word into LS72 from host memory at 0 (R486). -/
def bankLoadCmd : Cmd := { id := 5, ssq := 1, bytes := leBytes 64 (0x31 + 16 * 2 ^ 64 + 5 * 2 ^ 192) }

/-- Head A runs `bankLoadCmd` while LS72 is stopped and its last sample still runs. -/
def stoppedInSample : Dev :=
  ({ fw := { cmds := [bankLoadCmd] }, eng := { samples := [{ slot := 72, phase := .running }] } } : Dev).fs .QL_ID_ROLE 1

/-- Refutes O48: a swap never happens inside a sample (R223), so OPEN_BANK_LOAD of `stoppedInSample` leaves ACTIVE 0
where the statement has it toggle, though LS72 is present, not started, and no swap of it is pending. -/
theorem not_openAndService : ¬ Obligations.OpenAndService := by
  unfold Obligations.OpenAndService
  rintro ⟨-, -, -, -, -, -, hbank, -⟩
  obtain ⟨t, hrun, -, -, -, -, hswapped, -⟩ := hbank 5 72 1 1 bankLoadCmd { dev := stoppedInSample } (by decide +kernel)
    (by decide +kernel) (by decide +kernel)
  obtain rfl : { dev := openBankLoad 5 stoppedInSample } = t := Host.Outcome.next.inj hrun
  have hbefore : stoppedInSample.fg .SLOT_CTL_ACTIVE 72 = 0 := by decide +kernel
  have hafter : (openBankLoad 5 stoppedInSample).fg .SLOT_CTL_ACTIVE 72 = 0 := by decide +kernel
  rw [hafter, hbefore] at hswapped
  exact absurd hswapped (by decide)

end Sys2Proof.Proofs
end

section
/-!
SUPPORT. The laser driver link: firmware's commands and the exchange of a frame (05_recording.md R172, R174, R175).
-/

namespace Sys2Proof.Proofs

open Sys2Proof Sys2Proof.Machine Sys2Proof.Laws

theorem wsg_onWsg_self (d : Dev) (n : Nat) (f : Wsg → Wsg) : (d.onWsg n f).wsg n = f (d.wsg n) := by
  rw [wsg_onWsg, if_pos rfl]

theorem wsg_withError (d : Dev) (b : Bool) (n : Nat) : ({ d with error := b } : Dev).wsg n = d.wsg n := rfl

theorem onWsg_onWsg (d : Dev) (n : Nat) (f g : Wsg → Wsg) : (d.onWsg n f).onWsg n g = d.onWsg n fun w => g (f w) := by
  have hself := wsg_onWsg_self d n f
  unfold Dev.onWsg at hself ⊢
  rw [hself]
  dsimp only
  rw [sparseSet_sparseSet]

/-! Firmware's commands (R174). -/

/-- A register of an OPU is reached only where the fuses enable the OPU. -/
theorem opuPresent_of_pathOf {d : Dev} {r : Reg} {i j o : Nat} (ho : r.opuOf i j = some o) (hpath : d.pathOf r i j = .reg r i j) :
    d.opuPresent o = true := by
  by_contra habsent
  unfold Dev.pathOf at hpath
  rw [ho] at hpath
  split at hpath
  · cases hpath
  · dsimp only at hpath
    rw [if_pos (by simp [habsent])] at hpath
    cases hpath

/-- A write of WSG_LDC_CMD that reaches the register is a firmware command. -/
theorem regWrite_ldcCmd {opu : Nat} {d : Dev} (v : DWord) (hpath : d.pathOf .WSG_LDC_CMD opu 0 = .reg .WSG_LDC_CMD opu 0) :
    regWrite .WSG_LDC_CMD opu v d = { ldcFirmwareCmd opu v d with error := false } := by
  unfold regWrite storeBy
  rw [hpath]
  have hwrite : wsgWrite .WSG_LDC_CMD opu 0 v d = ldcFirmwareCmd opu v d := by
    unfold wsgWrite
    rw [if_neg (by decide), if_pos rfl]
  exact congrArg (fun e : Dev => { e with error := false }) hwrite

theorem ldcFirmwareCmd_full {opu : Nat} {v : DWord} {d : Dev} (hp : d.opuPresent opu = true)
    (hfull : 16 ≤ (d.wsg opu).fwQueue.length) : ldcFirmwareCmd opu v d = d.fs .WSG_OSTAT_LDC_QFULL 1 opu := by
  unfold ldcFirmwareCmd
  rw [if_neg (by simp [hp])]
  exact if_pos hfull

/-- A SCALE write of a beam that an APC loop owns is refused. -/
theorem ldcFirmwareCmd_refused {opu : Nat} {v : DWord} {d : Dev} (hp : d.opuPresent opu = true)
    (hroom : (d.wsg opu).fwQueue.length < 16) (hscale : bitsOf v.toNat 26 2 = 0 ∧ bitsOf v.toNat 16 6 = 0x10)
    (howned : d.apcOwns opu (bitsOf v.toNat 22 4) = true) :
    ldcFirmwareCmd opu v d = d.onWsg opu fun g => { g with responses := g.responses ++ [ldcResponse 0 0 true] } := by
  obtain ⟨hop, hreg⟩ := hscale
  unfold ldcFirmwareCmd
  rw [if_neg (by simp [hp])]
  dsimp only
  rw [if_neg (by omega), if_pos (by simp [hop, hreg, howned])]

/-- The frame that a value written to WSG_LDC_CMD asks for (Table 5-14). -/
def cmdFrame (v : DWord) : LdcFrame :=
  { op := bitsOf v.toNat 26 2, spot := bitsOf v.toNat 22 4, reg := bitsOf v.toNat 16 6, data := bitsOf v.toNat 0 16, fw := true }

theorem ldcFirmwareCmd_queued {opu : Nat} {v : DWord} {d : Dev} (hp : d.opuPresent opu = true)
    (hroom : (d.wsg opu).fwQueue.length < 16)
    (hother : bitsOf v.toNat 26 2 ≠ 0 ∨ bitsOf v.toNat 16 6 ≠ 0x10 ∨ d.apcOwns opu (bitsOf v.toNat 22 4) = false) :
    ldcFirmwareCmd opu v d = d.onWsg opu fun g => { g with fwQueue := g.fwQueue ++ [cmdFrame v] } := by
  have hsent : ¬ (decide (bitsOf v.toNat 26 2 = 0) && decide (bitsOf v.toNat 16 6 = 0x10) &&
      d.apcOwns opu (bitsOf v.toNat 22 4)) = true := by
    rcases hother with hop | hreg | hfree
    · simp [hop]
    · simp [hreg]
    · simp [hfree]
  unfold ldcFirmwareCmd
  rw [if_neg (by simp [hp])]
  dsimp only
  rw [if_neg (by omega), if_neg hsent]
  rfl

/-! The exchange of a frame (R172, R175). -/

/-- The choice of the next frame takes it from where it waits and counts the slot. -/
theorem nextFrame_rest (g : Wsg) : ∃ again cle fw turn,
    (nextFrame g).2 = { g with repeated := again, cleQueue := cle, fwQueue := fw, turn := turn } := by
  unfold nextFrame
  cases g.repeated with
  | some f => exact ⟨_, _, _, _, rfl⟩
  | none =>
    dsimp only
    by_cases hturn : 7 ≤ g.turn
    · rw [if_pos hturn]
      cases g.fwQueue <;> cases g.cleQueue <;> exact ⟨_, _, _, _, rfl⟩
    · rw [if_neg hturn]
      cases g.cleQueue <;> cases g.fwQueue <;> exact ⟨_, _, _, _, rfl⟩

/-- The WSG once the next frame is out, under the next sequence number. -/
def frameSent (g : Wsg) : Wsg :=
  { (nextFrame g).2 with
    sent := some { (nextFrame g).1 with seq := (nextFrame g).2.seq }, seq := ((nextFrame g).2.seq + 1) % 16 }

theorem frameSent_seq (g : Wsg) : (frameSent g).sent.map (·.seq) = some g.seq ∧ (frameSent g).seq = (g.seq + 1) % 16 := by
  obtain ⟨again, cle, fw, turn, hrest⟩ := nextFrame_rest g
  unfold frameSent
  rw [hrest]
  exact ⟨rfl, rfl⟩

theorem frameSent_responses (g : Wsg) : (frameSent g).responses = g.responses := by
  obtain ⟨again, cle, fw, turn, hrest⟩ := nextFrame_rest g
  unfold frameSent
  rw [hrest]

section
variable {opu miso : Nat} {p : LdcFrame} {d : Dev}

/-- What makes an answer to frame `p` good (R175). -/
def GoodAnswer (p : LdcFrame) (miso : Nat) : Prop := ldcCrc miso = miso % 256 ∧ bitsOf miso 38 2 ≠ 1 ∧ bitsOf miso 8 4 = p.seq

/-- The first frame has no answer to take. -/
theorem ldcFrame_first (hready : d.opuReady opu = true) (hsent : (d.wsg opu).sent = none) :
    ldcFrame opu miso d = d.onWsg opu frameSent := by
  unfold ldcFrame
  rw [if_neg (by simp [hready])]
  dsimp only
  rw [hsent]
  rfl

theorem ldcFrame_good (hready : d.opuReady opu = true) (hsent : (d.wsg opu).sent = some p) (hgood : GoodAnswer p miso) :
    ldcFrame opu miso d = ldcAnswer opu p miso (d.onWsg opu frameSent) := by
  obtain ⟨hcrc, hack, hseq⟩ := hgood
  unfold ldcFrame
  rw [if_neg (by simp [hready])]
  dsimp only
  rw [hsent]
  dsimp only
  rw [if_pos (by simp [hcrc, hack, hseq])]
  rfl

/-- The first bad answer to a frame has it sent once more. -/
theorem ldcFrame_bad (hready : d.opuReady opu = true) (hsent : (d.wsg opu).sent = some p) (hbad : ¬ GoodAnswer p miso)
    (honce : p.again = false) :
    ldcFrame opu miso d = (d.onWsg opu frameSent).onWsg opu fun g => { g with repeated := some { p with again := true } } := by
  unfold ldcFrame
  rw [if_neg (by simp [hready])]
  dsimp only
  rw [hsent]
  dsimp only
  rw [if_neg (by simpa [GoodAnswer, and_assoc] using hbad), honce]
  rfl

/-- The response to a frame that was sent holds its DATA, its ACK and VALID (Table 5-14). -/
theorem ldcResponse_sent (data ack : Nat) :
    ldcResponse data ack false = BitVec.ofNat 32 (data % 65536 + ack <<< 16 + 1 <<< 19) := by
  simp [ldcResponse, bit]

/-- The answer to a firmware frame changes the OPU's WSG alone, and joins the responses. -/
theorem ldcAnswer_fw (miso : Nat) (d : Dev) (hfw : p.fw = true) : ∃ f : Wsg → Wsg, ldcAnswer opu p miso d = d.onWsg opu f ∧
    ∀ g, (f g).responses = g.responses ++ [ldcResponse (bitsOf miso 12 16) (bitsOf miso 38 2) false] := by
  unfold ldcAnswer
  dsimp only
  rw [if_pos hfw]
  unfold Dev.cond
  split
  · rw [onWsg_onWsg]
    exact ⟨_, rfl, fun _ => rfl⟩
  · exact ⟨_, rfl, fun _ => rfl⟩

end

/-! The obligation. -/

/-- Settles O9: each clause by what the command does to the OPU's WSG, the exchanges by the frame sent and the answer judged. -/
theorem laserDriverLink : Obligations.LaserDriverLink := by
  unfold Obligations.LaserDriverLink
  have hpresent : ∀ (opu : Fin 4) (d : Dev), d.pathOf .WSG_LDC_CMD opu 0 = .reg .WSG_LDC_CMD opu 0 → d.opuPresent opu = true :=
    fun _ _ => opuPresent_of_pathOf rfl
  refine ⟨fun opu val s hpath hfull => ?_, fun opu val s hpath hroom hscale howned => ?_,
    fun opu val s hpath hroom hother => ?_, fun opu miso s hready hsent => ?_, fun opu miso p s hready hsent hfw hgood => ?_,
    fun opu miso p s hready hsent honce hbad => ?_⟩
  · show State.onDev _ _ = _
    rw [onDev_next, regWrite_ldcCmd _ hpath, ldcFirmwareCmd_full (hpresent _ _ hpath) hfull]
  · show State.onDev _ _ = _
    rw [onDev_next, regWrite_ldcCmd _ hpath, ldcFirmwareCmd_refused (hpresent _ _ hpath) hroom hscale howned]
    rfl
  · refine ⟨_, rfl, rfl, rfl, ?_⟩
    dsimp only
    rw [regWrite_ldcCmd _ hpath, ldcFirmwareCmd_queued (hpresent _ _ hpath) hroom hother,
      wsg_withError, wsg_onWsg_self]
    exact ⟨rfl, rfl⟩
  · refine ⟨_, rfl, rfl, rfl, ?_⟩
    dsimp only
    rw [ldcFrame_first hready hsent, wsg_onWsg_self]
    obtain ⟨hsentSeq, hseq⟩ := frameSent_seq (s.dev.wsg opu)
    exact ⟨hsentSeq, hseq, rfl⟩
  · refine ⟨_, rfl, rfl, rfl, ?_⟩
    dsimp only
    obtain ⟨f, hnext, hresponses⟩ := ldcAnswer_fw (opu := opu) miso (s.dev.onWsg opu frameSent) hfw
    rw [ldcFrame_good hready hsent hgood, hnext, wsg_onWsg_self, wsg_onWsg_self, hresponses, frameSent_responses,
      ldcResponse_sent]
    exact ⟨rfl, rfl⟩
  · have hnot : ¬ GoodAnswer p miso := fun ⟨hcrc, hack, hseq⟩ => by
      rcases hbad with h | h | h
      · exact h hcrc
      · exact hack h
      · exact h hseq
    refine ⟨_, rfl, rfl, rfl, ?_⟩
    dsimp only
    rw [ldcFrame_bad hready hsent hnot honce, wsg_onWsg_self, wsg_onWsg_self]
    exact ⟨rfl, frameSent_responses _, rfl⟩

end Sys2Proof.Proofs
end

section
/-!
SUPPORT. What the arithmetic of the Control Law Engine delivers (06_control_law_engine.md R227 to R229): a finite number, or, in
IEEE mode only, an infinity or the default NaN.
-/

namespace Sys2Proof.Proofs

open Sys2Proof Sys2Proof.Machine Sys2Proof.Laws

/-! Patterns. -/

/-- A pattern whose exponent field is not all ones: neither an infinity nor a NaN. -/
abbrev FinitePattern (x : Nat) : Prop := bitsOf x 23 8 ≠ 255

theorem isNaN_iff (x : Nat) : isNaN x = true ↔ bitsOf x 23 8 = 255 ∧ bitsOf x 0 23 ≠ 0 := by simp [isNaN]

theorem isInf_iff (x : Nat) : isInf x = true ↔ bitsOf x 23 8 = 255 ∧ bitsOf x 0 23 = 0 := by
  simp only [isInf, beq_iff_eq, bitsOf, Nat.shiftRight_eq_div_pow]
  omega

theorem not_finite_of_isNaN {x : Nat} (h : isNaN x = true) : ¬ FinitePattern x := fun hfin => hfin ((isNaN_iff x).mp h).1

theorem not_finite_of_isInf {x : Nat} (h : isInf x = true) : ¬ FinitePattern x := fun hfin => hfin ((isInf_iff x).mp h).1

/-- Every pattern is finite, an infinity or a NaN. -/
theorem finitePattern_of_not {x : Nat} (hnan : isNaN x ≠ true) (hinf : isInf x ≠ true) : FinitePattern x := by
  rw [ne_eq, isNaN_iff] at hnan
  rw [ne_eq, isInf_iff] at hinf
  tauto

/-- No infinity is a NaN. -/
theorem not_isNaN_of_isInf {x : Nat} (h : isInf x = true) : isNaN x = false := by
  rw [isInf_iff] at h
  rw [← Bool.not_eq_true, isNaN_iff]
  tauto

theorem exponent_mod (x : Nat) : bitsOf (x % 2 ^ 31) 23 8 = bitsOf x 23 8 := by
  simp only [bitsOf, Nat.shiftRight_eq_div_pow]
  omega

theorem isNaN_mod (x : Nat) : isNaN (x % 2 ^ 31) = isNaN x := by
  have hfraction : bitsOf (x % 2 ^ 31) 0 23 = bitsOf x 0 23 := by
    simp only [bitsOf, Nat.shiftRight_zero]
    omega
  rw [isNaN, isNaN, exponent_mod, hfraction]

/-- What two patterns agree on below the sign decides whether they are finite. -/
theorem FinitePattern.of_mod {x y : Nat} (h : FinitePattern x) (hmod : y % 2 ^ 31 = x % 2 ^ 31) : FinitePattern y := by
  unfold FinitePattern
  rw [← exponent_mod, hmod, exponent_mod]
  exact h

theorem isNaN_of_mod {x y : Nat} (hmod : y % 2 ^ 31 = x % 2 ^ 31) : isNaN y = isNaN x := by
  rw [← isNaN_mod, hmod, isNaN_mod]

/-- A negation changes the sign alone. -/
theorem fNeg_mod (x : Nat) : fNeg x % 2 ^ 31 = x % 2 ^ 31 := by
  have hsign : 2 ^ 31 % 2 ^ 31 = 0 := by decide
  rw [fNeg, Nat.xor_mod_two_pow, hsign, Nat.xor_zero]
  omega

/-- A magnitude below that of infinity is finite under either sign. -/
theorem finite_fSign_add (neg : Bool) {k : Nat} (hk : k < 0x7F800000) : FinitePattern (fSign neg + k) := by
  have hmod : (fSign neg + k) % 2 ^ 31 = k % 2 ^ 31 := by
    cases neg <;> simp [fSign]
  refine FinitePattern.of_mod (x := k) ?_ hmod
  simp only [FinitePattern, bitsOf, Nat.shiftRight_eq_div_pow]
  omega

theorem finite_fSign (neg : Bool) : FinitePattern (fSign neg) := finite_fSign_add neg (k := 0) (by decide)

theorem isInf_fSign_add (neg : Bool) : isInf (fSign neg + 0x7F800000) = true := by cases neg <;> decide

/-! Operands and results. -/

/-- What arithmetic reads of an operand: in saturating mode a finite number. -/
def ReadOperand (m : FMode) (x : Nat) : Prop := m.satm = true → FinitePattern x

/-- What arithmetic delivers: a finite number, or in IEEE mode an infinity or the default NaN. -/
def Delivered (m : FMode) (x : Nat) : Prop := FinitePattern x ∨ (m.satm = false ∧ (isInf x = true ∨ x = fNaN))

section
variable {m : FMode} {x : Nat}

theorem ReadOperand.of_finite (h : FinitePattern x) : ReadOperand m x := fun _ => h

/-- An operand that is not finite is read in IEEE mode alone. -/
theorem ReadOperand.ieee (h : ReadOperand m x) (hx : ¬ FinitePattern x) : m.satm = false := by
  by_contra hsat
  exact hx (h (by simpa using hsat))

theorem ReadOperand.of_mod {y : Nat} (h : ReadOperand m x) (hmod : y % 2 ^ 31 = x % 2 ^ 31) : ReadOperand m y :=
  fun hsat => (h hsat).of_mod hmod

theorem ReadOperand.fNeg (h : ReadOperand m x) : ReadOperand m (fNeg x) := h.of_mod (fNeg_mod x)

/-- An operand that is no NaN may be delivered as it is. -/
theorem ReadOperand.delivered (h : ReadOperand m x) (hx : isNaN x ≠ true) : Delivered m x := by
  by_cases hinf : isInf x = true
  · exact .inr ⟨h.ieee (not_finite_of_isInf hinf), .inl hinf⟩
  · exact .inl (finitePattern_of_not hx hinf)

theorem Delivered.operand (h : Delivered m x) : ReadOperand m x := by
  intro hsat
  rcases h with h | ⟨hieee, -⟩
  · exact h
  · simp [hsat] at hieee

/-- The one NaN that is ever delivered is the default one (R227). -/
theorem Delivered.eq_fNaN (h : Delivered m x) (hx : isNaN x = true) : x = fNaN := by
  rcases h with h | ⟨-, h | h⟩
  · exact absurd h (not_finite_of_isNaN hx)
  · simp [not_isNaN_of_isInf h] at hx
  · exact h

theorem Delivered.mod_word (h : Delivered m x) : Delivered m (x % 2 ^ 32) := by
  have hmod : x % 2 ^ 32 % 2 ^ 31 = x % 2 ^ 31 := by omega
  by_cases hnan : isNaN x = true
  · refine .inr ⟨h.operand.ieee (not_finite_of_isNaN hnan), .inr ?_⟩
    rw [h.eq_fNaN hnan]
    rfl
  · exact (h.operand.of_mod hmod).delivered (by rwa [isNaN_of_mod hmod])

end

/-! Reading, rounding and the exceptional results (R228, R229). -/

variable (m : FMode)

theorem fRead_operand (x : Nat) : ReadOperand m (fRead m x).1 := by
  intro hsat
  unfold fRead
  simp only [hsat, Bool.true_and]
  split
  · decide
  · next hnan =>
    split
    · exact finite_fSign_add _ (by decide)
    · next hinf =>
      split
      · exact finite_fSign _
      · exact finitePattern_of_not hnan hinf

theorem fOverflow_delivered (neg : Bool) : Delivered m (fOverflow m neg).1 := by
  unfold fOverflow
  split
  · exact .inl (finite_fSign_add _ (by decide))
  · next hsat => exact .inr ⟨by simpa using hsat, .inl (isInf_fSign_add neg)⟩

theorem fInvalid_delivered : Delivered m (fInvalid m).1 := by
  unfold fInvalid
  split
  · exact .inl (by decide)
  · next hsat => exact .inr ⟨by simpa using hsat, .inr rfl⟩

/-- A choice between two results delivers what both deliver. -/
theorem delivered_ite {p : Prop} [Decidable p] {r t : Nat × Nat} (hr : p → Delivered m r.1) (ht : ¬ p → Delivered m t.1) :
    Delivered m (if p then r else t).1 := by
  split
  · exact hr ‹_›
  · exact ht ‹_›

/-- The exponent of the last place of n × 2^e rounded to binary32, which is -149 for the subnormal numbers. -/
def lastPlace (n : Nat) (e : Int) : Int :=
  if e + (Nat.log2 n + 1 : Nat) - 24 < -149 then -149 else e + (Nat.log2 n + 1 : Nat) - 24

/-- The significand of n × 2^e in units of its last place. -/
def roundedSignificand (n : Nat) (e : Int) : Nat :=
  if lastPlace n e ≤ e then n <<< (e - lastPlace n e).toNat else roundEven n (lastPlace n e - e).toNat

/-- The magnitude of n × 2^e rounded, as a pattern without its sign. -/
def roundedMagnitude (n : Nat) (e : Int) : Nat := (lastPlace n e + 149).toNat * 2 ^ 23 + roundedSignificand n e

theorem fRound_val (neg : Bool) (n : Nat) (e : Int) : (fRound m neg n e).1 =
    if 0x7F800000 ≤ roundedMagnitude n e then (fOverflow m neg).1
    else if m.ftz && 0 < roundedMagnitude n e && roundedMagnitude n e < 2 ^ 23 then fSign neg
    else fSign neg + roundedMagnitude n e := by
  unfold fRound
  extract_lets ue le sh q inexact mag tiny
  have hmag : roundedMagnitude n e = mag := rfl
  rw [hmag]
  clear_value mag
  rw [apply_ite Prod.fst, apply_ite Prod.fst]

theorem fRound_delivered (neg : Bool) (n : Nat) (e : Int) : Delivered m (fRound m neg n e).1 := by
  rw [fRound_val]
  split
  · exact fOverflow_delivered m neg
  · next hmag =>
    split
    · exact .inl (finite_fSign neg)
    · exact .inl (finite_fSign_add neg (by omega))

/-! The operations on read operands (R227, R228). -/

section
variable {m} {a b c : Nat}

/-- An infinity with a sign is delivered in IEEE mode. -/
theorem delivered_infinity (neg : Bool) (h : m.satm = false) : Delivered m (fSign neg + 0x7F800000) :=
  .inr ⟨h, .inl (isInf_fSign_add neg)⟩

theorem delivered_fNaN (h : m.satm = false) : Delivered m fNaN := .inr ⟨h, .inr rfl⟩

theorem delivered_zero (neg : Bool) : Delivered m (fSign neg) := .inl (finite_fSign neg)

/-- One of two operands is a NaN, or an infinity: they were read in IEEE mode. -/
theorem ieee_of_either (f : Nat → Bool) (hf : ∀ x, f x = true → ¬ FinitePattern x) (ha : ReadOperand m a) (hb : ReadOperand m b)
    (h : (f a || f b) = true) : m.satm = false := by
  rcases (Bool.or_eq_true _ _).mp h with h | h
  · exact ha.ieee (hf a h)
  · exact hb.ieee (hf b h)

theorem fmaCore_delivered (ha : ReadOperand m a) (hb : ReadOperand m b) (hc : ReadOperand m c) :
    Delivered m (fmaCore m a b c).1 := by
  unfold fmaCore
  dsimp only
  refine delivered_ite m (fun hnan => delivered_fNaN ?_) fun _ => delivered_ite m (fun _ => fInvalid_delivered m) fun _ =>
    delivered_ite m (fun hinf => delivered_ite m (fun _ => fInvalid_delivered m) fun _ => delivered_infinity _ ?_) fun _ =>
    delivered_ite m (fun hinf => ?_) fun _ => delivered_ite m (fun _ => delivered_zero _) fun _ => fRound_delivered m _ _ _
  · rcases (Bool.or_eq_true _ _).mp hnan with h | h
    · exact ieee_of_either isNaN (fun _ => not_finite_of_isNaN) ha hb h
    · exact hc.ieee (not_finite_of_isNaN h)
  · exact ieee_of_either isInf (fun _ => not_finite_of_isInf) ha hb hinf
  · exact .inr ⟨hc.ieee (not_finite_of_isInf hinf), .inl hinf⟩

theorem addCore_delivered (ha : ReadOperand m a) (hb : ReadOperand m b) : Delivered m (addCore m a b).1 :=
  fmaCore_delivered ha (.of_finite (by decide)) hb

theorem mulCore_delivered (ha : ReadOperand m a) (hb : ReadOperand m b) : Delivered m (mulCore m a b).1 :=
  fmaCore_delivered ha hb (.of_finite (by decide))

theorem divCore_delivered (ha : ReadOperand m a) (hb : ReadOperand m b) : Delivered m (divCore m a b).1 := by
  unfold divCore
  dsimp only
  refine delivered_ite m (fun hnan => delivered_fNaN ?_) fun _ => delivered_ite m (fun _ => fInvalid_delivered m) fun _ =>
    delivered_ite m (fun hinf => delivered_infinity _ ?_) fun _ => delivered_ite m (fun _ => delivered_zero _) fun _ =>
    delivered_ite m (fun _ => delivered_ite m (fun _ => ?_) fun hsat => delivered_infinity _ ?_) fun _ => fRound_delivered m _ _ _
  · exact ieee_of_either isNaN (fun _ => not_finite_of_isNaN) ha hb hnan
  · exact ha.ieee (not_finite_of_isInf hinf)
  · exact .inl (finite_fSign_add _ (by decide))
  · simpa using hsat

theorem sqrtCore_delivered (ha : ReadOperand m a) : Delivered m (sqrtCore m a).1 := by
  unfold sqrtCore
  dsimp only
  exact delivered_ite m (fun hnan => delivered_fNaN (ha.ieee (not_finite_of_isNaN hnan))) fun hnan =>
    delivered_ite m (fun _ => ha.delivered hnan) fun _ => delivered_ite m (fun _ => fInvalid_delivered m) fun _ =>
    delivered_ite m (fun _ => ha.delivered hnan) fun _ => fRound_delivered m _ _ _

theorem minMax_one_nan (larger : Bool) (ha : isNaN a = true) (hb : isNaN b ≠ true) :
    minMax larger a b = b ∧ minMax larger b a = b := by
  simp [minMax, ha, hb]

theorem minMax_either (larger : Bool) (ha : isNaN a ≠ true) (hb : isNaN b ≠ true) :
    minMax larger a b = a ∨ minMax larger a b = b := by
  unfold minMax
  simp only [ha, hb, Bool.false_and, Bool.false_eq_true, if_false]
  split
  · split
    · exact .inl rfl
    · exact .inr rfl
  · split
    · exact .inl rfl
    · exact .inr rfl

theorem minMax_delivered (larger : Bool) (ha : ReadOperand m a) (hb : ReadOperand m b) : Delivered m (minMax larger a b) := by
  by_cases hna : isNaN a = true <;> by_cases hnb : isNaN b = true
  · have hboth : minMax larger a b = fNaN := by simp [minMax, hna, hnb]
    rw [hboth]
    exact delivered_fNaN (ha.ieee (not_finite_of_isNaN hna))
  · rw [(minMax_one_nan larger hna hnb).1]
    exact hb.delivered hnb
  · rw [(minMax_one_nan larger hnb hna).2]
    exact ha.delivered hna
  · rcases minMax_either larger hna hnb with h | h <;> rw [h]
    · exact ha.delivered hna
    · exact hb.delivered hnb

end

/-! Integers as numbers (CVF). -/

theorem roundEven_le (n k : Nat) : roundEven n k ≤ n / 2 ^ k + 1 := by
  unfold roundEven
  dsimp only
  rw [Nat.shiftRight_eq_div_pow]
  split <;> omega

/-- A significand has 24 bits, or is the power of two above them. -/
theorem roundedSignificand_le (n : Nat) (e : Int) : roundedSignificand n e ≤ 2 ^ 24 := by
  have hplace : e + (n.log2 + 1 : Nat) - 24 ≤ lastPlace n e := by
    unfold lastPlace
    split <;> omega
  unfold roundedSignificand
  split
  · next hle =>
    obtain ⟨k, hk, hbits⟩ : ∃ k, (e - lastPlace n e).toNat = k ∧ n.log2 + 1 + k ≤ 24 := ⟨_, rfl, by omega⟩
    rw [hk, Nat.shiftLeft_eq]
    calc n * 2 ^ k ≤ 2 ^ (n.log2 + 1) * 2 ^ k := Nat.mul_le_mul_right _ Nat.lt_log2_self.le
      _ = 2 ^ (n.log2 + 1 + k) := (Nat.pow_add _ _ _).symm
      _ ≤ 2 ^ 24 := Nat.pow_le_pow_right (by decide) hbits
  · next hle =>
    obtain ⟨k, hk, hbits⟩ : ∃ k, (lastPlace n e - e).toNat = k ∧ n.log2 + 1 ≤ 24 + k := ⟨_, rfl, by omega⟩
    have hquot : n / 2 ^ k < 2 ^ 24 := by
      rw [Nat.div_lt_iff_lt_mul (by positivity), ← Nat.pow_add]
      exact Nat.lt_log2_self.trans_le (Nat.pow_le_pow_right (by decide) hbits)
    rw [hk]
    exact (roundEven_le n k).trans hquot

/-- No integer of 32 bits comes near the largest finite number. -/
theorem roundedMagnitude_integer {n : Nat} (hn0 : n ≠ 0) (hn : n ≤ 2 ^ 31) : roundedMagnitude n 0 < 0x7F800000 := by
  have hlog : n.log2 < 32 := (Nat.log2_lt hn0).mpr (by omega)
  have hplace : lastPlace n 0 ≤ 8 := by
    unfold lastPlace
    split <;> omega
  have hsig := roundedSignificand_le n 0
  unfold roundedMagnitude
  omega

theorem fromInteger_finite (x : Nat) : FinitePattern (fromInteger x).1 := by
  have hrange : (signed 32 x).natAbs ≤ 2 ^ 31 := by
    unfold signed
    dsimp only
    split <;> omega
  unfold fromInteger
  dsimp only
  split
  · decide
  · next hz =>
    have hmag := roundedMagnitude_integer (Int.natAbs_ne_zero.mpr hz) hrange
    rw [fRound_val, if_neg (by omega)]
    exact finite_fSign_add _ hmag

/-! The lanes of an operation, and HSUM. -/

theorem withFlags_delivered {f : Nat} {r : Nat × Nat} (h : Delivered m r.1) : Delivered m (withFlags f r).val := h.mod_word

/-- A compare gives 1.0 or 0. -/
theorem compare_delivered (f : Nat) (nv : Bool) (a b : Nat) (p : Int → Int → Bool) : Delivered m (Machine.compare f nv a b p).val := by
  have h : (Machine.compare f nv a b p).val = 0 ∨ (Machine.compare f nv a b p).val = fOne := by
    unfold Machine.compare
    split
    · exact .inl rfl
    · dsimp only
      split
      · exact .inr rfl
      · exact .inl rfl
  rcases h with h | h <;> rw [h] <;> exact .inl (by decide)

/-- A magnitude or a negation of a read operand, a NaN made the default one. -/
theorem signChange_delivered {a b : Nat} (ha : ReadOperand m a) (hmod : b % 2 ^ 31 = a % 2 ^ 31) :
    Delivered m (if isNaN a then fNaN else b) := by
  split
  · next hnan => exact delivered_fNaN (ha.ieee (not_finite_of_isNaN hnan))
  · next hnan => exact (ha.of_mod hmod).delivered (by rwa [isNaN_of_mod hmod])

theorem negatedOperand {a : Nat} (ha : ReadOperand m a) : ReadOperand m (if isNaN a then a else fNeg a) := by
  split
  · exact ha
  · exact ha.fNeg

/-- Every operation of floatOps delivers of any 32 bits at its sources what its mode allows (R227, R228). -/
theorem laneOp_delivered {op : CleOp} (hop : op ∈ floatOps) (flag : Bool) (a b c : Nat) :
    Delivered m (laneOp op m flag a b c).val := by
  have hx := fRead_operand m a
  have hy := fRead_operand m b
  have hz := fRead_operand m c
  simp only [floatOps, List.mem_cons, List.not_mem_nil, or_false] at hop
  rcases hop with rfl | rfl | rfl | rfl | rfl | rfl | rfl | rfl | rfl | rfl | rfl | rfl | rfl | rfl | rfl | rfl
  · exact withFlags_delivered m (addCore_delivered hx hy)
  · exact withFlags_delivered m (addCore_delivered hx (negatedOperand m hy))
  · exact withFlags_delivered m (mulCore_delivered hx hy)
  · exact withFlags_delivered m (fmaCore_delivered hx hy hz)
  · exact withFlags_delivered m (fmaCore_delivered (negatedOperand m hx) hy hz)
  · exact withFlags_delivered m (divCore_delivered hx hy)
  · exact withFlags_delivered m (sqrtCore_delivered hx)
  · exact withFlags_delivered m (minMax_delivered false hx hy)
  · exact withFlags_delivered m (minMax_delivered true hx hy)
  · exact withFlags_delivered m (signChange_delivered m hx (Nat.mod_mod _ _))
  · exact withFlags_delivered m (signChange_delivered m hx (fNeg_mod _))
  · exact withFlags_delivered m (minMax_delivered false (minMax_delivered true hx hy).operand hz)
  · exact compare_delivered m _ _ _ _ _
  · exact compare_delivered m _ _ _ _ _
  · exact compare_delivered m _ _ _ _ _
  · exact withFlags_delivered m (.inl (fromInteger_finite a))

theorem hsum_delivered (l : List Nat) : Delivered m (hsum m l).val := by
  have hlane : ∀ i, ReadOperand m ((l.map (fRead m)).getD i (0, 0)).1 := by
    intro i
    rw [List.getD_eq_getElem?_getD, List.getElem?_map]
    cases l[i]? with
    | none => exact .of_finite (finite_fSign false)
    | some x => exact fRead_operand m x
  exact withFlags_delivered m
    (addCore_delivered (addCore_delivered (hlane 0) (hlane 1)).operand (addCore_delivered (hlane 2) (hlane 3)).operand)

theorem fRead_ieee {x : Nat} (hx : x < 2 ^ 32) : fRead {} x = (x, 0) := by
  simp only [fRead, Nat.mod_eq_of_lt hx, Bool.false_and, Bool.false_eq_true, if_false]

/-- In IEEE mode MIN and MAX of a NaN and a number give the number, whichever comes first (R227). -/
theorem minMax_lane_one_nan (larger : Bool) {a b f : Nat} (hb : b < 2 ^ 32) (hna : isNaN a = true) (hnb : isNaN b = false) :
    (withFlags f (minMax larger a b, 0)).val = b ∧ (withFlags f (minMax larger b a, 0)).val = b := by
  obtain ⟨hfirst, hsecond⟩ := minMax_one_nan (b := b) larger hna (by simp [hnb])
  unfold withFlags
  rw [hfirst, hsecond]
  exact ⟨Nat.mod_eq_of_lt hb, Nat.mod_eq_of_lt hb⟩

/-! The obligations. -/

/-- Settles O12: in saturating mode every delivered result is finite. -/
theorem saturatingIsFinite : Obligations.SaturatingIsFinite := by
  unfold Obligations.SaturatingIsFinite
  exact ⟨fun _ hop _ flag a b c => (laneOp_delivered _ hop flag a b c).operand rfl, fun _ l => (hsum_delivered _ l).operand rfl⟩

/-- Settles O13: the one NaN that is delivered is the default NaN; MIN and MAX by their choice between a NaN and a number. -/
theorem defaultNaN : Obligations.DefaultNaN := by
  unfold Obligations.DefaultNaN
  refine ⟨fun _ hop _ flag a b c => (laneOp_delivered _ hop flag a b c).eq_fNaN, fun flag a b c ha hb hna hnb => ?_⟩
  have hmin := fun f => minMax_lane_one_nan false (f := f) hb hna hnb
  have hmax := fun f => minMax_lane_one_nan true (f := f) hb hna hnb
  simp only [laneOp, fRead_ieee ha, fRead_ieee hb]
  exact ⟨(hmin _).1, (hmin _).2, (hmax _).1, (hmax _).2⟩

end Sys2Proof.Proofs
end

section
/-!
SUPPORT. The registers of the Control Law Engine's window, and the commits of staged words to its memories
(06_control_law_engine.md R205, R224, R233, R237).
-/

namespace Sys2Proof.Proofs

open Sys2Proof Sys2Proof.Machine Sys2Proof.Laws

/-! Registers of the engine's window: those of the unit below 0x400, then 0x20 bytes for each slot. -/

/-- A register below the slots' part of the window, its index within its array. -/
abbrev EngineReg (r : Reg) (i : Nat := 0) : Prop := r.blk = .cle ∧ r.off + i * r.s1 < 0x400

/-- A register that every slot has. -/
abbrev SlotReg (r : Reg) : Prop := r.blk = .cle ∧ r.s1 = 0x20 ∧ 0x400 ≤ r.off ∧ r.off < 0x420

theorem slotKey_ne_engineKey {r q : Reg} {i k : Nat} (hr : SlotReg r) (hq : EngineReg q k) : r.key i 0 ≠ q.key k 0 := by
  obtain ⟨hrb, hrs, hrlo, -⟩ := hr
  obtain ⟨hqb, hqo⟩ := hq
  unfold Reg.key
  rw [hrb, hqb]
  omega

/-- Slot registers at two places of a slot's 0x20 bytes have different keys, whichever slots they are of. -/
theorem slotKey_ne {r q : Reg} {i k : Nat} (hr : SlotReg r) (hq : SlotReg q) (h : r.off ≠ q.off) : r.key i 0 ≠ q.key k 0 := by
  obtain ⟨hrb, hrs, hrlo, hrhi⟩ := hr
  obtain ⟨hqb, hqs, hqlo, hqhi⟩ := hq
  unfold Reg.key
  rw [hrb, hrs, hqb, hqs]
  omega

/-- A register of one slot is not that of another. -/
theorem slotKey_ne_of_slot {r : Reg} {i k : Nat} (hr : SlotReg r) (h : i ≠ k) : r.key i 0 ≠ r.key k 0 := by
  obtain ⟨-, hrs, -⟩ := hr
  unfold Reg.key
  rw [hrs]
  omega

/-- Two fields of slot registers: of different registers, or at different bits of one. -/
abbrev SlotFieldsApart (x y : Fld) : Prop :=
  SlotReg x.reg ∧ SlotReg y.reg ∧ x.lo + x.width ≤ 32 ∧
    (x.reg.off = y.reg.off → y.reg = x.reg ∧ (y.lo + y.width ≤ x.lo ∨ x.lo + x.width ≤ y.lo))

section
variable (d : Dev)

theorem fg_wr_ne {r : Reg} {x : Fld} (v : DWord) {i j k : Nat} (h : r.key i j ≠ x.reg.key k 0) : (d.wr r v i j).fg x k = d.fg x k := by
  rw [Dev.fg, Dev.fg, rd_wr_ne _ _ _ _ _ _ _ _ h]

/-- A field apart from the one written holds what it held, in the same slot and in every other. -/
theorem fg_fs_slot {x y : Fld} (v i k : Nat) (h : SlotFieldsApart x y) : (d.fs x v i).fg y k = d.fg y k := by
  obtain ⟨hx, hy, hfit, hsame⟩ := h
  by_cases hoff : x.reg.off = y.reg.off
  · obtain ⟨hreg, hbits⟩ := hsame hoff
    by_cases hik : i = k
    · subst hik
      exact fg_fs_same_reg d x y v i 0 hreg hfit hbits
    · exact fg_fs_ne d x y v i 0 k 0 (hreg.symm ▸ slotKey_ne_of_slot hx hik)
  · exact fg_fs_ne d x y v i 0 k 0 (slotKey_ne hx hy hoff)

end

/-! Staged words. -/

/-- The word that three DATA registers and a write of the fourth stage (R205). -/
def stagedBy (d : Dev) (r : Reg) (v : DWord) : Word :=
  BitVec.ofNat 128 ((d.rd r 0).toNat + (d.rd r 1).toNat * 2 ^ 32 + (d.rd r 2).toNat * 2 ^ 64 + v.toNat * 2 ^ 96)

/-- The number that four dwords side by side spell. -/
theorem sum_dwords (a b c e : Nat) : [a <<< (32 * 0), b <<< (32 * 1), c <<< (32 * 2), e <<< (32 * 3)].sum =
    a + b * 2 ^ 32 + c * 2 ^ 64 + e * 2 ^ 96 := by
  rw [List.sum_cons, List.sum_cons, List.sum_cons, List.sum_cons, List.sum_nil, Nat.shiftLeft_eq, Nat.shiftLeft_eq,
    Nat.shiftLeft_eq, Nat.shiftLeft_eq]
  ring

theorem stagedWord_wr {r : Reg} (d : Dev) (v : DWord) (hs : r.s1 = 4) : stagedWord (d.wr r v 3) r = stagedBy d r v := by
  have hkeep : ∀ k, k ≠ 3 → (d.wr r v 3).rd r k = d.rd r k := fun k hk => by
    refine rd_wr_ne _ _ _ _ _ _ _ _ ?_
    unfold Reg.key
    rw [hs]
    omega
  have hrange : List.range 4 = [0, 1, 2, 3] := rfl
  unfold stagedWord stagedBy
  rw [hrange, List.map_cons, List.map_cons, List.map_cons, List.map_cons, List.map_nil, hkeep 0 (by decide), hkeep 1 (by decide),
    hkeep 2 (by decide), rd_wr, sum_dwords]

/-! Data memory. -/

theorem dmWord_putDm (d : Dev) (a b : Nat) (w : Word) :
    (d.putDm a w).dmWord b = if a % 16384 = b % 16384 then w else d.dmWord b := sparseGet_set _ _ _ _ _

theorem dmCommit_eq (v : DWord) (d : Dev) : dmCommit v d =
    wordTake true (if dmRefused (d.wr .CLE_DM_DATA v 3) (d.fg .CLE_DM_ADDR) then (d.wr .CLE_DM_DATA v 3).fs .CLE_STAT_REFUSE 1
      else (d.wr .CLE_DM_DATA v 3).putDm (d.fg .CLE_DM_ADDR) (stagedBy d .CLE_DM_DATA v)) := by
  unfold dmCommit
  dsimp only
  rw [fg_wr_ne d v (x := .CLE_DM_ADDR) (by decide), stagedWord_wr d v rfl]

/-- Staging a word leaves every slot's registers, so a bank in use is refused by what the slots say before the write (R224). -/
theorem dmRefused_of_slot {v : DWord} {n a : Nat} {d : Dev} (hn : n < 80)
    (h : (d.started n = true ∧ (d.bankOfSlot n).1 + d.fg .SLOT_CTL_ACTIVE n * (d.bankOfSlot n).2 ≤ a ∧
        a < (d.bankOfSlot n).1 + (d.fg .SLOT_CTL_ACTIVE n + 1) * (d.bankOfSlot n).2) ∨
      (d.is .SLOT_CTL_PENDING n = true ∧ (d.bankOfSlot n).1 ≤ a ∧ a < (d.bankOfSlot n).1 + 2 * (d.bankOfSlot n).2)) :
    dmRefused (d.wr .CLE_DM_DATA v 3) a = true := by
  have hkeep : ∀ x : Fld, SlotReg x.reg → (d.wr .CLE_DM_DATA v 3).fg x n = d.fg x n := fun x hx =>
    fg_wr_ne d v (slotKey_ne_engineKey hx (by decide)).symm
  have hstarted : (d.wr .CLE_DM_DATA v 3).started n = d.started n := by
    rw [Dev.started, Dev.started, Dev.is, Dev.is, hkeep _ (by decide)]
  have hbank : (d.wr .CLE_DM_DATA v 3).bankOfSlot n = d.bankOfSlot n := by
    rw [Dev.bankOfSlot, Dev.bankOfSlot, hstarted, rd_wr_ne _ _ .SLOT_BANK _ _ _ _ _ (slotKey_ne_engineKey (by decide) (by decide)).symm]
    rfl
  refine List.any_eq_true.mpr ⟨n, List.mem_range.mpr hn, ?_⟩
  dsimp only
  rw [hstarted, hbank, Dev.is, hkeep .SLOT_CTL_ACTIVE (by decide), hkeep .SLOT_CTL_PENDING (by decide)]
  simpa [Dev.is, and_assoc] using h

theorem dmWord_wordTake (dm : Bool) (d : Dev) (b : Nat) : (wordTake dm d).dmWord b = d.dmWord b := by cases dm <;> rfl

/-- Outside the register that the staged word's last dword is in, a commit writes data memory alone. -/
theorem commitDm_changes (d : Dev) (v : DWord) (a : Nat) (w : Word) :
    let e := wordTake true ((d.wr .CLE_DM_DATA v 3).putDm a w)
    Changes [Reg.CLE_DM_DATA.key 3 0] d e { d with eng := { d.eng with dm := e.eng.dm, dmRead := e.eng.dmRead } } :=
  ⟨regsKept_wr d _ v 3 0, rfl⟩

/-- Settles O16: the commit by its two branches, and what staging the last dword leaves of the slots' registers. -/
theorem refusedDataMemory : Obligations.RefusedDataMemory := by
  unfold Obligations.RefusedDataMemory
  refine ⟨fun val n s h => ?_, fun val s hfree => ?_⟩
  · show State.onDev _ _ = _
    rw [onDev_next, dmCommit_eq, if_pos (dmRefused_of_slot n.isLt h)]
  · refine ⟨_, rfl, rfl, rfl, ?_⟩
    dsimp only
    rw [dmCommit_eq, if_neg (by simp [hfree])]
    refine ⟨by rw [dmWord_wordTake, dmWord_putDm, if_pos rfl, stagedBy], fun a ha => ?_, commitDm_changes _ _ _ _⟩
    have haddr : s.dev.fg .CLE_DM_ADDR < 2 ^ 14 := bitsOf_lt _ _ _
    rw [dmWord_wordTake, dmWord_putDm, if_neg (by omega)]
    rfl

end Sys2Proof.Proofs
end

section
/-!
SUPPORT. The part of the unit that the Control Law Engine's slots and samples live in, over the updates that have no part in it, and
what stopping, swapping and faulting a slot leave of it (06_control_law_engine.md R210, R212, R221, R223, R224).
-/

namespace Sys2Proof.Proofs

open Sys2Proof Sys2Proof.Machine Sys2Proof.Laws

/-! The engine's side: samples, vector registers, data memory, and the registers of its window. -/

/-- A key of the engine's window. -/
def inEngineWindow (k : Nat) : Bool := decide (0x300000 ≤ k) && decide (k < 0x400000)

/-- What the engine's samples work on. -/
def engineSide (d : Dev) : List CleSample × Sparse Word × Sparse Word × Sparse DWord :=
  (d.eng.samples, d.eng.vregs, d.eng.dm, d.regs.filter fun e => inEngineWindow e.1)

theorem filter_sparseIns (p : Nat → Bool) (m : Sparse DWord) {k : Nat} (v : DWord) (hk : p k = false) :
    (sparseIns m k v).filter (fun e => p e.1) = m.filter fun e => p e.1 := by
  induction m with
  | nil => simp [sparseIns, hk]
  | cons e m ih =>
    obtain ⟨a, w⟩ := e
    unfold sparseIns
    split
    · simp [List.filter_cons, hk]
    · simp only [List.filter_cons, ih]

/-- A write outside a part of a store leaves that part. -/
theorem filter_sparseSet (p : Nat → Bool) (z : DWord) (m : Sparse DWord) {k : Nat} (v : DWord) (hk : p k = false) :
    (sparseSet z m k v).filter (fun e => p e.1) = m.filter fun e => p e.1 := by
  have hdrop : (sparseDrop (· == k) m).filter (fun e => p e.1) = m.filter fun e => p e.1 := by
    unfold sparseDrop
    rw [List.filter_filter]
    refine List.filter_congr fun e _ => ?_
    by_cases he : e.1 = k
    · simp [he, hk]
    · simp [he]
  unfold sparseSet
  split
  · exact hdrop
  · rw [filter_sparseIns p _ v hk, hdrop]

/-- A register outside the engine's window: of a window above it, or within a window below it. -/
abbrev OutsideEngine (r : Reg) (i : Nat := 0) (j : Nat := 0) : Prop :=
  3 < r.blk.code ∨ (r.blk.code < 3 ∧ r.off + i * r.s1 + j * r.s2 < 0x100000)

section
variable {d e : Dev}

theorem samples_of_engineSide (h : engineSide e = engineSide d) : e.eng.samples = d.eng.samples := congrArg (·.1) h

theorem vregs_of_engineSide (h : engineSide e = engineSide d) : e.eng.vregs = d.eng.vregs := congrArg (·.2.1) h

theorem dm_of_engineSide (h : engineSide e = engineSide d) : e.eng.dm = d.eng.dm := congrArg (·.2.2.1) h

/-- The registers of the engine's window are on its side. -/
theorem fg_of_engineSide {x : Fld} {i : Nat} (h : engineSide e = engineSide d)
    (hx : x.reg.blk = .cle ∧ x.reg.off + i * x.reg.s1 < 0x100000) : e.fg x i = d.fg x i := by
  obtain ⟨hblk, hoff⟩ := hx
  have hin : inEngineWindow (x.reg.key i 0) = true := by
    have hcode : Block.cle.code = 3 := rfl
    simp only [inEngineWindow, Reg.key, hblk, hcode, Bool.and_eq_true, decide_eq_true_eq]
    omega
  have hget : ∀ u : Dev, u.rd x.reg i =
      sparseGet (x.reg.resetAt i 0) (u.regs.filter fun c => inEngineWindow c.1) (x.reg.key i 0) := fun u => by
    rw [sparseGet_filter, if_pos hin, Dev.rd]
  have hregs : (e.regs.filter fun c => inEngineWindow c.1) = d.regs.filter fun c => inEngineWindow c.1 := congrArg (·.2.2.2) h
  rw [Dev.fg, Dev.fg, hget, hget, hregs]

theorem engineSide_wr (d : Dev) {r : Reg} (v : DWord) {i j : Nat} (h : OutsideEngine r i j) : engineSide (d.wr r v i j) = engineSide d := by
  have hout : inEngineWindow (r.key i j) = false := by
    unfold inEngineWindow Reg.key
    rcases h with h | ⟨h, hoff⟩
    · simp only [Bool.and_eq_false_iff, decide_eq_false_iff_not]
      omega
    · simp only [Bool.and_eq_false_iff, decide_eq_false_iff_not]
      omega
  unfold engineSide
  rw [wr_eng, show (d.wr r v i j).regs = sparseSet (r.resetAt i j) d.regs (r.key i j) v from rfl, filter_sparseSet _ _ _ _ hout]

/-- A field of a window above the engine's. -/
theorem engineSide_fs_above (d : Dev) (x : Fld) (v i : Nat) (h : 3 < x.reg.blk.code := by decide) :
    engineSide (d.fs x v i) = engineSide d := engineSide_wr d _ (.inl h)

/-- A register of a window below the engine's, its whole array within its window of 1 MiB. -/
abbrev BelowEngine (r : Reg) : Prop := r.blk.code < 3 ∧ 0 < r.n2 ∧ r.off + (r.n1 - 1) * r.s1 + (r.n2 - 1) * r.s2 < 0x100000

theorem engineSide_wr_below (d : Dev) {r : Reg} (v : DWord) {i j : Nat} (h : BelowEngine r) (hi : i < r.n1) (hj : j < r.n2) :
    engineSide (d.wr r v i j) = engineSide d := by
  obtain ⟨hcode, -, hfit⟩ := h
  have hrow : i * r.s1 ≤ (r.n1 - 1) * r.s1 := Nat.mul_le_mul_right _ (by omega)
  have hcol : j * r.s2 ≤ (r.n2 - 1) * r.s2 := Nat.mul_le_mul_right _ (by omega)
  exact engineSide_wr d v (.inr ⟨hcode, by omega⟩)

theorem engineSide_fs_below (d : Dev) (x : Fld) (v : Nat) {i : Nat} (hi : i < x.reg.n1) (h : BelowEngine x.reg := by decide) :
    engineSide (d.fs x v i) = engineSide d := engineSide_wr_below d _ h hi h.2.1

theorem engineSide_bump_below (d : Dev) (r : Reg) {i : Nat} (hi : i < r.n1) (h : BelowEngine r := by decide) :
    engineSide (d.bump r i) = engineSide d := engineSide_wr_below d _ h hi h.2.1

end

section
variable (d : Dev)

@[simp] theorem engineSide_onFw (f : Firmware → Firmware) : engineSide (d.onFw f) = engineSide d := rfl
@[simp] theorem engineSide_onWsg (o : Nat) (f : Wsg → Wsg) : engineSide (d.onWsg o f) = engineSide d := rfl
@[simp] theorem engineSide_onSled (o : Nat) (f : Sled → Sled) : engineSide (d.onSled o f) = engineSide d := rfl
@[simp] theorem engineSide_onSpn (f : Spindle → Spindle) : engineSide (d.onSpn f) = engineSide d := rfl
@[simp] theorem engineSide_onServo (o : Nat) (f : Servo → Servo) : engineSide (d.onServo o f) = engineSide d := rfl
@[simp] theorem engineSide_onJournal (f : Journal → Journal) : engineSide (d.onJournal f) = engineSide d := rfl
@[simp] theorem engineSide_endCmd (id cls detail a b : Nat) : engineSide (d.endCmd id cls detail a b) = engineSide d := rfl
@[simp] theorem engineSide_setOut (p v : Nat) : engineSide (d.setOut p v) = engineSide d := rfl
@[simp] theorem engineSide_setInhibit (o : Nat) (on : Bool) : engineSide (d.setInhibit o on) = engineSide d := rfl

theorem engineSide_setMode (m : Nat) : engineSide (d.setMode m) = engineSide d := engineSide_fs_above d .PMU_STAT_MODE m 0

/-! The spindle and the sleds. -/

theorem engineSide_spnEnter (st : Nat) : engineSide (spnEnter st d) = engineSide d := by
  unfold spnEnter spnSettle
  rw [cond_eq engineSide fun e => engineSide_fs_above e .SPN_STAT_STATE _ _, engineSide_onSpn,
    engineSide_fs_above d .SPN_STAT_STATE]

theorem engineSide_spnStop : engineSide (spnStop d) = engineSide d := by
  unfold spnStop
  split
  · exact engineSide_fs_above d .SPN_STAT_REFUSED 1 0
  · exact engineSide_spnEnter d _

theorem engineSide_setPos (o : Nat) (p : Int) : engineSide (d.setPos o p) = engineSide d := engineSide_fs_above d .SLD_POS _ o

theorem engineSide_sldHold (opu : Nat) (frost : Bool) (pos : Int) : engineSide (sldHold opu frost pos d) = engineSide d := by
  unfold sldHold
  rw [engineSide_onSled, cond_eq engineSide fun e => engineSide_fs_above e .SLD_STAT_POS_UNSURE 1 opu,
    cond_eq engineSide fun e => engineSide_fs_above e .SLD_STAT_FROST_HOLD 1 opu,
    cond_eq engineSide fun e => engineSide_fs_above e .SLD_STAT_HOMED 0 opu,
    cond_eq engineSide fun e => engineSide_fs_above e .SLD_STAT_STATE _ opu, cond_eq engineSide fun e => engineSide_setPos e opu pos]

theorem engineSide_sldMode (opu speed : Nat) : engineSide (sldMode opu speed d) = engineSide d := by
  have hstrong : ∀ v, engineSide (d.fs .SLD_STAT_STRONG v opu) = engineSide d := fun v => engineSide_fs_above d _ v opu
  unfold sldMode
  extract_lets up dn
  split
  · exact hstrong 0
  · exact hstrong 1
  · split
    · exact hstrong 1
    · split
      · exact hstrong 0
      · rfl

theorem engineSide_sledTarget (opu : Nat) (cle : Bool) (t pos : Int) (speed : Nat) :
    engineSide (sledTarget opu cle t pos speed d) = engineSide d := by
  unfold sledTarget
  split
  · rfl
  · dsimp only
    split
    · exact engineSide_fs_above d .SLD_STAT_TGT_IGN 1 opu
    · split
      · rfl
      · rw [engineSide_fs_above _ .SLD_STAT_STATE _ opu, engineSide_sldMode, engineSide_onSled, engineSide_setPos,
          cond_eq engineSide fun e => engineSide_fs_above e .SLD_STAT_LIMIT 1 opu]

/-- The safe value of a port is no part of what samples work on (R210). -/
theorem engineSide_portSafe (p : Nat) : engineSide (portSafe p d) = engineSide d := by
  unfold portSafe dutyWrite
  dsimp only
  split
  · split
    · exact engineSide_setOut d _ _
    · split
      · exact engineSide_sledTarget d _ _ _ _ _
      · split
        · exact engineSide_setInhibit d _ _
        · rfl
  · split
    · split
      · exact engineSide_onSpn d _
      · rfl
    · rfl

theorem engineSide_spnSlotFault : engineSide (spnSlotFault d) = engineSide d := by
  unfold spnSlotFault
  split
  · exact engineSide_spnEnter d _
  · rfl

/-! Events and attentions. -/

theorem engineSide_event (x : EventInfo) : engineSide (d.event x) = engineSide d := by
  obtain ⟨j, h | ⟨v, h⟩⟩ := event_journal d x
  · rw [h, engineSide_onJournal]
  · rw [h, engineSide_fs_above _ .RJ_STAT_FULL, engineSide_onJournal]

theorem engineSide_attn (code : Nat) : engineSide (d.attn code) = engineSide d := by
  unfold Dev.attn
  dsimp only
  rw [engineSide_fs_above _ .HP_UNIT_ATTN_ASEQ, engineSide_fs_above _ .HP_UNIT_ATTN_ATTN, engineSide_fs_above _ .HP_UNIT_ATTN_PEND]

/-! Lanes and slices. -/

theorem engineSide_laneClose {opu : Nat} (ho : opu < 4) (w : Nat) : engineSide (laneClose opu w d) = engineSide d := by
  unfold laneClose laneOpenSet onLane
  rw [engineSide_fs_below _ _ _ (by exact ho), engineSide_fs_below _ _ _ (by exact ho), engineSide_onWsg]

theorem engineSide_frameAbandon {opu : Nat} (ho : opu < 4) (w p : Nat) (gate : Bool) (sent : Bytes) :
    engineSide (frameAbandon opu w p gate sent d) = engineSide d := by
  unfold frameAbandon onLane
  dsimp only
  rw [engineSide_laneClose _ ho, engineSide_onWsg, engineSide_onFw,
    cond_eq engineSide fun e => engineSide_bump_below e .WSG_CNT_GATE (by exact ho), engineSide_fs_below _ _ _ (by exact ho),
    engineSide_bump_below _ _ (by exact ho)]

theorem engineSide_lanesStop {opu : Nat} (ho : opu < 4) (gate : Bool) : engineSide (lanesStop gate opu d) = engineSide d := by
  refine each_eq d engineSide (fun e w => ?_) _
  unfold laneStop
  split
  · rfl
  · split
    · exact engineSide_frameAbandon e ho _ _ _ _
    · exact engineSide_laneClose e ho _

theorem regsOfRcs_below : ∀ r ∈ regsOfRcs, BelowEngine r ∧ 4 ≤ r.n1 := by decide

theorem engineSide_sliceRegsReset {opu : Nat} (ho : opu < 4) : engineSide (sliceRegsReset opu d) = engineSide d := by
  refine each_inv (P := fun e => engineSide e = engineSide d) rfl fun e r hr he => ?_
  obtain ⟨hbelow, hrows⟩ := regsOfRcs_below r hr
  split
  · next h96 =>
    refine each_inv (P := fun u => engineSide u = engineSide d) he fun u n hn hu =>
      each_inv (P := fun w => engineSide w = engineSide d) hu fun w j hj hw => ?_
    exact (engineSide_wr_below w _ hbelow (h96 ▸ slicesOf_lt ho hn) (List.mem_range.mp hj)).trans hw
  · exact (engineSide_wr_below e _ hbelow (by omega) hbelow.2.1).trans he

end

end Sys2Proof.Proofs
end

section
/-!
SUPPORT. What stopping, swapping and faulting a slot, halting the engine and withdrawing the open region leave
(06_control_law_engine.md R212, R221 to R224, R232).
-/

namespace Sys2Proof.Proofs

open Sys2Proof Sys2Proof.Machine Sys2Proof.Laws

/-- A slot's field and a register of the engine's own: a write of the one leaves the other. -/
theorem fg_fs_engine (d : Dev) {x y : Fld} (v i : Nat) {k : Nat} (hx : SlotReg x.reg) (hy : EngineReg y.reg k) :
    (d.fs x v i).fg y k = d.fg y k := fg_fs_ne d x y v i 0 k 0 (slotKey_ne_engineKey hx hy)

/-! Bank swaps (R223, R224). -/

/-- The fields that a swap writes, or asks for it with. -/
abbrev bankFields : List Fld := [.SLOT_CTL_ACTIVE, .SLOT_CTL_PENDING, .SLOT_CTL_BANK_GEN]

section
variable {P : Dev → Prop} {n : Nat}

/-- What a swap, the request of one, a word of data memory and firmware's waiting banks all leave holds after a waiting swap has been
settled. -/
theorem bankSettle_inv (hswap : ∀ e, P e → P (bankSwap n e)) (hask : ∀ e, P e → P (e.fs .SLOT_CTL_PENDING 1 n))
    (hput : ∀ e a w, P e → P (e.putDm a w)) (hwaits : ∀ e l, P e → P (e.onFw fun w => { w with bankWaits := l })) {d : Dev} (h : P d) :
    P (bankSettle n d) := by
  have hwrite : ∀ e ws, P e → P (bankWrite n ws e) := fun e ws he => by
    have hall : ∀ base, P (e.each ws.zipIdx fun u p => u.putDm (base + p.2) p.1) := fun _ => each_inv he fun u _ _ hu => hput u _ _ hu
    unfold bankWrite swapWrite
    extract_lets base
    split
    · exact hall base
    · split
      · exact hask _ (hall base)
      · exact hswap _ (hall base)
  refine cond_inv h fun e he => ?_
  unfold bankTake
  dsimp only
  split
  · exact hswap e he
  · exact hwrite _ _ (hwaits _ _ (hswap e he))

end

/-- What swaps leave of the engine: samples, vector registers, ticks that wait, and the slots that firmware holds. -/
structure BankKept (d e : Dev) : Prop where
  samples : e.eng.samples = d.eng.samples
  vregs : e.eng.vregs = d.eng.vregs
  ticked : ∀ k, (e.slot k).ticked = (d.slot k).ticked
  openHeld : e.fw.openHeld = d.fw.openHeld

section
variable (n : Nat) (d : Dev)

theorem BankKept.bankSwap {n : Nat} {d e : Dev} (h : BankKept d e) : BankKept d (bankSwap n e) := by
  obtain ⟨hsamples, hvregs, hticked, hheld⟩ := h
  refine ⟨hsamples, hvregs, fun k => ?_, hheld⟩
  unfold Machine.bankSwap
  rw [slot_onSlot]
  split
  · next hk => exact (hk ▸ rfl : _ = (e.slot k).ticked).trans (hticked k)
  · exact hticked k

theorem bankSettle_kept : BankKept d (bankSettle n d) :=
  bankSettle_inv (fun _ he => he.bankSwap) (fun _ ⟨hs, hv, ht, ho⟩ => ⟨hs, hv, ht, ho⟩) (fun _ _ _ ⟨hs, hv, ht, ho⟩ => ⟨hs, hv, ht, ho⟩)
    (fun _ _ ⟨hs, hv, ht, ho⟩ => ⟨hs, hv, ht, ho⟩) ⟨rfl, rfl, fun _ => rfl, rfl⟩

/-- A field beside those that a swap writes is left by it. -/
theorem bankSettle_fg {y : Fld} {k : Nat} (h : ∀ x ∈ bankFields, ∀ (e : Dev) v, (e.fs x v n).fg y k = e.fg y k) :
    (bankSettle n d).fg y k = d.fg y k := by
  have hactive := h .SLOT_CTL_ACTIVE (by simp)
  have hpending := h .SLOT_CTL_PENDING (by simp)
  have hgen := h .SLOT_CTL_BANK_GEN (by simp)
  refine bankSettle_inv (P := fun e => e.fg y k = d.fg y k) (fun e he => ?_) (fun e he => (hpending e 1).trans he)
    (fun _ _ _ he => he) (fun _ _ he => he) rfl
  unfold Machine.bankSwap
  rw [onSlot_fg, hgen, hpending, hactive, he]

/-- With no bank of firmware's waiting, a swap that waits writes no data memory. -/
theorem bankSettle_dm (h : sparseGet [] d.fw.bankWaits n = []) : (bankSettle n d).eng.dm = d.eng.dm := by
  have htake : bankTake n d = bankSwap n d := by
    have hwaits : sparseGet [] (bankSwap n d).fw.bankWaits n = [] := h
    unfold bankTake
    dsimp only
    rw [hwaits]
  unfold bankSettle Dev.cond
  rw [htake]
  split <;> rfl

/-! A slot that stops (R212). -/

theorem slotStop_eq : slotStop n d =
    bankSettle n (((d.fs .SLOT_CFG_EN 0 n).fs .SLOT_CTL_STARTED 0 n).onSlot n fun s => { s with ticked := false }) := rfl

/-- A field beside those that a stop or a swap writes is left by a stop. -/
theorem slotStop_fg {y : Fld} {k : Nat}
    (h : ∀ x ∈ .SLOT_CFG_EN :: .SLOT_CTL_STARTED :: bankFields, ∀ (e : Dev) v, (e.fs x v n).fg y k = e.fg y k) :
    (slotStop n d).fg y k = d.fg y k := by
  rw [slotStop_eq, bankSettle_fg _ _ fun x hx => h x (by simp [hx]), onSlot_fg, h .SLOT_CTL_STARTED (by simp), h .SLOT_CFG_EN (by simp)]

/-- A field of one bit written 0. -/
theorem fg_fs_zero (d : Dev) {x : Fld} (i : Nat) (hx : x.lo + x.width ≤ 32) : (d.fs x 0 i).fg x i = 0 := by
  rw [fg_fs _ _ _ _ _ hx, Nat.zero_mod]

/-- Bank fields lie beside a slot's EN and STARTED. -/
theorem bankFields_beside : ∀ y ∈ [Fld.SLOT_CFG_EN, .SLOT_CTL_STARTED], ∀ x ∈ bankFields, SlotFieldsApart x y := by decide

theorem slotStop_enabled : (slotStop n d).is .SLOT_CFG_EN n = false := by
  rw [slotStop_eq, Dev.is, bankSettle_fg _ _ fun x hx e v => fg_fs_slot e v n n (bankFields_beside _ (by decide) x hx), onSlot_fg,
    fg_fs_slot _ _ _ _ (by decide), fg_fs_zero _ _ (by decide)]
  rfl

theorem slotStop_started : (slotStop n d).started n = false := by
  rw [slotStop_eq, Dev.started, Dev.is, bankSettle_fg _ _ fun x hx e v => fg_fs_slot e v n n (bankFields_beside _ (by decide) x hx),
    onSlot_fg, fg_fs_zero _ _ (by decide)]
  rfl

theorem slotStop_samples : (slotStop n d).eng.samples = d.eng.samples := (bankSettle_kept n _).samples

theorem slotStop_vregs : (slotStop n d).eng.vregs = d.eng.vregs := (bankSettle_kept n _).vregs

theorem slotStop_openHeld : (slotStop n d).fw.openHeld = d.fw.openHeld := (bankSettle_kept n _).openHeld

/-- A register of the engine's own is left by a slot that stops. -/
theorem slotStop_engine {y : Fld} {k : Nat} (hy : EngineReg y.reg k) : (slotStop n d).fg y k = d.fg y k :=
  slotStop_fg n d fun x hx e v => fg_fs_engine e v n ((by decide : ∀ x ∈ Fld.SLOT_CFG_EN :: .SLOT_CTL_STARTED :: bankFields, SlotReg x.reg) x hx) hy

/-! A slot that faults (R203, R221). -/

theorem postEvent_cases (code : Nat) (fault : Bool) : (∃ l, postEvent code n fault d = d.onEng fun e => { e with events := l, irq := true }) ∨
    postEvent code n fault d = d.fs .CLE_STAT_EVT_OVF 1 := by
  unfold postEvent
  split
  · exact .inl ⟨_, rfl⟩
  · exact .inr rfl

theorem postEvent_eng (code : Nat) (fault : Bool) : (postEvent code n fault d).eng.samples = d.eng.samples ∧
    (postEvent code n fault d).eng.vregs = d.eng.vregs ∧ (postEvent code n fault d).eng.dm = d.eng.dm := by
  rcases postEvent_cases n d code fault with ⟨l, h⟩ | h <;> rw [h] <;> exact ⟨rfl, rfl, rfl⟩

theorem postEvent_fg (code : Nat) (fault : Bool) {y : Fld} {k : Nat} (h : ∀ e : Dev, (e.fs .CLE_STAT_EVT_OVF 1).fg y k = e.fg y k) :
    (postEvent code n fault d).fg y k = d.fg y k := by
  rcases postEvent_cases n d code fault with ⟨l, hl⟩ | hovf
  · rw [hl, onEng_fg]
  · rw [hovf, h]

/-- What a fault makes of the unit: the slot stopped without its sample, then outputs at their safe values, and the cause posted. -/
theorem slotFault_eq (cause : Nat) : ∃ e, engineSide e = engineSide (slotStop n (d.dropSample n)) ∧
    slotFault cause n d = postEvent 0 n true ((e.fs .SLOT_STAT_FAULT 1 n).fs .SLOT_STAT_CAUSE cause n) := by
  unfold slotFault
  refine ⟨_, ?_, rfl⟩
  rw [cond_eq engineSide fun e => engineSide_setInhibit e _ true, cond_eq engineSide fun e => engineSide_spnSlotFault e,
    each_eq _ engineSide fun e p => engineSide_portSafe e p]
  rfl

theorem slotFault_halt (cause : Nat) : (slotFault cause n d).fg .CLE_STAT_HALT = d.fg .CLE_STAT_HALT := by
  obtain ⟨e, he, hfault⟩ := slotFault_eq n d cause
  rw [hfault, postEvent_fg _ _ _ _ fun e => fg_fs_same_reg e .CLE_STAT_EVT_OVF .CLE_STAT_HALT 1 0 0 rfl (by decide) (by decide),
    fg_fs_engine _ _ _ (by decide) (by decide), fg_fs_engine _ _ _ (by decide) (by decide), fg_of_engineSide he (by decide),
    slotStop_engine _ _ (by decide)]
  rfl

end

end Sys2Proof.Proofs
end

section
/-!
SUPPORT. The engine's halt, its bank swaps, control store, event FIFO and the audit of the open slots (06_control_law_engine.md R203,
R205, R222, R223, R233, R235).
-/

namespace Sys2Proof.Proofs

open Sys2Proof Sys2Proof.Machine Sys2Proof.Laws

/-! The halted engine (R222). -/

theorem cleMbox_above : ∀ x : Fld, x.reg = .CLE_STAT → ∀ i, Reg.CLE_MBOX.key i 0 ≠ x.reg.key 0 0 := by
  intro x hx i
  have hmbox : Reg.CLE_MBOX.key i 0 = 0x300200 + i * 4 := rfl
  have hstat : Reg.CLE_STAT.key 0 0 = 0x300004 := by decide
  rw [hx, hmbox, hstat]
  omega

theorem openWithdraw_halted {d : Dev} (h : d.is .CLE_STAT_HALT = true) :
    openWithdraw d = (d.wr .CLE_IOREL 0#32).onFw fun w => { w with openHeld := [] } := by
  have hkeep : (d.wr .CLE_IOREL 0#32).is .CLE_STAT_HALT = true := by rwa [Dev.is, fg_wr_ne _ _ (by decide)]
  unfold openWithdraw
  dsimp only
  rw [onFw_is, hkeep]
  rfl

/-- The engine is halted and holds no sample. -/
structure HaltedIdle (d : Dev) : Prop where
  halt : d.is .CLE_STAT_HALT = true
  samples : d.eng.samples = []

section
variable {d : Dev}

theorem HaltedIdle.of_eq {e : Dev} (h : HaltedIdle d) (hhalt : e.fg .CLE_STAT_HALT = d.fg .CLE_STAT_HALT)
    (hsamples : e.eng.samples = d.eng.samples) : HaltedIdle e :=
  ⟨(congrArg (· == 1) hhalt).trans h.halt, hsamples.trans h.samples⟩

theorem HaltedIdle.of_engineSide {e : Dev} (h : HaltedIdle d) (he : engineSide e = engineSide d) : HaltedIdle e :=
  h.of_eq (fg_of_engineSide he (by decide)) (samples_of_engineSide he)

theorem HaltedIdle.slotStop (h : HaltedIdle d) (n : Nat) : HaltedIdle (slotStop n d) :=
  h.of_eq (slotStop_engine n d (by decide)) (slotStop_samples n d)

theorem HaltedIdle.svSet (h : HaltedIdle d) (opu : Nat) (x : SvFld) (v : Nat) : HaltedIdle (d.svSet opu x v) :=
  h.of_eq (fg_wr_ne d _ (cleMbox_above _ rfl _)) rfl

theorem HaltedIdle.servoOpen (h : HaltedIdle d) (opu : Nat) : HaltedIdle (servoOpen opu d) := by
  unfold Machine.servoOpen Dev.setSv
  refine HaltedIdle.of_engineSide (HaltedIdle.svSet (cond_inv (HaltedIdle.svSet ?_ _ _ _) fun e he => ?_) _ _ _)
    (engineSide_onServo _ _ _)
  · refine each_inv (each_inv h fun e n _ he => he.slotStop n) fun e o _ he => ?_
    exact he.of_engineSide (engineSide_setOut _ _ _)
  · exact he.of_engineSide (engineSide_setInhibit _ _ _)

theorem HaltedIdle.withStages (h : HaltedIdle d) {o : Sparse OpuStage} {l : List StalledAccess} :
    HaltedIdle { d with opuStage := o, stalled := l } := ⟨h.halt, h.samples⟩

theorem HaltedIdle.withPickups (h : HaltedIdle d) {p : Sparse Pickup} : HaltedIdle { d with pickups := p } := ⟨h.halt, h.samples⟩

/-- An OPU's island goes off in FROZEN: no calibration step is aborted then, and nothing of it restarts the engine. -/
theorem HaltedIdle.opuOff (h : HaltedIdle d) (hm : InMode 7 d) {opu : Nat} (ho : opu < 4) (frost : Bool) :
    HaltedIdle (opuOff opu frost d) := by
  have hopen : HaltedIdle (Machine.servoOpen opu (lanesStop true opu d)) :=
    (h.of_engineSide (engineSide_lanesStop d ho true)).servoOpen opu
  have hmode : InMode 7 (Machine.servoOpen opu (lanesStop true opu d)) := (hm.lanesStop ho).servoOpen ho
  unfold Machine.opuOff
  split
  · exact h
  · rw [calIslandOff_frozen hmode]
    refine HaltedIdle.of_engineSide (HaltedIdle.withStages ?_) (engineSide_fs_above _ .PMU_STAT_OPU_ON _ 0)
    refine HaltedIdle.of_engineSide (HaltedIdle.of_engineSide (HaltedIdle.withPickups ?_) (engineSide_sliceRegsReset _ ho))
      ((engineSide_fs_below _ .WSG_OSTAT_STOP_SEEN 1 ho).trans ((engineSide_fs_below _ .WSG_OCTL_GATE_EN 0 ho).trans (engineSide_onWsg _ _ _)))
    exact each_inv (hopen.of_engineSide (engineSide_sldHold _ _ _ _)) fun e _ _ he => ⟨he.halt, he.samples⟩

theorem HaltedIdle.frozenStop (h : HaltedIdle d) (hm : InMode 7 d) : HaltedIdle (frozenStop d) := by
  unfold Machine.frozenStop
  have hstill : HaltedIdle ((spnStop d).each (spnStop d).opus fun e o => sldHold o false (e.sldPos o) e) ∧
      InMode 7 ((spnStop d).each (spnStop d).opus fun e o => sldHold o false (e.sldPos o) e) :=
    each_inv (P := fun e => HaltedIdle e ∧ InMode 7 e) ⟨h.of_engineSide (engineSide_spnStop d), hm.spnStop⟩ fun e o ho he =>
      ⟨he.1.of_engineSide (engineSide_sldHold _ _ _ _), he.2.sldHold (opu_lt_four ho)⟩
  refine (each_inv (P := fun e => HaltedIdle e ∧ InMode 7 e) hstill fun e o ho he => ?_).1
  have hidle : HaltedIdle (e.each (slicesOf o) fun d n => d.fs .RCS_STAT_STATE (if d.fg .RCS_STAT_STATE n = 0 then 0 else sliceIdle) n) ∧
      InMode 7 (e.each (slicesOf o) fun d n => d.fs .RCS_STAT_STATE (if d.fg .RCS_STAT_STATE n = 0 then 0 else sliceIdle) n) :=
    each_inv (P := fun e => HaltedIdle e ∧ InMode 7 e) he fun u n hn hu =>
      ⟨hu.1.of_engineSide (engineSide_fs_below _ _ _ (slicesOf_lt (opu_lt_four ho) hn)), hu.2.fs (hi := slicesOf_lt (opu_lt_four ho) hn)⟩
  exact ⟨hidle.1.opuOff hidle.2 (opu_lt_four ho) false, hidle.2.opuOff_frozen (opu_lt_four ho)⟩

/-- FROZEN_ENTRY restarts nothing of a halted engine (R18, R222). -/
theorem HaltedIdle.frozenEntry (h : HaltedIdle d) (detail : Nat) : HaltedIdle (frozenEntry detail d) := by
  unfold Machine.frozenEntry
  split
  · exact h
  · have hmode : HaltedIdle ((d.setMode 7).onFw fun w => { w with frozen := detail }) ∧
        InMode 7 ((d.setMode 7).onFw fun w => { w with frozen := detail }) :=
      ⟨h.of_engineSide (engineSide_setMode d 7), (inMode_setMode (by decide)).of_regs (onFw_regs _ _)⟩
    have hlanes := each_inv (P := fun e => HaltedIdle e ∧ InMode 7 e) (f := fun d o => lanesStop true o d) hmode
      fun e o (ho : o ∈ ((d.setMode 7).onFw fun w => { w with frozen := detail }).opus) he =>
      ⟨he.1.of_engineSide (engineSide_lanesStop e (opu_lt_four ho) true), he.2.lanesStop (opu_lt_four ho)⟩
    refine HaltedIdle.of_engineSide (each_inv (hlanes.1.frozenStop hlanes.2) fun e c _ he => ?_) (engineSide_event _ _)
    exact he.of_engineSide (engineSide_endCmd _ _ _ _ _ _)

/-- A halt faults every started slot, drops what runs, and lasts (R222). -/
theorem haltedIdle_cleHalt (h : d.is .CLE_STAT_HALT = false) : HaltedIdle (cleHalt d) := by
  unfold cleHalt
  rw [if_neg (by simp [h])]
  have hset : (d.fs .CLE_STAT_HALT 1).is .CLE_STAT_HALT = true := by rw [Dev.is, fg_fs _ _ _ _ _ (by decide)]; rfl
  have hfaults : ((d.fs .CLE_STAT_HALT 1).each (List.range 80) fun d n => d.cond (d.started n) (slotFault 6 n)).is .CLE_STAT_HALT = true :=
    each_inv (P := fun e => e.is .CLE_STAT_HALT = true) hset fun e n _ he =>
      cond_inv he fun u hu => (congrArg (· == 1) (slotFault_halt n u 6)).trans hu
  refine HaltedIdle.frozenEntry ⟨?_, rfl⟩ 4
  rw [onEng_is]
  refine cond_inv (P := fun e => e.is .CLE_STAT_HALT = true) hfaults fun e he => ?_
  rwa [openWithdraw_halted he, onFw_is, Dev.is, fg_wr_ne _ _ (by decide)]

end

/-! A swap at once (R223). -/

/-- What a swap makes of a slot: the other bank in use, the next generation, and the next sample the first. -/
theorem bankSwap_spec (n : Nat) (d : Dev) :
    (bankSwap n d).fg .SLOT_CTL_ACTIVE n = 1 - d.fg .SLOT_CTL_ACTIVE n ∧ (bankSwap n d).fg .SLOT_CTL_PENDING n = 0 ∧
      (bankSwap n d).fg .SLOT_CTL_BANK_GEN n = (d.fg .SLOT_CTL_BANK_GEN n + 1) % 256 ∧
      (∀ k, (bankSwap n d).slot k = if n = k then { d.slot n with fresh := true } else d.slot k) := by
  have hactive : d.fg .SLOT_CTL_ACTIVE n < 2 ^ 1 := bitsOf_lt _ _ _
  unfold bankSwap
  refine ⟨?_, ?_, ?_, fun k => ?_⟩
  · rw [onSlot_fg, fg_fs_slot _ _ _ _ (by decide), fg_fs_slot _ _ _ _ (by decide), fg_fs _ _ _ _ _ (by decide)]
    exact Nat.mod_eq_of_lt (show _ < 2 by omega)
  · rw [onSlot_fg, fg_fs_slot _ _ _ _ (by decide), fg_fs_zero _ _ (by decide)]
  · rw [onSlot_fg, fg_fs _ _ _ _ _ (by decide), fg_fs_slot _ _ _ _ (by decide)]
    exact Nat.mod_eq_of_lt (Nat.mod_lt _ (by decide))
  · rw [slot_onSlot]
    rfl

theorem bankSwap_changes (n : Nat) (d : Dev) : Changes [Reg.SLOT_CTL.key n 0] d (bankSwap n d) { d with eng := (bankSwap n d).eng } := by
  refine ⟨fun k hk => ?_, rfl⟩
  have hkey : k ≠ Reg.SLOT_CTL.key n 0 := List.ne_of_not_mem_cons hk
  unfold bankSwap
  dsimp only
  rw [onSlot_regs]
  exact (lookup_wr _ _ _ _ _ _ hkey).trans ((lookup_wr _ _ _ _ _ _ hkey).trans (lookup_wr _ _ _ _ _ _ hkey))

/-! The control store (R233). -/

theorem csBusy_wr (d : Dev) (v : DWord) : (d.wr .CLE_CS_DATA v 3).csBusy = d.csBusy := by
  unfold Dev.csBusy
  congr 1
  funext i
  rw [Dev.is, Dev.is, fg_wr_ne _ _ (slotKey_ne_engineKey (by decide) (by decide)).symm]

theorem csCommit_eq (v : DWord) (d : Dev) : csCommit v d =
    wordTake false (if (d.fg .CLE_CS_ADDR < 0x3000 && d.is .CLE_CTL_CS_LOCK) || (0x3000 ≤ d.fg .CLE_CS_ADDR && d.csBusy) then
        (d.wr .CLE_CS_DATA v 3).fs .CLE_STAT_REFUSE 1
      else (d.wr .CLE_CS_DATA v 3).putCs (d.fg .CLE_CS_ADDR) (stagedBy d .CLE_CS_DATA v)) := by
  unfold csCommit
  dsimp only
  rw [fg_wr_ne d v (x := .CLE_CS_ADDR) (by decide), stagedWord_wr d v rfl, csBusy_wr, Dev.is, Dev.is,
    fg_wr_ne d v (x := .CLE_CTL_CS_LOCK) (by decide)]

/-- Outside the register that the staged word's last dword is in, a commit writes the control store alone. -/
theorem commitCs_changes (d : Dev) (v : DWord) (a : Nat) (w : Word) :
    let e := wordTake false ((d.wr .CLE_CS_DATA v 3).putCs a w)
    Changes [Reg.CLE_CS_DATA.key 3 0] d e { d with eng := { d.eng with cs := e.eng.cs, csRead := e.eng.csRead } } :=
  ⟨regsKept_wr d _ v 3 0, rfl⟩

theorem commitCs_word (d : Dev) (v : DWord) {a : Nat} (w : Word) (b : Nat) (ha : a < 16384) :
    sparseGet 0#128 (wordTake false ((d.wr .CLE_CS_DATA v 3).putCs a w)).eng.cs b = if a = b then w else sparseGet 0#128 d.eng.cs b := by
  refine (sparseGet_set _ _ _ _ _).trans ?_
  rw [Nat.mod_eq_of_lt ha, wr_eng]

/-! The audit of the open slots (R235). -/

/-- The audit of one open slot. -/
def auditSlot (d : Dev) (i : Nat) : Dev :=
  d.cond (d.is .SLOT_CFG_EN (72 + i) && i < getField d.fw.quejo 10 1 && declaredWcet d i < d.fg .SLOT_CNT_MAXCYC (72 + i)) fun d =>
    openWithdraw (((slotStop (72 + i) d).attn 8).event { code := 0x7001, src := 72 + i })

theorem openSlotAudit_eq (d : Dev) : openSlotAudit d = d.each (List.range 8) auditSlot := rfl

theorem each_append {α : Type} (f : Dev → α → Dev) (l l' : List α) (d : Dev) : d.each (l ++ l') f = (d.each l f).each l' f :=
  List.foldl_append

theorem each_id {α : Type} {f : Dev → α → Dev} {l : List α} {d : Dev} (h : ∀ x ∈ l, f d x = d) : d.each l f = d := by
  induction l with
  | nil => rfl
  | cons x l ih =>
    rw [each_cons, h x (by simp)]
    exact ih fun y hy => h y (by simp [hy])

/-- An open slot that is not enabled, or whose longest sample keeps within its declared WCET, is left running. -/
theorem auditSlot_within {d : Dev} {i : Nat} (h : d.is .SLOT_CFG_EN (72 + i) = true → d.fg .SLOT_CNT_MAXCYC (72 + i) ≤ declaredWcet d i) :
    auditSlot d i = d := by
  unfold auditSlot Dev.cond
  refine if_neg fun hall => ?_
  simp only [Bool.and_eq_true, decide_eq_true_eq] at hall
  obtain ⟨⟨hen, -⟩, hlong⟩ := hall
  have hwithin := h hen
  omega

/-- A slot that is not enabled and not started. -/
structure SlotOff (n : Nat) (d : Dev) : Prop where
  enabled : d.is .SLOT_CFG_EN n = false
  started : d.started n = false

section
variable {n : Nat} {d : Dev}

theorem SlotOff.of_fg {e : Dev} (h : SlotOff n d) (hen : e.fg .SLOT_CFG_EN n = d.fg .SLOT_CFG_EN n)
    (hst : e.fg .SLOT_CTL_STARTED n = d.fg .SLOT_CTL_STARTED n) : SlotOff n e :=
  ⟨(congrArg (· == 1) hen).trans h.enabled, (congrArg (· == 1) hst).trans h.started⟩

theorem SlotOff.of_engineSide {e : Dev} (h : SlotOff n d) (hn : n < 80) (he : engineSide e = engineSide d) : SlotOff n e := by
  have hbelow : ∀ x : Fld, x.reg.blk = .cle → x.reg.s1 = 0x20 → x.reg.off < 0x420 → e.fg x n = d.fg x n := fun x hblk hs hoff =>
    fg_of_engineSide he ⟨hblk, by rw [hs]; omega⟩
  exact h.of_fg (hbelow _ rfl rfl (by decide)) (hbelow _ rfl rfl (by decide))

/-- CLE_GO starts no slot that is not enabled. -/
theorem SlotOff.cleGo (h : SlotOff n d) : SlotOff n (cleGo d) := by
  refine each_inv h fun e m _ he => ?_
  unfold Dev.cond
  split
  · next hgo =>
    have hm : m ≠ n := fun hmn => by simp [hmn, he.enabled] at hgo
    refine he.of_fg ?_ ?_
    · rw [onSlot_fg, fg_fs_slot _ _ _ _ (by decide)]
    · rw [onSlot_fg, fg_fs_ne _ _ _ _ _ _ _ _ (slotKey_ne_of_slot (by decide) hm)]
  · exact he

theorem SlotOff.openWithdraw (h : SlotOff n d) (hheld : d.fw.openHeld = []) : SlotOff n (openWithdraw d) := by
  have hkeep : ∀ x : Fld, SlotReg x.reg → ((d.wr .CLE_IOREL 0#32).onFw fun w => { w with openHeld := [] }).fg x n = d.fg x n :=
    fun x hx => by rw [onFw_fg, fg_wr_ne _ _ (slotKey_ne_engineKey hx (by decide)).symm]
  have hwr := h.of_fg (hkeep .SLOT_CFG_EN (by decide)) (hkeep .SLOT_CTL_STARTED (by decide))
  unfold Machine.openWithdraw
  dsimp only
  rw [hheld]
  exact cond_inv hwr fun e he => he.cleGo

end

/-- With no slot held by firmware the withdrawal starts slots and no more: the release stays withdrawn (R232). -/
theorem openWithdraw_iorel {d : Dev} (hheld : d.fw.openHeld = []) : (openWithdraw d).rd .CLE_IOREL = 0#32 := by
  unfold openWithdraw
  dsimp only
  rw [hheld]
  refine cond_inv (P := fun e => e.rd .CLE_IOREL = 0#32) (by rw [onFw_rd, rd_wr]) fun e he => ?_
  refine each_inv (P := fun u => u.rd .CLE_IOREL = 0#32) he fun u n _ hu =>
    cond_inv (P := fun w => w.rd .CLE_IOREL = 0#32) hu fun w hw => ?_
  dsimp only
  rw [onSlot_rd]
  exact (rd_wr_ne _ _ _ _ _ _ _ _ (slotKey_ne_engineKey (by decide) (by decide))).trans hw

theorem attn_fw (d : Dev) (code : Nat) : (d.attn code).fw = d.fw := by
  unfold Dev.attn
  dsimp only
  rw [fs_fw, fs_fw, fs_fw]

/-- An event is no part of firmware's own data. -/
theorem event_fw (d : Dev) (x : EventInfo) : (d.event x).fw = d.fw := by
  obtain ⟨j, h | ⟨v, h⟩⟩ := event_journal d x
  · rw [h, onJournal_fw]
  · rw [h, fs_fw, onJournal_fw]

/-- An open slot stopped for its length is off, and the release of ports withdrawn (R232, R235). -/
theorem auditSlot_beyond {d : Dev} {i : Nat} (hi : i < 8) (hen : d.is .SLOT_CFG_EN (72 + i) = true) (hcount : i < getField d.fw.quejo 10 1)
    (hlong : declaredWcet d i < d.fg .SLOT_CNT_MAXCYC (72 + i)) (hheld : d.fw.openHeld = []) :
    SlotOff (72 + i) (auditSlot d i) ∧ (auditSlot d i).rd .CLE_IOREL = 0#32 := by
  have hstop : SlotOff (72 + i) (slotStop (72 + i) d) := ⟨slotStop_enabled _ _, slotStop_started _ _⟩
  have hside : engineSide (((slotStop (72 + i) d).attn 8).event { code := 0x7001, src := 72 + i }) = engineSide (slotStop (72 + i) d) := by
    rw [engineSide_event, engineSide_attn]
  have hfw : (((slotStop (72 + i) d).attn 8).event { code := 0x7001, src := 72 + i }).fw.openHeld = [] := by
    rw [event_fw, attn_fw, slotStop_openHeld, hheld]
  unfold auditSlot Dev.cond
  rw [if_pos (by simp [hen, hcount, hlong])]
  exact ⟨(hstop.of_engineSide (by omega) hside).openWithdraw hfw, openWithdraw_iorel hfw⟩

/-! The obligation. -/

/-- Settles O15: each clause by what its command does. The halt is followed through all that FROZEN stops, and the audit through the
one open slot that runs too long. -/
theorem engineMemories : Obligations.EngineMemories := by
  unfold Obligations.EngineMemories
  refine ⟨fun s hhalt _ => ?_, fun slot s hp hst => ?_, fun slot s hp hst => ?_, fun val s hlock hbusy => ?_, fun val s hlock => ?_,
    fun e rest s h => ?_, fun s h => ?_, fun s h => ?_, fun s hen hlong hothers hheld => ?_⟩
  · have hidle := haltedIdle_cleHalt hhalt
    exact ⟨_, rfl, rfl, rfl, hidle.halt, hidle.samples, (inMode_cleHalt hhalt).mode⟩
  · show State.onDev _ _ = _
    rw [onDev_next, swapWrite, if_neg (by simp [hp]), if_pos (by simp [hst])]
  · refine ⟨_, rfl, rfl, rfl, ?_⟩
    obtain ⟨hstarted, hsample⟩ := hst
    obtain ⟨hactive, hpending, hgen, hslots⟩ := bankSwap_spec slot s.dev
    dsimp only
    rw [swapWrite, if_neg (by simp [hp]), if_neg (by simp [hstarted, hsample])]
    refine ⟨hactive, hpending, hgen, by rw [hslots, if_pos rfl], fun k hk => ?_, bankSwap_changes _ _⟩
    rw [hslots, if_neg fun h => hk (Fin.ext h.symm)]
  · have haddr : s.dev.fg .CLE_CS_ADDR < 2 ^ 14 := bitsOf_lt _ _ _
    have hfree : ¬ ((s.dev.fg .CLE_CS_ADDR < 0x3000 && s.dev.is .CLE_CTL_CS_LOCK) || (0x3000 ≤ s.dev.fg .CLE_CS_ADDR && s.dev.csBusy)) = true := by
      intro h
      simp only [Bool.or_eq_true, Bool.and_eq_true, decide_eq_true_eq] at h
      rcases h with ⟨hlow, h⟩ | ⟨hhigh, h⟩
      · simp [hlock hlow] at h
      · simp [hbusy hhigh] at h
    refine ⟨_, rfl, rfl, rfl, ?_⟩
    dsimp only
    rw [csCommit_eq, if_neg hfree]
    refine ⟨by rw [commitCs_word _ _ _ _ haddr, if_pos rfl, stagedBy], fun a ha => ?_, commitCs_changes _ _ _ _⟩
    rw [commitCs_word _ _ _ _ haddr, if_neg ha.symm]
  · show State.onDev _ _ = _
    rw [onDev_next, csCommit_eq, if_pos (by simp [hlock])]
  · refine ⟨_, rfl, rfl, rfl, ?_⟩
    dsimp only
    rw [evtRead, h]
    exact ⟨rfl, rfl⟩
  · show State.onDev _ _ = _
    rw [onDev_next, evtRead, h]
    rfl
  · show State.onDev _ _ = _
    rw [onDev_next, openSlotAudit_eq, each_id fun i hi => auditSlot_within (h ⟨i, List.mem_range.mp hi⟩)]
  · obtain ⟨hen, hcount⟩ := hen
    have hothersKept : s.dev.each (List.range 7) auditSlot = s.dev := each_id fun i hi => auditSlot_within fun hon => by
      simp [hothers ⟨i, List.mem_range.mp hi⟩] at hon
    have haudit : openSlotAudit s.dev = auditSlot s.dev 7 := by
      rw [openSlotAudit_eq, List.range_succ, each_append, hothersKept, each_cons, each_nil]
    obtain ⟨hoff, hiorel⟩ := auditSlot_beyond (i := 7) (by decide) hen hcount hlong hheld
    refine ⟨_, rfl, rfl, rfl, ?_⟩
    dsimp only
    rw [haudit]
    exact ⟨hoff.enabled, hoff.started, hiorel⟩

end Sys2Proof.Proofs
end

section
/-!
SUPPORT. What one microword does to its sample, its lanes and the unit (06_control_law_engine.md R199 to R202, R213, R221).
-/

namespace Sys2Proof.Proofs

open Sys2Proof Sys2Proof.Machine Sys2Proof.Laws

/-! The command of a microword. -/

/-- The command of each operation runs the microword of that operation. -/
theorem exec_micro (s : State) : ∀ p ∈ microOps, exec p.1 s = .next { s with dev := microword p.2 s.dev } := by
  intro p hp
  fin_cases hp <;> rfl

section
variable {op : CleOp} {x : CleSample} {w : Word} {d : Dev}

/-- The microword at the running sample's PC is executed, or stopped by its cause of fault. -/
theorem microword_eq (h : d.Runs op x w) :
    microword op d = (mwFault d x w).elim (mwExecute op x w d) fun cause => cleFault cause x.slot d := by
  obtain ⟨hon, hrun, hword, hop⟩ := h
  unfold microword
  rw [hrun]
  dsimp only
  rw [hword, hop, hon, if_neg (by simp)]
  cases mwFault d x w <;> rfl

theorem microword_executes (h : d.Runs op x w) (hfault : mwFault d x w = none) : microword op d = mwExecute op x w d := by
  rw [microword_eq h, hfault, Option.elim_none]

theorem microword_faults {cause : Nat} (h : d.Runs op x w) (hfault : mwFault d x w = some cause) :
    microword op d = cleFault cause x.slot d := by
  rw [microword_eq h, hfault, Option.elim_some]

end

/-! Lanes of a word. -/

theorem laneOf_putLane (w : Word) {l k : Nat} (v : Nat) (hl : l < 4) :
    laneOf (putLane w l v) k = if l = k then v % 2 ^ 32 else laneOf w k := by
  have hfit : putBits w.toNat (32 * l) 32 v < 2 ^ 128 := putBits_lt w.isLt (by omega)
  unfold laneOf putLane
  rw [BitVec.toNat_ofNat, Nat.mod_eq_of_lt hfit]
  split
  · next hlk => rw [← hlk, bitsOf_putBits]
  · next hlk => rw [bitsOf_putBits_ne _ _ _ _ _ _ (by omega)]

/-- A word with the lanes that a mask selects written. -/
def putLanes (mask : Nat) (v : Nat → Nat) (n : Nat) (w : Word) : Word :=
  (List.range n).foldl (fun u l => if mask.testBit l then putLane u l (v l) else u) w

theorem laneOf_putLanes (mask : Nat) (v : Nat → Nat) (w : Word) (k : Nat) {n : Nat} (hn : n ≤ 4) :
    laneOf (putLanes mask v n w) k = if k < n ∧ mask.testBit k = true then v k % 2 ^ 32 else laneOf w k := by
  induction n with
  | zero => simp [putLanes]
  | succ n ih =>
    have hsucc : putLanes mask v (n + 1) w = if mask.testBit n then putLane (putLanes mask v n w) n (v n) else putLanes mask v n w := by
      simp [putLanes, List.range_succ]
    rw [hsucc]
    by_cases hnk : n = k
    · subst hnk
      split
      · next hbit => rw [laneOf_putLane _ _ (by omega), if_pos rfl, if_pos ⟨by omega, hbit⟩]
      · next hbit => rw [ih (by omega), if_neg (by simp), if_neg (by simp [hbit])]
    · have hlt : k < n + 1 ↔ k < n := by omega
      split
      · simp only [laneOf_putLane _ _ (show n < 4 by omega), if_neg hnk, ih (by omega), hlt]
      · simp only [ih (by omega), hlt]

/-! A microword without a port access or a store (R200). -/

/-- Whether a microword reads MEM or IO without loading or reading it: a free value. -/
def readsFree (w : Word) : Bool := ((mwSources w).contains 16 && mwMop w != 1) || ((mwSources w).contains 17 && mwIop w != 1)

/-- The unit after a microword has written its results and taken its clocks. -/
def lanesWritten (op : CleOp) (x : CleSample) (w : Word) (d : Dev) : Dev :=
  ((d.cond (readsFree w) Dev.drew).cond (op != .nop) fun e => e.setVreg x.level (mwField w 112 4)
    (putLanes (mwField w 116 4) (fun l => ((d.laneResults op x w).getD l {}).val) 4 (d.vreg x.level (mwField w 112 4)))).clocks (mwClocks w)

/-- Where a microword's sample goes on (R202). -/
def sequenced (w : Word) (y : CleSample) (d : Dev) : Dev :=
  match mwSeq w with
  | 1 => d.setSample { y with pc := mwTarget w }
  | 2 => d.setSample { y with pc := if condHolds y (mwField w 51 4) (mwField w 32 3) then mwTarget w else (y.pc + 1) % 16384 }
  | 3 => d.setSample { y with pc := mwTarget w, stack := (y.pc + 1) % 16384 :: y.stack }
  | 4 => d.setSample { y with pc := y.stack.headD 0, stack := y.stack.drop 1 }
  | 5 => sampleDone y d
  | 6 => postEvent (mwTarget w % 256) y.slot false (d.setSample { y with pc := (y.pc + 1) % 16384 })
  | _ => d.setSample { y with pc := (y.pc + 1) % 16384 }

/-- What a microword leaves of its sample until it is sequenced: all but flags and address registers, its length more. -/
structure Advanced (x y : CleSample) (w : Word) : Prop where
  slot : y.slot = x.slot
  phase : y.phase = x.phase
  pc : y.pc = x.pc
  stack : y.stack = x.stack
  cycles : y.cycles = x.cycles + mwClocks w

theorem mwExecute_eq {op : CleOp} {x : CleSample} {w : Word} {d : Dev} (hiop : mwIop w = 0) (hmop : mwMop w < 2) :
    ∃ y, Advanced x y w ∧ mwExecute op x w d = sequenced w y (lanesWritten op x w d) := by
  unfold mwExecute
  extract_lets mem port lane mask ior d1 src a b c free msrc d2 res sticky cmp lanes dst old new d3 kind full word d4 d5 d6 ar imm
    areg y next d7
  have hior : ior = (0, d) := if_neg (by omega)
  have hd1 : d1 = d := by
    show ior.2 = d
    rw [hior]
  have hres : res = d.laneResults op x w := by
    have hsource : ∀ code, mwSource d1 x w ior.1 code = mwSource d x w 0 code := fun code => by rw [hd1, hior]
    show mwResults op { satm := x.satm, ftz := x.ftz } x.lanes (mwSource d1 x w ior.1 (mwField w 107 5))
      (swizzle (mwField w 95 2) (mwField w 93 2) (mwSource d1 x w ior.1 (mwField w 102 5))) (mwSource d1 x w ior.1 (mwField w 97 5)) = _
    rw [hsource, hsource, hsource]
    rfl
  have hd2 : d2 = d.cond (readsFree w) Dev.drew := by
    show d1.cond (readsFree w) Dev.drew = _
    rw [hd1]
  have hold : old = d.vreg x.level (mwField w 112 4) := by
    show d2.vreg _ _ = _
    rw [hd2]
    exact cond_eq (·.vreg x.level (mwField w 112 4)) fun _ => rfl
  have hnew : new = putLanes (mwField w 116 4) (fun l => ((d.laneResults op x w).getD l {}).val) 4 (d.vreg x.level (mwField w 112 4)) := by
    show putLanes mask (fun l => (res.getD l {}).val) 4 old = _
    rw [hres, hold]
  have hkind : kind = .plain := if_neg (by omega)
  have hfull : full = false := by
    show (decide (kind = .adaptive) && _) = false
    rw [hkind]
    rfl
  have hd4 : d4 = d3 := by
    show d3.cond (decide (2 ≤ mwMop w) && !full) _ = d3
    rw [decide_eq_false (by omega)]
    rfl
  have hd5 : d5 = d4 := by
    show d4.cond full _ = d4
    rw [hfull]
    rfl
  have hd6 : d6 = d5 := by
    show d5.cond (mwIop w == 2) _ = d5
    rw [hiop]
    rfl
  refine ⟨y, ⟨rfl, rfl, rfl, rfl, rfl⟩, ?_⟩
  show sequenced w y (d6.clocks (mwClocks w)) = _
  rw [hd6, hd5, hd4]
  show sequenced w y ((d2.cond (op != .nop) fun e => e.setVreg x.level (mwField w 112 4) new).clocks (mwClocks w)) = _
  rw [hnew, hd2]
  rfl

/-! The running sample. -/

/-- A sample found first stays first when it, and every other of its slot, is replaced by one that is found too. -/
theorem find_replaced {p : CleSample → Bool} {x y : CleSample} (hy : p y = true) (hslot : y.slot = x.slot) {l : List CleSample}
    (h : l.find? p = some x) : (l.map fun z => if z.slot = y.slot then y else z).find? p = some y := by
  induction l with
  | nil => simp at h
  | cons z l ih =>
    rw [List.map_cons, List.find?_cons]
    rw [List.find?_cons] at h
    by_cases hz : z.slot = y.slot
    · rw [if_pos hz, hy]
    · rw [if_neg hz]
      split at h
      · cases h
        exact absurd hslot.symm hz
      · exact ih h

theorem runningSample_phase {d : Dev} {x : CleSample} (h : d.runningSample = some x) : x.phase = .running := by
  simpa using List.find?_some h

theorem runningSample_setSample {d : Dev} {x y : CleSample} (h : d.runningSample = some x) (hslot : y.slot = x.slot)
    (hphase : y.phase = x.phase) : (d.setSample y).runningSample = some y :=
  find_replaced (by simp [hphase, runningSample_phase h]) hslot h

section
variable (op : CleOp) (x : CleSample) (w : Word) (d : Dev)

/-- What a drawn free value and a written vector register leave is left until the clocks are counted. -/
theorem lanesWritten_kept {β : Type} (g : Dev → β) (hdrew : ∀ e, g e.drew = g e) (hset : ∀ e r v, g (e.setVreg x.level r v) = g e) :
    ∃ e, lanesWritten op x w d = e.clocks (mwClocks w) ∧ g e = g d :=
  ⟨_, rfl, (cond_eq g fun e => hset e _ _).trans (cond_eq g hdrew)⟩

theorem lanesWritten_samples : (lanesWritten op x w d).eng.samples = d.eng.samples := by
  obtain ⟨e, he, hkept⟩ := lanesWritten_kept op x w d (·.eng.samples) (fun _ => rfl) fun _ _ _ => rfl
  rw [he]
  exact hkept

theorem lanesWritten_slots : (lanesWritten op x w d).eng.slots = d.eng.slots := by
  obtain ⟨e, he, hkept⟩ := lanesWritten_kept op x w d (·.eng.slots) (fun _ => rfl) fun _ _ _ => rfl
  rw [he]
  exact hkept

theorem lanesWritten_runningSample : (lanesWritten op x w d).runningSample = d.runningSample :=
  congrArg (List.find? _) (lanesWritten_samples op x w d)

theorem lanesWritten_tcnt : (lanesWritten op x w d).fg .CLE_TCNT = (d.fg .CLE_TCNT + mwClocks w) % 2 ^ 32 := by
  obtain ⟨e, he, hkept⟩ := lanesWritten_kept op x w d (·.fg .CLE_TCNT) (fun _ => rfl) fun _ _ _ => rfl
  rw [he, Dev.clocks, fg_fs _ _ _ _ _ (by decide), hkept]
  exact Nat.mod_mod _ _

theorem vreg_setVreg (d : Dev) (level r q : Nat) (v : Word) : (d.setVreg level r v).vreg level q = if r = q then v else d.vreg level q := by
  refine (sparseGet_set _ _ _ _ _).trans ?_
  by_cases h : r = q
  · rw [if_pos (by omega), if_pos h]
  · rw [if_neg (by omega), if_neg h]
    rfl

/-- The destination's word: the results in the lanes of the mask, and the word it held for NOP. -/
theorem lanesWritten_vreg (r : Nat) : (lanesWritten op x w d).vreg x.level r = if op ≠ .nop ∧ mwField w 112 4 = r then
    putLanes (mwField w 116 4) (fun l => ((d.laneResults op x w).getD l {}).val) 4 (d.vreg x.level (mwField w 112 4))
    else d.vreg x.level r := by
  have hdrew : (d.cond (readsFree w) Dev.drew).vreg x.level r = d.vreg x.level r := cond_eq (·.vreg x.level r) fun _ => rfl
  show ((d.cond _ _).cond _ _).vreg x.level r = _
  unfold Dev.cond at hdrew ⊢
  by_cases hop : op = .nop
  · rw [if_neg (by simp [hop]), hdrew, if_neg (by simp [hop])]
  · rw [if_pos (by simp [hop]), vreg_setVreg, hdrew]
    simp [hop]

theorem lanesWritten_lane {l : Nat} (hl : l < 4) : laneOf ((lanesWritten op x w d).vreg x.level (mwField w 112 4)) l =
    if op ≠ .nop ∧ (mwField w 116 4).testBit l = true then ((d.laneResults op x w).getD l {}).val % 2 ^ 32
    else laneOf (d.vreg x.level (mwField w 112 4)) l := by
  rw [lanesWritten_vreg]
  by_cases hop : op = .nop
  · rw [if_neg (by simp [hop]), if_neg (by simp [hop])]
  · rw [if_pos ⟨hop, rfl⟩, laneOf_putLanes _ _ _ _ (le_refl 4)]
    simp [hop, hl]

theorem lanesWritten_regs : RegsKept [Reg.CLE_TCNT.key 0 0] d (lanesWritten op x w d) := by
  intro k hk
  obtain ⟨e, he, hkept⟩ := lanesWritten_kept op x w d (·.regs) (fun _ => rfl) fun _ _ _ => rfl
  rw [he, ← hkept]
  exact lookup_wr _ _ _ _ _ _ (List.ne_of_not_mem_cons hk)

/-- Beside the registers the results change the vector registers, and a free value that is read is used up. -/
theorem lanesWritten_shape : ∃ regs free vregs,
    lanesWritten op x w d = { d with regs := regs, free := free, eng := { d.eng with vregs := vregs } } := by
  unfold lanesWritten Dev.cond
  split <;> split <;> exact ⟨_, _, _, rfl⟩

end

/-! Where the sample goes on (R202), and its end (R213). -/

section
variable {w : Word} {x y : CleSample} {d : Dev}

theorem sequenced_next (h : mwSeq w = 0) : sequenced w y d = d.setSample { y with pc := (y.pc + 1) % 16384 } := by
  unfold sequenced
  rw [h]
  rfl

theorem sequenced_branch (h : mwSeq w = 2) : sequenced w y d =
    d.setSample { y with pc := if condHolds y (mwField w 51 4) (mwField w 32 3) then mwTarget w else (y.pc + 1) % 16384 } := by
  unfold sequenced
  rw [h]
  rfl

theorem sequenced_done (h : mwSeq w = 5) : sequenced w y d = sampleDone y d := by
  unfold sequenced
  rw [h]
  rfl

/-- JUMP, CALL and RETURN go on at another address, with their effect on the return stack. -/
theorem sequenced_elsewhere (h : mwSeq w = 1 ∨ mwSeq w = 3 ∨ mwSeq w = 4) : ∃ z, sequenced w y d = d.setSample z ∧ z.slot = y.slot ∧
    z.phase = y.phase ∧ (z.pc, z.stack) = if mwSeq w = 4 then (y.stack.headD 0, y.stack.drop 1)
      else if mwSeq w = 3 then (mwTarget w, ((y.pc + 1) % 16384) :: y.stack) else (mwTarget w, y.stack) := by
  unfold sequenced
  rcases h with h | h | h <;> rw [h] <;> exact ⟨_, rfl, rfl, rfl, rfl⟩

theorem cond_fs_eng (d : Dev) (b : Bool) (y : Fld) (v k : Nat) : (d.cond b fun d => d.fs y v k).eng = d.eng :=
  cond_eq Dev.eng fun _ => rfl

/-- With no follower's tick waiting, the end of a sample is its own: it is gone, and MAXCYC not below its length. -/
theorem sampleDone_spec (hticked : ∀ n < 80, (d.slot n).ticked = false) :
    (sampleDone y d).eng.samples = d.eng.samples.filter (fun z => z.slot != y.slot) ∧
      limitN 0 65535 y.cycles % 2 ^ 16 ≤ (sampleDone y d).fg .SLOT_CNT_MAXCYC y.slot := by
  have hkept := bankSettle_kept y.slot (d.dropSample y.slot)
  obtain ⟨e, he⟩ : ∃ e, e = (bankSettle y.slot (d.dropSample y.slot)).fs .SLOT_STAT_LFLAGS y.sticky y.slot := ⟨_, rfl⟩
  obtain ⟨u, hu⟩ : ∃ u, u = e.cond (e.fg .SLOT_CNT_MAXCYC y.slot < limitN 0 65535 y.cycles) fun d =>
    d.fs .SLOT_CNT_MAXCYC (limitN 0 65535 y.cycles) y.slot := ⟨_, rfl⟩
  have hslot : ∀ n < 80, (u.slot n).ticked = false := fun n hn => by
    rw [Dev.slot, hu, cond_fs_eng, he]
    exact (hkept.ticked n).trans (hticked n hn)
  have hdone : sampleDone y d = u := by
    rw [hu, he]
    rw [hu, he] at hslot
    refine each_id fun n hn => ?_
    dsimp only
    rw [hslot n (List.mem_range.mp hn)]
    rfl
  rw [hdone]
  refine ⟨?_, ?_⟩
  · rw [hu, cond_fs_eng, he]
    exact hkept.samples
  · rw [hu]
    unfold Dev.cond
    split
    · rw [fg_fs _ _ _ _ _ (by decide)]
      exact le_rfl
    · next hle =>
      exact (Nat.mod_le _ _).trans (by simpa using hle)

end

/-! A microword that is not executed (R201, R221). -/

theorem mwFault_lt {d : Dev} {x : CleSample} {w : Word} {cause : Nat} (h : mwFault d x w = some cause) : cause < 2 ^ 3 := by
  unfold mwFault at h
  dsimp only at h
  split_ifs at h <;> cases h <;> decide

/-- A field of the engine's own and a slot's register: a write of the one leaves the other. -/
theorem fg_fs_slotReg (d : Dev) {x y : Fld} (v k : Nat) (hx : EngineReg x.reg) (hy : SlotReg y.reg) : (d.fs x v).fg y k = d.fg y k :=
  fg_fs_ne d x y v 0 0 k 0 (slotKey_ne_engineKey hy hx).symm

/-- A slot that faults with no bank of firmware's waiting: its cause, its stop, and its sample gone; registers and data memory stay. -/
theorem slotFault_spec {d : Dev} {n cause : Nat} (hn : n < 80) (hcause : cause < 2 ^ 3) (hwaits : sparseGet [] d.fw.bankWaits n = []) :
    (slotFault cause n d).fg .SLOT_STAT_FAULT n = 1 ∧ (slotFault cause n d).fg .SLOT_STAT_CAUSE n = cause ∧
      (slotFault cause n d).is .SLOT_CFG_EN n = false ∧ (∀ y ∈ (slotFault cause n d).eng.samples, y.slot ≠ n) ∧
      (slotFault cause n d).eng.vregs = d.eng.vregs ∧ (slotFault cause n d).eng.dm = d.eng.dm := by
  obtain ⟨e, he, hfault⟩ := slotFault_eq n d cause
  have hposted : ∀ y : Fld, SlotReg y.reg → (slotFault cause n d).fg y n = ((e.fs .SLOT_STAT_FAULT 1 n).fs .SLOT_STAT_CAUSE cause n).fg y n :=
    fun y hy => by rw [hfault, postEvent_fg _ _ _ _ fun u => fg_fs_slotReg u 1 n (by decide) hy]
  obtain ⟨hsamples, hvregs, hdm⟩ := postEvent_eng n ((e.fs .SLOT_STAT_FAULT 1 n).fs .SLOT_STAT_CAUSE cause n) 0 true
  rw [← hfault, fs_eng, fs_eng] at hsamples hvregs hdm
  refine ⟨?_, ?_, ?_, fun y hy => ?_, ?_, ?_⟩
  · rw [hposted _ (by decide), fg_fs_slot _ _ _ _ (by decide), fg_fs _ _ _ _ _ (by decide)]
    rfl
  · rw [hposted _ (by decide), fg_fs _ _ _ _ _ (by decide)]
    exact Nat.mod_eq_of_lt hcause
  · rw [Dev.is, hposted _ (by decide), fg_fs_slot _ _ _ _ (by decide), fg_fs_slot _ _ _ _ (by decide),
      fg_of_engineSide he ⟨rfl, show 0x400 + n * 0x20 < 0x100000 by omega⟩]
    exact slotStop_enabled _ _
  · rw [hsamples, samples_of_engineSide he, slotStop_samples] at hy
    simpa using (List.mem_filter.mp hy).2
  · rw [hvregs, vregs_of_engineSide he, slotStop_vregs]
    rfl
  · rw [hdm, dm_of_engineSide he, slotStop_eq]
    exact bankSettle_dm n _ hwaits

/-! The obligation. -/

/-- A microword that no fault stops, without a port access or a store: its results and clocks, and its sample sequenced. -/
theorem exec_computing {p : Instr × CleOp} {x : CleSample} {w : Word} {s : State} (hp : p ∈ microOps) (hruns : s.dev.Runs p.2 x w)
    (hfault : mwFault s.dev x w = none) (hiop : mwIop w = 0) (hmop : mwMop w < 2) :
    ∃ y, Advanced x y w ∧ exec p.1 s = .next { s with dev := sequenced w y (lanesWritten p.2 x w s.dev) } := by
  obtain ⟨y, hy, hexec⟩ := mwExecute_eq (op := p.2) (x := x) (d := s.dev) hiop hmop
  exact ⟨y, hy, by rw [exec_micro s p hp, microword_executes hruns hfault, hexec]⟩

/-- The sample that runs a microword still runs when its results are written. -/
theorem running_of_runs {op o : CleOp} {x : CleSample} {w : Word} {d : Dev} (h : d.Runs op x w) :
    (lanesWritten o x w d).runningSample = some x := by
  obtain ⟨-, hrun, -⟩ := h
  rw [lanesWritten_runningSample, hrun]

/-- Settles O11: the microword by its results and its sequencing, or by the fault that stops it. -/
theorem microwords : Obligations.Microwords := by
  unfold Obligations.Microwords
  refine ⟨fun p x w s hp hruns hfault hw => ?_, fun p x w s hp hruns hfault hw => ?_, fun p x w s hp hruns hfault hw => ?_,
    fun p x w s hp hruns hfault hw hticked => ?_, fun p x w cause s hp hruns hslot hfault => ?_⟩
  · obtain ⟨hiop, hseq, hmop⟩ := hw
    obtain ⟨y, hy, hexec⟩ := exec_computing hp hruns hfault hiop hmop
    rw [sequenced_next hseq] at hexec
    refine ⟨_, hexec, rfl, rfl, fun l => lanesWritten_lane p.2 x w s.dev l.isLt, fun r hr => ?_, ?_, lanesWritten_tcnt p.2 x w s.dev, ?_⟩
    · refine (lanesWritten_vreg p.2 x w s.dev r).trans (if_neg ?_)
      rintro ⟨-, hdst⟩
      exact hr hdst.symm
    · dsimp only
      rw [runningSample_setSample (y := { y with pc := (y.pc + 1) % 16384 }) (running_of_runs (o := p.2) hruns) hy.slot hy.phase,
        Option.map_some, hy.slot, hy.pc, hy.stack, hy.cycles]
    · obtain ⟨regs, free, vregs, hshape⟩ := lanesWritten_shape p.2 x w s.dev
      refine ⟨lanesWritten_regs p.2 x w s.dev, ?_⟩
      dsimp only
      rw [hshape]
      rfl
  · obtain ⟨hiop, hmop, -, hseq⟩ := hw
    obtain ⟨y, hy, hexec⟩ := exec_computing hp hruns hfault hiop hmop
    obtain ⟨z, hgo, hslot, hphase, hgoes⟩ := sequenced_elsewhere (y := y) (d := lanesWritten p.2 x w s.dev) hseq
    refine ⟨_, hexec, rfl, rfl, ?_⟩
    dsimp only
    rw [hgo, runningSample_setSample (running_of_runs (o := p.2) hruns) (hslot.trans hy.slot) (hphase.trans hy.phase), Option.map_some,
      hgoes, hy.stack, hy.pc]
  · obtain ⟨hiop, hmop, hseq⟩ := hw
    obtain ⟨y, hy, hexec⟩ := exec_computing hp hruns hfault hiop hmop
    refine ⟨_, hexec, rfl, rfl, ?_⟩
    dsimp only
    have hrun := runningSample_setSample (running_of_runs (o := p.2) hruns) (y := { y with
      pc := if condHolds y (mwField w 51 4) (mwField w 32 3) then mwTarget w else (y.pc + 1) % 16384 }) hy.slot hy.phase
    rw [sequenced_branch hseq, hrun, Option.map_some, Option.map_some, ← hy.stack, ← hy.pc]
    rfl
  · obtain ⟨hiop, hmop, hseq⟩ := hw
    obtain ⟨y, hy, hexec⟩ := exec_computing hp hruns hfault hiop hmop
    have hslots : ∀ n < 80, ((lanesWritten p.2 x w s.dev).slot n).ticked = false := fun n hn => by
      rw [Dev.slot, lanesWritten_slots]
      exact hticked ⟨n, hn⟩
    obtain ⟨hsamples, hcycles⟩ := sampleDone_spec (y := y) hslots
    refine ⟨_, hexec, rfl, rfl, ?_⟩
    dsimp only
    rw [sequenced_done hseq, ← hy.slot, ← hy.cycles, ← lanesWritten_samples p.2 x w s.dev]
    exact ⟨hsamples, hcycles⟩
  · obtain ⟨hlow, hwaits⟩ := hslot
    have hstop : cleFault cause x.slot s.dev = slotFault cause x.slot s.dev := by
      unfold cleFault
      rw [decide_eq_false (by omega), Laws.cond_false]
    have hexec := exec_micro s p hp
    rw [microword_faults hruns hfault, hstop] at hexec
    refine ⟨_, hexec, rfl, rfl, ?_⟩
    exact slotFault_spec (by omega) (mwFault_lt hfault) hwaits

end Sys2Proof.Proofs
end

section
/-!
SUPPORT. An OPU's servo mailbox and state, and the part of the unit that they live in, over the updates that have no part in it
(07_optical_servo.md R255, R256, R271, R273).
-/

namespace Sys2Proof.Proofs

open Sys2Proof Sys2Proof.Machine Sys2Proof.Laws

/-! Fields of the servo mailbox (Table 7-8). -/

/-- Two fields of an OPU's 16 mailbox words, in different words or at different bits of one. -/
abbrev SvFieldsApart (x y : SvFld) : Prop :=
  x.word < 16 ∧ y.word < 16 ∧ x.lo + x.width ≤ 32 ∧ (x.word = y.word → y.lo + y.width ≤ x.lo ∨ x.lo + x.width ≤ y.lo)

theorem mailboxKey_ne {i k : Nat} (h : i ≠ k) : Reg.CLE_MBOX.key i 0 ≠ Reg.CLE_MBOX.key k 0 := by
  have hkey : ∀ n, Reg.CLE_MBOX.key n 0 = 0x300200 + n * 4 := fun _ => rfl
  rw [hkey, hkey]
  omega

section
variable (d : Dev) {x y : SvFld} (opu o v : Nat)

theorem sv_svSet_self (h : x.lo + x.width ≤ 32) : (d.svSet opu x v).sv opu x = v % 2 ^ x.width := by
  unfold Dev.sv Dev.svSet
  rw [rd_wr, BitVec.toNat_ofNat, Nat.mod_eq_of_lt (putBits_lt (d.rd .CLE_MBOX _).isLt h), bitsOf_putBits]

/-- A field of another OPU's mailbox is left. -/
theorem sv_svSet_other (ho : opu ≠ o) (hx : x.word < 16 := by decide) (hy : y.word < 16 := by decide) :
    (d.svSet opu x v).sv o y = d.sv o y := by
  unfold Dev.sv Dev.svSet
  rw [rd_wr_ne _ _ _ _ _ _ _ _ (mailboxKey_ne (by omega))]

/-- A field apart from the one written is left, in the same OPU's mailbox and in every other. -/
theorem sv_svSet (h : SvFieldsApart x y := by decide) : (d.svSet opu x v).sv o y = d.sv o y := by
  obtain ⟨hx, hy, hfit, hbits⟩ := h
  by_cases hword : 16 * opu + x.word = 16 * o + y.word
  · unfold Dev.sv Dev.svSet
    rw [← hword, rd_wr, BitVec.toNat_ofNat, Nat.mod_eq_of_lt (putBits_lt (d.rd .CLE_MBOX _).isLt hfit),
      bitsOf_putBits_ne _ _ _ _ _ _ (hbits (by omega))]
  · unfold Dev.sv Dev.svSet
    rw [rd_wr_ne _ _ _ _ _ _ _ _ (mailboxKey_ne hword)]

end

/-! The servos, the write inhibits and the mailboxes. -/

/-- The servos of the OPUs, their write inhibits, and the mailbox registers. -/
abbrev ServoSide : Type := Sparse Servo × Sparse Nat × (Fin 128 → DWord)

/-- These parts of a unit. -/
def servoSide (d : Dev) : ServoSide := (d.servos, d.eng.inhibit, fun i => d.rd .CLE_MBOX i)

section
variable {d e : Dev} (h : servoSide e = servoSide d)
include h

theorem servo_of_servoSide (o : Nat) : e.servo o = d.servo o := congrArg (fun x : ServoSide => sparseGet ({} : Servo) x.1 o) h

theorem inhibited_of_servoSide (o : Nat) : e.inhibited o = d.inhibited o := congrArg (fun x : ServoSide => sparseGet 0 x.2.1 o == 1) h

theorem sv_of_servoSide {o : Nat} (ho : o < 4) {y : SvFld} (hy : y.word < 16 := by decide) : e.sv o y = d.sv o y :=
  congrArg (fun x : ServoSide => bitsOf (x.2.2 ⟨16 * o + y.word, by omega⟩).toNat y.lo y.width) h

theorem svSt_of_servoSide (o : Fin 4) : e.svSt o = d.svSt o := sv_of_servoSide h o.isLt

end

/-- A register that is none of the mailbox's. -/
abbrev BesideMailbox (r : Reg) (i j : Nat) : Prop := ∀ k : Fin 128, r.key i j ≠ Reg.CLE_MBOX.key k 0

theorem besideMailbox_of_outside {r : Reg} {i j : Nat} (h : OutsideEngine r i j) : BesideMailbox r i j := by
  intro k
  have hmbox : Reg.CLE_MBOX.key k 0 = 0x300200 + k * 4 := rfl
  rw [hmbox]
  unfold Reg.key
  omega

theorem besideMailbox_slot {r : Reg} (h : SlotReg r) (n : Nat) : BesideMailbox r n 0 := fun k =>
  slotKey_ne_engineKey h ⟨rfl, show 0x200 + k.val * 4 < 0x400 by omega⟩

section
variable (d : Dev)

@[simp] theorem servoSide_onFw (f : Firmware → Firmware) : servoSide (d.onFw f) = servoSide d := rfl
@[simp] theorem servoSide_onOpuFw (o : Nat) (f : OpuFw → OpuFw) : servoSide (d.onOpuFw o f) = servoSide d := rfl
@[simp] theorem servoSide_onWsg (o : Nat) (f : Wsg → Wsg) : servoSide (d.onWsg o f) = servoSide d := rfl
@[simp] theorem servoSide_onSled (o : Nat) (f : Sled → Sled) : servoSide (d.onSled o f) = servoSide d := rfl
@[simp] theorem servoSide_onSlice (n : Nat) (f : Slice → Slice) : servoSide (d.onSlice n f) = servoSide d := rfl
@[simp] theorem servoSide_onSlot (n : Nat) (f : CleSlot → CleSlot) : servoSide (d.onSlot n f) = servoSide d := rfl
@[simp] theorem servoSide_onCal (f : Calib → Calib) : servoSide (d.onCal f) = servoSide d := rfl
@[simp] theorem servoSide_onJournal (f : Journal → Journal) : servoSide (d.onJournal f) = servoSide d := rfl
@[simp] theorem servoSide_setOut (p v : Nat) : servoSide (d.setOut p v) = servoSide d := rfl
@[simp] theorem servoSide_drew : servoSide d.drew = servoSide d := rfl

theorem servoSide_wr {r : Reg} (v : DWord) {i j : Nat} (h : BesideMailbox r i j) : servoSide (d.wr r v i j) = servoSide d := by
  unfold servoSide
  rw [wr_servos, wr_eng]
  congr 2
  exact funext fun k => rd_wr_ne _ _ _ _ _ _ _ _ (h k)

theorem servoSide_fs_slot (x : Fld) (v n : Nat) (h : SlotReg x.reg := by decide) : servoSide (d.fs x v n) = servoSide d :=
  servoSide_wr d _ (besideMailbox_slot h n)

/-- A field of a window above the engine's. -/
theorem servoSide_fs_above (x : Fld) (v i : Nat) (h : 3 < x.reg.blk.code := by decide) : servoSide (d.fs x v i) = servoSide d :=
  servoSide_wr d _ (besideMailbox_of_outside (.inl h))

/-- A field of a window below the engine's. -/
theorem servoSide_fs_below (x : Fld) (v : Nat) {i : Nat} (hi : i < x.reg.n1) (h : BelowEngine x.reg := by decide) :
    servoSide (d.fs x v i) = servoSide d := by
  obtain ⟨hcode, -, hfit⟩ := h
  have hrow : i * x.reg.s1 ≤ (x.reg.n1 - 1) * x.reg.s1 := Nat.mul_le_mul_right _ (by omega)
  exact servoSide_wr d _ (besideMailbox_of_outside (.inr ⟨hcode, by omega⟩))

/-- A field of CLE_STAT. -/
theorem servoSide_fs_cleStat (x : Fld) (v : Nat) (h : x.reg = .CLE_STAT := by rfl) : servoSide (d.fs x v) = servoSide d :=
  servoSide_wr d _ fun k => (cleMbox_above x h k).symm

/-! Loop slots and ports. -/

theorem servoSide_bankSwap (n : Nat) : servoSide (bankSwap n d) = servoSide d := by
  unfold bankSwap
  rw [servoSide_onSlot, servoSide_fs_slot _ .SLOT_CTL_BANK_GEN, servoSide_fs_slot _ .SLOT_CTL_PENDING, servoSide_fs_slot _ .SLOT_CTL_ACTIVE]

theorem servoSide_slotStop (n : Nat) : servoSide (slotStop n d) = servoSide d := by
  rw [slotStop_eq]
  refine bankSettle_inv (P := fun e => servoSide e = servoSide d) (fun e he => (servoSide_bankSwap e n).trans he)
    (fun e he => (servoSide_fs_slot e .SLOT_CTL_PENDING 1 n).trans he) (fun _ _ _ he => he) (fun _ _ he => he) ?_
  rw [servoSide_onSlot, servoSide_fs_slot _ .SLOT_CTL_STARTED, servoSide_fs_slot _ .SLOT_CFG_EN]

theorem servoSide_slotsStop (l : List Nat) : servoSide (d.each l fun d n => slotStop n d) = servoSide d :=
  each_eq d servoSide (fun e n => servoSide_slotStop e n) l

theorem servoSide_slotsStart (l : List Nat) : servoSide (slotsStart l d) = servoSide d := by
  unfold slotsStart cleGo
  dsimp only
  rw [each_eq _ servoSide fun e n => cond_eq servoSide fun u => ?_, each_eq _ servoSide fun e n => cond_eq servoSide fun u => ?_]
  · exact servoSide_fs_slot u .SLOT_CFG_EN 1 n
  · exact servoSide_fs_slot u .SLOT_CTL_STARTED 1 n

/-- A port of an OPU's block whose value is no write inhibit. -/
theorem servoSide_portWrite (n v : Nat) (w : Word) {p : Nat} (hp : p < 256) (h : p % 64 < 12) :
    servoSide (portWrite n p v w d) = servoSide d := by
  have hwriter : ∀ u : Dev, servoSide (u.onEng fun e => { e with writer := sparseSet 0 e.writer p (n + 1) }) = servoSide u := fun _ => rfl
  unfold portWrite
  split
  · rfl
  · split
    · exact servoSide_fs_cleStat d .CLE_STAT_ISLAND_OFF 1
    · dsimp only
      unfold opuPortWrite
      split
      · rw [servoSide_setOut, hwriter]
      · rw [if_neg (by omega), if_neg (by omega), if_neg (by omega), if_neg (by simp; omega), hwriter]

theorem servoSide_sendCode (n : Nat) {opu o : Nat} (code : Int) (ho : opu < 4) (h : o < 12) :
    servoSide (sendCode n opu o code d) = servoSide d := servoSide_portWrite d n _ _ (by omega) (by omega)

theorem servoSide_apcStop {opu : Nat} (ho : opu < 4) : servoSide (apcStop opu d) = servoSide d := by
  unfold apcStop beamsEnable
  split
  · split
    · rw [servoSide_fs_below _ .WSG_OSTAT_LDC_QFULL 1 ho, servoSide_slotsStop]
    · rw [servoSide_onWsg, servoSide_slotsStop]
  · rfl

theorem servoSide_loopEvent (n : Nat) : servoSide (loopEvent n d) = servoSide d := by
  unfold loopEvent
  rw [servoSide_drew]
  rcases postEvent_cases n d (d.freeNat 256) false with ⟨l, h⟩ | h
  · rw [h]
    rfl
  · rw [h, servoSide_fs_cleStat d .CLE_STAT_EVT_OVF 1]

/-! Slices, calibration, the sled and firmware's events. -/

theorem servoSide_slicesOn {opu : Nat} (ho : opu < 4) : servoSide (slicesOn opu d) = servoSide d :=
  each_inv (P := fun e => servoSide e = servoSide d) rfl fun e n hn he =>
    (cond_eq servoSide fun u => by rw [servoSide_onSlice, servoSide_fs_below _ .RCS_CTL_EN 1 (slicesOf_lt ho hn)]).trans he

theorem servoSide_calRun (set : Nat) : servoSide (calRun set d) = servoSide d := by
  unfold calRun
  rw [servoSide_onCal, servoSide_fs_above d .CAL_RUN_PAIRS]

theorem servoSide_calNext : servoSide (calNext d) = servoSide d := by
  unfold calNext
  split
  · rw [servoSide_calRun, servoSide_fs_above _ .CAL_STAT_PEND, servoSide_fs_above _ .CAL_PEND_PAIRS]
  · rfl

theorem servoSide_calTrigger (set : Nat) : servoSide (calTrigger set d) = servoSide d := by
  have hmerge : ∀ u : Dev, servoSide (u.bump .CAL_CNT_MERGE) = servoSide u := fun u =>
    servoSide_wr u _ (besideMailbox_of_outside (.inl (by decide)))
  unfold calTrigger
  dsimp only
  split
  · rfl
  · split
    · rw [servoSide_calRun, each_eq _ servoSide fun e p => servoSide_onCal e _]
    · rw [servoSide_calNext, servoSide_fs_above _ .CAL_STAT_PEND, servoSide_fs_above _ .CAL_PEND_PAIRS, cond_eq servoSide hmerge,
        each_eq _ servoSide fun e p => servoSide_onCal e _]

theorem servoSide_sledAnchor (opu : Nat) : servoSide (sledAnchor opu d) = servoSide d := by
  unfold sledAnchor
  dsimp only
  split
  · exact servoSide_onSled d _ _
  · rw [servoSide_onSled, servoSide_fs_above _ .SLD_STAT_POS_UNSURE, servoSide_fs_above _ .SLD_LIM_MAX, servoSide_fs_above _ .SLD_LIM_MIN]

theorem servoSide_layerArrived (opu : Nat) : servoSide (layerArrived opu d) = servoSide d := by
  unfold layerArrived
  dsimp only
  split
  · rfl
  · rw [servoSide_calTrigger, servoSide_onOpuFw]

theorem servoSide_event (x : EventInfo) : servoSide (d.event x) = servoSide d := by
  obtain ⟨j, h | ⟨v, h⟩⟩ := event_journal d x
  · rw [h, servoSide_onJournal]
  · rw [h, servoSide_fs_above _ .RJ_STAT_FULL, servoSide_onJournal]

end

end Sys2Proof.Proofs
end

section
/-!
SUPPORT. What the shared operations of the servo leave of an OPU's state, and that they leave the servos and states of the others
(07_optical_servo.md R255 to R257, R271 to R273, Table 7-7).
-/

namespace Sys2Proof.Proofs

open Sys2Proof Sys2Proof.Machine Sys2Proof.Laws

/-! One OPU's servo. -/

section
variable (d : Dev) (opu o : Nat)

@[simp] theorem servo_onServo_self (f : Servo → Servo) : (d.onServo opu f).servo opu = f (d.servo opu) := by
  rw [servo_onServo, if_pos rfl]

@[simp] theorem servo_onOpuFw (f : OpuFw → OpuFw) : (d.onOpuFw opu f).servo o = d.servo o := rfl
@[simp] theorem servo_setInhibit (on : Bool) : (d.setInhibit opu on).servo o = d.servo o := rfl
@[simp] theorem servo_svSet (x : SvFld) (v : Nat) : (d.svSet opu x v).servo o = d.servo o := rfl
@[simp] theorem sv_onServo (f : Servo → Servo) (y : SvFld) : (d.onServo opu f).sv o y = d.sv o y := rfl
@[simp] theorem sv_onOpuFw (f : OpuFw → OpuFw) (y : SvFld) : (d.onOpuFw opu f).sv o y = d.sv o y := rfl
@[simp] theorem sv_setInhibit (on : Bool) (y : SvFld) : (d.setInhibit opu on).sv o y = d.sv o y := rfl
@[simp] theorem svSt_onServo (f : Servo → Servo) : (d.onServo opu f).svSt o = d.svSt o := rfl
@[simp] theorem svSt_onOpuFw (f : OpuFw → OpuFw) : (d.onOpuFw opu f).svSt o = d.svSt o := rfl
@[simp] theorem inhibited_onServo (f : Servo → Servo) : (d.onServo opu f).inhibited o = d.inhibited o := rfl
@[simp] theorem inhibited_onOpuFw (f : OpuFw → OpuFw) : (d.onOpuFw opu f).inhibited o = d.inhibited o := rfl
@[simp] theorem inhibited_svSet (x : SvFld) (v : Nat) : (d.svSet opu x v).inhibited o = d.inhibited o := rfl

@[simp] theorem inhibited_setInhibit : (d.setInhibit opu true).inhibited opu = true := by
  have hget : sparseGet 0 (d.setInhibit opu true).eng.inhibit opu = 1 := sparseGet_set_self 0 d.eng.inhibit opu (bit true)
  rw [Dev.inhibited, hget]
  rfl

/-- A field beside STATE leaves the state. -/
theorem svSt_svSet (x : SvFld) (v : Nat) (h : SvFieldsApart x svState := by decide) : (d.svSet opu x v).svSt o = d.svSt o :=
  sv_svSet d opu o v h

/-! States and reasons (Table 7-7, R271). -/

/-- A state is its mailbox field, with the write inhibit in every state but TRACKING. -/
theorem setSv_cases (st : Nat) : d.setSv opu st = d.svSet opu svState st ∨ d.setSv opu st = (d.svSet opu svState st).setInhibit opu true := by
  unfold Dev.setSv Dev.cond
  split
  · exact .inr rfl
  · exact .inl rfl

@[simp] theorem servo_setSv (st : Nat) : (d.setSv opu st).servo o = d.servo o := by
  rcases setSv_cases d opu st with h | h <;> rw [h] <;> rfl

theorem sv_setSv (st : Nat) {y : SvFld} (h : SvFieldsApart svState y := by decide) : (d.setSv opu st).sv o y = d.sv o y := by
  rcases setSv_cases d opu st with hst | hst
  · rw [hst, sv_svSet _ _ _ _ h]
  · rw [hst, sv_setInhibit, sv_svSet _ _ _ _ h]

theorem svSt_setSv_self {st : Nat} (h : st < 2 ^ 4 := by decide) : (d.setSv opu st).svSt opu = st := by
  have hself : (d.svSet opu svState st).sv opu svState = st := (sv_svSet_self d opu st (by decide)).trans (Nat.mod_eq_of_lt h)
  rcases setSv_cases d opu st with hst | hst
  · rw [hst, Dev.svSt, hself]
  · rw [hst, Dev.svSt, sv_setInhibit, hself]

/-- Every state but TRACKING holds the write inhibit set. -/
theorem inhibited_setSv {st : Nat} (h : st ≠ svTracking := by decide) : (d.setSv opu st).inhibited opu = true := by
  rw [Dev.setSv, bne_iff_ne.mpr h, Laws.cond_true, inhibited_setInhibit]

theorem inhReason_true (k : Nat) :
    inhReason opu k true d = (d.svSet opu svInhSrc (d.sv opu svInhSrc ||| 2 ^ k)).setInhibit opu true := rfl

theorem inhReason_false (k : Nat) : inhReason opu k false d = d.svSet opu svInhSrc (putBits (d.sv opu svInhSrc) k 1 0) := rfl

@[simp] theorem servo_inhReason (k : Nat) (on : Bool) : (inhReason opu k on d).servo o = d.servo o := by
  cases on
  · rw [inhReason_false, servo_svSet]
  · rw [inhReason_true, servo_setInhibit, servo_svSet]

theorem sv_inhReason (k : Nat) (on : Bool) {y : SvFld} (h : SvFieldsApart svInhSrc y := by decide) :
    (inhReason opu k on d).sv o y = d.sv o y := by
  cases on
  · rw [inhReason_false, sv_svSet _ _ _ _ h]
  · rw [inhReason_true, sv_setInhibit, sv_svSet _ _ _ _ h]

theorem svSt_inhReason (k : Nat) (on : Bool) : (inhReason opu k on d).svSt o = d.svSt o := by
  rw [Dev.svSt, Dev.svSt, sv_inhReason]

/-- A reason that comes sets the write inhibit. -/
theorem inhibited_inhReason (k : Nat) : (inhReason opu k true d).inhibited opu = true := by
  rw [inhReason_true, inhibited_setInhibit]

/-! A mailbox command's end (R256). -/

theorem servo_endSv (result : Nat) : (endSv opu result d).servo opu = { d.servo opu with running := 0 } := by
  rw [endSv, servo_onServo_self, servo_svSet]

theorem sv_endSv (result : Nat) {y : SvFld} (h : SvFieldsApart svResult y := by decide) : (endSv opu result d).sv o y = d.sv o y := by
  rw [endSv, sv_onServo, sv_svSet _ _ _ _ h]

theorem svSt_endSv (result : Nat) : (endSv opu result d).svSt o = d.svSt o := by rw [Dev.svSt, Dev.svSt, sv_endSv]

theorem svResult_endSv {result : Nat} (h : result < 2 ^ 3 := by decide) : (endSv opu result d).sv opu svResult = result := by
  rw [endSv, sv_onServo, sv_svSet_self _ _ _ (by decide)]
  exact Nat.mod_eq_of_lt h

@[simp] theorem inhibited_endSv (result : Nat) : (endSv opu result d).inhibited o = d.inhibited o := by
  rw [endSv, inhibited_onServo, inhibited_svSet]

end

/-! The other OPUs. -/

/-- The servos and the servo states of the OPUs other than one are in `e` what they are in `d`. -/
structure OthersKept (opu : Fin 4) (d e : Dev) : Prop where
  servo : ∀ o : Fin 4, o ≠ opu → e.servo o = d.servo o
  state : ∀ o : Fin 4, o ≠ opu → e.svSt o = d.svSt o

section
variable {opu : Fin 4} {d e : Dev}

theorem OthersKept.refl (opu : Fin 4) (d : Dev) : OthersKept opu d d := ⟨fun _ _ => rfl, fun _ _ => rfl⟩

theorem OthersKept.trans {u : Dev} (h : OthersKept opu d e) (hu : OthersKept opu e u) : OthersKept opu d u :=
  ⟨fun o ho => (hu.servo o ho).trans (h.servo o ho), fun o ho => (hu.state o ho).trans (h.state o ho)⟩

theorem OthersKept.both (h : OthersKept opu d e) (o : Fin 4) (ho : o ≠ opu) : e.servo o = d.servo o ∧ e.svSt o = d.svSt o :=
  ⟨h.servo o ho, h.state o ho⟩

theorem OthersKept.of_servoSide {u : Dev} (h : OthersKept opu d e) (hu : servoSide u = servoSide e) : OthersKept opu d u :=
  ⟨fun o ho => (servo_of_servoSide hu o).trans (h.servo o ho), fun o ho => (svSt_of_servoSide hu o).trans (h.state o ho)⟩

theorem OthersKept.onServo (h : OthersKept opu d e) (f : Servo → Servo) : OthersKept opu d (e.onServo opu f) := by
  refine ⟨fun o ho => ?_, h.state⟩
  rw [servo_onServo, if_neg fun hval => ho (Fin.ext hval.symm)]
  exact h.servo o ho

theorem OthersKept.svSet (h : OthersKept opu d e) (x : SvFld) (v : Nat) (hx : x.word < 16 := by decide) :
    OthersKept opu d (e.svSet opu x v) :=
  ⟨h.servo, fun o ho => (sv_svSet_other e opu o v (fun hval => ho (Fin.ext hval.symm)) hx).trans (h.state o ho)⟩

theorem OthersKept.setInhibit (h : OthersKept opu d e) (on : Bool) : OthersKept opu d (e.setInhibit opu on) := ⟨h.servo, h.state⟩

theorem OthersKept.onOpuFw (h : OthersKept opu d e) (f : OpuFw → OpuFw) : OthersKept opu d (e.onOpuFw opu f) := ⟨h.servo, h.state⟩

theorem OthersKept.setSv (h : OthersKept opu d e) (st : Nat) : OthersKept opu d (e.setSv opu st) :=
  cond_inv (h.svSet svState st) fun _ he => he.setInhibit true

theorem OthersKept.inhReason (h : OthersKept opu d e) (k : Nat) (on : Bool) : OthersKept opu d (inhReason opu k on e) := by
  cases on
  · exact h.svSet svInhSrc _
  · exact (h.svSet svInhSrc _).setInhibit true

theorem OthersKept.endSv (h : OthersKept opu d e) (result : Nat) : OthersKept opu d (endSv opu result e) :=
  (h.svSet svResult result).onServo _

end

/-! A waiting command taken (R256, R268). -/

/-- A mailbox command of an OPU waits, and no jump must settle first. -/
structure Waits (opu op : Nat) (d : Dev) : Prop where
  ready : d.opuReady opu = true
  settled : d.jumping opu = false
  op : d.sv opu svOp = op
  token : d.sv opu svToken ≠ d.sv opu svTaken

/-- What taking a command leaves: the command runs under its token, the band and the other OPUs are as they were, and of the OPU's
mailbox fields none beside SV_STATE.TOKEN and RESULT changes. -/
structure Taken (opu : Fin 4) (op : Nat) (d e : Dev) : Prop where
  servo : e.servo opu = { d.servo opu with running := op, surprises := 0, retried := false, holding := false }
  token : e.sv opu svTaken = d.sv opu svToken
  fields : ∀ y, SvFieldsApart svResult y → SvFieldsApart svTaken y → e.sv opu y = d.sv opu y
  band : e.fg .RCS_BAND_BASE_TRACK opu = d.fg .RCS_BAND_BASE_TRACK opu
  others : OthersKept opu d e

/-- The band of an OPU lies outside the mailbox. -/
theorem bandBase_svSet (d : Dev) (opu o v : Nat) (x : SvFld) (ho : o < 4) : (d.svSet opu x v).rd .RCS_BAND_BASE o = d.rd .RCS_BAND_BASE o := by
  refine rd_wr_ne _ _ _ _ _ _ _ _ ?_
  have hmbox : ∀ n, Reg.CLE_MBOX.key n 0 = 0x300200 + n * 4 := fun _ => rfl
  have hband : Reg.RCS_BAND_BASE.key o 0 = 0x18004 + o * 0x100 := by
    show 0 * 0x100000 + 0x18004 + o * 0x100 + 0 * _ = _
    omega
  rw [hmbox, hband]
  omega

theorem fg_bandBase_svSet (d : Dev) (opu o v : Nat) (x : SvFld) (ho : o < 4) :
    (d.svSet opu x v).fg .RCS_BAND_BASE_TRACK o = d.fg .RCS_BAND_BASE_TRACK o :=
  congrArg (fun w : DWord => bitsOf w.toNat 0 18) (bandBase_svSet d opu o v x ho)

theorem Waits.takeSv {opu : Fin 4} {op : Nat} {d : Dev} (h : Waits opu op d) : ∃ e, takeSv opu op d = some e ∧ Taken opu op d e := by
  obtain ⟨hready, hsettled, hop, htoken⟩ := h
  unfold Machine.takeSv
  rw [if_neg (by simp [hready, hsettled, hop, htoken])]
  refine ⟨_, rfl, ?_⟩
  generalize hcond : d.cond ((d.servo opu).running != 0) (fun d => d.svSet opu svResult 3) = e
  have hkept : ∀ y, SvFieldsApart svResult y → e.sv opu y = d.sv opu y := fun y hy => by
    rw [← hcond]
    exact cond_eq (fun e => e.sv opu y) fun e => sv_svSet e opu opu 3 hy
  have hservo : e.servo opu = d.servo opu := by
    rw [← hcond]
    exact cond_eq (fun e => e.servo opu) fun e => servo_svSet e _ _ _ _
  have hband : e.fg .RCS_BAND_BASE_TRACK opu = d.fg .RCS_BAND_BASE_TRACK opu := by
    rw [← hcond]
    exact cond_eq (fun e => e.fg .RCS_BAND_BASE_TRACK opu) fun e => fg_bandBase_svSet e opu opu 3 svResult opu.isLt
  have hothers : OthersKept opu d e := by
    rw [← hcond]
    exact cond_inv (OthersKept.refl opu d) fun _ he => he.svSet svResult 3
  refine ⟨?_, ?_, fun y hresult htaken => ?_, ?_, (hothers.svSet svTaken _).onServo _⟩
  · rw [servo_onServo_self, servo_svSet, hservo]
  · rw [sv_onServo, sv_svSet_self _ _ _ (by decide), hkept svToken (by decide)]
    exact Nat.mod_eq_of_lt (bitsOf_lt _ _ _)
  · rw [sv_onServo, sv_svSet _ _ _ _ htaken, hkept y hresult]
  · rw [onServo_fg, fg_bandBase_svSet _ _ _ _ _ opu.isLt, hband]

/-- With no new token there is no command to take. -/
theorem takeSv_none {opu op : Nat} {d : Dev} (h : d.sv opu svToken = d.sv opu svTaken) : takeSv opu op d = none := by
  unfold takeSv
  rw [if_pos (by simp [h])]

theorem Taken.state {opu : Fin 4} {op : Nat} {d e : Dev} (h : Taken opu op d e) : e.svSt opu = d.svSt opu :=
  h.fields svState (by decide) (by decide)

/-! A focus sweep that begins (R257, R258). -/

/-- What the beginning of a focus sweep leaves of an OPU, whatever its command: the lens swept upward, over the whole range or about a
held code, and the write inhibit set. -/
structure Sweeps (opu : Fin 4) (held : Option Int) (d e : Dev) : Prop where
  state : e.svSt opu = svSweep
  inhibited : e.inhibited opu = true
  focus : (e.servo opu).focus = .sweep false
  near : (e.servo opu).near = held
  code : (e.servo opu).foc.code = (sweepRange held).1
  trkOpen : (e.servo opu).trkClosed = false
  running : (e.servo opu).running = (d.servo opu).running
  wantLayer : (e.servo opu).wantLayer = (d.servo opu).wantLayer
  taken : e.sv opu svTaken = d.sv opu svTaken
  others : OthersKept opu d e

theorem servoSide_faultsCleared (d : Dev) (l : List Nat) :
    servoSide (d.each l fun d n => (d.fs .SLOT_STAT_FAULT 0 n).fs .SLOT_STAT_CAUSE 0 n) = servoSide d :=
  each_eq d servoSide (fun e n => by rw [servoSide_fs_slot _ .SLOT_STAT_CAUSE, servoSide_fs_slot _ .SLOT_STAT_FAULT]) l

theorem focBegin_sweeps (opu : Fin 4) (near : Option Int) (d : Dev) : Sweeps opu near d (focBegin opu near d) := by
  unfold focBegin
  extract_lets u v w x y
  have hw : servoSide w = servoSide d := by
    rw [servoSide_slotsStart, servoSide_faultsCleared, servoSide_slicesOn d opu.isLt]
  have hsend : servoSide (sendCode (4 + opu) opu 9 0 (sendCode opu opu 8 (sweepRange near).1 y)) = servoSide y := by
    rw [servoSide_sendCode _ _ _ opu.isLt (by decide), servoSide_sendCode _ _ _ opu.isLt (by decide)]
  have hstate : y.svSt opu = svSweep := by
    rw [svSt_onServo, svSt_inhReason, svSt_inhReason, svSt_inhReason, svSt_setSv_self]
  have hinhibited : y.inhibited opu = true := by rw [inhibited_onServo, inhibited_inhReason]
  have htaken : y.sv opu svTaken = w.sv opu svTaken := by
    rw [sv_onServo, sv_inhReason, sv_inhReason, sv_inhReason, sv_setSv]
  have hservo := servo_of_servoSide hsend opu
  have hold := servo_of_servoSide hw opu
  rw [servo_onServo_self, servo_inhReason, servo_inhReason, servo_inhReason, servo_setSv, hold] at hservo
  have hothers : OthersKept opu d y :=
    ((((((OthersKept.refl opu d).of_servoSide hw).setSv _).inhReason _ _).inhReason _ _).inhReason _ _).onServo _
  refine ⟨(svSt_of_servoSide hsend opu).trans hstate, (inhibited_of_servoSide hsend opu).trans hinhibited, ?_, ?_, ?_, ?_,
    ?_, ?_, (sv_of_servoSide hsend opu.isLt).trans (htaken.trans (sv_of_servoSide hw opu.isLt)), hothers.of_servoSide hsend⟩ <;> rw [hservo]

/-! An OPU's loops opened (R273). -/

/-- What opening an OPU's loops leaves: OPEN with the write inhibit set, and of the servo the runout table alone. -/
structure Opened (opu : Fin 4) (d e : Dev) : Prop where
  state : e.svSt opu = svOpen
  inhibited : e.inhibited opu = true
  servo : e.servo opu = { runout := (d.servo opu).runout, learn := (d.servo opu).learn }
  others : OthersKept opu d e

theorem servoOpen_opened (opu : Fin 4) (d : Dev) : Opened opu d (servoOpen opu d) := by
  unfold servoOpen
  extract_lets u v w
  have hv : servoSide v = servoSide d := by
    rw [each_eq _ servoSide fun e o => servoSide_setOut e _ _, servoSide_slotsStop]
  refine ⟨?_, ?_, ?_, ((((OthersKept.refl opu d).of_servoSide hv).setSv _).svSet _ _).onServo _⟩
  · rw [svSt_onServo, svSt_svSet _ _ _ svInhSrc, svSt_setSv_self]
  · rw [inhibited_onServo, inhibited_svSet, inhibited_setSv]
  · rw [servo_onServo_self, servo_svSet, servo_setSv, servo_of_servoSide hv]

end Sys2Proof.Proofs
end

section
/-!
SUPPORT. The servo's mailbox commands, each with the state it leaves (07_optical_servo.md R256 to R261, R268, R269).
-/

namespace Sys2Proof.Proofs

open Sys2Proof Sys2Proof.Machine Sys2Proof.Laws

section
variable {opu : Fin 4} {d : Dev}

/-! Focus and layers (R257 to R260). -/

/-- FOCUS_ACQUIRE of a waiting command takes it and begins a full sweep toward the layer asked for. -/
theorem focusAcquire_eq (h : Waits opu 1 d) (side : Nat) : ∃ e, Taken opu 1 d e ∧
    focusAcquire opu side [] d = focBegin opu none (e.onServo opu fun s => { s with wantLayer := e.sv opu svArgLayer }) := by
  obtain ⟨e, he, htaken⟩ := h.takeSv
  refine ⟨e, htaken, ?_⟩
  unfold focusAcquire
  rw [he]

/-- The first full sweep that fails is repeated downward, and no more is done. -/
theorem focusSweepFail_again (hst : d.svSt opu = svSweep) (hagain : (d.servo opu).again = false) (hnear : (d.servo opu).near = none) :
    focusSweepFail opu d = d.onServo opu fun s =>
      { s with again := true, focus := .sweep true, curves := 0, lobe := 0, foc := { u := bRat 16384 1, code := 16384 } } := by
  unfold focusSweepFail
  dsimp only
  rw [if_neg (by simp [hst]), if_neg (by simp [hnear]), if_pos (by simp [hagain])]

/-- A sweep about a held code that fails is followed by a full one. -/
theorem focusSweepFail_near (hst : d.svSt opu = svSweep) (hnear : (d.servo opu).near.isSome = true) :
    focusSweepFail opu d = focBegin opu none d := by
  unfold focusSweepFail
  dsimp only
  rw [if_neg (by simp [hst]), if_pos hnear]

theorem layerStepTimeout_eq (hst : d.svSt opu = svLayerJump) : layerStepTimeout opu d = focBegin opu none d := by
  unfold layerStepTimeout
  rw [if_neg (by simp [hst])]

/-- What the beginning of a layer step leaves (Table 7-9): the corrector on its way to the midpoint, and a kick toward the layer. -/
structure LayerSteps (opu : Fin 4) (d e : Dev) : Prop where
  state : e.svSt opu = svLayerJump
  inhibited : e.inhibited opu = true
  stepWait : (e.servo opu).stepWait = 1
  sacMid : (e.servo opu).sacMid = some (nextLayer (d.sv opu svLayer) (d.servo opu).wantLayer)
  trkOpen : (e.servo opu).trkClosed = false
  kickUp : (e.servo opu).kickUp = decide (d.sv opu svLayer < (d.servo opu).wantLayer)
  running : (e.servo opu).running = (d.servo opu).running
  others : OthersKept opu d e

theorem layerStep_steps (opu : Fin 4) (d : Dev) : LayerSteps opu d (layerStep opu d) := by
  have hothers : OthersKept opu d (layerStep opu d) := (((OthersKept.refl opu d).setSv _).onServo _).inhReason _ _
  unfold layerStep at hothers ⊢
  dsimp only at hothers ⊢
  refine ⟨?_, ?_, ?_, ?_, ?_, ?_, ?_, hothers⟩
  · rw [svSt_inhReason, svSt_onServo, svSt_setSv_self]
  · rw [inhibited_inhReason]
  all_goals rw [servo_inhReason, servo_onServo_self]
  rw [servo_setSv]

/-- Toward another layer a walk begins with a step, and stands there until a layer is confirmed. -/
theorem layerWalk_begins (hst : d.svSt opu ≠ svLayerJump) (hlayer : d.sv opu svLayer ≠ (d.servo opu).wantLayer) :
    layerWalk opu [] d = layerStep opu d := by
  unfold layerWalk
  rw [if_neg hlayer, bne_iff_ne.mpr hst, Laws.cond_true]

/-- On the layer asked for a walk ends at once. -/
theorem layerWalk_there (l : List Nat) (hlayer : d.sv opu svLayer = (d.servo opu).wantLayer) : layerWalk opu l d = layerDone opu d := by
  unfold layerWalk
  rw [if_pos hlayer]

/-- LAYER_JUMP of a waiting command with focus closed on another layer begins a step toward it. -/
theorem layerJump_begins (h : Waits opu 2 d) (hfocus : (d.servo opu).focus = .closed) (hst : d.svSt opu ≠ svLayerJump)
    (hlayer : d.sv opu svLayer ≠ d.sv opu svArgLayer) : ∃ e, (e.servo opu).running = 2 ∧ (e.servo opu).wantLayer = d.sv opu svArgLayer ∧
      e.sv opu svLayer = d.sv opu svLayer ∧ OthersKept opu d e ∧ layerJump opu [] d = layerStep opu e := by
  obtain ⟨e, he, htaken⟩ := h.takeSv
  have hwant := htaken.fields svArgLayer (by decide) (by decide)
  have hnow := htaken.fields svLayer (by decide) (by decide)
  refine ⟨e.onServo opu fun s => { s with wantLayer := e.sv opu svArgLayer }, ?_, ?_, ?_, htaken.others.onServo _, ?_⟩
  · rw [servo_onServo_self, htaken.servo]
  · rw [servo_onServo_self, hwant]
  · rw [sv_onServo, hnow]
  · unfold layerJump
    rw [he]
    dsimp only
    rw [if_neg (by simp [htaken.servo, hfocus]), layerWalk_begins]
    · rw [svSt_onServo, htaken.state]
      exact hst
    · rw [servo_onServo_self, sv_onServo, hnow, hwant]
      exact hlayer

/-- With focus open a layer jump is refused. -/
theorem layerJump_refused (h : Waits opu 2 d) (hfocus : (d.servo opu).focus ≠ .closed) (l : List Nat) : ∃ e, Taken opu 2 d e ∧
    layerJump opu l d = endSv opu 2 e := by
  obtain ⟨e, he, htaken⟩ := h.takeSv
  refine ⟨e, htaken, ?_⟩
  unfold layerJump
  rw [he]
  dsimp only
  rw [if_pos (by simp [htaken.servo, hfocus])]

/-! The track (R261, R269). -/

theorem opuFw_svSet (d : Dev) (opu o v : Nat) (x : SvFld) : (d.svSet opu x v).opuFw o = d.opuFw o := rfl

theorem opuFw_onServo (d : Dev) (opu o : Nat) (f : Servo → Servo) : (d.onServo opu f).opuFw o = d.opuFw o := rfl

theorem opuFw_endSv (d : Dev) (opu o result : Nat) : (endSv opu result d).opuFw o = d.opuFw o := by
  rw [endSv, opuFw_onServo, opuFw_svSet]

/-- Anchoring a sled is no part of what firmware keeps for the OPUs. -/
theorem opuFw_sledAnchor (d : Dev) (opu o : Nat) : (sledAnchor opu d).opuFw o = d.opuFw o := by
  have hfw : (sledAnchor opu d).fw = d.fw := by
    unfold sledAnchor
    dsimp only
    split
    · exact onSled_fw d _ _
    · rw [onSled_fw, fs_fw, fs_fw, fs_fw]
  rw [Dev.opuFw, hfw, Dev.opuFw]

/-- What reaching TRACKING leaves of an OPU: the state, the command ended well, and the band reached since the disc was loaded. -/
theorem nowTracking_spec (opu : Fin 4) (d : Dev) :
    (nowTracking opu d).svSt opu = svTracking ∧ (nowTracking opu d).sv opu svResult = 0 ∧ ((nowTracking opu d).servo opu).running = 0 ∧
      ((nowTracking opu d).opuFw opu).reached = true ∧ OthersKept opu d (nowTracking opu d) := by
  unfold nowTracking
  extract_lets first u v w x
  have hu : OthersKept opu d u := cond_inv (OthersKept.refl opu d) fun e he =>
    ((he.svSet svLearn 1).onServo _).of_servoSide (servoSide_calTrigger _ _)
  have hw : w.svSt opu = svTracking := by rw [svSt_inhReason, svSt_inhReason, svSt_inhReason, svSt_setSv_self]
  have hothers : OthersKept opu d w :=
    ((((hu.of_servoSide (servoSide_layerArrived u opu)).setSv _).inhReason _ _).inhReason _ _).inhReason _ _
  have hside := servoSide_sledAnchor ((x.svSet opu svLeft 0).onServo opu fun s => { s with seeking := false }) opu
  refine ⟨?_, svResult_endSv _ _, ?_, ?_, (((((hothers.onOpuFw _).svSet svLeft 0).onServo _).of_servoSide hside).endSv 0)⟩
  · rw [svSt_endSv, svSt_of_servoSide hside opu, svSt_onServo, svSt_svSet _ _ _ svLeft, svSt_onOpuFw, hw]
  · rw [servo_endSv]
  · rw [opuFw_endSv, opuFw_sledAnchor, opuFw_onServo, opuFw_svSet, opuFw_onOpuFw, if_pos rfl]

/-- TRACK_ACQUIRE with the loop closed and three good wedges at the target: the OPU is TRACKING. -/
theorem trackAcquire_onTarget (hready : d.opuReady opu = true) (hsettled : d.jumping opu = false)
    (htoken : d.sv opu svToken = d.sv opu svTaken) (hst : d.svSt opu = svTrkAcq) (hfocus : (d.servo opu).focus = .closed)
    (hclosed : (d.servo opu).trkClosed = true) (settled : Bool) : trackAcquire opu settled true d = nowTracking opu d := by
  unfold trackAcquire
  rw [takeSv_none htoken]
  dsimp only
  rw [if_neg (by simp [hready, hsettled, hfocus]), if_pos (by simp [hst, hclosed])]

/-- A radial move of more than 160 tracks: SEEK, with the sled's move to make. -/
theorem radialMove_long {delta : Int} (hfar : 160 < delta.natAbs) (opu : Fin 4) (d : Dev) :
    (radialMove opu delta d).svSt opu = svSeeking ∧ (radialMove opu delta d).inhibited opu = true ∧
      ((radialMove opu delta d).servo opu).seeking = true ∧ ((radialMove opu delta d).servo opu).seekNm = 225 * delta ∧
      ((radialMove opu delta d).servo opu).running = (d.servo opu).running ∧ OthersKept opu d (radialMove opu delta d) := by
  unfold radialMove
  extract_lets n u to_ v
  rw [if_neg (by omega), if_neg (by omega), if_neg (by omega)]
  have hservo : v.servo opu = d.servo opu := by rw [servo_inhReason, servo_setSv, servo_svSet]
  have hothers : OthersKept opu d v := (((OthersKept.refl opu d).svSet svLeft n).setSv _).inhReason _ _
  refine ⟨?_, ?_, ?_, ?_, ?_, hothers.onServo _⟩
  · rw [svSt_onServo, svSt_inhReason, svSt_setSv_self]
  · rw [inhibited_onServo, inhibited_inhReason]
  · rw [servo_onServo_self]
  · rw [servo_onServo_self]
  · rw [servo_onServo_self, hservo]

/-- SV_SEEK of a waiting command from TRACKING, on the same layer and away from the track asked for: the radial move there. -/
theorem svSeek_eq (h : Waits opu 4 d) (hfocus : (d.servo opu).focus = .closed) (hst : d.svSt opu = svTracking)
    (hlayer : d.sv opu svLayer = d.sv opu svArgLayer) (haway : (d.sv opu svTrack : Int) - d.fg .RCS_BAND_BASE_TRACK opu ≠ 0) :
    ∃ e, (e.servo opu).running = 4 ∧ OthersKept opu d e ∧
      svSeek opu false [] d = radialMove opu ((d.sv opu svTrack : Int) - d.fg .RCS_BAND_BASE_TRACK opu) e := by
  obtain ⟨e, he, htaken⟩ := h.takeSv
  obtain ⟨hservo, -, hfields, hband, hothers⟩ := htaken
  generalize hu : (e.onServo opu fun s => { s with wantTrack := e.sv opu svTrack, wantLayer := e.sv opu svArgLayer }) = u
  have huServo : u.servo opu = { e.servo opu with wantTrack := d.sv opu svTrack, wantLayer := d.sv opu svArgLayer } := by
    rw [← hu, servo_onServo_self, hfields svTrack (by decide) (by decide), hfields svArgLayer (by decide) (by decide)]
  have huSv : ∀ y, u.sv opu y = e.sv opu y := fun y => by rw [← hu, sv_onServo]
  have huBand : u.fg .RCS_BAND_BASE_TRACK opu = d.fg .RCS_BAND_BASE_TRACK opu := by rw [← hu, onServo_fg, hband]
  have huSt : u.svSt opu = svTracking := by rw [Dev.svSt, huSv, hfields svState (by decide) (by decide), ← hst, Dev.svSt]
  have hrunning : (u.servo opu).running = 4 := by rw [huServo, hservo]
  have hwalk : layerWalk opu [] u = u := by
    rw [layerWalk_there [] (by rw [huSv, hfields svLayer (by decide) (by decide), huServo, hlayer])]
    unfold layerDone
    rw [if_pos hrunning]
  refine ⟨inhReason opu 4 true (u.setSv opu svSeeking), ?_, ?_, ?_⟩
  · rw [servo_inhReason, servo_setSv, hrunning]
  · rw [← hu]
    exact ((hothers.onServo _).setSv _).inhReason _ _
  · unfold svSeek
    dsimp only
    rw [he]
    dsimp only
    rw [if_neg (by simp [hservo, hfocus]), hu, hwalk, if_neg (by simp [huSt, hrunning, svTracking, svLayerJump]), huBand, huServo,
      if_neg (by simp [haway])]

/-- SV_OPEN of a waiting command: the loops opened and the command ended well. -/
theorem svOpenCmd_eq (h : Waits opu 5 d) : ∃ e, Taken opu 5 d e ∧ svOpenCmd opu d = endSv opu 0 (servoOpen opu (apcStop opu e)) := by
  obtain ⟨e, he, htaken⟩ := h.takeSv
  refine ⟨e, htaken, ?_⟩
  unfold svOpenCmd
  rw [he]

/-- TRACK_HOLD of a waiting command in TRACKING. -/
theorem trackHold_eq (h : Waits opu 6 d) (hst : d.svSt opu = svTracking) : ∃ e, Taken opu 6 d e ∧
    trackHold opu d = endSv opu 0 (e.onServo opu fun s => { s with holding := true }) := by
  obtain ⟨e, he, htaken⟩ := h.takeSv
  refine ⟨e, htaken, ?_⟩
  unfold trackHold
  rw [he]
  dsimp only
  rw [if_neg (by simp [htaken.state, hst])]

end

/-! The obligation. -/

/-- A command whose effect on the unit is `f` gives what holds of the unit that `f` makes. -/
theorem gives_of_eq {c : Instr} {s : State} {f : Dev → Dev} {u : Dev} {p : Dev → Prop} (hexec : exec c s = s.onDev f) (hu : f s.dev = u)
    (hp : p u) : Gives c s p :=
  ⟨{ s with dev := u }, by rw [hexec, onDev_next, hu], rfl, rfl, hp⟩

/-- Settles O17: each clause by the command taken, where one waits, and by what the sweep, the layer step, the radial move or the end
of the command then leaves. -/
theorem servoCommands : Obligations.ServoCommands := by
  unfold Obligations.ServoCommands
  refine ⟨fun opu side s ⟨hready, hsettled⟩ ⟨hop, htoken⟩ => ?_, fun opu s hst ⟨hagain, hnear⟩ => ?_, fun opu s hst hnear => ?_,
    fun opu s ⟨hready, hsettled⟩ ⟨hop, htoken⟩ hfocus hst hlayer => ?_, fun opu l s ⟨hready, hsettled⟩ ⟨hop, htoken⟩ hfocus => ?_,
    fun opu s hst => ?_, fun opu settled s ⟨hready, hsettled⟩ htoken ⟨hst, hfocus, hclosed⟩ => ?_,
    fun opu s ⟨hready, hsettled⟩ ⟨hop, htoken⟩ ⟨hfocus, hst⟩ hlayer hfar => ?_, fun opu s ⟨hready, hsettled⟩ ⟨hop, htoken⟩ => ?_,
    fun opu s ⟨hready, hsettled⟩ ⟨hop, htoken⟩ hst => ?_⟩
  · obtain ⟨e, htaken, heq⟩ := focusAcquire_eq ⟨hready, hsettled, hop, htoken⟩ side.val
    have hsweeps := focBegin_sweeps opu none (e.onServo opu fun s => { s with wantLayer := e.sv opu svArgLayer })
    have hwant := htaken.fields svArgLayer (by decide) (by decide)
    refine gives_of_eq rfl heq ⟨hsweeps.state, hsweeps.inhibited, hsweeps.focus, ?_, hsweeps.trkOpen, ?_, ?_, ?_⟩
    · rw [hsweeps.running, servo_onServo_self, htaken.servo]
    · rw [hsweeps.wantLayer, servo_onServo_self, hwant]
    · rw [hsweeps.taken, sv_onServo, htaken.token]
    · exact ((htaken.others.onServo _).trans hsweeps.others).both
  · show State.onDev _ _ = _
    rw [onDev_next, focusSweepFail_again hst hagain hnear]
  · have hsweeps := focBegin_sweeps opu none s.dev
    exact gives_of_eq rfl (focusSweepFail_near hst hnear)
      ⟨hsweeps.state, hsweeps.inhibited, hsweeps.focus, hsweeps.near, hsweeps.code, hsweeps.others.both⟩
  · obtain ⟨e, hrunning, hwant, hnow, hkept, heq⟩ := layerJump_begins ⟨hready, hsettled, hop, htoken⟩ hfocus hst hlayer
    have hsteps := layerStep_steps opu e
    refine gives_of_eq rfl heq ⟨hsteps.state, hsteps.inhibited, hsteps.stepWait, ?_, hsteps.trkOpen, ?_, hsteps.running.trans hrunning,
      (hkept.trans hsteps.others).both⟩
    · rw [hsteps.sacMid, hnow, hwant]
    · rw [hsteps.kickUp, hnow, hwant]
  · obtain ⟨e, htaken, heq⟩ := layerJump_refused ⟨hready, hsettled, hop, htoken⟩ hfocus (l.map (·.val))
    refine gives_of_eq rfl heq ⟨svResult_endSv _ _, ?_, ?_, ?_⟩
    · rw [svSt_endSv, htaken.state]
    · rw [servo_endSv]
    · rw [servo_endSv, htaken.servo]
  · have hsweeps := focBegin_sweeps opu none s.dev
    exact gives_of_eq rfl (layerStepTimeout_eq hst) ⟨hsweeps.state, hsweeps.inhibited, hsweeps.focus, hsweeps.others.servo⟩
  · obtain ⟨hstate, hresult, hrunning, hreached, hothers⟩ := nowTracking_spec opu s.dev
    exact gives_of_eq rfl (trackAcquire_onTarget hready hsettled htoken hst hfocus hclosed settled)
      ⟨hstate, hresult, hrunning, hreached, hothers.both⟩
  · obtain ⟨e, hrunning, hkept, heq⟩ := svSeek_eq ⟨hready, hsettled, hop, htoken⟩ hfocus hst hlayer (by omega)
    obtain ⟨hstate, hinhibited, hseeking, hnm, hruns, hothers⟩ := radialMove_long hfar opu e
    exact gives_of_eq rfl heq ⟨hstate, hinhibited, hseeking, hnm, hruns.trans hrunning, (hkept.trans hothers).both⟩
  · obtain ⟨e, htaken, heq⟩ := svOpenCmd_eq ⟨hready, hsettled, hop, htoken⟩
    have hopened := servoOpen_opened opu (apcStop opu e)
    have hkept := htaken.others.of_servoSide (servoSide_apcStop e opu.isLt)
    refine gives_of_eq rfl heq ⟨?_, svResult_endSv _ _, ?_, ?_, ((hkept.trans hopened.others).endSv 0).servo⟩
    · rw [svSt_endSv, hopened.state]
      rfl
    · rw [servo_endSv]
    · rw [inhibited_endSv, hopened.inhibited]
  · obtain ⟨e, htaken, heq⟩ := trackHold_eq ⟨hready, hsettled, hop, htoken⟩ hst
    refine gives_of_eq rfl heq ⟨?_, svResult_endSv _ _, ?_, ((htaken.others.onServo _).endSv 0).servo⟩
    · rw [servo_endSv, servo_onServo_self]
    · rw [svSt_endSv, svSt_onServo, htaken.state, hst]

end Sys2Proof.Proofs
end

section
/-!
SUPPORT. Firmware's data of the OPUs over what stops their loops, and what a servo fault, the passing of sheets and a calibration trigger
leave (05_recording.md R184, R194; 07_optical_servo.md R271 to R273, R686; 10_calibration.md R346).
-/

namespace Sys2Proof.Proofs

open Sys2Proof Sys2Proof.Machine Sys2Proof.Laws

/-! Firmware's data of the OPUs, Quire time and the fuses. -/

/-- What firmware keeps for the OPUs, the Quire time and the fuse shadow. -/
def firmwareSide (d : Dev) : Sparse OpuFw × Nat × Nat := (d.fw.opus, d.qtime, d.shadow)

section
variable {d e : Dev} (h : firmwareSide e = firmwareSide d)
include h

theorem opuFw_of_firmwareSide (o : Nat) : e.opuFw o = d.opuFw o :=
  congrArg (fun x : Sparse OpuFw × Nat × Nat => sparseGet ({} : OpuFw) x.1 o) h

theorem qtime_of_firmwareSide : e.qtime = d.qtime := congrArg (·.2.1) h

theorem shadow_of_firmwareSide : e.shadow = d.shadow := congrArg (·.2.2) h

end

section
variable (d : Dev)

@[simp] theorem firmwareSide_fs (x : Fld) (v i j : Nat) : firmwareSide (d.fs x v i j) = firmwareSide d := rfl
@[simp] theorem firmwareSide_svSet (o : Nat) (x : SvFld) (v : Nat) : firmwareSide (d.svSet o x v) = firmwareSide d := rfl
@[simp] theorem firmwareSide_onWsg (o : Nat) (f : Wsg → Wsg) : firmwareSide (d.onWsg o f) = firmwareSide d := rfl
@[simp] theorem firmwareSide_onSlot (n : Nat) (f : CleSlot → CleSlot) : firmwareSide (d.onSlot n f) = firmwareSide d := rfl
@[simp] theorem firmwareSide_onServo (o : Nat) (f : Servo → Servo) : firmwareSide (d.onServo o f) = firmwareSide d := rfl
@[simp] theorem firmwareSide_onJournal (f : Journal → Journal) : firmwareSide (d.onJournal f) = firmwareSide d := rfl
@[simp] theorem firmwareSide_setOut (p v : Nat) : firmwareSide (d.setOut p v) = firmwareSide d := rfl
@[simp] theorem firmwareSide_setInhibit (o : Nat) (on : Bool) : firmwareSide (d.setInhibit o on) = firmwareSide d := rfl
@[simp] theorem firmwareSide_drew : firmwareSide d.drew = firmwareSide d := rfl

theorem firmwareSide_setSv (o st : Nat) : firmwareSide (d.setSv o st) = firmwareSide d := by
  rcases setSv_cases d o st with h | h
  · rw [h, firmwareSide_svSet]
  · rw [h, firmwareSide_setInhibit, firmwareSide_svSet]

theorem firmwareSide_inhReason (o k : Nat) (on : Bool) : firmwareSide (inhReason o k on d) = firmwareSide d := by
  cases on
  · rw [inhReason_false, firmwareSide_svSet]
  · rw [inhReason_true, firmwareSide_setInhibit, firmwareSide_svSet]

theorem firmwareSide_bankSwap (n : Nat) : firmwareSide (bankSwap n d) = firmwareSide d := by
  unfold bankSwap
  rw [firmwareSide_onSlot, firmwareSide_fs, firmwareSide_fs, firmwareSide_fs]

/-- Banks that firmware keeps back for slots are no part of what it keeps for the OPUs. -/
theorem firmwareSide_slotStop (n : Nat) : firmwareSide (slotStop n d) = firmwareSide d := by
  rw [slotStop_eq]
  refine bankSettle_inv (P := fun e => firmwareSide e = firmwareSide d) (fun e he => (firmwareSide_bankSwap e n).trans he)
    (fun _ he => he) (fun _ _ _ he => he) (fun _ _ he => he) ?_
  rw [firmwareSide_onSlot, firmwareSide_fs, firmwareSide_fs]

theorem firmwareSide_slotsStop (l : List Nat) : firmwareSide (d.each l fun d n => slotStop n d) = firmwareSide d :=
  each_eq d firmwareSide (fun e n => firmwareSide_slotStop e n) l

theorem firmwareSide_apcStop (opu : Nat) : firmwareSide (apcStop opu d) = firmwareSide d := by
  unfold apcStop beamsEnable
  split
  · split
    · rw [firmwareSide_fs, firmwareSide_slotsStop]
    · rw [firmwareSide_onWsg, firmwareSide_slotsStop]
  · rfl

theorem firmwareSide_servoOpen (opu : Nat) : firmwareSide (servoOpen opu d) = firmwareSide d := by
  unfold servoOpen
  rw [firmwareSide_onServo, firmwareSide_svSet, firmwareSide_setSv, each_eq _ firmwareSide fun e o => firmwareSide_setOut e _ _,
    firmwareSide_slotsStop]

theorem firmwareSide_event (x : EventInfo) : firmwareSide (d.event x) = firmwareSide d := by
  obtain ⟨j, h | ⟨v, h⟩⟩ := event_journal d x
  · rw [h, firmwareSide_onJournal]
  · rw [h, firmwareSide_fs, firmwareSide_onJournal]

theorem firmwareSide_loopEvent (n : Nat) : firmwareSide (loopEvent n d) = firmwareSide d := by
  unfold loopEvent
  rw [firmwareSide_drew]
  rcases postEvent_cases n d (d.freeNat 256) false with ⟨l, h⟩ | h <;> rw [h] <;> rfl

end

/-! Slots that stay stopped. -/

/-- A slot that stops starts no other. -/
theorem started_slotStop {n : Nat} {d : Dev} (m : Nat) (h : d.started n = false) : (slotStop m d).started n = false := by
  by_cases hnm : m = n
  · exact hnm ▸ slotStop_started m d
  · have hother : ∀ x ∈ Fld.SLOT_CFG_EN :: .SLOT_CTL_STARTED :: bankFields, SlotReg x.reg := by decide
    have hkept : (slotStop m d).fg .SLOT_CTL_STARTED n = d.fg .SLOT_CTL_STARTED n := slotStop_fg m d fun x hx e v => by
      by_cases hoff : x.reg.off = Reg.SLOT_CTL.off
      · have hreg : ∀ x ∈ Fld.SLOT_CFG_EN :: .SLOT_CTL_STARTED :: bankFields, x.reg.off = Reg.SLOT_CTL.off → x.reg = .SLOT_CTL := by decide
        refine fg_fs_ne e x .SLOT_CTL_STARTED v m 0 n 0 ?_
        rw [hreg x hx hoff]
        exact slotKey_ne_of_slot (by decide) hnm
      · exact fg_fs_ne e x .SLOT_CTL_STARTED v m 0 n 0 (slotKey_ne (hother x hx) (by decide) hoff)
    rw [Dev.started, Dev.is, hkept]
    exact h

/-- Of slots that stop one after another none is started. -/
theorem started_slotsStop {n : Nat} {l : List Nat} (d : Dev) (hn : n ∈ l) : (d.each l fun d n => slotStop n d).started n = false :=
  (each_gives (I := fun _ => True) (Q := fun m e => e.started m = false) trivial (fun _ _ _ _ => trivial)
    (fun e m _ _ => slotStop_started m e) (fun _ m _ _ _ hm => started_slotStop m hm)).2 n hn

/-- The mailbox is apart from the slots' registers. -/
theorem started_svSet (d : Dev) {opu : Nat} (x : SvFld) (v n : Nat) (ho : opu < 4) (hx : x.word < 16) :
    (d.svSet opu x v).started n = d.started n := by
  have hkept : (d.svSet opu x v).fg .SLOT_CTL_STARTED n = d.fg .SLOT_CTL_STARTED n :=
    fg_wr_ne d _ (slotKey_ne_engineKey (by decide) ⟨rfl, show 0x200 + (16 * opu + x.word) * 4 < 0x400 by omega⟩).symm
  rw [Dev.started, Dev.is, hkept]
  rfl

theorem started_setSv (d : Dev) (opu : Fin 4) (st n : Nat) : (d.setSv opu st).started n = d.started n := by
  rcases setSv_cases d opu st with h | h
  · rw [h, started_svSet _ _ _ _ opu.isLt (by decide)]
  · rw [h, Dev.setInhibit, Dev.started, onEng_is]
    exact started_svSet d svState st n opu.isLt (by decide)

/-! Sheets that pass to the other OPU (R184, R194). -/

/-- Sheets stay where they are, or the versions' places change and the OPU's plans are empty, with the latched one where it counts. -/
theorem passSheets_cases (opu : Nat) (begun gone : Bool) (d : Dev) : passSheets opu begun gone d = d ∨
    ∃ l, passSheets opu begun gone d = (d.onFw fun w => { w with versions := l }).onOpuFw opu fun f =>
      { f with plans := [], latched := if begun then none else f.latched } := by
  unfold passSheets
  dsimp only
  split
  · exact .inl rfl
  · exact .inr ⟨_, rfl⟩

/-- Where the other OPU can record, the sheets pass. -/
theorem passSheets_passing {opu : Nat} {d : Dev} (begun gone : Bool) (h : d.canRecord (otherOpu opu) = true) :
    ∃ l, passSheets opu begun gone d = (d.onFw fun w => { w with versions := l }).onOpuFw opu fun f =>
      { f with plans := [], latched := if begun then none else f.latched } := by
  unfold passSheets
  dsimp only
  rw [if_neg (by simp [h])]
  exact ⟨_, rfl⟩

theorem servoSide_passSheets (opu : Nat) (begun gone : Bool) (d : Dev) : servoSide (passSheets opu begun gone d) = servoSide d := by
  rcases passSheets_cases opu begun gone d with h | ⟨l, h⟩
  · rw [h]
  · rw [h, servoSide_onOpuFw, servoSide_onFw]

/-! A servo fault (Table 7-10, R272). -/

/-- What a servo fault leaves: FAULT with the write inhibit set, the OPU's loops stopped and its lens at rest, the fault counted, and the
other OPUs as they were. -/
structure Faulted (opu : Fin 4) (d e : Dev) : Prop where
  state : e.svSt opu = svFault
  inhibited : e.inhibited opu = true
  focus : (e.servo opu).focus = .rest
  stopped : ∀ n ∈ servoSlots opu ++ apcSlots opu, e.started n = false
  faults : (e.opuFw opu).faults = d.qtime :: (d.opuFw opu).faults
  lost : (e.opuFw opu).lost = (d.opuFw opu).lost
  shadow : e.shadow = d.shadow
  others : OthersKept opu d e
  othersFw : ∀ o : Fin 4, o ≠ opu → e.opuFw o = d.opuFw o

section
variable {opu : Fin 4} {d e : Dev}

theorem opuFw_onOpuFw_self (d : Dev) (o : Nat) (f : OpuFw → OpuFw) : (d.onOpuFw o f).opuFw o = f (d.opuFw o) := by
  rw [opuFw_onOpuFw, if_pos rfl]

theorem opuFw_onOpuFw_ne (d : Dev) (f : OpuFw → OpuFw) {o : Fin 4} (h : o ≠ opu) : (d.onOpuFw opu f).opuFw o = d.opuFw o := by
  rw [opuFw_onOpuFw, if_neg fun hval => h (Fin.ext hval.symm)]

/-- Sheets that pass on leave the fault as it is. -/
theorem Faulted.passSheets (h : Faulted opu d e) (begun gone : Bool) : Faulted opu d (passSheets opu begun gone e) := by
  have hside := servoSide_passSheets opu begun gone e
  refine ⟨(svSt_of_servoSide hside opu).trans h.state, (inhibited_of_servoSide hside opu).trans h.inhibited, ?_, ?_, ?_, ?_, ?_,
    h.others.of_servoSide hside, ?_⟩
  · rw [servo_of_servoSide hside, h.focus]
  all_goals rcases passSheets_cases opu begun gone e with hpass | ⟨l, hpass⟩ <;> rw [hpass]
  · exact h.stopped
  · exact h.stopped
  · exact h.faults
  · rw [opuFw_onOpuFw_self]
    exact h.faults
  · exact h.lost
  · rw [opuFw_onOpuFw_self]
    exact h.lost
  · exact h.shadow
  · exact h.shadow
  · exact h.othersFw
  · exact fun o ho => (opuFw_onOpuFw_ne _ _ ho).trans (h.othersFw o ho)

theorem svFaultNow_faulted (opu : Fin 4) (d : Dev) : Faulted opu d (svFaultNow opu d) := by
  unfold svFaultNow
  extract_lets u v w
  have hside : servoSide v = servoSide d := by rw [servoSide_slotsStop, servoSide_apcStop _ opu.isLt]
  have hfw : firmwareSide w = firmwareSide d := by
    rw [firmwareSide_onServo, firmwareSide_setSv, firmwareSide_slotsStop, firmwareSide_apcStop]
  refine Faulted.passSheets ⟨?_, ?_, ?_, fun n hn => ?_, ?_, ?_, ?_, ?_, fun o ho => ?_⟩ false false
  · rw [svSt_onOpuFw, svSt_onServo, svSt_setSv_self]
  · rw [inhibited_onOpuFw, inhibited_onServo, inhibited_setSv]
  · rw [servo_onOpuFw, servo_onServo_self]
  · have hstopped : v.started n = false := started_slotsStop u hn
    rw [← started_setSv v opu svFault n] at hstopped
    exact hstopped
  · rw [opuFw_onOpuFw_self, qtime_of_firmwareSide hfw, opuFw_of_firmwareSide hfw]
  · rw [opuFw_onOpuFw_self, opuFw_of_firmwareSide hfw]
  · rw [onOpuFw_shadow, shadow_of_firmwareSide hfw]
  · exact ((((OthersKept.refl opu d).of_servoSide hside).setSv _).onServo _).onOpuFw _
  · rw [opuFw_onOpuFw_ne _ _ ho, opuFw_of_firmwareSide hfw]

/-- An OPU's fault is no reason for another not to record. -/
theorem Faulted.canRecord (h : Faulted opu d e) {o : Fin 4} (ho : o ≠ opu) : e.canRecord o = d.canRecord o := by
  have hpresent : e.opuPresent o = d.opuPresent o := by rw [Dev.opuPresent, h.shadow, Dev.opuPresent]
  unfold Dev.canRecord Dev.canServe Dev.servoFault
  rw [hpresent, h.others.state o ho, h.others.servo o ho, h.othersFw o ho]

end

/-! A calibration trigger (R346). -/

theorem calRun_trigAt (set : Nat) (d : Dev) : (calRun set d).cal.trigAt = d.cal.trigAt := rfl

theorem calNext_trigAt (d : Dev) : (calNext d).cal.trigAt = d.cal.trigAt := by
  unfold calNext
  split
  · rw [calRun_trigAt, fs_cal, fs_cal]
  · rfl

/-- Each fused-on pair of a trigger is noted as triggered at the present Quire time. -/
theorem calTrigger_trigAt {set : Nat} {d : Dev} (hs : fusedPairs d set ≠ 0) {p : Nat × Nat} (hp : p ∈ runOrder (fusedPairs d set)) :
    sparseGet 0 (calTrigger set d).cal.trigAt (pairBit p.2 p.1) = d.qtime + 1 := by
  have hmerge : ∀ b : Bool, ∀ u : Dev, (u.cond b fun d => d.bump .CAL_CNT_MERGE).cal = u.cal := fun b u =>
    cond_eq (fun e => e.cal) fun _ => rfl
  unfold calTrigger
  extract_lets s u
  rw [if_neg hs]
  have hu : sparseGet 0 u.cal.trigAt (pairBit p.2 p.1) = d.qtime + 1 := by
    refine (each_gives (I := fun e => e.qtime = d.qtime) (Q := fun p e => sparseGet 0 e.cal.trigAt (pairBit p.2 p.1) = d.qtime + 1)
      rfl ?_ (fun e q _ he => ?_) (fun e q _ r he hr => ?_)).2 p hp
    · exact fun _ _ _ he => he
    · show sparseGet 0 (sparseSet 0 e.cal.trigAt (pairBit q.2 q.1) (e.qtime + 1)) _ = _
      rw [sparseGet_set_self, he]
    · show sparseGet 0 (sparseSet 0 e.cal.trigAt (pairBit q.2 q.1) (e.qtime + 1)) _ = _
      rw [sparseGet_set, he, hr, ite_self]
  split
  · rw [calRun_trigAt, hu]
  · rw [calNext_trigAt, fs_cal, fs_cal, hmerge, hu]

/-- The pairs of groups 0 and 1 of an OPU. -/
theorem runOrder_servoPairs : ∀ o : Fin 4, runOrder (3 * 2 ^ pairBit o 0) = [(0, o.val), (1, o.val)] := by decide

theorem fusedPairs_servoPairs {d : Dev} {opu : Fin 4} (h : d.opuPresent opu = true) :
    fusedPairs d (3 * 2 ^ pairBit opu 0) = 3 * 2 ^ pairBit opu 0 := by
  unfold fusedPairs
  rw [runOrder_servoPairs]
  simp only [List.foldl_cons, List.foldl_nil, h, if_true, pairBit]
  ring

/-- A trigger of groups 0 and 1 of a fused-on OPU notes both. -/
theorem calTrigger_servoPairs {d : Dev} {opu : Fin 4} (h : d.opuPresent opu = true) {g : Nat} (hg : g < 2) :
    sparseGet 0 (calTrigger (3 * 2 ^ pairBit opu 0) d).cal.trigAt (pairBit opu g) = d.qtime + 1 := by
  have hfused := fusedPairs_servoPairs h
  refine calTrigger_trigAt (p := (g, opu.val)) ?_ ?_
  · rw [hfused]
    positivity
  · rw [hfused, runOrder_servoPairs]
    simp
    omega

end Sys2Proof.Proofs
end

section
/-!
SUPPORT. Band jumps of an OPU (07_optical_servo.md R263, R265).
-/

namespace Sys2Proof.Proofs

open Sys2Proof Sys2Proof.Machine Sys2Proof.Laws

section
variable {opu : Fin 4} {d e : Dev}

/-! Ports of an OPU's block (R206). -/

/-- A writable port of an OPU whose island is ready takes what is written to it. -/
theorem portWrite_ready (hready : d.opuReady opu = true) {o : Nat} (ho : o < 64) (hwritable : portWritable (64 * opu + o) = true)
    (n v : Nat) (w : Word) : portWrite n (64 * opu + o) v w d =
      opuPortWrite opu o v (d.onEng fun e => { e with writer := sparseSet 0 e.writer (64 * opu + o) (n + 1) }) := by
  obtain ⟨hpresent, hstage⟩ : d.opuPresent opu = true ∧ d.stage opu = .ready := by simpa [Dev.opuReady] using hready
  have hblock : (64 * opu.val + o) / 64 = opu ∧ (64 * opu.val + o) % 64 = o := by omega
  unfold portWrite
  rw [hblock.1, hblock.2, if_neg (by simp [hwritable, hpresent]), if_neg (by simp [hstage])]
  dsimp only
  rw [if_pos (by omega)]

theorem opuReady_of_eq (hshadow : e.shadow = d.shadow) (hstage : e.opuStage = d.opuStage) : e.opuReady opu = d.opuReady opu := by
  rw [Dev.opuReady, Dev.opuReady, Dev.opuPresent, Dev.opuPresent, Dev.stage, Dev.stage, hshadow, hstage]

/-! The release of the write inhibit, and BAND_BASE (R263, R265). -/

theorem servo_onEng (d : Dev) (f : Engine → Engine) (o : Nat) : (d.onEng f).servo o = d.servo o := rfl

theorem svSt_onEng (d : Dev) (f : Engine → Engine) (o : Nat) : (d.onEng f).svSt o = d.svSt o := rfl

/-- What neither the release of an OPU's write inhibit nor a mailbox field beside SV_STATE touches. -/
structure BandSide (opu : Fin 4) (d e : Dev) : Prop where
  servo : ∀ o : Nat, e.servo o = d.servo o
  state : ∀ o : Nat, e.svSt o = d.svSt o
  bands : ∀ o : Fin 4, e.rd .RCS_BAND_BASE o = d.rd .RCS_BAND_BASE o
  ready : e.opuReady opu = d.opuReady opu

theorem inhibitRelease_side (hready : d.opuReady opu = true) : BandSide opu d (inhibitRelease opu d) := by
  unfold inhibitRelease
  split
  · have hok : (d.svSet opu svClrEcho (d.sv opu svClrToken)).opuReady opu = true := hready
    have hwritable : portWritable (64 * opu.val + 14) = true := by fin_cases opu <;> decide
    have hport : ∀ u : Dev, opuPortWrite opu 14 0 u = u.setInhibit opu false := fun _ => rfl
    rw [portWrite_ready hok (by decide) hwritable, hport, Dev.setInhibit]
    refine ⟨fun o => ?_, fun o => ?_, fun o => ?_, opuReady_of_eq rfl rfl⟩
    · rw [servo_onEng, servo_onEng, servo_svSet]
    · rw [svSt_onEng, svSt_onEng, svSt_svSet _ _ _ svClrEcho]
    · rw [onEng_rd, onEng_rd, bandBase_svSet _ _ _ _ _ o.isLt]
  · exact ⟨fun _ => rfl, fun _ => rfl, fun _ => rfl, rfl⟩

theorem bandKey_ne {i k : Nat} (h : i ≠ k) : Reg.RCS_BAND_BASE.key i 0 ≠ Reg.RCS_BAND_BASE.key k 0 := by
  unfold Reg.key
  show 0 * 0x100000 + 0x18004 + i * 0x100 + 0 * _ ≠ 0 * 0x100000 + 0x18004 + k * 0x100 + 0 * _
  omega

/-- The writable bits of BAND_BASE hold the whole track number. -/
theorem bitsOf_bandBase (w : Nat) :
    bitsOf (BitVec.ofNat 32 w &&& BitVec.ofNat 32 Reg.RCS_BAND_BASE.rw).toNat 0 18 = w % 2 ^ 18 := by
  have hrw : Reg.RCS_BAND_BASE.rw = 2 ^ 22 - 1 := rfl
  refine Nat.eq_of_testBit_eq fun k => ?_
  rw [testBit_bitsOf, BitVec.toNat_and, Nat.testBit_and, BitVec.toNat_ofNat, BitVec.toNat_ofNat, hrw, Nat.testBit_mod_two_pow,
    Nat.testBit_mod_two_pow, Nat.testBit_mod_two_pow, Nat.testBit_two_pow_sub_one]
  by_cases hk : k < 18
  · simp [hk, show k < 32 by omega, show k < 22 by omega]
  · simp [hk]

/-- BAND_BASE written for an OPU holds the track number, and every other band, the servos and the states are left. -/
theorem writeBand_spec (hready : d.opuReady opu = true) (track : Nat) :
    (writeBand opu track d).fg .RCS_BAND_BASE_TRACK opu = track % 2 ^ 18 ∧ servoSide (writeBand opu track d) = servoSide d ∧
      ∀ o : Fin 4, o ≠ opu → (writeBand opu track d).rd .RCS_BAND_BASE o = d.rd .RCS_BAND_BASE o := by
  have hwritable : portWritable (64 * opu.val + 16) = true := by fin_cases opu <;> decide
  unfold writeBand
  extract_lets w
  rw [portWrite_ready hready (by decide) hwritable]
  have hport : ∀ u : Dev, opuPortWrite opu 16 w u =
      u.wr .RCS_BAND_BASE (BitVec.ofNat 32 w &&& BitVec.ofNat 32 Reg.RCS_BAND_BASE.rw) opu := fun _ => rfl
  have hbelow : BesideMailbox .RCS_BAND_BASE opu 0 := besideMailbox_of_outside (.inr ⟨by decide, by
    show 0x18004 + opu.val * 0x100 + 0 * _ < 0x100000
    omega⟩)
  rw [hport]
  refine ⟨?_, (servoSide_wr _ _ hbelow).trans rfl, fun o ho => ?_⟩
  · refine (congrArg (fun x : DWord => bitsOf x.toNat 0 18) (rd_wr _ .RCS_BAND_BASE _ opu 0)).trans ((bitsOf_bandBase w).trans ?_)
    show (track % 2 ^ 18 + d.sv opu svLayer <<< 18 + d.sv opu svSide <<< 21) % 2 ^ 18 = track % 2 ^ 18
    rw [Nat.shiftLeft_eq, Nat.shiftLeft_eq]
    omega
  · rw [rd_wr_ne _ _ _ _ _ _ _ _ (bandKey_ne fun hval => ho (Fin.ext hval.symm)), onEng_rd]

/-! Band jumps (R263). -/

/-- The jump of a window opening: what is asked for within 24 tracks, and none while the band is held. -/
def bandMove (opu : Nat) (d : Dev) : Int :=
  if (d.servo opu).hold0 || (d.servo opu).holding || signed 8 (d.sv opu svNextJ) < -24 || 24 < signed 8 (d.sv opu svNextJ) then 0
  else signed 8 (d.sv opu svNextJ)

/-- What a band jump leaves: TRACKING, the landing to be judged from W0 on, no hold owed, and the OPU's band alone moved. -/
structure BandJumped (opu : Fin 4) (track : Nat) (d e : Dev) : Prop where
  state : e.svSt opu = svTracking
  landing : (e.servo opu).landing = 0
  hold0 : (e.servo opu).hold0 = false
  band : e.fg .RCS_BAND_BASE_TRACK opu = track
  others : OthersKept opu d e
  bands : ∀ o : Fin 4, o ≠ opu → e.rd .RCS_BAND_BASE o = d.rd .RCS_BAND_BASE o

theorem BandJumped.svSet {track : Nat} (h : BandJumped opu track d e) (x : SvFld) (v : Nat) (hx : SvFieldsApart x svState := by decide) :
    BandJumped opu track d (e.svSet opu x v) :=
  ⟨(svSt_svSet e opu opu x v hx).trans h.state, h.landing, h.hold0, (fg_bandBase_svSet e opu opu v x opu.isLt).trans h.band,
    h.others.svSet x v hx.1, fun o ho => (bandBase_svSet e opu o v x o.isLt).trans (h.bands o ho)⟩

theorem BandJumped.jumpStart {track : Nat} (h : BandJumped opu track d e) (j : Int) (n : Nat) :
    BandJumped opu track d (jumpStart opu j n e) := by
  unfold Machine.jumpStart
  refine ⟨h.state, ?_, ?_, h.band, h.others.onServo _, h.bands⟩
  · rw [servo_onServo_self, h.landing]
  · rw [servo_onServo_self, h.hold0]

theorem bandJump_jumped (hready : d.opuReady opu = true) (hsettled : d.jumping opu = false) (hst : d.svSt opu = svTracking) :
    BandJumped opu (((d.fg .RCS_BAND_BASE_TRACK opu : Int) + bandMove opu d).toNat % 2 ^ 18) d (bandJump opu d) := by
  unfold bandJump
  rw [if_neg (by simp [hready, hsettled, hst])]
  extract_lets s asked j r u w x y
  obtain ⟨hservos, hstates, hbands, hok⟩ := inhibitRelease_side hready
  obtain ⟨hband, hside, hrest⟩ := writeBand_spec (hok.trans hready) ((r.fg .RCS_BAND_BASE_TRACK opu : Int) + j).toNat
  have hbase : r.fg .RCS_BAND_BASE_TRACK opu = d.fg .RCS_BAND_BASE_TRACK opu :=
    congrArg (fun w : DWord => bitsOf w.toNat 0 18) (hbands opu)
  have hothers : OthersKept opu d u := OthersKept.of_servoSide
    ⟨fun o _ => hservos o, fun o _ => hstates o⟩ hside
  have hwBand : w.fg .RCS_BAND_BASE_TRACK opu = ((d.fg .RCS_BAND_BASE_TRACK opu : Int) + bandMove opu d).toNat % 2 ^ 18 := by
    rw [fg_bandBase_svSet _ _ _ _ _ opu.isLt, fg_bandBase_svSet _ _ _ _ _ opu.isLt, hband, hbase]
    rfl
  have hwState : w.svSt opu = svTracking := by
    rw [svSt_svSet _ _ _ svFocPk, svSt_svSet _ _ _ svTrkPk, svSt_of_servoSide hside, hstates, hst]
  have hwBands : ∀ o : Fin 4, o ≠ opu → w.rd .RCS_BAND_BASE o = d.rd .RCS_BAND_BASE o := fun o ho => by
    rw [bandBase_svSet _ _ _ _ _ o.isLt, bandBase_svSet _ _ _ _ _ o.isLt, hrest o ho, hbands]
  have hwOthers : OthersKept opu d w := (hothers.svSet svTrkPk _).svSet svFocPk _
  refine cond_inv (P := BandJumped opu _ d) (cond_inv (P := BandJumped opu _ d) ?_ fun _ he => he.svSet svLearn 0)
    fun _ he => he.jumpStart _ _
  refine ⟨hwState, ?_, ?_, hwBand, hwOthers.onServo _, hwBands⟩
  · rw [servo_onServo_self]
  · rw [servo_onServo_self]

end

end Sys2Proof.Proofs
end

section
/-!
SUPPORT. Landings, loop limits and faults of an OPU (07_optical_servo.md R266, R271, R272, R686, Table 7-10).
-/

namespace Sys2Proof.Proofs

open Sys2Proof Sys2Proof.Machine Sys2Proof.Laws

section
variable {opu : Fin 4} {d : Dev}

/-! Landings (R266). -/

/-- An OPU on its band has a landing to judge, and the band result is that of the wedge at which it is next judged. -/
structure LandingDue (opu : Fin 4) (wedge : Nat) (d : Dev) : Prop where
  ready : d.opuReady opu = true
  settled : d.jumping opu = false
  state : d.svSt opu = svTracking
  inRange : wedge < 4
  landing : (d.servo opu).landing = wedge
  result : d.fg .RCS_BAND_RES_WEDGE_LO opu = wedge

theorem LandingDue.guard {wedge : Nat} (h : LandingDue opu wedge d) :
    ¬ (!d.opuReady opu || d.svSt opu != svTracking || d.jumping opu || (d.servo opu).landing = 4 || (d.servo opu).landing != wedge
      || d.fg .RCS_BAND_RES_WEDGE_LO opu != wedge) = true := by
  obtain ⟨hready, hsettled, hstate, hwedge, hlanding, hresult⟩ := h
  simp [hready, hsettled, hstate, hlanding, hresult]
  omega

/-- What a landing found good leaves. -/
structure Landed (opu : Fin 4) (wedge : Nat) (d e : Dev) : Prop where
  landing : (e.servo opu).landing = 4
  lost : (e.opuFw opu).lost = 0
  misland : e.sv opu svMisland = 0
  wedge : e.sv opu svWedge = wedge
  state : e.svSt opu = svTracking
  others : OthersKept opu d e

/-- With at least 12 known identities and none wrong the landing is good. -/
theorem landingDecision_good {wedge : Nat} (h : LandingDue opu wedge d) (hunknown : d.fg .RCS_BAND_RES_UNKNOWN opu ≤ 12)
    (hmismatch : d.fg .RCS_BAND_RES_MISMATCH opu = 0) : Landed opu wedge d (landingDecision opu wedge d) := by
  have hwedge := h.inRange
  have hgood : (12 ≤ 24 - d.fg .RCS_BAND_RES_UNKNOWN opu && popCount 24 (d.fg .RCS_BAND_RES_MISMATCH opu) = 0) = true := by
    rw [hmismatch, show popCount 24 0 = 0 from rfl]
    simp
    omega
  unfold landingDecision
  dsimp only
  rw [if_neg h.guard, if_pos hgood, Laws.cond_false]
  refine ⟨?_, ?_, ?_, ?_, ?_, ?_⟩
  · rw [servo_onOpuFw, servo_inhReason, servo_onServo_self]
  · rw [opuFw_onOpuFw_self]
  · rw [sv_onOpuFw, sv_inhReason, sv_onServo, sv_svSet (x := svFallback), sv_svSet_self _ _ _ (by decide)]
    rfl
  · rw [sv_onOpuFw, sv_inhReason, sv_onServo, sv_svSet (x := svFallback), sv_svSet (x := svMisland), sv_svSet_self _ _ _ (by decide)]
    exact Nat.mod_eq_of_lt hwedge
  · rw [svSt_onOpuFw, svSt_inhReason, svSt_onServo, svSt_svSet _ _ _ svFallback, svSt_svSet _ _ _ svMisland, svSt_svSet _ _ _ svWedge,
      svSt_svSet _ _ _ svDelta, h.state]
  · exact ((((((OthersKept.refl opu d).svSet svDelta _).svSet svWedge _).svSet svMisland _).svSet svFallback _).onServo _
      |>.inhReason _ _).onOpuFw _

/-- With fewer known identities the next wedge is waited for, while there is one. -/
theorem landingDecision_waits {wedge : Nat} (h : LandingDue opu wedge d) (hwedge : wedge < 3)
    (hunknown : 12 < d.fg .RCS_BAND_RES_UNKNOWN opu) :
    landingDecision opu wedge d = d.onServo opu fun s => { s with landing := wedge + 1 } := by
  unfold landingDecision
  dsimp only
  rw [if_neg h.guard, if_neg (by simp; omega), if_neg (by simp; omega), if_neg (by omega)]

/-! Loop limits (R271, Table 7-10). -/

/-- A limit of the laser's APC rows pauses recording. -/
theorem loopLimit_apc (hready : d.opuReady opu = true) {kind : Fin 11} (hkind : kind = 7 ∨ kind = 9) :
    loopLimit opu kind d = apcPause opu (loopEvent (9 + 12 * opu) d) := by
  unfold loopLimit
  rw [if_neg (by simp [hready])]
  rcases hkind with rfl | rfl <;> rfl

/-- A servo fault of the limits' rows, or a fine actuator range not recovered, faults the OPU. -/
theorem loopLimit_fault (hready : d.opuReady opu = true) {kind : Fin 11} (hkind : kind = 8 ∨ kind = 10) :
    ∃ n, loopLimit opu kind d = svFaultNow opu (loopEvent n d) := by
  unfold loopLimit
  rw [if_neg (by simp [hready])]
  rcases hkind with rfl | rfl
  · exact ⟨_, rfl⟩
  · exact ⟨_, rfl⟩

theorem loopLimit_focus (hready : d.opuReady opu = true) :
    loopLimit opu 2 d = svRecoverNow opu true (inhReason opu 0 true (jumpEnd opu (loopEvent opu d))) := by
  unfold loopLimit
  rw [if_neg (by simp [hready])]
  rfl

/-- What the pause of an OPU's recording leaves. -/
theorem apcPause_spec (opu : Fin 4) (d : Dev) :
    ((apcPause opu d).opuFw opu).paused = true ∧ ((apcPause opu d).opuFw opu).opcDue = true ∧ (apcPause opu d).inhibited opu = true ∧
      (apcPause opu d).svSt opu = d.svSt opu ∧ ∀ o : Fin 4, o ≠ opu → (apcPause opu d).opuFw o = d.opuFw o := by
  have hfw := firmwareSide_inhReason d opu 6 true
  unfold apcPause
  refine ⟨?_, ?_, ?_, ?_, fun o ho => ?_⟩
  · rw [opuFw_onOpuFw_self]
  · rw [opuFw_onOpuFw_self]
  · rw [inhibited_onOpuFw, inhibited_inhReason]
  · rw [svSt_onOpuFw, svSt_inhReason]
  · rw [opuFw_onOpuFw_ne _ _ ho, opuFw_of_firmwareSide hfw]

/-- What the loss of focus leaves: RECOVER with the write inhibit set and the focus loop open. -/
theorem svRecoverNow_focus (opu : Fin 4) (d : Dev) :
    (svRecoverNow opu true d).svSt opu = svRecover ∧ (svRecoverNow opu true d).inhibited opu = true ∧
      ((svRecoverNow opu true d).servo opu).focus = .rest ∧ OthersKept opu d (svRecoverNow opu true d) := by
  unfold svRecoverNow
  refine ⟨?_, ?_, ?_, ((OthersKept.refl opu d).setSv _).onServo _⟩
  · rw [svSt_onServo, svSt_setSv_self]
  · rw [inhibited_onServo, inhibited_setSv]
  · rw [servo_onServo_self, if_pos rfl]

/-! Restarts from a fault (R272, R349). -/

/-- What the first half of a restart leaves: the loops open, a restart that waits, and calibration groups 0 and 1 triggered. -/
structure Restarts (opu : Fin 4) (d e : Dev) : Prop where
  state : e.svSt opu = svOpen
  restart : (e.servo opu).restart = true
  laser : (e.servo opu).laser = false
  triggered : ∀ g < 2, sparseGet 0 e.cal.trigAt (pairBit opu g) = d.qtime + 1
  others : OthersKept opu d e

/-- An OPU in FAULT with fewer than four recent faults is restarted. -/
theorem opuFaultRestart_restarts (hready : d.opuReady opu = true) (hpresent : d.opuPresent opu = true) (hst : d.svSt opu = svFault)
    (hused : (d.opuFw opu).withdrawn = false) (hrecent : ((d.opuFw opu).faults.filter fun t => d.qtime < t + 600 * second).length < 4) :
    Restarts opu d (opuFaultRestart opu d) := by
  unfold opuFaultRestart
  rw [if_neg (by simp [hready, hused]), if_neg (by simp [hst, svFault, svOpen]), if_neg (by simp [hst])]
  extract_lets recent u was v
  rw [if_neg (show ¬ 4 ≤ recent.length from not_le.mpr hrecent)]
  have hopened := servoOpen_opened opu (u.event { code := 0x2001, src := opu, rung := recent.length })
  have hfw : firmwareSide v = firmwareSide u := by rw [firmwareSide_servoOpen, firmwareSide_event]
  have hqtime : v.qtime = d.qtime := (qtime_of_firmwareSide hfw).trans (onOpuFw_qtime d _ _)
  have hshadow : v.shadow = d.shadow := (shadow_of_firmwareSide hfw).trans (onOpuFw_shadow d _ _)
  generalize hx : (v.onServo opu fun s => { s with restart := true, wantLayer := was.wantLayer, wantTrack := was.wantTrack }) = x
  have hside := servoSide_calTrigger x (3 * 2 ^ pairBit opu 0)
  have hothers : OthersKept opu d v :=
    (((OthersKept.refl opu d).onOpuFw _).of_servoSide (servoSide_event u _)).trans hopened.others
  have hxPresent : x.opuPresent opu = true := by rwa [← hx, Dev.opuPresent, onServo_shadow, hshadow]
  refine ⟨?_, ?_, ?_, fun g hg => ?_, ?_⟩
  · rw [svSt_of_servoSide hside, ← hx, svSt_onServo, hopened.state]
  · rw [servo_of_servoSide hside, ← hx, servo_onServo_self]
  · rw [servo_of_servoSide hside, ← hx, servo_onServo_self, hopened.servo]
  · rw [calTrigger_servoPairs hxPresent hg, ← hx, onServo_qtime, hqtime]
  · refine OthersKept.of_servoSide ?_ hside
    rw [← hx]
    exact hothers.onServo _

/-- Once the calibration of a restart has ended, focus is acquired again. -/
theorem opuFaultRestart_focus (hready : d.opuReady opu = true) (hused : (d.opuFw opu).withdrawn = false) (hst : d.svSt opu = svOpen)
    (hrestart : (d.servo opu).restart = true) (hcal : d.calWaits (3 * 2 ^ pairBit opu 0) = false) :
    opuFaultRestart opu d = focBegin opu none d := by
  unfold opuFaultRestart
  rw [if_neg (by simp [hready, hused]), if_pos (by simp [hrestart, hst]), hcal, Bool.not_false, Laws.cond_true]

/-! A band lost (R686). -/

theorem otherOpu_lt (opu : Fin 4) : otherOpu opu < 4 := by
  unfold otherOpu
  omega

theorem otherOpu_ne (opu : Fin 4) : (⟨otherOpu opu, otherOpu_lt opu⟩ : Fin 4) ≠ opu := by
  intro h
  have hval : otherOpu opu = opu := congrArg Fin.val h
  unfold otherOpu at hval
  omega

/-- At eight lost revolutions, where the other OPU of the side can record, the OPU is in FAULT and its plans pass to that one. -/
theorem bandLost_passes (hready : d.opuReady opu = true) (hlost : 8 ≤ (d.opuFw opu).lost) (hother : d.canRecord (otherOpu opu) = true)
    (cmds : List Nat) : ∃ e, Faulted opu (d.onOpuFw opu fun f => { f with lost := 0 }) e ∧ bandLost opu cmds d = passSheets opu true false e ∧
      e.canRecord (otherOpu opu) = true := by
  have hfaulted := svFaultNow_faulted opu (d.onOpuFw opu fun f => { f with lost := 0 })
  have hkept : (d.onOpuFw opu fun f => { f with lost := 0 }).canRecord (otherOpu opu) = d.canRecord (otherOpu opu) := by
    have hfw := opuFw_onOpuFw_ne d (fun f => { f with lost := 0 }) (otherOpu_ne opu)
    unfold Dev.canRecord Dev.canServe
    rw [hfw]
    rfl
  have hcan := (hfaulted.canRecord (otherOpu_ne opu)).trans (hkept.trans hother)
  refine ⟨_, hfaulted, ?_, hcan⟩
  have hserve : (svFaultNow opu (d.onOpuFw opu fun f => { f with lost := 0 })).canServe (otherOpu opu) = true :=
    (Bool.and_eq_true_iff.mp hcan).1
  unfold bandLost
  rw [if_neg (by simp [hready]; omega)]
  dsimp only
  rw [if_pos hserve]

end

/-! The obligation. -/

/-- Settles O18: the jump and the landing by what they write, the limits and the lost band by the loops that a fault stops, and the restart
by the calibration it triggers. -/
theorem servoEvents : Obligations.ServoEvents := by
  unfold Obligations.ServoEvents
  refine ⟨fun opu s ⟨hready, hsettled⟩ hst ⟨hhold0, hholding⟩ ⟨hlo, hhi⟩ => ?_, fun opu s ⟨hready, hsettled⟩ hst hheld => ?_,
    fun opu wedge s ⟨hready, hsettled⟩ hst ⟨hlanding, hresult⟩ ⟨hunknown, hmismatch⟩ => ?_,
    fun opu wedge s ⟨hready, hsettled⟩ hst ⟨hlanding, hresult⟩ hunknown => ?_, fun opu kind s hready hkind => ?_,
    fun opu kind s hready hkind => ?_, fun opu s hready => ?_, fun opu s hready ⟨hpresent, hst, hused⟩ hrecent => ?_,
    fun opu s ⟨hready, hused⟩ ⟨hst, hrestart⟩ hcal => ?_, fun opu cmds s hready hlost hother => ?_⟩
  · have hjumped := bandJump_jumped hready hsettled hst
    have hmove : bandMove opu s.dev = signed 8 (s.dev.sv opu svNextJ) := by
      unfold bandMove
      rw [if_neg (by simp [hhold0, hholding]; omega)]
    rw [hmove] at hjumped
    exact gives_of_eq rfl rfl ⟨hjumped.state, hjumped.landing, hjumped.band,
      fun o ho => ⟨hjumped.others.servo o ho, hjumped.others.state o ho, hjumped.bands o ho⟩⟩
  · have hjumped := bandJump_jumped hready hsettled hst
    have hmove : bandMove opu s.dev = 0 := by
      unfold bandMove
      rw [if_pos (by simpa [or_assoc] using hheld)]
    have hband : s.dev.fg .RCS_BAND_BASE_TRACK opu < 2 ^ 18 := bitsOf_lt _ _ _
    rw [hmove, Int.add_zero, Int.toNat_natCast, Nat.mod_eq_of_lt hband] at hjumped
    exact gives_of_eq rfl rfl ⟨hjumped.band, hjumped.hold0⟩
  · have hlanded := landingDecision_good ⟨hready, hsettled, hst, wedge.isLt, hlanding, hresult⟩ hunknown hmismatch
    exact gives_of_eq rfl rfl ⟨hlanded.landing, hlanded.lost, hlanded.misland, hlanded.wedge, hlanded.state, hlanded.others.servo⟩
  · show State.onDev _ _ = _
    rw [onDev_next]
    exact congrArg (fun d => Host.Outcome.next { s with dev := d })
      (landingDecision_waits ⟨hready, hsettled, hst, by omega, hlanding, hresult⟩ wedge.isLt hunknown)
  · obtain ⟨hpaused, hopc, hinhibited, hstate, hothers⟩ := apcPause_spec opu (loopEvent (9 + 12 * opu) s.dev)
    have hside := servoSide_loopEvent s.dev (9 + 12 * opu)
    have hfw := firmwareSide_loopEvent s.dev (9 + 12 * opu)
    exact gives_of_eq rfl (loopLimit_apc hready hkind) ⟨hpaused, hopc, hinhibited, hstate.trans (svSt_of_servoSide hside opu),
      fun o ho => (hothers o ho).trans (opuFw_of_firmwareSide hfw o)⟩
  · obtain ⟨n, heq⟩ := loopLimit_fault hready hkind
    have hfaulted := svFaultNow_faulted opu (loopEvent n s.dev)
    have hfw := firmwareSide_loopEvent s.dev n
    refine gives_of_eq rfl heq ⟨hfaulted.state, hfaulted.inhibited, hfaulted.focus, hfaulted.stopped, ?_⟩
    rw [hfaulted.faults, qtime_of_firmwareSide hfw, opuFw_of_firmwareSide hfw]
  · obtain ⟨hstate, hinhibited, hfocus, hothers⟩ := svRecoverNow_focus opu (inhReason opu 0 true (jumpEnd opu (loopEvent opu s.dev)))
    have hkept := (((OthersKept.refl opu s.dev).of_servoSide (servoSide_loopEvent s.dev opu)).onServo fun v =>
      { v with profile := [], jumpTerm := 0, settle := 0 }).inhReason 0 true
    exact gives_of_eq rfl (loopLimit_focus hready) ⟨hstate, hinhibited, hfocus, (hkept.trans hothers).servo⟩
  · have hrestarts := opuFaultRestart_restarts hready hpresent hst hused hrecent
    exact gives_of_eq rfl rfl ⟨hrestarts.state, hrestarts.restart, hrestarts.laser, hrestarts.triggered 0 (by decide),
      hrestarts.triggered 1 (by decide), hrestarts.others.servo⟩
  · have hsweeps := focBegin_sweeps opu none s.dev
    exact gives_of_eq rfl (opuFaultRestart_focus hready hused hst hrestart hcal) ⟨hsweeps.state, hsweeps.focus, hsweeps.others.servo⟩
  · obtain ⟨e, hfaulted, heq, hcan⟩ := bandLost_passes hready hlost hother cmds
    obtain ⟨l, hpass⟩ := passSheets_passing true false hcan
    have hafter := hfaulted.passSheets true false
    refine gives_of_eq rfl heq ⟨hafter.state, ?_, ?_, ?_, fun o ho => ?_⟩
    · rw [hafter.lost, opuFw_onOpuFw_self]
    · rw [hpass, opuFw_onOpuFw_self]
    · rw [hpass, opuFw_onOpuFw_self, if_pos rfl]
    · rw [hafter.othersFw o ho, opuFw_onOpuFw_ne _ _ ho]

end Sys2Proof.Proofs
end

section
/-!
SUPPORT. The SPN block: its registers, what entering a state does to it, and its commands, start, crossings and stop
(08_spindle.md R278 to R280, R283, R285, R286, R288, R289, R296).
-/

namespace Sys2Proof.Proofs

open Sys2Proof Sys2Proof.Machine Sys2Proof.Laws

/-! Fields of single registers. -/

/-- Two fields of single registers: of different registers, or at different bits of one. -/
abbrev SingleApart (x y : Fld) : Prop :=
  x.reg.key 0 0 ≠ y.reg.key 0 0 ∨
    y.reg = x.reg ∧ x.lo + x.width ≤ 32 ∧ (y.lo + y.width ≤ x.lo ∨ x.lo + x.width ≤ y.lo)

section
variable (d : Dev)

/-- A field apart from the one written holds what it held. -/
theorem fg_fs_single {x y : Fld} (v : Nat) (h : SingleApart x y) : (d.fs x v).fg y = d.fg y := by
  obtain hkey | ⟨hreg, hfit, hbits⟩ := h
  · exact fg_fs_ne d x y v 0 0 0 0 hkey
  · exact fg_fs_same_reg d x y v 0 0 hreg hfit hbits

theorem is_fs_single {x y : Fld} (v : Nat) (h : SingleApart x y) : (d.fs x v).is y = d.is y :=
  congrArg (· == 1) (fg_fs_single d v h)

/-- A counter that a field is no part of. -/
theorem is_bump_single {r : Reg} {y : Fld} (h : r.key 0 0 ≠ y.reg.key 0 0) : (d.bump r).is y = d.is y :=
  congrArg (· == 1) (fg_wr_ne d _ h)

/-- A flag just set is set. -/
theorem is_fs_one {x : Fld} (h : x.lo + x.width ≤ 32) (hw : x.width = 1) : (d.fs x 1).is x = true :=
  is_fs_bit d x true 0 0 h hw

theorem spnState_fs_state {st : Nat} (h : st < 8) : (d.fs .SPN_STAT_STATE st).spnState = st :=
  fg_fs_of_lt d 0 (by decide) h

theorem spnState_fs {x : Fld} (v : Nat) (h : SingleApart x .SPN_STAT_STATE) : (d.fs x v).spnState = d.spnState :=
  fg_fs_single d v h

theorem spnState_bump {r : Reg} (h : r.key 0 0 ≠ Reg.SPN_STAT.key 0 0) : (d.bump r).spnState = d.spnState :=
  fg_wr_ne d (x := .SPN_STAT_STATE) _ h

@[simp] theorem spnState_onSpn (f : Spindle → Spindle) : (d.onSpn f).spnState = d.spnState := rfl
@[simp] theorem spnState_onFw (f : Firmware → Firmware) : (d.onFw f).spnState = d.spnState := rfl

end

/-! What changes of a unit. -/

/-- From `e` to `d` only the registers of `keys`, the variables of the SPN block and firmware's data change. -/
structure SpnChange (keys : List Nat) (e d : Dev) : Prop where
  kept : RegsKept keys e d
  rest : d = { e with spn := d.spn, fw := d.fw, regs := d.regs }

section
variable {keys : List Nat} {e d : Dev}

theorem SpnChange.refl (keys : List Nat) (d : Dev) : SpnChange keys d d := ⟨fun _ _ => rfl, rfl⟩

theorem SpnChange.wr {r : Reg} {v : DWord} {i j : Nat} (h : SpnChange keys e d) (hr : r.key i j ∈ keys) :
    SpnChange keys e (d.wr r v i j) := by
  obtain ⟨hkept, hrest⟩ := h
  refine ⟨fun k hk => ?_, ?_⟩
  · rw [lookup_wr _ _ _ _ _ _ (ne_of_mem_of_not_mem hr hk).symm, hkept k hk]
  · unfold Dev.wr
    rw [hrest]

theorem SpnChange.fs {x : Fld} {v : Nat} (h : SpnChange keys e d) (hx : x.reg.key 0 0 ∈ keys := by decide) :
    SpnChange keys e (d.fs x v) := h.wr hx

theorem SpnChange.bump {r : Reg} (h : SpnChange keys e d) (hr : r.key 0 0 ∈ keys := by decide) : SpnChange keys e (d.bump r) := h.wr hr

theorem SpnChange.onSpn {f : Spindle → Spindle} (h : SpnChange keys e d) : SpnChange keys e (d.onSpn f) := by
  obtain ⟨hkept, hrest⟩ := h
  refine ⟨hkept, ?_⟩
  unfold Dev.onSpn
  rw [hrest]

theorem SpnChange.onFw {f : Firmware → Firmware} (h : SpnChange keys e d) : SpnChange keys e (d.onFw f) := by
  obtain ⟨hkept, hrest⟩ := h
  refine ⟨hkept, ?_⟩
  unfold Dev.onFw
  rw [hrest]

/-- Where firmware's data is the same too, the block's registers and variables are all that changes. -/
theorem SpnChange.changes (h : SpnChange keys e d) (hfw : d.fw = e.fw) : Changes keys e d { e with spn := d.spn } :=
  ⟨h.kept, hfw ▸ h.rest⟩

theorem SpnChange.changes_regs (h : SpnChange keys e d) (hspn : d.spn = e.spn) (hfw : d.fw = e.fw) : Changes keys e d e := by
  obtain ⟨hkept, hrest⟩ := h
  exact ⟨hkept, by rw [hspn, hfw] at hrest; exact hrest⟩

end

/-! Entering a state (R296). -/

/-- The state is the one just set, whatever becomes of the block's variables. -/
theorem spnState_set {st : Nat} (d : Dev) (f : Spindle → Spindle) (h : st < 8) : ((d.fs .SPN_STAT_STATE st).onSpn f).spnState = st :=
  spnState_fs_state d h

theorem changes_set (st : Nat) (d : Dev) (f : Spindle → Spindle) :
    Changes [Reg.SPN_STAT.key 0 0] d ((d.fs .SPN_STAT_STATE st).onSpn f) { d with spn := f d.spn } :=
  (SpnChange.refl _ d).fs.onSpn.changes rfl

/-- What entering a state makes of the SPN block's variables. -/
def enteredSpn (st : Nat) (p : Spindle) : Spindle :=
  { p with catching := false, comm := none, missed := 0, good := 0, share := none,
           duty := if spnDriven st then p.duty else 0, written := if spnDriven st then p.written else none }

/-- While BELOW30 is 0 a block that brakes or coasts does not become OFF. -/
theorem spnSettle_turning {d : Dev} (h : d.is .SPN_STAT_BELOW30 = false) : spnSettle d = d := by
  unfold spnSettle
  rw [h, Bool.and_false, Laws.cond_false]

/-- A block that brakes or coasts with BELOW30 set becomes OFF. -/
theorem spnSettle_still {d : Dev} (hst : d.spnState = spnCoast ∨ d.spnState = spnBrake) (h : d.is .SPN_STAT_BELOW30 = true) :
    spnSettle d = d.fs .SPN_STAT_STATE spnOff := by
  unfold spnSettle
  rw [h]
  obtain hst | hst := hst <;> rw [hst] <;> rfl

/-- The state a turning block enters is the state it is in. -/
theorem spnEnter_turning (st : Nat) {d : Dev} (h : d.is .SPN_STAT_BELOW30 = false) :
    spnEnter st d = (d.fs .SPN_STAT_STATE st).onSpn (enteredSpn st) :=
  spnSettle_turning ((is_fs_single d st (by decide)).trans h)

/-- A block settles by becoming OFF, or stays as it is. -/
theorem spnSettle_cases (d : Dev) : spnSettle d = d ∨ spnSettle d = d.fs .SPN_STAT_STATE spnOff := by
  unfold spnSettle Dev.cond
  split
  · exact .inr rfl
  · exact .inl rfl

theorem spnEnter_eq (st : Nat) (d : Dev) : spnEnter st d = spnSettle ((d.fs .SPN_STAT_STATE st).onSpn (enteredSpn st)) := rfl

/-- Whatever state a block enters, it changes SPN_STAT and its own variables. -/
theorem SpnChange.spnEnter {keys : List Nat} {e d : Dev} (st : Nat) (h : SpnChange keys e d)
    (hk : Reg.SPN_STAT.key 0 0 ∈ keys := by decide) : SpnChange keys e (spnEnter st d) := by
  have hset : SpnChange keys e ((d.fs .SPN_STAT_STATE st).onSpn (enteredSpn st)) := SpnChange.onSpn (h.fs hk)
  rw [spnEnter_eq]
  obtain heq | heq := spnSettle_cases ((d.fs .SPN_STAT_STATE st).onSpn (enteredSpn st)) <;> rw [heq]
  · exact hset
  · exact hset.fs hk

theorem spnEnter_fw (st : Nat) (d : Dev) : (spnEnter st d).fw = d.fw := by
  rw [spnEnter_eq]
  obtain heq | heq := spnSettle_cases ((d.fs .SPN_STAT_STATE st).onSpn (enteredSpn st)) <;> rw [heq]
  · rw [onSpn_fw, fs_fw]
  · rw [fs_fw, onSpn_fw, fs_fw]

/-! Commands (R285, R288, R289, R296). -/

section
variable {d : Dev}

/-- START of a block that is OFF, below 30 rpm and without a frost hold aligns it (R285). -/
theorem spnStart_aligns (hen : d.is .SPN_CTL_EN = true) (hoff : d.spnState = spnOff) (hslow : d.is .SPN_STAT_BELOW30 = true)
    (hfrost : d.is .SPN_STAT_FROST_HOLD = false) :
    ∃ p : Spindle, spnStart d = (d.fs .SPN_STAT_STATE spnAlign).onSpn (fun _ => p) ∧ p.step = (if d.is .SPN_CTL_DIR then 1 else 5) ∧
      p.duty = 0 ∧ p.align = d.rd .SPN_ALIGN := by
  unfold spnStart
  rw [if_neg (by simp [hen]), if_pos (by simp [hoff, hslow, hfrost])]
  exact ⟨_, rfl, rfl, rfl, rfl⟩

theorem spnStart_refused (hen : d.is .SPN_CTL_EN = true)
    (h : d.spnState ≠ spnOff ∨ d.is .SPN_STAT_BELOW30 = false ∨ d.is .SPN_STAT_FROST_HOLD = true) :
    spnStart d = d.fs .SPN_STAT_REFUSED 1 := by
  unfold spnStart
  rw [if_neg (by simp [hen]), if_neg ?_]
  · rfl
  · simp only [Bool.and_eq_true, beq_iff_eq, Bool.not_eq_true']
    rintro ⟨⟨hoff, hslow⟩, hfrost⟩
    obtain h | h | h := h
    · exact h hoff
    · exact absurd hslow (by simp [h])
    · exact absurd hfrost (by simp [h])

/-- CATCH of a block that is let run, without a frost hold and fast enough, waits for its crossings (R288). -/
theorem spnCatch_arms (hst : d.spnState = spnCoast ∨ d.spnState = spnOff) (hen : d.is .SPN_CTL_EN = true)
    (hfrost : d.is .SPN_STAT_FROST_HOLD = false) (hfast : 16 * couchRpm (d.rd .SPN_COUCH) ≤ d.speed16) :
    spnCatch d = (spnStartLatch d).onSpn fun p => { p with catching := true, good := 0 } := by
  unfold spnCatch
  obtain hst | hst := hst <;> exact if_pos (by simp [hst, hen, hfrost, hfast])

/-- STOP of a turning block brakes or lets it coast (R296). -/
theorem spnStop_turning (hst : d.spnState ≠ spnOff) (hfast : d.is .SPN_STAT_BELOW30 = false) {st : Nat}
    (hto : st = if d.spn.brake then spnBrake else spnCoast) :
    spnStop d = (d.fs .SPN_STAT_STATE st).onSpn (enteredSpn st) := by
  unfold spnStop
  rw [if_neg (by simp [hst]), hto, spnEnter_turning _ hfast]

theorem spnDirWrite_atRest {dir : Bool} (hdir : d.is .SPN_CTL_DIR ≠ dir) (hoff : d.spnState = spnOff)
    (hslow : d.is .SPN_STAT_BELOW30 = true) : spnDirWrite dir d = d.fs .SPN_CTL_DIR (bit dir) := by
  unfold spnDirWrite
  rw [if_neg (by simp [hdir]), if_pos (by simp [hoff, hslow])]

theorem spnDirWrite_refused {dir : Bool} (hdir : d.is .SPN_CTL_DIR ≠ dir)
    (h : d.spnState ≠ spnOff ∨ d.is .SPN_STAT_BELOW30 = false) : spnDirWrite dir d = d.fs .SPN_STAT_REFUSED 1 := by
  unfold spnDirWrite
  rw [if_neg (by simp [hdir]), if_neg ?_]
  · rfl
  · simp only [Bool.and_eq_true, beq_iff_eq]
    rintro ⟨hoff, hslow⟩
    obtain h | h := h
    · exact h hoff
    · exact absurd hslow (by simp [h])

/-! The sensorless start (R285, R286). -/

theorem spnAlignEnd_ramps (h : d.spnState = spnAlign) :
    spnAlignEnd d = spnLatch ((d.fs .SPN_STAT_STATE spnRamp).onSpn fun p => { p with step := 0 }) := if_pos (by simp [h])

theorem spnCouchReached_couches (h : d.spnState = spnRamp) :
    spnCouchReached d = (d.fs .SPN_STAT_STATE spnCouch).onSpn fun p => { p with good := 0 } := if_pos (by simp [h])

/-- A hand-over that fails in time while the spindle turns (R286). -/
theorem spnCouchTimeout_coasts (h : d.spnState = spnCouch) (hfast : d.is .SPN_STAT_BELOW30 = false) :
    spnCouchTimeout d = (((d.fs .SPN_STAT_START_FAIL 1).bump .SPN_CNT_STARTFAIL).fs .SPN_STAT_STATE spnCoast).onSpn
      (enteredSpn spnCoast) := by
  have hturns : ((d.fs .SPN_STAT_START_FAIL 1).bump .SPN_CNT_STARTFAIL).is .SPN_STAT_BELOW30 = false := by
    rw [is_bump_single _ (by decide), is_fs_single _ _ (by decide), hfast]
  unfold spnCouchTimeout
  dsimp only
  rw [if_pos (by simp [h]), spnEnter_turning _ hturns]

/-! Crossings and commutation (R280, R283, R286). -/

/-- A crossing taken into the speed estimate writes SPEED, DIR_SEEN and BELOW30, and the block's intervals and latest crossing. -/
theorem spnRecord_change (t c : Nat) (d : Dev) :
    (spnRecord t c d).spn = { d.spn with intervals := (t :: d.spn.intervals).take 6, crossing := some c } ∧
      SpnChange [Reg.SPN_STAT.key 0 0, Reg.SPN_SPEED.key 0 0, Reg.SPN_CNT_START.key 0 0] d (spnRecord t c d) := by
  unfold spnRecord
  dsimp only
  split
  · exact ⟨rfl, (SpnChange.refl _ d).onSpn.fs.fs.fs⟩
  · exact ⟨rfl, (SpnChange.refl _ d).onSpn.fs.fs⟩

/-- The twelfth valid crossing of a hand-over enters RUN, the commutation that follows it predicted (R286). -/
theorem bemfCrossing_twelfth {t phase angle samples : Nat} {rising : Bool} (hen : d.is .SPN_CTL_EN = true) (hst : d.spnState = spnCouch)
    (hphase : phase = floatingPhase d.spn.step) (hcross : crossingStep phase rising = expectedCrossing (d.is .SPN_CTL_DIR) d.spn.step)
    (hwindow : inWindow d.spn.soft angle = true) (hgood : d.spn.good = 11) :
    ∃ xs z, bemfCrossing t phase rising angle samples d = (spnEnterRun xs (spnRecord t (crossingStep phase rising) d)).onSpn fun q =>
      { q with comm := some (commDelay q.adv t), zcT := z } := by
  unfold bemfCrossing
  dsimp only
  rw [if_neg (by simp [hen]), hst, if_neg (by decide), if_pos (beq_self_eq_true _),
    if_neg (by simp [hphase]), if_pos (by simp [← hphase, hcross, hwindow]), if_pos (by omega)]
  exact ⟨_, _, rfl⟩

/-- What the block's entry of RUN leaves (R286, R288). -/
theorem spnEnterRun_spec (xs : Nat) (d : Dev) :
    (spnEnterRun xs d).spnState = spnRun ∧ (spnEnterRun xs d).fw = { d.fw with spnTries := 0 } ∧
      (spnEnterRun xs d).spn = { d.spn with catching := false, missed := 0, good := 0, xs := xs } := by
  refine ⟨?_, rfl, rfl⟩
  unfold spnEnterRun
  rw [spnState_onFw, spnState_onSpn, spnState_bump _ (by decide), spnState_fs_state _ (by decide)]

theorem SpnChange.spnEnterRun {keys : List Nat} {e : Dev} (xs : Nat) (h : SpnChange keys e d)
    (hstat : Reg.SPN_STAT.key 0 0 ∈ keys := by decide) (hcnt : Reg.SPN_CNT_START.key 0 0 ∈ keys := by decide) :
    SpnChange keys e (spnEnterRun xs d) := by
  unfold Machine.spnEnterRun
  exact SpnChange.onFw (SpnChange.onSpn (SpnChange.bump (h.fs hstat) hcnt))

theorem commutate_running (hst : d.spnState = spnRun) (hcomm : d.spn.comm.isSome = true) :
    commutate d = (spnLatch d).onSpn fun p =>
      { p with step := nextStep (d.is .SPN_CTL_DIR) p.step, comm := none, share := some (1, 2) } := if_pos (by simp [hst, hcomm])

/-- The third missed step in a row loses synchronism (R280). -/
theorem stepMissed_third (hst : d.spnState = spnRun) (hcomm : d.spn.comm = none) (h : 2 ≤ d.spn.missed) :
    stepMissed d = (spnEnter spnCoast (d.bump .SPN_CNT_MISS)).fs .SPN_STAT_SYNC_LOSS 1 := by
  unfold stepMissed
  dsimp only
  rw [if_pos (by simp [hst, hcomm]), if_pos (by omega)]

/-- What a third missed step in a row leaves, its state only where the spindle still turns (R280, R296). -/
theorem stepMissed_lost (hst : d.spnState = spnRun) (hcomm : d.spn.comm = none) (h : 2 ≤ d.spn.missed) :
    (d.is .SPN_STAT_BELOW30 = false → (stepMissed d).spnState = spnCoast ∧ (stepMissed d).is .SPN_STAT_SYNC_LOSS = true) ∧
      SpnChange [Reg.SPN_STAT.key 0 0, Reg.SPN_CNT_MISS.key 0 0] d (stepMissed d) ∧ (stepMissed d).fw = d.fw := by
  rw [stepMissed_third hst hcomm h]
  refine ⟨fun hfast => ⟨?_, is_fs_one _ (by decide) rfl⟩, ((SpnChange.refl _ d).bump.spnEnter _).fs, ?_⟩
  · rw [spnState_fs _ _ (by decide), spnEnter_turning _ ((is_bump_single d (by decide)).trans hfast), spnState_set _ _ (by decide)]
  · rw [fs_fw, spnEnter_fw, bump_fw]

/-- After one or two missed steps the block commutates by prediction (R280). -/
theorem stepMissed_predicted (hst : d.spnState = spnRun) (hcomm : d.spn.comm = none) (h : d.spn.missed < 2) :
    ∃ p : Spindle, stepMissed d = (d.bump .SPN_CNT_MISS).onSpn (fun _ => p) ∧ p.missed = d.spn.missed + 1 := by
  unfold stepMissed
  dsimp only
  rw [if_pos (by simp [hst, hcomm]), if_neg (by omega)]
  exact ⟨_, rfl, rfl⟩

theorem below30Timeout_settles (hst : d.spnState = spnCoast ∨ d.spnState = spnBrake) :
    below30Timeout d = (d.fs .SPN_STAT_BELOW30 1).fs .SPN_STAT_STATE spnOff := by
  have hnotOff : (d.spnState != spnOff) = true := by obtain h | h := hst <;> rw [h] <;> rfl
  have hstate : (d.fs .SPN_STAT_BELOW30 1).spnState = d.spnState := spnState_fs _ _ (by decide)
  unfold below30Timeout
  rw [if_pos (by simp [hnotOff]), spnSettle_still (by rwa [hstate]) (is_fs_one d (by decide) rfl)]

end

/-! The obligation. -/

/-- Settles O19: each clause by what its command makes of the unit. Below 30 rpm a third missed step leaves the block OFF instead of
coasting, and still changes nothing beside its status, its counter and its variables. -/
theorem spindleStart : Obligations.SpindleStart := by
  unfold Obligations.SpindleStart
  refine ⟨fun s ⟨hen, hoff⟩ ⟨hslow, hfrost⟩ => ?_, fun s hen h => ?_, fun s hst => ?_, fun s hst => ?_, fun s hst hfast => ?_,
    fun s hst ⟨hen, hfrost⟩ hfast => ?_, fun s hst hfast => ?_, fun dir s hdir ⟨hoff, hslow⟩ => ?_, fun dir s hdir h => ?_,
    fun t phase rising angle samples s ⟨hen, hst⟩ ⟨hphase, hcross⟩ hwindow hgood => ?_, fun s ⟨hst, hcomm⟩ => ?_,
    fun s ⟨hst, hcomm⟩ => ?_, fun s hst => ?_⟩
  · obtain ⟨p, heq, hstep, hduty, halign⟩ := spnStart_aligns hen hoff hslow hfrost
    exact gives_of_eq rfl heq ⟨spnState_set _ _ (by decide), hstep, hduty, halign, changes_set _ _ _⟩
  · show State.onDev _ _ = _
    rw [onDev_next, spnStart_refused hen h]
  · exact gives_of_eq rfl (spnAlignEnd_ramps hst) ⟨spnState_set s.dev (fun p => { p with step := 0 }) (by decide), rfl,
      (SpnChange.refl _ _).fs.onSpn.onSpn.changes rfl⟩
  · exact gives_of_eq rfl (spnCouchReached_couches hst) ⟨spnState_set _ _ (by decide), rfl, changes_set _ _ _⟩
  · refine gives_of_eq rfl (spnCouchTimeout_coasts hst hfast) ⟨spnState_set _ _ (by decide), ?_, rfl, rfl,
      (SpnChange.refl _ _).fs.bump.fs.onSpn.changes (by simp)⟩
    rw [onSpn_is, is_fs_single _ _ (by decide), is_bump_single _ (by decide), is_fs_one _ (by decide) rfl]
  · exact gives_of_eq rfl (spnCatch_arms hst hen hfrost hfast) ⟨rfl, rfl, rfl⟩
  · refine gives_of_eq rfl (spnStop_turning (by rw [hst]; decide) hfast rfl) ⟨spnState_set _ _ ?_, rfl, changes_set _ _ _⟩
    split <;> decide
  · show State.onDev _ _ = _
    rw [onDev_next, spnDirWrite_atRest hdir hoff hslow]
  · show State.onDev _ _ = _
    rw [onDev_next, spnDirWrite_refused hdir h]
  · obtain ⟨xs, z, heq⟩ := bemfCrossing_twelfth hen hst hphase hcross hwindow hgood
    obtain ⟨hspn, hchange⟩ := spnRecord_change t (crossingStep phase rising) s.dev
    obtain ⟨hruns, hfw, hvars⟩ := spnEnterRun_spec xs (spnRecord t (crossingStep phase rising) s.dev)
    have hentered := hchange.spnEnterRun xs
    refine gives_of_eq rfl heq ⟨?_, ?_, ?_, ?_, ?_, hentered.onSpn.kept, hentered.onSpn.rest⟩
    · rw [spnState_onSpn, hruns]
    · rw [onSpn_spn, hvars]
    · rw [onSpn_spn, hvars, hspn]
    · rw [onSpn_spn, hvars, hspn]
    · rw [onSpn_fw, hfw]
  · exact gives_of_eq rfl (commutate_running hst hcomm) ⟨rfl, rfl, rfl, rfl⟩
  · obtain hlast | hearly := Nat.lt_or_ge 1 s.dev.spn.missed
    · obtain ⟨hcoasts, hchange, hfw⟩ := stepMissed_lost hst hcomm hlast
      exact gives_of_eq rfl rfl ⟨fun _ => hcoasts, fun h => absurd h (by omega), hchange.changes hfw⟩
    · obtain ⟨p, heq, hmissed⟩ := stepMissed_predicted hst hcomm (by omega)
      have hstill : ((s.dev.bump .SPN_CNT_MISS).onSpn fun _ => p).spnState = spnRun := (spnState_bump _ (by decide)).trans hst
      exact gives_of_eq rfl heq ⟨fun h => absurd h (by omega), fun _ => ⟨hstill, hmissed⟩,
        (SpnChange.refl _ _).bump.onSpn.changes rfl⟩
  · have hbelow : ((s.dev.fs .SPN_STAT_BELOW30 1).fs .SPN_STAT_STATE spnOff).is .SPN_STAT_BELOW30 = true :=
      (is_fs_single _ _ (by decide)).trans (is_fs_one _ (by decide) rfl)
    exact gives_of_eq rfl (below30Timeout_settles hst) ⟨spnState_fs_state _ (by decide), hbelow, (SpnChange.refl _ _).fs.fs.changes_regs
      ((fs_spn _ _ _ _ _).trans (fs_spn _ _ _ _ _)) ((fs_fw _ _ _ _ _).trans (fs_fw _ _ _ _ _))⟩

end Sys2Proof.Proofs
end

section
/-!
SUPPORT. An OPU that is withdrawn for calibration in READ (08_spindle.md R295, 10_calibration.md R351).
-/

namespace Sys2Proof.Proofs

open Sys2Proof Sys2Proof.Machine

/-- In READ, with a read pool that has no room, OPU 0 tracks and asks for a jump of 24 tracks while it is withdrawn for calibration. -/
def calibratingOpu : Dev :=
  ((({ opuStage := [(0, .ready)]
       fw := { pages := [(1536, List.replicate 64 0#8)], opus := [(0, { calOut := some 1 })] } } : Dev).setMode 4).setSv 0
    svTracking).svSet 0 svNextJ 24

/-- Refutes O20: READ_BAND_ADVANCE leaves an OPU alone while it is withdrawn for calibration, and the last clause does not except
such an OPU. The withdrawal itself asks for no jump (R351), but the statement is about every state: in `calibratingOpu` a jump of 24
tracks is asked for all the same, and stands where the statement has it cleared. -/
theorem not_spindleProtection : ¬ Obligations.SpindleProtection := by
  unfold Obligations.SpindleProtection
  rintro ⟨-, -, -, -, -, -, -, -, -, -, hband⟩
  obtain ⟨t, hrun, -, -, hkept, -⟩ := hband 0 { dev := calibratingOpu } (by decide +kernel) (by decide +kernel)
  obtain rfl : { dev := readBandAdvance 0 calibratingOpu } = t := Host.Outcome.next.inj hrun
  have hjump : (readBandAdvance 0 calibratingOpu).sv 0 svNextJ = 24 := by decide +kernel
  exact absurd (hjump.symm.trans hkept) (by decide)

end Sys2Proof.Proofs
end

section
/-!
SUPPORT. The sleds and the registers of the sleds, the clamp and the operating mode, over what stops an OPU's loops, lanes and slices and
what ends commands (05_recording.md R163, R191; 06_control_law_engine.md R212, R223; 07_optical_servo.md R273; 08_spindle.md R296).
-/

namespace Sys2Proof.Proofs

open Sys2Proof Sys2Proof.Machine Sys2Proof.Laws

/-- A register of the windows of the SLD block and the PMU, which hold the sleds, the clamp and the operating mode. -/
abbrev MechanicsReg (r : Reg) (i : Nat) : Prop := (r.blk.code = 5 ∨ r.blk.code = 14) ∧ r.off + i * r.s1 < 0x100000

/-- A register of another window, its whole array within its window of 1 MiB. -/
abbrev OutsideMechanics (r : Reg) : Prop :=
  r.blk.code ≠ 5 ∧ r.blk.code ≠ 14 ∧ 0 < r.n2 ∧ r.off + (r.n1 - 1) * r.s1 + (r.n2 - 1) * r.s2 < 0x100000

theorem key_ne_mechanicsKey {r q : Reg} {i j k : Nat} (hr : OutsideMechanics r) (hi : i < r.n1) (hj : j < r.n2)
    (hq : MechanicsReg q k) : r.key i j ≠ q.key k 0 := by
  obtain ⟨hsld, hpmu, -, hfit⟩ := hr
  obtain ⟨hcode, hoff⟩ := hq
  have hrow : i * r.s1 ≤ (r.n1 - 1) * r.s1 := Nat.mul_le_mul_right _ (by omega)
  have hcol : j * r.s2 ≤ (r.n2 - 1) * r.s2 := Nat.mul_le_mul_right _ (by omega)
  exact key_ne_of_block _ _ _ _ _ _ (by omega) (by omega) (by omega)

/-- The sleds and the registers of the two windows are in `e` what they are in `d`. -/
structure MechanicsKept (d e : Dev) : Prop where
  sleds : e.sleds = d.sleds
  regs : ∀ (q : Reg) (k : Nat), MechanicsReg q k → e.rd q k = d.rd q k

section
variable {d e : Dev}

theorem MechanicsKept.refl (d : Dev) : MechanicsKept d d := ⟨rfl, fun _ _ _ => rfl⟩

theorem MechanicsKept.fg (h : MechanicsKept d e) (x : Fld) (k : Nat) (hx : MechanicsReg x.reg k) : e.fg x k = d.fg x k := by
  rw [Dev.fg, Dev.fg, h.regs _ _ hx]

theorem MechanicsKept.sled (h : MechanicsKept d e) (o : Nat) : e.sled o = d.sled o := 
  congrArg (fun m => sparseGet ({} : Sled) m o) h.sleds

theorem MechanicsKept.wr {r : Reg} {v : DWord} {i j : Nat} (h : MechanicsKept d e) (hr : OutsideMechanics r) (hi : i < r.n1)
    (hj : j < r.n2) : MechanicsKept d (e.wr r v i j) :=
  ⟨h.sleds, fun q k hq => (rd_wr_ne _ _ _ _ _ _ _ _ (key_ne_mechanicsKey hr hi hj hq)).trans (h.regs q k hq)⟩

theorem MechanicsKept.fs (h : MechanicsKept d e) (x : Fld) (v : Nat) {i : Nat} (hi : i < x.reg.n1 := by decide)
    (hx : OutsideMechanics x.reg := by decide) : MechanicsKept d (e.fs x v i) :=
  have ⟨_, _, hcols, _⟩ := hx
  h.wr hx hi hcols

theorem MechanicsKept.bump (h : MechanicsKept d e) (r : Reg) {i : Nat} (hi : i < r.n1) (hr : OutsideMechanics r := by decide) :
    MechanicsKept d (e.bump r i) :=
  have ⟨_, _, hcols, _⟩ := hr
  h.wr hr hi hcols

theorem MechanicsKept.onWsg (h : MechanicsKept d e) (n : Nat) (f : Wsg → Wsg) : MechanicsKept d (e.onWsg n f) := ⟨h.sleds, h.regs⟩
theorem MechanicsKept.onFw (h : MechanicsKept d e) (f : Firmware → Firmware) : MechanicsKept d (e.onFw f) := ⟨h.sleds, h.regs⟩
theorem MechanicsKept.onEng (h : MechanicsKept d e) (f : Engine → Engine) : MechanicsKept d (e.onEng f) := ⟨h.sleds, h.regs⟩
theorem MechanicsKept.onServo (h : MechanicsKept d e) (n : Nat) (f : Servo → Servo) : MechanicsKept d (e.onServo n f) :=
  ⟨h.sleds, h.regs⟩
theorem MechanicsKept.onSlice (h : MechanicsKept d e) (n : Nat) (f : Slice → Slice) : MechanicsKept d (e.onSlice n f) :=
  ⟨h.sleds, h.regs⟩
theorem MechanicsKept.onSpn (h : MechanicsKept d e) (f : Spindle → Spindle) : MechanicsKept d (e.onSpn f) := ⟨h.sleds, h.regs⟩
theorem MechanicsKept.onJournal (h : MechanicsKept d e) (f : Journal → Journal) : MechanicsKept d (e.onJournal f) := ⟨h.sleds, h.regs⟩

/-! Lanes and loop slots that stop. -/

theorem MechanicsKept.laneClose (h : MechanicsKept d e) {opu : Nat} (ho : opu < 4) (w : Nat) :
    MechanicsKept d (laneClose opu w e) := by
  unfold Machine.laneClose laneOpenSet
  exact MechanicsKept.fs (MechanicsKept.fs (h.onWsg _ _) .WSG_OSTAT_LANE_OPEN _ ho) .WSG_OSTAT_GATE _ ho

theorem MechanicsKept.frameAbandon (h : MechanicsKept d e) {opu : Nat} (ho : opu < 4) (w p : Nat) (gate : Bool) (sent : Bytes) :
    MechanicsKept d (frameAbandon opu w p gate sent e) := by
  have hcounted := (h.bump .WSG_CNT_INT ho).fs .WSG_OSTAT_INTERRUPT 1 ho
  have hgate := cond_inv (b := gate) hcounted fun _ hu => hu.bump .WSG_CNT_GATE ho
  unfold Machine.frameAbandon
  exact MechanicsKept.laneClose ((hgate.onFw _).onWsg _ _) ho w

theorem MechanicsKept.lanesStop (h : MechanicsKept d e) {opu : Nat} (ho : opu < 4) (gate : Bool) :
    MechanicsKept d (lanesStop gate opu e) := by
  refine each_inv h fun u w _ hu => ?_
  unfold laneStop
  split
  · exact hu
  · split
    · exact hu.frameAbandon ho _ _ _ _
    · exact hu.laneClose ho _

theorem MechanicsKept.bankSwap (h : MechanicsKept d e) {n : Nat} (hn : n < 80) : MechanicsKept d (bankSwap n e) := by
  unfold Machine.bankSwap
  exact (((h.fs .SLOT_CTL_ACTIVE _ hn).fs .SLOT_CTL_PENDING 0 hn).fs .SLOT_CTL_BANK_GEN _ hn).onEng _

theorem MechanicsKept.slotStop (h : MechanicsKept d e) {n : Nat} (hn : n < 80) : MechanicsKept d (slotStop n e) := by
  rw [slotStop_eq]
  exact bankSettle_inv (P := MechanicsKept d) (fun _ hu => hu.bankSwap hn) (fun _ hu => hu.fs .SLOT_CTL_PENDING 1 hn)
    (fun _ _ _ hu => hu.onEng _) (fun _ _ hu => hu.onFw _) (((h.fs .SLOT_CFG_EN 0 hn).fs .SLOT_CTL_STARTED 0 hn).onEng _)

theorem MechanicsKept.slotsStop (h : MechanicsKept d e) {l : List Nat} (hl : ∀ n ∈ l, n < 80) :
    MechanicsKept d (e.each l fun u n => Machine.slotStop n u) := each_inv h fun _ n hn hu => hu.slotStop (hl n hn)

/-! An OPU's loops and slices. -/

theorem MechanicsKept.apcStop (h : MechanicsKept d e) {opu : Nat} (ho : opu < 4) : MechanicsKept d (apcStop opu e) := by
  have hstopped := h.slotsStop (l := apcSlots opu) fun n hn => opuSlots_lt ho (List.mem_append_right _ hn)
  unfold Machine.apcStop beamsEnable
  split
  · split
    · exact hstopped.fs .WSG_OSTAT_LDC_QFULL 1 ho
    · exact hstopped.onWsg _ _
  · exact h

theorem MechanicsKept.svSet (h : MechanicsKept d e) {opu : Nat} (ho : opu < 4) (x : SvFld) (v : Nat) (hx : x.word < 16 := by decide) :
    MechanicsKept d (e.svSet opu x v) := h.wr (by decide) (show 16 * opu + x.word < 128 by omega) (by decide)

theorem MechanicsKept.setSv (h : MechanicsKept d e) {opu : Nat} (ho : opu < 4) (st : Nat) : MechanicsKept d (e.setSv opu st) :=
  cond_inv (h.svSet ho svState st) fun _ hu => hu.onEng _

theorem MechanicsKept.servoOpen (h : MechanicsKept d e) {opu : Nat} (ho : opu < 4) : MechanicsKept d (servoOpen opu e) := by
  have hstopped := h.slotsStop (l := servoSlots opu ++ apcSlots opu) fun n hn => opuSlots_lt ho hn
  have houts := each_inv (f := fun u o => u.setOut (64 * opu + o) 0) (l := [8, 9, 10, 11]) hstopped fun _ _ _ hu => hu.onEng _
  unfold Machine.servoOpen
  exact ((houts.setSv ho svOpen).svSet ho svInhSrc _).onServo _ _

theorem MechanicsKept.slicesOff (h : MechanicsKept d e) {opu : Nat} (ho : opu < 4) : MechanicsKept d (slicesOff opu e) := by
  refine each_inv h fun u n hn hu => cond_inv hu fun v hv => ?_
  have hoff := hv.fs .RCS_CTL_EN 0 (slicesOf_lt ho hn)
  unfold sliceDisabled
  dsimp only
  split
  · exact hoff.onSlice _ _
  · exact cond_inv hoff fun _ hw => hw.fs .RCS_STAT_STATE _ (slicesOf_lt ho hn)

/-! The spindle, events, attentions and commands. -/

theorem MechanicsKept.spnStop (h : MechanicsKept d e) : MechanicsKept d (spnStop e) := by
  unfold Machine.spnStop
  split
  · exact h.fs .SPN_STAT_REFUSED 1
  · exact cond_inv ((h.fs .SPN_STAT_STATE _).onSpn _) fun _ hu => hu.fs .SPN_STAT_STATE _

theorem MechanicsKept.event (h : MechanicsKept d e) (x : EventInfo) : MechanicsKept d (e.event x) := by
  obtain ⟨j, hj | ⟨v, hj⟩⟩ := event_journal e x
  · rw [hj]
    exact h.onJournal _
  · rw [hj]
    exact (h.onJournal _).fs .RJ_STAT_FULL v

theorem MechanicsKept.attn (h : MechanicsKept d e) (code : Nat) : MechanicsKept d (e.attn code) :=
  ((h.fs .HP_UNIT_ATTN_PEND _).fs .HP_UNIT_ATTN_ATTN _).fs .HP_UNIT_ATTN_ASEQ _

theorem MechanicsKept.endCmd (h : MechanicsKept d e) (id cls detail a b : Nat) : MechanicsKept d (e.endCmd id cls detail a b) :=
  ⟨h.sleds, h.regs⟩

theorem MechanicsKept.failDisc (h : MechanicsKept d e) (cls detail : Nat) : MechanicsKept d (e.failDisc cls detail) :=
  each_inv h fun _ _ _ hu => cond_inv hu fun _ hv => hv.endCmd _ _ _ _ _

theorem MechanicsKept.cpDrop (h : MechanicsKept d e) (side : Nat) : MechanicsKept d (cpDrop side e) := by
  unfold Machine.cpDrop
  exact MechanicsKept.onFw (each_inv h fun _ _ _ hu => hu.onFw _) _

end

end Sys2Proof.Proofs
end

section
/-!
SUPPORT. The SLD block: the fields of its registers, what changes of it, and the commands and events of a sled (09_sled_and_clamp.md
R309 to R318).
-/

namespace Sys2Proof.Proofs

open Sys2Proof Sys2Proof.Machine Sys2Proof.Laws

/-! Fields of a sled's registers. -/

/-- A register that every sled has. -/
abbrev SledReg (r : Reg) : Prop := r.blk = .sld ∧ r.s1 = 0x80

/-- Two fields of sled registers: of different registers, or at different bits of one. -/
abbrev SledFieldsApart (x y : Fld) : Prop :=
  SledReg x.reg ∧ SledReg y.reg ∧ x.lo + x.width ≤ 32 ∧
    (x.reg.off = y.reg.off → y.reg = x.reg ∧ (y.lo + y.width ≤ x.lo ∨ x.lo + x.width ≤ y.lo))

/-- Two registers of one sled have different keys. -/
theorem sledKey_ne {r q : Reg} (hr : SledReg r) (hq : SledReg q) (h : r.off ≠ q.off) (i : Nat) : r.key i 0 ≠ q.key i 0 := by
  obtain ⟨hrb, hrs⟩ := hr
  obtain ⟨hqb, hqs⟩ := hq
  unfold Reg.key
  rw [hrb, hrs, hqb, hqs]
  omega

section
variable (d : Dev) (opu : Nat)

/-- A field apart from the one written holds what it held. -/
theorem fg_fs_sled {x y : Fld} (v : Nat) (h : SledFieldsApart x y := by decide) : (d.fs x v opu).fg y opu = d.fg y opu := by
  obtain ⟨hx, hy, hfit, hsame⟩ := h
  by_cases hoff : x.reg.off = y.reg.off
  · obtain ⟨hreg, hbits⟩ := hsame hoff
    exact fg_fs_same_reg d x y v opu 0 hreg hfit hbits
  · exact fg_fs_ne d x y v opu 0 opu 0 (sledKey_ne hx hy hoff opu)

/-- A register that a field is no part of. -/
theorem rd_fs_sled {x : Fld} {r : Reg} (v : Nat) (h : SledReg x.reg ∧ SledReg r ∧ x.reg.off ≠ r.off := by decide) :
    (d.fs x v opu).rd r opu = d.rd r opu :=
  have ⟨hx, hr, hoff⟩ := h
  rd_wr_ne _ _ _ _ _ _ _ _ (sledKey_ne hx hr hoff opu)

/-- A counter that a field is no part of. -/
theorem fg_bump_sled {r : Reg} {y : Fld} (h : SledReg r ∧ SledReg y.reg ∧ r.off ≠ y.reg.off := by decide) :
    (d.bump r opu).fg y opu = d.fg y opu :=
  have ⟨hr, hy, hoff⟩ := h
  fg_wr_ne d _ (sledKey_ne hr hy hoff opu)

theorem sldState_fs_state {st : Nat} (h : st < 2 ^ 3 := by decide) : (d.fs .SLD_STAT_STATE st opu).sldState opu = st :=
  fg_fs_of_lt d opu (by decide) h

theorem sldState_fs {x : Fld} (v : Nat) (h : SledFieldsApart x .SLD_STAT_STATE := by decide) :
    (d.fs x v opu).sldState opu = d.sldState opu := fg_fs_sled d opu v h

theorem sldPos_fs {x : Fld} (v : Nat) (h : SledFieldsApart x .SLD_POS := by decide) :
    (d.fs x v opu).sldPos opu = d.sldPos opu := congrArg (signed 32) (fg_fs_sled d opu v h)

@[simp] theorem sldState_onSled (f : Sled → Sled) : (d.onSled opu f).sldState opu = d.sldState opu := rfl
@[simp] theorem sldPos_onSled (f : Sled → Sled) : (d.onSled opu f).sldPos opu = d.sldPos opu := rfl
@[simp] theorem sled_fs (x : Fld) (v i o : Nat) : (d.fs x v i).sled o = d.sled o := rfl
@[simp] theorem sled_bump (r : Reg) (i o : Nat) : (d.bump r i).sled o = d.sled o := rfl
@[simp] theorem setPos_clamp (p : Int) : (d.setPos opu p).clamp = d.clamp := rfl
@[simp] theorem sled_setPos (p : Int) (o : Nat) : (d.setPos opu p).sled o = d.sled o := rfl

@[simp] theorem sled_onSled_self (f : Sled → Sled) : (d.onSled opu f).sled opu = f (d.sled opu) := by
  rw [sled_onSled, if_pos rfl]

end

/-- The sled of another OPU. -/
theorem sled_onSled_ne (d : Dev) {opu o : Fin 4} (f : Sled → Sled) (h : o ≠ opu) : (d.onSled opu f).sled o = d.sled o := by
  rw [sled_onSled, if_neg fun heq => h (Fin.ext heq.symm)]

/-! Positions. -/

/-- A number that fits in 32 bits is what its two's complement form reads as. -/
theorem signed_unsigned {z : Int} (hlo : -2147483648 ≤ z) (hhi : z ≤ 2147483647) : signed 32 (unsigned 32 z % 2 ^ 32) = z := by
  unfold signed unsigned
  dsimp only
  split <;> omega

theorem signed_bounds (x : Nat) : -2147483648 ≤ signed 32 x ∧ signed 32 x ≤ 2147483647 := by
  unfold signed
  dsimp only
  split <;> omega

/-- The position just set is the sled's position. -/
theorem sldPos_setPos (d : Dev) (opu : Nat) {p : Int} (hlo : -2147483648 ≤ p) (hhi : p ≤ 2147483647) :
    (d.setPos opu p).sldPos opu = p :=
  (congrArg (signed 32) (fg_fs d .SLD_POS (unsigned 32 p) opu 0 (by decide))).trans (signed_unsigned hlo hhi)

theorem sldState_setPos (d : Dev) (opu : Nat) (p : Int) : (d.setPos opu p).sldState opu = d.sldState opu :=
  sldState_fs d opu (x := .SLD_POS) _

theorem limitI_of_bounds {lo hi z : Int} (hlo : lo ≤ z) (hhi : z ≤ hi) : limitI lo hi z = z := by
  unfold limitI
  rw [if_neg (by omega), if_neg (by omega)]

/-! What changes of a unit. -/

/-- From `e` to `d` only the registers of `keys`, the sleds and the clamp change. -/
structure SldChange (keys : List Nat) (e d : Dev) : Prop where
  kept : RegsKept keys e d
  rest : d = { e with sleds := d.sleds, clamp := d.clamp, regs := d.regs }

section
variable {keys : List Nat} {e d : Dev}

theorem SldChange.refl (keys : List Nat) (d : Dev) : SldChange keys d d := ⟨fun _ _ => rfl, rfl⟩

theorem SldChange.wr {r : Reg} {v : DWord} {i j : Nat} (h : SldChange keys e d) (hr : r.key i j ∈ keys) :
    SldChange keys e (d.wr r v i j) := by
  obtain ⟨hkept, hrest⟩ := h
  refine ⟨fun k hk => ?_, ?_⟩
  · rw [lookup_wr _ _ _ _ _ _ (ne_of_mem_of_not_mem hr hk).symm, hkept k hk]
  · unfold Dev.wr
    rw [hrest]

theorem SldChange.fs {x : Fld} {v i : Nat} (h : SldChange keys e d) (hx : x.reg.key i 0 ∈ keys := by exact .head _) :
    SldChange keys e (d.fs x v i) := h.wr hx

theorem SldChange.bump {r : Reg} {i : Nat} (h : SldChange keys e d) (hr : r.key i 0 ∈ keys) : SldChange keys e (d.bump r i) := h.wr hr

theorem SldChange.setPos {n : Nat} {p : Int} (h : SldChange keys e d) (hr : Reg.SLD_POS.key n 0 ∈ keys) :
    SldChange keys e (d.setPos n p) := h.wr hr

theorem SldChange.onSled {n : Nat} {f : Sled → Sled} (h : SldChange keys e d) : SldChange keys e (d.onSled n f) := by
  obtain ⟨hkept, hrest⟩ := h
  refine ⟨hkept, ?_⟩
  unfold Dev.onSled
  rw [hrest]

theorem SldChange.onClamp {f : Clamp → Clamp} (h : SldChange keys e d) : SldChange keys e (d.onClamp f) := by
  obtain ⟨hkept, hrest⟩ := h
  refine ⟨hkept, ?_⟩
  unfold Dev.onClamp
  rw [hrest]

/-- Where the clamp is the same too, registers and sleds are all that changes. -/
theorem SldChange.ofSleds (h : SldChange keys e d) (hclamp : d.clamp = e.clamp) : Changes keys e d { e with sleds := d.sleds } :=
  ⟨h.kept, hclamp ▸ h.rest⟩

theorem SldChange.ofClamp (h : SldChange keys e d) (hsleds : d.sleds = e.sleds) : Changes keys e d { e with clamp := d.clamp } :=
  ⟨h.kept, hsleds ▸ h.rest⟩

end

/-! The current mode and targets (R310 to R315). -/

section
variable {opu : Nat} {d : Dev}

/-- Choosing the current mode writes STRONG, or nothing (R314). -/
theorem sldMode_cases (opu speed : Nat) (d : Dev) :
    sldMode opu speed d = d ∨ ∃ v, sldMode opu speed d = d.fs .SLD_STAT_STRONG v opu := by
  unfold sldMode
  extract_lets up dn
  split
  · exact .inr ⟨0, rfl⟩
  · exact .inr ⟨1, rfl⟩
  · split
    · exact .inr ⟨1, rfl⟩
    · split
      · exact .inr ⟨0, rfl⟩
      · exact .inl rfl

/-- What a write of STRONG leaves, choosing the current mode leaves. -/
theorem sldMode_inv {P : Dev → Prop} (hstrong : ∀ v, P (d.fs .SLD_STAT_STRONG v opu)) (h : P d) (speed : Nat) :
    P (sldMode opu speed d) := by
  obtain heq | ⟨v, heq⟩ := sldMode_cases opu speed d
  · rwa [heq]
  · rw [heq]
    exact hstrong v

/-- The part of a unit that choosing the current mode of a sled leaves. -/
structure ModeKept (opu : Nat) (d e : Dev) : Prop where
  state : e.sldState opu = d.sldState opu
  pos : e.sldPos opu = d.sldPos opu
  sleds : e.sleds = d.sleds
  clamp : e.clamp = d.clamp
  moves : e.rd .SLD_CNT_MOVE opu = d.rd .SLD_CNT_MOVE opu

theorem sldMode_kept (opu speed : Nat) (d : Dev) : ModeKept opu d (sldMode opu speed d) :=
  sldMode_inv (fun v => ⟨sldState_fs d opu v, sldPos_fs d opu v, rfl, rfl, rd_fs_sled d opu v⟩) ⟨rfl, rfl, rfl, rfl, rfl⟩ speed

theorem ModeKept.sled {e : Dev} (h : ModeKept opu d e) (o : Nat) : e.sled o = d.sled o :=
  congrArg (fun m => sparseGet ({} : Sled) m o) h.sleds

theorem SldChange.sldMode {keys : List Nat} {e : Dev} (h : SldChange keys e d) (hstat : Reg.SLD_STAT.key opu 0 ∈ keys) (speed : Nat) :
    SldChange keys e (Machine.sldMode opu speed d) := sldMode_inv (fun _ => h.fs hstat) h speed

/-- Whatever a target finds, it writes SLD_STAT, SLD_POS and the sled at most. -/
theorem sledTarget_inv {P : Dev → Prop} (hstat : ∀ e x v, x.reg = .SLD_STAT → P e → P (e.fs x v opu))
    (hpos : ∀ e p, P e → P (e.setPos opu p)) (hsled : ∀ e f, P e → P (e.onSled opu f)) (h : P d) (cle : Bool) (t pos : Int)
    (speed : Nat) : P (sledTarget opu cle t pos speed d) := by
  unfold sledTarget
  split
  · exact h
  · extract_lets st p lo hi e u f g
    split
    · exact hstat _ _ _ rfl h
    · split
      · exact h
      · have he : P e := cond_inv h fun _ he => hstat _ _ _ rfl he
        have hf : P f := hsled _ _ (hpos _ _ he)
        exact hstat _ _ _ rfl (sldMode_inv (fun v => hstat _ _ _ rfl hf) hf _)

/-- A target of the selected source within the limits, at an idle sled, that is not its position starts the move (R311, R313). -/
theorem sledTarget_moves {cle : Bool} {t u : Int} (hsrc : d.is .SLD_CTL_SRC opu ≠ cle) (hready : d.opuReady opu = true)
    (hst : d.sldState opu = sldIdle) (hlo : signed 32 (d.fg .SLD_LIM_MIN opu) ≤ t) (hhi : t ≤ signed 32 (d.fg .SLD_LIM_MAX opu))
    (hround : sldRound (d.fg .SLD_CTL_MSTEP opu) t = u) (hu : u ≠ d.sldPos opu) (pos : Int) (speed : Nat) :
    sledTarget opu cle t pos speed d = (sldMode opu 0 ((d.setPos opu (d.sldPos opu)).onSled opu fun s =>
      { s with target := u, low := false })).fs .SLD_STAT_STATE sldMoving opu := by
  have hlimits : (t < signed 32 (d.fg .SLD_LIM_MIN opu) || signed 32 (d.fg .SLD_LIM_MAX opu) < t : Bool) = false := by simp; omega
  have hmoves : (d.sldPos opu == u) = false := beq_false_of_ne (Ne.symm hu)
  unfold sledTarget
  rw [if_neg (by simpa using Ne.symm hsrc)]
  dsimp only
  rw [hst, if_neg (by decide), if_neg (by simp [hready]), hlimits, Laws.cond_false, limitI_of_bounds hlo hhi, hround]
  rw [if_neg (by decide), if_neg (by decide), hmoves]
  simp only [Bool.and_false, Bool.false_eq_true, if_false]

theorem sledTarget_other {cle : Bool} (hsrc : d.is .SLD_CTL_SRC opu = cle) (t pos : Int) (speed : Nat) :
    sledTarget opu cle t pos speed d = d := if_pos (by simp [hsrc])

/-! Entry to IDLE (R311). -/

theorem sldState_sldToIdle (opu : Nat) (d : Dev) : (sldToIdle opu d).sldState opu = sldIdle :=
  (sldState_fs _ opu (x := .SLD_TGT) _).trans (sldState_fs_state d opu)

theorem sldPos_sldToIdle (opu : Nat) (d : Dev) : (sldToIdle opu d).sldPos opu = d.sldPos opu :=
  (sldPos_fs _ opu (x := .SLD_TGT) _).trans (sldPos_fs d opu (x := .SLD_STAT_STATE) _)

/-- A field of the sled's registers beside STATE and SLD_TGT. -/
theorem fg_sldToIdle (opu : Nat) (d : Dev) {x : Fld} (hstate : SledFieldsApart .SLD_STAT_STATE x := by decide)
    (htgt : SledFieldsApart .SLD_TGT x := by decide) : (sldToIdle opu d).fg x opu = d.fg x opu :=
  (fg_fs_sled _ opu _ htgt).trans (fg_fs_sled d opu _ hstate)

theorem SldChange.sldToIdle {keys : List Nat} {e : Dev} (h : SldChange keys e d) (hstat : Reg.SLD_STAT.key opu 0 ∈ keys)
    (htgt : Reg.SLD_TGT.key opu 0 ∈ keys) : SldChange keys e (sldToIdle opu d) := by
  unfold Machine.sldToIdle
  exact SldChange.onSled (SldChange.fs (h.fs hstat) htgt)

theorem clamp_sldToIdle (opu : Nat) (d : Dev) : (sldToIdle opu d).clamp = d.clamp := by
  rw [sldToIdle, onSled_clamp, fs_clamp, fs_clamp]

theorem sled_sldToIdle (opu : Nat) (d : Dev) :
    (sldToIdle opu d).sled opu = { d.sled opu with target := d.sldPos opu, home := .none } := sled_onSled_self _ _ _

theorem sled_sldToIdle_ne {opu o : Fin 4} (d : Dev) (h : o ≠ opu) : (sldToIdle opu d).sled o = d.sled o := sled_onSled_ne _ _ h

/-- The sled's counters and settings, which the entry to IDLE leaves. -/
theorem rd_sldToIdle (opu : Nat) (d : Dev) {r : Reg}
    (h : SledReg r ∧ Reg.SLD_STAT.off ≠ r.off ∧ Reg.SLD_TGT.off ≠ r.off := by decide) : (sldToIdle opu d).rd r opu = d.rd r opu :=
  have ⟨hr, hstat, htgt⟩ := h
  (rd_fs_sled _ opu (x := .SLD_TGT) _ ⟨by decide, hr, htgt⟩).trans (rd_fs_sled d opu (x := .SLD_STAT_STATE) _ ⟨by decide, hr, hstat⟩)

/-! Moves that end or stop, and faults (R309, R312, R313). -/

/-- A move done is the position reached, counted, at an idle sled (R313). -/
theorem sledMoveDone_moving (hready : d.opuReady opu = true) (hst : d.sldState opu = sldMoving) :
    sledMoveDone opu d = sldToIdle opu (sldMode opu 0 ((d.setPos opu (d.sled opu).target).bump .SLD_CNT_MOVE opu)) := by
  unfold sledMoveDone
  dsimp only
  rw [if_neg (by simp [hready]), if_pos (by simp [hst])]

theorem sledIdleTimeout_idle (hst : d.sldState opu = sldIdle) : sledIdleTimeout opu d = d.onSled opu fun s => { s with low := true } :=
  if_pos (by simp [hst])

/-- The distance in which a sled of a speed stops at A_MAX (R312). -/
def stopDistance (opu : Nat) (speed : Int) (d : Dev) : Nat :=
  openDiv (64 * speed.natAbs ^ 2) (2 * (100 * limitN 1 65535 (d.fg .SLD_PROF_A_MAX opu)))

/-- A sled that moves inward and does not stand at once comes to rest its stopping distance further in (R312). -/
theorem sldStop_inward {pos speed : Int} (hready : d.opuReady opu = true) (hst : d.sldState opu = sldMoving) (hspeed : speed < 0)
    (hrun : 0 < stopDistance opu speed d) :
    sldStop opu pos speed d = ((d.setPos opu pos).onSled opu fun s =>
      { s with target := pos - stopDistance opu speed d, home := .none }).fs .SLD_STAT_STATE sldMoving opu := by
  have hmoves : ¬ (pos == pos - (stopDistance opu speed d : Int)) = true := by simp; omega
  unfold sldStop
  rw [if_neg (by simp [hready, hst])]
  dsimp only
  rw [if_pos hspeed]
  exact if_neg hmoves

theorem sldClearFault_fault (hst : d.sldState opu = sldFault) :
    sldClearFault opu d = sldToIdle opu ((d.fs .SLD_STAT_HOMED 0 opu).fs .SLD_STAT_POS_UNSURE 1 opu) := if_pos (by simp [hst])

theorem sledOvercurrent_faults {ma : Nat} (hready : d.opuReady opu = true) (hen : d.is .SLD_CTL_EN opu = true)
    (hma : d.fg .SLD_SENSE_OC opu < ma) :
    sledOvercurrent opu ma d = (((d.fs .SLD_STAT_STATE sldFault opu).fs .SLD_STAT_OC 1 opu).bump .SLD_CNT_OC opu).onSled opu fun s =>
      { s with home := .none } := if_pos (by simp [hready, hen, hma])

/-! Homing (R317, R318). -/

theorem sldHome_begins (hready : d.opuReady opu = true) (hst : d.sldState opu = sldIdle) :
    sldHome opu d = (d.fs .SLD_STAT_STATE sldHoming opu).onSled opu fun s =>
      { s with home := .clear, home1 := d.rd .SLD_HOME opu, home2 := d.rd .SLD_HOME2 opu, low := false } := by
  unfold sldHome
  rw [if_neg (by simp [hst]), if_neg (by simp [hready])]

theorem sldHome_refused (hst : d.sldState opu ≠ sldIdle) : sldHome opu d = d.fs .SLD_STAT_REFUSED 1 opu := if_pos (by simp [hst])

/-- A stall found while homing begins the back-off from -64 × BACK to 0 (R317). -/
theorem homeStallDetect_backs {duties : List Nat} (hready : d.opuReady opu = true) (hst : d.sldState opu = sldHoming)
    (hclear : (d.sled opu).home = .clear) (hstall : homeStalled (bitsOf (d.sled opu).home1.toNat 24 4) duties = true) :
    homeStallDetect opu duties d =
      (d.setPos opu (-(64 * (limitN 1 255 (bitsOf (d.sled opu).home1.toNat 16 8) : Nat) : Int))).onSled opu fun s =>
        { s with home := .backOff, target := 0 } := if_pos (by simp [hready, hst, hclear, hstall])

/-- The homing that has failed, stopped and counted (R318). -/
def homeStopped (opu : Nat) (d : Dev) : Dev :=
  sldToIdle opu ((((d.fs .SLD_STAT_HOME_FAIL 1 opu).bump .SLD_CNT_HOMEFAIL opu).fs .SLD_STAT_HOMED 0 opu).onSled opu fun s =>
    { s with fails := s.fails + 1 })

theorem opuReady_homeStopped (opu : Fin 4) (d : Dev) : (homeStopped opu d).opuReady opu = d.opuReady opu :=
  opuReady_of_eq (by simp [homeStopped, sldToIdle]) (by simp [homeStopped, sldToIdle])

theorem homeFail_stops (hready : d.opuReady opu = true) (hst : d.sldState opu = sldHoming) (steps : Nat) :
    homeFail opu steps true d = homeStopped opu d := if_pos (by simp [hready, hst])

theorem sled_homeStopped (opu : Nat) (d : Dev) : ((homeStopped opu d).sled opu).fails = (d.sled opu).fails + 1 := by
  rw [homeStopped, sled_sldToIdle, sled_onSled_self, sled_fs, sled_bump, sled_fs]

/-- After a first failure firmware homes again, with I_HOME raised (R318). -/
theorem homeFailed_first (hready : d.opuReady opu = true) (hst : d.sldState opu = sldHoming) (hfirst : (d.sled opu).fails = 0)
    (steps : Nat) : ∃ x v, homeFailed opu steps true d = sldHome opu (((homeStopped opu d).event x).fs .SLD_HOME2_I_HOME v opu) := by
  unfold homeFailed
  dsimp only
  rw [homeFail_stops hready hst, if_neg (by rw [sled_homeStopped]; omega), if_pos hfirst]
  exact ⟨_, _, rfl⟩

end

end Sys2Proof.Proofs
end

section
/-!
SUPPORT. An OPU parked, and what a sled's commands and events leave (09_sled_and_clamp.md R309 to R322, Table 9-5).
-/

namespace Sys2Proof.Proofs

open Sys2Proof Sys2Proof.Machine Sys2Proof.Laws

section
variable {opu : Fin 4} {d : Dev}

/-! A homing that fails for the first time (R318). -/

/-- What the homing that follows a failure begins with: the failure counted, homing anew, and the sleds of the other OPUs as they were. -/
structure HomesAgain (opu : Fin 4) (d e : Dev) : Prop where
  fails : (e.sled opu).fails = (d.sled opu).fails + 1
  state : e.sldState opu = sldHoming
  home : (e.sled opu).home = .clear
  failed : e.fg .SLD_STAT_HOME_FAIL opu = 1
  homed : e.fg .SLD_STAT_HOMED opu = 0
  others : ∀ o : Fin 4, o ≠ opu → e.sled o = d.sled o

/-- A register of a sled lies in the SLD block's window. -/
theorem sledReg_mechanics (opu : Fin 4) {r : Reg} (h : SledReg r ∧ r.off < 0x80 := by decide) : MechanicsReg r opu := by
  obtain ⟨⟨hblk, hstep⟩, hoff⟩ := h
  refine ⟨.inl (by rw [hblk]; rfl), ?_⟩
  rw [hstep]
  omega

theorem homeFailed_homesAgain (hready : d.opuReady opu = true) (hst : d.sldState opu = sldHoming) (hfirst : (d.sled opu).fails = 0)
    (steps : Nat) : HomesAgain opu d (homeFailed opu steps true d) := by
  obtain ⟨x, v, heq⟩ := homeFailed_first hready hst hfirst steps
  have hevent := (MechanicsKept.refl (homeStopped opu d)).event x
  have hidle : (((homeStopped opu d).event x).fs .SLD_HOME2_I_HOME v opu).sldState opu = sldIdle :=
    ((sldState_fs _ opu v).trans (hevent.fg .SLD_STAT_STATE opu (sledReg_mechanics opu))).trans (sldState_sldToIdle opu _)
  have hon : (((homeStopped opu d).event x).fs .SLD_HOME2_I_HOME v opu).opuReady opu = true := by
    rw [← hready, ← opuReady_homeStopped opu d]
    refine opuReady_of_eq ?_ ?_
    · rw [fs_shadow, event_shadow]
    · rw [fs_opuStage, event_opuStage]
  rw [heq, sldHome_begins hon hidle]
  refine ⟨?_, ?_, ?_, ?_, ?_, fun o ho => ?_⟩
  · rw [sled_onSled_self, sled_fs, sled_fs, hevent.sled, sled_homeStopped]
  · rw [sldState_onSled, sldState_fs_state]
  · rw [sled_onSled_self]
  · rw [onSled_fg, fg_fs_sled _ opu (x := .SLD_STAT_STATE), fg_fs_sled _ opu (x := .SLD_HOME2_I_HOME),
      hevent.fg _ _ (sledReg_mechanics opu), homeStopped, fg_sldToIdle, onSled_fg, fg_fs_sled _ opu (x := .SLD_STAT_HOMED),
      fg_bump_sled, fg_fs_of_lt _ _ (by decide) (by decide)]
  · rw [onSled_fg, fg_fs_sled _ opu (x := .SLD_STAT_STATE), fg_fs_sled _ opu (x := .SLD_HOME2_I_HOME),
      hevent.fg _ _ (sledReg_mechanics opu), homeStopped, fg_sldToIdle, onSled_fg, fg_fs_of_lt _ _ (by decide) (by decide)]
  · rw [sled_onSled_ne _ _ ho, sled_fs, sled_fs, hevent.sled, homeStopped, sled_sldToIdle_ne _ ho, sled_onSled_ne _ _ ho, sled_fs,
      sled_bump, sled_fs]

/-! An OPU parked (R322). -/

/-- A target has no part in the servos. -/
theorem servoSide_sledTarget (n : Nat) (cle : Bool) (t pos : Int) (speed : Nat) (d : Dev) :
    servoSide (sledTarget n cle t pos speed d) = servoSide d := by
  refine sledTarget_inv (P := fun e => servoSide e = servoSide d) (fun e x v hx he => ?_) (fun e p he => ?_) (fun _ _ he => he) rfl
    cle t pos speed
  · exact (servoSide_fs_above e x v n (by rw [hx]; decide)).trans he
  · exact (servoSide_fs_above e .SLD_POS _ n).trans he

/-- A target written to SLD_TGT stands there whatever becomes of the move, and the source and the servos have no part in it. -/
theorem sldTgtWrite_spec (v : DWord) (pos : Int) (speed : Nat) (d : Dev) :
    (sldTgtWrite opu v pos speed d).fg .SLD_CTL_SRC opu = d.fg .SLD_CTL_SRC opu ∧ (sldTgtWrite opu v pos speed d).rd .SLD_TGT opu = v ∧
      servoSide (sldTgtWrite opu v pos speed d) = servoSide d := by
  have hwritten : servoSide (d.wr .SLD_TGT v opu) = servoSide d := servoSide_wr d v (besideMailbox_of_outside (.inl (by decide)))
  refine ⟨?_, ?_, (servoSide_sledTarget opu false _ pos speed _).trans hwritten⟩
  · refine sledTarget_inv (P := fun u => u.fg .SLD_CTL_SRC opu = d.fg .SLD_CTL_SRC opu) (fun u x n hx hu => ?_) (fun u p hu => ?_)
      (fun _ _ hu => hu) ?_ false _ pos speed
    · exact (fg_wr_ne u _ (by rw [hx]; exact sledKey_ne (by decide) (by decide) (by decide) opu)).trans hu
    · exact (fg_fs_sled u opu (x := .SLD_POS) _).trans hu
    · exact fg_wr_ne d v (sledKey_ne (by decide) (by decide) (by decide) opu)
  · refine sledTarget_inv (P := fun u => u.rd .SLD_TGT opu = v) (fun u x n hx hu => ?_) (fun u p hu => ?_) (fun _ _ hu => hu)
      (rd_wr _ _ _ _ _) false _ pos speed
    · exact (rd_fs_sled u opu n (by rw [hx]; decide)).trans hu
    · exact (rd_fs_sled u opu (x := .SLD_POS) _).trans hu

/-- What parking an OPU leaves: its loops open, its sled under firmware's targets, and the target as given. -/
structure Parked (opu : Fin 4) (target : DWord) (e : Dev) : Prop where
  state : e.svSt opu = svOpen
  source : e.fg .SLD_CTL_SRC opu = 1
  target : e.rd .SLD_TGT opu = target
  inhibited : e.inhibited opu = true

/-- Parking an OPU whose sled's position is sure (R322). -/
theorem opuPark_parks (hready : d.opuReady opu = true) (hsure : d.fg .SLD_STAT_POS_UNSURE opu = 0) (pos : Int) (speed : Nat) :
    Parked opu (BitVec.ofInt 32 (4096 + (d.sled opu).drift)) (opuPark opu pos speed d) := by
  have hslot : 61 + opu.val < 80 := by omega
  have hkept := (((MechanicsKept.refl d).apcStop opu.isLt).servoOpen opu.isLt).slotStop hslot
  have hopened := servoOpen_opened opu (apcStop opu d)
  unfold opuPark
  rw [if_neg (by simp [hready])]
  extract_lets e
  have hdrift : e.sled opu = d.sled opu := hkept.sled opu
  have hside : servoSide e = servoSide (servoOpen opu (apcStop opu d)) :=
    (servoSide_fs_above _ .SLD_CTL_SRC 1 opu).trans (servoSide_slotStop _ _)
  have hknown : e.is .SLD_STAT_POS_UNSURE opu = false := by
    rw [Dev.is, fg_fs_sled _ opu (x := .SLD_CTL_SRC), hkept.fg _ _ (sledReg_mechanics opu), hsure]
    rfl
  rw [if_neg (by simp [hknown]), hdrift]
  obtain ⟨hsource, htarget, hservo⟩ := sldTgtWrite_spec (opu := opu) (BitVec.ofInt 32 (4096 + (d.sled opu).drift)) pos speed e
  have hopen := hservo.trans hside
  exact ⟨(svSt_of_servoSide hopen opu).trans hopened.state, hsource.trans (fg_fs_of_lt _ _ (by decide) (by decide)), htarget,
    (inhibited_of_servoSide hopen opu).trans hopened.inhibited⟩

end

/-! The obligation. -/

/-- Settles O21: each clause by what its command makes of the sled, its status and its position. The park position stands through the
move that its target starts, refuses or ignores, as no target writes SLD_TGT. -/
theorem sledAndClamp : Obligations.SledAndClamp := by
  unfold Obligations.SledAndClamp
  refine ⟨fun opu cle target pos speed s ⟨hready, hsrc⟩ hst ⟨hlo, hhi⟩ hu => ?_, fun opu cle target pos speed s hsrc => ?_,
    fun opu s ⟨hready, hst⟩ ⟨hlo, hhi⟩ => ?_, fun opu s hst => ?_, fun opu s ⟨hready, hst⟩ => ?_, fun opu s ⟨hready, hst⟩ => ?_,
    fun opu duties s ⟨hready, hst⟩ hclear hstall => ?_, fun opu steps s ⟨hready, hst⟩ hfirst => ?_,
    fun opu pos speed s ⟨hready, hst⟩ hspeed hrun => ?_, fun opu s hst => ?_, fun opu ma s ⟨hready, hen⟩ hma => ?_,
    fun opu pos speed s ⟨hready, hsure⟩ => ?_⟩
  · have hmode := sldMode_kept opu 0 ((s.dev.setPos opu (s.dev.sldPos opu)).onSled opu fun x =>
      { x with target := sldRound (s.dev.fg .SLD_CTL_MSTEP opu) target, low := false })
    obtain ⟨hposLo, hposHi⟩ : -2147483648 ≤ s.dev.sldPos opu ∧ s.dev.sldPos opu ≤ 2147483647 := signed_bounds _
    refine gives_of_eq rfl (sledTarget_moves hsrc hready hst hlo hhi rfl hu pos speed)
      ⟨?_, sldState_fs_state _ opu, ?_, fun o ho => ?_, ?_⟩
    · rw [sled_fs, hmode.sled, sled_onSled_self]
    · rw [sldPos_fs _ opu (x := .SLD_STAT_STATE), hmode.pos, sldPos_onSled, sldPos_setPos _ _ hposLo hposHi]
    · rw [sled_fs, hmode.sled, sled_onSled_ne _ _ ho, sled_setPos]
    · exact SldChange.ofSleds (((((SldChange.refl _ _).setPos (by simp)).onSled).sldMode (by simp) 0).fs) (by simp [hmode.clamp])
  · show State.onDev _ _ = _
    rw [onDev_next, sledTarget_other hsrc]
  · have hmode := sldMode_kept opu 0 ((s.dev.setPos opu (s.dev.sled opu).target).bump .SLD_CNT_MOVE opu)
    refine gives_of_eq rfl (sledMoveDone_moving hready hst) ⟨sldState_sldToIdle _ _, ?_, ?_, fun o ho => ?_⟩
    · rw [sldPos_sldToIdle, hmode.pos]
      exact (congrArg (signed 32) (fg_bump_sled _ opu)).trans (sldPos_setPos _ _ hlo hhi)
    · rw [rd_sldToIdle, hmode.moves, Dev.bump, rd_wr, Dev.setPos, rd_fs_sled _ opu (x := .SLD_POS)]
    · rw [sled_sldToIdle_ne _ ho, hmode.sled, sled_bump, sled_setPos]
  · show State.onDev _ _ = _
    rw [onDev_next, sledIdleTimeout_idle hst]
    rfl
  · refine gives_of_eq rfl (sldHome_begins hready hst) ⟨sldState_fs_state _ opu, ?_, ?_, ?_, ?_⟩
    · rw [sled_onSled_self]
    · rw [sled_onSled_self]
    · rw [sled_onSled_self]
    · exact SldChange.ofSleds (SldChange.refl _ _).fs.onSled (by simp)
  · show State.onDev _ _ = _
    rw [onDev_next, sldHome_refused hst]
  · have hback : limitN 1 255 (bitsOf (s.dev.sled opu).home1.toNat 16 8) ≤ 255 := limitN_le _ _ _ (by decide)
    refine gives_of_eq rfl (homeStallDetect_backs hready hst hclear hstall) ⟨?_, ?_, ?_, ?_, ?_⟩
    · rw [sled_onSled_self]
    · rw [sled_onSled_self]
    · rw [sldState_onSled, sldState_setPos, hst]
    · rw [sldPos_onSled, sldPos_setPos _ _ (by omega) (by omega)]
    · exact SldChange.ofSleds ((SldChange.refl _ _).setPos (by simp)).onSled (by simp)
  · have hagain := homeFailed_homesAgain hready hst hfirst steps
    exact gives_of_eq rfl rfl ⟨by rw [hagain.fails, hfirst], hagain.state, hagain.home, hagain.failed, hagain.homed, hagain.others⟩
  · refine gives_of_eq rfl (sldStop_inward hready hst hspeed hrun) ⟨sldState_fs_state _ opu, ?_, ?_, ?_⟩
    · rw [sled_fs, sled_onSled_self]
    · rw [sled_fs, sled_onSled_self]
      rfl
    · exact SldChange.ofSleds ((SldChange.refl _ _).setPos (by simp)).onSled.fs (by simp)
  · refine gives_of_eq rfl (sldClearFault_fault hst) ⟨sldState_sldToIdle _ _, ?_, ?_, ?_, ?_, ?_⟩
    · rw [fg_sldToIdle, fg_fs_sled _ opu (x := .SLD_STAT_POS_UNSURE), fg_fs_of_lt _ _ (by decide) (by decide)]
    · rw [fg_sldToIdle, fg_fs_of_lt _ _ (by decide) (by decide)]
    · rw [sled_sldToIdle, sldPos_fs _ opu (x := .SLD_STAT_POS_UNSURE), sldPos_fs _ opu (x := .SLD_STAT_HOMED)]
    · rw [sldPos_sldToIdle, sldPos_fs _ opu (x := .SLD_STAT_POS_UNSURE), sldPos_fs _ opu (x := .SLD_STAT_HOMED)]
    · exact SldChange.ofSleds ((SldChange.refl _ _).fs.fs.sldToIdle (by simp) (by simp)) (by simp [clamp_sldToIdle])
  · refine gives_of_eq rfl (sledOvercurrent_faults hready hen hma) ⟨?_, ?_, ?_, ?_⟩
    · rw [sldState_onSled]
      exact (fg_bump_sled _ opu).trans ((sldState_fs _ opu 1).trans (sldState_fs_state _ opu))
    · rw [onSled_fg, fg_bump_sled, fg_fs_of_lt _ _ (by decide) (by decide)]
    · rw [sled_onSled_self]
    · exact SldChange.ofSleds ((SldChange.refl _ _).fs.fs.bump (by simp)).onSled (by simp)
  · have hparked := opuPark_parks hready hsure pos speed
    exact gives_of_eq rfl rfl ⟨hparked.state, hparked.source, hparked.target, hparked.inhibited⟩

end Sys2Proof.Proofs
end

section
/-!
SUPPORT. The clamp: its commands, inputs and timeouts, and a disc lost (09_sled_and_clamp.md R325 to R328, Table 9-6).
-/

namespace Sys2Proof.Proofs

open Sys2Proof Sys2Proof.Machine Sys2Proof.Laws

/-! The clamp's status. -/

section
variable (d : Dev)

theorem clState_fs_state {st : Nat} (h : st < 2 ^ 3) : (d.fs .SLD_CL_STAT_STATE st).clState = st :=
  fg_fs_of_lt d 0 (by decide) h

theorem clState_fs {x : Fld} (v : Nat) (h : SingleApart x .SLD_CL_STAT_STATE := by decide) : (d.fs x v).clState = d.clState :=
  fg_fs_single d v h

@[simp] theorem clState_onClamp (f : Clamp → Clamp) : (d.onClamp f).clState = d.clState := rfl

/-- What entering a state of the clamp changes. -/
theorem changes_clState (st : Nat) (f : Clamp → Clamp) :
    Changes [Reg.SLD_CL_STAT.key 0 0] d ((d.fs .SLD_CL_STAT_STATE st).onClamp f) { d with clamp := f d.clamp } :=
  SldChange.ofClamp (SldChange.refl _ d).fs.onClamp rfl

end

/-! Commands (R325 to R327). -/

section
variable {d : Dev}

theorem clampCmd_begins (hst : d.clState ≠ clFault ∧ d.clState ≠ clClamped ∧ d.clState ≠ clClamping) : clampCmd d = clampBegin d := by
  obtain ⟨hfault, hclamped, hclamping⟩ := hst
  unfold clampCmd
  dsimp only
  rw [if_neg (by simp [hfault]), if_neg (by simp [hclamped, hclamping])]

theorem clampCmd_refused (hst : d.clState = clFault) : clampCmd d = d.fs .SLD_CL_STAT_REFUSED 1 := if_pos (by simp [hst])

/-- RELEASE at a standing spindle begins the release sequence (R326). -/
theorem releaseCmd_begins (hst : d.clState ≠ clFault ∧ d.clState ≠ clReleasing) (hoff : d.spnState = spnOff)
    (hslow : d.is .SPN_STAT_BELOW30 = true) : releaseCmd d = releaseBegin d := by
  obtain ⟨hfault, hreleasing⟩ := hst
  unfold releaseCmd
  rw [if_pos (by simp [hfault, hoff, hslow]), if_neg (by simp [hreleasing])]

theorem releaseCmd_refused (h : d.clState = clFault ∨ d.spnState ≠ spnOff ∨ d.is .SPN_STAT_BELOW30 = false) :
    releaseCmd d = d.fs .SLD_CL_STAT_REFUSED 1 := by
  refine if_neg ?_
  simp only [Bool.and_eq_true, bne_iff_ne, beq_iff_eq]
  rintro ⟨⟨hfault, hoff⟩, hslow⟩
  obtain h | h | h := h
  · exact hfault h
  · exact h hoff
  · exact absurd hslow (by simp [h])

theorem clState_releaseBegin (d : Dev) : (releaseBegin d).clState = clReleasing := by
  rw [releaseBegin, clState_onClamp, clState_fs_state _ (by decide)]

/-- The state that the clamp's two inputs stand for (R327). -/
def inputsState (d : Dev) : Nat :=
  if d.is .SLD_CL_STAT_DISC_PRESENT && d.is .SLD_CL_STAT_CLAMP_HOME then clFault
  else if d.is .SLD_CL_STAT_CLAMP_HOME then clReleased else if d.is .SLD_CL_STAT_DISC_PRESENT then clClamped else clUnknown

theorem inputsState_lt (d : Dev) : inputsState d < 2 ^ 3 := by
  unfold inputsState
  split
  · decide
  · split
    · decide
    · split <;> decide

theorem clampClearFault_fault (hst : d.clState = clFault) :
    clampClearFault d = (d.fs .SLD_CL_STAT_STATE (inputsState d)).onClamp fun c => { c with seating := false } := if_pos (by simp [hst])

/-! Inputs and the seating drive (R325, R326). -/

theorem discPresentRise_clamping (hst : d.clState = clClamping) :
    discPresentRise d = (d.fs .SLD_CL_STAT_DISC_PRESENT 1).onClamp fun c => { c with seating := true } := by
  unfold discPresentRise
  dsimp only
  rw [clState_fs, hst, beq_self_eq_true, Laws.cond_true]

theorem clampHomeRise_releasing (hst : d.clState = clReleasing) :
    clampHomeRise d = ((d.fs .SLD_CL_STAT_CLAMP_HOME 1).fs .SLD_CL_STAT_DISC_PRESENT 0).onClamp fun c => { c with seating := true } := by
  unfold clampHomeRise
  dsimp only
  rw [clState_fs, clState_fs, hst, beq_self_eq_true, Laws.cond_true]

/-- The end of the seating drive ends its sequence (R325, R326). -/
theorem clampSeatDone_ends (hseat : d.clamp.seating = true) (hst : d.clState = clClamping ∨ d.clState = clReleasing) :
    clampSeatDone d = (d.onClamp fun c => { c with seating := false }).fs .SLD_CL_STAT_STATE
      (if d.clState = clClamping then clClamped else clReleased) := by
  unfold clampSeatDone
  rw [if_neg (by simp [hseat])]
  dsimp only
  rw [clState_onClamp]
  obtain hst | hst := hst <;> rw [hst] <;> rfl

/-! Timeouts (R325, R326). -/

theorem clampLeaveTimeout_fallen (hst : d.clState = clClamping) (hwas : d.clamp.wasHome = true) :
    clampLeaveTimeout true d = (d.fs .SLD_CL_STAT_CLAMP_HOME 0).onClamp fun c => { c with wasHome := false } := by
  unfold clampLeaveTimeout
  rw [if_neg (by simp [hst, hwas]), if_pos rfl]

theorem clampLeaveTimeout_jams (hst : d.clState = clClamping) (hwas : d.clamp.wasHome = true) : clampLeaveTimeout false d = clampJam d := by
  unfold clampLeaveTimeout
  rw [if_neg (by simp [hst, hwas]), if_neg (by decide)]

/-- A register of the clamp lies in the SLD block's window. -/
theorem clStat_mechanics : MechanicsReg .SLD_CL_STAT 0 := by decide

theorem event_clamp (d : Dev) (x : EventInfo) : (d.event x).clamp = d.clamp := by
  obtain ⟨j, h | ⟨v, h⟩⟩ := event_journal d x
  · rw [h, onJournal_clamp]
  · rw [h, fs_clamp, onJournal_clamp]

/-- What a jam leaves: FAULT with JAM, and no seating drive. -/
theorem clampJam_spec (d : Dev) :
    (clampJam d).clState = clFault ∧ (clampJam d).is .SLD_CL_STAT_JAM = true ∧ (clampJam d).clamp.seating = false := by
  unfold clampJam
  generalize hu : ((d.fs .SLD_CL_STAT_STATE clFault).fs .SLD_CL_STAT_JAM 1).onClamp (fun c => { c with seating := false }) = u
  have hevent := (MechanicsKept.refl u).event { code := 0x2006 }
  refine ⟨?_, ?_, ?_⟩
  · rw [Dev.clState, hevent.fg _ _ clStat_mechanics, ← hu, onClamp_fg, fg_fs_single _ _ (by decide),
      fg_fs_of_lt _ _ (by decide) (by decide)]
  · rw [Dev.is, hevent.fg _ _ clStat_mechanics, ← hu, onClamp_fg, fg_fs_of_lt _ _ (by decide) (by decide)]
    rfl
  · rw [event_clamp, ← hu, onClamp_clamp]

/-- A clamping that finds no disc in time is released (R325). -/
theorem clampMoveTimeout_releases (hst : d.clState = clClamping) (hseat : d.clamp.seating = false) :
    clampMoveTimeout d = releaseBegin (d.fs .SLD_CL_STAT_NO_DISC 1) := by
  unfold clampMoveTimeout
  rw [if_neg (by simp [hseat]), if_pos (by simp [hst])]

/-! A disc lost (R328). -/

/-- What the hardware does at a disc lost, without the spindle. -/
def discLostStatus (d : Dev) : Dev :=
  ((d.fs .SLD_CL_STAT_DISC_PRESENT 0).fs .SLD_CL_STAT_DISC_LOST 1).fs .SLD_CL_STAT_STATE clFault

theorem discLostHw_clamped (hst : d.clState = clClamped) : discLostHw d = spnStop (discLostStatus d) := by
  unfold discLostHw
  dsimp only
  rw [clState_fs, hst, beq_self_eq_true, Laws.cond_true]
  rfl

/-- A write of the clamp's status is none of the mode's register. -/
theorem mode_fs_clStat (d : Dev) {x : Fld} (v : Nat) (hx : x.reg.key 0 0 ≠ Reg.PMU_STAT.key 0 0 := by decide) :
    (d.fs x v).mode = d.mode := fg_fs_ne d x .PMU_STAT_MODE v 0 0 0 0 hx

/-- The loops, lanes and slices of every OPU held and stopped (R328). -/
theorem MechanicsKept.opusStopped {e : Dev} (h : MechanicsKept d e) : MechanicsKept d (e.each e.opus fun u o =>
    Machine.slicesOff o (Machine.servoOpen o (Machine.apcStop o (Machine.lanesStop true o (u.hold o true))))) := by
  refine each_inv (P := MechanicsKept d) h fun u o ho hu => ?_
  have hlt := opu_lt_four ho
  have hheld : MechanicsKept d (u.hold o true) := hu.svSet hlt svHold _
  exact (((hheld.lanesStop hlt true).apcStop hlt).servoOpen hlt).slicesOff hlt

/-- The disc that firmware knows to be gone. -/
def discGone (w : Firmware) : Firmware := { w with disc := { w.disc with loaded := false, lost := true } }

/-- A turning unit whose disc is lost is PARKED, all else stopped and ended without a change of the mode or the clamp's status. -/
theorem discLost_turning (hst : d.clState = clClamped) (hmode : d.mode = 3 ∨ d.mode = 4 ∨ d.mode = 5) :
    ∃ e, MechanicsKept (discLostStatus d) e ∧ discLost d = (e.onFw discGone).setMode 2 := by
  unfold discLost
  rw [if_neg (by simp [hst]), discLostHw_clamped hst]
  extract_lets start stopped told ended gone
  have hstopped : MechanicsKept (discLostStatus d) stopped := (MechanicsKept.refl _).spnStop.opusStopped
  have htold : MechanicsKept (discLostStatus d) told := (hstopped.event _).attn 1
  have hkept : MechanicsKept (discLostStatus d) (cpDrop 1 (cpDrop 0 ended)) := ((htold.failDisc 6 4).cpDrop 0).cpDrop 1
  have hsame : gone.mode = d.mode := (hkept.fg .PMU_STAT_MODE 0 (by decide)).trans
    (((mode_fs_clStat _ _).trans (mode_fs_clStat _ _)).trans (mode_fs_clStat d _))
  rw [hsame, if_pos (by simpa [or_assoc] using hmode)]
  exact ⟨_, hkept, rfl⟩

/-- What the loss of the disc of a turning unit leaves (R328, Table 19-2). -/
structure DiscLost (e : Dev) : Prop where
  state : e.clState = clFault
  lost : e.is .SLD_CL_STAT_DISC_LOST = true
  notLoaded : e.fw.disc.loaded = false
  known : e.fw.disc.lost = true
  parked : e.mode = 2

theorem discLost_parked (hst : d.clState = clClamped) (hmode : d.mode = 3 ∨ d.mode = 4 ∨ d.mode = 5) : DiscLost (discLost d) := by
  obtain ⟨e, hkept, heq⟩ := discLost_turning hst hmode
  have hstatus : ∀ x : Fld, x.reg = .SLD_CL_STAT → ((e.onFw discGone).setMode 2).fg x = (discLostStatus d).fg x := fun x hx =>
    (fg_fs_ne _ .PMU_STAT_MODE x 2 0 0 0 0 (by rw [hx]; decide)).trans (hkept.fg x 0 (by rw [hx]; exact clStat_mechanics))
  rw [heq]
  refine ⟨?_, ?_, rfl, rfl, fg_fs_of_lt _ 0 (by decide) (by decide)⟩
  · exact (hstatus .SLD_CL_STAT_STATE rfl).trans (clState_fs_state _ (by decide))
  · refine (congrArg (· == 1) (hstatus .SLD_CL_STAT_DISC_LOST rfl)).trans ?_
    rw [discLostStatus, fg_fs_single _ _ (by decide), fg_fs_of_lt _ _ (by decide) (by decide)]
    rfl

end

/-! The obligation. -/

/-- Settles O22: each clause by what its command makes of the clamp's state and variables. A lost disc stops the spindle and every OPU,
and none of what stops has a part in the clamp's status or the mode. -/
theorem clampSequences : Obligations.ClampSequences := by
  unfold Obligations.ClampSequences
  refine ⟨fun s hst => ?_, fun s hst => ?_, fun s hst ⟨hoff, hslow⟩ => ?_, fun s h => ?_, fun s hst => ?_, fun s hst => ?_,
    fun s hst => ?_, fun s hseat hst => ?_, fun s ⟨hst, hwas⟩ => ?_, fun s ⟨hst, hwas⟩ => ?_, fun s ⟨hst, hseat⟩ => ?_,
    fun s hst hmode => ?_⟩
  · exact gives_of_eq rfl (clampCmd_begins hst) ⟨clState_fs_state _ (by decide), rfl, rfl, changes_clState _ _ _⟩
  · show State.onDev _ _ = _
    rw [onDev_next, clampCmd_refused hst]
  · exact gives_of_eq rfl (releaseCmd_begins hst hoff hslow) ⟨clState_releaseBegin _, rfl, changes_clState _ _ _⟩
  · show State.onDev _ _ = _
    rw [onDev_next, releaseCmd_refused h]
  · exact gives_of_eq rfl (clampClearFault_fault hst)
      ⟨clState_fs_state _ (inputsState_lt _), rfl, changes_clState _ _ _⟩
  · refine gives_of_eq rfl (discPresentRise_clamping hst) ⟨is_fs_one _ (by decide) rfl, rfl, ?_, SldChange.ofClamp ?_ rfl⟩
    · rw [clState_onClamp, clState_fs, hst]
    · exact (SldChange.refl _ _).fs.onClamp
  · refine gives_of_eq rfl (clampHomeRise_releasing hst) ⟨?_, ?_, rfl, ?_, SldChange.ofClamp ?_ (by simp)⟩
    · rw [onClamp_is, is_fs_single _ _ (by decide), is_fs_one _ (by decide) rfl]
    · rw [onClamp_is, Dev.is, fg_fs_of_lt _ _ (by decide) (by decide)]
      rfl
    · rw [clState_onClamp, clState_fs, clState_fs, hst]
    · exact (SldChange.refl _ _).fs.fs.onClamp
  · refine gives_of_eq rfl (clampSeatDone_ends hseat hst) ⟨clState_fs_state _ (by split <;> decide), rfl, SldChange.ofClamp ?_ rfl⟩
    exact (SldChange.refl _ _).onClamp.fs
  · refine gives_of_eq rfl (clampLeaveTimeout_fallen hst hwas) ⟨?_, rfl, ?_, SldChange.ofClamp ?_ rfl⟩
    · rw [onClamp_is, Dev.is, fg_fs_of_lt _ _ (by decide) (by decide)]
      rfl
    · rw [clState_onClamp, clState_fs, hst]
    · exact (SldChange.refl _ _).fs.onClamp
  · exact gives_of_eq rfl (clampLeaveTimeout_jams hst hwas) (clampJam_spec _)
  · refine gives_of_eq rfl (clampMoveTimeout_releases hst hseat) ⟨clState_releaseBegin _, ?_, SldChange.ofClamp ?_ (by simp [releaseBegin])⟩
    · rw [releaseBegin, onClamp_is, is_fs_single _ _ (by decide), is_fs_one _ (by decide) rfl]
    · exact (SldChange.refl _ _).fs.fs.onClamp
  · have hlost := discLost_parked hst hmode
    exact gives_of_eq rfl rfl ⟨hlost.state, hlost.lost, hlost.notLoaded, hlost.known, hlost.parked⟩

end Sys2Proof.Proofs
end

section
/-!
SUPPORT. The calibration sequencer: its sets of pairs, and what changes of a unit as a run is triggered and aborted
(10_calibration.md R342, R346, R347).
-/

namespace Sys2Proof.Proofs

open Sys2Proof Sys2Proof.Machine Sys2Proof.Laws

/-! One bit of a number. -/

theorem shiftRight_mod_two (n k : Nat) : n >>> k % 2 = bit (n.testBit k) := by
  rw [Nat.shiftRight_eq_div_pow, ← Nat.toNat_testBit]
  cases n.testBit k <;> rfl

/-- A clear bit set by an addition. -/
theorem add_two_pow_eq_putBits {a b : Nat} (h : a.testBit b = false) : a + 2 ^ b = putBits a b 1 1 := by
  simp [putBits, shiftRight_mod_two, h, bit, Nat.shiftLeft_eq]

/-- A bit cleared by a subtraction. -/
theorem sub_bit_eq_putBits (n k : Nat) : n - 2 ^ k * bit (n.testBit k) = putBits n k 1 0 := by
  simp [putBits, shiftRight_mod_two, Nat.shiftLeft_eq, Nat.mul_comm]

theorem testBit_add_two_pow {a b : Nat} (h : a.testBit b = false) (k : Nat) : (a + 2 ^ b).testBit k = (a.testBit k || b == k) := by
  rw [add_two_pow_eq_putBits h, testBit_putBits]
  by_cases hk : k = b
  · simp [hk]
  · rw [if_neg (by omega)]
    simp [Ne.symm hk]

/-- The bits of a sum of powers of two, each listed once. -/
theorem testBit_powers {α : Type} (at_ : α → Nat) (ok : α → Bool) {l : List α} (hl : (l.map at_).Nodup) {a : Nat}
    (ha : ∀ p ∈ l, a.testBit (at_ p) = false) (k : Nat) :
    (l.foldl (fun s p => if ok p then s + 2 ^ at_ p else s) a).testBit k = (a.testBit k || l.any fun p => ok p && at_ p == k) := by
  induction l generalizing a with
  | nil => simp
  | cons p l ih =>
    obtain ⟨hp, hl⟩ := List.nodup_cons.mp hl
    have hne : ∀ q ∈ l, at_ p ≠ at_ q := fun q hq heq => hp (heq ▸ List.mem_map_of_mem hq)
    have hclear := ha p (by simp)
    rw [List.foldl_cons, List.any_cons]
    cases hok : ok p
    · rw [if_neg (by simp), ih hl fun q hq => ha q (by simp [hq])]
      simp
    · rw [if_pos rfl, ih hl fun q hq => ?_, testBit_add_two_pow hclear, Bool.true_and, Bool.or_assoc]
      rw [testBit_add_two_pow hclear, ha q (by simp [hq])]
      simp [hne q hq]

/-! Sets of pairs (R342, R346). -/

theorem mem_runOrder {set : Nat} {p : Nat × Nat} :
    p ∈ runOrder set ↔ p.1 < 7 ∧ p.2 < 4 ∧ set.testBit (pairBit p.2 p.1) = true := by
  obtain ⟨g, o⟩ := p
  simp [runOrder, and_assoc]

theorem pairBit_injective {g o g' o' : Nat} (hg : g < 7) (hg' : g' < 7) (h : pairBit o g = pairBit o' g') : g = g' ∧ o = o' := by
  unfold pairBit at h
  omega

theorem runOrder_nodup (set : Nat) : ((runOrder set).map fun p => pairBit p.2 p.1).Nodup := by
  have hall : (((List.range 7).flatMap fun g => (List.range 4).map fun o => (g, o)).map fun p => pairBit p.2 p.1).Nodup := by decide
  exact hall.sublist (List.filter_sublist.map _)

theorem testBit_fusedPairs (d : Dev) (set k : Nat) :
    (fusedPairs d set).testBit k = (runOrder set).any fun p => d.opuPresent p.2 && pairBit p.2 p.1 == k := by
  unfold fusedPairs
  rw [testBit_powers (fun p : Nat × Nat => pairBit p.2 p.1) (fun p => d.opuPresent p.2) (runOrder_nodup set) (by simp)]
  simp

/-- The fused-on pairs of a set are those of it whose OPU the fuses enable (R6). -/
theorem mem_runOrder_fusedPairs {d : Dev} {set : Nat} {p : Nat × Nat} :
    p ∈ runOrder (fusedPairs d set) ↔ p ∈ runOrder set ∧ d.opuPresent p.2 = true := by
  simp only [mem_runOrder, testBit_fusedPairs, List.any_eq_true, Bool.and_eq_true, beq_iff_eq]
  constructor
  · rintro ⟨hg, ho, q, ⟨hqg, -, hset⟩, hpresent, heq⟩
    obtain ⟨h1, h2⟩ := pairBit_injective hqg hg heq
    exact ⟨⟨hg, ho, heq ▸ hset⟩, h2 ▸ hpresent⟩
  · rintro ⟨⟨hg, ho, hset⟩, hpresent⟩
    exact ⟨hg, ho, p, ⟨hg, ho, hset⟩, hpresent, rfl⟩

theorem fusedPairs_lt (d : Dev) (set : Nat) : fusedPairs d set < 2 ^ 28 := by
  refine Nat.lt_pow_two_of_testBit _ fun k hk => ?_
  rw [testBit_fusedPairs, List.any_eq_false]
  intro p hp
  obtain ⟨hg, ho, -⟩ := mem_runOrder.mp hp
  have hbit : pairBit p.2 p.1 ≠ k := by
    unfold pairBit
    omega
  simp [hbit]

section
variable {d : Dev}

/-! What changes of a unit. -/

/-- From `e` to `d` only the registers of `keys` and the sequencer's data change. -/
structure CalChange (keys : List Nat) (e d : Dev) : Prop where
  kept : RegsKept keys e d
  rest : d = { e with cal := d.cal, regs := d.regs }

section
variable {keys : List Nat} {e : Dev}

theorem CalChange.refl (keys : List Nat) (d : Dev) : CalChange keys d d := ⟨fun _ _ => rfl, rfl⟩

theorem CalChange.fs {x : Fld} {v i : Nat} (h : CalChange keys e d) (hx : x.reg.key i 0 ∈ keys := by decide) :
    CalChange keys e (d.fs x v i) := by
  obtain ⟨hkept, hrest⟩ := h
  refine ⟨fun k hk => ?_, ?_⟩
  · rw [Dev.fs, lookup_wr _ _ _ _ _ _ (ne_of_mem_of_not_mem hx hk).symm, hkept k hk]
  · unfold Dev.fs Dev.wr
    rw [hrest]

theorem CalChange.withCal {c : Calib} (h : CalChange keys e d) : CalChange keys e { d with cal := c } := by
  obtain ⟨hkept, hrest⟩ := h
  exact ⟨hkept, by rw [hrest]⟩

theorem CalChange.changes (h : CalChange keys e d) : Changes keys e d { e with cal := d.cal } := ⟨h.kept, h.rest⟩

end

/-! A trigger (R346). -/

/-- A set of fused-on pairs that has been triggered: a run at once where the sequencer is free, else part of the pending set. -/
def triggered (s : Nat) (d : Dev) : Dev :=
  if d.calIdle && d.is .CAL_CTL_EN && d.fg .CAL_PEND_PAIRS == 0 && !d.frost then calRun s d
  else
    let d := d.cond (d.fg .CAL_PEND_PAIRS != 0) fun d => d.bump .CAL_CNT_MERGE
    calNext ((d.fs .CAL_PEND_PAIRS (d.fg .CAL_PEND_PAIRS ||| s)).fs .CAL_STAT_PEND 1)

/-- The sequencer's data once a pair has been noted as triggered at a Quire time, and as due from then on. -/
def pairNoted (qtime : Nat) (p : Nat × Nat) (c : Calib) : Calib :=
  { c with
    dueAt := if sparseGet 0 c.dueAt (pairBit p.2 p.1) = 0 then sparseSet 0 c.dueAt (pairBit p.2 p.1) (qtime + 1) else c.dueAt
    trigAt := sparseSet 0 c.trigAt (pairBit p.2 p.1) (qtime + 1) }

/-- A trigger notes its pairs in the sequencer's data, leaving the die temperature there, and its set is then triggered. -/
theorem calTrigger_eq {set : Nat} (hs : fusedPairs d set ≠ 0) :
    ∃ c : Calib, c.die = d.cal.die ∧ calTrigger set d = triggered (fusedPairs d set) { d with cal := c } := by
  have hnoted : ∀ l : List (Nat × Nat), ∃ c : Calib, c.die = d.cal.die ∧
      (d.each l fun e p => e.onCal (pairNoted e.qtime p)) = { d with cal := c } := fun l => by
    refine each_inv (P := fun e => ∃ c : Calib, c.die = d.cal.die ∧ e = { d with cal := c }) ⟨d.cal, rfl, rfl⟩ fun e p _ he => ?_
    obtain ⟨c, hdie, rfl⟩ := he
    exact ⟨pairNoted d.qtime p c, hdie, rfl⟩
  obtain ⟨c, hdie, hc⟩ := hnoted (runOrder (fusedPairs d set))
  refine ⟨c, hdie, ?_⟩
  rw [← hc]
  exact if_neg hs

theorem triggered_idle {s : Nat} (hidle : d.calIdle = true) (hen : d.is .CAL_CTL_EN = true) (hpend : d.fg .CAL_PEND_PAIRS = 0)
    (hfrost : d.frost = false) : triggered s d = calRun s d := if_pos (by simp [hidle, hen, hpend, hfrost])

theorem pendPairs_lt (d : Dev) : d.fg .CAL_PEND_PAIRS < 2 ^ 28 := bitsOf_lt _ _ _

theorem runPairs_calRun {s : Nat} (hs : s < 2 ^ 28) : (calRun s d).fg .CAL_RUN_PAIRS = s := fg_fs_of_lt d 0 (by decide) hs

/-- A pending pair still waits or runs once the pending set may have become a run (R346, R347). -/
theorem calNext_pending {k : Nat} (h : (d.fg .CAL_PEND_PAIRS).testBit k = true) :
    ((calNext d).fg .CAL_RUN_PAIRS).testBit k = true ∨ ((calNext d).fg .CAL_PEND_PAIRS).testBit k = true := by
  unfold calNext
  split
  · left
    rw [runPairs_calRun (pendPairs_lt d), h]
  · exact .inr h

/-- Each pair of a triggered set runs or waits. -/
theorem triggered_waits {s k : Nat} (hs : s < 2 ^ 28) (hk : s.testBit k = true) :
    ((triggered s d).fg .CAL_RUN_PAIRS).testBit k = true ∨ ((triggered s d).fg .CAL_PEND_PAIRS).testBit k = true := by
  unfold triggered
  split
  · left
    rw [runPairs_calRun hs, hk]
  · extract_lets e
    have hjoined : (e.fs .CAL_PEND_PAIRS (e.fg .CAL_PEND_PAIRS ||| s)).fg .CAL_PEND_PAIRS = e.fg .CAL_PEND_PAIRS ||| s :=
      fg_fs_of_lt e 0 (by decide) (Nat.or_lt_two_pow (pendPairs_lt e) hs)
    refine calNext_pending ?_
    rw [fg_fs_single _ (x := .CAL_STAT_PEND) _ (by decide), hjoined, Nat.testBit_or, hk, Bool.or_true]

/-- What registers and the sequencer's data are no part of is left by a triggered set. -/
theorem triggered_kept {β : Type} (g : Dev → β) (hwr : ∀ (e : Dev) r v, g (e.wr r v) = g e)
    (hrun : ∀ (e : Dev) l, g (e.onCal fun c => { c with ahead := l, resources := [] }) = g e) (s : Nat) : g (triggered s d) = g d := by
  have hfs : ∀ (e : Dev) x v, g (e.fs x v) = g e := fun e x v => hwr e _ _
  unfold triggered calNext calRun
  dsimp only
  split
  · rw [hrun, hfs]
  · have hmerged : g (d.cond (d.fg .CAL_PEND_PAIRS != 0) fun d => d.bump .CAL_CNT_MERGE) = g d := cond_eq g fun e => hwr e _ _
    split
    · rw [hrun, hfs, hfs, hfs, hfs, hfs, hmerged]
    · rw [hfs, hfs, hmerged]

end

end Sys2Proof.Proofs
end

section
/-!
SUPPORT. The steps of a calibration run: how one starts, what its measurements conclude, and how it ends (10_calibration.md R342 to R347).
-/

namespace Sys2Proof.Proofs

open Sys2Proof Sys2Proof.Machine Sys2Proof.Laws

section
variable (d : Dev)

/-! What a step reads and a field of CAL_STAT has no part in. -/

/-- A field of another window than the sequencer's. -/
theorem fg_fs_calStat {x y : Fld} (v k : Nat) (hx : x.reg = .CAL_STAT) (hy : y.reg.blk.code ≠ 6 ∧ y.reg.off + k * y.reg.s1 < 0x100000) :
    (d.fs x v).fg y k = d.fg y k := by
  refine fg_fs_ne d x y v 0 0 k 0 ?_
  rw [hx]
  exact key_ne_of_block _ _ _ _ _ _ hy.1.symm (by decide) (by omega)

theorem mode_fs_calStat {x : Fld} (v : Nat) (hx : x.reg = .CAL_STAT) : (d.fs x v).mode = d.mode := fg_fs_calStat d v 0 hx (by decide)

theorem sliceOn_fs_calStat {x : Fld} (v : Nat) {n : Nat} (hx : x.reg = .CAL_STAT) (hn : n < 96) :
    (d.fs x v).sliceOn n = d.sliceOn n := by
  have hen : (d.fs x v).fg .RCS_CTL_EN n = d.fg .RCS_CTL_EN n :=
    fg_fs_calStat d v n hx ⟨by decide, show 0x4 + n * 0x400 < 0x100000 by omega⟩
  unfold Dev.sliceOn Dev.is
  rw [hen]
  rfl

theorem all_congr_mem {α : Type} {p q : α → Bool} {l : List α} (h : ∀ a ∈ l, p a = q a) : l.all p = l.all q := by
  rw [Bool.eq_iff_iff, List.all_eq_true, List.all_eq_true]
  exact forall₂_congr fun a ha => by rw [h a ha]

/-- The condition of a group on an OPU (Table 10-2) is no matter of CAL_STAT. -/
theorem calCondition_fs_calStat {x : Fld} (v g : Nat) {o : Nat} (hx : x.reg = .CAL_STAT) (ho : o ≤ 3) :
    calCondition (d.fs x v) g o = calCondition d g o := by
  have hslice : ∀ y : Fld, SliceReg y.reg → ∀ n ∈ slicesOf o, (d.fs x v).fg y n = d.fg y n := fun y ⟨hblk, hstep, hoff⟩ n hn => by
    have hlt := slicesOf_lt (by omega) hn
    exact fg_fs_calStat d v n hx ⟨by rw [hblk]; decide, by rw [hstep]; omega⟩
  have hstate := hslice .RCS_STAT_STATE (by decide)
  have hsv : (d.fs x v).svSt o = d.svSt o :=
    sv_of_servoSide (servoSide_fs_above d x v 0 (by rw [hx]; decide)) (by omega)
  have hoff : ((slicesOf o).all fun n => !(d.fs x v).is .RCS_CTL_EN n && decide ((d.fs x v).fg .RCS_STAT_STATE n ≤ 1)) =
      (slicesOf o).all fun n => !d.is .RCS_CTL_EN n && decide (d.fg .RCS_STAT_STATE n ≤ 1) :=
    all_congr_mem fun n hn => by rw [Dev.is, Dev.is, hslice _ (by decide) n hn, hstate n hn]
  have htrack : ((slicesOf o).filter fun n => (d.fs x v).sliceOn n && (d.fs x v).fg .RCS_STAT_STATE n == 3) =
      (slicesOf o).filter fun n => d.sliceOn n && d.fg .RCS_STAT_STATE n == 3 :=
    List.filter_congr fun n hn => by rw [sliceOn_fs_calStat d v hx (slicesOf_lt (by omega) hn), hstate n hn]
  have hcap : ((slicesOf o).all fun n => (d.fs x v).fg .RCS_CAP_SLOTS n == 0) = (slicesOf o).all fun n => d.fg .RCS_CAP_SLOTS n == 0 :=
    all_congr_mem fun n hn => by rw [hslice _ (by decide) n hn]
  unfold calCondition
  dsimp only
  rw [hoff, htrack, hcap, hsv]
  rfl

theorem calResources_fs_calStat {x : Fld} (v g : Nat) {o : Nat} (hx : x.reg = .CAL_STAT) (ho : o ≤ 3) :
    calResources (d.fs x v) g o = calResources d g o := by
  have hon : ((List.range 24).filter fun i => (d.fs x v).sliceOn (24 * o + i)) = (List.range 24).filter fun i => d.sliceOn (24 * o + i) :=
    List.filter_congr fun i hi => sliceOn_fs_calStat d v hx (by have := List.mem_range.mp hi; omega)
  unfold calResources
  rw [hon]

end

/-! A step that starts (R342, R345). -/

/-- A resource of a step as its step starts: its trims' values in the store. -/
def resourceStart (g o : Nat) (d : Dev) (i : Nat) : CalResource :=
  { idx := i, start := ((calTrims g o i).head?.map d.trim).getD 0, start2 := (((calTrims g o i).drop 1).head?.map d.trim).getD 0 }

/-- The step of a pair whose condition holds, once it is named as the current one. -/
def stepBegun (g o : Nat) (d : Dev) : Dev :=
  let e := d.onCal fun c => { c with resources := (calResources d g o).map (resourceStart g o d) }
  if g < 5 then e.fs .CAL_STAT_STATE 1 else (e.fs .CAL_STAT_STATE 2).fs .CAL_STAT_REQ 1

/-- The unit with a pair named as the current one in CAL_STAT. -/
def pairNamed (g o : Nat) (d : Dev) : Dev := (d.fs .CAL_STAT_CUR_OPU o).fs .CAL_STAT_CUR_GROUP g

section
variable {d : Dev} {g o : Nat}

theorem calCondition_pairNamed (ho : o ≤ 3) : calCondition (pairNamed g o d) g o = calCondition d g o := by
  rw [pairNamed, calCondition_fs_calStat _ _ _ rfl ho, calCondition_fs_calStat _ _ _ rfl ho]

theorem calResources_pairNamed (ho : o ≤ 3) : calResources (pairNamed g o d) g o = calResources d g o := by
  rw [pairNamed, calResources_fs_calStat _ _ _ rfl ho, calResources_fs_calStat _ _ _ rfl ho]

theorem calStepStart_begins {rest : List (Nat × Nat)} (hahead : d.cal.ahead = (g, o) :: rest) (hidle : d.fg .CAL_STAT_STATE = 0)
    (hmode : d.mode ≠ 7) (ho : o ≤ 3) (hcond : calCondition d g o = true) : calStepStart d = stepBegun g o (pairNamed g o d) := by
  have hnamed : calCondition (pairNamed g o d) g o = true := (calCondition_pairNamed ho).trans hcond
  unfold calStepStart
  rw [hahead]
  dsimp only
  rw [if_neg (by simp [hidle, hmode])]
  exact if_neg (by rw [← pairNamed, hnamed]; decide)

theorem calStepStart_defers {rest : List (Nat × Nat)} (hahead : d.cal.ahead = (g, o) :: rest) (hidle : d.fg .CAL_STAT_STATE = 0)
    (hmode : d.mode ≠ 7) (ho : o ≤ 3) (hcond : calCondition d g o = false) :
    calStepStart d = calEndStep .deferred (pairNamed g o d) := by
  have hnamed : calCondition (pairNamed g o d) g o = false := (calCondition_pairNamed ho).trans hcond
  unfold calStepStart
  rw [hahead]
  dsimp only
  rw [if_neg (by simp [hidle, hmode])]
  exact if_pos (by rw [← pairNamed, hnamed]; decide)

/-- What the start of a step leaves: the pair in CAL_STAT with its kind of step, and every resource of the pair to be measured. -/
structure StepStarted (g o : Nat) (d e : Dev) : Prop where
  state : e.fg .CAL_STAT_STATE = if g < 5 then 1 else 2
  opu : e.fg .CAL_STAT_CUR_OPU = o
  group : e.fg .CAL_STAT_CUR_GROUP = g
  ahead : e.cal.ahead = d.cal.ahead
  resources : e.cal.resources.map (·.idx) = calResources d g o
  open_ : ∀ x ∈ e.cal.resources, x.result = .none
  asked : 5 ≤ g → e.fg .CAL_STAT_REQ = 1
  change : CalChange [Reg.CAL_STAT.key 0 0] d e

theorem stepBegun_started (hg : g ≤ 6) (ho : o ≤ 3) : StepStarted g o d (stepBegun g o (pairNamed g o d)) := by
  have hopu : (pairNamed g o d).fg .CAL_STAT_CUR_OPU = o :=
    (fg_fs_single _ (x := .CAL_STAT_CUR_GROUP) _ (by decide)).trans (fg_fs_of_lt d 0 (by decide) (show o < 4 by omega))
  have hgroup : (pairNamed g o d).fg .CAL_STAT_CUR_GROUP = g := fg_fs_of_lt _ 0 (by decide) (show g < 8 by omega)
  have hres : ((calResources (pairNamed g o d) g o).map (resourceStart g o (pairNamed g o d))).map (·.idx) = calResources d g o := by
    rw [List.map_map, calResources_pairNamed ho]
    exact List.map_id _
  have hopen : ∀ x ∈ (calResources (pairNamed g o d) g o).map (resourceStart g o (pairNamed g o d)), x.result = .none := by
    intro x hx
    obtain ⟨i, -, rfl⟩ := List.mem_map.mp hx
    rfl
  have hchange : CalChange [Reg.CAL_STAT.key 0 0] d (pairNamed g o d) := (CalChange.refl _ d).fs.fs
  unfold stepBegun
  extract_lets e
  have hopu_e : e.fg .CAL_STAT_CUR_OPU = o := (onCal_fg _ _ _ _ _).trans hopu
  have hgroup_e : e.fg .CAL_STAT_CUR_GROUP = g := (onCal_fg _ _ _ _ _).trans hgroup
  have hchange_e : CalChange [Reg.CAL_STAT.key 0 0] d e := hchange.withCal
  have hkind : ∀ v < 2 ^ 2, (e.fs .CAL_STAT_STATE v).fg .CAL_STAT_STATE = v := fun v hv => fg_fs_of_lt e 0 (by decide) hv
  split
  · next hhw =>
    refine ⟨?_, ?_, ?_, rfl, hres, hopen, fun _ => by omega, hchange_e.fs⟩
    · rw [hkind 1 (by decide), if_pos hhw]
    · rw [fg_fs_single e 1 (by decide), hopu_e]
    · rw [fg_fs_single e 1 (by decide), hgroup_e]
  · next hfw =>
    refine ⟨?_, ?_, ?_, rfl, hres, hopen, fun _ => ?_, hchange_e.fs.fs⟩
    · rw [fg_fs_single _ (x := .CAL_STAT_REQ) 1 (by decide), hkind 2 (by decide), if_neg hfw]
    · rw [fg_fs_single _ (x := .CAL_STAT_REQ) 1 (by decide), fg_fs_single e 2 (by decide), hopu_e]
    · rw [fg_fs_single _ (x := .CAL_STAT_REQ) 1 (by decide), fg_fs_single e 2 (by decide), hgroup_e]
    · exact fg_fs_of_lt _ 0 (x := .CAL_STAT_REQ) (by decide) (by decide)

end

/-! A record that firmware submits. -/

/-- All that a submission changes: the journal, and perhaps RJ_STAT.FULL (R416, R417, R424). -/
theorem fwSubmit_journal (d : Dev) (event : Bool) (type flags : Nat) (payload : Bytes) : ∃ j,
    d.fwSubmit event type flags payload = d.onJournal (fun _ => j) ∨
      ∃ v, d.fwSubmit event type flags payload = (d.onJournal fun _ => j).fs .RJ_STAT_FULL v := by
  unfold Dev.fwSubmit
  dsimp only
  split
  · exact ⟨_, .inl rfl⟩
  · unfold Dev.submit
    split
    · obtain ⟨j, hj⟩ := acceptWaiting_journal 8 (d.onJournal _)
      rw [hj]
      exact ⟨j, .inr ⟨_, rfl⟩⟩
    · exact ⟨d.journal, .inl rfl⟩

section
variable (d : Dev) (event : Bool) (type flags : Nat) (payload : Bytes)

theorem fwSubmit_cal : (d.fwSubmit event type flags payload).cal = d.cal := by
  obtain ⟨j, h | ⟨v, h⟩⟩ := fwSubmit_journal d event type flags payload <;> rw [h] <;> rfl

theorem fwSubmit_fg {x : Fld} {i : Nat} (hx : Reg.RJ_STAT.key 0 0 ≠ x.reg.key i 0) :
    (d.fwSubmit event type flags payload).fg x i = d.fg x i := by
  obtain ⟨j, h | ⟨v, h⟩⟩ := fwSubmit_journal d event type flags payload
  · rw [h]
    rfl
  · rw [h]
    exact fg_fs_ne _ .RJ_STAT_FULL x v 0 0 i 0 hx

end

/-! A step that ends without a failure (R342, R344, R346). -/

/-- The unit with a pair's result in CAL_RES. -/
def resultPosted (g o : Nat) (r : CalResult) (d : Dev) : Dev :=
  d.fs .CAL_RES_RESULT (putBits (d.fg .CAL_RES_RESULT o) (3 * g) 3 r.code) o

/-- The unit once the pair of a bit has left the run, with other pairs ahead. -/
def pairLeft (k : Nat) (ahead : List (Nat × Nat)) (d : Dev) : Dev :=
  (((d.fs .CAL_STAT_STATE 0).fs .CAL_STAT_REQ 0).fs .CAL_RUN_PAIRS
    (d.fg .CAL_RUN_PAIRS - 2 ^ k * bit ((d.fg .CAL_RUN_PAIRS).testBit k))).onCal fun c => { c with ahead := ahead, resources := [] }

section
variable {d : Dev} {g o : Nat} {next : Nat × Nat} {rest : List (Nat × Nat)}

/-- A deferred pair is counted as such, and nothing is recorded of it. -/
theorem calEndStep_deferred (hahead : d.cal.ahead = (g, o) :: next :: rest) : ∃ c : Calib, calEndStep .deferred d =
    pairLeft (pairBit o g) (next :: rest) { (resultPosted g o .deferred d).bump .CAL_CNT_DEFER with cal := c } := by
  unfold calEndStep
  rw [hahead]
  exact ⟨_, rfl⟩

/-- A passed step is counted and recorded, and its pair has no consecutive failures any more. -/
theorem calEndStep_pass (hahead : d.cal.ahead = (g, o) :: next :: rest) : ∃ (c : Calib) (payload : Bytes),
    sparseGet 0 c.fails (pairBit o g) = 0 ∧ calEndStep .pass d = pairLeft (pairBit o g) (next :: rest)
      (({ (resultPosted g o .pass d).bump .CAL_CNT_STEP with cal := c } : Dev).fwSubmit false 0x06 0 payload) := by
  have hran : (CalResult.pass != .deferred) = true := rfl
  have hfailed : (CalResult.pass != .pass) = false := rfl
  unfold calEndStep
  rw [hahead]
  simp only [hran, hfailed, Bool.and_false, if_true, Dev.cond, Bool.false_eq_true, if_false, List.isEmpty_cons]
  refine ⟨_, _, ?_, rfl⟩
  show sparseGet 0 (sparseSet 0 _ (pairBit o g) 0) (pairBit o g) = 0
  exact sparseGet_set_self _ _ _ _

theorem resultCode_lt (r : CalResult) : r.code < 2 ^ 3 := by cases r <;> decide

/-- A pair's result just posted reads as that. -/
theorem result_resultPosted (r : CalResult) (d : Dev) (hg : g ≤ 6) :
    bitsOf ((resultPosted g o r d).fg .CAL_RES_RESULT o) (3 * g) 3 = r.code := by
  have hfit : putBits (d.fg .CAL_RES_RESULT o) (3 * g) 3 r.code < 2 ^ 21 := putBits_lt (bitsOf_lt _ _ _) (by omega)
  rw [resultPosted, fg_fs_of_lt d o (by decide) hfit, bitsOf_putBits, Nat.mod_eq_of_lt (resultCode_lt r)]

/-- CAL_RES of an OPU lies in its four dwords. -/
theorem calResKey_ne {q : Reg} (ho : o ≤ 3) (h : q.key 0 0 < 0x600020 ∨ 0x600030 ≤ q.key 0 0) : Reg.CAL_RES.key o 0 ≠ q.key 0 0 := by
  have hkey : Reg.CAL_RES.key o 0 = 0x600020 + o * 4 := rfl
  omega

theorem result_wr (d : Dev) (r : Reg) (v : DWord) (ho : o ≤ 3) (h : r.key 0 0 < 0x600020 ∨ 0x600030 ≤ r.key 0 0 := by decide) :
    (d.wr r v).fg .CAL_RES_RESULT o = d.fg .CAL_RES_RESULT o := fg_wr_ne d v (calResKey_ne ho h).symm

theorem rd_resultPosted (r : CalResult) (d : Dev) {q : Reg} (ho : o ≤ 3) (h : q.key 0 0 < 0x600020 ∨ 0x600030 ≤ q.key 0 0) :
    (resultPosted g o r d).rd q = d.rd q := rd_wr_ne d _ q _ o 0 0 0 (calResKey_ne ho h)

/-- What the end of a pair's step leaves: the pair gone from the run, with its result, and no step running. -/
structure StepEnded (g o : Nat) (r : CalResult) (ahead : List (Nat × Nat)) (e : Dev) : Prop where
  ahead : e.cal.ahead = ahead
  result : bitsOf (e.fg .CAL_RES_RESULT o) (3 * g) 3 = r.code
  state : e.fg .CAL_STAT_STATE = 0
  left : (e.fg .CAL_RUN_PAIRS).testBit (pairBit o g) = false

theorem pairLeft_ended {r : CalResult} {ahead : List (Nat × Nat)} (ho : o ≤ 3)
    (hresult : bitsOf (d.fg .CAL_RES_RESULT o) (3 * g) 3 = r.code) : StepEnded g o r ahead (pairLeft (pairBit o g) ahead d) := by
  unfold pairLeft
  rw [sub_bit_eq_putBits]
  refine ⟨rfl, ?_, ?_, ?_⟩
  · have hfs : ∀ (e : Dev) (x : Fld) (v : Nat), x.reg.key 0 0 < 0x600020 → (e.fs x v).fg .CAL_RES_RESULT o = e.fg .CAL_RES_RESULT o :=
      fun e x v h => result_wr e x.reg _ ho (.inl h)
    rw [onCal_fg, hfs _ .CAL_RUN_PAIRS _ (by decide), hfs _ .CAL_STAT_REQ _ (by decide), hfs _ .CAL_STAT_STATE _ (by decide), hresult]
  · rw [onCal_fg, fg_fs_single _ (x := .CAL_RUN_PAIRS) _ (by decide), fg_fs_single _ (x := .CAL_STAT_REQ) _ (by decide),
      fg_fs_of_lt _ _ (by decide) (by decide)]
  · rw [onCal_fg, fg_fs _ _ _ _ _ (by decide), Nat.testBit_mod_two_pow, testBit_putBits, if_pos (by omega), Nat.zero_testBit,
      Bool.and_false]

/-- A register other than CAL_STAT and CAL_RUN has no part in a pair's leaving the run. -/
theorem rd_pairLeft {k : Nat} {ahead : List (Nat × Nat)} {q : Reg} (hstat : Reg.CAL_STAT.key 0 0 ≠ q.key 0 0)
    (hrun : Reg.CAL_RUN.key 0 0 ≠ q.key 0 0) : (pairLeft k ahead d).rd q = d.rd q := by
  have hfs : ∀ (e : Dev) (x : Fld) (v : Nat), x.reg.key 0 0 ≠ q.key 0 0 → (e.fs x v).rd q = e.rd q := fun e x v h =>
    rd_wr_ne e x.reg q _ 0 0 0 0 h
  rw [pairLeft, onCal_rd, hfs _ .CAL_RUN_PAIRS _ hrun, hfs _ .CAL_STAT_REQ _ hstat, hfs _ .CAL_STAT_STATE _ hstat]

/-- What the deferral of a pair leaves: the pair passed over, and every register kept that is none of the run's and of the deferral's. -/
theorem calEndStep_deferred_ended (hahead : d.cal.ahead = (g, o) :: next :: rest) (hg : g ≤ 6) (ho : o ≤ 3) :
    StepEnded g o .deferred (next :: rest) (calEndStep .deferred d) ∧
      ∀ q : Reg, 0x600030 ≤ q.key 0 0 → Reg.CAL_CNT_DEFER.key 0 0 ≠ q.key 0 0 → (calEndStep .deferred d).rd q = d.rd q := by
  obtain ⟨c, hend⟩ := calEndStep_deferred hahead
  rw [hend]
  refine ⟨pairLeft_ended ho ?_, fun q habove hdefer => ?_⟩
  · show bitsOf (((resultPosted g o .deferred d).bump .CAL_CNT_DEFER).fg .CAL_RES_RESULT o) (3 * g) 3 = _
    rw [Dev.bump, result_wr _ .CAL_CNT_DEFER _ ho, result_resultPosted .deferred d hg]
  · have hlow : Reg.CAL_STAT.key 0 0 = 0x600004 ∧ Reg.CAL_RUN.key 0 0 = 0x600010 := ⟨rfl, rfl⟩
    rw [rd_pairLeft (by omega) (by omega)]
    exact (rd_wr_ne _ .CAL_CNT_DEFER q _ 0 0 0 0 hdefer).trans (rd_resultPosted .deferred d ho (.inr habove))

/-- What a passed step leaves, and that the pair's failures are forgotten. -/
theorem calEndStep_pass_ended (hahead : d.cal.ahead = (g, o) :: next :: rest) (hg : g ≤ 6) (ho : o ≤ 3) :
    StepEnded g o .pass (next :: rest) (calEndStep .pass d) ∧ sparseGet 0 (calEndStep .pass d).cal.fails (pairBit o g) = 0 ∧
      (calEndStep .pass d).mode = d.mode := by
  obtain ⟨c, payload, hfails, hend⟩ := calEndStep_pass hahead
  rw [hend]
  refine ⟨pairLeft_ended ho ?_, ?_, ?_⟩
  · have hres : Reg.RJ_STAT.key 0 0 ≠ Reg.CAL_RES.key o 0 := (calResKey_ne ho (by decide)).symm
    rw [fwSubmit_fg _ _ _ _ _ (x := .CAL_RES_RESULT) hres]
    show bitsOf (((resultPosted g o .pass d).bump .CAL_CNT_STEP).fg .CAL_RES_RESULT o) (3 * g) 3 = _
    rw [Dev.bump, result_wr _ .CAL_CNT_STEP _ ho, result_resultPosted .pass d hg]
  · unfold pairLeft
    rw [onCal_cal, fs_cal, fs_cal, fs_cal, fwSubmit_cal]
    exact hfails
  · have hmode : ∀ {e u : Dev}, e.rd .PMU_STAT = u.rd .PMU_STAT → e.mode = u.mode := fun h =>
      congrArg (fun w : DWord => bitsOf w.toNat 0 3) h
    have hposted : ((resultPosted g o .pass d).bump .CAL_CNT_STEP).rd .PMU_STAT = d.rd .PMU_STAT :=
      (rd_wr_ne _ .CAL_CNT_STEP .PMU_STAT _ 0 0 0 0 (by decide)).trans (rd_resultPosted .pass d ho (by decide))
    rw [hmode (rd_pairLeft (q := .PMU_STAT) (by decide) (by decide)), Dev.mode, fwSubmit_fg _ _ _ _ _ (x := .PMU_STAT_MODE) (by decide)]
    exact hmode (e := { (resultPosted g o .pass d).bump .CAL_CNT_STEP with cal := c }) hposted

end

end Sys2Proof.Proofs
end

section
/-!
SUPPORT. Measurements, results and the end of a calibration run, as the sequencer's commands and firmware make them (10_calibration.md R344,
R345, R347, R350, R352).
-/

namespace Sys2Proof.Proofs

open Sys2Proof Sys2Proof.Machine Sys2Proof.Laws

section
variable {d : Dev}

/-! A measurement of an actuator output (R344). -/

/-- A resource that still holds its start value has moved by nothing, so that no limit of R344 fails it. -/
theorem calConclude_unmoved {o : Nat} {x : CalResource} (hstart : x.start = d.trim (.act (8 * o + x.idx))) :
    calConclude 0 o x d = d.setRes { x with result := .pass, count := x.count + 1 } := by
  have hmoved : d.trim (.act (8 * o + x.idx)) - x.start = 0 := by omega
  refine if_neg ?_
  simp [CalResource.starts, calTrims, hmoved]

theorem calMeasurementDone_passes {o : Nat} {rest : List (Nat × Nat)} {x : CalResource} {a b c : Int}
    (hahead : d.cal.ahead = (0, o) :: rest) (hst : d.fg .CAL_STAT_STATE = 1) (hmode : d.mode ≠ 7) (hres : d.cal.resources = [x])
    (hopen : x.result = .none) (hstart : x.start = d.trim (.act (8 * o + x.idx))) (ha : a.natAbs ≤ 2) :
    calMeasurementDone [(x.idx, a, b, c, false)] d =
      { d with cal := { d.cal with resources := [{ x with result := .pass, count := x.count + 1 }] } } := by
  have hfind : (d.cal.resources.find? fun y => y.idx == x.idx && y.result == .none) = some x := by simp [hres, hopen]
  have hmeasure : calMeasure 0 o x a b c false d = calConclude 0 o x d := by simp [calMeasure, ha]
  unfold calMeasurementDone
  rw [hahead]
  dsimp only
  rw [if_neg (by simp [hst, hmode]), Dev.each, List.foldl_cons, List.foldl_nil, hfind]
  dsimp only
  rw [hmeasure, calConclude_unmoved hstart, Dev.setRes, Dev.onCal, hres]
  simp

/-! A step whose resources have all passed (R344). -/

theorem stepResult_pass {l : List CalResource} (h : ∀ x ∈ l, x.result = .pass) : stepResult l = .pass := by
  have hnone : (l.find? fun x => x.result != .pass) = none := List.find?_eq_none.mpr fun x hx => by simp [h x hx]
  rw [stepResult, hnone]

theorem calStepDone_passes (hst : d.fg .CAL_STAT_STATE ≠ 0) (hmode : d.mode ≠ 7) (hpass : ∀ x ∈ d.cal.resources, x.result = .pass) :
    calStepDone d = calEndStep .pass d := by
  have hall : (d.cal.resources.all fun x => x.result != .none) = true := List.all_eq_true.mpr fun x hx => by simp [hpass x hx]
  rw [← stepResult_pass hpass]
  exact if_pos (by simp [hst, hmode, hall])

/-! A delegated step (R345). -/

/-- The result of a step of the loop gains: that of FOC's where it fails, else that of TRK's. -/
def gainsResult (lf lt : Nat) : CalResult := if loopResult lf != .pass then loopResult lf else loopResult lt

theorem gainsResult_code (lf lt : Nat) :
    (gainsResult lf lt).code = if loopResult lf ≠ .pass then (loopResult lf).code else (loopResult lt).code := by
  simp only [gainsResult, bne_iff_ne]
  exact apply_ite _ _ _ _

theorem gainsResult_fails {lf lt : Nat} (h : loopResult lf ≠ .pass ∨ loopResult lt ≠ .pass) : gainsResult lf lt ≠ .pass := by
  unfold gainsResult
  split
  · next hfoc => exact bne_iff_ne.mp hfoc
  · next hfoc => exact h.resolve_left (by simpa using hfoc)

theorem delegatedCal_gains {o : Nat} {rest : List (Nat × Nat)} (lf lt : Nat) (hahead : d.cal.ahead = (5, o) :: rest)
    (hst : d.fg .CAL_STAT_STATE = 2) (hreq : d.is .CAL_STAT_REQ = true) (hext : d.cal.ext = none) (hmode : d.mode ≠ 7) :
    delegatedCal [lf, lt] d = (d.cond (gainsResult lf lt == .pass) fun d =>
      loadBank (4 + o) (gainBank (d.bankNow (4 + o)) lt) (loadBank o (gainBank (d.bankNow o) lf) d)).onCal fun c =>
        { c with ext := some (gainsResult lf lt).code } := by
  unfold delegatedCal
  rw [hahead]
  dsimp only
  rw [if_neg (by simp [hst, hreq, hext, hmode]), if_pos rfl]
  rfl

theorem calResultOf_ne_none (code : Fin 8) (h : code.val ≠ 0) : calResultOf code ≠ .none := by
  revert code
  decide

theorem calExtResult_running {code : Nat} (hst : d.fg .CAL_STAT_STATE = 2) (hmode : d.mode ≠ 7) (hcode : code ≠ 0) :
    calExtResult code d = d.onCal fun c => { c with ext := none, resources := c.resources.map fun x =>
      if x.result == .none then { x with result := calResultOf code } else x } := if_neg (by simp [hst, hmode, hcode])

/-! A run that ends (R347). -/

theorem calParked_moving (hmode : d.mode ≠ 2) : calParked d = d := by
  unfold calParked
  simp [hmode, Dev.cond]

theorem calNext_empty (hpend : d.fg .CAL_PEND_PAIRS = 0) : calNext d = d := if_neg (by simp [hpend])

theorem calAbort_waiting (hidle : d.calIdle = false) (hst : d.fg .CAL_STAT_STATE = 0) (hmode : d.mode ≠ 7)
    (hpend : d.fg .CAL_PEND_PAIRS = 0) :
    calAbort true d = { (d.fs .CAL_RUN_PAIRS 0).fs .CAL_STAT_DONE 1 with cal := { d.cal with ahead := [] } } := by
  have hkept : ((d.fs .CAL_RUN_PAIRS 0).fs .CAL_STAT_DONE 1).fg .CAL_PEND_PAIRS = 0 := by
    rw [fg_fs_single _ (x := .CAL_STAT_DONE) 1 (by decide), fg_fs_single d (x := .CAL_RUN_PAIRS) 0 (by decide), hpend]
  have hrunning : (d.fg .CAL_STAT_STATE != 0) = false := by simp [hst]
  unfold calAbort
  rw [if_neg (by simp [hidle, hmode])]
  simp only [hrunning, Bool.and_false, Bool.false_eq_true, if_false, if_true]
  exact calNext_empty (d := { (d.fs .CAL_RUN_PAIRS 0).fs .CAL_STAT_DONE 1 with cal := { d.cal with ahead := [] } }) hkept

/-! Failed steps that firmware handles (R350). -/

theorem attn_cal (d : Dev) (code : Nat) : (d.attn code).cal = d.cal := by
  unfold Dev.attn
  rw [fs_cal, fs_cal, fs_cal]

theorem attn_fg (d : Dev) (code : Nat) {x : Fld} (h : Reg.HP_UNIT_ATTN.key 0 0 ≠ x.reg.key 0 0) : (d.attn code).fg x = d.fg x := by
  unfold Dev.attn
  rw [fg_fs_ne _ .HP_UNIT_ATTN_ASEQ x _ 0 0 0 0 h, fg_fs_ne _ .HP_UNIT_ATTN_ATTN x _ 0 0 0 0 h,
    fg_fs_ne _ .HP_UNIT_ATTN_PEND x _ 0 0 0 0 h]

theorem calFailHandle_failed (hfail : d.is .CAL_STAT_FAIL = true) : (calFailHandle d).is .CAL_STAT_FAIL = false ∧
    (calFailHandle d).cal = { d.cal with failed := [] } := by
  have hstart : ((d.fs .CAL_STAT_FAIL 0).attn 7).fg .CAL_STAT_FAIL = 0 ∧ ((d.fs .CAL_STAT_FAIL 0).attn 7).cal = d.cal := by
    rw [attn_fg _ _ (by decide), attn_cal, fs_cal]
    exact ⟨fg_fs_of_lt d 0 (by decide) (by decide), rfl⟩
  have hevent : ∀ (e : Dev) (x : EventInfo), e.fg .CAL_STAT_FAIL = 0 ∧ e.cal = d.cal →
      (e.event x).fg .CAL_STAT_FAIL = 0 ∧ (e.event x).cal = d.cal := fun e x ⟨hflag, hcal⟩ =>
    ⟨(fwSubmit_fg e _ _ _ _ (by decide)).trans hflag, (fwSubmit_cal e _ _ _ _).trans hcal⟩
  unfold calFailHandle
  rw [if_neg (by simp [hfail])]
  extract_lets e u
  obtain ⟨hflag, hcal⟩ : u.fg .CAL_STAT_FAIL = 0 ∧ u.cal = d.cal :=
    each_inv hstart fun v x _ hv => cond_inv (hevent v _ hv) fun w hw => hevent w _ hw
  exact ⟨by rw [onCal_is, Dev.is, hflag]; rfl, by rw [onCal_cal, hcal]⟩

/-! A pair that has been due for 60 s in RECORD (R352). -/

/-- The end of a recording run off Class E: its sheets recorded, and nothing latched (R181). -/
theorem closingRevolution_ends {opu : Nat} (hrun : (d.opuFw opu).running = true) (hclass : d.classE = false) : ∃ e : Dev,
    closingRevolution opu d = e.onOpuFw opu (fun f => { f with running := false, latched := none }) ∧ e.shadow = d.shadow := by
  unfold closingRevolution
  dsimp only
  rw [if_neg (by simp [hrun])]
  refine ⟨_, if_pos ?_, rfl⟩
  show (!d.classE || _) = true
  rw [hclass]
  rfl

theorem mem_runOrder_pair {g o : Nat} (hg : g < 7) (ho : o < 4) : (g, o) ∈ runOrder (2 ^ pairBit o g) :=
  mem_runOrder.mpr ⟨hg, ho, Nat.testBit_two_pow_self⟩

/-- A pair that falls due so is triggered once its OPU's run has ended. -/
theorem calDueTimeout_ends {group : Fin 7} {opu : Fin 4} (hmode : d.mode = 5) (hclass : d.classE = false)
    (hpresent : d.opuPresent opu = true) (hdue : sparseGet 0 d.cal.dueAt (pairBit opu group) ≠ 0)
    (hlate : sparseGet 0 d.cal.dueAt (pairBit opu group) + 60 * second ≤ d.qtime + 1) (hrun : (d.opuFw opu).running = true) :
    ((calDueTimeout group opu d).opuFw opu).running = false ∧
      (((calDueTimeout group opu d).fg .CAL_RUN_PAIRS).testBit (pairBit opu group) = true ∨
        ((calDueTimeout group opu d).fg .CAL_PEND_PAIRS).testBit (pairBit opu group) = true) := by
  obtain ⟨e, hends, hshadow⟩ := closingRevolution_ends hrun hclass
  have hguard : calDueTimeout group opu d = calTrigger (2 ^ pairBit opu group) (closingRevolution opu d) :=
    if_neg (by simp [hmode, hdue]; omega)
  rw [hguard, hends]
  generalize hu : e.onOpuFw opu (fun f => { f with running := false, latched := none }) = u
  have hfused : (fusedPairs u (2 ^ pairBit opu group)).testBit (pairBit opu group) = true := by
    have hthere : u.opuPresent opu = true := by
      rw [← hu, Dev.opuPresent, onOpuFw_shadow, hshadow]
      exact hpresent
    exact (mem_runOrder.mp (mem_runOrder_fusedPairs.mpr ⟨mem_runOrder_pair group.isLt opu.isLt, hthere⟩)).2.2
  obtain ⟨c, -, htrigger⟩ := calTrigger_eq (d := u) (set := 2 ^ pairBit opu group) fun h0 => by simp [h0] at hfused
  rw [htrigger]
  refine ⟨?_, triggered_waits (fusedPairs_lt _ _) hfused⟩
  have hkept := triggered_kept (d := { u with cal := c }) (fun e => e.opuFw opu) (fun _ _ _ => rfl) (fun _ _ => rfl)
    (fusedPairs u (2 ^ pairBit opu group))
  rw [hkept]
  show (u.opuFw opu).running = false
  rw [← hu, opuFw_onOpuFw_self]

end

end Sys2Proof.Proofs
end

section
/-!
SUPPORT. The calibration sequencer over what stops an OPU's loops, lanes and slices and what switches its island off (01_architecture.md
R27; 05_recording.md R191; 07_optical_servo.md R273; 10_calibration.md R347, R629).
-/

namespace Sys2Proof.Proofs

open Sys2Proof Sys2Proof.Machine Sys2Proof.Laws

/-- A register of the sequencer's window. -/
abbrev CalReg (r : Reg) (i : Nat) : Prop := r.blk.code = 6 ∧ r.off + i * r.s1 < 0x100000

/-- A register of another window, its whole array within its window of 1 MiB. -/
abbrev OutsideCal (r : Reg) : Prop := r.blk.code ≠ 6 ∧ 0 < r.n2 ∧ r.off + (r.n1 - 1) * r.s1 + (r.n2 - 1) * r.s2 < 0x100000

theorem key_ne_calKey {r q : Reg} {i j k : Nat} (hr : OutsideCal r) (hi : i < r.n1) (hj : j < r.n2) (hq : CalReg q k) :
    r.key i j ≠ q.key k 0 := by
  obtain ⟨hblk, -, hfit⟩ := hr
  obtain ⟨hcode, hoff⟩ := hq
  have hrow : i * r.s1 ≤ (r.n1 - 1) * r.s1 := Nat.mul_le_mul_right _ (by omega)
  have hcol : j * r.s2 ≤ (r.n2 - 1) * r.s2 := Nat.mul_le_mul_right _ (by omega)
  exact key_ne_of_block _ _ _ _ _ _ (by omega) (by omega) (by omega)

/-- The sequencer, its registers and the thermistor codes are in `e` what they are in `d`. -/
structure CalKept (d e : Dev) : Prop where
  cal : e.cal = d.cal
  therm : e.eng.therm = d.eng.therm
  regs : ∀ (q : Reg) (k : Nat), CalReg q k → e.rd q k = d.rd q k

section
variable {d e : Dev}

theorem CalKept.refl (d : Dev) : CalKept d d := ⟨rfl, rfl, fun _ _ _ => rfl⟩

theorem CalKept.fg (h : CalKept d e) (x : Fld) (hx : CalReg x.reg 0 := by decide) : e.fg x = d.fg x := by
  rw [Dev.fg, Dev.fg, h.regs _ _ hx]

/-- An update of anything else than registers, the sequencer and the thermistor codes. -/
theorem CalKept.beside {u : Dev} (h : CalKept d e) (hregs : u.regs = e.regs := by rfl) (hcal : u.cal = e.cal := by rfl)
    (htherm : u.eng.therm = e.eng.therm := by rfl) : CalKept d u := by
  obtain ⟨hc, ht, hr⟩ := h
  exact ⟨hcal.trans hc, htherm.trans ht, fun q k hq => by rw [← hr q k hq, Dev.rd, Dev.rd, hregs]⟩

theorem CalKept.wr {r : Reg} {v : DWord} {i j : Nat} (h : CalKept d e) (hr : OutsideCal r) (hi : i < r.n1) (hj : j < r.n2) :
    CalKept d (e.wr r v i j) :=
  ⟨h.cal, h.therm, fun q k hq => (rd_wr_ne _ _ _ _ _ _ _ _ (key_ne_calKey hr hi hj hq)).trans (h.regs q k hq)⟩

theorem CalKept.fs (h : CalKept d e) (x : Fld) (v : Nat) {i : Nat} (hi : i < x.reg.n1 := by decide)
    (hx : OutsideCal x.reg := by decide) : CalKept d (e.fs x v i) := h.wr hx hi hx.2.1

theorem CalKept.bump (h : CalKept d e) (r : Reg) {i : Nat} (hi : i < r.n1) (hr : OutsideCal r := by decide) : CalKept d (e.bump r i) :=
  h.wr hr hi hr.2.1

theorem CalKept.onServo (h : CalKept d e) (n : Nat) (f : Servo → Servo) : CalKept d (e.onServo n f) := h.beside
theorem CalKept.onWsg (h : CalKept d e) (n : Nat) (f : Wsg → Wsg) : CalKept d (e.onWsg n f) := h.beside
theorem CalKept.withPickups (h : CalKept d e) {p : Sparse Pickup} : CalKept d { e with pickups := p } := h.beside
theorem CalKept.withStages (h : CalKept d e) {o : Sparse OpuStage} {l : List StalledAccess} :
    CalKept d { e with opuStage := o, stalled := l } := h.beside

/-! Lanes and loop slots that stop. -/

theorem CalKept.laneClose (h : CalKept d e) {opu : Nat} (ho : opu < 4) (w : Nat) : CalKept d (laneClose opu w e) := by
  have hlane : CalKept d (onLane opu w (fun l => { l with
      frame := none, closed := true, stop := if l.closed || l.paused then l.stop else l.reached }) e) := h.beside
  unfold Machine.laneClose laneOpenSet
  exact (hlane.fs .WSG_OSTAT_LANE_OPEN _ ho).fs .WSG_OSTAT_GATE _ ho

theorem CalKept.frameAbandon (h : CalKept d e) {opu : Nat} (ho : opu < 4) (w p : Nat) (gate : Bool) (sent : Bytes) :
    CalKept d (frameAbandon opu w p gate sent e) := by
  have hcounted := (h.bump .WSG_CNT_INT ho).fs .WSG_OSTAT_INTERRUPT 1 ho
  have hgate := cond_inv (b := gate) hcounted fun _ hu => hu.bump .WSG_CNT_GATE ho
  unfold Machine.frameAbandon
  exact CalKept.laneClose hgate.beside ho w

theorem CalKept.lanesStop (h : CalKept d e) {opu : Nat} (ho : opu < 4) (gate : Bool) : CalKept d (lanesStop gate opu e) := by
  refine each_inv h fun u w _ hu => ?_
  unfold laneStop
  split
  · exact hu
  · split
    · exact hu.frameAbandon ho _ _ _ _
    · exact hu.laneClose ho _

theorem CalKept.bankSwap (h : CalKept d e) {n : Nat} (hn : n < 80) : CalKept d (bankSwap n e) := by
  have hwritten := ((h.fs .SLOT_CTL_ACTIVE (1 - e.fg .SLOT_CTL_ACTIVE n) hn).fs .SLOT_CTL_PENDING 0 hn)
  unfold Machine.bankSwap
  exact (hwritten.fs .SLOT_CTL_BANK_GEN _ hn).beside

theorem CalKept.slotStop (h : CalKept d e) {n : Nat} (hn : n < 80) : CalKept d (slotStop n e) := by
  rw [slotStop_eq]
  exact bankSettle_inv (P := CalKept d) (fun _ hu => hu.bankSwap hn) (fun _ hu => hu.fs .SLOT_CTL_PENDING 1 hn)
    (fun _ _ _ hu => hu.beside) (fun _ _ hu => hu.beside) ((h.fs .SLOT_CFG_EN 0 hn).fs .SLOT_CTL_STARTED 0 hn).beside

/-! An OPU's loops, slices and sled. -/

theorem CalKept.svSet (h : CalKept d e) {opu : Nat} (ho : opu < 4) (x : SvFld) (v : Nat) (hx : x.word < 16 := by decide) :
    CalKept d (e.svSet opu x v) := h.wr (by decide) (show 16 * opu + x.word < 128 by omega) (by decide)

theorem CalKept.setSv (h : CalKept d e) {opu : Nat} (ho : opu < 4) (st : Nat) : CalKept d (e.setSv opu st) :=
  cond_inv (h.svSet ho svState st) fun _ hu => hu.beside

theorem CalKept.servoOpen (h : CalKept d e) {opu : Nat} (ho : opu < 4) : CalKept d (servoOpen opu e) := by
  have hstopped := each_inv (l := servoSlots opu ++ apcSlots opu) (f := fun u n => Machine.slotStop n u) h fun _ n hn hu =>
    hu.slotStop (opuSlots_lt ho hn)
  have houts := each_inv (f := fun u o => u.setOut (64 * opu + o) 0) (l := [8, 9, 10, 11]) hstopped fun _ _ _ hu => hu.beside
  unfold Machine.servoOpen
  exact ((houts.setSv ho svOpen).svSet ho svInhSrc _).onServo _ _

theorem CalKept.slicesOff (h : CalKept d e) {opu : Nat} (ho : opu < 4) : CalKept d (slicesOff opu e) := by
  refine each_inv h fun u n hn hu => cond_inv hu fun v hv => ?_
  have hoff := hv.fs .RCS_CTL_EN 0 (slicesOf_lt ho hn)
  unfold sliceDisabled
  dsimp only
  split
  · exact hoff.beside
  · exact cond_inv hoff fun _ hw => hw.fs .RCS_STAT_STATE _ (slicesOf_lt ho hn)

theorem CalKept.sldHold (h : CalKept d e) {opu : Nat} (ho : opu < 4) (frost : Bool) (pos : Int) : CalKept d (sldHold opu frost pos e) := by
  have hpos : CalKept d (e.cond (e.sldState opu == sldMoving) fun u => u.setPos opu pos) := cond_inv h fun _ hu => hu.fs .SLD_POS _ ho
  unfold Machine.sldHold
  refine CalKept.beside (cond_inv (cond_inv (cond_inv (cond_inv hpos ?_) ?_) ?_) fun _ hu => hu.fs .SLD_STAT_POS_UNSURE 1 ho)
  · exact fun _ hu => hu.fs .SLD_STAT_STATE _ ho
  · exact fun _ hu => hu.fs .SLD_STAT_HOMED 0 ho
  · exact fun _ hu => hu.fs .SLD_STAT_FROST_HOLD 1 ho

/-- Every register of the slices' window lies outside the sequencer's, and each OPU has at least one of each array. -/
theorem regsOfRcs_outsideCal : ∀ r ∈ regsOfRcs, OutsideCal r ∧ 4 ≤ r.n1 := by decide

theorem CalKept.sliceRegsReset (h : CalKept d e) {opu : Nat} (ho : opu < 4) : CalKept d (sliceRegsReset opu e) := by
  refine each_inv h fun u r hr hu => ?_
  obtain ⟨hout, hrows⟩ := regsOfRcs_outsideCal r hr
  split
  · next h96 =>
    exact each_inv hu fun _ n hn hv => each_inv hv fun _ j hj hw => hw.wr hout (h96 ▸ slicesOf_lt ho hn) (List.mem_range.mp hj)
  · exact hu.wr hout (by omega) hout.2.1

/-! An OPU's island off while no run is under way (R27, R347). -/

/-- A step on the OPU is aborted with its island, but an idle sequencer has none. -/
theorem calIslandOff_idle (hidle : e.calIdle = true) (opu : Nat) : calIslandOff opu e = e := by
  have habort : calAbort false e = e := if_pos (by simp [hidle])
  unfold calIslandOff Dev.cond
  rw [habort, ite_self]

theorem CalKept.calIdle (h : CalKept d e) : e.calIdle = d.calIdle := by rw [Dev.calIdle, Dev.calIdle, h.fg .CAL_RUN_PAIRS]

/-- An island that goes off without a step of the sequencer aborted. -/
theorem CalKept.opuOff (h : CalKept d e) {opu : Nat} (ho : opu < 4) (frost : Bool)
    (hstep : ∀ {u}, u = Machine.servoOpen opu (Machine.lanesStop true opu e) → calIslandOff opu u = u) :
    CalKept d (opuOff opu frost e) := by
  have hopen := (h.lanesStop ho true).servoOpen ho
  unfold Machine.opuOff
  split
  · exact h
  · rw [hstep rfl]
    refine CalKept.fs (CalKept.withStages (CalKept.fs (CalKept.fs (CalKept.onWsg ?_ _ _) .WSG_OCTL_GATE_EN 0 ho) .WSG_OSTAT_STOP_SEEN 1 ho))
      .PMU_STAT_OPU_ON _
    refine CalKept.sliceRegsReset (CalKept.withPickups ?_) ho
    exact each_inv (hopen.sldHold ho _ _) fun _ _ _ hu => hu.beside

theorem CalKept.opuOff_idle (h : CalKept d e) (hidle : d.calIdle = true) {opu : Nat} (ho : opu < 4) (frost : Bool) :
    CalKept d (Machine.opuOff opu frost e) :=
  h.opuOff ho frost fun hu => calIslandOff_idle (hu ▸ ((h.lanesStop ho true).servoOpen ho).calIdle.trans hidle) opu

theorem CalKept.opuPowerDown (h : CalKept d e) (hidle : d.calIdle = true) {opu : Nat} (ho : opu < 4) :
    CalKept d (opuPowerDown opu e) := by
  unfold Machine.opuPowerDown
  split
  · exact h.opuOff_idle hidle ho false
  · exact h

/-- The OPU islands powered for calibration at boot go off only when no run is under way (R629). -/
theorem calParked_kept (d : Dev) : CalKept d (calParked d) := by
  unfold calParked
  unfold Dev.cond
  dsimp only
  split
  · next hoff =>
    simp only [Bool.and_eq_true] at hoff
    obtain ⟨⟨⟨⟨-, hidle⟩, -⟩, -⟩, -⟩ := hoff
    refine each_inv (CalKept.refl d) fun u o ho hu => ?_
    have hlt := opu_lt_four ho
    split
    · exact (hu.slicesOff hlt).opuPowerDown hidle hlt
    · exact hu
  · exact CalKept.refl d

end

/-! A step whose time is over (R343). -/

/-- What a step has ahead, its resources, and its state in CAL_STAT. -/
def stepSide (d : Dev) : List (Nat × Nat) × List CalResource × Nat := (d.cal.ahead, d.cal.resources, d.fg .CAL_STAT_STATE)

theorem parts_of_stepSide {d : Dev} {ahead : List (Nat × Nat)} {resources : List CalResource} {st : Nat}
    (h : stepSide d = (ahead, resources, st)) :
    d.cal.ahead = ahead ∧ d.cal.resources = resources ∧ d.fg .CAL_STAT_STATE = st :=
  ⟨congrArg (·.1) h, congrArg (·.2.1) h, congrArg (·.2.2) h⟩

/-- The store lies above the sequencer's own registers in its window (Table 10-7). -/
theorem storeReg_above (t : Trim) : t.fld.1.reg.blk = .cal ∧ 0x100 ≤ t.fld.1.reg.off := by
  cases t with
  | ft n | gain n | ofs n | spd n => exact ⟨rfl, Nat.le_of_ble_eq_true rfl⟩
  | bal n | act n =>
    unfold Trim.fld
    dsimp only
    split <;> exact ⟨rfl, Nat.le_of_ble_eq_true rfl⟩

section
variable (d : Dev)

theorem stepSide_fs (x : Fld) (v i j : Nat) (h : x.reg.key i j ≠ Reg.CAL_STAT.key 0 0) : stepSide (d.fs x v i j) = stepSide d := by
  unfold stepSide
  rw [fs_cal, fg_fs_ne _ x .CAL_STAT_STATE v i j 0 0 h]

theorem stepSide_liveSlice (n : Nat) : stepSide (liveSlice n d) = stepSide d := by
  have hkey : Reg.RCS_TRIM.key n 0 ≠ Reg.CAL_STAT.key 0 0 := by
    have hslice : Reg.RCS_TRIM.key n 0 = 0xc + n * 0x400 := by simp [Reg.key, Reg.RCS_TRIM, Block.code]
    have hstat : Reg.CAL_STAT.key 0 0 = 0x600004 := rfl
    omega
  unfold liveSlice
  rw [stepSide_fs _ .RCS_TRIM_GTRIM _ _ _ hkey, stepSide_fs _ .RCS_TRIM_OFS _ _ _ hkey]

/-- A trim written into the store, and perhaps the live trims, is no matter of the step. -/
theorem stepSide_setTrim (t : Trim) (v : Int) : stepSide (d.setTrim t v) = stepSide d := by
  have hkey : ∀ i j, t.fld.1.reg.key i j ≠ Reg.CAL_STAT.key 0 0 := fun i j => by
    obtain ⟨hblk, hoff⟩ := storeReg_above t
    have hstat : Reg.CAL_STAT.key 0 0 = 0x600004 := rfl
    have hcode : t.fld.1.reg.blk.code = 6 := by rw [hblk]; rfl
    rw [hstat, Reg.key, hcode]
    omega
  unfold Dev.setTrim
  refine (cond_eq stepSide fun u => ?_).trans (stepSide_fs d _ _ _ _ (hkey _ _))
  cases t with
  | ft n => rfl
  | gain n | ofs n => exact stepSide_liveSlice u n
  | spd n | bal n | act n => rfl

theorem stepSide_setRes (x : CalResource) : stepSide (d.setRes x) =
    (d.cal.ahead, d.cal.resources.map fun y => if y.idx = x.idx then x else y, d.fg .CAL_STAT_STATE) := rfl

theorem stepSide_calFail (g o : Nat) (x : CalResource) (r : CalResult) : stepSide (calFail g o x r d) =
    (d.cal.ahead, d.cal.resources.map fun y => if y.idx = x.idx then { x with result := r, count := x.count + 1 } else y,
      d.fg .CAL_STAT_STATE) := by
  have hrestored : stepSide (calRestoreRes g o x d) = stepSide d := by
    unfold calRestoreRes
    exact each_inv (P := fun e => stepSide e = stepSide d) rfl fun e p _ he => (stepSide_setTrim e p.1 p.2).trans he
  obtain ⟨hahead, hres, hst⟩ := parts_of_stepSide hrestored
  rw [calFail, stepSide_setRes, hahead, hres, hst]

/-- No resource of a step is left open, and the step stays the current one, once every open one has failed. -/
structure AllConcluded (d e : Dev) : Prop where
  concluded : ∀ x ∈ e.cal.resources, x.result ≠ .none
  ahead : e.cal.ahead = d.cal.ahead
  state : e.fg .CAL_STAT_STATE = d.fg .CAL_STAT_STATE

theorem calEndAll_concludes {p : Nat × Nat} {rest : List (Nat × Nat)} (hahead : d.cal.ahead = p :: rest) {r : CalResult}
    (hr : r ≠ .none) : AllConcluded d (calEndAll r d) := by
  have hfail : ∀ (e : Dev) (x : CalResource), (calFail p.1 p.2 x r e).cal.ahead = e.cal.ahead ∧
      (calFail p.1 p.2 x r e).fg .CAL_STAT_STATE = e.fg .CAL_STAT_STATE ∧ ∀ y ∈ (calFail p.1 p.2 x r e).cal.resources,
        y.result = r ∨ y ∈ e.cal.resources ∧ y.idx ≠ x.idx := fun e x => by
    obtain ⟨hahead, hres, hst⟩ := parts_of_stepSide (stepSide_calFail e p.1 p.2 x r)
    refine ⟨hahead, hst, fun y hy => ?_⟩
    rw [hres] at hy
    obtain ⟨z, hz, rfl⟩ := List.mem_map.mp hy
    split
    · exact .inl rfl
    · next hne => exact .inr ⟨hz, hne⟩
  have hdone := each_gives (f := fun e x => calFail p.1 p.2 x r e) (l := d.cal.resources.filter fun x => x.result == .none)
    (I := fun e => e.cal.ahead = d.cal.ahead ∧ e.fg .CAL_STAT_STATE = d.fg .CAL_STAT_STATE ∧
      ∀ y ∈ e.cal.resources, y.result = .none → y ∈ d.cal.resources)
    (Q := fun x e => ∀ y ∈ e.cal.resources, y.idx = x.idx → y.result ≠ .none) (d := d) ⟨rfl, rfl, fun _ hy _ => hy⟩ ?_ ?_ ?_
  · obtain ⟨⟨hkept, hst, hopen⟩, hall⟩ := hdone
    unfold calEndAll
    rw [hahead]
    refine ⟨fun y hy hnone => ?_, hkept, hst⟩
    exact hall y (List.mem_filter.mpr ⟨hopen y hy hnone, by simp [hnone]⟩) y hy rfl hnone
  · rintro e x - ⟨hkept, hst, hopen⟩
    obtain ⟨hfailAhead, hfailSt, hres⟩ := hfail e x
    refine ⟨hfailAhead.trans hkept, hfailSt.trans hst, fun y hy hnone => ?_⟩
    obtain hend | ⟨hmem, -⟩ := hres y hy
    · exact absurd (hend.symm.trans hnone) hr
    · exact hopen y hmem hnone
  · rintro e x - - y hy hidx
    obtain ⟨-, -, hres⟩ := hfail e x
    obtain hend | ⟨-, hne⟩ := hres y hy
    · exact hend ▸ hr
    · exact absurd hidx hne
  · rintro e x - z - hz y hy hidx
    obtain ⟨-, -, hres⟩ := hfail e x
    obtain hend | ⟨hmem, -⟩ := hres y hy
    · exact hend ▸ hr
    · exact hz y hmem hidx

/-- The time of a step over concludes its resources, and the islands' power has no part in that. -/
theorem calStepTimeout_concludes {p : Nat × Nat} {rest : List (Nat × Nat)} (hahead : d.cal.ahead = p :: rest)
    (hst : d.fg .CAL_STAT_STATE ≠ 0) (hmode : d.mode ≠ 7) : AllConcluded d (calParked (calStepTimeout d)) := by
  have htimeout : calStepTimeout d = calEndAll .timeout d := if_neg (by simp [hst, hmode])
  obtain ⟨hres, hkept, hstate⟩ := calEndAll_concludes d hahead (r := .timeout) (by decide)
  have hparked := calParked_kept (calEndAll .timeout d)
  rw [htimeout]
  refine ⟨?_, ?_, ?_⟩
  · rw [hparked.cal]
    exact hres
  · rw [hparked.cal, hkept]
  · rw [hparked.fg .CAL_STAT_STATE, hstate]

end

end Sys2Proof.Proofs
end

section
/-!
SUPPORT. The calibration sequencer's runs (10_calibration.md R340 to R352): the obligation.
-/

namespace Sys2Proof.Proofs

open Sys2Proof Sys2Proof.Machine Sys2Proof.Laws

section
variable {d : Dev} {g o : Nat} {next : Nat × Nat} {rest : List (Nat × Nat)}

/-- A set triggered at an idle enabled sequencer runs at once, without the pairs that are fused off (R6, R346). -/
theorem calTrigger_runs {set : Nat} (hidle : d.calIdle = true) (hen : d.is .CAL_CTL_EN = true) (hfrost : d.frost = false)
    (hpend : d.fg .CAL_PEND_PAIRS = 0) (hs : fusedPairs d set ≠ 0) :
    ∃ c : Calib, calTrigger set d = calRun (fusedPairs d set) { d with cal := c } := by
  obtain ⟨c, -, htrigger⟩ := calTrigger_eq hs
  exact ⟨c, htrigger.trans (triggered_idle (d := { d with cal := c }) hidle hen hpend hfrost)⟩

/-- Outside PARKED the OPU islands keep their power at the end of a command of the sequencer (R629). -/
theorem calParked_of_eq {f : Dev → Dev} {u : Dev} (h : f d = u) (hmode : u.mode ≠ 2) : calParked (f d) = u := by
  rw [h, calParked_moving hmode]

theorem mode_of_rd {e : Dev} (h : e.rd .PMU_STAT = d.rd .PMU_STAT) : e.mode = d.mode :=
  congrArg (fun w : DWord => bitsOf w.toNat 0 3) h

theorem mode_pairNamed : (pairNamed g o d).mode = d.mode := (mode_fs_calStat _ g rfl).trans (mode_fs_calStat d o rfl)

theorem mode_stepBegun : (stepBegun g o d).mode = d.mode := by
  unfold stepBegun
  extract_lets e
  split
  · exact mode_fs_calStat e 1 rfl
  · exact (mode_fs_calStat _ 1 rfl).trans (mode_fs_calStat e 2 rfl)

theorem calParked_step_begins (hahead : d.cal.ahead = (g, o) :: rest) (ho : o ≤ 3) (hst : d.fg .CAL_STAT_STATE = 0)
    (hfrozen : d.mode ≠ 7) (hparked : d.mode ≠ 2) (hcond : calCondition d g o = true) :
    calParked (calStepStart d) = stepBegun g o (pairNamed g o d) :=
  calParked_of_eq (calStepStart_begins hahead hst hfrozen ho hcond) (by rwa [mode_stepBegun, mode_pairNamed])

theorem calParked_step_defers (hahead : d.cal.ahead = (g, o) :: next :: rest) (hg : g ≤ 6) (ho : o ≤ 3) (hst : d.fg .CAL_STAT_STATE = 0)
    (hfrozen : d.mode ≠ 7) (hparked : d.mode ≠ 2) (hcond : calCondition d g o = false) :
    calParked (calStepStart d) = calEndStep .deferred (pairNamed g o d) := by
  obtain ⟨-, hkept⟩ := calEndStep_deferred_ended (d := pairNamed g o d) hahead hg ho
  have hmode : (calEndStep .deferred (pairNamed g o d)).mode = d.mode :=
    (mode_of_rd (hkept .PMU_STAT (by decide) (by decide))).trans mode_pairNamed
  exact calParked_of_eq (calStepStart_defers hahead hst hfrozen ho hcond) (hmode ▸ hparked)

/-- A deferral counts no failure. -/
theorem failCount_deferred (hahead : d.cal.ahead = (g, o) :: next :: rest) (hg : g ≤ 6) (ho : o ≤ 3) :
    (calEndStep .deferred (pairNamed g o d)).rd .CAL_CNT_FAIL = d.rd .CAL_CNT_FAIL := by
  obtain ⟨-, hkept⟩ := calEndStep_deferred_ended (d := pairNamed g o d) hahead hg ho
  rw [hkept .CAL_CNT_FAIL (by decide) (by decide)]
  exact (rd_wr_ne _ .CAL_STAT .CAL_CNT_FAIL _ 0 0 0 0 (by decide)).trans (rd_wr_ne _ .CAL_STAT .CAL_CNT_FAIL _ 0 0 0 0 (by decide))

theorem calParked_step_done (hahead : d.cal.ahead = (g, o) :: next :: rest) (hg : g ≤ 6) (ho : o ≤ 3) (hst : d.fg .CAL_STAT_STATE ≠ 0)
    (hfrozen : d.mode ≠ 7) (hparked : d.mode ≠ 2) (hpass : ∀ x ∈ d.cal.resources, x.result = .pass) :
    calParked (calStepDone d) = calEndStep .pass d := by
  obtain ⟨-, -, hmode⟩ := calEndStep_pass_ended hahead hg ho
  exact calParked_of_eq (calStepDone_passes hst hfrozen hpass) (hmode ▸ hparked)

/-- The two gains are loaded only where both pass; the sequencer is given one result (R345). -/
theorem delegatedCal_gives {lf lt : Nat} (hahead : d.cal.ahead = (5, o) :: rest) (hst : d.fg .CAL_STAT_STATE = 2)
    (hreq : d.is .CAL_STAT_REQ = true) (hext : d.cal.ext = none) (hfrozen : d.mode ≠ 7) :
    (delegatedCal [lf, lt] d).cal.ext = some (if loopResult lf ≠ .pass then (loopResult lf).code else (loopResult lt).code) ∧
      (loopResult lf ≠ .pass ∨ loopResult lt ≠ .pass → delegatedCal [lf, lt] d =
        { d with cal := { d.cal with ext := (delegatedCal [lf, lt] d).cal.ext } }) := by
  rw [delegatedCal_gains lf lt hahead hst hreq hext hfrozen]
  refine ⟨?_, fun hfail => ?_⟩
  · rw [onCal_cal, gainsResult_code]
  · have hno : (gainsResult lf lt == .pass) = false := by simpa using gainsResult_fails hfail
    rw [hno]
    rfl

/-- The result given concludes every resource that waits for one. -/
theorem calExtResult_gives {code : Fin 8} (hst : d.fg .CAL_STAT_STATE = 2) (hfrozen : d.mode ≠ 7) (hcode : code.val ≠ 0) :
    (calExtResult code d).cal.ext = none ∧ (∀ x ∈ (calExtResult code d).cal.resources, x.result ≠ .none) ∧
      (calExtResult code d).cal.resources.length = d.cal.resources.length ∧
      calExtResult code d = { d with cal := { d.cal with ext := none, resources := (calExtResult code d).cal.resources } } := by
  rw [calExtResult_running hst hfrozen hcode]
  refine ⟨rfl, fun x hx => ?_, List.length_map _, rfl⟩
  obtain ⟨y, -, rfl⟩ := List.mem_map.mp hx
  split
  · exact calResultOf_ne_none code hcode
  · next hne => simpa using hne

/-- What the abort of a run that waits leaves. -/
def runAborted (d : Dev) : Dev := { (d.fs .CAL_RUN_PAIRS 0).fs .CAL_STAT_DONE 1 with cal := { d.cal with ahead := [] } }

theorem calParked_abort (hidle : d.calIdle = false) (hst : d.fg .CAL_STAT_STATE = 0) (hfrozen : d.mode ≠ 7) (hparked : d.mode ≠ 2)
    (hpend : d.fg .CAL_PEND_PAIRS = 0) : calParked (calAbort true d) = runAborted d := by
  have hmode : ((d.fs .CAL_RUN_PAIRS 0).fs .CAL_STAT_DONE 1).mode = d.mode :=
    (mode_fs_calStat _ 1 rfl).trans (fg_fs_single d (x := .CAL_RUN_PAIRS) 0 (by decide))
  exact calParked_of_eq (calAbort_waiting hidle hst hfrozen hpend) (hmode ▸ hparked)

theorem calIdle_runAborted : (runAborted d).calIdle = true := by
  have hrun : ((d.fs .CAL_RUN_PAIRS 0).fs .CAL_STAT_DONE 1).fg .CAL_RUN_PAIRS = 0 := by
    rw [fg_fs_single _ (x := .CAL_STAT_DONE) 1 (by decide), fg_fs_of_lt d 0 (by decide) (by decide)]
  exact beq_iff_eq.mpr hrun

theorem done_runAborted : (runAborted d).fg .CAL_STAT_DONE = 1 :=
  fg_fs_of_lt (d.fs .CAL_RUN_PAIRS 0) 0 (x := .CAL_STAT_DONE) (by decide) (by decide)

theorem changes_runAborted :
    Changes [Reg.CAL_RUN.key 0 0, Reg.CAL_STAT.key 0 0] d (runAborted d) { d with cal := { d.cal with ahead := [] } } :=
  (CalChange.refl _ d).fs.fs.withCal.changes

end

/-- Settles O23: each clause by what its command does to the step, to the run or to firmware's part of it. A step, a run's end and a
timeout may also power the OPU islands down, but only in PARKED with no run under way, and that leaves the sequencer as it is. -/
theorem calibrationRuns : Obligations.CalibrationRuns := by
  unfold Obligations.CalibrationRuns
  refine ⟨fun set s ⟨hidle, hen, hfrost⟩ ⟨hpend, hs⟩ => ?_, fun g o rest s hahead ⟨hg, ho⟩ ⟨hst, hfrozen, hparked⟩ hcond => ?_,
    fun g o next rest s hahead ⟨hg, ho⟩ ⟨hst, hfrozen, hparked⟩ hcond => ?_,
    fun o rest x a b c s hahead ⟨hst, hfrozen⟩ ⟨hres, hopen, hstart⟩ ha => ?_,
    fun g o next rest s hahead ⟨hg, ho⟩ ⟨hst, hfrozen, hparked⟩ hpass => ?_, fun p rest s hahead ⟨hst, hfrozen, _⟩ => ?_,
    fun o rest lf lt s hahead ⟨hst, hreq, hext, hfrozen⟩ => ?_, fun code s ⟨hst, hfrozen⟩ hcode => ?_,
    fun s ⟨hidle, hst, hfrozen, hparked⟩ hpend => ?_, fun s hfail => ?_,
    fun group opu s ⟨hmode, hclass, hpresent⟩ ⟨hdue, hlate⟩ hrun => ?_⟩
  · obtain ⟨c, hruns⟩ := calTrigger_runs hidle hen hfrost hpend hs
    refine gives_of_eq (f := calTrigger set) rfl hruns ⟨runPairs_calRun (fusedPairs_lt _ _), rfl, rfl, fun p hp => ?_, ?_⟩
    · obtain ⟨hset, hpresent⟩ := mem_runOrder_fusedPairs.mp hp
      exact ⟨hpresent, (mem_runOrder.mp hset).2.2⟩
    · exact ((CalChange.refl _ s.dev).withCal (c := c)).fs.withCal.changes
  · have hstarted : StepStarted g o s.dev (stepBegun g o (pairNamed g o s.dev)) := stepBegun_started hg ho
    refine gives_of_eq (f := fun d => calParked (calStepStart d)) rfl
      (calParked_step_begins hahead ho hst hfrozen hparked hcond) ?_
    exact ⟨hstarted.state, hstarted.opu, hstarted.group, hstarted.ahead, hstarted.resources, hstarted.open_, hstarted.asked,
      hstarted.change.changes⟩
  · obtain ⟨hended, -⟩ := calEndStep_deferred_ended (d := pairNamed g o s.dev) hahead hg ho
    exact gives_of_eq (f := fun d => calParked (calStepStart d)) rfl
      (calParked_step_defers hahead hg ho hst hfrozen hparked hcond)
      ⟨hended.ahead, hended.result, hended.state, failCount_deferred hahead hg ho⟩
  · show State.onDev _ _ = _
    rw [onDev_next, calMeasurementDone_passes hahead hst hfrozen hres hopen hstart ha]
  · obtain ⟨hended, hfails, -⟩ := calEndStep_pass_ended hahead hg ho
    exact gives_of_eq (f := fun d => calParked (calStepDone d)) rfl
      (calParked_step_done hahead hg ho hst hfrozen hparked hpass)
      ⟨hended.ahead, hended.result, hended.state, hended.left, hfails⟩
  · have hall := calStepTimeout_concludes s.dev hahead hst hfrozen
    exact gives_of_eq (f := fun d => calParked (calStepTimeout d)) rfl (Eq.refl (calParked (calStepTimeout s.dev)))
      ⟨hall.concluded, hall.ahead, hall.state⟩
  · exact gives_of_eq (f := delegatedCal [lf, lt]) rfl (Eq.refl _) (delegatedCal_gives hahead hst hreq hext hfrozen)
  · exact gives_of_eq (f := calExtResult code) rfl (Eq.refl _) (calExtResult_gives hst hfrozen hcode)
  · exact gives_of_eq (f := fun d => calParked (calAbort true d)) rfl
      (calParked_abort hidle hst hfrozen hparked hpend) ⟨calIdle_runAborted, rfl, done_runAborted, changes_runAborted⟩
  · exact gives_of_eq (f := calFailHandle) rfl (Eq.refl _) (calFailHandle_failed hfail)
  · exact gives_of_eq (f := calDueTimeout group opu) rfl (Eq.refl _)
      (calDueTimeout_ends hmode hclass hpresent hdue hlate hrun)

end Sys2Proof.Proofs
end

section
/-!
SUPPORT. What every access to the buffer leaves as it is (11_buffer_dram.md R363 to R374, R382; 12_fabric_cache.md R395 to R401): a property
of the unit that no register, no memory and no queue of the buffer touches, and that the entry to FROZEN keeps, lasts.
-/

namespace Sys2Proof.Proofs

open Sys2Proof Sys2Proof.Machine Sys2Proof.Laws

/-- A property of the unit that neither what the buffer's blocks write nor the entry to FROZEN upsets. -/
structure BesideBuffer (P : Dev → Prop) : Prop where
  regs : ∀ {d : Dev} (r : Sparse DWord), P d → P { d with regs := r }
  words : ∀ {d : Dev} (w x c : Nat), P d → P (d.storeWord w x c)
  drc : ∀ {d : Dev} (c : Drc), P d → P { d with drc := c }
  fbc : ∀ {d : Dev} (c : Fbc), P d → P { d with fbc := c }
  error : ∀ {d : Dev} (b : Bool), P d → P { d with error := b }
  drew : ∀ {d : Dev}, P d → P d.drew
  frozen : ∀ {d : Dev} (n : Nat), P d → P (frozenEntry n d)

section
variable {P : Dev → Prop} (hP : BesideBuffer P) {d : Dev}
include hP

theorem BesideBuffer.fs {x : Fld} {v i j : Nat} (h : P d) : P (d.fs x v i j) := hP.regs _ h
theorem BesideBuffer.bump {r : Reg} {i m : Nat} (h : P d) : P (d.bump r i m) := hP.regs _ h
theorem BesideBuffer.setWay {s w : Nat} {l : CacheLine} (h : P d) : P (d.setWay s w l) := hP.fbc _ h

theorem BesideBuffer.onDrc {f : Drc → Drc} (h : P d) : P (d.onDrc f) := hP.drc _ h
theorem BesideBuffer.onFbc {f : Fbc → Fbc} (h : P d) : P (d.onFbc f) := hP.fbc _ h

/-! The DRAM controller. -/

theorem BesideBuffer.drcFreeze (h : P d) (src req w x chk errors : Nat) : P (drcFreeze src req w x chk errors d) := by
  have fs : ∀ {u : Dev} (x v i), P u → P (u.fs x v i) := fun _ _ _ hu => hP.fs hu
  unfold Machine.drcFreeze
  extract_lets l s d1 d2 d3 d4 d5 d6 cache d7 d8 d9
  have h1 : P d1 := fs _ _ _ (fs _ _ _ h)
  have h2 : P d2 := fs _ _ _ (fs _ _ _ (fs _ _ _ h1))
  have h3 : P d3 := fs _ _ _ (fs _ _ _ (fs _ _ _ h2))
  have h4 : P d4 := fs _ _ _ (fs _ _ _ (fs _ _ _ h3))
  have h5 : P d5 := fs _ _ _ (fs _ _ _ h4)
  have h6 : P d6 := each_inv h5 fun _ _ _ hu => fs _ _ _ hu
  have h7 : P d7 := hP.fbc (d := d6) _ h6
  have h8 : P d8 := hP.onDrc (fs _ _ _ h7)
  exact hP.frozen 1 (hP.error (d := d9) true (fs _ _ _ (fs _ _ _ h8)))

theorem BesideBuffer.drcWord (h : P d) (src req w flip : Nat) : P (drcWord src req w flip d).2 := by
  unfold Machine.drcWord
  extract_lets st x chk s fix
  split
  · exact hP.words _ _ _ h
  · exact hP.words _ _ _ h
  · exact hP.words _ _ _ h
  · extract_lets y info d1 d2 d3
    have h1 : P d1 := hP.fs (hP.bump (hP.words _ _ _ h))
    have h2 : P d2 := hP.fs (hP.fs h1)
    exact hP.fs (hP.fs (hP.fs (hP.fs h2)))

theorem BesideBuffer.drcLineWords (h : P d) (src req : Nat) (flips ws : List Nat) (acc : Bytes) :
    P (drcLineWords src req flips ws acc d).2 := by
  induction ws generalizing acc d with
  | nil => exact h
  | cons w ws ih =>
    unfold Machine.drcLineWords
    dsimp only
    split
    · exact ih (hP.drcWord h _ _ _ _) _
    · exact hP.drcWord h _ _ _ _

theorem BesideBuffer.drcReadLine (h : P d) (src req line : Nat) (flips : List Nat) : P (drcReadLine src req line flips d).2 := by
  have hline : P (drcLine src req line flips d).2 := hP.drcLineWords h _ _ _ _ _
  unfold Machine.drcReadLine
  generalize drcLine src req line flips d = r at hline ⊢
  dsimp only
  split
  · exact hline
  · dsimp only
    exact hP.drcFreeze hline _ _ _ _ _ _

theorem BesideBuffer.drcWriteWord (h : P d) (req w ofs : Nat) (b : Bytes) : P (drcWriteWord req w ofs b d) := by
  have hword : P (Machine.drcWord 1 req w 0 (d.bump .DRC_CNT_RMW)).2 := hP.drcWord (hP.bump h) _ _ _ _
  unfold Machine.drcWriteWord
  split
  · exact h
  · split
    · exact hP.words _ _ _ h
    · dsimp only
      split
      · exact hP.words _ _ _ hword
      · exact hP.drcFreeze hword _ _ _ _ _ _

theorem BesideBuffer.drcWriteBytes (h : P d) (k req a : Nat) (b : Bytes) : P (drcWriteBytes k req a b d) := by
  induction k generalizing a b d with
  | zero => exact h
  | succ k ih =>
    unfold Machine.drcWriteBytes
    split
    · exact h
    · exact ih (hP.drcWriteWord h _ _ _ _) _ _

/-- A rank woken, a row opened and a check line used, before an access (R364, R368, R377). -/
theorem BesideBuffer.openFor (h : P d) (l : Location) : P (useCheck l (openFor l d)) := by
  unfold useCheck Machine.openFor
  refine hP.onDrc ?_
  split
  · exact h
  · unfold activate
    split
    · exact hP.onDrc h
    · exact hP.onDrc (hP.onDrc h)

theorem BesideBuffer.drcSettle (h : P d) (line : Nat) : P (drcSettle line d) := by
  refine each_inv h fun u r _ hu => ?_
  unfold drcIssue
  dsimp only
  split
  · exact hP.drcWriteBytes (hP.onDrc (hP.openFor hu _)) _ _ _ _
  · exact hP.onDrc (hP.openFor hu _)

theorem BesideBuffer.dramRead (h : P d) (req line : Nat) : P (dramRead req line d).2 := by
  unfold Machine.dramRead
  split
  · exact hP.error _ (hP.fs h)
  · split
    · exact hP.error _ h
    · dsimp only
      split
      · exact hP.drcSettle h _
      · exact hP.drcReadLine (hP.openFor (hP.onDrc (hP.drcSettle h _)) _) _ _ _ _

theorem BesideBuffer.dramWrite (h : P d) (req a : Nat) (b : Bytes) : P (dramWrite req a b d).2 := by
  unfold Machine.dramWrite
  split
  · exact hP.error _ (hP.fs h)
  · split
    · exact hP.error _ h
    · exact hP.drcWriteBytes (hP.openFor (hP.onDrc (hP.drcSettle h _)) _) _ _ _ _

/-! The fabric cache. The DRAM's answer is made a variable before the cases are split, as it is not to be evaluated. -/

theorem BesideBuffer.writeBack (h : P d) (req set w : Nat) : P (writeBack req set w d).2 := by
  have hwrite : ∀ a b, P (Machine.dramWrite req a b d).2 := fun a b => hP.dramWrite h _ _ _
  unfold Machine.writeBack
  dsimp only
  split
  · exact h
  · split
    · exact hP.error _ h
    · split
      · exact hP.bump (hP.setWay (hwrite _ _))
      · exact hwrite _ _

theorem BesideBuffer.allocate (h : P d) (req line : Nat) (data : Bytes) (dirty : Bool) : P (allocate req line data dirty d).2 := by
  have hvictim : P (victim (setOf line) (d.usable req) d).2 := by
    unfold victim
    split
    · exact h
    · exact hP.drew (hP.fs h)
  unfold Machine.allocate
  dsimp only
  split
  · exact hvictim
  · split
    · exact hP.setWay (hP.writeBack hvictim _ _ _)
    · exact hP.writeBack hvictim _ _ _

theorem BesideBuffer.cacheReset (h : P d) : P (cacheReset d) := cond_inv h fun _ hu => hP.fs (hP.fbc _ hu)

/-- What the cache does not take goes to the DRAM. -/
theorem BesideBuffer.orWrite {x : Bool × Dev} (h : P x.2) (req a : Nat) (b : Bytes) :
    P (if x.1 then x else Machine.dramWrite req a b x.2).2 := by
  split
  · exact h
  · exact hP.dramWrite h _ _ _

theorem BesideBuffer.lineWrite (h : P d) (req a : Nat) (b : Bytes) : P (lineWrite req a b d).2 := by
  unfold Machine.lineWrite
  extract_lets +onlyGivenNames line fresh full counted e o merge
  have hcounted : P e := hP.onFbc (hP.fbc _ (hP.cacheReset h))
  clear_value e merge full
  have hread := hP.dramRead hcounted req line
  have halloc := hP.allocate (hP.error false hcounted) req line b true
  generalize Machine.dramRead req line e = r at hread ⊢
  generalize Machine.allocate req line b true _ = x at halloc ⊢
  split
  · exact hP.dramWrite h _ _ _
  · generalize e.hit line = hit
    rcases hit with _ | w
    · show P (Prod.snd (ite _ _ _))
      split
      · exact hP.error _ hcounted
      · split
        · exact hP.dramWrite hcounted _ _ _
        · split
          · split
            · exact hP.error _ (hP.fs hcounted)
            · exact hP.orWrite halloc _ _ _
          · rcases r with ⟨_ | old, u⟩
            · exact hread
            · have hmerged := hP.allocate hread req line (merge old) true
              dsimp only
              generalize Machine.allocate req line (merge old) true u = y at hmerged ⊢
              exact hP.orWrite hmerged _ _ _
    · exact hP.error _ (hP.setWay hcounted)

theorem BesideBuffer.writeLines (h : P d) (k req a : Nat) (b : Bytes) : P (writeLines k req a b d).2 := by
  induction k generalizing a b d with
  | zero => exact h
  | succ k ih =>
    unfold Machine.writeLines
    split
    · exact h
    · dsimp only
      split
      · exact ih (hP.lineWrite h _ _ _) _ _
      · exact hP.lineWrite h _ _ _

theorem BesideBuffer.bufPut (h : P d) (req a : Nat) (b : Bytes) : P (d.bufPut req a b) := hP.writeLines h _ _ _ _

end

end Sys2Proof.Proofs
end

section
/-!
SUPPORT. Firmware's writes to the trim store and the temperature samples (10_calibration.md R339, R340, R348, R351; 20_clocks_and_boot.md
R666): the obligation.
-/

namespace Sys2Proof.Proofs

open Sys2Proof Sys2Proof.Machine Sys2Proof.Laws

section
variable {d e : Dev}

/-! A write to a fine tuning trim (R339, R340). -/

theorem regAt_ftrim (n : Fin 96) : regAt .cal (Reg.CAL_FTRIM.off + n * Reg.CAL_FTRIM.s1) = some (.CAL_FTRIM, n.val, 0) := by
  revert n
  decide

theorem storeTrims_ftrim (n j : Nat) : storeTrims .CAL_FTRIM n j = [.ft n] := rfl

/-- A field's bits, read as a signed number, are written back as they are. -/
theorem unsigned_signed {w x : Nat} (hx : x < 2 ^ w) : unsigned w (signed w x) = x := by
  unfold unsigned signed
  rw [Nat.mod_eq_of_lt hx]
  dsimp only
  split
  · rw [Int.emod_eq_of_lt (by omega) (by omega), Int.toNat_natCast]
  · rw [Int.sub_emod_right, Int.emod_eq_of_lt (by omega) (by omega), Int.toNat_natCast]

/-- A fine tuning trim has no live copy. -/
theorem setTrim_ft (n : Nat) (v : Int) : d.setTrim (.ft n) v = d.fs .CAL_FTRIM_FT (unsigned 5 v) n := by
  unfold Dev.setTrim Dev.cond
  exact ite_self _

/-- What a write to a fine tuning trim stores. -/
def ftrimStored (n : Nat) (val : DWord) (d : Dev) : Dev :=
  (d.fs .CAL_FTRIM_FT (bitsOf val.toNat 0 5) n).onCal fun c => { c with trusted := c.trusted.filter fun k => !([n].contains k) }

theorem trimStoreWrite_ftrim {n : Fin 96} {val : DWord} (hpresent : d.opuPresent (n.val / 24) = true) :
    trimStoreWrite (Reg.CAL_FTRIM.off + n * Reg.CAL_FTRIM.s1) val d =
      if storeBusy d .CAL_FTRIM n then d.fs .CAL_STAT_REFUSE 1 else ftrimStored n val d := by
  have hthere : (!d.opuPresent (Trim.ft n.val).opu) = false := by rw [Trim.opu, hpresent]; rfl
  unfold trimStoreWrite
  rw [regAt_ftrim]
  dsimp only
  rw [storeTrims_ftrim]
  dsimp only
  rw [if_neg (by simp [hthere])]
  congr 1
  rw [Dev.each, List.foldl_cons, List.foldl_nil, setTrim_ft]
  unfold ftrimStored
  rw [← unsigned_signed (bitsOf_lt val.toNat 0 5)]
  rfl

theorem fg_ftrimStored (n : Nat) (val : DWord) : (ftrimStored n val d).fg .CAL_FTRIM_FT n = bitsOf val.toNat 0 5 :=
  fg_fs_of_lt d n (x := .CAL_FTRIM_FT) (by decide) (bitsOf_lt _ _ _)

theorem not_mem_trusted_ftrimStored (n : Nat) (val : DWord) : n ∉ (ftrimStored n val d).cal.trusted := by
  simp [ftrimStored, Dev.onCal]

theorem rd_ftrimStored {n k : Nat} (val : DWord) (h : k ≠ n) : (ftrimStored n val d).rd .CAL_FTRIM k = d.rd .CAL_FTRIM k := by
  have hkey : ∀ i, Reg.CAL_FTRIM.key i 0 = 0x600280 + i * 4 := fun i => by simp [Reg.key, Reg.CAL_FTRIM, Block.code]
  exact rd_wr_ne d .CAL_FTRIM .CAL_FTRIM _ n 0 k 0 (by rw [hkey, hkey]; omega)

/-! The entry to FROZEN (R586), in which no calibration step is aborted with its island. -/

theorem CalKept.onFw (h : CalKept d e) (f : Firmware → Firmware) : CalKept d (e.onFw f) := h.beside
theorem CalKept.onOpuFw (h : CalKept d e) (opu : Nat) (f : OpuFw → OpuFw) : CalKept d (e.onOpuFw opu f) := h.beside

theorem CalKept.spnStop (h : CalKept d e) : CalKept d (spnStop e) := by
  unfold Machine.spnStop
  split
  · exact h.fs .SPN_STAT_REFUSED 1
  · unfold spnEnter spnSettle
    exact cond_inv (h.fs .SPN_STAT_STATE _ (i := 0)).beside fun _ hu => hu.fs .SPN_STAT_STATE _

theorem CalKept.event (h : CalKept d e) (x : EventInfo) : CalKept d (e.event x) := by
  obtain ⟨j, hj | ⟨v, hj⟩⟩ := event_journal e x
  · rw [hj]
    exact h.beside
  · rw [hj]
    exact CalKept.fs h.beside _ _

theorem CalKept.frozenStop (h : CalKept d e) (hm : InMode 7 e) : CalKept d (frozenStop e) := by
  have hstill := each_inv (P := fun u => CalKept d u ∧ InMode 7 u) (f := fun u o => Machine.sldHold o false (u.sldPos o) u)
    (l := (Machine.spnStop e).opus) ⟨h.spnStop, hm.spnStop⟩ fun _ _ ho hu =>
      ⟨hu.1.sldHold (opu_lt_four ho) _ _, hu.2.sldHold (opu_lt_four ho)⟩
  refine (each_inv (P := fun u => CalKept d u ∧ InMode 7 u) hstill fun u o ho hu => ?_).1
  have hlt := opu_lt_four ho
  have hidle := each_inv (P := fun v => CalKept d v ∧ InMode 7 v) (l := slicesOf o)
    (f := fun v n => v.fs .RCS_STAT_STATE (if v.fg .RCS_STAT_STATE n = 0 then 0 else sliceIdle) n) hu fun _ _ hn hv =>
      ⟨hv.1.fs .RCS_STAT_STATE _ (slicesOf_lt hlt hn), hv.2.fs (hi := slicesOf_lt hlt hn)⟩
  obtain ⟨hkept, hfrozen⟩ := hidle
  exact ⟨hkept.opuOff hlt false fun hv => calIslandOff_frozen (hv ▸ (hfrozen.lanesStop hlt).servoOpen hlt) o,
    hfrozen.opuOff_frozen hlt⟩

theorem frozenEntry_kept (n : Nat) (d : Dev) : CalKept d (frozenEntry n d) := by
  unfold frozenEntry
  split
  · exact CalKept.refl d
  · extract_lets u v w
    have hmode : CalKept d u ∧ InMode 7 u :=
      ⟨((CalKept.refl d).fs .PMU_STAT_MODE 7).onFw _, (inMode_setMode (by decide)).of_regs (onFw_regs _ _)⟩
    have hlanes := each_inv (P := fun x => CalKept d x ∧ InMode 7 x) (f := fun x o => Machine.lanesStop true o x) (l := u.opus) hmode
      fun _ _ ho hx => ⟨hx.1.lanesStop (opu_lt_four ho) true, hx.2.lanesStop (opu_lt_four ho)⟩
    have hstopped : CalKept d v := hlanes.1.frozenStop hlanes.2
    have hended : CalKept d w := each_inv hstopped fun _ _ _ hx => hx.beside
    exact hended.event _

/-! A temperature sample (R348). -/

/-- The die temperature and the thermistor codes that a unit holds. -/
def samples (d : Dev) : Int × Sparse Nat := (d.cal.die, d.eng.therm)

theorem CalKept.samples (h : CalKept d e) : samples e = samples d := by rw [Proofs.samples, h.cal, h.therm, Proofs.samples]

theorem samples_besideBuffer (x : Int × Sparse Nat) : BesideBuffer fun d => samples d = x where
  regs _ h := h
  words _ _ _ h := h
  drc _ h := h
  fbc _ h := h
  error _ h := h
  drew h := h
  frozen n h := (frozenEntry_kept n _).samples.trans h

theorem samples_calTrigger (set : Nat) : samples (calTrigger set d) = samples d := by
  by_cases hs : fusedPairs d set = 0
  · rw [calTrigger, if_pos hs]
  · obtain ⟨c, hdie, htrigger⟩ := calTrigger_eq hs
    have hkept := triggered_kept (d := { d with cal := c }) samples (fun _ _ _ => rfl) (fun _ _ => rfl) (fusedPairs d set)
    rw [htrigger, hkept]
    exact congrArg (·, d.eng.therm) hdie

/-! What firmware does with the die temperature (R666). -/

theorem samples_fs (d : Dev) (x : Fld) (v i : Nat) : samples (d.fs x v i) = samples d := rfl
theorem samples_onFw (d : Dev) (f : Firmware → Firmware) : samples (d.onFw f) = samples d := rfl

/-- A lane's STOP_POS goes into its plan in the buffer. -/
theorem samples_lanePause (opu w : Nat) : samples (lanePause opu w d) = samples d := by
  unfold lanePause
  extract_lets l stop u
  exact (cond_eq samples fun e => (samples_besideBuffer (samples e)).bufPut rfl _ _ _ : samples u = samples d)

theorem samples_wsgPause (opu : Nat) : samples (wsgPause opu d) = samples d := by
  unfold wsgPause
  extract_lets u
  have hlanes : samples (u.each (List.range (u.wsg opu).lanes.length) fun v w => v.cond (v.lane opu w).frame.isNone (lanePause opu w)) =
      samples u := each_eq u samples (fun v w => cond_eq samples fun _ => samples_lanePause opu w) _
  exact (cond_eq samples fun v => samples_fs v .WSG_OSTAT_PAUSED 1 opu).trans hlanes

/-- Nothing more is captured by an OPU's slices. -/
theorem CalKept.uncaptured (h : CalKept d e) {opu : Nat} (ho : opu < 4) :
    CalKept d ((e.each (slicesOf opu) fun u n => u.fs .RCS_CAP_SLOTS 0 n).svSet opu svNextJ 0) :=
  (each_inv h fun _ _ hn hu => hu.fs .RCS_CAP_SLOTS 0 (slicesOf_lt ho hn)).svSet ho svNextJ 0

theorem samples_heatHold {opu : Nat} (ho : opu < 4) : samples (heatHold opu d) = samples d := by
  unfold heatHold
  split
  · rfl
  · extract_lets u v
    have hpaused : samples v = samples d := cond_eq samples fun w => samples_wsgPause opu
    exact (cond_eq samples fun w => ((CalKept.refl w).uncaptured ho).samples).trans hpaused

theorem samples_thermalAct : samples (thermalAct d) = samples d := by
  unfold thermalAct
  extract_lets t lim u
  have htold : samples u = samples d := by
    unfold u
    split
    · rfl
    · exact cond_eq samples fun v => samples_onFw v _
  split
  · exact each_inv (P := fun v => samples v = samples d) htold fun _ _ ho hv => (samples_heatHold (opu_lt_four ho)).trans hv
  · exact (cond_eq samples fun v => each_eq v samples (fun w _ => samples_onFw w _) _).trans htold

/-! Calibration beside READ and RECORD (R351). -/

theorem CalKept.opuPowerUp (h : CalKept d e) {opu : Nat} (ho : opu < 4) : CalKept d (opuPowerUp opu e) := by
  unfold Machine.opuPowerUp
  split
  · exact h
  · exact ((h.withStages).fs .PMU_STAT_OPU_ON _).fs .WSG_OCTL_GATE_EN 0 ho

theorem CalKept.svSend (h : CalKept d e) {opu : Nat} (ho : opu < 4) (op track layer : Nat) : CalKept d (svSend opu op track layer e) :=
  (((h.svSet ho svTrack track).svSet ho svArgLayer layer).svSet ho svOp op).svSet ho svToken _

theorem CalKept.opuBring (h : CalKept d e) {opu : Nat} (ho : opu < 4) : CalKept d (opuBring opu e) := by
  unfold Machine.opuBring
  split
  · exact h
  · split
    · exact h.opuPowerUp ho
    · split
      · exact h
      · split
        · exact h.svSend ho 1 0 0
        · split
          · exact h.svSend ho 3 0 0
          · exact h

theorem calReturn_kept {opu : Nat} (ho : opu < 4) (set : Nat) : CalKept d (calReturn opu set d) := by
  have h := CalKept.refl d
  unfold calReturn
  split
  · exact h
  · split
    · exact h.onOpuFw opu _
    · exact h.opuBring ho

/-- An OPU withdrawn has its deferred pairs triggered, which leaves the samples. -/
theorem samples_calWithdraw {opu : Nat} (ho : opu < 4) : samples (calWithdraw opu d) = samples d := by
  unfold calWithdraw
  dsimp only
  rw [samples_calTrigger]
  exact (cond_inv (((CalKept.refl d).uncaptured ho).onOpuFw opu _) fun _ hu => (hu.servoOpen ho).slicesOff ho).samples

theorem samples_calBeside : samples (calBeside d) = samples d := by
  unfold calBeside
  split
  · next o set hout =>
    obtain ⟨p, hp, hmap⟩ := List.exists_of_findSome?_eq_some hout
    obtain ⟨v, -, heq⟩ := Option.map_eq_some_iff.mp hmap
    obtain ⟨rfl, rfl⟩ := Prod.mk.inj heq
    exact (calReturn_kept (opu_lt_four hp) v).samples
  · split
    · next o hmay => exact samples_calWithdraw (opu_lt_four (List.mem_of_find?_eq_some hmay))
    · rfl

/-- The thermistor codes of OPUs 0 to 3 once sampled. -/
def codesKept (codes : List Nat) (m : Sparse Nat) : Sparse Nat :=
  codes.zipIdx.foldl (fun m p => sparseSet 0 m p.2 (limitN 0 4095 p.1)) m

/-- Neither the triggers that a sample makes nor what firmware does about it changes what was sampled. -/
theorem samples_temperatureSample (die : Int) (codes : List Nat) :
    samples (temperatureSample die codes d) = (die, codesKept codes d.eng.therm) := by
  unfold temperatureSample
  extract_lets u v
  have hfirmware : ∀ w, samples (calBeside (thermalAct w)) = samples w := fun w => samples_calBeside.trans samples_thermalAct
  rw [cond_eq samples hfirmware, calTempTrigger, samples_calTrigger]
  rfl

theorem codesKept_first (a b c e : Nat) (m : Sparse Nat) : sparseGet 0 (codesKept [a, b, c, e] m) 0 = limitN 0 4095 a := by
  show sparseGet 0 (sparseSet 0 (sparseSet 0 (sparseSet 0 (sparseSet 0 m 0 _) 1 _) 2 _) 3 _) 0 = _
  rw [sparseGet_set_ne 0 _ _ (by decide), sparseGet_set_ne 0 _ _ (by decide), sparseGet_set_ne 0 _ _ (by decide), sparseGet_set_self]

theorem codesKept_last (a b c e : Nat) (m : Sparse Nat) : sparseGet 0 (codesKept [a, b, c, e] m) 3 = limitN 0 4095 e :=
  sparseGet_set_self _ _ _ _

end

/-- Settles O24: a write to a fine tuning trim is refused by the running step's group alone and has no live copy to change; a sample is
kept through the triggers it makes and through what firmware does about it. -/
theorem trimsAndTemperature : Obligations.TrimsAndTemperature := by
  unfold Obligations.TrimsAndTemperature
  refine ⟨fun n val s hpresent hfree => ?_, fun n val s hpresent hbusy => ?_, fun die a b c e s => ?_⟩
  · have hstored := (trimStoreWrite_ftrim (val := val) hpresent).trans (if_neg (by simp [hfree]))
    refine gives_of_eq (f := trimStoreWrite _ val) rfl hstored ⟨fg_ftrimStored n val, not_mem_trusted_ftrimStored n val,
      fun k hk => rd_ftrimStored val (Fin.val_ne_of_ne hk), rfl⟩
  · show State.onDev _ _ = _
    rw [onDev_next, trimStoreWrite_ftrim hpresent, if_pos hbusy]
  · have hsampled := samples_temperatureSample (d := s.dev) die [a, b, c, e]
    refine gives_of_eq (f := temperatureSample die [a, b, c, e]) rfl (Eq.refl _) ⟨congrArg (·.1) hsampled, ?_, ?_⟩
    · exact (congrArg (fun p : Int × Sparse Nat => sparseGet 0 p.2 0) hsampled).trans (codesKept_first a b c e _)
    · exact (congrArg (fun p : Int × Sparse Nat => sparseGet 0 p.2 3) hsampled).trans (codesKept_last a b c e _)

end Sys2Proof.Proofs
end

section
/-!
SUPPORT. The inline code of the buffer DRAM (11_buffer_dram.md R361): the check bits are linear, every column and every check bit's
syndrome has an odd number of bits set, and so the obligation.
-/

namespace Sys2Proof.Proofs

open Sys2Proof Sys2Proof.Machine Sys2Proof.Laws

/-! The parity of a syndrome. -/

theorem popCount_succ (w x : Nat) : popCount (w + 1) x = popCount w x + (x.testBit w).toNat := by
  unfold popCount
  rw [List.range_succ, List.filter_append, List.length_append]
  cases h : x.testBit w <;> simp [h]

/-- The parity of an exclusive or is that of the two parities. -/
theorem parityOf_xor (w x y : Nat) : parityOf w (x ^^^ y) = (parityOf w x ^^ parityOf w y) := by
  unfold parityOf
  induction w with
  | zero => rfl
  | succ w ih =>
    rw [popCount_succ, popCount_succ, popCount_succ, Nat.testBit_xor]
    rw [Bool.eq_iff_iff] at ih ⊢
    cases x.testBit w <;> cases y.testBit w <;> simp at ih ⊢ <;> omega

/-! The check bits of a half are linear in its data. -/

/-- The columns of an exclusive or, added up, are those of both numbers. -/
theorem foldl_columns_xor (l : List (Nat × Nat)) (x y a b : Nat) :
    l.foldl (fun c p => if (x ^^^ y).testBit p.2 then c ^^^ p.1 else c) (a ^^^ b) =
      l.foldl (fun c p => if x.testBit p.2 then c ^^^ p.1 else c) a ^^^
        l.foldl (fun c p => if y.testBit p.2 then c ^^^ p.1 else c) b := by
  induction l generalizing a b with
  | nil => rfl
  | cons p l ih =>
    rw [List.foldl_cons, List.foldl_cons, List.foldl_cons, ← ih, Nat.testBit_xor]
    congr 1
    cases x.testBit p.2 <;> cases y.testBit p.2 <;> simp [Nat.xor_left_comm, Nat.xor_comm]

theorem eccHalf_xor (x y : Nat) : eccHalf (x ^^^ y) = eccHalf x ^^^ eccHalf y := foldl_columns_xor _ x y 0 0

/-- A change of the data shows in the syndrome as the check bits of what changed. -/
theorem syndrome_of_change (x e : Nat) : eccHalf (x ^^^ e) ^^^ eccHalf x = eccHalf e := by
  rw [eccHalf_xor, Nat.xor_comm (eccHalf x), Nat.xor_assoc, Nat.xor_self, Nat.xor_zero]

theorem syndrome_of_check (c e : Nat) : c ^^^ (c ^^^ e) = e := by
  rw [← Nat.xor_assoc, Nat.xor_self, Nat.zero_xor]

/-! What a syndrome is judged to be. -/

theorem findIdxFrom_some {α : Type} {p : α → Bool} {n j : Nat} {l : List α} (h : findIdxFrom p n l = some j) : ∃ a ∈ l, p a = true := by
  induction l generalizing n with
  | nil => cases h
  | cons a l ih =>
    unfold findIdxFrom at h
    split at h
    · next ha => exact ⟨a, by simp, ha⟩
    · obtain ⟨b, hb, hp⟩ := ih h
      exact ⟨b, by simp [hb], hp⟩

theorem judgeHalf_zero : judgeHalf 0 = .clean := rfl

theorem eq_zero_of_judge_clean {s : Nat} (h : judgeHalf s = .clean) : s = 0 := by
  unfold judgeHalf at h
  split at h
  · assumption
  · split at h
    · cases h
    · split at h <;> cases h

/-- A column has three or five bits set. -/
theorem odd_of_mem_eccColumns {c : Nat} (h : c ∈ eccColumns) : parityOf 8 c = true := by
  unfold parityOf
  obtain h | h := List.mem_append.mp h
  · simp [of_decide_eq_true (List.mem_filter.mp h).2]
  · simp [of_decide_eq_true (List.mem_filter.mp (List.mem_of_mem_take h)).2]

/-- A syndrome judged to name a bit is a column or a lone check bit, of odd parity. -/
theorem odd_of_judge_single {s b : Nat} (h : judgeHalf s = .single b) : parityOf 8 s = true := by
  unfold judgeHalf at h
  split at h
  · cases h
  · split at h
    · next hcolumn =>
      obtain ⟨c, hc, hs⟩ := findIdxFrom_some hcolumn
      exact beq_iff_eq.mp hs ▸ odd_of_mem_eccColumns hc
    · split at h
      · next k hcheck =>
        have hk : k < 8 := List.mem_range.mp (List.mem_of_find?_eq_some hcheck)
        have hodd : ∀ k : Fin 8, parityOf 8 (2 ^ k.val) = true := by decide
        have hs : s = 2 ^ k := beq_iff_eq.mp (List.find?_some (p := fun k => s == 2 ^ k) hcheck)
        exact hs ▸ hodd ⟨k, hk⟩
      · cases h

/-- Two errors that each name a bit, and not the same one, are together uncorrectable: their syndrome is not zero and even. -/
theorem judge_double {a b i j : Nat} (ha : judgeHalf a = .single i) (hb : judgeHalf b = .single j) (hij : i ≠ j) :
    judgeHalf (a ^^^ b) = .double_ := by
  cases h : judgeHalf (a ^^^ b) with
  | clean =>
    rw [Nat.xor_eq_zero_iff.mp (eq_zero_of_judge_clean h), hb] at ha
    exact absurd (HalfResult.single.inj ha).symm hij
  | single k =>
    have heven : parityOf 8 (a ^^^ b) = false := by
      rw [parityOf_xor, odd_of_judge_single ha, odd_of_judge_single hb]
      rfl
    exact absurd (odd_of_judge_single h) (by simp [heven])
  | double_ => rfl

/-- A flipped data bit is named: its column comes at its place and nowhere before. -/
theorem judge_data_bit : ∀ i : Fin 64, judgeHalf (eccHalf (2 ^ i.val)) = .single i.val := by decide +kernel

theorem judge_check_bit : ∀ k : Fin 8, judgeHalf (2 ^ k.val) = .single (64 + k.val) := by decide +kernel

/-- Settles O25: by the code's linearity a syndrome is that of the flipped bits alone. One bit's syndrome names it, and two bits' has even
parity where no single error's has. -/
theorem eccCorrectsOne : Obligations.EccCorrectsOne := by
  unfold Obligations.EccCorrectsOne
  intro x _
  refine ⟨?_, fun i => ?_, fun k => ?_, fun i j hij => ?_, fun i k => ?_, fun k l hkl => ?_⟩
  · rw [Nat.xor_self, judgeHalf_zero]
  · rw [syndrome_of_change, judge_data_bit]
  · rw [syndrome_of_check, judge_check_bit]
  · rw [Nat.xor_assoc, syndrome_of_change, eccHalf_xor]
    exact judge_double (judge_data_bit i) (judge_data_bit j) (Fin.val_ne_of_ne hij)
  · rw [← Nat.xor_assoc, syndrome_of_change]
    exact judge_double (judge_data_bit i) (judge_check_bit k) (by omega)
  · rw [Nat.xor_assoc, syndrome_of_check]
    exact judge_double (judge_check_bit k) (judge_check_bit l) (by omega)

end Sys2Proof.Proofs
end

section
/-!
SUPPORT. What keeps the buffer DRAM going: refresh, the temperature poll, row hammer, self-refresh, training and the delay checks
(11_buffer_dram.md R371 to R373, R376 to R381): the obligation.
-/

namespace Sys2Proof.Proofs

open Sys2Proof Sys2Proof.Machine Sys2Proof.Laws

/-- A command whose effect on the unit is `f` makes of it the unit that `f` makes. -/
theorem becomes_of_eq {c : Instr} {s : State} {f : Dev → Dev} {u : Dev} (hexec : exec c s = s.onDev f) (hu : f s.dev = u) :
    Becomes c s u := by rw [Becomes, hexec, onDev_next, hu]

/-! What changes of a unit, one update after another. -/

section
variable {keys : List Nat} {d e u : Dev}

/-- A register written changes nothing beside the registers. -/
theorem regsOnly_wr {r : Reg} {v : DWord} {i j : Nat} (h : e = { u with regs := e.regs }) :
    e.wr r v i j = { u with regs := (e.wr r v i j).regs } := by
  unfold Dev.wr
  rw [h]

theorem regsOnly_fs {x : Fld} {v i : Nat} (h : e = { u with regs := e.regs }) : e.fs x v i = { u with regs := (e.fs x v i).regs } :=
  regsOnly_wr h

theorem changes_refl : Changes keys d d d := ⟨fun _ _ => rfl, rfl⟩

theorem changes_wr {r : Reg} {v : DWord} {i j : Nat} (h : Changes keys d e u) (hr : r.key i j ∈ keys) :
    Changes keys d (e.wr r v i j) u := by
  obtain ⟨hkept, hrest⟩ := h
  refine ⟨fun k hk => ?_, ?_⟩
  · rw [lookup_wr _ _ _ _ _ _ (ne_of_mem_of_not_mem hr hk).symm, hkept k hk]
  · exact regsOnly_wr hrest

theorem changes_fs {x : Fld} {v i : Nat} (h : Changes keys d e u) (hx : x.reg.key i 0 ∈ keys := by decide) :
    Changes keys d (e.fs x v i) u := changes_wr h hx

theorem changes_bump {r : Reg} (h : Changes keys d e u) (hr : r.key 0 0 ∈ keys := by decide) : Changes keys d (e.bump r) u :=
  changes_wr h hr

theorem changes_onDrc {f : Drc → Drc} (h : Changes keys d e u) : Changes keys d (e.onDrc f) (u.onDrc f) := by
  obtain ⟨hkept, hrest⟩ := h
  refine ⟨hkept, ?_⟩
  unfold Dev.onDrc
  rw [hrest]

end

section
variable {d : Dev}

theorem drcState_fs_state {st : Nat} (h : st < 8) : (d.fs .DRC_STAT_STATE st).drcState = st := fg_fs_of_lt d 0 (by decide) h

theorem drcState_fs {x : Fld} (v : Nat) (h : SingleApart x .DRC_STAT_STATE) : (d.fs x v).drcState = d.drcState := fg_fs_single d v h

@[simp] theorem onDrc_drc (f : Drc → Drc) : (d.onDrc f).drc = f d.drc := rfl

/-- With no request at the ports the fabric has none to grant. -/
theorem drcTakeHeld_none (h : d.drc.held = []) : drcTakeHeld d.drc.held.length d = d := by
  rw [h]
  rfl

/-! Refresh (R371, R372). -/

/-- The open rows of the banks once some of a rank are closed. -/
def rowsClosed (rk : Nat) (banks : List Nat) (rows : Sparse Nat) : Sparse Nat :=
  banks.foldl (fun m b => sparseSet 0 m (8 * rk + b) 0) rows

theorem closeRows_eq (rk : Nat) (banks : List Nat) :
    (d.each banks fun d b => d.onDrc fun c => { c with openRow := sparseSet 0 c.openRow (8 * rk + b) 0 }) =
      d.onDrc fun c => { c with openRow := rowsClosed rk banks c.openRow } := by
  induction banks generalizing d with
  | nil => rfl
  | cons b banks ih =>
    rw [each_cons, ih]
    rfl

/-- A bank is closed where it is among those closed, or was closed before. -/
theorem sparseGet_rowsClosed {rk b : Nat} {banks : List Nat} {rows : Sparse Nat}
    (h : b ∈ banks ∨ sparseGet 0 rows (8 * rk + b) = 0) : sparseGet 0 (rowsClosed rk banks rows) (8 * rk + b) = 0 := by
  induction banks generalizing rows with
  | nil => simpa [rowsClosed] using h
  | cons a banks ih =>
    refine ih ?_
    rw [sparseGet_set]
    by_cases hab : a = b
    · exact .inr (if_pos (by rw [hab]))
    · rw [if_neg (by omega)]
      simpa [Ne.symm hab] using h

/-- A rank of a channel is refreshed: it is fitted, the DRC is READY and the rank not asleep. -/
structure Refreshed (ch rank : Nat) (d : Dev) : Prop where
  fitted : rank < d.ranks
  ready : d.drcState = drcReady
  awake : 2 * ch + rank ∉ d.drc.asleep

/-- A rank owes one more refresh. -/
def refreshOwed (rk : Nat) (d : Dev) : Dev := d.onDrc fun c => { c with debt := sparseSet 0 c.debt rk (sparseGet 0 c.debt rk + 1) }

theorem debt_refreshOwed (rk : Nat) : sparseGet 0 (refreshOwed rk d).drc.debt rk = sparseGet 0 d.drc.debt rk + 1 := by
  rw [refreshOwed, onDrc_drc, sparseGet_set_self]

/-- What an all-bank refresh makes of the DRC where a rank owes 16 (R372). -/
def allBankRefreshed (rk : Nat) (c : Drc) : Drc :=
  { c with
    debt := sparseSet 0 c.debt rk 8
    round := sparseSet 0 c.round rk 0
    openRow := rowsClosed rk (List.range 8) c.openRow }

theorem debt_allBankRefreshed (rk : Nat) (c : Drc) : sparseGet 0 (allBankRefreshed rk c).debt rk = 8 := sparseGet_set_self 0 c.debt rk 8
theorem round_allBankRefreshed (rk : Nat) (c : Drc) : sparseGet 0 (allBankRefreshed rk c).round rk = 0 := sparseGet_set_self 0 c.round rk 0
theorem openRow_allBankRefreshed (rk : Nat) (c : Drc) {b : Nat} (hb : b < 8) :
    sparseGet 0 (allBankRefreshed rk c).openRow (8 * rk + b) = 0 := sparseGet_rowsClosed (.inl (List.mem_range.mpr hb))

theorem Refreshed.forced {ch rank : Nat} (h : Refreshed ch rank d) (hdebt : sparseGet 0 d.drc.debt (2 * ch + rank) = 15) :
    refreshDue ch rank d =
      ((refreshOwed (2 * ch + rank) d).onDrc (allBankRefreshed (2 * ch + rank))).bump .DRC_CNT_REFFORCE := by
  obtain ⟨hfitted, hready, hawake⟩ := h
  unfold refreshDue
  dsimp only
  rw [if_neg (by simp [hfitted, hready, hawake]), ← refreshOwed, debt_refreshOwed, hdebt, if_pos (by decide), closeRows_eq]
  rfl

/-- With nothing queued a refresh that falls due is made at once, of the round's first bank (R371). -/
theorem Refreshed.atOnce {ch rank : Nat} (h : Refreshed ch rank d) (hdebt : sparseGet 0 d.drc.debt (2 * ch + rank) = 0)
    (hround : sparseGet 0 d.drc.round (2 * ch + rank) = 0) (hreads : d.drc.reads = []) (hwrites : d.drc.writes = []) :
    refreshDue ch rank d = refreshBank (2 * ch + rank) 0 (refreshOwed (2 * ch + rank) d) := by
  obtain ⟨hfitted, hready, hawake⟩ := h
  have howed : sparseGet 0 (refreshOwed (2 * ch + rank) d).drc.debt (2 * ch + rank) = 1 := by rw [debt_refreshOwed, hdebt]
  have hleft : roundLeft (refreshOwed (2 * ch + rank) d) (2 * ch + rank) = List.range 8 := by
    rw [roundLeft, refreshOwed, onDrc_drc, hround]
    rfl
  have hidle : ∀ key, bankIdle (refreshOwed (2 * ch + rank) d) key = true := fun key => by
    rw [bankIdle, refreshOwed, onDrc_drc, hreads, hwrites]
    rfl
  have hmade : refreshIdle 1 (2 * ch + rank) (refreshOwed (2 * ch + rank) d) =
      refreshBank (2 * ch + rank) 0 (refreshOwed (2 * ch + rank) d) := by
    unfold refreshIdle
    rw [if_neg (by simp [howed]), hleft, show List.range 8 = 0 :: [1, 2, 3, 4, 5, 6, 7] from rfl, List.find?_cons, hidle]
    rfl
  have hsettled : sparseGet 0 (refreshBank (2 * ch + rank) 0 (refreshOwed (2 * ch + rank) d)).drc.debt (2 * ch + rank) = 0 := by
    rw [refreshBank, onDrc_drc, sparseGet_set_self, howed]
  unfold refreshDue
  dsimp only
  rw [if_neg (by simp [hfitted, hready, hawake]), ← refreshOwed, howed, if_neg (by decide), hmade, hsettled]
  exact if_neg (by decide)

/-! The temperature poll (R373). -/

/-- The hottest of a rank's two codes. -/
theorem foldl_hottest (a b : Nat) : [a, b].foldl (fun m c => if m < c then c else m) 0 = if a < b then b else a := by
  have ha : (if 0 < a then a else 0) = a := by split <;> omega
  rw [List.foldl_cons, List.foldl_cons, List.foldl_nil, ha]

/-- A poll of one rank's dies, none of them at code 7. -/
theorem mr4Poll_eq {a b : Nat} (hready : d.drcState = drcReady) (hranks : d.ranks = 1) (ha : a < 7) (hb : b < 7) :
    mr4Poll [a, b] [] d = (d.fs .DRC_REF_MULT0 (if a < b then b else a)).fs .DRC_REF_MULT1 (d.fg .DRC_REF_MULT1) := by
  have hcool : [a, b].contains 7 = false := by simp; omega
  unfold mr4Poll
  rw [if_neg (by simp [hready]), hcool, hranks]
  dsimp only
  rw [foldl_hottest]
  simp

/-! Self-refresh (R377, R378). -/

/-- What automatic self-refresh makes of the DRC. -/
def selfRefreshed (rk : Nat) (c : Drc) : Drc :=
  { c with
    asleep := c.asleep ++ [rk]
    debt := sparseSet 0 c.debt rk 0
    round := sparseSet 0 c.round rk 0
    openRow := c.openRow.filter fun e => e.1 / 8 != rk }

theorem debt_selfRefreshed (rk : Nat) (c : Drc) : sparseGet 0 (selfRefreshed rk c).debt rk = 0 := sparseGet_set_self 0 c.debt rk 0

theorem autoSelfRefresh_idle {ch rank : Nat} (hready : d.drcState = drcReady) (hauto : d.is .DRC_PWR_AUTO_SR = true)
    (hfitted : rank < d.ranks) (hreads : d.drc.reads = []) (hwrites : d.drc.writes = []) (hinflight : d.drc.inflight = [])
    (hawake : 2 * ch + rank ∉ d.drc.asleep) : autoSelfRefresh ch rank d = d.onDrc (selfRefreshed (2 * ch + rank)) := by
  unfold autoSelfRefresh
  exact if_neg (by simp [hready, hauto, hfitted, hreads, hwrites, hinflight, hawake])

/-- With nothing queued or in flight there is nothing to drain. -/
theorem drcDrain_idle {n : Nat} (hreads : d.drc.reads = []) (hwrites : d.drc.writes = []) (hinflight : d.drc.inflight = []) :
    drcDrain n d = d := by
  have hnone : ∀ ch write, eligible d ch write = [] := fun ch write => by cases write <;> simp [eligible, hreads, hwrites]
  cases n with
  | zero => rfl
  | succ n =>
    unfold drcDrain
    rw [hinflight]
    simp [hnone]

/-- What the entry to deep self-refresh clears of the DRC. -/
def deepEntered (c : Drc) : Drc := { c with debt := [], round := [], checks := [], openRow := [], asleep := [], targets := [] }

theorem drcDeep_idle (hready : d.drcState = drcReady) (hreads : d.drc.reads = []) (hwrites : d.drc.writes = [])
    (hinflight : d.drc.inflight = []) : drcDeep d = ((d.fs .DRC_PWR_DEEP 1).onDrc deepEntered).fs .DRC_STAT_STATE 3 := by
  have hstill : (d.fs .DRC_PWR_DEEP 1).drcState = drcReady := (drcState_fs 1 (by decide)).trans hready
  unfold drcDeep
  rw [if_neg (by simp [hready])]
  dsimp only
  rw [drcDrain_idle (d := d.fs .DRC_PWR_DEEP 1) hreads hwrites hinflight, if_neg (by simp [hstill])]
  rfl

theorem drcDeepExit_eq (hdeep : d.drcState = 3) (hheld : d.drc.held = []) :
    drcDeepExit [] d = ((d.fs .DRC_STAT_STATE drcReady).fs .DRC_PWR_DEEP 0).onDrc fun c => { c with zq := d.qtime } := by
  unfold drcDeepExit
  rw [if_neg (by simp [hdeep])]
  exact drcTakeHeld_none (d := ((d.fs .DRC_STAT_STATE drcReady).fs .DRC_PWR_DEEP 0).onDrc fun c => { c with zq := d.qtime }) hheld

/-! Training (R380). -/

/-- Each die's count lies in the table at the die's number. -/
theorem sparseGet_dies {counts : List Nat} {first n k : Nat} {m : Sparse Nat} :
    sparseGet 0 ((counts.zip (List.range' first n)).foldl (fun m p => sparseSet 0 m p.2 p.1) m) k =
      if first ≤ k ∧ k < first + n ∧ k < first + counts.length then counts.getD (k - first) 0 else sparseGet 0 m k := by
  induction counts generalizing first n m with
  | nil => rw [if_neg (by simp; omega), List.zip_nil_left, List.foldl_nil]
  | cons a counts ih =>
    cases n with
    | zero => rw [if_neg (by omega), List.range'_zero, List.zip_nil_right, List.foldl_nil]
    | succ n =>
      rw [List.range'_succ, List.zip_cons_cons, List.foldl_cons, ih, sparseGet_set, List.length_cons]
      by_cases hk : first = k
      · subst hk
        simp
      · rw [if_neg hk]
        by_cases hlater : first + 1 ≤ k
        · rw [show k - first = (k - (first + 1)) + 1 by omega, List.getD_cons_succ]
          congr 1
          exact propext ⟨fun h => by omega, fun h => by omega⟩
        · rw [if_neg (by omega), if_neg (by omega)]

/-- The counts of the dies that a training without a failure keeps. -/
def diesTrained (counts : List Nat) : Sparse Nat := (counts.zip (List.range 8)).foldl (fun m p => sparseSet 0 m p.2 p.1) []

theorem sparseGet_diesTrained {counts : List Nat} {k : Nat} (hk : k < 8) (hcount : k < counts.length) :
    sparseGet 0 (diesTrained counts) k = counts.getD k 0 := by
  rw [diesTrained, List.range_eq_range', sparseGet_dies, if_pos (by omega), Nat.sub_zero]

theorem drcTraining_done {counts : List Nat} (hst : d.drcState = 1) (hgood : d.is .DRC_STAT_TRN_FAIL = false)
    (hheld : d.drc.held = []) : drcTraining none counts d = (d.fs .DRC_STAT_STATE drcReady).onDrc fun c =>
      { c with trained := diesTrained counts, delay := diesTrained counts, zq := d.qtime } := by
  unfold drcTraining
  rw [if_neg (by simp [hst, hgood])]
  exact drcTakeHeld_none (d := (d.fs .DRC_STAT_STATE drcReady).onDrc fun c =>
    { c with trained := diesTrained counts, delay := diesTrained counts, zq := d.qtime }) hheld

theorem drcTraining_failed {ch step : Nat} {counts : List Nat} (hst : d.drcState = 1) (hgood : d.is .DRC_STAT_TRN_FAIL = false) :
    drcTraining (some (ch, step)) counts d = ((d.fs .DRC_STAT_TRN_FAIL 1).fs .DRC_TRN_CH ch).fs .DRC_TRN_STEP step := by
  unfold drcTraining
  rw [if_neg (by simp [hst, hgood])]

/-! The delay checks (R381). -/

theorem zqCalibration_eq (hready : d.drcState = drcReady) : zqCalibration d = d.onDrc fun c => { c with zq := d.qtime } :=
  if_neg (by simp [hready])

/-- A die's write delay after a check against its trained count. -/
theorem dqsOscCheck_eq (die count : Nat) (hready : d.drcState = drcReady) : dqsOscCheck die count d =
    d.cond (sparseGet 0 d.drc.trained die < 64 * ((count : Int) - sparseGet 0 d.drc.trained die).natAbs) fun d =>
      d.onDrc fun c => { c with delay := sparseSet 0 c.delay die count } := by
  generalize ht : sparseGet 0 d.drc.trained die = t
  have hmoved : (if t < count then count - t else t - count) = ((count : Int) - t).natAbs := by split <;> omega
  unfold dqsOscCheck
  rw [if_neg (by simp [hready])]
  unfold dqsCheck
  dsimp only
  rw [ht, hmoved]

end

/-- Settles O27: each clause by what its command makes of the DRC's data and registers. -/
theorem dramUpkeep : Obligations.DramUpkeep := by
  unfold Obligations.DramUpkeep
  refine ⟨fun ch rank s ⟨hfitted, hready, hawake⟩ hdebt => ?_,
    fun ch rank s ⟨hfitted, hready, hawake⟩ ⟨hdebt, hround⟩ ⟨hreads, hwrites⟩ => ?_, fun a b s ⟨hready, hranks⟩ ⟨ha, hb⟩ => ?_,
    fun s => rfl, fun ch rank s ⟨hready, hauto, hfitted⟩ ⟨hreads, hwrites, hinflight⟩ hawake => ?_,
    fun s ⟨hready, hreads, hwrites, hinflight⟩ => ?_, fun s ⟨hdeep, hheld⟩ => ?_, fun counts s ⟨hst, hgood, hheld⟩ => ?_,
    fun ch step counts s ⟨hst, hgood⟩ => ?_, fun s hready => ?_, fun die count s hready => ?_⟩
  · exact gives_of_eq (f := refreshDue ch rank) rfl (Refreshed.forced ⟨hfitted, hready, by simpa using hawake⟩ hdebt)
      ⟨debt_allBankRefreshed _ _, round_allBankRefreshed _ _, fun b => openRow_allBankRefreshed _ _ b.isLt,
        changes_bump (changes_onDrc (changes_onDrc changes_refl))⟩
  · refine gives_of_eq (f := refreshDue ch rank) rfl
      (Refreshed.atOnce ⟨hfitted, hready, by simpa using hawake⟩ hdebt hround hreads hwrites) ⟨?_, ?_, rfl⟩
    · rw [refreshBank, onDrc_drc, sparseGet_set_self, debt_refreshOwed, hdebt]
    · rw [refreshBank, onDrc_drc, sparseGet_set_self, refreshOwed, onDrc_drc, hround]
      rfl
  · refine gives_of_eq (f := mr4Poll [a, b] []) rfl (mr4Poll_eq hready hranks ha hb)
      ⟨?_, changes_fs (changes_fs changes_refl)⟩
    rw [fg_fs_single _ _ (by decide)]
    exact fg_fs_of_lt _ 0 (by decide) (show _ < 8 by split <;> omega)
  · exact gives_of_eq (f := autoSelfRefresh ch rank) rfl
      (autoSelfRefresh_idle hready hauto hfitted hreads hwrites hinflight (by simpa using hawake))
      ⟨List.mem_append_right _ (List.mem_singleton_self _), debt_selfRefreshed _ _, rfl⟩
  · refine gives_of_eq (f := drcDeep) rfl (drcDeep_idle hready hreads hwrites hinflight)
      ⟨drcState_fs_state (by decide), ?_, rfl, changes_fs (changes_onDrc (changes_fs changes_refl))⟩
    exact (fg_fs_single _ _ (by decide)).trans (fg_fs_of_lt s.dev 0 (by decide) (by decide))
  · refine gives_of_eq (f := drcDeepExit []) rfl (drcDeepExit_eq hdeep hheld) ⟨?_, fg_fs_of_lt _ 0 (by decide) (by decide), by simp⟩
    exact (drcState_fs 0 (by decide)).trans (drcState_fs_state (by decide))
  · exact gives_of_eq (f := drcTraining none counts) rfl (drcTraining_done hst hgood hheld) ⟨drcState_fs_state (by decide), rfl,
      fun k hk => sparseGet_diesTrained k.isLt hk, changes_onDrc (changes_fs changes_refl)⟩
  · refine gives_of_eq (f := drcTraining (some (ch.val, step.val)) counts) rfl (drcTraining_failed hst hgood)
      ⟨?_, ?_, fg_fs_of_lt _ 0 (by decide) (show step.val < 8 by omega), changes_fs (changes_fs (changes_fs changes_refl))⟩
    · rw [drcState_fs _ (by decide), drcState_fs _ (by decide), drcState_fs _ (by decide), hst]
    · rw [is_fs_single _ _ (by decide), is_fs_single _ _ (by decide)]
      exact is_fs_one _ (by decide) rfl
  · exact becomes_of_eq (f := zqCalibration) rfl (zqCalibration_eq hready)
  · refine gives_of_eq (f := dqsOscCheck die count) rfl (dqsOscCheck_eq die count hready) ?_
    by_cases hmoved : sparseGet 0 s.dev.drc.trained die < 64 * ((count : Int) - sparseGet 0 s.dev.drc.trained die).natAbs
    · rw [decide_eq_true hmoved, Laws.cond_true, if_pos hmoved]
      exact ⟨sparseGet_set_self _ _ _ _, rfl⟩
    · rw [decide_eq_false hmoved, Laws.cond_false, if_neg hmoved]
      exact ⟨rfl, rfl⟩

end Sys2Proof.Proofs
end

section
/-!
SUPPORT. The buffer DRAM's words as stored and read: bytes and their numbers, a word stored, and lines read whose words are clean
(11_buffer_dram.md R361 to R363).
-/

namespace Sys2Proof.Proofs

open Sys2Proof Sys2Proof.Machine Sys2Proof.Laws

/-! Bytes. -/

/-- The bytes of the number that bytes spell are those bytes. -/
theorem leBytes_leNat (bs : Bytes) : leBytes bs.length (leNat bs) = bs := by
  induction bs with
  | nil => rfl
  | cons b bs ih =>
    have hb := b.isLt
    have hhead : BitVec.ofNat 8 (b.toNat + 256 * leNat bs) = b := BitVec.eq_of_toNat_eq (by rw [BitVec.toNat_ofNat]; omega)
    have htail : (b.toNat + 256 * leNat bs) / 256 = leNat bs := by omega
    rw [List.length_cons, leNat, leBytes, hhead, htail, ih]

theorem leNat_lt (bs : Bytes) : leNat bs < 256 ^ bs.length := by
  induction bs with
  | nil => simp [leNat]
  | cons b bs ih =>
    have hb := b.isLt
    rw [leNat, List.length_cons, Nat.pow_succ]
    omega

theorem memRead_eq_map (m : List Host.Cell) (a n : Nat) : memRead m a n = (List.range n).map fun i => sparseGet 0#8 m (a + i) := by
  refine List.ext_getElem (by simp) fun i hi _ => ?_
  have hbyte := memRead_getD m a n i (by simpa using hi)
  rw [List.getD_eq_getElem _ _ hi] at hbyte
  simpa using hbyte

theorem memRead_append (m : List Host.Cell) (a n k : Nat) : memRead m a (n + k) = memRead m a n ++ memRead m (a + n) k := by
  rw [memRead_eq_map, memRead_eq_map, memRead_eq_map, List.range_add, List.map_append, List.map_map]
  simp [Function.comp_def, Nat.add_assoc]

/-- A line is its four words. -/
theorem memRead_line (m : List Host.Cell) (a : Nat) : memRead m a 64 =
    memRead m a 16 ++ (memRead m (a + 16) 16 ++ (memRead m (a + 32) 16 ++ memRead m (a + 48) 16)) := by
  rw [show 64 = 16 + (16 + (16 + 16)) from rfl, memRead_append, memRead_append, memRead_append]

/-- Two memories whose bytes are the same in a range read the same there. -/
theorem memRead_congr {m m' : List Host.Cell} {a n : Nat} (h : ∀ k, a ≤ k → k < a + n → sparseGet 0#8 m k = sparseGet 0#8 m' k) :
    memRead m a n = memRead m' a n := by
  rw [memRead_eq_map, memRead_eq_map]
  exact List.map_congr_left fun i hi => h _ (by omega) (by have := List.mem_range.mp hi; omega)

/-! The check bits fit their fields. -/

theorem eccColumns_lt {c : Nat} (h : c ∈ eccColumns) : c < 2 ^ 8 := by
  obtain h | h := List.mem_append.mp h
  · exact List.mem_range.mp (List.mem_filter.mp h).1
  · exact List.mem_range.mp (List.mem_filter.mp (List.mem_of_mem_take h)).1

theorem eccHalf_lt (x : Nat) : eccHalf x < 2 ^ 8 := by
  refine List.foldlRecOn (motive := (· < 2 ^ 8)) _ _ (by decide) fun c hc p hp => ?_
  split
  · exact Nat.xor_lt_two_pow hc (eccColumns_lt (List.of_mem_zip hp).1)
  · exact hc

theorem eccWord_lt (x : Nat) : eccWord x < 2 ^ 16 := by
  have hlow := eccHalf_lt (x % 2 ^ 64)
  have hhigh := eccHalf_lt (x / 2 ^ 64 % 2 ^ 64)
  unfold eccWord
  omega

section
variable {d e : Dev}

theorem storedWord_lt (w : Nat) : (d.storedWord w).1 < 2 ^ 128 ∧ (d.storedWord w).2 < 2 ^ 16 := by
  refine ⟨?_, Nat.xor_lt_two_pow (eccWord_lt _) (BitVec.isLt _)⟩
  have hlt := leNat_lt (memRead d.dram (16 * w) 16)
  rw [memRead_length] at hlt
  exact hlt

/-- The bytes of a stored word are those of its place. -/
theorem leBytes_storedWord (w : Nat) : leBytes 16 (d.storedWord w).1 = memRead d.dram (16 * w) 16 := by
  have hback := leBytes_leNat (memRead d.dram (16 * w) 16)
  rwa [memRead_length] at hback

/-- A word stored is what its place holds. -/
theorem storedWord_storeWord {w x chk : Nat} (hx : x < 2 ^ 128) (hchk : chk < 2 ^ 16) : (d.storeWord w x chk).storedWord w = (x, chk) := by
  have hread : memRead (memWrite d.dram (16 * w) (leBytes 16 x)) (16 * w) 16 = leBytes 16 x := by
    have hlen := memRead_memWrite d.dram (16 * w) (leBytes 16 x)
    rwa [leBytes_length] at hlen
  have hsum : eccWord x ^^^ chk < 2 ^ 16 := Nat.xor_lt_two_pow (eccWord_lt x) hchk
  unfold Dev.storedWord Dev.storeWord
  dsimp only
  rw [hread, leNat_leBytes, Nat.mod_eq_of_lt (show x < 256 ^ 16 from hx), sparseGet_set_self, BitVec.toNat_ofNat,
    Nat.mod_eq_of_lt hsum, syndrome_of_check]

/-- A word stored leaves every byte outside it. -/
theorem memRead_storeWord_outside {w x chk a : Nat} (h : a < 16 * w ∨ 16 * w + 16 ≤ a) :
    memRead (d.storeWord w x chk).dram a 1 = memRead d.dram a 1 :=
  memRead_congr fun k _ _ => by
    unfold Dev.storeWord
    rw [sparseGet_memWrite, leBytes_length, if_neg (by omega)]

/-! A line read whose words are clean. -/

/-- The DRAM holds in `e` what it holds in `d`, and everything beside it is the same. -/
structure Rewritten (d e : Dev) : Prop where
  bytes : ∀ a, sparseGet 0#8 e.dram a = sparseGet 0#8 d.dram a
  checks : ∀ w, sparseGet 0#16 e.dramChk w = sparseGet 0#16 d.dramChk w
  rest : e = { d with dram := e.dram, dramChk := e.dramChk }

theorem Rewritten.memRead (h : Rewritten d e) (a n : Nat) : memRead e.dram a n = memRead d.dram a n :=
  memRead_congr fun k _ _ => h.bytes k

theorem Rewritten.storedWord (h : Rewritten d e) (w : Nat) : e.storedWord w = d.storedWord w := by
  unfold Dev.storedWord
  rw [h.memRead, h.checks]

/-- A word written back as it was read. -/
theorem Rewritten.storeWord (h : Rewritten d e) (w : Nat) :
    Rewritten d (e.storeWord w (d.storedWord w).1 (d.storedWord w).2) := by
  obtain ⟨hbytes, hchecks, hrest⟩ := h
  refine ⟨fun a => ?_, fun v => ?_, ?_⟩
  · unfold Dev.storeWord
    rw [sparseGet_memWrite, leBytes_storedWord, memRead_length]
    split
    · next ha => rw [memRead_getD _ _ _ _ (by omega), show 16 * w + (a - 16 * w) = a by omega]
    · exact hbytes a
  · unfold Dev.storeWord
    rw [sparseGet_set, Dev.storedWord, syndrome_of_check, BitVec.ofNat_toNat, BitVec.setWidth_eq]
    split
    · next hv => rw [hv]
    · exact hchecks v
  · unfold Dev.storeWord
    rw [hrest]

/-- A word's two halves are without error. -/
abbrev CleanWord (d : Dev) (w : Nat) : Prop :=
  judgeHalf (syndromes (d.storedWord w).1 (d.storedWord w).2).1 = .clean ∧
    judgeHalf (syndromes (d.storedWord w).1 (d.storedWord w).2).2 = .clean

/-- A clean word read undisturbed is answered, and written back as it was (R363). -/
theorem drcWord_clean {src req w : Nat} (h : CleanWord d w) :
    drcWord src req w 0 d = (some (d.storedWord w).1, d.storeWord w (d.storedWord w).1 (d.storedWord w).2) := by
  obtain ⟨hlow, hhigh⟩ := h
  unfold drcWord
  simp only [Nat.zero_mod, Nat.zero_div, Nat.xor_zero, hlow, hhigh]

theorem drcLineWords_clean {src req : Nat} {ws : List Nat} {acc : Bytes} (h : Rewritten d e) (hclean : ∀ w ∈ ws, CleanWord d w) :
    ∃ u, Rewritten d u ∧
      drcLineWords src req [] ws acc e = (.inl (acc ++ ws.flatMap fun w => memRead d.dram (16 * w) 16), u) := by
  induction ws generalizing e acc with
  | nil => exact ⟨e, h, by simp [drcLineWords]⟩
  | cons w ws ih =>
    have hword : CleanWord e w := by
      unfold CleanWord
      rw [h.storedWord]
      exact hclean w (by simp)
    obtain ⟨u, hu, hrun⟩ := ih (acc := acc ++ memRead d.dram (16 * w) 16) (h.storeWord w) fun v hv => hclean v (by simp [hv])
    refine ⟨u, hu, ?_⟩
    unfold drcLineWords
    dsimp only
    rw [List.getD_nil, drcWord_clean hword, h.storedWord]
    dsimp only
    rw [leBytes_storedWord, hrun, List.flatMap_cons, List.append_assoc]

/-- A line whose words are clean is read whole. -/
theorem drcLine_clean {src req line : Nat} (hclean : ∀ k : Fin 4, CleanWord d (4 * line + k)) :
    ∃ u, Rewritten d u ∧ drcLine src req line [] d = (.inl (memRead d.dram (64 * line) 64), u) := by
  have hsame : Rewritten d d := ⟨fun _ => rfl, fun _ => rfl, rfl⟩
  obtain ⟨u, hu, hrun⟩ := drcLineWords_clean (src := src) (req := req) (ws := (List.range 4).map (4 * line + ·)) (acc := []) hsame
    fun w hw => by
      obtain ⟨k, hk, rfl⟩ := List.mem_map.mp hw
      exact hclean ⟨k, List.mem_range.mp hk⟩
  have hline : ((List.range 4).map (4 * line + ·)).flatMap (fun w => memRead d.dram (16 * w) 16) = memRead d.dram (64 * line) 64 := by
    simp [memRead_line, List.range_succ, Nat.mul_add, ← Nat.mul_assoc]
  exact ⟨u, hu, by rw [drcLine, hrun, List.nil_append, hline]⟩

theorem drcReadLine_clean {src req line : Nat} (hclean : ∀ k : Fin 4, CleanWord d (4 * line + k)) :
    ∃ u, Rewritten d u ∧ drcReadLine src req line [] d = (some (memRead d.dram (64 * line) 64), u) := by
  obtain ⟨u, hu, hline⟩ := drcLine_clean (src := src) (req := req) hclean
  exact ⟨u, hu, by rw [drcReadLine, hline]⟩

end

end Sys2Proof.Proofs
end

section
/-!
SUPPORT. Requests to the buffer DRAM: taken, issued and completed, the patrol scrub and the test port (11_buffer_dram.md R360, R363,
R366 to R370, R382; 12_fabric_cache.md R388, R389, R391): the obligation.
-/

namespace Sys2Proof.Proofs

open Sys2Proof Sys2Proof.Machine Sys2Proof.Laws

section
variable {d e : Dev} {r : DrcReq}

/-! A request presented (R360, R368, R370, R389). -/

theorem drcAccept_refused (h : d.refuses r.req = true) : drcAccept r d = { d with error := true } := if_pos h

theorem drcAccept_beyond (hserved : d.refuses r.req = false)
    (h : d.visible < r.addr + if r.write then r.data.length else r.len) :
    drcAccept r d = { (d.fs .DRC_STAT_RANGE 1) with error := true } := by
  unfold drcAccept
  dsimp only
  rw [if_neg (by simp [hserved]), if_pos h]

theorem drcAccept_frozen (hserved : d.refuses r.req = false)
    (hfits : r.addr + (if r.write then r.data.length else r.len) ≤ d.visible) (hfrozen : d.drcState = drcFrozen) :
    drcAccept r d = { d with error := true } := by
  unfold drcAccept
  dsimp only
  rw [if_neg (by simp [hserved]), if_neg (Nat.not_lt.mpr hfits), hfrozen, if_pos (by decide)]

/-- A request that gets no error response: its requester is served, it lies within the capacity, and the DRC is READY. -/
structure Admissible (r : DrcReq) (d : Dev) : Prop where
  served : d.refuses r.req = false
  fits : r.addr + (if r.write then r.data.length else r.len) ≤ d.visible
  ready : d.drcState = drcReady

/-- A request that is admissible waits at its port or enters its queue. -/
theorem Admissible.accepted (h : Admissible r d) : drcAccept r d =
    if !d.drcRoom r || d.orderWaits r || d.drc.held.any (·.port == r.port) then d.onDrc fun c => { c with held := c.held ++ [r] }
    else drcEnter r d := by
  obtain ⟨hserved, hfits, hready⟩ := h
  unfold drcAccept
  dsimp only
  rw [if_neg (by simp [hserved]), if_neg (Nat.not_lt.mpr hfits), hready, if_neg (by decide)]

/-- With nothing waiting at the ports a request is held back by its requester's unanswered reads alone. -/
theorem orderWaits_free (hheld : d.drc.held = []) (hfree : r.ordered = false ∨ ∀ q ∈ d.drc.reads ++ d.drc.inflight, q.req ≠ r.req) :
    d.orderWaits r = false := by
  unfold Dev.orderWaits
  rw [hheld]
  obtain hfree | hfree := hfree
  · rw [hfree, Bool.false_and]
  · have hnone : (d.drc.reads ++ d.drc.inflight).any (·.req == r.req) = false :=
      List.any_eq_false.mpr fun q hq => by simpa using hfree q hq
    rw [hnone]
    simp

theorem orderWaits_behind {q : DrcReq} (hordered : r.ordered = true) (hq : q ∈ d.drc.reads) (hreq : q.req = r.req) :
    d.orderWaits r = true := by
  have hany : (d.drc.reads ++ d.drc.inflight).any (·.req == r.req) = true :=
    List.any_eq_true.mpr ⟨q, List.mem_append_left _ hq, beq_iff_eq.mpr hreq⟩
  rw [Dev.orderWaits, hordered, hany]
  rfl

theorem Admissible.enters (h : Admissible r d) (hheld : d.drc.held = [])
    (hroom : d.queued (d.chOf r) r.write < if r.write then 64 else 48)
    (hfree : r.ordered = false ∨ ∀ q ∈ d.drc.reads ++ d.drc.inflight, q.req ≠ r.req) : drcAccept r d = drcEnter r d := by
  have hroom : d.drcRoom r = true := by simp [Dev.drcRoom, h.ready, hroom]
  rw [h.accepted, hroom, orderWaits_free hheld hfree, hheld]
  rfl

theorem Admissible.waits (h : Admissible r d) (hwaits : d.orderWaits r = true) :
    drcAccept r d = d.onDrc fun c => { c with held := c.held ++ [r] } := by
  rw [h.accepted, if_pos (by simp [hwaits])]

/-- The ranks asleep once a request for a location has come. -/
def wokenFor (l : Location) (asleep : List Nat) : List Nat := asleep.filter (· != 2 * l.ch + l.rank)

/-- A read that no queued write answers joins the queue. -/
theorem drcEnter_read (hread : r.write = false) (hopen : coveredBy r d.drc.writes = none) : drcEnter r d =
    { d with
      drc := { d.drc with reads := d.drc.reads ++ [r], asleep := wokenFor (locate d.ranks r.addr) d.drc.asleep }, error := false } := by
  have hopen : coveredBy r (wakeRank (locate d.ranks r.addr) d).drc.writes = none := hopen
  unfold drcEnter
  dsimp only
  rw [hread, hopen]
  rfl

theorem drcEnter_write (hwrite : r.write = true) : drcEnter r d =
    { d with
      drc := { d.drc with writes := d.drc.writes ++ [r], asleep := wokenFor (locate d.ranks r.addr) d.drc.asleep }, error := false } := by
  unfold drcEnter
  dsimp only
  rw [hwrite]
  rfl

/-! A request issued (R368, R369). -/

/-- From `d` to `e` the row of a location has been opened and a check line used, with what that does to the row-hammer tables. -/
structure RowOpened (l : Location) (d e : Dev) : Prop where
  row : sparseGet 0 e.drc.openRow l.bankKey = l.row + 1
  rest : e = d.onDrc fun c =>
    { c with openRow := e.drc.openRow, hammer := e.drc.hammer, targets := e.drc.targets, checks := e.drc.checks }

theorem rowOpened_useCheck (l : Location) (d : Dev) : RowOpened l d (useCheck l (openFor l d)) := by
  unfold useCheck openFor
  split
  · next hrow => exact ⟨beq_iff_eq.mp hrow, rfl⟩
  · unfold activate
    split
    · exact ⟨sparseGet_set_self 0 d.drc.openRow l.bankKey (l.row + 1), rfl⟩
    · exact ⟨sparseGet_set_self 0 d.drc.openRow l.bankKey (l.row + 1), rfl⟩

theorem RowOpened.regs {l : Location} (h : RowOpened l d e) : e.regs = d.regs := by rw [h.rest]; rfl

theorem RowOpened.storedWord {l : Location} (h : RowOpened l d e) (w : Nat) : e.storedWord w = d.storedWord w := by rw [h.rest]; rfl

/-- The only request of a channel is the one that nothing holds back. -/
theorem eligible_lone {ch : Nat} (hreads : d.drc.reads = [r]) (hwrites : d.drc.writes = []) (hch : d.chOf r = ch) :
    eligible d ch false = [r] := by simp [eligible, hreads, hwrites, hch]

theorem pickRequest_lone (cycle : Nat) : ∃ aged, pickRequest d [r] cycle = some (r, aged) := by
  unfold pickRequest
  dsimp only
  split
  · next q hq => exact ⟨true, by rw [List.mem_singleton.mp (List.mem_of_find?_eq_some hq)]⟩
  · split
    · next q hq => exact ⟨false, by rw [List.mem_singleton.mp (List.mem_of_find?_eq_some hq)]⟩
    · exact ⟨false, rfl⟩

/-- The channels whose write queue drains once one has no write. -/
def stopsDraining (ch : Nat) (c : Drc) : Drc := { c with draining := c.draining.filter (· != ch) ++ [] }

/-- The only request of a channel, a read, is issued, counted where it had grown old. -/
theorem drcSchedule_lone {ch : Nat} (cycle : Nat) (hready : d.drcState = drcReady) (hheld : d.drc.held = [])
    (hreads : d.drc.reads = [r]) (hwrites : d.drc.writes = []) (hch : d.chOf r = ch)
    (htargets : ∀ b < 16, sparseGet [] d.drc.targets (16 * ch + b) = []) :
    ∃ aged, drcSchedule ch cycle d = drcIssue r ((d.onDrc (stopsDraining ch)).cond aged fun d => d.bump .DRC_CNT_AGE) := by
  have hnone : (List.range 16).find? (fun b => !(sparseGet [] d.drc.targets (16 * ch + b)).isEmpty) = none :=
    List.find?_eq_none.mpr fun b hb => by simp [htargets b (List.mem_range.mp hb)]
  have hdrains : drains d ch = false := by simp [drains, Dev.queued, hwrites]
  have hdrained : (d.onDrc fun c => { c with draining := c.draining.filter (· != ch) ++ if false = true then [ch] else [] }) =
      d.onDrc (stopsDraining ch) := rfl
  have hpool : eligible (d.onDrc (stopsDraining ch)) ch false = [r] := eligible_lone hreads hwrites hch
  obtain ⟨aged, hpick⟩ := pickRequest_lone (d := d.onDrc (stopsDraining ch)) (r := r) cycle
  refine ⟨aged, ?_⟩
  unfold drcSchedule
  dsimp only
  rw [if_neg (by simp [hready]), hnone, hdrains]
  dsimp only
  rw [hdrained, hpool, if_neg (by simp), hpick]
  show drcTakeHeld (List.length d.drc.held) _ = _
  rw [hheld]
  rfl

/-- A read issued awaits its completion, its row open. -/
theorem drcIssue_read (h : r.write = false) : ∃ u, RowOpened (locate d.ranks r.addr) d u ∧
    drcIssue r d = u.onDrc fun c => { c with reads := c.reads.erase r, inflight := c.inflight ++ [r] } :=
  ⟨_, rowOpened_useCheck _ _, by unfold drcIssue; dsimp only; rw [h]; rfl⟩

/-- The only request of a channel, a read, goes in flight with its row open; the DRAM is left as it is. -/
theorem drcSchedule_issues {ch : Nat} (cycle : Nat) (hready : d.drcState = drcReady) (hheld : d.drc.held = [])
    (hreads : d.drc.reads = [r]) (hwrites : d.drc.writes = []) (hread : r.write = false) (hch : d.chOf r = ch)
    (htargets : ∀ b < 16, sparseGet [] d.drc.targets (16 * ch + b) = []) :
    (drcSchedule ch cycle d).drc.reads = [] ∧ (drcSchedule ch cycle d).drc.inflight = d.drc.inflight ++ [r] ∧
      sparseGet 0 (drcSchedule ch cycle d).drc.openRow (locate d.ranks r.addr).bankKey = (locate d.ranks r.addr).row + 1 ∧
      (drcSchedule ch cycle d).dram = d.dram ∧ (drcSchedule ch cycle d).dramChk = d.dramChk := by
  obtain ⟨aged, hscheduled⟩ := drcSchedule_lone cycle hready hheld hreads hwrites hch htargets
  obtain ⟨e, he⟩ : ∃ e, e = (d.onDrc (stopsDraining ch)).cond aged fun d => d.bump .DRC_CNT_AGE := ⟨_, rfl⟩
  have hdrc : e.drc = stopsDraining ch d.drc := he ▸ cond_eq (·.drc) fun _ => rfl
  have hranks : e.ranks = d.ranks :=
    he ▸ cond_eq Dev.ranks fun d => congrArg (· + 1) (fg_wr_ne d (x := .DRC_CFG_RANKS) _ (by decide))
  have hdram : e.dram = d.dram := he ▸ cond_eq (·.dram) fun _ => rfl
  have hchecks : e.dramChk = d.dramChk := he ▸ cond_eq (·.dramChk) fun _ => rfl
  obtain ⟨u, ⟨hrow, hrest⟩, hissued⟩ := drcIssue_read (d := e) hread
  have hqueue : u.drc.reads = [r] := by rw [hrest, onDrc_drc, hdrc]; exact hreads
  have hinflight : u.drc.inflight = d.drc.inflight := by rw [hrest, onDrc_drc, hdrc]; rfl
  rw [hscheduled, ← he, hissued, onDrc_drc]
  refine ⟨?_, ?_, hranks ▸ hrow, ?_, ?_⟩
  · rw [hqueue, List.erase_cons_head]
  · rw [hinflight]
  · rw [hrest]
    exact hdram
  · rw [hrest]
    exact hchecks

/-! A read completed (R363, R382). -/

theorem Rewritten.drc (h : Rewritten d e) : e.drc = d.drc := by rw [h.rest]
theorem Rewritten.regs (h : Rewritten d e) : e.regs = d.regs := by rw [h.rest]

/-- The bytes that a read asks for, of its line. -/
def answerTo (r : DrcReq) (d : Dev) : Bytes := ((memRead d.dram (64 * r.line) 64).drop (r.addr % 64)).take r.len

theorem completeRead_clean (hclean : ∀ k : Fin 4, CleanWord d (4 * r.line + k)) :
    ∃ u, Rewritten (d.onDrc fun c => { c with inflight := c.inflight.erase r }) u ∧
      completeRead r [] d = (none, { u with answer := answerTo r d, error := false }) := by
  obtain ⟨u, hu, hline⟩ := drcLine_clean (src := 0) (req := r.req) (line := r.line)
    (d := d.onDrc fun c => { c with inflight := c.inflight.erase r }) hclean
  refine ⟨u, hu, ?_⟩
  unfold completeRead
  dsimp only
  rw [hline]
  rfl

/-- The only read in flight, its words clean, is completed on channel 0. -/
theorem drcReadComplete_lone (hready : d.drcState = drcReady) (hheld : d.drc.held = []) (hinflight : d.drc.inflight = [r])
    (hch : d.chOf r = 0) (hclean : ∀ k : Fin 4, CleanWord d (4 * r.line + k)) :
    ∃ u, Rewritten (d.onDrc fun c => { c with inflight := c.inflight.erase r }) u ∧
      drcReadComplete (some []) none d = { u with answer := answerTo r d, error := false } := by
  obtain ⟨u, hu, hcomplete⟩ := completeRead_clean hclean
  have holdest : oldestRead d 0 = some r := by simp [oldestRead, hinflight, hch]
  have hnone : u.drc.held = [] := by rw [hu.drc]; exact hheld
  refine ⟨u, hu, ?_⟩
  unfold drcReadComplete
  dsimp only
  rw [if_neg (by simp [hready]), holdest]
  dsimp only
  rw [hcomplete]
  exact drcTakeHeld_none (d := { u with answer := answerTo r d, error := false }) hnone

/-! The patrol scrub (R366). -/

/-- The scrub yields to a queued read of the channel that its line lies in. -/
theorem scrubRead_yields {flips : List Nat} (h : 0 < d.queued (locate d.ranks (64 * d.fg .DRC_SCRUB_POS)).ch false) :
    scrubRead flips d = d := by
  unfold scrubRead
  refine if_pos ?_
  simp only [Bool.or_eq_true, bne_iff_ne]
  exact .inr (by omega)

/-- With nothing queued the scrub reads a line whose words are clean and moves on to the next. -/
theorem scrubRead_idle (hready : d.drcState = drcReady) (hen : d.is .DRC_CTL_SCRUB_EN = true) (hreads : d.drc.reads = [])
    (hwrites : d.drc.writes = []) (hmore : 64 * (d.fg .DRC_SCRUB_POS + 2) ≤ d.visible)
    (hclean : ∀ k : Fin 4, CleanWord d (4 * d.fg .DRC_SCRUB_POS + k)) :
    ∃ u : Dev, u.regs = d.regs ∧ scrubRead [] d = u.fs .DRC_SCRUB_POS (d.fg .DRC_SCRUB_POS + 1) := by
  generalize hpos : d.fg .DRC_SCRUB_POS = pos at *
  obtain ⟨e, he⟩ : ∃ e, e = useCheck (locate d.ranks (64 * pos)) (openFor (locate d.ranks (64 * pos))
    (wakeRank (locate d.ranks (64 * pos)) d)) := ⟨_, rfl⟩
  have hopened : RowOpened _ _ e := he ▸ rowOpened_useCheck _ _
  obtain ⟨u, hu, hline⟩ := drcReadLine_clean (d := e) (src := 2) (req := 0) (line := pos) fun k => by
    unfold CleanWord
    rw [hopened.storedWord]
    exact hclean k
  have hidle : ∀ ch write, d.queued ch write = 0 := fun ch write => by cases write <;> simp [Dev.queued, hreads, hwrites]
  refine ⟨u, hu.regs.trans hopened.regs, ?_⟩
  unfold scrubRead
  dsimp only
  rw [hpos, if_neg (by simp [hready, hen, hidle]), if_neg (show ¬ d.visible / 64 ≤ pos by omega), ← he, hline]
  dsimp only
  rw [if_neg (by simp), if_pos (show pos + 1 < d.visible / 64 by omega)]

/-- The position of the next line to scrub fits its register, for the capacity has at most 2 ^ 36 bytes. -/
theorem scrubPos_succ_lt {pos : Nat} (h : 64 * (pos + 2) ≤ d.visible) : pos + 1 < 2 ^ 32 := by
  have hcap : d.fg .DRC_CFG_CAP < 2 ^ 16 := bitsOf_lt _ _ _
  unfold Dev.visible Dev.visibleMiB at h
  omega

/-! The test port (R367). -/

theorem testPortOn_of_mode (hen : d.is .DRC_TEST_CTL_EN = true) (hmode : d.mode = 6 ∨ d.mode = 7) : testPortOn d = true := by
  obtain hmode | hmode := hmode <;> rw [testPortOn, hen, hmode] <;> rfl

/-- With no write queued there is none to make before a direct access. -/
theorem settled_none (hwrites : d.drc.writes = []) (b : Bool) (line : Nat) : d.cond b (drcSettle line) = d := by
  have hnone : drcSettle line d = d := by
    unfold drcSettle
    rw [hwrites]
    rfl
  cases b
  · rfl
  · exact hnone

/-- The data of the test port as one number. -/
def testWord (d : Dev) : Nat := ((List.range 4).map fun k => d.fg .DRC_TEST_DATA k <<< (32 * k)).sum

theorem testWord_lt : testWord d < 2 ^ 128 := by
  have hfield : ∀ k, d.fg .DRC_TEST_DATA k < 2 ^ 32 := fun k => bitsOf_lt _ _ _
  have hpair : ∀ {a b n : Nat}, a < 2 ^ n → b < 2 ^ 32 → a + b <<< n < 2 ^ (n + 32) := fun {a b n} ha hb => by
    have hab : a + 2 ^ n * b < 2 ^ n * (b + 1) := by rw [Nat.mul_succ]; omega
    rw [Nat.shiftLeft_eq, Nat.mul_comm b, Nat.pow_add]
    exact hab.trans_le (Nat.mul_le_mul_left _ hb)
  have hsum : testWord d = d.fg .DRC_TEST_DATA 0 + d.fg .DRC_TEST_DATA 1 <<< 32 + d.fg .DRC_TEST_DATA 2 <<< 64 +
      d.fg .DRC_TEST_DATA 3 <<< 96 := by simp [testWord, List.range_succ, Nat.add_assoc]
  rw [hsum]
  exact hpair (hpair (hpair (hfield 0) (hfield 1)) (hfield 2)) (hfield 3)

theorem rawWrite_eq (hon : testPortOn d = true) (hfits : 16 * d.fg .DRC_TEST_ADDR < d.visible) (hwrites : d.drc.writes = []) :
    rawWrite d = ((d.storeWord (d.fg .DRC_TEST_ADDR) (testWord d) (d.fg .DRC_TEST_CHK_CHK)).fs .DRC_TEST_CTL_OP 1).fs
      .DRC_TEST_CTL_DONE 1 := by
  unfold rawWrite
  dsimp only
  rw [if_neg (by simp [hon, hfits]), settled_none hwrites]
  rfl

/-- The test port's data registers holding a word. -/
def testDataSet (x : Nat) (d : Dev) : Dev := d.each (List.range 4) fun d k => d.fs .DRC_TEST_DATA (bitsOf x (32 * k) 32) k

theorem fg_testDataSet {x k : Nat} (hk : k < 4) : (testDataSet x d).fg .DRC_TEST_DATA k = bitsOf x (32 * k) 32 := by
  have hkey : ∀ i, Reg.DRC_TEST_DATA.key i 0 = Reg.DRC_TEST_DATA.key 0 0 + 4 * i := fun i => by
    simp [Reg.key, Reg.DRC_TEST_DATA]
    omega
  have hset : ∀ (e : Dev) (i : Nat), (e.fs .DRC_TEST_DATA (bitsOf x (32 * i) 32) i).fg .DRC_TEST_DATA i = bitsOf x (32 * i) 32 :=
    fun e i => fg_fs_of_lt e i (by decide) (bitsOf_lt _ _ _)
  refine (each_gives (I := fun _ => True) (Q := fun i e => e.fg .DRC_TEST_DATA i = bitsOf x (32 * i) 32) (l := List.range 4) trivial
    (fun _ _ _ _ => trivial) (fun e i _ _ => hset e i) fun e i _ j _ hj => ?_).2 k (List.mem_range.mpr hk)
  by_cases hij : i = j
  · exact hij ▸ hset e i
  · have hapart : Reg.DRC_TEST_DATA.key i 0 ≠ Reg.DRC_TEST_DATA.key j 0 := by
      rw [hkey i, hkey j]
      omega
    exact (fg_fs_ne e .DRC_TEST_DATA .DRC_TEST_DATA _ i 0 j 0 hapart).trans hj

theorem regsOnly_testDataSet (x : Nat) (d : Dev) : testDataSet x d = { d with regs := (testDataSet x d).regs } :=
  each_inv (P := fun e => e = { d with regs := e.regs }) rfl fun _ _ _ he => regsOnly_fs he

/-- What a raw read of a word leaves: its data, its check bits and its syndromes in the registers. -/
def rawReadDone (st : Nat × Nat) (d : Dev) : Dev :=
  (((((testDataSet st.1 d).fs .DRC_TEST_CHK_CHK st.2).fs .DRC_TEST_CHK_SYND0 (syndromes st.1 st.2).1).fs .DRC_TEST_CHK_SYND1
    (syndromes st.1 st.2).2).fs .DRC_TEST_CTL_OP 2).fs .DRC_TEST_CTL_DONE 1

theorem rawRead_eq (hon : testPortOn d = true) (hfits : 16 * d.fg .DRC_TEST_ADDR < d.visible) (hwrites : d.drc.writes = []) :
    rawRead d = rawReadDone (d.storedWord (d.fg .DRC_TEST_ADDR)) d := by
  unfold rawRead
  dsimp only
  rw [if_neg (by simp [hon, hfits]), settled_none hwrites]
  rfl

theorem fg_rawReadDone_data {st : Nat × Nat} {k : Nat} (hk : k < 4) :
    (rawReadDone st d).fg .DRC_TEST_DATA k = bitsOf st.1 (32 * k) 32 := by
  have hkey : ∀ k < 4, Reg.DRC_TEST_CHK.key 0 0 ≠ Reg.DRC_TEST_DATA.key k 0 ∧ Reg.DRC_TEST_CTL.key 0 0 ≠ Reg.DRC_TEST_DATA.key k 0 := by
    decide
  obtain ⟨hchk, hctl⟩ := hkey k hk
  have hbeside : ∀ (e : Dev) (x : Fld) (v : Nat), x.reg = .DRC_TEST_CHK ∨ x.reg = .DRC_TEST_CTL →
      (e.fs x v).fg .DRC_TEST_DATA k = e.fg .DRC_TEST_DATA k := fun e x v hx =>
    fg_fs_ne e x _ v 0 0 k 0 (by obtain hx | hx := hx <;> rw [hx] <;> assumption)
  rw [rawReadDone, hbeside _ _ _ (.inr rfl), hbeside _ _ _ (.inr rfl), hbeside _ _ _ (.inl rfl), hbeside _ _ _ (.inl rfl),
    hbeside _ _ _ (.inl rfl), fg_testDataSet hk]

theorem fg_rawReadDone_chk {st : Nat × Nat} (hst : st.2 < 2 ^ 16) : (rawReadDone st d).fg .DRC_TEST_CHK_CHK = st.2 := by
  rw [rawReadDone, fg_fs_single _ _ (by decide), fg_fs_single _ _ (by decide), fg_fs_single _ _ (by decide),
    fg_fs_single _ _ (by decide)]
  exact fg_fs_of_lt _ 0 (by decide) hst

theorem regsOnly_rawReadDone (st : Nat × Nat) : rawReadDone st d = { d with regs := (rawReadDone st d).regs } :=
  regsOnly_fs (regsOnly_fs (regsOnly_fs (regsOnly_fs (regsOnly_fs (regsOnly_testDataSet st.1 d)))))

/-! Urgency (R391). -/

theorem requestUrgent_waiting {req : Nat} {second : Bool} (hcalm : 2 * req + bit second ∉ d.fbc.urgent)
    (hheld : (d.drc.held.any fun r => r.port == 2 * req + bit second) = true) : requestUrgent req second d =
      ({ d with fbc := { d.fbc with urgent := d.fbc.urgent ++ [2 * req + bit second] } }).bump .FBC_CNT_URGENT := by
  have hcalm : d.fbc.urgent.contains (2 * req + bit second) = false := by simpa using hcalm
  exact if_neg (by rw [DrcReq.port, hcalm, hheld]; decide)

end

/-- Settles O26: each clause by what its command makes of the queues, the DRAM and the registers. A read whose words are clean writes them
back as they were, so that the words read after it are those stored before. -/
theorem dramRequests : Obligations.DramRequests := by
  unfold Obligations.DramRequests
  refine ⟨fun req second ordered addr len cycle s ⟨hserved, hfits, hready, hheld⟩ hroom hfree hopen => ?_,
    fun req second ordered addr cycle data s ⟨hserved, hfits, hready, hheld⟩ hroom hfree => ?_,
    fun req second addr len cycle r s ⟨hserved, hfits, hready⟩ ⟨hr, hreq⟩ => ?_,
    fun req second isWrite ordered addr len cycle data s hrefused => ?_,
    fun req second ordered addr len cycle s ⟨hserved, hbeyond⟩ => ?_,
    fun req second ordered addr len cycle s ⟨hserved, hfits, hfrozen⟩ => ?_,
    fun ch cycle r s ⟨hready, hheld⟩ ⟨hreads, hwrites, hread⟩ hch htargets => ?_,
    fun r s ⟨hready, hheld⟩ ⟨hinflight, hch⟩ hclean => ?_, fun flips s hqueued => ?_,
    fun s ⟨hready, hen, hreads, hwrites⟩ hmore hclean => ?_, fun s ⟨hen, hmode⟩ ⟨hfits, hwrites⟩ => ?_,
    fun s ⟨hen, hmode⟩ ⟨hfits, hwrites⟩ => ?_, fun req second s hcalm hheld => ?_⟩
  · have hadmissible : Admissible { req := req, second := second, addr := addr, len := len, cycle := cycle, ordered := ordered } s.dev :=
      ⟨hserved, hfits, hready⟩
    exact gives_of_eq (f := drcAccept _) rfl ((hadmissible.enters hheld hroom hfree).trans (drcEnter_read rfl hopen)) ⟨rfl, rfl, rfl⟩
  · have hadmissible : Admissible
        { req := req, second := second, write := true, addr := addr, data := data, cycle := cycle, ordered := ordered } s.dev :=
      ⟨hserved, hfits, hready⟩
    exact gives_of_eq (f := drcAccept _) rfl ((hadmissible.enters hheld hroom hfree).trans (drcEnter_write rfl)) ⟨rfl, rfl⟩
  · have hadmissible : Admissible { req := req, second := second, addr := addr, len := len, cycle := cycle, ordered := true } s.dev :=
      ⟨hserved, hfits, hready⟩
    exact becomes_of_eq (f := drcAccept _) rfl (hadmissible.waits (orderWaits_behind rfl hr hreq))
  · exact becomes_of_eq (f := drcAccept _) rfl (drcAccept_refused hrefused)
  · exact becomes_of_eq (f := drcAccept _) rfl (drcAccept_beyond hserved hbeyond)
  · exact becomes_of_eq (f := drcAccept _) rfl (drcAccept_frozen hserved hfits hfrozen)
  · exact gives_of_eq (f := drcSchedule ch cycle) rfl (Eq.refl _)
      (drcSchedule_issues cycle hready hheld hreads hwrites hread hch fun b hb => htargets ⟨b, hb⟩)
  · obtain ⟨u, hu, hcompleted⟩ := drcReadComplete_lone hready hheld hinflight hch hclean
    refine gives_of_eq (f := drcReadComplete (some []) none) rfl hcompleted ⟨?_, rfl, rfl⟩
    show u.drc.inflight = []
    rw [hu.drc, onDrc_drc, hinflight, List.erase_cons_head]
  · exact becomes_of_eq (f := scrubRead flips) rfl (scrubRead_yields hqueued)
  · obtain ⟨u, hregs, hscrubbed⟩ := scrubRead_idle hready hen hreads hwrites hmore hclean
    have hsame : ∀ (r : Reg), u.rd r = s.dev.rd r := fun r => by rw [Dev.rd, Dev.rd, hregs]
    refine gives_of_eq (f := scrubRead []) rfl hscrubbed ⟨fg_fs_of_lt u 0 (by decide) (scrubPos_succ_lt hmore), ?_, ?_⟩
    · rw [drcState_fs _ (by decide), ← hready, Dev.drcState, Dev.drcState, Dev.fg, Dev.fg, hsame]
    · exact (rd_wr_ne _ _ _ _ _ _ _ _ (by decide)).trans (hsame _)
  · have hchk : s.dev.fg .DRC_TEST_CHK_CHK < 2 ^ 16 := bitsOf_lt _ _ _
    exact gives_of_eq (f := rawWrite) rfl (rawWrite_eq (testPortOn_of_mode hen hmode) hfits hwrites)
      ⟨fg_fs_of_lt _ 0 (by decide) (by decide), storedWord_storeWord testWord_lt hchk,
        fun a ha => memRead_storeWord_outside (chk := s.dev.fg .DRC_TEST_CHK_CHK) ha, changes_fs (changes_fs ⟨fun _ _ => rfl, rfl⟩)⟩
  · exact gives_of_eq (f := rawRead) rfl (rawRead_eq (testPortOn_of_mode hen hmode) hfits hwrites)
      ⟨fg_fs_of_lt _ 0 (by decide) (by decide), fun k => fg_rawReadDone_data k.isLt, fg_rawReadDone_chk (storedWord_lt _).2,
        regsOnly_rawReadDone _⟩
  · exact becomes_of_eq (f := requestUrgent req second) rfl (requestUrgent_waiting hcalm hheld)

end Sys2Proof.Proofs
end

section
/-!
SUPPORT. The fabric cache: reads and writes of held lines, prefetch and the cache operations (12_fabric_cache.md R388, R394, R395, R397 to
R401, R405 to R407): the obligation.
-/

namespace Sys2Proof.Proofs

open Sys2Proof Sys2Proof.Machine Sys2Proof.Laws

section
variable {d e : Dev}

/-! The ways of a set, and the way in which a line hits (R394, R395). -/

theorem way_setWay_self (set w : Nat) (l : CacheLine) : (d.setWay set w l).way set w = l := sparseGet_set_self _ _ _ _

theorem way_setWay_ne {set w k : Nat} {l : CacheLine} (h : k ≠ w) : (d.setWay set w l).way set k = d.way set k :=
  sparseGet_set_ne _ _ _ (by omega)

theorem way_of_lines (h : e.fbc.lines = d.fbc.lines) (set w : Nat) : e.way set w = d.way set w := by
  unfold Dev.way
  rw [h]

/-- Whether a line hits depends on which ways of its set are valid, and on their tags. -/
theorem hit_congr {line : Nat} (h : ∀ w, (e.way (setOf line) w).valid = (d.way (setOf line) w).valid ∧
    (e.way (setOf line) w).tag = (d.way (setOf line) w).tag) : e.hit line = d.hit line := by
  have hsame : (fun w => (e.way (setOf line) w).valid && (e.way (setOf line) w).tag == tagOf line) =
      fun w => (d.way (setOf line) w).valid && (d.way (setOf line) w).tag == tagOf line :=
    funext fun w => by rw [(h w).1, (h w).2]
  exact congrArg (List.range 16).find? hsame

theorem hit_of_lines (h : e.fbc.lines = d.fbc.lines) (line : Nat) : e.hit line = d.hit line :=
  hit_congr fun w => by rw [way_of_lines h]; exact ⟨rfl, rfl⟩

/-- A way that is rewritten for the line it holds still holds it. -/
theorem hit_setWay_sameTag {line w : Nat} {l : CacheLine} (hvalid : l.valid = (d.way (setOf line) w).valid)
    (htag : l.tag = (d.way (setOf line) w).tag) : (d.setWay (setOf line) w l).hit line = d.hit line := by
  refine hit_congr fun k => ?_
  by_cases hk : k = w
  · rw [hk, way_setWay_self]
    exact ⟨hvalid, htag⟩
  · rw [way_setWay_ne hk]
    exact ⟨rfl, rfl⟩

/-- Where no line of the cache is dirty, no way is: a way without an entry is the empty one. -/
theorem way_clean (h : ∀ e ∈ d.fbc.lines, e.2.dirty = false) (set w : Nat) : (d.way set w).dirty = false := by
  unfold Dev.way
  generalize d.fbc.lines = m at h
  induction m with
  | nil => rfl
  | cons e m ih =>
    unfold sparseGet
    split
    · exact h e (by simp)
    · exact ih fun x hx => h x (by simp [hx])

/-! Bytes written over a line's. -/

/-- A line's bytes with some written over them from an offset on. -/
def overwritten (o : Nat) (b old : Bytes) : Bytes := old.take o ++ b ++ old.drop (o + b.length)

variable {o : Nat} {b old : Bytes}

theorem overwritten_length (h : o + b.length ≤ old.length) : (overwritten o b old).length = old.length := by
  simp [overwritten]
  omega

theorem take_overwritten (h : o + b.length ≤ old.length) : (overwritten o b old).take o = old.take o := by
  rw [overwritten, List.append_assoc, List.take_left' (List.length_take_of_le (by omega))]

theorem written_overwritten (h : o + b.length ≤ old.length) : ((overwritten o b old).drop o).take b.length = b := by
  rw [overwritten, List.append_assoc, List.drop_left' (List.length_take_of_le (by omega)), List.take_left]

/-! Accesses of a line that the cache holds (R395, R397). -/

/-- An access to an address hits in a way: its requester is served, the cache is enabled and past its invalidation, and that way holds
the line. -/
structure HitsIn (req addr way : Nat) (d : Dev) : Prop where
  served : d.refuses req = false
  enabled : d.is .FBC_CTL_EN = true
  idle : d.is .FBC_STAT_BUSY = false
  hit : d.hit (addr / 64) = some way

variable {req addr way : Nat}

theorem cacheReset_idle (h : d.is .FBC_STAT_BUSY = false) : cacheReset d = d := by rw [cacheReset, h, Laws.cond_false]

theorem cacheError_none (line : Nat) : cacheError .none line d = d := rfl

theorem cacheRead_refused {len : Nat} {discard : Bool} {err : CacheError} (h : d.refuses req = true) :
    cacheRead req addr len discard err d = { d with error := true } := if_pos h

theorem cacheWrite_refused {data : Bytes} {err : CacheError} {idle : Bool} (h : d.refuses req = true) :
    cacheWrite req addr data err idle d = { d with error := true } := if_pos h

theorem HitsIn.lineRead (h : HitsIn req addr way d) : lineRead req (addr / 64) false d =
    (some (d.way (setOf (addr / 64)) way).data, { countRead req (addr / 64) d with error := false }) := by
  obtain ⟨-, hen, hidle, hhit⟩ := h
  have hcounted : (countRead req (addr / 64) d).hit (addr / 64) = some way := (hit_of_lines rfl _).trans hhit
  unfold Machine.lineRead
  dsimp only
  rw [if_neg (by simp [hen]), cacheReset_idle hidle, hcounted]
  rfl

theorem HitsIn.cacheRead (h : HitsIn req addr way d) (len : Nat) : cacheRead req addr len false .none d =
    { countRead req (addr / 64) d with
      answer := ((d.way (setOf (addr / 64)) way).data.drop (addr % 64)).take len, error := false } := by
  unfold Machine.cacheRead
  dsimp only
  rw [if_neg (by simp [h.served]), h.enabled, Laws.cond_true, cacheError_none, h.lineRead]

/-- A held line with bytes written over it, dirty. -/
def storedInto (addr : Nat) (data : Bytes) (l : CacheLine) : CacheLine :=
  { l with dirty := true, data := overwritten (addr % 64) data l.data }

/-- The unit after a write that hit in a way: that way rewritten, with what `c` says of the cache beside its lines. -/
def storedAt (c : Fbc) (addr way : Nat) (data : Bytes) (d : Dev) : Dev :=
  { ({ d with fbc := c }.setWay (setOf (addr / 64)) way (storedInto addr data (d.way (setOf (addr / 64)) way))) with error := false }

variable {c : Fbc}

/-- The detectors and the side buffer decide no hit. -/
theorem HitsIn.withFbc (h : HitsIn req addr way d) (hc : c.lines = d.fbc.lines) : HitsIn req addr way { d with fbc := c } := by
  obtain ⟨hserved, hen, hidle, hhit⟩ := h
  exact ⟨hserved, hen, hidle, (hit_of_lines hc _).trans hhit⟩

theorem HitsIn.lineWrite (h : HitsIn req addr way d) (data : Bytes) :
    ∃ c : Fbc, c.lines = d.fbc.lines ∧ lineWrite req addr data d = (true, storedAt c addr way data d) := by
  obtain ⟨-, hen, hidle, hhit⟩ := h
  unfold Machine.lineWrite
  extract_lets +onlyGivenNames line fresh full counted e o merge
  have hfresh : fresh = d := cacheReset_idle hidle
  clear_value fresh
  subst hfresh
  have hnoted : e = { fresh with fbc := e.fbc } := rfl
  have hlines : e.fbc.lines = fresh.fbc.lines := rfl
  have hheld : e.hit line = some way := (hit_of_lines hlines _).trans hhit
  have hway := way_of_lines hlines (setOf line) way
  have hmerge : merge = overwritten o data := rfl
  clear_value e merge
  refine ⟨e.fbc, hlines, (if_neg (by simp [hen])).trans ?_⟩
  rw [hheld, hmerge]
  dsimp only
  rw [hway, storedAt, storedInto, ← hnoted]

/-- The requester's count of stores starts again where it has written nothing for a while (R400). -/
theorem storesForgotten_eq (idle : Bool) (req : Nat) (d : Dev) : ∃ c : Fbc, c.lines = d.fbc.lines ∧
    (d.cond idle fun d => d.onFbc fun c => { c with wrCount := sparseSet 0 c.wrCount req 0 }) = { d with fbc := c } := by
  cases idle
  · exact ⟨d.fbc, rfl, rfl⟩
  · exact ⟨{ d.fbc with wrCount := sparseSet 0 d.fbc.wrCount req 0 }, rfl, rfl⟩

theorem HitsIn.cacheWrite (h : HitsIn req addr way d) (data : Bytes) (idle : Bool) :
    ∃ c : Fbc, c.lines = d.fbc.lines ∧ cacheWrite req addr data .none idle d = storedAt c addr way data d := by
  obtain ⟨c, hc, hforgotten⟩ := storesForgotten_eq (idle && d.is .FBC_CTL_EN) req d
  have hstill : HitsIn req addr way { d with fbc := c } := h.withFbc hc
  obtain ⟨c', hc', hwritten⟩ := hstill.lineWrite data
  refine ⟨c', hc'.trans hc, ?_⟩
  unfold Machine.cacheWrite
  dsimp only
  rw [if_neg (by simp [h.served]), hforgotten, hstill.enabled, Laws.cond_true, cacheError_none, hwritten]
  unfold storedAt
  rw [way_of_lines (d := d) hc]

theorem way_storedAt (data : Bytes) :
    (storedAt c addr way data d).way (setOf (addr / 64)) way = storedInto addr data (d.way (setOf (addr / 64)) way) :=
  way_setWay_self _ _ _

/-- The line written is held where it was. -/
theorem HitsIn.storedAt (h : HitsIn req addr way d) (hc : c.lines = d.fbc.lines) (data : Bytes) :
    HitsIn req addr way (storedAt c addr way data d) := by
  have hway := way_of_lines (e := { d with fbc := c }) (d := d) hc (setOf (addr / 64)) way
  obtain ⟨hserved, hen, hidle, hhit⟩ := h.withFbc hc
  refine ⟨hserved, hen, hidle, ?_⟩
  have hkept := hit_setWay_sameTag (d := { d with fbc := c }) (line := addr / 64) (w := way)
    (l := storedInto addr data (d.way (setOf (addr / 64)) way)) (by rw [hway]; rfl) (by rw [hway]; rfl)
  exact (hit_of_lines rfl _).trans (hkept.trans hhit)

/-! Prefetch (R401). -/

/-- The unit with a line fetched into the side buffer, where the DRAM gave it. -/
def fetched (line : Nat) (r : Option Bytes × Dev) : Dev :=
  match r.1 with
  | some b => { r.2 with fbc := { r.2.fbc with side := ((line, b) :: r.2.fbc.side).take 32 } }
  | none => r.2

/-- With one line to fetch, a requester that has read enough in order has the line after its last read fetched, where neither the cache
nor the side buffer holds it. -/
theorem prefetch_one {next : Nat} {r : Option Bytes × Dev} (hen : d.is .FBC_CTL_EN = true) (hready : d.drcState = drcReady)
    (htrig : 0 < d.fg .FBC_PF_TRIG) (hcount : d.fg .FBC_PF_TRIG ≤ sparseGet 0 d.fbc.rdCount req)
    (hnext : sparseGet 0 d.fbc.rdNext req = next) (hpos : 0 < next) (hdepth : d.fg .FBC_PF_DEPTH = 1) (hfits : 64 * next ≤ d.visible)
    (hmiss : d.hit (next - 1) = none) (hside : d.fbc.side = []) (hread : dramRead req (next - 1) d = r) :
    prefetch req d = fetched (next - 1) r := by
  have hthawed : d.cacheFrozen = false := by rw [Dev.cacheFrozen, hready]; rfl
  have hone : List.range (limitN 0 32 1) = [0] := rfl
  unfold prefetch
  extract_lets trig first
  rw [if_neg (by simp [hthawed, hready, hen, trig, first]; omega), hdepth, hone, each_cons, each_nil]
  extract_lets line answer
  have hline : line = next - 1 := by simp [line, first, hnext]
  have hanswer : answer = r := by rw [← hread, ← hline]
  rw [hanswer, hline, if_neg (by simp [hmiss, hside]; omega)]
  rfl

/-! The cache operations (R405). -/

theorem cacheOp_busy {f : Dev → Dev} (h : d.is .FBC_STAT_BUSY = true) : cacheOp f d = d.fs .FBC_STAT_CMD_ERR 1 := if_pos h

theorem cacheOp_idle {f : Dev → Dev} (h : d.is .FBC_STAT_BUSY = false) : cacheOp f d = f d := if_neg (by simp [h])

theorem cmdRange_one (h : d.fg .FBC_CMD_LEN = 1) : cmdRange d = [d.fg .FBC_CMD_ADDR] := by
  unfold cmdRange
  rw [h]
  rfl

theorem cacheClean_one (hidle : d.is .FBC_STAT_BUSY = false) (hlen : d.fg .FBC_CMD_LEN = 1)
    (hhit : d.hit (d.fg .FBC_CMD_ADDR) = some way) : cacheClean d = (writeBack 13 (setOf (d.fg .FBC_CMD_ADDR)) way d).2 := by
  rw [cacheClean, cacheOp_idle hidle, cmdRange_one hlen, each_cons, each_nil, cleanLine, hhit]

theorem cacheInvalidate_one (hidle : d.is .FBC_STAT_BUSY = false) (hlen : d.fg .FBC_CMD_LEN = 1)
    (hhit : d.hit (d.fg .FBC_CMD_ADDR) = some way) : cacheInvalidate d = d.setWay (setOf (d.fg .FBC_CMD_ADDR)) way {} := by
  rw [cacheInvalidate, cacheOp_idle hidle, cmdRange_one hlen, each_cons, each_nil, hhit]

theorem writeBack_unneeded {set : Nat} (h : (d.way set way).valid = false ∨ (d.way set way).dirty = false) :
    writeBack req set way d = (true, d) := if_pos (by simpa using h)

/-- CLEAN_ALL of a cache without a dirty line has nothing to write back. -/
theorem cacheCleanAll_clean (hidle : d.is .FBC_STAT_BUSY = false) (hclean : ∀ e ∈ d.fbc.lines, e.2.dirty = false) :
    cacheCleanAll d = d := by
  rw [cacheCleanAll, cacheOp_idle hidle]
  exact each_id fun k _ => by rw [writeBack_unneeded (.inr (way_clean hclean _ _))]

theorem cachePreload_unlocked (hidle : d.is .FBC_STAT_BUSY = false) (hway : d.locked way = false) :
    cachePreload way d = d.fs .FBC_STAT_CMD_ERR 1 := by
  rw [cachePreload, cacheOp_idle hidle]
  exact if_pos (by simp [hway])

/-- A line that the cache does not hold is read from the DRAM into a locked way that is free. -/
theorem cachePreload_one {line : Nat} {b : Bytes} (hidle : d.is .FBC_STAT_BUSY = false) (hway : d.locked way = true)
    (hlen : d.fg .FBC_CMD_LEN = 1) (hline : d.fg .FBC_CMD_ADDR = line) (hthawed : d.cacheFrozen = false) (hmiss : d.hit line = none)
    (hread : (dramRead 13 line d).1 = some b)
    (hfree : ((dramRead 13 line d).2.way (setOf line) way).valid = false) :
    cachePreload way d = (dramRead 13 line d).2.setWay (setOf line) way { valid := true, tag := tagOf line, data := b } := by
  rw [cachePreload, cacheOp_idle hidle, if_neg (by simp [hway]), cmdRange_one hlen, each_cons, each_nil, hline, hmiss]
  generalize dramRead 13 line d = r at *
  refine (if_neg (by simp [hthawed])).trans ?_
  obtain ⟨x, u⟩ := r
  obtain rfl : x = some b := hread
  have hkept : writeBack 13 (setOf line) way u = (true, u) := writeBack_unneeded (.inl hfree)
  dsimp only
  rw [hkept, if_pos rfl]

theorem cacheReset_busy (h : d.is .FBC_STAT_BUSY = true) : cacheReset d = { d with fbc := {} }.fs .FBC_STAT_BUSY 0 := by
  rw [cacheReset, h, Laws.cond_true]

end

/-- Settles O28: each clause by what its command makes of the cache. A write that hits leaves the tags as they are, so that the line is
read back from the way in which it was written. -/
theorem cacheOperations : Obligations.CacheOperations := by
  unfold Obligations.CacheOperations
  refine ⟨fun req addr len way s ⟨hserved, hen, hidle⟩ hhit => ?_,
    fun req addr data way idle s ⟨hserved, hen, hidle⟩ hhit ⟨hfits, hlen⟩ => ?_, fun req addr len discard err s hrefused => ?_,
    fun req addr data err idle s hrefused => ?_, fun req addr data way idle s ⟨hserved, hen, hidle⟩ hhit ⟨hfits, hlen⟩ => ?_,
    fun req s ⟨hen, hready⟩ ⟨htrig, hcount, hpos⟩ ⟨hdepth, hfits⟩ ⟨hmiss, hside⟩ => ?_, fun s hidle hlen hheld => ?_,
    fun line way s hidle ⟨hlen, hline⟩ hhit => ?_, fun c way s hc hbusy => ?_,
    fun way s hidle ⟨hlocked, hlen, hthawed⟩ hmiss hread hfree => ?_, fun way s hidle hunlocked => ?_, fun s hidle hclean => ?_,
    fun s hbusy => ?_⟩
  · have hhits : HitsIn req addr way s.dev := ⟨hserved, hen, hidle, hhit⟩
    exact gives_of_eq (f := cacheRead req addr len false .none) rfl (hhits.cacheRead len) ⟨rfl, rfl, rfl, rfl⟩
  · have hhits : HitsIn req addr way s.dev := ⟨hserved, hen, hidle, hhit⟩
    obtain ⟨c, -, hwritten⟩ := hhits.cacheWrite data idle
    have hroom := hfits.trans_eq hlen.symm
    refine gives_of_eq (f := cacheWrite req addr data .none idle) rfl hwritten ⟨rfl, ?_⟩
    rw [way_storedAt]
    exact ⟨rfl, written_overwritten hroom, take_overwritten hroom, (overwritten_length hroom).trans hlen, rfl⟩
  · exact becomes_of_eq (f := cacheRead req addr len discard _) rfl (cacheRead_refused hrefused)
  · exact becomes_of_eq (f := cacheWrite req addr data _ idle) rfl (cacheWrite_refused hrefused)
  · have hhits : HitsIn req addr way s.dev := ⟨hserved, hen, hidle, hhit⟩
    obtain ⟨c, hc, hwritten⟩ := hhits.cacheWrite data idle
    have hwrite : Becomes (.cacheWrite req addr data 0 idle) s (storedAt c addr way data s.dev) :=
      becomes_of_eq (f := cacheWrite req addr data .none idle) rfl hwritten
    refine ⟨_, hwrite, _, becomes_of_eq (f := cacheRead req addr data.length false .none) rfl
      ((hhits.storedAt hc data).cacheRead data.length), ?_⟩
    show List.take _ (List.drop _ ((storedAt c addr way data s.dev).way _ way).data) = data
    rw [way_storedAt]
    exact written_overwritten (hfits.trans_eq hlen.symm)
  · rcases hread : dramRead req (sparseGet 0 s.dev.fbc.rdNext req - 1) s.dev with ⟨_ | b, u⟩
    all_goals
      exact gives_of_eq (f := prefetch req) rfl (prefetch_one hen hready htrig hcount rfl hpos hdepth hfits hmiss hside hread) rfl
  · obtain ⟨way, hhit⟩ := Option.isSome_iff_exists.mp hheld
    refine gives_of_eq (f := cacheClean) rfl (cacheClean_one hidle hlen hhit) ?_
    rw [hhit]
    rfl
  · subst hline
    exact gives_of_eq (f := cacheInvalidate) rfl (cacheInvalidate_one hidle hlen hhit)
      ⟨way_setWay_self _ _ _, rfl, fun k hk => way_setWay_ne hk, rfl⟩
  · simp only [List.mem_cons, List.not_mem_nil, or_false] at hc
    obtain rfl | rfl | rfl | rfl := hc
    · exact becomes_of_eq (f := cacheClean) rfl (cacheOp_busy hbusy)
    · exact becomes_of_eq (f := cacheInvalidate) rfl (cacheOp_busy hbusy)
    · exact becomes_of_eq (f := cacheCleanAll) rfl (cacheOp_busy hbusy)
    · exact becomes_of_eq (f := cachePreload way) rfl (cacheOp_busy hbusy)
  · obtain ⟨b, hb⟩ := Option.isSome_iff_exists.mp hread
    refine gives_of_eq (f := cachePreload way) rfl (cachePreload_one hidle hlocked hlen rfl hthawed hmiss hb hfree) ?_
    dsimp only
    rw [way_setWay_self, hb]
    exact ⟨rfl, rfl, rfl, rfl⟩
  · exact becomes_of_eq (f := cachePreload way) rfl (cachePreload_unlocked hidle hunlocked)
  · exact becomes_of_eq (f := cacheCleanAll) rfl (cacheCleanAll_clean hidle hclean)
  · exact gives_of_eq (f := cacheReset) rfl (cacheReset_busy hbusy)
      ⟨rfl, rfl, fg_fs_zero _ 0 (by decide), changes_fs ⟨fun _ _ => rfl, rfl⟩⟩

end Sys2Proof.Proofs
end

section
/-!
SUPPORT. The fuse bank: which commands reach it, and what they make of it (21_security_debug.md R633 to R636, R641, R643).
-/

namespace Sys2Proof.Proofs

open Sys2Proof Sys2Proof.Machine Sys2Proof.Laws

/-! Bits blown on top of others. -/

theorem blownStay_or (x y : Nat) : BlownStay x (x ||| y) := fun k hk => by simp [hk]

theorem blownStay_bitsOf {x y : Nat} (h : BlownStay x y) (lo w : Nat) : BlownStay (bitsOf x lo w) (bitsOf y lo w) := fun k hk => by
  simp only [testBit_bitsOf, Bool.and_eq_true] at hk ⊢
  exact ⟨hk.1, h _ hk.2⟩

theorem popCount_mono {x y : Nat} (h : BlownStay x y) (w : Nat) : popCount w x ≤ popCount w y :=
  (List.monotone_filter_right _ fun i hi => h i hi).length_le

theorem ne_zero_mono {x y : Nat} (h : BlownStay x y) (hx : x ≠ 0) : y ≠ 0 := by
  obtain ⟨i, hi⟩ := Nat.exists_testBit_of_ne_zero hx
  rintro rfl
  simpa using h i hi

/-! The lowest bits of ARB that are not blown (R641). -/

/-- The bits of ARB after the numbers of a list have been looked at in order. -/
def arbFill (target : Nat) (l : List Nat) (arb : Nat) : Nat := l.foldl (fun x i => if popCount 64 x < target then x ||| 2 ^ i else x) arb

theorem arbFill_keeps (target : Nat) (l : List Nat) (arb : Nat) : BlownStay arb (arbFill target l arb) := by
  induction l generalizing arb with
  | nil => exact fun _ h => h
  | cons i l ih =>
    refine fun k hk => ih _ k ?_
    beta_reduce
    split
    · exact blownStay_or _ _ k hk
    · exact hk

theorem arbFill_lt {target : Nat} {l : List Nat} {arb : Nat} (hl : ∀ i ∈ l, i < 64) (h : arb < 2 ^ 64) : arbFill target l arb < 2 ^ 64 := by
  induction l generalizing arb with
  | nil => exact h
  | cons i l ih =>
    refine ih (fun j hj => hl j (by simp [hj])) ?_
    beta_reduce
    split
    · exact Nat.or_lt_two_pow h (Nat.pow_lt_pow_right (by omega) (hl i (by simp)))
    · exact h

theorem arbBits_lt {arb : Nat} (target : Nat) (h : arb < 2 ^ 64) : arbBits arb target < 2 ^ 64 :=
  arbFill_lt (fun _ hi => List.mem_range.mp hi) h

theorem arbBits_keeps (arb target : Nat) : BlownStay arb (arbBits arb target) := arbFill_keeps _ _ _

/-- One more bit raises the count of bits by one at the most. -/
theorem popCount_or_two_pow_le (w x i : Nat) : popCount w (x ||| 2 ^ i) ≤ popCount w x + 1 := by
  induction w with
  | zero => simp [popCount]
  | succ w ih =>
    have hbit : (x ||| 2 ^ i).testBit w = (x.testBit w || decide (i = w)) := by rw [Nat.testBit_or, Nat.testBit_two_pow]
    have hsame : i = w → popCount w (x ||| 2 ^ i) = popCount w x := fun hi => by
      unfold popCount
      refine congrArg _ (List.filter_congr fun j hj => ?_)
      have hj := List.mem_range.mp hj
      rw [Nat.testBit_or, Nat.testBit_two_pow, decide_eq_false (by omega), Bool.or_false]
    have hstep (y : Nat) : popCount (w + 1) y = popCount w y + bit (y.testBit w) := by
      unfold popCount
      rw [List.range_succ, List.filter_append, List.length_append]
      cases h : y.testBit w <;> simp [h, bit]
    rw [hstep, hstep, hbit]
    by_cases hi : i = w
    · rw [hsame hi, decide_eq_true hi]
      cases x.testBit w <;> simp [bit]
    · rw [decide_eq_false hi, Bool.or_false]
      omega

theorem popCount_full {w x : Nat} (h : ∀ i < w, x.testBit i = true) : popCount w x = w := by
  unfold popCount
  rw [List.filter_eq_self.mpr fun i hi => h i (List.mem_range.mp hi), List.length_range]

/-- While the count is short of the target, every bit looked at is blown; and it never passes the target. -/
theorem arbFill_range {arb target : Nat} (h : popCount 64 arb ≤ target) (n : Nat) :
    popCount 64 (arbFill target (List.range n) arb) ≤ target ∧
      (popCount 64 (arbFill target (List.range n) arb) < target → ∀ i < n, (arbFill target (List.range n) arb).testBit i = true) := by
  induction n with
  | zero => exact ⟨h, fun _ i hi => absurd hi (by omega)⟩
  | succ n ih =>
    have hstep : arbFill target (List.range (n + 1)) arb = (let x := arbFill target (List.range n) arb
        if popCount 64 x < target then x ||| 2 ^ n else x) := by rw [arbFill, List.range_succ, List.foldl_append]; rfl
    rw [hstep]
    generalize arbFill target (List.range n) arb = x at ih
    dsimp only
    split
    · next hx =>
      refine ⟨(popCount_or_two_pow_le _ _ _).trans hx, fun _ i hi => ?_⟩
      rw [Nat.testBit_or, Nat.testBit_two_pow]
      obtain hi | rfl : i < n ∨ i = n := by omega
      · rw [ih.2 hx i hi, Bool.true_or]
      · simp
    · next hx => exact ⟨ih.1, fun hlt => absurd hlt hx⟩

theorem popCount_arbBits {arb target : Nat} (htarget : target ≤ 64) (h : popCount 64 arb ≤ target) : popCount 64 (arbBits arb target) = target := by
  obtain ⟨hle, hfull⟩ := arbFill_range h 64
  refine le_antisymm hle (not_lt.mp fun hlt => ?_)
  have hall : popCount 64 (arbBits arb target) = 64 := popCount_full (hfull hlt)
  exact absurd (hall ▸ hlt : 64 < target) (by omega)

/-- The bits that an advance of ARB to a value blows in a bank, at their place. -/
def arbBlown (target fuses : Nat) : Nat := arbBits (bitsOf fuses 1472 64) (limitN 0 64 target) <<< 1472

theorem testBit_arbBlown_outside {target fuses k : Nat} (h : k < 1472 ∨ 1536 ≤ k) : (arbBlown target fuses).testBit k = false := by
  have hlt : arbBits (bitsOf fuses 1472 64) (limitN 0 64 target) < 2 ^ 64 := arbBits_lt _ (bitsOf_lt _ _ _)
  unfold arbBlown
  generalize arbBits (bitsOf fuses 1472 64) (limitN 0 64 target) = x at hlt
  rw [Nat.testBit_shiftLeft]
  rcases h with h | h
  · rw [decide_eq_false (by omega), Bool.false_and]
  · have hbeyond : 64 ≤ k - 1472 := by omega
    rw [Nat.testBit_lt_two_pow (hlt.trans_le (Nat.pow_le_pow_right Nat.two_pos hbeyond)), Bool.and_false]

/-- The bits of the locks selected, each by its number (R635). -/
theorem testBit_lockBits (locks k : Nat) : (lockBits locks).testBit k =
    ((locks.testBit 0 && decide (1536 ≤ k ∧ k < 1539)) || (locks.testBit 1 && decide (1539 ≤ k ∧ k < 1542))) := by
  have hseven (n k : Nat) : (7 * 2 ^ n).testBit k = decide (n ≤ k ∧ k < n + 3) := by
    rw [Nat.mul_comm, Nat.testBit_two_pow_mul, show (7 : Nat) = 2 ^ 3 - 1 from rfl, Nat.testBit_two_pow_sub_one]
    by_cases h : n ≤ k <;> simp [h]
    omega
  have hboth (n : Nat) : 7 * 2 ^ n + 7 * 2 ^ (n + 3) = 7 * 2 ^ (n + 3) ||| 7 * 2 ^ n := by
    have hlt : 7 * 2 ^ n < 2 ^ (n + 3) := by rw [Nat.pow_add]; have := Nat.two_pow_pos n; omega
    rw [Nat.mul_comm 7 (2 ^ (n + 3)), ← Nat.two_pow_add_eq_or_of_lt hlt, Nat.add_comm]
  unfold lockBits
  cases locks.testBit 0 <;> cases locks.testBit 1
  · simp
  · simp [hseven]
  · simp [hseven]
  · simp only [if_true, hboth 1536, Nat.testBit_or, hseven, Bool.true_and]
    rw [Bool.or_comm]

theorem or_lt_two_pow_of_testBit {x y n : Nat} (hx : x < 2 ^ n) (hy : ∀ k, n ≤ k → y.testBit k = false) : x ||| y < 2 ^ n :=
  Nat.or_lt_two_pow hx (Nat.lt_pow_two_of_testBit y hy)

/-! What a command makes of the bank. -/

/-- The commands that can blow ARB: FUSE_ARB_SET, a write of its register on the register bus, the start of firmware, and the THAW under
which such a write waits. -/
def BlowsArb (c : Instr) (s : State) : Prop :=
  (∃ v, c = .fuseArbSet v) ∨ (∃ v, c = .registerWrite .fuse Reg.FUSE_ARB_SET.off v) ∨
    (∃ v, c = .regAccess .fuse Reg.FUSE_ARB_SET.off 2 v) ∨ (∃ ms, c = .bootFirmwareStart ms) ∨ (∃ l, c = .thaw l ∧ s.dev.is .FUSE_STAT_BUSY = true)

/-- From `s` to `t` the queue is kept, and the bank is kept, or has ARB advanced where that is allowed. -/
inductive ArbStep (allowed : Prop) (s t : State) : Prop where
  | kept (hpending : t.pending = s.pending) (hfuses : t.fuses = s.fuses)
  | blown (hallowed : allowed) (target : Nat) (hpending : t.pending = s.pending) (hfuses : t.fuses = s.fuses ||| arbBlown target s.fuses)

section
variable {allowed : Prop} {s t : State}

theorem ArbStep.withDev {d : Dev} (h : ArbStep allowed { s with dev := d } t) : ArbStep allowed s t := by
  cases h with
  | kept hp hf => exact .kept hp hf
  | blown ha n hp hf => exact .blown ha n hp hf

theorem ArbStep.imp {wider : Prop} (h : ArbStep allowed s t) (hw : allowed → wider) : ArbStep wider s t := by
  cases h with
  | kept hp hf => exact .kept hp hf
  | blown ha n hp hf => exact .blown (hw ha) n hp hf

theorem arbAdvance_step (target : Nat) (s : State) : ArbStep True s (arbAdvance target s) := .blown trivial target rfl rfl

theorem arbSet_step (target : Nat) (s : State) : ArbStep True s (arbSet target s) := by
  unfold arbSet
  dsimp only
  split
  · exact .kept rfl rfl
  · split
    · exact .kept rfl rfl
    · exact arbAdvance_step target s

theorem busWrite_step (req : Nat) (b : Block) (off : Nat) (v : DWord) (s : State) :
    ArbStep (b = .fuse ∧ off = Reg.FUSE_ARB_SET.off) s (busWrite req b off v s) := by
  unfold busWrite
  split
  · next h => exact ((arbSet_step _ _).withDev).imp fun _ => h
  · exact .kept rfl rfl

theorem regAccess_step (b : Block) (off op : Nat) (v : DWord) (s : State) :
    ArbStep (b = .fuse ∧ off = Reg.FUSE_ARB_SET.off ∧ op = 2) s (regAccess b off op v s) := by
  unfold regAccess
  split
  · exact .kept rfl rfl
  · dsimp only
    split
    · exact .kept rfl rfl
    · exact ((busWrite_step _ _ _ _ _).withDev).imp fun ⟨hb, hoff⟩ => ⟨hb, hoff, rfl⟩
    · exact .kept rfl rfl

theorem boot_step (lock table : Bool) (fail : Option (Nat × Nat)) (counts : List Nat) (s : State) :
    ArbStep False s (boot lock table fail counts s) := by
  unfold boot
  split <;> exact .kept rfl rfl

theorem bootFirmware_step (ms : Nat) (s : State) : ArbStep True s (bootFirmware ms s) := by
  unfold bootFirmware
  split
  · exact .kept rfl rfl
  · unfold bootRollback
    dsimp only
    split
    · exact .kept rfl rfl
    · exact (arbSet_step _ _).withDev

theorem thaw_step (counts : List Nat) (s : State) : ArbStep (s.dev.is .FUSE_STAT_BUSY = true) s (thaw counts s) := by
  unfold thaw
  split
  · exact .kept rfl rfl
  · dsimp only
    split
    · next hbusy => exact ((arbAdvance_step _ _).withDev).imp fun _ => hbusy
    · exact .kept rfl rfl

end

/-- The commands that reach the fuse bank: the boot that copies it, those that advance ARB, and FUSE_PROG. -/
def reachesBank : Instr → Bool
  | .fuseProg .. => true
  | c => readsBank c

/-- Every other command acts on the unit alone. -/
theorem exec_onDev {c : Instr} (h : reachesBank c = false) : ∃ f : Dev → Dev, ∀ s, exec c s = s.onDev f := by
  cases c with
  | registerWrite | regAccess | boot | thaw | fuseArbSet | bootFirmwareStart | fuseProg => exact absurd h (by simp [reachesBank, readsBank])
  | calStepStart => exact ⟨fun d => calParked (calStepStart d), fun _ => rfl⟩
  | calStepDone => exact ⟨fun d => calParked (calStepDone d), fun _ => rfl⟩
  | calStepTimeout => exact ⟨fun d => calParked (calStepTimeout d), fun _ => rfl⟩
  | abort => exact ⟨fun d => calParked (calAbort true d), fun _ => rfl⟩
  | idcode => exact ⟨fun d => d.tapOut 0x02 idCode, fun _ => rfl⟩
  | _ => exact ⟨_, fun _ => rfl⟩

/-- What FUSE_PROG makes of the unit does not depend on the bank (R643). -/
theorem fuseProg_dev (locks : Nat) (temp : Int) (s : State) (bank : Nat) :
    (fuseProg locks temp { s with fuses := bank }).dev = (fuseProg locks temp s).dev := by
  unfold fuseProg
  dsimp only
  split <;> rfl

theorem fuseProg_bank (locks : Nat) (temp : Int) (s : State) : (fuseProg locks temp s).pending = s.pending ∧
    ((fuseProg locks temp s).fuses = s.fuses ∨ (fuseProg locks temp s).fuses = s.fuses ||| lockBits locks) := by
  unfold fuseProg
  dsimp only
  split
  · exact ⟨rfl, .inl rfl⟩
  · exact ⟨rfl, .inr rfl⟩

/-- Every command answers a next state with the queue as it was, and blows no fuse, or ARB by one of its paths, or locks by FUSE_PROG. -/
theorem exec_bank (c : Instr) (s : State) : ∃ t, exec c s = .next t ∧
    (ArbStep (BlowsArb c s) s t ∨ ∃ l x, c = .fuseProg l x ∧ t.pending = s.pending ∧ t.fuses = s.fuses ||| lockBits l) := by
  by_cases hc : reachesBank c = true
  · cases c with
    | registerWrite blk off v =>
      refine ⟨_, rfl, .inl ((busWrite_step 2 blk off v s).imp ?_)⟩
      rintro ⟨rfl, rfl⟩
      exact .inr (.inl ⟨v, rfl⟩)
    | regAccess blk off op v =>
      refine ⟨_, rfl, .inl ((regAccess_step blk off op v s).imp ?_)⟩
      rintro ⟨rfl, rfl, hop⟩
      obtain rfl : op = 2 := Fin.ext hop
      exact .inr (.inr (.inl ⟨v, rfl⟩))
    | boot lock table fail counts => exact ⟨_, rfl, .inl ((boot_step _ _ _ _ s).imp False.elim)⟩
    | thaw counts => exact ⟨_, rfl, .inl ((thaw_step counts s).imp fun hbusy => .inr (.inr (.inr (.inr ⟨counts, rfl, hbusy⟩))))⟩
    | fuseArbSet target => exact ⟨_, rfl, .inl ((arbSet_step target s).imp fun _ => .inl ⟨target, rfl⟩)⟩
    | bootFirmwareStart ms => exact ⟨_, rfl, .inl ((bootFirmware_step ms s).imp fun _ => .inr (.inr (.inr (.inl ⟨ms, rfl⟩))))⟩
    | fuseProg l x =>
      obtain ⟨hp, hkept | hblown⟩ := fuseProg_bank l x s
      · exact ⟨_, rfl, .inl (.kept hp hkept)⟩
      · exact ⟨_, rfl, .inr ⟨l, x, rfl, hp, hblown⟩⟩
    | _ => exact absurd hc (by simp [reachesBank, readsBank])
  · obtain ⟨f, hf⟩ := exec_onDev (Bool.eq_false_iff.mpr hc)
    exact ⟨_, hf s, .inl (.kept rfl rfl)⟩

end Sys2Proof.Proofs
end

section
/-!
SUPPORT. Steps and the fuse bank (21_security_debug.md R633 to R636, 95_what_each_step_holds.md): the obligations.
-/

namespace Sys2Proof.Proofs

open Sys2Proof Sys2Proof.Machine Sys2Proof.Laws

/-- Settles O49, by the definition of a step. -/
theorem stepRunsFront : Obligations.StepRunsFront := fun _ _ => rfl

/-- Settles O50, by the definition of a step. -/
theorem idleStep : Obligations.IdleStep := fun s h => by rw [step, h]

theorem exec_runs (c : Instr) (s : State) : ∃ t, exec c s = .next t ∧ t.pending = s.pending := by
  obtain ⟨t, ht, hstep | ⟨l, x, -, hpending, -⟩⟩ := exec_bank c s
  · cases hstep with
    | kept hp _ => exact ⟨t, ht, hp⟩
    | blown _ _ hp _ => exact ⟨t, ht, hp⟩
  · exact ⟨t, ht, hpending⟩

/-- Settles O53, by what every command makes of the bank and the queue. -/
theorem everyCommandRuns : Obligations.EveryCommandRuns := exec_runs

/-- A step takes the front of the queue, if there is one. -/
theorem step_drops (s : State) : ∃ t, step s = .next t ∧ t.pending = s.pending.drop 1 := by
  cases hq : s.pending with
  | nil => exact ⟨s, idleStep s hq, hq⟩
  | cons c rest =>
    obtain ⟨t, ht, hp⟩ := exec_runs c { s with pending := rest }
    exact ⟨t, by rw [step, hq]; exact ht, hp⟩

/-- Settles O54, by induction on the number of steps. -/
theorem queueDrains : Obligations.QueueDrains := by
  intro s n
  induction n generalizing s with
  | zero => exact ⟨s, rfl, rfl⟩
  | succ n ih =>
    obtain ⟨t, ht, hp⟩ := step_drops s
    obtain ⟨u, hu, hq⟩ := ih t
    refine ⟨u, by rw [run, ht]; exact hu, ?_⟩
    rw [hq, hp, List.drop_drop, Nat.add_comm]

/-- What a command blows it adds to the bank, within the bank's 4,096 bits. -/
theorem exec_blows (c : Instr) (s t : State) (h : exec c s = .next t) :
    BlownStay s.fuses t.fuses ∧ (s.fuses < 2 ^ 4096 → t.fuses < 2 ^ 4096) := by
  obtain ⟨u, hu, hstep⟩ := exec_bank c s
  obtain rfl : u = t := by rw [hu] at h; exact Host.Outcome.next.inj h
  obtain (⟨-, hf⟩ | ⟨-, n, -, hf⟩) | ⟨l, x, -, -, hf⟩ := hstep
  · rw [hf]
    exact ⟨fun _ hk => hk, id⟩
  · rw [hf]
    exact ⟨blownStay_or _ _, fun hs => or_lt_two_pow_of_testBit hs fun k hk => testBit_arbBlown_outside (.inr (by omega))⟩
  · rw [hf]
    refine ⟨blownStay_or _ _, fun hs => or_lt_two_pow_of_testBit hs fun k hk => ?_⟩
    rw [testBit_lockBits, decide_eq_false (by omega), decide_eq_false (by omega)]
    simp

theorem step_blows (s t : State) (h : step s = .next t) : BlownStay s.fuses t.fuses ∧ (s.fuses < 2 ^ 4096 → t.fuses < 2 ^ 4096) := by
  cases hq : s.pending with
  | nil =>
    rw [idleStep s hq] at h
    obtain rfl : s = t := Host.Outcome.next.inj h
    exact ⟨fun _ hk => hk, id⟩
  | cons c rest =>
    rw [step, hq] at h
    exact exec_blows c { s with pending := rest } t h

/-- Settles O55: a step only adds to the bank, and what only grows keeps its counts and its locks. -/
theorem fusesOnlyBlow : Obligations.FusesOnlyBlow := by
  intro s t h
  obtain ⟨hstay, hsize⟩ := step_blows s t h
  exact ⟨hstay, hsize, popCount_mono (blownStay_bitsOf hstay _ _) _, ne_zero_mono (blownStay_bitsOf hstay _ _),
    ne_zero_mono (blownStay_bitsOf hstay _ _)⟩

/-- Settles O56: of the bank a command changes nothing, or adds bits of ARB by one of its paths, or those of the locks by FUSE_PROG. -/
theorem fusePaths : Obligations.FusePaths := by
  intro c s t h
  obtain ⟨u, hu, hstep⟩ := exec_bank c s
  obtain rfl : u = t := by rw [hu] at h; exact Host.Outcome.next.inj h
  obtain (⟨-, hf⟩ | ⟨hblows, n, -, hf⟩) | ⟨l, x, rfl, -, hf⟩ := hstep
  · refine ⟨fun _ k _ => by rw [hf], fun ⟨k, _, _, hk⟩ => absurd (by rw [hf]) hk, fun ⟨k, _, _, hk⟩ => absurd (by rw [hf]) hk⟩
  · have hout (k : Nat) (hk : k < 1472 ∨ 1536 ≤ k) : u.fuses.testBit k = s.fuses.testBit k := by
      rw [hf, Nat.testBit_or, testBit_arbBlown_outside hk, Bool.or_false]
    exact ⟨fun _ k hk => hout k (.inl hk), fun _ => hblows, fun ⟨k, hlo, _, hk⟩ => absurd (hout k (.inr hlo)) hk⟩
  · have hout (k : Nat) (hk : k < 1536) : u.fuses.testBit k = s.fuses.testBit k := by
      rw [hf, Nat.testBit_or, testBit_lockBits, decide_eq_false (by omega), decide_eq_false (by omega)]
      simp
    exact ⟨fun _ k hk => hout k (by omega), fun ⟨k, _, hlt, hk⟩ => absurd (hout k hlt) hk, fun _ => ⟨l, x, rfl⟩⟩

/-- Settles O60: but for FUSE_PROG such a command acts on the unit alone, and what FUSE_PROG makes of the unit does not depend on the bank. -/
theorem shadowNotBank : Obligations.ShadowNotBank := by
  intro c s bank h
  by_cases hc : reachesBank c = true
  · cases c with
    | fuseProg l x => exact ⟨_, _, rfl, rfl, fuseProg_dev l x s bank⟩
    | _ => exact absurd (hc.symm.trans h) (by decide)
  · obtain ⟨f, hf⟩ := exec_onDev (Bool.eq_false_iff.mpr hc)
    exact ⟨_, _, hf s, hf _, rfl⟩

/-- Settles O52, by evaluating the bank that the model starts from. -/
theorem fusesAtReset : Obligations.FusesAtReset := by
  unfold Obligations.FusesAtReset
  have hsmall : State.reset.fuses < 2 ^ 128 := by decide
  exact ⟨by decide, by decide, by decide, hsmall.trans_le (Nat.pow_le_pow_right Nat.two_pos (by decide : 128 ≤ 4096)), rfl⟩

end Sys2Proof.Proofs
end

section
/-!
SUPPORT. Commands that end (14_host_port.md R446, R451), the reset state (20_clocks_reset_boot.md R616), and the locks and the TAP
(21_security_debug.md R633 to R645): the obligations.
-/

namespace Sys2Proof.Proofs

open Sys2Proof Sys2Proof.Machine Sys2Proof.Laws

/-! The end of a command. -/

/-- A command with its end: one that has ended stays as it is. -/
def endedCmd (cls detail r0 r1 : Nat) (c : Cmd) : Cmd :=
  if c.stage = .ended then c else { c with stage := .ended, cls := cls, detail := detail, r0 := r0, r1 := r1 }

section
variable {d : Dev} {id cls detail r0 r1 : Nat} {c : Cmd}

theorem endedCmd_id (c : Cmd) : (endedCmd cls detail r0 r1 c).id = c.id := by
  unfold endedCmd
  split <;> rfl

theorem cmd_endCmd (d : Dev) (id cls detail r0 r1 k : Nat) :
    (d.endCmd id cls detail r0 r1).cmd k = if id = k then (d.cmd k).map (endedCmd cls detail r0 r1) else d.cmd k :=
  cmd_onCmd d id k (endedCmd cls detail r0 r1) endedCmd_id

theorem cmd_endCmd_self (hc : d.cmd id = some c) (hstage : c.stage ≠ .ended) :
    (d.endCmd id cls detail r0 r1).cmd id = some { c with stage := .ended, cls := cls, detail := detail, r0 := r0, r1 := r1 } := by
  rw [cmd_endCmd, if_pos rfl, hc, Option.map_some, endedCmd, if_neg hstage]

theorem cmd_endCmd_ended (hc : d.cmd id = some c) (hstage : c.stage = .ended) : (d.endCmd id cls detail r0 r1).cmd id = some c := by
  rw [cmd_endCmd, if_pos rfl, hc, Option.map_some, endedCmd, if_pos hstage]

theorem cmd_endCmd_ne {k : Nat} (h : k ≠ id) : (d.endCmd id cls detail r0 r1).cmd k = d.cmd k := by
  rw [cmd_endCmd, if_neg (Ne.symm h)]

end

/-- Settles O59: the commands are looked up by their number, and the end of one is a map over it alone. -/
theorem endCmd : Obligations.EndCmd := by
  intro d id cls detail r0 r1
  exact ⟨fun _ => cmd_endCmd_self, fun _ => cmd_endCmd_ended, fun _ => cmd_endCmd_ne, rfl⟩

/-- Settles O51: the reset state lists nothing, so that every register and every byte reads its reset value. -/
theorem resetState : Obligations.ResetState := by
  refine ⟨fun _ _ _ => rfl, rfl, rfl, rfl, rfl, rfl, rfl, rfl, fun _ => rfl, fun b => ?_, rfl, rfl, rfl, rfl, rfl, rfl, rfl⟩
  cases b <;> decide

/-! The locks (R635, R643). -/

theorem bitsOf_ne_zero_iff {x lo w : Nat} : (bitsOf x lo w != 0) = true ↔ ∃ k, lo ≤ k ∧ k < lo + w ∧ x.testBit k = true := by
  rw [bne_iff_ne]
  constructor
  · intro h
    obtain ⟨i, hi⟩ := Nat.exists_testBit_of_ne_zero h
    simp only [testBit_bitsOf, Bool.and_eq_true, decide_eq_true_eq] at hi
    exact ⟨lo + i, by omega, by omega, hi.2⟩
  · rintro ⟨k, hlo, hhi, hk⟩ h0
    have hbit : (bitsOf x lo w).testBit (k - lo) = true := by
      rw [testBit_bitsOf, show lo + (k - lo) = k by omega, hk, decide_eq_true (by omega)]
      rfl
    simp [h0] at hbit

theorem openLock_iff (d : Dev) : d.openLock = true ↔ ∃ k, 1536 ≤ k ∧ k < 1539 ∧ d.shadow.testBit k = true := bitsOf_ne_zero_iff

theorem debugLock_iff (d : Dev) : d.debugLock = true ↔ ∃ k, 1539 ≤ k ∧ k < 1542 ∧ d.shadow.testBit k = true := bitsOf_ne_zero_iff

theorem bit_mod_two (b : Bool) : bit b % 2 = bit b := by cases b <;> rfl

/-- A field of what FUSE_STAT shows: the register's write-only bits, which a read leaves out, are none. -/
theorem fuseStat_shown (d : Dev) : (regLoad .FUSE_STAT 0 0 Reg.FUSE_STAT.off d).1 = fuseStat d := by
  have hall : ~~~(dword Reg.FUSE_STAT.wo) = BitVec.allOnes 32 := by decide
  have hload : (regLoad .FUSE_STAT 0 0 Reg.FUSE_STAT.off d).1 = fuseStat d &&& ~~~(dword Reg.FUSE_STAT.wo) := rfl
  rw [hload, hall, BitVec.and_allOnes]

theorem fuseStat_toNat (d : Dev) : (fuseStat d).toNat = putBits (putBits (putBits (d.rd .FUSE_STAT).toNat 1 1 (bit d.openLock)) 2 1
    (bit d.debugLock)) 3 1 (bit (d.is .FUSE_STAT_LOADED && rootOk d.shadow)) := by
  unfold fuseStat dword
  rw [BitVec.toNat_ofNat]
  exact Nat.mod_eq_of_lt (putBits_lt (putBits_lt (putBits_lt (d.rd .FUSE_STAT).isLt (by omega)) (by omega)) (by omega))

theorem fuseProg_blows {locks : Nat} {temp : Int} {s : State} (hlo : 0 ≤ temp) (hhi : temp ≤ 85) (hfrost : s.dev.frost = false) :
    fuseProg locks temp s = { s with fuses := s.fuses ||| lockBits locks, dev := { s.dev.tapOut 0x12 0 with shadow := s.dev.shadow ||| lockBits locks } } := by
  have hkept : (s.dev.tapOut 0x12 0).frost = false := hfrost
  unfold fuseProg
  dsimp only
  rw [if_neg (by simp [hkept]; omega)]
  rfl

theorem fuseProg_refused {locks : Nat} {temp : Int} {s : State} (h : temp < 0 ∨ 85 < temp ∨ s.dev.frost = true) :
    fuseProg locks temp s = { s with dev := progError (s.dev.tapOut 0x12 0) } := if_pos h

/-- Settles O57: the locks are bits of the shadow, to which FUSE_PROG adds all three of each lock that it blows. -/
theorem lockFuses : Obligations.LockFuses := by
  refine ⟨fun d => ⟨openLock_iff d, debugLock_iff d, ?_, ?_⟩, fun locks temp s ⟨hlo, hhi, hfrost⟩ => ?_⟩
  · rw [fuseStat_shown, fuseStat_toNat, bitsOf_putBits_ne _ _ _ _ _ _ (by omega), bitsOf_putBits_ne _ _ _ _ _ _ (by omega), bitsOf_putBits]
    exact bit_mod_two _
  · rw [fuseStat_shown, fuseStat_toNat, bitsOf_putBits_ne _ _ _ _ _ _ (by omega), bitsOf_putBits]
    exact bit_mod_two _
  · have hblown (x k : Nat) (hk : (lockBits locks).testBit k = true) : (x ||| lockBits locks).testBit k = true := by
      rw [Nat.testBit_or, hk, Bool.or_true]
    refine ⟨_, congrArg Host.Outcome.next (fuseProg_blows hlo hhi hfrost), rfl, fun hopen => ?_, fun hdebug => ?_⟩
    · have hbit (k : Nat) (h1 : 1536 ≤ k) (h2 : k < 1539) : (lockBits locks).testBit k = true := by
        rw [testBit_lockBits, hopen, decide_eq_true (by omega)]
        rfl
      exact ⟨fun k h1 h2 => ⟨hblown _ k (hbit k h1 h2), hblown _ k (hbit k h1 h2)⟩,
        (openLock_iff _).mpr ⟨1536, by omega, by omega, hblown _ _ (hbit 1536 (by omega) (by omega))⟩⟩
    · have hbit (k : Nat) (h1 : 1539 ≤ k) (h2 : k < 1542) : (lockBits locks).testBit k = true := by
        rw [testBit_lockBits, hdebug, decide_eq_true (show 1539 ≤ k ∧ k < 1542 by omega), Bool.and_true, Bool.or_true]
      exact ⟨fun k h1 h2 => ⟨hblown _ k (hbit k h1 h2), hblown _ k (hbit k h1 h2)⟩,
        (debugLock_iff _).mpr ⟨1539, by omega, by omega, hblown _ _ (hbit 1539 (by omega) (by omega))⟩⟩

/-! The TAP (R642 to R645). -/

section
variable {d : Dev} {target : Nat}

theorem arbSet_blows {s : State} (hbusy : s.dev.is .FUSE_STAT_BUSY = false) (hfrost : s.dev.frost = false) (harb : s.dev.arb < limitN 0 64 target) :
    arbSet target s = arbAdvance target s := by
  unfold arbSet
  dsimp only
  rw [if_neg (by simp [hbusy]; omega), hfrost]
  rfl

theorem arbSet_waits {s : State} (hbusy : s.dev.is .FUSE_STAT_BUSY = false) (hfrost : s.dev.frost = true) (harb : s.dev.arb < limitN 0 64 target) :
    arbSet target s = { s with dev := { s.dev.fs .FUSE_STAT_BUSY 1 with aon := { s.dev.aon with arbTarget := target } } } := by
  unfold arbSet
  dsimp only
  rw [if_neg (by simp [hbusy]; omega), hfrost]
  rfl

theorem arbSet_refused {s : State} (h : s.dev.is .FUSE_STAT_BUSY = true ∨ limitN 0 64 target ≤ s.dev.arb) : arbSet target s = s :=
  if_pos (by simpa using h)

theorem progError_silent (hup : d.fw.up = false) : progError d = d.fs .FUSE_STAT_PROG_ERR 1 := by
  unfold progError
  dsimp only
  rw [fs_fw, hup]
  rfl

theorem patched_silent (hup : d.fw.up = false) : patched d = d.fs .FUSE_STAT_PATCHED 1 := by
  unfold patched
  rw [hup]
  rfl

variable {b : Block} {off op a : Nat} {v : DWord} {data : Bytes} {w : Word}

theorem regAccess_locked {s : State} (h : s.dev.debugLock = true) : regAccess b off op v s = { s with dev := bypass 0x20 s.dev } := if_pos h

/-- REG_ACCESS of code 1 reads (R642). -/
theorem regAccess_read {s : State} (h : s.dev.debugLock = false) : regAccess b off 1 v s =
    (let d := readReg 14 b off (s.dev.tapOut 0x20 0)
     { s with dev := { d with tap := { d.tap with out := (off % 2 ^ 24) + 1 <<< 24 + (leNat d.answer) <<< 26 } } }) :=
  if_neg (by simp [h])

/-- REG_ACCESS of code 2 writes. -/
theorem regAccess_write {s : State} (h : s.dev.debugLock = false) :
    regAccess b off 2 v s = busWrite 14 b off v { s with dev := s.dev.tapOut 0x20 0 } := if_neg (by simp [h])

theorem busWrite_other (h : b ≠ .fuse) (req : Nat) (s : State) : busWrite req b off v s = { s with dev := writeReg req b off v s.dev } :=
  if_neg fun hfuse => h hfuse.1

theorem dbgAccess_locked (h : d.debugLock = true) : dbgAccess a op data d = bypass 0x21 d := if_pos h

theorem dbgAccess_read (h : d.debugLock = false) (hon : d.blockOn .fbc = true) : dbgAccess a 1 data d =
    (let e := cacheRead 14 (a / 16 * 16) 16 false .none { d.tapOut 0x21 0 with answer := [], error := false }
     { e with tap := { e.tap with out := a + 1 <<< 40 + (if e.error = false then leNat e.answer else 0) <<< 42 + (bit e.error) <<< 170 } }) := by
  have hstill : (d.tapOut 0x21 0).blockOn .fbc = true := hon
  unfold dbgAccess
  rw [if_neg (by simp [h])]
  dsimp only
  rw [if_neg (by simp [hstill])]
  simp

theorem dbgAccess_off (h : d.debugLock = false) (hon : d.blockOn .fbc = false) : dbgAccess a 2 data d =
    { d with error := true, tap := { d.tap with inst := 0x21, out := a + 2 <<< 40 + 0 <<< 42 + 1 <<< 170, drive := false, float := false, ir := 1 } } := by
  have hstill : (d.tapOut 0x21 0).blockOn .fbc = false := hon
  unfold dbgAccess
  rw [if_neg (by simp [h])]
  dsimp only
  rw [if_pos (by simp [hstill])]
  rfl

theorem clePatch_locked (h : d.debugLock = true) : clePatch a op w d = bypass 0x22 d := if_pos h

/-- The unit after a control store word has been patched in. -/
def csPatched (a : Nat) (w : Word) (d : Dev) : Dev :=
  let e := ((d.tapOut 0x22 0).putCs a w).fs .FUSE_STAT_PATCHED 1
  { e with tap := { e.tap with out := a + 1 <<< 14 + w.toNat <<< 16 } }

theorem clePatch_write (h : d.debugLock = false) (hon : d.blockOn .cle = true) (ha : a < 0x3000) (hup : d.fw.up = false) :
    clePatch a 1 w d = csPatched a w d := by
  have hstill : (d.tapOut 0x22 0).blockOn .cle = true := hon
  have hsilent : patched ((d.tapOut 0x22 0).putCs a w) = ((d.tapOut 0x22 0).putCs a w).fs .FUSE_STAT_PATCHED 1 := patched_silent hup
  unfold clePatch
  rw [if_neg (by simp [h])]
  dsimp only
  rw [if_neg (by simp [hstill]), if_neg (by simp; omega), hsilent]
  rfl

theorem clePatch_read (h : d.debugLock = false) (hon : d.blockOn .cle = true) (ha : a < 16384) : clePatch a 2 w d =
    { d with tap := { d.tap with inst := 0x22, out := a + 2 <<< 14 + (sparseGet 0#128 d.eng.cs a).toNat <<< 16, drive := false, float := false, ir := 1 } } := by
  have hstill : (d.tapOut 0x22 0).blockOn .cle = true := hon
  unfold clePatch
  rw [if_neg (by simp [h])]
  dsimp only
  rw [if_neg (by simp [hstill]), Nat.mod_eq_of_lt ha]
  rfl

theorem csPatched_word (ha : a < 16384) (k : Nat) :
    sparseGet 0#128 (csPatched a w d).eng.cs k = if a = k then w else sparseGet 0#128 d.eng.cs k := by
  refine (sparseGet_set _ _ _ _ _).trans ?_
  rw [Nat.mod_eq_of_lt ha]
  rfl

theorem csPatched_patched : (csPatched a w d).is .FUSE_STAT_PATCHED = true := by
  have hset : (((d.tapOut 0x22 0).putCs a w).fs .FUSE_STAT_PATCHED 1).is .FUSE_STAT_PATCHED = true := is_fs_one _ (by decide) rfl
  exact hset

theorem csPatched_changes : Changes [Reg.FUSE_STAT.key 0 0] d (csPatched a w d)
    { d with tap := (csPatched a w d).tap, eng := { d.eng with cs := (csPatched a w d).eng.cs } } :=
  ⟨regsKept_wr _ _ _ 0 0, rfl⟩

end

/-- Settles O46: each instruction by what it makes of the TAP, and those that reach the registers, the buffer and the control store by
whether DEBUG_LOCK is in force. -/
theorem testAccessPort : Obligations.TestAccessPort := by
  unfold Obligations.TestAccessPort
  have hpatch (addr : Fin 16384) (op : Fin 4) (val : BitVec 128) (s : State) :
      exec (.clePatch addr op val) s = s.onDev (clePatch addr op val) := rfl
  refine ⟨fun s => rfl, fun pins cells s => rfl, fun pins cells s => rfl, fun s => rfl, fun s => rfl, fun s => rfl, fun s => rfl,
    fun index s => rfl, fun code s => rfl, fun locks temp s ⟨hlo, hhi, hfrost⟩ => congrArg Host.Outcome.next (fuseProg_blows hlo hhi hfrost),
    fun locks temp s ⟨hrefused, hup⟩ => ?_, fun locks k => testBit_lockBits locks k, fun target s ⟨hbusy, hfrost, harb⟩ => ?_,
    fun target s ⟨hbusy, hfrost, harb⟩ => congrArg Host.Outcome.next (arbSet_waits hbusy hfrost harb), fun target s h => congrArg Host.Outcome.next (arbSet_refused h),
    fun arb target ⟨_, htarget, hle⟩ => ⟨popCount_arbBits htarget hle, fun i hi => arbBits_keeps arb target i hi⟩,
    fun blk off val s d ⟨hlock, hd⟩ => ?_, fun blk off val s ⟨hlock, hblk⟩ => ?_,
    fun blk off op val s hlock => congrArg Host.Outcome.next (regAccess_locked hlock), fun addr op data s hlock => ?_, fun addr data s d ⟨hlock, hon⟩ hd => ?_,
    fun addr data s ⟨hlock, hon⟩ => ?_, fun addr val s ⟨hlock, hon, haddr, hup⟩ => ?_, fun addr val s ⟨hlock, hon⟩ => ?_,
    fun addr op val s hlock => ?_⟩
  · have hsilent : progError (s.dev.tapOut 0x12 0) = (s.dev.tapOut 0x12 0).fs .FUSE_STAT_PROG_ERR 1 := progError_silent hup
    exact congrArg Host.Outcome.next ((fuseProg_refused hrefused).trans (congrArg (fun d => { s with dev := d }) hsilent))
  · exact ⟨_, congrArg Host.Outcome.next (arbSet_blows hbusy hfrost harb), rfl, rfl, rfl⟩
  · subst hd
    exact congrArg Host.Outcome.next (regAccess_read hlock)
  · exact congrArg Host.Outcome.next ((regAccess_write hlock).trans (busWrite_other hblk 14 _))
  · exact becomes_of_eq (f := dbgAccess addr op data) rfl (dbgAccess_locked hlock)
  · subst hd
    exact becomes_of_eq (f := dbgAccess addr 1 data) rfl (dbgAccess_read hlock hon)
  · exact becomes_of_eq (f := dbgAccess addr 2 data) rfl (dbgAccess_off hlock hon)
  · refine gives_of_eq (hpatch addr 1 val s) (clePatch_write hlock hon haddr hup) ⟨?_, fun k hk => ?_, csPatched_patched, rfl, csPatched_changes⟩
    · rw [csPatched_word addr.isLt, if_pos rfl]
    · rw [csPatched_word addr.isLt, if_neg (Ne.symm hk)]
  · exact becomes_of_eq (hpatch addr 2 val s) (clePatch_read hlock hon addr.isLt)
  · exact becomes_of_eq (hpatch addr op val s) (clePatch_locked hlock)

end Sys2Proof.Proofs
end

section
/-!
SUPPORT. Messages taken from the inbox (17_quire_link.md R526, R527), and the messages between a head and a member's host interface
(14_host_port.md R434 to R461): the obligation.
-/

namespace Sys2Proof.Proofs

open Sys2Proof Sys2Proof.Machine Sys2Proof.Laws

/-! A message taken. -/

section
variable {d : Dev} {p type : Nat} {m : QMsg}

/-- The room given back changes the ports only. -/
theorem giveBack_onPorts (p : Nat) (m : QMsg) (d : Dev) : ∃ ports, giveBack p m d = { d with link := { d.link with ports := ports } } := by
  unfold giveBack
  split
  · exact ⟨d.link.ports, rfl⟩
  · unfold idleFrame
    cases (Dev.portState _ p == 2 && decide ((Dev.port _ p).retry.length < 128)) <;> exact ⟨_, rfl⟩

/-- Taking a message empties the inbox and changes the ports, and nothing else. -/
theorem took_onPorts (d : Dev) (p : Nat) (m : QMsg) : ∃ ports, d.took p m = { d with link := { d.link with inbox := [], ports := ports } } :=
  giveBack_onPorts p m { d with link := { d.link with inbox := [] } }

theorem takeMsg_has (h : d.Has p type m) : takeMsg type d = some ((p, m), d.took p m) := by
  obtain ⟨hinbox, htype, hme⟩ := h
  have hfound : ([(p, m)].findIdx? fun e => e.2.type == type && d.forMe e.2) = some 0 := by
    simp [List.findIdx?_cons, htype, hme]
  unfold takeMsg
  rw [hinbox, hfound]
  change some ((p, m), giveBack p m { d with link := { d.link with inbox := d.link.inbox.eraseIdx 0 } }) = _
  rw [hinbox]
  rfl

theorem takeMsg_empty (type : Nat) (h : d.link.inbox = []) : takeMsg type d = none := by
  unfold takeMsg
  rw [h]
  rfl

end

/-! The commands on their messages. -/

section
variable {d : Dev} {p : Nat} {m : QMsg}

theorem mmioWrite_taken (h : d.Has p 0x01 m) (hopen : d.windowsOpen = true) :
    mmioWrite d = winPut (bitsOf m.arg 18 14 + 1) (d.headNo m.src) (bitsOf m.arg 0 18) (m.payload.take (bitsOf m.arg 18 14)) (d.took p m) := by
  obtain ⟨ports, hports⟩ := took_onPorts d p m
  unfold mmioWrite
  rw [if_neg (by simp [hopen]), takeMsg_has h, hports]
  rfl

theorem mmioReadRequest_taken (h : d.Has p 0x02 m) (hopen : d.windowsOpen = true) :
    mmioReadRequest d = sendMsg { type := 0x03, dst := m.src, cls := 2, tag := m.tag, arg := bitsOf m.arg 18 14, payload := winBytes (bitsOf m.arg 0 18) (bitsOf m.arg 18 14) (d.took p m) } (d.took p m) := by
  obtain ⟨ports, hports⟩ := took_onPorts d p m
  have hstill : (d.took p m).windowsOpen = true := by
    rw [hports]
    exact hopen
  unfold mmioReadRequest
  rw [takeMsg_has h]
  exact if_neg (by simp [hstill])

theorem mmioReadCompletion_taken {r : MemberRead} (h : d.Has p 0x03 m) (hreads : d.host.reads = [r]) (htag : r.tag = m.tag)
    (hunit : r.unit = m.src) :
    mmioReadCompletion d = { d.took p m with host := { d.host with reads := [] }, answer := m.payload.take r.len, error := false } := by
  obtain ⟨ports, hports⟩ := took_onPorts d p m
  have hfound : (d.host.reads.find? fun r => r.tag == m.tag && r.unit == m.src) = some r := by
    simp [hreads, htag, hunit]
  have hleft : (d.host.reads.filter fun x => x.tag != m.tag) = [] := by
    simp [hreads, htag]
  unfold mmioReadCompletion
  rw [takeMsg_has h, hports]
  dsimp only
  rw [hfound]
  dsimp only [Dev.onHost]
  rw [hleft]

/-- A request of at most one message's length is answered in one. -/
theorem hostReadRequest_good (h : d.Has p 0x10 m) (hgo : d.hostWaits = false) (hlow : 1 ≤ hField m.payload 8 4)
    (hhigh : hField m.payload 8 4 ≤ 256) :
    hostReadRequest true d = sendMsg { type := 0x11, dst := m.src, cls := 3, tag := m.tag, arg := 0, payload := memRead d.hostMem (hField m.payload 0 8) (hField m.payload 8 4) } ((d.took p m).sends (d.dataAttr (hField m.payload 12 1 == 1) false)) := by
  obtain ⟨ports, hports⟩ := took_onPorts d p m
  have hone : (hField m.payload 8 4 + 255) / 256 = 1 := by omega
  have hall : limitN 0 256 (hField m.payload 8 4 - 256 * 0) = hField m.payload 8 4 := by
    unfold limitN
    grind
  unfold hostReadRequest
  rw [if_neg (by simp [hgo]), takeMsg_has h, hports]
  dsimp only
  rw [if_neg (by decide), hone, List.range_one, each_cons, each_nil, hall]
  rfl

theorem hostReadRequest_bad (h : d.Has p 0x10 m) (hgo : d.hostWaits = false) :
    hostReadRequest false d = sendMsg { type := 0x11, dst := m.src, cls := 3, tag := m.tag, arg := 2 ^ 31 } (((aerRecord 0 (d.took p m)).fs .HP_HC_STAT_DMA_ERR 1).bump .HP_HC_CNT_DMAERR) := by
  unfold hostReadRequest
  rw [if_neg (by simp [hgo]), takeMsg_has h]
  exact if_pos (by decide)

/-- The last data of a fetch is stored and the fetch ends. -/
theorem hostReadData_last {a n id : Nat} (h : d.Has p 0x11 m) (hfetch : d.link.fetch = [(m.tag, a, n, id)])
    (hgood : m.arg.testBit 31 = false) (hlast : n ≤ m.arg + (m.payload.take (n - m.arg)).length) :
    hostReadData d = ({ d.took p m with hostMem := memWrite d.hostMem (a + m.arg) (m.payload.take (n - m.arg)) } |>.onLink fun l => { l with fetch := [] }) := by
  obtain ⟨ports, hports⟩ := took_onPorts d p m
  have hfound : (d.link.fetch.find? fun e => e.1 == m.tag) = some (m.tag, a, n, id) := by
    simp [hfetch]
  have hleft : (d.link.fetch.filter fun e => e.1 != m.tag) = [] := by
    simp [hfetch]
  unfold hostReadData
  rw [takeMsg_has h, hports]
  dsimp only
  rw [hfound]
  dsimp only [Dev.onLink]
  rw [if_neg (by simp [hgood]), if_pos hlast, hleft]

theorem hostWriteMessage_data (h : d.Has p 0x12 m) (hgo : d.hostWaits = false) (hdata : m.arg ≠ 0) :
    hostWriteMessage d = { (d.took p m).sends (d.dataAttr (hField m.payload 8 1 == 1) true) with hostMem := memWrite d.hostMem (hField m.payload 0 8) ((m.payload.drop 16).take m.arg) } := by
  obtain ⟨ports, hports⟩ := took_onPorts d p m
  unfold hostWriteMessage
  rw [if_neg (by simp [hgo]), takeMsg_has h, hports]
  exact if_neg hdata

theorem hostWriteMessage_address (h : d.Has p 0x12 m) (hgo : d.hostWaits = false) (hnone : m.arg = 0) :
    hostWriteMessage d = (d.took p m).onHost fun h => { h with replyAt := sparseSet 0 h.replyAt (65536 * m.src + m.tag) (hField m.payload 0 8 + 1) } := by
  unfold hostWriteMessage
  rw [if_neg (by simp [hgo]), takeMsg_has h]
  exact if_pos hnone

/-- No data write stands before a reply that is alone. -/
theorem memberReply_taken (h : d.Has p 0x13 m) (hgo : d.hostWaits = false) :
    memberReply d =
      let key := 65536 * m.src + m.tag
      let a := sparseGet 0 d.host.replyAt key
      let d := (d.took p m).onHost fun h => { h with replyAt := sparseSet 0 h.replyAt key 0 }
      if m.arg.testBit 8 then d.cond (m.arg.testBit 0) fun d => (d.bump .HP_HC_CNT_ABANDON).fs .HP_HC_STAT_ABANDON 1
      else (d.cond (m.arg.testBit 0 && a != 0) (replyToHost (a - 1) (m.payload.take 32))).cond (m.arg.testBit 1) (notice (bitsOf m.arg 2 5)) := by
  obtain ⟨ports, hports⟩ := took_onPorts d p m
  have hbefore : (d.link.inbox.takeWhile fun e => e.2.type != 0x13) = [] := by
    simp [h.1, h.2.1]
  unfold memberReply
  rw [hbefore, if_neg (by simp [hgo]), takeMsg_has h, hports]

theorem memberReply_posted {a : Nat} (h : d.Has p 0x13 m) (hgo : d.hostWaits = false) (harg : m.arg = 1)
    (hat : sparseGet 0 d.host.replyAt (65536 * m.src + m.tag) = a + 1) :
    memberReply d = replyToHost a (m.payload.take 32) ((d.took p m).onHost fun h => { h with replyAt := sparseSet 0 h.replyAt (65536 * m.src + m.tag) 0 }) := by
  rw [memberReply_taken h hgo]
  dsimp only
  rw [hat, harg]
  rfl

theorem memberReply_discarded (h : d.Has p 0x13 m) (hgo : d.hostWaits = false) (harg : m.arg = 0x101) :
    memberReply d = (((d.took p m).onHost fun h => { h with replyAt := sparseSet 0 h.replyAt (65536 * m.src + m.tag) 0 }).bump .HP_HC_CNT_ABANDON).fs .HP_HC_STAT_ABANDON 1 := by
  rw [memberReply_taken h hgo]
  dsimp only
  rw [harg]
  rfl

theorem messageForward_empty (h : d.link.inbox = []) : messageForward d = d := by
  unfold messageForward
  rw [h]
  rfl

/-- The commands that act on a message change nothing where none has come. -/
theorem messages_idle {c : Instr} {s : State} (h : s.dev.link.inbox = [])
    (hc : c ∈ [Instr.mmioWrite, .mmioReadRequest, .mmioReadCompletion, .hostReadRequest true, .hostReadRequest false, .hostReadData, .hostWrite, .memberReply, .messageForward, .time, .sleep, .topo]) :
    Becomes c s s.dev := by
  have hnone := fun type => takeMsg_empty type h
  fin_cases hc
  · exact becomes_of_eq (f := mmioWrite) rfl (by simp [mmioWrite, hnone])
  · exact becomes_of_eq (f := mmioReadRequest) rfl (by simp [mmioReadRequest, hnone])
  · exact becomes_of_eq (f := mmioReadCompletion) rfl (by simp [mmioReadCompletion, hnone])
  · exact becomes_of_eq (f := hostReadRequest true) rfl (by simp [hostReadRequest, hnone])
  · exact becomes_of_eq (f := hostReadRequest false) rfl (by simp [hostReadRequest, hnone])
  · exact becomes_of_eq (f := hostReadData) rfl (by simp [hostReadData, hnone])
  · exact becomes_of_eq (f := hostWriteMessage) rfl (by simp [hostWriteMessage, hnone])
  · exact becomes_of_eq (f := memberReply) rfl (by simp [memberReply, hnone])
  · exact becomes_of_eq (f := messageForward) rfl (messageForward_empty h)
  · exact becomes_of_eq (f := timeMessage) rfl (by simp [timeMessage, hnone])
  · exact becomes_of_eq (f := sleepMessage) rfl (by simp [sleepMessage, hnone])
  · exact becomes_of_eq (f := topo) rfl (by simp [topo, hnone])

theorem sendMsg_self (h : m.dst = d.addr) :
    sendMsg m d = d.onLink fun l => { l with inbox := l.inbox ++ [(2, { m with src := d.addr })] } := if_pos h

theorem sendMsg_noRoute (h : m.dst ≠ d.addr) (hroute : d.route m.dst = none) : sendMsg m d = d.fs .QL_STAT_NOROUTE 1 := by
  unfold sendMsg
  rw [if_neg h, hroute]

end

/-- Settles O38: each message that is alone in the inbox is the one that is taken, and taking it changes the inbox and the ports only. -/
theorem memberMessages : Obligations.MemberMessages := by
  unfold Obligations.MemberMessages
  refine ⟨?_, ?_, ?_, ?_, ?_, ?_, ?_, ?_, ?_, ?_, fun c s => messages_idle, fun m d => sendMsg_self, fun m d h => sendMsg_noRoute h.1 h.2⟩
  · rintro p m s ⟨h, hopen⟩
    exact becomes_of_eq (f := mmioWrite) rfl (mmioWrite_taken h hopen)
  · rintro p m s ⟨h, hopen⟩
    exact becomes_of_eq (f := mmioReadRequest) rfl (mmioReadRequest_taken h hopen)
  · rintro p m r s ⟨h, hreads, htag, hunit⟩
    exact becomes_of_eq (f := mmioReadCompletion) rfl (mmioReadCompletion_taken h hreads htag hunit)
  · rintro p m s ⟨h, hgo, hlow, hhigh⟩
    exact becomes_of_eq (f := hostReadRequest true) rfl (hostReadRequest_good h hgo hlow hhigh)
  · rintro p m s ⟨h, hgo⟩
    exact becomes_of_eq (f := hostReadRequest false) rfl (hostReadRequest_bad h hgo)
  · rintro p m a n id s ⟨h, hfetch, hgood⟩ hlast
    exact becomes_of_eq (f := hostReadData) rfl (hostReadData_last h hfetch hgood hlast)
  · rintro p m s ⟨h, hgo, hdata⟩
    exact becomes_of_eq (f := hostWriteMessage) rfl (hostWriteMessage_data h hgo hdata)
  · rintro p m s ⟨h, hgo, hnone⟩
    exact becomes_of_eq (f := hostWriteMessage) rfl (hostWriteMessage_address h hgo hnone)
  · rintro p m a s ⟨h, hgo, harg⟩ hat
    exact becomes_of_eq (f := memberReply) rfl (memberReply_posted h hgo harg hat)
  · rintro p m s ⟨h, hgo, harg⟩
    exact becomes_of_eq (f := memberReply) rfl (memberReply_discarded h hgo harg)

end Sys2Proof.Proofs
end

section
/-!
SUPPORT. The chain's messages (17_quire_link.md R529 to R550): sending stays on the link, and a map that is adopted; the obligation.
-/

namespace Sys2Proof.Proofs

open Sys2Proof Sys2Proof.Machine Sys2Proof.Laws

/-! Sending: beside the link and the registers it changes nothing (R529, R538, R539). -/

/-- All of a unit but its link and its registers. -/
def besideLink (d : Dev) : Dev := { d with link := {}, regs := [] }

section
variable (d : Dev) (p : Nat) (m : QMsg)

theorem besideLink_sendFlits (n : Nat) : ∀ (b : Bytes) (d : Dev), besideLink (sendFlits n p b d) = besideLink d := by
  induction n with
  | zero => exact fun _ _ => rfl
  | succ n ih => exact fun b d => (ih _ _).trans rfl

theorem besideLink_portSend (n : Nat) : ∀ d : Dev, besideLink (portSend n p d) = besideLink d := by
  induction n with
  | zero => exact fun _ => rfl
  | succ n ih =>
    intro d
    unfold portSend
    dsimp only
    split
    · rfl
    split
    · rfl
    · exact (ih _).trans (besideLink_sendFlits p _ _ _)

theorem besideLink_putWait (own : Bool) : besideLink (putWait p own m d) = besideLink d := by
  unfold putWait
  exact cond_eq besideLink (fun _ => rfl) ..

theorem besideLink_passToken : besideLink (passToken p d) = besideLink d := by
  unfold passToken
  dsimp only
  split
  · rfl
  · exact (besideLink_putWait _ _ _ _).trans rfl

theorem besideLink_portFlush : besideLink (portFlush p d) = besideLink d :=
  (besideLink_portSend p _ _).trans ((besideLink_passToken _ _).trans (besideLink_portSend p _ _))

theorem besideLink_sendMsg : besideLink (sendMsg m d) = besideLink d := by
  unfold sendMsg
  split
  · rfl
  split
  · rfl
  · exact (besideLink_portFlush _ _).trans ((besideLink_putWait _ _ _ _).trans rfl)

theorem besideLink_passOn : besideLink (passOn p m d) = besideLink d := by
  unfold passOn
  split
  · unfold legReport
    dsimp only
    split
    · exact besideLink_sendMsg d _
    · rfl
  · exact (besideLink_portFlush _ _).trans (besideLink_putWait _ _ _ _)

theorem passOn_qtime : (passOn p m d).qtime = d.qtime := (congrArg Dev.qtime (besideLink_passOn d p m) :)

end

/-! A map adopted (R533, R535). -/

/-- The unit once the held writes whose window belongs to another unit in the map that comes are dropped (R535). -/
def windowsDropped (units : List QUnit) (d : Dev) : Dev :=
  let moved := fun (a : Nat) => !((d.unitAt a).map (·.serial) == (units[a]?).map (·.serial))
  let gone := (d.host.held.zipIdx.filter fun e => d.link.units.length != 0 && moved e.1.unit).map (·.2)
  d.each gone.reverse fun d i => dropHeld i d

/-- The unit once its commands and its tag queue have followed their home heads into the map that comes (R535). -/
def homesFollowed (units : List QUnit) (d : Dev) : Dev :=
  (d.onFw fun w => { w with cmds := w.cmds.map (reHome d units) }).cond
    ((d.onFw fun w => { w with cmds := w.cmds.map (reHome d units) }).is .HP_Q_CTL_EN && !d.link.units.isEmpty) fun e =>
      match newHome d units (e.fg .HP_Q_CTL_HOME) with
      | some h => e.fs .HP_Q_CTL_HOME h
      | none => queueDrain e

/-- The head role of a unit's place in the map: 1 head A, 2 head B, 0 neither (R533, R534). -/
def roleAt (units : List QUnit) : Option Nat → Nat
  | some 0 => 1
  | some i => if (units[i]?).any (·.headB) then 2 else 0
  | none => 0

/-- A unit with the address, role, number of units and epoch of a map in its registers. -/
def mapNoted (epoch : Nat) (units : List QUnit) (me : Option Nat) (d : Dev) : Dev :=
  ((((d.fs .QL_STAT_ADDR_VALID (bit me.isSome)).fs .QL_ID_ADDR (me.getD 0)).fs .QL_ID_ROLE (roleAt units me)).fs .QL_ID_UNITS units.length).fs
    .QL_EPOCH epoch

/-- What a link knows of the chain from a new map on. -/
def mapKept (units : List QUnit) (down : List Nat) (l : Link) : Link :=
  { l with units := units, down := down, asleep := [], eseqTx := [], eseqRx := [], claiming := false, mapPart := [] }

section
variable {d : Dev} {epoch : Nat} {units : List QUnit} {down : List Nat}

/-- The steps of adopting a map, by name. -/
theorem adoptMap_eq (epoch : Nat) (units : List QUnit) (down : List Nat) (d : Dev) :
    adoptMap epoch units down d =
      let e := homesFollowed units (windowsDropped units d)
      headAttn (topoBit ((mapNoted epoch units (units.findIdx? fun u => u.serial == e.serial) e).onLink (mapKept units down))) := by
  unfold adoptMap mapNoted homesFollowed windowsDropped mapKept
  dsimp only
  congr 4

theorem queueDrain_link (d : Dev) : (queueDrain d).link = d.link := by
  unfold queueDrain
  split
  · rfl
  split <;> rfl

theorem attn_link (d : Dev) (code : Nat) : (d.attn code).link = d.link := by
  unfold Dev.attn
  dsimp only
  rw [fs_link, fs_link, fs_link]

theorem headAttn_link (d : Dev) : (headAttn d).link = d.link := by
  unfold headAttn
  exact cond_eq Dev.link fun e => attn_link e 3

theorem windowsDropped_link (units : List QUnit) (d : Dev) : (windowsDropped units d).link = d.link :=
  each_eq (f := fun d i => dropHeld i d) d Dev.link (fun _ _ => rfl) _

theorem homesFollowed_link (units : List QUnit) (d : Dev) : (homesFollowed units d).link = d.link := by
  unfold homesFollowed
  refine (cond_eq Dev.link fun e => ?_).trans rfl
  split
  · rfl
  · exact queueDrain_link e

/-- Adopting a map replaces what the unit knows of the chain, and keeps the rest of the link. -/
theorem adoptMap_link : (adoptMap epoch units down d).link = mapKept units down d.link := by
  rw [adoptMap_eq]
  dsimp only
  unfold topoBit
  rw [headAttn_link, fs_link, onLink_link]
  unfold mapNoted
  rw [fs_link, fs_link, fs_link, fs_link, fs_link, homesFollowed_link, windowsDropped_link]

theorem windowsDropped_none (hheld : d.host.held = []) : windowsDropped units d = d := by
  unfold windowsDropped
  rw [hheld]
  rfl

theorem homesFollowed_first (hunits : d.link.units = []) :
    homesFollowed units d = d.onFw fun w => { w with cmds := w.cmds.map (reHome d units) } := by
  unfold homesFollowed
  rw [hunits, List.isEmpty_nil, Bool.not_true, Bool.and_false, Laws.cond_false]

theorem mapNoted_onFw (me : Option Nat) (f : Firmware → Firmware) :
    mapNoted epoch units me (d.onFw f) = (mapNoted epoch units me d).onFw f := rfl

theorem headAttn_fg (d : Dev) {x : Fld} (h : Reg.HP_UNIT_ATTN.key 0 0 ≠ x.reg.key 0 0) : (headAttn d).fg x = d.fg x := by
  unfold headAttn
  exact cond_eq (fun e => e.fg x) fun e => attn_fg e 3 h

/-- Adopting a first map keeps all that neither the map's registers nor the state and attention bits hold. -/
theorem adoptMap_fg {x : Fld} (hunits : d.link.units = []) (hheld : d.host.held = []) (hx : SingleApart .QL_STAT_TOPO x)
    (hattn : Reg.HP_UNIT_ATTN.key 0 0 ≠ x.reg.key 0 0) :
    (adoptMap epoch units down d).fg x = (mapNoted epoch units (units.findIdx? fun u => u.serial == d.serial) d).fg x := by
  rw [adoptMap_eq]
  dsimp only
  rw [windowsDropped_none hheld, homesFollowed_first hunits, headAttn_fg _ hattn]
  unfold topoBit
  rw [fg_fs_single _ _ hx, onLink_fg, mapNoted_onFw, onFw_fg]
  rfl

theorem roleAt_lt (units : List QUnit) (me : Option Nat) : roleAt units me < 4 := by
  unfold roleAt
  split
  · decide
  · split <;> decide
  · decide

section
variable {me : Option Nat}

theorem mapNoted_valid (d : Dev) : (mapNoted epoch units me d).is .QL_STAT_ADDR_VALID = me.isSome := by
  unfold mapNoted
  rw [is_fs_single _ _ (by decide), is_fs_single _ _ (by decide), is_fs_single _ _ (by decide), is_fs_single _ _ (by decide),
    is_fs_bit _ _ _ _ _ (by decide) rfl]

theorem mapNoted_addr (d : Dev) (h : me.getD 0 < 64) : (mapNoted epoch units me d).fg .QL_ID_ADDR = me.getD 0 := by
  unfold mapNoted
  rw [fg_fs_single _ _ (by decide), fg_fs_single _ _ (by decide), fg_fs_single _ _ (by decide), fg_fs_of_lt _ 0 (by decide) h]

theorem mapNoted_role (d : Dev) : (mapNoted epoch units me d).fg .QL_ID_ROLE = roleAt units me := by
  unfold mapNoted
  rw [fg_fs_single _ _ (by decide), fg_fs_single _ _ (by decide), fg_fs_of_lt _ 0 (by decide) (roleAt_lt units me)]

theorem mapNoted_units (d : Dev) (h : units.length < 128) : (mapNoted epoch units me d).fg .QL_ID_UNITS = units.length := by
  unfold mapNoted
  rw [fg_fs_single _ _ (by decide), fg_fs_of_lt _ 0 (by decide) h]

theorem mapNoted_epoch (d : Dev) (h : epoch < 2 ^ 32) : (mapNoted epoch units me d).fg .QL_EPOCH = epoch :=
  fg_fs_of_lt _ 0 (by decide) h

end


/-- A unit that finds itself in its first map takes its address, its role and the map's size and epoch from it. -/
theorem adoptMap_found {i : Nat} {u : QUnit} (hunits : d.link.units = []) (hheld : d.host.held = []) (hlen : units.length < 64)
    (hepoch : epoch < 2 ^ 32) (hme : (units.findIdx? fun u => u.serial == d.serial) = some i) (hu : units[i]? = some u) :
    (adoptMap epoch units down d).addr = i ∧ (adoptMap epoch units down d).epoch = epoch ∧
      (adoptMap epoch units down d).is .QL_STAT_ADDR_VALID = true ∧
      (adoptMap epoch units down d).role = (if i = 0 then 1 else if u.headB then 2 else 0) ∧
      (adoptMap epoch units down d).fg .QL_ID_UNITS = units.length := by
  have hi : i < units.length := (List.getElem?_eq_some_iff.mp hu).1
  have hrole : roleAt units (some i) = if i = 0 then 1 else if u.headB then 2 else 0 := by
    cases i with
    | zero => rfl
    | succ i => simp [roleAt, hu]
  refine ⟨?_, ?_, ?_, ?_, ?_⟩
  · exact (adoptMap_fg hunits hheld (by decide) (by decide)).trans (by rw [hme, mapNoted_addr d (by simp; omega), Option.getD_some])
  · exact (adoptMap_fg hunits hheld (by decide) (by decide)).trans (by rw [mapNoted_epoch d hepoch])
  · refine (congrArg (· == 1) (adoptMap_fg hunits hheld (by decide) (by decide))).trans ?_
    exact (mapNoted_valid d).trans (by rw [hme, Option.isSome_some])
  · exact (adoptMap_fg hunits hheld (by decide) (by decide)).trans (by rw [hme, mapNoted_role, hrole])
  · exact (adoptMap_fg hunits hheld (by decide) (by decide)).trans (by rw [mapNoted_units d (by omega)])

end

/-! The election, the count-off and the map (R532, R533, R535). -/

section
variable {d : Dev} {p : Nat} {m : QMsg}

theorem took_claiming (d : Dev) (p : Nat) (m : QMsg) : (d.took p m).link.claiming = d.link.claiming := by
  obtain ⟨ports, hports⟩ := took_onPorts d p m
  rw [hports]

theorem took_op (d : Dev) (p : Nat) (m : QMsg) : (d.took p m).link.op = d.link.op := by
  obtain ⟨ports, hports⟩ := took_onPorts d p m
  rw [hports]

theorem took_fg (d : Dev) (p : Nat) (m : QMsg) (x : Fld) (i : Nat) : (d.took p m).fg x i = d.fg x i := by
  obtain ⟨ports, hports⟩ := took_onPorts d p m
  rw [hports]
  rfl

theorem took_serial (d : Dev) (p : Nat) (m : QMsg) : (d.took p m).serial = d.serial := by
  obtain ⟨ports, hports⟩ := took_onPorts d p m
  rw [hports]
  rfl

theorem took_qtime (d : Dev) (p : Nat) (m : QMsg) : (d.took p m).qtime = d.qtime := by
  obtain ⟨ports, hports⟩ := took_onPorts d p m
  rw [hports]

theorem took_addr (d : Dev) (p : Nat) (m : QMsg) : (d.took p m).addr = d.addr := took_fg d p m _ 0

/-- A message from another unit is not this unit's own. -/
theorem took_notMine (h : m.src ≠ d.addr) : ¬ (m.src = (d.took p m).addr ∧ (d.took p m).is .QL_STAT_ADDR_VALID = true) := by
  rw [took_addr]
  exact fun hm => h hm.1

/-- A unit that coordinates an operation. -/
theorem ownOp_of {o : ChainOp} (hop : d.link.op = some o) (hown : o.own = true) : d.ownOp = some o := by
  unfold Dev.ownOp
  rw [hop, Option.filter_some_pos hown]

end
end Sys2Proof.Proofs
end

section
/-!
SUPPORT. The chain's messages (17_quire_link.md R532 to R550): the obligation.
-/

namespace Sys2Proof.Proofs

open Sys2Proof Sys2Proof.Machine Sys2Proof.Laws

/-! The election, the count-off and the map (R532, R533, R535). -/

section
variable {d : Dev} {p : Nat} {m : QMsg}

theorem claim_won (h : d.Has p 0x30 m) (hmine : m.arg = d.serial % 2 ^ 32) (hclaim : d.link.claiming = true) (htag : m.tag = 2) :
    claim d = countStart none (d.took p m) := by
  unfold claim
  rw [takeMsg_has h]
  dsimp only
  rw [took_serial, took_claiming, if_pos hmine, if_neg (by simp [hclaim]), if_pos (by simp [htag])]

theorem claim_lost (h : d.Has p 0x30 m) (hless : m.arg < d.serial % 2 ^ 32) (hclaim : d.link.claiming = true) :
    claim d = claimOn m ((d.took p m).onLink fun l => { l with claiming := false }) := by
  unfold claim
  rw [takeMsg_has h]
  dsimp only
  rw [took_serial, took_claiming, if_neg (Nat.ne_of_lt hless), if_pos (by simp [hclaim]), if_pos hless]

theorem claim_none (h : d.link.inbox = []) (hmay : d.mayClaim = false) : claim d = d := by
  unfold claim
  rw [takeMsg_empty _ h]
  exact if_pos (by simp [hmay])

/-- The unit engaged in the count-off of head `head`. -/
def counted (head : Nat) (d : Dev) : Dev :=
  engage (some { op := 1, head := head }) (d.onLink fun l => { l with claiming := false })

theorem count_numbered (h : d.Has p 0x31 m) (hbcast : m.bcast = true) (hhead : hField m.payload 8 8 ≠ d.serial)
    (hrel : m.arg.testBit 25 = false) (hop : d.link.op = none) (hends : d.legEnds p m = true) :
    count d = portFlush p (putWait p true
      { type := 0x31, src := m.arg % 64, epoch := (counted (hField m.payload 8 8) (d.took p m)).epoch,
        arg := m.arg + bitsOf (counted (hField m.payload 8 8) (d.took p m)).unitId.toNat 12 3 <<< 8 +
          bit ((counted (hField m.payload 8 8) (d.took p m)).bonded && (counted (hField m.payload 8 8) (d.took p m)).host.up) <<< 16 + 1 <<< 24,
        payload := leBytes 8 (counted (hField m.payload 8 8) (d.took p m)).serial ++ leBytes 8 (counted (hField m.payload 8 8) (d.took p m)).qtime }
      (counted (hField m.payload 8 8) (d.took p m))) := by
  have hleg : (d.took p m).legEnds p m = true := by
    unfold Dev.legEnds Dev.portState at hends ⊢
    rwa [took_fg]
  unfold count
  rw [takeMsg_has h]
  dsimp only
  rw [if_pos hbcast, if_neg (by rw [took_serial]; exact hhead), if_neg (by simp [hrel]), if_neg (by simp [took_op, hop]),
    if_pos hleg, hleg]
  rfl

/-- A coordinator that does not know how many answers come goes on waiting. -/
theorem countCheck_waits {o : ChainOp} (hop : d.link.op = some o) (hown : o.own = true) (hlegs : o.legs = 0) : countCheck d = d := by
  unfold countCheck
  rw [ownOp_of hop hown]
  exact if_neg (by simp [hlegs])

theorem count_answered {o : ChainOp} (h : d.Has p 0x31 m) (hbcast : m.bcast = false) (hok : m.arg.testBit 25 = false)
    (hmore : m.arg.testBit 24 = false) (hlow : m.arg % 256 < 64) (hop : d.link.op = some o) (hown : o.own = true)
    (hphase : o.phase = 1) (hlegs : o.legs = 0) :
    count d = (d.took p m).onLink fun l => { l with count := l.count ++ [{ addr := m.arg % 256, serial := hField m.payload 0 8, variant := bitsOf m.arg 8 3, epoch := m.epoch, host := m.arg.testBit 16, time := hField m.payload 8 8, above := false }] } := by
  unfold count
  rw [takeMsg_has h]
  dsimp only
  rw [if_neg (by simp [hbcast]), if_neg (by simp [hok]), ownOp_of ((took_op d p m).trans hop) hown]
  dsimp only
  rw [if_pos hlow, if_pos (by simp [hmore]), hphase]
  exact countCheck_waits ((took_op d p m).trans hop) hown hlegs

theorem mapMessage_whole (h : d.Has p 0x32 m) (hbcast : m.bcast = true) (hop : d.link.op = none) (hfirst : hField m.payload 5 1 = 0)
    (hfew : hField m.payload 4 1 ≤ 4) {units : List QUnit}
    (hunits : units = (List.range (hField m.payload 4 1)).map fun i => ({ serial := hField m.payload (16 + 16 * i) 8, pos := hField m.payload (24 + 16 * i) 1, headB := hField m.payload (25 + 16 * i) 1 == 1 } : QUnit)) :
    mapMessage d = passOn p m (adoptMap (hField m.payload 0 4) units (if hField m.payload 6 1 = 1 then [hField m.payload 7 1] else [])
      ((d.took p m).onLink fun l => { l with mapPart := units })) := by
  have hidle : ∀ e : Dev, e.link.op = none → e.counting = false := fun e he => by
    unfold Dev.counting
    rw [he]
    rfl
  have hall : limitN 0 4 (hField m.payload 4 1 - 0) = hField m.payload 4 1 := by
    unfold limitN
    grind
  have hlen : ¬ units.length < hField m.payload 4 1 := by simp [hunits]
  unfold mapMessage
  rw [takeMsg_has h]
  dsimp only
  rw [if_neg (by simp [hbcast, hidle _ ((took_op d p m).trans hop)]), hfirst, if_pos rfl, hall, List.nil_append, ← hunits, if_neg hlen,
    if_neg (by rw [adoptMap_link]; simp [mapKept, took_op, hop])]


end

/-! The token and Quire time (R539, R544, R545). -/

section
variable {d : Dev} {p : Nat} {m : QMsg}

theorem token_passes {out : Nat} (h : d.Has p 0x33 m) (hbcast : m.bcast = true) (hout : out = onward p m) (hup : d.portState out = 2) :
    token d = takeToken out (d.took p m) := by
  have hstill : (d.took p m).portState out = 2 := (took_fg d p m _ _).trans hup
  unfold token
  rw [takeMsg_has h]
  dsimp only
  rw [if_neg (by simp [hbcast]), ← hout, if_pos hstill]

/-- A token that has not passed for 10 ms. -/
theorem tokenLost_due (hnone : (d.port p).token = false) (hvalid : d.is .QL_STAT_ADDR_VALID = true)
    (hlate : (d.port p).passed + 10000000 ≤ d.qtime) :
    tokenLost p d = if d.role = 1 then takeToken p (d.fs .QL_STAT_TOKEN_LOST 1)
      else sendMsg { type := 0x33, dst := 0, arg := p } (d.fs .QL_STAT_TOKEN_LOST 1) := by
  have hrole : (d.fs .QL_STAT_TOKEN_LOST 1).role = d.role := fg_fs_single d _ (by decide)
  unfold tokenLost
  rw [if_neg (by simp [hnone, hvalid, hlate])]
  dsimp only
  rw [hrole]

theorem tokenLost_idle (h : d.qtime < (d.port p).passed + 10000000 ∨ (d.port p).token = true) : tokenLost p d = d :=
  if_pos (by rcases h with h | h <;> simp [h])

/-- Time passes in full at a unit that head A's time is not behind. -/
theorem timePass_level (elapsed : Nat) (hlevel : d.link.ahead = 0) :
    timePass elapsed d = { d with qtime := (d.qtime + elapsed) % 2 ^ 64 } := by
  have hadv : (if elapsed ≤ 2 * d.link.ahead then elapsed / 2 else elapsed - d.link.ahead) = elapsed := by
    rw [hlevel]
    split <;> omega
  have hlink : { d.link with ahead := 0 } = d.link := by
    rw [← hlevel]
  have hsame : (d.onLink fun l => { l with ahead := 0 }) = d := congrArg (fun l => { d with link := l }) hlink
  unfold timePass
  dsimp only
  rw [hadv, hlevel, Nat.zero_sub]
  exact congrArg (fun e : Dev => { e with qtime := (d.qtime + elapsed) % 2 ^ 64 }) hsame

/-- Time passes at half its rate at a unit ahead of head A's (R545). -/
theorem timePass_half {elapsed : Nat} (hahead : elapsed ≤ 2 * d.link.ahead) :
    timePass elapsed d = { d with qtime := (d.qtime + elapsed / 2) % 2 ^ 64, link := { d.link with ahead := d.link.ahead - (elapsed - elapsed / 2) } } := by
  unfold timePass
  dsimp only
  rw [if_pos hahead]
  rfl

theorem timePass_role (elapsed : Nat) (d : Dev) : (timePass elapsed d).role = d.role := rfl

theorem timeBroadcast_other (elapsed : Nat) (hrole : d.role ≠ 1) : timeBroadcast elapsed d = timePass elapsed d := by
  unfold timeBroadcast
  exact if_pos (by rw [timePass_role]; simpa using hrole)

theorem timeBroadcast_headA {elapsed : Nat} (hrole : d.role = 1) (hlevel : d.link.ahead = 0)
    (hm : m = { type := 0x34, payload := takeFill 0#8 16 (leBytes 8 ((d.qtime + elapsed) % 2 ^ 64)) }) :
    timeBroadcast elapsed d = sendOn 0 m (sendOn 1 m { d with qtime := (d.qtime + elapsed) % 2 ^ 64 }) := by
  unfold timeBroadcast
  dsimp only
  rw [if_neg (by rw [timePass_role]; simpa using hrole), timePass_level elapsed hlevel, hm]

/-- A TIME message of another unit: this unit's time becomes its own or the message's, whichever is later (R545). -/
theorem timeMessage_taken {t : Nat} (h : d.Has p 0x34 m) (hsrc : m.src ≠ d.addr) (ht : t = hField m.payload 0 8 + d.fg .QL_PDELAY_DELAY p) :
    timeMessage d = passOn p { m with payload := takeFill 0#8 16 (leBytes 8 t) }
      { (d.took p m).onLink fun l => { l with ahead := d.qtime - t } with qtime := limitN d.qtime (2 ^ 64 - 1) t } := by
  unfold timeMessage
  rw [takeMsg_has h]
  dsimp only
  rw [if_neg (by simpa using took_notMine hsrc), took_fg, ← ht, took_qtime]

theorem timeMessage_forward {t : Nat} (h : d.Has p 0x34 m) (hsrc : m.src ≠ d.addr) (ht : t = hField m.payload 0 8 + d.fg .QL_PDELAY_DELAY p)
    (hlater : d.qtime ≤ t) (hfit : t < 2 ^ 64) :
    timeMessage d = passOn p { m with payload := takeFill 0#8 16 (leBytes 8 t) } { (d.took p m).onLink fun l => { l with ahead := 0 } with qtime := t } := by
  have hto : limitN d.qtime (2 ^ 64 - 1) t = t := by
    unfold limitN
    grind
  rw [timeMessage_taken h hsrc ht, hto, Nat.sub_eq_zero_of_le hlater]

theorem timeMessage_ahead {t : Nat} (h : d.Has p 0x34 m) (hsrc : m.src ≠ d.addr) (ht : t = hField m.payload 0 8 + d.fg .QL_PDELAY_DELAY p)
    (hbehind : t < d.qtime) :
    timeMessage d = passOn p { m with payload := takeFill 0#8 16 (leBytes 8 t) } ((d.took p m).onLink fun l => { l with ahead := d.qtime - t }) := by
  have hto : limitN d.qtime (2 ^ 64 - 1) t = d.qtime := if_pos hbehind
  obtain ⟨ports, hports⟩ := took_onPorts d p m
  rw [timeMessage_taken h hsrc ht, hto, hports]
  rfl

theorem takeMsg_qtime {type : Nat} {x : Nat × QMsg} {e : Dev} (h : takeMsg type d = some (x, e)) : e.qtime = d.qtime := by
  unfold takeMsg at h
  obtain ⟨i, -, hi⟩ := Option.bind_eq_some_iff.mp h
  obtain ⟨y, -, hy⟩ := Option.map_eq_some_iff.mp hi
  obtain ⟨ports, hports⟩ := giveBack_onPorts y.1 y.2 (d.onLink fun l => { l with inbox := l.inbox.eraseIdx i })
  rw [← (Prod.mk.inj hy).2, hports]
  rfl

/-- Quire time never decreases at a TIME message, and stays in its 64 bits. -/
theorem timeMessage_qtime (h : d.qtime < 2 ^ 64) : d.qtime ≤ (timeMessage d).qtime ∧ (timeMessage d).qtime < 2 ^ 64 := by
  unfold timeMessage
  split
  · exact ⟨Nat.le_refl _, h⟩
  next q m e hq =>
    have hqtime : e.qtime = d.qtime := takeMsg_qtime hq
    split
    · rw [hqtime]
      exact ⟨Nat.le_refl _, h⟩
    · rw [passOn_qtime]
      dsimp only
      rw [hqtime]
      unfold limitN
      split_ifs <;> omega

end

/-! The passes of chain-wide operations (R546 to R550). -/

section
variable {d : Dev} {p : Nat} {m : QMsg}

/-- A unit engaged in no operation is free for any. -/
theorem free_of_none (op head : Nat) (h : d.link.op = none) : d.free? op head = true := by
  unfold Dev.free?
  rw [h]
  rfl

/-- A coordinator is free for no operation of another unit. -/
theorem not_free_of_own {o : ChainOp} (op head : Nat) (h : d.link.op = some o) (hown : o.own = true) : d.free? op head = false := by
  unfold Dev.free?
  rw [h]
  simp [hown]

/-- A barrier's arrive pass at a free unit: the unit is engaged, and the pass waits for the commands accepted before it. -/
theorem barrier_arrives (h : d.Has p 0x35 m) (hbcast : m.bcast = true) (hsrc : m.src ≠ d.addr) (harg : m.arg = 1) (hop : d.link.op = none) :
    barrier d = barrierGo ((engage (some { op := 2, head := m.src, began := d.qtime }) (d.took p m)).onLink fun l =>
      { l with arrive := some m, barrier := d.earlier none }) := by
  have hearlier : (engage (some { op := 2, head := m.src, began := d.qtime }) (d.took p m)).earlier none = d.earlier none := by
    obtain ⟨ports, hports⟩ := took_onPorts d p m
    rw [hports]
    rfl
  unfold barrier
  rw [takeMsg_has h]
  dsimp only
  rw [if_neg (by simp [hbcast]), if_neg (by simpa using took_notMine hsrc), if_pos harg,
    if_neg (by simp [free_of_none 2 m.src ((took_op d p m).trans hop)]), took_qtime, hearlier]

theorem barrier_passes (h : d.Has p 0x35 m) (hbcast : m.bcast = true) (hsrc : m.src ≠ d.addr) (harg : m.arg = 1) (hop : d.link.op = none)
    (hcmds : d.fw.cmds = []) :
    barrier d = passOn 2 m ((engage (some { op := 2, head := m.src, began := d.qtime }) (d.took p m)).onLink fun l => { l with arrive := none, barrier := [] }) := by
  have hearlier : d.earlier none = [] := by
    unfold Dev.earlier
    rw [hcmds]
    rfl
  rw [barrier_arrives h hbcast hsrc harg hop, hearlier]
  generalize engage _ (d.took p m) = e
  rfl

theorem barrier_waits {c : Cmd} (h : d.Has p 0x35 m) (hbcast : m.bcast = true) (hsrc : m.src ≠ d.addr) (harg : m.arg = 1) (hop : d.link.op = none)
    (hcmds : d.fw.cmds = [c]) (hssq : c.ssq ≠ 0) :
    barrier d = (engage (some { op := 2, head := m.src, began := d.qtime }) (d.took p m)).onLink fun l => { l with arrive := some m, barrier := [c.id] } := by
  have hearlier : d.earlier none = [c.id] := by
    unfold Dev.earlier
    simp [hcmds, hssq]
  rw [barrier_arrives h hbcast hsrc harg hop, hearlier]
  generalize engage _ (d.took p m) = e
  rfl

/-- A pass of an operation at a unit that coordinates one of its own is refused. -/
theorem pass_refused {type : Nat} {o : ChainOp} {c : Instr} {s : State} (h : s.dev.Has p type m) (hbcast : m.bcast = true)
    (hsrc : m.src ≠ s.dev.addr) (harg : m.arg = 1) (hop : s.dev.link.op = some o) (hown : o.own = true)
    (hc : (c, type) ∈ [(Instr.barrier, 0x35), (.snap, 0x36), (.chainReset false, 0x37), (.chainReset true, 0x37)]) :
    Becomes c s (sendMsg { type := type, dst := m.src, cls := 0, arg := 3, epoch := (s.dev.took p m).epoch } (s.dev.took p m)) := by
  have hmine := took_notMine (p := p) hsrc
  have hbusy := fun op => not_free_of_own op m.src ((took_op s.dev p m).trans hop) hown
  have hrefuse : refuse m (s.dev.took p m) =
      sendMsg { type := type, dst := m.src, cls := 0, arg := 3, epoch := (s.dev.took p m).epoch } (s.dev.took p m) := by
    rw [← h.2.1]
    rfl
  have hreset : ∀ begun, type = 0x37 → chainReset begun s.dev = refuse m (s.dev.took p m) := fun begun htype => by
    unfold chainReset
    rw [takeMsg_has (htype ▸ h)]
    dsimp only
    rw [if_neg (by simp [hbcast]), if_neg (by simpa using hmine), if_pos (by simp [hbusy])]
  rw [← hrefuse]
  simp only [List.mem_cons, Prod.mk.injEq, List.not_mem_nil, or_false] at hc
  obtain ⟨rfl, htype⟩ | ⟨rfl, htype⟩ | ⟨rfl, htype⟩ | ⟨rfl, htype⟩ := hc
  · refine becomes_of_eq (f := barrier) rfl ?_
    unfold barrier
    rw [takeMsg_has (htype ▸ h)]
    dsimp only
    rw [if_neg (by simp [hbcast]), if_neg (by simpa using hmine), if_pos harg, if_pos (by simp [hbusy])]
  · refine becomes_of_eq (f := snap) rfl ?_
    unfold snap
    rw [takeMsg_has (htype ▸ h)]
    dsimp only
    rw [if_neg (by simp [hbcast]), if_neg (by simpa using hmine), if_pos (by simp [harg]), if_pos (by simp [hbusy])]
  · exact becomes_of_eq (f := chainReset false) rfl (hreset false htype)
  · exact becomes_of_eq (f := chainReset true) rfl (hreset true htype)

theorem snap_holds (h : d.Has p 0x36 m) (hbcast : m.bcast = true) (hsrc : m.src ≠ d.addr) (harg : m.arg % 4 = 1) (hop : d.link.op = none) :
    snap d = passOn p m (engage (some { op := 3, head := m.src, began := d.qtime }) (d.took p m)) := by
  unfold snap
  rw [takeMsg_has h]
  dsimp only
  rw [if_neg (by simp [hbcast]), if_neg (by simpa using took_notMine hsrc), if_pos harg,
    if_neg (by simp [free_of_none 3 m.src ((took_op d p m).trans hop)]), took_qtime]

theorem snap_releases {o : ChainOp} (h : d.Has p 0x36 m) (hbcast : m.bcast = true) (hsrc : m.src ≠ d.addr) (harg : m.arg % 4 = 2)
    (hop : d.link.op = some o) (hthree : o.op = 3) (hhead : o.head = m.src) (hown : o.own = false) :
    snap d = passOn p m (release (d.took p m)) := by
  unfold snap
  rw [takeMsg_has h]
  dsimp only
  rw [if_neg (by simp [hbcast]), if_neg (by simpa using took_notMine hsrc), if_neg (by simp [harg]),
    if_pos (by simp [took_op, hop, hthree, hhead, hown])]

theorem chainReset_engages (begun : Bool) (h : d.Has p 0x37 m) (hbcast : m.bcast = true) (hsrc : m.src ≠ d.addr) (hop : d.link.op = none) :
    chainReset begun d = passOn p m (engage (some { op := 4, head := m.src, legs := if d.legEnds p m then p else onward p m, began := d.qtime }) (d.took p m)) := by
  have hleg : (d.took p m).legEnds p m = d.legEnds p m := by
    unfold Dev.legEnds Dev.portState
    rw [took_fg]
  unfold chainReset
  rw [takeMsg_has h]
  dsimp only
  rw [if_neg (by simp [hbcast]), if_neg (by simpa using took_notMine hsrc),
    if_neg (by simp [free_of_none 4 m.src ((took_op d p m).trans hop)]), took_qtime, hleg]

/-- The frame that carried the reset on has been acknowledged. -/
theorem chainReset_resets {o : ChainOp} (begun : Bool) (hinbox : d.link.inbox = []) (hop : d.link.op = some o) (hfour : o.op = 4)
    (hown : o.own = false) (hsent : (d.port o.legs).retry = []) : chainReset begun d = unitReset 2 false begun [] [] d := by
  unfold chainReset
  rw [takeMsg_empty _ hinbox, hop]
  dsimp only
  rw [if_pos (by simp [hfour, hown, hsent])]

/-! Sleep and the state of links (R530, R542, R543). -/

theorem sleepMessage_wake (h : d.Has p 0x38 m) (harg : m.arg % 256 = 3) (hsrc : m.src ≠ d.addr) :
    sleepMessage d = passOn p m (linkState (bitsOf m.arg 8 6) false false (d.took p m)) := by
  unfold sleepMessage
  rw [takeMsg_has h]
  dsimp only
  rw [harg]
  exact if_neg (by rw [took_addr]; exact hsrc)

theorem sleepMessage_refused (h : d.Has p 0x38 m) (harg : m.arg % 256 = 1) (hmay : (d.took p m).maySleep (bitsOf m.arg 8 6) = false) :
    sleepMessage d = sendMsg { type := 0x38, dst := bitsOf m.arg 8 6, arg := 4 + bitsOf m.arg 8 6 <<< 8 } (d.took p m) := by
  unfold sleepMessage
  rw [takeMsg_has h]
  dsimp only
  rw [harg]
  exact if_neg (by simp [hmay])

theorem sleepMessage_granted (h : d.Has p 0x38 m) (harg : m.arg % 256 = 2) (hsrc : m.src ≠ d.addr) :
    sleepMessage d = linksSleep (bitsOf m.arg 8 6) (passOn p m (d.took p m)) := by
  unfold sleepMessage
  rw [takeMsg_has h]
  dsimp only
  rw [harg]
  exact if_neg (by rw [took_addr]; exact hsrc)

theorem topo_down (h : d.Has p 0x39 m) (hsrc : m.src ≠ d.addr) (hstate : hField m.payload 1 1 = 0) :
    topo d = headAttn (passOn p m (linkState (hField m.payload 0 1) true false (d.took p m))) := by
  unfold topo
  rw [takeMsg_has h]
  dsimp only
  rw [if_neg (by simpa using took_notMine hsrc), hstate]
  rfl

theorem linkIdleSleep_asks (hmode : d.mode = 1) (hsleep : d.aon.sleep = true) (hawake : d.aon.asleep = false)
    (hquiet : ∀ p : Fin 2, d.portState p ≠ 2 ∨ (d.port p).busy + 100000000 ≤ d.qtime) :
    linkIdleSleep d = sendMsg { type := 0x38, dst := 0, arg := 1 + d.addr <<< 8 } d := by
  have hboth : ([0, 1].all fun p => d.portState p != 2 || decide ((d.port p).busy + 100000000 ≤ d.qtime)) = true := by
    have h0 := hquiet 0
    have h1 := hquiet 1
    simp only [Fin.val_zero, Fin.val_one] at h0 h1
    simp [h0, h1]
  unfold linkIdleSleep
  dsimp only
  rw [hboth, hmode, hsleep, hawake]
  rfl

theorem linkIdleSleep_stays {p : Fin 2} (h : d.mode ≠ 1 ∨ d.aon.sleep = false ∨ d.aon.asleep = true ∨ (d.portState p = 2 ∧ d.qtime < (d.port p).busy + 100000000)) :
    linkIdleSleep d = d := by
  have hnot : (d.mode == 1 && d.aon.sleep && !d.aon.asleep && [0, 1].all fun p => d.portState p != 2 || decide ((d.port p).busy + 100000000 ≤ d.qtime)) = false := by
    obtain h | h | h | ⟨hup, hbusy⟩ := h
    · simp [h]
    · simp [h]
    · simp [h]
    · have hport : (d.portState p != 2 || decide ((d.port p).busy + 100000000 ≤ d.qtime)) = false := by simp [hup, hbusy]
      have hmem : (p : Nat) ∈ [0, 1] := by fin_cases p <;> simp
      have hall : ([0, 1].all fun p => d.portState p != 2 || decide ((d.port p).busy + 100000000 ≤ d.qtime)) = false :=
        List.all_eq_false.mpr ⟨p, hmem, by simp [hport]⟩
      rw [hall, Bool.and_false]
  unfold linkIdleSleep
  dsimp only
  rw [hnot, Laws.cond_false]

end

/-- Settles O39: each message is the one that is taken, and the branch that acts on it is the one its header and the unit's state choose;
sending on keeps Quire time. -/
theorem chainMessages : Obligations.ChainMessages := by
  unfold Obligations.ChainMessages
  refine ⟨?_, ?_, ?_, ?_, ?_, ?_, ?_, ?_, ?_, ?_, ?_, ?_, ?_, ?_, ?_, ?_, ?_, ?_, ?_, ?_, ?_, ?_, ?_, ?_, ?_, ?_, ?_, ?_, ?_, ?_⟩
  · rintro p m s ⟨h, hmine, hclaim, htag⟩
    exact becomes_of_eq (f := claim) rfl (claim_won h hmine hclaim htag)
  · rintro p m s ⟨h, hless, hclaim⟩
    exact becomes_of_eq (f := claim) rfl (claim_lost h hless hclaim)
  · rintro s ⟨hinbox, hmay⟩
    exact becomes_of_eq (f := claim) rfl (claim_none hinbox hmay)
  · rintro p m d s ⟨h, hbcast, hhead, hrel⟩ ⟨hop, hends⟩ rfl
    exact becomes_of_eq (f := count) rfl (count_numbered h hbcast hhead hrel hop hends)
  · rintro p m o s ⟨h, hbcast, hok, hmore, hlow⟩ ⟨hop, hown, -, hphase, hlegs⟩
    exact becomes_of_eq (f := count) rfl (count_answered h hbcast hok hmore hlow hop hown hphase hlegs)
  · rintro p m units s ⟨h, hbcast, hop, hfirst, hfew⟩ hunits
    exact becomes_of_eq (f := mapMessage) rfl (mapMessage_whole h hbcast hop hfirst hfew hunits)
  · rintro epoch i u units down d ⟨hunits, hheld, hlen, hepoch⟩ ⟨hme, hu, -⟩
    obtain ⟨haddr, hep, hvalid, hrole, hcount⟩ := adoptMap_found (down := down) hunits hheld hlen hepoch hme hu
    exact ⟨haddr, hep, hvalid, hrole, hcount, congrArg Link.units adoptMap_link, congrArg Link.down adoptMap_link,
      congrArg Link.asleep adoptMap_link⟩
  · rintro p out m s ⟨h, hbcast, hout, hup⟩
    exact becomes_of_eq (f := token) rfl (token_passes h hbcast hout hup)
  · rintro p s ⟨hnone, hvalid, hlate⟩
    exact becomes_of_eq (f := tokenLost p) rfl (tokenLost_due hnone hvalid hlate)
  · exact fun p s h => becomes_of_eq (f := tokenLost p) rfl (tokenLost_idle (.inl h))
  · exact fun p s h => becomes_of_eq (f := tokenLost p) rfl (tokenLost_idle (.inr h))
  · rintro elapsed s ⟨hrole, hlevel⟩
    exact becomes_of_eq (f := timeBroadcast elapsed) rfl ((timeBroadcast_other elapsed hrole).trans (timePass_level elapsed hlevel))
  · rintro elapsed s ⟨hrole, hahead⟩
    exact becomes_of_eq (f := timeBroadcast elapsed) rfl ((timeBroadcast_other elapsed hrole).trans (timePass_half hahead))
  · rintro elapsed m s ⟨hrole, hlevel, hm⟩
    exact becomes_of_eq (f := timeBroadcast elapsed) rfl (timeBroadcast_headA hrole hlevel hm)
  · rintro p m t s ⟨h, hsrc, ht⟩ ⟨hlater, hfit⟩
    exact becomes_of_eq (f := timeMessage) rfl (timeMessage_forward h hsrc ht hlater hfit)
  · rintro p m t s ⟨h, hsrc, ht⟩ hbehind
    exact becomes_of_eq (f := timeMessage) rfl (timeMessage_ahead h hsrc ht hbehind)
  · exact fun s h => gives_of_eq (f := timeMessage) rfl rfl (timeMessage_qtime h)
  · rintro p m s ⟨h, hbcast, hsrc, harg, hop, hcmds⟩
    exact becomes_of_eq (f := barrier) rfl (barrier_passes h hbcast hsrc harg hop hcmds)
  · rintro p m c s ⟨h, hbcast, hsrc, harg, hop, hcmds, hssq⟩
    exact becomes_of_eq (f := barrier) rfl (barrier_waits h hbcast hsrc harg hop hcmds hssq)
  · rintro p m o c type s ⟨h, hbcast, hsrc, harg, hlow, hop, hown⟩ hc
    exact pass_refused h hbcast hsrc (by omega) hop hown hc
  · rintro p m s ⟨h, hbcast, hsrc, harg, hop⟩
    exact becomes_of_eq (f := snap) rfl (snap_holds h hbcast hsrc harg hop)
  · rintro p m o s ⟨h, hbcast, hsrc, harg, hop, hthree, hhead, hown⟩
    exact becomes_of_eq (f := snap) rfl (snap_releases h hbcast hsrc harg hop hthree hhead hown)
  · rintro begun p m s ⟨h, hbcast, hsrc, hop⟩
    exact becomes_of_eq (f := chainReset begun) rfl (chainReset_engages begun h hbcast hsrc hop)
  · rintro begun o s ⟨hinbox, hop, hfour, hown, hsent⟩
    exact becomes_of_eq (f := chainReset begun) rfl (chainReset_resets begun hinbox hop hfour hown hsent)
  · rintro p m s ⟨h, harg, hsrc⟩
    exact becomes_of_eq (f := sleepMessage) rfl (sleepMessage_wake h harg hsrc)
  · rintro p m s ⟨h, harg, hmay⟩
    exact becomes_of_eq (f := sleepMessage) rfl (sleepMessage_refused h harg hmay)
  · rintro p m s ⟨h, harg, hsrc⟩
    exact becomes_of_eq (f := sleepMessage) rfl (sleepMessage_granted h harg hsrc)
  · rintro p m s ⟨h, hsrc, hstate⟩
    exact becomes_of_eq (f := topo) rfl (topo_down h hsrc hstate)
  · rintro s ⟨hmode, hsleep, hawake⟩ hquiet
    exact becomes_of_eq (f := linkIdleSleep) rfl (linkIdleSleep_asks hmode hsleep hawake hquiet)
  · exact fun p s h => becomes_of_eq (f := linkIdleSleep) rfl (linkIdleSleep_stays h)

end Sys2Proof.Proofs
end

section
/-!
SUPPORT. Groups (18_parity_and_fixity.md R553 to R577): what a change of a group leaves, and the group commands; the obligations.
-/

namespace Sys2Proof.Proofs

open Sys2Proof Sys2Proof.Machine Sys2Proof.Laws

/-! Opening stripes of a rebuild. -/

/-- A group of one member, one data sheet a stripe, whose rebuild stands at stripe `next`. -/
def soleGroup (next : Nat) : Group := { m := 0, members := [{}], nextStripe := next }

/-- A unit that holds two groups of one identifier. -/
def twinGroups : Dev := { comp := { groups := [soleGroup 0, soleGroup 5] } }

/-- Refutes O42: of two groups of one identifier, opening a stripe sets the next stripe of both to the one after the first group's, and
does not add one to each, as the clause on opening a stripe says of every state. (R556 gives each group an identifier of its own, so that
only the clause without that premise fails.) -/
theorem not_groupMessages : ¬ Obligations.GroupMessages := by
  unfold Obligations.GroupMessages
  rintro ⟨-, -, -, -, -, -, -, -, -, -, -, -, -, -, -, -, hopen, -⟩
  have h := hopen 0 0 0 (soleGroup 0) twinGroups (by decide +kernel)
  have hnext := congrArg (fun d : Dev => d.comp.groups.map (·.nextStripe)) h
  exact absurd hnext (by decide +kernel)

/-! Groups looked up and changed. -/

section
variable {d e : Dev} {gid : Nat} {g : Group}

/-- A group changed and looked up again. -/
theorem group_onGroup (d : Dev) (gid : Nat) {f : Group → Group} (hf : ∀ g, (f g).id = g.id) :
    (d.onGroup gid f).group gid = (d.group gid).map f := by
  change (d.comp.groups.map fun g => if g.id == gid then f g else g).find? (fun g => g.id == gid) = _
  unfold Dev.group
  induction d.comp.groups with
  | nil => rfl
  | cons g gs ih =>
    by_cases hg : g.id = gid
    · simp [hg, hf]
    · have hne : ¬ (g.id == gid) = true := by simpa using hg
      rw [List.map_cons, if_neg hne, List.find?_cons_of_neg (p := fun g : Group => g.id == gid) hne,
        List.find?_cons_of_neg (p := fun g : Group => g.id == gid) hne]
      exact ih

theorem fwSubmit_comp (d : Dev) (event : Bool) (type flags : Nat) (payload : Bytes) : (d.fwSubmit event type flags payload).comp = d.comp := by
  obtain ⟨j, h | ⟨v, h⟩⟩ := fwSubmit_journal d event type flags payload <;> rw [h] <;> rfl

theorem fwSubmit_fw (d : Dev) (event : Bool) (type flags : Nat) (payload : Bytes) : (d.fwSubmit event type flags payload).fw = d.fw := by
  obtain ⟨j, h | ⟨v, h⟩⟩ := fwSubmit_journal d event type flags payload <;> rw [h] <;> rfl

theorem fwSubmit_link (d : Dev) (event : Bool) (type flags : Nat) (payload : Bytes) : (d.fwSubmit event type flags payload).link = d.link := by
  obtain ⟨j, h | ⟨v, h⟩⟩ := fwSubmit_journal d event type flags payload <;> rw [h] <;> rfl


/-- A unit without a map knows no other unit. -/
theorem addrOf_none (hunits : d.link.units = []) (serial : Nat) : d.addrOf serial = none := by
  unfold Dev.addrOf
  rw [hunits]
  rfl

theorem announce_alone (gid : Nat) (hunits : d.link.units = []) : announce gid d = d := by
  have hnone : ∀ g, d.memberAddrs g = [] := fun g => by
    unfold Dev.memberAddrs
    simp [addrOf_none hunits]
  unfold announce
  split
  · rw [hnone, each_nil]
  · rfl

theorem group_of_comp {e : Dev} (h : e.comp = d.comp) (gid : Nat) : e.group gid = d.group gid := by
  unfold Dev.group
  rw [h]

/-- A table changed without other units: the new table, at the next generation, with its record (R562). -/
theorem tableChange_eq {f : Group → Group} (hf : ∀ g, (f g).id = g.id) (hgroup : d.group gid = some g) :
    tableChange gid f d = groupGen { f g with gen := genNext g.gen } (d.onGroup gid fun g => { f g with gen := genNext g.gen }) := by
  have hnext : (d.onGroup gid fun g => { f g with gen := genNext g.gen }).group gid = some { f g with gen := genNext g.gen } := by
    rw [group_onGroup (f := fun g => { f g with gen := genNext g.gen }) d gid hf, hgroup]
    rfl
  unfold tableChange
  dsimp only
  rw [hnext]

theorem groupGen_comp (g : Group) (d : Dev) : (groupGen g d).comp = d.comp := fwSubmit_comp ..

theorem groupGen_fw (g : Group) (d : Dev) : (groupGen g d).fw = d.fw := fwSubmit_fw ..

theorem groupGen_link (g : Group) (d : Dev) : (groupGen g d).link = d.link := fwSubmit_link ..

end

/-! A command's effect (Table 15-1). -/

section
variable {d : Dev} {id op : Nat} {c : Cmd}

/-- An accepted command of its opcode runs. -/
theorem runCmd_doing (h : d.Doing id op c) (f : Cmd → Dev → Dev) : runCmd id op f d = f c d := by
  obtain ⟨hcmd, hstage, hssq, hop⟩ := h
  unfold runCmd
  rw [hcmd]
  exact if_pos (by simp [hstage, hssq, hop])

theorem runCmd_none (h : d.cmd id = none) (f : Cmd → Dev → Dev) : runCmd id op f d = d := by
  unfold runCmd
  rw [h]

/-- Data in one run of host memory, through this head, is fetched at once. -/
theorem withData_here (h : d.cmd id = some c) (hdata : d.HasData c) (f : Cmd → Dev → Dev) :
    withData id f d = f c (d.sends (d.dataAttr (c.flag 0) false)) := by
  obtain ⟨hlen, hrun, haligned, horphan, hhome⟩ := hdata
  unfold withData
  rw [h]
  dsimp only
  rw [if_neg hlen, if_neg (by simp [horphan]), if_pos hhome]

theorem hostParts_run (hdata : d.HasData c) : d.hostParts c = some [(c.dptr, c.dlen)] := by
  obtain ⟨hlen, hrun, haligned, -, -⟩ := hdata
  unfold Dev.hostParts
  rw [if_neg hlen, if_neg (by simp [hrun]), if_pos haligned]

/-- Data delivered through this head to one run of host memory: as much as the run takes. -/
theorem deliver_here (hdata : d.HasData c) {b : Bytes} (hb : b ≠ []) :
    deliver c 0 b d = { d.sends (d.dataAttr (c.flag 0) true) with hostMem := memWrite d.hostMem c.dptr (b.take c.dlen) } := by
  have hparts := hostParts_run hdata
  obtain ⟨hlen, hrun, haligned, horphan, hhome⟩ := hdata
  have hempty : b.isEmpty = false := by simpa using hb
  have hwrite : hostWrite c 0 b d = { d.sends (d.dataAttr (c.flag 0) true) with hostMem := memWrite d.hostMem c.dptr (b.take c.dlen) } := by
    unfold hostWrite
    rw [if_neg (by simp [horphan]), hparts, hhome, hempty]
    change { d.sends (d.dataAttr (c.flag 0) true) with hostMem := ((cutParts [(c.dptr, c.dlen)] 0 b).foldl (fun m (e : Nat × Bytes) => memWrite m e.1 e.2) d.hostMem) } = _
    unfold cutParts
    rw [if_neg (by simp [hempty]), if_neg (by omega)]
    rfl
  have hstill : (hostWrite c 0 b d).homeHere c = true := by
    rw [hwrite]
    exact hhome
  unfold deliver
  dsimp only
  split
  · rw [if_pos (by simp [hstill]), hwrite]
  · exact hwrite

theorem doing_id (h : d.Doing id op c) : c.id = id := by
  have hfound := List.find?_some h.1
  simpa using hfound

end

/-! The group commands (R556, R564, R572, R573, R576, R577). -/

section
variable {d : Dev} {id : Nat} {c : Cmd} {g : Group}

/-- GROUP CREATE with every member's answer here makes the group or refuses it. -/
theorem groupCreate_answered {classes : List Nat} (h : d.Doing id 0x20 c) (hcreated : d.comp.created = [(id, g, classes)])
    (hall : g.size ≤ classes.length) : groupCreate id d = finishCreate id g classes d := by
  have hfound : (d.comp.created.find? fun e => e.1 == id) = some (id, g, classes) := by simp [hcreated]
  unfold groupCreate
  rw [runCmd_doing h, hfound]
  exact if_neg (Nat.not_lt.mpr hall)

/-- The unit with no group in the making, and the group made. -/
def createdGroup (g : Group) (cls : Nat) (d : Dev) : Group :=
  { g with id := d.serial % 2 ^ 20 * 4096 + d.freeGroup, index := d.freeIndex, media := cls }

/-- Members of one media class: the group is made, with its record, and the command ends with its identifier. -/
theorem finishCreate_made {classes : List Nat} (hcreated : d.comp.created = [(id, g, classes)]) (hunits : d.link.units = [])
    (hone : ∀ x ∈ classes, x ≤ 1 ∧ x = classes.headD 0xFF) :
    finishCreate id g classes d = (groupGen (createdGroup g (classes.headD 0) d) (d.onComp fun c => { c with
      created := [], groups := c.groups ++ [createdGroup g (classes.headD 0) d], nextId := (d.freeGroup + 1) % 4096 })).endCmd id 0 0
        (d.serial % 2 ^ 20 * 4096 + d.freeGroup) 1 := by
  have hsame : (classes.any fun c => 1 < c || c != classes.headD 0xFF) = false := by
    rw [List.any_eq_false]
    intro x hx
    obtain ⟨hle, heq⟩ := hone x hx
    rw [← heq]
    simp [hle]
  have hleft : (d.comp.created.filter fun e => e.1 != id) = [] := by simp [hcreated]
  unfold finishCreate
  dsimp only
  rw [hsame, if_neg Bool.false_ne_true, announce_alone]
  · unfold Dev.onComp
    dsimp only
    rw [hleft]
    rfl
  · rw [groupGen_link]
    exact hunits

theorem finishCreate_refused (hcreated : d.comp.created = [(id, g, [0, 1])]) :
    finishCreate id g [0, 1] d = ({ d with comp := { d.comp with created := [] } } : Dev).endCmd id 3 0x11 := by
  have hleft : (d.comp.created.filter fun e => e.1 != id) = [] := by simp [hcreated]
  unfold finishCreate
  dsimp only
  rw [if_pos (by decide)]
  unfold Dev.onComp
  dsimp only
  rw [hleft]

theorem groupCreate_badGeometry (h : d.Doing id 0x20 c) (hdata : d.HasData c) (hcreated : d.comp.created = [])
    (hlen : (d.hostData c).length = 64 + 32 * le (d.hostData c) 1 1) (hgeo : d.geometryOk (d.hostData c) = false) :
    groupCreate id d = (d.sends (d.dataAttr (c.flag 0) false)).endCmd id 3 0x11 := by
  unfold groupCreate
  rw [runCmd_doing h, hcreated]
  dsimp only [List.find?_nil]
  rw [withData_here h.1 hdata]
  change (if (d.hostData c).length != 64 + 32 * le (d.hostData c) 1 1 then _ else if !d.geometryOk (d.hostData c) then _ else _) = _
  rw [if_neg (by simp [hlen]), if_pos (by simp [hgeo])]


theorem setAcc_kept (i : Nat) (a : Accum) (d : Dev) : (setAcc i a d).comp.groups = d.comp.groups ∧ (setAcc i a d).fw = d.fw := by
  unfold setAcc pxeStat
  dsimp only
  rw [fs_comp, fs_comp, fs_fw, fs_fw]
  exact ⟨rfl, rfl⟩

/-- Taking a job's requests back leaves the groups and firmware's data. -/
theorem jobRestart_kept (i : Nat) (d : Dev) : (jobRestart i d).comp.groups = d.comp.groups ∧ (jobRestart i d).fw = d.fw := by
  unfold jobRestart
  split
  · exact ⟨rfl, rfl⟩
  · dsimp only
    split
    next k _ =>
      have hfree := setAcc_kept k {} (dropAsks (fun a => a.job == i && a.kind == rqRead) d)
      generalize setAcc k {} (dropAsks (fun a => a.job == i && a.kind == rqRead) d) = e at hfree ⊢
      exact hfree
    · exact ⟨rfl, rfl⟩

/-- A group with no pending command here is dropped: it alone of the groups, and of firmware's data its stream's. -/
theorem dropGroup_dropped {gid : Nat} (hgroup : d.group gid = some g) (hpending : d.pendingOf gid = []) :
    (dropGroup gid d).comp.groups = d.comp.groups.filter (fun x => x.id != gid) ∧ (dropGroup gid d).fw.cmds = d.fw.cmds := by
  have hjobs : ∀ (l : List StripeJob) (e : Dev), e.comp.groups = d.comp.groups ∧ e.fw = d.fw →
      (e.each l fun e x => (jobRestart x.id e).onComp fun c => { c with jobs := c.jobs.filter fun y => y.id != x.id }).comp.groups = d.comp.groups ∧
        (e.each l fun e x => (jobRestart x.id e).onComp fun c => { c with jobs := c.jobs.filter fun y => y.id != x.id }).fw = d.fw :=
    fun l e he => each_inv (P := fun u => u.comp.groups = d.comp.groups ∧ u.fw = d.fw) he fun u x _ hu =>
      ⟨(jobRestart_kept x.id u).1.trans hu.1, (jobRestart_kept x.id u).2.trans hu.2⟩
  unfold dropGroup
  rw [hgroup, hpending]
  dsimp only
  obtain ⟨hgroups, hfw⟩ := hjobs ((dropAsks (fun a => a.group == gid) (d.each [] fun d n => voidPart g n d)).comp.jobs.filter fun x => x.cmd == 0 && x.group == gid)
    (dropAsks (fun a => a.group == gid) (d.each [] fun d n => voidPart g n d)) ⟨rfl, rfl⟩
  generalize Dev.each (dropAsks _ _) _ _ = e at hgroups hfw ⊢
  exact ⟨(congrArg (List.filter fun x : Group => x.id != gid) hgroups :), (congrArg Firmware.cmds hfw :)⟩

/-- A group that is idle here has no pending command here. -/
theorem pendingOf_idle {gid except : Nat} (h : d.groupBusy gid except = false) : d.pendingOf gid = [] := by
  unfold Dev.groupBusy at h
  simp only [Bool.or_eq_false_iff] at h
  obtain ⟨⟨⟨-, -⟩, hparts⟩, -⟩ := h
  have hnone : (d.comp.parts.filter fun p => p.group == gid) = [] := by
    rw [List.filter_eq_nil_iff]
    exact fun p hp => by simpa using List.any_eq_false.mp hparts p hp
  unfold Dev.pendingOf
  rw [hnone]
  rfl

/-- The unit's groups once the table of one has changed: that one in its place, the others as they were. -/
theorem filter_changed (l : List Group) (gid : Nat) {f : Group → Group} (hf : ∀ g, (f g).id = g.id) :
    (l.map fun g => if g.id == gid then f g else g).filter (fun x => x.id != gid) = l.filter fun x => x.id != gid := by
  induction l with
  | nil => rfl
  | cons g gs ih =>
    by_cases hg : g.id = gid
    · simpa [hg, hf] using ih
    · simp only [List.map_cons, show (g.id == gid) = false by simpa using hg, Bool.false_eq_true, if_false, List.filter_cons, bne, Bool.not_false,
        if_true]
      exact congrArg (g :: ·) ih

/-- GROUP DELETE of an idle group at a unit that knows no other: exactly that group goes, and the command ends (R577). -/
theorem groupDelete_deletes (h : d.Doing id 0x21 c) (hgroup : d.group c.groupId = some g) (hidle : d.groupBusy c.groupId id = false)
    (hunits : d.link.units = []) :
    (groupDelete id d).comp.groups = d.comp.groups.filter (fun x => x.id != c.groupId) ∧ (groupDelete id d).group c.groupId = none ∧
      ((groupDelete id d).cmd id).map (fun c => (c.stage, c.cls, c.detail)) = some (.ended, 0, 0) := by
  obtain ⟨next, hnext⟩ : ∃ next : Group → Group, next = fun g => { g with gen := genNext g.gen } := ⟨_, rfl⟩
  have hid : ∀ g, (next g).id = g.id := fun g => by rw [hnext]
  obtain ⟨e, he⟩ : ∃ e, e = groupGen (next g) (d.onGroup c.groupId next) := ⟨_, rfl⟩
  have hcomp : e.comp = (d.onGroup c.groupId next).comp := by rw [he, groupGen_comp]
  have hfw : e.fw = d.fw := by rw [he, groupGen_fw, onGroup_fw]
  have hthere : e.group c.groupId = some (next g) := by
    rw [group_of_comp hcomp, group_onGroup d c.groupId hid, hgroup]
    rfl
  have hpending : e.pendingOf c.groupId = [] := by
    unfold Dev.pendingOf
    rw [hcomp]
    exact pendingOf_idle hidle
  obtain ⟨hgroups, hcmds⟩ := dropGroup_dropped hthere hpending
  have hkept : (dropGroup c.groupId e).comp.groups = d.comp.groups.filter fun x => x.id != c.groupId := by
    rw [hgroups, hcomp]
    exact filter_changed d.comp.groups c.groupId hid
  have hres : groupDelete id d = (dropGroup c.groupId e).endCmd id 0 0 := by
    have htable : tableChange c.groupId (fun g => g) d = e := by rw [tableChange_eq (f := fun g => g) (fun _ => rfl) hgroup, he, hnext]
    have haddrs : e.memberAddrs g = [] := by
      have hnone : ∀ serial, e.addrOf serial = none := addrOf_none (by rw [he, groupGen_link]; exact hunits)
      unfold Dev.memberAddrs
      simp [hnone]
    unfold groupDelete
    rw [runCmd_doing h]
    dsimp only
    rw [hgroup]
    dsimp only
    rw [if_neg (by simp [hidle]), htable, haddrs, each_nil]
  have hcmd : (dropGroup c.groupId e).cmd id = some c := by
    unfold Dev.cmd
    rw [hcmds, hfw]
    exact h.1
  rw [hres]
  refine ⟨hkept, ?_, ?_⟩
  · change (dropGroup c.groupId e).group c.groupId = none
    unfold Dev.group
    rw [hkept, List.find?_eq_none]
    exact fun x hx => by simpa using (List.mem_filter.mp hx).2
  · rw [cmd_endCmd_self hcmd (by rw [h.2.1]; decide)]
    rfl


theorem dropJobs_none (cmd : Nat) (hjobs : d.comp.jobs = []) : dropJobs cmd d = d := by
  have hmine : ((d.comp.jobs.filter fun j => j.cmd == cmd).map (·.id)) = [] := by simp [hjobs]
  have hleft : (d.comp.jobs.filter fun j => j.cmd != cmd) = d.comp.jobs := by simp [hjobs]
  unfold dropJobs
  dsimp only
  rw [hmine, each_nil]
  unfold Dev.onComp
  dsimp only
  rw [hleft]

/-- A command about a group that this unit does not hold ends with CLASS 3, DETAIL 0x10. -/
theorem unknownGroup {i : Instr} {op : Nat} {s : State} (h : s.dev.Doing id op c) (hgroup : s.dev.group c.groupId = none)
    (hjobs : s.dev.comp.jobs = []) (hi : (op, i) ∈ [(0x21, Instr.groupDelete id), (0x23, .groupRead id), (0x24, .groupStatus id)]) :
    Becomes i s (s.dev.endCmd id 3 0x10) := by
  simp only [List.mem_cons, Prod.mk.injEq, List.not_mem_nil, or_false] at hi
  obtain ⟨rfl, rfl⟩ | ⟨rfl, rfl⟩ | ⟨rfl, rfl⟩ := hi
  · refine becomes_of_eq (f := groupDelete id) rfl ?_
    unfold groupDelete
    rw [runCmd_doing h]
    dsimp only
    rw [hgroup]
  · refine becomes_of_eq (f := groupRead id) rfl ?_
    unfold groupRead
    rw [runCmd_doing h, hgroup]
    exact dropJobs_none id hjobs
  · refine becomes_of_eq (f := groupStatus id) rfl ?_
    unfold groupStatus
    rw [runCmd_doing h, hgroup]

theorem groupWrite_works (h : d.Doing id 0x22 c) : groupWrite id d = groupWork (withData id gwData d) := by
  obtain ⟨hcmd, hstage, hssq, hop⟩ := h
  unfold groupWrite
  rw [hcmd]
  dsimp only
  rw [if_neg (by simp [hstage, hop]), if_neg hssq]

/-- A GROUP WRITE that is not yet accepted probes every ONLINE member (R564). -/
theorem groupWrite_probes (hcmd : d.cmd id = some c) (hstage : c.stage = .running) (hssq : c.ssq = 0) (hop : c.opcode = 0x22) (hwork : c.work = 0)
    (hwait : d.mustWait c = false) (hblocked : d.blocked c = false) (hjudge : judge d c = none) (hgroup : d.group c.groupId = some g) :
    groupWrite id d = (d.onCmd id fun c => { c with work := 1 }).each g.members.zipIdx fun d e =>
      if e.1.state = 0 then newAsk { kind := rqProbe, group := g.id, member := e.2, serial := e.1.unit, cmd := id, payload := reqBytes g.id g.gen 0 0 [] } none d else d := by
  have hid : c.id = id := by simpa using List.find?_some hcmd
  have hone : (fun (d : Dev) (e : GroupMember × Nat) => if e.1.state != 0 then d
        else newAsk { kind := rqProbe, group := g.id, member := e.2, serial := e.1.unit, cmd := id, payload := reqBytes g.id g.gen 0 0 [] } none d) =
      fun d e => if e.1.state = 0 then newAsk { kind := rqProbe, group := g.id, member := e.2, serial := e.1.unit, cmd := id, payload := reqBytes g.id g.gen 0 0 [] } none d else d := by
    funext d e
    by_cases he : e.1.state = 0 <;> simp [he]
  unfold groupWrite
  rw [hcmd]
  dsimp only
  rw [if_neg (by simp [hstage, hop]), if_pos hssq]
  unfold gwProbe
  rw [if_neg (by simp [hwait, hblocked, hjudge]), hgroup]
  dsimp only
  rw [if_pos hwork, hid, hone]

theorem groupRead_begins (h : d.Doing id 0x23 c) (hgroup : d.group c.groupId = some g) (hwork : c.work = 0) :
    groupRead id d = groupWork ((d.each (List.range c.run.2) fun d i => addJob { group := g.id, stripe := (c.run.1 + i) / g.k, slot := (c.run.1 + i) % g.k, cmd := id, index := i } d).onCmd id fun c => { c with work := 1 }) := by
  unfold groupRead
  rw [runCmd_doing h, hgroup]
  dsimp only
  rw [if_pos hwork]
  rfl

/-- A stripe job with its result takes no further step. -/
theorem jobStep_over {j : StripeJob} (hjob : d.job j.id = some j) (hgroup : d.group j.group = some g) (hres : j.res.isSome = true) :
    jobStep j.id d = d := by
  unfold jobStep
  rw [hjob]
  dsimp only
  rw [hgroup]
  dsimp only
  rw [if_pos (by simp [hres])]

theorem groupRead_ends {j : StripeJob} {cls : Nat} (h : d.Doing id 0x23 c) (hgroup : d.group c.groupId = some g) (hwork : c.work ≠ 0)
    (hcmds : d.fw.cmds = [c]) (hjobs : d.comp.jobs = [j]) (hj : j.res = some (4, cls)) (hmine : j.group = g.id)
    (hwrites : d.comp.writes = []) (hparts : d.comp.parts = []) (hserved : d.comp.served = []) :
    groupRead id d = endGroupRead c d := by
  have hgid : g.id = c.groupId := by simpa using List.find?_some hgroup
  have hjob : d.job j.id = some j := by simp [Dev.job, hjobs]
  have hstep : jobStep j.id d = d := jobStep_over hjob (by rw [hmine, hgid, hgroup]) (by rw [hj]; rfl)
  have hserve : (d.fw.cmds.any fun c => c.opcode == opServe && c.stage == .running) = false := by
    have hop : c.opcode = 0x23 := h.2.2.2
    simp [hcmds, hop, opServe]
  have hsteps : d.each (d.comp.jobs.filter fun j => j.cmd != 0) (fun d j => jobStep j.id d) = d :=
    each_id fun x hx => by
      have hxj : x = j := by
        have hmem := (List.mem_filter.mp hx).1
        rwa [hjobs, List.mem_singleton] at hmem
      rw [hxj, hstep]
  have hwork' : groupWork d = d := by
    unfold groupWork
    rw [hserve, Laws.cond_false]
    dsimp only
    rw [hsteps]
    simp [hwrites, hparts, serveStep, hserved]
  unfold groupRead
  rw [runCmd_doing h, hgroup]
  dsimp only
  rw [if_neg hwork, hwork', if_neg (by simp [hjobs, hj])]

theorem statusRecord_nonempty (g : Group) (d : Dev) : statusRecord g d ≠ [] := by
  unfold statusRecord
  dsimp only
  rw [Ne, List.append_eq_nil_iff, List.append_eq_nil_iff]
  exact fun hnil => absurd hnil.1.2 (by simp)

theorem groupStatus_delivers (h : d.Doing id 0x24 c) (hdata : d.HasData c) (hgroup : d.group c.groupId = some g) :
    groupStatus id d = ({ d.sends (d.dataAttr (c.flag 0) true) with hostMem := memWrite d.hostMem c.dptr ((statusRecord g d).take c.dlen) } : Dev).endCmd id 0 0 g.gen (64 + 16 * g.size) := by
  unfold groupStatus
  rw [runCmd_doing h, hgroup]
  dsimp only
  rw [deliver_here hdata (statusRecord_nonempty g d)]

theorem groupRebuild_asks {u : QUnit} (h : d.Doing id 0x25 c) (hgroup : d.group c.groupId = some g) (hunit : d.unitAt (c.field 33 1) = some u)
    (hwork : c.work = 0) :
    groupRebuild id d = newAsk { kind := rqSpare, group := g.id, member := c.field 32 1, serial := u.serial, cmd := id, payload := reqBytes g.id g.gen 0 0 (leBytes 4 (g.q * g.width)) } none (d.onCmd id fun c => { c with work := 1 }) := by
  unfold groupRebuild
  rw [runCmd_doing h, hgroup, hunit]
  exact if_neg (by simp [hwork])

end

/-- Settles O41: each command's branch is the one that the group, its members' answers and its jobs choose; with no other unit known a
table's change is announced to none. -/
theorem groupCommands : Obligations.GroupCommands := by
  unfold Obligations.GroupCommands
  refine ⟨?_, ?_, ?_, ?_, ?_, ?_, ?_, ?_, ?_, ?_, ?_, ?_⟩
  · rintro id c g classes s ⟨h, hcreated, hunits⟩ ⟨hlen, -, hone⟩
    have hres := (groupCreate_answered h hcreated hlen.ge).trans (finishCreate_made hcreated hunits hone)
    refine gives_of_eq (f := groupCreate id) rfl hres ⟨?_, ?_, ?_, ?_⟩
    · exact (congrArg Compute.groups (groupGen_comp (createdGroup g (classes.headD 0) s.dev) _) :)
    · exact (congrArg Compute.created (groupGen_comp (createdGroup g (classes.headD 0) s.dev) _) :)
    · exact (congrArg Compute.nextId (groupGen_comp (createdGroup g (classes.headD 0) s.dev) _) :)
    · have hcmd : Dev.cmd (groupGen (createdGroup g (classes.headD 0) s.dev) (s.dev.onComp fun c => { c with created := [], groups := c.groups ++ [createdGroup g (classes.headD 0) s.dev], nextId := (s.dev.freeGroup + 1) % 4096 })) id = some c := by
        unfold Dev.cmd
        rw [groupGen_fw]
        exact h.1
      rw [cmd_endCmd_self hcmd (by rw [h.2.1]; decide)]
      exact ⟨rfl, rfl⟩
  · rintro id c g s ⟨h, hcreated, hsize⟩
    exact becomes_of_eq (f := groupCreate id) rfl ((groupCreate_answered h hcreated (by rw [hsize]; rfl)).trans (finishCreate_refused hcreated))
  · rintro id c s ⟨h, hdata, hcreated⟩ ⟨hlen, hgeo⟩
    exact becomes_of_eq (f := groupCreate id) rfl (groupCreate_badGeometry h hdata hcreated hlen hgeo)
  · rintro id c g s ⟨h, hgroup, hidle, hunits⟩
    exact gives_of_eq (f := groupDelete id) rfl rfl (groupDelete_deletes h hgroup hidle hunits)
  · rintro id c s i op ⟨h, hgroup, hjobs⟩ hi
    exact unknownGroup h hgroup hjobs hi
  · exact fun id c s h => becomes_of_eq (f := groupWrite id) rfl (groupWrite_works h)
  · rintro id c g s ⟨hcmd, hstage, hssq, hop, hwork⟩ ⟨hwait, hblocked, hjudge, hgroup⟩
    exact becomes_of_eq (f := groupWrite id) rfl (groupWrite_probes hcmd hstage hssq hop hwork hwait hblocked hjudge hgroup)
  · rintro id c g s ⟨h, hgroup, hwork⟩
    exact becomes_of_eq (f := groupRead id) rfl (groupRead_begins h hgroup hwork)
  · rintro id c g j cls s ⟨h, hgroup, hwork, hcmds⟩ ⟨hjobs, -, hres, hmine, hwrites, hparts, hserved⟩
    exact becomes_of_eq (f := groupRead id) rfl (groupRead_ends h hgroup hwork hcmds hjobs hres hmine hwrites hparts hserved)
  · rintro id c g s ⟨h, hdata, hgroup⟩
    exact becomes_of_eq (f := groupStatus id) rfl (groupStatus_delivers h hdata hgroup)
  · rintro id c g u s ⟨h, hgroup, hunit, hwork⟩
    exact becomes_of_eq (f := groupRebuild id) rfl (groupRebuild_asks h hgroup hunit hwork)
  · intro id i s hnone hi
    simp only [List.mem_cons, List.not_mem_nil, or_false] at hi
    obtain rfl | rfl | rfl | rfl | rfl | rfl := hi
    · exact becomes_of_eq (f := groupCreate id) rfl (runCmd_none hnone _)
    · exact becomes_of_eq (f := groupDelete id) rfl (runCmd_none hnone _)
    · exact becomes_of_eq (f := groupWrite id) rfl (by unfold groupWrite; rw [hnone])
    · exact becomes_of_eq (f := groupRead id) rfl (runCmd_none hnone _)
    · exact becomes_of_eq (f := groupStatus id) rfl (runCmd_none hnone _)
    · exact becomes_of_eq (f := groupRebuild id) rfl (runCmd_none hnone _)

end Sys2Proof.Proofs
end

section
/-!
SUPPORT. Resets (20_clocks_reset_boot.md R616 to R622): the obligation.
-/

namespace Sys2Proof.Proofs

open Sys2Proof Sys2Proof.Machine Sys2Proof.Laws

/-- What a command gives holds of the unit that its function makes. -/
theorem of_gives {c : Instr} {s : State} {f : Dev → Dev} {p : Dev → Prop} (hexec : exec c s = s.onDev f) (h : Gives c s p) : p (f s.dev) := by
  obtain ⟨t, ht, -, -, hp⟩ := h
  rw [hexec] at ht
  obtain rfl := Host.Outcome.next.inj ht
  exact hp

/-- A unit whose firmware runs. -/
def bootedUnit : Dev := ({} : Dev).fs .CLK_BOOT_STAGE 7

/-- Refutes O44: a unit reset keeps the CLK registers (R618), so that at boot stage 7 it leaves CLK_BOOT as it is, and not 0: it is the
boot that follows that clears it. -/
theorem not_resets : ¬ Obligations.Resets := by
  unfold Obligations.Resets
  rintro ⟨hreset, -⟩
  obtain ⟨-, hboot, -⟩ := of_gives (f := resetN false [] []) rfl (hreset { dev := bootedUnit } (by decide +kernel) (by decide +kernel))
  exact absurd hboot (by decide +kernel)

end Sys2Proof.Proofs
end

section
/-!
SUPPORT. The frost line (19_modes_and_power.md R597 to R602): the obligation.
-/

namespace Sys2Proof.Proofs

open Sys2Proof Sys2Proof.Machine Sys2Proof.Laws

/-- A unit whose calibration sequencer runs a step of a pair that is none of its 28: CAL_RES of OPU 2,097,144 would lie at PMU_STAT. -/
def strayPair : Dev :=
  (({ aon := { reset := false }, cal := { ahead := [(1, 2097144)], resources := [{ result := .timeout }] } } : Dev).fs .CAL_STAT_STATE 1).fs
    .CAL_RUN_PAIRS 1

/-- Refutes O43: the clause on an awake unit is said of every state, and where the sequencer's step is of a pair that is none of its 28,
the result of the step that the frost line aborts (R347) is written over the bits of PMU_STAT, and FROST reads 0. (CAL_TRIG names the
pairs of four OPUs only, R346, so that only the clause without that premise fails.) -/
theorem not_frostAndThaw : ¬ Obligations.FrostAndThaw := by
  unfold Obligations.FrostAndThaw
  rintro ⟨-, hline, -⟩
  obtain ⟨hfrost, -⟩ := of_gives (f := frostLine [(1, 0)] []) rfl (hline [(1, 0)] [] 1 { dev := strayPair } (by decide +kernel))
  exact absurd hfrost (by decide +kernel)

end Sys2Proof.Proofs
end

section
/-!
SUPPORT. Boot (20_clocks_reset_boot.md R623 to R630): the obligation.
-/

namespace Sys2Proof.Proofs

open Sys2Proof Sys2Proof.Machine Sys2Proof.Laws

/-- What a command gives holds of the unit in the state that it answers. -/
theorem next_of_gives {c : Instr} {s t : State} {p : Dev → Prop} (hexec : exec c s = .next t) (h : Gives c s p) : p t.dev := by
  obtain ⟨u, hu, -, -, hp⟩ := h
  rw [hexec] at hu
  obtain rfl := Host.Outcome.next.inj hu
  exact hp

/-- A unit held in reset whose DRAM training stands as failed. -/
def untrained : State := { dev := ({} : Dev).fs .DRC_STAT_TRN_FAIL 1 }

/-- Refutes O45: the clause on a boot whose training passes is said of every unit held in reset, and where DRC_STAT.TRN_FAIL still reads 1
no training is made (a failed training stands until a reset clears the register), so that the boot stops at stage 1 with cause 5. -/
theorem not_bootSequence : ¬ Obligations.BootSequence := by
  unfold Obligations.BootSequence
  rintro ⟨hboot, -⟩
  obtain ⟨-, -, hstage, -⟩ := next_of_gives (t := boot true true none [] untrained) rfl (hboot [] untrained ⟨rfl, rfl, by decide +kernel⟩)
  exact absurd hstage (by decide +kernel)

end Sys2Proof.Proofs
end

section
/-!
SUPPORT. Streams and the modes (15_commands.md R477 to R488, 16_ordering_recovery.md R500 to R517): a stream that owes nothing, a
flush of every stream, the reset marker.
-/

namespace Sys2Proof.Proofs

open Sys2Proof Sys2Proof.Machine Sys2Proof.Laws

section
variable {d : Dev} {s : Nat}

theorem settleCopies_none (hv : ∀ v ∈ d.fw.versions, v.copyOf = none) : settleCopies d = d := by
  unfold settleCopies
  rw [List.filter_eq_nil_iff.mpr fun v hmem => by simp [hv v hmem]]
  rfl

theorem dropVersions_nil (hv : d.fw.versions = []) : dropVersions d = d := by
  unfold dropVersions Dev.onFw
  dsimp only
  rw [hv, List.filter_nil, ← hv]

/-- A stream none of whose commands waits on D, and of which no flush of every stream wants D, submits no ORDER record. -/
theorem orderRecord_quiet (hwait : d.onWatermark s = []) (hflush : d.flushingAll = false ∨ (d.stream s).mark = (d.stream s).sent) :
    orderRecord s d = d := by
  unfold orderRecord
  dsimp only
  rw [hwait, List.any_nil, Bool.false_or, if_neg]
  obtain h | h := hflush <;> simp [h]

theorem releaseWaiting_nil (hwait : d.onWatermark s = []) : releaseWaiting s d = d := by
  unfold releaseWaiting
  dsimp only
  rw [hwait]
  rfl

theorem watermarkAdvance_nothing (hversions : d.fw.versions = []) (hwrites : (d.stream s).writes = []) (hwait : d.onWatermark s = [])
    (hflush : d.flushingAll = false ∨ (d.stream s).mark = (d.stream s).sent) : watermarkAdvance s d = d := by
  have hnone : settleCopies d = d := settleCopies_none (by simp [hversions])
  unfold watermarkAdvance
  dsimp only
  rw [hnone, hwrites, List.length_nil, advanceMark, orderRecord_quiet hwait hflush, releaseWaiting_nil hwait, dropVersions_nil hversions]

theorem streamBreak_nothing (hwrites : (d.stream s).writes = []) : streamBreak s d = d := by
  have hearly : failEarly s d = d := by
    unfold failEarly
    dsimp only
    rw [hwrites]
    rfl
  have hlost : d.firstLost s = none := by
    unfold Dev.firstLost
    rw [hwrites]
    rfl
  unfold streamBreak
  dsimp only
  rw [hearly, hlost]

theorem onWatermark_nil (h : ∀ c ∈ d.fw.cmds, c.needs = none) : d.onWatermark s = [] :=
  List.filter_eq_nil_iff.mpr fun c hc => by simp [h c (List.mem_filter.mp hc).1]

theorem flushingAll_none (hask : d.flushAsked = false) (h : ∀ c ∈ d.fw.cmds, c.opcode ∉ [0x08, 0x19, 0x28, 0x38]) : d.flushingAll = false := by
  unfold Dev.flushingAll
  rw [hask, Bool.false_or, List.any_eq_false]
  intro c hc
  simp only [List.contains_eq_mem, h c (List.mem_filter.mp hc).1, decide_false, Bool.false_and, Bool.false_eq_true, not_false_iff]

theorem stream_of_none (h : d.fw.streams = []) (k : Nat) : d.stream k = {} := by
  unfold Dev.stream
  rw [h]
  rfl

/-- A command that runs alone, with no stream that owes anything, has nothing to flush. -/
theorem flushAll_alone {c : Cmd} (h : d.Alone c) : flushAll d = d := by
  obtain ⟨hcmds, hneeds, hstreams, hversions, -⟩ := h
  have hstream : ∀ k, d.stream k = {} := stream_of_none hstreams
  refine each_id fun k _ => ?_
  rw [streamBreak_nothing (by rw [hstream])]
  exact watermarkAdvance_nothing hversions (by rw [hstream]) (onWatermark_nil (by simp [hcmds, hneeds])) (.inr (by rw [hstream]))

theorem allFlushed_alone {c : Cmd} (h : d.Alone c) : d.allFlushed = true := by
  obtain ⟨-, -, hstreams, -⟩ := h
  unfold Dev.allFlushed
  simp [stream_of_none hstreams]

end

/-! The watermark over one whole write (R501, R502). -/

/-- The unit whose stream `k` has its one write made durable: its one sheet mapped, D moved, nothing owed. -/
def markedAt (k : Nat) (w : WriteRec) (v : Version) (psa : Nat) (d : Dev) : Dev :=
  (putMap v.lsn psa v.order d).onFw fun f => { f with
    versions := [], streams := sparseSet {} d.fw.streams k { d.stream k with writes := [], mark := w.ssq } }

section
variable {d : Dev} {k psa : Nat} {w : WriteRec} {v : Version}

theorem mapVersion_newer (hpsa : v.psa = some psa) (hnew : sparseGet 0 d.fw.mapOrder v.lsn < v.order) :
    mapVersion v d = (putMap v.lsn psa v.order d).onVersion v.order fun v => { v with stage := .mapped } := by
  unfold mapVersion
  dsimp only
  rw [hpsa]
  dsimp only
  rw [decide_eq_true hnew, Laws.cond_true]

theorem advanceMark_one (hversions : d.fw.versions = [v]) (hwrites : (d.stream k).writes = [w]) (hintent : w.intent = true)
    (hdead : w.dead = false) (hmine : v.stream = k ∧ v.ssq = w.ssq ∧ v.copyOf = none) (hstage : v.stage = .committed) :
    advanceMark 1 k d = (mapVersion v d).onStream k fun t => { t with writes := [], mark := w.ssq } := by
  obtain ⟨hstream, hssq, hcopy⟩ := hmine
  have hof : d.versionsOf k w.ssq = [v] := by simp [Dev.versionsOf, hversions, hstream, hssq, hcopy]
  have hdone : d.writeDone k w = true := by simp [Dev.writeDone, hof, hintent, hdead, hstage]
  unfold advanceMark
  rw [hwrites]
  dsimp only
  rw [hdone, if_neg (by simp), hof, each_cons, each_nil, advanceMark]

theorem watermarkAdvance_one (hcmds : d.fw.cmds = []) (hask : d.flushAsked = false) (hversions : d.fw.versions = [v])
    (hwrites : (d.stream k).writes = [w]) (hintent : w.intent = true) (hdead : w.dead = false)
    (hmine : v.stream = k ∧ v.ssq = w.ssq ∧ v.copyOf = none) (hpsa : v.psa = some psa) (hstage : v.stage = .committed)
    (hnew : sparseGet 0 d.fw.mapOrder v.lsn < v.order) : watermarkAdvance k d = markedAt k w v psa d := by
  have hnone : settleCopies d = d := settleCopies_none (by simp [hversions, hmine])
  have hadv := advanceMark_one hversions hwrites hintent hdead hmine hstage
  rw [mapVersion_newer hpsa hnew] at hadv
  obtain ⟨e, he⟩ : ∃ e, e = advanceMark 1 k d := ⟨_, rfl⟩
  rw [hadv] at he
  have hecmds : e.fw.cmds = [] := by rw [he]; exact hcmds
  have heask : e.flushAsked = false := by rw [he]; exact hask
  have hwait : e.onWatermark k = [] := onWatermark_nil (by simp [hecmds])
  unfold watermarkAdvance
  dsimp only
  rw [hnone, hwrites, List.length_singleton, hadv, ← he, orderRecord_quiet hwait (.inl (flushingAll_none heask (by simp [hecmds]))),
    releaseWaiting_nil hwait, he]
  unfold dropVersions markedAt Dev.onStream Dev.onVersion Dev.stream putMap Dev.onFw
  simp [hversions, hcmds]

end

end Sys2Proof.Proofs
end

section
/-!
SUPPORT. A record that firmware submits to an open, idle journal (13_ream_journal.md R413, R416), and the stream commands (15_commands.md
R477 to R488): the obligation.
-/

namespace Sys2Proof.Proofs

open Sys2Proof Sys2Proof.Machine Sys2Proof.Laws

section
variable {α : Type}

theorem takeFill_length (a : α) (n : Nat) (l : List α) : (takeFill a n l).length = n := by
  induction n generalizing l with
  | zero => cases l <;> rfl
  | succ n ih => cases l <;> simp [takeFill, ih]

theorem takeFill_eq (a : α) (n : Nat) (l : List α) : takeFill a n l = l.take n ++ List.replicate (n - l.length) a := by
  induction n generalizing l with
  | zero => cases l <;> simp [takeFill]
  | succ n ih => cases l <;> simp [takeFill, ih, List.replicate_succ]

end

/-- The 64 bytes that firmware submits as a record of a type with a payload (R413). -/
def submitted (type flags : Nat) (payload : Bytes) : Bytes :=
  takeFill 0#8 6 [] ++ leBytes 1 type ++ leBytes 1 flags ++ takeFill 0#8 8 [] ++ takeFill 0#8 44 payload

theorem recordType_submitted {type : Nat} (flags : Nat) (payload : Bytes) (h : type < 256) :
    recordType (takeFill 0#8 64 (submitted type flags payload)) = type := by
  have hbyte : recordType (takeFill 0#8 64 (submitted type flags payload)) = leNat (leBytes 1 type) := rfl
  rw [hbyte, leNat_leBytes, Nat.pow_one, Nat.mod_eq_of_lt h]

theorem recordPayload_submitted (type flags : Nat) (payload : Bytes) :
    recordPayload (takeFill 0#8 64 (submitted type flags payload)) = takeFill 0#8 44 payload := by
  obtain ⟨p, hp⟩ : ∃ p, p = takeFill 0#8 44 payload := ⟨_, rfl⟩
  have hlen : p.length = 44 := hp ▸ takeFill_length _ _ _
  have hcut : recordPayload (takeFill 0#8 64 (submitted type flags payload)) = (takeFill 0#8 48 p).take 44 := by rw [hp]; rfl
  rw [hcut, takeFill_eq, List.take_append_of_le_length (by simp [hlen]), List.take_take, List.take_of_length_le (by omega), hp]

section
variable {d : Dev}

theorem acceptWaiting_none (n : Nat) (h : d.journal.waiting = []) : acceptWaiting n d = d := by
  cases n with
  | zero => rfl
  | succ n =>
    unfold acceptWaiting
    rw [h]

theorem acceptWaiting_one {x : Submission} {n : Nat} (hwaiting : d.journal.waiting = [x]) (hqueue : d.journal.queue.length < 8) :
    acceptWaiting (n + 1) d =
      d.onJournal fun j => { j with queue := j.queue ++ [{ x with qtime := d.qtime }], waiting := [] } := by
  unfold acceptWaiting
  rw [hwaiting]
  dsimp only
  rw [if_pos hqueue]
  exact acceptWaiting_none _ rfl

theorem journalOpen_notFailed (hopen : d.journalOpen = true) : d.is .RJ_STAT_FAILED = false := by
  unfold Dev.journalOpen at hopen
  simp only [Bool.and_eq_true, Bool.not_eq_true'] at hopen
  obtain ⟨⟨-, hfailed⟩, -⟩ := hopen
  exact hfailed

/-- A submission to an open journal that has room joins the queue at once (R416). -/
theorem submit_open (hopen : d.journalOpen = true) (hqueue : d.journal.queue.length < 8) (hwaiting : d.journal.waiting = []) (event : Bool)
    (b : Bytes) :
    d.submit event b = (d.onJournal fun j => { j with
      queue := j.queue ++ [{ event := event, bytes := takeFill 0#8 64 b, qtime := d.qtime }], waiting := [] }).fullUpdate := by
  unfold Dev.submit
  rw [if_pos hopen, acceptWaiting_one (x := { event := event, bytes := takeFill 0#8 64 b }) (by simp [Dev.onJournal, hwaiting])
    (by exact hqueue)]
  rfl

/-- Firmware's record goes into the queue of an open journal at once (R416). -/
theorem fwSubmit_open (hopen : d.journalOpen = true) (hqueue : d.journal.queue.length < 8) (hwaiting : d.journal.waiting = [])
    (event : Bool) (type flags : Nat) (payload : Bytes) :
    d.fwSubmit event type flags payload = (d.onJournal fun j => { j with
      queue := j.queue ++ [{ event := event, bytes := takeFill 0#8 64 (submitted type flags payload), qtime := d.qtime }],
      waiting := [] }).fullUpdate := by
  have hplain : (d.is .RJ_STAT_SEALED || d.journal.sealing) = false := by
    unfold Dev.journalOpen at hopen
    simp only [Bool.and_eq_true, Bool.not_eq_true'] at hopen
    obtain ⟨⟨⟨-, hsealed⟩, -⟩, hsealing⟩ := hopen
    rw [hsealed, hsealing]
    rfl
  unfold Dev.fwSubmit
  dsimp only
  rw [hplain, Bool.false_and, if_neg (by simp)]
  exact submit_open hopen hqueue hwaiting event _

end

/-! What the mapping of a write leaves (R502). -/

section
variable (k : Nat) (w : WriteRec) (v : Version) (psa : Nat) (d : Dev)

theorem markedAt_stream : ((markedAt k w v psa d).stream k).mark = w.ssq ∧ ((markedAt k w v psa d).stream k).writes = [] := by
  have hstream : (markedAt k w v psa d).stream k = { d.stream k with writes := [], mark := w.ssq } := sparseGet_set_self _ _ _ _
  rw [hstream]
  exact ⟨rfl, rfl⟩

theorem markedAt_map : sparseGet 0 (markedAt k w v psa d).fw.map v.lsn = psa + 1 ∧
    ∀ a, a ≠ v.lsn → sparseGet 0 (markedAt k w v psa d).fw.map a = sparseGet 0 d.fw.map a :=
  ⟨sparseGet_set_self 0 d.fw.map v.lsn (psa + 1), fun _ ha => sparseGet_set_ne 0 d.fw.map (psa + 1) ha.symm⟩

theorem markedAt_dirty : v.lsn / 16384 ∈ (markedAt k w v psa d).fw.dirty := by
  unfold markedAt putMap Dev.onFw
  dsimp only
  split
  case isTrue h => simpa using h
  case isFalse => exact List.mem_cons_self

end

/-! RESET STREAM (R517). -/

theorem endCmd_stream (d : Dev) (id cls detail r0 r1 k : Nat) : (d.endCmd id cls detail r0 r1).stream k = d.stream k := rfl

section
variable {d : Dev} {k : Nat}

theorem settled_nothing (hwrites : (d.stream k).writes = []) : d.settled k = true := by
  unfold Dev.settled
  dsimp only
  rw [hwrites]
  simp

/-- The unit whose stream `k`, which owed nothing, has been reset: its reset marker submitted, the stream as new. -/
def streamReset (k : Nat) (d : Dev) : Dev :=
  (d.fwSubmit false 0x08 0 (leBytes 1 k ++ leBytes 4 0)).onStream k fun t => { t with
    ssq := 1, mark := 0, ordered := 0, sent := 0, broken := none, first := 0, writes := [] }

theorem resetStream_nothing (hwrites : (d.stream k).writes = []) (hversions : d.fw.versions = []) (hfailed : d.is .RJ_STAT_FAILED = false) :
    resetStream k d = (0, streamReset k d) := by
  unfold resetStream
  dsimp only
  rw [hwrites, List.length_nil, each_nil, hfailed, Bool.not_false, Laws.cond_true]
  exact congrArg (Prod.mk 0) (dropVersions_nil ((congrArg Firmware.versions (fwSubmit_fw d _ _ _ _)).trans hversions))

theorem resetStreamCmd_nothing {id : Nat} {c : Cmd} (hdoing : d.Doing id 0x07 c) (hcmds : d.fw.cmds = [c]) (hneeds : c.needs = none)
    (hwrites : (d.stream (c.field 16 1 % 16)).writes = []) (hversions : d.fw.versions = []) (hask : d.flushAsked = false)
    (hfailed : d.is .RJ_STAT_FAILED = false) :
    resetStreamCmd id d = (streamReset (c.field 16 1 % 16) d).endCmd id 0 0 (d.stream (c.field 16 1 % 16)).mark 0 := by
  have hid : c.id = id := doing_id hdoing
  have ⟨_, _, _, hop⟩ := hdoing
  have hflush : d.flushingAll = false := flushingAll_none hask (by simp [hcmds, hop])
  unfold resetStreamCmd
  rw [runCmd_doing hdoing]
  dsimp only
  rw [hcmds, if_neg (by simp [hid]),
    watermarkAdvance_nothing hversions hwrites (onWatermark_nil (by simp [hcmds, hneeds])) (.inl hflush), streamBreak_nothing hwrites,
    settled_nothing hwrites, if_neg (by simp), resetStream_nothing hwrites hversions hfailed]

theorem streamReset_stream : (streamReset k d).stream k = { d.stream k with
    ssq := 1, mark := 0, ordered := 0, sent := 0, broken := none, first := 0, writes := [] } := by
  have hfw : (d.fwSubmit false 0x08 0 (leBytes 1 k ++ leBytes 4 0)).stream k = d.stream k := by
    unfold Dev.stream
    rw [fwSubmit_fw]
  unfold streamReset
  rw [← hfw]
  exact sparseGet_set_self _ _ _ _

theorem streamReset_stream_ne {j : Nat} (h : j ≠ k) : (streamReset k d).stream j = d.stream j := by
  unfold streamReset
  refine (sparseGet_set_ne _ _ _ h.symm).trans ?_
  rw [fwSubmit_fw]
  rfl

end

section
variable {d : Dev} {k : Nat}

/-- The reset marker of a stream as the journal's queue holds it (R517). -/
def resetMarker (k qtime : Nat) : Submission :=
  { event := false, bytes := takeFill 0#8 64 (submitted 0x08 0 (leBytes 1 k ++ leBytes 4 0)), qtime := qtime }

theorem resetMarker_record (k qtime : Nat) :
    ((resetMarker k qtime).event, recordType (resetMarker k qtime).bytes, recordPayload (resetMarker k qtime).bytes) =
      (false, 0x08, takeFill 0#8 44 (leBytes 1 k ++ leBytes 4 0)) := by
  unfold resetMarker
  dsimp only
  rw [recordType_submitted _ _ (by decide), recordPayload_submitted]

/-- A stream reset with an empty journal queue: the marker alone joins it. -/
theorem streamReset_eq (hopen : d.journalOpen = true) (hqueue : d.journal.queue = []) (hwaiting : d.journal.waiting = []) : ∃ v,
    streamReset k d = ((d.onJournal fun j => { j with queue := [resetMarker k d.qtime], waiting := [] }).fs .RJ_STAT_FULL v).onStream k
      fun t => { t with ssq := 1, mark := 0, ordered := 0, sent := 0, broken := none, first := 0, writes := [] } := by
  unfold streamReset
  rw [fwSubmit_open hopen (by simp [hqueue]) hwaiting]
  unfold Dev.onJournal resetMarker
  dsimp only
  rw [hqueue]
  exact ⟨_, rfl⟩

end

/-- A unit after RESET STREAM of stream `k` by a command that has ended: the stream is new, its marker is submitted. -/
theorem streamReset_ended {d : Dev} {k id : Nat} {c : Cmd} (hcmd : d.cmd id = some c) (hstage : c.stage = .running) (mark : Nat)
    (hopen : d.journalOpen = true) (hqueue : d.journal.queue = []) (hwaiting : d.journal.waiting = []) {e : Dev}
    (he : e = (streamReset k d).endCmd id 0 0 mark 0) :
    e.cmd id = some { c with stage := .ended, cls := 0, detail := 0, r0 := mark, r1 := 0 } ∧ e.journal.queue = [resetMarker k d.qtime] ∧
      Changes [Reg.RJ_STAT.key 0 0] d e { d with
        journal := e.journal, fw := { d.fw with cmds := e.fw.cmds, ended := e.fw.ended, streams := e.fw.streams } } := by
  obtain ⟨v, hreset⟩ := streamReset_eq (k := k) hopen hqueue hwaiting
  rw [hreset] at he
  generalize resetMarker k d.qtime = x at he ⊢
  have hended : e.cmd id = some { c with stage := .ended, cls := 0, detail := 0, r0 := mark, r1 := 0 } := by
    rw [he]
    exact cmd_endCmd_self hcmd (by simp [hstage])
  exact ⟨hended, by rw [he]; rfl, by rw [he]; exact ⟨fun i hi => regsKept_wr _ _ _ _ _ i hi, rfl⟩⟩

/-! Breaking a stream (R514). -/

section
variable {d : Dev} {k : Nat} {w : WriteRec}

theorem streamBreak_journal (hwrites : (d.stream k).writes = [w]) (hintent : w.intent = true) (hbroken : (d.stream k).broken = none)
    (hfailed : d.is .RJ_STAT_FAILED = true) (hversions : d.fw.versions = []) (hcmds : d.fw.cmds = []) :
    streamBreak k d = d.onStream k fun t => { t with broken := some 2, first := w.ssq } := by
  have hearly : failEarly k d = d := by
    unfold failEarly
    dsimp only
    rw [hwrites, List.filter_eq_nil_iff.mpr (by simp [hintent]), each_nil]
  have hlost : d.firstLost k = some (w.ssq, 2) := by simp [Dev.firstLost, Dev.writeLost, hwrites, hintent, hfailed]
  obtain ⟨e, he⟩ : ∃ e, e = d.onStream k fun t => { t with broken := some 2, first := w.ssq } := ⟨_, rfl⟩
  have hefailed : e.is .RJ_STAT_FAILED = true := by rw [he]; exact hfailed
  have hestop : stopAbove k w.ssq e = e := by
    unfold stopAbove
    dsimp only
    rw [(by rw [he]; exact hversions : e.fw.versions = [])]
    rfl
  unfold streamBreak
  dsimp only
  rw [hearly, hlost]
  dsimp only
  unfold breakAt
  dsimp only
  rw [hbroken, if_neg (by simp), ← he, hefailed, Bool.not_true, Laws.cond_false, hestop,
    onWatermark_nil (by rw [he]; simp [Dev.onStream, Dev.onFw, hcmds]), each_nil]

end

/-! POWER MODE and SERVICE (R484, R488). -/

section
variable {d : Dev} {id : Nat} {c : Cmd}

/-- A mechanism that has been put away: nothing more to do. -/
theorem putAway_done (hstage : ∀ o : Fin 4, d.stage o = .off) (hslices : ∀ n : Fin 96, d.is .RCS_CTL_EN n = false)
    (hoff : d.spnState = spnOff) (hslow : d.is .SPN_STAT_BELOW30 = true) : putAway d = (true, d) := by
  have hlt : ∀ o ∈ d.opus, o < 4 := fun o ho => List.mem_range.mp (List.mem_filter.mp ho).1
  have hoffAt : ∀ o ∈ d.opus, d.stage o = .off := fun o ho => hstage ⟨o, hlt o ho⟩
  have hparked : ∀ o ∈ d.opus, d.parked o = true := fun o ho => by simp [Dev.parked, hoffAt o ho]
  have hpark : (d.each d.opus fun d o => d.cond (!d.parked o) (opuPark o (d.sldPos o) 0)) = d :=
    each_id fun o ho => by rw [hparked o ho]; rfl
  have hslicesOff : ∀ o ∈ d.opus, slicesOff o d = d := fun o ho => each_id fun n hn => by
    obtain ⟨i, hi, rfl⟩ := List.mem_map.mp hn
    have hn96 : 24 * o + i < 96 := by have := hlt o ho; have := List.mem_range.mp hi; omega
    rw [show d.is .RCS_CTL_EN (24 * o + i) = false from hslices ⟨_, hn96⟩]
    rfl
  have hdown : (d.each d.opus fun d o => opuPowerDown o (slicesOff o d)) = d := each_id fun o ho => by
    rw [hslicesOff o ho]
    unfold opuPowerDown opuOff
    simp [hoffAt o ho]
  unfold putAway
  dsimp only
  rw [hpark, if_neg (by simpa using hparked), hdown, hoff, show (spnOff == spnRun) = false from rfl, Laws.cond_false, hoff, hslow]
  exact congrArg (·, d) (by simpa using hoffAt)

theorem powerMode_spinning (hdoing : d.Doing id 0x08 c) (halone : d.Alone c) (hwant : c.field 16 1 = 3) (hmode : d.mode = 3)
    (hfrost : d.frost = false) : powerMode id d = d.endCmd id 0 0 3 := by
  unfold powerMode
  rw [runCmd_doing hdoing]
  dsimp only
  rw [flushAll_alone halone, allFlushed_alone halone, hfrost, if_neg (by simp), if_pos hwant, if_pos hmode]

theorem powerMode_parked (hdoing : d.Doing id 0x08 c) (halone : d.Alone c) (hwant : c.field 16 1 = 2) (hfrost : d.frost = false)
    (haway : putAway d = (true, d)) : powerMode id d = (d.setMode 2).endCmd id 0 0 2 := by
  unfold powerMode
  rw [runCmd_doing hdoing]
  dsimp only
  rw [flushAll_alone halone, allFlushed_alone halone, hfrost, if_neg (by simp), if_neg (by simp [hwant]), haway, if_neg (by simp), if_pos hwant]

theorem runSub_doing {op sub : Nat} (hdoing : d.Doing id op c) (hsub : c.b24 = sub) (f : Cmd → Dev → Dev) : runSub id op sub f d = f c d := by
  unfold runSub
  rw [runCmd_doing hdoing, if_pos hsub]

end

/-- Settles O35: a stream with nothing owed is left as it is by every step of the flush; one whole write is mapped (`markedAt`); the
failed journal breaks a stream at its first write; RESET STREAM submits its marker and makes the stream new (`streamReset`). -/
theorem streamCommands : Obligations.StreamCommands := by
  unfold Obligations.StreamCommands
  refine ⟨fun k w v psa s ⟨hcmds, hask, hversions⟩ ⟨hwrites, hintent, hdead, _⟩ ⟨hstream, hssq, hcopy, hpsa, hstage⟩ hnew => ?_,
    fun k s ⟨hcmds, hask, hversions, hwrites⟩ => ?_, fun k w s ⟨hwrites, hintent, hbroken⟩ ⟨hfailed, hversions, hcmds⟩ => ?_,
    fun k s hwrites => ?_, fun id c k s ⟨hdoing, hcmds, hneeds, hk⟩ ⟨hwrites, hversions, hask⟩ ⟨hopen, hqueue, hwaiting⟩ => ?_,
    fun id c s ⟨hdoing, hneeds⟩ => ?_, fun id c s hdoing => ?_, fun id c s ⟨hdoing, halone, hwant⟩ ⟨hmode, hfrost⟩ => ?_,
    fun id c s ⟨hdoing, halone, hwant, hfrost⟩ ⟨hstage, hslices, hoff, hslow⟩ => ?_, fun id c s ⟨hdoing, halone, hsub⟩ => ?_,
    fun id c s ⟨hdoing, hsub⟩ => ?_⟩
  · refine gives_of_eq (f := watermarkAdvance k) rfl
      (watermarkAdvance_one hcmds hask hversions hwrites hintent hdead ⟨hstream, hssq, hcopy⟩ hpsa hstage hnew) ?_
    obtain ⟨hmark, hrest⟩ := markedAt_stream k w v psa s.dev
    obtain ⟨hself, hother⟩ := markedAt_map k w v psa s.dev
    exact ⟨hmark, hrest, rfl, hself, hother, markedAt_dirty k w v psa s.dev, by simp [markedAt, putMap, Dev.onFw], rfl⟩
  · exact becomes_of_eq (f := watermarkAdvance k) rfl (watermarkAdvance_nothing hversions hwrites (onWatermark_nil (by simp [hcmds]))
      (.inl (flushingAll_none hask (by simp [hcmds]))))
  · exact becomes_of_eq (f := streamBreak k) rfl (streamBreak_journal hwrites hintent hbroken hfailed hversions hcmds)
  · exact becomes_of_eq (f := streamBreak k) rfl (streamBreak_nothing hwrites)
  · subst hk
    have ⟨hcmd, hstage, _, _⟩ := hdoing
    obtain ⟨e, he⟩ : ∃ e, e = (streamReset (c.field 16 1 % 16) s.dev).endCmd id 0 0 (s.dev.stream (c.field 16 1 % 16)).mark 0 := ⟨_, rfl⟩
    obtain ⟨hended, hjournal, hchanges⟩ := streamReset_ended hcmd hstage _ hopen hqueue hwaiting he
    refine gives_of_eq (f := resetStreamCmd id) rfl
      ((resetStreamCmd_nothing hdoing hcmds hneeds hwrites hversions hask (journalOpen_notFailed hopen)).trans he.symm)
      ⟨by rw [he, endCmd_stream, streamReset_stream], fun j hj => by rw [he, endCmd_stream, streamReset_stream_ne hj], by rw [hended]; rfl, by rw [hended]; rfl,
        ?_, hchanges⟩
    rw [hjournal, List.map_singleton, resetMarker_record]
  · refine becomes_of_eq (f := flushStream id) rfl ?_
    unfold flushStream
    rw [runCmd_doing hdoing, hneeds]
  · refine becomes_of_eq (f := fence id) rfl ?_
    unfold fence
    rw [runCmd_doing hdoing]
    cases c.after <;> rfl
  · exact becomes_of_eq (f := powerMode id) rfl (powerMode_spinning hdoing halone hwant hmode hfrost)
  · exact becomes_of_eq (f := powerMode id) rfl (powerMode_parked hdoing halone hwant hfrost (putAway_done hstage hslices hoff hslow))
  · refine becomes_of_eq (f := enterService id) rfl ?_
    unfold enterService
    rw [runSub_doing hdoing hsub, flushAll_alone halone]
    dsimp only
    rw [allFlushed_alone halone, if_neg (by simp)]
  · refine becomes_of_eq (f := leaveService id) rfl ?_
    unfold leaveService
    rw [runSub_doing hdoing hsub]
    dsimp only
    by_cases hrun : s.dev.spnState = spnRun
    · simp [hrun]
    · simp [hrun]

end Sys2Proof.Proofs
end

section
/-!
SUPPORT. Keeping the ring short and the map checkpoints (13_ream_journal.md R423, R684): the obligation.
-/

namespace Sys2Proof.Proofs

open Sys2Proof Sys2Proof.Machine Sys2Proof.Laws

/-- A unit with a Class E disc that side A can record, no checkpoint under way, and a checkpoint sheet of that side left over. -/
def leftoverSheet : Dev :=
  { fw := { disc := { loaded := true, mediaClass := 1, layers := 255, a := { formatted := true, recordable := true } },
            versions := [{ cp := some (0, 7) }] } }

/-- Refutes O30: the clause on a checkpoint's beginning is said of every unit with no checkpoint under way, and where a checkpoint sheet
of that side is still among the versions, unrecorded, the new checkpoint waits for it and does not yet plan its index sheet. -/
theorem not_journalUpkeep : ¬ Obligations.JournalUpkeep := by
  unfold Obligations.JournalUpkeep
  rintro ⟨-, -, -, -, -, -, -, -, hbegin, -⟩
  obtain ⟨-, -, hruns, -⟩ := of_gives (f := mapCheckpoint true) rfl
    (hbegin true 0 0 { dev := leftoverSheet } (by decide +kernel) (by decide +kernel) (by decide +kernel) (by decide +kernel)
      (by decide +kernel))
  exact absurd (congrArg (List.map CpRun.index) hruns) (by decide +kernel)

end Sys2Proof.Proofs
end

section
/-!
SUPPORT. Replies (14_host_port.md R441 to R453): what the reply of the one command leaves behind, and what follows it.
-/

namespace Sys2Proof.Proofs

open Sys2Proof Sys2Proof.Machine Sys2Proof.Laws

section
variable {d : Dev} {c : Cmd} {s a : Nat}

theorem admitAll_nothing (h : ∀ x ∈ d.fw.cmds, x.stage = .running → x.ssq ≠ 0) : admitAll d = d := by
  have hwaiting : (d.running.filter fun x => x.ssq = 0) = [] := by
    rw [List.filter_eq_nil_iff]
    intro x hx
    obtain ⟨hmem, hrun⟩ := List.mem_filter.mp hx
    simp [h x hmem (by simpa using hrun)]
  unfold admitAll
  rw [hwaiting]
  rfl

/-! A command that leaves (R446, R451, R478). -/

/-- The unit without its one command: the versions that are mapped or withdrawn leave with it (R504). -/
def withoutCmd (id : Nat) (d : Dev) : Dev := { d with
  fw := { d.fw with
    cmds := [], ended := d.fw.ended.filter (· != id), versions := d.fw.versions.filter fun v => v.stage != .mapped && v.stage != .gone }
  link := { d.link with barrier := d.link.barrier.filter (· != id) } }

theorem replied_alone (hcmds : d.fw.cmds = [c]) : replied c.id d = withoutCmd c.id d := by
  have hleft : (d.fw.cmds.filter fun x => x.id != c.id) = [] := by simp [hcmds]
  unfold replied Dev.onFw Dev.onLink
  dsimp only
  rw [hleft]
  dsimp only [Dev.running, List.map_nil, List.filter_nil, each_nil]
  unfold dropVersions Dev.onFw
  dsimp only
  rw [admitAll_nothing (by simp)]
  simp [withoutCmd]

/-! What follows a reply (R446, R484, R487, R492, R548, R550). -/

theorem barrierGo_idle (hop : d.link.op = none) (harrive : d.link.arrive = none) : barrierGo d = d := by
  have hown : d.ownOp = none := by simp [Dev.ownOp, hop]
  unfold barrierGo
  rw [harrive]
  dsimp only
  unfold chainProgress
  rw [hown]

/-- A unit in no chain-wide operation that owes no restart does after the reply only what a page of the command asks for. -/
theorem afterReply_idle {begun : Bool} (hop : c.opcode ≠ 8) (hlink : d.link.op = none) (harrive : d.link.arrive = none)
    (hkept : (pageInForce c d).link.op = none) (hrestart : (pageInForce c d).aon.restart = false) :
    afterReply c begun d = pageInForce c d := by
  unfold afterReply
  rw [barrierGo_idle hlink harrive]
  dsimp only
  rw [if_neg (by simp [hop]), hrestart, if_neg (by simp), hkept]

theorem pageInForce_none (h : c.page = none) : pageInForce c d = d := by
  unfold pageInForce
  rw [h]

/-- A page that no block reads at once is only kept (R492). -/
theorem pageInForce_kept {p scope : Nat} {b : Bytes} (h : c.page = some (p, scope, b)) (hp : p ∉ [3, 4, 5, 6, 7]) :
    pageInForce c d = d.onFw fun w => { w with
      pages := sparseSet [] w.pages (256 * p + scope) (pageMerge (pageFields d.smallBuffer p) (d.page p scope) b) } := by
  unfold pageInForce
  rw [h]
  dsimp only
  unfold pageTakes
  split
  case h_6 => rfl
  all_goals exact absurd hp (by decide)

/-! The reply's way (R446, R454, R460). -/

theorem replyOut_none {vector : Nat} {b : Bytes} (hhome : d.homeHere c = true) (horphan : c.orphan = false) (hnote : c.flag 2 = false) :
    replyOut c none vector b d = d := by
  unfold replyOut
  dsimp only
  rw [if_pos hhome, if_neg (by simp [horphan]), hnote, Laws.cond_false, ite_self]

theorem replyOut_some {vector : Nat} {b : Bytes} (hhome : d.homeHere c = true) (horphan : c.orphan = false) (hnote : c.flag 2 = false)
    (hmaster : d.busMaster = true) : replyOut c (some a) vector b d = replyToHost a b d := by
  unfold replyOut
  dsimp only
  rw [if_pos hhome, if_neg (by simp [horphan]), hmaster, if_neg (by simp), hnote, Laws.cond_false]

theorem replyBytes_length (c : Cmd) (rseq : Nat) (d : Dev) : (replyBytes c rseq d).length = 32 := by simp [replyBytes]

/-- Bytes 4 to 31 of a reply written first, and then its bytes 0 to 3, make the whole reply. -/
theorem memRead_reply (m : List Host.Cell) (a : Nat) {b : Bytes} (hb : b.length = 32) :
    memRead (memWrite (memWrite m (a + 4) (b.drop 4)) a (b.take 4)) a 32 = b := by
  have hfirst : memRead (memWrite (memWrite m (a + 4) (b.drop 4)) a (b.take 4)) a 4 = b.take 4 := by
    have hread := memRead_memWrite (memWrite m (a + 4) (b.drop 4)) a (b.take 4)
    rwa [show (b.take 4).length = 4 by simp [hb]] at hread
  have hrest : memRead (memWrite (memWrite m (a + 4) (b.drop 4)) a (b.take 4)) (a + 4) 28 = b.drop 4 := by
    have hread := memRead_memWrite m (a + 4) (b.drop 4)
    rw [show (b.drop 4).length = 28 by simp [hb]] at hread
    refine (memRead_congr fun k hk _ => ?_).trans hread
    rw [sparseGet_memWrite, if_neg (by simp [hb]; omega)]
  rw [show 32 = 4 + 28 from rfl, memRead_append, hfirst, hrest, List.take_append_drop]

theorem memRead_reply_outside (m : List Host.Cell) {a x : Nat} {b : Bytes} (hb : b.length = 32) (hx : x < a ∨ a + 32 ≤ x) :
    memRead (memWrite (memWrite m (a + 4) (b.drop 4)) a (b.take 4)) x 1 = memRead m x 1 :=
  memRead_congr fun k hk hk1 => by
    rw [sparseGet_memWrite, if_neg (by simp [hb]; omega), sparseGet_memWrite, if_neg (by simp [hb]; omega)]

/-! The registers of a set's reply (R446, R448). -/

/-- The unit whose set `s` shows a reply. -/
def replyShown (s rseq : Nat) (b : Bytes) (d : Dev) : Dev :=
  (((d.each (List.range 8) fun d k => d.wr .HP_TS_REPLY (BitVec.ofNat 32 (leNat ((b.drop (4 * k)).take 4))) s k).fs
    .HP_TS_STATE_RSEQ rseq s).fs .HP_TS_STATE_VALID 1 s).fs .HP_TS_STATE_BUSY 0 s

/-- The keys of the registers in which set `s` shows a reply. -/
def replyKeys (s : Nat) : List Nat := Reg.HP_TS_STATE.key s 0 :: (List.range 8).map fun k => Reg.HP_TS_REPLY.key s k

section
variable {rseq : Nat} {b : Bytes} {u : Dev}

theorem replyShown_changes (h : Changes (replyKeys s) u d u) : Changes (replyKeys s) u (replyShown s rseq b d) u := by
  have hstate : Reg.HP_TS_STATE.key s 0 ∈ replyKeys s := List.mem_cons_self
  have hdwords := each_inv (P := fun e => Changes (replyKeys s) u e u) (l := List.range 8)
    (f := fun e k => e.wr .HP_TS_REPLY (BitVec.ofNat 32 (leNat ((b.drop (4 * k)).take 4))) s k) h fun e k hk he =>
      changes_wr he (List.mem_cons_of_mem _ (List.mem_map.mpr ⟨k, hk, rfl⟩))
  exact changes_fs (changes_fs (changes_fs hdwords hstate) hstate) hstate

theorem replyShown_state (hrseq : rseq < 2 ^ 16) : (replyShown s rseq b d).is .HP_TS_STATE_VALID s = true ∧
    (replyShown s rseq b d).is .HP_TS_STATE_BUSY s = false ∧ (replyShown s rseq b d).fg .HP_TS_STATE_RSEQ s = rseq := by
  unfold replyShown
  generalize (d.each (List.range 8) fun d k => d.wr .HP_TS_REPLY (BitVec.ofNat 32 (leNat ((b.drop (4 * k)).take 4))) s k) = e
  have hbusy := fg_fs_of_lt ((e.fs .HP_TS_STATE_RSEQ rseq s).fs .HP_TS_STATE_VALID 1 s) (x := .HP_TS_STATE_BUSY) (v := 0) s (by decide) (by decide)
  have hvalid := fg_fs_of_lt (e.fs .HP_TS_STATE_RSEQ rseq s) (x := .HP_TS_STATE_VALID) (v := 1) s (by decide) (by decide)
  have hnumber := fg_fs_of_lt e (x := .HP_TS_STATE_RSEQ) s (by decide) hrseq
  refine ⟨?_, by rw [Dev.is, hbusy]; rfl, ?_⟩
  · rw [Dev.is, fg_fs_same_reg _ .HP_TS_STATE_BUSY .HP_TS_STATE_VALID 0 s 0 rfl (by decide) (by decide), hvalid]
    rfl
  · rw [fg_fs_same_reg _ .HP_TS_STATE_BUSY .HP_TS_STATE_RSEQ 0 s 0 rfl (by decide) (by decide),
      fg_fs_same_reg _ .HP_TS_STATE_VALID .HP_TS_STATE_RSEQ 1 s 0 rfl (by decide) (by decide), hnumber]

theorem replyShown_dword {k : Nat} (hk : k < 8) :
    (replyShown s rseq b d).rd .HP_TS_REPLY s k = BitVec.ofNat 32 (leNat ((b.drop (4 * k)).take 4)) := by
  have hapart : Reg.HP_TS_STATE.key s 0 ≠ Reg.HP_TS_REPLY.key s k := by
    simp only [Reg.key, Reg.HP_TS_STATE, Reg.HP_TS_REPLY]
    omega
  have hdwords := (each_gives (I := fun _ => True) (d := d) (l := List.range 8)
    (f := fun e k => e.wr .HP_TS_REPLY (BitVec.ofNat 32 (leNat ((b.drop (4 * k)).take 4))) s k)
    (Q := fun k e => e.rd .HP_TS_REPLY s k = BitVec.ofNat 32 (leNat ((b.drop (4 * k)).take 4))) trivial (fun _ _ _ _ => trivial)
    (fun _ _ _ _ => rd_wr _ _ _ _ _) (fun e x _ y _ hy => by
      by_cases hxy : x = y
      · subst hxy
        exact rd_wr _ _ _ _ _
      · rw [rd_wr_ne _ _ _ _ _ _ _ _ (by simp only [Reg.key, Reg.HP_TS_REPLY]; omega), hy])).2 k (List.mem_range.mpr hk)
  have hfs : ∀ (e : Dev) (x : Fld) (v : Nat), x.reg = .HP_TS_STATE → (e.fs x v s).rd .HP_TS_REPLY s k = e.rd .HP_TS_REPLY s k :=
    fun e x v hx => rd_wr_ne _ _ _ _ _ _ _ _ (by rw [hx]; exact hapart)
  unfold replyShown
  rw [hfs _ _ _ rfl, hfs _ _ _ rfl, hfs _ _ _ rfl, hdwords]

/-- Showing a reply changes nothing beside the registers. -/
theorem replyShown_regs : replyShown s rseq b d = { d with regs := (replyShown s rseq b d).regs } :=
  (replyShown_changes changes_refl).2

/-- The reply of the one command, posted through its set: its way to host memory first, then the set's registers. -/
theorem tsPost_alone {e : Dev} (hout : replyOut c c.raddr c.vector (replyBytes c ((d.fg .HP_TS_STATE_RSEQ s + 1) % 2 ^ 16) d) d = e)
    (hcmds : e.fw.cmds = [c]) : tsPost s c d = withoutCmd c.id
      (replyShown s ((d.fg .HP_TS_STATE_RSEQ s + 1) % 2 ^ 16) (replyBytes c ((d.fg .HP_TS_STATE_RSEQ s + 1) % 2 ^ 16) d) e) := by
  have hshown : ∀ rseq b, (replyShown s rseq b e).fw.cmds = [c] := fun rseq b => by rw [replyShown_regs]; exact hcmds
  unfold tsPost
  dsimp only
  rw [hout]
  exact replied_alone (hshown _ _)

end

theorem tsEnded_alone (hcmds : d.fw.cmds = [c]) (hstage : c.stage = .ended) (hqueue : c.queue = false) (hstream : c.stream = s) :
    d.tsEnded s = some c := by simp [Dev.tsEnded, hcmds, hstage, hqueue, hstream]

end

end Sys2Proof.Proofs
end

section
/-!
SUPPORT. The commands that show the unit's state (15_commands.md R443, R471, R483, R489 to R492): the obligation.
-/

namespace Sys2Proof.Proofs

open Sys2Proof Sys2Proof.Machine Sys2Proof.Laws

section
variable {d : Dev} {id : Nat} {c : Cmd}

/-! IDENTIFY and the pages (R491, R492). -/

theorem unitPage_length (d : Dev) : (unitPage d).length = 4096 := takeFill_length _ _ _

theorem discPage_length (d : Dev) : (discPage d).length = 4096 := by
  unfold discPage
  dsimp only
  split <;> exact takeFill_length _ _ _

theorem identify_here (hdoing : d.Doing id 0x01 c) (hdata : d.HasData c) (hlen : c.dlen = 4096) :
    identify id d = ({ d.sends (d.dataAttr (c.flag 0) true) with
      hostMem := memWrite d.hostMem c.dptr (if c.b24 = 0 then unitPage d else discPage d) } : Dev).endCmd id 0 0 4096 := by
  obtain ⟨b, hb⟩ : ∃ b, b = if c.b24 = 0 then unitPage d else discPage d := ⟨_, rfl⟩
  have hblen : b.length = 4096 := by
    rw [hb]
    split
    · exact unitPage_length d
    · exact discPage_length d
  unfold identify
  rw [runCmd_doing hdoing, ← hb, deliver_here hdata (List.ne_nil_of_length_pos (by omega)), List.take_of_length_le (by omega)]

theorem getPage_here {p : Bytes} (hdoing : d.Doing id 0x02 c) (hdata : d.HasData c) (hknown : pageLength c.b24 ≠ 0)
    (hscope : c.field 25 1 < pageScopes c.b24) (hne : p ≠ [])
    (hp : p = if (c.field 26 1).testBit 0 then pageDefault d.smallBuffer c.b24 (c.field 25 1) else d.page c.b24 (c.field 25 1)) :
    getPage id d = ({ d.sends (d.dataAttr (c.flag 0) true) with hostMem := memWrite d.hostMem c.dptr (p.take c.dlen) } : Dev).endCmd id 0 0
      (pageLength c.b24) := by
  unfold getPage
  rw [runCmd_doing hdoing]
  dsimp only
  rw [if_neg hknown, if_neg (by omega), ← hp, deliver_here hdata hne]

theorem setPage_eq (hdoing : d.Doing id 0x03 c) (hdata : d.HasData c) (hknown : pageLength c.b24 ≠ 0) :
    setPage id d = match pageRefused d c.b24 (c.field 25 1) (d.hostData c) with
      | some off => (d.sends (d.dataAttr (c.flag 0) false)).endCmd id 3 0x0C off
      | none => if !pageReserved d.smallBuffer c.b24 (d.hostData c) then (d.sends (d.dataAttr (c.flag 0) false)).endCmd id 3 2
        else ((d.sends (d.dataAttr (c.flag 0) false)).onCmd id fun x => { x with page := some (c.b24, c.field 25 1, d.hostData c) }).endCmd id 0 0 := by
  have ⟨hcmd, _, _, _⟩ := hdoing
  unfold setPage
  rw [runCmd_doing hdoing, withData_here hcmd hdata]
  dsimp only
  rw [if_neg hknown]
  rfl

/-! Status, attention and logs (R443, R483, R489). -/

theorem getLog_media (hdoing : d.Doing id 0x06 c) (hdata : d.HasData c) (hmedia : c.b24 = 2) {got : List Bytes}
    (hgot : got = ((logOf d 2).1.drop (c.field 28 4)).take ((c.dlen - 32) / 16)) :
    getLog id d = ({ d.sends (d.dataAttr (c.flag 0) true) with
      hostMem := memWrite d.hostMem c.dptr ((leBytes 1 2 ++ leBytes 1 1 ++ leBytes 2 16 ++ leBytes 4 d.fw.mediaLog.length
        ++ leBytes 4 got.length ++ leBytes 4 0 ++ (leBytes 4 d.fw.transients ++ leBytes 4 d.fw.marginals ++ leBytes 4 d.fw.lastings
        ++ leBytes 4 d.fw.refresh.length) ++ got.flatten).take c.dlen) } : Dev).endCmd id 0 0 got.length d.fw.mediaLog.length := by
  have hcount : (logOf d 2).1.length = d.fw.mediaLog.length := List.length_map _
  unfold getLog
  rw [runCmd_doing hdoing]
  dsimp only
  rw [hmedia, show logEntry 2 = 16 from rfl, ← hgot, hcount, deliver_here hdata (by simp [leBytes])]
  rfl

theorem poll_doing (hdoing : d.Doing id 0x04 c) : poll id d = d.endCmd id 0 0 (pollResults d).1 (pollResults d).2 :=
  runCmd_doing hdoing _

/-- RESULT0 of POLL begins with the mode. -/
theorem pollResults_mode (d : Dev) : (pollResults d).1 % 16 = d.mode := by
  have hmode : d.mode < 8 := bitsOf_lt _ _ _
  unfold pollResults
  simp only [Nat.shiftLeft_eq]
  omega

end

/-! A page takes force with its command's reply (R492). -/

section
variable {d : Dev} {c : Cmd} {s : Nat}

theorem sparseGet_eq_lookup {α : Type} (a : α) (m : Sparse α) (k : Nat) : sparseGet a m k = (m.lookup k).getD a := by
  induction m with
  | nil => rfl
  | cons e m ih =>
    unfold sparseGet
    rw [ih, List.lookup_cons]
    by_cases hk : e.1 = k
    · simp [hk]
    · simp [hk, beq_false_of_ne (Ne.symm hk)]

theorem fg_ofReplyKeys {e : Dev} {x : Fld} (h : Changes (replyKeys s) d e d) (hs : s < 16) (hx : x.reg.blk.code ≠ Block.hp.code)
    (hoff : x.reg.off < 0x100000) : e.fg x = d.fg x := by
  have hkey : x.reg.key 0 0 ∉ replyKeys s := by
    have hstate := key_ne_of_block x.reg .HP_TS_STATE 0 0 s 0 hx (by omega) (by simp only [Reg.HP_TS_STATE]; omega)
    have hreply := fun k (hk : k < 8) => key_ne_of_block x.reg .HP_TS_REPLY 0 0 s k hx (by omega) (by simp only [Reg.HP_TS_REPLY]; omega)
    simp only [replyKeys, List.mem_cons, List.mem_map, List.mem_range, not_or, not_exists, not_and]
    exact ⟨hstate, fun k hk => (hreply k hk).symm⟩
  obtain ⟨hkept, -⟩ := h
  unfold Dev.fg Dev.rd
  rw [sparseGet_eq_lookup, hkept _ hkey, ← sparseGet_eq_lookup]

theorem tsReplyPost_page {begun : Bool} {p scope : Nat} {b : Bytes} (hs : s < 16) (hended : d.tsEnded s = some c) (hcmds : d.fw.cmds = [c])
    (hraddr : c.raddr = none) (hnote : c.flag 2 = false) (hop : c.opcode ≠ 8) (hhome : d.homeHere c = true) (horphan : c.orphan = false)
    (hpage : c.page = some (p, scope, b)) (hp : p ∉ [3, 4, 5, 6, 7]) (hrestart : d.aon.restart = false) (hlink : d.link.op = none)
    (harrive : d.link.arrive = none) : ∃ r : Dev, r.is .HP_TS_STATE_VALID s = true ∧
      tsReplyPost s begun d = (withoutCmd c.id r).onFw fun w => { w with
        pages := sparseSet [] d.fw.pages (256 * p + scope) (pageMerge (pageFields d.smallBuffer p) (d.page p scope) b) } := by
  have hpost := tsPost_alone (s := s) (by rw [hraddr]; exact replyOut_none hhome horphan hnote) hcmds
  obtain ⟨hvalid, -⟩ := replyShown_state (d := d) (s := s) (b := replyBytes c ((d.fg .HP_TS_STATE_RSEQ s + 1) % 2 ^ 16) d)
    (Nat.mod_lt (d.fg .HP_TS_STATE_RSEQ s + 1) (by decide))
  have hchanges := replyShown_changes (s := s) (rseq := (d.fg .HP_TS_STATE_RSEQ s + 1) % 2 ^ 16)
    (b := replyBytes c ((d.fg .HP_TS_STATE_RSEQ s + 1) % 2 ^ 16) d) (changes_refl (d := d))
  generalize replyShown s ((d.fg .HP_TS_STATE_RSEQ s + 1) % 2 ^ 16) (replyBytes c ((d.fg .HP_TS_STATE_RSEQ s + 1) % 2 ^ 16) d) d = r
    at hpost hvalid hchanges
  have hcap : r.fg .DRC_CFG_CAP = d.fg .DRC_CFG_CAP := fg_ofReplyKeys hchanges hs (by decide) (by decide)
  obtain ⟨-, hregs⟩ := hchanges
  have hsmall : (withoutCmd c.id r).smallBuffer = d.smallBuffer := congrArg (fun n => decide (n < 7168)) hcap
  have hpages : (withoutCmd c.id r).fw.pages = d.fw.pages := by rw [hregs]; rfl
  have hnow : (withoutCmd c.id r).page p scope = d.page p scope := by unfold Dev.page; rw [hpages, hsmall]
  have hforce := pageInForce_kept (d := withoutCmd c.id r) hpage hp
  rw [hsmall, hnow] at hforce
  refine ⟨r, hvalid, ?_⟩
  unfold tsReplyPost
  rw [hended]
  dsimp only
  rw [hpost, afterReply_idle hop (by rw [hregs]; exact hlink) (by rw [hregs]; exact harrive) (by rw [hforce, hregs]; exact hlink)
    (by rw [hforce, hregs]; exact hrestart), hforce]
  unfold Dev.onFw
  dsimp only
  rw [hpages]

end

/-- Settles O34: each command of its opcode that runs is one step of its own; a page is kept with the reply of its SET PAGE. -/
theorem statusCommands : Obligations.StatusCommands := by
  unfold Obligations.StatusCommands
  refine ⟨fun id c s ⟨hdoing, hdata, hlen⟩ => ?_, fun id c p s ⟨hdoing, hdata⟩ ⟨hknown, hscope, hne⟩ hp => ?_,
    fun id c s ⟨hdoing, hunknown⟩ => ?_, fun id c s ⟨hdoing, hdata, hknown⟩ ⟨hrefused, hreserved⟩ => ?_,
    fun id off c s ⟨hdoing, hdata⟩ ⟨hknown, hrefused⟩ => ?_,
    fun stream begun c p scope b s ⟨hcmds, hstage, hqueue, hstream⟩ ⟨hraddr, hnote, hop, hhome, horphan⟩ ⟨hpage, hp⟩
      ⟨hrestart, hlink, harrive⟩ => ?_,
    fun id c s hdoing => ?_, fun id c s hdoing => ?_, fun id c s ⟨hdoing, hdata, hmedia⟩ => ?_, fun id c s hnone hc => ?_⟩
  · exact becomes_of_eq (f := identify id) rfl (identify_here hdoing hdata hlen)
  · exact becomes_of_eq (f := getPage id) rfl (getPage_here hdoing hdata hknown hscope hne hp)
  · refine becomes_of_eq (f := getPage id) rfl ?_
    unfold getPage
    rw [runCmd_doing hdoing]
    exact if_pos hunknown
  · refine becomes_of_eq (f := setPage id) rfl ?_
    rw [setPage_eq hdoing hdata hknown, hrefused]
    exact if_neg (by simp [hreserved])
  · refine becomes_of_eq (f := setPage id) rfl ?_
    rw [setPage_eq hdoing hdata hknown, hrefused]
  · obtain ⟨r, hvalid, hpost⟩ := tsReplyPost_page (begun := begun) stream.isLt (tsEnded_alone hcmds hstage hqueue hstream) hcmds hraddr
      hnote (by simp [hop]) hhome horphan hpage hp hrestart hlink harrive
    exact gives_of_eq (f := tsReplyPost stream begun) rfl hpost ⟨rfl, rfl, hvalid⟩
  · have ⟨hcmd, hstage, _, _⟩ := hdoing
    refine gives_of_eq (f := poll id) rfl (poll_doing hdoing) ⟨?_, rfl⟩
    rw [cmd_endCmd_self hcmd (by simp [hstage])]
    simp [pollResults_mode]
  · exact becomes_of_eq (f := ackAttention id) rfl (runCmd_doing hdoing _)
  · exact becomes_of_eq (f := getLog id) rfl (getLog_media hdoing hdata hmedia rfl)
  · simp only [List.mem_cons, List.not_mem_nil, or_false] at hc
    obtain rfl | rfl | rfl | rfl | rfl | rfl := hc
    · exact becomes_of_eq (f := identify id) rfl (runCmd_none hnone _)
    · exact becomes_of_eq (f := getPage id) rfl (runCmd_none hnone _)
    · exact becomes_of_eq (f := setPage id) rfl (runCmd_none hnone _)
    · exact becomes_of_eq (f := poll id) rfl (runCmd_none hnone _)
    · exact becomes_of_eq (f := ackAttention id) rfl (runCmd_none hnone _)
    · exact becomes_of_eq (f := getLog id) rfl (runCmd_none hnone _)

end Sys2Proof.Proofs
end

section
/-!
SUPPORT. Task register sets (14_host_port.md R444 to R448, 15_commands.md R467, R477, R547): the obligation.
-/

namespace Sys2Proof.Proofs

open Sys2Proof Sys2Proof.Machine Sys2Proof.Laws

/-! A command latched (R444, R450, R467, R494, R547). -/

section
variable {d : Dev} {c : Cmd}

/-- The unit with a command latched: it has its number, and no fence is ahead of it. -/
def latched (c : Cmd) (d : Dev) : Dev :=
  { d with fw := { d.fw with cmds := d.fw.cmds ++ [{ c with id := d.fw.nextCmd, after := [] }], nextCmd := d.fw.nextCmd + 1 } }

theorem latch_eq (hrunning : d.running = []) : latch c d = admitAll (latched c d) := by
  unfold latch
  rw [hrunning]
  rfl

/-- While acceptance is held every latched command waits. -/
theorem admitAll_held (hheld : d.acceptHeld = true) : admitAll d = d := by
  refine each_id fun id _ => ?_
  cases hcmd : d.cmd id with
  | none => rfl
  | some x =>
    dsimp only
    rw [if_pos (by simp [Dev.mustWait, hheld])]

theorem latch_held (hrunning : d.running = []) (hheld : d.acceptHeld = true) : latch c d = latched c d := by
  rw [latch_eq hrunning]
  exact admitAll_held hheld

/-- The one command of the unit, latched while acceptance is not held, is judged. -/
theorem admitAll_one (hcmds : d.fw.cmds = [c]) (hstage : c.stage = .running) (hssq : c.ssq = 0) (hafter : c.after = [])
    (hheld : d.acceptHeld = false) : admitAll d = match judge d c with
      | some v => d.endCmd c.id v.1 v.2.1 v.2.2
      | none => if c.opcode = 0x22 && c.work != 2 then d else accept c.id d := by
  have hrunning : d.running = [c] := by simp [Dev.running, hcmds, hstage]
  have hcmd : d.cmd c.id = some c := by simp [Dev.cmd, hcmds]
  have hwait : d.mustWait c = false := by simp [Dev.mustWait, hheld, hafter, Dev.modeChanging, hrunning, hssq]
  have hblocked : d.blocked c = false := by simp [Dev.blocked, hrunning]
  unfold admitAll
  rw [hrunning, List.filter_cons_of_pos (by simp [hssq]), List.filter_nil, List.map_singleton, each_cons, each_nil, hcmd]
  dsimp only
  rw [hstage, hwait, hblocked, if_neg (by simp)] <;> rfl

/-- A command of an unknown opcode is refused by its form (R467). -/
theorem judge_unknown (hmode : d.mode ≠ 7) (hbroken : (d.stream c.stream).broken = none) (hop : opFields c.opcode = none) :
    judge d c = some (3, 1, 0) := by
  have hstate : checkState d c = none := by
    unfold checkState
    rw [if_neg (by simp [hmode]), hbroken]
  have hform : checkForm d c = some (3, 1, 0) := by
    unfold checkForm
    rw [hop]
  unfold judge
  rw [hstate, hform]
  rfl

/-- The 64 bytes of a POLL. -/
def pollBytes : Bytes := takeFill 0#8 64 [4#8]

/-- A POLL passes every check, in every mode and on every stream, where its reply needs no host memory. -/
theorem judge_poll (hbytes : c.bytes = pollBytes) (hraddr : c.raddr = none) : judge d c = none := by
  have hfield : ∀ off n, c.field off n = leNat ((pollBytes.drop off).take n) := fun off n => by rw [Cmd.field, hbytes]
  have hop : c.opcode = 4 := (hfield 0 1).trans (by decide)
  have hlen : c.dlen = 0 := (hfield 8 4).trans (by decide)
  have hstate : checkState d c = none := by
    unfold checkState
    rw [if_neg (by simp [runsFrozen, hop])]
    split
    · exact if_pos (by simp [runsBroken, hop])
    · rfl
  have hreserved : reservedOk c [] = true := by
    unfold reservedOk
    simp only [hfield]
    decide
  have hform : checkForm d c = none := by
    unfold checkForm
    rw [hop, show opFields 4 = some [] from rfl]
    dsimp only
    rw [hreserved, if_neg (by simp), if_neg (by simp [dlenOk, hop, hlen]), if_neg (by simp [hlen, hraddr]),
      if_neg (by simp [Dev.hostParts, hlen]), if_neg (by simp [rangeOk, hop])]
  have hrole : checkRole d c = none := by
    unfold checkRole
    rw [hop]
    exact if_neg (by simp)
  have hepoch : checkEpoch d c = none := if_neg (by simp [hasEpoch, hop])
  have hmode : checkMode d c = none := by
    unfold checkMode
    rw [hop]
    simp [needsDisc, opServe, needsQuiet, mustRecord, hop]
  unfold judge
  rw [hstate, hform, hrole, hepoch, hmode]
  rfl

end

/-! TS_GO (R444, R445, R459). -/

section
variable {d : Dev} {s home : Nat}

/-- The command that a set holds, as TS_GO latches it. -/
def setCmd (s home : Nat) (d : Dev) : Cmd :=
  { stream := s, home := home, bytes := (List.range 16).flatMap fun k => leBytes 4 (d.rd .HP_TS_CMD s k).toNat
    raddr := d.raddr s, vector := d.fg .HP_TS_NOTE_VECTOR s }

/-- The unit whose set `s` is BUSY. -/
def setBusy (s : Nat) (d : Dev) : Dev := d.fs .HP_TS_STATE_BUSY 1 s

theorem setBusy_busy : (setBusy s d).is .HP_TS_STATE_BUSY s = true := is_fs_bit d .HP_TS_STATE_BUSY true s 0 (by decide) rfl

theorem setBusy_fg {x : Fld} (hs : s < 16) (hx : x.reg.blk.code ≠ Block.hp.code) (hoff : x.reg.off < 0x100000) :
    (setBusy s d).fg x = d.fg x :=
  fg_fs_ne _ _ _ _ _ _ _ _ (key_ne_of_block _ _ _ _ _ _ hx.symm (by simp only [Fld.HP_TS_STATE_BUSY, Reg.HP_TS_STATE]; omega) (by omega))

theorem setBusy_held (hs : s < 16) : (setBusy s d).acceptHeld = d.acceptHeld := by
  unfold Dev.acceptHeld Dev.is Dev.mode
  rw [setBusy_fg hs (by decide) (by decide), setBusy_fg hs (by decide) (by decide)]
  rfl

theorem setBusy_page (hs : s < 16) (p scope : Nat) : (setBusy s d).page p scope = d.page p scope := by
  unfold Dev.page Dev.smallBuffer Dev.visibleMiB
  rw [setBusy_fg hs (by decide) (by decide)]
  rfl

theorem tsGo_ignored {poisoned : Bool} (hbusy : d.is .HP_TS_STATE_BUSY s = true) :
    tsGo s home poisoned d = d.fs .HP_TS_STATE_IGNORED 1 s := if_pos hbusy

theorem tsGo_latch (hfree : d.is .HP_TS_STATE_BUSY s = false) (hqueue : (d.fw.cmds.any fun q => q.queue && q.stream == s) = false) :
    tsGo s home false d = latch (setCmd s home d) (setBusy s d) := by
  unfold tsGo
  rw [if_neg (by simp [hfree])]
  dsimp only
  rw [if_neg (by rw [fs_fw, hqueue]; simp), if_neg (by simp)]
  rfl

/-- The bytes of a set all of whose dwords but the first are zero. -/
theorem setCmd_bytes {x : DWord} (h : ∀ k : Fin 16, d.rd .HP_TS_CMD s k = if k.val = 0 then x else 0#32) :
    (setCmd s home d).bytes = leBytes 4 x.toNat ++ List.replicate 60 0#8 := by
  have hdwords : ∀ k ∈ List.range 16, leBytes 4 (d.rd .HP_TS_CMD s k).toNat = leBytes 4 (if k = 0 then x else 0#32).toNat :=
    fun k hk => by rw [h ⟨k, List.mem_range.mp hk⟩]
  have hall : (setCmd s home d).bytes = (List.range 16).flatMap fun k => leBytes 4 (if k = 0 then x else 0#32).toNat := by
    unfold setCmd
    rw [List.flatMap_def, List.flatMap_def, List.map_congr_left hdwords]
  rw [hall, List.range_succ_eq_map, List.flatMap_cons, if_pos rfl, List.flatMap_map]
  simp only [Nat.succ_ne_zero, if_false]
  rfl

theorem setCmd_poll (h : ∀ k : Fin 16, d.rd .HP_TS_CMD s k = if k.val = 0 then 4#32 else 0#32) : (setCmd s home d).bytes = pollBytes := by
  rw [setCmd_bytes h]
  decide

/-- A set that holds a POLL without a reply address. -/
theorem setCmd_poll_eq (hraddr : d.is .HP_TS_RADDR_LO_EN s = false)
    (h : ∀ k : Fin 16, d.rd .HP_TS_CMD s k = if k.val = 0 then 4#32 else 0#32) :
    setCmd s home d = { stream := s, home := home, vector := d.fg .HP_TS_NOTE_VECTOR s, bytes := pollBytes } := by
  have hbytes := setCmd_poll (home := home) h
  unfold setCmd at hbytes ⊢
  dsimp only at hbytes
  rw [hbytes, Dev.raddr, if_neg (by simp [hraddr])]

theorem setCmd_unknown {op : Fin 256} (h : ∀ k : Fin 16, d.rd .HP_TS_CMD s k = if k.val = 0 then BitVec.ofNat 32 op else 0#32) :
    (setCmd s home d).opcode = op := by
  have hop : (setCmd s home d).opcode = leNat (leBytes 1 (BitVec.ofNat 32 op.val).toNat) := by
    rw [Cmd.opcode, Cmd.field, setCmd_bytes h]
    rfl
  rw [hop, leNat_leBytes]
  simp

/-- A unit with no other command whose set `s` latches one of its commands judges it at once. -/
theorem tsGo_alone (hs : s < 16) (hfree : d.is .HP_TS_STATE_BUSY s = false) (hheld : d.acceptHeld = false) (hcmds : d.fw.cmds = [])
    {c : Cmd} (hc : c = { setCmd s home d with id := d.fw.nextCmd, after := [] }) {e : Dev}
    (he : e = { setBusy s d with fw := { d.fw with cmds := [c], nextCmd := d.fw.nextCmd + 1 } }) :
    tsGo s home false d = match judge e c with
      | some v => e.endCmd c.id v.1 v.2.1 v.2.2
      | none => if c.opcode = 0x22 && c.work != 2 then e else accept c.id e := by
  have hlatched : latched (setCmd s home d) (setBusy s d) = e := by
    rw [he, hc, latched, setBusy, fs_fw, hcmds, List.nil_append]
  rw [tsGo_latch hfree (by simp [hcmds]), latch_eq (by simp [Dev.running, setBusy, hcmds]), hlatched]
  exact admitAll_one (by rw [he]) (by rw [hc]; rfl) (by rw [hc]; rfl) (by rw [hc])
    (by rw [he]; exact (setBusy_held hs).trans hheld)

/-- The unit whose one command has ended. -/
def endedAlone (c : Cmd) (cls detail : Nat) (d : Dev) : Dev :=
  { d with fw := { d.fw with cmds := [{ c with stage := .ended, cls := cls, detail := detail, r0 := 0, r1 := 0 }], ended := d.fw.ended ++ [c.id] } }

theorem endCmd_alone {c : Cmd} {cls detail : Nat} (hcmds : d.fw.cmds = [c]) (hstage : c.stage = .running) :
    d.endCmd c.id cls detail = endedAlone c cls detail d := by
  unfold Dev.endCmd Dev.onCmd Dev.onFw endedAlone
  simp [Dev.cmd, hcmds, hstage]

/-- The unit that has accepted its one command. -/
def acceptedPoll (c : Cmd) (d : Dev) : Dev :=
  { d with fw := { d.fw with
    streams := sparseSet {} d.fw.streams c.stream { d.stream c.stream with ssq := ssqNext (d.stream c.stream).ssq }
    cmds := [{ c with ssq := (d.stream c.stream).ssq, maxRung := d.pageVal 1 c.stream 12 1, accepted := d.qtime,
                      limitMs := d.pageVal 1 c.stream 8 4 }] } }

theorem accept_poll {c : Cmd} (hcmds : d.fw.cmds = [c]) (hop : c.opcode = 4) : accept c.id d = acceptedPoll c d := by
  have hcmd : d.cmd c.id = some c := by simp [Dev.cmd, hcmds]
  unfold accept
  rw [hcmd]
  dsimp only
  rw [hop]
  unfold Dev.onStream Dev.onCmd Dev.onFw acceptedPoll
  simp [hcmds]
  exact ⟨rfl, rfl⟩

end

/-! The reply of a set's command in host memory (R446). -/

section
variable {d : Dev} {c : Cmd} {s a : Nat}

theorem tsReplyPost_plain {begun : Bool} (hended : d.tsEnded s = some c) (hop : c.opcode ≠ 8) (hpage : c.page = none) {r : Dev}
    (hpost : tsPost s c d = withoutCmd c.id r) (hlink : r.link.op = none) (harrive : r.link.arrive = none) (hrestart : r.aon.restart = false) :
    tsReplyPost s begun d = withoutCmd c.id r := by
  have hforce : pageInForce c (withoutCmd c.id r) = withoutCmd c.id r := pageInForce_none hpage
  unfold tsReplyPost
  rw [hended]
  dsimp only
  rw [hpost, afterReply_idle (d := withoutCmd c.id r) hop hlink harrive (by rw [hforce]; exact hlink) (by rw [hforce]; exact hrestart), hforce]

/-- What the unit without its replied command keeps of the unit before it, its registers and host memory as the reply left them. -/
theorem withoutCmd_changes {keys : List Nat} {m : List Host.Cell} {r : Dev}
    (h : Changes keys { d.sends 0 with hostMem := m } r { d.sends 0 with hostMem := m }) :
    Changes keys d (withoutCmd c.id r) { d with
      fw := { d.fw with cmds := [], ended := d.fw.ended.filter (· != c.id),
                        versions := d.fw.versions.filter fun v => v.stage != .mapped && v.stage != .gone }
      hostMem := (withoutCmd c.id r).hostMem, host := { d.host with sent := 0 }
      link := { d.link with barrier := d.link.barrier.filter (· != c.id) } } := by
  obtain ⟨hkept, hregs⟩ := h
  refine ⟨hkept, ?_⟩
  rw [hregs]
  rfl

end

/-- Settles O31: a set's command is latched, waits while acceptance is held and is else judged at once; its reply is shown in the set's
registers (`replyShown`) and its bytes put into host memory. -/
theorem taskSets : Obligations.TaskSets := by
  unfold Obligations.TaskSets
  refine ⟨fun stream home poisoned s hbusy => ?_, fun stream home s ⟨hfree, hheld⟩ ⟨hrunning, hqueue⟩ => ?_,
    fun stream home s ⟨hfree, hheld, hcmds⟩ hraddr hdwords => ?_,
    fun stream home op s ⟨hfree, hheld, hcmds⟩ ⟨hmode, hbroken, hop⟩ hdwords => ?_,
    fun stream home s ⟨hfree, hcmds⟩ => ?_,
    fun stream begun c a s ⟨hcmds, hstage, hqueue, hstream⟩ ⟨hraddr, hnote, horphan, hop, hpage⟩ ⟨hhome, hmaster⟩
      ⟨hrestart, hlink, harrive⟩ => ?_,
    fun stream begun s hnone => ?_⟩
  · exact becomes_of_eq (f := tsGo stream home poisoned) rfl (tsGo_ignored hbusy)
  · refine becomes_of_eq (f := tsGo stream home false) rfl ?_
    rw [tsGo_latch hfree hqueue, latch_held (d := setBusy stream s.dev) hrunning ((setBusy_held stream.isLt).trans hheld)]
    rfl
  · obtain ⟨c, hc⟩ : ∃ c : Cmd, c =
      { id := s.dev.fw.nextCmd, stream := stream, home := home, vector := s.dev.fg .HP_TS_NOTE_VECTOR stream, bytes := pollBytes } :=
      ⟨_, rfl⟩
    obtain ⟨e, he⟩ : ∃ e, e = { setBusy stream s.dev with fw := { s.dev.fw with cmds := [c], nextCmd := s.dev.fw.nextCmd + 1 } } := ⟨_, rfl⟩
    have hop : c.opcode = 4 := (congrArg (fun x : Cmd => leNat ((x.bytes.drop 0).take 1)) hc).trans (show leNat ((pollBytes.drop 0).take 1) = 4 by decide)
    have hgo : tsGo stream home false s.dev = acceptedPoll c e := by
      rw [tsGo_alone stream.isLt hfree hheld hcmds (by rw [hc, setCmd_poll_eq hraddr hdwords]) he, judge_poll (by rw [hc]) (by rw [hc])]
      dsimp only
      rw [if_neg (by simp [hop]), accept_poll (by rw [he]) hop]
    have hstream : e.stream c.stream = s.dev.stream stream := by rw [he, hc]; rfl
    have hpage : ∀ off n, e.pageVal 1 c.stream off n = s.dev.pageVal 1 stream off n := fun off n =>
      congrArg (fun p => getField p off n) (by rw [he, hc]; exact setBusy_page stream.isLt 1 stream)
    have hnew : (acceptedPoll c e).stream stream = { s.dev.stream stream with ssq := ssqNext (s.dev.stream stream).ssq } := by
      rw [← hstream, (by rw [hc] : (stream : Nat) = c.stream)]
      exact sparseGet_set_self _ _ _ _
    refine gives_of_eq (f := tsGo stream home false) rfl hgo ⟨by rw [he]; exact setBusy_busy, by rw [hnew], ?_, ?_⟩
    · unfold acceptedPoll
      rw [hstream, hpage, hpage, hc, he]
      rfl
    · unfold acceptedPoll
      rw [he]
      exact ⟨fun k hk => regsKept_wr _ _ _ _ _ k hk, rfl⟩
  · obtain ⟨c, hc⟩ : ∃ c : Cmd, c = { setCmd stream home s.dev with id := s.dev.fw.nextCmd, after := [] } := ⟨_, rfl⟩
    obtain ⟨e, he⟩ : ∃ e, e = { setBusy stream s.dev with fw := { s.dev.fw with cmds := [c], nextCmd := s.dev.fw.nextCmd + 1 } } := ⟨_, rfl⟩
    have hcop : c.opcode = op := by rw [hc]; exact setCmd_unknown (home := home) hdwords
    have hmode' : e.mode ≠ 7 := by rw [he]; exact (setBusy_fg stream.isLt (by decide) (by decide)).trans_ne hmode
    have hgo : tsGo stream home false s.dev = endedAlone c 3 1 e := by
      rw [tsGo_alone stream.isLt hfree hheld hcmds hc he, judge_unknown hmode' (by rw [he, hc]; exact hbroken) (by rw [hcop]; exact hop)]
      exact endCmd_alone (by rw [he]) (by rw [hc]; rfl)
    refine gives_of_eq (f := tsGo stream home false) rfl hgo ⟨by rw [he]; exact setBusy_busy, ?_, ?_, ?_⟩
    · rw [endedAlone, hc]
      rfl
    · rw [endedAlone, hc, he]
    · rw [he]
      exact ⟨fun k hk => regsKept_wr _ _ _ _ _ k hk, rfl⟩
  · obtain ⟨e, he⟩ : ∃ e, e = (setBusy stream s.dev).cond ((setBusy stream s.dev).homeHere (setCmd stream home s.dev))
        fun d => (d.fs .HP_HC_STAT_DMA_ERR 1).bump .HP_HC_CNT_DMAERR := ⟨_, rfl⟩
    obtain ⟨hfw, hbusy⟩ : e.fw = s.dev.fw ∧ e.is .HP_TS_STATE_BUSY stream = true := by
      rw [he]
      cases (setBusy stream s.dev).homeHere (setCmd stream home s.dev)
      · exact ⟨rfl, setBusy_busy⟩
      · have hapart : ∀ r : Reg, r.blk.code = Block.hc.code → r.off < 0x100000 → r.key 0 0 ≠ Fld.HP_TS_STATE_BUSY.reg.key stream 0 :=
          fun r hr hoff => key_ne_of_block _ _ _ _ _ _ (by rw [hr]; decide) (by omega)
            (by simp only [Fld.HP_TS_STATE_BUSY, Reg.HP_TS_STATE]; omega)
        refine ⟨rfl, Eq.trans (congrArg (· == 1) ?_) (setBusy_busy (d := s.dev) (s := stream))⟩
        rw [Laws.cond_true, Dev.bump, fg_wr_ne _ _ (hapart .HP_HC_CNT_DMAERR rfl (by decide)), fg_fs_ne _ .HP_HC_STAT_DMA_ERR .HP_TS_STATE_BUSY 1 0 0 stream 0 (hapart Reg.HP_HC_STAT rfl (by decide))]
    obtain ⟨c, hc⟩ : ∃ c : Cmd, c = { setCmd stream home s.dev with id := s.dev.fw.nextCmd } := ⟨_, rfl⟩
    have hgo : tsGo stream home true s.dev = latchEnded (setCmd stream home s.dev) 6 7 e := by
      unfold tsGo
      rw [if_neg (by simp [hfree])]
      dsimp only
      rw [if_neg (by simp [hcmds]), if_pos rfl, he]
      rfl
    have hlatched : latchEnded (setCmd stream home s.dev) 6 7 e =
        endedAlone c 6 7 { e with fw := { e.fw with cmds := [c], nextCmd := e.fw.nextCmd + 1 } } := by
      unfold latchEnded Dev.onFw
      dsimp only
      rw [hfw, hcmds, List.nil_append, ← hc, ← endCmd_alone rfl (by rw [hc]; rfl), hc]
    refine gives_of_eq (f := tsGo stream home true) rfl (hgo.trans hlatched) ⟨hbusy, ?_, ?_⟩
    · rw [endedAlone, hc]
      rfl
    · rw [endedAlone, hc, hfw]
  · obtain ⟨b, hb⟩ : ∃ b, b = replyBytes c ((s.dev.fg .HP_TS_STATE_RSEQ stream + 1) % 2 ^ 16) s.dev := ⟨_, rfl⟩
    obtain ⟨e, he⟩ : ∃ e, e = replyToHost a b s.dev := ⟨_, rfl⟩
    obtain ⟨r, hr⟩ : ∃ r, r = replyShown stream ((s.dev.fg .HP_TS_STATE_RSEQ stream + 1) % 2 ^ 16) b e := ⟨_, rfl⟩
    have hlen : b.length = 32 := by rw [hb]; exact replyBytes_length _ _ _
    have hmem : e = { s.dev.sends 0 with hostMem := memWrite (memWrite s.dev.hostMem (a + 4) (b.drop 4)) a (b.take 4) } := he
    have hregs : r = { e with regs := r.regs } := by rw [hr]; exact replyShown_regs
    have hpost : tsPost stream c s.dev = withoutCmd c.id r := by
      rw [hr, hb]
      exact tsPost_alone (by rw [hraddr, ← hb, he]; exact replyOut_some hhome horphan hnote hmaster) (by rw [hmem]; exact hcmds)
    have hgo : tsReplyPost stream begun s.dev = withoutCmd c.id r :=
      tsReplyPost_plain (tsEnded_alone hcmds hstage hqueue hstream) hop hpage hpost (by rw [hregs, hmem]; exact hlink)
        (by rw [hregs, hmem]; exact harrive) (by rw [hregs, hmem]; exact hrestart)
    have hchanged : Changes (replyKeys stream) e r e := by rw [hr]; exact replyShown_changes changes_refl
    obtain ⟨hvalid, hbusy, hrseq⟩ := replyShown_state (s := stream) (b := b) (d := e) (rseq := (s.dev.fg .HP_TS_STATE_RSEQ stream + 1) % 2 ^ 16)
      (Nat.mod_lt _ (by decide))
    have hhost : r.hostMem = memWrite (memWrite s.dev.hostMem (a + 4) (b.drop 4)) a (b.take 4) := by rw [hregs, hmem]
    have hdwords : ∀ k : Fin 8, r.rd .HP_TS_REPLY stream k = BitVec.ofNat 32 (leNat ((b.drop (4 * k)).take 4)) := fun k => by
      rw [hr]
      exact replyShown_dword k.isLt
    rw [← hr] at hvalid hbusy hrseq
    refine gives_of_eq (f := tsReplyPost stream begun) rfl hgo ⟨hvalid, hbusy, hrseq, ?_, ?_, fun x hx => ?_, rfl, ?_⟩
    · rw [← hb, ← memRead_reply s.dev.hostMem a hlen, ← hhost]
      rfl
    · rw [← hb]
      exact hdwords
    · rw [← memRead_reply_outside s.dev.hostMem hlen hx, ← hhost]
      rfl
    · rw [hmem] at hchanged
      exact withoutCmd_changes hchanged
  · refine becomes_of_eq (f := tsReplyPost stream begun) rfl ?_
    unfold tsReplyPost
    rw [hnone]

end Sys2Proof.Proofs
end

section
/-!
SUPPORT. The tag queue and notices (14_host_port.md R449 to R453, R460): the obligation.
-/

namespace Sys2Proof.Proofs

open Sys2Proof Sys2Proof.Machine Sys2Proof.Laws

/-! The queue (R449 to R452). -/

section
variable {d : Dev}

theorem queueEnable_off {home : Nat} {val : DWord} (hval : val.getLsbD 0 = true) (hoff : d.is .HP_Q_CTL_EN = false) :
    queueEnable home val d = (((((((d.fs .HP_Q_CTL_VECTOR (bitsOf val.toNat 8 5)).fs .HP_Q_CTL_EN 1).fs .HP_Q_CTL_HOME home).fs
      .HP_Q_STAT_SQ_HEAD 0).fs .HP_Q_STAT_CQ_TAIL 0).fs .HP_Q_RSEQ_NEXT 1).fs .HP_Q_SQ_TAIL 0) := by
  unfold queueEnable
  rw [if_neg (by simp [hval])]
  dsimp only
  rw [if_neg (by simp [hoff])]

theorem queueEnable_on {home : Nat} {val : DWord} (hval : val.getLsbD 0 = true) (hon : d.is .HP_Q_CTL_EN = true) :
    queueEnable home val d = d.fs .HP_Q_CTL_VECTOR (bitsOf val.toNat 8 5) := by
  unfold queueEnable
  rw [if_neg (by simp [hval])]
  dsimp only
  rw [if_pos hon]

theorem queueDrain_off (hoff : d.is .HP_Q_CTL_EN = false) : queueDrain d = d := if_pos (by simp [hoff])

theorem queueDrain_idle (hon : d.is .HP_Q_CTL_EN = true) (hidle : d.queueBusy = false) :
    queueDrain d = (d.fs .HP_Q_CTL_DRAINING 0).fs .HP_Q_CTL_EN 0 := by
  unfold queueDrain
  rw [if_neg (by simp [hon]), if_neg (by simp [hidle])]

theorem queueDrain_busy (hon : d.is .HP_Q_CTL_EN = true) (hbusy : d.queueBusy = true) :
    queueDrain d = d.fs .HP_Q_CTL_DRAINING 1 := by
  unfold queueDrain
  rw [if_neg (by simp [hon]), if_pos hbusy]

theorem doorbell_closed {t : Nat} (h : d.is .HP_Q_CTL_EN = false ∨ d.is .HP_Q_CTL_DRAINING = true) : doorbell t d = d := by
  refine if_pos ?_
  obtain h | h := h <;> simp [h]

theorem doorbell_open {t : Nat} (hon : d.is .HP_Q_CTL_EN = true) (hdraining : d.is .HP_Q_CTL_DRAINING = false) : doorbell t d =
    if 32 < (t + 64 - d.fg .HP_Q_STAT_SQ_HEAD) % 64 then d.fs .HP_Q_STAT_DB_ERR 1 else
      (d.fs .HP_Q_SQ_TAIL t).cond (!d.homeHere { home := d.fg .HP_Q_CTL_HOME }) (askHost 0 (d.fg .HP_Q_CTL_HOME) false
        ((List.range ((t + 64 - d.fg .HP_Q_SQ_TAIL) % 64)).map fun i => (d.sqBase + 64 * ((d.fg .HP_Q_SQ_TAIL + i) % 32), 64))) := by
  unfold doorbell
  rw [if_neg (by simp [hon, hdraining])]

/-- The command of the submission entry at SQ_HEAD. -/
def entryCmd (d : Dev) (bytes : Bytes) : Cmd :=
  { queue := true, home := d.fg .HP_Q_CTL_HOME, tag := d.fg .HP_Q_STAT_SQ_HEAD % 32, bytes := bytes
    stream := leNat ((bytes.drop 4).take 1) % 16, raddr := some d.cqBase }

/-- The unit that has fetched the entry at SQ_HEAD. -/
def entryTaken (c : Cmd) (d : Dev) : Dev :=
  (d.cond (d.homeHere c) fun d => d.sends 0).fs .HP_Q_STAT_SQ_HEAD ((d.fg .HP_Q_STAT_SQ_HEAD + 1) % 64)

theorem entryTaken_eq (c : Cmd) (d : Dev) : entryTaken c d = { d.fs .HP_Q_STAT_SQ_HEAD ((d.fg .HP_Q_STAT_SQ_HEAD + 1) % 64) with
    host := if d.homeHere c then { d.host with sent := 0 } else d.host } := by
  unfold entryTaken
  cases d.homeHere c <;> rfl

theorem entryTaken_fg {c : Cmd} {x : Fld} {k : Nat} (h : Reg.HP_Q_STAT.key 0 0 ≠ x.reg.key k 0) : (entryTaken c d).fg x k = d.fg x k := by
  rw [entryTaken_eq]
  exact fg_fs_ne d _ _ _ 0 0 k 0 h

theorem entryTaken_is {c : Cmd} {x : Fld} {k : Nat} (h : Reg.HP_Q_STAT.key 0 0 ≠ x.reg.key k 0) : (entryTaken c d).is x k = d.is x k :=
  congrArg (· == 1) (entryTaken_fg h)

theorem entryTaken_held (c : Cmd) (d : Dev) : (entryTaken c d).acceptHeld = d.acceptHeld := by
  unfold Dev.acceptHeld Dev.mode
  rw [entryTaken_fg (x := .PMU_STAT_MODE) (by decide), entryTaken_is (x := .QL_STAT_HOLD) (by decide), entryTaken_eq]
  rfl

theorem queueEntryFetch_latch {bytes : Bytes} (hopen : d.is .HP_Q_CTL_EN = true ∧ d.is .HP_Q_CTL_DRAINING = false)
    (hentry : d.fg .HP_Q_STAT_SQ_HEAD ≠ d.fg .HP_Q_SQ_TAIL) (hmaster : d.busMaster = true) (hfetch : d.link.fetch = [])
    (hbytes : bytes = memRead d.hostMem (d.sqBase + 64 * (d.fg .HP_Q_STAT_SQ_HEAD % 32)) 64)
    (hfree : (entryTaken (entryCmd d bytes) d).is .HP_TS_STATE_BUSY (leNat ((bytes.drop 4).take 1) % 16) = false) :
    queueEntryFetch d = latch (entryCmd d bytes) (entryTaken (entryCmd d bytes) d) := by
  obtain ⟨hon, hdraining⟩ := hopen
  have hmay : (d.is .HP_Q_CTL_EN && !d.is .HP_Q_CTL_DRAINING && d.fg .HP_Q_STAT_SQ_HEAD != d.fg .HP_Q_SQ_TAIL && d.hostOn (entryCmd d bytes)
      && !d.link.fetch.any fun e => e.2.2.2 == 0 && e.2.1 == d.sqBase + 64 * (d.fg .HP_Q_STAT_SQ_HEAD % 32)) = true := by
    simp [hon, hdraining, hentry, hmaster, hfetch, Dev.hostOn]
  unfold queueEntryFetch
  dsimp only [Cmd.field]
  rw [← hbytes, if_neg (by rw [Bool.not_eq_true']; exact ne_of_eq_of_ne hmay (by decide))]
  exact if_neg (by simpa [entryCmd, entryTaken] using hfree)

end

/-! A reply through the queue (R451). -/

section
variable {d : Dev} {c : Cmd} {a : Nat}

/-- The unit that has put a reply into its completion slot: the next slot and the next number. -/
def slotTaken (d : Dev) (e : Dev) : Dev :=
  (e.fs .HP_Q_STAT_CQ_TAIL ((d.fg .HP_Q_STAT_CQ_TAIL + 1) % 64)).fs .HP_Q_RSEQ_NEXT ((d.fg .HP_Q_RSEQ_NEXT + 1) % 2 ^ 16)

theorem slotTaken_regs (d e : Dev) : slotTaken d e = { e with regs := (slotTaken d e).regs } := rfl

theorem slotTaken_fields (d e : Dev) : (slotTaken d e).fg .HP_Q_STAT_CQ_TAIL = (d.fg .HP_Q_STAT_CQ_TAIL + 1) % 64 ∧
    (slotTaken d e).fg .HP_Q_RSEQ_NEXT = (d.fg .HP_Q_RSEQ_NEXT + 1) % 2 ^ 16 := by
  refine ⟨?_, fg_fs_of_lt _ 0 (by decide) (Nat.mod_lt _ (by decide))⟩
  rw [slotTaken, fg_fs_single _ _ (by decide)]
  exact fg_fs_of_lt _ 0 (by decide) (Nat.mod_lt _ (by decide))

theorem queueEnded_alone (hcmds : d.fw.cmds = [c]) (hended : d.fw.ended = [c.id]) (hqueue : c.queue = true) : d.queueEnded = some c := by
  simp [Dev.queueEnded, Dev.cmd, hcmds, hended, hqueue]

theorem queuePost_alone {e : Dev} (hfree : (d.homeHere c && !c.orphan && !d.busMaster) = false)
    (hout : replyOut c (some (d.cqBase + 32 * (d.fg .HP_Q_STAT_CQ_TAIL % 32))) (d.fg .HP_Q_CTL_VECTOR)
      (replyBytes c (d.fg .HP_Q_RSEQ_NEXT) d) d = e) (hcmds : e.fw.cmds = [c])
    (hdraining : e.is .HP_Q_CTL_DRAINING = false) : queuePost c d = withoutCmd c.id (slotTaken d e) := by
  have hgone : replied c.id (slotTaken d e) = withoutCmd c.id (slotTaken d e) := replied_alone (by rw [slotTaken_regs]; exact hcmds)
  have hkept : (withoutCmd c.id (slotTaken d e)).is .HP_Q_CTL_DRAINING = false :=
    ((is_fs_single _ _ (by decide)).trans (is_fs_single e _ (by decide))).trans hdraining
  unfold queuePost
  rw [hfree, if_neg (by decide)]
  dsimp only
  rw [hout]
  change (replied c.id (slotTaken d e)).cond ((replied c.id (slotTaken d e)).is .HP_Q_CTL_DRAINING) queueDrain = _
  rw [hgone, hkept]
  rfl

end

/-! Notices (R453). -/

section
variable {d : Dev} {v : Nat}

/-- The unit with a vector's mask bit cleared. -/
def unmasked (v : Nat) (d : Dev) : Dev := d.wr .HP_MSIX (BitVec.ofNat 32 (putBits (d.rd .HP_MSIX v 3).toNat 0 1 0)) v 3

theorem key_pba_ne_msix (k j : Nat) (hk : k < 32) (hj : j < 4) : Reg.HP_PBA.key 0 0 ≠ Reg.HP_MSIX.key k j := by
  simp only [Reg.key, Reg.HP_PBA, Reg.HP_MSIX]
  omega

theorem unmasked_pend (hv : v < 32) : (unmasked v d).fg .HP_PBA_PEND = d.fg .HP_PBA_PEND :=
  fg_wr_ne d _ (key_pba_ne_msix v 3 hv (by decide)).symm

theorem unmasked_mask : ((unmasked v d).rd .HP_MSIX v 3).getLsbD 0 = false := by
  rw [unmasked, rd_wr, BitVec.getLsbD_ofNat, testBit_putBits]
  simp

/-- Pending bits that are all 0 send nothing. -/
theorem noticePending_none (h : d.fg .HP_PBA_PEND = 0) : noticePending d = d := by
  unfold noticePending
  split
  · rfl
  · refine each_id fun k _ => ?_
    simp [h, Laws.cond_false]

/-- The message of the one pending vector, sent once. -/
theorem noticePending_one (hv : v < 32) (hon : d.msixEnabled = true ∧ d.busMaster = true ∧ d.msixMasked = false)
    (hpend : d.fg .HP_PBA_PEND = 2 ^ v) (hmask : (d.rd .HP_MSIX v 3).getLsbD 0 = false) :
    noticePending d = msixSend v (d.fs .HP_PBA_PEND 0) := by
  obtain ⟨henabled, hmaster, hunmasked⟩ := hon
  obtain ⟨before, after, hrange⟩ := List.append_of_mem (List.mem_range.mpr hv)
  have hnodup : (before ++ v :: after).Nodup := hrange ▸ List.nodup_range
  have hbefore : ∀ k ∈ before, k ≠ v := fun k hk hkv => by
    subst hkv
    exact (List.nodup_append.mp hnodup).2.2 k hk k List.mem_cons_self rfl
  have hsent : (msixSend v (d.fs .HP_PBA_PEND 0)).fg .HP_PBA_PEND = 0 := fg_fs_of_lt d 0 (by decide) (by decide)
  unfold noticePending
  rw [if_neg (by simp [henabled, hmaster, hunmasked]), hrange, each_append, each_cons]
  rw [each_id (l := before) fun k hk => ?_]
  · dsimp only
    rw [hpend, hmask, Nat.testBit_two_pow_self, Bool.not_false, Bool.true_and, Laws.cond_true, hpend, Nat.xor_self]
    refine each_id fun k _ => ?_
    rw [hsent, Nat.zero_testBit]
    rfl
  · dsimp only
    rw [hpend, Nat.testBit_two_pow_of_ne (hbefore k hk).symm]
    rfl

end

/-- Settles O32: each row's one condition is read off the queue's registers; a reply leaves as `replied_alone` says, and of the pending
vectors the unmasked one alone is due. -/
theorem tagQueue : Obligations.TagQueue := by
  unfold Obligations.TagQueue
  refine ⟨fun home val s ⟨hval, hoff⟩ => ?_, fun home val s ⟨hval, hon⟩ => ?_, fun val s ⟨hval, hidle, hon⟩ => ?_,
    fun val s ⟨hval, hbusy, hon⟩ => ?_, fun tail s ⟨hon, hdraining⟩ hroom hhome => ?_, fun tail s ⟨hon, hdraining⟩ hmany => ?_,
    fun tail s hclosed => ?_, fun bytes s hopen ⟨hentry, hmaster, hfetch⟩ hbytes ⟨hfree, hheld, hrunning⟩ => ?_, fun s hempty => ?_,
    fun begun c a s ⟨hcmds, hended, hstage, hqueue⟩ ⟨hnote, horphan, hop, hpage, hhome, hmaster⟩ ha
      ⟨hrestart, hlink, harrive, hdraining⟩ => ?_,
    fun begun c s ⟨hended, hhome, horphan, hmaster⟩ => ?_, fun v s hon hpend => ?_, fun v s hpend => ?_⟩
  · have hhome : (home : Nat) < 2 ^ Fld.HP_Q_CTL_HOME.width := home.isLt
    have hvector : bitsOf val.toNat 8 5 < 2 ^ Fld.HP_Q_CTL_VECTOR.width := bitsOf_lt _ _ _
    refine gives_of_eq (f := queueEnable home val) rfl (queueEnable_off hval hoff) ⟨?_, ?_, ?_, ?_, ?_, ?_, ?_, ?_⟩
    · rw [is_fs_single _ _ (by decide), is_fs_single _ _ (by decide), is_fs_single _ _ (by decide), is_fs_single _ _ (by decide),
        is_fs_single _ _ (by decide)]
      exact is_fs_one _ (by decide) (by decide)
    · rw [fg_fs_single _ _ (by decide), fg_fs_single _ _ (by decide), fg_fs_single _ _ (by decide), fg_fs_single _ _ (by decide)]
      exact fg_fs_of_lt _ 0 (by decide) hhome
    · rw [fg_fs_single _ _ (by decide), fg_fs_single _ _ (by decide), fg_fs_single _ _ (by decide), fg_fs_single _ _ (by decide),
        fg_fs_single _ _ (by decide), fg_fs_single _ _ (by decide)]
      exact fg_fs_of_lt _ 0 (by decide) hvector
    · rw [fg_fs_single _ _ (by decide), fg_fs_single _ _ (by decide), fg_fs_single _ _ (by decide)]
      exact fg_fs_of_lt _ 0 (by decide) (by decide)
    · rw [fg_fs_single _ _ (by decide), fg_fs_single _ _ (by decide)]
      exact fg_fs_of_lt _ 0 (by decide) (by decide)
    · rw [fg_fs_single _ _ (by decide)]
      exact fg_fs_of_lt _ 0 (by decide) (by decide)
    · exact fg_fs_of_lt _ 0 (by decide) (by decide)
    · exact changes_fs (changes_fs (changes_fs (changes_fs (changes_fs (changes_fs (changes_fs changes_refl))))))
  · exact becomes_of_eq (f := queueEnable home val) rfl (queueEnable_on hval hon)
  · have hgo : queueDisable val s.dev = ((s.dev.fs .HP_Q_CTL_VECTOR (bitsOf val.toNat 8 5)).fs .HP_Q_CTL_DRAINING 0).fs .HP_Q_CTL_EN 0 :=
      (if_neg (by rw [hval]; decide)).trans (queueDrain_idle ((is_fs_single _ _ (by decide)).trans hon) hidle)
    refine gives_of_eq (f := queueDisable val) rfl hgo ⟨is_fs_bit _ .HP_Q_CTL_EN false 0 0 (by decide) rfl, ?_, ?_, ?_⟩
    · rw [is_fs_single _ _ (by decide)]
      exact is_fs_bit _ .HP_Q_CTL_DRAINING false 0 0 (by decide) rfl
    · rw [fg_fs_single _ _ (by decide), fg_fs_single _ _ (by decide), fg_fs_single _ _ (by decide)]
    · exact changes_fs (changes_fs (changes_fs changes_refl))
  · have hon' : (s.dev.fs .HP_Q_CTL_VECTOR (bitsOf val.toNat 8 5)).is .HP_Q_CTL_EN = true := (is_fs_single _ _ (by decide)).trans hon
    have hgo : queueDisable val s.dev = (s.dev.fs .HP_Q_CTL_VECTOR (bitsOf val.toNat 8 5)).fs .HP_Q_CTL_DRAINING 1 :=
      (if_neg (by rw [hval]; decide)).trans (queueDrain_busy hon' hbusy)
    refine gives_of_eq (f := queueDisable val) rfl hgo ⟨?_, is_fs_one _ (by decide) rfl, changes_fs (changes_fs changes_refl)⟩
    rw [is_fs_single _ _ (by decide)]
    exact hon'
  · refine becomes_of_eq (f := doorbell tail) rfl ?_
    rw [doorbell_open hon hdraining, if_neg (by omega), hhome]
    rfl
  · refine becomes_of_eq (f := doorbell tail) rfl ?_
    rw [doorbell_open hon hdraining, if_pos hmany]
  · exact becomes_of_eq (f := doorbell tail) rfl (doorbell_closed hclosed)
  · have hstream : leNat ((bytes.drop 4).take 1) % 16 < 16 := Nat.mod_lt _ (by decide)
    have hapart : Reg.HP_Q_STAT.key 0 0 ≠ Reg.HP_TS_STATE.key (leNat ((bytes.drop 4).take 1) % 16) 0 := by
      simp only [Reg.key, Reg.HP_Q_STAT, Reg.HP_TS_STATE]
      omega
    have hgo : queueEntryFetch s.dev = latched (entryCmd s.dev bytes) (entryTaken (entryCmd s.dev bytes) s.dev) := by
      rw [queueEntryFetch_latch hopen hentry hmaster hfetch hbytes ((entryTaken_is (x := .HP_TS_STATE_BUSY) hapart).trans hfree)]
      refine latch_held ?_ ((entryTaken_held _ _).trans hheld)
      rw [entryTaken_eq]
      exact hrunning
    refine becomes_of_eq (f := queueEntryFetch) rfl (hgo.trans ?_)
    rw [entryTaken_eq]
    rfl
  · refine becomes_of_eq (f := queueEntryFetch) rfl ?_
    unfold queueEntryFetch
    exact if_pos (by simp [hempty])
  · obtain ⟨b, hb⟩ : ∃ b, b = replyBytes c (s.dev.fg .HP_Q_RSEQ_NEXT) s.dev := ⟨_, rfl⟩
    obtain ⟨e, he⟩ : ∃ e, e = replyToHost a b s.dev := ⟨_, rfl⟩
    obtain ⟨r, hr⟩ : ∃ r, r = slotTaken s.dev e := ⟨_, rfl⟩
    have hlen : b.length = 32 := by rw [hb]; exact replyBytes_length _ _ _
    have hmem : e = { s.dev.sends 0 with hostMem := memWrite (memWrite s.dev.hostMem (a + 4) (b.drop 4)) a (b.take 4) } := he
    have hregs : r = { e with regs := r.regs } := by rw [hr]; rfl
    have hpost : queuePost c s.dev = withoutCmd c.id r := by
      rw [hr]
      refine queuePost_alone (by simp [hmaster]) ?_ (by rw [hmem]; exact hcmds) (by rw [hmem]; exact hdraining)
      rw [← ha, ← hb, he]
      exact replyOut_some hhome horphan hnote hmaster
    have hgone : ((withoutCmd c.id r).cmd c.id).isSome = false := rfl
    have hgo : queueReplyPost begun s.dev = withoutCmd c.id r := by
      unfold queueReplyPost
      rw [queueEnded_alone hcmds hended hqueue]
      dsimp only
      rw [hpost, hgone, if_neg (by decide), afterReply_idle (d := withoutCmd c.id r) hop (by rw [hregs, hmem]; exact hlink)
        (by rw [hregs, hmem]; exact harrive) (by rw [pageInForce_none hpage, hregs, hmem]; exact hlink)
        (by rw [pageInForce_none hpage, hregs, hmem]; exact hrestart), pageInForce_none hpage]
    have hchanged : Changes [Reg.HP_Q_STAT.key 0 0, Reg.HP_Q_RSEQ.key 0 0] e r e := by
      rw [hr]
      exact changes_fs (changes_fs changes_refl)
    obtain ⟨htail, hrseq⟩ := slotTaken_fields s.dev e
    rw [← hr] at htail hrseq
    have hhost : r.hostMem = memWrite (memWrite s.dev.hostMem (a + 4) (b.drop 4)) a (b.take 4) := by rw [hregs, hmem]
    refine gives_of_eq (f := queueReplyPost begun) rfl hgo ⟨?_, fun x hx => ?_, htail, hrseq, rfl, ?_, ?_⟩
    · rw [← hb, ← memRead_reply s.dev.hostMem a hlen, ← hhost]
      rfl
    · rw [← memRead_reply_outside s.dev.hostMem hlen hx, ← hhost]
      rfl
    · have hleft : r.fw.ended = [c.id] := by rw [hregs, hmem]; exact hended
      unfold withoutCmd
      rw [hleft]
      simp
    · rw [hmem] at hchanged
      exact withoutCmd_changes hchanged
  · have hpost : queuePost c s.dev = s.dev := if_pos (by simp [hhome, horphan, hmaster])
    have hwaits : (s.dev.cmd c.id).isSome = true := by
      obtain ⟨id, -, hcmd⟩ := List.mem_filterMap.mp (List.mem_of_find?_eq_some hended)
      have hid : c.id = id := by simpa using List.find?_some hcmd
      rw [hid, hcmd]
      rfl
    refine becomes_of_eq (f := queueReplyPost begun) rfl ?_
    unfold queueReplyPost
    rw [hended]
    dsimp only
    rw [hpost, if_pos hwaits]
  · have hgo : msixUnmask v s.dev = msixSend v ((unmasked v s.dev).fs .HP_PBA_PEND 0) :=
      noticePending_one v.isLt hon ((unmasked_pend v.isLt).trans hpend) unmasked_mask
    have hkept : ∀ j : Nat, j < 3 → ((unmasked v s.dev).fs .HP_PBA_PEND 0).rd .HP_MSIX v j = s.dev.rd .HP_MSIX v j := fun j hj => by
      refine (rd_wr_ne _ .HP_PBA .HP_MSIX _ 0 0 v j (key_pba_ne_msix v j v.isLt (by omega))).trans ?_
      exact rd_wr_ne _ _ _ _ _ _ _ _ (by simp only [Reg.key, Reg.HP_MSIX]; omega)
    refine gives_of_eq (f := msixUnmask v) rfl hgo ⟨fg_fs_of_lt _ 0 (by decide) (by decide), ?_, ?_, ?_⟩
    · refine Eq.trans (congrArg (fun x : DWord => x.getLsbD 0) ?_) (unmasked_mask (v := v) (d := s.dev))
      exact rd_wr_ne _ _ _ _ _ _ _ _ (key_pba_ne_msix v 3 v.isLt (by decide))
    · unfold msixSend
      dsimp only
      rw [hkept 0 (by decide), hkept 1 (by decide), hkept 2 (by decide)]
      rfl
    · obtain ⟨hkeep, -⟩ : Changes [Reg.HP_PBA.key 0 0, Reg.HP_MSIX.key v 3] s.dev ((unmasked v s.dev).fs .HP_PBA_PEND 0) s.dev :=
        changes_wr (changes_wr changes_refl (by simp)) (by simp [Fld.HP_PBA_PEND])
      exact ⟨hkeep, rfl⟩
  · exact becomes_of_eq (f := msixUnmask v) rfl (noticePending_none ((unmasked_pend v.isLt).trans hpend))

end Sys2Proof.Proofs
end

section
/-!
SUPPORT. Windows and configuration space (14_host_port.md R432 to R437, R459, R461, R627): the obligation.
-/

namespace Sys2Proof.Proofs

open Sys2Proof Sys2Proof.Machine Sys2Proof.Laws

/-! Windows (R434, R436). -/

section
variable {d : Dev}

/-- A window write of one whole dword is that register's write. -/
theorem winPut_dword {n home off : Nat} {b : Bytes} (hoff : off % 4 = 0) (hb : b.length = 4) :
    winPut (n + 2) home off b d = winWrite home off 15 (BitVec.ofNat 32 (leNat b)) d := by
  have hbase : off / 4 * 4 = off := by omega
  have htake : b.take 4 = b := List.take_of_length_le (by omega)
  have hdrop : b.drop 4 = [] := List.drop_eq_nil_of_le (by omega)
  have hnat : leNat b < 2 ^ 32 := by
    have hlt := leNat_lt b
    rwa [hb] at hlt
  have hnew : putBits (winRead off d).toNat 0 32 (leNat b) = leNat b := by
    have hhigh : (winRead off d).toNat / 2 ^ 32 = 0 := Nat.div_eq_of_lt (winRead off d).isLt
    rw [putBits_parts, Nat.mod_eq_of_lt hnat, Nat.zero_add, hhigh, Nat.pow_zero, Nat.mod_one, Nat.mul_zero, Nat.zero_add, Nat.one_mul,
      Nat.add_zero]
  rw [winPut, if_neg (by cases b <;> simp_all)]
  dsimp only
  rw [hoff, hbase, Nat.sub_zero, htake, hdrop, hb, hnew, winPut]
  exact if_pos rfl

theorem windowWrite_own {off : Nat} {b : Bytes} (hhead : d.role ≠ 0 ∧ d.d3 = false) (hoff : off % 4 = 0) (hb : b.length = 4) :
    windowWrite d.addr off b d = winWrite (d.role - 1) off 15 (BitVec.ofNat 32 (leNat b)) d := by
  obtain ⟨hrole, hpower⟩ := hhead
  unfold windowWrite
  rw [if_neg (by simp [hrole, hpower]), if_pos rfl, hb]
  exact winPut_dword (n := 3) hoff hb

theorem windowWrite_held {a off : Nat} {b : Bytes} (hhead : d.role ≠ 0 ∧ d.d3 = false) (ha : a ≠ d.addr)
    (hroom : d.heldBytes + b.length ≤ 16384) (hheld : d.host.held = []) (hroute : d.route a = none) :
    windowWrite a off b d = { d with host := { d.host with held := [{ unit := a, off := off, data := b }] } } := by
  obtain ⟨hrole, hpower⟩ := hhead
  obtain ⟨e, he⟩ : ∃ e : Dev, e = { d with host := { d.host with held := [{ unit := a, off := off, data := b }] } } := ⟨_, rfl⟩
  have hgone : e.route a = none := by rw [he]; exact hroute
  have hwaits : carryHeld 1 e = e := by
    rw [carryHeld, he]
    dsimp only
    rw [← he, hgone]
  have hjoined : (d.onHost fun h => { h with held := h.held ++ [{ unit := a, off := off, data := b }] }) = e := by
    unfold Dev.onHost
    dsimp only
    rw [he, hheld]
    rfl
  unfold windowWrite
  rw [if_neg (by simp [hrole, hpower]), if_neg ha, if_neg (by omega)]
  dsimp only
  rw [hjoined, ← he]
  exact (congrArg (fun n => carryHeld n e) (by rw [he]; rfl)).trans hwaits

theorem windowRead_refused {a off len : Nat} (h : d.role = 0 ∨ d.d3 = true) : windowRead a off len d = unsupported d := by
  refine if_pos ?_
  obtain h | h := h <;> simp [h]

theorem windowRead_open {a off len : Nat} (hhead : d.role ≠ 0 ∧ d.d3 = false) (hfit : off % 64 + len ≤ 64) : windowRead a off len d =
    if a = d.addr then { d with answer := winBytes off len d, error := false }
    else if (d.route a).isNone then allOnes len d
    else
      let (t, d) := nextTag d
      let d := d.onHost fun h => { h with reads := h.reads ++ [{ tag := t, unit := a, off := off, len := len }] }
      sendMsg { type := 0x02, dst := a, cls := 1, tag := t, arg := off + len <<< 18 } d := by
  obtain ⟨hrole, hpower⟩ := hhead
  unfold windowRead
  rw [if_neg (by simp [hrole, hpower]; omega)]

theorem unreachableDiscard_one {h : HeldWrite} (hheld : d.host.held = [h]) (hroute : d.route h.unit = none) :
    unreachableDiscard d = { ((d.fs .HP_HC_STAT_UNREACH 1).bump .HP_HC_CNT_DROP) with host := { d.host with held := [] } } := by
  have hfirst : (d.host.held.findIdx? fun x => (d.route x.unit).isNone) = some 0 := by rw [hheld]; simp [hroute]
  have hdropped : (d.onHost fun x => { x with held := x.held.eraseIdx 0 }) = { d with host := { d.host with held := [] } } := by
    unfold Dev.onHost
    dsimp only
    rw [hheld]
    rfl
  unfold unreachableDiscard dropHeld
  rw [hfirst]
  dsimp only
  rw [hdropped]
  rfl

end

/-! A host memory error (R459). -/

section
variable {d : Dev} {c : Cmd} {id kind : Nat}

/-- The unit whose head has recorded a host memory error. -/
def errorNoted (kind : Nat) (d : Dev) : Dev := ((aerRecord kind d).fs .HP_HC_STAT_DMA_ERR 1).bump .HP_HC_CNT_DMAERR

theorem dmaCompletionError_eq (hid : id ≠ 0) (hcmd : d.cmd id = some c) (hstage : c.stage = .running) (hop : c.opcode ≠ 0x11)
    (hhome : d.homeHere c = true) (hlen : c.dlen ≠ 0) : dmaCompletionError id kind d = (errorNoted kind d).endCmd id 6 7 := by
  have hcmd' : (aerRecord kind d).cmd id = some c := hcmd
  have hhome' : (aerRecord kind d).homeHere c = true := hhome
  unfold dmaCompletionError
  rw [if_neg hid, hcmd]
  dsimp only
  rw [if_neg (by simp [hstage, hhome, hlen])]
  unfold hostError
  rw [hcmd']
  dsimp only
  rw [if_neg (by simp [hstage]), hhome', beq_false_of_ne hop, Bool.false_and]
  rfl

theorem errorNoted_fw : (errorNoted kind d).fw = d.fw := rfl

theorem endCmd_ended_running {cls detail : Nat} (hcmd : d.cmd id = some c) (hstage : c.stage = .running) :
    (d.endCmd id cls detail).fw.ended = d.fw.ended ++ [id] := by
  unfold Dev.endCmd Dev.onCmd Dev.onFw
  dsimp only
  rw [hcmd, Option.map_some, hstage]
  rfl

theorem endCmd_changes {cls detail : Nat} {keys : List Nat} {r u : Dev} (h : Changes keys d r u) : Changes keys d (r.endCmd id cls detail)
    { u with fw := { u.fw with cmds := (r.endCmd id cls detail).fw.cmds, ended := (r.endCmd id cls detail).fw.ended } } := by
  obtain ⟨hkept, hrest⟩ := h
  have hfw : (r.endCmd id cls detail).fw =
      { u.fw with cmds := (r.endCmd id cls detail).fw.cmds, ended := (r.endCmd id cls detail).fw.ended } := by
    rw [← congrArg Dev.fw hrest]
    rfl
  refine ⟨hkept, ?_⟩
  rw [← hfw]
  generalize hw : (r.endCmd id cls detail).fw = w
  have hform : r.endCmd id cls detail = { r with fw := w } := by rw [← hw]; rfl
  rw [hform, hrest]

theorem errorNoted_flag : (errorNoted kind d).is .HP_HC_STAT_DMA_ERR = true :=
  (is_bump_single _ (by decide)).trans (is_fs_one _ (by decide) rfl)

theorem errorNoted_aer (hkind : kind < 4) : (sparseGet 0#32 (errorNoted kind d).host.cfg 0x104).getLsbD ([20, 15, 12, 14].getD kind 20) = true := by
  have hfit : ∀ k : Fin 4, [20, 15, 12, 14].getD k 20 < 32 := by decide
  have hset : sparseGet 0#32 (errorNoted kind d).host.cfg 0x104 =
      sparseGet 0#32 d.host.cfg 0x104 ||| BitVec.ofNat 32 (2 ^ [20, 15, 12, 14].getD kind 20) := sparseGet_set_self _ _ _ _
  rw [hset, BitVec.getLsbD_or, BitVec.getLsbD_ofNat, Nat.testBit_two_pow_self, decide_eq_true (hfit ⟨kind, hkind⟩), Bool.true_and,
    Bool.or_true]

theorem errorNoted_changes : Changes [Reg.HP_HC_STAT.key 0 0, Reg.HP_HC_CNT_DMAERR.key 0 0] d (errorNoted kind d)
    { d with host := { d.host with cfg := (errorNoted kind d).host.cfg } } := by
  obtain ⟨hkept, -⟩ : Changes [Reg.HP_HC_STAT.key 0 0, Reg.HP_HC_CNT_DMAERR.key 0 0] (aerRecord kind d) (errorNoted kind d) (aerRecord kind d) :=
    changes_bump (changes_fs changes_refl)
  exact ⟨hkept, rfl⟩

theorem errorNoted_endCmd {e : Dev} (he : e = errorNoted kind d) (hcmd : d.cmd id = some c) (hstage : c.stage = .running) (hkind : kind < 4) :
    ((e.endCmd id 6 7).cmd id).map (fun c => (c.stage, c.cls, c.detail)) = some (.ended, 6, 7) ∧
      (e.endCmd id 6 7).fw.ended = d.fw.ended ++ [id] ∧ (e.endCmd id 6 7).is .HP_HC_STAT_DMA_ERR = true ∧
      (sparseGet 0#32 (e.endCmd id 6 7).host.cfg 0x104).getLsbD ([20, 15, 12, 14].getD kind 20) = true ∧
      Changes [Reg.HP_HC_STAT.key 0 0, Reg.HP_HC_CNT_DMAERR.key 0 0] d (e.endCmd id 6 7) { d with
        fw := { d.fw with cmds := (e.endCmd id 6 7).fw.cmds, ended := (e.endCmd id 6 7).fw.ended }
        host := { d.host with cfg := (e.endCmd id 6 7).host.cfg } } := by
  have hfw : e.fw = d.fw := by rw [he, errorNoted_fw]
  have hcmd' : e.cmd id = some c := by rw [Dev.cmd, hfw]; exact hcmd
  have hflag : e.is .HP_HC_STAT_DMA_ERR = true := by rw [he]; exact errorNoted_flag
  have haer : (sparseGet 0#32 e.host.cfg 0x104).getLsbD ([20, 15, 12, 14].getD kind 20) = true := by rw [he]; exact errorNoted_aer hkind
  have hchanged : Changes [Reg.HP_HC_STAT.key 0 0, Reg.HP_HC_CNT_DMAERR.key 0 0] d e { d with host := { d.host with cfg := e.host.cfg } } := by
    rw [he]
    exact errorNoted_changes
  have hall := endCmd_changes (id := id) (cls := 6) (detail := 7) hchanged
  refine ⟨?_, ?_, hflag, haer, hall⟩
  · rw [cmd_endCmd_self hcmd' (by rw [hstage]; decide)]
    rfl
  · rw [endCmd_ended_running hcmd' hstage, hfw]

end

/-! A reset of this head (R461). -/

section
variable {d : Dev}

/-- One vector's entry of the MSI-X table at its reset values. -/
def vectorReset (d : Dev) (v : Nat) : Dev := d.each (List.range 4) fun d k => d.wr .HP_MSIX (Reg.resetAt .HP_MSIX v k) v k

/-- The keys of the MSI-X table and of its pending bits. -/
def vectorKeys : List Nat := Reg.HP_PBA.key 0 0 :: (List.range 32).flatMap fun v => (List.range 4).map fun k => Reg.HP_MSIX.key v k

theorem vectorReset_same (d : Dev) (v : Nat) : ∀ k < 4, (vectorReset d v).rd .HP_MSIX v k = Reg.resetAt .HP_MSIX v k := fun k hk =>
  (each_gives (I := fun _ => True) (d := d) (l := List.range 4) (f := fun d k => d.wr .HP_MSIX (Reg.resetAt .HP_MSIX v k) v k)
    (Q := fun k e => e.rd .HP_MSIX v k = Reg.resetAt .HP_MSIX v k) trivial (fun _ _ _ _ => trivial) (fun _ _ _ _ => rd_wr _ _ _ _ _)
    fun e x _ y _ hy => by
      by_cases hxy : x = y
      · subst hxy
        exact rd_wr _ _ _ _ _
      · rw [rd_wr_ne _ _ _ _ _ _ _ _ (by simp only [Reg.key, Reg.HP_MSIX]; omega), hy]).2 k (List.mem_range.mpr hk)

theorem vectorReset_ne {v w k : Nat} (h : v ≠ w) (hk : k < 4) : (vectorReset d v).rd .HP_MSIX w k = d.rd .HP_MSIX w k :=
  each_inv (P := fun e => e.rd .HP_MSIX w k = d.rd .HP_MSIX w k) rfl fun e j hj he => by
    have hj4 := List.mem_range.mp hj
    rw [rd_wr_ne _ _ _ _ _ _ _ _ (by simp only [Reg.key, Reg.HP_MSIX]; omega), he]

theorem vectorReset_changes {v : Nat} {u e : Dev} (hv : v < 32) (h : Changes vectorKeys u e u) : Changes vectorKeys u (vectorReset e v) u :=
  each_inv (P := fun e => Changes vectorKeys u e u) h fun _ k hk he =>
    changes_wr he (List.mem_cons_of_mem _ (List.mem_flatMap.mpr ⟨v, List.mem_range.mpr hv, List.mem_map.mpr ⟨k, hk, rfl⟩⟩))

/-- The registers of the HOST island at their reset values. -/
def vectorsReset (d : Dev) : Dev := (d.each (List.range 32) vectorReset).fs .HP_PBA_PEND 0

theorem vectorsReset_changes : Changes vectorKeys d (vectorsReset d) d :=
  changes_fs (each_inv (P := fun e => Changes vectorKeys d e d) changes_refl fun _ _ hv he => vectorReset_changes (List.mem_range.mp hv) he)
    List.mem_cons_self

theorem vectorsReset_pend (d : Dev) : (vectorsReset d).fg .HP_PBA_PEND = 0 := fg_fs_of_lt _ 0 (by decide) (by decide)

theorem vectorsReset_kept {r : Dev} {x : Fld} (hr : r = vectorsReset d) (hx : x.reg.key 0 0 ∉ vectorKeys) : r.fg x = d.fg x := by
  obtain ⟨hkept, -⟩ := vectorsReset_changes (d := d)
  rw [hr, Dev.fg, Dev.fg, Dev.rd, Dev.rd, sparseGet_eq_lookup, sparseGet_eq_lookup, hkept _ hx]

theorem vectorsReset_rd (d : Dev) (v k : Nat) (hv : v < 32) (hk : k < 4) : (vectorsReset d).rd .HP_MSIX v k = Reg.resetAt .HP_MSIX v k := by
  refine (rd_wr_ne _ .HP_PBA .HP_MSIX _ 0 0 v k (key_pba_ne_msix v k hv hk)).trans ?_
  refine (each_gives (I := fun _ => True) (d := d) (l := List.range 32) (f := vectorReset)
    (Q := fun v e => ∀ k < 4, e.rd .HP_MSIX v k = Reg.resetAt .HP_MSIX v k) trivial (fun _ _ _ _ => trivial)
    (fun e v _ _ => vectorReset_same e v) fun e x _ y _ hy j hj => ?_).2 v (List.mem_range.mpr hv) k hk
  by_cases hxy : x = y
  · subst hxy
    exact vectorReset_same e x j hj
  · rw [vectorReset_ne hxy hj, hy j hj]

/-- The unit whose head has been reset: its island's state, and the commands homed there. -/
def headReset (head : Nat) (d : Dev) : Dev := { vectorsReset d with
  host := { d.host with cfg := [], up := false, reads := [] }
  fw := { d.fw with cmds := d.fw.cmds.map fun c => if c.home == head then { c with orphan := true } else c } }

theorem rd_of_regs {e : Dev} {r : Reg} {i j : Nat} (h : e.regs = d.regs) : e.rd r i j = d.rd r i j := by rw [Dev.rd, Dev.rd, h]

theorem headReset_regs (head : Nat) (d : Dev) : (headReset head d).regs = (vectorsReset d).regs := by rw [headReset]

theorem headReset_clears (head : Nat) (d : Dev) : (headReset head d).fg .HP_PBA_PEND = 0 ∧
    (∀ v : Fin 32, ∀ k : Fin 4, (headReset head d).rd .HP_MSIX v k = Reg.resetAt .HP_MSIX v k) ∧
    (∀ c ∈ (headReset head d).fw.cmds, c.home = head → c.orphan = true) ∧ (headReset head d).fw.cmds.length = d.fw.cmds.length ∧
    Changes vectorKeys d (headReset head d)
      { d with fw := { d.fw with cmds := (headReset head d).fw.cmds }, host := { d.host with cfg := [], up := false, reads := [] } } := by
  obtain ⟨hkept, hrest⟩ := vectorsReset_changes (d := d)
  have hrd : ∀ (q : Reg) (i j : Nat), (headReset head d).rd q i j = (vectorsReset d).rd q i j := fun _ _ _ => rd_of_regs (headReset_regs head d)
  refine ⟨?_, fun v k => (hrd _ _ _).trans (vectorsReset_rd d v k v.isLt k.isLt), fun c hc hhome => ?_, ?_, ?_, ?_⟩
  · rw [Dev.fg, hrd]
    exact vectorsReset_pend d
  · obtain ⟨x, -, rfl⟩ := List.mem_map.mp hc
    by_cases hx : x.home = head
    · simp [hx]
    · simp [hx] at hhome
  · exact List.length_map _
  · intro k hk
    rw [headReset_regs]
    exact hkept k hk
  · unfold headReset
    rw [hrest]

theorem hostReset_own {head cause : Nat} (hhead : d.isHead head = true) (hcause : cause ≠ 3) (hfetch : d.link.fetch = [])
    (hqueue : d.is .HP_Q_CTL_EN = false) : hostReset head cause d = headReset head d := by
  obtain ⟨r, hr⟩ : ∃ r, r = vectorsReset d := ⟨_, rfl⟩
  have hregs : r = { d with regs := r.regs } := by rw [hr]; exact vectorsReset_changes.2
  have hisland : hostIsland cause d = { r with host := { d.host with cfg := [], up := false, reads := [] } } := by
    have hform : hostIsland cause d = r.onHost fun h => { h with cfg := if cause = 3 then [(0x44, 3#32)] else [], up := cause == 3 && h.up, reads := [] } := by
      rw [hr]
      rfl
    rw [hform, if_neg hcause, beq_false_of_ne hcause, hregs]
    rfl
  have hoff : r.is .HP_Q_CTL_EN = false := by
    rw [Dev.is, vectorsReset_kept hr (by decide)]
    exact hqueue
  have hlink : r.link = d.link := by rw [hregs]
  have hfw : r.fw = d.fw := by rw [hregs]
  have hreset : headReset head d = { r with
      host := { d.host with cfg := [], up := false, reads := [] }
      fw := { d.fw with cmds := d.fw.cmds.map fun c => if c.home == head then { c with orphan := true } else c } } := by
    rw [headReset, ← hr]
  have hidle : (headReset head d).is .HP_Q_CTL_EN = false := by rw [hreset]; exact hoff
  obtain ⟨e, he⟩ : ∃ e, e = headReset head d := ⟨_, rfl⟩
  have horphans : ({ r with host := { d.host with cfg := [], up := false, reads := [] } } : Dev).onFw
      (fun w => { w with cmds := w.cmds.map fun c => if c.home == head then { c with orphan := true } else c }) = e := by
    rw [he, hreset, ← hfw]
    rfl
  have hnone : e.link.fetch = [] := by rw [he, hreset]; exact (congrArg Link.fetch hlink).trans hfetch
  have hkept : (e.onLink fun l => { l with fetch := l.fetch.filter fun x => !([] : List (Nat × Nat × Nat × Nat)).contains x }) = e := by
    unfold Dev.onLink
    dsimp only
    rw [hnone, List.filter_nil, ← hnone]
  unfold hostReset
  rw [hhead, Laws.cond_true, hisland]
  dsimp only
  rw [horphans, hnone, List.filter_nil, hkept, each_nil, ← he]
  have hdrained : queueDrain e = e := queueDrain_off (by rw [he]; exact hidle)
  rw [Dev.cond, hdrained, ite_self]

end

/-! Configuration space (R432, R627). -/

section
variable {d : Dev}

theorem configurationRequest_early {write late : Bool} {idx be : Nat} {v : DWord} (h : d.aon.reset = true ∨ d.fg .CLK_BOOT_STAGE < 7)
    (hlate : late = false) : configurationRequest write idx be v late d = { d with answer := [], error := true } := by
  refine if_pos ?_
  obtain h | h := h <;> simp [h, hlate]

theorem configurationRequest_late {write late : Bool} {idx be : Nat} {v : DWord} (h : d.aon.reset = false ∧ 7 ≤ d.fg .CLK_BOOT_STAGE) :
    configurationRequest write idx be v late d =
      if write then cfgWrite (4 * idx) be v { d with error := false }
      else { d with answer := leBytes 4 (cfgRead (4 * idx) d).toNat, error := false } := by
  obtain ⟨hrun, hstage⟩ := h
  exact if_neg (by simp [hrun]; omega)

theorem cfgMask_lt (n : Nat) : cfgMask n < 2 ^ 32 := by
  unfold cfgMask
  split <;> decide

/-- A dword of configuration space with a value written to its writable bits. -/
def cfgWritten (off : Nat) (v : DWord) (d : Dev) : DWord :=
  BitVec.ofNat 32 (((sparseGet 0#32 d.host.cfg off).toNat &&& (2 ^ 32 - 1 - cfgMask off)) ||| (v.toNat &&& cfgMask off))

theorem cfgWrite_kept {off : Nat} {v : DWord} (haer : off ≠ 0x104) (hpower : off ≠ 0x44) (hpend : d.fg .HP_PBA_PEND = 0) :
    cfgWrite off 15 v d = { d with host := { d.host with cfg := sparseSet 0#32 d.host.cfg off (cfgWritten off v d) } } := by
  have hbytes : (List.range 4).foldl (fun m i => if (15 : Nat).testBit i then m + 0xFF <<< (8 * i) else m) 0 = 4294967295 := by decide
  have hmask : cfgMask off &&& 4294967295 = cfgMask off :=
    (Nat.and_two_pow_sub_one_eq_mod (cfgMask off) 32).trans (Nat.mod_eq_of_lt (cfgMask_lt off))
  unfold cfgWrite
  rw [hbytes]
  dsimp only
  rw [hmask, if_neg haer, if_neg (by simp [hpower])]
  exact noticePending_none hpend

end

/-- Settles O33: a whole dword of a window is one register's write, and a head's reset touches its island's registers alone. -/
theorem windowsAndConfiguration : Obligations.WindowsAndConfiguration := by
  unfold Obligations.WindowsAndConfiguration
  refine ⟨fun a off data s ⟨hrole, hpower, ha⟩ ⟨hoff, hdata⟩ => ?_, fun a k data s ⟨hrole, hpower, ha⟩ ⟨hdata, hboot⟩ => ?_,
    fun a off data s ⟨hrole, hpower, ha⟩ ⟨hroom, hheld, hroute⟩ => ?_, fun a off data len c s hclosed hc => ?_,
    fun a off len s ⟨hrole, hpower, hfit, ha⟩ => ?_, fun a off len s ⟨hrole, hpower, hfit, ha⟩ hroute => ?_,
    fun r rest s hreads => ?_, fun h s ⟨hheld, hroute⟩ => ?_,
    fun id kind c s ⟨hid, hcmd, hstage, hop⟩ ⟨hhome, hlen⟩ => ?_, fun head cause s ⟨hhead, hcause, hfetch, hqueue⟩ => ?_,
    fun isWrite reg be val s hearly => ?_, fun reg be val late s hrun => ?_, fun be val late s ⟨hrun, hstage, hzero⟩ => ?_,
    fun reg val late s ⟨hrun, hstage, hpend⟩ ⟨hpower, haer⟩ => ?_, fun s ⟨hbonded, hisl, haddr⟩ => ?_⟩
  · refine becomes_of_eq (f := windowWrite a off data) rfl ?_
    rw [ha]
    exact windowWrite_own ⟨hrole, hpower⟩ hoff hdata
  · refine becomes_of_eq (f := windowWrite a (0x3000 + 4 * k.val) data) rfl ?_
    rw [ha, windowWrite_own ⟨hrole, hpower⟩ (by omega) hdata]
    unfold winWrite
    rw [hboot, if_neg (by decide), if_pos (by simp; omega), show (0x3000 + 4 * k.val - 0x3000) / 4 = k.val by omega]
  · exact becomes_of_eq (f := windowWrite a off data) rfl (windowWrite_held ⟨hrole, hpower⟩ ha hroom hheld hroute)
  · obtain rfl | rfl := List.mem_pair.mp hc
    · refine becomes_of_eq (f := windowWrite a off data) rfl (if_pos ?_)
      obtain h | h := hclosed <;> simp [h]
    · exact becomes_of_eq (f := windowRead a off len) rfl (windowRead_refused hclosed)
  · refine becomes_of_eq (f := windowRead a off len) rfl ?_
    rw [windowRead_open ⟨hrole, hpower⟩ hfit, if_pos ha]
  · refine becomes_of_eq (f := windowRead a off len) rfl ?_
    rw [windowRead_open ⟨hrole, hpower⟩ hfit, if_neg ha, hroute]
    rfl
  · refine becomes_of_eq (f := memberReadTimeout) rfl ?_
    unfold memberReadTimeout
    rw [hreads]
    rfl
  · exact becomes_of_eq (f := unreachableDiscard) rfl (unreachableDiscard_one hheld hroute)
  · have hnoted := errorNoted_endCmd (kind := kind.val) (e := errorNoted kind.val s.dev) rfl hcmd hstage kind.isLt
    refine gives_of_eq (f := dmaCompletionError id kind) rfl (dmaCompletionError_eq hid hcmd hstage hop hhome hlen) ?_
    exact hnoted
  · obtain ⟨r, hr⟩ : ∃ r, r = headReset head s.dev := ⟨_, rfl⟩
    refine gives_of_eq (f := hostReset head cause) rfl (u := r) ((hostReset_own hhead hcause hfetch hqueue).trans hr.symm) ?_
    rw [hr]
    exact headReset_clears head s.dev
  · exact becomes_of_eq (f := configurationRequest isWrite reg be val false) rfl (configurationRequest_early hearly rfl)
  · exact becomes_of_eq (f := configurationRequest false reg be val late) rfl (configurationRequest_late hrun)
  · refine gives_of_eq (f := configurationRequest false 0 be val late) rfl (configurationRequest_late ⟨hrun, hstage⟩) ?_
    have hread : cfgRead 0 s.dev = 0x00961E57#32 := by
      unfold cfgRead
      rw [hzero, show cfgFixed s.dev 0 = 0x00961E57 by simp [cfgFixed]]
      decide
    exact (congrArg (fun x : DWord => leBytes 4 x.toNat) hread).trans (by decide)
  · refine becomes_of_eq (f := configurationRequest true reg 15 val late) rfl ?_
    rw [configurationRequest_late ⟨hrun, hstage⟩, if_pos rfl, cfgWrite_kept (d := { s.dev with error := false }) (by omega) (by omega) hpend]
    rfl
  · refine becomes_of_eq (f := hostLinkUp) rfl ?_
    have hvalid : (s.dev.onHost fun h => { h with up := true }).is .QL_STAT_ADDR_VALID = true := haddr
    unfold hostLinkUp
    rw [if_neg (by simp [hbonded, hisl])]
    dsimp only
    rw [hvalid]
    rfl

end Sys2Proof.Proofs
end

section
/-!
SUPPORT. The commands that coordinate the chain (17_quire_link.md R532 to R536, R546 to R550): the obligation.
-/

namespace Sys2Proof.Proofs

open Sys2Proof Sys2Proof.Machine Sys2Proof.Laws

/-! Passes of a unit with no active port (R546, R547). -/

/-- The unit engaged in `o`, as the unit knows it at this point of the operation. -/
def opAt (o : ChainOp) (d : Dev) : Dev := { d with link := { d.link with op := some o } }

section
variable {d : Dev} {o : ChainOp}

theorem opAt_fg (x : Fld) (i j : Nat) : (opAt o d).fg x i j = d.fg x i j := rfl

theorem opAt_ways : (opAt o d).ways = d.ways := rfl

theorem opAt_qtime : (opAt o d).qtime = d.qtime := rfl

theorem ways_alone (h0 : d.portState 0 ≠ 2) (h1 : d.portState 1 ≠ 2) : d.ways = [] := by
  have hring : d.ringWhole = false := by simp [Dev.ringWhole, h0]
  unfold Dev.ways
  rw [hring, if_neg (by decide), List.filter_cons_of_neg (by simpa using h1), List.filter_cons_of_neg (by simpa using h0), List.filter_nil]

theorem onOp_eq (f : ChainOp → ChainOp) (hop : d.link.op = some o) : d.onOp f = opAt (f o) d := by
  unfold Dev.onOp Dev.onLink opAt
  dsimp only
  rw [hop]
  rfl

/-- A pass with no way to go is back at once. -/
theorem startPass_alone (m : QMsg) (hop : d.link.op = some o) (hways : d.ways = []) : startPass m d = opAt { o with legs := 0 } d := by
  unfold startPass
  rw [hways]
  exact onOp_eq (fun o => { o with legs := 0 }) hop

theorem engage_fg (op : Option ChainOp) (d : Dev) {x : Fld} {k : Nat} (hx : Reg.QL_STAT.key 0 0 ≠ x.reg.key k 0) :
    (engage op d).fg x k = d.fg x k := by
  unfold engage
  exact (fg_fs_ne _ .QL_STAT_HOLD x _ 0 0 k 0 hx).trans (fg_fs_ne _ .QL_STAT_OP x _ 0 0 k 0 hx)

theorem engage_valid (op : Option ChainOp) (d : Dev) : (engage op d).is .QL_STAT_ADDR_VALID = d.is .QL_STAT_ADDR_VALID :=
  (is_fs_single _ _ (by decide)).trans (is_fs_single _ _ (by decide))

theorem engage_hold (o : Option ChainOp) (d : Dev) : (engage o d).is .QL_STAT_HOLD = (o.elim 0 (·.op) != 0) :=
  is_fs_bit _ _ _ _ _ (by decide) rfl

theorem engage_ways (op : Option ChainOp) (h0 : d.portState 0 ≠ 2) (h1 : d.portState 1 ≠ 2) : (engage op d).ways = [] :=
  ways_alone (ne_of_eq_of_ne (engage_fg op d (x := .QL_PSTAT_STATE) (k := 0) (by decide)) h0)
    (ne_of_eq_of_ne (engage_fg op d (x := .QL_PSTAT_STATE) (k := 1) (by decide)) h1)

/-! The end of an operation (R547). -/

theorem opEnd_alone {id cls detail r0 r1 : Nat} {x : Cmd} (hcmd : o.cmd = some id) (hcmds : d.fw.cmds = [x]) (hid : x.id = id)
    (hstage : x.stage = .running) : opEnd o cls detail r0 r1 d =
      engage none ((d.endCmd id cls detail r0 r1).onLink fun l => { l with arrive := none, barrier := [] }) := by
  have hended : ∀ y ∈ (d.endCmd id cls detail r0 r1).fw.cmds, y.stage = .ended := by
    unfold Dev.endCmd Dev.onCmd Dev.onFw
    dsimp only
    rw [hcmds]
    simp [hid, hstage]
  unfold opEnd release
  rw [hcmd]
  exact admitAll_nothing fun y hy hrun => absurd ((hended y hy).symm.trans hrun) (by decide)

/-- What a unit's own operation leaves at its end: the unit is released, and its command has ended. -/
theorem opEnd_released {id cls detail r0 r1 : Nat} {x : Cmd} (hcmd : o.cmd = some id) (hcmds : d.fw.cmds = [x]) (hid : x.id = id)
    (hstage : x.stage = .running) {r : Dev} (hr : opEnd o cls detail r0 r1 d = r) :
    r.link.op = none ∧ r.is .QL_STAT_HOLD = false ∧ r.link.units = d.link.units ∧ r.is .QL_STAT_ADDR_VALID = d.is .QL_STAT_ADDR_VALID ∧
      (∀ y : Fld, Reg.QL_STAT.key 0 0 ≠ y.reg.key 0 0 → r.fg y = d.fg y) ∧
      r.cmd id = some { x with stage := .ended, cls := cls, detail := detail, r0 := r0, r1 := r1 } := by
  have hfound : d.cmd id = some x := by simp [Dev.cmd, hcmds, hid]
  have hself := cmd_endCmd_self (cls := cls) (detail := detail) (r0 := r0) (r1 := r1) hfound (by rw [hstage]; decide)
  rw [opEnd_alone hcmd hcmds hid hstage] at hr
  subst hr
  exact ⟨rfl, engage_hold none _, rfl, engage_valid none _, fun y hy => engage_fg none _ hy, hself⟩

theorem opEnd_reply {id cls detail r0 r1 : Nat} {x : Cmd} (hcmd : o.cmd = some id) (hcmds : d.fw.cmds = [x]) (hid : x.id = id)
    (hstage : x.stage = .running) {r : Dev} (hr : opEnd o cls detail r0 r1 d = r) :
    r.link.op = none ∧ r.is .QL_STAT_HOLD = false ∧ (r.cmd id).map (fun c => (c.stage, c.cls, c.detail)) = some (.ended, cls, detail) ∧
      (r.cmd id).map (fun c => (c.r0, c.r1)) = some (r0, r1) := by
  obtain ⟨hfree, hrel, -, -, -, hended⟩ := opEnd_released hcmd hcmds hid hstage hr
  rw [hended]
  exact ⟨hfree, hrel, rfl, rfl⟩

/-! What the coordinator does once a pass is back (R548 to R550). -/

theorem chainProgress_arrived (hop : d.link.op = some o) (hown : o.own = true) (hlegs : o.legs = 0) (hkind : o.op = 2) (hphase : o.phase = 1)
    (hbarrier : d.link.barrier = []) (hways : d.ways = []) :
    chainProgress 3 d = opEnd { o with phase := 2, legs := 0 } 0 0 (d.fg .QL_ID_UNITS) (d.qtime - o.began) (opAt { o with phase := 2, legs := 0 } d) := by
  have hpass := startPass_alone (d := opAt { o with phase := 2 } d) { type := 0x35, arg := 2 } rfl hways
  rw [chainProgress, ownOp_of hop hown]
  dsimp only
  rw [if_neg (by simp [hlegs]), if_pos (by simp [hkind, hphase]), if_neg (by simp [hbarrier]), onOp_eq _ hop, hpass, chainProgress,
    ownOp_of (o := { o with phase := 2, legs := 0 }) rfl hown]
  dsimp only
  rw [if_neg (by simp), if_neg (by simp), if_neg (by simp [hkind]), if_pos (by simp [hkind])]
  rfl

theorem chainProgress_held (hop : d.link.op = some o) (hown : o.own = true) (hlegs : o.legs = 0) (hkind : o.op = 3) (hphase : o.phase = 1)
    (hways : d.ways = []) :
    chainProgress 3 d = opEnd { o with phase := 2, cut := d.qtime, legs := 0 } 0 0 (d.fg .QL_ID_UNITS) d.qtime
      (opAt { o with phase := 2, cut := d.qtime, legs := 0 } d) := by
  have hcut : ((d.onOp fun x => { x with phase := 2 }).onOp fun x => { x with cut := d.qtime }) = opAt { o with phase := 2, cut := d.qtime } d := by
    rw [onOp_eq _ hop]
    exact onOp_eq (o := { o with phase := 2 }) (d := opAt { o with phase := 2 } d) _ rfl
  have hpass := startPass_alone (d := opAt { o with phase := 2, cut := d.qtime } d)
    { type := 0x36, arg := 2, payload := takeFill 0#8 16 (leBytes 8 d.qtime) } rfl hways
  rw [chainProgress, ownOp_of hop hown]
  dsimp only
  rw [if_neg (by simp [hlegs]), if_neg (by simp [hkind]), if_pos (by simp [hkind, hphase]), hcut]
  change chainProgress 2 (startPass { type := 0x36, arg := 2, payload := takeFill 0#8 16 (leBytes 8 d.qtime) }
    (opAt { o with phase := 2, cut := d.qtime } d)) = _
  rw [hpass, chainProgress, ownOp_of (o := { o with phase := 2, cut := d.qtime, legs := 0 }) rfl hown]
  dsimp only
  rw [if_neg (by simp), if_neg (by simp), if_neg (by simp), if_neg (by simp [hkind]), if_pos (by simp [hkind])]
  rfl

theorem chainProgress_resetAnswered {id : Nat} (hop : d.link.op = some o) (hown : o.own = true) (hlegs : o.legs = 0) (hkind : o.op = 4)
    (hphase : o.phase = 1) (hcmd : o.cmd = some id) :
    chainProgress 3 d = (opAt { o with phase := 2 } d).endCmd id 0 0 (d.fg .QL_ID_UNITS) (d.qtime - o.began) := by
  rw [chainProgress, ownOp_of hop hown]
  dsimp only
  rw [if_neg (by simp [hlegs]), if_neg (by simp [hkind]), if_neg (by simp [hkind]), if_neg (by simp [hkind]), if_neg (by simp [hkind]),
    if_pos (by simp [hkind, hphase]), onOp_eq _ hop]
  simp only [hcmd]

/-- What a unit knows when it coordinates an operation alone for its one command. -/
structure CoordinatesAlone (d : Dev) (o : ChainOp) (id : Nat) (x : Cmd) : Prop where
  op : d.link.op = some o
  own : o.own = true
  phase : o.phase = 1
  cmd : o.cmd = some id
  ways : d.ways = []
  cmds : d.fw.cmds = [x]
  number : x.id = id
  running : x.stage = .running

theorem barrier_done {id : Nat} {x : Cmd} {r : Dev} (h : CoordinatesAlone d o id x) (hkind : o.op = 2) (hbarrier : d.link.barrier = []) (m : QMsg)
    (hr : chainProgress 3 (startPass m d) = r) : r.link.op = none ∧ r.is .QL_STAT_HOLD = false ∧
      (r.cmd id).map (fun c => (c.stage, c.cls, c.detail)) = some (.ended, 0, 0) ∧
      (r.cmd id).map (fun c => (c.r0, c.r1)) = some (d.fg .QL_ID_UNITS, d.qtime - o.began) := by
  obtain ⟨hop, hown, hphase, hcmd, hways, hcmds, hid, hstage⟩ := h
  rw [startPass_alone m hop hways, chainProgress_arrived (d := opAt { o with legs := 0 } d) (o := { o with legs := 0 }) rfl hown rfl hkind hphase hbarrier (opAt_ways.trans hways), opAt_fg, opAt_qtime] at hr
  refine opEnd_reply ?_ ?_ hid hstage hr
  · exact hcmd
  · exact hcmds

theorem snapshot_done {id : Nat} {x : Cmd} {r : Dev} (h : CoordinatesAlone d o id x) (hkind : o.op = 3) (m : QMsg)
    (hr : chainProgress 3 (startPass m d) = r) : r.link.op = none ∧ r.is .QL_STAT_HOLD = false ∧
      (r.cmd id).map (fun c => (c.stage, c.cls, c.detail)) = some (.ended, 0, 0) ∧
      (r.cmd id).map (fun c => (c.r0, c.r1)) = some (d.fg .QL_ID_UNITS, d.qtime) := by
  obtain ⟨hop, hown, hphase, hcmd, hways, hcmds, hid, hstage⟩ := h
  rw [startPass_alone m hop hways, chainProgress_held (d := opAt { o with legs := 0 } d) (o := { o with legs := 0 }) rfl hown rfl hkind hphase (opAt_ways.trans hways), opAt_fg, opAt_qtime] at hr
  refine opEnd_reply ?_ ?_ hid hstage hr
  · exact hcmd
  · exact hcmds

/-! CHAIN's first run (R546). -/

section
variable {id op : Nat} {c : Cmd}

/-- The unit whose command has begun its chain-wide operation. -/
def cmdBegun (id work : Nat) (d : Dev) : Dev := d.onCmd id fun c => { c with work := work }

theorem chainCmd_start {start : Cmd → Dev → Dev} (hdoing : d.Doing id 0x29 c) (hfield : c.field 16 1 = op) (hwork : c.work = 0)
    (hnone : d.link.op = none) : chainCmd id op start d = start c (cmdBegun id 1 d) := by
  unfold chainCmd
  rw [runCmd_doing hdoing, if_neg (by simp [hfield]), if_neg (by simp [hwork]), hnone, if_neg (by decide)]
  rfl

theorem chainCmd_busy {start : Cmd → Dev → Dev} (hdoing : d.Doing id 0x29 c) (hfield : c.field 16 1 = op) (hwork : c.work = 0)
    (hbusy : d.link.op = some o) : chainCmd id op start d = d.endCmd id 2 7 := by
  unfold chainCmd
  rw [runCmd_doing hdoing, if_neg (by simp [hfield]), if_neg (by simp [hwork]), hbusy]
  exact if_pos rfl

theorem chainCmd_none {start : Cmd → Dev → Dev} (hcmd : d.cmd id = none) : chainCmd id op start d = d := runCmd_none hcmd _

theorem cmdBegun_alone {work : Nat} (hcmds : d.fw.cmds = [c]) (hid : c.id = id) : (cmdBegun id work d).fw.cmds = [{ c with work := work }] := by
  unfold cmdBegun Dev.onCmd Dev.onFw
  dsimp only
  rw [hcmds]
  simp [hid]

/-- The operation that this unit begins for a command. -/
def ownOpOf (op id : Nat) (d : Dev) : ChainOp := { op := op, head := d.addr, cmd := some id, phase := 1, own := true, began := d.qtime }

end

end

/-! Count-off of a unit alone (R532, R533, R536). -/

section
variable {d : Dev} {o : ChainOp}

theorem portSend_down {p : Nat} (hp : d.portState p ≠ 2) (n : Nat) : portSend n p d = d := by
  cases n with
  | zero => rfl
  | succ n =>
    rw [portSend]
    exact if_pos (by simpa using hp)

/-- Nothing leaves by a port that is not active. -/
theorem portFlush_down {p : Nat} (hp : d.portState p ≠ 2) : portFlush p d = d := by
  have hpass : passToken p d = d := if_pos (by simp [hp])
  unfold portFlush
  rw [portSend_down hp, hpass]
  exact portSend_down hp _

theorem takeToken_down {p : Nat} (hp : d.portState p ≠ 2) :
    takeToken p d = d.onPort p fun q => { q with token := true, quota := limitN 1 4095 (d.fg .QL_QUOTA_Q), passed := d.qtime } :=
  portFlush_down (d := d.onPort p _) hp

section
variable {epoch : Nat} {units : List QUnit} {down : List Nat}

/-- The unit whose commands have followed their home heads. -/
def reHomed (units : List QUnit) (d : Dev) : Dev := d.onFw fun w => { w with cmds := w.cmds.map (reHome d units) }

/-- Adopting a first map, its steps by name. -/
theorem adoptMap_first (hunits : d.link.units = []) (hheld : d.host.held = []) : adoptMap epoch units down d =
    headAttn (topoBit ((mapNoted epoch units (units.findIdx? fun u => u.serial == (reHomed units d).serial) (reHomed units d)).onLink
      (mapKept units down))) := by
  have hfollowed : homesFollowed units d = reHomed units d := homesFollowed_first hunits
  rw [adoptMap_eq]
  dsimp only
  rw [windowsDropped_none hheld, hfollowed]

theorem headAttn_fw (d : Dev) : (headAttn d).fw = d.fw := by
  unfold headAttn
  exact cond_eq Dev.fw fun e => attn_fw e 3

theorem mapNoted_fw (me : Option Nat) (d : Dev) : (mapNoted epoch units me d).fw = d.fw := by
  unfold mapNoted
  rw [fs_fw, fs_fw, fs_fw, fs_fw, fs_fw]

theorem adoptMap_fw (hunits : d.link.units = []) (hheld : d.host.held = []) :
    (adoptMap epoch units down d).fw = { d.fw with cmds := d.fw.cmds.map (reHome d units) } := by
  rw [adoptMap_first hunits hheld, headAttn_fw]
  unfold topoBit
  rw [fs_fw, onLink_fw, mapNoted_fw]
  rfl

theorem adoptMap_port {p : Nat} (hp : p < 2) (hunits : d.link.units = []) (hheld : d.host.held = []) :
    (adoptMap epoch units down d).portState p = d.portState p := by
  have hapart : ∀ r ∈ [Reg.QL_STAT, .QL_ID, .QL_EPOCH, .HP_UNIT_ATTN], ∀ p < 2, r.key 0 0 ≠ Reg.QL_PSTAT.key p 0 := by decide
  have hfs : ∀ (e : Dev) (y : Fld) (v : Nat), y.reg ∈ [Reg.QL_STAT, .QL_ID, .QL_EPOCH, .HP_UNIT_ATTN] → (e.fs y v).portState p = e.portState p :=
    fun e y v hy => fg_fs_ne e y .QL_PSTAT_STATE v 0 0 p 0 (hapart _ hy p hp)
  have hattn : ∀ e : Dev, (headAttn e).portState p = e.portState p := fun e => by
    unfold headAttn
    refine cond_eq (fun e => e.portState p) fun e => ?_
    unfold Dev.attn
    dsimp only
    rw [hfs _ _ _ (by decide), hfs _ _ _ (by decide), hfs _ _ _ (by decide)]
  rw [adoptMap_first hunits hheld, hattn]
  unfold topoBit
  rw [hfs _ _ _ (by decide)]
  have hlink : ∀ (e : Dev) (f : Link → Link), (e.onLink f).portState p = e.portState p := fun _ _ => rfl
  have hhomed : (reHomed units d).portState p = d.portState p := rfl
  rw [hlink]
  unfold mapNoted
  rw [hfs _ _ _ (by decide), hfs _ _ _ (by decide), hfs _ _ _ (by decide), hfs _ _ _ (by decide), hfs _ _ _ (by decide), hhomed]

end

/-- The map of a unit that nothing but itself has answered. -/
theorem mapOf_one {a : CountAnswer} (haddr : a.addr = 0) (habove : a.above = false) :
    mapOf [a] false = [{ serial := a.serial, pos := 0, headB := false }] := by
  simp [mapOf, haddr, habove]

theorem laterEpoch_self (a : Nat) : laterEpoch a a = a := ite_self a

/-- The epoch after another; 0 is left out (R536). -/
def epochAfter (e : Nat) : Nat := if (e + 1) % 2 ^ 32 = 0 then 1 else (e + 1) % 2 ^ 32

theorem epochAfter_lt (e : Nat) : epochAfter e < 2 ^ 32 := by
  unfold epochAfter
  split
  · decide
  · exact Nat.mod_lt _ (by decide)

/-- The map of a unit alone: itself. -/
def mapAlone (serial : Nat) : List QUnit := [{ serial := serial, pos := 0, headB := false }]

/-- A unit whose link and whose clock are set, all else kept. -/
def linkAndTime (l : Link) (t : Nat) (d : Dev) : Dev := { d with link := l, qtime := t }

/-- Head A's part from the adopted map on: the map sent on every way it numbered, and with none the end of the count-off (R533). -/
def mapSent (epoch : Nat) (units : List QUnit) (down : List Nat) (above : Bool) (o : ChainOp) (d : Dev) : Dev :=
  let ways := (if d.portState 1 == 2 then [1] else []) ++ (if above && d.portState 0 == 2 then [0] else [])
  let msgs := mapMsgs epoch units down
  let d := (d.each ways fun d p => d.each msgs fun d m => sendOn p m d).onOp fun x => { x with phase := 3, legs := ways.length * msgs.length }
  if ways.isEmpty then countEnd o d else d

theorem mapForm_open (hop : d.link.op = some o) (hown : o.own = true) : mapForm false d =
    mapSent (epochAfter (d.link.count.foldl (fun e a => laterEpoch e a.epoch) d.epoch)) (mapOf d.link.count false)
      [(d.link.count.filter fun a => !a.above).length - 1] (d.link.count.any (·.above)) o
      (adoptMap (epochAfter (d.link.count.foldl (fun e a => laterEpoch e a.epoch) d.epoch)) (mapOf d.link.count false)
        [(d.link.count.filter fun a => !a.above).length - 1]
        (linkAndTime { d.link with ahead := 0 } (d.link.count.foldl (fun t a => limitN t (2 ^ 64 - 1) a.time) d.qtime) d)) := by
  unfold mapForm
  rw [ownOp_of hop hown]
  rfl

theorem mapSent_alone {epoch : Nat} {units : List QUnit} {down : List Nat} {x : ChainOp} (hop : d.link.op = some x) (h1 : d.portState 1 ≠ 2) :
    mapSent epoch units down false o d = countEnd o (opAt { x with phase := 3, legs := 0 } d) := by
  have hways : (if d.portState 1 == 2 then [1] else []) ++ (if false && d.portState 0 == 2 then [0] else []) = ([] : List Nat) := by simp [h1]
  unfold mapSent
  rw [hways]
  dsimp only
  rw [each_nil, onOp_eq _ hop, List.length_nil, Nat.zero_mul]
  rfl

/-- Head A that has only its own answer forms the map of itself and ends the count-off at once. -/
theorem mapForm_alone {a : CountAnswer} (hop : d.link.op = some o) (hown : o.own = true) (hcount : d.link.count = [a])
    (ha : a.addr = 0 ∧ a.above = false ∧ a.serial = d.serial ∧ a.epoch = d.epoch) (h1 : d.portState 1 ≠ 2)
    (hunits : d.link.units = []) (hheld : d.host.held = []) : ∃ u, u.link = { d.link with ahead := 0 } ∧ u.host = d.host ∧ u.fw = d.fw ∧
      u.regs = d.regs ∧ u.shadow = d.shadow ∧
      mapForm false d = countEnd o (opAt { o with phase := 3, legs := 0 } (adoptMap (epochAfter d.epoch) (mapAlone d.serial) [0] u)) := by
  obtain ⟨haddr, habove, hserial, hepoch⟩ := ha
  obtain ⟨u, hu⟩ : ∃ u, u = linkAndTime { d.link with ahead := 0 } (limitN d.qtime (2 ^ 64 - 1) a.time) d := ⟨_, rfl⟩
  have hfirst : u.link.units = [] := by rw [hu]; exact hunits
  have hnone : u.host.held = [] := by rw [hu]; exact hheld
  obtain ⟨e, he⟩ : ∃ e, e = adoptMap (epochAfter d.epoch) (mapAlone d.serial) [0] u := ⟨_, rfl⟩
  have hdown : e.portState 1 ≠ 2 := by rw [he, adoptMap_port (by decide) hfirst hnone, hu]; exact h1
  have hkept : e.link.op = some o := by rw [he, adoptMap_link, hu]; exact hop
  have hanswers : (([a] : List CountAnswer).filter fun a => !a.above).length - 1 = 0 := by simp [habove]
  refine ⟨u, by rw [hu]; rfl, by rw [hu]; rfl, by rw [hu]; rfl, by rw [hu]; rfl, by rw [hu]; rfl, ?_⟩
  rw [mapForm_open hop hown, hcount, mapOf_one haddr habove, hanswers, hserial, List.foldl_cons, List.foldl_nil, hepoch, laterEpoch_self,
    List.foldl_cons, List.foldl_nil, List.any_cons, List.any_nil, habove, Bool.or_false, ← hu, ← mapAlone, ← he, mapSent_alone hkept hdown]

end

/-! The four commands on a unit with no active port. -/

section
variable {d r : Dev} {o : ChainOp} {id : Nat} {c : Cmd}

theorem begun_ways {op work : Nat} (h0 : d.portState 0 ≠ 2) (h1 : d.portState 1 ≠ 2) : (beginOp op id (cmdBegun id work d)).ways = [] :=
  engage_ways (d := cmdBegun id work d) _ h0 h1

theorem begun_units (op work : Nat) : (beginOp op id (cmdBegun id work d)).fg .QL_ID_UNITS = d.fg .QL_ID_UNITS :=
  engage_fg _ (cmdBegun id work d) (by decide)

theorem begun_op (op work : Nat) : (beginOp op id (cmdBegun id work d)).link.op = some (ownOpOf op id d) := by
  unfold beginOp engage
  dsimp only
  rw [fs_link, fs_link, onLink_link]
  rfl

theorem begun_qtime (op work : Nat) : (beginOp op id (cmdBegun id work d)).qtime = d.qtime := by
  unfold beginOp engage
  dsimp only
  rw [fs_qtime, fs_qtime, onLink_qtime]
  rfl

theorem begun_fw (op work : Nat) : (beginOp op id (cmdBegun id work d)).fw = (cmdBegun id work d).fw := by
  unfold beginOp engage
  dsimp only
  rw [fs_fw, fs_fw, onLink_fw]

theorem begun_alone {op work : Nat} (hcmds : d.fw.cmds = [c]) (hid : c.id = id) (hstage : c.stage = .running) (h0 : d.portState 0 ≠ 2)
    (h1 : d.portState 1 ≠ 2) : CoordinatesAlone (beginOp op id (cmdBegun id work d)) (ownOpOf op id d) id { c with work := work } where
  op := begun_op op work
  own := rfl
  phase := rfl
  cmd := rfl
  ways := begun_ways h0 h1
  cmds := (congrArg Firmware.cmds (begun_fw op work)).trans (cmdBegun_alone hcmds hid)
  number := hid
  running := hstage

theorem CoordinatesAlone.withBarrier {x : Cmd} (h : CoordinatesAlone d o id x) (l : List Nat) :
    CoordinatesAlone (d.onLink fun k => { k with barrier := l }) o id x := by
  obtain ⟨hop, hown, hphase, hcmd, hways, hcmds, hid, hstage⟩ := h
  exact ⟨hop, hown, hphase, hcmd, hways, hcmds, hid, hstage⟩

theorem chainBarrier_alone (hdoing : d.Doing id 0x29 c) (hfield : c.field 16 1 = 2) (hwork : c.work = 0) (hnone : d.link.op = none)
    (hcmds : d.fw.cmds = [c]) (h0 : d.portState 0 ≠ 2) (h1 : d.portState 1 ≠ 2) (hr : chainBarrier id d = r) :
    r.link.op = none ∧ r.is .QL_STAT_HOLD = false ∧ (r.cmd id).map (fun c => (c.stage, c.cls, c.detail)) = some (.ended, 0, 0) ∧
      (r.cmd id).map (fun c => (c.r0, c.r1)) = some (d.fg .QL_ID_UNITS, 0) := by
  have hid := doing_id hdoing
  have ⟨_, hstage, _, _⟩ := hdoing
  have hnothing : (cmdBegun id 1 d).earlier (some id) = [] := by simp [Dev.earlier, cmdBegun_alone hcmds hid, hid]
  have halone := (begun_alone (op := 2) (work := 1) hcmds hid hstage h0 h1).withBarrier []
  have hunits := begun_units (d := d) (id := id) 2 1
  have htime := begun_qtime (d := d) (id := id) 2 1
  have hpass : chainBarrier id d = chainProgress 3 (startPass { type := 0x35, arg := 1 }
      ((beginOp 2 id (cmdBegun id 1 d)).onLink fun l => { l with barrier := [] })) := by
    rw [← hnothing]
    exact (chainCmd_start hdoing hfield hwork hnone).trans (by rw [hid])
  rw [hpass] at hr
  have hdone := barrier_done halone rfl rfl _ hr
  rwa [onLink_fg, hunits, onLink_qtime, htime, ownOpOf, Nat.sub_self] at hdone

theorem chainResetCmd_alone (hdoing : d.Doing id 0x29 c) (hfield : c.field 16 1 = 3) (hwork : c.work = 0) (hnone : d.link.op = none)
    (h0 : d.portState 0 ≠ 2) (h1 : d.portState 1 ≠ 2) (hr : r = chainResetCmd id d) :
    r.link.op.map (fun o => (o.op, o.cmd, o.phase)) = some (4, some id, 2) ∧ r.is .QL_STAT_HOLD = true ∧
      (r.cmd id).map (fun c => (c.stage, c.cls, c.detail)) = some (.ended, 0, 0) ∧
      (r.cmd id).map (fun c => (c.r0, c.r1)) = some (d.fg .QL_ID_UNITS, 0) := by
  have hid := doing_id hdoing
  have ⟨hcmd, hstage, _, _⟩ := hdoing
  obtain ⟨e, he⟩ : ∃ e, e = beginOp 4 id (cmdBegun id 1 d) := ⟨_, rfl⟩
  have hop : e.link.op = some (ownOpOf 4 id d) := by rw [he]; exact begun_op 4 1
  have hways : e.ways = [] := by rw [he]; exact begun_ways h0 h1
  have hhold : e.is .QL_STAT_HOLD = true := by rw [he]; exact engage_hold _ _
  have hunits : e.fg .QL_ID_UNITS = d.fg .QL_ID_UNITS := by rw [he]; exact begun_units 4 1
  have htime : e.qtime = d.qtime := by rw [he]; exact begun_qtime 4 1
  have hfound : e.cmd id = some { c with work := 1 } := by
    have hbegun := cmd_onCmd d id id (fun c => { c with work := 1 }) fun _ => rfl
    rw [if_pos rfl, hcmd] at hbegun
    rw [Dev.cmd, he, begun_fw]
    exact hbegun
  have hpass : chainResetCmd id d = chainProgress 3 (startPass { type := 0x37 } e) := by
    rw [he]
    exact (chainCmd_start hdoing hfield hwork hnone).trans (by rw [hid])
  rw [hpass, startPass_alone _ hop hways,
    chainProgress_resetAnswered (d := opAt { ownOpOf 4 id d with legs := 0 } e) (id := id) rfl rfl rfl rfl rfl rfl] at hr
  have hself := cmd_endCmd_self (d := opAt { ownOpOf 4 id d with legs := 0, phase := 2 } e) (cls := 0) (detail := 0) (r0 := e.fg .QL_ID_UNITS)
    (r1 := e.qtime - d.qtime) hfound (by rw [hstage]; decide)
  have hended : r.cmd id = some { c with work := 1, stage := .ended, cls := 0, detail := 0, r0 := e.fg .QL_ID_UNITS, r1 := e.qtime - d.qtime } := by
    rw [hr]
    exact hself
  refine ⟨by rw [hr]; rfl, by rw [hr]; exact hhold, by rw [hended]; rfl, ?_⟩
  rw [hended, hunits, htime, Nat.sub_self]
  rfl

theorem snapshotCmd_busy (hdoing : d.Doing id 0x28 c) (hfield : c.field 20 1 ≠ 1) (hwork : c.work = 0) (hbusy : d.link.op = some o) :
    snapshotCmd id d = d.endCmd id 2 7 := by
  unfold snapshotCmd
  rw [runCmd_doing hdoing]
  dsimp only
  rw [if_neg (by simp [hwork]), if_pos (by simp [hfield]), hbusy]
  exact if_pos rfl

theorem snapshotCmd_alone (hdoing : d.Doing id 0x28 c) (hfield : c.field 20 1 ≠ 1) (hwork : c.work = 0) (hnone : d.link.op = none)
    (hcmds : d.fw.cmds = [c]) (h0 : d.portState 0 ≠ 2) (h1 : d.portState 1 ≠ 2) (hr : snapshotCmd id d = r) :
    r.link.op = none ∧ r.is .QL_STAT_HOLD = false ∧ (r.cmd id).map (fun c => (c.stage, c.cls, c.detail)) = some (.ended, 0, 0) ∧
      (r.cmd id).map (fun c => (c.r0, c.r1)) = some (d.fg .QL_ID_UNITS, d.qtime) := by
  have hid := doing_id hdoing
  have ⟨_, hstage, _, _⟩ := hdoing
  have halone := begun_alone (op := 3) (work := 2) hcmds hid hstage h0 h1
  have hunits := begun_units (d := d) (id := id) 3 2
  have htime := begun_qtime (d := d) (id := id) 3 2
  have hpass : snapshotCmd id d =
      chainProgress 3 (startPass { type := 0x36, arg := 1 + c.field 16 4 * 4 % 2 ^ 32 } (beginOp 3 id (cmdBegun id 2 d))) := by
    unfold snapshotCmd
    rw [runCmd_doing hdoing]
    dsimp only
    rw [if_neg (by simp [hwork]), if_pos (by simp [hfield]), hnone]
    rfl
  rw [hpass] at hr
  have hdone := snapshot_done halone rfl _ hr
  rwa [hunits, htime] at hdone

/-- The operation of a count-off that a command began, on its way up from head A. -/
def countOp (id : Nat) (d : Dev) : ChainOp := { op := 1, head := d.serial, cmd := some id, phase := 2, own := true, began := d.qtime }

/-- The unit engaged in a count-off of its own. -/
def countEngaged (id : Nat) (d : Dev) : Dev := engage (some { countOp id d with phase := 1 }) d

/-- The unit that has begun a count-off with its own answer. -/
def countBegun (id : Nat) (d : Dev) : Dev :=
  (countEngaged id d).onLink fun l => { l with count := [(countEngaged id d).answerOf 0 false], claiming := false }

theorem countBegun_fg {x : Fld} {k : Nat} (hx : Reg.QL_STAT.key 0 0 ≠ x.reg.key k 0) : (countBegun id d).fg x k = d.fg x k := by
  unfold countBegun
  rw [onLink_fg]
  exact engage_fg _ d hx

theorem countBegun_op : (countBegun id d).link.op = some { countOp id d with phase := 1 } := by
  unfold countBegun countEngaged engage
  dsimp only
  rw [onLink_link, fs_link, fs_link, onLink_link]

theorem countBegun_port {p : Nat} (hp : p < 2) : (countBegun id d).portState p = d.portState p := by
  have hapart : ∀ p < 2, Reg.QL_STAT.key 0 0 ≠ Reg.QL_PSTAT.key p 0 := by decide
  exact countBegun_fg (x := .QL_PSTAT_STATE) (hapart p hp)

theorem countStart_free (hnone : d.link.op = none) :
    countStart (some id) d = if (countBegun id d).portState 1 = 2 then sendCount 1 (countBegun id d) else countUp (countBegun id d) := by
  unfold countStart
  rw [hnone, if_neg (by decide), countBegun, countEngaged, countOp]

theorem countUp_alone (h0 : d.portState 0 ≠ 2) : countUp (countBegun id d) = mapForm false (opAt (countOp id d) (countBegun id d)) := by
  have hphase : { ({ countOp id d with phase := 1 } : ChainOp) with phase := 2, legs := 0 } = countOp id d := by rw [countOp]
  have hup := onOp_eq (fun o => { o with phase := 2, legs := 0 }) (countBegun_op (id := id) (d := d))
  have hdown : (opAt (countOp id d) (countBegun id d)).portState 0 ≠ 2 := ne_of_eq_of_ne ((opAt_fg _ _ _).trans (countBegun_port (by decide))) h0
  rw [hphase] at hup
  unfold countUp
  rw [hup]
  exact if_neg hdown

theorem countStart_alone (hnone : d.link.op = none) (h0 : d.portState 0 ≠ 2) (h1 : d.portState 1 ≠ 2) :
    countStart (some id) d = mapForm false (opAt (countOp id d) (countBegun id d)) := by
  rw [countStart_free hnone, countBegun_port (by decide), if_neg h1, countUp_alone h0]

theorem reHome_keeps (u : Dev) (units : List QUnit) (x : Cmd) : (reHome u units x).id = x.id ∧ (reHome u units x).stage = x.stage := by
  unfold reHome
  split <;> exact ⟨rfl, rfl⟩

/-- The two tokens made at ports that are down. -/
theorem takeTokens_down (h0 : d.portState 0 ≠ 2) (h1 : d.portState 1 ≠ 2) : ∃ ports, takeToken 0 (takeToken 1 d) = d.onLink fun l =>
    { l with ports := ports } := by
  have hp : ∀ (f : QPort → QPort), (d.onPort 1 f).portState 0 ≠ 2 := fun _ => h0
  rw [takeToken_down h1, takeToken_down (hp _)]
  exact ⟨_, rfl⟩

/-- Head A's count-off of itself ends with its map in force. -/
theorem countEnd_alone {x : Cmd} (hcmd : o.cmd = some id) (hcmds : d.fw.cmds = [x]) (hid : x.id = id) (hstage : x.stage = .running)
    (h0 : d.portState 0 ≠ 2) (h1 : d.portState 1 ≠ 2) (hr : countEnd o d = r) : r.link.op = none ∧ r.link.units = d.link.units ∧
      r.is .QL_STAT_ADDR_VALID = d.is .QL_STAT_ADDR_VALID ∧ (∀ y : Fld, Reg.QL_STAT.key 0 0 ≠ y.reg.key 0 0 → r.fg y = d.fg y) ∧
      (r.cmd id).map (fun c => (c.stage, c.cls, c.detail, c.r0)) = some (.ended, 0, 0, d.fg .QL_ID_UNITS) := by
  obtain ⟨ports, hports⟩ := takeTokens_down h0 h1
  unfold countEnd at hr
  rw [hports] at hr
  obtain ⟨hfree, -, hunits, hvalid, hkept, hended⟩ := opEnd_released (d := d.onLink fun l => { l with ports := ports }) hcmd hcmds hid hstage hr
  exact ⟨hfree, hunits, hvalid, hkept, by rw [hended]; rfl⟩

/-- What a unit that has begun its count-off keeps of the unit before it. -/
theorem countBegun_kept : (countBegun id d).link.units = d.link.units ∧ (countBegun id d).host = d.host ∧ (countBegun id d).fw = d.fw ∧
    (countBegun id d).shadow = d.shadow ∧ (countBegun id d).link.count = [(countEngaged id d).answerOf 0 false] := by
  unfold countBegun
  rw [onLink_link, onLink_host, onLink_fw, onLink_shadow]
  unfold countEngaged engage
  dsimp only
  rw [fs_link, fs_link, onLink_link, fs_host, fs_host, onLink_host, fs_fw, fs_fw, onLink_fw, fs_shadow, fs_shadow, onLink_shadow]
  exact ⟨rfl, rfl, rfl, rfl, rfl⟩

theorem countStart_map (hnone : d.link.op = none) (h0 : d.portState 0 ≠ 2) (h1 : d.portState 1 ≠ 2) (hunits : d.link.units = [])
    (hheld : d.host.held = []) : ∃ u, u.link.units = [] ∧ u.host = d.host ∧ u.fw = d.fw ∧ u.serial = d.serial ∧ u.portState 0 ≠ 2 ∧ u.portState 1 ≠ 2 ∧
      countStart (some id) d = countEnd (countOp id d)
        (opAt { countOp id d with phase := 3, legs := 0 } (adoptMap (epochAfter d.epoch) (mapAlone d.serial) [0] u)) := by
  obtain ⟨g, hg⟩ : ∃ g, g = opAt (countOp id d) (countBegun id d) := ⟨_, rfl⟩
  obtain ⟨hku, hkh, hkf, hks, hkc⟩ := countBegun_kept (id := id) (d := d)
  have hop : g.link.op = some (countOp id d) := by rw [hg]; rfl
  have hcount : g.link.count = [(countEngaged id d).answerOf 0 false] := by rw [hg]; exact hkc
  have hserial : g.serial = d.serial := by rw [Dev.serial, hg]; exact congrArg (fun x => bitsOf x 0 64) hks
  have hepoch : g.epoch = d.epoch := by rw [Dev.epoch, hg, opAt_fg]; exact countBegun_fg (by decide)
  have hport : ∀ p < 2, g.portState p = d.portState p := fun p hp => by rw [Dev.portState, hg, opAt_fg]; exact countBegun_port hp
  have hanswer : ((countEngaged id d).answerOf 0 false).serial = g.serial ∧ ((countEngaged id d).answerOf 0 false).epoch = g.epoch := by
    rw [hserial, hepoch]
    exact ⟨congrArg (fun x => bitsOf x 0 64) hks, engage_fg _ d (by decide)⟩
  obtain ⟨u, hul, huh, huf, hur, hus, hmap⟩ := mapForm_alone hop rfl hcount ⟨rfl, rfl, hanswer⟩ (by rw [hport 1 (by decide)]; exact h1)
    (by rw [hg]; exact hku.trans hunits) (by rw [hg]; exact (congrArg HostIf.held hkh).trans hheld)
  have hunits' : u.link.units = [] := by rw [hul, hg]; exact hku.trans hunits
  have hport' : ∀ p < 2, u.portState p = d.portState p := fun p hp => by
    rw [← hport p hp, Dev.portState, Dev.portState, Dev.fg, Dev.fg, rd_of_regs hur]
  refine ⟨u, hunits', huh.trans (by rw [hg]; exact hkh), huf.trans (by rw [hg]; exact hkf), ?_, ?_, ?_, ?_⟩
  · rw [← hserial, Dev.serial, Dev.serial, hus]
  · rw [hport' 0 (by decide)]
    exact h0
  · rw [hport' 1 (by decide)]
    exact h1
  · rw [countStart_alone hnone h0 h1, ← hg, hmap, hserial, hepoch]

/-- The count-off of a unit with no active port: it is head A of a map of itself, and its command ends with one unit. -/
theorem countStart_released {x : Cmd} (hnone : d.link.op = none) (hcmds : d.fw.cmds = [x]) (hid : x.id = id) (hstage : x.stage = .running)
    (h0 : d.portState 0 ≠ 2) (h1 : d.portState 1 ≠ 2) (hunits : d.link.units = []) (hheld : d.host.held = [])
    (hr : countStart (some id) d = r) : r.link.op = none ∧ r.addr = 0 ∧ r.role = 1 ∧ r.fg .QL_ID_UNITS = 1 ∧
      r.is .QL_STAT_ADDR_VALID = true ∧ r.epoch = epochAfter d.epoch ∧ r.link.units.map (·.serial) = [d.serial] ∧
      (r.cmd id).map (fun c => (c.stage, c.cls, c.detail, c.r0)) = some (.ended, 0, 0, 1) := by
  obtain ⟨u, huu, huh, huf, hus, hp0, hp1, hmap⟩ := countStart_map (id := id) hnone h0 h1 hunits hheld
  have hnone' : u.host.held = [] := by rw [huh]; exact hheld
  obtain ⟨m, hm⟩ : ∃ m, m = adoptMap (epochAfter d.epoch) (mapAlone d.serial) [0] u := ⟨_, rfl⟩
  have hme : ((mapAlone d.serial).findIdx? fun v => v.serial == u.serial) = some 0 := by simp [mapAlone, hus]
  obtain ⟨haddr, hepoch, hvalid, hrole, hcount⟩ := adoptMap_found (down := [0]) huu hnone' (units := mapAlone d.serial) (by simp [mapAlone])
    (epochAfter_lt d.epoch) hme (u := { serial := d.serial, pos := 0, headB := false }) rfl
  obtain ⟨hreid, hrestage⟩ := reHome_keeps u (mapAlone d.serial) x
  have hlist : m.fw.cmds = [reHome u (mapAlone d.serial) x] := by rw [hm, adoptMap_fw huu hnone', huf, hcmds]; rfl
  have hport : ∀ p < 2, m.portState p = u.portState p := fun p hp => by rw [hm, adoptMap_port hp huu hnone']
  rw [hmap, ← hm] at hr
  rw [← hm] at haddr hepoch hvalid hrole hcount
  obtain ⟨hfree, hends, hstays, hkept, hended⟩ := countEnd_alone (d := opAt { countOp id d with phase := 3, legs := 0 } m) rfl hlist (hreid.trans hid)
    (hrestage.trans hstage) (by rw [← hport 0 (by decide)] at hp0; exact hp0) (by rw [← hport 1 (by decide)] at hp1; exact hp1) hr
  have hmapped : m.link.units = mapAlone d.serial := by rw [hm, adoptMap_link]; rfl
  rw [opAt_fg] at hended
  refine ⟨hfree, (hkept _ (by decide)).trans haddr, (hkept _ (by decide)).trans hrole, (hkept _ (by decide)).trans hcount, hstays.trans hvalid,
    (hkept _ (by decide)).trans hepoch, ?_, ?_⟩
  · have hunitsAfter : r.link.units = mapAlone d.serial := hends.trans hmapped
    rw [hunitsAfter]
    rfl
  · rw [hended, hcount]
    rfl

theorem chainCountOff_alone (hdoing : d.Doing id 0x29 c) (hfield : c.field 16 1 = 1) (hwork : c.work = 0) (hnone : d.link.op = none)
    (hcmds : d.fw.cmds = [c]) (h0 : d.portState 0 ≠ 2) (h1 : d.portState 1 ≠ 2) (hunits : d.link.units = []) (hheld : d.host.held = [])
    (hr : r = chainCountOff id d) : r.link.op = none ∧ r.addr = 0 ∧ r.role = 1 ∧ r.fg .QL_ID_UNITS = 1 ∧
      r.is .QL_STAT_ADDR_VALID = true ∧ r.epoch = epochAfter d.epoch ∧ r.link.units.map (·.serial) = [d.serial] ∧
      (r.cmd id).map (fun c => (c.stage, c.cls, c.detail, c.r0)) = some (.ended, 0, 0, 1) := by
  have hid := doing_id hdoing
  have ⟨_, hstage, _, _⟩ := hdoing
  have hgo : chainCountOff id d = countStart (some id) (cmdBegun id 1 d) := (chainCmd_start hdoing hfield hwork hnone).trans (by rw [hid])
  exact countStart_released (x := { c with work := 1 }) (d := cmdBegun id 1 d) hnone (cmdBegun_alone hcmds hid) hid hstage h0 h1 hunits hheld
    (hr.trans hgo).symm

end

/-- Settles O40: with no active port every pass is back at once, so that the operation runs to its end. -/
theorem chainCommands : Obligations.ChainCommands := by
  unfold Obligations.ChainCommands
  refine ⟨fun id op c o i s ⟨hdoing, hfield, hwork, hbusy⟩ hi => ?_,
    fun id c s ⟨hdoing, hfield, hwork, hnone, hcmds⟩ ⟨h0, h1, hunits, hheld⟩ => ?_,
    fun id c s ⟨hdoing, hfield, hwork, hnone, hcmds⟩ ⟨h0, h1⟩ => ?_,
    fun id c s ⟨hdoing, hfield, hwork, hnone⟩ ⟨h0, h1⟩ => ?_,
    fun id c s ⟨hdoing, hfield, hwork, hnone⟩ => ?_,
    fun id c o s ⟨hdoing, hfield, hwork, hbusy⟩ => ?_,
    fun id c s ⟨hdoing, hfield, hwork, hnone, hcmds⟩ ⟨h0, h1⟩ => ?_,
    fun id i s hcmd hi => ?_⟩
  · simp only [List.mem_cons, Prod.mk.injEq, List.not_mem_nil, or_false] at hi
    obtain ⟨rfl, rfl⟩ | ⟨rfl, rfl⟩ | ⟨rfl, rfl⟩ := hi
    · exact becomes_of_eq (f := chainCountOff id) rfl (chainCmd_busy hdoing hfield hwork hbusy)
    · exact becomes_of_eq (f := chainBarrier id) rfl (chainCmd_busy hdoing hfield hwork hbusy)
    · exact becomes_of_eq (f := chainResetCmd id) rfl (chainCmd_busy hdoing hfield hwork hbusy)
  · obtain ⟨r, hr⟩ : ∃ r, r = chainCountOff id s.dev := ⟨_, rfl⟩
    refine gives_of_eq (f := chainCountOff id) rfl hr.symm ?_
    exact chainCountOff_alone hdoing hfield hwork hnone hcmds h0 h1 hunits hheld hr
  · obtain ⟨r, hr⟩ : ∃ r, r = chainBarrier id s.dev := ⟨_, rfl⟩
    refine gives_of_eq (f := chainBarrier id) rfl hr.symm ?_
    exact chainBarrier_alone hdoing hfield hwork hnone hcmds h0 h1 hr.symm
  · obtain ⟨r, hr⟩ : ∃ r, r = chainResetCmd id s.dev := ⟨_, rfl⟩
    refine gives_of_eq (f := chainResetCmd id) rfl hr.symm ?_
    exact chainResetCmd_alone hdoing hfield hwork hnone h0 h1 hr
  · have hid := doing_id hdoing
    subst hid
    exact becomes_of_eq (f := chainBarrier c.id) rfl (chainCmd_start hdoing hfield hwork hnone)
  · exact becomes_of_eq (f := snapshotCmd id) rfl (snapshotCmd_busy hdoing hfield hwork hbusy)
  · obtain ⟨r, hr⟩ : ∃ r, r = snapshotCmd id s.dev := ⟨_, rfl⟩
    refine gives_of_eq (f := snapshotCmd id) rfl hr.symm ?_
    exact snapshotCmd_alone hdoing hfield hwork hnone hcmds h0 h1 hr.symm
  · simp only [List.mem_cons, List.not_mem_nil, or_false] at hi
    obtain rfl | rfl | rfl | rfl := hi
    · exact becomes_of_eq (f := snapshotCmd id) rfl (runCmd_none hcmd _)
    · exact becomes_of_eq (f := chainCountOff id) rfl (chainCmd_none hcmd)
    · exact becomes_of_eq (f := chainBarrier id) rfl (chainCmd_none hcmd)
    · exact becomes_of_eq (f := chainResetCmd id) rfl (chainCmd_none hcmd)

end Sys2Proof.Proofs
end

section
/-!
SUPPORT. The ports of the Quire link (17_quire_link.md R523 to R530, R538, R543): what a port sends, and what a frame brings.
-/

namespace Sys2Proof.Proofs

open Sys2Proof Sys2Proof.Machine Sys2Proof.Laws

/-! A port's own state. -/

section
variable {d : Dev} {p q : Nat}

theorem port_onPort_self (d : Dev) (p : Nat) (f : QPort → QPort) : (d.onPort p f).port p = f (d.port p) := sparseGet_set_self _ _ _ _

theorem port_onPort_ne (f : QPort → QPort) (h : p ≠ q) : (d.onPort p f).port q = d.port q := sparseGet_set_ne _ _ _ h

theorem otherPort_ne (p : Nat) : otherPort p ≠ p ∧ otherPort p < 2 := by
  unfold otherPort
  split <;> omega

/-- A port that sends nothing when it is asked to: it is not active, or nothing waits and no token is here. -/
def Still (d : Dev) (p : Nat) : Prop := d.portState p ≠ 2 ∨ (d.port p).wait = [] ∧ (d.port p).token = false

theorem portFlush_still (h : Still d p) : portFlush p d = d := by
  obtain hdown | ⟨hwait, htoken⟩ := h
  · exact portFlush_down hdown
  · have hpass : passToken p d = d := if_pos (by simp [htoken])
    unfold portFlush
    rw [hwait, List.length_nil, portSend, hpass]
    dsimp only
    rw [hwait, List.length_nil, portSend]

theorem flushPorts_still (hp : p < 2) (h : Still d p) (hother : Still d (otherPort p)) : flushPorts d = d := by
  have hboth : Still d 0 ∧ Still d 1 := by
    obtain rfl | rfl : p = 0 ∨ p = 1 := by omega
    · exact ⟨h, hother⟩
    · exact ⟨hother, h⟩
  unfold flushPorts
  rw [portFlush_still hboth.1, portFlush_still hboth.2]

/-- What sending a frame keeps of a port: what waits, what it has received and the credit it holds. -/
structure SendKept (a b : QPort) : Prop where
  wait : b.wait = a.wait
  token : b.token = a.token
  trained : b.trained = a.trained
  credit : b.credit = a.credit
  rxSeq : b.rxSeq = a.rxSeq
  rxAny : b.rxAny = a.rxAny
  naking : b.naking = a.naking
  part : b.part = a.part

theorem sendFrame_kept (body : Bytes) (null : Bool) : SendKept (d.port p) ((sendFrame p body null d).port p) := by
  unfold sendFrame
  rw [port_onPort_self]
  exact ⟨rfl, rfl, rfl, rfl, rfl, rfl, rfl, rfl⟩

theorem sendFrame_retry (body : Bytes) (null : Bool) : ((sendFrame p body null d).port p).retry =
    (d.port p).retry ++ [((d.port p).txSeq, null, takeFill 0#8 256 body)] := by
  unfold sendFrame
  rw [port_onPort_self]

theorem sendFrame_ports (body : Bytes) (null : Bool) : ∃ ports, sendFrame p body null d = { d with link := { d.link with ports := ports } } :=
  ⟨_, rfl⟩

theorem idleFrame_active (hstate : d.portState p = 2) (hroom : (d.port p).retry.length < 128) : idleFrame p d = sendFrame p [] false d := by
  unfold idleFrame
  rw [hstate, decide_eq_true hroom]
  rfl

theorem idleFrame_kept (p : Nat) (d : Dev) : SendKept (d.port p) ((idleFrame p d).port p) := by
  unfold idleFrame
  cases (d.portState p == 2 && decide ((d.port p).retry.length < 128))
  · exact ⟨rfl, rfl, rfl, rfl, rfl, rfl, rfl, rfl⟩
  · exact sendFrame_kept [] false

theorem idleFrame_ports (p : Nat) (d : Dev) : ∃ ports, idleFrame p d = { d with link := { d.link with ports := ports } } := by
  unfold idleFrame
  cases (d.portState p == 2 && decide ((d.port p).retry.length < 128))
  · exact ⟨d.link.ports, rfl⟩
  · exact sendFrame_ports [] false

theorem idleFrame_port_ne (h : p ≠ q) : (idleFrame p d).port q = d.port q := by
  unfold idleFrame
  refine cond_eq (fun e => e.port q) fun e => ?_
  exact port_onPort_ne _ h

/-! Messages taken in (R526, R529). -/

/-- The unit with messages joined to its inbox, as they came in by a port; IDLE messages are left out. -/
def joined (p : Nat) (msgs : List QMsg) (d : Dev) : Dev :=
  { d with link := { d.link with inbox := d.link.inbox ++ (msgs.filter fun m => m.type != 0).map fun m => (p, m) } }

theorem joined_nil : joined p [] d = d := by
  unfold joined
  rw [List.filter_nil, List.map_nil, List.append_nil]

theorem joined_cons (m : QMsg) (msgs : List QMsg) : joined p msgs (joined p [m] d) = joined p (m :: msgs) d := by
  have hlist : d.link.inbox ++ ([m].filter fun m => m.type != 0).map (fun m => (p, m)) ++ (msgs.filter fun m => m.type != 0).map (fun m => (p, m)) =
      d.link.inbox ++ ((m :: msgs).filter fun m => m.type != 0).map fun m => (p, m) := by
    rw [List.append_assoc, ← List.map_append, ← List.filter_append, List.singleton_append]
  unfold joined
  dsimp only
  rw [hlist]

theorem takeIn_broadcast {m : QMsg} (h : m.type = 0 ∨ (m.bcast = true ∧ knownType m.type = true)) : takeIn p d m = joined p [m] d := by
  unfold takeIn joined
  by_cases hidle : m.type = 0
  · rw [if_pos hidle, List.filter_cons_of_neg (by simp [hidle]), List.filter_nil, List.map_nil, List.append_nil]
  · obtain ⟨hbcast, hknown⟩ := h.resolve_left hidle
    rw [if_neg hidle, if_neg (by simp [hknown]), if_pos (by simp [hbcast]), List.filter_cons_of_pos (by simp [hidle]), List.filter_nil,
      List.map_singleton]
    rfl

theorem takeIns_broadcasts (msgs : List QMsg) : (∀ m ∈ msgs, m.type = 0 ∨ (m.bcast = true ∧ knownType m.type = true)) →
    ∀ d : Dev, (d.each msgs fun d m => takeIn p d m) = joined p msgs d := by
  induction msgs with
  | nil => exact fun _ d => joined_nil.symm
  | cons m msgs ih =>
    intro h d
    rw [each_cons, takeIn_broadcast (h m List.mem_cons_self), ih (fun x hx => h x (List.mem_cons_of_mem _ hx)), joined_cons]

end

end Sys2Proof.Proofs
end

section
/-!
SUPPORT. The ports of the Quire link (17_quire_link.md R523 to R530, R538, R543): training.
-/

namespace Sys2Proof.Proofs

open Sys2Proof Sys2Proof.Machine Sys2Proof.Laws

/-! What waits at a port without credit stays there (R527). -/

section
variable {d : Dev} {p : Nat} {m : QMsg}

theorem nextWaiting_none {q : QPort} {e : Bool × QMsg} (hwait : q.wait = [e]) (hcredit : q.credit.getD e.2.cls 0 < e.2.frames) :
    nextWaiting q = none := by
  have hmay : mayStart q e = false := by
    unfold mayStart
    rw [decide_eq_false (Nat.not_le.mpr hcredit), Bool.and_false, Bool.false_and]
  simp [nextWaiting, hwait, hmay]

/-- A port with no token whose one waiting message has no credit sends nothing. -/
theorem portFlush_noCredit {e : Bool × QMsg} (hstate : d.portState p = 2) (hwait : (d.port p).wait = [e]) (htoken : (d.port p).token = false)
    (hcredit : (d.port p).credit.getD e.2.cls 0 < e.2.frames) : portFlush p d = d := by
  have hsend : ∀ n, portSend n p d = d := fun n => by
    cases n with
    | zero => rfl
    | succ n =>
      rw [portSend]
      dsimp only
      rw [if_neg (by simp [hstate]), nextWaiting_none hwait hcredit]
      rfl
  have hpass : passToken p d = d := if_pos (by simp [htoken])
  unfold portFlush
  rw [hsend, hpass]
  exact hsend _

/-- The unit that has stamped a broadcast, which waits at a port. -/
def broadcastWaits (p : Nat) (m : QMsg) (d : Dev) : Dev :=
  (stamp { m with bcast := true } d).2.onPort p fun q =>
    { q with wait := q.wait ++ [(true, { (stamp { m with bcast := true } d).1 with up := p == 0 })] }

theorem sendOn_waits (hstate : d.portState p = 2) (hwait : (d.port p).wait = []) (htoken : (d.port p).token = false)
    (hcredit : (d.port p).credit.getD m.cls 0 < m.frames) : sendOn p m d = broadcastWaits p m d := by
  have hport : (broadcastWaits p m d).port p = { d.port p with wait := (d.port p).wait ++ [(true, { (stamp { m with bcast := true } d).1 with up := p == 0 })] } :=
    port_onPort_self _ _ _
  have hput : putWait p true (stamp { m with bcast := true } d).1 (stamp { m with bcast := true } d).2 = broadcastWaits p m d := by
    have hawake : (broadcastWaits p m d).portState p = 2 := hstate
    unfold putWait
    dsimp only
    rw [← broadcastWaits, hawake]
    rfl
  unfold sendOn
  rw [if_neg (by simp [hstate])]
  change portFlush p (putWait p true (stamp { m with bcast := true } d).1 (stamp { m with bcast := true } d).2) = _
  rw [hput]
  refine portFlush_noCredit (e := (true, { (stamp { m with bcast := true } d).1 with up := p == 0 })) hstate ?_ ?_ ?_
  · rw [hport, hwait]
    rfl
  · rw [hport]
    exact htoken
  · rw [hport]
    exact hcredit

theorem sendOn_down (h : d.portState p ≠ 2) : sendOn p m d = d := if_pos (by simpa using h)

end

/-! Training (R523, R524). -/

section
variable {d : Dev} {p q : Nat} {t : Trained} {m : QMsg}

/-- The TOPO message of a link that has come up, or has gone down. -/
def topoMsg (link state : Nat) (bare : Bool) : QMsg :=
  { type := 0x39, payload := takeFill 0#8 16 (leBytes 1 link ++ leBytes 1 state ++ leBytes 1 (bit bare)) }

theorem topoMsg_frames (link state : Nat) (bare : Bool) : (topoMsg link state bare).frames = 1 := by
  simp [topoMsg, QMsg.frames, QMsg.len, takeFill_length]

theorem topoMsg_cls (link state : Nat) (bare : Bool) : (topoMsg link state bare).cls = 0 := rfl

theorem sendTopo_one {link state : Nat} {bare : Bool} (hp : p < 2) (hother : d.portState (otherPort p) ≠ 2)
    (hkept : (sendOn p (topoMsg link state bare) d).portState (otherPort p) ≠ 2) :
    sendTopo link state bare d = sendOn p (topoMsg link state bare) d := by
  obtain rfl | rfl : p = 0 ∨ p = 1 := by omega
  · exact congrArg (sendOn 0 (topoMsg link state bare)) (sendOn_down hother)
  · exact sendOn_down hkept

theorem broadcastWaits_state (q : Nat) : (broadcastWaits p m d).portState q = d.portState q := rfl

/-- The report of a link that has come up waits at its port, for want of credit (R527, R530). -/
theorem sendTopo_waits {link : Nat} (hp : p < 2) (hactive : d.portState p = 2) (hdown : d.portState (otherPort p) ≠ 2) (hwait : (d.port p).wait = [])
    (htoken : (d.port p).token = false) (hcredit : (d.port p).credit = [0, 0, 0, 0]) (hm : m = topoMsg link 2 false) :
    sendTopo link 2 false d = broadcastWaits p m d := by
  have hcls : m.cls = 0 := by rw [hm, topoMsg_cls]
  have hframes : m.frames = 1 := by rw [hm, topoMsg_frames]
  have hsent : sendOn p m d = broadcastWaits p m d := sendOn_waits hactive hwait htoken (by rw [hcredit, hcls, hframes]; decide)
  have hkept : (sendOn p m d).portState (otherPort p) ≠ 2 := by
    rw [hsent, broadcastWaits_state]
    exact hdown
  rw [hm] at hkept
  rw [sendTopo_one hp hdown hkept, ← hm, hsent]

theorem headAttn_member (h : d.role = 0) : headAttn d = d := by
  unfold headAttn
  rw [h]
  rfl

/-- The registers of a port that has trained. -/
def linkFound (p : Nat) (t : Trained) (d : Dev) : Dev :=
  (((d.fs .QL_PSTAT_STATE 2 p).fs .QL_PSTAT_NARROW (bit (!(t.low && t.high))) p).fs .QL_PSTAT_REVERSED (bit t.reversed) p).fs .QL_PDELAY_DELAY
    t.delay p

theorem key_pdelay_ne_pstat (p q : Nat) : Reg.QL_PDELAY.key p 0 ≠ Reg.QL_PSTAT.key q 0 := by
  simp only [Reg.key, Reg.QL_PDELAY, Reg.QL_PSTAT]
  omega

theorem key_pstat_ne (h : p ≠ q) : Reg.QL_PSTAT.key p 0 ≠ Reg.QL_PSTAT.key q 0 := by
  simp only [Reg.key, Reg.QL_PSTAT]
  omega

theorem bit_lt (b : Bool) : bit b < 2 := by cases b <;> decide

theorem linkFound_fields (p : Nat) (d : Dev) (hdelay : t.delay < 65536) : (linkFound p t d).portState p = 2 ∧
    (linkFound p t d).fg .QL_PSTAT_NARROW p = bit (!(t.low && t.high)) ∧ (linkFound p t d).fg .QL_PSTAT_REVERSED p = bit t.reversed ∧
    (linkFound p t d).fg .QL_PDELAY_DELAY p = t.delay := by
  refine ⟨?_, ?_, ?_, fg_fs_of_lt _ p (by decide) hdelay⟩
  · unfold linkFound Dev.portState
    rw [fg_fs_ne _ .QL_PDELAY_DELAY .QL_PSTAT_STATE _ p 0 p 0 (key_pdelay_ne_pstat p p),
      fg_fs_same_reg _ .QL_PSTAT_REVERSED .QL_PSTAT_STATE _ p 0 rfl (by decide) (by decide),
      fg_fs_same_reg _ .QL_PSTAT_NARROW .QL_PSTAT_STATE _ p 0 rfl (by decide) (by decide), fg_fs_of_lt _ p (by decide) (by decide)]
  · unfold linkFound
    rw [fg_fs_ne _ .QL_PDELAY_DELAY .QL_PSTAT_NARROW _ p 0 p 0 (key_pdelay_ne_pstat p p),
      fg_fs_same_reg _ .QL_PSTAT_REVERSED .QL_PSTAT_NARROW _ p 0 rfl (by decide) (by decide), fg_fs_of_lt _ p (by decide) (bit_lt _)]
  · unfold linkFound
    rw [fg_fs_ne _ .QL_PDELAY_DELAY .QL_PSTAT_REVERSED _ p 0 p 0 (key_pdelay_ne_pstat p p), fg_fs_of_lt _ p (by decide) (bit_lt _)]

theorem linkFound_fg {x : Fld} {k : Nat} (hstat : Reg.QL_PSTAT.key p 0 ≠ x.reg.key k 0) (hdelay : Reg.QL_PDELAY.key p 0 ≠ x.reg.key k 0) :
    (linkFound p t d).fg x k = d.fg x k := by
  unfold linkFound
  rw [fg_fs_ne _ .QL_PDELAY_DELAY x _ p 0 k 0 hdelay, fg_fs_ne _ .QL_PSTAT_REVERSED x _ p 0 k 0 hstat,
    fg_fs_ne _ .QL_PSTAT_NARROW x _ p 0 k 0 hstat, fg_fs_ne _ .QL_PSTAT_STATE x _ p 0 k 0 hstat]

/-- A port as a cold training finds it: nothing of it is left but the time its token passed. -/
def coldPort (d : Dev) (p : Nat) : Dev := d.onPort p fun q => { trained := d.qtime + 1, passed := q.passed }

/-- A port just trained, before its first frame. -/
def trainedPort (p : Nat) (t : Trained) (d : Dev) : Dev :=
  (linkFound p t d).onPort p fun q => { q with busy := d.qtime, sent := [], steps := 0, upper := !t.low }

theorem linkFound_link (p : Nat) (t : Trained) (d : Dev) : (linkFound p t d).link = d.link := by
  unfold linkFound
  rw [fs_link, fs_link, fs_link, fs_link]

theorem onPort_state (p q : Nat) (f : QPort → QPort) (d : Dev) : (d.onPort p f).portState q = d.portState q := rfl

theorem onPort_fg (p : Nat) (f : QPort → QPort) (d : Dev) (x : Fld) (i j : Nat) : (d.onPort p f).fg x i j = d.fg x i j := rfl

theorem onPort_units (p : Nat) (f : QPort → QPort) (d : Dev) : (d.onPort p f).link.units = d.link.units := rfl

theorem trainedPort_port (p : Nat) (t : Trained) (d : Dev) : (trainedPort p t d).port p =
    { d.port p with busy := d.qtime, sent := [], steps := 0, upper := !t.low } := by
  have hsame : (linkFound p t d).port p = d.port p := by rw [Dev.port, Dev.port, linkFound_link]
  rw [trainedPort, port_onPort_self, hsame]

theorem trainedPort_state (p : Nat) (d : Dev) (hdelay : t.delay < 65536) : (trainedPort p t d).portState p = 2 := by
  rw [trainedPort, onPort_state]
  exact (linkFound_fields p d hdelay).1

theorem trainedPort_state_other (h : p ≠ q) : (trainedPort p t d).portState q = d.portState q := by
  rw [trainedPort, onPort_state]
  exact linkFound_fg (key_pstat_ne h) (key_pdelay_ne_pstat p q)

theorem trainedPort_units : (trainedPort p t d).link.units = d.link.units := by rw [trainedPort, onPort_units, linkFound_link]

theorem portUp_eq (p : Nat) (t : Trained) (d : Dev) : portUp p t d =
    flushPorts (idleFrame p ((trainedPort p t d).cond (!(trainedPort p t d).link.units.isEmpty)
      (linkState ((trainedPort p t d).portLink p) false false))) := rfl

/-- A port that comes up with nothing waiting sends one frame of IDLE. -/
theorem portUp_quiet (hp : p < 2) (hdelay : t.delay < 65536) (hunits : d.link.units = []) (hother : d.portState (otherPort p) ≠ 2)
    (hwait : (d.port p).wait = []) (htoken : (d.port p).token = false) (hretry : (d.port p).retry = []) :
    portUp p t d = sendFrame p [] false (trainedPort p t d) := by
  have hport := trainedPort_port p t d
  have hfirst : idleFrame p (trainedPort p t d) = sendFrame p [] false (trainedPort p t d) :=
    idleFrame_active (trainedPort_state p d hdelay) (by rw [hport, hretry]; decide)
  have hkept := sendFrame_kept (p := p) (d := trainedPort p t d) [] false
  have hstill : Still (sendFrame p [] false (trainedPort p t d)) p := .inr ⟨by rw [hkept.wait, hport, hwait], by rw [hkept.token, hport, htoken]⟩
  have hdown : Still (sendFrame p [] false (trainedPort p t d)) (otherPort p) :=
    .inl (ne_of_eq_of_ne ((onPort_state _ _ _ _).trans (trainedPort_state_other (otherPort_ne p).1.symm)) hother)
  rw [portUp_eq, trainedPort_units, hunits, List.isEmpty_nil, Bool.not_true, Laws.cond_false, hfirst, flushPorts_still hp hstill hdown]

theorem changes_onPort {keys : List Nat} {e u : Dev} {f : QPort → QPort} (h : Changes keys d e u) :
    Changes keys d (e.onPort p f) { u with link := (e.onPort p f).link } := by
  obtain ⟨hkept, hrest⟩ := h
  refine ⟨hkept, ?_⟩
  generalize hl : (e.onPort p f).link = l
  have hform : e.onPort p f = { e with link := l } := by rw [← hl]; rfl
  rw [hform, hrest]

/-- The unit whose port has trained from cold: the port has sent its first frame, and the report of the link waits. -/
def trainedUnit (p : Nat) (t : Trained) (d : Dev) : Dev := topoBit (portUp p t (coldPort d p))

theorem linkTraining_cold (hmay : d.mayTrain p = true) (hstate : d.portState p ≤ 1) (hlast : (d.port p).trained = 0) (hkinds : t.miswired = false)
    (hpass : (t.low || t.high) = true) : linkTraining p t d =
      headAttn (sendTopo ((trainedUnit p t d).portLink p) 2 t.bare (trainedUnit p t d)) := by
  unfold linkTraining
  rw [hmay, if_neg (by decide), if_neg (by omega), if_neg (by omega)]
  dsimp only
  rw [hlast, if_neg (by simp), hkinds, if_neg (by decide), hpass, if_neg (by decide)]
  rfl

/-- A training after which no link is reported awake and no count-off is called for. -/
theorem linkTrain_settled {w : Dev} (hgo : linkTraining p t d = w) (hslept : d.link.asleep.contains (d.portLink p) = false ∨ w.portState p ≠ 2)
    (hnumbered : (d.portState p < 2 && w.portState p == 2 && (t.bare || !w.is .QL_STAT_ADDR_VALID)) = false) : linkTrain p t d = w := by
  have hquiet : (d.link.asleep.contains (d.portLink p) && w.portState p == 2) = false := by
    obtain h | h := hslept
    · rw [h, Bool.false_and]
    · rw [beq_false_of_ne h, Bool.and_false]
  unfold linkTrain
  rw [hgo]
  dsimp only
  rw [hquiet, Laws.cond_false, hnumbered, Laws.cond_false]

theorem coldPort_port (d : Dev) (p : Nat) : (coldPort d p).port p = { trained := d.qtime + 1, passed := (d.port p).passed } := port_onPort_self _ _ _

theorem topoBit_fg {x : Fld} {k : Nat} (e : Dev) (h : Reg.QL_STAT.key 0 0 ≠ x.reg.key k 0) : (topoBit e).fg x k = e.fg x k :=
  fg_fs_ne _ .QL_STAT_TOPO x 1 0 0 k 0 h

theorem key_stat_ne_pstat (q : Nat) : Reg.QL_STAT.key 0 0 ≠ Reg.QL_PSTAT.key q 0 := by
  simp only [Reg.key, Reg.QL_STAT, Reg.QL_PSTAT]
  omega

theorem key_stat_ne_pdelay (q : Nat) : Reg.QL_STAT.key 0 0 ≠ Reg.QL_PDELAY.key q 0 := by
  simp only [Reg.key, Reg.QL_STAT, Reg.QL_PDELAY]
  omega

theorem topoBit_set (e : Dev) : (topoBit e).is .QL_STAT_TOPO = true := is_fs_one e (by decide) rfl

theorem topoBit_valid (e : Dev) : (topoBit e).is .QL_STAT_ADDR_VALID = e.is .QL_STAT_ADDR_VALID := is_fs_single e _ (by decide)

theorem topoBit_port (q : Nat) (e : Dev) : (topoBit e).port q = e.port q := by rw [Dev.port, Dev.port, topoBit, fs_link]

/-- The keys of the registers that a training writes. -/
def trainingKeys (p : Nat) : List Nat := [Reg.QL_PSTAT.key p 0, Reg.QL_PDELAY.key p 0, Reg.QL_STAT.key 0 0]

/-- A unit that has changed in registers among `keys` and in its link alone. -/
def KeysChanged (keys : List Nat) (d e : Dev) : Prop := Changes keys d e { d with link := e.link }

theorem keysChanged_refl (keys : List Nat) (d : Dev) : KeysChanged keys d d := changes_refl

theorem keysChanged_onPort {e : Dev} {f : QPort → QPort} {keys : List Nat} (h : KeysChanged keys d e) : KeysChanged keys d (e.onPort p f) := by
  have hport := changes_onPort (p := p) (f := f) h
  exact hport

theorem keysChanged_sendFrame {e : Dev} {body : Bytes} {null : Bool} {keys : List Nat} (h : KeysChanged keys d e) :
    KeysChanged keys d (sendFrame p body null e) := keysChanged_onPort h

theorem keysChanged_fs {e : Dev} {x : Fld} {v i : Nat} {keys : List Nat} (h : KeysChanged keys d e) (hx : x.reg.key i 0 ∈ keys) :
    KeysChanged keys d (e.fs x v i) := by
  unfold KeysChanged
  rw [fs_link]
  exact changes_fs h hx

theorem linkFound_changes {e : Dev} (h : KeysChanged (trainingKeys p) d e) : KeysChanged (trainingKeys p) d (linkFound p t e) :=
  keysChanged_fs (keysChanged_fs (keysChanged_fs (keysChanged_fs h List.mem_cons_self) List.mem_cons_self) List.mem_cons_self)
    (List.mem_cons_of_mem _ List.mem_cons_self)

theorem topoBit_changes {e : Dev} (h : KeysChanged (trainingKeys p) d e) : KeysChanged (trainingKeys p) d (topoBit e) :=
  keysChanged_fs h (List.mem_cons_of_mem _ (List.mem_cons_of_mem _ List.mem_cons_self))

section
variable (hp : p < 2) (hdelay : t.delay < 65536) (hunits : d.link.units = []) (hother : d.portState (otherPort p) ≠ 2)
include hp hdelay hunits hother

theorem trainedUnit_eq : trainedUnit p t d = topoBit (sendFrame p [] false (trainedPort p t (coldPort d p))) := by
  have hport := coldPort_port d p
  rw [trainedUnit, portUp_quiet (d := coldPort d p) hp hdelay hunits hother (by rw [hport]) (by rw [hport]) (by rw [hport])]

/-- The registers of a unit whose port has trained. -/
theorem trainedUnit_fg {x : Fld} {k : Nat} (hx : Reg.QL_STAT.key 0 0 ≠ x.reg.key k 0) :
    (trainedUnit p t d).fg x k = (linkFound p t (coldPort d p)).fg x k := by
  rw [trainedUnit_eq hp hdelay hunits hother, topoBit_fg _ hx, sendFrame, onPort_fg, trainedPort, onPort_fg]

theorem trainedUnit_port : ((trainedUnit p t d).port p).retry.length = 1 ∧ ((trainedUnit p t d).port p).trained = d.qtime + 1 ∧
    ((trainedUnit p t d).port p).wait = [] ∧ ((trainedUnit p t d).port p).token = false ∧ ((trainedUnit p t d).port p).credit = [0, 0, 0, 0] := by
  have hport := trainedPort_port p t (coldPort d p)
  have hkept := sendFrame_kept (p := p) (d := trainedPort p t (coldPort d p)) [] false
  rw [coldPort_port] at hport
  rw [trainedUnit_eq hp hdelay hunits hother, topoBit_port, sendFrame_retry, hkept.trained, hkept.wait, hkept.token, hkept.credit, hport]
  exact ⟨rfl, rfl, rfl, rfl, rfl⟩

theorem trainedUnit_changes : KeysChanged (trainingKeys p) d (trainedUnit p t d) := by
  rw [trainedUnit_eq hp hdelay hunits hother]
  have hcold : KeysChanged (trainingKeys p) d (coldPort d p) := keysChanged_onPort (keysChanged_refl _ d)
  have htrained : KeysChanged (trainingKeys p) d (trainedPort p t (coldPort d p)) := keysChanged_onPort (linkFound_changes hcold)
  exact topoBit_changes (keysChanged_sendFrame htrained)

theorem trainedUnit_state : (trainedUnit p t d).portState p = 2 ∧ (trainedUnit p t d).portState (otherPort p) ≠ 2 := by
  have hfields := linkFound_fields (t := t) p (coldPort d p) hdelay
  have hup := trainedUnit_fg (x := .QL_PSTAT_STATE) (k := p) hp hdelay hunits hother (key_stat_ne_pstat p)
  have hkept := trainedUnit_fg (x := .QL_PSTAT_STATE) (k := otherPort p) hp hdelay hunits hother (key_stat_ne_pstat _)
  have hcold := linkFound_fg (d := coldPort d p) (t := t) (x := .QL_PSTAT_STATE) (key_pstat_ne (otherPort_ne p).1.symm) (key_pdelay_ne_pstat p (otherPort p))
  refine ⟨hup.trans hfields.1, ?_⟩
  rw [Dev.portState, hkept, hcold]
  exact hother

theorem trainedUnit_role (hrole : d.role = 0) : (trainedUnit p t d).role = 0 := by
  have hkept := trainedUnit_fg (x := .QL_ID_ROLE) (k := 0) hp hdelay hunits hother (by decide)
  have hcold := linkFound_fg (d := coldPort d p) (t := t) (p := p) (x := .QL_ID_ROLE) (k := 0)
    (by simp only [Reg.key, Reg.QL_PSTAT, Fld.QL_ID_ROLE, Reg.QL_ID]; omega) (by simp only [Reg.key, Reg.QL_PDELAY, Fld.QL_ID_ROLE, Reg.QL_ID]; omega)
  rw [Dev.role, hkept, hcold]
  exact hrole

theorem trainedUnit_valid (hvalid : d.is .QL_STAT_ADDR_VALID = true) : (trainedUnit p t d).is .QL_STAT_ADDR_VALID = true := by
  have hcold := linkFound_fg (d := coldPort d p) (t := t) (p := p) (x := .QL_STAT_ADDR_VALID) (k := 0) (key_stat_ne_pstat p).symm
    (key_stat_ne_pdelay p).symm
  rw [trainedUnit_eq hp hdelay hunits hother, topoBit_valid, Dev.is, sendFrame, onPort_fg, trainedPort, onPort_fg, hcold]
  exact hvalid

/-- What a cold training that passes leaves (R523, R524). -/
theorem linkTrain_cold (hmay : d.mayTrain p = true) (hstate : d.portState p ≤ 1) (hlast : (d.port p).trained = 0) (hkinds : t.miswired = false)
    (hpass : (t.low || t.high) = true) (hasleep : d.link.asleep = []) (hvalid : d.is .QL_STAT_ADDR_VALID = true) (hbare : t.bare = false)
    (hrole : d.role = 0) : linkTrain p t d =
      broadcastWaits p (topoMsg ((trainedUnit p t d).portLink p) 2 false) (trainedUnit p t d) := by
  obtain ⟨-, -, hwait, htoken, hcredit⟩ := trainedUnit_port hp hdelay hunits hother
  obtain ⟨hactive, hdown⟩ := trainedUnit_state hp hdelay hunits hother
  have hmember := trainedUnit_role hp hdelay hunits hother hrole
  have hnumbered := trainedUnit_valid hp hdelay hunits hother hvalid
  have hcold := linkTraining_cold hmay hstate hlast hkinds hpass
  rw [hbare] at hcold
  revert hcold
  generalize trainedUnit p t d = u at *
  intro hcold
  have hstays : (broadcastWaits p (topoMsg (u.portLink p) 2 false) u).role = 0 := hmember
  rw [sendTopo_waits hp hactive hdown hwait htoken hcredit rfl, headAttn_member hstays] at hcold
  have hstill : (broadcastWaits p (topoMsg (u.portLink p) 2 false) u).is .QL_STAT_ADDR_VALID = true := hnumbered
  exact linkTrain_settled hcold (.inl (by rw [hasleep]; rfl)) (by rw [hbare, hstill]; exact Bool.and_false _)

end

end

end Sys2Proof.Proofs
end

section
/-!
SUPPORT. The ports of the Quire link (17_quire_link.md R523 to R530, R538, R543): a port that goes down.
-/

namespace Sys2Proof.Proofs

open Sys2Proof Sys2Proof.Machine Sys2Proof.Laws

section
variable {d : Dev} {p : Nat} {t : Trained}

theorem broadcastWaits_port (m : QMsg) : (broadcastWaits p m d).port p = { d.port p with
    wait := (d.port p).wait ++ [(true, { (stamp { m with bcast := true } d).1 with up := p == 0 })] } := port_onPort_self _ _ _

theorem keysChanged_broadcastWaits {e : Dev} {m : QMsg} {keys : List Nat} (h : KeysChanged keys d e) : KeysChanged keys d (broadcastWaits p m e) := by
  obtain ⟨hkept, hrest⟩ := h
  refine ⟨hkept, ?_⟩
  generalize hl : (broadcastWaits p m e).link = l
  have hform : broadcastWaits p m e = { e with link := l } := by rw [← hl]; rfl
  rw [hform, hrest]

/-- A unit whose port has trained from cold: what the obligation says of it. -/
theorem trained_gives (hp : p < 2) (hdelay : t.delay < 65536) (hunits : d.link.units = []) (hother : d.portState (otherPort p) ≠ 2) {m : QMsg}
    (htype : m.type = 0x39) {r : Dev} (hr : r = broadcastWaits p m (trainedUnit p t d)) : r.portState p = 2 ∧
      r.fg .QL_PSTAT_NARROW p = bit (!(t.low && t.high)) ∧ r.fg .QL_PSTAT_REVERSED p = bit t.reversed ∧ r.fg .QL_PDELAY_DELAY p = t.delay ∧
      r.is .QL_STAT_TOPO = true ∧ (r.port p).retry.length = 1 ∧ (r.port p).trained = d.qtime + 1 ∧
      ((r.port p).wait.map fun e => (e.1, e.2.type)) = [(true, 0x39)] ∧
      Changes [Reg.QL_PSTAT.key p 0, Reg.QL_PDELAY.key p 0, Reg.QL_STAT.key 0 0] d r { d with link := r.link } := by
  obtain ⟨hretry, htrained, hwait, -, -⟩ := trainedUnit_port (t := t) hp hdelay hunits hother
  obtain ⟨hactive, -⟩ := trainedUnit_state (t := t) hp hdelay hunits hother
  obtain ⟨-, hnarrow, hreversed, hfound⟩ := linkFound_fields p (coldPort d p) hdelay
  have hchanges := trainedUnit_changes (t := t) hp hdelay hunits hother
  have hkept := fun (x : Fld) => trainedUnit_fg (t := t) (x := x) (k := p) hp hdelay hunits hother
  have htopo : (trainedUnit p t d).is .QL_STAT_TOPO = true := by rw [trainedUnit_eq hp hdelay hunits hother]; exact topoBit_set _
  rw [← hkept .QL_PSTAT_NARROW (key_stat_ne_pstat p)] at hnarrow
  rw [← hkept .QL_PSTAT_REVERSED (key_stat_ne_pstat p)] at hreversed
  rw [← hkept .QL_PDELAY_DELAY (key_stat_ne_pdelay p)] at hfound
  generalize trainedUnit p t d = u at *
  have hport := broadcastWaits_port (p := p) (d := u) m
  have hkeys := keysChanged_broadcastWaits (p := p) (m := m) hchanges
  rw [← hr] at hport hkeys
  have hfg : ∀ (x : Fld) (k : Nat), r.fg x k = u.fg x k := fun x k => by rw [hr]; rfl
  refine ⟨(hfg .QL_PSTAT_STATE p).trans hactive, (hfg _ _).trans hnarrow, (hfg _ _).trans hreversed, (hfg _ _).trans hfound,
    (congrArg (· == 1) (hfg _ _)).trans htopo, ?_, ?_, ?_, hkeys⟩
  · rw [hport]
    exact hretry
  · rw [hport]
    exact htrained
  · rw [hport, hwait, List.nil_append, List.map_singleton]
    exact congrArg (fun n => [(true, n)]) htype

/-! A port that goes down (R530). -/

/-- The registers of a port that has gone down. -/
def downNoted (p : Nat) (d : Dev) : Dev := topoBit (((d.fs .QL_PSTAT_STATE 0 p).fs .QL_PSTAT_NARROW 0 p).bump .QL_CNT_DOWN p)

/-- The unit whose port has gone down with nothing to send. -/
def portFreed (p : Nat) (d : Dev) : Dev :=
  (downNoted p d).onPort p fun _ => { trained := (d.port p).trained, passed := (d.port p).passed }

theorem key_down_ne_pstat (p q : Nat) : Reg.QL_CNT_DOWN.key p 0 ≠ Reg.QL_PSTAT.key q 0 := by
  simp only [Reg.key, Reg.QL_CNT_DOWN, Reg.QL_PSTAT]
  omega

theorem downNoted_fg {x : Fld} {k : Nat} (hstat : Reg.QL_STAT.key 0 0 ≠ x.reg.key k 0) (hcount : Reg.QL_CNT_DOWN.key p 0 ≠ x.reg.key k 0)
    (hport : Reg.QL_PSTAT.key p 0 ≠ x.reg.key k 0) : (downNoted p d).fg x k = d.fg x k := by
  rw [downNoted, topoBit_fg _ hstat, Dev.bump, fg_wr_ne _ _ hcount, fg_fs_ne _ .QL_PSTAT_NARROW x _ p 0 k 0 hport,
    fg_fs_ne _ .QL_PSTAT_STATE x _ p 0 k 0 hport]

theorem downNoted_state : (downNoted p d).portState p = 0 ∧ (downNoted p d).is .QL_PSTAT_NARROW p = false := by
  have hcount := key_down_ne_pstat p p
  constructor
  · rw [Dev.portState, downNoted, topoBit_fg (x := .QL_PSTAT_STATE) _ (key_stat_ne_pstat p), Dev.bump, fg_wr_ne (x := .QL_PSTAT_STATE) _ _ hcount,
      fg_fs_same_reg _ .QL_PSTAT_NARROW .QL_PSTAT_STATE _ p 0 rfl (by decide) (by decide), fg_fs_of_lt _ p (by decide) (by decide)]
  · rw [Dev.is, downNoted, topoBit_fg (x := .QL_PSTAT_NARROW) _ (key_stat_ne_pstat p), Dev.bump, fg_wr_ne (x := .QL_PSTAT_NARROW) _ _ hcount, fg_fs_of_lt _ p (by decide) (by decide)]
    rfl

theorem downNoted_link (p : Nat) (d : Dev) : (downNoted p d).link = d.link := by
  rw [downNoted, topoBit, fs_link, bump_link, fs_link, fs_link]

theorem downNoted_count : (downNoted p d).rd .QL_CNT_DOWN p = (d.bump .QL_CNT_DOWN p).rd .QL_CNT_DOWN p := by
  have hstat : Reg.QL_STAT.key 0 0 ≠ Reg.QL_CNT_DOWN.key p 0 := by
    simp only [Reg.key, Reg.QL_STAT, Reg.QL_CNT_DOWN]
    omega
  have hkept : ((d.fs .QL_PSTAT_STATE 0 p).fs .QL_PSTAT_NARROW 0 p).rd .QL_CNT_DOWN p = d.rd .QL_CNT_DOWN p :=
    (rd_wr_ne _ .QL_PSTAT .QL_CNT_DOWN _ p 0 p 0 (key_down_ne_pstat p p).symm).trans
      (rd_wr_ne _ .QL_PSTAT .QL_CNT_DOWN _ p 0 p 0 (key_down_ne_pstat p p).symm)
  refine (rd_wr_ne _ .QL_STAT .QL_CNT_DOWN _ 0 0 p 0 hstat).trans ?_
  rw [Dev.bump, rd_wr, Dev.bump, rd_wr, hkept]

theorem portFreed_port (p : Nat) (d : Dev) : (portFreed p d).port p = { trained := (d.port p).trained, passed := (d.port p).passed } :=
  port_onPort_self _ _ _

theorem keysChanged_bump {e : Dev} {r : Reg} {i : Nat} {keys : List Nat} (h : KeysChanged keys d e) (hr : r.key i 0 ∈ keys) :
    KeysChanged keys d (e.bump r i) := by
  unfold KeysChanged
  rw [bump_link]
  exact changes_wr h hr

theorem portFreed_changes {keys : List Nat} {e : Dev} (h : KeysChanged keys d e)
    (hkeys : ∀ k ∈ [Reg.QL_PSTAT.key p 0, Reg.QL_CNT_DOWN.key p 0, Reg.QL_STAT.key 0 0], k ∈ keys) : KeysChanged keys d (portFreed p e) :=
  keysChanged_onPort (keysChanged_fs (keysChanged_bump (keysChanged_fs (keysChanged_fs h (hkeys _ (by simp [Fld.QL_PSTAT_STATE])))
    (hkeys _ (by simp [Fld.QL_PSTAT_NARROW]))) (hkeys _ (by simp))) (hkeys _ (by simp [Fld.QL_STAT_TOPO])))

/-- The messages of a port that goes down: those of its unacknowledged frames, and those that wait. -/
def portMsgs (p : Nat) (d : Dev) : List (Bool × QMsg) :=
  let old := (d.port p).retry.flatMap fun f => if f.2.1 then [] else f.2.2
  ((takeMsgs old.length old).1.map fun m => (m.src == d.addr, m)) ++ (d.port p).wait

theorem portDown_open (hstate : d.portState p ≠ 0) : portDown p d = headAttn (flushPorts (sendTopo (d.portLink p) 0 false
    (((((portFreed p d).cond (!(portFreed p d).link.units.isEmpty) (linkState (d.portLink p) true false)).cond (d.port p).token fun d =>
      d.onPort (otherPort p) fun x => { x with token := true, quota := limitN 1 4095 (d.fg .QL_QUOTA_Q) }).each
        (portMsgs p d).reverse fun d e => resend e d)))) := by
  unfold portDown
  rw [if_neg (by simp [hstate])]
  rfl

theorem portFreed_fg {x : Fld} {k : Nat} (hstat : Reg.QL_STAT.key 0 0 ≠ x.reg.key k 0) (hcount : Reg.QL_CNT_DOWN.key p 0 ≠ x.reg.key k 0)
    (hport : Reg.QL_PSTAT.key p 0 ≠ x.reg.key k 0) : (portFreed p d).fg x k = d.fg x k :=
  (onPort_fg _ _ _ _ _ _).trans (downNoted_fg hstat hcount hport)

theorem portFreed_down (hother : d.portState (otherPort p) ≠ 2) : (portFreed p d).portState p ≠ 2 ∧ (portFreed p d).portState (otherPort p) ≠ 2 := by
  have hkept := portFreed_fg (d := d) (p := p) (x := .QL_PSTAT_STATE) (k := otherPort p) (key_stat_ne_pstat _) (key_down_ne_pstat _ _)
    (key_pstat_ne (otherPort_ne p).1.symm)
  rw [Dev.portState, Dev.portState, hkept, portFreed, onPort_fg]
  exact ⟨ne_of_eq_of_ne downNoted_state.1 (by decide), hother⟩

theorem portFreed_role : (portFreed p d).role = d.role :=
  portFreed_fg (x := .QL_ID_ROLE) (k := 0) (by decide) (by simp only [Reg.key, Reg.QL_CNT_DOWN, Fld.QL_ID_ROLE, Reg.QL_ID]; omega)
    (by simp only [Reg.key, Reg.QL_PSTAT, Fld.QL_ID_ROLE, Reg.QL_ID]; omega)

theorem portFreed_units : (portFreed p d).link.units = d.link.units := by rw [portFreed, onPort_units, downNoted_link]

theorem sendTopo_down {link state : Nat} {bare : Bool} (h : ∀ q < 2, d.portState q ≠ 2) : sendTopo link state bare d = d := by
  unfold sendTopo
  dsimp only
  rw [sendOn_down (h 1 (by decide)), sendOn_down (h 0 (by decide))]

/-- A port with nothing to send, of a unit with no map, goes down and is reported to nobody. -/
theorem portDown_quiet (hp : p < 2) (hstate : d.portState p ≠ 0) (hother : d.portState (otherPort p) ≠ 2) (hrole : d.role = 0)
    (hunits : d.link.units = []) (hretry : (d.port p).retry = []) (hwait : (d.port p).wait = []) (htoken : (d.port p).token = false) :
    portDown p d = portFreed p d := by
  obtain ⟨hself, hfar⟩ := portFreed_down hother
  have hmsgs : portMsgs p d = [] := by
    unfold portMsgs
    rw [hretry, hwait]
    rfl
  have hdown : ∀ q < 2, (portFreed p d).portState q ≠ 2 := fun q hq => by
    by_cases hqp : q = p
    · rw [hqp]
      exact hself
    · have hqo : q = otherPort p := by
        obtain ⟨hne, hlt⟩ := otherPort_ne p
        omega
      rw [hqo]
      exact hfar
  have hflush := flushPorts_still (d := portFreed p d) hp (.inl hself) (.inl hfar)
  rw [portDown_open hstate, portFreed_units, hunits, htoken, hmsgs, List.isEmpty_nil, Bool.not_true, Laws.cond_false, Laws.cond_false,
    List.reverse_nil, each_nil, sendTopo_down hdown, hflush]
  exact headAttn_member (portFreed_role.trans hrole)

end

end Sys2Proof.Proofs
end

section
/-!
SUPPORT. The ports of the Quire link (17_quire_link.md R525 to R530, R538, R543): frames received and replayed, and the wake signal.
-/

namespace Sys2Proof.Proofs

open Sys2Proof Sys2Proof.Machine Sys2Proof.Laws

section
variable {d : Dev} {p : Nat} {m : QMsg}

/-! Replay (R528). -/

theorem frameReplay_again (hstate : d.portState p = 2) (hnakd : (d.port p).nakd = true) (hfew : (d.port p).replays < 3) :
    frameReplay p d = replayFrames p (d.onPort p fun q => { q with replays := q.replays + 1 }) := by
  unfold frameReplay
  rw [if_neg (by simp [hstate, hnakd]), if_neg (by omega)]

theorem portRetrain_active (hstate : d.portState p = 2) :
    portRetrain p d = ((d.fs .QL_PSTAT_STATE 4 p).bump .QL_CNT_RETRAIN p).onPort p fun q => { q with errs := [] } :=
  if_neg (by simp [hstate])

theorem frameReplay_often (hstate : d.portState p = 2) (hnakd : (d.port p).nakd = true) (hmany : 3 ≤ (d.port p).replays) :
    frameReplay p d = ((d.fs .QL_PSTAT_STATE 4 p).bump .QL_CNT_RETRAIN p).onPort p fun q => { q with errs := [] } := by
  unfold frameReplay
  rw [if_neg (by simp [hstate, hnakd]), if_pos hmany, portRetrain_active hstate]

/-- What a replay leaves of its port: the frames, their numbers, and the latest of them as what was sent last. -/
theorem replayFrames_port {r : Dev} (hr : r = replayFrames p d) : (r.port p).replays = (d.port p).replays ∧ (r.port p).nakd = false ∧
    (r.port p).retry = (d.port p).retry ∧ (r.port p).txSeq = (d.port p).txSeq ∧
    (∀ f ∈ (d.port p).retry.getLast?, (r.port p).sent = frameBytes f.2.2 f.1 f.2.1 (d.port p)) := by
  rw [hr, replayFrames, port_onPort_self]
  refine ⟨rfl, rfl, rfl, rfl, fun f hf => ?_⟩
  dsimp only
  rw [Option.mem_def.mp hf]

/-! Frames received (R525 to R528). -/

/-- A port that has taken a frame in order, with the credit its trailer brings. -/
def inOrder (t : Nat) (q : QPort) : QPort :=
  { q with rxSeq := bitsOf t 32 12, rxAny := true, naking := false, credit := q.credit.zipIdx.map fun c => c.1 + bitsOf t (64 + 8 * c.2) 8 }

/-- A port that keeps the flits of a message not whole yet. -/
def withPart (rest : Bytes) (q : QPort) : QPort := { q with part := rest }

/-- A port that was busy at a time. -/
def busyAt (time : Nat) (q : QPort) : QPort := { q with busy := time }

/-- The unit whose port has taken a frame's flits. -/
def flitsTaken (p t : Nat) (rest : Bytes) (d : Dev) : Dev := (d.onPort p (inOrder t)).onPort p (withPart rest)

/-- The unit whose port was busy with a frame's messages, where it brought any. -/
def busyNoted (p : Nat) (any : Bool) (d : Dev) : Dev := d.cond any fun d => d.onPort p (busyAt d.qtime)

/-- The unit with a frame's messages joined to its inbox. -/
def frameTaken (p t : Nat) (msgs : List QMsg) (rest : Bytes) (d : Dev) : Dev :=
  joined p msgs (busyNoted p (msgs.any fun m => m.type != 0) (flitsTaken p t rest d))

theorem busyNoted_port (any : Bool) : ∃ b, (busyNoted p any d).port p = { d.port p with busy := b } := by
  cases any
  · exact ⟨(d.port p).busy, rfl⟩
  · exact ⟨d.qtime, port_onPort_self _ _ _⟩

theorem flitsTaken_port (t : Nat) (rest : Bytes) : (flitsTaken p t rest d).port p = withPart rest (inOrder t (d.port p)) := by
  rw [flitsTaken, port_onPort_self, port_onPort_self]

theorem frameTaken_port (t : Nat) (msgs : List QMsg) (rest : Bytes) :
    ∃ b, (frameTaken p t msgs rest d).port p = busyAt b (withPart rest (inOrder t (d.port p))) := by
  obtain ⟨b, hb⟩ := busyNoted_port (d := flitsTaken p t rest d) (p := p) (msgs.any fun m => m.type != 0)
  rw [flitsTaken_port] at hb
  exact ⟨b, hb⟩

theorem onPort_ports (f : QPort → QPort) : ∃ ports, d.onPort p f = { d with link := { d.link with ports := ports } } := ⟨_, rfl⟩

theorem busyNoted_ports (any : Bool) : ∃ ports, busyNoted p any d = { d with link := { d.link with ports := ports } } := by
  cases any
  · exact ⟨d.link.ports, rfl⟩
  · exact onPort_ports _

theorem frameTaken_link (t : Nat) (msgs : List QMsg) (rest : Bytes) : ∃ ports, frameTaken p t msgs rest d = { d with
    link := { d.link with ports := ports, inbox := d.link.inbox ++ (msgs.filter fun m => m.type != 0).map fun m => (p, m) } } := by
  obtain ⟨ports, hports⟩ := busyNoted_ports (d := flitsTaken p t rest d) (p := p) (msgs.any fun m => m.type != 0)
  refine ⟨ports, ?_⟩
  rw [frameTaken, hports]
  rfl

/-- What taking a frame's messages leaves of the unit, before its port sends. -/
def frameRest (p : Nat) (r : List QMsg × Bytes) (d : Dev) : Dev :=
  let d := busyNoted p (r.1.any fun m => m.type != 0) (d.onPort p (withPart r.2))
  let d := d.each r.1 fun d m => takeIn p d m
  let d := flushPorts (d.cond (r.1.any fun m => m.type != 0) (idleFrame p))
  carryHeld d.host.held.length d

theorem frameReceive_inOrder {frame : Bytes} {t : Nat} (hstate : d.portState p = 2) (ht : t = leNat ((frame.drop 256).take 16))
    (hcrc : crc32c (frame.take 256 ++ (frame.drop 260).take 12) = bitsOf t 0 32) (hseq : bitsOf t 32 12 = ((d.port p).rxSeq + 1) % 4096)
    (hack : t.testBit 56 = false) (hnull : t.testBit 58 = false) : frameReceive p frame false d =
      frameRest p (takeMsgs 32 (((d.onPort p (inOrder t)).port p).part ++ frame.take 256)) (d.onPort p (inOrder t)) := by
  have hgood : (crc32c (frame.take 256 ++ (frame.drop 260).take 12) == bitsOf t 0 32 && bitsOf t 32 12 == ((d.port p).rxSeq + 1) % 4096) = true := by
    rw [hcrc, hseq, beq_self_eq_true, beq_self_eq_true]
    rfl
  unfold frameReceive
  rw [if_neg (by simp [hstate]), ← ht]
  dsimp only
  rw [hgood, hack, hnull]
  simp only [Bool.not_true, Bool.false_eq_true, if_false, Laws.cond_false]
  unfold frameRest busyNoted inOrder withPart busyAt
  exact rfl

/-- Taking a frame's messages, sent on from there: what a port has to send goes out, and held writes are carried. -/
def settle (d : Dev) : Dev := carryHeld (flushPorts d).host.held.length (flushPorts d)

theorem frameRest_broadcasts {msgs : List QMsg} {rest : Bytes} {t : Nat} (hbroad : ∀ m ∈ msgs, m.type = 0 ∨ (m.bcast = true ∧ knownType m.type = true)) :
    frameRest p (msgs, rest) (d.onPort p (inOrder t)) = settle ((frameTaken p t msgs rest d).cond (msgs.any fun m => m.type != 0) (idleFrame p)) := by
  unfold frameRest
  dsimp only
  rw [takeIns_broadcasts msgs hbroad, frameTaken, flitsTaken, settle]

theorem settle_still (hp : p < 2) (h : Still d p) (hother : Still d (otherPort p)) (hheld : d.host.held = []) : settle d = d := by
  unfold settle
  rw [flushPorts_still hp h hother, hheld, List.length_nil, carryHeld]

/-- A unit that has taken a frame's messages has nothing to send, as before. -/
theorem frameTaken_still {msgs : List QMsg} {rest : Bytes} {t : Nat} (hquiet : d.Quiet p) : Still (frameTaken p t msgs rest d) p ∧
    Still (frameTaken p t msgs rest d) (otherPort p) ∧ (frameTaken p t msgs rest d).host.held = [] := by
  obtain ⟨hwait, htoken, hother, hheld⟩ := hquiet
  obtain ⟨b, hport⟩ := frameTaken_port (d := d) (p := p) t msgs rest
  obtain ⟨ports, hform⟩ := frameTaken_link (d := d) (p := p) t msgs rest
  refine ⟨.inr ?_, .inl ?_, ?_⟩
  · rw [hport]
    exact ⟨hwait, htoken⟩
  · rw [hform]
    exact hother
  · rw [hform]
    exact hheld

theorem idleFrame_still (h : Still d p) : Still (idleFrame p d) p := by
  obtain ⟨ports, hports⟩ := idleFrame_ports p d
  have hkept := idleFrame_kept p d
  obtain hdown | ⟨hwait, htoken⟩ := h
  · refine .inl ?_
    rw [hports]
    exact hdown
  · exact .inr ⟨hkept.wait.trans hwait, hkept.token.trans htoken⟩

theorem idleFrame_still_ne {q : Nat} (hne : p ≠ q) (h : Still d q) : Still (idleFrame p d) q := by
  obtain ⟨ports, hports⟩ := idleFrame_ports p d
  obtain hdown | hquiet := h
  · refine .inl ?_
    rw [hports]
    exact hdown
  · refine .inr ?_
    rw [idleFrame_port_ne hne]
    exact hquiet

/-- Sending IDLE or nothing leaves a unit that had nothing to send as it is. -/
theorem settle_answered {any : Bool} (hp : p < 2) (h : Still d p) (hother : Still d (otherPort p)) (hheld : d.host.held = []) :
    settle (d.cond any (idleFrame p)) = d.cond any (idleFrame p) := by
  cases any
  · exact settle_still hp h hother hheld
  · obtain ⟨ports, hports⟩ := idleFrame_ports p d
    have hnone : (idleFrame p d).host.held = [] := by
      rw [hports]
      exact hheld
    exact settle_still hp (idleFrame_still h) (idleFrame_still_ne (otherPort_ne p).1.symm hother) hnone

/-- A frame in order whose CRC is right, with nothing acknowledged and broadcasts alone: its messages join the inbox, and a port that has
nothing to send answers with IDLE where there was any. -/
theorem frameReceive_good {frame rest : Bytes} {t : Nat} {msgs : List QMsg} (hp : p < 2) (hstate : d.portState p = 2) (hquiet : d.Quiet p)
    (ht : t = leNat ((frame.drop 256).take 16))
    (hcrc : crc32c (frame.take 256 ++ (frame.drop 260).take 12) = bitsOf t 0 32) (hseq : bitsOf t 32 12 = ((d.port p).rxSeq + 1) % 4096)
    (hack : t.testBit 56 = false) (hnull : t.testBit 58 = false) (hmsgs : takeMsgs 32 ((d.port p).part ++ frame.take 256) = (msgs, rest))
    (hbroad : ∀ m ∈ msgs, m.type = 0 ∨ (m.bcast = true ∧ knownType m.type = true)) : frameReceive p frame false d =
      (frameTaken p t msgs rest d).cond (msgs.any fun m => m.type != 0) (idleFrame p) := by
  have hpart : ((d.onPort p (inOrder t)).port p).part = (d.port p).part := (congrArg QPort.part (port_onPort_self d p (inOrder t))).trans rfl
  obtain ⟨hself, hother, hheld⟩ := frameTaken_still (msgs := msgs) (rest := rest) (t := t) hquiet
  rw [frameReceive_inOrder hstate ht hcrc hseq hack hnull, hpart, hmsgs, frameRest_broadcasts hbroad]
  exact settle_answered hp hself hother hheld

/-- What taking such a frame leaves of the unit. -/
theorem frameTaken_gives {msgs : List QMsg} {rest : Bytes} {t : Nat} {any : Bool} {r : Dev}
    (hr : r = (frameTaken p t msgs rest d).cond any (idleFrame p)) :
    r.link.inbox = d.link.inbox ++ (msgs.filter fun m => m.type != 0).map (fun m => (p, m)) ∧
      (r.port p).rxSeq = bitsOf t 32 12 ∧ (r.port p).rxAny = true ∧ (r.port p).naking = false ∧ (r.port p).part = rest ∧
      (r.port p).credit = (d.port p).credit.zipIdx.map (fun c => c.1 + bitsOf t (64 + 8 * c.2) 8) ∧
      r = { d with link := { d.link with ports := r.link.ports, inbox := r.link.inbox } } := by
  obtain ⟨b, hport⟩ := frameTaken_port (d := d) (p := p) t msgs rest
  obtain ⟨ports, hform⟩ := frameTaken_link (d := d) (p := p) t msgs rest
  have hsent : (∃ ports, r = { frameTaken p t msgs rest d with link := { (frameTaken p t msgs rest d).link with ports := ports } }) ∧
      SendKept ((frameTaken p t msgs rest d).port p) (r.port p) := by
    rw [hr]
    cases any
    · exact ⟨⟨_, rfl⟩, ⟨rfl, rfl, rfl, rfl, rfl, rfl, rfl, rfl⟩⟩
    · exact ⟨idleFrame_ports p _, idleFrame_kept p _⟩
  clear hr
  generalize frameTaken p t msgs rest d = u at *
  obtain ⟨⟨sent, hlink⟩, hkept⟩ := hsent
  rw [hport] at hkept
  rw [hform] at hlink
  exact ⟨by rw [hlink], hkept.rxSeq, hkept.rxAny, hkept.naking, hkept.part, hkept.credit, by rw [hlink]⟩

theorem frameReceive_corrupt {frame : Bytes} (hstate : d.portState p = 2) (hnaking : (d.port p).naking = false) (herrs : (d.port p).errs = [])
    (hcrc : crc32c (frame.take 256 ++ (frame.drop 260).take 12) ≠ bitsOf (leNat ((frame.drop 256).take 16)) 0 32) :
    frameReceive p frame false d = idleFrame p ((d.bump .QL_CNT_CRC p).onPort p fun q => { q with naking := true, errs := [d.qtime] }) := by
  unfold frameReceive
  rw [if_neg (by simp [hstate])]
  dsimp only
  rw [if_pos (by simp [hcrc])]
  unfold frameBad
  rw [Bool.false_and, Laws.cond_false]
  dsimp only
  rw [hnaking, if_neg (by decide), herrs]
  rfl

/-! The wake signal (R543). -/

/-- A DORMANT unit that has counted a wake by its link. -/
def wakeNoted (d : Dev) : Dev := (d.fs .PMU_WAKE_CAUSE 4).bump .PMU_CNT_WAKE

/-- The unit whose LINK island a wake signal has brought up. -/
def linkAwake (d : Dev) : Dev :=
  { (d.fs .PMU_STAT_ISL (d.fg .PMU_STAT_ISL ||| 1)).fs .CLK_STAT_LOCKED 1 with aon := { d.aon with asleep := false } }

/-- The unit whose port a wake signal makes retrain. -/
def portWoken (p : Nat) (d : Dev) : Dev := (d.fs .QL_PSTAT_STATE 4 p).onPort p fun q => { q with busy := d.qtime }

theorem portWake_open (hstate : d.portState p = 3) (hmode : d.mode = 1) :
    portWake p d = portWoken p (if !(wakeNoted d).aon.asleep then wakeNoted d else linkAwake (wakeNoted d)) := by
  unfold portWake
  rw [if_neg (by simp [hstate]), hmode]
  rfl

theorem portWake_awake (hstate : d.portState p = 3) (hmode : d.mode = 1) (hawake : d.aon.asleep = false) :
    portWake p d = portWoken p (wakeNoted d) := by
  have hstays : (wakeNoted d).aon.asleep = false := hawake
  rw [portWake_open hstate hmode, hstays]
  rfl

theorem portWake_asleep (hstate : d.portState p = 3) (hmode : d.mode = 1) (hasleep : d.aon.asleep = true) :
    portWake p d = portWoken p (linkAwake (wakeNoted d)) := by
  have hstays : (wakeNoted d).aon.asleep = true := hasleep
  rw [portWake_open hstate hmode, hstays]
  rfl

end

end Sys2Proof.Proofs
end

section
/-!
SUPPORT. The ports of the Quire link (17_quire_link.md R525 to R530, R538, R543): messages passed on, and what each row leaves.
-/

namespace Sys2Proof.Proofs

open Sys2Proof Sys2Proof.Machine Sys2Proof.Laws

section
variable {d : Dev} {p q : Nat} {m : QMsg}

/-! Messages passed on (R529, R538). -/

/-- The unit with a message waiting at a port to be passed on. -/
def passedTo (q : Nat) (m : QMsg) (d : Dev) : Dev := d.onPort q fun x => { x with wait := x.wait ++ [(false, { m with up := q == 0 })] }

theorem forwardOn_retraining (hstate : d.portState q = 4) : forwardOn q m d = passedTo q m d := by
  have hkept : (passedTo q m d).portState q = 4 := hstate
  have hput : putWait q false m d = passedTo q m d := by
    unfold putWait
    dsimp only
    rw [← passedTo, hkept]
    rfl
  rw [forwardOn, hput]
  exact portFlush_down (ne_of_eq_of_ne hkept (by decide))

theorem passedTo_port : ((passedTo q m d).port q).wait = (d.port q).wait ++ [(false, { m with up := q == 0 })] := by
  rw [passedTo, port_onPort_self]

theorem giveBack_port_ne (h : p ≠ q) : (giveBack p m d).port q = d.port q := by
  unfold giveBack
  by_cases hp : 1 < p
  · rw [if_pos hp]
  · rw [if_neg hp, idleFrame_port_ne h]
    exact port_onPort_ne _ h

theorem onward_of_lt (hp : p < 2) : onward p m = otherPort p := if_pos hp

/-- The one message that is not for this unit goes on by the other port, which retrains. -/
theorem messageForward_one (hp : p < 2) (hinbox : d.link.inbox = [(p, m)]) (hme : d.forMe m = false) (hstate : d.portState (otherPort p) = 4) :
    messageForward d = passedTo (otherPort p) m (d.took p m) := by
  obtain ⟨ports, hports⟩ := giveBack_onPorts p m { d with link := { d.link with inbox := [] } }
  have hkept : (d.took p m).portState (otherPort p) = 4 := by
    rw [Dev.took, hports]
    exact hstate
  have hfound : ((d.link.inbox.findIdx? fun e => !d.forMe e.2).bind fun i => (d.link.inbox[i]?).map fun e => (i, e)) = some (0, p, m) := by
    rw [hinbox, List.findIdx?_cons, hme]
    rfl
  have htook : giveBack p m (d.onLink fun l => { l with inbox := l.inbox.eraseIdx 0 }) = d.took p m := by
    change giveBack p m { d with link := { d.link with inbox := d.link.inbox.eraseIdx 0 } } = _
    rw [hinbox]
    rfl
  unfold messageForward
  rw [hfound]
  dsimp only
  rw [htook, onward_of_lt hp, hkept, if_pos (by decide)]
  exact forwardOn_retraining hkept

theorem passed_gives {r : Dev} (hr : r = passedTo (otherPort p) m (d.took p m)) : r.link.inbox = [] ∧
    (r.port (otherPort p)).wait = (d.port (otherPort p)).wait ++ [(false, { m with up := otherPort p == 0 })] ∧
    r = { d with link := { d.link with ports := r.link.ports, inbox := [] } } := by
  obtain ⟨ports, hports⟩ := giveBack_onPorts p m { d with link := { d.link with inbox := [] } }
  have hport : (d.took p m).port (otherPort p) = d.port (otherPort p) := giveBack_port_ne (otherPort_ne p).1.symm
  have hform : d.took p m = { d with link := { d.link with ports := ports, inbox := [] } } := hports
  have hwait := passedTo_port (q := otherPort p) (m := m) (d := d.took p m)
  rw [hport] at hwait
  obtain ⟨sent, hsent⟩ : ∃ sent, r = { d.took p m with link := { (d.took p m).link with ports := sent } } := by
    rw [hr]
    exact ⟨_, rfl⟩
  rw [← hr] at hwait
  rw [hform] at hsent
  refine ⟨?_, hwait, ?_⟩ <;> rw [hsent]

theorem messageForward_none (h : ∀ e ∈ d.link.inbox, d.forMe e.2 = true) : messageForward d = d := by
  have hnone : (d.link.inbox.findIdx? fun e => !d.forMe e.2) = none := by
    rw [List.findIdx?_eq_none_iff]
    intro e he
    rw [h e he]
    rfl
  unfold messageForward
  rw [hnone]
  rfl

/-! Trainings that do not end with an active link (R523, R528). -/

theorem linkTrain_barred {t : Trained} (hmay : d.mayTrain p = false) (hstate : d.portState p ≠ 2) : linkTrain p t d = d := by
  have hgo : linkTraining p t d = d := by
    unfold linkTraining
    dsimp only
    rw [hmay]
    rfl
  refine linkTrain_settled hgo (.inr hstate) ?_
  rw [beq_false_of_ne hstate, Bool.and_false, Bool.false_and]

/-- A retrain that fails for the first time. -/
theorem linkTrain_failed {t : Trained} (hmay : d.mayTrain p = true) (hstate : d.portState p = 4) (hfails : (d.port p).fails = [])
    (hlow : t.low = false) (hhigh : t.high = false) : linkTrain p t d = d.onPort p fun q => { q with fails := [d.qtime] } := by
  have hgo : linkTraining p t d = d.onPort p fun q => { q with fails := [d.qtime] } := by
    unfold linkTraining
    dsimp only
    rw [hmay, hstate, hlow, hhigh, hfails]
    rfl
  have hkept : (d.onPort p fun q => { q with fails := [d.qtime] }).portState p = 4 := hstate
  refine linkTrain_settled hgo (.inr (ne_of_eq_of_ne hkept (by decide))) ?_
  rw [hstate]
  rfl

/-! A sleeping unit that a wake signal reaches (R543). -/

theorem key_pstat_ne_pmu (hp : p < 2) : Reg.QL_PSTAT.key p 0 ≠ Reg.PMU_WAKE.key 0 0 ∧ Reg.QL_PSTAT.key p 0 ≠ Reg.PMU_STAT.key 0 0 ∧
    Reg.QL_PSTAT.key p 0 ≠ Reg.CLK_STAT.key 0 0 := by
  have hlow : Reg.QL_PSTAT.off + p * Reg.QL_PSTAT.s1 + 0 * Reg.QL_PSTAT.s2 < 0x100000 := by
    simp only [Reg.QL_PSTAT]
    omega
  exact ⟨key_ne_of_block _ _ _ _ _ _ (by decide) hlow (by decide), key_ne_of_block _ _ _ _ _ _ (by decide) hlow (by decide),
    key_ne_of_block _ _ _ _ _ _ (by decide) hlow (by decide)⟩

theorem wakeNoted_cause (d : Dev) : (wakeNoted d).fg .PMU_WAKE_CAUSE = 4 :=
  (fg_wr_ne (x := .PMU_WAKE_CAUSE) (k := 0) _ _ (by decide)).trans (fg_fs_of_lt d 0 (by decide) (by decide))

theorem wakeNoted_mode (d : Dev) : (wakeNoted d).mode = d.mode :=
  (fg_wr_ne (x := .PMU_STAT_MODE) (k := 0) _ _ (by decide)).trans (fg_fs_single d 4 (by decide))

theorem islands_lt (d : Dev) : d.fg .PMU_STAT_ISL ||| 1 < 256 := Nat.or_lt_two_pow (n := 8) (bitsOf_lt _ _ _) (by decide)

theorem linkAwake_fields (d : Dev) : ((linkAwake d).fg .PMU_STAT_ISL).testBit 0 = true ∧ (linkAwake d).is .CLK_STAT_LOCKED = true ∧
    (linkAwake d).fg .PMU_WAKE_CAUSE = d.fg .PMU_WAKE_CAUSE ∧ (linkAwake d).mode = d.mode := by
  have hfg : ∀ x : Fld, (linkAwake d).fg x = ((d.fs .PMU_STAT_ISL (d.fg .PMU_STAT_ISL ||| 1)).fs .CLK_STAT_LOCKED 1).fg x := fun _ => rfl
  refine ⟨?_, (congrArg (· == 1) (hfg .CLK_STAT_LOCKED)).trans (is_fs_one (x := .CLK_STAT_LOCKED) _ (by decide) rfl), ?_, ?_⟩
  · rw [hfg, fg_fs_single _ _ (by decide), fg_fs_of_lt d 0 (by decide) (islands_lt d), Nat.testBit_or]
    exact Bool.or_true _
  · rw [hfg, fg_fs_single _ _ (by decide), fg_fs_single _ _ (by decide)]
  · rw [Dev.mode, hfg, fg_fs_single _ _ (by decide), fg_fs_single _ _ (by decide)]
    rfl

theorem portWoken_fg {x : Fld} (h : Reg.QL_PSTAT.key p 0 ≠ x.reg.key 0 0) : (portWoken p d).fg x = d.fg x :=
  (onPort_fg _ _ _ _ _ _).trans (fg_fs_ne _ .QL_PSTAT_STATE x 4 p 0 0 0 h)

theorem portWoken_state : (portWoken p d).portState p = 4 :=
  (onPort_fg _ _ _ _ _ _).trans (fg_fs_of_lt _ p (by decide) (by decide))

theorem portWoken_gives {r : Dev} (hp : p < 2) (hr : r = portWoken p (linkAwake (wakeNoted d))) (hmode : d.mode = 1) : r.portState p = 4 ∧
    r.fg .PMU_WAKE_CAUSE = 4 ∧ (r.fg .PMU_STAT_ISL).testBit 0 = true ∧ r.is .CLK_STAT_LOCKED = true ∧
    r.aon = { d.aon with asleep := false } ∧ r.mode = 1 := by
  obtain ⟨hisland, hlocked, hcause, hkept⟩ := linkAwake_fields (wakeNoted d)
  rw [wakeNoted_cause] at hcause
  rw [wakeNoted_mode, hmode] at hkept
  have haon : (linkAwake (wakeNoted d)).aon = { d.aon with asleep := false } := rfl
  obtain ⟨hnecause, hnestat, hneclk⟩ := key_pstat_ne_pmu hp
  have hpaon : (portWoken p (linkAwake (wakeNoted d))).aon = (linkAwake (wakeNoted d)).aon := rfl
  rw [hr]
  generalize linkAwake (wakeNoted d) = u at *
  refine ⟨portWoken_state, ?_, ?_, ?_, hpaon.trans haon, ?_⟩
  · rw [portWoken_fg (x := .PMU_WAKE_CAUSE) hnecause, hcause]
  · rw [portWoken_fg (x := .PMU_STAT_ISL) hnestat, hisland]
  · rw [Dev.is, portWoken_fg (x := .CLK_STAT_LOCKED) hneclk]
    exact hlocked
  · exact (portWoken_fg (x := .PMU_STAT_MODE) hnestat).trans hkept

theorem portWake_other (hstate : d.portState p ≠ 3) : portWake p d = d := if_pos (by simpa using hstate)

/-! Ports that are not active (R523, R528, R530). -/

theorem portRetrain_down (hstate : d.portState p ≠ 2) : portRetrain p d = d := if_pos (by simpa using hstate)

theorem portDown_down (hstate : d.portState p = 0) : portDown p d = d := if_pos (by simp [hstate])

theorem frameReceive_down {frame : Bytes} {cut : Bool} (hstate : d.portState p ≠ 2) : frameReceive p frame cut d = d := if_pos (by simpa using hstate)

/-! A port held down (R530). -/

theorem key_pctl_ne_pstat (p q : Nat) : Reg.QL_PCTL.key p 0 ≠ Reg.QL_PSTAT.key q 0 := by
  simp only [Reg.key, Reg.QL_PCTL, Reg.QL_PSTAT]
  omega

theorem key_stat_ne_pctl (p : Nat) : Reg.QL_STAT.key 0 0 ≠ Reg.QL_PCTL.key p 0 := by
  simp only [Reg.key, Reg.QL_PCTL, Reg.QL_STAT]
  omega

theorem key_down_ne_pctl (p q : Nat) : Reg.QL_CNT_DOWN.key p 0 ≠ Reg.QL_PCTL.key q 0 := by
  simp only [Reg.key, Reg.QL_PCTL, Reg.QL_CNT_DOWN]
  omega

/-- The unit whose port is told to stay down. -/
def barred (p : Nat) (d : Dev) : Dev := d.fs .QL_PCTL_DISABLE 1 p

theorem barred_state (q : Nat) : (barred p d).portState q = d.portState q :=
  fg_fs_ne d .QL_PCTL_DISABLE .QL_PSTAT_STATE 1 p 0 q 0 (key_pctl_ne_pstat p q)

theorem barred_link : (barred p d).link = d.link := fs_link _ _ _ _ _

theorem barred_port (q : Nat) : (barred p d).port q = d.port q := by rw [Dev.port, Dev.port, barred_link]

theorem barred_role (hp : p < 2) : (barred p d).role = d.role := by
  refine fg_fs_ne d .QL_PCTL_DISABLE .QL_ID_ROLE 1 p 0 0 0 ?_
  simp only [Reg.key, Fld.QL_PCTL_DISABLE, Reg.QL_PCTL, Fld.QL_ID_ROLE, Reg.QL_ID]
  omega

theorem portFreed_is (x : Fld) (i : Nat) : (portFreed p d).is x i = (downNoted p d).is x i := congrArg (· == 1) (onPort_fg _ _ _ _ _ _)

theorem onPort_rd (f : QPort → QPort) (r : Reg) (i : Nat) : (d.onPort p f).rd r i = d.rd r i := rfl

theorem portFreed_rd (r : Reg) (i : Nat) : (portFreed p d).rd r i = (downNoted p d).rd r i := onPort_rd _ r i

theorem downNoted_topo : (downNoted p d).is .QL_STAT_TOPO = true := topoBit_set _

theorem portFreed_ports {r : Dev} (hr : r = portFreed p d) : r.link = { d.link with ports := r.link.ports } := by
  have hlink : r.link = { (downNoted p d).link with ports := r.link.ports } := by
    rw [hr]
    rfl
  rw [downNoted_link] at hlink
  exact hlink

/-- What a port that goes down with nothing to send leaves (R530); `e` is the unit it went down in, told before to keep it down or not. -/
theorem portFreed_gives {e r : Dev} {keys : List Nat} (hr : r = portFreed p e) (hchanged : KeysChanged keys d e) (hlink : e.link = d.link)
    (hkeys : ∀ k ∈ [Reg.QL_PSTAT.key p 0, Reg.QL_CNT_DOWN.key p 0, Reg.QL_STAT.key 0 0], k ∈ keys) : r.portState p = 0 ∧
      r.is .QL_PSTAT_NARROW p = false ∧ r.is .QL_STAT_TOPO = true ∧ r.rd .QL_CNT_DOWN p = (e.bump .QL_CNT_DOWN p).rd .QL_CNT_DOWN p ∧
      r.port p = { trained := (d.port p).trained, passed := (d.port p).passed } ∧
      Changes keys d r { d with link := { d.link with ports := r.link.ports } } := by
  have hstate : (portFreed p e).portState p = 0 := (onPort_state _ _ _ _).trans downNoted_state.1
  have hports := portFreed_ports hr
  have hsame : e.port p = d.port p := by rw [Dev.port, Dev.port, hlink]
  have hport := portFreed_port p e
  have hchanges := portFreed_changes (p := p) hchanged hkeys
  rw [hlink] at hports
  rw [hsame, ← hr] at hport
  rw [← hr, KeysChanged, hports] at hchanges
  refine ⟨hr ▸ hstate, ?_, ?_, ?_, hport, hchanges⟩
  · rw [hr, portFreed_is]
    exact downNoted_state.2
  · rw [hr, portFreed_is]
    exact downNoted_topo
  · rw [hr, portFreed_rd]
    exact downNoted_count

theorem portFreed_disabled : (portFreed p (barred p d)).is .QL_PCTL_DISABLE p = true := by
  rw [portFreed_is, Dev.is, downNoted_fg (x := .QL_PCTL_DISABLE) (key_stat_ne_pctl p) (key_down_ne_pctl p p) (key_pctl_ne_pstat p p).symm, barred,
    fg_fs_of_lt d p (by decide) (by decide)]
  rfl

end

end Sys2Proof.Proofs
end

section
/-!
PROOFS. The ports of the Quire link (17_quire_link.md R523 to R530, R538, R543): the obligation.
-/

namespace Sys2Proof.Proofs

open Sys2Proof Sys2Proof.Machine Sys2Proof.Laws

section
variable {d : Dev} {p : Nat}

/-- A port with one more replay of its frames counted. -/
def replaysCounted (q : QPort) : QPort := { q with replays := q.replays + 1 }

/-- What a replay leaves (R528). -/
theorem replay_gives {r : Dev} (hr : r = replayFrames p (d.onPort p replaysCounted)) : (r.port p).replays = (d.port p).replays + 1 ∧
    (r.port p).nakd = false ∧ (r.port p).retry = (d.port p).retry ∧ (r.port p).txSeq = (d.port p).txSeq ∧
    (∀ f ∈ (d.port p).retry.getLast?, (r.port p).sent = frameBytes f.2.2 f.1 f.2.1 (replaysCounted (d.port p))) ∧
    r.port (otherPort p) = d.port (otherPort p) ∧ r = { d with link := { d.link with ports := r.link.ports } } := by
  have hne := (otherPort_ne p).1.symm
  have hcounted := port_onPort_self d p replaysCounted
  have hother := port_onPort_ne (d := d) (p := p) (q := otherPort p) replaysCounted hne
  obtain ⟨ports, hports⟩ := onPort_ports (d := d) (p := p) replaysCounted
  have hkept : r.port (otherPort p) = (d.onPort p replaysCounted).port (otherPort p) := by
    rw [hr]
    exact port_onPort_ne _ hne
  have hform : ∃ sent, r = { d.onPort p replaysCounted with link := { (d.onPort p replaysCounted).link with ports := sent } } := by
    rw [hr]
    exact onPort_ports _
  obtain ⟨hreplays, hnakd, hretry, htxSeq, hsent⟩ := replayFrames_port hr
  clear hr
  generalize d.onPort p replaysCounted = u at *
  obtain ⟨sent, hform⟩ := hform
  rw [hcounted] at hreplays hretry htxSeq hsent
  rw [hports] at hform
  refine ⟨hreplays, hnakd, hretry, htxSeq, hsent, hkept.trans hother, ?_⟩
  rw [hform]

/-- The keys that a port going down writes are among those of a port held down. -/
theorem downKeys_mem (p : Nat) : ∀ k ∈ [Reg.QL_PSTAT.key p 0, Reg.QL_CNT_DOWN.key p 0, Reg.QL_STAT.key 0 0],
    k ∈ [Reg.QL_PCTL.key p 0, Reg.QL_PSTAT.key p 0, Reg.QL_CNT_DOWN.key p 0, Reg.QL_STAT.key 0 0] :=
  fun _ hk => List.mem_cons_of_mem _ hk

theorem portDisable_quiet (hp : p < 2) (hstate : d.portState p ≠ 0) (hother : d.portState (otherPort p) ≠ 2) (hrole : d.role = 0)
    (hunits : d.link.units = []) (hretry : (d.port p).retry = []) (hwait : (d.port p).wait = []) (htoken : (d.port p).token = false) :
    portDisable p d = portFreed p (barred p d) := by
  have hport := barred_port (d := d) (p := p) p
  refine portDown_quiet (d := barred p d) hp ?_ ?_ ((barred_role hp).trans hrole) ?_ ?_ ?_ ?_
  · rw [barred_state]
    exact hstate
  · rw [barred_state]
    exact hother
  · rw [barred_link]
    exact hunits
  · rw [hport]
    exact hretry
  · rw [hport]
    exact hwait
  · rw [hport]
    exact htoken

end

/-- Settles O37: each row's equation, of a port that may do it and of one that may not. -/
theorem linkPorts : Obligations.LinkPorts := by
  unfold Obligations.LinkPorts
  refine ⟨fun p low high reversed delay s ⟨hmay, hstate, hlast⟩ ⟨hother, hunits, hasleep⟩ ⟨hvalid, hrole, hpass, hdelay⟩ => ?_,
    fun p low high reversed miswired delay bare s ⟨hmay, hstate⟩ => becomes_of_eq (f := linkTrain p _) rfl (linkTrain_barred hmay hstate),
    fun p reversed miswired delay bare s ⟨hmay, hstate, hfails⟩ => becomes_of_eq (f := linkTrain p _) rfl (linkTrain_failed hmay hstate hfails rfl rfl),
    fun p s hstate => becomes_of_eq (f := portRetrain p) rfl (portRetrain_active hstate),
    fun p s hstate => becomes_of_eq (f := portRetrain p) rfl (portRetrain_down hstate),
    fun p frame t msgs rest s ⟨hstate, hquiet, ht⟩ ⟨hcrc, hseq⟩ ⟨hack, hnull, hmsgs⟩ hbroad => ?_,
    fun p frame s ⟨hstate, hnaking, herrs⟩ hcrc => becomes_of_eq (f := frameReceive p frame false) rfl (frameReceive_corrupt hstate hnaking herrs hcrc),
    fun p frame cut s hstate => becomes_of_eq (f := frameReceive p frame cut) rfl (frameReceive_down hstate),
    fun p s ⟨hstate, hnakd, hfew⟩ => ?_,
    fun p s ⟨hstate, hnakd, hmany⟩ => becomes_of_eq (f := frameReplay p) rfl (frameReplay_often hstate hnakd hmany),
    fun p s ⟨hstate, hother, hrole, hunits⟩ ⟨hretry, hwait, htoken⟩ => ?_,
    fun p s hstate => becomes_of_eq (f := portDown p) rfl (portDown_down hstate),
    fun p s ⟨hstate, hother, hrole, hunits⟩ ⟨hretry, hwait, htoken⟩ => ?_,
    fun p s ⟨hstate, hmode, hawake⟩ => becomes_of_eq (f := portWake p) rfl (portWake_awake hstate hmode hawake),
    fun p s ⟨hstate, hmode, hasleep⟩ => ?_,
    fun p s hstate => becomes_of_eq (f := portWake p) rfl (portWake_other hstate),
    fun p m s ⟨hinbox, hme, hstate⟩ => ?_,
    fun s h => becomes_of_eq (f := messageForward) rfl (messageForward_none h)⟩
  · obtain ⟨t, ht⟩ : ∃ t : Trained, t = ⟨low, high, reversed, false, delay, false⟩ := ⟨_, rfl⟩
    have hfound : linkTrain p t s.dev = broadcastWaits p (topoMsg ((trainedUnit p t s.dev).portLink p) 2 false) (trainedUnit p t s.dev) :=
      linkTrain_cold p.isLt (by rw [ht]; exact hdelay) hunits hother hmay hstate hlast (by rw [ht]) (by rw [ht]; exact hpass) hasleep hvalid (by rw [ht]) hrole
    obtain ⟨r, hr⟩ : ∃ r, r = linkTrain p t s.dev := ⟨_, rfl⟩
    have hgives := trained_gives (t := t) p.isLt (by rw [ht]; exact hdelay) hunits hother (m := topoMsg ((trainedUnit p t s.dev).portLink p) 2 false) rfl
      (hr.trans hfound)
    rw [ht] at hgives
    refine gives_of_eq (f := linkTrain p t) (by rw [ht]; rfl) hr.symm ?_
    exact hgives
  · obtain ⟨r, hr⟩ : ∃ r, r = frameReceive p frame false s.dev := ⟨_, rfl⟩
    exact gives_of_eq (f := frameReceive p frame false) rfl hr.symm
      (frameTaken_gives (hr.trans (frameReceive_good p.isLt hstate hquiet ht hcrc hseq hack hnull hmsgs hbroad)))
  · obtain ⟨r, hr⟩ : ∃ r, r = frameReplay p s.dev := ⟨_, rfl⟩
    exact gives_of_eq (f := frameReplay p) rfl hr.symm (replay_gives (hr.trans (frameReplay_again hstate hnakd hfew)))
  · obtain ⟨r, hr⟩ : ∃ r, r = portDown p s.dev := ⟨_, rfl⟩
    exact gives_of_eq (f := portDown p) rfl hr.symm (portFreed_gives (hr.trans (portDown_quiet p.isLt hstate hother hrole hunits hretry hwait htoken))
      (keysChanged_refl _ _) rfl fun k hk => hk)
  · obtain ⟨r, hr⟩ : ∃ r, r = portDisable p s.dev := ⟨_, rfl⟩
    have hfreed := hr.trans (portDisable_quiet p.isLt hstate hother hrole hunits hretry hwait htoken)
    have hbarred : KeysChanged [Reg.QL_PCTL.key p 0, Reg.QL_PSTAT.key p 0, Reg.QL_CNT_DOWN.key p 0, Reg.QL_STAT.key 0 0] s.dev (barred p s.dev) :=
      keysChanged_fs (keysChanged_refl _ _) List.mem_cons_self
    obtain ⟨hdown, -, htopo, -, hport, hchanges⟩ := portFreed_gives hfreed hbarred barred_link (downKeys_mem p)
    have hdisabled : r.is .QL_PCTL_DISABLE p = true := by
      rw [hfreed]
      exact portFreed_disabled
    exact gives_of_eq (f := portDisable p) rfl hr.symm ⟨hdown, hdisabled, htopo, hport, hchanges⟩
  · obtain ⟨r, hr⟩ : ∃ r, r = portWake p s.dev := ⟨_, rfl⟩
    exact gives_of_eq (f := portWake p) rfl hr.symm (portWoken_gives p.isLt (hr.trans (portWake_asleep hstate hmode hasleep)) hmode)
  · obtain ⟨r, hr⟩ : ∃ r, r = messageForward s.dev := ⟨_, rfl⟩
    exact gives_of_eq (f := messageForward) rfl hr.symm (passed_gives (hr.trans (messageForward_one p.isLt hinbox hme hstate)))

end Sys2Proof.Proofs
end

section
/-!
SUPPORT. The journal's rows (13_ream_journal.md R411, R412, R418, R419): which physical row an access reaches, and what writing a record's
rows leaves in the record slots of both banks.
-/

namespace Sys2Proof.Proofs

open Sys2Proof Sys2Proof.Machine Sys2Proof.Laws

/-! Physical rows. -/

section
variable {j : Journal} {bank row b r : Nat} {w : Word}

theorem rowKey_ne (hrow : row < 131072) (hr : r < 131072) (h : (bank, row) ≠ (b, r)) : rowKey bank row ≠ rowKey b r := by
  intro hkey
  unfold rowKey at hkey
  have hbank : bank = b := by omega
  have hsame : row = r := by omega
  exact h (by rw [hbank, hsame])

theorem rowAt_putRow_self : (j.putRow bank row w).rowAt bank row = w := sparseGet_set_self _ _ _ _

theorem rowAt_putRow_ne (hrow : row < 131072) (hr : r < 131072) (h : (bank, row) ≠ (b, r)) : (j.putRow bank row w).rowAt b r = j.rowAt b r :=
  sparseGet_set_ne _ _ _ (rowKey_ne hrow hr h)

/-- Whether a remap entry of a bank names a row (R419). -/
def entryNames (j : Journal) (bank row k : Nat) : Bool :=
  (j.remapEntry bank k).testBit 31 && bitsOf (j.remapEntry bank k) 0 17 == row

theorem spareOf_eq : j.spareOf bank row = (List.range 512).foldl (fun r k => if entryNames j bank row k then some k else r) none := rfl

/-- The last of a list that satisfies a predicate does satisfy it. -/
theorem foldl_last {P : Nat → Bool} {k : Nat} (l : List Nat) : ∀ init : Option Nat,
    l.foldl (fun r k => if P k then some k else r) init = some k → init = some k ∨ k ∈ l ∧ P k = true := by
  induction l with
  | nil => exact fun init h => .inl h
  | cons a l ih =>
    intro init h
    rw [List.foldl_cons] at h
    obtain hinit | ⟨hmem, hk⟩ := ih _ h
    · by_cases ha : P a = true
      · rw [if_pos ha] at hinit
        obtain rfl := Option.some.inj hinit
        exact .inr ⟨List.mem_cons_self, ha⟩
      · rw [if_neg ha] at hinit
        exact .inl hinit
    · exact .inr ⟨List.mem_cons_of_mem _ hmem, hk⟩

theorem spareOf_names {k : Nat} (h : j.spareOf bank row = some k) : k < 512 ∧ entryNames j bank row k = true := by
  rw [spareOf_eq] at h
  obtain hnone | ⟨hmem, hk⟩ := foldl_last _ _ h
  · simp at hnone
  · exact ⟨List.mem_range.mp hmem, hk⟩

/-- An entry names one row. -/
theorem entryNames_row {k : Nat} (hrow : entryNames j bank row k = true) (hr : entryNames j bank r k = true) : row = r := by
  unfold entryNames at hrow hr
  simp only [Bool.and_eq_true, beq_iff_eq] at hrow hr
  exact hrow.2.symm.trans hr.2

theorem physical_some {k : Nat} (h : j.spareOf bank row = some k) : j.physical bank row = 65536 + k := by
  unfold Journal.physical
  rw [h]

theorem physical_none (h : j.spareOf bank row = none) : j.physical bank row = row := by
  unfold Journal.physical
  rw [h]

/-- The rows of the rings are never those of the remap table, and reach rows of their own bank. -/
theorem physical_range (hlow : 256 ≤ row) (hhigh : row < 65536) : 256 ≤ j.physical bank row ∧ j.physical bank row < 131072 := by
  cases h : j.spareOf bank row with
  | none =>
    rw [physical_none h]
    omega
  | some k =>
    have hk := (spareOf_names h).1
    rw [physical_some h]
    omega

/-- Two rows of a bank never reach the same physical row. -/
theorem physical_inj (hrow : row < 65536) (hr : r < 65536) (h : j.physical bank row = j.physical bank r) : row = r := by
  cases hs : j.spareOf bank row with
  | none =>
    rw [physical_none hs] at h
    cases ht : j.spareOf bank r with
    | none =>
      rw [physical_none ht] at h
      exact h
    | some k =>
      rw [physical_some ht] at h
      omega
  | some k =>
    rw [physical_some hs] at h
    cases ht : j.spareOf bank r with
    | none =>
      rw [physical_none ht] at h
      omega
    | some l =>
      rw [physical_some ht] at h
      obtain rfl : k = l := by omega
      exact entryNames_row (spareOf_names hs).2 (spareOf_names ht).2

/-- Writing a row outside the remap table changes no mapping. -/
theorem physical_putRow (hlow : 256 ≤ row) (hhigh : row < 131072) : (j.putRow bank row w).physical b r = j.physical b r := by
  have hentry : ∀ k < 512, (j.putRow bank row w).remapEntry b k = j.remapEntry b k := fun k hk => by
    have hne : (bank, row) ≠ (b, 16 + k / 4) := fun heq => by
      obtain ⟨-, hsame⟩ := Prod.mk.inj heq
      omega
    unfold Journal.remapEntry
    rw [rowAt_putRow_ne hhigh (by omega) hne]
  have hspare : (j.putRow bank row w).spareOf b r = j.spareOf b r := by
    rw [spareOf_eq, spareOf_eq]
    refine List.foldl_ext _ _ _ fun o k hk => ?_
    unfold entryNames
    rw [hentry k (List.mem_range.mp hk)]
  unfold Journal.physical
  rw [hspare]

end

/-! The rows that accesses reach. -/

/-- What a row of a bank reads (R418, R419). -/
def rowOf (j : Journal) (bank row : Nat) : Word := j.rowAt bank (j.physical bank row)

/-- The journal with a row of a bank written where accesses to it reach. -/
def setRow (bank row : Nat) (w : Word) (j : Journal) : Journal := j.putRow bank (j.physical bank row) w

section
variable {j : Journal} {bank row b r : Nat} {w : Word} (hlow : 256 ≤ row) (hhigh : row < 65536)
include hlow hhigh

theorem rowOf_setRow_self : rowOf (setRow bank row w j) bank row = w := by
  obtain ⟨hmin, hmax⟩ := physical_range (j := j) (bank := bank) hlow hhigh
  rw [rowOf, setRow, physical_putRow hmin hmax, rowAt_putRow_self]

theorem rowOf_setRow_ne (hrlow : 256 ≤ r) (hrhigh : r < 65536) (h : (bank, row) ≠ (b, r)) : rowOf (setRow bank row w j) b r = rowOf j b r := by
  obtain ⟨hmin, hmax⟩ := physical_range (j := j) (bank := bank) hlow hhigh
  have hrmax := (physical_range (j := j) (bank := b) hrlow hrhigh).2
  have hne : (bank, j.physical bank row) ≠ (b, j.physical b r) := fun heq => by
    obtain ⟨rfl, hphys⟩ := Prod.mk.inj heq
    exact h (by rw [physical_inj hhigh hrhigh hphys])
  rw [rowOf, setRow, physical_putRow hmin hmax, rowAt_putRow_ne hmax hrmax hne, rowOf]

end

/-! A record's rows. -/

/-- The row of a record's bytes at an index. -/
def rowWord (b : Bytes) (i : Nat) : Word := BitVec.ofNat 128 (leNat ((b.drop (16 * i)).take 16))

/-- The journal with the first rows of a record written to a bank. -/
def putRows (bank row : Nat) (b : Bytes) : Nat → Journal → Journal
  | 0, j => j
  | n + 1, j => setRow bank (row + n) (rowWord b n) (putRows bank row b n j)

section
variable {j : Journal} {bank row k r : Nat} {b : Bytes}

theorem rowOf_putRows_ne {n : Nat} (hlow : 256 ≤ row) (hhigh : row + n ≤ 65536) (hrlow : 256 ≤ r) (hrhigh : r < 65536)
    (h : k ≠ bank ∨ r < row ∨ row + n ≤ r) : rowOf (putRows bank row b n j) k r = rowOf j k r := by
  induction n with
  | zero => rfl
  | succ n ih =>
    have hne : (bank, row + n) ≠ (k, r) := fun heq => by
      obtain ⟨rfl, hrow⟩ := Prod.mk.inj heq
      omega
    rw [putRows, rowOf_setRow_ne (by omega) (by omega) hrlow hrhigh hne]
    exact ih (by omega) (by omega)

theorem rowOf_putRows_self {n i : Nat} (hlow : 256 ≤ row) (hhigh : row + n ≤ 65536) (hi : i < n) :
    rowOf (putRows bank row b n j) bank (row + i) = rowWord b i := by
  induction n with
  | zero => omega
  | succ n ih =>
    rw [putRows]
    by_cases hin : i = n
    · rw [hin, rowOf_setRow_self (by omega) (by omega)]
    · have hne : (bank, row + n) ≠ (bank, row + i) := fun heq => by
        obtain ⟨-, hrow⟩ := Prod.mk.inj heq
        omega
      rw [rowOf_setRow_ne (by omega) (by omega) (by omega) (by omega) hne]
      exact ih (by omega) (by omega)

end

/-! Record slots (R412). -/

/-- The slots of a ring. -/
def ringSlots (event : Bool) : Nat := if event then eventSlots else mainSlots

theorem slotRow_range {event : Bool} {slot : Nat} (h : slot < ringSlots event) : 256 ≤ slotRow event slot ∧ slotRow event slot + 4 ≤ 65536 := by
  unfold ringSlots eventSlots mainSlots at h
  unfold slotRow
  cases event <;> simp only [Bool.false_eq_true, if_false, if_true] at h ⊢ <;> omega

/-- Two record slots share no row. -/
theorem slotRow_apart {event e : Bool} {slot i : Nat} (h : slot < ringSlots event) (hi : i < ringSlots e) (hne : (e, i) ≠ (event, slot)) :
    slotRow e i + 4 ≤ slotRow event slot ∨ slotRow event slot + 4 ≤ slotRow e i := by
  unfold ringSlots eventSlots mainSlots at h hi
  unfold slotRow
  cases event <;> cases e <;> simp only [Bool.false_eq_true, if_false, if_true] at h hi ⊢
  · have : i ≠ slot := fun heq => hne (by rw [heq])
    omega
  · omega
  · omega
  · have : i ≠ slot := fun heq => hne (by rw [heq])
    omega

section
variable {j : Journal} {bank k slot : Nat} {event : Bool} {b : Bytes}

theorem recordIn_eq (j : Journal) (bank : Nat) (event : Bool) (i : Nat) :
    j.recordIn bank event i = (List.range 4).flatMap fun r => leBytes 16 (rowOf j bank (slotRow event i + r)).toNat := rfl

theorem rowWord_bytes (hlen : b.length = 64) {i : Nat} (hi : i < 4) : leBytes 16 (rowWord b i).toNat = (b.drop (16 * i)).take 16 := by
  have hrow : ((b.drop (16 * i)).take 16).length = 16 := by
    rw [List.length_take, List.length_drop]
    omega
  have hlt := leNat_lt ((b.drop (16 * i)).take 16)
  rw [hrow] at hlt
  have hbytes := leBytes_leNat ((b.drop (16 * i)).take 16)
  rw [hrow] at hbytes
  rw [rowWord, BitVec.toNat_ofNat, Nat.mod_eq_of_lt (by exact hlt), hbytes]

theorem rows_bytes (hlen : b.length = 64) : ((List.range 4).flatMap fun i => (b.drop (16 * i)).take 16) = b := by
  have hcut : ∀ n : Nat, (b.drop n).take 16 ++ b.drop (n + 16) = b.drop n := fun n => by
    rw [← List.drop_drop, List.take_append_drop]
  have hend : b.drop 64 = [] := List.drop_eq_nil_iff.mpr (by omega)
  have hlast := hcut 48
  have hthird := hcut 32
  have hsecond := hcut 16
  have hfirst := hcut 0
  rw [hend, List.append_nil] at hlast
  rw [List.drop_zero, ← hsecond, ← hthird, ← hlast] at hfirst
  simpa [List.range_succ] using hfirst

/-- A record written to a bank is what its slot there reads. -/
theorem recordIn_putRows_self (h : slot < ringSlots event) (hlen : b.length = 64) :
    (putRows bank (slotRow event slot) b 4 j).recordIn bank event slot = b := by
  obtain ⟨hlow, hhigh⟩ := slotRow_range h
  refine Eq.trans ?_ (rows_bytes hlen)
  rw [recordIn_eq]
  refine List.flatMap_congr fun i hi => ?_
  have hi4 := List.mem_range.mp hi
  rw [rowOf_putRows_self hlow hhigh hi4, rowWord_bytes hlen hi4]

/-- Every other slot keeps its bytes, and so does every slot of the other bank. -/
theorem recordIn_putRows_ne {e : Bool} {i : Nat} (h : slot < ringSlots event) (hi : i < ringSlots e) (hne : k ≠ bank ∨ (e, i) ≠ (event, slot)) :
    (putRows bank (slotRow event slot) b 4 j).recordIn k e i = j.recordIn k e i := by
  obtain ⟨hlow, hhigh⟩ := slotRow_range h
  obtain ⟨hilow, hihigh⟩ := slotRow_range hi
  rw [recordIn_eq, recordIn_eq]
  refine List.flatMap_congr fun r hr => ?_
  have hr4 := List.mem_range.mp hr
  have hapart : k ≠ bank ∨ slotRow e i + r < slotRow event slot ∨ slotRow event slot + 4 ≤ slotRow e i + r := by
    obtain hbank | hslot := hne
    · exact .inl hbank
    · have := slotRow_apart h hi hslot
      omega
  rw [rowOf_putRows_ne hlow hhigh (by omega) (by omega) hapart]

end

end Sys2Proof.Proofs
end

section
/-!
SUPPORT. The writing of a record (13_ream_journal.md R411, R413, R415, R416 to R418): its bytes, both banks, SEQ and the head.
-/

namespace Sys2Proof.Proofs

open Sys2Proof Sys2Proof.Machine Sys2Proof.Laws

/-! A record's bytes (R413, R415). -/

theorem crcReflBit_lt {c : Nat} (h : c < 2 ^ 32) : crcReflBit 0x82F63B78 c < 2 ^ 32 := by
  have hshift : c >>> 1 < 2 ^ 32 := lt_of_le_of_lt (Nat.shiftRight_le c 1) h
  unfold crcReflBit
  by_cases hodd : c % 2 = 1
  · rw [if_pos hodd]
    exact Nat.xor_lt_two_pow hshift (by decide)
  · rw [if_neg hodd]
    exact hshift

theorem iter_crcReflBit_lt (n : Nat) : ∀ c < 2 ^ 32, iter (crcReflBit 0x82F63B78) n c < 2 ^ 32 := by
  induction n with
  | zero => exact fun c h => h
  | succ n ih => exact fun c h => ih _ (crcReflBit_lt h)

theorem crcRefl_lt (bs : Bytes) : ∀ init < 2 ^ 32, crcRefl 0x82F63B78 init bs < 2 ^ 32 := by
  induction bs with
  | nil => exact fun init h => h
  | cons b bs ih =>
    exact fun init h => ih _ (iter_crcReflBit_lt 8 _ (Nat.xor_lt_two_pow h (lt_of_lt_of_le b.isLt (by decide))))

theorem crc32c_lt (bs : Bytes) : crc32c bs < 2 ^ 32 := Nat.xor_lt_two_pow (crcRefl_lt bs _ (by decide)) (by decide)

/-- A record's bytes before its CRC. -/
def recordHead (seq qtime : Nat) (sub : Bytes) : Bytes :=
  leBytes 6 seq ++ ((takeFill 0#8 64 sub).drop 6).take 2 ++ leBytes 8 qtime ++ ((takeFill 0#8 64 sub).drop 16).take 44

theorem recordBytes_eq (seq qtime : Nat) (sub : Bytes) :
    recordBytes seq qtime sub = recordHead seq qtime sub ++ leBytes 4 (crc32c (recordHead seq qtime sub)) := rfl

theorem recordHead_length (seq qtime : Nat) (sub : Bytes) : (recordHead seq qtime sub).length = 60 := by
  simp [recordHead, takeFill_length]

theorem recordBytes_length (seq qtime : Nat) (sub : Bytes) : (recordBytes seq qtime sub).length = 64 := by
  rw [recordBytes_eq, List.length_append, recordHead_length, leBytes_length]

theorem recordOk_recordBytes (seq qtime : Nat) (sub : Bytes) : recordOk (recordBytes seq qtime sub) = true := by
  have hlen := recordHead_length seq qtime sub
  have hcrc := crc32c_lt (recordHead seq qtime sub)
  have hfour : (leBytes 4 (crc32c (recordHead seq qtime sub))).take 4 = leBytes 4 (crc32c (recordHead seq qtime sub)) :=
    List.take_of_length_le (by rw [leBytes_length])
  unfold recordOk
  rw [recordBytes_eq, List.drop_left' hlen, List.take_left' hlen, hfour, leNat_leBytes, Nat.mod_eq_of_lt (by exact hcrc), beq_self_eq_true]

/-! Both banks (R411, R418). -/

section
variable {d : Dev}

theorem writeRow_good (limit : Nat) (d : Dev) (bank row : Nat) (w : Word) :
    writeRow limit d bank row w [] = { dev := d.onJournal (setRow bank row w), fails := [], ok := true } := by
  simp [writeRow, tryRow, Dev.onJournal, setRow]

theorem onJournal_bankOk (f : Journal → Journal) (bank : Nat) : (d.onJournal f).bankOk bank = d.bankOk bank := rfl

theorem onJournal_nextSeq (f : Journal → Journal) : (d.onJournal f).nextSeq = d.nextSeq := rfl

theorem onJournal_onJournal (f g : Journal → Journal) : (d.onJournal f).onJournal g = d.onJournal fun j => g (f j) := rfl

/-- A record whose compares succeed stands in the rows of its bank. -/
theorem writeBank_good {bank : Nat} (limit row : Nat) (b : Bytes) (hbank : d.bankOk bank = true) :
    writeBank limit d bank row b [] = d.onJournal (putRows bank row b 4) := by
  have hrows : ∀ n, (List.range n).foldl (fun (r : RowWrite) i =>
      if r.dev.bankOk bank then writeRow limit r.dev bank (row + i) (BitVec.ofNat 128 (leNat ((b.drop (16 * i)).take 16))) r.fails else r)
      { dev := d, fails := [], ok := true } = { dev := d.onJournal (putRows bank row b n), fails := [], ok := true } := fun n => by
    induction n with
    | zero => rfl
    | succ n ih =>
      have hkept : (d.onJournal (putRows bank row b n)).bankOk bank = true := (onJournal_bankOk _ _).trans hbank
      have hnext : (d.onJournal (putRows bank row b n)).onJournal (setRow bank (row + n) (rowWord b n)) = d.onJournal (putRows bank row b (n + 1)) :=
        onJournal_onJournal _ _
      rw [List.range_succ, List.foldl_append, ih, List.foldl_cons, List.foldl_nil]
      dsimp only
      rw [if_pos hkept, ← rowWord, writeRow_good, hnext]
  exact congrArg RowWrite.dev (hrows 4)

/-- The journal with a record in the same rows of both banks. -/
def bothBanks (row : Nat) (b : Bytes) (j : Journal) : Journal := putRows 1 row b 4 (putRows 0 row b 4 j)

theorem putRows_keeps (bank row : Nat) (b : Bytes) (n : Nat) (j : Journal) : putRows bank row b n j = { j with rows := (putRows bank row b n j).rows } := by
  induction n with
  | zero => rfl
  | succ n ih =>
    rw [putRows, ih]
    rfl

theorem bothBanks_keeps (row : Nat) (b : Bytes) (j : Journal) : bothBanks row b j = { j with rows := (bothBanks row b j).rows } := by
  have hone := putRows_keeps 1 row b 4 (putRows 0 row b 4 j)
  rw [← bothBanks] at hone
  have hzero := putRows_keeps 0 row b 4 j
  rw [hzero] at hone
  exact hone

section
variable {j : Journal} {slot : Nat} {event : Bool} {b : Bytes} (h : slot < ringSlots event)
include h

theorem recordIn_bothBanks (hlen : b.length = 64) : (bothBanks (slotRow event slot) b j).recordIn 0 event slot = b ∧
    (bothBanks (slotRow event slot) b j).recordIn 1 event slot = b := by
  constructor
  · rw [bothBanks, recordIn_putRows_ne h h (.inl (by decide)), recordIn_putRows_self h hlen]
  · exact recordIn_putRows_self h hlen

theorem recordIn_bothBanks_ne {k i : Nat} {e : Bool} (hi : i < ringSlots e) (hne : (e, i) ≠ (event, slot)) :
    (bothBanks (slotRow event slot) b j).recordIn k e i = j.recordIn k e i := by
  rw [bothBanks, recordIn_putRows_ne h hi (.inr hne), recordIn_putRows_ne h hi (.inr hne)]

end

/-- What a record slot reads is a matter of the rows alone. -/
theorem recordIn_rows {j k : Journal} (h : j.rows = k.rows) (bank : Nat) (event : Bool) (i : Nat) : j.recordIn bank event i = k.recordIn bank event i := by
  have hrow : ∀ b r, j.rowAt b r = k.rowAt b r := fun b r => by rw [Journal.rowAt, Journal.rowAt, h]
  have hentry : ∀ b n, j.remapEntry b n = k.remapEntry b n := fun b n => by rw [Journal.remapEntry, Journal.remapEntry, hrow]
  have hnames : ∀ b r n, entryNames j b r n = entryNames k b r n := fun b r n => by rw [entryNames, entryNames, hentry]
  have hspare : ∀ b r, j.spareOf b r = k.spareOf b r := fun b r => by
    rw [spareOf_eq, spareOf_eq]
    exact List.foldl_ext _ _ _ fun o n _ => by rw [hnames]
  have hphys : ∀ b r, j.physical b r = k.physical b r := fun b r => by
    unfold Journal.physical
    rw [hspare]
  rw [recordIn_eq, recordIn_eq]
  exact List.flatMap_congr fun r _ => by rw [rowOf, rowOf, hphys, hrow]

/-! The unit after a record (R415, R416). -/

/-- The ring's head after the record at a slot. -/
def headNext (event : Bool) (slot : Nat) (d : Dev) : Dev :=
  if event then d.fs .RJ_HEAD_EHEAD ((slot + 1) % eventSlots) else d.fs .RJ_HEAD_HEAD ((slot + 1) % mainSlots)

/-- The next slot of a ring. -/
def headSlot (event : Bool) (d : Dev) : Nat := if event then d.fg .RJ_HEAD_EHEAD else d.fg .RJ_HEAD_HEAD

/-- The unit whose record stands in the rows of both banks, with SEQ advanced and the record counted. -/
def recordCounted (event : Bool) (slot : Nat) (b : Bytes) (d : Dev) : Dev :=
  rjCount 0 ((d.onJournal (bothBanks (slotRow event slot) b)).setSeq ((d.nextSeq + 1) % 2 ^ 48))

/-- The unit with the front of the queue taken. -/
def frontTaken (rest : List Submission) (d : Dev) : Dev := d.onJournal fun j => { j with queue := rest }

/-- The unit that has written the front of the queue: its record in both banks, SEQ and the head advanced. -/
def recordStands (x : Submission) (rest : List Submission) (d : Dev) : Dev :=
  headNext x.event (headSlot x.event d)
    (recordCounted x.event (headSlot x.event d) (recordBytes d.nextSeq x.qtime x.bytes) (frontTaken rest d))

theorem bankOk_of_both (h : d.fg .RJ_STAT_BANK_OK = 3) : d.bankOk 0 = true ∧ d.bankOk 1 = true := by
  unfold Dev.bankOk
  rw [h]
  exact ⟨rfl, rfl⟩

theorem setSeq_is {x : Fld} {n : Nat} (hlo : Reg.RJ_SEQ_LO.key 0 0 ≠ x.reg.key 0 0) (hhi : Reg.RJ_SEQ_HI.key 0 0 ≠ x.reg.key 0 0) :
    (d.setSeq n).fg x = d.fg x := by
  rw [Dev.setSeq, fg_fs_ne _ .RJ_SEQ_HI_SEQ x _ 0 0 0 0 hhi, fg_fs_ne _ .RJ_SEQ_LO_SEQ x _ 0 0 0 0 hlo]

/-- A record that both banks take. -/
theorem writeRecord_good (limit : Nat) (event : Bool) (slot : Nat) (b : Bytes) (hbanks : d.fg .RJ_STAT_BANK_OK = 3)
    (hfailed : d.is .RJ_STAT_FAILED = false) : d.writeRecord limit event slot b [] [] = recordCounted event slot b d := by
  obtain ⟨hzero, hone⟩ := bankOk_of_both hbanks
  have hkept : (d.onJournal (putRows 0 (slotRow event slot) b 4)).bankOk 1 = true := (onJournal_bankOk _ _).trans hone
  have hboth : (d.onJournal (putRows 0 (slotRow event slot) b 4)).onJournal (putRows 1 (slotRow event slot) b 4) =
      d.onJournal (bothBanks (slotRow event slot) b) := onJournal_onJournal _ _
  unfold Dev.writeRecord
  dsimp only
  rw [writeBank_good limit _ b hzero, writeBank_good limit _ b hkept, hboth]
  have hgood : (d.onJournal (bothBanks (slotRow event slot) b)).is .RJ_STAT_FAILED = false := (onJournal_is _ _ _ _ _).trans hfailed
  generalize hu : d.onJournal (bothBanks (slotRow event slot) b) = u at *
  have hseq : u.nextSeq = d.nextSeq := by rw [← hu, onJournal_nextSeq]
  rw [hgood, Bool.not_false, Laws.cond_true, recordCounted, hu, hseq]

end

end Sys2Proof.Proofs
end

section
/-!
SUPPORT. The writing of a record (13_ream_journal.md R411, R413, R415 to R418, R425): what it leaves of the unit.
-/

namespace Sys2Proof.Proofs

open Sys2Proof Sys2Proof.Machine Sys2Proof.Laws

section
variable {d : Dev} {x : Submission} {rest : List Submission}

/-! What journal writes leave of the banks (R425, R426). -/

/-- The fields that say how the banks are: which work, whether one or both have failed, and the spare rows used. -/
def bankFlds : List Fld := [.RJ_STAT_BANK_OK, .RJ_STAT_DEGRADED, .RJ_STAT_FAILED, .RJ_SPARE_USED0, .RJ_SPARE_USED1]

/-- A unit whose banks are as they were. -/
def BanksKept (a b : Dev) : Prop := ∀ x ∈ bankFlds, b.fg x = a.fg x

theorem banksKept_refl (d : Dev) : BanksKept d d := fun _ _ => rfl

theorem banksKept_trans {a b c : Dev} (hab : BanksKept a b) (hbc : BanksKept b c) : BanksKept a c := fun x hx => (hbc x hx).trans (hab x hx)

theorem banksKept_fs {e : Dev} {y : Fld} {v : Nat} (h : BanksKept d e) (hy : ∀ x ∈ bankFlds, SingleApart y x := by decide) : BanksKept d (e.fs y v) :=
  fun x hx => (fg_fs_single e v (hy x hx)).trans (h x hx)

theorem banksKept_wr {e : Dev} {r : Reg} {v : DWord} {i : Nat} (h : BanksKept d e) (hr : ∀ x ∈ bankFlds, r.key i 0 ≠ x.reg.key 0 0) :
    BanksKept d (e.wr r v i) := fun x hx => (fg_wr_ne (x := x) (k := 0) e v (hr x hx)).trans (h x hx)

theorem banksKept_regs {e u : Dev} (h : BanksKept d e) (hregs : u.regs = e.regs) : BanksKept d u := fun x hx => by
  rw [← h x hx, Dev.fg, Dev.fg, Dev.rd, Dev.rd, hregs]

theorem banksKept_failed {e : Dev} (h : BanksKept d e) : e.is .RJ_STAT_FAILED = d.is .RJ_STAT_FAILED :=
  congrArg (· == 1) (h .RJ_STAT_FAILED (by decide))

theorem banksKept_bankOk {e : Dev} (h : BanksKept d e) (bank : Nat) : e.bankOk bank = d.bankOk bank :=
  congrArg (·.testBit bank) (h .RJ_STAT_BANK_OK (by decide))

theorem banksKept_sparesUsed {e : Dev} (h : BanksKept d e) (bank : Nat) : e.sparesUsed bank = d.sparesUsed bank := by
  unfold Dev.sparesUsed
  by_cases hb : bank = 0
  · rw [if_pos hb, if_pos hb, h .RJ_SPARE_USED0 (by decide)]
  · rw [if_neg hb, if_neg hb, h .RJ_SPARE_USED1 (by decide)]

/-- The unit that has logged each row of a bank remapped since `before`. -/
def remapsLogged (before : Dev) (bank : Nat) (d : Dev) : Dev :=
  d.each (List.range (d.sparesUsed bank - before.sparesUsed bank)) fun d _ => d.event { code := 0x4001, src := bank }

/-- The unit that has reported a bank failed since `before`. -/
def bankReported (before : Dev) (bank : Nat) (d : Dev) : Dev :=
  d.cond (before.bankOk bank && !d.bankOk bank) fun d => (d.event { code := 0x4002, src := bank }).attn 6

/-- The unit that has reported both banks failed since `before`. -/
def failureReported (before d : Dev) : Dev := d.cond (d.is .RJ_STAT_FAILED && !before.is .RJ_STAT_FAILED) journalFailed

theorem journalAfter_eq (before d : Dev) : journalAfter before d =
    failureReported before (bankReported before 1 (bankReported before 0 (remapsLogged before 1 (remapsLogged before 0 d)))) := rfl

theorem remapsLogged_kept {e : Dev} (h : BanksKept d e) (bank : Nat) : remapsLogged d bank e = e := by
  rw [remapsLogged, banksKept_sparesUsed h, Nat.sub_self, List.range_zero, each_nil]

theorem bankReported_same {e : Dev} {bank : Nat} (h : e.bankOk bank = d.bankOk bank) : bankReported d bank e = e := by
  rw [bankReported, h, Bool.and_not_self, Laws.cond_false]

theorem failureReported_not {e : Dev} (h : e.is .RJ_STAT_FAILED = d.is .RJ_STAT_FAILED) : failureReported d e = e := by
  rw [failureReported, h, Bool.and_not_self, Laws.cond_false]

/-- Firmware has nothing to report where the banks are as they were. -/
theorem journalAfter_kept {e : Dev} (h : BanksKept d e) : journalAfter d e = e := by
  rw [journalAfter_eq, remapsLogged_kept h, remapsLogged_kept h, bankReported_same (banksKept_bankOk h 0), bankReported_same (banksKept_bankOk h 1),
    failureReported_not (banksKept_failed h)]

/-! The front of the queue written (R415 to R418). -/

theorem frontTaken_regs (rest : List Submission) (d : Dev) : (frontTaken rest d).regs = d.regs := rfl

theorem setSeq_kept {e : Dev} (n : Nat) (h : BanksKept d e) : BanksKept d (e.setSeq n) :=
  banksKept_fs (banksKept_fs h)

theorem rjCount_kept {e : Dev} (h : BanksKept d e) : BanksKept d (rjCount 0 e) := by
  have hcount : BanksKept d (e.bump .RJ_CNT_REC) := banksKept_wr h (by decide)
  exact banksKept_regs hcount rfl

theorem recordCounted_kept {e : Dev} (event : Bool) (slot : Nat) (b : Bytes) (h : BanksKept d e) : BanksKept d (recordCounted event slot b e) :=
  rjCount_kept (setSeq_kept _ (banksKept_regs h (onJournal_regs _ _)))

theorem headNext_kept {e : Dev} (event : Bool) (slot : Nat) (h : BanksKept d e) : BanksKept d (headNext event slot e) := by
  cases event
  · exact banksKept_fs h
  · exact banksKept_fs h

theorem recordStands_kept (x : Submission) (rest : List Submission) (d : Dev) : BanksKept d (recordStands x rest d) :=
  headNext_kept _ _ (recordCounted_kept _ _ _ (banksKept_regs (banksKept_refl d) (frontTaken_regs rest d)))

/-- The front of the queue written to two good banks. -/
theorem recordWrite_good (hopen : d.journalOpen = true) (hbanks : d.fg .RJ_STAT_BANK_OK = 3) (hqueue : d.journal.queue = x :: rest)
    (hroom : x.event = true ∨ d.ringFull = false) :
    d.recordWrite [] [] = ((acceptWaiting 8 (recordStands x rest d)).fullUpdate, some (recordBytes d.nextSeq x.qtime x.bytes)) := by
  have hmay : (!d.journalOpen || (!x.event && d.ringFull)) = false := by
    rw [hopen]
    obtain h | h := hroom <;> rw [h] <;> simp
  have hfailed := journalOpen_notFailed hopen
  have hwritten : (frontTaken rest d).writeRecord 512 x.event (headSlot x.event d) (recordBytes d.nextSeq x.qtime x.bytes) [] [] =
      recordCounted x.event (headSlot x.event d) (recordBytes d.nextSeq x.qtime x.bytes) (frontTaken rest d) :=
    writeRecord_good 512 _ _ _ hbanks hfailed
  have hstill : (recordStands x rest d).is .RJ_STAT_FAILED = false := (banksKept_failed (recordStands_kept x rest d)).trans hfailed
  unfold Dev.recordWrite
  rw [hqueue]
  dsimp only
  rw [hmay, if_neg (by decide), ← headSlot, ← frontTaken, hwritten, ← headNext, ← recordStands, hstill, if_neg (by decide)]

end

end Sys2Proof.Proofs
end

section
/-!
SUPPORT. The writing of a record (13_ream_journal.md R411, R413, R415 to R418, R425): its SEQ, its count, the ring's head, and what firmware does
with it.
-/

namespace Sys2Proof.Proofs

open Sys2Proof Sys2Proof.Machine Sys2Proof.Laws

section
variable {d : Dev} {x : Submission} {rest : List Submission}

/-! The journal after the record. -/

theorem setSeq_journal (n : Nat) (d : Dev) : (d.setSeq n).journal = d.journal := by rw [Dev.setSeq, fs_journal, fs_journal]

theorem rjCount_journal (k : Nat) (d : Dev) : (rjCount k d).journal = d.journal := by
  unfold rjCount
  dsimp only
  rw [bump_journal]

theorem headNext_journal (event : Bool) (slot : Nat) (d : Dev) : (headNext event slot d).journal = d.journal := by
  cases event <;> exact fs_journal _ _ _ _ _

/-- The journal with the front of the queue written to both banks. -/
def writtenJournal (x : Submission) (rest : List Submission) (d : Dev) : Journal :=
  bothBanks (slotRow x.event (headSlot x.event d)) (recordBytes d.nextSeq x.qtime x.bytes) { d.journal with queue := rest }

theorem recordStands_journal : (recordStands x rest d).journal = writtenJournal x rest d := by
  rw [recordStands, headNext_journal, recordCounted, rjCount_journal, setSeq_journal, onJournal_journal, frontTaken, onJournal_journal, writtenJournal]

theorem writtenJournal_keeps : writtenJournal x rest d = { d.journal with queue := rest, rows := (writtenJournal x rest d).rows } :=
  bothBanks_keeps _ _ _

/-- With nothing waiting the record is all that the journal takes in. -/
theorem recordStands_settled (hwaiting : d.journal.waiting = []) : acceptWaiting 8 (recordStands x rest d) = recordStands x rest d := by
  refine acceptWaiting_none 8 ?_
  rw [recordStands_journal, writtenJournal_keeps]
  exact hwaiting

/-! SEQ, the count and the head. -/

theorem nextSeq_setSeq {n : Nat} (h : n < 2 ^ 48) (d : Dev) : (d.setSeq n).nextSeq = n := by
  have hlo : (d.setSeq n).fg .RJ_SEQ_LO_SEQ = n % 2 ^ 32 :=
    (fg_fs_single _ _ (by decide)).trans (fg_fs_of_lt d 0 (by decide) (Nat.mod_lt _ (by decide)))
  have hhi : (d.setSeq n).fg .RJ_SEQ_HI_SEQ = n / 2 ^ 32 % 2 ^ 16 := fg_fs_of_lt _ 0 (by decide) (Nat.mod_lt _ (by decide))
  rw [Dev.nextSeq, hlo, hhi]
  omega

theorem rjCount_fg (y : Fld) (d : Dev) (h : Reg.RJ_CNT_REC.key 0 0 ≠ y.reg.key 0 0) : (rjCount 0 d).fg y = d.fg y :=
  fg_wr_ne (x := y) (k := 0) d _ h

theorem headNext_fg {y : Fld} (event : Bool) (slot : Nat) (d : Dev) (h : Reg.RJ_HEAD.key 0 0 ≠ y.reg.key 0 0) : (headNext event slot d).fg y = d.fg y := by
  cases event
  · exact fg_fs_ne d .RJ_HEAD_HEAD y _ 0 0 0 0 h
  · exact fg_fs_ne d .RJ_HEAD_EHEAD y _ 0 0 0 0 h

theorem recordCounted_nextSeq (event : Bool) (slot : Nat) (b : Bytes) : (recordCounted event slot b d).nextSeq = (d.nextSeq + 1) % 2 ^ 48 := by
  have hlo := rjCount_fg .RJ_SEQ_LO_SEQ ((d.onJournal (bothBanks (slotRow event slot) b)).setSeq ((d.nextSeq + 1) % 2 ^ 48)) (by decide)
  have hhi := rjCount_fg .RJ_SEQ_HI_SEQ ((d.onJournal (bothBanks (slotRow event slot) b)).setSeq ((d.nextSeq + 1) % 2 ^ 48)) (by decide)
  have hseq := nextSeq_setSeq (n := (d.nextSeq + 1) % 2 ^ 48) (Nat.mod_lt _ (by decide)) (d.onJournal (bothBanks (slotRow event slot) b))
  rw [recordCounted, Dev.nextSeq, hlo, hhi, ← Dev.nextSeq, hseq]

theorem recordStands_nextSeq : (recordStands x rest d).nextSeq = (d.nextSeq + 1) % 2 ^ 48 := by
  rw [recordStands, Dev.nextSeq, headNext_fg _ _ _ (by decide), headNext_fg _ _ _ (by decide), ← Dev.nextSeq, recordCounted_nextSeq, frontTaken,
    onJournal_nextSeq]

theorem recordCounted_fg {y : Fld} (event : Bool) (slot : Nat) (b : Bytes) (hcount : Reg.RJ_CNT_REC.key 0 0 ≠ y.reg.key 0 0)
    (hlo : Reg.RJ_SEQ_LO.key 0 0 ≠ y.reg.key 0 0) (hhi : Reg.RJ_SEQ_HI.key 0 0 ≠ y.reg.key 0 0) : (recordCounted event slot b d).fg y = d.fg y := by
  rw [recordCounted, rjCount_fg _ _ hcount, setSeq_is hlo hhi, onJournal_fg]

/-- The head of the ring moves to the next slot; the other ring's head stays. -/
theorem recordStands_head : if x.event then
    (recordStands x rest d).fg .RJ_HEAD_EHEAD = (headSlot x.event d + 1) % eventSlots ∧ (recordStands x rest d).fg .RJ_HEAD_HEAD = d.fg .RJ_HEAD_HEAD
    else (recordStands x rest d).fg .RJ_HEAD_HEAD = (headSlot x.event d + 1) % mainSlots ∧
      (recordStands x rest d).fg .RJ_HEAD_EHEAD = d.fg .RJ_HEAD_EHEAD := by
  unfold recordStands
  generalize headSlot x.event d = slot
  have hhead := recordCounted_fg (d := frontTaken rest d) (y := .RJ_HEAD_HEAD) x.event slot (recordBytes d.nextSeq x.qtime x.bytes) (by decide) (by decide)
    (by decide)
  have hehead := recordCounted_fg (d := frontTaken rest d) (y := .RJ_HEAD_EHEAD) x.event slot (recordBytes d.nextSeq x.qtime x.bytes) (by decide)
    (by decide) (by decide)
  generalize recordCounted x.event slot (recordBytes d.nextSeq x.qtime x.bytes) (frontTaken rest d) = u at *
  cases x.event
  · exact ⟨fg_fs_of_lt u 0 (by decide) (lt_of_lt_of_le (Nat.mod_lt _ (by decide)) (by decide)), (fg_fs_single u _ (by decide)).trans hehead⟩
  · exact ⟨fg_fs_of_lt u 0 (by decide) (lt_of_lt_of_le (Nat.mod_lt _ (by decide)) (by decide)), (fg_fs_single u _ (by decide)).trans hhead⟩

theorem headNext_rd {r : Reg} (event : Bool) (slot : Nat) (d : Dev) (h : Reg.RJ_HEAD.key 0 0 ≠ r.key 0 0) : (headNext event slot d).rd r = d.rd r := by
  cases event
  · exact rd_wr_ne d .RJ_HEAD r _ 0 0 0 0 h
  · exact rd_wr_ne d .RJ_HEAD r _ 0 0 0 0 h

theorem setSeq_rd {r : Reg} (n : Nat) (d : Dev) (hlo : Reg.RJ_SEQ_LO.key 0 0 ≠ r.key 0 0) (hhi : Reg.RJ_SEQ_HI.key 0 0 ≠ r.key 0 0) :
    (d.setSeq n).rd r = d.rd r := (rd_wr_ne _ .RJ_SEQ_HI r _ 0 0 0 0 hhi).trans (rd_wr_ne _ .RJ_SEQ_LO r _ 0 0 0 0 hlo)

theorem rjCount_rd (d : Dev) : (rjCount 0 d).rd .RJ_CNT_REC = BitVec.ofNat 32 (limitN 0 0xFFFFFFFF ((d.rd .RJ_CNT_REC).toNat + 1)) :=
  rd_wr d .RJ_CNT_REC _ 0 0

theorem recordStands_count : (recordStands x rest d).rd .RJ_CNT_REC = BitVec.ofNat 32 (limitN 0 0xFFFFFFFF ((d.rd .RJ_CNT_REC).toNat + 1)) := by
  rw [recordStands, headNext_rd _ _ _ (by decide), recordCounted, rjCount_rd, setSeq_rd _ _ (by decide) (by decide), onJournal_rd, frontTaken, onJournal_rd]

/-! What else changes. -/

/-- The keys of the registers that a record's writing changes. -/
def recordKeys : List Nat :=
  [Reg.RJ_STAT.key 0 0, Reg.RJ_HEAD.key 0 0, Reg.RJ_SEQ_LO.key 0 0, Reg.RJ_SEQ_HI.key 0 0, Reg.RJ_CNT_REC.key 0 0]

theorem rjCount_changes {e u : Dev} (h : Changes recordKeys d e u) : Changes recordKeys d (rjCount 0 e)
    { u with fw := { u.fw with rjTotals := u.fw.rjTotals.modify 0 (· + 1) } } := by
  have hbump : Changes recordKeys d (e.bump .RJ_CNT_REC) u := changes_bump h
  obtain ⟨hkept, hrest⟩ := hbump
  refine ⟨hkept, ?_⟩
  have hform : rjCount 0 e = { e.bump .RJ_CNT_REC with
    fw := { (e.bump .RJ_CNT_REC).fw with rjTotals := (e.bump .RJ_CNT_REC).fw.rjTotals.modify 0 (· + 1) } } := rfl
  rw [hform]
  generalize e.bump .RJ_CNT_REC = f at *
  rw [hrest]

theorem headNext_changes {e u : Dev} (event : Bool) (slot : Nat) (h : Changes recordKeys d e u) : Changes recordKeys d (headNext event slot e) u := by
  cases event
  · exact changes_fs h
  · exact changes_fs h

theorem recordStands_changes : Changes recordKeys d (recordStands x rest d)
    { d with journal := writtenJournal x rest d, fw := { d.fw with rjTotals := d.fw.rjTotals.modify 0 (· + 1) } } := by
  have hstood : Changes recordKeys d ((frontTaken rest d).onJournal (bothBanks (slotRow x.event (headSlot x.event d)) (recordBytes d.nextSeq x.qtime x.bytes)))
    { d with journal := writtenJournal x rest d } := ⟨fun _ _ => rfl, rfl⟩
  exact headNext_changes _ _ (rjCount_changes (changes_fs (changes_fs hstood)))

end

end Sys2Proof.Proofs
end

section
/-!
SUPPORT. The writing of a record (13_ream_journal.md R411, R413, R415 to R418, R425): what firmware does with it, a bank that fails, and
reading one back.
-/

namespace Sys2Proof.Proofs

open Sys2Proof Sys2Proof.Machine Sys2Proof.Laws

section
variable {d : Dev} {x : Submission} {rest : List Submission} {b : Bytes}

/-! What firmware does with a durable record. -/

theorem levelWrite_journal (d : Dev) : d.levelWrite.journal = d.journal := by
  unfold Dev.levelWrite
  dsimp only
  split_ifs
  · exact wr_journal _ _ _ _ _
  · exact wr_journal _ _ _ _ _
  · rfl

theorem levelWrite_kept {e : Dev} (h : BanksKept d e) : BanksKept d e.levelWrite := by
  unfold Dev.levelWrite
  dsimp only
  split_ifs
  · exact banksKept_wr h (by decide)
  · exact banksKept_wr h (by decide)
  · exact h

theorem recordDurable_journal (b : Bytes) (d : Dev) : (recordDurable b d).journal = d.journal := by
  unfold recordDurable
  dsimp only
  split
  · exact onStream_journal _ _ _
  · rw [levelWrite_journal, onFw_journal]
  · split_ifs
    · rfl
    · exact onStream_journal _ _ _
  · exact onFw_journal _ _
  · rfl

theorem recordDurable_kept (b : Bytes) (d : Dev) : BanksKept d (recordDurable b d) := by
  unfold recordDurable
  dsimp only
  split
  · exact banksKept_regs (banksKept_refl d) (onStream_regs _ _ _)
  · exact levelWrite_kept (banksKept_regs (banksKept_refl d) (onFw_regs _ _))
  · split_ifs
    · exact banksKept_refl d
    · exact banksKept_regs (banksKept_refl d) (onStream_regs _ _ _)
  · exact banksKept_regs (banksKept_refl d) (onFw_regs _ _)
  · exact banksKept_refl d

theorem fullUpdate_journal (d : Dev) : d.fullUpdate.journal = d.journal := fs_journal _ _ _ _ _

theorem fullUpdate_kept {e : Dev} (h : BanksKept d e) : BanksKept d e.fullUpdate := banksKept_fs h

theorem setTail_journal (d : Dev) : (setTail d).journal = d.journal := by
  unfold setTail
  dsimp only
  rw [fullUpdate_journal, fs_journal]

theorem setTail_kept {e : Dev} (h : BanksKept d e) : BanksKept d (setTail e) := fullUpdate_kept (banksKept_fs h)

/-- The unit whose firmware has been told of a durable record. -/
def recordTold (b : Bytes) (d : Dev) : Dev := (recordDurable b d).cond (recordType b == 0x0B) setTail

theorem recordTold_journal (b : Bytes) (d : Dev) : (recordTold b d).journal = d.journal := by
  unfold recordTold
  cases recordType b == 0x0B
  · rw [Laws.cond_false, recordDurable_journal]
  · rw [Laws.cond_true, setTail_journal, recordDurable_journal]

theorem recordTold_kept {e : Dev} (b : Bytes) (h : BanksKept d e) : BanksKept d (recordTold b e) := by
  have htold := banksKept_trans h (recordDurable_kept b e)
  unfold recordTold
  cases recordType b == 0x0B
  · rw [Laws.cond_false]
    exact htold
  · rw [Laws.cond_true]
    exact setTail_kept htold

/-- A record of a type that tells firmware nothing. -/
theorem recordTold_other (h : recordType b ∉ [0x01, 0x02, 0x08, 0x0B]) : recordTold b d = d := by
  simp only [List.mem_cons, List.not_mem_nil, or_false, not_or] at h
  obtain ⟨hintent, hcommit, horder, hcheckpoint⟩ := h
  have hnothing : recordDurable b d = d := by
    unfold recordDurable
    dsimp only
    split
    · contradiction
    · contradiction
    · contradiction
    · contradiction
    · rfl
  rw [recordTold, hnothing, beq_false_of_ne hcheckpoint, Laws.cond_false]

theorem rjRecordWrite_some {fails0 fails1 : List Bool} {e : Dev} (h : d.recordWrite fails0 fails1 = (e, some b)) :
    rjRecordWrite fails0 fails1 d = journalAfter d (recordTold b e) := by
  unfold rjRecordWrite
  rw [h]
  rfl

theorem rjRecordWrite_none {fails0 fails1 : List Bool} {e : Dev} (h : d.recordWrite fails0 fails1 = (e, none)) :
    rjRecordWrite fails0 fails1 d = journalAfter d e := by
  unfold rjRecordWrite
  rw [h]

/-! Waiting submissions taken in (R416). -/

theorem acceptWaiting_rows (n : Nat) : ∀ d : Dev, (acceptWaiting n d).journal.rows = d.journal.rows := by
  induction n with
  | zero => exact fun d => rfl
  | succ n ih =>
    intro d
    unfold acceptWaiting
    split
    · split
      · rw [ih, onJournal_journal]
      · rfl
    · rfl

theorem acceptWaiting_kept {e : Dev} (n : Nat) (h : BanksKept d e) : BanksKept d (acceptWaiting n e) := by
  obtain ⟨j, hj⟩ := acceptWaiting_journal n e
  rw [hj]
  exact banksKept_regs h (onJournal_regs _ _)

/-- The record written and told, with what waited taken in: the rows of its slot, and the banks as they were. -/
theorem rjRecordWrite_rows (hopen : d.journalOpen = true) (hbanks : d.fg .RJ_STAT_BANK_OK = 3) (hqueue : d.journal.queue = x :: rest)
    (hroom : x.event = true ∨ d.ringFull = false) : (rjRecordWrite [] [] d).journal.rows = (writtenJournal x rest d).rows := by
  have hkept := recordTold_kept (recordBytes d.nextSeq x.qtime x.bytes) (fullUpdate_kept (acceptWaiting_kept 8 (recordStands_kept x rest d)))
  rw [rjRecordWrite_some (recordWrite_good hopen hbanks hqueue hroom), journalAfter_kept hkept, recordTold_journal, fullUpdate_journal,
    acceptWaiting_rows, recordStands_journal]

/-- A record of a type that tells firmware nothing, with nothing waiting: the unit is `recordStands` with FULL brought up to date. -/
theorem rjRecordWrite_quiet (hopen : d.journalOpen = true) (hbanks : d.fg .RJ_STAT_BANK_OK = 3) (hqueue : d.journal.queue = x :: rest)
    (hwaiting : d.journal.waiting = []) (hroom : x.event = true ∨ d.ringFull = false)
    (htype : recordType (recordBytes d.nextSeq x.qtime x.bytes) ∉ [0x01, 0x02, 0x08, 0x0B]) :
    rjRecordWrite [] [] d = (recordStands x rest d).fullUpdate := by
  rw [rjRecordWrite_some (recordWrite_good hopen hbanks hqueue hroom), recordTold_other htype, recordStands_settled hwaiting]
  exact journalAfter_kept (fullUpdate_kept (recordStands_kept x rest d))

theorem fullUpdate_fg {y : Fld} (d : Dev) (h : SingleApart .RJ_STAT_FULL y) : d.fullUpdate.fg y = d.fg y := fg_fs_single d _ h

theorem fullUpdate_rd {r : Reg} (d : Dev) (h : Reg.RJ_STAT.key 0 0 ≠ r.key 0 0) : d.fullUpdate.rd r = d.rd r := rd_wr_ne d .RJ_STAT r _ 0 0 0 0 h

theorem fullUpdate_changes {e u : Dev} (h : Changes recordKeys d e u) : Changes recordKeys d e.fullUpdate u := changes_fs h

/-- What a record's writing leaves (R411, R413, R415). -/
theorem recordStands_gives {slot : Nat} {r : Dev} (hr : r = (recordStands x rest d).fullUpdate) (hslot : slot = headSlot x.event d)
    (hring : slot < ringSlots x.event) : r.journal.recordIn 0 x.event slot = recordBytes d.nextSeq x.qtime x.bytes ∧
      r.journal.recordIn 1 x.event slot = recordBytes d.nextSeq x.qtime x.bytes ∧
      recordOk (r.journal.recordIn 0 x.event slot) = true ∧
      r.nextSeq = (d.nextSeq + 1) % 2 ^ 48 ∧
      (if x.event then r.fg .RJ_HEAD_EHEAD = (slot + 1) % eventSlots ∧ r.fg .RJ_HEAD_HEAD = d.fg .RJ_HEAD_HEAD
      else r.fg .RJ_HEAD_HEAD = (slot + 1) % mainSlots ∧ r.fg .RJ_HEAD_EHEAD = d.fg .RJ_HEAD_EHEAD) ∧
      r.rd .RJ_CNT_REC = BitVec.ofNat 32 (limitN 0 0xFFFFFFFF ((d.rd .RJ_CNT_REC).toNat + 1)) ∧
      r.journal.queue = rest ∧ r.journal.held = d.journal.held ∧
      Changes recordKeys d r { d with journal := { d.journal with queue := rest, rows := r.journal.rows }, fw := { d.fw with rjTotals := d.fw.rjTotals.modify 0 (· + 1) } } := by
  have hchanges := fullUpdate_changes (recordStands_changes (d := d) (x := x) (rest := rest))
  have hhead := recordStands_head (d := d) (x := x) (rest := rest)
  have hseq := recordStands_nextSeq (d := d) (x := x) (rest := rest)
  have hcount := recordStands_count (d := d) (x := x) (rest := rest)
  have hjournal := recordStands_journal (d := d) (x := x) (rest := rest)
  have hkeeps := writtenJournal_keeps (d := d) (x := x) (rest := rest)
  have hrecord := recordIn_bothBanks (j := { d.journal with queue := rest }) hring (recordBytes_length d.nextSeq x.qtime x.bytes)
  rw [hslot, ← writtenJournal] at hrecord
  obtain ⟨hzero, hone⟩ := hrecord
  rw [← hslot] at hhead hzero hone
  rw [← fullUpdate_journal, ← hr] at hjournal
  rw [← hr, hkeeps] at hchanges
  generalize recordStands x rest d = u at *
  rw [← hjournal] at hzero hone hkeeps hchanges
  have hfg : ∀ y : Fld, SingleApart .RJ_STAT_FULL y → r.fg y = u.fg y := fun y hy => by rw [hr, fullUpdate_fg u hy]
  have hnext : r.nextSeq = u.nextSeq := by rw [Dev.nextSeq, hfg _ (by decide), hfg _ (by decide), ← Dev.nextSeq]
  refine ⟨hzero, hone, ?_, hnext.trans hseq, ?_, ?_, ?_, ?_, hchanges⟩
  · rw [hzero]
    exact recordOk_recordBytes _ _ _
  · rw [hfg _ (by decide), hfg _ (by decide)]
    exact hhead
  · rw [hr, fullUpdate_rd u (by decide)]
    exact hcount
  · rw [hkeeps]
  · rw [hkeeps]

/-! A ring that is full (R417). -/

theorem ringFull_waits (hqueue : d.journal.queue = x :: rest) (hmain : x.event = false) (hfull : d.ringFull = true) :
    rjRecordWrite [] [] d = d.fs .RJ_STAT_FULL 1 := by
  have hwait : (!d.journalOpen || (!x.event && d.ringFull)) = true := by rw [hmain, hfull, Bool.not_false, Bool.and_true, Bool.or_true]
  have hupdate : d.fullUpdate = d.fs .RJ_STAT_FULL 1 := by
    unfold Dev.fullUpdate
    rw [hqueue]
    dsimp only
    rw [hmain, hfull]
    rfl
  have hnone : d.recordWrite [] [] = (d.fullUpdate, none) := by
    unfold Dev.recordWrite
    rw [hqueue]
    dsimp only
    rw [hwait, if_pos rfl]
  rw [rjRecordWrite_none hnone, hupdate]
  exact journalAfter_kept (banksKept_fs (banksKept_refl d))

end

end Sys2Proof.Proofs
end

section
/-!
SUPPORT. The records of the journal (13_ream_journal.md R411 to R420, R425): a bank that fails, a record read back, and submissions.
-/

namespace Sys2Proof.Proofs

open Sys2Proof Sys2Proof.Machine Sys2Proof.Laws

section
variable {d : Dev} {x : Submission} {rest : List Submission} {b : Bytes} {row : Nat}

/-! Bank 0 fails with no spare left (R418, R425). -/

/-- The unit whose first row of a record failed its rewrite in bank 0. -/
def rowLost (row : Nat) (d : Dev) : Dev :=
  (d.onJournal fun j => j.putRow 0 (d.journal.physical 0 row) (BitVec.ofNat 128 (d.freeNat (2 ^ 128)))).drew

/-- The unit whose bank 0 has failed at a row for want of a spare. -/
def bankLost (row : Nat) (d : Dev) : Dev := (rowLost row d).bankFail 0 4 row

/-- The registers of a unit with a bank failed and the other good. -/
def bankNoted (d : Dev) : Dev := (d.fs .RJ_STAT_BANK_OK 2).fs .RJ_STAT_DEGRADED 1

theorem rowLost_fg (y : Fld) : (rowLost row d).fg y = d.fg y := rfl

theorem bankLost_eq (hbanks : d.fg .RJ_STAT_BANK_OK = 3) : bankLost row d = (bankNoted (rowLost row d)).gasp 4 0 row := by
  have hboth : (rowLost row d).fg .RJ_STAT_BANK_OK = 3 := (rowLost_fg _).trans hbanks
  unfold bankLost
  generalize rowLost row d = u at *
  have hone : ((u.fs .RJ_STAT_BANK_OK 2).fs .RJ_STAT_DEGRADED 1).fg .RJ_STAT_BANK_OK = 2 :=
    (fg_fs_single _ 1 (by decide)).trans (fg_fs_of_lt u 0 (by decide) (by decide))
  have hleft : ((bankNoted u).gasp 4 0 row).fg .RJ_STAT_BANK_OK = 2 := (onJournal_fg _ _ _ _ _).trans hone
  have hbit : 3 &&& (3 - 2 ^ 0) = 2 := rfl
  unfold Dev.bankFail
  dsimp only
  rw [hboth, hbit, ← bankNoted, hleft]
  rfl

theorem bankLost_fields (hbanks : d.fg .RJ_STAT_BANK_OK = 3) : (bankLost row d).fg .RJ_STAT_BANK_OK = 2 ∧
    (bankLost row d).is .RJ_STAT_DEGRADED = true ∧ (bankLost row d).is .RJ_STAT_FAILED = d.is .RJ_STAT_FAILED ∧
    ∀ bank, (bankLost row d).sparesUsed bank = d.sparesUsed bank := by
  have hfg : ∀ y : Fld, (bankLost row d).fg y = (bankNoted (rowLost row d)).fg y := fun y => by
    rw [bankLost_eq hbanks]
    exact onJournal_fg _ _ _ _ _
  have hkept : ∀ y : Fld, SingleApart .RJ_STAT_BANK_OK y → SingleApart .RJ_STAT_DEGRADED y → (bankLost row d).fg y = d.fg y := fun y hb hd => by
    rw [hfg, bankNoted, fg_fs_single _ _ hd, fg_fs_single _ _ hb, rowLost_fg]
  refine ⟨?_, ?_, ?_, fun bank => ?_⟩
  · rw [hfg, bankNoted, fg_fs_single _ _ (by decide)]
    exact fg_fs_of_lt _ 0 (by decide) (by decide)
  · rw [Dev.is, hfg, bankNoted]
    exact is_fs_one (x := .RJ_STAT_DEGRADED) _ (by decide) rfl
  · rw [Dev.is, hkept _ (by decide) (by decide)]
    rfl
  · unfold Dev.sparesUsed
    rw [hkept _ (by decide) (by decide), hkept _ (by decide) (by decide)]

/-- The row's write and its rewrite fail, and no spare is left. -/
theorem writeRow_lost (w : Word) (hspares : d.fg .RJ_SPARE_USED0 = 512) :
    writeRow 512 d 0 row w [true, true] = { dev := bankLost row d, fails := [], ok := false } := by
  have hlost : tryRow d 0 (d.journal.physical 0 row) w [true, true] = { dev := rowLost row d, fails := [], ok := false } := by
    simp [tryRow, rowLost]
  have hused : (rowLost row d).sparesUsed 0 = 512 := (rowLost_fg _).trans hspares
  unfold writeRow
  rw [hlost]
  dsimp only
  rw [if_neg (by decide), remapRow]
  dsimp only
  rw [hused, if_pos (Nat.le_refl _), ← bankLost]

/-- Nothing more is written to a bank that has failed. -/
theorem writeBank_lost (b : Bytes) (hbanks : d.fg .RJ_STAT_BANK_OK = 3) (hspares : d.fg .RJ_SPARE_USED0 = 512) :
    writeBank 512 d 0 row b [true, true] = bankLost row d := by
  have hgood : d.bankOk 0 = true := (bankOk_of_both hbanks).1
  have hbad : (bankLost row d).bankOk 0 = false := by
    rw [Dev.bankOk, (bankLost_fields hbanks).1]
    rfl
  have hfour : List.range 4 = [0, 1, 2, 3] := rfl
  unfold writeBank
  rw [hfour]
  simp only [List.foldl_cons, List.foldl_nil, hgood, if_true, Nat.add_zero, writeRow_lost _ hspares, hbad, Bool.false_eq_true, if_false]

/-- The unit whose record stands in bank 1 alone, with SEQ advanced and the record counted. -/
def recordLost (row : Nat) (b : Bytes) (d : Dev) : Dev :=
  rjCount 0 (((bankLost row d).onJournal (putRows 1 row b 4)).setSeq (((bankLost row d).nextSeq + 1) % 2 ^ 48))

theorem recordLost_kept (row : Nat) (b : Bytes) (d : Dev) : BanksKept (bankLost row d) (recordLost row b d) :=
  rjCount_kept (setSeq_kept _ (banksKept_regs (banksKept_refl _) (onJournal_regs _ _)))

theorem recordLost_journal (row : Nat) (b : Bytes) (d : Dev) : (recordLost row b d).journal = putRows 1 row b 4 (bankLost row d).journal := by
  rw [recordLost, rjCount_journal, setSeq_journal, onJournal_journal]

theorem writeRecord_lost (slot : Nat) (b : Bytes) (hbanks : d.fg .RJ_STAT_BANK_OK = 3) (hspares : d.fg .RJ_SPARE_USED0 = 512)
    (hfailed : d.is .RJ_STAT_FAILED = false) : d.writeRecord 512 true slot b [true, true] [] = recordLost (slotRow true slot) b d := by
  obtain ⟨hbad, -, hstill, -⟩ := bankLost_fields (row := slotRow true slot) hbanks
  have hone : (bankLost (slotRow true slot) d).bankOk 1 = true := by
    rw [Dev.bankOk, hbad]
    rfl
  unfold Dev.writeRecord
  dsimp only
  rw [writeBank_lost b hbanks hspares, recordLost]
  generalize bankLost (slotRow true slot) d = u at *
  rw [writeBank_good 512 _ b hone]
  have hgood : (u.onJournal (putRows 1 (slotRow true slot) b 4)).is .RJ_STAT_FAILED = false := (onJournal_is _ _ _ _ _).trans (hstill.trans hfailed)
  rw [hgood, onJournal_nextSeq, Bool.not_false, Laws.cond_true]

/-- The unit that has written the front of the queue, an event, to bank 1 alone. -/
def lostStands (x : Submission) (rest : List Submission) (d : Dev) : Dev :=
  headNext true (d.fg .RJ_HEAD_EHEAD) (recordLost (slotRow true (d.fg .RJ_HEAD_EHEAD)) (recordBytes d.nextSeq x.qtime x.bytes) (frontTaken rest d))

/-- The unit at which bank 0 fails while the front of the queue is written. -/
def lostUnit (rest : List Submission) (d : Dev) : Dev := bankLost (slotRow true (d.fg .RJ_HEAD_EHEAD)) (frontTaken rest d)

theorem lostStands_kept (x : Submission) (rest : List Submission) (d : Dev) : BanksKept (lostUnit rest d) (lostStands x rest d) :=
  headNext_kept _ _ (recordLost_kept _ _ _)

theorem lostStands_record (h : d.fg .RJ_HEAD_EHEAD < eventSlots) :
    (lostStands x rest d).journal.recordIn 1 true (d.fg .RJ_HEAD_EHEAD) = recordBytes d.nextSeq x.qtime x.bytes := by
  rw [lostStands, headNext_journal, recordLost_journal]
  exact recordIn_putRows_self h (recordBytes_length _ _ _)

/-- What the loss of bank 0 leaves: bank 1, degraded, with as many spares used as before. -/
theorem lostUnit_fields (rest : List Submission) (hbanks : d.fg .RJ_STAT_BANK_OK = 3) (hfailed : d.is .RJ_STAT_FAILED = false) :
    (lostUnit rest d).fg .RJ_STAT_BANK_OK = 2 ∧ (lostUnit rest d).is .RJ_STAT_DEGRADED = true ∧ (lostUnit rest d).is .RJ_STAT_FAILED = false ∧
    ∀ bank, (lostUnit rest d).sparesUsed bank = d.sparesUsed bank := by
  obtain ⟨hbad, hdegraded, hstill, hused⟩ := bankLost_fields (d := frontTaken rest d) (row := slotRow true (d.fg .RJ_HEAD_EHEAD)) hbanks
  exact ⟨hbad, hdegraded, hstill.trans hfailed, hused⟩

theorem recordWrite_lost (hopen : d.journalOpen = true) (hbanks : d.fg .RJ_STAT_BANK_OK = 3) (hspares : d.fg .RJ_SPARE_USED0 = 512)
    (hqueue : d.journal.queue = x :: rest) (hevent : x.event = true) :
    d.recordWrite [true, true] [] = ((acceptWaiting 8 (lostStands x rest d)).fullUpdate, some (recordBytes d.nextSeq x.qtime x.bytes)) := by
  have hmay : (!d.journalOpen || (!x.event && d.ringFull)) = false := by
    rw [hopen, hevent]
    rfl
  have hfailed := journalOpen_notFailed hopen
  have hwritten : (frontTaken rest d).writeRecord 512 true (d.fg .RJ_HEAD_EHEAD) (recordBytes d.nextSeq x.qtime x.bytes) [true, true] [] =
      recordLost (slotRow true (d.fg .RJ_HEAD_EHEAD)) (recordBytes d.nextSeq x.qtime x.bytes) (frontTaken rest d) :=
    writeRecord_lost _ _ hbanks hspares hfailed
  obtain ⟨-, -, hgood, -⟩ := lostUnit_fields rest hbanks hfailed
  have hstill : (lostStands x rest d).is .RJ_STAT_FAILED = false := (banksKept_failed (lostStands_kept x rest d)).trans hgood
  have hhead : ∀ u : Dev, u.fs .RJ_HEAD_EHEAD ((d.fg .RJ_HEAD_EHEAD + 1) % eventSlots) = headNext true (d.fg .RJ_HEAD_EHEAD) u := fun _ => rfl
  unfold Dev.recordWrite
  rw [hqueue]
  dsimp only
  rw [hmay, hevent, if_neg (by decide), if_pos rfl, if_pos rfl, ← frontTaken, hwritten, hhead, ← lostStands, hstill, if_neg (by decide)]

/-! Firmware's report of a failed bank (R425). -/

theorem event_rows (d : Dev) (e : EventInfo) : (d.event e).journal.rows = d.journal.rows := by
  unfold Dev.event Dev.fwSubmit
  dsimp only
  split_ifs
  · rfl
  · unfold Dev.submit
    split_ifs
    · rw [fullUpdate_journal, acceptWaiting_rows, onJournal_journal]
    · rfl

theorem event_kept {e : Dev} (i : EventInfo) (h : BanksKept d e) : BanksKept d (e.event i) := by
  obtain ⟨j, hj | ⟨v, hj⟩⟩ := event_journal e i
  · rw [hj]
    exact banksKept_regs h (onJournal_regs _ _)
  · rw [hj]
    exact banksKept_fs (banksKept_regs h (onJournal_regs _ _))

theorem attn_kept {e : Dev} (code : Nat) (h : BanksKept d e) : BanksKept d (e.attn code) := banksKept_fs (banksKept_fs (banksKept_fs h))

theorem bankReported_kept {e : Dev} (before : Dev) (bank : Nat) (h : BanksKept d e) : BanksKept d (bankReported before bank e) := by
  unfold bankReported
  cases before.bankOk bank && !e.bankOk bank
  · rw [Laws.cond_false]
    exact h
  · rw [Laws.cond_true]
    exact attn_kept 6 (event_kept _ h)

theorem attn_journal (d : Dev) (code : Nat) : (d.attn code).journal = d.journal := by rw [Dev.attn, fs_journal, fs_journal, fs_journal]

theorem bankReported_rows (before : Dev) (bank : Nat) (d : Dev) : (bankReported before bank d).journal.rows = d.journal.rows := by
  unfold bankReported
  cases before.bankOk bank && !d.bankOk bank
  · rw [Laws.cond_false]
  · rw [Laws.cond_true, attn_journal, event_rows]

theorem remapsLogged_none {before e : Dev} {bank : Nat} (h : e.sparesUsed bank = before.sparesUsed bank) : remapsLogged before bank e = e := by
  rw [remapsLogged, h, Nat.sub_self, List.range_zero, each_nil]

/-- The report of a failed bank changes neither the rows nor the fields of the banks. -/
theorem journalAfter_bank {before u e : Dev} (hkept : BanksKept u e) (hused : ∀ bank, u.sparesUsed bank = before.sparesUsed bank)
    (hfailed : u.is .RJ_STAT_FAILED = before.is .RJ_STAT_FAILED) :
    BanksKept u (journalAfter before e) ∧ (journalAfter before e).journal.rows = e.journal.rows := by
  have hsame : ∀ bank, e.sparesUsed bank = before.sparesUsed bank := fun bank => (banksKept_sparesUsed hkept bank).trans (hused bank)
  have hreported := bankReported_kept before 1 (bankReported_kept before 0 hkept)
  have hnone := failureReported_not ((banksKept_failed hreported).trans hfailed)
  rw [journalAfter_eq, remapsLogged_none (hsame 0), remapsLogged_none (hsame 1), hnone]
  exact ⟨hreported, (bankReported_rows before 1 _).trans (bankReported_rows before 0 e)⟩

/-- A record whose first row fails twice in bank 0, with no spare left there (R418, R425). -/
theorem rjRecordWrite_lost {r : Dev} (hr : r = rjRecordWrite [true, true] [] d) (hopen : d.journalOpen = true) (hbanks : d.fg .RJ_STAT_BANK_OK = 3)
    (hspares : d.fg .RJ_SPARE_USED0 = 512) (hqueue : d.journal.queue = x :: rest) (hevent : x.event = true)
    (hslot : d.fg .RJ_HEAD_EHEAD < eventSlots) : r.fg .RJ_STAT_BANK_OK = 2 ∧ r.is .RJ_STAT_DEGRADED = true ∧ r.is .RJ_STAT_FAILED = false ∧
      r.journal.recordIn 1 true (d.fg .RJ_HEAD_EHEAD) = recordBytes d.nextSeq x.qtime x.bytes := by
  have hfailed := journalOpen_notFailed hopen
  obtain ⟨hbad, hdegraded, hstill, hused⟩ := lostUnit_fields rest hbanks hfailed
  have htold := recordTold_kept (recordBytes d.nextSeq x.qtime x.bytes) (fullUpdate_kept (acceptWaiting_kept 8 (lostStands_kept x rest d)))
  rw [rjRecordWrite_some (recordWrite_lost hopen hbanks hspares hqueue hevent)] at hr
  obtain ⟨hkept, hrows⟩ := journalAfter_bank htold hused (hstill.trans hfailed.symm)
  rw [← hr] at hkept hrows
  rw [recordTold_journal, fullUpdate_journal, acceptWaiting_rows] at hrows
  refine ⟨?_, ?_, ?_, ?_⟩
  · rw [hkept _ (by decide), hbad]
  · rw [Dev.is, hkept _ (by decide)]
    exact hdegraded
  · rw [banksKept_failed hkept, hstill]
  · rw [recordIn_rows hrows, lostStands_record hslot]

/-! Reading a record back (R420). -/

section
variable {event : Bool} {slot : Nat} (h : slot < ringSlots event)
include h

theorem rjRecordRead_first (hbank : d.bankOk 0 = true) (hok : recordOk (d.journal.recordIn 0 event slot) = true) :
    rjRecordRead event slot d = { d with answer := d.journal.recordIn 0 event slot } := by
  have hread : d.recordRead event slot = (d.journal.recordIn 0 event slot, false, true) := by
    unfold Dev.recordRead
    dsimp only
    rw [hbank, hok]
    rfl
  unfold rjRecordRead
  dsimp only
  rw [← ringSlots, Nat.mod_eq_of_lt h, hread]
  rfl

theorem rjRecordRead_second (hbad : d.bankOk 0 = false) (hbank : d.bankOk 1 = true) (hok : recordOk (d.journal.recordIn 1 event slot) = true) :
    rjRecordRead event slot d = { (d.fs .RJ_STAT_RD_ALT 1) with answer := d.journal.recordIn 1 event slot } := by
  have hread : d.recordRead event slot = (d.journal.recordIn 1 event slot, true, true) := by
    unfold Dev.recordRead
    dsimp only
    rw [hbad, hbank, hok]
    rfl
  unfold rjRecordRead
  dsimp only
  rw [← ringSlots, Nat.mod_eq_of_lt h, hread]
  rfl

end

/-! Submissions (R416). -/

theorem rjSubmit_closed {event : Bool} {data : Bytes} (hopen : d.journalOpen = false) : rjSubmit event data d = { d with error := true } := by
  have hrefused : d.submit event data = d := if_neg (by simp [hopen])
  rw [rjSubmit, hrefused, hopen]
  rfl

/-- The unit with a submission at the end of the queue. -/
def queued (event : Bool) (data : Bytes) (d : Dev) : Dev := d.onJournal fun j => { j with
  queue := j.queue ++ [{ event := event, bytes := takeFill 0#8 64 data, qtime := d.qtime }], waiting := [] }

theorem rjSubmit_open {event : Bool} {data : Bytes} {r : Dev} (hr : r = rjSubmit event data d) (hopen : d.journalOpen = true)
    (hqueue : d.journal.queue.length < 8) (hwaiting : d.journal.waiting = []) :
    r.journal = { d.journal with queue := d.journal.queue ++ [{ event := event, bytes := takeFill 0#8 64 data, qtime := d.qtime }] } ∧
    Changes [Reg.RJ_STAT.key 0 0] d r { d with journal := r.journal, error := false } := by
  have hsent : d.submit event data = (queued event data d).fullUpdate := submit_open hopen hqueue hwaiting event data
  have hform : r = { (queued event data d).fullUpdate with error := false } := by
    rw [hr, rjSubmit, hsent, hopen]
    rfl
  have hjournal : r.journal = (queued event data d).journal := by rw [hform]; rfl
  have hqueued : (queued event data d).journal =
      { d.journal with queue := d.journal.queue ++ [{ event := event, bytes := takeFill 0#8 64 data, qtime := d.qtime }] } := by
    rw [queued, onJournal_journal, ← hwaiting]
  have hstart : Changes [Reg.RJ_STAT.key 0 0] d (queued event data d) { d with journal := (queued event data d).journal } := ⟨fun _ _ => rfl, rfl⟩
  have hchanged : Changes [Reg.RJ_STAT.key 0 0] d (queued event data d).fullUpdate { d with journal := (queued event data d).journal } := changes_fs hstart
  obtain ⟨hkept, hrest⟩ := hchanged
  refine ⟨hjournal.trans hqueued, ?_, ?_⟩
  · rw [hform]
    exact hkept
  · rw [hjournal, hform]
    generalize (queued event data d).fullUpdate = u at *
    rw [hrest]

end

end Sys2Proof.Proofs
end

section
/-!
PROOFS. The records of the journal (13_ream_journal.md R411 to R420, R425): the obligation.
-/

namespace Sys2Proof.Proofs

open Sys2Proof Sys2Proof.Machine Sys2Proof.Laws

/-- Settles O29: two rows of a bank never share a physical row, so that a record's four rows stand in its slot and no other slot changes. -/
theorem journalRecords : Obligations.JournalRecords := by
  unfold Obligations.JournalRecords
  refine ⟨fun event data s hopen ⟨hqueue, hwaiting⟩ => ?_,
    fun event data s hopen => becomes_of_eq (f := rjSubmit event data) rfl (rjSubmit_closed hopen),
    fun x rest slot s ⟨hopen, hbanks⟩ ⟨hqueue, hwaiting⟩ hroom hslot hring htype => ?_,
    fun x rest slot event i bank s ⟨hopen, hbanks⟩ hqueue hroom hslot ⟨hring, hi⟩ hne => ?_,
    fun x rest s ⟨hqueue, hmain⟩ hfull => becomes_of_eq (f := rjRecordWrite [] []) rfl (ringFull_waits hqueue hmain hfull),
    fun x rest s ⟨hopen, hbanks, hspares⟩ hqueue hevent hslot => ?_,
    fun event slot s hring ⟨hbank, hok⟩ => becomes_of_eq (f := rjRecordRead event slot) rfl (rjRecordRead_first hring hbank hok),
    fun event slot s hring ⟨hbad, hbank⟩ hok => becomes_of_eq (f := rjRecordRead event slot) rfl (rjRecordRead_second hring hbad hbank hok)⟩
  · obtain ⟨r, hr⟩ : ∃ r, r = rjSubmit event data s.dev := ⟨_, rfl⟩
    exact gives_of_eq (f := rjSubmit event data) rfl hr.symm (rjSubmit_open hr hopen hqueue hwaiting)
  · obtain ⟨r, hr⟩ : ∃ r, r = rjRecordWrite [] [] s.dev := ⟨_, rfl⟩
    refine gives_of_eq (f := rjRecordWrite [] []) rfl hr.symm ?_
    rw [rjRecordWrite_quiet hopen hbanks hqueue hwaiting hroom htype] at hr
    exact recordStands_gives hr hslot hring
  · obtain ⟨r, hr⟩ : ∃ r, r = rjRecordWrite [] [] s.dev := ⟨_, rfl⟩
    have hrows : r.journal.rows = (writtenJournal x rest s.dev).rows := hr ▸ rjRecordWrite_rows hopen hbanks hqueue hroom
    refine gives_of_eq (f := rjRecordWrite [] []) rfl hr.symm ?_
    have hother := recordIn_bothBanks_ne (j := { s.dev.journal with queue := rest }) (b := recordBytes s.dev.nextSeq x.qtime x.bytes) (k := bank) hring hi hne
    rw [hslot] at hother
    rw [recordIn_rows hrows]
    exact hother.trans (recordIn_rows (j := { s.dev.journal with queue := rest }) (k := s.dev.journal) rfl bank event i)
  · obtain ⟨r, hr⟩ : ∃ r, r = rjRecordWrite [true, true] [] s.dev := ⟨_, rfl⟩
    exact gives_of_eq (f := rjRecordWrite [true, true] []) rfl hr.symm (rjRecordWrite_lost hr hopen hbanks hspares hqueue hevent hslot)

end Sys2Proof.Proofs
end
